-- ==== Sys2Proof/Word.lean ====
section
/-!
DEFINITION. Word types of the GVX-AM64 model and their plainest arithmetic (R8: bit 0 is the least
significant bit, multi-byte fields are little-endian).
-/

namespace Sys2Proof

/-- One byte. -/
abbrev Byte := BitVec 8

/-- A 32-bit register word. -/
abbrev Word := BitVec 32

/-- A 64-bit word: stack addresses, CLK_TIME, tags. -/
abbrev Word64 := BitVec 64

/-- A sparse table: entries at strictly rising keys; a key that is absent holds the table's default. -/
abbrev SMap (α : Type) := List (Nat × α)

end Sys2Proof
end

