-- ==== Sys2Proof/Syntax.lean ====
section
/-!
DEFINITION. The commands of the GVX-AM64 (spec/opcode_table.json): one constructor of `Instr` per row, and the types
of their operands. An operand is what reaches the block from outside the step: a tile, a port, a message as received,
a measurement, or the outcome of an analogue or physical process that the spec does not compute.
-/

namespace Sys2Proof

/-- One of the two PCI Express ports (chapter 11). -/
inductive Port where
  | a
  | b
deriving DecidableEq, Repr

/-- A physical tile: column `u` 0–167, row `y` 0–159 (Table 0.3). -/
structure TileId where
  u : Nat
  y : Nat
deriving DecidableEq, Repr

/-- The rails of a field (Table 13.3). -/
inductive Rail where
  | vcore
  | varray
  | vana
deriving DecidableEq, Repr

/-- How a buck phase failed (R316). -/
inductive PhaseKind where
  | opened
  | shorted
deriving DecidableEq, Repr

/-- Who sends a dictionary request (Table 16.5). `vf port n`: the mailbox of VF n (1–32) of the port. -/
inductive Caller where
  | pf (port : Port)
  | vf (port : Port) (n : Nat)
  | net (address udpPort : Nat)
deriving DecidableEq, Repr

/-- Router ports in the port order of R157: L, W, S, E, N. -/
inductive Dir where
  | l
  | w
  | s
  | e
  | n
deriving DecidableEq, Repr

/-- The outcome of an RSA signature check made by the engine of R370, which the model does not compute. -/
inductive SigCheck where
  | valid
  | invalid
deriving DecidableEq, Repr

/-- A destination word (Table 6.2), field by field. -/
structure Dest where
  rop : Nat
  route : Nat
  tileY : Nat
  tileX : Nat
  window : Nat
  offset : Nat
deriving DecidableEq, Repr

/-- A flit (R144, Table 6.1): the tag field by field, and 32 payload bytes. -/
structure Flit where
  be : BitVec 32
  way : Nat
  id : Nat
  srcY : Nat
  srcX : Nat
  kind : Nat
  part : Nat
  phase1 : Bool
  incomplete : Bool
  last : Bool
  vn : Nat
  dest : Dest
  payload : List Byte
  /-- Rim router by which a message of window 6 leaves, chosen at injection (R151). -/
  exit : Option TileId := none
deriving DecidableEq, Repr

/-- A message as an agent of a tile hands it to the injecting router (R152). -/
structure Message where
  kind : Nat
  vn : Nat
  id : Nat
  dest : Dest
  be : BitVec 32
  flits : List (List Byte)
deriving DecidableEq, Repr

/-- A message of the dictionary protocol (Table 16.6), field by field; `reserved` holds byte 3 bits [7:3]. -/
structure DictMsg where
  pver : Nat
  resp : Bool
  overlay : Bool
  shadowed : Bool
  reserved : Nat
  seq : Nat
  part : Nat
  ovl : Nat
  index : Nat
  sub : Nat
  type : Nat
  len : Nat
  status : Nat
  offset : Nat
  total : Nat
  value : List Byte
deriving DecidableEq, Repr

/-- A Falram packet as it travels (Tables 12.2, 12.3): its link, the header with its reserved bits (byte 3 [7:4], bytes
28–31), the payload as sent, the ICV and the CRC-32C; `address` is its destination. -/
structure FalramPkt where
  link : Nat
  vmaj : Nat
  vmin : Nat
  enc : Bool
  mcast : Bool
  kslot : Nat
  last : Bool
  srcDev : Nat
  dst : Nat
  stream : Nat
  psn : Nat
  offset : Nat
  len : Nat
  status : Nat
  res3 : Nat
  res28 : Nat
  payload : List Byte
  address : Nat
  icv : List Byte
  crc : Nat
deriving DecidableEq, Repr

/-- The measured trims of one array's calibration (R75, Table 3.6): offset shift, gain shift and unit pulse trim of
the current band, and the offset and gain trims of the 128 ADCs. -/
structure TrimSet where
  offset : Int
  gain : Int
  pulse : Int
  adcs : List (Int × Int)
deriving DecidableEq, Repr

/-- What step 10 of a switch-on finds at the arrays of a field (R322): those that fail their scrub, and the trims that the
calibration of the others gives. -/
structure ArrayReport where
  failed : List (TileId × Nat)
  trims : List (TileId × Nat × TrimSet)
deriving DecidableEq, Repr

/-- A link of the mesh by the physical tile that sends on it and the direction (R147). -/
structure LinkId where
  t : TileId
  dir : Dir
deriving DecidableEq, Repr

/-- What a start finds in the module and at its pins (Table 17.1, R397, R398, R425): the reference, MOD_RST_N, the
Trailhead checks of R373, stacks that fail training, fields whose switch-on fails twice, arrays that fail the
start-up scrub (R354), the tray's Ethernet selections (R418), and capacities of stacks. -/
structure StartEnv where
  refclk : Bool
  modRstLow : Bool
  romKeyOk : Bool
  imageOk : Bool
  imageDigestNew : Bool
  stacksOffline : List Nat
  /-- Capacity read from a stack's identification where it is not 96 GB (Table 5.12): stack, bytes. -/
  stackSizes : List (Nat × Nat)
  fieldsFailed : List Nat
  failedArrays : List (TileId × Nat)
  ethNSel : Bool
  ethSSel : Bool
  /-- ETH_N_REFCLK and ETH_S_REFCLK are present (R424). -/
  ethNClk : Bool
  ethSClk : Bool
  /-- Trims that the start-up calibration measured where they differ from those loaded: tile, array, trims (R77). -/
  trims : List (TileId × Nat × TrimSet)
  /-- Phases that fail the self-test of a field's switch-on (R317): field, phase. -/
  failedPhases : List (Nat × Nat)
  /-- Failed links that carry every flit of their retest (R412). -/
  linksPassed : List LinkId
deriving DecidableEq, Repr

/-- What a command written to the dictionary finds where its outcome is physical or the signature engine's: the start
that a reset or an exit from standby runs, Trailhead's checks of R373, and an image signature. -/
structure CmdEnv where
  start : StartEnv
  romKeyOk : Bool
  imageOk : Bool
  sig : SigCheck
deriving DecidableEq, Repr

/-- The results of one field switch-on (Table 13.5): the highest plane draw of the other fields (0.1 A), the phases
that failed the self-test, whether branch and rails came into tolerance, and whether the fuse tripped. -/
structure SwitchOnEnv where
  planeDraw : Nat
  failedPhases : List Nat
  railsOk : Bool
  fuseTripped : Bool
deriving DecidableEq, Repr

/-- One field's power measurements of the last grant period (R321), in W: VCORE input power and charge power. -/
structure FieldPower where
  field : Nat
  core : Nat
  charge : Nat
deriving DecidableEq, Repr

/-- What the hub measures for a grant period (R321, R338): rim power, conversion loss, plane voltages (mV, index
4b + a), the fields' powers, and the coolant readings (0.1 °C, 0.1 °C, 0.1 L/min) or none while missing. -/
structure GrantEnv where
  rim : Nat
  loss : Nat
  planeMv : List Nat
  fields : List FieldPower
  coolant : Option (Int × Int × Nat)
deriving DecidableEq, Repr

/-- One field's temperature sample (R337, R72), all in 0.1 °C: the highest working tile sensor, the four
charge-wafer sensors, the highest of any sensor, sensors excluded now, and whether a row has no working sensor.
`vcoreOver`: VCORE current above 95 % of its maximum; `vcoreUnder`: below 90 %. -/
structure TempSample where
  tileMax : Int
  charge : List Int
  excluded : List Nat
  rowWithout : Bool
  vcoreOver : Bool
  vcoreUnder : Bool
deriving DecidableEq, Repr

/-- The outcome of programming one row (R60): retries used, and the cells that its final verify reads off level,
each with the 2-bit level code read. -/
structure RowOutcome where
  retries : Nat
  offLevel : List (Nat × Nat)
deriving DecidableEq, Repr

/-- Who makes a scratchpad access (Table 5.3). -/
inductive SpAgent where
  | tensor
  | heldLoad
  | vector
  | post
  | mover (ch : Nat)
  | remote
  | core
deriving DecidableEq, Repr

/-- The state of one 8-byte granule as an access finds it (R120). `multi` is an error of three or more bits: its
outcome is open within the bounds of R120, and `seenAsDouble` says which outcome the code gave. -/
inductive EccFind where
  | single (granule : Nat)
  | double (granule : Nat)
  | multi (granule : Nat) (seenAsDouble : Bool) (counted : Bool) (kept : List Byte)
deriving DecidableEq, Repr

/-- A local scratchpad access (R117): a read of `len` bytes, or a write of bytes with enables (`none`: a byte not
enabled), and the upsets the access finds. -/
structure SpAccess where
  agent : SpAgent
  offset : Nat
  len : Nat
  write : Option (List (Option Byte))
  waited : Nat
  ecc : List EccFind
deriving DecidableEq, Repr

/-- What a stack controller finds in one 64-byte unit (R140). -/
inductive UnitFind where
  | clean
  | onDie
  | oneSymbol
  | uncorrectable
deriving DecidableEq, Repr

/-- A tile register access target. `core`: the tile's own program; `remoteReg`: the loader, the hub or a debugger
through the management path (R179). `bar`: a host write to BAR0 of function `fn` (0 the PF, 1–32 the VFs); `bar64`: one of
64 bits, with its upper word (R284). -/
inductive RegTarget where
  | core (t : TileId) (offset : Nat)
  | mgmt (t : TileId) (offset : Nat)
  | bar (port : Port) (fn : Nat) (offset : Nat)
  | bar64 (port : Port) (fn : Nat) (offset : Nat) (high : BitVec 32)
deriving DecidableEq, Repr

/-- Number formats of the vector unit's lanes (R109). -/
inductive VFmt where
  | fp32
  | bf16
deriving DecidableEq, Repr

/-- Arithmetic class operations (Table 4.6). -/
inductive VArith where
  | add
  | sub
  | mul
  | fma
  | abs
  | neg
deriving DecidableEq, Repr

/-- Compare-and-select class operations (Table 4.6). -/
inductive VCmp where
  | min
  | max
  | compareLt
  | compareLe
  | compareEq
  | select
deriving DecidableEq, Repr

/-- Conversion class operations (Table 4.6). -/
inductive VConv where
  | int32ToFp32
  | fp32ToInt32
  | fp32ToBf16
  | bf16ToFp32
  | fp32ToE4m3
  | fp32ToE5m2
  | quantA4
  | quantA8
  | quantInt8
deriving DecidableEq, Repr

/-- Reductions (Table 4.6). -/
inductive VRed where
  | sum
  | max
  | sumSq
deriving DecidableEq, Repr

/-- Where the first operand of a vector operation comes from (R109): its register, the scratchpad at an offset, or the
input queue. -/
inductive VSrc where
  | regs
  | spad (offset : Nat)
  | queue
deriving DecidableEq, Repr

/-- Operands of a vector operation: destination register, up to three source registers with where each operand comes from
(R109), and the general register g_b that holds the element count (Table 7.3). -/
structure VOperands where
  d : Fin 32
  a : Fin 32
  b : Fin 32
  c : Fin 32
  gb : Fin 32
  src : VSrc
  srcB : VSrc := .regs
  srcC : VSrc := .regs
deriving DecidableEq, Repr

/-- Sampling parameters and candidates of a draw (R112): the request's seed, temperature, top-k and top-p, the
position generated, the vocabulary size, and the merged candidates (token, logit as FP32 bits). -/
structure DrawArgs where
  seed : BitVec 64
  temp : BitVec 32
  topK : Nat
  topP : BitVec 32
  position : Nat
  vocab : Nat
  cands : List (Nat × BitVec 32)
deriving DecidableEq, Repr

/-- One token ID returned to the lead core (R244 step 1): request, token, logit, and the CLK_TIME of its sampling
(R248). -/
structure Sampled where
  req : Nat
  token : Nat
  logit : BitVec 32
  time : Nat
deriving DecidableEq, Repr

/-- The order in which a merge combines what the attention tiles send (R209). -/
inductive MergeTree where
  | leaf (t : TileId)
  | node (l r : MergeTree)
deriving DecidableEq, Repr

/-- How a merge root requantises for the output projection (R49, R218): reciprocal scale, zero point, and A8 or A4. -/
structure Requant where
  rcp : BitVec 32
  zero : Nat
  a8 : Bool
deriving DecidableEq, Repr

/-- A returned host read (R292). -/
inductive HostReadResult where
  | data (bytes : List Byte)
  | unsupported
  | aborted
  | poisoned
deriving DecidableEq, Repr

/-- What a host read was for (R287). -/
inductive HostReadUse where
  | fetch (vf : Nat)
  | prompt (part req : Nat)
  | stage (part : Nat)
deriving DecidableEq, Repr

/-- BAR misuse (Table 11.6). -/
inductive BarMisuse where
  | badSize
  | poisonedWrite
  | unboundVf
  | malformedTlp
deriving DecidableEq, Repr

/-- Cause of a management restart (OD 0x1130.04). -/
inductive RestartCause where
  | watchdog
  | sramError
  | command
  | activation
  | recovery
deriving DecidableEq, Repr

/-- What the code of R147 finds on the link that a flit arrived over. -/
inductive LinkEvent where
  | clean
  | corrected (n : Nat)
  | retried (n : Nat)
  | failed
deriving DecidableEq, Repr

/-- The commands of the block: one constructor per row of spec/opcode_table.json. DESIGN CHOICE, log 6. -/
inductive Instr where
  /-- COLD_POWER_ON (R396): the module starts from cold through the course of Table 17.1. -/
  | coldPowerOn (env : StartEnv)
  /-- REFCLK_RETURN (R397): REFCLK_MGT appears; a waiting start resumes from the 49 ms row. -/
  | refclkReturn (env : StartEnv)
  /-- REFCLK_LOSS (R331). -/
  | refclkLoss
  /-- PLL_LOSS_OF_LOCK (R331): the hub performs a device warm reset. -/
  | pllLossOfLock (env : StartEnv)
  /-- MOD_RST_N_ASSERT (R400): held low for at least 10 µs. -/
  | modRstNAssert
  /-- MOD_RST_N_RELEASE (R400). -/
  | modRstNRelease (env : StartEnv)
  /-- DEVICE_WARM_RESET (R400): maintenance command 0x83, with its FIELDS bytes. -/
  | deviceWarmReset (caller : Caller) (fields : BitVec 64) (env : StartEnv)
  /-- SAG_START (R325): the input falls below 37.0 V, to `mv`. -/
  | sagStart (mv : Nat)
  /-- SAG_END (R325): the sag's extremes as the minimum-hold stages give them. -/
  | sagEnd (field vcoreMin : Nat)
  /-- STAGE_ONE_DROPOUT (R326): `vstbyHolds` says whether VSTBY holds; the sag's extremes as in `sagEnd`. -/
  | stageOneDropout (vstbyHolds : Bool) (field vcoreMin : Nat)
  /-- OVERVOLTAGE_LOCKOUT (R311). -/
  | overvoltageLockout
  /-- OVERVOLTAGE_RECOVERY (R311). -/
  | overvoltageRecovery (env : StartEnv)
  /-- CURRENT_STEP_ESTIMATE (R327): ΔV in mV and ΔI in 0.1 A of an input current step above 50 A. -/
  | currentStepEstimate (dMv dDeciAmp : Nat)
  /-- FUSE_TRIP (R319). -/
  | fuseTrip (field : Nat)
  /-- PHASE_FAILURE (R317): phase `phase` of the rail, numbered within the rail. -/
  | phaseFailure (field : Nat) (rail : Rail) (phase : Nat) (kind : PhaseKind)
  /-- FIELD_SWITCH_ON (R322): steps 1–9 of Table 13.5. -/
  | fieldSwitchOn (field : Nat) (env : SwitchOnEnv)
  /-- FIELD_READY (R322): step 10 of Table 13.5; what the scrub and the calibration of the arrays give, and the links that
  pass retest. -/
  | fieldReady (field : Nat) (arrays : ArrayReport) (linksPassed : List LinkId)
  /-- PLANE_OVERCURRENT (R321): plane P(a,b), index 4b + a. -/
  | planeOvercurrent (plane : Nat)
  /-- GRANT_PERIOD (R321). -/
  | grantPeriod (env : GrantEnv)
  /-- FIELD_GRANT_TICK (R321): the field's charge power over the last 100 µs, W. -/
  | fieldGrantTick (field chargeW : Nat)
  /-- CLEAR_MINIMUM_RECORDS (R324). -/
  | clearMinimumRecords (caller : Caller)
  /-- STILE_SOURCE_FAILURE (R335): no edge from the Stile's selected source for 16 cycles. -/
  | stileSourceFailure (field : Nat)
  /-- FIELD_TEMPERATURE_SAMPLE (R337). -/
  | fieldTemperatureSample (field : Nat) (sample : TempSample)
  /-- THROTTLE_STEP_DOWN (R340). -/
  | throttleStepDown (field : Nat)
  /-- THROTTLE_STEP_UP (R340). -/
  | throttleStepUp (field : Nat)
  /-- URGENT_ROTATION (R340): per field-local row, the hottest active tile's position, its 90 s mean and the
  spare's (0.1 °C). -/
  | urgentRotation (field : Nat) (rows : List (Nat × Nat × Int × Int))
  /-- EVACUATION (R341). -/
  | evacuation (field : Nat)
  /-- OFF_FOR_HEAT (R340). -/
  | offForHeat (field : Nat)
  /-- CRITICAL_LIMIT (R340). -/
  | criticalLimit (field : Nat)
  /-- HEAT_RETURN (R341). -/
  | heatReturn (field : Nat)
  /-- RELEASE_FIELD_HELD_OFF (R341): write of `value` to OD 0x2306.(1 + field). -/
  | releaseFieldHeldOff (caller : Caller) (field value : Nat)
  /-- COOLANT_READING_LOSS (R338). -/
  | coolantReadingLoss
  /-- OUTLET_LIMIT_STEP (R338). -/
  | outletLimitStep
  /-- I3C_RESCAN (R378): the readings found, or none. -/
  | i3cRescan (coolant : Option (Int × Int × Nat))
  /-- THERMAL_CYCLE_SAVE (R346). -/
  | thermalCycleSave
  /-- EMBERS_WARMING (R345). -/
  | embersWarming (field : Nat)
  /-- ROTATION_INTERVAL (R342): field-local row, its hottest active tile's position j, its 90 s mean and the spare's. -/
  | rotationInterval (field row j : Nat) (hot spare : Int)
  /-- ROTATION_COPY_DONE (R344): `spareOk` is false when a row of the spare failed write-verify. -/
  | rotationCopyDone (field row : Nat) (spareOk : Bool)
  /-- ROTATION_SWAP (R344). -/
  | rotationSwap (field row : Nat)
  /-- ROTATION_COPY_TIMEOUT (R344). -/
  | rotationCopyTimeout (field row : Nat)
  /-- ROTATION_SWAP_TIMEOUT (R344). -/
  | rotationSwapTimeout (field row : Nat)
  /-- TOKEN_BOUNDARY (R31). -/
  | tokenBoundary (t : TileId)
  /-- SEGMENT_INPUT_WORD (R46): word `idx` of segment `seg`, 32 bytes, from logical tile (srcX, srcY). -/
  | segmentInputWord (t : TileId) (seg idx : Nat) (word : List Byte) (srcX srcY : Nat)
  /-- PASS_START (R46): the ready pass of array `a`. -/
  | passStart (t : TileId) (a : Nat)
  /-- POST_STAGE (R51): the codes of array `a` are complete. -/
  | postStage (t : TileId) (a : Nat)
  /-- LOOKOUT_REREAD_DONE (R93). -/
  | lookoutRereadDone (t : TileId) (a : Nat)
  /-- WRITE_BURST (R58): header and rows as received, from logical tile (srcX, srcY). -/
  | writeBurst (t : TileId) (hdr : List Byte) (rows : List (List Byte)) (srcX srcY : Nat)
  /-- HELD_BURST_RELEASE (R59). -/
  | heldBurstRelease (t : TileId) (a : Nat)
  /-- ROW_WRITE_VERIFY (R60): the next row of array `a`'s burst. -/
  | rowWriteVerify (t : TileId) (a : Nat) (outcome : RowOutcome)
  /-- COLUMN_SUM_RECOMPUTE (R61). -/
  | columnSumRecompute (t : TileId) (a : Nat)
  /-- READ_REQUEST (R61): header as received, from logical tile (srcX, srcY). -/
  | readRequest (t : TileId) (hdr : List Byte) (srcX srcY : Nat)
  /-- SEGMENT_ENABLE (R53): a write of `value` with EN = 1 to CB_SEG_CFG0 of segment `seg`. -/
  | segmentEnable (t : TileId) (seg : Nat) (value : Word)
  /-- SEGMENT_DISABLE (R54). -/
  | segmentDisable (t : TileId) (seg : Nat) (value : Word)
  /-- SEGMENT_CONFIG_WRITE (R54): register offset within the segment's block, 0x00–0x14. -/
  | segmentConfigWrite (t : TileId) (seg offset : Nat) (value : Word)
  /-- CHANNEL_TABLE_WRITE (R53): the 16 bytes of entry `n`. -/
  | channelTableWrite (t : TileId) (n : Nat) (entry : List Byte)
  /-- CALIBRATION_DUE (R76). -/
  | calibrationDue (t : TileId) (a : Nat)
  /-- CALIBRATION_START (R76). -/
  | calibrationStart (t : TileId) (arrays : List Nat)
  /-- CALIBRATION_COMMIT (R75): the measured trims. -/
  | calibrationCommit (t : TileId) (a : Nat) (measured : TrimSet)
  /-- CALIBRATION_LATE (R78). -/
  | calibrationLate (t : TileId) (a : Nat)
  /-- USER_CALIBRATION_SAVE (R80). -/
  | userCalibrationSave
  /-- SAVE_USER_CALIBRATION_NOW (R80): write of `value` to OD 0x3002.02. -/
  | saveUserCalibrationNow (caller : Caller) (value : Nat)
  /-- REFRESH_DUE (R82). -/
  | refreshDue (t : TileId) (a : Nat)
  /-- REFRESH_ROW (R82): the next row of array `a`; `verified` is the outcome of its verify. -/
  | refreshRow (t : TileId) (a : Nat) (verified : Bool)
  /-- REFRESH_FORCED (R83). -/
  | refreshForced (t : TileId) (a : Nat)
  /-- REJUVENATION (R86): one row of array `a` of the tile, rewritten from the stored Hamper. -/
  | rejuvenation (t : TileId) (a row : Nat) (outcome : RowOutcome)
  /-- EXACT_ARRAY_READ (R67): the cells that the first and the second read return off their stored level. -/
  | exactArrayRead (t : TileId) (a : Nat) (first second : List (Nat × Nat × Nat))
  /-- EXACT_STREAM (R107): segment `seg`. -/
  | exactStream (t : TileId) (seg : Nat)
  /-- TENSOR_OPERATION (R98). -/
  | tensorOperation (t : TileId)
  /-- HELD_LOAD (R105). -/
  | heldLoad (t : TileId)
  /-- TENSOR_DRAIN (R106). -/
  | tensorDrain (t : TileId)
  /-- SCRATCHPAD_ACCESS (R117). -/
  | scratchpadAccess (t : TileId) (acc : SpAccess)
  /-- REMOTE_WRITE (R122). -/
  | remoteWrite (t : TileId) (f : Flit)
  /-- REMOTE_READ (R430). -/
  | remoteRead (t : TileId) (f : Flit)
  /-- FETCH_AND_ADD (R123). -/
  | fetchAndAdd (t : TileId) (f : Flit)
  /-- COMPARE_AND_SWAP_32 (R123). -/
  | compareAndSwap32 (t : TileId) (f : Flit)
  /-- COMPARE_AND_SWAP_64 (R123). -/
  | compareAndSwap64 (t : TileId) (f : Flit)
  /-- VECTOR_QUEUE_WORD (R109): the word and its index (window 4). -/
  | vectorQueueWord (t : TileId) (idx : Nat) (word : List Byte)
  /-- TAIL_WRITE (R127). -/
  | tailWrite (t : TileId) (ch : Nat) (value : Word)
  /-- CHANNEL_ENABLE (R135). -/
  | channelEnable (t : TileId) (ch : Nat)
  /-- CHANNEL_DISABLE (R130). -/
  | channelDisable (t : TileId) (ch : Nat)
  /-- MOVER_RESUME (R130). -/
  | moverResume (t : TileId) (ch : Nat)
  /-- PACE_WRITE (R134). -/
  | paceWrite (t : TileId) (ch : Nat) (value : Word)
  /-- PACING_TIMEOUT (R134). -/
  | pacingTimeout (t : TileId) (ch : Nat)
  /-- DESCRIPTOR_FETCH (R134). -/
  | descriptorFetch (t : TileId) (ch : Nat)
  /-- COPY (R131): the descriptor with ring count `count`. -/
  | copy (t : TileId) (ch count : Nat)
  /-- TRANSPOSED_COPY (R121). -/
  | transposedCopy (t : TileId) (ch count : Nat)
  /-- FILL (R125). -/
  | fill (t : TileId) (ch count : Nat)
  /-- MARKER (R129). -/
  | marker (t : TileId) (ch count : Nat)
  /-- DESCRIPTOR_WRITEBACK (R129). -/
  | descriptorWriteback (t : TileId) (ch : Nat)
  /-- STACK_ACCESS (R140): partition stack address, the bytes written or none for a read of `len`, and what the
  controller finds in each 64-byte unit met. -/
  | stackAccess (part addr len : Nat) (write : Option (List Byte)) (found : List UnitFind)
  /-- STACK_FAILURE (R137). -/
  | stackFailure (stack : Nat)
  /-- PATROL_SCRUB (R140): units found in error, by device address of the unit. -/
  | patrolScrub (found : List (Nat × UnitFind))
  /-- MESSAGE_INJECTION (R152). -/
  | messageInjection (t : TileId) (m : Message)
  /-- FLIT_FORWARD (R149): the oldest flit at the input `port` on virtual network `vn`. -/
  | flitForward (t : TileId) (port : Dir) (vn : Nat) (link : LinkEvent)
  /-- FLIT_EJECTION (R152). -/
  | flitEjection (t : TileId) (port : Dir) (vn : Nat)
  /-- REDUCTION_COMBINE (R157): the key (ROUTE, ID, WINDOW, OFFSET). -/
  | reductionCombine (t : TileId) (route id window offset : Nat)
  /-- REDUCTION_TIMEOUT (R158). -/
  | reductionTimeout (t : TileId) (route id window offset : Nat)
  /-- RELEASED_KEY_EXPIRY (R158). -/
  | releasedKeyExpiry (t : TileId) (route id window offset : Nat)
  /-- READ_DATA_RECEIPT (R430). -/
  | readDataReceipt (t : TileId) (f : Flit)
  /-- ACKNOWLEDGEMENT_RECEIPT (R154). -/
  | acknowledgementReceipt (t : TileId) (f : Flit)
  /-- REFUSAL_RECEIPT (R166). -/
  | refusalReceipt (t : TileId) (f : Flit)
  /-- RESPONSE_TIMEOUT (R165): the operation with this transaction ID. -/
  | responseTimeout (t : TileId) (id : Nat)
  /-- RIM_INGRESS (R151): a message entering from the side `side`. -/
  | rimIngress (side : Dir) (f : Flit)
  /-- DETOUR_DRAIN_COMPLETE (R164). -/
  | detourDrainComplete
  /-- DETOUR_DRAIN_LIMIT_EXPIRY (R164). -/
  | detourDrainLimitExpiry
  /-- ADD (R172). -/
  | add (t : TileId) (d a b : Fin 32)
  /-- SUB (R172). -/
  | sub (t : TileId) (d a b : Fin 32)
  /-- AND (R172). -/
  | and (t : TileId) (d a b : Fin 32)
  /-- OR (R172). -/
  | or (t : TileId) (d a b : Fin 32)
  /-- XOR (R172). -/
  | xor (t : TileId) (d a b : Fin 32)
  /-- SLL (R172). -/
  | sll (t : TileId) (d a b : Fin 32)
  /-- SRL (R172). -/
  | srl (t : TileId) (d a b : Fin 32)
  /-- SRA (R172). -/
  | sra (t : TileId) (d a b : Fin 32)
  /-- SLT (R172). -/
  | slt (t : TileId) (d a b : Fin 32)
  /-- SLTU (R172). -/
  | sltu (t : TileId) (d a b : Fin 32)
  /-- ADDI (R172). -/
  | addi (t : TileId) (d a : Fin 32) (imm : BitVec 16)
  /-- ANDI (R172). -/
  | andi (t : TileId) (d a : Fin 32) (imm : BitVec 16)
  /-- ORI (R172). -/
  | ori (t : TileId) (d a : Fin 32) (imm : BitVec 16)
  /-- XORI (R172). -/
  | xori (t : TileId) (d a : Fin 32) (imm : BitVec 16)
  /-- SLTI (R172). -/
  | slti (t : TileId) (d a : Fin 32) (imm : BitVec 16)
  /-- SHIFT_IMMEDIATE (R172): shift in IMM[4:0], kind in IMM[6:5]. -/
  | shiftImmediate (t : TileId) (d a : Fin 32) (imm : BitVec 16)
  /-- LUI (R172). -/
  | lui (t : TileId) (d : Fin 32) (imm : BitVec 16)
  /-- MUL (R173). -/
  | mul (t : TileId) (d a b : Fin 32)
  /-- MULH (R173). -/
  | mulh (t : TileId) (d a b : Fin 32)
  /-- MULHU (R173). -/
  | mulhu (t : TileId) (d a b : Fin 32)
  /-- LB (R171). -/
  | lb (t : TileId) (d a : Fin 32) (imm : BitVec 16)
  /-- LBU (R171). -/
  | lbu (t : TileId) (d a : Fin 32) (imm : BitVec 16)
  /-- LH (R171). -/
  | lh (t : TileId) (d a : Fin 32) (imm : BitVec 16)
  /-- LHU (R171). -/
  | lhu (t : TileId) (d a : Fin 32) (imm : BitVec 16)
  /-- LW (R171). -/
  | lw (t : TileId) (d a : Fin 32) (imm : BitVec 16)
  /-- SB (R171): value in g_d. -/
  | sb (t : TileId) (d a : Fin 32) (imm : BitVec 16)
  /-- SH (R171). -/
  | sh (t : TileId) (d a : Fin 32) (imm : BitVec 16)
  /-- SW (R171). -/
  | sw (t : TileId) (d a : Fin 32) (imm : BitVec 16)
  /-- BEQ (R173): offset in words from the next PC. -/
  | beq (t : TileId) (a b : Fin 32) (off : BitVec 16)
  /-- BNE (R173). -/
  | bne (t : TileId) (a b : Fin 32) (off : BitVec 16)
  /-- BLT (R173). -/
  | blt (t : TileId) (a b : Fin 32) (off : BitVec 16)
  /-- BGE (R173). -/
  | bge (t : TileId) (a b : Fin 32) (off : BitVec 16)
  /-- BLTU (R173). -/
  | bltu (t : TileId) (a b : Fin 32) (off : BitVec 16)
  /-- BGEU (R173). -/
  | bgeu (t : TileId) (a b : Fin 32) (off : BitVec 16)
  /-- J (R173). -/
  | j (t : TileId) (off : BitVec 26)
  /-- JAL (R173): link in g31. -/
  | jal (t : TileId) (off : BitVec 26)
  /-- JR (R173). -/
  | jr (t : TileId) (a : Fin 32)
  /-- JALR (R173). -/
  | jalr (t : TileId) (d a : Fin 32)
  /-- TSUB (R174): the descriptor at address g_a. -/
  | tsub (t : TileId) (a : Fin 32)
  /-- VLD (R174): v_d from scratchpad offset g_a. -/
  | vld (t : TileId) (d a : Fin 32)
  /-- VST (R174). -/
  | vst (t : TileId) (d a : Fin 32)
  /-- VTST (R174): DST in g_a, parameters in the pair g_b. -/
  | vtst (t : TileId) (d a b : Fin 32)
  /-- VOP_ARITHMETIC (R110). -/
  | vopArithmetic (t : TileId) (op : VArith) (fmt : VFmt) (ops : VOperands)
  /-- VOP_COMPARE_AND_SELECT (R110). -/
  | vopCompareAndSelect (t : TileId) (op : VCmp) (fmt : VFmt) (ops : VOperands)
  /-- VOP_CONVERSION (R110): quantisation multiplies by `rcp` and adds `zp` as R49 does. -/
  | vopConversion (t : TileId) (op : VConv) (rcp : BitVec 32) (zp : Nat) (ops : VOperands)
  /-- VOP_RECIPROCAL (R110): `sqrt` selects the reciprocal square root. -/
  | vopReciprocal (t : TileId) (sqrt : Bool) (fmt : VFmt) (ops : VOperands)
  /-- VOP_EXP (R110): `base2` selects exp2. -/
  | vopExp (t : TileId) (base2 : Bool) (fmt : VFmt) (ops : VOperands)
  /-- SIGMOID (R110). -/
  | sigmoid (t : TileId) (fmt : VFmt) (ops : VOperands)
  /-- SILU (R110). -/
  | silu (t : TileId) (fmt : VFmt) (ops : VOperands)
  /-- SOFTMAX_STEP (R110, R209): row maximum (INT32) in lane 0 of v_b, s_Q in lane 0 of v_c. -/
  | softmaxStep (t : TileId) (ops : VOperands)
  /-- VECTOR_REDUCTION (R110): accumulated across issues in lane 0 of v_d. -/
  | vectorReduction (t : TileId) (op : VRed) (first : Bool) (ops : VOperands)
  /-- TOP_64_SELECT (R110): indices count on from `base`. -/
  | top64Select (t : TileId) (first : Bool) (base : Nat) (ops : VOperands)
  /-- DRAW (R112): the token goes to g_d. -/
  | draw (t : TileId) (d : Fin 32) (args : DrawArgs)
  /-- SEND (R176): 32 B at data SRAM address g_a to the destination word in the pair g_b. -/
  | send (t : TileId) (a b : Fin 32)
  /-- RECV (R176). -/
  | recv (t : TileId) (d a : Fin 32)
  /-- RLD (R177). -/
  | rld (t : TileId) (d b : Fin 32)
  /-- RST (R177). -/
  | rst (t : TileId) (d b : Fin 32)
  /-- RAMO_FETCH_AND_ADD (R177). -/
  | ramoFetchAndAdd (t : TileId) (d a b : Fin 32)
  /-- RAMO_COMPARE_AND_SWAP_32 (R177). -/
  | ramoCompareAndSwap32 (t : TileId) (d a b : Fin 32)
  /-- RAMO_COMPARE_AND_SWAP_64 (R177). -/
  | ramoCompareAndSwap64 (t : TileId) (d a b : Fin 32)
  /-- WAIT (R175). -/
  | wait (t : TileId) (d a : Fin 32)
  /-- FENCE (R178). -/
  | fence (t : TileId)
  /-- NOP (R173). -/
  | nop (t : TileId)
  /-- HALT (R173). -/
  | halt (t : TileId)
  /-- TRAP (R173). -/
  | trap (t : TileId)
  /-- BRK (R197). -/
  | brk (t : TileId)
  /-- MESSAGE_RECEIPT (R176): a 32-byte message from logical tile (srcX, srcY). -/
  | messageReceipt (t : TileId) (msg : List Byte) (srcX srcY : Nat)
  /-- MESSAGE_QUEUE_TIMEOUT (R176). -/
  | messageQueueTimeout (t : TileId)
  /-- WATCHDOG_EXPIRY (R181). -/
  | watchdogExpiry (t : TileId)
  /-- WDOG_WRITE (R202). -/
  | wdogWrite (t : TileId) (value : Word)
  /-- TIMER_EXPIRY (R175). -/
  | timerExpiry (t : TileId)
  /-- HALT_REQUEST (R198): a management write of HALT to CC_CTRL; `partitionScope` is SCOPE. -/
  | haltRequest (t : TileId) (partitionScope : Bool)
  /-- RESUME (R200): a management write of RESUME to CC_CTRL. -/
  | resume (t : TileId) (partitionScope : Bool)
  /-- STEP (R200). -/
  | step (t : TileId)
  /-- HALT_PARTITION (R198): write of `value` to OD 0x7000.05. -/
  | haltPartition (caller : Caller) (part value : Nat)
  /-- RESUME_PARTITION (R200): write of `value` to OD 0x7000.06. -/
  | resumePartition (caller : Caller) (part value : Nat)
  /-- DRAIN_LIMIT_EXPIRY (R198). -/
  | drainLimitExpiry (part : Nat)
  /-- TRACE_TIME_RECORD (R195). -/
  | traceTimeRecord (t : TileId)
  /-- KV_WALK (R221): a token of request `req` enters stage `stage`, and the stage LEAD further on is walked. -/
  | kvWalk (part req stage : Nat)
  /-- ATTENTION_TOKEN (R218): a token of `req` at `position` with `maskLo` reaches the tile. -/
  | attentionToken (t : TileId) (req position maskLo cyclesWaited : Nat)
  /-- ATTENTION_RESUME (R218): for KV head `head`, the query vectors of its group (R207), and the new key and value of
  the token as FP32 elements (R206), empty where the token brings none. -/
  | attentionResume (t : TileId) (req head : Nat) (queries : List (List (BitVec 32))) (newKey newValue : List (BitVec 32))
  /-- ATTENTION_MERGE (R209): query head `head` at the merge root, in the order of a merge tree, and how the root
  requantises (R211, R218). -/
  | attentionMerge (t : TileId) (req head : Nat) (tree : MergeTree) (out : Requant)
  /-- PREFIX_INSERT (R228): prompt group `group` of request `req`. -/
  | prefixInsert (part req group : Nat)
  /-- MAKE_PREFIX_TREE_UNREACHABLE (R229): write of `value` to OD 0x5100.12. -/
  | makePrefixTreeUnreachable (caller : Caller) (part value : Nat)
  /-- REQUEST_FREE (R224). -/
  | requestFree (part req : Nat)
  /-- SUBMIT (R239): the 128-byte descriptor. -/
  | submit (part : Nat) (desc : List Byte)
  /-- PROMPT_READ_COMPLETE (R239): the token IDs read, or the code of the failed transfer. -/
  | promptReadComplete (part req : Nat) (ids : List Nat) (failCode : Nat)
  /-- CANCEL (R253): the 128-byte descriptor. -/
  | cancel (part : Nat) (desc : List Byte)
  /-- STEP_BOUNDARY (R244): the tokens returned since the last boundary. -/
  | stepBoundary (part : Nat) (tokens : List Sampled)
  /-- STAGE (R267): the 64-byte model command. -/
  | stage (caller : Caller) (part : Nat) (cmd : List Byte)
  /-- STAGE_DATA_ARRIVAL (R267). -/
  | stageDataArrival (part offset : Nat) (bytes : List Byte)
  /-- INSTALL (R269). -/
  | install (caller : Caller) (part : Nat) (cmd : List Byte)
  /-- INSTALL_RESUME (R269): rows that fail write-verify, as (tile, array, row) with their levels. -/
  | installResume (part : Nat) (rowsFailed : List (TileId × Nat × Nat × List (Nat × Nat)))
  /-- INSTALL_STREAM_DONE (R271): rows that still fail after the rewrite. -/
  | installStreamDone (part : Nat) (rowsFailed : List (TileId × Nat × Nat × List (Nat × Nat)))
  /-- DISCARD (R273). -/
  | discard (caller : Caller) (part : Nat) (cmd : List Byte)
  /-- ABORT (R267). -/
  | abort (caller : Caller) (part : Nat) (cmd : List Byte)
  /-- HQ_VER_WRITE (R285). -/
  | hqVerWrite (port : Port) (fn : Nat) (value : Word)
  /-- RING_ENABLE (R286): a write to HQ_CTRL. -/
  | ringEnable (port : Port) (fn : Nat) (value : Word)
  /-- SQ_TAIL_WRITE (R288). -/
  | sqTailWrite (port : Port) (fn : Nat) (value : Word)
  /-- CQ_HEAD_WRITE (R288). -/
  | cqHeadWrite (port : Port) (fn : Nat) (value : Word)
  /-- SUBMISSION_FETCH (R288): one read of up to 8 contiguous slots is issued. -/
  | submissionFetch (port : Port) (fn : Nat)
  /-- SUBMISSION_FETCH_TIMEOUT (R288). -/
  | submissionFetchTimeout (port : Port) (fn : Nat)
  /-- INTERRUPT_COALESCE_EXPIRY (R288). -/
  | interruptCoalesceExpiry (port : Port) (fn : Nat)
  /-- HOST_READ_COMPLETION (R292). -/
  | hostReadCompletion (port : Port) (use : HostReadUse) (result : HostReadResult)
  /-- HOST_READ_TIMEOUT (R292). -/
  | hostReadTimeout (port : Port) (use : HostReadUse)
  /-- HOST_READ_RETRY (R292). -/
  | hostReadRetry (port : Port) (use : HostReadUse)
  /-- LOCK_ACQUIRE (R290). -/
  | lockAcquire (port : Port)
  /-- LOCK_RELEASE (R290). -/
  | lockRelease (port : Port)
  /-- LEASE_WARNING (R290). -/
  | leaseWarning
  /-- LEASE_EXPIRY (R290). -/
  | leaseExpiry
  /-- PERST (R293): PERST#, a hot reset or DL_Down on the port. -/
  | perst (port : Port)
  /-- FUNCTION_LEVEL_RESET (R293). -/
  | functionLevelReset (port : Port) (fn : Nat)
  /-- D3HOT_ENTRY (R293). -/
  | d3hotEntry (port : Port) (fn : Nat)
  /-- D0_ENTRY (R293). -/
  | d0Entry (port : Port) (fn : Nat)
  /-- BUS_MASTER_DISABLE (R292): Bus Master Enable cleared (`set` = false) or set again. -/
  | busMasterDisable (port : Port) (fn : Nat) (set : Bool)
  /-- BAR_ACCESS_VIOLATION (R292). -/
  | barAccessViolation (port : Port) (fn : Nat) (kind : BarMisuse) (offset value : Nat)
  /-- IDE_STREAM_FAILURE (R291). -/
  | ideStreamFailure (port : Port) (fn : Nat)
  /-- QUERY (R362). -/
  | query (port : Port) (fn : Nat)
  /-- KEY_PROG (R362): key set, direction, sub-stream and the 32-byte key. -/
  | keyProg (port : Port) (fn keySet direction substream : Nat) (key : List Byte)
  /-- K_SET_GO (R362). -/
  | kSetGo (port : Port) (fn keySet : Nat)
  /-- K_SET_STOP (R362). -/
  | kSetStop (port : Port) (fn keySet : Nat)
  /-- HELLO (R301). -/
  | hello (p : FalramPkt)
  /-- KEEPALIVE (R302). -/
  | keepalive (p : FalramPkt)
  /-- JOIN (R305). -/
  | join (p : FalramPkt)
  /-- OPEN (R304). -/
  | openPkt (p : FalramPkt)
  /-- DATA (R303). -/
  | data (p : FalramPkt)
  /-- ACK (R303). -/
  | ack (p : FalramPkt)
  /-- NAK (R308). -/
  | nak (p : FalramPkt)
  /-- CLOSE (R307). -/
  | close (p : FalramPkt)
  /-- KEEPALIVE_TIMER (R302): for peer device `dev`. -/
  | keepaliveTimer (dev : Nat)
  /-- ACK_TIMER (R303): for the receiving stream of the partition. -/
  | ackTimer (part : Nat)
  /-- RETRANSMISSION_TIMEOUT (R303): packet `psn` of the partition's sending stream. -/
  | retransmissionTimeout (part psn : Nat)
  /-- JOIN_TIMER (R304). -/
  | joinTimer (part : Nat)
  /-- JOIN_WAIT_EXPIRY (R305). -/
  | joinWaitExpiry (part : Nat)
  /-- PEER_SILENCE (R302). -/
  | peerSilence (dev : Nat)
  /-- PEER_IDLE_EXPIRY (R301). -/
  | peerIdleExpiry (dev : Nat)
  /-- LLDP_TIMER (R296). -/
  | lldpTimer (link : Nat)
  /-- ETHERNET_LINK_CHANGE (R302). -/
  | ethernetLinkChange (link : Nat) (up : Bool)
  /-- NEIGHBOR_SOLICITATION (R297): on fabric link `link`, or on the management network with none; the target. -/
  | neighborSolicitation (link : Option Nat) (target : Nat)
  /-- ECHO_REQUEST (R297). -/
  | echoRequest (link : Option Nat) (target : Nat) (data : List Byte)
  /-- FOREIGN_FRAME (R297). -/
  | foreignFrame (link : Option Nat)
  /-- FABRIC_SEND (R307): the 32-byte command. -/
  | fabricSend (caller : Caller) (part : Nat) (cmd : List Byte)
  /-- FABRIC_ABORT (R307). -/
  | fabricAbort (caller : Caller) (part : Nat) (cmd : List Byte)
  /-- FORM (R351): the 8-byte command. -/
  | form (caller : Caller) (cmd : List Byte)
  /-- RESET (R351). -/
  | reset (caller : Caller) (cmd : List Byte)
  /-- DISSOLVE (R351). -/
  | dissolve (caller : Caller) (cmd : List Byte)
  /-- SCRUB_COMPLETE (R354). -/
  | scrubComplete (part : Nat) (failedArrays : List (TileId × Nat))
  /-- GET_VERSION (R357). -/
  | getVersion (port : Port) (fn : Nat)
  /-- GET_CAPABILITIES (R357). -/
  | getCapabilities (port : Port) (fn : Nat)
  /-- NEGOTIATE_ALGORITHMS (R357): whether the offer includes the set of Table 15.5. -/
  | negotiateAlgorithms (port : Port) (fn : Nat) (supported : Bool)
  /-- GET_DIGESTS (R356). -/
  | getDigests (port : Port) (fn : Nat)
  /-- GET_CERTIFICATE (R356). -/
  | getCertificate (port : Port) (fn slot offset length : Nat)
  /-- CHALLENGE (R357). -/
  | challenge (port : Port) (fn slot : Nat) (nonce : List Byte)
  /-- GET_MEASUREMENTS (R367): the block indexes asked for. -/
  | getMeasurements (port : Port) (fn : Nat) (indexes : List Nat) (nonce : List Byte)
  /-- KEY_EXCHANGE (R357): whether mutual authentication is asked for. -/
  | keyExchange (port : Port) (fn : Nat) (mutualAuth : Bool)
  /-- FINISH (R357): the requester's SubjectPublicKeyInfo and the outcome of its signature check. -/
  | finish (port : Port) (fn : Nat) (spki : List Byte) (sig : SigCheck)
  /-- HEARTBEAT (R357). -/
  | heartbeat (port : Port) (fn : Nat)
  /-- KEY_UPDATE (R357). -/
  | keyUpdate (port : Port) (fn : Nat)
  /-- END_SESSION (R357). -/
  | endSession (port : Port) (fn : Nat)
  /-- HEARTBEAT_LAPSE (R357). -/
  | heartbeatLapse (port : Port) (fn : Nat)
  /-- CLAIM (R359): the partition message payload; `inSession`: it came inside the secured session. -/
  | claim (port : Port) (fn : Nat) (inSession : Bool) (msg : List Byte)
  /-- SET_KEY (R361). -/
  | setKey (port : Port) (fn : Nat) (inSession : Bool) (msg : List Byte)
  /-- CLEAR_KEY (R361). -/
  | clearKey (port : Port) (fn : Nat) (inSession : Bool) (msg : List Byte)
  /-- SEAL (R363). -/
  | seal (port : Port) (fn : Nat) (inSession : Bool) (msg : List Byte)
  /-- UNSEAL (R363). -/
  | unseal (port : Port) (fn : Nat) (inSession : Bool) (msg : List Byte)
  /-- RELEASE (R359). -/
  | release (port : Port) (fn : Nat) (inSession : Bool) (msg : List Byte)
  /-- MANAGEMENT_RESTART (R371): the cause, and whether Trailhead's checks of R373 pass. -/
  | managementRestart (cause : RestartCause) (romKeyOk imageOk : Bool)
  /-- MANAGEMENT_RESTART_END (R371). -/
  | managementRestartEnd
  /-- HUB_WATCHDOG_EXPIRY (R371). -/
  | hubWatchdogExpiry (romKeyOk imageOk : Bool)
  /-- HUB_SRAM_ERROR (R370). -/
  | hubSramError (correctable : Bool) (romKeyOk imageOk : Bool)
  /-- RESTART_THE_HUB (R371): write of `value` to OD 0x1130.05. -/
  | restartTheHub (caller : Caller) (value : Nat) (romKeyOk imageOk : Bool)
  /-- UPDATE_BEGIN (R375): the 8-byte command. -/
  | updateBegin (caller : Caller) (cmd : List Byte)
  /-- UPDATE_IMAGE_CHUNK (R375). -/
  | updateImageChunk (caller : Caller) (offset : Nat) (bytes : List Byte)
  /-- UPDATE_COMMIT (R375): the outcome of the image's signature check. -/
  | updateCommit (caller : Caller) (cmd : List Byte) (sig : SigCheck)
  /-- UPDATE_ABORT (R375). -/
  | updateAbort (caller : Caller) (cmd : List Byte)
  /-- FLASH_IMAGE_WRITTEN (R375): `ok` is false when the flash write failed. -/
  | flashImageWritten (ok : Bool)
  /-- NEGOTIATE (R384). -/
  | negotiate (caller : Caller) (m : DictMsg)
  /-- READ (R383). -/
  | read (caller : Caller) (m : DictMsg)
  /-- WRITE (R381). -/
  | write (caller : Caller) (m : DictMsg) (env : CmdEnv)
  /-- LIST (R383). -/
  | list (caller : Caller) (m : DictMsg)
  /-- NETWORK_LOCK_ACQUIRE (R387): OP LOCK with value 1. -/
  | networkLockAcquire (caller : Caller) (m : DictMsg)
  /-- NETWORK_LOCK_RELEASE (R387): OP LOCK with value 2. -/
  | networkLockRelease (caller : Caller) (m : DictMsg)
  /-- NETWORK_PEER_EXPIRY (R385). -/
  | networkPeerExpiry (address udpPort : Nat)
  /-- RESTORE_FACTORY (R391): write of `value` to OD 0x1230.01. -/
  | restoreFactory (caller : Caller) (value : Nat)
  /-- LOG_FLASH_WRITE (R376): the log entry with this SEQ. -/
  | logFlashWrite (seq : Nat)
  /-- FIELD_CYCLE (R411): maintenance command 0x80. -/
  | fieldCycle (caller : Caller) (fields : BitVec 64)
  /-- FIELD_OFF (R403). -/
  | fieldOff (caller : Caller) (fields : BitVec 64)
  /-- FIELD_ON (R403). -/
  | fieldOn (caller : Caller) (fields : BitVec 64)
  /-- STANDBY_ENTER (R404). -/
  | standbyEnter (caller : Caller) (fields : BitVec 64)
  /-- STANDBY_EXIT (R404). -/
  | standbyExit (caller : Caller) (fields : BitVec 64) (env : StartEnv)
  /-- QUEUED_ACTIVITY_START (R408). -/
  | queuedActivityStart (env : CmdEnv)
  /-- QUEUE_WAIT_EXPIRY (R408): the queued activity at this place. -/
  | queueWaitExpiry (place : Nat)
  /-- AVAILABILITY_COUNT (R413): whether the second counts as Excluded by an outside cause (input, coolant or a
  host-caused reset) or is spent in a root PLL reset. -/
  | availabilityCount (excluded : Bool)
  /-- REGISTER_WRITE (R9). -/
  | registerWrite (target : RegTarget) (value : Word)
  /-- STAGE_ONE_TURN_ON (R326). -/
  | stageOneTurnOn (env : StartEnv)
  /-- INPUT_SAMPLE (R324): input voltage (mV) and current (0.1 A). -/
  | inputSample (mv deciAmp : Nat)
  /-- FIELD_BRANCH_SAMPLE (R327): branch voltage (mV), branch current (0.1 A), VCORE (mV), plane voltage (mV). -/
  | fieldBranchSample (field branchMv deciAmp vcoreMv planeMv : Nat)
  /-- HUB_SENSOR_READ (R339): stack temperatures (0.1 °C), hub die, and the coolant readings or none. -/
  | hubSensorRead (stackTemps : List Int) (hubDie : Int) (coolant : Option (Int × Int × Nat))
  /-- POWERED_HOUR_COUNT (R85). -/
  | poweredHourCount
  /-- ILLEGAL_INSTRUCTION (R172). -/
  | illegalInstruction (t : TileId) (fn : Nat)
  /-- MAILBOX_GO (R289): a write of `value` to MB_CTRL. -/
  | mailboxGo (port : Port) (fn : Nat) (value : Word) (env : CmdEnv)
  /-- PCIE_LINK_UP (R280): the partner's flit mode, the rate in GT/s and the width. -/
  | pcieLinkUp (port : Port) (flitMode : Bool) (rate width : Nat)
  /-- CONFIGURATION_REQUEST (R397): a read of the configuration register at `offset` of function `fn`. -/
  | configurationRequest (port : Port) (fn offset : Nat)
deriving DecidableEq, Repr

end Sys2Proof
end

