-- ==== Sys2Proof/Decode.lean ====
section
/-!
DEFINITION. The command that a table word spells. No row of spec/opcode_table.json gives bits: every command's fields
list is empty, so no word spells one.
-/

namespace Sys2Proof

/-- The command that the low `nbits` bits of `w` spell by the table's bits: none, since the table gives no row bits.
DESIGN CHOICE, log 5. -/
def decodeTableWord (_nbits _w : Nat) : Option Instr := none

end Sys2Proof
end

