-- ==== Sys2Proof/Machine/Bits.lean ====
section
/-!
DEFINITION. Bit fields, byte order (R8: little-endian, bit 0 least significant) and saturating counters.
-/

namespace Sys2Proof.Machine

/-- Bits `hi` down to `lo` of a number. -/
def bits (v hi lo : Nat) : Nat := v / 2 ^ lo % 2 ^ (hi + 1 - lo)

/-- One bit. -/
def bit (v i : Nat) : Bool := v / 2 ^ i % 2 == 1

/-- 1 or 0. -/
def b2n (b : Bool) : Nat := if b then 1 else 0

/-- The number with one bit set or cleared. -/
def setBit (v i : Nat) (b : Bool) : Nat :=
  if bit v i = b then v else if b then v + 2 ^ i else v - 2 ^ i

/-- The bits of `v` that `mask` does not hold. -/
def clearBits (v mask : Nat) : Nat := v - (v &&& mask)

/-- The number that bytes spell, least significant first. -/
def leNat (bs : List Byte) : Nat :=
  match bs with
  | [] => 0
  | b :: r => b.toNat + 256 * leNat r

/-- `n` bytes of a number, least significant first. -/
def leBytes (n v : Nat) : List Byte :=
  match n with
  | 0 => []
  | n + 1 => BitVec.ofNat 8 (v % 256) :: leBytes n (v / 256)

/-- `n` bytes of a list from a place; missing bytes read zero. -/
def sliceB (bs : List Byte) (off n : Nat) : List Byte :=
  ((bs.drop off).take n) ++ List.replicate (n - (bs.drop off).length) 0

/-- A little-endian field of `n` bytes at a place. -/
def fieldN (bs : List Byte) (off n : Nat) : Nat := leNat (sliceB bs off n)

/-- Every byte of a range is zero. -/
def zeroRange (bs : List Byte) (off n : Nat) : Bool := (sliceB bs off n).all (· == 0)

/-- A list made exactly `n` bytes long. -/
def fitB (bs : List Byte) (n : Nat) : List Byte := sliceB bs 0 n

/-- A count that stops at its highest value. -/
def satAdd (v n max : Nat) : Nat := min (v + n) max

/-- The signed number of an `n`-bit code. -/
def signed (n v : Nat) : Int := if v % 2 ^ n < 2 ^ (n - 1) then (v % 2 ^ n : Int) else (v % 2 ^ n : Int) - 2 ^ n

/-- The `n`-bit code of an integer. -/
def unsign (n : Nat) (v : Int) : Nat := (v % (2 ^ n : Int)).toNat

/-- `v` limited to `lo`–`hi`. -/
def clampI (lo hi v : Int) : Int := if v < lo then lo else if hi < v then hi else v

/-- ceil(a / b). -/
def ceilDiv (a b : Nat) : Nat := (a + b - 1) / b

/-- Bytes of an ASCII name. -/
def asciiB (s : String) : List Byte := s.toList.map (fun c => BitVec.ofNat 8 c.toNat)

/-- The first element that a test accepts with its place. -/
def findIdx {α : Type} (p : α → Bool) (l : List α) (i : Nat) : Option (Nat × α) :=
  match l with
  | [] => none
  | a :: r => if p a then some (i, a) else findIdx p r (i + 1)

/-- The list without the first element that a test accepts. -/
def dropFirst {α : Type} (p : α → Bool) (l : List α) : List α :=
  match l with
  | [] => []
  | a :: r => if p a then r else a :: dropFirst p r

end Sys2Proof.Machine
end

