-- ==== Sys2Proof/Machine/Crypto.lean ====
section
/-!
DEFINITION. The ciphers and digests that the manual names by their standards: SHA-256 (R187, R276, R356, R390),
HMAC-SHA-256 (R362), AES-256 in XTS mode with ciphertext stealing (R263) and in GCM (R306), and the CRCs of R300.
-/

namespace Sys2Proof.Machine

/-! ### SHA-256 -/

/-- Round constants of SHA-256, 32 bits each, the first lowest. -/
def shaTable : Nat :=
  0xab1c5ed5923f82a459f111f13956c25be9b5dba5b5c0fbcf71374491428a2f98 * 2 ^ 0 +
  0xc19bf1749bdc06a780deb1fe72be5d74550c7dc3243185be12835b01d807aa98 * 2 ^ 256 +
  0x76f988da5cb0a9dc4a7484aa2de92c6f240ca1cc0fc19dc6efbe4786e49b69c1 * 2 ^ 512 +
  0x1429296706ca6351d5a79147c6e00bf3bf597fc7b00327c8a831c66d983e5152 * 2 ^ 768 +
  0x92722c8581c2c92e766a0abb650a735453380d134d2c6dfc2e1b213827b70a85 * 2 ^ 1024 +
  0x106aa070f40e3585d6990624d192e819c76c51a3c24b8b70a81a664ba2bfe8a1 * 2 ^ 1280 +
  0x682e6ff35b9cca4f4ed8aa4a391c0cb334b0bcb52748774c1e376c0819a4c116 * 2 ^ 1536 +
  0xc67178f2bef9a3f7a4506ceb90befffa8cc7020884c8781478a5636f748f82ee * 2 ^ 1792

/-- Initial hash value of SHA-256. -/
def shaInit : List (BitVec 32) :=
  [0x6a09e667, 0xbb67ae85, 0x3c6ef372, 0xa54ff53a, 0x510e527f, 0x9b05688c, 0x1f83d9ab, 0x5be0cd19]

/-- The 32-bit words of a byte string, first byte highest. -/
def beWords (b : List Byte) (n : Nat) : List (BitVec 32) :=
  (List.range n).map (fun i => BitVec.ofNat 32 (leNat (sliceB b (4 * i) 4).reverse))

/-- A number as n bytes, first byte highest. -/
def bigBytes (n v : Nat) : List Byte := (leBytes n v).reverse

/-- Message schedule, newest word first: `n` words are still to be formed. -/
def shaSchedule (n : Nat) (l : List (BitVec 32)) : List (BitVec 32) :=
  match n with
  | 0 => l
  | n + 1 =>
    let at' := fun i : Nat => l.getD i 0
    let s0 := (at' 14).rotateRight 7 ^^^ (at' 14).rotateRight 18 ^^^ (at' 14) >>> 3
    let s1 := (at' 1).rotateRight 17 ^^^ (at' 1).rotateRight 19 ^^^ (at' 1) >>> 10
    shaSchedule n ((s1 + at' 6 + s0 + at' 15) :: l)

/-- One round: the eight working words, the schedule word and the round number. -/
def shaRound (v : List (BitVec 32)) (e : BitVec 32 × Nat) : List (BitVec 32) :=
  match v with
  | [a, b, c, d, x, f, g, h] =>
    let s1 := x.rotateRight 6 ^^^ x.rotateRight 11 ^^^ x.rotateRight 25
    let ch := (x &&& f) ^^^ (~~~x &&& g)
    let t1 := h + s1 + ch + BitVec.ofNat 32 (shaTable / 2 ^ (32 * e.2)) + e.1
    let s0 := a.rotateRight 2 ^^^ a.rotateRight 13 ^^^ a.rotateRight 22
    let maj := (a &&& b) ^^^ (a &&& c) ^^^ (b &&& c)
    [t1 + s0 + maj, a, b, c, d + t1, x, f, g]
  | _ => v

/-- One 64-byte block. -/
def shaBlock (h : List (BitVec 32)) (b : List Byte) : List (BitVec 32) :=
  let w := (shaSchedule 48 (beWords b 16).reverse).reverse
  (h.zip ((w.zip (List.range 64)).foldl shaRound h)).map (fun e => e.1 + e.2)

/-- The blocks of a padded message, one after another. -/
def shaBlocks (n : Nat) (h : List (BitVec 32)) (b : List Byte) : List (BitVec 32) :=
  match n with
  | 0 => h
  | n + 1 => shaBlocks n (shaBlock h (b.take 64)) (b.drop 64)

/-- SHA-256 of a byte string. -/
def sha256 (b : List Byte) : List Byte :=
  let pad := b ++ 0x80 :: List.replicate ((119 - b.length % 64) % 64) 0 ++ bigBytes 8 (8 * b.length)
  (shaBlocks (pad.length / 64) shaInit pad).flatMap (fun w => bigBytes 4 w.toNat)

/-- HMAC-SHA-256 of a message under a key. -/
def hmac256 (key msg : List Byte) : List Byte :=
  let k := fitB (if 64 < key.length then sha256 key else key) 64
  sha256 (k.map (· ^^^ 0x5C) ++ sha256 (k.map (· ^^^ 0x36) ++ msg))

/-! ### AES-256 -/

/-- Substitution box of AES, 8 bits each, entry 0 lowest. -/
def aesTable : Nat :=
  0xc072a49cafa2d4adf04759fa7dc982ca76abd7fe2b670130c56f6bf27b777c63 * 2 ^ 0 +
  0x75b227ebe28012079a059618c323c7041531d871f1e5a534ccf73f362693fdb7 * 2 ^ 256 +
  0xcf584c4a39becb6a5bb1fc20ed00d153842fe329b3d63b52a05a6e1b1a2c8309 * 2 ^ 512 +
  0xd2f3ff1021dab6bcf5389d928f40a351a89f3c507f02f94585334d43fbaaefd0 * 2 ^ 768 +
  0xdb0b5ede14b8ee4688902a22dc4f816073195d643d7ea7c41744975fec130ccd * 2 ^ 1024 +
  0x08ae7a65eaf4566ca94ed58d6d37c8e779e4959162acd3c25c2406490a3a32e0 * 2 ^ 1280 +
  0x9e1dc186b95735610ef6034866b53e708a8bbd4b1f74dde8c6b4a61c2e2578ba * 2 ^ 1536 +
  0x16bb54b00f2d99416842e6bf0d89a18cdf2855cee9871e9b948ed9691198f8e1 * 2 ^ 1792

/-- Inverse substitution box of AES. -/
def aesInvTable : Nat :=
  0xcbe9dec444438e3487ff2f9b8239e37cfbd7f3819ea340bf38a53630d56a0952 * 2 ^ 0 +
  0x25d18b6d49a25b76b224d92866a12e084ec3fa420b954cee3d23c2a632947b54 * 2 ^ 256 +
  0x849d8da75746155edab9edfd5048706c92b6655dcc5ca4d41698688664f6f872 * 2 ^ 512 +
  0x6b8a130103bdafc1020f3fca8f1e2cd00645b3b80558e4f70ad3bc8c00abd890 * 2 ^ 768 +
  0x6edf751ce837f9e28535ade72274ac9673e6b4f0cecff297eadc674f4111913a * 2 ^ 1024 +
  0xf45acd78fec0db9a2079d2c64b3e56fc1bbe18aa0e62b76f89c5291d711af147 * 2 ^ 1280 +
  0xef9cc9939f7ae52d0d4ab519a97f51605fec8027591012b131c7078833a8dd1f * 2 ^ 1536 +
  0x7d0c2155631469e126d677ba7e042b17619953833cbbebc8b0f52aae4d3be0a0 * 2 ^ 1792

/-- The substitution of one byte by a table. -/
def subByte (table : Nat) (b : Byte) : Byte := BitVec.ofNat 8 (table / 2 ^ (8 * b.toNat))

/-- Multiplication by x in the field of AES. -/
def xtime (b : Byte) : Byte := if b.msb then (b <<< 1) ^^^ 0x1B else b <<< 1

/-- Product in the field of AES with a constant below 16. -/
def gmul (k : Nat) (b : Byte) : Byte :=
  let pick := fun (i : Nat) (v : Byte) => if bit k i then v else 0
  pick 0 b ^^^ pick 1 (xtime b) ^^^ pick 2 (xtime (xtime b)) ^^^ pick 3 (xtime (xtime (xtime b)))

/-- Byte-wise exclusive or. -/
def xorB (a b : List Byte) : List Byte := (a.zip b).map (fun e => e.1 ^^^ e.2)

/-- Key schedule: `n` words are still to be formed; words newest first, the next one has number `i`. -/
def aesSchedule (n i : Nat) (rcon : Byte) (l : List (List Byte)) : List (List Byte) :=
  match n with
  | 0 => l
  | n + 1 =>
    let last := l.headD []
    let old := l.getD 7 []
    if i % 8 = 0 then
      let t := (last.drop 1 ++ last.take 1).map (subByte aesTable)
      aesSchedule n (i + 1) (xtime rcon) (xorB old (xorB t [rcon, 0, 0, 0]) :: l)
    else if i % 8 = 4 then aesSchedule n (i + 1) rcon (xorB old (last.map (subByte aesTable)) :: l)
    else aesSchedule n (i + 1) rcon (xorB old last :: l)

/-- The fifteen round keys of a 32-byte key. -/
def aesKeys (key : List Byte) : List (List Byte) :=
  let w := (aesSchedule 52 8 1 ((List.range 8).map (fun i => sliceB key (4 * i) 4)).reverse).reverse
  (List.range 15).map (fun r => (sliceW w (4 * r)).flatten)
where
  /-- Four words from a place. -/
  sliceW (w : List (List Byte)) (i : Nat) : List (List Byte) := (w.drop i).take 4

/-- Rows of the state shifted left (`inv`: right). -/
def shiftRows (inv : Bool) (s : List Byte) : List Byte :=
  (List.range 16).map (fun i =>
    let c := i / 4
    let r := i % 4
    s.getD (4 * (if inv then (c + 4 - r) % 4 else (c + r) % 4) + r) 0)

/-- Columns of the state mixed with the coefficients of the first row. -/
def mixColumns (k : List Nat) (s : List Byte) : List Byte :=
  (List.range 16).map (fun i =>
    let c := i / 4
    let r := i % 4
    (List.range 4).foldl (fun a n => a ^^^ gmul (k.getD ((n + 4 - r) % 4) 0) (s.getD (4 * c + n) 0)) 0)

/-- AES-256 encryption of one block. -/
def aesEnc (keys : List (List Byte)) (b : List Byte) : List Byte :=
  let mid := ((keys.drop 1).take 13).foldl (fun s k =>
    xorB (mixColumns [2, 3, 1, 1] (shiftRows false (s.map (subByte aesTable)))) k) (xorB b (keys.headD []))
  xorB (shiftRows false (mid.map (subByte aesTable))) (keys.getLastD [])

/-- AES-256 decryption of one block. -/
def aesDec (keys : List (List Byte)) (b : List Byte) : List Byte :=
  let rk := keys.reverse
  let mid := ((rk.drop 1).take 13).foldl (fun s k =>
    mixColumns [14, 11, 13, 9] (xorB ((shiftRows true s).map (subByte aesInvTable)) k)) (xorB b (rk.headD []))
  xorB ((shiftRows true mid).map (subByte aesInvTable)) (rk.getLastD [])

/-! ### XTS (R263) -/

/-- The next tweak of a data unit. -/
def tweakNext (t : Nat) : Nat :=
  if t / 2 ^ 127 % 2 = 1 then (2 * t % 2 ^ 128) ^^^ 0x87 else 2 * t % 2 ^ 128

/-- One block decrypted under a tweak. -/
def xtsBlock (keys : List (List Byte)) (t : Nat) (c : List Byte) : List Byte :=
  xorB (aesDec keys (xorB c (leBytes 16 t))) (leBytes 16 t)

/-- The blocks of a data unit decrypted, with ciphertext stealing for a short last block. -/
def xtsBlocks (n : Nat) (keys : List (List Byte)) (t : Nat) (c : List Byte) : List Byte :=
  match n with
  | 0 => []
  | n + 1 =>
    if c.length < 16 then []
    else if 16 < c.length ∧ c.length < 32 then
      let m := c.length - 16
      let p := xtsBlock keys (tweakNext t) (c.take 16)
      xtsBlock keys t (c.drop 16 ++ p.drop m) ++ p.take m
    else xtsBlock keys t (c.take 16) ++ xtsBlocks n keys (tweakNext t) (c.drop 16)

/-- A data unit of a section decrypted with a 512-bit model key: its first half is the data key, its second the tweak
key. A unit below 16 bytes, which XTS does not cover, is kept as stored. -/
def xtsUnit (key : List Byte) (unit : Nat) (c : List Byte) : List Byte :=
  if c.length < 16 then c
  else
    let t := leNat (aesEnc (aesKeys (key.drop 32)) (leBytes 16 unit))
    xtsBlocks (c.length / 16 + 1) (aesKeys (key.take 32)) t c

/-! ### GCM (R306) -/

/-- Key stream blocks of the counter mode, from counter `i`. -/
def gcmStream (n : Nat) (keys : List (List Byte)) (iv : List Byte) (i : Nat) : List Byte :=
  match n with
  | 0 => []
  | n + 1 => aesEnc keys (iv ++ bigBytes 4 i) ++ gcmStream n keys iv (i + 1)

/-- A payload encrypted, or decrypted, in the counter mode of GCM with a 12-byte IV. -/
def gcmCrypt (key iv b : List Byte) : List Byte :=
  xorB b (gcmStream ((b.length + 15) / 16) (aesKeys key) (fitB iv 12) 2)

/-- Product of two blocks in the field of GCM, each as a number, the first bit highest: `n` bits of `x` are to go. -/
def ghashMul (n : Nat) (x v z : Nat) : Nat :=
  match n with
  | 0 => z
  | n + 1 =>
    let z1 := if bit x n then z ^^^ v else z
    ghashMul n x (if v % 2 = 1 then (v / 2) ^^^ (0xE1 * 2 ^ 120) else v / 2) z1

/-- GHASH over `n` blocks of a padded byte string. -/
def ghash (h n : Nat) (b : List Byte) (y : Nat) : Nat :=
  match n with
  | 0 => y
  | n + 1 => ghash h n (b.drop 16) (ghashMul 128 (y ^^^ leNat (b.take 16).reverse) h 0)

/-- Zero bytes up to a whole block. -/
def pad16 (b : List Byte) : List Byte := b ++ List.replicate ((16 - b.length % 16) % 16) 0

/-- The 16-byte tag of GCM over additional data and ciphertext, with a 12-byte IV. -/
def gcmTag (key iv aad c : List Byte) : List Byte :=
  let keys := aesKeys key
  let b := pad16 aad ++ pad16 c ++ bigBytes 8 (8 * aad.length) ++ bigBytes 8 (8 * c.length)
  xorB (bigBytes 16 (ghash (leNat (aesEnc keys (List.replicate 16 0)).reverse) (b.length / 16) b 0))
    (aesEnc keys (fitB iv 12 ++ bigBytes 4 1))

/-! ### Cyclic redundancy checks -/

/-- Eight steps of a reflected CRC of 32 bits. -/
def crcSteps (poly n c : Nat) : Nat :=
  match n with
  | 0 => c
  | n + 1 => crcSteps poly n (if c % 2 = 1 then (c / 2) ^^^ poly else c / 2)

/-- A reflected CRC of 32 bits over a byte string. -/
def crc32 (poly : Nat) (b : List Byte) : Nat :=
  (b.foldl (fun c x => crcSteps poly 8 (c ^^^ x.toNat)) 0xFFFFFFFF) ^^^ 0xFFFFFFFF

/-- CRC-32C (R300). -/
def crc32c (b : List Byte) : Nat := crc32 0x82F63B78 b

/-- The frame check sequence of Ethernet. -/
def etherFcs (b : List Byte) : Nat := crc32 0xEDB88320 b

end Sys2Proof.Machine
end

