-- ==== Sys2Proof/Config.lean ====
section
/-!
DEFINITION. Free values: what the manual leaves open. Every constant here is opaque, without a body, so that no proof
can rest on its value; each is applied to the operands it depends on, or to the counter `State.free`, which every use
advances. The assumption log names each (notes/assumptions).
-/

namespace Sys2Proof.Config

/-- Analogue error of one column conversion (R47, R70, R71), in half level units times pulse units, added to the
column's charge: a free value of the counter. DESIGN CHOICE, log 26. -/
opaque chargeError : Nat → Int

/-- What a read returns for a cell whose level has no 2-bit code in the array's format (R41, R61): a free value of the
cell's stored level. DESIGN CHOICE, log 27. -/
opaque offLevelCode : Nat → Nat

/-- Sign and payload of a NaN result (R102, R109): the manual fixes that the result is NaN, not its bits.
DESIGN CHOICE, log 23. -/
opaque nanBits : BitVec 32

/-- Exponential function of R109, a free value of its operand: `expW` takes it where it lies within 2 ulp.
DESIGN CHOICE, log 24. -/
opaque fpExp : BitVec 32 → BitVec 32

/-- Exponential to base 2 of R110: taken within 2 ulp. DESIGN CHOICE, log 24. -/
opaque fpExp2 : BitVec 32 → BitVec 32

/-- Reciprocal of R109: taken within 1 ulp. DESIGN CHOICE, log 24. -/
opaque fpRecip : BitVec 32 → BitVec 32

/-- Reciprocal square root of R109: taken within 1 ulp. DESIGN CHOICE, log 24. -/
opaque fpRsqrt : BitVec 32 → BitVec 32

/-- Result of a vector minimum or maximum (`true`: maximum) of operands that no rule orders: a NaN, or zeros of both
signs (R110). DESIGN CHOICE, log 23. -/
opaque minMaxOpen : Bool → BitVec 32 → BitVec 32 → BitVec 32

/-- What a vector comparison writes for true, beside a set bit in each half (R110). DESIGN CHOICE, log 23. -/
opaque cmpTrue : BitVec 32

/-- Integer of an FP32 value that INT32 does not hold, NaN included (R110). DESIGN CHOICE, log 23. -/
opaque fpToIntOut : BitVec 32 → BitVec 32

/-- Order of the additions across the lanes of a vector reduction, which the manual leaves open (R110): of the operands
left, the places of the two added next. DESIGN CHOICE, log 23. -/
opaque lanePick : List (BitVec 32) → Nat → Nat × Nat

/-- Whether a sum of squares adds the exact squares or squares rounded to FP32 (R110). DESIGN CHOICE, log 23. -/
opaque squareFused : Bool

/-- Place of a NaN among the largest values (R110): the first operand goes before the second. DESIGN CHOICE, log 23. -/
opaque nanBefore : BitVec 32 → BitVec 32 → Bool

/-- Class and operation that a FN of VOP names (Table 7.3): the manual numbers none. DESIGN CHOICE, log 22. -/
opaque vopFn : Nat → Nat

/-- Scratchpad offset of the KV area that the program of a model generation reserves in its attention tiles (R216), and
the slot groups it holds: the compiler's, stated in no section of the Hamper. DESIGN CHOICE, log 57. -/
opaque kvArea : Nat → Nat

opaque kvGroups : Nat → Nat

/-- Places, in units of 32 bytes, of a request's view record for a layer and of its slot list in an attention tile's
scratchpad (R217), by model generation, request and layer: the request cores'. DESIGN CHOICE, log 57. -/
opaque viewAt : Nat → Nat → Nat → Nat

opaque slotListAt : Nat → Nat → Nat → Nat

/-- Place, in units of 64 bytes, of a request's entry, prompt copy and KV map in the request state region (R235), by
partition and REQ: the firmware's. DESIGN CHOICE, log 57. -/
opaque requestAt : Nat → Nat → Nat

/-- Code of a key, value or query element whose quotient by its scale is no number (R206, R207). DESIGN CHOICE, log 137. -/
opaque openCode : BitVec 32 → BitVec 32 → Int

/-- A free byte: data that the manual calls undefined or leaves open, as a function of the counter.
DESIGN CHOICE, log 13. -/
opaque freeByte : Nat → BitVec 8

/-- A free 32-bit word, as a function of the counter. DESIGN CHOICE, log 13. -/
opaque freeWord : Nat → BitVec 32

/-- A free natural number, as a function of the counter: an implementation's choice or an unstated value.
DESIGN CHOICE, log 13. -/
opaque freeNat : Nat → Nat

/-- Event code of a log entry (Table 16.3): the manual says that the owning chapter gives it and no chapter does; a
free value of the number of the rule that asks for the entry. DESIGN CHOICE, log 21. -/
opaque eventCode : Nat → Nat

/-- A byte of the details of a log entry (Table 16.3): the manual gives DATA no layout; a free value of the rule, of what
the model notes of the event, and of the byte's place. DESIGN CHOICE, log 21. -/
opaque eventData : Nat → List Nat → Nat → BitVec 8

/-- Version values that the body of a firmware image carries (R372): a free value of the body's digest and of the place,
0–4 for OD 0x1010 and 5–9 for OD 0x1011, as the manual gives the body no layout. DESIGN CHOICE, log 104. -/
opaque imageVersions : List (BitVec 8) → Nat → Nat

/-- A configuration register whose contents the manual does not give (R281), by port, function and offset.
PRESUMED, log 78. -/
opaque configReg : Nat → Nat → Nat → Nat

/-- Configuration offset of a capability structure of a function on a port: 0 PCI Express, 1 MSI-X, 2 SR-IOV, 3 AER. -/
opaque capOffset : Nat → Nat → Nat → Nat

/-- RSASSA-PSS signature by the identity key of the module (R356, R367): the key and the salt are the module's.
DESIGN CHOICE, log 98. -/
opaque sign : List (BitVec 8) → Nat → List (BitVec 8)

/-- Contents of an F-class entry of type STR or BLOB that the manual gives per module (certificate chain, key digests,
Trailhead digest, manufacturing record): a free value of its index and subindex. DESIGN CHOICE, log 9. -/
opaque factoryBlob : Nat → Nat → List (BitVec 8)

/-- R_f of R327: the resistance of a field's branch, a factory value of each field, in µΩ. DESIGN CHOICE, log 9. -/
opaque branchRes : Nat → Nat

/-- Injector reference of a field in the factory table (Table 3.6): a factory value of each field.
DESIGN CHOICE, log 9. -/
opaque injectorRef : Nat → Nat

/-- Ephemeral key, nonce or other random field of an SPDM response (R357): a free value of the counter.
DESIGN CHOICE, log 98. -/
opaque spdmBytes : Nat → Nat → List (BitVec 8)

end Sys2Proof.Config
end

