-- ==== Sys2Proof/Machine/Map.lean ====
section
/-!
DEFINITION. Sparse tables in one canonical form: keys strictly rising and no entry equal to what an absent key reads
as. Every memory, register file and table of the state is one.
-/

namespace Sys2Proof.Machine

/-- The entry at a key. -/
def mfind {α : Type} (m : SMap α) (k : Nat) : Option α :=
  match m with
  | [] => none
  | (k', v) :: r => if k' = k then some v else mfind r k

/-- The table without a key. -/
def mdel {α : Type} (m : SMap α) (k : Nat) : SMap α :=
  match m with
  | [] => []
  | (k', v) :: r => if k' = k then mdel r k else (k', v) :: mdel r k

/-- A new entry at its place in the order. -/
def minsert {α : Type} (m : SMap α) (k : Nat) (v : α) : SMap α :=
  match m with
  | [] => [(k, v)]
  | (k', v') :: r => if k < k' then (k, v) :: (k', v') :: r else (k', v') :: minsert r k v

/-- The table with an entry at a key, in place of any other. -/
def mput {α : Type} (m : SMap α) (k : Nat) (v : α) : SMap α := minsert (mdel m k) k v

/-- What a key reads as, with the value of absent keys. -/
def mget {α : Type} (d : α) (m : SMap α) (k : Nat) : α := (mfind m k).getD d

/-- A write: the value of absent keys is not listed. -/
def mset {α : Type} [DecidableEq α] (d : α) (m : SMap α) (k : Nat) (v : α) : SMap α :=
  if v = d then mdel m k else mput m k v

/-- The value of a key under a function. -/
def mmod {α : Type} [DecidableEq α] (d : α) (m : SMap α) (k : Nat) (f : α → α) : SMap α :=
  mset d m k (f (mget d m k))

/-- Keys strictly rising. -/
abbrev SMap.rising {α : Type} (m : SMap α) : Prop := m.Pairwise (fun a b => a.1 < b.1)

/-- The canonical form: keys strictly rising, no entry equal to the value of absent keys. -/
abbrev SMap.wf {α : Type} (d : α) (m : SMap α) : Prop :=
  m.Pairwise (fun a b => a.1 < b.1) ∧ ∀ e ∈ m, e.2 ≠ d

/-- Every entry whose key passes a test. -/
def mfilter {α : Type} (m : SMap α) (p : Nat → α → Bool) : SMap α := m.filter (fun e => p e.1 e.2)

/-- `n` consecutive entries from a key. -/
def mread {α : Type} (d : α) (m : SMap α) (k n : Nat) : List α :=
  match n with
  | 0 => []
  | n + 1 => mget d m k :: mread d m (k + 1) n

/-- Consecutive writes from a key. -/
def mwrite {α : Type} [DecidableEq α] (d : α) (m : SMap α) (k : Nat) (vs : List α) : SMap α :=
  match vs with
  | [] => m
  | v :: r => mwrite d (mset d m k v) (k + 1) r

/-- Consecutive writes from a key of those bytes that are enabled. -/
def mwriteOpt {α : Type} [DecidableEq α] (d : α) (m : SMap α) (k : Nat) (vs : List (Option α)) : SMap α :=
  match vs with
  | [] => m
  | none :: r => mwriteOpt d m (k + 1) r
  | some v :: r => mwriteOpt d (mset d m k v) (k + 1) r

end Sys2Proof.Machine
end

