-- ==== Sys2Proof/Machine/OdTable.lean ====
section
/-!
DEFINITION. The dictionary's table of entries: type, access class, sealing, default, persistence, kind and range of
every entry of Tables 0.8, 2.22, 3.12, 4.9, 5.15, 6.13, 7.20, 8.7, 9.9, 10.11, 11.9, 12.9, 13.11, 14.8, 15.14, 16.11,
17.11 and of the factory range of Table 16.9 (R10, R12, R379, R380, R393).
-/

namespace Sys2Proof.Machine

/-- Types of R10 (Table 16.4). -/
inductive OdType where
  | bool
  | u8
  | u16
  | u32
  | u64
  | i16
  | str
  | blob
deriving DecidableEq, Repr

/-- Access classes of R10. -/
inductive OdAccess where
  | ro
  | rw
  | wo
  | rwl
deriving DecidableEq, Repr

/-- Persistence classes of Table 0.7. -/
inductive OdPersist where
  | f
  | u
  | s
  | w
  | v
deriving DecidableEq, Repr

/-- Kinds of entry of R380. -/
inductive OdKind where
  | device
  | perPart
  | partIndexed
deriving DecidableEq, Repr

/-- One row: subindexes `lo` to `hi` of an index, with the attributes of R10 and the range a write must lie in.
`cmd`: a command entry that accepts the value 1 only (R381). -/
structure OdRow where
  idx : Nat
  lo : Nat
  hi : Nat
  ty : OdType
  acc : OdAccess
  sealedEntry : Bool
  dflt : Nat
  pers : OdPersist
  kind : OdKind
  rlo : Nat
  rhi : Nat
  cmd : Bool
deriving DecidableEq, Repr

/-- Entries 0x1000–0x10FF. DESIGN CHOICE, log 8: before any update the versions OD 0x1010.01–.05 read 0x0102 and
OD 0x1011.01–.05 read 0x0100, where the spec says "Per firmware" and gives no number (R13). -/
def odRows10 : List OdRow := [
  -- Part number
  ⟨0x1000, 0x01, 0x01, .str, .ro, false, 0, .f, .device, 0, 0, false⟩,
  -- Stepping code
  ⟨0x1000, 0x02, 0x02, .u8, .ro, false, 176, .f, .device, 0, 255, false⟩,
  -- Module serial number
  ⟨0x1000, 0x03, 0x03, .u64, .ro, false, 0, .f, .device, 0, 18446744073709551615, false⟩,
  -- Highest timing contract run natively
  ⟨0x1000, 0x04, 0x04, .u8, .ro, false, 2, .f, .device, 0, 255, false⟩,
  -- Host queue interface version
  ⟨0x1010, 0x01, 0x01, .u16, .ro, false, 0x0102, .f, .device, 0, 65535, false⟩,
  -- Dictionary protocol version
  ⟨0x1010, 0x02, 0x02, .u16, .ro, false, 0x0102, .f, .device, 0, 65535, false⟩,
  -- Falram version
  ⟨0x1010, 0x03, 0x03, .u16, .ro, false, 0x0102, .f, .device, 0, 65535, false⟩,
  -- Hamper format version
  ⟨0x1010, 0x04, 0x04, .u16, .ro, false, 0x0102, .f, .device, 0, 65535, false⟩,
  -- Program timing contract version
  ⟨0x1010, 0x05, 0x05, .u16, .ro, false, 0x0102, .f, .device, 0, 65535, false⟩,
  -- Minimum accepted version, in the order of 0x1010
  ⟨0x1011, 0x01, 0x05, .u16, .ro, false, 0x0100, .f, .device, 0, 65535, false⟩]

/-- Entries 0x1100–0x11FF. -/
def odRows11 : List OdRow := [
  -- Management network MAC address, in bits [47:0]
  ⟨0x1100, 0x01, 0x01, .u64, .ro, false, 0, .f, .device, 0, 18446744073709551615, false⟩,
  -- PLCA node ID, 0–254
  ⟨0x1100, 0x02, 0x02, .u8, .rwl, false, 1, .s, .device, 0, 254, false⟩,
  -- PLCA node count, 2–255
  ⟨0x1100, 0x03, 0x03, .u8, .rwl, false, 8, .s, .device, 2, 255, false⟩,
  -- Management network enabled
  ⟨0x1100, 0x04, 0x04, .bool, .rwl, false, 1, .s, .device, 0, 1, false⟩,
  -- Dictionary requests served, device total
  ⟨0x1100, 0x05, 0x05, .u64, .ro, false, 0, .w, .device, 0, 18446744073709551615, false⟩,
  -- Dictionary violations, device total
  ⟨0x1100, 0x06, 0x06, .u64, .ro, false, 0, .w, .device, 0, 18446744073709551615, false⟩,
  -- Network peers in use
  ⟨0x1100, 0x07, 0x07, .u8, .ro, false, 0, .v, .device, 0, 255, false⟩,
  -- Newest log SEQ; 0xFFFF_FFFF while no entry has been written (R376)
  ⟨0x1110, 0x01, 0x01, .u32, .ro, false, 4294967295, .f, .device, 0, 4294967295, false⟩,
  -- Log selector (R377)
  ⟨0x1110, 0x02, 0x02, .u64, .rw, false, 0, .v, .device, 0, 18446744073709551615, false⟩,
  -- Log entries at the selector
  ⟨0x1110, 0x03, 0x03, .blob, .ro, false, 0, .v, .device, 0, 0, false⟩,
  -- Log entries with UTC time
  ⟨0x1110, 0x04, 0x04, .blob, .ro, false, 0, .v, .device, 0, 0, false⟩,
  -- Lock holder, as DCL_STATUS.HOLDER
  ⟨0x1120, 0x01, 0x01, .u8, .ro, false, 0, .v, .device, 0, 255, false⟩,
  -- Network lock holder, IPv6 address
  ⟨0x1120, 0x02, 0x02, .blob, .ro, false, 0, .v, .device, 0, 0, false⟩,
  -- Lease remaining
  ⟨0x1120, 0x03, 0x03, .u16, .ro, false, 0, .v, .device, 0, 65535, false⟩,
  -- Network lock holder, UDP port (R387)
  ⟨0x1120, 0x04, 0x04, .u16, .ro, false, 0, .v, .device, 0, 65535, false⟩,
  -- Management restarts
  ⟨0x1130, 0x01, 0x01, .u32, .ro, false, 0, .w, .device, 0, 4294967295, false⟩,
  -- Hub watchdog expiries
  ⟨0x1130, 0x02, 0x02, .u32, .ro, false, 0, .w, .device, 0, 4294967295, false⟩,
  -- Hub SRAM corrections
  ⟨0x1130, 0x03, 0x03, .u32, .ro, false, 0, .w, .device, 0, 4294967295, false⟩,
  -- Cause of last restart: 0 power-on, 1 watchdog, 2 SRAM error, 3 command, 4 firmware activation, 5 recovery
  ⟨0x1130, 0x04, 0x04, .u8, .ro, false, 0, .w, .device, 0, 255, false⟩,
  -- Restart the hub; write 1
  ⟨0x1130, 0x05, 0x05, .u8, .wo, false, 0, .v, .device, 0, 255, true⟩,
  -- Events lost during management restarts, total (Table 16.1)
  ⟨0x1130, 0x06, 0x06, .u32, .ro, false, 0, .w, .device, 0, 4294967295, false⟩,
  -- Coolant inlet, outlet and flow sensor (R378)
  ⟨0x1140, 0x01, 0x03, .u64, .rwl, false, 0, .s, .device, 0, 18446744073709551615, false⟩]

/-- Entries 0x1200–0x12FF. -/
def odRows12 : List OdRow := [
  -- Base configuration digest
  ⟨0x1200, 0x01, 0x01, .blob, .ro, false, 0, .v, .device, 0, 0, false⟩,
  -- Saved configuration commits
  ⟨0x1200, 0x02, 0x02, .u32, .ro, false, 0, .w, .device, 0, 4294967295, false⟩,
  -- Overlay n deltas, as canonical records, subindex n + 1
  ⟨0x1201, 0x01, 0x05, .blob, .ro, false, 0, .s, .device, 0, 0, false⟩,
  -- Saved overlay selection, per partition, 0–4
  ⟨0x1210, 0x01, 0x20, .u8, .rw, false, 0, .s, .partIndexed, 0, 4, false⟩,
  -- Overlay in force, per partition
  ⟨0x1211, 0x01, 0x20, .u8, .ro, false, 0, .v, .partIndexed, 0, 255, false⟩,
  -- Restore-factory; write 0xFAC7
  ⟨0x1230, 0x01, 0x01, .u16, .wo, false, 0, .v, .device, 0, 65535, false⟩,
  -- Restores performed
  ⟨0x1230, 0x02, 0x02, .u32, .ro, false, 0, .w, .device, 0, 4294967295, false⟩]

/-- Entries 0x1300–0x13FF. -/
def odRows13 : List OdRow := [
  -- Running firmware VERSION
  ⟨0x1300, 0x01, 0x01, .u16, .ro, false, 0, .w, .device, 0, 65535, false⟩,
  -- Update image chunk, at OFFSET
  ⟨0x1300, 0x02, 0x02, .blob, .wo, false, 0, .v, .device, 0, 0, false⟩,
  -- Update command (R375)
  ⟨0x1300, 0x03, 0x03, .blob, .wo, false, 0, .v, .device, 0, 0, false⟩,
  -- Update state: 0 idle, 1 receiving, 2 verifying, 3 writing flash, 4 committed, 5 failed
  ⟨0x1300, 0x04, 0x04, .u8, .ro, false, 0, .w, .device, 0, 255, false⟩,
  -- Last update status
  ⟨0x1300, 0x05, 0x05, .u16, .ro, false, 0, .w, .device, 0, 65535, false⟩,
  -- VERSION of the image in flash
  ⟨0x1300, 0x06, 0x06, .u16, .ro, false, 0, .w, .device, 0, 65535, false⟩,
  -- Rollback floor
  ⟨0x1300, 0x07, 0x07, .u16, .ro, false, 0, .f, .device, 0, 65535, false⟩,
  -- Running image digest
  ⟨0x1300, 0x08, 0x08, .blob, .ro, false, 0, .w, .device, 0, 0, false⟩,
  -- Trailhead digest
  ⟨0x1300, 0x09, 0x09, .blob, .ro, false, 0, .f, .device, 0, 0, false⟩,
  -- Largest image accepted
  ⟨0x1300, 0x0A, 0x0A, .u32, .ro, false, 16777216, .f, .device, 0, 4294967295, false⟩]

/-- Entries 0x2000–0x20FF. -/
def odRows20 : List OdRow := [
  -- Input voltage
  ⟨0x2000, 0x01, 0x01, .u16, .ro, false, 0, .v, .device, 0, 65535, false⟩,
  -- Input current
  ⟨0x2000, 0x02, 0x02, .u16, .ro, false, 0, .v, .device, 0, 65535, false⟩,
  -- Input power
  ⟨0x2000, 0x03, 0x03, .u32, .ro, false, 0, .v, .device, 0, 4294967295, false⟩,
  -- Lowest input voltage since clear
  ⟨0x2000, 0x04, 0x04, .u16, .ro, false, 65535, .w, .device, 0, 65535, false⟩,
  -- Time of the lowest input voltage
  ⟨0x2000, 0x05, 0x05, .u64, .ro, false, 0, .w, .device, 0, 18446744073709551615, false⟩,
  -- Clear minimum records and connection flags; write 1
  ⟨0x2000, 0x06, 0x06, .u8, .wo, false, 0, .v, .device, 0, 255, true⟩,
  -- Sag warning level
  ⟨0x2000, 0x07, 0x07, .u16, .ro, false, 37000, .f, .device, 0, 65535, false⟩,
  -- Sags recorded
  ⟨0x2000, 0x08, 0x08, .u32, .ro, false, 0, .w, .device, 0, 4294967295, false⟩,
  -- Last 16 sag records, newest first (Table 13.7)
  ⟨0x2000, 0x09, 0x09, .blob, .ro, false, 0, .w, .device, 0, 0, false⟩,
  -- Input power limit, 20 000–38 000
  ⟨0x2000, 0x0A, 0x0A, .u32, .rwl, false, 38000, .s, .device, 20000, 38000, false⟩,
  -- Source resistance estimate
  ⟨0x2000, 0x0B, 0x0B, .u16, .ro, false, 0, .w, .device, 0, 65535, false⟩,
  -- Source resistance flag threshold, 500–5 000
  ⟨0x2000, 0x0C, 0x0C, .u16, .rwl, false, 1500, .s, .device, 500, 5000, false⟩,
  -- Input connection suspected
  ⟨0x2000, 0x0D, 0x0D, .bool, .ro, false, 0, .w, .device, 0, 1, false⟩]

/-- Entries 0x2100–0x21FF. -/
def odRows21 : List OdRow := [
  -- Phases per field
  ⟨0x2100, 0x01, 0x01, .u8, .ro, false, 48, .f, .device, 0, 255, false⟩,
  -- Plane limit
  ⟨0x2100, 0x02, 0x02, .u16, .ro, false, 460, .f, .device, 0, 65535, false⟩,
  -- Switch-on headroom
  ⟨0x2100, 0x03, 0x03, .u8, .ro, false, 85, .f, .device, 0, 255, false⟩,
  -- Branch ramp time
  ⟨0x2100, 0x04, 0x04, .u8, .ro, false, 2, .f, .device, 0, 255, false⟩,
  -- Fuse trip current
  ⟨0x2100, 0x05, 0x05, .u16, .ro, false, 160, .f, .device, 0, 65535, false⟩,
  -- Fuse trips, device total
  ⟨0x2100, 0x06, 0x06, .u32, .ro, false, 0, .w, .device, 0, 4294967295, false⟩,
  -- Phases failed, device total
  ⟨0x2100, 0x07, 0x07, .u32, .ro, false, 0, .w, .device, 0, 4294967295, false⟩,
  -- Field branch power cap
  ⟨0x2100, 0x08, 0x08, .u16, .ro, false, 630, .f, .device, 0, 65535, false⟩,
  -- Branch residual threshold, 5–50
  ⟨0x2100, 0x09, 0x09, .u8, .rwl, false, 15, .s, .device, 5, 50, false⟩,
  -- Field state: 0 on, 1 off, 2 switching on, 3 waiting for headroom, 4 tripped, 5 locked off, 6 switching off
  ⟨0x2101, 0x01, 0x40, .u8, .ro, false, 1, .w, .device, 0, 255, false⟩,
  -- Field minimum record (Table 13.9)
  ⟨0x2102, 0x01, 0x40, .blob, .ro, false, 0, .w, .device, 0, 0, false⟩,
  -- Failed-phase mask: bits [35:0] VCORE, [45:36] VARRAY, [47:46] VANA
  ⟨0x2103, 0x01, 0x40, .u64, .ro, false, 0, .w, .device, 0, 18446744073709551615, false⟩,
  -- Field connection suspected
  ⟨0x2104, 0x01, 0x40, .bool, .ro, false, 0, .w, .device, 0, 1, false⟩,
  -- Field branch current
  ⟨0x2105, 0x01, 0x40, .u16, .ro, false, 0, .v, .device, 0, 65535, false⟩,
  -- Plane draw
  ⟨0x2106, 0x01, 0x10, .u16, .ro, false, 0, .v, .device, 0, 65535, false⟩,
  -- Field budget b_f in [15:0], W; GRANT in [23:16]
  ⟨0x2107, 0x01, 0x40, .u32, .ro, false, 0, .v, .device, 0, 4294967295, false⟩,
  -- Grant weight per partition, 1–16
  ⟨0x2110, 0x01, 0x01, .u8, .rwl, false, 8, .s, .perPart, 1, 16, false⟩,
  -- Grant period
  ⟨0x2110, 0x02, 0x02, .u8, .ro, false, 1, .f, .device, 0, 255, false⟩]

/-- Entries 0x2200–0x22FF. -/
def odRows22 : List OdRow := [
  -- Reference clock present
  ⟨0x2200, 0x01, 0x01, .bool, .ro, false, 0, .v, .device, 0, 1, false⟩,
  -- Root PLL locked
  ⟨0x2200, 0x02, 0x02, .bool, .ro, false, 0, .v, .device, 0, 1, false⟩,
  -- Root PLL losses of lock
  ⟨0x2200, 0x03, 0x03, .u32, .ro, false, 0, .w, .device, 0, 4294967295, false⟩,
  -- CLK_CORE frequency
  ⟨0x2200, 0x04, 0x04, .u32, .ro, false, 1300000, .f, .device, 0, 4294967295, false⟩,
  -- Wafer time
  ⟨0x2200, 0x05, 0x05, .u64, .ro, false, 0, .w, .device, 0, 18446744073709551615, false⟩,
  -- UTC of wafer time 0
  ⟨0x2200, 0x06, 0x06, .u64, .rwl, false, 0, .w, .device, 0, 18446744073709551615, false⟩,
  -- Stile source changes, device total
  ⟨0x2200, 0x07, 0x07, .u32, .ro, false, 0, .w, .device, 0, 4294967295, false⟩,
  -- Stile state: source in [2:0] (0 hub, 1 W, 2 S, 3 E, 4 N, 7 none), D in [15:8]
  ⟨0x2201, 0x01, 0x40, .u16, .ro, false, 0, .w, .device, 0, 65535, false⟩]

/-- Entries 0x2300–0x23FF. -/
def odRows23 : List OdRow := [
  -- Throttle threshold, 85–98
  ⟨0x2300, 0x01, 0x01, .u8, .rwl, false, 95, .s, .device, 85, 98, false⟩,
  -- Throttle release hysteresis
  ⟨0x2300, 0x02, 0x02, .u8, .ro, false, 3, .f, .device, 0, 255, false⟩,
  -- Evacuation threshold
  ⟨0x2300, 0x03, 0x03, .u8, .ro, false, 100, .f, .device, 0, 255, false⟩,
  -- Critical limit
  ⟨0x2300, 0x04, 0x04, .u8, .ro, false, 110, .f, .device, 0, 255, false⟩,
  -- Coolant inlet temperature
  ⟨0x2300, 0x05, 0x05, .i16, .ro, false, 0, .v, .device, 0, 65535, false⟩,
  -- Coolant outlet temperature
  ⟨0x2300, 0x06, 0x06, .i16, .ro, false, 0, .v, .device, 0, 65535, false⟩,
  -- Coolant flow
  ⟨0x2300, 0x07, 0x07, .u16, .ro, false, 0, .v, .device, 0, 65535, false⟩,
  -- Outlet limit, 40–55
  ⟨0x2300, 0x08, 0x08, .u8, .rwl, false, 48, .s, .device, 40, 55, false⟩,
  -- Thermal limit P_therm in force
  ⟨0x2300, 0x09, 0x09, .u32, .ro, false, 0, .v, .device, 0, 4294967295, false⟩,
  -- Thermal limit without coolant readings, 10 000–38 000
  ⟨0x2300, 0x0A, 0x0A, .u32, .rwl, false, 20000, .s, .device, 10000, 38000, false⟩,
  -- Rotation interval, 30–600
  ⟨0x2300, 0x0B, 0x0B, .u16, .rwl, false, 90, .s, .device, 30, 600, false⟩,
  -- Rotation threshold, 1–10
  ⟨0x2300, 0x0C, 0x0C, .u8, .rwl, false, 2, .s, .device, 1, 10, false⟩,
  -- Rotations completed, device total
  ⟨0x2300, 0x0D, 0x0D, .u64, .ro, false, 0, .w, .device, 0, 18446744073709551615, false⟩,
  -- Rotations abandoned, device total
  ⟨0x2300, 0x0E, 0x0E, .u64, .ro, false, 0, .w, .device, 0, 18446744073709551615, false⟩,
  -- Switch-offs for heat, device total
  ⟨0x2300, 0x0F, 0x0F, .u32, .ro, false, 0, .w, .device, 0, 4294967295, false⟩,
  -- Evacuations, device total
  ⟨0x2300, 0x10, 0x10, .u32, .ro, false, 0, .w, .device, 0, 4294967295, false⟩,
  -- Embers for fields of no partition
  ⟨0x2300, 0x11, 0x11, .bool, .rwl, false, 1, .s, .device, 0, 1, false⟩,
  -- Coolant reading losses
  ⟨0x2300, 0x12, 0x12, .u32, .ro, false, 0, .w, .device, 0, 4294967295, false⟩,
  -- Evacuation origin per partition: x in [7:0], y in [15:8]; 0xFFFF none
  ⟨0x2300, 0x13, 0x13, .u16, .rwl, false, 65535, .s, .perPart, 0, 65535, false⟩,
  -- Coolant heat capacity, 3 000–4 200
  ⟨0x2300, 0x14, 0x14, .u16, .rwl, false, 4180, .s, .device, 3000, 4200, false⟩,
  -- Field temperature T_f
  ⟨0x2301, 0x01, 0x40, .i16, .ro, false, 0, .v, .device, 0, 65535, false⟩,
  -- Thermal cap on GRANT
  ⟨0x2302, 0x01, 0x40, .u8, .ro, false, 48, .v, .device, 0, 255, false⟩,
  -- Working temperature T_work
  ⟨0x2303, 0x01, 0x40, .i16, .ro, false, 650, .w, .device, 0, 65535, false⟩,
  -- Thermal cycles: [15:0] 10–20 °C, [31:16] 20–40 °C, [47:32] over 40 °C, saturating
  ⟨0x2304, 0x01, 0x40, .u64, .ro, false, 0, .f, .device, 0, 18446744073709551615, false⟩,
  -- Heat state: 0 normal, 1 throttled, 2 urgent rotation, 3 evacuating, 4 off for heat, 5 Embers, 6 off at critical limit
  ⟨0x2305, 0x01, 0x40, .u8, .ro, false, 0, .v, .device, 0, 255, false⟩,
  -- Release a field held off for heat; write 1
  ⟨0x2306, 0x01, 0x40, .u8, .wo, false, 0, .v, .device, 0, 255, true⟩]

/-- Entries 0x3000–0x30FF. -/
def odRows30 : List OdRow := [
  -- Calibration interval, 60–3 600
  ⟨0x3000, 0x01, 0x01, .u16, .rwl, false, 600, .s, .device, 60, 3600, false⟩,
  -- Calibration temperature trigger, 1–10
  ⟨0x3000, 0x02, 0x02, .u8, .rwl, false, 3, .s, .device, 1, 10, false⟩,
  -- Band hysteresis
  ⟨0x3000, 0x03, 0x03, .u8, .ro, false, 2, .f, .device, 0, 255, false⟩,
  -- Refresh interval, 8–32
  ⟨0x3000, 0x04, 0x04, .u8, .rwl, false, 32, .s, .device, 8, 32, false⟩,
  -- Refresh deferral limit
  ⟨0x3000, 0x05, 0x05, .u8, .ro, false, 4, .f, .device, 0, 255, false⟩,
  -- Rejuvenation interval, 24–168
  ⟨0x3000, 0x06, 0x06, .u16, .rwl, false, 168, .s, .device, 24, 168, false⟩,
  -- Re-read count per partition: 0, 2, 4 or 8
  ⟨0x3000, 0x07, 0x07, .u8, .rw, false, 4, .s, .perPart, 0, 8, false⟩,
  -- Calibrations completed, device total
  ⟨0x3000, 0x08, 0x08, .u64, .ro, false, 0, .w, .device, 0, 18446744073709551615, false⟩,
  -- Calibrations aborted, device total
  ⟨0x3000, 0x09, 0x09, .u64, .ro, false, 0, .w, .device, 0, 18446744073709551615, false⟩,
  -- Calibrations late, device total
  ⟨0x3000, 0x0A, 0x0A, .u64, .ro, false, 0, .w, .device, 0, 18446744073709551615, false⟩,
  -- Forced refreshes, device total
  ⟨0x3000, 0x0B, 0x0B, .u64, .ro, false, 0, .w, .device, 0, 18446744073709551615, false⟩,
  -- Envelope failures, device total
  ⟨0x3000, 0x0C, 0x0C, .u64, .ro, false, 0, .w, .device, 0, 18446744073709551615, false⟩,
  -- Refresh rows failing verify, device total
  ⟨0x3000, 0x0D, 0x0D, .u64, .ro, false, 0, .w, .device, 0, 18446744073709551615, false⟩,
  -- Powered age of the charge wafer
  ⟨0x3000, 0x0E, 0x0E, .u32, .ro, false, 0, .f, .device, 0, 4294967295, false⟩,
  -- Stages skipped by rejuvenation
  ⟨0x3000, 0x0F, 0x0F, .u64, .ro, false, 0, .w, .device, 0, 18446744073709551615, false⟩,
  -- Persistent envelope failures, device total
  ⟨0x3000, 0x10, 0x10, .u64, .ro, false, 0, .w, .device, 0, 18446744073709551615, false⟩,
  -- Powered age at last completed rejuvenation
  ⟨0x3000, 0x11, 0x11, .u32, .ro, false, 0, .s, .device, 0, 4294967295, false⟩,
  -- Current band of F(c,r), subindex 1 + 8r + c
  ⟨0x3001, 0x01, 0x40, .u8, .ro, false, 0, .v, .device, 0, 255, false⟩,
  -- User calibration table present
  ⟨0x3002, 0x01, 0x01, .bool, .ro, false, 0, .u, .device, 0, 1, false⟩,
  -- Save user calibration now; write 1
  ⟨0x3002, 0x02, 0x02, .u8, .wo, false, 0, .v, .device, 0, 255, true⟩,
  -- User calibration save interval, 1–168
  ⟨0x3002, 0x03, 0x03, .u16, .rwl, false, 24, .s, .device, 1, 168, false⟩]

/-- Entries 0x3100–0x31FF. -/
def odRows31 : List OdRow := [
  -- Arrays active per tile, maximum
  ⟨0x3100, 0x01, 0x01, .u8, .ro, false, 48, .f, .device, 0, 255, false⟩,
  -- Arrays reading per tile, maximum
  ⟨0x3100, 0x02, 0x02, .u8, .ro, false, 20, .f, .device, 0, 255, false⟩,
  -- Arrays writing per tile, maximum
  ⟨0x3100, 0x03, 0x03, .u8, .ro, false, 8, .f, .device, 0, 255, false⟩,
  -- Write retries per row, 0–4; other values refused with 0x0003
  ⟨0x3100, 0x04, 0x04, .u8, .rwl, false, 2, .s, .device, 0, 4, false⟩,
  -- Rows failing write-verify, device total
  ⟨0x3100, 0x05, 0x05, .u64, .ro, false, 0, .w, .device, 0, 18446744073709551615, false⟩,
  -- Accumulator clamps, device total
  ⟨0x3100, 0x06, 0x06, .u64, .ro, false, 0, .w, .device, 0, 18446744073709551615, false⟩,
  -- Requantisation clamps, device total
  ⟨0x3100, 0x07, 0x07, .u64, .ro, false, 0, .w, .device, 0, 18446744073709551615, false⟩,
  -- Arithmetic mode per partition: 0 charge, 1 Exact
  ⟨0x3101, 0x01, 0x01, .u8, .rw, false, 0, .s, .perPart, 0, 1, false⟩,
  -- Exact-mode column-sum mismatches, device total
  ⟨0x3101, 0x02, 0x02, .u64, .ro, false, 0, .w, .device, 0, 18446744073709551615, false⟩]

/-- Entries 0x3200–0x32FF. -/
def odRows32 : List OdRow := [
  -- Tensor MAC per cycle per tile, INT8 or FP8
  ⟨0x3200, 0x01, 0x01, .u16, .ro, false, 4096, .f, .device, 0, 65535, false⟩,
  -- Tensor MAC per cycle per tile, INT4×INT8
  ⟨0x3200, 0x02, 0x02, .u16, .ro, false, 8192, .f, .device, 0, 65535, false⟩,
  -- Vector FP32 lanes per tile
  ⟨0x3200, 0x03, 0x03, .u8, .ro, false, 64, .f, .device, 0, 255, false⟩,
  -- Sampling candidate limit
  ⟨0x3200, 0x04, 0x04, .u8, .ro, false, 64, .f, .device, 0, 255, false⟩,
  -- Integer accumulator saturations, device total
  ⟨0x3200, 0x05, 0x05, .u64, .ro, false, 0, .w, .device, 0, 18446744073709551615, false⟩,
  -- Non-finite tensor results, device total
  ⟨0x3200, 0x06, 0x06, .u64, .ro, false, 0, .w, .device, 0, 18446744073709551615, false⟩,
  -- Cycles added under R99, device total
  ⟨0x3200, 0x07, 0x07, .u64, .ro, false, 0, .w, .device, 0, 18446744073709551615, false⟩,
  -- Exact-mode streams on tensor blocks, device total
  ⟨0x3200, 0x08, 0x08, .u64, .ro, false, 0, .w, .device, 0, 18446744073709551615, false⟩]

/-- Entries 0x3300–0x33FF. -/
def odRows33 : List OdRow := [
  -- Scratchpad bytes per tile
  ⟨0x3300, 0x01, 0x01, .u32, .ro, false, 2097152, .f, .device, 0, 4294967295, false⟩,
  -- Scratchpad banks
  ⟨0x3300, 0x02, 0x02, .u8, .ro, false, 16, .f, .device, 0, 255, false⟩,
  -- Mover channels per tile
  ⟨0x3300, 0x03, 0x03, .u8, .ro, false, 4, .f, .device, 0, 255, false⟩,
  -- Scratchpad corrected granules, device total
  ⟨0x3300, 0x04, 0x04, .u64, .ro, false, 0, .w, .device, 0, 18446744073709551615, false⟩,
  -- Scratchpad uncorrectable granules, device total
  ⟨0x3300, 0x05, 0x05, .u64, .ro, false, 0, .w, .device, 0, 18446744073709551615, false⟩,
  -- Misaligned control-class accesses, device total
  ⟨0x3300, 0x06, 0x06, .u64, .ro, false, 0, .w, .device, 0, 18446744073709551615, false⟩,
  -- Ring ownership violations, device total
  ⟨0x3300, 0x07, 0x07, .u64, .ro, false, 0, .w, .device, 0, 18446744073709551615, false⟩,
  -- Stacks online
  ⟨0x3310, 0x01, 0x01, .u8, .ro, false, 16, .w, .device, 0, 255, false⟩,
  -- Stack data rate in force
  ⟨0x3310, 0x02, 0x02, .u8, .ro, false, 80, .w, .device, 0, 255, false⟩,
  -- Stack data rate selection: 0 for 8.0, 1 for 6.4; applies at the next cold power-on
  ⟨0x3310, 0x03, 0x03, .u8, .rwl, false, 0, .s, .device, 0, 1, false⟩,
  -- Device extents held by online stacks
  ⟨0x3310, 0x04, 0x04, .u32, .ro, false, 6144, .w, .device, 0, 4294967295, false⟩,
  -- Trace region
  ⟨0x3310, 0x05, 0x05, .u16, .ro, false, 64, .f, .device, 0, 65535, false⟩,
  -- Patrol scrub interval, 1–168
  ⟨0x3310, 0x06, 0x06, .u16, .rwl, false, 24, .s, .device, 1, 168, false⟩,
  -- Stack units corrected by the device code, device total
  ⟨0x3310, 0x07, 0x07, .u64, .ro, false, 0, .w, .device, 0, 18446744073709551615, false⟩,
  -- Stack units uncorrectable, device total
  ⟨0x3310, 0x08, 0x08, .u64, .ro, false, 0, .w, .device, 0, 18446744073709551615, false⟩,
  -- On-die ECC corrections reported by stacks, device total
  ⟨0x3310, 0x09, 0x09, .u64, .ro, false, 0, .w, .device, 0, 18446744073709551615, false⟩,
  -- State of stack s, subindex s + 1: 0 online, 1 offline at training, 2 failed in operation
  ⟨0x3311, 0x01, 0x10, .u8, .ro, false, 0, .w, .device, 0, 255, false⟩,
  -- Model store extents, per partition
  ⟨0x3320, 0x01, 0x01, .u16, .rwl, false, 0, .s, .perPart, 0, 65535, false⟩,
  -- KV warm tier extents, per partition
  ⟨0x3320, 0x02, 0x02, .u16, .rwl, false, 0, .s, .perPart, 0, 65535, false⟩,
  -- Prefix tree extents, per partition
  ⟨0x3320, 0x03, 0x03, .u16, .rwl, false, 0, .s, .perPart, 0, 65535, false⟩,
  -- Request state extents, per partition
  ⟨0x3320, 0x04, 0x04, .u16, .rwl, false, 0, .s, .perPart, 0, 65535, false⟩,
  -- Extents allocated, per partition
  ⟨0x3320, 0x05, 0x05, .u16, .ro, false, 0, .v, .perPart, 0, 65535, false⟩]

/-- Entries 0x3400–0x34FF. -/
def odRows34 : List OdRow := [
  -- Payload per flit
  ⟨0x3400, 0x01, 0x01, .u8, .ro, false, 32, .f, .device, 0, 255, false⟩,
  -- Reduction slots per router
  ⟨0x3400, 0x02, 0x02, .u8, .ro, false, 32, .f, .device, 0, 255, false⟩,
  -- Rim share W_RIM, 1–7
  ⟨0x3400, 0x03, 0x03, .u8, .rwl, false, 4, .s, .device, 1, 7, false⟩,
  -- Reduction timeout, log2 of cycles, 10–20
  ⟨0x3400, 0x04, 0x04, .u8, .rwl, false, 17, .s, .device, 10, 20, false⟩,
  -- Response timeout, 10–10 000
  ⟨0x3400, 0x05, 0x05, .u16, .rwl, false, 100, .s, .device, 10, 10000, false⟩,
  -- Detour drain limit
  ⟨0x3400, 0x06, 0x06, .u8, .ro, false, 16, .f, .device, 0, 255, false⟩,
  -- Link corrections, device total
  ⟨0x3400, 0x07, 0x07, .u64, .ro, false, 0, .w, .device, 0, 18446744073709551615, false⟩,
  -- Link retries, device total
  ⟨0x3400, 0x08, 0x08, .u64, .ro, false, 0, .w, .device, 0, 18446744073709551615, false⟩,
  -- Links failed
  ⟨0x3400, 0x09, 0x09, .u32, .ro, false, 0, .w, .device, 0, 4294967295, false⟩,
  -- Reduction saturations, device total
  ⟨0x3400, 0x0A, 0x0A, .u64, .ro, false, 0, .w, .device, 0, 18446744073709551615, false⟩,
  -- Incomplete reductions, device total
  ⟨0x3400, 0x0B, 0x0B, .u64, .ro, false, 0, .w, .device, 0, 18446744073709551615, false⟩,
  -- Refusals, device total
  ⟨0x3400, 0x0C, 0x0C, .u64, .ro, false, 0, .w, .device, 0, 18446744073709551615, false⟩,
  -- Detour set installations
  ⟨0x3400, 0x0D, 0x0D, .u32, .ro, false, 0, .w, .device, 0, 4294967295, false⟩,
  -- Duration of the last installation
  ⟨0x3400, 0x0E, 0x0E, .u32, .ro, false, 0, .w, .device, 0, 4294967295, false⟩,
  -- Rim weight per partition, 1–16
  ⟨0x3400, 0x0F, 0x0F, .u8, .rwl, false, 8, .s, .perPart, 1, 16, false⟩,
  -- Dark-field mask, bit 8r + c
  ⟨0x3401, 0x01, 0x01, .u64, .ro, false, 0, .w, .device, 0, 18446744073709551615, false⟩]

/-- Entries 0x3500–0x35FF. -/
def odRows35 : List OdRow := [
  -- Instruction SRAM per core
  ⟨0x3500, 0x01, 0x01, .u32, .ro, false, 65536, .f, .device, 0, 4294967295, false⟩,
  -- Data SRAM per core
  ⟨0x3500, 0x02, 0x02, .u32, .ro, false, 32768, .f, .device, 0, 4294967295, false⟩,
  -- Message queue depth
  ⟨0x3500, 0x03, 0x03, .u8, .ro, false, 16, .f, .device, 0, 255, false⟩,
  -- Program faults, device total
  ⟨0x3500, 0x04, 0x04, .u64, .ro, false, 0, .w, .device, 0, 18446744073709551615, false⟩,
  -- Fault records lost, device total
  ⟨0x3500, 0x05, 0x05, .u64, .ro, false, 0, .w, .device, 0, 18446744073709551615, false⟩,
  -- Programs loaded, device total
  ⟨0x3500, 0x06, 0x06, .u64, .ro, false, 0, .w, .device, 0, 18446744073709551615, false⟩,
  -- Loads refused, device total
  ⟨0x3500, 0x07, 0x07, .u64, .ro, false, 0, .w, .device, 0, 18446744073709551615, false⟩,
  -- Tiles running TC1 padded
  ⟨0x3500, 0x08, 0x08, .u32, .ro, false, 0, .v, .device, 0, 4294967295, false⟩,
  -- Contract levels in force per partition: bit n for TCn
  ⟨0x3501, 0x01, 0x01, .u8, .ro, false, 0, .v, .perPart, 0, 255, false⟩,
  -- Program digests per partition
  ⟨0x3501, 0x02, 0x02, .blob, .ro, false, 0, .v, .perPart, 0, 0, false⟩,
  -- Last 64 fault records per partition
  ⟨0x3501, 0x03, 0x03, .blob, .ro, true, 0, .v, .perPart, 0, 0, false⟩,
  -- Fault sink per partition, x in [7:0], y in [15:8]
  ⟨0x3501, 0x04, 0x04, .u16, .ro, false, 0, .v, .perPart, 0, 65535, false⟩]

/-- Entries 0x4000–0x40FF. -/
def odRows40 : List OdRow := [
  -- Partition command (R351); reads the last command
  ⟨0x4000, 0x01, 0x01, .blob, .rwl, false, 0, .v, .device, 0, 0, false⟩,
  -- Partitions, maximum
  ⟨0x4000, 0x02, 0x02, .u8, .ro, false, 32, .f, .device, 0, 255, false⟩,
  -- Last partition command status
  ⟨0x4000, 0x03, 0x03, .u16, .ro, false, 0, .v, .device, 0, 65535, false⟩,
  -- Free fields, bit 8r + c
  ⟨0x4000, 0x04, 0x04, .u64, .ro, false, 0, .v, .device, 0, 18446744073709551615, false⟩,
  -- Saved field mask of partition p
  ⟨0x4001, 0x01, 0x20, .u64, .rwl, false, 0, .s, .partIndexed, 0, 18446744073709551615, false⟩,
  -- State: 0 free, 1 formed, 2 faulted, 3 forming or resetting, 4 scrubbing
  ⟨0x4002, 0x01, 0x20, .u8, .ro, false, 0, .v, .partIndexed, 0, 255, false⟩,
  -- Field mask in force
  ⟨0x4003, 0x01, 0x20, .u64, .ro, false, 0, .v, .partIndexed, 0, 18446744073709551615, false⟩]

/-- Entries 0x4100–0x41FF. -/
def odRows41 : List OdRow := [
  -- Identity certificate chain (Table 15.4)
  ⟨0x4100, 0x01, 0x01, .blob, .ro, false, 0, .f, .device, 0, 0, false⟩,
  -- Identity public key digest, SHA-256
  ⟨0x4100, 0x02, 0x02, .blob, .ro, false, 0, .f, .device, 0, 0, false⟩,
  -- SPDM sessions open
  ⟨0x4100, 0x03, 0x03, .u8, .ro, false, 0, .v, .device, 0, 255, false⟩,
  -- Attestation reports signed, device total
  ⟨0x4100, 0x04, 0x04, .u64, .ro, false, 0, .w, .device, 0, 18446744073709551615, false⟩,
  -- Security refusals and SPDM errors, device total
  ⟨0x4100, 0x05, 0x05, .u64, .ro, false, 0, .w, .device, 0, 18446744073709551615, false⟩,
  -- Field scrubs completed, device total
  ⟨0x4100, 0x06, 0x06, .u32, .ro, false, 0, .w, .device, 0, 4294967295, false⟩,
  -- Arrays failed at scrub, device total (R354)
  ⟨0x4100, 0x07, 0x07, .u32, .ro, false, 0, .w, .device, 0, 4294967295, false⟩,
  -- Claim digest of partition p
  ⟨0x4101, 0x01, 0x20, .blob, .ro, false, 0, .v, .partIndexed, 0, 0, false⟩,
  -- Sealed
  ⟨0x4102, 0x01, 0x20, .bool, .ro, false, 0, .v, .partIndexed, 0, 1, false⟩,
  -- Key slots occupied: bits 0–3 model, 4–5 link
  ⟨0x4103, 0x01, 0x20, .u8, .ro, false, 0, .v, .partIndexed, 0, 255, false⟩,
  -- Failed arrays in F(c,r), subindex 1 + 8r + c (R354)
  ⟨0x4104, 0x01, 0x40, .u16, .ro, false, 0, .w, .device, 0, 65535, false⟩]

/-- Entries 0x5000–0x50FF. -/
def odRows50 : List OdRow := [
  -- Request table size
  ⟨0x5000, 0x01, 0x01, .u16, .ro, false, 8192, .f, .device, 0, 65535, false⟩,
  -- Request quota per partition, 0–8 192, sum at most 8 192
  ⟨0x5000, 0x02, 0x02, .u16, .rwl, false, 256, .s, .perPart, 0, 8192, false⟩,
  -- Admissions per step per partition, 1–64
  ⟨0x5000, 0x03, 0x03, .u8, .rw, false, 16, .s, .perPart, 1, 64, false⟩,
  -- MAX_ACTIVE of the loaded model, per partition
  ⟨0x5000, 0x04, 0x04, .u16, .ro, false, 0, .v, .perPart, 0, 65535, false⟩,
  -- Maximum context of the placement, per partition
  ⟨0x5000, 0x05, 0x05, .u32, .ro, false, 0, .v, .perPart, 0, 4294967295, false⟩,
  -- Buckets supported per partition: bit 0 for 128 up to bit 5 for 128 Ki
  ⟨0x5000, 0x06, 0x06, .u8, .ro, false, 0, .v, .perPart, 0, 255, false⟩,
  -- Deadline margin per partition, 0–100
  ⟨0x5000, 0x07, 0x07, .u8, .rw, false, 10, .s, .perPart, 0, 100, false⟩,
  -- Mean step period per partition
  ⟨0x5000, 0x08, 0x08, .u32, .ro, false, 0, .v, .perPart, 0, 4294967295, false⟩,
  -- Requests held per partition
  ⟨0x5000, 0x09, 0x09, .u16, .ro, false, 0, .v, .perPart, 0, 65535, false⟩,
  -- Requests admitted, device total
  ⟨0x5000, 0x0A, 0x0A, .u64, .ro, false, 0, .w, .device, 0, 18446744073709551615, false⟩,
  -- Refusals with 0x0101, device total
  ⟨0x5000, 0x0B, 0x0B, .u64, .ro, false, 0, .w, .device, 0, 18446744073709551615, false⟩,
  -- Refusals with 0x0102, device total
  ⟨0x5000, 0x0C, 0x0C, .u64, .ro, false, 0, .w, .device, 0, 18446744073709551615, false⟩,
  -- Refusals with 0x0103, device total
  ⟨0x5000, 0x0D, 0x0D, .u64, .ro, false, 0, .w, .device, 0, 18446744073709551615, false⟩,
  -- Requests cancelled, device total
  ⟨0x5000, 0x0E, 0x0E, .u64, .ro, false, 0, .w, .device, 0, 18446744073709551615, false⟩,
  -- Requests ended by END_DL, device total
  ⟨0x5000, 0x0F, 0x0F, .u64, .ro, false, 0, .w, .device, 0, 18446744073709551615, false⟩,
  -- Tokens generated, device total
  ⟨0x5000, 0x10, 0x10, .u64, .ro, false, 0, .w, .device, 0, 18446744073709551615, false⟩,
  -- Record waits on a full completion ring, device total
  ⟨0x5000, 0x11, 0x11, .u64, .ro, false, 0, .w, .device, 0, 18446744073709551615, false⟩,
  -- First tokens written LATE, device total
  ⟨0x5000, 0x12, 0x12, .u64, .ro, false, 0, .w, .device, 0, 18446744073709551615, false⟩,
  -- Requests held, device
  ⟨0x5000, 0x13, 0x13, .u16, .ro, false, 0, .v, .device, 0, 65535, false⟩,
  -- Request quota in force per partition (R233)
  ⟨0x5000, 0x14, 0x14, .u16, .ro, false, 0, .v, .perPart, 0, 65535, false⟩,
  -- Mean prefill time per partition for bucket 128, 512, 2 Ki, 8 Ki, 32 Ki and 128 Ki
  ⟨0x5001, 0x01, 0x06, .u32, .ro, false, 0, .v, .perPart, 0, 4294967295, false⟩]

/-- Entries 0x5100–0x51FF. -/
def odRows51 : List OdRow := [
  -- Page size of the loaded model, per partition
  ⟨0x5100, 0x01, 0x01, .u32, .ro, false, 0, .v, .perPart, 0, 4294967295, false⟩,
  -- Prefetch lead LEAD, per partition, 1–64
  ⟨0x5100, 0x02, 0x02, .u8, .rw, false, 16, .s, .perPart, 1, 64, false⟩,
  -- Copy pages to the warm tier when full, per partition
  ⟨0x5100, 0x03, 0x03, .bool, .rw, false, 1, .s, .perPart, 0, 1, false⟩,
  -- Prefix tree enabled, per partition
  ⟨0x5100, 0x04, 0x04, .bool, .rw, false, 1, .s, .perPart, 0, 1, false⟩,
  -- KV page waits, device total
  ⟨0x5100, 0x05, 0x05, .u64, .ro, false, 0, .w, .device, 0, 18446744073709551615, false⟩,
  -- KV page wait cycles, device total
  ⟨0x5100, 0x06, 0x06, .u64, .ro, false, 0, .w, .device, 0, 18446744073709551615, false⟩,
  -- Pages prefetched, device total
  ⟨0x5100, 0x07, 0x07, .u64, .ro, false, 0, .w, .device, 0, 18446744073709551615, false⟩,
  -- Pages written to the stack, device total
  ⟨0x5100, 0x08, 0x08, .u64, .ro, false, 0, .w, .device, 0, 18446744073709551615, false⟩,
  -- KV quantisation clamps, device total
  ⟨0x5100, 0x09, 0x09, .u64, .ro, false, 0, .w, .device, 0, 18446744073709551615, false⟩,
  -- Tokens with empty attention, device total
  ⟨0x5100, 0x0A, 0x0A, .u64, .ro, false, 0, .w, .device, 0, 18446744073709551615, false⟩,
  -- Pages lost to uncorrectable units, device total
  ⟨0x5100, 0x0B, 0x0B, .u64, .ro, false, 0, .w, .device, 0, 18446744073709551615, false⟩,
  -- Prefix nodes in use, per partition
  ⟨0x5100, 0x0C, 0x0C, .u32, .ro, false, 0, .v, .perPart, 0, 4294967295, false⟩,
  -- Prefix groups matched, device total
  ⟨0x5100, 0x0E, 0x0E, .u64, .ro, false, 0, .w, .device, 0, 18446744073709551615, false⟩,
  -- Prefix lookups without match, device total
  ⟨0x5100, 0x0F, 0x0F, .u64, .ro, false, 0, .w, .device, 0, 18446744073709551615, false⟩,
  -- Prefix nodes evicted or freed, device total
  ⟨0x5100, 0x10, 0x10, .u64, .ro, false, 0, .w, .device, 0, 18446744073709551615, false⟩,
  -- Prefix insertions dropped, device total
  ⟨0x5100, 0x11, 0x11, .u64, .ro, false, 0, .w, .device, 0, 18446744073709551615, false⟩,
  -- Make the prefix tree unreachable, per partition; write 1
  ⟨0x5100, 0x12, 0x12, .u8, .wo, false, 0, .v, .perPart, 0, 255, true⟩,
  -- Warm-tier page frames free, per partition
  ⟨0x5101, 0x01, 0x01, .u32, .ro, false, 0, .v, .perPart, 0, 4294967295, false⟩,
  -- Tokens with empty attention, per partition
  ⟨0x5101, 0x02, 0x02, .u64, .ro, false, 0, .v, .perPart, 0, 18446744073709551615, false⟩,
  -- KV page waits, per partition
  ⟨0x5101, 0x03, 0x03, .u64, .ro, false, 0, .v, .perPart, 0, 18446744073709551615, false⟩]

/-- Entries 0x5200–0x52FF. -/
def odRows52 : List OdRow := [
  -- Model command, per partition (Table 10.6)
  ⟨0x5200, 0x01, 0x01, .blob, .wo, false, 0, .v, .perPart, 0, 0, false⟩,
  -- Command state per partition: 0 idle, 1 staging, 2 waiting for held requests, 3 installing, 4 queued behind maintenance
  ⟨0x5200, 0x02, 0x02, .u8, .ro, false, 0, .v, .perPart, 0, 255, false⟩,
  -- Last command status, per partition
  ⟨0x5200, 0x03, 0x03, .u16, .ro, false, 0, .v, .perPart, 0, 65535, false⟩,
  -- Bytes moved by the current command, per partition
  ⟨0x5200, 0x04, 0x04, .u64, .ro, false, 0, .v, .perPart, 0, 18446744073709551615, false⟩,
  -- Strict write-verify on install, per partition
  ⟨0x5200, 0x05, 0x05, .bool, .rw, false, 0, .s, .perPart, 0, 1, false⟩,
  -- Model generation, per partition
  ⟨0x5200, 0x06, 0x06, .u32, .ro, false, 0, .v, .perPart, 0, 4294967295, false⟩,
  -- Installed base handle, per partition; 0xFF none
  ⟨0x5200, 0x07, 0x07, .u8, .ro, false, 255, .v, .perPart, 0, 255, false⟩,
  -- Installed addition handle, per partition; 0xFF none
  ⟨0x5200, 0x08, 0x08, .u8, .ro, false, 255, .v, .perPart, 0, 255, false⟩,
  -- Arrays with failed rows after the last install, per partition
  ⟨0x5200, 0x09, 0x09, .u32, .ro, false, 0, .v, .perPart, 0, 4294967295, false⟩,
  -- Duration of the last install, per partition
  ⟨0x5200, 0x0A, 0x0A, .u32, .ro, false, 0, .v, .perPart, 0, 4294967295, false⟩,
  -- Handles per partition. DEDUCED, log 128.
  ⟨0x5200, 0x0B, 0x0B, .u8, .ro, false, 16, .f, .device, 0, 255, false⟩,
  -- Installs completed, device total
  ⟨0x5200, 0x0C, 0x0C, .u64, .ro, false, 0, .w, .device, 0, 18446744073709551615, false⟩,
  -- Stages completed, device total
  ⟨0x5200, 0x0D, 0x0D, .u64, .ro, false, 0, .w, .device, 0, 18446744073709551615, false⟩,
  -- Handle record, per partition, subindex handle + 1 (Table 10.5)
  ⟨0x5210, 0x01, 0x10, .blob, .ro, false, 0, .v, .perPart, 0, 0, false⟩]

/-- Entries 0x6000–0x60FF. -/
def odRows60 : List OdRow := [
  -- PCI vendor ID
  ⟨0x6000, 0x01, 0x01, .u16, .ro, false, 0, .f, .device, 0, 65535, false⟩,
  -- PF device ID
  ⟨0x6000, 0x02, 0x02, .u16, .ro, false, 42560, .f, .device, 0, 65535, false⟩,
  -- VF device ID
  ⟨0x6000, 0x03, 0x03, .u16, .ro, false, 42561, .f, .device, 0, 65535, false⟩,
  -- Port A link: rate in [7:0], width in [15:8]
  ⟨0x6000, 0x04, 0x04, .u16, .ro, false, 0, .w, .device, 0, 65535, false⟩,
  -- Port B link, as 0x6000.04
  ⟨0x6000, 0x05, 0x05, .u16, .ro, false, 0, .w, .device, 0, 65535, false⟩,
  -- Violations on Port A, total
  ⟨0x6000, 0x06, 0x06, .u64, .ro, false, 0, .w, .device, 0, 18446744073709551615, false⟩,
  -- Violations on Port B, total
  ⟨0x6000, 0x07, 0x07, .u64, .ro, false, 0, .w, .device, 0, 18446744073709551615, false⟩,
  -- Host read failures, device total
  ⟨0x6000, 0x08, 0x08, .u64, .ro, false, 0, .w, .device, 0, 18446744073709551615, false⟩,
  -- IDE streams leaving the secure state, device total
  ⟨0x6000, 0x09, 0x09, .u64, .ro, false, 0, .w, .device, 0, 18446744073709551615, false⟩,
  -- Lock acquisitions from the free state, device total; renewals not counted
  ⟨0x6000, 0x0A, 0x0A, .u64, .ro, false, 0, .w, .device, 0, 18446744073709551615, false⟩,
  -- Lock lease expiries, device total
  ⟨0x6000, 0x0B, 0x0B, .u64, .ro, false, 0, .w, .device, 0, 18446744073709551615, false⟩,
  -- Lock holder, as DCL_STATUS.HOLDER
  ⟨0x6000, 0x0C, 0x0C, .u8, .ro, false, 0, .v, .device, 0, 255, false⟩,
  -- IDE required per partition
  ⟨0x6000, 0x0D, 0x0D, .bool, .rwl, false, 0, .s, .perPart, 0, 1, false⟩,
  -- Port of partition p, subindex p + 1: 0 Port A, 1 Port B
  ⟨0x6001, 0x01, 0x20, .u8, .rwl, false, 0, .s, .partIndexed, 0, 1, false⟩,
  -- Host queue version in force for partition p, subindex p + 1
  ⟨0x6002, 0x01, 0x20, .u16, .ro, false, 0, .v, .partIndexed, 0, 65535, false⟩]

/-- Entries 0x6100–0x61FF. -/
def odRows61 : List OdRow := [
  -- Device ID, 0–65 534; 0xFFFF fabric off
  ⟨0x6100, 0x01, 0x01, .u16, .rwl, false, 65535, .s, .device, 0, 65535, false⟩,
  -- Mode: 0 layer 2, 1 UDP over IPv6
  ⟨0x6100, 0x02, 0x02, .u8, .rwl, false, 0, .s, .device, 0, 1, false⟩,
  -- UDP port, 1 024–65 535
  ⟨0x6100, 0x03, 0x03, .u16, .rwl, false, 47890, .s, .device, 1024, 65535, false⟩,
  -- IPv6 prefix, upper 64 bits
  ⟨0x6100, 0x04, 0x04, .u64, .rwl, false, 0, .s, .device, 0, 18446744073709551615, false⟩,
  -- Split mask: bit n splits port n
  ⟨0x6100, 0x05, 0x05, .u16, .rwl, false, 0, .s, .device, 0, 65535, false⟩,
  -- Logical links up: bit L for link L
  ⟨0x6100, 0x06, 0x06, .u32, .ro, false, 0, .w, .device, 0, 4294967295, false⟩,
  -- VLAN ID, 0 untagged, 1–4 094
  ⟨0x6100, 0x07, 0x07, .u16, .rwl, false, 0, .s, .device, 0, 4094, false⟩,
  -- Join wait, 1–1 000
  ⟨0x6100, 0x08, 0x08, .u16, .rwl, false, 20, .s, .device, 1, 1000, false⟩,
  -- Retransmission timeout, 20–10 000
  ⟨0x6100, 0x09, 0x09, .u16, .rwl, false, 200, .s, .device, 20, 10000, false⟩,
  -- Retransmissions per packet, 1–16
  ⟨0x6100, 0x0A, 0x0A, .u8, .rwl, false, 8, .s, .device, 1, 16, false⟩,
  -- Peer silence limit, 2–1 000
  ⟨0x6100, 0x0B, 0x0B, .u16, .rwl, false, 10, .s, .device, 2, 1000, false⟩,
  -- Packets sent, device total
  ⟨0x6100, 0x0C, 0x0C, .u64, .ro, false, 0, .w, .device, 0, 18446744073709551615, false⟩,
  -- Packets received, device total
  ⟨0x6100, 0x0D, 0x0D, .u64, .ro, false, 0, .w, .device, 0, 18446744073709551615, false⟩,
  -- Packets retransmitted, device total
  ⟨0x6100, 0x0E, 0x0E, .u64, .ro, false, 0, .w, .device, 0, 18446744073709551615, false⟩,
  -- CRC-32C failures, device total
  ⟨0x6100, 0x0F, 0x0F, .u64, .ro, false, 0, .w, .device, 0, 18446744073709551615, false⟩,
  -- Authentication failures, device total
  ⟨0x6100, 0x10, 0x10, .u64, .ro, false, 0, .w, .device, 0, 18446744073709551615, false⟩,
  -- Peer violations and foreign frames, device total
  ⟨0x6100, 0x11, 0x11, .u64, .ro, false, 0, .w, .device, 0, 18446744073709551615, false⟩,
  -- NAKs sent and suppressed, device total
  ⟨0x6100, 0x12, 0x12, .u64, .ro, false, 0, .w, .device, 0, 18446744073709551615, false⟩,
  -- State of port n, subindex n + 1: 0 down, 1 800G up, 2 both halves up, 3 one half up
  ⟨0x6101, 0x01, 0x10, .u8, .ro, false, 0, .w, .device, 0, 255, false⟩,
  -- Uncorrectable FEC codewords on port n
  ⟨0x6102, 0x01, 0x10, .u64, .ro, false, 0, .w, .device, 0, 18446744073709551615, false⟩,
  -- Fabric send command, per partition (Table 12.5)
  ⟨0x6110, 0x01, 0x01, .blob, .wo, false, 0, .v, .perPart, 0, 0, false⟩,
  -- Send state per partition: 0 idle, 1 joining, 2 sending, 3 awaiting acknowledgements
  ⟨0x6110, 0x02, 0x02, .u8, .ro, false, 0, .v, .perPart, 0, 255, false⟩,
  -- Last send status, per partition
  ⟨0x6110, 0x03, 0x03, .u16, .ro, false, 0, .v, .perPart, 0, 65535, false⟩,
  -- Receivers of the current send, per partition
  ⟨0x6110, 0x04, 0x04, .u8, .ro, false, 0, .v, .perPart, 0, 255, false⟩,
  -- Sending link key slot, per partition, 0–1
  ⟨0x6111, 0x01, 0x01, .u8, .rw, true, 0, .s, .perPart, 0, 1, false⟩,
  -- Link encryption required, per partition
  ⟨0x6111, 0x02, 0x02, .bool, .rwl, false, 0, .s, .perPart, 0, 1, false⟩,
  -- Peer entries in use
  ⟨0x6120, 0x01, 0x01, .u16, .ro, false, 0, .v, .device, 0, 65535, false⟩]

/-- Entries 0x7000–0x70FF. -/
def odRows70 : List OdRow := [
  -- Debug enabled per partition
  ⟨0x7000, 0x01, 0x01, .bool, .rwl, false, 0, .v, .perPart, 0, 1, false⟩,
  -- Trace mode per partition: 0 off, 1 event, 2 branch
  ⟨0x7000, 0x02, 0x02, .u8, .rwl, false, 0, .v, .perPart, 0, 2, false⟩,
  -- Trace window per tile, 4–512
  ⟨0x7000, 0x03, 0x03, .u16, .rwl, false, 64, .s, .device, 4, 512, false⟩,
  -- Trace full policy: 0 stop, 1 wrap
  ⟨0x7000, 0x04, 0x04, .u8, .rwl, false, 1, .s, .device, 0, 1, false⟩,
  -- Halt partition; write 1
  ⟨0x7000, 0x05, 0x05, .u8, .wo, false, 0, .v, .perPart, 0, 255, true⟩,
  -- Resume partition; write 1
  ⟨0x7000, 0x06, 0x06, .u8, .wo, false, 0, .v, .perPart, 0, 255, true⟩,
  -- Debug state per partition: 0 running, 1 halting, 2 halted and drained, 3 drain limit expired
  ⟨0x7000, 0x07, 0x07, .u8, .ro, false, 0, .v, .perPart, 0, 255, false⟩,
  -- Trace records lost, device total
  ⟨0x7000, 0x08, 0x08, .u64, .ro, false, 0, .w, .device, 0, 18446744073709551615, false⟩,
  -- Trace selector: x [7:0], y [15:8], offset in 4 KiB units [47:16]
  ⟨0x7010, 0x01, 0x01, .u64, .rwl, false, 0, .v, .device, 0, 18446744073709551615, false⟩,
  -- Trace data at the selector
  ⟨0x7010, 0x02, 0x02, .blob, .ro, false, 0, .v, .device, 0, 0, false⟩,
  -- Register selector: x [7:0], y [15:8], window offset [31:16]
  ⟨0x7020, 0x01, 0x01, .u32, .rwl, false, 0, .v, .device, 0, 4294967295, false⟩,
  -- Selected tile register
  ⟨0x7020, 0x02, 0x02, .u32, .rwl, false, 0, .v, .device, 0, 4294967295, false⟩]

/-- Entries 0x7100–0x71FF. -/
def odRows71 : List OdRow := [
  -- Maintenance command (Table 17.7)
  ⟨0x7100, 0x01, 0x01, .blob, .rwl, false, 0, .v, .device, 0, 0, false⟩,
  -- Command state: 0 idle, 1 queued, 2 running
  ⟨0x7100, 0x02, 0x02, .u8, .ro, false, 0, .v, .device, 0, 255, false⟩,
  -- Last maintenance command status
  ⟨0x7100, 0x03, 0x03, .u16, .ro, false, 0, .v, .device, 0, 65535, false⟩,
  -- Queue wait limit, 10–3 600
  ⟨0x7101, 0x01, 0x01, .u16, .rwl, false, 600, .s, .device, 10, 3600, false⟩,
  -- Activities queued
  ⟨0x7101, 0x02, 0x02, .u8, .ro, false, 0, .v, .device, 0, 255, false⟩,
  -- Per-field locks held, bit 8r + c
  ⟨0x7101, 0x03, 0x03, .u64, .ro, false, 0, .v, .device, 0, 18446744073709551615, false⟩,
  -- Activities queued with 0x0801, device total
  ⟨0x7101, 0x04, 0x04, .u64, .ro, false, 0, .w, .device, 0, 18446744073709551615, false⟩,
  -- Refusals with 0x0802, device total
  ⟨0x7101, 0x05, 0x05, .u64, .ro, false, 0, .w, .device, 0, 18446744073709551615, false⟩,
  -- Device state: 0 starting, 1 running, 2 standby, 3 entering standby, 4 leaving standby, 5 warm reset, 6 recovery
  ⟨0x7102, 0x01, 0x01, .u8, .ro, false, 0, .v, .device, 0, 255, false⟩,
  -- Cause of the last device reset: 0 cold power-on, 1 MOD_RST_N, 2 command, 3 root PLL
  ⟨0x7102, 0x02, 0x02, .u8, .ro, false, 0, .w, .device, 0, 255, false⟩,
  -- Device warm resets
  ⟨0x7102, 0x03, 0x03, .u32, .ro, false, 0, .w, .device, 0, 4294967295, false⟩,
  -- Field unscrubbed
  ⟨0x7103, 0x01, 0x40, .bool, .ro, false, 1, .w, .device, 0, 1, false⟩,
  -- Up time
  ⟨0x7110, 0x01, 0x01, .u64, .ro, false, 0, .f, .device, 0, 18446744073709551615, false⟩,
  -- Degraded time
  ⟨0x7110, 0x02, 0x02, .u64, .ro, false, 0, .f, .device, 0, 18446744073709551615, false⟩,
  -- Down time
  ⟨0x7110, 0x03, 0x03, .u64, .ro, false, 0, .f, .device, 0, 18446744073709551615, false⟩,
  -- Excluded time
  ⟨0x7110, 0x04, 0x04, .u64, .ro, false, 0, .f, .device, 0, 18446744073709551615, false⟩,
  -- Down time in the last 365 days
  ⟨0x7110, 0x05, 0x05, .u32, .ro, false, 0, .f, .device, 0, 4294967295, false⟩]

/-- Entries 0xF000–0xF0FF. -/
def odRowsF0 : List OdRow := [
  -- Repair map of F(c,r)
  ⟨0xF000, 0x01, 0x40, .blob, .ro, false, 0, .f, .device, 0, 0, false⟩,
  -- Factory calibration table version
  ⟨0xF001, 0x01, 0x01, .u16, .ro, false, 0, .f, .device, 0, 65535, false⟩,
  -- Manufacturing record
  ⟨0xF002, 0x01, 0x01, .blob, .ro, false, 0, .f, .device, 0, 0, false⟩]

/-- Every entry of the dictionary but subindex 0x00 (R10), in ascending index and subindex. DESIGN CHOICE, log 9;
DEDUCED, log 128. -/
def odTable : List OdRow :=
  odRows10 ++
  odRows11 ++
  odRows12 ++
  odRows13 ++
  odRows20 ++
  odRows21 ++
  odRows22 ++
  odRows23 ++
  odRows30 ++
  odRows31 ++
  odRows32 ++
  odRows33 ++
  odRows34 ++
  odRows35 ++
  odRows40 ++
  odRows41 ++
  odRows50 ++
  odRows51 ++
  odRows52 ++
  odRows60 ++
  odRows61 ++
  odRows70 ++
  odRows71 ++
  odRowsF0

end Sys2Proof.Machine
end

