-- ==== Sys2Proof/Machine/HubState.lean ====
section
/-!
DEFINITION. The state of the management hub, of the maintenance scheduler and of the start-up logic (chapters 16 and
17), and the type of everything the block drives outward.
-/

namespace Sys2Proof.Machine

/-- What the block sends out: to host memory and ports, to networks, and on its pins. The environment reads it; no step
of the block does. DESIGN CHOICE, log 14. -/
inductive Emission where
  /-- A posted write of `bytes` to host memory by function `fn` of a port (R248–R250, R288). -/
  | hostWrite (port : Port) (fn addr : Nat) (bytes : List Byte)
  /-- A host memory read request (R287): its use tells what waits for it. -/
  | hostRead (port : Port) (fn addr len : Nat) (use : HostReadUse)
  /-- An MSI-X interrupt (Table 11.4). -/
  | msix (port : Port) (fn vector : Nat)
  /-- A configuration completion: Request Retry Status with none (R397). -/
  | cfg (port : Port) (fn offset : Nat) (value : Option Nat)
  /-- A response on the mailbox of a function (R289), with its operation code. -/
  | mailbox (port : Port) (fn op : Nat) (m : DictMsg)
  /-- A response on the management network (R383), with its operation code. -/
  | net (address udpPort op : Nat) (m : DictMsg)
  /-- The status a command's caller receives (R16). -/
  | status (caller : Caller) (code : Nat)
  /-- A Falram packet of a type (Tables 12.2 to 12.4) on a logical link, and the frame that carries it (R299). -/
  | falram (typ : Nat) (p : FalramPkt) (frame : List Byte)
  /-- An MLDv2 report: a group is joined or left (R297). -/
  | mld (group : Nat) (joined : Bool)
  /-- Neighbor Advertisement, Echo Reply or LLDP frame (R296, R297, R385); no link: the management network. -/
  | advert (link : Option Nat) (target : Nat)
  | echo (link : Option Nat) (target : Nat) (data : List Byte)
  | lldp (link dev : Nat)
  /-- An SPDM or secured response on a function's DOE mailbox: code and payload (R356–R368). -/
  | spdm (port : Port) (fn code : Nat) (payload : List Byte)
  /-- An IDE_KM response (R362). -/
  | ideKm (port : Port) (fn code : Nat)
  /-- Level of an output pin of chapter 18. -/
  | pin (name : String) (level : Bool)
  /-- A message leaving the wafer by the rim (R151). -/
  | rim (side : Dir) (f : Flit)
  /-- What a stack access gives the agent that asked: partition, address, status and the bytes read (R140). -/
  | stack (part addr status : Nat) (bytes : List Byte)
  /-- A refusal handed to an agent without a flit (R152): logical source, status, destination word. -/
  | refusal (t : TileId) (code dest : Nat)
deriving DecidableEq, Repr

/-- One event log entry (Table 16.3). DESIGN CHOICE, log 21. -/
structure LogEntry where
  time : Nat
  seq : Nat
  event : Nat
  status : Nat
  severity : Nat
  source : Nat
  field : Nat
  part : Nat
  data : List Nat
deriving DecidableEq, Repr

/-- A maintenance activity (Table 17.5). -/
inductive ActKind where
  | activation
  /-- A field command by OPC 0x80–0x82, 0x84, 0x85. -/
  | fieldCmd (opc : Nat)
  | install (part : Nat)
  | evacuation (part : Nat)
  | partCmd (opc part : Nat)
  | rejuvenation (field : Nat)
  | rotation (field row : Nat)
deriving DecidableEq, Repr

/-- A maintenance activity in progress with the fields whose locks it holds (R407). -/
structure Activity where
  kind : ActKind
  fields : Nat
deriving DecidableEq, Repr

/-- A queued activity (R408): what it is, the fields it names, when it was queued, and its command bytes. -/
structure Queued where
  kind : ActKind
  fields : Nat
  since : Nat
  cmd : List Byte
deriving DecidableEq, Repr

/-- A firmware image as the header of Table 16.2 describes it, with the version values its body carries (R372):
OD 0x1010.01–05 and 0x1011.01–05 in order. -/
structure Image where
  version : Nat
  svn : Nat
  /-- DEDUCED, log 103. -/
  digest : List Byte
  versions : List Nat
deriving DecidableEq, Repr

/-- Hub state: log, firmware, dictionary server, lock, maintenance scheduler, start-up. -/
structure Hub where
  /-- RAM and flash event logs, oldest first (R376). -/
  ramLog : List LogEntry := []
  flashLog : List LogEntry := []
  /-- Events held at their source during a management restart, by source key (Table 16.1), and their lost counts. -/
  held : SMap (List LogEntry) := []
  heldLost : SMap Nat := []
  /-- A management restart is running (R371). -/
  restarting : Bool := false
  /-- A committed image is taken by the restart under way (R375). -/
  activating : Bool := false
  /-- The hub is in recovery (R374). -/
  recovery : Bool := false
  /-- The hub halted on a ROM key mismatch (R373). -/
  romHalt : Bool := false
  /-- Image in the flash slot; none when it holds no bootable image. DESIGN CHOICE, log 12. -/
  slot : Option Image := some { version := 0x0100, svn := 0, digest := [], versions := [] }
  /-- Image running. DESIGN CHOICE, log 12. -/
  running : Image := { version := 0x0100, svn := 0, digest := [], versions := [] }
  /-- Update buffer (R375): its LENGTH from BEGIN and its bytes; absent: 0. -/
  updLen : Nat := 0
  updBuf : SMap Byte := []
  /-- Negotiated dictionary versions by caller (R384). -/
  versions : List (Caller × Nat) := []
  /-- Network peers (R385): address and UDP port. -/
  peers : List (Nat × Nat) := []
  /-- Requests of a network peer in the present second: address, port, second, count (R392). DESIGN CHOICE, log 19. -/
  rates : List (Nat × Nat × Nat × Nat) := []
  /-- Last request number of each caller, with the operation code and the response (R386). -/
  kept : List (Caller × Nat × Nat × DictMsg) := []
  /-- Device control lock (R290): 0 free, 1 Port A PF, 2 Port B PF, 3 network; the network holder; lease end. -/
  lockHolder : Nat := 0
  lockPeer : Nat × Nat := (0, 0)
  leaseEnd : Nat := 0
  /-- The lease warning of the present lease has been given. -/
  leaseWarned : Bool := false
  /-- Overlay deltas by overlay × 2^24 + index × 2^8 + subindex (R388). -/
  deltas : SMap Nat := []
  /-- Activities in progress and queued, in order (R407, R408). DESIGN CHOICE, log 109. -/
  acts : List Activity := []
  queue : List Queued := []
  /-- A firmware activation is pending (R410). -/
  activationDue : Bool := false
  /-- Fields that the running maintenance command still waits for. -/
  fieldsDue : Nat := 0
  /-- Coolant inlet and outlet (0.1 °C) and flow (0.1 L/min), or none while a reading is missing (R338). -/
  coolant : Option (Int × Int × Nat) := none
  /-- Seconds counted (R413) since the last 365-day slot closed: kept as a list of (day, down seconds). -/
  downDays : List (Nat × Nat) := []
  /-- Thermal cycle counts as saved in flash, by field (R346). -/
  savedCycles : SMap Nat := []
  /-- Stage one is on; VSTBY is present. -/
  powered : Bool := false
  vstby : Bool := false
  /-- REFCLK_MGT present; MOD_RST_N held low. -/
  refclk : Bool := false
  modRst : Bool := false
  /-- A start waits for the reference clock (R397), or a warm reset is held after its step 3 (R400). -/
  waitRef : Bool := false
  heldReset : Bool := false
  /-- What a start that has not run yet found: it waits for recovery to end (R374). DESIGN CHOICE, log 106. -/
  startDue : Option StartEnv := none
  /-- Partitions whose reset by a port waits for the end of a management restart (R401). -/
  resetsDue : Nat := 0
  /-- The management network is enabled: OD 0x1100.04 as of the last start or restart (R395). -/
  netOn : Bool := false
  /-- Selections of ETH_N_SEL and ETH_S_SEL as last sampled (R418): copper where high. DESIGN CHOICE, log 123. -/
  ethNSel : Bool := false
  /-- DESIGN CHOICE, log 123. -/
  ethSSel : Bool := false
  /-- ETH_N_REFCLK and ETH_S_REFCLK are present (R424). -/
  ethNClk : Bool := true
  ethSClk : Bool := true
  /-- Overvoltage lockout (R311). -/
  lockout : Bool := false
  /-- The 455 ms row of Table 17.1 has been reached: ports and dictionary are served. -/
  served : Bool := false
deriving DecidableEq, Repr

end Sys2Proof.Machine
end

