-- ==== Sys2Proof/Machine/PortState.lean ====
section
/-!
DEFINITION. The state of the host ports (chapter 11), of SPDM sessions (chapter 15) and of the Falram fabric
(chapter 12).
-/

namespace Sys2Proof.Machine

/-- A secured SPDM session (R357–R359): whether it is established, whether the requester authenticated, with the digest
of its key, and the time of the last heartbeat. -/
structure Session where
  established : Bool := false
  mutualAsked : Bool := false
  key : Option (List Byte) := none
  beatAt : Nat := 0
deriving DecidableEq, Repr

/-- One PCI Express function: its BAR0 registers (Table 11.4), rings, mailbox, IDE stream and SPDM connection. -/
structure Function where
  neg : Nat := 0
  verResult : Nat := 0
  en : Bool := false
  viol : Bool := false
  cfgErr : Bool := false
  hostErr : Bool := false
  ideErr : Bool := false
  fetching : Bool := false
  sqBase : Nat := 0
  sqSize : Nat := 4
  hi : Nat := 8
  lo : Nat := 0
  timeout : Nat := 20
  cqBase : Nat := 0
  cqSize : Nat := 4
  coalCnt : Nat := 1
  coalTime : Nat := 0
  shadow : Nat := 0
  sqTail : Nat := 0
  cqHead : Nat := 0
  fetched : Nat := 0
  taken : Nat := 0
  cqTail : Nat := 0
  violStatus : Nat := 0
  violValue : Nat := 0
  vaddr : Nat := 0
  /-- Slots of the submission fetch that is outstanding (R288). -/
  reading : Option Nat := none
  /-- Host reads of the function that timed out once (R292). -/
  retrying : List HostReadUse := []
  /-- A fetch failed after its retry: it waits for the next doorbell. -/
  blocked : Bool := false
  /-- Descriptors fetched and not taken, oldest first. -/
  descs : List (List Byte) := []
  /-- Records held, oldest first (R247). -/
  held : List (List Byte) := []
  /-- Records written since the last interrupt (R288). -/
  unsignalled : Nat := 0
  /-- Mailbox buffers by byte; absent: 0. -/
  mbReq : SMap Byte := []
  mbRsp : SMap Byte := []
  mbLen : Nat := 0
  mbErr : Nat := 0
  mbBusy : Bool := false
  mbDone : Bool := false
  mbRlen : Nat := 0
  dclResult : Nat := 0
  /-- MSI-X table by word, as it differs from its reset value; and the vectors pending while masked (the PBA). -/
  msix : SMap Word := []
  pba : Nat := 0
  /-- Uncorrectable errors that AER holds, by bit. PRESUMED, log 78. -/
  aer : Nat := 0
  /-- Bus Master Enable, and the D3hot power state. PRESUMED, log 77. -/
  busMaster : Bool := false
  d3hot : Bool := false
  /-- Keys programmed by IDE_KM, by key set × 8 + direction × 4 + sub-stream; the key set in use, if the stream is
  secure. -/
  ideKeys : SMap (List Byte) := []
  ideSet : Option Nat := none
  /-- The stream has left the secure state and not come back to it (R291). -/
  ideBroken : Bool := false
  /-- How far the SPDM connection is negotiated: 0 none, 1 version, 2 capabilities, 3 algorithms. -/
  spdm : Nat := 0
  session : Option Session := none
deriving DecidableEq, Repr

/-- A peer entry (R301): the version in force, its UP mask and address, the time it was last heard. -/
structure Peer where
  dev : Nat
  ver : Nat
  mask : Nat
  address : Nat
  heardAt : Nat
deriving DecidableEq, Repr

/-- A receiver of a sending stream: the lowest PSN it lacks and the PSNs beyond it that it holds. -/
structure Receiver where
  dev : Nat
  cum : Nat := 0
  sack : List Nat := []
deriving DecidableEq, Repr

/-- A sending stream of a partition (R303, R305, R307): by command, or the forwarding of a chain (R268). -/
structure TxStream where
  handle : Nat
  group : Bool
  dst : Nat
  stream : Nat
  enc : Bool
  kslot : Nat
  len : Nat
  /-- Forwards a running stage. -/
  chain : Bool
  /-- OD 0x6110.02: 1 joining, 2 sending, 3 awaiting acknowledgements. -/
  phase : Nat
  receivers : List Receiver
  /-- A receiver was dropped. -/
  dropped : Bool := false
  /-- Next PSN to send; 0 is OPEN. -/
  next : Nat := 0
  /-- Times each unacknowledged packet has been sent, with the time of its last sending. -/
  sent : SMap (Nat × Nat) := []
deriving DecidableEq, Repr

/-- A receiving stream of a partition (R303, R304). -/
structure RxStream where
  src : Nat
  stream : Nat
  group : Option Nat
  enc : Bool
  kslot : Nat
  len : Nat
  cum : Nat := 0
  sack : List Nat := []
  /-- Packets received and not acknowledged. -/
  unacked : Nat := 0
deriving DecidableEq, Repr

/-- State of the Falram fabric. -/
structure Fabric where
  /-- Device ID and mode in force (R298). -/
  devId : Nat := 0xFFFF
  udp : Bool := false
  peers : List Peer := []
  /-- Devices whose HELLO failed the version check (R301), and CLK_TIME of the last NAK sent to each device (R308). -/
  unusable : List Nat := []
  nakAt : SMap Nat := []
  /-- Sending and receiving streams by partition; a chain's by partition + 32. -/
  tx : SMap TxStream := []
  rx : SMap RxStream := []
deriving DecidableEq, Repr

end Sys2Proof.Machine
end

