-- ==== Sys2Proof/Machine/ServeState.lean ====
section
/-!
DEFINITION. The state of partitions: keys and claims (chapter 15), loaded programs (chapter 07), model images
(chapter 10), request serving (chapter 09) and the key-value cache (chapter 08).
-/

namespace Sys2Proof.Machine

/-- A KV map entry (Table 8.5). `due` is the mover count after which a page in flight has been written back. -/
structure KvPage where
  loc : Nat := 0
  shared : Bool := false
  full : Bool := false
  inflight : Bool := false
  /-- The descriptor in flight writes the page to the stack (a spill), else it reads it. -/
  spill : Bool := false
  due : Nat := 0
  slot : Nat := 0
  fill : Nat := 0
  stack : Nat := 0
deriving DecidableEq, Repr

/-- Request states (Table 9.4); an absent request is FREE. -/
inductive ReqState where
  | admitting
  | waiting
  | prefill
  | decode
  | ending
deriving DecidableEq, Repr

/-- A held request (R235, R246): what its descriptor said (Table 9.1) and what serving it has come to. -/
structure Request where
  st : ReqState
  tag : Nat
  noPrefix : Bool
  topk : Nat
  stops : List Nat
  promptLen : Nat
  maxNew : Nat
  /-- Effective context limit (R237). -/
  ctxE : Nat
  maskLo : Nat
  temp : Word
  topp : Word
  ttft : Nat
  endDl : Nat
  seed : Nat
  /-- PSRC and PROMPT of the descriptor. -/
  fromStack : Bool
  promptAddr : Nat
  /-- Submission time (R237). -/
  submitAt : Nat
  /-- Place in the order of admission. -/
  order : Nat := 0
  /-- Prompt and generated token IDs, position 0 first. -/
  ids : List Nat := []
  generated : Nat := 0
  reused : Nat := 0
  /-- Prompt positions prefilled or reused. -/
  preDone : Nat := 0
  /-- CLK_TIME at which the running prefill pass was released, and its bucket. -/
  passAt : Nat := 0
  passBucket : Nat := 0
  /-- Tokens and passes in flight that will return a token. -/
  out : Nat := 0
  empties : Nat := 0
  /-- KV map by layer × NPMAX + page; absent: zero. -/
  kv : SMap KvPage := []
  /-- Warm-tier frames reserved (R220). -/
  frames : List Nat := []
  /-- Prefix nodes held, by depth. -/
  nodes : List Nat := []
  /-- End decided: STATUS, REASON and DETAIL of its completion record. -/
  fin : Option (Nat × Nat × Nat) := none
  /-- Stage that its token entered last (R221); none before its first walk. -/
  stageAt : Option Nat := none
  /-- An error ends the request at the next step boundary (R230, R246, R254): STATUS and DETAIL. -/
  endDue : Option (Nat × Nat) := none
  /-- Its completion record waits for the completion ring, everything it held being free (R246). -/
  recorded : Bool := false
  /-- TAGs of cancels that wait for the completion record (R253), with the CLK_TIME at which each was read. -/
  cancels : List (Nat × Nat) := []
deriving DecidableEq, Repr

/-- A prefix node (Table 8.6). -/
structure PrefixNode where
  refcnt : Nat
  parent : Nat
  /-- First children first (R228). -/
  children : List Nat
  key : Nat
  tokens : List Nat
  depth : Nat
  complete : Bool
  unreachable : Bool
  /-- A page of it is lost: each holder ends at its next walk of the group (R230). -/
  lost : Bool := false
  pages : Nat
  lastUse : Nat
  model : Nat
deriving DecidableEq, Repr

/-- An attention view record (Table 8.4) with the group numbers of its slot list. -/
structure View where
  tile : Nat
  req : Nat
  layer : Nat
  need : Nat := 0
  len : Nat := 0
  /-- Group number and first slot, in ascending group number. -/
  groups : List (Nat × Nat) := []
deriving DecidableEq, Repr

/-- A slot group in use at an attention tile: who holds it, and when it was last attended (R222). -/
structure SlotUse where
  tile : Nat
  slot : Nat
  req : Nat
  layer : Nat
  group : Nat
  lastUse : Nat := 0
  /-- It is a victim whose spill copies are on the way: no view lists it (R222). -/
  leaving : Bool := false
deriving DecidableEq, Repr

/-- A group that a walk could not bring in: its slots or its descriptors are still to come (R222). -/
structure WalkDue where
  tile : Nat
  req : Nat
  layer : Nat
  group : Nat
deriving DecidableEq, Repr

/-- A page copy into a prefix node on its way: tile, layer, page and the mover count that ends it. -/
structure NodeCopy where
  tile : Nat
  layer : Nat
  page : Nat
  due : Nat
deriving DecidableEq, Repr

/-- An insertion into the prefix tree under way (R228): request, group and node, the pages (layer, page) whose copies are
still to be emitted, and the copies on their way. -/
structure PrefixJob where
  req : Nat
  group : Nat
  node : Nat
  todo : List (Nat × Nat)
  flying : List NodeCopy := []
  /-- A copy ended in error: the insertion is dropped. -/
  failed : Bool := false
deriving DecidableEq, Repr

/-- What an attention tile sends for one query head of a token (R209, R218): m_t, C_t and V_t; over an empty set −∞ and
+0. -/
structure Contribution where
  tile : Nat
  req : Nat
  layer : Nat
  head : Nat
  kvHead : Nat
  m : Word
  c : Nat
  v : List Int
  empty : Bool
deriving DecidableEq, Repr

/-- What the merge root formed for one head (R209, R211): o, its codes for the output projection, and whether no tile
held an admissible position. -/
structure Merged where
  tile : Nat
  req : Nat
  head : Nat
  out : List Word
  codes : List Nat
  empty : Bool
deriving DecidableEq, Repr

/-- A token of a request at an attention tile (R218), and the KV heads whose key and value rows it has appended. -/
structure AttnToken where
  tile : Nat
  req : Nat
  position : Nat
  maskLo : Nat
  heads : List Nat := []
deriving DecidableEq, Repr

/-- A staged Hamper (Table 10.5). -/
structure Handle where
  st : Nat := 0
  kind : Nat := 0
  addr : Nat := 0
  len : Nat := 0
  baseId : List Byte := []
  digest : List Byte := []
  installed : Nat := 0
deriving DecidableEq, Repr

/-- The model command of a partition (R266). -/
inductive ModelCmd where
  | none
  /-- A stage: its handle, SRC, source, bytes expected and received, NEXT_DEV to forward to, and a forwarding failure. -/
  | stage (handle src source len got : Nat) (next : Option Nat) (chainFailed : Bool)
  /-- An install: handle, origin, END_HELD, whether it is an evacuation (R341), the step of Table 10.7 reached (4 queued,
  6 waiting for held requests, 8 streaming, 9 rewriting), and when it started. -/
  | install (handle ox oy : Nat) (endHeld evac : Bool) (step startedAt : Nat)
deriving DecidableEq, Repr

/-- Values of a manifest (Table 10.4). -/
structure Manifest where
  vocab : Nat := 0
  maxCtx : Nat := 0
  buckets : Nat := 0
  kvForm : Nat := 0
  kvBits : Nat := 0
  kvh : Nat := 0
  hd : Nat := 0
  layers : Nat := 0
  maxActive : Nat := 0
  tPre : List Nat := []
  windows : List Nat := []
deriving DecidableEq, Repr

/-- The program loaded in a partition (R184–R191): its origin and frame, kind and contract, its tiles in placement
order with role and stage, and its digest. -/
structure Program where
  ox : Nat
  oy : Nat
  fw : Nat
  fh : Nat
  bulk : Bool
  tc : Nat
  tiles : List (TileId × Nat × Nat)
  digest : List Byte
  released : Bool := false
deriving DecidableEq, Repr

/-- State of one partition. Its number entries and its mode live in the dictionary. -/
structure Partition where
  /-- First REQ of the partition's block (R233); its size is OD 0x5000.14. -/
  reqFirst : Nat := 0
  /-- Held requests by REQ. -/
  reqs : SMap Request := []
  /-- Admissions so far, for the order of WAITING requests. -/
  admitted : Nat := 0
  step : Nat := 0
  /-- Token contexts of the step released last (Table 9.3). -/
  contexts : List (List Byte) := []
  /-- Held requests end at the next step boundary with this code; 0: none (R269, R404). -/
  endCode : Nat := 0
  /-- A scrub is running: the partition's state after it (R353). -/
  scrubTo : Option Nat := none
  /-- Cancel descriptors read since the last boundary, in ring order, with the CLK_TIME of each read. -/
  cancels : List (Nat × List Byte) := []
  /-- CLK_TIME at which the step in flight was released, and the last 64 step periods in ns. -/
  stepAt : Option Nat := none
  periods : List Nat := []
  /-- Last 16 prefill times in µs by bucket. -/
  preTimes : SMap (List Nat) := []
  /-- Prefix nodes by index (R225). -/
  nodes : SMap PrefixNode := []
  /-- Root children, first child first. -/
  roots : List Nat := []
  views : List View := []
  slots : List SlotUse := []
  tokens : List AttnToken := []
  contribs : List Contribution := []
  merged : List Merged := []
  /-- Walks that wait for slots or ring space, oldest first (R222). -/
  walkDue : List WalkDue := []
  /-- Insertions into the prefix tree under way, oldest first (R228). -/
  jobs : List PrefixJob := []
  /-- Deadline margin in force since the last step boundary (R257); none before the first. -/
  margin : Option Nat := none
  /-- Handles 0–15; absent: empty. -/
  handles : SMap Handle := []
  cmd : ModelCmd := .none
  manifest : Manifest := {}
  program : Option Program := none
  /-- Program digest of the installed addition (R367), if one is. -/
  addDigest : List Byte := []
  /-- Arrays that weight records of the base and of the addition wrote: tile and array. -/
  baseArrays : List (TileId × Nat) := []
  addArrays : List (TileId × Nat) := []
  /-- Segments of the base that the install of an addition has disabled (R272): tile and segment. -/
  paused : List (TileId × Nat) := []
  /-- Arrays with a failed row of the install under way (R271). -/
  rowsBad : List (TileId × Nat) := []
  /-- Claim digest (R359). -/
  claim : Option (List Byte) := none
  /-- Key slots 0–3, 0x10 and 0x11 (Table 15.7); absent: empty. -/
  keys : SMap (List Byte) := []
  /-- STREAM count of each link slot (R306). -/
  streams : SMap Nat := []
  /-- The binding in force (R282): 0 Port A, 1 Port B. -/
  port : Nat := 0
deriving DecidableEq, Repr

end Sys2Proof.Machine
end

