-- ==== Sys2Proof/Machine/TileState.lean ====
section
/-!
DEFINITION. The state of one physical tile: charge bank, Lookout, tensor block, vector unit, scratchpad, movers and
control core (chapters 02 to 07), and of one router (chapter 06), as plain data with reset values. A sparse table
(`SMap`) holds at an absent key the value named in its field's comment.
-/

namespace Sys2Proof.Machine

/-- Working trims of one array for one band (Table 3.6). -/
structure Trim where
  offset : Int := 0
  gain : Int := 0
  pulse : Int := 0
deriving DecidableEq, Repr

/-- One pass of an array (R45): the activation codes it took from the row latches and what it was started with. -/
structure Pass where
  /-- Activation code of each active row, row 0 first. -/
  codes : List Nat
  seg : Nat
  block : Nat
  group : Nat
  /-- Token number of the segment; its parity names the accumulator set (R51). -/
  token : Nat
  e : Nat
  base : Int
  a8 : Bool
  /-- The pass failed its envelope and is being read again (R92). -/
  reread : Bool := false
deriving DecidableEq, Repr

/-- A write burst accepted for an array (R58, R59). -/
structure Burst where
  firstRow : Nat
  fmt : Nat
  opn : Bool
  cls : Bool
  rows : Nat
  /-- Rows still to be written, next first, 256 bytes each. -/
  data : List (List Byte)
  /-- Next row number. -/
  next : Nat
  /-- Held until the token boundary (R59). -/
  held : Bool
  /-- Its first row has been written: the array counts as writing until the burst has completed (R55). -/
  started : Bool := false
  /-- The burst's last flit, to be acknowledged when its last row is visible (R154); none for a burst without ID. -/
  ack : Option Flit := none
deriving DecidableEq, Repr

/-- Calibration of one array (R75–R78). -/
inductive CalPhase where
  | idle
  /-- Due and not started. -/
  | due
  /-- Steps C1 to C4. -/
  | measuring
deriving DecidableEq, Repr

/-- Refresh of one array (R82, R83). -/
inductive RefreshPhase where
  | idle
  | due
  | forced
deriving DecidableEq, Repr

/-- One charge array (R36, Table 2.18) with its row latches, trims and background work. -/
structure ChargeArray where
  wvalid : Bool := false
  fmt : Nat := 0
  rows : Nat := 0
  e : Nat := 7
  base : Int := 0
  /-- Column sums Q by in-array output (R57); absent: 0. -/
  sums : SMap Nat := []
  /-- Row latches: activation code by row (R46); absent: 0. -/
  latch : SMap Nat := []
  /-- Words of the row block latched for the pass to come. -/
  latched : List Nat := []
  /-- Passes this array has started for its segment: the token number of the next one. -/
  token : Nat := 0
  conv : Option Pass := none
  /-- Rows decoded for the Exact-mode token in the latches (R67). -/
  exact : Option (List (List Nat)) := none
  burst : Option Burst := none
  /-- The rows of a CLOSE burst are written and the column sums are still to be recomputed (R61): the flit to be
  acknowledged then, if any. -/
  closing : Option (Option Flit) := none
  work : Trim := {}
  /-- Factory trims by band; absent: zero. DESIGN CHOICE, log 9. -/
  factory : SMap Trim := []
  /-- User delta by band (R80); absent: zero. -/
  delta : SMap Trim := []
  /-- User delta by band as saved in the calibration flash (R80). -/
  saved : SMap Trim := []
  /-- Working offset and gain trim of each ADC (Table 3.6). -/
  adcs : List (Int × Int) := []
  /-- Factory offset and gain trim of each ADC (Table 3.6). -/
  adcFactory : List (Int × Int) := []
  cal : CalPhase := .idle
  calLate : Bool := false
  /-- CLK_TIME and field temperature at the last completed calibration, and the temperature trigger in force until the
  next one is due (R76, R95). -/
  calAt : Nat := 0
  calTemp : Int := 0
  calTrig : Nat := 3
  /-- The array has completed a calibration of its own since the start-up calibration of its field (R77); until then the
  field's record of that calibration stands for it. -/
  calDone : Bool := false
  refresh : RefreshPhase := .idle
  /-- Next row of the refresh under way. -/
  refreshRow : Nat := 0
  /-- A forced refresh row was the array's last work: a ready pass goes next (R83). -/
  rowLast : Bool := false
  /-- Marked for early rejuvenation (R67, R84). -/
  early : Bool := false
  /-- Failed at a scrub and out of use (R354). -/
  failed : Bool := false
deriving DecidableEq, Repr

/-- One segment (Tables 2.11, 2.16, 2.17): its registers, what waits for the token boundary, and its tokens in
progress. -/
structure Segment where
  en : Bool := false
  wfmt : Nat := 0
  a8 : Bool := false
  oform : Nat := 0
  biasEn : Bool := false
  arrBase : Nat := 0
  arrCount : Nat := 0
  blocks : Nat := 0
  zOut : Nat := 8
  zA : Nat := 8
  chanBase : Nat := 0
  scaleA : Word := 0x3F800000
  rcpOut : Word := 0x3F800000
  dest0 : Word := 0
  dest1 : Word := 0
  /-- Writes of the scale and destination registers that wait for the boundary (R54): register offset, value. -/
  defer : List (Nat × Word) := []
  /-- A write of EN = 0 waits for the boundary. -/
  disabling : Bool := false
  /-- Accumulators by token parity and channel (key parity × 8192 + channel); absent: 0. -/
  acc : SMap Int := []
  /-- T values that wait for lower blocks (R48): (token, block, group, T by output). -/
  waiting : List (Nat × Nat × Nat × List Int) := []
  /-- Next block to accumulate, by (parity × 192 + group); absent: 0. -/
  nextBlock : SMap Nat := []
  /-- Tokens whose outputs have been delivered. -/
  delivered : Nat := 0
  /-- The token in the row latches runs in Exact mode (R68). -/
  exactMode : Bool := false
  /-- The token's outputs have raised their destination fault (R50). -/
  destFault : Bool := false
deriving DecidableEq, Repr

/-- One channel-table entry (R57): M, B and zero point. -/
structure Channel where
  m : Word := 0
  b : Word := 0
  z : Nat := 0
deriving DecidableEq, Repr

/-- The charge bank of a tile (Table 2.10). -/
structure ChargeBank where
  grant : Nat := 48
  cfgErr : Bool := false
  clamp : Bool := false
  wfail : Bool := false
  rqClamps : Nat := 0
  accClamps : Nat := 0
  rowsFailed : Nat := 0
  retries : Nat := 0
  /-- Segments 0–15; absent: reset value. -/
  segs : SMap Segment := []
  /-- Arrays 0–191; absent: reset value. -/
  arrays : SMap ChargeArray := []
  /-- Cell levels by array × 512 + row: 1 024 levels, 0–3 for L0–L3 and 4 for LM; absent: every cell L0.
  DESIGN CHOICE, log 11. -/
  cells : SMap (List Nat) := []
  /-- Channel table by entry; absent: zero. -/
  chans : SMap Channel := []
  /-- Channel-table writes that wait for the boundary (R54). -/
  chanDefer : SMap Channel := []
  /-- Arrays whose passes are ready, in the order in which they became ready (R46). -/
  ready : List Nat := []
  /-- The tile is at a token boundary (R31). -/
  boundary : Bool := true
  /-- Band whose trims are loaded, and the band that waits for the boundary (R73). -/
  band : Nat := 0
  bandDue : Option Nat := none
  /-- Arrays whose refresh is due and not begun, longest overdue first (R89). -/
  refreshDue : List Nat := []
  /-- Read requests served: destination, array, and whether a refusal has ended it (R61). -/
  readSent : List (Nat × Nat × Bool) := []
deriving DecidableEq, Repr

/-- One Lookout group (Table 3.11). -/
structure LookoutGroup where
  meanHi : Nat := 255
  meanLo : Nat := 0
  satMax : Nat := 1024
  zeroMax : Nat := 1024
  persistCnt : Nat := 0
  failCnt : Nat := 0
deriving DecidableEq, Repr

/-- Lookout registers of a tile (Tables 3.10, 3.11). -/
structure Lookout where
  rr : Nat := 2
  en : Bool := true
  /-- LK_CTRL value from OD 0x3000.07 that waits for the boundary. DESIGN CHOICE, log 35. -/
  rrDue : Option Nat := none
  persistGrp : Nat := 0
  failGrp : Nat := 0
  rrPasses : Nat := 0
  groups : SMap LookoutGroup := []
  /-- Envelope writes that wait for the next token: register offset, value. -/
  defer : List (Nat × Word) := []
  /-- Saturated and zeroed codes by array; absent: 0. -/
  satCnt : SMap Nat := []
  zeroCnt : SMap Nat := []
deriving DecidableEq, Repr

/-- A drain of the tensor block that is still to run (R106). -/
structure Drain where
  set : Nat
  base : Nat
  held : Nat
  pairs : Nat
  maxtap : Bool
  fp : Bool
  dfmt : Nat
  tovu : Bool
  dest : Nat
  /-- Words already handed to the vector unit's queue. -/
  sent : Nat := 0
deriving DecidableEq, Repr

/-- Tensor block and its registers (R96, Tables 4.7, 4.8). -/
structure Tensor where
  /-- Descriptors submitted and not started, oldest first, at most 4 (R173). -/
  queue : List (List Byte) := []
  drains : List Drain := []
  /-- Held file by bank × 16384 + offset; absent: 0. DESIGN CHOICE, log 10. -/
  held : SMap Byte := []
  /-- Accumulator entries by set × 4096 + entry; absent: 0. DESIGN CHOICE, log 10. -/
  acc : SMap Word := []
  /-- TV_CFG.TC: the contract in force. DESIGN CHOICE, log 8. -/
  tc : Nat := 2
  mode : Nat := 0
  exact : Bool := false
  isat : Bool := false
  nonfinite : Bool := false
  descErr : Bool := false
  streamStall : Bool := false
  isatCnt : Nat := 0
  nfCnt : Nat := 0
  stallCnt : Nat := 0
  exactCnt : Nat := 0
deriving DecidableEq, Repr

/-- Vector unit (R109, R110, R170). -/
structure Vector where
  /-- Registers by register × 64 + 32-bit lane; absent: 0. DESIGN CHOICE, log 10. -/
  regs : SMap Word := []
  /-- Input queue, oldest first, at most 256 entries: word index and 32 bytes. -/
  queue : List (Nat × List Byte) := []
  /-- Running list of the largest values with their indices, largest first, at most 64 (R110). -/
  top : List (Word × Nat) := []
deriving DecidableEq, Repr

/-- A mover descriptor in hand (R124, R129). -/
inductive DescPhase where
  | fetched
  /-- Started: the status, the bytes or rows completed and the address word of its failure, if nothing of it that is
  still on the way fails. -/
  | started (status done addr : Nat)
  /-- Finished with a status and the DONE value of its write-back. -/
  | finished (status done : Nat)
deriving DecidableEq, Repr

/-- A mover descriptor in hand: its ring count and its 32 bytes as fetched. -/
structure Desc where
  count : Nat
  bytes : List Byte
  phase : DescPhase
deriving DecidableEq, Repr

/-- A message of a mover descriptor: its ring count, the bytes or rows of the descriptor before it, its own bytes. -/
structure MvPart where
  count : Nat
  pos : Nat
  size : Nat
  msg : Message
deriving DecidableEq, Repr

/-- One mover channel (Tables 5.10, 5.11). -/
structure Mover where
  en : Bool := false
  sizeLog2 : Nat := 2
  base : Nat := 0
  timeout : Nat := 64
  hi : Nat := 4
  lo : Nat := 0
  tail : Nat := 0
  fetched : Nat := 0
  done : Nat := 0
  lastStatus : Nat := 0
  cfgErr : Bool := false
  violation : Bool := false
  halted : Bool := false
  fetching : Bool := false
  /-- The first failure of the halt of R130 that is running: its status, ring count and offending address word. -/
  failure : Option (Nat × Nat × Nat) := none
  inHand : List Desc := []
  /-- Messages of started descriptors that wait for a transaction ID, oldest first. DESIGN CHOICE, log 127. -/
  waiting : List MvPart := []
deriving DecidableEq, Repr

/-- Scratchpad and its registers (R116–R120, Tables 5.10, 5.11). -/
structure Spad where
  /-- Bytes by offset; absent: 0. DESIGN CHOICE, log 10. -/
  mem : SMap Byte := []
  misalign : Bool := false
  uerr : Bool := false
  cerr : Bool := false
  cerrCnt : Nat := 0
  uerrCnt : Nat := 0
  uerrAddr : Nat := 0
  waitCnt : Nat := 0
  /-- Granules (offset div 8) with an uncorrectable error that an access has found and none has replaced (R120). -/
  bad : List Nat := []
  /-- MV_FAULT0–7: the last memory fault record, 32 bytes or none yet (zero). -/
  fault : List Byte := []
deriving DecidableEq, Repr

/-- CC_STATUS.STATE (Table 7.18). -/
inductive CoreState where
  | notLoaded
  | running
  | waiting
  | halted
  | stoppedHalt
  | stoppedFault
deriving DecidableEq, Repr

/-- What a core that cannot retire its instruction waits for (R173–R178). -/
inductive CoreWait where
  | none
  /-- RLD to g_d with this transaction. -/
  | rld (d id : Nat)
  /-- RST with this transaction. -/
  | rst (id : Nat)
  /-- RAMO with this FN to g_d (a pair for FN 2) with this transaction. -/
  | ramo (d fn id : Nat)
deriving DecidableEq, Repr

/-- An instruction breakpoint (Table 7.18). -/
structure Breakpoint where
  pc : Nat := 0
  scope : Bool := false
  en : Bool := false
deriving DecidableEq, Repr

/-- A data watchpoint (Table 7.18). -/
structure Watchpoint where
  lo : Nat := 0
  hi : Nat := 0
  scope : Bool := false
  onWrite : Bool := false
  onRead : Bool := false
  en : Bool := false
deriving DecidableEq, Repr

/-- Who waits for a response or owns an outstanding transaction of a tile (R154, R165). -/
inductive TxAgent where
  | core
  /-- Mover channel, ring count of the descriptor. -/
  | mover (ch count : Nat)
deriving DecidableEq, Repr

/-- An outstanding transaction: its ID, its agent, its destination word and when it was sent. A mover's write holds in
`skip` the bytes of its descriptor that come before it and in `want` its own bytes. A mover's read holds the bytes to
drop before the first byte wanted, the bytes wanted, and the data received so far. -/
structure Tx where
  id : Nat
  agent : TxAgent
  dest : Nat
  sentAt : Nat
  isRead : Bool := false
  skip : Nat := 0
  want : Nat := 0
  buf : List Byte := []
deriving DecidableEq, Repr

/-- Control core (R170, Tables 7.17, 7.18). -/
structure Core where
  /-- General registers by number; absent: 0; g0 is never present. DESIGN CHOICE, log 10. -/
  regs : SMap Word := []
  pc : Word := 0
  /-- Instruction SRAM by byte; absent: 0. DESIGN CHOICE, log 10. -/
  isram : SMap Byte := []
  /-- Bytes of instruction SRAM that the loaded image fills; what lies above holds TRAP words (R173). None: no image. -/
  used : Option Nat := none
  /-- Data SRAM by byte; absent: 0. DESIGN CHOICE, log 10. -/
  dsram : SMap Byte := []
  state : CoreState := .notLoaded
  haltCause : Nat := 0
  /-- A halt request waits for the next instruction boundary (R198): its cause. -/
  haltDue : Nat := 0
  /-- Resumed or stepped at its PC: the next instruction passes a breakpoint there. -/
  passBp : Bool := false
  flost : Bool := false
  cfgErr : Bool := false
  fault : Bool := false
  role : Nat := 0
  bulk : Bool := false
  loaded : Bool := false
  scope : Bool := false
  /-- Watchdog limit. -/
  wdog : Nat := 0
  /-- CC_TIMER: the count last written and the CLK_TIME of that write. -/
  timer : Nat := 0
  timerAt : Nat := 0
  /-- Sticky events (Table 7.4, bits 9:1). -/
  events : Nat := 0
  /-- Message queue, oldest first: source x, source y, 32 bytes. -/
  msgq : List (Nat × Nat × List Byte) := []
  timeHi : Word := 0
  flostCnt : Nat := 0
  pmcSel : Nat := 0
  /-- Performance counters 0–3 as brought up to `pmcAt`, a CLK_TIME; absent: 0. Those that count cycles have gone on
  since. -/
  pmc : SMap Nat := []
  pmcAt : Nat := 0
  fsink : Nat := 0
  traceFull : Bool := false
  traceSeq : Nat := 0
  traceLost : Bool := false
  /-- Trace records held and not yet written (R196), at most 32. -/
  traceHold : List (List Byte) := []
  /-- Next byte of the tile's trace window. -/
  tracePos : Nat := 0
  bps : SMap Breakpoint := []
  wps : SMap Watchpoint := []
  /-- CC_FAULT0–7: the last fault record, 32 bytes or none yet (zero). -/
  faultRec : List Byte := []
  wait : CoreWait := .none
  /-- Stage number of the tile's placement record, 0xFFFF for none (R186). -/
  stage : Nat := 0xFFFF
  /-- Scratchpad ranges that SPAD sections loaded: offset and length (R185, R344). -/
  spads : List (Nat × Nat) := []
deriving DecidableEq, Repr

/-- One physical tile. -/
structure Tile where
  cb : ChargeBank := {}
  lk : Lookout := {}
  tv : Tensor := {}
  vu : Vector := {}
  sp : Spad := {}
  /-- Mover channels 0–3; absent: reset value. -/
  mv : SMap Mover := []
  cc : Core := {}
  /-- Flits ejected at the local port and not yet taken by the tile, oldest first (R152, R46).
  DESIGN CHOICE, log 125. -/
  rx : List Flit := []
  /-- Outstanding transactions (R154). -/
  tx : List Tx := []
  /-- Next transaction ID to use, 1–255. DESIGN CHOICE, log 12. -/
  nextId : Nat := 1
  /-- The stage's quiet window is open (R87). -/
  quiet : Bool := false
  /-- Token context last received (Table 9.3), kept by a stage root. -/
  ctx : List Byte := []
  /-- Messages of the tile held back while injection is held (R164), oldest first. DESIGN CHOICE, log 125. -/
  txHeld : List Message := []
deriving DecidableEq, Repr

/-- A flit in an input buffer of a router (R146): the port at which it arrived, the CLK_TIME of its arrival, and the
outputs by which copies of it have already left (R156). -/
structure InFlit where
  port : Dir
  flit : Flit
  since : Nat := 0
  sent : List Dir := []
deriving DecidableEq, Repr

/-- A reduction key held by a router (R157, R158). -/
structure RedKey where
  route : Nat
  id : Nat
  window : Nat
  offset : Nat
  rop : Nat
  contribs : List (Dir × Flit)
  /-- The combined flit, once it is formed and waits for its outputs, and the outputs by which it has left. -/
  out : Option Flit := none
  sent : List Dir := []
deriving DecidableEq, Repr

/-- One router (R144, Tables 6.11, 6.12). -/
structure Router where
  /-- Flits in the input buffers, in arrival order (R146). -/
  inq : List InFlit := []
  /-- Flits that wait at the local port or at a rim port for a place in its buffers (R146), oldest first.
  DESIGN CHOICE, log 125. -/
  feed : List (Dir × Flit) := []
  /-- Input last served by output × 4 + class (R155); absent: none yet. -/
  served : SMap Nat := []
  /-- Grants at an output for which rim and mesh flits competed, modulo 8 (R160); absent: 0. -/
  contests : SMap Nat := []
  keys : List RedKey := []
  /-- Keys released incomplete and remembered, oldest first, at most 32 (R158): route, ID, window, offset. -/
  released : List (Nat × Nat × Nat × Nat) := []
  /-- RT_ROUTE by route number; absent: 0. -/
  routes : SMap Nat := []
  lcerr : Nat := 0
  lretry : Nat := 0
  rsat : Nat := 0
  rinc : Nat := 0
  refuse : Nat := 0
  cfgErr : Bool := false
  linkFail : Bool := false
  rincBit : Bool := false
  rsatBit : Bool := false
  hold : Bool := false
  /-- Messages being discarded until their last flit passes (R166): source x, source y, VN, ID, destination word. -/
  dropping : List (Nat × Nat × Nat × Nat × Nat) := []
  /-- Messages whose copies for L are being discarded, since the router has no tile (R156). -/
  droppingL : List (Nat × Nat × Nat × Nat × Nat) := []
deriving DecidableEq, Repr

end Sys2Proof.Machine
end

