-- ==== Sys2Proof/Machine/WaferState.lean ====
section
/-!
DEFINITION. The state of the wafer outside its tiles: the mesh as a whole (chapter 06), the memory stacks (chapter 05),
and power, clocks and heat of the fields (chapters 13 and 14).
-/

namespace Sys2Proof.Machine

/-- Phase of a detour set installation (Table 6.8). -/
inductive DetourPhase where
  | idle
  /-- Injection held, drain running: these fields go dark, or return. -/
  | draining (fields : Nat) (dark : Bool)
deriving DecidableEq, Repr

/-- A route alternate that the hub holds (R186): partition, route record condition (1 rotation, 2 dark field), its
argument (logical tile x + 256 y, or field 8r + c), the physical router, the partition route and the entry. -/
structure Alternate where
  part : Nat
  cond : Nat
  arg : Nat
  router : TileId
  route : Nat
  entry : Nat
deriving DecidableEq, Repr

/-- Mesh state held once for the wafer. -/
structure Mesh where
  /-- RT_ROWMAP by (row × 8 + field column) × 20 + j; absent: the repair fuses' value (R5, R161). -/
  rowMap : SMap Nat := []
  /-- Links marked failed (R165). -/
  failed : List LinkId := []
  /-- Fields whose links are marked down before the mask is written (Table 6.8, step 1). -/
  down : Nat := 0
  detour : DetourPhase := .idle
  /-- Installations that wait for the one under way, in the order of their causes (R320): fields, and whether they go
  dark. -/
  detourQueue : List (Nat × Bool) := []
  /-- CLK_TIME at which the installation under way began. -/
  detourAt : Nat := 0
  alternates : List Alternate := []
  /-- Grants of a crossbar port in its current round by rim target × 32 + partition (R160); absent: 0. -/
  rimUsed : SMap Nat := []
deriving DecidableEq, Repr

/-- Memory stacks (R136–R141, R196). -/
structure Stacks where
  /-- Bytes by device address: device extent × 2^28 + offset; absent: 0. DESIGN CHOICE, log 10. -/
  mem : SMap Byte := []
  /-- Online stacks in order (R137). -/
  online : List Nat := []
  /-- Extent table (R138): partition × 65536 + partition extent to device extent. -/
  extents : SMap Nat := []
  /-- Sizes of the four regions in force, in extents, by partition × 4 + region (R139). -/
  regions : SMap Nat := []
  /-- 64-byte units holding an uncorrectable error, by device unit number. -/
  bad : List Nat := []
  /-- Self refresh (standby, warm reset). -/
  selfRefresh : Bool := false
deriving DecidableEq, Repr

/-- Tile rotation of one field row (R342–R344). -/
inductive RotPhase where
  | idle
  /-- Copying the cells of logical position j to the spare. -/
  | copying (j : Nat)
  /-- Copied, waiting for the swap. -/
  | ready (j : Nat)
deriving DecidableEq, Repr

/-- Why a field is dark. -/
inductive OffCause where
  /-- It has not been switched on, or a command switched it off. -/
  | command
  | trip
  | phase
  | heat
  | critical
  | clock
deriving DecidableEq, Repr

/-- Power, clock and heat state of one field (chapters 13 and 14). Its state, budget, temperature, cap and stage are
dictionary entries. -/
structure Field where
  /-- Why the field is dark, if it is. -/
  why : OffCause := .command
  /-- A planned switch-off waits for its detour set (R164). -/
  offDue : Option OffCause := none
  /-- The field is switched on again after it has gone off: a field power cycle (R399). -/
  cycling : Bool := false
  /-- CLK_TIME at which the field went dark. -/
  offAt : Nat := 0
  /-- The switch-on under way re-arms the fuse after a trip; CLK_TIME at which such a sequence ended (R320). -/
  rearming : Bool := false
  rearmedAt : Option Nat := none
  /-- g of R321: GRANT before its caps. DESIGN CHOICE, log 12. -/
  g : Nat := 48
  /-- Consecutive branch residuals above the threshold, the last residual (mV) with its current (0.1 A), and the times of
  residual jumps (R327). -/
  resRun : Nat := 0
  resLast : Option (Int × Nat) := none
  jumps : List Nat := []
  /-- Highest charge-wafer temperature sampled last, for the band and the calibration triggers (0.1 °C).
  DESIGN CHOICE, log 12. -/
  bandTemp : Int := 650
  /-- Start-up calibration of every array of the field (R77): its CLK_TIME, the field temperature then and the trigger in
  force; arrays without a calibration of their own since are due again (R76). -/
  calAt : Nat := 0
  calTemp : Int := 650
  calTrig : Nat := 3
  calDue : Bool := false
  /-- Injector reference that the field controller holds, 8 bytes of the factory table (Table 3.6); 0 before the first
  start. -/
  injector : Nat := 0
  /-- Excluded tile sensors (R337). -/
  excluded : List Nat := []
  /-- A row of the field has no working tile sensor (R337). -/
  rowless : Bool := false
  /-- VCORE current above 95 %, and below 90 %, of its maximum; the field's plane is above its limit (R321, R340). -/
  overCurrent : Bool := false
  underCurrent : Bool := true
  planeOver : Bool := false
  /-- Rotation per field-local row, 0–19; absent: idle. -/
  rot : SMap RotPhase := []
  /-- Highest and lowest T_f since the last thermal cycle, T_f at the last sample, and whether it has fallen by 10 °C
  (R346). -/
  cycleSpan : Option (Int × Int × Int) := none
  fell : Bool := false
  /-- T_f samples of the last 10 min of serving (R345). -/
  workTemps : List Int := []
  /-- Warming conversions run (R345). -/
  warming : Bool := false
  /-- The field controller has halved W_RIM (R340). -/
  rimHalved : Bool := false
  /-- Switch-offs for heat of the last hour, and held off for heat (R341). -/
  heatTimes : List Nat := []
  heldHeat : Bool := false
deriving DecidableEq, Repr

/-- A running sag (R325): its start, lowest input (mV), highest current (0.1 A), and SUSPECT. -/
structure Sag where
  start : Nat
  vmin : Nat
  imax : Nat
  suspect : Bool
deriving DecidableEq, Repr

/-- Module-level power and thermal state. -/
structure Power where
  sag : Option Sag := none
  /-- Consecutive source-resistance estimates above the threshold (R327). -/
  srcRun : Nat := 0
  /-- Last input sample: mV and 0.1 A. -/
  lastInput : Option (Nat × Nat) := none
  /-- Fields that wait for switch-on, in the order in which they were asked (R322). -/
  switchQueue : List Nat := []
  /-- The outlet is above its limit; a coolant reading has been missing for 1 s (R338). -/
  outletHot : Bool := false
  coolantLost : Bool := false
  /-- Stacks above 105 °C (R339). -/
  stackHot : List Nat := []
deriving DecidableEq, Repr

end Sys2Proof.Machine
end

