-- ==== Sys2Proof/Machine/State.lean ====
section
/-!
DEFINITION. The state of the GVX-AM64 block as plain data, the reasons a step can stop, and the state after reset.
-/

namespace Sys2Proof.Machine

/-- Why the machine stops with a fault. -/
inductive Fault where
  /-- A command names a tile, field, port, function, partition, link or other unit that the module does not have, or
  carries a value that its field cannot hold. Raised by every meaning on an ill-formed command; safe: nothing runs. -/
  | noSuchUnit
deriving DecidableEq, Repr

/-- Why the machine refuses a command. -/
inductive Refusal where
  /-- The command has no meaning in this model yet. Raised by arms of `exec` only; safe. -/
  | notModelled (mnemonic : String)
deriving DecidableEq, Repr

/-- The state of the block. -/
structure State where
  /-- Commands waiting, first in first out: the queue of the block model. DESIGN CHOICE, log 1. -/
  pending : List Instr
  /-- Everything driven outward so far, oldest first. DESIGN CHOICE, log 14. -/
  out : List Emission
  /-- Uses of free values so far: the model's own counter (Config). DESIGN CHOICE, log 13. -/
  free : Nat
  /-- Wafer time CLK_TIME (R336), a count of CLK_CORE cycles. -/
  clkTime : Nat
  /-- Dictionary values that differ from their default, by index × 2^16 + subindex × 2^8 + partition, the last 0xFF
  for an entry that is not per partition. -/
  od : SMap Nat
  /-- Dictionary values of type STR and BLOB; absent: the entry's default. -/
  odBlob : SMap (List Byte)
  hub : Hub
  mesh : Mesh
  stk : Stacks
  power : Power
  /-- Fields by 8r + c; absent: reset value. -/
  fields : SMap Field
  /-- Tiles by y × 168 + u; absent: reset value. -/
  tiles : SMap Tile
  /-- Routers by y × 168 + u; absent: reset value. -/
  routers : SMap Router
  /-- Partitions 0–31; absent: reset value. -/
  parts : SMap Partition
  /-- Functions by port × 64 + function; absent: reset value. -/
  fns : SMap Function
  fabric : Fabric
deriving DecidableEq, Repr

/-- Factory overlay deltas (Table 16.7), by overlay × 2^24 + index × 2^8 + subindex. -/
def factoryDeltas : SMap Nat := [
  (0x310101, 0), (0x510003, 0),
  (0x1310101, 0), (0x1510003, 1),
  (0x2310101, 1),
  (0x3310101, 0),
  (0x4300007, 8), (0x4310101, 0), (0x4520005, 1)]

/-- The machine right after reset: the module unpowered, every dictionary entry at its default, every tile and router
at its reset values; a COLD_POWER_ON starts it (R396). DESIGN CHOICE, log 4. -/
def State.reset : State where
  pending := []
  out := []
  free := 0
  clkTime := 0
  od := []
  odBlob := []
  hub := { deltas := factoryDeltas }
  mesh := {}
  stk := {}
  power := {}
  fields := []
  tiles := []
  routers := []
  parts := []
  fns := []
  fabric := {}

end Sys2Proof.Machine
end

