-- ==== Sys2Proof/WellFormed.lean ====
section
/-!
DEFINITION. Well-formed commands: every unit that a command names exists in the module (Tables 0.3, 2.1, 13.3; R36,
R52, R124, R147, R280, R296, R349), and every operand fits the field that carries it.
-/

namespace Sys2Proof

/-- The module has this physical tile: u 0–167, y 0–159 (Table 0.3). -/
def tileOk (t : TileId) : Bool := decide (t.u < 168) && decide (t.y < 160)

/-- A field number 8r + c. -/
def fieldOk (f : Nat) : Bool := decide (f < 64)

/-- A partition number (R349). -/
def partOk (p : Nat) : Bool := decide (p < 32)

/-- A status that ends a transfer of data (R17, R292), or 0. -/
def readCodeOk (c : Nat) : Bool :=
  [0, 0x000D, 0x0401, 0x0402, 0x0404, 0x0405, 0x0408, 0x0601, 0x0A01, 0x0A02, 0x0A06, 0x0A0A].contains c

/-- A function of a port: 0 the PF, 1–32 the VFs (R280). -/
def fnOk (n : Nat) : Bool := decide (n ≤ 32)

/-- A caller that exists (Table 16.5). -/
def callerOk : Caller → Bool
  | .pf _ => true
  | .vf _ n => decide (1 ≤ n) && decide (n ≤ 32)
  | .net _ _ => true

/-- A byte string of a fixed length. -/
def bytesOk (n : Nat) (b : List Byte) : Bool := b.length == n

/-- A phase of a rail: 36 of VCORE, 10 of VARRAY, 2 of VANA (Table 13.3). -/
def phaseOk (r : Rail) (n : Nat) : Bool :=
  match r with
  | .vcore => decide (n < 36)
  | .varray => decide (n < 10)
  | .vana => decide (n < 2)

/-- A destination whose fields fit Table 6.2. -/
def destOk (d : Dest) : Bool :=
  decide (d.rop < 8) && decide (d.route < 256) && decide (d.tileY < 256) && decide (d.tileX < 256) &&
    decide (d.window < 8) && decide (d.offset < 2097152)

/-- A flit whose fields fit Table 6.1. -/
def flitOk (f : Flit) : Bool :=
  decide (f.way < 256) && decide (f.id < 256) && decide (f.srcY < 256) && decide (f.srcX < 256) &&
    decide (f.kind < 8) && decide (f.part < 32) && decide (f.vn < 4) && destOk f.dest && bytesOk 32 f.payload &&
    f.exit.all tileOk

/-- A flit gets through after at most 3 retries (R147). -/
def linkOk (e : LinkEvent) : Bool :=
  match e with
  | .retried n => decide (n ≤ 3)
  | _ => true

/-- A message whose fields fit Table 6.1. -/
def messageOk (m : Message) : Bool :=
  decide (m.kind < 8) && decide (m.vn < 4) && decide (m.id < 256) && destOk m.dest && m.flits.all (bytesOk 32) &&
    !m.flits.isEmpty

/-- A Falram packet on a logical link that exists (R296). -/
def packetOk (p : FalramPkt) : Bool := decide (p.link < 32) && p.icv.length == (if p.enc then 16 else 0)

/-- Measured trims name arrays that exist. -/
def trimsOk (l : List (TileId × Nat × TrimSet)) : Bool := l.all (fun e => tileOk e.1 && decide (e.2.1 < 192))

/-- What a start finds names stacks, fields, tiles and arrays that exist. -/
def startOk (e : StartEnv) : Bool :=
  e.stacksOffline.all (fun k => decide (k < 16)) && e.stackSizes.all (fun p => decide (p.1 < 16)) && e.fieldsFailed.all fieldOk &&
    e.failedArrays.all (fun p => tileOk p.1 && decide (p.2 < 192)) && trimsOk e.trims &&
    e.failedPhases.all (fun p => fieldOk p.1 && decide (p.2 < 48)) && e.linksPassed.all (fun k => tileOk k.t)

/-- A register target that exists. -/
def targetOk : RegTarget → Bool
  | .core t _ => tileOk t
  | .mgmt t _ => tileOk t
  | .bar _ fn _ => fnOk fn
  | .bar64 _ fn _ _ => fnOk fn

/-- The command names only units that exist, with operands that fit. DESIGN CHOICE, log 7. -/
def Instr.wf (c : Instr) : Bool :=
  match c with
  | .coldPowerOn env => startOk env
  | .refclkReturn env => startOk env
  | .refclkLoss => true
  | .pllLossOfLock env => startOk env
  | .modRstNAssert => true
  | .modRstNRelease env => startOk env
  | .deviceWarmReset caller _ env => callerOk caller && startOk env
  | .sagStart _ => true
  | .sagEnd _ _ => true
  | .stageOneDropout _ _ _ => true
  | .overvoltageLockout => true
  | .overvoltageRecovery env => startOk env
  | .currentStepEstimate _ _ => true
  | .fuseTrip field => fieldOk field
  | .phaseFailure field rail phase _ => fieldOk field && phaseOk rail phase
  | .fieldSwitchOn field _ => fieldOk field
  | .fieldReady field arrays _ =>
    fieldOk field && arrays.failed.all (fun p => tileOk p.1 && decide (p.2 < 192)) && trimsOk arrays.trims
  | .planeOvercurrent plane => decide (plane < 16)
  | .grantPeriod _ => true
  | .fieldGrantTick field _ => fieldOk field
  | .clearMinimumRecords caller => callerOk caller
  | .stileSourceFailure field => fieldOk field
  | .fieldTemperatureSample field _ => fieldOk field
  | .throttleStepDown field => fieldOk field
  | .throttleStepUp field => fieldOk field
  | .urgentRotation field rows => fieldOk field && rows.all (fun r => decide (r.1 < 20) && decide (r.2.1 < 20))
  | .evacuation field => fieldOk field
  | .offForHeat field => fieldOk field
  | .criticalLimit field => fieldOk field
  | .heatReturn field => fieldOk field
  | .releaseFieldHeldOff caller field _ => callerOk caller && fieldOk field
  | .coolantReadingLoss => true
  | .outletLimitStep => true
  | .i3cRescan _ => true
  | .thermalCycleSave => true
  | .embersWarming field => fieldOk field
  | .rotationInterval field row pos _ _ => fieldOk field && decide (row < 20) && decide (pos < 20)
  | .rotationCopyDone field row _ => fieldOk field && decide (row < 20)
  | .rotationSwap field row => fieldOk field && decide (row < 20)
  | .rotationCopyTimeout field row => fieldOk field && decide (row < 20)
  | .rotationSwapTimeout field row => fieldOk field && decide (row < 20)
  | .tokenBoundary t => tileOk t
  | .segmentInputWord t seg idx word srcX srcY =>
    tileOk t && decide (seg < 16) && decide (idx < 131072) && decide (srcX < 160) && decide (srcY < 160) && bytesOk 32 word
  | .passStart t a => tileOk t && decide (a < 192)
  | .postStage t a => tileOk t && decide (a < 192)
  | .lookoutRereadDone t a => tileOk t && decide (a < 192)
  | .writeBurst t hdr rows srcX srcY =>
    tileOk t && bytesOk 32 hdr && rows.all (bytesOk 256) && decide (srcX < 160) && decide (srcY < 160)
  | .heldBurstRelease t a => tileOk t && decide (a < 192)
  | .rowWriteVerify t a _ => tileOk t && decide (a < 192)
  | .columnSumRecompute t a => tileOk t && decide (a < 192)
  | .readRequest t hdr srcX srcY => tileOk t && bytesOk 32 hdr && decide (srcX < 160) && decide (srcY < 160)
  | .segmentEnable t seg _ => tileOk t && decide (seg < 16)
  | .segmentDisable t seg _ => tileOk t && decide (seg < 16)
  | .segmentConfigWrite t seg offset _ => tileOk t && decide (seg < 16) && decide (offset < 24) && offset % 4 == 0
  | .channelTableWrite t n entry => tileOk t && decide (n < 8192) && bytesOk 16 entry
  | .calibrationDue t a => tileOk t && decide (a < 192)
  | .calibrationStart t arrays => tileOk t && arrays.all (fun a => decide (a < 192))
  | .calibrationCommit t a _ => tileOk t && decide (a < 192)
  | .calibrationLate t a => tileOk t && decide (a < 192)
  | .userCalibrationSave => true
  | .saveUserCalibrationNow caller _ => callerOk caller
  | .refreshDue t a => tileOk t && decide (a < 192)
  | .refreshRow t a _ => tileOk t && decide (a < 192)
  | .refreshForced t a => tileOk t && decide (a < 192)
  | .rejuvenation t a row _ => tileOk t && decide (a < 192) && decide (row < 512)
  | .exactArrayRead t a _ _ => tileOk t && decide (a < 192)
  | .exactStream t seg => tileOk t && decide (seg < 16)
  | .tensorOperation t => tileOk t
  | .heldLoad t => tileOk t
  | .tensorDrain t => tileOk t
  | .scratchpadAccess t _ => tileOk t
  | .remoteWrite t f => tileOk t && flitOk f
  | .remoteRead t f => tileOk t && flitOk f
  | .fetchAndAdd t f => tileOk t && flitOk f
  | .compareAndSwap32 t f => tileOk t && flitOk f
  | .compareAndSwap64 t f => tileOk t && flitOk f
  | .vectorQueueWord t _ word => tileOk t && bytesOk 32 word
  | .tailWrite t ch _ => tileOk t && decide (ch < 4)
  | .channelEnable t ch => tileOk t && decide (ch < 4)
  | .channelDisable t ch => tileOk t && decide (ch < 4)
  | .moverResume t ch => tileOk t && decide (ch < 4)
  | .paceWrite t ch _ => tileOk t && decide (ch < 4)
  | .pacingTimeout t ch => tileOk t && decide (ch < 4)
  | .descriptorFetch t ch => tileOk t && decide (ch < 4)
  | .copy t ch _ => tileOk t && decide (ch < 4)
  | .transposedCopy t ch _ => tileOk t && decide (ch < 4)
  | .fill t ch _ => tileOk t && decide (ch < 4)
  | .marker t ch _ => tileOk t && decide (ch < 4)
  | .descriptorWriteback t ch => tileOk t && decide (ch < 4)
  | .stackAccess part _ _ _ _ => partOk part
  | .stackFailure stack => decide (stack < 16)
  | .patrolScrub _ => true
  | .messageInjection t m => tileOk t && messageOk m
  | .flitForward t _ vn e => tileOk t && decide (vn < 3) && linkOk e
  | .flitEjection t _ vn => tileOk t && decide (vn < 3)
  | .reductionCombine t _ _ _ _ => tileOk t
  | .reductionTimeout t _ _ _ _ => tileOk t
  | .releasedKeyExpiry t _ _ _ _ => tileOk t
  | .readDataReceipt t f => tileOk t && flitOk f
  | .acknowledgementReceipt t f => tileOk t && flitOk f
  | .refusalReceipt t f => tileOk t && flitOk f
  | .responseTimeout t _ => tileOk t
  | .rimIngress side f => flitOk f && side != .l
  | .detourDrainComplete => true
  | .detourDrainLimitExpiry => true
  | .add t _ _ _ => tileOk t
  | .sub t _ _ _ => tileOk t
  | .and t _ _ _ => tileOk t
  | .or t _ _ _ => tileOk t
  | .xor t _ _ _ => tileOk t
  | .sll t _ _ _ => tileOk t
  | .srl t _ _ _ => tileOk t
  | .sra t _ _ _ => tileOk t
  | .slt t _ _ _ => tileOk t
  | .sltu t _ _ _ => tileOk t
  | .addi t _ _ _ => tileOk t
  | .andi t _ _ _ => tileOk t
  | .ori t _ _ _ => tileOk t
  | .xori t _ _ _ => tileOk t
  | .slti t _ _ _ => tileOk t
  | .shiftImmediate t _ _ _ => tileOk t
  | .lui t _ _ => tileOk t
  | .mul t _ _ _ => tileOk t
  | .mulh t _ _ _ => tileOk t
  | .mulhu t _ _ _ => tileOk t
  | .lb t _ _ _ => tileOk t
  | .lbu t _ _ _ => tileOk t
  | .lh t _ _ _ => tileOk t
  | .lhu t _ _ _ => tileOk t
  | .lw t _ _ _ => tileOk t
  | .sb t _ _ _ => tileOk t
  | .sh t _ _ _ => tileOk t
  | .sw t _ _ _ => tileOk t
  | .beq t _ _ _ => tileOk t
  | .bne t _ _ _ => tileOk t
  | .blt t _ _ _ => tileOk t
  | .bge t _ _ _ => tileOk t
  | .bltu t _ _ _ => tileOk t
  | .bgeu t _ _ _ => tileOk t
  | .j t _ => tileOk t
  | .jal t _ => tileOk t
  | .jr t _ => tileOk t
  | .jalr t _ _ => tileOk t
  | .tsub t _ => tileOk t
  | .vld t _ _ => tileOk t
  | .vst t _ _ => tileOk t
  | .vtst t _ _ _ => tileOk t
  | .vopArithmetic t _ _ _ => tileOk t
  | .vopCompareAndSelect t _ _ _ => tileOk t
  | .vopConversion t _ _ _ _ => tileOk t
  | .vopReciprocal t _ _ _ => tileOk t
  | .vopExp t _ _ _ => tileOk t
  | .sigmoid t _ _ => tileOk t
  | .silu t _ _ => tileOk t
  | .softmaxStep t _ => tileOk t
  | .vectorReduction t _ _ _ => tileOk t
  | .top64Select t _ _ _ => tileOk t
  | .draw t _ _ => tileOk t
  | .send t _ _ => tileOk t
  | .recv t _ _ => tileOk t
  | .rld t _ _ => tileOk t
  | .rst t _ _ => tileOk t
  | .ramoFetchAndAdd t _ _ _ => tileOk t
  | .ramoCompareAndSwap32 t _ _ _ => tileOk t
  | .ramoCompareAndSwap64 t _ _ _ => tileOk t
  | .wait t _ _ => tileOk t
  | .fence t => tileOk t
  | .nop t => tileOk t
  | .halt t => tileOk t
  | .trap t => tileOk t
  | .brk t => tileOk t
  | .messageReceipt t msg srcX srcY => tileOk t && bytesOk 32 msg && decide (srcX < 160) && decide (srcY < 160)
  | .messageQueueTimeout t => tileOk t
  | .watchdogExpiry t => tileOk t
  | .wdogWrite t _ => tileOk t
  | .timerExpiry t => tileOk t
  | .haltRequest t _ => tileOk t
  | .resume t _ => tileOk t
  | .step t => tileOk t
  | .haltPartition caller part _ => callerOk caller && partOk part
  | .resumePartition caller part _ => callerOk caller && partOk part
  | .drainLimitExpiry part => partOk part
  | .traceTimeRecord t => tileOk t
  | .kvWalk part _ _ => partOk part
  | .attentionToken t _ _ _ _ => tileOk t
  | .attentionResume t _ _ _ _ _ => tileOk t
  | .attentionMerge t _ _ _ _ => tileOk t
  | .prefixInsert part _ _ => partOk part
  | .makePrefixTreeUnreachable caller part _ => callerOk caller && partOk part
  | .requestFree part _ => partOk part
  | .submit part desc => partOk part && bytesOk 128 desc
  | .promptReadComplete part _ _ failCode => partOk part && readCodeOk failCode
  | .cancel part desc => partOk part && bytesOk 128 desc
  | .stepBoundary part _ => partOk part
  | .stage caller part _ => callerOk caller && partOk part
  | .stageDataArrival part _ _ => partOk part
  | .install caller part _ => callerOk caller && partOk part
  | .installResume part _ => partOk part
  | .installStreamDone part _ => partOk part
  | .discard caller part _ => callerOk caller && partOk part
  | .abort caller part _ => callerOk caller && partOk part
  | .hqVerWrite _ fn _ => fnOk fn
  | .ringEnable _ fn _ => fnOk fn
  | .sqTailWrite _ fn _ => fnOk fn
  | .cqHeadWrite _ fn _ => fnOk fn
  | .submissionFetch _ fn => fnOk fn
  | .submissionFetchTimeout _ fn => fnOk fn
  | .interruptCoalesceExpiry _ fn => fnOk fn
  | .hostReadCompletion _ _ _ => true
  | .hostReadTimeout _ _ => true
  | .hostReadRetry _ _ => true
  | .lockAcquire _ => true
  | .lockRelease _ => true
  | .leaseWarning => true
  | .leaseExpiry => true
  | .perst _ => true
  | .functionLevelReset _ fn => fnOk fn
  | .d3hotEntry _ fn => fnOk fn
  | .d0Entry _ fn => fnOk fn
  | .busMasterDisable _ fn _ => fnOk fn
  | .barAccessViolation _ fn _ _ _ => fnOk fn
  | .ideStreamFailure _ fn => fnOk fn
  | .query _ fn => fnOk fn
  | .keyProg _ fn _ _ _ key => fnOk fn && bytesOk 32 key
  | .kSetGo _ fn _ => fnOk fn
  | .kSetStop _ fn _ => fnOk fn
  | .hello p => packetOk p
  | .keepalive p => packetOk p
  | .join p => packetOk p
  | .openPkt p => packetOk p
  | .data p => packetOk p
  | .ack p => packetOk p
  | .nak p => packetOk p
  | .close p => packetOk p
  | .keepaliveTimer _ => true
  | .ackTimer part => partOk part
  | .retransmissionTimeout part _ => partOk part
  | .joinTimer part => partOk part
  | .joinWaitExpiry part => partOk part
  | .peerSilence _ => true
  | .peerIdleExpiry _ => true
  | .lldpTimer link => decide (link < 32)
  | .ethernetLinkChange link _ => decide (link < 32)
  | .neighborSolicitation link _ => link.all (fun l => decide (l < 32))
  | .echoRequest link _ _ => link.all (fun l => decide (l < 32))
  | .foreignFrame link => link.all (fun l => decide (l < 32))
  | .fabricSend caller part _ => callerOk caller && partOk part
  | .fabricAbort caller part _ => callerOk caller && partOk part
  | .form caller _ => callerOk caller
  | .reset caller _ => callerOk caller
  | .dissolve caller _ => callerOk caller
  | .scrubComplete part failedArrays => partOk part && failedArrays.all (fun p => tileOk p.1 && decide (p.2 < 192))
  | .getVersion _ fn => fnOk fn
  | .getCapabilities _ fn => fnOk fn
  | .negotiateAlgorithms _ fn _ => fnOk fn
  | .getDigests _ fn => fnOk fn
  | .getCertificate _ fn _ _ _ => fnOk fn
  | .challenge _ fn _ _ => fnOk fn
  | .getMeasurements _ fn _ _ => fnOk fn
  | .keyExchange _ fn _ => fnOk fn
  | .finish _ fn _ _ => fnOk fn
  | .heartbeat _ fn => fnOk fn
  | .keyUpdate _ fn => fnOk fn
  | .endSession _ fn => fnOk fn
  | .heartbeatLapse _ fn => fnOk fn
  | .claim _ fn _ _ => fnOk fn
  | .setKey _ fn _ _ => fnOk fn
  | .clearKey _ fn _ _ => fnOk fn
  | .seal _ fn _ _ => fnOk fn
  | .unseal _ fn _ _ => fnOk fn
  | .release _ fn _ _ => fnOk fn
  | .managementRestart _ _ _ => true
  | .managementRestartEnd => true
  | .hubWatchdogExpiry _ _ => true
  | .hubSramError _ _ _ => true
  | .restartTheHub caller _ _ _ => callerOk caller
  | .updateBegin caller _ => callerOk caller
  | .updateImageChunk caller _ _ => callerOk caller
  | .updateCommit caller _ _ => callerOk caller
  | .updateAbort caller _ => callerOk caller
  | .flashImageWritten _ => true
  | .negotiate caller _ => callerOk caller
  | .read caller _ => callerOk caller
  | .write caller _ env => callerOk caller && startOk env.start
  | .list caller _ => callerOk caller
  | .networkLockAcquire caller _ => callerOk caller
  | .networkLockRelease caller _ => callerOk caller
  | .networkPeerExpiry _ _ => true
  | .restoreFactory caller _ => callerOk caller
  | .logFlashWrite _ => true
  | .fieldCycle caller _ => callerOk caller
  | .fieldOff caller _ => callerOk caller
  | .fieldOn caller _ => callerOk caller
  | .standbyEnter caller _ => callerOk caller
  | .standbyExit caller _ env => callerOk caller && startOk env
  | .queuedActivityStart env => startOk env.start
  | .queueWaitExpiry _ => true
  | .availabilityCount _ => true
  | .registerWrite target _ => targetOk target
  | .stageOneTurnOn env => startOk env
  | .inputSample _ _ => true
  | .fieldBranchSample field _ _ _ _ => fieldOk field
  | .hubSensorRead temps _ _ => decide (temps.length ≤ 16)
  | .poweredHourCount => true
  | .illegalInstruction t fn => tileOk t && decide (fn < 2048)
  | .mailboxGo _ fn _ env => fnOk fn && startOk env.start
  | .pcieLinkUp _ _ _ _ => true
  | .configurationRequest _ fn _ => fnOk fn

end Sys2Proof
end

