-- ==== Sys2Proof/Machine/Ops.lean ====
section
/-!
DEFINITION. Named operations over the state that every family uses: tiles, routers and fields, logical and physical
coordinates, the dictionary's values, the event log, emissions and free values.
-/

namespace Sys2Proof.Machine

/-- The three outcomes of a command. -/
abbrev Res := Host.Outcome State Fault Refusal

/-- A next state where the command names units that exist, else the fault. DESIGN CHOICE, log 7. -/
def guardRes (ok : Bool) (s : State) : Res := if ok then .next s else .fault .noSuchUnit

/-! ### Units -/

/-- Key of a tile in the tables. -/
def tkey (t : TileId) : Nat := 168 * t.y + t.u

/-- The tile of a key. -/
def tileAt (k : Nat) : TileId := ⟨k % 168, k / 168⟩

/-- A tile's state. -/
def State.tile (s : State) (t : TileId) : Tile := mget {} s.tiles (tkey t)

/-- The state with a tile replaced. -/
def State.setTile (s : State) (t : TileId) (x : Tile) : State := { s with tiles := mset {} s.tiles (tkey t) x }

/-- The state with a tile changed. -/
def State.modTile (s : State) (t : TileId) (f : Tile → Tile) : State := s.setTile t (f (s.tile t))

/-- The state with a tile's charge bank changed. -/
def State.modCb (s : State) (t : TileId) (f : ChargeBank → ChargeBank) : State :=
  s.modTile t (fun x => { x with cb := f x.cb })

/-- The state with a tile's Lookout changed. -/
def State.modLk (s : State) (t : TileId) (f : Lookout → Lookout) : State :=
  s.modTile t (fun x => { x with lk := f x.lk })

/-- The state with a tile's tensor block changed. -/
def State.modTv (s : State) (t : TileId) (f : Tensor → Tensor) : State :=
  s.modTile t (fun x => { x with tv := f x.tv })

/-- The state with a tile's vector unit changed. -/
def State.modVu (s : State) (t : TileId) (f : Vector → Vector) : State :=
  s.modTile t (fun x => { x with vu := f x.vu })

/-- The state with a tile's scratchpad changed. -/
def State.modSp (s : State) (t : TileId) (f : Spad → Spad) : State :=
  s.modTile t (fun x => { x with sp := f x.sp })

/-- The state with a tile's control core changed. -/
def State.modCc (s : State) (t : TileId) (f : Core → Core) : State :=
  s.modTile t (fun x => { x with cc := f x.cc })

/-- A tile's mover channel. -/
def State.mover (s : State) (t : TileId) (ch : Nat) : Mover := mget {} (s.tile t).mv ch

/-- The state with a mover channel changed. -/
def State.modMv (s : State) (t : TileId) (ch : Nat) (f : Mover → Mover) : State :=
  s.modTile t (fun x => { x with mv := mmod {} x.mv ch f })

/-- A router's state. -/
def State.router (s : State) (t : TileId) : Router := mget {} s.routers (tkey t)

/-- The state with a router changed. -/
def State.modRouter (s : State) (t : TileId) (f : Router → Router) : State :=
  { s with routers := mset {} s.routers (tkey t) (f (s.router t)) }

/-- A field's state. -/
def State.field (s : State) (f : Nat) : Field := mget {} s.fields f

/-- The state with a field changed. -/
def State.modField (s : State) (f : Nat) (g : Field → Field) : State :=
  { s with fields := mset {} s.fields f (g (s.field f)) }

/-- A partition's state. -/
def State.part (s : State) (p : Nat) : Partition := mget {} s.parts p

/-- The state with a partition changed. -/
def State.modPart (s : State) (p : Nat) (f : Partition → Partition) : State :=
  { s with parts := mset {} s.parts p (f (s.part p)) }

/-- 0 for Port A, 1 for Port B. -/
def portNum : Port → Nat
  | .a => 0
  | .b => 1

/-- Key of a function: 0 the PF, 1–32 the VFs. -/
def fkey (port : Port) (fn : Nat) : Nat := portNum port * 64 + fn

/-- A function's state. -/
def State.fn (s : State) (port : Port) (n : Nat) : Function := mget {} s.fns (fkey port n)

/-- The state with a function changed. -/
def State.modFn (s : State) (port : Port) (n : Nat) (f : Function → Function) : State :=
  { s with fns := mset {} s.fns (fkey port n) (f (s.fn port n)) }

/-- Every field number. -/
def allFields : List Nat := List.range 64

/-- The fields of a mask. -/
def fieldsOf (mask : Nat) : List Nat := allFields.filter (fun f => bit mask f)

/-! ### Coordinates -/

/-- Field of a physical tile, 8r + c. -/
def fieldOfTile (t : TileId) : Nat := 8 * (t.y / 20) + t.u / 21

/-- Field of a logical tile (R4). -/
def fieldOfLogical (x y : Nat) : Nat := 8 * (y / 20) + x / 20

/-- The physical tiles of a field, row by row. -/
def tilesOfField (f : Nat) : List TileId :=
  (List.range 20).flatMap (fun i => (List.range 21).map (fun k => ⟨21 * (f % 8) + k, 20 * (f / 8) + i⟩))

/-! ### Dictionary values -/

/-- Key of a dictionary value: the partition of a per-partition entry, 0xFF otherwise. -/
def odKey (idx sub part : Nat) : Nat := 65536 * idx + 256 * sub + part

/-- The row of an entry. -/
def odFind (idx sub : Nat) : Option OdRow :=
  odTable.find? (fun r => r.idx == idx && decide (r.lo ≤ sub) && decide (sub ≤ r.hi))

/-- The default of an entry. -/
def odDefault (idx sub : Nat) : Nat := ((odFind idx sub).map (·.dflt)).getD 0

/-- The value an entry holds for a partition. -/
def State.odP (s : State) (idx sub part : Nat) : Nat := (mfind s.od (odKey idx sub part)).getD (odDefault idx sub)

/-- The value of a device-wide or partition-indexed entry. -/
def State.odG (s : State) (idx sub : Nat) : Nat := s.odP idx sub 0xFF

/-- The state with an entry's value for a partition replaced. -/
def State.odSetP (s : State) (idx sub part v : Nat) : State :=
  { s with od := if v = odDefault idx sub then mdel s.od (odKey idx sub part) else mput s.od (odKey idx sub part) v }

/-- The state with a device-wide entry replaced. -/
def State.odSet (s : State) (idx sub v : Nat) : State := s.odSetP idx sub 0xFF v

/-- The state with a count of the dictionary raised. -/
def State.odAdd (s : State) (idx sub n : Nat) : State := s.odSet idx sub (s.odG idx sub + n)

/-- The state with a per-partition count raised. -/
def State.odAddP (s : State) (idx sub part n : Nat) : State := s.odSetP idx sub part (s.odP idx sub part + n)

/-- A STR or BLOB value stored for a partition, if one is. -/
def State.blobP (s : State) (idx sub part : Nat) : Option (List Byte) := mfind s.odBlob (odKey idx sub part)

/-- The state with a BLOB value stored. -/
def State.setBlobP (s : State) (idx sub part : Nat) (v : List Byte) : State :=
  { s with odBlob := mput s.odBlob (odKey idx sub part) v }

/-- Key of an overlay delta (R388). -/
def deltaKey (ovl idx sub : Nat) : Nat := 16777216 * ovl + 256 * idx + sub

/-- Overlay in force for a partition (R389). -/
def State.overlay (s : State) (p : Nat) : Nat := s.odG 0x1211 (p + 1)

/-- A partition's effective value of an entry (R388). -/
def State.odEff (s : State) (idx sub p : Nat) : Nat :=
  (mfind s.hub.deltas (deltaKey (s.overlay p) idx sub)).getD (s.odP idx sub p)

/-- Stepping code (R2): 0xA0 or 0xB0. -/
def State.stepping (s : State) : Nat := s.odG 0x1000 2

/-- Dark-field mask (R163). -/
def State.dark (s : State) : Nat := s.odG 0x3401 1

/-- Field state, OD 0x2101 (Table 13.11). -/
def State.fieldState (s : State) (f : Nat) : Nat := s.odG 0x2101 (f + 1)

/-- The field is on. -/
def State.fieldOn (s : State) (f : Nat) : Bool := s.fieldState f == 0

/-- Field mask in force of a partition. -/
def State.partMask (s : State) (p : Nat) : Nat := s.odG 0x4003 (p + 1)

/-- Partition state, OD 0x4002. -/
def State.partState (s : State) (p : Nat) : Nat := s.odG 0x4002 (p + 1)

/-- Partition that a field belongs to. -/
def State.partOfField (s : State) (f : Nat) : Option Nat := (List.range 32).find? (fun p => bit (s.partMask p) f)

/-- Partition that a tile belongs to. -/
def State.partOfTile (s : State) (t : TileId) : Option Nat := s.partOfField (fieldOfTile t)

/-- The partition is sealed. -/
def State.isSealed (s : State) (p : Nat) : Bool := s.odG 0x4102 (p + 1) == 1

/-! ### Repair and row maps -/

/-- Retired physical column of a field row by the fuses (R5), none without a repair. DESIGN CHOICE, log 9. -/
def State.retired (s : State) (f i : Nat) : Option Nat :=
  match s.blobP 0xF000 (f + 1) 0xFF with
  | none => none
  | some b =>
    let d := (sliceB b i 1).headD 0xFF
    if d.toNat ≤ 20 then some d.toNat else none

/-- Physical column of logical position j by the repair fuses (R5). -/
def State.fuseColumn (s : State) (f i j : Nat) : Nat :=
  match s.retired f i with
  | none => j
  | some d => if j < d then j else j + 1

/-- Key of a row-map entry: row y, field column c, position j. -/
def rowKey (y c j : Nat) : Nat := 20 * (8 * y + c) + j

/-- Physical column k of logical position j in a field row (R161). -/
def State.rowMapGet (s : State) (y c j : Nat) : Nat :=
  (mfind s.mesh.rowMap (rowKey y c j)).getD (s.fuseColumn (8 * (y / 20) + c) (y % 20) j)

/-- Physical tile that holds logical tile (x, y). -/
def State.physical (s : State) (x y : Nat) : TileId :=
  ⟨21 * (x / 20) + s.rowMapGet y (x / 20) (x % 20), y⟩

/-- Logical position of a physical tile; none for a retired tile or an unused spare. -/
def State.logical (s : State) (t : TileId) : Option (Nat × Nat) :=
  ((List.range 20).find? (fun j => s.rowMapGet t.y (t.u / 21) j == t.u % 21)).map
    (fun j => (20 * (t.u / 21) + j, t.y))

/-- The tile is retired by the fuses (R144). -/
def State.isRetired (s : State) (t : TileId) : Bool :=
  s.retired (fieldOfTile t) (t.y % 20) == some (t.u % 21)

/-- Logical coordinates for records, (0xFFFF, 0xFFFF) where the tile has none. -/
def State.logXY (s : State) (t : TileId) : Nat × Nat := (s.logical t).getD (0xFFFF, 0xFFFF)

/-! ### Emissions, free values, log -/

/-- Send something outward. -/
def State.emit (s : State) (e : Emission) : State := { s with out := s.out ++ [e] }

/-- Answer a command's caller. -/
def State.reply (s : State) (c : Caller) (code : Nat) : State := s.emit (.status c code)

/-- Advance the counter of free values. -/
def State.useFree (s : State) (n : Nat) : State := { s with free := s.free + n }

/-- Number of the next log entry (R376). -/
def State.nextSeq (s : State) : Nat := if s.odG 0x1110 1 = 0xFFFFFFFF then 0 else s.odG 0x1110 1 + 1

/-- What a log entry says beyond its time and number. `rule` is the rule of the manual that asks for it. -/
structure LogArgs where
  rule : Nat
  status : Nat := 0
  sev : Nat := 0
  source : Nat := 0
  field : Nat := 0xFF
  part : Nat := 0xFF
  data : List Nat := []
deriving DecidableEq, Repr

/-- The entry's contents, reduced for a sealed partition (R376). DESIGN CHOICE, log 21. -/
def State.logEntry (s : State) (a : LogArgs) : LogEntry :=
  if a.part < 32 && s.isSealed a.part then
    { time := s.clkTime, seq := 0, event := 0, status := a.status, severity := a.sev, source := 0xFF,
      field := a.field, part := 0xFF, data := [] }
  else
    { time := s.clkTime, seq := 0, event := a.rule, status := a.status, severity := a.sev, source := a.source,
      field := a.field, part := a.part, data := a.data }

/-- The list with an element appended, the oldest dropped beyond `n`. -/
def ringPush {α : Type} (n : Nat) (l : List α) (a : α) : List α :=
  let m := l ++ [a]
  m.drop (m.length - n)

/-- Append an entry to the RAM log under the next number. -/
def State.logAppend (s : State) (e : LogEntry) : State :=
  let q := s.nextSeq
  ({ s with hub := { s.hub with ramLog := ringPush 8192 s.hub.ramLog { e with seq := q } } }).odSet 0x1110 1 q

/-- Source that holds an event during a management restart (Table 16.1): a field controller for its field and tiles, a
stack controller, a port, the fabric or the management network. -/
def holdKey (a : LogArgs) : Nat :=
  if a.source = 1 ∨ a.source = 2 then 100 + a.field
  else if a.source = 3 then 200 + a.data.headD 0
  else a.source

/-- The hub does not run: a management restart, recovery, or a halt on its ROM key (R371, R373, R374). -/
def Hub.away (h : Hub) : Bool := h.restarting || h.recovery || h.romHalt

/-- Log an event: at once, or held at its source while the hub restarts (R376, Table 16.1). -/
def State.log (s : State) (a : LogArgs) : State :=
  if s.hub.away && a.source != 0 then
    let k := holdKey a
    let h := mget [] s.hub.held k
    if h.length < 64 then
      { s with hub := { s.hub with held := mset [] s.hub.held k (h ++ [s.logEntry a]) } }
    else
      { s with hub := { s.hub with heldLost := mmod 0 s.hub.heldLost k (· + 1) } }
  else s.logAppend (s.logEntry a)

/-- Apply a state change for each element of a list, first to last. -/
def State.forEach {α : Type} (s : State) (l : List α) (f : α → State → State) : State :=
  match l with
  | [] => s
  | a :: r => State.forEach (f a s) r f

/-- The caller holds the device control lock (R290, Table 16.5). -/
def State.holdsLock (s : State) (c : Caller) : Bool :=
  match c with
  | .pf .a => s.hub.lockHolder == 1
  | .pf .b => s.hub.lockHolder == 2
  | .net a p => s.hub.lockHolder == 3 && s.hub.lockPeer == (a, p)
  | .vf _ _ => false

/-- What happens on an empty queue: wafer time runs on by one CLK_CORE cycle where the root PLL is locked (R336), and
nothing else. DESIGN CHOICE, log 2. -/
def idleTick (s : State) : State :=
  if s.odG 0x2200 2 = 1 then { s with clkTime := (s.clkTime + 1) % 2 ^ 64 } else s

end Sys2Proof.Machine
end

