-- ==== Sys2Proof/Machine/FaultOps.lean ====
section
/-!
DEFINITION. Fault records (R133, R181–R183), performance counters and trace (R195, R196, R202): the operations that
every unit of a tile shares.
-/

namespace Sys2Proof.Machine

/-! ### Performance counters -/

/-- Raise the performance counters that count an event (CC_PMC_SEL, Table 7.18). -/
def pmcAdd (c : Core) (sel n : Nat) : Core :=
  let raise := fun m i =>
    if bits c.pmcSel (4 * i + 3) (4 * i) = sel then mmod 0 m i (fun v => satAdd v n 0xFFFFFFFF) else m
  { c with pmc := (List.range 4).foldl raise c.pmc }

/-- The counters of cycles brought up to a CLK_TIME (CC_PMC_SEL, Table 7.18): core cycles, whatever the core does; cycles
in WAIT; and cycles in which RLD, RST or RAMO waits for its response. DESIGN CHOICE, log 135. -/
def pmcSettle (now : Nat) (c : Core) : Core :=
  let n := (now - c.pmcAt) / 2
  let c1 := pmcAdd c 1 n
  let c2 := if c.state = .waiting then pmcAdd c1 3 n else c1
  let c3 := if c.wait ≠ .none then pmcAdd c2 4 n else c2
  { c3 with pmcAt := c.pmcAt + 2 * n }

/-! ### Trace -/

/-- First byte of the trace region: the highest 64 device extents (R138, R196). -/
def State.traceBase (s : State) : Nat := 2 ^ 28 * (s.odG 0x3310 4 - 64)

/-- Bytes of one tile's trace window (OD 0x7000.03). -/
def State.traceWindow (s : State) : Nat := 1024 * s.odG 0x7000 3

/-- One trace record (Table 7.14). -/
def traceRecord (s : State) (t : TileId) (typ : Nat) (data : List Byte) : List Byte :=
  let c := (s.tile t).cc
  let p := s.logXY t
  leBytes 1 typ ++ leBytes 1 (b2n c.traceLost) ++ leBytes 2 c.traceSeq ++ leBytes 2 p.1 ++ leBytes 2 p.2 ++
    leBytes 8 s.clkTime ++ leBytes 4 c.pc.toNat ++ fitB data 12

/-- Write one record to the trace window of logical tile (x, y) (R196): stop or wrap at its end. -/
def State.traceStore (s : State) (t : TileId) (x y : Nat) (rec32 : List Byte) : State :=
  let c := (s.tile t).cc
  let w := s.traceWindow
  let fits := decide (c.tracePos + 32 ≤ w)
  let pos := if fits then c.tracePos else 0
  if c.traceFull then s
  else if fits || s.odG 0x7000 4 == 1 then
    { s with stk := { s.stk with mem := mwrite 0 s.stk.mem (s.traceBase + (160 * y + x) * w + pos) rec32 } }.modCc t
      (fun c => { c with tracePos := pos + 32 })
  else s.modCc t (fun c => { c with traceFull := true })

/-- Make a trace record (R195, R196): written to the tile's window, or held with up to 31 others while no stack can
take it, and dropped with LOST flagged when the 32 places are full. -/
def State.traceWrite (s : State) (t : TileId) (typ : Nat) (data : List Byte) : State :=
  let rec32 := traceRecord s t typ data
  let c := (s.tile t).cc
  let next := fun c : Core => { c with traceSeq := (c.traceSeq + 1) % 65536, traceLost := false }
  match s.logical t with
  | none => s
  | some (x, y) =>
    if s.stk.online.isEmpty || s.stk.selfRefresh then
      if c.traceHold.length < 32 then
        s.modCc t (fun c => next { c with traceHold := c.traceHold ++ [rec32] })
      else (s.modCc t (fun c => { c with traceLost := true })).odAdd 0x7000 8 1
    else
      let s1 := s.forEach (c.traceHold ++ [rec32]) (fun r s => s.traceStore t x y r)
      s1.modCc t (fun c => next { c with traceHold := [] })

/-- Trace mode of a tile: its partition's (R195), off while sealed (Table 7.16). -/
def State.traceMode (s : State) (t : TileId) : Nat :=
  match s.partOfTile t with
  | some p => if s.isSealed p then 0 else s.odP 0x7000 2 p
  | none => 0

/-- Trace an event where the tile's mode asks for it (R195): branches in branch mode only; never while sealed. -/
def State.trace (s : State) (t : TileId) (typ : Nat) (data : List Byte) : State :=
  let m := s.traceMode t
  if m = 0 ∨ (typ = 1 ∧ m < 2) then s else s.traceWrite t typ data

/-! ### Fault records -/

/-- The contents of a fault record (Tables 5.8 and 7.8). -/
structure FaultRec where
  status : Nat
  agent : Nat
  /-- 0 memory, 1 program. -/
  typ : Nat := 1
  detail : Nat := 0
  address : Nat := 0
  loc : Nat := 0
  cause : Nat := 0
deriving DecidableEq, Repr

/-- The 32 bytes of a fault record. -/
def faultBytes (s : State) (t : TileId) (r : FaultRec) : List Byte :=
  let p := s.logXY t
  leBytes 2 r.status ++ leBytes 1 (r.agent + 16 * r.typ) ++ leBytes 1 r.detail ++ leBytes 2 p.1 ++ leBytes 2 p.2 ++
    leBytes 8 r.address ++ leBytes 4 r.loc ++ leBytes 8 s.clkTime ++ leBytes 2 r.cause ++ leBytes 2 0

/-- Latch a fault record in the tile and count it (R133, R183): CC_FAULT, the FAULT bit and event, MV_FAULT for a
memory fault, the partition's last 64 records, the program-fault count and one log entry. -/
def State.latchFault (s : State) (t : TileId) (r : FaultRec) : State :=
  let b := faultBytes s t r
  let core := fun c : Core => pmcAdd { c with faultRec := b, fault := true, events := setBit c.events 7 true } 11 1
  let mem := fun p : Spad => if r.typ = 0 then { p with fault := b } else p
  let s1 := s.modTile t (fun T => { T with cc := core T.cc, sp := mem T.sp })
  let s2 := s1.odAdd 0x3500 4 1
  let s3 := s2.trace t 5 (leBytes 2 r.status ++ leBytes 2 r.cause)
  match s3.partOfTile t with
  | none => s3.log { rule := 183, status := r.status, sev := 2, source := 2, field := fieldOfTile t,
                     data := [r.agent, r.typ] }
  | some p =>
    let old := (s3.blobP 0x3501 3 p).getD []
    let new := old ++ b
    (s3.setBlobP 0x3501 3 p (new.drop (new.length - 2048))).log
      { rule := 183, status := r.status, sev := 2, source := 2, field := fieldOfTile t, part := p,
        data := [r.agent, r.typ] }

/-- Count a fault record that did not reach its sink (R183). -/
def State.faultLost (s : State) (t : TileId) : State :=
  let lost := fun c : Core => { c with flost := true, flostCnt := satAdd c.flostCnt 1 0xFFFFFFFF }
  (s.modTile t (fun T => { T with cc := lost T.cc })).odAdd 0x3500 5 1

/-- The core stops on a fault (R181): its PC stays on the instruction. -/
def State.stopCore (s : State) (t : TileId) : State :=
  s.modTile t (fun T => { T with cc := { pmcSettle s.clkTime T.cc with state := .stoppedFault, wait := .none } })

/-! ### Locks and rotations (R344, R407) -/

/-- Fields locked by activities in progress (OD 0x7101.03). -/
def Hub.locks (h : Hub) : Nat := h.acts.foldl (fun m a => m ||| a.fields) 0

/-- The entries that show locks and queue. -/
def State.showActs (s : State) : State := (s.odSet 0x7101 3 s.hub.locks).odSet 0x7101 2 s.hub.queue.length

/-- The row of a field, 0–19, stops rotating: counted as abandoned (R344). -/
def State.abandonRotation (s : State) (f row : Nat) : State :=
  if mget .idle (s.field f).rot row = .idle then s
  else
    let s1 := (s.modField f (fun x => { x with rot := mset .idle x.rot row .idle })).odAdd 0x2300 0xE 1
    ({ s1 with hub := { s1.hub with acts := s1.hub.acts.filter (fun a => a.kind != ActKind.rotation f row) } }).showActs

/-- Every rotation of a field is abandoned. -/
def State.abandonRotations (s : State) (f : Nat) : State :=
  s.forEach (s.field f).rot (fun e s => s.abandonRotation f e.1)

/-- A write burst reaches a tile: a rotation that copies it is abandoned (R344). -/
def State.burstReaches (s : State) (t : TileId) : State :=
  let f := fieldOfTile t
  let old := fun j : Nat => s.physical (20 * (t.u / 21) + j) t.y == t
  match mget .idle (s.field f).rot (t.y % 20) with
  | .idle => s
  | .copying j => if old j then s.abandonRotation f (t.y % 20) else s
  | .ready j => if old j then s.abandonRotation f (t.y % 20) else s

end Sys2Proof.Machine
end

