-- ==== Sys2Proof/Machine/Flags.lean ====
section
/-!
DEFINITION. Number formats and their arithmetic: FP32, BF16 and FP8 (R49, R102, R109, Table 0.6), saturating integers
(R48, R101, R157), and the exact roundings of R112. A float is computed as an exact dyadic number and rounded once,
to nearest, ties to even.
-/

namespace Sys2Proof.Machine

/-- A float as a number: ± m × 2^e. -/
inductive Fp where
  | nan
  | inf (neg : Bool)
  | fin (neg : Bool) (m : Nat) (e : Int)
deriving DecidableEq, Repr

/-- A NaN (R102, R109): its sign and payload are free. -/
def nan32 : Word := Config.nanBits ||| 0x7F800001

/-- m × 2^e rounded to a float of `p` fraction bits and 8 exponent bits, as the bits of its magnitude. -/
def roundMag (p m : Nat) (e : Int) : Nat :=
  if m = 0 then 0
  else
    let q : Int := max ((Nat.log2 m : Int) + e - p) (-126 - (p : Int))
    let mant :=
      if q ≤ e then m * 2 ^ (e - q).toNat
      else
        let k := (q - e).toNat
        let lo := m % 2 ^ k
        let hi := m / 2 ^ k
        if 2 * lo > 2 ^ k then hi + 1
        else if 2 * lo = 2 ^ k then hi + hi % 2
        else hi
    min (mant + (q + 126 + p).toNat * 2 ^ p) (255 * 2 ^ p)

/-- The number that an FP32 word encodes. -/
def fpOf (w : Word) : Fp :=
  let v := w.toNat
  let f := v % 8388608
  let x := bits v 30 23
  let s := bit v 31
  if x = 255 then (if f = 0 then .inf s else .nan)
  else if x = 0 then .fin s f (-149)
  else .fin s (8388608 + f) ((x : Int) - 150)

/-- FP32 of a number, rounded once. -/
def fp32 (x : Fp) : Word :=
  match x with
  | .nan => nan32
  | .inf s => BitVec.ofNat 32 (b2n s * 2147483648 + 0x7F800000)
  | .fin s m e => BitVec.ofNat 32 (b2n s * 2147483648 + roundMag 23 m e)

/-- BF16 of a number, rounded once, in the upper half of a word. -/
def bf16 (x : Fp) : Word :=
  match x with
  | .nan => nan32 &&& 0xFFFF0000 ||| 0x00010000
  | .inf s => BitVec.ofNat 32 (b2n s * 2147483648 + 0x7F800000)
  | .fin s m e => BitVec.ofNat 32 (b2n s * 2147483648 + roundMag 7 m e * 65536)

/-- The signed numerator of a finite float over 2^e. -/
def fpNum (s : Bool) (m : Nat) : Int := if s then -(m : Int) else (m : Int)

/-- Exact sum. -/
def fpAdd (a b : Fp) : Fp :=
  match a, b with
  | .nan, _ => .nan
  | _, .nan => .nan
  | .inf s, .inf t => if s = t then .inf s else .nan
  | .inf s, .fin _ _ _ => .inf s
  | .fin _ _ _, .inf t => .inf t
  | .fin s m e, .fin t n f =>
    let g := min e f
    let v := fpNum s (m * 2 ^ (e - g).toNat) + fpNum t (n * 2 ^ (f - g).toNat)
    if v = 0 then .fin (s && t) 0 0 else .fin (decide (v < 0)) v.natAbs g

/-- Exact product. -/
def fpMul (a b : Fp) : Fp :=
  match a, b with
  | .nan, _ => .nan
  | _, .nan => .nan
  | .inf s, .inf t => .inf (s != t)
  | .inf s, .fin t n _ => if n = 0 then .nan else .inf (s != t)
  | .fin s m _, .inf t => if m = 0 then .nan else .inf (s != t)
  | .fin s m e, .fin t n f => .fin (s != t) (m * n) (e + f)

/-- The negated number. -/
def fpNeg : Fp → Fp
  | .nan => .nan
  | .inf s => .inf (!s)
  | .fin s m e => .fin (!s) m e

/-- The number without its sign. -/
def fpAbs : Fp → Fp
  | .nan => .nan
  | .inf _ => .inf false
  | .fin _ m e => .fin false m e

/-- Quotient, exact or with a sticky bit far below any rounding position. -/
def fpDiv (a b : Fp) : Fp :=
  match a, b with
  | .nan, _ => .nan
  | _, .nan => .nan
  | .inf _, .inf _ => .nan
  | .inf s, .fin t _ _ => .inf (s != t)
  | .fin s _ _, .inf t => .fin (s != t) 0 0
  | .fin s m e, .fin t n f =>
    if n = 0 then (if m = 0 then .nan else .inf (s != t))
    else
      let k := 64 + Nat.log2 n
      let q := m * 2 ^ k / n
      .fin (s != t) (2 * q + (if m * 2 ^ k % n = 0 then 0 else 1)) (e - f - k - 1)

/-- An integer as a number. -/
def fpInt (v : Int) : Fp := .fin (decide (v < 0)) v.natAbs 0

/-- a < b; false where either is NaN. -/
def fpLt (a b : Fp) : Bool :=
  match a, b with
  | .nan, _ => false
  | _, .nan => false
  | .inf s, .inf t => s && !t
  | .inf s, .fin _ _ _ => s
  | .fin _ _ _, .inf t => !t
  | .fin s m e, .fin t n f =>
    let g := min e f
    decide (fpNum s (m * 2 ^ (e - g).toNat) < fpNum t (n * 2 ^ (f - g).toNat))

/-- a = b; false where either is NaN. -/
def fpEq (a b : Fp) : Bool := a != .nan && b != .nan && !fpLt a b && !fpLt b a

/-- The number is NaN. -/
def fpIsNan (a : Fp) : Bool := a == .nan

/-- The number is finite. -/
def fpFinite : Fp → Bool
  | .fin _ _ _ => true
  | _ => false

/-- Nearest integer, ties to even; none for NaN and infinities. -/
def fpToInt (a : Fp) : Option Int :=
  match a with
  | .fin s m e =>
    if 0 ≤ e then some (fpNum s (m * 2 ^ e.toNat))
    else
      let k := (-e).toNat
      let lo := m % 2 ^ k
      let hi := m / 2 ^ k
      let r := if 2 * lo > 2 ^ k then hi + 1 else if 2 * lo = 2 ^ k then hi + hi % 2 else hi
      some (fpNum s r)
  | _ => none

/-- fp32(a + b). -/
def addW (a b : Word) : Word := fp32 (fpAdd (fpOf a) (fpOf b))

/-- fp32(a × b). -/
def mulW (a b : Word) : Word := fp32 (fpMul (fpOf a) (fpOf b))

/-- fp32(a × b + c), one fused operation. -/
def fmaW (a b c : Word) : Word := fp32 (fpAdd (fpMul (fpOf a) (fpOf b)) (fpOf c))

/-- fp32(a − b). -/
def subW (a b : Word) : Word := fp32 (fpAdd (fpOf a) (fpNeg (fpOf b)))

/-- fp32(a / b), correctly rounded. -/
def divW (a b : Word) : Word := fp32 (fpDiv (fpOf a) (fpOf b))

/-- FP32 maximum of a reduction (R157): NaN if either is, +0 above −0. -/
def maxW (a b : Word) : Word :=
  if fpIsNan (fpOf a) || fpIsNan (fpOf b) then nan32
  else if fpLt (fpOf a) (fpOf b) then b
  else if fpLt (fpOf b) (fpOf a) then a
  else if bit a.toNat 31 then b else a

/-- FP32 minimum, as the maximum with signs turned. -/
def minW (a b : Word) : Word :=
  if fpIsNan (fpOf a) || fpIsNan (fpOf b) then nan32
  else if fpLt (fpOf a) (fpOf b) then a
  else if fpLt (fpOf b) (fpOf a) then b
  else if bit a.toNat 31 then a else b

/-- The signed integer of a word. -/
def sInt (w : Word) : Int := signed 32 w.toNat

/-- The word of an integer. -/
def wInt (v : Int) : Word := BitVec.ofNat 32 (unsign 32 v)

/-- A sum limited to ±(2^n − 1) (R48, R101, R157). -/
def satInt (n : Nat) (v : Int) : Int := clampI (-(2 ^ n - 1 : Int)) (2 ^ n - 1) v

/-- The sum leaves ±(2^n − 1). -/
def satHit (n : Nat) (v : Int) : Bool := satInt n v != v

/-- The number that an FP8 code encodes: E5M2 or E4M3 (Table 0.6). -/
def fp8Of (e5m2 : Bool) (c : Nat) : Fp :=
  let s := bit c 7
  if e5m2 then
    let x := bits c 6 2
    let f := c % 4
    if x = 31 then (if f = 0 then .inf s else .nan)
    else if x = 0 then .fin s f (-16)
    else .fin s (4 + f) ((x : Int) - 17)
  else
    let x := bits c 6 3
    let f := c % 8
    if x = 15 ∧ f = 7 then .nan
    else if x = 0 then .fin s f (-9)
    else .fin s (8 + f) ((x : Int) - 10)

/-- m × 2^e rounded to a small float of `p` fraction bits, lowest exponent `emin`, as magnitude bits, at most `top`. -/
def roundSmall (p : Nat) (emin : Int) (top m : Nat) (e : Int) : Nat :=
  if m = 0 then 0
  else
    let q : Int := max ((Nat.log2 m : Int) + e - p) (emin - (p : Int))
    let mant :=
      if q ≤ e then m * 2 ^ (e - q).toNat
      else
        let k := (q - e).toNat
        let lo := m % 2 ^ k
        let hi := m / 2 ^ k
        if 2 * lo > 2 ^ k then hi + 1 else if 2 * lo = 2 ^ k then hi + hi % 2 else hi
    min (mant + (q - emin + p).toNat * 2 ^ p) top

/-- FP8 of a number (R109): saturates at the largest finite value and keeps NaN, whose sign and code are free.
DESIGN CHOICE, log 23. -/
def fp8 (e5m2 : Bool) (x : Fp) : Nat :=
  match x with
  | .nan => b2n (bit Config.nanBits.toNat 31) * 128 + (if e5m2 then 0x7D + Config.nanBits.toNat % 3 else 0x7F)
  | .inf s => b2n s * 128 + (if e5m2 then 0x7B else 0x7E)
  | .fin s m e => b2n s * 128 + (if e5m2 then roundSmall 2 (-14) 0x7B m e else roundSmall 3 (-6) 0x7E m e)

/-- Quantisation (R49, R109): round half to even, add a zero point, clamp; a NaN gives the zero point. The flag says
that the value was clamped or came from a NaN. -/
def quantise (t : Word) (zp lo hi : Int) : Int × Bool :=
  match fpOf t with
  | .nan => (zp, true)
  | .inf s => (if s then lo else hi, true)
  | .fin s m e =>
    let v := (fpToInt (.fin s m e)).getD 0 + zp
    (clampI lo hi v, clampI lo hi v != v)

/-- A subnormal word flushed to a zero of its sign (R109). -/
def flush (w : Word) : Word := if bits w.toNat 30 23 = 0 then w &&& 0x80000000 else w

/-! ### Functions known within ulps (R109) -/

/-- Exponent of one ulp of a number in [2^k, 2^(k+1)). -/
def ulpExp (k : Int) : Int := max k (-126) - 23

/-- Two numbers differ by at most a bound. -/
def fpNear (a b bound : Fp) : Bool := fpFinite a && !fpLt bound (fpAbs (fpAdd a (fpNeg b)))

/-- m is a power of two. -/
def isPow2 (m : Nat) : Bool := m == 2 ^ Nat.log2 m

/-- y is within 1 ulp of 1 / x, for a finite x that is not zero: |y x − 1| against |x| ulp. -/
def recipOk (x y : Word) : Bool :=
  match fpOf x with
  | .fin _ m e =>
    let k := -(e + Nat.log2 m) - (if isPow2 m then 0 else 1)
    fpFinite (fpOf y) && fpNear (fpMul (fpOf y) (fpOf x)) (fpInt 1) (fpMul (fpAbs (fpOf x)) (.fin false 1 (ulpExp k)))
  | _ => false

/-- The integer square root below 2^bits, bit by bit. -/
def isqrt (n bits r : Nat) : Nat :=
  match bits with
  | 0 => r
  | b + 1 => isqrt n b (if (r + 2 ^ b) * (r + 2 ^ b) ≤ n then r + 2 ^ b else r)

/-- fp32(1 / sqrt(m × 2^e)) for m of at most 25 bits. -/
def rsqrtNear (m : Nat) (e : Int) : Word :=
  let m1 := if e % 2 = 0 then m else 2 * m
  let e1 := if e % 2 = 0 then e else e - 1
  fp32 (.fin false (2 * isqrt (2 ^ 160 / max m1 1) 81 0 + 1) (-81 - e1 / 2))

/-- y is within 1 ulp of 1 / sqrt(m × 2^e): (y − u)² x ≤ 1 ≤ (y + u)² x. -/
def rsqrtOk (m : Nat) (e : Int) (y : Word) : Bool :=
  let l := e + Nat.log2 m
  let k := if l % 2 = 0 then -(l / 2) - (if isPow2 m then 0 else 1) else -((l + 1) / 2)
  let u : Fp := .fin false 1 (ulpExp k)
  let lo := fpAdd (fpOf y) (fpNeg u)
  let hi := fpAdd (fpOf y) u
  let x : Fp := .fin false m e
  let one := fpInt 1
  fpFinite (fpOf y) && (!fpLt (fpInt 0) lo || !fpLt one (fpMul (fpMul lo lo) x)) && fpLt (fpInt 0) hi &&
    !fpLt (fpMul (fpMul hi hi) x) one

/-- ln 2 in units of 2^-80. -/
def ln2Fix : Nat := 837963523372001241319907

/-- Terms of the exponential series of r in units of 2^-80, from term `i` on. -/
def expTerms (r fuel i term acc : Nat) : Nat :=
  match fuel with
  | 0 => acc
  | fuel + 1 => expTerms r fuel (i + 1) (term * r / (2 ^ 80 * (i + 1))) (acc + term)

/-- 2^80 × exp(r / 2^80) for r below ln 2. -/
def expSeries (r : Nat) : Nat := expTerms r 30 0 (2 ^ 80) 0

/-- A number in units of 2^-80, rounded down. -/
def fix80 (x : Fp) : Int :=
  match x with
  | .fin s m e => if 0 ≤ e + 80 then fpNum s (m * 2 ^ (e + 80).toNat) else fpNum s m / 2 ^ (-(e + 80)).toNat
  | _ => 0

/-- exp(x) as m × 2^(k − 80) with m from 2^80 on, k first. -/
def expNear (x : Fp) : Int × Nat :=
  let v := fix80 x
  (v / ln2Fix, expSeries (v % ln2Fix).toNat)

/-- exp2(x) likewise. -/
def exp2Near (x : Fp) : Int × Nat :=
  let v := fix80 x
  (v / 2 ^ 80, expSeries ((v % 2 ^ 80).toNat * ln2Fix / 2 ^ 80))

/-- y is within 2 ulp of m × 2^(k − 80), the error of the approximation added to the bound. -/
def expOk (z : Int × Nat) (y : Word) : Bool :=
  fpNear (fpOf y) (.fin false z.2 (z.1 - 80)) (fpAdd (.fin false 2 (ulpExp z.1)) (.fin false 1 (z.1 - 60)))

/-- A free value where it lies within its bound, else the rounded one. -/
def inBound (ok : Bool) (free near : Word) : Word := if ok then free else near

/-- Rounds half to even a quotient of integers (R80). -/
def roundHalfEven (n : Int) (d : Nat) : Int :=
  let q := n / d
  let r := n - q * d
  if 2 * r > d then q + 1 else if 2 * r = d then q + q % 2 else q

end Sys2Proof.Machine
end

