-- ==== Sys2Proof/Machine/Mesh.lean ====
section
/-!
DEFINITION. The wafer mesh (chapter 06): destination words, injection checks, routing, route tables, reduction,
ejection and refusals.
-/

namespace Sys2Proof.Machine

/-! ### Destination words -/

/-- A destination word as a number (Table 6.2). -/
def destNat (d : Dest) : Nat :=
  d.rop * 2 ^ 48 + d.route * 2 ^ 40 + d.tileY * 2 ^ 32 + d.tileX * 2 ^ 24 + d.window * 2 ^ 21 + d.offset

/-- The fields of a destination word (Table 6.2). -/
def destOf (v : Nat) : Dest where
  rop := bits v 50 48
  route := bits v 47 40
  tileY := bits v 39 32
  tileX := bits v 31 24
  window := bits v 23 21
  offset := bits v 20 0

/-- The destination word of the next 32-byte unit of a message: the OFFSET advances by the window's own unit (R50). -/
def destNext (d : Dest) (w : Nat) : Dest :=
  if d.window = 1 ∨ d.window = 5 then d
  else if d.window = 3 then { d with offset := (d.offset + 16 * w) % 2097152 }
  else if d.window = 4 then { d with offset := (d.offset + w) % 2097152 }
  else { d with offset := (d.offset + 32 * w) % 2097152 }

/-! ### Geometry -/

/-- The neighbour in a direction; none beyond the edge and for L. -/
def neighbour (t : TileId) (d : Dir) : Option TileId :=
  match d with
  | .l => none
  | .w => if t.u = 0 then none else some ⟨t.u - 1, t.y⟩
  | .e => if t.u = 167 then none else some ⟨t.u + 1, t.y⟩
  | .s => if t.y = 0 then none else some ⟨t.u, t.y - 1⟩
  | .n => if t.y = 159 then none else some ⟨t.u, t.y + 1⟩

/-- The port at which a flit sent in a direction arrives. -/
def arrival : Dir → Dir
  | .l => .l
  | .w => .e
  | .e => .w
  | .s => .n
  | .n => .s

/-- Bit of a port in IN and OUT (Table 6.12). -/
def dirBit : Dir → Nat
  | .l => 0
  | .w => 1
  | .s => 2
  | .e => 3
  | .n => 4

/-- Ports in the combination order of R157. -/
def allDirs : List Dir := [.l, .w, .s, .e, .n]

/-- The ports of an IN or OUT field. -/
def dirsOf (v : Nat) : List Dir := allDirs.filter (fun d => bit v (dirBit d))

/-- The numbers from a to b inclusive, in either direction. -/
def span (a b : Nat) : List Nat :=
  if a ≤ b then (List.range (b - a + 1)).map (· + a) else (List.range (a - b + 1)).map (fun i => a - i)

/-- Row y from column a to column b avoids every dark field. -/
def rowClear (dark y a b : Nat) : Bool := (span (a / 21) (b / 21)).all (fun c => !bit dark (8 * (y / 20) + c))

/-- Column u from row a to row b avoids every dark field. -/
def colClear (dark u a b : Nat) : Bool := (span (a / 20) (b / 20)).all (fun r => !bit dark (8 * r + u / 21))

/-- Candidate waypoints around one dark field crossed by column u0 (R150). -/
def detourCols (u0 c : Nat) : List Nat :=
  let lo : Int := 21 * (c : Int) - 1
  let hi : Int := 21 * (c : Int) + 21
  let order := if (u0 : Int) - lo ≤ hi - u0 then [lo, hi] else [hi, lo]
  (order.filter (fun v => decide (0 ≤ v) && decide (v ≤ 167))).map Int.toNat

/-- The waypoint column from (u0, yi) to row `ty` and column `ud` (R150), or none. -/
def waypoint (dark u0 yi ty ud : Nat) : Option Nat :=
  let crossed := (span (yi / 20) (ty / 20)).filter (fun r => bit dark (8 * r + u0 / 21))
  let cand := [u0, ud] ++ crossed.flatMap (fun _ => detourCols u0 (u0 / 21))
  cand.find? (fun w => rowClear dark yi u0 w && colClear dark w yi ty && rowClear dark ty w ud)

/-- A live rim router of a side nearest to the sending tile (R151, Table 6.4), the lower coordinate first on a tie. -/
def rimRouter (dark : Nat) (side : Dir) (t : TileId) : Option TileId :=
  let u := if t.u % 21 = 20 then t.u - 1 else t.u
  let near := fun (at0 : Nat) (place : Nat → TileId) (ok : Nat → Bool) (n : Nat) =>
    let dist := fun v : Nat => if v ≤ at0 then at0 - v else v - at0
    let live := (List.range n).filter (fun v => ok v && !bit dark (fieldOfTile (place v)))
    (live.foldl (fun best v => match best with
      | none => some v
      | some b => if dist v < dist b then some v else some b) none).map place
  match side with
  | .w => near t.y (fun y => ⟨0, y⟩) (fun _ => true) 160
  | .e => near t.y (fun y => ⟨167, y⟩) (fun _ => true) 160
  | .n => near u (fun v => ⟨v, 159⟩) (fun v => v % 21 != 20) 168
  | .s => near u (fun v => ⟨v, 0⟩) (fun v => v % 21 != 20) 168
  | .l => none

/-- Target that a window 6 destination names: 0–15 the stacks, 16 and 17 PCIe Ports A and B, 18 the north and 19 the south
Ethernet ports. It stands in bits [4:0] of OFFSET, which is internal to the device (Table 6.3). DESIGN CHOICE, log 38. -/
def rimTarget (d : Dest) : Nat := d.offset % 32

/-- Side of a rim target (Table 6.4). -/
def targetSide (k : Nat) : Dir :=
  if k < 4 then .w else if k < 8 then .n else if k < 12 then .e else if k < 16 then .s
  else if k = 18 then .n else if k = 19 then .s else .w

/-- Side of a window 6 destination. -/
def rimSide (d : Dest) : Dir := targetSide (rimTarget d)

/-- The router has a rim port in a direction (R159): 640 of them, none north or south at column 21c + 20. -/
def rimPort (t : TileId) (d : Dir) : Bool :=
  match d with
  | .w => t.u == 0
  | .e => t.u == 167
  | .s => t.y == 0 && t.u % 21 != 20
  | .n => t.y == 159 && t.u % 21 != 20
  | .l => false

/-- Code with which a tile's message to a side of the rim is refused (R151, R152): 0 if it can leave. -/
def rimCode (dark : Nat) (side : Dir) (t : TileId) : Nat :=
  match rimRouter dark side t with
  | none => 0x000B
  | some r => if (waypoint dark t.u t.y r.y r.u).isNone then 0x0507 else 0

/-! ### Injection -/

/-- KIND and VN allowed for a window (Table 6.3, R148). DESIGN CHOICE, log 38. -/
def kindAllowed (window kind vn : Nat) : Bool :=
  if kind = 3 ∨ kind = 4 ∨ kind = 5 then vn == 1
  else if vn = 1 then false
  else
    match window with
    | 0 => (kind == 0) || ((kind == 1 || kind == 2) && vn == 0)
    | 1 => kind == 0 && vn == 2
    | 2 => (kind == 0 || kind == 1) && vn == 0
    | 3 => kind == 0 && vn == 2
    | 4 => kind == 0 && vn == 2
    | 5 => kind == 0 && vn == 0
    | _ => true

/-- Checks 1 and 2 of R152: format, then existence of the target. -/
def injectFormat (kind vn : Nat) (d : Dest) : Nat :=
  if kind = 7 ∨ vn = 3 ∨ 5 ≤ d.rop ∨ !kindAllowed d.window kind vn then 0x0002
  else if (d.rop ≠ 0 ∧ d.route = 0) ∨ (d.offset ≠ 0 ∧ (d.window = 1 ∨ d.window = 5) ∧ vn ≠ 1) then 0x0003
  else if 159 < d.tileX ∨ 159 < d.tileY then 0x0501
  else if d.window = 7 ∧ vn ≠ 1 then 0x0503
  else 0

/-- Where a message that passes the format checks goes: the rim router by which it leaves, its waypoint and phase; or the
code of checks 3 and 4 of R152. -/
def State.injectRoute (s : State) (t : TileId) (vn : Nat) (d : Dest) : Except Nat (Option TileId × Nat × Bool) :=
  let dark := s.dark
  if d.window = 6 ∧ vn ≠ 1 then
    match rimRouter dark (rimSide d) t with
    | none => .error 0x000B
    | some r =>
      match waypoint dark t.u t.y r.y r.u with
      | none => .error 0x0507
      | some w => .ok (some r, w, w != t.u)
  else if bit dark (fieldOfLogical d.tileX d.tileY) then .error 0x000B
  else if d.route ≠ 0 then .ok (none, t.u, false)
  else
    match waypoint dark t.u t.y d.tileY (21 * (d.tileX / 20) + d.tileX % 20) with
    | none => .error 0x0507
    | some w => .ok (none, w, w != t.u)

/-- The flits of a message (R144): OFFSET advances from flit to flit, the last is marked. -/
def messageFlits (m : Message) (r : Option TileId × Nat × Bool) (x y p i : Nat) (l : List (List Byte)) : List Flit :=
  match l with
  | [] => []
  | b :: more =>
    { be := m.be, way := r.2.1, id := m.id, srcY := y, srcX := x, kind := m.kind, part := p, phase1 := r.2.2,
      incomplete := false, last := more.isEmpty, vn := m.vn, dest := destNext m.dest i, payload := fitB b 32,
      exit := r.1 } :: messageFlits m r x y p (i + 1) more

/-! ### Input buffers (R146) -/

/-- The route entry of a flit's route at a router (R156). -/
def State.routeEntry (s : State) (t : TileId) (r : Nat) : Nat := mget 0 (s.router t).routes r

/-- The flit's route is a PRIO route at a router (R155). -/
def State.prioAt (s : State) (t : TileId) (f : Flit) : Bool := f.dest.route != 0 && bit (s.routeEntry t f.dest.route) 30

/-- Of two flits of one port, the earlier one stands before the later in a buffer: same network and class, and either both
outside PRIO routes or both on one PRIO route (R146, R155). -/
def State.standsBefore (s : State) (t : TileId) (a b : Dir × Flit) : Bool :=
  a.1 == b.1 && a.2.vn == b.2.vn && a.2.phase1 == b.2.phase1 &&
    (if s.prioAt t a.2 || s.prioAt t b.2 then a.2.dest.route == b.2.dest.route else true)

/-- A port's buffer has a place for the flit (R146): 2 flits in class A, 8 in class B, two of the latter in VN2 kept for
PRIO routes. -/
def State.hasRoom (s : State) (n : TileId) (port : Dir) (f : Flit) : Bool :=
  let same := (s.router n).inq.filter (fun e => e.port == port && e.flit.vn == f.vn && e.flit.phase1 == f.phase1)
  if f.phase1 then decide (same.length < 2)
  else
    decide (same.length < 8) &&
      (f.vn != 2 || s.prioAt n f || decide ((same.filter (fun e => !s.prioAt n e.flit)).length < 6))

/-- A flit takes its place in an input buffer. -/
def State.enter (s : State) (t : TileId) (port : Dir) (f : Flit) : State :=
  s.modRouter t (fun R => { R with inq := R.inq ++ [{ port := port, flit := f, since := s.clkTime }] })

/-- Flits that wait at a router's local and rim ports enter while their buffers have places, in order; the local port is
held during a detour installation (R164). `left` gathers those that still wait. -/
def State.feedFrom (s : State) (t : TileId) (left : List (Dir × Flit)) (l : List (Dir × Flit)) : State :=
  match l with
  | [] => s.modRouter t (fun R => { R with feed := left })
  | e :: r =>
    if left.any (fun x => s.standsBefore t x e) || (e.1 == .l && s.mesh.detour != .idle) || !s.hasRoom t e.1 e.2 then
      s.feedFrom t (left ++ [e]) r
    else (s.enter t e.1 e.2).feedFrom t left r

/-- The waiting flits of a router that have a place enter. -/
def State.pumpFeed (s : State) (t : TileId) : State := s.feedFrom t [] (s.router t).feed

/-- Flits come to a router's local or rim port. -/
def State.feedIn (s : State) (t : TileId) (l : List (Dir × Flit)) : State :=
  (s.modRouter t (fun R => { R with feed := R.feed ++ l })).pumpFeed t

/-- Inject a message at a tile (R152): the checks in order, then its flits enter the router's L input as that has places;
while injection is held the message waits at the port (R164). A tile of no partition, a retired tile and an unused spare
send nothing. The second component is the code of a refused message. -/
def State.inject (s : State) (t : TileId) (m : Message) : State × Option Nat :=
  match s.logical t, s.partOfTile t with
  | some (x, y), some p =>
    if s.isRetired t then (s, none)
    else if injectFormat m.kind m.vn m.dest ≠ 0 then (s, some (injectFormat m.kind m.vn m.dest))
    else if s.mesh.detour ≠ .idle then (s.modTile t (fun T => { T with txHeld := T.txHeld ++ [m] }), none)
    else
      match s.injectRoute t m.vn m.dest with
      | .error c => (s, some c)
      | .ok r => (s.feedIn t ((messageFlits m r x y p 0 m.flits).map (fun f => (Dir.l, f))), none)
  | _, _ => (s, none)

/-- Send a latched fault record to the partition's fault sink, with ID 0 on VN0 (R183); a refusal counts it lost. -/
def State.sendRecord (s : State) (t : TileId) (rec32 : List Byte) : State :=
  if (s.tile t).cc.loaded then
    let m : Message := { kind := 0, vn := 0, id := 0, dest := destOf (s.tile t).cc.fsink, be := BitVec.allOnes 32,
                         flits := [rec32] }
    match s.inject t m with
    | (s1, none) => s1
    | (s1, some _) => s1.faultLost t
  else s

/-- Raise a fault: latch and count its record and send it to the fault sink (R181, R183). DEDUCED, log 43. -/
def State.raiseFault (s : State) (t : TileId) (r : FaultRec) : State :=
  (s.latchFault t r).sendRecord t (faultBytes s t r)

/-- A fault of the core's own instruction: record AGENT 0 with the PC, and the core stops (R181).
DESIGN CHOICE, log 44. -/
def State.coreFault (s : State) (t : TileId) (status fn addr cause : Nat) : State :=
  let r : FaultRec := { status := status, agent := 0, detail := fn % 256, address := addr,
                        loc := (s.tile t).cc.pc.toNat, cause := cause }
  (s.raiseFault t r).stopCore t

/-- A fault record that the hub sends to a partition (R165): kept, counted, logged and put at the fault sink. -/
def State.hubRecord (s : State) (p : Nat) (t : TileId) (r : FaultRec) : State :=
  let b := faultBytes s t r
  let new := (s.blobP 0x3501 3 p).getD [] ++ b
  let s1 := (s.setBlobP 0x3501 3 p (new.drop (new.length - 2048))).odAdd 0x3500 4 1
  let x := bits (s.odP 0x3501 4 p) 7 0
  let y := bits (s.odP 0x3501 4 p) 15 8
  let sink := s.physical x y
  if (s.tile sink).cc.loaded then
    let f : Flit := { be := BitVec.allOnes 32, way := 0, id := 0, srcY := (s.logXY t).2, srcX := (s.logXY t).1, kind := 0,
                      part := p, phase1 := false, incomplete := false, last := true, vn := 0,
                      dest := { rop := 0, route := 0, tileY := y, tileX := x, window := 5, offset := 0 }, payload := b }
    s1.modTile sink (fun T => { T with rx := T.rx ++ [f] })
  else s1

/-! ### Refusals -/

/-- Payload of a refusal flit (Table 6.9). -/
def refusalPayload (s : State) (t : TileId) (f : Flit) (code : Nat) : List Byte :=
  leBytes 2 code ++ leBytes 6 0 ++ leBytes 8 (destNat f.dest) ++ leBytes 1 f.id ++ leBytes 1 (f.kind + 8 * f.vn) ++
    leBytes 1 t.u ++ leBytes 1 t.y ++ leBytes 8 s.clkTime ++ leBytes 4 0

/-- Count a refusal at a router (RT_REFUSE_CNT, OD 0x3400.0C). -/
def State.countRefusal (s : State) (t : TileId) : State :=
  (s.modRouter t (fun R => { R with refuse := satAdd R.refuse 1 0xFFFFFFFF })).odAdd 0x3400 0xC 1

/-- Name of a message for discarding its remaining flits. -/
def dropKey (f : Flit) : Nat × Nat × Nat × Nat × Nat :=
  (f.srcX, f.srcY, f.vn, f.id, destNat { f.dest with offset := 0 })

/-- A VN1 flit made at a router (response or refusal) and sent by R149 and R150; discarded and counted where no
waypoint avoids the dark fields (R165). A refusal has been counted when it was made. -/
def State.sendVn1 (s : State) (t : TileId) (f : Flit) : State :=
  match waypoint s.dark t.u t.y f.dest.tileY (21 * (f.dest.tileX / 20) + f.dest.tileX % 20) with
  | none => if f.kind = 5 then s else s.countRefusal t
  | some w => s.feedIn t [(.l, { f with way := w, phase1 := w != t.u })]

/-- The refusal flit for a flit refused at a router (R166): to the source named in its tag. -/
def refusalFlit (s : State) (t : TileId) (f : Flit) (code : Nat) : Flit :=
  { be := BitVec.allOnes 32, way := t.u, id := f.id, srcY := (s.logXY t).2, srcX := (s.logXY t).1, kind := 5,
    part := f.part, phase1 := false, incomplete := false, last := true, vn := 1,
    dest := { rop := 0, route := 0, tileY := f.srcY, tileX := f.srcX, window := 0, offset := 0 },
    payload := refusalPayload s t f code }

/-- Refuse a flit already taken from its buffer (R166): the rest of its message is discarded as it comes, and a
refusal goes to the source, but never for a refusal or an acknowledgement. -/
def State.refuse (s : State) (t : TileId) (f : Flit) (code : Nat) : State :=
  let s1 := if f.last then s else s.modRouter t (fun R => { R with dropping := R.dropping ++ [dropKey f] })
  let s2 := s1.countRefusal t
  if f.kind = 4 ∨ f.kind = 5 ∨ 159 < f.srcX ∨ 159 < f.srcY then s2 else s2.sendVn1 t (refusalFlit s t f code)

/-! ### Links, buffers and ejection -/

/-- A flit reaches the tile at a router's local port: refused from another partition (R152), else left for the tile;
an incomplete reduction raises 0x0505 (R158). -/
def State.ejectFlit (s : State) (t : TileId) (f : Flit) : State :=
  if s.partOfTile t ≠ some f.part then s.refuse t f 0x0601
  else
    let s1 := s.modTile t (fun T => { T with rx := T.rx ++ [f] })
    if f.incomplete then s1.raiseFault t { status := 0x0505, agent := 9, address := destNat f.dest } else s1

/-- What becomes of a flit sent out of a router in a direction: handed to the rim at a rim port and refused with 0x0502
beyond any other edge (R159), refused towards a dark or marked-down field (0x000B) or over a failed link (0x0506), or
placed in the neighbour's input buffer. -/
def State.sendFlit (s : State) (t : TileId) (d : Dir) (f : Flit) : State :=
  match neighbour t d with
  | none => if rimPort t d then s.emit (.rim d f) else s.refuse t f 0x0502
  | some n =>
    if bit s.dark (fieldOfTile n) || bit s.mesh.down (fieldOfTile n) then s.refuse t f 0x000B
    else if s.mesh.failed.contains ⟨t, d⟩ then s.refuse t f 0x0506
    else s.enter n (arrival d) f

/-- The direction has a place for the flit now: a refusal, the rim and the local port always have. -/
def State.canSend (s : State) (t : TileId) (d : Dir) (f : Flit) : Bool :=
  match neighbour t d with
  | none => true
  | some n =>
    bit s.dark (fieldOfTile n) || bit s.mesh.down (fieldOfTile n) || s.mesh.failed.contains ⟨t, d⟩ ||
      s.hasRoom n (arrival d) f

/-- The copy of a flit for L at a router without a tile (R156): discarded and refused, once for its message. -/
def State.refuseL (s : State) (t : TileId) (f : Flit) : State :=
  let known := (s.router t).droppingL.contains (dropKey f)
  let next := fun l : List (Nat × Nat × Nat × Nat × Nat) =>
    if f.last then dropFirst (· == dropKey f) l else if known then l else l ++ [dropKey f]
  let s1 := s.modRouter t (fun R => { R with droppingL := next R.droppingL })
  if known then s1 else s1.refuse t { f with last := true } 0x0502

/-- A copy of a flit to a port of OUT; L ejects, where the router has a tile (R156). -/
def State.sendCopy (s : State) (t : TileId) (f : Flit) (d : Dir) : State :=
  if d = .l then (if (s.logical t).isNone || s.isRetired t then s.refuseL t f else s.ejectFlit t f)
  else s.sendFlit t d f

/-- A copy of a flit to each of some ports of OUT. -/
def State.sendCopies (s : State) (t : TileId) (outs : List Dir) (f : Flit) : State :=
  s.forEach outs (fun d s => s.sendCopy t f d)

/-- The next move of a unicast flit at a router (R149): a direction with PHASE1 as it leaves, L for ejection, or the
outward port of a rim message. -/
def State.unicastDir (s : State) (t : TileId) (f : Flit) : Dir × Bool :=
  let row := (f.exit.map (·.y)).getD f.dest.tileY
  if f.phase1 && f.way != t.u then (if f.way < t.u then .w else .e, true)
  else if row < t.y then (.s, false)
  else if t.y < row then (.n, false)
  else match f.exit with
  | some r => if r.u < t.u then (.w, false) else if t.u < r.u then (.e, false) else (rimSide f.dest, false)
  | none =>
    let c := f.dest.tileX / 20
    if c < t.u / 21 then (.w, false)
    else if t.u / 21 < c then (.e, false)
    else
      let k := s.rowMapGet t.y c (f.dest.tileX % 20)
      if k < t.u % 21 then (.w, false) else if t.u % 21 < k then (.e, false) else (.l, false)

/-! ### Arbitration (R155, R160) -/

/-- The flits of a list that no earlier one of their buffer stands before. -/
def headsFrom (before : Dir × Flit → Dir × Flit → Bool) (seen : List InFlit) (l : List InFlit) : List InFlit :=
  match l with
  | [] => []
  | e :: r =>
    if seen.any (fun x => before (x.port, x.flit) (e.port, e.flit)) then headsFrom before seen r
    else e :: headsFrom before (e :: seen) r

/-- The flits at the heads of a router's buffers. -/
def State.heads (s : State) (t : TileId) : List InFlit := headsFrom (s.standsBefore t) [] (s.router t).inq

/-- The outputs that a flit still asks for: its next direction, or the ports of OUT by which it has not left. A flit that
its route's entry refuses or combines asks for none. -/
def State.outputsOf (s : State) (t : TileId) (e : InFlit) : List Dir :=
  if e.flit.dest.route = 0 then [(s.unicastDir t e.flit).1]
  else
    let w := s.routeEntry t e.flit.dest.route
    if !bit w 31 || bit w 29 then [] else (dirsOf (bits w 4 0)).filter (fun d => !e.sent.contains d)

/-- A flit as it leaves a router. -/
def State.leaving (s : State) (t : TileId) (f : Flit) : Flit :=
  if f.dest.route = 0 then { f with phase1 := (s.unicastDir t f).2 } else f

/-- Class of a flit at an output (R155). -/
def State.grantClass (s : State) (t : TileId) (f : Flit) : Nat :=
  if s.prioAt t f then 0 else if f.vn = 1 then 1 else if f.vn = 0 then 2 else 3

/-- The flit has waited 64 cycles at its router (R155). -/
def State.aged (s : State) (e : InFlit) : Bool := decide (e.since + 64 ≤ s.clkTime)

/-- Inputs in round-robin order after the one last served (R155). -/
def turnOf (R : Router) (d : Dir) (c : Nat) (port : Dir) : Nat :=
  (dirBit port + 4 - mget 4 R.served (4 * dirBit d + c)) % 5

/-- W_RIM at a tile's router: OD 0x3400.03, halved while its field controller halves it (R340). -/
def State.rimShare (s : State) (t : TileId) : Nat :=
  if (s.field (fieldOfTile t)).rimHalved then max 1 (s.odG 0x3400 3 / 2) else s.odG 0x3400 3

/-- Of two flits that ask for one output, the first goes before the second (R155, R160): PRIO; then a flit that has waited
64 cycles, the longer wait first; then the share of rim and mesh; then the class; then round-robin over the inputs.
DESIGN CHOICE, log 134. -/
def State.goesBefore (s : State) (t : TileId) (d : Dir) (x y : InFlit) : Bool :=
  let R := s.router t
  let turn := fun (c : Nat) =>
    let i := turnOf R d c x.port
    let j := turnOf R d c y.port
    if i ≠ j then decide (i < j)
    else if x.since ≠ y.since then decide (x.since < y.since)
    else if x.flit.phase1 ≠ y.flit.phase1 then x.flit.phase1
    else decide (x.flit.dest.route ≤ y.flit.dest.route)
  let px := s.prioAt t x.flit
  let ax := s.aged x
  let rx := rimPort t x.port
  let cx := s.grantClass t x.flit
  if px != s.prioAt t y.flit then px
  else if px then turn 0
  else if ax != s.aged y then ax
  else if ax && x.since != y.since then decide (x.since < y.since)
  else if rx != rimPort t y.port then rx == decide (mget 0 R.contests (dirBit d) < s.rimShare t)
  else if cx ≠ s.grantClass t y.flit then decide (cx < s.grantClass t y.flit)
  else turn cx

/-- The other flits that ask for an output which has a place for them. -/
def State.rivals (s : State) (t : TileId) (d : Dir) (e : InFlit) : List InFlit :=
  (s.heads t).filter (fun x => x != e && (s.outputsOf t x).contains d && s.canSend t d (s.leaving t x.flit))

/-- The routers of a side of the rim. -/
def State.sideRouters (s : State) (d : Dir) : List TileId := (s.routers.map (fun e => tileAt e.1)).filter (fun t => rimPort t d)

/-- The flits at the rim routers of a side that wait for the crossbar port of a target: each with whether it is PRIO. -/
def State.rimWaiting (s : State) (d : Dir) (k : Nat) : List (Nat × Bool) :=
  (s.sideRouters d).flatMap (fun t =>
    ((s.heads t).filter (fun x => (s.outputsOf t x).contains d && rimTarget x.flit.dest == k)).map
      (fun x => (x.flit.part, s.prioAt t x.flit)))

/-- A partition has grants left in the current round of a crossbar port: its rim weight, OD 0x3400.0F. -/
def State.rimLeft (s : State) (k p : Nat) : Bool := decide (mget 0 s.mesh.rimUsed (32 * k + p) < s.odP 0x3400 0xF p)

/-- The crossbar port of a flit's target takes it now (R160): PRIO flits first, then each partition that waits has its rim
weight of grants in a round. DESIGN CHOICE, log 134. -/
def State.crossbarMay (s : State) (t : TileId) (d : Dir) (f : Flit) : Bool :=
  let k := rimTarget f.dest
  let w := s.rimWaiting d k
  s.prioAt t f || (!w.any (·.2) && (s.rimLeft k f.part || !w.any (fun x => s.rimLeft k x.1)))

/-- The output is granted to a flit now: it has a place, no other flit goes before it, and at a rim port the crossbar takes
it. -/
def State.granted (s : State) (t : TileId) (e : InFlit) (d : Dir) : Bool :=
  s.canSend t d (s.leaving t e.flit) && (s.rivals t d e).all (fun x => s.goesBefore t d e x) &&
    (!rimPort t d || s.crossbarMay t d e.flit)

/-- A grant is noted: the input served, a contest of rim and mesh, and the round of a crossbar port. -/
def State.noteGrant (s : State) (t : TileId) (e : InFlit) (d : Dir) : State :=
  let c := s.grantClass t e.flit
  let contest := c != 0 && (s.rivals t d e).any (fun x => rimPort t x.port != rimPort t e.port)
  let s1 := s.modRouter t (fun R =>
    { R with served := mset 4 R.served (4 * dirBit d + c) (dirBit e.port),
             contests := if contest then mset 0 R.contests (dirBit d) ((mget 0 R.contests (dirBit d) + 1) % 8)
                         else R.contests })
  if rimPort t d && c != 0 then
    let k := rimTarget e.flit.dest
    let used := if s.rimLeft k e.flit.part then s.mesh.rimUsed else s.mesh.rimUsed.filter (fun x => x.1 / 32 != k)
    let next := mmod 0 used (32 * k + e.flit.part) (· + 1)
    { s1 with mesh := { s1.mesh with rimUsed := next } }
  else s1

/-- A flit leaves its input buffer; waiting flits enter. -/
def State.takeIn (s : State) (t : TileId) (e : InFlit) : State :=
  (s.modRouter t (fun R => { R with inq := dropFirst (· == e) R.inq })).pumpFeed t

/-- The flits at the heads of the buffers of one port and network, those of PRIO routes first. -/
def State.headsAt (s : State) (t : TileId) (port : Dir) (vn : Nat) : List InFlit :=
  let l := (s.heads t).filter (fun e => e.port == port && e.flit.vn == vn)
  l.filter (fun e => s.prioAt t e.flit) ++ l.filter (fun e => !s.prioAt t e.flit)

/-! ### Reduction -/

/-- Key of a flit in a reduction (R157). -/
def keyMatches (f : Flit) (k : RedKey) : Bool :=
  k.route == f.dest.route && k.id == f.id && k.window == f.dest.window && k.offset == f.dest.offset

/-- Combine one 32-bit lane (R157): the result and whether an INT32 addition saturated. -/
def combineLane (rop : Nat) (a b : Word) : Word × Bool :=
  match rop with
  | 1 => (wInt (satInt 31 (sInt a + sInt b)), satHit 31 (sInt a + sInt b))
  | 2 => (addW a b, false)
  | 3 => (if sInt a < sInt b then b else a, false)
  | _ => (maxW a b, false)

/-- The 32-bit lanes of a payload. -/
def lanesOf (b : List Byte) : List Word := (List.range 8).map (fun i => BitVec.ofNat 32 (fieldN b (4 * i) 4))

/-- The payload of eight lanes. -/
def bytesOfLanes (l : List Word) : List Byte := l.flatMap (fun w => leBytes 4 w.toNat)

/-- Combine payloads in order (R157): the lanes and the number of saturations. -/
def combineAll (rop : Nat) (acc : List Word) (n : Nat) (l : List (List Byte)) : List Word × Nat :=
  match l with
  | [] => (acc, n)
  | b :: r =>
    let z := (acc.zip (lanesOf b)).map (fun p => combineLane rop p.1 p.2)
    combineAll rop (z.map (·.1)) (n + (z.filter (·.2)).length) r

/-- The contributions of a key in port order L, W, S, E, N. -/
def inPortOrder (k : RedKey) : List Flit :=
  allDirs.filterMap (fun d => (k.contribs.find? (fun c => c.1 == d)).map (·.2))

/-- The reduced flit of a key (R157): the tag of the first contribution in port order, BE all ones. -/
def reducedFlit (k : RedKey) (incomplete : Bool) : Option (Flit × Nat) :=
  match inPortOrder k with
  | [] => none
  | f :: r =>
    let z := combineAll k.rop (lanesOf f.payload) 0 (r.map (·.payload))
    some ({ f with be := BitVec.allOnes 32, incomplete := incomplete || f.incomplete || r.any (·.incomplete),
                   payload := bytesOfLanes z.1 }, z.2)

/-- The combined flit of a key leaves by the outputs that have a place for it; when it has left by all of OUT, its slot is
free. -/
def State.sendKey (s : State) (t : TileId) (k : RedKey) : State :=
  match k.out with
  | none => s
  | some f =>
    let e : InFlit := { port := .l, flit := f, since := s.clkTime, sent := k.sent }
    let outs := (dirsOf (bits (s.routeEntry t k.route) 4 0)).filter (fun d => !k.sent.contains d)
    let go := outs.filter (fun d => s.granted t e d)
    let s1 := (s.forEach go (fun d s => s.noteGrant t e d)).sendCopies t go f
    let k' := { k with sent := k.sent ++ go }
    s1.modRouter t (fun R => { R with keys :=
      if go.length = outs.length then R.keys.filter (· != k) else R.keys.map (fun x => if x = k then k' else x) })

/-- Combine a key (R157): saturations are counted, and its flit is sent as its outputs have places. -/
def State.releaseKey (s : State) (t : TileId) (k : RedKey) (incomplete : Bool) : State :=
  match reducedFlit k incomplete with
  | none => s.modRouter t (fun R => { R with keys := R.keys.filter (· != k) })
  | some (f, n) =>
    let k' := { k with out := some f }
    let s1 := s.modRouter t (fun R => { R with keys := R.keys.map (fun x => if x = k then k' else x) })
    let s2 :=
      if n = 0 then s1
      else (s1.modRouter t (fun R => { R with rsat := satAdd R.rsat n 0xFFFFFFFF, rsatBit := true })).odAdd 0x3400 0xA n
    s2.sendKey t k'

/-- The open key that a contribution belongs to. -/
def openKey (R : Router) (f : Flit) : Option RedKey := R.keys.find? (fun k => keyMatches f k && k.out.isNone)

/-- Code with which a combining router refuses a contribution (R157, R158), 0 if none. -/
def contribCode (R : Router) (port : Dir) (f : Flit) : Nat :=
  if f.dest.rop = 0 then 0x0504
  else if R.released.contains (f.dest.route, f.id, f.dest.window, f.dest.offset) then 0x0509
  else
    match openKey R f with
    | some k => if k.rop ≠ f.dest.rop ∨ k.contribs.any (fun c => c.1 == port) then 0x0504 else 0
    | none => 0

/-- A contribution at a combining router (R157, R158): refused, held by its key, or left waiting for a slot. -/
def State.contribute (s : State) (t : TileId) (e : InFlit) : State :=
  let R := s.router t
  let f := e.flit
  if contribCode R e.port f ≠ 0 then (s.takeIn t e).refuse t f (contribCode R e.port f)
  else
    match openKey R f with
    | some k =>
      let k' := { k with contribs := k.contribs ++ [(e.port, f)] }
      (s.takeIn t e).modRouter t (fun R => { R with keys := R.keys.map (fun x => if x = k then k' else x) })
    | none =>
      if R.keys.length < 32 then
        let k : RedKey := { route := f.dest.route, id := f.id, window := f.dest.window, offset := f.dest.offset,
                            rop := f.dest.rop, contribs := [(e.port, f)] }
        (s.takeIn t e).modRouter t (fun R => { R with keys := R.keys ++ [k] })
      else s

/-! ### Link errors -/

/-- Mark a link failed at both ends (R165): counted, logged, and a record to each partition of its two fields.
DESIGN CHOICE, log 39. -/
def State.failLink (s : State) (t : TileId) (d : Dir) : State :=
  match neighbour t d with
  | none => s
  | some n =>
    if s.mesh.failed.contains ⟨t, d⟩ then s
    else
      let s1 := { s with mesh := { s.mesh with failed := s.mesh.failed ++ [LinkId.mk t d, LinkId.mk n (arrival d)] } }
      let mark := fun R : Router => { R with linkFail := true }
      let s2 := ((s1.modRouter t mark).modRouter n mark).odAdd 0x3400 9 1
      let s3 := s2.log { rule := 165, status := 0x0506, sev := 2, source := 1, field := fieldOfTile t,
                         data := [t.u, t.y, dirBit d] }
      let p := s3.partOfTile t
      let q := s3.partOfTile n
      let owners := (p.toList ++ q.toList).eraseDups
      s3.forEach owners (fun p s => s.hubRecord p t { status := 0x0506, agent := 9 })

/-- What the code of R147 finds on the link over which a flit arrived: corrections and retries are counted, the three
failed ones of a link that fails among them. -/
def State.linkEvent (s : State) (t : TileId) (port : Dir) (e : LinkEvent) : State :=
  match e with
  | .clean => s
  | .corrected n => (s.modRouter t (fun R => { R with lcerr := satAdd R.lcerr n 0xFFFFFFFF })).odAdd 0x3400 7 n
  | .retried n => (s.modRouter t (fun R => { R with lretry := satAdd R.lretry n 0xFFFFFFFF })).odAdd 0x3400 8 n
  | .failed =>
    let s1 := (s.modRouter t (fun R => { R with lretry := satAdd R.lretry 3 0xFFFFFFFF })).odAdd 0x3400 8 3
    match neighbour t port with
    | none => s1
    | some n => s1.failLink n (arrival port)

/-! ### Commands -/

/-- MESSAGE_INJECTION (R152): the message enters the mesh, or its refusal is handed to the tile. -/
def execMessageInjection (t : TileId) (m : Message) (s : State) : Res :=
  guardRes (Instr.wf (.messageInjection t m))
    (match s.inject t m with
     | (s1, none) => s1
     | (s1, some c) => (s1.countRefusal t).emit (.refusal t c (destNat m.dest)))

/-- The route entry refuses a flit (R156): invalid, of another partition, or from a port that IN does not name. -/
def entryRefuses (e : Nat) (port : Dir) (f : Flit) : Bool :=
  !bit e 31 || bits e 28 24 != f.part || !bit (bits e 9 5) (dirBit port)

/-- The copies of a flit leave by the outputs granted now; it frees its place with the last one (R156). -/
def State.forwardCopies (s : State) (t : TileId) (e : InFlit) : State :=
  let outs := s.outputsOf t e
  let go := outs.filter (fun d => s.granted t e d)
  let s1 := s.forEach go (fun d s => s.noteGrant t e d)
  let e' := { e with sent := e.sent ++ go }
  let s2 :=
    if go.length = outs.length then s1.takeIn t e
    else s1.modRouter t (fun R => { R with inq := R.inq.map (fun x => if x = e then e' else x) })
  s2.sendCopies t go e.flit

/-- Forward a flit of a route-table route (R156–R158). -/
def State.forwardRoute (s : State) (t : TileId) (e : InFlit) : State :=
  let w := s.routeEntry t e.flit.dest.route
  if entryRefuses w e.port e.flit then (s.takeIn t e).refuse t e.flit 0x0502
  else if bit w 29 then s.contribute t e
  else s.forwardCopies t e

/-- A flit of a message that is being discarded is discarded; the last one ends it (R166). -/
def State.discard (s : State) (t : TileId) (e : InFlit) : State :=
  (s.takeIn t e).modRouter t (fun R =>
    if e.flit.last then { R with dropping := dropFirst (· == dropKey e.flit) R.dropping } else R)

/-- Forward the flit at the head of a buffer: discarded with its message, by its route's entry, or by the unicast rule; it
stays where its output is not granted, or where it waits for its ejection. -/
def State.forwardFlit (s : State) (t : TileId) (e : InFlit) : State :=
  if (s.router t).dropping.contains (dropKey e.flit) then s.discard t e
  else if e.flit.dest.route ≠ 0 then s.forwardRoute t e
  else
    let d := (s.unicastDir t e.flit).1
    if d ≠ .l ∧ s.granted t e d = true then ((s.noteGrant t e d).takeIn t e).sendFlit t d (s.leaving t e.flit) else s

/-- A flit at the head of a buffer can go on now: it is discarded, refused, combined, or granted an output. -/
def State.mayForward (s : State) (t : TileId) (e : InFlit) : Bool :=
  let R := s.router t
  let w := s.routeEntry t e.flit.dest.route
  if R.dropping.contains (dropKey e.flit) then true
  else if e.flit.dest.route ≠ 0 then
    if entryRefuses w e.port e.flit then true
    else if bit w 29 then
      contribCode R e.port e.flit != 0 || (openKey R e.flit).isSome || decide (R.keys.length < 32)
    else (s.outputsOf t e).isEmpty || (s.outputsOf t e).any (fun d => s.granted t e d)
  else (s.unicastDir t e.flit).1 != .l && s.granted t e (s.unicastDir t e.flit).1

/-- FLIT_FORWARD (R149): a flit at the head of the buffers of an input is routed onward where its output is granted to it
(R155). -/
def execFlitForward (t : TileId) (port : Dir) (vn : Nat) (link : LinkEvent) (s : State) : Res :=
  guardRes (Instr.wf (.flitForward t port vn link))
    (let l := s.headsAt t port vn
     match l with
     | [] => s
     | e :: _ =>
       let s0 := s.linkEvent t port link
       if link = .failed then (s0.takeIn t e).refuse t e.flit 0x0506
       else match l.find? (fun e => s0.mayForward t e) with
         | none => s0
         | some e => s0.forwardFlit t e)

/-- The flit leaves at L now: it is addressed to this tile, and L is granted to it. -/
def State.ejectsNow (s : State) (t : TileId) (e : InFlit) : Bool :=
  e.flit.dest.route == 0 && (s.unicastDir t e.flit).1 == .l && !(s.router t).dropping.contains (dropKey e.flit) &&
    s.granted t e .l

/-- FLIT_EJECTION (R152): a flit at the head of the buffers of an input whose destination is this tile leaves at L. -/
def execFlitEjection (t : TileId) (port : Dir) (vn : Nat) (s : State) : Res :=
  guardRes (Instr.wf (.flitEjection t port vn))
    (match (s.headsAt t port vn).find? (fun e => s.ejectsNow t e) with
     | none => s
     | some e => ((s.noteGrant t e .l).takeIn t e).ejectFlit t e.flit)

/-- The key of a reduction at a router by its name. -/
def State.findKey (s : State) (t : TileId) (route id window offset : Nat) : Option RedKey :=
  (s.router t).keys.find? (fun k => k.route == route && k.id == id && k.window == window && k.offset == offset)

/-- REDUCTION_COMBINE (R157): a key with a flit from each port in IN is combined and sent; a combined flit that waits for
its outputs goes on. -/
def execReductionCombine (t : TileId) (route id window offset : Nat) (s : State) : Res :=
  guardRes (Instr.wf (.reductionCombine t route id window offset))
    (match s.findKey t route id window offset with
     | none => s
     | some k =>
       let ins := dirsOf (bits (s.routeEntry t route) 9 5)
       if k.out.isSome then s.sendKey t k
       else if ins.all (fun d => k.contribs.any (fun c => c.1 == d)) then s.releaseKey t k false else s)

/-- Reduction and response timeouts of a partition are suspended while a partition halt holds (Table 7.15). -/
def State.timeoutsHeld (s : State) (t : TileId) : Bool :=
  match s.partOfTile t with
  | some p => s.odP 0x7000 7 p != 0
  | none => false

/-- REDUCTION_TIMEOUT (R158): an open key is sent with what has arrived, counted, and remembered as released.
DESIGN CHOICE, log 41. -/
def execReductionTimeout (t : TileId) (route id window offset : Nat) (s : State) : Res :=
  guardRes (Instr.wf (.reductionTimeout t route id window offset))
    (match (s.findKey t route id window offset).filter (fun k => k.out.isNone) with
     | none => s
     | some k =>
       if s.timeoutsHeld t then s else
       let s1 := s.releaseKey t k true
       let note := fun R : Router =>
         { R with released := ringPush 32 R.released (route, id, window, offset),
                  rinc := satAdd R.rinc 1 0xFFFFFFFF, rincBit := true }
       (s1.modRouter t note).odAdd 0x3400 0xB 1)

/-- RELEASED_KEY_EXPIRY (R158): a released key is forgotten. -/
def execReleasedKeyExpiry (t : TileId) (route id window offset : Nat) (s : State) : Res :=
  guardRes (Instr.wf (.releasedKeyExpiry t route id window offset))
    (s.modRouter t (fun R => { R with released := dropFirst (· == (route, id, window, offset)) R.released }))

/-- RIM_INGRESS (R151): a message from the rim enters at the rim router of its side for its destination tile; where
that side has no live router it does not enter. It waits while its buffer is full. -/
def execRimIngress (side : Dir) (f : Flit) (s : State) : Res :=
  guardRes (Instr.wf (.rimIngress side f))
    (let target := s.physical (f.dest.tileX % 160) (f.dest.tileY % 160)
     match rimRouter s.dark side target with
     | none => s.emit (.refusal target 0x000B (destNat f.dest))
     | some r =>
       match waypoint s.dark r.u r.y f.dest.tileY (21 * (f.dest.tileX / 20) + f.dest.tileX % 20) with
       | none => s.emit (.refusal target 0x0507 (destNat f.dest))
       | some w =>
         s.feedIn r [(side, { f with way := w, phase1 := w != r.u, exit := none })])

end Sys2Proof.Machine
end

