-- ==== Sys2Proof/Machine/Spad.lean ====
section
/-!
DEFINITION. Scratchpad accesses and the remote access unit (chapter 05: R116–R123, R132, R133; R430).
-/

namespace Sys2Proof.Machine

/-! ### Scratchpad -/

/-- Bytes of a scratchpad from an offset. -/
def spRead (p : Spad) (off n : Nat) : List Byte := mread 0 p.mem off n

/-- Enabled bytes from an offset cover the granule at `g` whole: a full write of it (R120). -/
def coversGranule (off : Nat) (bs : List (Option Byte)) (g : Nat) : Bool :=
  decide (off ≤ g) && decide (g + 8 ≤ off + bs.length) && ((bs.drop (g - off)).take 8).all Option.isSome

/-- The scratchpad with bytes written; a granule replaced whole loses its error (R120). -/
def spWrite (p : Spad) (off : Nat) (bs : List (Option Byte)) : Spad :=
  { p with mem := mwriteOpt 0 p.mem off bs, bad := p.bad.filter (fun g => !coversGranule off bs (8 * g)) }

/-- Offsets of the granules with an uncorrectable error that a range meets. -/
def badIn (p : Spad) (off n : Nat) : List Nat :=
  (p.bad.filter (fun g => decide (off < 8 * g + 8) && decide (8 * g < off + n))).map (8 * ·)

/-- The write enables a byte of word `w`. -/
def touchesWord (off : Nat) (bs : List (Option Byte)) (w : Nat) : Bool :=
  (List.range bs.length).any (fun i => (off + i) / 32 == w && ((bs.drop i).headD none).isSome)

/-- Offsets of the granules that refuse a write (R120): uncorrectable, in a word that it writes, and not replaced whole.
DEDUCED, log 133. -/
def badForWrite (p : Spad) (off : Nat) (bs : List (Option Byte)) : List Nat :=
  (badIn p (off / 32 * 32) (bs.length + 64)).filter (fun g => !coversGranule off bs g && touchesWord off bs (g / 32))

/-- The bytes of a write that are performed: none in a word that holds a granule which refuses it (R120). -/
def eccMask (bad : List Nat) (off : Nat) (bs : List (Option Byte)) : List (Option Byte) :=
  bs.mapIdx (fun i b => if bad.any (fun g => g / 32 == (off + i) / 32) then none else b)

/-- Every byte enabled. -/
def enabled (bs : List Byte) : List (Option Byte) := bs.map some

/-- Slots of a ring. -/
def ringSlots (m : Mover) : Nat := 2 ^ m.sizeLog2

/-- Scratchpad offset of the slot of a ring count (R127). -/
def slotAddr (m : Mover) (count : Nat) : Nat := m.base * 32 + count % ringSlots m * 32

/-- In-hand and waiting descriptors: TAIL − DONE modulo 2^16. -/
def guardedCount (m : Mover) : Nat := (m.tail + 65536 - m.done) % 65536

/-- A byte range meets a guarded slot of a channel: a slot of a count from DONE to TAIL − 1 (R127). -/
def meetsGuard (m : Mover) (off n : Nat) : Bool :=
  (List.range (min (guardedCount m) (ringSlots m))).any (fun i =>
    let a := slotAddr m (m.done + i)
    decide (off < a + 32) && decide (a < off + n))

/-- The channel whose guarded slots a range meets. -/
def guardOf (T : Tile) (off n : Nat) : Option Nat :=
  (List.range 4).find? (fun ch => meetsGuard (mget {} T.mv ch) off n)

/-- A memory fault record (R133), counted for its status: misaligned accesses and ring violations in the dictionary. -/
def State.memFault (s : State) (t : TileId) (status agent addr loc : Nat) : State :=
  let s1 :=
    if status = 0x0401 then (s.modSp t (fun p => { p with misalign := true })).odAdd 0x3300 6 1
    else if status = 0x0405 then s.odAdd 0x3300 7 1
    else s
  s1.raiseFault t { status := status, agent := agent, typ := 0, address := addr, loc := loc }

/-- An access meets the uncorrectable granule at `g` (R120): counted, its address latched, a fault record. -/
def State.granuleFault (s : State) (t : TileId) (agent loc g : Nat) : State :=
  ((s.modSp t (fun p => { p with uerr := true, uerrCnt := satAdd p.uerrCnt 1 0xFFFFFFFF, uerrAddr := g })).odAdd
    0x3300 5 1).memFault t 0x0403 agent g loc

/-- A write word by word (R119, R120): a word whose uncorrectable granule it does not replace stays as it is. -/
def State.spPut (s : State) (t : TileId) (agent loc off : Nat) (bs : List (Option Byte)) : State :=
  match badForWrite (s.tile t).sp off bs with
  | [] => s.modSp t (fun p => spWrite p off bs)
  | g :: r =>
    (s.forEach (g :: r) (fun g s => s.granuleFault t agent loc g)).modSp t
      (fun p => spWrite p off (eccMask (g :: r) off bs))

/-- The agent of a write is a mover channel, which alone may write guarded slots (R127). -/
def isMover (agent : Nat) : Bool := decide (1 ≤ agent) && decide (agent ≤ 4)

/-- A write to the scratchpad (R119, R128): dropped with 0x0405 where an agent other than the mover meets a guarded ring
slot, else performed. `loc` is the WHERE of its fault record. -/
def State.spStore (s : State) (t : TileId) (agent loc off : Nat) (bs : List (Option Byte)) : State :=
  match if isMover agent then none else guardOf (s.tile t) off bs.length with
  | some ch => (s.modMv t ch (fun m => { m with violation := true })).memFault t 0x0405 agent off loc
  | none => s.spPut t agent loc off bs

/-- A read of the scratchpad (R120): the bytes, those of a word with an uncorrectable granule free, and 0 or 0x0403. -/
def State.spGet (s : State) (t : TileId) (agent loc off n : Nat) : State × List Byte × Nat :=
  let p := (s.tile t).sp
  match badIn p off n with
  | [] => (s, spRead p off n, 0)
  | g :: r =>
    ((s.forEach (g :: r) (fun g s => s.granuleFault t agent loc g)).useFree n,
      (spRead p off n).mapIdx (fun i b =>
        if (g :: r).any (fun g => g / 32 == (off + i) / 32) then Config.freeByte (s.free + i) else b), 0x0403)

/-- The scratchpad as a unit that reads it sees it: words with an uncorrectable granule are free (R120). -/
def spView (free : Nat) (p : Spad) : Spad :=
  p.bad.foldl (fun q g =>
    { q with mem := mwrite 0 q.mem (g / 4 * 32) ((List.range 32).map (fun i => Config.freeByte (free + i))) }) p

/-- Every uncorrectable granule that some of the ranges meet is met, once (R120). -/
def State.meetRanges (s : State) (t : TileId) (agent : Nat) (l : List (Nat × Nat)) : State :=
  s.forEach (l.flatMap (fun r => badIn (s.tile t).sp r.1 r.2)).eraseDups (fun g s => s.granuleFault t agent 0 g)

/-- Code of a write: 0x0403 where a granule refuses it. -/
def storeCode (p : Spad) (off : Nat) (bs : List (Option Byte)) : Nat := if (badForWrite p off bs).isEmpty then 0 else 0x0403

/-! ### One local access (R117–R120) -/

/-- AGENT of a memory fault record (Tables 5.8 and 7.8). -/
def agentNum : SpAgent → Nat
  | .tensor => 5
  | .heldLoad => 5
  | .vector => 6
  | .post => 10
  | .mover ch => 1 + ch
  | .remote => 7
  | .core => 0

/-- Natural alignment of a control-core access (Table 5.7). -/
def coreAligned (a : SpAccess) : Bool :=
  match a.agent with
  | .core => (a.len == 1 || a.len == 2 || a.len == 4) && a.offset % a.len == 0
  | _ => true

/-- What a granule that an access finds upset does to counters and contents before the access (R120): a single error is
corrected and counted; a double one, or a wider one that the code takes for one, stands in the granule; a wider one that
it does not so take leaves other data. -/
def State.eccEffect (s : State) (t : TileId) (e : EccFind) : State :=
  let corrected := fun s : State =>
    (s.modSp t (fun p => { p with cerr := true, cerrCnt := satAdd p.cerrCnt 1 0xFFFFFFFF })).odAdd 0x3300 4 1
  let upset := fun g : Nat => s.modSp t (fun p => { p with bad := g / 8 :: p.bad.filter (· != g / 8) })
  match e with
  | .single _ => corrected s
  | .double g => upset g
  | .multi g asDouble counted kept =>
    if asDouble then upset g
    else
      let s1 := if kept.length = 8 then s.modSp t (fun p => spWrite p g (enabled kept)) else s
      if counted then corrected s1 else s1

/-- SCRATCHPAD_ACCESS (R117): a local access with its waits and the upsets it finds. -/
def execScratchpadAccess (t : TileId) (acc : SpAccess) (s : State) : Res :=
  guardRes (Instr.wf (.scratchpadAccess t acc))
    (let loc := if acc.agent = .core then (s.tile t).cc.pc.toNat else 0
     let n := match acc.write with
       | some bs => bs.length
       | none => acc.len
     let s1 := s.modSp t (fun p => { p with waitCnt := satAdd p.waitCnt acc.waited 0xFFFFFFFF })
     if !coreAligned acc then s1.memFault t 0x0401 0 acc.offset loc
     else if 0x200000 < acc.offset + n ∨ 0x200000 ≤ acc.offset then
       s1.memFault t 0x0402 (agentNum acc.agent) acc.offset loc
     else
       let s2 := s1.forEach acc.ecc (fun e s => s.eccEffect t e)
       match acc.write with
       | none => (s2.spGet t (agentNum acc.agent) loc acc.offset n).1
       | some bs => s2.spStore t (agentNum acc.agent) loc acc.offset bs)

/-! ### Taking flits at the local port -/

/-- The tile takes a flit from its local port. DESIGN CHOICE, log 126. -/
def State.takeRx (s : State) (t : TileId) (p : Flit → Bool) : State :=
  s.modTile t (fun T => { T with rx := dropFirst p T.rx })

/-- Two flits of one source that take effect in the order sent (R154): on one network, or on one route. -/
def oneStream (f g : Flit) : Bool := f.srcX == g.srcX && f.srcY == g.srcY && f.vn == g.vn && f.dest.route == g.dest.route

/-- No older flit of the same stream waits at the local port before the first one that a command may take. -/
def rxTurn (T : Tile) (p : Flit → Bool) : Bool :=
  match T.rx.find? p with
  | none => true
  | some f => T.rx.find? (oneStream f) == some f

/-- The command takes its flit when it is that flit's turn (R154); before, the flit waits. -/
def State.inTurn (s : State) (t : TileId) (p : Flit → Bool) (go : State) : State := if rxTurn (s.tile t) p then go else s

/-- The tile takes a whole message for a window from its local port: flits from one source up to the last. -/
def takeMessage (p : Flit → Bool) (l : List Flit) : List Flit :=
  match l with
  | [] => []
  | f :: r => if p f then (if f.last then r else takeMessage p r) else f :: takeMessage p r

/-- The acknowledgement or read data for a flit (R430), made at the tile that served it. -/
def responseFlit (s : State) (t : TileId) (f : Flit) (kind : Nat) (last : Bool) (payload : List Byte) : Flit :=
  { be := BitVec.allOnes 32, way := t.u, id := f.id, srcY := (s.logXY t).2, srcX := (s.logXY t).1, kind := kind,
    part := f.part, phase1 := false, incomplete := false, last := last, vn := 1,
    dest := { rop := 0, route := 0, tileY := f.srcY, tileX := f.srcX, window := 0, offset := 0 }, payload := payload }

/-- One acknowledgement after the last flit of a write with ID ≠ 0 is visible (R154); no acknowledgement travels for a
route-table stream, whose ID is a sequence number. -/
def State.ackWrite (s : State) (t : TileId) (f : Flit) : State :=
  if f.id ≠ 0 ∧ f.last = true ∧ ¬(f.vn = 2 ∧ f.dest.route ≠ 0) then
    s.sendVn1 t (responseFlit s t f 4 true (List.replicate 32 0))
  else s

/-- The acknowledgement for the flit that a command takes from the local port. -/
def State.ackTaken (s : State) (t : TileId) (T : Tile) (p : Flit → Bool) : State :=
  match T.rx.find? p with
  | some f => s.ackWrite t f
  | none => s

/-! ### Post-stage table window (R57) -/

/-- The 16 bytes of a channel-table entry. -/
def chanBytes (c : Channel) : List Byte := leBytes 4 c.m.toNat ++ leBytes 4 c.b.toNat ++ leBytes 1 c.z ++ leBytes 7 0

/-- The entry that 16 bytes spell: reserved bytes and bits read as zero (R9). -/
def chanOf (b : List Byte) : Channel where
  m := BitVec.ofNat 32 (fieldN b 0 4)
  b := BitVec.ofNat 32 (fieldN b 4 4)
  z := fieldN b 8 1 % 16

/-- The entry is covered by an enabled segment: its format (R53), of the lowest-numbered one where several cover it.
DESIGN CHOICE, log 131. -/
def chanFormat (cb : ChargeBank) (n : Nat) : Option Nat :=
  ((cb.segs.find? (fun e =>
    let g := e.2
    let count := g.arrCount / (max g.blocks 1) * (if g.wfmt < 2 then 512 else 1024)
    g.en && decide (g.chanBase ≤ n) && decide (n < g.chanBase + count))).map (·.2.wfmt))

/-- Zero point admissible for a weight format (Table 2.2). -/
def zOk (fmt z : Nat) : Bool :=
  match fmt with
  | 0 => decide (z ≤ 15)
  | 1 => decide (z ≤ 7)
  | 2 => decide (z ≤ 3)
  | _ => z == 1

/-- The entry that a read returns and a write to part of it is merged into: the last value written. -/
def chanCur (cb : ChargeBank) (n : Nat) : Channel := (mfind cb.chanDefer n).getD (mget {} cb.chans n)

/-- A write of a channel-table entry (R53, R54): refused with 0x0003 for a non-finite M or B or a zero point out of
range; deferred to the token boundary while an enabled segment covers the entry. -/
def writeChan (cb : ChargeBank) (n : Nat) (c : Channel) : ChargeBank × Nat :=
  if !fpFinite (fpOf c.m) || !fpFinite (fpOf c.b) then (cb, 0x0003)
  else
    match chanFormat cb n with
    | some f =>
      if zOk f c.z = false then (cb, 0x0003)
      else if cb.boundary then ({ cb with chans := mset {} cb.chans n c, chanDefer := mdel cb.chanDefer n }, 0)
      else ({ cb with chanDefer := mput cb.chanDefer n c }, 0)
    | none => ({ cb with chans := mset {} cb.chans n c, chanDefer := mdel cb.chanDefer n }, 0)

/-- Bytes with those of an enabled write laid over them. -/
def overlayBytes (old : List Byte) (off : Nat) (bs : List (Option Byte)) : List Byte :=
  old.mapIdx (fun i b => if i < off then b else ((bs.drop (i - off)).headD none).getD b)

/-- A write of up to 32 enabled bytes at an offset of the channel table: entry by entry. Where one entry is refused its
caller stores none. DESIGN CHOICE, log 131. -/
def writeChanBytes (cb : ChargeBank) (off : Nat) (bs : List (Option Byte)) : ChargeBank × Nat :=
  let entries := (span (off / 16) ((off + bs.length - 1) / 16)).filter (fun n =>
    ((List.range bs.length).any (fun i => (off + i) / 16 == n && ((bs.drop i).headD none).isSome)))
  entries.foldl (fun (acc : ChargeBank × Nat) n =>
    let old := chanBytes (chanCur acc.1 n)
    let new :=
      if 16 * n ≤ off then overlayBytes old (off - 16 * n) bs
      else overlayBytes old 0 (bs.drop (16 * n - off))
    let z := writeChan acc.1 n (chanOf new)
    (z.1, if acc.2 = 0 then z.2 else acc.2)) (cb, 0)

/-- A byte of the post-stage table window: channel table, then column-sum memory (R57). -/
def tableByte (cb : ChargeBank) (off : Nat) : Byte :=
  if off < 0x20000 then ((chanBytes (chanCur cb (off / 16))).drop (off % 16)).headD 0
  else
    let o := off - 0x20000
    ((leBytes 2 (mget 0 (mget {} cb.arrays (o / 2048)).sums (o % 2048 / 2))).drop (o % 2)).headD 0

/-- Bytes of the post-stage table window. -/
def tableRead (cb : ChargeBank) (off n : Nat) : List Byte := (List.range n).map (fun i => tableByte cb (off + i))

/-! ### Remote access unit -/

/-- Byte enables form one naturally aligned run of 1, 2, 4, 8, 16 or 32 bytes (Table 5.7). -/
def alignedRun (be : Nat) : Bool :=
  [1, 2, 4, 8, 16, 32].any (fun n => (List.range (32 / n)).any (fun i => be == (2 ^ n - 1) * 2 ^ (n * i)))

/-- The bytes of a flit that its BE enables. -/
def beBytes (f : Flit) : List (Option Byte) := f.payload.mapIdx (fun i b => if bit f.be.toNat i then some b else none)

/-- Source of a flit as the WHERE of a record of AGENT 7. -/
def whereSrc (f : Flit) : Nat := f.srcX + 65536 * f.srcY

/-- The place that a flit names in its tile, as an address word (Table 5.5): the scratchpad, or a mesh target. -/
def flitAddr (f : Flit) : Nat := if f.dest.window = 0 then f.dest.offset else 2 ^ 62 + destNat f.dest % 2 ^ 48

/-- A refusal by the remote access unit: a misalignment also makes a memory fault record (R132). -/
def State.remoteRefuse (s : State) (t : TileId) (f : Flit) (code : Nat) : State :=
  let s1 := if code = 0x0401 then s.memFault t 0x0401 7 (flitAddr f) (whereSrc f) else s
  s1.refuse t f code

/-- The tile's partition is sealed, and the logical tile (x, y) is not of it (Table 15.8). -/
def State.sealedFromTile (s : State) (t : TileId) (x y : Nat) : Bool :=
  match s.partOfTile t with
  | none => false
  | some p => s.isSealed p && s.partOfTile (s.physical x y) != some p

/-- Checks of a flit at the remote access unit, before its own: it comes from the tile's partition, and from one of its
tiles while the partition is sealed (R122, Table 15.8). -/
def State.remoteCheck (s : State) (t : TileId) (f : Flit) : Nat :=
  if s.partOfTile t ≠ some f.part then 0x0601
  else if f.kind = 1 ∧ s.sealedFromTile t f.srcX f.srcY = true then 0x0602
  else 0

/-- A write to the scratchpad for a flit, and 0x0403 where a granule refuses it (R120). -/
def State.remoteStore (s : State) (t : TileId) (f : Flit) (off : Nat) (bs : List (Option Byte)) : State × Nat :=
  (s.spStore t 7 (whereSrc f) off bs,
    if (guardOf (s.tile t) off bs.length).isSome then 0 else storeCode (s.tile t).sp off bs)

/-- REMOTE_WRITE (R122, R132): a write to the scratchpad, or to the post-stage table window, whose column-sum memory
refuses it with 0x0006. -/
def execRemoteWrite (t : TileId) (f : Flit) (s : State) : Res :=
  guardRes (Instr.wf (.remoteWrite t f)) (s.inTurn t (· == f)
    (let s1 := s.takeRx t (· == f)
     let off := f.dest.offset / 32 * 32
     if s.remoteCheck t f ≠ 0 then s1.refuse t f (s.remoteCheck t f)
     else if f.kind ≠ 0 ∨ ¬(f.dest.window = 0 ∨ f.dest.window = 2) then s1.refuse t f 0x0002
     else if f.dest.window = 2 ∧ 0x20000 ≤ f.dest.offset ∧ f.dest.offset < 0x80000 then s1.refuse t f 0x0006
     else if f.vn = 0 ∧ alignedRun f.be.toNat = false then s1.remoteRefuse t f 0x0401
     else if f.dest.window = 0 then
       let z := s1.remoteStore t f off (beBytes f)
       if z.2 ≠ 0 then z.1.refuse t f z.2 else z.1.ackWrite t f
     else if 0x80000 ≤ f.dest.offset then s1.refuse t f 0x0402
     else
       let z := writeChanBytes (s1.tile t).cb off (beBytes f)
       if z.2 ≠ 0 then s1.refuse t f z.2 else (s1.modCb t (fun _ => z.1)).ackWrite t f))

/-- A read of a window of a tile for a flit: the scratchpad (R120) or the post-stage tables. -/
def State.windowGet (s : State) (t : TileId) (f : Flit) (off n : Nat) : State × List Byte × Nat :=
  if f.dest.window = 0 then s.spGet t 7 (whereSrc f) off n else (s, tableRead (s.tile t).cb off n, 0)

/-- Bytes of a window. -/
def windowSize (window : Nat) : Nat := if window = 0 then 0x200000 else 0x80000

/-- Checks of a read request (R430). DESIGN CHOICE, log 38. -/
def readCheck (f : Flit) : Nat :=
  let form := fieldN f.payload 0 1
  let count := fieldN f.payload 4 4
  if !zeroRange f.payload 1 3 || !zeroRange f.payload 8 24 || 1 < form || (form == 1 && count != 0) then 0x0002
  else if f.dest.window ≠ 0 ∧ f.dest.window ≠ 2 then 0x0002
  else if form = 0 ∧ (count = 0 ∨ 65536 < count) then 0x0003
  else if (form = 0 ∧ f.dest.offset % 32 ≠ 0) ∨ (form = 1 ∧ f.dest.offset % 4 ≠ 0) then 0x0401
  else if windowSize f.dest.window < f.dest.offset + (if form = 0 then 32 * count else 4) then 0x0402
  else 0

/-- The read-data flits that carry bytes, a word each, the last one marked (R430). -/
def State.sendWords (s : State) (t : TileId) (f : Flit) (l : List (List Byte)) : State :=
  match l with
  | [] => s
  | w :: r => (s.sendVn1 t (responseFlit s t f 3 r.isEmpty (fitB w 32))).sendWords t f r

/-- 32-byte words of a byte string, the last filled up with zeros. -/
def wordsOf (bs : List Byte) : List (List Byte) :=
  (List.range (ceilDiv bs.length 32)).map (fun i => sliceB bs (32 * i) 32)

/-- REMOTE_READ (R430): the words or the 32-bit word asked for return as read data; a read that meets an uncorrectable
granule returns as a refusal. DESIGN CHOICE, log 139. -/
def execRemoteRead (t : TileId) (f : Flit) (s : State) : Res :=
  guardRes (Instr.wf (.remoteRead t f)) (s.inTurn t (· == f)
    (let s1 := s.takeRx t (· == f)
     if s.remoteCheck t f ≠ 0 then s1.refuse t f (s.remoteCheck t f)
     else if f.kind ≠ 1 then s1.refuse t f 0x0002
     else if readCheck f ≠ 0 then s1.remoteRefuse t f (readCheck f)
     else
       let z := s1.windowGet t f f.dest.offset (if fieldN f.payload 0 1 = 0 then 32 * fieldN f.payload 4 4 else 4)
       if z.2.2 ≠ 0 then z.1.refuse t f z.2.2 else z.1.sendWords t f (wordsOf z.2.1)))

/-- Checks of an atomic (R123, R430): window 0 only, a defined operation, zero reserved bytes, natural alignment. -/
def atomicCheck (f : Flit) : Nat :=
  let op := fieldN f.payload 0 1
  if f.kind ≠ 2 ∨ f.dest.window ≠ 0 then 0x0002
  else if 2 < op then 0x0001
  else if !zeroRange f.payload 1 7 || !zeroRange f.payload 24 8 || (op ≤ 1 && !zeroRange f.payload 12 4) ||
      (op == 0 && !zeroRange f.payload 16 8) || (op == 1 && !zeroRange f.payload 20 4) then 0x0002
  else if f.dest.offset % (if op = 2 then 8 else 4) ≠ 0 then 0x0401
  else 0

/-- The new value of an atomic's word (R123). -/
def atomicNew (op old operand expected : Nat) : Nat :=
  if op = 0 then (old + operand) % 2 ^ 32 else if old = expected then operand else old

/-- An atomic of the remote access unit (R123): read and write in one pass, the old value returned. A flit that carries
another defined operation is not this command's. -/
def State.atomic (s : State) (t : TileId) (f : Flit) (op : Nat) : State :=
  let s1 := s.takeRx t (· == f)
  let n := if op = 2 then 8 else 4
  if s.remoteCheck t f ≠ 0 then s1.refuse t f (s.remoteCheck t f)
  else if atomicCheck f ≠ 0 then s1.remoteRefuse t f (atomicCheck f)
  else if fieldN f.payload 0 1 ≠ op then s
  else
    let z := s1.spGet t 7 (whereSrc f) f.dest.offset n
    if z.2.2 ≠ 0 then z.1.refuse t f z.2.2
    else
      let old := leNat z.2.1
      let new := atomicNew op old (fieldN f.payload 8 n) (fieldN f.payload 16 n)
      let y := z.1.remoteStore t f f.dest.offset (enabled (leBytes n new))
      if y.2 ≠ 0 then y.1.refuse t f y.2 else y.1.sendVn1 t (responseFlit y.1 t f 3 true (fitB (leBytes n old) 32))

/-- FETCH_AND_ADD (R123). -/
def execFetchAndAdd (t : TileId) (f : Flit) (s : State) : Res :=
  guardRes (Instr.wf (.fetchAndAdd t f)) (s.inTurn t (· == f) (s.atomic t f 0))

/-- COMPARE_AND_SWAP_32 (R123). -/
def execCompareAndSwap32 (t : TileId) (f : Flit) (s : State) : Res :=
  guardRes (Instr.wf (.compareAndSwap32 t f)) (s.inTurn t (· == f) (s.atomic t f 1))

/-- COMPARE_AND_SWAP_64 (R123). -/
def execCompareAndSwap64 (t : TileId) (f : Flit) (s : State) : Res :=
  guardRes (Instr.wf (.compareAndSwap64 t f)) (s.inTurn t (· == f) (s.atomic t f 2))

/-- VECTOR_QUEUE_WORD (R109, Table 6.3): a word for the vector unit's input queue; it waits at the port while the queue
of 256 entries is full. -/
def execVectorQueueWord (t : TileId) (idx : Nat) (word : List Byte) (s : State) : Res :=
  guardRes (Instr.wf (.vectorQueueWord t idx word))
    (let mine := fun f : Flit => f.dest.window == 4 && f.dest.offset == idx && f.payload == word
     if (s.tile t).vu.queue.length < 256 then
       s.inTurn t mine
         (((s.takeRx t mine).modVu t (fun v => { v with queue := v.queue ++ [(idx, word)] })).ackTaken t (s.tile t) mine)
     else s)

end Sys2Proof.Machine
end

