-- ==== Sys2Proof/Machine/Stack.lean ====
section
/-!
DEFINITION. The memory stacks (chapter 05: R136–R141): partition stack addresses, striping, the device code's outcomes
and failed stacks.
-/

namespace Sys2Proof.Machine

/-- Device address of a partition stack address (R138): none outside the partition's extents. -/
def State.devAddr (s : State) (p a : Nat) : Option Nat :=
  (mfind s.stk.extents (p * 65536 + a / 2 ^ 28)).map (fun e => e * 2 ^ 28 + a % 2 ^ 28)

/-- Stack that holds a device address (R138). -/
def State.stackOf (s : State) (da : Nat) : Nat :=
  let n := s.stk.online.length
  (s.stk.online.drop ((da % 2 ^ 28 / 4096 + da / 2 ^ 28) % (max n 1))).headD 0

/-- State of a stack, OD 0x3311 (R137): 0 online, 1 offline at training, 2 failed in operation. -/
def State.stackState (s : State) (k : Nat) : Nat := s.odG 0x3311 (k + 1)

/-- Bytes of a partition's allocated extents (OD 0x3320.05). -/
def State.stackLimit (s : State) (p : Nat) : Nat := s.odP 0x3320 5 p * 2 ^ 28

/-- Mark a 64-byte unit as holding an uncorrectable error, or as rewritten. -/
def State.setBad (s : State) (unit : Nat) (b : Bool) : State :=
  { s with stk := { s.stk with bad := if b then unit :: s.stk.bad.filter (· != unit)
                                      else s.stk.bad.filter (· != unit) } }

/-- One 64-byte unit as the stack controller meets it (R140): its counts, and 0 or the code that ends the access.
`whole`: a write that covers the unit, which replaces it without reading it. -/
def State.meetUnit (s : State) (da : Nat) (f : UnitFind) (whole : Bool) : State × Nat :=
  if s.stackState (s.stackOf da) ≠ 0 then (s, 0x0408)
  else if whole then (s.setBad (da / 64) false, 0)
  else if f = .uncorrectable ∨ s.stk.bad.contains (da / 64) = true then
    ((s.setBad (da / 64) true).odAdd 0x3310 8 1, 0x0404)
  else
    match f with
    | .onDie => (s.odAdd 0x3310 9 1, 0)
    | .oneSymbol => (s.odAdd 0x3310 7 1, 0)
    | _ => (s, 0)

/-- The units of a range in ascending order, from unit `u` with `n` to go, until one ends the access: the state, the
bytes of the range before that unit, and the code. -/
def State.meetUnits (s : State) (p addr len : Nat) (wr : Bool) (found : List UnitFind) (u n : Nat) :
    State × Nat × Nat :=
  match n with
  | 0 => (s, len, 0)
  | n + 1 =>
    let a := 64 * u
    match s.devAddr p (max a addr) with
    | none => (s, max a addr - addr, 0x0402)
    | some da =>
      let whole := wr && decide (addr ≤ a) && decide (a + 64 ≤ addr + len)
      let z := s.meetUnit da (found.headD .clean) whole
      if z.2 ≠ 0 then (z.1, max a addr - addr, z.2)
      else z.1.meetUnits p addr len wr found.tail (u + 1) n

/-- The units that a range of the partition's space meets. -/
def unitCount (addr len : Nat) : Nat := if len = 0 then 0 else (addr + len - 1) / 64 + 1 - addr / 64

/-- Bytes of a partition's stack space. -/
def State.stackBytes (s : State) (p addr n : Nat) : List Byte :=
  (List.range n).map (fun i => (s.devAddr p (addr + i)).elim 0 (fun da => mget 0 s.stk.mem da))

/-- The stack with bytes written. -/
def State.putStack (s : State) (p addr : Nat) (bs : List Byte) : State :=
  match bs with
  | [] => s
  | b :: r =>
    let s1 := match s.devAddr p addr with
      | none => s
      | some da => { s with stk := { s.stk with mem := mset 0 s.stk.mem da b } }
    s1.putStack p (addr + 1) r

/-- A read of a partition's stack space (R140): the bytes before the unit that ended it, and the code. -/
def State.stackRead (s : State) (p addr len : Nat) (found : List UnitFind) : State × List Byte × Nat :=
  if s.stackLimit p < addr + len then (s, [], 0x0402)
  else
    let z := s.meetUnits p addr len false found (addr / 64) (unitCount addr len)
    (z.1, s.stackBytes p addr z.2.1, z.2.2)

/-- A write of a partition's stack space (R140): the bytes written before the unit that ended it, and the code. -/
def State.stackWrite (s : State) (p addr : Nat) (bs : List Byte) (found : List UnitFind) : State × Nat × Nat :=
  if s.stackLimit p < addr + bs.length then (s, 0, 0x0402)
  else
    let z := s.meetUnits p addr bs.length true found (addr / 64) (unitCount addr bs.length)
    (z.1.putStack p addr (bs.take z.2.1), z.2.1, z.2.2)

/-! ### Accesses of a tile through the rim (R151) -/

/-- Bytes of a range before the first 4 KiB unit whose stack the tile cannot reach, and the code: its side of the rim has
no live router, or no way leads there (R151, R152). From unit `u` with `k` to go. -/
def State.rimUnits (s : State) (t : TileId) (p a n u k : Nat) : Nat × Nat :=
  match k with
  | 0 => (n, 0)
  | k + 1 =>
    let at0 := max (4096 * u) a
    let c := (s.devAddr p at0).elim 0 (fun da => rimCode s.dark (targetSide (s.stackOf da)) t)
    if c ≠ 0 then (at0 - a, c) else s.rimUnits t p a n (u + 1) k

/-- What a tile reaches of a range of its partition's stack space. -/
def State.rimReach (s : State) (t : TileId) (p a n : Nat) : Nat × Nat :=
  if s.dark = 0 then (n, 0) else s.rimUnits t p a n (a / 4096) ((a + n - 1) / 4096 + 1 - a / 4096)

/-- An access that went as far as the rim reaches: its own code, or the rim's. -/
def orRim (z : State × Nat × Nat) (code : Nat) : State × Nat × Nat := (z.1, z.2.1, if z.2.2 ≠ 0 then z.2.2 else code)

/-- A tile's write of its partition's stack space: the bytes written before what ended it, and the code. -/
def State.tileWrite (s : State) (t : TileId) (p a : Nat) (bs : List Byte) : State × Nat × Nat :=
  let r := s.rimReach t p a bs.length
  orRim (s.stackWrite p a (bs.take r.1) []) r.2

/-- STACK_FAILURE (R137): the stack's state becomes 2, and the failure is logged; the stripe is kept. -/
def execStackFailure (stack : Nat) (s : State) : Res :=
  guardRes (Instr.wf (.stackFailure stack))
    (if s.stackState stack = 0 then
       (s.odSet 0x3311 (stack + 1) 2).log { rule := 137, status := 0x0408, sev := 2, source := 3, data := [stack] }
     else s)

/-- One unit that the patrol scrub finds in error (R140). -/
def State.scrubUnit (s : State) (e : Nat × UnitFind) : State :=
  let da := e.1 / 64 * 64
  let z := s.meetUnit da e.2 false
  if z.2 = 0x0404 then
    z.1.log { rule := 140, status := 0x0404, sev := 2, source := 3,
              data := [s.stackOf da, da / 2 ^ 28, da % 2 ^ 28] }
  else z.1

/-- Every unit in error that a patrol scrub meets: those that the command finds, and those known before. -/
def State.scrubFinds (s : State) (found : List (Nat × UnitFind)) : List (Nat × UnitFind) :=
  found ++ (s.stk.bad.filter (fun u => !found.any (fun e => e.1 / 64 == u))).map (fun u => (64 * u, UnitFind.clean))

/-- PATROL_SCRUB (R140): every unit of the online stacks is read; those in error are corrected or logged. It waits for
the hub (Table 16.1). -/
def execPatrolScrub (found : List (Nat × UnitFind)) (s : State) : Res :=
  guardRes (Instr.wf (.patrolScrub found))
    (if s.hub.away then s else s.forEach (s.scrubFinds found) (fun e s => s.scrubUnit e))

end Sys2Proof.Machine
end

