-- ==== Sys2Proof/Machine/Store.lean ====
section
/-!
DEFINITION. The model store of a partition (chapter 10: R258, R262, R263, R265, R277): handles, the sections of a stored
Hamper and their plaintext, and what a read of the partition's stack space by its program gives.
-/

namespace Sys2Proof.Machine

/-! ### Handles -/

/-- A handle of a partition. -/
def handleOf (P : Partition) (h : Nat) : Handle := mget {} P.handles h

/-- A handle changed. -/
def State.modHandle (s : State) (p h : Nat) (f : Handle → Handle) : State :=
  s.modPart p (fun P => { P with handles := mmod {} P.handles h f })

/-- A handle's range meets an uncorrectable unit (R277): the handle is damaged. -/
def State.damage (s : State) (p h : Nat) : State := s.modHandle p h (fun x => { x with st := 5 })

/-! ### Sections (R258, R263) -/

/-- A section-table entry (R185), of a program part or, without an image, of a Hamper (Table 10.2). -/
structure Section' where
  typ : Nat
  image : Nat
  off : Nat
  len : Nat
deriving DecidableEq, Repr

/-- Bytes of a section. -/
def sectBytes (b : List Byte) (x : Section') : List Byte := (b.drop x.off).take x.len

/-- The section table of a Hamper. -/
def hamperSections (b : List Byte) : List Section' :=
  (List.range (fieldN b 12 4)).map (fun i =>
    { typ := fieldN b (64 + 32 * i) 2, image := 0, off := fieldN b (72 + 32 * i) 8, len := fieldN b (80 + 32 * i) 8 })

/-- The section is stored encrypted (Table 10.3). -/
def encrypted (typ : Nat) : Bool := decide (0x0102 ≤ typ) && decide (typ ≤ 0x0105)

/-- Plaintext of consecutive data units (R263). -/
def decryptUnits (key : List Byte) (unit fuel : Nat) (b : List Byte) : List Byte :=
  match fuel with
  | 0 => []
  | fuel + 1 =>
    if b.isEmpty then [] else xtsUnit key unit (b.take 4096) ++ decryptUnits key (unit + 1) fuel (b.drop 4096)

/-- Plaintext of a section of a stored Hamper. -/
def plainSection (key : List Byte) (b : List Byte) (x : Section') : List Byte :=
  if encrypted x.typ then decryptUnits key (x.off / 4096) (x.len / 4096 + 1) (sectBytes b x) else sectBytes b x

/-- The plaintext of the first section of a type. -/
def plainOf (key : List Byte) (b : List Byte) (typ : Nat) : Option (List Byte) :=
  ((hamperSections b).find? (fun x => x.typ == typ)).map (plainSection key b)

/-- The stored bytes of a handle. -/
def State.storedBytes (s : State) (p h : Nat) : List Byte :=
  s.stackBytes p (handleOf (s.part p) h).addr (handleOf (s.part p) h).len

/-- Model key of a handle's Hamper. -/
def State.modelKey (s : State) (p h : Nat) : Option (List Byte) :=
  mfind (s.part p).keys (fieldN (s.stackBytes p (handleOf (s.part p) h).addr 64) 9 1)

/-! ### Reads by programs (R141, R262, R277) -/

/-- Handles whose ranges hold a byte of a range of the partition's stack space. -/
def handlesAt (P : Partition) (a n : Nat) : List Nat :=
  (P.handles.filter (fun e => decide (2 ≤ e.2.st) && decide (a < e.2.addr + e.2.len) && decide (e.2.addr < a + n))).map (·.1)

/-- The sections of the resident base that programs read in place (R262), with their first bytes in the partition's
stack space. -/
def State.placeSections (s : State) (p : Nat) : List (Nat × Section') :=
  let H := handleOf (s.part p) (s.odP 0x5200 7 p)
  ((hamperSections (s.storedBytes p (s.odP 0x5200 7 p))).filter (fun x => x.typ == 0x0104 || x.typ == 0x0105)).map
    (fun x => (H.addr + x.off, x))

/-- The bytes at a partition stack address as a program reads them: KVSCALE and EMBED of the resident base decrypted
(R262). -/
def State.inlinePlain (s : State) (p a : Nat) (bs : List Byte) : List Byte :=
  let h := s.odP 0x5200 7 p
  if (s.part p).program.isNone || !(handlesAt (s.part p) a bs.length).contains h then bs
  else
    let l := (s.placeSections p).map (fun e =>
      (e.1, plainSection ((s.modelKey p h).getD []) (s.storedBytes p h) e.2))
    bs.mapIdx (fun i b =>
      match l.find? (fun e => decide (e.1 ≤ a + i) && decide (a + i < e.1 + e.2.length)) with
      | none => b
      | some e => e.2.getD (a + i - e.1) b)

/-- A request that an error ends at the next step boundary, unless its end is decided (R230, R246, R254): its STATUS and
DETAIL. -/
def State.failReq (s : State) (p r status detail : Nat) : State :=
  s.modPart p (fun P => { P with reqs := P.reqs.map (fun e =>
    if e.1 = r ∧ e.2.st ≠ .ending ∧ e.2.endDue = none then (e.1, { e.2 with endDue := some (status, detail) }) else e) })

/-- A program's read of its partition's stack space: the bytes before the unit that ended it, and the code. A bad unit
damages the Hampers that hold it (R277). -/
def State.programRead (s : State) (p a n : Nat) (found : List UnitFind) : State × List Byte × Nat :=
  let z := s.stackRead p a n found
  let unit := (a + z.2.1.length) / 64 * 64
  let s1 := if z.2.2 = 0x0404 then z.1.forEach (handlesAt (s.part p) unit 64) (fun h s => s.damage p h) else z.1
  (s1, s.inlinePlain p a z.2.1, z.2.2)

/-- The request whose token context a tile holds (Table 9.3). -/
def ctxReq (c : List Byte) : Nat := fieldN c 0 2 % 8192

/-- A tile's read of its partition's stack space: the bytes before what ended it, and the code. A bad unit of KVSCALE or
EMBED ends the request whose token the tile works for (R277). DEDUCED, log 140. -/
def State.tileRead (s : State) (t : TileId) (p a n : Nat) : State × List Byte × Nat :=
  let r := s.rimReach t p a n
  let z := s.programRead p a r.1 []
  let unit := (a + z.2.1.length) / 64 * 64
  let hit := z.2.2 == 0x0404 && (s.placeSections p).any (fun e => decide (unit < e.1 + e.2.len) && decide (e.1 < unit + 64))
  let s1 := if hit && !(s.tile t).ctx.isEmpty then z.1.failReq p (ctxReq (s.tile t).ctx) 0x0404 2 else z.1
  (s1, z.2.1, if z.2.2 ≠ 0 then z.2.2 else r.2)

/-- STACK_ACCESS (R140): a read or a write of a partition's stack space; it waits while the stacks are in self
refresh. -/
def execStackAccess (part addr len : Nat) (write : Option (List Byte)) (found : List UnitFind) (s : State) : Res :=
  guardRes (Instr.wf (.stackAccess part addr len write found))
    (if s.stk.selfRefresh then s
     else
       match write with
       | none =>
         let z := s.programRead part addr len found
         z.1.emit (.stack part addr z.2.2 z.2.1)
       | some bs =>
         let z := s.stackWrite part addr bs found
         z.1.emit (.stack part addr z.2.2 []))

end Sys2Proof.Machine
end

