-- ==== Sys2Proof/Machine/Mover.lean ====
section
/-!
DEFINITION. Movers (chapter 05: R121, R124–R135, R141): rings, descriptors, transfers, halts and pacing.
-/

namespace Sys2Proof.Machine

/-! ### Registers and pacing -/

/-- Occupancy: TAIL − FETCHED modulo 2^16 (R127). -/
def occupancy (m : Mover) : Nat := (m.tail + 65536 - m.fetched) % 65536

/-- In-hand: FETCHED − DONE modulo 2^16. -/
def inHandCount (m : Mover) : Nat := (m.fetched + 65536 - m.done) % 65536

/-- The channel enters FETCHING when occupancy has reached HI (R134). -/
def fetchCheck (m : Mover) : Mover :=
  if m.en && !m.halted && m.failure.isNone && decide (m.hi ≤ occupancy m) then { m with fetching := true } else m

/-- A write of MV_CTRL (Table 5.11): EN going to 1 sets FETCHED and DONE to TAIL, EN = 0 stops fetching, RESUME = 1
clears HALTED (R130). -/
def writeMvCtrl (m : Mover) (v : Nat) : Mover :=
  let m1 :=
    if bit v 0 && !m.en then { m with en := true, fetched := m.tail, done := m.tail }
    else if bit v 0 then m
    else { m with en := false, fetching := false }
  fetchCheck (if bit v 1 then { m1 with halted := false } else m1)

/-- A write of MV_RING (R128, Table 5.11): ignored with CFG_ERR while EN = 1, which is a violation too, or with a size
or base out of range. -/
def writeMvRing (m : Mover) (v : Nat) : Mover :=
  let size := bits v 31 28
  let base := bits v 20 5
  if m.en then { m with cfgErr := true, violation := true }
  else if decide (size < 2) || decide (7 < size) || decide (0x200000 < base * 32 + 2 ^ size * 32) then
    { m with cfgErr := true }
  else { m with sizeLog2 := size, base := base }

/-- A write of a channel's MV_RING: a violation is counted (Table 5.6). -/
def State.writeMvRing (s : State) (t : TileId) (ch v : Nat) : State :=
  let s1 := s.modMv t ch (fun m => Machine.writeMvRing m v)
  if (s.mover t ch).en then s1.odAdd 0x3300 7 1 else s1

/-- A write of MV_PACE (R134): refused with CFG_ERR unless 0 ≤ LO < HI ≤ N and 1 ≤ TIMEOUT. -/
def writeMvPace (m : Mover) (v : Nat) : Mover :=
  let timeout := bits v 31 16
  let hi := bits v 15 8
  let lo := bits v 7 0
  if lo < hi ∧ hi ≤ ringSlots m ∧ 1 ≤ timeout then fetchCheck { m with timeout := timeout, hi := hi, lo := lo }
  else { m with cfgErr := true }

/-- AGENT of a channel's fault records. -/
def mvAgent (ch : Nat) : Nat := 1 + ch

/-- A write of MV_TAIL (R127, Table 5.6): ignored as a ring ownership violation when TAIL − DONE would exceed N. -/
def State.writeMvTail (s : State) (t : TileId) (ch v : Nat) : State :=
  let m := s.mover t ch
  let tail := v % 65536
  if ringSlots m < (tail + 65536 - m.done) % 65536 then
    (s.modMv t ch (fun m => { m with violation := true })).memFault t 0x0405 (mvAgent ch) 0 tail
  else s.modMv t ch (fun m => fetchCheck { m with tail := tail })

/-- TAIL_WRITE (R127). -/
def execTailWrite (t : TileId) (ch : Nat) (value : Word) (s : State) : Res :=
  guardRes (Instr.wf (.tailWrite t ch value)) (s.writeMvTail t ch value.toNat)

/-- CHANNEL_ENABLE (R135). -/
def execChannelEnable (t : TileId) (ch : Nat) (s : State) : Res :=
  guardRes (Instr.wf (.channelEnable t ch)) (s.modMv t ch (fun m => writeMvCtrl m 1))

/-- CHANNEL_DISABLE (R130). -/
def execChannelDisable (t : TileId) (ch : Nat) (s : State) : Res :=
  guardRes (Instr.wf (.channelDisable t ch)) (s.modMv t ch (fun m => writeMvCtrl m 0))

/-- MOVER_RESUME (R130): RESUME = 1 with EN as it stands. -/
def execMoverResume (t : TileId) (ch : Nat) (s : State) : Res :=
  guardRes (Instr.wf (.moverResume t ch)) (s.modMv t ch (fun m => writeMvCtrl m (2 + b2n m.en)))

/-- PACE_WRITE (R134). -/
def execPaceWrite (t : TileId) (ch : Nat) (value : Word) (s : State) : Res :=
  guardRes (Instr.wf (.paceWrite t ch value)) (s.modMv t ch (fun m => writeMvPace m value.toNat))

/-- PACING_TIMEOUT (R134): an idle channel with a waiting descriptor enters FETCHING. DESIGN CHOICE, log 3. -/
def execPacingTimeout (t : TileId) (ch : Nat) (s : State) : Res :=
  guardRes (Instr.wf (.pacingTimeout t ch))
    (s.modMv t ch (fun m =>
      if m.en && !m.halted && m.failure.isNone && decide (1 ≤ occupancy m) then { m with fetching := true } else m))

/-! ### Descriptors -/

/-- Fields of a descriptor (Table 5.4). -/
structure MvDesc where
  opc : Nat
  own : Bool
  control : Bool
  irq : Bool
  fence : Bool
  esz : Nat
  len : Nat
  rows : Nat
  cols : Nat
  src : Nat
  dst : Nat
  srcStride : Nat
  dstStride : Nat
deriving DecidableEq, Repr

/-- The descriptor that 32 bytes spell. -/
def mvDescOf (b : List Byte) : MvDesc where
  opc := fieldN b 0 1
  own := bit (fieldN b 1 1) 0
  control := bit (fieldN b 1 1) 1
  irq := bit (fieldN b 1 1) 2
  fence := bit (fieldN b 1 1) 3
  esz := fieldN b 2 1 % 4
  len := fieldN b 4 3
  rows := fieldN b 4 2
  cols := fieldN b 6 2
  src := fieldN b 8 8
  dst := fieldN b 16 8
  srcStride := fieldN b 24 2
  dstStride := fieldN b 26 2

/-- Bits of an element (Table 5.4). -/
def eszBits (esz : Nat) : Nat := 4 * 2 ^ esz

/-- SPACE of an address word. -/
def spaceOf (w : Nat) : Nat := bits w 63 62

/-- A reserved field of an address word is set, or its SPACE is 3 (Table 5.5). -/
def addrBad (w : Nat) : Bool :=
  match spaceOf w with
  | 0 => bits w 61 21 != 0
  | 1 => bits w 61 48 != 0
  | 2 => bits w 61 44 != 0
  | _ => true

/-- A range of `n` bytes runs past the end of its space (R126). -/
def State.rangeBad (s : State) (p w n : Nat) : Bool :=
  match spaceOf w with
  | 0 => decide (0x200000 < bits w 20 0 + n)
  | 1 =>
    let d := destOf (bits w 47 0)
    if d.window = 0 ∨ d.window = 2 then decide (windowSize d.window < d.offset + n) else false
  | _ => decide (s.stackLimit p < bits w 43 0 + n)

/-- Bytes of `n` elements. -/
def elemBytes (esz n : Nat) : Nat := ceilDiv (n * eszBits esz) 8

/-- Source bytes that a transposed copy spans. -/
def transSpan (d : MvDesc) : Nat := (d.rows - 1) * d.srcStride + elemBytes d.esz d.cols

/-- Reserved fields and address words of a descriptor (Table 5.4): not zero where they must be. -/
def descReserved (d : MvDesc) (b : List Byte) : Bool :=
  let head := bits (fieldN b 1 1) 7 4 != 0 || bits (fieldN b 2 1) 7 2 != 0 || !zeroRange b 3 1 || !zeroRange b 28 4
  match d.opc with
  | 0x20 => head || d.esz != 0 || !zeroRange b 7 1 || !zeroRange b 24 4 || addrBad d.src || addrBad d.dst
  | 0x21 => head || addrBad d.src || addrBad d.dst
  | 0x22 => head || d.esz != 0 || !zeroRange b 7 1 || !zeroRange b 24 4 || !zeroRange b 12 4 || addrBad d.dst
  | _ => head || d.esz != 0 || !zeroRange b 7 1 || !zeroRange b 24 4

/-- Values of a descriptor outside Table 5.4 or R121. -/
def descRange (d : MvDesc) : Bool :=
  match d.opc with
  | 0x20 => d.len == 0
  | 0x22 => d.len == 0
  | 0x21 =>
    d.control || d.rows == 0 || decide (256 < d.rows) || d.cols == 0 || decide (4096 < d.cols) ||
      decide (d.dstStride < elemBytes d.esz d.rows)
  | _ => false

/-- A control-class transfer that Table 5.7 refuses. -/
def descMisaligned (d : MvDesc) : Bool :=
  d.control && ((d.opc == 0x20 && (d.src % 32 != 0 || d.dst % 32 != 0 || d.len % 32 != 0)) ||
    (d.opc == 0x22 && (d.dst % 32 != 0 || d.len % 32 != 0)))

/-- A range of the descriptor runs past its space (R126). -/
def State.descOutside (s : State) (p : Nat) (d : MvDesc) : Bool :=
  match d.opc with
  | 0x20 => s.rangeBad p d.src d.len || s.rangeBad p d.dst d.len
  | 0x22 => s.rangeBad p d.dst d.len
  | 0x21 =>
    s.rangeBad p d.src (transSpan d) ||
      s.rangeBad p d.dst ((d.cols - 1) * d.dstStride + elemBytes d.esz d.rows)
  | _ => false

/-- The code with which the mover refuses a descriptor, 0 if none (R125, R18, R142). -/
def State.descCode (s : State) (p : Nat) (b : List Byte) : Nat :=
  let d := mvDescOf b
  if d.opc ≠ 0x20 ∧ d.opc ≠ 0x21 ∧ d.opc ≠ 0x22 ∧ d.opc ≠ 0x2F then 0x0001
  else if descReserved d b then 0x0002
  else if descRange d then 0x0003
  else if descMisaligned d then 0x0401
  else if s.descOutside p d then 0x0402
  else 0

/-- The source range of a descriptor runs past its space. -/
def State.srcOutside (s : State) (p : Nat) (d : MvDesc) : Bool :=
  (d.opc == 0x20 && s.rangeBad p d.src d.len) || (d.opc == 0x21 && s.rangeBad p d.src (transSpan d))

/-- The offending address of a refused descriptor (R132, R133): the operand that is misaligned or runs past its space,
the source before the destination; else the slot of the descriptor itself. DEDUCED, log 133. -/
def State.descLoc (s : State) (p slot code : Nat) (d : MvDesc) : Nat :=
  if code = 0x0401 then (if d.opc = 0x20 ∧ (d.src % 32 ≠ 0 ∨ d.dst % 32 = 0) then d.src else d.dst)
  else if code = 0x0402 then (if s.srcOutside p d then d.src else d.dst)
  else slot

/-! ### Progress of a descriptor -/

/-- A channel with its descriptor of a ring count set to a phase. -/
def setPhase (m : Mover) (count : Nat) (ph : DescPhase) : Mover :=
  { m with inHand := m.inHand.map (fun d => if d.count = count then { d with phase := ph } else d) }

/-- Descriptors fetched and not started are skipped with 0x0406 behind a failure (R130). -/
def skipFetched (m : Mover) : Mover :=
  { m with inHand := m.inHand.map (fun d => if d.phase = .fetched then { d with phase := .finished 0x0406 0 } else d) }

/-- A descriptor finishes; a non-zero status starts the halt of R130. -/
def finishDesc (m : Mover) (count status done addr : Nat) : Mover :=
  let m1 := setPhase m count (.finished status done)
  if status = 0 then m1
  else skipFetched { m1 with failure := if m1.failure.isSome then m1.failure else some (status, count, addr),
                             fetching := false }

/-- A descriptor finishes on a channel of a tile. -/
def State.finishMv (s : State) (t : TileId) (ch count status done addr : Nat) : State :=
  s.modMv t ch (fun m => finishDesc m count status done addr)

/-- The end of a halt (R130 step 4): nothing is in hand any more, HALTED is set and the record is delivered; that of an
uncorrectable granule was delivered with the access (R120). DEDUCED, log 133. -/
def State.settleMv (s : State) (t : TileId) (ch : Nat) : State :=
  let m := s.mover t ch
  match m.failure with
  | none => s
  | some (status, count, addr) =>
    if m.inHand.isEmpty then
      let s1 := s.modMv t ch (fun m => { m with halted := true, failure := none, fetching := false })
      if status = 0x0403 then s1 else s1.memFault t status (mvAgent ch) addr count
    else s

/-- A failure of a transfer: its status, the bytes or rows completed before it in destination order, and the offending
address word. -/
abbrev MvFail := Nat × Nat × Nat

/-- The earlier of two failures in destination order. -/
def firstFail (a b : Option MvFail) : Option MvFail :=
  match a, b with
  | none, b => b
  | a, none => a
  | some x, some y => if x.2.1 ≤ y.2.1 then some x else some y

/-- A descriptor finishes with all of its work done, or with its failure. -/
def State.finishWith (s : State) (t : TileId) (ch count all : Nat) (fail : Option MvFail) : State :=
  match fail with
  | none => s.finishMv t ch count 0 all 0
  | some e => s.finishMv t ch count e.1 e.2.1 e.2.2

/-- Messages and transactions of a descriptor that are still outstanding. -/
def mvOutstanding (T : Tile) (ch count : Nat) : Bool :=
  T.tx.any (fun x => x.agent == .mover ch count) || (mget {} T.mv ch : Mover).waiting.any (fun w => w.count == count)

/-- A started descriptor whose last transfer has been acknowledged finishes. -/
def State.settleDesc (s : State) (t : TileId) (ch count : Nat) : State :=
  if mvOutstanding (s.tile t) ch count then s
  else
    match (s.mover t ch).inHand.find? (fun d => d.count == count) with
    | some d =>
      match d.phase with
      | .started status done addr => s.finishMv t ch count status done addr
      | _ => s
    | none => s

/-- A part of a started descriptor fails: the first failure in destination order stands. -/
def State.failPart (s : State) (t : TileId) (ch count status pos addr : Nat) : State :=
  let hit := fun ph : DescPhase =>
    match ph with
    | .started st done _ => if st = 0 ∨ pos < done then .started status (min pos done) addr else ph
    | _ => ph
  s.modMv t ch (fun m =>
    { m with inHand := m.inHand.map (fun d => if d.count = count then { d with phase := hit d.phase } else d) })

/-! ### Transactions -/

/-- A transaction ID that no outstanding transaction of the tile uses, from the next one on (R154). -/
def freeId (T : Tile) : Option Nat :=
  ((List.range 255).map (fun i => (T.nextId - 1 + i) % 255 + 1)).find? (fun id => !T.tx.any (fun x => x.id == id))

/-- Send a message under a new transaction ID: the state, and the code of a refusal at injection. -/
def State.sendTx (s : State) (t : TileId) (m : Message) (mk : Nat → Tx) : State × Option Nat :=
  match freeId (s.tile t) with
  | none => (s, none)
  | some id =>
    match s.inject t { m with id := id } with
    | (s1, some c) => (s1.countRefusal t, some c)
    | (s1, none) => (s1.modTile t (fun T => { T with tx := T.tx ++ [mk id], nextId := id % 255 + 1 }), none)

/-! ### Data of a transfer -/

/-- Byte enables of `n` bytes from byte `lo` of a word. -/
def beRun (lo n : Nat) : BitVec 32 := BitVec.ofNat 32 ((2 ^ n - 1) * 2 ^ lo)

/-- The 32-byte words that `n` bytes from an offset meet, as pairs of the bytes before the word and its own bytes. -/
def wordCuts (off n : Nat) : List (Nat × Nat) :=
  let first := 32 - off % 32
  if n ≤ first then [(0, n)]
  else (0, first) :: (List.range (ceilDiv (n - first) 32)).map (fun i => (first + 32 * i, min 32 (n - first - 32 * i)))

/-- A write to the scratchpad word by word (R119): each word that meets a guarded slot is dropped. -/
def State.spStoreWords (s : State) (t : TileId) (agent loc off : Nat) (bs : List (Option Byte)) : State :=
  s.forEach (wordCuts off bs.length) (fun c s => s.spStore t agent loc (off + c.1) ((bs.drop c.1).take c.2))

/-- The naturally aligned runs of 1, 2, 4, 8, 16 or 32 bytes that make up `n` bytes from byte `lo` of a word. -/
def natRuns (fuel lo n : Nat) : List (Nat × Nat) :=
  match fuel with
  | 0 => []
  | fuel + 1 =>
    if n = 0 then []
    else
      let k := ([32, 16, 8, 4, 2].find? (fun k => lo % k == 0 && decide (k ≤ n))).getD 1
      (lo, k) :: natRuns fuel (lo + k) (n - k)

/-- The write messages of a mover's range at a mesh target (R131): part words and whole words, a part word on VN0 in
naturally aligned runs (Table 5.7); one message to a window that takes words only. Each with the bytes before it and its
own bytes. -/
def mvMessages (control : Bool) (d : Dest) (bs : List Byte) : List (Nat × Nat × Message) :=
  let vn := if control ∨ d.window = 2 ∨ d.window = 5 then 0 else 2
  let mk := fun (off : Nat) (be : BitVec 32) (fl : List (List Byte)) =>
    ({ kind := 0, vn := vn, id := 0, dest := { d with offset := off }, be := be, flits := fl } : Message)
  if d.window = 0 ∨ d.window = 2 then
    let lo := d.offset % 32
    let base := d.offset - lo
    let part := fun (word at0 pos n : Nat) =>
      (if vn = 0 then natRuns 32 at0 n else [(at0, n)]).map (fun r =>
        (pos + r.1 - at0, r.2,
          mk word (beRun r.1 r.2) [fitB (List.replicate r.1 0 ++ (bs.drop (pos + r.1 - at0)).take r.2) 32]))
    let h := if lo = 0 then 0 else min (32 - lo) bs.length
    let mid := (bs.length - h) / 32 * 32
    let last := bs.length - h - mid
    let o1 := if lo = 0 then base else base + 32
    (if h = 0 then [] else part base lo 0 h) ++
      (if mid = 0 then [] else [(h, mid, mk o1 (BitVec.allOnes 32) (wordsOf ((bs.drop h).take mid)))]) ++
      (if last = 0 then [] else part (o1 + mid) 0 (h + mid) last)
  else if bs.isEmpty then []
  else [(0, bs.length, mk d.offset (BitVec.allOnes 32) (wordsOf bs))]

/-- Address word of a mesh target (Table 5.5). -/
def meshWord (d : Nat) : Nat := 2 ^ 62 + d % 2 ^ 48

/-- Send one message of a descriptor: none follows a refusal at injection. -/
def State.sendPart (s : State) (t : TileId) (ch : Nat) (w : MvPart) : State :=
  match s.sendTx t w.msg (fun id =>
    { id := id, agent := .mover ch w.count, dest := destNat w.msg.dest, sentAt := s.clkTime, skip := w.pos, want := w.size })
  with
  | (s1, some c) =>
    (s1.failPart t ch w.count c w.pos (meshWord (destNat w.msg.dest))).modMv t ch (fun m =>
      { m with waiting := m.waiting.filter (fun x => x.count != w.count) })
  | (s1, none) => s1

/-- The waiting messages of a channel go out, oldest first, while transaction IDs are free. -/
def State.pumpMv (s : State) (t : TileId) (ch n : Nat) : State :=
  match n with
  | 0 => s
  | n + 1 =>
    match (s.mover t ch).waiting with
    | [] => s
    | w :: r =>
      if (freeId (s.tile t)).isNone then s
      else ((s.modMv t ch (fun m => { m with waiting := r })).sendPart t ch w).pumpMv t ch n

/-- Every waiting message of a channel that can go out does. -/
def State.pumpCh (s : State) (t : TileId) (ch : Nat) : State := s.pumpMv t ch (s.mover t ch).waiting.length

/-- Send the write messages of a descriptor that ends with its work done or with a failure of its source. -/
def State.sendMv (s : State) (t : TileId) (ch count all : Nat) (fail : Option MvFail) (l : List (Nat × Nat × Message)) :
    State :=
  let ph := match fail with
    | none => DescPhase.started 0 all 0
    | some e => .started e.1 e.2.1 e.2.2
  let s1 := s.modMv t ch (fun m => setPhase m count ph)
  let s2 := s1.modMv t ch (fun m => { m with waiting := m.waiting ++ l.map (fun e => MvPart.mk count e.1 e.2.1 e.2.2) })
  (s2.pumpCh t ch).settleDesc t ch count

/-- Address word of the 64-byte unit that holds a partition stack address. -/
def unitWord (a : Nat) : Nat := 2 ^ 63 + a / 64 * 64

/-- The first word of a scratchpad range that fails (R120): the bytes before it and its granule. -/
def spFail (off : Nat) (bad : List Nat) : Option MvFail :=
  (bad.map (fun g => (0x0403, g / 32 * 32 - off, g))).foldl (fun m e => firstFail m (some e)) none

/-- Write the data of a copy or a fill to its destination. `fail` is the failure that ended the source early or that it
met. -/
def State.deliverMv (s : State) (t : TileId) (p ch count : Nat) (d : MvDesc) (data : List Byte) (fail : Option MvFail) :
    State :=
  match spaceOf d.dst with
  | 0 =>
    let off := bits d.dst 20 0
    let bad := badForWrite (s.tile t).sp off (enabled data)
    (s.spStoreWords t (mvAgent ch) count off (enabled data)).finishWith t ch count data.length
      (firstFail fail (spFail off bad))
  | 1 => s.sendMv t ch count data.length fail (mvMessages d.control (destOf (bits d.dst 47 0)) data)
  | _ =>
    let a := bits d.dst 43 0
    let z := s.tileWrite t p a data
    z.1.finishWith t ch count data.length
      (firstFail fail (if z.2.2 = 0 then none else some (z.2.2, z.2.1, unitWord (a + z.2.1))))

/-- Element c of a row of packed elements. -/
def elemAt (esz : Nat) (row : List Byte) (c : Nat) : Nat :=
  if esz = 0 then (if c % 2 = 0 then fieldN row (c / 2) 1 % 16 else fieldN row (c / 2) 1 / 16)
  else fieldN row (c * 2 ^ (esz - 1)) (2 ^ (esz - 1))

/-- The bytes of one destination row of a transposed write (R121): column c of the rows. `old` gives the byte already
at a place, whose upper nibble stays when the row ends in a lower nibble. -/
def transColumn (esz : Nat) (rows : List (List Byte)) (c : Nat) (old : Nat → Byte) : List Byte :=
  let e := rows.map (fun r => elemAt esz r c)
  if esz = 0 then
    (List.range (ceilDiv e.length 2)).map (fun i =>
      let lo := (e.drop (2 * i)).headD 0
      if 2 * i + 1 < e.length then BitVec.ofNat 8 (lo + 16 * (e.drop (2 * i + 1)).headD 0)
      else BitVec.ofNat 8 (lo + (old i).toNat / 16 * 16))
  else e.flatMap (fun v => leBytes (2 ^ (esz - 1)) v)

/-- A transposed write to the scratchpad (R121). -/
def State.transposedWrite (s : State) (t : TileId) (agent loc esz dst stride cols : Nat) (rows : List (List Byte)) :
    State :=
  s.forEach (List.range cols) (fun c s =>
    let o := dst + c * stride
    s.spStoreWords t agent loc o (enabled (transColumn esz rows c (fun i => mget 0 (s.tile t).sp.mem (o + i)))))

/-- Source rows completed before a byte of a destination row. -/
def rowsAt (esz n : Nat) : Nat := n * 8 / eszBits esz

/-- The first failure of a transposed write to the scratchpad, in source rows. -/
def transFail (p : Spad) (d : MvDesc) (rows : Nat) : Option MvFail :=
  let n := elemBytes d.esz rows
  (List.range d.cols).foldl (fun m c =>
    let o := bits d.dst 20 0 + c * d.dstStride
    firstFail m ((spFail o (badForWrite p o (List.replicate n (some 0)))).map
      (fun e => (e.1, rowsAt d.esz e.2.1, e.2.2)))) none

/-- The rows of a transposed copy from row i on that a source gives, and the failure that it met: an uncorrectable stack
unit ends it (R141), an uncorrectable granule does not (R120). -/
def State.readRows (s : State) (t : TileId) (p ch count : Nat) (d : MvDesc) (acc : List (List Byte))
    (fail : Option MvFail) (i n : Nat) : State × List (List Byte) × Option MvFail :=
  match n with
  | 0 => (s, acc, fail)
  | n + 1 =>
    let len := elemBytes d.esz d.cols
    if spaceOf d.src = 0 then
      let o := bits d.src 20 0 + i * d.srcStride
      let z := s.spGet t (mvAgent ch) count o len
      let e := (spFail o (badIn (s.tile t).sp o len)).map (fun e => (e.1, i, e.2.2))
      z.1.readRows t p ch count d (acc ++ [z.2.1]) (firstFail fail e) (i + 1) n
    else
      let a := bits d.src 43 0 + i * d.srcStride
      let z := s.tileRead t p a len
      if z.2.2 ≠ 0 then (z.1, acc, firstFail fail (some (z.2.2, i, unitWord (a + z.2.1.length))))
      else z.1.readRows t p ch count d (acc ++ [z.2.1]) fail (i + 1) n

/-- The columns of a transposed copy written to the stacks from column c on, until a unit ends it (R141). -/
def State.stackColumns (s : State) (t : TileId) (p : Nat) (d : MvDesc) (rows : List (List Byte)) (c n : Nat) :
    State × Option MvFail :=
  match n with
  | 0 => (s, none)
  | n + 1 =>
    let a := bits d.dst 43 0 + c * d.dstStride
    let old := s.stackBytes p a (elemBytes d.esz rows.length)
    let z := s.tileWrite t p a (transColumn d.esz rows c (fun i => (old.drop i).headD 0))
    if z.2.2 ≠ 0 then (z.1, some (z.2.2, rowsAt d.esz z.2.1, unitWord (a + z.2.1)))
    else z.1.stackColumns t p d rows (c + 1) n

/-- The messages of a transposed copy to a mesh target, counted in source rows. A byte enable cannot leave out a nibble:
the upper one of a row that ends in a lower one is free. DESIGN CHOICE, log 139. -/
def transMessages (free : Nat) (d : MvDesc) (rows : List (List Byte)) : List (Nat × Nat × Message) :=
  let t := destOf (bits d.dst 47 0)
  (List.range d.cols).flatMap (fun c =>
    (mvMessages false { t with offset := (t.offset + c * d.dstStride) % 2097152 }
      (transColumn d.esz rows c (fun i => Config.freeByte (free + c + i)))).map
      (fun e => (rowsAt d.esz e.1, rowsAt d.esz e.2.1, e.2.2)))

/-- Write the rows of a transposed copy and finish it (R121). -/
def State.deliverRows (s : State) (t : TileId) (p ch count : Nat) (d : MvDesc) (rows : List (List Byte))
    (fail : Option MvFail) : State :=
  match spaceOf d.dst with
  | 0 =>
    (s.transposedWrite t (mvAgent ch) count d.esz (bits d.dst 20 0) d.dstStride d.cols rows).finishWith t ch count
      rows.length (firstFail fail (transFail (s.tile t).sp d rows.length))
  | 1 => (s.useFree (d.cols + d.rows)).sendMv t ch count rows.length fail (transMessages s.free d rows)
  | _ =>
    let z := s.stackColumns t p d rows 0 d.cols
    z.1.finishWith t ch count rows.length (firstFail fail z.2)

/-- The read request of a mover for `n` bytes at a mesh target (R430): whole words, FORM 0. -/
def readMessage (d : Dest) (n : Nat) : Message where
  kind := 1
  vn := 0
  id := 0
  dest := { d with offset := d.offset / 32 * 32 }
  be := BitVec.allOnes 32
  flits := [fitB (leBytes 4 0 ++ leBytes 4 (ceilDiv (d.offset % 32 + n) 32)) 32]

/-- Ask a mesh target for the source bytes of a descriptor. -/
def State.askMv (s : State) (t : TileId) (ch count src n : Nat) : State :=
  let d := destOf (bits src 47 0)
  match s.sendTx t (readMessage d n) (fun id =>
    { id := id, agent := .mover ch count, dest := destNat d, sentAt := s.clkTime, isRead := true,
      skip := d.offset % 32, want := n }) with
  | (s1, some c) => s1.finishMv t ch count c 0 src
  | (s1, none) => s1.modMv t ch (fun m => setPhase m count (.started 0 n 0))

/-- Move the bytes of a copy (R131). -/
def State.runCopy (s : State) (t : TileId) (p ch count : Nat) (d : MvDesc) : State :=
  match spaceOf d.src with
  | 0 =>
    let o := bits d.src 20 0
    let z := s.spGet t (mvAgent ch) count o d.len
    z.1.deliverMv t p ch count d z.2.1 (spFail o (badIn (s.tile t).sp o d.len))
  | 1 => s.askMv t ch count d.src d.len
  | _ =>
    let a := bits d.src 43 0
    let z := s.tileRead t p a d.len
    z.1.deliverMv t p ch count d z.2.1
      (if z.2.2 = 0 then none else some (z.2.2, z.2.1.length, unitWord (a + z.2.1.length)))

/-- Run a transposed copy (R121). -/
def State.runTransposed (s : State) (t : TileId) (p ch count : Nat) (d : MvDesc) : State :=
  if spaceOf d.src = 1 then s.askMv t ch count d.src (transSpan d)
  else
    let z := s.readRows t p ch count d [] none 0 d.rows
    z.1.deliverRows t p ch count d z.2.1 z.2.2

/-- The 32-bit pattern of a fill repeated over its length (Table 5.4). -/
def fillBytes (b : List Byte) (n : Nat) : List Byte := (List.range n).map (fun i => (sliceB b (8 + i % 4) 1).headD 0)

/-- A descriptor of a channel may start now (R129): every earlier one in hand has started, and DONE has reached its own
count if it carries FENCE; a transaction ID is free for it. -/
def mayStart (T : Tile) (m : Mover) (d : Desc) : Bool :=
  ((m.inHand.find? (fun x => x.phase == .fetched)).map (·.count) == some d.count) && d.phase == .fetched &&
    (!(mvDescOf d.bytes).fence || m.done == d.count) && (freeId T).isSome

/-- Start a descriptor of a channel: it is refused by its code, or `run` performs it. A descriptor of another defined
OPC is not this command's. -/
def State.startMv (s : State) (t : TileId) (ch count opc : Nat) (run : State → Nat → Desc → MvDesc → State) : State :=
  match s.partOfTile t, (s.mover t ch).inHand.find? (fun d => d.count == count) with
  | some p, some d =>
    if !mayStart (s.tile t) (s.mover t ch) d then s
    else
      let c := s.descCode p d.bytes
      let m := mvDescOf d.bytes
      if m.opc ≠ opc ∧ c ≠ 0x0001 then s
      else if c ≠ 0 then s.finishMv t ch count c 0 (s.descLoc p (slotAddr (s.mover t ch) count) c m)
      else run s p d m
  | _, _ => s

/-- COPY (R131). DESIGN CHOICE, log 127. -/
def execCopy (t : TileId) (ch count : Nat) (s : State) : Res :=
  guardRes (Instr.wf (.copy t ch count)) (s.startMv t ch count 0x20 (fun s p _ m => s.runCopy t p ch count m))

/-- TRANSPOSED_COPY (R121). DESIGN CHOICE, log 28. -/
def execTransposedCopy (t : TileId) (ch count : Nat) (s : State) : Res :=
  guardRes (Instr.wf (.transposedCopy t ch count))
    (s.startMv t ch count 0x21 (fun s p _ m => s.runTransposed t p ch count m))

/-- FILL (R125). DESIGN CHOICE, log 127. -/
def execFill (t : TileId) (ch count : Nat) (s : State) : Res :=
  guardRes (Instr.wf (.fill t ch count))
    (s.startMv t ch count 0x22 (fun s p d m => s.deliverMv t p ch count m (fillBytes d.bytes m.len) none))

/-- MARKER (R129): it moves nothing. -/
def execMarker (t : TileId) (ch count : Nat) (s : State) : Res :=
  guardRes (Instr.wf (.marker t ch count))
    (s.startMv t ch count 0x2F (fun s _ _ _ => s.finishMv t ch count 0 0 0))

/-- DESCRIPTOR_FETCH (R134): a FETCHING channel reads one descriptor while fewer than 4 are in hand, none while the tile's
core is halted (Table 7.15); one with OWN = 0 is a ring ownership violation, and the channel halts (R128). A descriptor
in an uncorrectable granule finishes with 0x0403 (R120). -/
def execDescriptorFetch (t : TileId) (ch : Nat) (s : State) : Res :=
  guardRes (Instr.wf (.descriptorFetch t ch))
    (let m := s.mover t ch
     if !(m.en && m.fetching && !m.halted && m.failure.isNone && decide (inHandCount m < 4) &&
         decide (1 ≤ occupancy m) && (s.partOfTile t).isSome && (s.tile t).cc.state != .halted) then s
     else
       let a := slotAddr m m.fetched
       let z := s.spGet t (mvAgent ch) m.fetched a 32
       let b := z.2.1
       if (mvDescOf b).own || z.2.2 != 0 then
         let take := fun m : Mover =>
           let m1 := { m with fetched := (m.fetched + 1) % 65536,
                              inHand := m.inHand ++ [Desc.mk m.fetched b .fetched] }
           { m1 with fetching := decide (m1.lo < occupancy m1) }
         let s1 := (z.1.modMv t ch take).trace t 2 (leBytes 1 (mvDescOf b).opc ++ leBytes 1 (2 + ch))
         if z.2.2 = 0 then s1 else s1.finishMv t ch m.fetched 0x0403 0 a
       else
         let fail := fun m : Mover =>
           skipFetched { m with violation := true, fetching := false, failure := some (0x0405, m.fetched, a) }
         (s.modMv t ch fail).settleMv t ch)

/-- Bytes of a descriptor as written back (R129): OWN cleared, DONE and STATUS set. -/
def writtenBack (d : Desc) (status done : Nat) : List Byte :=
  let b1 := (sliceB d.bytes 1 1).headD 0
  sliceB d.bytes 0 1 ++ [b1 &&& 0xFE] ++ sliceB d.bytes 2 22 ++ leBytes 4 done ++ leBytes 2 status ++
    sliceB d.bytes 30 2

/-- DESCRIPTOR_WRITEBACK (R129): the oldest descriptor in hand, when it has finished. IRQ signals the tile's core. -/
def execDescriptorWriteback (t : TileId) (ch : Nat) (s : State) : Res :=
  guardRes (Instr.wf (.descriptorWriteback t ch))
    (match (s.mover t ch).inHand with
     | [] => s
     | d :: r =>
       match d.phase with
       | .finished status done =>
         let m := s.mover t ch
         let s1 := s.modSp t (fun p => spWrite p (slotAddr m d.count) (enabled (writtenBack d status done)))
         let step := fun m : Mover =>
           { m with inHand := r, done := (m.done + 1) % 65536,
                    lastStatus := if status = 0 then m.lastStatus else status }
         let s2 := s1.modMv t ch step
         let s3 :=
           if (mvDescOf d.bytes).irq then s2.modCc t (fun c => { c with events := setBit c.events (1 + ch) true })
           else s2
         s3.settleMv t ch
       | _ => s)

/-! ### Responses to a mover (R129, R165, R166, R430) -/

/-- The transaction of a descriptor has ended: a waiting message takes its ID, and a finished descriptor ends. -/
def State.mvEnded (s : State) (t : TileId) (x : Tx) (ch count : Nat) : State :=
  ((s.modTile t (fun T => { T with tx := T.tx.filter (· != x) })).pumpCh t ch).settleDesc t ch count

/-- An acknowledged write of a descriptor. -/
def State.mvAcked (s : State) (t : TileId) (x : Tx) (ch count : Nat) : State := s.mvEnded t x ch count

/-- A refused or timed-out transaction of a descriptor: no more of its messages go out. -/
def State.mvFailed (s : State) (t : TileId) (x : Tx) (ch count status : Nat) : State :=
  let s1 := s.failPart t ch count status (if x.isRead then 0 else x.skip) (meshWord x.dest)
  (s1.modMv t ch (fun m => { m with waiting := m.waiting.filter (fun w => w.count != count) })).mvEnded t x ch count

/-- The last data of a mover's read has arrived: the descriptor goes on. -/
def State.mvData (s : State) (t : TileId) (x : Tx) (ch count : Nat) : State :=
  let s1 := s.modTile t (fun T => { T with tx := T.tx.filter (· != x) })
  let data := (x.buf.drop x.skip).take x.want
  match s.partOfTile t, (s.mover t ch).inHand.find? (fun d => d.count == count) with
  | some p, some d =>
    let m := mvDescOf d.bytes
    if m.opc = 0x21 then
      s1.deliverRows t p ch count m
        ((List.range m.rows).map (fun i => sliceB data (i * m.srcStride) (elemBytes m.esz m.cols))) none
    else s1.deliverMv t p ch count m data none
  | _, _ => s1

end Sys2Proof.Machine
end

