-- ==== Sys2Proof/Machine/ChargeBank.lean ====
section
/-!
DEFINITION. Charge banks (chapter 02): weight formats, the array edge, passes, the post stage, segments, write bursts
and row reads, with the Lookout check (chapter 03: R90–R93) that stands inside the post stage.
-/

namespace Sys2Proof.Machine

/-! ### Weight formats (Tables 2.2 to 2.5) -/

/-- Outputs of one array. -/
def outsOf (fmt : Nat) : Nat := if fmt < 2 then 512 else 1024

/-- A level in half level units: L0, L1, L2, L3 and LM. -/
def halfUnits (lv : Nat) : Nat := if lv = 4 then 3 else 2 * lv

/-- Twice the reference scale ρ of a column. -/
def rho2 (fmt c : Nat) : Nat := if fmt = 1 ∧ c % 2 = 0 then 6 else if fmt = 3 then 3 else 2

/-- The level that a 2-bit field writes (R41), and whether the field is in range; an out-of-range cell is L0. -/
def levelOf (fmt c field : Nat) : Nat × Bool :=
  if fmt = 1 ∧ c % 2 = 0 then (if field = 0 ∨ field = 3 then (field, true) else (0, false))
  else if fmt = 3 then (match field with
    | 0 => (0, true)
    | 1 => (4, true)
    | 2 => (3, true)
    | _ => (0, false))
  else (field, true)

/-- The 2-bit field that a read returns for a cell (R61); free for a level that the format does not write.
DESIGN CHOICE, log 27. -/
def fieldOfLevel (fmt c lv : Nat) : Nat :=
  if fmt = 1 ∧ c % 2 = 0 then
    (if lv = 0 ∨ lv = 3 then lv else if Config.offLevelCode lv % 2 = 0 then 0 else 3)
  else if fmt = 3 then (if lv = 0 then 0 else if lv = 4 then 1 else if lv = 3 then 2 else Config.offLevelCode lv % 3)
  else if lv < 4 then lv else Config.offLevelCode lv % 4

/-- The level that a read field stands for. -/
def levelOfField (fmt c field : Nat) : Nat := (levelOf fmt c field).1

/-- Weight codes of a row from its 1 024 fields (R37–R40). -/
def rowCodes (fmt : Nat) (fields : List Nat) : List Nat :=
  match fmt with
  | 0 => pairs (fun a b => a + 4 * b) fields
  | 1 => pairs (fun a b => a % 2 + 2 * b) fields
  | _ => fields
where
  /-- Combine neighbours. -/
  pairs {α β : Type} (f : α → α → β) : List α → List β
    | a :: b :: r => f a b :: pairs f r
    | _ => []

/-- The 1 024 fields of a row's 256 bytes (R41). -/
def fieldsOfRow (b : List Byte) : List Nat :=
  b.flatMap (fun x => [x.toNat % 4, x.toNat / 4 % 4, x.toNat / 16 % 4, x.toNat / 64])

/-- The 256 bytes of a row's fields. -/
def rowOfFields (l : List Nat) : List Byte :=
  match l with
  | a :: b :: c :: d :: r => BitVec.ofNat 8 (a + 4 * b + 16 * c + 64 * d) :: rowOfFields r
  | _ => []

/-- Cell levels of a row of an array. DESIGN CHOICE, log 11. -/
def rowLevels (cb : ChargeBank) (a r : Nat) : List Nat := (mfind cb.cells (a * 512 + r)).getD (List.replicate 1024 0)

/-- The bank with the levels of a row stored. -/
def putRow (cb : ChargeBank) (a r : Nat) (l : List Nat) : ChargeBank :=
  { cb with cells := if l.all (· == 0) then mdel cb.cells (a * 512 + r) else mput cb.cells (a * 512 + r) l }

/-- Fields that a row read returns (R61). -/
def readRow (cb : ChargeBank) (a r : Nat) : List Nat :=
  (rowLevels cb a r).mapIdx (fun c lv => fieldOfLevel (mget {} cb.arrays a).fmt c lv)

/-! ### Arrays and segments -/

/-- An array of a bank. -/
def ChargeBank.arr (cb : ChargeBank) (a : Nat) : ChargeArray := mget {} cb.arrays a

/-- The bank with an array changed. -/
def ChargeBank.modArr (cb : ChargeBank) (a : Nat) (f : ChargeArray → ChargeArray) : ChargeBank :=
  { cb with arrays := mmod {} cb.arrays a f }

/-- A segment of a bank. -/
def ChargeBank.seg (cb : ChargeBank) (n : Nat) : Segment := mget {} cb.segs n

/-- The bank with a segment changed. -/
def ChargeBank.modSeg (cb : ChargeBank) (n : Nat) (f : Segment → Segment) : ChargeBank :=
  { cb with segs := mmod {} cb.segs n f }

/-- Column groups G of a segment (R52). -/
def groupsOf (g : Segment) : Nat := g.arrCount / max g.blocks 1

/-- Arrays of a segment. -/
def arraysOf (g : Segment) : List Nat := (List.range g.arrCount).map (· + g.arrBase)

/-- Arrays of a block of a segment. -/
def blockArrays (g : Segment) (b : Nat) : List Nat :=
  (List.range (groupsOf g)).map (fun i => g.arrBase + b * groupsOf g + i)

/-- The enabled segment that an array belongs to. -/
def segOfArray (cb : ChargeBank) (a : Nat) : Option (Nat × Segment) :=
  cb.segs.find? (fun e => e.2.en && decide (e.2.arrBase ≤ a) && decide (a < e.2.arrBase + e.2.arrCount))

/-- Elements of one activation word. -/
def elemsPerWord (a8 : Bool) : Nat := if a8 then 32 else 64

/-- Every word that carries an active row of the array's block has been latched (R46). -/
def fullLatch (x : ChargeArray) (g : Segment) : Bool :=
  decide (1 ≤ x.rows) && (List.range (ceilDiv x.rows (elemsPerWord g.a8))).all (fun w => x.latched.contains w)

/-- The array converts: a pass, or a calibration (R77). -/
def convertingArray (x : ChargeArray) : Bool := x.conv.isSome || x.cal == .measuring

/-- The array reads: the read-back of a CLOSE (R61); every other read is whole within its command. -/
def readingArray (x : ChargeArray) : Bool := x.closing.isSome

/-- The array writes: a burst that has begun, its CLOSE included (R60, R61). -/
def writingArray (x : ChargeArray) : Bool := x.burst.any (·.started) || x.closing.isSome

/-- Arrays converting, reading or writing (R55). -/
def activeArrays (cb : ChargeBank) : Nat :=
  (cb.arrays.filter (fun e => convertingArray e.2 || readingArray e.2 || writingArray e.2)).length

/-- Arrays reading, and arrays writing. -/
def readingArrays (cb : ChargeBank) : Nat := (cb.arrays.filter (fun e => readingArray e.2)).length

/-- Arrays writing. -/
def writingArrays (cb : ChargeBank) : Nat := (cb.arrays.filter (fun e => writingArray e.2)).length

/-- One more array may become active under the grant (R55). -/
def grantFree (cb : ChargeBank) : Bool := decide (activeArrays cb + 1 ≤ cb.grant)

/-- One more array may read: the grant and the limit of 20 (R55). -/
def readFree (cb : ChargeBank) : Bool := grantFree cb && decide (readingArrays cb + 1 ≤ 20)

/-- One more array may write: the grant and the limit of 8 (R55). -/
def writeFree (cb : ChargeBank) : Bool := grantFree cb && decide (writingArrays cb + 1 ≤ 8)

/-- The array is neither converting nor calibrating. -/
def arrayIdle (x : ChargeArray) : Bool := x.conv.isNone && x.cal != .measuring

/-- Some token of an enabled segment lies between two of its rounds: its passes have started on some of the segment's
arrays and not on others (R31). -/
def midToken (cb : ChargeBank) : Bool :=
  cb.segs.any (fun e => e.2.en && (arraysOf e.2).any (fun a => (cb.arr a).token != (cb.arr e.2.arrBase).token))

/-- A write burst stands ahead of every pass of the array at the boundary (R59): it is held and the tile is at a token
boundary, or it runs, its CLOSE included. -/
def burstAhead (cb : ChargeBank) (a : Nat) : Bool :=
  (cb.arr a).closing.isSome || (cb.arr a).burst.any (fun b => !b.held || cb.boundary)

/-- Ready passes of arrays where a burst goes first are not ready until the burst has completed (R46, R59). -/
def burstsFirst (cb : ChargeBank) : ChargeBank := { cb with ready := cb.ready.filter (fun a => !burstAhead cb a) }

/-- The pass of an array becomes ready when the conditions of R46 hold; an array of an Exact-mode token makes none. -/
def cbReady (cb : ChargeBank) (a : Nat) : ChargeBank :=
  let x := cb.arr a
  match segOfArray cb a with
  | none => cb
  | some (_, g) =>
    if fullLatch x g && arrayIdle x && x.burst.isNone && x.closing.isNone && !g.exactMode && !cb.ready.contains a then
      { cb with ready := cb.ready ++ [a] }
    else cb

/-- Every array whose pass has become ready, in ascending number. -/
def cbReadyAll (cb : ChargeBank) : ChargeBank := (cb.arrays.map (·.1)).foldl cbReady cb

/-! ### Stage and quiet window (R87, R88) -/

/-- The tiles of a tile's stage: those of its partition with its stage number; the tile alone without one. -/
def State.stageTiles (s : State) (t : TileId) : List TileId :=
  let n := (s.tile t).cc.stage
  if n = 0xFFFF then [t]
  else
    (s.tiles.filter (fun e => e.2.cc.stage == n && s.partOfTile (tileAt e.1) == s.partOfTile t)).map
      (fun e => tileAt e.1)

/-- Abort the calibrations of a bank in steps C1 to C4: measurements discarded, due again. -/
def abortCal (cb : ChargeBank) : ChargeBank :=
  cbReadyAll { cb with arrays := cb.arrays.map (fun e => if e.2.cal = .measuring then (e.1, { e.2 with cal := .due }) else e) }

/-- The quiet window opens on every tile of the stage (R87), and calibrations abort (R88). -/
def State.openWindow (s : State) (t : TileId) : State :=
  if (s.tile t).quiet then s
  else
    s.forEach (s.stageTiles t) (fun u s =>
      let n := ((s.tile u).cb.arrays.filter (fun e => e.2.cal == .measuring)).length
      let s1 := s.modTile u (fun T => { T with quiet := true, cb := if n = 0 then T.cb else abortCal T.cb })
      if n = 0 then s1 else s1.odAdd 0x3000 9 n)

/-- A token is in a tile: words latched or a pass under way. -/
def hasToken (T : Tile) : Bool := T.cb.arrays.any (fun e => !e.2.latched.isEmpty || e.2.conv.isSome)

/-- The stage's root has delivered a token's last word: the window closes unless another token has entered (R87). -/
def State.closeWindow (s : State) (t : TileId) : State :=
  let c := (s.tile t).cc
  let tiles := s.stageTiles t
  if (c.role = 1 ∨ c.stage = 0xFFFF) ∧ tiles.all (fun u => !hasToken (s.tile u)) = true then
    s.forEach tiles (fun u s => s.modTile u (fun T => { T with quiet := false }))
  else s

/-! ### Activation words (R42–R46) -/

/-- The activation codes of a word. -/
def wordCodes (a8 : Bool) (w : List Byte) : List Nat :=
  if a8 then w.map (·.toNat) else w.flatMap (fun b => [b.toNat % 16, b.toNat / 16])

/-- Store codes into row latches from a row on, up to the active rows. -/
def latchCodes (x : ChargeArray) (row : Nat) (codes : List Nat) : ChargeArray :=
  { x with latch := mwrite 0 x.latch row (codes.take (x.rows - row)) }

/-- A segment's word is latched into every array of its block (R46). -/
def latchWord (cb : ChargeBank) (g : Segment) (b local0 : Nat) (w : List Byte) : ChargeBank :=
  let put := fun cb a => cb.modArr a (fun x =>
    let y := latchCodes x (local0 * elemsPerWord g.a8) (wordCodes g.a8 w)
    { y with latched := if y.latched.contains local0 then y.latched else y.latched ++ [local0] })
  let cb1 := (blockArrays g b).foldl put cb
  (blockArrays g b).foldl cbReady cb1

/-- The word waits at the local port (R46, R51): its block's latches hold a pass that has not started, or both
accumulator sets of the segment are taken. -/
def wordHeld (cb : ChargeBank) (g : Segment) (b : Nat) : Bool :=
  (blockArrays g b).any (fun a => fullLatch (cb.arr a) g || decide (g.delivered + 2 ≤ (cb.arr a).token))

/-- The port flit of an input word. -/
def isSegWord (seg idx : Nat) (w : List Byte) (x y : Nat) (f : Flit) : Bool :=
  f.dest.window == 3 && f.dest.offset == seg + 16 * idx && f.payload == w && f.srcX == x && f.srcY == y

/-- EXACT of a token's context word (Table 9.3). -/
def contextExact (c : List Byte) : Bool := bit (fieldN c 0 2) 13

/-- Arithmetic mode of a token that enters the tile now: the mode that the tokens in flight carry in their context word
(R68, Table 9.3), which a step's tokens share; with none in flight, OD 0x3101.01. DESIGN CHOICE, log 34. -/
def State.exactNow (s : State) (t : TileId) : Bool :=
  match s.partOfTile t with
  | some p =>
    (match (s.part p).contexts with
     | c :: _ => contextExact c
     | [] => s.odEff 0x3101 1 p == 1)
  | none => false

/-- The tiles to which the root of a stage passes the context of its tokens on (R245): the stage's attention tiles and
its sampling tile. -/
def contextTo (P : Partition) (stage : Nat) : List TileId :=
  match P.program with
  | none => []
  | some g => (g.tiles.filter (fun e => (e.2.1 == 2 || e.2.1 == 4) && e.2.2 == stage)).map (fun e => e.1)

/-- A token context word arrives at a stage root, an attention tile or a sampling tile, which keeps it; a root sends it on,
ahead of Q and of the logits (R245), by one write to each tile. DESIGN CHOICE, log 137. -/
def State.keepContext (s : State) (t : TileId) (word : List Byte) : State :=
  let s1 := s.modTile t (fun T => { T with ctx := word })
  if (s.tile t).cc.role ≠ 1 then s1
  else
    match s.partOfTile t with
    | none => s1
    | some p =>
      s1.forEach (contextTo (s.part p) (s.tile t).cc.stage) (fun u s =>
        let d : Dest := { rop := 0, route := 0, tileY := (s.logXY u).2, tileX := (s.logXY u).1, window := 3,
                          offset := 16 * 0x1FFFF }
        (s.inject t { kind := 0, vn := 0, id := 0, dest := d, be := BitVec.allOnes 32, flits := [word] }).1)

/-- SEGMENT_INPUT_WORD (R46): the word is latched, held, ignored, or discarded with 0x0306; the token context (R245) is
kept by a stage root, an attention tile and a sampling tile, and discarded elsewhere. A write that asks for it is
acknowledged, unless it is discarded (R154). -/
def execSegmentInputWord (t : TileId) (seg idx : Nat) (word : List Byte) (srcX srcY : Nat) (s : State) : Res :=
  guardRes (Instr.wf (.segmentInputWord t seg idx word srcX srcY))
    (s.inTurn t (isSegWord seg idx word srcX srcY)
    (let cb := (s.tile t).cb
     let g := cb.seg seg
     let per := elemsPerWord g.a8
     let b := idx * per / 512
     let local0 := idx % (512 / per)
     let taken := s.takeRx t (isSegWord seg idx word srcX srcY)
     let acked := fun s' : State => s'.ackTaken t (s.tile t) (isSegWord seg idx word srcX srcY)
     let keeps := [1, 2, 4].contains (s.tile t).cc.role
     if idx = 0x1FFFF ∧ keeps = true then acked (taken.keepContext t word)
     else if !g.en then
       taken.raiseFault t { status := 0x0306, agent := 11, detail := seg,
                            loc := 0 }
     else if idx = 0x1FFFF then acked taken
     else if g.blocks ≤ b ∨ (cb.arr (g.arrBase + b * groupsOf g)).rows ≤ local0 * per then acked taken
     else if wordHeld cb g b then s
     else
       let first := (arraysOf g).all (fun a =>
         (cb.arr a).latched.isEmpty && (cb.arr a).conv.isNone && (cb.arr a).token == (cb.arr g.arrBase).token)
       let mode := s.exactNow t
       let s1 := if first then taken.modCb t (fun cb => cb.modSeg seg (fun g => { g with exactMode := mode })) else taken
       let s2 := s1.openWindow t
       acked (s2.modCb t (fun cb => latchWord cb (cb.seg seg) b local0 word))))

/-! ### Passes (R45–R47) -/

/-- The pass that an array starts from its latches. -/
def passOf (x : ChargeArray) (segNo : Nat) (g : Segment) (a : Nat) : Pass where
  codes := mread 0 x.latch 0 x.rows
  seg := segNo
  block := (a - g.arrBase) / max (groupsOf g) 1
  group := (a - g.arrBase) % max (groupsOf g) 1
  token := x.token
  e := x.e
  base := x.base
  a8 := g.a8

/-- PASS_START (R46): the first ready pass starts when the grant has room, no burst goes ahead of it (R59) and a forced
refresh has had its row (R83); its row latches are released. -/
def execPassStart (t : TileId) (a : Nat) (s : State) : Res :=
  guardRes (Instr.wf (.passStart t a))
    (let cb := (s.tile t).cb
     match cb.ready, segOfArray cb a with
     | h :: r, some (n, g) =>
       if h = a ∧ grantFree cb = true ∧ arrayIdle (cb.arr a) = true ∧ burstAhead cb a = false ∧
           ((cb.arr a).refresh = .forced → (cb.arr a).rowLast = true) then
         let start := fun x : ChargeArray =>
           { x with conv := some (passOf x n g a), latch := [], latched := [], token := x.token + 1, rowLast := false }
         s.modCb t (fun cb => { cb.modArr a start with ready := r, boundary := false })
       else s
     | _, _ => s)

/-- Add a row's charge to the columns. -/
def addRow (acc : List Nat) (lv : List Nat) (u : Nat) : List Nat := List.zipWith (fun x l => x + halfUnits l * u) acc lv

/-- Charge of the 1 024 columns for row codes, in half level units times pulse units (R35, R43). -/
def columnCharge (cb : ChargeBank) (a r : Nat) (codes : List Nat) (acc : List Nat) : List Nat :=
  match codes with
  | [] => acc
  | u :: rest =>
    let acc1 := match mfind cb.cells (a * 512 + r) with
      | some lv => if u = 0 then acc else addRow acc lv u
      | none => acc
    columnCharge cb a (r + 1) rest acc1

/-- One conversion (R47) of a charge given in half units; `err` is the analogue error in the same units. -/
def adcCode (fmt c e : Nat) (base : Int) (charge : Nat) (err : Int) : Nat :=
  let rho : Int := rho2 fmt c
  let d : Int := rho * 2 ^ e
  (clampI 0 255 ((2 * ((charge : Int) + err - rho * base) + d) / (2 * d))).toNat

/-- The 1 024 codes of one nibble pass; the analogue error of each column is free (R70, R71). -/
def nibbleCodes (cb : ChargeBank) (a fmt e : Nat) (base : Int) (us : List Nat) (free : Nat) : List Nat :=
  (columnCharge cb a 0 us (List.replicate 1024 0)).mapIdx (fun c q =>
    adcCode fmt c e base q (Config.chargeError (free + c)))

/-- The codes of a pass: one list for A4, the high and the low nibble's for A8 (R43). DESIGN CHOICE, log 26. -/
def convert (cb : ChargeBank) (a fmt : Nat) (p : Pass) (free : Nat) : List (List Nat) :=
  if p.a8 then
    [nibbleCodes cb a fmt p.e p.base (p.codes.map (· / 16)) free,
     nibbleCodes cb a fmt p.e p.base (p.codes.map (· % 16)) (free + 1024)]
  else [nibbleCodes cb a fmt p.e p.base p.codes free]

/-! ### Lookout (R90–R93) -/

/-- Occurrences of a code. -/
def countCode (v : Nat) (l : List Nat) : Nat := (l.filter (· == v)).length

/-- The codes of one nibble pass fail the group's envelope (R91). -/
def envFails (g : LookoutGroup) (codes : List Nat) : Bool :=
  let mean := codes.sum / 1024
  decide (mean < g.meanLo) || decide (g.meanHi < mean) || decide (g.satMax < countCode 255 codes) ||
    decide (g.zeroMax < countCode 0 codes)

/-- Count the saturated and zeroed conversions of an array (R90). -/
def countConversions (lk : Lookout) (a : Nat) (l : List (List Nat)) : Lookout :=
  { lk with satCnt := mmod 0 lk.satCnt a (fun v => satAdd v (l.map (countCode 255)).sum 0xFFFFFFFF),
            zeroCnt := mmod 0 lk.zeroCnt a (fun v => satAdd v (l.map (countCode 0)).sum 0xFFFFFFFF) }

/-- An envelope failure is recorded (R93). -/
def recordFail (lk : Lookout) (g : Nat) : Lookout :=
  { lk with failGrp := setBit lk.failGrp g true,
            groups := mmod {} lk.groups g (fun x => { x with failCnt := satAdd x.failCnt 1 65535 }) }

/-- A persistent failure is recorded (R93). -/
def recordPersist (lk : Lookout) (g : Nat) : Lookout :=
  { lk with persistGrp := setBit lk.persistGrp g true,
            groups := mmod {} lk.groups g (fun x => { x with persistCnt := satAdd x.persistCnt 1 65535 }) }

/-! ### Post stage (R48–R51) -/

/-- P of every output from the codes of one nibble pass (R48). -/
def pValues (fmt e : Nat) (base : Int) (codes : List Nat) : List Int :=
  let s := codes.map (fun c => (2 : Int) ^ e * (c : Int) + base)
  match fmt with
  | 0 => rowCodes.pairs (fun a b => a + 4 * b) s
  | 1 => rowCodes.pairs (fun a b => a + 2 * b) s
  | _ => s

/-- Activation zero point in force: A4 uses four bits. -/
def zAct (g : Segment) : Nat := if g.a8 then g.zA else g.zA % 16

/-- First channel of a column group. -/
def groupChannel (g : Segment) (grp : Nat) : Nat := grp * outsOf g.wfmt

/-- T of every output of a pass (R48). -/
def tValues (cb : ChargeBank) (a : Nat) (g : Segment) (p : Pass) (codes : List (List Nat)) : List Int :=
  let ps := match codes with
    | [hi, lo] => List.zipWith (fun h l => 16 * h + l) (pValues g.wfmt p.e p.base hi) (pValues g.wfmt p.e p.base lo)
    | [x] => pValues g.wfmt p.e p.base x
    | _ => []
  let za : Int := zAct g
  let u : Int := p.codes.sum
  let h : Int := p.codes.length
  let c0 := g.chanBase + groupChannel g p.group
  ps.mapIdx (fun m v =>
    let q : Int := ((mget 0 (cb.arr a).sums m : Nat) : Int)
    let z : Int := ((mget ({} : Channel) cb.chans (c0 + m)).z : Nat)
    v - za * q - z * u + h * z * za)

/-- Key of an accumulator and of a group's progress: the token's parity selects the set (R51). -/
def accKey (token n : Nat) : Nat := 8192 * (token % 2) + n

/-- Key of a group's next block. -/
def grpKey (token grp : Nat) : Nat := token % 2 * 192 + grp

/-- Add T of the next block to the accumulators of a group, with saturation (R48): the segment and the clamps. -/
def addBlock (g : Segment) (token grp : Nat) (first : Bool) (ts : List Int) : Segment × Nat :=
  let c0 := groupChannel g grp
  let z := (ts.mapIdx (fun m v =>
    let old := if first then 0 else mget 0 g.acc (accKey token (c0 + m))
    (satInt 23 (old + v), satHit 23 (old + v))))
  ({ g with acc := mwrite 0 g.acc (accKey token c0) (z.map (·.1)), nextBlock := mmod 0 g.nextBlock (grpKey token grp) (· + 1) },
   (z.filter (·.2)).length)

/-- Add the waiting blocks of a group in ascending order while the next one is there (R48). -/
def addWaiting (g : Segment) (token grp n clamps : Nat) : Segment × Nat :=
  match n with
  | 0 => (g, clamps)
  | n + 1 =>
    let b := mget 0 g.nextBlock (grpKey token grp)
    match g.waiting.find? (fun w => w.1 == token && w.2.1 == b && w.2.2.1 == grp) with
    | none => (g, clamps)
    | some w =>
      let z := addBlock { g with waiting := g.waiting.filter (· != w) } token grp (b == 0) w.2.2.2
      addWaiting z.1 token grp n (clamps + z.2)

/-- The scaled value y_n (R49). -/
def scaled (g : Segment) (c : Channel) (acc : Int) : Word :=
  let m := mulW c.m g.scaleA
  fp32 (fpAdd (fpMul (fpInt acc) (fpOf m)) (if g.biasEn then fpOf c.b else .fin false 0 0))

/-- The requantised value v_n and whether it is a clamp (R49). -/
def requantised (g : Segment) (y : Word) : Nat × Bool :=
  let t := mulW y g.rcpOut
  let z := if g.oform = 0 then quantise t (g.zOut % 16 : Nat) 0 15 else quantise t g.zOut 0 255
  (z.1.toNat, z.2)

/-- The output bytes of channels in a segment's output form (Table 2.7), and the requantisation clamps. -/
def outputBytes (g : Segment) (chans : List Channel) (accs : List Int) : List Byte × Nat :=
  match g.oform with
  | 2 => (accs.flatMap (fun v => leBytes 4 (unsign 32 v)), 0)
  | 3 => ((List.zipWith (scaled g) chans accs).flatMap (fun w => leBytes 4 w.toNat), 0)
  | o =>
    let vs := (List.zipWith (scaled g) chans accs).map (requantised g)
    let n := (vs.filter (·.2)).length
    if o = 0 then (rowCodes.pairs (fun a b => BitVec.ofNat 8 (a + 16 * b)) (vs.map (·.1)), n)
    else (vs.map (fun v => BitVec.ofNat 8 v.1), n)

/-- Destination word of a segment. -/
def segDest (g : Segment) : Dest := destOf (g.dest0.toNat + 2 ^ 32 * g.dest1.toNat)

/-- Deliver one column group's output words (R50): to the tile's own scratchpad, or into the mesh on VN2; a route's
sequence number is the token's. A destination of another window raises one fault for the token. -/
def State.deliverWords (s : State) (t : TileId) (segNo token w0 : Nat) (bytes : List Byte) : State :=
  let g := (s.tile t).cb.seg segNo
  let d := segDest g
  if d.window ≠ 0 ∧ d.window ≠ 3 ∧ d.window ≠ 4 then
    if g.destFault then s
    else
      (s.modCb t (fun cb => cb.modSeg segNo (fun g => { g with destFault := true }))).raiseFault t
        { status := 0x0003, agent := 10, detail := segNo, address := destNat d }
  else
    let d0 := destNext d w0
    if d.window = 0 ∧ d.route = 0 ∧ s.logical t = some (d.tileX, d.tileY) then
      s.spStoreWords t 10 0 d0.offset (enabled bytes)
    else
      let m : Message := { kind := 0, vn := 2, id := if d.route = 0 then 0 else token % 256, dest := d0,
                           be := BitVec.allOnes 32, flits := wordsOf bytes }
      match s.inject t m with
      | (s1, none) => s1
      | (s1, some c) =>
        (s1.countRefusal t).raiseFault t { status := c, agent := 10, detail := segNo, address := destNat d0 }

/-- Count accumulator and requantisation clamps (R49, Table 2.14). -/
def State.countClamps (s : State) (t : TileId) (acc rq : Nat) : State :=
  if acc + rq = 0 then s
  else
    let f := fun cb : ChargeBank =>
      { cb with clamp := true, accClamps := satAdd cb.accClamps acc 65535, rqClamps := satAdd cb.rqClamps rq 65535 }
    ((s.modCb t f).odAdd 0x3100 6 acc).odAdd 0x3100 7 rq

/-- Form and deliver the outputs of a column group from final accumulators (R49–R51). -/
def State.finishGroup (s : State) (t : TileId) (segNo token grp : Nat) (accs : List Int) : State :=
  let cb := (s.tile t).cb
  let g := cb.seg segNo
  let c0 := groupChannel g grp
  let chans := (List.range accs.length).map (fun m => mget {} cb.chans (g.chanBase + c0 + m))
  let z := outputBytes g chans accs
  (s.countClamps t 0 z.2).deliverWords t segNo token (grp * (z.1.length / 32)) z.1

/-- A token of a segment is delivered when every group has had its last block (R51). -/
def State.finishToken (s : State) (t : TileId) (segNo token : Nat) : State :=
  let g := (s.tile t).cb.seg segNo
  if (List.range (groupsOf g)).all (fun i => mget 0 g.nextBlock (grpKey token i) == g.blocks) then
    let clear := fun g : Segment =>
      { g with delivered := g.delivered + 1, destFault := false,
               nextBlock := mfilter g.nextBlock (fun k _ => k / 192 != token % 2) }
    (s.modCb t (fun cb => cb.modSeg segNo clear)).closeWindow t
  else s

/-- The post stage from the codes of a pass on (R51): T is kept until the lower blocks have been added; the last
block's outputs are delivered. -/
def State.postCodes (s : State) (t : TileId) (a : Nat) (p : Pass) (codes : List (List Nat)) : State :=
  let cb := (s.tile t).cb
  let g := cb.seg p.seg
  let ts := tValues cb a g p codes
  let z := addWaiting { g with waiting := g.waiting ++ [(p.token, p.block, p.group, ts)] } p.token p.group g.blocks 0
  let done := fun cb : ChargeBank => cbReady ((cb.modSeg p.seg (fun _ => z.1)).modArr a (fun x => { x with conv := none })) a
  let s1 := (s.modCb t done).countClamps t z.2 0
  if mget 0 z.1.nextBlock (grpKey p.token p.group) = g.blocks then
    let accs := mread 0 z.1.acc (accKey p.token (groupChannel g p.group)) (outsOf g.wfmt)
    (s1.finishGroup t p.seg p.token p.group accs).finishToken t p.seg p.token
  else s1

/-- Free values that a conversion of the pass uses. -/
def freeOf (p : Pass) : Nat := if p.a8 then 2048 else 1024

/-- POST_STAGE (R51): the pass's codes are checked by Lookout (R91) and used, or read again (R92). -/
def execPostStage (t : TileId) (a : Nat) (s : State) : Res :=
  guardRes (Instr.wf (.postStage t a))
    (let cb := (s.tile t).cb
     match (cb.arr a).conv with
     | none => s
     | some p =>
       if p.reread then s
       else
         let codes := convert cb a (cb.arr a).fmt p s.free
         let lk := (s.tile t).lk
         let s1 := (s.useFree (freeOf p)).modLk t (fun lk => countConversions lk a codes)
         if lk.en && codes.any (envFails (mget {} lk.groups (a / 24))) then
           let s2 := (s1.modLk t (fun lk => recordFail lk (a / 24))).odAdd 0x3000 0xC 1
           if lk.rr = 0 then s2.postCodes t a p codes
           else s2.modCb t (fun cb => cb.modArr a (fun x => { x with conv := some { p with reread := true } }))
         else s1.postCodes t a p codes)

/-- Sums of lists of codes, place by place. -/
def sumCodes (l : List (List (List Nat))) : List (List Nat) :=
  match l with
  | [] => []
  | [x] => x
  | x :: r => List.zipWith (List.zipWith (· + ·)) x (sumCodes r)

/-- The calibration of an array becomes due (R76). -/
def calDue (x : ChargeArray) : ChargeArray := if x.cal = .idle then { x with cal := .due } else x

/-- LOOKOUT_REREAD_DONE (R92, R93): the averaged codes are checked again and used. N comes from LK_CTRL.RR as it stands at
the re-read: DESIGN CHOICE, log 131. -/
def execLookoutRereadDone (t : TileId) (a : Nat) (s : State) : Res :=
  guardRes (Instr.wf (.lookoutRereadDone t a))
    (let cb := (s.tile t).cb
     match (cb.arr a).conv with
     | none => s
     | some p =>
       if !p.reread then s
       else
         let lk := (s.tile t).lk
         let n := 2 ^ lk.rr
         let reads := (List.range n).map (fun i => convert cb a (cb.arr a).fmt p (s.free + i * freeOf p))
         let avg := (sumCodes reads).map (fun l => l.map (fun v => (v + n / 2) / n))
         let count := fun lk : Lookout =>
           reads.foldl (fun lk c => countConversions lk a c) { lk with rrPasses := satAdd lk.rrPasses n 0xFFFFFFFF }
         let s1 := (s.useFree (n * freeOf p)).modLk t count
         let s2 :=
           if avg.any (envFails (mget {} lk.groups (a / 24))) then
             ((s1.modLk t (fun lk => recordPersist lk (a / 24))).odAdd 0x3000 0x10 1).modCb t
               (fun cb => cb.modArr a calDue)
           else s1
         s2.postCodes t a p avg)

/-! ### Segment registers (R53, R54, Tables 2.16, 2.17) -/

/-- CB_SEG_CFG0 as a number. -/
def segCfg0 (g : Segment) : Nat :=
  b2n g.en * 2 ^ 31 + g.wfmt * 2 ^ 28 + b2n g.a8 * 2 ^ 27 + g.oform * 2 ^ 24 + b2n g.biasEn * 2 ^ 23 +
    g.arrBase * 2 ^ 15 + g.arrCount * 2 ^ 7 + g.blocks

/-- CB_SEG_CFG1 as a number. -/
def segCfg1 (g : Segment) : Nat := g.zOut * 2 ^ 24 + g.zA * 2 ^ 16 + g.chanBase

/-- The fields of CB_SEG_CFG0 but EN. -/
def setCfg0 (g : Segment) (v : Nat) : Segment :=
  { g with wfmt := bits v 30 28, a8 := bit v 27, oform := bits v 26 24, biasEn := bit v 23, arrBase := bits v 22 15,
           arrCount := bits v 14 7, blocks := bits v 6 0 }

/-- The fields of CB_SEG_CFG1. -/
def setCfg1 (g : Segment) (v : Nat) : Segment :=
  { g with zOut := bits v 31 24, zA := bits v 23 16, chanBase := bits v 13 0 }

/-- Channels of a segment (R52). -/
def segChannels (g : Segment) : Nat := groupsOf g * outsOf g.wfmt

/-- Every condition of R53 for enabling segment `n` with these fields. -/
def enableOk (cb : ChargeBank) (n : Nat) (g : Segment) : Bool :=
  decide (1 ≤ g.blocks) && decide (g.blocks ≤ 64) && decide (1 ≤ g.arrCount) && decide (g.arrCount ≤ 192) &&
    g.arrCount % g.blocks == 0 && decide (g.arrBase + g.arrCount ≤ 192) &&
    decide (g.chanBase + segChannels g ≤ 8192) && decide (g.wfmt < 4) && decide (g.oform < 4) &&
    (arraysOf g).all (fun a => (cb.arr a).wvalid && (cb.arr a).fmt == g.wfmt) &&
    (arraysOf g).all (fun a =>
      (cb.arr a).rows == (cb.arr (g.arrBase + (a - g.arrBase) / groupsOf g * groupsOf g)).rows) &&
    !cb.segs.any (fun e => e.1 != n && e.2.en && decide (e.2.arrBase < g.arrBase + g.arrCount) &&
      decide (g.arrBase < e.2.arrBase + e.2.arrCount)) &&
    (List.range (segChannels g)).all (fun i => zOk g.wfmt (mget {} cb.chans (g.chanBase + i)).z)

/-- A segment's tokens forgotten. -/
def clearTokens (g : Segment) : Segment :=
  { g with acc := [], waiting := [], nextBlock := [], delivered := 0, destFault := false, exactMode := false }

/-- Arrays with their latched words discarded and their ready passes dropped. -/
def discardWords (cb : ChargeBank) (as : List Nat) : ChargeBank :=
  let cb1 := as.foldl (fun cb a => cb.modArr a (fun x =>
    { x with latch := [], latched := [], token := 0, exact := none })) cb
  { cb1 with ready := cb1.ready.filter (fun a => !as.contains a) }

/-- A scale, reciprocal or destination register takes a value; the reserved bits of a destination word (Table 6.2,
[63:51]) are ignored (R9). -/
def setSegReg (g : Segment) (off : Nat) (v : Word) : Segment :=
  match off with
  | 0x08 => { g with scaleA := v }
  | 0x0C => { g with rcpOut := v }
  | 0x10 => { g with dest0 := v }
  | 0x14 => { g with dest1 := v &&& 0x7FFFF }
  | _ => g

/-- Apply what a segment holds back for the token boundary (R54). -/
def segBoundary (cb : ChargeBank) (n : Nat) : ChargeBank :=
  let g := cb.seg n
  let g1 := g.defer.foldl (fun g d => setSegReg g d.1 d.2) { g with defer := [] }
  if g.disabling then
    discardWords (cb.modSeg n (fun _ => { clearTokens g1 with en := false, disabling := false })) (arraysOf g)
  else cb.modSeg n (fun _ => g1)

/-- Everything a bank holds back for the token boundary (R54). -/
def bankBoundary (cb : ChargeBank) : ChargeBank :=
  let cb1 := (List.range 16).foldl segBoundary cb
  { cb1 with chans := cb1.chanDefer.foldl (fun m e => mset {} m e.1 e.2) cb1.chans, chanDefer := [] }

/-- What a write defers applies at once while the tile stands at a token boundary (R31). -/
def settleBoundary (cb : ChargeBank) : ChargeBank := if cb.boundary then bankBoundary cb else cb

/-- A configuration write is ignored. -/
def cfgErr (cb : ChargeBank) : ChargeBank := { cb with cfgErr := true }

/-- A write of CB_SEG_CFG0 with EN = 1 (R53): ignored with CFG_ERR on an enabled segment; one that fails stores the
other fields and leaves EN at 0. DESIGN CHOICE, log 131. -/
def enableSeg (cb : ChargeBank) (n v : Nat) : ChargeBank :=
  let g := cb.seg n
  if g.en then cfgErr cb
  else
    let g1 := setCfg0 g v
    if enableOk cb n g1 then discardWords (cb.modSeg n (fun _ => { clearTokens g1 with en := true })) (arraysOf g1)
    else cfgErr (cb.modSeg n (fun _ => g1))

/-- A write of CB_SEG_CFG0 with EN = 0 (R54): on an enabled segment only EN changes, at the token boundary. -/
def disableSeg (cb : ChargeBank) (n v : Nat) : ChargeBank :=
  let g := cb.seg n
  if g.en then
    let cb1 := cb.modSeg n (fun g => { g with disabling := true })
    settleBoundary (if bits v 30 0 = bits (segCfg0 g) 30 0 then cb1 else cfgErr cb1)
  else cb.modSeg n (fun g => setCfg0 g v)

/-- A write of another segment register (R54): scale, reciprocal and destination of an enabled segment wait for the
boundary; CB_SEG_CFG1 of an enabled segment is ignored with CFG_ERR. -/
def writeSegOther (cb : ChargeBank) (n off : Nat) (v : Word) : ChargeBank :=
  let g := cb.seg n
  if off = 0x04 then (if g.en then cfgErr cb else cb.modSeg n (fun g => setCfg1 g v.toNat))
  else if g.en then settleBoundary (cb.modSeg n (fun g => { g with defer := g.defer ++ [(off, v)] }))
  else cb.modSeg n (fun g => setSegReg g off v)

/-- Any write to a segment's register block. -/
def writeSeg (cb : ChargeBank) (n off : Nat) (v : Word) : ChargeBank :=
  if off = 0 then (if bit v.toNat 31 then enableSeg cb n v.toNat else disableSeg cb n v.toNat)
  else writeSegOther cb n off v

/-- SEGMENT_ENABLE (R53): EN is 1 in the value. -/
def execSegmentEnable (t : TileId) (seg : Nat) (value : Word) (s : State) : Res :=
  guardRes (Instr.wf (.segmentEnable t seg value)) (s.modCb t (fun cb => enableSeg cb seg value.toNat))

/-- SEGMENT_DISABLE (R54): EN is 0 in the value. -/
def execSegmentDisable (t : TileId) (seg : Nat) (value : Word) (s : State) : Res :=
  guardRes (Instr.wf (.segmentDisable t seg value)) (s.modCb t (fun cb => disableSeg cb seg value.toNat))

/-- SEGMENT_CONFIG_WRITE (R54). -/
def execSegmentConfigWrite (t : TileId) (seg offset : Nat) (value : Word) (s : State) : Res :=
  guardRes (Instr.wf (.segmentConfigWrite t seg offset value)) (s.modCb t (fun cb => writeSeg cb seg offset value))

/-- CHANNEL_TABLE_WRITE (R53): a refused entry stays, and the writer has 0x0003. -/
def execChannelTableWrite (t : TileId) (n : Nat) (entry : List Byte) (s : State) : Res :=
  guardRes (Instr.wf (.channelTableWrite t n entry))
    (let z := writeChan (s.tile t).cb n (chanOf entry)
     if z.2 ≠ 0 then
       s.emit (.refusal t z.2 (destNat { rop := 0, route := 0, tileY := (s.logXY t).2 % 256,
                                         tileX := (s.logXY t).1 % 256, window := 2, offset := 16 * n }))
     else s.modCb t (fun _ => z.1))

/-! ### Token boundary (R31, R54, R73, R94, R95) -/

/-- Factory trim plus user delta of a band (R80). -/
def bandTrim (x : ChargeArray) (band : Nat) : Trim :=
  let f := mget {} x.factory band
  let d := mget {} x.delta band
  { offset := f.offset + d.offset, gain := f.gain + d.gain, pulse := f.pulse + d.pulse }

/-- Load the trims of the band that waits (R73); a calibration under way on the tile keeps its band until it has
committed or aborted. DESIGN CHOICE, log 90. -/
def loadBand (cb : ChargeBank) : ChargeBank :=
  match cb.bandDue with
  | none => cb
  | some b =>
    if cb.arrays.any (fun e => e.2.cal == .measuring) then cb
    else
    { cb with band := b, bandDue := none,
              arrays := cb.arrays.filterMap (fun e =>
                let x : ChargeArray := { e.2 with work := bandTrim e.2 b }
                if x = {} then none else some (e.1, x)) }

/-- An envelope register takes a value (Table 3.11). -/
def setEnv (lk : Lookout) (off : Nat) (v : Word) : Lookout :=
  let g := (off - 0x100) / 16
  if off % 16 = 0 then
    { lk with groups := mmod {} lk.groups g (fun x => { x with meanHi := bits v.toNat 31 24, meanLo := bits v.toNat 23 16 }) }
  else
    { lk with groups := mmod {} lk.groups g (fun x => { x with satMax := bits v.toNat 26 16, zeroMax := bits v.toNat 10 0 }) }

/-- What Lookout holds back for the token boundary (R94, R95). -/
def lkBoundary (lk : Lookout) : Lookout :=
  let l1 := lk.defer.foldl (fun l d => setEnv l d.1 d.2) { lk with defer := [] }
  match l1.rrDue with
  | none => l1
  | some rr => { l1 with rr := rr, rrDue := none }

/-- The tile is not between the rounds of two tokens (R31). -/
def State.boundaryWaits (s : State) (t : TileId) : Bool :=
  (s.tile t).cb.arrays.any (fun e => e.2.conv.isSome || e.2.exact.isSome) || midToken (s.tile t).cb

/-- A token boundary in a tile (R31): deferred writes and disables, the band change, and Lookout writes apply, and held
bursts go ahead of ready passes; BOUNDARY rises. DEDUCED, log 29, 32. -/
def State.tokenBoundary (s : State) (t : TileId) : State :=
  let core := fun c : Core =>
    if (s.tile t).cb.boundary then c else pmcAdd { c with events := setBit c.events 9 true } 10 1
  s.modTile t (fun T => { T with cb := cbReadyAll (burstsFirst (loadBand (bankBoundary { T.cb with boundary := true }))),
                                 lk := lkBoundary T.lk, cc := core T.cc })

/-! ### Write bursts (R58–R61) -/

/-- Header fields (Table 2.19). -/
structure BurstHdr where
  opc : Nat
  arr : Nat
  first : Nat
  count : Nat
  fmt : Nat
  opn : Bool
  cls : Bool
  rows : Nat
  dest : Nat
deriving DecidableEq, Repr

/-- The header that 32 bytes spell. -/
def burstHdrOf (b : List Byte) : BurstHdr where
  opc := fieldN b 0 1
  arr := fieldN b 1 1
  first := fieldN b 2 2 % 512
  count := fieldN b 4 2 % 1024
  fmt := fieldN b 6 1 % 8
  opn := bit (fieldN b 7 1) 0
  cls := bit (fieldN b 7 1) 1
  rows := fieldN b 8 2 % 1024
  dest := fieldN b 16 8

/-- Reserved bits of a header that are set. -/
def hdrReserved (b : List Byte) (h : BurstHdr) : Bool :=
  fieldN b 2 2 / 512 != 0 || fieldN b 4 2 / 1024 != 0 || fieldN b 6 1 / 8 != 0 || fieldN b 7 1 / 4 != 0 ||
    fieldN b 8 2 / 1024 != 0 || !zeroRange b 10 6 || !zeroRange b 24 8 ||
    (if h.opc = 1 then !zeroRange b 16 8 else h.dest / 2 ^ 51 != 0)

/-- FIRST_ROW and ROW_COUNT name rows of an array. -/
def hdrRowsBad (h : BurstHdr) : Bool := h.count == 0 || decide (512 < h.first + h.count)

/-- The code with which a tile refuses a write burst, in the order of R58; 0 if none. DESIGN CHOICE, log 30. -/
def burstCode (cb : ChargeBank) (b : List Byte) (rows : Nat) : Nat :=
  let h := burstHdrOf b
  if h.opc ≠ 1 ∧ h.opc ≠ 2 then 0x0001
  else if hdrReserved b h then 0x0002
  else if 4 ≤ h.fmt then 0x0002
  else if 192 ≤ h.arr ∨ (cb.arr h.arr).failed = true then 0x0003
  else if hdrRowsBad h || (h.opn && (h.rows == 0 || decide (512 < h.rows))) then 0x0003
  else if !h.opn && (cb.arr h.arr).fmt != h.fmt then 0x0003
  else if rows ≠ h.count then 0x0002
  else 0

/-- The code with which a tile refuses a read request by its header (R58, R354). -/
def readHdrCode (cb : ChargeBank) (b : List Byte) : Nat :=
  let h := burstHdrOf b
  if h.opc ≠ 1 ∧ h.opc ≠ 2 then 0x0001
  else if hdrReserved b h then 0x0002
  else if 192 ≤ h.arr ∨ (cb.arr h.arr).failed = true then 0x0003
  else if hdrRowsBad h then 0x0003
  else 0

/-- The code with which a tile refuses a read request from a logical tile (R58, R61). -/
def State.readReqCode (s : State) (t : TileId) (b : List Byte) (x y : Nat) : Nat :=
  let c := readHdrCode (s.tile t).cb b
  if c ≠ 0 then c else if s.sealedFromTile t x y then 0x0602 else 0

/-- A flit of window 1 from a logical tile. -/
def isPortFlit (x y : Nat) (f : Flit) : Bool := f.dest.window == 1 && f.srcX == x && f.srcY == y && f.vn != 1

/-- The last flit of the message for window 1 that stands at the local port, if one does. -/
def portLast (T : Tile) (x y : Nat) : Option Flit := T.rx.find? (fun f => isPortFlit x y f && f.last)

/-- Take the message for window 1 from the local port. -/
def State.takePort (s : State) (t : TileId) (x y : Nat) : State :=
  s.modTile t (fun T => { T with rx := takeMessage (isPortFlit x y) T.rx })

/-- Refuse a message for window 1 as the mesh refuses it (R58, R166); without a flit the refusal goes straight to the
sender. -/
def State.refusePort (s : State) (t : TileId) (x y code : Nat) : State :=
  match portLast (s.tile t) x y with
  | some f => (s.takePort t x y).refuse t f code
  | none => (s.countRefusal t).emit (.refusal (s.physical x y) code
      (destNat { rop := 0, route := 0, tileY := (s.logXY t).2 % 256, tileX := (s.logXY t).1 % 256, window := 1, offset := 0 }))

/-- The burst opens its array: WVALID cleared, ROWS and FMT set (Table 2.19). -/
def openArray (x : ChargeArray) (b : Burst) : ChargeArray :=
  if b.opn then { x with wvalid := false, rows := b.rows, fmt := b.fmt } else x

/-- WRITE_BURST (R58, R59): refused, held for an array of an enabled segment, or run; it waits at the port while the
array has another burst. -/
def execWriteBurst (t : TileId) (hdr : List Byte) (rows : List (List Byte)) (srcX srcY : Nat) (s : State) : Res :=
  guardRes (Instr.wf (.writeBurst t hdr rows srcX srcY)) (s.inTurn t (isPortFlit srcX srcY)
    (let cb := (s.tile t).cb
     let h := burstHdrOf hdr
     let c := burstCode cb hdr rows.length
     let x := cb.arr h.arr
     if c ≠ 0 then s.refusePort t srcX srcY c
     else if h.opc ≠ 1 ∨ x.burst.isSome = true ∨ x.closing.isSome = true then s
     else
       let held := (segOfArray cb h.arr).isSome
       let ack := (portLast (s.tile t) srcX srcY).filter (fun f => f.id != 0)
       let b : Burst := { firstRow := h.first, fmt := h.fmt, opn := h.opn, cls := h.cls, rows := h.rows, data := rows,
                          next := h.first, held := held, ack := ack }
       let put := fun x : ChargeArray => if held then { x with burst := some b } else { openArray x b with burst := some b }
       ((s.burstReaches t).takePort t srcX srcY).modCb t (fun cb => burstsFirst (cb.modArr h.arr put))))

/-- HELD_BURST_RELEASE (R59): at the token boundary the held burst goes ahead of the array's passes. DEDUCED, log 29. -/
def execHeldBurstRelease (t : TileId) (a : Nat) (s : State) : Res :=
  guardRes (Instr.wf (.heldBurstRelease t a))
    (let cb := (s.tile t).cb
     match (cb.arr a).burst with
     | some b =>
       if cb.boundary && b.held then
         s.modCb t (fun cb => { cb.modArr a (fun x => { openArray x b with burst := some { b with held := false } }) with
                                ready := cb.ready.filter (· != a) })
       else s
     | none => s)

/-- The acknowledgement of a burst. -/
def State.ackBurst (s : State) (t : TileId) (f : Option Flit) : State :=
  match f with
  | some f => s.ackWrite t f
  | none => s

/-- Levels of a row as sent, and whether every field was in range (R41). -/
def sentLevels (fmt : Nat) (b : List Byte) : List Nat × Bool :=
  let l := (fieldsOfRow b).mapIdx (fun c f => levelOf fmt c f)
  (l.map (·.1), l.all (·.2))

/-- Levels with the cells that the final verify read off their level (R60). -/
def withOff (fmt : Nat) (l : List Nat) (off : List (Nat × Nat)) : List Nat :=
  l.mapIdx (fun c lv => match off.find? (fun o => o.1 == c) with
    | some o => levelOfField fmt c o.2
    | none => lv)

/-- Program and verify one row (R60): a row with cells off their level has used every retry of OD 0x3100.04; retries and
failures are counted. -/
def State.programRow (s : State) (t : TileId) (a r fmt : Nat) (b : List Byte) (o : RowOutcome) : State :=
  let z := sentLevels fmt b
  let bad := !z.2 || !o.offLevel.isEmpty
  let retries := if o.offLevel.isEmpty then min o.retries (s.odG 0x3100 4) else s.odG 0x3100 4
  let put := fun cb : ChargeBank =>
    let cb1 := putRow cb a r (withOff fmt z.1 o.offLevel)
    { cb1 with retries := satAdd cb1.retries retries 65535,
               rowsFailed := if bad then satAdd cb1.rowsFailed 1 65535 else cb1.rowsFailed, wfail := cb1.wfail || bad }
  let s1 := s.modCb t put
  if bad then s1.odAdd 0x3100 5 1 else s1

/-- ROW_WRITE_VERIFY (R60): the next row of the array's burst while the array does not convert; a burst begins within the
grant and the writing limit (R55), and once begun it runs to its end (R56). -/
def execRowWriteVerify (t : TileId) (a : Nat) (outcome : RowOutcome) (s : State) : Res :=
  guardRes (Instr.wf (.rowWriteVerify t a outcome))
    (let cb := (s.tile t).cb
     match (cb.arr a).burst with
     | none => s
     | some b =>
       if b.held || !(b.started || writeFree cb) || !arrayIdle (cb.arr a) then s
       else
         match b.data with
         | [] => s
         | d :: r =>
           let s1 := s.programRow t a b.next b.fmt d outcome
           if !r.isEmpty then
             s1.modCb t (fun cb => cb.modArr a (fun x =>
               { x with burst := some { b with data := r, next := b.next + 1, started := true } }))
           else if b.cls then
             s1.modCb t (fun cb => cb.modArr a (fun x => { x with burst := none, closing := some b.ack }))
           else (s1.modCb t (fun cb => cbReady (cb.modArr a (fun x => { x with burst := none })) a)).ackBurst t b.ack)

/-- Sums of the weight codes of an array's active rows, output by output (R61). -/
def codeSums (cb : ChargeBank) (a : Nat) (r n : Nat) (acc : List Nat) : List Nat :=
  match n with
  | 0 => acc
  | n + 1 =>
    codeSums cb a (r + 1) n (List.zipWith (· + ·) acc (rowCodes (cb.arr a).fmt (readRow cb a r)))

/-- COLUMN_SUM_RECOMPUTE (R61): the read-back waits while the grant or the reading limit, the array counted, does not
allow it (R55); Q from the levels read, then WVALID. -/
def execColumnSumRecompute (t : TileId) (a : Nat) (s : State) : Res :=
  guardRes (Instr.wf (.columnSumRecompute t a))
    (let cb := (s.tile t).cb
     let x := cb.arr a
     match x.closing with
     | none => s
     | some ack =>
       if cb.grant < activeArrays cb ∨ 20 < readingArrays cb then s
       else
       let q := codeSums cb a 0 x.rows (List.replicate (outsOf x.fmt) 0)
       let close := fun x : ChargeArray =>
         { x with closing := none, wvalid := true, sums := mwrite 0 [] 0 q }
       (s.modCb t (fun cb => cbReady (cb.modArr a close) a)).ackBurst t ack)

/-- Send the rows of a read request (R61): each advances OFFSET by its 256 bytes where the window counts bytes. A
refused row ends the request with a record of AGENT 13. -/
def State.sendRows (s : State) (t : TileId) (a : Nat) (d : Dest) (r n i : Nat) : State :=
  match n with
  | 0 => s
  | n + 1 =>
    let b := rowOfFields (readRow (s.tile t).cb a r)
    let d0 := if d.window = 0 ∨ d.window = 2 then { d with offset := (d.offset + 256 * i) % 2097152 } else d
    let m : Message := { kind := 0, vn := if d.window = 2 then 0 else 2, id := 0, dest := d0, be := BitVec.allOnes 32,
                         flits := wordsOf b }
    match s.inject t m with
    | (s1, none) => s1.sendRows t a d (r + 1) n (i + 1)
    | (s1, some c) =>
      (s1.countRefusal t).raiseFault t { status := c, agent := 13, detail := a, address := destNat d0 }

/-- READ_REQUEST (R61): the rows named are read and sent; it waits for the grant and for the array's pass.
DESIGN CHOICE, log 31. -/
def execReadRequest (t : TileId) (hdr : List Byte) (srcX srcY : Nat) (s : State) : Res :=
  guardRes (Instr.wf (.readRequest t hdr srcX srcY)) (s.inTurn t (isPortFlit srcX srcY)
    (let cb := (s.tile t).cb
     let h := burstHdrOf hdr
     let c := s.readReqCode t hdr srcX srcY
     if c ≠ 0 then s.refusePort t srcX srcY c
     else if h.opc ≠ 2 ∨ readFree cb = false ∨ arrayIdle (cb.arr h.arr) = false then s
     else
       let f := portLast (s.tile t) srcX srcY
       let s1 := (s.takePort t srcX srcY).modCb t (fun cb => { cb with readSent := ringPush 32 cb.readSent (h.dest, h.arr, false) })
       (s1.sendRows t h.arr (destOf h.dest) h.first h.count 0).ackBurst t (f.filter (fun f => f.id != 0))))

end Sys2Proof.Machine
end

