-- ==== Sys2Proof/Machine/Accuracy.lean ====
section
/-!
DEFINITION. Calibration, refresh and Exact mode (chapter 03: R65–R69, R75–R84, R107).
-/

namespace Sys2Proof.Machine

/-! ### Calibration (R75–R80) -/

/-- The array is due for calibration: marked so, or with the whole field since its start-up calibration (R76). -/
def State.calWaits (s : State) (t : TileId) (a : Nat) : Bool :=
  let x := (s.tile t).cb.arr a
  x.cal == .due || (x.cal == .idle && !x.calDone && (s.field (fieldOfTile t)).calDue)

/-- CALIBRATION_DUE (R76): the array's interval or temperature trigger has been reached. DESIGN CHOICE, log 3. -/
def execCalibrationDue (t : TileId) (a : Nat) (s : State) : Res :=
  guardRes (Instr.wf (.calibrationDue t a)) (s.modCb t (fun cb => cb.modArr a calDue))

/-- Arrays of a bank that calibrate now. -/
def measuringCount (cb : ChargeBank) : Nat := (cb.arrays.filter (fun e => e.2.cal == .measuring)).length

/-- A due refresh could begin on the tile now: the array is idle and one more may write. -/
def refreshWaits (cb : ChargeBank) : Bool :=
  writeFree cb && cb.refreshDue.any (fun a => arrayIdle (cb.arr a) && !(cb.arr a).failed && !writingArray (cb.arr a))

/-- The arrays may start calibration together (R76, R77, R55): all due and idle, at most 8 at a time, in the grant, after
the band change of the boundary (R73) and after the refreshes that could begin (R89). -/
def State.calStartOk (s : State) (t : TileId) (arrays : List Nat) : Bool :=
  let T := s.tile t
  T.cb.boundary && !T.quiet && T.cb.bandDue.isNone && !refreshWaits T.cb &&
    arrays.all (fun a => s.calWaits t a && arrayIdle (T.cb.arr a) && !writingArray (T.cb.arr a)) &&
    decide (arrays.dedup.length = arrays.length) && decide (measuringCount T.cb + arrays.length ≤ 8) &&
    decide (activeArrays T.cb + arrays.length ≤ T.cb.grant)

/-- CALIBRATION_START (R76): at a token boundary and outside the quiet window. -/
def execCalibrationStart (t : TileId) (arrays : List Nat) (s : State) : Res :=
  guardRes (Instr.wf (.calibrationStart t arrays))
    (if s.calStartOk t arrays then
       s.modCb t (fun cb => arrays.foldl (fun cb a => cb.modArr a (fun x => { x with cal := .measuring })) cb)
     else s)

/-- One delta moved an eighth of the way to the measured value (R80). -/
def stepDelta (measured factory delta : Int) : Int := delta + roundHalfEven (measured - factory - delta) 8

/-- Working trims replaced and the delta of the band moved (R75, R80). -/
def commitCal (x : ChargeArray) (band now : Nat) (temp : Int) (trig : Nat) (m : TrimSet) : ChargeArray :=
  let f := mget {} x.factory band
  let step := fun d : Trim =>
    ({ offset := stepDelta m.offset f.offset d.offset, gain := stepDelta m.gain f.gain d.gain,
       pulse := stepDelta m.pulse f.pulse d.pulse } : Trim)
  { x with cal := .idle, calLate := false, calDone := true, calAt := now, calTemp := temp, calTrig := trig,
           work := { offset := m.offset, gain := m.gain, pulse := m.pulse }, adcs := m.adcs,
           delta := mmod {} x.delta band step }

/-- CALIBRATION_COMMIT (R75): step C5 replaces the working set. -/
def execCalibrationCommit (t : TileId) (a : Nat) (measured : TrimSet) (s : State) : Res :=
  guardRes (Instr.wf (.calibrationCommit t a measured))
    (let cb := (s.tile t).cb
     if (cb.arr a).cal ≠ .measuring then s
     else
       let temp := (s.field (fieldOfTile t)).bandTemp
       (s.modCb t (fun cb =>
         cbReady (cb.modArr a (fun x => commitCal x cb.band s.clkTime temp (s.odG 0x3000 2) measured)) a)).odAdd 0x3000 8 1)

/-- CALIBRATION_LATE (R78): counted once per delay. -/
def execCalibrationLate (t : TileId) (a : Nat) (s : State) : Res :=
  guardRes (Instr.wf (.calibrationLate t a))
    (let x := (s.tile t).cb.arr a
     if (x.cal = .idle ∧ s.calWaits t a = false) ∨ x.calLate = true then s
     else (s.modCb t (fun cb => cb.modArr a (fun x => { x with calLate := true }))).odAdd 0x3000 0xA 1)

/-- Every array of every tile changed, with what absent arrays stay. -/
def State.mapArrays (s : State) (f : ChargeArray → ChargeArray) : State :=
  s.forEach (s.tiles.map (·.1)) (fun k s =>
    s.modCb (tileAt k) (fun cb => (cb.arrays.map (·.1)).foldl (fun cb a => cb.modArr a f) cb))

/-- Save the user calibration table to the calibration flash (R80). -/
def State.saveUserCal (s : State) : State := (s.mapArrays (fun x => { x with saved := x.delta })).odSet 0x3002 1 1

/-- USER_CALIBRATION_SAVE (R80). DESIGN CHOICE, log 118. -/
def execUserCalibrationSave (s : State) : Res := guardRes (Instr.wf .userCalibrationSave) s.saveUserCal

/-! ### Refresh (R82–R84) -/

/-- REFRESH_DUE (R82); a failed array is left out (R354). -/
def execRefreshDue (t : TileId) (a : Nat) (s : State) : Res :=
  guardRes (Instr.wf (.refreshDue t a))
    (let x := (s.tile t).cb.arr a
     if x.refresh = .idle ∧ x.failed = false then
       s.modCb t (fun cb => { cb.modArr a (fun x => { x with refresh := .due, refreshRow := 0, rowLast := false }) with
                              refreshDue := cb.refreshDue ++ [a] })
     else s)

/-- The refresh of the array is the one to begin: the longest overdue of those that could (R89), or it has begun. -/
def refreshTurn (cb : ChargeBank) (a : Nat) : Bool :=
  !cb.refreshDue.contains a ||
    cb.refreshDue.find? (fun b => arrayIdle (cb.arr b) && !(cb.arr b).failed && !writingArray (cb.arr b)) == some a

/-- A refresh row of the array may start (R82, R83): at a token boundary outside the quiet window (R31), or forced
and not ahead of a ready pass after a row; in the grant and the writing limit (R55). -/
def refreshMay (T : Tile) (a : Nat) : Bool :=
  let x := T.cb.arr a
  let turn := match x.refresh with
    | .idle => false
    | .due => !T.quiet && T.cb.boundary && refreshTurn T.cb a
    | .forced => !(x.rowLast && T.cb.ready.contains a)
  turn && !x.failed && arrayIdle x && !writingArray x && writeFree T.cb

/-- REFRESH_ROW (R82): the row is programmed with the levels read; a row that fails verify is counted and marks the
array for early rejuvenation (R84). -/
def execRefreshRow (t : TileId) (a : Nat) (verified : Bool) (s : State) : Res :=
  guardRes (Instr.wf (.refreshRow t a verified))
    (if !refreshMay (s.tile t) a then s
     else
       let step := fun x : ChargeArray =>
         { x with early := x.early || !verified, rowLast := x.refresh == .forced,
                  refreshRow := if x.refreshRow = 511 then 0 else x.refreshRow + 1,
                  refresh := if x.refreshRow = 511 then .idle else x.refresh }
       let s1 := s.modCb t (fun cb =>
         let r := (cb.arr a).refreshRow
         let lv := (readRow cb a r).mapIdx (fun c f => levelOfField (cb.arr a).fmt c f)
         { (putRow cb a r lv).modArr a step with refreshDue := cb.refreshDue.filter (· != a) })
       if verified then s1 else s1.odAdd 0x3000 0xD 1)

/-- REFRESH_FORCED (R83). -/
def execRefreshForced (t : TileId) (a : Nat) (s : State) : Res :=
  guardRes (Instr.wf (.refreshForced t a))
    (if ((s.tile t).cb.arr a).refresh = .due then
       (s.modCb t (fun cb => { cb.modArr a (fun x => { x with refresh := .forced }) with
                               refreshDue := cb.refreshDue.filter (· != a) })).odAdd 0x3000 0xB 1
     else s)

/-! ### Exact mode (R65–R69, R107) -/

/-- The fields of a row as one read returns them: the cells named differ from the stored level. -/
def readWith (cb : ChargeBank) (a r : Nat) (off : List (Nat × Nat × Nat)) : List Nat :=
  (readRow cb a r).mapIdx (fun c f => match off.find? (fun o => o.1 == r && o.2.1 == c) with
    | some o => o.2.2 % 4
    | none => f)

/-- Weight codes of the active rows of an array as one read returns them. -/
def readArray (cb : ChargeBank) (a : Nat) (off : List (Nat × Nat × Nat)) : List (List Nat) :=
  (List.range (cb.arr a).rows).map (fun r => rowCodes (cb.arr a).fmt (readWith cb a r off))

/-- Sums of codes, output by output. -/
def sumRows (outs : Nat) (rows : List (List Nat)) : List Nat :=
  rows.foldl (fun acc r => List.zipWith (· + ·) acc r) (List.replicate outs 0)

/-- The sums agree with the column-sum memory (R67). -/
def sumsMatch (x : ChargeArray) (rows : List (List Nat)) : Bool :=
  (sumRows (outsOf x.fmt) rows).mapIdx (fun m v => mget 0 x.sums m == v) |>.all id

/-- An Exact-mode stream is ready and holds the tensor block (R107): every array of an enabled segment has been read for
its token. -/
def exactReady (cb : ChargeBank) : Bool :=
  cb.segs.any (fun e => e.2.en && e.2.exactMode && decide (1 ≤ e.2.arrCount) && (arraysOf e.2).all (fun a => (cb.arr a).exact.isSome))

/-- EXACT of TV_STATUS follows the streams. -/
def State.showExact (s : State) (t : TileId) : State :=
  s.modTile t (fun T => { T with tv := { T.tv with exact := exactReady T.cb } })

/-- EXACT_ARRAY_READ (R67): the array is read, and once more where its sums differ from Q; a second mismatch is
counted, logged, and marks the array for early rejuvenation. DESIGN CHOICE, log 33. -/
def execExactArrayRead (t : TileId) (a : Nat) (first second : List (Nat × Nat × Nat)) (s : State) : Res :=
  guardRes (Instr.wf (.exactArrayRead t a first second))
    (let cb := (s.tile t).cb
     let x := cb.arr a
     match segOfArray cb a with
     | none => s
     | some (_, g) =>
       if !(g.exactMode && fullLatch x g && arrayIdle x && x.exact.isNone && readFree cb && !burstAhead cb a) then s
       else
         let r1 := readArray cb a first
         let rows := if sumsMatch x r1 then r1 else readArray cb a second
         let bad := !sumsMatch x rows
         let keep := fun x : ChargeArray => { x with exact := some rows, early := x.early || bad }
         let s1 := (s.modCb t (fun cb => { cb.modArr a keep with boundary := false })).showExact t
         if bad then
           (s1.odAdd 0x3101 2 1).log { rule := 67, status := 0, sev := 1, source := 2, field := fieldOfTile t,
                                       part := (s.partOfTile t).getD 0xFF, data := [t.u, t.y, a] }
         else s1)

/-- Add the products of one row to the accumulators (R65). -/
def exactRow (za : Int) (zs : List Int) (acc : List Int) (row : List Nat) (u : Nat) : List Int :=
  List.zipWith (fun x p => x + p * ((u : Int) - za)) acc (List.zipWith (fun (q : Nat) z => (q : Int) - z) row zs)

/-- Add the products of an array's rows. -/
def exactRows (za : Int) (zs : List Int) (acc : List Int) (rows : List (List Nat)) (us : List Nat) : List Int :=
  match rows, us with
  | r :: rs, u :: ur => exactRows za zs (exactRow za zs acc r u) rs ur
  | _, _ => acc

/-- The exact accumulators of a column group (R65). -/
def exactGroup (cb : ChargeBank) (g : Segment) (grp : Nat) : List Int :=
  let outs := outsOf g.wfmt
  let zs := (List.range outs).map (fun m =>
    (((mget ({} : Channel) cb.chans (g.chanBase + groupChannel g grp + m)).z : Nat) : Int))
  (List.range g.blocks).foldl (fun acc b =>
    let x := cb.arr (g.arrBase + b * groupsOf g + grp)
    exactRows (zAct g) zs acc (x.exact.getD []) (mread 0 x.latch 0 x.rows)) (List.replicate outs 0)

/-- EXACT_STREAM (R107, R69): every array of the segment has been read; the exact accumulators go through the scale,
requantise and deliver steps, and the stream is counted. -/
def execExactStream (t : TileId) (seg : Nat) (s : State) : Res :=
  guardRes (Instr.wf (.exactStream t seg))
    (let cb := (s.tile t).cb
     let g := cb.seg seg
     if !(g.en && g.exactMode && (arraysOf g).all (fun a => (cb.arr a).exact.isSome)) then s
     else
       let token := (cb.arr g.arrBase).token
       let groups := (List.range (groupsOf g)).map (fun i => (i, exactGroup cb g i))
       let s1 := s.forEach groups (fun e s => s.finishGroup t seg token e.1 e.2)
       let clear := fun x : ChargeArray => { x with exact := none, latch := [], latched := [], token := x.token + 1 }
       let s2 := s1.modTile t (fun T =>
         { T with cb := ((arraysOf g).foldl (fun cb a => cb.modArr a clear) T.cb).modSeg seg
                     (fun g => { g with delivered := g.delivered + 1, destFault := false }),
                  tv := { T.tv with exactCnt := satAdd T.tv.exactCnt 1 0xFFFFFFFF } })
       ((s2.showExact t).odAdd 0x3200 8 1).closeWindow t)

end Sys2Proof.Machine
end

