-- ==== Sys2Proof/Machine/Tensor.lean ====
section
/-!
DEFINITION. The tensor block (chapter 04: R96–R106): descriptors, held loads, operations and drains.
-/

namespace Sys2Proof.Machine

/-! ### Descriptors (Table 4.3) -/

/-- Fields of a tensor descriptor. -/
structure TvDesc where
  opc : Nat
  mode : Nat
  array : Nat
  fmt : Nat
  hsel : Bool
  ssel : Bool
  slotlog : Nat
  acc : Bool
  maxtap : Bool
  drain : Bool
  h : Nat
  p : Nat
  k : Nat
  hzp : Nat
  szp : Nat
  heldOff : Nat
  hbank : Nat
  hStride : Nat
  sBase : Nat
  sStride : Nat
  accBase : Nat
  aset : Nat
  dest : Nat
  tovu : Bool
  dfmt : Nat
deriving DecidableEq, Repr

/-- The descriptor that 32 bytes spell. -/
def tvDescOf (b : List Byte) : TvDesc where
  opc := fieldN b 0 1
  mode := fieldN b 1 1 % 4
  array := fieldN b 1 1 / 4 % 4
  fmt := fieldN b 2 1 % 8
  hsel := bit (fieldN b 2 1) 3
  ssel := bit (fieldN b 2 1) 4
  slotlog := fieldN b 3 1 % 4
  acc := bit (fieldN b 3 1) 2
  maxtap := bit (fieldN b 3 1) 3
  drain := bit (fieldN b 3 1) 4
  h := fieldN b 4 2 % 128
  p := fieldN b 6 2
  k := fieldN b 8 2
  hzp := fieldN b 10 1
  szp := fieldN b 11 1
  heldOff := fieldN b 12 2 % 16384
  hbank := fieldN b 12 2 / 16384 % 2
  hStride := fieldN b 14 2
  sBase := fieldN b 16 4 % 2097152
  sStride := fieldN b 20 2
  accBase := fieldN b 22 2 % 4096
  aset := fieldN b 22 2 / 4096 % 2
  dest := fieldN b 24 4 % 2097152
  tovu := bit (fieldN b 24 4) 31
  dfmt := fieldN b 28 1 % 4

/-- A reserved bit of the descriptor is set (R9). -/
def tvReserved (b : List Byte) : Bool :=
  fieldN b 1 1 / 16 != 0 || fieldN b 2 1 / 32 != 0 || fieldN b 3 1 / 32 != 0 || fieldN b 4 2 / 128 != 0 ||
    bit (fieldN b 12 2) 15 || fieldN b 16 4 / 2097152 != 0 || fieldN b 22 2 / 8192 != 0 ||
    bits (fieldN b 24 4) 30 21 != 0 || fieldN b 28 1 / 4 != 0 || !zeroRange b 29 3

/-- Slots of one issue (Table 4.1). -/
def slotsOf (d : TvDesc) : Nat :=
  match d.mode with
  | 0 => 32
  | 1 => 64
  | _ => 8 * 2 ^ d.slotlog

/-- Slot depth in elements (Table 4.1). -/
def depthOf (d : TvDesc) : Nat :=
  let n := match d.mode with
    | 0 => 32
    | 1 => 64
    | _ => 512 / 2 ^ d.slotlog
  if d.fmt = 1 then 2 * n else n

/-- Bytes of one streamed vector in its stored form. -/
def streamBytes (d : TvDesc) : Nat := if d.fmt = 1 then ceilDiv d.k 2 else d.k

/-- Bytes of one drained value. -/
def drainSize (dfmt : Nat) : Nat := if dfmt = 2 then 2 else 4

/-- Bytes that an operation's drain writes. -/
def drainBytes (d : TvDesc) : Nat := (d.h * d.p + if d.maxtap then d.h else 0) * drainSize d.dfmt

/-- Zero points outside Table 4.3. -/
def zpBad (d : TvDesc) : Bool :=
  (d.hzp != 0 && (d.hsel || d.fmt == 2)) || (d.szp != 0 && (d.ssel || d.fmt == 2)) || (d.fmt == 1 && decide (15 < d.szp))

/-- A value of an operation's descriptor outside Table 4.3. -/
def tvOpRange (d : TvDesc) : Bool :=
  (d.mode != 0 && d.array != 0) || (d.mode != 2 && d.slotlog != 0) || d.h == 0 || decide (64 < d.h) || d.p == 0 ||
    decide (4096 < d.h * d.p) || d.k == 0 || decide (depthOf d < d.k) || zpBad d ||
    decide (16384 < d.heldOff + (d.h - 1) * d.hStride + d.k) ||
    decide (0x200000 < d.sBase + (d.p - 1) * d.sStride + streamBytes d) ||
    decide (4096 < d.accBase + d.h * d.p) ||
    (d.drain && !d.tovu && decide (0x200000 < d.dest + drainBytes d))

/-- A value of a held load's descriptor outside Table 4.3: of the fields that the copy uses alone. DESIGN CHOICE,
log 132. -/
def tvLoadRange (d : TvDesc) : Bool :=
  d.k == 0 || decide (16384 < d.k) || decide (16384 < d.heldOff + d.k) || decide (0x200000 < d.sBase + d.k)

/-- The scratchpad offset at which R103, or the drain's own limit, refuses a descriptor: S_BASE, the second streamed
vector, the second held vector in its bank, or DEST; none where all are aligned. DESIGN CHOICE, log 132. -/
def tvBadBase (d : TvDesc) : Option Nat :=
  if d.sBase % 32 ≠ 0 then some d.sBase
  else if d.opc ≠ 0x10 then none
  else if d.sStride % 32 ≠ 0 then some (d.sBase + d.sStride)
  else if d.hStride % 8 ≠ 0 then some (d.heldOff + d.hStride)
  else if d.drain && !d.tovu && d.dest % 32 != 0 then some d.dest
  else none

/-- Operand bases that R103 refuses. -/
def tvMisaligned (d : TvDesc) : Bool := (tvBadBase d).isSome

/-- The code with which the tile refuses a tensor descriptor (R104); 0 if none. The undefined encodings of MODE, FMT and
DFMT are refused for either OPC. DESIGN CHOICE, log 132. -/
def tvCode (b : List Byte) : Nat :=
  let d := tvDescOf b
  if d.opc ≠ 0x10 ∧ d.opc ≠ 0x11 then 0x0001
  else if tvReserved b || d.mode == 3 || decide (3 ≤ d.fmt) || d.dfmt == 3 then 0x0002
  else if (if d.opc = 0x10 then tvOpRange d else tvLoadRange d) then 0x0003
  else if tvMisaligned d then 0x0401
  else 0

/-! ### Operands (R100, Table 4.2) -/

/-- Held bytes of vector h. -/
def heldVector (v : Tensor) (d : TvDesc) (h : Nat) : List Nat :=
  (mread 0 v.held (d.hbank * 16384 + d.heldOff + h * d.hStride) d.k).map (·.toNat)

/-- Streamed codes of vector p. -/
def streamVector (p : Spad) (d : TvDesc) (i : Nat) : List Nat :=
  let b := (spRead p (d.sBase + i * d.sStride) (streamBytes d)).map (·.toNat)
  if d.fmt = 1 then (b.flatMap (fun x => [x % 16, x / 16])).take d.k else b

/-- The scratchpad ranges that an operation streams. -/
def streamRanges (d : TvDesc) : List (Nat × Nat) :=
  (List.range d.p).map (fun i => (d.sBase + i * d.sStride, streamBytes d))

/-- A held code at the edge. -/
def heldEdge (d : TvDesc) (c : Nat) : Int := if d.hsel then signed 8 c else (c : Int) - (d.hzp : Int)

/-- A streamed code at the edge. -/
def streamEdge (d : TvDesc) (c : Nat) : Int :=
  if d.ssel then signed (if d.fmt = 1 then 4 else 8) c else (c : Int) - (d.szp : Int)

/-- The exact dot product of a pair in the integer formats (R101). -/
def dotInt (d : TvDesc) (hv sv : List Nat) : Int :=
  (List.zipWith (fun a b => heldEdge d a * streamEdge d b) hv sv).foldl (· + ·) 0

/-- The dot product of a pair in FP8, exact and rounded once (R102). -/
def dotFp (d : TvDesc) (hv sv : List Nat) : Word :=
  fp32 ((List.zipWith (fun a b => fpMul (fp8Of d.hsel a) (fp8Of d.ssel b)) hv sv).foldl fpAdd (.fin false 0 0))

/-- Key of an accumulator entry. -/
def tvAccKey (d : TvDesc) (p : Nat) : Nat := d.aset * 4096 + d.accBase + p

/-- The new value of an accumulator entry, and whether it saturated or is not finite (R101, R102). -/
def pairResult (v : Tensor) (d : TvDesc) (hv sv : List Nat) (p : Nat) : Word × Bool :=
  let old := mget 0 v.acc (tvAccKey d p)
  if d.fmt = 2 then
    let x := dotFp d hv sv
    let y := if d.acc then addW old x else x
    (y, !fpFinite (fpOf y))
  else
    let x := dotInt d hv sv + if d.acc then sInt old else 0
    (wInt (satInt 31 x), satHit 31 x)

/-- Every pair of an operation: the new entries with their flags (R98). -/
def pairResults (T : Tile) (d : TvDesc) : List (Word × Bool) :=
  let hs := (List.range d.h).map (heldVector T.tv d)
  (List.range d.p).flatMap (fun i =>
    let sv := streamVector T.sp d i
    hs.mapIdx (fun h hv => pairResult T.tv d hv sv (i * d.h + h)))

/-- Cycles that R99 adds to the issues of an operation, and whether any issue was lengthened. -/
def stallCycles (d : TvDesc) : Nat :=
  let s := slotsOf d
  let n := d.h * d.p
  ((List.range (ceilDiv n s)).map (fun i =>
    let vecs := (min (s * (i + 1)) n - 1) / d.h - s * i / d.h + 1
    ceilDiv (vecs * streamBytes d) 512 - 1)).sum

/-! ### Commands -/

/-- Take the first descriptor of an OPC that no earlier one on its bank holds back (R105). Operations issue in the order
in which they were submitted (R106); a held load goes ahead of work on the other bank. -/
def takeDesc (opc : Nat) (before : List (List Byte)) (q : List (List Byte)) : Option (List Byte × List (List Byte)) :=
  match q with
  | [] => none
  | b :: r =>
    if (tvDescOf b).opc = opc then
      if before.all (fun x => (tvDescOf x).hbank != (tvDescOf b).hbank) then some (b, before ++ r)
      else if opc = 0x11 then takeDesc opc (before ++ [b]) r
      else none
    else takeDesc opc (before ++ [b]) r

/-- MODE reads idle when nothing is queued and no drain is left (Table 4.8). -/
def tvSettle (v : Tensor) : Tensor := if v.queue.isEmpty && v.drains.isEmpty then { v with mode := 0 } else v

/-- The drain that an operation leaves behind. -/
def drainOf (d : TvDesc) : Drain where
  set := d.aset
  base := d.accBase
  held := d.h
  pairs := d.h * d.p
  maxtap := d.maxtap
  fp := d.fmt == 2
  dfmt := d.dfmt
  tovu := d.tovu
  dest := d.dest

/-- TENSOR_OPERATION (R98): the pairs in order into the accumulator entries; it waits for the held loads before it, for an
Exact stream (R107), and for a drain of its accumulator set (R106). -/
def execTensorOperation (t : TileId) (s : State) : Res :=
  guardRes (Instr.wf (.tensorOperation t))
    (let T := s.tile t
     match takeDesc 0x10 [] T.tv.queue with
     | none => s
     | some (b, rest) =>
       let d := tvDescOf b
       if T.tv.exact || T.tv.drains.any (fun x => x.set == d.aset) then s
       else
         let r := pairResults { T with sp := spView s.free T.sp } d
         let n := (r.filter (·.2)).length
         let st := stallCycles d
         let fp := d.fmt == 2
         let run := fun v : Tensor =>
           { v with queue := rest, mode := d.mode + 1, acc := mwrite 0 v.acc (tvAccKey d 0) (r.map (·.1)),
                    drains := if d.drain then v.drains ++ [drainOf d] else v.drains,
                    isat := v.isat || (!fp && n != 0), nonfinite := v.nonfinite || (fp && n != 0),
                    isatCnt := if fp then v.isatCnt else satAdd v.isatCnt n 0xFFFFFFFF,
                    nfCnt := if fp then satAdd v.nfCnt n 0xFFFFFFFF else v.nfCnt,
                    streamStall := v.streamStall || st != 0, stallCnt := satAdd v.stallCnt st 0xFFFFFFFF }
         let s1 := (s.meetRanges t 5 (streamRanges d)).useFree 32
         ((s1.modTv t (fun v => tvSettle (run v))).odAdd 0x3200 (if fp then 6 else 5) n).odAdd 0x3200 7 st)

/-- HELD_LOAD (R105): K bytes from the scratchpad into the held bank. -/
def execHeldLoad (t : TileId) (s : State) : Res :=
  guardRes (Instr.wf (.heldLoad t))
    (let T := s.tile t
     match takeDesc 0x11 [] T.tv.queue with
     | none => s
     | some (b, rest) =>
       let d := tvDescOf b
       let z := s.spGet t 5 0 d.sBase d.k
       z.1.modTv t (fun v => tvSettle
         { v with queue := rest, held := mwrite 0 v.held (d.hbank * 16384 + d.heldOff) z.2.1 }))

/-- A drained value in its form (Table 4.3). -/
def drainForm (fp : Bool) (dfmt : Nat) (w : Word) : List Byte :=
  let x := if fp then fpOf w else fpInt (sInt w)
  match dfmt with
  | 1 => leBytes 4 (if fp then w else fp32 x).toNat
  | 2 => leBytes 2 ((bf16 x).toNat / 65536)
  | _ => leBytes 4 w.toNat

/-- The larger of two accumulator values. -/
def drainMax (fp : Bool) (a b : Word) : Word := if fp then maxW a b else if sInt a < sInt b then b else a

/-- The largest value of held vector h. -/
def tapMax (fp : Bool) (vals : List Word) (held h : Nat) : Word :=
  let mine := (vals.mapIdx (fun p w => (p, w))).filter (fun e => e.1 % max held 1 == h)
  match mine with
  | [] => 0
  | e :: r => r.foldl (fun m x => drainMax fp m x.2) e.2

/-- The bytes of a drain, maxima appended (R106). -/
def drainData (v : Tensor) (d : Drain) : List Byte :=
  let vals := mread 0 v.acc (d.set * 4096 + d.base) d.pairs
  let taps := if d.maxtap then (List.range d.held).map (tapMax d.fp vals d.held) else []
  (vals ++ taps).flatMap (drainForm d.fp d.dfmt)

/-- The drain ends: TDONE is signalled. -/
def State.drainDone (s : State) (t : TileId) : State :=
  s.modTile t (fun T => { T with tv := tvSettle { T.tv with drains := T.tv.drains.drop 1 },
                                 cc := { T.cc with events := setBit T.cc.events 5 true } })

/-- TENSOR_DRAIN (R106): to the scratchpad, or to the vector unit's queue as far as its 256 entries of 32 bytes have
room, the last one padded. DESIGN CHOICE, log 132. -/
def execTensorDrain (t : TileId) (s : State) : Res :=
  guardRes (Instr.wf (.tensorDrain t))
    (let T := s.tile t
     match T.tv.drains with
     | [] => s
     | d :: r =>
       let data := drainData T.tv d
       if d.tovu then
         let words := (wordsOf data).mapIdx (fun i w => (i, w))
         let room := 256 - T.vu.queue.length
         let now := (words.drop d.sent).take room
         let s1 := s.modVu t (fun v => { v with queue := v.queue ++ now })
         if words.length ≤ d.sent + room then s1.drainDone t
         else s1.modTv t (fun v => { v with drains := { d with sent := d.sent + now.length } :: r })
       else (s.spStoreWords t 5 0 d.dest (enabled data)).drainDone t)

end Sys2Proof.Machine
end

