-- ==== Sys2Proof/Machine/Regs.lean ====
section
/-!
DEFINITION. The tile register window (R179, Table 7.5) with the register blocks of Tables 2.10, 3.10, 4.7, 5.10, 6.11
and 7.17, and halting and resuming of cores (R198, R200), which CC_CTRL asks for.
-/

namespace Sys2Proof.Machine

/-! ### Cores of a partition, halt and resume (R198–R200) -/

/-- Tiles of a partition that hold a program. -/
def State.partTiles (s : State) (p : Nat) : List TileId :=
  (s.tiles.filter (fun e => e.2.cc.loaded && s.partOfTile (tileAt e.1) == some p)).map (fun e => tileAt e.1)

/-- Debug features work for a tile's partition (R197): OD 0x7000.01 is 1 and the partition is not sealed. -/
def State.debugOn (s : State) (t : TileId) : Bool :=
  match s.partOfTile t with
  | some p => s.odP 0x7000 1 p == 1 && !s.isSealed p
  | none => false

/-- CC_TIMER's count now: down one per core cycle, stopped while halted (Table 7.15). DESIGN CHOICE, log 121. -/
def timerNow (c : Core) (clk : Nat) : Nat := if c.state = .halted then c.timer else c.timer - (clk - c.timerAt) / 2

/-- Halt one core with a cause (R198): at once between instructions, at the response in RLD, RST or RAMO. -/
def State.haltCore (s : State) (t : TileId) (cause : Nat) : State :=
  let c := (s.tile t).cc
  if c.state ≠ .running ∧ c.state ≠ .waiting then s
  else if c.wait ≠ .none then
    s.modCc t (fun c => { c with haltDue := if c.haltDue = 0 then cause else min c.haltDue cause })
  else
    (s.modCc t (fun c => { pmcSettle s.clkTime c with timer := timerNow c s.clkTime, timerAt := s.clkTime, state := .halted,
                                                      haltCause := cause, haltDue := 0 })).trace t 6 (leBytes 1 cause)

/-- Halt every core of a partition; the tile whose breakpoint, watchpoint or BRK asked has its own cause. -/
def State.haltPart (s : State) (p : Nat) (own : Option (TileId × Nat)) : State :=
  let s1 := s.forEach (s.partTiles p) (fun t s =>
    match own with
    | some (u, c) => if t = u then s.haltCore t c else s.haltCore t 2
    | none => s.haltCore t 2)
  s1.odSetP 0x7000 7 p 1

/-- Halt a tile or, with `scope`, its partition. -/
def State.haltScoped (s : State) (t : TileId) (scope : Bool) (cause : Nat) : State :=
  match scope, s.partOfTile t with
  | true, some p => s.haltPart p (some (t, cause))
  | _, _ => s.haltCore t cause

/-- Resume one halted core at its PC (R200). -/
def State.resumeCore (s : State) (t : TileId) : State :=
  if (s.tile t).cc.state = .halted then
    (s.modCc t (fun c => { c with state := .running, haltCause := 0, passBp := true, timerAt := s.clkTime })).trace t 7 []
  else s.modCc t (fun c => { c with haltDue := 0 })

/-- Resume every core of a partition. -/
def State.resumePart (s : State) (p : Nat) : State :=
  (s.forEach (s.partTiles p) (fun t s => s.resumeCore t)).odSetP 0x7000 7 p 0

/-- DRAINED (R198): the core is halted, the engines are idle, no pass is ready and no flit stands at the local port. -/
def drained (T : Tile) : Bool :=
  T.cc.state == .halted && T.tv.queue.isEmpty && T.tv.drains.isEmpty && T.mv.all (fun e => e.2.inHand.isEmpty) &&
    T.cb.ready.isEmpty && T.rx.isEmpty

/-- Every tile of a partition has drained. -/
def State.partDrained (s : State) (p : Nat) : Bool := (s.partTiles p).all (fun t => drained (s.tile t))

/-! ### Reads -/

/-- A block of 0x20-byte or 8-byte register groups: group and offset within it. -/
def groupAt (off base size : Nat) : Nat × Nat := ((off - base) / size, (off - base) % size)

/-- CC_STATUS.STATE (Table 7.18). -/
def coreStateNum : CoreState → Nat
  | .notLoaded => 0
  | .running => 1
  | .waiting => 2
  | .halted => 3
  | .stoppedHalt => 4
  | .stoppedFault => 5

/-- CC_EVENTS: the sticky events and MSG (Table 7.4). -/
def eventsNow (c : Core) : Nat := c.events / 2 * 2 + b2n (!c.msgq.isEmpty)

/-- CC_STATUS. -/
def ccStatus (T : Tile) : Nat :=
  T.cc.haltCause * 4096 + b2n (drained T) * 256 + b2n T.cc.flost * 128 + b2n T.cc.cfgErr * 64 + b2n T.cc.fault * 32 +
    coreStateNum T.cc.state

/-- A word of a 32-byte record. -/
def recordWord (r : List Byte) (w : Nat) : Nat := fieldN r (4 * w) 4

/-- Read of the control-core block (Tables 7.17, 7.18). -/
def readCc (s : State) (t : TileId) (off : Nat) : Nat :=
  let T := s.tile t
  let c := T.cc
  if off = 0x000 then 0x40201042
  else if off = 0x004 then c.role * 256 + b2n c.bulk * 128 + b2n c.loaded * 64
  else if off = 0x008 then b2n c.scope * 8
  else if off = 0x00C then ccStatus T
  else if off = 0x010 then c.pc.toNat % 65536
  else if off = 0x014 then c.wdog
  else if off = 0x018 then timerNow c s.clkTime
  else if off = 0x01C then eventsNow c
  else if off = 0x020 then c.msgq.length
  else if off = 0x024 then s.clkTime % 2 ^ 32
  else if off = 0x028 then c.timeHi.toNat
  else if off = 0x02C then c.flostCnt
  else if off = 0x030 then c.pmcSel
  else if 0x034 ≤ off ∧ off < 0x044 then mget 0 (pmcSettle s.clkTime c).pmc ((off - 0x034) / 4)
  else if off = 0x044 then c.fsink % 2 ^ 32
  else if off = 0x048 then c.fsink / 2 ^ 32
  else if off = 0x04C then b2n c.traceFull * 4 + s.traceMode t
  else if 0x080 ≤ off ∧ off < 0x0A0 then
    let g := groupAt off 0x080 8
    let b := mget {} c.bps g.1
    if g.2 = 0 then b.pc else b2n b.scope * 2 + b2n b.en
  else if 0x0A0 ≤ off ∧ off < 0x0C0 then
    let g := groupAt off 0x0A0 16
    let w := mget {} c.wps g.1
    if g.2 = 0 then w.lo else if g.2 = 4 then w.hi
    else if g.2 = 8 then b2n w.scope * 8 + b2n w.onWrite * 4 + b2n w.onRead * 2 + b2n w.en
    else 0
  else if 0x100 ≤ off ∧ off < 0x120 then recordWord c.faultRec ((off - 0x100) / 4)
  else if 0x180 ≤ off ∧ off < 0x200 then (mget 0 c.regs ((off - 0x180) / 4)).toNat
  else 0

/-- Ready operations that wait (Table 2.12): ready passes, bursts not held that have not begun, and Exact-mode reads of
arrays whose words have all been latched. -/
def queuedOps (cb : ChargeBank) : Nat :=
  cb.ready.length + (cb.arrays.filter (fun e => e.2.burst.any (fun b => !b.held && !b.started))).length +
    (cb.arrays.filter (fun e => e.2.exact.isNone && (segOfArray cb e.1).any (fun g =>
      g.2.exactMode && fullLatch e.2 g.2))).length

/-- Read of the charge-bank block (Tables 2.10 to 2.18). A scale or destination register shows the value in force while a
written one waits for the boundary. DESIGN CHOICE, log 131. -/
def readCb (cb : ChargeBank) (off : Nat) : Nat :=
  if off = 0x000 then 0xC0C1489A
  else if off = 0x004 then min (activeArrays cb) 63 * 65536 + min (queuedOps cb) 255 * 256 + cb.grant
  else if off = 0x008 then
    b2n cb.boundary * 128 + b2n (cb.arrays.any (fun e => e.2.conv.isSome)) * 64 +
      b2n (cb.arrays.any (fun e => readingArray e.2)) * 32 +
      b2n (cb.arrays.any (fun e => e.2.burst.any (·.started))) * 16 +
      b2n (cb.arrays.any (fun e => e.2.burst.any (·.held))) * 8 + b2n cb.cfgErr * 4 + b2n cb.clamp * 2 + b2n cb.wfail
  else if off = 0x00C then cb.rqClamps * 65536 + cb.accClamps
  else if off = 0x010 then cb.rowsFailed * 65536 + cb.retries
  else if 0x100 ≤ off ∧ off < 0x300 then
    let g := groupAt off 0x100 32
    let x := cb.seg g.1
    match g.2 with
    | 0x00 => segCfg0 x
    | 0x04 => segCfg1 x
    | 0x08 => x.scaleA.toNat
    | 0x0C => x.rcpOut.toNat
    | 0x10 => x.dest0.toNat
    | 0x14 => x.dest1.toNat
    | _ => 0
  else if 0x400 ≤ off ∧ off < 0xA00 then
    let g := groupAt off 0x400 8
    let x := cb.arr g.1
    if g.2 = 0 then b2n x.wvalid * 2 ^ 31 + x.fmt * 2 ^ 28 + x.rows * 2 ^ 18
    else x.e * 65536 + unsign 16 x.base
  else 0

/-- Read of the Lookout block (Tables 3.10, 3.11). -/
def readLk (lk : Lookout) (off : Nat) : Nat :=
  if off = 0x000 then lk.rr * 2 + b2n lk.en
  else if off = 0x004 then lk.persistGrp * 256 + lk.failGrp
  else if off = 0x008 then lk.rrPasses
  else if 0x100 ≤ off ∧ off < 0x180 then
    let g := groupAt off 0x100 16
    let x := mget {} lk.groups g.1
    match g.2 with
    | 0 => x.meanHi * 2 ^ 24 + x.meanLo * 2 ^ 16
    | 4 => x.satMax * 2 ^ 16 + x.zeroMax
    | 8 => x.persistCnt * 2 ^ 16 + x.failCnt
    | _ => 0
  else if 0x200 ≤ off ∧ off < 0x800 then
    let g := groupAt off 0x200 8
    if g.2 = 0 then mget 0 lk.satCnt g.1 else mget 0 lk.zeroCnt g.1
  else 0

/-- Read of the tensor and vector block (Tables 4.7, 4.8). -/
def readTv (v : Tensor) (off : Nat) : Nat :=
  match off with
  | 0x000 => 0x454020C0
  | 0x004 => v.tc
  | 0x008 =>
    v.mode * 64 + b2n v.exact * 32 + b2n (!v.queue.isEmpty || !v.drains.isEmpty) * 16 + b2n v.isat * 8 +
      b2n v.nonfinite * 4 + b2n v.descErr * 2 + b2n v.streamStall
  | 0x00C => v.isatCnt
  | 0x010 => v.nfCnt
  | 0x014 => v.stallCnt
  | 0x018 => v.exactCnt
  | _ => 0

/-- Read of the memory block (Tables 5.10, 5.11). -/
def readSp (T : Tile) (off : Nat) : Nat :=
  if off = 0x000 then 0x200000
  else if off = 0x004 then b2n T.sp.misalign * 4 + b2n T.sp.uerr * 2 + b2n T.sp.cerr
  else if off = 0x008 then T.sp.cerrCnt
  else if off = 0x00C then T.sp.uerrCnt
  else if off = 0x010 then T.sp.uerrAddr
  else if off = 0x014 then T.sp.waitCnt
  else if 0x100 ≤ off ∧ off < 0x180 then
    let g := groupAt off 0x100 32
    let m := mget {} T.mv g.1
    match g.2 with
    | 0x00 => b2n m.en
    | 0x04 => m.sizeLog2 * 2 ^ 28 + m.base * 32
    | 0x08 => m.timeout * 65536 + m.hi * 256 + m.lo
    | 0x0C => m.tail
    | 0x10 => m.fetched * 65536 + m.done
    | 0x14 =>
      m.lastStatus * 65536 + b2n m.cfgErr * 16 + b2n m.violation * 8 + b2n m.halted * 4 + b2n m.fetching * 2 +
        b2n (!m.inHand.isEmpty)
    | _ => 0
  else if 0x200 ≤ off ∧ off < 0x220 then recordWord T.sp.fault ((off - 0x200) / 4)
  else 0

/-- Read of the router block (Tables 6.11, 6.12). DEDUCED, log 85. -/
def readRt (s : State) (t : TileId) (off : Nat) : Nat :=
  let R := s.router t
  if off = 0x000 then 0x05200320
  else if off = 0x004 then
    b2n R.cfgErr * 32 + b2n R.linkFail * 16 + b2n R.rincBit * 8 + b2n R.rsatBit * 4 +
      b2n (R.hold || s.mesh.detour != .idle) * 2 + b2n (s.isRetired t)
  else if off = 0x008 then s.odG 0x3400 4 * 65536 + s.rimShare t
  else if off = 0x00C then R.lcerr
  else if off = 0x010 then R.lretry
  else if off = 0x014 then R.rsat
  else if off = 0x018 then R.rinc
  else if off = 0x01C then R.refuse
  else if off = 0x020 then s.dark % 2 ^ 32
  else if off = 0x024 then s.dark / 2 ^ 32
  else if 0x100 ≤ off ∧ off < 0x150 then s.rowMapGet t.y (t.u / 21) ((off - 0x100) / 4)
  else if 0x404 ≤ off ∧ off < 0x800 then s.routeEntry t ((off - 0x400) / 4)
  else 0

/-- Value of a tile register (R179): offsets not listed read as zero. -/
def readReg (s : State) (t : TileId) (off : Nat) : Nat :=
  match off / 4096 with
  | 0 => readCc s t off
  | 1 => readCb (s.tile t).cb (off % 4096)
  | 2 => readLk (s.tile t).lk (off % 4096)
  | 3 => readTv (s.tile t).tv (off % 4096)
  | 4 => readSp (s.tile t) (off % 4096)
  | 5 => readRt s t (off % 4096)
  | _ => 0

/-- CC_CTRL, CC_PC and CC_GREG answer only on a halted core, or one stopped on a fault (R181, R200). -/
def ccClosed (c : Core) (off : Nat) : Bool :=
  (off == 0x008 || off == 0x010 || (decide (0x180 ≤ off) && decide (off < 0x200))) && c.state != .halted &&
    c.state != .stoppedFault

/-- A read of a tile register: the state after it (CC_TIME_LO latches CC_TIME_HI), the value, and 0x0315 where the
register is closed. DESIGN CHOICE, log 44. -/
def State.readTileReg (s : State) (t : TileId) (off : Nat) : State × Nat × Nat :=
  if ccClosed (s.tile t).cc off then (s, 0, 0x0315)
  else
    let s1 := if off = 0x024 then s.modCc t (fun c => { c with timeHi := BitVec.ofNat 32 (s.clkTime / 2 ^ 32) }) else s
    (s1, readReg s t off, 0)

/-! ### Writes -/

/-- CFG_ERR of CC_STATUS: a write was ignored. -/
def ccErr (c : Core) : Core := { c with cfgErr := true }

/-- A write to a breakpoint register (Table 7.18). -/
def writeBp (c : Core) (off v : Nat) : Core :=
  let g := groupAt off 0x080 8
  { c with bps := mmod {} c.bps g.1 (fun b =>
      if g.2 = 0 then { b with pc := bits v 15 2 * 4 } else { b with scope := bit v 1, en := bit v 0 }) }

/-- A write to a watchpoint register. -/
def writeWp (c : Core) (off v : Nat) : Core :=
  let g := groupAt off 0x0A0 16
  { c with wps := mmod {} c.wps g.1 (fun w =>
      match g.2 with
      | 0 => { w with lo := v }
      | 4 => { w with hi := v }
      | 8 => { w with scope := bit v 3, onWrite := bit v 2, onRead := bit v 1, en := bit v 0 }
      | _ => w) }

/-- A write of the control-core block other than CC_CTRL; `mgmt`: through the management path (R202). -/
def writeCc (c : Core) (clk off v : Nat) (mgmt : Bool) : Core :=
  if off = 0x00C then
    { c with flost := c.flost && !bit v 7, cfgErr := c.cfgErr && !bit v 6, fault := c.fault && !bit v 5 }
  else if off = 0x014 then { c with wdog := v % 2 ^ 24 }
  else if off = 0x018 then { c with timer := v, timerAt := clk }
  else if off = 0x01C then { c with events := clearBits c.events (bits v 9 1 * 2) }
  else if off = 0x02C then { c with flostCnt := 0 }
  else if off = 0x030 then { pmcSettle clk c with pmcSel := v % 65536 }
  else if 0x034 ≤ off ∧ off < 0x044 then
    let d := pmcSettle clk c
    { d with pmc := mdel d.pmc ((off - 0x034) / 4) }
  else if 0x080 ≤ off ∧ off < 0x0A0 then (if mgmt then writeBp c off v else ccErr c)
  else if 0x0A0 ≤ off ∧ off < 0x0C0 then (if mgmt then writeWp c off v else ccErr c)
  else if off = 0x008 then (if mgmt then c else ccErr c)
  else c

/-- A write of the charge-bank block. -/
def writeCb (cb : ChargeBank) (off : Nat) (v : Word) : ChargeBank :=
  let n := v.toNat
  if off = 0x008 then
    { cb with cfgErr := cb.cfgErr && !bit n 2, clamp := cb.clamp && !bit n 1, wfail := cb.wfail && !bit n 0 }
  else if off = 0x00C then { cb with rqClamps := 0, accClamps := 0 }
  else if off = 0x010 then { cb with rowsFailed := 0, retries := 0 }
  else if 0x100 ≤ off ∧ off < 0x300 then
    let g := groupAt off 0x100 32
    if g.2 ≤ 0x14 then writeSeg cb g.1 g.2 v else cb
  else if 0x400 ≤ off ∧ off < 0xA00 then
    let g := groupAt off 0x400 8
    if g.2 = 4 then cb.modArr g.1 (fun x => { x with e := bits n 18 16, base := signed 16 n }) else cb
  else cb

/-- A write of LK_ENV1 with a limit above 1 024 is ignored (R94). -/
def envBad (off n : Nat) : Bool :=
  off % 16 == 4 && (decide (1024 < bits n 26 16) || decide (1024 < bits n 10 0))

/-- A write of the Lookout block: envelopes wait for the tile's next token. -/
def writeLk (lk : Lookout) (boundary : Bool) (off : Nat) (v : Word) : Lookout :=
  let n := v.toNat
  if off = 0x000 then { lk with rr := bits n 2 1, en := bit n 0 }
  else if off = 0x004 then
    { lk with persistGrp := clearBits lk.persistGrp (bits n 15 8), failGrp := clearBits lk.failGrp (bits n 7 0) }
  else if off = 0x008 then { lk with rrPasses := 0 }
  else if 0x100 ≤ off ∧ off < 0x180 then
    let g := groupAt off 0x100 16
    if g.2 = 8 then { lk with groups := mmod {} lk.groups g.1 (fun x => { x with persistCnt := 0, failCnt := 0 }) }
    else if g.2 = 12 ∨ envBad off n = true then lk
    else if boundary then setEnv lk off v
    else { lk with defer := lk.defer ++ [(off, v)] }
  else if 0x200 ≤ off ∧ off < 0x800 then
    let g := groupAt off 0x200 8
    if g.2 = 0 then { lk with satCnt := mdel lk.satCnt g.1 } else { lk with zeroCnt := mdel lk.zeroCnt g.1 }
  else lk

/-- A write of the tensor and vector block. -/
def writeTv (v : Tensor) (off n : Nat) : Tensor :=
  match off with
  | 0x008 => { v with isat := v.isat && !bit n 3, nonfinite := v.nonfinite && !bit n 2, descErr := v.descErr && !bit n 1,
                      streamStall := v.streamStall && !bit n 0 }
  | 0x00C => { v with isatCnt := 0 }
  | 0x010 => { v with nfCnt := 0 }
  | 0x014 => { v with stallCnt := 0 }
  | 0x018 => { v with exactCnt := 0 }
  | _ => v

/-- A write of the scratchpad's own registers. -/
def writeSpReg (p : Spad) (off n : Nat) : Spad :=
  match off with
  | 0x004 => { p with misalign := p.misalign && !bit n 2, uerr := p.uerr && !bit n 1, cerr := p.cerr && !bit n 0 }
  | 0x008 => { p with cerrCnt := 0 }
  | 0x00C => { p with uerrCnt := 0 }
  | 0x014 => { p with waitCnt := 0 }
  | _ => p

/-- A write of the memory block. -/
def State.writeSpBlock (s : State) (t : TileId) (off : Nat) (v : Word) : State :=
  if 0x100 ≤ off ∧ off < 0x180 then
    let g := groupAt off 0x100 32
    match g.2 with
    | 0x00 => s.modMv t g.1 (fun m => writeMvCtrl m v.toNat)
    | 0x04 => s.writeMvRing t g.1 v.toNat
    | 0x08 => s.modMv t g.1 (fun m => writeMvPace m v.toNat)
    | 0x0C => s.writeMvTail t g.1 v.toNat
    | 0x14 => s.modMv t g.1 (fun m => { m with cfgErr := m.cfgErr && !bit v.toNat 4, violation := m.violation && !bit v.toNat 3 })
    | _ => s
  else s.modSp t (fun p => writeSpReg p off v.toNat)

/-- A write of a router's counters and sticky bits. -/
def writeRtOwn (R : Router) (off n : Nat) : Router :=
  match off with
  | 0x004 => { R with cfgErr := R.cfgErr && !bit n 5, linkFail := R.linkFail && !bit n 4, rincBit := R.rincBit && !bit n 3,
                      rsatBit := R.rsatBit && !bit n 2 }
  | 0x00C => { R with lcerr := 0 }
  | 0x010 => { R with lretry := 0 }
  | 0x014 => { R with rsat := 0 }
  | 0x018 => { R with rinc := 0 }
  | 0x01C => { R with refuse := 0 }
  | _ => R

/-- Set an entry of a field row's map in every router of the row (R161). -/
def State.setRowMap (s : State) (y c i k : Nat) : State :=
  let m :=
    if k = s.fuseColumn (8 * (y / 20) + c) (y % 20) i then mdel s.mesh.rowMap (rowKey y c i)
    else mput s.mesh.rowMap (rowKey y c i) k
  { s with mesh := { s.mesh with rowMap := m } }

/-- Set a route-table entry of a router. -/
def State.setRoute (s : State) (t : TileId) (r entry : Nat) : State :=
  s.modRouter t (fun R => { R with routes := mset 0 R.routes r entry })

/-- A write of the router block: route table and row map through the management path only (R168). -/
def State.writeRtBlock (s : State) (t : TileId) (off : Nat) (v : Word) (mgmt : Bool) : State :=
  let n := v.toNat
  if 0x100 ≤ off ∧ off < 0x150 then
    if mgmt then s.setRowMap t.y (t.u / 21) ((off - 0x100) / 4) (min (n % 32) 20)
    else s.modRouter t (fun R => { R with cfgErr := true })
  else if 0x404 ≤ off ∧ off < 0x800 then
    if mgmt then s.setRoute t ((off - 0x400) / 4) (bits n 31 24 * 2 ^ 24 + bits n 9 0)
    else s.modRouter t (fun R => { R with cfgErr := true })
  else s.modRouter t (fun R => writeRtOwn R off n)

/-- A write to a tile register other than CC_CTRL's commands (R9, R179): reserved bits and offsets not listed are
ignored. `mgmt`: through the management path, else by the tile's program. -/
def State.writeTileReg (s : State) (t : TileId) (off : Nat) (v : Word) (mgmt : Bool) : State :=
  let o := off % 4096
  match off / 4096 with
  | 0 => s.modCc t (fun c => writeCc c s.clkTime o v.toNat mgmt)
  | 1 => s.modCb t (fun cb => writeCb cb o v)
  | 2 =>
    s.modTile t (fun T => { T with lk := writeLk T.lk T.cb.boundary o v,
                                   cb := if 0x100 ≤ o ∧ o < 0x180 ∧ envBad o v.toNat = true then cfgErr T.cb else T.cb })
  | 3 => s.modTv t (fun x => writeTv x o v.toNat)
  | 4 => s.writeSpBlock t o v
  | 5 => s.writeRtBlock t o v mgmt
  | _ => s

end Sys2Proof.Machine
end

