-- ==== Sys2Proof/Machine/CoreOps.lean ====
section
/-!
DEFINITION. How a control core runs one instruction (chapter 07: R170–R173, R181, R197, R198): issue, breakpoints,
retirement and faults, and loads and stores through the address map of Table 7.1.
-/

namespace Sys2Proof.Machine

/-! ### Registers -/

/-- A general register; g0 reads zero (R170). -/
def State.gr (s : State) (t : TileId) (n : Fin 32) : Word := if n = 0 then 0 else mget 0 (s.tile t).cc.regs n

/-- A general register written; g0 ignores writes (R170). -/
def State.setGr (s : State) (t : TileId) (n : Fin 32) (v : Word) : State :=
  if n = 0 then s else s.modCc t (fun c => { c with regs := mset 0 c.regs n v })

/-- The register after n. -/
def pairHi (n : Fin 32) : Fin 32 := n + 1

/-- The 64-bit value of a pair (R172). -/
def State.grPair (s : State) (t : TileId) (n : Fin 32) : Nat :=
  (s.gr t n).toNat + 2 ^ 32 * (s.gr t (pairHi n)).toNat

/-- A pair written. -/
def State.setGrPair (s : State) (t : TileId) (n : Fin 32) (v : Nat) : State :=
  (s.setGr t n (BitVec.ofNat 32 (v % 2 ^ 32))).setGr t (pairHi n) (BitVec.ofNat 32 (v / 2 ^ 32))

/-- An odd register where a pair is required (R172). -/
def oddPair (n : Fin 32) : Bool := n.val % 2 == 1

/-- Sign extension of a 16-bit immediate. -/
def sext16 (v : BitVec 16) : Word := v.signExtend 32

/-- Zero extension of a 16-bit immediate. -/
def zext16 (v : BitVec 16) : Word := v.setWidth 32

/-! ### Running an instruction -/

/-- How an instruction ends. -/
inductive CoreEnd where
  /-- It retires and the next PC is given. -/
  | retire (pc : Word)
  /-- It stops the core with a status, the FN, the address and the cause of its record (R181, R182). -/
  | stop (status fn addr cause : Nat)
  /-- It waits: it is met again later. -/
  | hold
deriving DecidableEq, Repr

/-- The scope of the halt that a breakpoint at the PC asks for: none without one (R197). -/
def State.breakAt (s : State) (t : TileId) : Option Bool :=
  let c := (s.tile t).cc
  let hit := (List.range 4).filter (fun i => let b := mget {} c.bps i; b.en && b.pc == c.pc.toNat)
  if s.debugOn t && !c.passBp && !hit.isEmpty then some (hit.any (fun i => (mget {} c.bps i : Breakpoint).scope))
  else none

/-- The cycles of a wait that ends, counted. -/
def leaveWait (now : Nat) (c : Core) : Core := if c.state = .running ∧ c.wait = .none then c else pmcSettle now c

/-- The state after an instruction retires: the next PC, counted, and a halt that waited for the boundary (R198). -/
def State.retire (s : State) (t : TileId) (pc : Word) : State :=
  let s1 := s.modCc t (fun c =>
    pmcAdd { leaveWait s.clkTime c with pc := pc, passBp := false, state := .running, wait := .none } 2 1)
  if (s.tile t).cc.haltDue ≠ 0 then s1.haltCore t (s.tile t).cc.haltDue else s1

/-- What an instruction's own effect comes to. -/
def State.coreEnd (s : State) (t : TileId) (e : CoreEnd) : State :=
  match e with
  | .retire pc => s.retire t pc
  | .stop status fn addr cause => s.coreFault t status fn addr cause
  | .hold => s

/-- The core can issue: it runs, or waits in a WAIT that it meets again, and no response is outstanding.
DESIGN CHOICE, log 45. -/
def mayIssue (c : Core) (again : Bool) : Bool :=
  c.loaded && (c.state == .running || (again && c.state == .waiting)) && c.wait == .none

/-- One instruction of a core (R173): a core that does not run does nothing; a fetch outside the instruction SRAM stops
it with 0x0302 (R171); a breakpoint halts before the instruction (R197). -/
def State.coreStep (s : State) (t : TileId) (again : Bool) (f : State → State × CoreEnd) : State :=
  let c := (s.tile t).cc
  if !mayIssue c again then s
  else if 0x10000 ≤ c.pc.toNat then s.coreFault t 0x0302 0 c.pc.toNat 0
  else
    match s.breakAt t with
    | some scope => s.haltScoped t scope 3
    | none => let z := f s; z.1.coreEnd t z.2

/-- An instruction that the core meets while it runs. DESIGN CHOICE, log 45, 46. -/
def State.coreRun (s : State) (t : TileId) (f : State → State × CoreEnd) : State := s.coreStep t false f

/-- The PC of the next instruction in order. -/
def State.nextPc (s : State) (t : TileId) : Word := (s.tile t).cc.pc + 4

/-- An instruction that writes one register and goes on. -/
def State.aluRun (s : State) (t : TileId) (d : Fin 32) (v : State → Word) : State :=
  s.coreRun t (fun s => (s.setGr t d (v s), .retire (s.nextPc t)))

/-- Shift by an amount of 0–31: 0 left, 1 right logical, 2 right arithmetic. -/
def shiftW (kind : Nat) (v : Word) (n : Nat) : Word :=
  match kind with
  | 0 => v <<< n
  | 1 => v >>> n
  | _ => BitVec.sshiftRight v n

/-- 1 or 0 as a word. -/
def flagW (b : Bool) : Word := if b then 1 else 0

/-! ### Branches -/

/-- The target of a branch or jump: an offset in words from the next PC (Table 7.2). -/
def State.branchTarget (s : State) (t : TileId) (off : Int) : Word := s.nextPc t + BitVec.ofInt 32 (4 * off)

/-- A taken branch or jump: counted, and traced with its target in branch mode (R195). -/
def State.jumpTo (s : State) (t : TileId) (pc : Word) : State × CoreEnd :=
  ((s.trace t 1 (leBytes 4 pc.toNat)).modCc t (fun c => pmcAdd c 5 1), .retire pc)

/-- A conditional branch. -/
def State.branchRun (s : State) (t : TileId) (off : BitVec 16) (taken : State → Bool) : State :=
  s.coreRun t (fun s => if taken s then s.jumpTo t (s.branchTarget t off.toInt) else (s, .retire (s.nextPc t)))

/-- The word address that a register names. -/
def wordAddr (v : Word) : Word := v &&& 0xFFFFFFFC

/-! ### Loads and stores (R171, Table 7.1) -/

/-- Regions of the core's address map. -/
inductive CoreRegion where
  | dsram (off : Nat)
  | spad (off : Nat)
  | regs (off : Nat)
  | table (off : Nat)
  | none
deriving DecidableEq, Repr

/-- Region of an access of n bytes. -/
def coreRegion (a n : Nat) : CoreRegion :=
  if 0x10000 ≤ a ∧ a + n ≤ 0x18000 then .dsram (a - 0x10000)
  else if 0x10000000 ≤ a ∧ a + n ≤ 0x10200000 then .spad (a - 0x10000000)
  else if 0x20000000 ≤ a ∧ a + n ≤ 0x20010000 ∧ n = 4 then .regs (a - 0x20000000)
  else if 0x30000000 ≤ a ∧ a + n ≤ 0x30080000 then .table (a - 0x30000000)
  else .none

/-- The access touches an address of a watchpoint: the scope of the halt (R197). -/
def State.watchHit (s : State) (t : TileId) (a n : Nat) (store : Bool) : Option Bool :=
  let c := (s.tile t).cc
  let hit := (List.range 2).filter (fun i =>
    let w : Watchpoint := mget {} c.wps i
    w.en && (if store then w.onWrite else w.onRead) && decide (w.lo ≤ a + n - 1) && decide (a ≤ w.hi))
  if s.debugOn t && !hit.isEmpty then some (hit.any (fun i => (mget {} c.wps i : Watchpoint).scope)) else none

/-- A misaligned access is counted where the tile counts them (Tables 5.11 and 5.12). -/
def State.misaligned (s : State) (t : TileId) : State :=
  (s.modSp t (fun p => { p with misalign := true })).odAdd 0x3300 6 1

/-- A load of n bytes: the state after it, the value, and 0 or the code that stops the core. An uncorrectable granule
stops nothing: it makes a memory fault record, and the value is free (R120, Table 7.7). DEDUCED, log 133. -/
def State.coreRead (s : State) (t : TileId) (a n : Nat) : State × Nat × Nat :=
  if a % n ≠ 0 then (s.misaligned t, 0, 0x0401)
  else
    match coreRegion a n with
    | .dsram o => (s, leNat (mread 0 (s.tile t).cc.dsram o n), 0)
    | .spad o =>
      let z := s.spGet t 0 (s.tile t).cc.pc.toNat o n
      (z.1, leNat z.2.1, 0)
    | .regs o => let z := s.readTileReg t o; (z.1, z.2.1, 0)
    | .table o => (s, leNat (tableRead (s.tile t).cb o n), 0)
    | .none => (s, 0, 0x0303)

/-- A store of bytes: the state after it and 0 or the code that stops the core. -/
def State.coreWrite (s : State) (t : TileId) (a : Nat) (bs : List Byte) : State × Nat :=
  if a % bs.length ≠ 0 then (s.misaligned t, 0x0401)
  else
    match coreRegion a bs.length with
    | .dsram o => (s.modCc t (fun c => { c with dsram := mwrite 0 c.dsram o bs }), 0)
    | .spad o => (s.spStore t 0 (s.tile t).cc.pc.toNat o (enabled bs), 0)
    | .regs o => (s.writeTileReg t o (BitVec.ofNat 32 (leNat bs)) false, 0)
    | .table o =>
      if 0x20000 ≤ o then (s, 0x0303)
      else
        let z := writeChanBytes (s.tile t).cb o (enabled bs)
        if z.2 ≠ 0 then (s, z.2) else (s.modCb t (fun _ => z.1), 0)
    | .none => (s, 0x0303)

/-- A watchpoint that the access touched halts after it. -/
def State.afterAccess (s : State) (t : TileId) (hit : Option Bool) : State :=
  match hit with
  | some scope => if (s.tile t).cc.state = .running then s.haltScoped t scope 4 else s
  | none => s

/-- Effective address of a load or store: g_a + IMM. -/
def State.coreAddr (s : State) (t : TileId) (a : Fin 32) (imm : BitVec 16) : Nat := (s.gr t a + sext16 imm).toNat

/-- A load instruction of n bytes; `ext` extends the value read. DESIGN CHOICE, log 120. -/
def State.loadRun (s : State) (t : TileId) (d a : Fin 32) (imm : BitVec 16) (n : Nat) (ext : Nat → Word) : State :=
  let addr := s.coreAddr t a imm
  let ran := mayIssue (s.tile t).cc false && decide ((s.tile t).cc.pc.toNat < 0x10000) && (s.breakAt t).isNone
  let s1 := s.coreRun t (fun s =>
    let z := s.coreRead t addr n
    if z.2.2 ≠ 0 then (z.1, .stop z.2.2 0 addr 0) else (z.1.setGr t d (ext z.2.1), .retire (s.nextPc t)))
  if ran then s1.afterAccess t (s.watchHit t addr n false) else s1

/-- A store instruction of the low n bytes of g_d. DESIGN CHOICE, log 120. -/
def State.storeRun (s : State) (t : TileId) (d a : Fin 32) (imm : BitVec 16) (n : Nat) : State :=
  let addr := s.coreAddr t a imm
  let ran := mayIssue (s.tile t).cc false && decide ((s.tile t).cc.pc.toNat < 0x10000) && (s.breakAt t).isNone
  let s1 := s.coreRun t (fun s =>
    let z := s.coreWrite t addr (leBytes n (s.gr t d).toNat)
    if z.2 ≠ 0 then (z.1, .stop z.2 0 addr 0) else (z.1, .retire (s.nextPc t)))
  if ran then s1.afterAccess t (s.watchHit t addr n true) else s1

/-- The n bytes of data SRAM at a core address; none outside it. -/
def dsramAt (a n : Nat) : Option Nat := if 0x10000 ≤ a ∧ a + n ≤ 0x18000 then some (a - 0x10000) else none

end Sys2Proof.Machine
end

