-- ==== Sys2Proof/Machine/CoreInt.lean ====
section
/-!
DEFINITION. Integer, multiply, load, store, branch and jump instructions of the control core (R171–R173, Table 7.3).
-/

namespace Sys2Proof.Machine

/-! ### Integer, register -/

/-- ADD (R172, Table 7.3). -/
def execAdd (t : TileId) (d a b : Fin 32) (s : State) : Res :=
  guardRes (Instr.wf (.add t d a b)) (s.aluRun t d (fun s => s.gr t a + s.gr t b))

/-- SUB (R172, Table 7.3). -/
def execSub (t : TileId) (d a b : Fin 32) (s : State) : Res :=
  guardRes (Instr.wf (.sub t d a b)) (s.aluRun t d (fun s => s.gr t a - s.gr t b))

/-- AND (R172, Table 7.3). -/
def execAnd (t : TileId) (d a b : Fin 32) (s : State) : Res :=
  guardRes (Instr.wf (.and t d a b)) (s.aluRun t d (fun s => s.gr t a &&& s.gr t b))

/-- OR (R172, Table 7.3). -/
def execOr (t : TileId) (d a b : Fin 32) (s : State) : Res :=
  guardRes (Instr.wf (.or t d a b)) (s.aluRun t d (fun s => s.gr t a ||| s.gr t b))

/-- XOR (R172, Table 7.3). -/
def execXor (t : TileId) (d a b : Fin 32) (s : State) : Res :=
  guardRes (Instr.wf (.xor t d a b)) (s.aluRun t d (fun s => s.gr t a ^^^ s.gr t b))

/-- SLL (R172, Table 7.3). -/
def execSll (t : TileId) (d a b : Fin 32) (s : State) : Res :=
  guardRes (Instr.wf (.sll t d a b)) (s.aluRun t d (fun s => shiftW 0 (s.gr t a) ((s.gr t b).toNat % 32)))

/-- SRL (R172, Table 7.3). -/
def execSrl (t : TileId) (d a b : Fin 32) (s : State) : Res :=
  guardRes (Instr.wf (.srl t d a b)) (s.aluRun t d (fun s => shiftW 1 (s.gr t a) ((s.gr t b).toNat % 32)))

/-- SRA (R172, Table 7.3). -/
def execSra (t : TileId) (d a b : Fin 32) (s : State) : Res :=
  guardRes (Instr.wf (.sra t d a b)) (s.aluRun t d (fun s => shiftW 2 (s.gr t a) ((s.gr t b).toNat % 32)))

/-- SLT (R172, Table 7.3). -/
def execSlt (t : TileId) (d a b : Fin 32) (s : State) : Res :=
  guardRes (Instr.wf (.slt t d a b)) (s.aluRun t d (fun s => flagW ((s.gr t a).slt (s.gr t b))))

/-- SLTU (R172, Table 7.3). -/
def execSltu (t : TileId) (d a b : Fin 32) (s : State) : Res :=
  guardRes (Instr.wf (.sltu t d a b)) (s.aluRun t d (fun s => flagW ((s.gr t a).ult (s.gr t b))))

/-! ### Integer, immediate -/

/-- ADDI (R172, Table 7.3): the immediate is signed. -/
def execAddi (t : TileId) (d a : Fin 32) (imm : BitVec 16) (s : State) : Res :=
  guardRes (Instr.wf (.addi t d a imm)) (s.aluRun t d (fun s => s.gr t a + sext16 imm))

/-- ANDI (R172, Table 7.3): the immediate is zero-extended. DESIGN CHOICE, log 40. -/
def execAndi (t : TileId) (d a : Fin 32) (imm : BitVec 16) (s : State) : Res :=
  guardRes (Instr.wf (.andi t d a imm)) (s.aluRun t d (fun s => s.gr t a &&& zext16 imm))

/-- ORI (R172, Table 7.3): the immediate is zero-extended, so that LUI and ORI form the words of R190.
DESIGN CHOICE, log 40. -/
def execOri (t : TileId) (d a : Fin 32) (imm : BitVec 16) (s : State) : Res :=
  guardRes (Instr.wf (.ori t d a imm)) (s.aluRun t d (fun s => s.gr t a ||| zext16 imm))

/-- XORI (R172, Table 7.3): the immediate is zero-extended. DESIGN CHOICE, log 40. -/
def execXori (t : TileId) (d a : Fin 32) (imm : BitVec 16) (s : State) : Res :=
  guardRes (Instr.wf (.xori t d a imm)) (s.aluRun t d (fun s => s.gr t a ^^^ zext16 imm))

/-- SLTI (R172, Table 7.3): the immediate is signed. -/
def execSlti (t : TileId) (d a : Fin 32) (imm : BitVec 16) (s : State) : Res :=
  guardRes (Instr.wf (.slti t d a imm)) (s.aluRun t d (fun s => flagW ((s.gr t a).slt (sext16 imm))))

/-- SHIFT_IMMEDIATE (R172, Table 7.3): shift in IMM[4:0], kind in IMM[6:5] in the order SLL, SRL, SRA; kind 3 is no
instruction of Table 7.3. -/
def execShiftImmediate (t : TileId) (d a : Fin 32) (imm : BitVec 16) (s : State) : Res :=
  guardRes (Instr.wf (.shiftImmediate t d a imm))
    (let kind := bits imm.toNat 6 5
     s.coreRun t (fun s =>
       if kind = 3 then (s, .stop 0x0301 0 0 0)
       else (s.setGr t d (shiftW kind (s.gr t a) (imm.toNat % 32)), .retire (s.nextPc t))))

/-- LUI (R172, Table 7.3): the immediate in the upper half. -/
def execLui (t : TileId) (d : Fin 32) (imm : BitVec 16) (s : State) : Res :=
  guardRes (Instr.wf (.lui t d imm)) (s.aluRun t d (fun _ => zext16 imm <<< 16))

/-! ### Multiply -/

/-- MUL (R173, Table 7.3): low word. -/
def execMul (t : TileId) (d a b : Fin 32) (s : State) : Res :=
  guardRes (Instr.wf (.mul t d a b)) (s.aluRun t d (fun s => s.gr t a * s.gr t b))

/-- MULH (R173, Table 7.3): high word of the signed product. -/
def execMulh (t : TileId) (d a b : Fin 32) (s : State) : Res :=
  guardRes (Instr.wf (.mulh t d a b)) (s.aluRun t d (fun s => wInt ((s.gr t a).toInt * (s.gr t b).toInt / 2 ^ 32)))

/-- MULHU (R173, Table 7.3): high word of the unsigned product. -/
def execMulhu (t : TileId) (d a b : Fin 32) (s : State) : Res :=
  guardRes (Instr.wf (.mulhu t d a b)) (s.aluRun t d (fun s => BitVec.ofNat 32 ((s.gr t a).toNat * (s.gr t b).toNat / 2 ^ 32)))

/-! ### Loads and stores -/

/-- LB (R171). -/
def execLb (t : TileId) (d a : Fin 32) (imm : BitVec 16) (s : State) : Res :=
  guardRes (Instr.wf (.lb t d a imm)) (s.loadRun t d a imm 1 (fun v => wInt (signed 8 v)))

/-- LBU (R171). -/
def execLbu (t : TileId) (d a : Fin 32) (imm : BitVec 16) (s : State) : Res :=
  guardRes (Instr.wf (.lbu t d a imm)) (s.loadRun t d a imm 1 (fun v => BitVec.ofNat 32 v))

/-- LH (R171). -/
def execLh (t : TileId) (d a : Fin 32) (imm : BitVec 16) (s : State) : Res :=
  guardRes (Instr.wf (.lh t d a imm)) (s.loadRun t d a imm 2 (fun v => wInt (signed 16 v)))

/-- LHU (R171). -/
def execLhu (t : TileId) (d a : Fin 32) (imm : BitVec 16) (s : State) : Res :=
  guardRes (Instr.wf (.lhu t d a imm)) (s.loadRun t d a imm 2 (fun v => BitVec.ofNat 32 v))

/-- LW (R171). -/
def execLw (t : TileId) (d a : Fin 32) (imm : BitVec 16) (s : State) : Res :=
  guardRes (Instr.wf (.lw t d a imm)) (s.loadRun t d a imm 4 (fun v => BitVec.ofNat 32 v))

/-- SB (R171). -/
def execSb (t : TileId) (d a : Fin 32) (imm : BitVec 16) (s : State) : Res :=
  guardRes (Instr.wf (.sb t d a imm)) (s.storeRun t d a imm 1)

/-- SH (R171). -/
def execSh (t : TileId) (d a : Fin 32) (imm : BitVec 16) (s : State) : Res :=
  guardRes (Instr.wf (.sh t d a imm)) (s.storeRun t d a imm 2)

/-- SW (R171). -/
def execSw (t : TileId) (d a : Fin 32) (imm : BitVec 16) (s : State) : Res :=
  guardRes (Instr.wf (.sw t d a imm)) (s.storeRun t d a imm 4)

/-! ### Branches and jumps -/

/-- BEQ (R173). -/
def execBeq (t : TileId) (a b : Fin 32) (off : BitVec 16) (s : State) : Res :=
  guardRes (Instr.wf (.beq t a b off)) (s.branchRun t off (fun s => s.gr t a == s.gr t b))

/-- BNE (R173). -/
def execBne (t : TileId) (a b : Fin 32) (off : BitVec 16) (s : State) : Res :=
  guardRes (Instr.wf (.bne t a b off)) (s.branchRun t off (fun s => s.gr t a != s.gr t b))

/-- BLT (R173). -/
def execBlt (t : TileId) (a b : Fin 32) (off : BitVec 16) (s : State) : Res :=
  guardRes (Instr.wf (.blt t a b off)) (s.branchRun t off (fun s => (s.gr t a).slt (s.gr t b)))

/-- BGE (R173). -/
def execBge (t : TileId) (a b : Fin 32) (off : BitVec 16) (s : State) : Res :=
  guardRes (Instr.wf (.bge t a b off)) (s.branchRun t off (fun s => !(s.gr t a).slt (s.gr t b)))

/-- BLTU (R173). -/
def execBltu (t : TileId) (a b : Fin 32) (off : BitVec 16) (s : State) : Res :=
  guardRes (Instr.wf (.bltu t a b off)) (s.branchRun t off (fun s => (s.gr t a).ult (s.gr t b)))

/-- BGEU (R173). -/
def execBgeu (t : TileId) (a b : Fin 32) (off : BitVec 16) (s : State) : Res :=
  guardRes (Instr.wf (.bgeu t a b off)) (s.branchRun t off (fun s => !(s.gr t a).ult (s.gr t b)))

/-- J (R173). -/
def execJ (t : TileId) (off : BitVec 26) (s : State) : Res :=
  guardRes (Instr.wf (.j t off)) (s.coreRun t (fun s => s.jumpTo t (s.branchTarget t off.toInt)))

/-- JAL (R173): the link, the next PC, goes to g31. -/
def execJal (t : TileId) (off : BitVec 26) (s : State) : Res :=
  guardRes (Instr.wf (.jal t off))
    (s.coreRun t (fun s => (s.setGr t 31 (s.nextPc t)).jumpTo t (s.branchTarget t off.toInt)))

/-- JR (R173): to the word address in g_a. -/
def execJr (t : TileId) (a : Fin 32) (s : State) : Res :=
  guardRes (Instr.wf (.jr t a)) (s.coreRun t (fun s => s.jumpTo t (wordAddr (s.gr t a))))

/-- JALR (R173): to the word address in g_a, the link to g_d. -/
def execJalr (t : TileId) (d a : Fin 32) (s : State) : Res :=
  guardRes (Instr.wf (.jalr t d a))
    (s.coreRun t (fun s => (s.setGr t d (s.nextPc t)).jumpTo t (wordAddr (s.gr t a))))

end Sys2Proof.Machine
end

