-- ==== Sys2Proof/Machine/CoreEngine.lean ====
section
/-!
DEFINITION. Engine, message, remote, synchronisation and system instructions of the control core (R173–R178, R197), and
the events that a core meets: messages, the watchdog and the timer (R175, R176, R181).
-/

namespace Sys2Proof.Machine

/-! ### Engine submissions (R174) -/

/-- An engine submission is traced: OPC and unit (R195). -/
def State.traceSubmit (s : State) (t : TileId) (opc unit : Nat) : State := s.trace t 2 (leBytes 1 opc ++ leBytes 1 unit)

/-- The bytes at a core address that an engine reads: data SRAM or scratchpad. -/
def State.engineRead (s : State) (t : TileId) (a n : Nat) : Option (State × List Byte) :=
  match coreRegion a n with
  | .dsram o => some (s, mread 0 (s.tile t).cc.dsram o n)
  | .spad o =>
    let z := s.spGet t 5 0 o n
    some (z.1, z.2.1)
  | _ => none

/-- What a tensor refusal leaves beside its code: a misaligned base makes a memory fault record with its location (R104,
R132, R133). -/
def State.tensorRefuse (s : State) (t : TileId) (b : List Byte) : State :=
  if tvCode b = 0x0401 then s.memFault t 0x0401 5 ((tvBadBase (tvDescOf b)).getD 0) 0 else s

/-- TSUB (R174): the descriptor is checked within it; it waits while four are queued. -/
def execTsub (t : TileId) (a : Fin 32) (s : State) : Res :=
  guardRes (Instr.wf (.tsub t a))
    (s.coreRun t (fun s =>
      let addr := (s.gr t a).toNat
      if 4 ≤ (s.tile t).tv.queue.length then (s, .hold)
      else
        match s.engineRead t addr 32 with
        | none => (s, .stop 0x0303 0 addr 0)
        | some (s, b) =>
          if tvCode b ≠ 0 then
            (s.tensorRefuse t b |>.modTv t (fun v => { v with descErr := true }), .stop 0x0305 0 addr (tvCode b))
          else
            let s1 := (s.traceSubmit t (fieldN b 0 1) 0).modTile t (fun T =>
              { T with tv := { T.tv with queue := T.tv.queue ++ [b] }, cc := pmcAdd T.cc 6 1 })
            (s1, .retire (s1.nextPc t))))

/-- A vector instruction has run: counted, traced, and the unit's queue has emptied (VDONE). -/
def State.vectorDone (s : State) (t : TileId) (opc : Nat) : State :=
  (s.traceSubmit t opc 1).modCc t (fun c => pmcAdd { c with events := setBit c.events 6 true } 7 1)

/-- Bytes of vector registers from v_d on: free beyond v31. DESIGN CHOICE, log 37. -/
def State.vectorBytes (s : State) (t : TileId) (d n : Nat) : List Byte :=
  (List.range n).map (fun i =>
    let k := d * 256 + i
    if k < 8192 then ((leBytes 4 (mget 0 (s.tile t).vu.regs (k / 4)).toNat).drop (k % 4)).headD 0
    else Config.freeByte (s.free + i))

/-- Scratchpad offset of VLD and VST: bits [20:5] of g_a (R174). -/
def vecOffset (v : Word) : Nat := bits v.toNat 20 5 * 32

/-- VLD (R174): 256 bytes from the scratchpad to v_d. -/
def execVld (t : TileId) (d a : Fin 32) (s : State) : Res :=
  guardRes (Instr.wf (.vld t d a))
    (s.coreRun t (fun s =>
      let off := vecOffset (s.gr t a)
      if 0x200000 < off + 256 then (s, .stop 0x0402 0 off 0)
      else
        let z := s.spGet t 6 0 off 256
        let s1 := z.1.modVu t (fun v =>
          { v with regs := mwrite 0 v.regs (d * 64)
                     ((List.range 64).map (fun i => BitVec.ofNat 32 (fieldN z.2.1 (4 * i) 4))) })
        (s1.vectorDone t 0x32, .retire (s.nextPc t))))

/-- VST (R174): v_d to the scratchpad. -/
def execVst (t : TileId) (d a : Fin 32) (s : State) : Res :=
  guardRes (Instr.wf (.vst t d a))
    (s.coreRun t (fun s =>
      let off := vecOffset (s.gr t a)
      if 0x200000 < off + 256 then (s, .stop 0x0402 0 off 0)
      else
        let s1 := s.spStoreWords t 6 0 off (enabled (s.vectorBytes t d 256))
        (s1.vectorDone t 0x33, .retire (s.nextPc t))))

/-- VTST (R121, R174): ROWS × COLS elements packed from v_d on, written transposed. -/
def execVtst (t : TileId) (d a b : Fin 32) (s : State) : Res :=
  guardRes (Instr.wf (.vtst t d a b))
    (s.coreRun t (fun s =>
      if oddPair b then (s, .stop 0x0301 0 0 0)
      else
        let dst := (s.gr t a).toNat
        let stride := bits (s.gr t b).toNat 15 0
        let rows := bits (s.gr t b).toNat 24 16
        let cols := bits (s.gr t (pairHi b)).toNat 12 0
        let esz := bits (s.gr t (pairHi b)).toNat 14 13
        if rows = 0 ∨ 256 < rows ∨ cols = 0 ∨ 4096 < cols ∨ stride < elemBytes esz rows then
          (s, .stop 0x0305 0 dst 0x0003)
        else if 0x200000 < dst + (cols - 1) * stride + elemBytes esz rows then (s, .stop 0x0402 0 dst 0)
        else
          let w := elemBytes esz cols
          let src := s.vectorBytes t d (rows * w)
          let s1 := s.transposedWrite t 6 0 esz dst stride cols ((List.range rows).map (fun r => sliceB src (r * w) w))
          ((s1.useFree (rows * w)).vectorDone t 0x34, .retire (s.nextPc t))))

/-! ### Messages (R176) -/

/-- A message of SEND handed to the router: on VN0 under a transaction, on VN2 without one. -/
def State.sendOut (s : State) (t : TileId) (vn w : Nat) (m : Message) : State × Option Nat :=
  if vn = 0 then s.sendTx t m (fun id => { id := id, agent := .core, dest := w, sentAt := s.clkTime })
  else match s.inject t m with
    | (s1, none) => (s1, none)
    | (s1, some c) => (s1.countRefusal t, some c)

/-- The fault record of a message that the injecting router refused (R152). -/
def State.sendRefused (s : State) (t : TileId) (w pc : Nat) (c : Option Nat) : State :=
  match c with
  | none => s
  | some c => s.raiseFault t { status := c, agent := 0, address := w, loc := pc }

/-- SEND (R176): to windows 0 and 5 on VN0 with a transaction that FENCE observes, to windows 3 and 4 on VN2. -/
def execSend (t : TileId) (a b : Fin 32) (s : State) : Res :=
  guardRes (Instr.wf (.send t a b))
    (s.coreRun t (fun s =>
      let addr := (s.gr t a).toNat
      let w := s.grPair t b
      let d := destOf w
      if oddPair b then (s, .stop 0x0301 0 0 0)
      else if !(d.window == 0 || d.window == 3 || d.window == 4 || d.window == 5) then (s, .stop 0x0303 0 w 0)
      else
        match dsramAt addr 32 with
        | none => (s, .stop 0x0303 0 addr 0)
        | some o =>
          let vn := if d.window = 0 ∨ d.window = 5 then 0 else 2
          let m : Message := { kind := 0, vn := vn, id := 0, dest := d, be := BitVec.allOnes 32,
                               flits := [mread 0 (s.tile t).cc.dsram o 32] }
          if vn = 0 ∧ (freeId (s.tile t)).isNone = true then (s, .hold)
          else
            let z := s.sendOut t vn w m
            let s1 := (z.1.trace t 3 (leBytes 8 w)).modCc t (fun c => pmcAdd c 8 1)
            (s1.sendRefused t w (s.tile t).cc.pc.toNat z.2, .retire (s.nextPc t))))

/-- RECV (R176): the oldest message to data SRAM, or 0 from an empty queue. -/
def execRecv (t : TileId) (d a : Fin 32) (s : State) : Res :=
  guardRes (Instr.wf (.recv t d a))
    (s.coreRun t (fun s =>
      let addr := (s.gr t a).toNat
      match (s.tile t).cc.msgq with
      | [] => (s.setGr t d 0, .retire (s.nextPc t))
      | (x, y, b) :: r =>
        if addr % 32 ≠ 0 then (s.misaligned t, .stop 0x0401 0 addr 0)
        else
          match dsramAt addr 32 with
          | none => (s, .stop 0x0303 0 addr 0)
          | some o =>
            let s1 := s.modCc t (fun c => { c with msgq := r, dsram := mwrite 0 c.dsram o b })
            (s1.setGr t d (BitVec.ofNat 32 (65536 + 256 * y + x)), .retire (s.nextPc t))))

/-- The port flit of a message. -/
def isMessage (msg : List Byte) (srcX srcY : Nat) (f : Flit) : Bool :=
  f.dest.window == 5 && f.vn != 1 && f.srcX == srcX && f.srcY == srcY && f.payload == msg

/-- A message is queued with its source (R176). -/
def State.queueMessage (s : State) (t : TileId) (msg : List Byte) (srcX srcY : Nat) : State :=
  let mine := isMessage msg srcX srcY
  let s1 := (s.takeRx t mine).modCc t (fun c => pmcAdd { c with msgq := c.msgq ++ [(srcX, srcY, msg)] } 9 1)
  let s2 := s1.trace t 4 (leBytes 4 srcX ++ leBytes 4 srcY)
  s.inTurn t mine (s2.ackTaken t (s.tile t) mine)

/-- MESSAGE_QUEUE_TIMEOUT (R176): the message that has waited at a full queue is refused with 0x0307. -/
def execMessageQueueTimeout (t : TileId) (s : State) : Res :=
  guardRes (Instr.wf (.messageQueueTimeout t))
    (let mine := fun f : Flit => f.dest.window == 5 && f.vn != 1
     match (s.tile t).rx.find? mine with
     | some f => if 16 ≤ (s.tile t).cc.msgq.length then (s.takeRx t mine).refuse t f 0x0307 else s
     | none => s)

/-! ### Remote access (R177) -/

/-- A remote operation: the destination word in the pair g_b is checked, the message sent under a transaction, and the
core waits for its response. -/
def State.remoteRun (s : State) (t : TileId) (b : Fin 32) (fn : Nat) (odd : Bool) (m : State → Dest → Message)
    (isRead : Bool) (wait : Nat → CoreWait) : State :=
  s.coreRun t (fun s =>
    let w := s.grPair t b
    let d := destOf w
    if oddPair b || odd then (s, .stop 0x0301 fn 0 0)
    else if d.window ≠ 0 ∧ d.window ≠ 2 then (s, .stop 0x0303 fn w 0)
    else
      match freeId (s.tile t) with
      | none => (s, .hold)
      | some id =>
        match s.sendTx t (m s d) (fun id => { id := id, agent := .core, dest := w, sentAt := s.clkTime, isRead := isRead }) with
        | (s1, some c) => (s1, .stop c fn w 0)
        | (s1, none) => (s1.modCc t (fun c => { pmcSettle s.clkTime c with wait := wait id }), .hold))

/-- The read request of RLD: FORM 1 (R430). -/
def rldMessage (d : Dest) : Message where
  kind := 1
  vn := 0
  id := 0
  dest := d
  be := BitVec.allOnes 32
  flits := [fitB [1] 32]

/-- The write of RST: four bytes at their place in the word. At an offset that puts them across two words the enables
begin at an odd place, so that the target refuses the message with 0x0401 (R132).
DESIGN CHOICE, log 135. -/
def rstMessage (d : Dest) (v : Word) : Message where
  kind := 0
  vn := 0
  id := 0
  dest := { d with offset := d.offset - d.offset % 32 }
  be := beRun (min (d.offset % 32) 29) 4
  flits := [fitB (List.replicate (min (d.offset % 32) 29) 0 ++ leBytes 4 v.toNat) 32]

/-- The atomic of RAMO (R123, R430). -/
def ramoMessage (d : Dest) (op operand expected : Nat) : Message where
  kind := 2
  vn := 0
  id := 0
  dest := d
  be := BitVec.allOnes 32
  flits := [fitB (leBytes 8 op ++ leBytes 8 operand ++ leBytes 8 expected) 32]

/-- RLD (R177). -/
def execRld (t : TileId) (d b : Fin 32) (s : State) : Res :=
  guardRes (Instr.wf (.rld t d b)) (s.remoteRun t b 0 false (fun _ w => rldMessage w) true (fun id => .rld d id))

/-- RST (R177). -/
def execRst (t : TileId) (d b : Fin 32) (s : State) : Res :=
  guardRes (Instr.wf (.rst t d b))
    (s.remoteRun t b 0 false (fun s w => rstMessage w (s.gr t d)) false (fun id => .rst id))

/-- RAMO with FN 0 (R177): fetch-and-add of g_a. -/
def execRamoFetchAndAdd (t : TileId) (d a b : Fin 32) (s : State) : Res :=
  guardRes (Instr.wf (.ramoFetchAndAdd t d a b))
    (s.remoteRun t b 0 false (fun s w => ramoMessage w 0 (s.gr t a).toNat 0) true (fun id => .ramo d 0 id))

/-- RAMO with FN 1 (R177): g_d is expected, g_a new. -/
def execRamoCompareAndSwap32 (t : TileId) (d a b : Fin 32) (s : State) : Res :=
  guardRes (Instr.wf (.ramoCompareAndSwap32 t d a b))
    (s.remoteRun t b 1 false (fun s w => ramoMessage w 1 (s.gr t a).toNat (s.gr t d).toNat) true
      (fun id => .ramo d 1 id))

/-- RAMO with FN 2 (R177): on pairs. -/
def execRamoCompareAndSwap64 (t : TileId) (d a b : Fin 32) (s : State) : Res :=
  guardRes (Instr.wf (.ramoCompareAndSwap64 t d a b))
    (s.remoteRun t b 2 (oddPair d || oddPair a) (fun s w => ramoMessage w 2 (s.grPair t a) (s.grPair t d)) true
      (fun id => .ramo d 2 id))

/-! ### Synchronisation (R175, R178) -/

/-- WAIT (R175): retires when an event of the mask stands, and writes what it found. -/
def execWait (t : TileId) (d a : Fin 32) (s : State) : Res :=
  guardRes (Instr.wf (.wait t d a))
    (s.coreStep t true (fun s =>
      let v := BitVec.ofNat 32 (eventsNow (s.tile t).cc) &&& s.gr t a
      if v = 0 then (s.modCc t (fun c => { pmcSettle s.clkTime c with state := .waiting }), .hold)
      else (s.setGr t d v, .retire (s.nextPc t))))

/-- FENCE (R178): retires when no SEND, RST or RAMO of the core is outstanding; its stores are visible as they retire. -/
def execFence (t : TileId) (s : State) : Res :=
  guardRes (Instr.wf (.fence t))
    (s.coreRun t (fun s =>
      if (s.tile t).tx.any (fun x => x.agent == .core) then (s, .hold) else (s, .retire (s.nextPc t))))

/-! ### System -/

/-- NOP (R173). -/
def execNop (t : TileId) (s : State) : Res :=
  guardRes (Instr.wf (.nop t)) (s.coreRun t (fun s => (s, .retire (s.nextPc t))))

/-- HALT (R173): the core stops; CC_STATUS.STATE is 4. -/
def execHalt (t : TileId) (s : State) : Res :=
  guardRes (Instr.wf (.halt t))
    (s.coreRun t (fun s =>
      (s.modCc t (fun c => pmcAdd { c with pc := c.pc + 4, passBp := false, state := .stoppedHalt } 2 1), .hold)))

/-- TRAP (R173): the core stops with 0x0308. -/
def execTrap (t : TileId) (s : State) : Res :=
  guardRes (Instr.wf (.trap t)) (s.coreRun t (fun s => (s, .stop 0x0308 2 0 0)))

/-- BRK (R197): halts at itself while debug works for the tile, else it is a NOP; a core resumed at it goes on. -/
def execBrk (t : TileId) (s : State) : Res :=
  guardRes (Instr.wf (.brk t))
    (s.coreRun t (fun s =>
      if s.debugOn t && !(s.tile t).cc.passBp then (s.haltCore t 5, .hold) else (s, .retire (s.nextPc t))))

/-- ILLEGAL_INSTRUCTION (R172): 0x0301. -/
def execIllegalInstruction (t : TileId) (fn : Nat) (s : State) : Res :=
  guardRes (tileOk t && decide (fn < 2048)) (s.coreRun t (fun s => (s, .stop 0x0301 fn 0 0)))

/-! ### Watchdog and timer -/

/-- WATCHDOG_EXPIRY (R181): record AGENT 12 with the PC of the next instruction; the core stops. It is stopped while
the core is halted (Table 7.15) and disabled by a limit of 0. DESIGN CHOICE, log 3. -/
def execWatchdogExpiry (t : TileId) (s : State) : Res :=
  guardRes (Instr.wf (.watchdogExpiry t))
    (let c := (s.tile t).cc
     if c.wdog ≠ 0 ∧ (c.state = .running ∨ c.state = .waiting) then
       (s.raiseFault t { status := 0x0304, agent := 12, loc := c.pc.toNat }).stopCore t
     else s)

/-- WDOG_WRITE (R202): LIMIT; the count restarts. -/
def execWdogWrite (t : TileId) (value : Word) (s : State) : Res :=
  guardRes (Instr.wf (.wdogWrite t value)) (s.modCc t (fun c => { c with wdog := value.toNat % 2 ^ 24 }))

/-- TIMER_EXPIRY (R175): CC_TIMER, which counts down from the value written to it, reaches 0 and TIMER is set; it is
stopped while the core is halted, and at 0 it does not count. DESIGN CHOICE, log 3. -/
def execTimerExpiry (t : TileId) (s : State) : Res :=
  guardRes (Instr.wf (.timerExpiry t))
    (if (s.tile t).cc.state = .halted ∨ (s.tile t).cc.timer = 0 then s
     else s.modCc t (fun c => { c with timer := 0, timerAt := s.clkTime, events := setBit c.events 8 true }))

end Sys2Proof.Machine
end

