-- ==== Sys2Proof/Machine/Receipts.lean ====
section
/-!
DEFINITION. What a tile does with the responses of its transactions: read data, acknowledgements, refusals and timeouts
(R130, R154, R165, R166, R177, R183, R430).
-/

namespace Sys2Proof.Machine

/-- The outstanding transaction of an ID. -/
def txOf (T : Tile) (id : Nat) : Option Tx := T.tx.find? (fun x => x.id == id)

/-- The transaction with this ID ends. -/
def State.dropTx (s : State) (t : TileId) (id : Nat) : State :=
  s.modTile t (fun T => { T with tx := T.tx.filter (fun x => x.id != id) })

/-- The transaction that the core's remote instruction waits for. -/
def waitsFor (c : Core) (id : Nat) : Bool :=
  match c.wait with
  | .none => false
  | .rld _ i => i == id
  | .rst i => i == id
  | .ramo _ _ i => i == id

/-- The core's remote instruction retires with its response. -/
def State.remoteDone (s : State) (t : TileId) (payload : List Byte) : State :=
  let s1 :=
    match (s.tile t).cc.wait with
    | .none => s
    | .rst _ => s
    | .rld d _ => s.setGr t (Fin.ofNat 32 d) (BitVec.ofNat 32 (fieldN payload 0 4))
    | .ramo d fn _ =>
      if fn = 2 then s.setGrPair t (Fin.ofNat 32 d) (fieldN payload 0 8)
      else s.setGr t (Fin.ofNat 32 d) (BitVec.ofNat 32 (fieldN payload 0 4))
  s1.retire t (s1.nextPc t)

/-- Bytes of the read data that the core waits for (R430): 8 for an atomic of 64 bits, else 4. -/
def coreDataBytes (c : Core) : Nat :=
  match c.wait with
  | .ramo _ 2 _ => 8
  | _ => 4

/-- READ_DATA_RECEIPT (R430): data for a mover's read is gathered to its last flit; the word for RLD or RAMO retires it,
unless a reserved byte of its flit is set, which is refused with 0x0002. Data for no outstanding transaction is
dropped. -/
def execReadDataReceipt (t : TileId) (f : Flit) (s : State) : Res :=
  guardRes (Instr.wf (.readDataReceipt t f)) (s.inTurn t (· == f)
    (let s1 := s.takeRx t (· == f)
     match txOf (s.tile t) f.id with
     | none => s1
     | some x =>
       if f.kind ≠ 3 ∨ x.isRead = false then s1
       else
         match x.agent with
         | .core =>
           let n := coreDataBytes (s.tile t).cc
           if !zeroRange f.payload n (32 - n) then s1.refuse t f 0x0002 else
           let s2 := s1.dropTx t x.id
           if waitsFor (s.tile t).cc x.id then s2.remoteDone t f.payload else s2
         | .mover ch count =>
           let y := { x with buf := x.buf ++ f.payload }
           let s2 := s1.modTile t (fun T => { T with tx := T.tx.map (fun z => if z = x then y else z) })
           if f.last then s2.mvData t y ch count else s2))

/-- ACKNOWLEDGEMENT_RECEIPT (R154): a mover's write is done; RST retires; a SEND has reached its destination. One with a
byte set is discarded and counted (R166, R430). -/
def execAcknowledgementReceipt (t : TileId) (f : Flit) (s : State) : Res :=
  guardRes (Instr.wf (.acknowledgementReceipt t f)) (s.inTurn t (· == f)
    (let s1 := s.takeRx t (· == f)
     if f.kind = 4 ∧ zeroRange f.payload 0 32 = false then s1.refuse t f 0x0002 else
     match txOf (s.tile t) f.id with
     | none => s1
     | some x =>
       if f.kind ≠ 4 ∨ x.isRead = true then s1
       else
         match x.agent with
         | .core =>
           let s2 := s1.dropTx t x.id
           if waitsFor (s.tile t).cc x.id then s2.remoteDone t [] else s2
         | .mover ch count => s1.mvAcked t x ch count))

/-- A transaction fails with a status (R165, R166): a mover's descriptor, the core's remote instruction, or a SEND. -/
def State.txFailed (s : State) (t : TileId) (x : Tx) (status : Nat) (record : Bool) : State :=
  match x.agent with
  | .mover ch count => s.mvFailed t x ch count status
  | .core =>
    let s1 := s.dropTx t x.id
    if waitsFor (s.tile t).cc x.id then
      let fn := match (s.tile t).cc.wait with
        | .ramo _ fn _ => fn
        | _ => 0
      s1.coreFault t status fn x.dest 0
    else if record then
      s1.raiseFault t { status := status, agent := 0, address := x.dest, loc := (s.tile t).cc.pc.toNat }
    else s1

/-- Rows of a read request are refused at their destination (R61): the tile counts the refusal, and at the first one the
request ends, its rows not yet sent dropped, with a program fault record of AGENT 13. -/
def State.readRefused (s : State) (t : TileId) (status dest : Nat) (e : Nat × Nat × Bool) : State :=
  let of := fun m : Message => m.id == 0 && decide ({ m.dest with offset := 0 } = { destOf dest with offset := 0 })
  let s1 := s.countRefusal t
  if e.2.2 then s1
  else
    let row := fun e : Dir × Flit =>
      e.1 == .l && e.2.vn != 1 && e.2.id == 0 && decide ({ e.2.dest with offset := 0 } = { destOf dest with offset := 0 })
    ((s1.modRouter t (fun R => { R with feed := R.feed.filter (fun e => !row e) })).modTile t (fun T => { T with
        txHeld := T.txHeld.filter (fun m => !of m),
        cb := { T.cb with readSent := T.cb.readSent.map (fun r => if r = e then (e.1, e.2.1, true) else r) } })).raiseFault t
      { status := status, agent := 13, detail := e.2.1, address := dest }

/-- Who sent a refused message that carried no transaction: its fault record, the rows of a read request, a segment's
outputs, or a SEND to windows 3 and 4 (R61, R166, R181, R183). -/
def State.refusedPlain (s : State) (t : TileId) (status dest : Nat) : State :=
  let T := s.tile t
  let d := destOf dest
  let same := fun v : Nat => decide ({ destOf v with offset := 0 } = { d with offset := 0 })
  if d.window = 5 ∧ T.cc.loaded = true ∧ dest = T.cc.fsink then s.faultLost t
  else
    match T.cb.readSent.find? (fun e => same e.1) with
    | some e => s.readRefused t status dest e
    | none =>
      match T.cb.segs.find? (fun e => e.2.en && decide ({ segDest e.2 with offset := 0 } = { d with offset := 0 })) with
      | some e => s.raiseFault t { status := status, agent := 10, detail := e.1, address := dest }
      | none => s.raiseFault t { status := status, agent := 0, address := dest, loc := T.cc.pc.toNat }

/-- A reserved byte or bit of a refusal payload is set (Table 6.9). -/
def refusalReserved (b : List Byte) : Bool := !zeroRange b 2 6 || !zeroRange b 28 4 || decide (32 ≤ fieldN b 17 1)

/-- REFUSAL_RECEIPT (R166): the operation that the refused message belongs to fails. A refused response belongs to none of
the tile's own. -/
def execRefusalReceipt (t : TileId) (f : Flit) (s : State) : Res :=
  guardRes (Instr.wf (.refusalReceipt t f)) (s.inTurn t (· == f)
    (let s1 := s.takeRx t (· == f)
     let status := fieldN f.payload 0 2
     let dest := fieldN f.payload 8 8
     if f.kind ≠ 5 then s1
     else if refusalReserved f.payload then s1.refuse t f 0x0002
     else if fieldN f.payload 17 1 % 8 = 3 then s1
     else if f.id = 0 ∨ (destOf dest).route ≠ 0 then s1.refusedPlain t status dest
     else
       match txOf (s.tile t) f.id with
       | none => s1
       | some x => s1.txFailed t x status true))

/-- RESPONSE_TIMEOUT (R165): the operation completes with 0x000A. DESIGN CHOICE, log 3, 39. -/
def execResponseTimeout (t : TileId) (id : Nat) (s : State) : Res :=
  guardRes (Instr.wf (.responseTimeout t id))
    (if s.timeoutsHeld t then s
     else
       match txOf (s.tile t) id with
       | none => s
       | some x => s.txFailed t x 0x000A false)

end Sys2Proof.Machine
end

