-- ==== Sys2Proof/Machine/Vector.lean ====
section
/-!
DEFINITION. The vector unit (chapter 04: R109–R113): operands, arithmetic, conversions, composite classes, reductions,
selection and sampling.
-/

namespace Sys2Proof.Machine

/-! ### Operands (R109) -/

/-- Bytes of an element of a format. -/
def fmtSize : VFmt → Nat
  | .fp32 => 4
  | .bf16 => 2

/-- An element of `size` bytes as a word: a BF16 value is the upper half of an FP32 word. -/
def elemWord (size v : Nat) : Word := if size = 2 then BitVec.ofNat 32 (v * 65536) else BitVec.ofNat 32 v

/-- The elements that bytes hold. -/
def elemsOf (size : Nat) (b : List Byte) : List Word :=
  (List.range (b.length / size)).map (fun i => elemWord size (fieldN b (i * size) size))

/-- `n` elements of consecutive vector registers. -/
def State.regElems (s : State) (t : TileId) (r size n : Nat) : List Word := elemsOf size (s.vectorBytes t r (n * size))

/-- What the first operand's source gives. -/
inductive VecIn where
  /-- The queue does not yet hold enough words. -/
  | wait
  /-- The scratchpad range leaves the scratchpad. -/
  | outside (offset : Nat)
  | got (s : State) (l : List Word)

/-- An operand (R109): registers, scratchpad, or words of the input queue, which it takes whole, the rest of its last
word unused. DESIGN CHOICE, log 132. -/
def State.vecArg (s : State) (t : TileId) (src : VSrc) (r size n : Nat) : VecIn :=
  match src with
  | .regs => .got (s.useFree 8192) (s.regElems t r size n)
  | .spad off =>
    if 0x200000 < off + n * size then .outside off
    else
      let z := s.spGet t 6 0 off (n * size)
      .got z.1 (elemsOf size z.2.1)
  | .queue =>
    let k := ceilDiv (n * size) 32
    let q := (s.tile t).vu.queue
    if q.length < k then .wait
    else
      .got (s.modVu t (fun v => { v with queue := v.queue.drop k }))
        ((elemsOf size ((q.take k).flatMap (fun e => e.2))).take n)

/-- Bytes written to consecutive registers from v_r; what would lie beyond v31 is dropped. DESIGN CHOICE, log 37. -/
def putVecBytes (v : Vector) (r : Nat) (bs : List Byte) : Vector :=
  let b := bs.take (8192 - r * 256)
  let word := fun i => BitVec.ofNat 32 (leNat
    (overlayBytes (leBytes 4 (mget 0 v.regs (r * 64 + i)).toNat) 0 ((enabled b).drop (4 * i))))
  { v with regs := mwrite 0 v.regs (r * 64) ((List.range (ceilDiv b.length 4)).map word) }

/-- The bytes of result elements. -/
def elemBytesOf (size : Nat) (l : List Word) : List Byte :=
  l.flatMap (fun w => if size = 2 then leBytes 2 (w.toNat / 65536) else leBytes size w.toNat)

/-- Elements of a vector instruction: g_b, at most what the register file holds. DESIGN CHOICE, log 132. -/
def State.vecCount (s : State) (t : TileId) (ops : VOperands) (size : Nat) : Nat := min (s.gr t ops.gb).toNat (8192 / size)

/-- A vector instruction with one operand: its element count from g_b, its effect, and VDONE. -/
def State.vecOp (s : State) (t : TileId) (ops : VOperands) (size : Nat) (run : State → List Word → State) : State :=
  s.coreRun t (fun s =>
    match s.vecArg t ops.src ops.a size (s.vecCount t ops size) with
    | .wait => (s, .hold)
    | .outside off => (s, .stop 0x0402 0 off 0)
    | .got s1 l => ((run s1 l).vectorDone t 0x31, .retire (s.nextPc t)))

/-- A vector instruction with three operands, taken in order; a class that uses fewer reads the others from registers
and ignores them. -/
def State.vecOp3 (s : State) (t : TileId) (ops : VOperands) (size : Nat)
    (run : State → List Word → List Word → List Word → State) : State :=
  s.coreRun t (fun s =>
    let n := s.vecCount t ops size
    match s.vecArg t ops.src ops.a size n with
    | .wait => (s, .hold)
    | .outside off => (s, .stop 0x0402 0 off 0)
    | .got s1 l =>
      match s1.vecArg t ops.srcB ops.b size n with
      | .wait => (s, .hold)
      | .outside off => (s, .stop 0x0402 0 off 0)
      | .got s2 b =>
        match s2.vecArg t ops.srcC ops.c size n with
        | .wait => (s, .hold)
        | .outside off => (s, .stop 0x0402 0 off 0)
        | .got s3 c => ((run s3 l b c).vectorDone t 0x31, .retire (s.nextPc t)))

/-- The effect of an elementwise operation: results to v_d on. -/
def State.lanes (s : State) (t : TileId) (ops : VOperands) (out : Nat) (f : Word → Word → Word → Word)
    (l b c : List Word) : State :=
  let r := List.zipWith (fun (f : Word → Word) (w : Word) => f w) (List.zipWith (fun x y w => f x y w) l b) c
  s.modVu t (fun v => putVecBytes v ops.d (elemBytesOf out r))

/-! ### Arithmetic, comparison, conversion -/

/-- A result rounded once to a format. -/
def roundTo (fmt : VFmt) (x : Fp) : Word :=
  match fmt with
  | .fp32 => fp32 x
  | .bf16 => bf16 x

/-- Arithmetic class (R109). -/
def arithW (op : VArith) (fmt : VFmt) (a b c : Word) : Word :=
  match op with
  | .add => roundTo fmt (fpAdd (fpOf a) (fpOf b))
  | .sub => roundTo fmt (fpAdd (fpOf a) (fpNeg (fpOf b)))
  | .mul => roundTo fmt (fpMul (fpOf a) (fpOf b))
  | .fma => roundTo fmt (fpAdd (fpMul (fpOf a) (fpOf b)) (fpOf c))
  | .abs => a &&& 0x7FFFFFFF
  | .neg => a ^^^ 0x80000000

/-- VOP_ARITHMETIC (R110). -/
def execVopArithmetic (t : TileId) (op : VArith) (fmt : VFmt) (ops : VOperands) (s : State) : Res :=
  guardRes (Instr.wf (.vopArithmetic t op fmt ops))
    (s.vecOp3 t ops (fmtSize fmt) (fun s l b c => s.lanes t ops (fmtSize fmt) (arithW op fmt) l b c))

/-- The larger or smaller operand; open for a NaN and for zeros of both signs. -/
def extreme (largest : Bool) (a b : Word) : Word :=
  if fpLt (fpOf a) (fpOf b) then (if largest then b else a)
  else if fpLt (fpOf b) (fpOf a) then (if largest then a else b)
  else if a = b ∧ fpIsNan (fpOf a) = false then a
  else Config.minMaxOpen largest a b

/-- The mask of a comparison. -/
def maskW (b : Bool) : Word := if b then Config.cmpTrue ||| 0x00010001 else 0

/-- Compare-and-select class; select takes a where the raw word of c is not zero, −0 and any part of a mask included.
DESIGN CHOICE, log 132. -/
def cmpW (op : VCmp) (a b c : Word) : Word :=
  match op with
  | .min => extreme false a b
  | .max => extreme true a b
  | .compareLt => maskW (fpLt (fpOf a) (fpOf b))
  | .compareLe => maskW (fpLt (fpOf a) (fpOf b) || fpEq (fpOf a) (fpOf b))
  | .compareEq => maskW (fpEq (fpOf a) (fpOf b))
  | .select => if c = 0 then b else a

/-- VOP_COMPARE_AND_SELECT (R110). -/
def execVopCompareAndSelect (t : TileId) (op : VCmp) (fmt : VFmt) (ops : VOperands) (s : State) : Res :=
  guardRes (Instr.wf (.vopCompareAndSelect t op fmt ops))
    (s.vecOp3 t ops (fmtSize fmt) (fun s l b c => s.lanes t ops (fmtSize fmt) (cmpW op) l b c))

/-- Bytes of an element that a conversion reads, and of one that it writes (0 for a 4-bit code). -/
def convSizes : VConv → Nat × Nat
  | .int32ToFp32 => (4, 4)
  | .fp32ToInt32 => (4, 4)
  | .fp32ToBf16 => (4, 2)
  | .bf16ToFp32 => (2, 4)
  | .fp32ToE4m3 => (4, 1)
  | .fp32ToE5m2 => (4, 1)
  | .quantA4 => (4, 0)
  | .quantA8 => (4, 1)
  | .quantInt8 => (4, 1)

/-- One converted element; quantisation as R49: times the reciprocal scale, half to even, zero point, clamp. -/
def convW (op : VConv) (rcp : Word) (zp : Nat) (a : Word) : Word :=
  match op with
  | .int32ToFp32 => fp32 (fpInt (sInt a))
  | .fp32ToInt32 =>
    match fpToInt (fpOf a) with
    | some v => if -(2 ^ 31 : Int) ≤ v ∧ v < 2 ^ 31 then wInt v else Config.fpToIntOut a
    | none => Config.fpToIntOut a
  | .fp32ToBf16 => bf16 (fpOf a)
  | .bf16ToFp32 => a
  | .fp32ToE4m3 => BitVec.ofNat 32 (fp8 false (fpOf a))
  | .fp32ToE5m2 => BitVec.ofNat 32 (fp8 true (fpOf a))
  | .quantA4 => wInt (quantise (mulW a rcp) zp 0 15).1
  | .quantA8 => wInt (quantise (mulW a rcp) zp 0 255).1
  | .quantInt8 => wInt (quantise (mulW a rcp) zp (-128) 127).1

/-- 4-bit codes packed in bytes, the even one in bits [3:0] (R42). -/
def packNibbles (l : List Word) : List Byte :=
  (List.range (ceilDiv l.length 2)).map (fun i =>
    BitVec.ofNat 8 (((l.drop (2 * i)).headD 0).toNat % 16 + 16 * (((l.drop (2 * i + 1)).headD 0).toNat % 16)))

/-- VOP_CONVERSION (R110): the results lie packed from v_d on. -/
def execVopConversion (t : TileId) (op : VConv) (rcp : BitVec 32) (zp : Nat) (ops : VOperands) (s : State) : Res :=
  guardRes (Instr.wf (.vopConversion t op rcp zp ops))
    (s.vecOp t ops (convSizes op).1 (fun s l =>
      let r := l.map (convW op rcp zp)
      let b := if (convSizes op).2 = 0 then packNibbles r else elemBytesOf (convSizes op).2 r
      s.modVu t (fun v => putVecBytes v ops.d b)))

/-! ### Reciprocal, exponential and the classes built from them -/

/-- The FP32 word 1.0. -/
def oneW : Word := 0x3F800000

/-- Reciprocal (R109): within 1 ulp, subnormals flushed at both ends; free for zero. DESIGN CHOICE, log 24. -/
def recipW (a : Word) : Word :=
  let x := flush a
  match fpOf x with
  | .nan => nan32
  | .inf s => fp32 (.fin s 0 0)
  | .fin _ m _ => if m = 0 then flush (Config.fpRecip x) else flush (inBound (recipOk x (Config.fpRecip x)) (Config.fpRecip x) (divW oneW x))

/-- Reciprocal square root (R109): within 1 ulp; free for zero and below. DESIGN CHOICE, log 24. -/
def rsqrtW (a : Word) : Word :=
  let x := flush a
  match fpOf x with
  | .nan => nan32
  | .inf s => if s then flush (Config.fpRsqrt x) else 0
  | .fin s m e =>
    if s ∨ m = 0 then flush (Config.fpRsqrt x)
    else flush (inBound (rsqrtOk m e (Config.fpRsqrt x)) (Config.fpRsqrt x) (rsqrtNear m e))

/-- An exponential within 2 ulp from its approximation; free beyond the range of FP32. -/
def expFrom (z : Int × Nat) (x free : Word) : Word :=
  match fpOf x with
  | .nan => nan32
  | .inf s => if s then 0 else 0x7F800000
  | .fin s m e =>
    if fpLt (.fin false 128 0) (.fin false m e) || decide (127 < z.1) then (if s then 0 else flush free)
    else flush (inBound (expOk z free) free (fp32 (.fin false z.2 (z.1 - 80))))

/-- Exp (R109); exp(0) = 1 exactly (R112). DESIGN CHOICE, log 24. -/
def expW (a : Word) : Word :=
  if flush a &&& 0x7FFFFFFF = 0 then oneW else expFrom (expNear (fpOf (flush a))) (flush a) (Config.fpExp (flush a))

/-- Exp to base 2. DESIGN CHOICE, log 24. -/
def exp2W (a : Word) : Word := expFrom (exp2Near (fpOf (flush a))) (flush a) (Config.fpExp2 (flush a))

/-- 1 / (1 + exp(−x)), each step rounded to FP32. DEDUCED, log 25. -/
def sigmoidW (a : Word) : Word := recipW (addW oneW (expW (a ^^^ 0x80000000)))

/-- x × sigmoid(x). DEDUCED, log 25. -/
def siluW (a : Word) : Word := mulW a (sigmoidW a)

/-- An FP32 function rounded once more where the lanes are BF16. -/
def inFmt (fmt : VFmt) (w : Word) : Word :=
  match fmt with
  | .fp32 => w
  | .bf16 => bf16 (fpOf w)

/-- A one-operand class. -/
def State.unary (s : State) (t : TileId) (fmt : VFmt) (ops : VOperands) (f : Word → Word) : State :=
  s.vecOp t ops (fmtSize fmt) (fun s l =>
    s.modVu t (fun v => putVecBytes v ops.d (elemBytesOf (fmtSize fmt) (l.map (fun w => inFmt fmt (f w))))))

/-- VOP_RECIPROCAL (R110). -/
def execVopReciprocal (t : TileId) (sqrt : Bool) (fmt : VFmt) (ops : VOperands) (s : State) : Res :=
  guardRes (Instr.wf (.vopReciprocal t sqrt fmt ops)) (s.unary t fmt ops (if sqrt then rsqrtW else recipW))

/-- VOP_EXP (R110). -/
def execVopExp (t : TileId) (base2 : Bool) (fmt : VFmt) (ops : VOperands) (s : State) : Res :=
  guardRes (Instr.wf (.vopExp t base2 fmt ops)) (s.unary t fmt ops (if base2 then exp2W else expW))

/-- SIGMOID (R110). -/
def execSigmoid (t : TileId) (fmt : VFmt) (ops : VOperands) (s : State) : Res :=
  guardRes (Instr.wf (.sigmoid t fmt ops)) (s.unary t fmt ops sigmoidW)

/-- SILU (R110). -/
def execSilu (t : TileId) (fmt : VFmt) (ops : VOperands) (s : State) : Res :=
  guardRes (Instr.wf (.silu t fmt ops)) (s.unary t fmt ops siluW)

/-- c[j] of R209: round_half_even(255 × exp(fp32(s_Q × (A[j] − a)))), an unsigned byte. -/
def softmaxCode (sq : Word) (score rowMax : Int) : Nat :=
  let e := expW (fp32 (fpMul (fpOf sq) (fpInt (score - rowMax))))
  (clampI 0 255 ((fpToInt (fpMul (fpInt 255) (fpOf e))).getD 0)).toNat

/-- SOFTMAX_STEP (R110, R209): scores to U8 weights in v_d on; their sum is added to lane 1 of v_b. DEDUCED, log 25. -/
def execSoftmaxStep (t : TileId) (ops : VOperands) (s : State) : Res :=
  guardRes (Instr.wf (.softmaxStep t ops))
    (s.vecOp t ops 4 (fun s l =>
      let regs := (s.tile t).vu.regs
      let rowMax := sInt (mget 0 regs (ops.b * 64))
      let sq := mget 0 regs (ops.c * 64)
      let c := l.map (fun w => softmaxCode sq (sInt w) rowMax)
      let sum := BitVec.ofNat 32 ((mget 0 regs (ops.b * 64 + 1)).toNat + c.sum)
      s.modVu t (fun v =>
        let v1 := putVecBytes v ops.d (c.map (fun x => BitVec.ofNat 8 x))
        { v1 with regs := mset 0 v1.regs (ops.b * 64 + 1) sum })))

/-! ### Reductions and selection -/

/-- The operands left of a lane sum added two by two, each addition rounded to FP32; which two is free. -/
def combineLanes (key : List Word) (fuel : Nat) (l : List Fp) : Fp :=
  match fuel, l with
  | _, [] => .fin false 0 0
  | _, [x] => x
  | 0, x :: _ => x
  | fuel + 1, x :: y :: r =>
    let all := x :: y :: r
    let z := Config.lanePick key all.length
    let a := (all.drop (z.1 % all.length)).headD x
    let rest := all.eraseIdx (z.1 % all.length)
    let b := (rest.drop (z.2 % rest.length)).headD y
    combineLanes key fuel (fpOf (fp32 (fpAdd a b)) :: rest.eraseIdx (z.2 % rest.length))

/-- Sum across lanes in an order that is free (R110); one lane is its own sum. DESIGN CHOICE, log 23. -/
def laneSum (l : List Word) : Word :=
  match l with
  | [x] => x
  | l => fp32 (combineLanes l l.length (l.map fpOf))

/-- Sum of squares across lanes (R110), squares rounded or not. DESIGN CHOICE, log 23. -/
def laneSumSq (l : List Word) : Word :=
  fp32 (combineLanes l l.length (l.map (fun w => if Config.squareFused then fpMul (fpOf w) (fpOf w) else fpOf (mulW w w))))

/-- VECTOR_REDUCTION (R110): across lanes, accumulated across issues in lane 0 of v_d. -/
def execVectorReduction (t : TileId) (op : VRed) (first : Bool) (ops : VOperands) (s : State) : Res :=
  guardRes (Instr.wf (.vectorReduction t op first ops))
    (s.vecOp t ops 4 (fun s l =>
      let old := mget 0 (s.tile t).vu.regs (ops.d * 64)
      let new :=
        match op with
        | .sum => if first then laneSum l else addW old (laneSum l)
        | .sumSq => if first then laneSumSq l else addW old (laneSumSq l)
        | .max =>
          if first then
            match l with
            | [] => old
            | a :: r => r.foldl (extreme true) a
          else l.foldl (extreme true) old
      s.modVu t (fun v => { v with regs := mset 0 v.regs (ops.d * 64) new })))

/-- The order of the list of largest values: the larger first, ties to the lower index. -/
def topBefore (a b : Word × Nat) : Bool :=
  if fpIsNan (fpOf a.1) || fpIsNan (fpOf b.1) then Config.nanBefore a.1 b.1
  else fpLt (fpOf b.1) (fpOf a.1) || (!fpLt (fpOf a.1) (fpOf b.1) && decide (a.2 < b.2))

/-- An entry at its place. -/
def topInsert (l : List (Word × Nat)) (e : Word × Nat) : List (Word × Nat) :=
  match l with
  | [] => [e]
  | a :: r => if topBefore e a then e :: a :: r else a :: topInsert r e

/-- The 64 largest of a list and new entries. -/
def topMerge (n : Nat) (l new : List (Word × Nat)) : List (Word × Nat) := (new.foldl topInsert l).take n

/-- TOP_64_SELECT (R110): the running list, with its values in v_d and its indices in v_(d+1). -/
def execTop64Select (t : TileId) (first : Bool) (base : Nat) (ops : VOperands) (s : State) : Res :=
  guardRes (Instr.wf (.top64Select t first base ops))
    (s.vecOp t ops 4 (fun s l =>
      let old := if first then [] else (s.tile t).vu.top
      let top := topMerge 64 old (l.mapIdx (fun i w => (w, base + i)))
      s.modVu t (fun v =>
        let v1 := putVecBytes { v with top := top } ops.d (elemBytesOf 4 (top.map (fun e => e.1)))
        putVecBytes v1 (ops.d + 1 : Nat) (elemBytesOf 4 (top.map (fun e => BitVec.ofNat 32 e.2))))))

/-! ### Sampling (R112, R113) -/

/-- rand(seed, position, draw) of R113, exact in FP32. DESIGN CHOICE, log 36. -/
def randW (seed : BitVec 64) (position draw : Nat) : Word :=
  let x0 := seed ^^^ (BitVec.ofNat 64 position * 0x9E3779B97F4A7C15) ^^^ BitVec.ofNat 64 draw
  let x1 := (x0 ^^^ (x0 >>> 30)) * 0xBF58476D1CE4E5B9
  let x2 := (x1 ^^^ (x1 >>> 27)) * 0x94D049BB133111EB
  let x3 := x2 ^^^ (x2 >>> 31)
  fp32 (.fin false (x3 >>> 40).toNat (-24))

/-- Running FP32 sums of the weights. -/
def runningSums (acc : Word) (l : List Word) : List Word :=
  match l with
  | [] => []
  | e :: r => addW acc e :: runningSums (addW acc e) r

/-- The first place from `i` on whose sum passes a test. -/
def firstAt (p : Word → Bool) (l : List Word) (i : Nat) : Option Nat := (findIdx p l i).map (fun e => e.1)

/-- The token of one draw (R112): none without a candidate. DESIGN CHOICE, log 36. -/
def drawToken (a : DrawArgs) : Option Nat :=
  let k := min a.topK a.vocab
  let cand := topMerge (max k 1) [] (a.cands.map (fun e => (e.2, e.1)))
  match cand with
  | [] => none
  | c :: _ =>
    if fpEq (fpOf a.temp) (.fin false 0 0) then some c.2
    else
      let e := cand.map (fun x => expW (divW (subW x.1 c.1) a.temp))
      let sums := runningSums 0 e
      let total := (sums.getLast?).getD 0
      let bound := mulW a.topP total
      let n := ((firstAt (fun w => !fpLt (fpOf w) (fpOf bound)) sums 0).getD (sums.length - 1)) + 1
      let x := mulW (randW a.seed a.position 0) ((sums.drop (n - 1)).headD 0)
      let i := (firstAt (fun w => fpLt (fpOf x) (fpOf w)) (sums.take n) 0).getD (n - 1)
      (cand.drop i).head?.map (fun e => e.2)

/-- DRAW (R112): the token to g_d. -/
def execDraw (t : TileId) (d : Fin 32) (args : DrawArgs) (s : State) : Res :=
  guardRes (Instr.wf (.draw t d args))
    (s.coreRun t (fun s =>
      let w := match drawToken args with
        | some k => BitVec.ofNat 32 k
        | none => Config.freeWord s.free
      (((s.useFree 1).setGr t d w).vectorDone t 0x31, .retire (s.nextPc t))))

end Sys2Proof.Machine
end

