-- ==== Sys2Proof/Machine/Debug.lean ====
section
/-!
DEFINITION. Halt, resume and step of a core through the management path, and trace time records (R195, R198–R202).
-/

namespace Sys2Proof.Machine

/-- The tile's partition is sealed: the debug features of Table 7.16 are refused. -/
def State.sealedAt (s : State) (t : TileId) : Bool :=
  match s.partOfTile t with
  | some p => s.isSealed p
  | none => false

/-- A management write of CC_CTRL (R198, R200): HALT always, RESUME and SCOPE as R200 allows. -/
def State.writeCtrl (s : State) (t : TileId) (halt resume scope : Bool) : State :=
  if s.sealedAt t then s
  else
    let s1 := s.modCc t (fun c => { c with scope := scope })
    if halt then s1.haltScoped t scope 1
    else if resume then
      match scope, s.partOfTile t with
      | true, some p => s1.resumePart p
      | _, _ => s1.resumeCore t
    else s1

/-- HALT_REQUEST (R198). -/
def execHaltRequest (t : TileId) (partitionScope : Bool) (s : State) : Res :=
  guardRes (Instr.wf (.haltRequest t partitionScope)) (s.writeCtrl t true false partitionScope)

/-- RESUME (R200): refused with 0x0315 on a core that is not halted. -/
def execResume (t : TileId) (partitionScope : Bool) (s : State) : Res :=
  guardRes (Instr.wf (.resume t partitionScope))
    (if (s.tile t).cc.state = .halted then s.writeCtrl t false true partitionScope else s)

/-! ### Decoding an instruction word (R172, Tables 7.2, 7.3) -/

/-- A register field of an instruction. -/
def regField (w hi : Nat) : Fin 32 := Fin.ofNat 32 (bits w hi (hi - 4))

/-- The state of a next outcome. -/
def nextOf (s : State) (r : Res) : State :=
  match r with
  | .next s1 => s1
  | _ => s

/-- The vector instruction of a VOP word: FN names the class and operation, which the manual does not number; the count
is in g_b. A draw stepped over has no logits in the state, so its token is free. DESIGN CHOICE, log 22. -/
def vopWord (t : TileId) (w : Nat) (s : State) : Res :=
  let d := regField w 25
  let a := regField w 20
  let b := regField w 15
  let ops : VOperands := { d := d, a := a, b := b, c := d, gb := b, src := .regs }
  let k := Config.vopFn (bits w 10 0)
  let fmt := if k % 2 = 0 then VFmt.fp32 else VFmt.bf16
  let conv := fun op => execVopConversion t op (Config.freeWord s.free) (Config.freeNat s.free) ops (s.useFree 1)
  match k / 2 % 30 with
  | 0 => execVopArithmetic t .add fmt ops s
  | 1 => execVopArithmetic t .sub fmt ops s
  | 2 => execVopArithmetic t .mul fmt ops s
  | 3 => execVopArithmetic t .fma fmt ops s
  | 4 => execVopArithmetic t .abs fmt ops s
  | 5 => execVopArithmetic t .neg fmt ops s
  | 6 => execVopCompareAndSelect t .min fmt ops s
  | 7 => execVopCompareAndSelect t .max fmt ops s
  | 8 => execVopCompareAndSelect t .compareLt fmt ops s
  | 9 => execVopCompareAndSelect t .compareLe fmt ops s
  | 10 => execVopCompareAndSelect t .compareEq fmt ops s
  | 11 => execVopCompareAndSelect t .select fmt ops s
  | 12 => conv .int32ToFp32
  | 13 => conv .fp32ToInt32
  | 14 => conv .fp32ToBf16
  | 15 => conv .bf16ToFp32
  | 16 => conv .fp32ToE4m3
  | 17 => conv .fp32ToE5m2
  | 18 => conv .quantA4
  | 19 => conv .quantA8
  | 20 => conv .quantInt8
  | 21 => execVopReciprocal t (k % 3 == 0) fmt ops s
  | 22 => execVopExp t (k % 3 == 0) fmt ops s
  | 23 => execSigmoid t fmt ops s
  | 24 => execSilu t fmt ops s
  | 25 => execSoftmaxStep t ops s
  | 26 => execVectorReduction t .sum (k % 3 == 0) ops s
  | 27 => execVectorReduction t (if k % 5 = 0 then .max else .sumSq) (k % 3 == 0) ops s
  | 28 => execTop64Select t (k % 3 == 0) (Config.freeNat s.free) ops (s.useFree 1)
  | _ => execDraw t d { seed := 0, temp := 0, topK := 1, topP := 0, position := 0, vocab := 0, cands := [] } s

/-- An instruction of class register-register. -/
def intWord (t : TileId) (w : Nat) (s : State) : Res :=
  let d := regField w 25
  let a := regField w 20
  let b := regField w 15
  match bits w 10 0 with
  | 0 => execAdd t d a b s
  | 1 => execSub t d a b s
  | 2 => execAnd t d a b s
  | 3 => execOr t d a b s
  | 4 => execXor t d a b s
  | 5 => execSll t d a b s
  | 6 => execSrl t d a b s
  | 7 => execSra t d a b s
  | 8 => execSlt t d a b s
  | 9 => execSltu t d a b s
  | fn => execIllegalInstruction t fn s

/-- The meaning of an instruction word. -/
def coreWord (t : TileId) (w : Nat) (s : State) : Res :=
  let d := regField w 25
  let a := regField w 20
  let b := regField w 15
  let fn := bits w 10 0
  let imm := BitVec.ofNat 16 w
  let ill := execIllegalInstruction t fn s
  match bits w 31 26 with
  | 0x00 => intWord t w s
  | 0x01 => execAddi t d a imm s
  | 0x02 => execAndi t d a imm s
  | 0x03 => execOri t d a imm s
  | 0x04 => execXori t d a imm s
  | 0x05 => execSlti t d a imm s
  | 0x06 => execShiftImmediate t d a imm s
  | 0x07 => execLui t d imm s
  | 0x08 => if fn = 0 then execMul t d a b s else if fn = 1 then execMulh t d a b s else if fn = 2 then execMulhu t d a b s else ill
  | 0x10 => execLb t d a imm s
  | 0x11 => execLbu t d a imm s
  | 0x12 => execLh t d a imm s
  | 0x13 => execLhu t d a imm s
  | 0x14 => execLw t d a imm s
  | 0x18 => execSb t d a imm s
  | 0x19 => execSh t d a imm s
  | 0x1A => execSw t d a imm s
  | 0x20 => execBeq t d a imm s
  | 0x21 => execBne t d a imm s
  | 0x22 => execBlt t d a imm s
  | 0x23 => execBge t d a imm s
  | 0x24 => execBltu t d a imm s
  | 0x25 => execBgeu t d a imm s
  | 0x28 => execJ t (BitVec.ofNat 26 w) s
  | 0x29 => execJal t (BitVec.ofNat 26 w) s
  | 0x2A => if fn = 0 then execJr t a s else if fn = 1 then execJalr t d a s else ill
  | 0x30 => execTsub t a s
  | 0x31 => vopWord t w s
  | 0x32 => execVld t d a s
  | 0x33 => execVst t d a s
  | 0x34 => execVtst t d a b s
  | 0x38 => execSend t a b s
  | 0x39 => execRecv t d a s
  | 0x3A => execRld t d b s
  | 0x3B => execRst t d b s
  | 0x3C =>
    if fn = 0 then execRamoFetchAndAdd t d a b s
    else if fn = 1 then execRamoCompareAndSwap32 t d a b s
    else if fn = 2 then execRamoCompareAndSwap64 t d a b s
    else ill
  | 0x3D => execWait t d a s
  | 0x3E => execFence t s
  | 0x3F => if fn = 0 then execNop t s else if fn = 1 then execHalt t s else if fn = 2 then execTrap t s else if fn = 3 then execBrk t s else ill
  | _ => ill

/-- A byte of instruction SRAM: of the image, or of the TRAP words that fill what it leaves (R173). -/
def isramByte (c : Core) (a : Nat) : Byte :=
  if c.used.any (fun n => decide (n ≤ a)) then (leBytes 4 0xFC000002).getD (a % 4) 0 else mget 0 c.isram a

/-- The word that a core would fetch. -/
def fetchWord (c : Core) : Nat := leNat ((List.range 4).map (fun i => isramByte c (c.pc.toNat + i)))

/-- A stepped core halts again with cause 6, at once or when its response arrives. -/
def State.haltStep (s : State) (t : TileId) : State :=
  if (s.tile t).cc.wait ≠ .none then s.modCc t (fun c => { c with haltDue := 6 })
  else if (s.tile t).cc.state = .running ∨ (s.tile t).cc.state = .waiting then s.haltCore t 6
  else s

/-- STEP (R200): one instruction of a halted core, which halts again with cause 6; refused with 0x0315 otherwise.
DESIGN CHOICE, log 46. -/
def execStep (t : TileId) (s : State) : Res :=
  guardRes (Instr.wf (.step t))
    (if (s.tile t).cc.state ≠ .halted ∨ s.sealedAt t = true then s
     else
       let s1 := s.modCc t (fun c => { c with state := .running, haltCause := 0, passBp := true, timerAt := s.clkTime })
       (nextOf s1 (coreWord t (fetchWord (s.tile t).cc) s1)).haltStep t)

/-- DRAIN_LIMIT_EXPIRY (R198): a halt that has not drained reads 3 in OD 0x7000.07. -/
def execDrainLimitExpiry (part : Nat) (s : State) : Res :=
  guardRes (Instr.wf (.drainLimitExpiry part))
    (if s.odP 0x7000 7 part = 1 ∧ s.partDrained part = false then s.odSetP 0x7000 7 part 3 else s)

/-- TRACE_TIME_RECORD (R195): a time record of a tile that is traced. -/
def execTraceTimeRecord (t : TileId) (s : State) : Res :=
  guardRes (Instr.wf (.traceTimeRecord t)) (s.trace t 8 [])

end Sys2Proof.Machine
end

