-- ==== Sys2Proof/Machine/HostPort.lean ====
section
/-!
DEFINITION. Host ports (chapter 11): function registers, rings and records, submission fetch, the device control lock,
and host violations (R280–R292).
-/

namespace Sys2Proof.Machine

/-- CLK_CORE cycles in a microsecond (R336). -/
def cyclesPerUs : Nat := 1300

/-- Nanoseconds of a number of CLK_CORE cycles. -/
def nsOf (cycles : Nat) : Nat := cycles * 10 / 13

/-! ### Binding -/

/-- The port that a partition is bound to (R282). -/
def State.boundPort (s : State) (p : Nat) : Port := if (s.part p).port = 0 then .a else .b

/-- The partition of a VF. -/
def vfPart (fn : Nat) : Nat := fn - 1

/-- The function is a VF whose partition is bound to this port. -/
def State.bound (s : State) (port : Port) (fn : Nat) : Bool := fn != 0 && (s.part (vfPart fn)).port == portNum port

/-- The bound VF of a partition changed. -/
def State.modVf (s : State) (p : Nat) (f : Function → Function) : State := s.modFn (s.boundPort p) (p + 1) f

/-- The bound VF of a partition. -/
def State.vf (s : State) (p : Nat) : Function := s.fn (s.boundPort p) (p + 1)

/-- Reset value of a word of the MSI-X table: every vector masked. PRESUMED, log 141. -/
def msixReset (off : Nat) : Word := if off % 16 = 12 then 1 else 0

/-- A word of the MSI-X table. -/
def msixWord (f : Function) (off : Nat) : Word := mget 0 f.msix off ^^^ msixReset off

/-- The vector is masked. -/
def vectorMasked (f : Function) (vector : Nat) : Bool := bit (msixWord f (16 * vector + 12)).toNat 0

/-- Signal an MSI-X vector (R284); a masked one is pending. PRESUMED, log 141. -/
def State.interrupt (s : State) (port : Port) (fn vector : Nat) : State :=
  if vectorMasked (s.fn port fn) vector then s.modFn port fn (fun f => { f with pba := setBit f.pba vector true })
  else s.emit (.msix port fn vector)

/-- A word of the MSI-X table is written; a pending vector that it unmasks is signalled. PRESUMED, log 141. -/
def State.msixWrite (s : State) (port : Port) (fn off : Nat) (v : Word) : State :=
  let s1 := s.modFn port fn (fun f => { f with msix := mset 0 f.msix off (v ^^^ msixReset off) })
  if bit (s1.fn port fn).pba (off / 16) && !vectorMasked (s1.fn port fn) (off / 16) then
    (s1.modFn port fn (fun f => { f with pba := setBit f.pba (off / 16) false })).interrupt port fn (off / 16)
  else s1

/-- A host violation of Table 11.6 without a status: counted for the port, logged, and an AER error. PRESUMED, log 78. -/
def State.aerError (s : State) (port : Port) (fn error : Nat) : State :=
  ((s.modFn port fn (fun f => { f with aer := setBit f.aer error true })).odAdd 0x6000 (6 + portNum port) 1).log
    { rule := 292, sev := 1, source := 4 + portNum port, part := if fn = 0 then 0xFF else vfPart fn,
      data := [portNum port, fn, error] }

/-- A host violation (R292): recorded in the function, counted for the port and logged; vector 2 of a VF. DEDUCED, log 130. -/
def State.violate (s : State) (port : Port) (fn status value addr : Nat) : State :=
  let s1 := s.modFn port fn (fun f =>
    { f with viol := true, violStatus := status, violValue := value % 65536, vaddr := addr })
  let s2 := s1.odAdd 0x6000 (6 + portNum port) 1
  let s3 := s2.log { rule := 292, status := status, sev := 1, source := 4 + portNum port,
                     part := if fn = 0 then 0xFF else vfPart fn, data := [portNum port, fn] }
  if fn = 0 then s3 else s3.interrupt port fn 2

/-! ### Records (R247, R288) -/

/-- The stream of a partition's VF has to be secure (R291). -/
def State.ideRequired (s : State) (p : Nat) : Bool := s.isSealed p || s.odEff 0x6000 0xD p == 1

/-- The rings of a VF can move (R291–R293). -/
def State.ringsMove (s : State) (port : Port) (fn : Nat) : Bool :=
  let f := s.fn port fn
  f.en && f.busMaster && !f.d3hot && (f.ideSet.isSome || !(f.ideBroken || s.ideRequired (vfPart fn)))

/-- Slots of a ring. -/
def slotsLog (n : Nat) : Nat := 2 ^ n

/-- Records in the completion ring that the host has not consumed. -/
def cqUsed (f : Function) : Nat := (f.cqTail + 65536 - f.cqHead) % 65536

/-- Write held records while the ring has room: the state and the number written. DESIGN CHOICE, log 75. -/
def State.writeRecords (s : State) (port : Port) (fn : Nat) (l : List (List Byte)) : State × Nat :=
  match l with
  | [] => (s, 0)
  | b :: r =>
    let f := s.fn port fn
    if slotsLog f.cqSize ≤ cqUsed f then (s, 0)
    else
      let s1 := s.emit (.hostWrite port fn (f.cqBase + f.cqTail % slotsLog f.cqSize * 64) b)
      let z := (s1.modFn port fn (fun f => { f with cqTail := (f.cqTail + 1) % 65536, held := f.held.drop 1 })).writeRecords
        port fn r
      (z.1, z.2 + 1)

/-- The 64 bytes of the shadow block. -/
def shadowBytes (f : Function) : List Byte :=
  leBytes 2 f.fetched ++ leBytes 2 f.taken ++ leBytes 2 f.cqTail ++ List.replicate 58 0

/-- Held requests of every partition. -/
def State.heldAll (s : State) : Nat := ((List.range 32).map (fun p => (s.part p).reqs.length)).sum

/-- The entries that count held requests (Table 9.9). -/
def State.countHeld (s : State) (p : Nat) : State :=
  (s.odSetP 0x5000 9 p (s.part p).reqs.length).odSet 0x5000 0x13 s.heldAll

/-- The completion record of a request waits for its ring. -/
def recordWaits (f : Function) (r : Nat) : Bool := f.held.any (fun b => fieldN b 10 1 == 2 && fieldN b 8 2 == r)

/-- Entries whose completion record has been written are FREE (R246). -/
def State.freeEntries (s : State) (p : Nat) : State :=
  let stays := fun e : Nat × Request => !e.2.recorded || recordWaits (s.vf p) e.1
  if (s.part p).reqs.all stays then s
  else (s.modPart p (fun P => { P with reqs := P.reqs.filter stays })).countHeld p

/-- Move a VF's completion ring on: records, the entries that they free, the shadow block, then the interrupt that is due
(R246, R288). -/
def State.pumpRecords (s : State) (port : Port) (fn : Nat) : State :=
  if !s.ringsMove port fn then s
  else
    let z := s.writeRecords port fn (s.fn port fn).held
    if z.2 = 0 then z.1
    else
      let f := z.1.fn port fn
      let s1 := (z.1.freeEntries (vfPart fn)).emit (.hostWrite port fn f.shadow (shadowBytes f))
      let n := f.unsignalled + z.2
      if f.coalCnt ≤ n then (s1.modFn port fn (fun f => { f with unsignalled := 0 })).interrupt port fn 0
      else s1.modFn port fn (fun f => { f with unsignalled := n })

/-- A record for a partition's host (R247): written in order, or held and the wait counted. -/
def State.postRecord (s : State) (p : Nat) (b : List Byte) : State :=
  let port := s.boundPort p
  let s1 := (s.modVf p (fun f => { f with held := f.held ++ [fitB b 64] })).pumpRecords port (p + 1)
  if (s1.vf p).held.isEmpty then s1 else s1.odAdd 0x5000 0x11 1

/-! ### Function registers (R284–R288) -/

/-- Version negotiation (R285). -/
def State.negotiateVer (s : State) (port : Port) (fn value : Nat) : State :=
  let hmax := value / 65536
  let hmin := value % 65536
  let v := min hmax (s.odG 0x1010 1)
  if (s.fn port fn).en then s.modFn port fn (fun f => { f with cfgErr := true })
  else
    let ok := decide (hmin ≤ v) && decide (s.odG 0x1011 1 ≤ v)
    let s1 := s.modFn port fn (fun f => { f with neg := if ok then v else 0, verResult := if ok then 0 else 0x0008 })
    if s.bound port fn then s1.odSet 0x6002 fn (if ok then v else 0) else s1

/-- The first failing check of an enable (R286): code and address; none when it succeeds. -/
def State.enableFails (s : State) (port : Port) (fn : Nat) : Option (Nat × Nat) :=
  let f := s.fn port fn
  if f.neg = 0 then some (0x0A08, 0)
  else if !s.bound port fn then some (0x0A04, 0)
  else if s.isSealed (vfPart fn) && f.ideSet.isNone then some (0x0A06, 0)
  else if f.sqSize < 4 ∨ 15 < f.sqSize ∨ f.cqSize < 4 ∨ 15 < f.cqSize ∨ f.timeout = 0 ∨ f.coalCnt = 0 ∨ f.hi ≤ f.lo ∨
      slotsLog f.sqSize < f.hi then some (0x0A08, 0)
  else if f.sqBase % 4096 ≠ 0 then some (0x0401, f.sqBase)
  else if f.cqBase % 4096 ≠ 0 then some (0x0401, f.cqBase)
  else if f.shadow % 64 ≠ 0 then some (0x0401, f.shadow)
  else none

/-- A write of HQ_CTRL (R286). -/
def State.ringCtrl (s : State) (port : Port) (fn value : Nat) : State :=
  if value % 2 = 0 then s.modFn port fn (fun f => { f with en := false, fetching := false })
  else if (s.fn port fn).en then s
  else
    match s.enableFails port fn with
    | some (c, a) =>
      s.modFn port fn (fun f => { f with cfgErr := true, violStatus := c, violValue := value % 65536, vaddr := a })
    | none =>
      (s.modFn port fn (fun f =>
        { f with en := true, fetched := f.sqTail, taken := f.sqTail, cqTail := f.cqHead, descs := [], reading := none,
                 blocked := false, fetching := false })).pumpRecords port fn

/-- Submissions not fetched. -/
def sqWaiting (f : Function) : Nat := (f.sqTail + 65536 - f.fetched) % 65536

/-- Submissions fetched and not taken. -/
def sqInHand (f : Function) : Nat := (f.fetched + 65536 - f.taken) % 65536

/-- FETCHING sets when occupancy has reached HI (R134, R288). -/
def sqCheck (f : Function) : Function := if f.en && decide (f.hi ≤ sqWaiting f) then { f with fetching := true } else f

/-- A doorbell write of SQ_TAIL (R288, R292). DESIGN CHOICE, log 74. -/
def State.sqDoorbell (s : State) (port : Port) (fn value : Nat) : State :=
  let f := s.fn port fn
  let tail := value % 65536
  if slotsLog f.sqSize < (tail + 65536 - f.taken) % 65536 then s.violate port fn 0x0A05 value 0x38
  else s.modFn port fn (fun f => sqCheck { f with sqTail := tail, blocked := false })

/-- A doorbell write of CQ_HEAD (R288, R292). -/
def State.cqDoorbell (s : State) (port : Port) (fn value : Nat) : State :=
  let f := s.fn port fn
  let head := value % 65536
  if slotsLog f.cqSize < (f.cqTail + 65536 - head) % 65536 then s.violate port fn 0x0A05 value 0x3C
  else (s.modFn port fn (fun f => { f with cqHead := head })).pumpRecords port fn

/-- Half of a 64-bit register replaced. -/
def setHalf (old : Nat) (high : Bool) (v : Nat) : Nat :=
  if high then old % 2 ^ 32 + v * 2 ^ 32 else old / 2 ^ 32 * 2 ^ 32 + v

/-- A write of a ring register, ignored with CFG_ERR while EN = 1 but for CQ_COAL (R292). -/
def ringWrite (f : Function) (off v : Nat) : Function :=
  if off = 0x2C then { f with coalTime := v % 65536 }
  else if f.en then { f with cfgErr := true }
  else
    match off with
    | 0x10 => { f with sqBase := setHalf f.sqBase false v }
    | 0x14 => { f with sqBase := setHalf f.sqBase true v }
    | 0x18 => { f with sqSize := bits v 31 27, hi := bits v 15 8, lo := bits v 7 0 }
    | 0x1C => { f with timeout := v % 65536 }
    | 0x20 => { f with cqBase := setHalf f.cqBase false v }
    | 0x24 => { f with cqBase := setHalf f.cqBase true v }
    | 0x28 => { f with cqSize := bits v 31 27, coalCnt := bits v 7 0 }
    | 0x30 => { f with shadow := setHalf f.shadow false v }
    | 0x34 => { f with shadow := setHalf f.shadow true v }
    | _ => f

/-- A ring register of a function is written; one that EN = 1 has ignored is counted for the port and logged (R292). -/
def State.ringReg (s : State) (port : Port) (fn off v : Nat) : State :=
  let s1 := s.modFn port fn (fun f => ringWrite f off v)
  if (s.fn port fn).en && off != 0x2C then
    (s1.odAdd 0x6000 (6 + portNum port) 1).log
      { rule := 292, sev := 1, source := 4 + portNum port, part := vfPart fn, data := [portNum port, fn] }
  else s1

/-- HQ_STATUS. -/
def hqStatus (f : Function) : Nat :=
  b2n f.viol * 64 + b2n f.cfgErr * 32 + b2n f.hostErr * 16 + b2n f.ideErr * 8 + b2n (!f.held.isEmpty) * 4 +
    b2n f.fetching * 2 + b2n f.en

/-- HQ_STATUS written: W1C bits. -/
def hqClear (f : Function) (v : Nat) : Function :=
  { f with viol := f.viol && !bit v 6, cfgErr := f.cfgErr && !bit v 5, hostErr := f.hostErr && !bit v 4,
           ideErr := f.ideErr && !bit v 3 }

/-- HQ_ID (Table 11.4). -/
def State.hqId (s : State) (port : Port) (fn : Nat) : Nat :=
  if fn = 0 then portNum port * 2 ^ 24
  else 2 ^ 31 + b2n (s.bound port fn) * 2 ^ 30 + vfPart fn * 2 ^ 25 + portNum port * 2 ^ 24

/-- Lease remaining in ms (DCL_STATUS.REMAIN), 0 only once the lock is free. DEDUCED, log 129. -/
def State.leaseLeft (s : State) : Nat :=
  if s.hub.lockHolder = 0 then 0 else (s.hub.leaseEnd - s.clkTime + 1000 * cyclesPerUs - 1) / (1000 * cyclesPerUs)

/-- A read of a BAR0 word (Table 11.3); an unbound VF shows HQ_ID only (R282). -/
def State.readBar (s : State) (port : Port) (fn off : Nat) : Nat :=
  let f := s.fn port fn
  if off = 0 then s.hqId port fn
  else if fn ≠ 0 ∧ s.bound port fn = false then 0
  else if fn = 0 ∧ off < 0x50 then 0
  else if fn ≠ 0 ∧ 0x100 ≤ off ∧ off < 0x110 then 0
  else if 0x1000 ≤ off ∧ off < 0x2000 then leNat (mread 0 f.mbReq (off - 0x1000) 4)
  else if 0x2000 ≤ off ∧ off < 0x3000 then leNat (mread 0 f.mbRsp (off - 0x2000) 4)
  else if 0x3000 ≤ off ∧ off < 0x3800 then (msixWord f (off - 0x3000)).toNat
  else
    match off with
    | 0x04 => f.neg * 65536 + f.verResult
    | 0x08 => hqStatus f
    | 0x0C => b2n f.en
    | 0x10 => f.sqBase % 2 ^ 32
    | 0x14 => f.sqBase / 2 ^ 32
    | 0x18 => f.sqSize * 2 ^ 27 + f.hi * 256 + f.lo
    | 0x1C => f.timeout
    | 0x20 => f.cqBase % 2 ^ 32
    | 0x24 => f.cqBase / 2 ^ 32
    | 0x28 => f.cqSize * 2 ^ 27 + f.coalCnt
    | 0x2C => f.coalTime
    | 0x30 => f.shadow % 2 ^ 32
    | 0x34 => f.shadow / 2 ^ 32
    | 0x38 => f.sqTail
    | 0x3C => f.cqHead
    | 0x40 => f.taken * 65536 + f.fetched
    | 0x44 => f.cqTail
    | 0x48 => f.violStatus * 65536 + f.violValue
    | 0x4C => f.vaddr % 2 ^ 32
    | 0x50 => f.vaddr / 2 ^ 32
    | 0x54 => f.mbLen
    | 0x58 => f.mbErr * 65536 + b2n f.mbBusy * 32768 + b2n f.mbDone * 16384 + f.mbRlen
    | 0x104 => s.hub.lockHolder * 2 ^ 30 + s.leaseLeft
    | 0x108 => f.dclResult
    | 0x10C => s.odG 0x6000 (4 + portNum port)
    | 0x3800 => f.pba % 2 ^ 32
    | _ => 0

/-! ### Commands of the rings -/

/-- A ring register of a function: nothing on the PF, a violation on an unbound VF (R282, R284).
DESIGN CHOICE, log 74. -/
def State.vfWrite (s : State) (port : Port) (fn off value : Nat) (f : State → State) : State :=
  if fn = 0 then s
  else if s.bound port fn then f s
  else s.violate port fn 0x0A04 value off

/-- HQ_VER_WRITE (R285). -/
def execHqVerWrite (port : Port) (fn : Nat) (value : Word) (s : State) : Res :=
  guardRes (Instr.wf (.hqVerWrite port fn value))
    (s.vfWrite port fn 0x04 value.toNat (fun s => s.negotiateVer port fn value.toNat))

/-- RING_ENABLE (R286): a write of HQ_CTRL. -/
def execRingEnable (port : Port) (fn : Nat) (value : Word) (s : State) : Res :=
  guardRes (Instr.wf (.ringEnable port fn value))
    (s.vfWrite port fn 0x0C value.toNat (fun s => s.ringCtrl port fn value.toNat))

/-- SQ_TAIL_WRITE (R288). -/
def execSqTailWrite (port : Port) (fn : Nat) (value : Word) (s : State) : Res :=
  guardRes (Instr.wf (.sqTailWrite port fn value))
    (s.vfWrite port fn 0x38 value.toNat (fun s => s.sqDoorbell port fn value.toNat))

/-- CQ_HEAD_WRITE (R288). -/
def execCqHeadWrite (port : Port) (fn : Nat) (value : Word) (s : State) : Res :=
  guardRes (Instr.wf (.cqHeadWrite port fn value))
    (s.vfWrite port fn 0x3C value.toNat (fun s => s.cqDoorbell port fn value.toNat))

/-- Slots of the next submission read: at most 8, not across the ring's end, at most 64 in hand (R288). -/
def fetchCount (f : Function) : Nat :=
  min (min 8 (sqWaiting f)) (min (slotsLog f.sqSize - f.fetched % slotsLog f.sqSize) (64 - sqInHand f))

/-- The read of submission slots. -/
def State.askSlots (s : State) (port : Port) (fn n : Nat) : State :=
  let f := s.fn port fn
  s.emit (.hostRead port fn (f.sqBase + f.fetched % slotsLog f.sqSize * 128) (n * 128) (.fetch fn))

/-- Submission fetch stops in standby (R404). -/
def State.standby (s : State) : Bool := s.odG 0x7102 1 == 2 || s.odG 0x7102 1 == 3

/-- SUBMISSION_FETCH (R288). -/
def execSubmissionFetch (port : Port) (fn : Nat) (s : State) : Res :=
  guardRes (Instr.wf (.submissionFetch port fn))
    (let f := s.fn port fn
     let n := fetchCount f
     if s.bound port fn && s.ringsMove port fn && f.fetching && !f.blocked && f.reading.isNone && decide (0 < n) &&
         !s.standby then
       (s.askSlots port fn n).modFn port fn (fun f => { f with reading := some n })
     else s)

/-- SUBMISSION_FETCH_TIMEOUT (R134, R288): an idle ring with a waiting descriptor starts fetching. -/
def execSubmissionFetchTimeout (port : Port) (fn : Nat) (s : State) : Res :=
  guardRes (Instr.wf (.submissionFetchTimeout port fn))
    (s.modFn port fn (fun f => if f.en && decide (1 ≤ sqWaiting f) then { f with fetching := true } else f))

/-- INTERRUPT_COALESCE_EXPIRY (R288): COAL_TIME after the first unsignalled record. -/
def execInterruptCoalesceExpiry (port : Port) (fn : Nat) (s : State) : Res :=
  guardRes (Instr.wf (.interruptCoalesceExpiry port fn))
    (let f := s.fn port fn
     if 0 < f.unsignalled ∧ f.coalTime ≠ 0 then
       (s.modFn port fn (fun f => { f with unsignalled := 0 })).interrupt port fn 0
     else s)

/-- Descriptors of a submission read arrive. -/
def State.slotsArrive (s : State) (port : Port) (fn : Nat) (b : List Byte) : State :=
  match (s.fn port fn).reading with
  | none => s
  | some n =>
    let take := fun f : Function =>
      let g := { f with fetched := (f.fetched + n) % 65536, reading := none, retrying := dropFirst (fun u => u == HostReadUse.fetch fn) f.retrying,
                        descs := f.descs ++ (List.range n).map (fun i => sliceB b (128 * i) 128) }
      { g with fetching := decide (g.lo < sqWaiting g) }
    s.modFn port fn take

/-- A read of host memory by a function fails (R292): HOSTERR, counted, and recorded as a violation with its host address.
DEDUCED, log 130. -/
def State.hostError (s : State) (port : Port) (fn code addr : Nat) : State :=
  ((s.modFn port fn (fun f => { f with hostErr := true })).odAdd 0x6000 8 1).violate port fn code 0 addr

/-- A submission read fails: FETCHED stays and the next doorbell retries. -/
def State.slotsFail (s : State) (port : Port) (fn code : Nat) : State :=
  let f := s.fn port fn
  (s.modFn port fn (fun f =>
    { f with reading := none, blocked := true, retrying := dropFirst (fun u => u == HostReadUse.fetch fn) f.retrying })).hostError
    port fn code (f.sqBase + f.fetched % slotsLog f.sqSize * 128)

/-! ### The device control lock (R290) -/

/-- The lock is given to a holder for a lease of 10 s. -/
def State.grantLock (s : State) (holder : Nat) (peer : Nat × Nat) : State :=
  let s1 := if s.hub.lockHolder = 0 then s.odAdd 0x6000 0xA 1 else s
  ({ s1 with hub := { s1.hub with lockHolder := holder, lockPeer := peer, leaseWarned := false,
                                  leaseEnd := s.clkTime + 10000 * 1000 * cyclesPerUs } }).odSet 0x6000 0xC holder

/-- The lock becomes free. -/
def State.freeLock (s : State) : State :=
  ({ s with hub := { s.hub with lockHolder := 0, lockPeer := (0, 0) } }).odSet 0x6000 0xC 0

/-- Number of a PF as lock holder. -/
def pfHolder (port : Port) : Nat := 1 + portNum port

/-- LOCK_ACQUIRE (R290). DESIGN CHOICE, log 80. -/
def execLockAcquire (port : Port) (s : State) : Res :=
  guardRes (Instr.wf (.lockAcquire port))
    (if s.hub.lockHolder = 0 ∨ s.hub.lockHolder = pfHolder port then
       (s.grantLock (pfHolder port) (0, 0)).modFn port 0 (fun f => { f with dclResult := 0 })
     else s.modFn port 0 (fun f => { f with dclResult := 0x0A03 }))

/-- LOCK_RELEASE (R290). -/
def execLockRelease (port : Port) (s : State) : Res :=
  guardRes (Instr.wf (.lockRelease port))
    (if s.hub.lockHolder = pfHolder port then s.freeLock.modFn port 0 (fun f => { f with dclResult := 0 })
     else s.modFn port 0 (fun f => { f with dclResult := 0x0A03 }))

/-- LEASE_WARNING (R290): 1 000 ms remain; vector 1 of the holding PF. -/
def execLeaseWarning (s : State) : Res :=
  guardRes (Instr.wf .leaseWarning)
    (if s.hub.lockHolder = 0 ∨ s.hub.leaseWarned = true then s
     else
       let s1 := { s with hub := { s.hub with leaseWarned := true } }
       if s.hub.lockHolder = 1 then s1.interrupt .a 0 1
       else if s.hub.lockHolder = 2 then s1.interrupt .b 0 1
       else s1)

/-- LEASE_EXPIRY (R290): the lock becomes free and the expiry is logged. -/
def execLeaseExpiry (s : State) : Res :=
  guardRes (Instr.wf .leaseExpiry)
    (if s.hub.lockHolder = 0 then s
     else (s.freeLock.odAdd 0x6000 0xB 1).log { rule := 290, sev := 1, data := [s.hub.lockHolder] })

/-- A lock operation by register write: 1 acquire or renew, 2 release, others ignored. -/
def State.dclWrite (s : State) (port : Port) (value : Nat) : State :=
  match value % 4 with
  | 1 =>
    if s.hub.lockHolder = 0 ∨ s.hub.lockHolder = pfHolder port then
      (s.grantLock (pfHolder port) (0, 0)).modFn port 0 (fun f => { f with dclResult := 0 })
    else s.modFn port 0 (fun f => { f with dclResult := 0x0A03 })
  | 2 =>
    if s.hub.lockHolder = pfHolder port then s.freeLock.modFn port 0 (fun f => { f with dclResult := 0 })
    else s.modFn port 0 (fun f => { f with dclResult := 0x0A03 })
  | _ => s

/-! ### Bus mastering, power states, violations, link -/

/-- BUS_MASTER_DISABLE (R292): with rings enabled the case is counted and logged; they resume when it is set. -/
def execBusMasterDisable (port : Port) (fn : Nat) (set : Bool) (s : State) : Res :=
  guardRes (Instr.wf (.busMasterDisable port fn set))
    (let s1 := s.modFn port fn (fun f => { f with busMaster := set })
     if set then s1.pumpRecords port fn
     else if (s.fn port fn).en && (s.fn port fn).busMaster then s1.violate port fn 0x0A0A 0 0
     else s1)

/-- D3HOT_ENTRY (R293): the function's rings stop and its records are held. -/
def execD3hotEntry (port : Port) (fn : Nat) (s : State) : Res :=
  guardRes (Instr.wf (.d3hotEntry port fn)) (s.modFn port fn (fun f => { f with d3hot := true }))

/-- D0_ENTRY (R293): the rings resume. -/
def execD0Entry (port : Port) (fn : Nat) (s : State) : Res :=
  guardRes (Instr.wf (.d0Entry port fn)) ((s.modFn port fn (fun f => { f with d3hot := false })).pumpRecords port fn)

/-- BAR_ACCESS_VIOLATION (R282, R292, R294): the access is dropped, or reads 0; on an unbound VF it is that which counts. A
malformed TLP is discarded with its AER error. DESIGN CHOICE, log 74. -/
def execBarAccessViolation (port : Port) (fn : Nat) (kind : BarMisuse) (offset value : Nat) (s : State) : Res :=
  guardRes (Instr.wf (.barAccessViolation port fn kind offset value))
    (let unbound := fn != 0 && !s.bound port fn
     match kind with
     | .unboundVf => if unbound then s.violate port fn 0x0A04 value offset else s
     | .badSize => s.violate port fn (if unbound then 0x0A04 else 0x0A09) value offset
     | .poisonedWrite =>
       (s.modFn port fn (fun f => { f with aer := setBit f.aer 12 true })).violate port fn
         (if unbound then 0x0A04 else 0x0A09) value offset
     | .malformedTlp => s.aerError port fn 18)

/-- IDE_STREAM_FAILURE (R291): the stream leaves the secure state; the VF's rings stop. -/
def State.ideFail (s : State) (port : Port) (fn : Nat) : State :=
  if (s.fn port fn).ideSet.isNone then s
  else
    ((s.modFn port fn (fun f => { f with ideSet := none, ideErr := true, ideBroken := true })).odAdd 0x6000 9 1).interrupt port fn 2

/-- PCIE_LINK_UP (R280, R284): a partner without flit mode leaves the link down; a degraded link is logged and served. The
PF's vector of port events is signalled. DESIGN CHOICE, log 79. -/
def execPcieLinkUp (port : Port) (flitMode : Bool) (rate width : Nat) (s : State) : Res :=
  guardRes true
    (if !flitMode then s.odSet 0x6000 (4 + portNum port) 0
     else
       let s1 := (s.odSet 0x6000 (4 + portNum port) (width % 256 * 256 + rate % 256)).interrupt port 0 2
       if rate < 64 ∨ width < 16 then s1.log { rule := 280, sev := 1, source := 4 + portNum port, data := [portNum port, rate, width] }
       else s1)

/-- The host reads of a VF that are in progress, by the register that holds them, are given up. -/
def State.dropReads (s : State) (port : Port) (fn : Nat) : State :=
  s.modFn port fn (fun f => { f with reading := none, retrying := [] })

end Sys2Proof.Machine
end

