-- ==== Sys2Proof/Machine/ServeOps.lean ====
section
/-!
DEFINITION. Shared operations of request serving and of the key-value cache: requests, their end and their records
(R246–R250, R254), the stack regions and page frames of a partition (R139, R220).
-/

namespace Sys2Proof.Machine

/-! ### Requests -/

/-- A held request changed. -/
def State.modReq (s : State) (p r : Nat) (f : Request → Request) : State :=
  match mfind (s.part p).reqs r with
  | none => s
  | some x => s.modPart p (fun P => { P with reqs := mput P.reqs r (f x) })

/-- A held request. -/
def State.req (s : State) (p r : Nat) : Option Request := mfind (s.part p).reqs r

/-- The end of a request is decided (R246): it is ENDING with a STATUS, REASON and DETAIL. -/
def State.endRequest (s : State) (p r status reason detail : Nat) : State :=
  s.modReq p r (fun x =>
    if x.st = .ending then x else { x with st := .ending, fin := some (status, reason, detail) })

/-! ### Stack regions (Table 5.13) -/

/-- Size of a region in extents: 0 model store, 1 KV warm tier, 2 prefix tree, 3 request state. -/
def State.regionExtents (s : State) (p r : Nat) : Nat := mget 0 s.stk.regions (p * 4 + r)

/-- First byte of a region. -/
def State.regionBase (s : State) (p r : Nat) : Nat :=
  ((List.range r).map (fun i => s.regionExtents p i)).sum * 2 ^ 28

/-- Bytes of a region. -/
def State.regionSize (s : State) (p r : Nat) : Nat := 2 ^ 28 * s.regionExtents p r

/-! ### Pages and frames (R212, R220) -/

/-- Page size of a model (R212). -/
def pageSize (m : Manifest) : Nat := 64 * 2 * m.kvh * m.hd * m.kvBits / 8

/-- Page frames of the warm tier. -/
def State.frameTotal (s : State) (p : Nat) : Nat :=
  let z := pageSize (s.part p).manifest
  if z = 0 then 0 else s.regionSize p 1 / z

/-- Frames in use. -/
def framesUsed (P : Partition) : List Nat := P.reqs.flatMap (fun e => e.2.frames)

/-- Frames free (OD 0x5101.01). -/
def State.framesFree (s : State) (p : Nat) : Nat := s.frameTotal p - (framesUsed (s.part p)).length

/-- The lowest free frames. -/
def State.takeFrames (s : State) (p n : Nat) : List Nat :=
  let used := framesUsed (s.part p)
  ((List.range (s.frameTotal p)).filter (fun i => !used.contains i)).take n

/-- Partition stack address of a frame. -/
def State.frameAddr (s : State) (p f : Nat) : Nat := s.regionBase p 1 + f * pageSize (s.part p).manifest

/-- Pages of a context limit in one layer (R219). -/
def npMax (ctxE : Nat) : Nat := ceilDiv ctxE 64

/-- The entries that count what a partition holds: requests, frames, prefix nodes. -/
def State.countServing (s : State) (p : Nat) : State :=
  ((s.countHeld p).odSetP 0x5101 1 p (s.framesFree p)).odSetP 0x5100 0xC p (s.part p).nodes.length

/-! ### Records (R248–R250) -/

/-- A completion record (Table 9.6). -/
def completion (tag req reason status detail generated reused endAt submitAt empties : Nat) : List Byte :=
  leBytes 8 tag ++ leBytes 2 req ++ leBytes 1 2 ++ leBytes 1 reason ++ leBytes 2 status ++ leBytes 2 detail ++
    leBytes 4 generated ++ leBytes 4 reused ++ leBytes 8 endAt ++ leBytes 8 submitAt ++ leBytes 4 empties ++ leBytes 20 0

/-- The completion record of a cancel or of a refused submission: REQ 0xFFFF. DESIGN CHOICE, log 66. -/
def State.answer (s : State) (p tag status detail submitAt : Nat) : State :=
  s.postRecord p (completion tag 0xFFFF (if status = 0 then 0 else 3) status detail 0 0 s.clkTime submitAt 0)

/-- A token record (Table 9.5). -/
def tokenRecord (tag req flags token position logit time : Nat) : List Byte :=
  leBytes 8 tag ++ leBytes 2 req ++ leBytes 1 1 ++ leBytes 1 flags ++ leBytes 4 token ++ leBytes 4 position ++
    leBytes 4 logit ++ leBytes 8 time ++ leBytes 32 0

/-- A fault report (R250), reduced for a sealed partition. -/
def State.faultReport (s : State) (p : Nat) (rec32 : List Byte) : State :=
  let r := fitB rec32 32
  let shown :=
    if s.isSealed p then
      sliceB r 0 3 ++ leBytes 1 0 ++ sliceB r 4 4 ++ leBytes 8 0 ++ leBytes 4 0 ++ sliceB r 20 8 ++ leBytes 4 0
    else r
  s.postRecord p (leBytes 8 0 ++ leBytes 2 0xFFFF ++ leBytes 1 3 ++ leBytes 21 0 ++ shown)

/-- The message is a fault record of the partition at its fault sink (R183, R250). DESIGN CHOICE, log 142. -/
def State.isFaultAt (s : State) (t : TileId) (msg : List Byte) (p : Nat) : Bool :=
  let sink := s.odP 0x3501 4 p
  let l := (s.blobP 0x3501 3 p).getD []
  s.physical (bits sink 7 0) (bits sink 15 8) == t && (s.part p).program.isSome &&
    (List.range (l.length / 32)).any (fun i => sliceB l (32 * i) 32 == msg)

/-- MESSAGE_RECEIPT (R176): queued with its source; it waits at the port while 16 are queued. A fault record at the
partition's fault sink is reported to the host (R250). -/
def execMessageReceipt (t : TileId) (msg : List Byte) (srcX srcY : Nat) (s : State) : Res :=
  guardRes (Instr.wf (.messageReceipt t msg srcX srcY))
    (if 16 ≤ (s.tile t).cc.msgq.length then s
     else
       let s1 := s.queueMessage t msg srcX srcY
       match s.partOfTile t with
       | none => s1
       | some p => if rxTurn (s.tile t) (isMessage msg srcX srcY) && s.isFaultAt t msg p then s1.faultReport p msg else s1)

end Sys2Proof.Machine
end

