-- ==== Sys2Proof/Machine/Kv.lean ====
section
/-!
DEFINITION. Attention and the key-value cache (chapter 08: R205–R231): pages, the walk of the KV map, attention over the
tiles of a layer, the merge, and the prefix tree.
-/

namespace Sys2Proof.Machine

/-! ### Where pages lie -/

/-- Attention tiles of a stage in placement order (R216). -/
def attnTiles (P : Partition) (stage : Nat) : List TileId :=
  match P.program with
  | none => []
  | some g => (g.tiles.filter (fun e => e.2.1 == 2 && e.2.2 == stage)).map (fun e => e.1)

/-- Stages of a program: one more than its highest stage number. -/
def stageCount (P : Partition) : Nat :=
  match P.program with
  | none => 0
  | some g => ((g.tiles.filter (fun e => e.2.2 != 0xFFFF)).map (fun e => e.2.2 + 1)).foldl max 0

/-- Request cores of a program in placement order (R232). -/
def requestCores (P : Partition) : List TileId :=
  match P.program with
  | none => []
  | some g => (g.tiles.filter (fun e => e.2.1 == 3)).map (fun e => e.1)

/-- The request core that holds a request's entry: its local index modulo the number of request cores (R232). -/
def coreOf (P : Partition) (r : Nat) : Option TileId :=
  ((requestCores P).drop ((r - P.reqFirst) % max (requestCores P).length 1)).head?

/-- A core executes: it is neither halted nor stopped (R198). -/
def State.coreRuns (s : State) (t : Option TileId) : Bool :=
  match t with
  | none => false
  | some t => (s.tile t).cc.state == .running || (s.tile t).cc.state == .waiting

/-- The layer whose attention a stage runs. DESIGN CHOICE, log 58. -/
def layerOf (P : Partition) (stage : Nat) : Nat := stage % max P.manifest.layers 1

/-- Key of a KV map entry. -/
def kvKey (x : Request) (layer page : Nat) : Nat := layer * npMax x.ctxE + page

/-- A KV map entry. -/
def kvPage (x : Request) (layer page : Nat) : KvPage := mget {} x.kv (kvKey x layer page)

/-- A KV map entry changed. -/
def setKv (x : Request) (layer page : Nat) (f : KvPage → KvPage) : Request :=
  { x with kv := mmod {} x.kv (kvKey x layer page) f }

/-- Scratchpad offset of a page slot (R216). -/
def State.slotOffset (s : State) (p slot : Nat) : Nat :=
  Config.kvArea (s.odP 0x5200 6 p) + slot * pageSize (s.part p).manifest

/-- The slot group that a request's group has at a tile. -/
def slotOf (P : Partition) (tile req layer group : Nat) : Option Nat :=
  (P.slots.find? (fun u => u.tile == tile && u.req == req && u.layer == layer && u.group == group)).map (·.slot)

/-! ### The KV map in the request state region (R219, R235) -/

/-- Partition stack address of a request's entry; its prompt copy follows, then its KV map. -/
def State.entryAddr (s : State) (p r : Nat) : Nat :=
  s.regionBase p 3 + Config.requestAt p r % max (s.regionSize p 3 / 64) 1 * 64

/-- Bytes written in the request state region: a unit in error that is not replaced whole ends the request (R141,
R254). -/
def State.putRegion (s : State) (p r a : Nat) (bs : List Byte) : State :=
  if s.regionSize p 3 = 0 then s
  else
    let z := s.stackWrite p a bs []
    if z.2.2 = 0x0404 then z.1.failReq p r 0x0404 2 else z.1

/-- The 16 bytes of a KV map entry (Table 8.5). -/
def kvBytes (k : KvPage) : List Byte :=
  leBytes 1 (k.loc % 4 + 4 * b2n k.shared + 8 * b2n k.full + 16 * b2n k.inflight) ++ leBytes 1 0 ++ leBytes 2 k.slot ++
    leBytes 1 k.fill ++ leBytes 3 0 ++ leBytes 8 (k.stack % 2 ^ 44)

/-- A KV map entry written back. -/
def State.showPage (s : State) (p r layer page : Nat) : State :=
  match s.req p r with
  | none => s
  | some x =>
    s.putRegion p r (s.entryAddr p r + 256 + ceilDiv (4 * x.ctxE) 16 * 16 + 16 * kvKey x layer page)
      (kvBytes (kvPage x layer page))

/-- Every KV map entry of a request written back. -/
def State.showPages (s : State) (p r : Nat) : State :=
  match s.req p r with
  | none => s
  | some x =>
    s.forEach (List.range (s.part p).manifest.layers) (fun layer s =>
      s.forEach (List.range (npMax x.ctxE)) (fun n s => s.showPage p r layer n))

/-- A KV map entry changes and is written back. -/
def State.setPage (s : State) (p r layer page : Nat) (f : KvPage → KvPage) : State :=
  (s.modReq p r (fun x => setKv x layer page f)).showPage p r layer page

/-- Token IDs written to a request's prompt copy from a position on (R235). -/
def State.showIds (s : State) (p r position : Nat) (ids : List Nat) : State :=
  s.putRegion p r (s.entryAddr p r + 256 + 4 * position) (ids.flatMap (leBytes 4))

/-! ### View records (R217) -/

/-- The view record of a request and layer at a tile. -/
def viewOf (P : Partition) (tile req layer : Nat) : Option View :=
  P.views.find? (fun v => v.tile == tile && v.req == req && v.layer == layer)

/-- Positions written for a layer. -/
def layerLen (x : Request) (layer : Nat) : Nat :=
  (List.range (npMax x.ctxE)).foldl (fun m n =>
    if (kvPage x layer n).fill = 0 then m else 64 * n + (kvPage x layer n).fill) 0

/-- The 32 bytes of a view record (Table 8.4) whose slot list lies at an offset. -/
def viewBytes (m : Manifest) (v : View) (list : Nat) : List Byte :=
  leBytes 2 (v.req % 8192) ++ leBytes 2 v.groups.length ++ leBytes 2 v.need ++
    leBytes 1 (m.kvForm % 2 + 2 * b2n (m.kvBits == 8)) ++ leBytes 1 0 ++ leBytes 4 (v.len % 2 ^ 19) ++
    leBytes 4 (list % 2 ^ 21) ++ leBytes 16 0

/-- A view record with its slot list, written in the tile's scratchpad with the length that the KV map gives. -/
def State.showView (s : State) (p r layer : Nat) (t : TileId) : State :=
  match s.req p r with
  | none => s
  | some x =>
    let n := layerLen x layer
    let s1 := s.modPart p (fun P => { P with views := P.views.map (fun v =>
      if v.tile = tkey t ∧ v.req = r ∧ v.layer = layer then { v with len := n } else v) })
    match viewOf (s1.part p) (tkey t) r layer with
    | none => s1
    | some v =>
      let gen := s.odP 0x5200 6 p
      let list := Config.slotListAt gen r layer % 65472 * 32
      s1.modSp t (fun q =>
        spWrite (spWrite q (Config.viewAt gen r layer % 65536 * 32) (enabled (viewBytes (s.part p).manifest v list))) list
          (enabled (v.groups.flatMap (fun g => leBytes 2 g.2))))

/-! ### Mover descriptors (R221) -/

/-- A page copy as a mover descriptor. -/
def pageDesc (src dst len : Nat) (fence : Bool) : List Byte :=
  leBytes 1 0x20 ++ leBytes 1 (1 + 8 * b2n fence) ++ leBytes 2 0 ++ leBytes 4 len ++ leBytes 8 src ++ leBytes 8 dst ++
    leBytes 8 0

/-- Put a descriptor into channel 2 of a tile: the state and TAIL after it; none while the ring is full. -/
def State.pushDesc (s : State) (t : TileId) (b : List Byte) : Option (State × Nat) :=
  let m := s.mover t 2
  if ringSlots m ≤ guardedCount m then none
  else
    let s1 := s.modSp t (fun q => spWrite q (slotAddr m m.tail) (enabled b))
    let tail := (m.tail + 1) % 65536
    some (s1.writeMvTail t 2 tail, tail)

/-- DONE has reached a count (R218 step 2). -/
def reached (done need : Nat) : Bool := decide ((done + 65536 - need) % 65536 < 32768)

/-- Status with which the descriptor before a count was written back. -/
def State.descStatus (s : State) (t : TileId) (due : Nat) : Nat :=
  fieldN (spRead (s.tile t).sp (slotAddr (s.mover t 2) (due + 65535)) 32) 28 2

/-- The prefix node that a request's group is of. -/
def groupNode (x : Request) (group : Nat) : Option Nat := (x.nodes.drop group).head?

/-- The group is of a prefix node that has lost a page (R230). -/
def State.nodeLost (s : State) (p : Nat) (x : Request) (layer group : Nat) : Bool :=
  (kvPage x layer (4 * group)).shared &&
    ((groupNode x group).bind (mfind (s.part p).nodes)).any (fun n => n.lost)

/-- A lost page (R230): counted once, its prefix node lost and unreachable, and the request ended with 0x0404 at the next
step boundary. DESIGN CHOICE, log 62. -/
def State.losePage (s : State) (p r layer page : Nat) : State :=
  match s.req p r with
  | none => s
  | some x =>
    if s.nodeLost p x layer (page / 4) then s.failReq p r 0x0404 1
    else
      let s1 := s.odAdd 0x5100 0xB 1
      let s2 := if (kvPage x layer page).shared then
          s1.modPart p (fun P => { P with nodes := P.nodes.map (fun e =>
            if groupNode x (page / 4) = some e.1 then (e.1, { e.2 with unreachable := true, lost := true }) else e) })
        else s1
      s2.failReq p r 0x0404 1

/-- A page whose descriptor has been written back (R221, R222, R230). -/
def State.settlePage (s : State) (p r layer page : Nat) (t : TileId) : State :=
  match s.req p r with
  | none => s
  | some x =>
    let k := kvPage x layer page
    if !k.inflight || !reached (s.mover t 2).done k.due then s
    else
      let status := s.descStatus t k.due
      let here := (slotOf (s.part p) (tkey t) r layer (page / 4)).isSome
      let done := fun loc : Nat => fun k : KvPage => { k with inflight := false, spill := false, loc := loc }
      if k.spill then
        if status = 0 then (s.odAdd 0x5100 8 1).setPage p r layer page (done (if here then 3 else 2))
        else s.setPage p r layer page (done 1)
      else if status = 0 then (s.odAdd 0x5100 7 1).setPage p r layer page (done (if here then 3 else 2))
      else
        let s1 := s.setPage p r layer page (done 2)
        if status = 0x0404 then s1.losePage p r layer page else s1

/-- Every page of a request's layer settled. -/
def State.settleLayer (s : State) (p r stage : Nat) : State :=
  match s.req p r with
  | none => s
  | some x =>
    let ts := attnTiles (s.part p) stage
    let layer := layerOf (s.part p) stage
    if ts.isEmpty then s
    else
      s.forEach (List.range (npMax x.ctxE)) (fun n s =>
        match ts.drop (n / 4 % ts.length) with
        | [] => s
        | t :: _ => s.settlePage p r layer n t)

/-- Settle every layer of a request. -/
def State.settleRequest (s : State) (p r : Nat) : State :=
  match (s.part p).program with
  | none => s.modReq p r (fun x => { x with kv := x.kv.map (fun e => (e.1, { e.2 with inflight := false })) })
  | some g => s.forEach ((g.tiles.map (fun e => e.2.2)).eraseDups) (fun st s => s.settleLayer p r st)

/-! ### Slot groups and victims (R222) -/

/-- Stage of a tile of the program. -/
def stageOf (P : Partition) (tile : Nat) : Nat :=
  match P.program with
  | none => 0
  | some g => ((g.tiles.find? (fun e => tkey e.1 == tile)).map (fun e => e.2.2)).getD 0

/-- A view of a token within LEAD stages of the layer lists the slot group (R222). -/
def pinned (P : Partition) (lead : Nat) (u : SlotUse) : Bool :=
  P.slots.any (fun w => w.tile == u.tile && w.slot == u.slot && !w.leaving &&
    match mfind P.reqs w.req with
    | none => false
    | some x =>
      match x.stageAt with
      | none => false
      | some a => x.out != 0 &&
        decide ((stageOf P w.tile + stageCount P - a % max (stageCount P) 1) % max (stageCount P) 1 ≤ lead))

/-- The victim: the unpinned group least recently attended, ties to the lowest group number. -/
def victimOf (P : Partition) (lead tile : Nat) : Option SlotUse :=
  (P.slots.filter (fun u => u.tile == tile && !pinned P lead u)).foldl (fun best u =>
    match best with
    | none => some u
    | some b => if u.lastUse < b.lastUse ∨ (u.lastUse = b.lastUse ∧ u.group < b.group) then some u else some b) none

/-- Emit the copy of a page that only the scratchpad holds to its frame. -/
def State.spillPage (s : State) (p r layer page : Nat) (t : TileId) : State :=
  match s.req p r with
  | none => s
  | some x =>
    let k := kvPage x layer page
    if k.loc = 1 ∧ k.inflight = false ∧ k.shared = false then
      match s.pushDesc t (pageDesc (s.slotOffset p k.slot) (2 ^ 63 + k.stack) (pageSize (s.part p).manifest) false) with
      | none => s
      | some (s1, due) => s1.setPage p r layer page (fun k => { k with inflight := true, spill := true, due := due })
    else s

/-- Uses of a slot group. -/
def usesOf (P : Partition) (tile slot : Nat) : List SlotUse := P.slots.filter (fun u => u.tile == tile && u.slot == slot)

/-- Take a victim's slots out of the views, and emit the spill copies of its pages (R222). -/
def State.startEvict (s : State) (p : Nat) (t : TileId) (slot : Nat) : State :=
  let l := usesOf (s.part p) (tkey t) slot
  let s1 := s.forEach l (fun u s => s.forEach (List.range 4) (fun i s => s.spillPage p u.req u.layer (4 * u.group + i) t))
  let s2 := s1.modPart p (fun P =>
    { P with slots := P.slots.map (fun u => if u.tile = tkey t ∧ u.slot = slot then { u with leaving := true } else u),
             views := P.views.map (fun v =>
               if v.tile = tkey t then { v with groups := v.groups.filter (fun g => g.2 != slot) } else v) })
  s2.forEach l (fun u s => s.showView p u.req u.layer t)

/-- No page of a slot group is in the scratchpad only: its slots can be given away. -/
def State.evicted (s : State) (p tile slot : Nat) : Bool :=
  (usesOf (s.part p) tile slot).all (fun u =>
    match s.req p u.req with
    | none => true
    | some x => (List.range 4).all (fun i => (kvPage x u.layer (4 * u.group + i)).loc != 1))

/-- A slot group is free: its pages are in the stacks only. -/
def State.dropSlot (s : State) (p : Nat) (t : TileId) (slot : Nat) : State :=
  let l := usesOf (s.part p) (tkey t) slot
  let s1 := s.modPart p (fun P => { P with slots := P.slots.filter (fun u => !(u.tile == tkey t && u.slot == slot)) })
  s1.forEach l (fun u s => s.forEach (List.range 4) (fun i s =>
    match s.req p u.req with
    | none => s
    | some x =>
      if (kvPage x u.layer (4 * u.group + i)).loc = 3 then
        s.setPage p u.req u.layer (4 * u.group + i) (fun k => { k with loc := 2 })
      else s))

/-- The lowest free slot group of a tile. -/
def State.freeSlot (s : State) (p tile : Nat) : Option Nat :=
  let used := ((s.part p).slots.filter (fun u => u.tile == tile)).map (·.slot)
  ((List.range (Config.kvGroups (s.odP 0x5200 6 p))).map (4 * ·)).find? (fun g => !used.contains g)

/-- The groups of a view with one more, in ascending number. -/
def addGroup (l : List (Nat × Nat)) (e : Nat × Nat) : List (Nat × Nat) :=
  (l.filter (fun g => g.1 < e.1)) ++ [e] ++ (l.filter (fun g => e.1 < g.1))

/-- List a group in the view record of a request and layer at a tile (R217). -/
def listGroup (P : Partition) (tile req layer group slot : Nat) : Partition :=
  let mine := fun v : View => v.tile == tile && v.req == req && v.layer == layer
  let own := fun u : SlotUse => u.tile == tile && u.req == req && u.layer == layer && u.group == group
  let u : SlotUse := { tile := tile, slot := slot, req := req, layer := layer, group := group }
  { P with slots := if P.slots.any own then P.slots.map (fun u => if own u then { u with leaving := false } else u)
                    else P.slots ++ [u],
           views :=
             if P.views.any mine then
               P.views.map (fun v => if mine v then { v with groups := addGroup v.groups (group, slot) } else v)
             else P.views ++ [{ tile := tile, req := req, layer := layer, groups := [(group, slot)] }] }

/-- The slot group in which another request has the same shared group resident (R229), with that request. -/
def State.sharedSlot (s : State) (p r layer group tile : Nat) : Option SlotUse :=
  match s.req p r with
  | none => none
  | some x =>
    let mine := kvPage x layer (4 * group)
    if !mine.shared then none
    else (s.part p).slots.find? (fun u => u.tile == tile && u.layer == layer && u.group == group && !u.leaving &&
      match s.req p u.req with
      | none => false
      | some y => (kvPage y layer (4 * group)).shared && (kvPage y layer (4 * group)).stack == mine.stack)

/-- The pages of a shared group as another request has them. -/
def State.sharePlace (s : State) (p r layer group : Nat) (u : SlotUse) : State :=
  match s.req p u.req with
  | none => s
  | some y => s.forEach (List.range 4) (fun i s => s.setPage p r layer (4 * group + i) (fun _ => kvPage y layer (4 * group + i)))

/-- A slot group for a group of a request: one that it has, one that holds the same shared pages, a free one, or that of
a victim whose pages the stacks hold; the flag says that slots were taken from a victim. None while every group is
pinned or the victim's spill copies are on the way. DESIGN CHOICE, log 136. -/
def State.allocSlot (s : State) (p r layer group : Nat) (t : TileId) : State × Option (Nat × Bool) :=
  let k := tkey t
  let take := fun (s : State) (slot : Nat) => s.modPart p (fun P => listGroup P k r layer group slot)
  match slotOf (s.part p) k r layer group with
  | some slot => (take s slot, some (slot, false))
  | none =>
    match s.sharedSlot p r layer group k with
    | some u => ((take s u.slot).sharePlace p r layer group u, some (u.slot, false))
    | none =>
      match s.freeSlot p k with
      | some slot => (take s slot, some (slot, false))
      | none =>
        let gone := (s.part p).slots.find? (fun u => u.tile == k && u.leaving)
        match (if gone.isSome then gone else victimOf (s.part p) (s.odEff 0x5100 2 p) k) with
        | none => (s, none)
        | some u =>
          let s1 := s.forEach (List.range 4) (fun i s => s.settlePage p u.req u.layer (4 * u.group + i) t)
          let s2 := s1.startEvict p t u.slot
          if s2.evicted p k u.slot then (take (s2.dropSlot p t u.slot) u.slot, some (u.slot, true)) else (s2, none)

/-! ### The walk (R221, R223) -/

/-- Set NEED of a view. -/
def setNeed (P : Partition) (tile req layer need : Nat) : Partition :=
  { P with views := P.views.map (fun v =>
      if v.tile = tile ∧ v.req = req ∧ v.layer = layer then { v with need := need } else v) }

/-- Emit the copies that bring a group's pages from page i on into its slots, the first one with FENCE where slots came
from a victim (R222): whether all are emitted. -/
def State.fetchPages (s : State) (p r layer group slot : Nat) (t : TileId) (fence : Bool) (i n : Nat) : State × Bool :=
  match n with
  | 0 => (s, true)
  | n + 1 =>
    let page := 4 * group + i
    let k := (s.req p r).elim {} (fun x => kvPage x layer page)
    if k.loc ≠ 2 ∨ k.fill = 0 ∨ k.inflight = true then s.fetchPages p r layer group slot t fence (i + 1) n
    else
      match s.pushDesc t (pageDesc (2 ^ 63 + k.stack) (s.slotOffset p (slot + i)) (pageSize (s.part p).manifest) fence) with
      | none => (s, false)
      | some (s1, due) =>
        let s2 := s1.setPage p r layer page (fun k => { k with inflight := true, due := due, slot := slot + i })
        (s2.modPart p (fun P => setNeed P (tkey t) r layer due)).fetchPages p r layer group slot t false (i + 1) n

/-- Note whether a group of a walk is still to be brought in. -/
def noteWalk (P : Partition) (d : WalkDue) (due : Bool) : Partition :=
  { P with walkDue := if due then (if P.walkDue.contains d then P.walkDue else P.walkDue ++ [d])
                      else P.walkDue.filter (· != d) }

/-- Walk one group: a holder of a lost node ends (R230); else its slots and copies, or a retry (R222). -/
def State.walkGroup (s : State) (p r layer group : Nat) (t : TileId) : State :=
  let d : WalkDue := { tile := tkey t, req := r, layer := layer, group := group }
  if (s.req p r).any (fun x => s.nodeLost p x layer group) then s.failReq p r 0x0404 1
  else
    let z := s.allocSlot p r layer group t
    let w := match z.2 with
      | none => (z.1, false)
      | some e => z.1.fetchPages p r layer group e.1 t e.2 0 4
    (w.1.modPart p (fun P => noteWalk P d (!w.2))).showView p r layer t

/-- The walks that wait at a tile go on at its token boundary (R222). -/
def State.retryWalks (s : State) (t : TileId) : State :=
  match s.partOfTile t with
  | none => s
  | some p =>
    s.forEach ((s.part p).walkDue.filter (fun d => d.tile == tkey t)) (fun d s => s.walkGroup p d.req d.layer d.group t)

/-- TOKEN_BOUNDARY (R31, R222): what waits in the tile for the boundary, then the walks that wait for it. -/
def execTokenBoundary (t : TileId) (s : State) : Res :=
  guardRes (Instr.wf (.tokenBoundary t))
    (if s.boundaryWaits t then s else (s.tokenBoundary t).retryWalks t)

/-- A group of the layer is to be resident: a page of it is in the stack only, or it is to take new positions, or a node
that it is of is lost. -/
def groupDue (x : Request) (layer group top : Nat) : Bool :=
  let l := (List.range 4).map (fun i => kvPage x layer (4 * group + i))
  l.any (fun k => k.loc == 2 && k.fill != 0) || (group == top && l.any (fun k => k.loc == 0)) || l.any (fun k => k.shared)

/-- A page is complete: full, or in interleaved form both pages of its pair are (R215). -/
def pageComplete (m : Manifest) (x : Request) (layer page : Nat) : Bool :=
  (kvPage x layer page).full &&
    (m.kvForm == 0 || (kvPage x layer (if page % 2 = 0 then page + 1 else page - 1)).full)

/-- The highest position that a request writes next. -/
def topPosition (x : Request) : Nat :=
  if x.st = .prefill ∨ x.st = .waiting ∨ x.st = .admitting then x.promptLen - 1 else x.promptLen + x.generated - 1

/-- The walk of one stage for a request whose highest position is `top`: its groups brought in (R221), and its complete
pages copied out where OD 0x5100.03 is 1 (R223). -/
def State.walkStage (s : State) (p r stage top : Nat) : State :=
  match s.req p r with
  | none => s
  | some x =>
    let ts := attnTiles (s.part p) stage
    let layer := layerOf (s.part p) stage
    let s1 := s.forEach (List.range (min (top / 256) (npMax x.ctxE / 4) + 1)) (fun g s =>
      match ts.drop (g % max ts.length 1), s.req p r with
      | t :: _, some x => if groupDue x layer g (top / 256) then s.walkGroup p r layer g t else s
      | _, _ => s)
    if s.odEff 0x5100 3 p = 1 then
      s1.forEach (List.range (npMax x.ctxE)) (fun n s =>
        match ts.drop (n / 4 % max ts.length 1), s.req p r with
        | t :: _, some x => if pageComplete (s.part p).manifest x layer n then s.spillPage p r layer n t else s
        | _, _ => s)
    else s1

/-- KV_WALK (R221): a token of the request enters a stage, and its request core walks the stage LEAD further on, which
wraps to the first stages for the next token. -/
def execKvWalk (part req stage : Nat) (s : State) : Res :=
  guardRes (Instr.wf (.kvWalk part req stage))
    (let n := stageCount (s.part part)
     let at0 := stage + s.odEff 0x5100 2 part
     if n ≤ stage ∨ s.coreRuns (coreOf (s.part part) req) = false then s
     else
       let s1 := (s.modReq part req (fun x => { x with stageAt := some stage })).settleLayer part req (at0 % n)
       match s1.req part req with
       | none => s1
       | some x =>
         if x.st = .ending ∨ x.endDue.isSome = true then s1
         else s1.walkStage part req (at0 % n) (topPosition x + at0 / n))

/-! ### Scales and codes (R206, R207) -/

/-- Scales of the blocks of a KV head in a layer, for keys and for values (R206, R262): 1.0 without a KVSCALE section. A
unit in error ends the request (R277). -/
def State.kvScales (s : State) (p r layer head : Nat) : State × List (Word × Word) :=
  let n := (s.part p).manifest.hd / 32
  match (s.placeSections p).find? (fun e => e.2.typ == 0x0104) with
  | none => (s, List.replicate n (oneW, oneW))
  | some e =>
    let z := s.programRead p (e.1 + 8 * n * (layer * (s.part p).manifest.kvh + head)) (8 * n) []
    (if z.2.2 = 0x0404 then z.1.failReq p r 0x0404 2 else z.1,
      (List.range n).map (fun i => (BitVec.ofNat 32 (fieldN z.2.1 (8 * i) 4), BitVec.ofNat 32 (fieldN z.2.1 (8 * i + 4) 4))))

/-- round_half_even(x / scale); where the quotient is no finite number its code is free. DESIGN CHOICE, log 137. -/
def scaledCode (x scale : Word) : Int := (fpToInt (fpDiv (fpOf x) (fpOf scale))).getD (Config.openCode x scale)

/-- rsqrt(HD) as an FP32 word. DESIGN CHOICE, log 137. -/
def rsqrtHd (hd : Nat) : Word := if hd = 64 then 0x3E000000 else if hd = 256 then 0x3D800000 else 0x3DB504F3

/-- The codes qc and the scale s_Q of a query vector, the key scales and the score scaling folded in (R207). -/
def foldQuery (hd : Nat) (sK : List Word) (q : List Word) : List Int × Word :=
  let scaled := q.mapIdx (fun d x =>
    fp32 (fpMul (fpMul (fpOf x) (fpOf ((sK.drop (d / 32)).headD oneW))) (fpOf (rsqrtHd hd))))
  let top := scaled.foldl (fun m x => maxW m (x &&& 0x7FFFFFFF)) 0
  let sQ := if top = 0 then oneW else divW top (fp32 (fpInt 127))
  (scaled.map (fun x => clampI (-127) 127 (scaledCode x sQ)), sQ)

/-! ### Attention at a tile (R208, R209, R215, R218) -/

/-- The tile is the one of its stage that holds the group of a position (R216). -/
def holdsGroup (P : Partition) (stage : Nat) (t : TileId) (position : Nat) : Bool :=
  let ts := attnTiles P stage
  (ts.drop (position / 256 % max ts.length 1)).head? == some t

/-- The token context that a tile holds is that of a token (R218, R245): request, position and MASK_LO. -/
def ctxCarries (c : List Byte) (req position maskLo : Nat) : Bool :=
  !c.isEmpty && ctxReq c == req && fieldN c 12 4 % 2 ^ 18 == maskLo && decide (fieldN c 4 4 % 2 ^ 18 ≤ position) &&
    decide (position < fieldN c 4 4 % 2 ^ 18 + fieldN c 8 4 % 2 ^ 18)

/-- The pages that a token needs at a tile are on their way no longer (R218 step 2, R222): NEED is reached, no walk of its
layer waits, and the tail group has its slots where the tile holds it. -/
def State.pagesHere (s : State) (p : Nat) (t : TileId) (req layer position : Nat) : Bool :=
  ((viewOf (s.part p) (tkey t) req layer).map (fun v => reached (s.mover t 2).done v.need)).getD true &&
    !(s.part p).walkDue.any (fun d => d.tile == tkey t && d.req == req && d.layer == layer) &&
    (!holdsGroup (s.part p) (s.tile t).cc.stage t position ||
      (slotOf (s.part p) (tkey t) req layer (position / 256)).isSome)

/-- The groups that a token attends to at a tile are marked with the time (R222). -/
def markUse (P : Partition) (tile req layer now : Nat) : Partition :=
  let mine := (P.slots.filter (fun u => u.tile == tile && u.req == req && u.layer == layer)).map (·.slot)
  { P with slots := P.slots.map (fun u => if u.tile = tile ∧ mine.contains u.slot = true then { u with lastUse := now } else u) }

/-- ATTENTION_TOKEN (R218 steps 1 and 2): a token whose context the attention tile holds waits until its pages are there;
its wait is counted once. -/
def execAttentionToken (t : TileId) (req position maskLo cyclesWaited : Nat) (s : State) : Res :=
  guardRes (Instr.wf (.attentionToken t req position maskLo cyclesWaited))
    (match s.partOfTile t with
     | none => s
     | some p =>
       let layer := layerOf (s.part p) (s.tile t).cc.stage
       let ready := (s.tile t).cc.role == 2 && ctxCarries (s.tile t).ctx req position maskLo && s.pagesHere p t req layer position
       if !ready then s
       else
         let s1 :=
           if cyclesWaited = 0 then s
           else ((s.odAdd 0x5100 5 1).odAdd 0x5100 6 cyclesWaited).odAddP 0x5101 3 p 1
         let a : AttnToken := { tile := tkey t, req := req, position := position, maskLo := maskLo }
         (s1.settleLayer p req (s.tile t).cc.stage).modPart p (fun P =>
           { markUse P a.tile req layer s.clkTime with
             tokens := P.tokens.filter (fun b => !(b.tile == a.tile && b.req == a.req)) ++ [a] }))

/-- Scratchpad offset of the key row of a head at a position, from the first slot of its group (Tables 8.2, 8.3). -/
def keyOffset (m : Manifest) (head j : Nat) : Nat :=
  let page := j / 64 % 4
  let i := j % 64
  if m.kvForm = 0 then page * pageSize m + head * m.hd * 64 * m.kvBits / 8 + i * m.hd * m.kvBits / 8
  else page * pageSize m + i * (2 * m.kvh * 16 * m.kvBits) + head * 16 * m.kvBits

/-- Bit offset of the value element of a head, dimension and position, from the first slot of its group. -/
def valueBit (m : Manifest) (head d j : Nat) : Nat :=
  let page := j / 64 % 4
  if m.kvForm = 0 then
    8 * (page * pageSize m + m.kvh * m.hd * 8 * m.kvBits + head * m.hd * 8 * m.kvBits + d * 8 * m.kvBits) +
      j % 64 * m.kvBits
  else
    let even := page / 2 * 2
    8 * ((even + d / 64) * pageSize m + d % 64 * (2 * m.kvh * 16 * m.kvBits) + m.kvh * 16 * m.kvBits +
      head * 16 * m.kvBits) + j % 128 * m.kvBits

/-- A code of the model's width at a bit offset of a scratchpad. -/
def codeAt (q : Spad) (m : Manifest) (base bitOff : Nat) : Int :=
  let b := (mget 0 q.mem (base + bitOff / 8)).toNat
  signed m.kvBits (b / 2 ^ (bitOff % 8))

/-- Write a code at a bit offset. -/
def putCode (q : Spad) (m : Manifest) (base bitOff : Nat) (v : Int) : Spad :=
  let a := base + bitOff / 8
  let old := (mget 0 q.mem a).toNat
  let c := unsign m.kvBits v
  let new := old - old / 2 ^ (bitOff % 8) % 2 ^ m.kvBits * 2 ^ (bitOff % 8) + c * 2 ^ (bitOff % 8)
  { q with mem := mset 0 q.mem a (BitVec.ofNat 8 new) }

/-- The codes of an append (R206), clamped, with the number clamped. -/
def clampCodes (m : Manifest) (scales : List Word) (l : List Word) : List Int × Nat :=
  let lo : Int := -(2 ^ (m.kvBits - 1) : Int)
  let hi : Int := 2 ^ (m.kvBits - 1) - 1
  let c := l.mapIdx (fun d x => scaledCode x ((scales.drop (d / 32)).headD oneW))
  (c.map (clampI lo hi), (c.filter (fun v => clampI lo hi v != v)).length)

/-- A page has taken a position for every KV head. -/
def notePosition (position : Nat) (k : KvPage) : KvPage :=
  let f := max k.fill (position % 64 + 1)
  { k with loc := 1, fill := f, full := f == 64 }

/-- Append one head's key and value at a position of the tail group (R215): nothing without its slots or to a shared page
(R229). The page has the position once every KV head's rows are written. -/
def State.appendKv (s : State) (p r layer head : Nat) (a : AttnToken) (t : TileId) (scales : List (Word × Word))
    (keys values : List Word) : State :=
  match slotOf (s.part p) (tkey t) r layer (a.position / 256), s.req p r with
  | some slot, some x =>
    if (kvPage x layer (a.position / 64)).shared then s
    else
      let m := (s.part p).manifest
      let base := s.slotOffset p slot
      let k := clampCodes m (scales.map (·.1)) keys
      let v := clampCodes m (scales.map (·.2)) values
      let putKeys := fun q : Spad => (k.1.mapIdx (fun d c => (d, c))).foldl (fun q e =>
        putCode q m base (8 * keyOffset m head a.position + e.1 * m.kvBits) e.2) q
      let putVals := fun q : Spad => (v.1.mapIdx (fun d c => (d, c))).foldl (fun q e =>
        putCode q m base (valueBit m head e.1 a.position) e.2) q
      let heads := (head :: a.heads).eraseDups
      let s1 := ((s.modSp t (fun q => putVals (putKeys q))).odAdd 0x5100 9 (k.2 + v.2)).modPart p (fun P =>
        { P with tokens := P.tokens.map (fun b => if b = a then { b with heads := heads } else b) })
      if heads.length < m.kvh then s1
      else
        (s1.setPage p r layer (a.position / 64) (fun k =>
          { notePosition a.position k with slot := slot + a.position / 64 % 4 })).showView p r layer t
  | _, _ => s

/-- The admissible positions of a query among those of a view (R208): those written for the layer, and the token's own
once its rows for the head are written. -/
def admissible (x : Request) (v : View) (window maskLo position : Nat) (own : Bool) : List Nat :=
  (v.groups.flatMap (fun g => (List.range 256).map (fun i => 256 * g.1 + i))).filter (fun j =>
    decide (maskLo ≤ j) && decide (j ≤ position) &&
      (decide (j % 64 < (kvPage x v.layer (j / 64)).fill) || (own && j == position)) &&
      (window == 0 || decide (position < j + window)))

/-- The first slot of the group of a position in a view. -/
def slotFor (v : View) (j : Nat) : Nat := ((v.groups.find? (fun g => g.1 == j / 256)).map (·.2)).getD 0

/-- What a tile sends for one query head (R209, R218): m_t, C_t and V_t; −∞ and +0 over an empty set. -/
structure HeadSum where
  m : Word
  c : Nat
  v : List Int
  empty : Bool
deriving DecidableEq, Repr

/-- One query head at one tile over its admissible positions `js` (R209). -/
def State.headAt (s : State) (p : Nat) (t : TileId) (v : View) (kvHead : Nat) (js : List Nat) (q : List Int) (sq : Word) :
    HeadSum :=
  let m := (s.part p).manifest
  let sp := (s.tile t).sp
  let base := fun j => s.slotOffset p (slotFor v j)
  let score := fun j =>
    ((q.mapIdx (fun d x => x * codeAt sp m (base j) (8 * keyOffset m kvHead j + d * m.kvBits))).foldl (· + ·) 0 : Int)
  match js.map (fun j => (j, score j)) with
  | [] => { m := 0xFF800000, c := 0, v := List.replicate m.hd 0, empty := true }
  | e :: r =>
    let top := r.foldl (fun (a : Int) x => if a < x.2 then x.2 else a) e.2
    let c := (e :: r).map (fun x => (x.1, softmaxCode sq x.2 top))
    let vals := (List.range m.hd).map (fun d =>
      (c.map (fun x => (x.2 : Int) * codeAt sp m (base x.1) (valueBit m kvHead d x.1))).foldl (· + ·) 0)
    { m := fp32 (fpMul (fpOf sq) (fpInt top)), c := (c.map (fun x => x.2)).sum, v := vals, empty := false }

/-- The scratchpad ranges that the score and value streams of a head read. -/
def State.streamRangesOf (s : State) (p : Nat) (v : View) (kvHead : Nat) (js : List Nat) : List (Nat × Nat) :=
  let m := (s.part p).manifest
  js.flatMap (fun j =>
    let base := s.slotOffset p (slotFor v j)
    (base + keyOffset m kvHead j, m.hd * m.kvBits / 8) ::
      (List.range m.hd).map (fun d => (base + valueBit m kvHead d j / 8, 1)))

/-- A score or value stream meets an uncorrectable granule (R230): the request ends with 0x0403, and the slot groups that
hold it are freed. -/
def State.attentionFails (s : State) (p r layer : Nat) (t : TileId) (v : View) (kvHead : Nat) (js : List Nat) : State :=
  let bad := js.filter (fun j => (s.streamRangesOf p v kvHead [j]).any (fun e => !(badIn (s.tile t).sp e.1 e.2).isEmpty))
  let s1 := (s.meetRanges t 5 (s.streamRangesOf p v kvHead js)).failReq p r 0x0403 0
  (s1.forEach ((bad.map (slotFor v)).eraseDups) (fun slot s => (s.startEvict p t slot).modPart p (fun P =>
    { P with slots := P.slots.filter (fun u => !(u.tile == tkey t && u.slot == slot)) }))).showView p r layer t

/-- ATTENTION_RESUME (R218 steps 3 to 5): the append where the tile holds the tail group, then each query head of a KV
head's group over its admissible positions. The contributions are what the tile sends on the stage's routes, which the
program's own messages carry. DESIGN CHOICE, log 137. -/
def execAttentionResume (t : TileId) (req head : Nat) (queries : List (List (BitVec 32))) (newKey newValue : List (BitVec 32))
    (s : State) : Res :=
  guardRes (Instr.wf (.attentionResume t req head queries newKey newValue))
    (match s.partOfTile t with
     | none => s
     | some p =>
       match (s.part p).tokens.find? (fun a => a.tile == tkey t && a.req == req) with
       | none => s
       | some a =>
         let stage := (s.tile t).cc.stage
         let layer := layerOf (s.part p) stage
         let z := s.kvScales p req layer head
         let own := holdsGroup (s.part p) stage t a.position && !newKey.isEmpty
         let s1 := if own then z.1.appendKv p req layer head a t z.2 newKey newValue else z.1
         match s1.req p req with
         | none => s1
         | some x =>
           let window := ((s.part p).manifest.windows.drop layer).headD 0
           let v := (viewOf (s1.part p) (tkey t) req layer).getD { tile := tkey t, req := req, layer := layer }
           let js := admissible x v window a.maskLo a.position (own || a.heads.contains head)
           if (s1.streamRangesOf p v head js).any (fun e => !(badIn (s1.tile t).sp e.1 e.2).isEmpty) then
             s1.attentionFails p req layer t v head js
           else
             let one := fun (i : Nat) (q : List Word) =>
               let f := foldQuery (s.part p).manifest.hd (z.2.map (·.1)) q
               let h := s1.headAt p t v head js f.1 f.2
               ({ tile := tkey t, req := req, layer := layer, head := head * queries.length + i, kvHead := head,
                  m := h.m, c := h.c, v := h.v, empty := h.empty } : Contribution)
             let new := queries.mapIdx one
             s1.modPart p (fun P =>
               { P with contribs := P.contribs.filter (fun c =>
                   !(c.tile == tkey t && c.req == req && new.any (fun n => n.head == c.head))) ++ new }))

/-! ### The merge (R209, R211) -/

/-- Tiles of a merge tree, in its order. -/
def treeTiles : MergeTree → List TileId
  | .leaf t => [t]
  | .node l r => treeTiles l ++ treeTiles r

/-- A merge tree evaluated. -/
def treeFold {α : Type} (f : α → α → α) (g : TileId → α) : MergeTree → α
  | .leaf t => g t
  | .node l r => f (treeFold f g l) (treeFold f g r)

/-- o of R209 from the contributions `at0` of the tiles of a merge tree, with the value scale of each block of 32
dimensions: FP32 maximum on the way of ROP 4, FP32 sums on that of ROP 2. -/
def mergeHeads (hd : Nat) (tree : MergeTree) (at0 : TileId → Contribution) (scales : List Word) : List Word :=
  if (treeTiles tree).all (fun t => (at0 t).empty) then List.replicate hd 0
  else
    let top := treeFold maxW (fun t => (at0 t).m) tree
    let share := fun (v : TileId → Int) => treeFold addW (fun t =>
      if (at0 t).empty then 0 else mulW (expW (subW (at0 t).m top)) (fp32 (fpInt (v t)))) tree
    let total := share (fun t => (at0 t).c)
    (List.range hd).map (fun d =>
      mulW ((scales.drop (d / 32)).headD oneW) (divW (share (fun t => ((at0 t).v.drop d).headD 0)) total))

/-- The codes of a vector for a segment (R49): A4 or A8. -/
def requantise (l : List Word) (q : Requant) : List Nat :=
  l.map (fun w => (quantise (mulW w q.rcp) q.zero 0 (if q.a8 then 255 else 15)).1.toNat)

/-- ATTENTION_MERGE (R209, R211, R218): o of one query head at the merge root, requantised for the output projection,
once every attention tile of the stage has sent its contribution; until then it waits. -/
def execAttentionMerge (t : TileId) (req head : Nat) (tree : MergeTree) (out : Requant) (s : State) : Res :=
  guardRes (Instr.wf (.attentionMerge t req head tree out))
    (match s.partOfTile t with
     | none => s
     | some p =>
       let stage := (s.tile t).cc.stage
       let layer := layerOf (s.part p) stage
       let find := fun u : TileId => (s.part p).contribs.find? (fun c =>
         c.tile == tkey u && c.req == req && c.layer == layer && c.head == head)
       let ts := attnTiles (s.part p) stage
       match find (ts.headD t) with
       | none => s
       | some c0 =>
         if !(ts.all (fun u => (find u).isSome) && (treeTiles tree).all ts.contains && ts.all (treeTiles tree).contains &&
             (treeTiles tree).length == ts.length) then s
         else
           let z := s.kvScales p req layer c0.kvHead
           let at0 := fun u => (find u).getD c0
           let o := mergeHeads (s.part p).manifest.hd tree at0 (z.2.map (·.2))
           let x : Merged := { tile := tkey t, req := req, head := head, out := o, codes := requantise o out,
                               empty := (treeTiles tree).all (fun u => (at0 u).empty) }
           z.1.modPart p (fun P =>
             { P with merged := P.merged.filter (fun y => !(y.tile == tkey t && y.req == req && y.head == head)) ++ [x],
                      contribs := P.contribs.filter (fun c => !(c.req == req && c.layer == layer && c.head == head)) }))

/-! ### The prefix tree (R225–R229) -/

/-- A child list of a node, or of the root. -/
def childrenOf (P : Partition) (parent : Option Nat) : List Nat :=
  match parent with
  | none => P.roots
  | some n => ((mfind P.nodes n).map (fun x => x.children)).getD []

/-- mix of R225: lines 2 to 4 of R113. -/
def mixW (v : BitVec 64) : BitVec 64 :=
  let x1 := (v ^^^ (v >>> 30)) * 0xBF58476D1CE4E5B9
  let x2 := (x1 ^^^ (x1 >>> 27)) * 0x94D049BB133111EB
  x2 ^^^ (x2 >>> 31)

/-- KEY of a group's token IDs (R225). -/
def groupKey (ids : List Nat) : Nat :=
  ((ids.mapIdx (fun i t => (i, t))).foldl (fun (k : BitVec 64) e =>
    mixW (k ^^^ BitVec.ofNat 64 e.2 ^^^ (BitVec.ofNat 64 e.1 <<< 32))) 0).toNat

/-- The token IDs of a group. -/
def groupIds (ids : List Nat) (g : Nat) : List Nat := (ids.drop (256 * g)).take 256

/-- A node matches a group (R226, R227). -/
def nodeMatches (gen : Nat) (ids : List Nat) (n : PrefixNode) : Bool :=
  n.refcnt != 0xFFFFFFFF && n.key == groupKey ids && n.tokens == ids && n.complete && !n.unreachable && n.model == gen

/-- The child that matches a group. -/
def State.matchChild (s : State) (p : Nat) (parent : Option Nat) (ids : List Nat) : Option Nat :=
  (childrenOf (s.part p) parent).find? (fun n =>
    ((mfind (s.part p).nodes n).map (nodeMatches (s.odP 0x5200 6 p) ids)).getD false)

/-- The nodes that a prompt matches from depth g, at most n of them (R226). -/
def State.matchGroups (s : State) (p : Nat) (ids : List Nat) (parent : Option Nat) (g n : Nat) : List Nat :=
  match n with
  | 0 => []
  | n + 1 =>
    match s.matchChild p parent (groupIds ids g) with
    | none => []
    | some k => k :: s.matchGroups p ids (some k) (g + 1) n

/-! ### The region of the tree -/

/-- Bytes that one prefix node takes in its region: record, token block and pages. -/
def nodeBytes (m : Manifest) : Nat := 64 + 1024 + 4 * m.layers * pageSize m

/-- Nodes that the region holds beside its header. -/
def State.nodeMax (s : State) (p : Nat) : Nat := (s.regionSize p 2 - 1088) / nodeBytes (s.part p).manifest

/-- First 1 KiB unit of the region after its header and node records: the token blocks lie from there, the pages behind
them. DESIGN CHOICE, log 61. -/
def State.blockUnit (s : State) (p : Nat) : Nat := ceilDiv (64 + 64 * s.nodeMax p) 1024

/-- Partition stack address of a node's pages. -/
def State.nodePages (s : State) (p n : Nat) : Nat :=
  s.regionBase p 2 + 1024 * (s.blockUnit p + s.nodeMax p) + n * (4 * (s.part p).manifest.layers * pageSize (s.part p).manifest)

/-- Lowest prefix node number not in use. -/
def State.pickNode (s : State) (p : Nat) : Option Nat :=
  (List.range (s.nodeMax p)).find? (fun n => (mfind (s.part p).nodes n).isNone)

/-- The element that follows one in a list. -/
def nextIn (l : List Nat) (n : Nat) : Option Nat := ((l.dropWhile (· != n)).drop 1).head?

/-- A node index, or 0xFFFFFFFF. -/
def nodeRef (n : Option Nat) : Nat := n.getD 0xFFFFFFFF

/-- The 64 bytes of a node record (Table 8.6) whose token block is unit `block` and whose siblings these are. -/
def nodeRecord (x : PrefixNode) (n block : Nat) (siblings : List Nat) : List Byte :=
  leBytes 4 x.refcnt ++ leBytes 4 x.parent ++ leBytes 4 (nodeRef x.children.head?) ++ leBytes 4 (nodeRef (nextIn siblings n)) ++
    leBytes 8 x.key ++ leBytes 4 block ++ leBytes 2 x.depth ++
    leBytes 2 (1 + 2 * b2n x.complete + 4 * b2n x.unreachable) ++ leBytes 8 x.pages ++ leBytes 8 x.lastUse ++
    leBytes 4 x.model ++ leBytes 12 0

/-- The 64-byte header of the region (R225). -/
def State.treeHeader (s : State) (p : Nat) : List Byte :=
  leBytes 4 (nodeRef (s.part p).roots.head?) ++ leBytes 4 (s.part p).nodes.length ++ leBytes 4 (nodeRef (s.pickNode p)) ++
    leBytes 52 0

/-- Bytes of the prefix region that have changed are written. -/
def State.putTree (s : State) (p off : Nat) (bs : List Byte) : State :=
  let a := s.regionBase p 2 + off
  if s.regionSize p 2 = 0 ∨ s.stackBytes p a bs.length = bs then s else (s.stackWrite p a bs []).1

/-- A node's record, or zeros where it is free. -/
def State.showNode (s : State) (p n : Nat) : State :=
  s.putTree p (64 + 64 * n) (match mfind (s.part p).nodes n with
    | none => leBytes 64 0
    | some x =>
      nodeRecord x n (s.blockUnit p + n) (childrenOf (s.part p) (if x.parent = 0xFFFFFFFF then none else some x.parent)))

/-- The tree as its region holds it: the header, and every node record. -/
def State.showTree (s : State) (p : Nat) : State :=
  (s.putTree p 0 (s.treeHeader p)).forEach ((s.part p).nodes.map (·.1)) (fun n s => s.showNode p n)

/-! ### Nodes and references -/

/-- A node changed. -/
def State.modNode (s : State) (p n : Nat) (f : PrefixNode → PrefixNode) : State :=
  s.modPart p (fun P => { P with nodes := P.nodes.map (fun e => if e.1 = n then (e.1, f e.2) else e) })

/-- A node is taken out of the tree (R228, R229), counted; its record is zeroed. -/
def State.dropNode (s : State) (p n : Nat) : State :=
  let without := fun P : Partition =>
    { P with nodes := (mdel P.nodes n).map (fun e => (e.1, { e.2 with children := e.2.children.filter (· != n) })),
             roots := P.roots.filter (· != n) }
  (((s.modPart p without).odAdd 0x5100 0x10 1).showNode p n).showTree p

/-- A node that nothing holds and that is unreachable is freed (R229). -/
def State.reapNode (s : State) (p n : Nat) : State :=
  match mfind (s.part p).nodes n with
  | some x => if x.refcnt = 0 ∧ x.unreachable = true then s.dropNode p n else s
  | none => s

/-- Every node is made unreachable; those with no reference are freed (R229). -/
def State.prefixUnreachable (s : State) (p : Nat) : State :=
  let s1 := s.modPart p (fun P => { P with nodes := P.nodes.map (fun e => (e.1, { e.2 with unreachable := true })) })
  ((s1.forEach ((s1.part p).nodes.map (fun e => e.1)) (fun n s => s.reapNode p n)).showTree p).countServing p

/-- Release a request's references (R227). -/
def State.releaseNodes (s : State) (p : Nat) (l : List Nat) : State :=
  s.forEach l (fun n s => ((s.modNode p n (fun x => { x with refcnt := x.refcnt - 1 })).showNode p n).reapNode p n)

/-- Take a reference to a node that a group matches (R226, R227). -/
def State.holdNode (s : State) (p n : Nat) : State :=
  (s.modNode p n (fun x => { x with refcnt := x.refcnt + 1, lastUse := s.clkTime })).showNode p n

/-- Take the matched nodes into a request (R226): references, counts, and KV map entries of their pages. -/
def State.takeNodes (s : State) (p r : Nat) (l : List Nat) : State :=
  let m := (s.part p).manifest
  let s1 := s.forEach l (fun n s => s.holdNode p n)
  let s2 := s1.odAdd 0x5100 0xE l.length
  let pages := fun (x : Request) (g n : Nat) =>
    let base := ((mfind (s.part p).nodes n).map (·.pages)).getD 0
    (List.range m.layers).foldl (fun x layer => (List.range 4).foldl (fun x i =>
      setKv x layer (4 * g + i) (fun _ =>
        { loc := 2, shared := true, full := true, fill := 64, stack := base + (4 * layer + i) * pageSize m })) x) x
  s2.modReq p r (fun x =>
    let y := (l.mapIdx (fun g n => (g, n))).foldl (fun x e => pages x e.1 e.2) x
    { y with nodes := l, reused := 256 * l.length, preDone := 256 * l.length })

/-- The least recently used leaf without references. -/
def leafVictim (P : Partition) : Option Nat :=
  ((P.nodes.filter (fun e => e.2.refcnt == 0 && e.2.children.isEmpty)).foldl (fun best e =>
    match best with
    | none => some e
    | some b => if e.2.lastUse < b.2.lastUse then some e else some b) none).map (fun e => e.1)

/-- A free node index, after an eviction where the region is full. -/
def State.freeNode (s : State) (p : Nat) : Option (State × Nat) :=
  match s.pickNode p with
  | some n => some (s, n)
  | none =>
    match leafVictim (s.part p) with
    | none => none
    | some v => ((s.dropNode p v).pickNode p).map (fun n => (s.dropNode p v, n))

/-- A request's pages of a group become the node's (R228): shared, and its own frames for them are freed. -/
def State.sharePages (s : State) (p r group node : Nat) : State :=
  let m := (s.part p).manifest
  let base := ((mfind (s.part p).nodes node).map (·.pages)).getD 0
  let own := fun x : Request => (List.range m.layers).flatMap (fun layer => (List.range 4).map (fun i =>
    (kvPage x layer (4 * group + i)).stack))
  let share := fun x : Request =>
    (List.range m.layers).foldl (fun x layer => (List.range 4).foldl (fun x i =>
      setKv x layer (4 * group + i) (fun k =>
        { k with shared := true, loc := if k.loc = 1 then 3 else k.loc, stack := base + (4 * layer + i) * pageSize m })) x) x
  (s.modReq p r (fun x =>
    let freed := own x
    let y := share x
    { y with frames := x.frames.filter (fun f => !freed.contains (s.frameAddr p f)), nodes := x.nodes ++ [node] })).showPages p r

/-- Link a node at the head of its parent's child list. -/
def linkNode (P : Partition) (n : Nat) (parent : Option Nat) : Partition :=
  match parent with
  | none => { P with roots := n :: P.roots }
  | some k => { P with nodes := P.nodes.map (fun e => if e.1 = k then (e.1, { e.2 with children := n :: e.2.children }) else e) }

/-! ### Insertion (R228) -/

/-- The parent of a new node of a request: the node of its group before. -/
def parentOf (x : Request) (group : Nat) : Option Nat :=
  if group = 0 then none else (x.nodes.drop (group - 1)).head?

/-- The attention tile that holds a group of a layer (R216). -/
def holderOf (P : Partition) (layer group : Nat) : Option TileId :=
  let ts := attnTiles P layer
  (ts.drop (group % max ts.length 1)).head?

/-- A request's insertions changed: that of a group. -/
def State.modJob (s : State) (p r group : Nat) (f : PrefixJob → PrefixJob) : State :=
  s.modPart p (fun P => { P with jobs := P.jobs.map (fun j => if j.req = r ∧ j.group = group then f j else j) })

/-- The insertion of a request's group. -/
def State.jobOf (s : State) (p r group : Nat) : Option PrefixJob :=
  (s.part p).jobs.find? (fun j => j.req == r && j.group == group)

/-- The insertion of a group ends. -/
def State.endJob (s : State) (p r group : Nat) : State :=
  s.modPart p (fun P => { P with jobs := P.jobs.filter (fun j => !(j.req == r && j.group == group)) })

/-- Copies of an insertion that have been written back are taken in; one in error fails the insertion. -/
def State.settleJob (s : State) (p r group : Nat) : State :=
  s.forEach (((s.jobOf p r group).map (·.flying)).getD []) (fun c s =>
    let t := tileAt c.tile
    if reached (s.mover t 2).done c.due then
      let ok := s.descStatus t c.due == 0
      s.modJob p r group (fun j =>
        { j with flying := j.flying.filter (· != c), failed := j.failed || !ok, todo := if ok then j.todo else [] })
    else s)

/-- Copies of an insertion's pages are emitted, one descriptor per page on channel 2 of the page's tile (R228); a page in
flight or a full ring leaves the rest for later. -/
def State.sendPages (s : State) (p r group : Nat) (l : List (Nat × Nat)) : State :=
  match l with
  | [] => s
  | e :: rest =>
    match s.req p r, s.jobOf p r group, holderOf (s.part p) e.1 group with
    | some x, some j, some t =>
      let k := kvPage x e.1 (4 * group + e.2)
      let z := pageSize (s.part p).manifest
      let base := ((mfind (s.part p).nodes j.node).map (·.pages)).getD 0
      let src := if k.loc = 2 then 2 ^ 63 + k.stack else s.slotOffset p k.slot
      if k.inflight then s
      else
        match s.pushDesc t (pageDesc src (2 ^ 63 + base + (4 * e.1 + e.2) * z) z false) with
        | none => s
        | some (s1, due) =>
          (s1.modJob p r group (fun j =>
            { j with todo := rest, flying := j.flying ++ [{ tile := tkey t, layer := e.1, page := 4 * group + e.2, due := due }] })).sendPages
            p r group rest
    | _, _, _ => s

/-- An insertion whose copies have all been written back (R228): COMPLETE and linked, or an equal node taken in its place;
a failed one is dropped. -/
def State.finishJob (s : State) (p r group : Nat) : State :=
  match s.req p r, s.jobOf p r group with
  | some x, some j =>
    if j.todo ≠ [] ∨ j.flying ≠ [] then s
    else if j.failed then ((s.endJob p r group).dropNode p j.node).odAdd 0x5100 0x11 1
    else if (List.range (s.part p).manifest.layers).any (fun layer => (List.range 4).any (fun i =>
        (kvPage x layer (4 * group + i)).inflight)) then s
    else
      let up := parentOf x group
      let s1 := (s.endJob p r group).modNode p j.node (fun n => { n with complete := true })
      match s1.matchChild p up (groupIds x.ids group) with
      | some n => ((s1.dropNode p j.node).holdNode p n).sharePages p r group n
      | none => ((s1.modPart p (fun P => linkNode P j.node up)).showTree p).sharePages p r group j.node
  | _, _ => s

/-- The insertions of a request go on. -/
def State.pumpJobs (s : State) (p r : Nat) : State :=
  let mine := (s.part p).jobs.filter (fun j => j.req == r)
  if mine.isEmpty then s
  else
    (s.forEach mine (fun j s =>
      let s1 := s.settleJob p r j.group
      (s1.sendPages p r j.group (((s1.jobOf p r j.group).map (·.todo)).getD [])).finishJob p r j.group)).countServing p

/-- A node, its token block and its frames are allocated for a group (R228); its pages are still to be copied. -/
def State.newNode (s : State) (p r group n : Nat) (x : Request) : State :=
  let ids := groupIds x.ids group
  let node : PrefixNode :=
    { refcnt := 1, parent := nodeRef (parentOf x group), children := [], key := groupKey ids, tokens := ids, depth := group,
      complete := false, unreachable := false, pages := s.nodePages p n, lastUse := s.clkTime, model := s.odP 0x5200 6 p }
  let job : PrefixJob :=
    { req := r, group := group, node := n,
      todo := (List.range (s.part p).manifest.layers).flatMap (fun layer => (List.range 4).map (fun i => (layer, i))) }
  let s1 := s.modPart p (fun P => { P with nodes := mput P.nodes n node, jobs := P.jobs ++ [job] })
  ((s1.putTree p (1024 * (s1.blockUnit p + n)) (ids.flatMap (leBytes 4))).showNode p n).showTree p

/-- Prefill of the request has ended: its first token has been sampled, and nothing but that token's stop ended it. -/
def prefillEnded (x : Request) : Bool :=
  x.st == .decode || (x.st == .ending && x.generated != 0 && (x.fin.map (·.1)) == some 0)

/-- PREFIX_INSERT (R228): a full prompt group beyond the matched depth is offered once prefill has ended; an insertion
under way goes on. DESIGN CHOICE, log 60, 61. -/
def execPrefixInsert (part req group : Nat) (s : State) : Res :=
  guardRes (Instr.wf (.prefixInsert part req group))
    (let s0 := (s.settleRequest part req).pumpJobs part req
     match s0.req part req with
     | none => s0
     | some x =>
       if !prefillEnded x || x.recorded || s0.odEff 0x5100 4 part = 0 || group ≠ x.nodes.length ||
           x.promptLen < 256 * (group + 1) || (s0.jobOf part req group).isSome then s0
       else
         match s0.matchChild part (parentOf x group) (groupIds x.ids group) with
         | some n => ((s0.holdNode part n).sharePages part req group n).countServing part
         | none =>
           match s0.freeNode part with
           | none => s0.odAdd 0x5100 0x11 1
           | some (s1, n) => ((s1.newNode part req group n x).pumpJobs part req).countServing part)

/-! ### Freeing a request (R224, R246) -/

/-- Pages of a request that a descriptor is still moving. -/
def anyInflight (P : Partition) (r : Nat) (x : Request) : Bool :=
  x.kv.any (fun e => e.2.inflight) || P.jobs.any (fun j => j.req == r)

/-- Everything a request holds is released and its completion record formed, then those of its cancels (R249); the entry
is FREE once that record is written (R246). -/
def State.freeRequest (s : State) (p r : Nat) : State :=
  match s.req p r with
  | none => s
  | some x =>
    let fin := x.fin.getD (0, 0, 0)
    let s1 := s.releaseNodes p x.nodes
    let s2 := s1.forEach ((s1.part p).jobs.filter (fun j => j.req == r)) (fun j s => (s.endJob p r j.group).dropNode p j.node)
    let out := fun P : Partition =>
      { P with slots := P.slots.filter (fun u => u.req != r), views := P.views.filter (fun v => v.req != r),
               tokens := P.tokens.filter (fun a => a.req != r), contribs := P.contribs.filter (fun c => c.req != r),
               merged := P.merged.filter (fun c => c.req != r), walkDue := P.walkDue.filter (fun d => d.req != r) }
    let s3 := (s2.modPart p out).modReq p r (fun x => { x with recorded := true, kv := [], frames := [], nodes := [] })
    let s4 := s3.postRecord p (completion x.tag r fin.2.1 fin.1 fin.2.2 x.generated x.reused s.clkTime x.submitAt x.empties)
    (s4.forEach x.cancels (fun c s => s.answer p c.1 0 0 c.2)).countServing p

/-- REQUEST_FREE (R224): an ENDING request whose tokens have crossed the wafer and whose descriptors have been written
back. DEDUCED, log 72. -/
def execRequestFree (part req : Nat) (s : State) : Res :=
  guardRes (Instr.wf (.requestFree part req))
    (let s1 := (s.settleRequest part req).pumpJobs part req
     match s1.req part req with
     | none => s1
     | some x =>
       if x.st = .ending ∧ x.recorded = false ∧ x.out = 0 ∧ anyInflight (s1.part part) req x = false then
         s1.freeRequest part req
       else s1)

end Sys2Proof.Machine
end

