-- ==== Sys2Proof/Machine/Serving.lean ====
section
/-!
DEFINITION. Request serving (chapter 09: R232–R257): submissions and their admission, cancels, and the step boundary of
the lead core.
-/

namespace Sys2Proof.Machine

/-! ### Who serves -/

/-- The lead request core (R232): the first placement record with ROLE 3. -/
def leadCore (P : Partition) : Option TileId := (requestCores P).head?

/-- A program is released in the partition (Table 9.2 step 1). -/
def programReleased (P : Partition) : Bool :=
  match P.program with
  | none => false
  | some g => g.released

/-- A model swap is in progress: an install has reached step 6 of Table 10.7. -/
def swapping (P : Partition) : Bool :=
  match P.cmd with
  | .install _ _ _ _ _ st _ => decide (6 ≤ st)
  | _ => false

/-- The lead core executes: it is neither halted nor stopped (R198). -/
def State.leadRuns (s : State) (p : Nat) : Bool := s.coreRuns (leadCore (s.part p))

/-! ### Buckets and times (R240, R241) -/

/-- Positions of bucket b (R241). -/
def bucketSize (b : Nat) : Nat := 128 * 4 ^ b

/-- The smallest bucket that holds n positions, n at most 131 072. -/
def bucketOf (n : Nat) : Nat := ((List.range 6).find? (fun b => decide (n ≤ bucketSize b))).getD 5

/-- Buckets of the passes that n positions run in. -/
def passesOf (n : Nat) : List Nat :=
  List.replicate ((n - 1) / 131072) 5 ++ (if n = 0 then [] else [bucketOf (n - (n - 1) / 131072 * 131072)])

/-- Mean of a list. -/
def meanOf (l : List Nat) : Nat := l.sum / max l.length 1

/-- T_pre of a bucket in ns: measured, or as the manifest declares it. -/
def prefillNs (P : Partition) (b : Nat) : Nat :=
  match mget [] P.preTimes b with
  | [] => (P.manifest.tPre.drop b).headD 0 * 1000
  | l => meanOf l * 1000

/-- Tokens that a request generates at most (R240). -/
def tokenLimit (x : Request) : Nat := min x.maxNew (x.ctxE - x.promptLen)

/-- rem(r) in ns (R240). -/
def remNs (P : Partition) (x : Request) : Nat :=
  if x.st = .ending then 0
  else ((passesOf (x.promptLen - x.preDone)).map (prefillNs P)).sum + (tokenLimit x - x.generated) * meanOf P.periods

/-- The request is in PREFILL or DECODE. -/
def isActive (x : Request) : Bool := x.st == .prefill || x.st == .decode

/-- Requests in PREFILL or DECODE. -/
def activeReqs (P : Partition) : List (Nat × Request) := P.reqs.filter (fun e => isActive e.2)

/-- t_wait in ns (R240) for the new request r. DESIGN CHOICE, log 63. -/
def State.waitNs (s : State) (p r : Nat) : Nat :=
  let P := s.part p
  let most := s.odP 0x5000 4 p
  let w := (P.reqs.filter (fun e => e.2.st == .waiting)).length
  if (activeReqs P).length < most ∧ w = 0 then 0
  else if most = 1 then ((P.reqs.filter (fun e => e.1 != r)).map (fun e => remNs P e.2)).sum
  else
    let l := ((activeReqs P).map (fun e => remNs P e.2)).mergeSort
    match l.drop w with
    | t :: _ => t
    | [] => l.getLastD 0

/-- A deadline of the request cannot be met (R240), with the margin in force since the last step boundary (R257). -/
def State.lateFor (s : State) (p r : Nat) (x : Request) : Bool :=
  let P := s.part p
  let first := s.waitNs p r + ((passesOf (x.promptLen - x.preDone)).map (prefillNs P)).sum
  let last := first + (tokenLimit x - 1) * meanOf P.periods
  let k := 100 + P.margin.getD (s.odEff 0x5000 7 p)
  (x.ttft != 0 && decide (x.ttft * 100000 < k * first)) || (x.endDl != 0 && decide (x.endDl * 100000 < k * last))

/-! ### Admission (R234–R242) -/

/-- Bytes of a request in the request state region (R235). -/
def requestBytes (m : Manifest) (ctxE : Nat) : Nat := 256 + 4 * ctxE + 16 * m.layers * npMax ctxE

/-- A held request of the partition carries a TAG. -/
def byTag (P : Partition) (tag : Nat) : Option Nat := (P.reqs.find? (fun e => e.2.tag == tag)).map (fun e => e.1)

/-- A refusal of steps 6 to 9: references released, entry freed, one completion record. DESIGN CHOICE, log 68. -/
def State.refuseReq (s : State) (p r code detail : Nat) : State :=
  match s.req p r with
  | none => s
  | some x =>
    let s1 := (s.releaseNodes p x.nodes).modPart p (fun P => { P with reqs := mdel P.reqs r })
    let s2 := if code = 0x0102 then s1.odAdd 0x5000 0xC 1 else if code = 0x0103 then s1.odAdd 0x5000 0xD 1 else s1
    (s2.answer p x.tag code detail x.submitAt).countServing p

/-- Frames given to a request's pages that no prefix node supplies (R220), and the KV map that names them, written to its
place (R219). -/
def State.giveFrames (s : State) (p r : Nat) : State :=
  match s.req p r with
  | none => s
  | some x =>
    let m := (s.part p).manifest
    let own := (List.range m.layers).flatMap (fun layer =>
      ((List.range (npMax x.ctxE)).drop (4 * x.nodes.length)).map (fun n => (layer, n)))
    let fs := s.takeFrames p own.length
    (s.modReq p r (fun x => (own.zip fs).foldl (fun x e =>
      setKv x e.1.1 e.1.2 (fun k => { k with stack := s.frameAddr p e.2 })) { x with frames := fs })).showPages p r

/-- Steps 8 to 10 of Table 9.2. -/
def State.admitSpace (s : State) (p r : Nat) : State :=
  match s.req p r with
  | none => s
  | some x =>
    let P := s.part p
    let m := P.manifest
    let need := (npMax x.ctxE - 4 * x.nodes.length) * m.layers
    if s.regionSize p 3 < (P.reqs.map (fun e => requestBytes m e.2.ctxE)).sum ∨ s.framesFree p < need then
      s.refuseReq p r 0x0102 0
    else if s.lateFor p r x then s.refuseReq p r 0x0103 0
    else
      let s1 := (s.giveFrames p r).modReq p r (fun x => { x with st := .waiting, order := P.admitted })
      ((s1.modPart p (fun P => { P with admitted := P.admitted + 1 })).odAdd 0x5000 0xA 1).countServing p

/-- Step 7 of Table 9.2: the prefix match (R226), then the buckets (R242). DESIGN CHOICE, log 60. -/
def State.admitMatch (s : State) (p r : Nat) : State :=
  match s.req p r with
  | none => s
  | some x =>
    let n := (x.promptLen - 1) / 256
    let look := !x.noPrefix && s.odEff 0x5100 4 p != 0 && n != 0
    let l := if look then s.matchGroups p x.ids none 0 n else []
    let s1 := if look && l.isEmpty then s.odAdd 0x5100 0xF 1 else s.takeNodes p r l
    if (passesOf (x.promptLen - 256 * l.length)).all (fun b => bit (s.odP 0x5000 6 p) b) then s1.admitSpace p r
    else s1.refuseReq p r 0x0104 0

/-- The prompt of an ADMITTING request has been read (step 6 of Table 9.2). DESIGN CHOICE, log 68. -/
def State.promptIds (s : State) (p r : Nat) (ids : List Nat) : State :=
  match s.req p r with
  | none => s
  | some x =>
    if x.st ≠ .admitting ∨ ids.length < x.promptLen then s
    else if !programReleased (s.part p) || swapping (s.part p) then s.refuseReq p r 0x0106 0
    else
      let l := ids.take x.promptLen
      match findIdx (fun i => decide ((s.part p).manifest.vocab ≤ i)) l 0 with
      | some (i, _) => s.refuseReq p r 0x0105 (min i 0xFFFF)
      | none => ((s.modReq p r (fun x => { x with ids := l })).showIds p r 0 l).admitMatch p r

/-- The prompt read of an ADMITTING request has failed. -/
def State.promptFails (s : State) (p r code : Nat) : State :=
  match s.req p r with
  | none => s
  | some x => if x.st = .admitting then s.refuseReq p r code 0 else s

/-- Little-endian words of a byte string. -/
def idsOf (b : List Byte) (n : Nat) : List Nat := (List.range n).map (fun i => fieldN b (4 * i) 4)

/-- First byte and length of the whole aligned 64-byte units that cover a range (R287). -/
def coverUnits (addr len : Nat) : Nat × Nat := (addr / 64 * 64, ((addr + len + 63) / 64 - addr / 64) * 64)

/-- Code of a data-class host read that the VF of a partition cannot make now (R291, R292), or 0. -/
def State.hostReadBar (s : State) (p : Nat) : Nat :=
  if (s.vf p).ideSet.isNone && ((s.vf p).ideBroken || s.ideRequired p) then 0x0A06
  else if !(s.vf p).busMaster then 0x0A0A
  else 0

/-- The prompt read of a new request: from the partition's stack space, or from host memory. -/
def State.readPrompt (s : State) (p r : Nat) (x : Request) : State :=
  let len := 4 * x.promptLen
  if x.fromStack then
    let z := s.stackRead p x.promptAddr len []
    if z.2.2 = 0 then z.1.promptIds p r (idsOf z.2.1 x.promptLen) else z.1.promptFails p r z.2.2
  else if s.hostReadBar p ≠ 0 then s.promptFails p r (s.hostReadBar p)
  else
    let c := coverUnits x.promptAddr len
    s.emit (.hostRead (s.boundPort p) (p + 1) c.1 c.2 (.prompt p r))

/-- The request that a submit descriptor describes (Table 9.1). -/
def requestOf (d : List Byte) (now : Nat) : Request where
  st := .admitting
  tag := fieldN d 8 8
  noPrefix := bit (fieldN d 1 1) 1
  topk := fieldN d 2 1
  stops := (List.range (min (fieldN d 3 1 % 8) 4)).map (fun i => fieldN d (64 + 4 * i) 4)
  promptLen := fieldN d 4 4
  maxNew := fieldN d 24 4
  ctxE := if fieldN d 28 4 = 0 then fieldN d 4 4 + fieldN d 24 4 else fieldN d 28 4
  maskLo := fieldN d 32 4 % 2 ^ 18
  temp := BitVec.ofNat 32 (fieldN d 36 4)
  topp := BitVec.ofNat 32 (fieldN d 40 4)
  ttft := fieldN d 44 4
  endDl := fieldN d 48 4
  seed := fieldN d 56 8
  fromStack := bit (fieldN d 1 1) 0
  promptAddr := fieldN d 16 8
  submitAt := now

/-- A reserved bit of a submit descriptor is set, or a STOP entry at NSTOP or above. DESIGN CHOICE, log 67. -/
def submitReserved (d : List Byte) : Bool :=
  fieldN d 1 1 / 4 != 0 || fieldN d 3 1 / 8 != 0 || fieldN d 32 4 / 2 ^ 18 != 0 || !zeroRange d 52 4 ||
    !zeroRange d (64 + 4 * (fieldN d 3 1 % 8)) (16 - 4 * (fieldN d 3 1 % 8)) || !zeroRange d 80 48

/-- TEMP is zero: greedy (R112). -/
def greedy (temp : Word) : Bool := fpEq (fpOf temp) (.fin false 0 0)

/-- Field ranges of Table 9.1 hold (step 2 of Table 9.2). -/
def submitRanges (d : List Byte) (x : Request) : Bool :=
  let t := fpOf x.temp
  let q := fpOf x.topp
  let one := Fp.fin false 1 0
  let zero := Fp.fin false 0 0
  decide (fieldN d 3 1 % 8 ≤ 4) && decide (1 ≤ x.promptLen ∧ x.promptLen ≤ 262144) &&
    decide (1 ≤ x.maxNew ∧ x.maxNew ≤ 262143) && fpFinite t && !fpLt t zero &&
    (greedy x.temp || (decide (1 ≤ x.topk ∧ x.topk ≤ 64) && fpFinite q && fpLt zero q && !fpLt one q))

/-- The refusal of steps 1 to 5 after the general checks, or 0. -/
def State.submitCode (s : State) (p : Nat) (d : List Byte) (x : Request) : Nat :=
  let P := s.part p
  if fieldN d 0 1 ≠ 0x40 then 0x0001
  else if submitReserved d then 0x0002
  else if !programReleased P || swapping P then 0x0106
  else if !submitRanges d x then 0x0003
  else if x.ctxE < x.promptLen + 1 ∨ s.odP 0x5000 5 p < x.ctxE then 0x0104
  else if (byTag P x.tag).isSome then 0x010A
  else if s.odP 0x5000 0x14 p ≤ P.reqs.length then 0x0101
  else 0

/-- The lowest free REQ of a partition's block (R233). DESIGN CHOICE, log 69. -/
def State.freeReq (s : State) (p : Nat) : Option Nat :=
  let P := s.part p
  ((List.range (s.odP 0x5000 0x14 p)).map (P.reqFirst + ·)).find? (fun r => (mfind P.reqs r).isNone)

/-- The lead core reads a submission (R239). -/
def State.submitDesc (s : State) (p : Nat) (d : List Byte) : State :=
  let x := requestOf d s.clkTime
  let code := s.submitCode p d x
  match (if code = 0 then s.freeReq p else none) with
  | none =>
    let c := if code = 0 then 0x0101 else code
    (if c = 0x0101 then s.odAdd 0x5000 0xB 1 else s).answer p x.tag c 0 s.clkTime
  | some r => ((s.modPart p (fun P => { P with reqs := mput P.reqs r x })).countServing p).readPrompt p r x

/-- The lead core reads a cancel descriptor (R238): refused for its form, or applied at the next step boundary.
DESIGN CHOICE, log 65. -/
def State.cancelDesc (s : State) (p : Nat) (d : List Byte) : State :=
  if fieldN d 0 1 ≠ 0x41 then s.answer p (fieldN d 8 8) 0x0001 0 s.clkTime
  else if clearBits (fieldN d 1 1) 4 ≠ 0 ∨ zeroRange d 2 6 = false ∨ zeroRange d 24 104 = false then
    s.answer p (fieldN d 8 8) 0x0002 0 s.clkTime
  else s.modPart p (fun P => { P with cancels := P.cancels ++ [(s.clkTime, d)] })

/-- The lead core takes a descriptor off the ring where it is the oldest fetched (R288). -/
def State.takeDesc (s : State) (p : Nat) (d : List Byte) : State :=
  if (s.vf p).descs.head? = some d then
    s.modVf p (fun f => { f with descs := f.descs.drop 1, taken := (f.taken + 1) % 65536 })
  else s

/-- SUBMIT (R239): the lead core reads this descriptor. -/
def execSubmit (part : Nat) (desc : List Byte) (s : State) : Res :=
  guardRes (Instr.wf (.submit part desc)) ((s.takeDesc part desc).submitDesc part desc)

/-- PROMPT_READ_COMPLETE (R239): the prompt read ends with its token IDs, or with the code of the failed transfer. -/
def execPromptReadComplete (part req : Nat) (ids : List Nat) (failCode : Nat) (s : State) : Res :=
  guardRes (Instr.wf (.promptReadComplete part req ids failCode))
    (if failCode = 0 then s.promptIds part req ids else s.promptFails part req failCode)

/-- CANCEL (R253): the lead core reads this descriptor. -/
def execCancel (part : Nat) (desc : List Byte) (s : State) : Res :=
  guardRes (Instr.wf (.cancel part desc)) ((s.takeDesc part desc).cancelDesc part desc)

/-! ### Step boundary (R243–R253) -/

/-- A deadline in µs from submission has passed at a time. DEDUCED, log 71. -/
def passed (now : Nat) (x : Request) (dl : Nat) : Bool := dl != 0 && decide (x.submitAt + dl * cyclesPerUs < now)

/-- The prefill pass in flight of a request has crossed with a token sampled at `time`: its time is measured (R240). -/
def State.passDone (s : State) (p r : Nat) (x : Request) (time : Nat) : State :=
  let us := (time - x.passAt) / cyclesPerUs
  let l := ringPush 16 (mget [] (s.part p).preTimes x.passBucket) us
  let s1 := s.modPart p (fun P => { P with preTimes := mset [] P.preTimes x.passBucket l })
  (s1.odSetP 0x5001 (x.passBucket + 1) p (meanOf l)).modReq p r (fun x =>
    { x with out := 0, preDone := min x.promptLen (x.preDone + bucketSize x.passBucket) })

/-- The reason that ends a request at its newest token (R251). -/
def endReason (x : Request) (token position : Nat) : Option Nat :=
  if x.generated + 1 = x.maxNew then some 0
  else if x.stops.contains token then some 1
  else if position + 1 = x.ctxE then some 2
  else none

/-- The attention of the token that is sampled next is empty (R211): MASK_LO lies above its query's position. -/
def emptyAttn (x : Request) : Bool := decide (x.promptLen + x.generated - 1 < x.maskLo)

/-- A token sampled for a request in PREFILL or DECODE (R248, R251, R252), which its prompt copy takes in (R235).
DEDUCED, log 59. -/
def State.takeToken (s : State) (p r : Nat) (x : Request) (k : Sampled) : State :=
  let first := x.generated == 0
  let position := x.promptLen + x.generated
  let late := first && passed k.time x x.ttft
  let stop := x.stops.contains k.token
  let flags := b2n first + 2 * b2n stop + 4 * b2n (emptyAttn x) + 8 * b2n late
  let s1 := s.odAdd 0x5000 0x10 1
  let s2 := if late then s1.odAdd 0x5000 0x12 1 else s1
  let s2 := if emptyAttn x then (s2.odAdd 0x5100 0xA 1).odAddP 0x5101 2 p 1 else s2
  let s3 := (s2.modReq p r (fun y =>
    { y with st := .decode, ids := y.ids ++ [k.token], generated := y.generated + 1, out := 0,
             empties := y.empties + b2n (emptyAttn x) })).showIds p r position [k.token]
  let s4 := s3.postRecord p (tokenRecord x.tag r flags k.token position k.logit.toNat k.time)
  match endReason x k.token position with
  | some reason => s4.endRequest p r 0 reason 0
  | none => s4

/-- One returned token ID (R244 step 1): discarded for an ENDING request (R32); for a prefill pass that is not the
request's last it says that the pass has crossed. DESIGN CHOICE, log 70. -/
def State.takeSampled (s : State) (p : Nat) (k : Sampled) : State :=
  match s.req p k.req with
  | none => s
  | some x =>
    if x.out = 0 then s
    else
      match x.st with
      | .ending => s.modReq p k.req (fun x => { x with out := 0 })
      | .prefill =>
        let s1 := s.passDone p k.req x k.time
        if x.promptLen ≤ x.preDone + bucketSize x.passBucket then s1.takeToken p k.req x k else s1
      | .decode => s.takeToken p k.req x k
      | _ => s

/-- Requests that an error has ended since the last boundary (R246, R254). -/
def State.endErrors (s : State) (p : Nat) : State :=
  s.forEach (s.part p).reqs (fun e s =>
    match (s.req p e.1).bind (·.endDue) with
    | none => s
    | some c => if e.2.st = .admitting then s else s.endRequest p e.1 c.1 3 c.2)

/-- END_DL at a step boundary (R252). -/
def State.endDeadlines (s : State) (p : Nat) : State :=
  s.forEach (s.part p).reqs (fun e s =>
    match s.req p e.1 with
    | none => s
    | some x =>
      if (x.st == .waiting || isActive x) && passed s.clkTime x x.endDl then
        (s.endRequest p e.1 0x0107 3 0).odAdd 0x5000 0xF 1
      else s)

/-- Requests that an install with END_HELD = 1, an evacuation or standby ends at the step boundary (R269, R341, R404). -/
def State.endAtBoundary (s : State) (p : Nat) : State :=
  let c := (s.part p).endCode
  if c = 0 then s
  else
    (s.forEach (s.part p).reqs (fun e s =>
      if e.2.st = .admitting then s.refuseReq p e.1 c 0 else s.endRequest p e.1 c 3 0)).modPart p
      (fun P => { P with endCode := 0 })

/-- The held request that a cancel names (R238). -/
def cancelTarget (P : Partition) (d : List Byte) : Option Nat :=
  let target := fieldN d 16 8
  if bit (fieldN d 1 1) 2 then
    let r := target % 8192
    if (mfind P.reqs r).isSome then some r else none
  else byTag P target

/-- One cancel applied, with the time it was read at (R253). DESIGN CHOICE, log 65. -/
def State.applyCancel (s : State) (p : Nat) (c : Nat × List Byte) : State :=
  let tag := fieldN c.2 8 8
  match cancelTarget (s.part p) c.2 with
  | none => s.answer p tag 0x0109 0 c.1
  | some r =>
    match s.req p r with
    | none => s
    | some x =>
      if x.st = .admitting then s.modPart p (fun P => { P with cancels := P.cancels ++ [c] })
      else if x.st = .ending then s.answer p tag 0x0109 0 c.1
      else ((s.endRequest p r 0x0108 3 0).modReq p r (fun x => { x with cancels := x.cancels ++ [(tag, c.1)] })).odAdd 0x5000 0xE 1

/-- Step 3 of R244: descriptors read in ring order; submissions beyond the limit stay in the ring. -/
def State.readRing (s : State) (p limit fuel : Nat) : State :=
  match fuel with
  | 0 => s
  | fuel + 1 =>
    match (s.vf p).descs with
    | [] => s
    | d :: _ =>
      if fieldN d 0 1 = 0x41 then ((s.takeDesc p d).cancelDesc p d).readRing p limit fuel
      else if limit = 0 then s
      else ((s.takeDesc p d).submitDesc p d).readRing p (limit - 1) fuel

/-- The request admitted first among those that a test accepts. -/
def firstAdmitted (P : Partition) (ok : Request → Bool) : Option Nat :=
  ((P.reqs.filter (fun e => ok e.2)).foldl (fun (best : Option (Nat × Request)) e =>
    match best with
    | none => some e
    | some b => if e.2.order < b.2.order then some e else some b) none).map (fun e => e.1)

/-- Step 4 of R244. -/
def State.promote (s : State) (p fuel : Nat) : State :=
  match fuel with
  | 0 => s
  | fuel + 1 =>
    if s.odP 0x5000 4 p ≤ (activeReqs (s.part p)).length then s
    else
      match firstAdmitted (s.part p) (fun x => x.st == .waiting) with
      | none => s
      | some r => (s.modReq p r (fun x => { x with st := .prefill })).promote p fuel

/-- A token record of the request is held (R247). -/
def State.recordHeld (s : State) (p r : Nat) : Bool :=
  (s.vf p).held.any (fun b => fieldN b 10 1 == 1 && fieldN b 8 2 == r)

/-- The token context of a released token or pass (Table 9.3). -/
def contextWord (req : Nat) (exactMode pre : Bool) (position count maskLo step : Nat) : List Byte :=
  leBytes 2 (req % 8192 + 8192 * b2n exactMode + 16384 * b2n pre) ++ leBytes 2 0 ++ leBytes 4 position ++
    leBytes 4 count ++ leBytes 4 maskLo ++ leBytes 4 step ++ leBytes 12 0

/-- A token or pass enters the first stage with its context (R245). -/
def State.releaseOne (s : State) (p r : Nat) : State :=
  match s.req p r with
  | none => s
  | some x =>
    let pre := x.st == .prefill
    let left := x.promptLen - x.preDone
    let b := if left ≤ 131072 then bucketOf left else 5
    let position := if pre then x.preDone else x.promptLen + x.generated - 1
    let count := if pre then min left (bucketSize b) else 1
    let w := contextWord r (s.odEff 0x3101 1 p == 1) pre position count x.maskLo (s.part p).step
    (s.modPart p (fun P => { P with contexts := P.contexts ++ [w] })).modReq p r (fun x =>
      if pre then { x with out := 1, passAt := s.clkTime, passBucket := b } else { x with out := 1 })

/-- What the next step holds (R243): every DECODE request whose token has been sampled and recorded, and at most one
prefill pass, of the oldest; in single-stream placement one of these. DESIGN CHOICE, log 64. -/
def State.nextStep (s : State) (p : Nat) : List Nat :=
  let P := s.part p
  let dec := (P.reqs.filter (fun e => e.2.st == .decode && e.2.out == 0 && !s.recordHeld p e.1)).map (fun e => e.1)
  let pre := (firstAdmitted P (fun x => x.st == .prefill && x.out == 0)).toList
  if s.odP 0x5000 4 p = 1 then (dec ++ pre).take 1 else dec ++ pre

/-- The period of the step that ends, where a step was in flight (R240, R243). DESIGN CHOICE, log 63. -/
def State.measureStep (s : State) (p : Nat) : State :=
  match (s.part p).stepAt with
  | none => s
  | some a =>
    let l := ringPush 64 (s.part p).periods (nsOf (s.clkTime - a))
    (s.modPart p (fun P => { P with stepAt := none, periods := l })).odSetP 0x5000 8 p (meanOf l)

/-- STEP_BOUNDARY (R244): the five actions of the lead core in order. DESIGN CHOICE, log 73. -/
def execStepBoundary (part : Nat) (tokens : List Sampled) (s : State) : Res :=
  guardRes (Instr.wf (.stepBoundary part tokens))
    (if !programReleased (s.part part) || !s.leadRuns part then s
     else
       let s0 := (s.measureStep part).modPart part (fun P => { P with margin := some (s.odEff 0x5000 7 part) })
       let s1 := (((s0.forEach tokens (fun k s => s.takeSampled part k)).endErrors part).endDeadlines part).endAtBoundary part
       let due := (s1.part part).cancels
       let s2 := (s1.modPart part (fun P => { P with cancels := [] })).forEach due (fun d s => s.applyCancel part d)
       let s3 := s2.readRing part (s2.odEff 0x5000 3 part) (s2.vf part).descs.length
       let s4 := s3.promote part (s3.part part).reqs.length
       let s5 := s4.modPart part (fun P => { P with step := (P.step + 1) % 2 ^ 32, contexts := [] })
       let l := s5.nextStep part
       let s6 := if l.isEmpty then s5 else s5.modPart part (fun P => { P with stepAt := some s.clkTime })
       (s6.forEach l (fun r s => s.releaseOne part r)).countServing part)

end Sys2Proof.Machine
end

