-- ==== Sys2Proof/Machine/FieldOps.lean ====
section
/-!
DEFINITION. Shared operations on fields and their partitions: the fate of dictionary classes at resets (R405), the end
of held requests, unloading a program, partition faults, detour sets (R163, R164), fields going dark and coming back
(R318–R322), scrubs (R353–R355), and the per-field locks of maintenance (R407–R410).
-/

namespace Sys2Proof.Machine

/-! ### Dictionary classes -/

/-- Return every stored value of an entry that the test names to its default: row, subindex, partition. -/
def State.odReset (s : State) (drop : OdRow → Nat → Nat → Bool) : State :=
  let keep := fun k : Nat =>
    match odFind (k / 65536) (k / 256 % 256) with
    | none => true
    | some r => !drop r (k / 256 % 256) (k % 256)
  { s with od := s.od.filter (fun e => keep e.1), odBlob := s.odBlob.filter (fun e => keep e.1) }

/-- The V-class entries of a partition at their defaults (Table 17.4); its state, mask and overlay, the extents and the
block it holds (R139, R233) and the version negotiated by its function are kept. -/
def State.odResetPart (s : State) (p : Nat) : State :=
  s.odReset (fun r sub part => r.pers == .v && r.idx != 0x4002 && r.idx != 0x4003 && r.idx != 0x1211 &&
    r.idx != 0x6002 && !(r.idx == 0x3320 && sub == 5) && !(r.idx == 0x5000 && sub == 0x14) &&
    ((r.kind == .perPart && part == p) || (r.kind == .partIndexed && sub == p + 1)))

/-! ### Held requests and programs -/

/-- Every held request of a partition ends with a code (R318, R319, R351, R401), and every cancel that waits. -/
def State.endHeld (s : State) (p code cancelCode : Nat) : State :=
  let lost := fun x : Request => { x with out := 0, kv := x.kv.map (fun k => (k.1, { k.2 with inflight := false })) }
  let s1 := s.forEach (s.part p).reqs (fun e s =>
    if e.2.recorded then s
    else if e.2.st = .admitting then s.refuseReq p e.1 code 0
    else ((s.endRequest p e.1 code 3 0).modReq p e.1 lost).freeRequest p e.1)
  let due := (s1.part p).cancels
  (s1.modPart p (fun P => { P with cancels := [], endCode := 0 })).forEach due
    (fun d s => s.answer p (fieldN d.2 8 8) cancelCode 0 d.1)

/-- Every segment of a charge bank disabled, with its tokens and ready passes gone. -/
def stopBank (cb : ChargeBank) : ChargeBank :=
  let c1 := cb.segs.foldl (fun cb e => cb.modSeg e.1 (fun g => { clearTokens g with en := false, disabling := false })) cb
  let c2 := c1.arrays.foldl (fun cb e => cb.modArr e.1 (fun x => { x with latched := [], conv := none, exact := none })) c1
  { c2 with ready := [], boundary := true }

/-- A tile whose program is unloaded: engines idle, core not loaded, contents left in place (R405). -/
def stopTile (T : Tile) : Tile :=
  { T with cb := stopBank T.cb, tv := { T.tv with queue := [], drains := [], mode := 0, exact := false }, vu := { T.vu with queue := [] },
           mv := [], rx := [], tx := [], txHeld := [], quiet := false,
           cc := { T.cc with state := .notLoaded, loaded := false, wait := .none, haltDue := 0, haltCause := 0, role := 0,
                             stage := 0xFFFF } }

/-- A tile stops: what it had still to send is gone. -/
def State.stopTile (s : State) (t : TileId) : State :=
  (s.modTile t Machine.stopTile).modRouter t (fun R => { R with feed := R.feed.filter (fun e => e.1 != .l) })

/-- The route entries of a partition are invalid in every router (R353). -/
def State.dropRoutes (s : State) (p : Nat) : State :=
  let s1 := s.forEach s.routers (fun e s =>
    s.modRouter (tileAt e.1) (fun R => { R with routes := R.routes.filter (fun r => bits r.2 28 24 != p) }))
  { s1 with mesh := { s1.mesh with alternates := s1.mesh.alternates.filter (fun a => a.part != p) } }

/-- Handles installed return to STATE 2 (R404, R405). -/
def uninstalled (P : Partition) : Partition :=
  { P with handles := P.handles.map (fun h => (h.1, { h.2 with st := if h.2.st = 3 ∨ h.2.st = 4 then 2 else h.2.st })),
           baseArrays := [], addArrays := [], paused := [], addDigest := [] }

/-- Tiles running a TC1 program on B0 (R193). -/
def State.countPadded (s : State) : State :=
  s.odSet 0x3500 8 (if s.stepping = 0xB0 then (s.tiles.filter (fun e => e.2.cc.loaded && e.2.tv.tc == 1)).length else 0)

/-- The partition's program is removed: tiles stopped, routes invalid, serving values at zero. DESIGN CHOICE, log 56. -/
def State.unload (s : State) (p : Nat) : State :=
  match (s.part p).program with
  | none => s
  | some g =>
    let s1 := (s.forEach g.tiles (fun e s => s.stopTile e.1)).dropRoutes p
    let s2 := s1.modPart p (fun P =>
      { P with program := none, slots := [], views := [], tokens := [], contribs := [], merged := [], contexts := [],
               stepAt := none, walkDue := [] })
    let zero := fun (e : Nat × Nat) (s : State) => s.odSetP e.1 e.2 p (odDefault e.1 e.2)
    s2.forEach [(0x5000, 4), (0x5000, 5), (0x5000, 6), (0x5200, 7), (0x5200, 8), (0x7000, 7), (0x3501, 1), (0x3501, 4)] zero |>.countPadded

/-- A program that no longer serves: submissions are refused (R319). -/
def State.stopServing (s : State) (p : Nat) : State :=
  s.modPart p (fun P => { P with program := P.program.map (fun g => { g with released := false }) })

/-! ### Maintenance locks (R407–R410) -/

/-- An activity that yields to any other (Table 17.6). -/
def yields (k : ActKind) : Bool :=
  match k with
  | .rejuvenation _ => true
  | .rotation _ _ => true
  | _ => false

/-- A firmware activation is pending or running. -/
def State.activating (s : State) : Bool :=
  s.hub.activating || s.hub.acts.any (fun a => a.kind == .activation) || s.hub.queue.any (fun q => q.kind == .activation)

/-- Fields held by activities that do not yield, and fields that queued activities name. -/
def State.heldFields (s : State) : Nat :=
  (s.hub.acts.filter (fun a => !yields a.kind)).foldl (fun m a => m ||| a.fields) 0

def State.queuedFields (s : State) : Nat := s.hub.queue.foldl (fun m q => m ||| q.fields) 0

/-- What a commanded activity meets (R408, R409): 0 start, 0x0801 queued, 0x0802 refused, 0x0804 queue full.
DESIGN CHOICE, log 108. -/
def State.maintCode (s : State) (fields : Nat) : Nat :=
  if s.activating then 0x0802
  else if (s.heldFields ||| s.queuedFields) &&& fields = 0 then 0
  else if 32 ≤ s.hub.queue.length then 0x0804
  else 0x0801

/-- A refusal of maintenance counted, or a queueing. -/
def State.countMaint (s : State) (code : Nat) : State :=
  if code = 0x0802 then s.odAdd 0x7101 5 1 else if code = 0x0801 then s.odAdd 0x7101 4 1 else s

/-- The rejuvenation of a field stops and frees its lock (R409). -/
def State.endRejuvenation (s : State) (f : Nat) : State :=
  ({ s with hub := { s.hub with acts := s.hub.acts.filter (fun a => a.kind != ActKind.rejuvenation f) } }).showActs

/-- The yielding activities of a field stop: its rotations are abandoned, its rejuvenation ends (Table 17.6). -/
def State.yieldField (s : State) (f : Nat) : State := (s.abandonRotations f).endRejuvenation f

/-- An activity starts: rotations and rejuvenation of its fields yield, and it takes their locks. -/
def State.startAct (s : State) (k : ActKind) (fields : Nat) : State :=
  let s1 := if yields k then s else s.forEach (fieldsOf fields) (fun f s => s.yieldField f)
  ({ s1 with hub := { s1.hub with acts := s1.hub.acts ++ [Activity.mk k fields] } }).showActs

/-- An activity ends and frees its locks. -/
def State.endAct (s : State) (k : ActKind) : State :=
  ({ s with hub := { s.hub with acts := dropFirst (fun a => a.kind == k) s.hub.acts } }).showActs

/-- An activity joins the queue. -/
def State.queueAct (s : State) (k : ActKind) (fields : Nat) (cmd : List Byte) : State :=
  ({ s with hub := { s.hub with queue := s.hub.queue ++ [Queued.mk k fields s.clkTime cmd] } }).showActs

/-- A queued activity leaves the queue. -/
def State.unqueue (s : State) (k : ActKind) : State :=
  ({ s with hub := { s.hub with queue := dropFirst (fun q => q.kind == k) s.hub.queue } }).showActs

/-- The running maintenance command ends with a status (OD 0x7100.03). -/
def State.endFieldCmd (s : State) (code : Nat) : State :=
  let gone := fun k : ActKind => match k with
    | .fieldCmd _ => true
    | _ => false
  let s1 := { s with hub := { s.hub with acts := s.hub.acts.filter (fun a => !gone a.kind), fieldsDue := 0 } }
  ((s1.odSet 0x7100 2 0).odSet 0x7100 3 code).showActs

/-- A field that the running maintenance command waited for has arrived, or failed with a code. -/
def State.fieldCmdField (s : State) (f code : Nat) : State :=
  if !bit s.hub.fieldsDue f then s
  else
    let left := setBit s.hub.fieldsDue f false
    let s1 := { s with hub := { s.hub with fieldsDue := left } }
    let s2 := if code = 0 then s1 else s1.odSet 0x7100 3 code
    if left = 0 then s2.endFieldCmd (if code = 0 then s2.odG 0x7100 3 else code) else s2

/-! ### Model commands -/

/-- The model command of a partition ends with a status (R266): a stage that fails frees its range; an install that
fails once step 6 has begun leaves the frame not loaded. -/
def State.endModelCmd (s : State) (p code : Nat) : State :=
  match (s.part p).cmd with
  | .none => s
  | c =>
    let s1 := match c with
      | .stage h _ _ _ _ _ _ => if code = 0 ∨ code = 0x0208 then s else s.modHandle p h (fun _ => {})
      | .install h _ _ _ _ st _ =>
        if code ≠ 0 ∧ 6 ≤ st then ((s.endHeld p 0x020C 0x0109).unload p).modPart p (fun P =>
          { uninstalled P with handles := mmod {} (uninstalled P).handles h (fun x => if x.st = 5 then x else { x with st := 2 }) })
        else s
      | .none => s
    let s2 := s1.modPart p (fun P => { P with cmd := .none, endCode := 0 })
    let s3 := ((s2.odSetP 0x5200 2 p 0).odSetP 0x5200 3 p code)
    ((s3.unqueue (.install p)).endAct (.install p)).endAct (.evacuation p)

/-! ### Partition faults -/

/-- A partition faults (R318, R319, R335, R341): state 2, its tokens lost and its held requests ended, until a RESET or
DISSOLVE. DESIGN CHOICE, log 96. -/
def State.faultPart (s : State) (p code : Nat) : State :=
  if s.partState p ≠ 1 then s
  else
    let inst := match (s.part p).cmd with
      | .install _ _ _ _ _ _ _ => true
      | _ => false
    let s1 := if inst then s.endModelCmd p 0x000B else s
    let s2 := ((s1.odSet 0x4002 (p + 1) 2).endHeld p code 0x0109).stopServing p
    let s2 := if s2.odP 0x7000 7 p = 0 then s2 else s2.resumePart p
    s2.log { rule := 351, status := code, sev := 2, part := p }

/-- The partition that a field belongs to faults. -/
def State.faultOwner (s : State) (f code : Nat) : State :=
  match s.partOfField f with
  | none => s
  | some p => s.faultPart p code

/-! ### Dark fields (R163, R318, R319, R405) -/

/-- An array of a field that has gone dark: cells, sums and working trims lost, tables of the calibration flash kept. -/
def lostArray (x : ChargeArray) : ChargeArray :=
  { factory := x.factory, delta := x.delta, saved := x.saved, adcFactory := x.adcFactory, failed := x.failed }

/-- A tile of a field that has gone dark. -/
def lostTile (T : Tile) : Tile :=
  { cb := { arrays := T.cb.arrays.filterMap (fun e => if lostArray e.2 = {} then none else some (e.1, lostArray e.2)) } }

/-- Tiles and routers of a field lose their contents; row maps follow the repair fuses again. -/
def State.loseField (s : State) (f : Nat) : State :=
  let mine := fun k : Nat => fieldOfTile (tileAt k) == f
  { s with tiles := s.tiles.filterMap (fun e =>
             if mine e.1 then (if lostTile e.2 = {} then none else some (e.1, lostTile e.2)) else some e),
           routers := s.routers.filter (fun e => !mine e.1),
           mesh := { s.mesh with rowMap := s.mesh.rowMap.filter (fun e =>
             !(decide (e.1 / 20 / 8 / 20 = f / 8) && decide (e.1 / 20 % 8 = f % 8))) } }

/-- The field is dark in a state of OD 0x2101, unscrubbed (R355). DESIGN CHOICE, log 124. -/
def State.goDark (s : State) (f st : Nat) (why : OffCause) : State :=
  let s1 := (s.abandonRotations f).loseField f
  let s2 := s1.modField f (fun x =>
    { x with why := why, offDue := none, offAt := s.clkTime, warming := false, planeOver := false, g := 48,
             overCurrent := false, underCurrent := true, rimHalved := false })
  let s3 := { s2 with power := { s2.power with switchQueue := s2.power.switchQueue.filter (· != f) } }
  (((s3.odSet 0x2101 (f + 1) st).odSet 0x7103 (f + 1) 1).odSet 0x2107 (f + 1) 0).countPadded

/-- Ask for the field to be switched on (R322): it waits for its turn on its plane. -/
def State.requestOn (s : State) (f : Nat) : State :=
  if s.power.switchQueue.contains f then s
  else { s with power := { s.power with switchQueue := s.power.switchQueue ++ [f] } }

/-- A planned switch-off is carried out once its detour set is installed (R164, R318). DESIGN CHOICE, log 84. -/
def State.finishOff (s : State) (f : Nat) : State :=
  match (s.field f).offDue with
  | none => s
  | some why =>
    let again := (s.field f).cycling
    let s1 := s.goDark f (if why = .phase then 5 else 1) why
    let s2 := if again then s1.requestOn f else s1
    if again then s2 else s2.fieldCmdField f 0

/-! ### Detour sets (R163, R164, Table 6.8) -/

/-- Every router's input buffers are empty. -/
def State.meshEmpty (s : State) : Bool := s.routers.all (fun e => e.2.inq.isEmpty)

/-- A message held at a tile's port enters the mesh when injection resumes. -/
def State.injectLate (s : State) (t : TileId) (m : Message) : State :=
  match s.inject t m with
  | (s1, none) => s1
  | (s1, some c) =>
    if m.id = 0 ∨ m.dest.route ≠ 0 then s1.refusedPlain t c (destNat m.dest)
    else
      match txOf (s1.tile t) m.id with
      | none => s1
      | some x => s1.txFailed t x c true

/-- A flit that waits at a local port is routed by the mask in force when it enters (R150, R164); one that has no way is
refused, a response or refusal discarded. -/
def State.reroute (s : State) (t : TileId) (f : Flit) : State :=
  if f.vn = 1 then s.sendVn1 t f
  else
    match s.injectRoute t f.vn f.dest with
    | .error c => s.refuse t f c
    | .ok r => s.feedIn t [(.l, { f with way := r.2.1, phase1 := r.2.2, exit := r.1 })]

/-- The flits that wait at a router's ports when injection resumes: routed again at L, as they are at the rim. -/
def State.resumeFeed (s : State) (t : TileId) : State :=
  let l := (s.router t).feed
  if l.isEmpty then s
  else
    (s.modRouter t (fun R => { R with feed := [] })).forEach l (fun e s =>
      if e.1 = .l then s.reroute t e.2 else s.feedIn t [e])

/-- Injection resumes, tile by tile: the flits that waited at the ports, then the messages that were held. -/
def State.resumeInjection (s : State) : State :=
  let s1 := s.forEach s.routers (fun e s => s.resumeFeed (tileAt e.1))
  s1.forEach s1.tiles (fun e s =>
    if e.2.txHeld.isEmpty then s
    else (s.modTile (tileAt e.1) (fun T => { T with txHeld := [] })).forEach e.2.txHeld (fun m s => s.injectLate (tileAt e.1) m))

/-- Steps 4 and 5 of Table 6.8: mask and dark-field alternates written, planned switch-offs carried out, injection
resumed, counted. -/
def State.finishDetour (s : State) (fields : Nat) (dark : Bool) : State :=
  let mask := if dark then s.dark ||| fields else clearBits s.dark fields
  let alts := s.mesh.alternates.filter (fun a => dark && a.cond == 2 && bit fields a.arg)
  let s1 := (s.odSet 0x3401 1 mask).forEach alts (fun a s => s.setRoute a.router a.route a.entry)
  let took := nsOf (s.clkTime - s.mesh.detourAt)
  let s2 := ((({ s1 with mesh := { s1.mesh with detour := .idle, down := clearBits s1.mesh.down fields } }).odAdd 0x3400 0xD 1).odSet
    0x3400 0xE took)
  let s3 := if dark then s2.forEach (fieldsOf fields) (fun f s => s.finishOff f) else s2
  s3.resumeInjection

/-- Installations go on as far as they can: the next one starts, and ends at once where no flit is in flight. They wait
for the hub during a management restart (Table 16.1). -/
def State.runDetours (s : State) (fuel : Nat) : State :=
  match fuel with
  | 0 => s
  | fuel + 1 =>
    match s.mesh.detour with
    | .draining fields dark => if s.meshEmpty then (s.finishDetour fields dark).runDetours fuel else s
    | .idle =>
      match s.mesh.detourQueue with
      | [] => s
      | e :: r =>
        if s.hub.away then s
        else
          let s1 := s.forEach allFields (fun f s => s.abandonRotations f)
          ({ s1 with mesh := { s1.mesh with detour := .draining e.1 e.2, detourQueue := r, detourAt := s.clkTime } }).runDetours fuel

/-- Ask for a detour set: fields go dark, or return to service. DESIGN CHOICE, log 84. -/
def State.installDetour (s : State) (fields : Nat) (dark : Bool) : State :=
  let s1 := { s with mesh := { s.mesh with detourQueue := s.mesh.detourQueue ++ [(fields, dark)] } }
  s1.runDetours (2 * s1.mesh.detourQueue.length + 2)

/-! ### Switching off -/

/-- A field falls at once (R319): its links marked down, its contents lost, its partition faulted; the detour set
follows. -/
def State.fieldFalls (s : State) (f st code : Nat) (why : OffCause) : State :=
  let s1 := { s with mesh := { s.mesh with down := s.mesh.down ||| 2 ^ f } }
  let s2 := (s1.goDark f st why).faultOwner f code
  let s3 := s2.log { rule := 319, status := code, sev := 2, source := 1, field := f }
  s3.installDetour (2 ^ f) true

/-- A planned switch-off (R164, R318): state 6, the detour set first. DESIGN CHOICE, log 84. -/
def State.planOff (s : State) (f : Nat) (why : OffCause) : State :=
  let s1 := (s.modField f (fun x => { x with offDue := some why })).odSet 0x2101 (f + 1) 6
  s1.installDetour (2 ^ f) true

/-! ### Grant (R55, R317, R321) -/

/-- Failed phases of a field, and whether it has to go off (Table 13.4). -/
def failedPhases (mask : Nat) : Nat := ((List.range 48).filter (fun i => bit mask i)).length

def phasesFatal (mask : Nat) : Bool := decide (4 ≤ failedPhases mask) || bits mask 47 46 == 3

/-- Phases that fail the self-test are entered in the mask; one newly failed is counted and logged (R317).
DESIGN CHOICE, log 83. -/
def State.phaseTest (s : State) (f : Nat) (failed : List Nat) : State :=
  let old := s.odG 0x2103 (f + 1)
  let good := (failed.filter (fun i => decide (i < 48))).eraseDups
  let s1 := s.odSet 0x2103 (f + 1) (good.foldl (fun m i => setBit m i true) 0)
  s1.forEach (good.filter (fun i => !bit old i)) (fun i s =>
    (s.odAdd 0x2100 7 1).log { rule := 317, sev := 1, source := 1, field := f, data := [i] })

/-- GRANT cap of Table 13.4. -/
def State.phaseCap (s : State) (f : Nat) : Nat := if failedPhases (s.odG 0x2103 (f + 1)) = 3 then 24 else 48

/-- GRANT of a field in force. -/
def State.fieldGrant (s : State) (f : Nat) : Nat :=
  min (min (s.field f).g 48) (min (s.phaseCap f) (s.odG 0x2302 (f + 1)))

/-- The field controller sets GRANT in its tiles (R321, R56), with the budget shown beside it. -/
def State.setGrant (s : State) (f budget : Nat) : State :=
  let g := s.fieldGrant f
  (s.forEach (tilesOfField f) (fun t s =>
    if (s.tile t).cb.grant = g then s else s.modCb t (fun cb => { cb with grant := g }))).odSet 0x2107 (f + 1) (budget % 65536 + g * 65536)

/-- Budget b_f shown in OD 0x2107. -/
def State.budget (s : State) (f : Nat) : Nat := s.odG 0x2107 (f + 1) % 65536

/-! ### Scrub (R353–R355) -/

/-- What a scrub erases in one tile (Table 15.3); a failed array keeps what it holds and is out of use (R354). -/
def scrubTile (T : Tile) (failed : List Nat) : Tile :=
  let arr := fun e : Nat × ChargeArray =>
    { e.2 with wvalid := false, rows := 0, sums := [], latch := [], latched := [], conv := none, exact := none,
               burst := none, closing := none, failed := failed.contains e.1 }
  let kept := T.cb.arrays.filterMap (fun e => if arr e = {} then none else some (e.1, arr e))
  let arrays := failed.foldl (fun m a => mmod {} m a (fun x => { x with failed := true })) kept
  { T with cb := { T.cb with arrays := arrays, cells := T.cb.cells.filter (fun c => failed.contains (c.1 / 512)),
                             chans := [], chanDefer := [], ready := [], readSent := [] },
           sp := { T.sp with mem := [] }, tv := { T.tv with held := [], acc := [], exact := false }, vu := { T.vu with regs := [] },
           cc := { T.cc with isram := [], used := none, dsram := [], msgq := [], spads := [] } }

/-- Failed arrays of one tile. -/
def failedOf (l : List (TileId × Nat)) (t : TileId) : List Nat := (l.filter (fun e => e.1 == t)).map (fun e => e.2)

/-- Stack bytes from a device address erased, errors in them cleared. -/
def State.eraseStack (s : State) (da n : Nat) : State :=
  { s with stk := { s.stk with mem := s.stk.mem.filter (fun e => decide (e.1 < da) || decide (da + n ≤ e.1)),
                               bad := s.stk.bad.filter (fun u => decide (u * 64 < da) || decide (da + n ≤ u * 64)) } }

/-- Breakpoints, watchpoints and trace of a partition's tiles cleared, and their trace windows erased (R196, R199,
R201). -/
def State.clearDebug (s : State) (p : Nat) : State :=
  let mask := s.partMask p
  let keys := (s.tiles.map (fun e => e.1)).filter (fun k => bit mask (fieldOfTile (tileAt k)))
  let s1 := s.forEach keys (fun k s => s.modCc (tileAt k) (fun c =>
    { c with bps := [], wps := [], traceFull := false, traceHold := [], tracePos := 0, traceLost := false }))
  if s1.stk.mem.isEmpty then s1
  else s1.forEach ((fieldsOf mask).flatMap tilesOfField) (fun t s =>
    match s.logical t with
    | none => s
    | some (x, y) => s.eraseStack (s.traceBase + (160 * y + x) * s.traceWindow) s.traceWindow)

/-- CC_CTRL of a partition's tiles cleared (R199). -/
def State.clearCtrl (s : State) (p : Nat) : State :=
  let mask := s.partMask p
  s.forEach ((s.tiles.filter (fun e => e.2.cc.scope && bit mask (fieldOfTile (tileAt e.1)))).map (fun e => e.1)) (fun k s =>
    s.modCc (tileAt k) (fun c => { c with scope := false }))

/-- Scrub of one field: its tiles erased, trace windows too, failed arrays counted and logged, the field scrubbed. -/
def State.scrubField (s : State) (f : Nat) (failed : List (TileId × Nat)) : State :=
  let mine := failed.filter (fun e => fieldOfTile e.1 == f)
  let keys := ((s.tiles.map (fun e => e.1)).filter (fun k => fieldOfTile (tileAt k) == f)) ++ mine.map (fun e => tkey e.1)
  let s1 := s.forEach keys.eraseDups (fun k s => s.modTile (tileAt k) (fun T => scrubTile T (failedOf mine (tileAt k))))
  let s2 := if s1.stk.mem.isEmpty then s1 else s1.forEach (tilesOfField f) (fun t s =>
    match s.logical t with
    | none => s
    | some (x, y) => s.eraseStack (s.traceBase + (160 * y + x) * s.traceWindow) s.traceWindow)
  let s3 := ((s2.odSet 0x7103 (f + 1) 0).odAdd 0x4100 6 1).odSet 0x4104 (f + 1) mine.length
  s3.forEach mine (fun e s => (s.odAdd 0x4100 7 1).log
    { rule := 354, sev := 2, source := 1, field := f, data := [e.1.u, e.1.y, e.2] })

/-! ### A field comes up (R322, R412) -/

/-- An array at the start of its field: factory trims and saved deltas of the band loaded (R80). -/
def loadArray (band : Nat) (x : ChargeArray) : ChargeArray :=
  { x with work := bandTrim x band, adcs := x.adcFactory, cal := .idle, calLate := false, calDone := false }

/-- The trims of a field's tiles loaded for its band, and its start-up calibration done on every array of its 420 tiles
(R77, R80): an array that is not named measured the trims it had loaded, so its delta stays. The field controller holds
its injector reference (Table 3.6). DESIGN CHOICE, log 124. -/
def State.startTrims (s : State) (f : Nat) (trims : List (TileId × Nat × TrimSet)) : State :=
  let band := s.odG 0x3001 (f + 1)
  let temp := (s.field f).bandTemp
  let trig := s.odG 0x3000 2
  let listed := (s.tiles.map (fun e => tileAt e.1)).filter (fun t => fieldOfTile t == f)
  let s1 := s.forEach (if band = 0 then listed else tilesOfField f) (fun t s =>
    s.modCb t (fun cb =>
      cb.arrays.foldl (fun cb e => cb.modArr e.1 (loadArray band)) { cb with band := band, bandDue := none }))
  let s2 := s1.forEach (trims.filter (fun e => fieldOfTile e.1 == f)) (fun e s =>
    s.modCb e.1 (fun cb => cb.modArr e.2.1 (fun x => commitCal x band s.clkTime temp trig e.2.2)))
  (s2.modField f (fun x => { x with calAt := s.clkTime, calTemp := temp, calTrig := trig, calDue := false,
                                    injector := Config.injectorRef f % 2 ^ 64 })).odAdd 0x3000 8 (420 * 192)

/-- Failed links that passed their retest return to service (R412): both ends of each link between the field and itself or a
field that is on. -/
def State.restoreLinks (s : State) (f : Nat) (passed : List LinkId) : State :=
  s.forEach passed (fun k s =>
    match neighbour k.t k.dir with
    | none => s
    | some n =>
      let ends := [fieldOfTile k.t, fieldOfTile n]
      if s.mesh.failed.contains k && ends.contains f && ends.all (fun g => g == f || s.fieldOn g) then
        ({ s with mesh := { s.mesh with failed := s.mesh.failed.filter (fun l =>
            l != k && l != LinkId.mk n (arrival k.dir)) } }).odSet 0x3400 9 (s.odG 0x3400 9 - 1)
      else s)

/-- LK_CTRL.RR for a re-read count (Table 3.11). -/
def rrCode (n : Nat) : Nat := if n = 0 then 0 else if n = 2 then 1 else if n = 4 then 2 else 3

/-- The field controllers take a partition's re-read count to the tiles of its fields (R94), each of which takes it at
its next token boundary (R95). DESIGN CHOICE, log 35. -/
def State.pushReread (s : State) (p fields : Nat) : State :=
  let v := rrCode (s.odEff 0x3000 7 p)
  let all := (fieldsOf fields).flatMap tilesOfField
  let at1 := if v = 2 then (s.tiles.map (fun e => tileAt e.1)).filter (fun t => bit fields (fieldOfTile t)) else all
  s.forEach at1 (fun t s =>
    let l := (s.tile t).lk
    let due := if l.rr = v then none else some v
    if l.rrDue = due then s else s.modLk t (fun l => { l with rrDue := due }))

/-- Step 10 of Table 13.5: scrub, calibration, link retest; the field is on and its dark-field bit goes. -/
def State.fieldUp (s : State) (f : Nat) (failed : List (TileId × Nat)) (links : List LinkId)
    (trims : List (TileId × Nat × TrimSet)) : State :=
  let s1 := (((s.scrubField f failed).startTrims f trims).restoreLinks f links).odSet 0x2101 (f + 1) 0
  let s2 := s1.modField f (fun x =>
    { x with why := .command, cycling := false, heldHeat := false, rearming := false,
             rearmedAt := if x.rearming then some s.clkTime else none })
  let s3 := { s2 with power := { s2.power with switchQueue := s2.power.switchQueue.filter (· != f) } }
  let heat := s3.odG 0x2305 (f + 1)
  let s4 := if heat = 4 ∨ heat = 6 then (s3.odSet 0x2305 (f + 1) 0).odSet 0x2302 (f + 1) 48 else s3
  let s5 := match s4.partOfField f with
    | none => s4
    | some p => s4.pushReread p (2 ^ f)
  ((s5.setGrant f 0).installDetour (2 ^ f) false).fieldCmdField f 0

end Sys2Proof.Machine
end

