-- ==== Sys2Proof/Machine/Gate.lean ====
section
/-!
DEFINITION. Who may write which dictionary entry (R10, R11, R18, R283, R374, R380, R393): the checks that every command
written to the dictionary passes before its own.
-/

namespace Sys2Proof.Machine

/-- The hub serves the dictionary (R371, R373, R396). -/
def State.serving (s : State) : Bool := s.hub.served && !s.hub.restarting && !s.hub.romHalt

/-- The partition whose mailbox a caller is. -/
def callerPart : Caller → Option Nat
  | .vf _ n => some (n - 1)
  | _ => none

/-- The caller's requests are served now: a VF only while it is bound (R282), the network while it is enabled. -/
def State.mayCall (s : State) (c : Caller) : Bool :=
  s.serving && (match c with
    | .pf _ => true
    | .vf port n => s.bound port n
    | .net _ _ => s.hub.netOn)

/-- The entry is written under the device control lock: RWL, and the three entries named under Table 16.11. -/
def needsLock (r : OdRow) (idx sub : Nat) : Bool :=
  r.acc == .rwl || (idx == 0x1300 && (sub == 2 || sub == 3)) || (idx == 0x1230 && sub == 1)

/-- An entry that recovery serves (R374). -/
def inRecovery (idx : Nat) : Bool := decide (0x1000 ≤ idx ∧ idx ≤ 0x10FF) || idx == 0x1120 || idx == 0x1300

/-- The caller stands outside a sealed partition (Table 15.8). -/
def State.sealedFrom (s : State) (c : Caller) (p : Nat) : Bool := s.isSealed p && callerPart c != some p

/-- The entry does not exist for the caller (R11, R393): a sealed entry of a partition that is sealed from it, or the
factory range for a VF. -/
def State.absentFor (s : State) (c : Caller) (r : OdRow) (part : Nat) : Bool :=
  ((callerPart c).isSome && decide (0xF000 ≤ r.idx)) || (r.sealedEntry && decide (part < 32) && s.sealedFrom c part)

/-- The refusal of an access to an entry for a partition at steps 3 to 5 of R18, or 0. -/
def State.gateRow (s : State) (c : Caller) (r : OdRow) (idx sub part : Nat) (write : Bool) : Nat :=
  if s.absentFor c r part then 0x0009
  else if write && r.acc == .ro then 0x0006
  else if !write && r.acc == .wo then 0x0006
  else if write && (callerPart c).isSome && r.kind == .device then 0x0006
  else if write && needsLock r idx sub && !s.holdsLock c then 0x0007
  else if s.hub.recovery && !inRecovery idx then 0x000B
  else 0

/-- The refusal of an access to an entry at steps 3 to 5 of R18, or 0. DESIGN CHOICE, log 15. -/
def State.gate (s : State) (c : Caller) (idx sub part : Nat) (write : Bool) : Nat :=
  match odFind idx sub with
  | none => 0x0009
  | some r => s.gateRow c r idx sub part write

/-- A VF names another partition than its own, in PART or by the subindex (R380): 0x0601 at step 6 of R18. -/
def foreign (c : Caller) (idx sub part : Nat) : Bool :=
  match callerPart c with
  | none => false
  | some p => (part != 0xFF && part != p) ||
      (match odFind idx sub with
       | none => false
       | some r => r.kind == .partIndexed && p + 1 != sub)

/-- The code belongs to step 1 of R18: opcode, message format. -/
def isFormCode (code : Nat) : Bool := code == 0x0001 || code == 0x0002

/-- The code belongs to steps 1 to 5 of R18. -/
def isEarlyCode (code : Nat) : Bool := isFormCode code || [0x0006, 0x0007, 0x0009, 0x000B].contains code

/-- The entry is there for the caller: not absent and not sealed from it. -/
def State.isThere (s : State) (c : Caller) (idx sub part : Nat) : Bool :=
  match odFind idx sub with
  | none => false
  | some r => !s.absentFor c r part

/-- The refusal of a write that carries a command with a code `own` of its own, or 0 where that code stands (R18): the
command's opcode and format come before the checks of the entry, its other codes after those of the same step. -/
def State.carriedGate (s : State) (c : Caller) (idx sub part own : Nat) : Nat :=
  let g := s.gate c idx sub part true
  if s.isThere c idx sub part && isFormCode own then 0
  else if g ≠ 0 then g
  else if isEarlyCode own then 0
  else if foreign c idx sub part then 0x0601
  else 0

/-- A command written to the dictionary by a caller: it is answered with the code of the first check that fails, or of
the command. An entry of one partition names it in `part`. DESIGN CHOICE, log 15, 117. -/
def State.command (s : State) (c : Caller) (idx sub part : Nat) (run : State → State × Nat) : State :=
  if !s.mayCall c then s
  else
    let s1 := s.odAdd 0x1100 5 1
    let z := run s1
    let code := s1.carriedGate c idx sub part z.2
    if code ≠ 0 then s1.reply c code else z.1.reply c z.2

/-- A command entry that accepts the value 1 only (R381). -/
def oneOnly (value : Nat) (run : State → State × Nat) (s : State) : State × Nat :=
  if value ≠ 1 then (s, 0x0003) else run s

end Sys2Proof.Machine
end

