-- ==== Sys2Proof/Machine/FabricOps.lean ====
section
/-!
DEFINITION. Falram packets and streams (chapter 12): links and addresses (R297, R299, R302), packets sent and NAKs
(R300, R306, R308), sending streams and their windows (R303, R305, R307).
-/

namespace Sys2Proof.Machine

/-! ### Links and addresses -/

/-- The device sends and takes Falram packets (R298). -/
def State.fabricOn (s : State) : Bool := s.fabric.devId != 0xFFFF

/-- Logical links of an UP mask, ascending. -/
def linksOf (mask : Nat) : List Nat := (List.range 32).filter (fun l => bit mask l)

/-- The link of an UP mask that a packet takes (R302). -/
def pickLink (mask psn : Nat) : Nat := (linksOf mask).getD (psn % max (linksOf mask).length 1) 0

/-- MAC address, or IPv6 address in UDP mode, of a logical link of a device (R297). -/
def State.fabricAddr (s : State) (link dev : Nat) : Nat :=
  if s.fabric.udp then s.odG 0x6100 4 * 2 ^ 64 + 0x02475600 * 2 ^ 32 + link * 2 ^ 16 + dev
  else 0x024756 * 2 ^ 24 + link * 2 ^ 16 + dev

/-- Address of a group (R299). -/
def State.groupAddr (s : State) (group : Nat) : Nat :=
  if s.fabric.udp then 0xFF15 * 2 ^ 112 + 0x4756 * 2 ^ 32 + group else 0x034756 * 2 ^ 24 + group

/-- A peer entry. -/
def State.peer (s : State) (dev : Nat) : Option Peer := s.fabric.peers.find? (fun e => e.dev == dev)

/-- A peer entry changed. -/
def State.modPeer (s : State) (dev : Nat) (f : Peer → Peer) : State :=
  { s with fabric := { s.fabric with peers := s.fabric.peers.map (fun e => if e.dev = dev then f e else e) } }

/-- Peer entries in use (OD 0x6120.01). -/
def State.countPeers (s : State) : State := s.odSet 0x6120 1 s.fabric.peers.length

/-! ### Packets -/

/-- A packet to a device with the version in force and nothing else. -/
def State.newPkt (s : State) (dst : Nat) : FalramPkt :=
  let v := ((s.peer dst).map (fun e => e.ver)).getD (s.odG 0x1010 3)
  { link := 0, vmaj := v / 256, vmin := v % 256, enc := false, mcast := false, kslot := 0, last := false,
    srcDev := s.fabric.devId, dst := dst, stream := 0, psn := 0, offset := 0, len := 0, status := 0,
    res3 := 0, res28 := 0, payload := [], address := 0, icv := [], crc := 0 }

/-- A packet to a group, or to a device: no peer entry stands for a group. -/
def State.pktTo (s : State) (dst : Nat) (group : Bool) : FalramPkt :=
  if group then { s.newPkt 0xFFFF with dst := dst, mcast := true } else s.newPkt dst

/-- The 32 bytes of a packet's header (Table 12.3). -/
def headerBytes (typ : Nat) (p : FalramPkt) : List Byte :=
  leBytes 1 p.vmaj ++ leBytes 1 p.vmin ++ leBytes 1 typ ++
    leBytes 1 (b2n p.enc + 2 * b2n p.mcast + 4 * (p.kslot % 2) + 8 * b2n p.last + 16 * (p.res3 % 16)) ++ leBytes 2 p.srcDev ++
    leBytes 2 p.dst ++ leBytes 4 p.stream ++ leBytes 4 p.psn ++ leBytes 8 p.offset ++ leBytes 2 p.len ++ leBytes 2 p.status ++
    leBytes 4 p.res28

/-- What the CRC-32C of a packet covers (R300): header, payload as sent and ICV. -/
def packetBytes (typ : Nat) (p : FalramPkt) : List Byte := headerBytes typ p ++ p.payload ++ p.icv

/-- The CRC-32C of a packet holds (R300). -/
def crcOk (typ : Nat) (p : FalramPkt) : Bool := p.crc == crc32c (packetBytes typ p)

/-- The one's complement sum of the 16-bit words of a byte string, the first byte of each highest. -/
def onesSum (n : Nat) (b : List Byte) (acc : Nat) : Nat :=
  match n with
  | 0 => acc
  | n + 1 =>
    let t := acc + leNat (fitB (b.take 2) 2).reverse
    onesSum n (b.drop 2) (t % 65536 + t / 65536)

/-- UDP header and checksum over the pseudo-header of IPv6 (R299). -/
def udpBytes (src dst sport dport : Nat) (body : List Byte) : List Byte :=
  let n := 8 + body.length
  let head := fun sum : Nat => bigBytes 2 sport ++ bigBytes 2 dport ++ bigBytes 2 n ++ bigBytes 2 sum
  let pseudo := bigBytes 16 src ++ bigBytes 16 dst ++ bigBytes 4 n ++ bigBytes 4 17
  let all := pseudo ++ head 0 ++ body
  let c := 65535 - onesSum ((all.length + 1) / 2) all 0
  head (if c = 0 then 65535 else c) ++ body

/-- IPv6 header: traffic class and flow label 0, hop limit 64 (R299). PRESUMED, log 138. -/
def ipBytes (src dst : Nat) (body : List Byte) : List Byte :=
  [0x60, 0, 0, 0] ++ bigBytes 2 body.length ++ [17, 64] ++ bigBytes 16 src ++ bigBytes 16 dst ++ body

/-- MAC address of a logical link of a device (R297). -/
def macOf (link dev : Nat) : Nat := 0x024756 * 2 ^ 24 + link * 2 ^ 16 + dev

/-- The Ethernet frame of a packet to a device's link `far`, or to a group (R296, R299, Table 12.2), its padding and its
FCS. PRESUMED, log 138. -/
def State.frameBytes (s : State) (typ far : Nat) (p : FalramPkt) : List Byte :=
  let pkt := packetBytes typ p ++ leBytes 4 p.crc
  let dst := if !p.mcast then macOf far p.dst
             else if s.fabric.udp then 0x3333 * 2 ^ 32 + p.address % 2 ^ 32 else p.address
  let tag := if s.odG 0x6100 7 = 0 then [] else [0x81, 0x00] ++ bigBytes 2 (s.odG 0x6100 7)
  let body :=
    if s.fabric.udp then
      let src := s.fabricAddr p.link s.fabric.devId
      [0x86, 0xDD] ++ ipBytes src p.address (udpBytes src p.address (49152 + p.stream % 16384) (s.odG 0x6100 3) pkt)
    else [0x88, 0xB5] ++ pkt
  let f := bigBytes 6 dst ++ bigBytes 6 (macOf p.link s.fabric.devId) ++ tag ++ body
  let g := f ++ List.replicate (60 - f.length) 0
  g ++ leBytes 4 (etherFcs g)

/-- A packet leaves on the links of R302, where one is up, with its CRC-32C, in its frame. -/
def State.sendPkt (s : State) (typ : Nat) (p : FalramPkt) : State :=
  let up := s.odG 0x6100 6
  if !s.fabricOn || up = 0 then s
  else
    let far := pickLink (((s.peer p.dst).map (fun e => e.mask)).getD 1) p.psn
    let q := { p with link := pickLink up p.psn, len := p.payload.length,
                      address := if p.mcast then s.groupAddr p.dst else s.fabricAddr far p.dst }
    let w := { q with crc := crc32c (packetBytes typ q) }
    (s.emit (.falram typ w (s.frameBytes typ far w))).odAdd 0x6100 0xC 1

/-- IV of a packet (R306). -/
def packetIv (p : FalramPkt) : List Byte := leBytes 2 p.srcDev ++ leBytes 4 p.stream ++ leBytes 4 p.psn ++ leBytes 2 0

/-- Link key of a partition's slot. -/
def linkKey (P : Partition) (kslot : Nat) : Option (List Byte) := mfind P.keys (0x10 + kslot)

/-- A packet encrypted under a link key, with its ICV over header and ciphertext (R306). -/
def encPkt (key : List Byte) (kslot typ : Nat) (p : FalramPkt) : FalramPkt :=
  let q := { p with enc := true, kslot := kslot, len := p.payload.length, payload := gcmCrypt key (packetIv p) p.payload }
  { q with icv := gcmTag key (packetIv p) (headerBytes typ q) q.payload }

/-- The tag of an encrypted packet holds under a link key (R306). -/
def icvOk (key : List Byte) (typ : Nat) (p : FalramPkt) : Bool :=
  p.icv == gcmTag key (packetIv p) (headerBytes typ p) p.payload

/-- A packet sent under a partition's key slot where the stream is encrypted. -/
def State.sendSealed (s : State) (part kslot : Nat) (enc : Bool) (typ : Nat) (p : FalramPkt) : State :=
  match (if enc then linkKey (s.part part) kslot else none) with
  | some k => s.sendPkt typ (encPkt k kslot typ p)
  | none => s.sendPkt typ p

/-- HELLO to a device (R301). -/
def State.sendHello (s : State) (dev : Nat) : State :=
  let body := leBytes 2 (s.odG 0x1010 3) ++ leBytes 2 (s.odG 0x1011 3) ++ leBytes 4 (s.odG 0x6100 6) ++ leBytes 8 0
  s.sendPkt 1 { s.newPkt dev with vmaj := 0, vmin := 0, payload := body }

/-- A NAK to the sender of a packet (R308): at most one to a device in 10 µs, the others suppressed; encrypted where it
concerns an encrypted stream of a partition. DESIGN CHOICE, log 113. -/
def State.nak (s : State) (p : FalramPkt) (status : Nat) (part : Option (Nat × Nat)) : State :=
  let s1 := s.odAdd 0x6100 0x12 1
  let soon := match mfind s.fabric.nakAt p.srcDev with
    | none => false
    | some t => decide (s.clkTime < t + 10 * cyclesPerUs)
  if soon then s1
  else
    let s2 := { s1 with fabric := { s1.fabric with nakAt := mput s1.fabric.nakAt p.srcDev s.clkTime } }
    let q := { s2.newPkt p.srcDev with stream := p.stream, psn := p.psn, status := status, payload := leBytes 4 p.psn }
    match part with
    | some (n, kslot) => s2.sendSealed n kslot true 7 q
    | none => s2.sendPkt 7 q

/-- A peer violation (Table 12.7): logged, counted, answered. -/
def State.peerFault (s : State) (p : FalramPkt) (status : Nat) (part : Option (Nat × Nat)) : State :=
  let s1 := (s.odAdd 0x6100 0x11 1).log { rule := 308, status := status, sev := 1, source := 6, data := [p.srcDev, p.stream, p.psn] }
  s1.nak p status part

/-! ### Sending streams (R303, R305, R307) -/

/-- DATA packets of a stream: PSN 1 to this number. -/
def packetsOf (len : Nat) : Nat := ceilDiv len 8192

/-- The lowest PSN that some receiver has not acknowledged. -/
def lowPsn (t : TxStream) : Nat := t.receivers.foldl (fun m r => min m r.cum) (packetsOf t.len + 1)

/-- A sending stream changed. -/
def State.modTx (s : State) (k : Nat) (f : TxStream → TxStream) : State :=
  match mfind s.fabric.tx k with
  | none => s
  | some t => { s with fabric := { s.fabric with tx := mput s.fabric.tx k (f t) } }

/-- A sending stream ends with a status (R307); the failure of a chain's is remembered by its stage (R268). -/
def State.endTx (s : State) (k code : Nat) : State :=
  match mfind s.fabric.tx k with
  | none => s
  | some t =>
    let p := k % 32
    let s1 := { s with fabric := { s.fabric with tx := mdel s.fabric.tx k } }
    if t.chain then
      match (s.part p).cmd with
      | .stage h src source len got next bad =>
        s1.modPart p (fun P => { P with cmd := .stage h src source len got next (bad || code != 0) })
      | _ => s1
    else ((s1.odSetP 0x6110 2 p 0).odSetP 0x6110 3 p code).odSetP 0x6110 4 p 0

/-- A sending stream is closed early: CLOSE with a status to its receivers, and its end with a code. -/
def State.closeTx (s : State) (k status code : Nat) : State :=
  match mfind s.fabric.tx k with
  | none => s
  | some t =>
    let q := { s.pktTo t.dst t.group with stream := t.stream, status := status }
    (if t.next = 0 then s else s.sendSealed (k % 32) t.kslot t.enc 8 q).endTx k code

/-- OPEN (PSN 0) or a DATA packet of a stream, to its destination or, as a retransmission, to one receiver (R305). -/
def State.sendPsn (s : State) (k psn : Nat) (only : Option Nat) : State :=
  match mfind s.fabric.tx k with
  | none => s
  | some t =>
    let p := k % 32
    let off := (psn - 1) * 8192
    let n := min 8192 (t.len - off)
    let z := if psn = 0 then (s, leBytes 8 t.len ++ leBytes 8 0, 0)
             else s.stackRead p ((handleOf (s.part p) t.handle).addr + off) n []
    if z.2.2 ≠ 0 then
      let s1 := if z.2.2 = 0x0404 then z.1.damage p t.handle else z.1
      s1.closeTx k z.2.2 z.2.2
    else
      let again := match mfind t.sent psn with
        | none => 0
        | some e => e.1
      let q := { s.pktTo (only.getD t.dst) (t.group && only.isNone) with
                   stream := t.stream, psn := psn, offset := if psn = 0 then 0 else off,
                   last := psn != 0 && psn == packetsOf t.len, payload := z.2.1 }
      let s1 := z.1.modTx k (fun t => { t with sent := mput t.sent psn (again + 1, s.clkTime) })
      let s2 := if again = 0 then s1 else s1.odAdd 0x6100 0xE 1
      s2.sendSealed p t.kslot t.enc (if psn = 0 then 4 else 5) q

/-- Bytes of the running stage of a partition that stand in its range without a gap. -/
def State.storedTo (s : State) (p : Nat) : Nat :=
  match (s.part p).cmd with
  | .stage _ _ _ len got _ _ =>
    match mfind s.fabric.rx p with
    | some r => min len ((r.cum - 1) * 8192)
    | none => got
  | _ => 0

/-- The bytes of a packet stand in the store: always for a send; for a chain once its 16 MiB chunk is written (R268). -/
def State.psnReady (s : State) (k : Nat) (t : TxStream) (psn : Nat) : Bool :=
  if !t.chain then true
  else
    match (s.part (k % 32)).cmd with
    | .stage h _ _ len _ _ _ =>
      h != t.handle || decide (min len (((psn - 1) * 8192 / 2 ^ 24 + 1) * 2 ^ 24) ≤ s.storedTo (k % 32))
    | _ => true

/-- A stream moves on: OPEN, then DATA within the window (R303), then its end when every packet is acknowledged. -/
def State.pumpTx (s : State) (k fuel : Nat) : State :=
  match fuel with
  | 0 => s
  | fuel + 1 =>
    match mfind s.fabric.tx k with
    | none => s
    | some t =>
      let n := packetsOf t.len
      let low := lowPsn t
      let show' := fun (v : Nat) (s : State) => if t.chain then s else s.odSetP 0x6110 2 (k % 32) v
      if t.phase = 1 then s
      else if t.next = 0 then ((s.modTx k (fun t => { t with next := 1 })).sendPsn k 0 none).pumpTx k fuel
      else if n + 1 ≤ low then s.endTx k (if t.dropped then 0x0B0D else 0)
      else if low = 0 then s
      else if n < t.next then show' 3 (s.modTx k (fun t => { t with phase := 3 }))
      else if t.next < low + 2048 ∧ s.psnReady k t t.next = true then
        ((s.modTx k (fun t => { t with next := t.next + 1 })).sendPsn k t.next none).pumpTx k fuel
      else s

/-- A stream goes on as far as its window lets it. -/
def State.runTx (s : State) (k : Nat) : State := s.pumpTx k 2056

/-- Number of the next stream under a partition's key slot (R303, R306): beyond those used under the key, and none that
another open stream of the device has. DESIGN CHOICE, log 113. -/
def State.nextStream (s : State) (p kslot : Nat) : Nat :=
  let n := mget 0 (s.part p).streams kslot
  (((List.range 65).map (fun i => n + i)).find? (fun k => !s.fabric.tx.any (fun e => e.2.stream == k))).getD n

/-- The refusal of a new sending stream of a partition (R306, R307, steps 2 to 5), or 0. -/
def State.txRefusal (s : State) (p dst : Nat) (group : Bool) : Nat :=
  let P := s.part p
  let kslot := s.odEff 0x6111 1 p
  let key := linkKey P kslot
  let must := s.isSealed p || s.odEff 0x6111 2 p == 1
  if !s.fabricOn || s.odG 0x6100 6 = 0 then 0x0B08
  else if (must && key.isNone) || decide (2 ^ 32 ≤ s.nextStream p kslot) then 0x0B04
  else if 64 ≤ s.fabric.tx.length then 0x0B0B
  else if group then 0
  else if s.fabric.unusable.contains dst then 0x0008
  else if (s.peer dst).isNone then 0x0B01
  else 0

/-- A sending stream of a partition starts (R303, R305): to a group after its joins, else at once. -/
def State.openTx (s : State) (k handle dst : Nat) (group chain : Bool) : State :=
  let p := k % 32
  let P := s.part p
  let kslot := s.odEff 0x6111 1 p
  let n := s.nextStream p kslot
  let t : TxStream :=
    { handle := handle, group := group, dst := dst, stream := n, enc := (linkKey P kslot).isSome, kslot := kslot,
      len := (handleOf P handle).len, chain := chain, phase := if group then 1 else 2,
      receivers := if group then [] else [{ dev := dst }] }
  let s1 := s.modPart p (fun P => { P with streams := mset 0 P.streams kslot (n + 1) })
  let s2 := { s1 with fabric := { s1.fabric with tx := mput s1.fabric.tx k t } }
  let s3 := if chain then s2 else (s2.odSetP 0x6110 2 p t.phase).odSetP 0x6110 4 p t.receivers.length
  s3.runTx k

/-- A receiver of a stream fails with a code (R305): a unicast stream ends with it; a group goes on without it. -/
def State.failReceiver (s : State) (k dev code : Nat) : State :=
  match mfind s.fabric.tx k with
  | none => s
  | some t =>
    if !t.receivers.any (fun r => r.dev == dev) then s
    else if !t.group then s.endTx k code
    else
      let left := t.receivers.filter (fun r => r.dev != dev)
      ((s.modTx k (fun t => { t with receivers := left, dropped := true })).odSetP 0x6110 4 (k % 32) left.length).runTx k

/-- A handle that a running send or the forwarding of a chain reads (R307). -/
def State.sending (s : State) (p h : Nat) : Bool :=
  s.fabric.tx.any (fun e => e.1 % 32 == p && e.2.handle == h)

/-- A stage from a group joins or leaves it (R297): an MLDv2 report in UDP mode. -/
def State.reportGroup (s : State) (p : Nat) (joined : Bool) : State :=
  match (s.part p).cmd with
  | .stage _ 1 source _ _ _ _ =>
    if s.fabric.udp && s.fabricOn then s.emit (.mld (source % 65536) joined) else s
  | _ => s

/-- The receiving stream of a partition ends. -/
def State.dropRx (s : State) (p : Nat) : State :=
  { s with fabric := { s.fabric with rx := mdel s.fabric.rx p } }

/-- A receiving stream is open: it lacks a packet (R303). -/
def rxOpen (r : RxStream) : Bool := decide (r.cum ≤ packetsOf r.len)

/-- A stage ends with a code: what the fabric sends and receives for it ends with it (R267, R307). -/
def State.endStage (s : State) (p code : Nat) : State :=
  (((s.closeTx (p + 32) 0x0B0A code).dropRx p).reportGroup p false).endModelCmd p code

/-- The running model command of a partition ends with a code, as a stage or an install. -/
def State.endModel (s : State) (p code : Nat) : State :=
  match (s.part p).cmd with
  | .none => s
  | .stage _ _ _ _ _ _ _ => s.endStage p code
  | .install _ _ _ _ _ _ _ => s.endModelCmd p code

end Sys2Proof.Machine
end

