-- ==== Sys2Proof/Machine/Loader.lean ====
section
/-!
DEFINITION. The program part of a Hamper (R184–R191, R194): its sections and records, the checks of Table 7.12, its
relocation, and its writing into the tiles of a frame.
-/

namespace Sys2Proof.Machine

/-! ### Sections and records -/

/-- The section table of a program part. -/
def progSections (b : List Byte) : List Section' :=
  (List.range (fieldN b 14 2)).map (fun i =>
    { typ := fieldN b (64 + 32 * i) 2, image := fieldN b (68 + 32 * i) 4, off := fieldN b (72 + 32 * i) 8,
      len := fieldN b (80 + 32 * i) 8 })

/-- A placement record (Table 7.11). -/
structure Placed where
  fx : Nat
  fy : Nat
  image : Nat
  role : Nat
  stage : Nat
deriving DecidableEq, Repr

/-- A route record (Table 7.11). -/
structure RouteRec where
  fx : Nat
  fy : Nat
  route : Nat
  cond : Nat
  arg : Nat
  entry : Nat
deriving DecidableEq, Repr

/-- Bytes in records of a size. -/
def recordsOf (n : Nat) (b : List Byte) : List (List Byte) := (List.range (b.length / n)).map (fun i => sliceB b (n * i) n)

/-- The bytes of all sections of a type, in table order. -/
def ofType (b : List Byte) (typ : Nat) : List (List Byte) :=
  ((progSections b).filter (fun x => x.typ == typ)).map (sectBytes b)

/-- A placement record. -/
def placedRec (r : List Byte) : Placed :=
  { fx := fieldN r 0 1, fy := fieldN r 1 1, image := fieldN r 2 2, role := fieldN r 4 1, stage := fieldN r 6 2 }

/-- A route record. -/
def routeRec (r : List Byte) : RouteRec :=
  { fx := fieldN r 0 1, fy := fieldN r 1 1, route := fieldN r 2 1, cond := fieldN r 3 1, arg := fieldN r 4 2,
    entry := fieldN r 6 2 }

def placedOf (b : List Byte) : List Placed := ((ofType b 1).flatMap (recordsOf 8)).map placedRec

def routesOf (b : List Byte) : List RouteRec := ((ofType b 7).flatMap (recordsOf 8)).map routeRec

/-- SPAD records: offset and bytes; none if they do not fill the section. -/
def spadRecords (fuel : Nat) (b : List Byte) : Option (List (Nat × List Byte)) :=
  match fuel with
  | 0 => if b.isEmpty then some [] else none
  | fuel + 1 =>
    if b.isEmpty then some []
    else if b.length < 8 + fieldN b 4 4 then none
    else (spadRecords fuel (b.drop (8 + fieldN b 4 4))).map (fun l => (fieldN b 0 4, sliceB b 8 (fieldN b 4 4)) :: l)

/-- The SPAD records of a section. -/
def spadOf (b : List Byte) : Option (List (Nat × List Byte)) := spadRecords (b.length / 8 + 1) b

/-! ### Checks (Table 7.12) -/

/-- Fields of a frame at an origin, those outside the wafer included as numbers from 64. -/
def frameFields (b : List Byte) (ox oy : Nat) : List Nat :=
  (List.range (fieldN b 11 1)).flatMap (fun r => (List.range (fieldN b 10 1)).map (fun c =>
    if ox / 20 + c < 8 ∧ oy / 20 + r < 8 then 8 * (oy / 20 + r) + ox / 20 + c else 64))

/-- The mask of a list of fields. -/
def maskOf (l : List Nat) : Nat := l.foldl (fun m f => if f < 64 then setBit m f true else m) 0

/-- Step 1: the header (Table 7.9). -/
def progHeaderBad (b : List Byte) : Bool :=
  decide (b.length < 64) || sliceB b 0 4 != asciiB "GVXP" || (fieldN b 8 1 != 1 && fieldN b 8 1 != 2) ||
    decide (1 < fieldN b 9 1) || !decide (1 ≤ fieldN b 10 1 ∧ fieldN b 10 1 ≤ 8) ||
    !decide (1 ≤ fieldN b 11 1 ∧ fieldN b 11 1 ≤ 8) || !decide (1 ≤ fieldN b 12 2 ∧ fieldN b 12 2 ≤ 4096) ||
    decide (255 < fieldN b 16 2) || !zeroRange b 20 44

/-- The entry that a record names exists in the frame. -/
def frameHas (b : List Byte) (fx fy : Nat) : Bool :=
  decide (fx < 20 * fieldN b 10 1) && decide (fy < 20 * fieldN b 11 1)

/-- A placement record names a tile of the frame, an image and a role (Table 7.11). -/
def placedBad (b : List Byte) (r : List Byte) : Bool :=
  !frameHas b (fieldN r 0 1) (fieldN r 1 1) || decide (fieldN b 12 2 ≤ fieldN r 2 2) || decide (5 < fieldN r 4 1) ||
    fieldN r 5 1 != 0

/-- A route record names a router of the frame, a program route and a condition (Table 7.11). -/
def routeBad (b : List Byte) (r : List Byte) : Bool :=
  let fx := fieldN r 0 1
  let spare := decide (0xC0 ≤ fx) && decide (fx < 0xC0 + fieldN b 10 1) && decide (fieldN r 1 1 < 20 * fieldN b 11 1)
  let argBad :=
    match fieldN r 3 1 with
    | 0 => fieldN r 4 2 != 0
    | 1 => !frameHas b (fieldN r 4 1) (fieldN r 5 1)
    | 2 => decide (63 < fieldN r 4 2) || decide (fieldN b 10 1 ≤ fieldN r 4 2 % 8) || decide (fieldN b 11 1 ≤ fieldN r 4 2 / 8)
    | _ => true
  !(frameHas b fx (fieldN r 1 1) || spare) || fieldN r 2 1 == 0 || decide (fieldN b 16 2 < fieldN r 2 1) || argBad ||
    bits (fieldN r 6 2) 13 10 != 0

/-- A section of a program part that serves a number of images is malformed (R185, R186, R190). -/
def sectionBad (b : List Byte) (images i : Nat) (x : Section') : Bool :=
  let e := sliceB b (64 + 32 * i) 32
  let c := sectBytes b x
  let imageOk := x.image == 0xFFFFFFFF || decide (x.image < images)
  let body :=
    match x.typ with
    | 1 => c.length % 8 != 0 || (recordsOf 8 c).any (placedBad b)
    | 4 => (spadOf c).isNone
    | 5 => c.length % 8 != 0 || (recordsOf 8 c).any (fun r => fieldN r 2 2 != 0)
    | 6 => c.length % 16 != 0
    | 7 => c.length % 8 != 0 || (recordsOf 8 c).any (routeBad b)
    | 8 => c.length % 16 != 0 || (recordsOf 16 c).any (fun r =>
        !decide (1 ≤ fieldN r 0 1 ∧ fieldN r 0 1 ≤ 5) || decide (3 < fieldN r 1 1) || decide (fieldN b 14 2 ≤ fieldN r 2 2) ||
          !zeroRange r 12 4)
    | _ => false
  !decide (1 ≤ x.typ ∧ x.typ ≤ 9) || !zeroRange e 2 2 || !zeroRange e 24 8 || !imageOk ||
    decide (b.length < x.off + x.len) || body

/-- Step 5: section table and records, request cores and fault sink (R183, R185). DESIGN CHOICE, log 48, 49. -/
def progMalformed (b : List Byte) : Bool :=
  let cores := (placedOf b).filter (fun r => r.role == 3)
  decide (b.length < 64 + 32 * fieldN b 14 2) ||
    ((progSections b).mapIdx (fun i x => sectionBad b (fieldN b 12 2) i x)).any id ||
    !((placedOf b).map (fun r => (r.fx, r.fy))).Nodup ||
    cores.isEmpty || decide (16 < cores.length) ||
    !cores.any (fun r => r.fx == fieldN b 18 1 && r.fy == fieldN b 19 1)

/-- Step 8: sizes. -/
def progTooLarge (b : List Byte) : Bool :=
  (progSections b).any (fun x =>
    match x.typ with
    | 2 => decide (65536 < x.len)
    | 3 => decide (32768 < x.len)
    | 4 => ((spadOf (sectBytes b x)).getD []).any (fun r => decide (2097152 < r.1 + r.2.length))
    | 6 => decide (8192 < x.len / 16)
    | _ => false)

/-- The physical column of a field row that no logical position has: the row spare, or the retired column. -/
def State.spareColumn (s : State) (y c : Nat) : Nat :=
  ((List.range 21).find? (fun k => !(List.range 20).any (fun i => s.rowMapGet y c i == k))).getD 20

/-- The router that a route record names. -/
def State.routerOf (s : State) (ox oy : Nat) (r : RouteRec) : TileId :=
  if 0xC0 ≤ r.fx then
    let c := ox / 20 + (r.fx - 0xC0)
    ⟨21 * c + s.spareColumn (oy + r.fy) c, oy + r.fy⟩
  else s.physical (ox + r.fx) (oy + r.fy)

/-- Two records may be in force together. -/
def together (a b : RouteRec) : Bool := a.cond == 0 || b.cond == 0 || (a.cond == b.cond && a.arg == b.arg)

/-- Two records break R155 or R156 between them: one router holds two entries of a route, or two PRIO routes share an
output. -/
def recordsClash (a b : RouteRec × TileId) : Bool :=
  a.2 == b.2 && (
    (a.1.route == b.1.route && a.1.cond == b.1.cond && a.1.arg == b.1.arg) ||
    (a.1.route != b.1.route && together a.1 b.1 && bit a.1.entry 15 && bit b.1.entry 15 &&
      (a.1.entry &&& b.1.entry) % 32 != 0))

/-- Each record is clear of every later one. -/
def clashFree (l : List (RouteRec × TileId)) : Bool :=
  match l with
  | [] => true
  | a :: r => !r.any (recordsClash a) && clashFree r

/-- The entries of one route tree by router. -/
abbrev Tree := List (TileId × Nat)

/-- Ports of an entry's IN and OUT. -/
def entryIn (e : Nat) : List Dir := dirsOf (bits e 9 5)

def entryOut (e : Nat) : List Dir := dirsOf (bits e 4 0)

/-- The input port of another entry of the tree that an output leads to. -/
def treeNext (l : Tree) (t : TileId) (d : Dir) : Option (TileId × Dir) :=
  match neighbour t d with
  | none => none
  | some n => if l.any (fun e => e.1 == n && (entryIn e.2).contains (arrival d)) then some (n, arrival d) else none

/-- Input ports that flits of an injecting member reach, after `n` rounds from those already known. -/
def treeReached (l : Tree) (known : List (TileId × Dir)) (n : Nat) : List (TileId × Dir) :=
  match n with
  | 0 => known
  | n + 1 =>
    let next := l.flatMap (fun e =>
      if (entryIn e.2).any (fun p => known.contains (e.1, p)) then (entryOut e.2).filterMap (treeNext l e.1) else [])
    treeReached l (known ++ next.filter (fun x => !known.contains x)).eraseDups n

/-- Routers from which an ejecting member is reached, after `n` rounds. -/
def treeEjects (l : Tree) (known : List TileId) (n : Nat) : List TileId :=
  match n with
  | 0 => known
  | n + 1 =>
    let next := (l.filter (fun e => (entryOut e.2).any (fun d =>
      (treeNext l e.1 d).elim false (fun x => known.contains x.1)))).map (·.1)
    treeEjects l (known ++ next.filter (fun x => !known.contains x)).eraseDups n

/-- A route tree makes the turn that R146 and R156 forbid, from x into y, on a path from an injecting to an ejecting
member. DEDUCED, log 42. -/
def xyTurn (l : Tree) : Bool :=
  let from0 := treeReached l ((l.filter (fun e => (entryIn e.2).contains .l)).map (fun e => (e.1, Dir.l))) l.length
  let to0 := treeEjects l ((l.filter (fun e => (entryOut e.2).contains .l)).map (·.1)) l.length
  l.any (fun e =>
    [Dir.w, Dir.e].any (fun p => (entryIn e.2).contains p && from0.contains (e.1, p)) &&
      [Dir.s, Dir.n].any (fun d => (entryOut e.2).contains d && (treeNext l e.1 d).elim false (fun x => to0.contains x.1)))

/-- A route number is free for a partition at the routers used: no valid entry of another partition. -/
def State.routeFree (s : State) (p n : Nat) (rs : List TileId) : Bool :=
  rs.all (fun t => let e := s.routeEntry t n; !bit e 31 || bits e 28 24 == p)

/-- Partition route numbers for the program's routes, each the lowest that is free (step 9); none if one has none. -/
def State.mapRoutes (s : State) (p : Nat) (l : List (RouteRec × TileId)) (todo : List Nat) (m : List (Nat × Nat)) :
    Option (List (Nat × Nat)) :=
  match todo with
  | [] => some m
  | r :: rest =>
    let rs := (l.filter (fun e => e.1.route == r)).map (fun e => e.2)
    match (List.range 255).find? (fun i => !m.any (fun e => e.2 == i + 1) && s.routeFree p (i + 1) rs) with
    | none => none
    | some i => s.mapRoutes p l rest (m ++ [(r, i + 1)])

/-- Route records with their routers. -/
def State.routeRecs (s : State) (b : List Byte) (ox oy : Nat) : List (RouteRec × TileId) :=
  (routesOf b).map (fun r => (r, s.routerOf ox oy r))

/-- Program route numbers in use, ascending. -/
def usedRoutes (l : List (RouteRec × TileId)) : List Nat :=
  (List.range 256).filter (fun r => l.any (fun e => e.1.route == r))

/-- The trees of a route: its primary entries, and for each alternate set these with the alternates in their places. -/
def treesOf (l : List (RouteRec × TileId)) (r : Nat) : List Tree :=
  let mine := l.filter (fun e => e.1.route == r)
  let prim := (mine.filter (fun e => e.1.cond == 0)).map (fun e => (e.2, e.1.entry))
  let sets := ((mine.filter (fun e => e.1.cond != 0)).map (fun e => (e.1.cond, e.1.arg))).eraseDups
  prim :: sets.map (fun c =>
    let alt := (mine.filter (fun e => (e.1.cond, e.1.arg) == c)).map (fun e => (e.2, e.1.entry))
    alt ++ prim.filter (fun e => !alt.any (fun a => a.1 == e.1)))

/-- The route map of a program at an origin (step 9), none where it is refused. -/
def State.routeMap (s : State) (p : Nat) (b : List Byte) (ox oy : Nat) : Option (List (Nat × Nat)) :=
  let l := s.routeRecs b ox oy
  if (usedRoutes l).any (fun r => (treesOf l r).any xyTurn) || !clashFree l then none else s.mapRoutes p l (usedRoutes l) []

/-! ### Relocation (R190) -/

/-- Bytes replaced at an offset. -/
def putBytes (b : List Byte) (off : Nat) (v : List Byte) : List Byte := b.take off ++ v ++ b.drop (off + v.length)

/-- What a relocation needs to know: origin, address of the stored Hamper, size of the model store, route map. -/
structure RelocEnv where
  ox : Nat
  oy : Nat
  store : Nat
  limit : Nat
  routes : List (Nat × Nat)
deriving DecidableEq, Repr

/-- One relocation record applied to the section contents; none where it is refused. DESIGN CHOICE, log 49. -/
def relocate (env : RelocEnv) (l : List (List Byte)) (r : List Byte) : Option (List (List Byte)) :=
  let typ := fieldN r 0 1
  let value := fieldN r 1 1
  let i := fieldN r 2 2
  let off := fieldN r 4 4
  let addend := signed 32 (fieldN r 8 4)
  let c := l.getD i []
  let v? : Option Nat :=
    match value with
    | 0 => some env.ox
    | 1 => some env.oy
    | 2 => some env.store
    | _ => (env.routes.find? (fun e => (e.1 : Int) == addend)).map (fun e => e.2)
  let width := if typ ≤ 2 then 1 else if typ = 3 then 8 else 4
  match v? with
  | none => none
  | some v =>
    if c.length < off + width then none
    else
      let sum : Int := v + addend
      let put := fun (b : List Byte) => some (l.set i (putBytes c off b))
      match typ with
      | 1 =>
        let n := fieldN c off 1 + v
        if value < 2 ∧ 159 < n then none else put (leBytes 1 (n % 256))
      | 2 => put (leBytes 1 (v % 256))
      | 3 =>
        let w := fieldN c off 8
        let n := ((w % 2 ^ 44 : Nat) : Int) + sum
        if n < 0 ∨ (env.limit : Int) ≤ n then none else put (leBytes 8 (w / 2 ^ 44 * 2 ^ 44 + n.toNat))
      | 4 => put (leBytes 2 (unsign 32 sum / 65536))
      | _ => put (leBytes 2 (unsign 32 sum % 65536))

/-- Every relocation of a program applied to its sections in order; none where one is refused (step 10). -/
def relocated (env : RelocEnv) (b : List Byte) : Option (List (List Byte)) :=
  ((ofType b 8).flatMap (recordsOf 16)).foldl (fun l r => l.bind (fun l => relocate env l r))
    (some ((progSections b).map (sectBytes b)))

/-- What relocations of a partition's program see. -/
def State.relocEnv (s : State) (p ox oy store : Nat) (m : List (Nat × Nat)) : RelocEnv :=
  { ox := ox, oy := oy, store := store, limit := s.regionSize p 0, routes := m }

/-- The first refusal of Table 7.12 for a program part at an origin, or 0. -/
def State.progCode (s : State) (p : Nat) (b : List Byte) (ox oy store : Nat) : Nat :=
  let v := min (fieldN b 4 2) (s.odG 0x1010 5)
  let fs := frameFields b ox oy
  let ov := s.overlay p
  if progHeaderBad b then 0x0002
  else if v < fieldN b 6 2 ∨ v < s.odG 0x1011 5 then 0x0008
  else if (ov = 0 ∧ fieldN b 9 1 = 1) ∨ (ov = 1 ∧ fieldN b 9 1 = 0) then 0x0004
  else if fs.any (fun f => decide (f < 64) && !s.fieldOn f) then 0x000B
  else if progMalformed b then 0x0310
  else if fieldN b 8 1 = 2 ∧ s.stepping = 0xA0 then 0x0312
  else if ox % 20 ≠ 0 ∨ oy % 20 ≠ 0 ∨ fs.any (fun f => !(decide (f < 64) && bit (s.partMask p) f)) = true then 0x0313
  else if progTooLarge b then 0x0314
  else
    match s.routeMap p b ox oy with
    | none => 0x0508
    | some m => if (relocated (s.relocEnv p ox oy store m) b).isNone then 0x0311 else 0

/-! ### Digest (R187) -/

/-- Program digest: header, section table and every loaded section, before relocation. -/
def progDigest (b : List Byte) : List Byte :=
  sha256 (b.take (64 + 32 * fieldN b 14 2) ++
    ((progSections b).filter (fun x => x.typ != 9)).flatMap (sectBytes b))

/-! ### Writing (step 11) -/

/-- Relocated contents of the sections of a type that serve an image. -/
def imageSections (b : List Byte) (cs : List (List Byte)) (typ image : Nat) : List (List Byte) :=
  (((progSections b).zip cs).filter (fun e => e.1.typ == typ && (e.1.image == image || e.1.image == 0xFFFFFFFF))).map (·.2)

/-- Relocated contents of all sections of a type. -/
def typedSections (b : List Byte) (cs : List (List Byte)) (typ : Nat) : List (List Byte) :=
  (((progSections b).zip cs).filter (fun e => e.1.typ == typ)).map (·.2)

/-- The placement and route records as relocated; one that a relocation takes out of the frame names nothing.
DESIGN CHOICE, log 49. -/
def placedIn (b : List Byte) (cs : List (List Byte)) : List Placed :=
  (((typedSections b cs 1).flatMap (recordsOf 8)).filter (fun r => !placedBad b r)).map placedRec

def routesIn (b : List Byte) (cs : List (List Byte)) : List RouteRec :=
  (((typedSections b cs 7).flatMap (recordsOf 8)).filter (fun r => !routeBad b r)).map routeRec

/-- REGS records written in order through the management path. -/
def State.writeRegs (s : State) (t : TileId) (b : List Byte) : State :=
  s.forEach (recordsOf 8 b) (fun r s => s.writeTileReg t (fieldN r 0 2) (BitVec.ofNat 32 (fieldN r 4 4)) true)

/-- Channel-table entries from entry 0 on. -/
def State.writeCtab (s : State) (t : TileId) (b : List Byte) : State :=
  s.modCb t (fun cb => ((recordsOf 16 b).mapIdx (fun i r => (i, r))).foldl (fun cb e => (writeChan cb e.1 (chanOf e.2)).1) cb)

/-- SPAD records written, their ranges noted for a rotation (R344). -/
def State.writeSpads (s : State) (t : TileId) (b : List Byte) : State :=
  let l := (spadOf b).getD []
  (s.modSp t (fun q => l.foldl (fun q r => spWrite q r.1 (enabled r.2)) q)).modCc t (fun c =>
    { c with spads := c.spads ++ l.map (fun r => (r.1, r.2.length)) })

/-- One tile written: TEXT, DATA, SPAD, CTAB and REGS of its image, then TV_CFG.TC and CC_CFG. -/
def State.writeTile (s : State) (b : List Byte) (cs : List (List Byte)) (ox oy : Nat) (r : Placed) : State :=
  let t := s.physical (ox + r.fx) (oy + r.fy)
  let sect := fun typ => imageSections b cs typ r.image
  let sink := destNat { rop := 0, route := 0, tileY := oy + fieldN b 19 1, tileX := ox + fieldN b 18 1, window := 5, offset := 0 }
  let s1 := s.modCc t (fun c =>
    { c with isram := (sect 2).foldl (fun m x => mwrite 0 m 0 x) [],
             used := some ((sect 2).foldl (fun n x => max n x.length) 0),
             dsram := (sect 3).foldl (fun m x => mwrite 0 m 0 x) c.dsram, spads := [] })
  let s2 := s1.forEach (sect 4) (fun x s => s.writeSpads t x)
  let s3 := s2.forEach (sect 6) (fun x s => s.writeCtab t x)
  let s4 := s3.forEach (sect 5) (fun x s => s.writeRegs t x)
  (s4.modTv t (fun v => { v with tc := fieldN b 8 1 })).modCc t (fun c =>
    { c with role := r.role, bulk := fieldN b 9 1 == 1, loaded := true, stage := r.stage, fsink := sink })

/-- A route entry of a partition in the form of RT_ROUTE (Table 6.12). -/
def routeWord (p entry : Nat) : Nat :=
  2 ^ 31 + b2n (bit entry 15) * 2 ^ 30 + b2n (bit entry 14) * 2 ^ 29 + p * 2 ^ 24 + entry % 1024

/-- Primary routes written, alternates given to the hub (R186). -/
def State.writeRoutes (s : State) (p : Nat) (l : List RouteRec) (ox oy : Nat) (m : List (Nat × Nat)) : State :=
  s.forEach l (fun e s =>
    let at1 := s.routerOf ox oy e
    let w := routeWord p e.entry
    match m.find? (fun k => k.1 == e.route) with
    | none => s
    | some n =>
      if e.cond = 0 then s.setRoute at1 n.2 w
      else
        let arg := if e.cond = 1 then (ox + e.arg % 256) + 256 * (oy + e.arg / 256)
                   else 8 * (oy / 20 + e.arg / 8) + ox / 20 + e.arg % 8
        let a : Alternate := { part := p, cond := e.cond, arg := arg, router := at1, route := n.2, entry := w }
        { s with mesh := { s.mesh with alternates := s.mesh.alternates ++ [a] } })

/-- Step 11 of Table 7.12: a checked program of a base is written. -/
def State.writeProgram (s : State) (p : Nat) (b : List Byte) (ox oy store : Nat) : State :=
  match s.routeMap p b ox oy with
  | none => s
  | some m =>
    match relocated (s.relocEnv p ox oy store m) b with
    | none => s
    | some cs =>
      let l := placedIn b cs
      let s1 := (s.forEach l (fun r s => s.writeTile b cs ox oy r)).writeRoutes p (routesIn b cs) ox oy m
      let g : Program :=
        { ox := ox, oy := oy, fw := fieldN b 10 1, fh := fieldN b 11 1, bulk := fieldN b 9 1 == 1, tc := fieldN b 8 1,
          tiles := l.map (fun r => (s.physical (ox + r.fx) (oy + r.fy), r.role, r.stage)), digest := progDigest b }
      let s2 := s1.modPart p (fun P => { P with program := some g })
      ((s2.odAdd 0x3500 6 1).odSetP 0x3501 1 p (2 ^ fieldN b 8 1)).odSetP 0x3501 4 p
        (ox + fieldN b 18 1 + 256 * (oy + fieldN b 19 1)) |>.countPadded

/-- The program part of an addition is malformed: it holds CTAB and REGS sections, each of an image of the base (R272). -/
def additionBad (base b : List Byte) : Bool :=
  (progSections b).any (fun x => (x.typ != 5 && x.typ != 6) || x.image == 0xFFFFFFFF) ||
    ((progSections b).mapIdx (fun i x => sectionBad b (fieldN base 12 2) i x)).any id

/-- An addition's CTAB and REGS written to the tiles of the base image they name (R272). -/
def State.writeAddition (s : State) (g : Program) (base b : List Byte) : State :=
  let cs := (progSections b).map (sectBytes b)
  s.forEach (placedOf base) (fun r s =>
    let t := s.physical (g.ox + r.fx) (g.oy + r.fy)
    let s1 := s.forEach (imageSections b cs 6 r.image) (fun x s => s.writeCtab t x)
    s1.forEach (imageSections b cs 5 r.image) (fun x s => s.writeRegs t x))

/-- Release (R191): every core of the partition starts at address 0 with its registers at zero. -/
def State.releaseProgram (s : State) (p : Nat) : State :=
  match (s.part p).program with
  | none => s
  | some g =>
    let start := fun c : Core =>
      { c with regs := [], pc := 0, state := .running, wait := .none, haltDue := 0, haltCause := 0, passBp := false,
               events := 0, msgq := [], timer := 0, timerAt := s.clkTime }
    (s.forEach g.tiles (fun e s => s.modCc e.1 start)).modPart p (fun P =>
      { P with program := some { g with released := true } })

end Sys2Proof.Machine
end

