-- ==== Sys2Proof/Machine/Models.lean ====
section
/-!
DEFINITION. Model images (chapter 10: R258–R279) and the prefix tree's invalidation (R229): staging a Hamper into the
model store, installing it, discarding it, and rejuvenation (R86).
-/

namespace Sys2Proof.Machine

/-! ### The Hamper (R258–R264) -/

/-- The refusal of a Hamper's header (R258, R264), or 0. DESIGN CHOICE, log 50. -/
def State.hamperHeader (s : State) (b : List Byte) : Nat :=
  let v := min (fieldN b 4 2) (s.odG 0x1010 4)
  if sliceB b 0 4 != asciiB "GVXH" || decide (1 < fieldN b 8 1) || decide (3 < fieldN b 9 1) || !zeroRange b 10 2 ||
      !zeroRange b 40 24 then 0x0201
  else if v < fieldN b 6 2 ∨ v < s.odG 0x1011 4 then 0x0008
  else if ¬(1 ≤ fieldN b 12 4 ∧ fieldN b 12 4 ≤ 256) then 0x0203
  else 0

/-- How many sections of a type a Hamper of a KIND may hold: least and most. -/
def sectionLimits (kind typ : Nat) : Nat × Nat :=
  match typ with
  | 0x0101 => if kind = 0 then (1, 1) else (0, 0)
  | 0x0102 => if kind = 0 then (1, 1) else (0, 1)
  | 0x0103 => (1, 256)
  | 0x0104 => if kind = 0 then (0, 1) else (0, 0)
  | 0x0105 => if kind = 0 then (0, 1) else (0, 0)
  | 0x0106 => (0, 256)
  | _ => (0, 0)

/-- Two sections share a byte. -/
def sectsMeet (x y : Section') : Bool := decide (max x.off y.off < min (x.off + x.len) (y.off + y.len))

/-- No section meets a later one. -/
def sectsApart (l : List Section') : Bool :=
  match l with
  | [] => true
  | x :: r => !r.any (sectsMeet x) && sectsApart r

/-- The section table breaks R259; reserved bytes count with it. DESIGN CHOICE, log 48. -/
def sectionTableBad (b : List Byte) : Bool :=
  let n := fieldN b 12 4
  let len := fieldN b 16 8
  let l := hamperSections b
  let kind := fieldN b 8 1
  let count := fun typ => (l.filter (fun x => x.typ == typ)).length
  decide (len < 64 + 32 * n) ||
    (List.range n).any (fun i => !zeroRange b (66 + 32 * i) 6 || !zeroRange b (88 + 32 * i) 8) ||
    l.any (fun x => !decide (0x0101 ≤ x.typ ∧ x.typ ≤ 0x0106) || decide (len < x.off + x.len) ||
      (encrypted x.typ && x.off % 4096 != 0)) ||
    [0x0101, 0x0102, 0x0103, 0x0104, 0x0105, 0x0106].any (fun t =>
      decide (count t < (sectionLimits kind t).1) || decide ((sectionLimits kind t).2 < count t)) ||
    !sectsApart l

/-- The manifest that a MANIFEST section spells (Table 10.4). -/
def manifestOf (m : List Byte) : Manifest :=
  { vocab := fieldN m 0 4, maxCtx := fieldN m 4 4, buckets := fieldN m 8 1, kvForm := fieldN m 9 1, kvBits := fieldN m 10 1,
    kvh := fieldN m 11 1, hd := fieldN m 12 2, layers := fieldN m 14 2, maxActive := fieldN m 16 2,
    tPre := (List.range 6).map (fun i => fieldN m (20 + 4 * i) 4),
    windows := (List.range (fieldN m 14 2)).map (fun i => fieldN m (64 + 4 * i) 4) }

/-- The manifest lies outside the limits of R260 and Table 8.1. DESIGN CHOICE, log 48. -/
def manifestBad (m : List Byte) (bulk : Bool) : Bool :=
  let x := manifestOf m
  !decide (2 ≤ x.vocab ∧ x.vocab ≤ 4194304) || !decide (64 ≤ x.maxCtx ∧ x.maxCtx ≤ 262144) || x.maxCtx % 64 != 0 ||
    x.buckets == 0 || decide (63 < x.buckets) || decide (1 < x.kvForm) || (x.kvBits != 4 && x.kvBits != 8) ||
    !decide (1 ≤ x.kvh ∧ x.kvh ≤ 16) || (x.hd != 64 && x.hd != 128 && x.hd != 256) || (x.kvForm == 1 && x.hd != 128) ||
    !decide (1 ≤ x.layers ∧ x.layers ≤ 1024) || !decide (1 ≤ x.maxActive ∧ x.maxActive ≤ 8192) ||
    (!bulk && x.maxActive != 1) || !zeroRange m 18 2 || !zeroRange m 44 20 || m.length != 64 + 4 * x.layers ||
    x.windows.any (fun w => decide (262144 < w)) ||
    (List.range 6).any (fun i => !bit x.buckets i && (x.tPre.drop i).headD 0 != 0)

/-- Unit hashes of a section's plaintext, one after another. -/
def unitHashes (fuel : Nat) (b : List Byte) : List Byte :=
  match fuel with
  | 0 => []
  | fuel + 1 => if b.isEmpty then [] else sha256 (b.take 4096) ++ unitHashes fuel (b.drop 4096)

/-- Hamper digest (R276). -/
def hamperDigest (key : List Byte) (b : List Byte) : List Byte :=
  sha256 (b.take (64 + 32 * fieldN b 12 4) ++
    (hamperSections b).flatMap (fun x => unitHashes (x.len / 4096 + 1) (plainSection key b x)))

/-! ### The store (R265, R277) -/

/-- Bytes of a handle's range are read: 0, or the code that ends the read; an uncorrectable unit damages the handle. -/
def State.meetRange (s : State) (p h off len : Nat) : State × Nat :=
  let z := s.stackRead p ((handleOf (s.part p) h).addr + off) len []
  if z.2.2 = 0x0404 then (z.1.damage p h, 0x0404) else (z.1, z.2.2)

/-- Sections of a handle read one after another. -/
def State.meetSections (s : State) (p h : Nat) (l : List Section') : State × Nat :=
  match l with
  | [] => (s, 0)
  | x :: r =>
    let z := s.meetRange p h x.off x.len
    if z.2 ≠ 0 then (z.1, z.2) else z.1.meetSections p h r

/-- The lowest start of a free range of a size. -/
def lowestGap (fuel a size : Nat) (used : List (Nat × Nat)) : Nat :=
  match fuel with
  | 0 => a
  | fuel + 1 =>
    match used.find? (fun r => decide (a < r.1 + r.2) && decide (r.1 < a + size)) with
    | none => a
    | some r => lowestGap fuel (r.1 + r.2) size used

/-- Bytes rounded up to 4 096. -/
def unitsUp (n : Nat) : Nat := 4096 * ceilDiv n 4096

/-- The range for a new Hamper in a handle, whose old range counts as free; none where the region cannot hold it. -/
def State.storeRange (s : State) (p h len : Nat) : Option Nat :=
  let used := ((s.part p).handles.filter (fun e => e.1 != h && e.2.st != 0)).map (fun e => (e.2.addr, unitsUp e.2.len))
  let a := lowestGap 17 (s.regionBase p 0) (unitsUp len) used
  if a + unitsUp len ≤ s.regionBase p 0 + s.regionSize p 0 then some a else none

/-! ### Staging (R267, R268) -/

/-- The header of a running stage has arrived: its refusal, or 0. -/
def State.stageHeader (s : State) (b : List Byte) (len : Nat) : Nat :=
  let c := s.hamperHeader b
  if c ≠ 0 then c else if fieldN b 16 8 ≠ len then 0x0003 else 0

/-- A chain forwards what stands in the store: it opens its stream after the first 16 MiB chunk (R307). -/
def State.forwardChain (s : State) (p : Nat) : State :=
  match (s.part p).cmd with
  | .stage h src source len got (some dev) false =>
    if (mfind s.fabric.tx (p + 32)).isSome then s.runTx (p + 32)
    else if s.storedTo p < min len (2 ^ 24) then s
    else if s.txRefusal p dev false ≠ 0 then
      s.modPart p (fun P => { P with cmd := .stage h src source len got (some dev) true })
    else s.openTx (p + 32) h dev false true
  | _ => s

/-- Every byte has arrived: the handle is staged, and the stage ends, with 0x0208 where its forwarding failed. -/
def State.stageDone (s : State) (p h : Nat) : State :=
  let bad := match (s.part p).cmd with
    | .stage _ _ _ _ _ _ bad => bad
    | _ => false
  let s1 := (s.modHandle p h (fun x => { x with st := 2 })).odAdd 0x5200 0xD 1
  (s1.reportGroup p false).endModelCmd p (if bad then 0x0208 else 0)

/-- Bytes of a stage arrive at an offset of the Hamper and are stored. DESIGN CHOICE, log 51. -/
def State.stageBytes (s : State) (p off : Nat) (bytes : List Byte) : State :=
  match (s.part p).cmd with
  | .stage h src source len got next bad =>
    let b := bytes.take (len - off)
    let addr := (handleOf (s.part p) h).addr
    let z := s.stackWrite p (addr + off) b []
    if z.2.2 ≠ 0 then z.1.endStage p z.2.2
    else
      let n := got + b.length
      let s1 := (z.1.modPart p (fun P => { P with cmd := .stage h src source len n next bad })).odSetP 0x5200 4 p n
      let head := s1.stackBytes p addr 64
      let now := decide (off < 64) && decide (64 ≤ off + b.length)
      let code := if now then s1.stageHeader head len else 0
      if code ≠ 0 then s1.endStage p code
      else
        let s2 := if now then s1.modHandle p h (fun x => { x with kind := fieldN head 8 1, baseId := sliceB head 24 16 }) else s1
        let s3 := s2.forwardChain p
        if len ≤ n then s3.stageDone p h else s3
  | _ => s

/-- A running stage of another partition names the same group or sender (R304). -/
def State.stageNamed (s : State) (src source : Nat) : Bool :=
  s.parts.any (fun e => match e.2.cmd with
    | .stage _ src' source' _ _ _ _ => src' == src && source' % 65536 == source % 65536
    | _ => false)

/-- STAGE (R267): its checks, the range, and the first read of host memory or the wait for the fabric. A damaged handle
that is still the installed base waits for another install (R277).
DESIGN CHOICE, log 52. -/
def State.startStage (s : State) (p : Nat) (c : List Byte) : State × Nat :=
  let h := fieldN c 2 1 % 16
  let src := fieldN c 1 1 % 4
  let source := fieldN c 8 8
  let len := fieldN c 16 8
  let H := handleOf (s.part p) h
  if len < 64 then (s, 0x0003)
  else if H.st = 3 ∨ H.st = 4 ∨ (H.st = 5 ∧ s.odP 0x5200 7 p = h) ∨ s.sending p h = true then (s, 0x0209)
  else if src ≠ 0 ∧ s.stageNamed src source = true then (s, 0x0B09)
  else if src = 0 ∧ s.hostReadBar p ≠ 0 then (s, s.hostReadBar p)
  else
    match s.storeRange p h len with
    | none => (s, 0x020A)
    | some a =>
      let next := if src = 2 ∧ bit (fieldN c 1 1) 2 = true then some (fieldN c 24 2) else none
      let s1 := (s.modHandle p h (fun _ => { st := 1, addr := a, len := len })).modPart p (fun P =>
        { P with cmd := .stage h src source len 0 next false })
      let s2 := ((s1.dropRx p).odSetP 0x5200 2 p 1).odSetP 0x5200 4 p 0
      if src = 0 then
        let u := coverUnits source len
        (s2.emit (.hostRead (s2.boundPort p) (p + 1) u.1 u.2 (.stage p)), 0)
      else (s2.reportGroup p true, 0)

/-! ### Installing (Table 10.7) -/

/-- Steps 1 to 3 of an install. -/
def State.installCode (s : State) (p h : Nat) (evac : Bool) : State × Nat :=
  let H := handleOf (s.part p) h
  if H.st ≠ 2 ∧ ¬(evac = true ∧ (H.st = 3 ∨ H.st = 4)) then (s, 0x0207)
  else
    let z := s.meetRange p h 0 64
    if z.2 ≠ 0 then (z.1, z.2)
    else
      let b := s.storedBytes p h
      let key := s.modelKey p h
      let c := z.1.hamperHeader b
      if c ≠ 0 then (z.1, c)
      else if fieldN b 16 8 ≠ H.len ∨ sectionTableBad b = true then (z.1, 0x0203)
      else
        let w := z.1.meetSections p h ({ typ := 0, image := 0, off := 64, len := 32 * fieldN b 12 4 } ::
          (hamperSections b).filter (fun x => x.typ == 0x0101))
        if w.2 ≠ 0 then (w.1, w.2)
        else
          let bulk := match key with
            | none => true
            | some k => fieldN ((plainOf k b 0x0102).getD []) 9 1 != 0
          let man := (plainOf [] b 0x0101).getD []
          let base := handleOf (s.part p) (s.odP 0x5200 7 p)
          if fieldN b 8 1 = 0 ∧ manifestBad man bulk = true then (w.1, 0x0202)
          else if fieldN b 8 1 = 1 ∧ ((s.part p).program.isNone = true ∨ base.baseId ≠ sliceB b 24 16) then (w.1, 0x0205)
          else if key.isNone then (w.1, 0x0206)
          else (w.1, 0)

/-- Origin of an install: of the command, or for an addition of its base (R272). -/
def State.installOrigin (s : State) (p h ox oy : Nat) : Nat × Nat :=
  match (s.part p).program with
  | some g => if (handleOf (s.part p) h).kind = 1 then (g.ox, g.oy) else (ox, oy)
  | none => (ox, oy)

/-- The plaintext of a handle's program part, empty without one. -/
def State.handleProgram (s : State) (p h : Nat) : List Byte :=
  ((s.modelKey p h).bind (fun k => plainOf k (s.storedBytes p h) 0x0102)).getD []

/-- Fields of the frame that a handle is installed to: of its program, or of its base. -/
def State.installFields (s : State) (p h ox oy : Nat) : Nat :=
  match (handleOf (s.part p) h).kind, (s.part p).program with
  | 1, some g => maskOf ((List.range g.fh).flatMap (fun r => (List.range g.fw).map (fun c => 8 * (g.oy / 20 + r) + g.ox / 20 + c)))
  | _, _ => maskOf (frameFields (s.handleProgram p h) ox oy)

/-- The program part of an addition under Table 7.12 at the frame of its base, or 0: it holds no route and no relocation
(R272). DESIGN CHOICE, log 49. -/
def State.additionCode (s : State) (p fields : Nat) (base b : List Byte) : Nat :=
  let v := min (fieldN b 4 2) (s.odG 0x1010 5)
  let ov := s.overlay p
  if b.isEmpty then 0
  else if progHeaderBad b then 0x0002
  else if v < fieldN b 6 2 ∨ v < s.odG 0x1011 5 then 0x0008
  else if (ov = 0 ∧ fieldN b 9 1 = 1) ∨ (ov = 1 ∧ fieldN b 9 1 = 0) then 0x0004
  else if (fieldsOf fields).any (fun f => !s.fieldOn f) then 0x000B
  else if additionBad base b then 0x0310
  else if fieldN b 8 1 = 2 ∧ s.stepping = 0xA0 then 0x0312
  else if (fieldsOf fields).any (fun f => !bit (s.partMask p) f) then 0x0313
  else if progTooLarge b then 0x0314
  else 0

/-- Step 5: the program part is read and checked. -/
def State.programCode (s : State) (p h ox oy : Nat) : State × Nat :=
  let b := s.storedBytes p h
  let z := s.meetSections p h ((hamperSections b).filter (fun x => x.typ == 0x0102))
  if z.2 ≠ 0 then (z.1, z.2)
  else
    let prog := s.handleProgram p h
    let c := if (handleOf (s.part p) h).kind = 1 then s.additionCode p (s.installFields p h ox oy) (s.handleProgram p (s.odP 0x5200 7 p)) prog
             else s.progCode p prog ox oy (handleOf (s.part p) h).addr
    (if c = 0 then z.1 else z.1.odAdd 0x3500 7 1, c)

/-- Step 6: submissions stop; held requests run to their ends, or end at the next step boundary. -/
def State.awaitHeld (s : State) (p h ox oy : Nat) (endHeld evac : Bool) : State :=
  let s1 := s.modPart p (fun P =>
    { P with cmd := .install h ox oy endHeld evac 6 s.clkTime,
             endCode := if endHeld then (if evac then 0x0911 else 0x020C) else P.endCode })
  (s1.odSetP 0x5200 2 p 2).odSetP 0x5200 4 p 0

/-- An install from step 4 on, with the command that would be queued. -/
def State.startInstall (s : State) (p h ox oy : Nat) (endHeld evac : Bool) (cmd : List Byte) : State × Nat :=
  let z := s.installCode p h evac
  if z.2 ≠ 0 then (z.1, z.2)
  else
    let o := s.installOrigin p h ox oy
    let fields := s.installFields p h o.1 o.2
    let kind : ActKind := if evac then .evacuation p else .install p
    let c := z.1.maintCode fields
    if c = 0x0801 then
      let s1 := (z.1.queueAct kind fields cmd).countMaint c
      ((s1.modPart p (fun P => { P with cmd := .install h o.1 o.2 endHeld evac 4 s.clkTime })).odSetP 0x5200 2 p 4, c)
    else if c ≠ 0 then (z.1.countMaint c, c)
    else
      let w := z.1.programCode p h o.1 o.2
      if w.2 ≠ 0 then (w.1, w.2)
      else ((w.1.startAct kind fields).awaitHeld p h o.1 o.2 endHeld evac, 0)

/-- A queued install takes its locks (R408) and goes on with step 5. -/
def State.resumeInstall (s : State) (p : Nat) : State :=
  match (s.part p).cmd with
  | .install h ox oy endHeld evac 4 _ =>
    let kind : ActKind := if evac then .evacuation p else .install p
    let fields := s.installFields p h ox oy
    let w := ((s.unqueue kind).startAct kind fields).programCode p h ox oy
    if w.2 ≠ 0 then w.1.endModelCmd p w.2 else w.1.awaitHeld p h ox oy endHeld evac
  | _ => s

/-! ### Streaming weights (R261, R269) -/

/-- Outcome of programming a row: those named fail their write-verify with the levels given. -/
def rowOutcome (failed : List (TileId × Nat × Nat × List (Nat × Nat))) (t : TileId) (a r : Nat) : RowOutcome :=
  match failed.find? (fun e => e.1 == t && e.2.1 == a && e.2.2.1 == r) with
  | none => { retries := 0, offLevel := [] }
  | some e => { retries := 255, offLevel := e.2.2.2 }

/-- The column sums of a closed array, and WVALID (R61). -/
def closeArray (cb : ChargeBank) (a : Nat) : ChargeBank :=
  let x := cb.arr a
  let q := codeSums cb a 0 x.rows (List.replicate (outsOf x.fmt) 0)
  cb.modArr a (fun x => { x with wvalid := true, sums := mwrite 0 [] 0 q })

/-- One accepted burst of the loader, rows and all; an array with a failed row is noted. -/
def State.runBurst (s : State) (p : Nat) (t : TileId) (hdr : List Byte) (rows : List (List Byte))
    (failed : List (TileId × Nat × Nat × List (Nat × Nat))) : State :=
  let h := burstHdrOf hdr
  let b : Burst := { firstRow := h.first, fmt := h.fmt, opn := h.opn, cls := h.cls, rows := h.rows, data := [], next := h.first,
                     held := false }
  let todo := rows.mapIdx (fun i d => (h.first + i, d))
  let bad := todo.any (fun e => !(sentLevels h.fmt e.2).2 || !(rowOutcome failed t h.arr e.1).offLevel.isEmpty)
  let s1 := (s.modCb t (fun cb => cb.modArr h.arr (fun x => openArray x b))).forEach todo (fun e s =>
    s.programRow t h.arr e.1 h.fmt e.2 (rowOutcome failed t h.arr e.1))
  let s2 := if h.cls then s1.modCb t (fun cb => closeArray cb h.arr) else s1
  if bad then s2.modPart p (fun P => { P with rowsBad := ((t, h.arr) :: P.rowsBad).eraseDups }) else s2

/-- Note an array that the Hamper under way wrote. -/
def State.noteArray (s : State) (p : Nat) (add : Bool) (e : TileId × Nat) : State :=
  s.modPart p (fun P =>
    if add then { P with addArrays := (e :: P.addArrays).eraseDups } else { P with baseArrays := (e :: P.baseArrays).eraseDups })

/-- The bursts of a weight record, in order, with the code that ends them. -/
def State.streamBursts (s : State) (p : Nat) (add : Bool) (t : TileId)
    (failed : List (TileId × Nat × Nat × List (Nat × Nat))) (fuel : Nat) (b : List Byte) : State × Nat :=
  match fuel with
  | 0 => (s, 0)
  | fuel + 1 =>
    if b.isEmpty then (s, 0)
    else
      let hdr := b.take 32
      let h := burstHdrOf hdr
      let n := 32 + 256 * h.count
      if b.length < n ∨ h.opc ≠ 1 then (s, 0x0204)
      else if burstCode (s.tile t).cb hdr h.count ≠ 0 then (s, 0x0204)
      else
        let s1 := (s.runBurst p t hdr (recordsOf 256 (sliceB b 32 (256 * h.count))) failed).noteArray p add (t, h.arr)
        s1.streamBursts p add t failed fuel (b.drop n)

/-- An addition's record targets an array of the base (R272): none of its bursts is sent. -/
def targetsBase (P : Partition) (t : TileId) (fuel : Nat) (b : List Byte) : Bool :=
  match fuel with
  | 0 => false
  | fuel + 1 =>
    if b.length < 32 then false
    else P.baseArrays.contains (t, (burstHdrOf b).arr) || targetsBase P t fuel (b.drop (32 + 256 * (burstHdrOf b).count))

/-- Where a program stands: origin, and size in fields. -/
structure FrameAt where
  ox : Nat
  oy : Nat
  fw : Nat
  fh : Nat
deriving DecidableEq, Repr

/-- The weight records of a section, in order, with the code that ends them (R261). DESIGN CHOICE, log 48. -/
def State.streamRecords (s : State) (p : Nat) (add : Bool) (g : FrameAt)
    (failed : List (TileId × Nat × Nat × List (Nat × Nat))) (fuel : Nat) (b : List Byte) : State × Nat :=
  match fuel with
  | 0 => (s, 0)
  | fuel + 1 =>
    if b.isEmpty then (s, 0)
    else
      let n := fieldN b 4 4
      if b.length < 8 + n ∨ n % 32 ≠ 0 ∨ n < 288 ∨ fieldN b 2 2 ≠ 0 ∨ 20 * g.fw ≤ fieldN b 0 1 ∨ 20 * g.fh ≤ fieldN b 1 1 then
        (s, 0x0204)
      else
        let t := s.physical (g.ox + fieldN b 0 1) (g.oy + fieldN b 1 1)
        let body := sliceB b 8 n
        if add && targetsBase (s.part p) t (n / 288 + 1) body then (s, 0x0205)
        else
          let z := s.streamBursts p add t failed (n / 288 + 1) body
          if z.2 ≠ 0 then z else (z.1.odAddP 0x5200 4 p n).streamRecords p add g failed fuel (b.drop (8 + n))

/-- One section is read and, where it holds weight records, streamed. -/
def State.streamSection (s : State) (p h : Nat) (add : Bool) (g : FrameAt) (key b : List Byte)
    (failed : List (TileId × Nat × Nat × List (Nat × Nat))) (x : Section') : State × Nat :=
  let z := s.meetRange p h x.off x.len
  if z.2 ≠ 0 then (z.1, z.2)
  else if x.typ = 0x0103 then z.1.streamRecords p add g failed (x.len / 296 + 1) (plainSection key b x)
  else (z.1, 0)

/-- The sections of a Hamper in order: each is read, and those of weights are streamed. -/
def State.streamSections (s : State) (p h : Nat) (add : Bool) (g : FrameAt) (key b : List Byte)
    (failed : List (TileId × Nat × Nat × List (Nat × Nat))) (l : List Section') : State × Nat :=
  match l with
  | [] => (s, 0)
  | x :: r =>
    let w := s.streamSection p h add g key b failed x
    if w.2 ≠ 0 then (w.1, w.2) else w.1.streamSections p h add g key b failed r

/-- Step 9: an array that no record wrote takes one OPEN burst of one row of L0. The format of that burst is stated
nowhere: a free value. -/
def clearArray (cb : ChargeBank) (a fmt : Nat) : ChargeBank :=
  if (cb.arr a).failed then cb
  else (putRow cb a 0 (List.replicate 1024 0)).modArr a (fun x => { x with wvalid := false, rows := 1, fmt := fmt })

/-- Step 9 over a list of arrays. DESIGN CHOICE, log 53, 54. -/
def State.clearArrays (s : State) (l : List (TileId × Nat)) : State :=
  (s.forEach l (fun e s' => s'.modCb e.1 (fun cb => clearArray cb e.2 (Config.freeNat s.free % 4)))).useFree 1

/-- The tiles of a frame. -/
def State.frameTiles (s : State) (g : FrameAt) : List TileId :=
  (List.range (20 * g.fh)).flatMap (fun y => (List.range (20 * g.fw)).map (fun x => s.physical (g.ox + x) (g.oy + y)))

/-- The frame of an install. -/
def State.frameOf (s : State) (p h ox oy : Nat) : FrameAt :=
  match (handleOf (s.part p) h).kind, (s.part p).program with
  | 1, some g => { ox := g.ox, oy := g.oy, fw := g.fw, fh := g.fh }
  | _, _ => { ox := ox, oy := oy, fw := fieldN (s.handleProgram p h) 10 1, fh := fieldN (s.handleProgram p h) 11 1 }

/-- The segments of a tile that step 7 disables. -/
def enabledSegs (cb : ChargeBank) : List Nat := (List.range 16).filter (fun n => (cb.seg n).en)

/-- Step 7 for an addition (R272): every segment of the base program's tiles is written EN = 0, its cores go on; those
that lie on no array of the addition before are remembered. DESIGN CHOICE, log 53. -/
def State.pauseSegs (s : State) (p : Nat) : State :=
  let P := s.part p
  let tiles := (P.program.map (fun g => g.tiles.map (fun e => e.1))).getD []
  let keep := fun t : TileId => (enabledSegs (s.tile t).cb).filter (fun n =>
    (arraysOf ((s.tile t).cb.seg n)).all (fun a => !P.addArrays.contains (t, a)))
  let off := fun cb : ChargeBank =>
    (enabledSegs cb).foldl (fun cb n => segBoundary (cb.modSeg n (fun g => { g with disabling := true })) n) cb
  (s.forEach tiles (fun t s => s.modCb t off)).modPart p (fun P =>
    { P with paused := tiles.flatMap (fun t => (keep t).map (fun n => (t, n))) })

/-- The segments that step 7 disabled are enabled again before the addition's own registers are written. -/
def State.resumeSegs (s : State) (p : Nat) : State :=
  (s.forEach (s.part p).paused (fun e s =>
    s.modCb e.1 (fun cb => cb.modSeg e.2 (fun g => { g with en := true })))).modPart p (fun P => { P with paused := [] })

/-- Steps 7 to 9: the resident program stops, weights are streamed, the rest of the frame cleared. -/
def State.streamInstall (s : State) (p h ox oy : Nat) (endHeld evac : Bool) (since : Nat)
    (failed : List (TileId × Nat × Nat × List (Nat × Nat))) : State :=
  let add := (handleOf (s.part p) h).kind == 1
  let g := s.frameOf p h ox oy
  let key := (s.modelKey p h).getD []
  let b := s.storedBytes p h
  let s1 := if add then (s.pauseSegs p).clearArrays (s.part p).addArrays else s.unload p
  let s2 := s1.modPart p (fun P =>
    { P with cmd := .install h ox oy endHeld evac 8 since, rowsBad := [], addArrays := [], endCode := 0,
             baseArrays := if add then P.baseArrays else [] })
  let z := (s2.odSetP 0x5200 2 p 3).streamSections p h add g key b failed (hamperSections b)
  if z.2 ≠ 0 then z.1.endModelCmd p z.2
  else
    let written := (z.1.part p).baseArrays
    let rest := if add then [] else
      (z.1.frameTiles g).flatMap (fun t => ((List.range 192).map (fun a => (t, a))).filter (fun e => !written.contains e))
    (z.1.clearArrays rest).modPart p (fun P => { P with cmd := .install h ox oy endHeld evac 9 since })

/-! ### The end of an install (R271, steps 10 to 13) -/

/-- The bursts of a record again, for the arrays that have a failed row. -/
def State.rewriteBursts (s : State) (p : Nat) (bad : List (TileId × Nat)) (t : TileId)
    (failed : List (TileId × Nat × Nat × List (Nat × Nat))) (fuel : Nat) (b : List Byte) : State :=
  match fuel with
  | 0 => s
  | fuel + 1 =>
    if b.length < 32 then s
    else
      let hdr := b.take 32
      let h := burstHdrOf hdr
      let s1 := if bad.contains (t, h.arr) then s.runBurst p t hdr (recordsOf 256 (sliceB b 32 (256 * h.count))) failed else s
      s1.rewriteBursts p bad t failed fuel (b.drop (32 + 256 * h.count))

/-- The records of a section again. -/
def State.rewriteRecords (s : State) (p : Nat) (g : FrameAt) (bad : List (TileId × Nat))
    (failed : List (TileId × Nat × Nat × List (Nat × Nat))) (fuel : Nat) (b : List Byte) : State :=
  match fuel with
  | 0 => s
  | fuel + 1 =>
    if b.length < 8 then s
    else
      let n := fieldN b 4 4
      let t := s.physical (g.ox + fieldN b 0 1) (g.oy + fieldN b 1 1)
      (s.rewriteBursts p bad t failed (n / 288 + 1) (sliceB b 8 n)).rewriteRecords p g bad failed fuel (b.drop (8 + n))

/-- R271: each array with a failed row is rewritten once from the store; `rowsBad` then holds those that still fail. -/
def State.rewriteFailed (s : State) (p h : Nat) (g : FrameAt)
    (failed : List (TileId × Nat × Nat × List (Nat × Nat))) : State :=
  let bad := (s.part p).rowsBad
  let key := (s.modelKey p h).getD []
  let b := s.storedBytes p h
  (s.modPart p (fun P => { P with rowsBad := [] })).forEach
    ((hamperSections b).filter (fun x => x.typ == 0x0103)) (fun x s =>
      if bad.isEmpty then s else s.rewriteRecords p g bad failed (x.len / 296 + 1) (plainSection key b x))

/-- Manifest values copied (Table 10.4). -/
def State.copyManifest (s : State) (p : Nat) (m : List Byte) : State :=
  let x := manifestOf m
  let s1 := s.modPart p (fun P => { P with manifest := x, preTimes := [] })
  ((((s1.odSetP 0x5000 5 p x.maxCtx).odSetP 0x5000 6 p x.buckets).odSetP 0x5100 1 p (pageSize x)).odSetP 0x5000 4 p
    x.maxActive)

/-- Steps 11 and 12 for a base: program written, manifest copied, handles renamed. -/
def State.baseIn (s : State) (p h ox oy : Nat) : State :=
  let b := s.storedBytes p h
  let s1 := s.writeProgram p (s.handleProgram p h) ox oy (handleOf (s.part p) h).addr
  let s2 := (s1.copyManifest p ((plainOf [] b 0x0101).getD [])).modPart p (fun P =>
    { uninstalled P with baseArrays := P.baseArrays })
  (s2.odSetP 0x5200 7 p h).odSetP 0x5200 8 p 0xFF

/-- Steps 11 and 12 for an addition (R272). -/
def State.additionIn (s : State) (p h : Nat) : State :=
  let prog := s.handleProgram p h
  let base := s.handleProgram p (s.odP 0x5200 7 p)
  let s0 := s.resumeSegs p
  let s1 := match (s.part p).program with
    | some g => if prog.isEmpty then s0 else s0.writeAddition g base prog
    | none => s0
  let s2 := s1.modPart p (fun P =>
    { P with handles := P.handles.map (fun e => (e.1, if e.2.st = 4 then { e.2 with st := 2 } else e.2)),
             addDigest := if prog.isEmpty then [] else progDigest prog })
  s2.odSetP 0x5200 8 p h

/-- Steps 11 to 13: the model is resident, its generation counted, its program released, the locks freed.
DESIGN CHOICE, log 53. -/
def State.finishInstall (s : State) (p h ox oy since : Nat) : State :=
  let add := (handleOf (s.part p) h).kind == 1
  let digest := hamperDigest ((s.modelKey p h).getD []) (s.storedBytes p h)
  let s1 := if add then s.additionIn p h else s.baseIn p h ox oy
  let s2 := s1.modHandle p h (fun x => { x with st := if add then 4 else 3, digest := digest, installed := s.clkTime })
  let s3 := ((s2.odAddP 0x5200 6 p 1).prefixUnreachable p).odAdd 0x5200 0xC 1
  let s4 := s3.odSetP 0x5200 0xA p ((s.clkTime - since) / cyclesPerUs)
  let s5 := if add then s4 else s4.releaseProgram p
  (s5.endModelCmd p 0).countServing p

/-- The addition that was installed over a base under evacuation follows it (R341); if it cannot, the evacuation ends with
its code and the base stays. DESIGN CHOICE, log 92. -/
def State.followAddition (s : State) (p : Nat) (add : Option Nat) : State :=
  match add with
  | none => s
  | some h =>
    let z := s.installCode p h true
    let g := (s.part p).program
    let ox := (g.map (fun g => g.ox)).getD 0
    let oy := (g.map (fun g => g.oy)).getD 0
    let w := if z.2 ≠ 0 then z else z.1.programCode p h ox oy
    if w.2 ≠ 0 then w.1.odSetP 0x5200 3 p w.2
    else (w.1.startAct (.evacuation p) (w.1.installFields p h ox oy)).awaitHeld p h ox oy true true

/-- Step 10 and the rest: failed rows are rewritten, strict loading applied, the install completed. -/
def State.completeInstall (s : State) (p h ox oy : Nat) (evac : Bool) (since : Nat)
    (failed : List (TileId × Nat × Nat × List (Nat × Nat))) : State :=
  let g := s.frameOf p h ox oy
  let s1 := s.rewriteFailed p h g failed
  let still := (s1.part p).rowsBad
  let s2 := s1.odSetP 0x5200 9 p still.length
  if !still.isEmpty && s2.odEff 0x5200 5 p == 1 then s2.endModelCmd p 0x020B
  else
    let s3 := s2.forEach still (fun e s => s.modCb e.1 (fun cb => cb.modArr e.2 (fun x => { x with early := true })))
    let add := if evac && (handleOf (s.part p) h).kind != 1 then
        ((s.part p).handles.find? (fun e => e.2.st == 4)).map (fun e => e.1) else none
    (s3.finishInstall p h ox oy since).followAddition p add

/-- INSTALL_RESUME (R269): held requests have ended; steps 7 to 9. -/
def execInstallResume (part : Nat) (rowsFailed : List (TileId × Nat × Nat × List (Nat × Nat))) (s : State) : Res :=
  guardRes (Instr.wf (.installResume part rowsFailed))
    (match (s.part part).cmd with
     | .install h ox oy eh ev 6 since =>
       if (s.part part).reqs.isEmpty then s.streamInstall part h ox oy eh ev since rowsFailed else s
     | _ => s)

/-- INSTALL_STREAM_DONE (R271): write-verify applied, the program written, the model released. -/
def execInstallStreamDone (part : Nat) (rowsFailed : List (TileId × Nat × Nat × List (Nat × Nat))) (s : State) : Res :=
  guardRes (Instr.wf (.installStreamDone part rowsFailed))
    (match (s.part part).cmd with
     | .install h ox oy _ ev 9 since => s.completeInstall part h ox oy ev since rowsFailed
     | _ => s)

/-- STAGE_DATA_ARRIVAL (R267): host bytes arrive in order, fabric bytes at any offset. -/
def execStageDataArrival (part offset : Nat) (bytes : List Byte) (s : State) : Res :=
  guardRes (Instr.wf (.stageDataArrival part offset bytes))
    (match (s.part part).cmd with
     | .stage _ src _ len got _ _ =>
       if len ≤ offset ∨ (src = 0 ∧ offset ≠ got) then s else s.stageBytes part offset bytes
     | _ => s)

/-! ### Commands (R266, R273) -/

/-- Reserved bits of a model command are set. -/
def modelReserved (c : List Byte) : Bool :=
  fieldN c 1 1 / 16 != 0 || fieldN c 2 1 / 16 != 0 || fieldN c 3 1 != 0 || !zeroRange c 26 38 ||
    (fieldN c 0 1 == 0x50 && fieldN c 1 1 % 4 == 3)

/-- DISCARD (R273, R307). -/
def State.discardHandle (s : State) (p h : Nat) : State × Nat :=
  let H := handleOf (s.part p) h
  if H.st = 1 ∨ H.st = 3 ∨ H.st = 4 ∨ s.sending p h = true then (s, 0x0209)
  else ((s.modHandle p h (fun _ => {})).odSetP 0x5200 3 p 0, 0)

/-- A model command is running. -/
def cmdRuns (P : Partition) : Bool := P.cmd != .none

/-- ABORT (R266, R267): of a running stage. DESIGN CHOICE, log 51. -/
def State.abortStage (s : State) (p : Nat) : State × Nat :=
  match (s.part p).cmd with
  | .none => (s, 0x0009)
  | .stage _ _ _ _ _ _ _ => (s.endStage p 0x020D, 0)
  | .install _ _ _ _ _ _ _ => (s, 0x0005)

/-- A model command written to OD 0x5200.01 (R266). DESIGN CHOICE, log 15; DEDUCED, log 55. -/
def State.modelCommand (caller : Caller) (p : Nat) (cmd : List Byte) (s : State) : State × Nat :=
  let opc := fieldN cmd 0 1
  if cmd.length ≠ 64 then (s, 0x0701)
  else if opc < 0x50 ∨ 0x53 < opc then (s, 0x0001)
  else if modelReserved cmd then (s, 0x0002)
  else if opc = 0x53 ∧ cmdRuns (s.part p) = false then (s, 0x0009)
  else if s.partState p ≠ 1 ∨ s.standby = true then (s, 0x000B)
  else if s.sealedFrom caller p then (s, 0x0602)
  else if opc = 0x53 then s.abortStage p
  else if cmdRuns (s.part p) then (s, 0x0005)
  else if opc = 0x50 then s.startStage p cmd
  else if opc = 0x51 then
    s.startInstall p (fieldN cmd 2 1 % 16) (fieldN cmd 4 2) (fieldN cmd 6 2) (bit (fieldN cmd 1 1) 3) false cmd
  else s.discardHandle p (fieldN cmd 2 1 % 16)

/-- STAGE (R267): the model command as written by a caller. -/
def execStage (caller : Caller) (part : Nat) (cmd : List Byte) (s : State) : Res :=
  guardRes (Instr.wf (.stage caller part cmd)) (s.command caller 0x5200 1 part (State.modelCommand caller part cmd))

/-- INSTALL (R269). -/
def execInstall (caller : Caller) (part : Nat) (cmd : List Byte) (s : State) : Res :=
  guardRes (Instr.wf (.install caller part cmd)) (s.command caller 0x5200 1 part (State.modelCommand caller part cmd))

/-- DISCARD (R273). -/
def execDiscard (caller : Caller) (part : Nat) (cmd : List Byte) (s : State) : Res :=
  guardRes (Instr.wf (.discard caller part cmd)) (s.command caller 0x5200 1 part (State.modelCommand caller part cmd))

/-- ABORT (R267). -/
def execAbort (caller : Caller) (part : Nat) (cmd : List Byte) (s : State) : Res :=
  guardRes (Instr.wf (.abort caller part cmd)) (s.command caller 0x5200 1 part (State.modelCommand caller part cmd))

/-! ### Prefix tree and rejuvenation -/

/-- OD 0x5100.12: the prefix tree becomes unreachable (R229). -/
def State.dropPrefixTree (caller : Caller) (p : Nat) (s : State) : State × Nat :=
  if s.sealedFrom caller p then (s, 0x0602) else (s.prefixUnreachable p, 0)

/-- MAKE_PREFIX_TREE_UNREACHABLE (R229). -/
def execMakePrefixTreeUnreachable (caller : Caller) (part value : Nat) (s : State) : Res :=
  guardRes (Instr.wf (.makePrefixTreeUnreachable caller part value))
    (s.command caller 0x5100 0x12 part (oneOnly value (State.dropPrefixTree caller part)))

/-- The row of an array as a Hamper's bursts from an offset write it last: its offset, its format and its bytes. -/
def rowInBursts (a row : Nat) (fuel off : Nat) (b : List Byte) (found : Option (Nat × Nat × List Byte)) :
    Option (Nat × Nat × List Byte) :=
  match fuel with
  | 0 => found
  | fuel + 1 =>
    if b.length < 32 then found
    else
      let h := burstHdrOf b
      let hit := h.arr == a && decide (h.first ≤ row) && decide (row < h.first + h.count)
      let at0 := 32 + 256 * (row - h.first)
      rowInBursts a row fuel (off + 32 + 256 * h.count) (b.drop (32 + 256 * h.count))
        (if hit then some (off + at0, h.fmt, sliceB b at0 256) else found)

/-- The row of an array of a tile as the records of a section from an offset write it last. -/
def State.rowInRecords (s : State) (g : FrameAt) (t : TileId) (a row : Nat) (fuel off : Nat) (b : List Byte)
    (found : Option (Nat × Nat × List Byte)) : Option (Nat × Nat × List Byte) :=
  match fuel with
  | 0 => found
  | fuel + 1 =>
    if b.length < 8 then found
    else
      let n := fieldN b 4 4
      let here := s.physical (g.ox + fieldN b 0 1) (g.oy + fieldN b 1 1) == t
      s.rowInRecords g t a row fuel (off + 8 + n) (b.drop (8 + n))
        (if here then rowInBursts a row (n / 288 + 1) (off + 8) (sliceB b 8 n) found else found)

/-- The stored copy of a row from the base or the addition that wrote it: its offset in the Hamper, its format and its
bytes. -/
def State.storedRow (s : State) (p : Nat) (t : TileId) (a row : Nat) : Option (Nat × Nat × List Byte) :=
  let P := s.part p
  match P.program with
  | none => none
  | some g =>
    let h := if P.addArrays.contains (t, a) then s.odP 0x5200 8 p else s.odP 0x5200 7 p
    let f : FrameAt := { ox := g.ox, oy := g.oy, fw := g.fw, fh := g.fh }
    let b := s.storedBytes p h
    match s.modelKey p h with
    | none => none
    | some k =>
      (((hamperSections b).filter (fun x => x.typ == 0x0103)).foldl (fun found x =>
        s.rowInRecords f t a row (x.len / 296 + 1) x.off (plainSection k b x) found) none)

/-- The row stands for its stage in the counts of R86: row 0 of the lowest array written in the stage's first tile. -/
def State.firstOfStage (s : State) (p : Nat) (t : TileId) (a row : Nat) : Bool :=
  let P := s.part p
  let tiles := (P.program.map (fun g => g.tiles)).getD []
  let st := (s.tile t).cc.stage
  let mine := ((P.baseArrays ++ P.addArrays).filter (fun e => e.1 == t)).map (fun e => e.2)
  row == 0 && mine.all (fun b => decide (a ≤ b)) && ((tiles.find? (fun e => e.2.2 == st)).map (fun e => e.1)) == some t

/-- The hub holds the lock of a field for its rejuvenation, one field at a time (R407, Table 17.5): taken over from the
field before it; none while another activity holds the field (R408). -/
def State.rejuvenating (s : State) (f : Nat) : Option State :=
  if s.hub.acts.any (fun a => a.kind == ActKind.rejuvenation f) then some s
  else if s.hub.acts.any (fun a => bit a.fields f) then none
  else some ((allFields.foldl (fun s g => s.endRejuvenation g) s).startAct (.rejuvenation f) (2 ^ f))

/-- A calibration could start on the tile now (R89). -/
def State.calibrationWaits (s : State) (t : TileId) : Bool :=
  let cb := (s.tile t).cb
  decide (measuringCount cb < 8) && grantFree cb && cb.bandDue.isNone &&
    (List.range 192).any (fun a => s.calWaits t a && arrayIdle (cb.arr a) && !writingArray (cb.arr a))

/-- REJUVENATION (R86, R270): one row rewritten from the stored Hamper outside the quiet window; WVALID and the column
sums stay. A stage without a usable copy is counted and logged; a row whose copy meets an uncorrectable unit damages the
handle (R277). -/
def execRejuvenation (t : TileId) (a row : Nat) (outcome : RowOutcome) (s : State) : Res :=
  guardRes (Instr.wf (.rejuvenation t a row outcome))
    (match s.partOfTile t with
     | none => s
     | some p =>
       let P := s.part p
       if !(P.baseArrays.contains (t, a) || P.addArrays.contains (t, a)) then s
       else
         let h := if P.addArrays.contains (t, a) then s.odP 0x5200 8 p else s.odP 0x5200 7 p
         let count := fun s' : State =>
           (s'.odAdd 0x3000 0xF 1).log { rule := 86, sev := 1, part := p, data := [(s.tile t).cc.stage] }
         let skip := if !s.firstOfStage p t a row then s else count s
         if (handleOf P h).st ≠ 3 ∧ (handleOf P h).st ≠ 4 then skip
         else
           match s.storedRow p t a row with
           | none => skip
           | some (off, fmt, d) =>
             let T := s.tile t
             let busy := T.quiet || !T.cb.boundary || !arrayIdle (T.cb.arr a) || !writeFree T.cb || (T.cb.arr a).burst.isSome ||
               (T.cb.arr a).closing.isSome || (T.cb.arr a).failed || refreshWaits T.cb || s.calibrationWaits t || s.hub.away ||
               s.activating || s.odP 0x7000 7 p != 0
             let done := fun s : State =>
               if (P.baseArrays ++ P.addArrays).getLast? == some (t, a) && row + 1 == (T.cb.arr a).rows then
                 (s.odSet 0x3000 0x11 (s.odG 0x3000 0xE)).endRejuvenation (fieldOfTile t)
               else s
             let met := s.meetRange p h off 256
             if busy then s
             else if met.2 ≠ 0 then count met.1
             else
               match s.rejuvenating (fieldOfTile t) with
               | none => s
               | some s1 => done <| (s1.programRow t a row fmt d outcome).modCb t (fun cb =>
                   cb.modArr a (fun x => if row + 1 = x.rows then { x with early := false } else x)))

end Sys2Proof.Machine
end

