-- ==== Sys2Proof/Machine/Fabric.lean ====
section
/-!
DEFINITION. The Falram fabric (chapter 12: R296–R310): packets received, timers, link changes, frames that are not
Falram, and the fabric send command.
-/

namespace Sys2Proof.Machine

/-! ### Receiving -/

/-- The logical link exists: an odd one only on a split port (R296). -/
def State.linkExists (s : State) (link : Nat) : Bool := link % 2 == 0 || bit (s.odG 0x6100 5) (link / 2)

/-- A status code that the manual defines (R17, the tables of each family), other than success. -/
def definedCode (c : Nat) : Bool :=
  let last := [(0x00, 0x0D), (0x01, 0x0B), (0x02, 0x0D), (0x03, 0x15), (0x04, 0x08), (0x05, 0x09), (0x06, 0x0B), (0x07, 0x0A),
    (0x08, 0x07), (0x09, 0x14), (0x0A, 0x0A), (0x0B, 0x0D)]
  last.any (fun e => e.1 == c / 256 && decide (1 ≤ c % 256) && decide (c % 256 ≤ e.2)) &&
    !([0x0309, 0x030A, 0x030B, 0x030C, 0x030D, 0x030E, 0x030F, 0x0906, 0x0907, 0x0908, 0x0909, 0x090A, 0x090B, 0x090C, 0x090D,
      0x090E, 0x090F, 0x0B0C].contains c)

/-- Payload bytes that Table 12.4 reserves, by type, are not all zero. -/
def payloadReserved (typ : Nat) (b : List Byte) : Bool :=
  match typ with
  | 1 => !zeroRange b 8 8
  | 4 => !zeroRange b 8 8
  | 6 => !zeroRange b 4 4
  | _ => false

/-- The fields that Table 12.7 checks in every packet. DESIGN CHOICE, log 113. -/
def packetBad (typ : Nat) (p : FalramPkt) : Bool :=
  p.res3 != 0 || p.res28 != 0 || decide (8192 < p.len) || p.len != p.payload.length ||
    (typ == 1 && payloadReserved 1 p.payload) || (typ == 5 && (p.psn == 0 || p.offset != (p.psn - 1) * 8192)) ||
    (if typ = 7 ∨ typ = 8 then !definedCode p.status else p.status != 0)

/-- A violation of a packet type: a NAK is never answered with a NAK (R308). -/
def State.violation (s : State) (typ : Nat) (p : FalramPkt) (status : Nat) (part : Option (Nat × Nat)) : State :=
  if typ = 7 then (s.odAdd 0x6100 0x11 1).log { rule := 308, status := status, sev := 1, source := 6, data := [p.srcDev, p.stream, p.psn] }
  else s.peerFault p status part

/-- A packet as the device takes it (R297–R301, R308), up to what its type asks for. DESIGN CHOICE, log 113. -/
def State.receive (s : State) (typ : Nat) (p : FalramPkt) (run : State → State) : State :=
  if !s.fabricOn || !s.linkExists p.link then s
  else
    let s1 := s.odAdd 0x6100 0xD 1
    if !crcOk typ p then s1.odAdd 0x6100 0xF 1
    else if !p.mcast && p.dst != s.fabric.devId then s1
    else if packetBad typ p then s1.violation typ p 0x0002 none
    else if typ = 1 then
      if p.srcDev = s.fabric.devId then s1.violation typ p 0x0B07 none else run s1
    else
      match s1.peer p.srcDev with
      | none => (s1.sendHello p.srcDev).odAdd 0x6100 0x11 1
      | some e =>
        if e.ver ≠ p.vmaj * 256 + p.vmin then (s1.sendHello p.srcDev).odAdd 0x6100 0x11 1
        else run (s1.modPeer p.srcDev (fun e => { e with heardAt := s.clkTime }))

/-- The payload of a packet for a partition in clear, none where R306 discards the packet. -/
def State.clearPayload (s : State) (typ part : Nat) (p : FalramPkt) : Option (List Byte) :=
  if p.enc then
    match linkKey (s.part part) p.kslot with
    | none => none
    | some k => if icvOk k typ p then some (gcmCrypt k (packetIv p) p.payload) else none
  else if s.isSealed part || s.odEff 0x6111 2 part == 1 then none
  else some p.payload

/-- The partition and slot that a NAK about a packet to it is encrypted under: the packet's slot, or for one in clear its
own, where that holds a key (R306). -/
def State.nakSeal (s : State) (part : Nat) (p : FalramPkt) : Option (Nat × Nat) :=
  let k := if p.enc then p.kslot else s.odEff 0x6111 1 part
  if (linkKey (s.part part) k).isSome then some (part, k) else none

/-- A packet that R306 discards: counted and answered with NAK 0x0B03. -/
def State.authFails (s : State) (typ part : Nat) (p : FalramPkt) : State :=
  (if p.enc then s.odAdd 0x6100 0x10 1 else s).violation typ p 0x0B03 (s.nakSeal part p)

/-- A packet of a stream of a partition, in clear. -/
def State.withPayload (s : State) (typ part : Nat) (p : FalramPkt) (run : List Byte → State → State) : State :=
  match s.clearPayload typ part p with
  | none => s.authFails typ part p
  | some b => if payloadReserved typ b then s.violation typ p 0x0002 (s.nakSeal part p) else run b s

/-- The partition and slot that a NAK to a stream of a partition is encrypted under. -/
def rxSeal (part : Nat) (r : RxStream) : Option (Nat × Nat) := if r.enc then some (part, r.kslot) else none

/-! ### Peers (R301, R302) -/

/-- A stream with a device is open. -/
def State.streamsWith (s : State) (dev : Nat) : Bool :=
  s.fabric.tx.any (fun e => e.2.receivers.any (fun r => r.dev == dev)) ||
    s.fabric.rx.any (fun e => e.2.src == dev && rxOpen e.2)

/-- The peer entry that gives way when the table is full: without a stream, and heard least recently. -/
def State.idlePeer (s : State) : Option Peer :=
  (s.fabric.peers.filter (fun e => !s.streamsWith e.dev)).foldl (fun best e =>
    match best with
    | none => some e
    | some b => if e.heardAt < b.heardAt then some e else some b) none

/-- A peer entry removed. -/
def State.dropPeer (s : State) (dev : Nat) : State :=
  { s with fabric := { s.fabric with peers := s.fabric.peers.filter (fun e => e.dev != dev) } }

/-- A HELLO that passed the general checks (R301): the entry is created or updated; a first HELLO is answered with one. -/
def State.helloFrom (s : State) (p : FalramPkt) : State :=
  let dev := p.srcDev
  let v := min (fieldN p.payload 0 2) (s.odG 0x1010 3)
  let known := (s.peer dev).isSome
  if v < fieldN p.payload 2 2 ∨ v < s.odG 0x1011 3 then
    (({ (s.dropPeer dev) with fabric := { (s.dropPeer dev).fabric with
        unusable := dev :: s.fabric.unusable.filter (· != dev) } }).countPeers).nak p 0x0008 none
  else
    let full := !known && decide (4096 ≤ s.fabric.peers.length)
    match (if full then s.idlePeer.map (fun e => e.dev) else some dev) with
    | none => s.nak p 0x0B0B none
    | some old =>
      let e : Peer := { dev := dev, ver := v, mask := fieldN p.payload 4 4, address := s.fabricAddr p.link dev, heardAt := s.clkTime }
      let s1 := (s.dropPeer old).dropPeer dev
      let s2 := ({ s1 with fabric := { s1.fabric with peers := s1.fabric.peers ++ [e],
                                                      unusable := s1.fabric.unusable.filter (· != dev) } }).countPeers
      if known then s2 else s2.sendHello dev

/-- HELLO (R301). -/
def execHello (p : FalramPkt) (s : State) : Res :=
  guardRes (Instr.wf (.hello p)) (s.receive 1 p (fun s => s.helloFrom p))

/-- KEEPALIVE (R302): the peer's UP mask, from the next packet on. -/
def execKeepalive (p : FalramPkt) (s : State) : Res :=
  guardRes (Instr.wf (.keepalive p))
    (s.receive 2 p (fun s => s.modPeer p.srcDev (fun e => { e with mask := fieldN p.payload 0 4 })))

/-! ### Group joins (R304, R305) -/

/-- The sending stream to a group. -/
def State.groupTx (s : State) (group : Nat) : Option (Nat × TxStream) :=
  s.fabric.tx.find? (fun e => e.2.group && e.2.dst == group)

/-- A JOIN for a group that the device sends to: a receiver more, or NAK 0x0B09; one that has joined already changes
nothing. -/
def State.joinFrom (s : State) (p : FalramPkt) : State :=
  match s.groupTx p.dst with
  | none => s
  | some (k, t) =>
    if !p.mcast || t.receivers.any (fun r => r.dev == p.srcDev) then s
    else if t.phase ≠ 1 ∨ 64 ≤ t.receivers.length then s.nak p 0x0B09 (if t.enc then some (k % 32, t.kslot) else none)
    else (s.modTx k (fun t => { t with receivers := t.receivers ++ [{ dev := p.srcDev }] })).odSetP 0x6110 4 (k % 32)
      (t.receivers.length + 1)

/-- JOIN (R305). -/
def execJoin (p : FalramPkt) (s : State) : Res :=
  guardRes (Instr.wf (.join p)) (s.receive 3 p (fun s => s.joinFrom p))

/-! ### Receiving a stream (R303, R304) -/

/-- SACK bytes: bit i for PSN CUM + 1 + i. -/
def sackBytes (r : RxStream) : List Byte :=
  leBytes 32 ((r.sack.filter (fun n => decide (r.cum < n) && decide (n ≤ r.cum + 256))).foldl
    (fun m n => m + 2 ^ (n - r.cum - 1)) 0)

/-- The acknowledgement of a receiving stream (R303). -/
def State.sendAck (s : State) (part : Nat) : State :=
  match mfind s.fabric.rx part with
  | none => s
  | some r =>
    let q := { s.newPkt r.src with stream := r.stream, payload := leBytes 4 r.cum ++ leBytes 4 0 ++ sackBytes r }
    ({ s with fabric := { s.fabric with rx := mput s.fabric.rx part { r with unacked := 0 } } }).sendSealed part r.kslot r.enc 6 q

/-- The partition whose running stage an OPEN matches (R304). -/
def State.openFor (s : State) (p : FalramPkt) : Option Nat :=
  (List.range 32).find? (fun n => match (s.part n).cmd with
    | .stage _ 1 source _ _ _ _ => p.mcast && source % 65536 == p.dst
    | .stage _ 2 source _ _ _ _ => !p.mcast && source % 65536 == p.srcDev
    | _ => false)

/-- The receiving stream of a sender's number: its partition. -/
def State.rxFor (s : State) (p : FalramPkt) : Option (Nat × RxStream) :=
  s.fabric.rx.find? (fun e => e.2.src == p.srcDev && e.2.stream == p.stream)

/-- LENGTH of the running stage of a partition. -/
def stageLen (P : Partition) : Nat :=
  match P.cmd with
  | .stage _ _ _ len _ _ _ => len
  | _ => 0

/-- An OPEN opens its stage's stream, and is acknowledged (R303, R304); a repeated one is acknowledged again. -/
def State.openFrom (s : State) (p : FalramPkt) : State :=
  match s.rxFor p with
  | some (part, _) => s.withPayload 4 part p (fun _ s => s.sendAck part)
  | none =>
    match s.openFor p with
    | none => s.nak p 0x0B02 none
    | some part =>
      if (mfind s.fabric.rx part).isSome then s.nak p 0x0B02 none
      else
        s.withPayload 4 part p (fun b s =>
          let r : RxStream := { src := p.srcDev, stream := p.stream, group := if p.mcast then some p.dst else none, enc := p.enc,
                                kslot := p.kslot, len := fieldN b 0 8, cum := 1 }
          if fieldN b 0 8 ≠ stageLen (s.part part) then (s.nak p 0x0003 (rxSeal part r)).endStage part 0x0003
          else if 64 ≤ s.fabric.rx.length then s.nak p 0x0B0B (rxSeal part r)
          else ({ s with fabric := { s.fabric with rx := mput s.fabric.rx part r } }).sendAck part)

/-- OPEN (R304). -/
def execOpenPkt (p : FalramPkt) (s : State) : Res :=
  guardRes (Instr.wf (.openPkt p)) (s.receive 4 p (fun s => s.openFrom p))

/-- CUM raised past the PSNs that have been received. -/
def raiseCum (fuel : Nat) (r : RxStream) : RxStream :=
  match fuel with
  | 0 => r
  | fuel + 1 =>
    if r.sack.contains r.cum then raiseCum fuel { r with cum := r.cum + 1, sack := r.sack.filter (· != r.cum) } else r

/-- A PSN received. -/
def takePsn (r : RxStream) (psn : Nat) : RxStream :=
  raiseCum (r.sack.length + 1) { r with sack := psn :: r.sack, unacked := r.unacked + 1 }

/-- An acknowledgement is due after 32 packets (R303). -/
def State.ackDue (s : State) (part : Nat) : State :=
  match mfind s.fabric.rx part with
  | none => s
  | some r => if 32 ≤ r.unacked then s.sendAck part else s

/-- A DATA packet of an open stream: duplicate, outside the stream, or stored (R303, Table 12.7). -/
def State.dataFrom (s : State) (p : FalramPkt) (part : Nat) (r : RxStream) (b : List Byte) : State :=
  let n := packetsOf r.len
  if p.psn < r.cum ∨ r.sack.contains p.psn = true then
    ({ s with fabric := { s.fabric with rx := mput s.fabric.rx part { r with unacked := r.unacked + 1 } } }).ackDue part
  else if r.cum + 2048 ≤ p.psn then s.peerFault p 0x0B06 (rxSeal part r)
  else if n < p.psn ∨ r.len < p.offset + b.length ∨ (p.psn ≠ n ∧ b.length < 8192) ∨ (p.psn = n ∧ p.offset + b.length ≠ r.len) ∨
      p.last ≠ (p.psn == n) then
    (s.peerFault p 0x0B06 (rxSeal part r)).endStage part 0x0B06
  else
    (({ s with fabric := { s.fabric with rx := mput s.fabric.rx part (takePsn r p.psn) } }).stageBytes part p.offset b).ackDue part

/-- DATA (R303). -/
def execData (p : FalramPkt) (s : State) : Res :=
  guardRes (Instr.wf (.data p))
    (s.receive 5 p (fun s =>
      match s.rxFor p with
      | none => s.peerFault p 0x0B06 none
      | some (part, r) => s.withPayload 5 part p (fun b s => s.dataFrom p part r b)))

/-- CLOSE (R307): the stage ends with 0x0B0A. -/
def execClose (p : FalramPkt) (s : State) : Res :=
  guardRes (Instr.wf (.close p))
    (s.receive 8 p (fun s =>
      match s.rxFor p with
      | none => s
      | some (part, r) => s.withPayload 8 part p (fun _ s => if rxOpen r then s.endStage part 0x0B0A else s.dropRx part)))

/-! ### Sending a stream (R303, R305) -/

/-- The sending stream that a receiver's packet concerns. -/
def State.txFor (s : State) (p : FalramPkt) : Option (Nat × TxStream) :=
  s.fabric.tx.find? (fun e => e.2.stream == p.stream && e.2.receivers.any (fun r => r.dev == p.srcDev))

/-- A receiver has not acknowledged a PSN. -/
def lacks (psn : Nat) (r : Receiver) : Bool := decide (r.cum ≤ psn) && !r.sack.contains psn

/-- PSNs that SACK bytes name. -/
def sackOf (cum : Nat) (b : List Byte) : List Nat := ((List.range 256).filter (fun i => bit (leNat b) i)).map (fun i => cum + 1 + i)

/-- Cycles of the retransmission timeout. -/
def State.rtoCycles (s : State) : Nat := s.odG 0x6100 9 * cyclesPerUs

/-- A packet may be sent again now: at most once per timeout interval, within its number of sendings. -/
def State.mayResend (s : State) (t : TxStream) (psn : Nat) : Bool :=
  match mfind t.sent psn with
  | none => false
  | some (n, at') => decide (n ≤ s.odG 0x6100 0xA) && (n == 1 || decide (at' + s.rtoCycles ≤ s.clkTime))

/-- PSNs that an acknowledgement shows missing while a later one is acknowledged. -/
def missingIn (r : Receiver) : List Nat :=
  let top := r.sack.foldl max 0
  ((List.range (top - r.cum)).map (fun i => r.cum + i)).filter (fun n => !r.sack.contains n)

/-- An ACK of a receiver (R303): its place, retransmissions, and the window. -/
def State.ackFrom (s : State) (p : FalramPkt) (k : Nat) (t : TxStream) (b : List Byte) : State :=
  let cum := fieldN b 0 4
  let sack := sackOf cum (sliceB b 8 32)
  if t.next < cum ∨ sack.any (fun n => decide (t.next ≤ n)) = true then
    (s.odAdd 0x6100 0x11 1).log { rule := 308, status := 0x0B06, sev := 1, source := 6, data := [p.srcDev, p.stream, cum] }
  else
    let up := fun r : Receiver => if r.dev = p.srcDev then { r with cum := max r.cum cum, sack := sack } else r
    let s1 := s.modTx k (fun t =>
      let rs := t.receivers.map up
      { t with receivers := rs, sent := t.sent.filter (fun e => rs.any (lacks e.1)) })
    let gaps := missingIn (up { dev := p.srcDev })
    (s1.forEach gaps (fun n s =>
      match mfind s.fabric.tx k with
      | none => s
      | some t => if s.mayResend t n then s.sendPsn k n (some p.srcDev) else s)).runTx k

/-- ACK (R303). -/
def execAck (p : FalramPkt) (s : State) : Res :=
  guardRes (Instr.wf (.ack p))
    (s.receive 6 p (fun s =>
      match s.txFor p with
      | none => s
      | some (k, t) => s.withPayload 6 (k % 32) p (fun b s => s.ackFrom p k t b)))

/-- The partition whose stage waits for a group stream that has not opened. -/
def State.joiner (s : State) : Option Nat :=
  (List.range 32).find? (fun n => match (s.part n).cmd with
    | .stage _ 1 _ _ _ _ _ => (mfind s.fabric.rx n).isNone
    | _ => false)

/-- A NAK's effect on the stream it refuses (R305, R307, R308): packets refused for their authentication or format are
sent again; other codes fail the receiver. -/
def State.nakFrom (s : State) (p : FalramPkt) : State :=
  if p.status = 0x0B09 then
    match s.joiner with
    | some n => s.withPayload 7 n p (fun _ s => s.endStage n 0x0B09)
    | none => s
  else
    let s1 := if p.status = 0x0008 then { s with fabric := { s.fabric with unusable := p.srcDev :: s.fabric.unusable.filter (· != p.srcDev) } }
              else s
    match s1.txFor p with
    | none => s1
    | some (k, _) =>
      s1.withPayload 7 (k % 32) p (fun _ s =>
        if p.status = 0x0B03 ∨ p.status = 0x0001 ∨ p.status = 0x0002 then s else s.failReceiver k p.srcDev p.status)

/-- NAK (R308). -/
def execNak (p : FalramPkt) (s : State) : Res :=
  guardRes (Instr.wf (.nak p)) (s.receive 7 p (fun s => s.nakFrom p))

/-! ### Timers -/

/-- KEEPALIVE_TIMER (R302): while a stream with the peer is open. -/
def execKeepaliveTimer (dev : Nat) (s : State) : Res :=
  guardRes (Instr.wf (.keepaliveTimer dev))
    (if s.streamsWith dev then s.sendPkt 2 { s.newPkt dev with payload := leBytes 4 (s.odG 0x6100 6) } else s)

/-- ACK_TIMER (R303): 2 µs after the oldest packet not acknowledged. -/
def execAckTimer (part : Nat) (s : State) : Res :=
  guardRes (Instr.wf (.ackTimer part))
    (match mfind s.fabric.rx part with
     | none => s
     | some r => if 0 < r.unacked then s.sendAck part else s)

/-- The timeout of a packet of a sending stream: sent again, once, to each receiver that lacks it, or their end with
0x0B05. -/
def State.txTimeout (s : State) (k psn : Nat) : State :=
  match mfind s.fabric.tx k with
  | none => s
  | some t =>
    match mfind t.sent psn with
    | none => s
    | some (n, _) =>
      let need := (t.receivers.filter (lacks psn)).map (fun r => r.dev)
      if need.isEmpty then s
      else if s.odG 0x6100 0xA < n then s.forEach need (fun dev s => s.failReceiver k dev 0x0B05)
      else if t.group then
        (s.forEach need (fun dev s => s.sendPsn k psn (some dev))).modTx k (fun t =>
          { t with sent := match mfind t.sent psn with
              | none => t.sent
              | some e => mput t.sent psn (n + 1, e.2) })
      else s.sendPsn k psn none

/-- RETRANSMISSION_TIMEOUT (R303): of the partition's send, and of its chain. -/
def execRetransmissionTimeout (part psn : Nat) (s : State) : Res :=
  guardRes (Instr.wf (.retransmissionTimeout part psn)) ((s.txTimeout part psn).txTimeout (part + 32) psn)

/-- JOIN_TIMER (R304): the partition's stage of SRC 1 has seen no OPEN. -/
def execJoinTimer (part : Nat) (s : State) : Res :=
  guardRes (Instr.wf (.joinTimer part))
    (match (s.part part).cmd with
     | .stage _ 1 source _ _ _ _ =>
       if (mfind s.fabric.rx part).isNone then s.sendPkt 3 (s.pktTo (source % 65536) true) else s
     | _ => s)

/-- JOIN_WAIT_EXPIRY (R305): the group send sends OPEN. -/
def execJoinWaitExpiry (part : Nat) (s : State) : Res :=
  guardRes (Instr.wf (.joinWaitExpiry part))
    (match mfind s.fabric.tx part with
     | none => s
     | some t => if t.phase = 1 then ((s.modTx part (fun t => { t with phase := 2 })).odSetP 0x6110 2 part 2).runTx part else s)

/-- PEER_SILENCE (R302): the peer's open streams end with 0x0B01. -/
def execPeerSilence (dev : Nat) (s : State) : Res :=
  guardRes (Instr.wf (.peerSilence dev))
    (let s1 := s.forEach (s.fabric.tx.map (fun e => e.1)) (fun k s => s.failReceiver k dev 0x0B01)
     s1.forEach s1.fabric.rx (fun e s => if e.2.src = dev ∧ rxOpen e.2 = true then s.endStage e.1 0x0B01 else s))

/-- PEER_IDLE_EXPIRY (R301): an entry without an open stream is removed. -/
def execPeerIdleExpiry (dev : Nat) (s : State) : Res :=
  guardRes (Instr.wf (.peerIdleExpiry dev)) (if s.streamsWith dev then s else (s.dropPeer dev).countPeers)

/-- LLDP_TIMER (R296). -/
def execLldpTimer (link : Nat) (s : State) : Res :=
  guardRes (Instr.wf (.lldpTimer link)) (if bit (s.odG 0x6100 6) link then s.emit (.lldp link s.fabric.devId) else s)

/-! ### Links (R296, R302) -/

/-- State of a port as OD 0x6101 shows it. -/
def State.portState (s : State) (n up : Nat) : Nat :=
  if !bit (s.odG 0x6100 5) n then (if bit up (2 * n) then 1 else 0)
  else if bit up (2 * n) && bit up (2 * n + 1) then 2
  else if bit up (2 * n) || bit up (2 * n + 1) then 3
  else 0

/-- The reference of a link's side is there (R424): ports 0–7 lie on the north rim. -/
def State.linkClock (s : State) (link : Nat) : Bool := if link < 16 then s.hub.ethNClk else s.hub.ethSClk

/-- ETHERNET_LINK_CHANGE (R302): a link whose side lacks its reference stays down (R424). -/
def execEthernetLinkChange (link : Nat) (up : Bool) (s : State) : Res :=
  guardRes (Instr.wf (.ethernetLinkChange link up))
    (if s.linkExists link && (!up || s.linkClock link) then
       let mask := setBit (s.odG 0x6100 6) link up
       (s.odSet 0x6100 6 mask).odSet 0x6101 (link / 2 + 1) (s.portState (link / 2) mask)
     else s)

/-! ### Other frames (R297, R385) -/

/-- Link-local address of the management network: fe80::/64 with the interface ID of its MAC address (R385). -/
def State.mgmtAddr (s : State) : Nat :=
  let mac := s.odG 0x1100 1
  0xFE80 * 2 ^ 112 + (Nat.xor (mac / 2 ^ 24 % 2 ^ 24) 0x020000) * 2 ^ 40 + 0xFFFE * 2 ^ 24 + mac % 2 ^ 24

/-- A foreign frame is discarded and counted, on the management network as a violation of Table 16.8 (R297, R392). -/
def State.foreignFrame (s : State) (link : Option Nat) : State :=
  match link with
  | some _ => s.odAdd 0x6100 0x11 1
  | none => (s.odAdd 0x1100 6 1).log { rule := 392, sev := 1, source := 7 }

/-- The address is one of the device's on a fabric link, or on the management network. -/
def State.ownAddress (s : State) (link : Option Nat) (target : Nat) : Bool :=
  match link with
  | some l => s.fabric.udp && s.fabricOn && bit (s.odG 0x6100 6) l && target == s.fabricAddr l s.fabric.devId
  | none => s.hub.netOn && target == s.mgmtAddr

/-- The network of a frame is there: a fabric link, or the management network while the hub serves it. -/
def State.netThere (s : State) (link : Option Nat) : Bool :=
  match link with
  | some l => s.linkExists l
  | none => s.serving && s.hub.netOn

/-- NEIGHBOR_SOLICITATION (R297). -/
def execNeighborSolicitation (link : Option Nat) (target : Nat) (s : State) : Res :=
  guardRes (Instr.wf (.neighborSolicitation link target))
    (if !s.netThere link then s
     else if s.ownAddress link target then s.emit (.advert link target)
     else s.foreignFrame link)

/-- ECHO_REQUEST (R297). -/
def execEchoRequest (link : Option Nat) (target : Nat) (data : List Byte) (s : State) : Res :=
  guardRes (link.all (fun l => decide (l < 32)))
    (if !s.netThere link then s
     else if s.ownAddress link target then s.emit (.echo link target data)
     else s.foreignFrame link)

/-- FOREIGN_FRAME (R297). -/
def execForeignFrame (link : Option Nat) (s : State) : Res :=
  guardRes (link.all (fun l => decide (l < 32))) (if s.netThere link then s.foreignFrame link else s)

/-! ### The fabric send command (R307) -/

/-- Reserved bits of a fabric send command are set. -/
def sendReserved (c : List Byte) : Bool :=
  fieldN c 1 1 / 2 != 0 || fieldN c 2 1 / 16 != 0 || fieldN c 3 1 != 0 || !zeroRange c 6 26

/-- SEND: the checks of R307, then the stream; a peer not known yet is sent a HELLO. -/
def State.startSend (s : State) (p : Nat) (c : List Byte) : State × Nat :=
  let h := fieldN c 2 1 % 16
  let dst := fieldN c 4 2
  let group := bit (fieldN c 1 1) 0
  let st := (handleOf (s.part p) h).st
  if (mfind s.fabric.tx p).isSome then (s, 0x0005)
  else if st ≠ 2 ∧ st ≠ 3 ∧ st ≠ 4 then (s, 0x0207)
  else if group = true ∧ dst = 0 then (s, 0x0003)
  else
    let code := s.txRefusal p dst group
    if code = 0x0B01 then (s.sendHello dst, code)
    else if code ≠ 0 then (s, code)
    else (s.openTx p h dst group false, 0)

/-- A fabric send command written to OD 0x6110.01. -/
def State.sendCommand (caller : Caller) (p : Nat) (c : List Byte) (s : State) : State × Nat :=
  let opc := fieldN c 0 1
  if c.length ≠ 32 then (s, 0x0701)
  else if opc ≠ 0x60 ∧ opc ≠ 0x61 then (s, 0x0001)
  else if sendReserved c then (s, 0x0002)
  else if opc = 0x61 ∧ (mfind s.fabric.tx p).isNone = true then (s, 0x0009)
  else if s.partState p ≠ 1 ∨ s.standby = true then (s, 0x000B)
  else if s.sealedFrom caller p then (s, 0x0602)
  else if opc = 0x60 then s.startSend p c
  else (s.closeTx p 0x0B0A 0x0B0A, 0)

/-- FABRIC_SEND (R307). -/
def execFabricSend (caller : Caller) (part : Nat) (cmd : List Byte) (s : State) : Res :=
  guardRes (callerOk caller && partOk part) (s.command caller 0x6110 1 part (State.sendCommand caller part cmd))

/-- FABRIC_ABORT (R307). -/
def execFabricAbort (caller : Caller) (part : Nat) (cmd : List Byte) (s : State) : Res :=
  guardRes (callerOk caller && partOk part) (s.command caller 0x6110 1 part (State.sendCommand caller part cmd))

end Sys2Proof.Machine
end

