-- ==== Sys2Proof/Machine/Resets.lean ====
section
/-!
DEFINITION. Partitions formed, reset, scrubbed and dissolved (R349–R355, R139, R233), resets of functions, ports and the
module (R293, R396–R401), and what each leaves behind (R405).
-/

namespace Sys2Proof.Machine

/-! ### Stack regions (R139) -/

/-- Saved sizes of a partition's four regions. -/
def State.wantedRegions (s : State) (p : Nat) : List Nat := (List.range 4).map (fun r => s.odEff 0x3320 (r + 1) p)

/-- The extent is held by a partition other than `p`. -/
def State.extentTaken (s : State) (p d : Nat) : Bool := s.stk.extents.any (fun e => e.1 / 65536 != p && e.2 == d)

/-- The lowest device extents free for a partition, its own counted as free, the trace region's left out (R138). -/
def State.freeExtents (s : State) (p n : Nat) : List Nat :=
  ((List.range (s.odG 0x3310 4 - 64)).filter (fun d => !s.extentTaken p d)).take n

/-- Regions allocated at their saved sizes; none where the free extents cannot cover them. -/
def State.allocRegions (s : State) (p : Nat) : Option State :=
  let sizes := s.wantedRegions p
  let got := s.freeExtents p sizes.sum
  if got.length < sizes.sum then none
  else
    let kept := s.stk.extents.filter (fun e => e.1 / 65536 != p)
    let extents := (got.mapIdx (fun i d => (p * 65536 + i, d))).foldl (fun m e => mput m e.1 e.2) kept
    let regions := (sizes.mapIdx (fun i n => (p * 4 + i, n))).foldl (fun m e => mset 0 m e.1 e.2) s.stk.regions
    some (({ s with stk := { s.stk with extents := extents, regions := regions } }).odSetP 0x3320 5 p sizes.sum)

/-- Regions freed without erasure. -/
def State.freeRegions (s : State) (p : Nat) : State :=
  ({ s with stk := { s.stk with extents := s.stk.extents.filter (fun e => e.1 / 65536 != p),
                                regions := s.stk.regions.filter (fun e => e.1 / 4 != p) } }).odSetP 0x3320 5 p 0

/-- The warm tier, prefix tree and request state regions zeroed (Table 15.3). -/
def State.eraseRegions (s : State) (p : Nat) : State :=
  let first := s.regionExtents p 0
  let mine := s.stk.extents.filter (fun e => e.1 / 65536 == p && decide (first ≤ e.1 % 65536))
  s.forEach mine (fun e s => s.eraseStack (e.2 * 2 ^ 28) (2 ^ 28))

/-! ### Request block (R233) -/

/-- Blocks of the other formed partitions. -/
def State.reqBlocks (s : State) (p : Nat) : List (Nat × Nat) :=
  ((List.range 32).filter (fun q => q != p && s.partState q != 0)).map (fun q => ((s.part q).reqFirst, s.odP 0x5000 0x14 q))

/-- The lowest run of free REQ values of a size, the partition's own block counted as free. -/
def State.reqRun (s : State) (p n : Nat) : Option Nat :=
  let a := lowestGap 33 0 n (s.reqBlocks p)
  if a + n ≤ 8192 then some a else none

/-- Quota of a partition. -/
def State.quota (s : State) (p : Nat) : Nat := s.odEff 0x5000 2 p

/-- The block at a RESET: it shrinks in place, moves, or stays with a log entry. -/
def State.resizeBlock (s : State) (p : Nat) : State :=
  let q := s.quota p
  if q ≤ s.odP 0x5000 0x14 p then s.odSetP 0x5000 0x14 p q
  else
    match s.reqRun p q with
    | some a => (s.modPart p (fun P => { P with reqFirst := a })).odSetP 0x5000 0x14 p q
    | none => s.log { rule := 233, sev := 1, part := p }

/-- Regions and block at a RESET: allocated again, or kept with a log entry. -/
def State.resizePart (s : State) (p : Nat) : State :=
  let s1 := match s.allocRegions p with
    | some t => t
    | none => s.log { rule := 139, sev := 1, part := p }
  s1.resizeBlock p

/-! ### Functions (R293, R405) -/

/-- The caller of a function's mailbox. -/
def fnCaller (port : Port) (fn : Nat) : Caller := if fn = 0 then .pf port else .vf port fn

/-- What the dictionary server keeps for a caller is gone. -/
def State.dropCaller (s : State) (c : Caller) : State :=
  { s with hub := { s.hub with versions := s.hub.versions.filter (fun e => e.1 != c),
                               kept := s.hub.kept.filter (fun e => e.1 != c) } }

/-- A function returns to its defaults; an FLR leaves its IDE stream. A PF that holds the lock loses it.
PRESUMED, log 77. -/
def State.resetFn (s : State) (port : Port) (fn : Nat) (keepIde : Bool) : State :=
  let s1 := (s.modFn port fn (fun f => if keepIde then { ideKeys := f.ideKeys, ideSet := f.ideSet, ideBroken := f.ideBroken } else {})).dropCaller
    (fnCaller port fn)
  let s2 := if fn != 0 && s.bound port fn then s1.odSet 0x6002 fn 0 else s1
  if fn = 0 ∧ s2.hub.lockHolder = pfHolder port then s2.freeLock else s2

/-- The saved binding takes effect (R282, R293): reset on the old port's VF, EN = 0 and NEG = 0 on the new one; the old
port's PF is told (R284). DESIGN CHOICE, log 79. -/
def State.rebind (s : State) (p : Nat) : State :=
  let want := s.odG 0x6001 (p + 1)
  if (s.part p).port = want then s
  else
    let s1 := ((s.resetFn (s.boundPort p) (p + 1) true).interrupt (s.boundPort p) 0 3).modPart p (fun P => { P with port := want })
    s1.modFn (s1.boundPort p) (p + 1) (fun f => { f with en := false, fetching := false, neg := 0, verResult := 0 })

/-! ### Scrub of a partition (R353) -/

/-- A scrub starts: stack regions, route entries, keys and claim erased, its fields unscrubbed until it completes.
DESIGN CHOICE, log 96. -/
def State.startScrub (s : State) (p next : Nat) : State :=
  let s1 := ((s.eraseRegions p).dropRoutes p).forEach (fieldsOf (s.partMask p)) (fun f s => s.odSet 0x7103 (f + 1) 1)
  let s2 := s1.modPart p (fun P =>
    { P with claim := none, keys := [], streams := [], nodes := [], roots := [], scrubTo := some next })
  (s2.odSet 0x4102 (p + 1) 0).odSet 0x4002 (p + 1) 4

/-- A partition command ends with a status (OD 0x4000.03). -/
def State.endPartCmd (s : State) (p code : Nat) : State :=
  let mine := fun k : ActKind => match k with
    | .partCmd _ q => q == p
    | _ => false
  if s.hub.acts.any (fun a => mine a.kind) then
    (({ s with hub := { s.hub with acts := s.hub.acts.filter (fun a => !mine a.kind) } }).odSet 0x4000 3 code).showActs
  else s

/-! ### Forming, resetting, dissolving (R351) -/

/-- A field of no partition that is scrubbed. DEDUCED, log 95. -/
def State.formable (s : State) (f : Nat) : Bool := (s.partOfField f).isNone && s.odG 0x7103 (f + 1) == 0

/-- Checks of a FORM up to the locks. DESIGN CHOICE, log 94. -/
def State.formCode (s : State) (p : Nat) : Nat :=
  let mask := s.odG 0x4001 (p + 1)
  if s.partState p ≠ 0 then 0x0604
  else if mask = 0 ∨ (fieldsOf mask).all (fun f => s.formable f) = false then 0x0603
  else if (fieldsOf mask).all (fun f => s.fieldOn f) = false then 0x000B
  else 0

/-- FORM from its allocations on; the PF of its port is told (R284). -/
def State.formPart (s : State) (p : Nat) : State × Nat :=
  match (s.odSet 0x1211 (p + 1) (s.odG 0x1210 (p + 1))).allocRegions p with
  | none => (s, 0x0407)
  | some s1 =>
    match s1.reqRun p (s1.quota p) with
    | none => (s, 0x010B)
    | some a =>
      let s2 := ((s1.modPart p (fun P => { port := P.port, reqFirst := a })).odResetPart p).rebind p
      let s3 := ((s2.odSetP 0x5000 0x14 p (s2.quota p)).odSet 0x4003 (p + 1) (s.odG 0x4001 (p + 1))).odSet 0x4002 (p + 1) 1
      ((s3.pushReread p (s3.partMask p)).interrupt (s3.boundPort p) 0 3, 0)

/-- All work of a partition ends with a code, and its program is unloaded. -/
def State.endWork (s : State) (p code : Nat) : State :=
  let s1 := (s.endHeld p code code).endModel p code
  (((s1.closeTx p code code).closeTx (p + 32) code code).dropRx p).unload p

/-- What a reset clears of a partition whose work has ended (R199, R405): debug, its record but for a scrub that runs, its
V-class entries. -/
def State.wipePart (s : State) (p : Nat) : State :=
  let s1 := (s.clearDebug p).clearCtrl p
  let s2 := s1.modPart p (fun P => { port := P.port, reqFirst := P.reqFirst, scrubTo := P.scrubTo })
  ((s2.odResetPart p).countHeld p).rebind p

/-- RESET or DISSOLVE of a formed partition (Table 15.2, R405); a claimed one, and every dissolved one, is scrubbed. -/
def State.resetPart (s : State) (p : Nat) (dissolve : Bool) : State :=
  let claimed := (s.part p).claim.isSome
  let s2 := (s.forEach (fieldsOf (s.partMask p)) (fun f s => s.yieldField f)).endWork p 0x000D
  let s3 := s2.wipePart p
  let s4 := ((s3.odSet 0x1211 (p + 1) (s3.odG 0x1210 (p + 1))).pushReread p (s3.partMask p)).interrupt (s3.boundPort p) 0 3
  let s5 := if claimed || dissolve then s4.startScrub p (if dissolve then 0 else 1) else s4.odSet 0x4002 (p + 1) 1
  if dissolve then s5 else s5.resizePart p

/-- A scrubbed partition that was dissolved gives up its fields, regions and block. -/
def State.freePart (s : State) (p : Nat) : State :=
  let s1 := (s.freeRegions p).modPart p (fun P => { port := P.port })
  ((s1.odSetP 0x5000 0x14 p 0).odSet 0x4003 (p + 1) 0).odSet 0x4002 (p + 1) 0

/-- A scrub ends: each field that is on is scrubbed, a dark one stays unscrubbed (R355). -/
def State.finishScrub (s : State) (p : Nat) (failed : List (TileId × Nat)) : State :=
  match (s.part p).scrubTo with
  | none => s
  | some next =>
    let s1 := s.forEach (fieldsOf (s.partMask p)) (fun f s => if s.fieldOn f then s.scrubField f failed else s)
    let s2 := s1.modPart p (fun P => { P with scrubTo := none })
    let s3 := if next = 0 then s2.freePart p else s2.odSet 0x4002 (p + 1) next
    s3.endPartCmd p 0

/-- A partition command from its start on, its locks being free. -/
def State.runPart (s : State) (opc p : Nat) : State × Nat :=
  if opc = 0x70 then
    let c := s.formCode p
    if c ≠ 0 then (s, c)
    else
      let z := s.formPart p
      if z.2 ≠ 0 then (z.1, z.2)
      else ((z.1.forEach (fieldsOf (z.1.partMask p)) (fun f s => s.yieldField f)).odSet 0x4000 3 0, 0)
  else if s.partState p ≠ 1 ∧ s.partState p ≠ 2 then (s, 0x0604)
  else
    let s0 := s.log { rule := 406, status := 0x000D, part := p }
    let s1 := (s0.startAct (.partCmd opc p) (s0.partMask p)).resetPart p (opc == 0x72)
    (if s1.partState p = 4 then s1 else s1.endPartCmd p 0, 0)

/-- Fields whose locks a partition command takes. -/
def State.partFields (s : State) (opc p : Nat) : Nat := if opc = 0x70 then s.odG 0x4001 (p + 1) else s.partMask p

/-- A command written to OD 0x4000.01 (R351). -/
def State.partCommand (cmd : List Byte) (s : State) : State × Nat :=
  let opc := fieldN cmd 0 1
  let p := fieldN cmd 1 1
  let early := if opc = 0x70 then s.formCode p else if s.partState p = 1 ∨ s.partState p = 2 then 0 else 0x0604
  if cmd.length ≠ 8 then (s, 0x0701)
  else if opc < 0x70 ∨ 0x72 < opc then (s, 0x0001)
  else if zeroRange cmd 2 6 = false then (s, 0x0002)
  else if s.standby then (s, 0x000B)
  else if 31 < p then (s, 0x0003)
  else if early ≠ 0 then (s, early)
  else
    let c := s.maintCode (s.partFields opc p)
    if c = 0x0801 then
      (((s.queueAct (.partCmd opc p) (s.partFields opc p) cmd).countMaint c).setBlobP 0x4000 1 0xFF cmd, c)
    else if c ≠ 0 then (s.countMaint c, c)
    else
      let z := s.runPart opc p
      if z.2 ≠ 0 then z else (z.1.setBlobP 0x4000 1 0xFF cmd, 0)

/-- FORM (R351). -/
def execForm (caller : Caller) (cmd : List Byte) (s : State) : Res :=
  guardRes (callerOk caller) (s.command caller 0x4000 1 0xFF (State.partCommand cmd))

/-- RESET (R351). -/
def execReset (caller : Caller) (cmd : List Byte) (s : State) : Res :=
  guardRes (callerOk caller) (s.command caller 0x4000 1 0xFF (State.partCommand cmd))

/-- DISSOLVE (R351). -/
def execDissolve (caller : Caller) (cmd : List Byte) (s : State) : Res :=
  guardRes (callerOk caller) (s.command caller 0x4000 1 0xFF (State.partCommand cmd))

/-- SCRUB_COMPLETE (R354, R355). -/
def execScrubComplete (part : Nat) (failedArrays : List (TileId × Nat)) (s : State) : Res :=
  guardRes (partOk part && failedArrays.all (fun p => tileOk p.1 && decide (p.2 < 192))) (s.finishScrub part failedArrays)

/-! ### Resets by a host (R293, R401) -/

/-- A host's reset of a partition: at once, or after a management restart. In a partition that is being scrubbed, a
partition command of it in progress ends with 0x000D, its values return to their defaults, and the scrub goes on. -/
def State.hostReset (s : State) (p : Nat) : State :=
  if s.hub.away then { s with hub := { s.hub with resetsDue := setBit s.hub.resetsDue p true } }
  else if s.partState p = 1 ∨ s.partState p = 2 then s.resetPart p false
  else if s.partState p = 4 then
    let commanded := s.hub.acts.any (fun a => a.kind == ActKind.partCmd 0x71 p || a.kind == ActKind.partCmd 0x72 p)
    let s1 := if commanded then (s.modPart p (fun P => { P with scrubTo := some 1 })).endPartCmd p 0x000D else s
    s1.wipePart p
  else s

/-- Formed partitions that a port serves. -/
def State.portParts (s : State) (port : Port) : List Nat :=
  (List.range 32).filter (fun p => s.partState p != 0 && s.boundPort p == port)

/-- The log entry of a reset by a host (R406). -/
def State.logReset (s : State) (port : Port) (part : Nat) : State :=
  if s.hub.vstby then s.log { rule := 406, status := 0x000D, source := 4 + portNum port, part := part } else s

/-- PERST (R293): every function of the port and every partition bound to it. -/
def execPerst (port : Port) (s : State) : Res :=
  guardRes (Instr.wf (.perst port))
    (let parts := s.portParts port
     let fns := List.range 33
     let s1 := ((s.logReset port 0xFF).forEach fns (fun n s => s.resetFn port n false)).odSet 0x6000 (4 + portNum port) 0
     let s2 := s1.forEach parts (fun p s => s.hostReset p)
     s2.forEach fns (fun n s => s.resetFn port n false))

/-- FUNCTION_LEVEL_RESET (R293): of the PF, of a bound VF with its partition, or of an unbound VF. -/
def execFunctionLevelReset (port : Port) (fn : Nat) (s : State) : Res :=
  guardRes (Instr.wf (.functionLevelReset port fn))
    (let bound := s.bound port fn
     let s1 := (s.logReset port (if bound then vfPart fn else 0xFF)).resetFn port fn true
     if bound then (s1.hostReset (vfPart fn)).resetFn port fn true else s1)

/-! ### Loss of power -/

/-- What the calibration flash holds of an array. -/
def flashArray (x : ChargeArray) : ChargeArray :=
  { factory := x.factory, delta := x.saved, saved := x.saved, adcFactory := x.adcFactory }

/-- A tile without power. -/
def flashTile (T : Tile) : Tile :=
  { cb := { arrays := T.cb.arrays.filterMap (fun e => if flashArray e.2 = {} then none else some (e.1, flashArray e.2)) } }

/-- The module without power: flash contents and fuses remain (Table 17.4). A flash write cut short leaves no bootable
image (R375). -/
def State.losePower (s : State) : State :=
  let s0 := s.odReset (fun r _ _ => r.pers == .v || r.pers == .w || r.idx == 0x2304)
  let s1 := s0.forEach s.hub.savedCycles (fun e s => s.odSet 0x2304 (e.1 + 1) e.2)
  let slot := if s.odG 0x1300 4 = 3 then none else s.hub.slot
  { s1 with
    hub := { flashLog := s.hub.flashLog, slot := slot, deltas := s.hub.deltas, downDays := s.hub.downDays, savedCycles := s.hub.savedCycles,
             refclk := s.hub.refclk, modRst := s.hub.modRst }
    mesh := {}
    stk := {}
    power := {}
    fields := []
    tiles := s.tiles.filterMap (fun e => if flashTile e.2 = {} then none else some (e.1, flashTile e.2))
    routers := []
    parts := []
    fns := []
    fabric := {} }

/-! ### The course of a start (Table 17.1) -/

/-- Level of an output pin. -/
def State.pin (s : State) (name : String) (level : Bool) : State := s.emit (.pin name level)

/-- Level of MOD_READY (R417, R425): high while the running firmware serves the full dictionary. -/
def State.readyPin (s : State) : Bool := s.serving && !s.hub.recovery

/-- Level of MOD_FAULT_N (R417): low while the hub is halted on its ROM key, or in recovery. -/
def State.faultPin (s : State) : Bool := !(s.hub.romHalt || s.odG 0x7102 1 == 6)

/-- MOD_FAULT_N goes high where it is low: what drove it ends. -/
def State.releaseFault (s : State) : State := if s.faultPin then s else s.pin "MOD_FAULT_N" true

/-- The firmware that runs now: its values in the dictionary (R372, R373); the rollback floor rises with it. -/
def State.runImage (s : State) (im : Image) : State :=
  let s1 := ({ s with hub := { s.hub with running := im, recovery := false } }).odSet 0x1300 1 im.version
  let s2 := (s1.odSet 0x1300 6 im.version).setBlobP 0x1300 8 0xFF im.digest
  let s3 := if s2.odG 0x1300 7 < im.svn then s2.odSet 0x1300 7 im.svn else s2
  (im.versions.zip ((List.range 5).map (fun i => (0x1010, i + 1)) ++ (List.range 5).map (fun i => (0x1011, i + 1)))).foldl
    (fun s e => s.odSet e.2.1 e.2.2 e.1) s3

/-- Settings that a start or restart of the hub takes in (R298, R395). -/
def State.hubSettings (s : State) : State :=
  let dev := s.odG 0x6100 1
  let udp := s.odG 0x6100 2 == 1
  let changed := s.fabric.devId != dev || s.fabric.udp != udp
  let s1 := { s with hub := { s.hub with netOn := s.odG 0x1100 4 == 1 },
                     fabric := { s.fabric with devId := dev, udp := udp, peers := if changed then [] else s.fabric.peers } }
  if changed then s1.odSet 0x6120 1 0 else s1

/-- The image slot holds an image that may run: Trailhead's checks, and its SVN against the floor. DEDUCED, log 103. -/
def State.bootable (s : State) (imageOk : Bool) : Option Image :=
  match s.hub.slot with
  | none => none
  | some im => if imageOk && decide (s.odG 0x1300 7 ≤ im.svn) then some im else none

/-- The hub halts on its ROM key. -/
def State.haltHub (s : State) : State := ({ s with hub := { s.hub with romHalt := true, served := false } }).pin "MOD_FAULT_N" false

/-- The hub enters recovery (R374). -/
def State.enterRecovery (s : State) : State :=
  let s1 := ({ s with hub := { s.hub with recovery := true, served := true } }).odSet 0x7102 1 6
  s1.pin "MOD_FAULT_N" false

/-- Bytes that a stack must hold: 96 GB (Table 5.12, Table 0.6). -/
def stackSize : Nat := 96000000000

/-- The stacks are trained (R137): one that fails, or that holds another capacity, is offline (Table 5.12). -/
def State.trainStacks (s : State) (env : StartEnv) : State :=
  let sizeOk := fun k => env.stackSizes.all (fun e => e.1 != k || e.2 == stackSize)
  let online := (List.range 16).filter (fun k => !env.stacksOffline.contains k && sizeOk k)
  let s1 := { s with stk := { s.stk with online := online } }
  let s2 := s1.forEach (List.range 16) (fun k s => s.odSet 0x3311 (k + 1) (if online.contains k then 0 else 1))
  let s3 := (s2.odSet 0x3310 1 online.length).odSet 0x3310 2 (if s2.odG 0x3310 3 = 0 then 80 else 64)
  s3.odSet 0x3310 4 (stackSize * online.length / 2 ^ 28)

/-- Stile state of a field with every Stile working (R332): source and D. -/
def stileStart (f : Nat) : Nat := (f % 8 + f / 8) * 256 + (if f % 8 > 0 then 1 else if f / 8 > 0 then 2 else 0)

/-- The field is off, or going off, for heat (R340, Table 14.4): by the cause of its switch-off, which outlives OD 0x2305. -/
def State.offForHeat (s : State) (f : Nat) : Bool :=
  let x := s.field f
  let cause := x.offDue.getD x.why
  cause == OffCause.heat || cause == OffCause.critical

/-- A field that a start leaves dark: its fuse is open, it is locked off, or heat holds it off. -/
def State.staysDark (s : State) (f : Nat) : Bool :=
  s.fieldState f == 4 || s.fieldState f == 5 || (s.field f).offDue == some OffCause.phase || s.offForHeat f

/-- A field is switched on in a start: its phases and failed links tested, scrubbed and calibrated (R317, R412), or left off
after its second failure (R398). -/
def State.startField (s : State) (env : StartEnv) (f : Nat) : State :=
  if s.staysDark f then s
  else
    let s1 := s.phaseTest f ((env.failedPhases.filter (fun e => e.1 == f)).map (fun e => e.2))
    if env.fieldsFailed.contains f || phasesFatal (s1.odG 0x2103 (f + 1)) then
      (s1.odSet 0x2101 (f + 1) 1).log { rule := 398, status := 0x0904, sev := 2, source := 1, field := f }
    else
      let s2 := ((s1.scrubField f env.failedArrays).startTrims f env.trims).restoreLinks f env.linksPassed
      (s2.odSet 0x2101 (f + 1) 0).setGrant f 0

/-- The fields that are not on. -/
def State.darkFields (s : State) : Nat := (allFields.filter (fun f => !s.fieldOn f)).foldl (fun m f => m + 2 ^ f) 0

/-- Every field of a start, and the dark-field mask after it. -/
def State.startFields (s : State) (env : StartEnv) : State :=
  let s1 := s.forEach allFields (fun f s => s.startField env f)
  ({ s1 with mesh := { s1.mesh with down := s1.darkFields } }).odSet 0x3401 1 s1.darkFields

/-- A partition is formed from its saved mask, or left in state 0 with a log entry (R352). -/
def State.formIfSaved (s : State) (p : Nat) : State :=
  if s.odG 0x4001 (p + 1) = 0 then s
  else
    let c := s.formCode p
    let z := if c ≠ 0 then (s, c) else s.formPart p
    if z.2 ≠ 0 then s.log { rule := 352, status := z.2, sev := 1, part := p } else z.1

/-- The device serves: 455 ms row of Table 17.1, with the log entry of a cold power-on (R406). -/
def State.serveStart (s : State) (env : StartEnv) : State :=
  let s1 := { s with hub := { s.hub with served := true, waitRef := false, heldReset := false, startDue := none,
                                         ethNSel := env.ethNSel, ethSSel := env.ethSSel, ethNClk := env.ethNClk, ethSClk := env.ethSClk } }
  (if s.odG 0x7102 2 = 0 then (s1.odSet 0x7102 1 1).log { rule := 406 } else s1.odSet 0x7102 1 1).pin "MOD_READY" true

/-- Wafer time at a start: 0 after a cold power-on (R336). -/
def State.startClk (s : State) (cold : Bool) : State := if cold then { s with clkTime := 0 } else s

/-- The start from the row at 49 ms: clock, stacks at a cold power-on, fields, partitions, service. -/
def State.resumeStart (s : State) (env : StartEnv) : State :=
  let cold := s.odG 0x7102 2 == 0
  let s1 := (s.startClk cold).odSet 0x2200 1 1
  let s2 := s1.odSet 0x2200 2 1
  let s3 := if cold then s2.trainStacks env else s2
  let s4 := ({ s3 with stk := { s3.stk with selfRefresh := false } }).forEach allFields (fun f s => s.odSet 0x2201 (f + 1) (stileStart f))
  ((s4.startFields env).forEach (List.range 32) (fun p s => s.formIfSaved p)).serveStart env

/-- The start goes on, or waits for the reference clock with the dictionary served (R397). -/
def State.fromLock (s : State) (env : StartEnv) : State :=
  if env.refclk then s.resumeStart env
  else
    (({ s with hub := { s.hub with waitRef := true, served := true, heldReset := false } }).odSet 0x2200 1 0).pin "MOD_READY" true

/-- Trailhead at a start (R373), then what follows it. -/
def State.trailhead (s : State) (env : StartEnv) (next : State → State) : State :=
  if !env.romKeyOk then s.haltHub
  else
    match s.bootable env.imageOk with
    | none => ({ s with hub := { s.hub with startDue := some env } }).enterRecovery
    | some im => next (s.runImage im).hubSettings

/-- A cold power-on (R396, R425). -/
def State.coldStart (s : State) (env : StartEnv) : State :=
  let s1 := s.losePower
  let s2 := { s1 with hub := { s1.hub with powered := true, vstby := true, refclk := env.refclk, modRst := env.modRstLow } }
  s2.trailhead env (fun s =>
    if env.modRstLow then { s with hub := { s.hub with heldReset := true } } else s.fromLock env)

/-- COLD_POWER_ON (R396): with VSTBY absent. DESIGN CHOICE, log 4. -/
def execColdPowerOn (env : StartEnv) (s : State) : Res :=
  guardRes (Instr.wf (.coldPowerOn env)) (if s.hub.vstby || s.hub.lockout then s else s.coldStart env)

/-! ### Device warm reset (R400) -/

/-- Events held at their sources go into the log after a management restart (Table 16.1). -/
def State.flushHeld (s : State) : State :=
  let s1 := { s with hub := { s.hub with restarting := false, held := [], heldLost := [] } }
  let s2 := s1.forEach s.hub.held (fun e s => s.forEach e.2 (fun x s => s.logAppend x))
  s2.forEach s.hub.heldLost (fun e s => (s.odAdd 0x1130 6 e.2).log { rule := 371, sev := 1, data := [e.1, e.2] })

/-- Device extents of the model stores. -/
def State.storeExtents (s : State) : List Nat :=
  (s.stk.extents.filter (fun e => decide (e.1 % 65536 < s.regionExtents (e.1 / 65536) 0))).map (fun e => e.2)

/-- What a warm reset leaves of the stacks: the model stores' bytes, in extents that belong to no partition. -/
def State.warmStacks (s : State) : Stacks :=
  let keep := s.storeExtents
  { s.stk with mem := s.stk.mem.filter (fun e => keep.contains (e.1 / 2 ^ 28)),
               bad := s.stk.bad.filter (fun u => keep.contains (u * 64 / 2 ^ 28)),
               extents := [], regions := [], selfRefresh := true }

/-- What a warm reset leaves of a field's state: why it stays dark, and its sensors. -/
def State.warmFields (s : State) : SMap Field :=
  s.fields.filterMap (fun e =>
    let x : Field := if s.staysDark e.1 then
        { why := e.2.offDue.getD e.2.why, offAt := if e.2.offDue.isSome then s.clkTime else e.2.offAt, heatTimes := e.2.heatTimes, heldHeat := e.2.heldHeat, bandTemp := e.2.bandTemp,
          excluded := e.2.excluded, rowless := e.2.rowless }
      else { bandTemp := e.2.bandTemp, excluded := e.2.excluded, rowless := e.2.rowless }
    if x = {} then none else some (e.1, x))

/-- What a warm reset leaves of the tiles: their calibration tables. -/
def State.warmTiles (s : State) : SMap Tile :=
  s.tiles.filterMap (fun e => if lostTile e.2 = {} then none else some (e.1, lostTile e.2))

/-- What a warm reset leaves of the hub. -/
def State.warmHub (s : State) : Hub :=
  let h := { s.hub with recovery := false, romHalt := false, versions := [], peers := [], rates := [], kept := [] }
  let h2 := { h with lockHolder := 0, lockPeer := (0, 0), acts := [], queue := [], activationDue := false, activating := false }
  let h3 := { h2 with fieldsDue := 0, resetsDue := 0, served := false, waitRef := false, startDue := none }
  { h3 with slot := if s.odG 0x1300 4 = 3 then none else s.hub.slot }

/-- Entries after a warm reset (Table 17.4): class V at its default; each field dark and unscrubbed, tripped or locked off as it
was (R318, R320). -/
def State.warmOd (s : State) : State :=
  let s1 := s.odReset (fun r _ _ => r.pers == .v)
  s1.forEach allFields (fun f s =>
    let st := if s.fieldState f = 4 then 4 else if s.fieldState f = 5 ∨ (s.field f).why = .phase then 5 else 1
    (s.odSet 0x2101 (f + 1) st).odSet 0x7103 (f + 1) 1)

/-- What a warm reset leaves of the state, dictionary aside. -/
def State.warmCleared (s : State) : State :=
  { pending := s.pending, out := s.out, free := s.free, clkTime := s.clkTime, od := s.od, odBlob := s.odBlob,
    hub := s.warmHub, mesh := { failed := s.mesh.failed }, stk := s.warmStacks,
    power := { s.power with switchQueue := [] }, fields := s.warmFields, tiles := s.warmTiles, routers := [], parts := [],
    fns := [], fabric := { s.fabric with tx := [], rx := [] } }

/-- Steps 1 to 3 of R400. DESIGN CHOICE, log 111. -/
def State.beginWarm (s : State) (cause : Nat) : State :=
  let s2 := s.releaseFault.flushHeld.warmCleared
  let s3 := (((((s2.warmOd).odSet 0x6000 4 0).odSet 0x6000 5 0).odSet 0x7102 1 5).odSet 0x7102 2 cause).odAdd 0x7102 3 1
  let s4 := if s3.odG 0x1300 4 = 3 then s3.odSet 0x1300 4 5 else if s3.odG 0x1300 4 = 4 then s3.odSet 0x1300 4 0 else s3
  (s4.log { rule := 400, status := 0x000D, sev := 1, data := [cause] }).pin "MOD_READY" false

/-- Steps 4 and 5 of R400. DESIGN CHOICE, log 111. -/
def State.finishWarm (s : State) (env : StartEnv) : State :=
  ({ s with hub := { s.hub with heldReset := false } }).trailhead env (fun s => s.fromLock env)

/-- A start or a warm reset is under way: a further one is absorbed (R401). -/
def State.starting (s : State) : Bool := s.hub.heldReset || s.hub.waitRef

/-- A device warm reset with MOD_RST_N high. -/
def State.warmReset (s : State) (cause : Nat) (env : StartEnv) : State :=
  if !s.hub.powered || s.starting then s else (s.beginWarm cause).finishWarm env

/-- REFCLK_RETURN (R331, R397). -/
def execRefclkReturn (env : StartEnv) (s : State) : Res :=
  guardRes (Instr.wf (.refclkReturn env))
    (let s1 := { s with hub := { s.hub with refclk := true } }
     if !s1.hub.vstby || s1.hub.refclk == s.hub.refclk then s1
     else
       let s2 := (s1.odSet 0x2200 1 1).log { rule := 331 }
       if !s2.hub.waitRef then s2
       else if s2.hub.modRst then { s2 with hub := { s2.hub with waitRef := false, heldReset := true } }
       else s2.resumeStart env)

/-- REFCLK_LOSS (R331): holdover; the device serves on. -/
def execRefclkLoss (s : State) : Res :=
  guardRes (Instr.wf .refclkLoss)
    (let s1 := { s with hub := { s.hub with refclk := false } }
     if !s.hub.vstby || !s.hub.refclk then s1 else (s1.odSet 0x2200 1 0).log { rule := 331, sev := 1 })

/-- PLL_LOSS_OF_LOCK (R331): counted, and a device warm reset. -/
def execPllLossOfLock (env : StartEnv) (s : State) : Res :=
  guardRes (Instr.wf (.pllLossOfLock env))
    (if s.odG 0x2200 2 = 0 then s
     else
       let s1 := (s.odAdd 0x2200 3 1).log { rule := 331, sev := 2 }
       s1.warmReset 3 env)

/-- MOD_RST_N_ASSERT (R400): the device holds after step 3 while the pin stays low. -/
def execModRstNAssert (s : State) : Res :=
  guardRes (Instr.wf .modRstNAssert)
    (let s1 := { s with hub := { s.hub with modRst := true } }
     if !s1.hub.powered || s1.starting then s1
     else
       let s2 := s1.beginWarm 1
       { s2 with hub := { s2.hub with heldReset := true } })

/-- MOD_RST_N_RELEASE (R400, R425): a held warm reset or a held start continues. -/
def execModRstNRelease (env : StartEnv) (s : State) : Res :=
  guardRes (Instr.wf (.modRstNRelease env))
    (let s1 := { s with hub := { s.hub with modRst := false } }
     if !s1.hub.heldReset then s1
     else if s1.odG 0x7102 2 = 0 then ({ s1 with hub := { s1.hub with heldReset := false } }).fromLock env
     else s1.finishWarm env)

/-- Checks of maintenance command 0x83 (R411). -/
def State.warmCode (fields : Nat) (s : State) : State × Nat :=
  if fields ≠ 0 then (s, 0x0003)
  else if s.activating then (s.countMaint 0x0802, 0x0802)
  else (s, 0)

/-- A command whose effect follows its reply. -/
def State.commandThen (s : State) (c : Caller) (idx sub part : Nat) (run : State → State × Nat) (after : State → State) : State :=
  let s1 := s.odAdd 0x1100 5 1
  let done := s.command c idx sub part run
  if s.mayCall c && s1.gate c idx sub part true == 0 && !foreign c idx sub part && (run s1).2 == 0 then after done else done

/-- DEVICE_WARM_RESET (R400, R411). DESIGN CHOICE, log 116. -/
def execDeviceWarmReset (caller : Caller) (fields : BitVec 64) (env : StartEnv) (s : State) : Res :=
  guardRes (Instr.wf (.deviceWarmReset caller fields env))
    (s.commandThen caller 0x7100 1 0xFF (State.warmCode fields.toNat) (fun s => s.warmReset 2 env))

end Sys2Proof.Machine
end

