-- ==== Sys2Proof/Machine/HostReads.lean ====
section
/-!
DEFINITION. Host reads as they complete or fail (R287, R292), and the loss of a secure IDE stream (R291).
-/

namespace Sys2Proof.Machine

/-- The function that a host read was made for. -/
def readFn : HostReadUse → Nat
  | .fetch vf => vf
  | .prompt p _ => p + 1
  | .stage p => p + 1

/-- The prompt of a request is being read from host memory. -/
def State.promptReads (s : State) (p r : Nat) : Bool :=
  match s.req p r with
  | none => false
  | some x => x.st == .admitting && !x.fromStack

/-- The bytes of a stage are being read from host memory. -/
def State.stageReads (s : State) (p : Nat) : Bool :=
  match (s.part p).cmd with
  | .stage _ 0 _ _ _ _ _ => true
  | _ => false

/-- The read is outstanding on this port. -/
def State.readPending (s : State) (port : Port) (use : HostReadUse) : Bool :=
  s.bound port (readFn use) && (match use with
    | .fetch vf => (s.fn port vf).reading.isSome
    | .prompt p r => s.promptReads p r
    | .stage p => s.stageReads p)

/-- The read no longer waits for a retry. -/
def State.clearRetry (s : State) (port : Port) (use : HostReadUse) : State :=
  s.modFn port (readFn use) (fun f => { f with retrying := f.retrying.filter (fun u => u != use) })

/-- Host address that a read begins at. -/
def State.readAddr (s : State) (use : HostReadUse) : Nat :=
  match use with
  | .fetch _ => 0
  | .prompt p r => ((s.req p r).map (fun x => x.promptAddr)).getD 0
  | .stage p =>
    match (s.part p).cmd with
    | .stage _ 0 source _ _ _ _ => source
    | _ => 0

/-- A read that fails for good (R292): HOSTERR, counted and logged, and what it was for ends. DESIGN CHOICE, log 76. -/
def State.readFails (s : State) (port : Port) (use : HostReadUse) (code : Nat) : State :=
  match use with
  | .fetch vf => s.slotsFail port vf code
  | .prompt p r => ((s.hostError port (p + 1) code (s.readAddr use)).clearRetry port use).promptFails p r code
  | .stage p => ((s.hostError port (p + 1) code (s.readAddr use)).clearRetry port use).endStage p code

/-- Bytes of a prompt, without the part of the first unit before it (R287). -/
def State.promptArrives (s : State) (p r : Nat) (b : List Byte) : State :=
  match s.req p r with
  | none => s
  | some x => s.promptIds p r (idsOf (b.drop (x.promptAddr % 64)) x.promptLen)

/-- Bytes of a stage that have not arrived before. -/
def State.stageArrives (s : State) (p : Nat) (b : List Byte) : State :=
  match (s.part p).cmd with
  | .stage _ 0 source _ got _ _ => s.stageBytes p got (b.drop (source % 64 + got))
  | _ => s

/-- A read returns its data. -/
def State.readArrives (s : State) (port : Port) (use : HostReadUse) (b : List Byte) : State :=
  match use with
  | .fetch vf => s.slotsArrive port vf b
  | .prompt p r => (s.clearRetry port use).promptArrives p r b
  | .stage p => (s.clearRetry port use).stageArrives p b

/-- HOST_READ_COMPLETION (R292): normal, or UR, CA or poisoned, which is not retried; an unexpected one is discarded with
its AER error. -/
def execHostReadCompletion (port : Port) (use : HostReadUse) (result : HostReadResult) (s : State) : Res :=
  guardRes (Instr.wf (.hostReadCompletion port use result))
    (if !s.readPending port use then s.aerError port (readFn use) 16
     else
       match result with
       | .data b => s.readArrives port use b
       | .unsupported => s.readFails port use 0x0A02
       | .aborted => s.readFails port use 0x0A02
       | .poisoned => s.readFails port use 0x0A02)

/-- HOST_READ_TIMEOUT (R292): the first is retried after 1 ms, the second ends the read. -/
def execHostReadTimeout (port : Port) (use : HostReadUse) (s : State) : Res :=
  guardRes (Instr.wf (.hostReadTimeout port use))
    (if !s.readPending port use then s
     else if (s.fn port (readFn use)).retrying.contains use then s.readFails port use 0x0A01
     else s.modFn port (readFn use) (fun f => { f with retrying := f.retrying ++ [use] }))

/-- The read is issued again. -/
def State.readAgain (s : State) (port : Port) (use : HostReadUse) : State :=
  match use with
  | .fetch vf => s.askSlots port vf ((s.fn port vf).reading.getD 0)
  | .prompt p r =>
    match s.req p r with
    | none => s
    | some x =>
      let u := coverUnits x.promptAddr (4 * x.promptLen)
      s.emit (.hostRead port (p + 1) u.1 u.2 use)
  | .stage p =>
    match (s.part p).cmd with
    | .stage _ 0 source len _ _ _ =>
      let u := coverUnits source len
      s.emit (.hostRead port (p + 1) u.1 u.2 use)
    | _ => s

/-- HOST_READ_RETRY (R292): 1 ms after a timeout the read is made once more. -/
def execHostReadRetry (port : Port) (use : HostReadUse) (s : State) : Res :=
  guardRes (Instr.wf (.hostReadRetry port use))
    (if s.readPending port use && (s.fn port (readFn use)).retrying.contains use then s.readAgain port use else s)

/-- The stream of a VF leaves the secure state (R291): the host reads in progress end with 0x0A06. -/
def State.streamFails (s : State) (port : Port) (fn : Nat) : State :=
  if (s.fn port fn).ideSet.isNone then s
  else
    let s1 := (s.ideFail port fn).dropReads port fn
    if !s1.bound port fn then s1
    else
      let p := vfPart fn
      let s2 := s1.forEach (s1.part p).reqs (fun e s => if s.promptReads p e.1 then s.promptFails p e.1 0x0A06 else s)
      if s2.stageReads p then s2.endStage p 0x0A06 else s2

/-- IDE_STREAM_FAILURE (R291). -/
def execIdeStreamFailure (port : Port) (fn : Nat) (s : State) : Res :=
  guardRes (Instr.wf (.ideStreamFailure port fn)) (s.streamFails port fn)

end Sys2Proof.Machine
end

