-- ==== Sys2Proof/Machine/Power.lean ====
section
/-!
DEFINITION. Power delivery (chapter 13: R311–R328): the input and its records, stage one, fuses, phases, field switch-on,
and the activation grant.
-/

namespace Sys2Proof.Machine

/-! ### Input: sags, drop-out, lockout (R311, R323–R326) -/

/-- A sag record (Table 13.7). -/
def sagRecord (g : Sag) (endAt : Nat) (dropout : Bool) (field vcoreMin : Nat) : List Byte :=
  leBytes 8 g.start ++ leBytes 8 endAt ++ leBytes 2 g.vmin ++ leBytes 2 g.imax ++ leBytes 1 (field % 64) ++
    leBytes 1 (b2n dropout + 2 * b2n g.suspect) ++ leBytes 2 vcoreMin ++ List.replicate 40 0

/-- The open sag is closed: its record, a log entry, and the count. -/
def State.closeSag (s : State) (dropout : Bool) (field vcoreMin : Nat) : State :=
  match s.power.sag with
  | none => s
  | some g =>
    let r := sagRecord g (if dropout then 0 else s.clkTime) dropout field vcoreMin
    let old := (s.blobP 0x2000 9 0xFF).getD []
    let s1 := (s.setBlobP 0x2000 9 0xFF ((r ++ old).take 1024)).odAdd 0x2000 8 1
    ({ s1 with power := { s1.power with sag := none } }).log
      { rule := if dropout then 326 else 325, status := if dropout then 0x0905 else 0, sev := 1, data := [g.vmin, g.imax, field] }

/-- SAG_START (R325): below 37.0 V. -/
def execSagStart (mv : Nat) (s : State) : Res :=
  guardRes (Instr.wf (.sagStart mv))
    (if s.hub.vstby && s.power.sag.isNone && decide (mv < s.odG 0x2000 7) then
       let i := (s.power.lastInput.map (·.2)).getD 0
       { s with power := { s.power with sag := some { start := s.clkTime, vmin := mv, imax := i, suspect := false } } }
     else s)

/-- SAG_END (R325). -/
def execSagEnd (field vcoreMin : Nat) (s : State) : Res :=
  guardRes (Instr.wf (.sagEnd field vcoreMin)) (s.closeSag false field vcoreMin)

/-- What the rails' fall leaves while VSTBY holds: the RAM event log, the running image and the dictionary's values
beside what loss of power leaves (R326). -/
def State.standbyKept (s : State) : State :=
  let t := s.losePower
  { t with od := s.od, odBlob := s.odBlob,
           hub := { t.hub with ramLog := s.hub.ramLog, vstby := true, running := s.hub.running } }

/-- Every field and rim rail has fallen while VSTBY holds: the device is held in reset (R326). -/
def State.railsFall (s : State) : State :=
  let s1 := s.releaseFault.standbyKept.forEach allFields (fun f s => (s.odSet 0x2101 (f + 1) 1).odSet 0x7103 (f + 1) 1)
  (s1.odSet 0x7102 1 0).pin "MOD_READY" false

/-- STAGE_ONE_DROPOUT (R326): with VSTBY the sag record is closed and logged; without it everything volatile is lost.
DESIGN CHOICE, log 86. -/
def execStageOneDropout (vstbyHolds : Bool) (field vcoreMin : Nat) (s : State) : Res :=
  guardRes (Instr.wf (.stageOneDropout vstbyHolds field vcoreMin))
    (if !s.hub.vstby then s
     else if !vstbyHolds then (s.releaseFault.losePower).pin "MOD_READY" false
     else if !s.hub.powered then s
     else
       let s1 := if s.power.sag.isSome then s.closeSag true field vcoreMin
         else s.log { rule := 326, status := 0x0905, sev := 1, data := [field] }
       s1.railsFall)

/-- STAGE_ONE_TURN_ON (R326): after a drop-out with VSTBY held, the device starts as after a cold power-on.
DESIGN CHOICE, log 86. -/
def execStageOneTurnOn (env : StartEnv) (s : State) : Res :=
  guardRes (startOk env) (if s.hub.vstby && !s.hub.powered && !s.hub.lockout then s.coldStart env else s)

/-- OVERVOLTAGE_LOCKOUT (R311): stage one stops. DESIGN CHOICE, log 81. -/
def execOvervoltageLockout (s : State) : Res :=
  guardRes (Instr.wf .overvoltageLockout)
    (if !s.hub.powered then s
     else
       let s1 := (s.log { rule := 311, sev := 2 }).railsFall
       { s1 with hub := { s1.hub with lockout := true } })

/-- OVERVOLTAGE_RECOVERY (R311): stage one restarts below 47.0 V. DESIGN CHOICE, log 81. -/
def execOvervoltageRecovery (env : StartEnv) (s : State) : Res :=
  guardRes (Instr.wf (.overvoltageRecovery env)) (if s.hub.lockout then s.coldStart env else s)

/-! ### Suspected cracked connections (R327) -/

/-- The input connection is flagged, and an open sag with it. -/
def State.flagInput (s : State) : State :=
  let s1 := if s.odG 0x2000 0xD = 1 then s else (s.odSet 0x2000 0xD 1).log { rule := 327, sev := 1 }
  { s1 with power := { s1.power with sag := s1.power.sag.map (fun g => { g with suspect := true }) } }

/-- CURRENT_STEP_ESTIMATE (R327): R_src = ΔV / ΔI of a step above 50 A; 16 estimates in a row above the threshold flag. -/
def execCurrentStepEstimate (dMv dDeciAmp : Nat) (s : State) : Res :=
  guardRes (Instr.wf (.currentStepEstimate dMv dDeciAmp))
    (if dDeciAmp ≤ 500 ∨ s.hub.vstby = false then s
     else
       let r := dMv * 10000 / dDeciAmp
       let run := if s.odG 0x2000 0xC * dDeciAmp < dMv * 10000 then s.power.srcRun + 1 else 0
       let s1 := ({ s with power := { s.power with srcRun := run } }).odSet 0x2000 0xB (min r 65535)
       if 16 ≤ run then s1.flagInput else s1)

/-- The input fell by more than 1.0 V while its current changed by less than 2 %. -/
def inputJump (last : Option (Nat × Nat)) (mv deciAmp : Nat) : Bool :=
  match last with
  | none => false
  | some (v, i) => decide (mv + 1000 < v) && decide (((deciAmp : Int) - i).natAbs * 50 < i)

/-- INPUT_SAMPLE (R324, R327). DESIGN CHOICE, log 87. -/
def execInputSample (mv deciAmp : Nat) (s : State) : Res :=
  guardRes true
    (if !s.hub.vstby then s
     else
       let s1 := ((s.odSet 0x2000 1 mv).odSet 0x2000 2 deciAmp).odSet 0x2000 3 (mv * deciAmp / 10000)
       let s2 := if mv < s1.odG 0x2000 4 then (s1.odSet 0x2000 4 mv).odSet 0x2000 5 s1.clkTime else s1
       let sag := s2.power.sag.map (fun g => { g with vmin := min g.vmin mv, imax := max g.imax deciAmp })
       let s3 := { s2 with power := { s2.power with sag := sag, lastInput := some (mv, deciAmp) } }
       if inputJump s.power.lastInput mv deciAmp then s3.flagInput else s3)

/-- Plane of a field: P(a,b), index 4b + a (R313). -/
def planeOf (f : Nat) : Nat := 4 * (f / 16) + f % 8 / 2

/-- Fields of a plane. -/
def planeFields (p : Nat) : List Nat := allFields.filter (fun f => planeOf f == p)

/-- The field's minimum record with a sample (Table 13.9). -/
def minRecord (old : List Byte) (vcore branch now : Nat) : List Byte :=
  let low := decide (vcore < fieldN old 0 2)
  leBytes 2 (min vcore (fieldN old 0 2)) ++ leBytes 2 (min branch (fieldN old 2 2)) ++ sliceB old 4 4 ++
    (if low then leBytes 8 now else sliceB old 8 8)

/-- Ten minutes of wafer time. -/
def tenMinutes : Nat := 600 * 1000000 * cyclesPerUs

/-- The residual model of a field's branch (R327) with a sample: the field, and whether it is flagged. -/
def residualStep (x : Field) (res : Int) (deciAmp limit now : Nat) : Field × Bool :=
  let run := if (limit : Int) < res ∧ 200 < deciAmp then x.resRun + 1 else 0
  let jumped := match x.resLast with
    | none => false
    | some (r, i) => decide (10 ≤ (res - r).natAbs) && decide (((deciAmp : Int) - i).natAbs < 20)
  let jumps := (x.jumps.filter (fun t => decide (now < t + tenMinutes))) ++ (if jumped then [now] else [])
  ({ x with resRun := run, resLast := some (res, deciAmp), jumps := jumps }, decide (64 ≤ run) || decide (8 < jumps.length))

/-- The fields of a plane whose draw has fallen below 90 % of its limit are no longer over it (R321). -/
def State.planeEases (s : State) (p : Nat) : State :=
  let draw := ((planeFields p).map (fun f => s.odG 0x2105 (f + 1))).sum
  let s1 := s.odSet 0x2106 (p + 1) draw
  if draw < 4140 then
    s1.forEach (planeFields p) (fun f s =>
      if (s.field f).planeOver then s.modField f (fun x => { x with planeOver := false }) else s)
  else s1

/-- FIELD_BRANCH_SAMPLE (R324, R327). DESIGN CHOICE, log 87. -/
def execFieldBranchSample (field branchMv deciAmp vcoreMv planeMv : Nat) (s : State) : Res :=
  guardRes (fieldOk field)
    (if !s.hub.vstby then s
     else
       let old := (s.blobP 0x2102 (field + 1) 0xFF).getD (List.replicate 16 0xFF)
       let s1 := (s.odSet 0x2105 (field + 1) deciAmp).setBlobP 0x2102 (field + 1) 0xFF (minRecord old vcoreMv branchMv s.clkTime)
       let drop := deciAmp * Config.branchRes field / 10000
       let z := residualStep (s1.field field) ((planeMv : Int) - branchMv - drop) deciAmp (s1.odG 0x2100 9) s1.clkTime
       let s2 := s1.modField field (fun _ => z.1)
       let s3 := if z.2 && s2.odG 0x2104 (field + 1) == 0 then
           (s2.odSet 0x2104 (field + 1) 1).log { rule := 327, sev := 1, source := 1, field := field }
         else s2
       s3.planeEases (planeOf field))

/-- OD 0x2000.06: minimum records and connection flags cleared (R324, R327). -/
def State.clearMinimums (s : State) : State × Nat :=
  let s1 := ((s.odSet 0x2000 4 65535).odSet 0x2000 5 0).odSet 0x2000 0xD 0
  let s2 := { s1 with odBlob := s1.odBlob.filter (fun e => e.1 / 65536 != 0x2102) }
  (s2.forEach allFields (fun f s => s.odSet 0x2104 (f + 1) 0), 0)

/-- CLEAR_MINIMUM_RECORDS (R324): a write of 1 to OD 0x2000.06. -/
def execClearMinimumRecords (caller : Caller) (s : State) : Res :=
  guardRes (Instr.wf (.clearMinimumRecords caller)) (s.command caller 0x2000 6 0xFF State.clearMinimums)

/-! ### Fuses and phases (R316–R320) -/

/-- One second of wafer time. -/
def oneSecond : Nat := 1000000 * cyclesPerUs

/-- FUSE_TRIP (R319, R320): the field falls; within 1 s of a re-arming sequence it is locked off. -/
def execFuseTrip (field : Nat) (s : State) : Res :=
  guardRes (Instr.wf (.fuseTrip field))
    (let st := s.fieldState field
     if st ≠ 0 ∧ st ≠ 2 ∧ st ≠ 6 then s
     else
       let again := match (s.field field).rearmedAt with
         | none => false
         | some t => decide (s.clkTime ≤ t + oneSecond)
       let s1 := (s.odAdd 0x2100 6 1).modField field (fun x => { x with cycling := false, rearming := false, rearmedAt := none })
       let s2 := (s1.fieldFalls field (if again then 5 else 4) 0x0902 .trip).fieldCmdField field (if again then 0x0901 else 0x0902)
       if again then s2.odSet 0x7100 3 0x0901 else s2)

/-- First bit of a rail in the failed-phase mask (OD 0x2103). -/
def railBase : Rail → Nat
  | .vcore => 0
  | .varray => 36
  | .vana => 46

/-- The last line of Table 13.4 (R318): the partition faults, and the field is switched off and locked; one that is being
switched off already ends locked. -/
def State.phaseOff (s : State) (f : Nat) : State :=
  let s1 := (s.faultOwner f 0x0903).log { rule := 318, status := 0x0903, sev := 2, source := 1, field := f }
  if s.fieldState f = 6 then
    (s1.modField f (fun x => { x with offDue := some .phase, cycling := false })).fieldCmdField f 0x0903
  else s1.planOff f .phase

/-- PHASE_FAILURE (R316–R318): a phase of a powered field is excluded, logged and counted; at the last line of Table 13.4
the field goes off. -/
def execPhaseFailure (field : Nat) (rail : Rail) (phase : Nat) (kind : PhaseKind) (s : State) : Res :=
  guardRes (Instr.wf (.phaseFailure field rail phase kind))
    (let mask := s.odG 0x2103 (field + 1)
     let b := railBase rail + phase
     if (s.fieldState field ≠ 0 ∧ s.fieldState field ≠ 6) ∨ bit mask b = true then s
     else
       let new := setBit mask b true
       let s1 := ((s.odSet 0x2103 (field + 1) new).odAdd 0x2100 7 1).log
         { rule := 317, sev := 1, source := 1, field := field, data := [railBase rail, phase, if kind = .opened then 0 else 1] }
       if phasesFatal new then s1.phaseOff field else s1)

/-! ### Switching a field on (R322) -/

/-- The field is next on its plane, and none of the plane is in its sequence. -/
def State.nextOn (s : State) (f : Nat) : Bool :=
  (s.power.switchQueue.filter (fun g => planeOf g == planeOf f)).head? == some f &&
    (planeFields (planeOf f)).all (fun g => s.fieldState g != 2)

/-- The attempt has ended: the field leaves the queue. -/
def State.leaveQueue (s : State) (f : Nat) : State :=
  { s with power := { s.power with switchQueue := s.power.switchQueue.filter (· != f) } }

/-- FIELD_SWITCH_ON (R322): steps 1 to 9 of Table 13.5. DESIGN CHOICE, log 83. -/
def execFieldSwitchOn (field : Nat) (env : SwitchOnEnv) (s : State) : Res :=
  guardRes (Instr.wf (.fieldSwitchOn field env))
    (if !s.hub.powered || !s.nextOn field || s.fieldState field == 0 then s
     else if 3910 ≤ env.planeDraw then s.odSet 0x2101 (field + 1) 3
     else
       let s0 := if env.fuseTripped then s.odAdd 0x2100 6 1 else s
       let s1 := s0.phaseTest field env.failedPhases
       let bad := !env.railsOk || env.fuseTripped || phasesFatal (s1.odG 0x2103 (field + 1))
       if bad then
         ((((s1.odSet 0x2101 (field + 1) 1).leaveQueue field).modField field (fun x => { x with cycling := false, rearming := false })).log
           { rule := 322, status := 0x0904, sev := 2, source := 1, field := field }).fieldCmdField field 0x0904
       else (s1.odSet 0x2101 (field + 1) 2).modField field (fun x => { x with rearming := x.why == OffCause.trip }))

/-- FIELD_READY (R322, R355, R412): step 10 of Table 13.5. -/
def execFieldReady (field : Nat) (arrays : ArrayReport) (linksPassed : List LinkId) (s : State) : Res :=
  guardRes (Instr.wf (.fieldReady field arrays linksPassed))
    (if s.fieldState field = 2 then s.fieldUp field arrays.failed linksPassed arrays.trims else s)

/-! ### The activation grant (R321, R338) -/

/-- Thermal limit of the grant period: by the coolant readings, held while a reading is missing, stepped down at the
crossing of the outlet limit and then by the second (R338). DESIGN CHOICE, log 88. -/
def State.thermalLimit (s : State) (coolant : Option (Int × Int × Nat)) : State :=
  match coolant with
  | none =>
    let s1 := { s with hub := { s.hub with coolant := none } }
    if s.power.coolantLost || s.hub.coolant.isNone then s1.odSet 0x2300 9 (s.odG 0x2300 0xA) else s1
  | some (inlet, outlet, flow) =>
    let limit : Int := 10 * s.odG 0x2300 8
    let hot := decide (limit < outlet)
    let s1 := { s with hub := { s.hub with coolant := coolant },
                       power := { s.power with coolantLost := false, outletHot := hot } }
    if hot then (if s.power.outletHot then s1 else s1.odSet 0x2300 9 (s.odG 0x2300 9 * 95 / 100))
    else s1.odSet 0x2300 9 ((s.odG 0x2300 0x14 * flow * (limit - inlet).toNat) / 6000)

/-- VARRAY and VANA limits of a field in mW: currents of Table 13.4 at the nominal voltages of Table 13.3. -/
def chargeLimit (failed : Nat) : Nat := (if failed ≤ 1 then 315000 else if failed = 2 then 289800 else 264600) + 25500

/-- Measured powers of a field, mW. -/
def corePower (env : GrantEnv) (f : Nat) : Nat := ((env.fields.find? (fun x => x.field == f)).map (fun x => x.core * 1000)).getD 0
def chargePower (env : GrantEnv) (f : Nat) : Nat := ((env.fields.find? (fun x => x.field == f)).map (fun x => x.charge * 1000)).getD 0

/-- cap_f before the plane term, mW. DESIGN CHOICE, log 82. -/
def State.fieldCap (s : State) (env : GrantEnv) (f : Nat) : Nat :=
  min (630000 - corePower env f) (chargeLimit (failedPhases (s.odG 0x2103 (f + 1))))

/-- cap_f, mW: the plane term applied to the powered fields of the plane. -/
def State.planeCap (s : State) (env : GrantEnv) (f : Nat) : Nat :=
  let on := (planeFields (planeOf f)).filter (fun g => s.fieldOn g)
  let core := (on.map (corePower env)).sum
  let caps := (on.map (s.fieldCap env)).sum
  let limit := 437 * env.planeMv.getD (planeOf f) 0
  if limit < core + caps then s.fieldCap env f * (limit - core) / max caps 1 else s.fieldCap env f

/-- A partition's part in the division of C: its weight, its share in mW, and its powered fields with their caps. -/
structure ShareRow where
  weight : Nat
  share : Nat
  fields : List (Nat × Nat)
deriving DecidableEq, Repr

/-- b_f of a partition's fields. -/
def rowBudgets (r : ShareRow) : List (Nat × Nat) := r.fields.map (fun e => (e.1, min e.2 (r.share / max r.fields.length 1)))

/-- What a partition uses of its share. -/
def rowUsed (r : ShareRow) : Nat := ((rowBudgets r).map (fun e => e.2)).sum

/-- A partition is below a cap. -/
def rowBelow (r : ShareRow) : Bool := r.fields.any (fun e => decide (r.share / max r.fields.length 1 < e.2))

/-- The unused parts given to partitions below their caps, by weight. -/
def shareRounds (fuel : Nat) (l : List ShareRow) : List ShareRow :=
  match fuel with
  | 0 => l
  | fuel + 1 =>
    let spare : Nat := (l.map (fun r => r.share - rowUsed r)).sum
    let w : Nat := ((l.filter rowBelow).map (fun r => r.weight)).sum
    if spare = 0 ∨ w = 0 then l
    else shareRounds fuel (l.map (fun r => { r with share := rowUsed r + (if rowBelow r then spare * r.weight / w else 0) }))

/-- A powered field of no partition that warms (R345). -/
def State.warmsFree (s : State) (f : Nat) : Bool := s.fieldOn f && (s.partOfField f).isNone && (s.field f).warming

/-- Budgets of the grant period: field and W. DESIGN CHOICE, log 82. -/
def State.budgets (s : State) (env : GrantEnv) : List (Nat × Nat) :=
  let on := allFields.filter (fun f => s.fieldOn f)
  let limit := min (s.odG 0x2000 0xA) (s.odG 0x2300 9) * 1000
  let free := on.filter (fun f => s.warmsFree f)
  let aside := (free.map (fun f => min (chargePower env f) 500000)).sum
  let pool := limit - (env.rim + env.loss) * 1000 - (on.map (corePower env)).sum - aside
  let rows := ((List.range 32).map (fun p => (p, on.filter (fun f => bit (s.partMask p) f)))).filter (fun e => !e.2.isEmpty)
  let total := (rows.map (fun e => s.odEff 0x2110 1 e.1)).sum
  let l := rows.map (fun e =>
    ShareRow.mk (s.odEff 0x2110 1 e.1) (pool * s.odEff 0x2110 1 e.1 / max total 1) (e.2.map (fun f => (f, s.planeCap env f))))
  (((shareRounds 3 l).flatMap rowBudgets) ++ free.map (fun f => (f, min (s.planeCap env f) 500000))).map (fun e => (e.1, e.2 / 1000))

/-- The budget of a field is set; its GRANT stays until the field controller's next pass. -/
def State.setBudget (s : State) (f b : Nat) : State :=
  s.odSet 0x2107 (f + 1) (min b 65535 + s.odG 0x2107 (f + 1) / 65536 * 65536)

/-- GRANT_PERIOD (R321, R338): not while the hub restarts (Table 16.1). DESIGN CHOICE, log 3, 82. -/
def execGrantPeriod (env : GrantEnv) (s : State) : Res :=
  guardRes (Instr.wf (.grantPeriod env))
    (if s.hub.away || !s.hub.powered then s
     else
       let s1 := s.thermalLimit env.coolant
       let b := s1.budgets env
       s1.forEach (allFields.filter (fun f => s1.fieldOn f)) (fun f s =>
         s.setBudget f (((b.find? (fun e => e.1 == f)).map (fun e => e.2)).getD 0)))

/-- Some tile of the field has QUEUED > 0 (R321). -/
def State.fieldQueued (s : State) (f : Nat) : Bool :=
  s.tiles.any (fun e => fieldOfTile (tileAt e.1) == f && decide (0 < queuedOps e.2.cb))

/-- FIELD_GRANT_TICK (R321): each 100 µs GRANT follows the budget. -/
def execFieldGrantTick (field chargeW : Nat) (s : State) : Res :=
  guardRes (Instr.wf (.fieldGrantTick field chargeW))
    (if !s.fieldOn field then s
     else
       let b := s.budget field
       let g := (s.field field).g
       let new := if b < chargeW then max (g - 4) 2
         else if chargeW * 10 < 9 * b ∧ s.fieldQueued field = true then min (g + 4) 48 else g
       (s.modField field (fun x => { x with g := new })).setGrant field b)

/-! ### Entry into thermal stage 1 (R340) -/

/-- A field at the wafer's edge. -/
def perimeter (f : Nat) : Bool := f % 8 == 0 || f % 8 == 7 || f / 8 == 0 || f / 8 == 7

/-- The next lower thermal cap. -/
def capDown (c : Nat) : Nat := if 36 < c then 36 else if 24 < c then 24 else if 16 < c then 16 else if 8 < c then 8 else 2

/-- The next higher thermal cap. -/
def capUp (c : Nat) : Nat := if c < 8 then 8 else if c < 16 then 16 else if c < 24 then 24 else if c < 36 then 36 else 48

/-- A field enters stage 1: first step of the cap, and the rim share of a perimeter field halved. -/
def State.enterThrottle (s : State) (f : Nat) : State :=
  if !s.fieldOn f || !(s.odG 0x2305 (f + 1) == 0 || s.odG 0x2305 (f + 1) == 5) then s
  else
    let s1 := (s.odSet 0x2305 (f + 1) 1).odSet 0x2302 (f + 1) 36
    let s2 := s1.modField f (fun x => { x with rimHalved := perimeter f, warming := false })
    s2.setGrant f (s2.budget f)

/-- PLANE_OVERCURRENT (R321): each field of the plane enters stage 1 as a field over its power limit. -/
def execPlaneOvercurrent (plane : Nat) (s : State) : Res :=
  guardRes (Instr.wf (.planeOvercurrent plane))
    (s.forEach ((planeFields plane).filter (fun f => s.fieldOn f)) (fun f s =>
      (s.modField f (fun x => { x with planeOver := true })).enterThrottle f))

end Sys2Proof.Machine
end

