-- ==== Sys2Proof/Machine/Thermal.lean ====
section
/-!
DEFINITION. Clock forwarding and heat (chapter 14: R332–R346; R72, R85): Stile sources, temperatures, escalation of a hot
field, coolant readings, tile rotation, Embers, and thermal cycles.
-/

namespace Sys2Proof.Machine

/-! ### Stiles (R332, R335) -/

/-- Source of a Stile: 0 hub, 1 W, 2 S, 3 E, 4 N, 7 none. -/
def State.stileSrc (s : State) (f : Nat) : Nat := s.odG 0x2201 (f + 1) % 8

/-- The neighbour of a field in a direction, 1 W to 4 N. -/
def stileNext (f d : Nat) : Option Nat :=
  match d with
  | 1 => if 0 < f % 8 then some (f - 1) else none
  | 2 => if 0 < f / 8 then some (f - 8) else none
  | 3 => if f % 8 < 7 then some (f + 1) else none
  | 4 => if f / 8 < 7 then some (f + 8) else none
  | _ => none

/-- Stiles from a field to the root by their sources; none where the chain ends nowhere. -/
def State.stileDist (s : State) (fuel f : Nat) : Option Nat :=
  match fuel with
  | 0 => none
  | fuel + 1 =>
    if s.stileSrc f = 0 then some 0
    else
      match stileNext f (s.stileSrc f) with
      | none => none
      | some g => (s.stileDist fuel g).map (· + 1)

/-- The clock of a field comes by way of another. -/
def State.stileVia (s : State) (fuel f via : Nat) : Bool :=
  match fuel with
  | 0 => true
  | fuel + 1 =>
    f == via || (match stileNext f (s.stileSrc f) with
      | none => false
      | some g => s.stileVia fuel g via)

/-- Fields whose clock comes by way of a Stile, its own among them: when its source fails they select anew (R335). -/
def State.stileCut (s : State) (f : Nat) : List Nat := allFields.filter (fun g => s.stileVia 65 g f)

/-- Smallest D that a Stile gets from its neighbours, by their present D, and its direction: ties in the order W, S, E, N
(R332). The failed source of `f` is left out. -/
def State.stileBest (s : State) (f : Nat) (d : List (Option Nat)) (g : Nat) : Option (Nat × Nat) :=
  let cands := [1, 2, 3, 4].filterMap (fun k =>
    if g = f ∧ k = s.stileSrc f then none
    else
      match stileNext g k with
      | none => none
      | some h => (d.getD h none).map (fun n => (k, n + 1)))
  cands.foldl (fun b c => match b with
    | none => some c
    | some x => if c.2 < x.2 then some c else some x) none

/-- D as the Stiles that select anew come to advertise it, step by step. -/
def State.stileSettle (s : State) (f : Nat) (cut : List Nat) (fuel : Nat) (d : List (Option Nat)) : List (Option Nat) :=
  match fuel with
  | 0 => d
  | fuel + 1 =>
    s.stileSettle f cut fuel (allFields.map (fun g =>
      if cut.contains g then (s.stileBest f d g).map (fun e => e.2) else d.getD g none))

/-- D of every field once the source of `f` has failed and the selections have settled. -/
def State.stileAfter (s : State) (f : Nat) : List (Option Nat) :=
  let cut := s.stileCut f
  s.stileSettle f cut 64 (allFields.map (fun g => if cut.contains g then none else s.stileDist 65 g))

/-- Source that a Stile has after the failure of the source of `f` (R332, R335): selected anew where its clock came by way
of `f`; 7 with no clock at any neighbour. DESIGN CHOICE, log 93. -/
def State.stileSelect (s : State) (f g : Nat) : Nat :=
  if (s.stileCut f).contains g then ((s.stileBest f (s.stileAfter f) g).map (fun e => e.1)).getD 7 else s.stileSrc g

/-- Fields whose source changes when that of `f` fails. -/
def State.stileChanged (s : State) (f : Nat) : List Nat := allFields.filter (fun g => s.stileSelect f g != s.stileSrc g)

/-- D of every Stile as its chain of sources gives it. -/
def State.refreshD (s : State) : State :=
  s.forEach allFields (fun f t => t.odSet 0x2201 (f + 1) (s.stileSrc f + 256 * ((s.stileDist 65 f).getD 0)))

/-- The sources after the failure of that of `f`: each change counted and logged (R335). -/
def State.stileReselect (s : State) (f : Nat) : State :=
  let l := (s.stileChanged f).map (fun g => (g, s.stileSelect f g))
  let s1 := (s.forEach l (fun e t => t.odSet 0x2201 (e.1 + 1) e.2)).refreshD
  (s1.odAdd 0x2200 7 l.length).forEach l (fun e t =>
    t.log { rule := 335, sev := 1, source := 1, field := e.1, data := [s.stileSrc e.1, e.2] })

/-- A field that was on loses its timing (R335): its partition faults, and it is power-cycled. -/
def State.loseClock (s : State) (f : Nat) : State :=
  ((s.faultOwner f 0x0913).modField f (fun x => { x with cycling := true })).planOff f .clock

/-- STILE_SOURCE_FAILURE (R335): every Stile that depends on the source selects anew; the fields that were on and whose
source has changed are power-cycled. DESIGN CHOICE, log 93. -/
def execStileSourceFailure (field : Nat) (s : State) : Res :=
  guardRes (Instr.wf (.stileSourceFailure field))
    (if !s.hub.vstby then s
     else (s.stileReselect field).forEach ((s.stileChanged field).filter (fun g => s.fieldOn g)) (fun g s => s.loseClock g))

/-! ### Temperatures (R72, R337, R346) -/

/-- T_f of a field, 0.1 °C. -/
def State.fieldTemp (s : State) (f : Nat) : Int := signed 16 (s.odG 0x2301 (f + 1))

/-- Throttle threshold, 0.1 °C. -/
def State.throttleAt (s : State) : Int := 10 * s.odG 0x2300 1

/-- The highest of some readings. -/
def highest (d : Int) (l : List Int) : Int :=
  match l with
  | [] => d
  | x :: r => r.foldl max x

/-- The charge band after a sample: at most one step (Table 3.4). -/
def bandStep (band : Nat) (t : Int) : Nat :=
  if band < 7 ∧ (300 + 100 * band : Int) ≤ t then band + 1
  else if 0 < band ∧ t < 180 + 100 * (band : Int) then band - 1
  else band

/-- A band change waits for each tile's next token boundary (R73). DESIGN CHOICE, log 90. -/
def State.moveBand (s : State) (f : Nat) (t : Int) : State :=
  let old := s.odG 0x3001 (f + 1)
  let new := bandStep old t
  let s1 := s.modField f (fun x => { x with bandTemp := t })
  if new = old then s1
  else
    let s2 := s1.odSet 0x3001 (f + 1) new
    if s2.fieldOn f then s2.forEach (tilesOfField f) (fun t s => s.modCb t (fun cb => { cb with bandDue := some new })) else s2

/-- A field temperature differs from that of a calibration by the trigger in force or more (R76). -/
def trigReached (t at0 : Int) (trig : Nat) : Bool := decide (10 * (trig : Int) ≤ t - at0) || decide (10 * (trig : Int) ≤ at0 - t)

/-- An array whose last calibration lies a temperature trigger away is due (R76). -/
def tempDue (t : Int) (x : ChargeArray) : ChargeArray :=
  if x.calDone && x.cal == .idle && trigReached t x.calTemp x.calTrig then { x with cal := .due } else x

/-- The arrays of a field that its temperature makes due for calibration (R76): those with a calibration of their own
each, the others together. -/
def State.tempTrigger (s : State) (f : Nat) (t : Int) : State :=
  if !s.fieldOn f then s
  else
    let hit := fun T : Tile => T.cb.arrays.any (fun e => tempDue t e.2 != e.2)
    let s1 := s.forEach (s.tiles.filter (fun e => fieldOfTile (tileAt e.1) == f && hit e.2)) (fun e s =>
      s.modCb (tileAt e.1) (fun cb => (cb.arrays.map (·.1)).foldl (fun cb a => cb.modArr a (tempDue t)) cb))
    if trigReached t (s.field f).calTemp (s.field f).calTrig && !(s.field f).calDue then
      s1.modField f (fun x => { x with calDue := true })
    else s1

/-- Counts of OD 0x2304 with one more cycle of an amplitude, saturating. DESIGN CHOICE, log 90. -/
def countCycle (v : Nat) (amp : Int) : Nat :=
  let up := fun lo => if bits v (lo + 15) lo < 65535 then v + 2 ^ lo else v
  if amp ≤ 200 then up 0 else if amp ≤ 400 then up 16 else up 32

/-- Thermal cycle tracking with a sample (R346). -/
def State.trackCycle (s : State) (f : Nat) (t : Int) : State :=
  match (s.field f).cycleSpan with
  | none => s.modField f (fun x => { x with cycleSpan := some (t, t, t), fell := false })
  | some (hi, lo, last) =>
    let hi1 := max hi t
    let lo1 := min lo t
    let fell := (s.field f).fell || decide (t ≤ hi1 - 100)
    if (s.field f).fell && decide (lo1 + 100 ≤ t) && decide (last < t) then
      (s.odSet 0x2304 (f + 1) (countCycle (s.odG 0x2304 (f + 1)) (hi1 - lo1))).modField f (fun x =>
        { x with cycleSpan := some (t, t, t), fell := false })
    else s.modField f (fun x => { x with cycleSpan := some (hi1, lo1, t), fell := fell })

/-- The field's partition serves: its program is released. -/
def State.servesField (s : State) (f : Nat) : Bool :=
  match s.partOfField f with
  | none => false
  | some p => s.partState p == 1 && programReleased (s.part p)

/-- T_work: the mean of the last 10 min of serving (R345). DESIGN CHOICE, log 90. -/
def State.trackWork (s : State) (f : Nat) (t : Int) : State :=
  if !(s.servesField f && s.fieldOn f) then s
  else
    let l := ringPush 600000 (s.field f).workTemps t
    (s.modField f (fun x => { x with workTemps := l })).odSet 0x2303 (f + 1) (unsign 16 (l.sum / l.length))

/-- No token is in flight in the field. -/
def State.fieldQuiet (s : State) (f : Nat) : Bool :=
  s.tiles.all (fun e => fieldOfTile (tileAt e.1) != f || (!e.2.quiet && e.2.cb.ready.isEmpty))

/-- The field is in Embers (R345). -/
def State.inEmbers (s : State) (f : Nat) : Bool :=
  s.fieldOn f && s.fieldQuiet f && (match s.partOfField f with
    | none => s.odG 0x2300 0x11 == 1
    | some p => s.overlay p == 3)

/-- Warming stops above T_work − 6 °C, and with Embers. -/
def State.easeWarming (s : State) (f : Nat) (t : Int) : State :=
  let ember := s.inEmbers f
  let s1 := if (s.field f).warming && (!ember || decide (signed 16 (s.odG 0x2303 (f + 1)) - 60 < t)) then
      s.modField f (fun x => { x with warming := false })
    else s
  if s1.odG 0x2305 (f + 1) = 5 ∧ ember = false then s1.odSet 0x2305 (f + 1) 0 else s1

/-- The entry conditions of stage 1 (R340, R337). -/
def State.overLimit (s : State) (f : Nat) : Bool :=
  let x := s.field f
  decide (s.throttleAt ≤ s.fieldTemp f) || x.overCurrent || x.planeOver || x.rowless

/-- FIELD_TEMPERATURE_SAMPLE (R337, R72, R346): T_f, the band, cycles, and the stages entered or left by it.
DESIGN CHOICE, log 89. -/
def execFieldTemperatureSample (field : Nat) (sample : TempSample) (s : State) : Res :=
  guardRes (Instr.wf (.fieldTemperatureSample field sample))
    (if !s.hub.vstby then s
     else
       let charge := highest (s.field field).bandTemp sample.charge
       let t := max sample.tileMax charge
       let new := sample.excluded.filter (fun i => !(s.field field).excluded.contains i)
       let s1 := (s.odSet 0x2301 (field + 1) (unsign 16 t)).modField field (fun x =>
         { x with excluded := sample.excluded, rowless := sample.rowWithout, overCurrent := sample.vcoreOver,
                  underCurrent := sample.vcoreUnder })
       let s2 := s1.forEach new (fun i s => s.log { rule := 337, sev := 1, source := 1, field := field, data := [i] })
       let s3 := ((((s2.moveBand field charge).tempTrigger field charge).trackCycle field t).trackWork field t).easeWarming field t
       if !s3.fieldOn field then s3
       else if s3.odG 0x2305 (field + 1) = 2 ∧ t < s3.throttleAt then s3.odSet 0x2305 (field + 1) 1
       else if s3.overLimit field then s3.enterThrottle field
       else s3)

/-! ### Escalation (R340, R341) -/

/-- The release conditions of stage 1. -/
def State.heatEases (s : State) (f : Nat) : Bool :=
  let x := s.field f
  decide (s.fieldTemp f < s.throttleAt - 10 * s.odG 0x2300 2) && x.underCurrent && !x.planeOver && !x.rowless

/-- The thermal cap takes a value, with GRANT after it. -/
def State.setCap (s : State) (f c : Nat) : State :=
  let s1 := s.odSet 0x2302 (f + 1) c
  s1.setGrant f (s1.budget f)

/-- The field is in one of the stages 1 to 3. -/
def State.throttled (s : State) (f : Nat) : Bool :=
  s.fieldOn f && decide (1 ≤ s.odG 0x2305 (f + 1) ∧ s.odG 0x2305 (f + 1) ≤ 3)

/-- THROTTLE_STEP_DOWN (R340): every 10 ms in stage 1, while its release conditions do not hold.
DESIGN CHOICE, log 89. -/
def execThrottleStepDown (field : Nat) (s : State) : Res :=
  guardRes (Instr.wf (.throttleStepDown field))
    (if s.throttled field && !s.heatEases field then s.setCap field (capDown (s.odG 0x2302 (field + 1))) else s)

/-- THROTTLE_STEP_UP (R340): every 100 ms below the release limits; the stage ends at 48. -/
def execThrottleStepUp (field : Nat) (s : State) : Res :=
  guardRes (Instr.wf (.throttleStepUp field))
    (if s.fieldOn field && s.odG 0x2305 (field + 1) == 1 && s.heatEases field then
       let c := capUp (s.odG 0x2302 (field + 1))
       let s1 := s.setCap field c
       if c = 48 then (s1.odSet 0x2305 (field + 1) 0).modField field (fun x => { x with rimHalved := false }) else s1
     else s)

/-! ### Rotation (R342–R344) -/

/-- Logical position of place j of a field's row. -/
def rowPlace (f row j : Nat) : Nat × Nat := (20 * (f % 8) + j, 20 * (f / 8) + row)

/-- The physical tile of place j of a field's row. -/
def State.rowTile (s : State) (f row j : Nat) : TileId := s.physical (rowPlace f row j).1 (rowPlace f row j).2

/-- The spare of a field's row: the column that holds no logical position. -/
def State.rowSpare (s : State) (f row : Nat) : TileId :=
  let y := 20 * (f / 8) + row
  let used := (List.range 20).map (fun j => s.rowMapGet y (f % 8) j)
  ⟨21 * (f % 8) + ((List.range 21).find? (fun k => !used.contains k)).getD 20, y⟩

/-- Routes of a partition that a tile belongs to: its router delivers them to it, or takes them from it. -/
def State.tileRoutes (s : State) (p : Nat) (t : TileId) : List Nat :=
  ((s.router t).routes.filter (fun e => bit e.2 31 && bits e.2 28 24 == p && (bit e.2 0 || bit e.2 5))).map (fun e => e.1)

/-- Rotation alternates of a logical tile for one route. -/
def State.hasAlternate (s : State) (p route arg : Nat) : Bool :=
  s.mesh.alternates.any (fun a => a.part == p && a.cond == 1 && a.arg == arg && a.route == route)

/-- A lock of the field is held; an urgent rotation of every row does not meet the locks of the other rows' rotations. -/
def State.rotationBarred (s : State) (f : Nat) (urgent : Bool) : Bool :=
  s.hub.acts.any (fun a => bit a.fields f && !(urgent && (match a.kind with
    | .rotation g _ => g == f
    | _ => false)))

/-- The row may rotate the tile at place j (R342). -/
def State.mayRotate (s : State) (f row j : Nat) (hot spare : Int) (urgent : Bool) : Bool :=
  let t := s.rowTile f row j
  let xy := rowPlace f row j
  s.fieldOn f && !s.hub.away && decide (spare + 10 * s.odG 0x2300 0xC ≤ hot) && (s.retired f row).isNone &&
    mget RotPhase.idle (s.field f).rot row == RotPhase.idle && !s.rotationBarred f urgent && !bit s.queuedFields f && !s.activating &&
    (match s.partOfField f with
      | none => false
      | some p =>
        (match (s.part p).program with
          | none => false
          | some g => g.tiles.any (fun e => e.1 == t && e.2.1 == 0)) &&
        s.odP 0x7000 7 p == 0 && (s.tileRoutes p t).all (fun r => s.hasAlternate p r (xy.1 + 256 * xy.2)))

/-- The copy of a rotation starts. -/
def State.startRotation (s : State) (f row j : Nat) (hot spare : Int) (urgent : Bool) : State :=
  if !s.mayRotate f row j hot spare urgent then s
  else
    (s.modField f (fun x => { x with rot := mset .idle x.rot row (.copying j) })).startAct (.rotation f row) (2 ^ f)

/-- ROTATION_INTERVAL (R342). -/
def execRotationInterval (field row j : Nat) (hot spare : Int) (s : State) : Res :=
  guardRes (Instr.wf (.rotationInterval field row j hot spare)) (s.startRotation field row j hot spare false)

/-- URGENT_ROTATION (R340): stage 2; every eligible row rotates its hottest tile. DESIGN CHOICE, log 91. -/
def execUrgentRotation (field : Nat) (rows : List (Nat × Nat × Int × Int)) (s : State) : Res :=
  guardRes (Instr.wf (.urgentRotation field rows))
    (if s.throttled field && decide (s.odG 0x2302 (field + 1) ≤ 8) && decide (s.throttleAt ≤ s.fieldTemp field) then
       let s1 := if s.odG 0x2305 (field + 1) = 1 then s.odSet 0x2305 (field + 1) 2 else s
       s1.forEach rows (fun r s => s.startRotation field r.1 r.2.1 r.2.2.1 r.2.2.2 true)
     else s)

/-- An array of the spare after the copy of an array that holds weights. -/
def copiedArray (old spare : ChargeArray) : ChargeArray :=
  { spare with wvalid := true, fmt := old.fmt, rows := old.rows, e := old.e, base := old.base, sums := old.sums }

/-- The copy of R344: arrays with WVALID, channel table, TEXT image and SPAD contents. -/
def copyTile (old spare : Tile) : Tile :=
  let held := (old.cb.arrays.filter (fun e => e.2.wvalid)).map (fun e => e.1)
  let arrays := held.foldl (fun m a => mset {} m a (copiedArray (old.cb.arr a) (mget {} m a))) spare.cb.arrays
  let kept := spare.cb.cells.filter (fun c => !held.contains (c.1 / 512))
  let cells := (old.cb.cells.filter (fun c => held.contains (c.1 / 512))).foldl (fun m c => mput m c.1 c.2) kept
  let mem := old.cc.spads.foldl (fun m r => mwrite 0 m r.1 (mread 0 old.sp.mem r.1 r.2)) spare.sp.mem
  { spare with cb := { spare.cb with arrays := arrays, cells := cells, chans := old.cb.chans },
               sp := { spare.sp with mem := mem }, cc := { spare.cc with isram := old.cc.isram, used := old.cc.used, spads := old.cc.spads } }

/-- ROTATION_COPY_DONE (R344): the swap is armed, or a row of the spare failed write-verify. -/
def execRotationCopyDone (field row : Nat) (spareOk : Bool) (s : State) : Res :=
  guardRes (Instr.wf (.rotationCopyDone field row spareOk))
    (match mget .idle (s.field field).rot row with
     | .copying j =>
       if !spareOk then s.abandonRotation field row
       else
         let old := s.tile (s.rowTile field row j)
         (s.modTile (s.rowSpare field row) (copyTile old)).modField field (fun x => { x with rot := mset .idle x.rot row (.ready j) })
     | _ => s)

/-- The tile is at a boundary at which it may be swapped (R344). DESIGN CHOICE, log 91. -/
def swapReady (T : Tile) : Bool :=
  T.cc.state == .waiting && T.cb.boundary && T.cb.ready.isEmpty && T.tv.queue.isEmpty && T.tv.drains.isEmpty &&
    T.vu.queue.isEmpty && T.mv.all (fun e => e.2.inHand.isEmpty) && T.tx.isEmpty && T.rx.isEmpty

/-- Registers of a Lookout without its counters. -/
def movedLookout (k : Lookout) : Lookout :=
  { k with rrPasses := 0, satCnt := [], zeroCnt := [], groups := k.groups.filterMap (fun e =>
      let g : LookoutGroup := { e.2 with persistCnt := 0, failCnt := 0 }
      if g = {} then none else some (e.1, g)) }

/-- The new tile of a swap (Table 14.5): data SRAM, register blocks, general registers, PC and events of the old one; its
counters start at 0. -/
def swapTile (old spare : Tile) : Tile :=
  { spare with
    cb := { spare.cb with segs := old.cb.segs, grant := old.cb.grant, cfgErr := old.cb.cfgErr, clamp := old.cb.clamp,
                          wfail := old.cb.wfail, rqClamps := 0, accClamps := 0, rowsFailed := 0, retries := 0, boundary := true }
    lk := movedLookout old.lk
    tv := { tc := old.tv.tc, mode := old.tv.mode, exact := false, isat := old.tv.isat, nonfinite := old.tv.nonfinite,
            descErr := old.tv.descErr, streamStall := old.tv.streamStall }
    vu := {}
    sp := { mem := spare.sp.mem, bad := spare.sp.bad, misalign := old.sp.misalign, uerr := old.sp.uerr, cerr := old.sp.cerr,
            uerrAddr := old.sp.uerrAddr, fault := old.sp.fault }
    mv := old.mv
    cc := { old.cc with isram := spare.cc.isram, used := spare.cc.used, spads := spare.cc.spads, flostCnt := 0, pmc := [] }
    rx := []
    tx := []
    nextId := old.nextId
    quiet := old.quiet
    ctx := old.ctx
    txHeld := [] }

/-- A tile list of a partition with a tile renamed. -/
def renameTiles {α : Type} (a b : TileId) (l : List (TileId × α)) : List (TileId × α) :=
  l.map (fun e => if e.1 == a then (b, e.2) else e)

/-- The partition's tables name the new tile. -/
def movedPart (a b : TileId) (P : Partition) : Partition :=
  let k := fun n : Nat => if n = tkey a then tkey b else n
  { P with program := P.program.map (fun g => { g with tiles := renameTiles a b g.tiles }),
           baseArrays := renameTiles a b P.baseArrays, addArrays := renameTiles a b P.addArrays,
           views := P.views.map (fun v => { v with tile := k v.tile }),
           slots := P.slots.map (fun u => { u with tile := k u.tile }),
           tokens := P.tokens.map (fun u => { u with tile := k u.tile }),
           contribs := P.contribs.map (fun u => { u with tile := k u.tile }),
           merged := P.merged.map (fun u => { u with tile := k u.tile }),
           walkDue := P.walkDue.map (fun d => { d with tile := k d.tile }),
           jobs := P.jobs.map (fun j => { j with flying := j.flying.map (fun c => { c with tile := k c.tile }) }) }

/-- The swap of Table 14.5. -/
def State.swapRow (s : State) (f row j : Nat) : State :=
  let a := s.rowTile f row j
  let b := s.rowSpare f row
  let xy := rowPlace f row j
  let old := s.tile a
  let alts := s.mesh.alternates.filter (fun e => e.cond == 1 && e.arg == xy.1 + 256 * xy.2)
  let s1 := s.forEach alts (fun e s => s.setRoute e.router e.route e.entry)
  let s2 := (s1.modTile b (swapTile old)).stopTile a
  let key := rowKey xy.2 (f % 8) j
  let s3 := { s2 with mesh := { s2.mesh with rowMap := mput s2.mesh.rowMap key (b.u % 21) } }
  let s4 := match s3.partOfField f with
    | none => s3
    | some p => s3.modPart p (movedPart a b)
  ((s4.modField f (fun x => { x with rot := mset .idle x.rot row .idle })).endAct (.rotation f row)).odAdd 0x2300 0xD 1

/-- ROTATION_SWAP (R344): at a suitable token boundary. -/
def execRotationSwap (field row : Nat) (s : State) : Res :=
  guardRes (Instr.wf (.rotationSwap field row))
    (match mget .idle (s.field field).rot row with
     | .ready j => if swapReady (s.tile (s.rowTile field row j)) && (s.router (s.rowTile field row j)).feed.all (fun e => e.1 != .l) then s.swapRow field row j else s
     | _ => s)

/-- ROTATION_COPY_TIMEOUT (R344): a copy not finished in 50 ms. -/
def execRotationCopyTimeout (field row : Nat) (s : State) : Res :=
  guardRes (Instr.wf (.rotationCopyTimeout field row))
    (match mget .idle (s.field field).rot row with
     | .copying _ => s.abandonRotation field row
     | _ => s)

/-- ROTATION_SWAP_TIMEOUT (R344): no boundary within 1 s. -/
def execRotationSwapTimeout (field row : Nat) (s : State) : Res :=
  guardRes (Instr.wf (.rotationSwapTimeout field row))
    (match mget .idle (s.field field).rot row with
     | .ready _ => s.abandonRotation field row
     | _ => s)

/-! ### Evacuation and switch-off for heat (R341) -/

/-- An evacuation of the partition is under way or queued. -/
def evacuating (P : Partition) : Bool :=
  match P.cmd with
  | .install _ _ _ _ true _ _ => true
  | _ => false

/-- The frame at the evacuation origin may take the partition. -/
def State.evacuationFits (s : State) (p f : Nat) : Bool :=
  let o := s.odEff 0x2300 0x13 p
  let h := s.odP 0x5200 7 p
  let fields := s.installFields p h (o % 256) (o / 256)
  o != 0xFFFF && (handleOf (s.part p) h).st == 3 && !cmdRuns (s.part p) && !bit fields f &&
    (fieldsOf fields).all (fun g => s.fieldOn g && bit (s.partMask p) g)

/-- EVACUATION (R341): the installed base moves to the evacuation origin, or the partition faults with 0x0910.
DESIGN CHOICE, log 92. -/
def execEvacuation (field : Nat) (s : State) : Res :=
  guardRes (Instr.wf (.evacuation field))
    (let t := s.fieldTemp field
     let due := decide (10 * (s.odG 0x2300 3 : Int) ≤ t) || (s.odG 0x2302 (field + 1) == 2 && decide (s.throttleAt ≤ t))
     if !due || s.hub.away || !(s.throttled field && s.odG 0x2305 (field + 1) != 3) then s
     else
       let s1 := s.odSet 0x2305 (field + 1) 3
       match s1.partOfField field with
       | none => s1
       | some p =>
         if s1.partState p ≠ 1 then s1
         else if !s1.evacuationFits p field then s1.faultPart p 0x0910
         else
           let o := s1.odEff 0x2300 0x13 p
           let z := s1.startInstall p (s1.odP 0x5200 7 p) (o % 256) (o / 256) true true []
           if z.2 = 0 ∨ z.2 = 0x0801 then z.1.odAdd 0x2300 0x10 1 else z.1.faultPart p 0x0910)

/-- One hour of wafer time. -/
def oneHour : Nat := 3600 * oneSecond

/-- The field goes off for heat: counted, held off at the third time within one hour, and switched off as planned. -/
def State.heatOff (s : State) (f : Nat) : State :=
  let l := ((s.field f).heatTimes.filter (fun t => decide (s.clkTime < t + oneHour))) ++ [s.clkTime]
  let s1 := (s.modField f (fun x => { x with heatTimes := l, heldHeat := decide (3 ≤ l.length) })).odAdd 0x2300 0xF 1
  ((s1.odSet 0x2305 (f + 1) 4).log { rule := 340, status := 0x0910, sev := 2, source := 1, field := f }).planOff f .heat

/-- OFF_FOR_HEAT (R340): at the end of stage 3. A partition whose evacuation failed faults with 0x0910. -/
def execOffForHeat (field : Nat) (s : State) : Res :=
  guardRes (Instr.wf (.offForHeat field))
    (if !(s.fieldOn field && s.odG 0x2305 (field + 1) == 3) || s.hub.away then s
     else
       match s.partOfField field with
       | none => s.heatOff field
       | some p =>
         if evacuating (s.part p) then s
         else if s.odP 0x5200 3 p ≠ 0 then (s.faultPart p 0x0910).heatOff field
         else s.heatOff field)

/-- CRITICAL_LIMIT (R340): the field falls at once, as after a fuse trip. -/
def execCriticalLimit (field : Nat) (s : State) : Res :=
  guardRes (Instr.wf (.criticalLimit field))
    (let st := s.fieldState field
     if (st = 0 ∨ st = 2 ∨ st = 6) ∧ 10 * (s.odG 0x2300 4 : Int) ≤ s.fieldTemp field then
       let s1 := (s.modField field (fun x => { x with cycling := false, rearming := false })).fieldFalls field 1 0x0914 .critical
       (s1.odSet 0x2305 (field + 1) 6).fieldCmdField field 0x0914
     else s)

/-- The conditions of a return from heat (R341). -/
def State.coolEnough (s : State) (f : Nat) : Bool :=
  let x := s.field f
  !x.heldHeat && decide (x.offAt + 60 * oneSecond ≤ s.clkTime) && (match s.hub.coolant with
    | none => false
    | some (inlet, _, _) => decide (s.fieldTemp f ≤ inlet + 150))

/-- The field is dark for heat. -/
def State.darkForHeat (s : State) (f : Nat) : Bool :=
  !s.fieldOn f && s.offForHeat f

/-- HEAT_RETURN (R341): the field controller asks for switch-on. -/
def execHeatReturn (field : Nat) (s : State) : Res :=
  guardRes (Instr.wf (.heatReturn field))
    (if s.darkForHeat field && s.fieldState field == 1 && s.coolEnough field then s.requestOn field else s)

/-- A field held off for heat is released. -/
def State.releaseHeat (f : Nat) (s : State) : State × Nat :=
  (s.modField f (fun x => { x with heldHeat := false, heatTimes := [] }), 0)

/-- RELEASE_FIELD_HELD_OFF (R341): a write to OD 0x2306. -/
def execReleaseFieldHeldOff (caller : Caller) (field value : Nat) (s : State) : Res :=
  guardRes (Instr.wf (.releaseFieldHeldOff caller field value))
    (s.command caller 0x2306 (field + 1) 0xFF (oneOnly value (State.releaseHeat field)))

/-! ### Coolant (R338, R378), stacks (R339), counts -/

/-- COOLANT_READING_LOSS (R338): missing for 1 s. -/
def execCoolantReadingLoss (s : State) : Res :=
  guardRes (Instr.wf .coolantReadingLoss)
    (if s.hub.coolant.isSome || s.power.coolantLost || !s.hub.vstby then s
     else
       let s1 := { s with power := { s.power with coolantLost := true } }
       ((s1.odAdd 0x2300 0x12 1).odSet 0x2300 9 (s1.odG 0x2300 0xA)).log { rule := 338, sev := 1 })

/-- OUTLET_LIMIT_STEP (R338): once per second while the outlet is above its limit. -/
def execOutletLimitStep (s : State) : Res :=
  guardRes (Instr.wf .outletLimitStep)
    (if s.power.outletHot && !s.power.coolantLost then s.odSet 0x2300 9 (s.odG 0x2300 9 * 95 / 100) else s)

/-- Coolant readings as the hub takes them in. DESIGN CHOICE, log 88. -/
def State.takeCoolant (s : State) (c : Option (Int × Int × Nat)) : State :=
  { s with hub := { s.hub with coolant := c }, power := { s.power with coolantLost := s.power.coolantLost && c.isNone } }

/-- I3C_RESCAN (R378): while a sensor is missing. -/
def execI3cRescan (coolant : Option (Int × Int × Nat)) (s : State) : Res :=
  guardRes (Instr.wf (.i3cRescan coolant))
    (if s.hub.coolant.isSome || s.hub.away || !s.hub.vstby then s else s.takeCoolant coolant)

/-- One stack's temperature: each crossing of 105 °C is logged. -/
def State.stackTemp (s : State) (k : Nat) (t : Int) : State :=
  let hot := s.power.stackHot.contains k
  if decide (1050 < t) == hot then s
  else
    let l := if hot then s.power.stackHot.filter (· != k) else s.power.stackHot ++ [k]
    ({ s with power := { s.power with stackHot := l } }).log { rule := 339, sev := 1, source := 3, data := [k, b2n (!hot)] }

/-- HUB_SENSOR_READ (R339, R378). -/
def execHubSensorRead (stackTemps : List Int) (_hubDie : Int) (coolant : Option (Int × Int × Nat)) (s : State) : Res :=
  guardRes (decide (stackTemps.length ≤ 16))
    (if s.hub.away || !s.hub.vstby then s
     else (s.takeCoolant coolant).forEach (stackTemps.mapIdx (fun k t => (k, t))) (fun e s => s.stackTemp e.1 e.2))

/-- THERMAL_CYCLE_SAVE (R346). -/
def execThermalCycleSave (s : State) : Res :=
  guardRes (Instr.wf .thermalCycleSave)
    (let l := allFields.foldl (fun m f => mset 0 m f (s.odG 0x2304 (f + 1))) ([] : SMap Nat)
     { s with hub := { s.hub with savedCycles := l } })

/-- EMBERS_WARMING (R345): below T_work − 10 °C a field in Embers warms. -/
def execEmbersWarming (field : Nat) (s : State) : Res :=
  guardRes (Instr.wf (.embersWarming field))
    (if s.inEmbers field && (s.odG 0x2305 (field + 1) == 0 || s.odG 0x2305 (field + 1) == 5) then
       let s1 := s.odSet 0x2305 (field + 1) 5
       if s1.fieldTemp field < signed 16 (s1.odG 0x2303 (field + 1)) - 100 then
         s1.modField field (fun x => { x with warming := true })
       else s1
     else s)

/-- POWERED_HOUR_COUNT (R85). -/
def execPoweredHourCount (s : State) : Res :=
  guardRes true (if s.hub.powered then s.odAdd 0x3000 0xE 1 else s)

end Sys2Proof.Machine
end

