-- ==== Sys2Proof/Machine/Hub.lean ====
section
/-!
DEFINITION. The management hub (R370–R376): restarts, recovery, firmware update, the flash log; the end of detour drains
(R164), partition halts (R198, R200), the saving of the user calibration (R80), availability (R413) and configuration
requests (R281, R397).
-/

namespace Sys2Proof.Machine

/-! ### Detour drains (R164) -/

/-- DETOUR_DRAIN_COMPLETE (R164): every router reports empty buffers. -/
def execDetourDrainComplete (s : State) : Res :=
  guardRes (Instr.wf .detourDrainComplete)
    (match s.mesh.detour with
     | .draining fields dark =>
       if s.meshEmpty && !s.hub.away then
         let s1 := s.finishDetour fields dark
         s1.runDetours (2 * s1.mesh.detourQueue.length + 2)
       else s
     | .idle => s)

/-- DETOUR_DRAIN_LIMIT_EXPIRY (R164): the installation proceeds with flits still in flight. -/
def execDetourDrainLimitExpiry (s : State) : Res :=
  guardRes (Instr.wf .detourDrainLimitExpiry)
    (match s.mesh.detour with
     | .draining fields dark =>
       if s.hub.away then s
       else
         let s1 := s.finishDetour fields dark
         s1.runDetours (2 * s1.mesh.detourQueue.length + 2)
     | .idle => s)

/-! ### Partition halts (R198, R200) -/

/-- A debug command of a partition: refused while sealed, or with debug off (R197). -/
def State.debugPart (p : Nat) (run : State → State) (s : State) : State × Nat :=
  if s.isSealed p then (s, 0x0602) else if s.odP 0x7000 1 p = 0 then (s, 0x0004) else (run s, 0)

/-- HALT_PARTITION (R198). -/
def execHaltPartition (caller : Caller) (part value : Nat) (s : State) : Res :=
  guardRes (Instr.wf (.haltPartition caller part value))
    (s.command caller 0x7000 5 part (oneOnly value (State.debugPart part (fun s => s.haltPart part none))))

/-- RESUME_PARTITION (R200). -/
def execResumePartition (caller : Caller) (part value : Nat) (s : State) : Res :=
  guardRes (Instr.wf (.resumePartition caller part value))
    (s.command caller 0x7000 6 part (oneOnly value (State.debugPart part (fun s => s.resumePart part))))

/-- SAVE_USER_CALIBRATION_NOW (R80). -/
def execSaveUserCalibrationNow (caller : Caller) (value : Nat) (s : State) : Res :=
  guardRes (Instr.wf (.saveUserCalibrationNow caller value))
    (s.command caller 0x3002 2 0xFF (oneOnly value (fun s => (s.saveUserCal, 0))))

/-! ### Management restart (R371, Table 16.1) -/

/-- Functions of both ports. -/
def allFns : List (Port × Nat) := [Port.a, Port.b].flatMap (fun port => (List.range 33).map (fun n => (port, n)))

/-- SPDM sessions of every function end (R357). -/
def State.endSessions (s : State) : State :=
  { s with fns := s.fns.filterMap (fun e =>
      let f : Function := { e.2 with session := none }
      if f = {} then none else some (e.1, f)) }

/-- Model commands and fabric sends of every partition end with a code. -/
def State.endHubWork (s : State) (code : Nat) : State :=
  s.forEach (List.range 32) (fun p s => (s.endModel p code).closeTx p code code)

/-- What the dictionary server forgets in a restart, and the lock (R290, R386). -/
def State.forgetCallers (s : State) : State :=
  let s1 := s.freeLock
  { s1 with hub := { s1.hub with versions := [], peers := [], rates := [], kept := [] } }

/-- R364 for a claimed partition before a new image runs: requests ended, program unloaded, scrubbed, claim ended. -/
def State.imageChanged (s : State) (p : Nat) : State :=
  if (s.part p).claim.isNone then s
  else (((s.endHeld p 0x060B 0x060B).unload p).modPart p uninstalled).startScrub p 1

/-- The result of a firmware activation (R410). -/
def State.endActivation (s : State) (st code : Nat) : State :=
  if !s.hub.activating then s
  else
    let s1 := { s with hub := { s.hub with activating := false } }
    ((s1.odSet 0x1300 4 st).odSet 0x1300 5 code)

/-- OD 0x1130.04 for a cause. -/
def causeNum : RestartCause → Nat
  | .watchdog => 1
  | .sramError => 2
  | .command => 3
  | .activation => 4
  | .recovery => 5

/-- Trailhead in a restart (R373): halt, recovery, or the image taken, with R364 before it. -/
def State.restartImage (s : State) (romKeyOk imageOk : Bool) : State :=
  if !romKeyOk then ({ s with hub := { s.hub with restarting := false } }).haltHub
  else
    match s.bootable imageOk with
    | none => (({ s with hub := { s.hub with restarting := false } }).endActivation 5 0x0704).enterRecovery
    | some im =>
      let s1 := if im.digest = s.hub.running.digest then s else s.forEach (List.range 32) (fun p s => s.imageChanged p)
      let s2 := s1.runImage im
      if s2.hub.activating then { s2 with hub := { s2.hub with updLen := 0, updBuf := [] } } else s2

/-- A management restart begins, or begins again (R371). A committed image is activated by it (R375, R410); a flash
write cut short leaves no bootable image. DESIGN CHOICE, log 102. -/
def State.beginRestart (s : State) (cause : RestartCause) (romKeyOk imageOk : Bool) : State :=
  let upd := s.odG 0x1300 4
  let c := if cause = .command ∧ upd = 4 then 4 else causeNum cause
  let s1 := (s.odAdd 0x1130 1 1).odSet 0x1130 4 c
  let s2 := (if c = 1 then s1.odAdd 0x1130 2 1 else s1).log { rule := 371, status := 0x000D, sev := 1, data := [c] }
  let s3 := ((s2.endHubWork 0x000D).forgetCallers).endSessions
  let s4 := ({ s3 with hub := { s3.hub with restarting := true, activating := s3.hub.activating || upd == 4, activationDue := false,
                                            slot := if upd = 3 then none else s3.hub.slot } }).unqueue .activation
  let s5 := (if upd = 3 then s4.odSet 0x1300 4 5 else s4).pin "MOD_READY" false
  s5.restartImage romKeyOk imageOk

/-- A restart can begin: the hub runs, or a restart or recovery is under way. -/
def State.canRestart (s : State) : Bool := s.hub.vstby && !s.hub.romHalt && !s.hub.heldReset && (s.hub.served || s.hub.restarting)

/-- A restart of a cause may begin: an activation once its locks are free, the end of recovery with a committed image.
DESIGN CHOICE, log 102. -/
def State.mayRestart (s : State) (cause : RestartCause) : Bool :=
  s.canRestart &&
    (match cause with
     | .activation => s.odG 0x1300 4 == 4 && s.heldFields == 0
     | .recovery => s.hub.recovery && s.odG 0x1300 4 == 4
     | _ => true)

/-- MANAGEMENT_RESTART (R371). DESIGN CHOICE, log 106, 116. -/
def execManagementRestart (cause : RestartCause) (romKeyOk imageOk : Bool) (s : State) : Res :=
  guardRes true
    (if s.mayRestart cause then s.beginRestart cause romKeyOk imageOk else s)

/-- A mailbox request in progress is answered (R289): a response without a value, or a mailbox fault. -/
def State.mailboxAnswer (s : State) (port : Port) (fn : Nat) (rsp : List Byte) : State :=
  (s.modFn port fn (fun f =>
    { f with mbBusy := false, mbDone := true, mbRlen := rsp.length, mbRsp := mwrite 0 f.mbRsp 0 rsp })).interrupt port fn
      (if fn = 0 then 0 else 1)

/-- Header of the answer to a request that a restart overtook: the request's header, RESP, status 0x0005, no value. -/
def busyAnswer (req : List Byte) : List Byte :=
  sliceB req 0 3 ++ leBytes 1 (fieldN req 3 1 / 2 * 2 + 1) ++ sliceB req 4 8 ++ leBytes 2 0 ++ leBytes 2 0x0005 ++ leBytes 8 0

/-- Requests in progress at a restart are answered with 0x0005 (R289). -/
def State.answerBusy (s : State) : State :=
  s.forEach allFns (fun e s =>
    if (s.fn e.1 e.2).mbBusy then s.mailboxAnswer e.1 e.2 (busyAnswer (mread 0 (s.fn e.1 e.2).mbReq 0 24)) else s)

/-- Partition resets that waited for the restart (R401). -/
def State.dueResets (s : State) : State :=
  let due := (List.range 32).filter (fun p => bit s.hub.resetsDue p)
  ({ s with hub := { s.hub with resetsDue := 0 } }).forEach due (fun p s => s.hostReset p)

/-- A start that waited for recovery goes on, or the device runs on. DESIGN CHOICE, log 102. -/
def State.afterRestart (s : State) : State :=
  match s.hub.startDue with
  | some env =>
    let s1 := ({ s with hub := { s.hub with startDue := none } }).odSet 0x7102 1 (if s.odG 0x7102 2 = 0 then 0 else 5)
    let s2 := s1.pin "MOD_FAULT_N" true
    if s2.hub.modRst then { s2 with hub := { s2.hub with heldReset := true, served := false } } else s2.fromLock env
  | none =>
    if s.odG 0x7102 1 = 6 then
      ((s.odSet 0x7102 1 (if s.stk.selfRefresh then 2 else 1)).pin "MOD_FAULT_N" true).pin "MOD_READY" true
    else s.pin "MOD_READY" true

/-- MANAGEMENT_RESTART_END (R371): events logged, due resets run, requests in progress answered, detours resumed. -/
def execManagementRestartEnd (s : State) : Res :=
  guardRes true
    (if !s.hub.restarting then s
     else
       let s1 := ((s.flushHeld.hubSettings).endActivation 0 0).dueResets
       let s2 := s1.answerBusy
       (s2.runDetours (2 * s2.mesh.detourQueue.length + 2)).afterRestart)

/-- HUB_WATCHDOG_EXPIRY (R371). -/
def execHubWatchdogExpiry (romKeyOk imageOk : Bool) (s : State) : Res :=
  guardRes true
    (if s.canRestart then s.beginRestart .watchdog romKeyOk imageOk else s)

/-- HUB_SRAM_ERROR (R370). -/
def execHubSramError (correctable romKeyOk imageOk : Bool) (s : State) : Res :=
  guardRes true
    (if !s.hub.vstby then s
     else if correctable then s.odAdd 0x1130 3 1
     else if s.canRestart then s.beginRestart .sramError romKeyOk imageOk
     else s)

/-- A write of 1 to OD 0x1130.05: a firmware activation is refused or queued as R409 and R410 say. -/
def State.restartCode (s : State) : State × Nat :=
  if s.odG 0x1300 4 ≠ 4 then (s, 0)
  else if s.activating then (s.countMaint 0x0802, 0x0802)
  else if s.heldFields = 0 ∧ s.hub.queue = [] then (s, 0)
  else if 32 ≤ s.hub.queue.length then (s, 0x0804)
  else
    let s1 := (s.queueAct .activation (2 ^ 64 - 1) []).countMaint 0x0801
    ({ s1 with hub := { s1.hub with activationDue := true } }, 0x0801)

/-- RESTART_THE_HUB (R371, R410): the restart follows the reply. -/
def execRestartTheHub (caller : Caller) (value : Nat) (romKeyOk imageOk : Bool) (s : State) : Res :=
  guardRes (callerOk caller)
    (s.commandThen caller 0x1130 5 0xFF (oneOnly value State.restartCode) (fun s =>
      (s.forEach allFields (fun f s => if s.odG 0x1300 4 = 4 then s.abandonRotations f else s)).beginRestart .command romKeyOk imageOk))

/-! ### Firmware update (R372, R375) -/

/-- The image in the update buffer. -/
def State.buffered (s : State) : List Byte := mread 0 s.hub.updBuf 0 s.hub.updLen

/-- The image that a buffer's header and body describe (Table 16.2). -/
def imageOf (b : List Byte) : Image :=
  let d := sliceB b 24 32
  { version := fieldN b 4 2, svn := fieldN b 6 2, digest := d,
    versions := (List.range 10).map (fun i => Config.imageVersions d i % 65536) }

/-- Step 2 of R373 on the buffered image: 0, 0x0704 or 0x0705. -/
def State.imageCode (s : State) (sig : SigCheck) : Nat :=
  let b := s.buffered
  if sliceB b 0 4 ≠ asciiB "GVXF" ∨ fieldN b 8 4 ≠ s.hub.updLen ∨ sig = .invalid then 0x0704
  else if sha256 (b.drop 512) ≠ sliceB b 24 32 then 0x0704
  else if fieldN b 6 2 < s.odG 0x1300 7 then 0x0705
  else 0

/-- BEGIN: the buffer is emptied for an image of LENGTH bytes. -/
def State.beginUpdate (s : State) (len : Nat) : State × Nat :=
  if len < 4096 ∨ 16777216 < len then (s, 0x0003)
  else if s.odG 0x1300 4 = 3 then (s, 0x0706)
  else (({ s with hub := { s.hub with updLen := len, updBuf := [] } }).odSet 0x1300 4 1, 0)

/-- COMMIT: the image is checked, and the slot erased and written. -/
def State.commitUpdate (s : State) (sig : SigCheck) : State × Nat :=
  let st := s.odG 0x1300 4
  if s.hub.updLen = 0 ∨ (st ≠ 1 ∧ st ≠ 5) then (s, 0x0706)
  else
    let c := s.imageCode sig
    if c ≠ 0 then ((s.odSet 0x1300 4 5).odSet 0x1300 5 c, c)
    else (({ s with hub := { s.hub with slot := none } }).odSet 0x1300 4 3, 0)

/-- ABORT: before erasure it empties the buffer. -/
def State.abortUpdate (s : State) : State × Nat :=
  let st := s.odG 0x1300 4
  if st = 3 ∨ st = 4 ∨ (st = 5 ∧ s.odG 0x1300 5 = 0x0703) then (s, 0x0706)
  else (({ s with hub := { s.hub with updLen := 0, updBuf := [] } }).odSet 0x1300 4 0, 0)

/-- An update command written to OD 0x1300.03 (R375). DESIGN CHOICE, log 105. -/
def State.updateCommand (cmd : List Byte) (sig : SigCheck) (s : State) : State × Nat :=
  let op := fieldN cmd 0 1
  if cmd.length ≠ 8 then (s, 0x0701)
  else if op = 0 ∨ 3 < op then (s, 0x0001)
  else if zeroRange cmd 1 3 = false then (s, 0x0002)
  else if op = 1 then s.beginUpdate (fieldN cmd 4 4)
  else if op = 2 then s.commitUpdate sig
  else s.abortUpdate

/-- A chunk written to OD 0x1300.02 at OFFSET (R375, R383). -/
def State.updateChunk (offset : Nat) (bytes : List Byte) (s : State) : State × Nat :=
  if s.hub.updLen < offset + bytes.length ∨ s.odG 0x1300 4 = 3 then (s, 0x0706)
  else ({ s with hub := { s.hub with updBuf := mwrite 0 s.hub.updBuf offset bytes } }, 0)

/-- UPDATE_BEGIN (R375). -/
def execUpdateBegin (caller : Caller) (cmd : List Byte) (s : State) : Res :=
  guardRes (callerOk caller) (s.command caller 0x1300 3 0xFF (State.updateCommand cmd .invalid))

/-- UPDATE_IMAGE_CHUNK (R375). -/
def execUpdateImageChunk (caller : Caller) (offset : Nat) (bytes : List Byte) (s : State) : Res :=
  guardRes (callerOk caller) (s.command caller 0x1300 2 0xFF (State.updateChunk offset bytes))

/-- UPDATE_COMMIT (R375). -/
def execUpdateCommit (caller : Caller) (cmd : List Byte) (sig : SigCheck) (s : State) : Res :=
  guardRes (callerOk caller) (s.command caller 0x1300 3 0xFF (State.updateCommand cmd sig))

/-- UPDATE_ABORT (R375). -/
def execUpdateAbort (caller : Caller) (cmd : List Byte) (s : State) : Res :=
  guardRes (callerOk caller) (s.command caller 0x1300 3 0xFF (State.updateCommand cmd .invalid))

/-- FLASH_IMAGE_WRITTEN (R375): the new image is committed, or the write failed. -/
def execFlashImageWritten (ok : Bool) (s : State) : Res :=
  guardRes true
    (if s.odG 0x1300 4 ≠ 3 then s
     else if ok then
       let im := imageOf s.buffered
       ((({ s with hub := { s.hub with slot := some im } }).odSet 0x1300 4 4).odSet 0x1300 5 0).odSet 0x1300 6 im.version
     else ((s.odSet 0x1300 4 5).odSet 0x1300 5 0x0703).log { rule := 394, status := 0x0703, sev := 2 })

/-! ### Flash log, availability, configuration requests -/

/-- Append an entry to the flash ring, the oldest dropped when it is full (R376). -/
def State.flashAppend (s : State) (e : LogEntry) : State :=
  { s with hub := { s.hub with flashLog := ringPush 131072 s.hub.flashLog e } }

/-- LOG_FLASH_WRITE (R376): an entry of SEVERITY 1 or above joins the flash ring. DESIGN CHOICE, log 118. -/
def execLogFlashWrite (seq : Nat) (s : State) : Res :=
  guardRes true
    (match s.hub.ramLog.find? (fun e => e.seq == seq && decide (1 ≤ e.severity)) with
     | none => s
     | some e =>
       if s.hub.away || s.hub.flashLog.any (fun x => x.seq == seq) then s
       else s.flashAppend e)

/-- Fields dark by a device cause (Table 17.9). -/
def State.darkByDevice (s : State) : List Nat :=
  allFields.filter (fun f => !s.fieldOn f && (s.field f).why != OffCause.command)

/-- Partitions with a program that has been released and cannot serve: those that faulted. -/
def State.cannotServe (s : State) : List Nat :=
  (List.range 32).filter (fun p => s.partState p == 2 && (s.part p).program.isSome)

/-- The state of Table 17.9 in which a second is counted: 1 Up, 2 Degraded, 3 Down, 4 Excluded.
DESIGN CHOICE, log 107. -/
def State.availability (s : State) (excluded : Bool) : Nat :=
  let st := s.odG 0x7102 1
  let dark := s.darkByDevice
  let bad := s.cannotServe
  if st = 5 ∧ s.odG 0x7102 2 = 3 then 3
  else if excluded ∨ st = 0 ∨ (2 ≤ st ∧ st ≤ 5) ∨ (List.range 32).all (fun p => s.partState p == 0) = true then 4
  else if dark = [] ∧ bad = [] then 1
  else if dark.length = 1 ∧ bad.all (fun p => dark.all (fun f => bit (s.partMask p) f)) = true then 2
  else if bad ≠ [] then 3
  else 2

/-- AVAILABILITY_COUNT (R413): one second, and the down time of the last 365 days. DESIGN CHOICE, log 107. -/
def execAvailabilityCount (excluded : Bool) (s : State) : Res :=
  guardRes true
    (if !s.hub.vstby then s
     else
       let a := s.availability excluded
       let s1 := s.odAdd 0x7110 a 1
       let day := (s1.odG 0x7110 1 + s1.odG 0x7110 2 + s1.odG 0x7110 3 + s1.odG 0x7110 4) / 86400
       let live := s1.hub.downDays.filter (fun e => decide (day < e.1 + 365))
       let n := ((live.find? (fun e => e.1 == day)).map (fun e => e.2)).getD 0
       let days : List (Nat × Nat) := if a = 3 then live.filter (fun e => e.1 != day) ++ [(day, n + 1)] else live
       ({ s1 with hub := { s1.hub with downDays := days } }).odSet 0x7110 5 (days.map (fun e : Nat × Nat => e.2)).sum)

/-- The 455 ms row of Table 17.1 has been reached. -/
def State.pastStart (s : State) : Bool := s.odG 0x7102 1 != 0 && s.odG 0x7102 1 != 5 && s.hub.startDue.isNone

/-- A word with a field replaced. -/
def putField (v lo w x : Nat) : Nat := v - v / 2 ^ lo % 2 ^ w * 2 ^ lo + x % 2 ^ w * 2 ^ lo

/-- A word of a capability structure that Table 11.1 fixes (PCI Express, MSI-X, SR-IOV, AER), by its place in the
structure; other bits are free. PRESUMED, log 78. -/
def capValue (f : Function) (fn cap off free : Nat) : Nat :=
  match cap, off with
  | 0, 0x04 => putField (putField free 0 3 2) 28 1 1
  | 0, 0x24 => putField free 0 5 3
  | 1, 0x00 => putField (putField free 0 8 0x11) 16 11 (if fn = 0 then 3 else 2)
  | 1, 0x04 => 0x3000
  | 1, 0x08 => 0x3800
  | 2, 0x0C => 32 * 65536 + 32
  | 3, 0x04 => f.aer % 2 ^ 32
  | _, _ => free

/-- The capability structure that a configuration offset lies in: its kind, and the place in it. -/
def capAt (port fn offset : Nat) : Option (Nat × Nat) :=
  ((List.range 4).find? (fun c => (c != 2 || fn == 0) && decide (Config.capOffset port fn c ≤ offset) &&
    decide (offset < Config.capOffset port fn c + 0x40))).map (fun c => (c, offset - Config.capOffset port fn c))

/-- A configuration register of a function (R280, R281): identity, BAR0 and no other BAR, and what the capabilities of
Table 11.1 fix. DESIGN CHOICE, log 119; PRESUMED, log 78. -/
def State.configValue (s : State) (port : Port) (fn offset : Nat) : Nat :=
  let free := Config.configReg (portNum port) fn offset
  if offset = 0 then (if fn = 0 then 0xA640 else 0xA641) * 65536 + s.odG 0x6000 1 % 65536
  else if offset = 8 then 0x120000 * 256 + s.stepping
  else if offset = 0x10 then free % 2 ^ 32 / 0x4000 * 0x4000 + 4
  else if 0x18 ≤ offset ∧ offset ≤ 0x24 then 0
  else
    match (if offset < 0x40 then none else capAt (portNum port) fn offset) with
    | some (cap, off) => capValue (s.fn port fn) fn cap off free
    | none => free

/-- CONFIGURATION_REQUEST (R397): Request Retry Status before the 455 ms row. -/
def execConfigurationRequest (port : Port) (fn offset : Nat) (s : State) : Res :=
  guardRes (fnOk fn)
    (if !s.hub.vstby then s
     else if s.pastStart then s.emit (.cfg port fn offset (some (s.configValue port fn offset)))
     else s.emit (.cfg port fn offset none))

end Sys2Proof.Machine
end

