-- ==== Sys2Proof/Machine/Maintenance.lean ====
section
/-!
DEFINITION. Maintenance: field commands (R403, R411), device standby (R404), the queue of activities (R408–R410), and
the restoring of factory configuration (R391).
-/

namespace Sys2Proof.Machine

/-- Every field, as a mask. -/
def everyField : Nat := 2 ^ 64 - 1

/-! ### Checks of a maintenance command (R411) -/

/-- The field may be power-cycled: it is free, of a faulted partition, or of one with no program. -/
def State.cyclable (s : State) (f : Nat) : Bool :=
  match s.partOfField f with
  | none => true
  | some p => s.partState p == 2 || (s.partState p == 1 && (s.part p).program.isNone)

/-- The field is off: it may be asked on. -/
def State.isOff (s : State) (f : Nat) : Bool := s.fieldState f == 1 || s.fieldState f == 5

/-- The named fields suit the command, else 0x0805; one locked off gives 0x0901 and one held for heat 0x0912.
DEDUCED, log 95. -/
def State.fieldUseCode (s : State) (opc fields : Nat) : Nat :=
  let l := fieldsOf fields
  let fits := fun f : Nat =>
    if opc = 0x80 then s.cyclable f else if opc = 0x81 then (s.partOfField f).isNone else s.isOff f
  if 0x82 < opc then 0
  else if l.all fits = false then 0x0805
  else if opc = 0x81 then 0
  else if l.any (fun f => s.fieldState f == 5) then 0x0901
  else if l.any (fun f => s.darkForHeat f && !s.coolEnough f) then 0x0912
  else 0

/-- The device is in a state in which the command may run. -/
def State.deviceCode (s : State) (opc : Nat) : Nat :=
  let st := s.odG 0x7102 1
  if opc ≤ 0x82 then (if st = 1 then 0 else 0x000B)
  else if opc = 0x84 then (if st = 1 then 0 else 0x0807)
  else if opc = 0x85 then (if st = 2 then 0 else 0x0807)
  else 0

/-- Fields whose locks a maintenance command takes. -/
def lockFields (opc fields : Nat) : Nat := if opc ≤ 0x82 then fields else everyField

/-! ### Field cycle, off, on (R399, R403) -/

/-- A field goes down for a commanded cycle or switch-off: as planned, with its log entry (R406).
DESIGN CHOICE, log 110. -/
def State.takeDown (s : State) (f : Nat) (again : Bool) : State :=
  ((s.modField f (fun x => { x with cycling := again })).log { rule := 406, source := 1, field := f }).planOff f .command

/-- A power cycle of one field: down and up again, or up from where it is. -/
def State.cycleField (s : State) (f : Nat) : State :=
  let st := s.fieldState f
  if st = 0 then s.takeDown f true
  else if st = 2 ∨ st = 3 then s
  else if st = 6 then s.modField f (fun x => { x with cycling := true })
  else s.requestOn f

/-- One field switched off: a switch-on in progress is given up. -/
def State.offField (s : State) (f : Nat) : State :=
  let st := s.fieldState f
  if st = 0 then s.takeDown f false
  else if st = 2 ∨ st = 3 then (s.goDark f 1 .command).fieldCmdField f 0
  else if st = 6 then s.modField f (fun x => { x with cycling := false })
  else s.fieldCmdField f 0

/-- One field switched on. -/
def State.onField (s : State) (f : Nat) : State := if s.fieldOn f then s.fieldCmdField f 0 else s.requestOn f

/-! ### Standby (R404) -/

/-- What standby ends in one formed partition. -/
def State.partToStandby (s : State) (p : Nat) : State :=
  if s.partState p = 0 then s
  else
    let s1 := (s.endHeld p 0x0806 0x0806).endModel p 0x0806
    (((s1.closeTx p 0x0806 0x0806).dropRx p).unload p).modPart p uninstalled

/-- Ethernet ports down. -/
def State.ethernetDown (s : State) : State :=
  (s.odSet 0x6100 6 0).forEach (List.range 16) (fun i s => s.odSet 0x6101 (i + 1) 0)

/-- Every field off, with no detour set to install. -/
def State.allFieldsOff (s : State) : State :=
  let s1 := s.forEach allFields (fun f s =>
    let st := s.fieldState f
    if st = 1 ∨ st = 4 ∨ st = 5 then s else s.goDark f 1 .command)
  ({ s1 with mesh := { s1.mesh with down := everyField, detour := .idle, detourQueue := [] } }).odSet 0x3401 1 everyField

/-- Standby is entered. DESIGN CHOICE, log 109. -/
def State.enterStandby (s : State) : State :=
  let s1 := s.forEach (List.range 32) (fun p s => s.partToStandby p)
  let s2 := (s1.allFieldsOff).ethernetDown
  (({ s2 with stk := { s2.stk with selfRefresh := true } }).odSet 0x7102 1 2).log { rule := 406 }

/-- Standby is left: fields on, scrubbed and calibrated; a partition whose field failed has faulted.
DESIGN CHOICE, log 109. -/
def State.leaveStandby (s : State) (env : StartEnv) : State :=
  let s1 := ({ s with stk := { s.stk with selfRefresh := false } }).startFields env
  let s2 := s1.forEach (allFields.filter (fun f => !s.staysDark f && !s1.fieldOn f)) (fun f s => s.faultOwner f 0x0904)
  let s3 := s2.forEach (List.range 32) (fun p s => if s.partState p = 0 then s else s.pushReread p (s.partMask p))
  (s3.odSet 0x7102 1 1).log { rule := 406 }

/-! ### Running a maintenance command -/

/-- A maintenance command starts: it takes its locks and runs. -/
def State.runField (s : State) (opc fields : Nat) (env : StartEnv) : State :=
  let s1 := ((s.startAct (.fieldCmd opc) (lockFields opc fields)).odSet 0x7100 2 2).odSet 0x7100 3 0
  let s2 := { s1 with hub := { s1.hub with fieldsDue := if opc ≤ 0x82 then fields else 0 } }
  if opc = 0x80 then s2.forEach (fieldsOf fields) (fun f s => s.cycleField f)
  else if opc = 0x81 then s2.forEach (fieldsOf fields) (fun f s => s.offField f)
  else if opc = 0x82 then s2.forEach (fieldsOf fields) (fun f s => s.onField f)
  else if opc = 0x84 then s2.enterStandby.endFieldCmd 0
  else (s2.leaveStandby env).endFieldCmd 0

/-- A maintenance command written to OD 0x7100.01 (Table 17.7). DESIGN CHOICE, log 108. -/
def State.fieldCommand (cmd : List Byte) (env : StartEnv) (s : State) : State × Nat :=
  let opc := fieldN cmd 0 1
  let fields := fieldN cmd 8 8
  if cmd.length ≠ 16 then (s, 0x0701)
  else if opc < 0x80 ∨ 0x85 < opc then (s, 0x0001)
  else if zeroRange cmd 1 7 = false then (s, 0x0002)
  else if opc = 0x83 then s.warmCode fields
  else if s.odG 0x7100 2 ≠ 0 then (s, 0x0005)
  else if s.deviceCode opc ≠ 0 then (s, s.deviceCode opc)
  else if (opc ≤ 0x82 ∧ fields = 0) ∨ (0x82 < opc ∧ fields ≠ 0) then (s, 0x0003)
  else if s.fieldUseCode opc fields ≠ 0 then (s, s.fieldUseCode opc fields)
  else
    let c := s.maintCode (lockFields opc fields)
    if c = 0x0801 then
      (((((s.queueAct (.fieldCmd opc) (lockFields opc fields) cmd).countMaint c).odSet 0x7100 2 1).odSet 0x7100 3 c).setBlobP
        0x7100 1 0xFF cmd, c)
    else if c ≠ 0 then (s.countMaint c, c)
    else ((s.runField opc fields env).setBlobP 0x7100 1 0xFF cmd, 0)

/-- The 16 bytes of a maintenance command. -/
def fieldCmdBytes (opc : Nat) (fields : BitVec 64) : List Byte := leBytes 1 opc ++ leBytes 7 0 ++ leBytes 8 fields.toNat

/-- A start whose outcomes are all good: for commands that run none. -/
def quietStart : StartEnv :=
  { refclk := true, modRstLow := false, romKeyOk := true, imageOk := true, imageDigestNew := false, stacksOffline := [], stackSizes := [],
    fieldsFailed := [], failedArrays := [], ethNSel := false, ethSSel := false, ethNClk := true, ethSClk := true, trims := [],
    failedPhases := [], linksPassed := [] }

/-- FIELD_CYCLE (R411). -/
def execFieldCycle (caller : Caller) (fields : BitVec 64) (s : State) : Res :=
  guardRes (callerOk caller) (s.command caller 0x7100 1 0xFF (State.fieldCommand (fieldCmdBytes 0x80 fields) quietStart))

/-- FIELD_OFF (R403). -/
def execFieldOff (caller : Caller) (fields : BitVec 64) (s : State) : Res :=
  guardRes (callerOk caller) (s.command caller 0x7100 1 0xFF (State.fieldCommand (fieldCmdBytes 0x81 fields) quietStart))

/-- FIELD_ON (R403). -/
def execFieldOn (caller : Caller) (fields : BitVec 64) (s : State) : Res :=
  guardRes (callerOk caller) (s.command caller 0x7100 1 0xFF (State.fieldCommand (fieldCmdBytes 0x82 fields) quietStart))

/-- STANDBY_ENTER (R404). -/
def execStandbyEnter (caller : Caller) (fields : BitVec 64) (s : State) : Res :=
  guardRes (callerOk caller) (s.command caller 0x7100 1 0xFF (State.fieldCommand (fieldCmdBytes 0x84 fields) quietStart))

/-- STANDBY_EXIT (R404). -/
def execStandbyExit (caller : Caller) (fields : BitVec 64) (env : StartEnv) (s : State) : Res :=
  guardRes (callerOk caller && startOk env)
    (s.command caller 0x7100 1 0xFF (State.fieldCommand (fieldCmdBytes 0x85 fields) env))

/-! ### The queue (R408) -/

/-- The first queued activity whose locks are free and whose fields no earlier one names. -/
def firstStartable (held named : Nat) : List Queued → Option Queued
  | [] => none
  | q :: r => if (held ||| named) &&& q.fields = 0 then some q else firstStartable held (named ||| q.fields) r

/-- A queued activity starts; a field command whose checks of R411 no longer hold ends with their code. -/
def State.startQueued (s : State) (q : Queued) (env : CmdEnv) : State :=
  match q.kind with
  | .install p => s.resumeInstall p
  | .evacuation p => s.resumeInstall p
  | .partCmd opc p =>
    let z := (s.unqueue q.kind).runPart opc p
    if z.2 = 0 then z.1 else z.1.odSet 0x4000 3 z.2
  | .fieldCmd opc =>
    let s1 := s.unqueue q.kind
    let fields := fieldN q.cmd 8 8
    let c := if s1.deviceCode opc ≠ 0 then s1.deviceCode opc else s1.fieldUseCode opc fields
    if c ≠ 0 then s1.endFieldCmd c else s1.runField opc fields env.start
  | .activation =>
    (s.forEach allFields (fun f s => s.yieldField f)).beginRestart .command env.romKeyOk env.imageOk
  | .rejuvenation _ => s
  | .rotation _ _ => s

/-- QUEUED_ACTIVITY_START (R408). -/
def execQueuedActivityStart (env : CmdEnv) (s : State) : Res :=
  guardRes (startOk env.start)
    (if s.hub.away then s
     else
       match firstStartable s.heldFields 0 s.hub.queue with
       | none => s
       | some q => s.startQueued q env)

/-- A queued activity ends with 0x0803; it has changed nothing. -/
def State.expireQueued (s : State) (q : Queued) : State :=
  match q.kind with
  | .install p => s.endModelCmd p 0x0803
  | .evacuation p => s.endModelCmd p 0x0803
  | .partCmd _ _ => (s.unqueue q.kind).odSet 0x4000 3 0x0803
  | .fieldCmd _ => (s.unqueue q.kind).endFieldCmd 0x0803
  | .activation =>
    let s1 := s.unqueue q.kind
    ({ s1 with hub := { s1.hub with activationDue := false } }).odSet 0x1300 5 0x0803
  | .rejuvenation _ => s
  | .rotation _ _ => s

/-- QUEUE_WAIT_EXPIRY (R408): the activity at this place has waited longer than OD 0x7101.01. -/
def execQueueWaitExpiry (place : Nat) (s : State) : Res :=
  guardRes true
    (if s.hub.away then s
     else
       match s.hub.queue[place]? with
       | none => s
       | some q => if q.since + s.odG 0x7101 1 * oneSecond < s.clkTime then s.expireQueued q else s)

/-! ### Factory configuration (R391) -/

/-- Every user calibration delta zero; working trims follow at each tile's next token boundary (R80). -/
def State.zeroDeltas (s : State) : State :=
  let s1 := s.mapArrays (fun x => { x with delta := [], saved := [] })
  s1.forEach (s1.tiles.map (fun e => e.1)) (fun k s => s.modCb (tileAt k) (fun cb => { cb with bandDue := some (cb.bandDue.getD cb.band) }))

/-- Ports whose split setting changes retrain (R295): their links go down. DESIGN CHOICE, log 115. -/
def State.retrain (s : State) (changed : Nat) : State :=
  let ports := (List.range 16).filter (fun n => bit changed n)
  s.forEach ports (fun n s => (s.odSet 0x6100 6 (clearBits (s.odG 0x6100 6) (3 * 4 ^ n))).odSet 0x6101 (n + 1) 0)

/-- Restore-factory (R391). DESIGN CHOICE, log 112. -/
def State.restoreFactory (value : Nat) (s : State) : State × Nat :=
  if value ≠ 0xFAC7 then (s, 0x0003)
  else if (List.range 32).any (fun p => s.isSealed p) then (s, 0x0602)
  else if s.activating then (s.countMaint 0x0802, 0x0802)
  else
    let s1 := (s.odReset (fun r _ _ => r.pers == .u || r.pers == .s)).zeroDeltas
    let s2 := ({ s1 with hub := { s1.hub with deltas := factoryDeltas } }).odAdd 0x1200 2 1
    let s3 := s2.forEach (List.range 32) (fun p s => if s.partState p = 0 then s else s.pushReread p (s.partMask p))
    ((s3.retrain (s.odG 0x6100 5)).odAdd 0x1230 2 1, 0)

/-- RESTORE_FACTORY (R391). -/
def execRestoreFactory (caller : Caller) (value : Nat) (s : State) : Res :=
  guardRes (callerOk caller) (s.command caller 0x1230 1 0xFF (State.restoreFactory value))

end Sys2Proof.Machine
end

