-- ==== Sys2Proof/Machine/Entries.lean ====
section
/-!
DEFINITION. Values of dictionary entries as a caller reads them (R379, R381): numbers, BLOBs and STRs, the entries that
are computed when they are read, the event log's records (R376, R377), and configuration digests (R390).
-/

namespace Sys2Proof.Machine

/-! ### Types (Table 16.4) -/

/-- Type code on the wire. -/
def typeCode : OdType → Nat
  | .bool => 0x01
  | .u8 => 0x02
  | .u16 => 0x03
  | .u32 => 0x04
  | .u64 => 0x05
  | .i16 => 0x07
  | .str => 0x0B
  | .blob => 0x0C

/-- Bytes of a numeric type; 0 for STR and BLOB. -/
def typeSize : OdType → Nat
  | .bool => 1
  | .u8 => 1
  | .u16 => 2
  | .u32 => 4
  | .u64 => 8
  | .i16 => 2
  | .str => 0
  | .blob => 0

/-- The type is STR or BLOB. -/
def isText (t : OdType) : Bool := typeSize t == 0

/-- The highest subindex present of an index (R10); none where the index does not exist. -/
def highestSub (idx : Nat) : Option Nat :=
  (odTable.filter (fun r => r.idx == idx)).foldl (fun m r => some (max (m.getD 0) r.hi)) none

/-! ### Numbers -/

/-- A free field: of no partition and scrubbed (R355). -/
def State.freeFields (s : State) : Nat := (allFields.filter (fun f => s.formable f)).foldl (fun m f => m + 2 ^ f) 0

/-- Sessions that are established. -/
def State.sessionsOpen (s : State) : Nat :=
  (s.fns.filter (fun e => match e.2.session with
    | some x => x.established
    | none => false)).length

/-- Key slots that a partition occupies: bits 0–3 model, 4–5 link. -/
def slotsMask (P : Partition) : Nat :=
  ([0, 1, 2, 3, 0x10, 0x11].zip (List.range 6)).foldl (fun m e => if (mfind P.keys e.1).isSome then m + 2 ^ e.2 else m) 0

/-- Value of a numeric entry; none where it is not available (R381). A partition's value of an overlayable entry is its
effective value (R388). -/
def State.entryNum (s : State) (idx sub part : Nat) : Option Nat :=
  if idx = 0x1100 ∧ sub = 1 then some (0x02474D * 2 ^ 24 + s.odG 0x1000 3 % 2 ^ 24)
  else if idx = 0x1100 ∧ sub = 7 then some s.hub.peers.length
  else if idx = 0x1120 ∧ sub = 1 then some s.hub.lockHolder
  else if idx = 0x1120 ∧ sub = 3 then some s.leaseLeft
  else if idx = 0x1120 ∧ sub = 4 then some (if s.hub.lockHolder = 3 then s.hub.lockPeer.2 else 0)
  else if idx = 0x2200 ∧ sub = 5 then some s.clkTime
  else if idx = 0x2300 ∧ sub = 5 then s.hub.coolant.map (fun c => unsign 16 c.1)
  else if idx = 0x2300 ∧ sub = 6 then s.hub.coolant.map (fun c => unsign 16 c.2.1)
  else if idx = 0x2300 ∧ sub = 7 then s.hub.coolant.map (fun c => c.2.2)
  else if idx = 0x4000 ∧ sub = 4 then some s.freeFields
  else if idx = 0x4100 ∧ sub = 3 then some s.sessionsOpen
  else if idx = 0x4103 then some (slotsMask (s.part (sub - 1)))
  else if idx = 0x7000 ∧ sub = 7 then some (if s.odP 0x7000 7 part = 1 ∧ s.partDrained part = true then 2 else s.odP 0x7000 7 part)
  else some (s.odEff idx sub part)

/-! ### Canonical records and digests (R390) -/

/-- A canonical record of an entry's value. -/
def canonRecord (idx sub typ part : Nat) (v : List Byte) : List Byte :=
  leBytes 2 idx ++ leBytes 1 sub ++ leBytes 1 typ ++ leBytes 1 part ++ leBytes 1 0 ++ leBytes 2 v.length ++ v

/-- The deltas of an overlay as canonical records (OD 0x1201). -/
def State.deltaRecords (s : State) (ovl : Nat) : List Byte :=
  (s.hub.deltas.filter (fun e => e.1 / 2 ^ 24 == ovl)).flatMap (fun e =>
    let idx := e.1 / 256 % 65536
    match odFind idx (e.1 % 256) with
    | none => []
    | some r => canonRecord idx (e.1 % 256) (typeCode r.ty) 0xFF (leBytes (typeSize r.ty) e.2))

/-- Subindexes of a row. -/
def subsOf (r : OdRow) : List Nat := (List.range (r.hi - r.lo + 1)).map (fun i => r.lo + i)

/-- What block 0x03 covers: every device-wide entry of class S. -/
def State.baseConfig (s : State) : List Byte :=
  (odTable.filter (fun r => r.pers == .s && r.kind == .device)).flatMap (fun r => (subsOf r).flatMap (fun sub =>
    canonRecord r.idx sub (typeCode r.ty) 0xFF
      (if r.idx = 0x1201 then s.deltaRecords (sub - 1) else leBytes (typeSize r.ty) (s.odG r.idx sub))))

/-- What block 0x11 covers: the overlay in force and the effective value of every per-partition entry of class S. -/
def State.partConfig (s : State) (p : Nat) : List Byte :=
  leBytes 1 (s.overlay p) ++
    (odTable.filter (fun r => r.pers == .s && r.kind == .perPart)).flatMap (fun r => (subsOf r).flatMap (fun sub =>
      canonRecord r.idx sub (typeCode r.ty) p (leBytes (typeSize r.ty) (s.odEff r.idx sub p))))

/-! ### BLOBs and STRs -/

/-- The handle record of Table 10.5. -/
def handleRecord (h : Handle) : List Byte :=
  leBytes 1 h.st ++ leBytes 1 h.kind ++ leBytes 6 0 ++ leBytes 8 h.addr ++ leBytes 8 h.len ++ fitB h.baseId 16 ++
    fitB h.digest 32 ++ leBytes 8 h.installed

/-- The selector's tile and its place beyond it (OD 0x7010.01, 0x7020.01). -/
def selXY (sel : Nat) : Nat × Nat := (sel % 256, sel / 256 % 256)

/-- Program digests of a partition: the base's and, where one is installed, the addition's (R187). -/
def programDigests (P : Partition) : List Byte :=
  ((P.program.map (fun g => fitB g.digest 32)).getD []) ++ (if P.addDigest.isEmpty then [] else fitB P.addDigest 32)

/-- Value of a STR or BLOB entry, but for the log's and the debug selectors'. -/
def State.entryBlob (s : State) (idx sub part : Nat) : List Byte :=
  if idx = 0x1000 then asciiB "GVX-AM64"
  else if idx = 0x1120 then (if s.hub.lockHolder = 3 then (leBytes 16 s.hub.lockPeer.1).reverse else List.replicate 16 0)
  else if idx = 0x1200 then sha256 s.baseConfig
  else if idx = 0x1201 then s.deltaRecords (sub - 1)
  else if idx = 0x1300 ∧ sub = 8 then fitB ((s.blobP 0x1300 8 0xFF).getD []) 32
  else if idx = 0x2102 then (s.blobP 0x2102 sub 0xFF).getD (List.replicate 16 0xFF)
  else if idx = 0x3501 ∧ sub = 2 then programDigests (s.part part)
  else if idx = 0x4000 then fitB ((s.blobP 0x4000 1 0xFF).getD []) 8
  else if idx = 0x7100 then fitB ((s.blobP 0x7100 1 0xFF).getD []) 16
  else if idx = 0x4101 then fitB ((s.part (sub - 1)).claim.getD []) 32
  else if idx = 0x5210 then handleRecord (handleOf (s.part part) (sub - 1))
  else if idx = 0xF000 then (s.blobP 0xF000 sub 0xFF).getD (List.replicate 20 0xFF)
  else if idx = 0x1300 ∨ idx = 0x4100 ∨ idx = 0xF002 then (s.blobP idx sub 0xFF).getD (Config.factoryBlob idx sub)
  else (s.blobP idx sub part).getD []

/-! ### The event log (R376, R377) -/

/-- The 32 bytes of a log entry (Table 16.3). -/
def logBytes (e : LogEntry) : List Byte :=
  let open1 := e.event == 0
  leBytes 8 e.time ++ leBytes 4 e.seq ++ leBytes 2 (if open1 then 0 else Config.eventCode e.event) ++ leBytes 2 e.status ++
    leBytes 1 e.severity ++ leBytes 1 e.source ++ leBytes 1 e.field ++ leBytes 1 e.part ++
    (List.range 12).map (fun i => if open1 then 0 else Config.eventData e.event e.data i)

/-- UTC of a wafer time, ns (OD 0x2200.06). -/
def State.utcOf (s : State) (t : Nat) : Nat := s.odG 0x2200 6 + nsOf t

/-- A READ of the log at the selector: its code, bytes, and the state with the selector past what was read.
DESIGN CHOICE, log 18. -/
def State.readLog (s : State) (utc : Bool) : State × Nat × List Byte :=
  let sel := s.odG 0x1110 2
  let seq := sel % 2 ^ 32
  let ring := if bit sel 32 then s.hub.flashLog else s.hub.ramLog
  let lost := match ring with
    | [] => !bit sel 32 && s.odG 0x1110 1 != 0xFFFFFFFF && decide (seq ≤ s.odG 0x1110 1)
    | e :: _ => decide (seq < e.seq)
  if utc && s.odG 0x2200 6 == 0 then (s, 0x0004, [])
  else if lost then (s, 0x070A, [])
  else
    let l := (ring.filter (fun e => decide (seq ≤ e.seq))).take (if utc then 101 else 127)
    let b := l.flatMap (fun e => logBytes e ++ (if utc then leBytes 8 (s.utcOf e.time) else []))
    let next := match l.getLast? with
      | none => seq
      | some e => e.seq + 1
    (s.odSet 0x1110 2 (sel / 2 ^ 32 * 2 ^ 32 + next % 2 ^ 32), 0, b)

/-! ### Debug selectors (R196, R204) -/

/-- The tile that a selector names; none where it names none. -/
def State.selected (s : State) (sel : Nat) : Option TileId :=
  let xy := selXY sel
  if xy.1 < 160 ∧ xy.2 < 160 then some (s.physical xy.1 xy.2) else none

/-- OD 0x7010.02: 4 096 bytes of the selected tile's trace window. -/
def State.readTrace (s : State) : Nat × List Byte :=
  let sel := s.odG 0x7010 1
  let off := sel / 65536 * 4096
  match s.selected sel with
  | none => (0x0003, [])
  | some t =>
    if s.stk.online.isEmpty || s.stk.selfRefresh then (0x000B, [])
    else if s.sealedAt t then (0x0602, [])
    else if s.traceWindow < off + 4096 then (0x0003, [])
    else
      let xy := selXY sel
      (0, mread 0 s.stk.mem (s.traceBase + (160 * xy.2 + xy.1) * s.traceWindow + off) 4096)

/-- OD 0x7020.02 read: the selected tile register. DESIGN CHOICE, log 47. -/
def State.readSelected (s : State) : State × Nat × Nat :=
  let sel := s.odG 0x7020 1
  let off := sel / 65536
  match s.selected sel with
  | none => (s, 0, 0x0003)
  | some t =>
    if !s.fieldOn (fieldOfTile t) then (s, 0, 0x000B)
    else if s.sealedAt t then (s, 0, 0x0602)
    else if off % 4 ≠ 0 then (s, 0, 0x0003)
    else s.readTileReg t off

/-- A write of CC_CTRL through the management path (R200): its code. -/
def State.ctrlWrite (s : State) (t : TileId) (v : Nat) : State × Nat :=
  let halted := (s.tile t).cc.state == .halted
  if bit v 0 then (s.writeCtrl t true false (bit v 3), 0)
  else if !halted then (s, 0x0315)
  else if bit v 1 then (s.writeCtrl t false true (bit v 3), 0)
  else if bit v 2 then (nextOf s (execStep t s), 0)
  else (s.writeCtrl t false false (bit v 3), 0)

/-- OD 0x7020.02 written: the selected tile register. DESIGN CHOICE, log 47. -/
def State.writeSelected (v : Nat) (s : State) : State × Nat :=
  let sel := s.odG 0x7020 1
  let off := sel / 65536
  match s.selected sel with
  | none => (s, 0x0003)
  | some t =>
    let debug := match s.partOfTile t with
      | none => false
      | some p => s.odP 0x7000 1 p == 1
    if !s.fieldOn (fieldOfTile t) then (s, 0x000B)
    else if s.sealedAt t then (s, 0x0602)
    else if !debug then (s, 0x0004)
    else if off % 4 ≠ 0 then (s, 0x0003)
    else if off = 0x008 then s.ctrlWrite t v
    else if ccClosed (s.tile t).cc off then (s, 0x0315)
    else (s.writeTileReg t off (BitVec.ofNat 32 v) true, 0)

end Sys2Proof.Machine
end

