-- ==== Sys2Proof/Machine/Security.lean ====
section
/-!
DEFINITION. SPDM and attestation (R356, R357, R367), partition messages: claims, keys and sealing (R358–R361, R363), and
IDE key management (R362).
-/

namespace Sys2Proof.Machine

/-! ### SPDM responses -/

/-- The hub answers SPDM (R371, R374). -/
def State.spdmOn (s : State) : Bool := s.hub.served && !s.hub.away

/-- An SPDM response of a function. PRESUMED, log 97. -/
def State.spdmSend (s : State) (port : Port) (fn code : Nat) (payload : List Byte) : State :=
  s.emit (.spdm port fn code payload)

/-- An ERROR response, counted (R357). -/
def State.spdmError (s : State) (port : Port) (fn code : Nat) : State :=
  (s.odAdd 0x4100 5 1).spdmSend port fn 0x7F (leBytes 1 code ++ leBytes 1 0)

/-- The certificate chain of slot 0 (R356). -/
def State.chain (s : State) : List Byte := s.entryBlob 0x4100 1 0xFF

/-- Fresh random bytes of a response. -/
def State.fresh (s : State) (n : Nat) : List Byte := Config.spdmBytes n s.free

/-- An SPDM request of a connection that has come at least to a level (R357). -/
def State.spdmAt (s : State) (port : Port) (fn level : Nat) (run : State → State) : State :=
  if !s.spdmOn then s
  else if (s.fn port fn).spdm < level then s.spdmError port fn 0x04
  else run s

/-- GET_VERSION (R357): the connection starts again, and its session ends. PRESUMED, log 97. -/
def execGetVersion (port : Port) (fn : Nat) (s : State) : Res :=
  guardRes (fnOk fn)
    (s.spdmAt port fn 0 (fun s =>
      (s.modFn port fn (fun f => { f with spdm := 1, session := none })).spdmSend port fn 0x04 (leBytes 2 0x0100 ++ leBytes 2 0x1200)))

/-- Responder capabilities of Table 15.5 as the flags of SPDM 1.2: CERT, CHAL, MEAS with signature, MEAS_FRESH, ENCRYPT,
MAC, MUT_AUTH, KEY_EX, HBEAT, KEY_UPD. -/
def spdmFlags : Nat := 0x0002 + 0x0004 + 0x0010 + 0x0020 + 0x0040 + 0x0080 + 0x0100 + 0x0200 + 0x2000 + 0x4000

/-- GET_CAPABILITIES (R357). -/
def execGetCapabilities (port : Port) (fn : Nat) (s : State) : Res :=
  guardRes (fnOk fn)
    (s.spdmAt port fn 1 (fun s =>
      (s.modFn port fn (fun f => { f with spdm := max f.spdm 2 })).spdmSend port fn 0x61 (leBytes 4 spdmFlags)))

/-- NEGOTIATE_ALGORITHMS (R357): the set of Table 15.5, or an error where the offer does not include it. -/
def execNegotiateAlgorithms (port : Port) (fn : Nat) (supported : Bool) (s : State) : Res :=
  guardRes (fnOk fn)
    (s.spdmAt port fn 2 (fun s =>
      if supported then (s.modFn port fn (fun f => { f with spdm := 3 })).spdmSend port fn 0x63 []
      else s.spdmError port fn 0x01))

/-- GET_DIGESTS (R356): slot 0 holds the chain, slots 1–7 are empty. -/
def execGetDigests (port : Port) (fn : Nat) (s : State) : Res :=
  guardRes (fnOk fn)
    (s.spdmAt port fn 3 (fun s => s.spdmSend port fn 0x01 (leBytes 1 0x01 ++ sha256 s.chain)))

/-- GET_CERTIFICATE (R356): a portion of the chain of slot 0. -/
def execGetCertificate (port : Port) (fn slot offset length : Nat) (s : State) : Res :=
  guardRes (fnOk fn)
    (s.spdmAt port fn 3 (fun s =>
      if slot ≠ 0 ∨ s.chain.length ≤ offset then s.spdmError port fn 0x01
      else
        let b := (s.chain.drop offset).take length
        s.spdmSend port fn 0x02 (leBytes 2 b.length ++ leBytes 2 (s.chain.length - offset - b.length) ++ b)))

/-- CHALLENGE (R357): signed with the identity key over the chain's digest and both nonces. -/
def execChallenge (port : Port) (fn slot : Nat) (nonce : List Byte) (s : State) : Res :=
  guardRes (fnOk fn)
    (s.spdmAt port fn 3 (fun s =>
      if slot ≠ 0 then s.spdmError port fn 0x01
      else
        let body := sha256 s.chain ++ s.fresh 32
        (s.spdmSend port fn 0x03 (body ++ Config.sign (body ++ nonce) s.free)).useFree 1))

/-! ### Attestation (R367) -/

/-- The partition record of Table 15.11. -/
def State.partRecord (s : State) (p : Nat) : List Byte :=
  let P := s.part p
  let flags := b2n (s.isSealed p) + 2 * s.odP 0x7000 1 p + 4 * s.odEff 0x6000 0xD p + 8 * s.odEff 0x6111 2 p + 16 * P.port
  leBytes 1 p ++ leBytes 1 (s.partState p) ++ leBytes 1 flags ++ leBytes 1 (s.overlay p) ++ leBytes 1 (s.odEff 0x3101 1 p) ++
    leBytes 1 (s.odP 0x7000 2 p) ++ leBytes 1 (slotsMask P) ++ leBytes 1 0 ++ leBytes 8 (s.partMask p) ++
    fitB (P.claim.getD []) 32 ++ leBytes 4 (s.odP 0x5200 6 p) ++ leBytes 12 0

/-- Hamper digest of an installed handle; zero if none. -/
def installedDigest (P : Partition) (h : Nat) : List Byte := if h < 16 then fitB (handleOf P h).digest 32 else List.replicate 32 0

/-- A measurement block of Table 15.10 for a function; none where it is not listed for it. A VF answers for its partition
while it is bound. -/
def State.measurement (s : State) (port : Port) (fn index : Nat) : Option (List Byte) :=
  let p := vfPart fn
  let P := s.part p
  if index = 0x01 then some (fitB (s.entryBlob 0x1300 9 0xFF) 32)
  else if index = 0x02 then some (fitB s.hub.running.digest 32)
  else if index = 0x03 then some (sha256 s.baseConfig)
  else if !s.bound port fn then none
  else if index = 0x10 then some (s.partRecord p)
  else if index = 0x11 then some (sha256 (s.partConfig p))
  else if index = 0x12 then some (fitB ((P.program.map (fun g => g.digest)).getD []) 32)
  else if index = 0x13 then some (fitB P.addDigest 32)
  else if index = 0x14 then some (installedDigest P (s.odP 0x5200 7 p))
  else if index = 0x15 then some (installedDigest P (s.odP 0x5200 8 p))
  else none

/-- The measurement blocks asked for, each with its index and length. -/
def State.report (s : State) (port : Port) (fn : Nat) (indexes : List Nat) : List Byte :=
  indexes.flatMap (fun i =>
    let b := (s.measurement port fn i).getD []
    leBytes 1 i ++ leBytes 2 b.length ++ b)

/-- GET_MEASUREMENTS (R367): the signed report, counted; an index not listed for the function is an InvalidRequest.
DESIGN CHOICE, log 101. -/
def execGetMeasurements (port : Port) (fn : Nat) (indexes : List Nat) (nonce : List Byte) (s : State) : Res :=
  guardRes (fnOk fn)
    (s.spdmAt port fn 3 (fun s =>
      if indexes.any (fun i => (s.measurement port fn i).isNone) then s.spdmError port fn 0x01
      else
        let body := s.report port fn indexes ++ s.fresh 32
        ((s.odAdd 0x4100 4 1).spdmSend port fn 0x60 (body ++ Config.sign (body ++ nonce) s.free)).useFree 1))

/-! ### Sessions (R357) -/

/-- A session of a function changed. -/
def State.setSession (s : State) (port : Port) (fn : Nat) (x : Option Session) : State :=
  s.modFn port fn (fun f => { f with session := x })

/-- KEY_EXCHANGE (R357): one session per mailbox; a further one is BUSY. PRESUMED, log 97. -/
def execKeyExchange (port : Port) (fn : Nat) (mutualAuth : Bool) (s : State) : Res :=
  guardRes (fnOk fn)
    (s.spdmAt port fn 3 (fun s =>
      if (s.fn port fn).session.isSome then s.spdmError port fn 0x03
      else
        let s1 := s.setSession port fn (some { mutualAsked := mutualAuth, beatAt := s.clkTime })
        (s1.spdmSend port fn 0x64 (s.fresh 416)).useFree 1))

/-- FINISH (R357): the requester's signature is checked where it authenticates. -/
def execFinish (port : Port) (fn : Nat) (spki : List Byte) (sig : SigCheck) (s : State) : Res :=
  guardRes (fnOk fn)
    (s.spdmAt port fn 3 (fun s =>
      match (s.fn port fn).session with
      | none => s.spdmError port fn 0x04
      | some x =>
        if x.established then s.spdmError port fn 0x04
        else if x.mutualAsked && sig == .invalid then (s.setSession port fn none).spdmError port fn 0x06
        else
          let y : Session := { x with established := true, key := if x.mutualAsked then some (sha256 spki) else none,
                                      beatAt := s.clkTime }
          (s.setSession port fn (some y)).spdmSend port fn 0x65 []))

/-- A request inside an established session: its answer, with the session as it leaves it. -/
def State.inSession (s : State) (port : Port) (fn code : Nat) (next : Session → Option Session) : State :=
  s.spdmAt port fn 3 (fun s =>
    match (s.fn port fn).session with
    | none => s.spdmError port fn 0x04
    | some x => if x.established then (s.setSession port fn (next x)).spdmSend port fn code [] else s.spdmError port fn 0x04)

/-- HEARTBEAT (R357). -/
def execHeartbeat (port : Port) (fn : Nat) (s : State) : Res :=
  guardRes (fnOk fn) (s.inSession port fn 0x68 (fun x => some { x with beatAt := s.clkTime }))

/-- KEY_UPDATE (R357): new traffic keys; nothing else of the session changes. -/
def execKeyUpdate (port : Port) (fn : Nat) (s : State) : Res :=
  guardRes (fnOk fn) (s.inSession port fn 0x69 some)

/-- END_SESSION (R357). -/
def execEndSession (port : Port) (fn : Nat) (s : State) : Res :=
  guardRes (fnOk fn) (s.inSession port fn 0x6C (fun _ => none))

/-- HEARTBEAT_LAPSE (R357): the session ends. -/
def execHeartbeatLapse (port : Port) (fn : Nat) (s : State) : Res :=
  guardRes (fnOk fn) (if (s.fn port fn).session.isSome then s.setSession port fn none else s)

/-! ### Partition messages (R358) -/

/-- Key slots of Table 15.7. -/
def keySlotOk (slot : Nat) : Bool := decide (slot ≤ 3) || slot == 0x10 || slot == 0x11

/-- Bytes of a key. -/
def keyLen (slot : Nat) : Nat := if slot ≤ 3 then 64 else 32

/-- KEYSLOT of a handle's header, once it has been received. -/
def State.handleSlot (s : State) (p h : Nat) : Option Nat :=
  let known := match (s.part p).cmd with
    | .stage g _ _ _ got _ _ => g != h || decide (64 ≤ got)
    | _ => true
  if known then some (fieldN (s.stackBytes p (handleOf (s.part p) h).addr 64) 9 1) else none

/-- The slot is in use (R361). DESIGN CHOICE, log 114. -/
def State.slotInUse (s : State) (p slot : Nat) : Bool :=
  if slot ≤ 3 then
    (s.part p).handles.any (fun e => (e.2.st == 1 || e.2.st == 3 || e.2.st == 4) && s.handleSlot p e.1 == some slot)
  else
    let k := slot - 0x10
    s.fabric.tx.any (fun e => e.1 % 32 == p && e.2.enc && e.2.kslot == k) ||
      s.fabric.rx.any (fun e => e.1 == p && rxOpen e.2 && e.2.enc && e.2.kslot == k) || (s.vf p).ideSet == some k

/-- SET_KEY (R361): a link slot's STREAM count restarts. -/
def State.setKey (s : State) (p slot : Nat) (key : List Byte) : State × Nat :=
  if keySlotOk slot = false ∨ key.length ≠ keyLen slot then (s, 0x0608)
  else if s.slotInUse p slot then (s, 0x0609)
  else
    (s.modPart p (fun P =>
      { P with keys := mput P.keys slot key, streams := if slot ≤ 3 then P.streams else mdel P.streams (slot - 0x10) }), 0)

/-- CLEAR_KEY (R361). -/
def State.clearKey (s : State) (p slot : Nat) : State × Nat :=
  if keySlotOk slot = false then (s, 0x0608)
  else if s.slotInUse p slot then (s, 0x0609)
  else (s.modPart p (fun P => { P with keys := mdel P.keys slot }), 0)

/-- SEAL (R363): trace stops, its windows are erased, breakpoints and watchpoints go, halted cores resume (R201). -/
def State.seal (s : State) (p : Nat) : State × Nat :=
  if s.isSealed p then (s, 0)
  else
    let s1 := ((s.odSetP 0x7000 2 p 0).clearDebug p).resumePart p
    (s1.odSet 0x4102 (p + 1) 1, 0)

/-- UNSEAL (R363). -/
def State.unseal (s : State) (p : Nat) : State × Nat := (s.odSet 0x4102 (p + 1) 0, 0)

/-- RELEASE (R359): the claim ends, the program is unloaded, and a scrub runs. DESIGN CHOICE, log 96. -/
def State.release (s : State) (p : Nat) : State × Nat :=
  let st := s.partState p
  (((s.endWork p 0x000D).modPart p uninstalled).startScrub p (if st = 2 then 2 else 1), 0)

/-- A RESET or DISSOLVE of the partition is running. -/
def State.resetRuns (s : State) (p : Nat) : Bool :=
  s.hub.acts.any (fun a => a.kind == ActKind.partCmd 0x71 p || a.kind == ActKind.partCmd 0x72 p)

/-- Reserved bytes of a partition message are not zero, or its length is not that of its OP. -/
def messageBad (m : List Byte) : Bool :=
  let set := fieldN m 0 1 == 2
  !zeroRange m 4 4 || (!set && fieldN m 2 2 != 0) || (fieldN m 0 1 != 2 && fieldN m 0 1 != 3 && fieldN m 1 1 != 0) ||
    m.length != 8 + (if set then fieldN m 2 2 else 0)

/-- A message of a requester inside its session, by the order of Table 15.13. -/
def State.claimantMessage (s : State) (p : Nat) (key : Option (List Byte)) (m : List Byte) : State × Nat :=
  let op := fieldN m 0 1
  let slot := fieldN m 1 1
  let claim := (s.part p).claim
  if op = 4 ∧ s.resetRuns p = true then (s, 0x0604)
  else if op = 1 then
    if s.partState p ≠ 1 ∨ claim.isSome = true then (s, 0x0605)
    else
      match key with
      | none => (s, 0x0607)
      | some k => (s.modPart p (fun P => { P with claim := some k }), 0)
  else if claim.isNone then (s, 0x0605)
  else if key ≠ claim then (s, 0x0606)
  else if op = 2 then s.setKey p slot (m.drop 8)
  else if op = 3 then s.clearKey p slot
  else if op = 4 then s.seal p
  else if op = 5 then s.unseal p
  else s.release p

/-- A partition message on a function (R358): its code and the state after it. DESIGN CHOICE, log 100. -/
def State.messageCode (s : State) (port : Port) (fn : Nat) (inSession : Bool) (m : List Byte) : State × Nat :=
  let op := fieldN m 0 1
  if m.length < 8 then (s, 0x0002)
  else if op = 0 ∨ 6 < op then (s, 0x0001)
  else if messageBad m then (s, 0x0002)
  else if fn = 0 then (s, 0x0607)
  else if !s.bound port fn then (s, 0x0A04)
  else
    match (s.fn port fn).session with
    | none => (s, 0x0607)
    | some x => if inSession && x.established then s.claimantMessage (vfPart fn) x.key m else (s, 0x0607)

/-- A partition message answered: the response payload of R358; a refusal is counted. DESIGN CHOICE, log 99, 100. -/
def State.partMessage (s : State) (port : Port) (fn : Nat) (inSession : Bool) (m : List Byte) : State :=
  if !s.spdmOn then s
  else
    let z := s.messageCode port fn inSession m
    let s1 := if z.2 = 0 then z.1 else z.1.odAdd 0x4100 5 1
    s1.spdmSend port fn 0x7E (leBytes 1 (fieldN m 0 1) ++ leBytes 1 0 ++ leBytes 2 z.2)

/-- CLAIM (R359). -/
def execClaim (port : Port) (fn : Nat) (inSession : Bool) (msg : List Byte) (s : State) : Res :=
  guardRes (fnOk fn) (s.partMessage port fn inSession msg)

/-- SET_KEY (R361). -/
def execSetKey (port : Port) (fn : Nat) (inSession : Bool) (msg : List Byte) (s : State) : Res :=
  guardRes (fnOk fn) (s.partMessage port fn inSession msg)

/-- CLEAR_KEY (R361). -/
def execClearKey (port : Port) (fn : Nat) (inSession : Bool) (msg : List Byte) (s : State) : Res :=
  guardRes (fnOk fn) (s.partMessage port fn inSession msg)

/-- SEAL (R363). -/
def execSeal (port : Port) (fn : Nat) (inSession : Bool) (msg : List Byte) (s : State) : Res :=
  guardRes (fnOk fn) (s.partMessage port fn inSession msg)

/-- UNSEAL (R363). -/
def execUnseal (port : Port) (fn : Nat) (inSession : Bool) (msg : List Byte) (s : State) : Res :=
  guardRes (fnOk fn) (s.partMessage port fn inSession msg)

/-- RELEASE (R359). -/
def execRelease (port : Port) (fn : Nat) (inSession : Bool) (msg : List Byte) (s : State) : Res :=
  guardRes (fnOk fn) (s.partMessage port fn inSession msg)

/-! ### IDE key management (R362) -/

/-- The function is a bound VF whose session is the claimant's. -/
def State.claimantSession (s : State) (port : Port) (fn : Nat) : Bool :=
  s.spdmOn && s.bound port fn && (s.part (vfPart fn)).claim.isSome && (match (s.fn port fn).session with
    | none => false
    | some x => x.established && x.key == (s.part (vfPart fn)).claim)

/-- An IDE_KM request, answered only inside the claimant's session. -/
def State.ideKm (s : State) (port : Port) (fn : Nat) (run : State → State × Nat) : State :=
  if !s.claimantSession port fn then s
  else
    let z := run s
    z.1.emit (.ideKm port fn z.2)

/-- The IDE key of a sub-stream, from its link key. -/
def ideKey (link : List Byte) (port : Port) (fn direction substream : Nat) : List Byte :=
  hmac256 link (asciiB "GVX-IDE" ++ leBytes 1 (portNum port) ++ leBytes 1 fn ++ leBytes 1 direction ++ leBytes 1 substream)

/-- Place of a programmed key. -/
def idePlace (keySet direction substream : Nat) : Nat := keySet * 8 + direction * 4 + substream

/-- KEY_PROG: 0 where the key is the derived one, 3 for a field out of range, 4 otherwise, with nothing programmed. -/
def State.keyProg (port : Port) (fn keySet direction substream : Nat) (key : List Byte) (s : State) : State × Nat :=
  if 1 < keySet ∨ 1 < direction ∨ 2 < substream then (s, 3)
  else
    match mfind (s.part (vfPart fn)).keys (0x10 + keySet) with
    | none => (s, 4)
    | some link =>
      if key ≠ ideKey link port fn direction substream then (s, 4)
      else (s.modFn port fn (fun f => { f with ideKeys := mput f.ideKeys (idePlace keySet direction substream) key }), 0)

/-- Every sub-stream of a key set has its key. -/
def setProgrammed (f : Function) (keySet : Nat) : Bool :=
  [0, 1].all (fun d => [0, 1, 2].all (fun k => (mfind f.ideKeys (idePlace keySet d k)).isSome))

/-- K_SET_GO: the stream is secure under the set, and the rings resume; a refresh to a set without keys fails, and the
stream leaves the secure state (R291). -/
def State.keySetGo (port : Port) (fn keySet : Nat) (s : State) : State × Nat :=
  if 1 < keySet then (s, 3)
  else if setProgrammed (s.fn port fn) keySet then
    ((s.modFn port fn (fun f => { f with ideSet := some keySet, ideBroken := false })).pumpRecords port fn, 0)
  else (s.streamFails port fn, 4)

/-- K_SET_STOP: the set's keys go, and a stream that uses it leaves the secure state. -/
def State.keySetStop (port : Port) (fn keySet : Nat) (s : State) : State × Nat :=
  if 1 < keySet then (s, 3)
  else
    let s1 := if (s.fn port fn).ideSet = some keySet then s.streamFails port fn else s
    (s1.modFn port fn (fun f => { f with ideKeys := f.ideKeys.filter (fun e => e.1 / 8 != keySet) }), 0)

/-- QUERY (R362). -/
def execQuery (port : Port) (fn : Nat) (s : State) : Res :=
  guardRes (Instr.wf (.query port fn)) (s.ideKm port fn (fun s => (s, 0)))

/-- KEY_PROG (R362). PRESUMED, log 97. -/
def execKeyProg (port : Port) (fn keySet direction substream : Nat) (key : List Byte) (s : State) : Res :=
  guardRes (Instr.wf (.keyProg port fn keySet direction substream key))
    (s.ideKm port fn (State.keyProg port fn keySet direction substream key))

/-- K_SET_GO (R362). DESIGN CHOICE, log 101. -/
def execKSetGo (port : Port) (fn keySet : Nat) (s : State) : Res :=
  guardRes (Instr.wf (.kSetGo port fn keySet)) (s.ideKm port fn (State.keySetGo port fn keySet))

/-- K_SET_STOP (R362). -/
def execKSetStop (port : Port) (fn keySet : Nat) (s : State) : Res :=
  guardRes (Instr.wf (.kSetStop port fn keySet)) (s.ideKm port fn (State.keySetStop port fn keySet))

end Sys2Proof.Machine
end

