-- ==== Sys2Proof/Machine/Dict.lean ====
section
/-!
DEFINITION. The dictionary server and its protocol (R379–R393), the mailbox (R289), the lock from the network (R387), and
register writes by address (R9, R284).
-/

namespace Sys2Proof.Machine

/-! ### Reading an entry (R381, R383) -/

/-- A number as a READ returns it. -/
def numAnswer (s : State) (r : OdRow) (v : Option Nat) : State × Nat × List Byte × Nat :=
  match v with
  | none => (s, 0x000B, [], 0)
  | some n => (s, 0, leBytes (typeSize r.ty) n, typeSize r.ty)

/-- Up to 4 072 bytes of a STR or BLOB from OFFSET. -/
def textAnswer (s : State) (b : List Byte) (offset : Nat) : State × Nat × List Byte × Nat :=
  if b.length < offset then (s, 0x0003, [], 0) else (s, 0, (b.drop offset).take 4072, b.length)

/-- A READ of an entry that passed the checks before it: state, code, value, TOTAL. Only a per-partition entry has a value
for the partition that is named (R380). DESIGN CHOICE, log 16. -/
def State.readEntry (s : State) (r : OdRow) (sub named offset : Nat) : State × Nat × List Byte × Nat :=
  let part := if r.kind = .perPart then named else 0xFF
  if r.idx = 0x1110 ∧ 3 ≤ sub then
    if offset ≠ 0 then (s, 0x0003, [], 0)
    else
      let z := s.readLog (sub == 4)
      (z.1, z.2.1, z.2.2, z.2.2.length)
  else if r.idx = 0x7010 ∧ sub = 2 then
    let z := s.readTrace
    if z.1 ≠ 0 then (s, z.1, [], 0) else textAnswer s z.2 offset
  else if r.idx = 0x7020 ∧ sub = 2 then
    let z := s.readSelected
    if z.2.2 ≠ 0 then (z.1, z.2.2, [], 0) else numAnswer z.1 r (some z.2.1)
  else if isText r.ty then textAnswer s (s.entryBlob r.idx sub part) offset
  else numAnswer s r (s.entryNum r.idx sub part)

/-! ### Overlays (R388, R389) -/

/-- The entry may carry a delta. -/
def overlayable (r : OdRow) : Bool := r.kind == .perPart && r.pers == .s && (r.acc == .rw || r.acc == .rwl)

/-- Deltas that an overlay holds. -/
def State.deltaCount (s : State) (ovl : Nat) : Nat := (s.hub.deltas.filter (fun e => e.1 / 2 ^ 24 == ovl)).length

/-- The overlay in force holds a delta for the entry. -/
def State.shadowed (s : State) (r : OdRow) (sub part : Nat) : Bool :=
  overlayable r && (mfind s.hub.deltas (deltaKey (s.overlay part) r.idx sub)).isSome

/-- The re-read count reaches the tiles of every formed partition (R95). -/
def State.rereadAll (s : State) : State :=
  s.forEach (List.range 32) (fun p s => if s.partState p = 0 then s else s.pushReread p (s.partMask p))

/-- A saved-configuration write is counted. -/
def State.commit (s : State) : State := s.odAdd 0x1200 2 1

/-- Checks of a delta's value: its range, and the sum of the quotas (R233). -/
def State.quotaSum (s : State) : Nat := ((List.range 32).map (fun p => s.quota p)).sum

/-- A delta stored or, with no value, removed. -/
def State.putDelta (s : State) (ovl idx sub : Nat) (v : Option Nat) : State :=
  let k := deltaKey ovl idx sub
  (({ s with hub := { s.hub with deltas := match v with
      | none => mdel s.hub.deltas k
      | some n => mput s.hub.deltas k n } }).commit).rereadAll

/-- The value lies in the range that the chapter states. -/
def inRange (r : OdRow) (v : Nat) : Bool :=
  decide (r.rlo ≤ v) && decide (v ≤ r.rhi) && (r.idx != 0x3000 || r.lo != 7 || v == 0 || v == 2 || v == 4 || v == 8)

/-- A WRITE with OVERLAY = 1 (R388). -/
def State.writeDelta (r : OdRow) (sub ovl : Nat) (bytes : List Byte) (s : State) : State × Nat :=
  let v := leNat bytes
  if !bytes.isEmpty && bytes.length != typeSize r.ty then (s, 0x0701)
  else if !overlayable r then (s, 0x0707)
  else if bytes.isEmpty then (s.putDelta ovl r.idx sub none, 0)
  else if (mfind s.hub.deltas (deltaKey ovl r.idx sub)).isNone && decide (64 ≤ s.deltaCount ovl) then (s, 0x0707)
  else if !inRange r v then (s, 0x0003)
  else
    let s1 := s.putDelta ovl r.idx sub (some v)
    if r.idx = 0x5000 ∧ sub = 2 ∧ 8192 < s1.quotaSum then (s, 0x0003) else (s1, 0)

/-! ### Writing an entry (R381) -/

/-- A number stored. -/
def State.storeEntry (s : State) (r : OdRow) (sub part v : Nat) : State :=
  let s1 := s.odSetP r.idx sub (if r.kind = .perPart then part else 0xFF) v
  if r.pers = .s ∨ r.pers = .u then s1.commit else s1

/-- A write of a saved overlay selection (R389): the overlay is in force at once. -/
def State.selectOverlay (c : Caller) (p v : Nat) (s : State) : State × Nat :=
  let bulk := (s.part p).program.map (fun g => g.bulk)
  let s1 := ((s.odSet 0x1210 (p + 1) v).odSet 0x1211 (p + 1) v).commit
  if 4 < v then (s, 0x0003)
  else if (v = 0 ∧ bulk = some true) ∨ (v = 1 ∧ bulk = some false) then (s, 0x0004)
  else if s.sealedFrom c p && (s1.odEff 0x3101 1 p != s.odEff 0x3101 1 p || s1.odEff 0x6111 1 p != s.odEff 0x6111 1 p) then (s, 0x0602)
  else (if s.partState p = 0 then s1 else s1.pushReread p (s1.partMask p), 0)

/-- A write of a numeric entry that is no command, after the checks of type, length and range. -/
def State.writeNum (c : Caller) (r : OdRow) (sub part v : Nat) (s : State) : State × Nat :=
  let done := s.storeEntry r sub part v
  let idx := r.idx
  if idx = 0x1210 then s.selectOverlay c (sub - 1) v
  else if idx = 0x3101 ∧ s.sealedFrom c part = true then (s, 0x0602)
  else if idx = 0x7000 ∧ sub ≤ 2 ∧ s.isSealed part = true then (s, 0x0602)
  else if idx = 0x7010 ∨ idx = 0x7020 then
    match s.selected v with
    | none => (s, 0x0003)
    | some t => if s.sealedAt t then (s, 0x0602) else (done, 0)
  else if idx = 0x5000 ∧ sub = 2 then (if 8192 < done.quotaSum then (s, 0x0003) else (done, 0))
  else if idx = 0x3000 ∧ sub = 7 then (if s.partState part = 0 then done else done.pushReread part (done.partMask part), 0)
  else if idx = 0x6100 ∧ sub = 5 then (done.retrain (s.odG 0x6100 5 ^^^ v), 0)
  else (done, 0)

/-- A write of a command entry: its effect and code. -/
def State.writeCommand (c : Caller) (idx sub part offset : Nat) (b : List Byte) (env : CmdEnv) (s : State) : State × Nat :=
  let v := leNat b
  if idx = 0x1130 then oneOnly v State.restartCode s
  else if idx = 0x1230 then State.restoreFactory v s
  else if idx = 0x1300 ∧ sub = 2 then State.updateChunk offset b s
  else if idx = 0x2000 then oneOnly v State.clearMinimums s
  else if idx = 0x2306 then oneOnly v (State.releaseHeat (sub - 1)) s
  else if idx = 0x3002 then oneOnly v (fun s => (s.saveUserCal, 0)) s
  else if idx = 0x5100 then oneOnly v (State.dropPrefixTree c part) s
  else if idx = 0x7000 ∧ sub = 5 then oneOnly v (State.debugPart part (fun s => s.haltPart part none)) s
  else if idx = 0x7000 then oneOnly v (State.debugPart part (fun s => s.resumePart part)) s
  else if idx = 0x7020 then State.writeSelected v s
  else if offset ≠ 0 then (s, 0x0701)
  else if idx = 0x1300 then State.updateCommand b env.sig s
  else if idx = 0x4000 then State.partCommand b s
  else if idx = 0x5200 then State.modelCommand c part b s
  else if idx = 0x6110 then State.sendCommand c part b s
  else State.fieldCommand b env.start s

/-- The entry is a command. -/
def isCommand (r : OdRow) (sub : Nat) : Bool := r.acc == .wo || isText r.ty || (r.idx == 0x7020 && sub == 2)

/-- A WRITE of an entry, its value first taken as the entry's type; a TYPE of another gives way to the codes of steps 1
to 5 of R18. -/
def State.writeEntry (c : Caller) (r : OdRow) (sub part offset typ : Nat) (b : List Byte) (env : CmdEnv) (s : State) : State × Nat :=
  if isText r.ty = false ∧ b.length ≠ typeSize r.ty then (s, 0x0701)
  else
    let z :=
      if isCommand r sub then s.writeCommand c r.idx sub part offset b env
      else if !inRange r (leNat b) then (s, 0x0003)
      else s.writeNum c r sub part (leNat b)
    if typ = typeCode r.ty ∨ isEarlyCode z.2 = true then z else (s, 0x0701)

/-- What a completed WRITE does after its reply: a restart of the hub, a device warm reset. -/
def State.afterWrite (idx : Nat) (b : List Byte) (env : CmdEnv) (s : State) : State :=
  if idx = 0x1130 then
    (s.forEach allFields (fun f s => if s.odG 0x1300 4 = 4 then s.abandonRotations f else s)).beginRestart .command env.romKeyOk
      env.imageOk
  else if idx = 0x7100 ∧ fieldN b 0 1 = 0x83 then s.warmReset 2 env.start
  else s

/-! ### Messages (Table 16.6) -/

/-- Bytes of a message with an operation code. -/
def msgBytes (op : Nat) (m : DictMsg) : List Byte :=
  leBytes 2 m.pver ++ leBytes 1 op ++ leBytes 1 (b2n m.resp + 2 * b2n m.overlay + 4 * b2n m.shadowed + 8 * m.reserved) ++
    leBytes 2 m.seq ++ leBytes 1 m.part ++ leBytes 1 m.ovl ++ leBytes 2 m.index ++ leBytes 1 m.sub ++ leBytes 1 m.type ++
    leBytes 2 m.len ++ leBytes 2 m.status ++ leBytes 4 m.offset ++ leBytes 4 m.total ++ m.value

/-- A message read from bytes; its operation code stands in byte 2. -/
def msgOf (b : List Byte) : DictMsg :=
  let f := fieldN b 3 1
  { pver := fieldN b 0 2, resp := bit f 0, overlay := bit f 1, shadowed := bit f 2, reserved := f / 8, seq := fieldN b 4 2,
    part := fieldN b 6 1, ovl := fieldN b 7 1, index := fieldN b 8 2, sub := fieldN b 10 1, type := fieldN b 11 1,
    len := fieldN b 12 2, status := fieldN b 14 2, offset := fieldN b 16 4, total := fieldN b 20 4, value := b.drop 24 }

/-- The response to a request: its header with RESP, STATUS, TOTAL and its own value. -/
def respond (m : DictMsg) (status : Nat) (value : List Byte) (total : Nat) (shadowed : Bool) : DictMsg :=
  { m with resp := true, shadowed := shadowed, status := status, len := value.length, value := value, total := total }

/-- A response goes to its caller: on the network, or in the mailbox with its vector (R289). -/
def State.answerMsg (s : State) (c : Caller) (op : Nat) (m : DictMsg) : State :=
  match c with
  | .net a p => s.emit (.net a p op m)
  | .pf port => (s.emit (.mailbox port 0 op m)).mailboxAnswer port 0 (msgBytes op m)
  | .vf port n => (s.emit (.mailbox port n op m)).mailboxAnswer port n (msgBytes op m)

/-- Source number of a caller in the log (Table 16.3), and the partition it speaks for. -/
def callerSource : Caller → Nat
  | .pf port => 4 + portNum port
  | .vf port _ => 4 + portNum port
  | .net _ _ => 7

/-- A violation of R392: logged at SEVERITY 1 and counted. -/
def State.dictViolation (s : State) (c : Caller) (code : Nat) : State :=
  (s.odAdd 0x1100 6 1).log { rule := 392, status := code, sev := 1, source := callerSource c, part := (callerPart c).getD 0xFF }

/-- Version in force for a caller. -/
def State.versionOf (s : State) (c : Caller) : Option Nat := (s.hub.versions.find? (fun e => e.1 == c)).map (fun e => e.2)

/-- The caller is a network peer. -/
def State.isPeer (s : State) (c : Caller) : Bool :=
  match c with
  | .net a p => s.hub.peers.contains (a, p)
  | _ => false

/-- Request formats that R392 refuses. -/
def formBad (m : DictMsg) : Bool :=
  m.resp || m.shadowed || m.status != 0 || m.total != 0 || m.reserved != 0 || (m.ovl != 0 && !m.overlay)

/-- PART checks of R380, R383 and R388 at step 1 of R18 (R394) for READ, WRITE and LIST. -/
def partCode (c : Caller) (m : DictMsg) (list : Bool) : Nat :=
  if m.overlay then (if m.part ≠ 0xFF then 0x0708 else if 4 < m.ovl then 0x0003 else 0)
  else if (callerPart c).isSome then 0
  else if m.part != 0xFF && decide (31 < m.part) then 0x0708
  else if list || m.sub == 0 then 0
  else
    match odFind m.index m.sub with
    | none => 0
    | some r =>
      match r.kind with
      | .partIndexed => if m.part ≠ 0xFF ∧ m.part ≠ m.sub - 1 then 0x0708 else 0
      | .perPart => if m.part = 0xFF then 0x0708 else 0
      | .device => if m.part ≠ 0xFF then 0x0708 else 0

/-- The partition whose value a request addresses: the one in PART, or a VF's own. -/
def targetPart (c : Caller) (m : DictMsg) : Nat :=
  if m.part = 0xFF ∧ m.overlay = false then (callerPart c).getD 0xFF else m.part

/-- Format checks of READ, WRITE and LIST at step 1 of R18. A sealed entry has those of an absent one (R11). -/
def State.accessCode (s : State) (c : Caller) (m : DictMsg) (list : Bool) : Nat :=
  let numeric := match odFind m.index m.sub with
    | some r => !isText r.ty && !s.absentFor c r (targetPart c m)
    | none => m.sub == 0
  if numeric && m.offset != 0 && !list then 0x0002 else partCode c m list

/-- A VF's PART or subindex names another partition (R380). -/
def foreignMsg (c : Caller) (m : DictMsg) : Bool := foreign c m.index m.sub (targetPart c m)

/-- What a request came to. -/
structure Answer where
  code : Nat
  value : List Byte := []
  total : Nat := 0
  shadowed : Bool := false
deriving DecidableEq, Repr

/-! ### READ, WRITE, LIST -/

/-- A delta as a READ with OVERLAY = 1 returns it. -/
def State.readDelta (s : State) (r : OdRow) (m : DictMsg) : Answer :=
  if !overlayable r then { code := 0x0707 }
  else
    match mfind s.hub.deltas (deltaKey m.ovl m.index m.sub) with
    | none => { code := 0 }
    | some v => { code := 0, value := leBytes (typeSize r.ty) v, total := typeSize r.ty }

/-- The index exists for the caller (R10, R393), with its highest subindex. -/
def highestFor (c : Caller) (idx : Nat) : Option Nat :=
  if (callerPart c).isSome && decide (0xF000 ≤ idx) then none else highestSub idx

/-- READ of subindex 0 (R10): no overlay can hold a delta for it. -/
def State.readHighest (s : State) (c : Caller) (m : DictMsg) : Answer :=
  match highestFor c m.index with
  | none => { code := 0x0009 }
  | some h =>
    if s.hub.recovery && !inRecovery m.index then { code := 0x000B }
    else if foreignMsg c m then { code := 0x0601 }
    else if m.type ≠ 0 ∧ m.type ≠ 0x02 then { code := 0x0701 }
    else if m.overlay then { code := 0x0707 }
    else { code := 0, value := leBytes 1 h, total := 1 }

/-- READ (R381, R383), its checks in the order of R18. DESIGN CHOICE, log 16. -/
def State.doRead (s : State) (c : Caller) (m : DictMsg) : State × Answer :=
  if m.sub = 0 then (s, s.readHighest c m)
  else
    match odFind m.index m.sub with
    | none => (s, { code := 0x0009 })
    | some r =>
      let part := targetPart c m
      let g := s.gate c m.index m.sub part false
      let z := s.readEntry r m.sub part m.offset
      if g ≠ 0 then (s, { code := g })
      else if m.overlay = false ∧ isEarlyCode z.2.1 = true then (z.1, { code := z.2.1 })
      else if foreignMsg c m then (s, { code := 0x0601 })
      else if m.type ≠ 0 ∧ m.type ≠ typeCode r.ty then (s, { code := 0x0701 })
      else if m.overlay then (s, s.readDelta r m)
      else
        let beyond := z.2.1 == 0x0003 && m.offset != 0
        ((if beyond then z.1.dictViolation c 0x0003 else z.1), { code := z.2.1, value := z.2.2.1, total := z.2.2.2 })

/-- Full length of an entry after a WRITE (TOTAL). -/
def writeTotal (r : OdRow) (m : DictMsg) : Nat := if isText r.ty then m.offset + m.value.length else typeSize r.ty

/-- WRITE with OVERLAY = 1 (R388). -/
def State.doDelta (s : State) (c : Caller) (r : OdRow) (m : DictMsg) : State × Answer :=
  let g := s.gate c m.index m.sub 0xFF true
  if g ≠ 0 ∧ g ≠ 0x000B then (s, { code := g })
  else if !s.holdsLock c then (s, { code := 0x0007 })
  else if g ≠ 0 then (s, { code := g })
  else if m.type ≠ typeCode r.ty then (s, { code := 0x0701 })
  else
    let z := State.writeDelta r m.sub m.ovl m.value s
    (z.1, { code := z.2, total := if z.2 = 0 then typeSize r.ty else 0 })

/-- WRITE (R381, R383, R388). -/
def State.doWrite (s : State) (c : Caller) (m : DictMsg) (env : CmdEnv) : State × Answer :=
  match odFind m.index m.sub with
  | none => (s, { code := if m.sub = 0 ∧ (highestFor c m.index).isSome = true then 0x0006 else 0x0009 })
  | some r =>
    if m.overlay then s.doDelta c r m
    else
      let part := targetPart c m
      let z := State.writeEntry c r m.sub part m.offset m.type m.value env s
      let g := s.carriedGate c m.index m.sub part z.2
      if g ≠ 0 then (s, { code := g })
      else
        (z.1, { code := z.2, total := if z.2 = 0 then writeTotal r m else 0,
                shadowed := z.2 == 0 && s.shadowed r m.sub part })

/-- Access code of a LIST record. -/
def accessNum : OdAccess → Nat
  | .ro => 0
  | .rw => 1
  | .wo => 2
  | .rwl => 3

/-- Persistence code of a LIST record. -/
def persistNum : OdPersist → Nat
  | .f => 0
  | .u => 1
  | .s => 2
  | .w => 3
  | .v => 4

/-- A LIST record of an entry. -/
def listRecord (r : OdRow) (sub : Nat) : List Byte :=
  leBytes 2 r.idx ++ leBytes 1 sub ++ leBytes 1 (typeCode r.ty) ++ leBytes 1 (accessNum r.acc) ++
    leBytes 1 (persistNum r.pers + 8 * b2n (r.kind == .perPart) + 16 * b2n (overlayable r)) ++ leBytes 2 0

/-- A LIST record of subindex 0 (R10). -/
def recordRecord (idx : Nat) : List Byte := leBytes 2 idx ++ leBytes 1 0 ++ leBytes 1 0x0D ++ leBytes 4 0

/-- Records of LIST from an entry onward, in order: each index's subindex 0 (never sealed, R10), then its rows, but for
those sealed from the caller. DESIGN CHOICE, log 20. -/
def State.listRecords (s : State) (c : Caller) (idx sub part : Nat) : List (List Byte) :=
  let rows := odTable.filter (fun r => decide (idx ≤ r.idx) && !((callerPart c).isSome && decide (0xF000 ≤ r.idx)))
  rows.flatMap (fun r =>
    let head := if r.lo = 1 ∧ (idx < r.idx ∨ sub = 0) then [recordRecord r.idx] else []
    let subs := if s.absentFor c r part then [] else (subsOf r).filter (fun k => decide (idx < r.idx) || decide (sub ≤ k))
    head ++ subs.map (fun k => listRecord r k))

/-- LIST (R383): as many records as fit. -/
def State.doList (s : State) (c : Caller) (m : DictMsg) : Answer :=
  let b := ((s.listRecords c m.index m.sub (targetPart c m)).take 509).flatten
  if (callerPart c).isSome && targetPart c m != (callerPart c).getD 0 then { code := 0x0601 }
  else { code := 0, value := b, total := b.length }

/-! ### NEGOTIATE and LOCK (R384, R385, R387) -/

/-- NEGOTIATE. -/
def State.doNegotiate (s : State) (c : Caller) (m : DictMsg) : State × Answer :=
  let hmax := fieldN m.value 0 2
  let hmin := fieldN m.value 2 2
  let v := min hmax (s.odG 0x1010 2)
  if m.pver ≠ 0 ∨ m.index ≠ 0 ∨ m.sub ≠ 0 ∨ m.type ≠ 0 ∨ m.ovl ≠ 0 ∨ m.offset ≠ 0 ∨ m.overlay = true ∨ m.len ≠ 4 then
    (s.dictViolation c 0x0002, { code := 0x0002 })
  else if v < hmin ∨ v < s.odG 0x1011 2 then (s, { code := 0x0008 })
  else
    match c with
    | .net a p =>
      if !s.hub.peers.contains (a, p) && decide (16 ≤ s.hub.peers.length) then (s, { code := 0x0709 })
      else
        let peers := if s.hub.peers.contains (a, p) then s.hub.peers else s.hub.peers ++ [(a, p)]
        ({ s with hub := { s.hub with peers := peers, versions := s.hub.versions.filter (fun e => e.1 != c) ++ [(c, v)] } },
          { code := 0, value := leBytes 2 v, total := 2 })
    | _ =>
      ({ s with hub := { s.hub with versions := s.hub.versions.filter (fun e => e.1 != c) ++ [(c, v)] } },
        { code := 0, value := leBytes 2 v, total := 2 })

/-- OP LOCK from the network (R290 with HOLDER 3). -/
def State.doLock (s : State) (c : Caller) (m : DictMsg) : State × Answer :=
  match c with
  | .net a p =>
    let mine := s.hub.lockHolder == 3 && s.hub.lockPeer == (a, p)
    if m.type ≠ 0x02 ∨ m.len ≠ 1 then (s, { code := 0x0701 })
    else if leNat m.value = 1 then
      (if s.hub.lockHolder = 0 ∨ mine = true then (s.grantLock 3 (a, p), { code := 0 }) else (s, { code := 0x0A03 }))
    else if leNat m.value = 2 then (if mine then (s.freeLock, { code := 0 }) else (s, { code := 0x0A03 }))
    else (s, { code := 0x0003 })
  | _ => (s, { code := 0x0001 })

/-! ### Serving a request (R18, R382, R386, R392) -/

/-- The opcode or format code of the command that a WRITE carries (step 1 of R18), or 0. -/
def State.carriedForm (s : State) (c : Caller) (m : DictMsg) (env : CmdEnv) : Nat :=
  match odFind m.index m.sub with
  | none => 0
  | some r =>
    let part := targetPart c m
    let code := (State.writeEntry c r m.sub part m.offset m.type m.value env s).2
    if isCommand r m.sub && !m.overlay && !s.absentFor c r part && isFormCode code then code else 0

/-- A request by its operation code: 1 NEGOTIATE, 2 READ, 3 WRITE, 4 LIST, 5 LOCK. -/
def State.runMsg (s : State) (c : Caller) (op : Nat) (m : DictMsg) (env : CmdEnv) : State × Answer :=
  let net := match c with
    | .net _ _ => true
    | _ => false
  if op = 0 ∨ 5 < op ∨ (op = 5 ∧ net = false) then (s, { code := 0x0001 })
  else if formBad m then (s.dictViolation c 0x0002, { code := 0x0002 })
  else if op = 1 then s.doNegotiate c m
  else if op = 5 ∧ (m.index ≠ 0 ∨ m.sub ≠ 0 ∨ m.ovl ≠ 0 ∨ m.offset ≠ 0 ∨ m.part ≠ 0xFF ∨ m.overlay = true) then (s, { code := 0x0002 })
  else if op ≠ 5 ∧ s.accessCode c m (op == 4) ≠ 0 then (s, { code := s.accessCode c m (op == 4) })
  else if op = 3 ∧ s.carriedForm c m env ≠ 0 then (s, { code := s.carriedForm c m env })
  else if s.versionOf c ≠ some m.pver then (s, { code := 0x0702 })
  else if op = 2 then s.doRead c m
  else if op = 3 then s.doWrite c m env
  else if op = 4 then (s, s.doList c m)
  else s.doLock c m

/-- Requests of a network peer in the present second of wafer time. -/
def State.rateOf (s : State) (a p : Nat) : Nat :=
  ((s.hub.rates.find? (fun e => e.1 == a && e.2.1 == p && e.2.2.1 == s.clkTime / oneSecond)).map (fun e => e.2.2.2)).getD 0

/-- One more request of a network peer. DESIGN CHOICE, log 19. -/
def State.countRate (s : State) (a p : Nat) : State :=
  let n := s.rateOf a p
  let l := s.hub.rates.filter (fun e => e.2.2.1 == s.clkTime / oneSecond && !(e.1 == a && e.2.1 == p))
  { s with hub := { s.hub with rates := l ++ [(a, p, s.clkTime / oneSecond, n + 1)] } }

/-- The response is kept for its source (R386): a mailbox, or a network peer. DESIGN CHOICE, log 17. -/
def State.keep (s : State) (c : Caller) (seq op : Nat) (m : DictMsg) : State :=
  let keeps := match c with
    | .net _ _ => s.isPeer c
    | _ => true
  if keeps then { s with hub := { s.hub with kept := s.hub.kept.filter (fun e => e.1 != c) ++ [(c, seq, op, m)] } } else s

/-- Response of a request, kept and sent, and what follows it. -/
def State.execMsg (s : State) (c : Caller) (op : Nat) (m : DictMsg) (env : CmdEnv) : State :=
  let z := s.runMsg c op m env
  let r := respond m z.2.code z.2.value z.2.total z.2.shadowed
  let s1 := (((z.1.odAdd 0x1100 5 1).keep c m.seq op r).answerMsg c op r)
  if op = 3 ∧ z.2.code = 0 ∧ m.overlay = false then s1.afterWrite m.index m.value env else s1

/-- A request of a caller is served: a repeated SEQ is answered with the kept response. DESIGN CHOICE, log 17. -/
def State.serveMsg (s : State) (c : Caller) (op : Nat) (m : DictMsg) (env : CmdEnv) : State :=
  if m.len ≠ m.value.length ∨ 4072 < m.value.length then
    match c with
    | .net _ _ => s.dictViolation c 0x0002
    | _ => (s.dictViolation c 0x0002).answerMsg c op (respond m 0x0002 [] 0 false)
  else
    match s.hub.kept.find? (fun e => e.1 == c && e.2.1 == m.seq) with
    | some e => s.answerMsg c e.2.2.1 e.2.2.2
    | none => s.execMsg c op m env

/-- A request reaches the server: not while the hub is away; a network peer's excess is discarded (R392).
DESIGN CHOICE, log 117. -/
def State.request (s : State) (c : Caller) (op : Nat) (m : DictMsg) (env : CmdEnv) : State :=
  if !s.mayCall c then s
  else
    match c with
    | .net a p => if 1000 ≤ s.rateOf a p then s.dictViolation c 0 else (s.countRate a p).serveMsg c op m env
    | _ => s.serveMsg c op m env

/-- Outcomes of a command that meets none. DESIGN CHOICE, log 122. -/
def quietEnv : CmdEnv := { start := quietStart, romKeyOk := true, imageOk := true, sig := .valid }

/-- NEGOTIATE (R384). -/
def execNegotiate (caller : Caller) (m : DictMsg) (s : State) : Res :=
  guardRes (callerOk caller) (s.request caller 1 m quietEnv)

/-- READ (R383). -/
def execRead (caller : Caller) (m : DictMsg) (s : State) : Res :=
  guardRes (callerOk caller) (s.request caller 2 m quietEnv)

/-- WRITE (R381). -/
def execWrite (caller : Caller) (m : DictMsg) (env : CmdEnv) (s : State) : Res :=
  guardRes (callerOk caller && startOk env.start) (s.request caller 3 m env)

/-- LIST (R383). -/
def execList (caller : Caller) (m : DictMsg) (s : State) : Res :=
  guardRes (callerOk caller) (s.request caller 4 m quietEnv)

/-- NETWORK_LOCK_ACQUIRE (R387): OP LOCK. -/
def execNetworkLockAcquire (caller : Caller) (m : DictMsg) (s : State) : Res :=
  guardRes (callerOk caller) (s.request caller 5 m quietEnv)

/-- NETWORK_LOCK_RELEASE (R387): OP LOCK. -/
def execNetworkLockRelease (caller : Caller) (m : DictMsg) (s : State) : Res :=
  guardRes (callerOk caller) (s.request caller 5 m quietEnv)

/-- NETWORK_PEER_EXPIRY (R385): a peer idle for 60 s is removed, with its version and kept response. -/
def execNetworkPeerExpiry (address udpPort : Nat) (s : State) : Res :=
  guardRes true
    (if s.hub.away || !s.hub.peers.contains (address, udpPort) then s
     else
       let s1 := s.dropCaller (.net address udpPort)
       { s1 with hub := { s1.hub with peers := s1.hub.peers.filter (fun e => e != (address, udpPort)) } })

/-! ### The mailbox (R289) -/

/-- A mailbox fault. -/
def State.mailboxFault (s : State) (port : Port) (fn code : Nat) : State := s.modFn port fn (fun f => { f with mbErr := code })

/-- A request in the mailbox reaches the server; one that comes while the hub restarts waits (R289). -/
def State.mailboxGo (s : State) (port : Port) (fn value : Nat) (env : CmdEnv) : State :=
  let f := s.fn port fn
  let len := value % 8192
  if !bit value 31 then s.modFn port fn (fun f => { f with mbLen := len })
  else if f.mbBusy then s.mailboxFault port fn 0x0A07
  else if len = 0 ∨ 4096 < len then (s.modFn port fn (fun f => { f with mbLen := len, mbDone := false })).mailboxFault port fn 0x0002
  else
    let s1 := s.modFn port fn (fun f => { f with mbLen := len, mbBusy := true, mbDone := false, mbErr := 0 })
    let b := mread 0 f.mbReq 0 len
    if !s1.serving then s1
    else if len < 24 then
      let c := fnCaller port fn
      (s1.dictViolation c 0x0002).answerMsg c (fieldN b 2 1) (respond (msgOf (fitB b 24)) 0x0002 [] 0 false)
    else s1.request (fnCaller port fn) (fieldN b 2 1) (msgOf b) env

/-- MAILBOX_GO (R289): a write of MB_CTRL; dropped on an unbound VF. -/
def execMailboxGo (port : Port) (fn : Nat) (value : Word) (env : CmdEnv) (s : State) : Res :=
  guardRes (fnOk fn && startOk env.start)
    (if fn ≠ 0 ∧ s.bound port fn = false then s.violate port fn 0x0A04 value.toNat 0x54
     else s.mailboxGo port fn value.toNat env)

/-! ### Register writes (R9, R284) -/

/-- A write of a BAR0 word of a function (Table 11.3): reserved offsets and read-only registers ignore it. -/
def State.barWrite (s : State) (port : Port) (fn off v : Nat) : State :=
  if fn ≠ 0 ∧ s.bound port fn = false then s.violate port fn 0x0A04 v off
  else if off % 4 ≠ 0 then s.violate port fn 0x0A09 v off
  else if 0x1000 ≤ off ∧ off < 0x2000 then s.modFn port fn (fun f => { f with mbReq := mwrite 0 f.mbReq (off - 0x1000) (leBytes 4 v) })
  else if 0x3000 ≤ off ∧ off < 0x3800 then
    s.msixWrite port fn (off - 0x3000) (BitVec.ofNat 32 v)
  else if off = 0x54 then s.mailboxGo port fn v quietEnv
  else if fn = 0 then (if off = 0x100 then s.dclWrite port v else s)
  else if off = 0x04 then s.negotiateVer port fn v
  else if off = 0x08 then s.modFn port fn (fun f => hqClear f v)
  else if off = 0x0C then s.ringCtrl port fn v
  else if off = 0x38 then s.sqDoorbell port fn v
  else if off = 0x3C then s.cqDoorbell port fn v
  else if 0x10 ≤ off ∧ off < 0x38 then s.ringReg port fn off v
  else s

/-- An aligned 64-bit write of the mailbox request buffer; anywhere else a 64-bit access is dropped (R284, R292). -/
def State.barWrite64 (s : State) (port : Port) (fn off low high : Nat) : State :=
  if fn ≠ 0 ∧ s.bound port fn = false then s.violate port fn 0x0A04 low off
  else if off % 8 ≠ 0 ∨ off < 0x1000 ∨ 0x3000 ≤ off then s.violate port fn 0x0A09 low off
  else if off < 0x2000 then
    s.modFn port fn (fun f => { f with mbReq := mwrite 0 f.mbReq (off - 0x1000) (leBytes 4 low ++ leBytes 4 high) })
  else s

/-- A write through the management path of a tile: CC_CTRL's commands, or any other register. -/
def State.mgmtWrite (s : State) (t : TileId) (off : Nat) (v : Word) : State :=
  if off = 0x008 then (s.ctrlWrite t v.toNat).1 else s.writeTileReg t off v true

/-- REGISTER_WRITE (R9): by a tile's program, through its management path, or to BAR0 of a function. -/
def execRegisterWrite (target : RegTarget) (value : Word) (s : State) : Res :=
  guardRes (targetOk target)
    (match target with
     | .core t off => s.writeTileReg t off value false
     | .mgmt t off => s.mgmtWrite t off value
     | .bar port fn off => s.barWrite port fn off value.toNat
     | .bar64 port fn off high => s.barWrite64 port fn off value.toNat high.toNat)

end Sys2Proof.Machine
end

