-- ==== Sys2Proof/Machine/Dispatch.lean ====
section
/-!
DEFINITION. The meaning of every command: one arm per constructor of `Instr`.
-/

namespace Sys2Proof.Machine

def exec (i : Instr) (s : State) : Host.Outcome State Fault Refusal :=
  match i with
  | .coldPowerOn env => Sys2Proof.Machine.execColdPowerOn env s
  | .refclkReturn env => Sys2Proof.Machine.execRefclkReturn env s
  | .refclkLoss => Sys2Proof.Machine.execRefclkLoss s
  | .pllLossOfLock env => Sys2Proof.Machine.execPllLossOfLock env s
  | .modRstNAssert => Sys2Proof.Machine.execModRstNAssert s
  | .modRstNRelease env => Sys2Proof.Machine.execModRstNRelease env s
  | .deviceWarmReset caller fields env => Sys2Proof.Machine.execDeviceWarmReset caller fields env s
  | .sagStart mv => Sys2Proof.Machine.execSagStart mv s
  | .sagEnd field vcoreMin => Sys2Proof.Machine.execSagEnd field vcoreMin s
  | .stageOneDropout vstbyHolds field vcoreMin => Sys2Proof.Machine.execStageOneDropout vstbyHolds field vcoreMin s
  | .overvoltageLockout => Sys2Proof.Machine.execOvervoltageLockout s
  | .overvoltageRecovery env => Sys2Proof.Machine.execOvervoltageRecovery env s
  | .currentStepEstimate dMv dDeciAmp => Sys2Proof.Machine.execCurrentStepEstimate dMv dDeciAmp s
  | .fuseTrip field => Sys2Proof.Machine.execFuseTrip field s
  | .phaseFailure field rail phase kind => Sys2Proof.Machine.execPhaseFailure field rail phase kind s
  | .fieldSwitchOn field env => Sys2Proof.Machine.execFieldSwitchOn field env s
  | .fieldReady field arrays linksPassed => Sys2Proof.Machine.execFieldReady field arrays linksPassed s
  | .planeOvercurrent plane => Sys2Proof.Machine.execPlaneOvercurrent plane s
  | .grantPeriod env => Sys2Proof.Machine.execGrantPeriod env s
  | .fieldGrantTick field chargeW => Sys2Proof.Machine.execFieldGrantTick field chargeW s
  | .clearMinimumRecords caller => Sys2Proof.Machine.execClearMinimumRecords caller s
  | .stileSourceFailure field => Sys2Proof.Machine.execStileSourceFailure field s
  | .fieldTemperatureSample field sample => Sys2Proof.Machine.execFieldTemperatureSample field sample s
  | .throttleStepDown field => Sys2Proof.Machine.execThrottleStepDown field s
  | .throttleStepUp field => Sys2Proof.Machine.execThrottleStepUp field s
  | .urgentRotation field rows => Sys2Proof.Machine.execUrgentRotation field rows s
  | .evacuation field => Sys2Proof.Machine.execEvacuation field s
  | .offForHeat field => Sys2Proof.Machine.execOffForHeat field s
  | .criticalLimit field => Sys2Proof.Machine.execCriticalLimit field s
  | .heatReturn field => Sys2Proof.Machine.execHeatReturn field s
  | .releaseFieldHeldOff caller field value => Sys2Proof.Machine.execReleaseFieldHeldOff caller field value s
  | .coolantReadingLoss => Sys2Proof.Machine.execCoolantReadingLoss s
  | .outletLimitStep => Sys2Proof.Machine.execOutletLimitStep s
  | .i3cRescan coolant => Sys2Proof.Machine.execI3cRescan coolant s
  | .thermalCycleSave => Sys2Proof.Machine.execThermalCycleSave s
  | .embersWarming field => Sys2Proof.Machine.execEmbersWarming field s
  | .rotationInterval field row pos hot spare => Sys2Proof.Machine.execRotationInterval field row pos hot spare s
  | .rotationCopyDone field row spareOk => Sys2Proof.Machine.execRotationCopyDone field row spareOk s
  | .rotationSwap field row => Sys2Proof.Machine.execRotationSwap field row s
  | .rotationCopyTimeout field row => Sys2Proof.Machine.execRotationCopyTimeout field row s
  | .rotationSwapTimeout field row => Sys2Proof.Machine.execRotationSwapTimeout field row s
  | .tokenBoundary t => Sys2Proof.Machine.execTokenBoundary t s
  | .segmentInputWord t seg idx word srcX srcY => Sys2Proof.Machine.execSegmentInputWord t seg idx word srcX srcY s
  | .passStart t a => Sys2Proof.Machine.execPassStart t a s
  | .postStage t a => Sys2Proof.Machine.execPostStage t a s
  | .lookoutRereadDone t a => Sys2Proof.Machine.execLookoutRereadDone t a s
  | .writeBurst t hdr rows srcX srcY => Sys2Proof.Machine.execWriteBurst t hdr rows srcX srcY s
  | .heldBurstRelease t a => Sys2Proof.Machine.execHeldBurstRelease t a s
  | .rowWriteVerify t a outcome => Sys2Proof.Machine.execRowWriteVerify t a outcome s
  | .columnSumRecompute t a => Sys2Proof.Machine.execColumnSumRecompute t a s
  | .readRequest t hdr srcX srcY => Sys2Proof.Machine.execReadRequest t hdr srcX srcY s
  | .segmentEnable t seg value => Sys2Proof.Machine.execSegmentEnable t seg value s
  | .segmentDisable t seg value => Sys2Proof.Machine.execSegmentDisable t seg value s
  | .segmentConfigWrite t seg offset value => Sys2Proof.Machine.execSegmentConfigWrite t seg offset value s
  | .channelTableWrite t n entry => Sys2Proof.Machine.execChannelTableWrite t n entry s
  | .calibrationDue t a => Sys2Proof.Machine.execCalibrationDue t a s
  | .calibrationStart t arrays => Sys2Proof.Machine.execCalibrationStart t arrays s
  | .calibrationCommit t a measured => Sys2Proof.Machine.execCalibrationCommit t a measured s
  | .calibrationLate t a => Sys2Proof.Machine.execCalibrationLate t a s
  | .userCalibrationSave => Sys2Proof.Machine.execUserCalibrationSave s
  | .saveUserCalibrationNow caller value => Sys2Proof.Machine.execSaveUserCalibrationNow caller value s
  | .refreshDue t a => Sys2Proof.Machine.execRefreshDue t a s
  | .refreshRow t a verified => Sys2Proof.Machine.execRefreshRow t a verified s
  | .refreshForced t a => Sys2Proof.Machine.execRefreshForced t a s
  | .rejuvenation t a row outcome => Sys2Proof.Machine.execRejuvenation t a row outcome s
  | .exactArrayRead t a first second => Sys2Proof.Machine.execExactArrayRead t a first second s
  | .exactStream t seg => Sys2Proof.Machine.execExactStream t seg s
  | .tensorOperation t => Sys2Proof.Machine.execTensorOperation t s
  | .heldLoad t => Sys2Proof.Machine.execHeldLoad t s
  | .tensorDrain t => Sys2Proof.Machine.execTensorDrain t s
  | .scratchpadAccess t acc => Sys2Proof.Machine.execScratchpadAccess t acc s
  | .remoteWrite t f => Sys2Proof.Machine.execRemoteWrite t f s
  | .remoteRead t f => Sys2Proof.Machine.execRemoteRead t f s
  | .fetchAndAdd t f => Sys2Proof.Machine.execFetchAndAdd t f s
  | .compareAndSwap32 t f => Sys2Proof.Machine.execCompareAndSwap32 t f s
  | .compareAndSwap64 t f => Sys2Proof.Machine.execCompareAndSwap64 t f s
  | .vectorQueueWord t idx word => Sys2Proof.Machine.execVectorQueueWord t idx word s
  | .tailWrite t ch value => Sys2Proof.Machine.execTailWrite t ch value s
  | .channelEnable t ch => Sys2Proof.Machine.execChannelEnable t ch s
  | .channelDisable t ch => Sys2Proof.Machine.execChannelDisable t ch s
  | .moverResume t ch => Sys2Proof.Machine.execMoverResume t ch s
  | .paceWrite t ch value => Sys2Proof.Machine.execPaceWrite t ch value s
  | .pacingTimeout t ch => Sys2Proof.Machine.execPacingTimeout t ch s
  | .descriptorFetch t ch => Sys2Proof.Machine.execDescriptorFetch t ch s
  | .copy t ch count => Sys2Proof.Machine.execCopy t ch count s
  | .transposedCopy t ch count => Sys2Proof.Machine.execTransposedCopy t ch count s
  | .fill t ch count => Sys2Proof.Machine.execFill t ch count s
  | .marker t ch count => Sys2Proof.Machine.execMarker t ch count s
  | .descriptorWriteback t ch => Sys2Proof.Machine.execDescriptorWriteback t ch s
  | .stackAccess part addr len write found => Sys2Proof.Machine.execStackAccess part addr len write found s
  | .stackFailure stack => Sys2Proof.Machine.execStackFailure stack s
  | .patrolScrub found => Sys2Proof.Machine.execPatrolScrub found s
  | .messageInjection t m => Sys2Proof.Machine.execMessageInjection t m s
  | .flitForward t port vn link => Sys2Proof.Machine.execFlitForward t port vn link s
  | .flitEjection t port vn => Sys2Proof.Machine.execFlitEjection t port vn s
  | .reductionCombine t route id window offset => Sys2Proof.Machine.execReductionCombine t route id window offset s
  | .reductionTimeout t route id window offset => Sys2Proof.Machine.execReductionTimeout t route id window offset s
  | .releasedKeyExpiry t route id window offset => Sys2Proof.Machine.execReleasedKeyExpiry t route id window offset s
  | .readDataReceipt t f => Sys2Proof.Machine.execReadDataReceipt t f s
  | .acknowledgementReceipt t f => Sys2Proof.Machine.execAcknowledgementReceipt t f s
  | .refusalReceipt t f => Sys2Proof.Machine.execRefusalReceipt t f s
  | .responseTimeout t id => Sys2Proof.Machine.execResponseTimeout t id s
  | .rimIngress side f => Sys2Proof.Machine.execRimIngress side f s
  | .detourDrainComplete => Sys2Proof.Machine.execDetourDrainComplete s
  | .detourDrainLimitExpiry => Sys2Proof.Machine.execDetourDrainLimitExpiry s
  | .add t d a b => Sys2Proof.Machine.execAdd t d a b s
  | .sub t d a b => Sys2Proof.Machine.execSub t d a b s
  | .and t d a b => Sys2Proof.Machine.execAnd t d a b s
  | .or t d a b => Sys2Proof.Machine.execOr t d a b s
  | .xor t d a b => Sys2Proof.Machine.execXor t d a b s
  | .sll t d a b => Sys2Proof.Machine.execSll t d a b s
  | .srl t d a b => Sys2Proof.Machine.execSrl t d a b s
  | .sra t d a b => Sys2Proof.Machine.execSra t d a b s
  | .slt t d a b => Sys2Proof.Machine.execSlt t d a b s
  | .sltu t d a b => Sys2Proof.Machine.execSltu t d a b s
  | .addi t d a imm => Sys2Proof.Machine.execAddi t d a imm s
  | .andi t d a imm => Sys2Proof.Machine.execAndi t d a imm s
  | .ori t d a imm => Sys2Proof.Machine.execOri t d a imm s
  | .xori t d a imm => Sys2Proof.Machine.execXori t d a imm s
  | .slti t d a imm => Sys2Proof.Machine.execSlti t d a imm s
  | .shiftImmediate t d a imm => Sys2Proof.Machine.execShiftImmediate t d a imm s
  | .lui t d imm => Sys2Proof.Machine.execLui t d imm s
  | .mul t d a b => Sys2Proof.Machine.execMul t d a b s
  | .mulh t d a b => Sys2Proof.Machine.execMulh t d a b s
  | .mulhu t d a b => Sys2Proof.Machine.execMulhu t d a b s
  | .lb t d a imm => Sys2Proof.Machine.execLb t d a imm s
  | .lbu t d a imm => Sys2Proof.Machine.execLbu t d a imm s
  | .lh t d a imm => Sys2Proof.Machine.execLh t d a imm s
  | .lhu t d a imm => Sys2Proof.Machine.execLhu t d a imm s
  | .lw t d a imm => Sys2Proof.Machine.execLw t d a imm s
  | .sb t d a imm => Sys2Proof.Machine.execSb t d a imm s
  | .sh t d a imm => Sys2Proof.Machine.execSh t d a imm s
  | .sw t d a imm => Sys2Proof.Machine.execSw t d a imm s
  | .beq t a b off => Sys2Proof.Machine.execBeq t a b off s
  | .bne t a b off => Sys2Proof.Machine.execBne t a b off s
  | .blt t a b off => Sys2Proof.Machine.execBlt t a b off s
  | .bge t a b off => Sys2Proof.Machine.execBge t a b off s
  | .bltu t a b off => Sys2Proof.Machine.execBltu t a b off s
  | .bgeu t a b off => Sys2Proof.Machine.execBgeu t a b off s
  | .j t off => Sys2Proof.Machine.execJ t off s
  | .jal t off => Sys2Proof.Machine.execJal t off s
  | .jr t a => Sys2Proof.Machine.execJr t a s
  | .jalr t d a => Sys2Proof.Machine.execJalr t d a s
  | .tsub t a => Sys2Proof.Machine.execTsub t a s
  | .vld t d a => Sys2Proof.Machine.execVld t d a s
  | .vst t d a => Sys2Proof.Machine.execVst t d a s
  | .vtst t d a b => Sys2Proof.Machine.execVtst t d a b s
  | .vopArithmetic t op fmt ops => Sys2Proof.Machine.execVopArithmetic t op fmt ops s
  | .vopCompareAndSelect t op fmt ops => Sys2Proof.Machine.execVopCompareAndSelect t op fmt ops s
  | .vopConversion t op rcp zp ops => Sys2Proof.Machine.execVopConversion t op rcp zp ops s
  | .vopReciprocal t sqrt fmt ops => Sys2Proof.Machine.execVopReciprocal t sqrt fmt ops s
  | .vopExp t base2 fmt ops => Sys2Proof.Machine.execVopExp t base2 fmt ops s
  | .sigmoid t fmt ops => Sys2Proof.Machine.execSigmoid t fmt ops s
  | .silu t fmt ops => Sys2Proof.Machine.execSilu t fmt ops s
  | .softmaxStep t ops => Sys2Proof.Machine.execSoftmaxStep t ops s
  | .vectorReduction t op first ops => Sys2Proof.Machine.execVectorReduction t op first ops s
  | .top64Select t first base ops => Sys2Proof.Machine.execTop64Select t first base ops s
  | .draw t d args => Sys2Proof.Machine.execDraw t d args s
  | .send t a b => Sys2Proof.Machine.execSend t a b s
  | .recv t d a => Sys2Proof.Machine.execRecv t d a s
  | .rld t d b => Sys2Proof.Machine.execRld t d b s
  | .rst t d b => Sys2Proof.Machine.execRst t d b s
  | .ramoFetchAndAdd t d a b => Sys2Proof.Machine.execRamoFetchAndAdd t d a b s
  | .ramoCompareAndSwap32 t d a b => Sys2Proof.Machine.execRamoCompareAndSwap32 t d a b s
  | .ramoCompareAndSwap64 t d a b => Sys2Proof.Machine.execRamoCompareAndSwap64 t d a b s
  | .wait t d a => Sys2Proof.Machine.execWait t d a s
  | .fence t => Sys2Proof.Machine.execFence t s
  | .nop t => Sys2Proof.Machine.execNop t s
  | .halt t => Sys2Proof.Machine.execHalt t s
  | .trap t => Sys2Proof.Machine.execTrap t s
  | .brk t => Sys2Proof.Machine.execBrk t s
  | .messageReceipt t msg srcX srcY => Sys2Proof.Machine.execMessageReceipt t msg srcX srcY s
  | .messageQueueTimeout t => Sys2Proof.Machine.execMessageQueueTimeout t s
  | .watchdogExpiry t => Sys2Proof.Machine.execWatchdogExpiry t s
  | .wdogWrite t value => Sys2Proof.Machine.execWdogWrite t value s
  | .timerExpiry t => Sys2Proof.Machine.execTimerExpiry t s
  | .haltRequest t partitionScope => Sys2Proof.Machine.execHaltRequest t partitionScope s
  | .resume t partitionScope => Sys2Proof.Machine.execResume t partitionScope s
  | .step t => Sys2Proof.Machine.execStep t s
  | .haltPartition caller part value => Sys2Proof.Machine.execHaltPartition caller part value s
  | .resumePartition caller part value => Sys2Proof.Machine.execResumePartition caller part value s
  | .drainLimitExpiry part => Sys2Proof.Machine.execDrainLimitExpiry part s
  | .traceTimeRecord t => Sys2Proof.Machine.execTraceTimeRecord t s
  | .kvWalk part req stage => Sys2Proof.Machine.execKvWalk part req stage s
  | .attentionToken t req position maskLo cyclesWaited => Sys2Proof.Machine.execAttentionToken t req position maskLo cyclesWaited s
  | .attentionResume t req head queries newKey newValue => Sys2Proof.Machine.execAttentionResume t req head queries newKey newValue s
  | .attentionMerge t req head tree out => Sys2Proof.Machine.execAttentionMerge t req head tree out s
  | .prefixInsert part req group => Sys2Proof.Machine.execPrefixInsert part req group s
  | .makePrefixTreeUnreachable caller part value => Sys2Proof.Machine.execMakePrefixTreeUnreachable caller part value s
  | .requestFree part req => Sys2Proof.Machine.execRequestFree part req s
  | .submit part desc => Sys2Proof.Machine.execSubmit part desc s
  | .promptReadComplete part req ids failCode => Sys2Proof.Machine.execPromptReadComplete part req ids failCode s
  | .cancel part desc => Sys2Proof.Machine.execCancel part desc s
  | .stepBoundary part tokens => Sys2Proof.Machine.execStepBoundary part tokens s
  | .stage caller part cmd => Sys2Proof.Machine.execStage caller part cmd s
  | .stageDataArrival part offset bytes => Sys2Proof.Machine.execStageDataArrival part offset bytes s
  | .install caller part cmd => Sys2Proof.Machine.execInstall caller part cmd s
  | .installResume part rowsFailed => Sys2Proof.Machine.execInstallResume part rowsFailed s
  | .installStreamDone part rowsFailed => Sys2Proof.Machine.execInstallStreamDone part rowsFailed s
  | .discard caller part cmd => Sys2Proof.Machine.execDiscard caller part cmd s
  | .abort caller part cmd => Sys2Proof.Machine.execAbort caller part cmd s
  | .hqVerWrite port fn value => Sys2Proof.Machine.execHqVerWrite port fn value s
  | .ringEnable port fn value => Sys2Proof.Machine.execRingEnable port fn value s
  | .sqTailWrite port fn value => Sys2Proof.Machine.execSqTailWrite port fn value s
  | .cqHeadWrite port fn value => Sys2Proof.Machine.execCqHeadWrite port fn value s
  | .submissionFetch port fn => Sys2Proof.Machine.execSubmissionFetch port fn s
  | .submissionFetchTimeout port fn => Sys2Proof.Machine.execSubmissionFetchTimeout port fn s
  | .interruptCoalesceExpiry port fn => Sys2Proof.Machine.execInterruptCoalesceExpiry port fn s
  | .hostReadCompletion port use result => Sys2Proof.Machine.execHostReadCompletion port use result s
  | .hostReadTimeout port use => Sys2Proof.Machine.execHostReadTimeout port use s
  | .hostReadRetry port use => Sys2Proof.Machine.execHostReadRetry port use s
  | .lockAcquire port => Sys2Proof.Machine.execLockAcquire port s
  | .lockRelease port => Sys2Proof.Machine.execLockRelease port s
  | .leaseWarning => Sys2Proof.Machine.execLeaseWarning s
  | .leaseExpiry => Sys2Proof.Machine.execLeaseExpiry s
  | .perst port => Sys2Proof.Machine.execPerst port s
  | .functionLevelReset port fn => Sys2Proof.Machine.execFunctionLevelReset port fn s
  | .d3hotEntry port fn => Sys2Proof.Machine.execD3hotEntry port fn s
  | .d0Entry port fn => Sys2Proof.Machine.execD0Entry port fn s
  | .busMasterDisable port fn set => Sys2Proof.Machine.execBusMasterDisable port fn set s
  | .barAccessViolation port fn kind offset value => Sys2Proof.Machine.execBarAccessViolation port fn kind offset value s
  | .ideStreamFailure port fn => Sys2Proof.Machine.execIdeStreamFailure port fn s
  | .query port fn => Sys2Proof.Machine.execQuery port fn s
  | .keyProg port fn keySet direction substream key => Sys2Proof.Machine.execKeyProg port fn keySet direction substream key s
  | .kSetGo port fn keySet => Sys2Proof.Machine.execKSetGo port fn keySet s
  | .kSetStop port fn keySet => Sys2Proof.Machine.execKSetStop port fn keySet s
  | .hello p => Sys2Proof.Machine.execHello p s
  | .keepalive p => Sys2Proof.Machine.execKeepalive p s
  | .join p => Sys2Proof.Machine.execJoin p s
  | .openPkt p => Sys2Proof.Machine.execOpenPkt p s
  | .data p => Sys2Proof.Machine.execData p s
  | .ack p => Sys2Proof.Machine.execAck p s
  | .nak p => Sys2Proof.Machine.execNak p s
  | .close p => Sys2Proof.Machine.execClose p s
  | .keepaliveTimer dev => Sys2Proof.Machine.execKeepaliveTimer dev s
  | .ackTimer part => Sys2Proof.Machine.execAckTimer part s
  | .retransmissionTimeout part psn => Sys2Proof.Machine.execRetransmissionTimeout part psn s
  | .joinTimer part => Sys2Proof.Machine.execJoinTimer part s
  | .joinWaitExpiry part => Sys2Proof.Machine.execJoinWaitExpiry part s
  | .peerSilence dev => Sys2Proof.Machine.execPeerSilence dev s
  | .peerIdleExpiry dev => Sys2Proof.Machine.execPeerIdleExpiry dev s
  | .lldpTimer link => Sys2Proof.Machine.execLldpTimer link s
  | .ethernetLinkChange link up => Sys2Proof.Machine.execEthernetLinkChange link up s
  | .neighborSolicitation link target => Sys2Proof.Machine.execNeighborSolicitation link target s
  | .echoRequest link target data => Sys2Proof.Machine.execEchoRequest link target data s
  | .foreignFrame link => Sys2Proof.Machine.execForeignFrame link s
  | .fabricSend caller part cmd => Sys2Proof.Machine.execFabricSend caller part cmd s
  | .fabricAbort caller part cmd => Sys2Proof.Machine.execFabricAbort caller part cmd s
  | .form caller cmd => Sys2Proof.Machine.execForm caller cmd s
  | .reset caller cmd => Sys2Proof.Machine.execReset caller cmd s
  | .dissolve caller cmd => Sys2Proof.Machine.execDissolve caller cmd s
  | .scrubComplete part failedArrays => Sys2Proof.Machine.execScrubComplete part failedArrays s
  | .getVersion port fn => Sys2Proof.Machine.execGetVersion port fn s
  | .getCapabilities port fn => Sys2Proof.Machine.execGetCapabilities port fn s
  | .negotiateAlgorithms port fn supported => Sys2Proof.Machine.execNegotiateAlgorithms port fn supported s
  | .getDigests port fn => Sys2Proof.Machine.execGetDigests port fn s
  | .getCertificate port fn slot offset length => Sys2Proof.Machine.execGetCertificate port fn slot offset length s
  | .challenge port fn slot nonce => Sys2Proof.Machine.execChallenge port fn slot nonce s
  | .getMeasurements port fn indexes nonce => Sys2Proof.Machine.execGetMeasurements port fn indexes nonce s
  | .keyExchange port fn mutualAuth => Sys2Proof.Machine.execKeyExchange port fn mutualAuth s
  | .finish port fn spki sig => Sys2Proof.Machine.execFinish port fn spki sig s
  | .heartbeat port fn => Sys2Proof.Machine.execHeartbeat port fn s
  | .keyUpdate port fn => Sys2Proof.Machine.execKeyUpdate port fn s
  | .endSession port fn => Sys2Proof.Machine.execEndSession port fn s
  | .heartbeatLapse port fn => Sys2Proof.Machine.execHeartbeatLapse port fn s
  | .claim port fn inSession msg => Sys2Proof.Machine.execClaim port fn inSession msg s
  | .setKey port fn inSession msg => Sys2Proof.Machine.execSetKey port fn inSession msg s
  | .clearKey port fn inSession msg => Sys2Proof.Machine.execClearKey port fn inSession msg s
  | .seal port fn inSession msg => Sys2Proof.Machine.execSeal port fn inSession msg s
  | .unseal port fn inSession msg => Sys2Proof.Machine.execUnseal port fn inSession msg s
  | .release port fn inSession msg => Sys2Proof.Machine.execRelease port fn inSession msg s
  | .managementRestart cause romKeyOk imageOk => Sys2Proof.Machine.execManagementRestart cause romKeyOk imageOk s
  | .managementRestartEnd => Sys2Proof.Machine.execManagementRestartEnd s
  | .hubWatchdogExpiry romKeyOk imageOk => Sys2Proof.Machine.execHubWatchdogExpiry romKeyOk imageOk s
  | .hubSramError correctable romKeyOk imageOk => Sys2Proof.Machine.execHubSramError correctable romKeyOk imageOk s
  | .restartTheHub caller value romKeyOk imageOk => Sys2Proof.Machine.execRestartTheHub caller value romKeyOk imageOk s
  | .updateBegin caller cmd => Sys2Proof.Machine.execUpdateBegin caller cmd s
  | .updateImageChunk caller offset bytes => Sys2Proof.Machine.execUpdateImageChunk caller offset bytes s
  | .updateCommit caller cmd sig => Sys2Proof.Machine.execUpdateCommit caller cmd sig s
  | .updateAbort caller cmd => Sys2Proof.Machine.execUpdateAbort caller cmd s
  | .flashImageWritten ok => Sys2Proof.Machine.execFlashImageWritten ok s
  | .negotiate caller m => Sys2Proof.Machine.execNegotiate caller m s
  | .read caller m => Sys2Proof.Machine.execRead caller m s
  | .write caller m env => Sys2Proof.Machine.execWrite caller m env s
  | .list caller m => Sys2Proof.Machine.execList caller m s
  | .networkLockAcquire caller m => Sys2Proof.Machine.execNetworkLockAcquire caller m s
  | .networkLockRelease caller m => Sys2Proof.Machine.execNetworkLockRelease caller m s
  | .networkPeerExpiry address udpPort => Sys2Proof.Machine.execNetworkPeerExpiry address udpPort s
  | .restoreFactory caller value => Sys2Proof.Machine.execRestoreFactory caller value s
  | .logFlashWrite seq => Sys2Proof.Machine.execLogFlashWrite seq s
  | .fieldCycle caller fields => Sys2Proof.Machine.execFieldCycle caller fields s
  | .fieldOff caller fields => Sys2Proof.Machine.execFieldOff caller fields s
  | .fieldOn caller fields => Sys2Proof.Machine.execFieldOn caller fields s
  | .standbyEnter caller fields => Sys2Proof.Machine.execStandbyEnter caller fields s
  | .standbyExit caller fields env => Sys2Proof.Machine.execStandbyExit caller fields env s
  | .queuedActivityStart env => Sys2Proof.Machine.execQueuedActivityStart env s
  | .queueWaitExpiry place => Sys2Proof.Machine.execQueueWaitExpiry place s
  | .availabilityCount excluded => Sys2Proof.Machine.execAvailabilityCount excluded s
  | .registerWrite target value => Sys2Proof.Machine.execRegisterWrite target value s
  | .stageOneTurnOn env => Sys2Proof.Machine.execStageOneTurnOn env s
  | .inputSample mv deciAmp => Sys2Proof.Machine.execInputSample mv deciAmp s
  | .fieldBranchSample field branchMv deciAmp vcoreMv planeMv => Sys2Proof.Machine.execFieldBranchSample field branchMv deciAmp vcoreMv planeMv s
  | .hubSensorRead stackTemps hubDie coolant => Sys2Proof.Machine.execHubSensorRead stackTemps hubDie coolant s
  | .poweredHourCount => Sys2Proof.Machine.execPoweredHourCount s
  | .illegalInstruction t fn => Sys2Proof.Machine.execIllegalInstruction t fn s
  | .mailboxGo port fn value env => Sys2Proof.Machine.execMailboxGo port fn value env s
  | .pcieLinkUp port flitMode rate width => Sys2Proof.Machine.execPcieLinkUp port flitMode rate width s
  | .configurationRequest port fn offset => Sys2Proof.Machine.execConfigurationRequest port fn offset s

end Sys2Proof.Machine
end

