-- ==== Sys2Proof/Machine/Step.lean ====
section
/-!
DEFINITION. One step of the block: the command at the front of the queue, or the idle tick.
-/

namespace Sys2Proof.Machine

/-- Take the command at the front of the queue and run it with the rest of the queue; on an empty queue, one idle
tick. DESIGN CHOICE, log 1, 2. -/
def step (s : State) : Host.Outcome State Fault Refusal :=
  match s.pending with
  | [] => .next (idleTick s)
  | c :: r => exec c { s with pending := r }

/-- The state with the command that a table word spells put at the front of the queue; unchanged where the word spells
none. DESIGN CHOICE, log 5. -/
def State.withFetchWord (s : State) (nbits w : Nat) : State :=
  match decodeTableWord nbits w with
  | none => s
  | some c => { s with pending := c :: s.pending }

end Sys2Proof.Machine
end

