-- ==== Sys2Proof/Machine/Canon.lean ====
section
/-!
DEFINITION. The invariant of the block: every table of the state in canonical form, the event log within its two rings,
wafer time within 64 bits.
-/

namespace Sys2Proof.Machine

/-- The tables of the state are in canonical form, the two rings of the event log hold no more than R376 gives them,
and wafer time fits 64 bits. -/
structure Canon (s : State) : Prop where
  tiles : SMap.wf {} s.tiles
  routers : SMap.wf {} s.routers
  fields : SMap.wf {} s.fields
  parts : SMap.wf {} s.parts
  fns : SMap.wf {} s.fns
  mem : SMap.wf 0 s.stk.mem
  od : SMap.rising s.od
  blob : SMap.rising s.odBlob
  ram : s.hub.ramLog.length ≤ 8192
  flash : s.hub.flashLog.length ≤ 131072
  time : s.clkTime < 2 ^ 64

end Sys2Proof.Machine
end

