-- ==== Sys2Proof/Safety.lean ====
section
/-!
DEFINITION. What counts as a safe step, and the terms in which statements speak of commands: a command answers a next
state with a property, a core issues its next instruction, and what a command leaves as it was.
-/

namespace Sys2Proof.Machine

/-- A step of the block is safe at a state: no fault and no refusal. -/
def SafeStep (s : State) : Prop := ∃ t, step s = .next t

/-- A command answers a next state of which something holds. -/
def Answers (c : Instr) (s : State) (P : State → Prop) : Prop := ∃ u, exec c s = .next u ∧ P u

/-- A control core issues the instruction it meets (R170, R171, R173, R197, R198): its program is loaded and runs, no
response is outstanding, its PC lies in the instruction SRAM, no breakpoint stops it there, and no halt waits. -/
def Issues (s : State) (t : TileId) : Prop :=
  tileOk t = true ∧ mayIssue (s.tile t).cc false = true ∧ (s.tile t).cc.pc.toNat < 0x10000 ∧ s.breakAt t = none ∧
    (s.tile t).cc.haltDue = 0

/-- Register g_d of a core holds a value, 0 for g0, and every other general register is as before (R170). -/
def Wrote (s u : State) (t : TileId) (d : Fin 32) (v : Word) : Prop :=
  u.gr t d = (if d = 0 then 0 else v) ∧ ∀ n, n ≠ d → u.gr t n = s.gr t n

/-- Of the whole block only one core's registers, PC, performance counters and breakpoint pass have changed. -/
def OnlyRegs (s u : State) (t : TileId) (pc : Word) : Prop :=
  u = s.setTile t { s.tile t with cc :=
    { (s.tile t).cc with regs := (u.tile t).cc.regs, pc := pc, pmc := (u.tile t).cc.pmc, passBp := false,
                         state := .running, wait := .none } }

/-- An instruction retires: it writes g_d, goes on at a PC, and changes nothing else. -/
def Retires (c : Instr) (s : State) (t : TileId) (d : Fin 32) (v pc : Word) : Prop :=
  Answers c s (fun u => Wrote s u t d v ∧ OnlyRegs s u t pc)

/-- An instruction stops its core with a fault (R181): the core is stopped, its PC and general registers are as they
were, and the latched fault record (Table 7.8) has AGENT 0, the status, FN, address and cause given, and the PC. -/
def StopsCore (c : Instr) (s : State) (t : TileId) (status fn addr cause : Nat) : Prop :=
  Answers c s (fun u => (u.tile t).cc.state = .stoppedFault ∧ (u.tile t).cc.fault = true ∧
    (u.tile t).cc.pc = (s.tile t).cc.pc ∧ (u.tile t).cc.regs = (s.tile t).cc.regs ∧
    (u.tile t).cc.faultRec = faultBytes s t { status := status, agent := 0, detail := fn % 256, address := addr,
                                              loc := (s.tile t).cc.pc.toNat, cause := cause })

/-- Only the tile `t` has changed. -/
def OnlyTile (s u : State) (t : TileId) : Prop := u = s.setTile t (u.tile t)

/-- A command changes nothing of the block. -/
def NoEffect (c : Instr) (s : State) : Prop := exec c s = .next s

/-- The byte that a core's address map gives at an address of the data SRAM or the scratchpad (Table 7.1); none in a
granule with an uncorrectable error (R120). -/
def coreByte (s : State) (t : TileId) (a : Nat) : Option Byte :=
  if 0x10000 ≤ a ∧ a < 0x18000 then some (mget 0 (s.tile t).cc.dsram (a - 0x10000))
  else if 0x10000000 ≤ a ∧ a < 0x10200000 ∧ badIn (s.tile t).sp (a - 0x10000000) 1 = [] then
    some (mget 0 (s.tile t).sp.mem (a - 0x10000000))
  else none

/-- A store of the low `n` bytes of a word at `x`: those bytes of the core's memory hold them, least significant first,
and every other byte of data SRAM and scratchpad is as before; the core goes on at `pc` with its registers as they were,
and of the whole block only the tile's data SRAM, scratchpad contents, PC and performance counters have changed. -/
def Stored (s u : State) (t : TileId) (x n : Nat) (v pc : Word) : Prop :=
  (∀ i, i < n → coreByte u t (x + i) = some (v.extractLsb' (8 * i) 8)) ∧
  (∀ y, (y < x ∨ x + n ≤ y) → coreByte u t y = coreByte s t y) ∧
  (∀ r, u.gr t r = s.gr t r) ∧
  u = s.setTile t { s.tile t with
    sp := { (s.tile t).sp with mem := (u.tile t).sp.mem }
    cc := { (s.tile t).cc with dsram := (u.tile t).cc.dsram, pc := pc, pmc := (u.tile t).cc.pmc, passBp := false,
                               state := .running, wait := .none } }

/-- `n` bytes at `x` lie in the data SRAM, or in the scratchpad outside guarded ring slots (R127), in a 32-byte word
without an uncorrectable error (R120). -/
def Storable (s : State) (t : TileId) (x n : Nat) : Prop :=
  (0x10000 ≤ x ∧ x + n ≤ 0x18000) ∨
  (0x10000000 ≤ x ∧ x + n ≤ 0x10200000 ∧ guardOf (s.tile t) (x - 0x10000000) n = none ∧
    badIn (s.tile t).sp ((x - 0x10000000) / 32 * 32) 32 = [])

/-- An instruction goes on at `pc` having written g_d, whatever is traced; untraced, nothing else has changed. -/
def Jumps (c : Instr) (s : State) (t : TileId) (d : Fin 32) (v pc : Word) : Prop :=
  Answers c s (fun u => Wrote s u t d v ∧ (u.tile t).cc.pc = pc ∧ (s.traceMode t < 2 → OnlyRegs s u t pc))

/-- An instruction goes on at the next word with every general register as it was, and something holds of the state. -/
def GoesOn (c : Instr) (s : State) (t : TileId) (P : State → Prop) : Prop :=
  Answers c s (fun u => (u.tile t).cc.pc = (s.tile t).cc.pc + 4 ∧ (∀ r, u.gr t r = s.gr t r) ∧ P u)

/-- A 32-bit lane of the vector registers, lane i of v_r at r × 64 + i. -/
def lane (s : State) (t : TileId) (k : Nat) : Word := mget 0 (s.tile t).vu.regs k

/-- A vector instruction writes n 32-bit lanes from v_d on with values given and no other lane, sets VDONE, leaves the
scratchpad and the general registers as they were, and goes on. -/
def WritesLanes (c : Instr) (s : State) (t : TileId) (d n : Nat) (f : Nat → Word) : Prop :=
  GoesOn c s t (fun u => (∀ i, i < n → lane u t (d * 64 + i) = f i) ∧
    (∀ k, k < d * 64 ∨ d * 64 + n ≤ k → lane u t k = lane s t k) ∧ (u.tile t).sp = (s.tile t).sp ∧
    (u.tile t).cc.dsram = (s.tile t).cc.dsram ∧ bit (u.tile t).cc.events 6 = true)

/-- The operands of an FP32 vector instruction on n elements lie in vector registers. -/
def InRegs (ops : VOperands) (n : Nat) : Prop :=
  ops.src = .regs ∧ ops.srcB = .regs ∧ ops.srcC = .regs ∧ ops.a * 64 + n ≤ 2048 ∧ ops.b * 64 + n ≤ 2048 ∧ ops.c * 64 + n ≤ 2048 ∧ ops.d * 64 + n ≤ 2048

/-- The state in which the hub has counted a dictionary request (OD 0x1100.05). -/
def State.counted (s : State) : State := s.odAdd 0x1100 5 1

/-- A caller's write of an entry passes the dictionary's checks (R18, R283, R380). -/
def Admitted (s : State) (c : Caller) (idx sub part : Nat) : Prop :=
  callerOk c = true ∧ s.mayCall c = true ∧ s.counted.gate c idx sub part true = 0 ∧ foreign c idx sub part = false

/-- A command written to the dictionary is refused: its caller is answered a code, and nothing else happens than that the
request is counted. -/
def Refuses (cmd : Instr) (s : State) (c : Caller) (code : Nat) : Prop :=
  exec cmd s = .next (s.counted.reply c code)

/-- Bytes laid over a table of bytes from an offset where they are enabled; every other byte is as before. -/
def Laid (old new : SMap Byte) (off : Nat) (bs : List (Option Byte)) : Prop :=
  ∀ k, mget 0 new k =
    if off ≤ k ∧ k < off + bs.length then ((bs.drop (k - off)).headD none).getD (mget 0 old k) else mget 0 old k

/-- A command lays bytes over a tile's scratchpad, leaves `rx` at its local port, and then does what `k` says to the
block, which is otherwise as it was. -/
def LaysThen (c : Instr) (s : State) (t : TileId) (rx : List Flit) (off : Nat)
    (bs : List (Option Byte)) (k : State → State) : Prop :=
  ∃ mem, Laid (s.tile t).sp.mem mem off bs ∧
    exec c s = .next (k (s.setTile t { s.tile t with rx := rx, sp := { (s.tile t).sp with mem := mem } }))

/-- What a tile's local port holds when a flit has been taken from it. -/
def rxWithout (s : State) (t : TileId) (f : Flit) : List Flit := dropFirst (· == f) (s.tile t).rx

/-- No granule of a tile's scratchpad holds an uncorrectable error (R120). -/
def Sound (s : State) (t : TileId) : Prop := (s.tile t).sp.bad = []

/-- It is the turn of a flit at a tile's local port (R154). -/
def Turn (s : State) (t : TileId) (f : Flit) : Prop := rxTurn (s.tile t) (· == f) = true

/-- A command changes one tile's charge bank to `cb` and nothing else of the block. -/
def SetsBank (c : Instr) (s : State) (t : TileId) (cb : ChargeBank) : Prop :=
  exec c s = .next (s.modCb t (fun _ => cb))

/-- A command changes one router to what `f` makes of it and nothing else of the block. -/
def SetsRouter (c : Instr) (s : State) (t : TileId) (f : Router → Router) : Prop :=
  exec c s = .next (s.modRouter t f)

/-- A model command of 64 bytes with its operation code passes the checks of R266 before its own. -/
def ModelCommand (s : State) (c : Caller) (p : Nat) (cmd : List Byte) (opc : Nat) : Prop :=
  Admitted s c 0x5200 1 p ∧ cmd.length = 64 ∧ fieldN cmd 0 1 = opc ∧ modelReserved cmd = false ∧
    s.counted.sealedFrom c p = false ∧ s.counted.partState p = 1 ∧ s.counted.standby = false

/-- A command changes one function of a port to `g` and nothing else of the block. -/
def SetsFn (c : Instr) (s : State) (port : Port) (fn : Nat) (g : Function) : Prop :=
  exec c s = .next (s.modFn port fn (fun _ => g))

/-- A function with a vector signalled that stands masked: it is pending; an unmasked one leaves nothing (R284). -/
def signalled (f : Function) (vector : Nat) : Function :=
  if vectorMasked f vector then { f with pba := setBit f.pba vector true } else f

/-- What signalling a vector of a function sends out: nothing while it is masked (R284). -/
def signalOut (port : Port) (fn : Nat) (f : Function) (vector : Nat) : List Emission :=
  if vectorMasked f vector then [] else [Emission.msix port fn vector]

/-- A function in which a host violation is recorded (R292); a VF's vector 2 is signalled. -/
def violated (f : Function) (fn code value addr : Nat) : Function :=
  let g := { f with viol := true, violStatus := code, violValue := value % 65536, vaddr := addr }
  if fn = 0 then g else signalled g 2

/-- The state in which a caller's request is taken up: one more request of a network peer in this second (R392). -/
def State.taken (s : State) (c : Caller) : State :=
  match c with
  | .net a p => s.countRate a p
  | _ => s

/-- A caller's request reaches the server (R382, R386, R392): the caller is served, the length agrees, no response is
kept for its SEQ, and a network peer is within its rate. -/
def Asks (s : State) (c : Caller) (m : DictMsg) : Prop :=
  callerOk c = true ∧ s.mayCall c = true ∧ m.len = m.value.length ∧ m.value.length ≤ 4072 ∧
    s.hub.kept.find? (fun e => e.1 == c && e.2.1 == m.seq) = none ∧ (∀ a p, c = .net a p → s.rateOf a p < 1000)

/-- The emission that carries a response to its caller. -/
def answerTo (c : Caller) (op : Nat) (m : DictMsg) : Emission :=
  match c with
  | .net a p => .net a p op m
  | .pf port => .mailbox port 0 op m
  | .vf port n => .mailbox port n op m

/-- OP of a dictionary request (Table 16.6). -/
def opCode (cmd : Instr) : Nat :=
  match cmd with
  | .negotiate _ _ => 1
  | .read _ _ => 2
  | .write _ _ _ => 3
  | .list _ _ => 4
  | .networkLockAcquire _ _ => 5
  | .networkLockRelease _ _ => 5
  | _ => 0

/-- A request answers its caller with a code, a value and its full length, and of the block `P` holds. -/
def Responds (cmd : Instr) (s : State) (c : Caller) (m : DictMsg) (code : Nat) (v : List Byte) (total : Nat)
    (shadowed : Bool) (P : State → Prop) : Prop :=
  Answers cmd s (fun u => answerTo c (opCode cmd) (respond m code v total shadowed) ∈ u.out ∧ P u)

/-- A partition command of 8 bytes with its operation code passes the checks before those of its own (R351). -/
def PartCommand (s : State) (c : Caller) (cmd : List Byte) (opc p : Nat) : Prop :=
  Admitted s c 0x4000 1 0xFF ∧ cmd.length = 8 ∧ fieldN cmd 0 1 = opc ∧ fieldN cmd 1 1 = p ∧ zeroRange cmd 2 6 = true ∧
    p < 32 ∧ s.counted.standby = false

/-- An SPDM request of a function that sets its state to `g`, answers one response, and changes nothing else. -/
def SpdmSets (c : Instr) (s : State) (port : Port) (fn : Nat) (g : Function) (code : Nat) (b : List Byte) : Prop :=
  exec c s = .next ((s.modFn port fn (fun _ => g)).emit (.spdm port fn code b))

/-- A partition message answers its requester with a code, in the form of R358, and of the block `P` holds. -/
def MessageGives (c : Instr) (s : State) (port : Port) (fn op code : Nat) (P : State → Prop) : Prop :=
  Answers c s (fun u => u.out.getLast? = some (.spdm port fn 0x7E (leBytes 1 op ++ leBytes 1 0 ++ leBytes 2 code)) ∧ P u)

/-- A packet is taken up by the device so far as no type asks for more (R296–R299, R308). -/
def Comes (s : State) (typ : Nat) (p : FalramPkt) : Prop :=
  packetOk p = true ∧ s.fabricOn = true ∧ s.linkExists p.link = true ∧ (p.mcast = true ∨ p.dst = s.fabric.devId) ∧
    crcOk typ p = true ∧ packetBad typ p = false

/-- A packet comes from a peer in the version in force with it (R301). -/
def FromPeer (s : State) (typ : Nat) (p : FalramPkt) : Prop :=
  Comes s typ p ∧ ∃ e, s.peer p.srcDev = some e ∧ e.ver = p.vmaj * 256 + p.vmin

/-- The state in which a peer's packet has been counted and its time noted. -/
def State.heard (s : State) (p : FalramPkt) : State :=
  (s.odAdd 0x6100 0xD 1).modPeer p.srcDev (fun e => { e with heardAt := s.clkTime })

/-- The packet commands with their types (Table 12.4). -/
def packetCommands (p : FalramPkt) : List (Nat × Instr) :=
  [(1, .hello p), (2, .keepalive p), (3, .join p), (4, .openPkt p), (5, .data p), (6, .ack p), (7, .nak p), (8, .close p)]

/-- The payload of a packet to a partition is there in clear, and breaks no rule of its type. -/
def Clear (s : State) (typ n : Nat) (p : FalramPkt) (b : List Byte) : Prop :=
  s.clearPayload typ n p = some b ∧ payloadReserved typ b = false

/-- A maintenance command's bytes: operation code and fields (Table 17.7). -/
def MaintRuns (s : State) (cmd : Instr) (c : Caller) (opc : Nat) (fields : BitVec 64) (env : StartEnv) : Prop :=
  exec cmd s = .next (((s.counted.runField opc fields.toNat env).setBlobP 0x7100 1 0xFF (fieldCmdBytes opc fields)).reply c 0)

end Sys2Proof.Machine
end

