-- ==== Sys2Proof/Certificates/Slice0/Obligations.lean ====
section
/-!
DEFINITION. The statements about the model (Obligations.<Name>), in the terms of Safety.lean.
-/

open Sys2Proof Sys2Proof.Machine

/-- A step takes the command at the front of the queue and runs it with the rest (spec/95_what_each_step_holds.md). -/
def Obligations.StepRunsFront : Prop :=
  ∀ (c : Instr) (r : List Instr) (s : State), step { s with pending := c :: r } = exec c { s with pending := r }

/-- A step on an empty queue lets wafer time run on by one cycle and does nothing else (model choice, log entry 2) (R336, spec/14_clock_thermal.md). -/
def Obligations.IdleStepCountsTime : Prop :=
  ∀ s : State, s.pending = [] →
    (s.odG 0x2200 2 = 1 → step s = .next { s with clkTime := (s.clkTime + 1) % 2 ^ 64 }) ∧
    (s.odG 0x2200 2 ≠ 1 → step s = .next s)

/-- Exactly the ill-formed commands fault; every well-formed command answers a next state in every state (spec/00_scope.md, spec/95_what_each_step_holds.md). -/
def Obligations.IllFormedCommandsFault : Prop :=
  ∀ (c : Instr) (s : State),
    (c.wf = true → ∃ u, exec c s = .next u) ∧ (c.wf = false → exec c s = .fault .noSuchUnit)

/-- Results of the register-register integer instructions and the multiplications (R170, R172, R173, spec/07_control_cores.md). -/
def Obligations.IntegerRegisterInstructions : Prop :=
  ∀ (s : State) (t : TileId) (d a b : Fin 32), Issues s t →
    let x := s.gr t a
    let y := s.gr t b
    let pc := (s.tile t).cc.pc + 4
    Retires (.add t d a b) s t d (x + y) pc ∧ Retires (.sub t d a b) s t d (x - y) pc ∧
    Retires (.and t d a b) s t d (x &&& y) pc ∧ Retires (.or t d a b) s t d (x ||| y) pc ∧
    Retires (.xor t d a b) s t d (x ^^^ y) pc ∧ Retires (.sll t d a b) s t d (x <<< (y.toNat % 32)) pc ∧
    Retires (.srl t d a b) s t d (x >>> (y.toNat % 32)) pc ∧
    Retires (.sra t d a b) s t d (x.sshiftRight (y.toNat % 32)) pc ∧
    Retires (.slt t d a b) s t d (if x.toInt < y.toInt then 1 else 0) pc ∧
    Retires (.sltu t d a b) s t d (if x.toNat < y.toNat then 1 else 0) pc ∧
    Retires (.mul t d a b) s t d (x * y) pc ∧
    Retires (.mulh t d a b) s t d ((x.signExtend 64 * y.signExtend 64).extractLsb' 32 32) pc ∧
    Retires (.mulhu t d a b) s t d ((x.setWidth 64 * y.setWidth 64).extractLsb' 32 32) pc

/-- Results of the immediate integer instructions; a shift of kind 3 is illegal (R172, R173, spec/07_control_cores.md). -/
def Obligations.IntegerImmediateInstructions : Prop :=
  ∀ (s : State) (t : TileId) (d a : Fin 32) (imm : BitVec 16), Issues s t →
    let x := s.gr t a
    let pc := (s.tile t).cc.pc + 4
    Retires (.addi t d a imm) s t d (x + imm.signExtend 32) pc ∧
    Retires (.andi t d a imm) s t d (x &&& imm.setWidth 32) pc ∧
    Retires (.ori t d a imm) s t d (x ||| imm.setWidth 32) pc ∧
    Retires (.xori t d a imm) s t d (x ^^^ imm.setWidth 32) pc ∧
    Retires (.slti t d a imm) s t d (if x.toInt < imm.toInt then 1 else 0) pc ∧
    Retires (.lui t d imm) s t d (imm ++ (0 : BitVec 16)) pc ∧
    (imm.extractLsb' 5 2 = 0 → Retires (.shiftImmediate t d a imm) s t d (x <<< (imm.toNat % 32)) pc) ∧
    (imm.extractLsb' 5 2 = 1 → Retires (.shiftImmediate t d a imm) s t d (x >>> (imm.toNat % 32)) pc) ∧
    (imm.extractLsb' 5 2 = 2 → Retires (.shiftImmediate t d a imm) s t d (x.sshiftRight (imm.toNat % 32)) pc) ∧
    (imm.extractLsb' 5 2 = 3 → StopsCore (.shiftImmediate t d a imm) s t 0x0301 0 0 0)

/-- Loads read little-endian data of data SRAM and scratchpad; misaligned and unmapped addresses stop the core (R171, R172, spec/07_control_cores.md). -/
def Obligations.LoadInstructions : Prop :=
  ∀ (s : State) (t : TileId) (d a : Fin 32) (imm : BitVec 16), Issues s t →
    let x := (s.gr t a + imm.signExtend 32).toNat
    let pc := (s.tile t).cc.pc + 4
    (∀ b0 : Byte, coreByte s t x = some b0 → s.watchHit t x 1 false = none →
      Retires (.lb t d a imm) s t d (b0.signExtend 32) pc ∧ Retires (.lbu t d a imm) s t d (b0.setWidth 32) pc) ∧
    (∀ b0 b1 : Byte, x % 2 = 0 → coreByte s t x = some b0 → coreByte s t (x + 1) = some b1 → s.watchHit t x 2 false = none →
      Retires (.lh t d a imm) s t d ((b1 ++ b0).signExtend 32) pc ∧
      Retires (.lhu t d a imm) s t d ((b1 ++ b0).setWidth 32) pc) ∧
    (∀ b0 b1 b2 b3 : Byte, x % 4 = 0 → coreByte s t x = some b0 → coreByte s t (x + 1) = some b1 →
      coreByte s t (x + 2) = some b2 → coreByte s t (x + 3) = some b3 → s.watchHit t x 4 false = none →
      Retires (.lw t d a imm) s t d (b3 ++ b2 ++ b1 ++ b0) pc) ∧
    (x % 2 ≠ 0 → StopsCore (.lh t d a imm) s t 0x0401 0 x 0 ∧ StopsCore (.lhu t d a imm) s t 0x0401 0 x 0) ∧
    (x % 4 ≠ 0 → StopsCore (.lw t d a imm) s t 0x0401 0 x 0) ∧
    (coreRegion x 4 = .none → x % 4 = 0 → StopsCore (.lw t d a imm) s t 0x0303 0 x 0) ∧
    (coreRegion x 1 = .none →
      StopsCore (.lb t d a imm) s t 0x0303 0 x 0 ∧ StopsCore (.lbu t d a imm) s t 0x0303 0 x 0)

/-- Stores write the low bytes of g_d to data SRAM or scratchpad and change no other byte (R171, R172, R127, spec/07_control_cores.md). -/
def Obligations.StoreInstructions : Prop :=
  ∀ (s : State) (t : TileId) (d a : Fin 32) (imm : BitVec 16), Issues s t →
    let x := (s.gr t a + imm.signExtend 32).toNat
    let v := s.gr t d
    let pc := (s.tile t).cc.pc + 4
    (Storable s t x 1 → s.watchHit t x 1 true = none → Answers (.sb t d a imm) s (fun u => Stored s u t x 1 v pc)) ∧
    (Storable s t x 2 → x % 2 = 0 → s.watchHit t x 2 true = none → Answers (.sh t d a imm) s (fun u => Stored s u t x 2 v pc)) ∧
    (Storable s t x 4 → x % 4 = 0 → s.watchHit t x 4 true = none → Answers (.sw t d a imm) s (fun u => Stored s u t x 4 v pc)) ∧
    (x % 2 ≠ 0 → StopsCore (.sh t d a imm) s t 0x0401 0 x 0) ∧
    (x % 4 ≠ 0 → StopsCore (.sw t d a imm) s t 0x0401 0 x 0) ∧
    (coreRegion x 4 = .none → x % 4 = 0 → StopsCore (.sw t d a imm) s t 0x0303 0 x 0) ∧
    (coreRegion x 1 = .none → StopsCore (.sb t d a imm) s t 0x0303 0 x 0)

/-- Branches and jumps: the next PC, and the link register (R172, R173, R195, spec/07_control_cores.md). -/
def Obligations.BranchAndJumpInstructions : Prop :=
  ∀ (s : State) (t : TileId) (d a b : Fin 32) (off : BitVec 16) (far : BitVec 26), Issues s t →
    let x := s.gr t a
    let y := s.gr t b
    let pc := (s.tile t).cc.pc + 4
    let goes := fun taken : Bool => if taken then pc + off.signExtend 32 * 4 else pc
    Jumps (.beq t a b off) s t 0 0 (goes (x == y)) ∧ Jumps (.bne t a b off) s t 0 0 (goes (x != y)) ∧
    Jumps (.blt t a b off) s t 0 0 (goes (decide (x.toInt < y.toInt))) ∧
    Jumps (.bge t a b off) s t 0 0 (goes (decide (y.toInt ≤ x.toInt))) ∧
    Jumps (.bltu t a b off) s t 0 0 (goes (decide (x.toNat < y.toNat))) ∧
    Jumps (.bgeu t a b off) s t 0 0 (goes (decide (y.toNat ≤ x.toNat))) ∧
    Jumps (.j t far) s t 0 0 (pc + far.signExtend 32 * 4) ∧
    Jumps (.jal t far) s t 31 pc (pc + far.signExtend 32 * 4) ∧
    Jumps (.jr t a) s t 0 0 (x &&& 0xFFFFFFFC) ∧
    Jumps (.jalr t d a) s t d pc (x &&& 0xFFFFFFFC)

/-- TSUB queues a checked descriptor; VLD, VST and VTST move vector registers to and from the scratchpad (R174, R121, spec/07_control_cores.md). -/
def Obligations.EngineSubmissions : Prop :=
  ∀ (s : State) (t : TileId) (d a b : Fin 32), Issues s t →
    let x := s.gr t a
    let off := vecOffset x
    (∀ bytes, (s.tile t).tv.queue.length < 4 → s.engineRead t x.toNat 32 = some (s, bytes) → tvCode bytes = 0 →
      GoesOn (.tsub t a) s t (fun u => (u.tile t).tv = { (s.tile t).tv with queue := (s.tile t).tv.queue ++ [bytes] })) ∧
    (∀ bytes, (s.tile t).tv.queue.length < 4 → s.engineRead t x.toNat 32 = some (s, bytes) → tvCode bytes ≠ 0 →
      StopsCore (.tsub t a) s t 0x0305 0 x.toNat (tvCode bytes) ∧
      Answers (.tsub t a) s (fun u => (u.tile t).tv = { (s.tile t).tv with descErr := true } ∧
        (tvCode bytes = 0x0401 → (u.tile t).sp.misalign = true))) ∧
    (off + 256 ≤ 0x200000 → badIn (s.tile t).sp off 256 = [] → GoesOn (.vld t d a) s t (fun u =>
      (∀ i, i < 64 → mget 0 (u.tile t).vu.regs (d * 64 + i) =
        BitVec.ofNat 32 (leNat (spRead (s.tile t).sp (off + 4 * i) 4))) ∧
      (∀ k, k < d * 64 ∨ d * 64 + 64 ≤ k → mget 0 (u.tile t).vu.regs k = mget 0 (s.tile t).vu.regs k) ∧
      (u.tile t).sp = (s.tile t).sp ∧ bit (u.tile t).cc.events 6 = true)) ∧
    (off + 256 ≤ 0x200000 → (∀ ch, guardedCount (s.mover t ch) = 0) → GoesOn (.vst t d a) s t (fun u =>
      (∀ i, i < 256 → mget 0 (u.tile t).sp.mem (off + i) = (s.vectorBytes t d 256).getD i 0) ∧
      (∀ k, k < off ∨ off + 256 ≤ k → mget 0 (u.tile t).sp.mem k = mget 0 (s.tile t).sp.mem k) ∧
      (u.tile t).vu = (s.tile t).vu ∧ bit (u.tile t).cc.events 6 = true)) ∧
    (0x200000 < off + 256 → StopsCore (.vld t d a) s t 0x0402 0 off 0 ∧ StopsCore (.vst t d a) s t 0x0402 0 off 0) ∧
    (∀ dst stride rows cols esz w : Nat, oddPair b = false → dst = x.toNat → stride = bits (s.gr t b).toNat 15 0 →
      rows = bits (s.gr t b).toNat 24 16 → cols = bits (s.gr t (pairHi b)).toNat 12 0 →
      esz = bits (s.gr t (pairHi b)).toNat 14 13 → w = elemBytes esz cols → 1 ≤ rows → rows ≤ 256 → 1 ≤ cols → cols ≤ 4096 →
      elemBytes esz rows ≤ stride → dst + (cols - 1) * stride + elemBytes esz rows ≤ 0x200000 →
      (∀ ch, guardedCount (s.mover t ch) = 0) →
      GoesOn (.vtst t d a b) s t (fun u =>
        (u.tile t).sp = ((s.transposedWrite t 6 0 esz dst stride cols ((List.range rows).map (fun r =>
          sliceB (s.vectorBytes t d (rows * w)) (r * w) w))).tile t).sp ∧
        bit (u.tile t).cc.events 6 = true)) ∧
    (oddPair b = true → StopsCore (.vtst t d a b) s t 0x0301 0 0 0)

/-- SEND hands a message to the router; RECV takes the oldest message; messages queue with their source (R176, spec/07_control_cores.md). -/
def Obligations.MessageInstructions : Prop :=
  ∀ (s : State) (t : TileId) (d a b : Fin 32), tileOk t = true →
    let x := (s.gr t a).toNat
    let w := s.grPair t b
    let vn := if (destOf w).window = 0 ∨ (destOf w).window = 5 then 0 else 2
    (∀ o, Issues s t → oddPair b = false → (destOf w).window ∈ [0, 3, 4, 5] → dsramAt x 32 = some o →
      (vn = 0 → (freeId (s.tile t)).isSome = true) →
      let m : Message := { kind := 0, vn := vn, id := 0, dest := destOf w, be := BitVec.allOnes 32,
                           flits := [mread 0 (s.tile t).cc.dsram o 32] }
      (s.sendOut t vn w m).2 = none →
      GoesOn (.send t a b) s t (fun u => u.routers = (s.sendOut t vn w m).1.routers ∧
        (u.tile t).tx = ((s.sendOut t vn w m).1.tile t).tx)) ∧
    (Issues s t → oddPair b = true → StopsCore (.send t a b) s t 0x0301 0 0 0) ∧
    (Issues s t → oddPair b = false → (destOf w).window ∉ [0, 3, 4, 5] → StopsCore (.send t a b) s t 0x0303 0 w 0) ∧
    (Issues s t → (s.tile t).cc.msgq = [] → Retires (.recv t d a) s t d 0 ((s.tile t).cc.pc + 4)) ∧
    (∀ sx sy bytes rest o, Issues s t → (s.tile t).cc.msgq = (sx, sy, bytes) :: rest → x % 32 = 0 → dsramAt x 32 = some o →
      Answers (.recv t d a) s (fun u => Wrote s u t d (BitVec.ofNat 32 (65536 + 256 * sy + sx)) ∧
        (u.tile t).cc.msgq = rest ∧ (u.tile t).cc.pc = (s.tile t).cc.pc + 4 ∧
        (u.tile t).cc.dsram = mwrite 0 (s.tile t).cc.dsram o bytes ∧ (u.tile t).sp = (s.tile t).sp ∧ OnlyTile s u t)) ∧
    (∀ (msg : List Byte) (sx sy : Nat), Instr.wf (.messageReceipt t msg sx sy) = true → (s.tile t).cc.msgq.length < 16 →
      rxTurn (s.tile t) (isMessage msg sx sy) = true →
      Answers (.messageReceipt t msg sx sy) s (fun u => (u.tile t).cc.msgq = (s.tile t).cc.msgq ++ [(sx, sy, msg)] ∧
        (u.tile t).cc.regs = (s.tile t).cc.regs ∧ (u.tile t).cc.pc = (s.tile t).cc.pc)) ∧
    (∀ f, (s.tile t).rx.find? (fun f : Flit => f.dest.window == 5 && f.vn != 1) = some f →
      16 ≤ (s.tile t).cc.msgq.length →
      exec (.messageQueueTimeout t) s =
        .next ((s.takeRx t (fun f : Flit => f.dest.window == 5 && f.vn != 1)).refuse t f 0x0307))

/-- RLD, RST and RAMO send their message under a transaction and wait; the response retires them (R177, R154, R165, R166, R430, spec/07_control_cores.md). -/
def Obligations.RemoteInstructions : Prop :=
  ∀ (s : State) (t : TileId) (d a b : Fin 32), tileOk t = true →
    let w := s.grPair t b
    let sent := fun (c : Instr) (m : Message) (read : Bool) (wait : Nat → CoreWait) =>
      ∀ id, Issues s t → oddPair b = false → (destOf w).window = 0 ∨ (destOf w).window = 2 → freeId (s.tile t) = some id →
        (s.inject t { m with id := id }).2 = none →
        Answers c s (fun u => (u.tile t).cc.wait = wait id ∧ (u.tile t).cc.pc = (s.tile t).cc.pc ∧
          (∀ r, u.gr t r = s.gr t r) ∧
          (u.tile t).tx = (s.tile t).tx ++ [{ id := id, agent := .core, dest := w, sentAt := s.clkTime, isRead := read }])
    sent (.rld t d b) (rldMessage (destOf w)) true (fun id => .rld d id) ∧
    sent (.rst t d b) (rstMessage (destOf w) (s.gr t d)) false (fun id => .rst id) ∧
    sent (.ramoFetchAndAdd t d a b) (ramoMessage (destOf w) 0 (s.gr t a).toNat 0) true (fun id => .ramo d 0 id) ∧
    sent (.ramoCompareAndSwap32 t d a b) (ramoMessage (destOf w) 1 (s.gr t a).toNat (s.gr t d).toNat) true
      (fun id => .ramo d 1 id) ∧
    (oddPair d = false → oddPair a = false →
      sent (.ramoCompareAndSwap64 t d a b) (ramoMessage (destOf w) 2 (s.grPair t a) (s.grPair t d)) true
        (fun id => .ramo d 2 id)) ∧
    (∀ (f : Flit) (x : Tx), Instr.wf (.readDataReceipt t f) = true → f.kind = 3 → txOf (s.tile t) f.id = some x →
      x.isRead = true → x.agent = .core → rxTurn (s.tile t) (· == f) = true → (s.tile t).cc.haltDue = 0 →
      let retired := fun u : State => (u.tile t).cc.pc = (s.tile t).cc.pc + 4 ∧ (u.tile t).cc.wait = .none ∧
        (u.tile t).tx = (s.tile t).tx.filter (fun y => y.id != f.id)
      ((s.tile t).cc.wait = .rld d f.id ∨ (s.tile t).cc.wait = .ramo d 0 f.id ∨ (s.tile t).cc.wait = .ramo d 1 f.id →
        zeroRange f.payload 4 28 = true →
        Answers (.readDataReceipt t f) s (fun u => Wrote s u t d (BitVec.ofNat 32 (fieldN f.payload 0 4)) ∧ retired u)) ∧
      ((s.tile t).cc.wait = .ramo d 2 f.id → zeroRange f.payload 8 24 = true → oddPair d = false →
        Answers (.readDataReceipt t f) s (fun u =>
          (d ≠ 0 → u.gr t d = BitVec.ofNat 32 (fieldN f.payload 0 4)) ∧
          u.gr t (pairHi d) = BitVec.ofNat 32 (fieldN f.payload 4 4) ∧
          (∀ r, r ≠ d → r ≠ pairHi d → u.gr t r = s.gr t r) ∧ retired u))) ∧
    (∀ (f : Flit) (x : Tx), Instr.wf (.acknowledgementReceipt t f) = true → f.kind = 4 → txOf (s.tile t) f.id = some x →
      x.isRead = false → x.agent = .core → rxTurn (s.tile t) (· == f) = true → zeroRange f.payload 0 32 = true →
      (s.tile t).cc.wait = .rst f.id → (s.tile t).cc.haltDue = 0 →
      Answers (.acknowledgementReceipt t f) s (fun u => (u.tile t).cc.pc = (s.tile t).cc.pc + 4 ∧
        (u.tile t).cc.wait = .none ∧ (∀ r, u.gr t r = s.gr t r) ∧
        (u.tile t).tx = (s.tile t).tx.filter (fun y => y.id != f.id))) ∧
    (∀ (f : Flit) (x : Tx), Instr.wf (.refusalReceipt t f) = true → f.kind = 5 → f.id ≠ 0 →
      rxTurn (s.tile t) (· == f) = true → refusalReserved f.payload = false → fieldN f.payload 17 1 % 8 ≠ 3 →
      (destOf (fieldN f.payload 8 8)).route = 0 → txOf (s.tile t) f.id = some x → x.agent = .core →
      waitsFor (s.tile t).cc x.id = true →
      Answers (.refusalReceipt t f) s (fun u => (u.tile t).cc.state = .stoppedFault ∧
        fieldN (u.tile t).cc.faultRec 0 2 = fieldN f.payload 0 2 ∧ (u.tile t).cc.pc = (s.tile t).cc.pc)) ∧
    (∀ (id : Nat) (x : Tx), Instr.wf (.responseTimeout t id) = true → s.timeoutsHeld t = false →
      txOf (s.tile t) id = some x → x.agent = .core → waitsFor (s.tile t).cc x.id = true →
      Answers (.responseTimeout t id) s (fun u => (u.tile t).cc.state = .stoppedFault ∧
        fieldN (u.tile t).cc.faultRec 0 2 = 0x000A ∧ (u.tile t).cc.pc = (s.tile t).cc.pc))

/-- WAIT, FENCE, NOP, HALT, TRAP, BRK and illegal instructions of a core that issues (R173, R175, R178, R197, R172, spec/07_control_cores.md). -/
def Obligations.SystemInstructions : Prop :=
  ∀ (s : State) (t : TileId) (d a : Fin 32), Issues s t →
    let pc := (s.tile t).cc.pc + 4
    let found := BitVec.ofNat 32 (eventsNow (s.tile t).cc) &&& s.gr t a
    Retires (.nop t) s t 0 0 pc ∧
    ((∀ x ∈ (s.tile t).tx, x.agent ≠ .core) → Retires (.fence t) s t 0 0 pc) ∧
    ((∃ x ∈ (s.tile t).tx, x.agent = .core) → NoEffect (.fence t) s) ∧
    (found ≠ 0 → Retires (.wait t d a) s t d found pc) ∧
    (found = 0 → exec (.wait t d a) s = .next (s.modCc t (fun c => { pmcSettle s.clkTime c with state := .waiting }))) ∧
    Answers (.halt t) s (fun u => (u.tile t).cc.state = .stoppedHalt ∧ (u.tile t).cc.pc = pc ∧
      (∀ r, u.gr t r = s.gr t r) ∧ OnlyTile s u t) ∧
    StopsCore (.trap t) s t 0x0308 2 0 0 ∧
    (∀ fn, fn < 2048 → StopsCore (.illegalInstruction t fn) s t 0x0301 fn 0 0) ∧
    (s.debugOn t = true → (s.tile t).cc.passBp = false → Answers (.brk t) s (fun u => (u.tile t).cc.state = .halted ∧
      (u.tile t).cc.haltCause = 5 ∧ (u.tile t).cc.pc = (s.tile t).cc.pc ∧ (∀ r, u.gr t r = s.gr t r))) ∧
    (s.debugOn t = false → Retires (.brk t) s t 0 0 pc)

/-- The watchdog stops a running core with 0x0304; the timer sets TIMER; LIMIT takes 24 bits (R181, R175, R202, spec/07_control_cores.md). -/
def Obligations.WatchdogAndTimer : Prop :=
  ∀ (s : State) (t : TileId) (v : Word), tileOk t = true →
    ((s.tile t).cc.wdog ≠ 0 → (s.tile t).cc.state = .running ∨ (s.tile t).cc.state = .waiting →
      Answers (.watchdogExpiry t) s (fun u => (u.tile t).cc.state = .stoppedFault ∧
        (u.tile t).cc.faultRec = faultBytes s t { status := 0x0304, agent := 12, loc := (s.tile t).cc.pc.toNat } ∧
        (u.tile t).cc.pc = (s.tile t).cc.pc ∧ (∀ r, u.gr t r = s.gr t r))) ∧
    ((s.tile t).cc.wdog = 0 → NoEffect (.watchdogExpiry t) s) ∧
    exec (.wdogWrite t v) s = .next (s.modCc t (fun c => { c with wdog := v.toNat % 2 ^ 24 })) ∧
    ((s.tile t).cc.state ≠ .halted → (s.tile t).cc.timer ≠ 0 → Answers (.timerExpiry t) s (fun u =>
      bit (u.tile t).cc.events 8 = true ∧ (u.tile t).cc.timer = 0 ∧
      u = s.setTile t { s.tile t with cc := { (s.tile t).cc with
        timer := 0, timerAt := s.clkTime, events := (u.tile t).cc.events } })) ∧
    ((s.tile t).cc.state = .halted ∨ (s.tile t).cc.timer = 0 → NoEffect (.timerExpiry t) s)

/-- The elementwise FP32 classes of VOP work lane by lane on the elements that g_b counts (R109, R110, R174, spec/04_tensor_vector.md). -/
def Obligations.VectorLaneInstructions : Prop :=
  ∀ (s : State) (t : TileId) (ops : VOperands) (n : Nat), Issues s t → (s.gr t ops.gb).toNat = n → InRegs ops n →
    let x := fun i => lane s t (ops.a * 64 + i)
    let y := fun i => lane s t (ops.b * 64 + i)
    let z := fun i => lane s t (ops.c * 64 + i)
    (∀ op, WritesLanes (.vopArithmetic t op .fp32 ops) s t ops.d n (fun i => arithW op .fp32 (x i) (y i) (z i))) ∧
    (∀ op, WritesLanes (.vopCompareAndSelect t op .fp32 ops) s t ops.d n (fun i => cmpW op (x i) (y i) (z i))) ∧
    (∀ sqrt, WritesLanes (.vopReciprocal t sqrt .fp32 ops) s t ops.d n
      (fun i => if sqrt then rsqrtW (x i) else recipW (x i))) ∧
    (∀ base2, WritesLanes (.vopExp t base2 .fp32 ops) s t ops.d n (fun i => if base2 then exp2W (x i) else expW (x i))) ∧
    WritesLanes (.sigmoid t .fp32 ops) s t ops.d n (fun i => sigmoidW (x i)) ∧
    WritesLanes (.silu t .fp32 ops) s t ops.d n (fun i => siluW (x i)) ∧
    WritesLanes (.vopConversion t .int32ToFp32 0 0 ops) s t ops.d n (fun i => fp32 (fpInt (x i).toInt))

/-- Conversions, SOFTMAX_STEP, reductions, TOP_64_SELECT and DRAW: what each leaves in registers (R110, R112, R209, spec/04_tensor_vector.md). -/
def Obligations.VectorReductionsAndSelection : Prop :=
  ∀ (s : State) (t : TileId) (ops : VOperands) (n : Nat), Issues s t → (s.gr t ops.gb).toNat = n → InRegs ops n →
    let l := (List.range n).map (fun i => lane s t (ops.a * 64 + i))
    let old := lane s t (ops.d * 64)
    (∀ op rcp zp, (convSizes op).1 = 4 → Instr.wf (.vopConversion t op rcp zp ops) = true →
      GoesOn (.vopConversion t op rcp zp ops) s t (fun u =>
        (u.tile t).vu = putVecBytes (s.tile t).vu ops.d
          (if (convSizes op).2 = 0 then packNibbles (l.map (convW op rcp zp))
           else elemBytesOf (convSizes op).2 (l.map (convW op rcp zp))))) ∧
    GoesOn (.softmaxStep t ops) s t (fun u => lane u t (ops.b * 64 + 1) =
      BitVec.ofNat 32 ((lane s t (ops.b * 64 + 1)).toNat +
        (l.map (fun w => softmaxCode (lane s t (ops.c * 64)) w.toInt (lane s t (ops.b * 64)).toInt)).sum)) ∧
    (∀ first, WritesLanes (.vectorReduction t .sum first ops) s t ops.d 1
      (fun _ => if first then laneSum l else addW old (laneSum l))) ∧
    (∀ first, WritesLanes (.vectorReduction t .sumSq first ops) s t ops.d 1
      (fun _ => if first then laneSumSq l else addW old (laneSumSq l))) ∧
    WritesLanes (.vectorReduction t .max false ops) s t ops.d 1 (fun _ => l.foldl (extreme true) old) ∧
    (∀ first base, GoesOn (.top64Select t first base ops) s t (fun u =>
      (u.tile t).vu.top = topMerge 64 (if first then [] else (s.tile t).vu.top) (l.mapIdx (fun i w => (w, base + i))))) ∧
    (∀ (d : Fin 32) (args : DrawArgs) (k : Nat), Instr.wf (.draw t d args) = true → drawToken args = some k →
      Answers (.draw t d args) s (fun u => Wrote s u t d (BitVec.ofNat 32 k) ∧
        (u.tile t).cc.pc = (s.tile t).cc.pc + 4 ∧ (u.tile t).vu = (s.tile t).vu ∧ bit (u.tile t).cc.events 6 = true))

/-- Halt, resume, step and trace of a core and of a partition (R198, R200, R195, R197, spec/07_control_cores.md). -/
def Obligations.CoreDebugCommands : Prop :=
  ∀ (s : State) (t : TileId), tileOk t = true →
    (s.sealedAt t = false → (s.tile t).cc.state = .running → (s.tile t).cc.wait = .none →
      Answers (.haltRequest t false) s (fun u => (u.tile t).cc.state = .halted ∧ (u.tile t).cc.haltCause = 1 ∧
        (u.tile t).cc.pc = (s.tile t).cc.pc ∧ (∀ r, u.gr t r = s.gr t r))) ∧
    (s.sealedAt t = false → (s.tile t).cc.state = .halted →
      Answers (.resume t false) s (fun u => (u.tile t).cc.state = .running ∧ (u.tile t).cc.haltCause = 0 ∧
        (u.tile t).cc.pc = (s.tile t).cc.pc ∧ (∀ r, u.gr t r = s.gr t r))) ∧
    (∀ (d a b : Fin 32) (w : Nat), s.sealedAt t = false → (s.tile t).cc.state = .halted → (s.tile t).cc.loaded = true →
      (s.tile t).cc.wait = .none → (s.tile t).cc.haltDue = 0 → (s.tile t).cc.pc.toNat < 0x10000 →
      fetchWord (s.tile t).cc = w → bits w 31 26 = 0 → bits w 10 0 = 0 →
      regField w 25 = d → regField w 20 = a → regField w 15 = b →
      Answers (.step t) s (fun u => Wrote s u t d (s.gr t a + s.gr t b) ∧ (u.tile t).cc.state = .halted ∧
        (u.tile t).cc.haltCause = 6 ∧ (u.tile t).cc.pc = (s.tile t).cc.pc + 4)) ∧
    ((s.tile t).cc.state ≠ .halted → NoEffect (.step t) s) ∧
    exec (.traceTimeRecord t) s = .next (s.trace t 8 []) ∧
    (∀ (c : Caller) (p : Nat), p < 32 → s.odP 0x7000 1 p ≠ 0 → s.isSealed p = false →
      (Admitted s c 0x7000 5 p → exec (.haltPartition c p 1) s = .next ((s.counted.haltPart p none).reply c 0)) ∧
      (Admitted s c 0x7000 6 p → exec (.resumePartition c p 1) s = .next ((s.counted.resumePart p).reply c 0))) ∧
    (∀ p, p < 32 → s.odP 0x7000 7 p = 1 → s.partDrained p = false →
      Answers (.drainLimitExpiry p) s (fun u => u.odP 0x7000 7 p = 3 ∧ u = s.odSetP 0x7000 7 p 3))

/-- Local scratchpad accesses, remote writes and remote reads (R117, R119, R120, R122, R132, R154, R430, spec/05_tile_memory.md). -/
def Obligations.ScratchpadAndRemoteAccesses : Prop :=
  ∀ (s : State) (t : TileId),
    (∀ acc : SpAccess, Instr.wf (.scratchpadAccess t acc) = true → coreAligned acc = true → acc.ecc = [] →
      acc.write = none → acc.offset + acc.len ≤ 0x200000 → acc.offset < 0x200000 →
      badIn (s.tile t).sp acc.offset acc.len ≠ [] →
      Answers (.scratchpadAccess t acc) s (fun u => (u.tile t).sp.uerr = true ∧ (u.tile t).sp.mem = (s.tile t).sp.mem)) ∧
    (∀ acc : SpAccess, Instr.wf (.scratchpadAccess t acc) = true → coreAligned acc = true → acc.ecc = [] → Sound s t →
      let n := ((acc.write.map List.length).getD acc.len)
      let waits := fun v : State => v.modSp t (fun p => { p with waitCnt := min (p.waitCnt + acc.waited) 0xFFFFFFFF })
      (acc.offset + n ≤ 0x200000 → acc.offset < 0x200000 → acc.write = none →
        exec (.scratchpadAccess t acc) s = .next (waits s)) ∧
      (∀ bs, acc.offset + n ≤ 0x200000 → acc.offset < 0x200000 → acc.write = some bs →
        guardOf (s.tile t) acc.offset bs.length = none →
        LaysThen (.scratchpadAccess t acc) s t (s.tile t).rx acc.offset bs waits) ∧
      (0x200000 < acc.offset + n → exec (.scratchpadAccess t acc) s =
        .next ((waits s).memFault t 0x0402 (agentNum acc.agent) acc.offset
          (if acc.agent = .core then (s.tile t).cc.pc.toNat else 0)))) ∧
    (∀ f : Flit, Instr.wf (.remoteWrite t f) = true → Turn s t f → Sound s t → s.partOfTile t = some f.part → f.kind = 0 → f.dest.window = 0 →
      (f.vn = 0 → alignedRun f.be.toNat = true) → guardOf (s.tile t) (f.dest.offset / 32 * 32) 32 = none →
      LaysThen (.remoteWrite t f) s t (rxWithout s t f) (f.dest.offset / 32 * 32)
        (f.payload.mapIdx (fun i b => if bit f.be.toNat i then some b else none)) (fun v => v.ackWrite t f)) ∧
    (∀ f : Flit, tileOk t = true → flitOk f = true → Turn s t f → s.partOfTile t ≠ some f.part →
      exec (.remoteWrite t f) s = .next ((s.takeRx t (· == f)).refuse t f 0x0601) ∧
      exec (.remoteRead t f) s = .next ((s.takeRx t (· == f)).refuse t f 0x0601)) ∧
    (∀ f : Flit, Instr.wf (.remoteRead t f) = true → Turn s t f → s.partOfTile t = some f.part → f.kind = 1 →
      s.sealedFromTile t f.srcX f.srcY = true →
      exec (.remoteRead t f) s = .next ((s.takeRx t (· == f)).refuse t f 0x0602)) ∧
    (∀ f : Flit, Instr.wf (.remoteRead t f) = true → Turn s t f → s.partOfTile t = some f.part → f.kind = 1 →
      s.sealedFromTile t f.srcX f.srcY = false → readCheck f = 0 → f.dest.window = 0 → fieldN f.payload 0 1 = 1 →
      badIn (s.tile t).sp f.dest.offset 4 ≠ [] →
      exec (.remoteRead t f) s = .next (((s.takeRx t (· == f)).windowGet t f f.dest.offset 4).1.refuse t f 0x0403)) ∧
    (∀ f : Flit, Instr.wf (.remoteRead t f) = true → Turn s t f → Sound s t → s.partOfTile t = some f.part → f.kind = 1 →
      s.sealedFromTile t f.srcX f.srcY = false → readCheck f = 0 → f.dest.window = 0 →
      (fieldN f.payload 0 1 = 0 → exec (.remoteRead t f) s =
        .next ((s.takeRx t (· == f)).sendWords t f
          (wordsOf (spRead (s.tile t).sp f.dest.offset (32 * fieldN f.payload 4 4))))) ∧
      (fieldN f.payload 0 1 = 1 → exec (.remoteRead t f) s = .next ((s.takeRx t (· == f)).sendVn1 t
        (responseFlit s t f 3 true (fitB (spRead (s.tile t).sp f.dest.offset 4) 32)))) ∧
      (fieldN f.payload 0 1 = 0 → fieldN f.payload 4 4 = 1 → exec (.remoteRead t f) s =
        .next ((s.takeRx t (· == f)).sendVn1 t
          (responseFlit s t f 3 true (spRead (s.tile t).sp f.dest.offset 32)))))

/-- Remote atomics return the old value and store the new one in one pass; words for the vector queue (R123, R154, R430, R109, spec/05_tile_memory.md). -/
def Obligations.RemoteAtomics : Prop :=
  ∀ (s : State) (t : TileId) (f : Flit), tileOk t = true → flitOk f = true →
    let off := f.dest.offset
    let passes := Turn s t f ∧ Sound s t ∧ s.partOfTile t = some f.part ∧ atomicCheck f = 0
    let old := leNat (spRead (s.tile t).sp off 4)
    let old8 := leNat (spRead (s.tile t).sp off 8)
    let answers := fun (c : Instr) (n new before : Nat) =>
      guardOf (s.tile t) off n = none →
        LaysThen c s t (rxWithout s t f) off (enabled (leBytes n new))
          (fun v => v.sendVn1 t (responseFlit s t f 3 true (fitB (leBytes n before) 32)))
    (passes → fieldN f.payload 0 1 = 0 →
      answers (.fetchAndAdd t f) 4 ((old + fieldN f.payload 8 4) % 2 ^ 32) old) ∧
    (passes → fieldN f.payload 0 1 = 1 →
      answers (.compareAndSwap32 t f) 4 (if old = fieldN f.payload 16 4 then fieldN f.payload 8 4 else old) old) ∧
    (passes → fieldN f.payload 0 1 = 2 →
      answers (.compareAndSwap64 t f) 8 (if old8 = fieldN f.payload 16 8 then fieldN f.payload 8 8 else old8) old8) ∧
    (∀ (idx : Nat) (word : List Byte), word.length = 32 →
      let mine := fun f : Flit => f.dest.window == 4 && f.dest.offset == idx && f.payload == word
      ((s.tile t).vu.queue.length < 256 → rxTurn (s.tile t) mine = true → Answers (.vectorQueueWord t idx word) s (fun u =>
        (u.tile t).vu = { (s.tile t).vu with queue := (s.tile t).vu.queue ++ [(idx, word)] } ∧
        (u.tile t).sp = (s.tile t).sp ∧
        ((∀ g ∈ (s.tile t).rx, mine g = true → g.id = 0) → OnlyTile s u t))) ∧
      (256 ≤ (s.tile t).vu.queue.length → NoEffect (.vectorQueueWord t idx word) s))

/-- Mover channel registers: TAIL, enable, disable, RESUME, pacing (R127, R130, R134, R135, spec/05_tile_memory.md). -/
def Obligations.MoverChannelRegisters : Prop :=
  ∀ (s : State) (t : TileId) (ch : Nat) (v : Word), tileOk t = true → ch < 4 →
    let m := s.mover t ch
    let runs := fun m : Mover => m.en && !m.halted && m.failure.isNone
    let becomes := fun (c : Instr) (x : Mover) => exec c s = .next (s.modMv t ch (fun _ => x))
    let tail := v.toNat % 65536
    let m1 := { m with tail := tail }
    let timeout := bits v.toNat 31 16
    let hi := bits v.toNat 15 8
    let lo := bits v.toNat 7 0
    let m2 := { m with timeout := timeout, hi := hi, lo := lo }
    ((tail + 65536 - m.done) % 65536 ≤ ringSlots m →
      becomes (.tailWrite t ch v) { m1 with fetching := m.fetching || (runs m && decide (m.hi ≤ occupancy m1)) }) ∧
    (ringSlots m < (tail + 65536 - m.done) % 65536 →
      exec (.tailWrite t ch v) s =
        .next ((s.modMv t ch (fun m => { m with violation := true })).memFault t 0x0405 (1 + ch) 0 tail)) ∧
    (m.en = false → 1 ≤ m.hi →
      becomes (.channelEnable t ch) { m with en := true, fetched := m.tail, done := m.tail }) ∧
    becomes (.channelDisable t ch) { m with en := false, fetching := false } ∧
    (m.en = true → becomes (.moverResume t ch)
      { m with halted := false, fetching := m.fetching || (m.failure.isNone && decide (m.hi ≤ occupancy m)) }) ∧
    (lo < hi → hi ≤ ringSlots m → 1 ≤ timeout →
      becomes (.paceWrite t ch v) { m2 with fetching := m.fetching || (runs m && decide (hi ≤ occupancy m)) }) ∧
    (¬(lo < hi ∧ hi ≤ ringSlots m ∧ 1 ≤ timeout) → becomes (.paceWrite t ch v) { m with cfgErr := true }) ∧
    (runs m = true → 1 ≤ occupancy m → becomes (.pacingTimeout t ch) { m with fetching := true })

/-- Mover descriptors: fetch, copy, transposed copy, fill, marker and write-back (R121, R125, R128, R129, R131, R134, spec/05_tile_memory.md). -/
def Obligations.MoverDescriptors : Prop :=
  ∀ (s : State) (t : TileId) (ch count p : Nat) (d : Desc), tileOk t = true → ch < 4 → s.partOfTile t = some p →
    let m := s.mover t ch
    let x := mvDescOf d.bytes
    let starts := Sound s t ∧ m.inHand.find? (fun e => e.count == count) = some d ∧ mayStart (s.tile t) m d = true
    let slot := spRead (s.tile t).sp (slotAddr m m.fetched) 32
    let fetches := Sound s t ∧ (s.tile t).cc.state ≠ .halted ∧ m.en = true ∧ m.fetching = true ∧ m.halted = false ∧ m.failure = none ∧ inHandCount m < 4 ∧ 1 ≤ occupancy m
    (fetches → (mvDescOf slot).own = true → s.traceMode t = 0 →
      let m1 := { m with fetched := (m.fetched + 1) % 65536, inHand := m.inHand ++ [Desc.mk m.fetched slot .fetched] }
      exec (.descriptorFetch t ch) s =
        .next (s.modMv t ch (fun _ => { m1 with fetching := decide (m1.lo < occupancy m1) }))) ∧
    (fetches → (mvDescOf slot).own = false → m.inHand ≠ [] →
      Answers (.descriptorFetch t ch) s (fun u => (u.mover t ch).violation = true ∧ (u.mover t ch).fetching = false ∧
        (u.mover t ch).failure = some (0x0405, m.fetched, slotAddr m m.fetched) ∧ (u.mover t ch).fetched = m.fetched)) ∧
    (starts → s.descCode p d.bytes = 0 → x.opc = 0x20 → spaceOf x.src = 0 → spaceOf x.dst = 0 →
      LaysThen (.copy t ch count) s t (s.tile t).rx (bits x.dst 20 0)
        (enabled (spRead (s.tile t).sp (bits x.src 20 0) x.len)) (fun v => v.finishMv t ch count 0 x.len 0)) ∧
    (starts → s.descCode p d.bytes = 0 → x.opc = 0x21 → spaceOf x.src = 0 → spaceOf x.dst = 0 →
      exec (.transposedCopy t ch count) s = .next ((s.transposedWrite t (1 + ch) count x.esz (bits x.dst 20 0) x.dstStride
        x.cols ((List.range x.rows).map (fun i =>
          spRead (s.tile t).sp (bits x.src 20 0 + i * x.srcStride) (elemBytes x.esz x.cols)))).finishMv t ch count 0 x.rows 0)) ∧
    (starts → s.descCode p d.bytes = 0 → x.opc = 0x22 → spaceOf x.dst = 0 →
      LaysThen (.fill t ch count) s t (s.tile t).rx (bits x.dst 20 0)
        (enabled ((List.range x.len).map (fun i => (sliceB d.bytes (8 + i % 4) 1).headD 0)))
        (fun v => v.finishMv t ch count 0 x.len 0)) ∧
    (starts → s.descCode p d.bytes = 0 → x.opc = 0x2F →
      exec (.marker t ch count) s = .next (s.modMv t ch (fun m => setPhase m count (.finished 0 0)))) ∧
    (∀ e ∈ [(Instr.copy t ch count, 0x20), (.transposedCopy t ch count, 0x21), (.fill t ch count, 0x22),
        (.marker t ch count, 0x2F)],
      let code := s.descCode p d.bytes
      starts → code ≠ 0 → (x.opc = e.2 ∨ code = 0x0001) →
      exec e.1 s = .next (s.finishMv t ch count code 0 (s.descLoc p (slotAddr m count) code x))) ∧
    (∀ rest status done, Sound s t → m.inHand = d :: rest → d.phase = .finished status done → m.failure = none →
      LaysThen (.descriptorWriteback t ch) s t (s.tile t).rx (slotAddr m d.count) (enabled (writtenBack d status done))
        (fun v => (v.modMv t ch (fun m => { m with inHand := rest, done := (m.done + 1) % 65536,
                                                   lastStatus := if status = 0 then m.lastStatus else status })).modCc t
          (fun c => if x.irq then { c with events := setBit c.events (1 + ch) true } else c)))

/-- Stack accesses through the extent table; failed stacks and patrol scrubbing (R137, R138, R140, R262, spec/05_tile_memory.md). -/
def Obligations.StackAccesses : Prop :=
  ∀ (s : State) (p addr len da : Nat), p < 32 → s.stk.selfRefresh = false → 1 ≤ len → addr % 64 + len ≤ 64 →
    let online := s.stackState (s.stackOf da) = 0
    let fits := addr + len ≤ s.stackLimit p ∧ s.devAddr p addr = some da
    let isBad := da / 64 ∈ s.stk.bad
    (fits → online → ¬isBad → exec (.stackAccess p addr len none [.clean]) s = .next (s.emit (.stack p addr 0 (s.inlinePlain p addr
      ((List.range len).map (fun i => mget 0 s.stk.mem (da + i))))))) ∧
    (∀ bs : List Byte, fits → online → ¬isBad → bs.length = len → len < 64 →
      Answers (.stackAccess p addr len (some bs) [.clean]) s (fun u =>
        Laid s.stk.mem u.stk.mem da (enabled bs) ∧
        u = { s with stk := { s.stk with mem := u.stk.mem }, out := s.out ++ [.stack p addr 0 []] })) ∧
    (fits → online → Answers (.stackAccess p addr len none [.uncorrectable]) s (fun u =>
      u.out = s.out ++ [.stack p addr 0x0404 []] ∧ da / 64 ∈ u.stk.bad ∧ u.odG 0x3310 8 = s.odG 0x3310 8 + 1 ∧
      u.stk.mem = s.stk.mem)) ∧
    (fits → ¬online → exec (.stackAccess p addr len none [.clean]) s = .next (s.emit (.stack p addr 0x0408 []))) ∧
    (∀ w : Option (List Byte), s.stackLimit p < addr + len → (∀ bs, w = some bs → bs.length = len) →
      exec (.stackAccess p addr len w [.clean]) s = .next (s.emit (.stack p addr 0x0402 []))) ∧
    (∀ k, k < 16 → s.stackState k = 0 → exec (.stackFailure k) s = .next ((s.odSet 0x3311 (k + 1) 2).log
      { rule := 137, status := 0x0408, sev := 2, source := 3, data := [k] })) ∧
    (s.hub.away = false → da % 64 = 0 → online → s.stk.bad = [] →
      exec (.patrolScrub [(da, .oneSymbol)]) s = .next (s.odAdd 0x3310 7 1)) ∧
    (s.hub.away = false → da % 64 = 0 → online → s.stk.bad = [] →
      exec (.patrolScrub [(da, .uncorrectable)]) s = .next (((s.setBad (da / 64) true).odAdd 0x3310 8 1).log
        { rule := 140, status := 0x0404, sev := 2, source := 3, data := [s.stackOf da, da / 2 ^ 28, da % 2 ^ 28] }))

/-- Enabling, disabling and writing segments and channel entries; what a token boundary applies (R31, R53, R54, R57, spec/02_charge_banks.md). -/
def Obligations.SegmentRegisters : Prop :=
  ∀ (s : State) (t : TileId) (n : Nat) (v : Word), tileOk t = true → n < 16 →
    let cb := (s.tile t).cb
    let g := cb.seg n
    let new := setCfg0 g v.toNat
    (bit v.toNat 31 = true → g.en = false → enableOk cb n new = true →
      Answers (.segmentEnable t n v) s (fun u => (u.tile t).cb.seg n = { clearTokens new with en := true } ∧
        (∀ m, m ≠ n → (u.tile t).cb.seg m = cb.seg m) ∧ (u.tile t).cb.cells = cb.cells ∧
        (∀ a, (u.tile t).cb.arr a = if a ∈ arraysOf new
          then { cb.arr a with latch := [], latched := [], token := 0, exact := none } else cb.arr a) ∧ OnlyTile s u t)) ∧
    (g.en = false → enableOk cb n new = false →
      SetsBank (.segmentEnable t n v) s t { cb.modSeg n (fun _ => new) with cfgErr := true }) ∧
    (g.en = true → SetsBank (.segmentEnable t n v) s t { cb with cfgErr := true }) ∧
    (g.en = true → cb.boundary = false → bits v.toNat 30 0 = bits (segCfg0 g) 30 0 →
      SetsBank (.segmentDisable t n v) s t (cb.modSeg n (fun g => { g with disabling := true }))) ∧
    (g.en = false → SetsBank (.segmentDisable t n v) s t (cb.modSeg n (fun _ => new))) ∧
    (g.en = true → SetsBank (.segmentConfigWrite t n 0x04 v) s t { cb with cfgErr := true }) ∧
    (g.en = false → SetsBank (.segmentConfigWrite t n 0x04 v) s t (cb.modSeg n (fun g =>
      { g with zOut := bits v.toNat 31 24, zA := bits v.toNat 23 16, chanBase := bits v.toNat 13 0 }))) ∧
    (∀ off ∈ [0x08, 0x0C, 0x10, 0x14],
      (g.en = true → cb.boundary = false → SetsBank (.segmentConfigWrite t n off v) s t
        (cb.modSeg n (fun g => { g with defer := g.defer ++ [(off, v)] }))) ∧
      (g.en = false → SetsBank (.segmentConfigWrite t n off v) s t (cb.modSeg n (fun g => setSegReg g off v)))) ∧
    (∀ (k : Nat) (e : List Byte), k < 8192 → e.length = 16 →
      let c := chanOf e
      let finite := fpFinite (fpOf c.m) = true ∧ fpFinite (fpOf c.b) = true
      (finite → chanFormat cb k = none → cb.boundary = false → SetsBank (.channelTableWrite t k e) s t
        { cb with chans := mset {} cb.chans k c, chanDefer := mdel cb.chanDefer k }) ∧
      (∀ fmt, finite → chanFormat cb k = some fmt → zOk fmt c.z = true → cb.boundary = false →
        SetsBank (.channelTableWrite t k e) s t { cb with chanDefer := mput cb.chanDefer k c }) ∧
      (¬finite → Answers (.channelTableWrite t k e) s (fun u => ∃ w, u = s.emit (.refusal t 0x0003 w)))) ∧
    (s.boundaryWaits t = false → (∀ e ∈ cb.arrays, e.2.cal ≠ .measuring) → cb.boundary = false →
      (∀ p, s.partOfTile t = some p → ∀ d ∈ (s.part p).walkDue, d.tile ≠ tkey t) →
      Answers (.tokenBoundary t) s (fun u => (u.tile t).cb.boundary = true ∧ (u.tile t).cb.chanDefer = [] ∧
        (u.tile t).cb.bandDue = none ∧ (∀ m, m < 16 → ((u.tile t).cb.seg m).defer = []) ∧
        (g.disabling = true → ((u.tile t).cb.seg n).en = false) ∧ bit (u.tile t).cc.events 9 = true ∧ OnlyTile s u t))

/-- Activation words, the start of a pass, the post stage and Lookout reads (R45, R46, R51, R91, R92, R93, spec/02_charge_banks.md, spec/03_charge_accuracy.md). -/
def Obligations.ChargePasses : Prop :=
  ∀ (s : State) (t : TileId), tileOk t = true →
    let cb := (s.tile t).cb
    (∀ (n idx x y : Nat) (w : List Byte), Instr.wf (.segmentInputWord t n idx w x y) = true →
      rxTurn (s.tile t) (isSegWord n idx w x y) = true →
      let keeps := idx = 0x1FFFF ∧ (s.tile t).cc.role ∈ [1, 2, 4]
      let g := cb.seg n
      let per := elemsPerWord g.a8
      let b := idx * per / 512
      let r := idx % (512 / per)
      let taken := s.takeRx t (isSegWord n idx w x y)
      (g.en = false → ¬keeps → exec (.segmentInputWord t n idx w x y) s =
        .next (taken.raiseFault t { status := 0x0306, agent := 11, detail := n })) ∧
      (keeps → Answers (.segmentInputWord t n idx w x y) s (fun u =>
        (u.tile t).ctx = w ∧ (u.tile t).cb = cb ∧ (u.tile t).cc = (s.tile t).cc)) ∧
      (g.en = true → idx = 0x1FFFF → ¬keeps → exec (.segmentInputWord t n idx w x y) s =
        .next (taken.ackTaken t (s.tile t) (isSegWord n idx w x y))) ∧
      (g.en = true → idx ≠ 0x1FFFF → b < g.blocks → r * per < (cb.arr (g.arrBase + b * groupsOf g)).rows →
        wordHeld cb g b = true → NoEffect (.segmentInputWord t n idx w x y) s) ∧
      (g.en = true → idx ≠ 0x1FFFF → b < g.blocks → r * per < (cb.arr (g.arrBase + b * groupsOf g)).rows →
        wordHeld cb g b = false → (s.tile t).quiet = true →
        Answers (.segmentInputWord t n idx w x y) s (fun u =>
          (∀ a ∈ blockArrays g b,
            ((u.tile t).cb.arr a).latch = mwrite 0 (cb.arr a).latch (r * per)
              ((wordCodes g.a8 w).take ((cb.arr a).rows - r * per)) ∧
            r ∈ ((u.tile t).cb.arr a).latched) ∧
          (∀ a, a ∉ blockArrays g b → (u.tile t).cb.arr a = cb.arr a) ∧ (u.tile t).cb.cells = cb.cells))) ∧
    (∀ (a n : Nat) (g : Segment) (r : List Nat), a < 192 → cb.ready = a :: r → segOfArray cb a = some (n, g) →
      grantFree cb = true → arrayIdle (cb.arr a) = true → burstAhead cb a = false →
      ((cb.arr a).refresh = .forced → (cb.arr a).rowLast = true) →
      Answers (.passStart t a) s (fun u =>
        (u.tile t).cb.arr a = { cb.arr a with conv := some (passOf (cb.arr a) n g a), latch := [], latched := [],
                                              token := (cb.arr a).token + 1, rowLast := false } ∧
        (u.tile t).cb.ready = r ∧ (u.tile t).cb.boundary = false ∧
        (∀ b, b ≠ a → (u.tile t).cb.arr b = cb.arr b) ∧ OnlyTile s u t)) ∧
    (∀ (a : Nat) (p : Pass), a < 192 → (cb.arr a).conv = some p →
      let codes := convert cb a (cb.arr a).fmt p s.free
      let lk := (s.tile t).lk
      let fails := codes.any (envFails (mget {} lk.groups (a / 24)))
      let drawn := (s.useFree (if p.a8 then 2048 else 1024)).modLk t (fun lk => countConversions lk a codes)
      (p.reread = false → lk.en = false ∨ fails = false →
        exec (.postStage t a) s = .next (drawn.postCodes t a p codes)) ∧
      (p.reread = false → lk.en = true → fails = true → lk.rr ≠ 0 →
        exec (.postStage t a) s = .next (((drawn.modLk t (fun lk => recordFail lk (a / 24))).odAdd 0x3000 0xC 1).modCb t
          (fun cb => cb.modArr a (fun x => { x with conv := some { p with reread := true } })))) ∧
      let n := 2 ^ lk.rr
      let per := if p.a8 then 2048 else 1024
      let reads := (List.range n).map (fun i => convert cb a (cb.arr a).fmt p (s.free + i * per))
      let avg := (sumCodes reads).map (fun l => l.map (fun v => (v + n / 2) / n))
      (p.reread = true → avg.any (envFails (mget {} lk.groups (a / 24))) = false →
        ∃ k : Lookout, exec (.lookoutRereadDone t a) s =
          .next (((s.useFree (n * per)).modLk t (fun _ => k)).postCodes t a p avg)) ∧
      (p.reread = true → avg.any (envFails (mget {} lk.groups (a / 24))) = true →
        ∃ k : Lookout, exec (.lookoutRereadDone t a) s =
          .next (((((s.useFree (n * per)).modLk t (fun _ => recordPersist k (a / 24))).odAdd 0x3000 0x10 1).modCb t
            (fun cb => cb.modArr a calDue)).postCodes t a p avg)))

/-- Write bursts, their rows, column sums, and row reads (R58, R59, R60, R61, spec/02_charge_banks.md). -/
def Obligations.WriteBursts : Prop :=
  ∀ (s : State) (t : TileId), tileOk t = true →
    let cb := (s.tile t).cb
    (∀ (hdr : List Byte) (rows : List (List Byte)) (x y : Nat), Instr.wf (.writeBurst t hdr rows x y) = true →
      rxTurn (s.tile t) (isPortFlit x y) = true →
      let h := burstHdrOf hdr
      let a := h.arr
      (burstCode cb hdr rows.length ≠ 0 →
        exec (.writeBurst t hdr rows x y) s = .next (s.refusePort t x y (burstCode cb hdr rows.length))) ∧
      (burstCode cb hdr rows.length = 0 → h.opc = 1 → (cb.arr a).burst = none → (cb.arr a).closing = none →
        Answers (.writeBurst t hdr rows x y) s (fun u => ∃ ack, (u.tile t).cb.arr a =
          let b : Burst := { firstRow := h.first, fmt := h.fmt, opn := h.opn, cls := h.cls, rows := h.rows, data := rows,
                             next := h.first, held := (segOfArray cb a).isSome, ack := ack }
          if (segOfArray cb a).isSome then { cb.arr a with burst := some b }
          else { (if h.opn then { cb.arr a with wvalid := false, rows := h.rows, fmt := h.fmt } else cb.arr a) with
                 burst := some b }))) ∧
    (∀ (a : Nat) (b : Burst), a < 192 → (cb.arr a).burst = some b → cb.boundary = true → b.held = true →
      Answers (.heldBurstRelease t a) s (fun u => ((u.tile t).cb.arr a).burst = some { b with held := false } ∧
        a ∉ (u.tile t).cb.ready ∧ (u.tile t).cb.cells = cb.cells ∧ OnlyTile s u t)) ∧
    (∀ (a : Nat) (b : Burst) (d : List Byte) (r : List (List Byte)) (o : RowOutcome), a < 192 →
      (cb.arr a).burst = some b → b.held = false → b.started = true ∨ writeFree cb = true → arrayIdle (cb.arr a) = true → b.data = d :: r →
      let lv := (sentLevels b.fmt d).1
      Answers (.rowWriteVerify t a o) s (fun u =>
        (u.tile t).cb.cells = (putRow cb a b.next (withOff b.fmt lv o.offLevel)).cells ∧
        (o.offLevel = [] → withOff b.fmt lv o.offLevel = lv) ∧
        (r ≠ [] → ((u.tile t).cb.arr a).burst = some { b with data := r, next := b.next + 1, started := true }) ∧
        (r = [] → ((u.tile t).cb.arr a).burst = none))) ∧
    (∀ (a : Nat), a < 192 → (cb.arr a).closing = some none → activeArrays cb ≤ cb.grant → readingArrays cb ≤ 20 →
      Answers (.columnSumRecompute t a) s (fun u => ((u.tile t).cb.arr a).wvalid = true ∧
        ((u.tile t).cb.arr a).closing = none ∧ (u.tile t).cb.cells = cb.cells ∧
        ((u.tile t).cb.arr a).sums = mwrite 0 [] 0
          (codeSums cb a 0 (cb.arr a).rows (List.replicate (outsOf (cb.arr a).fmt) 0)) ∧ OnlyTile s u t)) ∧
    (∀ (hdr : List Byte) (x y : Nat), Instr.wf (.readRequest t hdr x y) = true → rxTurn (s.tile t) (isPortFlit x y) = true →
      let code := s.readReqCode t hdr x y
      code ≠ 0 → exec (.readRequest t hdr x y) s = .next (s.refusePort t x y code)) ∧
    (∀ (hdr : List Byte) (x y : Nat), Instr.wf (.readRequest t hdr x y) = true → rxTurn (s.tile t) (isPortFlit x y) = true →
      s.readReqCode t hdr x y = 0 →
      let h := burstHdrOf hdr
      h.opc = 2 → readFree cb = true → arrayIdle (cb.arr h.arr) = true → portLast (s.tile t) x y = none →
      exec (.readRequest t hdr x y) s = .next (((s.takePort t x y).modCb t (fun cb =>
        { cb with readSent := ringPush 32 cb.readSent (h.dest, h.arr, false) })).sendRows t h.arr (destOf h.dest) h.first h.count 0))

/-- Calibration, refresh and rejuvenation of charge arrays (R75, R76, R77, R78, R80, R82, R83, R84, spec/03_charge_accuracy.md). -/
def Obligations.CalibrationAndRefresh : Prop :=
  ∀ (s : State) (t : TileId) (a : Nat), tileOk t = true → a < 192 →
    let cb := (s.tile t).cb
    let x := cb.arr a
    let becomes := fun (c : Instr) (y : ChargeArray) => SetsBank c s t (cb.modArr a (fun _ => y))
    (x.cal = .idle → becomes (.calibrationDue t a) { x with cal := .due }) ∧
    (∀ l : List Nat, (∀ b ∈ l, b < 192) → s.calStartOk t l = true →
      Answers (.calibrationStart t l) s (fun u => (∀ b ∈ l, ((u.tile t).cb.arr b) = { cb.arr b with cal := .measuring }) ∧
        (∀ b, b ∉ l → (u.tile t).cb.arr b = cb.arr b) ∧ OnlyTile s u t)) ∧
    (∀ l : List Nat, (∀ b ∈ l, b < 192) → s.calStartOk t l = false → NoEffect (.calibrationStart t l) s) ∧
    (∀ m : TrimSet, x.cal = .measuring → Answers (.calibrationCommit t a m) s (fun u =>
      let y := (u.tile t).cb.arr a
      let d := mget {} x.delta cb.band
      let f := mget {} x.factory cb.band
      y.cal = .idle ∧ y.calDone = true ∧ y.calAt = s.clkTime ∧ y.adcs = m.adcs ∧
      y.work = { offset := m.offset, gain := m.gain, pulse := m.pulse } ∧
      mget {} y.delta cb.band = { offset := d.offset + roundHalfEven (m.offset - f.offset - d.offset) 8,
                                  gain := d.gain + roundHalfEven (m.gain - f.gain - d.gain) 8,
                                  pulse := d.pulse + roundHalfEven (m.pulse - f.pulse - d.pulse) 8 } ∧
      u.odG 0x3000 8 = s.odG 0x3000 8 + 1)) ∧
    (x.cal ≠ .idle → x.calLate = false → exec (.calibrationLate t a) s =
      .next ((s.modCb t (fun cb => cb.modArr a (fun x => { x with calLate := true }))).odAdd 0x3000 0xA 1)) ∧
    Answers .userCalibrationSave s (fun u => u.odG 0x3002 1 = 1 ∧
      ∀ t' b, ((u.tile t').cb.arr b).saved = ((s.tile t').cb.arr b).delta ∧
              ((u.tile t').cb.arr b).delta = ((s.tile t').cb.arr b).delta) ∧
    (∀ c, Admitted s c 0x3002 2 0xFF → exec (.saveUserCalibrationNow c 1) s = .next (s.counted.saveUserCal.reply c 0)) ∧
    (x.refresh = .idle → x.failed = false →
      SetsBank (.refreshDue t a) s t { cb.modArr a (fun _ => { x with refresh := .due, refreshRow := 0, rowLast := false }) with
        refreshDue := cb.refreshDue ++ [a] }) ∧
    (∀ ok, refreshMay (s.tile t) a = true → Answers (.refreshRow t a ok) s (fun u =>
      let y := (u.tile t).cb.arr a
      y.refresh = (if x.refreshRow = 511 then .idle else x.refresh) ∧
      y.refreshRow = (if x.refreshRow = 511 then 0 else x.refreshRow + 1) ∧ y.early = (x.early || !ok) ∧
      (u.tile t).cb.cells = (putRow cb a x.refreshRow
        ((readRow cb a x.refreshRow).mapIdx (fun c f => levelOfField x.fmt c f))).cells)) ∧
    (x.refresh = .due → exec (.refreshForced t a) s =
      .next ((s.modCb t (fun cb => { cb.modArr a (fun x => { x with refresh := .forced }) with
        refreshDue := cb.refreshDue.filter (· != a) })).odAdd 0x3000 0xB 1))

/-- Exact reads and streams, held loads, tensor operations and drains (R67, R69, R98, R101, R105, R106, R107, spec/04_tensor_vector.md, spec/03_charge_accuracy.md). -/
def Obligations.ExactModeAndTensor : Prop :=
  ∀ (s : State) (t : TileId), tileOk t = true →
    let T := s.tile t
    (∀ (a n : Nat) (g : Segment) (first second : List (Nat × Nat × Nat)), a < 192 → segOfArray T.cb a = some (n, g) →
      g.exactMode = true → fullLatch (T.cb.arr a) g = true → arrayIdle (T.cb.arr a) = true → (T.cb.arr a).exact = none →
      readFree T.cb = true → burstAhead T.cb a = false →
      let r1 := readArray T.cb a first
      let r2 := readArray T.cb a second
      let x := T.cb.arr a
      (sumsMatch x r1 = true ∨ sumsMatch x r2 = true → Answers (.exactArrayRead t a first second) s (fun u =>
        (u.tile t).cb.arr a = { x with exact := some (if sumsMatch x r1 then r1 else r2) } ∧
        (u.tile t).tv.exact = exactReady (u.tile t).cb ∧ OnlyTile s u t)) ∧
      (sumsMatch x r1 = false → sumsMatch x r2 = false → Answers (.exactArrayRead t a first second) s (fun u =>
        (u.tile t).cb.arr a = { x with exact := some r2, early := true } ∧ u.odG 0x3101 2 = s.odG 0x3101 2 + 1))) ∧
    (∀ n, n < 16 → (T.cb.seg n).en = true → (T.cb.seg n).exactMode = true →
      (∀ a ∈ arraysOf (T.cb.seg n), (T.cb.arr a).exact ≠ none) →
      Answers (.exactStream t n) s (fun u => ((u.tile t).cb.seg n).delivered = (T.cb.seg n).delivered + 1 ∧
        (∀ a ∈ arraysOf (T.cb.seg n), ((u.tile t).cb.arr a).exact = none ∧ ((u.tile t).cb.arr a).latched = []) ∧
        (u.tile t).tv.exact = exactReady (u.tile t).cb ∧ (u.tile t).tv.exactCnt = min (T.tv.exactCnt + 1) 0xFFFFFFFF)) ∧
    (∀ b rest, Sound s t → takeDesc 0x11 [] T.tv.queue = some (b, rest) → rest ≠ [] →
      let d := tvDescOf b
      let held := mwrite 0 T.tv.held (d.hbank * 16384 + d.heldOff) (spRead T.sp d.sBase d.k)
      exec (.heldLoad t) s = .next (s.modTv t (fun v => { v with queue := rest, held := held }))) ∧
    (∀ b rest, Sound s t → takeDesc 0x10 [] T.tv.queue = some (b, rest) → T.tv.exact = false →
      (∀ x ∈ T.tv.drains, x.set ≠ (tvDescOf b).aset) →
      let d := tvDescOf b
      let r := pairResults T d
      Answers (.tensorOperation t) s (fun u =>
        (u.tile t).tv.acc = mwrite 0 T.tv.acc (d.aset * 4096 + d.accBase) (r.map (·.1)) ∧ (u.tile t).tv.queue = rest ∧
        (u.tile t).tv.drains = (if d.drain then T.tv.drains ++ [drainOf d] else T.tv.drains) ∧
        (u.tile t).tv.held = T.tv.held ∧ (u.tile t).sp = T.sp ∧
        (d.fmt ≠ 2 → u.odG 0x3200 5 = s.odG 0x3200 5 + (r.filter (·.2)).length))) ∧
    (∀ d r, Sound s t → T.tv.drains = d :: r → d.tovu = false → guardOf T d.dest (drainData T.tv d).length = none →
      LaysThen (.tensorDrain t) s t T.rx d.dest (enabled (drainData T.tv d)) (fun v => v.drainDone t)) ∧
    (∀ d r, T.tv.drains = d :: r → d.tovu = true → ((wordsOf (drainData T.tv d)).length ≤ d.sent + (256 - T.vu.queue.length)) →
      Answers (.tensorDrain t) s (fun u => (u.tile t).tv.drains = r ∧ bit (u.tile t).cc.events 5 = true ∧
        (u.tile t).vu.queue = T.vu.queue ++ (((wordsOf (drainData T.tv d)).mapIdx (fun i w => (i, w))).drop d.sent).take
          (256 - T.vu.queue.length)))

/-- Injection, forwarding and ejection of flits, and messages from the rim (R149, R152, R144, R146, R151, R155, R159, R164, spec/06_wafer_mesh.md). -/
def Obligations.MeshUnicast : Prop :=
  ∀ (s : State) (t : TileId), tileOk t = true →
    (∀ (m : Message) (x y p : Nat), messageOk m = true → s.logical t = some (x, y) → s.partOfTile t = some p →
      s.isRetired t = false →
      (∀ r, injectFormat m.kind m.vn m.dest = 0 → s.mesh.detour = .idle → s.injectRoute t m.vn m.dest = .ok r →
        let fl := messageFlits m r x y p 0 m.flits
        exec (.messageInjection t m) s = .next (s.feedIn t (fl.map (fun f => (Dir.l, f)))) ∧
        (∀ f, fl = [f] → (s.router t).feed = [] → s.hasRoom t .l f = true → SetsRouter (.messageInjection t m) s t (fun R =>
          { R with inq := R.inq ++ [{ port := .l, flit := f, since := s.clkTime }], feed := [] })) ∧
        (∀ f, fl = [f] → (s.router t).feed = [] → s.hasRoom t .l f = false → SetsRouter (.messageInjection t m) s t (fun R =>
          { R with feed := [(.l, f)] }))) ∧
      (injectFormat m.kind m.vn m.dest = 0 → s.mesh.detour ≠ .idle →
        exec (.messageInjection t m) s = .next (s.modTile t (fun T => { T with txHeld := T.txHeld ++ [m] }))) ∧
      (injectFormat m.kind m.vn m.dest ≠ 0 → exec (.messageInjection t m) s =
        .next ((s.countRefusal t).emit (.refusal t (injectFormat m.kind m.vn m.dest) (destNat m.dest)))) ∧
      (∀ c, injectFormat m.kind m.vn m.dest = 0 → s.mesh.detour = .idle → s.injectRoute t m.vn m.dest = .error c →
        exec (.messageInjection t m) s = .next ((s.countRefusal t).emit (.refusal t c (destNat m.dest))))) ∧
    (∀ (port : Dir) (vn : Nat) (e : InFlit) (l : List InFlit), vn < 3 → s.headsAt t port vn = e :: l →
      e.flit.dest.route = 0 → (s.router t).dropping = [] →
      let f := e.flit
      let d := (s.unicastDir t f).1
      let g := { f with phase1 := (s.unicastDir t f).2 }
      let first := ∀ x ∈ s.rivals t d e, s.goesBefore t d e x = true
      let taken := (s.noteGrant t e d).takeIn t e
      (f.phase1 = false → f.exit = none → f.dest.tileY < t.y → d = .s) ∧
      (f.phase1 = false → f.exit = none → t.y < f.dest.tileY → d = .n) ∧
      (∀ n, d ≠ .l → neighbour t d = some n → LinkId.mk t d ∉ s.mesh.failed →
        bit s.dark (fieldOfTile n) = false → bit s.mesh.down (fieldOfTile n) = false →
        (s.hasRoom n (arrival d) g = true → first →
          exec (.flitForward t port vn .clean) s = .next (taken.enter n (arrival d) g)) ∧
        (l = [] → s.hasRoom n (arrival d) g = false → NoEffect (.flitForward t port vn .clean) s)) ∧
      (rimPort t d = true → first → s.crossbarMay t d f = true →
        exec (.flitForward t port vn .clean) s = .next (taken.emit (.rim d g))) ∧
      (d = .l → first → s.partOfTile t = some f.part → f.incomplete = false → exec (.flitEjection t port vn) s =
        .next (taken.modTile t (fun T => { T with rx := T.rx ++ [f] }))) ∧
      (d = .l → first → s.partOfTile t ≠ some f.part → exec (.flitEjection t port vn) s = .next (taken.refuse t f 0x0601)) ∧
      (d ≠ .l → l = [] → NoEffect (.flitEjection t port vn) s)) ∧
    (∀ (side : Dir) (f : Flit) (r : TileId) (w : Nat), Instr.wf (.rimIngress side f) = true →
      rimRouter s.dark side (s.physical (f.dest.tileX % 160) (f.dest.tileY % 160)) = some r →
      waypoint s.dark r.u r.y f.dest.tileY (21 * (f.dest.tileX / 20) + f.dest.tileX % 20) = some w →
      exec (.rimIngress side f) s = .next (s.feedIn r [(side, { f with way := w, phase1 := w != r.u, exit := none })]))

/-- Reductions at a router and the end of a detour installation (R157, R158, R163, R164, spec/06_wafer_mesh.md). -/
def Obligations.ReductionsAndDetours : Prop :=
  ∀ (s : State) (t : TileId) (route id window offset : Nat) (k : RedKey), tileOk t = true →
    let ins := dirsOf (bits (s.routeEntry t route) 9 5)
    let all := ins.all (fun d => k.contribs.any (fun c => c.1 == d))
    (s.findKey t route id window offset = some k → k.out.isSome = true →
      exec (.reductionCombine t route id window offset) s = .next (s.sendKey t k)) ∧
    (s.findKey t route id window offset = some k → k.out = none → all = true →
      exec (.reductionCombine t route id window offset) s = .next (s.releaseKey t k false)) ∧
    (s.findKey t route id window offset = some k → k.out = none → all = false →
      NoEffect (.reductionCombine t route id window offset) s) ∧
    (s.findKey t route id window offset = some k → k.out = none → s.timeoutsHeld t = false →
      Answers (.reductionTimeout t route id window offset) s (fun u =>
        (u.router t).released = ringPush 32 ((s.releaseKey t k true).router t).released (route, id, window, offset) ∧
        (u.router t).rincBit = true ∧ u.odG 0x3400 0xB = (s.releaseKey t k true).odG 0x3400 0xB + 1)) ∧
    (s.findKey t route id window offset = some k → s.timeoutsHeld t = true →
      NoEffect (.reductionTimeout t route id window offset) s) ∧
    SetsRouter (.releasedKeyExpiry t route id window offset) s t (fun R =>
      { R with released := dropFirst (· == (route, id, window, offset)) R.released }) ∧
    (∀ (fields : Nat) (dark : Bool), s.mesh.detour = .draining fields dark → s.hub.away = false →
      let next := (s.finishDetour fields dark).runDetours (2 * (s.finishDetour fields dark).mesh.detourQueue.length + 2)
      (s.meshEmpty = true → exec .detourDrainComplete s = .next next) ∧
      (s.meshEmpty = false → NoEffect .detourDrainComplete s) ∧
      exec .detourDrainLimitExpiry s = .next next) ∧
    (s.mesh.detour = .idle → NoEffect .detourDrainComplete s ∧ NoEffect .detourDrainLimitExpiry s)

/-- The walk of the KV map, attention at a tile and at the merge root (R206, R207, R208, R209, R211, R217, R218, R221, spec/08_attention_kv.md). -/
def Obligations.KvCacheAndAttention : Prop :=
  ∀ (s : State) (t : TileId) (p req : Nat), tileOk t = true → p < 32 →
    let P := s.part p
    (∀ stage, (stageCount P ≤ stage ∨ s.coreRuns (coreOf P req) = false) → NoEffect (.kvWalk p req stage) s) ∧
    (∀ stage x, stage < stageCount P → s.coreRuns (coreOf P req) = true →
      let ahead := stage + s.odEff 0x5100 2 p
      let walked := ahead % stageCount P
      let s1 := (s.modReq p req (fun x => { x with stageAt := some stage })).settleLayer p req walked
      let ts := attnTiles (s1.part p) walked
      let layer := layerOf (s1.part p) walked
      let top := topPosition x + ahead / stageCount P
      s1.req p req = some x →
      ((x.st = .ending ∨ x.endDue.isSome = true) → exec (.kvWalk p req stage) s = .next s1) ∧
      (x.st ≠ .ending → x.endDue = none → s1.odEff 0x5100 3 p = 0 → exec (.kvWalk p req stage) s =
        .next (s1.forEach (List.range (min (top / 256) (npMax x.ctxE / 4) + 1)) (fun g s =>
          match ts.drop (g % max ts.length 1), s.req p req with
          | t :: _, some x => if groupDue x layer g (top / 256) then s.walkGroup p req layer g t else s
          | _, _ => s)))) ∧
    (s.partOfTile t = some p →
      let layer := layerOf P (s.tile t).cc.stage
      let here := fun position maskLo => (s.tile t).cc.role = 2 ∧ ctxCarries (s.tile t).ctx req position maskLo = true ∧
        s.pagesHere p t req layer position = true
      (∀ position maskLo waits, here position maskLo →
        Answers (.attentionToken t req position maskLo waits) s (fun u =>
          AttnToken.mk (tkey t) req position maskLo [] ∈ (u.part p).tokens ∧
          (∀ a ∈ (u.part p).tokens, a.tile = tkey t → a.req = req → a = AttnToken.mk (tkey t) req position maskLo []) ∧
          (∀ w ∈ (u.part p).slots, w.tile = tkey t → w.req = req → w.layer = layer → w.lastUse = s.clkTime))) ∧
      (∀ position maskLo waits, ¬here position maskLo → NoEffect (.attentionToken t req position maskLo waits) s) ∧
      (∀ (head : Nat) (qs : List (List Word)) (k v0 : List Word) (a : AttnToken) (x : Request),
        P.tokens.find? (fun b => b.tile == tkey t && b.req == req) = some a →
        let z := s.kvScales p req layer head
        let own := holdsGroup P (s.tile t).cc.stage t a.position && !k.isEmpty
        let w := if own then z.1.appendKv p req layer head a t z.2 k v0 else z.1
        w.req p req = some x →
        let v := (viewOf (w.part p) (tkey t) req layer).getD { tile := tkey t, req := req, layer := layer }
        let js := admissible x v ((P.manifest.windows.drop layer).headD 0) a.maskLo a.position (own || a.heads.contains head)
        (∀ e ∈ w.streamRangesOf p v head js, badIn (w.tile t).sp e.1 e.2 = []) →
        Answers (.attentionResume t req head qs k v0) s (fun u =>
          (∀ i q, qs[i]? = some q →
            let f := foldQuery P.manifest.hd (z.2.map (·.1)) q
            let h := w.headAt p t v head js f.1 f.2
            Contribution.mk (tkey t) req layer (head * qs.length + i) head h.m h.c h.v h.empty ∈ (u.part p).contribs) ∧
          (∀ c ∈ (w.part p).contribs, (c.tile ≠ tkey t ∨ c.req ≠ req) → c ∈ (u.part p).contribs) ∧
          u = w.modPart p (fun P => { P with contribs := (u.part p).contribs }))) ∧
      (∀ head tree out,
        let ts := attnTiles P (s.tile t).cc.stage
        let sent := fun u : TileId => P.contribs.find? (fun c =>
          c.tile == tkey u && c.req == req && c.layer == layer && c.head == head)
        ((∃ u ∈ ts, sent u = none) → NoEffect (.attentionMerge t req head tree out) s) ∧
        (∀ c0, sent (ts.headD t) = some c0 → (∀ u ∈ ts, (sent u).isSome = true) →
          (∀ u ∈ treeTiles tree, u ∈ ts) → (∀ u ∈ ts, u ∈ treeTiles tree) → (treeTiles tree).length = ts.length →
          let at0 := fun u => (sent u).getD c0
          let z := s.kvScales p req layer c0.kvHead
          let o := mergeHeads P.manifest.hd tree at0 (z.2.map (·.2))
          Answers (.attentionMerge t req head tree out) s (fun u =>
            Merged.mk (tkey t) req head o (requantise o out) ((treeTiles tree).all (fun u => (at0 u).empty)) ∈
              (u.part p).merged ∧
            (∀ c ∈ (u.part p).contribs, ¬(c.req = req ∧ c.layer = layer ∧ c.head = head)) ∧
            u = z.1.modPart p (fun P => { P with merged := (u.part p).merged, contribs := (u.part p).contribs })))))

/-- Prefix insertion, making a tree unreachable, and the freeing of a request (R224, R227, R228, R229, R246, spec/08_attention_kv.md). -/
def Obligations.PrefixTreeAndFreeing : Prop :=
  ∀ (s : State) (p req : Nat), p < 32 →
    let s0 := (s.settleRequest p req).pumpJobs p req
    (∀ (x : Request) (group : Nat), s0.req p req = some x → prefillEnded x = true → x.recorded = false →
      s0.odEff 0x5100 4 p ≠ 0 → group = x.nodes.length → 256 * (group + 1) ≤ x.promptLen →
      let up := parentOf x group
      let ids := groupIds x.ids group
      ((s0.jobOf p req group).isSome = true → exec (.prefixInsert p req group) s = .next s0) ∧
      (s0.jobOf p req group = none →
        (∀ n, s0.matchChild p up ids = some n → exec (.prefixInsert p req group) s =
          .next (((s0.holdNode p n).sharePages p req group n).countServing p)) ∧
        (s0.matchChild p up ids = none → s0.freeNode p = none →
          exec (.prefixInsert p req group) s = .next (s0.odAdd 0x5100 0x11 1)) ∧
        (∀ s1 n, s0.matchChild p up ids = none → s0.freeNode p = some (s1, n) →
          let s2 := s1.newNode p req group n x
          exec (.prefixInsert p req group) s = .next ((s2.pumpJobs p req).countServing p) ∧
          (∃ y, mfind (s2.part p).nodes n = some y ∧ y.refcnt = 1 ∧ y.key = groupKey ids ∧ y.tokens = ids ∧ y.depth = group ∧
            y.complete = false ∧ y.unreachable = false ∧ y.parent = nodeRef up) ∧
          (∃ j, s2.jobOf p req group = some j ∧ j.node = n ∧ j.flying = [] ∧ j.failed = false ∧
            ∀ layer i, (layer, i) ∈ j.todo ↔ layer < (s.part p).manifest.layers ∧ i < 4)))) ∧
    (∀ c, Admitted s c 0x5100 0x12 p → s.sealedFrom c p = false →
      exec (.makePrefixTreeUnreachable c p 1) s = .next ((s.counted.prefixUnreachable p).reply c 0)) ∧
    (∀ x, s0.req p req = some x → x.st = .ending → x.recorded = false → x.out = 0 → anyInflight (s0.part p) req x = false →
      Answers (.requestFree p req) s (fun u =>
        (∀ y, u.req p req = some y → y.recorded = true ∧ y.kv = [] ∧ y.frames = [] ∧ y.nodes = []) ∧
        ∀ r, r ≠ req → u.req p r = s0.req p r ∨ (u.req p r = none ∧ ∃ y, s0.req p r = some y ∧ y.recorded = true))) ∧
    (∀ x, s0.req p req = some x → x.out ≠ 0 → exec (.requestFree p req) s = .next s0)

/-- Submissions, prompts, cancels and the step boundary of the lead core (R233, R238, R239, R243, R244, R245, R253, spec/09_serving.md). -/
def Obligations.RequestServing : Prop :=
  ∀ (s : State) (p : Nat) (d : List Byte), p < 32 → d.length = 128 →
    let v := s.takeDesc p d
    let x := requestOf d s.clkTime
    (∀ r, v.submitCode p d x = 0 → v.freeReq p = some r → exec (.submit p d) s =
      .next (((v.modPart p (fun P => { P with reqs := mput P.reqs r x })).countServing p).readPrompt p r x)) ∧
    (v.submitCode p d x ≠ 0 → v.submitCode p d x ≠ 0x0101 →
      exec (.submit p d) s = .next (v.answer p x.tag (v.submitCode p d x) 0 s.clkTime)) ∧
    (v.submitCode p d x = 0x0101 → exec (.submit p d) s =
      .next ((v.odAdd 0x5000 0xB 1).answer p x.tag 0x0101 0 s.clkTime)) ∧
    (∀ r c ids (y : Request), c ≠ 0 → readCodeOk c = true → s.req p r = some y → y.st = .admitting →
      Answers (.promptReadComplete p r ids c) s (fun u => u.req p r = none)) ∧
    (∀ r (y : Request) ids i t, s.req p r = some y → y.st = .admitting → ids.length = y.promptLen →
      programReleased (s.part p) = true → swapping (s.part p) = false →
      findIdx (fun i => decide ((s.part p).manifest.vocab ≤ i)) ids 0 = some (i, t) →
      exec (.promptReadComplete p r ids 0) s = .next (s.refuseReq p r 0x0105 (min i 0xFFFF))) ∧
    (∀ r (y : Request) ids, s.req p r = some y → y.st = .admitting → ids.length = y.promptLen →
      programReleased (s.part p) = true → swapping (s.part p) = false → (∀ i ∈ ids, i < (s.part p).manifest.vocab) →
      exec (.promptReadComplete p r ids 0) s = .next (((s.modReq p r (fun x => { x with ids := ids })).showIds p r 0 ids).admitMatch p r)) ∧
    (fieldN d 0 1 = 0x41 → clearBits (fieldN d 1 1) 4 = 0 → zeroRange d 2 6 = true → zeroRange d 24 104 = true →
      exec (.cancel p d) s = .next (v.modPart p (fun P => { P with cancels := P.cancels ++ [(s.clkTime, d)] }))) ∧
    (fieldN d 0 1 ≠ 0x41 → exec (.cancel p d) s = .next (v.answer p (fieldN d 8 8) 0x0001 0 s.clkTime)) ∧
    (∀ tokens, s.leadRuns p = false → NoEffect (.stepBoundary p tokens) s) ∧
    (∀ tokens, programReleased (s.part p) = true → s.leadRuns p = true →
      Answers (.stepBoundary p tokens) s (fun u => (u.part p).step = ((s.part p).step + 1) % 2 ^ 32)) ∧
    (∀ (r : Nat) (y : Request), programReleased (s.part p) = true → s.leadRuns p = true → (s.part p).reqs = [(r, y)] →
      y.st = .waiting → y.endDl = 0 → y.out = 0 → y.endDue = none → (s.part p).endCode = 0 → (s.part p).cancels = [] → (s.vf p).descs = [] →
      1 ≤ s.odP 0x5000 4 p →
      let left := y.promptLen - y.preDone
      let b := if left ≤ 131072 then bucketOf left else 5
      Answers (.stepBoundary p []) s (fun u =>
        u.req p r = some { y with st := .prefill, out := 1, passAt := s.clkTime, passBucket := b } ∧
        (u.part p).contexts = [contextWord r (s.odEff 0x3101 1 p == 1) true y.preDone (min left (bucketSize b)) y.maskLo
          (((s.part p).step + 1) % 2 ^ 32)]))

/-- Stage, install, discard and abort as model commands of a partition (R265, R266, R267, R269, R273, spec/10_model_images.md). -/
def Obligations.ModelCommands : Prop :=
  ∀ (s : State) (c : Caller) (p : Nat) (cmd : List Byte), p < 32 →
    let v := s.counted
    let h := fieldN cmd 2 1 % 16
    (∀ a, ModelCommand s c p cmd 0x50 → (s.part p).cmd = .none → 64 ≤ fieldN cmd 16 8 → fieldN cmd 1 1 % 4 = 0 →
      (handleOf (s.part p) h).st ≠ 3 → (handleOf (s.part p) h).st ≠ 4 →
      ((handleOf (s.part p) h).st = 5 → s.odP 0x5200 7 p ≠ h) → s.sending p h = false → v.hostReadBar p = 0 →
      v.storeRange p h (fieldN cmd 16 8) = some a → Answers (.stage c p cmd) s (fun u =>
        let len := fieldN cmd 16 8
        let r := coverUnits (fieldN cmd 8 8) len
        handleOf (u.part p) h = { st := 1, addr := a, len := len } ∧
        (u.part p).cmd = .stage h 0 (fieldN cmd 8 8) len 0 none false ∧ u.odP 0x5200 2 p = 1 ∧ u.odP 0x5200 4 p = 0 ∧
        u.out = s.out ++ [Emission.hostRead (s.boundPort p) (p + 1) r.1 r.2 (.stage p), Emission.status c 0] ∧
        (∀ q, q ≠ p → u.part q = s.part q) ∧ u.tiles = s.tiles ∧ u.stk = s.stk)) ∧
    (let z := v.installCode p h false
     let o := v.installOrigin p h (fieldN cmd 4 2) (fieldN cmd 6 2)
     let fs := v.installFields p h o.1 o.2
     let eh := bit (fieldN cmd 1 1) 3
     ModelCommand s c p cmd 0x51 → (s.part p).cmd = .none →
      (z.2 = 0 → z.1.maintCode fs = 0 → (z.1.programCode p h o.1 o.2).2 = 0 → Answers (.install c p cmd) s (fun u =>
        (u.part p).cmd = .install h o.1 o.2 eh false 6 s.clkTime ∧ u.odP 0x5200 2 p = 2 ∧ u.odP 0x5200 4 p = 0 ∧
        Activity.mk (.install p) fs ∈ u.hub.acts ∧ u.out.getLast? = some (Emission.status c 0))) ∧
      (z.2 = 0 → z.1.maintCode fs = 0x0801 → Answers (.install c p cmd) s (fun u =>
        (u.part p).cmd = .install h o.1 o.2 eh false 4 s.clkTime ∧
        u.hub.queue = z.1.hub.queue ++ [Queued.mk (.install p) fs z.1.clkTime cmd] ∧
        u.out.getLast? = some (Emission.status c 0x0801))) ∧
      (z.2 ≠ 0 → exec (.install c p cmd) s = .next (z.1.reply c z.2))) ∧
    (ModelCommand s c p cmd 0x52 → (s.part p).cmd = .none →
      let st := (handleOf (s.part p) h).st
      (st ≠ 1 → st ≠ 3 → st ≠ 4 → s.sending p h = false → exec (.discard c p cmd) s =
        .next (((v.modHandle p h (fun _ => {})).odSetP 0x5200 3 p 0).reply c 0)) ∧
      (st = 1 ∨ st = 3 ∨ st = 4 → Refuses (.discard c p cmd) s c 0x0209)) ∧
    (ModelCommand s c p cmd 0x53 →
      (∀ g src source len got next bad, (s.part p).cmd = .stage g src source len got next bad →
        Answers (.abort c p cmd) s (fun u => (u.part p).cmd = .none ∧ handleOf (u.part p) g = {} ∧
          u.odP 0x5200 2 p = 0 ∧ u.odP 0x5200 3 p = 0x020D ∧ u.out.getLast? = some (Emission.status c 0))) ∧
      ((s.part p).cmd = .none → Refuses (.abort c p cmd) s c 0x0009) ∧
      (∀ g ox oy eh ev n at', (s.part p).cmd = .install g ox oy eh ev n at' → Refuses (.abort c p cmd) s c 0x0005)) ∧
    ((s.part p).cmd ≠ .none → (ModelCommand s c p cmd 0x50 → Refuses (.stage c p cmd) s c 0x0005) ∧
      (ModelCommand s c p cmd 0x51 → Refuses (.install c p cmd) s c 0x0005) ∧
      (ModelCommand s c p cmd 0x52 → Refuses (.discard c p cmd) s c 0x0005)) ∧
    (Admitted s c 0x5200 1 p → (cmd.length ≠ 64 → Refuses (.stage c p cmd) s c 0x0701) ∧
      (cmd.length = 64 → fieldN cmd 0 1 = 0x50 → modelReserved cmd = true → Refuses (.stage c p cmd) s c 0x0002) ∧
      (cmd.length = 64 → fieldN cmd 0 1 = 0x50 → modelReserved cmd = false → v.sealedFrom c p = false →
        v.partState p ≠ 1 → Refuses (.stage c p cmd) s c 0x000B))

/-- Bytes of a stage, the streaming of an install, its completion, and rejuvenation (R86, R267, R269, R271, R272, R277, spec/10_model_images.md). -/
def Obligations.ModelLoading : Prop :=
  ∀ (s : State) (p : Nat), p < 32 →
    (∀ h src source len got next bad off bytes, (s.part p).cmd = .stage h src source len got next bad →
      (off < len → (src ≠ 0 ∨ off = got) → exec (.stageDataArrival p off bytes) s = .next (s.stageBytes p off bytes)) ∧
      (src = 0 → off ≠ got → NoEffect (.stageDataArrival p off bytes) s)) ∧
    (∀ h source len got bytes off, (s.part p).cmd = .stage h 0 source len got none false → off = got → 64 ≤ off →
      off + bytes.length < len →
      let z := s.stackWrite p ((handleOf (s.part p) h).addr + off) bytes []
      z.2.2 = 0 → Answers (.stageDataArrival p off bytes) s (fun u =>
        (u.part p).cmd = .stage h 0 source len (got + bytes.length) none false ∧ u.odP 0x5200 4 p = got + bytes.length ∧
        u.stk = z.1.stk ∧ u.tiles = z.1.tiles)) ∧
    (∀ h ox oy eh ev since failed, (s.part p).cmd = .install h ox oy eh ev 6 since →
      ((s.part p).reqs ≠ [] → NoEffect (.installResume p failed) s) ∧
      ((s.part p).reqs = [] → Answers (.installResume p failed) s (fun u =>
        (u.part p).cmd = .none ∨ (u.part p).cmd = .install h ox oy eh ev 9 since))) ∧
    (∀ h ox oy eh since failed, (s.part p).cmd = .install h ox oy eh false 9 since →
      let s1 := s.rewriteFailed p h (s.frameOf p h ox oy) failed
      ((s1.part p).rowsBad ≠ [] → s1.odEff 0x5200 5 p = 1 → exec (.installStreamDone p failed) s =
        .next ((s1.odSetP 0x5200 9 p (s1.part p).rowsBad.length).endModelCmd p 0x020B)) ∧
      ((s1.part p).rowsBad = [] ∨ s1.odEff 0x5200 5 p ≠ 1 → Answers (.installStreamDone p failed) s (fun u =>
        (u.part p).cmd = .none ∧
        (handleOf (u.part p) h).st = (if (handleOf (u.part p) h).kind = 1 then 4 else 3) ∧
        (handleOf (u.part p) h).installed = s1.clkTime))) ∧
    (∀ (t : TileId) (a row off fmt : Nat) (d : List Byte) (o : RowOutcome), tileOk t = true → a < 192 →
      s.partOfTile t = some p → ((t, a) ∈ (s.part p).baseArrays ∨ (t, a) ∈ (s.part p).addArrays) →
      let from0 := if (s.part p).addArrays.contains (t, a) then s.odP 0x5200 8 p else s.odP 0x5200 7 p
      let st := (handleOf (s.part p) from0).st
      let skipped := fun u : State => (u.odAdd 0x3000 0xF 1).log { rule := 86, sev := 1, part := p, data := [(s.tile t).cc.stage] }
      let T := s.tile t
      let x := T.cb.arr a
      let busy := T.quiet || !T.cb.boundary || !arrayIdle x || !writeFree T.cb || x.burst.isSome || x.closing.isSome || x.failed ||
        refreshWaits T.cb || s.calibrationWaits t || s.hub.away || s.activating || s.odP 0x7000 7 p != 0
      let read := s.meetRange p from0 off 256
      (st ≠ 3 → st ≠ 4 → exec (.rejuvenation t a row o) s = .next (if s.firstOfStage p t a row then skipped s else s)) ∧
      (st = 3 ∨ st = 4 → s.storedRow p t a row = some (off, fmt, d) →
        (busy = true → NoEffect (.rejuvenation t a row o) s) ∧
        (busy = false → read.2 ≠ 0 → exec (.rejuvenation t a row o) s = .next (skipped read.1)) ∧
        (busy = false → read.2 = 0 → s.rejuvenating (fieldOfTile t) = none → NoEffect (.rejuvenation t a row o) s) ∧
        (∀ s1, busy = false → read.2 = 0 → s.rejuvenating (fieldOfTile t) = some s1 → Answers (.rejuvenation t a row o) s (fun u =>
          (u.tile t).cb.cells = (putRow T.cb a row (withOff fmt (sentLevels fmt d).1 o.offLevel)).cells ∧
          ((u.tile t).cb.arr a).wvalid = x.wvalid ∧ ((u.tile t).cb.arr a).sums = x.sums ∧
          ∀ t', tileOk t' = true → t' ≠ t → u.tile t' = s.tile t'))))

/-- Version, enable, doorbells, submission fetch and interrupt coalescing of a bound VF (R134, R282, R284, R285, R286, R288, spec/11_host_pcie.md). -/
def Obligations.HostRings : Prop :=
  ∀ (s : State) (port : Port) (fn : Nat) (v : Word), 1 ≤ fn → fn ≤ 32 →
    let f := s.fn port fn
    let ver := min (v.toNat / 65536) (s.odG 0x1010 1)
    let violates (c : Instr) (code off : Nat) : Prop := Answers c s (fun u => u.out = s.out ++ signalOut port fn f 2 ∧
      u.fn port fn = violated f fn code v.toNat off ∧
      u.odG 0x6000 (6 + portNum port) = s.odG 0x6000 (6 + portNum port) + 1)
    (s.bound port fn = true →
      (f.en = false → v.toNat % 65536 ≤ ver → s.odG 0x1011 1 ≤ ver → exec (.hqVerWrite port fn v) s =
        .next ((s.modFn port fn (fun _ => { f with neg := ver, verResult := 0 })).odSet 0x6002 fn ver)) ∧
      (f.en = false → ver < v.toNat % 65536 ∨ ver < s.odG 0x1011 1 → exec (.hqVerWrite port fn v) s =
        .next ((s.modFn port fn (fun _ => { f with neg := 0, verResult := 0x0008 })).odSet 0x6002 fn 0)) ∧
      (f.en = true → SetsFn (.hqVerWrite port fn v) s port fn { f with cfgErr := true }) ∧
      (v.toNat % 2 = 1 → f.en = false → s.enableFails port fn = none → f.held = [] →
        SetsFn (.ringEnable port fn v) s port fn
          { f with en := true, fetched := f.sqTail, taken := f.sqTail, cqTail := f.cqHead, descs := [], reading := none,
                   blocked := false, fetching := false }) ∧
      (v.toNat % 2 = 1 → f.en = false → f.neg = 0 → SetsFn (.ringEnable port fn v) s port fn
        { f with cfgErr := true, violStatus := 0x0A08, violValue := v.toNat % 65536, vaddr := 0 }) ∧
      (v.toNat % 2 = 0 → SetsFn (.ringEnable port fn v) s port fn { f with en := false, fetching := false }) ∧
      ((v.toNat % 65536 + 65536 - f.taken) % 65536 ≤ 2 ^ f.sqSize → SetsFn (.sqTailWrite port fn v) s port fn
        (let g := { f with sqTail := v.toNat % 65536, blocked := false }
         if f.en = true ∧ f.hi ≤ sqWaiting g then { g with fetching := true } else g)) ∧
      (2 ^ f.sqSize < (v.toNat % 65536 + 65536 - f.taken) % 65536 → violates (.sqTailWrite port fn v) 0x0A05 0x38) ∧
      (f.held = [] → (f.cqTail + 65536 - v.toNat % 65536) % 65536 ≤ 2 ^ f.cqSize →
        SetsFn (.cqHeadWrite port fn v) s port fn { f with cqHead := v.toNat % 65536 }) ∧
      (2 ^ f.cqSize < (f.cqTail + 65536 - v.toNat % 65536) % 65536 →
        violates (.cqHeadWrite port fn v) 0x0A05 0x3C) ∧
      (∀ b, f.held = [b] → s.ringsMove port fn = true → (f.cqTail + 65536 - v.toNat % 65536) % 65536 < 2 ^ f.cqSize →
        f.coalCnt ≤ f.unsignalled + 1 → Answers (.cqHeadWrite port fn v) s (fun u =>
          (u.fn port fn).held = [] ∧ (u.fn port fn).unsignalled = 0 ∧ (u.fn port fn).cqTail = (f.cqTail + 1) % 65536 ∧
          u.out = s.out ++ [Emission.hostWrite port fn (f.cqBase + f.cqTail % 2 ^ f.cqSize * 64) b,
            Emission.hostWrite port fn f.shadow (leBytes 2 f.fetched ++ leBytes 2 f.taken ++
              leBytes 2 ((f.cqTail + 1) % 65536) ++ List.replicate 58 0)] ++ signalOut port fn f 0)) ∧
      (let n := fetchCount f
       n ≤ 8 ∧ n ≤ sqWaiting f ∧ f.fetched % 2 ^ f.sqSize + n ≤ 2 ^ f.sqSize ∧
       (s.ringsMove port fn = true → f.fetching = true → f.blocked = false → f.reading = none → 0 < n → s.standby = false →
         exec (.submissionFetch port fn) s = .next ((s.emit (.hostRead port fn (f.sqBase + f.fetched % 2 ^ f.sqSize * 128)
           (n * 128) (.fetch fn))).modFn port fn (fun _ => { f with reading := some n }))) ∧
       (f.blocked = true ∨ f.reading ≠ none ∨ s.standby = true ∨ f.fetching = false → NoEffect (.submissionFetch port fn) s)) ∧
      (f.en = true → 1 ≤ sqWaiting f → SetsFn (.submissionFetchTimeout port fn) s port fn { f with fetching := true }) ∧
      (0 < f.unsignalled → f.coalTime ≠ 0 → Answers (.interruptCoalesceExpiry port fn) s (fun u =>
        u.fn port fn = signalled { f with unsignalled := 0 } 0 ∧ u.out = s.out ++ signalOut port fn f 0 ∧
        u = ({ s with out := u.out }).modFn port fn (fun _ => u.fn port fn)))) ∧
    (s.bound port fn = false → violates (.hqVerWrite port fn v) 0x0A04 0x04 ∧ violates (.ringEnable port fn v) 0x0A04 0x0C ∧
      violates (.sqTailWrite port fn v) 0x0A04 0x38 ∧ violates (.cqHeadWrite port fn v) 0x0A04 0x3C) ∧
    NoEffect (.hqVerWrite port 0 v) s ∧ NoEffect (.ringEnable port 0 v) s ∧ NoEffect (.sqTailWrite port 0 v) s ∧
    NoEffect (.cqHeadWrite port 0 v) s

/-- Host reads that complete, fail, time out and are retried, and the loss of a secure stream (R287, R288, R291, R292, spec/11_host_pcie.md). -/
def Obligations.HostReads : Prop :=
  ∀ (s : State) (port : Port) (fn n : Nat), s.bound port fn = true → fn ≤ 32 →
    let f := s.fn port fn
    let use := HostReadUse.fetch fn
    (f.reading = some n →
      (∀ b, Answers (.hostReadCompletion port use (.data b)) s (fun u =>
        (u.fn port fn).fetched = (f.fetched + n) % 65536 ∧ (u.fn port fn).reading = none ∧
        (u.fn port fn).descs = f.descs ++ (List.range n).map (fun i => sliceB b (128 * i) 128) ∧
        (u.fn port fn).taken = f.taken ∧
        (u.fn port fn).cqTail = f.cqTail ∧ u.out = s.out)) ∧
      (∀ r, (r = .unsupported ∨ r = .aborted ∨ r = .poisoned) → Answers (.hostReadCompletion port use r) s (fun u =>
        (u.fn port fn).hostErr = true ∧ (u.fn port fn).blocked = true ∧ (u.fn port fn).reading = none ∧
        (u.fn port fn).fetched = f.fetched ∧ (u.fn port fn).descs = f.descs ∧ u.odG 0x6000 8 = s.odG 0x6000 8 + 1 ∧
        u.odG 0x6000 (6 + portNum port) = s.odG 0x6000 (6 + portNum port) + 1 ∧ (u.fn port fn).viol = true ∧
        (u.fn port fn).violStatus = 0x0A02 ∧ (u.fn port fn).vaddr = f.sqBase + f.fetched % 2 ^ f.sqSize * 128 ∧
        u.out = s.out ++ signalOut port fn f 2)) ∧
      (use ∉ f.retrying → SetsFn (.hostReadTimeout port use) s port fn { f with retrying := f.retrying ++ [use] } ∧
        NoEffect (.hostReadRetry port use) s) ∧
      (use ∈ f.retrying → exec (.hostReadRetry port use) s = .next (s.emit
          (.hostRead port fn (f.sqBase + f.fetched % 2 ^ f.sqSize * 128) (n * 128) use)) ∧
        Answers (.hostReadTimeout port use) s (fun u => (u.fn port fn).hostErr = true ∧ (u.fn port fn).reading = none ∧
          (u.fn port fn).blocked = true ∧ (u.fn port fn).fetched = f.fetched))) ∧
    (f.reading = none → (∀ r, Answers (.hostReadCompletion port use r) s (fun u => u.fn port fn = { f with aer := setBit f.aer 16 true } ∧
        u.odG 0x6000 (6 + portNum port) = s.odG 0x6000 (6 + portNum port) + 1 ∧ u.out = s.out ∧ u.parts = s.parts ∧
        u.tiles = s.tiles ∧ u.stk = s.stk)) ∧
      NoEffect (.hostReadTimeout port use) s ∧ NoEffect (.hostReadRetry port use) s) ∧
    (1 ≤ fn → ∀ r x, s.req (fn - 1) r = some x → x.st = .admitting → x.fromStack = false →
      Answers (.hostReadCompletion port (.prompt (fn - 1) r) .poisoned) s (fun u => u.req (fn - 1) r = none)) ∧
    (1 ≤ fn → ∀ h source len got next bad, (s.part (fn - 1)).cmd = .stage h 0 source len got next bad →
      Answers (.hostReadCompletion port (.stage (fn - 1)) .aborted) s (fun u =>
        (u.part (fn - 1)).cmd = .none ∧ u.odP 0x5200 3 (fn - 1) = 0x0A02)) ∧
    (f.ideSet = none → NoEffect (.ideStreamFailure port fn) s) ∧
    (f.ideSet ≠ none → Answers (.ideStreamFailure port fn) s (fun u => (u.fn port fn).ideSet = none ∧
      (u.fn port fn).ideErr = true ∧ (u.fn port fn).reading = none ∧ u.ringsMove port fn = false ∧ u.odG 0x6000 9 = s.odG 0x6000 9 + 1))

/-- The device control lock of the two PFs: acquire, renew, release, warning and expiry (R290, spec/11_host_pcie.md). -/
def Obligations.ControlLock : Prop :=
  ∀ (s : State) (port : Port),
    let me := 1 + portNum port
    let holder := s.hub.lockHolder
    (holder = 0 ∨ holder = me → Answers (.lockAcquire port) s (fun u => u.hub.lockHolder = me ∧
      u.hub.leaseEnd = s.clkTime + 10000 * 1300000 ∧ u.hub.leaseWarned = false ∧ (u.fn port 0).dclResult = 0 ∧
      u.odG 0x6000 0xA = s.odG 0x6000 0xA + (if holder = 0 then 1 else 0) ∧ u.odG 0x6000 0xC = me ∧ u.parts = s.parts)) ∧
    (holder ≠ 0 → holder ≠ me →
      SetsFn (.lockAcquire port) s port 0 { s.fn port 0 with dclResult := 0x0A03 }) ∧
    (holder = me → Answers (.lockRelease port) s (fun u => u.hub.lockHolder = 0 ∧ u.odG 0x6000 0xC = 0 ∧
      (u.fn port 0).dclResult = 0)) ∧
    (holder ≠ me → SetsFn (.lockRelease port) s port 0 { s.fn port 0 with dclResult := 0x0A03 }) ∧
    (s.hub.leaseWarned = false → (holder = me → Answers .leaseWarning s (fun u =>
        u.hub = { s.hub with leaseWarned := true } ∧ u.out = s.out ++ signalOut port 0 (s.fn port 0) 1 ∧
        u.fn port 0 = signalled (s.fn port 0) 1 ∧ u.parts = s.parts ∧ u.od = s.od)) ∧
      (holder = 3 → exec .leaseWarning s = .next { s with hub := { s.hub with leaseWarned := true } })) ∧
    (holder = 0 ∨ s.hub.leaseWarned = true → NoEffect .leaseWarning s) ∧
    (holder ≠ 0 → Answers .leaseExpiry s (fun u => u.hub.lockHolder = 0 ∧ u.odG 0x6000 0xC = 0 ∧
      u.odG 0x6000 0xB = s.odG 0x6000 0xB + 1)) ∧
    (holder = 0 → NoEffect .leaseExpiry s)

/-- Power states, bus mastering, BAR misuse, resets, links and configuration of a function (R280, R281, R282, R292, R293, R397, R401, spec/11_host_pcie.md). -/
def Obligations.FunctionsAndLinks : Prop :=
  ∀ (s : State) (port : Port) (fn : Nat), fn ≤ 32 →
    let f := s.fn port fn
    let defaults (g : Function) : Function := { ideKeys := g.ideKeys, ideSet := g.ideSet, ideBroken := g.ideBroken }
    SetsFn (.d3hotEntry port fn) s port fn { f with d3hot := true } ∧
    (f.held = [] → SetsFn (.d0Entry port fn) s port fn { f with d3hot := false } ∧
      SetsFn (.busMasterDisable port fn true) s port fn { f with busMaster := true }) ∧
    (f.en = false ∨ f.busMaster = false → SetsFn (.busMasterDisable port fn false) s port fn { f with busMaster := false }) ∧
    (f.en = true → f.busMaster = true → Answers (.busMasterDisable port fn false) s (fun u =>
      u.fn port fn = violated { f with busMaster := false } fn 0x0A0A 0 0 ∧
      u.odG 0x6000 (6 + portNum port) = s.odG 0x6000 (6 + portNum port) + 1)) ∧
    (∀ kind off v, kind ≠ .unboundVf ∨ (fn ≠ 0 ∧ s.bound port fn = false) →
      Answers (.barAccessViolation port fn kind off v) s (fun u =>
        let code := if fn ≠ 0 ∧ s.bound port fn = false then 0x0A04 else 0x0A09
        u.fn port fn = (match kind with
          | .malformedTlp => { f with aer := setBit f.aer 18 true }
          | .poisonedWrite => violated { f with aer := setBit f.aer 12 true } fn code v off
          | _ => violated f fn code v off) ∧
        u.odG 0x6000 (6 + portNum port) = s.odG 0x6000 (6 + portNum port) + 1 ∧ u.tiles = s.tiles ∧ u.parts = s.parts)) ∧
    (s.bound port fn = false → Answers (.functionLevelReset port fn) s (fun u => u.fn port fn = defaults f ∧
      (∀ q n, n < 64 → (q ≠ port ∨ n ≠ fn) → u.fn q n = s.fn q n) ∧ u.parts = s.parts ∧
      u.hub.lockHolder = (if fn = 0 ∧ s.hub.lockHolder = 1 + portNum port then 0 else s.hub.lockHolder))) ∧
    (1 ≤ fn → s.bound port fn = true → s.hub.away = false → (s.partState (fn - 1) = 1 ∨ s.partState (fn - 1) = 2) →
      Answers (.functionLevelReset port fn) s (fun u => (u.fn port fn).en = false ∧ (u.fn port fn).neg = 0 ∧
        (u.fn port fn).held = [] ∧ (u.part (fn - 1)).program = none ∧ (u.part (fn - 1)).claim = none ∧
        u.partState (fn - 1) = (if (s.part (fn - 1)).claim.isSome then 4 else 1))) ∧
    Answers (.perst port) s (fun u => (∀ n, n ≤ 32 → u.fn port n = {}) ∧ (s.portParts port = [] → u.odG 0x6000 (4 + portNum port) = 0 ∧
        (s.hub.lockHolder = 1 + portNum port → u.hub.lockHolder = 0))) ∧
    (∀ rate width, exec (.pcieLinkUp port false rate width) s = .next (s.odSet 0x6000 (4 + portNum port) 0) ∧
      Answers (.pcieLinkUp port true rate width) s (fun u =>
        u.odG 0x6000 (4 + portNum port) = width % 256 * 256 + rate % 256 ∧ u.fn port 0 = signalled (s.fn port 0) 2 ∧
        u.out = s.out ++ signalOut port 0 (s.fn port 0) 2 ∧ u.parts = s.parts)) ∧
    (s.configValue port fn 0 = (if fn = 0 then 0xA640 else 0xA641) * 65536 + s.odG 0x6000 1 % 65536 ∧
      s.configValue port fn 8 = 0x120000 * 256 + s.stepping ∧ s.configValue port fn 0x10 % 0x4000 = 4 ∧
      ∀ off, 0x18 ≤ off → off ≤ 0x24 → s.configValue port fn off = 0) ∧
    (∀ off, s.hub.vstby = true →
      (s.odG 0x7102 1 = 0 → exec (.configurationRequest port fn off) s = .next (s.emit (.cfg port fn off none))) ∧
      (s.odG 0x7102 1 = 1 → s.hub.startDue = none → exec (.configurationRequest port fn off) s =
        .next (s.emit (.cfg port fn off (some (s.configValue port fn off))))))

/-- NEGOTIATE, READ, WRITE, LIST and LOCK of the dictionary, and the expiry of a peer (R18, R380, R381, R382, R383, R384, R385, R386, R387, R392, spec/16_management.md). -/
def Obligations.DictionaryRequests : Prop :=
  ∀ (s : State) (c : Caller) (m : DictMsg) (env : CmdEnv), startOk env.start = true → Asks s c m →
    let s1 := s.taken c
    let inForce := s.versionOf c = some m.pver
    let part := targetPart c m
    let own := foreign c m.index m.sub part = false
    (let v := min (fieldN m.value 0 2) (s.odG 0x1010 2)
     formBad m = false → m.pver = 0 → m.index = 0 → m.sub = 0 → m.type = 0 → m.ovl = 0 → m.offset = 0 → m.overlay = false →
      m.len = 4 →
      (fieldN m.value 2 2 ≤ v → s.odG 0x1011 2 ≤ v → (∀ a p, c = .net a p → s.hub.peers.length < 16) →
        Responds (.negotiate c m) s c m 0 (leBytes 2 v) 2 false (fun u => u.versionOf c = some v ∧
          (∀ a p, c = .net a p → (a, p) ∈ u.hub.peers) ∧ u.od = (s1.odAdd 0x1100 5 1).od)) ∧
      (v < fieldN m.value 2 2 ∨ v < s.odG 0x1011 2 → Responds (.negotiate c m) s c m 0x0008 [] 0 false (fun u =>
        u.hub.versions = s.hub.versions ∧ u.hub.peers = s.hub.peers))) ∧
    (formBad m = true → Responds (.read c m) s c m 0x0002 [] 0 false (fun u => u.odG 0x1100 6 = s.odG 0x1100 6 + 1)) ∧
    (formBad m = false → m.overlay = false → s1.accessCode c m false = 0 →
      (s.versionOf c ≠ some m.pver → Responds (.read c m) s c m 0x0702 [] 0 false (fun u => u.parts = s.parts)) ∧
      (inForce → 0 < m.sub → ∀ r, odFind m.index m.sub = some r →
        (s1.gate c m.index m.sub part false ≠ 0 →
          Responds (.read c m) s c m (s1.gate c m.index m.sub part false) [] 0 false (fun u => u.parts = s.parts)) ∧
        (∀ v, s1.gate c m.index m.sub part false = 0 → own → isText r.ty = false → (m.type = 0 ∨ m.type = typeCode r.ty) →
          r.idx ≠ 0x1110 → r.idx ≠ 0x7020 → s1.entryNum r.idx m.sub (if r.kind = .perPart then part else 0xFF) = some v →
          Responds (.read c m) s c m 0 (leBytes (typeSize r.ty) v) (typeSize r.ty) false (fun u =>
            u.parts = s.parts ∧ u.tiles = s.tiles ∧ u.od = (s1.odAdd 0x1100 5 1).od)) ∧
        (s1.gate c m.index m.sub part true ≠ 0 →
          isFormCode (State.writeEntry c r m.sub part m.offset m.type m.value env s1).2 = false →
          Responds (.write c m env) s c m (s1.gate c m.index m.sub part true) [] 0 false (fun u => u.parts = s.parts)) ∧
        (s1.gate c m.index m.sub part true = 0 → own →
          (m.type ≠ typeCode r.ty → isCommand r m.sub = false → Responds (.write c m env) s c m 0x0701 [] 0 false (fun u => u.parts = s.parts)) ∧
          (m.type = typeCode r.ty → isText r.ty = false → m.value.length = typeSize r.ty → isCommand r m.sub = false →
            (inRange r (leNat m.value) = false →
              Responds (.write c m env) s c m 0x0003 [] 0 false (fun u => u.parts = s.parts)) ∧
            (inRange r (leNat m.value) = true → r.idx = m.index → (m.sub < 256) → part < 256 →
              m.index ∉ [0x1210, 0x3101, 0x7000, 0x7010, 0x7020, 0x5000, 0x3000, 0x6100, 0x1100, 0x1130, 0x1200, 0x7100] →
              Responds (.write c m env) s c m 0 [] (typeSize r.ty) (s1.shadowed r m.sub part) (fun u =>
                u.odP m.index m.sub (if r.kind = .perPart then part else 0xFF) = leNat m.value ∧ u.tiles = s.tiles))) ∧
          (m.type = typeCode r.ty → isCommand r m.sub = true → (isText r.ty = true ∨ m.value.length = typeSize r.ty) →
            let z := s1.writeCommand c r.idx m.sub part m.offset m.value env
            z.2 ≠ 0 → Responds (.write c m env) s c m z.2 [] 0 false (fun u =>
              if isFormCode z.2 = true then u.parts = s.parts ∧ u.tiles = s.tiles
              else u.parts = z.1.parts ∧ u.tiles = z.1.tiles))))) ∧
    (formBad m = false → s1.accessCode c m true = 0 → inForce → (∀ p, callerPart c = some p → part = p) →
      let b := ((s1.listRecords c m.index m.sub part).take 509).flatten
      Responds (.list c m) s c m 0 b b.length false (fun u => u.parts = s.parts)) ∧
    (∀ a p, c = .net a p → formBad m = false → m.index = 0 → m.sub = 0 → m.ovl = 0 → m.offset = 0 → m.part = 0xFF →
      m.overlay = false → inForce → m.type = 0x02 → m.len = 1 →
      let mine := s.hub.lockHolder = 3 ∧ s.hub.lockPeer = (a, p)
      (leNat m.value = 1 → s.hub.lockHolder = 0 ∨ mine → Responds (.networkLockAcquire c m) s c m 0 [] 0 false (fun u =>
        u.hub.lockHolder = 3 ∧ u.hub.lockPeer = (a, p) ∧ u.hub.leaseEnd = s.clkTime + 10000 * 1300000)) ∧
      (leNat m.value = 1 → s.hub.lockHolder ≠ 0 → ¬mine → Responds (.networkLockAcquire c m) s c m 0x0A03 [] 0 false (fun u =>
        u.hub.lockHolder = s.hub.lockHolder ∧ u.hub.leaseEnd = s.hub.leaseEnd)) ∧
      (leNat m.value = 2 → mine → Responds (.networkLockRelease c m) s c m 0 [] 0 false (fun u => u.hub.lockHolder = 0)) ∧
      (leNat m.value = 2 → ¬mine → Responds (.networkLockRelease c m) s c m 0x0A03 [] 0 false (fun u =>
        u.hub.lockHolder = s.hub.lockHolder))) ∧
    ((∀ a p, c ≠ .net a p) → Responds (.networkLockAcquire c m) s c m 0x0001 [] 0 false (fun u => u.hub.lockHolder = s.hub.lockHolder))

/-- Callers that are not served, repeated requests, peers that expire, the mailbox and factory configuration (R289, R382, R385, R386, R391, R392, spec/16_management.md, spec/11_host_pcie.md). -/
def Obligations.DictionaryCallers : Prop :=
  ∀ (s : State) (c : Caller) (m : DictMsg) (env : CmdEnv), startOk env.start = true → callerOk c = true →
    (s.mayCall c = false → NoEffect (.negotiate c m) s ∧ NoEffect (.read c m) s ∧ NoEffect (.write c m env) s ∧
      NoEffect (.list c m) s ∧ NoEffect (.networkLockAcquire c m) s ∧ NoEffect (.networkLockRelease c m) s) ∧
    (∀ op r, s.mayCall c = true → (∀ a p, c ≠ .net a p) → m.len = m.value.length → m.value.length ≤ 4072 →
      s.hub.kept.find? (fun e => e.1 == c && e.2.1 == m.seq) = some (c, m.seq, op, r) →
      Answers (.read c m) s (fun u => answerTo c op r ∈ u.out ∧ u.parts = s.parts ∧ u.od = s.od ∧ u.hub = s.hub) ∧
      Answers (.write c m env) s (fun u => answerTo c op r ∈ u.out ∧ u.parts = s.parts ∧ u.od = s.od ∧ u.hub = s.hub)) ∧
    (∀ a p, s.hub.away = false → (a, p) ∈ s.hub.peers → Answers (.networkPeerExpiry a p) s (fun u =>
      (a, p) ∉ u.hub.peers ∧ u.versionOf (.net a p) = none ∧ (∀ e ∈ u.hub.kept, e.1 ≠ .net a p) ∧
      (∀ q, q ≠ (a, p) → (q ∈ u.hub.peers ↔ q ∈ s.hub.peers)))) ∧
    (∀ a p, (a, p) ∉ s.hub.peers → NoEffect (.networkPeerExpiry a p) s) ∧
    (∀ port fn (v : Word), fn ≤ 32 → fn = 0 ∨ s.bound port fn = true →
      let f := s.fn port fn
      let len := v.toNat % 8192
      let go := bit v.toNat 31 = true
      (¬go → SetsFn (.mailboxGo port fn v env) s port fn { f with mbLen := len }) ∧
      (go → f.mbBusy = true → SetsFn (.mailboxGo port fn v env) s port fn { f with mbErr := 0x0A07 }) ∧
      (go → f.mbBusy = false → len = 0 ∨ 4096 < len →
        SetsFn (.mailboxGo port fn v env) s port fn { f with mbLen := len, mbDone := false, mbErr := 0x0002 }) ∧
      (let s1 := s.modFn port fn (fun _ => { f with mbLen := len, mbBusy := true, mbDone := false, mbErr := 0 })
       go → f.mbBusy = false → 0 < len → len ≤ 4096 →
        (s.serving = false → exec (.mailboxGo port fn v env) s = .next s1) ∧
        (s.serving = true → 24 ≤ len → exec (.mailboxGo port fn v env) s =
          (let b := mread 0 f.mbReq 0 len
           .next (s1.request (if fn = 0 then .pf port else .vf port fn) (fieldN b 2 1) (msgOf b) env))))) ∧
    (∀ v, Admitted s c 0x1230 1 0xFF →
      (v ≠ 0xFAC7 → Refuses (.restoreFactory c v) s c 0x0003) ∧
      (v = 0xFAC7 → (∃ p, p < 32 ∧ s.isSealed p = true) → Refuses (.restoreFactory c v) s c 0x0602) ∧
      (v = 0xFAC7 → (∀ p, p < 32 → s.isSealed p = false) → s.activating = false →
        Answers (.restoreFactory c v) s (fun u => u.odG 0x1230 2 = s.odG 0x1230 2 + 1 ∧ u.hub.deltas = factoryDeltas ∧
          (∀ t a, ((u.tile t).cb.arr a).delta = [] ∧ ((u.tile t).cb.arr a).saved = []) ∧
          (∀ idx sub r, odFind idx sub = some r → r.pers = .s ∨ r.pers = .u → sub < 256 → u.odG idx sub = odDefault idx sub) ∧
          u.out = s.out ++ [Emission.status c 0])))

/-- Register writes by a program, through the management path, and to BAR0 of a function (R9, R282, R284, R288, R292, spec/11_host_pcie.md, spec/95_what_each_step_holds.md). -/
def Obligations.RegisterWrites : Prop :=
  ∀ (s : State) (t : TileId) (port : Port) (fn off : Nat) (v : Word), tileOk t = true → fn ≤ 32 →
    let f := s.fn port fn
    let bar := Instr.registerWrite (.bar port fn off) v
    exec (.registerWrite (.core t off) v) s = .next (s.writeTileReg t off v false) ∧
    (off ≠ 0x008 → exec (.registerWrite (.mgmt t off) v) s = .next (s.writeTileReg t off v true)) ∧
    (∀ o v' w, o < 0x1000 → (s.writeTileReg t (0x1000 + o) v' w).tiles = (s.modCb t (fun cb => writeCb cb o v')).tiles) ∧
    (fn ≠ 0 → s.bound port fn = true →
      (off = 0x10 → f.en = false → SetsFn bar s port fn { f with sqBase := f.sqBase / 2 ^ 32 * 2 ^ 32 + v.toNat }) ∧
      (off = 0x14 → f.en = false → SetsFn bar s port fn { f with sqBase := f.sqBase % 2 ^ 32 + v.toNat * 2 ^ 32 }) ∧
      (off = 0x18 → f.en = false →
        SetsFn bar s port fn { f with sqSize := v.toNat / 2 ^ 27, hi := v.toNat / 256 % 256, lo := v.toNat % 256 }) ∧
      (off = 0x1C → f.en = false → SetsFn bar s port fn { f with timeout := v.toNat % 65536 }) ∧
      (off = 0x28 → f.en = false → SetsFn bar s port fn { f with cqSize := v.toNat / 2 ^ 27, coalCnt := v.toNat % 256 }) ∧
      (off = 0x2C → SetsFn bar s port fn { f with coalTime := v.toNat % 65536 }) ∧
      (off ∈ [0x10, 0x14, 0x18, 0x1C, 0x20, 0x24, 0x28, 0x30, 0x34] → f.en = true →
        Answers bar s (fun u => u.fn port fn = { f with cfgErr := true } ∧ u.out = s.out ∧
          u.odG 0x6000 (6 + portNum port) = s.odG 0x6000 (6 + portNum port) + 1)) ∧
      (off = 0x08 → Answers bar s (fun u =>
        ((u.fn port fn).viol = (f.viol && !v.getLsbD 6)) ∧ ((u.fn port fn).cfgErr = (f.cfgErr && !v.getLsbD 5)) ∧
        ((u.fn port fn).hostErr = (f.hostErr && !v.getLsbD 4)) ∧ ((u.fn port fn).ideErr = (f.ideErr && !v.getLsbD 3)) ∧
        (u.fn port fn).en = f.en)) ∧
      (off ∈ [0x00, 0x40, 0x44, 0x48, 0x4C, 0x50] → Answers bar s (fun u => u.fn port fn = f ∧ u.out = s.out))) ∧
    (fn = 0 ∨ s.bound port fn = true →
      (0x1000 ≤ off → off < 0x2000 → off % 4 = 0 → SetsFn bar s port fn
        { f with mbReq := mwrite 0 f.mbReq (off - 0x1000) (leBytes 4 v.toNat) }) ∧
      (∀ low high, 0x1000 ≤ off → off < 0x2000 → off % 8 = 0 →
        SetsFn (.registerWrite (.bar64 port fn off high) low) s port fn
          { f with mbReq := mwrite 0 f.mbReq (off - 0x1000) (leBytes 4 low.toNat ++ leBytes 4 high.toNat) }) ∧
      (let o := off - 0x3000
       let g := { f with msix := mset 0 f.msix o (v ^^^ msixReset o) }
       0x3000 ≤ off → off < 0x3800 → off % 4 = 0 → msixWord g o = v ∧
        ((bit g.pba (o / 16) && !vectorMasked g (o / 16)) = false → SetsFn bar s port fn g) ∧
        ((bit g.pba (o / 16) && !vectorMasked g (o / 16)) = true → exec bar s =
          .next ((s.modFn port fn (fun _ => { g with pba := setBit g.pba (o / 16) false })).emit (.msix port fn (o / 16))))) ∧
      (off % 4 ≠ 0 → Answers bar s (fun u => (u.fn port fn).viol = true ∧ (u.fn port fn).violStatus = 0x0A09 ∧
        (u.fn port fn).vaddr = off))) ∧
    (fn ≠ 0 → s.bound port fn = false → Answers bar s (fun u => u.fn port fn = violated f fn 0x0A04 v.toNat off))

/-- FORM, RESET and DISSOLVE of a partition, and the end of a scrub (R349, R350, R351, R353, R354, R355, spec/15_partitions_security.md). -/
def Obligations.PartitionCommands : Prop :=
  ∀ (s : State) (c : Caller) (cmd : List Byte) (p : Nat),
    let v := s.counted
    (PartCommand s c cmd 0x70 p → (v.formCode p ≠ 0 → Refuses (.form c cmd) s c (v.formCode p)) ∧
      (v.formCode p = 0 → v.maintCode (v.odG 0x4001 (p + 1)) = 0 →
        ((v.formPart p).2 = 0 → Answers (.form c cmd) s (fun u => u.partState p = 1 ∧ u.partMask p = s.odG 0x4001 (p + 1) ∧
          (u.part p).program = none ∧ (u.part p).claim = none ∧ (u.part p).keys = [] ∧ (u.part p).reqs = [] ∧
          (u.part p).cmd = .none ∧ u.odG 0x4000 3 = 0 ∧ u.out.getLast? = some (Emission.status c 0))) ∧
        ((v.formPart p).2 ≠ 0 → Refuses (.form c cmd) s c (v.formPart p).2 ∧
          ((v.formPart p).2 = 0x0407 ∨ (v.formPart p).2 = 0x010B))) ∧
      (v.formCode p = 0 → v.maintCode (v.odG 0x4001 (p + 1)) = 0x0801 → Answers (.form c cmd) s (fun u =>
        u.hub.queue = s.hub.queue ++ [Queued.mk (.partCmd 0x70 p) (v.odG 0x4001 (p + 1)) s.clkTime cmd] ∧
        u.parts = s.parts ∧ u.out = s.out ++ [Emission.status c 0x0801]))) ∧
    (∀ dissolve, PartCommand s c cmd (if dissolve then 0x72 else 0x71) p →
      let i : Instr := if dissolve then .dissolve c cmd else .reset c cmd
      let scrubs := dissolve = true ∨ (s.part p).claim ≠ none
      (s.partState p ≠ 1 → s.partState p ≠ 2 → Refuses i s c 0x0604) ∧
      ((s.partState p = 1 ∨ s.partState p = 2) → v.maintCode (v.partMask p) = 0 → Answers i s (fun u =>
        (scrubs → u.partState p = 4 ∧ (u.part p).scrubTo = some (if dissolve then 0 else 1)) ∧
        (¬scrubs → u.partState p = 1) ∧ u.partMask p = s.partMask p ∧ (u.part p).program = none ∧ (u.part p).claim = none ∧
        (u.part p).reqs = [] ∧ (u.part p).keys = [] ∧ (u.part p).cmd = .none ∧
        u.out.getLast? = some (Emission.status c 0)))) ∧
    (∀ failed : List (TileId × Nat), p < 32 → failed.all (fun e => tileOk e.1 && decide (e.2 < 192)) = true →
      ((s.part p).scrubTo = none → NoEffect (.scrubComplete p failed) s) ∧
      (∀ next, (s.part p).scrubTo = some next → Answers (.scrubComplete p failed) s (fun u =>
        u.partState p = next ∧ (u.part p).scrubTo = none ∧ (next = 0 → u.partMask p = 0) ∧
        (∀ f, f < 64 → bit (s.partMask p) f = true →
          (s.fieldOn f = true → u.odG 0x7103 (f + 1) = 0 ∧ ∀ t, tileOk t = true → fieldOfTile t = f →
            (u.tile t).sp.mem = [] ∧ (u.tile t).cc.isram = [] ∧ (u.tile t).cc.dsram = [] ∧
            (failed = [] → (u.tile t).cb.cells = [])) ∧
          (s.fieldOn f = false → u.odG 0x7103 (f + 1) = s.odG 0x7103 (f + 1))))))

/-- SPDM negotiation, certificates, measurements, and the life of a session (R356, R357, R367, spec/15_partitions_security.md). -/
def Obligations.SpdmAndSessions : Prop :=
  ∀ (s : State) (port : Port) (fn : Nat), fn ≤ 32 →
    let f := s.fn port fn
    let errs (c : Instr) (code : Nat) : Prop := exec c s = .next (s.spdmError port fn code)
    (s.spdmOn = false → ∀ slot off len nonce idx ok ma spki sig,
      NoEffect (.getVersion port fn) s ∧ NoEffect (.getCapabilities port fn) s ∧ NoEffect (.negotiateAlgorithms port fn ok) s ∧
      NoEffect (.getDigests port fn) s ∧ NoEffect (.getCertificate port fn slot off len) s ∧
      NoEffect (.challenge port fn slot nonce) s ∧ NoEffect (.getMeasurements port fn idx nonce) s ∧
      NoEffect (.keyExchange port fn ma) s ∧ NoEffect (.finish port fn spki sig) s) ∧
    (f.session = none → NoEffect (.heartbeatLapse port fn) s) ∧
    (f.session ≠ none → SetsFn (.heartbeatLapse port fn) s port fn { f with session := none }) ∧
    (∀ code, (s.spdmError port fn code).odG 0x4100 5 = s.odG 0x4100 5 + 1 ∧
      (s.spdmError port fn code).out = s.out ++ [Emission.spdm port fn 0x7F (leBytes 1 code ++ leBytes 1 0)]) ∧
    (s.spdmOn = true →
      SpdmSets (.getVersion port fn) s port fn { f with spdm := 1, session := none } 0x04 (leBytes 2 0x0100 ++ leBytes 2 0x1200) ∧
      (f.spdm = 0 → errs (.getCapabilities port fn) 0x04) ∧
      (1 ≤ f.spdm → SpdmSets (.getCapabilities port fn) s port fn { f with spdm := max f.spdm 2 } 0x61 (leBytes 4 spdmFlags)) ∧
      (f.spdm < 2 → ∀ ok, errs (.negotiateAlgorithms port fn ok) 0x04) ∧
      (2 ≤ f.spdm → SpdmSets (.negotiateAlgorithms port fn true) s port fn { f with spdm := 3 } 0x63 [] ∧
        errs (.negotiateAlgorithms port fn false) 0x01) ∧
      (f.spdm < 3 → ∀ slot off len nonce idx ma, errs (.getDigests port fn) 0x04 ∧ errs (.getCertificate port fn slot off len) 0x04 ∧
        errs (.challenge port fn slot nonce) 0x04 ∧ errs (.getMeasurements port fn idx nonce) 0x04 ∧
        errs (.keyExchange port fn ma) 0x04) ∧
      (3 ≤ f.spdm →
        exec (.getDigests port fn) s = .next (s.emit (.spdm port fn 0x01 (leBytes 1 0x01 ++ sha256 s.chain))) ∧
        (∀ slot off len, (slot ≠ 0 ∨ s.chain.length ≤ off → errs (.getCertificate port fn slot off len) 0x01) ∧
          (slot = 0 → off < s.chain.length → Answers (.getCertificate port fn slot off len) s (fun u =>
            let n := min len (s.chain.length - off)
            u.out = s.out ++ [Emission.spdm port fn 0x02
              (leBytes 2 n ++ leBytes 2 (s.chain.length - off - n) ++ (s.chain.drop off).take len)] ∧ u.fns = s.fns))) ∧
        (∀ slot nonce, (slot ≠ 0 → errs (.challenge port fn slot nonce) 0x01) ∧
          (slot = 0 → Answers (.challenge port fn slot nonce) s (fun u => ∃ r sig, u.out = s.out ++
            [Emission.spdm port fn 0x03 (sha256 s.chain ++ r ++ sig)] ∧ u.free = s.free + 1 ∧ u.fns = s.fns))) ∧
        (∀ idx nonce, (∀ i ∈ idx, s.measurement port fn i ≠ none) → Answers (.getMeasurements port fn idx nonce) s (fun u =>
          u.odG 0x4100 4 = s.odG 0x4100 4 + 1 ∧ ∃ r sig, u.out = s.out ++ [Emission.spdm port fn 0x60
            (idx.flatMap (fun i => leBytes 1 i ++ leBytes 2 ((s.measurement port fn i).getD []).length ++
              (s.measurement port fn i).getD []) ++ r ++ sig)])) ∧
        (∀ idx nonce, (∃ i ∈ idx, s.measurement port fn i = none) → errs (.getMeasurements port fn idx nonce) 0x01) ∧
        (∀ ma, (f.session = none → Answers (.keyExchange port fn ma) s (fun u =>
            (u.fn port fn).session = some { mutualAsked := ma, beatAt := s.clkTime } ∧ u.parts = s.parts)) ∧
          (f.session ≠ none → errs (.keyExchange port fn ma) 0x03)) ∧
        (f.session = none → ∀ spki sig, errs (.finish port fn spki sig) 0x04 ∧ errs (.heartbeat port fn) 0x04 ∧
          errs (.keyUpdate port fn) 0x04 ∧ errs (.endSession port fn) 0x04) ∧
        (∀ x spki sig, f.session = some x → x.established = false →
          (x.mutualAsked = true → sig = .invalid → Answers (.finish port fn spki sig) s (fun u =>
            (u.fn port fn).session = none ∧ u.odG 0x4100 5 = s.odG 0x4100 5 + 1)) ∧
          (x.mutualAsked = false ∨ sig ≠ .invalid → SpdmSets (.finish port fn spki sig) s port fn
            { f with session := some { x with established := true, beatAt := s.clkTime,
                                              key := if x.mutualAsked then some (sha256 spki) else none } } 0x65 []) ∧
          errs (.heartbeat port fn) 0x04) ∧
        (∀ x, f.session = some x → x.established = true →
          SpdmSets (.heartbeat port fn) s port fn { f with session := some { x with beatAt := s.clkTime } } 0x68 [] ∧
          SpdmSets (.keyUpdate port fn) s port fn { f with session := some x } 0x69 [] ∧
          SpdmSets (.endSession port fn) s port fn { f with session := none } 0x6C [])))

/-- CLAIM, SET_KEY, CLEAR_KEY, SEAL, UNSEAL and RELEASE, and the IDE keys of a claimed partition (R358, R359, R361, R362, R363, spec/15_partitions_security.md). -/
def Obligations.PartitionMessages : Prop :=
  ∀ (s : State) (port : Port) (fn : Nat) (m : List Byte), 1 ≤ fn → fn ≤ 32 → s.bound port fn = true → s.spdmOn = true →
    let p := fn - 1
    let P := s.part p
    let slot := fieldN m 1 1
    let f := s.fn port fn
    (8 ≤ m.length → messageBad m = false →
      (∀ inS, (f.session = none ∨ inS = false) →
        (fieldN m 0 1 = 1 → MessageGives (.claim port fn inS m) s port fn 1 0x0607 (fun u => u.parts = s.parts ∧
          u.odG 0x4100 5 = s.odG 0x4100 5 + 1)) ∧
        (fieldN m 0 1 = 6 → MessageGives (.release port fn inS m) s port fn 6 0x0607 (fun u => u.parts = s.parts))) ∧
      (∀ x, f.session = some x → x.established = true →
        (fieldN m 0 1 = 1 →
          (∀ k, s.partState p = 1 → P.claim = none → x.key = some k → MessageGives (.claim port fn true m) s port fn 1 0 (fun u =>
            u = (s.modPart p (fun P => { P with claim := some k })).emit
              (.spdm port fn 0x7E (leBytes 1 1 ++ leBytes 1 0 ++ leBytes 2 0)))) ∧
          (s.partState p ≠ 1 ∨ P.claim ≠ none → MessageGives (.claim port fn true m) s port fn 1 0x0605 (fun u => u.parts = s.parts)) ∧
          (s.partState p = 1 → P.claim = none → x.key = none →
            MessageGives (.claim port fn true m) s port fn 1 0x0607 (fun u => u.parts = s.parts))) ∧
        (P.claim = none → (fieldN m 0 1 = 2 → MessageGives (.setKey port fn true m) s port fn 2 0x0605 (fun u => u.parts = s.parts)) ∧
          (fieldN m 0 1 = 5 → MessageGives (.unseal port fn true m) s port fn 5 0x0605 (fun u => u.parts = s.parts ∧ u.isSealed p = s.isSealed p))) ∧
        (P.claim ≠ none → x.key ≠ P.claim → fieldN m 0 1 = 6 →
          MessageGives (.release port fn true m) s port fn 6 0x0606 (fun u => u.parts = s.parts)) ∧
        (P.claim ≠ none → x.key = P.claim →
          (fieldN m 0 1 = 2 →
            (keySlotOk slot = false ∨ (m.drop 8).length ≠ keyLen slot →
              MessageGives (.setKey port fn true m) s port fn 2 0x0608 (fun u => u.parts = s.parts)) ∧
            (keySlotOk slot = true → (m.drop 8).length = keyLen slot → s.slotInUse p slot = true →
              MessageGives (.setKey port fn true m) s port fn 2 0x0609 (fun u => u.parts = s.parts)) ∧
            (keySlotOk slot = true → (m.drop 8).length = keyLen slot → s.slotInUse p slot = false →
              MessageGives (.setKey port fn true m) s port fn 2 0 (fun u => mfind (u.part p).keys slot = some (m.drop 8) ∧
                (∀ k, k ≠ slot → mfind (u.part p).keys k = mfind P.keys k) ∧ (u.part p).claim = P.claim))) ∧
          (fieldN m 0 1 = 3 → keySlotOk slot = true → s.slotInUse p slot = false →
            MessageGives (.clearKey port fn true m) s port fn 3 0 (fun u => mfind (u.part p).keys slot = none ∧
              ∀ k, k ≠ slot → mfind (u.part p).keys k = mfind P.keys k)) ∧
          (fieldN m 0 1 = 4 → (s.resetRuns p = true → MessageGives (.seal port fn true m) s port fn 4 0x0604 (fun u => u.parts = s.parts)) ∧
            (s.resetRuns p = false → MessageGives (.seal port fn true m) s port fn 4 0 (fun u => u.isSealed p = true ∧
              (u.part p).claim = P.claim ∧ (s.isSealed p = false → u.odP 0x7000 2 p = 0)))) ∧
          (fieldN m 0 1 = 5 → MessageGives (.unseal port fn true m) s port fn 5 0 (fun u => u.isSealed p = false ∧ u.parts = s.parts)) ∧
          (fieldN m 0 1 = 6 → MessageGives (.release port fn true m) s port fn 6 0 (fun u => (u.part p).claim = none ∧
            (u.part p).keys = [] ∧ (u.part p).program = none ∧ u.partState p = 4 ∧ u.isSealed p = false))))) ∧
    (∀ keySet dir sub key, key.length = 32 →
      (s.claimantSession port fn = false → NoEffect (.query port fn) s ∧ NoEffect (.keyProg port fn keySet dir sub key) s ∧
        NoEffect (.kSetGo port fn keySet) s ∧ NoEffect (.kSetStop port fn keySet) s) ∧
      (s.claimantSession port fn = true → exec (.query port fn) s = .next (s.emit (.ideKm port fn 0)) ∧
        (keySet ≤ 1 → dir ≤ 1 → sub ≤ 2 → ∀ link, mfind P.keys (0x10 + keySet) = some link →
          (key = ideKey link port fn dir sub → exec (.keyProg port fn keySet dir sub key) s = .next ((s.modFn port fn (fun _ =>
            { f with ideKeys := mput f.ideKeys (keySet * 8 + dir * 4 + sub) key })).emit (.ideKm port fn 0))) ∧
          (key ≠ ideKey link port fn dir sub → exec (.keyProg port fn keySet dir sub key) s = .next (s.emit (.ideKm port fn 4)))) ∧
        (1 < keySet → exec (.keyProg port fn keySet dir sub key) s = .next (s.emit (.ideKm port fn 3)) ∧
          exec (.kSetGo port fn keySet) s = .next (s.emit (.ideKm port fn 3)) ∧
          exec (.kSetStop port fn keySet) s = .next (s.emit (.ideKm port fn 3))) ∧
        (keySet ≤ 1 → f.held = [] → setProgrammed f keySet = true → exec (.kSetGo port fn keySet) s =
          .next ((s.modFn port fn (fun _ => { f with ideSet := some keySet, ideBroken := false })).emit (.ideKm port fn 0))) ∧
        (keySet ≤ 1 → setProgrammed f keySet = false → Answers (.kSetGo port fn keySet) s (fun u =>
          (u.fn port fn).ideSet = none ∧ u.out.getLast? = some (Emission.ideKm port fn 4))) ∧
        (keySet ≤ 1 → Answers (.kSetStop port fn keySet) s (fun u => (u.fn port fn).ideSet ≠ some keySet ∧
          (∀ d k, d ≤ 1 → k ≤ 3 → mfind (u.fn port fn).ideKeys (keySet * 8 + d * 4 + k) = none)))))

/-- Falram packets: HELLO, KEEPALIVE, JOIN, OPEN, DATA, ACK, NAK and CLOSE (R298, R301, R302, R303, R304, R305, R306, R307, R308, spec/12_fabric.md). -/
def Obligations.FabricPackets : Prop :=
  ∀ (s : State) (p : FalramPkt), packetOk p = true →
    let h := s.heard p
    (∀ e ∈ packetCommands p, (s.fabricOn = false ∨ s.linkExists p.link = false → NoEffect e.2 s) ∧
      (s.fabricOn = true → s.linkExists p.link = true →
        (crcOk e.1 p = false → exec e.2 s = .next ((s.odAdd 0x6100 0xD 1).odAdd 0x6100 0xF 1)) ∧
        (crcOk e.1 p = true → p.mcast = false → p.dst ≠ s.fabric.devId → exec e.2 s = .next (s.odAdd 0x6100 0xD 1)))) ∧
    (Comes s 1 p → p.srcDev ≠ s.fabric.devId →
      let v := min (fieldN p.payload 0 2) (s.odG 0x1010 3)
      (fieldN p.payload 2 2 ≤ v → s.odG 0x1011 3 ≤ v → ((s.peer p.srcDev).isSome = true ∨ s.fabric.peers.length < 4096) →
        Answers (.hello p) s (fun u =>
          u.peer p.srcDev = some (Peer.mk p.srcDev v (fieldN p.payload 4 4) (s.fabricAddr p.link p.srcDev) s.clkTime) ∧
          p.srcDev ∉ u.fabric.unusable ∧
          (∀ d, d ≠ p.srcDev → u.peer d = s.peer d) ∧ u.fabric.tx = s.fabric.tx)) ∧
      (v < fieldN p.payload 2 2 ∨ v < s.odG 0x1011 3 → Answers (.hello p) s (fun u => u.peer p.srcDev = none ∧
        p.srcDev ∈ u.fabric.unusable ∧ ∀ d, d ≠ p.srcDev → u.peer d = s.peer d))) ∧
    (Comes s 5 p → s.peer p.srcDev = none → Answers (.data p) s (fun u => u.fabric = s.fabric ∧ u.parts = s.parts ∧
      u.odG 0x6100 0x11 = s.odG 0x6100 0x11 + 1)) ∧
    (FromPeer s 2 p → exec (.keepalive p) s = .next (h.modPeer p.srcDev (fun e => { e with mask := fieldN p.payload 0 4 }))) ∧
    (FromPeer s 3 p → ∀ k t, s.groupTx p.dst = some (k, t) → mfind s.fabric.tx k = some t → p.mcast = true →
      (t.receivers.any (fun r => r.dev == p.srcDev) = true → exec (.join p) s = .next h) ∧
      (t.receivers.any (fun r => r.dev == p.srcDev) = false → t.phase = 1 → t.receivers.length < 64 →
        Answers (.join p) s (fun u => mfind u.fabric.tx k = some { t with receivers := t.receivers ++ [{ dev := p.srcDev }] } ∧
          u.odP 0x6110 4 (k % 32) = t.receivers.length + 1)) ∧
      (t.receivers.any (fun r => r.dev == p.srcDev) = false → t.phase ≠ 1 ∨ 64 ≤ t.receivers.length →
        exec (.join p) s = .next (h.nak p 0x0B09 (if t.enc then some (k % 32, t.kslot) else none)))) ∧
    (FromPeer s 4 p → s.rxFor p = none →
      (s.openFor p = none → exec (.openPkt p) s = .next (h.nak p 0x0B02 none)) ∧
      (∀ n b, s.openFor p = some n → mfind s.fabric.rx n = none → Clear h 4 n p b →
        (fieldN b 0 8 = stageLen (s.part n) → s.fabric.rx.length < 64 → Answers (.openPkt p) s (fun u =>
          let g := if p.mcast then some p.dst else none
          mfind u.fabric.rx n = some (RxStream.mk p.srcDev p.stream g p.enc p.kslot (fieldN b 0 8) 1 [] 0) ∧
          u.parts = s.parts)) ∧
        (fieldN b 0 8 ≠ stageLen (s.part n) → Answers (.openPkt p) s (fun u => (u.part n).cmd = .none ∧
          mfind u.fabric.rx n = none ∧ (n < 32 → u.odP 0x5200 3 n = 0x0003))))) ∧
    (FromPeer s 5 p → s.rxFor p = none → Answers (.data p) s (fun u => u.fabric.rx = s.fabric.rx ∧ u.parts = s.parts ∧
      u.odG 0x6100 0x11 = s.odG 0x6100 0x11 + 1)) ∧
    (FromPeer s 5 p → ∀ n r, s.rxFor p = some (n, r) → h.clearPayload 5 n p = none → exec (.data p) s =
      .next ((if p.enc then h.odAdd 0x6100 0x10 1 else h).peerFault p 0x0B03 (h.nakSeal n p))) ∧
    (FromPeer s 5 p → ∀ n r b, s.rxFor p = some (n, r) → Clear h 5 n p b →
      (p.psn < r.cum ∨ r.sack.contains p.psn = true → r.unacked < 31 → exec (.data p) s =
        .next { h with fabric := { h.fabric with rx := mput h.fabric.rx n { r with unacked := r.unacked + 1 } } }) ∧
      (r.cum + 2048 ≤ p.psn → r.sack.contains p.psn = false → exec (.data p) s = .next (h.peerFault p 0x0B06 (rxSeal n r))) ∧
      (r.cum ≤ p.psn → p.psn < r.cum + 2048 → r.sack.contains p.psn = false → p.psn ≤ packetsOf r.len →
        p.offset + b.length ≤ r.len → (p.psn = packetsOf r.len ∨ 8192 ≤ b.length) →
        (p.psn = packetsOf r.len → p.offset + b.length = r.len) → p.last = (p.psn == packetsOf r.len) →
        exec (.data p) s = .next
          (({ h with fabric := { h.fabric with rx := mput h.fabric.rx n (takePsn r p.psn) } }.stageBytes n p.offset b).ackDue n))) ∧
    (FromPeer s 6 p → (s.txFor p = none → exec (.ack p) s = .next h) ∧
      (∀ k t r b, s.txFor p = some (k, t) → mfind s.fabric.tx k = some t → k < 32 → t.chain = false → t.phase ≠ 1 →
        t.receivers = [r] → r.dev = p.srcDev → Clear h 6 k p b → t.next = packetsOf t.len + 1 →
        fieldN b 0 4 = t.next → sackOf (fieldN b 0 4) (sliceB b 8 32) = [] → Answers (.ack p) s (fun u =>
          mfind u.fabric.tx k = none ∧ u.odP 0x6110 2 k = 0 ∧ u.odP 0x6110 3 k = (if t.dropped then 0x0B0D else 0))) ∧
      (∀ k t b, s.txFor p = some (k, t) → Clear h 6 (k % 32) p b → t.next < fieldN b 0 4 → Answers (.ack p) s (fun u =>
        u.fabric = h.fabric ∧ u.parts = s.parts ∧ u.odG 0x6100 0x11 = s.odG 0x6100 0x11 + 1))) ∧
    (FromPeer s 7 p →
      (∀ n b, p.status = 0x0B09 → s.joiner = some n → Clear h 7 n p b → Answers (.nak p) s (fun u => (u.part n).cmd = .none)) ∧
      (p.status ∉ [0x0B09, 0x0008] → s.txFor p = none → exec (.nak p) s = .next h) ∧
      (∀ k t b, s.txFor p = some (k, t) → mfind s.fabric.tx k = some t → Clear h 7 (k % 32) p b →
        (p.status ∈ [0x0B03, 0x0001, 0x0002] → exec (.nak p) s = .next h) ∧
        (p.status ∉ [0x0B09, 0x0008, 0x0B03, 0x0001, 0x0002] → t.group = false → k < 32 → t.chain = false →
          Answers (.nak p) s (fun u => mfind u.fabric.tx k = none ∧ u.odP 0x6110 2 k = 0 ∧ u.odP 0x6110 3 k = p.status)))) ∧
    (FromPeer s 8 p → (s.rxFor p = none → exec (.close p) s = .next h) ∧
      (∀ n r b, s.rxFor p = some (n, r) → Clear h 8 n p b → rxOpen r = true → n < 32 → (s.part n).cmd ≠ .none →
        Answers (.close p) s (fun u => (u.part n).cmd = .none ∧ u.odP 0x5200 3 n = 0x0B0A ∧ mfind u.fabric.rx n = none)))

/-- Fabric timers, links and frames that are not Falram, and the fabric send command (R296, R297, R301, R302, R303, R304, R305, R307, R424, spec/12_fabric.md). -/
def Obligations.FabricTimersAndSends : Prop :=
  ∀ (s : State) (dev part link target : Nat) (data : List Byte), part < 32 → link < 32 →
    (s.streamsWith dev = false → NoEffect (.keepaliveTimer dev) s ∧ Answers (.peerIdleExpiry dev) s (fun u =>
      u.peer dev = none ∧ (∀ d, d ≠ dev → u.peer d = s.peer d) ∧ u.odG 0x6120 1 = u.fabric.peers.length)) ∧
    (s.streamsWith dev = true → NoEffect (.peerIdleExpiry dev) s ∧ exec (.keepaliveTimer dev) s =
      .next (s.sendPkt 2 { s.newPkt dev with payload := leBytes 4 (s.odG 0x6100 6) })) ∧
    (s.streamsWith dev = true → s.fabricOn = true → linksOf (s.odG 0x6100 6) ≠ [] → Answers (.keepaliveTimer dev) s (fun u =>
      ∃ w frame, u.out = s.out ++ [Emission.falram 2 w frame] ∧ crcOk 2 w = true ∧ w.srcDev = s.fabric.devId ∧ w.dst = dev ∧
        w.payload = leBytes 4 (s.odG 0x6100 6) ∧ w.len = 4 ∧ w.link ∈ linksOf (s.odG 0x6100 6) ∧
        u.odG 0x6100 0xC = s.odG 0x6100 0xC + 1)) ∧
    (mfind s.fabric.rx part = none → NoEffect (.ackTimer part) s) ∧
    (∀ r, mfind s.fabric.rx part = some r → (r.unacked = 0 → NoEffect (.ackTimer part) s) ∧
      (0 < r.unacked → Answers (.ackTimer part) s (fun u =>
        mfind u.fabric.rx part = some { r with unacked := 0 } ∧ u.parts = s.parts))) ∧
    (∀ psn, mfind s.fabric.tx part = none → mfind s.fabric.tx (part + 32) = none → NoEffect (.retransmissionTimeout part psn) s) ∧
    (∀ psn t n at' r, mfind s.fabric.tx part = some t → mfind s.fabric.tx (part + 32) = none → mfind t.sent psn = some (n, at') →
      t.group = false → t.chain = false → t.receivers = [r] → lacks psn r = true →
      (s.odG 0x6100 0xA < n → Answers (.retransmissionTimeout part psn) s (fun u => mfind u.fabric.tx part = none ∧
        u.odP 0x6110 2 part = 0 ∧ u.odP 0x6110 3 part = 0x0B05)) ∧
      (n ≤ s.odG 0x6100 0xA → psn = 0 → Answers (.retransmissionTimeout part psn) s (fun u =>
        ∃ t', mfind u.fabric.tx part = some t' ∧ mfind t'.sent psn = some (n + 1, s.clkTime) ∧
          (n ≠ 0 → u.odG 0x6100 0xE = s.odG 0x6100 0xE + 1)))) ∧
    ((s.part part).cmd = .none → NoEffect (.joinTimer part) s) ∧
    (∀ h source len got next bad, (s.part part).cmd = .stage h 1 source len got next bad →
      (mfind s.fabric.rx part = none → exec (.joinTimer part) s = .next (s.sendPkt 3 (s.pktTo (source % 65536) true))) ∧
      (mfind s.fabric.rx part ≠ none → NoEffect (.joinTimer part) s)) ∧
    (mfind s.fabric.tx part = none → NoEffect (.joinWaitExpiry part) s) ∧
    (∀ t, mfind s.fabric.tx part = some t → (t.phase ≠ 1 → NoEffect (.joinWaitExpiry part) s) ∧
      (t.phase = 1 → t.chain = false → t.next = 0 → t.receivers ≠ [] → (∀ r ∈ t.receivers, r.cum = 0) →
        Answers (.joinWaitExpiry part) s (fun u => u.odP 0x6110 2 part = 2 ∧
          ∃ t', mfind u.fabric.tx part = some t' ∧ t'.phase = 2 ∧ t'.next = 1 ∧ t'.receivers = t.receivers))) ∧
    (s.fabric.tx = [] → (∀ e ∈ s.fabric.rx, e.2.src ≠ dev ∨ rxOpen e.2 = false) → NoEffect (.peerSilence dev) s) ∧
    (∀ t r, s.fabric.tx = [(part, t)] → s.fabric.rx = [] → t.group = false → t.chain = false → t.receivers = [r] → r.dev = dev →
      Answers (.peerSilence dev) s (fun u => u.fabric.tx = [] ∧ u.odP 0x6110 3 part = 0x0B01)) ∧
    (∀ r, s.fabric.tx = [] → s.fabric.rx = [(part, r)] → r.src = dev → rxOpen r = true → (s.part part).cmd ≠ .none →
      Answers (.peerSilence dev) s (fun u => u.fabric.rx = [] ∧ (u.part part).cmd = .none ∧ u.odP 0x5200 3 part = 0x0B01)) ∧
    (bit (s.odG 0x6100 6) link = true → exec (.lldpTimer link) s = .next (s.emit (.lldp link s.fabric.devId))) ∧
    (bit (s.odG 0x6100 6) link = false → NoEffect (.lldpTimer link) s) ∧
    (∀ up, (s.linkExists link = false → NoEffect (.ethernetLinkChange link up) s) ∧
      (up = true → s.linkClock link = false → NoEffect (.ethernetLinkChange link up) s) ∧
      (s.linkExists link = true → (up = false ∨ s.linkClock link = true) → Answers (.ethernetLinkChange link up) s (fun u => bit (u.odG 0x6100 6) link = up ∧
        (∀ l, l ≠ link → bit (u.odG 0x6100 6) l = bit (s.odG 0x6100 6) l) ∧ u.fabric = s.fabric))) ∧
    (∀ on : Option Nat, on = none ∨ on = some link →
      (s.netThere on = false → NoEffect (.neighborSolicitation on target) s ∧ NoEffect (.echoRequest on target data) s ∧
        NoEffect (.foreignFrame on) s) ∧
      (s.netThere on = true →
        (s.ownAddress on target = true → exec (.neighborSolicitation on target) s = .next (s.emit (.advert on target)) ∧
          exec (.echoRequest on target data) s = .next (s.emit (.echo on target data))) ∧
        (s.ownAddress on target = false → exec (.neighborSolicitation on target) s = .next (s.foreignFrame on) ∧
          exec (.echoRequest on target data) s = .next (s.foreignFrame on)) ∧
        (on = some link → exec (.foreignFrame on) s = .next (s.odAdd 0x6100 0x11 1)) ∧
        (on = none → Answers (.foreignFrame on) s (fun u => u.odG 0x1100 6 = s.odG 0x1100 6 + 1)))) ∧
    (∀ (c : Caller) (cmd : List Byte), Admitted s c 0x6110 1 part → cmd.length = 32 → sendReserved cmd = false →
      s.counted.sealedFrom c part = false → s.counted.partState part = 1 → s.counted.standby = false →
      let v := s.counted
      let h := fieldN cmd 2 1 % 16
      let dst := fieldN cmd 4 2
      let st := (handleOf (s.part part) h).st
      (fieldN cmd 0 1 = 0x60 → mfind s.fabric.tx part ≠ none → Refuses (.fabricSend c part cmd) s c 0x0005) ∧
      (fieldN cmd 0 1 = 0x60 → mfind s.fabric.tx part = none →
        (st ≠ 2 → st ≠ 3 → st ≠ 4 → Refuses (.fabricSend c part cmd) s c 0x0207) ∧
        (st = 2 ∨ st = 3 ∨ st = 4 → fieldN cmd 1 1 = 0 →
          (v.txRefusal part dst false = 0x0B01 → exec (.fabricSend c part cmd) s = .next ((v.sendHello dst).reply c 0x0B01)) ∧
          (v.txRefusal part dst false = 0 → Answers (.fabricSend c part cmd) s (fun u =>
            (∃ t, mfind u.fabric.tx part = some t ∧ t.handle = h ∧ t.dst = dst ∧ t.phase = 2 ∧ t.next = 1 ∧
              t.receivers = [{ dev := dst }] ∧ t.len = (handleOf (s.part part) h).len ∧ t.chain = false) ∧
            u.odP 0x6110 2 part = 2 ∧ u.odP 0x6110 4 part = 1 ∧ u.out.getLast? = some (Emission.status c 0))))) ∧
      (fieldN cmd 0 1 = 0x61 → (mfind s.fabric.tx part = none → Refuses (.fabricAbort c part cmd) s c 0x0009) ∧
        (∀ t, mfind s.fabric.tx part = some t → t.chain = false → Answers (.fabricAbort c part cmd) s (fun u =>
          mfind u.fabric.tx part = none ∧ u.odP 0x6110 2 part = 0 ∧ u.odP 0x6110 3 part = 0x0B0A ∧
          u.out.getLast? = some (Emission.status c 0)))))

/-- Sags, drop-outs, overvoltage, input and branch samples, and the clearing of minimum records (R311, R324, R325, R326, R327, spec/13_power.md). -/
def Obligations.InputAndRails : Prop :=
  ∀ s : State,
    (∀ mv, s.hub.vstby = true → s.power.sag = none → mv < s.odG 0x2000 7 → exec (.sagStart mv) s =
      .next { s with power := { s.power with
        sag := some (Sag.mk s.clkTime mv ((s.power.lastInput.map (·.2)).getD 0) false) } }) ∧
    (∀ mv, s.hub.vstby = false ∨ s.power.sag ≠ none ∨ s.odG 0x2000 7 ≤ mv → NoEffect (.sagStart mv) s) ∧
    (∀ f v, s.power.sag = none → NoEffect (.sagEnd f v) s) ∧
    (∀ f v g, s.power.sag = some g → Answers (.sagEnd f v) s (fun u => u.power.sag = none ∧
      u.odG 0x2000 8 = s.odG 0x2000 8 + 1 ∧ u.blobP 0x2000 9 0xFF =
        some ((sagRecord g s.clkTime false f v ++ (s.blobP 0x2000 9 0xFF).getD []).take 1024))) ∧
    (∀ b f v, s.hub.vstby = false → NoEffect (.stageOneDropout b f v) s) ∧
    (∀ f v, s.hub.vstby = true → Answers (.stageOneDropout false f v) s (fun u => u.parts = [] ∧ u.fns = [] ∧ u.routers = [] ∧
      u.hub.vstby = false ∧ u.hub.powered = false ∧ u.hub.flashLog = s.hub.flashLog ∧ u.hub.ramLog = [] ∧ u.stk.mem = [] ∧
      ∀ t, (u.tile t).cb.cells = [] ∧ (u.tile t).sp.mem = [])) ∧
    (∀ f v, s.hub.vstby = true → s.hub.powered = true → Answers (.stageOneDropout true f v) s (fun u =>
      u.parts = [] ∧ u.hub.vstby = true ∧ u.hub.powered = false ∧ u.odG 0x7102 1 = 0 ∧
      (∀ g, g < 64 → u.fieldState g = 1) ∧ u.out.getLast? = some (Emission.pin "MOD_READY" false))) ∧
    (∀ env, startOk env = true →
      (s.hub.vstby = true → s.hub.powered = false → s.hub.lockout = false →
        exec (.stageOneTurnOn env) s = .next (s.coldStart env)) ∧
      (s.hub.vstby = false ∨ s.hub.powered = true ∨ s.hub.lockout = true → NoEffect (.stageOneTurnOn env) s) ∧
      (s.hub.lockout = true → exec (.overvoltageRecovery env) s = .next (s.coldStart env)) ∧
      (s.hub.lockout = false → NoEffect (.overvoltageRecovery env) s)) ∧
    (s.hub.powered = true → Answers .overvoltageLockout s (fun u => u.hub.lockout = true ∧ u.hub.powered = false ∧
      ∀ g, g < 64 → u.fieldState g = 1)) ∧
    (s.hub.powered = false → NoEffect .overvoltageLockout s) ∧
    (∀ dMv dA, (dA ≤ 500 → NoEffect (.currentStepEstimate dMv dA) s) ∧
      (500 < dA → s.hub.vstby = true → Answers (.currentStepEstimate dMv dA) s (fun u =>
        let run := if s.odG 0x2000 0xC * dA < dMv * 10000 then s.power.srcRun + 1 else 0
        u.odG 0x2000 0xB = min (dMv * 10000 / dA) 65535 ∧ u.power.srcRun = run ∧
        u.odG 0x2000 0xD = (if 16 ≤ run then 1 else s.odG 0x2000 0xD)))) ∧
    (∀ mv dA, s.hub.vstby = true → Answers (.inputSample mv dA) s (fun u => u.odG 0x2000 1 = mv ∧ u.odG 0x2000 2 = dA ∧
      u.odG 0x2000 3 = mv * dA / 10000 ∧ u.odG 0x2000 4 = min mv (s.odG 0x2000 4) ∧
      (mv < s.odG 0x2000 4 → u.odG 0x2000 5 = s.clkTime) ∧ u.power.lastInput = some (mv, dA))) ∧
    (∀ f branch dA vcore plane, f < 64 → s.hub.vstby = true → Answers (.fieldBranchSample f branch dA vcore plane) s (fun u =>
      u.odG 0x2105 (f + 1) = dA ∧ (∀ g, g < 64 → g ≠ f → u.odG 0x2105 (g + 1) = s.odG 0x2105 (g + 1)) ∧
      u.blobP 0x2102 (f + 1) 0xFF = some (minRecord ((s.blobP 0x2102 (f + 1) 0xFF).getD (List.replicate 16 0xFF)) vcore branch
        s.clkTime) ∧
      u.odG 0x2106 (planeOf f + 1) = ((planeFields (planeOf f)).map (fun g => u.odG 0x2105 (g + 1))).sum)) ∧
    (∀ c, Admitted s c 0x2000 6 0xFF → Answers (.clearMinimumRecords c) s (fun u => u.odG 0x2000 4 = 65535 ∧
      u.odG 0x2000 5 = 0 ∧ u.odG 0x2000 0xD = 0 ∧ (∀ f, f < 64 → u.blobP 0x2102 (f + 1) 0xFF = none ∧ u.odG 0x2104 (f + 1) = 0) ∧
      u.out = s.out ++ [Emission.status c 0]))

/-- Fuse trips, phase failures, the switch-on of a field, plane limits and the activation grant (R316, R317, R318, R319, R320, R321, R322, R335, R340, spec/13_power.md). -/
def Obligations.FieldsOnAndOff : Prop :=
  ∀ (s : State) (f : Nat), f < 64 →
    let x := s.field f
    let st := s.fieldState f
    (st ≠ 0 → st ≠ 2 → st ≠ 6 → NoEffect (.fuseTrip f) s) ∧
    (st = 0 ∨ st = 2 ∨ st = 6 →
      let again := match x.rearmedAt with
        | none => false
        | some t => decide (s.clkTime ≤ t + 1300000000)
      let v := (s.odAdd 0x2100 6 1).modField f (fun x => { x with cycling := false, rearming := false, rearmedAt := none })
      (again = false → exec (.fuseTrip f) s = .next ((v.fieldFalls f 4 0x0902 .trip).fieldCmdField f 0x0902)) ∧
      (again = true → exec (.fuseTrip f) s =
        .next (((v.fieldFalls f 5 0x0902 .trip).fieldCmdField f 0x0901).odSet 0x7100 3 0x0901))) ∧
    (∀ c why, let u := s.goDark f c why
      u.fieldState f = c ∧ u.odG 0x7103 (f + 1) = 1 ∧ u.odG 0x2107 (f + 1) = 0 ∧
      (∀ t, tileOk t = true → fieldOfTile t = f → (u.tile t).sp.mem = [] ∧ (u.tile t).cb.cells = [] ∧ (u.tile t).cc.isram = []) ∧
      (∀ t, tileOk t = true → fieldOfTile t ≠ f → u.tile t = s.tile t)) ∧
    (∀ p code, s.partOfField f = some p → s.partState p = 1 → (s.part p).cmd = .none → s.odP 0x7000 7 p = 0 →
      let u := s.faultOwner f code
      u.partState p = 2 ∧ (∀ e ∈ (u.part p).reqs, e.2.recorded = true) ∧ programReleased (u.part p) = false) ∧
    (∀ rail ph kind, phaseOk rail ph = true →
      let b := railBase rail + ph
      let mask := s.odG 0x2103 (f + 1)
      ((st ≠ 0 ∧ st ≠ 6) ∨ bit mask b = true → NoEffect (.phaseFailure f rail ph kind) s) ∧
      (st = 0 ∨ st = 6 → bit mask b = false → phasesFatal (setBit mask b true) = false →
        Answers (.phaseFailure f rail ph kind) s (fun u => u.odG 0x2103 (f + 1) = setBit mask b true ∧
          u.odG 0x2100 7 = s.odG 0x2100 7 + 1 ∧ u.fieldState f = st ∧ u.parts = s.parts)) ∧
      (st = 0 ∨ st = 6 → bit mask b = false → phasesFatal (setBit mask b true) = true → ∃ v : State,
        v.odG 0x2103 (f + 1) = setBit mask b true ∧ v.odG 0x2100 7 = s.odG 0x2100 7 + 1 ∧ v.parts = s.parts ∧ v.fieldState f = st ∧
        exec (.phaseFailure f rail ph kind) s =
          (let w := (v.faultOwner f 0x0903).log (LogArgs.mk 318 0x0903 2 1 f 0xFF [])
           if w.fieldState f = 6 then
             .next ((w.modField f (fun x => { x with offDue := some .phase, cycling := false })).fieldCmdField f 0x0903)
           else .next (w.planOff f .phase)))) ∧
    (∀ env : SwitchOnEnv, (s.hub.powered = false ∨ s.nextOn f = false ∨ st = 0 → NoEffect (.fieldSwitchOn f env) s) ∧
      (s.hub.powered = true → s.nextOn f = true → st ≠ 0 →
        (3910 ≤ env.planeDraw → exec (.fieldSwitchOn f env) s = .next (s.odSet 0x2101 (f + 1) 3)) ∧
        (let mask := (s.phaseTest f env.failedPhases).odG 0x2103 (f + 1)
         (∀ i, i < 48 → (bit mask i = true ↔ i ∈ env.failedPhases)) ∧
         (env.planeDraw < 3910 → env.railsOk = true → env.fuseTripped = false → phasesFatal mask = false →
           Answers (.fieldSwitchOn f env) s (fun u => u.fieldState f = 2 ∧ u.odG 0x2103 (f + 1) = mask ∧
             (env.failedPhases = [] → mask = 0) ∧
             (u.field f).rearming = (x.why == OffCause.trip) ∧ u.tiles = s.tiles ∧ u.parts = s.parts)) ∧
         (env.planeDraw < 3910 → env.railsOk = false ∨ env.fuseTripped = true ∨ phasesFatal mask = true →
           bit s.hub.fieldsDue f = false →
           Answers (.fieldSwitchOn f env) s (fun u => u.fieldState f = 1 ∧ f ∉ u.power.switchQueue ∧ (u.field f).cycling = false ∧
             u.odG 0x2103 (f + 1) = mask ∧
             u.odG 0x2100 6 = s.odG 0x2100 6 + (if env.fuseTripped then 1 else 0)))))) ∧
    (∀ arrays links, Instr.wf (.fieldReady f arrays links) = true →
      (st ≠ 2 → NoEffect (.fieldReady f arrays links) s) ∧
      (st = 2 → exec (.fieldReady f arrays links) s = .next (s.fieldUp f arrays.failed links arrays.trims))) ∧
    (∀ plane, plane < 16 → f ∈ planeFields plane → st = 0 → Answers (.planeOvercurrent plane) s (fun u =>
      (u.field f).planeOver = true ∧
      (s.odG 0x2305 (f + 1) = 0 ∨ s.odG 0x2305 (f + 1) = 5 → u.odG 0x2305 (f + 1) = 1 ∧ u.odG 0x2302 (f + 1) = 36) ∧
      ∀ g, g < 64 → g ∉ planeFields plane → u.odG 0x2305 (g + 1) = s.odG 0x2305 (g + 1))) ∧
    (∀ env, (s.hub.away = true ∨ s.hub.powered = false → NoEffect (.grantPeriod env) s) ∧
      (s.hub.away = false → s.hub.powered = true → Answers (.grantPeriod env) s (fun u =>
        let v := s.thermalLimit env.coolant
        let b := (((v.budgets env).find? (fun e => e.1 == f)).map (fun e => e.2)).getD 0
        u.odG 0x2107 (f + 1) = (if st = 0 then min b 65535 + s.odG 0x2107 (f + 1) / 65536 * 65536 else s.odG 0x2107 (f + 1)) ∧
        u.tiles = s.tiles ∧ u.hub.coolant = env.coolant))) ∧
    (∀ w, (st ≠ 0 → NoEffect (.fieldGrantTick f w) s) ∧
      (st = 0 → Answers (.fieldGrantTick f w) s (fun u =>
        let b := s.odG 0x2107 (f + 1) % 65536
        (u.field f).g = (if b < w then max (x.g - 4) 2
          else if w * 10 < 9 * b ∧ s.fieldQueued f = true then min (x.g + 4) 48 else x.g) ∧
        (∀ t ∈ tilesOfField f, (u.tile t).cb.grant = u.fieldGrant f) ∧
        (∀ t, tileOk t = true → fieldOfTile t ≠ f → u.tile t = s.tile t)))) ∧
    (s.hub.vstby = false → NoEffect (.stileSourceFailure f) s) ∧
    (s.hub.vstby = true → ∃ v : State, (∀ g, g < 64 → v.stileSrc g = s.stileSelect f g) ∧
      v.odG 0x2200 7 = s.odG 0x2200 7 + (s.stileChanged f).length ∧ v.parts = s.parts ∧
      exec (.stileSourceFailure f) s =
        .next (v.forEach ((s.stileChanged f).filter (fun g => s.fieldOn g)) (fun g s =>
          ((s.faultOwner g 0x0913).modField g (fun x => { x with cycling := true })).planOff g .clock)))

/-- Temperatures, throttling, evacuation, switch-off for heat, coolant readings and Embers (R72, R85, R337, R338, R339, R340, R341, R345, R346, R378, spec/14_clock_thermal.md). -/
def Obligations.HeatAndCoolant : Prop :=
  ∀ (s : State) (f : Nat), f < 64 →
    let x := s.field f
    let heat := s.odG 0x2305 (f + 1)
    let cap := s.odG 0x2302 (f + 1)
    (∀ smp : TempSample, s.hub.vstby = false → NoEffect (.fieldTemperatureSample f smp) s) ∧
    (∀ smp : TempSample, s.hub.vstby = true →
      let charge := highest x.bandTemp smp.charge
      let t := max smp.tileMax charge
      Answers (.fieldTemperatureSample f smp) s (fun u => u.odG 0x2301 (f + 1) = unsign 16 t ∧
        u.odG 0x3001 (f + 1) = bandStep (s.odG 0x3001 (f + 1)) charge ∧ (u.field f).excluded = smp.excluded ∧
        (s.fieldOn f = true → heat = 0 → s.throttleAt ≤ t → t < 32768 → u.odG 0x2305 (f + 1) = 1 ∧ u.odG 0x2302 (f + 1) = 36))) ∧
    (s.throttled f = true → s.heatEases f = false → Answers (.throttleStepDown f) s (fun u =>
      u.odG 0x2302 (f + 1) = capDown cap ∧ (∀ t ∈ tilesOfField f, (u.tile t).cb.grant = u.fieldGrant f) ∧
      u.fieldGrant f ≤ capDown cap)) ∧
    (s.throttled f = false ∨ s.heatEases f = true → NoEffect (.throttleStepDown f) s) ∧
    (s.fieldOn f = true → heat = 1 → s.heatEases f = true → Answers (.throttleStepUp f) s (fun u =>
      u.odG 0x2302 (f + 1) = capUp cap ∧ u.odG 0x2305 (f + 1) = (if capUp cap = 48 then 0 else 1) ∧
      (∀ t ∈ tilesOfField f, (u.tile t).cb.grant = u.fieldGrant f))) ∧
    (s.fieldOn f = false ∨ heat ≠ 1 ∨ s.heatEases f = false → NoEffect (.throttleStepUp f) s) ∧
    (∀ rows : List (Nat × Nat × Int × Int), rows.all (fun r => decide (r.1 < 20) && decide (r.2.1 < 20)) = true →
      (s.throttled f = true → cap ≤ 8 → s.throttleAt ≤ s.fieldTemp f →
        exec (.urgentRotation f rows) s = .next ((if heat = 1 then s.odSet 0x2305 (f + 1) 2 else s).forEach rows
          (fun r s => s.startRotation f r.1 r.2.1 r.2.2.1 r.2.2.2 true))) ∧
      (s.throttled f = false ∨ 8 < cap ∨ s.fieldTemp f < s.throttleAt → NoEffect (.urgentRotation f rows) s)) ∧
    (let due := 10 * (s.odG 0x2300 3 : Int) ≤ s.fieldTemp f ∨ (cap = 2 ∧ s.throttleAt ≤ s.fieldTemp f)
     let v := s.odSet 0x2305 (f + 1) 3
     (¬due ∨ s.hub.away = true ∨ s.throttled f = false ∨ heat = 3 → NoEffect (.evacuation f) s) ∧
     (due → s.hub.away = false → s.throttled f = true → heat ≠ 3 →
       (s.partOfField f = none → exec (.evacuation f) s = .next v) ∧
       (∀ p, s.partOfField f = some p → s.partState p = 1 →
         (v.evacuationFits p f = false → exec (.evacuation f) s = .next (v.faultPart p 0x0910)) ∧
         (let o := v.odEff 0x2300 0x13 p
          let z := v.startInstall p (v.odP 0x5200 7 p) (o % 256) (o / 256) true true []
          v.evacuationFits p f = true → z.2 = 0 ∨ z.2 = 0x0801 → exec (.evacuation f) s = .next (z.1.odAdd 0x2300 0x10 1))))) ∧
    (s.fieldOn f = false ∨ heat ≠ 3 ∨ s.hub.away = true → NoEffect (.offForHeat f) s) ∧
    (s.fieldOn f = true → heat = 3 → s.hub.away = false →
      (s.partOfField f = none → exec (.offForHeat f) s = .next (s.heatOff f)) ∧
      (∀ p, s.partOfField f = some p → (evacuating (s.part p) = true → NoEffect (.offForHeat f) s) ∧
        (evacuating (s.part p) = false → exec (.offForHeat f) s =
          .next ((if s.odP 0x5200 3 p ≠ 0 then s.faultPart p 0x0910 else s).heatOff f)))) ∧
    (∃ v : State, v.odG 0x2305 (f + 1) = 4 ∧ v.odG 0x2300 0xF = s.odG 0x2300 0xF + 1 ∧ s.heatOff f = v.planOff f .heat ∧
      s.clkTime ∈ (v.field f).heatTimes ∧ ((v.field f).heldHeat = true ↔ 3 ≤ (v.field f).heatTimes.length)) ∧
    (let hot := (s.fieldState f = 0 ∨ s.fieldState f = 2 ∨ s.fieldState f = 6) ∧ 10 * (s.odG 0x2300 4 : Int) ≤ s.fieldTemp f
     (¬hot → NoEffect (.criticalLimit f) s) ∧
     (hot → exec (.criticalLimit f) s = .next ((((s.modField f (fun x => { x with cycling := false, rearming := false })).fieldFalls
       f 1 0x0914 .critical).odSet 0x2305 (f + 1) 6).fieldCmdField f 0x0914))) ∧
    (s.darkForHeat f = true → s.fieldState f = 1 → s.coolEnough f = true → Answers (.heatReturn f) s (fun u =>
      f ∈ u.power.switchQueue ∧ u = { s with power := { s.power with switchQueue := u.power.switchQueue } })) ∧
    (s.darkForHeat f = false ∨ s.coolEnough f = false → NoEffect (.heatReturn f) s) ∧
    (∀ c, Admitted s c 0x2306 (f + 1) 0xFF → exec (.releaseFieldHeldOff c f 1) s = .next ((s.counted.modField f (fun _ =>
        { x with heldHeat := false, heatTimes := [] })).reply c 0) ∧
      ∀ v, v ≠ 1 → Refuses (.releaseFieldHeldOff c f v) s c 0x0003) ∧
    (s.hub.coolant = none → s.power.coolantLost = false → s.hub.vstby = true → Answers .coolantReadingLoss s (fun u =>
      u.power.coolantLost = true ∧ u.odG 0x2300 0x12 = s.odG 0x2300 0x12 + 1 ∧ u.odG 0x2300 9 = s.odG 0x2300 0xA)) ∧
    (s.hub.coolant ≠ none ∨ s.power.coolantLost = true → NoEffect .coolantReadingLoss s) ∧
    (s.power.outletHot = true → s.power.coolantLost = false →
      exec .outletLimitStep s = .next (s.odSet 0x2300 9 (s.odG 0x2300 9 * 95 / 100))) ∧
    (s.power.outletHot = false → NoEffect .outletLimitStep s) ∧
    (∀ c die temps, s.hub.away = false → s.hub.vstby = true →
      (s.hub.coolant = none → Answers (.i3cRescan c) s (fun u => u.hub.coolant = c ∧ u.parts = s.parts)) ∧
      (s.hub.coolant ≠ none → NoEffect (.i3cRescan c) s) ∧
      (temps.length ≤ 16 → Answers (.hubSensorRead temps die c) s (fun u => u.hub.coolant = c ∧ u.parts = s.parts ∧
        ∀ k t, temps[k]? = some t → (k ∈ u.power.stackHot ↔ 1050 < t)))) ∧
    Answers .thermalCycleSave s (fun u => mget 0 u.hub.savedCycles f = s.odG 0x2304 (f + 1) ∧ u.od = s.od) ∧
    (s.inEmbers f = true → heat = 0 ∨ heat = 5 → Answers (.embersWarming f) s (fun u => u.odG 0x2305 (f + 1) = 5 ∧
      (s.fieldTemp f < signed 16 (s.odG 0x2303 (f + 1)) - 100 → (u.field f).warming = true))) ∧
    (s.inEmbers f = false → NoEffect (.embersWarming f) s) ∧
    (s.hub.powered = true → exec .poweredHourCount s = .next (s.odAdd 0x3000 0xE 1)) ∧
    (s.hub.powered = false → NoEffect .poweredHourCount s)

/-- The rotation of a row: its start, copy, swap and time limits (R342, R343, R344, spec/14_clock_thermal.md). -/
def Obligations.TileRotation : Prop :=
  ∀ (s : State) (f row pos : Nat), f < 64 → row < 20 → pos < 20 →
    let ph := mget RotPhase.idle (s.field f).rot row
    let a := s.rowTile f row pos
    let b := s.rowSpare f row
    let abandoned (c : Instr) : Prop := Answers c s (fun u => mget RotPhase.idle (u.field f).rot row = .idle ∧
      u.odG 0x2300 0xE = s.odG 0x2300 0xE + 1 ∧ u.tiles = s.tiles ∧ u.mesh = s.mesh)
    (∀ hot spare : Int, (s.mayRotate f row pos hot spare false = true → Answers (.rotationInterval f row pos hot spare) s (fun u =>
        mget RotPhase.idle (u.field f).rot row = .copying pos ∧ Activity.mk (.rotation f row) (2 ^ f) ∈ u.hub.acts ∧
        u.tiles = s.tiles)) ∧
      (s.mayRotate f row pos hot spare false = false → NoEffect (.rotationInterval f row pos hot spare) s)) ∧
    (ph = .copying pos → abandoned (.rotationCopyDone f row false) ∧ abandoned (.rotationCopyTimeout f row) ∧
      Answers (.rotationCopyDone f row true) s (fun u => mget RotPhase.idle (u.field f).rot row = .ready pos ∧
        (∀ n, ((s.tile a).cb.arr n).wvalid = true → ((u.tile b).cb.arr n).wvalid = true ∧
          ((u.tile b).cb.arr n).sums = ((s.tile a).cb.arr n).sums ∧ ((u.tile b).cb.arr n).fmt = ((s.tile a).cb.arr n).fmt) ∧
        (u.tile b).cc.isram = (s.tile a).cc.isram ∧ (u.tile b).cc.spads = (s.tile a).cc.spads ∧ (u.tile b).cb.chans = (s.tile a).cb.chans ∧
        ∀ t, tileOk t = true → t ≠ b → u.tile t = s.tile t) ∧
      NoEffect (.rotationSwap f row) s ∧ NoEffect (.rotationSwapTimeout f row) s) ∧
    (ph = .ready pos → abandoned (.rotationSwapTimeout f row) ∧ NoEffect (.rotationCopyTimeout f row) s ∧
      (∀ ok, NoEffect (.rotationCopyDone f row ok) s) ∧
      (swapReady (s.tile a) = false ∨ (∃ e ∈ (s.router a).feed, e.1 = Dir.l) → NoEffect (.rotationSwap f row) s) ∧
      (swapReady (s.tile a) = true → (∀ e ∈ (s.router a).feed, e.1 ≠ Dir.l) → tileOk a = true → Answers (.rotationSwap f row) s (fun u =>
        let xy := rowPlace f row pos
        u.physical xy.1 xy.2 = b ∧ (u.tile b).cc.regs = (s.tile a).cc.regs ∧ (u.tile b).cc.pc = (s.tile a).cc.pc ∧
        (u.tile b).cb.cells = (s.tile b).cb.cells ∧ (u.tile a).cc.loaded = false ∧
        mget RotPhase.idle (u.field f).rot row = .idle ∧ u.odG 0x2300 0xD = s.odG 0x2300 0xD + 1 ∧
        ∀ t, tileOk t = true → t ≠ a → t ≠ b → u.tile t = s.tile t))) ∧
    (ph = .idle → (∀ ok, NoEffect (.rotationCopyDone f row ok) s) ∧ NoEffect (.rotationSwap f row) s ∧
      NoEffect (.rotationCopyTimeout f row) s ∧ NoEffect (.rotationSwapTimeout f row) s)

/-- Cold power-on, the reference clock, loss of lock, MOD_RST_N and the commanded warm reset (R331, R336, R396, R397, R400, R401, R405, R411, spec/17_resets_maintenance.md). -/
def Obligations.ClockAndResets : Prop :=
  ∀ (s : State) (env : StartEnv), startOk env = true →
    (s.hub.vstby = true ∨ s.hub.lockout = true → NoEffect (.coldPowerOn env) s) ∧
    (s.hub.vstby = false → s.hub.lockout = false → exec (.coldPowerOn env) s = .next (s.coldStart env) ∧
      (env.romKeyOk = false → Answers (.coldPowerOn env) s (fun u => u.hub.romHalt = true ∧ u.hub.served = false ∧
        u.hub.vstby = true ∧ u.out.getLast? = some (Emission.pin "MOD_FAULT_N" false))) ∧
      (env.romKeyOk = true → s.losePower.bootable env.imageOk ≠ none → env.modRstLow = true →
        Answers (.coldPowerOn env) s (fun u => u.hub.heldReset = true ∧ u.hub.powered = true ∧ u.hub.modRst = true)) ∧
      (env.romKeyOk = true → s.losePower.bootable env.imageOk ≠ none → env.modRstLow = false → env.refclk = false →
        Answers (.coldPowerOn env) s (fun u => u.hub.waitRef = true ∧ u.hub.served = true ∧ u.odG 0x2200 1 = 0)) ∧
      (env.romKeyOk = true → s.losePower.bootable env.imageOk ≠ none → env.modRstLow = false → env.refclk = true →
        Answers (.coldPowerOn env) s (fun u => u.odG 0x7102 1 = 1 ∧ u.hub.served = true ∧ u.clkTime = 0 ∧
          u.out.getLast? = some (Emission.pin "MOD_READY" true)))) ∧
    (s.hub.vstby = true → s.hub.refclk = false → s.hub.waitRef = false → Answers (.refclkReturn env) s (fun u =>
      u.hub.refclk = true ∧ u.odG 0x2200 1 = 1 ∧ u.parts = s.parts ∧ u.clkTime = s.clkTime)) ∧
    (s.hub.vstby = true → s.hub.refclk = false → s.hub.waitRef = true → s.hub.modRst = false →
      Answers (.refclkReturn env) s (fun u => u.hub.waitRef = false ∧ u.odG 0x7102 1 = 1 ∧ u.hub.served = true)) ∧
    (s.hub.vstby = true → s.hub.refclk = true → Answers .refclkLoss s (fun u => u.hub.refclk = false ∧ u.odG 0x2200 1 = 0 ∧
      u.parts = s.parts ∧ u.tiles = s.tiles ∧ u.clkTime = s.clkTime ∧ u.out = s.out)) ∧
    (s.odG 0x2200 2 = 0 → NoEffect (.pllLossOfLock env) s) ∧
    (s.odG 0x2200 2 ≠ 0 → ∃ v : State, v.odG 0x2200 3 = s.odG 0x2200 3 + 1 ∧ v.parts = s.parts ∧
      exec (.pllLossOfLock env) s = .next (v.warmReset 3 env)) ∧
    (s.hub.powered = true → s.starting = false → Answers .modRstNAssert s (fun u => u.hub.heldReset = true ∧
      u.hub.modRst = true ∧ u.odG 0x7102 1 = 5 ∧ u.odG 0x7102 2 = 1 ∧ u.odG 0x7102 3 = s.odG 0x7102 3 + 1 ∧ u.parts = [])) ∧
    (s.hub.powered = false ∨ s.starting = true → exec .modRstNAssert s = .next { s with hub := { s.hub with modRst := true } }) ∧
    (let v := { s with hub := { s.hub with modRst := false } }
     (s.hub.heldReset = false → exec (.modRstNRelease env) s = .next v) ∧
     (s.hub.heldReset = true → s.odG 0x7102 2 ≠ 0 → exec (.modRstNRelease env) s = .next (v.finishWarm env)) ∧
     (s.hub.heldReset = true → s.odG 0x7102 2 = 0 → exec (.modRstNRelease env) s =
       .next ({ s with hub := { s.hub with modRst := false, heldReset := false } }.fromLock env))) ∧
    (∀ cause, let w := s.beginWarm cause
      w.parts = [] ∧ w.fns = [] ∧ w.routers = [] ∧ w.clkTime = s.clkTime ∧ w.hub.acts = [] ∧ w.hub.queue = [] ∧
      w.hub.lockHolder = 0 ∧ w.odG 0x7102 1 = 5 ∧ w.readyPin = false ∧ w.faultPin = true ∧ w.odG 0x7102 2 = cause ∧ w.out = s.out ++ (if s.faultPin then [] else [Emission.pin "MOD_FAULT_N" true]) ++ [Emission.pin "MOD_READY" false] ∧
      (∀ t, (w.tile t).cb.cells = []) ∧
      (∀ t a, SMap.rising s.tiles → SMap.rising (s.tile t).cb.arrays →
        ((w.tile t).cb.arr a).delta = ((s.tile t).cb.arr a).delta ∧
        ((w.tile t).cb.arr a).factory = ((s.tile t).cb.arr a).factory) ∧
      (s.hub.powered = true → s.starting = false → s.warmReset cause env = w.finishWarm env) ∧
      (s.hub.powered = false ∨ s.starting = true → s.warmReset cause env = s)) ∧
    (∀ c fields, Admitted s c 0x7100 1 0xFF →
      (fields ≠ 0 → Refuses (.deviceWarmReset c fields env) s c 0x0003) ∧
      (fields = 0 → s.counted.activating = true → exec (.deviceWarmReset c fields env) s =
        .next ((s.counted.odAdd 0x7101 5 1).reply c 0x0802)) ∧
      (fields = 0 → s.counted.activating = false → exec (.deviceWarmReset c fields env) s =
        .next ((s.counted.reply c 0).warmReset 2 env)))

/-- The management restart: its causes, its beginning, its end, and SRAM errors (R289, R370, R371, R373, R401, R410, spec/16_management.md). -/
def Obligations.HubRestarts : Prop :=
  ∀ (s : State) (k ok : Bool),
    (∀ cause, s.mayRestart cause = false → NoEffect (.managementRestart cause k ok) s) ∧
    (∀ cause, s.mayRestart cause = true → exec (.managementRestart cause k ok) s = .next (s.beginRestart cause k ok)) ∧
    (∀ cause im, s.mayRestart cause = true → k = true → s.odG 0x1300 4 ≠ 3 → s.odG 0x1300 4 ≠ 4 → s.bootable ok = some im →
      im.digest = s.hub.running.digest → s.hub.activating = false →
      (∀ p, p < 32 → (s.part p).cmd = .none ∧ mfind s.fabric.tx p = none) → Answers (.managementRestart cause k ok) s (fun u =>
        u.hub.restarting = true ∧ u.odG 0x1130 1 = s.odG 0x1130 1 + 1 ∧ u.hub.lockHolder = 0 ∧ u.hub.peers = [] ∧
        u.hub.versions = [] ∧ (∀ port n, (u.fn port n).session = none) ∧ u.tiles = s.tiles ∧ u.parts = s.parts ∧
        Emission.pin "MOD_READY" false ∈ u.out)) ∧
    (∀ cause, s.mayRestart cause = true → k = false → Answers (.managementRestart cause k ok) s (fun u =>
      u.hub.romHalt = true ∧ u.hub.served = false ∧ u.out.getLast? = some (Emission.pin "MOD_FAULT_N" false))) ∧
    (s.canRestart = true → exec (.hubWatchdogExpiry k ok) s = .next (s.beginRestart .watchdog k ok) ∧
      exec (.hubSramError false k ok) s = .next (s.beginRestart .sramError k ok)) ∧
    (s.canRestart = false → NoEffect (.hubWatchdogExpiry k ok) s ∧ NoEffect (.hubSramError false k ok) s) ∧
    (s.hub.vstby = true → exec (.hubSramError true k ok) s = .next (s.odAdd 0x1130 3 1)) ∧
    (∀ c, Admitted s c 0x1130 5 0xFF →
      (∀ v, v ≠ 1 → Refuses (.restartTheHub c v k ok) s c 0x0003) ∧
      (s.odG 0x1300 4 ≠ 4 → exec (.restartTheHub c 1 k ok) s = .next ((s.counted.reply c 0).beginRestart .command k ok)) ∧
      (s.odG 0x1300 4 = 4 → s.counted.activating = true →
        exec (.restartTheHub c 1 k ok) s = .next ((s.counted.odAdd 0x7101 5 1).reply c 0x0802)) ∧
      (s.odG 0x1300 4 = 4 → s.counted.activating = false → s.heldFields ≠ 0 ∨ s.hub.queue ≠ [] → s.hub.queue.length < 32 →
        Answers (.restartTheHub c 1 k ok) s (fun u => u.hub.queue = s.hub.queue ++ [Queued.mk .activation (2 ^ 64 - 1) s.clkTime []] ∧
          u.hub.activationDue = true ∧ u.parts = s.parts ∧ u.out = s.out ++ [Emission.status c 0x0801]))) ∧
    (s.hub.restarting = false → NoEffect .managementRestartEnd s) ∧
    (s.hub.restarting = true → s.hub.held = [] → s.hub.heldLost = [] → s.hub.resetsDue = 0 → s.hub.startDue = none →
      s.hub.activating = false → s.mesh.detour = .idle → s.mesh.detourQueue = [] → s.odG 0x7102 1 = 1 →
      (∀ port n, n ≤ 32 → (s.fn port n).mbBusy = false) → Answers .managementRestartEnd s (fun u => u.hub.restarting = false ∧
        u.out = s.out ++ [Emission.pin "MOD_READY" true] ∧ u.parts = s.parts ∧ u.tiles = s.tiles ∧ u.fns = s.fns ∧
        u.fabric.devId = s.odG 0x6100 1))

/-- Firmware update, the flash log, and the counting of availability (R372, R375, R376, R413, spec/16_management.md, spec/17_resets_maintenance.md). -/
def Obligations.FirmwareAndLogs : Prop :=
  ∀ (s : State) (c : Caller) (cmd : List Byte) (sig : SigCheck) (off : Nat) (bytes : List Byte),
    let st := s.odG 0x1300 4
    let len := fieldN cmd 4 4
    (Admitted s c 0x1300 3 0xFF → cmd.length = 8 → zeroRange cmd 1 3 = true →
      (fieldN cmd 0 1 = 1 → (len < 4096 ∨ 16777216 < len → Refuses (.updateBegin c cmd) s c 0x0003) ∧
        (4096 ≤ len → len ≤ 16777216 → (st = 3 → Refuses (.updateBegin c cmd) s c 0x0706) ∧
          (st ≠ 3 → Answers (.updateBegin c cmd) s (fun u => u.hub.updLen = len ∧ u.hub.updBuf = [] ∧ u.odG 0x1300 4 = 1 ∧
            u.hub.slot = s.hub.slot ∧ u.out = s.out ++ [Emission.status c 0])))) ∧
      (fieldN cmd 0 1 = 2 → (s.hub.updLen = 0 ∨ (st ≠ 1 ∧ st ≠ 5) → Refuses (.updateCommit c cmd sig) s c 0x0706) ∧
        (s.hub.updLen ≠ 0 → st = 1 ∨ st = 5 →
          (s.imageCode sig = 0 → Answers (.updateCommit c cmd sig) s (fun u => u.hub.slot = none ∧ u.odG 0x1300 4 = 3 ∧
            u.hub.updBuf = s.hub.updBuf ∧ u.hub.running = s.hub.running ∧ u.out = s.out ++ [Emission.status c 0])) ∧
          (s.imageCode sig ≠ 0 → Answers (.updateCommit c cmd sig) s (fun u => u.hub.slot = s.hub.slot ∧ u.odG 0x1300 4 = 5 ∧
            u.odG 0x1300 5 = s.imageCode sig ∧ u.out = s.out ++ [Emission.status c (s.imageCode sig)])))) ∧
      (fieldN cmd 0 1 = 3 → (st = 3 ∨ st = 4 → Refuses (.updateAbort c cmd) s c 0x0706) ∧
        (st = 0 ∨ st = 1 ∨ st = 2 → Answers (.updateAbort c cmd) s (fun u => u.hub.updLen = 0 ∧ u.hub.updBuf = [] ∧
          u.odG 0x1300 4 = 0 ∧ u.hub.slot = s.hub.slot)))) ∧
    (Admitted s c 0x1300 2 0xFF →
      (s.hub.updLen < off + bytes.length ∨ st = 3 → Refuses (.updateImageChunk c off bytes) s c 0x0706) ∧
      (off + bytes.length ≤ s.hub.updLen → st ≠ 3 → Answers (.updateImageChunk c off bytes) s (fun u =>
        (∀ i b, bytes[i]? = some b → mget 0 u.hub.updBuf (off + i) = b) ∧
        (∀ k, k < off ∨ off + bytes.length ≤ k → mget 0 u.hub.updBuf k = mget 0 s.hub.updBuf k) ∧
        u.out = s.out ++ [Emission.status c 0]))) ∧
    (∀ ok, st ≠ 3 → NoEffect (.flashImageWritten ok) s) ∧
    (st = 3 → Answers (.flashImageWritten true) s (fun u => u.hub.slot = some (imageOf s.buffered) ∧ u.odG 0x1300 4 = 4 ∧
        u.odG 0x1300 5 = 0 ∧ u.odG 0x1300 6 = (imageOf s.buffered).version ∧ u.hub.running = s.hub.running) ∧
      Answers (.flashImageWritten false) s (fun u => u.odG 0x1300 4 = 5 ∧ u.odG 0x1300 5 = 0x0703 ∧ u.hub.slot = s.hub.slot)) ∧
    (∀ seq, ((∀ e ∈ s.hub.ramLog, e.seq = seq → e.severity = 0) ∨ s.hub.away = true ∨ (∃ e ∈ s.hub.flashLog, e.seq = seq) →
        NoEffect (.logFlashWrite seq) s) ∧
      (∀ e, s.hub.ramLog.find? (fun e => e.seq == seq && decide (1 ≤ e.severity)) = some e → s.hub.away = false →
        (∀ x ∈ s.hub.flashLog, x.seq ≠ seq) → Answers (.logFlashWrite seq) s (fun u => u.hub.flashLog.getLast? = some e ∧
          u = { s with hub := { s.hub with flashLog := u.hub.flashLog } } ∧
          (s.hub.flashLog.length < 131072 → u.hub.flashLog = s.hub.flashLog ++ [e])))) ∧
    (∀ ex, s.hub.vstby = false → NoEffect (.availabilityCount ex) s) ∧
    (∀ ex, s.hub.vstby = true → Answers (.availabilityCount ex) s (fun u => 1 ≤ s.availability ex ∧ s.availability ex ≤ 4 ∧
      (∀ k, 1 ≤ k → k ≤ 4 → u.odG 0x7110 k = s.odG 0x7110 k + (if k = s.availability ex then 1 else 0)) ∧
      u.odG 0x7110 5 = (u.hub.downDays.map (·.2)).sum))

/-- Field commands, standby, and the queue of maintenance activities (R403, R404, R407, R408, R409, R411, spec/17_resets_maintenance.md). -/
def Obligations.Maintenance : Prop :=
  ∀ (s : State) (c : Caller) (fields : BitVec 64) (f : Nat) (env : StartEnv), startOk env = true → f < 64 →
    let v := s.counted
    let dev := s.odG 0x7102 1
    (Admitted s c 0x7100 1 0xFF → s.odG 0x7100 2 ≠ 0 → Refuses (.fieldCycle c fields) s c 0x0005 ∧
      Refuses (.fieldOff c fields) s c 0x0005 ∧ Refuses (.fieldOn c fields) s c 0x0005 ∧
      Refuses (.standbyEnter c fields) s c 0x0005 ∧ Refuses (.standbyExit c fields env) s c 0x0005) ∧
    (Admitted s c 0x7100 1 0xFF → s.odG 0x7100 2 = 0 →
      (dev ≠ 1 → Refuses (.fieldCycle c fields) s c 0x000B ∧ Refuses (.fieldOff c fields) s c 0x000B ∧
        Refuses (.fieldOn c fields) s c 0x000B ∧ Refuses (.standbyEnter c fields) s c 0x0807) ∧
      (dev ≠ 2 → Refuses (.standbyExit c fields env) s c 0x0807) ∧
      (dev = 1 → (fields = 0 → Refuses (.fieldCycle c fields) s c 0x0003 ∧ Refuses (.fieldOff c fields) s c 0x0003 ∧
          Refuses (.fieldOn c fields) s c 0x0003) ∧
        (∀ opc cmd, (opc, cmd) ∈ [(0x80, Instr.fieldCycle c fields), (0x81, Instr.fieldOff c fields), (0x82, Instr.fieldOn c fields)] →
          fields ≠ 0 → (v.fieldUseCode opc fields.toNat ≠ 0 → Refuses cmd s c (v.fieldUseCode opc fields.toNat)) ∧
          (v.fieldUseCode opc fields.toNat = 0 → (v.maintCode fields.toNat = 0 → MaintRuns s cmd c opc fields quietStart) ∧
            (v.maintCode fields.toNat = 0x0801 → Answers cmd s (fun u => u.odG 0x7100 2 = 1 ∧ u.odG 0x7100 3 = 0x0801 ∧
              u.hub.queue = s.hub.queue ++ [Queued.mk (.fieldCmd opc) fields.toNat s.clkTime (fieldCmdBytes opc fields)] ∧
              u.out = s.out ++ [Emission.status c 0x0801])))) ∧
        (fields.toNat = 2 ^ f → v.maintCode (2 ^ f) = 0 → s.fieldState f = 1 →
          (v.fieldUseCode 0x82 (2 ^ f) = 0 → Answers (.fieldOn c fields) s (fun u => f ∈ u.power.switchQueue ∧
            u.odG 0x7100 2 = 2 ∧ u.odG 0x7100 3 = 0 ∧ u.hub.fieldsDue = 2 ^ f ∧ Activity.mk (.fieldCmd 0x82) (2 ^ f) ∈ u.hub.acts ∧
            u.out = s.out ++ [Emission.status c 0])) ∧
          (v.fieldUseCode 0x80 (2 ^ f) = 0 → Answers (.fieldCycle c fields) s (fun u => f ∈ u.power.switchQueue ∧
            u.odG 0x7100 2 = 2 ∧ u.hub.fieldsDue = 2 ^ f ∧ u.out = s.out ++ [Emission.status c 0])) ∧
          (v.fieldUseCode 0x81 (2 ^ f) = 0 → Answers (.fieldOff c fields) s (fun u => u.fieldState f = 1 ∧
            u.odG 0x7100 2 = 0 ∧ u.odG 0x7100 3 = 0 ∧ u.hub.fieldsDue = 0 ∧ u.out = s.out ++ [Emission.status c 0]))) ∧
        (fields = 0 → v.maintCode everyField = 0 → Answers (.standbyEnter c fields) s (fun u => u.odG 0x7102 1 = 2 ∧
          u.stk.selfRefresh = true ∧ u.odG 0x6100 6 = 0 ∧ (∀ g, g < 64 → u.fieldOn g = false) ∧ u.odG 0x7100 2 = 0 ∧
          u.odG 0x7100 3 = 0 ∧ u.out.getLast? = some (Emission.status c 0)))) ∧
      (dev = 2 → fields = 0 → v.maintCode everyField = 0 → Answers (.standbyExit c fields env) s (fun u => u.odG 0x7102 1 = 1 ∧
        u.stk.selfRefresh = false ∧ u.odG 0x7100 2 = 0 ∧ u.out.getLast? = some (Emission.status c 0)))) ∧
    (∀ e : CmdEnv, startOk e.start = true →
      (s.hub.away = true ∨ firstStartable s.heldFields 0 s.hub.queue = none → NoEffect (.queuedActivityStart e) s) ∧
      (∀ q, s.hub.away = false → firstStartable s.heldFields 0 s.hub.queue = some q →
        exec (.queuedActivityStart e) s = .next (s.startQueued q e))) ∧
    (∀ i, (s.hub.away = true ∨ s.hub.queue[i]? = none → NoEffect (.queueWaitExpiry i) s) ∧
      (∀ q, s.hub.away = false → s.hub.queue[i]? = some q →
        (s.clkTime ≤ q.since + s.odG 0x7101 1 * 1300000000 → NoEffect (.queueWaitExpiry i) s) ∧
        (q.since + s.odG 0x7101 1 * 1300000000 < s.clkTime → exec (.queueWaitExpiry i) s = .next (s.expireQueued q) ∧
          (∀ opc, q.kind = .fieldCmd opc → Answers (.queueWaitExpiry i) s (fun u => u.odG 0x7100 2 = 0 ∧
            u.odG 0x7100 3 = 0x0803 ∧ u.parts = s.parts ∧ u.tiles = s.tiles)))))

/-- Each form of tile rotation, hub restart and firmware update carries out its own effect (R342, R343, R344, R371, R370, R375, R376, R413, spec/14_clock_thermal.md, spec/16_management.md). -/
def Obligations.RotationHubAndUpdateForms : Prop :=
  ∀ s : State,
    (∀ (f row pos p : Nat) (hot spare : Int) (g : Program), f < 64 → row < 20 → pos < 20 →
      let t := s.rowTile f row pos
      let place := (rowPlace f row pos).1 + 256 * (rowPlace f row pos).2
      s.fieldOn f = true → s.hub.away = false → spare + 10 * s.odG 0x2300 0xC ≤ hot → s.retired f row = none →
      mget RotPhase.idle (s.field f).rot row = .idle → (∀ a ∈ s.hub.acts, bit a.fields f = false) →
      bit s.queuedFields f = false → s.activating = false → s.partOfField f = some p → (s.part p).program = some g →
      (∃ n, (t, 0, n) ∈ g.tiles) → s.odP 0x7000 7 p = 0 → (∀ r ∈ s.tileRoutes p t, s.hasAlternate p r place = true) →
      Answers (.rotationInterval f row pos hot spare) s (fun u =>
        mget RotPhase.idle (u.field f).rot row = .copying pos ∧ u.tiles = s.tiles ∧ u.mesh = s.mesh)) ∧
    (∀ f row pos : Nat, f < 64 → row < 20 → pos < 20 → mget RotPhase.idle (s.field f).rot row = .copying pos →
      Answers (.rotationCopyDone f row true) s (fun u => mget RotPhase.idle (u.field f).rot row = .ready pos ∧
        (u.tile (s.rowSpare f row)).cb.chans = (s.tile (s.rowTile f row pos)).cb.chans) ∧
      Answers (.rotationCopyTimeout f row) s (fun u => mget RotPhase.idle (u.field f).rot row = .idle ∧
        u.odG 0x2300 0xE = s.odG 0x2300 0xE + 1)) ∧
    (∀ f row pos : Nat, f < 64 → row < 20 → pos < 20 → mget RotPhase.idle (s.field f).rot row = .ready pos →
      let t := s.rowTile f row pos
      let T := s.tile t
      (tileOk t = true → T.cc.state = .waiting → T.cb.boundary = true → T.cb.ready = [] → T.tv.queue = [] → T.tv.drains = [] →
        T.vu.queue = [] → (∀ e ∈ T.mv, e.2.inHand = []) → T.tx = [] → T.rx = [] → (∀ e ∈ (s.router t).feed, e.1 ≠ Dir.l) →
        Answers (.rotationSwap f row) s (fun u =>
          u.physical (rowPlace f row pos).1 (rowPlace f row pos).2 = s.rowSpare f row ∧
          u.odG 0x2300 0xD = s.odG 0x2300 0xD + 1 ∧ mget RotPhase.idle (u.field f).rot row = .idle)) ∧
      Answers (.rotationSwapTimeout f row) s (fun u => mget RotPhase.idle (u.field f).rot row = .idle ∧
        u.odG 0x2300 0xE = s.odG 0x2300 0xE + 1)) ∧
    (∀ k ok : Bool,
      (∀ cause, s.mayRestart cause = true → Answers (.managementRestart cause k ok) s (fun u =>
        u.odG 0x1130 1 = s.odG 0x1130 1 + 1 ∧ u.hub.lockHolder = 0)) ∧
      (s.canRestart = true → Answers (.hubWatchdogExpiry k ok) s (fun u =>
          u.odG 0x1130 1 = s.odG 0x1130 1 + 1 ∧ u.odG 0x1130 2 = s.odG 0x1130 2 + 1 ∧ u.odG 0x1130 4 = 1) ∧
        Answers (.hubSramError false k ok) s (fun u => u.odG 0x1130 1 = s.odG 0x1130 1 + 1 ∧ u.odG 0x1130 4 = 2)) ∧
      (∀ c, Admitted s c 0x1130 5 0xFF → s.odG 0x1300 4 ≠ 4 → Answers (.restartTheHub c 1 k ok) s (fun u =>
        u.odG 0x1130 1 = s.odG 0x1130 1 + 1 ∧ u.odG 0x1130 4 = 3 ∧ Emission.status c 0 ∈ u.out))) ∧
    (s.hub.restarting = true → Answers .managementRestartEnd s (fun u => u.hub.restarting = false)) ∧
    (∀ (c : Caller) (n off : Nat) (bytes : List Byte) (sig : SigCheck),
      let cmd := fun op len : Nat => leBytes 1 op ++ leBytes 3 0 ++ leBytes 4 len
      (Admitted s c 0x1300 3 0xFF → 4096 ≤ n → n ≤ 16777216 → s.odG 0x1300 4 ≠ 3 →
        Answers (.updateBegin c (cmd 1 n)) s (fun u => u.hub.updLen = n ∧ u.hub.updBuf = [] ∧ u.odG 0x1300 4 = 1)) ∧
      (Admitted s c 0x1300 2 0xFF → off + bytes.length ≤ s.hub.updLen → s.odG 0x1300 4 ≠ 3 →
        Answers (.updateImageChunk c off bytes) s (fun u => u.hub.updBuf = mwrite 0 s.hub.updBuf off bytes)) ∧
      (Admitted s c 0x1300 3 0xFF → s.hub.updLen ≠ 0 → s.odG 0x1300 4 = 1 → s.imageCode sig = 0 →
        Answers (.updateCommit c (cmd 2 0) sig) s (fun u => u.hub.slot = none ∧ u.odG 0x1300 4 = 3)) ∧
      (Admitted s c 0x1300 3 0xFF → s.odG 0x1300 4 = 1 →
        Answers (.updateAbort c (cmd 3 0)) s (fun u => u.hub.updLen = 0 ∧ u.hub.updBuf = [] ∧ u.odG 0x1300 4 = 0))) ∧
    (s.odG 0x1300 4 = 3 → Answers (.flashImageWritten true) s (fun u => u.hub.slot = some (imageOf s.buffered) ∧ u.odG 0x1300 4 = 4)) ∧
    (∀ e ∈ s.hub.ramLog, s.hub.ramLog.find? (fun x => x.seq == e.seq && decide (1 ≤ x.severity)) = some e → s.hub.away = false →
      (∀ x ∈ s.hub.flashLog, x.seq ≠ e.seq) → Answers (.logFlashWrite e.seq) s (fun u => u.hub.flashLog.getLast? = some e)) ∧
    (s.hub.vstby = true → ∀ ex, Answers (.availabilityCount ex) s (fun u =>
      u.odG 0x7110 1 + u.odG 0x7110 2 + u.odG 0x7110 3 + u.odG 0x7110 4 =
        s.odG 0x7110 1 + s.odG 0x7110 2 + s.odG 0x7110 3 + s.odG 0x7110 4 + 1))

/-- From every state in canonical form a step leads to a state in canonical form (R336, R376, spec/14_clock_thermal.md, spec/16_management.md). -/
def Obligations.EveryStepKeepsCanonicalForm : Prop :=
  ∀ s u : State, Canon s → step s = .next u → Canon u

/-- The state after reset is in canonical form (R336, R376, spec/16_management.md). -/
def Obligations.ResetIsCanonical : Prop :=
  Canon State.reset

/-- A step takes exactly the front command, keeps what was driven outward, and reuses no free value (R382, spec/95_what_each_step_holds.md, spec/16_management.md). -/
def Obligations.EveryStepServesInOrderAndRecallsNothing : Prop :=
  ∀ s u : State, step s = .next u →
    u.pending = s.pending.drop 1 ∧ s.out <+: u.out ∧ s.free ≤ u.free

/-- Logical tile T(x,y) lies in field F(x div 20, y div 20) at position (x mod 20, y mod 20), whatever the maps hold (R4). -/
def Obligations.LogicalTilePlace : Prop :=
  ∀ s : State,
    (∀ (t : TileId) (x y : Nat), s.logical t = some (x, y) →
      fieldOfTile t = 8 * (y / 20) + x / 20 ∧ t.y % 20 = y % 20 ∧ t.u % 21 = s.rowMapGet y (x / 20) (x % 20)) ∧
    (∀ x y : Nat, s.rowMapGet y (x / 20) (x % 20) < 21 →
      fieldOfTile (s.physical x y) = 8 * (y / 20) + x / 20 ∧ (s.physical x y).y % 20 = y % 20 ∧
      (s.physical x y).u % 21 = s.rowMapGet y (x / 20) (x % 20))

/-- A refresh row that fails verify keeps the levels programmed, is counted, and marks the array (R84). -/
def Obligations.RefreshRowFailsVerify : Prop :=
  ∀ (s : State) (t : TileId) (a : Nat), Instr.wf (.refreshRow t a false) = true → refreshMay (s.tile t) a = true →
    let cb := (s.tile t).cb
    let x := cb.arr a
    let levels := (readRow cb a x.refreshRow).mapIdx (fun c f => levelOfField x.fmt c f)
    Answers (.refreshRow t a false) s (fun u =>
      (∀ c : Nat, (rowLevels (u.tile t).cb a x.refreshRow)[c]?.getD 0 = levels[c]?.getD 0) ∧
      u.odG 0x3000 0xD = s.odG 0x3000 0xD + 1 ∧
      ((u.tile t).cb.arr a).early = true ∧
      (∀ b r, b * 512 + r ≠ a * 512 + x.refreshRow → rowLevels (u.tile t).cb b r = rowLevels cb b r) ∧
      (∀ b, b ≠ a → (u.tile t).cb.arr b = cb.arr b) ∧
      (∀ t', t' ≠ t → tileOk t' = true → u.tile t' = s.tile t'))

/-- What queue, wafer time and the registers of every tile hold after reset, where the spec tables a reset value (spec/02_charge_banks.md, spec/03_charge_accuracy.md, spec/04_tensor_vector.md, spec/05_tile_memory.md, spec/06_wafer_mesh.md, spec/07_control_cores.md). -/
def Obligations.RegistersAfterReset : Prop :=
  State.reset.pending = [] ∧ State.reset.out = [] ∧ State.reset.clkTime = 0 ∧
  ∀ t : TileId,
    let reads := readReg State.reset t
    reads 0x1004 = 48 ∧ reads 0x1008 = 0x80 ∧ reads 0x2000 = 5 ∧
    (∀ g < 8, reads (0x2100 + 16 * g) = 0xFF000000 ∧ reads (0x2104 + 16 * g) = 0x04000400) ∧
    reads 0x3000 = 0x454020C0 ∧ reads 0x4000 = 0x200000 ∧
    (∀ ch < 4, reads (0x4104 + 32 * ch) = 0x20000000 ∧ reads (0x4108 + 32 * ch) = 0x00400400) ∧
    reads 0x5000 = 0x05200320 ∧ reads 0x5008 = 0x00110004 ∧ reads 0x0000 = 0x40201042 ∧ reads 0x0014 = 0 ∧
    (∀ k < 20, State.reset.rowMapGet t.y (t.u / 21) k = k) ∧
    (∀ n, ((State.reset.tile t).cb.seg n).en = false) ∧ (∀ ch, (State.reset.mover t ch).en = false)
end

