-- ==== Sys2Proof/Laws/Map.lean ====
section
/-!
SUPPORT. What the operations of sparse tables do: a key reads as it was last written, other keys are untouched, and the
canonical form is kept.
-/

namespace Sys2Proof.Machine

variable {α : Type}

theorem mfind_mdel (m : SMap α) (k k' : Nat) : mfind (mdel m k) k' = if k' = k then none else mfind m k' := by
  induction m with
  | nil => simp [mdel, mfind]
  | cons e r ih =>
    obtain ⟨a, v⟩ := e
    unfold mdel
    split
    · rename_i h
      rw [ih]
      split
      · rfl
      · rename_i h'; rw [mfind, if_neg (by omega)]
    · rename_i h
      rw [mfind, ih, mfind]
      by_cases hk : k' = k
      · rw [if_pos hk, if_pos hk, if_neg (by omega)]
      · rw [if_neg hk, if_neg hk]

theorem mfind_minsert (m : SMap α) (k k' : Nat) (v : α) (hk : mfind m k = none) :
    mfind (minsert m k v) k' = if k' = k then some v else mfind m k' := by
  induction m with
  | nil =>
    unfold minsert mfind
    split
    · rename_i h; rw [if_pos h.symm]
    · rename_i h; rw [if_neg (fun c => h c.symm)]; rfl
  | cons e r ih =>
    obtain ⟨a, w⟩ := e
    rw [mfind] at hk
    split at hk
    · cases hk
    · rename_i ha
      unfold minsert
      split
      · by_cases h : k' = k
        · rw [mfind, if_pos h.symm, if_pos h]
        · rw [mfind, if_neg (fun c => h c.symm), if_neg h]
      · rw [mfind, ih hk]
        by_cases h : k' = k
        · rw [if_pos h, if_neg (by omega), if_pos h]
        · rw [if_neg h, if_neg h, mfind]

theorem mfind_mput (m : SMap α) (k k' : Nat) (v : α) :
    mfind (mput m k v) k' = if k' = k then some v else mfind m k' := by
  rw [mput, mfind_minsert _ _ _ _ (by rw [mfind_mdel, if_pos rfl]), mfind_mdel]
  split <;> rfl

/-- A key reads as it was last written; every other key reads as before. -/
theorem mget_mset [DecidableEq α] (d : α) (m : SMap α) (k k' : Nat) (v : α) :
    mget d (mset d m k v) k' = if k' = k then v else mget d m k' := by
  unfold mset mget
  split
  · rename_i h
    rw [mfind_mdel]
    split
    · exact h.symm
    · rfl
  · rw [mfind_mput]; split <;> rfl

@[simp] theorem mget_mset_same [DecidableEq α] (d : α) (m : SMap α) (k : Nat) (v : α) :
    mget d (mset d m k v) k = v := by rw [mget_mset, if_pos rfl]

theorem mget_mset_other [DecidableEq α] (d : α) (m : SMap α) {k k' : Nat} (v : α) (h : k' ≠ k) :
    mget d (mset d m k v) k' = mget d m k' := by rw [mget_mset, if_neg h]

@[simp] theorem mget_nil (d : α) (k : Nat) : mget d ([] : SMap α) k = d := rfl

theorem mdel_subset (m : SMap α) (k : Nat) : ∀ e ∈ mdel m k, e ∈ m := by
  induction m with
  | nil => exact fun _ h => h
  | cons e r ih =>
    obtain ⟨a, v⟩ := e
    unfold mdel
    split
    · exact fun e h => List.mem_cons_of_mem _ (ih e h)
    · intro e h
      rcases List.mem_cons.1 h with rfl | h
      · exact List.mem_cons_self
      · exact List.mem_cons_of_mem _ (ih e h)

theorem mdel_rising (m : SMap α) (k : Nat) (h : SMap.rising m) : SMap.rising (mdel m k) := by
  induction m with
  | nil => exact h
  | cons e r ih =>
    obtain ⟨a, v⟩ := e
    unfold mdel
    have hr := (List.pairwise_cons.1 h)
    split
    · exact ih hr.2
    · exact List.pairwise_cons.2 ⟨fun e he => hr.1 e (mdel_subset r k e he), ih hr.2⟩

theorem mem_minsert (m : SMap α) (k : Nat) (v : α) : ∀ e ∈ minsert m k v, e = (k, v) ∨ e ∈ m := by
  induction m with
  | nil => intro e h; left; simpa [minsert] using h
  | cons e r ih =>
    obtain ⟨a, w⟩ := e
    unfold minsert
    split
    · intro e h
      rcases List.mem_cons.1 h with h | h
      · exact Or.inl h
      · exact Or.inr h
    · intro e h
      rcases List.mem_cons.1 h with rfl | h
      · exact Or.inr List.mem_cons_self
      · rcases ih e h with h | h
        · exact Or.inl h
        · exact Or.inr (List.mem_cons_of_mem _ h)

theorem minsert_rising (m : SMap α) (k : Nat) (v : α) (h : SMap.rising m) (hk : ∀ e ∈ m, e.1 ≠ k) :
    SMap.rising (minsert m k v) := by
  induction m with
  | nil => exact List.pairwise_singleton _ _
  | cons e r ih =>
    obtain ⟨a, w⟩ := e
    have hr := List.pairwise_cons.1 h
    have ha : a ≠ k := hk (a, w) List.mem_cons_self
    unfold minsert
    split
    · rename_i hlt
      refine List.pairwise_cons.2 ⟨?_, h⟩
      intro e he
      rcases List.mem_cons.1 he with rfl | he
      · exact hlt
      · exact Nat.lt_trans hlt (hr.1 e he)
    · refine List.pairwise_cons.2 ⟨?_, ih hr.2 (fun e he => hk e (List.mem_cons_of_mem _ he))⟩
      intro e he
      rcases mem_minsert r k v e he with rfl | he
      · simp only; omega
      · exact hr.1 e he

theorem mdel_key (m : SMap α) (k : Nat) : ∀ e ∈ mdel m k, e.1 ≠ k := by
  induction m with
  | nil => exact fun _ h => absurd h List.not_mem_nil
  | cons e r ih =>
    obtain ⟨a, v⟩ := e
    unfold mdel
    split
    · exact ih
    · rename_i ha
      intro e he
      rcases List.mem_cons.1 he with rfl | he
      · exact ha
      · exact ih e he

theorem mput_rising (m : SMap α) (k : Nat) (v : α) (h : SMap.rising m) : SMap.rising (mput m k v) :=
  minsert_rising _ _ _ (mdel_rising _ _ h) (mdel_key _ _)

/-- A write keeps the canonical form. -/
theorem mset_wf [DecidableEq α] (d : α) (m : SMap α) (k : Nat) (v : α) (h : SMap.wf d m) : SMap.wf d (mset d m k v) := by
  unfold mset
  split
  · exact ⟨mdel_rising _ _ h.1, fun e he => h.2 e (mdel_subset _ _ e he)⟩
  · rename_i hv
    refine ⟨mput_rising _ _ _ h.1, fun e he => ?_⟩
    rcases mem_minsert _ _ _ e he with rfl | he
    · exact hv
    · exact h.2 e (mdel_subset _ _ e he)

theorem mmod_wf [DecidableEq α] (d : α) (m : SMap α) (k : Nat) (f : α → α) (h : SMap.wf d m) : SMap.wf d (mmod d m k f) :=
  mset_wf d m k _ h

theorem mwrite_wf [DecidableEq α] (d : α) (vs : List α) : ∀ (m : SMap α) (k : Nat), SMap.wf d m → SMap.wf d (mwrite d m k vs) := by
  induction vs with
  | nil => exact fun _ _ h => h
  | cons v r ih => exact fun m k h => ih _ _ (mset_wf d m k v h)

theorem mwriteOpt_wf [DecidableEq α] (d : α) (vs : List (Option α)) :
    ∀ (m : SMap α) (k : Nat), SMap.wf d m → SMap.wf d (mwriteOpt d m k vs) := by
  induction vs with
  | nil => exact fun _ _ h => h
  | cons v r ih =>
    intro m k h
    cases v with
    | none => exact ih _ _ h
    | some v => exact ih _ _ (mset_wf d m k v h)

/-- Entries left out by a test leave a canonical table canonical. -/
theorem filter_wf (d : α) (m : SMap α) (p : Nat × α → Bool) (h : SMap.wf d m) : SMap.wf d (m.filter p) :=
  ⟨h.1.filter _, fun e he => h.2 e (List.mem_filter.1 he).1⟩

theorem filter_rising (m : SMap α) (p : Nat × α → Bool) (h : SMap.rising m) : SMap.rising (m.filter p) := h.filter _

/-- A table rebuilt entry by entry at the same keys, without entries that became the value of absent keys. -/
theorem filterMap_wf {β : Type} (d : α) (d' : β) (m : SMap α) (f : Nat × α → Option (Nat × β)) (h : SMap.wf d m)
    (hk : ∀ e e', f e = some e' → e'.1 = e.1) (hv : ∀ e e', e.2 ≠ d → f e = some e' → e'.2 ≠ d') :
    SMap.wf d' (m.filterMap f) := by
  constructor
  · refine List.Pairwise.filterMap f ?_ h.1
    intro a a' hlt b hb b' hb'
    rw [hk a b hb, hk a' b' hb']; exact hlt
  · intro e he
    obtain ⟨a, ha, hf⟩ := List.mem_filterMap.1 he
    exact hv a e (h.2 a ha) hf

/-- The entries of a table under a function of their values, those that became the value of absent keys left out. -/
theorem filterMapVal_wf {β : Type} [DecidableEq β] (d : α) (d' : β) (m : SMap α) (f : Nat × α → β) (h : SMap.wf d m) :
    SMap.wf d' (m.filterMap (fun e => if f e = d' then none else some (e.1, f e))) := by
  refine filterMap_wf d d' m _ h ?_ ?_
  · intro e e' he
    split at he
    · cases he
    · cases he; rfl
  · intro e e' _ he
    split at he
    · cases he
    · cases he; assumption

theorem nil_wf (d : α) : SMap.wf d ([] : SMap α) := ⟨List.Pairwise.nil, fun _ h => absurd h List.not_mem_nil⟩

end Sys2Proof.Machine
end

