-- ==== Sys2Proof/Laws/Keeps.lean ====
section
/-!
SUPPORT. What no operation of the block may break: the queue stays as it is, what has been driven outward stays driven,
the counter of free values never runs back, and every table of the state keeps its canonical form. One lemma per
operation says that it keeps all of this; a chain of operations then keeps it by their lemmas.
-/

namespace Sys2Proof.Machine

/-- What every operation keeps. -/
structure Keeps (s t : State) : Prop where
  pending : t.pending = s.pending
  out : s.out <+: t.out
  free : s.free ≤ t.free
  canon : Canon s → Canon t

theorem Keeps.refl (s : State) : Keeps s s := ⟨rfl, List.prefix_refl _, Nat.le_refl _, id⟩

theorem Keeps.trans {s t u : State} (h : Keeps s t) (k : Keeps t u) : Keeps s u :=
  ⟨k.pending.trans h.pending, h.out.trans k.out, Nat.le_trans h.free k.free, fun c => k.canon (h.canon c)⟩

/-- An update that leaves every kept part as it is. -/
theorem Keeps.same {s t u : State} (h : Keeps s t) (hp : u.pending = t.pending) (ho : u.out = t.out) (hf : u.free = t.free)
    (hc : Canon t → Canon u) : Keeps s u :=
  ⟨hp.trans h.pending, ho ▸ h.out, hf ▸ h.free, fun c => hc (h.canon c)⟩

theorem Keeps.hub {s t : State} {x : Hub} (h : Keeps s t) (hr : x.ramLog = t.hub.ramLog) (hl : x.flashLog = t.hub.flashLog) :
    Keeps s { t with hub := x } :=
  h.same rfl rfl rfl (fun c => { c with ram := by rw [hr]; exact c.ram, flash := by rw [hl]; exact c.flash })

theorem Keeps.mesh {s t : State} {x : Mesh} (h : Keeps s t) : Keeps s { t with mesh := x } :=
  h.same rfl rfl rfl (fun c => ⟨c.1, c.2, c.3, c.4, c.5, c.6, c.7, c.8, c.9, c.10, c.11⟩)

theorem Keeps.power {s t : State} {x : Power} (h : Keeps s t) : Keeps s { t with power := x } :=
  h.same rfl rfl rfl (fun c => ⟨c.1, c.2, c.3, c.4, c.5, c.6, c.7, c.8, c.9, c.10, c.11⟩)

theorem Keeps.hubPower {s t : State} {x : Hub} {y : Power} (h : Keeps s t) (hr : x.ramLog = t.hub.ramLog)
    (hl : x.flashLog = t.hub.flashLog) : Keeps s { t with hub := x, power := y } := (h.hub hr hl).power

theorem Keeps.blobFilter {s t : State} {p : Nat × List Byte → Bool} (h : Keeps s t) :
    Keeps s { t with odBlob := t.odBlob.filter p } :=
  h.same rfl rfl rfl (fun c => ⟨c.1, c.2, c.3, c.4, c.5, c.6, c.7, filter_rising _ _ c.8, c.9, c.10, c.11⟩)

theorem Keeps.fabric {s t : State} {x : Fabric} (h : Keeps s t) : Keeps s { t with fabric := x } :=
  h.same rfl rfl rfl (fun c => ⟨c.1, c.2, c.3, c.4, c.5, c.6, c.7, c.8, c.9, c.10, c.11⟩)

theorem Keeps.clk {s t : State} {n : Nat} (h : Keeps s t) (hn : n < 2 ^ 64) : Keeps s { t with clkTime := n } :=
  h.same rfl rfl rfl (fun c => ⟨c.1, c.2, c.3, c.4, c.5, c.6, c.7, c.8, c.9, c.10, hn⟩)

theorem Keeps.stk {s t : State} {x : Stacks} (h : Keeps s t) (hm : SMap.wf 0 t.stk.mem → SMap.wf 0 x.mem) :
    Keeps s { t with stk := x } :=
  h.same rfl rfl rfl (fun c => { c with mem := hm c.mem })

theorem Keeps.tiles {s t : State} {x : SMap Tile} (h : Keeps s t) (hm : SMap.wf {} t.tiles → SMap.wf {} x) :
    Keeps s { t with tiles := x } :=
  h.same rfl rfl rfl (fun c => { c with tiles := hm c.tiles })

theorem Keeps.setTile {s t : State} (h : Keeps s t) (a : TileId) (x : Tile) : Keeps s (t.setTile a x) :=
  h.tiles (mset_wf _ _ _ _)

theorem Keeps.modTile {s t : State} (h : Keeps s t) (a : TileId) (f : Tile → Tile) : Keeps s (t.modTile a f) := h.setTile _ _
theorem Keeps.modCb {s t : State} (h : Keeps s t) (a : TileId) (f : ChargeBank → ChargeBank) : Keeps s (t.modCb a f) := h.setTile _ _
theorem Keeps.modLk {s t : State} (h : Keeps s t) (a : TileId) (f : Lookout → Lookout) : Keeps s (t.modLk a f) := h.setTile _ _
theorem Keeps.modTv {s t : State} (h : Keeps s t) (a : TileId) (f : Tensor → Tensor) : Keeps s (t.modTv a f) := h.setTile _ _
theorem Keeps.modVu {s t : State} (h : Keeps s t) (a : TileId) (f : Vector → Vector) : Keeps s (t.modVu a f) := h.setTile _ _
theorem Keeps.modSp {s t : State} (h : Keeps s t) (a : TileId) (f : Spad → Spad) : Keeps s (t.modSp a f) := h.setTile _ _
theorem Keeps.modCc {s t : State} (h : Keeps s t) (a : TileId) (f : Core → Core) : Keeps s (t.modCc a f) := h.setTile _ _
theorem Keeps.modMv {s t : State} (h : Keeps s t) (a : TileId) (n : Nat) (f : Mover → Mover) : Keeps s (t.modMv a n f) := h.setTile _ _

theorem Keeps.modRouter {s t : State} (h : Keeps s t) (a : TileId) (f : Router → Router) : Keeps s (t.modRouter a f) :=
  h.same rfl rfl rfl (fun c => { c with routers := mset_wf _ _ _ _ c.routers })

theorem Keeps.modField {s t : State} (h : Keeps s t) (a : Nat) (f : Field → Field) : Keeps s (t.modField a f) :=
  h.same rfl rfl rfl (fun c => { c with fields := mset_wf _ _ _ _ c.fields })

theorem Keeps.modPart {s t : State} (h : Keeps s t) (a : Nat) (f : Partition → Partition) : Keeps s (t.modPart a f) :=
  h.same rfl rfl rfl (fun c => { c with parts := mset_wf _ _ _ _ c.parts })

theorem Keeps.modFn {s t : State} (h : Keeps s t) (p : Port) (n : Nat) (f : Function → Function) : Keeps s (t.modFn p n f) :=
  h.same rfl rfl rfl (fun c => { c with fns := mset_wf _ _ _ _ c.fns })

theorem odSetP_rising {t : State} (c : SMap.rising t.od) (i b p v : Nat) : SMap.rising (t.odSetP i b p v).od := by
  unfold State.odSetP
  dsimp only
  split
  · exact mdel_rising _ _ c
  · exact mput_rising _ _ _ c

theorem Keeps.odSetP {s t : State} (h : Keeps s t) (i b p v : Nat) : Keeps s (t.odSetP i b p v) :=
  h.same rfl rfl rfl (fun c => { c with od := odSetP_rising c.od _ _ _ _ })

theorem Keeps.odSet {s t : State} (h : Keeps s t) (i b v : Nat) : Keeps s (t.odSet i b v) := h.odSetP _ _ _ _
theorem Keeps.odAdd {s t : State} (h : Keeps s t) (i b v : Nat) : Keeps s (t.odAdd i b v) := h.odSetP _ _ _ _
theorem Keeps.odAddP {s t : State} (h : Keeps s t) (i b p v : Nat) : Keeps s (t.odAddP i b p v) := h.odSetP _ _ _ _

theorem Keeps.setBlobP {s t : State} (h : Keeps s t) (i b p : Nat) (v : List Byte) : Keeps s (t.setBlobP i b p v) :=
  h.same rfl rfl rfl (fun c => { c with blob := mput_rising _ _ _ c.blob })

theorem Keeps.emit {s t : State} (h : Keeps s t) (e : Emission) : Keeps s (t.emit e) :=
  ⟨h.pending, h.out.trans (List.prefix_append _ _), h.free, fun c => { h.canon c with }⟩

theorem Keeps.reply {s t : State} (h : Keeps s t) (c : Caller) (n : Nat) : Keeps s (t.reply c n) := h.emit _

theorem Keeps.useFree {s t : State} (h : Keeps s t) (n : Nat) : Keeps s (t.useFree n) :=
  ⟨h.pending, h.out, Nat.le_trans h.free (Nat.le_add_right _ _), fun c => { h.canon c with }⟩

theorem ringPush_length {α : Type} (n : Nat) (l : List α) (a : α) : (ringPush n l a).length ≤ n := by
  unfold ringPush
  dsimp only
  rw [List.length_drop]
  omega

theorem Keeps.ramLog {s t : State} (h : Keeps s t) (l : List LogEntry) (hl : l.length ≤ 8192) :
    Keeps s { t with hub := { t.hub with ramLog := l } } :=
  h.same rfl rfl rfl (fun c => ⟨c.1, c.2, c.3, c.4, c.5, c.6, c.7, c.8, hl, c.10, c.11⟩)

theorem Keeps.logAppend {s t : State} (h : Keeps s t) (e : LogEntry) : Keeps s (t.logAppend e) := by
  unfold State.logAppend
  exact Keeps.odSet (h.ramLog _ (ringPush_length _ _ _)) _ _ _

theorem Keeps.log {s t : State} (h : Keeps s t) (a : LogArgs) : Keeps s (t.log a) := by
  unfold State.log
  dsimp only
  split
  · split
    · exact h.hub rfl rfl
    · exact h.hub rfl rfl
  · exact h.logAppend _

/-- A change that keeps, made for each element of a list, keeps. -/
theorem Keeps.forEach {α : Type} {s : State} {f : α → State → State} (hf : ∀ a t, Keeps s t → Keeps s (f a t)) (l : List α) :
    ∀ {t : State}, Keeps s t → Keeps s (t.forEach l f) := by
  induction l with
  | nil => exact fun h => h
  | cons a r ih => exact fun h => ih (hf a _ h)

theorem Keeps.foldl {α : Type} {s : State} {f : State → α → State} (hf : ∀ t a, Keeps s t → Keeps s (f t a)) (l : List α) :
    ∀ {t : State}, Keeps s t → Keeps s (l.foldl f t) := by
  induction l with
  | nil => exact fun h => h
  | cons a r ih => exact fun h => ih (hf _ a h)

theorem Keeps.fst {α : Type} {s a : State} {b : α} {x : State × α} (h : Keeps s x.1) (e : x = (a, b)) : Keeps s a := by
  subst e; exact h

theorem Keeps.ite {s a b : State} {c : Prop} [Decidable c] (ha : c → Keeps s a) (hb : ¬c → Keeps s b) :
    Keeps s (if c then a else b) := by split; exact ha ‹_›; exact hb ‹_›

/-- `Keeps` of the state of an answer. -/
structure KeepsP {α : Type} (s : State) (x : State × α) : Prop where
  keeps : Keeps s x.1

theorem KeepsP.ite {α : Type} {s : State} {a b : State × α} {c : Prop} [Decidable c] (ha : c → KeepsP s a)
    (hb : ¬c → KeepsP s b) : KeepsP s (if c then a else b) := by split; exact ha ‹_›; exact hb ‹_›

theorem KeepsP.pair {α : Type} {s a : State} {b : α} (h : Keeps s a) : KeepsP s (a, b) := ⟨h⟩

/-- A meaning that answers a kept state. -/
theorem guardRes_keeps {s t u : State} {ok : Bool} (h : Keeps s t) (e : guardRes ok t = .next u) : Keeps s u := by
  unfold guardRes at e
  split at e
  · cases e; exact h
  · cases e

end Sys2Proof.Machine
end

