-- ==== Sys2Proof/Laws/KeepsOps.lean ====
section
/-!
SUPPORT. Every operation of Machine/Ops.lean keeps what `Keeps` says.
-/

namespace Sys2Proof.Machine

theorem idleTick_keeps {s0 s : State} (h : Keeps s0 s) : Keeps s0 (idleTick s) := by
  unfold idleTick
  split
  · exact h.clk (Nat.mod_lt _ (Nat.two_pow_pos 64))
  · exact h

end Sys2Proof.Machine
end

