-- ==== Sys2Proof/Laws/KeepsFaultOps.lean ====
section
/-!
SUPPORT. Every operation of Machine/FaultOps.lean keeps what `Keeps` says.
-/

namespace Sys2Proof.Machine

theorem State.traceStore_keeps {s0 s : State} (t : TileId) (x : Nat) (y : Nat) (rec32 : List Byte) (hK : Keeps s0 s) : Keeps s0 (State.traceStore s t x y rec32) := by
  unfold State.traceStore
  repeat' first
    | with_reducible assumption
    | intro _
    | with_reducible apply Keeps.modCc
    | with_reducible refine Keeps.fst ?_ (by assumption)
    | with_reducible apply Keeps.ite
    | with_reducible apply Keeps.forEach
    | with_reducible apply Keeps.foldl
    | split
    | extract_lets
    | fail_if_no_progress (with_reducible refine Keeps.stk ?_ id)
    | fail_if_no_progress (with_reducible refine Keeps.stk ?_ (mwrite_wf _ _ _ _))
    | fail_if_no_progress (with_reducible refine Keeps.stk ?_ (mset_wf _ _ _ _))
    | fail_if_no_progress (with_reducible refine Keeps.stk ?_ (filter_wf _ _ _))

theorem State.traceWrite_keeps {s0 s : State} (t : TileId) (typ : Nat) (data : List Byte) (hK : Keeps s0 s) : Keeps s0 (State.traceWrite s t typ data) := by
  unfold State.traceWrite
  repeat' first
    | with_reducible assumption
    | intro _
    | with_reducible apply Keeps.modCc
    | with_reducible apply Keeps.odAdd
    | with_reducible apply State.traceStore_keeps
    | with_reducible refine Keeps.fst ?_ (by assumption)
    | with_reducible apply Keeps.ite
    | with_reducible apply Keeps.forEach
    | with_reducible apply Keeps.foldl
    | split
    | extract_lets

theorem State.trace_keeps {s0 s : State} (t : TileId) (typ : Nat) (data : List Byte) (hK : Keeps s0 s) : Keeps s0 (State.trace s t typ data) := by
  unfold State.trace
  repeat' first
    | with_reducible assumption
    | intro _
    | with_reducible apply State.traceWrite_keeps
    | with_reducible refine Keeps.fst ?_ (by assumption)
    | with_reducible apply Keeps.ite
    | with_reducible apply Keeps.forEach
    | with_reducible apply Keeps.foldl
    | split
    | extract_lets

theorem State.latchFault_keeps {s0 s : State} (t : TileId) (r : FaultRec) (hK : Keeps s0 s) : Keeps s0 (State.latchFault s t r) := by
  unfold State.latchFault
  repeat' first
    | with_reducible assumption
    | intro _
    | with_reducible apply Keeps.modTile
    | with_reducible apply Keeps.odAdd
    | with_reducible apply Keeps.setBlobP
    | with_reducible apply Keeps.log
    | with_reducible apply State.trace_keeps
    | with_reducible refine Keeps.fst ?_ (by assumption)
    | with_reducible apply Keeps.ite
    | with_reducible apply Keeps.forEach
    | with_reducible apply Keeps.foldl
    | split
    | extract_lets

theorem State.faultLost_keeps {s0 s : State} (t : TileId) (hK : Keeps s0 s) : Keeps s0 (State.faultLost s t) := by
  unfold State.faultLost
  repeat' first
    | with_reducible assumption
    | intro _
    | with_reducible apply Keeps.modTile
    | with_reducible apply Keeps.odAdd
    | with_reducible refine Keeps.fst ?_ (by assumption)
    | with_reducible apply Keeps.ite
    | with_reducible apply Keeps.forEach
    | with_reducible apply Keeps.foldl
    | split
    | extract_lets

theorem State.stopCore_keeps {s0 s : State} (t : TileId) (hK : Keeps s0 s) : Keeps s0 (State.stopCore s t) := by
  unfold State.stopCore
  repeat' first
    | with_reducible assumption
    | intro _
    | with_reducible apply Keeps.modTile
    | with_reducible refine Keeps.fst ?_ (by assumption)
    | with_reducible apply Keeps.ite
    | with_reducible apply Keeps.forEach
    | with_reducible apply Keeps.foldl
    | split
    | extract_lets

theorem State.showActs_keeps {s0 s : State} (hK : Keeps s0 s) : Keeps s0 (State.showActs s) := by
  unfold State.showActs
  repeat' first
    | with_reducible assumption
    | intro _
    | with_reducible apply Keeps.odSet
    | with_reducible refine Keeps.fst ?_ (by assumption)
    | with_reducible apply Keeps.ite
    | with_reducible apply Keeps.forEach
    | with_reducible apply Keeps.foldl
    | split
    | extract_lets

theorem State.abandonRotation_keeps {s0 s : State} (f : Nat) (row : Nat) (hK : Keeps s0 s) : Keeps s0 (State.abandonRotation s f row) := by
  unfold State.abandonRotation
  repeat' first
    | with_reducible assumption
    | intro _
    | with_reducible apply Keeps.modField
    | with_reducible apply Keeps.odAdd
    | with_reducible apply State.showActs_keeps
    | with_reducible refine Keeps.fst ?_ (by assumption)
    | with_reducible apply Keeps.ite
    | with_reducible apply Keeps.forEach
    | with_reducible apply Keeps.foldl
    | split
    | extract_lets
    | fail_if_no_progress (with_reducible refine Keeps.hub ?_ rfl rfl)

theorem State.abandonRotations_keeps {s0 s : State} (f : Nat) (hK : Keeps s0 s) : Keeps s0 (State.abandonRotations s f) := by
  unfold State.abandonRotations
  repeat' first
    | with_reducible assumption
    | intro _
    | with_reducible apply State.abandonRotation_keeps
    | with_reducible refine Keeps.fst ?_ (by assumption)
    | with_reducible apply Keeps.ite
    | with_reducible apply Keeps.forEach
    | with_reducible apply Keeps.foldl
    | split
    | extract_lets

theorem State.burstReaches_keeps {s0 s : State} (t : TileId) (hK : Keeps s0 s) : Keeps s0 (State.burstReaches s t) := by
  unfold State.burstReaches
  repeat' first
    | with_reducible assumption
    | intro _
    | with_reducible apply State.abandonRotation_keeps
    | with_reducible refine Keeps.fst ?_ (by assumption)
    | with_reducible apply Keeps.ite
    | with_reducible apply Keeps.forEach
    | with_reducible apply Keeps.foldl
    | split
    | extract_lets

end Sys2Proof.Machine
end

