-- ==== Sys2Proof/Laws/KeepsMesh.lean ====
section
/-!
SUPPORT. Every operation of Machine/Mesh.lean keeps what `Keeps` says.
-/

namespace Sys2Proof.Machine

theorem State.enter_keeps {s0 s : State} (t : TileId) (port : Dir) (f : Flit) (hK : Keeps s0 s) : Keeps s0 (State.enter s t port f) := by
  unfold State.enter
  repeat' first
    | with_reducible assumption
    | intro _
    | with_reducible apply Keeps.modRouter
    | with_reducible refine Keeps.fst ?_ (by assumption)
    | with_reducible apply Keeps.ite
    | with_reducible apply Keeps.forEach
    | with_reducible apply Keeps.foldl
    | split
    | extract_lets

theorem State.feedFrom_keeps {s0 s : State} (t : TileId) (left : List (Dir × Flit)) (l : List (Dir × Flit)) (hK : Keeps s0 s) : Keeps s0 (State.feedFrom s t left l) := by
  induction l generalizing s t left with
  | nil =>
    unfold State.feedFrom
    repeat' first
      | with_reducible assumption
      | intro _
      | with_reducible apply Keeps.modRouter
      | with_reducible apply State.enter_keeps
      | with_reducible refine Keeps.fst ?_ (by assumption)
      | with_reducible apply Keeps.ite
      | with_reducible apply Keeps.forEach
      | with_reducible apply Keeps.foldl
      | split
      | extract_lets
  | cons a r ih =>
    unfold State.feedFrom
    repeat' first
      | with_reducible assumption
      | intro _
      | with_reducible apply ih
      | with_reducible apply Keeps.modRouter
      | with_reducible apply State.enter_keeps
      | with_reducible refine Keeps.fst ?_ (by assumption)
      | with_reducible apply Keeps.ite
      | with_reducible apply Keeps.forEach
      | with_reducible apply Keeps.foldl
      | split
      | extract_lets

theorem State.pumpFeed_keeps {s0 s : State} (t : TileId) (hK : Keeps s0 s) : Keeps s0 (State.pumpFeed s t) := by
  unfold State.pumpFeed
  repeat' first
    | with_reducible assumption
    | intro _
    | with_reducible apply State.feedFrom_keeps
    | with_reducible refine Keeps.fst ?_ (by assumption)
    | with_reducible apply Keeps.ite
    | with_reducible apply Keeps.forEach
    | with_reducible apply Keeps.foldl
    | split
    | extract_lets

theorem State.feedIn_keeps {s0 s : State} (t : TileId) (l : List (Dir × Flit)) (hK : Keeps s0 s) : Keeps s0 (State.feedIn s t l) := by
  unfold State.feedIn
  repeat' first
    | with_reducible assumption
    | intro _
    | with_reducible apply Keeps.modRouter
    | with_reducible apply State.pumpFeed_keeps
    | with_reducible refine Keeps.fst ?_ (by assumption)
    | with_reducible apply Keeps.ite
    | with_reducible apply Keeps.forEach
    | with_reducible apply Keeps.foldl
    | split
    | extract_lets

theorem State.inject_keeps {s0 s : State} (t : TileId) (m : Message) (hK : Keeps s0 s) : Keeps s0 (State.inject s t m).1 := by
  refine KeepsP.keeps ?_
  unfold State.inject
  repeat' first
    | with_reducible assumption
    | intro _
    | with_reducible apply KeepsP.ite
    | with_reducible apply Keeps.modTile
    | with_reducible apply State.feedIn_keeps
    | with_reducible refine Keeps.fst ?_ (by assumption)
    | with_reducible apply Keeps.ite
    | with_reducible apply Keeps.forEach
    | with_reducible apply Keeps.foldl
    | split
    | extract_lets
    | with_reducible apply KeepsP.pair

theorem State.sendRecord_keeps {s0 s : State} (t : TileId) (rec32 : List Byte) (hK : Keeps s0 s) : Keeps s0 (State.sendRecord s t rec32) := by
  unfold State.sendRecord
  repeat' first
    | with_reducible assumption
    | intro _
    | with_reducible apply State.faultLost_keeps
    | with_reducible apply State.inject_keeps
    | with_reducible refine Keeps.fst ?_ (by assumption)
    | with_reducible apply Keeps.ite
    | with_reducible apply Keeps.forEach
    | with_reducible apply Keeps.foldl
    | split
    | extract_lets

theorem State.raiseFault_keeps {s0 s : State} (t : TileId) (r : FaultRec) (hK : Keeps s0 s) : Keeps s0 (State.raiseFault s t r) := by
  unfold State.raiseFault
  repeat' first
    | with_reducible assumption
    | intro _
    | with_reducible apply State.latchFault_keeps
    | with_reducible apply State.sendRecord_keeps
    | with_reducible refine Keeps.fst ?_ (by assumption)
    | with_reducible apply Keeps.ite
    | with_reducible apply Keeps.forEach
    | with_reducible apply Keeps.foldl
    | split
    | extract_lets

theorem State.coreFault_keeps {s0 s : State} (t : TileId) (status : Nat) (fn : Nat) (addr : Nat) (cause : Nat) (hK : Keeps s0 s) : Keeps s0 (State.coreFault s t status fn addr cause) := by
  unfold State.coreFault
  repeat' first
    | with_reducible assumption
    | intro _
    | with_reducible apply State.stopCore_keeps
    | with_reducible apply State.raiseFault_keeps
    | with_reducible refine Keeps.fst ?_ (by assumption)
    | with_reducible apply Keeps.ite
    | with_reducible apply Keeps.forEach
    | with_reducible apply Keeps.foldl
    | split
    | extract_lets

theorem State.hubRecord_keeps {s0 s : State} (p : Nat) (t : TileId) (r : FaultRec) (hK : Keeps s0 s) : Keeps s0 (State.hubRecord s p t r) := by
  unfold State.hubRecord
  repeat' first
    | with_reducible assumption
    | intro _
    | with_reducible apply Keeps.modTile
    | with_reducible apply Keeps.odAdd
    | with_reducible apply Keeps.setBlobP
    | with_reducible refine Keeps.fst ?_ (by assumption)
    | with_reducible apply Keeps.ite
    | with_reducible apply Keeps.forEach
    | with_reducible apply Keeps.foldl
    | split
    | extract_lets

theorem State.countRefusal_keeps {s0 s : State} (t : TileId) (hK : Keeps s0 s) : Keeps s0 (State.countRefusal s t) := by
  unfold State.countRefusal
  repeat' first
    | with_reducible assumption
    | intro _
    | with_reducible apply Keeps.modRouter
    | with_reducible apply Keeps.odAdd
    | with_reducible refine Keeps.fst ?_ (by assumption)
    | with_reducible apply Keeps.ite
    | with_reducible apply Keeps.forEach
    | with_reducible apply Keeps.foldl
    | split
    | extract_lets

theorem State.sendVn1_keeps {s0 s : State} (t : TileId) (f : Flit) (hK : Keeps s0 s) : Keeps s0 (State.sendVn1 s t f) := by
  unfold State.sendVn1
  repeat' first
    | with_reducible assumption
    | intro _
    | with_reducible apply State.feedIn_keeps
    | with_reducible apply State.countRefusal_keeps
    | with_reducible refine Keeps.fst ?_ (by assumption)
    | with_reducible apply Keeps.ite
    | with_reducible apply Keeps.forEach
    | with_reducible apply Keeps.foldl
    | split
    | extract_lets

theorem State.refuse_keeps {s0 s : State} (t : TileId) (f : Flit) (code : Nat) (hK : Keeps s0 s) : Keeps s0 (State.refuse s t f code) := by
  unfold State.refuse
  repeat' first
    | with_reducible assumption
    | intro _
    | with_reducible apply Keeps.modRouter
    | with_reducible apply State.countRefusal_keeps
    | with_reducible apply State.sendVn1_keeps
    | with_reducible refine Keeps.fst ?_ (by assumption)
    | with_reducible apply Keeps.ite
    | with_reducible apply Keeps.forEach
    | with_reducible apply Keeps.foldl
    | split
    | extract_lets

theorem State.ejectFlit_keeps {s0 s : State} (t : TileId) (f : Flit) (hK : Keeps s0 s) : Keeps s0 (State.ejectFlit s t f) := by
  unfold State.ejectFlit
  repeat' first
    | with_reducible assumption
    | intro _
    | with_reducible apply Keeps.modTile
    | with_reducible apply State.raiseFault_keeps
    | with_reducible apply State.refuse_keeps
    | with_reducible refine Keeps.fst ?_ (by assumption)
    | with_reducible apply Keeps.ite
    | with_reducible apply Keeps.forEach
    | with_reducible apply Keeps.foldl
    | split
    | extract_lets

theorem State.sendFlit_keeps {s0 s : State} (t : TileId) (d : Dir) (f : Flit) (hK : Keeps s0 s) : Keeps s0 (State.sendFlit s t d f) := by
  unfold State.sendFlit
  repeat' first
    | with_reducible assumption
    | intro _
    | with_reducible apply Keeps.emit
    | with_reducible apply State.enter_keeps
    | with_reducible apply State.refuse_keeps
    | with_reducible refine Keeps.fst ?_ (by assumption)
    | with_reducible apply Keeps.ite
    | with_reducible apply Keeps.forEach
    | with_reducible apply Keeps.foldl
    | split
    | extract_lets

theorem State.refuseL_keeps {s0 s : State} (t : TileId) (f : Flit) (hK : Keeps s0 s) : Keeps s0 (State.refuseL s t f) := by
  unfold State.refuseL
  repeat' first
    | with_reducible assumption
    | intro _
    | with_reducible apply Keeps.modRouter
    | with_reducible apply State.refuse_keeps
    | with_reducible refine Keeps.fst ?_ (by assumption)
    | with_reducible apply Keeps.ite
    | with_reducible apply Keeps.forEach
    | with_reducible apply Keeps.foldl
    | split
    | extract_lets

theorem State.sendCopy_keeps {s0 s : State} (t : TileId) (f : Flit) (d : Dir) (hK : Keeps s0 s) : Keeps s0 (State.sendCopy s t f d) := by
  unfold State.sendCopy
  repeat' first
    | with_reducible assumption
    | intro _
    | with_reducible apply State.ejectFlit_keeps
    | with_reducible apply State.sendFlit_keeps
    | with_reducible apply State.refuseL_keeps
    | with_reducible refine Keeps.fst ?_ (by assumption)
    | with_reducible apply Keeps.ite
    | with_reducible apply Keeps.forEach
    | with_reducible apply Keeps.foldl
    | split
    | extract_lets

theorem State.sendCopies_keeps {s0 s : State} (t : TileId) (outs : List Dir) (f : Flit) (hK : Keeps s0 s) : Keeps s0 (State.sendCopies s t outs f) := by
  unfold State.sendCopies
  repeat' first
    | with_reducible assumption
    | intro _
    | with_reducible apply State.sendCopy_keeps
    | with_reducible refine Keeps.fst ?_ (by assumption)
    | with_reducible apply Keeps.ite
    | with_reducible apply Keeps.forEach
    | with_reducible apply Keeps.foldl
    | split
    | extract_lets

theorem State.noteGrant_keeps {s0 s : State} (t : TileId) (e : InFlit) (d : Dir) (hK : Keeps s0 s) : Keeps s0 (State.noteGrant s t e d) := by
  unfold State.noteGrant
  repeat' first
    | with_reducible assumption
    | intro _
    | with_reducible apply Keeps.modRouter
    | with_reducible refine Keeps.fst ?_ (by assumption)
    | with_reducible apply Keeps.ite
    | with_reducible apply Keeps.forEach
    | with_reducible apply Keeps.foldl
    | split
    | extract_lets
    | fail_if_no_progress (with_reducible apply Keeps.mesh)

theorem State.takeIn_keeps {s0 s : State} (t : TileId) (e : InFlit) (hK : Keeps s0 s) : Keeps s0 (State.takeIn s t e) := by
  unfold State.takeIn
  repeat' first
    | with_reducible assumption
    | intro _
    | with_reducible apply Keeps.modRouter
    | with_reducible apply State.pumpFeed_keeps
    | with_reducible refine Keeps.fst ?_ (by assumption)
    | with_reducible apply Keeps.ite
    | with_reducible apply Keeps.forEach
    | with_reducible apply Keeps.foldl
    | split
    | extract_lets

theorem State.sendKey_keeps {s0 s : State} (t : TileId) (k : RedKey) (hK : Keeps s0 s) : Keeps s0 (State.sendKey s t k) := by
  unfold State.sendKey
  repeat' first
    | with_reducible assumption
    | intro _
    | with_reducible apply Keeps.modRouter
    | with_reducible apply State.sendCopies_keeps
    | with_reducible apply State.noteGrant_keeps
    | with_reducible refine Keeps.fst ?_ (by assumption)
    | with_reducible apply Keeps.ite
    | with_reducible apply Keeps.forEach
    | with_reducible apply Keeps.foldl
    | split
    | extract_lets

theorem State.releaseKey_keeps {s0 s : State} (t : TileId) (k : RedKey) (incomplete : Bool) (hK : Keeps s0 s) : Keeps s0 (State.releaseKey s t k incomplete) := by
  unfold State.releaseKey
  repeat' first
    | with_reducible assumption
    | intro _
    | with_reducible apply Keeps.modRouter
    | with_reducible apply Keeps.odAdd
    | with_reducible apply State.sendKey_keeps
    | with_reducible refine Keeps.fst ?_ (by assumption)
    | with_reducible apply Keeps.ite
    | with_reducible apply Keeps.forEach
    | with_reducible apply Keeps.foldl
    | split
    | extract_lets

theorem State.contribute_keeps {s0 s : State} (t : TileId) (e : InFlit) (hK : Keeps s0 s) : Keeps s0 (State.contribute s t e) := by
  unfold State.contribute
  repeat' first
    | with_reducible assumption
    | intro _
    | with_reducible apply Keeps.modRouter
    | with_reducible apply State.refuse_keeps
    | with_reducible apply State.takeIn_keeps
    | with_reducible refine Keeps.fst ?_ (by assumption)
    | with_reducible apply Keeps.ite
    | with_reducible apply Keeps.forEach
    | with_reducible apply Keeps.foldl
    | split
    | extract_lets

theorem State.failLink_keeps {s0 s : State} (t : TileId) (d : Dir) (hK : Keeps s0 s) : Keeps s0 (State.failLink s t d) := by
  unfold State.failLink
  repeat' first
    | with_reducible assumption
    | intro _
    | with_reducible apply Keeps.modRouter
    | with_reducible apply Keeps.odAdd
    | with_reducible apply Keeps.log
    | with_reducible apply State.hubRecord_keeps
    | with_reducible refine Keeps.fst ?_ (by assumption)
    | with_reducible apply Keeps.ite
    | with_reducible apply Keeps.forEach
    | with_reducible apply Keeps.foldl
    | split
    | extract_lets
    | fail_if_no_progress (with_reducible apply Keeps.mesh)

theorem State.linkEvent_keeps {s0 s : State} (t : TileId) (port : Dir) (e : LinkEvent) (hK : Keeps s0 s) : Keeps s0 (State.linkEvent s t port e) := by
  unfold State.linkEvent
  repeat' first
    | with_reducible assumption
    | intro _
    | with_reducible apply Keeps.modRouter
    | with_reducible apply Keeps.odAdd
    | with_reducible apply State.failLink_keeps
    | with_reducible refine Keeps.fst ?_ (by assumption)
    | with_reducible apply Keeps.ite
    | with_reducible apply Keeps.forEach
    | with_reducible apply Keeps.foldl
    | split
    | extract_lets

theorem execMessageInjection_keeps {s0 s u : State} (t : TileId) (m : Message) (hK : Keeps s0 s) (e : execMessageInjection t m s = .next u) : Keeps s0 u := by
  unfold execMessageInjection at e
  refine guardRes_keeps ?_ e
  repeat' first
    | with_reducible assumption
    | intro _
    | with_reducible apply Keeps.emit
    | with_reducible apply State.inject_keeps
    | with_reducible apply State.countRefusal_keeps
    | with_reducible refine Keeps.fst ?_ (by assumption)
    | with_reducible apply Keeps.ite
    | with_reducible apply Keeps.forEach
    | with_reducible apply Keeps.foldl
    | split
    | extract_lets

theorem State.forwardCopies_keeps {s0 s : State} (t : TileId) (e : InFlit) (hK : Keeps s0 s) : Keeps s0 (State.forwardCopies s t e) := by
  unfold State.forwardCopies
  repeat' first
    | with_reducible assumption
    | intro _
    | with_reducible apply Keeps.modRouter
    | with_reducible apply State.sendCopies_keeps
    | with_reducible apply State.noteGrant_keeps
    | with_reducible apply State.takeIn_keeps
    | with_reducible refine Keeps.fst ?_ (by assumption)
    | with_reducible apply Keeps.ite
    | with_reducible apply Keeps.forEach
    | with_reducible apply Keeps.foldl
    | split
    | extract_lets

theorem State.forwardRoute_keeps {s0 s : State} (t : TileId) (e : InFlit) (hK : Keeps s0 s) : Keeps s0 (State.forwardRoute s t e) := by
  unfold State.forwardRoute
  repeat' first
    | with_reducible assumption
    | intro _
    | with_reducible apply State.refuse_keeps
    | with_reducible apply State.takeIn_keeps
    | with_reducible apply State.contribute_keeps
    | with_reducible apply State.forwardCopies_keeps
    | with_reducible refine Keeps.fst ?_ (by assumption)
    | with_reducible apply Keeps.ite
    | with_reducible apply Keeps.forEach
    | with_reducible apply Keeps.foldl
    | split
    | extract_lets

theorem State.discard_keeps {s0 s : State} (t : TileId) (e : InFlit) (hK : Keeps s0 s) : Keeps s0 (State.discard s t e) := by
  unfold State.discard
  repeat' first
    | with_reducible assumption
    | intro _
    | with_reducible apply Keeps.modRouter
    | with_reducible apply State.takeIn_keeps
    | with_reducible refine Keeps.fst ?_ (by assumption)
    | with_reducible apply Keeps.ite
    | with_reducible apply Keeps.forEach
    | with_reducible apply Keeps.foldl
    | split
    | extract_lets

theorem State.forwardFlit_keeps {s0 s : State} (t : TileId) (e : InFlit) (hK : Keeps s0 s) : Keeps s0 (State.forwardFlit s t e) := by
  unfold State.forwardFlit
  repeat' first
    | with_reducible assumption
    | intro _
    | with_reducible apply State.sendFlit_keeps
    | with_reducible apply State.noteGrant_keeps
    | with_reducible apply State.takeIn_keeps
    | with_reducible apply State.forwardRoute_keeps
    | with_reducible apply State.discard_keeps
    | with_reducible refine Keeps.fst ?_ (by assumption)
    | with_reducible apply Keeps.ite
    | with_reducible apply Keeps.forEach
    | with_reducible apply Keeps.foldl
    | split
    | extract_lets

theorem execFlitForward_keeps {s0 s u : State} (t : TileId) (port : Dir) (vn : Nat) (link : LinkEvent) (hK : Keeps s0 s) (e : execFlitForward t port vn link s = .next u) : Keeps s0 u := by
  unfold execFlitForward at e
  refine guardRes_keeps ?_ e
  have h0 := State.linkEvent_keeps t port link hK
  cases s.headsAt t port vn with
  | nil => exact hK
  | cons x r =>
    refine Keeps.ite (fun _ => State.refuse_keeps _ _ _ (State.takeIn_keeps _ _ h0)) (fun _ => ?_)
    split
    · exact h0
    · exact State.forwardFlit_keeps _ _ h0

theorem execFlitEjection_keeps {s0 s u : State} (t : TileId) (port : Dir) (vn : Nat) (hK : Keeps s0 s) (e : execFlitEjection t port vn s = .next u) : Keeps s0 u := by
  unfold execFlitEjection at e
  refine guardRes_keeps ?_ e
  repeat' first
    | with_reducible assumption
    | intro _
    | with_reducible apply State.ejectFlit_keeps
    | with_reducible apply State.noteGrant_keeps
    | with_reducible apply State.takeIn_keeps
    | with_reducible refine Keeps.fst ?_ (by assumption)
    | with_reducible apply Keeps.ite
    | with_reducible apply Keeps.forEach
    | with_reducible apply Keeps.foldl
    | split
    | extract_lets

theorem execReductionCombine_keeps {s0 s u : State} (t : TileId) (route : Nat) (id : Nat) (window : Nat) (offset : Nat) (hK : Keeps s0 s) (e : execReductionCombine t route id window offset s = .next u) : Keeps s0 u := by
  unfold execReductionCombine at e
  refine guardRes_keeps ?_ e
  repeat' first
    | with_reducible assumption
    | intro _
    | with_reducible apply State.sendKey_keeps
    | with_reducible apply State.releaseKey_keeps
    | with_reducible refine Keeps.fst ?_ (by assumption)
    | with_reducible apply Keeps.ite
    | with_reducible apply Keeps.forEach
    | with_reducible apply Keeps.foldl
    | split
    | extract_lets

theorem execReductionTimeout_keeps {s0 s u : State} (t : TileId) (route : Nat) (id : Nat) (window : Nat) (offset : Nat) (hK : Keeps s0 s) (e : execReductionTimeout t route id window offset s = .next u) : Keeps s0 u := by
  unfold execReductionTimeout at e
  refine guardRes_keeps ?_ e
  repeat' first
    | with_reducible assumption
    | intro _
    | with_reducible apply Keeps.modRouter
    | with_reducible apply Keeps.odAdd
    | with_reducible apply State.releaseKey_keeps
    | with_reducible refine Keeps.fst ?_ (by assumption)
    | with_reducible apply Keeps.ite
    | with_reducible apply Keeps.forEach
    | with_reducible apply Keeps.foldl
    | split
    | extract_lets

theorem execReleasedKeyExpiry_keeps {s0 s u : State} (t : TileId) (route : Nat) (id : Nat) (window : Nat) (offset : Nat) (hK : Keeps s0 s) (e : execReleasedKeyExpiry t route id window offset s = .next u) : Keeps s0 u := by
  unfold execReleasedKeyExpiry at e
  refine guardRes_keeps ?_ e
  repeat' first
    | with_reducible assumption
    | intro _
    | with_reducible apply Keeps.modRouter
    | with_reducible refine Keeps.fst ?_ (by assumption)
    | with_reducible apply Keeps.ite
    | with_reducible apply Keeps.forEach
    | with_reducible apply Keeps.foldl
    | split
    | extract_lets

theorem execRimIngress_keeps {s0 s u : State} (side : Dir) (f : Flit) (hK : Keeps s0 s) (e : execRimIngress side f s = .next u) : Keeps s0 u := by
  unfold execRimIngress at e
  refine guardRes_keeps ?_ e
  repeat' first
    | with_reducible assumption
    | intro _
    | with_reducible apply Keeps.emit
    | with_reducible apply State.feedIn_keeps
    | with_reducible refine Keeps.fst ?_ (by assumption)
    | with_reducible apply Keeps.ite
    | with_reducible apply Keeps.forEach
    | with_reducible apply Keeps.foldl
    | split
    | extract_lets

end Sys2Proof.Machine
end

