-- ==== Sys2Proof/Laws/KeepsSpad.lean ====
section
/-!
SUPPORT. Every operation of Machine/Spad.lean keeps what `Keeps` says.
-/

namespace Sys2Proof.Machine

theorem State.memFault_keeps {s0 s : State} (t : TileId) (status : Nat) (agent : Nat) (addr : Nat) (loc : Nat) (hK : Keeps s0 s) : Keeps s0 (State.memFault s t status agent addr loc) := by
  unfold State.memFault
  repeat' first
    | with_reducible assumption
    | intro _
    | with_reducible apply Keeps.modSp
    | with_reducible apply Keeps.odAdd
    | with_reducible apply State.raiseFault_keeps
    | with_reducible refine Keeps.fst ?_ (by assumption)
    | with_reducible apply Keeps.ite
    | with_reducible apply Keeps.forEach
    | with_reducible apply Keeps.foldl
    | split
    | extract_lets

theorem State.granuleFault_keeps {s0 s : State} (t : TileId) (agent : Nat) (loc : Nat) (g : Nat) (hK : Keeps s0 s) : Keeps s0 (State.granuleFault s t agent loc g) := by
  unfold State.granuleFault
  repeat' first
    | with_reducible assumption
    | intro _
    | with_reducible apply Keeps.modSp
    | with_reducible apply Keeps.odAdd
    | with_reducible apply State.memFault_keeps
    | with_reducible refine Keeps.fst ?_ (by assumption)
    | with_reducible apply Keeps.ite
    | with_reducible apply Keeps.forEach
    | with_reducible apply Keeps.foldl
    | split
    | extract_lets

theorem State.spPut_keeps {s0 s : State} (t : TileId) (agent : Nat) (loc : Nat) (off : Nat) (bs : List (Option Byte)) (hK : Keeps s0 s) : Keeps s0 (State.spPut s t agent loc off bs) := by
  unfold State.spPut
  repeat' first
    | with_reducible assumption
    | intro _
    | with_reducible apply Keeps.modSp
    | with_reducible apply State.granuleFault_keeps
    | with_reducible refine Keeps.fst ?_ (by assumption)
    | with_reducible apply Keeps.ite
    | with_reducible apply Keeps.forEach
    | with_reducible apply Keeps.foldl
    | split
    | extract_lets

theorem State.spStore_keeps {s0 s : State} (t : TileId) (agent : Nat) (loc : Nat) (off : Nat) (bs : List (Option Byte)) (hK : Keeps s0 s) : Keeps s0 (State.spStore s t agent loc off bs) := by
  unfold State.spStore
  repeat' first
    | with_reducible assumption
    | intro _
    | with_reducible apply Keeps.modMv
    | with_reducible apply State.memFault_keeps
    | with_reducible apply State.spPut_keeps
    | with_reducible refine Keeps.fst ?_ (by assumption)
    | with_reducible apply Keeps.ite
    | with_reducible apply Keeps.forEach
    | with_reducible apply Keeps.foldl
    | split
    | extract_lets

theorem State.spGet_keeps {s0 s : State} (t : TileId) (agent : Nat) (loc : Nat) (off : Nat) (n : Nat) (hK : Keeps s0 s) : Keeps s0 (State.spGet s t agent loc off n).1 := by
  refine KeepsP.keeps ?_
  unfold State.spGet
  repeat' first
    | with_reducible assumption
    | intro _
    | with_reducible apply KeepsP.ite
    | with_reducible apply Keeps.useFree
    | with_reducible apply State.granuleFault_keeps
    | with_reducible refine Keeps.fst ?_ (by assumption)
    | with_reducible apply Keeps.ite
    | with_reducible apply Keeps.forEach
    | with_reducible apply Keeps.foldl
    | split
    | extract_lets
    | with_reducible apply KeepsP.pair

theorem State.meetRanges_keeps {s0 s : State} (t : TileId) (agent : Nat) (l : List (Nat × Nat)) (hK : Keeps s0 s) : Keeps s0 (State.meetRanges s t agent l) := by
  unfold State.meetRanges
  repeat' first
    | with_reducible assumption
    | intro _
    | with_reducible apply State.granuleFault_keeps
    | with_reducible refine Keeps.fst ?_ (by assumption)
    | with_reducible apply Keeps.ite
    | with_reducible apply Keeps.forEach
    | with_reducible apply Keeps.foldl
    | split
    | extract_lets

theorem State.eccEffect_keeps {s0 s : State} (t : TileId) (e : EccFind) (hK : Keeps s0 s) : Keeps s0 (State.eccEffect s t e) := by
  unfold State.eccEffect
  repeat' first
    | with_reducible assumption
    | intro _
    | with_reducible apply Keeps.modSp
    | with_reducible apply Keeps.odAdd
    | with_reducible refine Keeps.fst ?_ (by assumption)
    | with_reducible apply Keeps.ite
    | with_reducible apply Keeps.forEach
    | with_reducible apply Keeps.foldl
    | split
    | extract_lets

theorem execScratchpadAccess_keeps {s0 s u : State} (t : TileId) (acc : SpAccess) (hK : Keeps s0 s) (e : execScratchpadAccess t acc s = .next u) : Keeps s0 u := by
  unfold execScratchpadAccess at e
  refine guardRes_keeps ?_ e
  repeat' first
    | with_reducible assumption
    | intro _
    | with_reducible apply Keeps.modSp
    | with_reducible apply State.memFault_keeps
    | with_reducible apply State.spStore_keeps
    | with_reducible apply State.spGet_keeps
    | with_reducible apply State.eccEffect_keeps
    | with_reducible refine Keeps.fst ?_ (by assumption)
    | with_reducible apply Keeps.ite
    | with_reducible apply Keeps.forEach
    | with_reducible apply Keeps.foldl
    | split
    | extract_lets

theorem State.takeRx_keeps {s0 s : State} (t : TileId) (p : Flit → Bool) (hK : Keeps s0 s) : Keeps s0 (State.takeRx s t p) := by
  unfold State.takeRx
  repeat' first
    | with_reducible assumption
    | intro _
    | with_reducible apply Keeps.modTile
    | with_reducible refine Keeps.fst ?_ (by assumption)
    | with_reducible apply Keeps.ite
    | with_reducible apply Keeps.forEach
    | with_reducible apply Keeps.foldl
    | split
    | extract_lets

theorem State.inTurn_keeps {s0 s : State} (t : TileId) (p : Flit → Bool) (go : State) (hgo : Keeps s0 go) (hK : Keeps s0 s) : Keeps s0 (State.inTurn s t p go) := by
  unfold State.inTurn
  repeat' first
    | with_reducible assumption
    | intro _
    | with_reducible apply hgo
    | with_reducible refine Keeps.fst ?_ (by assumption)
    | with_reducible apply Keeps.ite
    | with_reducible apply Keeps.forEach
    | with_reducible apply Keeps.foldl
    | split
    | extract_lets

theorem State.ackWrite_keeps {s0 s : State} (t : TileId) (f : Flit) (hK : Keeps s0 s) : Keeps s0 (State.ackWrite s t f) := by
  unfold State.ackWrite
  repeat' first
    | with_reducible assumption
    | intro _
    | with_reducible apply State.sendVn1_keeps
    | with_reducible refine Keeps.fst ?_ (by assumption)
    | with_reducible apply Keeps.ite
    | with_reducible apply Keeps.forEach
    | with_reducible apply Keeps.foldl
    | split
    | extract_lets

theorem State.ackTaken_keeps {s0 s : State} (t : TileId) (T : Tile) (p : Flit → Bool) (hK : Keeps s0 s) : Keeps s0 (State.ackTaken s t T p) := by
  unfold State.ackTaken
  repeat' first
    | with_reducible assumption
    | intro _
    | with_reducible apply State.ackWrite_keeps
    | with_reducible refine Keeps.fst ?_ (by assumption)
    | with_reducible apply Keeps.ite
    | with_reducible apply Keeps.forEach
    | with_reducible apply Keeps.foldl
    | split
    | extract_lets

theorem State.remoteRefuse_keeps {s0 s : State} (t : TileId) (f : Flit) (code : Nat) (hK : Keeps s0 s) : Keeps s0 (State.remoteRefuse s t f code) := by
  unfold State.remoteRefuse
  repeat' first
    | with_reducible assumption
    | intro _
    | with_reducible apply State.refuse_keeps
    | with_reducible apply State.memFault_keeps
    | with_reducible refine Keeps.fst ?_ (by assumption)
    | with_reducible apply Keeps.ite
    | with_reducible apply Keeps.forEach
    | with_reducible apply Keeps.foldl
    | split
    | extract_lets

theorem State.remoteStore_keeps {s0 s : State} (t : TileId) (f : Flit) (off : Nat) (bs : List (Option Byte)) (hK : Keeps s0 s) : Keeps s0 (State.remoteStore s t f off bs).1 := by
  refine KeepsP.keeps ?_
  unfold State.remoteStore
  repeat' first
    | with_reducible assumption
    | intro _
    | with_reducible apply KeepsP.ite
    | with_reducible apply State.spStore_keeps
    | with_reducible refine Keeps.fst ?_ (by assumption)
    | with_reducible apply Keeps.ite
    | with_reducible apply Keeps.forEach
    | with_reducible apply Keeps.foldl
    | split
    | extract_lets
    | with_reducible apply KeepsP.pair

theorem execRemoteWrite_keeps {s0 s u : State} (t : TileId) (f : Flit) (hK : Keeps s0 s) (e : execRemoteWrite t f s = .next u) : Keeps s0 u := by
  unfold execRemoteWrite at e
  refine guardRes_keeps ?_ e
  repeat' first
    | with_reducible assumption
    | intro _
    | with_reducible apply Keeps.modCb
    | with_reducible apply State.refuse_keeps
    | with_reducible apply State.takeRx_keeps
    | with_reducible apply State.inTurn_keeps
    | with_reducible apply State.ackWrite_keeps
    | with_reducible apply State.remoteRefuse_keeps
    | with_reducible apply State.remoteStore_keeps
    | with_reducible refine Keeps.fst ?_ (by assumption)
    | with_reducible apply Keeps.ite
    | with_reducible apply Keeps.forEach
    | with_reducible apply Keeps.foldl
    | split
    | extract_lets

theorem State.windowGet_keeps {s0 s : State} (t : TileId) (f : Flit) (off : Nat) (n : Nat) (hK : Keeps s0 s) : Keeps s0 (State.windowGet s t f off n).1 := by
  refine KeepsP.keeps ?_
  unfold State.windowGet
  repeat' first
    | with_reducible assumption
    | intro _
    | with_reducible apply KeepsP.ite
    | with_reducible apply State.spGet_keeps
    | with_reducible refine Keeps.fst ?_ (by assumption)
    | with_reducible apply Keeps.ite
    | with_reducible apply Keeps.forEach
    | with_reducible apply Keeps.foldl
    | split
    | extract_lets
    | with_reducible apply KeepsP.pair

theorem State.sendWords_keeps {s0 s : State} (t : TileId) (f : Flit) (l : List (List Byte)) (hK : Keeps s0 s) : Keeps s0 (State.sendWords s t f l) := by
  induction l generalizing s t f with
  | nil =>
    unfold State.sendWords
    repeat' first
      | with_reducible assumption
      | intro _
      | with_reducible apply State.sendVn1_keeps
      | with_reducible refine Keeps.fst ?_ (by assumption)
      | with_reducible apply Keeps.ite
      | with_reducible apply Keeps.forEach
      | with_reducible apply Keeps.foldl
      | split
      | extract_lets
  | cons a r ih =>
    unfold State.sendWords
    repeat' first
      | with_reducible assumption
      | intro _
      | with_reducible apply ih
      | with_reducible apply State.sendVn1_keeps
      | with_reducible refine Keeps.fst ?_ (by assumption)
      | with_reducible apply Keeps.ite
      | with_reducible apply Keeps.forEach
      | with_reducible apply Keeps.foldl
      | split
      | extract_lets

theorem execRemoteRead_keeps {s0 s u : State} (t : TileId) (f : Flit) (hK : Keeps s0 s) (e : execRemoteRead t f s = .next u) : Keeps s0 u := by
  unfold execRemoteRead at e
  refine guardRes_keeps ?_ e
  repeat' first
    | with_reducible assumption
    | intro _
    | with_reducible apply State.refuse_keeps
    | with_reducible apply State.takeRx_keeps
    | with_reducible apply State.inTurn_keeps
    | with_reducible apply State.remoteRefuse_keeps
    | with_reducible apply State.windowGet_keeps
    | with_reducible apply State.sendWords_keeps
    | with_reducible refine Keeps.fst ?_ (by assumption)
    | with_reducible apply Keeps.ite
    | with_reducible apply Keeps.forEach
    | with_reducible apply Keeps.foldl
    | split
    | extract_lets

theorem State.atomic_keeps {s0 s : State} (t : TileId) (f : Flit) (op : Nat) (hK : Keeps s0 s) : Keeps s0 (State.atomic s t f op) := by
  unfold State.atomic
  repeat' first
    | with_reducible assumption
    | intro _
    | with_reducible apply State.sendVn1_keeps
    | with_reducible apply State.refuse_keeps
    | with_reducible apply State.spGet_keeps
    | with_reducible apply State.takeRx_keeps
    | with_reducible apply State.remoteRefuse_keeps
    | with_reducible apply State.remoteStore_keeps
    | with_reducible refine Keeps.fst ?_ (by assumption)
    | with_reducible apply Keeps.ite
    | with_reducible apply Keeps.forEach
    | with_reducible apply Keeps.foldl
    | split
    | extract_lets

theorem execFetchAndAdd_keeps {s0 s u : State} (t : TileId) (f : Flit) (hK : Keeps s0 s) (e : execFetchAndAdd t f s = .next u) : Keeps s0 u := by
  unfold execFetchAndAdd at e
  refine guardRes_keeps ?_ e
  repeat' first
    | with_reducible assumption
    | intro _
    | with_reducible apply State.inTurn_keeps
    | with_reducible apply State.atomic_keeps
    | with_reducible refine Keeps.fst ?_ (by assumption)
    | with_reducible apply Keeps.ite
    | with_reducible apply Keeps.forEach
    | with_reducible apply Keeps.foldl
    | split
    | extract_lets

theorem execCompareAndSwap32_keeps {s0 s u : State} (t : TileId) (f : Flit) (hK : Keeps s0 s) (e : execCompareAndSwap32 t f s = .next u) : Keeps s0 u := by
  unfold execCompareAndSwap32 at e
  refine guardRes_keeps ?_ e
  repeat' first
    | with_reducible assumption
    | intro _
    | with_reducible apply State.inTurn_keeps
    | with_reducible apply State.atomic_keeps
    | with_reducible refine Keeps.fst ?_ (by assumption)
    | with_reducible apply Keeps.ite
    | with_reducible apply Keeps.forEach
    | with_reducible apply Keeps.foldl
    | split
    | extract_lets

theorem execCompareAndSwap64_keeps {s0 s u : State} (t : TileId) (f : Flit) (hK : Keeps s0 s) (e : execCompareAndSwap64 t f s = .next u) : Keeps s0 u := by
  unfold execCompareAndSwap64 at e
  refine guardRes_keeps ?_ e
  repeat' first
    | with_reducible assumption
    | intro _
    | with_reducible apply State.inTurn_keeps
    | with_reducible apply State.atomic_keeps
    | with_reducible refine Keeps.fst ?_ (by assumption)
    | with_reducible apply Keeps.ite
    | with_reducible apply Keeps.forEach
    | with_reducible apply Keeps.foldl
    | split
    | extract_lets

theorem execVectorQueueWord_keeps {s0 s u : State} (t : TileId) (idx : Nat) (word : List Byte) (hK : Keeps s0 s) (e : execVectorQueueWord t idx word s = .next u) : Keeps s0 u := by
  unfold execVectorQueueWord at e
  refine guardRes_keeps ?_ e
  repeat' first
    | with_reducible assumption
    | intro _
    | with_reducible apply Keeps.modVu
    | with_reducible apply State.takeRx_keeps
    | with_reducible apply State.inTurn_keeps
    | with_reducible apply State.ackTaken_keeps
    | with_reducible refine Keeps.fst ?_ (by assumption)
    | with_reducible apply Keeps.ite
    | with_reducible apply Keeps.forEach
    | with_reducible apply Keeps.foldl
    | split
    | extract_lets

end Sys2Proof.Machine
end

