-- ==== Sys2Proof/Laws/KeepsStack.lean ====
section
/-!
SUPPORT. Every operation of Machine/Stack.lean keeps what `Keeps` says.
-/

namespace Sys2Proof.Machine

theorem State.setBad_keeps {s0 s : State} (unit : Nat) (b : Bool) (hK : Keeps s0 s) : Keeps s0 (State.setBad s unit b) := by
  unfold State.setBad
  repeat' first
    | with_reducible assumption
    | intro _
    | with_reducible refine Keeps.fst ?_ (by assumption)
    | with_reducible apply Keeps.ite
    | with_reducible apply Keeps.forEach
    | with_reducible apply Keeps.foldl
    | split
    | extract_lets
    | fail_if_no_progress (with_reducible refine Keeps.stk ?_ id)
    | fail_if_no_progress (with_reducible refine Keeps.stk ?_ (mwrite_wf _ _ _ _))
    | fail_if_no_progress (with_reducible refine Keeps.stk ?_ (mset_wf _ _ _ _))
    | fail_if_no_progress (with_reducible refine Keeps.stk ?_ (filter_wf _ _ _))

theorem State.meetUnit_keeps {s0 s : State} (da : Nat) (f : UnitFind) (whole : Bool) (hK : Keeps s0 s) : Keeps s0 (State.meetUnit s da f whole).1 := by
  refine KeepsP.keeps ?_
  unfold State.meetUnit
  repeat' first
    | with_reducible assumption
    | intro _
    | with_reducible apply KeepsP.ite
    | with_reducible apply Keeps.odAdd
    | with_reducible apply State.setBad_keeps
    | with_reducible refine Keeps.fst ?_ (by assumption)
    | with_reducible apply Keeps.ite
    | with_reducible apply Keeps.forEach
    | with_reducible apply Keeps.foldl
    | split
    | extract_lets
    | with_reducible apply KeepsP.pair

theorem State.meetUnits_keeps {s0 s : State} (p : Nat) (addr : Nat) (len : Nat) (wr : Bool) (found : List UnitFind) (u : Nat) (n : Nat) (hK : Keeps s0 s) : Keeps s0 (State.meetUnits s p addr len wr found u n).1 := by
  induction n generalizing s p addr len wr found u with
  | zero =>
    refine KeepsP.keeps ?_
    unfold State.meetUnits
    repeat' first
      | with_reducible assumption
      | intro _
      | with_reducible apply KeepsP.ite
      | with_reducible apply State.meetUnit_keeps
      | with_reducible refine Keeps.fst ?_ (by assumption)
      | with_reducible apply Keeps.ite
      | with_reducible apply Keeps.forEach
      | with_reducible apply Keeps.foldl
      | split
      | extract_lets
      | with_reducible apply KeepsP.pair
  | succ n ih =>
    refine KeepsP.keeps ?_
    unfold State.meetUnits
    repeat' first
      | with_reducible assumption
      | intro _
      | with_reducible apply KeepsP.ite
      | with_reducible apply ih
      | with_reducible apply State.meetUnit_keeps
      | with_reducible refine Keeps.fst ?_ (by assumption)
      | with_reducible apply Keeps.ite
      | with_reducible apply Keeps.forEach
      | with_reducible apply Keeps.foldl
      | split
      | extract_lets
      | with_reducible apply KeepsP.pair

theorem State.putStack_keeps {s0 s : State} (p : Nat) (addr : Nat) (bs : List Byte) (hK : Keeps s0 s) : Keeps s0 (State.putStack s p addr bs) := by
  induction bs generalizing s p addr with
  | nil =>
    unfold State.putStack
    repeat' first
      | with_reducible assumption
      | intro _
      | with_reducible refine Keeps.fst ?_ (by assumption)
      | with_reducible apply Keeps.ite
      | with_reducible apply Keeps.forEach
      | with_reducible apply Keeps.foldl
      | split
      | extract_lets
      | fail_if_no_progress (with_reducible refine Keeps.stk ?_ id)
      | fail_if_no_progress (with_reducible refine Keeps.stk ?_ (mwrite_wf _ _ _ _))
      | fail_if_no_progress (with_reducible refine Keeps.stk ?_ (mset_wf _ _ _ _))
      | fail_if_no_progress (with_reducible refine Keeps.stk ?_ (filter_wf _ _ _))
  | cons a r ih =>
    unfold State.putStack
    repeat' first
      | with_reducible assumption
      | intro _
      | with_reducible apply ih
      | with_reducible refine Keeps.fst ?_ (by assumption)
      | with_reducible apply Keeps.ite
      | with_reducible apply Keeps.forEach
      | with_reducible apply Keeps.foldl
      | split
      | extract_lets
      | fail_if_no_progress (with_reducible refine Keeps.stk ?_ id)
      | fail_if_no_progress (with_reducible refine Keeps.stk ?_ (mwrite_wf _ _ _ _))
      | fail_if_no_progress (with_reducible refine Keeps.stk ?_ (mset_wf _ _ _ _))
      | fail_if_no_progress (with_reducible refine Keeps.stk ?_ (filter_wf _ _ _))

theorem State.stackRead_keeps {s0 s : State} (p : Nat) (addr : Nat) (len : Nat) (found : List UnitFind) (hK : Keeps s0 s) : Keeps s0 (State.stackRead s p addr len found).1 := by
  refine KeepsP.keeps ?_
  unfold State.stackRead
  repeat' first
    | with_reducible assumption
    | intro _
    | with_reducible apply KeepsP.ite
    | with_reducible apply State.meetUnits_keeps
    | with_reducible refine Keeps.fst ?_ (by assumption)
    | with_reducible apply Keeps.ite
    | with_reducible apply Keeps.forEach
    | with_reducible apply Keeps.foldl
    | split
    | extract_lets
    | with_reducible apply KeepsP.pair

theorem State.stackWrite_keeps {s0 s : State} (p : Nat) (addr : Nat) (bs : List Byte) (found : List UnitFind) (hK : Keeps s0 s) : Keeps s0 (State.stackWrite s p addr bs found).1 := by
  refine KeepsP.keeps ?_
  unfold State.stackWrite
  repeat' first
    | with_reducible assumption
    | intro _
    | with_reducible apply KeepsP.ite
    | with_reducible apply State.meetUnits_keeps
    | with_reducible apply State.putStack_keeps
    | with_reducible refine Keeps.fst ?_ (by assumption)
    | with_reducible apply Keeps.ite
    | with_reducible apply Keeps.forEach
    | with_reducible apply Keeps.foldl
    | split
    | extract_lets
    | with_reducible apply KeepsP.pair

theorem orRim_keeps {s : State} {z : State × Nat × Nat} {c : Nat} (h : Keeps s z.1) : Keeps s (orRim z c).1 := h

theorem State.tileWrite_keeps {s0 s : State} (t : TileId) (p : Nat) (a : Nat) (bs : List Byte) (hK : Keeps s0 s) : Keeps s0 (State.tileWrite s t p a bs).1 :=
  orRim_keeps (State.stackWrite_keeps p a (bs.take (s.rimReach t p a bs.length).1) [] hK)

theorem execStackFailure_keeps {s0 s u : State} (stack : Nat) (hK : Keeps s0 s) (e : execStackFailure stack s = .next u) : Keeps s0 u := by
  unfold execStackFailure at e
  refine guardRes_keeps ?_ e
  repeat' first
    | with_reducible assumption
    | intro _
    | with_reducible apply Keeps.odSet
    | with_reducible apply Keeps.log
    | with_reducible refine Keeps.fst ?_ (by assumption)
    | with_reducible apply Keeps.ite
    | with_reducible apply Keeps.forEach
    | with_reducible apply Keeps.foldl
    | split
    | extract_lets

theorem State.scrubUnit_keeps {s0 s : State} (e : Nat × UnitFind) (hK : Keeps s0 s) : Keeps s0 (State.scrubUnit s e) := by
  unfold State.scrubUnit
  repeat' first
    | with_reducible assumption
    | intro _
    | with_reducible apply Keeps.log
    | with_reducible apply State.meetUnit_keeps
    | with_reducible refine Keeps.fst ?_ (by assumption)
    | with_reducible apply Keeps.ite
    | with_reducible apply Keeps.forEach
    | with_reducible apply Keeps.foldl
    | split
    | extract_lets

theorem execPatrolScrub_keeps {s0 s u : State} (found : List (Nat × UnitFind)) (hK : Keeps s0 s) (e : execPatrolScrub found s = .next u) : Keeps s0 u := by
  unfold execPatrolScrub at e
  refine guardRes_keeps ?_ e
  repeat' first
    | with_reducible assumption
    | intro _
    | with_reducible apply State.scrubUnit_keeps
    | with_reducible refine Keeps.fst ?_ (by assumption)
    | with_reducible apply Keeps.ite
    | with_reducible apply Keeps.forEach
    | with_reducible apply Keeps.foldl
    | split
    | extract_lets

end Sys2Proof.Machine
end

