-- ==== Sys2Proof/Laws/KeepsStore.lean ====
section
/-!
SUPPORT. Every operation of Machine/Store.lean keeps what `Keeps` says.
-/

namespace Sys2Proof.Machine

theorem State.modHandle_keeps {s0 s : State} (p : Nat) (h : Nat) (f : Handle → Handle) (hK : Keeps s0 s) : Keeps s0 (State.modHandle s p h f) := by
  unfold State.modHandle
  repeat' first
    | with_reducible assumption
    | intro _
    | with_reducible apply Keeps.modPart
    | with_reducible refine Keeps.fst ?_ (by assumption)
    | with_reducible apply Keeps.ite
    | with_reducible apply Keeps.forEach
    | with_reducible apply Keeps.foldl
    | split
    | extract_lets

theorem State.damage_keeps {s0 s : State} (p : Nat) (h : Nat) (hK : Keeps s0 s) : Keeps s0 (State.damage s p h) := by
  unfold State.damage
  repeat' first
    | with_reducible assumption
    | intro _
    | with_reducible apply State.modHandle_keeps
    | with_reducible refine Keeps.fst ?_ (by assumption)
    | with_reducible apply Keeps.ite
    | with_reducible apply Keeps.forEach
    | with_reducible apply Keeps.foldl
    | split
    | extract_lets

theorem State.failReq_keeps {s0 s : State} (p : Nat) (r : Nat) (status : Nat) (detail : Nat) (hK : Keeps s0 s) : Keeps s0 (State.failReq s p r status detail) := by
  unfold State.failReq
  repeat' first
    | with_reducible assumption
    | intro _
    | with_reducible apply Keeps.modPart
    | with_reducible refine Keeps.fst ?_ (by assumption)
    | with_reducible apply Keeps.ite
    | with_reducible apply Keeps.forEach
    | with_reducible apply Keeps.foldl
    | split
    | extract_lets

theorem State.programRead_keeps {s0 s : State} (p : Nat) (a : Nat) (n : Nat) (found : List UnitFind) (hK : Keeps s0 s) : Keeps s0 (State.programRead s p a n found).1 := by
  have h := State.stackRead_keeps p a n found hK
  unfold State.programRead
  generalize s.stackRead p a n found = z at h
  exact KeepsP.keeps (KeepsP.pair (Keeps.ite (fun _ => Keeps.forEach (fun _ _ k => State.damage_keeps _ _ k) _ h) (fun _ => h)))

theorem State.tileRead_keeps {s0 s : State} (t : TileId) (p : Nat) (a : Nat) (n : Nat) (hK : Keeps s0 s) : Keeps s0 (State.tileRead s t p a n).1 := by
  have h := State.programRead_keeps p a (s.rimReach t p a n).1 [] hK
  unfold State.tileRead
  dsimp only
  generalize s.programRead p a (s.rimReach t p a n).1 [] = z at h ⊢
  exact Keeps.ite (fun _ => State.failReq_keeps _ _ _ _ h) (fun _ => h)

theorem execStackAccess_keeps {s0 s u : State} (part : Nat) (addr : Nat) (len : Nat) (write : Option (List Byte)) (found : List UnitFind) (hK : Keeps s0 s) (e : execStackAccess part addr len write found s = .next u) : Keeps s0 u := by
  unfold execStackAccess at e
  refine guardRes_keeps ?_ e
  repeat' first
    | with_reducible assumption
    | intro _
    | with_reducible apply Keeps.emit
    | with_reducible apply State.stackWrite_keeps
    | with_reducible apply State.programRead_keeps
    | with_reducible refine Keeps.fst ?_ (by assumption)
    | with_reducible apply Keeps.ite
    | with_reducible apply Keeps.forEach
    | with_reducible apply Keeps.foldl
    | split
    | extract_lets

end Sys2Proof.Machine
end

