-- ==== Sys2Proof/Laws/KeepsMover.lean ====
section
/-!
SUPPORT. Every operation of Machine/Mover.lean keeps what `Keeps` says.
-/

namespace Sys2Proof.Machine

theorem State.writeMvRing_keeps {s0 s : State} (t : TileId) (ch : Nat) (v : Nat) (hK : Keeps s0 s) : Keeps s0 (State.writeMvRing s t ch v) := by
  unfold State.writeMvRing
  repeat' first
    | with_reducible assumption
    | intro _
    | with_reducible apply Keeps.modMv
    | with_reducible apply Keeps.odAdd
    | with_reducible refine Keeps.fst ?_ (by assumption)
    | with_reducible apply Keeps.ite
    | with_reducible apply Keeps.forEach
    | with_reducible apply Keeps.foldl
    | split
    | extract_lets

theorem State.writeMvTail_keeps {s0 s : State} (t : TileId) (ch : Nat) (v : Nat) (hK : Keeps s0 s) : Keeps s0 (State.writeMvTail s t ch v) := by
  unfold State.writeMvTail
  repeat' first
    | with_reducible assumption
    | intro _
    | with_reducible apply Keeps.modMv
    | with_reducible apply State.memFault_keeps
    | with_reducible refine Keeps.fst ?_ (by assumption)
    | with_reducible apply Keeps.ite
    | with_reducible apply Keeps.forEach
    | with_reducible apply Keeps.foldl
    | split
    | extract_lets

theorem execTailWrite_keeps {s0 s u : State} (t : TileId) (ch : Nat) (value : Word) (hK : Keeps s0 s) (e : execTailWrite t ch value s = .next u) : Keeps s0 u := by
  unfold execTailWrite at e
  refine guardRes_keeps ?_ e
  repeat' first
    | with_reducible assumption
    | intro _
    | with_reducible apply State.writeMvTail_keeps
    | with_reducible refine Keeps.fst ?_ (by assumption)
    | with_reducible apply Keeps.ite
    | with_reducible apply Keeps.forEach
    | with_reducible apply Keeps.foldl
    | split
    | extract_lets

theorem execChannelEnable_keeps {s0 s u : State} (t : TileId) (ch : Nat) (hK : Keeps s0 s) (e : execChannelEnable t ch s = .next u) : Keeps s0 u := by
  unfold execChannelEnable at e
  refine guardRes_keeps ?_ e
  repeat' first
    | with_reducible assumption
    | intro _
    | with_reducible apply Keeps.modMv
    | with_reducible refine Keeps.fst ?_ (by assumption)
    | with_reducible apply Keeps.ite
    | with_reducible apply Keeps.forEach
    | with_reducible apply Keeps.foldl
    | split
    | extract_lets

theorem execChannelDisable_keeps {s0 s u : State} (t : TileId) (ch : Nat) (hK : Keeps s0 s) (e : execChannelDisable t ch s = .next u) : Keeps s0 u := by
  unfold execChannelDisable at e
  refine guardRes_keeps ?_ e
  repeat' first
    | with_reducible assumption
    | intro _
    | with_reducible apply Keeps.modMv
    | with_reducible refine Keeps.fst ?_ (by assumption)
    | with_reducible apply Keeps.ite
    | with_reducible apply Keeps.forEach
    | with_reducible apply Keeps.foldl
    | split
    | extract_lets

theorem execMoverResume_keeps {s0 s u : State} (t : TileId) (ch : Nat) (hK : Keeps s0 s) (e : execMoverResume t ch s = .next u) : Keeps s0 u := by
  unfold execMoverResume at e
  refine guardRes_keeps ?_ e
  repeat' first
    | with_reducible assumption
    | intro _
    | with_reducible apply Keeps.modMv
    | with_reducible refine Keeps.fst ?_ (by assumption)
    | with_reducible apply Keeps.ite
    | with_reducible apply Keeps.forEach
    | with_reducible apply Keeps.foldl
    | split
    | extract_lets

theorem execPaceWrite_keeps {s0 s u : State} (t : TileId) (ch : Nat) (value : Word) (hK : Keeps s0 s) (e : execPaceWrite t ch value s = .next u) : Keeps s0 u := by
  unfold execPaceWrite at e
  refine guardRes_keeps ?_ e
  repeat' first
    | with_reducible assumption
    | intro _
    | with_reducible apply Keeps.modMv
    | with_reducible refine Keeps.fst ?_ (by assumption)
    | with_reducible apply Keeps.ite
    | with_reducible apply Keeps.forEach
    | with_reducible apply Keeps.foldl
    | split
    | extract_lets

theorem execPacingTimeout_keeps {s0 s u : State} (t : TileId) (ch : Nat) (hK : Keeps s0 s) (e : execPacingTimeout t ch s = .next u) : Keeps s0 u := by
  unfold execPacingTimeout at e
  refine guardRes_keeps ?_ e
  repeat' first
    | with_reducible assumption
    | intro _
    | with_reducible apply Keeps.modMv
    | with_reducible refine Keeps.fst ?_ (by assumption)
    | with_reducible apply Keeps.ite
    | with_reducible apply Keeps.forEach
    | with_reducible apply Keeps.foldl
    | split
    | extract_lets

theorem State.finishMv_keeps {s0 s : State} (t : TileId) (ch : Nat) (count : Nat) (status : Nat) (done : Nat) (addr : Nat) (hK : Keeps s0 s) : Keeps s0 (State.finishMv s t ch count status done addr) := by
  unfold State.finishMv
  repeat' first
    | with_reducible assumption
    | intro _
    | with_reducible apply Keeps.modMv
    | with_reducible refine Keeps.fst ?_ (by assumption)
    | with_reducible apply Keeps.ite
    | with_reducible apply Keeps.forEach
    | with_reducible apply Keeps.foldl
    | split
    | extract_lets

theorem State.settleMv_keeps {s0 s : State} (t : TileId) (ch : Nat) (hK : Keeps s0 s) : Keeps s0 (State.settleMv s t ch) := by
  unfold State.settleMv
  repeat' first
    | with_reducible assumption
    | intro _
    | with_reducible apply Keeps.modMv
    | with_reducible apply State.memFault_keeps
    | with_reducible refine Keeps.fst ?_ (by assumption)
    | with_reducible apply Keeps.ite
    | with_reducible apply Keeps.forEach
    | with_reducible apply Keeps.foldl
    | split
    | extract_lets

theorem State.finishWith_keeps {s0 s : State} (t : TileId) (ch : Nat) (count : Nat) (all : Nat) (fail : Option MvFail) (hK : Keeps s0 s) : Keeps s0 (State.finishWith s t ch count all fail) := by
  unfold State.finishWith
  repeat' first
    | with_reducible assumption
    | intro _
    | with_reducible apply State.finishMv_keeps
    | with_reducible refine Keeps.fst ?_ (by assumption)
    | with_reducible apply Keeps.ite
    | with_reducible apply Keeps.forEach
    | with_reducible apply Keeps.foldl
    | split
    | extract_lets

theorem State.settleDesc_keeps {s0 s : State} (t : TileId) (ch : Nat) (count : Nat) (hK : Keeps s0 s) : Keeps s0 (State.settleDesc s t ch count) := by
  unfold State.settleDesc
  repeat' first
    | with_reducible assumption
    | intro _
    | with_reducible apply State.finishMv_keeps
    | with_reducible refine Keeps.fst ?_ (by assumption)
    | with_reducible apply Keeps.ite
    | with_reducible apply Keeps.forEach
    | with_reducible apply Keeps.foldl
    | split
    | extract_lets

theorem State.failPart_keeps {s0 s : State} (t : TileId) (ch : Nat) (count : Nat) (status : Nat) (pos : Nat) (addr : Nat) (hK : Keeps s0 s) : Keeps s0 (State.failPart s t ch count status pos addr) := by
  unfold State.failPart
  repeat' first
    | with_reducible assumption
    | intro _
    | with_reducible apply Keeps.modMv
    | with_reducible refine Keeps.fst ?_ (by assumption)
    | with_reducible apply Keeps.ite
    | with_reducible apply Keeps.forEach
    | with_reducible apply Keeps.foldl
    | split
    | extract_lets

theorem State.sendTx_keeps {s0 s : State} (t : TileId) (m : Message) (mk : Nat → Tx) (hK : Keeps s0 s) : Keeps s0 (State.sendTx s t m mk).1 := by
  refine KeepsP.keeps ?_
  unfold State.sendTx
  repeat' first
    | with_reducible assumption
    | intro _
    | with_reducible apply KeepsP.ite
    | with_reducible apply Keeps.modTile
    | with_reducible apply State.inject_keeps
    | with_reducible apply State.countRefusal_keeps
    | with_reducible refine Keeps.fst ?_ (by assumption)
    | with_reducible apply Keeps.ite
    | with_reducible apply Keeps.forEach
    | with_reducible apply Keeps.foldl
    | split
    | extract_lets
    | with_reducible apply KeepsP.pair

theorem State.spStoreWords_keeps {s0 s : State} (t : TileId) (agent : Nat) (loc : Nat) (off : Nat) (bs : List (Option Byte)) (hK : Keeps s0 s) : Keeps s0 (State.spStoreWords s t agent loc off bs) := by
  unfold State.spStoreWords
  repeat' first
    | with_reducible assumption
    | intro _
    | with_reducible apply State.spStore_keeps
    | with_reducible refine Keeps.fst ?_ (by assumption)
    | with_reducible apply Keeps.ite
    | with_reducible apply Keeps.forEach
    | with_reducible apply Keeps.foldl
    | split
    | extract_lets

theorem State.sendPart_keeps {s0 s : State} (t : TileId) (ch : Nat) (w : MvPart) (hK : Keeps s0 s) : Keeps s0 (State.sendPart s t ch w) := by
  unfold State.sendPart
  repeat' first
    | with_reducible assumption
    | intro _
    | with_reducible apply Keeps.modMv
    | with_reducible apply State.failPart_keeps
    | with_reducible apply State.sendTx_keeps
    | with_reducible refine Keeps.fst ?_ (by assumption)
    | with_reducible apply Keeps.ite
    | with_reducible apply Keeps.forEach
    | with_reducible apply Keeps.foldl
    | split
    | extract_lets

theorem State.pumpMv_keeps {s0 s : State} (t : TileId) (ch : Nat) (n : Nat) (hK : Keeps s0 s) : Keeps s0 (State.pumpMv s t ch n) := by
  induction n generalizing s t ch with
  | zero =>
    unfold State.pumpMv
    repeat' first
      | with_reducible assumption
      | intro _
      | with_reducible apply Keeps.modMv
      | with_reducible apply State.sendPart_keeps
      | with_reducible refine Keeps.fst ?_ (by assumption)
      | with_reducible apply Keeps.ite
      | with_reducible apply Keeps.forEach
      | with_reducible apply Keeps.foldl
      | split
      | extract_lets
  | succ n ih =>
    unfold State.pumpMv
    repeat' first
      | with_reducible assumption
      | intro _
      | with_reducible apply ih
      | with_reducible apply Keeps.modMv
      | with_reducible apply State.sendPart_keeps
      | with_reducible refine Keeps.fst ?_ (by assumption)
      | with_reducible apply Keeps.ite
      | with_reducible apply Keeps.forEach
      | with_reducible apply Keeps.foldl
      | split
      | extract_lets

theorem State.pumpCh_keeps {s0 s : State} (t : TileId) (ch : Nat) (hK : Keeps s0 s) : Keeps s0 (State.pumpCh s t ch) := by
  unfold State.pumpCh
  repeat' first
    | with_reducible assumption
    | intro _
    | with_reducible apply State.pumpMv_keeps
    | with_reducible refine Keeps.fst ?_ (by assumption)
    | with_reducible apply Keeps.ite
    | with_reducible apply Keeps.forEach
    | with_reducible apply Keeps.foldl
    | split
    | extract_lets

theorem State.sendMv_keeps {s0 s : State} (t : TileId) (ch : Nat) (count : Nat) (all : Nat) (fail : Option MvFail) (l : List (Nat × Nat × Message)) (hK : Keeps s0 s) : Keeps s0 (State.sendMv s t ch count all fail l) := by
  unfold State.sendMv
  repeat' first
    | with_reducible assumption
    | intro _
    | with_reducible apply Keeps.modMv
    | with_reducible apply State.settleDesc_keeps
    | with_reducible apply State.pumpCh_keeps
    | with_reducible refine Keeps.fst ?_ (by assumption)
    | with_reducible apply Keeps.ite
    | with_reducible apply Keeps.forEach
    | with_reducible apply Keeps.foldl
    | split
    | extract_lets

theorem State.deliverMv_keeps {s0 s : State} (t : TileId) (p : Nat) (ch : Nat) (count : Nat) (d : MvDesc) (data : List Byte) (fail : Option MvFail) (hK : Keeps s0 s) : Keeps s0 (State.deliverMv s t p ch count d data fail) := by
  unfold State.deliverMv
  repeat' first
    | with_reducible assumption
    | intro _
    | with_reducible apply State.tileWrite_keeps
    | with_reducible apply State.finishWith_keeps
    | with_reducible apply State.spStoreWords_keeps
    | with_reducible apply State.sendMv_keeps
    | with_reducible refine Keeps.fst ?_ (by assumption)
    | with_reducible apply Keeps.ite
    | with_reducible apply Keeps.forEach
    | with_reducible apply Keeps.foldl
    | split
    | extract_lets

theorem State.transposedWrite_keeps {s0 s : State} (t : TileId) (agent : Nat) (loc : Nat) (esz : Nat) (dst : Nat) (stride : Nat) (cols : Nat) (rows : List (List Byte)) (hK : Keeps s0 s) : Keeps s0 (State.transposedWrite s t agent loc esz dst stride cols rows) := by
  unfold State.transposedWrite
  repeat' first
    | with_reducible assumption
    | intro _
    | with_reducible apply State.spStoreWords_keeps
    | with_reducible refine Keeps.fst ?_ (by assumption)
    | with_reducible apply Keeps.ite
    | with_reducible apply Keeps.forEach
    | with_reducible apply Keeps.foldl
    | split
    | extract_lets

theorem State.readRows_keeps {s0 s : State} (t : TileId) (p : Nat) (ch : Nat) (count : Nat) (d : MvDesc) (acc : List (List Byte)) (fail : Option MvFail) (i : Nat) (n : Nat) (hK : Keeps s0 s) : Keeps s0 (State.readRows s t p ch count d acc fail i n).1 := by
  induction n generalizing s t p ch count d acc fail i with
  | zero =>
    refine KeepsP.keeps ?_
    unfold State.readRows
    repeat' first
      | with_reducible assumption
      | intro _
      | with_reducible apply KeepsP.ite
      | with_reducible apply State.spGet_keeps
      | with_reducible apply State.tileRead_keeps
      | with_reducible refine Keeps.fst ?_ (by assumption)
      | with_reducible apply Keeps.ite
      | with_reducible apply Keeps.forEach
      | with_reducible apply Keeps.foldl
      | split
      | extract_lets
      | with_reducible apply KeepsP.pair
  | succ n ih =>
    refine KeepsP.keeps ?_
    unfold State.readRows
    repeat' first
      | with_reducible assumption
      | intro _
      | with_reducible apply KeepsP.ite
      | with_reducible apply ih
      | with_reducible apply State.spGet_keeps
      | with_reducible apply State.tileRead_keeps
      | with_reducible refine Keeps.fst ?_ (by assumption)
      | with_reducible apply Keeps.ite
      | with_reducible apply Keeps.forEach
      | with_reducible apply Keeps.foldl
      | split
      | extract_lets
      | with_reducible apply KeepsP.pair

theorem State.stackColumns_keeps {s0 s : State} (t : TileId) (p : Nat) (d : MvDesc) (rows : List (List Byte)) (c : Nat) (n : Nat) (hK : Keeps s0 s) : Keeps s0 (State.stackColumns s t p d rows c n).1 := by
  induction n generalizing s t p d rows c with
  | zero =>
    refine KeepsP.keeps ?_
    unfold State.stackColumns
    repeat' first
      | with_reducible assumption
      | intro _
      | with_reducible apply KeepsP.ite
      | with_reducible apply State.tileWrite_keeps
      | with_reducible refine Keeps.fst ?_ (by assumption)
      | with_reducible apply Keeps.ite
      | with_reducible apply Keeps.forEach
      | with_reducible apply Keeps.foldl
      | split
      | extract_lets
      | with_reducible apply KeepsP.pair
  | succ n ih =>
    refine KeepsP.keeps ?_
    unfold State.stackColumns
    repeat' first
      | with_reducible assumption
      | intro _
      | with_reducible apply KeepsP.ite
      | with_reducible apply ih
      | with_reducible apply State.tileWrite_keeps
      | with_reducible refine Keeps.fst ?_ (by assumption)
      | with_reducible apply Keeps.ite
      | with_reducible apply Keeps.forEach
      | with_reducible apply Keeps.foldl
      | split
      | extract_lets
      | with_reducible apply KeepsP.pair

theorem State.deliverRows_keeps {s0 s : State} (t : TileId) (p : Nat) (ch : Nat) (count : Nat) (d : MvDesc) (rows : List (List Byte)) (fail : Option MvFail) (hK : Keeps s0 s) : Keeps s0 (State.deliverRows s t p ch count d rows fail) := by
  unfold State.deliverRows
  repeat' first
    | with_reducible assumption
    | intro _
    | with_reducible apply Keeps.useFree
    | with_reducible apply State.finishWith_keeps
    | with_reducible apply State.sendMv_keeps
    | with_reducible apply State.transposedWrite_keeps
    | with_reducible apply State.stackColumns_keeps
    | with_reducible refine Keeps.fst ?_ (by assumption)
    | with_reducible apply Keeps.ite
    | with_reducible apply Keeps.forEach
    | with_reducible apply Keeps.foldl
    | split
    | extract_lets

theorem State.askMv_keeps {s0 s : State} (t : TileId) (ch : Nat) (count : Nat) (src : Nat) (n : Nat) (hK : Keeps s0 s) : Keeps s0 (State.askMv s t ch count src n) := by
  unfold State.askMv
  repeat' first
    | with_reducible assumption
    | intro _
    | with_reducible apply Keeps.modMv
    | with_reducible apply State.finishMv_keeps
    | with_reducible apply State.sendTx_keeps
    | with_reducible refine Keeps.fst ?_ (by assumption)
    | with_reducible apply Keeps.ite
    | with_reducible apply Keeps.forEach
    | with_reducible apply Keeps.foldl
    | split
    | extract_lets

theorem State.runCopy_keeps {s0 s : State} (t : TileId) (p : Nat) (ch : Nat) (count : Nat) (d : MvDesc) (hK : Keeps s0 s) : Keeps s0 (State.runCopy s t p ch count d) := by
  unfold State.runCopy
  repeat' first
    | with_reducible assumption
    | intro _
    | with_reducible apply State.spGet_keeps
    | with_reducible apply State.tileRead_keeps
    | with_reducible apply State.deliverMv_keeps
    | with_reducible apply State.askMv_keeps
    | with_reducible refine Keeps.fst ?_ (by assumption)
    | with_reducible apply Keeps.ite
    | with_reducible apply Keeps.forEach
    | with_reducible apply Keeps.foldl
    | split
    | extract_lets

theorem State.runTransposed_keeps {s0 s : State} (t : TileId) (p : Nat) (ch : Nat) (count : Nat) (d : MvDesc) (hK : Keeps s0 s) : Keeps s0 (State.runTransposed s t p ch count d) := by
  unfold State.runTransposed
  repeat' first
    | with_reducible assumption
    | intro _
    | with_reducible apply State.readRows_keeps
    | with_reducible apply State.deliverRows_keeps
    | with_reducible apply State.askMv_keeps
    | with_reducible refine Keeps.fst ?_ (by assumption)
    | with_reducible apply Keeps.ite
    | with_reducible apply Keeps.forEach
    | with_reducible apply Keeps.foldl
    | split
    | extract_lets

theorem State.startMv_keeps {s0 s : State} (t : TileId) (ch : Nat) (count : Nat) (opc : Nat) (run : State → Nat → Desc → MvDesc → State) (hrun : ∀ t a1 a2 a3, Keeps s0 t → Keeps s0 (run t a1 a2 a3)) (hK : Keeps s0 s) : Keeps s0 (State.startMv s t ch count opc run) := by
  unfold State.startMv
  repeat' first
    | with_reducible assumption
    | intro _
    | with_reducible apply State.finishMv_keeps
    | with_reducible apply hrun
    | with_reducible refine Keeps.fst ?_ (by assumption)
    | with_reducible apply Keeps.ite
    | with_reducible apply Keeps.forEach
    | with_reducible apply Keeps.foldl
    | split
    | extract_lets

theorem execCopy_keeps {s0 s u : State} (t : TileId) (ch : Nat) (count : Nat) (hK : Keeps s0 s) (e : execCopy t ch count s = .next u) : Keeps s0 u := by
  unfold execCopy at e
  refine guardRes_keeps ?_ e
  repeat' first
    | with_reducible assumption
    | intro _
    | with_reducible apply State.runCopy_keeps
    | with_reducible apply State.startMv_keeps
    | with_reducible refine Keeps.fst ?_ (by assumption)
    | with_reducible apply Keeps.ite
    | with_reducible apply Keeps.forEach
    | with_reducible apply Keeps.foldl
    | split
    | extract_lets

theorem execTransposedCopy_keeps {s0 s u : State} (t : TileId) (ch : Nat) (count : Nat) (hK : Keeps s0 s) (e : execTransposedCopy t ch count s = .next u) : Keeps s0 u := by
  unfold execTransposedCopy at e
  refine guardRes_keeps ?_ e
  repeat' first
    | with_reducible assumption
    | intro _
    | with_reducible apply State.runTransposed_keeps
    | with_reducible apply State.startMv_keeps
    | with_reducible refine Keeps.fst ?_ (by assumption)
    | with_reducible apply Keeps.ite
    | with_reducible apply Keeps.forEach
    | with_reducible apply Keeps.foldl
    | split
    | extract_lets

theorem execFill_keeps {s0 s u : State} (t : TileId) (ch : Nat) (count : Nat) (hK : Keeps s0 s) (e : execFill t ch count s = .next u) : Keeps s0 u := by
  unfold execFill at e
  refine guardRes_keeps ?_ e
  repeat' first
    | with_reducible assumption
    | intro _
    | with_reducible apply State.deliverMv_keeps
    | with_reducible apply State.startMv_keeps
    | with_reducible refine Keeps.fst ?_ (by assumption)
    | with_reducible apply Keeps.ite
    | with_reducible apply Keeps.forEach
    | with_reducible apply Keeps.foldl
    | split
    | extract_lets

theorem execMarker_keeps {s0 s u : State} (t : TileId) (ch : Nat) (count : Nat) (hK : Keeps s0 s) (e : execMarker t ch count s = .next u) : Keeps s0 u := by
  unfold execMarker at e
  refine guardRes_keeps ?_ e
  repeat' first
    | with_reducible assumption
    | intro _
    | with_reducible apply State.finishMv_keeps
    | with_reducible apply State.startMv_keeps
    | with_reducible refine Keeps.fst ?_ (by assumption)
    | with_reducible apply Keeps.ite
    | with_reducible apply Keeps.forEach
    | with_reducible apply Keeps.foldl
    | split
    | extract_lets

theorem execDescriptorFetch_keeps {s0 s u : State} (t : TileId) (ch : Nat) (hK : Keeps s0 s) (e : execDescriptorFetch t ch s = .next u) : Keeps s0 u := by
  unfold execDescriptorFetch at e
  refine guardRes_keeps ?_ e
  repeat' first
    | with_reducible assumption
    | intro _
    | with_reducible apply Keeps.modMv
    | with_reducible apply State.trace_keeps
    | with_reducible apply State.spGet_keeps
    | with_reducible apply State.finishMv_keeps
    | with_reducible apply State.settleMv_keeps
    | with_reducible refine Keeps.fst ?_ (by assumption)
    | with_reducible apply Keeps.ite
    | with_reducible apply Keeps.forEach
    | with_reducible apply Keeps.foldl
    | split
    | extract_lets

theorem execDescriptorWriteback_keeps {s0 s u : State} (t : TileId) (ch : Nat) (hK : Keeps s0 s) (e : execDescriptorWriteback t ch s = .next u) : Keeps s0 u := by
  unfold execDescriptorWriteback at e
  refine guardRes_keeps ?_ e
  repeat' first
    | with_reducible assumption
    | intro _
    | with_reducible apply Keeps.modSp
    | with_reducible apply Keeps.modCc
    | with_reducible apply Keeps.modMv
    | with_reducible apply State.settleMv_keeps
    | with_reducible refine Keeps.fst ?_ (by assumption)
    | with_reducible apply Keeps.ite
    | with_reducible apply Keeps.forEach
    | with_reducible apply Keeps.foldl
    | split
    | extract_lets

theorem State.mvEnded_keeps {s0 s : State} (t : TileId) (x : Tx) (ch : Nat) (count : Nat) (hK : Keeps s0 s) : Keeps s0 (State.mvEnded s t x ch count) := by
  unfold State.mvEnded
  repeat' first
    | with_reducible assumption
    | intro _
    | with_reducible apply Keeps.modTile
    | with_reducible apply State.settleDesc_keeps
    | with_reducible apply State.pumpCh_keeps
    | with_reducible refine Keeps.fst ?_ (by assumption)
    | with_reducible apply Keeps.ite
    | with_reducible apply Keeps.forEach
    | with_reducible apply Keeps.foldl
    | split
    | extract_lets

theorem State.mvAcked_keeps {s0 s : State} (t : TileId) (x : Tx) (ch : Nat) (count : Nat) (hK : Keeps s0 s) : Keeps s0 (State.mvAcked s t x ch count) := by
  unfold State.mvAcked
  repeat' first
    | with_reducible assumption
    | intro _
    | with_reducible apply State.mvEnded_keeps
    | with_reducible refine Keeps.fst ?_ (by assumption)
    | with_reducible apply Keeps.ite
    | with_reducible apply Keeps.forEach
    | with_reducible apply Keeps.foldl
    | split
    | extract_lets

theorem State.mvFailed_keeps {s0 s : State} (t : TileId) (x : Tx) (ch : Nat) (count : Nat) (status : Nat) (hK : Keeps s0 s) : Keeps s0 (State.mvFailed s t x ch count status) := by
  unfold State.mvFailed
  repeat' first
    | with_reducible assumption
    | intro _
    | with_reducible apply Keeps.modMv
    | with_reducible apply State.failPart_keeps
    | with_reducible apply State.mvEnded_keeps
    | with_reducible refine Keeps.fst ?_ (by assumption)
    | with_reducible apply Keeps.ite
    | with_reducible apply Keeps.forEach
    | with_reducible apply Keeps.foldl
    | split
    | extract_lets

theorem State.mvData_keeps {s0 s : State} (t : TileId) (x : Tx) (ch : Nat) (count : Nat) (hK : Keeps s0 s) : Keeps s0 (State.mvData s t x ch count) := by
  unfold State.mvData
  repeat' first
    | with_reducible assumption
    | intro _
    | with_reducible apply Keeps.modTile
    | with_reducible apply State.deliverMv_keeps
    | with_reducible apply State.deliverRows_keeps
    | with_reducible refine Keeps.fst ?_ (by assumption)
    | with_reducible apply Keeps.ite
    | with_reducible apply Keeps.forEach
    | with_reducible apply Keeps.foldl
    | split
    | extract_lets

end Sys2Proof.Machine
end

