-- ==== Sys2Proof/Laws/KeepsChargeBank.lean ====
section
/-!
SUPPORT. Every operation of Machine/ChargeBank.lean keeps what `Keeps` says.
-/

namespace Sys2Proof.Machine

theorem State.openWindow_keeps {s0 s : State} (t : TileId) (hK : Keeps s0 s) : Keeps s0 (State.openWindow s t) := by
  unfold State.openWindow
  repeat' first
    | with_reducible assumption
    | intro _
    | with_reducible apply Keeps.modTile
    | with_reducible apply Keeps.odAdd
    | with_reducible refine Keeps.fst ?_ (by assumption)
    | with_reducible apply Keeps.ite
    | with_reducible apply Keeps.forEach
    | with_reducible apply Keeps.foldl
    | split
    | extract_lets

theorem State.closeWindow_keeps {s0 s : State} (t : TileId) (hK : Keeps s0 s) : Keeps s0 (State.closeWindow s t) := by
  unfold State.closeWindow
  repeat' first
    | with_reducible assumption
    | intro _
    | with_reducible apply Keeps.modTile
    | with_reducible refine Keeps.fst ?_ (by assumption)
    | with_reducible apply Keeps.ite
    | with_reducible apply Keeps.forEach
    | with_reducible apply Keeps.foldl
    | split
    | extract_lets

theorem State.keepContext_keeps {s0 s : State} (t : TileId) (word : List Byte) (hK : Keeps s0 s) : Keeps s0 (State.keepContext s t word) := by
  unfold State.keepContext
  repeat' first
    | with_reducible assumption
    | intro _
    | with_reducible apply Keeps.modTile
    | with_reducible apply State.inject_keeps
    | with_reducible refine Keeps.fst ?_ (by assumption)
    | with_reducible apply Keeps.ite
    | with_reducible apply Keeps.forEach
    | with_reducible apply Keeps.foldl
    | split
    | extract_lets

theorem execSegmentInputWord_keeps {s0 s u : State} (t : TileId) (seg : Nat) (idx : Nat) (word : List Byte) (srcX : Nat) (srcY : Nat) (hK : Keeps s0 s) (e : execSegmentInputWord t seg idx word srcX srcY s = .next u) : Keeps s0 u := by
  unfold execSegmentInputWord at e
  refine guardRes_keeps ?_ e
  repeat' first
    | with_reducible assumption
    | intro _
    | with_reducible apply Keeps.modCb
    | with_reducible apply State.raiseFault_keeps
    | with_reducible apply State.takeRx_keeps
    | with_reducible apply State.inTurn_keeps
    | with_reducible apply State.ackTaken_keeps
    | with_reducible apply State.openWindow_keeps
    | with_reducible apply State.keepContext_keeps
    | with_reducible refine Keeps.fst ?_ (by assumption)
    | with_reducible apply Keeps.ite
    | with_reducible apply Keeps.forEach
    | with_reducible apply Keeps.foldl
    | split
    | extract_lets

theorem execPassStart_keeps {s0 s u : State} (t : TileId) (a : Nat) (hK : Keeps s0 s) (e : execPassStart t a s = .next u) : Keeps s0 u := by
  unfold execPassStart at e
  refine guardRes_keeps ?_ e
  repeat' first
    | with_reducible assumption
    | intro _
    | with_reducible apply Keeps.modCb
    | with_reducible refine Keeps.fst ?_ (by assumption)
    | with_reducible apply Keeps.ite
    | with_reducible apply Keeps.forEach
    | with_reducible apply Keeps.foldl
    | split
    | extract_lets

theorem State.deliverWords_keeps {s0 s : State} (t : TileId) (segNo : Nat) (token : Nat) (w0 : Nat) (bytes : List Byte) (hK : Keeps s0 s) : Keeps s0 (State.deliverWords s t segNo token w0 bytes) := by
  unfold State.deliverWords
  repeat' first
    | with_reducible assumption
    | intro _
    | with_reducible apply Keeps.modCb
    | with_reducible apply State.inject_keeps
    | with_reducible apply State.raiseFault_keeps
    | with_reducible apply State.countRefusal_keeps
    | with_reducible apply State.spStoreWords_keeps
    | with_reducible refine Keeps.fst ?_ (by assumption)
    | with_reducible apply Keeps.ite
    | with_reducible apply Keeps.forEach
    | with_reducible apply Keeps.foldl
    | split
    | extract_lets

theorem State.countClamps_keeps {s0 s : State} (t : TileId) (acc : Nat) (rq : Nat) (hK : Keeps s0 s) : Keeps s0 (State.countClamps s t acc rq) := by
  unfold State.countClamps
  repeat' first
    | with_reducible assumption
    | intro _
    | with_reducible apply Keeps.modCb
    | with_reducible apply Keeps.odAdd
    | with_reducible refine Keeps.fst ?_ (by assumption)
    | with_reducible apply Keeps.ite
    | with_reducible apply Keeps.forEach
    | with_reducible apply Keeps.foldl
    | split
    | extract_lets

theorem State.finishGroup_keeps {s0 s : State} (t : TileId) (segNo : Nat) (token : Nat) (grp : Nat) (accs : List Int) (hK : Keeps s0 s) : Keeps s0 (State.finishGroup s t segNo token grp accs) := by
  unfold State.finishGroup
  repeat' first
    | with_reducible assumption
    | intro _
    | with_reducible apply State.deliverWords_keeps
    | with_reducible apply State.countClamps_keeps
    | with_reducible refine Keeps.fst ?_ (by assumption)
    | with_reducible apply Keeps.ite
    | with_reducible apply Keeps.forEach
    | with_reducible apply Keeps.foldl
    | split
    | extract_lets

theorem State.finishToken_keeps {s0 s : State} (t : TileId) (segNo : Nat) (token : Nat) (hK : Keeps s0 s) : Keeps s0 (State.finishToken s t segNo token) := by
  unfold State.finishToken
  repeat' first
    | with_reducible assumption
    | intro _
    | with_reducible apply Keeps.modCb
    | with_reducible apply State.closeWindow_keeps
    | with_reducible refine Keeps.fst ?_ (by assumption)
    | with_reducible apply Keeps.ite
    | with_reducible apply Keeps.forEach
    | with_reducible apply Keeps.foldl
    | split
    | extract_lets

theorem State.postCodes_keeps {s0 s : State} (t : TileId) (a : Nat) (p : Pass) (codes : List (List Nat)) (hK : Keeps s0 s) : Keeps s0 (State.postCodes s t a p codes) := by
  unfold State.postCodes
  repeat' first
    | with_reducible assumption
    | intro _
    | with_reducible apply Keeps.modCb
    | with_reducible apply State.countClamps_keeps
    | with_reducible apply State.finishGroup_keeps
    | with_reducible apply State.finishToken_keeps
    | with_reducible refine Keeps.fst ?_ (by assumption)
    | with_reducible apply Keeps.ite
    | with_reducible apply Keeps.forEach
    | with_reducible apply Keeps.foldl
    | split
    | extract_lets

theorem execPostStage_keeps {s0 s u : State} (t : TileId) (a : Nat) (hK : Keeps s0 s) (e : execPostStage t a s = .next u) : Keeps s0 u := by
  unfold execPostStage at e
  refine guardRes_keeps ?_ e
  repeat' first
    | with_reducible assumption
    | intro _
    | with_reducible apply Keeps.modCb
    | with_reducible apply Keeps.modLk
    | with_reducible apply Keeps.odAdd
    | with_reducible apply Keeps.useFree
    | with_reducible apply State.postCodes_keeps
    | with_reducible refine Keeps.fst ?_ (by assumption)
    | with_reducible apply Keeps.ite
    | with_reducible apply Keeps.forEach
    | with_reducible apply Keeps.foldl
    | split
    | extract_lets

theorem execLookoutRereadDone_keeps {s0 s u : State} (t : TileId) (a : Nat) (hK : Keeps s0 s) (e : execLookoutRereadDone t a s = .next u) : Keeps s0 u := by
  unfold execLookoutRereadDone at e
  refine guardRes_keeps ?_ e
  repeat' first
    | with_reducible assumption
    | intro _
    | with_reducible apply Keeps.modCb
    | with_reducible apply Keeps.modLk
    | with_reducible apply Keeps.odAdd
    | with_reducible apply Keeps.useFree
    | with_reducible apply State.postCodes_keeps
    | with_reducible refine Keeps.fst ?_ (by assumption)
    | with_reducible apply Keeps.ite
    | with_reducible apply Keeps.forEach
    | with_reducible apply Keeps.foldl
    | split
    | extract_lets

theorem execSegmentEnable_keeps {s0 s u : State} (t : TileId) (seg : Nat) (value : Word) (hK : Keeps s0 s) (e : execSegmentEnable t seg value s = .next u) : Keeps s0 u := by
  unfold execSegmentEnable at e
  refine guardRes_keeps ?_ e
  repeat' first
    | with_reducible assumption
    | intro _
    | with_reducible apply Keeps.modCb
    | with_reducible refine Keeps.fst ?_ (by assumption)
    | with_reducible apply Keeps.ite
    | with_reducible apply Keeps.forEach
    | with_reducible apply Keeps.foldl
    | split
    | extract_lets

theorem execSegmentDisable_keeps {s0 s u : State} (t : TileId) (seg : Nat) (value : Word) (hK : Keeps s0 s) (e : execSegmentDisable t seg value s = .next u) : Keeps s0 u := by
  unfold execSegmentDisable at e
  refine guardRes_keeps ?_ e
  repeat' first
    | with_reducible assumption
    | intro _
    | with_reducible apply Keeps.modCb
    | with_reducible refine Keeps.fst ?_ (by assumption)
    | with_reducible apply Keeps.ite
    | with_reducible apply Keeps.forEach
    | with_reducible apply Keeps.foldl
    | split
    | extract_lets

theorem execSegmentConfigWrite_keeps {s0 s u : State} (t : TileId) (seg : Nat) (offset : Nat) (value : Word) (hK : Keeps s0 s) (e : execSegmentConfigWrite t seg offset value s = .next u) : Keeps s0 u := by
  unfold execSegmentConfigWrite at e
  refine guardRes_keeps ?_ e
  repeat' first
    | with_reducible assumption
    | intro _
    | with_reducible apply Keeps.modCb
    | with_reducible refine Keeps.fst ?_ (by assumption)
    | with_reducible apply Keeps.ite
    | with_reducible apply Keeps.forEach
    | with_reducible apply Keeps.foldl
    | split
    | extract_lets

theorem execChannelTableWrite_keeps {s0 s u : State} (t : TileId) (n : Nat) (entry : List Byte) (hK : Keeps s0 s) (e : execChannelTableWrite t n entry s = .next u) : Keeps s0 u := by
  unfold execChannelTableWrite at e
  refine guardRes_keeps ?_ e
  repeat' first
    | with_reducible assumption
    | intro _
    | with_reducible apply Keeps.modCb
    | with_reducible apply Keeps.emit
    | with_reducible refine Keeps.fst ?_ (by assumption)
    | with_reducible apply Keeps.ite
    | with_reducible apply Keeps.forEach
    | with_reducible apply Keeps.foldl
    | split
    | extract_lets

theorem State.tokenBoundary_keeps {s0 s : State} (t : TileId) (hK : Keeps s0 s) : Keeps s0 (State.tokenBoundary s t) := by
  unfold State.tokenBoundary
  repeat' first
    | with_reducible assumption
    | intro _
    | with_reducible apply Keeps.modTile
    | with_reducible refine Keeps.fst ?_ (by assumption)
    | with_reducible apply Keeps.ite
    | with_reducible apply Keeps.forEach
    | with_reducible apply Keeps.foldl
    | split
    | extract_lets

theorem State.takePort_keeps {s0 s : State} (t : TileId) (x : Nat) (y : Nat) (hK : Keeps s0 s) : Keeps s0 (State.takePort s t x y) := by
  unfold State.takePort
  repeat' first
    | with_reducible assumption
    | intro _
    | with_reducible apply Keeps.modTile
    | with_reducible refine Keeps.fst ?_ (by assumption)
    | with_reducible apply Keeps.ite
    | with_reducible apply Keeps.forEach
    | with_reducible apply Keeps.foldl
    | split
    | extract_lets

theorem State.refusePort_keeps {s0 s : State} (t : TileId) (x : Nat) (y : Nat) (code : Nat) (hK : Keeps s0 s) : Keeps s0 (State.refusePort s t x y code) := by
  unfold State.refusePort
  repeat' first
    | with_reducible assumption
    | intro _
    | with_reducible apply Keeps.emit
    | with_reducible apply State.countRefusal_keeps
    | with_reducible apply State.refuse_keeps
    | with_reducible apply State.takePort_keeps
    | with_reducible refine Keeps.fst ?_ (by assumption)
    | with_reducible apply Keeps.ite
    | with_reducible apply Keeps.forEach
    | with_reducible apply Keeps.foldl
    | split
    | extract_lets

theorem execWriteBurst_keeps {s0 s u : State} (t : TileId) (hdr : List Byte) (rows : List (List Byte)) (srcX : Nat) (srcY : Nat) (hK : Keeps s0 s) (e : execWriteBurst t hdr rows srcX srcY s = .next u) : Keeps s0 u := by
  unfold execWriteBurst at e
  refine guardRes_keeps ?_ e
  repeat' first
    | with_reducible assumption
    | intro _
    | with_reducible apply Keeps.modCb
    | with_reducible apply State.burstReaches_keeps
    | with_reducible apply State.inTurn_keeps
    | with_reducible apply State.takePort_keeps
    | with_reducible apply State.refusePort_keeps
    | with_reducible refine Keeps.fst ?_ (by assumption)
    | with_reducible apply Keeps.ite
    | with_reducible apply Keeps.forEach
    | with_reducible apply Keeps.foldl
    | split
    | extract_lets

theorem execHeldBurstRelease_keeps {s0 s u : State} (t : TileId) (a : Nat) (hK : Keeps s0 s) (e : execHeldBurstRelease t a s = .next u) : Keeps s0 u := by
  unfold execHeldBurstRelease at e
  refine guardRes_keeps ?_ e
  repeat' first
    | with_reducible assumption
    | intro _
    | with_reducible apply Keeps.modCb
    | with_reducible refine Keeps.fst ?_ (by assumption)
    | with_reducible apply Keeps.ite
    | with_reducible apply Keeps.forEach
    | with_reducible apply Keeps.foldl
    | split
    | extract_lets

theorem State.ackBurst_keeps {s0 s : State} (t : TileId) (f : Option Flit) (hK : Keeps s0 s) : Keeps s0 (State.ackBurst s t f) := by
  unfold State.ackBurst
  repeat' first
    | with_reducible assumption
    | intro _
    | with_reducible apply State.ackWrite_keeps
    | with_reducible refine Keeps.fst ?_ (by assumption)
    | with_reducible apply Keeps.ite
    | with_reducible apply Keeps.forEach
    | with_reducible apply Keeps.foldl
    | split
    | extract_lets

theorem State.programRow_keeps {s0 s : State} (t : TileId) (a : Nat) (r : Nat) (fmt : Nat) (b : List Byte) (o : RowOutcome) (hK : Keeps s0 s) : Keeps s0 (State.programRow s t a r fmt b o) := by
  unfold State.programRow
  repeat' first
    | with_reducible assumption
    | intro _
    | with_reducible apply Keeps.modCb
    | with_reducible apply Keeps.odAdd
    | with_reducible refine Keeps.fst ?_ (by assumption)
    | with_reducible apply Keeps.ite
    | with_reducible apply Keeps.forEach
    | with_reducible apply Keeps.foldl
    | split
    | extract_lets

theorem execRowWriteVerify_keeps {s0 s u : State} (t : TileId) (a : Nat) (outcome : RowOutcome) (hK : Keeps s0 s) (e : execRowWriteVerify t a outcome s = .next u) : Keeps s0 u := by
  unfold execRowWriteVerify at e
  refine guardRes_keeps ?_ e
  repeat' first
    | with_reducible assumption
    | intro _
    | with_reducible apply Keeps.modCb
    | with_reducible apply State.ackBurst_keeps
    | with_reducible apply State.programRow_keeps
    | with_reducible refine Keeps.fst ?_ (by assumption)
    | with_reducible apply Keeps.ite
    | with_reducible apply Keeps.forEach
    | with_reducible apply Keeps.foldl
    | split
    | extract_lets

theorem execColumnSumRecompute_keeps {s0 s u : State} (t : TileId) (a : Nat) (hK : Keeps s0 s) (e : execColumnSumRecompute t a s = .next u) : Keeps s0 u := by
  unfold execColumnSumRecompute at e
  refine guardRes_keeps ?_ e
  repeat' first
    | with_reducible assumption
    | intro _
    | with_reducible apply Keeps.modCb
    | with_reducible apply State.ackBurst_keeps
    | with_reducible refine Keeps.fst ?_ (by assumption)
    | with_reducible apply Keeps.ite
    | with_reducible apply Keeps.forEach
    | with_reducible apply Keeps.foldl
    | split
    | extract_lets

theorem State.sendRows_keeps {s0 s : State} (t : TileId) (a : Nat) (d : Dest) (r : Nat) (n : Nat) (i : Nat) (hK : Keeps s0 s) : Keeps s0 (State.sendRows s t a d r n i) := by
  induction n generalizing s t a d r i with
  | zero =>
    unfold State.sendRows
    repeat' first
      | with_reducible assumption
      | intro _
      | with_reducible apply State.inject_keeps
      | with_reducible apply State.raiseFault_keeps
      | with_reducible apply State.countRefusal_keeps
      | with_reducible refine Keeps.fst ?_ (by assumption)
      | with_reducible apply Keeps.ite
      | with_reducible apply Keeps.forEach
      | with_reducible apply Keeps.foldl
      | split
      | extract_lets
  | succ n ih =>
    unfold State.sendRows
    repeat' first
      | with_reducible assumption
      | intro _
      | with_reducible apply ih
      | with_reducible apply State.inject_keeps
      | with_reducible apply State.raiseFault_keeps
      | with_reducible apply State.countRefusal_keeps
      | with_reducible refine Keeps.fst ?_ (by assumption)
      | with_reducible apply Keeps.ite
      | with_reducible apply Keeps.forEach
      | with_reducible apply Keeps.foldl
      | split
      | extract_lets

theorem execReadRequest_keeps {s0 s u : State} (t : TileId) (hdr : List Byte) (srcX : Nat) (srcY : Nat) (hK : Keeps s0 s) (e : execReadRequest t hdr srcX srcY s = .next u) : Keeps s0 u := by
  unfold execReadRequest at e
  refine guardRes_keeps ?_ e
  repeat' first
    | with_reducible assumption
    | intro _
    | with_reducible apply Keeps.modCb
    | with_reducible apply State.inTurn_keeps
    | with_reducible apply State.takePort_keeps
    | with_reducible apply State.refusePort_keeps
    | with_reducible apply State.ackBurst_keeps
    | with_reducible apply State.sendRows_keeps
    | with_reducible refine Keeps.fst ?_ (by assumption)
    | with_reducible apply Keeps.ite
    | with_reducible apply Keeps.forEach
    | with_reducible apply Keeps.foldl
    | split
    | extract_lets

end Sys2Proof.Machine
end

