-- ==== Sys2Proof/Laws/KeepsAccuracy.lean ====
section
/-!
SUPPORT. Every operation of Machine/Accuracy.lean keeps what `Keeps` says.
-/

namespace Sys2Proof.Machine

theorem execCalibrationDue_keeps {s0 s u : State} (t : TileId) (a : Nat) (hK : Keeps s0 s) (e : execCalibrationDue t a s = .next u) : Keeps s0 u := by
  unfold execCalibrationDue at e
  refine guardRes_keeps ?_ e
  repeat' first
    | with_reducible assumption
    | intro _
    | with_reducible apply Keeps.modCb
    | with_reducible refine Keeps.fst ?_ (by assumption)
    | with_reducible apply Keeps.ite
    | with_reducible apply Keeps.forEach
    | with_reducible apply Keeps.foldl
    | split
    | extract_lets

theorem execCalibrationStart_keeps {s0 s u : State} (t : TileId) (arrays : List Nat) (hK : Keeps s0 s) (e : execCalibrationStart t arrays s = .next u) : Keeps s0 u := by
  unfold execCalibrationStart at e
  refine guardRes_keeps ?_ e
  repeat' first
    | with_reducible assumption
    | intro _
    | with_reducible apply Keeps.modCb
    | with_reducible refine Keeps.fst ?_ (by assumption)
    | with_reducible apply Keeps.ite
    | with_reducible apply Keeps.forEach
    | with_reducible apply Keeps.foldl
    | split
    | extract_lets

theorem execCalibrationCommit_keeps {s0 s u : State} (t : TileId) (a : Nat) (measured : TrimSet) (hK : Keeps s0 s) (e : execCalibrationCommit t a measured s = .next u) : Keeps s0 u := by
  unfold execCalibrationCommit at e
  refine guardRes_keeps ?_ e
  repeat' first
    | with_reducible assumption
    | intro _
    | with_reducible apply Keeps.modCb
    | with_reducible apply Keeps.odAdd
    | with_reducible refine Keeps.fst ?_ (by assumption)
    | with_reducible apply Keeps.ite
    | with_reducible apply Keeps.forEach
    | with_reducible apply Keeps.foldl
    | split
    | extract_lets

theorem execCalibrationLate_keeps {s0 s u : State} (t : TileId) (a : Nat) (hK : Keeps s0 s) (e : execCalibrationLate t a s = .next u) : Keeps s0 u := by
  unfold execCalibrationLate at e
  refine guardRes_keeps ?_ e
  repeat' first
    | with_reducible assumption
    | intro _
    | with_reducible apply Keeps.modCb
    | with_reducible apply Keeps.odAdd
    | with_reducible refine Keeps.fst ?_ (by assumption)
    | with_reducible apply Keeps.ite
    | with_reducible apply Keeps.forEach
    | with_reducible apply Keeps.foldl
    | split
    | extract_lets

theorem State.mapArrays_keeps {s0 s : State} (f : ChargeArray → ChargeArray) (hK : Keeps s0 s) : Keeps s0 (State.mapArrays s f) := by
  unfold State.mapArrays
  repeat' first
    | with_reducible assumption
    | intro _
    | with_reducible apply Keeps.modCb
    | with_reducible refine Keeps.fst ?_ (by assumption)
    | with_reducible apply Keeps.ite
    | with_reducible apply Keeps.forEach
    | with_reducible apply Keeps.foldl
    | split
    | extract_lets

theorem State.saveUserCal_keeps {s0 s : State} (hK : Keeps s0 s) : Keeps s0 (State.saveUserCal s) := by
  unfold State.saveUserCal
  repeat' first
    | with_reducible assumption
    | intro _
    | with_reducible apply Keeps.odSet
    | with_reducible apply State.mapArrays_keeps
    | with_reducible refine Keeps.fst ?_ (by assumption)
    | with_reducible apply Keeps.ite
    | with_reducible apply Keeps.forEach
    | with_reducible apply Keeps.foldl
    | split
    | extract_lets

theorem execUserCalibrationSave_keeps {s0 s u : State} (hK : Keeps s0 s) (e : execUserCalibrationSave s = .next u) : Keeps s0 u := by
  unfold execUserCalibrationSave at e
  refine guardRes_keeps ?_ e
  repeat' first
    | with_reducible assumption
    | intro _
    | with_reducible apply State.saveUserCal_keeps
    | with_reducible refine Keeps.fst ?_ (by assumption)
    | with_reducible apply Keeps.ite
    | with_reducible apply Keeps.forEach
    | with_reducible apply Keeps.foldl
    | split
    | extract_lets

theorem execRefreshDue_keeps {s0 s u : State} (t : TileId) (a : Nat) (hK : Keeps s0 s) (e : execRefreshDue t a s = .next u) : Keeps s0 u := by
  unfold execRefreshDue at e
  refine guardRes_keeps ?_ e
  repeat' first
    | with_reducible assumption
    | intro _
    | with_reducible apply Keeps.modCb
    | with_reducible refine Keeps.fst ?_ (by assumption)
    | with_reducible apply Keeps.ite
    | with_reducible apply Keeps.forEach
    | with_reducible apply Keeps.foldl
    | split
    | extract_lets

theorem execRefreshRow_keeps {s0 s u : State} (t : TileId) (a : Nat) (verified : Bool) (hK : Keeps s0 s) (e : execRefreshRow t a verified s = .next u) : Keeps s0 u := by
  unfold execRefreshRow at e
  refine guardRes_keeps ?_ e
  repeat' first
    | with_reducible assumption
    | intro _
    | with_reducible apply Keeps.modCb
    | with_reducible apply Keeps.odAdd
    | with_reducible refine Keeps.fst ?_ (by assumption)
    | with_reducible apply Keeps.ite
    | with_reducible apply Keeps.forEach
    | with_reducible apply Keeps.foldl
    | split
    | extract_lets

theorem execRefreshForced_keeps {s0 s u : State} (t : TileId) (a : Nat) (hK : Keeps s0 s) (e : execRefreshForced t a s = .next u) : Keeps s0 u := by
  unfold execRefreshForced at e
  refine guardRes_keeps ?_ e
  repeat' first
    | with_reducible assumption
    | intro _
    | with_reducible apply Keeps.modCb
    | with_reducible apply Keeps.odAdd
    | with_reducible refine Keeps.fst ?_ (by assumption)
    | with_reducible apply Keeps.ite
    | with_reducible apply Keeps.forEach
    | with_reducible apply Keeps.foldl
    | split
    | extract_lets

theorem State.showExact_keeps {s0 s : State} (t : TileId) (hK : Keeps s0 s) : Keeps s0 (State.showExact s t) := by
  unfold State.showExact
  repeat' first
    | with_reducible assumption
    | intro _
    | with_reducible apply Keeps.modTile
    | with_reducible refine Keeps.fst ?_ (by assumption)
    | with_reducible apply Keeps.ite
    | with_reducible apply Keeps.forEach
    | with_reducible apply Keeps.foldl
    | split
    | extract_lets

theorem execExactArrayRead_keeps {s0 s u : State} (t : TileId) (a : Nat) (first : List (Nat × Nat × Nat)) (second : List (Nat × Nat × Nat)) (hK : Keeps s0 s) (e : execExactArrayRead t a first second s = .next u) : Keeps s0 u := by
  unfold execExactArrayRead at e
  refine guardRes_keeps ?_ e
  repeat' first
    | with_reducible assumption
    | intro _
    | with_reducible apply Keeps.modCb
    | with_reducible apply Keeps.odAdd
    | with_reducible apply Keeps.log
    | with_reducible apply State.showExact_keeps
    | with_reducible refine Keeps.fst ?_ (by assumption)
    | with_reducible apply Keeps.ite
    | with_reducible apply Keeps.forEach
    | with_reducible apply Keeps.foldl
    | split
    | extract_lets

theorem execExactStream_keeps {s0 s u : State} (t : TileId) (seg : Nat) (hK : Keeps s0 s) (e : execExactStream t seg s = .next u) : Keeps s0 u := by
  unfold execExactStream at e
  refine guardRes_keeps ?_ e
  repeat' first
    | with_reducible assumption
    | intro _
    | with_reducible apply Keeps.modTile
    | with_reducible apply Keeps.odAdd
    | with_reducible apply State.closeWindow_keeps
    | with_reducible apply State.finishGroup_keeps
    | with_reducible apply State.showExact_keeps
    | with_reducible refine Keeps.fst ?_ (by assumption)
    | with_reducible apply Keeps.ite
    | with_reducible apply Keeps.forEach
    | with_reducible apply Keeps.foldl
    | split
    | extract_lets

end Sys2Proof.Machine
end

