-- ==== Sys2Proof/Laws/KeepsTensor.lean ====
section
/-!
SUPPORT. Every operation of Machine/Tensor.lean keeps what `Keeps` says.
-/

namespace Sys2Proof.Machine

theorem execTensorOperation_keeps {s0 s u : State} (t : TileId) (hK : Keeps s0 s) (e : execTensorOperation t s = .next u) : Keeps s0 u := by
  unfold execTensorOperation at e
  refine guardRes_keeps ?_ e
  repeat' first
    | with_reducible assumption
    | intro _
    | with_reducible apply Keeps.modTv
    | with_reducible apply Keeps.odAdd
    | with_reducible apply Keeps.useFree
    | with_reducible apply State.meetRanges_keeps
    | with_reducible refine Keeps.fst ?_ (by assumption)
    | with_reducible apply Keeps.ite
    | with_reducible apply Keeps.forEach
    | with_reducible apply Keeps.foldl
    | split
    | extract_lets

theorem execHeldLoad_keeps {s0 s u : State} (t : TileId) (hK : Keeps s0 s) (e : execHeldLoad t s = .next u) : Keeps s0 u := by
  unfold execHeldLoad at e
  refine guardRes_keeps ?_ e
  repeat' first
    | with_reducible assumption
    | intro _
    | with_reducible apply Keeps.modTv
    | with_reducible apply State.spGet_keeps
    | with_reducible refine Keeps.fst ?_ (by assumption)
    | with_reducible apply Keeps.ite
    | with_reducible apply Keeps.forEach
    | with_reducible apply Keeps.foldl
    | split
    | extract_lets

theorem State.drainDone_keeps {s0 s : State} (t : TileId) (hK : Keeps s0 s) : Keeps s0 (State.drainDone s t) := by
  unfold State.drainDone
  repeat' first
    | with_reducible assumption
    | intro _
    | with_reducible apply Keeps.modTile
    | with_reducible refine Keeps.fst ?_ (by assumption)
    | with_reducible apply Keeps.ite
    | with_reducible apply Keeps.forEach
    | with_reducible apply Keeps.foldl
    | split
    | extract_lets

theorem execTensorDrain_keeps {s0 s u : State} (t : TileId) (hK : Keeps s0 s) (e : execTensorDrain t s = .next u) : Keeps s0 u := by
  unfold execTensorDrain at e
  refine guardRes_keeps ?_ e
  repeat' first
    | with_reducible assumption
    | intro _
    | with_reducible apply Keeps.modTv
    | with_reducible apply Keeps.modVu
    | with_reducible apply State.spStoreWords_keeps
    | with_reducible apply State.drainDone_keeps
    | with_reducible refine Keeps.fst ?_ (by assumption)
    | with_reducible apply Keeps.ite
    | with_reducible apply Keeps.forEach
    | with_reducible apply Keeps.foldl
    | split
    | extract_lets

end Sys2Proof.Machine
end

