-- ==== Sys2Proof/Laws/KeepsRegs.lean ====
section
/-!
SUPPORT. Every operation of Machine/Regs.lean keeps what `Keeps` says.
-/

namespace Sys2Proof.Machine

theorem State.haltCore_keeps {s0 s : State} (t : TileId) (cause : Nat) (hK : Keeps s0 s) : Keeps s0 (State.haltCore s t cause) := by
  unfold State.haltCore
  repeat' first
    | with_reducible assumption
    | intro _
    | with_reducible apply Keeps.modCc
    | with_reducible apply State.trace_keeps
    | with_reducible refine Keeps.fst ?_ (by assumption)
    | with_reducible apply Keeps.ite
    | with_reducible apply Keeps.forEach
    | with_reducible apply Keeps.foldl
    | split
    | extract_lets

theorem State.haltPart_keeps {s0 s : State} (p : Nat) (own : Option (TileId × Nat)) (hK : Keeps s0 s) : Keeps s0 (State.haltPart s p own) := by
  unfold State.haltPart
  repeat' first
    | with_reducible assumption
    | intro _
    | with_reducible apply Keeps.odSetP
    | with_reducible apply State.haltCore_keeps
    | with_reducible refine Keeps.fst ?_ (by assumption)
    | with_reducible apply Keeps.ite
    | with_reducible apply Keeps.forEach
    | with_reducible apply Keeps.foldl
    | split
    | extract_lets

theorem State.haltScoped_keeps {s0 s : State} (t : TileId) (scope : Bool) (cause : Nat) (hK : Keeps s0 s) : Keeps s0 (State.haltScoped s t scope cause) := by
  unfold State.haltScoped
  repeat' first
    | with_reducible assumption
    | intro _
    | with_reducible apply State.haltCore_keeps
    | with_reducible apply State.haltPart_keeps
    | with_reducible refine Keeps.fst ?_ (by assumption)
    | with_reducible apply Keeps.ite
    | with_reducible apply Keeps.forEach
    | with_reducible apply Keeps.foldl
    | split
    | extract_lets

theorem State.resumeCore_keeps {s0 s : State} (t : TileId) (hK : Keeps s0 s) : Keeps s0 (State.resumeCore s t) := by
  unfold State.resumeCore
  repeat' first
    | with_reducible assumption
    | intro _
    | with_reducible apply Keeps.modCc
    | with_reducible apply State.trace_keeps
    | with_reducible refine Keeps.fst ?_ (by assumption)
    | with_reducible apply Keeps.ite
    | with_reducible apply Keeps.forEach
    | with_reducible apply Keeps.foldl
    | split
    | extract_lets

theorem State.resumePart_keeps {s0 s : State} (p : Nat) (hK : Keeps s0 s) : Keeps s0 (State.resumePart s p) := by
  unfold State.resumePart
  repeat' first
    | with_reducible assumption
    | intro _
    | with_reducible apply Keeps.odSetP
    | with_reducible apply State.resumeCore_keeps
    | with_reducible refine Keeps.fst ?_ (by assumption)
    | with_reducible apply Keeps.ite
    | with_reducible apply Keeps.forEach
    | with_reducible apply Keeps.foldl
    | split
    | extract_lets

theorem State.readTileReg_keeps {s0 s : State} (t : TileId) (off : Nat) (hK : Keeps s0 s) : Keeps s0 (State.readTileReg s t off).1 := by
  refine KeepsP.keeps ?_
  unfold State.readTileReg
  repeat' first
    | with_reducible assumption
    | intro _
    | with_reducible apply KeepsP.ite
    | with_reducible apply Keeps.modCc
    | with_reducible refine Keeps.fst ?_ (by assumption)
    | with_reducible apply Keeps.ite
    | with_reducible apply Keeps.forEach
    | with_reducible apply Keeps.foldl
    | split
    | extract_lets
    | with_reducible apply KeepsP.pair

theorem State.writeSpBlock_keeps {s0 s : State} (t : TileId) (off : Nat) (v : Word) (hK : Keeps s0 s) : Keeps s0 (State.writeSpBlock s t off v) := by
  unfold State.writeSpBlock
  repeat' first
    | with_reducible assumption
    | intro _
    | with_reducible apply Keeps.modSp
    | with_reducible apply Keeps.modMv
    | with_reducible apply State.writeMvRing_keeps
    | with_reducible apply State.writeMvTail_keeps
    | with_reducible refine Keeps.fst ?_ (by assumption)
    | with_reducible apply Keeps.ite
    | with_reducible apply Keeps.forEach
    | with_reducible apply Keeps.foldl
    | split
    | extract_lets

theorem State.setRowMap_keeps {s0 s : State} (y : Nat) (c : Nat) (i : Nat) (k : Nat) (hK : Keeps s0 s) : Keeps s0 (State.setRowMap s y c i k) := by
  unfold State.setRowMap
  repeat' first
    | with_reducible assumption
    | intro _
    | with_reducible refine Keeps.fst ?_ (by assumption)
    | with_reducible apply Keeps.ite
    | with_reducible apply Keeps.forEach
    | with_reducible apply Keeps.foldl
    | split
    | extract_lets
    | fail_if_no_progress (with_reducible apply Keeps.mesh)

theorem State.setRoute_keeps {s0 s : State} (t : TileId) (r : Nat) (entry : Nat) (hK : Keeps s0 s) : Keeps s0 (State.setRoute s t r entry) := by
  unfold State.setRoute
  repeat' first
    | with_reducible assumption
    | intro _
    | with_reducible apply Keeps.modRouter
    | with_reducible refine Keeps.fst ?_ (by assumption)
    | with_reducible apply Keeps.ite
    | with_reducible apply Keeps.forEach
    | with_reducible apply Keeps.foldl
    | split
    | extract_lets

theorem State.writeRtBlock_keeps {s0 s : State} (t : TileId) (off : Nat) (v : Word) (mgmt : Bool) (hK : Keeps s0 s) : Keeps s0 (State.writeRtBlock s t off v mgmt) := by
  unfold State.writeRtBlock
  repeat' first
    | with_reducible assumption
    | intro _
    | with_reducible apply Keeps.modRouter
    | with_reducible apply State.setRowMap_keeps
    | with_reducible apply State.setRoute_keeps
    | with_reducible refine Keeps.fst ?_ (by assumption)
    | with_reducible apply Keeps.ite
    | with_reducible apply Keeps.forEach
    | with_reducible apply Keeps.foldl
    | split
    | extract_lets

theorem State.writeTileReg_keeps {s0 s : State} (t : TileId) (off : Nat) (v : Word) (mgmt : Bool) (hK : Keeps s0 s) : Keeps s0 (State.writeTileReg s t off v mgmt) := by
  unfold State.writeTileReg
  repeat' first
    | with_reducible assumption
    | intro _
    | with_reducible apply Keeps.modTile
    | with_reducible apply Keeps.modCb
    | with_reducible apply Keeps.modTv
    | with_reducible apply Keeps.modCc
    | with_reducible apply State.writeSpBlock_keeps
    | with_reducible apply State.writeRtBlock_keeps
    | with_reducible refine Keeps.fst ?_ (by assumption)
    | with_reducible apply Keeps.ite
    | with_reducible apply Keeps.forEach
    | with_reducible apply Keeps.foldl
    | split
    | extract_lets

end Sys2Proof.Machine
end

