-- ==== Sys2Proof/Laws/KeepsCoreOps.lean ====
section
/-!
SUPPORT. Every operation of Machine/CoreOps.lean keeps what `Keeps` says.
-/

namespace Sys2Proof.Machine

theorem State.setGr_keeps {s0 s : State} (t : TileId) (n : Fin 32) (v : Word) (hK : Keeps s0 s) : Keeps s0 (State.setGr s t n v) := by
  unfold State.setGr
  repeat' first
    | with_reducible assumption
    | intro _
    | with_reducible apply Keeps.modCc
    | with_reducible refine Keeps.fst ?_ (by assumption)
    | with_reducible apply Keeps.ite
    | with_reducible apply Keeps.forEach
    | with_reducible apply Keeps.foldl
    | split
    | extract_lets

theorem State.setGrPair_keeps {s0 s : State} (t : TileId) (n : Fin 32) (v : Nat) (hK : Keeps s0 s) : Keeps s0 (State.setGrPair s t n v) := by
  unfold State.setGrPair
  repeat' first
    | with_reducible assumption
    | intro _
    | with_reducible apply State.setGr_keeps
    | with_reducible refine Keeps.fst ?_ (by assumption)
    | with_reducible apply Keeps.ite
    | with_reducible apply Keeps.forEach
    | with_reducible apply Keeps.foldl
    | split
    | extract_lets

theorem State.retire_keeps {s0 s : State} (t : TileId) (pc : Word) (hK : Keeps s0 s) : Keeps s0 (State.retire s t pc) := by
  unfold State.retire
  repeat' first
    | with_reducible assumption
    | intro _
    | with_reducible apply Keeps.modCc
    | with_reducible apply State.haltCore_keeps
    | with_reducible refine Keeps.fst ?_ (by assumption)
    | with_reducible apply Keeps.ite
    | with_reducible apply Keeps.forEach
    | with_reducible apply Keeps.foldl
    | split
    | extract_lets

theorem State.coreEnd_keeps {s0 s : State} (t : TileId) (e : CoreEnd) (hK : Keeps s0 s) : Keeps s0 (State.coreEnd s t e) := by
  unfold State.coreEnd
  repeat' first
    | with_reducible assumption
    | intro _
    | with_reducible apply State.coreFault_keeps
    | with_reducible apply State.retire_keeps
    | with_reducible refine Keeps.fst ?_ (by assumption)
    | with_reducible apply Keeps.ite
    | with_reducible apply Keeps.forEach
    | with_reducible apply Keeps.foldl
    | split
    | extract_lets

theorem State.coreStep_keeps {s0 s : State} (t : TileId) (again : Bool) (f : State → State × CoreEnd) (hf : ∀ t, Keeps s0 t → Keeps s0 (f t).1) (hK : Keeps s0 s) : Keeps s0 (State.coreStep s t again f) := by
  unfold State.coreStep
  repeat' first
    | with_reducible assumption
    | intro _
    | with_reducible apply KeepsP.ite
    | with_reducible apply State.coreFault_keeps
    | with_reducible apply State.haltScoped_keeps
    | with_reducible apply State.coreEnd_keeps
    | with_reducible apply hf
    | with_reducible refine Keeps.fst ?_ (by assumption)
    | with_reducible apply Keeps.ite
    | with_reducible apply Keeps.forEach
    | with_reducible apply Keeps.foldl
    | split
    | extract_lets
    | with_reducible apply KeepsP.pair

theorem State.coreRun_keeps {s0 s : State} (t : TileId) (f : State → State × CoreEnd) (hf : ∀ t, Keeps s0 t → Keeps s0 (f t).1) (hK : Keeps s0 s) : Keeps s0 (State.coreRun s t f) := by
  unfold State.coreRun
  repeat' first
    | with_reducible assumption
    | intro _
    | with_reducible apply KeepsP.ite
    | with_reducible apply State.coreStep_keeps
    | with_reducible apply hf
    | with_reducible refine Keeps.fst ?_ (by assumption)
    | with_reducible apply Keeps.ite
    | with_reducible apply Keeps.forEach
    | with_reducible apply Keeps.foldl
    | split
    | extract_lets
    | with_reducible apply KeepsP.pair

theorem State.aluRun_keeps {s0 s : State} (t : TileId) (d : Fin 32) (v : State → Word) (hK : Keeps s0 s) : Keeps s0 (State.aluRun s t d v) := by
  unfold State.aluRun
  repeat' first
    | with_reducible assumption
    | intro _
    | with_reducible apply State.setGr_keeps
    | with_reducible apply State.retire_keeps
    | with_reducible apply State.coreRun_keeps
    | with_reducible refine Keeps.fst ?_ (by assumption)
    | with_reducible apply Keeps.ite
    | with_reducible apply Keeps.forEach
    | with_reducible apply Keeps.foldl
    | split
    | extract_lets

theorem State.jumpTo_keeps {s0 s : State} (t : TileId) (pc : Word) (hK : Keeps s0 s) : Keeps s0 (State.jumpTo s t pc).1 := by
  refine KeepsP.keeps ?_
  unfold State.jumpTo
  repeat' first
    | with_reducible assumption
    | intro _
    | with_reducible apply KeepsP.ite
    | with_reducible apply Keeps.modCc
    | with_reducible apply State.trace_keeps
    | with_reducible apply State.retire_keeps
    | with_reducible refine Keeps.fst ?_ (by assumption)
    | with_reducible apply Keeps.ite
    | with_reducible apply Keeps.forEach
    | with_reducible apply Keeps.foldl
    | split
    | extract_lets
    | with_reducible apply KeepsP.pair

theorem State.branchRun_keeps {s0 s : State} (t : TileId) (off : BitVec 16) (taken : State → Bool) (hK : Keeps s0 s) : Keeps s0 (State.branchRun s t off taken) := by
  unfold State.branchRun
  repeat' first
    | with_reducible assumption
    | intro _
    | with_reducible apply State.retire_keeps
    | with_reducible apply State.coreRun_keeps
    | with_reducible apply State.jumpTo_keeps
    | with_reducible refine Keeps.fst ?_ (by assumption)
    | with_reducible apply Keeps.ite
    | with_reducible apply Keeps.forEach
    | with_reducible apply Keeps.foldl
    | split
    | extract_lets

theorem State.misaligned_keeps {s0 s : State} (t : TileId) (hK : Keeps s0 s) : Keeps s0 (State.misaligned s t) := by
  unfold State.misaligned
  repeat' first
    | with_reducible assumption
    | intro _
    | with_reducible apply Keeps.modSp
    | with_reducible apply Keeps.odAdd
    | with_reducible refine Keeps.fst ?_ (by assumption)
    | with_reducible apply Keeps.ite
    | with_reducible apply Keeps.forEach
    | with_reducible apply Keeps.foldl
    | split
    | extract_lets

theorem State.coreRead_keeps {s0 s : State} (t : TileId) (a : Nat) (n : Nat) (hK : Keeps s0 s) : Keeps s0 (State.coreRead s t a n).1 := by
  refine KeepsP.keeps ?_
  unfold State.coreRead
  repeat' first
    | with_reducible assumption
    | intro _
    | with_reducible apply KeepsP.ite
    | with_reducible apply State.spGet_keeps
    | with_reducible apply State.readTileReg_keeps
    | with_reducible apply State.misaligned_keeps
    | with_reducible refine Keeps.fst ?_ (by assumption)
    | with_reducible apply Keeps.ite
    | with_reducible apply Keeps.forEach
    | with_reducible apply Keeps.foldl
    | split
    | extract_lets
    | with_reducible apply KeepsP.pair

theorem State.coreWrite_keeps {s0 s : State} (t : TileId) (a : Nat) (bs : List Byte) (hK : Keeps s0 s) : Keeps s0 (State.coreWrite s t a bs).1 := by
  refine KeepsP.keeps ?_
  unfold State.coreWrite
  repeat' first
    | with_reducible assumption
    | intro _
    | with_reducible apply KeepsP.ite
    | with_reducible apply Keeps.modCb
    | with_reducible apply Keeps.modCc
    | with_reducible apply State.spStore_keeps
    | with_reducible apply State.writeTileReg_keeps
    | with_reducible apply State.misaligned_keeps
    | with_reducible refine Keeps.fst ?_ (by assumption)
    | with_reducible apply Keeps.ite
    | with_reducible apply Keeps.forEach
    | with_reducible apply Keeps.foldl
    | split
    | extract_lets
    | with_reducible apply KeepsP.pair

theorem State.afterAccess_keeps {s0 s : State} (t : TileId) (hit : Option Bool) (hK : Keeps s0 s) : Keeps s0 (State.afterAccess s t hit) := by
  unfold State.afterAccess
  repeat' first
    | with_reducible assumption
    | intro _
    | with_reducible apply State.haltScoped_keeps
    | with_reducible refine Keeps.fst ?_ (by assumption)
    | with_reducible apply Keeps.ite
    | with_reducible apply Keeps.forEach
    | with_reducible apply Keeps.foldl
    | split
    | extract_lets

theorem State.loadRun_keeps {s0 s : State} (t : TileId) (d : Fin 32) (a : Fin 32) (imm : BitVec 16) (n : Nat) (ext : Nat → Word) (hK : Keeps s0 s) : Keeps s0 (State.loadRun s t d a imm n ext) := by
  unfold State.loadRun
  repeat' first
    | with_reducible assumption
    | intro _
    | with_reducible apply State.setGr_keeps
    | with_reducible apply State.retire_keeps
    | with_reducible apply State.coreRun_keeps
    | with_reducible apply State.coreRead_keeps
    | with_reducible apply State.afterAccess_keeps
    | with_reducible refine Keeps.fst ?_ (by assumption)
    | with_reducible apply Keeps.ite
    | with_reducible apply Keeps.forEach
    | with_reducible apply Keeps.foldl
    | split
    | extract_lets

theorem State.storeRun_keeps {s0 s : State} (t : TileId) (d : Fin 32) (a : Fin 32) (imm : BitVec 16) (n : Nat) (hK : Keeps s0 s) : Keeps s0 (State.storeRun s t d a imm n) := by
  unfold State.storeRun
  repeat' first
    | with_reducible assumption
    | intro _
    | with_reducible apply State.retire_keeps
    | with_reducible apply State.coreRun_keeps
    | with_reducible apply State.coreWrite_keeps
    | with_reducible apply State.afterAccess_keeps
    | with_reducible refine Keeps.fst ?_ (by assumption)
    | with_reducible apply Keeps.ite
    | with_reducible apply Keeps.forEach
    | with_reducible apply Keeps.foldl
    | split
    | extract_lets

end Sys2Proof.Machine
end

