-- ==== Sys2Proof/Laws/KeepsCoreInt.lean ====
section
/-!
SUPPORT. Every operation of Machine/CoreInt.lean keeps what `Keeps` says.
-/

namespace Sys2Proof.Machine

theorem execAdd_keeps {s0 s u : State} (t : TileId) (d : Fin 32) (a : Fin 32) (b : Fin 32) (hK : Keeps s0 s) (e : execAdd t d a b s = .next u) : Keeps s0 u := by
  unfold execAdd at e
  refine guardRes_keeps ?_ e
  repeat' first
    | with_reducible assumption
    | intro _
    | with_reducible apply State.aluRun_keeps
    | with_reducible refine Keeps.fst ?_ (by assumption)
    | with_reducible apply Keeps.ite
    | with_reducible apply Keeps.forEach
    | with_reducible apply Keeps.foldl
    | split
    | extract_lets

theorem execSub_keeps {s0 s u : State} (t : TileId) (d : Fin 32) (a : Fin 32) (b : Fin 32) (hK : Keeps s0 s) (e : execSub t d a b s = .next u) : Keeps s0 u := by
  unfold execSub at e
  refine guardRes_keeps ?_ e
  repeat' first
    | with_reducible assumption
    | intro _
    | with_reducible apply State.aluRun_keeps
    | with_reducible refine Keeps.fst ?_ (by assumption)
    | with_reducible apply Keeps.ite
    | with_reducible apply Keeps.forEach
    | with_reducible apply Keeps.foldl
    | split
    | extract_lets

theorem execAnd_keeps {s0 s u : State} (t : TileId) (d : Fin 32) (a : Fin 32) (b : Fin 32) (hK : Keeps s0 s) (e : execAnd t d a b s = .next u) : Keeps s0 u := by
  unfold execAnd at e
  refine guardRes_keeps ?_ e
  repeat' first
    | with_reducible assumption
    | intro _
    | with_reducible apply State.aluRun_keeps
    | with_reducible refine Keeps.fst ?_ (by assumption)
    | with_reducible apply Keeps.ite
    | with_reducible apply Keeps.forEach
    | with_reducible apply Keeps.foldl
    | split
    | extract_lets

theorem execOr_keeps {s0 s u : State} (t : TileId) (d : Fin 32) (a : Fin 32) (b : Fin 32) (hK : Keeps s0 s) (e : execOr t d a b s = .next u) : Keeps s0 u := by
  unfold execOr at e
  refine guardRes_keeps ?_ e
  repeat' first
    | with_reducible assumption
    | intro _
    | with_reducible apply State.aluRun_keeps
    | with_reducible refine Keeps.fst ?_ (by assumption)
    | with_reducible apply Keeps.ite
    | with_reducible apply Keeps.forEach
    | with_reducible apply Keeps.foldl
    | split
    | extract_lets

theorem execXor_keeps {s0 s u : State} (t : TileId) (d : Fin 32) (a : Fin 32) (b : Fin 32) (hK : Keeps s0 s) (e : execXor t d a b s = .next u) : Keeps s0 u := by
  unfold execXor at e
  refine guardRes_keeps ?_ e
  repeat' first
    | with_reducible assumption
    | intro _
    | with_reducible apply State.aluRun_keeps
    | with_reducible refine Keeps.fst ?_ (by assumption)
    | with_reducible apply Keeps.ite
    | with_reducible apply Keeps.forEach
    | with_reducible apply Keeps.foldl
    | split
    | extract_lets

theorem execSll_keeps {s0 s u : State} (t : TileId) (d : Fin 32) (a : Fin 32) (b : Fin 32) (hK : Keeps s0 s) (e : execSll t d a b s = .next u) : Keeps s0 u := by
  unfold execSll at e
  refine guardRes_keeps ?_ e
  repeat' first
    | with_reducible assumption
    | intro _
    | with_reducible apply State.aluRun_keeps
    | with_reducible refine Keeps.fst ?_ (by assumption)
    | with_reducible apply Keeps.ite
    | with_reducible apply Keeps.forEach
    | with_reducible apply Keeps.foldl
    | split
    | extract_lets

theorem execSrl_keeps {s0 s u : State} (t : TileId) (d : Fin 32) (a : Fin 32) (b : Fin 32) (hK : Keeps s0 s) (e : execSrl t d a b s = .next u) : Keeps s0 u := by
  unfold execSrl at e
  refine guardRes_keeps ?_ e
  repeat' first
    | with_reducible assumption
    | intro _
    | with_reducible apply State.aluRun_keeps
    | with_reducible refine Keeps.fst ?_ (by assumption)
    | with_reducible apply Keeps.ite
    | with_reducible apply Keeps.forEach
    | with_reducible apply Keeps.foldl
    | split
    | extract_lets

theorem execSra_keeps {s0 s u : State} (t : TileId) (d : Fin 32) (a : Fin 32) (b : Fin 32) (hK : Keeps s0 s) (e : execSra t d a b s = .next u) : Keeps s0 u := by
  unfold execSra at e
  refine guardRes_keeps ?_ e
  repeat' first
    | with_reducible assumption
    | intro _
    | with_reducible apply State.aluRun_keeps
    | with_reducible refine Keeps.fst ?_ (by assumption)
    | with_reducible apply Keeps.ite
    | with_reducible apply Keeps.forEach
    | with_reducible apply Keeps.foldl
    | split
    | extract_lets

theorem execSlt_keeps {s0 s u : State} (t : TileId) (d : Fin 32) (a : Fin 32) (b : Fin 32) (hK : Keeps s0 s) (e : execSlt t d a b s = .next u) : Keeps s0 u := by
  unfold execSlt at e
  refine guardRes_keeps ?_ e
  repeat' first
    | with_reducible assumption
    | intro _
    | with_reducible apply State.aluRun_keeps
    | with_reducible refine Keeps.fst ?_ (by assumption)
    | with_reducible apply Keeps.ite
    | with_reducible apply Keeps.forEach
    | with_reducible apply Keeps.foldl
    | split
    | extract_lets

theorem execSltu_keeps {s0 s u : State} (t : TileId) (d : Fin 32) (a : Fin 32) (b : Fin 32) (hK : Keeps s0 s) (e : execSltu t d a b s = .next u) : Keeps s0 u := by
  unfold execSltu at e
  refine guardRes_keeps ?_ e
  repeat' first
    | with_reducible assumption
    | intro _
    | with_reducible apply State.aluRun_keeps
    | with_reducible refine Keeps.fst ?_ (by assumption)
    | with_reducible apply Keeps.ite
    | with_reducible apply Keeps.forEach
    | with_reducible apply Keeps.foldl
    | split
    | extract_lets

theorem execAddi_keeps {s0 s u : State} (t : TileId) (d : Fin 32) (a : Fin 32) (imm : BitVec 16) (hK : Keeps s0 s) (e : execAddi t d a imm s = .next u) : Keeps s0 u := by
  unfold execAddi at e
  refine guardRes_keeps ?_ e
  repeat' first
    | with_reducible assumption
    | intro _
    | with_reducible apply State.aluRun_keeps
    | with_reducible refine Keeps.fst ?_ (by assumption)
    | with_reducible apply Keeps.ite
    | with_reducible apply Keeps.forEach
    | with_reducible apply Keeps.foldl
    | split
    | extract_lets

theorem execAndi_keeps {s0 s u : State} (t : TileId) (d : Fin 32) (a : Fin 32) (imm : BitVec 16) (hK : Keeps s0 s) (e : execAndi t d a imm s = .next u) : Keeps s0 u := by
  unfold execAndi at e
  refine guardRes_keeps ?_ e
  repeat' first
    | with_reducible assumption
    | intro _
    | with_reducible apply State.aluRun_keeps
    | with_reducible refine Keeps.fst ?_ (by assumption)
    | with_reducible apply Keeps.ite
    | with_reducible apply Keeps.forEach
    | with_reducible apply Keeps.foldl
    | split
    | extract_lets

theorem execOri_keeps {s0 s u : State} (t : TileId) (d : Fin 32) (a : Fin 32) (imm : BitVec 16) (hK : Keeps s0 s) (e : execOri t d a imm s = .next u) : Keeps s0 u := by
  unfold execOri at e
  refine guardRes_keeps ?_ e
  repeat' first
    | with_reducible assumption
    | intro _
    | with_reducible apply State.aluRun_keeps
    | with_reducible refine Keeps.fst ?_ (by assumption)
    | with_reducible apply Keeps.ite
    | with_reducible apply Keeps.forEach
    | with_reducible apply Keeps.foldl
    | split
    | extract_lets

theorem execXori_keeps {s0 s u : State} (t : TileId) (d : Fin 32) (a : Fin 32) (imm : BitVec 16) (hK : Keeps s0 s) (e : execXori t d a imm s = .next u) : Keeps s0 u := by
  unfold execXori at e
  refine guardRes_keeps ?_ e
  repeat' first
    | with_reducible assumption
    | intro _
    | with_reducible apply State.aluRun_keeps
    | with_reducible refine Keeps.fst ?_ (by assumption)
    | with_reducible apply Keeps.ite
    | with_reducible apply Keeps.forEach
    | with_reducible apply Keeps.foldl
    | split
    | extract_lets

theorem execSlti_keeps {s0 s u : State} (t : TileId) (d : Fin 32) (a : Fin 32) (imm : BitVec 16) (hK : Keeps s0 s) (e : execSlti t d a imm s = .next u) : Keeps s0 u := by
  unfold execSlti at e
  refine guardRes_keeps ?_ e
  repeat' first
    | with_reducible assumption
    | intro _
    | with_reducible apply State.aluRun_keeps
    | with_reducible refine Keeps.fst ?_ (by assumption)
    | with_reducible apply Keeps.ite
    | with_reducible apply Keeps.forEach
    | with_reducible apply Keeps.foldl
    | split
    | extract_lets

theorem execShiftImmediate_keeps {s0 s u : State} (t : TileId) (d : Fin 32) (a : Fin 32) (imm : BitVec 16) (hK : Keeps s0 s) (e : execShiftImmediate t d a imm s = .next u) : Keeps s0 u := by
  unfold execShiftImmediate at e
  refine guardRes_keeps ?_ e
  repeat' first
    | with_reducible assumption
    | intro _
    | with_reducible apply State.setGr_keeps
    | with_reducible apply State.retire_keeps
    | with_reducible apply State.coreRun_keeps
    | with_reducible refine Keeps.fst ?_ (by assumption)
    | with_reducible apply Keeps.ite
    | with_reducible apply Keeps.forEach
    | with_reducible apply Keeps.foldl
    | split
    | extract_lets

theorem execLui_keeps {s0 s u : State} (t : TileId) (d : Fin 32) (imm : BitVec 16) (hK : Keeps s0 s) (e : execLui t d imm s = .next u) : Keeps s0 u := by
  unfold execLui at e
  refine guardRes_keeps ?_ e
  repeat' first
    | with_reducible assumption
    | intro _
    | with_reducible apply State.aluRun_keeps
    | with_reducible refine Keeps.fst ?_ (by assumption)
    | with_reducible apply Keeps.ite
    | with_reducible apply Keeps.forEach
    | with_reducible apply Keeps.foldl
    | split
    | extract_lets

theorem execMul_keeps {s0 s u : State} (t : TileId) (d : Fin 32) (a : Fin 32) (b : Fin 32) (hK : Keeps s0 s) (e : execMul t d a b s = .next u) : Keeps s0 u := by
  unfold execMul at e
  refine guardRes_keeps ?_ e
  repeat' first
    | with_reducible assumption
    | intro _
    | with_reducible apply State.aluRun_keeps
    | with_reducible refine Keeps.fst ?_ (by assumption)
    | with_reducible apply Keeps.ite
    | with_reducible apply Keeps.forEach
    | with_reducible apply Keeps.foldl
    | split
    | extract_lets

theorem execMulh_keeps {s0 s u : State} (t : TileId) (d : Fin 32) (a : Fin 32) (b : Fin 32) (hK : Keeps s0 s) (e : execMulh t d a b s = .next u) : Keeps s0 u := by
  unfold execMulh at e
  refine guardRes_keeps ?_ e
  repeat' first
    | with_reducible assumption
    | intro _
    | with_reducible apply State.aluRun_keeps
    | with_reducible refine Keeps.fst ?_ (by assumption)
    | with_reducible apply Keeps.ite
    | with_reducible apply Keeps.forEach
    | with_reducible apply Keeps.foldl
    | split
    | extract_lets

theorem execMulhu_keeps {s0 s u : State} (t : TileId) (d : Fin 32) (a : Fin 32) (b : Fin 32) (hK : Keeps s0 s) (e : execMulhu t d a b s = .next u) : Keeps s0 u := by
  unfold execMulhu at e
  refine guardRes_keeps ?_ e
  repeat' first
    | with_reducible assumption
    | intro _
    | with_reducible apply State.aluRun_keeps
    | with_reducible refine Keeps.fst ?_ (by assumption)
    | with_reducible apply Keeps.ite
    | with_reducible apply Keeps.forEach
    | with_reducible apply Keeps.foldl
    | split
    | extract_lets

theorem execLb_keeps {s0 s u : State} (t : TileId) (d : Fin 32) (a : Fin 32) (imm : BitVec 16) (hK : Keeps s0 s) (e : execLb t d a imm s = .next u) : Keeps s0 u := by
  unfold execLb at e
  refine guardRes_keeps ?_ e
  repeat' first
    | with_reducible assumption
    | intro _
    | with_reducible apply State.loadRun_keeps
    | with_reducible refine Keeps.fst ?_ (by assumption)
    | with_reducible apply Keeps.ite
    | with_reducible apply Keeps.forEach
    | with_reducible apply Keeps.foldl
    | split
    | extract_lets

theorem execLbu_keeps {s0 s u : State} (t : TileId) (d : Fin 32) (a : Fin 32) (imm : BitVec 16) (hK : Keeps s0 s) (e : execLbu t d a imm s = .next u) : Keeps s0 u := by
  unfold execLbu at e
  refine guardRes_keeps ?_ e
  repeat' first
    | with_reducible assumption
    | intro _
    | with_reducible apply State.loadRun_keeps
    | with_reducible refine Keeps.fst ?_ (by assumption)
    | with_reducible apply Keeps.ite
    | with_reducible apply Keeps.forEach
    | with_reducible apply Keeps.foldl
    | split
    | extract_lets

theorem execLh_keeps {s0 s u : State} (t : TileId) (d : Fin 32) (a : Fin 32) (imm : BitVec 16) (hK : Keeps s0 s) (e : execLh t d a imm s = .next u) : Keeps s0 u := by
  unfold execLh at e
  refine guardRes_keeps ?_ e
  repeat' first
    | with_reducible assumption
    | intro _
    | with_reducible apply State.loadRun_keeps
    | with_reducible refine Keeps.fst ?_ (by assumption)
    | with_reducible apply Keeps.ite
    | with_reducible apply Keeps.forEach
    | with_reducible apply Keeps.foldl
    | split
    | extract_lets

theorem execLhu_keeps {s0 s u : State} (t : TileId) (d : Fin 32) (a : Fin 32) (imm : BitVec 16) (hK : Keeps s0 s) (e : execLhu t d a imm s = .next u) : Keeps s0 u := by
  unfold execLhu at e
  refine guardRes_keeps ?_ e
  repeat' first
    | with_reducible assumption
    | intro _
    | with_reducible apply State.loadRun_keeps
    | with_reducible refine Keeps.fst ?_ (by assumption)
    | with_reducible apply Keeps.ite
    | with_reducible apply Keeps.forEach
    | with_reducible apply Keeps.foldl
    | split
    | extract_lets

theorem execLw_keeps {s0 s u : State} (t : TileId) (d : Fin 32) (a : Fin 32) (imm : BitVec 16) (hK : Keeps s0 s) (e : execLw t d a imm s = .next u) : Keeps s0 u := by
  unfold execLw at e
  refine guardRes_keeps ?_ e
  repeat' first
    | with_reducible assumption
    | intro _
    | with_reducible apply State.loadRun_keeps
    | with_reducible refine Keeps.fst ?_ (by assumption)
    | with_reducible apply Keeps.ite
    | with_reducible apply Keeps.forEach
    | with_reducible apply Keeps.foldl
    | split
    | extract_lets

theorem execSb_keeps {s0 s u : State} (t : TileId) (d : Fin 32) (a : Fin 32) (imm : BitVec 16) (hK : Keeps s0 s) (e : execSb t d a imm s = .next u) : Keeps s0 u := by
  unfold execSb at e
  refine guardRes_keeps ?_ e
  repeat' first
    | with_reducible assumption
    | intro _
    | with_reducible apply State.storeRun_keeps
    | with_reducible refine Keeps.fst ?_ (by assumption)
    | with_reducible apply Keeps.ite
    | with_reducible apply Keeps.forEach
    | with_reducible apply Keeps.foldl
    | split
    | extract_lets

theorem execSh_keeps {s0 s u : State} (t : TileId) (d : Fin 32) (a : Fin 32) (imm : BitVec 16) (hK : Keeps s0 s) (e : execSh t d a imm s = .next u) : Keeps s0 u := by
  unfold execSh at e
  refine guardRes_keeps ?_ e
  repeat' first
    | with_reducible assumption
    | intro _
    | with_reducible apply State.storeRun_keeps
    | with_reducible refine Keeps.fst ?_ (by assumption)
    | with_reducible apply Keeps.ite
    | with_reducible apply Keeps.forEach
    | with_reducible apply Keeps.foldl
    | split
    | extract_lets

theorem execSw_keeps {s0 s u : State} (t : TileId) (d : Fin 32) (a : Fin 32) (imm : BitVec 16) (hK : Keeps s0 s) (e : execSw t d a imm s = .next u) : Keeps s0 u := by
  unfold execSw at e
  refine guardRes_keeps ?_ e
  repeat' first
    | with_reducible assumption
    | intro _
    | with_reducible apply State.storeRun_keeps
    | with_reducible refine Keeps.fst ?_ (by assumption)
    | with_reducible apply Keeps.ite
    | with_reducible apply Keeps.forEach
    | with_reducible apply Keeps.foldl
    | split
    | extract_lets

theorem execBeq_keeps {s0 s u : State} (t : TileId) (a : Fin 32) (b : Fin 32) (off : BitVec 16) (hK : Keeps s0 s) (e : execBeq t a b off s = .next u) : Keeps s0 u := by
  unfold execBeq at e
  refine guardRes_keeps ?_ e
  repeat' first
    | with_reducible assumption
    | intro _
    | with_reducible apply State.branchRun_keeps
    | with_reducible refine Keeps.fst ?_ (by assumption)
    | with_reducible apply Keeps.ite
    | with_reducible apply Keeps.forEach
    | with_reducible apply Keeps.foldl
    | split
    | extract_lets

theorem execBne_keeps {s0 s u : State} (t : TileId) (a : Fin 32) (b : Fin 32) (off : BitVec 16) (hK : Keeps s0 s) (e : execBne t a b off s = .next u) : Keeps s0 u := by
  unfold execBne at e
  refine guardRes_keeps ?_ e
  repeat' first
    | with_reducible assumption
    | intro _
    | with_reducible apply State.branchRun_keeps
    | with_reducible refine Keeps.fst ?_ (by assumption)
    | with_reducible apply Keeps.ite
    | with_reducible apply Keeps.forEach
    | with_reducible apply Keeps.foldl
    | split
    | extract_lets

theorem execBlt_keeps {s0 s u : State} (t : TileId) (a : Fin 32) (b : Fin 32) (off : BitVec 16) (hK : Keeps s0 s) (e : execBlt t a b off s = .next u) : Keeps s0 u := by
  unfold execBlt at e
  refine guardRes_keeps ?_ e
  repeat' first
    | with_reducible assumption
    | intro _
    | with_reducible apply State.branchRun_keeps
    | with_reducible refine Keeps.fst ?_ (by assumption)
    | with_reducible apply Keeps.ite
    | with_reducible apply Keeps.forEach
    | with_reducible apply Keeps.foldl
    | split
    | extract_lets

theorem execBge_keeps {s0 s u : State} (t : TileId) (a : Fin 32) (b : Fin 32) (off : BitVec 16) (hK : Keeps s0 s) (e : execBge t a b off s = .next u) : Keeps s0 u := by
  unfold execBge at e
  refine guardRes_keeps ?_ e
  repeat' first
    | with_reducible assumption
    | intro _
    | with_reducible apply State.branchRun_keeps
    | with_reducible refine Keeps.fst ?_ (by assumption)
    | with_reducible apply Keeps.ite
    | with_reducible apply Keeps.forEach
    | with_reducible apply Keeps.foldl
    | split
    | extract_lets

theorem execBltu_keeps {s0 s u : State} (t : TileId) (a : Fin 32) (b : Fin 32) (off : BitVec 16) (hK : Keeps s0 s) (e : execBltu t a b off s = .next u) : Keeps s0 u := by
  unfold execBltu at e
  refine guardRes_keeps ?_ e
  repeat' first
    | with_reducible assumption
    | intro _
    | with_reducible apply State.branchRun_keeps
    | with_reducible refine Keeps.fst ?_ (by assumption)
    | with_reducible apply Keeps.ite
    | with_reducible apply Keeps.forEach
    | with_reducible apply Keeps.foldl
    | split
    | extract_lets

theorem execBgeu_keeps {s0 s u : State} (t : TileId) (a : Fin 32) (b : Fin 32) (off : BitVec 16) (hK : Keeps s0 s) (e : execBgeu t a b off s = .next u) : Keeps s0 u := by
  unfold execBgeu at e
  refine guardRes_keeps ?_ e
  repeat' first
    | with_reducible assumption
    | intro _
    | with_reducible apply State.branchRun_keeps
    | with_reducible refine Keeps.fst ?_ (by assumption)
    | with_reducible apply Keeps.ite
    | with_reducible apply Keeps.forEach
    | with_reducible apply Keeps.foldl
    | split
    | extract_lets

theorem execJ_keeps {s0 s u : State} (t : TileId) (off : BitVec 26) (hK : Keeps s0 s) (e : execJ t off s = .next u) : Keeps s0 u := by
  unfold execJ at e
  refine guardRes_keeps ?_ e
  repeat' first
    | with_reducible assumption
    | intro _
    | with_reducible apply State.coreRun_keeps
    | with_reducible apply State.jumpTo_keeps
    | with_reducible refine Keeps.fst ?_ (by assumption)
    | with_reducible apply Keeps.ite
    | with_reducible apply Keeps.forEach
    | with_reducible apply Keeps.foldl
    | split
    | extract_lets

theorem execJal_keeps {s0 s u : State} (t : TileId) (off : BitVec 26) (hK : Keeps s0 s) (e : execJal t off s = .next u) : Keeps s0 u := by
  unfold execJal at e
  refine guardRes_keeps ?_ e
  repeat' first
    | with_reducible assumption
    | intro _
    | with_reducible apply State.setGr_keeps
    | with_reducible apply State.coreRun_keeps
    | with_reducible apply State.jumpTo_keeps
    | with_reducible refine Keeps.fst ?_ (by assumption)
    | with_reducible apply Keeps.ite
    | with_reducible apply Keeps.forEach
    | with_reducible apply Keeps.foldl
    | split
    | extract_lets

theorem execJr_keeps {s0 s u : State} (t : TileId) (a : Fin 32) (hK : Keeps s0 s) (e : execJr t a s = .next u) : Keeps s0 u := by
  unfold execJr at e
  refine guardRes_keeps ?_ e
  repeat' first
    | with_reducible assumption
    | intro _
    | with_reducible apply State.coreRun_keeps
    | with_reducible apply State.jumpTo_keeps
    | with_reducible refine Keeps.fst ?_ (by assumption)
    | with_reducible apply Keeps.ite
    | with_reducible apply Keeps.forEach
    | with_reducible apply Keeps.foldl
    | split
    | extract_lets

theorem execJalr_keeps {s0 s u : State} (t : TileId) (d : Fin 32) (a : Fin 32) (hK : Keeps s0 s) (e : execJalr t d a s = .next u) : Keeps s0 u := by
  unfold execJalr at e
  refine guardRes_keeps ?_ e
  repeat' first
    | with_reducible assumption
    | intro _
    | with_reducible apply State.setGr_keeps
    | with_reducible apply State.coreRun_keeps
    | with_reducible apply State.jumpTo_keeps
    | with_reducible refine Keeps.fst ?_ (by assumption)
    | with_reducible apply Keeps.ite
    | with_reducible apply Keeps.forEach
    | with_reducible apply Keeps.foldl
    | split
    | extract_lets

end Sys2Proof.Machine
end

