-- ==== Sys2Proof/Laws/KeepsCoreEngine.lean ====
section
/-!
SUPPORT. Every operation of Machine/CoreEngine.lean keeps what `Keeps` says.
-/

namespace Sys2Proof.Machine

theorem State.traceSubmit_keeps {s0 s : State} (t : TileId) (opc : Nat) (unit : Nat) (hK : Keeps s0 s) : Keeps s0 (State.traceSubmit s t opc unit) := by
  unfold State.traceSubmit
  repeat' first
    | with_reducible assumption
    | intro _
    | with_reducible apply State.trace_keeps
    | with_reducible refine Keeps.fst ?_ (by assumption)
    | with_reducible apply Keeps.ite
    | with_reducible apply Keeps.forEach
    | with_reducible apply Keeps.foldl
    | split
    | extract_lets

theorem State.engineRead_keeps {s0 s u : State} {x : List Byte} (t : TileId) (a : Nat) (n : Nat) (hK : Keeps s0 s) (e : State.engineRead s t a n = some (u, x)) : Keeps s0 u := by
  unfold State.engineRead at e
  split at e
  · cases e; exact hK
  · cases e; exact State.spGet_keeps _ _ _ _ _ hK
  · cases e

theorem State.tensorRefuse_keeps {s0 s : State} (t : TileId) (b : List Byte) (hK : Keeps s0 s) : Keeps s0 (State.tensorRefuse s t b) := by
  unfold State.tensorRefuse
  repeat' first
    | with_reducible assumption
    | intro _
    | with_reducible apply State.memFault_keeps
    | with_reducible refine Keeps.fst ?_ (by assumption)
    | with_reducible apply Keeps.ite
    | with_reducible apply Keeps.forEach
    | with_reducible apply Keeps.foldl
    | split
    | extract_lets

theorem execTsub_keeps {s0 s u : State} (t : TileId) (a : Fin 32) (hK : Keeps s0 s) (e : execTsub t a s = .next u) : Keeps s0 u := by
  unfold execTsub at e
  refine guardRes_keeps ?_ e
  repeat' first
    | with_reducible assumption
    | intro _
    | with_reducible apply Keeps.modTile
    | with_reducible apply Keeps.modTv
    | with_reducible apply State.retire_keeps
    | with_reducible apply State.coreRun_keeps
    | with_reducible apply State.traceSubmit_keeps
    | with_reducible apply State.engineRead_keeps (e := by assumption)
    | with_reducible apply State.tensorRefuse_keeps
    | with_reducible refine Keeps.fst ?_ (by assumption)
    | with_reducible apply Keeps.ite
    | with_reducible apply Keeps.forEach
    | with_reducible apply Keeps.foldl
    | split
    | extract_lets

theorem State.vectorDone_keeps {s0 s : State} (t : TileId) (opc : Nat) (hK : Keeps s0 s) : Keeps s0 (State.vectorDone s t opc) := by
  unfold State.vectorDone
  repeat' first
    | with_reducible assumption
    | intro _
    | with_reducible apply Keeps.modCc
    | with_reducible apply State.traceSubmit_keeps
    | with_reducible refine Keeps.fst ?_ (by assumption)
    | with_reducible apply Keeps.ite
    | with_reducible apply Keeps.forEach
    | with_reducible apply Keeps.foldl
    | split
    | extract_lets

theorem execVld_keeps {s0 s u : State} (t : TileId) (d : Fin 32) (a : Fin 32) (hK : Keeps s0 s) (e : execVld t d a s = .next u) : Keeps s0 u := by
  unfold execVld at e
  refine guardRes_keeps ?_ e
  repeat' first
    | with_reducible assumption
    | intro _
    | with_reducible apply Keeps.modVu
    | with_reducible apply State.spGet_keeps
    | with_reducible apply State.retire_keeps
    | with_reducible apply State.coreRun_keeps
    | with_reducible apply State.vectorDone_keeps
    | with_reducible refine Keeps.fst ?_ (by assumption)
    | with_reducible apply Keeps.ite
    | with_reducible apply Keeps.forEach
    | with_reducible apply Keeps.foldl
    | split
    | extract_lets

theorem execVst_keeps {s0 s u : State} (t : TileId) (d : Fin 32) (a : Fin 32) (hK : Keeps s0 s) (e : execVst t d a s = .next u) : Keeps s0 u := by
  unfold execVst at e
  refine guardRes_keeps ?_ e
  repeat' first
    | with_reducible assumption
    | intro _
    | with_reducible apply State.spStoreWords_keeps
    | with_reducible apply State.retire_keeps
    | with_reducible apply State.coreRun_keeps
    | with_reducible apply State.vectorDone_keeps
    | with_reducible refine Keeps.fst ?_ (by assumption)
    | with_reducible apply Keeps.ite
    | with_reducible apply Keeps.forEach
    | with_reducible apply Keeps.foldl
    | split
    | extract_lets

theorem execVtst_keeps {s0 s u : State} (t : TileId) (d : Fin 32) (a : Fin 32) (b : Fin 32) (hK : Keeps s0 s) (e : execVtst t d a b s = .next u) : Keeps s0 u := by
  unfold execVtst at e
  refine guardRes_keeps ?_ e
  repeat' first
    | with_reducible assumption
    | intro _
    | with_reducible apply Keeps.useFree
    | with_reducible apply State.transposedWrite_keeps
    | with_reducible apply State.retire_keeps
    | with_reducible apply State.coreRun_keeps
    | with_reducible apply State.vectorDone_keeps
    | with_reducible refine Keeps.fst ?_ (by assumption)
    | with_reducible apply Keeps.ite
    | with_reducible apply Keeps.forEach
    | with_reducible apply Keeps.foldl
    | split
    | extract_lets

theorem State.sendOut_keeps {s0 s : State} (t : TileId) (vn : Nat) (w : Nat) (m : Message) (hK : Keeps s0 s) : Keeps s0 (State.sendOut s t vn w m).1 := by
  refine KeepsP.keeps ?_
  unfold State.sendOut
  repeat' first
    | with_reducible assumption
    | intro _
    | with_reducible apply KeepsP.ite
    | with_reducible apply State.inject_keeps
    | with_reducible apply State.countRefusal_keeps
    | with_reducible apply State.sendTx_keeps
    | with_reducible refine Keeps.fst ?_ (by assumption)
    | with_reducible apply Keeps.ite
    | with_reducible apply Keeps.forEach
    | with_reducible apply Keeps.foldl
    | split
    | extract_lets
    | with_reducible apply KeepsP.pair

theorem State.sendRefused_keeps {s0 s : State} (t : TileId) (w : Nat) (pc : Nat) (c : Option Nat) (hK : Keeps s0 s) : Keeps s0 (State.sendRefused s t w pc c) := by
  unfold State.sendRefused
  repeat' first
    | with_reducible assumption
    | intro _
    | with_reducible apply State.raiseFault_keeps
    | with_reducible refine Keeps.fst ?_ (by assumption)
    | with_reducible apply Keeps.ite
    | with_reducible apply Keeps.forEach
    | with_reducible apply Keeps.foldl
    | split
    | extract_lets

theorem execSend_keeps {s0 s u : State} (t : TileId) (a : Fin 32) (b : Fin 32) (hK : Keeps s0 s) (e : execSend t a b s = .next u) : Keeps s0 u := by
  unfold execSend at e
  refine guardRes_keeps ?_ e
  repeat' first
    | with_reducible assumption
    | intro _
    | with_reducible apply Keeps.modCc
    | with_reducible apply State.trace_keeps
    | with_reducible apply State.retire_keeps
    | with_reducible apply State.coreRun_keeps
    | with_reducible apply State.sendOut_keeps
    | with_reducible apply State.sendRefused_keeps
    | with_reducible refine Keeps.fst ?_ (by assumption)
    | with_reducible apply Keeps.ite
    | with_reducible apply Keeps.forEach
    | with_reducible apply Keeps.foldl
    | split
    | extract_lets

theorem execRecv_keeps {s0 s u : State} (t : TileId) (d : Fin 32) (a : Fin 32) (hK : Keeps s0 s) (e : execRecv t d a s = .next u) : Keeps s0 u := by
  unfold execRecv at e
  refine guardRes_keeps ?_ e
  repeat' first
    | with_reducible assumption
    | intro _
    | with_reducible apply Keeps.modCc
    | with_reducible apply State.setGr_keeps
    | with_reducible apply State.retire_keeps
    | with_reducible apply State.coreRun_keeps
    | with_reducible apply State.misaligned_keeps
    | with_reducible refine Keeps.fst ?_ (by assumption)
    | with_reducible apply Keeps.ite
    | with_reducible apply Keeps.forEach
    | with_reducible apply Keeps.foldl
    | split
    | extract_lets

theorem State.queueMessage_keeps {s0 s : State} (t : TileId) (msg : List Byte) (srcX : Nat) (srcY : Nat) (hK : Keeps s0 s) : Keeps s0 (State.queueMessage s t msg srcX srcY) := by
  unfold State.queueMessage
  repeat' first
    | with_reducible assumption
    | intro _
    | with_reducible apply Keeps.modCc
    | with_reducible apply State.trace_keeps
    | with_reducible apply State.takeRx_keeps
    | with_reducible apply State.inTurn_keeps
    | with_reducible apply State.ackTaken_keeps
    | with_reducible refine Keeps.fst ?_ (by assumption)
    | with_reducible apply Keeps.ite
    | with_reducible apply Keeps.forEach
    | with_reducible apply Keeps.foldl
    | split
    | extract_lets

theorem execMessageQueueTimeout_keeps {s0 s u : State} (t : TileId) (hK : Keeps s0 s) (e : execMessageQueueTimeout t s = .next u) : Keeps s0 u := by
  unfold execMessageQueueTimeout at e
  refine guardRes_keeps ?_ e
  repeat' first
    | with_reducible assumption
    | intro _
    | with_reducible apply State.refuse_keeps
    | with_reducible apply State.takeRx_keeps
    | with_reducible refine Keeps.fst ?_ (by assumption)
    | with_reducible apply Keeps.ite
    | with_reducible apply Keeps.forEach
    | with_reducible apply Keeps.foldl
    | split
    | extract_lets

theorem State.remoteRun_keeps {s0 s : State} (t : TileId) (b : Fin 32) (fn : Nat) (odd : Bool) (m : State → Dest → Message) (isRead : Bool) (wait : Nat → CoreWait) (hK : Keeps s0 s) : Keeps s0 (State.remoteRun s t b fn odd m isRead wait) := by
  unfold State.remoteRun
  repeat' first
    | with_reducible assumption
    | intro _
    | with_reducible apply Keeps.modCc
    | with_reducible apply State.sendTx_keeps
    | with_reducible apply State.coreRun_keeps
    | with_reducible refine Keeps.fst ?_ (by assumption)
    | with_reducible apply Keeps.ite
    | with_reducible apply Keeps.forEach
    | with_reducible apply Keeps.foldl
    | split
    | extract_lets

theorem execRld_keeps {s0 s u : State} (t : TileId) (d : Fin 32) (b : Fin 32) (hK : Keeps s0 s) (e : execRld t d b s = .next u) : Keeps s0 u := by
  unfold execRld at e
  refine guardRes_keeps ?_ e
  repeat' first
    | with_reducible assumption
    | intro _
    | with_reducible apply State.remoteRun_keeps
    | with_reducible refine Keeps.fst ?_ (by assumption)
    | with_reducible apply Keeps.ite
    | with_reducible apply Keeps.forEach
    | with_reducible apply Keeps.foldl
    | split
    | extract_lets

theorem execRst_keeps {s0 s u : State} (t : TileId) (d : Fin 32) (b : Fin 32) (hK : Keeps s0 s) (e : execRst t d b s = .next u) : Keeps s0 u := by
  unfold execRst at e
  refine guardRes_keeps ?_ e
  repeat' first
    | with_reducible assumption
    | intro _
    | with_reducible apply State.remoteRun_keeps
    | with_reducible refine Keeps.fst ?_ (by assumption)
    | with_reducible apply Keeps.ite
    | with_reducible apply Keeps.forEach
    | with_reducible apply Keeps.foldl
    | split
    | extract_lets

theorem execRamoFetchAndAdd_keeps {s0 s u : State} (t : TileId) (d : Fin 32) (a : Fin 32) (b : Fin 32) (hK : Keeps s0 s) (e : execRamoFetchAndAdd t d a b s = .next u) : Keeps s0 u := by
  unfold execRamoFetchAndAdd at e
  refine guardRes_keeps ?_ e
  repeat' first
    | with_reducible assumption
    | intro _
    | with_reducible apply State.remoteRun_keeps
    | with_reducible refine Keeps.fst ?_ (by assumption)
    | with_reducible apply Keeps.ite
    | with_reducible apply Keeps.forEach
    | with_reducible apply Keeps.foldl
    | split
    | extract_lets

theorem execRamoCompareAndSwap32_keeps {s0 s u : State} (t : TileId) (d : Fin 32) (a : Fin 32) (b : Fin 32) (hK : Keeps s0 s) (e : execRamoCompareAndSwap32 t d a b s = .next u) : Keeps s0 u := by
  unfold execRamoCompareAndSwap32 at e
  refine guardRes_keeps ?_ e
  repeat' first
    | with_reducible assumption
    | intro _
    | with_reducible apply State.remoteRun_keeps
    | with_reducible refine Keeps.fst ?_ (by assumption)
    | with_reducible apply Keeps.ite
    | with_reducible apply Keeps.forEach
    | with_reducible apply Keeps.foldl
    | split
    | extract_lets

theorem execRamoCompareAndSwap64_keeps {s0 s u : State} (t : TileId) (d : Fin 32) (a : Fin 32) (b : Fin 32) (hK : Keeps s0 s) (e : execRamoCompareAndSwap64 t d a b s = .next u) : Keeps s0 u := by
  unfold execRamoCompareAndSwap64 at e
  refine guardRes_keeps ?_ e
  repeat' first
    | with_reducible assumption
    | intro _
    | with_reducible apply State.remoteRun_keeps
    | with_reducible refine Keeps.fst ?_ (by assumption)
    | with_reducible apply Keeps.ite
    | with_reducible apply Keeps.forEach
    | with_reducible apply Keeps.foldl
    | split
    | extract_lets

theorem execWait_keeps {s0 s u : State} (t : TileId) (d : Fin 32) (a : Fin 32) (hK : Keeps s0 s) (e : execWait t d a s = .next u) : Keeps s0 u := by
  unfold execWait at e
  refine guardRes_keeps ?_ e
  repeat' first
    | with_reducible assumption
    | intro _
    | with_reducible apply Keeps.modCc
    | with_reducible apply State.setGr_keeps
    | with_reducible apply State.retire_keeps
    | with_reducible apply State.coreStep_keeps
    | with_reducible refine Keeps.fst ?_ (by assumption)
    | with_reducible apply Keeps.ite
    | with_reducible apply Keeps.forEach
    | with_reducible apply Keeps.foldl
    | split
    | extract_lets

theorem execFence_keeps {s0 s u : State} (t : TileId) (hK : Keeps s0 s) (e : execFence t s = .next u) : Keeps s0 u := by
  unfold execFence at e
  refine guardRes_keeps ?_ e
  repeat' first
    | with_reducible assumption
    | intro _
    | with_reducible apply State.retire_keeps
    | with_reducible apply State.coreRun_keeps
    | with_reducible refine Keeps.fst ?_ (by assumption)
    | with_reducible apply Keeps.ite
    | with_reducible apply Keeps.forEach
    | with_reducible apply Keeps.foldl
    | split
    | extract_lets

theorem execNop_keeps {s0 s u : State} (t : TileId) (hK : Keeps s0 s) (e : execNop t s = .next u) : Keeps s0 u := by
  unfold execNop at e
  refine guardRes_keeps ?_ e
  repeat' first
    | with_reducible assumption
    | intro _
    | with_reducible apply State.retire_keeps
    | with_reducible apply State.coreRun_keeps
    | with_reducible refine Keeps.fst ?_ (by assumption)
    | with_reducible apply Keeps.ite
    | with_reducible apply Keeps.forEach
    | with_reducible apply Keeps.foldl
    | split
    | extract_lets

theorem execHalt_keeps {s0 s u : State} (t : TileId) (hK : Keeps s0 s) (e : execHalt t s = .next u) : Keeps s0 u := by
  unfold execHalt at e
  refine guardRes_keeps ?_ e
  repeat' first
    | with_reducible assumption
    | intro _
    | with_reducible apply Keeps.modCc
    | with_reducible apply State.coreRun_keeps
    | with_reducible refine Keeps.fst ?_ (by assumption)
    | with_reducible apply Keeps.ite
    | with_reducible apply Keeps.forEach
    | with_reducible apply Keeps.foldl
    | split
    | extract_lets

theorem execTrap_keeps {s0 s u : State} (t : TileId) (hK : Keeps s0 s) (e : execTrap t s = .next u) : Keeps s0 u := by
  unfold execTrap at e
  refine guardRes_keeps ?_ e
  repeat' first
    | with_reducible assumption
    | intro _
    | with_reducible apply State.coreRun_keeps
    | with_reducible refine Keeps.fst ?_ (by assumption)
    | with_reducible apply Keeps.ite
    | with_reducible apply Keeps.forEach
    | with_reducible apply Keeps.foldl
    | split
    | extract_lets

theorem execBrk_keeps {s0 s u : State} (t : TileId) (hK : Keeps s0 s) (e : execBrk t s = .next u) : Keeps s0 u := by
  unfold execBrk at e
  refine guardRes_keeps ?_ e
  repeat' first
    | with_reducible assumption
    | intro _
    | with_reducible apply State.haltCore_keeps
    | with_reducible apply State.retire_keeps
    | with_reducible apply State.coreRun_keeps
    | with_reducible refine Keeps.fst ?_ (by assumption)
    | with_reducible apply Keeps.ite
    | with_reducible apply Keeps.forEach
    | with_reducible apply Keeps.foldl
    | split
    | extract_lets

theorem execIllegalInstruction_keeps {s0 s u : State} (t : TileId) (fn : Nat) (hK : Keeps s0 s) (e : execIllegalInstruction t fn s = .next u) : Keeps s0 u := by
  unfold execIllegalInstruction at e
  refine guardRes_keeps ?_ e
  repeat' first
    | with_reducible assumption
    | intro _
    | with_reducible apply State.coreRun_keeps
    | with_reducible refine Keeps.fst ?_ (by assumption)
    | with_reducible apply Keeps.ite
    | with_reducible apply Keeps.forEach
    | with_reducible apply Keeps.foldl
    | split
    | extract_lets

theorem execWatchdogExpiry_keeps {s0 s u : State} (t : TileId) (hK : Keeps s0 s) (e : execWatchdogExpiry t s = .next u) : Keeps s0 u := by
  unfold execWatchdogExpiry at e
  refine guardRes_keeps ?_ e
  repeat' first
    | with_reducible assumption
    | intro _
    | with_reducible apply State.stopCore_keeps
    | with_reducible apply State.raiseFault_keeps
    | with_reducible refine Keeps.fst ?_ (by assumption)
    | with_reducible apply Keeps.ite
    | with_reducible apply Keeps.forEach
    | with_reducible apply Keeps.foldl
    | split
    | extract_lets

theorem execWdogWrite_keeps {s0 s u : State} (t : TileId) (value : Word) (hK : Keeps s0 s) (e : execWdogWrite t value s = .next u) : Keeps s0 u := by
  unfold execWdogWrite at e
  refine guardRes_keeps ?_ e
  repeat' first
    | with_reducible assumption
    | intro _
    | with_reducible apply Keeps.modCc
    | with_reducible refine Keeps.fst ?_ (by assumption)
    | with_reducible apply Keeps.ite
    | with_reducible apply Keeps.forEach
    | with_reducible apply Keeps.foldl
    | split
    | extract_lets

theorem execTimerExpiry_keeps {s0 s u : State} (t : TileId) (hK : Keeps s0 s) (e : execTimerExpiry t s = .next u) : Keeps s0 u := by
  unfold execTimerExpiry at e
  refine guardRes_keeps ?_ e
  repeat' first
    | with_reducible assumption
    | intro _
    | with_reducible apply Keeps.modCc
    | with_reducible refine Keeps.fst ?_ (by assumption)
    | with_reducible apply Keeps.ite
    | with_reducible apply Keeps.forEach
    | with_reducible apply Keeps.foldl
    | split
    | extract_lets

end Sys2Proof.Machine
end

