-- ==== Sys2Proof/Laws/KeepsReceipts.lean ====
section
/-!
SUPPORT. Every operation of Machine/Receipts.lean keeps what `Keeps` says.
-/

namespace Sys2Proof.Machine

theorem State.dropTx_keeps {s0 s : State} (t : TileId) (id : Nat) (hK : Keeps s0 s) : Keeps s0 (State.dropTx s t id) := by
  unfold State.dropTx
  repeat' first
    | with_reducible assumption
    | intro _
    | with_reducible apply Keeps.modTile
    | with_reducible refine Keeps.fst ?_ (by assumption)
    | with_reducible apply Keeps.ite
    | with_reducible apply Keeps.forEach
    | with_reducible apply Keeps.foldl
    | split
    | extract_lets

theorem State.remoteDone_keeps {s0 s : State} (t : TileId) (payload : List Byte) (hK : Keeps s0 s) : Keeps s0 (State.remoteDone s t payload) := by
  unfold State.remoteDone
  repeat' first
    | with_reducible assumption
    | intro _
    | with_reducible apply State.setGr_keeps
    | with_reducible apply State.setGrPair_keeps
    | with_reducible apply State.retire_keeps
    | with_reducible refine Keeps.fst ?_ (by assumption)
    | with_reducible apply Keeps.ite
    | with_reducible apply Keeps.forEach
    | with_reducible apply Keeps.foldl
    | split
    | extract_lets

theorem execReadDataReceipt_keeps {s0 s u : State} (t : TileId) (f : Flit) (hK : Keeps s0 s) (e : execReadDataReceipt t f s = .next u) : Keeps s0 u := by
  unfold execReadDataReceipt at e
  refine guardRes_keeps ?_ e
  repeat' first
    | with_reducible assumption
    | intro _
    | with_reducible apply Keeps.modTile
    | with_reducible apply State.refuse_keeps
    | with_reducible apply State.takeRx_keeps
    | with_reducible apply State.inTurn_keeps
    | with_reducible apply State.mvData_keeps
    | with_reducible apply State.dropTx_keeps
    | with_reducible apply State.remoteDone_keeps
    | with_reducible refine Keeps.fst ?_ (by assumption)
    | with_reducible apply Keeps.ite
    | with_reducible apply Keeps.forEach
    | with_reducible apply Keeps.foldl
    | split
    | extract_lets

theorem execAcknowledgementReceipt_keeps {s0 s u : State} (t : TileId) (f : Flit) (hK : Keeps s0 s) (e : execAcknowledgementReceipt t f s = .next u) : Keeps s0 u := by
  unfold execAcknowledgementReceipt at e
  refine guardRes_keeps ?_ e
  repeat' first
    | with_reducible assumption
    | intro _
    | with_reducible apply State.refuse_keeps
    | with_reducible apply State.takeRx_keeps
    | with_reducible apply State.inTurn_keeps
    | with_reducible apply State.mvAcked_keeps
    | with_reducible apply State.dropTx_keeps
    | with_reducible apply State.remoteDone_keeps
    | with_reducible refine Keeps.fst ?_ (by assumption)
    | with_reducible apply Keeps.ite
    | with_reducible apply Keeps.forEach
    | with_reducible apply Keeps.foldl
    | split
    | extract_lets

theorem State.txFailed_keeps {s0 s : State} (t : TileId) (x : Tx) (status : Nat) (record : Bool) (hK : Keeps s0 s) : Keeps s0 (State.txFailed s t x status record) := by
  unfold State.txFailed
  repeat' first
    | with_reducible assumption
    | intro _
    | with_reducible apply State.raiseFault_keeps
    | with_reducible apply State.coreFault_keeps
    | with_reducible apply State.mvFailed_keeps
    | with_reducible apply State.dropTx_keeps
    | with_reducible refine Keeps.fst ?_ (by assumption)
    | with_reducible apply Keeps.ite
    | with_reducible apply Keeps.forEach
    | with_reducible apply Keeps.foldl
    | split
    | extract_lets

theorem State.readRefused_keeps {s0 s : State} (t : TileId) (status : Nat) (dest : Nat) (e : Nat × Nat × Bool) (hK : Keeps s0 s) : Keeps s0 (State.readRefused s t status dest e) := by
  unfold State.readRefused
  repeat' first
    | with_reducible assumption
    | intro _
    | with_reducible apply Keeps.modTile
    | with_reducible apply Keeps.modRouter
    | with_reducible apply State.raiseFault_keeps
    | with_reducible apply State.countRefusal_keeps
    | with_reducible refine Keeps.fst ?_ (by assumption)
    | with_reducible apply Keeps.ite
    | with_reducible apply Keeps.forEach
    | with_reducible apply Keeps.foldl
    | split
    | extract_lets

theorem State.refusedPlain_keeps {s0 s : State} (t : TileId) (status : Nat) (dest : Nat) (hK : Keeps s0 s) : Keeps s0 (State.refusedPlain s t status dest) := by
  unfold State.refusedPlain
  repeat' first
    | with_reducible assumption
    | intro _
    | with_reducible apply State.faultLost_keeps
    | with_reducible apply State.raiseFault_keeps
    | with_reducible apply State.readRefused_keeps
    | with_reducible refine Keeps.fst ?_ (by assumption)
    | with_reducible apply Keeps.ite
    | with_reducible apply Keeps.forEach
    | with_reducible apply Keeps.foldl
    | split
    | extract_lets

theorem execRefusalReceipt_keeps {s0 s u : State} (t : TileId) (f : Flit) (hK : Keeps s0 s) (e : execRefusalReceipt t f s = .next u) : Keeps s0 u := by
  unfold execRefusalReceipt at e
  refine guardRes_keeps ?_ e
  repeat' first
    | with_reducible assumption
    | intro _
    | with_reducible apply State.refuse_keeps
    | with_reducible apply State.takeRx_keeps
    | with_reducible apply State.inTurn_keeps
    | with_reducible apply State.txFailed_keeps
    | with_reducible apply State.refusedPlain_keeps
    | with_reducible refine Keeps.fst ?_ (by assumption)
    | with_reducible apply Keeps.ite
    | with_reducible apply Keeps.forEach
    | with_reducible apply Keeps.foldl
    | split
    | extract_lets

theorem execResponseTimeout_keeps {s0 s u : State} (t : TileId) (id : Nat) (hK : Keeps s0 s) (e : execResponseTimeout t id s = .next u) : Keeps s0 u := by
  unfold execResponseTimeout at e
  refine guardRes_keeps ?_ e
  repeat' first
    | with_reducible assumption
    | intro _
    | with_reducible apply State.txFailed_keeps
    | with_reducible refine Keeps.fst ?_ (by assumption)
    | with_reducible apply Keeps.ite
    | with_reducible apply Keeps.forEach
    | with_reducible apply Keeps.foldl
    | split
    | extract_lets

end Sys2Proof.Machine
end

