-- ==== Sys2Proof/Laws/KeepsVector.lean ====
section
/-!
SUPPORT. Every operation of Machine/Vector.lean keeps what `Keeps` says.
-/

namespace Sys2Proof.Machine

theorem State.vecArg_keeps {s0 s u : State} {l : List Word} {t : TileId} {src : VSrc} {r size n : Nat}
    (h : Keeps s0 s) (e : s.vecArg t src r size n = .got u l) : Keeps s0 u := by
  unfold State.vecArg at e
  split at e
  · cases e; exact h.useFree _
  · split at e <;> cases e; exact State.spGet_keeps _ _ _ _ _ h
  · extract_lets k q at e
    split at e <;> cases e; exact h.modVu _ _

theorem State.vecOp_keeps {s0 s : State} (t : TileId) (ops : VOperands) (size : Nat) (run : State → List Word → State) (hrun : ∀ t a1, Keeps s0 t → Keeps s0 (run t a1)) (hK : Keeps s0 s) : Keeps s0 (State.vecOp s t ops size run) := by
  unfold State.vecOp
  repeat' first
    | with_reducible assumption
    | intro _
    | with_reducible apply State.retire_keeps
    | with_reducible apply State.coreRun_keeps
    | with_reducible apply State.vectorDone_keeps
    | with_reducible apply hrun
    | with_reducible apply State.vecArg_keeps (e := by assumption)
    | with_reducible refine Keeps.fst ?_ (by assumption)
    | with_reducible apply Keeps.ite
    | with_reducible apply Keeps.forEach
    | with_reducible apply Keeps.foldl
    | split
    | extract_lets

theorem State.vecOp3_keeps {s0 s : State} (t : TileId) (ops : VOperands) (size : Nat) (run : State → List Word → List Word → List Word → State) (hrun : ∀ t a1 a2 a3, Keeps s0 t → Keeps s0 (run t a1 a2 a3)) (hK : Keeps s0 s) : Keeps s0 (State.vecOp3 s t ops size run) := by
  unfold State.vecOp3
  repeat' first
    | with_reducible assumption
    | intro _
    | with_reducible apply State.retire_keeps
    | with_reducible apply State.coreRun_keeps
    | with_reducible apply State.vectorDone_keeps
    | with_reducible apply hrun
    | with_reducible apply State.vecArg_keeps (e := by assumption)
    | with_reducible refine Keeps.fst ?_ (by assumption)
    | with_reducible apply Keeps.ite
    | with_reducible apply Keeps.forEach
    | with_reducible apply Keeps.foldl
    | split
    | extract_lets

theorem State.lanes_keeps {s0 s : State} (t : TileId) (ops : VOperands) (out : Nat) (f : Word → Word → Word → Word) (l : List Word) (b : List Word) (c : List Word) (hK : Keeps s0 s) : Keeps s0 (State.lanes s t ops out f l b c) := by
  unfold State.lanes
  repeat' first
    | with_reducible assumption
    | intro _
    | with_reducible apply Keeps.modVu
    | with_reducible refine Keeps.fst ?_ (by assumption)
    | with_reducible apply Keeps.ite
    | with_reducible apply Keeps.forEach
    | with_reducible apply Keeps.foldl
    | split
    | extract_lets

theorem execVopArithmetic_keeps {s0 s u : State} (t : TileId) (op : VArith) (fmt : VFmt) (ops : VOperands) (hK : Keeps s0 s) (e : execVopArithmetic t op fmt ops s = .next u) : Keeps s0 u := by
  unfold execVopArithmetic at e
  refine guardRes_keeps ?_ e
  repeat' first
    | with_reducible assumption
    | intro _
    | with_reducible apply State.vecOp3_keeps
    | with_reducible apply State.lanes_keeps
    | with_reducible refine Keeps.fst ?_ (by assumption)
    | with_reducible apply Keeps.ite
    | with_reducible apply Keeps.forEach
    | with_reducible apply Keeps.foldl
    | split
    | extract_lets

theorem execVopCompareAndSelect_keeps {s0 s u : State} (t : TileId) (op : VCmp) (fmt : VFmt) (ops : VOperands) (hK : Keeps s0 s) (e : execVopCompareAndSelect t op fmt ops s = .next u) : Keeps s0 u := by
  unfold execVopCompareAndSelect at e
  refine guardRes_keeps ?_ e
  repeat' first
    | with_reducible assumption
    | intro _
    | with_reducible apply State.vecOp3_keeps
    | with_reducible apply State.lanes_keeps
    | with_reducible refine Keeps.fst ?_ (by assumption)
    | with_reducible apply Keeps.ite
    | with_reducible apply Keeps.forEach
    | with_reducible apply Keeps.foldl
    | split
    | extract_lets

theorem execVopConversion_keeps {s0 s u : State} (t : TileId) (op : VConv) (rcp : BitVec 32) (zp : Nat) (ops : VOperands) (hK : Keeps s0 s) (e : execVopConversion t op rcp zp ops s = .next u) : Keeps s0 u := by
  unfold execVopConversion at e
  refine guardRes_keeps ?_ e
  repeat' first
    | with_reducible assumption
    | intro _
    | with_reducible apply Keeps.modVu
    | with_reducible apply State.vecOp_keeps
    | with_reducible refine Keeps.fst ?_ (by assumption)
    | with_reducible apply Keeps.ite
    | with_reducible apply Keeps.forEach
    | with_reducible apply Keeps.foldl
    | split
    | extract_lets

theorem State.unary_keeps {s0 s : State} (t : TileId) (fmt : VFmt) (ops : VOperands) (f : Word → Word) (hK : Keeps s0 s) : Keeps s0 (State.unary s t fmt ops f) := by
  unfold State.unary
  repeat' first
    | with_reducible assumption
    | intro _
    | with_reducible apply Keeps.modVu
    | with_reducible apply State.vecOp_keeps
    | with_reducible refine Keeps.fst ?_ (by assumption)
    | with_reducible apply Keeps.ite
    | with_reducible apply Keeps.forEach
    | with_reducible apply Keeps.foldl
    | split
    | extract_lets

theorem execVopReciprocal_keeps {s0 s u : State} (t : TileId) (sqrt : Bool) (fmt : VFmt) (ops : VOperands) (hK : Keeps s0 s) (e : execVopReciprocal t sqrt fmt ops s = .next u) : Keeps s0 u := by
  unfold execVopReciprocal at e
  refine guardRes_keeps ?_ e
  repeat' first
    | with_reducible assumption
    | intro _
    | with_reducible apply State.unary_keeps
    | with_reducible refine Keeps.fst ?_ (by assumption)
    | with_reducible apply Keeps.ite
    | with_reducible apply Keeps.forEach
    | with_reducible apply Keeps.foldl
    | split
    | extract_lets

theorem execVopExp_keeps {s0 s u : State} (t : TileId) (base2 : Bool) (fmt : VFmt) (ops : VOperands) (hK : Keeps s0 s) (e : execVopExp t base2 fmt ops s = .next u) : Keeps s0 u := by
  unfold execVopExp at e
  refine guardRes_keeps ?_ e
  repeat' first
    | with_reducible assumption
    | intro _
    | with_reducible apply State.unary_keeps
    | with_reducible refine Keeps.fst ?_ (by assumption)
    | with_reducible apply Keeps.ite
    | with_reducible apply Keeps.forEach
    | with_reducible apply Keeps.foldl
    | split
    | extract_lets

theorem execSigmoid_keeps {s0 s u : State} (t : TileId) (fmt : VFmt) (ops : VOperands) (hK : Keeps s0 s) (e : execSigmoid t fmt ops s = .next u) : Keeps s0 u := by
  unfold execSigmoid at e
  refine guardRes_keeps ?_ e
  repeat' first
    | with_reducible assumption
    | intro _
    | with_reducible apply State.unary_keeps
    | with_reducible refine Keeps.fst ?_ (by assumption)
    | with_reducible apply Keeps.ite
    | with_reducible apply Keeps.forEach
    | with_reducible apply Keeps.foldl
    | split
    | extract_lets

theorem execSilu_keeps {s0 s u : State} (t : TileId) (fmt : VFmt) (ops : VOperands) (hK : Keeps s0 s) (e : execSilu t fmt ops s = .next u) : Keeps s0 u := by
  unfold execSilu at e
  refine guardRes_keeps ?_ e
  repeat' first
    | with_reducible assumption
    | intro _
    | with_reducible apply State.unary_keeps
    | with_reducible refine Keeps.fst ?_ (by assumption)
    | with_reducible apply Keeps.ite
    | with_reducible apply Keeps.forEach
    | with_reducible apply Keeps.foldl
    | split
    | extract_lets

theorem execSoftmaxStep_keeps {s0 s u : State} (t : TileId) (ops : VOperands) (hK : Keeps s0 s) (e : execSoftmaxStep t ops s = .next u) : Keeps s0 u := by
  unfold execSoftmaxStep at e
  refine guardRes_keeps ?_ e
  repeat' first
    | with_reducible assumption
    | intro _
    | with_reducible apply Keeps.modVu
    | with_reducible apply State.vecOp_keeps
    | with_reducible refine Keeps.fst ?_ (by assumption)
    | with_reducible apply Keeps.ite
    | with_reducible apply Keeps.forEach
    | with_reducible apply Keeps.foldl
    | split
    | extract_lets

theorem execVectorReduction_keeps {s0 s u : State} (t : TileId) (op : VRed) (first : Bool) (ops : VOperands) (hK : Keeps s0 s) (e : execVectorReduction t op first ops s = .next u) : Keeps s0 u := by
  unfold execVectorReduction at e
  refine guardRes_keeps ?_ e
  repeat' first
    | with_reducible assumption
    | intro _
    | with_reducible apply Keeps.modVu
    | with_reducible apply State.vecOp_keeps
    | with_reducible refine Keeps.fst ?_ (by assumption)
    | with_reducible apply Keeps.ite
    | with_reducible apply Keeps.forEach
    | with_reducible apply Keeps.foldl
    | split
    | extract_lets

theorem execTop64Select_keeps {s0 s u : State} (t : TileId) (first : Bool) (base : Nat) (ops : VOperands) (hK : Keeps s0 s) (e : execTop64Select t first base ops s = .next u) : Keeps s0 u := by
  unfold execTop64Select at e
  refine guardRes_keeps ?_ e
  repeat' first
    | with_reducible assumption
    | intro _
    | with_reducible apply Keeps.modVu
    | with_reducible apply State.vecOp_keeps
    | with_reducible refine Keeps.fst ?_ (by assumption)
    | with_reducible apply Keeps.ite
    | with_reducible apply Keeps.forEach
    | with_reducible apply Keeps.foldl
    | split
    | extract_lets

theorem execDraw_keeps {s0 s u : State} (t : TileId) (d : Fin 32) (args : DrawArgs) (hK : Keeps s0 s) (e : execDraw t d args s = .next u) : Keeps s0 u := by
  unfold execDraw at e
  refine guardRes_keeps ?_ e
  repeat' first
    | with_reducible assumption
    | intro _
    | with_reducible apply Keeps.useFree
    | with_reducible apply State.setGr_keeps
    | with_reducible apply State.retire_keeps
    | with_reducible apply State.coreRun_keeps
    | with_reducible apply State.vectorDone_keeps
    | with_reducible refine Keeps.fst ?_ (by assumption)
    | with_reducible apply Keeps.ite
    | with_reducible apply Keeps.forEach
    | with_reducible apply Keeps.foldl
    | split
    | extract_lets

end Sys2Proof.Machine
end

