-- ==== Sys2Proof/Laws/KeepsDebug.lean ====
section
/-!
SUPPORT. Every operation of Machine/Debug.lean keeps what `Keeps` says.
-/

namespace Sys2Proof.Machine

theorem State.writeCtrl_keeps {s0 s : State} (t : TileId) (halt : Bool) (resume : Bool) (scope : Bool) (hK : Keeps s0 s) : Keeps s0 (State.writeCtrl s t halt resume scope) := by
  unfold State.writeCtrl
  repeat' first
    | with_reducible assumption
    | intro _
    | with_reducible apply Keeps.modCc
    | with_reducible apply State.haltScoped_keeps
    | with_reducible apply State.resumeCore_keeps
    | with_reducible apply State.resumePart_keeps
    | with_reducible refine Keeps.fst ?_ (by assumption)
    | with_reducible apply Keeps.ite
    | with_reducible apply Keeps.forEach
    | with_reducible apply Keeps.foldl
    | split
    | extract_lets

theorem execHaltRequest_keeps {s0 s u : State} (t : TileId) (partitionScope : Bool) (hK : Keeps s0 s) (e : execHaltRequest t partitionScope s = .next u) : Keeps s0 u := by
  unfold execHaltRequest at e
  refine guardRes_keeps ?_ e
  repeat' first
    | with_reducible assumption
    | intro _
    | with_reducible apply State.writeCtrl_keeps
    | with_reducible refine Keeps.fst ?_ (by assumption)
    | with_reducible apply Keeps.ite
    | with_reducible apply Keeps.forEach
    | with_reducible apply Keeps.foldl
    | split
    | extract_lets

theorem execResume_keeps {s0 s u : State} (t : TileId) (partitionScope : Bool) (hK : Keeps s0 s) (e : execResume t partitionScope s = .next u) : Keeps s0 u := by
  unfold execResume at e
  refine guardRes_keeps ?_ e
  repeat' first
    | with_reducible assumption
    | intro _
    | with_reducible apply State.writeCtrl_keeps
    | with_reducible refine Keeps.fst ?_ (by assumption)
    | with_reducible apply Keeps.ite
    | with_reducible apply Keeps.forEach
    | with_reducible apply Keeps.foldl
    | split
    | extract_lets

theorem vopWord_keeps {s0 s u : State} (t : TileId) (w : Nat) (hK : Keeps s0 s) (e : vopWord t w s = .next u) : Keeps s0 u := by
  unfold vopWord at e
  try extract_lets at e
  (repeat' split at e) <;> first
    | with_reducible exact execVopArithmetic_keeps (hK := hK) (e := e)
    | with_reducible exact execVopCompareAndSelect_keeps (hK := hK) (e := e)
    | with_reducible exact execVopConversion_keeps (hK := hK.useFree 1) (e := e)
    | with_reducible exact execVopReciprocal_keeps (hK := hK) (e := e)
    | with_reducible exact execVopExp_keeps (hK := hK) (e := e)
    | with_reducible exact execSigmoid_keeps (hK := hK) (e := e)
    | with_reducible exact execSilu_keeps (hK := hK) (e := e)
    | with_reducible exact execSoftmaxStep_keeps (hK := hK) (e := e)
    | with_reducible exact execVectorReduction_keeps (hK := hK) (e := e)
    | with_reducible exact execTop64Select_keeps (hK := hK.useFree 1) (e := e)
    | with_reducible exact execDraw_keeps (hK := hK) (e := e)

theorem intWord_keeps {s0 s u : State} (t : TileId) (w : Nat) (hK : Keeps s0 s) (e : intWord t w s = .next u) : Keeps s0 u := by
  unfold intWord at e
  try extract_lets at e
  (repeat' split at e) <;> first
    | with_reducible exact execAdd_keeps (hK := hK) (e := e)
    | with_reducible exact execSub_keeps (hK := hK) (e := e)
    | with_reducible exact execAnd_keeps (hK := hK) (e := e)
    | with_reducible exact execOr_keeps (hK := hK) (e := e)
    | with_reducible exact execXor_keeps (hK := hK) (e := e)
    | with_reducible exact execSll_keeps (hK := hK) (e := e)
    | with_reducible exact execSrl_keeps (hK := hK) (e := e)
    | with_reducible exact execSra_keeps (hK := hK) (e := e)
    | with_reducible exact execSlt_keeps (hK := hK) (e := e)
    | with_reducible exact execSltu_keeps (hK := hK) (e := e)
    | with_reducible exact execIllegalInstruction_keeps (hK := hK) (e := e)

theorem coreWord_keeps {s0 s u : State} (t : TileId) (w : Nat) (hK : Keeps s0 s) (e : coreWord t w s = .next u) : Keeps s0 u := by
  unfold coreWord at e
  try extract_lets at e
  (repeat' split at e) <;> first
    | with_reducible exact execAddi_keeps (hK := hK) (e := e)
    | with_reducible exact execAndi_keeps (hK := hK) (e := e)
    | with_reducible exact execOri_keeps (hK := hK) (e := e)
    | with_reducible exact execXori_keeps (hK := hK) (e := e)
    | with_reducible exact execSlti_keeps (hK := hK) (e := e)
    | with_reducible exact execShiftImmediate_keeps (hK := hK) (e := e)
    | with_reducible exact execLui_keeps (hK := hK) (e := e)
    | with_reducible exact execMul_keeps (hK := hK) (e := e)
    | with_reducible exact execMulh_keeps (hK := hK) (e := e)
    | with_reducible exact execMulhu_keeps (hK := hK) (e := e)
    | with_reducible exact execLb_keeps (hK := hK) (e := e)
    | with_reducible exact execLbu_keeps (hK := hK) (e := e)
    | with_reducible exact execLh_keeps (hK := hK) (e := e)
    | with_reducible exact execLhu_keeps (hK := hK) (e := e)
    | with_reducible exact execLw_keeps (hK := hK) (e := e)
    | with_reducible exact execSb_keeps (hK := hK) (e := e)
    | with_reducible exact execSh_keeps (hK := hK) (e := e)
    | with_reducible exact execSw_keeps (hK := hK) (e := e)
    | with_reducible exact execBeq_keeps (hK := hK) (e := e)
    | with_reducible exact execBne_keeps (hK := hK) (e := e)
    | with_reducible exact execBlt_keeps (hK := hK) (e := e)
    | with_reducible exact execBge_keeps (hK := hK) (e := e)
    | with_reducible exact execBltu_keeps (hK := hK) (e := e)
    | with_reducible exact execBgeu_keeps (hK := hK) (e := e)
    | with_reducible exact execJ_keeps (hK := hK) (e := e)
    | with_reducible exact execJal_keeps (hK := hK) (e := e)
    | with_reducible exact execJr_keeps (hK := hK) (e := e)
    | with_reducible exact execJalr_keeps (hK := hK) (e := e)
    | with_reducible exact execTsub_keeps (hK := hK) (e := e)
    | with_reducible exact execVld_keeps (hK := hK) (e := e)
    | with_reducible exact execVst_keeps (hK := hK) (e := e)
    | with_reducible exact execVtst_keeps (hK := hK) (e := e)
    | with_reducible exact execSend_keeps (hK := hK) (e := e)
    | with_reducible exact execRecv_keeps (hK := hK) (e := e)
    | with_reducible exact execRld_keeps (hK := hK) (e := e)
    | with_reducible exact execRst_keeps (hK := hK) (e := e)
    | with_reducible exact execRamoFetchAndAdd_keeps (hK := hK) (e := e)
    | with_reducible exact execRamoCompareAndSwap32_keeps (hK := hK) (e := e)
    | with_reducible exact execRamoCompareAndSwap64_keeps (hK := hK) (e := e)
    | with_reducible exact execWait_keeps (hK := hK) (e := e)
    | with_reducible exact execFence_keeps (hK := hK) (e := e)
    | with_reducible exact execNop_keeps (hK := hK) (e := e)
    | with_reducible exact execHalt_keeps (hK := hK) (e := e)
    | with_reducible exact execTrap_keeps (hK := hK) (e := e)
    | with_reducible exact execBrk_keeps (hK := hK) (e := e)
    | with_reducible exact execIllegalInstruction_keeps (hK := hK) (e := e)
    | with_reducible exact vopWord_keeps (hK := hK) (e := e)
    | with_reducible exact intWord_keeps (hK := hK) (e := e)

theorem State.haltStep_keeps {s0 s : State} (t : TileId) (hK : Keeps s0 s) : Keeps s0 (State.haltStep s t) := by
  unfold State.haltStep
  repeat' first
    | with_reducible assumption
    | intro _
    | with_reducible apply Keeps.modCc
    | with_reducible apply State.haltCore_keeps
    | with_reducible refine Keeps.fst ?_ (by assumption)
    | with_reducible apply Keeps.ite
    | with_reducible apply Keeps.forEach
    | with_reducible apply Keeps.foldl
    | split
    | extract_lets

theorem nextOf_keeps {s0 s : State} {r : Res} (h : Keeps s0 s) (hr : ∀ u, r = .next u → Keeps s0 u) : Keeps s0 (nextOf s r) := by
  unfold nextOf
  split
  · exact hr _ rfl
  · exact h

theorem nextOf_coreWord_keeps {s0 s : State} (t : TileId) (w : Nat) (h : Keeps s0 s) : Keeps s0 (nextOf s (coreWord t w s)) :=
  nextOf_keeps h (fun _ e => coreWord_keeps t w h e)

theorem execStep_keeps {s0 s u : State} (t : TileId) (hK : Keeps s0 s) (e : execStep t s = .next u) : Keeps s0 u := by
  unfold execStep at e
  refine guardRes_keeps ?_ e
  repeat' first
    | with_reducible assumption
    | intro _
    | with_reducible apply Keeps.modCc
    | with_reducible apply coreWord_keeps (e := by assumption)
    | with_reducible apply State.haltStep_keeps
    | with_reducible apply nextOf_coreWord_keeps
    | with_reducible refine Keeps.fst ?_ (by assumption)
    | with_reducible apply Keeps.ite
    | with_reducible apply Keeps.forEach
    | with_reducible apply Keeps.foldl
    | split
    | extract_lets

theorem execDrainLimitExpiry_keeps {s0 s u : State} (part : Nat) (hK : Keeps s0 s) (e : execDrainLimitExpiry part s = .next u) : Keeps s0 u := by
  unfold execDrainLimitExpiry at e
  refine guardRes_keeps ?_ e
  repeat' first
    | with_reducible assumption
    | intro _
    | with_reducible apply Keeps.odSetP
    | with_reducible refine Keeps.fst ?_ (by assumption)
    | with_reducible apply Keeps.ite
    | with_reducible apply Keeps.forEach
    | with_reducible apply Keeps.foldl
    | split
    | extract_lets

theorem execTraceTimeRecord_keeps {s0 s u : State} (t : TileId) (hK : Keeps s0 s) (e : execTraceTimeRecord t s = .next u) : Keeps s0 u := by
  unfold execTraceTimeRecord at e
  refine guardRes_keeps ?_ e
  repeat' first
    | with_reducible assumption
    | intro _
    | with_reducible apply State.trace_keeps
    | with_reducible refine Keeps.fst ?_ (by assumption)
    | with_reducible apply Keeps.ite
    | with_reducible apply Keeps.forEach
    | with_reducible apply Keeps.foldl
    | split
    | extract_lets

end Sys2Proof.Machine
end

