-- ==== Sys2Proof/Laws/KeepsHostPort.lean ====
section
/-!
SUPPORT. Every operation of Machine/HostPort.lean keeps what `Keeps` says.
-/

namespace Sys2Proof.Machine

theorem State.modVf_keeps {s0 s : State} (p : Nat) (f : Function → Function) (hK : Keeps s0 s) : Keeps s0 (State.modVf s p f) := by
  unfold State.modVf
  repeat' first
    | with_reducible assumption
    | intro _
    | with_reducible apply Keeps.modFn
    | with_reducible refine Keeps.fst ?_ (by assumption)
    | with_reducible apply Keeps.ite
    | with_reducible apply Keeps.forEach
    | with_reducible apply Keeps.foldl
    | split
    | extract_lets

theorem State.interrupt_keeps {s0 s : State} (port : Port) (fn : Nat) (vector : Nat) (hK : Keeps s0 s) : Keeps s0 (State.interrupt s port fn vector) := by
  unfold State.interrupt
  repeat' first
    | with_reducible assumption
    | intro _
    | with_reducible apply Keeps.modFn
    | with_reducible apply Keeps.emit
    | with_reducible refine Keeps.fst ?_ (by assumption)
    | with_reducible apply Keeps.ite
    | with_reducible apply Keeps.forEach
    | with_reducible apply Keeps.foldl
    | split
    | extract_lets

theorem State.msixWrite_keeps {s0 s : State} (port : Port) (fn : Nat) (off : Nat) (v : Word) (hK : Keeps s0 s) : Keeps s0 (State.msixWrite s port fn off v) := by
  unfold State.msixWrite
  repeat' first
    | with_reducible assumption
    | intro _
    | with_reducible apply Keeps.modFn
    | with_reducible apply State.interrupt_keeps
    | with_reducible refine Keeps.fst ?_ (by assumption)
    | with_reducible apply Keeps.ite
    | with_reducible apply Keeps.forEach
    | with_reducible apply Keeps.foldl
    | split
    | extract_lets

theorem State.aerError_keeps {s0 s : State} (port : Port) (fn : Nat) (error : Nat) (hK : Keeps s0 s) : Keeps s0 (State.aerError s port fn error) := by
  unfold State.aerError
  repeat' first
    | with_reducible assumption
    | intro _
    | with_reducible apply Keeps.modFn
    | with_reducible apply Keeps.odAdd
    | with_reducible apply Keeps.log
    | with_reducible refine Keeps.fst ?_ (by assumption)
    | with_reducible apply Keeps.ite
    | with_reducible apply Keeps.forEach
    | with_reducible apply Keeps.foldl
    | split
    | extract_lets

theorem State.violate_keeps {s0 s : State} (port : Port) (fn : Nat) (status : Nat) (value : Nat) (addr : Nat) (hK : Keeps s0 s) : Keeps s0 (State.violate s port fn status value addr) := by
  unfold State.violate
  repeat' first
    | with_reducible assumption
    | intro _
    | with_reducible apply Keeps.modFn
    | with_reducible apply Keeps.odAdd
    | with_reducible apply Keeps.log
    | with_reducible apply State.interrupt_keeps
    | with_reducible refine Keeps.fst ?_ (by assumption)
    | with_reducible apply Keeps.ite
    | with_reducible apply Keeps.forEach
    | with_reducible apply Keeps.foldl
    | split
    | extract_lets

theorem State.writeRecords_keeps {s0 s : State} (port : Port) (fn : Nat) (l : List (List Byte)) (hK : Keeps s0 s) : Keeps s0 (State.writeRecords s port fn l).1 := by
  induction l generalizing s port fn with
  | nil =>
    refine KeepsP.keeps ?_
    unfold State.writeRecords
    repeat' first
      | with_reducible assumption
      | intro _
      | with_reducible apply KeepsP.ite
      | with_reducible apply Keeps.modFn
      | with_reducible apply Keeps.emit
      | with_reducible refine Keeps.fst ?_ (by assumption)
      | with_reducible apply Keeps.ite
      | with_reducible apply Keeps.forEach
      | with_reducible apply Keeps.foldl
      | split
      | extract_lets
      | with_reducible apply KeepsP.pair
  | cons a r ih =>
    refine KeepsP.keeps ?_
    unfold State.writeRecords
    repeat' first
      | with_reducible assumption
      | intro _
      | with_reducible apply KeepsP.ite
      | with_reducible apply ih
      | with_reducible apply Keeps.modFn
      | with_reducible apply Keeps.emit
      | with_reducible refine Keeps.fst ?_ (by assumption)
      | with_reducible apply Keeps.ite
      | with_reducible apply Keeps.forEach
      | with_reducible apply Keeps.foldl
      | split
      | extract_lets
      | with_reducible apply KeepsP.pair

theorem State.countHeld_keeps {s0 s : State} (p : Nat) (hK : Keeps s0 s) : Keeps s0 (State.countHeld s p) := by
  unfold State.countHeld
  repeat' first
    | with_reducible assumption
    | intro _
    | with_reducible apply Keeps.odSetP
    | with_reducible apply Keeps.odSet
    | with_reducible refine Keeps.fst ?_ (by assumption)
    | with_reducible apply Keeps.ite
    | with_reducible apply Keeps.forEach
    | with_reducible apply Keeps.foldl
    | split
    | extract_lets

theorem State.freeEntries_keeps {s0 s : State} (p : Nat) (hK : Keeps s0 s) : Keeps s0 (State.freeEntries s p) := by
  unfold State.freeEntries
  repeat' first
    | with_reducible assumption
    | intro _
    | with_reducible apply Keeps.modPart
    | with_reducible apply State.countHeld_keeps
    | with_reducible refine Keeps.fst ?_ (by assumption)
    | with_reducible apply Keeps.ite
    | with_reducible apply Keeps.forEach
    | with_reducible apply Keeps.foldl
    | split
    | extract_lets

theorem State.pumpRecords_keeps {s0 s : State} (port : Port) (fn : Nat) (hK : Keeps s0 s) : Keeps s0 (State.pumpRecords s port fn) := by
  unfold State.pumpRecords
  repeat' first
    | with_reducible assumption
    | intro _
    | with_reducible apply Keeps.modFn
    | with_reducible apply Keeps.emit
    | with_reducible apply State.interrupt_keeps
    | with_reducible apply State.writeRecords_keeps
    | with_reducible apply State.freeEntries_keeps
    | with_reducible refine Keeps.fst ?_ (by assumption)
    | with_reducible apply Keeps.ite
    | with_reducible apply Keeps.forEach
    | with_reducible apply Keeps.foldl
    | split
    | extract_lets

theorem State.postRecord_keeps {s0 s : State} (p : Nat) (b : List Byte) (hK : Keeps s0 s) : Keeps s0 (State.postRecord s p b) := by
  unfold State.postRecord
  repeat' first
    | with_reducible assumption
    | intro _
    | with_reducible apply Keeps.odAdd
    | with_reducible apply State.modVf_keeps
    | with_reducible apply State.pumpRecords_keeps
    | with_reducible refine Keeps.fst ?_ (by assumption)
    | with_reducible apply Keeps.ite
    | with_reducible apply Keeps.forEach
    | with_reducible apply Keeps.foldl
    | split
    | extract_lets

theorem State.negotiateVer_keeps {s0 s : State} (port : Port) (fn : Nat) (value : Nat) (hK : Keeps s0 s) : Keeps s0 (State.negotiateVer s port fn value) := by
  unfold State.negotiateVer
  repeat' first
    | with_reducible assumption
    | intro _
    | with_reducible apply Keeps.modFn
    | with_reducible apply Keeps.odSet
    | with_reducible refine Keeps.fst ?_ (by assumption)
    | with_reducible apply Keeps.ite
    | with_reducible apply Keeps.forEach
    | with_reducible apply Keeps.foldl
    | split
    | extract_lets

theorem State.ringCtrl_keeps {s0 s : State} (port : Port) (fn : Nat) (value : Nat) (hK : Keeps s0 s) : Keeps s0 (State.ringCtrl s port fn value) := by
  unfold State.ringCtrl
  repeat' first
    | with_reducible assumption
    | intro _
    | with_reducible apply Keeps.modFn
    | with_reducible apply State.pumpRecords_keeps
    | with_reducible refine Keeps.fst ?_ (by assumption)
    | with_reducible apply Keeps.ite
    | with_reducible apply Keeps.forEach
    | with_reducible apply Keeps.foldl
    | split
    | extract_lets

theorem State.sqDoorbell_keeps {s0 s : State} (port : Port) (fn : Nat) (value : Nat) (hK : Keeps s0 s) : Keeps s0 (State.sqDoorbell s port fn value) := by
  unfold State.sqDoorbell
  repeat' first
    | with_reducible assumption
    | intro _
    | with_reducible apply Keeps.modFn
    | with_reducible apply State.violate_keeps
    | with_reducible refine Keeps.fst ?_ (by assumption)
    | with_reducible apply Keeps.ite
    | with_reducible apply Keeps.forEach
    | with_reducible apply Keeps.foldl
    | split
    | extract_lets

theorem State.cqDoorbell_keeps {s0 s : State} (port : Port) (fn : Nat) (value : Nat) (hK : Keeps s0 s) : Keeps s0 (State.cqDoorbell s port fn value) := by
  unfold State.cqDoorbell
  repeat' first
    | with_reducible assumption
    | intro _
    | with_reducible apply Keeps.modFn
    | with_reducible apply State.violate_keeps
    | with_reducible apply State.pumpRecords_keeps
    | with_reducible refine Keeps.fst ?_ (by assumption)
    | with_reducible apply Keeps.ite
    | with_reducible apply Keeps.forEach
    | with_reducible apply Keeps.foldl
    | split
    | extract_lets

theorem State.ringReg_keeps {s0 s : State} (port : Port) (fn : Nat) (off : Nat) (v : Nat) (hK : Keeps s0 s) : Keeps s0 (State.ringReg s port fn off v) := by
  unfold State.ringReg
  repeat' first
    | with_reducible assumption
    | intro _
    | with_reducible apply Keeps.modFn
    | with_reducible apply Keeps.odAdd
    | with_reducible apply Keeps.log
    | with_reducible refine Keeps.fst ?_ (by assumption)
    | with_reducible apply Keeps.ite
    | with_reducible apply Keeps.forEach
    | with_reducible apply Keeps.foldl
    | split
    | extract_lets

theorem State.vfWrite_keeps {s0 s : State} (port : Port) (fn : Nat) (off : Nat) (value : Nat) (f : State → State) (hf : ∀ t, Keeps s0 t → Keeps s0 (f t)) (hK : Keeps s0 s) : Keeps s0 (State.vfWrite s port fn off value f) := by
  unfold State.vfWrite
  repeat' first
    | with_reducible assumption
    | intro _
    | with_reducible apply State.violate_keeps
    | with_reducible apply hf
    | with_reducible refine Keeps.fst ?_ (by assumption)
    | with_reducible apply Keeps.ite
    | with_reducible apply Keeps.forEach
    | with_reducible apply Keeps.foldl
    | split
    | extract_lets

theorem execHqVerWrite_keeps {s0 s u : State} (port : Port) (fn : Nat) (value : Word) (hK : Keeps s0 s) (e : execHqVerWrite port fn value s = .next u) : Keeps s0 u := by
  unfold execHqVerWrite at e
  refine guardRes_keeps ?_ e
  repeat' first
    | with_reducible assumption
    | intro _
    | with_reducible apply State.negotiateVer_keeps
    | with_reducible apply State.vfWrite_keeps
    | with_reducible refine Keeps.fst ?_ (by assumption)
    | with_reducible apply Keeps.ite
    | with_reducible apply Keeps.forEach
    | with_reducible apply Keeps.foldl
    | split
    | extract_lets

theorem execRingEnable_keeps {s0 s u : State} (port : Port) (fn : Nat) (value : Word) (hK : Keeps s0 s) (e : execRingEnable port fn value s = .next u) : Keeps s0 u := by
  unfold execRingEnable at e
  refine guardRes_keeps ?_ e
  repeat' first
    | with_reducible assumption
    | intro _
    | with_reducible apply State.ringCtrl_keeps
    | with_reducible apply State.vfWrite_keeps
    | with_reducible refine Keeps.fst ?_ (by assumption)
    | with_reducible apply Keeps.ite
    | with_reducible apply Keeps.forEach
    | with_reducible apply Keeps.foldl
    | split
    | extract_lets

theorem execSqTailWrite_keeps {s0 s u : State} (port : Port) (fn : Nat) (value : Word) (hK : Keeps s0 s) (e : execSqTailWrite port fn value s = .next u) : Keeps s0 u := by
  unfold execSqTailWrite at e
  refine guardRes_keeps ?_ e
  repeat' first
    | with_reducible assumption
    | intro _
    | with_reducible apply State.sqDoorbell_keeps
    | with_reducible apply State.vfWrite_keeps
    | with_reducible refine Keeps.fst ?_ (by assumption)
    | with_reducible apply Keeps.ite
    | with_reducible apply Keeps.forEach
    | with_reducible apply Keeps.foldl
    | split
    | extract_lets

theorem execCqHeadWrite_keeps {s0 s u : State} (port : Port) (fn : Nat) (value : Word) (hK : Keeps s0 s) (e : execCqHeadWrite port fn value s = .next u) : Keeps s0 u := by
  unfold execCqHeadWrite at e
  refine guardRes_keeps ?_ e
  repeat' first
    | with_reducible assumption
    | intro _
    | with_reducible apply State.cqDoorbell_keeps
    | with_reducible apply State.vfWrite_keeps
    | with_reducible refine Keeps.fst ?_ (by assumption)
    | with_reducible apply Keeps.ite
    | with_reducible apply Keeps.forEach
    | with_reducible apply Keeps.foldl
    | split
    | extract_lets

theorem State.askSlots_keeps {s0 s : State} (port : Port) (fn : Nat) (n : Nat) (hK : Keeps s0 s) : Keeps s0 (State.askSlots s port fn n) := by
  unfold State.askSlots
  repeat' first
    | with_reducible assumption
    | intro _
    | with_reducible apply Keeps.emit
    | with_reducible refine Keeps.fst ?_ (by assumption)
    | with_reducible apply Keeps.ite
    | with_reducible apply Keeps.forEach
    | with_reducible apply Keeps.foldl
    | split
    | extract_lets

theorem execSubmissionFetch_keeps {s0 s u : State} (port : Port) (fn : Nat) (hK : Keeps s0 s) (e : execSubmissionFetch port fn s = .next u) : Keeps s0 u := by
  unfold execSubmissionFetch at e
  refine guardRes_keeps ?_ e
  repeat' first
    | with_reducible assumption
    | intro _
    | with_reducible apply Keeps.modFn
    | with_reducible apply State.askSlots_keeps
    | with_reducible refine Keeps.fst ?_ (by assumption)
    | with_reducible apply Keeps.ite
    | with_reducible apply Keeps.forEach
    | with_reducible apply Keeps.foldl
    | split
    | extract_lets

theorem execSubmissionFetchTimeout_keeps {s0 s u : State} (port : Port) (fn : Nat) (hK : Keeps s0 s) (e : execSubmissionFetchTimeout port fn s = .next u) : Keeps s0 u := by
  unfold execSubmissionFetchTimeout at e
  refine guardRes_keeps ?_ e
  repeat' first
    | with_reducible assumption
    | intro _
    | with_reducible apply Keeps.modFn
    | with_reducible refine Keeps.fst ?_ (by assumption)
    | with_reducible apply Keeps.ite
    | with_reducible apply Keeps.forEach
    | with_reducible apply Keeps.foldl
    | split
    | extract_lets

theorem execInterruptCoalesceExpiry_keeps {s0 s u : State} (port : Port) (fn : Nat) (hK : Keeps s0 s) (e : execInterruptCoalesceExpiry port fn s = .next u) : Keeps s0 u := by
  unfold execInterruptCoalesceExpiry at e
  refine guardRes_keeps ?_ e
  repeat' first
    | with_reducible assumption
    | intro _
    | with_reducible apply Keeps.modFn
    | with_reducible apply State.interrupt_keeps
    | with_reducible refine Keeps.fst ?_ (by assumption)
    | with_reducible apply Keeps.ite
    | with_reducible apply Keeps.forEach
    | with_reducible apply Keeps.foldl
    | split
    | extract_lets

theorem State.slotsArrive_keeps {s0 s : State} (port : Port) (fn : Nat) (b : List Byte) (hK : Keeps s0 s) : Keeps s0 (State.slotsArrive s port fn b) := by
  unfold State.slotsArrive
  repeat' first
    | with_reducible assumption
    | intro _
    | with_reducible apply Keeps.modFn
    | with_reducible refine Keeps.fst ?_ (by assumption)
    | with_reducible apply Keeps.ite
    | with_reducible apply Keeps.forEach
    | with_reducible apply Keeps.foldl
    | split
    | extract_lets

theorem State.hostError_keeps {s0 s : State} (port : Port) (fn : Nat) (code : Nat) (addr : Nat) (hK : Keeps s0 s) : Keeps s0 (State.hostError s port fn code addr) := by
  unfold State.hostError
  repeat' first
    | with_reducible assumption
    | intro _
    | with_reducible apply Keeps.modFn
    | with_reducible apply Keeps.odAdd
    | with_reducible apply State.violate_keeps
    | with_reducible refine Keeps.fst ?_ (by assumption)
    | with_reducible apply Keeps.ite
    | with_reducible apply Keeps.forEach
    | with_reducible apply Keeps.foldl
    | split
    | extract_lets

theorem State.slotsFail_keeps {s0 s : State} (port : Port) (fn : Nat) (code : Nat) (hK : Keeps s0 s) : Keeps s0 (State.slotsFail s port fn code) := by
  unfold State.slotsFail
  repeat' first
    | with_reducible assumption
    | intro _
    | with_reducible apply Keeps.modFn
    | with_reducible apply State.hostError_keeps
    | with_reducible refine Keeps.fst ?_ (by assumption)
    | with_reducible apply Keeps.ite
    | with_reducible apply Keeps.forEach
    | with_reducible apply Keeps.foldl
    | split
    | extract_lets

theorem State.grantLock_keeps {s0 s : State} (holder : Nat) (peer : Nat × Nat) (hK : Keeps s0 s) : Keeps s0 (State.grantLock s holder peer) := by
  unfold State.grantLock
  repeat' first
    | with_reducible assumption
    | intro _
    | with_reducible apply Keeps.odSet
    | with_reducible apply Keeps.odAdd
    | with_reducible refine Keeps.fst ?_ (by assumption)
    | with_reducible apply Keeps.ite
    | with_reducible apply Keeps.forEach
    | with_reducible apply Keeps.foldl
    | split
    | extract_lets
    | fail_if_no_progress (with_reducible refine Keeps.hub ?_ rfl rfl)

theorem State.freeLock_keeps {s0 s : State} (hK : Keeps s0 s) : Keeps s0 (State.freeLock s) := by
  unfold State.freeLock
  repeat' first
    | with_reducible assumption
    | intro _
    | with_reducible apply Keeps.odSet
    | with_reducible refine Keeps.fst ?_ (by assumption)
    | with_reducible apply Keeps.ite
    | with_reducible apply Keeps.forEach
    | with_reducible apply Keeps.foldl
    | split
    | extract_lets
    | fail_if_no_progress (with_reducible refine Keeps.hub ?_ rfl rfl)

theorem execLockAcquire_keeps {s0 s u : State} (port : Port) (hK : Keeps s0 s) (e : execLockAcquire port s = .next u) : Keeps s0 u := by
  unfold execLockAcquire at e
  refine guardRes_keeps ?_ e
  repeat' first
    | with_reducible assumption
    | intro _
    | with_reducible apply Keeps.modFn
    | with_reducible apply State.grantLock_keeps
    | with_reducible refine Keeps.fst ?_ (by assumption)
    | with_reducible apply Keeps.ite
    | with_reducible apply Keeps.forEach
    | with_reducible apply Keeps.foldl
    | split
    | extract_lets

theorem execLockRelease_keeps {s0 s u : State} (port : Port) (hK : Keeps s0 s) (e : execLockRelease port s = .next u) : Keeps s0 u := by
  unfold execLockRelease at e
  refine guardRes_keeps ?_ e
  repeat' first
    | with_reducible assumption
    | intro _
    | with_reducible apply Keeps.modFn
    | with_reducible apply State.freeLock_keeps
    | with_reducible refine Keeps.fst ?_ (by assumption)
    | with_reducible apply Keeps.ite
    | with_reducible apply Keeps.forEach
    | with_reducible apply Keeps.foldl
    | split
    | extract_lets

theorem execLeaseWarning_keeps {s0 s u : State} (hK : Keeps s0 s) (e : execLeaseWarning s = .next u) : Keeps s0 u := by
  unfold execLeaseWarning at e
  refine guardRes_keeps ?_ e
  repeat' first
    | with_reducible assumption
    | intro _
    | with_reducible apply State.interrupt_keeps
    | with_reducible refine Keeps.fst ?_ (by assumption)
    | with_reducible apply Keeps.ite
    | with_reducible apply Keeps.forEach
    | with_reducible apply Keeps.foldl
    | split
    | extract_lets
    | fail_if_no_progress (with_reducible refine Keeps.hub ?_ rfl rfl)

theorem execLeaseExpiry_keeps {s0 s u : State} (hK : Keeps s0 s) (e : execLeaseExpiry s = .next u) : Keeps s0 u := by
  unfold execLeaseExpiry at e
  refine guardRes_keeps ?_ e
  repeat' first
    | with_reducible assumption
    | intro _
    | with_reducible apply Keeps.odAdd
    | with_reducible apply Keeps.log
    | with_reducible apply State.freeLock_keeps
    | with_reducible refine Keeps.fst ?_ (by assumption)
    | with_reducible apply Keeps.ite
    | with_reducible apply Keeps.forEach
    | with_reducible apply Keeps.foldl
    | split
    | extract_lets

theorem State.dclWrite_keeps {s0 s : State} (port : Port) (value : Nat) (hK : Keeps s0 s) : Keeps s0 (State.dclWrite s port value) := by
  unfold State.dclWrite
  repeat' first
    | with_reducible assumption
    | intro _
    | with_reducible apply Keeps.modFn
    | with_reducible apply State.grantLock_keeps
    | with_reducible apply State.freeLock_keeps
    | with_reducible refine Keeps.fst ?_ (by assumption)
    | with_reducible apply Keeps.ite
    | with_reducible apply Keeps.forEach
    | with_reducible apply Keeps.foldl
    | split
    | extract_lets

theorem execBusMasterDisable_keeps {s0 s u : State} (port : Port) (fn : Nat) (set : Bool) (hK : Keeps s0 s) (e : execBusMasterDisable port fn set s = .next u) : Keeps s0 u := by
  unfold execBusMasterDisable at e
  refine guardRes_keeps ?_ e
  repeat' first
    | with_reducible assumption
    | intro _
    | with_reducible apply Keeps.modFn
    | with_reducible apply State.violate_keeps
    | with_reducible apply State.pumpRecords_keeps
    | with_reducible refine Keeps.fst ?_ (by assumption)
    | with_reducible apply Keeps.ite
    | with_reducible apply Keeps.forEach
    | with_reducible apply Keeps.foldl
    | split
    | extract_lets

theorem execD3hotEntry_keeps {s0 s u : State} (port : Port) (fn : Nat) (hK : Keeps s0 s) (e : execD3hotEntry port fn s = .next u) : Keeps s0 u := by
  unfold execD3hotEntry at e
  refine guardRes_keeps ?_ e
  repeat' first
    | with_reducible assumption
    | intro _
    | with_reducible apply Keeps.modFn
    | with_reducible refine Keeps.fst ?_ (by assumption)
    | with_reducible apply Keeps.ite
    | with_reducible apply Keeps.forEach
    | with_reducible apply Keeps.foldl
    | split
    | extract_lets

theorem execD0Entry_keeps {s0 s u : State} (port : Port) (fn : Nat) (hK : Keeps s0 s) (e : execD0Entry port fn s = .next u) : Keeps s0 u := by
  unfold execD0Entry at e
  refine guardRes_keeps ?_ e
  repeat' first
    | with_reducible assumption
    | intro _
    | with_reducible apply Keeps.modFn
    | with_reducible apply State.pumpRecords_keeps
    | with_reducible refine Keeps.fst ?_ (by assumption)
    | with_reducible apply Keeps.ite
    | with_reducible apply Keeps.forEach
    | with_reducible apply Keeps.foldl
    | split
    | extract_lets

theorem execBarAccessViolation_keeps {s0 s u : State} (port : Port) (fn : Nat) (kind : BarMisuse) (offset : Nat) (value : Nat) (hK : Keeps s0 s) (e : execBarAccessViolation port fn kind offset value s = .next u) : Keeps s0 u := by
  unfold execBarAccessViolation at e
  refine guardRes_keeps ?_ e
  repeat' first
    | with_reducible assumption
    | intro _
    | with_reducible apply Keeps.modFn
    | with_reducible apply State.aerError_keeps
    | with_reducible apply State.violate_keeps
    | with_reducible refine Keeps.fst ?_ (by assumption)
    | with_reducible apply Keeps.ite
    | with_reducible apply Keeps.forEach
    | with_reducible apply Keeps.foldl
    | split
    | extract_lets

theorem State.ideFail_keeps {s0 s : State} (port : Port) (fn : Nat) (hK : Keeps s0 s) : Keeps s0 (State.ideFail s port fn) := by
  unfold State.ideFail
  repeat' first
    | with_reducible assumption
    | intro _
    | with_reducible apply Keeps.modFn
    | with_reducible apply Keeps.odAdd
    | with_reducible apply State.interrupt_keeps
    | with_reducible refine Keeps.fst ?_ (by assumption)
    | with_reducible apply Keeps.ite
    | with_reducible apply Keeps.forEach
    | with_reducible apply Keeps.foldl
    | split
    | extract_lets

theorem execPcieLinkUp_keeps {s0 s u : State} (port : Port) (flitMode : Bool) (rate : Nat) (width : Nat) (hK : Keeps s0 s) (e : execPcieLinkUp port flitMode rate width s = .next u) : Keeps s0 u := by
  unfold execPcieLinkUp at e
  refine guardRes_keeps ?_ e
  repeat' first
    | with_reducible assumption
    | intro _
    | with_reducible apply Keeps.odSet
    | with_reducible apply Keeps.log
    | with_reducible apply State.interrupt_keeps
    | with_reducible refine Keeps.fst ?_ (by assumption)
    | with_reducible apply Keeps.ite
    | with_reducible apply Keeps.forEach
    | with_reducible apply Keeps.foldl
    | split
    | extract_lets

theorem State.dropReads_keeps {s0 s : State} (port : Port) (fn : Nat) (hK : Keeps s0 s) : Keeps s0 (State.dropReads s port fn) := by
  unfold State.dropReads
  repeat' first
    | with_reducible assumption
    | intro _
    | with_reducible apply Keeps.modFn
    | with_reducible refine Keeps.fst ?_ (by assumption)
    | with_reducible apply Keeps.ite
    | with_reducible apply Keeps.forEach
    | with_reducible apply Keeps.foldl
    | split
    | extract_lets

end Sys2Proof.Machine
end

