-- ==== Sys2Proof/Laws/KeepsServeOps.lean ====
section
/-!
SUPPORT. Every operation of Machine/ServeOps.lean keeps what `Keeps` says.
-/

namespace Sys2Proof.Machine

theorem State.modReq_keeps {s0 s : State} (p : Nat) (r : Nat) (f : Request → Request) (hK : Keeps s0 s) : Keeps s0 (State.modReq s p r f) := by
  unfold State.modReq
  repeat' first
    | with_reducible assumption
    | intro _
    | with_reducible apply Keeps.modPart
    | with_reducible refine Keeps.fst ?_ (by assumption)
    | with_reducible apply Keeps.ite
    | with_reducible apply Keeps.forEach
    | with_reducible apply Keeps.foldl
    | split
    | extract_lets

theorem State.endRequest_keeps {s0 s : State} (p : Nat) (r : Nat) (status : Nat) (reason : Nat) (detail : Nat) (hK : Keeps s0 s) : Keeps s0 (State.endRequest s p r status reason detail) := by
  unfold State.endRequest
  repeat' first
    | with_reducible assumption
    | intro _
    | with_reducible apply State.modReq_keeps
    | with_reducible refine Keeps.fst ?_ (by assumption)
    | with_reducible apply Keeps.ite
    | with_reducible apply Keeps.forEach
    | with_reducible apply Keeps.foldl
    | split
    | extract_lets

theorem State.countServing_keeps {s0 s : State} (p : Nat) (hK : Keeps s0 s) : Keeps s0 (State.countServing s p) := by
  unfold State.countServing
  repeat' first
    | with_reducible assumption
    | intro _
    | with_reducible apply Keeps.odSetP
    | with_reducible apply State.countHeld_keeps
    | with_reducible refine Keeps.fst ?_ (by assumption)
    | with_reducible apply Keeps.ite
    | with_reducible apply Keeps.forEach
    | with_reducible apply Keeps.foldl
    | split
    | extract_lets

theorem State.answer_keeps {s0 s : State} (p : Nat) (tag : Nat) (status : Nat) (detail : Nat) (submitAt : Nat) (hK : Keeps s0 s) : Keeps s0 (State.answer s p tag status detail submitAt) := by
  unfold State.answer
  repeat' first
    | with_reducible assumption
    | intro _
    | with_reducible apply State.postRecord_keeps
    | with_reducible refine Keeps.fst ?_ (by assumption)
    | with_reducible apply Keeps.ite
    | with_reducible apply Keeps.forEach
    | with_reducible apply Keeps.foldl
    | split
    | extract_lets

theorem State.faultReport_keeps {s0 s : State} (p : Nat) (rec32 : List Byte) (hK : Keeps s0 s) : Keeps s0 (State.faultReport s p rec32) := by
  unfold State.faultReport
  repeat' first
    | with_reducible assumption
    | intro _
    | with_reducible apply State.postRecord_keeps
    | with_reducible refine Keeps.fst ?_ (by assumption)
    | with_reducible apply Keeps.ite
    | with_reducible apply Keeps.forEach
    | with_reducible apply Keeps.foldl
    | split
    | extract_lets

theorem execMessageReceipt_keeps {s0 s u : State} (t : TileId) (msg : List Byte) (srcX : Nat) (srcY : Nat) (hK : Keeps s0 s) (e : execMessageReceipt t msg srcX srcY s = .next u) : Keeps s0 u := by
  unfold execMessageReceipt at e
  refine guardRes_keeps ?_ e
  repeat' first
    | with_reducible assumption
    | intro _
    | with_reducible apply State.queueMessage_keeps
    | with_reducible apply State.faultReport_keeps
    | with_reducible refine Keeps.fst ?_ (by assumption)
    | with_reducible apply Keeps.ite
    | with_reducible apply Keeps.forEach
    | with_reducible apply Keeps.foldl
    | split
    | extract_lets

end Sys2Proof.Machine
end

