-- ==== Sys2Proof/Laws/KeepsKv.lean ====
section
/-!
SUPPORT. Every operation of Machine/Kv.lean keeps what `Keeps` says.
-/

namespace Sys2Proof.Machine

theorem State.putRegion_keeps {s0 s : State} (p : Nat) (r : Nat) (a : Nat) (bs : List Byte) (hK : Keeps s0 s) : Keeps s0 (State.putRegion s p r a bs) := by
  unfold State.putRegion
  repeat' first
    | with_reducible assumption
    | intro _
    | with_reducible apply State.stackWrite_keeps
    | with_reducible apply State.failReq_keeps
    | with_reducible refine Keeps.fst ?_ (by assumption)
    | with_reducible apply Keeps.ite
    | with_reducible apply Keeps.forEach
    | with_reducible apply Keeps.foldl
    | split
    | extract_lets

theorem State.showPage_keeps {s0 s : State} (p : Nat) (r : Nat) (layer : Nat) (page : Nat) (hK : Keeps s0 s) : Keeps s0 (State.showPage s p r layer page) := by
  unfold State.showPage
  repeat' first
    | with_reducible assumption
    | intro _
    | with_reducible apply State.putRegion_keeps
    | with_reducible refine Keeps.fst ?_ (by assumption)
    | with_reducible apply Keeps.ite
    | with_reducible apply Keeps.forEach
    | with_reducible apply Keeps.foldl
    | split
    | extract_lets

theorem State.showPages_keeps {s0 s : State} (p : Nat) (r : Nat) (hK : Keeps s0 s) : Keeps s0 (State.showPages s p r) := by
  unfold State.showPages
  repeat' first
    | with_reducible assumption
    | intro _
    | with_reducible apply State.showPage_keeps
    | with_reducible refine Keeps.fst ?_ (by assumption)
    | with_reducible apply Keeps.ite
    | with_reducible apply Keeps.forEach
    | with_reducible apply Keeps.foldl
    | split
    | extract_lets

theorem State.setPage_keeps {s0 s : State} (p : Nat) (r : Nat) (layer : Nat) (page : Nat) (f : KvPage → KvPage) (hK : Keeps s0 s) : Keeps s0 (State.setPage s p r layer page f) := by
  unfold State.setPage
  repeat' first
    | with_reducible assumption
    | intro _
    | with_reducible apply State.modReq_keeps
    | with_reducible apply State.showPage_keeps
    | with_reducible refine Keeps.fst ?_ (by assumption)
    | with_reducible apply Keeps.ite
    | with_reducible apply Keeps.forEach
    | with_reducible apply Keeps.foldl
    | split
    | extract_lets

theorem State.showIds_keeps {s0 s : State} (p : Nat) (r : Nat) (position : Nat) (ids : List Nat) (hK : Keeps s0 s) : Keeps s0 (State.showIds s p r position ids) := by
  unfold State.showIds
  repeat' first
    | with_reducible assumption
    | intro _
    | with_reducible apply State.putRegion_keeps
    | with_reducible refine Keeps.fst ?_ (by assumption)
    | with_reducible apply Keeps.ite
    | with_reducible apply Keeps.forEach
    | with_reducible apply Keeps.foldl
    | split
    | extract_lets

theorem State.showView_keeps {s0 s : State} (p : Nat) (r : Nat) (layer : Nat) (t : TileId) (hK : Keeps s0 s) : Keeps s0 (State.showView s p r layer t) := by
  unfold State.showView
  repeat' first
    | with_reducible assumption
    | intro _
    | with_reducible apply Keeps.modSp
    | with_reducible apply Keeps.modPart
    | with_reducible refine Keeps.fst ?_ (by assumption)
    | with_reducible apply Keeps.ite
    | with_reducible apply Keeps.forEach
    | with_reducible apply Keeps.foldl
    | split
    | extract_lets

theorem State.pushDesc_keeps {s0 s u : State} {x : Nat} (t : TileId) (b : List Byte) (h : Keeps s0 s)
    (e : s.pushDesc t b = some (u, x)) : Keeps s0 u := by
  unfold State.pushDesc at e
  extract_lets m s1 tail at e
  split at e
  · cases e
  · injection Option.some.inj e with h1 _
    rw [← h1]
    exact State.writeMvTail_keeps _ _ _ (h.modSp _ _)

theorem State.losePage_keeps {s0 s : State} (p : Nat) (r : Nat) (layer : Nat) (page : Nat) (hK : Keeps s0 s) : Keeps s0 (State.losePage s p r layer page) := by
  unfold State.losePage
  repeat' first
    | with_reducible assumption
    | intro _
    | with_reducible apply Keeps.modPart
    | with_reducible apply Keeps.odAdd
    | with_reducible apply State.failReq_keeps
    | with_reducible refine Keeps.fst ?_ (by assumption)
    | with_reducible apply Keeps.ite
    | with_reducible apply Keeps.forEach
    | with_reducible apply Keeps.foldl
    | split
    | extract_lets

theorem State.settlePage_keeps {s0 s : State} (p : Nat) (r : Nat) (layer : Nat) (page : Nat) (t : TileId) (hK : Keeps s0 s) : Keeps s0 (State.settlePage s p r layer page t) := by
  unfold State.settlePage
  repeat' first
    | with_reducible assumption
    | intro _
    | with_reducible apply Keeps.odAdd
    | with_reducible apply State.setPage_keeps
    | with_reducible apply State.losePage_keeps
    | with_reducible refine Keeps.fst ?_ (by assumption)
    | with_reducible apply Keeps.ite
    | with_reducible apply Keeps.forEach
    | with_reducible apply Keeps.foldl
    | split
    | extract_lets

theorem State.settleLayer_keeps {s0 s : State} (p : Nat) (r : Nat) (stage : Nat) (hK : Keeps s0 s) : Keeps s0 (State.settleLayer s p r stage) := by
  unfold State.settleLayer
  repeat' first
    | with_reducible assumption
    | intro _
    | with_reducible apply State.settlePage_keeps
    | with_reducible refine Keeps.fst ?_ (by assumption)
    | with_reducible apply Keeps.ite
    | with_reducible apply Keeps.forEach
    | with_reducible apply Keeps.foldl
    | split
    | extract_lets

theorem State.settleRequest_keeps {s0 s : State} (p : Nat) (r : Nat) (hK : Keeps s0 s) : Keeps s0 (State.settleRequest s p r) := by
  unfold State.settleRequest
  repeat' first
    | with_reducible assumption
    | intro _
    | with_reducible apply State.modReq_keeps
    | with_reducible apply State.settleLayer_keeps
    | with_reducible refine Keeps.fst ?_ (by assumption)
    | with_reducible apply Keeps.ite
    | with_reducible apply Keeps.forEach
    | with_reducible apply Keeps.foldl
    | split
    | extract_lets

theorem State.spillPage_keeps {s0 s : State} (p : Nat) (r : Nat) (layer : Nat) (page : Nat) (t : TileId) (hK : Keeps s0 s) : Keeps s0 (State.spillPage s p r layer page t) := by
  unfold State.spillPage
  repeat' first
    | with_reducible assumption
    | intro _
    | with_reducible apply State.setPage_keeps
    | with_reducible apply State.pushDesc_keeps (e := by assumption)
    | with_reducible refine Keeps.fst ?_ (by assumption)
    | with_reducible apply Keeps.ite
    | with_reducible apply Keeps.forEach
    | with_reducible apply Keeps.foldl
    | split
    | extract_lets

theorem State.startEvict_keeps {s0 s : State} (p : Nat) (t : TileId) (slot : Nat) (hK : Keeps s0 s) : Keeps s0 (State.startEvict s p t slot) := by
  unfold State.startEvict
  repeat' first
    | with_reducible assumption
    | intro _
    | with_reducible apply Keeps.modPart
    | with_reducible apply State.showView_keeps
    | with_reducible apply State.spillPage_keeps
    | with_reducible refine Keeps.fst ?_ (by assumption)
    | with_reducible apply Keeps.ite
    | with_reducible apply Keeps.forEach
    | with_reducible apply Keeps.foldl
    | split
    | extract_lets

theorem State.dropSlot_keeps {s0 s : State} (p : Nat) (t : TileId) (slot : Nat) (hK : Keeps s0 s) : Keeps s0 (State.dropSlot s p t slot) := by
  unfold State.dropSlot
  repeat' first
    | with_reducible assumption
    | intro _
    | with_reducible apply Keeps.modPart
    | with_reducible apply State.setPage_keeps
    | with_reducible refine Keeps.fst ?_ (by assumption)
    | with_reducible apply Keeps.ite
    | with_reducible apply Keeps.forEach
    | with_reducible apply Keeps.foldl
    | split
    | extract_lets

theorem State.sharePlace_keeps {s0 s : State} (p : Nat) (r : Nat) (layer : Nat) (group : Nat) (u : SlotUse) (hK : Keeps s0 s) : Keeps s0 (State.sharePlace s p r layer group u) := by
  unfold State.sharePlace
  repeat' first
    | with_reducible assumption
    | intro _
    | with_reducible apply State.setPage_keeps
    | with_reducible refine Keeps.fst ?_ (by assumption)
    | with_reducible apply Keeps.ite
    | with_reducible apply Keeps.forEach
    | with_reducible apply Keeps.foldl
    | split
    | extract_lets

theorem State.allocSlot_keeps {s0 s : State} (p : Nat) (r : Nat) (layer : Nat) (group : Nat) (t : TileId) (hK : Keeps s0 s) : Keeps s0 (State.allocSlot s p r layer group t).1 := by
  refine KeepsP.keeps ?_
  unfold State.allocSlot
  repeat' first
    | with_reducible assumption
    | intro _
    | with_reducible apply KeepsP.ite
    | with_reducible apply Keeps.modPart
    | with_reducible apply State.settlePage_keeps
    | with_reducible apply State.startEvict_keeps
    | with_reducible apply State.dropSlot_keeps
    | with_reducible apply State.sharePlace_keeps
    | with_reducible refine Keeps.fst ?_ (by assumption)
    | with_reducible apply Keeps.ite
    | with_reducible apply Keeps.forEach
    | with_reducible apply Keeps.foldl
    | split
    | extract_lets
    | with_reducible apply KeepsP.pair

theorem State.fetchPages_keeps {s0 s : State} (p : Nat) (r : Nat) (layer : Nat) (group : Nat) (slot : Nat) (t : TileId) (fence : Bool) (i : Nat) (n : Nat) (hK : Keeps s0 s) : Keeps s0 (State.fetchPages s p r layer group slot t fence i n).1 := by
  induction n generalizing s p r layer group slot t fence i with
  | zero =>
    refine KeepsP.keeps ?_
    unfold State.fetchPages
    repeat' first
      | with_reducible assumption
      | intro _
      | with_reducible apply KeepsP.ite
      | with_reducible apply Keeps.modPart
      | with_reducible apply State.setPage_keeps
      | with_reducible apply State.pushDesc_keeps (e := by assumption)
      | with_reducible refine Keeps.fst ?_ (by assumption)
      | with_reducible apply Keeps.ite
      | with_reducible apply Keeps.forEach
      | with_reducible apply Keeps.foldl
      | split
      | extract_lets
      | with_reducible apply KeepsP.pair
  | succ n ih =>
    refine KeepsP.keeps ?_
    unfold State.fetchPages
    repeat' first
      | with_reducible assumption
      | intro _
      | with_reducible apply KeepsP.ite
      | with_reducible apply ih
      | with_reducible apply Keeps.modPart
      | with_reducible apply State.setPage_keeps
      | with_reducible apply State.pushDesc_keeps (e := by assumption)
      | with_reducible refine Keeps.fst ?_ (by assumption)
      | with_reducible apply Keeps.ite
      | with_reducible apply Keeps.forEach
      | with_reducible apply Keeps.foldl
      | split
      | extract_lets
      | with_reducible apply KeepsP.pair

theorem State.walkGroup_keeps {s0 s : State} (p : Nat) (r : Nat) (layer : Nat) (group : Nat) (t : TileId) (hK : Keeps s0 s) : Keeps s0 (State.walkGroup s p r layer group t) := by
  unfold State.walkGroup
  repeat' first
    | with_reducible assumption
    | intro _
    | with_reducible apply Keeps.modPart
    | with_reducible apply State.failReq_keeps
    | with_reducible apply State.showView_keeps
    | with_reducible apply State.allocSlot_keeps
    | with_reducible apply State.fetchPages_keeps
    | with_reducible refine Keeps.fst ?_ (by assumption)
    | with_reducible apply Keeps.ite
    | with_reducible apply Keeps.forEach
    | with_reducible apply Keeps.foldl
    | split
    | extract_lets

theorem State.retryWalks_keeps {s0 s : State} (t : TileId) (hK : Keeps s0 s) : Keeps s0 (State.retryWalks s t) := by
  unfold State.retryWalks
  repeat' first
    | with_reducible assumption
    | intro _
    | with_reducible apply State.walkGroup_keeps
    | with_reducible refine Keeps.fst ?_ (by assumption)
    | with_reducible apply Keeps.ite
    | with_reducible apply Keeps.forEach
    | with_reducible apply Keeps.foldl
    | split
    | extract_lets

theorem execTokenBoundary_keeps {s0 s u : State} (t : TileId) (hK : Keeps s0 s) (e : execTokenBoundary t s = .next u) : Keeps s0 u := by
  unfold execTokenBoundary at e
  refine guardRes_keeps ?_ e
  repeat' first
    | with_reducible assumption
    | intro _
    | with_reducible apply State.tokenBoundary_keeps
    | with_reducible apply State.retryWalks_keeps
    | with_reducible refine Keeps.fst ?_ (by assumption)
    | with_reducible apply Keeps.ite
    | with_reducible apply Keeps.forEach
    | with_reducible apply Keeps.foldl
    | split
    | extract_lets

theorem State.walkStage_keeps {s0 s : State} (p : Nat) (r : Nat) (stage : Nat) (top : Nat) (hK : Keeps s0 s) : Keeps s0 (State.walkStage s p r stage top) := by
  unfold State.walkStage
  repeat' first
    | with_reducible assumption
    | intro _
    | with_reducible apply State.spillPage_keeps
    | with_reducible apply State.walkGroup_keeps
    | with_reducible refine Keeps.fst ?_ (by assumption)
    | with_reducible apply Keeps.ite
    | with_reducible apply Keeps.forEach
    | with_reducible apply Keeps.foldl
    | split
    | extract_lets

theorem execKvWalk_keeps {s0 s u : State} (part : Nat) (req : Nat) (stage : Nat) (hK : Keeps s0 s) (e : execKvWalk part req stage s = .next u) : Keeps s0 u := by
  unfold execKvWalk at e
  refine guardRes_keeps ?_ e
  repeat' first
    | with_reducible assumption
    | intro _
    | with_reducible apply State.modReq_keeps
    | with_reducible apply State.settleLayer_keeps
    | with_reducible apply State.walkStage_keeps
    | with_reducible refine Keeps.fst ?_ (by assumption)
    | with_reducible apply Keeps.ite
    | with_reducible apply Keeps.forEach
    | with_reducible apply Keeps.foldl
    | split
    | extract_lets

theorem State.kvScales_keeps {s0 s : State} (p : Nat) (r : Nat) (layer : Nat) (head : Nat) (hK : Keeps s0 s) : Keeps s0 (State.kvScales s p r layer head).1 := by
  refine KeepsP.keeps ?_
  unfold State.kvScales
  repeat' first
    | with_reducible assumption
    | intro _
    | with_reducible apply KeepsP.ite
    | with_reducible apply State.failReq_keeps
    | with_reducible apply State.programRead_keeps
    | with_reducible refine Keeps.fst ?_ (by assumption)
    | with_reducible apply Keeps.ite
    | with_reducible apply Keeps.forEach
    | with_reducible apply Keeps.foldl
    | split
    | extract_lets
    | with_reducible apply KeepsP.pair

theorem execAttentionToken_keeps {s0 s u : State} (t : TileId) (req : Nat) (position : Nat) (maskLo : Nat) (cyclesWaited : Nat) (hK : Keeps s0 s) (e : execAttentionToken t req position maskLo cyclesWaited s = .next u) : Keeps s0 u := by
  unfold execAttentionToken at e
  refine guardRes_keeps ?_ e
  repeat' first
    | with_reducible assumption
    | intro _
    | with_reducible apply Keeps.modPart
    | with_reducible apply Keeps.odAdd
    | with_reducible apply Keeps.odAddP
    | with_reducible apply State.settleLayer_keeps
    | with_reducible refine Keeps.fst ?_ (by assumption)
    | with_reducible apply Keeps.ite
    | with_reducible apply Keeps.forEach
    | with_reducible apply Keeps.foldl
    | split
    | extract_lets

theorem State.appendKv_keeps {s0 s : State} (p : Nat) (r : Nat) (layer : Nat) (head : Nat) (a : AttnToken) (t : TileId) (scales : List (Word × Word)) (keys : List Word) (values : List Word) (hK : Keeps s0 s) : Keeps s0 (State.appendKv s p r layer head a t scales keys values) := by
  unfold State.appendKv
  repeat' first
    | with_reducible assumption
    | intro _
    | with_reducible apply Keeps.modSp
    | with_reducible apply Keeps.modPart
    | with_reducible apply Keeps.odAdd
    | with_reducible apply State.setPage_keeps
    | with_reducible apply State.showView_keeps
    | with_reducible refine Keeps.fst ?_ (by assumption)
    | with_reducible apply Keeps.ite
    | with_reducible apply Keeps.forEach
    | with_reducible apply Keeps.foldl
    | split
    | extract_lets

theorem State.attentionFails_keeps {s0 s : State} (p : Nat) (r : Nat) (layer : Nat) (t : TileId) (v : View) (kvHead : Nat) (js : List Nat) (hK : Keeps s0 s) : Keeps s0 (State.attentionFails s p r layer t v kvHead js) := by
  unfold State.attentionFails
  repeat' first
    | with_reducible assumption
    | intro _
    | with_reducible apply Keeps.modPart
    | with_reducible apply State.meetRanges_keeps
    | with_reducible apply State.failReq_keeps
    | with_reducible apply State.showView_keeps
    | with_reducible apply State.startEvict_keeps
    | with_reducible refine Keeps.fst ?_ (by assumption)
    | with_reducible apply Keeps.ite
    | with_reducible apply Keeps.forEach
    | with_reducible apply Keeps.foldl
    | split
    | extract_lets

theorem execAttentionResume_keeps {s0 s u : State} (t : TileId) (req : Nat) (head : Nat) (queries : List (List (BitVec 32))) (newKey : List (BitVec 32)) (newValue : List (BitVec 32)) (hK : Keeps s0 s) (e : execAttentionResume t req head queries newKey newValue s = .next u) : Keeps s0 u := by
  unfold execAttentionResume at e
  refine guardRes_keeps ?_ e
  repeat' first
    | with_reducible assumption
    | intro _
    | with_reducible apply Keeps.modPart
    | with_reducible apply State.kvScales_keeps
    | with_reducible apply State.appendKv_keeps
    | with_reducible apply State.attentionFails_keeps
    | with_reducible refine Keeps.fst ?_ (by assumption)
    | with_reducible apply Keeps.ite
    | with_reducible apply Keeps.forEach
    | with_reducible apply Keeps.foldl
    | split
    | extract_lets

theorem execAttentionMerge_keeps {s0 s u : State} (t : TileId) (req : Nat) (head : Nat) (tree : MergeTree) (out : Requant) (hK : Keeps s0 s) (e : execAttentionMerge t req head tree out s = .next u) : Keeps s0 u := by
  unfold execAttentionMerge at e
  refine guardRes_keeps ?_ e
  repeat' first
    | with_reducible assumption
    | intro _
    | with_reducible apply Keeps.modPart
    | with_reducible apply State.kvScales_keeps
    | with_reducible refine Keeps.fst ?_ (by assumption)
    | with_reducible apply Keeps.ite
    | with_reducible apply Keeps.forEach
    | with_reducible apply Keeps.foldl
    | split
    | extract_lets

theorem State.putTree_keeps {s0 s : State} (p : Nat) (off : Nat) (bs : List Byte) (hK : Keeps s0 s) : Keeps s0 (State.putTree s p off bs) := by
  unfold State.putTree
  repeat' first
    | with_reducible assumption
    | intro _
    | with_reducible apply State.stackWrite_keeps
    | with_reducible refine Keeps.fst ?_ (by assumption)
    | with_reducible apply Keeps.ite
    | with_reducible apply Keeps.forEach
    | with_reducible apply Keeps.foldl
    | split
    | extract_lets

theorem State.showNode_keeps {s0 s : State} (p : Nat) (n : Nat) (hK : Keeps s0 s) : Keeps s0 (State.showNode s p n) := by
  unfold State.showNode
  repeat' first
    | with_reducible assumption
    | intro _
    | with_reducible apply State.putTree_keeps
    | with_reducible refine Keeps.fst ?_ (by assumption)
    | with_reducible apply Keeps.ite
    | with_reducible apply Keeps.forEach
    | with_reducible apply Keeps.foldl
    | split
    | extract_lets

theorem State.showTree_keeps {s0 s : State} (p : Nat) (hK : Keeps s0 s) : Keeps s0 (State.showTree s p) := by
  unfold State.showTree
  repeat' first
    | with_reducible assumption
    | intro _
    | with_reducible apply State.putTree_keeps
    | with_reducible apply State.showNode_keeps
    | with_reducible refine Keeps.fst ?_ (by assumption)
    | with_reducible apply Keeps.ite
    | with_reducible apply Keeps.forEach
    | with_reducible apply Keeps.foldl
    | split
    | extract_lets

theorem State.modNode_keeps {s0 s : State} (p : Nat) (n : Nat) (f : PrefixNode → PrefixNode) (hK : Keeps s0 s) : Keeps s0 (State.modNode s p n f) := by
  unfold State.modNode
  repeat' first
    | with_reducible assumption
    | intro _
    | with_reducible apply Keeps.modPart
    | with_reducible refine Keeps.fst ?_ (by assumption)
    | with_reducible apply Keeps.ite
    | with_reducible apply Keeps.forEach
    | with_reducible apply Keeps.foldl
    | split
    | extract_lets

theorem State.dropNode_keeps {s0 s : State} (p : Nat) (n : Nat) (hK : Keeps s0 s) : Keeps s0 (State.dropNode s p n) := by
  unfold State.dropNode
  repeat' first
    | with_reducible assumption
    | intro _
    | with_reducible apply Keeps.modPart
    | with_reducible apply Keeps.odAdd
    | with_reducible apply State.showNode_keeps
    | with_reducible apply State.showTree_keeps
    | with_reducible refine Keeps.fst ?_ (by assumption)
    | with_reducible apply Keeps.ite
    | with_reducible apply Keeps.forEach
    | with_reducible apply Keeps.foldl
    | split
    | extract_lets

theorem State.reapNode_keeps {s0 s : State} (p : Nat) (n : Nat) (hK : Keeps s0 s) : Keeps s0 (State.reapNode s p n) := by
  unfold State.reapNode
  repeat' first
    | with_reducible assumption
    | intro _
    | with_reducible apply State.dropNode_keeps
    | with_reducible refine Keeps.fst ?_ (by assumption)
    | with_reducible apply Keeps.ite
    | with_reducible apply Keeps.forEach
    | with_reducible apply Keeps.foldl
    | split
    | extract_lets

theorem State.prefixUnreachable_keeps {s0 s : State} (p : Nat) (hK : Keeps s0 s) : Keeps s0 (State.prefixUnreachable s p) := by
  unfold State.prefixUnreachable
  repeat' first
    | with_reducible assumption
    | intro _
    | with_reducible apply Keeps.modPart
    | with_reducible apply State.countServing_keeps
    | with_reducible apply State.showTree_keeps
    | with_reducible apply State.reapNode_keeps
    | with_reducible refine Keeps.fst ?_ (by assumption)
    | with_reducible apply Keeps.ite
    | with_reducible apply Keeps.forEach
    | with_reducible apply Keeps.foldl
    | split
    | extract_lets

theorem State.releaseNodes_keeps {s0 s : State} (p : Nat) (l : List Nat) (hK : Keeps s0 s) : Keeps s0 (State.releaseNodes s p l) := by
  unfold State.releaseNodes
  repeat' first
    | with_reducible assumption
    | intro _
    | with_reducible apply State.showNode_keeps
    | with_reducible apply State.modNode_keeps
    | with_reducible apply State.reapNode_keeps
    | with_reducible refine Keeps.fst ?_ (by assumption)
    | with_reducible apply Keeps.ite
    | with_reducible apply Keeps.forEach
    | with_reducible apply Keeps.foldl
    | split
    | extract_lets

theorem State.holdNode_keeps {s0 s : State} (p : Nat) (n : Nat) (hK : Keeps s0 s) : Keeps s0 (State.holdNode s p n) := by
  unfold State.holdNode
  repeat' first
    | with_reducible assumption
    | intro _
    | with_reducible apply State.showNode_keeps
    | with_reducible apply State.modNode_keeps
    | with_reducible refine Keeps.fst ?_ (by assumption)
    | with_reducible apply Keeps.ite
    | with_reducible apply Keeps.forEach
    | with_reducible apply Keeps.foldl
    | split
    | extract_lets

theorem State.takeNodes_keeps {s0 s : State} (p : Nat) (r : Nat) (l : List Nat) (hK : Keeps s0 s) : Keeps s0 (State.takeNodes s p r l) := by
  unfold State.takeNodes
  repeat' first
    | with_reducible assumption
    | intro _
    | with_reducible apply Keeps.odAdd
    | with_reducible apply State.modReq_keeps
    | with_reducible apply State.holdNode_keeps
    | with_reducible refine Keeps.fst ?_ (by assumption)
    | with_reducible apply Keeps.ite
    | with_reducible apply Keeps.forEach
    | with_reducible apply Keeps.foldl
    | split
    | extract_lets

theorem State.freeNode_keeps {s0 s u : State} {x : Nat} (p : Nat) (h : Keeps s0 s) (e : s.freeNode p = some (u, x)) :
    Keeps s0 u := by
  unfold State.freeNode at e
  split at e
  · cases e; exact h
  · split at e
    · cases e
    · obtain ⟨n, _, hn⟩ := Option.map_eq_some_iff.1 e
      injection hn with h1 _
      rw [← h1]
      exact State.dropNode_keeps _ _ h

theorem State.sharePages_keeps {s0 s : State} (p : Nat) (r : Nat) (group : Nat) (node : Nat) (hK : Keeps s0 s) : Keeps s0 (State.sharePages s p r group node) := by
  unfold State.sharePages
  repeat' first
    | with_reducible assumption
    | intro _
    | with_reducible apply State.modReq_keeps
    | with_reducible apply State.showPages_keeps
    | with_reducible refine Keeps.fst ?_ (by assumption)
    | with_reducible apply Keeps.ite
    | with_reducible apply Keeps.forEach
    | with_reducible apply Keeps.foldl
    | split
    | extract_lets

theorem State.modJob_keeps {s0 s : State} (p : Nat) (r : Nat) (group : Nat) (f : PrefixJob → PrefixJob) (hK : Keeps s0 s) : Keeps s0 (State.modJob s p r group f) := by
  unfold State.modJob
  repeat' first
    | with_reducible assumption
    | intro _
    | with_reducible apply Keeps.modPart
    | with_reducible refine Keeps.fst ?_ (by assumption)
    | with_reducible apply Keeps.ite
    | with_reducible apply Keeps.forEach
    | with_reducible apply Keeps.foldl
    | split
    | extract_lets

theorem State.endJob_keeps {s0 s : State} (p : Nat) (r : Nat) (group : Nat) (hK : Keeps s0 s) : Keeps s0 (State.endJob s p r group) := by
  unfold State.endJob
  repeat' first
    | with_reducible assumption
    | intro _
    | with_reducible apply Keeps.modPart
    | with_reducible refine Keeps.fst ?_ (by assumption)
    | with_reducible apply Keeps.ite
    | with_reducible apply Keeps.forEach
    | with_reducible apply Keeps.foldl
    | split
    | extract_lets

theorem State.settleJob_keeps {s0 s : State} (p : Nat) (r : Nat) (group : Nat) (hK : Keeps s0 s) : Keeps s0 (State.settleJob s p r group) := by
  unfold State.settleJob
  repeat' first
    | with_reducible assumption
    | intro _
    | with_reducible apply State.modJob_keeps
    | with_reducible refine Keeps.fst ?_ (by assumption)
    | with_reducible apply Keeps.ite
    | with_reducible apply Keeps.forEach
    | with_reducible apply Keeps.foldl
    | split
    | extract_lets

theorem State.sendPages_keeps {s0 s : State} (p : Nat) (r : Nat) (group : Nat) (l : List (Nat × Nat)) (hK : Keeps s0 s) : Keeps s0 (State.sendPages s p r group l) := by
  induction l generalizing s p r group with
  | nil =>
    unfold State.sendPages
    repeat' first
      | with_reducible assumption
      | intro _
      | with_reducible apply State.pushDesc_keeps (e := by assumption)
      | with_reducible apply State.modJob_keeps
      | with_reducible refine Keeps.fst ?_ (by assumption)
      | with_reducible apply Keeps.ite
      | with_reducible apply Keeps.forEach
      | with_reducible apply Keeps.foldl
      | split
      | extract_lets
  | cons a r ih =>
    unfold State.sendPages
    repeat' first
      | with_reducible assumption
      | intro _
      | with_reducible apply ih
      | with_reducible apply State.pushDesc_keeps (e := by assumption)
      | with_reducible apply State.modJob_keeps
      | with_reducible refine Keeps.fst ?_ (by assumption)
      | with_reducible apply Keeps.ite
      | with_reducible apply Keeps.forEach
      | with_reducible apply Keeps.foldl
      | split
      | extract_lets

theorem State.finishJob_keeps {s0 s : State} (p : Nat) (r : Nat) (group : Nat) (hK : Keeps s0 s) : Keeps s0 (State.finishJob s p r group) := by
  unfold State.finishJob
  repeat' first
    | with_reducible assumption
    | intro _
    | with_reducible apply Keeps.modPart
    | with_reducible apply Keeps.odAdd
    | with_reducible apply State.showTree_keeps
    | with_reducible apply State.modNode_keeps
    | with_reducible apply State.dropNode_keeps
    | with_reducible apply State.holdNode_keeps
    | with_reducible apply State.sharePages_keeps
    | with_reducible apply State.endJob_keeps
    | with_reducible refine Keeps.fst ?_ (by assumption)
    | with_reducible apply Keeps.ite
    | with_reducible apply Keeps.forEach
    | with_reducible apply Keeps.foldl
    | split
    | extract_lets

theorem State.pumpJobs_keeps {s0 s : State} (p : Nat) (r : Nat) (hK : Keeps s0 s) : Keeps s0 (State.pumpJobs s p r) := by
  unfold State.pumpJobs
  repeat' first
    | with_reducible assumption
    | intro _
    | with_reducible apply State.countServing_keeps
    | with_reducible apply State.settleJob_keeps
    | with_reducible apply State.sendPages_keeps
    | with_reducible apply State.finishJob_keeps
    | with_reducible refine Keeps.fst ?_ (by assumption)
    | with_reducible apply Keeps.ite
    | with_reducible apply Keeps.forEach
    | with_reducible apply Keeps.foldl
    | split
    | extract_lets

theorem State.newNode_keeps {s0 s : State} (p : Nat) (r : Nat) (group : Nat) (n : Nat) (x : Request) (hK : Keeps s0 s) : Keeps s0 (State.newNode s p r group n x) := by
  unfold State.newNode
  repeat' first
    | with_reducible assumption
    | intro _
    | with_reducible apply Keeps.modPart
    | with_reducible apply State.putTree_keeps
    | with_reducible apply State.showNode_keeps
    | with_reducible apply State.showTree_keeps
    | with_reducible refine Keeps.fst ?_ (by assumption)
    | with_reducible apply Keeps.ite
    | with_reducible apply Keeps.forEach
    | with_reducible apply Keeps.foldl
    | split
    | extract_lets

theorem execPrefixInsert_keeps {s0 s u : State} (part : Nat) (req : Nat) (group : Nat) (hK : Keeps s0 s) (e : execPrefixInsert part req group s = .next u) : Keeps s0 u := by
  unfold execPrefixInsert at e
  refine guardRes_keeps ?_ e
  repeat' first
    | with_reducible assumption
    | intro _
    | with_reducible apply Keeps.odAdd
    | with_reducible apply State.countServing_keeps
    | with_reducible apply State.settleRequest_keeps
    | with_reducible apply State.holdNode_keeps
    | with_reducible apply State.freeNode_keeps (e := by assumption)
    | with_reducible apply State.sharePages_keeps
    | with_reducible apply State.pumpJobs_keeps
    | with_reducible apply State.newNode_keeps
    | with_reducible refine Keeps.fst ?_ (by assumption)
    | with_reducible apply Keeps.ite
    | with_reducible apply Keeps.forEach
    | with_reducible apply Keeps.foldl
    | split
    | extract_lets

theorem State.freeRequest_keeps {s0 s : State} (p : Nat) (r : Nat) (hK : Keeps s0 s) : Keeps s0 (State.freeRequest s p r) := by
  unfold State.freeRequest
  repeat' first
    | with_reducible assumption
    | intro _
    | with_reducible apply Keeps.modPart
    | with_reducible apply State.postRecord_keeps
    | with_reducible apply State.modReq_keeps
    | with_reducible apply State.countServing_keeps
    | with_reducible apply State.answer_keeps
    | with_reducible apply State.dropNode_keeps
    | with_reducible apply State.releaseNodes_keeps
    | with_reducible apply State.endJob_keeps
    | with_reducible refine Keeps.fst ?_ (by assumption)
    | with_reducible apply Keeps.ite
    | with_reducible apply Keeps.forEach
    | with_reducible apply Keeps.foldl
    | split
    | extract_lets

theorem execRequestFree_keeps {s0 s u : State} (part : Nat) (req : Nat) (hK : Keeps s0 s) (e : execRequestFree part req s = .next u) : Keeps s0 u := by
  unfold execRequestFree at e
  refine guardRes_keeps ?_ e
  repeat' first
    | with_reducible assumption
    | intro _
    | with_reducible apply State.settleRequest_keeps
    | with_reducible apply State.pumpJobs_keeps
    | with_reducible apply State.freeRequest_keeps
    | with_reducible refine Keeps.fst ?_ (by assumption)
    | with_reducible apply Keeps.ite
    | with_reducible apply Keeps.forEach
    | with_reducible apply Keeps.foldl
    | split
    | extract_lets

end Sys2Proof.Machine
end

