-- ==== Sys2Proof/Laws/KeepsServing.lean ====
section
/-!
SUPPORT. Every operation of Machine/Serving.lean keeps what `Keeps` says.
-/

namespace Sys2Proof.Machine

theorem State.refuseReq_keeps {s0 s : State} (p : Nat) (r : Nat) (code : Nat) (detail : Nat) (hK : Keeps s0 s) : Keeps s0 (State.refuseReq s p r code detail) := by
  unfold State.refuseReq
  repeat' first
    | with_reducible assumption
    | intro _
    | with_reducible apply Keeps.modPart
    | with_reducible apply Keeps.odAdd
    | with_reducible apply State.countServing_keeps
    | with_reducible apply State.answer_keeps
    | with_reducible apply State.releaseNodes_keeps
    | with_reducible refine Keeps.fst ?_ (by assumption)
    | with_reducible apply Keeps.ite
    | with_reducible apply Keeps.forEach
    | with_reducible apply Keeps.foldl
    | split
    | extract_lets

theorem State.giveFrames_keeps {s0 s : State} (p : Nat) (r : Nat) (hK : Keeps s0 s) : Keeps s0 (State.giveFrames s p r) := by
  unfold State.giveFrames
  repeat' first
    | with_reducible assumption
    | intro _
    | with_reducible apply State.modReq_keeps
    | with_reducible apply State.showPages_keeps
    | with_reducible refine Keeps.fst ?_ (by assumption)
    | with_reducible apply Keeps.ite
    | with_reducible apply Keeps.forEach
    | with_reducible apply Keeps.foldl
    | split
    | extract_lets

theorem State.admitSpace_keeps {s0 s : State} (p : Nat) (r : Nat) (hK : Keeps s0 s) : Keeps s0 (State.admitSpace s p r) := by
  unfold State.admitSpace
  repeat' first
    | with_reducible assumption
    | intro _
    | with_reducible apply Keeps.modPart
    | with_reducible apply Keeps.odAdd
    | with_reducible apply State.modReq_keeps
    | with_reducible apply State.countServing_keeps
    | with_reducible apply State.refuseReq_keeps
    | with_reducible apply State.giveFrames_keeps
    | with_reducible refine Keeps.fst ?_ (by assumption)
    | with_reducible apply Keeps.ite
    | with_reducible apply Keeps.forEach
    | with_reducible apply Keeps.foldl
    | split
    | extract_lets

theorem State.admitMatch_keeps {s0 s : State} (p : Nat) (r : Nat) (hK : Keeps s0 s) : Keeps s0 (State.admitMatch s p r) := by
  unfold State.admitMatch
  repeat' first
    | with_reducible assumption
    | intro _
    | with_reducible apply Keeps.odAdd
    | with_reducible apply State.takeNodes_keeps
    | with_reducible apply State.refuseReq_keeps
    | with_reducible apply State.admitSpace_keeps
    | with_reducible refine Keeps.fst ?_ (by assumption)
    | with_reducible apply Keeps.ite
    | with_reducible apply Keeps.forEach
    | with_reducible apply Keeps.foldl
    | split
    | extract_lets

theorem State.promptIds_keeps {s0 s : State} (p : Nat) (r : Nat) (ids : List Nat) (hK : Keeps s0 s) : Keeps s0 (State.promptIds s p r ids) := by
  unfold State.promptIds
  repeat' first
    | with_reducible assumption
    | intro _
    | with_reducible apply State.modReq_keeps
    | with_reducible apply State.showIds_keeps
    | with_reducible apply State.refuseReq_keeps
    | with_reducible apply State.admitMatch_keeps
    | with_reducible refine Keeps.fst ?_ (by assumption)
    | with_reducible apply Keeps.ite
    | with_reducible apply Keeps.forEach
    | with_reducible apply Keeps.foldl
    | split
    | extract_lets

theorem State.promptFails_keeps {s0 s : State} (p : Nat) (r : Nat) (code : Nat) (hK : Keeps s0 s) : Keeps s0 (State.promptFails s p r code) := by
  unfold State.promptFails
  repeat' first
    | with_reducible assumption
    | intro _
    | with_reducible apply State.refuseReq_keeps
    | with_reducible refine Keeps.fst ?_ (by assumption)
    | with_reducible apply Keeps.ite
    | with_reducible apply Keeps.forEach
    | with_reducible apply Keeps.foldl
    | split
    | extract_lets

theorem State.readPrompt_keeps {s0 s : State} (p : Nat) (r : Nat) (x : Request) (hK : Keeps s0 s) : Keeps s0 (State.readPrompt s p r x) := by
  unfold State.readPrompt
  repeat' first
    | with_reducible assumption
    | intro _
    | with_reducible apply Keeps.emit
    | with_reducible apply State.stackRead_keeps
    | with_reducible apply State.promptIds_keeps
    | with_reducible apply State.promptFails_keeps
    | with_reducible refine Keeps.fst ?_ (by assumption)
    | with_reducible apply Keeps.ite
    | with_reducible apply Keeps.forEach
    | with_reducible apply Keeps.foldl
    | split
    | extract_lets

theorem State.submitDesc_keeps {s0 s : State} (p : Nat) (d : List Byte) (hK : Keeps s0 s) : Keeps s0 (State.submitDesc s p d) := by
  unfold State.submitDesc
  repeat' first
    | with_reducible assumption
    | intro _
    | with_reducible apply Keeps.modPart
    | with_reducible apply Keeps.odAdd
    | with_reducible apply State.countServing_keeps
    | with_reducible apply State.answer_keeps
    | with_reducible apply State.readPrompt_keeps
    | with_reducible refine Keeps.fst ?_ (by assumption)
    | with_reducible apply Keeps.ite
    | with_reducible apply Keeps.forEach
    | with_reducible apply Keeps.foldl
    | split
    | extract_lets

theorem State.cancelDesc_keeps {s0 s : State} (p : Nat) (d : List Byte) (hK : Keeps s0 s) : Keeps s0 (State.cancelDesc s p d) := by
  unfold State.cancelDesc
  repeat' first
    | with_reducible assumption
    | intro _
    | with_reducible apply Keeps.modPart
    | with_reducible apply State.answer_keeps
    | with_reducible refine Keeps.fst ?_ (by assumption)
    | with_reducible apply Keeps.ite
    | with_reducible apply Keeps.forEach
    | with_reducible apply Keeps.foldl
    | split
    | extract_lets

theorem State.takeDesc_keeps {s0 s : State} (p : Nat) (d : List Byte) (hK : Keeps s0 s) : Keeps s0 (State.takeDesc s p d) := by
  unfold State.takeDesc
  repeat' first
    | with_reducible assumption
    | intro _
    | with_reducible apply State.modVf_keeps
    | with_reducible refine Keeps.fst ?_ (by assumption)
    | with_reducible apply Keeps.ite
    | with_reducible apply Keeps.forEach
    | with_reducible apply Keeps.foldl
    | split
    | extract_lets

theorem execSubmit_keeps {s0 s u : State} (part : Nat) (desc : List Byte) (hK : Keeps s0 s) (e : execSubmit part desc s = .next u) : Keeps s0 u := by
  unfold execSubmit at e
  refine guardRes_keeps ?_ e
  repeat' first
    | with_reducible assumption
    | intro _
    | with_reducible apply State.submitDesc_keeps
    | with_reducible apply State.takeDesc_keeps
    | with_reducible refine Keeps.fst ?_ (by assumption)
    | with_reducible apply Keeps.ite
    | with_reducible apply Keeps.forEach
    | with_reducible apply Keeps.foldl
    | split
    | extract_lets

theorem execPromptReadComplete_keeps {s0 s u : State} (part : Nat) (req : Nat) (ids : List Nat) (failCode : Nat) (hK : Keeps s0 s) (e : execPromptReadComplete part req ids failCode s = .next u) : Keeps s0 u := by
  unfold execPromptReadComplete at e
  refine guardRes_keeps ?_ e
  repeat' first
    | with_reducible assumption
    | intro _
    | with_reducible apply State.promptIds_keeps
    | with_reducible apply State.promptFails_keeps
    | with_reducible refine Keeps.fst ?_ (by assumption)
    | with_reducible apply Keeps.ite
    | with_reducible apply Keeps.forEach
    | with_reducible apply Keeps.foldl
    | split
    | extract_lets

theorem execCancel_keeps {s0 s u : State} (part : Nat) (desc : List Byte) (hK : Keeps s0 s) (e : execCancel part desc s = .next u) : Keeps s0 u := by
  unfold execCancel at e
  refine guardRes_keeps ?_ e
  repeat' first
    | with_reducible assumption
    | intro _
    | with_reducible apply State.cancelDesc_keeps
    | with_reducible apply State.takeDesc_keeps
    | with_reducible refine Keeps.fst ?_ (by assumption)
    | with_reducible apply Keeps.ite
    | with_reducible apply Keeps.forEach
    | with_reducible apply Keeps.foldl
    | split
    | extract_lets

theorem State.passDone_keeps {s0 s : State} (p : Nat) (r : Nat) (x : Request) (time : Nat) (hK : Keeps s0 s) : Keeps s0 (State.passDone s p r x time) := by
  unfold State.passDone
  repeat' first
    | with_reducible assumption
    | intro _
    | with_reducible apply Keeps.modPart
    | with_reducible apply Keeps.odSetP
    | with_reducible apply State.modReq_keeps
    | with_reducible refine Keeps.fst ?_ (by assumption)
    | with_reducible apply Keeps.ite
    | with_reducible apply Keeps.forEach
    | with_reducible apply Keeps.foldl
    | split
    | extract_lets

theorem State.takeToken_keeps {s0 s : State} (p : Nat) (r : Nat) (x : Request) (k : Sampled) (hK : Keeps s0 s) : Keeps s0 (State.takeToken s p r x k) := by
  unfold State.takeToken
  repeat' first
    | with_reducible assumption
    | intro _
    | with_reducible apply Keeps.odAdd
    | with_reducible apply Keeps.odAddP
    | with_reducible apply State.postRecord_keeps
    | with_reducible apply State.modReq_keeps
    | with_reducible apply State.endRequest_keeps
    | with_reducible apply State.showIds_keeps
    | with_reducible refine Keeps.fst ?_ (by assumption)
    | with_reducible apply Keeps.ite
    | with_reducible apply Keeps.forEach
    | with_reducible apply Keeps.foldl
    | split
    | extract_lets

theorem State.takeSampled_keeps {s0 s : State} (p : Nat) (k : Sampled) (hK : Keeps s0 s) : Keeps s0 (State.takeSampled s p k) := by
  unfold State.takeSampled
  repeat' first
    | with_reducible assumption
    | intro _
    | with_reducible apply State.modReq_keeps
    | with_reducible apply State.passDone_keeps
    | with_reducible apply State.takeToken_keeps
    | with_reducible refine Keeps.fst ?_ (by assumption)
    | with_reducible apply Keeps.ite
    | with_reducible apply Keeps.forEach
    | with_reducible apply Keeps.foldl
    | split
    | extract_lets

theorem State.endErrors_keeps {s0 s : State} (p : Nat) (hK : Keeps s0 s) : Keeps s0 (State.endErrors s p) := by
  unfold State.endErrors
  repeat' first
    | with_reducible assumption
    | intro _
    | with_reducible apply State.endRequest_keeps
    | with_reducible refine Keeps.fst ?_ (by assumption)
    | with_reducible apply Keeps.ite
    | with_reducible apply Keeps.forEach
    | with_reducible apply Keeps.foldl
    | split
    | extract_lets

theorem State.endDeadlines_keeps {s0 s : State} (p : Nat) (hK : Keeps s0 s) : Keeps s0 (State.endDeadlines s p) := by
  unfold State.endDeadlines
  repeat' first
    | with_reducible assumption
    | intro _
    | with_reducible apply Keeps.odAdd
    | with_reducible apply State.endRequest_keeps
    | with_reducible refine Keeps.fst ?_ (by assumption)
    | with_reducible apply Keeps.ite
    | with_reducible apply Keeps.forEach
    | with_reducible apply Keeps.foldl
    | split
    | extract_lets

theorem State.endAtBoundary_keeps {s0 s : State} (p : Nat) (hK : Keeps s0 s) : Keeps s0 (State.endAtBoundary s p) := by
  unfold State.endAtBoundary
  repeat' first
    | with_reducible assumption
    | intro _
    | with_reducible apply Keeps.modPart
    | with_reducible apply State.endRequest_keeps
    | with_reducible apply State.refuseReq_keeps
    | with_reducible refine Keeps.fst ?_ (by assumption)
    | with_reducible apply Keeps.ite
    | with_reducible apply Keeps.forEach
    | with_reducible apply Keeps.foldl
    | split
    | extract_lets

theorem State.applyCancel_keeps {s0 s : State} (p : Nat) (c : Nat × List Byte) (hK : Keeps s0 s) : Keeps s0 (State.applyCancel s p c) := by
  unfold State.applyCancel
  repeat' first
    | with_reducible assumption
    | intro _
    | with_reducible apply Keeps.modPart
    | with_reducible apply Keeps.odAdd
    | with_reducible apply State.modReq_keeps
    | with_reducible apply State.endRequest_keeps
    | with_reducible apply State.answer_keeps
    | with_reducible refine Keeps.fst ?_ (by assumption)
    | with_reducible apply Keeps.ite
    | with_reducible apply Keeps.forEach
    | with_reducible apply Keeps.foldl
    | split
    | extract_lets

theorem State.readRing_keeps {s0 s : State} (p : Nat) (limit : Nat) (fuel : Nat) (hK : Keeps s0 s) : Keeps s0 (State.readRing s p limit fuel) := by
  induction fuel generalizing s p limit with
  | zero =>
    unfold State.readRing
    repeat' first
      | with_reducible assumption
      | intro _
      | with_reducible apply State.submitDesc_keeps
      | with_reducible apply State.cancelDesc_keeps
      | with_reducible apply State.takeDesc_keeps
      | with_reducible refine Keeps.fst ?_ (by assumption)
      | with_reducible apply Keeps.ite
      | with_reducible apply Keeps.forEach
      | with_reducible apply Keeps.foldl
      | split
      | extract_lets
  | succ n ih =>
    unfold State.readRing
    repeat' first
      | with_reducible assumption
      | intro _
      | with_reducible apply ih
      | with_reducible apply State.submitDesc_keeps
      | with_reducible apply State.cancelDesc_keeps
      | with_reducible apply State.takeDesc_keeps
      | with_reducible refine Keeps.fst ?_ (by assumption)
      | with_reducible apply Keeps.ite
      | with_reducible apply Keeps.forEach
      | with_reducible apply Keeps.foldl
      | split
      | extract_lets

theorem State.promote_keeps {s0 s : State} (p : Nat) (fuel : Nat) (hK : Keeps s0 s) : Keeps s0 (State.promote s p fuel) := by
  induction fuel generalizing s p with
  | zero =>
    unfold State.promote
    repeat' first
      | with_reducible assumption
      | intro _
      | with_reducible apply State.modReq_keeps
      | with_reducible refine Keeps.fst ?_ (by assumption)
      | with_reducible apply Keeps.ite
      | with_reducible apply Keeps.forEach
      | with_reducible apply Keeps.foldl
      | split
      | extract_lets
  | succ n ih =>
    unfold State.promote
    repeat' first
      | with_reducible assumption
      | intro _
      | with_reducible apply ih
      | with_reducible apply State.modReq_keeps
      | with_reducible refine Keeps.fst ?_ (by assumption)
      | with_reducible apply Keeps.ite
      | with_reducible apply Keeps.forEach
      | with_reducible apply Keeps.foldl
      | split
      | extract_lets

theorem State.releaseOne_keeps {s0 s : State} (p : Nat) (r : Nat) (hK : Keeps s0 s) : Keeps s0 (State.releaseOne s p r) := by
  unfold State.releaseOne
  repeat' first
    | with_reducible assumption
    | intro _
    | with_reducible apply Keeps.modPart
    | with_reducible apply State.modReq_keeps
    | with_reducible refine Keeps.fst ?_ (by assumption)
    | with_reducible apply Keeps.ite
    | with_reducible apply Keeps.forEach
    | with_reducible apply Keeps.foldl
    | split
    | extract_lets

theorem State.measureStep_keeps {s0 s : State} (p : Nat) (hK : Keeps s0 s) : Keeps s0 (State.measureStep s p) := by
  unfold State.measureStep
  repeat' first
    | with_reducible assumption
    | intro _
    | with_reducible apply Keeps.modPart
    | with_reducible apply Keeps.odSetP
    | with_reducible refine Keeps.fst ?_ (by assumption)
    | with_reducible apply Keeps.ite
    | with_reducible apply Keeps.forEach
    | with_reducible apply Keeps.foldl
    | split
    | extract_lets

theorem execStepBoundary_keeps {s0 s u : State} (part : Nat) (tokens : List Sampled) (hK : Keeps s0 s) (e : execStepBoundary part tokens s = .next u) : Keeps s0 u := by
  unfold execStepBoundary at e
  refine guardRes_keeps ?_ e
  repeat' first
    | with_reducible assumption
    | intro _
    | with_reducible apply Keeps.modPart
    | with_reducible apply State.countServing_keeps
    | with_reducible apply State.takeSampled_keeps
    | with_reducible apply State.endErrors_keeps
    | with_reducible apply State.endDeadlines_keeps
    | with_reducible apply State.endAtBoundary_keeps
    | with_reducible apply State.applyCancel_keeps
    | with_reducible apply State.readRing_keeps
    | with_reducible apply State.promote_keeps
    | with_reducible apply State.releaseOne_keeps
    | with_reducible apply State.measureStep_keeps
    | with_reducible refine Keeps.fst ?_ (by assumption)
    | with_reducible apply Keeps.ite
    | with_reducible apply Keeps.forEach
    | with_reducible apply Keeps.foldl
    | split
    | extract_lets

end Sys2Proof.Machine
end

