-- ==== Sys2Proof/Laws/KeepsFieldOps.lean ====
section
/-!
SUPPORT. Every operation of Machine/FieldOps.lean keeps what `Keeps` says.
-/

namespace Sys2Proof.Machine

theorem State.odReset_keeps {s0 s : State} (drop : OdRow → Nat → Nat → Bool) (hK : Keeps s0 s) :
    Keeps s0 (State.odReset s drop) := by
  unfold State.odReset
  extract_lets keep
  exact hK.same rfl rfl rfl (fun c =>
    ⟨c.1, c.2, c.3, c.4, c.5, c.6, filter_rising _ _ c.7, filter_rising _ _ c.8, c.9, c.10, c.11⟩)

theorem State.odResetPart_keeps {s0 s : State} (p : Nat) (hK : Keeps s0 s) : Keeps s0 (State.odResetPart s p) := by
  unfold State.odResetPart
  repeat' first
    | with_reducible assumption
    | intro _
    | with_reducible apply State.odReset_keeps
    | with_reducible refine Keeps.fst ?_ (by assumption)
    | with_reducible apply Keeps.ite
    | with_reducible apply Keeps.forEach
    | with_reducible apply Keeps.foldl
    | split
    | extract_lets

theorem State.endHeld_keeps {s0 s : State} (p : Nat) (code : Nat) (cancelCode : Nat) (hK : Keeps s0 s) : Keeps s0 (State.endHeld s p code cancelCode) := by
  unfold State.endHeld
  repeat' first
    | with_reducible assumption
    | intro _
    | with_reducible apply Keeps.modPart
    | with_reducible apply State.modReq_keeps
    | with_reducible apply State.endRequest_keeps
    | with_reducible apply State.answer_keeps
    | with_reducible apply State.freeRequest_keeps
    | with_reducible apply State.refuseReq_keeps
    | with_reducible refine Keeps.fst ?_ (by assumption)
    | with_reducible apply Keeps.ite
    | with_reducible apply Keeps.forEach
    | with_reducible apply Keeps.foldl
    | split
    | extract_lets

theorem State.stopTile_keeps {s0 s : State} (t : TileId) (hK : Keeps s0 s) : Keeps s0 (State.stopTile s t) := by
  unfold State.stopTile
  repeat' first
    | with_reducible assumption
    | intro _
    | with_reducible apply Keeps.modTile
    | with_reducible apply Keeps.modRouter
    | with_reducible refine Keeps.fst ?_ (by assumption)
    | with_reducible apply Keeps.ite
    | with_reducible apply Keeps.forEach
    | with_reducible apply Keeps.foldl
    | split
    | extract_lets

theorem State.dropRoutes_keeps {s0 s : State} (p : Nat) (hK : Keeps s0 s) : Keeps s0 (State.dropRoutes s p) := by
  unfold State.dropRoutes
  repeat' first
    | with_reducible assumption
    | intro _
    | with_reducible apply Keeps.modRouter
    | with_reducible refine Keeps.fst ?_ (by assumption)
    | with_reducible apply Keeps.ite
    | with_reducible apply Keeps.forEach
    | with_reducible apply Keeps.foldl
    | split
    | extract_lets
    | fail_if_no_progress (with_reducible apply Keeps.mesh)

theorem State.countPadded_keeps {s0 s : State} (hK : Keeps s0 s) : Keeps s0 (State.countPadded s) := by
  unfold State.countPadded
  repeat' first
    | with_reducible assumption
    | intro _
    | with_reducible apply Keeps.odSet
    | with_reducible refine Keeps.fst ?_ (by assumption)
    | with_reducible apply Keeps.ite
    | with_reducible apply Keeps.forEach
    | with_reducible apply Keeps.foldl
    | split
    | extract_lets

theorem State.unload_keeps {s0 s : State} (p : Nat) (hK : Keeps s0 s) : Keeps s0 (State.unload s p) := by
  unfold State.unload
  repeat' first
    | with_reducible assumption
    | intro _
    | with_reducible apply Keeps.modPart
    | with_reducible apply Keeps.odSetP
    | with_reducible apply State.stopTile_keeps
    | with_reducible apply State.dropRoutes_keeps
    | with_reducible apply State.countPadded_keeps
    | with_reducible refine Keeps.fst ?_ (by assumption)
    | with_reducible apply Keeps.ite
    | with_reducible apply Keeps.forEach
    | with_reducible apply Keeps.foldl
    | split
    | extract_lets

theorem State.stopServing_keeps {s0 s : State} (p : Nat) (hK : Keeps s0 s) : Keeps s0 (State.stopServing s p) := by
  unfold State.stopServing
  repeat' first
    | with_reducible assumption
    | intro _
    | with_reducible apply Keeps.modPart
    | with_reducible refine Keeps.fst ?_ (by assumption)
    | with_reducible apply Keeps.ite
    | with_reducible apply Keeps.forEach
    | with_reducible apply Keeps.foldl
    | split
    | extract_lets

theorem State.countMaint_keeps {s0 s : State} (code : Nat) (hK : Keeps s0 s) : Keeps s0 (State.countMaint s code) := by
  unfold State.countMaint
  repeat' first
    | with_reducible assumption
    | intro _
    | with_reducible apply Keeps.odAdd
    | with_reducible refine Keeps.fst ?_ (by assumption)
    | with_reducible apply Keeps.ite
    | with_reducible apply Keeps.forEach
    | with_reducible apply Keeps.foldl
    | split
    | extract_lets

theorem State.endRejuvenation_keeps {s0 s : State} (f : Nat) (hK : Keeps s0 s) : Keeps s0 (State.endRejuvenation s f) := by
  unfold State.endRejuvenation
  repeat' first
    | with_reducible assumption
    | intro _
    | with_reducible apply State.showActs_keeps
    | with_reducible refine Keeps.fst ?_ (by assumption)
    | with_reducible apply Keeps.ite
    | with_reducible apply Keeps.forEach
    | with_reducible apply Keeps.foldl
    | split
    | extract_lets
    | fail_if_no_progress (with_reducible refine Keeps.hub ?_ rfl rfl)

theorem State.yieldField_keeps {s0 s : State} (f : Nat) (hK : Keeps s0 s) : Keeps s0 (State.yieldField s f) := by
  unfold State.yieldField
  repeat' first
    | with_reducible assumption
    | intro _
    | with_reducible apply State.abandonRotations_keeps
    | with_reducible apply State.endRejuvenation_keeps
    | with_reducible refine Keeps.fst ?_ (by assumption)
    | with_reducible apply Keeps.ite
    | with_reducible apply Keeps.forEach
    | with_reducible apply Keeps.foldl
    | split
    | extract_lets

theorem State.startAct_keeps {s0 s : State} (k : ActKind) (fields : Nat) (hK : Keeps s0 s) : Keeps s0 (State.startAct s k fields) := by
  unfold State.startAct
  repeat' first
    | with_reducible assumption
    | intro _
    | with_reducible apply State.showActs_keeps
    | with_reducible apply State.yieldField_keeps
    | with_reducible refine Keeps.fst ?_ (by assumption)
    | with_reducible apply Keeps.ite
    | with_reducible apply Keeps.forEach
    | with_reducible apply Keeps.foldl
    | split
    | extract_lets
    | fail_if_no_progress (with_reducible refine Keeps.hub ?_ rfl rfl)

theorem State.endAct_keeps {s0 s : State} (k : ActKind) (hK : Keeps s0 s) : Keeps s0 (State.endAct s k) := by
  unfold State.endAct
  repeat' first
    | with_reducible assumption
    | intro _
    | with_reducible apply State.showActs_keeps
    | with_reducible refine Keeps.fst ?_ (by assumption)
    | with_reducible apply Keeps.ite
    | with_reducible apply Keeps.forEach
    | with_reducible apply Keeps.foldl
    | split
    | extract_lets
    | fail_if_no_progress (with_reducible refine Keeps.hub ?_ rfl rfl)

theorem State.queueAct_keeps {s0 s : State} (k : ActKind) (fields : Nat) (cmd : List Byte) (hK : Keeps s0 s) : Keeps s0 (State.queueAct s k fields cmd) := by
  unfold State.queueAct
  repeat' first
    | with_reducible assumption
    | intro _
    | with_reducible apply State.showActs_keeps
    | with_reducible refine Keeps.fst ?_ (by assumption)
    | with_reducible apply Keeps.ite
    | with_reducible apply Keeps.forEach
    | with_reducible apply Keeps.foldl
    | split
    | extract_lets
    | fail_if_no_progress (with_reducible refine Keeps.hub ?_ rfl rfl)

theorem State.unqueue_keeps {s0 s : State} (k : ActKind) (hK : Keeps s0 s) : Keeps s0 (State.unqueue s k) := by
  unfold State.unqueue
  repeat' first
    | with_reducible assumption
    | intro _
    | with_reducible apply State.showActs_keeps
    | with_reducible refine Keeps.fst ?_ (by assumption)
    | with_reducible apply Keeps.ite
    | with_reducible apply Keeps.forEach
    | with_reducible apply Keeps.foldl
    | split
    | extract_lets
    | fail_if_no_progress (with_reducible refine Keeps.hub ?_ rfl rfl)

theorem State.endFieldCmd_keeps {s0 s : State} (code : Nat) (hK : Keeps s0 s) : Keeps s0 (State.endFieldCmd s code) := by
  unfold State.endFieldCmd
  repeat' first
    | with_reducible assumption
    | intro _
    | with_reducible apply Keeps.odSet
    | with_reducible apply State.showActs_keeps
    | with_reducible refine Keeps.fst ?_ (by assumption)
    | with_reducible apply Keeps.ite
    | with_reducible apply Keeps.forEach
    | with_reducible apply Keeps.foldl
    | split
    | extract_lets
    | fail_if_no_progress (with_reducible refine Keeps.hub ?_ rfl rfl)

theorem State.fieldCmdField_keeps {s0 s : State} (f : Nat) (code : Nat) (hK : Keeps s0 s) : Keeps s0 (State.fieldCmdField s f code) := by
  unfold State.fieldCmdField
  repeat' first
    | with_reducible assumption
    | intro _
    | with_reducible apply Keeps.odSet
    | with_reducible apply State.endFieldCmd_keeps
    | with_reducible refine Keeps.fst ?_ (by assumption)
    | with_reducible apply Keeps.ite
    | with_reducible apply Keeps.forEach
    | with_reducible apply Keeps.foldl
    | split
    | extract_lets
    | fail_if_no_progress (with_reducible refine Keeps.hub ?_ rfl rfl)

theorem State.endModelCmd_keeps {s0 s : State} (p : Nat) (code : Nat) (hK : Keeps s0 s) : Keeps s0 (State.endModelCmd s p code) := by
  unfold State.endModelCmd
  repeat' first
    | with_reducible assumption
    | intro _
    | with_reducible apply Keeps.modPart
    | with_reducible apply Keeps.odSetP
    | with_reducible apply State.modHandle_keeps
    | with_reducible apply State.endHeld_keeps
    | with_reducible apply State.unload_keeps
    | with_reducible apply State.endAct_keeps
    | with_reducible apply State.unqueue_keeps
    | with_reducible refine Keeps.fst ?_ (by assumption)
    | with_reducible apply Keeps.ite
    | with_reducible apply Keeps.forEach
    | with_reducible apply Keeps.foldl
    | split
    | extract_lets

theorem State.faultPart_keeps {s0 s : State} (p : Nat) (code : Nat) (hK : Keeps s0 s) : Keeps s0 (State.faultPart s p code) := by
  unfold State.faultPart
  repeat' first
    | with_reducible assumption
    | intro _
    | with_reducible apply Keeps.odSet
    | with_reducible apply Keeps.log
    | with_reducible apply State.resumePart_keeps
    | with_reducible apply State.endHeld_keeps
    | with_reducible apply State.stopServing_keeps
    | with_reducible apply State.endModelCmd_keeps
    | with_reducible refine Keeps.fst ?_ (by assumption)
    | with_reducible apply Keeps.ite
    | with_reducible apply Keeps.forEach
    | with_reducible apply Keeps.foldl
    | split
    | extract_lets

theorem State.faultOwner_keeps {s0 s : State} (f : Nat) (code : Nat) (hK : Keeps s0 s) : Keeps s0 (State.faultOwner s f code) := by
  unfold State.faultOwner
  repeat' first
    | with_reducible assumption
    | intro _
    | with_reducible apply State.faultPart_keeps
    | with_reducible refine Keeps.fst ?_ (by assumption)
    | with_reducible apply Keeps.ite
    | with_reducible apply Keeps.forEach
    | with_reducible apply Keeps.foldl
    | split
    | extract_lets

theorem State.loseField_keeps {s0 s : State} (f : Nat) (hK : Keeps s0 s) : Keeps s0 (State.loseField s f) := by
  unfold State.loseField
  extract_lets mine
  refine hK.same rfl rfl rfl (fun c => ⟨?_, filter_wf _ _ _ c.2, c.3, c.4, c.5, c.6, c.7, c.8, c.9, c.10, c.11⟩)
  refine filterMap_wf ({} : Tile) ({} : Tile) s.tiles _ c.1 ?_ ?_
  · intro e e' he
    split at he
    · split at he <;> cases he; rfl
    · cases he; rfl
  · intro e e' hd he
    split at he
    · split at he <;> cases he; assumption
    · cases he; exact hd

theorem State.goDark_keeps {s0 s : State} (f : Nat) (st : Nat) (why : OffCause) (hK : Keeps s0 s) : Keeps s0 (State.goDark s f st why) := by
  unfold State.goDark
  repeat' first
    | with_reducible assumption
    | intro _
    | with_reducible apply Keeps.modField
    | with_reducible apply Keeps.odSet
    | with_reducible apply State.abandonRotations_keeps
    | with_reducible apply State.countPadded_keeps
    | with_reducible apply State.loseField_keeps
    | with_reducible refine Keeps.fst ?_ (by assumption)
    | with_reducible apply Keeps.ite
    | with_reducible apply Keeps.forEach
    | with_reducible apply Keeps.foldl
    | split
    | extract_lets
    | fail_if_no_progress (with_reducible apply Keeps.power)

theorem State.requestOn_keeps {s0 s : State} (f : Nat) (hK : Keeps s0 s) : Keeps s0 (State.requestOn s f) := by
  unfold State.requestOn
  repeat' first
    | with_reducible assumption
    | intro _
    | with_reducible refine Keeps.fst ?_ (by assumption)
    | with_reducible apply Keeps.ite
    | with_reducible apply Keeps.forEach
    | with_reducible apply Keeps.foldl
    | split
    | extract_lets
    | fail_if_no_progress (with_reducible apply Keeps.power)

theorem State.finishOff_keeps {s0 s : State} (f : Nat) (hK : Keeps s0 s) : Keeps s0 (State.finishOff s f) := by
  unfold State.finishOff
  repeat' first
    | with_reducible assumption
    | intro _
    | with_reducible apply State.fieldCmdField_keeps
    | with_reducible apply State.goDark_keeps
    | with_reducible apply State.requestOn_keeps
    | with_reducible refine Keeps.fst ?_ (by assumption)
    | with_reducible apply Keeps.ite
    | with_reducible apply Keeps.forEach
    | with_reducible apply Keeps.foldl
    | split
    | extract_lets

theorem State.injectLate_keeps {s0 s : State} (t : TileId) (m : Message) (hK : Keeps s0 s) : Keeps s0 (State.injectLate s t m) := by
  unfold State.injectLate
  repeat' first
    | with_reducible assumption
    | intro _
    | with_reducible apply State.inject_keeps
    | with_reducible apply State.txFailed_keeps
    | with_reducible apply State.refusedPlain_keeps
    | with_reducible refine Keeps.fst ?_ (by assumption)
    | with_reducible apply Keeps.ite
    | with_reducible apply Keeps.forEach
    | with_reducible apply Keeps.foldl
    | split
    | extract_lets

theorem State.reroute_keeps {s0 s : State} (t : TileId) (f : Flit) (hK : Keeps s0 s) : Keeps s0 (State.reroute s t f) := by
  unfold State.reroute
  repeat' first
    | with_reducible assumption
    | intro _
    | with_reducible apply State.feedIn_keeps
    | with_reducible apply State.sendVn1_keeps
    | with_reducible apply State.refuse_keeps
    | with_reducible refine Keeps.fst ?_ (by assumption)
    | with_reducible apply Keeps.ite
    | with_reducible apply Keeps.forEach
    | with_reducible apply Keeps.foldl
    | split
    | extract_lets

theorem State.resumeFeed_keeps {s0 s : State} (t : TileId) (hK : Keeps s0 s) : Keeps s0 (State.resumeFeed s t) := by
  unfold State.resumeFeed
  repeat' first
    | with_reducible assumption
    | intro _
    | with_reducible apply Keeps.modRouter
    | with_reducible apply State.feedIn_keeps
    | with_reducible apply State.reroute_keeps
    | with_reducible refine Keeps.fst ?_ (by assumption)
    | with_reducible apply Keeps.ite
    | with_reducible apply Keeps.forEach
    | with_reducible apply Keeps.foldl
    | split
    | extract_lets

theorem State.resumeInjection_keeps {s0 s : State} (hK : Keeps s0 s) : Keeps s0 (State.resumeInjection s) := by
  unfold State.resumeInjection
  repeat' first
    | with_reducible assumption
    | intro _
    | with_reducible apply Keeps.modTile
    | with_reducible apply State.injectLate_keeps
    | with_reducible apply State.resumeFeed_keeps
    | with_reducible refine Keeps.fst ?_ (by assumption)
    | with_reducible apply Keeps.ite
    | with_reducible apply Keeps.forEach
    | with_reducible apply Keeps.foldl
    | split
    | extract_lets

theorem State.finishDetour_keeps {s0 s : State} (fields : Nat) (dark : Bool) (hK : Keeps s0 s) : Keeps s0 (State.finishDetour s fields dark) := by
  unfold State.finishDetour
  repeat' first
    | with_reducible assumption
    | intro _
    | with_reducible apply Keeps.odSet
    | with_reducible apply Keeps.odAdd
    | with_reducible apply State.setRoute_keeps
    | with_reducible apply State.finishOff_keeps
    | with_reducible apply State.resumeInjection_keeps
    | with_reducible refine Keeps.fst ?_ (by assumption)
    | with_reducible apply Keeps.ite
    | with_reducible apply Keeps.forEach
    | with_reducible apply Keeps.foldl
    | split
    | extract_lets
    | fail_if_no_progress (with_reducible apply Keeps.mesh)

theorem State.runDetours_keeps {s0 s : State} (fuel : Nat) (hK : Keeps s0 s) : Keeps s0 (State.runDetours s fuel) := by
  induction fuel generalizing s with
  | zero =>
    unfold State.runDetours
    repeat' first
      | with_reducible assumption
      | intro _
      | with_reducible apply State.abandonRotations_keeps
      | with_reducible apply State.finishDetour_keeps
      | with_reducible refine Keeps.fst ?_ (by assumption)
      | with_reducible apply Keeps.ite
      | with_reducible apply Keeps.forEach
      | with_reducible apply Keeps.foldl
      | split
      | extract_lets
      | fail_if_no_progress (with_reducible apply Keeps.mesh)
  | succ n ih =>
    unfold State.runDetours
    repeat' first
      | with_reducible assumption
      | intro _
      | with_reducible apply ih
      | with_reducible apply State.abandonRotations_keeps
      | with_reducible apply State.finishDetour_keeps
      | with_reducible refine Keeps.fst ?_ (by assumption)
      | with_reducible apply Keeps.ite
      | with_reducible apply Keeps.forEach
      | with_reducible apply Keeps.foldl
      | split
      | extract_lets
      | fail_if_no_progress (with_reducible apply Keeps.mesh)

theorem State.installDetour_keeps {s0 s : State} (fields : Nat) (dark : Bool) (hK : Keeps s0 s) : Keeps s0 (State.installDetour s fields dark) := by
  unfold State.installDetour
  repeat' first
    | with_reducible assumption
    | intro _
    | with_reducible apply State.runDetours_keeps
    | with_reducible refine Keeps.fst ?_ (by assumption)
    | with_reducible apply Keeps.ite
    | with_reducible apply Keeps.forEach
    | with_reducible apply Keeps.foldl
    | split
    | extract_lets
    | fail_if_no_progress (with_reducible apply Keeps.mesh)

theorem State.fieldFalls_keeps {s0 s : State} (f : Nat) (st : Nat) (code : Nat) (why : OffCause) (hK : Keeps s0 s) : Keeps s0 (State.fieldFalls s f st code why) := by
  unfold State.fieldFalls
  repeat' first
    | with_reducible assumption
    | intro _
    | with_reducible apply Keeps.log
    | with_reducible apply State.faultOwner_keeps
    | with_reducible apply State.goDark_keeps
    | with_reducible apply State.installDetour_keeps
    | with_reducible refine Keeps.fst ?_ (by assumption)
    | with_reducible apply Keeps.ite
    | with_reducible apply Keeps.forEach
    | with_reducible apply Keeps.foldl
    | split
    | extract_lets
    | fail_if_no_progress (with_reducible apply Keeps.mesh)

theorem State.planOff_keeps {s0 s : State} (f : Nat) (why : OffCause) (hK : Keeps s0 s) : Keeps s0 (State.planOff s f why) := by
  unfold State.planOff
  repeat' first
    | with_reducible assumption
    | intro _
    | with_reducible apply Keeps.modField
    | with_reducible apply Keeps.odSet
    | with_reducible apply State.installDetour_keeps
    | with_reducible refine Keeps.fst ?_ (by assumption)
    | with_reducible apply Keeps.ite
    | with_reducible apply Keeps.forEach
    | with_reducible apply Keeps.foldl
    | split
    | extract_lets

theorem State.phaseTest_keeps {s0 s : State} (f : Nat) (failed : List Nat) (hK : Keeps s0 s) : Keeps s0 (State.phaseTest s f failed) := by
  unfold State.phaseTest
  repeat' first
    | with_reducible assumption
    | intro _
    | with_reducible apply Keeps.odSet
    | with_reducible apply Keeps.odAdd
    | with_reducible apply Keeps.log
    | with_reducible refine Keeps.fst ?_ (by assumption)
    | with_reducible apply Keeps.ite
    | with_reducible apply Keeps.forEach
    | with_reducible apply Keeps.foldl
    | split
    | extract_lets

theorem State.setGrant_keeps {s0 s : State} (f : Nat) (budget : Nat) (hK : Keeps s0 s) : Keeps s0 (State.setGrant s f budget) := by
  unfold State.setGrant
  repeat' first
    | with_reducible assumption
    | intro _
    | with_reducible apply Keeps.modCb
    | with_reducible apply Keeps.odSet
    | with_reducible refine Keeps.fst ?_ (by assumption)
    | with_reducible apply Keeps.ite
    | with_reducible apply Keeps.forEach
    | with_reducible apply Keeps.foldl
    | split
    | extract_lets

theorem State.eraseStack_keeps {s0 s : State} (da : Nat) (n : Nat) (hK : Keeps s0 s) : Keeps s0 (State.eraseStack s da n) := by
  unfold State.eraseStack
  repeat' first
    | with_reducible assumption
    | intro _
    | with_reducible refine Keeps.fst ?_ (by assumption)
    | with_reducible apply Keeps.ite
    | with_reducible apply Keeps.forEach
    | with_reducible apply Keeps.foldl
    | split
    | extract_lets
    | fail_if_no_progress (with_reducible refine Keeps.stk ?_ id)
    | fail_if_no_progress (with_reducible refine Keeps.stk ?_ (mwrite_wf _ _ _ _))
    | fail_if_no_progress (with_reducible refine Keeps.stk ?_ (mset_wf _ _ _ _))
    | fail_if_no_progress (with_reducible refine Keeps.stk ?_ (filter_wf _ _ _))

theorem State.clearDebug_keeps {s0 s : State} (p : Nat) (hK : Keeps s0 s) : Keeps s0 (State.clearDebug s p) := by
  unfold State.clearDebug
  repeat' first
    | with_reducible assumption
    | intro _
    | with_reducible apply Keeps.modCc
    | with_reducible apply State.eraseStack_keeps
    | with_reducible refine Keeps.fst ?_ (by assumption)
    | with_reducible apply Keeps.ite
    | with_reducible apply Keeps.forEach
    | with_reducible apply Keeps.foldl
    | split
    | extract_lets

theorem State.clearCtrl_keeps {s0 s : State} (p : Nat) (hK : Keeps s0 s) : Keeps s0 (State.clearCtrl s p) := by
  unfold State.clearCtrl
  repeat' first
    | with_reducible assumption
    | intro _
    | with_reducible apply Keeps.modCc
    | with_reducible refine Keeps.fst ?_ (by assumption)
    | with_reducible apply Keeps.ite
    | with_reducible apply Keeps.forEach
    | with_reducible apply Keeps.foldl
    | split
    | extract_lets

theorem State.scrubField_keeps {s0 s : State} (f : Nat) (failed : List (TileId × Nat)) (hK : Keeps s0 s) : Keeps s0 (State.scrubField s f failed) := by
  unfold State.scrubField
  repeat' first
    | with_reducible assumption
    | intro _
    | with_reducible apply Keeps.modTile
    | with_reducible apply Keeps.odSet
    | with_reducible apply Keeps.odAdd
    | with_reducible apply Keeps.log
    | with_reducible apply State.eraseStack_keeps
    | with_reducible refine Keeps.fst ?_ (by assumption)
    | with_reducible apply Keeps.ite
    | with_reducible apply Keeps.forEach
    | with_reducible apply Keeps.foldl
    | split
    | extract_lets

theorem State.startTrims_keeps {s0 s : State} (f : Nat) (trims : List (TileId × Nat × TrimSet)) (hK : Keeps s0 s) : Keeps s0 (State.startTrims s f trims) := by
  unfold State.startTrims
  repeat' first
    | with_reducible assumption
    | intro _
    | with_reducible apply Keeps.modCb
    | with_reducible apply Keeps.modField
    | with_reducible apply Keeps.odAdd
    | with_reducible refine Keeps.fst ?_ (by assumption)
    | with_reducible apply Keeps.ite
    | with_reducible apply Keeps.forEach
    | with_reducible apply Keeps.foldl
    | split
    | extract_lets

theorem State.restoreLinks_keeps {s0 s : State} (f : Nat) (passed : List LinkId) (hK : Keeps s0 s) : Keeps s0 (State.restoreLinks s f passed) := by
  unfold State.restoreLinks
  repeat' first
    | with_reducible assumption
    | intro _
    | with_reducible apply Keeps.odSet
    | with_reducible refine Keeps.fst ?_ (by assumption)
    | with_reducible apply Keeps.ite
    | with_reducible apply Keeps.forEach
    | with_reducible apply Keeps.foldl
    | split
    | extract_lets
    | fail_if_no_progress (with_reducible apply Keeps.mesh)

theorem State.pushReread_keeps {s0 s : State} (p : Nat) (fields : Nat) (hK : Keeps s0 s) : Keeps s0 (State.pushReread s p fields) := by
  unfold State.pushReread
  repeat' first
    | with_reducible assumption
    | intro _
    | with_reducible apply Keeps.modLk
    | with_reducible refine Keeps.fst ?_ (by assumption)
    | with_reducible apply Keeps.ite
    | with_reducible apply Keeps.forEach
    | with_reducible apply Keeps.foldl
    | split
    | extract_lets

theorem State.fieldUp_keeps {s0 s : State} (f : Nat) (failed : List (TileId × Nat)) (links : List LinkId) (trims : List (TileId × Nat × TrimSet)) (hK : Keeps s0 s) : Keeps s0 (State.fieldUp s f failed links trims) := by
  unfold State.fieldUp
  repeat' first
    | with_reducible assumption
    | intro _
    | with_reducible apply Keeps.modField
    | with_reducible apply Keeps.odSet
    | with_reducible apply State.fieldCmdField_keeps
    | with_reducible apply State.installDetour_keeps
    | with_reducible apply State.setGrant_keeps
    | with_reducible apply State.scrubField_keeps
    | with_reducible apply State.startTrims_keeps
    | with_reducible apply State.restoreLinks_keeps
    | with_reducible apply State.pushReread_keeps
    | with_reducible refine Keeps.fst ?_ (by assumption)
    | with_reducible apply Keeps.ite
    | with_reducible apply Keeps.forEach
    | with_reducible apply Keeps.foldl
    | split
    | extract_lets
    | fail_if_no_progress (with_reducible apply Keeps.power)

end Sys2Proof.Machine
end

