-- ==== Sys2Proof/Laws/KeepsGate.lean ====
section
/-!
SUPPORT. Every operation of Machine/Gate.lean keeps what `Keeps` says.
-/

namespace Sys2Proof.Machine

theorem State.command_keeps {s0 s : State} (c : Caller) (idx : Nat) (sub : Nat) (part : Nat) (run : State → State × Nat) (hrun : ∀ t, Keeps s0 t → Keeps s0 (run t).1) (hK : Keeps s0 s) : Keeps s0 (State.command s c idx sub part run) := by
  unfold State.command
  repeat' first
    | with_reducible assumption
    | intro _
    | with_reducible apply KeepsP.ite
    | with_reducible apply Keeps.odAdd
    | with_reducible apply Keeps.reply
    | with_reducible apply hrun
    | with_reducible refine Keeps.fst ?_ (by assumption)
    | with_reducible apply Keeps.ite
    | with_reducible apply Keeps.forEach
    | with_reducible apply Keeps.foldl
    | split
    | extract_lets
    | with_reducible apply KeepsP.pair

theorem oneOnly_keeps {s0 s : State} (value : Nat) (run : State → State × Nat) (hrun : ∀ t, Keeps s0 t → Keeps s0 (run t).1) (hK : Keeps s0 s) : Keeps s0 (oneOnly value run s).1 := by
  refine KeepsP.keeps ?_
  unfold oneOnly
  repeat' first
    | with_reducible assumption
    | intro _
    | with_reducible apply KeepsP.ite
    | with_reducible apply hrun
    | with_reducible refine Keeps.fst ?_ (by assumption)
    | with_reducible apply Keeps.ite
    | with_reducible apply Keeps.forEach
    | with_reducible apply Keeps.foldl
    | split
    | extract_lets
    | with_reducible apply KeepsP.pair

end Sys2Proof.Machine
end

