-- ==== Sys2Proof/Laws/KeepsFabricOps.lean ====
section
/-!
SUPPORT. Every operation of Machine/FabricOps.lean keeps what `Keeps` says.
-/

namespace Sys2Proof.Machine

theorem State.modPeer_keeps {s0 s : State} (dev : Nat) (f : Peer → Peer) (hK : Keeps s0 s) : Keeps s0 (State.modPeer s dev f) := by
  unfold State.modPeer
  repeat' first
    | with_reducible assumption
    | intro _
    | with_reducible refine Keeps.fst ?_ (by assumption)
    | with_reducible apply Keeps.ite
    | with_reducible apply Keeps.forEach
    | with_reducible apply Keeps.foldl
    | split
    | extract_lets
    | fail_if_no_progress (with_reducible apply Keeps.fabric)

theorem State.countPeers_keeps {s0 s : State} (hK : Keeps s0 s) : Keeps s0 (State.countPeers s) := by
  unfold State.countPeers
  repeat' first
    | with_reducible assumption
    | intro _
    | with_reducible apply Keeps.odSet
    | with_reducible refine Keeps.fst ?_ (by assumption)
    | with_reducible apply Keeps.ite
    | with_reducible apply Keeps.forEach
    | with_reducible apply Keeps.foldl
    | split
    | extract_lets

theorem State.sendPkt_keeps {s0 s : State} (typ : Nat) (p : FalramPkt) (hK : Keeps s0 s) : Keeps s0 (State.sendPkt s typ p) := by
  unfold State.sendPkt
  repeat' first
    | with_reducible assumption
    | intro _
    | with_reducible apply Keeps.odAdd
    | with_reducible apply Keeps.emit
    | with_reducible refine Keeps.fst ?_ (by assumption)
    | with_reducible apply Keeps.ite
    | with_reducible apply Keeps.forEach
    | with_reducible apply Keeps.foldl
    | split
    | extract_lets

theorem State.sendSealed_keeps {s0 s : State} (part : Nat) (kslot : Nat) (enc : Bool) (typ : Nat) (p : FalramPkt) (hK : Keeps s0 s) : Keeps s0 (State.sendSealed s part kslot enc typ p) := by
  unfold State.sendSealed
  repeat' first
    | with_reducible assumption
    | intro _
    | with_reducible apply State.sendPkt_keeps
    | with_reducible refine Keeps.fst ?_ (by assumption)
    | with_reducible apply Keeps.ite
    | with_reducible apply Keeps.forEach
    | with_reducible apply Keeps.foldl
    | split
    | extract_lets

theorem State.sendHello_keeps {s0 s : State} (dev : Nat) (hK : Keeps s0 s) : Keeps s0 (State.sendHello s dev) := by
  unfold State.sendHello
  repeat' first
    | with_reducible assumption
    | intro _
    | with_reducible apply State.sendPkt_keeps
    | with_reducible refine Keeps.fst ?_ (by assumption)
    | with_reducible apply Keeps.ite
    | with_reducible apply Keeps.forEach
    | with_reducible apply Keeps.foldl
    | split
    | extract_lets

theorem State.nak_keeps {s0 s : State} (p : FalramPkt) (status : Nat) (part : Option (Nat × Nat)) (hK : Keeps s0 s) : Keeps s0 (State.nak s p status part) := by
  unfold State.nak
  repeat' first
    | with_reducible assumption
    | intro _
    | with_reducible apply Keeps.odAdd
    | with_reducible apply State.sendPkt_keeps
    | with_reducible apply State.sendSealed_keeps
    | with_reducible refine Keeps.fst ?_ (by assumption)
    | with_reducible apply Keeps.ite
    | with_reducible apply Keeps.forEach
    | with_reducible apply Keeps.foldl
    | split
    | extract_lets
    | fail_if_no_progress (with_reducible apply Keeps.fabric)

theorem State.peerFault_keeps {s0 s : State} (p : FalramPkt) (status : Nat) (part : Option (Nat × Nat)) (hK : Keeps s0 s) : Keeps s0 (State.peerFault s p status part) := by
  unfold State.peerFault
  repeat' first
    | with_reducible assumption
    | intro _
    | with_reducible apply Keeps.odAdd
    | with_reducible apply Keeps.log
    | with_reducible apply State.nak_keeps
    | with_reducible refine Keeps.fst ?_ (by assumption)
    | with_reducible apply Keeps.ite
    | with_reducible apply Keeps.forEach
    | with_reducible apply Keeps.foldl
    | split
    | extract_lets

theorem State.modTx_keeps {s0 s : State} (k : Nat) (f : TxStream → TxStream) (hK : Keeps s0 s) : Keeps s0 (State.modTx s k f) := by
  unfold State.modTx
  repeat' first
    | with_reducible assumption
    | intro _
    | with_reducible refine Keeps.fst ?_ (by assumption)
    | with_reducible apply Keeps.ite
    | with_reducible apply Keeps.forEach
    | with_reducible apply Keeps.foldl
    | split
    | extract_lets
    | fail_if_no_progress (with_reducible apply Keeps.fabric)

theorem State.endTx_keeps {s0 s : State} (k : Nat) (code : Nat) (hK : Keeps s0 s) : Keeps s0 (State.endTx s k code) := by
  unfold State.endTx
  repeat' first
    | with_reducible assumption
    | intro _
    | with_reducible apply Keeps.modPart
    | with_reducible apply Keeps.odSetP
    | with_reducible refine Keeps.fst ?_ (by assumption)
    | with_reducible apply Keeps.ite
    | with_reducible apply Keeps.forEach
    | with_reducible apply Keeps.foldl
    | split
    | extract_lets
    | fail_if_no_progress (with_reducible apply Keeps.fabric)

theorem State.closeTx_keeps {s0 s : State} (k : Nat) (status : Nat) (code : Nat) (hK : Keeps s0 s) : Keeps s0 (State.closeTx s k status code) := by
  unfold State.closeTx
  repeat' first
    | with_reducible assumption
    | intro _
    | with_reducible apply State.sendSealed_keeps
    | with_reducible apply State.endTx_keeps
    | with_reducible refine Keeps.fst ?_ (by assumption)
    | with_reducible apply Keeps.ite
    | with_reducible apply Keeps.forEach
    | with_reducible apply Keeps.foldl
    | split
    | extract_lets

theorem State.sendPsn_keeps {s0 s : State} (k : Nat) (psn : Nat) (only : Option Nat) (hK : Keeps s0 s) : Keeps s0 (State.sendPsn s k psn only) := by
  unfold State.sendPsn
  repeat' first
    | with_reducible assumption
    | intro _
    | with_reducible apply Keeps.odAdd
    | with_reducible apply State.stackRead_keeps
    | with_reducible apply State.damage_keeps
    | with_reducible apply State.sendSealed_keeps
    | with_reducible apply State.modTx_keeps
    | with_reducible apply State.closeTx_keeps
    | with_reducible refine Keeps.fst ?_ (by assumption)
    | with_reducible apply Keeps.ite
    | with_reducible apply Keeps.forEach
    | with_reducible apply Keeps.foldl
    | split
    | extract_lets

theorem State.pumpTx_keeps {s0 s : State} (k : Nat) (fuel : Nat) (hK : Keeps s0 s) : Keeps s0 (State.pumpTx s k fuel) := by
  induction fuel generalizing s k with
  | zero =>
    unfold State.pumpTx
    repeat' first
      | with_reducible assumption
      | intro _
      | with_reducible apply Keeps.odSetP
      | with_reducible apply State.modTx_keeps
      | with_reducible apply State.endTx_keeps
      | with_reducible apply State.sendPsn_keeps
      | with_reducible refine Keeps.fst ?_ (by assumption)
      | with_reducible apply Keeps.ite
      | with_reducible apply Keeps.forEach
      | with_reducible apply Keeps.foldl
      | split
      | extract_lets
  | succ n ih =>
    unfold State.pumpTx
    repeat' first
      | with_reducible assumption
      | intro _
      | with_reducible apply ih
      | with_reducible apply Keeps.odSetP
      | with_reducible apply State.modTx_keeps
      | with_reducible apply State.endTx_keeps
      | with_reducible apply State.sendPsn_keeps
      | with_reducible refine Keeps.fst ?_ (by assumption)
      | with_reducible apply Keeps.ite
      | with_reducible apply Keeps.forEach
      | with_reducible apply Keeps.foldl
      | split
      | extract_lets

theorem State.runTx_keeps {s0 s : State} (k : Nat) (hK : Keeps s0 s) : Keeps s0 (State.runTx s k) := by
  unfold State.runTx
  repeat' first
    | with_reducible assumption
    | intro _
    | with_reducible apply State.pumpTx_keeps
    | with_reducible refine Keeps.fst ?_ (by assumption)
    | with_reducible apply Keeps.ite
    | with_reducible apply Keeps.forEach
    | with_reducible apply Keeps.foldl
    | split
    | extract_lets

theorem State.openTx_keeps {s0 s : State} (k : Nat) (handle : Nat) (dst : Nat) (group : Bool) (chain : Bool) (hK : Keeps s0 s) : Keeps s0 (State.openTx s k handle dst group chain) := by
  unfold State.openTx
  repeat' first
    | with_reducible assumption
    | intro _
    | with_reducible apply Keeps.modPart
    | with_reducible apply Keeps.odSetP
    | with_reducible apply State.runTx_keeps
    | with_reducible refine Keeps.fst ?_ (by assumption)
    | with_reducible apply Keeps.ite
    | with_reducible apply Keeps.forEach
    | with_reducible apply Keeps.foldl
    | split
    | extract_lets
    | fail_if_no_progress (with_reducible apply Keeps.fabric)

theorem State.failReceiver_keeps {s0 s : State} (k : Nat) (dev : Nat) (code : Nat) (hK : Keeps s0 s) : Keeps s0 (State.failReceiver s k dev code) := by
  unfold State.failReceiver
  repeat' first
    | with_reducible assumption
    | intro _
    | with_reducible apply Keeps.odSetP
    | with_reducible apply State.modTx_keeps
    | with_reducible apply State.endTx_keeps
    | with_reducible apply State.runTx_keeps
    | with_reducible refine Keeps.fst ?_ (by assumption)
    | with_reducible apply Keeps.ite
    | with_reducible apply Keeps.forEach
    | with_reducible apply Keeps.foldl
    | split
    | extract_lets

theorem State.reportGroup_keeps {s0 s : State} (p : Nat) (joined : Bool) (hK : Keeps s0 s) : Keeps s0 (State.reportGroup s p joined) := by
  unfold State.reportGroup
  repeat' first
    | with_reducible assumption
    | intro _
    | with_reducible apply Keeps.emit
    | with_reducible refine Keeps.fst ?_ (by assumption)
    | with_reducible apply Keeps.ite
    | with_reducible apply Keeps.forEach
    | with_reducible apply Keeps.foldl
    | split
    | extract_lets

theorem State.dropRx_keeps {s0 s : State} (p : Nat) (hK : Keeps s0 s) : Keeps s0 (State.dropRx s p) := by
  unfold State.dropRx
  repeat' first
    | with_reducible assumption
    | intro _
    | with_reducible refine Keeps.fst ?_ (by assumption)
    | with_reducible apply Keeps.ite
    | with_reducible apply Keeps.forEach
    | with_reducible apply Keeps.foldl
    | split
    | extract_lets
    | fail_if_no_progress (with_reducible apply Keeps.fabric)

theorem State.endStage_keeps {s0 s : State} (p : Nat) (code : Nat) (hK : Keeps s0 s) : Keeps s0 (State.endStage s p code) := by
  unfold State.endStage
  repeat' first
    | with_reducible assumption
    | intro _
    | with_reducible apply State.endModelCmd_keeps
    | with_reducible apply State.closeTx_keeps
    | with_reducible apply State.reportGroup_keeps
    | with_reducible apply State.dropRx_keeps
    | with_reducible refine Keeps.fst ?_ (by assumption)
    | with_reducible apply Keeps.ite
    | with_reducible apply Keeps.forEach
    | with_reducible apply Keeps.foldl
    | split
    | extract_lets

theorem State.endModel_keeps {s0 s : State} (p : Nat) (code : Nat) (hK : Keeps s0 s) : Keeps s0 (State.endModel s p code) := by
  unfold State.endModel
  repeat' first
    | with_reducible assumption
    | intro _
    | with_reducible apply State.endModelCmd_keeps
    | with_reducible apply State.endStage_keeps
    | with_reducible refine Keeps.fst ?_ (by assumption)
    | with_reducible apply Keeps.ite
    | with_reducible apply Keeps.forEach
    | with_reducible apply Keeps.foldl
    | split
    | extract_lets

end Sys2Proof.Machine
end

