-- ==== Sys2Proof/Laws/KeepsLoader.lean ====
section
/-!
SUPPORT. Every operation of Machine/Loader.lean keeps what `Keeps` says.
-/

namespace Sys2Proof.Machine

theorem State.writeRegs_keeps {s0 s : State} (t : TileId) (b : List Byte) (hK : Keeps s0 s) : Keeps s0 (State.writeRegs s t b) := by
  unfold State.writeRegs
  repeat' first
    | with_reducible assumption
    | intro _
    | with_reducible apply State.writeTileReg_keeps
    | with_reducible refine Keeps.fst ?_ (by assumption)
    | with_reducible apply Keeps.ite
    | with_reducible apply Keeps.forEach
    | with_reducible apply Keeps.foldl
    | split
    | extract_lets

theorem State.writeCtab_keeps {s0 s : State} (t : TileId) (b : List Byte) (hK : Keeps s0 s) : Keeps s0 (State.writeCtab s t b) := by
  unfold State.writeCtab
  repeat' first
    | with_reducible assumption
    | intro _
    | with_reducible apply Keeps.modCb
    | with_reducible refine Keeps.fst ?_ (by assumption)
    | with_reducible apply Keeps.ite
    | with_reducible apply Keeps.forEach
    | with_reducible apply Keeps.foldl
    | split
    | extract_lets

theorem State.writeSpads_keeps {s0 s : State} (t : TileId) (b : List Byte) (hK : Keeps s0 s) : Keeps s0 (State.writeSpads s t b) := by
  unfold State.writeSpads
  repeat' first
    | with_reducible assumption
    | intro _
    | with_reducible apply Keeps.modSp
    | with_reducible apply Keeps.modCc
    | with_reducible refine Keeps.fst ?_ (by assumption)
    | with_reducible apply Keeps.ite
    | with_reducible apply Keeps.forEach
    | with_reducible apply Keeps.foldl
    | split
    | extract_lets

theorem State.writeTile_keeps {s0 s : State} (b : List Byte) (cs : List (List Byte)) (ox : Nat) (oy : Nat) (r : Placed) (hK : Keeps s0 s) : Keeps s0 (State.writeTile s b cs ox oy r) := by
  unfold State.writeTile
  repeat' first
    | with_reducible assumption
    | intro _
    | with_reducible apply Keeps.modTv
    | with_reducible apply Keeps.modCc
    | with_reducible apply State.writeRegs_keeps
    | with_reducible apply State.writeCtab_keeps
    | with_reducible apply State.writeSpads_keeps
    | with_reducible refine Keeps.fst ?_ (by assumption)
    | with_reducible apply Keeps.ite
    | with_reducible apply Keeps.forEach
    | with_reducible apply Keeps.foldl
    | split
    | extract_lets

theorem State.writeRoutes_keeps {s0 s : State} (p : Nat) (l : List RouteRec) (ox : Nat) (oy : Nat) (m : List (Nat × Nat)) (hK : Keeps s0 s) : Keeps s0 (State.writeRoutes s p l ox oy m) := by
  unfold State.writeRoutes
  repeat' first
    | with_reducible assumption
    | intro _
    | with_reducible apply State.setRoute_keeps
    | with_reducible refine Keeps.fst ?_ (by assumption)
    | with_reducible apply Keeps.ite
    | with_reducible apply Keeps.forEach
    | with_reducible apply Keeps.foldl
    | split
    | extract_lets
    | fail_if_no_progress (with_reducible apply Keeps.mesh)

theorem State.writeProgram_keeps {s0 s : State} (p : Nat) (b : List Byte) (ox : Nat) (oy : Nat) (store : Nat) (hK : Keeps s0 s) : Keeps s0 (State.writeProgram s p b ox oy store) := by
  unfold State.writeProgram
  repeat' first
    | with_reducible assumption
    | intro _
    | with_reducible apply Keeps.modPart
    | with_reducible apply Keeps.odSetP
    | with_reducible apply Keeps.odAdd
    | with_reducible apply State.countPadded_keeps
    | with_reducible apply State.writeTile_keeps
    | with_reducible apply State.writeRoutes_keeps
    | with_reducible refine Keeps.fst ?_ (by assumption)
    | with_reducible apply Keeps.ite
    | with_reducible apply Keeps.forEach
    | with_reducible apply Keeps.foldl
    | split
    | extract_lets

theorem State.writeAddition_keeps {s0 s : State} (g : Program) (base : List Byte) (b : List Byte) (hK : Keeps s0 s) : Keeps s0 (State.writeAddition s g base b) := by
  unfold State.writeAddition
  repeat' first
    | with_reducible assumption
    | intro _
    | with_reducible apply State.writeRegs_keeps
    | with_reducible apply State.writeCtab_keeps
    | with_reducible refine Keeps.fst ?_ (by assumption)
    | with_reducible apply Keeps.ite
    | with_reducible apply Keeps.forEach
    | with_reducible apply Keeps.foldl
    | split
    | extract_lets

theorem State.releaseProgram_keeps {s0 s : State} (p : Nat) (hK : Keeps s0 s) : Keeps s0 (State.releaseProgram s p) := by
  unfold State.releaseProgram
  repeat' first
    | with_reducible assumption
    | intro _
    | with_reducible apply Keeps.modCc
    | with_reducible apply Keeps.modPart
    | with_reducible refine Keeps.fst ?_ (by assumption)
    | with_reducible apply Keeps.ite
    | with_reducible apply Keeps.forEach
    | with_reducible apply Keeps.foldl
    | split
    | extract_lets

end Sys2Proof.Machine
end

