-- ==== Sys2Proof/Laws/KeepsModels.lean ====
section
/-!
SUPPORT. Every operation of Machine/Models.lean keeps what `Keeps` says.
-/

namespace Sys2Proof.Machine

theorem State.meetRange_keeps {s0 s : State} (p : Nat) (h : Nat) (off : Nat) (len : Nat) (hK : Keeps s0 s) : Keeps s0 (State.meetRange s p h off len).1 := by
  refine KeepsP.keeps ?_
  unfold State.meetRange
  repeat' first
    | with_reducible assumption
    | intro _
    | with_reducible apply KeepsP.ite
    | with_reducible apply State.stackRead_keeps
    | with_reducible apply State.damage_keeps
    | with_reducible refine Keeps.fst ?_ (by assumption)
    | with_reducible apply Keeps.ite
    | with_reducible apply Keeps.forEach
    | with_reducible apply Keeps.foldl
    | split
    | extract_lets
    | with_reducible apply KeepsP.pair

theorem State.meetSections_keeps {s0 s : State} (p : Nat) (h : Nat) (l : List Section') (hK : Keeps s0 s) : Keeps s0 (State.meetSections s p h l).1 := by
  induction l generalizing s p h with
  | nil =>
    refine KeepsP.keeps ?_
    unfold State.meetSections
    repeat' first
      | with_reducible assumption
      | intro _
      | with_reducible apply KeepsP.ite
      | with_reducible apply State.meetRange_keeps
      | with_reducible refine Keeps.fst ?_ (by assumption)
      | with_reducible apply Keeps.ite
      | with_reducible apply Keeps.forEach
      | with_reducible apply Keeps.foldl
      | split
      | extract_lets
      | with_reducible apply KeepsP.pair
  | cons a r ih =>
    refine KeepsP.keeps ?_
    unfold State.meetSections
    repeat' first
      | with_reducible assumption
      | intro _
      | with_reducible apply KeepsP.ite
      | with_reducible apply ih
      | with_reducible apply State.meetRange_keeps
      | with_reducible refine Keeps.fst ?_ (by assumption)
      | with_reducible apply Keeps.ite
      | with_reducible apply Keeps.forEach
      | with_reducible apply Keeps.foldl
      | split
      | extract_lets
      | with_reducible apply KeepsP.pair

theorem State.forwardChain_keeps {s0 s : State} (p : Nat) (hK : Keeps s0 s) : Keeps s0 (State.forwardChain s p) := by
  unfold State.forwardChain
  repeat' first
    | with_reducible assumption
    | intro _
    | with_reducible apply Keeps.modPart
    | with_reducible apply State.runTx_keeps
    | with_reducible apply State.openTx_keeps
    | with_reducible refine Keeps.fst ?_ (by assumption)
    | with_reducible apply Keeps.ite
    | with_reducible apply Keeps.forEach
    | with_reducible apply Keeps.foldl
    | split
    | extract_lets

theorem State.stageDone_keeps {s0 s : State} (p : Nat) (h : Nat) (hK : Keeps s0 s) : Keeps s0 (State.stageDone s p h) := by
  unfold State.stageDone
  repeat' first
    | with_reducible assumption
    | intro _
    | with_reducible apply Keeps.odAdd
    | with_reducible apply State.modHandle_keeps
    | with_reducible apply State.endModelCmd_keeps
    | with_reducible apply State.reportGroup_keeps
    | with_reducible refine Keeps.fst ?_ (by assumption)
    | with_reducible apply Keeps.ite
    | with_reducible apply Keeps.forEach
    | with_reducible apply Keeps.foldl
    | split
    | extract_lets

theorem State.stageBytes_keeps {s0 s : State} (p : Nat) (off : Nat) (bytes : List Byte) (hK : Keeps s0 s) : Keeps s0 (State.stageBytes s p off bytes) := by
  unfold State.stageBytes
  repeat' first
    | with_reducible assumption
    | intro _
    | with_reducible apply Keeps.modPart
    | with_reducible apply Keeps.odSetP
    | with_reducible apply State.stackWrite_keeps
    | with_reducible apply State.modHandle_keeps
    | with_reducible apply State.endStage_keeps
    | with_reducible apply State.forwardChain_keeps
    | with_reducible apply State.stageDone_keeps
    | with_reducible refine Keeps.fst ?_ (by assumption)
    | with_reducible apply Keeps.ite
    | with_reducible apply Keeps.forEach
    | with_reducible apply Keeps.foldl
    | split
    | extract_lets

theorem State.startStage_keeps {s0 s : State} (p : Nat) (c : List Byte) (hK : Keeps s0 s) : Keeps s0 (State.startStage s p c).1 := by
  refine KeepsP.keeps ?_
  unfold State.startStage
  repeat' first
    | with_reducible assumption
    | intro _
    | with_reducible apply KeepsP.ite
    | with_reducible apply Keeps.modPart
    | with_reducible apply Keeps.odSetP
    | with_reducible apply Keeps.emit
    | with_reducible apply State.modHandle_keeps
    | with_reducible apply State.reportGroup_keeps
    | with_reducible apply State.dropRx_keeps
    | with_reducible refine Keeps.fst ?_ (by assumption)
    | with_reducible apply Keeps.ite
    | with_reducible apply Keeps.forEach
    | with_reducible apply Keeps.foldl
    | split
    | extract_lets
    | with_reducible apply KeepsP.pair

theorem State.installCode_keeps {s0 s : State} (p : Nat) (h : Nat) (evac : Bool) (hK : Keeps s0 s) : Keeps s0 (State.installCode s p h evac).1 := by
  refine KeepsP.keeps ?_
  unfold State.installCode
  repeat' first
    | with_reducible assumption
    | intro _
    | with_reducible apply KeepsP.ite
    | with_reducible apply State.meetRange_keeps
    | with_reducible apply State.meetSections_keeps
    | with_reducible refine Keeps.fst ?_ (by assumption)
    | with_reducible apply Keeps.ite
    | with_reducible apply Keeps.forEach
    | with_reducible apply Keeps.foldl
    | split
    | extract_lets
    | with_reducible apply KeepsP.pair

theorem State.programCode_keeps {s0 s : State} (p : Nat) (h : Nat) (ox : Nat) (oy : Nat) (hK : Keeps s0 s) : Keeps s0 (State.programCode s p h ox oy).1 := by
  refine KeepsP.keeps ?_
  unfold State.programCode
  repeat' first
    | with_reducible assumption
    | intro _
    | with_reducible apply KeepsP.ite
    | with_reducible apply Keeps.odAdd
    | with_reducible apply State.meetSections_keeps
    | with_reducible refine Keeps.fst ?_ (by assumption)
    | with_reducible apply Keeps.ite
    | with_reducible apply Keeps.forEach
    | with_reducible apply Keeps.foldl
    | split
    | extract_lets
    | with_reducible apply KeepsP.pair

theorem State.awaitHeld_keeps {s0 s : State} (p : Nat) (h : Nat) (ox : Nat) (oy : Nat) (endHeld : Bool) (evac : Bool) (hK : Keeps s0 s) : Keeps s0 (State.awaitHeld s p h ox oy endHeld evac) := by
  unfold State.awaitHeld
  repeat' first
    | with_reducible assumption
    | intro _
    | with_reducible apply Keeps.modPart
    | with_reducible apply Keeps.odSetP
    | with_reducible apply State.endHeld_keeps
    | with_reducible refine Keeps.fst ?_ (by assumption)
    | with_reducible apply Keeps.ite
    | with_reducible apply Keeps.forEach
    | with_reducible apply Keeps.foldl
    | split
    | extract_lets

theorem State.startInstall_keeps {s0 s : State} (p : Nat) (h : Nat) (ox : Nat) (oy : Nat) (endHeld : Bool) (evac : Bool) (cmd : List Byte) (hK : Keeps s0 s) : Keeps s0 (State.startInstall s p h ox oy endHeld evac cmd).1 := by
  refine KeepsP.keeps ?_
  unfold State.startInstall
  repeat' first
    | with_reducible assumption
    | intro _
    | with_reducible apply KeepsP.ite
    | with_reducible apply Keeps.modPart
    | with_reducible apply Keeps.odSetP
    | with_reducible apply State.endHeld_keeps
    | with_reducible apply State.countMaint_keeps
    | with_reducible apply State.startAct_keeps
    | with_reducible apply State.queueAct_keeps
    | with_reducible apply State.installCode_keeps
    | with_reducible apply State.programCode_keeps
    | with_reducible apply State.awaitHeld_keeps
    | with_reducible refine Keeps.fst ?_ (by assumption)
    | with_reducible apply Keeps.ite
    | with_reducible apply Keeps.forEach
    | with_reducible apply Keeps.foldl
    | split
    | extract_lets
    | with_reducible apply KeepsP.pair

theorem State.resumeInstall_keeps {s0 s : State} (p : Nat) (hK : Keeps s0 s) : Keeps s0 (State.resumeInstall s p) := by
  unfold State.resumeInstall
  repeat' first
    | with_reducible assumption
    | intro _
    | with_reducible apply State.endHeld_keeps
    | with_reducible apply State.startAct_keeps
    | with_reducible apply State.unqueue_keeps
    | with_reducible apply State.endModelCmd_keeps
    | with_reducible apply State.programCode_keeps
    | with_reducible apply State.awaitHeld_keeps
    | with_reducible refine Keeps.fst ?_ (by assumption)
    | with_reducible apply Keeps.ite
    | with_reducible apply Keeps.forEach
    | with_reducible apply Keeps.foldl
    | split
    | extract_lets

theorem State.runBurst_keeps {s0 s : State} (p : Nat) (t : TileId) (hdr : List Byte) (rows : List (List Byte)) (failed : List (TileId × Nat × Nat × List (Nat × Nat))) (hK : Keeps s0 s) : Keeps s0 (State.runBurst s p t hdr rows failed) := by
  unfold State.runBurst
  repeat' first
    | with_reducible assumption
    | intro _
    | with_reducible apply Keeps.modCb
    | with_reducible apply Keeps.modPart
    | with_reducible apply State.programRow_keeps
    | with_reducible refine Keeps.fst ?_ (by assumption)
    | with_reducible apply Keeps.ite
    | with_reducible apply Keeps.forEach
    | with_reducible apply Keeps.foldl
    | split
    | extract_lets

theorem State.noteArray_keeps {s0 s : State} (p : Nat) (add : Bool) (e : TileId × Nat) (hK : Keeps s0 s) : Keeps s0 (State.noteArray s p add e) := by
  unfold State.noteArray
  repeat' first
    | with_reducible assumption
    | intro _
    | with_reducible apply Keeps.modPart
    | with_reducible refine Keeps.fst ?_ (by assumption)
    | with_reducible apply Keeps.ite
    | with_reducible apply Keeps.forEach
    | with_reducible apply Keeps.foldl
    | split
    | extract_lets

theorem State.streamBursts_keeps {s0 s : State} (p : Nat) (add : Bool) (t : TileId) (failed : List (TileId × Nat × Nat × List (Nat × Nat))) (fuel : Nat) (b : List Byte) (hK : Keeps s0 s) : Keeps s0 (State.streamBursts s p add t failed fuel b).1 := by
  induction fuel generalizing s p add t failed b with
  | zero =>
    refine KeepsP.keeps ?_
    unfold State.streamBursts
    repeat' first
      | with_reducible assumption
      | intro _
      | with_reducible apply KeepsP.ite
      | with_reducible apply State.runBurst_keeps
      | with_reducible apply State.noteArray_keeps
      | with_reducible refine Keeps.fst ?_ (by assumption)
      | with_reducible apply Keeps.ite
      | with_reducible apply Keeps.forEach
      | with_reducible apply Keeps.foldl
      | split
      | extract_lets
      | with_reducible apply KeepsP.pair
  | succ n ih =>
    refine KeepsP.keeps ?_
    unfold State.streamBursts
    repeat' first
      | with_reducible assumption
      | intro _
      | with_reducible apply KeepsP.ite
      | with_reducible apply ih
      | with_reducible apply State.runBurst_keeps
      | with_reducible apply State.noteArray_keeps
      | with_reducible refine Keeps.fst ?_ (by assumption)
      | with_reducible apply Keeps.ite
      | with_reducible apply Keeps.forEach
      | with_reducible apply Keeps.foldl
      | split
      | extract_lets
      | with_reducible apply KeepsP.pair

theorem State.streamRecords_keeps {s0 s : State} (p : Nat) (add : Bool) (g : FrameAt) (failed : List (TileId × Nat × Nat × List (Nat × Nat))) (fuel : Nat) (b : List Byte) (hK : Keeps s0 s) : Keeps s0 (State.streamRecords s p add g failed fuel b).1 := by
  induction fuel generalizing s p add g failed b with
  | zero =>
    refine KeepsP.keeps ?_
    unfold State.streamRecords
    repeat' first
      | with_reducible assumption
      | intro _
      | with_reducible apply KeepsP.ite
      | with_reducible apply Keeps.odAddP
      | with_reducible apply State.streamBursts_keeps
      | with_reducible refine Keeps.fst ?_ (by assumption)
      | with_reducible apply Keeps.ite
      | with_reducible apply Keeps.forEach
      | with_reducible apply Keeps.foldl
      | split
      | extract_lets
      | with_reducible apply KeepsP.pair
  | succ n ih =>
    refine KeepsP.keeps ?_
    unfold State.streamRecords
    repeat' first
      | with_reducible assumption
      | intro _
      | with_reducible apply KeepsP.ite
      | with_reducible apply ih
      | with_reducible apply Keeps.odAddP
      | with_reducible apply State.streamBursts_keeps
      | with_reducible refine Keeps.fst ?_ (by assumption)
      | with_reducible apply Keeps.ite
      | with_reducible apply Keeps.forEach
      | with_reducible apply Keeps.foldl
      | split
      | extract_lets
      | with_reducible apply KeepsP.pair

theorem State.streamSection_keeps {s0 s : State} (p : Nat) (h : Nat) (add : Bool) (g : FrameAt) (key : List Byte) (b : List Byte) (failed : List (TileId × Nat × Nat × List (Nat × Nat))) (x : Section') (hK : Keeps s0 s) : Keeps s0 (State.streamSection s p h add g key b failed x).1 := by
  refine KeepsP.keeps ?_
  unfold State.streamSection
  repeat' first
    | with_reducible assumption
    | intro _
    | with_reducible apply KeepsP.ite
    | with_reducible apply State.meetRange_keeps
    | with_reducible apply State.streamRecords_keeps
    | with_reducible refine Keeps.fst ?_ (by assumption)
    | with_reducible apply Keeps.ite
    | with_reducible apply Keeps.forEach
    | with_reducible apply Keeps.foldl
    | split
    | extract_lets
    | with_reducible apply KeepsP.pair

theorem State.streamSections_keeps {s0 s : State} (p : Nat) (h : Nat) (add : Bool) (g : FrameAt) (key : List Byte) (b : List Byte) (failed : List (TileId × Nat × Nat × List (Nat × Nat))) (l : List Section') (hK : Keeps s0 s) : Keeps s0 (State.streamSections s p h add g key b failed l).1 := by
  induction l generalizing s p h add g key b failed with
  | nil =>
    refine KeepsP.keeps ?_
    unfold State.streamSections
    repeat' first
      | with_reducible assumption
      | intro _
      | with_reducible apply KeepsP.ite
      | with_reducible apply State.streamSection_keeps
      | with_reducible refine Keeps.fst ?_ (by assumption)
      | with_reducible apply Keeps.ite
      | with_reducible apply Keeps.forEach
      | with_reducible apply Keeps.foldl
      | split
      | extract_lets
      | with_reducible apply KeepsP.pair
  | cons a r ih =>
    refine KeepsP.keeps ?_
    unfold State.streamSections
    repeat' first
      | with_reducible assumption
      | intro _
      | with_reducible apply KeepsP.ite
      | with_reducible apply ih
      | with_reducible apply State.streamSection_keeps
      | with_reducible refine Keeps.fst ?_ (by assumption)
      | with_reducible apply Keeps.ite
      | with_reducible apply Keeps.forEach
      | with_reducible apply Keeps.foldl
      | split
      | extract_lets
      | with_reducible apply KeepsP.pair

theorem State.clearArrays_keeps {s0 s : State} (l : List (TileId × Nat)) (hK : Keeps s0 s) : Keeps s0 (State.clearArrays s l) := by
  unfold State.clearArrays
  repeat' first
    | with_reducible assumption
    | intro _
    | with_reducible apply Keeps.modCb
    | with_reducible apply Keeps.useFree
    | with_reducible refine Keeps.fst ?_ (by assumption)
    | with_reducible apply Keeps.ite
    | with_reducible apply Keeps.forEach
    | with_reducible apply Keeps.foldl
    | split
    | extract_lets

theorem State.pauseSegs_keeps {s0 s : State} (p : Nat) (hK : Keeps s0 s) : Keeps s0 (State.pauseSegs s p) := by
  unfold State.pauseSegs
  repeat' first
    | with_reducible assumption
    | intro _
    | with_reducible apply Keeps.modCb
    | with_reducible apply Keeps.modPart
    | with_reducible refine Keeps.fst ?_ (by assumption)
    | with_reducible apply Keeps.ite
    | with_reducible apply Keeps.forEach
    | with_reducible apply Keeps.foldl
    | split
    | extract_lets

theorem State.resumeSegs_keeps {s0 s : State} (p : Nat) (hK : Keeps s0 s) : Keeps s0 (State.resumeSegs s p) := by
  unfold State.resumeSegs
  repeat' first
    | with_reducible assumption
    | intro _
    | with_reducible apply Keeps.modCb
    | with_reducible apply Keeps.modPart
    | with_reducible refine Keeps.fst ?_ (by assumption)
    | with_reducible apply Keeps.ite
    | with_reducible apply Keeps.forEach
    | with_reducible apply Keeps.foldl
    | split
    | extract_lets

theorem State.streamInstall_keeps {s0 s : State} (p : Nat) (h : Nat) (ox : Nat) (oy : Nat) (endHeld : Bool) (evac : Bool) (since : Nat) (failed : List (TileId × Nat × Nat × List (Nat × Nat))) (hK : Keeps s0 s) : Keeps s0 (State.streamInstall s p h ox oy endHeld evac since failed) := by
  unfold State.streamInstall
  repeat' first
    | with_reducible assumption
    | intro _
    | with_reducible apply Keeps.modPart
    | with_reducible apply Keeps.odSetP
    | with_reducible apply State.endHeld_keeps
    | with_reducible apply State.unload_keeps
    | with_reducible apply State.endModelCmd_keeps
    | with_reducible apply State.streamSections_keeps
    | with_reducible apply State.clearArrays_keeps
    | with_reducible apply State.pauseSegs_keeps
    | with_reducible refine Keeps.fst ?_ (by assumption)
    | with_reducible apply Keeps.ite
    | with_reducible apply Keeps.forEach
    | with_reducible apply Keeps.foldl
    | split
    | extract_lets

theorem State.rewriteBursts_keeps {s0 s : State} (p : Nat) (bad : List (TileId × Nat)) (t : TileId) (failed : List (TileId × Nat × Nat × List (Nat × Nat))) (fuel : Nat) (b : List Byte) (hK : Keeps s0 s) : Keeps s0 (State.rewriteBursts s p bad t failed fuel b) := by
  induction fuel generalizing s p bad t failed b with
  | zero =>
    unfold State.rewriteBursts
    repeat' first
      | with_reducible assumption
      | intro _
      | with_reducible apply State.runBurst_keeps
      | with_reducible refine Keeps.fst ?_ (by assumption)
      | with_reducible apply Keeps.ite
      | with_reducible apply Keeps.forEach
      | with_reducible apply Keeps.foldl
      | split
      | extract_lets
  | succ n ih =>
    unfold State.rewriteBursts
    repeat' first
      | with_reducible assumption
      | intro _
      | with_reducible apply ih
      | with_reducible apply State.runBurst_keeps
      | with_reducible refine Keeps.fst ?_ (by assumption)
      | with_reducible apply Keeps.ite
      | with_reducible apply Keeps.forEach
      | with_reducible apply Keeps.foldl
      | split
      | extract_lets

theorem State.rewriteRecords_keeps {s0 s : State} (p : Nat) (g : FrameAt) (bad : List (TileId × Nat)) (failed : List (TileId × Nat × Nat × List (Nat × Nat))) (fuel : Nat) (b : List Byte) (hK : Keeps s0 s) : Keeps s0 (State.rewriteRecords s p g bad failed fuel b) := by
  induction fuel generalizing s p g bad failed b with
  | zero =>
    unfold State.rewriteRecords
    repeat' first
      | with_reducible assumption
      | intro _
      | with_reducible apply State.rewriteBursts_keeps
      | with_reducible refine Keeps.fst ?_ (by assumption)
      | with_reducible apply Keeps.ite
      | with_reducible apply Keeps.forEach
      | with_reducible apply Keeps.foldl
      | split
      | extract_lets
  | succ n ih =>
    unfold State.rewriteRecords
    repeat' first
      | with_reducible assumption
      | intro _
      | with_reducible apply ih
      | with_reducible apply State.rewriteBursts_keeps
      | with_reducible refine Keeps.fst ?_ (by assumption)
      | with_reducible apply Keeps.ite
      | with_reducible apply Keeps.forEach
      | with_reducible apply Keeps.foldl
      | split
      | extract_lets

theorem State.rewriteFailed_keeps {s0 s : State} (p : Nat) (h : Nat) (g : FrameAt) (failed : List (TileId × Nat × Nat × List (Nat × Nat))) (hK : Keeps s0 s) : Keeps s0 (State.rewriteFailed s p h g failed) := by
  unfold State.rewriteFailed
  repeat' first
    | with_reducible assumption
    | intro _
    | with_reducible apply Keeps.modPart
    | with_reducible apply State.rewriteRecords_keeps
    | with_reducible refine Keeps.fst ?_ (by assumption)
    | with_reducible apply Keeps.ite
    | with_reducible apply Keeps.forEach
    | with_reducible apply Keeps.foldl
    | split
    | extract_lets

theorem State.copyManifest_keeps {s0 s : State} (p : Nat) (m : List Byte) (hK : Keeps s0 s) : Keeps s0 (State.copyManifest s p m) := by
  unfold State.copyManifest
  repeat' first
    | with_reducible assumption
    | intro _
    | with_reducible apply Keeps.modPart
    | with_reducible apply Keeps.odSetP
    | with_reducible refine Keeps.fst ?_ (by assumption)
    | with_reducible apply Keeps.ite
    | with_reducible apply Keeps.forEach
    | with_reducible apply Keeps.foldl
    | split
    | extract_lets

theorem State.baseIn_keeps {s0 s : State} (p : Nat) (h : Nat) (ox : Nat) (oy : Nat) (hK : Keeps s0 s) : Keeps s0 (State.baseIn s p h ox oy) := by
  unfold State.baseIn
  repeat' first
    | with_reducible assumption
    | intro _
    | with_reducible apply Keeps.modPart
    | with_reducible apply Keeps.odSetP
    | with_reducible apply State.writeProgram_keeps
    | with_reducible apply State.copyManifest_keeps
    | with_reducible refine Keeps.fst ?_ (by assumption)
    | with_reducible apply Keeps.ite
    | with_reducible apply Keeps.forEach
    | with_reducible apply Keeps.foldl
    | split
    | extract_lets

theorem State.additionIn_keeps {s0 s : State} (p : Nat) (h : Nat) (hK : Keeps s0 s) : Keeps s0 (State.additionIn s p h) := by
  unfold State.additionIn
  repeat' first
    | with_reducible assumption
    | intro _
    | with_reducible apply Keeps.modPart
    | with_reducible apply Keeps.odSetP
    | with_reducible apply State.writeAddition_keeps
    | with_reducible apply State.resumeSegs_keeps
    | with_reducible refine Keeps.fst ?_ (by assumption)
    | with_reducible apply Keeps.ite
    | with_reducible apply Keeps.forEach
    | with_reducible apply Keeps.foldl
    | split
    | extract_lets

theorem State.finishInstall_keeps {s0 s : State} (p : Nat) (h : Nat) (ox : Nat) (oy : Nat) (since : Nat) (hK : Keeps s0 s) : Keeps s0 (State.finishInstall s p h ox oy since) := by
  unfold State.finishInstall
  repeat' first
    | with_reducible assumption
    | intro _
    | with_reducible apply Keeps.odSetP
    | with_reducible apply Keeps.odAdd
    | with_reducible apply Keeps.odAddP
    | with_reducible apply State.modHandle_keeps
    | with_reducible apply State.countServing_keeps
    | with_reducible apply State.prefixUnreachable_keeps
    | with_reducible apply State.endModelCmd_keeps
    | with_reducible apply State.releaseProgram_keeps
    | with_reducible apply State.baseIn_keeps
    | with_reducible apply State.additionIn_keeps
    | with_reducible refine Keeps.fst ?_ (by assumption)
    | with_reducible apply Keeps.ite
    | with_reducible apply Keeps.forEach
    | with_reducible apply Keeps.foldl
    | split
    | extract_lets

theorem State.followAddition_keeps {s0 s : State} (p : Nat) (add : Option Nat) (hK : Keeps s0 s) : Keeps s0 (State.followAddition s p add) := by
  unfold State.followAddition
  repeat' first
    | with_reducible assumption
    | intro _
    | with_reducible apply Keeps.odSetP
    | with_reducible apply State.startAct_keeps
    | with_reducible apply State.installCode_keeps
    | with_reducible apply State.programCode_keeps
    | with_reducible apply State.awaitHeld_keeps
    | with_reducible refine Keeps.fst ?_ (by assumption)
    | with_reducible apply Keeps.ite
    | with_reducible apply Keeps.forEach
    | with_reducible apply Keeps.foldl
    | split
    | extract_lets

theorem State.completeInstall_keeps {s0 s : State} (p : Nat) (h : Nat) (ox : Nat) (oy : Nat) (evac : Bool) (since : Nat) (failed : List (TileId × Nat × Nat × List (Nat × Nat))) (hK : Keeps s0 s) : Keeps s0 (State.completeInstall s p h ox oy evac since failed) := by
  unfold State.completeInstall
  repeat' first
    | with_reducible assumption
    | intro _
    | with_reducible apply Keeps.modCb
    | with_reducible apply Keeps.odSetP
    | with_reducible apply State.endModelCmd_keeps
    | with_reducible apply State.rewriteFailed_keeps
    | with_reducible apply State.finishInstall_keeps
    | with_reducible apply State.followAddition_keeps
    | with_reducible refine Keeps.fst ?_ (by assumption)
    | with_reducible apply Keeps.ite
    | with_reducible apply Keeps.forEach
    | with_reducible apply Keeps.foldl
    | split
    | extract_lets

theorem execInstallResume_keeps {s0 s u : State} (part : Nat) (rowsFailed : List (TileId × Nat × Nat × List (Nat × Nat))) (hK : Keeps s0 s) (e : execInstallResume part rowsFailed s = .next u) : Keeps s0 u := by
  unfold execInstallResume at e
  refine guardRes_keeps ?_ e
  repeat' first
    | with_reducible assumption
    | intro _
    | with_reducible apply State.streamInstall_keeps
    | with_reducible refine Keeps.fst ?_ (by assumption)
    | with_reducible apply Keeps.ite
    | with_reducible apply Keeps.forEach
    | with_reducible apply Keeps.foldl
    | split
    | extract_lets

theorem execInstallStreamDone_keeps {s0 s u : State} (part : Nat) (rowsFailed : List (TileId × Nat × Nat × List (Nat × Nat))) (hK : Keeps s0 s) (e : execInstallStreamDone part rowsFailed s = .next u) : Keeps s0 u := by
  unfold execInstallStreamDone at e
  refine guardRes_keeps ?_ e
  repeat' first
    | with_reducible assumption
    | intro _
    | with_reducible apply State.completeInstall_keeps
    | with_reducible refine Keeps.fst ?_ (by assumption)
    | with_reducible apply Keeps.ite
    | with_reducible apply Keeps.forEach
    | with_reducible apply Keeps.foldl
    | split
    | extract_lets

theorem execStageDataArrival_keeps {s0 s u : State} (part : Nat) (offset : Nat) (bytes : List Byte) (hK : Keeps s0 s) (e : execStageDataArrival part offset bytes s = .next u) : Keeps s0 u := by
  unfold execStageDataArrival at e
  refine guardRes_keeps ?_ e
  repeat' first
    | with_reducible assumption
    | intro _
    | with_reducible apply State.stageBytes_keeps
    | with_reducible refine Keeps.fst ?_ (by assumption)
    | with_reducible apply Keeps.ite
    | with_reducible apply Keeps.forEach
    | with_reducible apply Keeps.foldl
    | split
    | extract_lets

theorem State.discardHandle_keeps {s0 s : State} (p : Nat) (h : Nat) (hK : Keeps s0 s) : Keeps s0 (State.discardHandle s p h).1 := by
  refine KeepsP.keeps ?_
  unfold State.discardHandle
  repeat' first
    | with_reducible assumption
    | intro _
    | with_reducible apply KeepsP.ite
    | with_reducible apply Keeps.odSetP
    | with_reducible apply State.modHandle_keeps
    | with_reducible refine Keeps.fst ?_ (by assumption)
    | with_reducible apply Keeps.ite
    | with_reducible apply Keeps.forEach
    | with_reducible apply Keeps.foldl
    | split
    | extract_lets
    | with_reducible apply KeepsP.pair

theorem State.abortStage_keeps {s0 s : State} (p : Nat) (hK : Keeps s0 s) : Keeps s0 (State.abortStage s p).1 := by
  refine KeepsP.keeps ?_
  unfold State.abortStage
  repeat' first
    | with_reducible assumption
    | intro _
    | with_reducible apply KeepsP.ite
    | with_reducible apply State.endStage_keeps
    | with_reducible refine Keeps.fst ?_ (by assumption)
    | with_reducible apply Keeps.ite
    | with_reducible apply Keeps.forEach
    | with_reducible apply Keeps.foldl
    | split
    | extract_lets
    | with_reducible apply KeepsP.pair

theorem State.modelCommand_keeps {s0 s : State} (caller : Caller) (p : Nat) (cmd : List Byte) (hK : Keeps s0 s) : Keeps s0 (State.modelCommand caller p cmd s).1 := by
  refine KeepsP.keeps ?_
  unfold State.modelCommand
  repeat' first
    | with_reducible assumption
    | intro _
    | with_reducible apply KeepsP.ite
    | with_reducible apply State.startStage_keeps
    | with_reducible apply State.startInstall_keeps
    | with_reducible apply State.discardHandle_keeps
    | with_reducible apply State.abortStage_keeps
    | with_reducible refine Keeps.fst ?_ (by assumption)
    | with_reducible apply Keeps.ite
    | with_reducible apply Keeps.forEach
    | with_reducible apply Keeps.foldl
    | split
    | extract_lets
    | with_reducible apply KeepsP.pair

theorem execStage_keeps {s0 s u : State} (caller : Caller) (part : Nat) (cmd : List Byte) (hK : Keeps s0 s) (e : execStage caller part cmd s = .next u) : Keeps s0 u := by
  unfold execStage at e
  refine guardRes_keeps ?_ e
  repeat' first
    | with_reducible assumption
    | intro _
    | with_reducible apply State.command_keeps
    | with_reducible apply State.modelCommand_keeps
    | with_reducible refine Keeps.fst ?_ (by assumption)
    | with_reducible apply Keeps.ite
    | with_reducible apply Keeps.forEach
    | with_reducible apply Keeps.foldl
    | split
    | extract_lets

theorem execInstall_keeps {s0 s u : State} (caller : Caller) (part : Nat) (cmd : List Byte) (hK : Keeps s0 s) (e : execInstall caller part cmd s = .next u) : Keeps s0 u := by
  unfold execInstall at e
  refine guardRes_keeps ?_ e
  repeat' first
    | with_reducible assumption
    | intro _
    | with_reducible apply State.command_keeps
    | with_reducible apply State.modelCommand_keeps
    | with_reducible refine Keeps.fst ?_ (by assumption)
    | with_reducible apply Keeps.ite
    | with_reducible apply Keeps.forEach
    | with_reducible apply Keeps.foldl
    | split
    | extract_lets

theorem execDiscard_keeps {s0 s u : State} (caller : Caller) (part : Nat) (cmd : List Byte) (hK : Keeps s0 s) (e : execDiscard caller part cmd s = .next u) : Keeps s0 u := by
  unfold execDiscard at e
  refine guardRes_keeps ?_ e
  repeat' first
    | with_reducible assumption
    | intro _
    | with_reducible apply State.discard_keeps
    | with_reducible apply State.command_keeps
    | with_reducible apply State.modelCommand_keeps
    | with_reducible refine Keeps.fst ?_ (by assumption)
    | with_reducible apply Keeps.ite
    | with_reducible apply Keeps.forEach
    | with_reducible apply Keeps.foldl
    | split
    | extract_lets

theorem execAbort_keeps {s0 s u : State} (caller : Caller) (part : Nat) (cmd : List Byte) (hK : Keeps s0 s) (e : execAbort caller part cmd s = .next u) : Keeps s0 u := by
  unfold execAbort at e
  refine guardRes_keeps ?_ e
  repeat' first
    | with_reducible assumption
    | intro _
    | with_reducible apply State.command_keeps
    | with_reducible apply State.modelCommand_keeps
    | with_reducible refine Keeps.fst ?_ (by assumption)
    | with_reducible apply Keeps.ite
    | with_reducible apply Keeps.forEach
    | with_reducible apply Keeps.foldl
    | split
    | extract_lets

theorem State.dropPrefixTree_keeps {s0 s : State} (caller : Caller) (p : Nat) (hK : Keeps s0 s) : Keeps s0 (State.dropPrefixTree caller p s).1 := by
  refine KeepsP.keeps ?_
  unfold State.dropPrefixTree
  repeat' first
    | with_reducible assumption
    | intro _
    | with_reducible apply KeepsP.ite
    | with_reducible apply State.prefixUnreachable_keeps
    | with_reducible refine Keeps.fst ?_ (by assumption)
    | with_reducible apply Keeps.ite
    | with_reducible apply Keeps.forEach
    | with_reducible apply Keeps.foldl
    | split
    | extract_lets
    | with_reducible apply KeepsP.pair

theorem execMakePrefixTreeUnreachable_keeps {s0 s u : State} (caller : Caller) (part : Nat) (value : Nat) (hK : Keeps s0 s) (e : execMakePrefixTreeUnreachable caller part value s = .next u) : Keeps s0 u := by
  unfold execMakePrefixTreeUnreachable at e
  refine guardRes_keeps ?_ e
  repeat' first
    | with_reducible assumption
    | intro _
    | with_reducible apply State.command_keeps
    | with_reducible apply oneOnly_keeps
    | with_reducible apply State.dropPrefixTree_keeps
    | with_reducible refine Keeps.fst ?_ (by assumption)
    | with_reducible apply Keeps.ite
    | with_reducible apply Keeps.forEach
    | with_reducible apply Keeps.foldl
    | split
    | extract_lets

theorem State.rejuvenating_keeps {s0 s u : State} (f : Nat) (hK : Keeps s0 s) (e : State.rejuvenating s f = some u) : Keeps s0 u := by
  unfold State.rejuvenating at e
  (repeat' split at e) <;> first
    | (rw [← Option.some.inj e]; repeat' first
        | with_reducible assumption
        | with_reducible apply State.endRejuvenation_keeps
        | with_reducible apply State.startAct_keeps
        | with_reducible apply Keeps.foldl
        | intro _)
    | exact absurd e (by simp)

theorem execRejuvenation_keeps {s0 s u : State} (t : TileId) (a : Nat) (row : Nat) (outcome : RowOutcome) (hK : Keeps s0 s) (e : execRejuvenation t a row outcome s = .next u) : Keeps s0 u := by
  unfold execRejuvenation at e
  refine guardRes_keeps ?_ e
  repeat' first
    | with_reducible assumption
    | intro _
    | with_reducible apply Keeps.modCb
    | with_reducible apply Keeps.odSet
    | with_reducible apply Keeps.odAdd
    | with_reducible apply Keeps.log
    | with_reducible apply State.programRow_keeps
    | with_reducible apply State.endRejuvenation_keeps
    | with_reducible apply State.meetRange_keeps
    | with_reducible apply State.rejuvenating_keeps (e := by assumption)
    | with_reducible refine Keeps.fst ?_ (by assumption)
    | with_reducible apply Keeps.ite
    | with_reducible apply Keeps.forEach
    | with_reducible apply Keeps.foldl
    | split
    | extract_lets

end Sys2Proof.Machine
end

