-- ==== Sys2Proof/Laws/KeepsResets.lean ====
section
/-!
SUPPORT. Every operation of Machine/Resets.lean keeps what `Keeps` says.
-/

namespace Sys2Proof.Machine

theorem State.allocRegions_keeps {s0 s u : State} (p : Nat) (hK : Keeps s0 s) (e : s.allocRegions p = some u) : Keeps s0 u := by
  unfold State.allocRegions at e
  extract_lets sizes got kept extents regions at e
  split at e
  · cases e
  · rw [← Option.some.inj e]
    refine Keeps.odSetP ?_ _ _ _ _
    exact hK.stk id

theorem State.freeRegions_keeps {s0 s : State} (p : Nat) (hK : Keeps s0 s) : Keeps s0 (State.freeRegions s p) := by
  unfold State.freeRegions
  repeat' first
    | with_reducible assumption
    | intro _
    | with_reducible apply Keeps.odSetP
    | with_reducible refine Keeps.fst ?_ (by assumption)
    | with_reducible apply Keeps.ite
    | with_reducible apply Keeps.forEach
    | with_reducible apply Keeps.foldl
    | split
    | extract_lets
    | fail_if_no_progress (with_reducible refine Keeps.stk ?_ id)
    | fail_if_no_progress (with_reducible refine Keeps.stk ?_ (mwrite_wf _ _ _ _))
    | fail_if_no_progress (with_reducible refine Keeps.stk ?_ (mset_wf _ _ _ _))
    | fail_if_no_progress (with_reducible refine Keeps.stk ?_ (filter_wf _ _ _))

theorem State.eraseRegions_keeps {s0 s : State} (p : Nat) (hK : Keeps s0 s) : Keeps s0 (State.eraseRegions s p) := by
  unfold State.eraseRegions
  repeat' first
    | with_reducible assumption
    | intro _
    | with_reducible apply State.eraseStack_keeps
    | with_reducible refine Keeps.fst ?_ (by assumption)
    | with_reducible apply Keeps.ite
    | with_reducible apply Keeps.forEach
    | with_reducible apply Keeps.foldl
    | split
    | extract_lets

theorem State.resizeBlock_keeps {s0 s : State} (p : Nat) (hK : Keeps s0 s) : Keeps s0 (State.resizeBlock s p) := by
  unfold State.resizeBlock
  repeat' first
    | with_reducible assumption
    | intro _
    | with_reducible apply Keeps.modPart
    | with_reducible apply Keeps.odSetP
    | with_reducible apply Keeps.log
    | with_reducible refine Keeps.fst ?_ (by assumption)
    | with_reducible apply Keeps.ite
    | with_reducible apply Keeps.forEach
    | with_reducible apply Keeps.foldl
    | split
    | extract_lets

theorem State.resizePart_keeps {s0 s : State} (p : Nat) (hK : Keeps s0 s) : Keeps s0 (State.resizePart s p) := by
  unfold State.resizePart
  repeat' first
    | with_reducible assumption
    | intro _
    | with_reducible apply Keeps.log
    | with_reducible apply State.allocRegions_keeps (e := by assumption)
    | with_reducible apply State.resizeBlock_keeps
    | with_reducible refine Keeps.fst ?_ (by assumption)
    | with_reducible apply Keeps.ite
    | with_reducible apply Keeps.forEach
    | with_reducible apply Keeps.foldl
    | split
    | extract_lets

theorem State.dropCaller_keeps {s0 s : State} (c : Caller) (hK : Keeps s0 s) : Keeps s0 (State.dropCaller s c) := by
  unfold State.dropCaller
  repeat' first
    | with_reducible assumption
    | intro _
    | with_reducible refine Keeps.fst ?_ (by assumption)
    | with_reducible apply Keeps.ite
    | with_reducible apply Keeps.forEach
    | with_reducible apply Keeps.foldl
    | split
    | extract_lets
    | fail_if_no_progress (with_reducible refine Keeps.hub ?_ rfl rfl)

theorem State.resetFn_keeps {s0 s : State} (port : Port) (fn : Nat) (keepIde : Bool) (hK : Keeps s0 s) : Keeps s0 (State.resetFn s port fn keepIde) := by
  unfold State.resetFn
  repeat' first
    | with_reducible assumption
    | intro _
    | with_reducible apply Keeps.modFn
    | with_reducible apply Keeps.odSet
    | with_reducible apply State.freeLock_keeps
    | with_reducible apply State.dropCaller_keeps
    | with_reducible refine Keeps.fst ?_ (by assumption)
    | with_reducible apply Keeps.ite
    | with_reducible apply Keeps.forEach
    | with_reducible apply Keeps.foldl
    | split
    | extract_lets

theorem State.rebind_keeps {s0 s : State} (p : Nat) (hK : Keeps s0 s) : Keeps s0 (State.rebind s p) := by
  unfold State.rebind
  repeat' first
    | with_reducible assumption
    | intro _
    | with_reducible apply Keeps.modPart
    | with_reducible apply Keeps.modFn
    | with_reducible apply State.interrupt_keeps
    | with_reducible apply State.resetFn_keeps
    | with_reducible refine Keeps.fst ?_ (by assumption)
    | with_reducible apply Keeps.ite
    | with_reducible apply Keeps.forEach
    | with_reducible apply Keeps.foldl
    | split
    | extract_lets

theorem State.startScrub_keeps {s0 s : State} (p : Nat) (next : Nat) (hK : Keeps s0 s) : Keeps s0 (State.startScrub s p next) := by
  unfold State.startScrub
  repeat' first
    | with_reducible assumption
    | intro _
    | with_reducible apply Keeps.modPart
    | with_reducible apply Keeps.odSet
    | with_reducible apply State.dropRoutes_keeps
    | with_reducible apply State.eraseRegions_keeps
    | with_reducible refine Keeps.fst ?_ (by assumption)
    | with_reducible apply Keeps.ite
    | with_reducible apply Keeps.forEach
    | with_reducible apply Keeps.foldl
    | split
    | extract_lets

theorem State.endPartCmd_keeps {s0 s : State} (p : Nat) (code : Nat) (hK : Keeps s0 s) : Keeps s0 (State.endPartCmd s p code) := by
  unfold State.endPartCmd
  repeat' first
    | with_reducible assumption
    | intro _
    | with_reducible apply Keeps.odSet
    | with_reducible apply State.showActs_keeps
    | with_reducible refine Keeps.fst ?_ (by assumption)
    | with_reducible apply Keeps.ite
    | with_reducible apply Keeps.forEach
    | with_reducible apply Keeps.foldl
    | split
    | extract_lets
    | fail_if_no_progress (with_reducible refine Keeps.hub ?_ rfl rfl)

theorem State.formPart_keeps {s0 s : State} (p : Nat) (hK : Keeps s0 s) : Keeps s0 (State.formPart s p).1 := by
  refine KeepsP.keeps ?_
  unfold State.formPart
  repeat' first
    | with_reducible assumption
    | intro _
    | with_reducible apply KeepsP.ite
    | with_reducible apply Keeps.modPart
    | with_reducible apply Keeps.odSetP
    | with_reducible apply Keeps.odSet
    | with_reducible apply State.interrupt_keeps
    | with_reducible apply State.odResetPart_keeps
    | with_reducible apply State.pushReread_keeps
    | with_reducible apply State.allocRegions_keeps (e := by assumption)
    | with_reducible apply State.rebind_keeps
    | with_reducible refine Keeps.fst ?_ (by assumption)
    | with_reducible apply Keeps.ite
    | with_reducible apply Keeps.forEach
    | with_reducible apply Keeps.foldl
    | split
    | extract_lets
    | with_reducible apply KeepsP.pair

theorem State.endWork_keeps {s0 s : State} (p : Nat) (code : Nat) (hK : Keeps s0 s) : Keeps s0 (State.endWork s p code) := by
  unfold State.endWork
  repeat' first
    | with_reducible assumption
    | intro _
    | with_reducible apply State.endHeld_keeps
    | with_reducible apply State.unload_keeps
    | with_reducible apply State.closeTx_keeps
    | with_reducible apply State.dropRx_keeps
    | with_reducible apply State.endModel_keeps
    | with_reducible refine Keeps.fst ?_ (by assumption)
    | with_reducible apply Keeps.ite
    | with_reducible apply Keeps.forEach
    | with_reducible apply Keeps.foldl
    | split
    | extract_lets

theorem State.wipePart_keeps {s0 s : State} (p : Nat) (hK : Keeps s0 s) : Keeps s0 (State.wipePart s p) := by
  unfold State.wipePart
  repeat' first
    | with_reducible assumption
    | intro _
    | with_reducible apply Keeps.modPart
    | with_reducible apply State.countHeld_keeps
    | with_reducible apply State.odResetPart_keeps
    | with_reducible apply State.clearDebug_keeps
    | with_reducible apply State.clearCtrl_keeps
    | with_reducible apply State.rebind_keeps
    | with_reducible refine Keeps.fst ?_ (by assumption)
    | with_reducible apply Keeps.ite
    | with_reducible apply Keeps.forEach
    | with_reducible apply Keeps.foldl
    | split
    | extract_lets

theorem State.resetPart_keeps {s0 s : State} (p : Nat) (dissolve : Bool) (hK : Keeps s0 s) : Keeps s0 (State.resetPart s p dissolve) := by
  unfold State.resetPart
  repeat' first
    | with_reducible assumption
    | intro _
    | with_reducible apply Keeps.odSet
    | with_reducible apply State.interrupt_keeps
    | with_reducible apply State.yieldField_keeps
    | with_reducible apply State.pushReread_keeps
    | with_reducible apply State.resizePart_keeps
    | with_reducible apply State.startScrub_keeps
    | with_reducible apply State.endWork_keeps
    | with_reducible apply State.wipePart_keeps
    | with_reducible refine Keeps.fst ?_ (by assumption)
    | with_reducible apply Keeps.ite
    | with_reducible apply Keeps.forEach
    | with_reducible apply Keeps.foldl
    | split
    | extract_lets

theorem State.freePart_keeps {s0 s : State} (p : Nat) (hK : Keeps s0 s) : Keeps s0 (State.freePart s p) := by
  unfold State.freePart
  repeat' first
    | with_reducible assumption
    | intro _
    | with_reducible apply Keeps.modPart
    | with_reducible apply Keeps.odSetP
    | with_reducible apply Keeps.odSet
    | with_reducible apply State.freeRegions_keeps
    | with_reducible refine Keeps.fst ?_ (by assumption)
    | with_reducible apply Keeps.ite
    | with_reducible apply Keeps.forEach
    | with_reducible apply Keeps.foldl
    | split
    | extract_lets

theorem State.finishScrub_keeps {s0 s : State} (p : Nat) (failed : List (TileId × Nat)) (hK : Keeps s0 s) : Keeps s0 (State.finishScrub s p failed) := by
  unfold State.finishScrub
  repeat' first
    | with_reducible assumption
    | intro _
    | with_reducible apply Keeps.modPart
    | with_reducible apply Keeps.odSet
    | with_reducible apply State.scrubField_keeps
    | with_reducible apply State.endPartCmd_keeps
    | with_reducible apply State.freePart_keeps
    | with_reducible refine Keeps.fst ?_ (by assumption)
    | with_reducible apply Keeps.ite
    | with_reducible apply Keeps.forEach
    | with_reducible apply Keeps.foldl
    | split
    | extract_lets

theorem State.runPart_keeps {s0 s : State} (opc : Nat) (p : Nat) (hK : Keeps s0 s) : Keeps s0 (State.runPart s opc p).1 := by
  refine KeepsP.keeps ?_
  unfold State.runPart
  repeat' first
    | with_reducible assumption
    | intro _
    | with_reducible apply KeepsP.ite
    | with_reducible apply Keeps.odSet
    | with_reducible apply Keeps.log
    | with_reducible apply State.yieldField_keeps
    | with_reducible apply State.startAct_keeps
    | with_reducible apply State.endPartCmd_keeps
    | with_reducible apply State.formPart_keeps
    | with_reducible apply State.resetPart_keeps
    | with_reducible refine Keeps.fst ?_ (by assumption)
    | with_reducible apply Keeps.ite
    | with_reducible apply Keeps.forEach
    | with_reducible apply Keeps.foldl
    | split
    | extract_lets
    | with_reducible apply KeepsP.pair

theorem State.partCommand_keeps {s0 s : State} (cmd : List Byte) (hK : Keeps s0 s) : Keeps s0 (State.partCommand cmd s).1 := by
  refine KeepsP.keeps ?_
  unfold State.partCommand
  repeat' first
    | with_reducible assumption
    | intro _
    | with_reducible apply KeepsP.ite
    | with_reducible apply Keeps.setBlobP
    | with_reducible apply State.countMaint_keeps
    | with_reducible apply State.queueAct_keeps
    | with_reducible apply State.runPart_keeps
    | with_reducible refine Keeps.fst ?_ (by assumption)
    | with_reducible apply Keeps.ite
    | with_reducible apply Keeps.forEach
    | with_reducible apply Keeps.foldl
    | split
    | extract_lets
    | with_reducible apply KeepsP.pair

theorem execForm_keeps {s0 s u : State} (caller : Caller) (cmd : List Byte) (hK : Keeps s0 s) (e : execForm caller cmd s = .next u) : Keeps s0 u := by
  unfold execForm at e
  refine guardRes_keeps ?_ e
  repeat' first
    | with_reducible assumption
    | intro _
    | with_reducible apply State.command_keeps
    | with_reducible apply State.partCommand_keeps
    | with_reducible refine Keeps.fst ?_ (by assumption)
    | with_reducible apply Keeps.ite
    | with_reducible apply Keeps.forEach
    | with_reducible apply Keeps.foldl
    | split
    | extract_lets

theorem execReset_keeps {s0 s u : State} (caller : Caller) (cmd : List Byte) (hK : Keeps s0 s) (e : execReset caller cmd s = .next u) : Keeps s0 u := by
  unfold execReset at e
  refine guardRes_keeps ?_ e
  repeat' first
    | with_reducible assumption
    | intro _
    | with_reducible apply State.command_keeps
    | with_reducible apply State.partCommand_keeps
    | with_reducible refine Keeps.fst ?_ (by assumption)
    | with_reducible apply Keeps.ite
    | with_reducible apply Keeps.forEach
    | with_reducible apply Keeps.foldl
    | split
    | extract_lets

theorem execDissolve_keeps {s0 s u : State} (caller : Caller) (cmd : List Byte) (hK : Keeps s0 s) (e : execDissolve caller cmd s = .next u) : Keeps s0 u := by
  unfold execDissolve at e
  refine guardRes_keeps ?_ e
  repeat' first
    | with_reducible assumption
    | intro _
    | with_reducible apply State.command_keeps
    | with_reducible apply State.partCommand_keeps
    | with_reducible refine Keeps.fst ?_ (by assumption)
    | with_reducible apply Keeps.ite
    | with_reducible apply Keeps.forEach
    | with_reducible apply Keeps.foldl
    | split
    | extract_lets

theorem execScrubComplete_keeps {s0 s u : State} (part : Nat) (failedArrays : List (TileId × Nat)) (hK : Keeps s0 s) (e : execScrubComplete part failedArrays s = .next u) : Keeps s0 u := by
  unfold execScrubComplete at e
  refine guardRes_keeps ?_ e
  repeat' first
    | with_reducible assumption
    | intro _
    | with_reducible apply State.finishScrub_keeps
    | with_reducible refine Keeps.fst ?_ (by assumption)
    | with_reducible apply Keeps.ite
    | with_reducible apply Keeps.forEach
    | with_reducible apply Keeps.foldl
    | split
    | extract_lets

theorem State.hostReset_keeps {s0 s : State} (p : Nat) (hK : Keeps s0 s) : Keeps s0 (State.hostReset s p) := by
  unfold State.hostReset
  repeat' first
    | with_reducible assumption
    | intro _
    | with_reducible apply Keeps.modPart
    | with_reducible apply State.endPartCmd_keeps
    | with_reducible apply State.wipePart_keeps
    | with_reducible apply State.resetPart_keeps
    | with_reducible refine Keeps.fst ?_ (by assumption)
    | with_reducible apply Keeps.ite
    | with_reducible apply Keeps.forEach
    | with_reducible apply Keeps.foldl
    | split
    | extract_lets
    | fail_if_no_progress (with_reducible refine Keeps.hub ?_ rfl rfl)

theorem State.logReset_keeps {s0 s : State} (port : Port) (part : Nat) (hK : Keeps s0 s) : Keeps s0 (State.logReset s port part) := by
  unfold State.logReset
  repeat' first
    | with_reducible assumption
    | intro _
    | with_reducible apply Keeps.log
    | with_reducible refine Keeps.fst ?_ (by assumption)
    | with_reducible apply Keeps.ite
    | with_reducible apply Keeps.forEach
    | with_reducible apply Keeps.foldl
    | split
    | extract_lets

theorem execPerst_keeps {s0 s u : State} (port : Port) (hK : Keeps s0 s) (e : execPerst port s = .next u) : Keeps s0 u := by
  unfold execPerst at e
  refine guardRes_keeps ?_ e
  repeat' first
    | with_reducible assumption
    | intro _
    | with_reducible apply Keeps.odSet
    | with_reducible apply State.resetFn_keeps
    | with_reducible apply State.hostReset_keeps
    | with_reducible apply State.logReset_keeps
    | with_reducible refine Keeps.fst ?_ (by assumption)
    | with_reducible apply Keeps.ite
    | with_reducible apply Keeps.forEach
    | with_reducible apply Keeps.foldl
    | split
    | extract_lets

theorem execFunctionLevelReset_keeps {s0 s u : State} (port : Port) (fn : Nat) (hK : Keeps s0 s) (e : execFunctionLevelReset port fn s = .next u) : Keeps s0 u := by
  unfold execFunctionLevelReset at e
  refine guardRes_keeps ?_ e
  repeat' first
    | with_reducible assumption
    | intro _
    | with_reducible apply State.resetFn_keeps
    | with_reducible apply State.hostReset_keeps
    | with_reducible apply State.logReset_keeps
    | with_reducible refine Keeps.fst ?_ (by assumption)
    | with_reducible apply Keeps.ite
    | with_reducible apply Keeps.forEach
    | with_reducible apply Keeps.foldl
    | split
    | extract_lets

theorem State.losePower_keeps {s0 s : State} (hK : Keeps s0 s) : Keeps s0 (State.losePower s) := by
  unfold State.losePower
  extract_lets a b slot
  have hb : Keeps s0 b := Keeps.forEach (fun _ _ h => h.odSet _ _ _) _ (State.odReset_keeps _ hK)
  refine ⟨hb.pending, hb.out, hb.free, fun c => ?_⟩
  have cs := hK.canon c
  have cb := hb.canon c
  exact ⟨filterMapVal_wf ({} : Tile) ({} : Tile) s.tiles (fun e => flashTile e.2) cs.tiles, nil_wf _, nil_wf _, nil_wf _, nil_wf _,
    nil_wf _, cb.od, cb.blob, Nat.zero_le _, cs.flash, cb.time⟩

theorem State.pin_keeps {s0 s : State} (name : String) (level : Bool) (hK : Keeps s0 s) : Keeps s0 (State.pin s name level) := by
  unfold State.pin
  repeat' first
    | with_reducible assumption
    | intro _
    | with_reducible apply Keeps.emit
    | with_reducible refine Keeps.fst ?_ (by assumption)
    | with_reducible apply Keeps.ite
    | with_reducible apply Keeps.forEach
    | with_reducible apply Keeps.foldl
    | split
    | extract_lets

theorem State.releaseFault_keeps {s0 s : State} (hK : Keeps s0 s) : Keeps s0 (State.releaseFault s) := by
  unfold State.releaseFault
  repeat' first
    | with_reducible assumption
    | intro _
    | with_reducible apply State.pin_keeps
    | with_reducible refine Keeps.fst ?_ (by assumption)
    | with_reducible apply Keeps.ite
    | with_reducible apply Keeps.forEach
    | with_reducible apply Keeps.foldl
    | split
    | extract_lets

theorem State.runImage_keeps {s0 s : State} (im : Image) (hK : Keeps s0 s) : Keeps s0 (State.runImage s im) := by
  unfold State.runImage
  repeat' first
    | with_reducible assumption
    | intro _
    | with_reducible apply Keeps.odSet
    | with_reducible apply Keeps.setBlobP
    | with_reducible refine Keeps.fst ?_ (by assumption)
    | with_reducible apply Keeps.ite
    | with_reducible apply Keeps.forEach
    | with_reducible apply Keeps.foldl
    | split
    | extract_lets
    | fail_if_no_progress (with_reducible refine Keeps.hub ?_ rfl rfl)

theorem State.hubSettings_keeps {s0 s : State} (hK : Keeps s0 s) : Keeps s0 (State.hubSettings s) := by
  unfold State.hubSettings
  extract_lets dev udp changed hb fb s1
  have h1 : Keeps s0 s1 :=
    hK.same rfl rfl rfl (fun c => ⟨c.1, c.2, c.3, c.4, c.5, c.6, c.7, c.8, c.9, c.10, c.11⟩)
  split
  · exact h1.odSet _ _ _
  · exact h1

theorem State.haltHub_keeps {s0 s : State} (hK : Keeps s0 s) : Keeps s0 (State.haltHub s) := by
  unfold State.haltHub
  repeat' first
    | with_reducible assumption
    | intro _
    | with_reducible apply State.pin_keeps
    | with_reducible refine Keeps.fst ?_ (by assumption)
    | with_reducible apply Keeps.ite
    | with_reducible apply Keeps.forEach
    | with_reducible apply Keeps.foldl
    | split
    | extract_lets
    | fail_if_no_progress (with_reducible refine Keeps.hub ?_ rfl rfl)

theorem State.enterRecovery_keeps {s0 s : State} (hK : Keeps s0 s) : Keeps s0 (State.enterRecovery s) := by
  unfold State.enterRecovery
  repeat' first
    | with_reducible assumption
    | intro _
    | with_reducible apply Keeps.odSet
    | with_reducible apply State.pin_keeps
    | with_reducible refine Keeps.fst ?_ (by assumption)
    | with_reducible apply Keeps.ite
    | with_reducible apply Keeps.forEach
    | with_reducible apply Keeps.foldl
    | split
    | extract_lets
    | fail_if_no_progress (with_reducible refine Keeps.hub ?_ rfl rfl)

theorem State.trainStacks_keeps {s0 s : State} (env : StartEnv) (hK : Keeps s0 s) : Keeps s0 (State.trainStacks s env) := by
  unfold State.trainStacks
  repeat' first
    | with_reducible assumption
    | intro _
    | with_reducible apply Keeps.odSet
    | with_reducible refine Keeps.fst ?_ (by assumption)
    | with_reducible apply Keeps.ite
    | with_reducible apply Keeps.forEach
    | with_reducible apply Keeps.foldl
    | split
    | extract_lets
    | fail_if_no_progress (with_reducible refine Keeps.stk ?_ id)
    | fail_if_no_progress (with_reducible refine Keeps.stk ?_ (mwrite_wf _ _ _ _))
    | fail_if_no_progress (with_reducible refine Keeps.stk ?_ (mset_wf _ _ _ _))
    | fail_if_no_progress (with_reducible refine Keeps.stk ?_ (filter_wf _ _ _))

theorem State.startField_keeps {s0 s : State} (env : StartEnv) (f : Nat) (hK : Keeps s0 s) : Keeps s0 (State.startField s env f) := by
  unfold State.startField
  repeat' first
    | with_reducible assumption
    | intro _
    | with_reducible apply Keeps.odSet
    | with_reducible apply Keeps.log
    | with_reducible apply State.phaseTest_keeps
    | with_reducible apply State.setGrant_keeps
    | with_reducible apply State.scrubField_keeps
    | with_reducible apply State.startTrims_keeps
    | with_reducible apply State.restoreLinks_keeps
    | with_reducible refine Keeps.fst ?_ (by assumption)
    | with_reducible apply Keeps.ite
    | with_reducible apply Keeps.forEach
    | with_reducible apply Keeps.foldl
    | split
    | extract_lets

theorem State.startFields_keeps {s0 s : State} (env : StartEnv) (hK : Keeps s0 s) : Keeps s0 (State.startFields s env) := by
  unfold State.startFields
  repeat' first
    | with_reducible assumption
    | intro _
    | with_reducible apply Keeps.odSet
    | with_reducible apply State.startField_keeps
    | with_reducible refine Keeps.fst ?_ (by assumption)
    | with_reducible apply Keeps.ite
    | with_reducible apply Keeps.forEach
    | with_reducible apply Keeps.foldl
    | split
    | extract_lets
    | fail_if_no_progress (with_reducible apply Keeps.mesh)

theorem State.formIfSaved_keeps {s0 s : State} (p : Nat) (hK : Keeps s0 s) : Keeps s0 (State.formIfSaved s p) := by
  unfold State.formIfSaved
  repeat' first
    | with_reducible assumption
    | intro _
    | with_reducible apply Keeps.log
    | with_reducible apply State.formPart_keeps
    | with_reducible refine Keeps.fst ?_ (by assumption)
    | with_reducible apply Keeps.ite
    | with_reducible apply Keeps.forEach
    | with_reducible apply Keeps.foldl
    | split
    | extract_lets

theorem State.serveStart_keeps {s0 s : State} (env : StartEnv) (hK : Keeps s0 s) : Keeps s0 (State.serveStart s env) := by
  unfold State.serveStart
  repeat' first
    | with_reducible assumption
    | intro _
    | with_reducible apply Keeps.odSet
    | with_reducible apply Keeps.log
    | with_reducible apply State.pin_keeps
    | with_reducible refine Keeps.fst ?_ (by assumption)
    | with_reducible apply Keeps.ite
    | with_reducible apply Keeps.forEach
    | with_reducible apply Keeps.foldl
    | split
    | extract_lets
    | fail_if_no_progress (with_reducible refine Keeps.hub ?_ rfl rfl)

theorem State.startClk_keeps {s0 s : State} (cold : Bool) (hK : Keeps s0 s) : Keeps s0 (State.startClk s cold) :=
  Keeps.ite (fun _ => hK.clk (by decide)) (fun _ => hK)

theorem State.resumeStart_keeps {s0 s : State} (env : StartEnv) (hK : Keeps s0 s) : Keeps s0 (State.resumeStart s env) := by
  unfold State.resumeStart
  repeat' first
    | with_reducible assumption
    | intro _
    | with_reducible apply Keeps.odSet
    | with_reducible apply State.trainStacks_keeps
    | with_reducible apply State.startFields_keeps
    | with_reducible apply State.formIfSaved_keeps
    | with_reducible apply State.serveStart_keeps
    | with_reducible apply State.startClk_keeps
    | with_reducible refine Keeps.fst ?_ (by assumption)
    | with_reducible apply Keeps.ite
    | with_reducible apply Keeps.forEach
    | with_reducible apply Keeps.foldl
    | split
    | extract_lets
    | fail_if_no_progress (with_reducible refine Keeps.stk ?_ id)
    | fail_if_no_progress (with_reducible refine Keeps.stk ?_ (mwrite_wf _ _ _ _))
    | fail_if_no_progress (with_reducible refine Keeps.stk ?_ (mset_wf _ _ _ _))
    | fail_if_no_progress (with_reducible refine Keeps.stk ?_ (filter_wf _ _ _))

theorem State.fromLock_keeps {s0 s : State} (env : StartEnv) (hK : Keeps s0 s) : Keeps s0 (State.fromLock s env) := by
  unfold State.fromLock
  repeat' first
    | with_reducible assumption
    | intro _
    | with_reducible apply Keeps.odSet
    | with_reducible apply State.pin_keeps
    | with_reducible apply State.resumeStart_keeps
    | with_reducible refine Keeps.fst ?_ (by assumption)
    | with_reducible apply Keeps.ite
    | with_reducible apply Keeps.forEach
    | with_reducible apply Keeps.foldl
    | split
    | extract_lets
    | fail_if_no_progress (with_reducible refine Keeps.hub ?_ rfl rfl)

theorem State.trailhead_keeps {s0 s : State} (env : StartEnv) (next : State → State) (hnext : ∀ t, Keeps s0 t → Keeps s0 (next t)) (hK : Keeps s0 s) : Keeps s0 (State.trailhead s env next) := by
  unfold State.trailhead
  repeat' first
    | with_reducible assumption
    | intro _
    | with_reducible apply State.runImage_keeps
    | with_reducible apply State.hubSettings_keeps
    | with_reducible apply State.haltHub_keeps
    | with_reducible apply State.enterRecovery_keeps
    | with_reducible apply hnext
    | with_reducible refine Keeps.fst ?_ (by assumption)
    | with_reducible apply Keeps.ite
    | with_reducible apply Keeps.forEach
    | with_reducible apply Keeps.foldl
    | split
    | extract_lets
    | fail_if_no_progress (with_reducible refine Keeps.hub ?_ rfl rfl)

theorem State.coldStart_keeps {s0 s : State} (env : StartEnv) (hK : Keeps s0 s) : Keeps s0 (State.coldStart s env) := by
  unfold State.coldStart
  repeat' first
    | with_reducible assumption
    | intro _
    | with_reducible apply State.losePower_keeps
    | with_reducible apply State.fromLock_keeps
    | with_reducible apply State.trailhead_keeps
    | with_reducible refine Keeps.fst ?_ (by assumption)
    | with_reducible apply Keeps.ite
    | with_reducible apply Keeps.forEach
    | with_reducible apply Keeps.foldl
    | split
    | extract_lets
    | fail_if_no_progress (with_reducible refine Keeps.hub ?_ rfl rfl)

theorem execColdPowerOn_keeps {s0 s u : State} (env : StartEnv) (hK : Keeps s0 s) (e : execColdPowerOn env s = .next u) : Keeps s0 u := by
  unfold execColdPowerOn at e
  refine guardRes_keeps ?_ e
  repeat' first
    | with_reducible assumption
    | intro _
    | with_reducible apply State.coldStart_keeps
    | with_reducible refine Keeps.fst ?_ (by assumption)
    | with_reducible apply Keeps.ite
    | with_reducible apply Keeps.forEach
    | with_reducible apply Keeps.foldl
    | split
    | extract_lets

theorem State.flushHeld_keeps {s0 s : State} (hK : Keeps s0 s) : Keeps s0 (State.flushHeld s) := by
  unfold State.flushHeld
  repeat' first
    | with_reducible assumption
    | intro _
    | with_reducible apply Keeps.odAdd
    | with_reducible apply Keeps.logAppend
    | with_reducible apply Keeps.log
    | with_reducible refine Keeps.fst ?_ (by assumption)
    | with_reducible apply Keeps.ite
    | with_reducible apply Keeps.forEach
    | with_reducible apply Keeps.foldl
    | split
    | extract_lets
    | fail_if_no_progress (with_reducible refine Keeps.hub ?_ rfl rfl)

theorem State.warmOd_keeps {s0 s : State} (hK : Keeps s0 s) : Keeps s0 (State.warmOd s) := by
  unfold State.warmOd
  repeat' first
    | with_reducible assumption
    | intro _
    | with_reducible apply Keeps.odSet
    | with_reducible apply State.odReset_keeps
    | with_reducible refine Keeps.fst ?_ (by assumption)
    | with_reducible apply Keeps.ite
    | with_reducible apply Keeps.forEach
    | with_reducible apply Keeps.foldl
    | split
    | extract_lets

theorem State.warmCleared_keeps {s0 s : State} (hK : Keeps s0 s) : Keeps s0 (State.warmCleared s) :=
  hK.same rfl rfl rfl (fun c => ⟨filterMapVal_wf ({} : Tile) ({} : Tile) s.tiles (fun e => lostTile e.2) c.1, nil_wf _,
    filterMapVal_wf ({} : Field) ({} : Field) s.fields _ c.3, nil_wf _, nil_wf _, filter_wf _ _ _ c.6, c.7, c.8, c.9, c.10, c.11⟩)

theorem State.beginWarm_keeps {s0 s : State} (cause : Nat) (hK : Keeps s0 s) : Keeps s0 (State.beginWarm s cause) := by
  unfold State.beginWarm
  repeat' first
    | with_reducible assumption
    | intro _
    | with_reducible apply Keeps.odSet
    | with_reducible apply Keeps.odAdd
    | with_reducible apply Keeps.log
    | with_reducible apply State.pin_keeps
    | with_reducible apply State.releaseFault_keeps
    | with_reducible apply State.flushHeld_keeps
    | with_reducible apply State.warmOd_keeps
    | with_reducible apply State.warmCleared_keeps
    | with_reducible refine Keeps.fst ?_ (by assumption)
    | with_reducible apply Keeps.ite
    | with_reducible apply Keeps.forEach
    | with_reducible apply Keeps.foldl
    | split
    | extract_lets

theorem State.finishWarm_keeps {s0 s : State} (env : StartEnv) (hK : Keeps s0 s) : Keeps s0 (State.finishWarm s env) := by
  unfold State.finishWarm
  repeat' first
    | with_reducible assumption
    | intro _
    | with_reducible apply State.fromLock_keeps
    | with_reducible apply State.trailhead_keeps
    | with_reducible refine Keeps.fst ?_ (by assumption)
    | with_reducible apply Keeps.ite
    | with_reducible apply Keeps.forEach
    | with_reducible apply Keeps.foldl
    | split
    | extract_lets
    | fail_if_no_progress (with_reducible refine Keeps.hub ?_ rfl rfl)

theorem State.warmReset_keeps {s0 s : State} (cause : Nat) (env : StartEnv) (hK : Keeps s0 s) : Keeps s0 (State.warmReset s cause env) := by
  unfold State.warmReset
  repeat' first
    | with_reducible assumption
    | intro _
    | with_reducible apply State.beginWarm_keeps
    | with_reducible apply State.finishWarm_keeps
    | with_reducible refine Keeps.fst ?_ (by assumption)
    | with_reducible apply Keeps.ite
    | with_reducible apply Keeps.forEach
    | with_reducible apply Keeps.foldl
    | split
    | extract_lets

theorem execRefclkReturn_keeps {s0 s u : State} (env : StartEnv) (hK : Keeps s0 s) (e : execRefclkReturn env s = .next u) : Keeps s0 u := by
  unfold execRefclkReturn at e
  refine guardRes_keeps ?_ e
  repeat' first
    | with_reducible assumption
    | intro _
    | with_reducible apply Keeps.odSet
    | with_reducible apply Keeps.log
    | with_reducible apply State.resumeStart_keeps
    | with_reducible refine Keeps.fst ?_ (by assumption)
    | with_reducible apply Keeps.ite
    | with_reducible apply Keeps.forEach
    | with_reducible apply Keeps.foldl
    | split
    | extract_lets
    | fail_if_no_progress (with_reducible refine Keeps.hub ?_ rfl rfl)

theorem execRefclkLoss_keeps {s0 s u : State} (hK : Keeps s0 s) (e : execRefclkLoss s = .next u) : Keeps s0 u := by
  unfold execRefclkLoss at e
  refine guardRes_keeps ?_ e
  repeat' first
    | with_reducible assumption
    | intro _
    | with_reducible apply Keeps.odSet
    | with_reducible apply Keeps.log
    | with_reducible refine Keeps.fst ?_ (by assumption)
    | with_reducible apply Keeps.ite
    | with_reducible apply Keeps.forEach
    | with_reducible apply Keeps.foldl
    | split
    | extract_lets
    | fail_if_no_progress (with_reducible refine Keeps.hub ?_ rfl rfl)

theorem execPllLossOfLock_keeps {s0 s u : State} (env : StartEnv) (hK : Keeps s0 s) (e : execPllLossOfLock env s = .next u) : Keeps s0 u := by
  unfold execPllLossOfLock at e
  refine guardRes_keeps ?_ e
  repeat' first
    | with_reducible assumption
    | intro _
    | with_reducible apply Keeps.odAdd
    | with_reducible apply Keeps.log
    | with_reducible apply State.warmReset_keeps
    | with_reducible refine Keeps.fst ?_ (by assumption)
    | with_reducible apply Keeps.ite
    | with_reducible apply Keeps.forEach
    | with_reducible apply Keeps.foldl
    | split
    | extract_lets

theorem execModRstNAssert_keeps {s0 s u : State} (hK : Keeps s0 s) (e : execModRstNAssert s = .next u) : Keeps s0 u := by
  unfold execModRstNAssert at e
  refine guardRes_keeps ?_ e
  repeat' first
    | with_reducible assumption
    | intro _
    | with_reducible apply State.beginWarm_keeps
    | with_reducible refine Keeps.fst ?_ (by assumption)
    | with_reducible apply Keeps.ite
    | with_reducible apply Keeps.forEach
    | with_reducible apply Keeps.foldl
    | split
    | extract_lets
    | fail_if_no_progress (with_reducible refine Keeps.hub ?_ rfl rfl)

theorem execModRstNRelease_keeps {s0 s u : State} (env : StartEnv) (hK : Keeps s0 s) (e : execModRstNRelease env s = .next u) : Keeps s0 u := by
  unfold execModRstNRelease at e
  refine guardRes_keeps ?_ e
  repeat' first
    | with_reducible assumption
    | intro _
    | with_reducible apply State.fromLock_keeps
    | with_reducible apply State.finishWarm_keeps
    | with_reducible refine Keeps.fst ?_ (by assumption)
    | with_reducible apply Keeps.ite
    | with_reducible apply Keeps.forEach
    | with_reducible apply Keeps.foldl
    | split
    | extract_lets
    | fail_if_no_progress (with_reducible refine Keeps.hub ?_ rfl rfl)

theorem State.warmCode_keeps {s0 s : State} (fields : Nat) (hK : Keeps s0 s) : Keeps s0 (State.warmCode fields s).1 := by
  refine KeepsP.keeps ?_
  unfold State.warmCode
  repeat' first
    | with_reducible assumption
    | intro _
    | with_reducible apply KeepsP.ite
    | with_reducible apply State.countMaint_keeps
    | with_reducible refine Keeps.fst ?_ (by assumption)
    | with_reducible apply Keeps.ite
    | with_reducible apply Keeps.forEach
    | with_reducible apply Keeps.foldl
    | split
    | extract_lets
    | with_reducible apply KeepsP.pair

theorem State.commandThen_keeps {s0 s : State} (c : Caller) (idx : Nat) (sub : Nat) (part : Nat) (run : State → State × Nat) (after : State → State) (hrun : ∀ t, Keeps s0 t → Keeps s0 (run t).1) (hafter : ∀ t, Keeps s0 t → Keeps s0 (after t)) (hK : Keeps s0 s) : Keeps s0 (State.commandThen s c idx sub part run after) := by
  unfold State.commandThen
  repeat' first
    | with_reducible assumption
    | intro _
    | with_reducible apply KeepsP.ite
    | with_reducible apply Keeps.odAdd
    | with_reducible apply State.command_keeps
    | with_reducible apply hrun
    | with_reducible apply hafter
    | with_reducible refine Keeps.fst ?_ (by assumption)
    | with_reducible apply Keeps.ite
    | with_reducible apply Keeps.forEach
    | with_reducible apply Keeps.foldl
    | split
    | extract_lets
    | with_reducible apply KeepsP.pair

theorem execDeviceWarmReset_keeps {s0 s u : State} (caller : Caller) (fields : BitVec 64) (env : StartEnv) (hK : Keeps s0 s) (e : execDeviceWarmReset caller fields env s = .next u) : Keeps s0 u := by
  unfold execDeviceWarmReset at e
  refine guardRes_keeps ?_ e
  repeat' first
    | with_reducible assumption
    | intro _
    | with_reducible apply State.warmReset_keeps
    | with_reducible apply State.warmCode_keeps
    | with_reducible apply State.commandThen_keeps
    | with_reducible refine Keeps.fst ?_ (by assumption)
    | with_reducible apply Keeps.ite
    | with_reducible apply Keeps.forEach
    | with_reducible apply Keeps.foldl
    | split
    | extract_lets

end Sys2Proof.Machine
end

