-- ==== Sys2Proof/Laws/KeepsHostReads.lean ====
section
/-!
SUPPORT. Every operation of Machine/HostReads.lean keeps what `Keeps` says.
-/

namespace Sys2Proof.Machine

theorem State.clearRetry_keeps {s0 s : State} (port : Port) (use : HostReadUse) (hK : Keeps s0 s) : Keeps s0 (State.clearRetry s port use) := by
  unfold State.clearRetry
  repeat' first
    | with_reducible assumption
    | intro _
    | with_reducible apply Keeps.modFn
    | with_reducible refine Keeps.fst ?_ (by assumption)
    | with_reducible apply Keeps.ite
    | with_reducible apply Keeps.forEach
    | with_reducible apply Keeps.foldl
    | split
    | extract_lets

theorem State.readFails_keeps {s0 s : State} (port : Port) (use : HostReadUse) (code : Nat) (hK : Keeps s0 s) : Keeps s0 (State.readFails s port use code) := by
  unfold State.readFails
  repeat' first
    | with_reducible assumption
    | intro _
    | with_reducible apply State.hostError_keeps
    | with_reducible apply State.slotsFail_keeps
    | with_reducible apply State.promptFails_keeps
    | with_reducible apply State.endStage_keeps
    | with_reducible apply State.clearRetry_keeps
    | with_reducible refine Keeps.fst ?_ (by assumption)
    | with_reducible apply Keeps.ite
    | with_reducible apply Keeps.forEach
    | with_reducible apply Keeps.foldl
    | split
    | extract_lets

theorem State.promptArrives_keeps {s0 s : State} (p : Nat) (r : Nat) (b : List Byte) (hK : Keeps s0 s) : Keeps s0 (State.promptArrives s p r b) := by
  unfold State.promptArrives
  repeat' first
    | with_reducible assumption
    | intro _
    | with_reducible apply State.promptIds_keeps
    | with_reducible refine Keeps.fst ?_ (by assumption)
    | with_reducible apply Keeps.ite
    | with_reducible apply Keeps.forEach
    | with_reducible apply Keeps.foldl
    | split
    | extract_lets

theorem State.stageArrives_keeps {s0 s : State} (p : Nat) (b : List Byte) (hK : Keeps s0 s) : Keeps s0 (State.stageArrives s p b) := by
  unfold State.stageArrives
  repeat' first
    | with_reducible assumption
    | intro _
    | with_reducible apply State.stageBytes_keeps
    | with_reducible refine Keeps.fst ?_ (by assumption)
    | with_reducible apply Keeps.ite
    | with_reducible apply Keeps.forEach
    | with_reducible apply Keeps.foldl
    | split
    | extract_lets

theorem State.readArrives_keeps {s0 s : State} (port : Port) (use : HostReadUse) (b : List Byte) (hK : Keeps s0 s) : Keeps s0 (State.readArrives s port use b) := by
  unfold State.readArrives
  repeat' first
    | with_reducible assumption
    | intro _
    | with_reducible apply State.slotsArrive_keeps
    | with_reducible apply State.clearRetry_keeps
    | with_reducible apply State.promptArrives_keeps
    | with_reducible apply State.stageArrives_keeps
    | with_reducible refine Keeps.fst ?_ (by assumption)
    | with_reducible apply Keeps.ite
    | with_reducible apply Keeps.forEach
    | with_reducible apply Keeps.foldl
    | split
    | extract_lets

theorem execHostReadCompletion_keeps {s0 s u : State} (port : Port) (use : HostReadUse) (result : HostReadResult) (hK : Keeps s0 s) (e : execHostReadCompletion port use result s = .next u) : Keeps s0 u := by
  unfold execHostReadCompletion at e
  refine guardRes_keeps ?_ e
  repeat' first
    | with_reducible assumption
    | intro _
    | with_reducible apply State.aerError_keeps
    | with_reducible apply State.readFails_keeps
    | with_reducible apply State.readArrives_keeps
    | with_reducible refine Keeps.fst ?_ (by assumption)
    | with_reducible apply Keeps.ite
    | with_reducible apply Keeps.forEach
    | with_reducible apply Keeps.foldl
    | split
    | extract_lets

theorem execHostReadTimeout_keeps {s0 s u : State} (port : Port) (use : HostReadUse) (hK : Keeps s0 s) (e : execHostReadTimeout port use s = .next u) : Keeps s0 u := by
  unfold execHostReadTimeout at e
  refine guardRes_keeps ?_ e
  repeat' first
    | with_reducible assumption
    | intro _
    | with_reducible apply Keeps.modFn
    | with_reducible apply State.readFails_keeps
    | with_reducible refine Keeps.fst ?_ (by assumption)
    | with_reducible apply Keeps.ite
    | with_reducible apply Keeps.forEach
    | with_reducible apply Keeps.foldl
    | split
    | extract_lets

theorem State.readAgain_keeps {s0 s : State} (port : Port) (use : HostReadUse) (hK : Keeps s0 s) : Keeps s0 (State.readAgain s port use) := by
  unfold State.readAgain
  repeat' first
    | with_reducible assumption
    | intro _
    | with_reducible apply Keeps.emit
    | with_reducible apply State.askSlots_keeps
    | with_reducible refine Keeps.fst ?_ (by assumption)
    | with_reducible apply Keeps.ite
    | with_reducible apply Keeps.forEach
    | with_reducible apply Keeps.foldl
    | split
    | extract_lets

theorem execHostReadRetry_keeps {s0 s u : State} (port : Port) (use : HostReadUse) (hK : Keeps s0 s) (e : execHostReadRetry port use s = .next u) : Keeps s0 u := by
  unfold execHostReadRetry at e
  refine guardRes_keeps ?_ e
  repeat' first
    | with_reducible assumption
    | intro _
    | with_reducible apply State.readAgain_keeps
    | with_reducible refine Keeps.fst ?_ (by assumption)
    | with_reducible apply Keeps.ite
    | with_reducible apply Keeps.forEach
    | with_reducible apply Keeps.foldl
    | split
    | extract_lets

theorem State.streamFails_keeps {s0 s : State} (port : Port) (fn : Nat) (hK : Keeps s0 s) : Keeps s0 (State.streamFails s port fn) := by
  unfold State.streamFails
  repeat' first
    | with_reducible assumption
    | intro _
    | with_reducible apply State.ideFail_keeps
    | with_reducible apply State.dropReads_keeps
    | with_reducible apply State.promptFails_keeps
    | with_reducible apply State.endStage_keeps
    | with_reducible refine Keeps.fst ?_ (by assumption)
    | with_reducible apply Keeps.ite
    | with_reducible apply Keeps.forEach
    | with_reducible apply Keeps.foldl
    | split
    | extract_lets

theorem execIdeStreamFailure_keeps {s0 s u : State} (port : Port) (fn : Nat) (hK : Keeps s0 s) (e : execIdeStreamFailure port fn s = .next u) : Keeps s0 u := by
  unfold execIdeStreamFailure at e
  refine guardRes_keeps ?_ e
  repeat' first
    | with_reducible assumption
    | intro _
    | with_reducible apply State.streamFails_keeps
    | with_reducible refine Keeps.fst ?_ (by assumption)
    | with_reducible apply Keeps.ite
    | with_reducible apply Keeps.forEach
    | with_reducible apply Keeps.foldl
    | split
    | extract_lets

end Sys2Proof.Machine
end

