-- ==== Sys2Proof/Laws/KeepsPower.lean ====
section
/-!
SUPPORT. Every operation of Machine/Power.lean keeps what `Keeps` says.
-/

namespace Sys2Proof.Machine

theorem State.closeSag_keeps {s0 s : State} (dropout : Bool) (field : Nat) (vcoreMin : Nat) (hK : Keeps s0 s) : Keeps s0 (State.closeSag s dropout field vcoreMin) := by
  unfold State.closeSag
  repeat' first
    | with_reducible assumption
    | intro _
    | with_reducible apply Keeps.odAdd
    | with_reducible apply Keeps.setBlobP
    | with_reducible apply Keeps.log
    | with_reducible refine Keeps.fst ?_ (by assumption)
    | with_reducible apply Keeps.ite
    | with_reducible apply Keeps.forEach
    | with_reducible apply Keeps.foldl
    | split
    | extract_lets
    | fail_if_no_progress (with_reducible apply Keeps.power)

theorem execSagStart_keeps {s0 s u : State} (mv : Nat) (hK : Keeps s0 s) (e : execSagStart mv s = .next u) : Keeps s0 u := by
  unfold execSagStart at e
  refine guardRes_keeps ?_ e
  repeat' first
    | with_reducible assumption
    | intro _
    | with_reducible refine Keeps.fst ?_ (by assumption)
    | with_reducible apply Keeps.ite
    | with_reducible apply Keeps.forEach
    | with_reducible apply Keeps.foldl
    | split
    | extract_lets
    | fail_if_no_progress (with_reducible apply Keeps.power)

theorem execSagEnd_keeps {s0 s u : State} (field : Nat) (vcoreMin : Nat) (hK : Keeps s0 s) (e : execSagEnd field vcoreMin s = .next u) : Keeps s0 u := by
  unfold execSagEnd at e
  refine guardRes_keeps ?_ e
  repeat' first
    | with_reducible assumption
    | intro _
    | with_reducible apply State.closeSag_keeps
    | with_reducible refine Keeps.fst ?_ (by assumption)
    | with_reducible apply Keeps.ite
    | with_reducible apply Keeps.forEach
    | with_reducible apply Keeps.foldl
    | split
    | extract_lets

theorem State.standbyKept_keeps {s0 s : State} (hK : Keeps s0 s) : Keeps s0 (State.standbyKept s) := by
  have ht := State.losePower_keeps hK
  refine ⟨ht.pending, ht.out, ht.free, fun c => ?_⟩
  have cs := hK.canon c
  have ct := ht.canon c
  exact ⟨ct.1, ct.2, ct.3, ct.4, ct.5, ct.6, cs.7, cs.8, cs.9, ct.10, ct.11⟩

theorem State.railsFall_keeps {s0 s : State} (hK : Keeps s0 s) : Keeps s0 (State.railsFall s) := by
  unfold State.railsFall
  repeat' first
    | with_reducible assumption
    | intro _
    | with_reducible apply Keeps.odSet
    | with_reducible apply State.pin_keeps
    | with_reducible apply State.releaseFault_keeps
    | with_reducible apply State.standbyKept_keeps
    | with_reducible refine Keeps.fst ?_ (by assumption)
    | with_reducible apply Keeps.ite
    | with_reducible apply Keeps.forEach
    | with_reducible apply Keeps.foldl
    | split
    | extract_lets

theorem execStageOneDropout_keeps {s0 s u : State} (vstbyHolds : Bool) (field : Nat) (vcoreMin : Nat) (hK : Keeps s0 s) (e : execStageOneDropout vstbyHolds field vcoreMin s = .next u) : Keeps s0 u := by
  unfold execStageOneDropout at e
  refine guardRes_keeps ?_ e
  repeat' first
    | with_reducible assumption
    | intro _
    | with_reducible apply Keeps.log
    | with_reducible apply State.losePower_keeps
    | with_reducible apply State.pin_keeps
    | with_reducible apply State.releaseFault_keeps
    | with_reducible apply State.closeSag_keeps
    | with_reducible apply State.railsFall_keeps
    | with_reducible refine Keeps.fst ?_ (by assumption)
    | with_reducible apply Keeps.ite
    | with_reducible apply Keeps.forEach
    | with_reducible apply Keeps.foldl
    | split
    | extract_lets

theorem execStageOneTurnOn_keeps {s0 s u : State} (env : StartEnv) (hK : Keeps s0 s) (e : execStageOneTurnOn env s = .next u) : Keeps s0 u := by
  unfold execStageOneTurnOn at e
  refine guardRes_keeps ?_ e
  repeat' first
    | with_reducible assumption
    | intro _
    | with_reducible apply State.coldStart_keeps
    | with_reducible refine Keeps.fst ?_ (by assumption)
    | with_reducible apply Keeps.ite
    | with_reducible apply Keeps.forEach
    | with_reducible apply Keeps.foldl
    | split
    | extract_lets

theorem execOvervoltageLockout_keeps {s0 s u : State} (hK : Keeps s0 s) (e : execOvervoltageLockout s = .next u) : Keeps s0 u := by
  unfold execOvervoltageLockout at e
  refine guardRes_keeps ?_ e
  repeat' first
    | with_reducible assumption
    | intro _
    | with_reducible apply Keeps.log
    | with_reducible apply State.railsFall_keeps
    | with_reducible refine Keeps.fst ?_ (by assumption)
    | with_reducible apply Keeps.ite
    | with_reducible apply Keeps.forEach
    | with_reducible apply Keeps.foldl
    | split
    | extract_lets
    | fail_if_no_progress (with_reducible refine Keeps.hub ?_ rfl rfl)

theorem execOvervoltageRecovery_keeps {s0 s u : State} (env : StartEnv) (hK : Keeps s0 s) (e : execOvervoltageRecovery env s = .next u) : Keeps s0 u := by
  unfold execOvervoltageRecovery at e
  refine guardRes_keeps ?_ e
  repeat' first
    | with_reducible assumption
    | intro _
    | with_reducible apply State.coldStart_keeps
    | with_reducible refine Keeps.fst ?_ (by assumption)
    | with_reducible apply Keeps.ite
    | with_reducible apply Keeps.forEach
    | with_reducible apply Keeps.foldl
    | split
    | extract_lets

theorem State.flagInput_keeps {s0 s : State} (hK : Keeps s0 s) : Keeps s0 (State.flagInput s) := by
  unfold State.flagInput
  repeat' first
    | with_reducible assumption
    | intro _
    | with_reducible apply Keeps.odSet
    | with_reducible apply Keeps.log
    | with_reducible refine Keeps.fst ?_ (by assumption)
    | with_reducible apply Keeps.ite
    | with_reducible apply Keeps.forEach
    | with_reducible apply Keeps.foldl
    | split
    | extract_lets
    | fail_if_no_progress (with_reducible apply Keeps.power)

theorem execCurrentStepEstimate_keeps {s0 s u : State} (dMv : Nat) (dDeciAmp : Nat) (hK : Keeps s0 s) (e : execCurrentStepEstimate dMv dDeciAmp s = .next u) : Keeps s0 u := by
  unfold execCurrentStepEstimate at e
  refine guardRes_keeps ?_ e
  repeat' first
    | with_reducible assumption
    | intro _
    | with_reducible apply Keeps.odSet
    | with_reducible apply State.flagInput_keeps
    | with_reducible refine Keeps.fst ?_ (by assumption)
    | with_reducible apply Keeps.ite
    | with_reducible apply Keeps.forEach
    | with_reducible apply Keeps.foldl
    | split
    | extract_lets
    | fail_if_no_progress (with_reducible apply Keeps.power)

theorem execInputSample_keeps {s0 s u : State} (mv : Nat) (deciAmp : Nat) (hK : Keeps s0 s) (e : execInputSample mv deciAmp s = .next u) : Keeps s0 u := by
  unfold execInputSample at e
  refine guardRes_keeps ?_ e
  repeat' first
    | with_reducible assumption
    | intro _
    | with_reducible apply Keeps.odSet
    | with_reducible apply State.flagInput_keeps
    | with_reducible refine Keeps.fst ?_ (by assumption)
    | with_reducible apply Keeps.ite
    | with_reducible apply Keeps.forEach
    | with_reducible apply Keeps.foldl
    | split
    | extract_lets
    | fail_if_no_progress (with_reducible apply Keeps.power)

theorem State.planeEases_keeps {s0 s : State} (p : Nat) (hK : Keeps s0 s) : Keeps s0 (State.planeEases s p) := by
  unfold State.planeEases
  repeat' first
    | with_reducible assumption
    | intro _
    | with_reducible apply Keeps.modField
    | with_reducible apply Keeps.odSet
    | with_reducible refine Keeps.fst ?_ (by assumption)
    | with_reducible apply Keeps.ite
    | with_reducible apply Keeps.forEach
    | with_reducible apply Keeps.foldl
    | split
    | extract_lets

theorem execFieldBranchSample_keeps {s0 s u : State} (field : Nat) (branchMv : Nat) (deciAmp : Nat) (vcoreMv : Nat) (planeMv : Nat) (hK : Keeps s0 s) (e : execFieldBranchSample field branchMv deciAmp vcoreMv planeMv s = .next u) : Keeps s0 u := by
  unfold execFieldBranchSample at e
  refine guardRes_keeps ?_ e
  repeat' first
    | with_reducible assumption
    | intro _
    | with_reducible apply Keeps.modField
    | with_reducible apply Keeps.odSet
    | with_reducible apply Keeps.setBlobP
    | with_reducible apply Keeps.log
    | with_reducible apply State.planeEases_keeps
    | with_reducible refine Keeps.fst ?_ (by assumption)
    | with_reducible apply Keeps.ite
    | with_reducible apply Keeps.forEach
    | with_reducible apply Keeps.foldl
    | split
    | extract_lets

theorem State.clearMinimums_keeps {s0 s : State} (hK : Keeps s0 s) : Keeps s0 (State.clearMinimums s).1 := by
  refine KeepsP.keeps ?_
  unfold State.clearMinimums
  repeat' first
    | with_reducible assumption
    | intro _
    | with_reducible apply KeepsP.ite
    | with_reducible apply Keeps.odSet
    | with_reducible refine Keeps.fst ?_ (by assumption)
    | with_reducible apply Keeps.ite
    | with_reducible apply Keeps.forEach
    | with_reducible apply Keeps.foldl
    | split
    | extract_lets
    | fail_if_no_progress (with_reducible apply Keeps.blobFilter)
    | with_reducible apply KeepsP.pair

theorem execClearMinimumRecords_keeps {s0 s u : State} (caller : Caller) (hK : Keeps s0 s) (e : execClearMinimumRecords caller s = .next u) : Keeps s0 u := by
  unfold execClearMinimumRecords at e
  refine guardRes_keeps ?_ e
  repeat' first
    | with_reducible assumption
    | intro _
    | with_reducible apply State.command_keeps
    | with_reducible apply State.clearMinimums_keeps
    | with_reducible refine Keeps.fst ?_ (by assumption)
    | with_reducible apply Keeps.ite
    | with_reducible apply Keeps.forEach
    | with_reducible apply Keeps.foldl
    | split
    | extract_lets

theorem execFuseTrip_keeps {s0 s u : State} (field : Nat) (hK : Keeps s0 s) (e : execFuseTrip field s = .next u) : Keeps s0 u := by
  unfold execFuseTrip at e
  refine guardRes_keeps ?_ e
  repeat' first
    | with_reducible assumption
    | intro _
    | with_reducible apply Keeps.modField
    | with_reducible apply Keeps.odSet
    | with_reducible apply Keeps.odAdd
    | with_reducible apply State.fieldCmdField_keeps
    | with_reducible apply State.fieldFalls_keeps
    | with_reducible refine Keeps.fst ?_ (by assumption)
    | with_reducible apply Keeps.ite
    | with_reducible apply Keeps.forEach
    | with_reducible apply Keeps.foldl
    | split
    | extract_lets

theorem State.phaseOff_keeps {s0 s : State} (f : Nat) (hK : Keeps s0 s) : Keeps s0 (State.phaseOff s f) := by
  unfold State.phaseOff
  repeat' first
    | with_reducible assumption
    | intro _
    | with_reducible apply Keeps.modField
    | with_reducible apply Keeps.log
    | with_reducible apply State.fieldCmdField_keeps
    | with_reducible apply State.faultOwner_keeps
    | with_reducible apply State.planOff_keeps
    | with_reducible refine Keeps.fst ?_ (by assumption)
    | with_reducible apply Keeps.ite
    | with_reducible apply Keeps.forEach
    | with_reducible apply Keeps.foldl
    | split
    | extract_lets

theorem execPhaseFailure_keeps {s0 s u : State} (field : Nat) (rail : Rail) (phase : Nat) (kind : PhaseKind) (hK : Keeps s0 s) (e : execPhaseFailure field rail phase kind s = .next u) : Keeps s0 u := by
  unfold execPhaseFailure at e
  refine guardRes_keeps ?_ e
  repeat' first
    | with_reducible assumption
    | intro _
    | with_reducible apply Keeps.odSet
    | with_reducible apply Keeps.odAdd
    | with_reducible apply Keeps.log
    | with_reducible apply State.phaseOff_keeps
    | with_reducible refine Keeps.fst ?_ (by assumption)
    | with_reducible apply Keeps.ite
    | with_reducible apply Keeps.forEach
    | with_reducible apply Keeps.foldl
    | split
    | extract_lets

theorem State.leaveQueue_keeps {s0 s : State} (f : Nat) (hK : Keeps s0 s) : Keeps s0 (State.leaveQueue s f) := by
  unfold State.leaveQueue
  repeat' first
    | with_reducible assumption
    | intro _
    | with_reducible refine Keeps.fst ?_ (by assumption)
    | with_reducible apply Keeps.ite
    | with_reducible apply Keeps.forEach
    | with_reducible apply Keeps.foldl
    | split
    | extract_lets
    | fail_if_no_progress (with_reducible apply Keeps.power)

theorem execFieldSwitchOn_keeps {s0 s u : State} (field : Nat) (env : SwitchOnEnv) (hK : Keeps s0 s) (e : execFieldSwitchOn field env s = .next u) : Keeps s0 u := by
  unfold execFieldSwitchOn at e
  refine guardRes_keeps ?_ e
  repeat' first
    | with_reducible assumption
    | intro _
    | with_reducible apply Keeps.modField
    | with_reducible apply Keeps.odSet
    | with_reducible apply Keeps.odAdd
    | with_reducible apply Keeps.log
    | with_reducible apply State.fieldCmdField_keeps
    | with_reducible apply State.phaseTest_keeps
    | with_reducible apply State.leaveQueue_keeps
    | with_reducible refine Keeps.fst ?_ (by assumption)
    | with_reducible apply Keeps.ite
    | with_reducible apply Keeps.forEach
    | with_reducible apply Keeps.foldl
    | split
    | extract_lets

theorem execFieldReady_keeps {s0 s u : State} (field : Nat) (arrays : ArrayReport) (linksPassed : List LinkId) (hK : Keeps s0 s) (e : execFieldReady field arrays linksPassed s = .next u) : Keeps s0 u := by
  unfold execFieldReady at e
  refine guardRes_keeps ?_ e
  repeat' first
    | with_reducible assumption
    | intro _
    | with_reducible apply State.fieldUp_keeps
    | with_reducible refine Keeps.fst ?_ (by assumption)
    | with_reducible apply Keeps.ite
    | with_reducible apply Keeps.forEach
    | with_reducible apply Keeps.foldl
    | split
    | extract_lets

theorem State.thermalLimit_keeps {s0 s : State} (coolant : Option (Int × Int × Nat)) (hK : Keeps s0 s) : Keeps s0 (State.thermalLimit s coolant) := by
  unfold State.thermalLimit
  repeat' first
    | with_reducible assumption
    | intro _
    | with_reducible apply Keeps.odSet
    | with_reducible refine Keeps.fst ?_ (by assumption)
    | with_reducible apply Keeps.ite
    | with_reducible apply Keeps.forEach
    | with_reducible apply Keeps.foldl
    | split
    | extract_lets
    | fail_if_no_progress (with_reducible refine Keeps.hub ?_ rfl rfl)
    | fail_if_no_progress (with_reducible apply Keeps.power)
    | fail_if_no_progress (with_reducible refine Keeps.hubPower ?_ rfl rfl)

theorem State.setBudget_keeps {s0 s : State} (f : Nat) (b : Nat) (hK : Keeps s0 s) : Keeps s0 (State.setBudget s f b) := by
  unfold State.setBudget
  repeat' first
    | with_reducible assumption
    | intro _
    | with_reducible apply Keeps.odSet
    | with_reducible refine Keeps.fst ?_ (by assumption)
    | with_reducible apply Keeps.ite
    | with_reducible apply Keeps.forEach
    | with_reducible apply Keeps.foldl
    | split
    | extract_lets

theorem execGrantPeriod_keeps {s0 s u : State} (env : GrantEnv) (hK : Keeps s0 s) (e : execGrantPeriod env s = .next u) : Keeps s0 u := by
  unfold execGrantPeriod at e
  refine guardRes_keeps ?_ e
  repeat' first
    | with_reducible assumption
    | intro _
    | with_reducible apply State.thermalLimit_keeps
    | with_reducible apply State.setBudget_keeps
    | with_reducible refine Keeps.fst ?_ (by assumption)
    | with_reducible apply Keeps.ite
    | with_reducible apply Keeps.forEach
    | with_reducible apply Keeps.foldl
    | split
    | extract_lets

theorem execFieldGrantTick_keeps {s0 s u : State} (field : Nat) (chargeW : Nat) (hK : Keeps s0 s) (e : execFieldGrantTick field chargeW s = .next u) : Keeps s0 u := by
  unfold execFieldGrantTick at e
  refine guardRes_keeps ?_ e
  repeat' first
    | with_reducible assumption
    | intro _
    | with_reducible apply Keeps.modField
    | with_reducible apply State.setGrant_keeps
    | with_reducible refine Keeps.fst ?_ (by assumption)
    | with_reducible apply Keeps.ite
    | with_reducible apply Keeps.forEach
    | with_reducible apply Keeps.foldl
    | split
    | extract_lets

theorem State.enterThrottle_keeps {s0 s : State} (f : Nat) (hK : Keeps s0 s) : Keeps s0 (State.enterThrottle s f) := by
  unfold State.enterThrottle
  repeat' first
    | with_reducible assumption
    | intro _
    | with_reducible apply Keeps.modField
    | with_reducible apply Keeps.odSet
    | with_reducible apply State.setGrant_keeps
    | with_reducible refine Keeps.fst ?_ (by assumption)
    | with_reducible apply Keeps.ite
    | with_reducible apply Keeps.forEach
    | with_reducible apply Keeps.foldl
    | split
    | extract_lets

theorem execPlaneOvercurrent_keeps {s0 s u : State} (plane : Nat) (hK : Keeps s0 s) (e : execPlaneOvercurrent plane s = .next u) : Keeps s0 u := by
  unfold execPlaneOvercurrent at e
  refine guardRes_keeps ?_ e
  repeat' first
    | with_reducible assumption
    | intro _
    | with_reducible apply Keeps.modField
    | with_reducible apply State.enterThrottle_keeps
    | with_reducible refine Keeps.fst ?_ (by assumption)
    | with_reducible apply Keeps.ite
    | with_reducible apply Keeps.forEach
    | with_reducible apply Keeps.foldl
    | split
    | extract_lets

end Sys2Proof.Machine
end

