-- ==== Sys2Proof/Laws/KeepsThermal.lean ====
section
/-!
SUPPORT. Every operation of Machine/Thermal.lean keeps what `Keeps` says.
-/

namespace Sys2Proof.Machine

theorem State.refreshD_keeps {s0 s : State} (hK : Keeps s0 s) : Keeps s0 (State.refreshD s) := by
  unfold State.refreshD
  repeat' first
    | with_reducible assumption
    | intro _
    | with_reducible apply Keeps.odSet
    | with_reducible refine Keeps.fst ?_ (by assumption)
    | with_reducible apply Keeps.ite
    | with_reducible apply Keeps.forEach
    | with_reducible apply Keeps.foldl
    | split
    | extract_lets

theorem State.stileReselect_keeps {s0 s : State} (f : Nat) (hK : Keeps s0 s) : Keeps s0 (State.stileReselect s f) := by
  unfold State.stileReselect
  repeat' first
    | with_reducible assumption
    | intro _
    | with_reducible apply Keeps.odSet
    | with_reducible apply Keeps.odAdd
    | with_reducible apply Keeps.log
    | with_reducible apply State.refreshD_keeps
    | with_reducible refine Keeps.fst ?_ (by assumption)
    | with_reducible apply Keeps.ite
    | with_reducible apply Keeps.forEach
    | with_reducible apply Keeps.foldl
    | split
    | extract_lets

theorem State.loseClock_keeps {s0 s : State} (f : Nat) (hK : Keeps s0 s) : Keeps s0 (State.loseClock s f) := by
  unfold State.loseClock
  repeat' first
    | with_reducible assumption
    | intro _
    | with_reducible apply Keeps.modField
    | with_reducible apply State.faultOwner_keeps
    | with_reducible apply State.planOff_keeps
    | with_reducible refine Keeps.fst ?_ (by assumption)
    | with_reducible apply Keeps.ite
    | with_reducible apply Keeps.forEach
    | with_reducible apply Keeps.foldl
    | split
    | extract_lets

theorem execStileSourceFailure_keeps {s0 s u : State} (field : Nat) (hK : Keeps s0 s) (e : execStileSourceFailure field s = .next u) : Keeps s0 u := by
  unfold execStileSourceFailure at e
  refine guardRes_keeps ?_ e
  repeat' first
    | with_reducible assumption
    | intro _
    | with_reducible apply State.stileReselect_keeps
    | with_reducible apply State.loseClock_keeps
    | with_reducible refine Keeps.fst ?_ (by assumption)
    | with_reducible apply Keeps.ite
    | with_reducible apply Keeps.forEach
    | with_reducible apply Keeps.foldl
    | split
    | extract_lets

theorem State.moveBand_keeps {s0 s : State} (f : Nat) (t : Int) (hK : Keeps s0 s) : Keeps s0 (State.moveBand s f t) := by
  unfold State.moveBand
  repeat' first
    | with_reducible assumption
    | intro _
    | with_reducible apply Keeps.modCb
    | with_reducible apply Keeps.modField
    | with_reducible apply Keeps.odSet
    | with_reducible refine Keeps.fst ?_ (by assumption)
    | with_reducible apply Keeps.ite
    | with_reducible apply Keeps.forEach
    | with_reducible apply Keeps.foldl
    | split
    | extract_lets

theorem State.tempTrigger_keeps {s0 s : State} (f : Nat) (t : Int) (hK : Keeps s0 s) : Keeps s0 (State.tempTrigger s f t) := by
  unfold State.tempTrigger
  repeat' first
    | with_reducible assumption
    | intro _
    | with_reducible apply Keeps.modCb
    | with_reducible apply Keeps.modField
    | with_reducible refine Keeps.fst ?_ (by assumption)
    | with_reducible apply Keeps.ite
    | with_reducible apply Keeps.forEach
    | with_reducible apply Keeps.foldl
    | split
    | extract_lets

theorem State.trackCycle_keeps {s0 s : State} (f : Nat) (t : Int) (hK : Keeps s0 s) : Keeps s0 (State.trackCycle s f t) := by
  unfold State.trackCycle
  repeat' first
    | with_reducible assumption
    | intro _
    | with_reducible apply Keeps.modField
    | with_reducible apply Keeps.odSet
    | with_reducible refine Keeps.fst ?_ (by assumption)
    | with_reducible apply Keeps.ite
    | with_reducible apply Keeps.forEach
    | with_reducible apply Keeps.foldl
    | split
    | extract_lets

theorem State.trackWork_keeps {s0 s : State} (f : Nat) (t : Int) (hK : Keeps s0 s) : Keeps s0 (State.trackWork s f t) := by
  unfold State.trackWork
  repeat' first
    | with_reducible assumption
    | intro _
    | with_reducible apply Keeps.modField
    | with_reducible apply Keeps.odSet
    | with_reducible refine Keeps.fst ?_ (by assumption)
    | with_reducible apply Keeps.ite
    | with_reducible apply Keeps.forEach
    | with_reducible apply Keeps.foldl
    | split
    | extract_lets

theorem State.easeWarming_keeps {s0 s : State} (f : Nat) (t : Int) (hK : Keeps s0 s) : Keeps s0 (State.easeWarming s f t) := by
  unfold State.easeWarming
  repeat' first
    | with_reducible assumption
    | intro _
    | with_reducible apply Keeps.modField
    | with_reducible apply Keeps.odSet
    | with_reducible refine Keeps.fst ?_ (by assumption)
    | with_reducible apply Keeps.ite
    | with_reducible apply Keeps.forEach
    | with_reducible apply Keeps.foldl
    | split
    | extract_lets

theorem execFieldTemperatureSample_keeps {s0 s u : State} (field : Nat) (sample : TempSample) (hK : Keeps s0 s) (e : execFieldTemperatureSample field sample s = .next u) : Keeps s0 u := by
  unfold execFieldTemperatureSample at e
  refine guardRes_keeps ?_ e
  repeat' first
    | with_reducible assumption
    | intro _
    | with_reducible apply Keeps.modField
    | with_reducible apply Keeps.odSet
    | with_reducible apply Keeps.log
    | with_reducible apply State.enterThrottle_keeps
    | with_reducible apply State.moveBand_keeps
    | with_reducible apply State.tempTrigger_keeps
    | with_reducible apply State.trackCycle_keeps
    | with_reducible apply State.trackWork_keeps
    | with_reducible apply State.easeWarming_keeps
    | with_reducible refine Keeps.fst ?_ (by assumption)
    | with_reducible apply Keeps.ite
    | with_reducible apply Keeps.forEach
    | with_reducible apply Keeps.foldl
    | split
    | extract_lets

theorem State.setCap_keeps {s0 s : State} (f : Nat) (c : Nat) (hK : Keeps s0 s) : Keeps s0 (State.setCap s f c) := by
  unfold State.setCap
  repeat' first
    | with_reducible assumption
    | intro _
    | with_reducible apply Keeps.odSet
    | with_reducible apply State.setGrant_keeps
    | with_reducible refine Keeps.fst ?_ (by assumption)
    | with_reducible apply Keeps.ite
    | with_reducible apply Keeps.forEach
    | with_reducible apply Keeps.foldl
    | split
    | extract_lets

theorem execThrottleStepDown_keeps {s0 s u : State} (field : Nat) (hK : Keeps s0 s) (e : execThrottleStepDown field s = .next u) : Keeps s0 u := by
  unfold execThrottleStepDown at e
  refine guardRes_keeps ?_ e
  repeat' first
    | with_reducible assumption
    | intro _
    | with_reducible apply State.setCap_keeps
    | with_reducible refine Keeps.fst ?_ (by assumption)
    | with_reducible apply Keeps.ite
    | with_reducible apply Keeps.forEach
    | with_reducible apply Keeps.foldl
    | split
    | extract_lets

theorem execThrottleStepUp_keeps {s0 s u : State} (field : Nat) (hK : Keeps s0 s) (e : execThrottleStepUp field s = .next u) : Keeps s0 u := by
  unfold execThrottleStepUp at e
  refine guardRes_keeps ?_ e
  repeat' first
    | with_reducible assumption
    | intro _
    | with_reducible apply Keeps.modField
    | with_reducible apply Keeps.odSet
    | with_reducible apply State.setCap_keeps
    | with_reducible refine Keeps.fst ?_ (by assumption)
    | with_reducible apply Keeps.ite
    | with_reducible apply Keeps.forEach
    | with_reducible apply Keeps.foldl
    | split
    | extract_lets

theorem State.startRotation_keeps {s0 s : State} (f : Nat) (row : Nat) (j : Nat) (hot : Int) (spare : Int) (urgent : Bool) (hK : Keeps s0 s) : Keeps s0 (State.startRotation s f row j hot spare urgent) := by
  unfold State.startRotation
  repeat' first
    | with_reducible assumption
    | intro _
    | with_reducible apply Keeps.modField
    | with_reducible apply State.startAct_keeps
    | with_reducible refine Keeps.fst ?_ (by assumption)
    | with_reducible apply Keeps.ite
    | with_reducible apply Keeps.forEach
    | with_reducible apply Keeps.foldl
    | split
    | extract_lets

theorem execRotationInterval_keeps {s0 s u : State} (field : Nat) (row : Nat) (j : Nat) (hot : Int) (spare : Int) (hK : Keeps s0 s) (e : execRotationInterval field row j hot spare s = .next u) : Keeps s0 u := by
  unfold execRotationInterval at e
  refine guardRes_keeps ?_ e
  repeat' first
    | with_reducible assumption
    | intro _
    | with_reducible apply State.startRotation_keeps
    | with_reducible refine Keeps.fst ?_ (by assumption)
    | with_reducible apply Keeps.ite
    | with_reducible apply Keeps.forEach
    | with_reducible apply Keeps.foldl
    | split
    | extract_lets

theorem execUrgentRotation_keeps {s0 s u : State} (field : Nat) (rows : List (Nat × Nat × Int × Int)) (hK : Keeps s0 s) (e : execUrgentRotation field rows s = .next u) : Keeps s0 u := by
  unfold execUrgentRotation at e
  refine guardRes_keeps ?_ e
  repeat' first
    | with_reducible assumption
    | intro _
    | with_reducible apply Keeps.odSet
    | with_reducible apply State.startRotation_keeps
    | with_reducible refine Keeps.fst ?_ (by assumption)
    | with_reducible apply Keeps.ite
    | with_reducible apply Keeps.forEach
    | with_reducible apply Keeps.foldl
    | split
    | extract_lets

theorem execRotationCopyDone_keeps {s0 s u : State} (field : Nat) (row : Nat) (spareOk : Bool) (hK : Keeps s0 s) (e : execRotationCopyDone field row spareOk s = .next u) : Keeps s0 u := by
  unfold execRotationCopyDone at e
  refine guardRes_keeps ?_ e
  repeat' first
    | with_reducible assumption
    | intro _
    | with_reducible apply Keeps.modTile
    | with_reducible apply Keeps.modField
    | with_reducible apply State.abandonRotation_keeps
    | with_reducible refine Keeps.fst ?_ (by assumption)
    | with_reducible apply Keeps.ite
    | with_reducible apply Keeps.forEach
    | with_reducible apply Keeps.foldl
    | split
    | extract_lets

theorem State.swapRow_keeps {s0 s : State} (f : Nat) (row : Nat) (j : Nat) (hK : Keeps s0 s) : Keeps s0 (State.swapRow s f row j) := by
  unfold State.swapRow
  repeat' first
    | with_reducible assumption
    | intro _
    | with_reducible apply Keeps.modTile
    | with_reducible apply Keeps.modField
    | with_reducible apply Keeps.modPart
    | with_reducible apply Keeps.odAdd
    | with_reducible apply State.setRoute_keeps
    | with_reducible apply State.stopTile_keeps
    | with_reducible apply State.endAct_keeps
    | with_reducible refine Keeps.fst ?_ (by assumption)
    | with_reducible apply Keeps.ite
    | with_reducible apply Keeps.forEach
    | with_reducible apply Keeps.foldl
    | split
    | extract_lets
    | fail_if_no_progress (with_reducible apply Keeps.mesh)

theorem execRotationSwap_keeps {s0 s u : State} (field : Nat) (row : Nat) (hK : Keeps s0 s) (e : execRotationSwap field row s = .next u) : Keeps s0 u := by
  unfold execRotationSwap at e
  refine guardRes_keeps ?_ e
  repeat' first
    | with_reducible assumption
    | intro _
    | with_reducible apply State.swapRow_keeps
    | with_reducible refine Keeps.fst ?_ (by assumption)
    | with_reducible apply Keeps.ite
    | with_reducible apply Keeps.forEach
    | with_reducible apply Keeps.foldl
    | split
    | extract_lets

theorem execRotationCopyTimeout_keeps {s0 s u : State} (field : Nat) (row : Nat) (hK : Keeps s0 s) (e : execRotationCopyTimeout field row s = .next u) : Keeps s0 u := by
  unfold execRotationCopyTimeout at e
  refine guardRes_keeps ?_ e
  repeat' first
    | with_reducible assumption
    | intro _
    | with_reducible apply State.abandonRotation_keeps
    | with_reducible refine Keeps.fst ?_ (by assumption)
    | with_reducible apply Keeps.ite
    | with_reducible apply Keeps.forEach
    | with_reducible apply Keeps.foldl
    | split
    | extract_lets

theorem execRotationSwapTimeout_keeps {s0 s u : State} (field : Nat) (row : Nat) (hK : Keeps s0 s) (e : execRotationSwapTimeout field row s = .next u) : Keeps s0 u := by
  unfold execRotationSwapTimeout at e
  refine guardRes_keeps ?_ e
  repeat' first
    | with_reducible assumption
    | intro _
    | with_reducible apply State.abandonRotation_keeps
    | with_reducible refine Keeps.fst ?_ (by assumption)
    | with_reducible apply Keeps.ite
    | with_reducible apply Keeps.forEach
    | with_reducible apply Keeps.foldl
    | split
    | extract_lets

theorem execEvacuation_keeps {s0 s u : State} (field : Nat) (hK : Keeps s0 s) (e : execEvacuation field s = .next u) : Keeps s0 u := by
  unfold execEvacuation at e
  refine guardRes_keeps ?_ e
  repeat' first
    | with_reducible assumption
    | intro _
    | with_reducible apply Keeps.odSet
    | with_reducible apply Keeps.odAdd
    | with_reducible apply State.faultPart_keeps
    | with_reducible apply State.startInstall_keeps
    | with_reducible refine Keeps.fst ?_ (by assumption)
    | with_reducible apply Keeps.ite
    | with_reducible apply Keeps.forEach
    | with_reducible apply Keeps.foldl
    | split
    | extract_lets

theorem State.heatOff_keeps {s0 s : State} (f : Nat) (hK : Keeps s0 s) : Keeps s0 (State.heatOff s f) := by
  unfold State.heatOff
  repeat' first
    | with_reducible assumption
    | intro _
    | with_reducible apply Keeps.modField
    | with_reducible apply Keeps.odSet
    | with_reducible apply Keeps.odAdd
    | with_reducible apply Keeps.log
    | with_reducible apply State.planOff_keeps
    | with_reducible refine Keeps.fst ?_ (by assumption)
    | with_reducible apply Keeps.ite
    | with_reducible apply Keeps.forEach
    | with_reducible apply Keeps.foldl
    | split
    | extract_lets

theorem execOffForHeat_keeps {s0 s u : State} (field : Nat) (hK : Keeps s0 s) (e : execOffForHeat field s = .next u) : Keeps s0 u := by
  unfold execOffForHeat at e
  refine guardRes_keeps ?_ e
  repeat' first
    | with_reducible assumption
    | intro _
    | with_reducible apply State.faultPart_keeps
    | with_reducible apply State.heatOff_keeps
    | with_reducible refine Keeps.fst ?_ (by assumption)
    | with_reducible apply Keeps.ite
    | with_reducible apply Keeps.forEach
    | with_reducible apply Keeps.foldl
    | split
    | extract_lets

theorem execCriticalLimit_keeps {s0 s u : State} (field : Nat) (hK : Keeps s0 s) (e : execCriticalLimit field s = .next u) : Keeps s0 u := by
  unfold execCriticalLimit at e
  refine guardRes_keeps ?_ e
  repeat' first
    | with_reducible assumption
    | intro _
    | with_reducible apply Keeps.modField
    | with_reducible apply Keeps.odSet
    | with_reducible apply State.fieldCmdField_keeps
    | with_reducible apply State.fieldFalls_keeps
    | with_reducible refine Keeps.fst ?_ (by assumption)
    | with_reducible apply Keeps.ite
    | with_reducible apply Keeps.forEach
    | with_reducible apply Keeps.foldl
    | split
    | extract_lets

theorem execHeatReturn_keeps {s0 s u : State} (field : Nat) (hK : Keeps s0 s) (e : execHeatReturn field s = .next u) : Keeps s0 u := by
  unfold execHeatReturn at e
  refine guardRes_keeps ?_ e
  repeat' first
    | with_reducible assumption
    | intro _
    | with_reducible apply State.requestOn_keeps
    | with_reducible refine Keeps.fst ?_ (by assumption)
    | with_reducible apply Keeps.ite
    | with_reducible apply Keeps.forEach
    | with_reducible apply Keeps.foldl
    | split
    | extract_lets

theorem State.releaseHeat_keeps {s0 s : State} (f : Nat) (hK : Keeps s0 s) : Keeps s0 (State.releaseHeat f s).1 := by
  refine KeepsP.keeps ?_
  unfold State.releaseHeat
  repeat' first
    | with_reducible assumption
    | intro _
    | with_reducible apply KeepsP.ite
    | with_reducible apply Keeps.modField
    | with_reducible refine Keeps.fst ?_ (by assumption)
    | with_reducible apply Keeps.ite
    | with_reducible apply Keeps.forEach
    | with_reducible apply Keeps.foldl
    | split
    | extract_lets
    | with_reducible apply KeepsP.pair

theorem execReleaseFieldHeldOff_keeps {s0 s u : State} (caller : Caller) (field : Nat) (value : Nat) (hK : Keeps s0 s) (e : execReleaseFieldHeldOff caller field value s = .next u) : Keeps s0 u := by
  unfold execReleaseFieldHeldOff at e
  refine guardRes_keeps ?_ e
  repeat' first
    | with_reducible assumption
    | intro _
    | with_reducible apply State.command_keeps
    | with_reducible apply oneOnly_keeps
    | with_reducible apply State.releaseHeat_keeps
    | with_reducible refine Keeps.fst ?_ (by assumption)
    | with_reducible apply Keeps.ite
    | with_reducible apply Keeps.forEach
    | with_reducible apply Keeps.foldl
    | split
    | extract_lets

theorem execCoolantReadingLoss_keeps {s0 s u : State} (hK : Keeps s0 s) (e : execCoolantReadingLoss s = .next u) : Keeps s0 u := by
  unfold execCoolantReadingLoss at e
  refine guardRes_keeps ?_ e
  repeat' first
    | with_reducible assumption
    | intro _
    | with_reducible apply Keeps.odSet
    | with_reducible apply Keeps.odAdd
    | with_reducible apply Keeps.log
    | with_reducible refine Keeps.fst ?_ (by assumption)
    | with_reducible apply Keeps.ite
    | with_reducible apply Keeps.forEach
    | with_reducible apply Keeps.foldl
    | split
    | extract_lets
    | fail_if_no_progress (with_reducible apply Keeps.power)

theorem execOutletLimitStep_keeps {s0 s u : State} (hK : Keeps s0 s) (e : execOutletLimitStep s = .next u) : Keeps s0 u := by
  unfold execOutletLimitStep at e
  refine guardRes_keeps ?_ e
  repeat' first
    | with_reducible assumption
    | intro _
    | with_reducible apply Keeps.odSet
    | with_reducible refine Keeps.fst ?_ (by assumption)
    | with_reducible apply Keeps.ite
    | with_reducible apply Keeps.forEach
    | with_reducible apply Keeps.foldl
    | split
    | extract_lets

theorem State.takeCoolant_keeps {s0 s : State} (c : Option (Int × Int × Nat)) (hK : Keeps s0 s) : Keeps s0 (State.takeCoolant s c) := by
  unfold State.takeCoolant
  repeat' first
    | with_reducible assumption
    | intro _
    | with_reducible refine Keeps.fst ?_ (by assumption)
    | with_reducible apply Keeps.ite
    | with_reducible apply Keeps.forEach
    | with_reducible apply Keeps.foldl
    | split
    | extract_lets
    | fail_if_no_progress (with_reducible refine Keeps.hub ?_ rfl rfl)
    | fail_if_no_progress (with_reducible apply Keeps.power)
    | fail_if_no_progress (with_reducible refine Keeps.hubPower ?_ rfl rfl)

theorem execI3cRescan_keeps {s0 s u : State} (coolant : Option (Int × Int × Nat)) (hK : Keeps s0 s) (e : execI3cRescan coolant s = .next u) : Keeps s0 u := by
  unfold execI3cRescan at e
  refine guardRes_keeps ?_ e
  repeat' first
    | with_reducible assumption
    | intro _
    | with_reducible apply State.takeCoolant_keeps
    | with_reducible refine Keeps.fst ?_ (by assumption)
    | with_reducible apply Keeps.ite
    | with_reducible apply Keeps.forEach
    | with_reducible apply Keeps.foldl
    | split
    | extract_lets

theorem State.stackTemp_keeps {s0 s : State} (k : Nat) (t : Int) (hK : Keeps s0 s) : Keeps s0 (State.stackTemp s k t) := by
  unfold State.stackTemp
  repeat' first
    | with_reducible assumption
    | intro _
    | with_reducible apply Keeps.log
    | with_reducible refine Keeps.fst ?_ (by assumption)
    | with_reducible apply Keeps.ite
    | with_reducible apply Keeps.forEach
    | with_reducible apply Keeps.foldl
    | split
    | extract_lets
    | fail_if_no_progress (with_reducible apply Keeps.power)

theorem execHubSensorRead_keeps {s0 s u : State} (stackTemps : List Int) (_hubDie : Int) (coolant : Option (Int × Int × Nat)) (hK : Keeps s0 s) (e : execHubSensorRead stackTemps _hubDie coolant s = .next u) : Keeps s0 u := by
  unfold execHubSensorRead at e
  refine guardRes_keeps ?_ e
  repeat' first
    | with_reducible assumption
    | intro _
    | with_reducible apply State.takeCoolant_keeps
    | with_reducible apply State.stackTemp_keeps
    | with_reducible refine Keeps.fst ?_ (by assumption)
    | with_reducible apply Keeps.ite
    | with_reducible apply Keeps.forEach
    | with_reducible apply Keeps.foldl
    | split
    | extract_lets

theorem execThermalCycleSave_keeps {s0 s u : State} (hK : Keeps s0 s) (e : execThermalCycleSave s = .next u) : Keeps s0 u := by
  unfold execThermalCycleSave at e
  refine guardRes_keeps ?_ e
  repeat' first
    | with_reducible assumption
    | intro _
    | with_reducible refine Keeps.fst ?_ (by assumption)
    | with_reducible apply Keeps.ite
    | with_reducible apply Keeps.forEach
    | with_reducible apply Keeps.foldl
    | split
    | extract_lets
    | fail_if_no_progress (with_reducible refine Keeps.hub ?_ rfl rfl)

theorem execEmbersWarming_keeps {s0 s u : State} (field : Nat) (hK : Keeps s0 s) (e : execEmbersWarming field s = .next u) : Keeps s0 u := by
  unfold execEmbersWarming at e
  refine guardRes_keeps ?_ e
  repeat' first
    | with_reducible assumption
    | intro _
    | with_reducible apply Keeps.modField
    | with_reducible apply Keeps.odSet
    | with_reducible refine Keeps.fst ?_ (by assumption)
    | with_reducible apply Keeps.ite
    | with_reducible apply Keeps.forEach
    | with_reducible apply Keeps.foldl
    | split
    | extract_lets

theorem execPoweredHourCount_keeps {s0 s u : State} (hK : Keeps s0 s) (e : execPoweredHourCount s = .next u) : Keeps s0 u := by
  unfold execPoweredHourCount at e
  refine guardRes_keeps ?_ e
  repeat' first
    | with_reducible assumption
    | intro _
    | with_reducible apply Keeps.odAdd
    | with_reducible refine Keeps.fst ?_ (by assumption)
    | with_reducible apply Keeps.ite
    | with_reducible apply Keeps.forEach
    | with_reducible apply Keeps.foldl
    | split
    | extract_lets

end Sys2Proof.Machine
end

