-- ==== Sys2Proof/Laws/KeepsHub.lean ====
section
/-!
SUPPORT. Every operation of Machine/Hub.lean keeps what `Keeps` says.
-/

namespace Sys2Proof.Machine

theorem execDetourDrainComplete_keeps {s0 s u : State} (hK : Keeps s0 s) (e : execDetourDrainComplete s = .next u) : Keeps s0 u := by
  unfold execDetourDrainComplete at e
  refine guardRes_keeps ?_ e
  repeat' first
    | with_reducible assumption
    | intro _
    | with_reducible apply State.finishDetour_keeps
    | with_reducible apply State.runDetours_keeps
    | with_reducible refine Keeps.fst ?_ (by assumption)
    | with_reducible apply Keeps.ite
    | with_reducible apply Keeps.forEach
    | with_reducible apply Keeps.foldl
    | split
    | extract_lets

theorem execDetourDrainLimitExpiry_keeps {s0 s u : State} (hK : Keeps s0 s) (e : execDetourDrainLimitExpiry s = .next u) : Keeps s0 u := by
  unfold execDetourDrainLimitExpiry at e
  refine guardRes_keeps ?_ e
  repeat' first
    | with_reducible assumption
    | intro _
    | with_reducible apply State.finishDetour_keeps
    | with_reducible apply State.runDetours_keeps
    | with_reducible refine Keeps.fst ?_ (by assumption)
    | with_reducible apply Keeps.ite
    | with_reducible apply Keeps.forEach
    | with_reducible apply Keeps.foldl
    | split
    | extract_lets

theorem State.debugPart_keeps {s0 s : State} (p : Nat) (run : State → State) (hrun : ∀ t, Keeps s0 t → Keeps s0 (run t)) (hK : Keeps s0 s) : Keeps s0 (State.debugPart p run s).1 := by
  refine KeepsP.keeps ?_
  unfold State.debugPart
  repeat' first
    | with_reducible assumption
    | intro _
    | with_reducible apply KeepsP.ite
    | with_reducible apply hrun
    | with_reducible refine Keeps.fst ?_ (by assumption)
    | with_reducible apply Keeps.ite
    | with_reducible apply Keeps.forEach
    | with_reducible apply Keeps.foldl
    | split
    | extract_lets
    | with_reducible apply KeepsP.pair

theorem execHaltPartition_keeps {s0 s u : State} (caller : Caller) (part : Nat) (value : Nat) (hK : Keeps s0 s) (e : execHaltPartition caller part value s = .next u) : Keeps s0 u := by
  unfold execHaltPartition at e
  refine guardRes_keeps ?_ e
  repeat' first
    | with_reducible assumption
    | intro _
    | with_reducible apply State.haltPart_keeps
    | with_reducible apply State.command_keeps
    | with_reducible apply oneOnly_keeps
    | with_reducible apply State.debugPart_keeps
    | with_reducible refine Keeps.fst ?_ (by assumption)
    | with_reducible apply Keeps.ite
    | with_reducible apply Keeps.forEach
    | with_reducible apply Keeps.foldl
    | split
    | extract_lets

theorem execResumePartition_keeps {s0 s u : State} (caller : Caller) (part : Nat) (value : Nat) (hK : Keeps s0 s) (e : execResumePartition caller part value s = .next u) : Keeps s0 u := by
  unfold execResumePartition at e
  refine guardRes_keeps ?_ e
  repeat' first
    | with_reducible assumption
    | intro _
    | with_reducible apply State.resumePart_keeps
    | with_reducible apply State.command_keeps
    | with_reducible apply oneOnly_keeps
    | with_reducible apply State.debugPart_keeps
    | with_reducible refine Keeps.fst ?_ (by assumption)
    | with_reducible apply Keeps.ite
    | with_reducible apply Keeps.forEach
    | with_reducible apply Keeps.foldl
    | split
    | extract_lets

theorem execSaveUserCalibrationNow_keeps {s0 s u : State} (caller : Caller) (value : Nat) (hK : Keeps s0 s) (e : execSaveUserCalibrationNow caller value s = .next u) : Keeps s0 u := by
  unfold execSaveUserCalibrationNow at e
  refine guardRes_keeps ?_ e
  repeat' first
    | with_reducible assumption
    | intro _
    | with_reducible apply State.saveUserCal_keeps
    | with_reducible apply State.command_keeps
    | with_reducible apply oneOnly_keeps
    | with_reducible refine Keeps.fst ?_ (by assumption)
    | with_reducible apply Keeps.ite
    | with_reducible apply Keeps.forEach
    | with_reducible apply Keeps.foldl
    | split
    | extract_lets

theorem State.endSessions_keeps {s0 s : State} (hK : Keeps s0 s) : Keeps s0 (State.endSessions s) :=
  hK.same rfl rfl rfl (fun c => ⟨c.1, c.2, c.3, c.4, filterMapVal_wf ({} : Function) ({} : Function) s.fns _ c.5,
    c.6, c.7, c.8, c.9, c.10, c.11⟩)

theorem State.endHubWork_keeps {s0 s : State} (code : Nat) (hK : Keeps s0 s) : Keeps s0 (State.endHubWork s code) := by
  unfold State.endHubWork
  repeat' first
    | with_reducible assumption
    | intro _
    | with_reducible apply State.closeTx_keeps
    | with_reducible apply State.endModel_keeps
    | with_reducible refine Keeps.fst ?_ (by assumption)
    | with_reducible apply Keeps.ite
    | with_reducible apply Keeps.forEach
    | with_reducible apply Keeps.foldl
    | split
    | extract_lets

theorem State.forgetCallers_keeps {s0 s : State} (hK : Keeps s0 s) : Keeps s0 (State.forgetCallers s) := by
  unfold State.forgetCallers
  repeat' first
    | with_reducible assumption
    | intro _
    | with_reducible apply State.freeLock_keeps
    | with_reducible refine Keeps.fst ?_ (by assumption)
    | with_reducible apply Keeps.ite
    | with_reducible apply Keeps.forEach
    | with_reducible apply Keeps.foldl
    | split
    | extract_lets
    | fail_if_no_progress (with_reducible refine Keeps.hub ?_ rfl rfl)

theorem State.imageChanged_keeps {s0 s : State} (p : Nat) (hK : Keeps s0 s) : Keeps s0 (State.imageChanged s p) := by
  unfold State.imageChanged
  repeat' first
    | with_reducible assumption
    | intro _
    | with_reducible apply Keeps.modPart
    | with_reducible apply State.endHeld_keeps
    | with_reducible apply State.unload_keeps
    | with_reducible apply State.startScrub_keeps
    | with_reducible refine Keeps.fst ?_ (by assumption)
    | with_reducible apply Keeps.ite
    | with_reducible apply Keeps.forEach
    | with_reducible apply Keeps.foldl
    | split
    | extract_lets

theorem State.endActivation_keeps {s0 s : State} (st : Nat) (code : Nat) (hK : Keeps s0 s) : Keeps s0 (State.endActivation s st code) := by
  unfold State.endActivation
  repeat' first
    | with_reducible assumption
    | intro _
    | with_reducible apply Keeps.odSet
    | with_reducible refine Keeps.fst ?_ (by assumption)
    | with_reducible apply Keeps.ite
    | with_reducible apply Keeps.forEach
    | with_reducible apply Keeps.foldl
    | split
    | extract_lets
    | fail_if_no_progress (with_reducible refine Keeps.hub ?_ rfl rfl)

theorem State.restartImage_keeps {s0 s : State} (romKeyOk : Bool) (imageOk : Bool) (hK : Keeps s0 s) : Keeps s0 (State.restartImage s romKeyOk imageOk) := by
  unfold State.restartImage
  repeat' first
    | with_reducible assumption
    | intro _
    | with_reducible apply State.runImage_keeps
    | with_reducible apply State.haltHub_keeps
    | with_reducible apply State.enterRecovery_keeps
    | with_reducible apply State.imageChanged_keeps
    | with_reducible apply State.endActivation_keeps
    | with_reducible refine Keeps.fst ?_ (by assumption)
    | with_reducible apply Keeps.ite
    | with_reducible apply Keeps.forEach
    | with_reducible apply Keeps.foldl
    | split
    | extract_lets
    | fail_if_no_progress (with_reducible refine Keeps.hub ?_ rfl rfl)

theorem State.beginRestart_keeps {s0 s : State} (cause : RestartCause) (romKeyOk : Bool) (imageOk : Bool) (hK : Keeps s0 s) : Keeps s0 (State.beginRestart s cause romKeyOk imageOk) := by
  unfold State.beginRestart
  repeat' first
    | with_reducible assumption
    | intro _
    | with_reducible apply Keeps.odSet
    | with_reducible apply Keeps.odAdd
    | with_reducible apply Keeps.log
    | with_reducible apply State.unqueue_keeps
    | with_reducible apply State.command_keeps
    | with_reducible apply State.pin_keeps
    | with_reducible apply State.endSessions_keeps
    | with_reducible apply State.endHubWork_keeps
    | with_reducible apply State.forgetCallers_keeps
    | with_reducible apply State.restartImage_keeps
    | with_reducible refine Keeps.fst ?_ (by assumption)
    | with_reducible apply Keeps.ite
    | with_reducible apply Keeps.forEach
    | with_reducible apply Keeps.foldl
    | split
    | extract_lets
    | fail_if_no_progress (with_reducible refine Keeps.hub ?_ rfl rfl)

theorem execManagementRestart_keeps {s0 s u : State} (cause : RestartCause) (romKeyOk : Bool) (imageOk : Bool) (hK : Keeps s0 s) (e : execManagementRestart cause romKeyOk imageOk s = .next u) : Keeps s0 u := by
  unfold execManagementRestart at e
  refine guardRes_keeps ?_ e
  repeat' first
    | with_reducible assumption
    | intro _
    | with_reducible apply State.beginRestart_keeps
    | with_reducible refine Keeps.fst ?_ (by assumption)
    | with_reducible apply Keeps.ite
    | with_reducible apply Keeps.forEach
    | with_reducible apply Keeps.foldl
    | split
    | extract_lets

theorem State.mailboxAnswer_keeps {s0 s : State} (port : Port) (fn : Nat) (rsp : List Byte) (hK : Keeps s0 s) : Keeps s0 (State.mailboxAnswer s port fn rsp) := by
  unfold State.mailboxAnswer
  repeat' first
    | with_reducible assumption
    | intro _
    | with_reducible apply Keeps.modFn
    | with_reducible apply State.interrupt_keeps
    | with_reducible refine Keeps.fst ?_ (by assumption)
    | with_reducible apply Keeps.ite
    | with_reducible apply Keeps.forEach
    | with_reducible apply Keeps.foldl
    | split
    | extract_lets

theorem State.answerBusy_keeps {s0 s : State} (hK : Keeps s0 s) : Keeps s0 (State.answerBusy s) := by
  unfold State.answerBusy
  repeat' first
    | with_reducible assumption
    | intro _
    | with_reducible apply State.mailboxAnswer_keeps
    | with_reducible refine Keeps.fst ?_ (by assumption)
    | with_reducible apply Keeps.ite
    | with_reducible apply Keeps.forEach
    | with_reducible apply Keeps.foldl
    | split
    | extract_lets

theorem State.dueResets_keeps {s0 s : State} (hK : Keeps s0 s) : Keeps s0 (State.dueResets s) := by
  unfold State.dueResets
  repeat' first
    | with_reducible assumption
    | intro _
    | with_reducible apply State.hostReset_keeps
    | with_reducible refine Keeps.fst ?_ (by assumption)
    | with_reducible apply Keeps.ite
    | with_reducible apply Keeps.forEach
    | with_reducible apply Keeps.foldl
    | split
    | extract_lets
    | fail_if_no_progress (with_reducible refine Keeps.hub ?_ rfl rfl)

theorem State.afterRestart_keeps {s0 s : State} (hK : Keeps s0 s) : Keeps s0 (State.afterRestart s) := by
  unfold State.afterRestart
  repeat' first
    | with_reducible assumption
    | intro _
    | with_reducible apply Keeps.odSet
    | with_reducible apply State.pin_keeps
    | with_reducible apply State.fromLock_keeps
    | with_reducible refine Keeps.fst ?_ (by assumption)
    | with_reducible apply Keeps.ite
    | with_reducible apply Keeps.forEach
    | with_reducible apply Keeps.foldl
    | split
    | extract_lets
    | fail_if_no_progress (with_reducible refine Keeps.hub ?_ rfl rfl)

theorem execManagementRestartEnd_keeps {s0 s u : State} (hK : Keeps s0 s) (e : execManagementRestartEnd s = .next u) : Keeps s0 u := by
  unfold execManagementRestartEnd at e
  refine guardRes_keeps ?_ e
  repeat' first
    | with_reducible assumption
    | intro _
    | with_reducible apply State.runDetours_keeps
    | with_reducible apply State.hubSettings_keeps
    | with_reducible apply State.flushHeld_keeps
    | with_reducible apply State.endActivation_keeps
    | with_reducible apply State.answerBusy_keeps
    | with_reducible apply State.dueResets_keeps
    | with_reducible apply State.afterRestart_keeps
    | with_reducible refine Keeps.fst ?_ (by assumption)
    | with_reducible apply Keeps.ite
    | with_reducible apply Keeps.forEach
    | with_reducible apply Keeps.foldl
    | split
    | extract_lets

theorem execHubWatchdogExpiry_keeps {s0 s u : State} (romKeyOk : Bool) (imageOk : Bool) (hK : Keeps s0 s) (e : execHubWatchdogExpiry romKeyOk imageOk s = .next u) : Keeps s0 u := by
  unfold execHubWatchdogExpiry at e
  refine guardRes_keeps ?_ e
  repeat' first
    | with_reducible assumption
    | intro _
    | with_reducible apply State.beginRestart_keeps
    | with_reducible refine Keeps.fst ?_ (by assumption)
    | with_reducible apply Keeps.ite
    | with_reducible apply Keeps.forEach
    | with_reducible apply Keeps.foldl
    | split
    | extract_lets

theorem execHubSramError_keeps {s0 s u : State} (correctable : Bool) (romKeyOk : Bool) (imageOk : Bool) (hK : Keeps s0 s) (e : execHubSramError correctable romKeyOk imageOk s = .next u) : Keeps s0 u := by
  unfold execHubSramError at e
  refine guardRes_keeps ?_ e
  repeat' first
    | with_reducible assumption
    | intro _
    | with_reducible apply Keeps.odAdd
    | with_reducible apply State.beginRestart_keeps
    | with_reducible refine Keeps.fst ?_ (by assumption)
    | with_reducible apply Keeps.ite
    | with_reducible apply Keeps.forEach
    | with_reducible apply Keeps.foldl
    | split
    | extract_lets

theorem State.restartCode_keeps {s0 s : State} (hK : Keeps s0 s) : Keeps s0 (State.restartCode s).1 := by
  refine KeepsP.keeps ?_
  unfold State.restartCode
  repeat' first
    | with_reducible assumption
    | intro _
    | with_reducible apply KeepsP.ite
    | with_reducible apply State.countMaint_keeps
    | with_reducible apply State.queueAct_keeps
    | with_reducible refine Keeps.fst ?_ (by assumption)
    | with_reducible apply Keeps.ite
    | with_reducible apply Keeps.forEach
    | with_reducible apply Keeps.foldl
    | split
    | extract_lets
    | fail_if_no_progress (with_reducible refine Keeps.hub ?_ rfl rfl)
    | with_reducible apply KeepsP.pair

theorem execRestartTheHub_keeps {s0 s u : State} (caller : Caller) (value : Nat) (romKeyOk : Bool) (imageOk : Bool) (hK : Keeps s0 s) (e : execRestartTheHub caller value romKeyOk imageOk s = .next u) : Keeps s0 u := by
  unfold execRestartTheHub at e
  refine guardRes_keeps ?_ e
  repeat' first
    | with_reducible assumption
    | intro _
    | with_reducible apply State.abandonRotations_keeps
    | with_reducible apply State.command_keeps
    | with_reducible apply oneOnly_keeps
    | with_reducible apply State.commandThen_keeps
    | with_reducible apply State.beginRestart_keeps
    | with_reducible apply State.restartCode_keeps
    | with_reducible refine Keeps.fst ?_ (by assumption)
    | with_reducible apply Keeps.ite
    | with_reducible apply Keeps.forEach
    | with_reducible apply Keeps.foldl
    | split
    | extract_lets

theorem State.beginUpdate_keeps {s0 s : State} (len : Nat) (hK : Keeps s0 s) : Keeps s0 (State.beginUpdate s len).1 := by
  refine KeepsP.keeps ?_
  unfold State.beginUpdate
  repeat' first
    | with_reducible assumption
    | intro _
    | with_reducible apply KeepsP.ite
    | with_reducible apply Keeps.odSet
    | with_reducible refine Keeps.fst ?_ (by assumption)
    | with_reducible apply Keeps.ite
    | with_reducible apply Keeps.forEach
    | with_reducible apply Keeps.foldl
    | split
    | extract_lets
    | fail_if_no_progress (with_reducible refine Keeps.hub ?_ rfl rfl)
    | with_reducible apply KeepsP.pair

theorem State.commitUpdate_keeps {s0 s : State} (sig : SigCheck) (hK : Keeps s0 s) : Keeps s0 (State.commitUpdate s sig).1 := by
  refine KeepsP.keeps ?_
  unfold State.commitUpdate
  repeat' first
    | with_reducible assumption
    | intro _
    | with_reducible apply KeepsP.ite
    | with_reducible apply Keeps.odSet
    | with_reducible refine Keeps.fst ?_ (by assumption)
    | with_reducible apply Keeps.ite
    | with_reducible apply Keeps.forEach
    | with_reducible apply Keeps.foldl
    | split
    | extract_lets
    | fail_if_no_progress (with_reducible refine Keeps.hub ?_ rfl rfl)
    | with_reducible apply KeepsP.pair

theorem State.abortUpdate_keeps {s0 s : State} (hK : Keeps s0 s) : Keeps s0 (State.abortUpdate s).1 := by
  refine KeepsP.keeps ?_
  unfold State.abortUpdate
  repeat' first
    | with_reducible assumption
    | intro _
    | with_reducible apply KeepsP.ite
    | with_reducible apply Keeps.odSet
    | with_reducible refine Keeps.fst ?_ (by assumption)
    | with_reducible apply Keeps.ite
    | with_reducible apply Keeps.forEach
    | with_reducible apply Keeps.foldl
    | split
    | extract_lets
    | fail_if_no_progress (with_reducible refine Keeps.hub ?_ rfl rfl)
    | with_reducible apply KeepsP.pair

theorem State.updateCommand_keeps {s0 s : State} (cmd : List Byte) (sig : SigCheck) (hK : Keeps s0 s) : Keeps s0 (State.updateCommand cmd sig s).1 := by
  refine KeepsP.keeps ?_
  unfold State.updateCommand
  repeat' first
    | with_reducible assumption
    | intro _
    | with_reducible apply KeepsP.ite
    | with_reducible apply State.beginUpdate_keeps
    | with_reducible apply State.commitUpdate_keeps
    | with_reducible apply State.abortUpdate_keeps
    | with_reducible refine Keeps.fst ?_ (by assumption)
    | with_reducible apply Keeps.ite
    | with_reducible apply Keeps.forEach
    | with_reducible apply Keeps.foldl
    | split
    | extract_lets
    | with_reducible apply KeepsP.pair

theorem State.updateChunk_keeps {s0 s : State} (offset : Nat) (bytes : List Byte) (hK : Keeps s0 s) : Keeps s0 (State.updateChunk offset bytes s).1 := by
  refine KeepsP.keeps ?_
  unfold State.updateChunk
  repeat' first
    | with_reducible assumption
    | intro _
    | with_reducible apply KeepsP.ite
    | with_reducible refine Keeps.fst ?_ (by assumption)
    | with_reducible apply Keeps.ite
    | with_reducible apply Keeps.forEach
    | with_reducible apply Keeps.foldl
    | split
    | extract_lets
    | fail_if_no_progress (with_reducible refine Keeps.hub ?_ rfl rfl)
    | with_reducible apply KeepsP.pair

theorem execUpdateBegin_keeps {s0 s u : State} (caller : Caller) (cmd : List Byte) (hK : Keeps s0 s) (e : execUpdateBegin caller cmd s = .next u) : Keeps s0 u := by
  unfold execUpdateBegin at e
  refine guardRes_keeps ?_ e
  repeat' first
    | with_reducible assumption
    | intro _
    | with_reducible apply State.command_keeps
    | with_reducible apply State.updateCommand_keeps
    | with_reducible refine Keeps.fst ?_ (by assumption)
    | with_reducible apply Keeps.ite
    | with_reducible apply Keeps.forEach
    | with_reducible apply Keeps.foldl
    | split
    | extract_lets

theorem execUpdateImageChunk_keeps {s0 s u : State} (caller : Caller) (offset : Nat) (bytes : List Byte) (hK : Keeps s0 s) (e : execUpdateImageChunk caller offset bytes s = .next u) : Keeps s0 u := by
  unfold execUpdateImageChunk at e
  refine guardRes_keeps ?_ e
  repeat' first
    | with_reducible assumption
    | intro _
    | with_reducible apply State.command_keeps
    | with_reducible apply State.updateChunk_keeps
    | with_reducible refine Keeps.fst ?_ (by assumption)
    | with_reducible apply Keeps.ite
    | with_reducible apply Keeps.forEach
    | with_reducible apply Keeps.foldl
    | split
    | extract_lets

theorem execUpdateCommit_keeps {s0 s u : State} (caller : Caller) (cmd : List Byte) (sig : SigCheck) (hK : Keeps s0 s) (e : execUpdateCommit caller cmd sig s = .next u) : Keeps s0 u := by
  unfold execUpdateCommit at e
  refine guardRes_keeps ?_ e
  repeat' first
    | with_reducible assumption
    | intro _
    | with_reducible apply State.command_keeps
    | with_reducible apply State.updateCommand_keeps
    | with_reducible refine Keeps.fst ?_ (by assumption)
    | with_reducible apply Keeps.ite
    | with_reducible apply Keeps.forEach
    | with_reducible apply Keeps.foldl
    | split
    | extract_lets

theorem execUpdateAbort_keeps {s0 s u : State} (caller : Caller) (cmd : List Byte) (hK : Keeps s0 s) (e : execUpdateAbort caller cmd s = .next u) : Keeps s0 u := by
  unfold execUpdateAbort at e
  refine guardRes_keeps ?_ e
  repeat' first
    | with_reducible assumption
    | intro _
    | with_reducible apply State.command_keeps
    | with_reducible apply State.updateCommand_keeps
    | with_reducible refine Keeps.fst ?_ (by assumption)
    | with_reducible apply Keeps.ite
    | with_reducible apply Keeps.forEach
    | with_reducible apply Keeps.foldl
    | split
    | extract_lets

theorem execFlashImageWritten_keeps {s0 s u : State} (ok : Bool) (hK : Keeps s0 s) (e : execFlashImageWritten ok s = .next u) : Keeps s0 u := by
  unfold execFlashImageWritten at e
  refine guardRes_keeps ?_ e
  repeat' first
    | with_reducible assumption
    | intro _
    | with_reducible apply Keeps.odSet
    | with_reducible apply Keeps.log
    | with_reducible refine Keeps.fst ?_ (by assumption)
    | with_reducible apply Keeps.ite
    | with_reducible apply Keeps.forEach
    | with_reducible apply Keeps.foldl
    | split
    | extract_lets
    | fail_if_no_progress (with_reducible refine Keeps.hub ?_ rfl rfl)

theorem Keeps.flashLog {s t : State} (h : Keeps s t) (l : List LogEntry) (hl : l.length ≤ 131072) :
    Keeps s { t with hub := { t.hub with flashLog := l } } :=
  h.same rfl rfl rfl (fun c => ⟨c.1, c.2, c.3, c.4, c.5, c.6, c.7, c.8, c.9, hl, c.11⟩)

theorem State.flashAppend_keeps {s0 s : State} (e : LogEntry) (hK : Keeps s0 s) : Keeps s0 (State.flashAppend s e) := by
  unfold State.flashAppend
  exact hK.flashLog _ (ringPush_length _ _ _)

theorem execLogFlashWrite_keeps {s0 s u : State} (seq : Nat) (hK : Keeps s0 s) (e : execLogFlashWrite seq s = .next u) : Keeps s0 u := by
  unfold execLogFlashWrite at e
  refine guardRes_keeps ?_ e
  repeat' first
    | with_reducible assumption
    | intro _
    | with_reducible apply State.flashAppend_keeps
    | with_reducible refine Keeps.fst ?_ (by assumption)
    | with_reducible apply Keeps.ite
    | with_reducible apply Keeps.forEach
    | with_reducible apply Keeps.foldl
    | split
    | extract_lets

theorem execAvailabilityCount_keeps {s0 s u : State} (excluded : Bool) (hK : Keeps s0 s) (e : execAvailabilityCount excluded s = .next u) : Keeps s0 u := by
  unfold execAvailabilityCount at e
  refine guardRes_keeps ?_ e
  repeat' first
    | with_reducible assumption
    | intro _
    | with_reducible apply Keeps.odSet
    | with_reducible apply Keeps.odAdd
    | with_reducible refine Keeps.fst ?_ (by assumption)
    | with_reducible apply Keeps.ite
    | with_reducible apply Keeps.forEach
    | with_reducible apply Keeps.foldl
    | split
    | extract_lets
    | fail_if_no_progress (with_reducible refine Keeps.hub ?_ rfl rfl)

theorem execConfigurationRequest_keeps {s0 s u : State} (port : Port) (fn : Nat) (offset : Nat) (hK : Keeps s0 s) (e : execConfigurationRequest port fn offset s = .next u) : Keeps s0 u := by
  unfold execConfigurationRequest at e
  refine guardRes_keeps ?_ e
  repeat' first
    | with_reducible assumption
    | intro _
    | with_reducible apply Keeps.emit
    | with_reducible refine Keeps.fst ?_ (by assumption)
    | with_reducible apply Keeps.ite
    | with_reducible apply Keeps.forEach
    | with_reducible apply Keeps.foldl
    | split
    | extract_lets

end Sys2Proof.Machine
end

