-- ==== Sys2Proof/Laws/KeepsMaintenance.lean ====
section
/-!
SUPPORT. Every operation of Machine/Maintenance.lean keeps what `Keeps` says.
-/

namespace Sys2Proof.Machine

theorem State.takeDown_keeps {s0 s : State} (f : Nat) (again : Bool) (hK : Keeps s0 s) : Keeps s0 (State.takeDown s f again) := by
  unfold State.takeDown
  repeat' first
    | with_reducible assumption
    | intro _
    | with_reducible apply Keeps.modField
    | with_reducible apply Keeps.log
    | with_reducible apply State.planOff_keeps
    | with_reducible apply State.command_keeps
    | with_reducible refine Keeps.fst ?_ (by assumption)
    | with_reducible apply Keeps.ite
    | with_reducible apply Keeps.forEach
    | with_reducible apply Keeps.foldl
    | split
    | extract_lets

theorem State.cycleField_keeps {s0 s : State} (f : Nat) (hK : Keeps s0 s) : Keeps s0 (State.cycleField s f) := by
  unfold State.cycleField
  repeat' first
    | with_reducible assumption
    | intro _
    | with_reducible apply Keeps.modField
    | with_reducible apply State.requestOn_keeps
    | with_reducible apply State.takeDown_keeps
    | with_reducible refine Keeps.fst ?_ (by assumption)
    | with_reducible apply Keeps.ite
    | with_reducible apply Keeps.forEach
    | with_reducible apply Keeps.foldl
    | split
    | extract_lets

theorem State.offField_keeps {s0 s : State} (f : Nat) (hK : Keeps s0 s) : Keeps s0 (State.offField s f) := by
  unfold State.offField
  repeat' first
    | with_reducible assumption
    | intro _
    | with_reducible apply Keeps.modField
    | with_reducible apply State.fieldCmdField_keeps
    | with_reducible apply State.goDark_keeps
    | with_reducible apply State.command_keeps
    | with_reducible apply State.takeDown_keeps
    | with_reducible refine Keeps.fst ?_ (by assumption)
    | with_reducible apply Keeps.ite
    | with_reducible apply Keeps.forEach
    | with_reducible apply Keeps.foldl
    | split
    | extract_lets

theorem State.onField_keeps {s0 s : State} (f : Nat) (hK : Keeps s0 s) : Keeps s0 (State.onField s f) := by
  unfold State.onField
  repeat' first
    | with_reducible assumption
    | intro _
    | with_reducible apply State.fieldCmdField_keeps
    | with_reducible apply State.requestOn_keeps
    | with_reducible refine Keeps.fst ?_ (by assumption)
    | with_reducible apply Keeps.ite
    | with_reducible apply Keeps.forEach
    | with_reducible apply Keeps.foldl
    | split
    | extract_lets

theorem State.partToStandby_keeps {s0 s : State} (p : Nat) (hK : Keeps s0 s) : Keeps s0 (State.partToStandby s p) := by
  unfold State.partToStandby
  repeat' first
    | with_reducible assumption
    | intro _
    | with_reducible apply Keeps.modPart
    | with_reducible apply State.endHeld_keeps
    | with_reducible apply State.unload_keeps
    | with_reducible apply State.closeTx_keeps
    | with_reducible apply State.dropRx_keeps
    | with_reducible apply State.endModel_keeps
    | with_reducible refine Keeps.fst ?_ (by assumption)
    | with_reducible apply Keeps.ite
    | with_reducible apply Keeps.forEach
    | with_reducible apply Keeps.foldl
    | split
    | extract_lets

theorem State.ethernetDown_keeps {s0 s : State} (hK : Keeps s0 s) : Keeps s0 (State.ethernetDown s) := by
  unfold State.ethernetDown
  repeat' first
    | with_reducible assumption
    | intro _
    | with_reducible apply Keeps.odSet
    | with_reducible refine Keeps.fst ?_ (by assumption)
    | with_reducible apply Keeps.ite
    | with_reducible apply Keeps.forEach
    | with_reducible apply Keeps.foldl
    | split
    | extract_lets

theorem State.allFieldsOff_keeps {s0 s : State} (hK : Keeps s0 s) : Keeps s0 (State.allFieldsOff s) := by
  unfold State.allFieldsOff
  repeat' first
    | with_reducible assumption
    | intro _
    | with_reducible apply Keeps.odSet
    | with_reducible apply State.goDark_keeps
    | with_reducible apply State.command_keeps
    | with_reducible refine Keeps.fst ?_ (by assumption)
    | with_reducible apply Keeps.ite
    | with_reducible apply Keeps.forEach
    | with_reducible apply Keeps.foldl
    | split
    | extract_lets
    | fail_if_no_progress (with_reducible apply Keeps.mesh)

theorem State.enterStandby_keeps {s0 s : State} (hK : Keeps s0 s) : Keeps s0 (State.enterStandby s) := by
  unfold State.enterStandby
  repeat' first
    | with_reducible assumption
    | intro _
    | with_reducible apply Keeps.odSet
    | with_reducible apply Keeps.log
    | with_reducible apply State.partToStandby_keeps
    | with_reducible apply State.ethernetDown_keeps
    | with_reducible apply State.allFieldsOff_keeps
    | with_reducible refine Keeps.fst ?_ (by assumption)
    | with_reducible apply Keeps.ite
    | with_reducible apply Keeps.forEach
    | with_reducible apply Keeps.foldl
    | split
    | extract_lets
    | fail_if_no_progress (with_reducible refine Keeps.stk ?_ id)
    | fail_if_no_progress (with_reducible refine Keeps.stk ?_ (mwrite_wf _ _ _ _))
    | fail_if_no_progress (with_reducible refine Keeps.stk ?_ (mset_wf _ _ _ _))
    | fail_if_no_progress (with_reducible refine Keeps.stk ?_ (filter_wf _ _ _))

theorem State.leaveStandby_keeps {s0 s : State} (env : StartEnv) (hK : Keeps s0 s) : Keeps s0 (State.leaveStandby s env) := by
  unfold State.leaveStandby
  repeat' first
    | with_reducible assumption
    | intro _
    | with_reducible apply Keeps.odSet
    | with_reducible apply Keeps.log
    | with_reducible apply State.faultOwner_keeps
    | with_reducible apply State.pushReread_keeps
    | with_reducible apply State.command_keeps
    | with_reducible apply State.startFields_keeps
    | with_reducible refine Keeps.fst ?_ (by assumption)
    | with_reducible apply Keeps.ite
    | with_reducible apply Keeps.forEach
    | with_reducible apply Keeps.foldl
    | split
    | extract_lets
    | fail_if_no_progress (with_reducible refine Keeps.stk ?_ id)
    | fail_if_no_progress (with_reducible refine Keeps.stk ?_ (mwrite_wf _ _ _ _))
    | fail_if_no_progress (with_reducible refine Keeps.stk ?_ (mset_wf _ _ _ _))
    | fail_if_no_progress (with_reducible refine Keeps.stk ?_ (filter_wf _ _ _))

theorem State.runField_keeps {s0 s : State} (opc : Nat) (fields : Nat) (env : StartEnv) (hK : Keeps s0 s) : Keeps s0 (State.runField s opc fields env) := by
  unfold State.runField
  repeat' first
    | with_reducible assumption
    | intro _
    | with_reducible apply Keeps.odSet
    | with_reducible apply State.startAct_keeps
    | with_reducible apply State.endFieldCmd_keeps
    | with_reducible apply State.cycleField_keeps
    | with_reducible apply State.offField_keeps
    | with_reducible apply State.onField_keeps
    | with_reducible apply State.enterStandby_keeps
    | with_reducible apply State.leaveStandby_keeps
    | with_reducible refine Keeps.fst ?_ (by assumption)
    | with_reducible apply Keeps.ite
    | with_reducible apply Keeps.forEach
    | with_reducible apply Keeps.foldl
    | split
    | extract_lets
    | fail_if_no_progress (with_reducible refine Keeps.hub ?_ rfl rfl)

theorem State.fieldCommand_keeps {s0 s : State} (cmd : List Byte) (env : StartEnv) (hK : Keeps s0 s) : Keeps s0 (State.fieldCommand cmd env s).1 := by
  refine KeepsP.keeps ?_
  unfold State.fieldCommand
  repeat' first
    | with_reducible assumption
    | intro _
    | with_reducible apply KeepsP.ite
    | with_reducible apply Keeps.odSet
    | with_reducible apply Keeps.setBlobP
    | with_reducible apply State.countMaint_keeps
    | with_reducible apply State.queueAct_keeps
    | with_reducible apply State.warmCode_keeps
    | with_reducible apply State.runField_keeps
    | with_reducible refine Keeps.fst ?_ (by assumption)
    | with_reducible apply Keeps.ite
    | with_reducible apply Keeps.forEach
    | with_reducible apply Keeps.foldl
    | split
    | extract_lets
    | with_reducible apply KeepsP.pair

theorem execFieldCycle_keeps {s0 s u : State} (caller : Caller) (fields : BitVec 64) (hK : Keeps s0 s) (e : execFieldCycle caller fields s = .next u) : Keeps s0 u := by
  unfold execFieldCycle at e
  refine guardRes_keeps ?_ e
  repeat' first
    | with_reducible assumption
    | intro _
    | with_reducible apply State.command_keeps
    | with_reducible apply State.fieldCommand_keeps
    | with_reducible refine Keeps.fst ?_ (by assumption)
    | with_reducible apply Keeps.ite
    | with_reducible apply Keeps.forEach
    | with_reducible apply Keeps.foldl
    | split
    | extract_lets

theorem execFieldOff_keeps {s0 s u : State} (caller : Caller) (fields : BitVec 64) (hK : Keeps s0 s) (e : execFieldOff caller fields s = .next u) : Keeps s0 u := by
  unfold execFieldOff at e
  refine guardRes_keeps ?_ e
  repeat' first
    | with_reducible assumption
    | intro _
    | with_reducible apply State.command_keeps
    | with_reducible apply State.fieldCommand_keeps
    | with_reducible refine Keeps.fst ?_ (by assumption)
    | with_reducible apply Keeps.ite
    | with_reducible apply Keeps.forEach
    | with_reducible apply Keeps.foldl
    | split
    | extract_lets

theorem execFieldOn_keeps {s0 s u : State} (caller : Caller) (fields : BitVec 64) (hK : Keeps s0 s) (e : execFieldOn caller fields s = .next u) : Keeps s0 u := by
  unfold execFieldOn at e
  refine guardRes_keeps ?_ e
  repeat' first
    | with_reducible assumption
    | intro _
    | with_reducible apply State.command_keeps
    | with_reducible apply State.fieldCommand_keeps
    | with_reducible refine Keeps.fst ?_ (by assumption)
    | with_reducible apply Keeps.ite
    | with_reducible apply Keeps.forEach
    | with_reducible apply Keeps.foldl
    | split
    | extract_lets

theorem execStandbyEnter_keeps {s0 s u : State} (caller : Caller) (fields : BitVec 64) (hK : Keeps s0 s) (e : execStandbyEnter caller fields s = .next u) : Keeps s0 u := by
  unfold execStandbyEnter at e
  refine guardRes_keeps ?_ e
  repeat' first
    | with_reducible assumption
    | intro _
    | with_reducible apply State.command_keeps
    | with_reducible apply State.fieldCommand_keeps
    | with_reducible refine Keeps.fst ?_ (by assumption)
    | with_reducible apply Keeps.ite
    | with_reducible apply Keeps.forEach
    | with_reducible apply Keeps.foldl
    | split
    | extract_lets

theorem execStandbyExit_keeps {s0 s u : State} (caller : Caller) (fields : BitVec 64) (env : StartEnv) (hK : Keeps s0 s) (e : execStandbyExit caller fields env s = .next u) : Keeps s0 u := by
  unfold execStandbyExit at e
  refine guardRes_keeps ?_ e
  repeat' first
    | with_reducible assumption
    | intro _
    | with_reducible apply State.command_keeps
    | with_reducible apply State.fieldCommand_keeps
    | with_reducible refine Keeps.fst ?_ (by assumption)
    | with_reducible apply Keeps.ite
    | with_reducible apply Keeps.forEach
    | with_reducible apply Keeps.foldl
    | split
    | extract_lets

theorem State.startQueued_keeps {s0 s : State} (q : Queued) (env : CmdEnv) (hK : Keeps s0 s) : Keeps s0 (State.startQueued s q env) := by
  unfold State.startQueued
  repeat' first
    | with_reducible assumption
    | intro _
    | with_reducible apply Keeps.odSet
    | with_reducible apply State.yieldField_keeps
    | with_reducible apply State.unqueue_keeps
    | with_reducible apply State.endFieldCmd_keeps
    | with_reducible apply State.command_keeps
    | with_reducible apply State.resumeInstall_keeps
    | with_reducible apply State.runPart_keeps
    | with_reducible apply State.beginRestart_keeps
    | with_reducible apply State.runField_keeps
    | with_reducible refine Keeps.fst ?_ (by assumption)
    | with_reducible apply Keeps.ite
    | with_reducible apply Keeps.forEach
    | with_reducible apply Keeps.foldl
    | split
    | extract_lets

theorem execQueuedActivityStart_keeps {s0 s u : State} (env : CmdEnv) (hK : Keeps s0 s) (e : execQueuedActivityStart env s = .next u) : Keeps s0 u := by
  unfold execQueuedActivityStart at e
  refine guardRes_keeps ?_ e
  repeat' first
    | with_reducible assumption
    | intro _
    | with_reducible apply State.startQueued_keeps
    | with_reducible refine Keeps.fst ?_ (by assumption)
    | with_reducible apply Keeps.ite
    | with_reducible apply Keeps.forEach
    | with_reducible apply Keeps.foldl
    | split
    | extract_lets

theorem State.expireQueued_keeps {s0 s : State} (q : Queued) (hK : Keeps s0 s) : Keeps s0 (State.expireQueued s q) := by
  unfold State.expireQueued
  repeat' first
    | with_reducible assumption
    | intro _
    | with_reducible apply Keeps.odSet
    | with_reducible apply State.unqueue_keeps
    | with_reducible apply State.endFieldCmd_keeps
    | with_reducible apply State.endModelCmd_keeps
    | with_reducible refine Keeps.fst ?_ (by assumption)
    | with_reducible apply Keeps.ite
    | with_reducible apply Keeps.forEach
    | with_reducible apply Keeps.foldl
    | split
    | extract_lets
    | fail_if_no_progress (with_reducible refine Keeps.hub ?_ rfl rfl)

theorem execQueueWaitExpiry_keeps {s0 s u : State} (place : Nat) (hK : Keeps s0 s) (e : execQueueWaitExpiry place s = .next u) : Keeps s0 u := by
  unfold execQueueWaitExpiry at e
  refine guardRes_keeps ?_ e
  repeat' first
    | with_reducible assumption
    | intro _
    | with_reducible apply State.expireQueued_keeps
    | with_reducible refine Keeps.fst ?_ (by assumption)
    | with_reducible apply Keeps.ite
    | with_reducible apply Keeps.forEach
    | with_reducible apply Keeps.foldl
    | split
    | extract_lets

theorem State.zeroDeltas_keeps {s0 s : State} (hK : Keeps s0 s) : Keeps s0 (State.zeroDeltas s) := by
  unfold State.zeroDeltas
  repeat' first
    | with_reducible assumption
    | intro _
    | with_reducible apply Keeps.modCb
    | with_reducible apply State.mapArrays_keeps
    | with_reducible refine Keeps.fst ?_ (by assumption)
    | with_reducible apply Keeps.ite
    | with_reducible apply Keeps.forEach
    | with_reducible apply Keeps.foldl
    | split
    | extract_lets

theorem State.retrain_keeps {s0 s : State} (changed : Nat) (hK : Keeps s0 s) : Keeps s0 (State.retrain s changed) := by
  unfold State.retrain
  repeat' first
    | with_reducible assumption
    | intro _
    | with_reducible apply Keeps.odSet
    | with_reducible refine Keeps.fst ?_ (by assumption)
    | with_reducible apply Keeps.ite
    | with_reducible apply Keeps.forEach
    | with_reducible apply Keeps.foldl
    | split
    | extract_lets

theorem State.restoreFactory_keeps {s0 s : State} (value : Nat) (hK : Keeps s0 s) : Keeps s0 (State.restoreFactory value s).1 := by
  refine KeepsP.keeps ?_
  unfold State.restoreFactory
  repeat' first
    | with_reducible assumption
    | intro _
    | with_reducible apply KeepsP.ite
    | with_reducible apply Keeps.odAdd
    | with_reducible apply State.odReset_keeps
    | with_reducible apply State.countMaint_keeps
    | with_reducible apply State.pushReread_keeps
    | with_reducible apply State.zeroDeltas_keeps
    | with_reducible apply State.retrain_keeps
    | with_reducible refine Keeps.fst ?_ (by assumption)
    | with_reducible apply Keeps.ite
    | with_reducible apply Keeps.forEach
    | with_reducible apply Keeps.foldl
    | split
    | extract_lets
    | fail_if_no_progress (with_reducible refine Keeps.hub ?_ rfl rfl)
    | with_reducible apply KeepsP.pair

theorem execRestoreFactory_keeps {s0 s u : State} (caller : Caller) (value : Nat) (hK : Keeps s0 s) (e : execRestoreFactory caller value s = .next u) : Keeps s0 u := by
  unfold execRestoreFactory at e
  refine guardRes_keeps ?_ e
  repeat' first
    | with_reducible assumption
    | intro _
    | with_reducible apply State.command_keeps
    | with_reducible apply State.restoreFactory_keeps
    | with_reducible refine Keeps.fst ?_ (by assumption)
    | with_reducible apply Keeps.ite
    | with_reducible apply Keeps.forEach
    | with_reducible apply Keeps.foldl
    | split
    | extract_lets

end Sys2Proof.Machine
end

