-- ==== Sys2Proof/Laws/KeepsEntries.lean ====
section
/-!
SUPPORT. Every operation of Machine/Entries.lean keeps what `Keeps` says.
-/

namespace Sys2Proof.Machine

theorem State.readLog_keeps {s0 s : State} (utc : Bool) (hK : Keeps s0 s) : Keeps s0 (State.readLog s utc).1 := by
  refine KeepsP.keeps ?_
  unfold State.readLog
  repeat' first
    | with_reducible assumption
    | intro _
    | with_reducible apply KeepsP.ite
    | with_reducible apply Keeps.odSet
    | with_reducible refine Keeps.fst ?_ (by assumption)
    | with_reducible apply Keeps.ite
    | with_reducible apply Keeps.forEach
    | with_reducible apply Keeps.foldl
    | split
    | extract_lets
    | with_reducible apply KeepsP.pair

theorem State.readSelected_keeps {s0 s : State} (hK : Keeps s0 s) : Keeps s0 (State.readSelected s).1 := by
  refine KeepsP.keeps ?_
  unfold State.readSelected
  repeat' first
    | with_reducible assumption
    | intro _
    | with_reducible apply KeepsP.ite
    | with_reducible apply State.readTileReg_keeps
    | with_reducible refine Keeps.fst ?_ (by assumption)
    | with_reducible apply Keeps.ite
    | with_reducible apply Keeps.forEach
    | with_reducible apply Keeps.foldl
    | split
    | extract_lets
    | with_reducible apply KeepsP.pair

theorem nextOf_execStep_keeps {s0 s : State} (t : TileId) (h : Keeps s0 s) : Keeps s0 (nextOf s (execStep t s)) :=
  nextOf_keeps h (fun _ e => execStep_keeps t h e)

theorem State.ctrlWrite_keeps {s0 s : State} (t : TileId) (v : Nat) (hK : Keeps s0 s) : Keeps s0 (State.ctrlWrite s t v).1 := by
  refine KeepsP.keeps ?_
  unfold State.ctrlWrite
  repeat' first
    | with_reducible assumption
    | intro _
    | with_reducible apply KeepsP.ite
    | with_reducible apply State.writeCtrl_keeps
    | with_reducible apply execStep_keeps (e := by assumption)
    | with_reducible apply nextOf_execStep_keeps
    | with_reducible refine Keeps.fst ?_ (by assumption)
    | with_reducible apply Keeps.ite
    | with_reducible apply Keeps.forEach
    | with_reducible apply Keeps.foldl
    | split
    | extract_lets
    | with_reducible apply KeepsP.pair

theorem State.writeSelected_keeps {s0 s : State} (v : Nat) (hK : Keeps s0 s) : Keeps s0 (State.writeSelected v s).1 := by
  refine KeepsP.keeps ?_
  unfold State.writeSelected
  repeat' first
    | with_reducible assumption
    | intro _
    | with_reducible apply KeepsP.ite
    | with_reducible apply State.writeTileReg_keeps
    | with_reducible apply State.ctrlWrite_keeps
    | with_reducible refine Keeps.fst ?_ (by assumption)
    | with_reducible apply Keeps.ite
    | with_reducible apply Keeps.forEach
    | with_reducible apply Keeps.foldl
    | split
    | extract_lets
    | with_reducible apply KeepsP.pair

end Sys2Proof.Machine
end

