-- ==== Sys2Proof/Laws/KeepsSecurity.lean ====
section
/-!
SUPPORT. Every operation of Machine/Security.lean keeps what `Keeps` says.
-/

namespace Sys2Proof.Machine

theorem State.spdmSend_keeps {s0 s : State} (port : Port) (fn : Nat) (code : Nat) (payload : List Byte) (hK : Keeps s0 s) : Keeps s0 (State.spdmSend s port fn code payload) := by
  unfold State.spdmSend
  repeat' first
    | with_reducible assumption
    | intro _
    | with_reducible apply Keeps.emit
    | with_reducible refine Keeps.fst ?_ (by assumption)
    | with_reducible apply Keeps.ite
    | with_reducible apply Keeps.forEach
    | with_reducible apply Keeps.foldl
    | split
    | extract_lets

theorem State.spdmError_keeps {s0 s : State} (port : Port) (fn : Nat) (code : Nat) (hK : Keeps s0 s) : Keeps s0 (State.spdmError s port fn code) := by
  unfold State.spdmError
  repeat' first
    | with_reducible assumption
    | intro _
    | with_reducible apply Keeps.odAdd
    | with_reducible apply State.spdmSend_keeps
    | with_reducible refine Keeps.fst ?_ (by assumption)
    | with_reducible apply Keeps.ite
    | with_reducible apply Keeps.forEach
    | with_reducible apply Keeps.foldl
    | split
    | extract_lets

theorem State.spdmAt_keeps {s0 s : State} (port : Port) (fn : Nat) (level : Nat) (run : State → State) (hrun : ∀ t, Keeps s0 t → Keeps s0 (run t)) (hK : Keeps s0 s) : Keeps s0 (State.spdmAt s port fn level run) := by
  unfold State.spdmAt
  repeat' first
    | with_reducible assumption
    | intro _
    | with_reducible apply State.spdmError_keeps
    | with_reducible apply hrun
    | with_reducible refine Keeps.fst ?_ (by assumption)
    | with_reducible apply Keeps.ite
    | with_reducible apply Keeps.forEach
    | with_reducible apply Keeps.foldl
    | split
    | extract_lets

theorem execGetVersion_keeps {s0 s u : State} (port : Port) (fn : Nat) (hK : Keeps s0 s) (e : execGetVersion port fn s = .next u) : Keeps s0 u := by
  unfold execGetVersion at e
  refine guardRes_keeps ?_ e
  repeat' first
    | with_reducible assumption
    | intro _
    | with_reducible apply Keeps.modFn
    | with_reducible apply State.spdmSend_keeps
    | with_reducible apply State.spdmAt_keeps
    | with_reducible refine Keeps.fst ?_ (by assumption)
    | with_reducible apply Keeps.ite
    | with_reducible apply Keeps.forEach
    | with_reducible apply Keeps.foldl
    | split
    | extract_lets

theorem execGetCapabilities_keeps {s0 s u : State} (port : Port) (fn : Nat) (hK : Keeps s0 s) (e : execGetCapabilities port fn s = .next u) : Keeps s0 u := by
  unfold execGetCapabilities at e
  refine guardRes_keeps ?_ e
  repeat' first
    | with_reducible assumption
    | intro _
    | with_reducible apply Keeps.modFn
    | with_reducible apply State.spdmSend_keeps
    | with_reducible apply State.spdmAt_keeps
    | with_reducible refine Keeps.fst ?_ (by assumption)
    | with_reducible apply Keeps.ite
    | with_reducible apply Keeps.forEach
    | with_reducible apply Keeps.foldl
    | split
    | extract_lets

theorem execNegotiateAlgorithms_keeps {s0 s u : State} (port : Port) (fn : Nat) (supported : Bool) (hK : Keeps s0 s) (e : execNegotiateAlgorithms port fn supported s = .next u) : Keeps s0 u := by
  unfold execNegotiateAlgorithms at e
  refine guardRes_keeps ?_ e
  repeat' first
    | with_reducible assumption
    | intro _
    | with_reducible apply Keeps.modFn
    | with_reducible apply State.spdmSend_keeps
    | with_reducible apply State.spdmError_keeps
    | with_reducible apply State.spdmAt_keeps
    | with_reducible refine Keeps.fst ?_ (by assumption)
    | with_reducible apply Keeps.ite
    | with_reducible apply Keeps.forEach
    | with_reducible apply Keeps.foldl
    | split
    | extract_lets

theorem execGetDigests_keeps {s0 s u : State} (port : Port) (fn : Nat) (hK : Keeps s0 s) (e : execGetDigests port fn s = .next u) : Keeps s0 u := by
  unfold execGetDigests at e
  refine guardRes_keeps ?_ e
  repeat' first
    | with_reducible assumption
    | intro _
    | with_reducible apply State.spdmSend_keeps
    | with_reducible apply State.spdmAt_keeps
    | with_reducible refine Keeps.fst ?_ (by assumption)
    | with_reducible apply Keeps.ite
    | with_reducible apply Keeps.forEach
    | with_reducible apply Keeps.foldl
    | split
    | extract_lets

theorem execGetCertificate_keeps {s0 s u : State} (port : Port) (fn : Nat) (slot : Nat) (offset : Nat) (length : Nat) (hK : Keeps s0 s) (e : execGetCertificate port fn slot offset length s = .next u) : Keeps s0 u := by
  unfold execGetCertificate at e
  refine guardRes_keeps ?_ e
  repeat' first
    | with_reducible assumption
    | intro _
    | with_reducible apply State.spdmSend_keeps
    | with_reducible apply State.spdmError_keeps
    | with_reducible apply State.spdmAt_keeps
    | with_reducible refine Keeps.fst ?_ (by assumption)
    | with_reducible apply Keeps.ite
    | with_reducible apply Keeps.forEach
    | with_reducible apply Keeps.foldl
    | split
    | extract_lets

theorem execChallenge_keeps {s0 s u : State} (port : Port) (fn : Nat) (slot : Nat) (nonce : List Byte) (hK : Keeps s0 s) (e : execChallenge port fn slot nonce s = .next u) : Keeps s0 u := by
  unfold execChallenge at e
  refine guardRes_keeps ?_ e
  repeat' first
    | with_reducible assumption
    | intro _
    | with_reducible apply Keeps.useFree
    | with_reducible apply State.spdmSend_keeps
    | with_reducible apply State.spdmError_keeps
    | with_reducible apply State.spdmAt_keeps
    | with_reducible refine Keeps.fst ?_ (by assumption)
    | with_reducible apply Keeps.ite
    | with_reducible apply Keeps.forEach
    | with_reducible apply Keeps.foldl
    | split
    | extract_lets

theorem execGetMeasurements_keeps {s0 s u : State} (port : Port) (fn : Nat) (indexes : List Nat) (nonce : List Byte) (hK : Keeps s0 s) (e : execGetMeasurements port fn indexes nonce s = .next u) : Keeps s0 u := by
  unfold execGetMeasurements at e
  refine guardRes_keeps ?_ e
  repeat' first
    | with_reducible assumption
    | intro _
    | with_reducible apply Keeps.odAdd
    | with_reducible apply Keeps.useFree
    | with_reducible apply State.spdmSend_keeps
    | with_reducible apply State.spdmError_keeps
    | with_reducible apply State.spdmAt_keeps
    | with_reducible refine Keeps.fst ?_ (by assumption)
    | with_reducible apply Keeps.ite
    | with_reducible apply Keeps.forEach
    | with_reducible apply Keeps.foldl
    | split
    | extract_lets

theorem State.setSession_keeps {s0 s : State} (port : Port) (fn : Nat) (x : Option Session) (hK : Keeps s0 s) : Keeps s0 (State.setSession s port fn x) := by
  unfold State.setSession
  repeat' first
    | with_reducible assumption
    | intro _
    | with_reducible apply Keeps.modFn
    | with_reducible refine Keeps.fst ?_ (by assumption)
    | with_reducible apply Keeps.ite
    | with_reducible apply Keeps.forEach
    | with_reducible apply Keeps.foldl
    | split
    | extract_lets

theorem execKeyExchange_keeps {s0 s u : State} (port : Port) (fn : Nat) (mutualAuth : Bool) (hK : Keeps s0 s) (e : execKeyExchange port fn mutualAuth s = .next u) : Keeps s0 u := by
  unfold execKeyExchange at e
  refine guardRes_keeps ?_ e
  repeat' first
    | with_reducible assumption
    | intro _
    | with_reducible apply Keeps.useFree
    | with_reducible apply State.spdmSend_keeps
    | with_reducible apply State.spdmError_keeps
    | with_reducible apply State.spdmAt_keeps
    | with_reducible apply State.setSession_keeps
    | with_reducible refine Keeps.fst ?_ (by assumption)
    | with_reducible apply Keeps.ite
    | with_reducible apply Keeps.forEach
    | with_reducible apply Keeps.foldl
    | split
    | extract_lets

theorem execFinish_keeps {s0 s u : State} (port : Port) (fn : Nat) (spki : List Byte) (sig : SigCheck) (hK : Keeps s0 s) (e : execFinish port fn spki sig s = .next u) : Keeps s0 u := by
  unfold execFinish at e
  refine guardRes_keeps ?_ e
  repeat' first
    | with_reducible assumption
    | intro _
    | with_reducible apply State.spdmSend_keeps
    | with_reducible apply State.spdmError_keeps
    | with_reducible apply State.spdmAt_keeps
    | with_reducible apply State.setSession_keeps
    | with_reducible refine Keeps.fst ?_ (by assumption)
    | with_reducible apply Keeps.ite
    | with_reducible apply Keeps.forEach
    | with_reducible apply Keeps.foldl
    | split
    | extract_lets

theorem State.inSession_keeps {s0 s : State} (port : Port) (fn : Nat) (code : Nat) (next : Session → Option Session) (hK : Keeps s0 s) : Keeps s0 (State.inSession s port fn code next) := by
  unfold State.inSession
  repeat' first
    | with_reducible assumption
    | intro _
    | with_reducible apply State.spdmSend_keeps
    | with_reducible apply State.spdmError_keeps
    | with_reducible apply State.spdmAt_keeps
    | with_reducible apply State.setSession_keeps
    | with_reducible refine Keeps.fst ?_ (by assumption)
    | with_reducible apply Keeps.ite
    | with_reducible apply Keeps.forEach
    | with_reducible apply Keeps.foldl
    | split
    | extract_lets

theorem execHeartbeat_keeps {s0 s u : State} (port : Port) (fn : Nat) (hK : Keeps s0 s) (e : execHeartbeat port fn s = .next u) : Keeps s0 u := by
  unfold execHeartbeat at e
  refine guardRes_keeps ?_ e
  repeat' first
    | with_reducible assumption
    | intro _
    | with_reducible apply State.inSession_keeps
    | with_reducible refine Keeps.fst ?_ (by assumption)
    | with_reducible apply Keeps.ite
    | with_reducible apply Keeps.forEach
    | with_reducible apply Keeps.foldl
    | split
    | extract_lets

theorem execKeyUpdate_keeps {s0 s u : State} (port : Port) (fn : Nat) (hK : Keeps s0 s) (e : execKeyUpdate port fn s = .next u) : Keeps s0 u := by
  unfold execKeyUpdate at e
  refine guardRes_keeps ?_ e
  repeat' first
    | with_reducible assumption
    | intro _
    | with_reducible apply State.inSession_keeps
    | with_reducible refine Keeps.fst ?_ (by assumption)
    | with_reducible apply Keeps.ite
    | with_reducible apply Keeps.forEach
    | with_reducible apply Keeps.foldl
    | split
    | extract_lets

theorem execEndSession_keeps {s0 s u : State} (port : Port) (fn : Nat) (hK : Keeps s0 s) (e : execEndSession port fn s = .next u) : Keeps s0 u := by
  unfold execEndSession at e
  refine guardRes_keeps ?_ e
  repeat' first
    | with_reducible assumption
    | intro _
    | with_reducible apply State.inSession_keeps
    | with_reducible refine Keeps.fst ?_ (by assumption)
    | with_reducible apply Keeps.ite
    | with_reducible apply Keeps.forEach
    | with_reducible apply Keeps.foldl
    | split
    | extract_lets

theorem execHeartbeatLapse_keeps {s0 s u : State} (port : Port) (fn : Nat) (hK : Keeps s0 s) (e : execHeartbeatLapse port fn s = .next u) : Keeps s0 u := by
  unfold execHeartbeatLapse at e
  refine guardRes_keeps ?_ e
  repeat' first
    | with_reducible assumption
    | intro _
    | with_reducible apply State.setSession_keeps
    | with_reducible refine Keeps.fst ?_ (by assumption)
    | with_reducible apply Keeps.ite
    | with_reducible apply Keeps.forEach
    | with_reducible apply Keeps.foldl
    | split
    | extract_lets

theorem State.setKey_keeps {s0 s : State} (p : Nat) (slot : Nat) (key : List Byte) (hK : Keeps s0 s) : Keeps s0 (State.setKey s p slot key).1 := by
  refine KeepsP.keeps ?_
  unfold State.setKey
  repeat' first
    | with_reducible assumption
    | intro _
    | with_reducible apply KeepsP.ite
    | with_reducible apply Keeps.modPart
    | with_reducible refine Keeps.fst ?_ (by assumption)
    | with_reducible apply Keeps.ite
    | with_reducible apply Keeps.forEach
    | with_reducible apply Keeps.foldl
    | split
    | extract_lets
    | with_reducible apply KeepsP.pair

theorem State.clearKey_keeps {s0 s : State} (p : Nat) (slot : Nat) (hK : Keeps s0 s) : Keeps s0 (State.clearKey s p slot).1 := by
  refine KeepsP.keeps ?_
  unfold State.clearKey
  repeat' first
    | with_reducible assumption
    | intro _
    | with_reducible apply KeepsP.ite
    | with_reducible apply Keeps.modPart
    | with_reducible refine Keeps.fst ?_ (by assumption)
    | with_reducible apply Keeps.ite
    | with_reducible apply Keeps.forEach
    | with_reducible apply Keeps.foldl
    | split
    | extract_lets
    | with_reducible apply KeepsP.pair

theorem State.seal_keeps {s0 s : State} (p : Nat) (hK : Keeps s0 s) : Keeps s0 (State.seal s p).1 := by
  refine KeepsP.keeps ?_
  unfold State.seal
  repeat' first
    | with_reducible assumption
    | intro _
    | with_reducible apply KeepsP.ite
    | with_reducible apply Keeps.odSetP
    | with_reducible apply Keeps.odSet
    | with_reducible apply State.resumePart_keeps
    | with_reducible apply State.clearDebug_keeps
    | with_reducible refine Keeps.fst ?_ (by assumption)
    | with_reducible apply Keeps.ite
    | with_reducible apply Keeps.forEach
    | with_reducible apply Keeps.foldl
    | split
    | extract_lets
    | with_reducible apply KeepsP.pair

theorem State.unseal_keeps {s0 s : State} (p : Nat) (hK : Keeps s0 s) : Keeps s0 (State.unseal s p).1 := by
  refine KeepsP.keeps ?_
  unfold State.unseal
  repeat' first
    | with_reducible assumption
    | intro _
    | with_reducible apply KeepsP.ite
    | with_reducible apply Keeps.odSet
    | with_reducible refine Keeps.fst ?_ (by assumption)
    | with_reducible apply Keeps.ite
    | with_reducible apply Keeps.forEach
    | with_reducible apply Keeps.foldl
    | split
    | extract_lets
    | with_reducible apply KeepsP.pair

theorem State.release_keeps {s0 s : State} (p : Nat) (hK : Keeps s0 s) : Keeps s0 (State.release s p).1 := by
  refine KeepsP.keeps ?_
  unfold State.release
  repeat' first
    | with_reducible assumption
    | intro _
    | with_reducible apply KeepsP.ite
    | with_reducible apply Keeps.modPart
    | with_reducible apply State.startScrub_keeps
    | with_reducible apply State.endWork_keeps
    | with_reducible refine Keeps.fst ?_ (by assumption)
    | with_reducible apply Keeps.ite
    | with_reducible apply Keeps.forEach
    | with_reducible apply Keeps.foldl
    | split
    | extract_lets
    | with_reducible apply KeepsP.pair

theorem State.claimantMessage_keeps {s0 s : State} (p : Nat) (key : Option (List Byte)) (m : List Byte) (hK : Keeps s0 s) : Keeps s0 (State.claimantMessage s p key m).1 := by
  refine KeepsP.keeps ?_
  unfold State.claimantMessage
  repeat' first
    | with_reducible assumption
    | intro _
    | with_reducible apply KeepsP.ite
    | with_reducible apply Keeps.modPart
    | with_reducible apply State.setKey_keeps
    | with_reducible apply State.clearKey_keeps
    | with_reducible apply State.seal_keeps
    | with_reducible apply State.unseal_keeps
    | with_reducible apply State.release_keeps
    | with_reducible refine Keeps.fst ?_ (by assumption)
    | with_reducible apply Keeps.ite
    | with_reducible apply Keeps.forEach
    | with_reducible apply Keeps.foldl
    | split
    | extract_lets
    | with_reducible apply KeepsP.pair

theorem State.messageCode_keeps {s0 s : State} (port : Port) (fn : Nat) (inSession : Bool) (m : List Byte) (hK : Keeps s0 s) : Keeps s0 (State.messageCode s port fn inSession m).1 := by
  refine KeepsP.keeps ?_
  unfold State.messageCode
  repeat' first
    | with_reducible assumption
    | intro _
    | with_reducible apply KeepsP.ite
    | with_reducible apply State.inSession_keeps
    | with_reducible apply State.claimantMessage_keeps
    | with_reducible refine Keeps.fst ?_ (by assumption)
    | with_reducible apply Keeps.ite
    | with_reducible apply Keeps.forEach
    | with_reducible apply Keeps.foldl
    | split
    | extract_lets
    | with_reducible apply KeepsP.pair

theorem State.partMessage_keeps {s0 s : State} (port : Port) (fn : Nat) (inSession : Bool) (m : List Byte) (hK : Keeps s0 s) : Keeps s0 (State.partMessage s port fn inSession m) := by
  unfold State.partMessage
  repeat' first
    | with_reducible assumption
    | intro _
    | with_reducible apply Keeps.odAdd
    | with_reducible apply State.spdmSend_keeps
    | with_reducible apply State.inSession_keeps
    | with_reducible apply State.messageCode_keeps
    | with_reducible refine Keeps.fst ?_ (by assumption)
    | with_reducible apply Keeps.ite
    | with_reducible apply Keeps.forEach
    | with_reducible apply Keeps.foldl
    | split
    | extract_lets

theorem execClaim_keeps {s0 s u : State} (port : Port) (fn : Nat) (inSession : Bool) (msg : List Byte) (hK : Keeps s0 s) (e : execClaim port fn inSession msg s = .next u) : Keeps s0 u := by
  unfold execClaim at e
  refine guardRes_keeps ?_ e
  repeat' first
    | with_reducible assumption
    | intro _
    | with_reducible apply State.inSession_keeps
    | with_reducible apply State.partMessage_keeps
    | with_reducible refine Keeps.fst ?_ (by assumption)
    | with_reducible apply Keeps.ite
    | with_reducible apply Keeps.forEach
    | with_reducible apply Keeps.foldl
    | split
    | extract_lets

theorem execSetKey_keeps {s0 s u : State} (port : Port) (fn : Nat) (inSession : Bool) (msg : List Byte) (hK : Keeps s0 s) (e : execSetKey port fn inSession msg s = .next u) : Keeps s0 u := by
  unfold execSetKey at e
  refine guardRes_keeps ?_ e
  repeat' first
    | with_reducible assumption
    | intro _
    | with_reducible apply State.inSession_keeps
    | with_reducible apply State.partMessage_keeps
    | with_reducible refine Keeps.fst ?_ (by assumption)
    | with_reducible apply Keeps.ite
    | with_reducible apply Keeps.forEach
    | with_reducible apply Keeps.foldl
    | split
    | extract_lets

theorem execClearKey_keeps {s0 s u : State} (port : Port) (fn : Nat) (inSession : Bool) (msg : List Byte) (hK : Keeps s0 s) (e : execClearKey port fn inSession msg s = .next u) : Keeps s0 u := by
  unfold execClearKey at e
  refine guardRes_keeps ?_ e
  repeat' first
    | with_reducible assumption
    | intro _
    | with_reducible apply State.inSession_keeps
    | with_reducible apply State.partMessage_keeps
    | with_reducible refine Keeps.fst ?_ (by assumption)
    | with_reducible apply Keeps.ite
    | with_reducible apply Keeps.forEach
    | with_reducible apply Keeps.foldl
    | split
    | extract_lets

theorem execSeal_keeps {s0 s u : State} (port : Port) (fn : Nat) (inSession : Bool) (msg : List Byte) (hK : Keeps s0 s) (e : execSeal port fn inSession msg s = .next u) : Keeps s0 u := by
  unfold execSeal at e
  refine guardRes_keeps ?_ e
  repeat' first
    | with_reducible assumption
    | intro _
    | with_reducible apply State.inSession_keeps
    | with_reducible apply State.partMessage_keeps
    | with_reducible refine Keeps.fst ?_ (by assumption)
    | with_reducible apply Keeps.ite
    | with_reducible apply Keeps.forEach
    | with_reducible apply Keeps.foldl
    | split
    | extract_lets

theorem execUnseal_keeps {s0 s u : State} (port : Port) (fn : Nat) (inSession : Bool) (msg : List Byte) (hK : Keeps s0 s) (e : execUnseal port fn inSession msg s = .next u) : Keeps s0 u := by
  unfold execUnseal at e
  refine guardRes_keeps ?_ e
  repeat' first
    | with_reducible assumption
    | intro _
    | with_reducible apply State.inSession_keeps
    | with_reducible apply State.partMessage_keeps
    | with_reducible refine Keeps.fst ?_ (by assumption)
    | with_reducible apply Keeps.ite
    | with_reducible apply Keeps.forEach
    | with_reducible apply Keeps.foldl
    | split
    | extract_lets

theorem execRelease_keeps {s0 s u : State} (port : Port) (fn : Nat) (inSession : Bool) (msg : List Byte) (hK : Keeps s0 s) (e : execRelease port fn inSession msg s = .next u) : Keeps s0 u := by
  unfold execRelease at e
  refine guardRes_keeps ?_ e
  repeat' first
    | with_reducible assumption
    | intro _
    | with_reducible apply State.inSession_keeps
    | with_reducible apply State.partMessage_keeps
    | with_reducible refine Keeps.fst ?_ (by assumption)
    | with_reducible apply Keeps.ite
    | with_reducible apply Keeps.forEach
    | with_reducible apply Keeps.foldl
    | split
    | extract_lets

theorem State.ideKm_keeps {s0 s : State} (port : Port) (fn : Nat) (run : State → State × Nat) (hrun : ∀ t, Keeps s0 t → Keeps s0 (run t).1) (hK : Keeps s0 s) : Keeps s0 (State.ideKm s port fn run) := by
  unfold State.ideKm
  repeat' first
    | with_reducible assumption
    | intro _
    | with_reducible apply KeepsP.ite
    | with_reducible apply Keeps.emit
    | with_reducible apply hrun
    | with_reducible refine Keeps.fst ?_ (by assumption)
    | with_reducible apply Keeps.ite
    | with_reducible apply Keeps.forEach
    | with_reducible apply Keeps.foldl
    | split
    | extract_lets
    | with_reducible apply KeepsP.pair

theorem State.keyProg_keeps {s0 s : State} (port : Port) (fn : Nat) (keySet : Nat) (direction : Nat) (substream : Nat) (key : List Byte) (hK : Keeps s0 s) : Keeps s0 (State.keyProg port fn keySet direction substream key s).1 := by
  refine KeepsP.keeps ?_
  unfold State.keyProg
  repeat' first
    | with_reducible assumption
    | intro _
    | with_reducible apply KeepsP.ite
    | with_reducible apply Keeps.modFn
    | with_reducible refine Keeps.fst ?_ (by assumption)
    | with_reducible apply Keeps.ite
    | with_reducible apply Keeps.forEach
    | with_reducible apply Keeps.foldl
    | split
    | extract_lets
    | with_reducible apply KeepsP.pair

theorem State.keySetGo_keeps {s0 s : State} (port : Port) (fn : Nat) (keySet : Nat) (hK : Keeps s0 s) : Keeps s0 (State.keySetGo port fn keySet s).1 := by
  refine KeepsP.keeps ?_
  unfold State.keySetGo
  repeat' first
    | with_reducible assumption
    | intro _
    | with_reducible apply KeepsP.ite
    | with_reducible apply Keeps.modFn
    | with_reducible apply State.pumpRecords_keeps
    | with_reducible apply State.streamFails_keeps
    | with_reducible refine Keeps.fst ?_ (by assumption)
    | with_reducible apply Keeps.ite
    | with_reducible apply Keeps.forEach
    | with_reducible apply Keeps.foldl
    | split
    | extract_lets
    | with_reducible apply KeepsP.pair

theorem State.keySetStop_keeps {s0 s : State} (port : Port) (fn : Nat) (keySet : Nat) (hK : Keeps s0 s) : Keeps s0 (State.keySetStop port fn keySet s).1 := by
  refine KeepsP.keeps ?_
  unfold State.keySetStop
  repeat' first
    | with_reducible assumption
    | intro _
    | with_reducible apply KeepsP.ite
    | with_reducible apply Keeps.modFn
    | with_reducible apply State.streamFails_keeps
    | with_reducible refine Keeps.fst ?_ (by assumption)
    | with_reducible apply Keeps.ite
    | with_reducible apply Keeps.forEach
    | with_reducible apply Keeps.foldl
    | split
    | extract_lets
    | with_reducible apply KeepsP.pair

theorem execQuery_keeps {s0 s u : State} (port : Port) (fn : Nat) (hK : Keeps s0 s) (e : execQuery port fn s = .next u) : Keeps s0 u := by
  unfold execQuery at e
  refine guardRes_keeps ?_ e
  repeat' first
    | with_reducible assumption
    | intro _
    | with_reducible apply State.ideKm_keeps
    | with_reducible refine Keeps.fst ?_ (by assumption)
    | with_reducible apply Keeps.ite
    | with_reducible apply Keeps.forEach
    | with_reducible apply Keeps.foldl
    | split
    | extract_lets

theorem execKeyProg_keeps {s0 s u : State} (port : Port) (fn : Nat) (keySet : Nat) (direction : Nat) (substream : Nat) (key : List Byte) (hK : Keeps s0 s) (e : execKeyProg port fn keySet direction substream key s = .next u) : Keeps s0 u := by
  unfold execKeyProg at e
  refine guardRes_keeps ?_ e
  repeat' first
    | with_reducible assumption
    | intro _
    | with_reducible apply State.ideKm_keeps
    | with_reducible apply State.keyProg_keeps
    | with_reducible refine Keeps.fst ?_ (by assumption)
    | with_reducible apply Keeps.ite
    | with_reducible apply Keeps.forEach
    | with_reducible apply Keeps.foldl
    | split
    | extract_lets

theorem execKSetGo_keeps {s0 s u : State} (port : Port) (fn : Nat) (keySet : Nat) (hK : Keeps s0 s) (e : execKSetGo port fn keySet s = .next u) : Keeps s0 u := by
  unfold execKSetGo at e
  refine guardRes_keeps ?_ e
  repeat' first
    | with_reducible assumption
    | intro _
    | with_reducible apply State.ideKm_keeps
    | with_reducible apply State.keySetGo_keeps
    | with_reducible refine Keeps.fst ?_ (by assumption)
    | with_reducible apply Keeps.ite
    | with_reducible apply Keeps.forEach
    | with_reducible apply Keeps.foldl
    | split
    | extract_lets

theorem execKSetStop_keeps {s0 s u : State} (port : Port) (fn : Nat) (keySet : Nat) (hK : Keeps s0 s) (e : execKSetStop port fn keySet s = .next u) : Keeps s0 u := by
  unfold execKSetStop at e
  refine guardRes_keeps ?_ e
  repeat' first
    | with_reducible assumption
    | intro _
    | with_reducible apply State.ideKm_keeps
    | with_reducible apply State.keySetStop_keeps
    | with_reducible refine Keeps.fst ?_ (by assumption)
    | with_reducible apply Keeps.ite
    | with_reducible apply Keeps.forEach
    | with_reducible apply Keeps.foldl
    | split
    | extract_lets

end Sys2Proof.Machine
end

