-- ==== Sys2Proof/Laws/KeepsFabric.lean ====
section
/-!
SUPPORT. Every operation of Machine/Fabric.lean keeps what `Keeps` says.
-/

namespace Sys2Proof.Machine

theorem State.violation_keeps {s0 s : State} (typ : Nat) (p : FalramPkt) (status : Nat) (part : Option (Nat × Nat)) (hK : Keeps s0 s) : Keeps s0 (State.violation s typ p status part) := by
  unfold State.violation
  repeat' first
    | with_reducible assumption
    | intro _
    | with_reducible apply Keeps.odAdd
    | with_reducible apply Keeps.log
    | with_reducible apply State.peerFault_keeps
    | with_reducible refine Keeps.fst ?_ (by assumption)
    | with_reducible apply Keeps.ite
    | with_reducible apply Keeps.forEach
    | with_reducible apply Keeps.foldl
    | split
    | extract_lets

theorem State.receive_keeps {s0 s : State} (typ : Nat) (p : FalramPkt) (run : State → State) (hrun : ∀ t, Keeps s0 t → Keeps s0 (run t)) (hK : Keeps s0 s) : Keeps s0 (State.receive s typ p run) := by
  unfold State.receive
  repeat' first
    | with_reducible assumption
    | intro _
    | with_reducible apply Keeps.odAdd
    | with_reducible apply State.modPeer_keeps
    | with_reducible apply State.sendHello_keeps
    | with_reducible apply State.violation_keeps
    | with_reducible apply hrun
    | with_reducible refine Keeps.fst ?_ (by assumption)
    | with_reducible apply Keeps.ite
    | with_reducible apply Keeps.forEach
    | with_reducible apply Keeps.foldl
    | split
    | extract_lets

theorem State.authFails_keeps {s0 s : State} (typ : Nat) (part : Nat) (p : FalramPkt) (hK : Keeps s0 s) : Keeps s0 (State.authFails s typ part p) := by
  unfold State.authFails
  repeat' first
    | with_reducible assumption
    | intro _
    | with_reducible apply Keeps.odAdd
    | with_reducible apply State.violation_keeps
    | with_reducible refine Keeps.fst ?_ (by assumption)
    | with_reducible apply Keeps.ite
    | with_reducible apply Keeps.forEach
    | with_reducible apply Keeps.foldl
    | split
    | extract_lets

theorem State.withPayload_keeps {s0 s : State} (typ : Nat) (part : Nat) (p : FalramPkt) (run : List Byte → State → State) (hrun : ∀ a0 t, Keeps s0 t → Keeps s0 (run a0 t)) (hK : Keeps s0 s) : Keeps s0 (State.withPayload s typ part p run) := by
  unfold State.withPayload
  repeat' first
    | with_reducible assumption
    | intro _
    | with_reducible apply State.violation_keeps
    | with_reducible apply State.authFails_keeps
    | with_reducible apply hrun
    | with_reducible refine Keeps.fst ?_ (by assumption)
    | with_reducible apply Keeps.ite
    | with_reducible apply Keeps.forEach
    | with_reducible apply Keeps.foldl
    | split
    | extract_lets

theorem State.dropPeer_keeps {s0 s : State} (dev : Nat) (hK : Keeps s0 s) : Keeps s0 (State.dropPeer s dev) := by
  unfold State.dropPeer
  repeat' first
    | with_reducible assumption
    | intro _
    | with_reducible refine Keeps.fst ?_ (by assumption)
    | with_reducible apply Keeps.ite
    | with_reducible apply Keeps.forEach
    | with_reducible apply Keeps.foldl
    | split
    | extract_lets
    | fail_if_no_progress (with_reducible apply Keeps.fabric)

theorem State.helloFrom_keeps {s0 s : State} (p : FalramPkt) (hK : Keeps s0 s) : Keeps s0 (State.helloFrom s p) := by
  unfold State.helloFrom
  repeat' first
    | with_reducible assumption
    | intro _
    | with_reducible apply State.countPeers_keeps
    | with_reducible apply State.sendHello_keeps
    | with_reducible apply State.nak_keeps
    | with_reducible apply State.dropPeer_keeps
    | with_reducible refine Keeps.fst ?_ (by assumption)
    | with_reducible apply Keeps.ite
    | with_reducible apply Keeps.forEach
    | with_reducible apply Keeps.foldl
    | split
    | extract_lets
    | fail_if_no_progress (with_reducible apply Keeps.fabric)

theorem execHello_keeps {s0 s u : State} (p : FalramPkt) (hK : Keeps s0 s) (e : execHello p s = .next u) : Keeps s0 u := by
  unfold execHello at e
  refine guardRes_keeps ?_ e
  repeat' first
    | with_reducible assumption
    | intro _
    | with_reducible apply State.receive_keeps
    | with_reducible apply State.helloFrom_keeps
    | with_reducible refine Keeps.fst ?_ (by assumption)
    | with_reducible apply Keeps.ite
    | with_reducible apply Keeps.forEach
    | with_reducible apply Keeps.foldl
    | split
    | extract_lets

theorem execKeepalive_keeps {s0 s u : State} (p : FalramPkt) (hK : Keeps s0 s) (e : execKeepalive p s = .next u) : Keeps s0 u := by
  unfold execKeepalive at e
  refine guardRes_keeps ?_ e
  repeat' first
    | with_reducible assumption
    | intro _
    | with_reducible apply State.modPeer_keeps
    | with_reducible apply State.receive_keeps
    | with_reducible refine Keeps.fst ?_ (by assumption)
    | with_reducible apply Keeps.ite
    | with_reducible apply Keeps.forEach
    | with_reducible apply Keeps.foldl
    | split
    | extract_lets

theorem State.joinFrom_keeps {s0 s : State} (p : FalramPkt) (hK : Keeps s0 s) : Keeps s0 (State.joinFrom s p) := by
  unfold State.joinFrom
  repeat' first
    | with_reducible assumption
    | intro _
    | with_reducible apply Keeps.odSetP
    | with_reducible apply State.nak_keeps
    | with_reducible apply State.modTx_keeps
    | with_reducible refine Keeps.fst ?_ (by assumption)
    | with_reducible apply Keeps.ite
    | with_reducible apply Keeps.forEach
    | with_reducible apply Keeps.foldl
    | split
    | extract_lets

theorem execJoin_keeps {s0 s u : State} (p : FalramPkt) (hK : Keeps s0 s) (e : execJoin p s = .next u) : Keeps s0 u := by
  unfold execJoin at e
  refine guardRes_keeps ?_ e
  repeat' first
    | with_reducible assumption
    | intro _
    | with_reducible apply State.receive_keeps
    | with_reducible apply State.joinFrom_keeps
    | with_reducible refine Keeps.fst ?_ (by assumption)
    | with_reducible apply Keeps.ite
    | with_reducible apply Keeps.forEach
    | with_reducible apply Keeps.foldl
    | split
    | extract_lets

theorem State.sendAck_keeps {s0 s : State} (part : Nat) (hK : Keeps s0 s) : Keeps s0 (State.sendAck s part) := by
  unfold State.sendAck
  repeat' first
    | with_reducible assumption
    | intro _
    | with_reducible apply State.sendSealed_keeps
    | with_reducible refine Keeps.fst ?_ (by assumption)
    | with_reducible apply Keeps.ite
    | with_reducible apply Keeps.forEach
    | with_reducible apply Keeps.foldl
    | split
    | extract_lets
    | fail_if_no_progress (with_reducible apply Keeps.fabric)

theorem State.openFrom_keeps {s0 s : State} (p : FalramPkt) (hK : Keeps s0 s) : Keeps s0 (State.openFrom s p) := by
  unfold State.openFrom
  repeat' first
    | with_reducible assumption
    | intro _
    | with_reducible apply State.nak_keeps
    | with_reducible apply State.endStage_keeps
    | with_reducible apply State.withPayload_keeps
    | with_reducible apply State.sendAck_keeps
    | with_reducible refine Keeps.fst ?_ (by assumption)
    | with_reducible apply Keeps.ite
    | with_reducible apply Keeps.forEach
    | with_reducible apply Keeps.foldl
    | split
    | extract_lets
    | fail_if_no_progress (with_reducible apply Keeps.fabric)

theorem execOpenPkt_keeps {s0 s u : State} (p : FalramPkt) (hK : Keeps s0 s) (e : execOpenPkt p s = .next u) : Keeps s0 u := by
  unfold execOpenPkt at e
  refine guardRes_keeps ?_ e
  repeat' first
    | with_reducible assumption
    | intro _
    | with_reducible apply State.receive_keeps
    | with_reducible apply State.openFrom_keeps
    | with_reducible refine Keeps.fst ?_ (by assumption)
    | with_reducible apply Keeps.ite
    | with_reducible apply Keeps.forEach
    | with_reducible apply Keeps.foldl
    | split
    | extract_lets

theorem State.ackDue_keeps {s0 s : State} (part : Nat) (hK : Keeps s0 s) : Keeps s0 (State.ackDue s part) := by
  unfold State.ackDue
  repeat' first
    | with_reducible assumption
    | intro _
    | with_reducible apply State.sendAck_keeps
    | with_reducible refine Keeps.fst ?_ (by assumption)
    | with_reducible apply Keeps.ite
    | with_reducible apply Keeps.forEach
    | with_reducible apply Keeps.foldl
    | split
    | extract_lets

theorem State.dataFrom_keeps {s0 s : State} (p : FalramPkt) (part : Nat) (r : RxStream) (b : List Byte) (hK : Keeps s0 s) : Keeps s0 (State.dataFrom s p part r b) := by
  unfold State.dataFrom
  repeat' first
    | with_reducible assumption
    | intro _
    | with_reducible apply State.peerFault_keeps
    | with_reducible apply State.endStage_keeps
    | with_reducible apply State.stageBytes_keeps
    | with_reducible apply State.ackDue_keeps
    | with_reducible refine Keeps.fst ?_ (by assumption)
    | with_reducible apply Keeps.ite
    | with_reducible apply Keeps.forEach
    | with_reducible apply Keeps.foldl
    | split
    | extract_lets
    | fail_if_no_progress (with_reducible apply Keeps.fabric)

theorem execData_keeps {s0 s u : State} (p : FalramPkt) (hK : Keeps s0 s) (e : execData p s = .next u) : Keeps s0 u := by
  unfold execData at e
  refine guardRes_keeps ?_ e
  repeat' first
    | with_reducible assumption
    | intro _
    | with_reducible apply State.peerFault_keeps
    | with_reducible apply State.receive_keeps
    | with_reducible apply State.withPayload_keeps
    | with_reducible apply State.dataFrom_keeps
    | with_reducible refine Keeps.fst ?_ (by assumption)
    | with_reducible apply Keeps.ite
    | with_reducible apply Keeps.forEach
    | with_reducible apply Keeps.foldl
    | split
    | extract_lets

theorem execClose_keeps {s0 s u : State} (p : FalramPkt) (hK : Keeps s0 s) (e : execClose p s = .next u) : Keeps s0 u := by
  unfold execClose at e
  refine guardRes_keeps ?_ e
  repeat' first
    | with_reducible assumption
    | intro _
    | with_reducible apply State.dropRx_keeps
    | with_reducible apply State.endStage_keeps
    | with_reducible apply State.receive_keeps
    | with_reducible apply State.withPayload_keeps
    | with_reducible refine Keeps.fst ?_ (by assumption)
    | with_reducible apply Keeps.ite
    | with_reducible apply Keeps.forEach
    | with_reducible apply Keeps.foldl
    | split
    | extract_lets

theorem State.ackFrom_keeps {s0 s : State} (p : FalramPkt) (k : Nat) (t : TxStream) (b : List Byte) (hK : Keeps s0 s) : Keeps s0 (State.ackFrom s p k t b) := by
  unfold State.ackFrom
  repeat' first
    | with_reducible assumption
    | intro _
    | with_reducible apply Keeps.odAdd
    | with_reducible apply Keeps.log
    | with_reducible apply State.modTx_keeps
    | with_reducible apply State.sendPsn_keeps
    | with_reducible apply State.runTx_keeps
    | with_reducible refine Keeps.fst ?_ (by assumption)
    | with_reducible apply Keeps.ite
    | with_reducible apply Keeps.forEach
    | with_reducible apply Keeps.foldl
    | split
    | extract_lets

theorem execAck_keeps {s0 s u : State} (p : FalramPkt) (hK : Keeps s0 s) (e : execAck p s = .next u) : Keeps s0 u := by
  unfold execAck at e
  refine guardRes_keeps ?_ e
  repeat' first
    | with_reducible assumption
    | intro _
    | with_reducible apply State.receive_keeps
    | with_reducible apply State.withPayload_keeps
    | with_reducible apply State.ackFrom_keeps
    | with_reducible refine Keeps.fst ?_ (by assumption)
    | with_reducible apply Keeps.ite
    | with_reducible apply Keeps.forEach
    | with_reducible apply Keeps.foldl
    | split
    | extract_lets

theorem State.nakFrom_keeps {s0 s : State} (p : FalramPkt) (hK : Keeps s0 s) : Keeps s0 (State.nakFrom s p) := by
  unfold State.nakFrom
  repeat' first
    | with_reducible assumption
    | intro _
    | with_reducible apply State.failReceiver_keeps
    | with_reducible apply State.endStage_keeps
    | with_reducible apply State.withPayload_keeps
    | with_reducible refine Keeps.fst ?_ (by assumption)
    | with_reducible apply Keeps.ite
    | with_reducible apply Keeps.forEach
    | with_reducible apply Keeps.foldl
    | split
    | extract_lets
    | fail_if_no_progress (with_reducible apply Keeps.fabric)

theorem execNak_keeps {s0 s u : State} (p : FalramPkt) (hK : Keeps s0 s) (e : execNak p s = .next u) : Keeps s0 u := by
  unfold execNak at e
  refine guardRes_keeps ?_ e
  repeat' first
    | with_reducible assumption
    | intro _
    | with_reducible apply State.nak_keeps
    | with_reducible apply State.receive_keeps
    | with_reducible apply State.nakFrom_keeps
    | with_reducible refine Keeps.fst ?_ (by assumption)
    | with_reducible apply Keeps.ite
    | with_reducible apply Keeps.forEach
    | with_reducible apply Keeps.foldl
    | split
    | extract_lets

theorem execKeepaliveTimer_keeps {s0 s u : State} (dev : Nat) (hK : Keeps s0 s) (e : execKeepaliveTimer dev s = .next u) : Keeps s0 u := by
  unfold execKeepaliveTimer at e
  refine guardRes_keeps ?_ e
  repeat' first
    | with_reducible assumption
    | intro _
    | with_reducible apply State.sendPkt_keeps
    | with_reducible refine Keeps.fst ?_ (by assumption)
    | with_reducible apply Keeps.ite
    | with_reducible apply Keeps.forEach
    | with_reducible apply Keeps.foldl
    | split
    | extract_lets

theorem execAckTimer_keeps {s0 s u : State} (part : Nat) (hK : Keeps s0 s) (e : execAckTimer part s = .next u) : Keeps s0 u := by
  unfold execAckTimer at e
  refine guardRes_keeps ?_ e
  repeat' first
    | with_reducible assumption
    | intro _
    | with_reducible apply State.sendAck_keeps
    | with_reducible refine Keeps.fst ?_ (by assumption)
    | with_reducible apply Keeps.ite
    | with_reducible apply Keeps.forEach
    | with_reducible apply Keeps.foldl
    | split
    | extract_lets

theorem State.txTimeout_keeps {s0 s : State} (k : Nat) (psn : Nat) (hK : Keeps s0 s) : Keeps s0 (State.txTimeout s k psn) := by
  unfold State.txTimeout
  repeat' first
    | with_reducible assumption
    | intro _
    | with_reducible apply State.modTx_keeps
    | with_reducible apply State.sendPsn_keeps
    | with_reducible apply State.failReceiver_keeps
    | with_reducible refine Keeps.fst ?_ (by assumption)
    | with_reducible apply Keeps.ite
    | with_reducible apply Keeps.forEach
    | with_reducible apply Keeps.foldl
    | split
    | extract_lets

theorem execRetransmissionTimeout_keeps {s0 s u : State} (part : Nat) (psn : Nat) (hK : Keeps s0 s) (e : execRetransmissionTimeout part psn s = .next u) : Keeps s0 u := by
  unfold execRetransmissionTimeout at e
  refine guardRes_keeps ?_ e
  repeat' first
    | with_reducible assumption
    | intro _
    | with_reducible apply State.txTimeout_keeps
    | with_reducible refine Keeps.fst ?_ (by assumption)
    | with_reducible apply Keeps.ite
    | with_reducible apply Keeps.forEach
    | with_reducible apply Keeps.foldl
    | split
    | extract_lets

theorem execJoinTimer_keeps {s0 s u : State} (part : Nat) (hK : Keeps s0 s) (e : execJoinTimer part s = .next u) : Keeps s0 u := by
  unfold execJoinTimer at e
  refine guardRes_keeps ?_ e
  repeat' first
    | with_reducible assumption
    | intro _
    | with_reducible apply State.sendPkt_keeps
    | with_reducible refine Keeps.fst ?_ (by assumption)
    | with_reducible apply Keeps.ite
    | with_reducible apply Keeps.forEach
    | with_reducible apply Keeps.foldl
    | split
    | extract_lets

theorem execJoinWaitExpiry_keeps {s0 s u : State} (part : Nat) (hK : Keeps s0 s) (e : execJoinWaitExpiry part s = .next u) : Keeps s0 u := by
  unfold execJoinWaitExpiry at e
  refine guardRes_keeps ?_ e
  repeat' first
    | with_reducible assumption
    | intro _
    | with_reducible apply Keeps.odSetP
    | with_reducible apply State.modTx_keeps
    | with_reducible apply State.runTx_keeps
    | with_reducible refine Keeps.fst ?_ (by assumption)
    | with_reducible apply Keeps.ite
    | with_reducible apply Keeps.forEach
    | with_reducible apply Keeps.foldl
    | split
    | extract_lets

theorem execPeerSilence_keeps {s0 s u : State} (dev : Nat) (hK : Keeps s0 s) (e : execPeerSilence dev s = .next u) : Keeps s0 u := by
  unfold execPeerSilence at e
  refine guardRes_keeps ?_ e
  repeat' first
    | with_reducible assumption
    | intro _
    | with_reducible apply State.failReceiver_keeps
    | with_reducible apply State.endStage_keeps
    | with_reducible refine Keeps.fst ?_ (by assumption)
    | with_reducible apply Keeps.ite
    | with_reducible apply Keeps.forEach
    | with_reducible apply Keeps.foldl
    | split
    | extract_lets

theorem execPeerIdleExpiry_keeps {s0 s u : State} (dev : Nat) (hK : Keeps s0 s) (e : execPeerIdleExpiry dev s = .next u) : Keeps s0 u := by
  unfold execPeerIdleExpiry at e
  refine guardRes_keeps ?_ e
  repeat' first
    | with_reducible assumption
    | intro _
    | with_reducible apply State.countPeers_keeps
    | with_reducible apply State.dropPeer_keeps
    | with_reducible refine Keeps.fst ?_ (by assumption)
    | with_reducible apply Keeps.ite
    | with_reducible apply Keeps.forEach
    | with_reducible apply Keeps.foldl
    | split
    | extract_lets

theorem execLldpTimer_keeps {s0 s u : State} (link : Nat) (hK : Keeps s0 s) (e : execLldpTimer link s = .next u) : Keeps s0 u := by
  unfold execLldpTimer at e
  refine guardRes_keeps ?_ e
  repeat' first
    | with_reducible assumption
    | intro _
    | with_reducible apply Keeps.emit
    | with_reducible refine Keeps.fst ?_ (by assumption)
    | with_reducible apply Keeps.ite
    | with_reducible apply Keeps.forEach
    | with_reducible apply Keeps.foldl
    | split
    | extract_lets

theorem execEthernetLinkChange_keeps {s0 s u : State} (link : Nat) (up : Bool) (hK : Keeps s0 s) (e : execEthernetLinkChange link up s = .next u) : Keeps s0 u := by
  unfold execEthernetLinkChange at e
  refine guardRes_keeps ?_ e
  repeat' first
    | with_reducible assumption
    | intro _
    | with_reducible apply Keeps.odSet
    | with_reducible refine Keeps.fst ?_ (by assumption)
    | with_reducible apply Keeps.ite
    | with_reducible apply Keeps.forEach
    | with_reducible apply Keeps.foldl
    | split
    | extract_lets

theorem State.foreignFrame_keeps {s0 s : State} (link : Option Nat) (hK : Keeps s0 s) : Keeps s0 (State.foreignFrame s link) := by
  unfold State.foreignFrame
  repeat' first
    | with_reducible assumption
    | intro _
    | with_reducible apply Keeps.odAdd
    | with_reducible apply Keeps.log
    | with_reducible refine Keeps.fst ?_ (by assumption)
    | with_reducible apply Keeps.ite
    | with_reducible apply Keeps.forEach
    | with_reducible apply Keeps.foldl
    | split
    | extract_lets

theorem execNeighborSolicitation_keeps {s0 s u : State} (link : Option Nat) (target : Nat) (hK : Keeps s0 s) (e : execNeighborSolicitation link target s = .next u) : Keeps s0 u := by
  unfold execNeighborSolicitation at e
  refine guardRes_keeps ?_ e
  repeat' first
    | with_reducible assumption
    | intro _
    | with_reducible apply Keeps.emit
    | with_reducible apply State.foreignFrame_keeps
    | with_reducible refine Keeps.fst ?_ (by assumption)
    | with_reducible apply Keeps.ite
    | with_reducible apply Keeps.forEach
    | with_reducible apply Keeps.foldl
    | split
    | extract_lets

theorem execEchoRequest_keeps {s0 s u : State} (link : Option Nat) (target : Nat) (data : List Byte) (hK : Keeps s0 s) (e : execEchoRequest link target data s = .next u) : Keeps s0 u := by
  unfold execEchoRequest at e
  refine guardRes_keeps ?_ e
  repeat' first
    | with_reducible assumption
    | intro _
    | with_reducible apply Keeps.emit
    | with_reducible apply State.foreignFrame_keeps
    | with_reducible refine Keeps.fst ?_ (by assumption)
    | with_reducible apply Keeps.ite
    | with_reducible apply Keeps.forEach
    | with_reducible apply Keeps.foldl
    | split
    | extract_lets

theorem execForeignFrame_keeps {s0 s u : State} (link : Option Nat) (hK : Keeps s0 s) (e : execForeignFrame link s = .next u) : Keeps s0 u := by
  unfold execForeignFrame at e
  refine guardRes_keeps ?_ e
  repeat' first
    | with_reducible assumption
    | intro _
    | with_reducible apply State.command_keeps
    | with_reducible apply State.foreignFrame_keeps
    | with_reducible refine Keeps.fst ?_ (by assumption)
    | with_reducible apply Keeps.ite
    | with_reducible apply Keeps.forEach
    | with_reducible apply Keeps.foldl
    | split
    | extract_lets

theorem State.startSend_keeps {s0 s : State} (p : Nat) (c : List Byte) (hK : Keeps s0 s) : Keeps s0 (State.startSend s p c).1 := by
  refine KeepsP.keeps ?_
  unfold State.startSend
  repeat' first
    | with_reducible assumption
    | intro _
    | with_reducible apply KeepsP.ite
    | with_reducible apply State.sendHello_keeps
    | with_reducible apply State.openTx_keeps
    | with_reducible refine Keeps.fst ?_ (by assumption)
    | with_reducible apply Keeps.ite
    | with_reducible apply Keeps.forEach
    | with_reducible apply Keeps.foldl
    | split
    | extract_lets
    | with_reducible apply KeepsP.pair

theorem State.sendCommand_keeps {s0 s : State} (caller : Caller) (p : Nat) (c : List Byte) (hK : Keeps s0 s) : Keeps s0 (State.sendCommand caller p c s).1 := by
  refine KeepsP.keeps ?_
  unfold State.sendCommand
  repeat' first
    | with_reducible assumption
    | intro _
    | with_reducible apply KeepsP.ite
    | with_reducible apply State.closeTx_keeps
    | with_reducible apply State.startSend_keeps
    | with_reducible refine Keeps.fst ?_ (by assumption)
    | with_reducible apply Keeps.ite
    | with_reducible apply Keeps.forEach
    | with_reducible apply Keeps.foldl
    | split
    | extract_lets
    | with_reducible apply KeepsP.pair

theorem execFabricSend_keeps {s0 s u : State} (caller : Caller) (part : Nat) (cmd : List Byte) (hK : Keeps s0 s) (e : execFabricSend caller part cmd s = .next u) : Keeps s0 u := by
  unfold execFabricSend at e
  refine guardRes_keeps ?_ e
  repeat' first
    | with_reducible assumption
    | intro _
    | with_reducible apply State.command_keeps
    | with_reducible apply State.sendCommand_keeps
    | with_reducible refine Keeps.fst ?_ (by assumption)
    | with_reducible apply Keeps.ite
    | with_reducible apply Keeps.forEach
    | with_reducible apply Keeps.foldl
    | split
    | extract_lets

theorem execFabricAbort_keeps {s0 s u : State} (caller : Caller) (part : Nat) (cmd : List Byte) (hK : Keeps s0 s) (e : execFabricAbort caller part cmd s = .next u) : Keeps s0 u := by
  unfold execFabricAbort at e
  refine guardRes_keeps ?_ e
  repeat' first
    | with_reducible assumption
    | intro _
    | with_reducible apply State.command_keeps
    | with_reducible apply State.sendCommand_keeps
    | with_reducible refine Keeps.fst ?_ (by assumption)
    | with_reducible apply Keeps.ite
    | with_reducible apply Keeps.forEach
    | with_reducible apply Keeps.foldl
    | split
    | extract_lets

end Sys2Proof.Machine
end

