-- ==== Sys2Proof/Laws/KeepsDict.lean ====
section
/-!
SUPPORT. Every operation of Machine/Dict.lean keeps what `Keeps` says.
-/

namespace Sys2Proof.Machine

theorem numAnswer_keeps {s0 s : State} (r : OdRow) (v : Option Nat) (hK : Keeps s0 s) : Keeps s0 (numAnswer s r v).1 := by
  refine KeepsP.keeps ?_
  unfold numAnswer
  repeat' first
    | with_reducible assumption
    | intro _
    | with_reducible apply KeepsP.ite
    | with_reducible refine Keeps.fst ?_ (by assumption)
    | with_reducible apply Keeps.ite
    | with_reducible apply Keeps.forEach
    | with_reducible apply Keeps.foldl
    | split
    | extract_lets
    | with_reducible apply KeepsP.pair

theorem textAnswer_keeps {s0 s : State} (b : List Byte) (offset : Nat) (hK : Keeps s0 s) : Keeps s0 (textAnswer s b offset).1 := by
  refine KeepsP.keeps ?_
  unfold textAnswer
  repeat' first
    | with_reducible assumption
    | intro _
    | with_reducible apply KeepsP.ite
    | with_reducible refine Keeps.fst ?_ (by assumption)
    | with_reducible apply Keeps.ite
    | with_reducible apply Keeps.forEach
    | with_reducible apply Keeps.foldl
    | split
    | extract_lets
    | with_reducible apply KeepsP.pair

theorem State.readEntry_keeps {s0 s : State} (r : OdRow) (sub : Nat) (named : Nat) (offset : Nat) (hK : Keeps s0 s) : Keeps s0 (State.readEntry s r sub named offset).1 := by
  refine KeepsP.keeps ?_
  unfold State.readEntry
  repeat' first
    | with_reducible assumption
    | intro _
    | with_reducible apply KeepsP.ite
    | with_reducible apply State.readLog_keeps
    | with_reducible apply State.readSelected_keeps
    | with_reducible apply numAnswer_keeps
    | with_reducible apply textAnswer_keeps
    | with_reducible refine Keeps.fst ?_ (by assumption)
    | with_reducible apply Keeps.ite
    | with_reducible apply Keeps.forEach
    | with_reducible apply Keeps.foldl
    | split
    | extract_lets
    | with_reducible apply KeepsP.pair

theorem State.rereadAll_keeps {s0 s : State} (hK : Keeps s0 s) : Keeps s0 (State.rereadAll s) := by
  unfold State.rereadAll
  repeat' first
    | with_reducible assumption
    | intro _
    | with_reducible apply State.pushReread_keeps
    | with_reducible refine Keeps.fst ?_ (by assumption)
    | with_reducible apply Keeps.ite
    | with_reducible apply Keeps.forEach
    | with_reducible apply Keeps.foldl
    | split
    | extract_lets

theorem State.commit_keeps {s0 s : State} (hK : Keeps s0 s) : Keeps s0 (State.commit s) := by
  unfold State.commit
  repeat' first
    | with_reducible assumption
    | intro _
    | with_reducible apply Keeps.odAdd
    | with_reducible refine Keeps.fst ?_ (by assumption)
    | with_reducible apply Keeps.ite
    | with_reducible apply Keeps.forEach
    | with_reducible apply Keeps.foldl
    | split
    | extract_lets

theorem State.putDelta_keeps {s0 s : State} (ovl : Nat) (idx : Nat) (sub : Nat) (v : Option Nat) (hK : Keeps s0 s) : Keeps s0 (State.putDelta s ovl idx sub v) := by
  unfold State.putDelta
  repeat' first
    | with_reducible assumption
    | intro _
    | with_reducible apply State.rereadAll_keeps
    | with_reducible apply State.commit_keeps
    | with_reducible refine Keeps.fst ?_ (by assumption)
    | with_reducible apply Keeps.ite
    | with_reducible apply Keeps.forEach
    | with_reducible apply Keeps.foldl
    | split
    | extract_lets
    | fail_if_no_progress (with_reducible refine Keeps.hub ?_ rfl rfl)

theorem State.writeDelta_keeps {s0 s : State} (r : OdRow) (sub : Nat) (ovl : Nat) (bytes : List Byte) (hK : Keeps s0 s) : Keeps s0 (State.writeDelta r sub ovl bytes s).1 := by
  refine KeepsP.keeps ?_
  unfold State.writeDelta
  repeat' first
    | with_reducible assumption
    | intro _
    | with_reducible apply KeepsP.ite
    | with_reducible apply State.putDelta_keeps
    | with_reducible refine Keeps.fst ?_ (by assumption)
    | with_reducible apply Keeps.ite
    | with_reducible apply Keeps.forEach
    | with_reducible apply Keeps.foldl
    | split
    | extract_lets
    | with_reducible apply KeepsP.pair

theorem State.storeEntry_keeps {s0 s : State} (r : OdRow) (sub : Nat) (part : Nat) (v : Nat) (hK : Keeps s0 s) : Keeps s0 (State.storeEntry s r sub part v) := by
  unfold State.storeEntry
  repeat' first
    | with_reducible assumption
    | intro _
    | with_reducible apply Keeps.odSetP
    | with_reducible apply State.commit_keeps
    | with_reducible refine Keeps.fst ?_ (by assumption)
    | with_reducible apply Keeps.ite
    | with_reducible apply Keeps.forEach
    | with_reducible apply Keeps.foldl
    | split
    | extract_lets

theorem State.selectOverlay_keeps {s0 s : State} (c : Caller) (p : Nat) (v : Nat) (hK : Keeps s0 s) : Keeps s0 (State.selectOverlay c p v s).1 := by
  refine KeepsP.keeps ?_
  unfold State.selectOverlay
  repeat' first
    | with_reducible assumption
    | intro _
    | with_reducible apply KeepsP.ite
    | with_reducible apply Keeps.odSet
    | with_reducible apply State.pushReread_keeps
    | with_reducible apply State.commit_keeps
    | with_reducible refine Keeps.fst ?_ (by assumption)
    | with_reducible apply Keeps.ite
    | with_reducible apply Keeps.forEach
    | with_reducible apply Keeps.foldl
    | split
    | extract_lets
    | with_reducible apply KeepsP.pair

theorem State.writeNum_keeps {s0 s : State} (c : Caller) (r : OdRow) (sub : Nat) (part : Nat) (v : Nat) (hK : Keeps s0 s) : Keeps s0 (State.writeNum c r sub part v s).1 := by
  refine KeepsP.keeps ?_
  unfold State.writeNum
  repeat' first
    | with_reducible assumption
    | intro _
    | with_reducible apply KeepsP.ite
    | with_reducible apply State.pushReread_keeps
    | with_reducible apply State.retrain_keeps
    | with_reducible apply State.storeEntry_keeps
    | with_reducible apply State.selectOverlay_keeps
    | with_reducible refine Keeps.fst ?_ (by assumption)
    | with_reducible apply Keeps.ite
    | with_reducible apply Keeps.forEach
    | with_reducible apply Keeps.foldl
    | split
    | extract_lets
    | with_reducible apply KeepsP.pair

theorem State.writeCommand_keeps {s0 s : State} (c : Caller) (idx : Nat) (sub : Nat) (part : Nat) (offset : Nat) (b : List Byte) (env : CmdEnv) (hK : Keeps s0 s) : Keeps s0 (State.writeCommand c idx sub part offset b env s).1 := by
  refine KeepsP.keeps ?_
  unfold State.writeCommand
  repeat' first
    | with_reducible assumption
    | intro _
    | with_reducible apply KeepsP.ite
    | with_reducible apply State.saveUserCal_keeps
    | with_reducible apply State.haltPart_keeps
    | with_reducible apply State.resumePart_keeps
    | with_reducible apply oneOnly_keeps
    | with_reducible apply State.modelCommand_keeps
    | with_reducible apply State.dropPrefixTree_keeps
    | with_reducible apply State.partCommand_keeps
    | with_reducible apply State.clearMinimums_keeps
    | with_reducible apply State.releaseHeat_keeps
    | with_reducible apply State.debugPart_keeps
    | with_reducible apply State.restartCode_keeps
    | with_reducible apply State.updateCommand_keeps
    | with_reducible apply State.updateChunk_keeps
    | with_reducible apply State.fieldCommand_keeps
    | with_reducible apply State.restoreFactory_keeps
    | with_reducible apply State.writeSelected_keeps
    | with_reducible apply State.sendCommand_keeps
    | with_reducible refine Keeps.fst ?_ (by assumption)
    | with_reducible apply Keeps.ite
    | with_reducible apply Keeps.forEach
    | with_reducible apply Keeps.foldl
    | split
    | extract_lets
    | with_reducible apply KeepsP.pair

theorem State.writeEntry_keeps {s0 s : State} (c : Caller) (r : OdRow) (sub : Nat) (part : Nat) (offset : Nat) (typ : Nat) (b : List Byte) (env : CmdEnv) (hK : Keeps s0 s) : Keeps s0 (State.writeEntry c r sub part offset typ b env s).1 := by
  refine KeepsP.keeps ?_
  unfold State.writeEntry
  repeat' first
    | with_reducible assumption
    | intro _
    | with_reducible apply KeepsP.ite
    | with_reducible apply State.writeNum_keeps
    | with_reducible apply State.writeCommand_keeps
    | with_reducible refine Keeps.fst ?_ (by assumption)
    | with_reducible apply Keeps.ite
    | with_reducible apply Keeps.forEach
    | with_reducible apply Keeps.foldl
    | split
    | extract_lets
    | with_reducible apply KeepsP.pair

theorem State.afterWrite_keeps {s0 s : State} (idx : Nat) (b : List Byte) (env : CmdEnv) (hK : Keeps s0 s) : Keeps s0 (State.afterWrite idx b env s) := by
  unfold State.afterWrite
  repeat' first
    | with_reducible assumption
    | intro _
    | with_reducible apply State.abandonRotations_keeps
    | with_reducible apply State.command_keeps
    | with_reducible apply State.warmReset_keeps
    | with_reducible apply State.beginRestart_keeps
    | with_reducible refine Keeps.fst ?_ (by assumption)
    | with_reducible apply Keeps.ite
    | with_reducible apply Keeps.forEach
    | with_reducible apply Keeps.foldl
    | split
    | extract_lets

theorem State.answerMsg_keeps {s0 s : State} (c : Caller) (op : Nat) (m : DictMsg) (hK : Keeps s0 s) : Keeps s0 (State.answerMsg s c op m) := by
  unfold State.answerMsg
  repeat' first
    | with_reducible assumption
    | intro _
    | with_reducible apply Keeps.emit
    | with_reducible apply State.mailboxAnswer_keeps
    | with_reducible refine Keeps.fst ?_ (by assumption)
    | with_reducible apply Keeps.ite
    | with_reducible apply Keeps.forEach
    | with_reducible apply Keeps.foldl
    | split
    | extract_lets

theorem State.dictViolation_keeps {s0 s : State} (c : Caller) (code : Nat) (hK : Keeps s0 s) : Keeps s0 (State.dictViolation s c code) := by
  unfold State.dictViolation
  repeat' first
    | with_reducible assumption
    | intro _
    | with_reducible apply Keeps.odAdd
    | with_reducible apply Keeps.log
    | with_reducible refine Keeps.fst ?_ (by assumption)
    | with_reducible apply Keeps.ite
    | with_reducible apply Keeps.forEach
    | with_reducible apply Keeps.foldl
    | split
    | extract_lets

theorem State.doRead_keeps {s0 s : State} (c : Caller) (m : DictMsg) (hK : Keeps s0 s) : Keeps s0 (State.doRead s c m).1 := by
  refine KeepsP.keeps ?_
  unfold State.doRead
  repeat' first
    | with_reducible assumption
    | intro _
    | with_reducible apply KeepsP.ite
    | with_reducible apply State.readEntry_keeps
    | with_reducible apply State.dictViolation_keeps
    | with_reducible refine Keeps.fst ?_ (by assumption)
    | with_reducible apply Keeps.ite
    | with_reducible apply Keeps.forEach
    | with_reducible apply Keeps.foldl
    | split
    | extract_lets
    | with_reducible apply KeepsP.pair

theorem State.doDelta_keeps {s0 s : State} (c : Caller) (r : OdRow) (m : DictMsg) (hK : Keeps s0 s) : Keeps s0 (State.doDelta s c r m).1 := by
  refine KeepsP.keeps ?_
  unfold State.doDelta
  repeat' first
    | with_reducible assumption
    | intro _
    | with_reducible apply KeepsP.ite
    | with_reducible apply State.writeDelta_keeps
    | with_reducible refine Keeps.fst ?_ (by assumption)
    | with_reducible apply Keeps.ite
    | with_reducible apply Keeps.forEach
    | with_reducible apply Keeps.foldl
    | split
    | extract_lets
    | with_reducible apply KeepsP.pair

theorem State.doWrite_keeps {s0 s : State} (c : Caller) (m : DictMsg) (env : CmdEnv) (hK : Keeps s0 s) : Keeps s0 (State.doWrite s c m env).1 := by
  refine KeepsP.keeps ?_
  unfold State.doWrite
  repeat' first
    | with_reducible assumption
    | intro _
    | with_reducible apply KeepsP.ite
    | with_reducible apply State.writeEntry_keeps
    | with_reducible apply State.doDelta_keeps
    | with_reducible refine Keeps.fst ?_ (by assumption)
    | with_reducible apply Keeps.ite
    | with_reducible apply Keeps.forEach
    | with_reducible apply Keeps.foldl
    | split
    | extract_lets
    | with_reducible apply KeepsP.pair

theorem State.doNegotiate_keeps {s0 s : State} (c : Caller) (m : DictMsg) (hK : Keeps s0 s) : Keeps s0 (State.doNegotiate s c m).1 := by
  refine KeepsP.keeps ?_
  unfold State.doNegotiate
  repeat' first
    | with_reducible assumption
    | intro _
    | with_reducible apply KeepsP.ite
    | with_reducible apply State.dictViolation_keeps
    | with_reducible refine Keeps.fst ?_ (by assumption)
    | with_reducible apply Keeps.ite
    | with_reducible apply Keeps.forEach
    | with_reducible apply Keeps.foldl
    | split
    | extract_lets
    | fail_if_no_progress (with_reducible refine Keeps.hub ?_ rfl rfl)
    | with_reducible apply KeepsP.pair

theorem State.doLock_keeps {s0 s : State} (c : Caller) (m : DictMsg) (hK : Keeps s0 s) : Keeps s0 (State.doLock s c m).1 := by
  refine KeepsP.keeps ?_
  unfold State.doLock
  repeat' first
    | with_reducible assumption
    | intro _
    | with_reducible apply KeepsP.ite
    | with_reducible apply State.grantLock_keeps
    | with_reducible apply State.freeLock_keeps
    | with_reducible refine Keeps.fst ?_ (by assumption)
    | with_reducible apply Keeps.ite
    | with_reducible apply Keeps.forEach
    | with_reducible apply Keeps.foldl
    | split
    | extract_lets
    | with_reducible apply KeepsP.pair

theorem State.runMsg_keeps {s0 s : State} (c : Caller) (op : Nat) (m : DictMsg) (env : CmdEnv) (hK : Keeps s0 s) : Keeps s0 (State.runMsg s c op m env).1 := by
  refine KeepsP.keeps ?_
  unfold State.runMsg
  repeat' first
    | with_reducible assumption
    | intro _
    | with_reducible apply KeepsP.ite
    | with_reducible apply State.dictViolation_keeps
    | with_reducible apply State.doRead_keeps
    | with_reducible apply State.doWrite_keeps
    | with_reducible apply State.doNegotiate_keeps
    | with_reducible apply State.doLock_keeps
    | with_reducible refine Keeps.fst ?_ (by assumption)
    | with_reducible apply Keeps.ite
    | with_reducible apply Keeps.forEach
    | with_reducible apply Keeps.foldl
    | split
    | extract_lets
    | with_reducible apply KeepsP.pair

theorem State.countRate_keeps {s0 s : State} (a : Nat) (p : Nat) (hK : Keeps s0 s) : Keeps s0 (State.countRate s a p) := by
  unfold State.countRate
  repeat' first
    | with_reducible assumption
    | intro _
    | with_reducible refine Keeps.fst ?_ (by assumption)
    | with_reducible apply Keeps.ite
    | with_reducible apply Keeps.forEach
    | with_reducible apply Keeps.foldl
    | split
    | extract_lets
    | fail_if_no_progress (with_reducible refine Keeps.hub ?_ rfl rfl)

theorem State.keep_keeps {s0 s : State} (c : Caller) (seq : Nat) (op : Nat) (m : DictMsg) (hK : Keeps s0 s) : Keeps s0 (State.keep s c seq op m) := by
  unfold State.keep
  repeat' first
    | with_reducible assumption
    | intro _
    | with_reducible refine Keeps.fst ?_ (by assumption)
    | with_reducible apply Keeps.ite
    | with_reducible apply Keeps.forEach
    | with_reducible apply Keeps.foldl
    | split
    | extract_lets
    | fail_if_no_progress (with_reducible refine Keeps.hub ?_ rfl rfl)

theorem State.execMsg_keeps {s0 s : State} (c : Caller) (op : Nat) (m : DictMsg) (env : CmdEnv) (hK : Keeps s0 s) : Keeps s0 (State.execMsg s c op m env) := by
  unfold State.execMsg
  repeat' first
    | with_reducible assumption
    | intro _
    | with_reducible apply Keeps.odAdd
    | with_reducible apply State.afterWrite_keeps
    | with_reducible apply State.answerMsg_keeps
    | with_reducible apply State.runMsg_keeps
    | with_reducible apply State.keep_keeps
    | with_reducible refine Keeps.fst ?_ (by assumption)
    | with_reducible apply Keeps.ite
    | with_reducible apply Keeps.forEach
    | with_reducible apply Keeps.foldl
    | split
    | extract_lets

theorem State.serveMsg_keeps {s0 s : State} (c : Caller) (op : Nat) (m : DictMsg) (env : CmdEnv) (hK : Keeps s0 s) : Keeps s0 (State.serveMsg s c op m env) := by
  unfold State.serveMsg
  repeat' first
    | with_reducible assumption
    | intro _
    | with_reducible apply State.answerMsg_keeps
    | with_reducible apply State.dictViolation_keeps
    | with_reducible apply State.execMsg_keeps
    | with_reducible refine Keeps.fst ?_ (by assumption)
    | with_reducible apply Keeps.ite
    | with_reducible apply Keeps.forEach
    | with_reducible apply Keeps.foldl
    | split
    | extract_lets

theorem State.request_keeps {s0 s : State} (c : Caller) (op : Nat) (m : DictMsg) (env : CmdEnv) (hK : Keeps s0 s) : Keeps s0 (State.request s c op m env) := by
  unfold State.request
  repeat' first
    | with_reducible assumption
    | intro _
    | with_reducible apply State.dictViolation_keeps
    | with_reducible apply State.countRate_keeps
    | with_reducible apply State.serveMsg_keeps
    | with_reducible refine Keeps.fst ?_ (by assumption)
    | with_reducible apply Keeps.ite
    | with_reducible apply Keeps.forEach
    | with_reducible apply Keeps.foldl
    | split
    | extract_lets

theorem execNegotiate_keeps {s0 s u : State} (caller : Caller) (m : DictMsg) (hK : Keeps s0 s) (e : execNegotiate caller m s = .next u) : Keeps s0 u := by
  unfold execNegotiate at e
  refine guardRes_keeps ?_ e
  repeat' first
    | with_reducible assumption
    | intro _
    | with_reducible apply State.request_keeps
    | with_reducible refine Keeps.fst ?_ (by assumption)
    | with_reducible apply Keeps.ite
    | with_reducible apply Keeps.forEach
    | with_reducible apply Keeps.foldl
    | split
    | extract_lets

theorem execRead_keeps {s0 s u : State} (caller : Caller) (m : DictMsg) (hK : Keeps s0 s) (e : execRead caller m s = .next u) : Keeps s0 u := by
  unfold execRead at e
  refine guardRes_keeps ?_ e
  repeat' first
    | with_reducible assumption
    | intro _
    | with_reducible apply State.request_keeps
    | with_reducible refine Keeps.fst ?_ (by assumption)
    | with_reducible apply Keeps.ite
    | with_reducible apply Keeps.forEach
    | with_reducible apply Keeps.foldl
    | split
    | extract_lets

theorem execWrite_keeps {s0 s u : State} (caller : Caller) (m : DictMsg) (env : CmdEnv) (hK : Keeps s0 s) (e : execWrite caller m env s = .next u) : Keeps s0 u := by
  unfold execWrite at e
  refine guardRes_keeps ?_ e
  repeat' first
    | with_reducible assumption
    | intro _
    | with_reducible apply State.request_keeps
    | with_reducible refine Keeps.fst ?_ (by assumption)
    | with_reducible apply Keeps.ite
    | with_reducible apply Keeps.forEach
    | with_reducible apply Keeps.foldl
    | split
    | extract_lets

theorem execList_keeps {s0 s u : State} (caller : Caller) (m : DictMsg) (hK : Keeps s0 s) (e : execList caller m s = .next u) : Keeps s0 u := by
  unfold execList at e
  refine guardRes_keeps ?_ e
  repeat' first
    | with_reducible assumption
    | intro _
    | with_reducible apply State.request_keeps
    | with_reducible refine Keeps.fst ?_ (by assumption)
    | with_reducible apply Keeps.ite
    | with_reducible apply Keeps.forEach
    | with_reducible apply Keeps.foldl
    | split
    | extract_lets

theorem execNetworkLockAcquire_keeps {s0 s u : State} (caller : Caller) (m : DictMsg) (hK : Keeps s0 s) (e : execNetworkLockAcquire caller m s = .next u) : Keeps s0 u := by
  unfold execNetworkLockAcquire at e
  refine guardRes_keeps ?_ e
  repeat' first
    | with_reducible assumption
    | intro _
    | with_reducible apply State.request_keeps
    | with_reducible refine Keeps.fst ?_ (by assumption)
    | with_reducible apply Keeps.ite
    | with_reducible apply Keeps.forEach
    | with_reducible apply Keeps.foldl
    | split
    | extract_lets

theorem execNetworkLockRelease_keeps {s0 s u : State} (caller : Caller) (m : DictMsg) (hK : Keeps s0 s) (e : execNetworkLockRelease caller m s = .next u) : Keeps s0 u := by
  unfold execNetworkLockRelease at e
  refine guardRes_keeps ?_ e
  repeat' first
    | with_reducible assumption
    | intro _
    | with_reducible apply State.request_keeps
    | with_reducible refine Keeps.fst ?_ (by assumption)
    | with_reducible apply Keeps.ite
    | with_reducible apply Keeps.forEach
    | with_reducible apply Keeps.foldl
    | split
    | extract_lets

theorem execNetworkPeerExpiry_keeps {s0 s u : State} (address : Nat) (udpPort : Nat) (hK : Keeps s0 s) (e : execNetworkPeerExpiry address udpPort s = .next u) : Keeps s0 u := by
  unfold execNetworkPeerExpiry at e
  refine guardRes_keeps ?_ e
  repeat' first
    | with_reducible assumption
    | intro _
    | with_reducible apply State.dropCaller_keeps
    | with_reducible refine Keeps.fst ?_ (by assumption)
    | with_reducible apply Keeps.ite
    | with_reducible apply Keeps.forEach
    | with_reducible apply Keeps.foldl
    | split
    | extract_lets
    | fail_if_no_progress (with_reducible refine Keeps.hub ?_ rfl rfl)

theorem State.mailboxFault_keeps {s0 s : State} (port : Port) (fn : Nat) (code : Nat) (hK : Keeps s0 s) : Keeps s0 (State.mailboxFault s port fn code) := by
  unfold State.mailboxFault
  repeat' first
    | with_reducible assumption
    | intro _
    | with_reducible apply Keeps.modFn
    | with_reducible refine Keeps.fst ?_ (by assumption)
    | with_reducible apply Keeps.ite
    | with_reducible apply Keeps.forEach
    | with_reducible apply Keeps.foldl
    | split
    | extract_lets

theorem State.mailboxGo_keeps {s0 s : State} (port : Port) (fn : Nat) (value : Nat) (env : CmdEnv) (hK : Keeps s0 s) : Keeps s0 (State.mailboxGo s port fn value env) := by
  unfold State.mailboxGo
  repeat' first
    | with_reducible assumption
    | intro _
    | with_reducible apply Keeps.modFn
    | with_reducible apply State.answerMsg_keeps
    | with_reducible apply State.dictViolation_keeps
    | with_reducible apply State.request_keeps
    | with_reducible apply State.mailboxFault_keeps
    | with_reducible refine Keeps.fst ?_ (by assumption)
    | with_reducible apply Keeps.ite
    | with_reducible apply Keeps.forEach
    | with_reducible apply Keeps.foldl
    | split
    | extract_lets

theorem execMailboxGo_keeps {s0 s u : State} (port : Port) (fn : Nat) (value : Word) (env : CmdEnv) (hK : Keeps s0 s) (e : execMailboxGo port fn value env s = .next u) : Keeps s0 u := by
  unfold execMailboxGo at e
  refine guardRes_keeps ?_ e
  repeat' first
    | with_reducible assumption
    | intro _
    | with_reducible apply State.violate_keeps
    | with_reducible apply State.mailboxGo_keeps
    | with_reducible refine Keeps.fst ?_ (by assumption)
    | with_reducible apply Keeps.ite
    | with_reducible apply Keeps.forEach
    | with_reducible apply Keeps.foldl
    | split
    | extract_lets

theorem State.barWrite_keeps {s0 s : State} (port : Port) (fn : Nat) (off : Nat) (v : Nat) (hK : Keeps s0 s) : Keeps s0 (State.barWrite s port fn off v) := by
  unfold State.barWrite
  repeat' first
    | with_reducible assumption
    | intro _
    | with_reducible apply Keeps.modFn
    | with_reducible apply State.msixWrite_keeps
    | with_reducible apply State.violate_keeps
    | with_reducible apply State.negotiateVer_keeps
    | with_reducible apply State.ringCtrl_keeps
    | with_reducible apply State.sqDoorbell_keeps
    | with_reducible apply State.cqDoorbell_keeps
    | with_reducible apply State.ringReg_keeps
    | with_reducible apply State.dclWrite_keeps
    | with_reducible apply State.mailboxGo_keeps
    | with_reducible refine Keeps.fst ?_ (by assumption)
    | with_reducible apply Keeps.ite
    | with_reducible apply Keeps.forEach
    | with_reducible apply Keeps.foldl
    | split
    | extract_lets

theorem State.barWrite64_keeps {s0 s : State} (port : Port) (fn : Nat) (off : Nat) (low : Nat) (high : Nat) (hK : Keeps s0 s) : Keeps s0 (State.barWrite64 s port fn off low high) := by
  unfold State.barWrite64
  repeat' first
    | with_reducible assumption
    | intro _
    | with_reducible apply Keeps.modFn
    | with_reducible apply State.violate_keeps
    | with_reducible refine Keeps.fst ?_ (by assumption)
    | with_reducible apply Keeps.ite
    | with_reducible apply Keeps.forEach
    | with_reducible apply Keeps.foldl
    | split
    | extract_lets

theorem State.mgmtWrite_keeps {s0 s : State} (t : TileId) (off : Nat) (v : Word) (hK : Keeps s0 s) : Keeps s0 (State.mgmtWrite s t off v) := by
  unfold State.mgmtWrite
  repeat' first
    | with_reducible assumption
    | intro _
    | with_reducible apply State.writeTileReg_keeps
    | with_reducible apply State.ctrlWrite_keeps
    | with_reducible refine Keeps.fst ?_ (by assumption)
    | with_reducible apply Keeps.ite
    | with_reducible apply Keeps.forEach
    | with_reducible apply Keeps.foldl
    | split
    | extract_lets

theorem execRegisterWrite_keeps {s0 s u : State} (target : RegTarget) (value : Word) (hK : Keeps s0 s) (e : execRegisterWrite target value s = .next u) : Keeps s0 u := by
  unfold execRegisterWrite at e
  refine guardRes_keeps ?_ e
  repeat' first
    | with_reducible assumption
    | intro _
    | with_reducible apply State.writeTileReg_keeps
    | with_reducible apply State.barWrite_keeps
    | with_reducible apply State.barWrite64_keeps
    | with_reducible apply State.mgmtWrite_keeps
    | with_reducible refine Keeps.fst ?_ (by assumption)
    | with_reducible apply Keeps.ite
    | with_reducible apply Keeps.forEach
    | with_reducible apply Keeps.foldl
    | split
    | extract_lets

end Sys2Proof.Machine
end

