-- ==== Sys2Proof/Laws/KeepsExec.lean ====
section
/-!
SUPPORT. What no command of the block breaks (Keeps): one case per constructor, by the lemma of its meaning.
-/

namespace Sys2Proof.Machine

/-- Whatever command runs, what every operation keeps is kept. -/
theorem exec_keeps {s u : State} (c : Instr) (e : exec c s = .next u) : Keeps s u := by
  cases c
  · exact execColdPowerOn_keeps (hK := Keeps.refl s) (e := e)
  · exact execRefclkReturn_keeps (hK := Keeps.refl s) (e := e)
  · exact execRefclkLoss_keeps (hK := Keeps.refl s) (e := e)
  · exact execPllLossOfLock_keeps (hK := Keeps.refl s) (e := e)
  · exact execModRstNAssert_keeps (hK := Keeps.refl s) (e := e)
  · exact execModRstNRelease_keeps (hK := Keeps.refl s) (e := e)
  · exact execDeviceWarmReset_keeps (hK := Keeps.refl s) (e := e)
  · exact execSagStart_keeps (hK := Keeps.refl s) (e := e)
  · exact execSagEnd_keeps (hK := Keeps.refl s) (e := e)
  · exact execStageOneDropout_keeps (hK := Keeps.refl s) (e := e)
  · exact execOvervoltageLockout_keeps (hK := Keeps.refl s) (e := e)
  · exact execOvervoltageRecovery_keeps (hK := Keeps.refl s) (e := e)
  · exact execCurrentStepEstimate_keeps (hK := Keeps.refl s) (e := e)
  · exact execFuseTrip_keeps (hK := Keeps.refl s) (e := e)
  · exact execPhaseFailure_keeps (hK := Keeps.refl s) (e := e)
  · exact execFieldSwitchOn_keeps (hK := Keeps.refl s) (e := e)
  · exact execFieldReady_keeps (hK := Keeps.refl s) (e := e)
  · exact execPlaneOvercurrent_keeps (hK := Keeps.refl s) (e := e)
  · exact execGrantPeriod_keeps (hK := Keeps.refl s) (e := e)
  · exact execFieldGrantTick_keeps (hK := Keeps.refl s) (e := e)
  · exact execClearMinimumRecords_keeps (hK := Keeps.refl s) (e := e)
  · exact execStileSourceFailure_keeps (hK := Keeps.refl s) (e := e)
  · exact execFieldTemperatureSample_keeps (hK := Keeps.refl s) (e := e)
  · exact execThrottleStepDown_keeps (hK := Keeps.refl s) (e := e)
  · exact execThrottleStepUp_keeps (hK := Keeps.refl s) (e := e)
  · exact execUrgentRotation_keeps (hK := Keeps.refl s) (e := e)
  · exact execEvacuation_keeps (hK := Keeps.refl s) (e := e)
  · exact execOffForHeat_keeps (hK := Keeps.refl s) (e := e)
  · exact execCriticalLimit_keeps (hK := Keeps.refl s) (e := e)
  · exact execHeatReturn_keeps (hK := Keeps.refl s) (e := e)
  · exact execReleaseFieldHeldOff_keeps (hK := Keeps.refl s) (e := e)
  · exact execCoolantReadingLoss_keeps (hK := Keeps.refl s) (e := e)
  · exact execOutletLimitStep_keeps (hK := Keeps.refl s) (e := e)
  · exact execI3cRescan_keeps (hK := Keeps.refl s) (e := e)
  · exact execThermalCycleSave_keeps (hK := Keeps.refl s) (e := e)
  · exact execEmbersWarming_keeps (hK := Keeps.refl s) (e := e)
  · exact execRotationInterval_keeps (hK := Keeps.refl s) (e := e)
  · exact execRotationCopyDone_keeps (hK := Keeps.refl s) (e := e)
  · exact execRotationSwap_keeps (hK := Keeps.refl s) (e := e)
  · exact execRotationCopyTimeout_keeps (hK := Keeps.refl s) (e := e)
  · exact execRotationSwapTimeout_keeps (hK := Keeps.refl s) (e := e)
  · exact execTokenBoundary_keeps (hK := Keeps.refl s) (e := e)
  · exact execSegmentInputWord_keeps (hK := Keeps.refl s) (e := e)
  · exact execPassStart_keeps (hK := Keeps.refl s) (e := e)
  · exact execPostStage_keeps (hK := Keeps.refl s) (e := e)
  · exact execLookoutRereadDone_keeps (hK := Keeps.refl s) (e := e)
  · exact execWriteBurst_keeps (hK := Keeps.refl s) (e := e)
  · exact execHeldBurstRelease_keeps (hK := Keeps.refl s) (e := e)
  · exact execRowWriteVerify_keeps (hK := Keeps.refl s) (e := e)
  · exact execColumnSumRecompute_keeps (hK := Keeps.refl s) (e := e)
  · exact execReadRequest_keeps (hK := Keeps.refl s) (e := e)
  · exact execSegmentEnable_keeps (hK := Keeps.refl s) (e := e)
  · exact execSegmentDisable_keeps (hK := Keeps.refl s) (e := e)
  · exact execSegmentConfigWrite_keeps (hK := Keeps.refl s) (e := e)
  · exact execChannelTableWrite_keeps (hK := Keeps.refl s) (e := e)
  · exact execCalibrationDue_keeps (hK := Keeps.refl s) (e := e)
  · exact execCalibrationStart_keeps (hK := Keeps.refl s) (e := e)
  · exact execCalibrationCommit_keeps (hK := Keeps.refl s) (e := e)
  · exact execCalibrationLate_keeps (hK := Keeps.refl s) (e := e)
  · exact execUserCalibrationSave_keeps (hK := Keeps.refl s) (e := e)
  · exact execSaveUserCalibrationNow_keeps (hK := Keeps.refl s) (e := e)
  · exact execRefreshDue_keeps (hK := Keeps.refl s) (e := e)
  · exact execRefreshRow_keeps (hK := Keeps.refl s) (e := e)
  · exact execRefreshForced_keeps (hK := Keeps.refl s) (e := e)
  · exact execRejuvenation_keeps (hK := Keeps.refl s) (e := e)
  · exact execExactArrayRead_keeps (hK := Keeps.refl s) (e := e)
  · exact execExactStream_keeps (hK := Keeps.refl s) (e := e)
  · exact execTensorOperation_keeps (hK := Keeps.refl s) (e := e)
  · exact execHeldLoad_keeps (hK := Keeps.refl s) (e := e)
  · exact execTensorDrain_keeps (hK := Keeps.refl s) (e := e)
  · exact execScratchpadAccess_keeps (hK := Keeps.refl s) (e := e)
  · exact execRemoteWrite_keeps (hK := Keeps.refl s) (e := e)
  · exact execRemoteRead_keeps (hK := Keeps.refl s) (e := e)
  · exact execFetchAndAdd_keeps (hK := Keeps.refl s) (e := e)
  · exact execCompareAndSwap32_keeps (hK := Keeps.refl s) (e := e)
  · exact execCompareAndSwap64_keeps (hK := Keeps.refl s) (e := e)
  · exact execVectorQueueWord_keeps (hK := Keeps.refl s) (e := e)
  · exact execTailWrite_keeps (hK := Keeps.refl s) (e := e)
  · exact execChannelEnable_keeps (hK := Keeps.refl s) (e := e)
  · exact execChannelDisable_keeps (hK := Keeps.refl s) (e := e)
  · exact execMoverResume_keeps (hK := Keeps.refl s) (e := e)
  · exact execPaceWrite_keeps (hK := Keeps.refl s) (e := e)
  · exact execPacingTimeout_keeps (hK := Keeps.refl s) (e := e)
  · exact execDescriptorFetch_keeps (hK := Keeps.refl s) (e := e)
  · exact execCopy_keeps (hK := Keeps.refl s) (e := e)
  · exact execTransposedCopy_keeps (hK := Keeps.refl s) (e := e)
  · exact execFill_keeps (hK := Keeps.refl s) (e := e)
  · exact execMarker_keeps (hK := Keeps.refl s) (e := e)
  · exact execDescriptorWriteback_keeps (hK := Keeps.refl s) (e := e)
  · exact execStackAccess_keeps (hK := Keeps.refl s) (e := e)
  · exact execStackFailure_keeps (hK := Keeps.refl s) (e := e)
  · exact execPatrolScrub_keeps (hK := Keeps.refl s) (e := e)
  · exact execMessageInjection_keeps (hK := Keeps.refl s) (e := e)
  · exact execFlitForward_keeps (hK := Keeps.refl s) (e := e)
  · exact execFlitEjection_keeps (hK := Keeps.refl s) (e := e)
  · exact execReductionCombine_keeps (hK := Keeps.refl s) (e := e)
  · exact execReductionTimeout_keeps (hK := Keeps.refl s) (e := e)
  · exact execReleasedKeyExpiry_keeps (hK := Keeps.refl s) (e := e)
  · exact execReadDataReceipt_keeps (hK := Keeps.refl s) (e := e)
  · exact execAcknowledgementReceipt_keeps (hK := Keeps.refl s) (e := e)
  · exact execRefusalReceipt_keeps (hK := Keeps.refl s) (e := e)
  · exact execResponseTimeout_keeps (hK := Keeps.refl s) (e := e)
  · exact execRimIngress_keeps (hK := Keeps.refl s) (e := e)
  · exact execDetourDrainComplete_keeps (hK := Keeps.refl s) (e := e)
  · exact execDetourDrainLimitExpiry_keeps (hK := Keeps.refl s) (e := e)
  · exact execAdd_keeps (hK := Keeps.refl s) (e := e)
  · exact execSub_keeps (hK := Keeps.refl s) (e := e)
  · exact execAnd_keeps (hK := Keeps.refl s) (e := e)
  · exact execOr_keeps (hK := Keeps.refl s) (e := e)
  · exact execXor_keeps (hK := Keeps.refl s) (e := e)
  · exact execSll_keeps (hK := Keeps.refl s) (e := e)
  · exact execSrl_keeps (hK := Keeps.refl s) (e := e)
  · exact execSra_keeps (hK := Keeps.refl s) (e := e)
  · exact execSlt_keeps (hK := Keeps.refl s) (e := e)
  · exact execSltu_keeps (hK := Keeps.refl s) (e := e)
  · exact execAddi_keeps (hK := Keeps.refl s) (e := e)
  · exact execAndi_keeps (hK := Keeps.refl s) (e := e)
  · exact execOri_keeps (hK := Keeps.refl s) (e := e)
  · exact execXori_keeps (hK := Keeps.refl s) (e := e)
  · exact execSlti_keeps (hK := Keeps.refl s) (e := e)
  · exact execShiftImmediate_keeps (hK := Keeps.refl s) (e := e)
  · exact execLui_keeps (hK := Keeps.refl s) (e := e)
  · exact execMul_keeps (hK := Keeps.refl s) (e := e)
  · exact execMulh_keeps (hK := Keeps.refl s) (e := e)
  · exact execMulhu_keeps (hK := Keeps.refl s) (e := e)
  · exact execLb_keeps (hK := Keeps.refl s) (e := e)
  · exact execLbu_keeps (hK := Keeps.refl s) (e := e)
  · exact execLh_keeps (hK := Keeps.refl s) (e := e)
  · exact execLhu_keeps (hK := Keeps.refl s) (e := e)
  · exact execLw_keeps (hK := Keeps.refl s) (e := e)
  · exact execSb_keeps (hK := Keeps.refl s) (e := e)
  · exact execSh_keeps (hK := Keeps.refl s) (e := e)
  · exact execSw_keeps (hK := Keeps.refl s) (e := e)
  · exact execBeq_keeps (hK := Keeps.refl s) (e := e)
  · exact execBne_keeps (hK := Keeps.refl s) (e := e)
  · exact execBlt_keeps (hK := Keeps.refl s) (e := e)
  · exact execBge_keeps (hK := Keeps.refl s) (e := e)
  · exact execBltu_keeps (hK := Keeps.refl s) (e := e)
  · exact execBgeu_keeps (hK := Keeps.refl s) (e := e)
  · exact execJ_keeps (hK := Keeps.refl s) (e := e)
  · exact execJal_keeps (hK := Keeps.refl s) (e := e)
  · exact execJr_keeps (hK := Keeps.refl s) (e := e)
  · exact execJalr_keeps (hK := Keeps.refl s) (e := e)
  · exact execTsub_keeps (hK := Keeps.refl s) (e := e)
  · exact execVld_keeps (hK := Keeps.refl s) (e := e)
  · exact execVst_keeps (hK := Keeps.refl s) (e := e)
  · exact execVtst_keeps (hK := Keeps.refl s) (e := e)
  · exact execVopArithmetic_keeps (hK := Keeps.refl s) (e := e)
  · exact execVopCompareAndSelect_keeps (hK := Keeps.refl s) (e := e)
  · exact execVopConversion_keeps (hK := Keeps.refl s) (e := e)
  · exact execVopReciprocal_keeps (hK := Keeps.refl s) (e := e)
  · exact execVopExp_keeps (hK := Keeps.refl s) (e := e)
  · exact execSigmoid_keeps (hK := Keeps.refl s) (e := e)
  · exact execSilu_keeps (hK := Keeps.refl s) (e := e)
  · exact execSoftmaxStep_keeps (hK := Keeps.refl s) (e := e)
  · exact execVectorReduction_keeps (hK := Keeps.refl s) (e := e)
  · exact execTop64Select_keeps (hK := Keeps.refl s) (e := e)
  · exact execDraw_keeps (hK := Keeps.refl s) (e := e)
  · exact execSend_keeps (hK := Keeps.refl s) (e := e)
  · exact execRecv_keeps (hK := Keeps.refl s) (e := e)
  · exact execRld_keeps (hK := Keeps.refl s) (e := e)
  · exact execRst_keeps (hK := Keeps.refl s) (e := e)
  · exact execRamoFetchAndAdd_keeps (hK := Keeps.refl s) (e := e)
  · exact execRamoCompareAndSwap32_keeps (hK := Keeps.refl s) (e := e)
  · exact execRamoCompareAndSwap64_keeps (hK := Keeps.refl s) (e := e)
  · exact execWait_keeps (hK := Keeps.refl s) (e := e)
  · exact execFence_keeps (hK := Keeps.refl s) (e := e)
  · exact execNop_keeps (hK := Keeps.refl s) (e := e)
  · exact execHalt_keeps (hK := Keeps.refl s) (e := e)
  · exact execTrap_keeps (hK := Keeps.refl s) (e := e)
  · exact execBrk_keeps (hK := Keeps.refl s) (e := e)
  · exact execMessageReceipt_keeps (hK := Keeps.refl s) (e := e)
  · exact execMessageQueueTimeout_keeps (hK := Keeps.refl s) (e := e)
  · exact execWatchdogExpiry_keeps (hK := Keeps.refl s) (e := e)
  · exact execWdogWrite_keeps (hK := Keeps.refl s) (e := e)
  · exact execTimerExpiry_keeps (hK := Keeps.refl s) (e := e)
  · exact execHaltRequest_keeps (hK := Keeps.refl s) (e := e)
  · exact execResume_keeps (hK := Keeps.refl s) (e := e)
  · exact execStep_keeps (hK := Keeps.refl s) (e := e)
  · exact execHaltPartition_keeps (hK := Keeps.refl s) (e := e)
  · exact execResumePartition_keeps (hK := Keeps.refl s) (e := e)
  · exact execDrainLimitExpiry_keeps (hK := Keeps.refl s) (e := e)
  · exact execTraceTimeRecord_keeps (hK := Keeps.refl s) (e := e)
  · exact execKvWalk_keeps (hK := Keeps.refl s) (e := e)
  · exact execAttentionToken_keeps (hK := Keeps.refl s) (e := e)
  · exact execAttentionResume_keeps (hK := Keeps.refl s) (e := e)
  · exact execAttentionMerge_keeps (hK := Keeps.refl s) (e := e)
  · exact execPrefixInsert_keeps (hK := Keeps.refl s) (e := e)
  · exact execMakePrefixTreeUnreachable_keeps (hK := Keeps.refl s) (e := e)
  · exact execRequestFree_keeps (hK := Keeps.refl s) (e := e)
  · exact execSubmit_keeps (hK := Keeps.refl s) (e := e)
  · exact execPromptReadComplete_keeps (hK := Keeps.refl s) (e := e)
  · exact execCancel_keeps (hK := Keeps.refl s) (e := e)
  · exact execStepBoundary_keeps (hK := Keeps.refl s) (e := e)
  · exact execStage_keeps (hK := Keeps.refl s) (e := e)
  · exact execStageDataArrival_keeps (hK := Keeps.refl s) (e := e)
  · exact execInstall_keeps (hK := Keeps.refl s) (e := e)
  · exact execInstallResume_keeps (hK := Keeps.refl s) (e := e)
  · exact execInstallStreamDone_keeps (hK := Keeps.refl s) (e := e)
  · exact execDiscard_keeps (hK := Keeps.refl s) (e := e)
  · exact execAbort_keeps (hK := Keeps.refl s) (e := e)
  · exact execHqVerWrite_keeps (hK := Keeps.refl s) (e := e)
  · exact execRingEnable_keeps (hK := Keeps.refl s) (e := e)
  · exact execSqTailWrite_keeps (hK := Keeps.refl s) (e := e)
  · exact execCqHeadWrite_keeps (hK := Keeps.refl s) (e := e)
  · exact execSubmissionFetch_keeps (hK := Keeps.refl s) (e := e)
  · exact execSubmissionFetchTimeout_keeps (hK := Keeps.refl s) (e := e)
  · exact execInterruptCoalesceExpiry_keeps (hK := Keeps.refl s) (e := e)
  · exact execHostReadCompletion_keeps (hK := Keeps.refl s) (e := e)
  · exact execHostReadTimeout_keeps (hK := Keeps.refl s) (e := e)
  · exact execHostReadRetry_keeps (hK := Keeps.refl s) (e := e)
  · exact execLockAcquire_keeps (hK := Keeps.refl s) (e := e)
  · exact execLockRelease_keeps (hK := Keeps.refl s) (e := e)
  · exact execLeaseWarning_keeps (hK := Keeps.refl s) (e := e)
  · exact execLeaseExpiry_keeps (hK := Keeps.refl s) (e := e)
  · exact execPerst_keeps (hK := Keeps.refl s) (e := e)
  · exact execFunctionLevelReset_keeps (hK := Keeps.refl s) (e := e)
  · exact execD3hotEntry_keeps (hK := Keeps.refl s) (e := e)
  · exact execD0Entry_keeps (hK := Keeps.refl s) (e := e)
  · exact execBusMasterDisable_keeps (hK := Keeps.refl s) (e := e)
  · exact execBarAccessViolation_keeps (hK := Keeps.refl s) (e := e)
  · exact execIdeStreamFailure_keeps (hK := Keeps.refl s) (e := e)
  · exact execQuery_keeps (hK := Keeps.refl s) (e := e)
  · exact execKeyProg_keeps (hK := Keeps.refl s) (e := e)
  · exact execKSetGo_keeps (hK := Keeps.refl s) (e := e)
  · exact execKSetStop_keeps (hK := Keeps.refl s) (e := e)
  · exact execHello_keeps (hK := Keeps.refl s) (e := e)
  · exact execKeepalive_keeps (hK := Keeps.refl s) (e := e)
  · exact execJoin_keeps (hK := Keeps.refl s) (e := e)
  · exact execOpenPkt_keeps (hK := Keeps.refl s) (e := e)
  · exact execData_keeps (hK := Keeps.refl s) (e := e)
  · exact execAck_keeps (hK := Keeps.refl s) (e := e)
  · exact execNak_keeps (hK := Keeps.refl s) (e := e)
  · exact execClose_keeps (hK := Keeps.refl s) (e := e)
  · exact execKeepaliveTimer_keeps (hK := Keeps.refl s) (e := e)
  · exact execAckTimer_keeps (hK := Keeps.refl s) (e := e)
  · exact execRetransmissionTimeout_keeps (hK := Keeps.refl s) (e := e)
  · exact execJoinTimer_keeps (hK := Keeps.refl s) (e := e)
  · exact execJoinWaitExpiry_keeps (hK := Keeps.refl s) (e := e)
  · exact execPeerSilence_keeps (hK := Keeps.refl s) (e := e)
  · exact execPeerIdleExpiry_keeps (hK := Keeps.refl s) (e := e)
  · exact execLldpTimer_keeps (hK := Keeps.refl s) (e := e)
  · exact execEthernetLinkChange_keeps (hK := Keeps.refl s) (e := e)
  · exact execNeighborSolicitation_keeps (hK := Keeps.refl s) (e := e)
  · exact execEchoRequest_keeps (hK := Keeps.refl s) (e := e)
  · exact execForeignFrame_keeps (hK := Keeps.refl s) (e := e)
  · exact execFabricSend_keeps (hK := Keeps.refl s) (e := e)
  · exact execFabricAbort_keeps (hK := Keeps.refl s) (e := e)
  · exact execForm_keeps (hK := Keeps.refl s) (e := e)
  · exact execReset_keeps (hK := Keeps.refl s) (e := e)
  · exact execDissolve_keeps (hK := Keeps.refl s) (e := e)
  · exact execScrubComplete_keeps (hK := Keeps.refl s) (e := e)
  · exact execGetVersion_keeps (hK := Keeps.refl s) (e := e)
  · exact execGetCapabilities_keeps (hK := Keeps.refl s) (e := e)
  · exact execNegotiateAlgorithms_keeps (hK := Keeps.refl s) (e := e)
  · exact execGetDigests_keeps (hK := Keeps.refl s) (e := e)
  · exact execGetCertificate_keeps (hK := Keeps.refl s) (e := e)
  · exact execChallenge_keeps (hK := Keeps.refl s) (e := e)
  · exact execGetMeasurements_keeps (hK := Keeps.refl s) (e := e)
  · exact execKeyExchange_keeps (hK := Keeps.refl s) (e := e)
  · exact execFinish_keeps (hK := Keeps.refl s) (e := e)
  · exact execHeartbeat_keeps (hK := Keeps.refl s) (e := e)
  · exact execKeyUpdate_keeps (hK := Keeps.refl s) (e := e)
  · exact execEndSession_keeps (hK := Keeps.refl s) (e := e)
  · exact execHeartbeatLapse_keeps (hK := Keeps.refl s) (e := e)
  · exact execClaim_keeps (hK := Keeps.refl s) (e := e)
  · exact execSetKey_keeps (hK := Keeps.refl s) (e := e)
  · exact execClearKey_keeps (hK := Keeps.refl s) (e := e)
  · exact execSeal_keeps (hK := Keeps.refl s) (e := e)
  · exact execUnseal_keeps (hK := Keeps.refl s) (e := e)
  · exact execRelease_keeps (hK := Keeps.refl s) (e := e)
  · exact execManagementRestart_keeps (hK := Keeps.refl s) (e := e)
  · exact execManagementRestartEnd_keeps (hK := Keeps.refl s) (e := e)
  · exact execHubWatchdogExpiry_keeps (hK := Keeps.refl s) (e := e)
  · exact execHubSramError_keeps (hK := Keeps.refl s) (e := e)
  · exact execRestartTheHub_keeps (hK := Keeps.refl s) (e := e)
  · exact execUpdateBegin_keeps (hK := Keeps.refl s) (e := e)
  · exact execUpdateImageChunk_keeps (hK := Keeps.refl s) (e := e)
  · exact execUpdateCommit_keeps (hK := Keeps.refl s) (e := e)
  · exact execUpdateAbort_keeps (hK := Keeps.refl s) (e := e)
  · exact execFlashImageWritten_keeps (hK := Keeps.refl s) (e := e)
  · exact execNegotiate_keeps (hK := Keeps.refl s) (e := e)
  · exact execRead_keeps (hK := Keeps.refl s) (e := e)
  · exact execWrite_keeps (hK := Keeps.refl s) (e := e)
  · exact execList_keeps (hK := Keeps.refl s) (e := e)
  · exact execNetworkLockAcquire_keeps (hK := Keeps.refl s) (e := e)
  · exact execNetworkLockRelease_keeps (hK := Keeps.refl s) (e := e)
  · exact execNetworkPeerExpiry_keeps (hK := Keeps.refl s) (e := e)
  · exact execRestoreFactory_keeps (hK := Keeps.refl s) (e := e)
  · exact execLogFlashWrite_keeps (hK := Keeps.refl s) (e := e)
  · exact execFieldCycle_keeps (hK := Keeps.refl s) (e := e)
  · exact execFieldOff_keeps (hK := Keeps.refl s) (e := e)
  · exact execFieldOn_keeps (hK := Keeps.refl s) (e := e)
  · exact execStandbyEnter_keeps (hK := Keeps.refl s) (e := e)
  · exact execStandbyExit_keeps (hK := Keeps.refl s) (e := e)
  · exact execQueuedActivityStart_keeps (hK := Keeps.refl s) (e := e)
  · exact execQueueWaitExpiry_keeps (hK := Keeps.refl s) (e := e)
  · exact execAvailabilityCount_keeps (hK := Keeps.refl s) (e := e)
  · exact execRegisterWrite_keeps (hK := Keeps.refl s) (e := e)
  · exact execStageOneTurnOn_keeps (hK := Keeps.refl s) (e := e)
  · exact execInputSample_keeps (hK := Keeps.refl s) (e := e)
  · exact execFieldBranchSample_keeps (hK := Keeps.refl s) (e := e)
  · exact execHubSensorRead_keeps (_hubDie := 0) (hK := Keeps.refl s) (e := e)
  · exact execPoweredHourCount_keeps (hK := Keeps.refl s) (e := e)
  · exact execIllegalInstruction_keeps (hK := Keeps.refl s) (e := e)
  · exact execMailboxGo_keeps (hK := Keeps.refl s) (e := e)
  · exact execPcieLinkUp_keeps (hK := Keeps.refl s) (e := e)
  · exact execConfigurationRequest_keeps (hK := Keeps.refl s) (e := e)

end Sys2Proof.Machine
end

