-- ==== Sys2Proof/Laws/State.lean ====
section
/-!
SUPPORT. What each named update of the state does to each field of it, and how tiles, routers, fields, partitions,
functions and dictionary values read after a write.
-/

namespace Sys2Proof.Machine

@[simp] theorem State.setTile_pending (s : State) (t : TileId) (x : Tile) : (s.setTile t x).pending = s.pending := rfl
@[simp] theorem State.setTile_out (s : State) (t : TileId) (x : Tile) : (s.setTile t x).out = s.out := rfl
@[simp] theorem State.setTile_free (s : State) (t : TileId) (x : Tile) : (s.setTile t x).free = s.free := rfl
@[simp] theorem State.setTile_clkTime (s : State) (t : TileId) (x : Tile) : (s.setTile t x).clkTime = s.clkTime := rfl
@[simp] theorem State.setTile_od (s : State) (t : TileId) (x : Tile) : (s.setTile t x).od = s.od := rfl
@[simp] theorem State.setTile_odBlob (s : State) (t : TileId) (x : Tile) : (s.setTile t x).odBlob = s.odBlob := rfl
@[simp] theorem State.setTile_hub (s : State) (t : TileId) (x : Tile) : (s.setTile t x).hub = s.hub := rfl
@[simp] theorem State.setTile_mesh (s : State) (t : TileId) (x : Tile) : (s.setTile t x).mesh = s.mesh := rfl
@[simp] theorem State.setTile_stk (s : State) (t : TileId) (x : Tile) : (s.setTile t x).stk = s.stk := rfl
@[simp] theorem State.setTile_power (s : State) (t : TileId) (x : Tile) : (s.setTile t x).power = s.power := rfl
@[simp] theorem State.setTile_fields (s : State) (t : TileId) (x : Tile) : (s.setTile t x).fields = s.fields := rfl
@[simp] theorem State.setTile_routers (s : State) (t : TileId) (x : Tile) : (s.setTile t x).routers = s.routers := rfl
@[simp] theorem State.setTile_parts (s : State) (t : TileId) (x : Tile) : (s.setTile t x).parts = s.parts := rfl
@[simp] theorem State.setTile_fns (s : State) (t : TileId) (x : Tile) : (s.setTile t x).fns = s.fns := rfl
@[simp] theorem State.setTile_fabric (s : State) (t : TileId) (x : Tile) : (s.setTile t x).fabric = s.fabric := rfl

@[simp] theorem State.modTile_pending (s : State) (t : TileId) (f : Tile → Tile) : (s.modTile t f).pending = s.pending := rfl
@[simp] theorem State.modTile_out (s : State) (t : TileId) (f : Tile → Tile) : (s.modTile t f).out = s.out := rfl
@[simp] theorem State.modTile_free (s : State) (t : TileId) (f : Tile → Tile) : (s.modTile t f).free = s.free := rfl
@[simp] theorem State.modTile_clkTime (s : State) (t : TileId) (f : Tile → Tile) : (s.modTile t f).clkTime = s.clkTime := rfl
@[simp] theorem State.modTile_od (s : State) (t : TileId) (f : Tile → Tile) : (s.modTile t f).od = s.od := rfl
@[simp] theorem State.modTile_odBlob (s : State) (t : TileId) (f : Tile → Tile) : (s.modTile t f).odBlob = s.odBlob := rfl
@[simp] theorem State.modTile_hub (s : State) (t : TileId) (f : Tile → Tile) : (s.modTile t f).hub = s.hub := rfl
@[simp] theorem State.modTile_mesh (s : State) (t : TileId) (f : Tile → Tile) : (s.modTile t f).mesh = s.mesh := rfl
@[simp] theorem State.modTile_stk (s : State) (t : TileId) (f : Tile → Tile) : (s.modTile t f).stk = s.stk := rfl
@[simp] theorem State.modTile_power (s : State) (t : TileId) (f : Tile → Tile) : (s.modTile t f).power = s.power := rfl
@[simp] theorem State.modTile_fields (s : State) (t : TileId) (f : Tile → Tile) : (s.modTile t f).fields = s.fields := rfl
@[simp] theorem State.modTile_routers (s : State) (t : TileId) (f : Tile → Tile) : (s.modTile t f).routers = s.routers := rfl
@[simp] theorem State.modTile_parts (s : State) (t : TileId) (f : Tile → Tile) : (s.modTile t f).parts = s.parts := rfl
@[simp] theorem State.modTile_fns (s : State) (t : TileId) (f : Tile → Tile) : (s.modTile t f).fns = s.fns := rfl
@[simp] theorem State.modTile_fabric (s : State) (t : TileId) (f : Tile → Tile) : (s.modTile t f).fabric = s.fabric := rfl

@[simp] theorem State.modCb_pending (s : State) (t : TileId) (f : ChargeBank → ChargeBank) : (s.modCb t f).pending = s.pending := rfl
@[simp] theorem State.modCb_out (s : State) (t : TileId) (f : ChargeBank → ChargeBank) : (s.modCb t f).out = s.out := rfl
@[simp] theorem State.modCb_free (s : State) (t : TileId) (f : ChargeBank → ChargeBank) : (s.modCb t f).free = s.free := rfl
@[simp] theorem State.modCb_clkTime (s : State) (t : TileId) (f : ChargeBank → ChargeBank) : (s.modCb t f).clkTime = s.clkTime := rfl
@[simp] theorem State.modCb_od (s : State) (t : TileId) (f : ChargeBank → ChargeBank) : (s.modCb t f).od = s.od := rfl
@[simp] theorem State.modCb_odBlob (s : State) (t : TileId) (f : ChargeBank → ChargeBank) : (s.modCb t f).odBlob = s.odBlob := rfl
@[simp] theorem State.modCb_hub (s : State) (t : TileId) (f : ChargeBank → ChargeBank) : (s.modCb t f).hub = s.hub := rfl
@[simp] theorem State.modCb_mesh (s : State) (t : TileId) (f : ChargeBank → ChargeBank) : (s.modCb t f).mesh = s.mesh := rfl
@[simp] theorem State.modCb_stk (s : State) (t : TileId) (f : ChargeBank → ChargeBank) : (s.modCb t f).stk = s.stk := rfl
@[simp] theorem State.modCb_power (s : State) (t : TileId) (f : ChargeBank → ChargeBank) : (s.modCb t f).power = s.power := rfl
@[simp] theorem State.modCb_fields (s : State) (t : TileId) (f : ChargeBank → ChargeBank) : (s.modCb t f).fields = s.fields := rfl
@[simp] theorem State.modCb_routers (s : State) (t : TileId) (f : ChargeBank → ChargeBank) : (s.modCb t f).routers = s.routers := rfl
@[simp] theorem State.modCb_parts (s : State) (t : TileId) (f : ChargeBank → ChargeBank) : (s.modCb t f).parts = s.parts := rfl
@[simp] theorem State.modCb_fns (s : State) (t : TileId) (f : ChargeBank → ChargeBank) : (s.modCb t f).fns = s.fns := rfl
@[simp] theorem State.modCb_fabric (s : State) (t : TileId) (f : ChargeBank → ChargeBank) : (s.modCb t f).fabric = s.fabric := rfl

@[simp] theorem State.modLk_pending (s : State) (t : TileId) (f : Lookout → Lookout) : (s.modLk t f).pending = s.pending := rfl
@[simp] theorem State.modLk_out (s : State) (t : TileId) (f : Lookout → Lookout) : (s.modLk t f).out = s.out := rfl
@[simp] theorem State.modLk_free (s : State) (t : TileId) (f : Lookout → Lookout) : (s.modLk t f).free = s.free := rfl
@[simp] theorem State.modLk_clkTime (s : State) (t : TileId) (f : Lookout → Lookout) : (s.modLk t f).clkTime = s.clkTime := rfl
@[simp] theorem State.modLk_od (s : State) (t : TileId) (f : Lookout → Lookout) : (s.modLk t f).od = s.od := rfl
@[simp] theorem State.modLk_odBlob (s : State) (t : TileId) (f : Lookout → Lookout) : (s.modLk t f).odBlob = s.odBlob := rfl
@[simp] theorem State.modLk_hub (s : State) (t : TileId) (f : Lookout → Lookout) : (s.modLk t f).hub = s.hub := rfl
@[simp] theorem State.modLk_mesh (s : State) (t : TileId) (f : Lookout → Lookout) : (s.modLk t f).mesh = s.mesh := rfl
@[simp] theorem State.modLk_stk (s : State) (t : TileId) (f : Lookout → Lookout) : (s.modLk t f).stk = s.stk := rfl
@[simp] theorem State.modLk_power (s : State) (t : TileId) (f : Lookout → Lookout) : (s.modLk t f).power = s.power := rfl
@[simp] theorem State.modLk_fields (s : State) (t : TileId) (f : Lookout → Lookout) : (s.modLk t f).fields = s.fields := rfl
@[simp] theorem State.modLk_routers (s : State) (t : TileId) (f : Lookout → Lookout) : (s.modLk t f).routers = s.routers := rfl
@[simp] theorem State.modLk_parts (s : State) (t : TileId) (f : Lookout → Lookout) : (s.modLk t f).parts = s.parts := rfl
@[simp] theorem State.modLk_fns (s : State) (t : TileId) (f : Lookout → Lookout) : (s.modLk t f).fns = s.fns := rfl
@[simp] theorem State.modLk_fabric (s : State) (t : TileId) (f : Lookout → Lookout) : (s.modLk t f).fabric = s.fabric := rfl

@[simp] theorem State.modTv_pending (s : State) (t : TileId) (f : Tensor → Tensor) : (s.modTv t f).pending = s.pending := rfl
@[simp] theorem State.modTv_out (s : State) (t : TileId) (f : Tensor → Tensor) : (s.modTv t f).out = s.out := rfl
@[simp] theorem State.modTv_free (s : State) (t : TileId) (f : Tensor → Tensor) : (s.modTv t f).free = s.free := rfl
@[simp] theorem State.modTv_clkTime (s : State) (t : TileId) (f : Tensor → Tensor) : (s.modTv t f).clkTime = s.clkTime := rfl
@[simp] theorem State.modTv_od (s : State) (t : TileId) (f : Tensor → Tensor) : (s.modTv t f).od = s.od := rfl
@[simp] theorem State.modTv_odBlob (s : State) (t : TileId) (f : Tensor → Tensor) : (s.modTv t f).odBlob = s.odBlob := rfl
@[simp] theorem State.modTv_hub (s : State) (t : TileId) (f : Tensor → Tensor) : (s.modTv t f).hub = s.hub := rfl
@[simp] theorem State.modTv_mesh (s : State) (t : TileId) (f : Tensor → Tensor) : (s.modTv t f).mesh = s.mesh := rfl
@[simp] theorem State.modTv_stk (s : State) (t : TileId) (f : Tensor → Tensor) : (s.modTv t f).stk = s.stk := rfl
@[simp] theorem State.modTv_power (s : State) (t : TileId) (f : Tensor → Tensor) : (s.modTv t f).power = s.power := rfl
@[simp] theorem State.modTv_fields (s : State) (t : TileId) (f : Tensor → Tensor) : (s.modTv t f).fields = s.fields := rfl
@[simp] theorem State.modTv_routers (s : State) (t : TileId) (f : Tensor → Tensor) : (s.modTv t f).routers = s.routers := rfl
@[simp] theorem State.modTv_parts (s : State) (t : TileId) (f : Tensor → Tensor) : (s.modTv t f).parts = s.parts := rfl
@[simp] theorem State.modTv_fns (s : State) (t : TileId) (f : Tensor → Tensor) : (s.modTv t f).fns = s.fns := rfl
@[simp] theorem State.modTv_fabric (s : State) (t : TileId) (f : Tensor → Tensor) : (s.modTv t f).fabric = s.fabric := rfl

@[simp] theorem State.modVu_pending (s : State) (t : TileId) (f : Vector → Vector) : (s.modVu t f).pending = s.pending := rfl
@[simp] theorem State.modVu_out (s : State) (t : TileId) (f : Vector → Vector) : (s.modVu t f).out = s.out := rfl
@[simp] theorem State.modVu_free (s : State) (t : TileId) (f : Vector → Vector) : (s.modVu t f).free = s.free := rfl
@[simp] theorem State.modVu_clkTime (s : State) (t : TileId) (f : Vector → Vector) : (s.modVu t f).clkTime = s.clkTime := rfl
@[simp] theorem State.modVu_od (s : State) (t : TileId) (f : Vector → Vector) : (s.modVu t f).od = s.od := rfl
@[simp] theorem State.modVu_odBlob (s : State) (t : TileId) (f : Vector → Vector) : (s.modVu t f).odBlob = s.odBlob := rfl
@[simp] theorem State.modVu_hub (s : State) (t : TileId) (f : Vector → Vector) : (s.modVu t f).hub = s.hub := rfl
@[simp] theorem State.modVu_mesh (s : State) (t : TileId) (f : Vector → Vector) : (s.modVu t f).mesh = s.mesh := rfl
@[simp] theorem State.modVu_stk (s : State) (t : TileId) (f : Vector → Vector) : (s.modVu t f).stk = s.stk := rfl
@[simp] theorem State.modVu_power (s : State) (t : TileId) (f : Vector → Vector) : (s.modVu t f).power = s.power := rfl
@[simp] theorem State.modVu_fields (s : State) (t : TileId) (f : Vector → Vector) : (s.modVu t f).fields = s.fields := rfl
@[simp] theorem State.modVu_routers (s : State) (t : TileId) (f : Vector → Vector) : (s.modVu t f).routers = s.routers := rfl
@[simp] theorem State.modVu_parts (s : State) (t : TileId) (f : Vector → Vector) : (s.modVu t f).parts = s.parts := rfl
@[simp] theorem State.modVu_fns (s : State) (t : TileId) (f : Vector → Vector) : (s.modVu t f).fns = s.fns := rfl
@[simp] theorem State.modVu_fabric (s : State) (t : TileId) (f : Vector → Vector) : (s.modVu t f).fabric = s.fabric := rfl

@[simp] theorem State.modSp_pending (s : State) (t : TileId) (f : Spad → Spad) : (s.modSp t f).pending = s.pending := rfl
@[simp] theorem State.modSp_out (s : State) (t : TileId) (f : Spad → Spad) : (s.modSp t f).out = s.out := rfl
@[simp] theorem State.modSp_free (s : State) (t : TileId) (f : Spad → Spad) : (s.modSp t f).free = s.free := rfl
@[simp] theorem State.modSp_clkTime (s : State) (t : TileId) (f : Spad → Spad) : (s.modSp t f).clkTime = s.clkTime := rfl
@[simp] theorem State.modSp_od (s : State) (t : TileId) (f : Spad → Spad) : (s.modSp t f).od = s.od := rfl
@[simp] theorem State.modSp_odBlob (s : State) (t : TileId) (f : Spad → Spad) : (s.modSp t f).odBlob = s.odBlob := rfl
@[simp] theorem State.modSp_hub (s : State) (t : TileId) (f : Spad → Spad) : (s.modSp t f).hub = s.hub := rfl
@[simp] theorem State.modSp_mesh (s : State) (t : TileId) (f : Spad → Spad) : (s.modSp t f).mesh = s.mesh := rfl
@[simp] theorem State.modSp_stk (s : State) (t : TileId) (f : Spad → Spad) : (s.modSp t f).stk = s.stk := rfl
@[simp] theorem State.modSp_power (s : State) (t : TileId) (f : Spad → Spad) : (s.modSp t f).power = s.power := rfl
@[simp] theorem State.modSp_fields (s : State) (t : TileId) (f : Spad → Spad) : (s.modSp t f).fields = s.fields := rfl
@[simp] theorem State.modSp_routers (s : State) (t : TileId) (f : Spad → Spad) : (s.modSp t f).routers = s.routers := rfl
@[simp] theorem State.modSp_parts (s : State) (t : TileId) (f : Spad → Spad) : (s.modSp t f).parts = s.parts := rfl
@[simp] theorem State.modSp_fns (s : State) (t : TileId) (f : Spad → Spad) : (s.modSp t f).fns = s.fns := rfl
@[simp] theorem State.modSp_fabric (s : State) (t : TileId) (f : Spad → Spad) : (s.modSp t f).fabric = s.fabric := rfl

@[simp] theorem State.modCc_pending (s : State) (t : TileId) (f : Core → Core) : (s.modCc t f).pending = s.pending := rfl
@[simp] theorem State.modCc_out (s : State) (t : TileId) (f : Core → Core) : (s.modCc t f).out = s.out := rfl
@[simp] theorem State.modCc_free (s : State) (t : TileId) (f : Core → Core) : (s.modCc t f).free = s.free := rfl
@[simp] theorem State.modCc_clkTime (s : State) (t : TileId) (f : Core → Core) : (s.modCc t f).clkTime = s.clkTime := rfl
@[simp] theorem State.modCc_od (s : State) (t : TileId) (f : Core → Core) : (s.modCc t f).od = s.od := rfl
@[simp] theorem State.modCc_odBlob (s : State) (t : TileId) (f : Core → Core) : (s.modCc t f).odBlob = s.odBlob := rfl
@[simp] theorem State.modCc_hub (s : State) (t : TileId) (f : Core → Core) : (s.modCc t f).hub = s.hub := rfl
@[simp] theorem State.modCc_mesh (s : State) (t : TileId) (f : Core → Core) : (s.modCc t f).mesh = s.mesh := rfl
@[simp] theorem State.modCc_stk (s : State) (t : TileId) (f : Core → Core) : (s.modCc t f).stk = s.stk := rfl
@[simp] theorem State.modCc_power (s : State) (t : TileId) (f : Core → Core) : (s.modCc t f).power = s.power := rfl
@[simp] theorem State.modCc_fields (s : State) (t : TileId) (f : Core → Core) : (s.modCc t f).fields = s.fields := rfl
@[simp] theorem State.modCc_routers (s : State) (t : TileId) (f : Core → Core) : (s.modCc t f).routers = s.routers := rfl
@[simp] theorem State.modCc_parts (s : State) (t : TileId) (f : Core → Core) : (s.modCc t f).parts = s.parts := rfl
@[simp] theorem State.modCc_fns (s : State) (t : TileId) (f : Core → Core) : (s.modCc t f).fns = s.fns := rfl
@[simp] theorem State.modCc_fabric (s : State) (t : TileId) (f : Core → Core) : (s.modCc t f).fabric = s.fabric := rfl

@[simp] theorem State.modMv_pending (s : State) (t : TileId) (n : Nat) (f : Mover → Mover) : (s.modMv t n f).pending = s.pending := rfl
@[simp] theorem State.modMv_out (s : State) (t : TileId) (n : Nat) (f : Mover → Mover) : (s.modMv t n f).out = s.out := rfl
@[simp] theorem State.modMv_free (s : State) (t : TileId) (n : Nat) (f : Mover → Mover) : (s.modMv t n f).free = s.free := rfl
@[simp] theorem State.modMv_clkTime (s : State) (t : TileId) (n : Nat) (f : Mover → Mover) : (s.modMv t n f).clkTime = s.clkTime := rfl
@[simp] theorem State.modMv_od (s : State) (t : TileId) (n : Nat) (f : Mover → Mover) : (s.modMv t n f).od = s.od := rfl
@[simp] theorem State.modMv_odBlob (s : State) (t : TileId) (n : Nat) (f : Mover → Mover) : (s.modMv t n f).odBlob = s.odBlob := rfl
@[simp] theorem State.modMv_hub (s : State) (t : TileId) (n : Nat) (f : Mover → Mover) : (s.modMv t n f).hub = s.hub := rfl
@[simp] theorem State.modMv_mesh (s : State) (t : TileId) (n : Nat) (f : Mover → Mover) : (s.modMv t n f).mesh = s.mesh := rfl
@[simp] theorem State.modMv_stk (s : State) (t : TileId) (n : Nat) (f : Mover → Mover) : (s.modMv t n f).stk = s.stk := rfl
@[simp] theorem State.modMv_power (s : State) (t : TileId) (n : Nat) (f : Mover → Mover) : (s.modMv t n f).power = s.power := rfl
@[simp] theorem State.modMv_fields (s : State) (t : TileId) (n : Nat) (f : Mover → Mover) : (s.modMv t n f).fields = s.fields := rfl
@[simp] theorem State.modMv_routers (s : State) (t : TileId) (n : Nat) (f : Mover → Mover) : (s.modMv t n f).routers = s.routers := rfl
@[simp] theorem State.modMv_parts (s : State) (t : TileId) (n : Nat) (f : Mover → Mover) : (s.modMv t n f).parts = s.parts := rfl
@[simp] theorem State.modMv_fns (s : State) (t : TileId) (n : Nat) (f : Mover → Mover) : (s.modMv t n f).fns = s.fns := rfl
@[simp] theorem State.modMv_fabric (s : State) (t : TileId) (n : Nat) (f : Mover → Mover) : (s.modMv t n f).fabric = s.fabric := rfl

@[simp] theorem State.modRouter_pending (s : State) (t : TileId) (f : Router → Router) : (s.modRouter t f).pending = s.pending := rfl
@[simp] theorem State.modRouter_out (s : State) (t : TileId) (f : Router → Router) : (s.modRouter t f).out = s.out := rfl
@[simp] theorem State.modRouter_free (s : State) (t : TileId) (f : Router → Router) : (s.modRouter t f).free = s.free := rfl
@[simp] theorem State.modRouter_clkTime (s : State) (t : TileId) (f : Router → Router) : (s.modRouter t f).clkTime = s.clkTime := rfl
@[simp] theorem State.modRouter_od (s : State) (t : TileId) (f : Router → Router) : (s.modRouter t f).od = s.od := rfl
@[simp] theorem State.modRouter_odBlob (s : State) (t : TileId) (f : Router → Router) : (s.modRouter t f).odBlob = s.odBlob := rfl
@[simp] theorem State.modRouter_hub (s : State) (t : TileId) (f : Router → Router) : (s.modRouter t f).hub = s.hub := rfl
@[simp] theorem State.modRouter_mesh (s : State) (t : TileId) (f : Router → Router) : (s.modRouter t f).mesh = s.mesh := rfl
@[simp] theorem State.modRouter_stk (s : State) (t : TileId) (f : Router → Router) : (s.modRouter t f).stk = s.stk := rfl
@[simp] theorem State.modRouter_power (s : State) (t : TileId) (f : Router → Router) : (s.modRouter t f).power = s.power := rfl
@[simp] theorem State.modRouter_fields (s : State) (t : TileId) (f : Router → Router) : (s.modRouter t f).fields = s.fields := rfl
@[simp] theorem State.modRouter_tiles (s : State) (t : TileId) (f : Router → Router) : (s.modRouter t f).tiles = s.tiles := rfl
@[simp] theorem State.modRouter_parts (s : State) (t : TileId) (f : Router → Router) : (s.modRouter t f).parts = s.parts := rfl
@[simp] theorem State.modRouter_fns (s : State) (t : TileId) (f : Router → Router) : (s.modRouter t f).fns = s.fns := rfl
@[simp] theorem State.modRouter_fabric (s : State) (t : TileId) (f : Router → Router) : (s.modRouter t f).fabric = s.fabric := rfl

@[simp] theorem State.modField_pending (s : State) (n : Nat) (f : Field → Field) : (s.modField n f).pending = s.pending := rfl
@[simp] theorem State.modField_out (s : State) (n : Nat) (f : Field → Field) : (s.modField n f).out = s.out := rfl
@[simp] theorem State.modField_free (s : State) (n : Nat) (f : Field → Field) : (s.modField n f).free = s.free := rfl
@[simp] theorem State.modField_clkTime (s : State) (n : Nat) (f : Field → Field) : (s.modField n f).clkTime = s.clkTime := rfl
@[simp] theorem State.modField_od (s : State) (n : Nat) (f : Field → Field) : (s.modField n f).od = s.od := rfl
@[simp] theorem State.modField_odBlob (s : State) (n : Nat) (f : Field → Field) : (s.modField n f).odBlob = s.odBlob := rfl
@[simp] theorem State.modField_hub (s : State) (n : Nat) (f : Field → Field) : (s.modField n f).hub = s.hub := rfl
@[simp] theorem State.modField_mesh (s : State) (n : Nat) (f : Field → Field) : (s.modField n f).mesh = s.mesh := rfl
@[simp] theorem State.modField_stk (s : State) (n : Nat) (f : Field → Field) : (s.modField n f).stk = s.stk := rfl
@[simp] theorem State.modField_power (s : State) (n : Nat) (f : Field → Field) : (s.modField n f).power = s.power := rfl
@[simp] theorem State.modField_tiles (s : State) (n : Nat) (f : Field → Field) : (s.modField n f).tiles = s.tiles := rfl
@[simp] theorem State.modField_routers (s : State) (n : Nat) (f : Field → Field) : (s.modField n f).routers = s.routers := rfl
@[simp] theorem State.modField_parts (s : State) (n : Nat) (f : Field → Field) : (s.modField n f).parts = s.parts := rfl
@[simp] theorem State.modField_fns (s : State) (n : Nat) (f : Field → Field) : (s.modField n f).fns = s.fns := rfl
@[simp] theorem State.modField_fabric (s : State) (n : Nat) (f : Field → Field) : (s.modField n f).fabric = s.fabric := rfl

@[simp] theorem State.modPart_pending (s : State) (n : Nat) (f : Partition → Partition) : (s.modPart n f).pending = s.pending := rfl
@[simp] theorem State.modPart_out (s : State) (n : Nat) (f : Partition → Partition) : (s.modPart n f).out = s.out := rfl
@[simp] theorem State.modPart_free (s : State) (n : Nat) (f : Partition → Partition) : (s.modPart n f).free = s.free := rfl
@[simp] theorem State.modPart_clkTime (s : State) (n : Nat) (f : Partition → Partition) : (s.modPart n f).clkTime = s.clkTime := rfl
@[simp] theorem State.modPart_od (s : State) (n : Nat) (f : Partition → Partition) : (s.modPart n f).od = s.od := rfl
@[simp] theorem State.modPart_odBlob (s : State) (n : Nat) (f : Partition → Partition) : (s.modPart n f).odBlob = s.odBlob := rfl
@[simp] theorem State.modPart_hub (s : State) (n : Nat) (f : Partition → Partition) : (s.modPart n f).hub = s.hub := rfl
@[simp] theorem State.modPart_mesh (s : State) (n : Nat) (f : Partition → Partition) : (s.modPart n f).mesh = s.mesh := rfl
@[simp] theorem State.modPart_stk (s : State) (n : Nat) (f : Partition → Partition) : (s.modPart n f).stk = s.stk := rfl
@[simp] theorem State.modPart_power (s : State) (n : Nat) (f : Partition → Partition) : (s.modPart n f).power = s.power := rfl
@[simp] theorem State.modPart_fields (s : State) (n : Nat) (f : Partition → Partition) : (s.modPart n f).fields = s.fields := rfl
@[simp] theorem State.modPart_tiles (s : State) (n : Nat) (f : Partition → Partition) : (s.modPart n f).tiles = s.tiles := rfl
@[simp] theorem State.modPart_routers (s : State) (n : Nat) (f : Partition → Partition) : (s.modPart n f).routers = s.routers := rfl
@[simp] theorem State.modPart_fns (s : State) (n : Nat) (f : Partition → Partition) : (s.modPart n f).fns = s.fns := rfl
@[simp] theorem State.modPart_fabric (s : State) (n : Nat) (f : Partition → Partition) : (s.modPart n f).fabric = s.fabric := rfl

@[simp] theorem State.modFn_pending (s : State) (p : Port) (n : Nat) (f : Function → Function) : (s.modFn p n f).pending = s.pending := rfl
@[simp] theorem State.modFn_out (s : State) (p : Port) (n : Nat) (f : Function → Function) : (s.modFn p n f).out = s.out := rfl
@[simp] theorem State.modFn_free (s : State) (p : Port) (n : Nat) (f : Function → Function) : (s.modFn p n f).free = s.free := rfl
@[simp] theorem State.modFn_clkTime (s : State) (p : Port) (n : Nat) (f : Function → Function) : (s.modFn p n f).clkTime = s.clkTime := rfl
@[simp] theorem State.modFn_od (s : State) (p : Port) (n : Nat) (f : Function → Function) : (s.modFn p n f).od = s.od := rfl
@[simp] theorem State.modFn_odBlob (s : State) (p : Port) (n : Nat) (f : Function → Function) : (s.modFn p n f).odBlob = s.odBlob := rfl
@[simp] theorem State.modFn_hub (s : State) (p : Port) (n : Nat) (f : Function → Function) : (s.modFn p n f).hub = s.hub := rfl
@[simp] theorem State.modFn_mesh (s : State) (p : Port) (n : Nat) (f : Function → Function) : (s.modFn p n f).mesh = s.mesh := rfl
@[simp] theorem State.modFn_stk (s : State) (p : Port) (n : Nat) (f : Function → Function) : (s.modFn p n f).stk = s.stk := rfl
@[simp] theorem State.modFn_power (s : State) (p : Port) (n : Nat) (f : Function → Function) : (s.modFn p n f).power = s.power := rfl
@[simp] theorem State.modFn_fields (s : State) (p : Port) (n : Nat) (f : Function → Function) : (s.modFn p n f).fields = s.fields := rfl
@[simp] theorem State.modFn_tiles (s : State) (p : Port) (n : Nat) (f : Function → Function) : (s.modFn p n f).tiles = s.tiles := rfl
@[simp] theorem State.modFn_routers (s : State) (p : Port) (n : Nat) (f : Function → Function) : (s.modFn p n f).routers = s.routers := rfl
@[simp] theorem State.modFn_parts (s : State) (p : Port) (n : Nat) (f : Function → Function) : (s.modFn p n f).parts = s.parts := rfl
@[simp] theorem State.modFn_fabric (s : State) (p : Port) (n : Nat) (f : Function → Function) : (s.modFn p n f).fabric = s.fabric := rfl

@[simp] theorem State.odSetP_pending (s : State) (i b p v : Nat) : (s.odSetP i b p v).pending = s.pending := rfl
@[simp] theorem State.odSetP_out (s : State) (i b p v : Nat) : (s.odSetP i b p v).out = s.out := rfl
@[simp] theorem State.odSetP_free (s : State) (i b p v : Nat) : (s.odSetP i b p v).free = s.free := rfl
@[simp] theorem State.odSetP_clkTime (s : State) (i b p v : Nat) : (s.odSetP i b p v).clkTime = s.clkTime := rfl
@[simp] theorem State.odSetP_odBlob (s : State) (i b p v : Nat) : (s.odSetP i b p v).odBlob = s.odBlob := rfl
@[simp] theorem State.odSetP_hub (s : State) (i b p v : Nat) : (s.odSetP i b p v).hub = s.hub := rfl
@[simp] theorem State.odSetP_mesh (s : State) (i b p v : Nat) : (s.odSetP i b p v).mesh = s.mesh := rfl
@[simp] theorem State.odSetP_stk (s : State) (i b p v : Nat) : (s.odSetP i b p v).stk = s.stk := rfl
@[simp] theorem State.odSetP_power (s : State) (i b p v : Nat) : (s.odSetP i b p v).power = s.power := rfl
@[simp] theorem State.odSetP_fields (s : State) (i b p v : Nat) : (s.odSetP i b p v).fields = s.fields := rfl
@[simp] theorem State.odSetP_tiles (s : State) (i b p v : Nat) : (s.odSetP i b p v).tiles = s.tiles := rfl
@[simp] theorem State.odSetP_routers (s : State) (i b p v : Nat) : (s.odSetP i b p v).routers = s.routers := rfl
@[simp] theorem State.odSetP_parts (s : State) (i b p v : Nat) : (s.odSetP i b p v).parts = s.parts := rfl
@[simp] theorem State.odSetP_fns (s : State) (i b p v : Nat) : (s.odSetP i b p v).fns = s.fns := rfl
@[simp] theorem State.odSetP_fabric (s : State) (i b p v : Nat) : (s.odSetP i b p v).fabric = s.fabric := rfl

@[simp] theorem State.odSet_pending (s : State) (i b v : Nat) : (s.odSet i b v).pending = s.pending := rfl
@[simp] theorem State.odSet_out (s : State) (i b v : Nat) : (s.odSet i b v).out = s.out := rfl
@[simp] theorem State.odSet_free (s : State) (i b v : Nat) : (s.odSet i b v).free = s.free := rfl
@[simp] theorem State.odSet_clkTime (s : State) (i b v : Nat) : (s.odSet i b v).clkTime = s.clkTime := rfl
@[simp] theorem State.odSet_odBlob (s : State) (i b v : Nat) : (s.odSet i b v).odBlob = s.odBlob := rfl
@[simp] theorem State.odSet_hub (s : State) (i b v : Nat) : (s.odSet i b v).hub = s.hub := rfl
@[simp] theorem State.odSet_mesh (s : State) (i b v : Nat) : (s.odSet i b v).mesh = s.mesh := rfl
@[simp] theorem State.odSet_stk (s : State) (i b v : Nat) : (s.odSet i b v).stk = s.stk := rfl
@[simp] theorem State.odSet_power (s : State) (i b v : Nat) : (s.odSet i b v).power = s.power := rfl
@[simp] theorem State.odSet_fields (s : State) (i b v : Nat) : (s.odSet i b v).fields = s.fields := rfl
@[simp] theorem State.odSet_tiles (s : State) (i b v : Nat) : (s.odSet i b v).tiles = s.tiles := rfl
@[simp] theorem State.odSet_routers (s : State) (i b v : Nat) : (s.odSet i b v).routers = s.routers := rfl
@[simp] theorem State.odSet_parts (s : State) (i b v : Nat) : (s.odSet i b v).parts = s.parts := rfl
@[simp] theorem State.odSet_fns (s : State) (i b v : Nat) : (s.odSet i b v).fns = s.fns := rfl
@[simp] theorem State.odSet_fabric (s : State) (i b v : Nat) : (s.odSet i b v).fabric = s.fabric := rfl

@[simp] theorem State.odAdd_pending (s : State) (i b v : Nat) : (s.odAdd i b v).pending = s.pending := rfl
@[simp] theorem State.odAdd_out (s : State) (i b v : Nat) : (s.odAdd i b v).out = s.out := rfl
@[simp] theorem State.odAdd_free (s : State) (i b v : Nat) : (s.odAdd i b v).free = s.free := rfl
@[simp] theorem State.odAdd_clkTime (s : State) (i b v : Nat) : (s.odAdd i b v).clkTime = s.clkTime := rfl
@[simp] theorem State.odAdd_odBlob (s : State) (i b v : Nat) : (s.odAdd i b v).odBlob = s.odBlob := rfl
@[simp] theorem State.odAdd_hub (s : State) (i b v : Nat) : (s.odAdd i b v).hub = s.hub := rfl
@[simp] theorem State.odAdd_mesh (s : State) (i b v : Nat) : (s.odAdd i b v).mesh = s.mesh := rfl
@[simp] theorem State.odAdd_stk (s : State) (i b v : Nat) : (s.odAdd i b v).stk = s.stk := rfl
@[simp] theorem State.odAdd_power (s : State) (i b v : Nat) : (s.odAdd i b v).power = s.power := rfl
@[simp] theorem State.odAdd_fields (s : State) (i b v : Nat) : (s.odAdd i b v).fields = s.fields := rfl
@[simp] theorem State.odAdd_tiles (s : State) (i b v : Nat) : (s.odAdd i b v).tiles = s.tiles := rfl
@[simp] theorem State.odAdd_routers (s : State) (i b v : Nat) : (s.odAdd i b v).routers = s.routers := rfl
@[simp] theorem State.odAdd_parts (s : State) (i b v : Nat) : (s.odAdd i b v).parts = s.parts := rfl
@[simp] theorem State.odAdd_fns (s : State) (i b v : Nat) : (s.odAdd i b v).fns = s.fns := rfl
@[simp] theorem State.odAdd_fabric (s : State) (i b v : Nat) : (s.odAdd i b v).fabric = s.fabric := rfl

@[simp] theorem State.odAddP_pending (s : State) (i b p v : Nat) : (s.odAddP i b p v).pending = s.pending := rfl
@[simp] theorem State.odAddP_out (s : State) (i b p v : Nat) : (s.odAddP i b p v).out = s.out := rfl
@[simp] theorem State.odAddP_free (s : State) (i b p v : Nat) : (s.odAddP i b p v).free = s.free := rfl
@[simp] theorem State.odAddP_clkTime (s : State) (i b p v : Nat) : (s.odAddP i b p v).clkTime = s.clkTime := rfl
@[simp] theorem State.odAddP_odBlob (s : State) (i b p v : Nat) : (s.odAddP i b p v).odBlob = s.odBlob := rfl
@[simp] theorem State.odAddP_hub (s : State) (i b p v : Nat) : (s.odAddP i b p v).hub = s.hub := rfl
@[simp] theorem State.odAddP_mesh (s : State) (i b p v : Nat) : (s.odAddP i b p v).mesh = s.mesh := rfl
@[simp] theorem State.odAddP_stk (s : State) (i b p v : Nat) : (s.odAddP i b p v).stk = s.stk := rfl
@[simp] theorem State.odAddP_power (s : State) (i b p v : Nat) : (s.odAddP i b p v).power = s.power := rfl
@[simp] theorem State.odAddP_fields (s : State) (i b p v : Nat) : (s.odAddP i b p v).fields = s.fields := rfl
@[simp] theorem State.odAddP_tiles (s : State) (i b p v : Nat) : (s.odAddP i b p v).tiles = s.tiles := rfl
@[simp] theorem State.odAddP_routers (s : State) (i b p v : Nat) : (s.odAddP i b p v).routers = s.routers := rfl
@[simp] theorem State.odAddP_parts (s : State) (i b p v : Nat) : (s.odAddP i b p v).parts = s.parts := rfl
@[simp] theorem State.odAddP_fns (s : State) (i b p v : Nat) : (s.odAddP i b p v).fns = s.fns := rfl
@[simp] theorem State.odAddP_fabric (s : State) (i b p v : Nat) : (s.odAddP i b p v).fabric = s.fabric := rfl

@[simp] theorem State.setBlobP_pending (s : State) (i b p : Nat) (v : List Byte) : (s.setBlobP i b p v).pending = s.pending := rfl
@[simp] theorem State.setBlobP_out (s : State) (i b p : Nat) (v : List Byte) : (s.setBlobP i b p v).out = s.out := rfl
@[simp] theorem State.setBlobP_free (s : State) (i b p : Nat) (v : List Byte) : (s.setBlobP i b p v).free = s.free := rfl
@[simp] theorem State.setBlobP_clkTime (s : State) (i b p : Nat) (v : List Byte) : (s.setBlobP i b p v).clkTime = s.clkTime := rfl
@[simp] theorem State.setBlobP_od (s : State) (i b p : Nat) (v : List Byte) : (s.setBlobP i b p v).od = s.od := rfl
@[simp] theorem State.setBlobP_hub (s : State) (i b p : Nat) (v : List Byte) : (s.setBlobP i b p v).hub = s.hub := rfl
@[simp] theorem State.setBlobP_mesh (s : State) (i b p : Nat) (v : List Byte) : (s.setBlobP i b p v).mesh = s.mesh := rfl
@[simp] theorem State.setBlobP_stk (s : State) (i b p : Nat) (v : List Byte) : (s.setBlobP i b p v).stk = s.stk := rfl
@[simp] theorem State.setBlobP_power (s : State) (i b p : Nat) (v : List Byte) : (s.setBlobP i b p v).power = s.power := rfl
@[simp] theorem State.setBlobP_fields (s : State) (i b p : Nat) (v : List Byte) : (s.setBlobP i b p v).fields = s.fields := rfl
@[simp] theorem State.setBlobP_tiles (s : State) (i b p : Nat) (v : List Byte) : (s.setBlobP i b p v).tiles = s.tiles := rfl
@[simp] theorem State.setBlobP_routers (s : State) (i b p : Nat) (v : List Byte) : (s.setBlobP i b p v).routers = s.routers := rfl
@[simp] theorem State.setBlobP_parts (s : State) (i b p : Nat) (v : List Byte) : (s.setBlobP i b p v).parts = s.parts := rfl
@[simp] theorem State.setBlobP_fns (s : State) (i b p : Nat) (v : List Byte) : (s.setBlobP i b p v).fns = s.fns := rfl
@[simp] theorem State.setBlobP_fabric (s : State) (i b p : Nat) (v : List Byte) : (s.setBlobP i b p v).fabric = s.fabric := rfl

@[simp] theorem State.emit_pending (s : State) (e : Emission) : (s.emit e).pending = s.pending := rfl
@[simp] theorem State.emit_free (s : State) (e : Emission) : (s.emit e).free = s.free := rfl
@[simp] theorem State.emit_clkTime (s : State) (e : Emission) : (s.emit e).clkTime = s.clkTime := rfl
@[simp] theorem State.emit_od (s : State) (e : Emission) : (s.emit e).od = s.od := rfl
@[simp] theorem State.emit_odBlob (s : State) (e : Emission) : (s.emit e).odBlob = s.odBlob := rfl
@[simp] theorem State.emit_hub (s : State) (e : Emission) : (s.emit e).hub = s.hub := rfl
@[simp] theorem State.emit_mesh (s : State) (e : Emission) : (s.emit e).mesh = s.mesh := rfl
@[simp] theorem State.emit_stk (s : State) (e : Emission) : (s.emit e).stk = s.stk := rfl
@[simp] theorem State.emit_power (s : State) (e : Emission) : (s.emit e).power = s.power := rfl
@[simp] theorem State.emit_fields (s : State) (e : Emission) : (s.emit e).fields = s.fields := rfl
@[simp] theorem State.emit_tiles (s : State) (e : Emission) : (s.emit e).tiles = s.tiles := rfl
@[simp] theorem State.emit_routers (s : State) (e : Emission) : (s.emit e).routers = s.routers := rfl
@[simp] theorem State.emit_parts (s : State) (e : Emission) : (s.emit e).parts = s.parts := rfl
@[simp] theorem State.emit_fns (s : State) (e : Emission) : (s.emit e).fns = s.fns := rfl
@[simp] theorem State.emit_fabric (s : State) (e : Emission) : (s.emit e).fabric = s.fabric := rfl

@[simp] theorem State.reply_pending (s : State) (c : Caller) (n : Nat) : (s.reply c n).pending = s.pending := rfl
@[simp] theorem State.reply_free (s : State) (c : Caller) (n : Nat) : (s.reply c n).free = s.free := rfl
@[simp] theorem State.reply_clkTime (s : State) (c : Caller) (n : Nat) : (s.reply c n).clkTime = s.clkTime := rfl
@[simp] theorem State.reply_od (s : State) (c : Caller) (n : Nat) : (s.reply c n).od = s.od := rfl
@[simp] theorem State.reply_odBlob (s : State) (c : Caller) (n : Nat) : (s.reply c n).odBlob = s.odBlob := rfl
@[simp] theorem State.reply_hub (s : State) (c : Caller) (n : Nat) : (s.reply c n).hub = s.hub := rfl
@[simp] theorem State.reply_mesh (s : State) (c : Caller) (n : Nat) : (s.reply c n).mesh = s.mesh := rfl
@[simp] theorem State.reply_stk (s : State) (c : Caller) (n : Nat) : (s.reply c n).stk = s.stk := rfl
@[simp] theorem State.reply_power (s : State) (c : Caller) (n : Nat) : (s.reply c n).power = s.power := rfl
@[simp] theorem State.reply_fields (s : State) (c : Caller) (n : Nat) : (s.reply c n).fields = s.fields := rfl
@[simp] theorem State.reply_tiles (s : State) (c : Caller) (n : Nat) : (s.reply c n).tiles = s.tiles := rfl
@[simp] theorem State.reply_routers (s : State) (c : Caller) (n : Nat) : (s.reply c n).routers = s.routers := rfl
@[simp] theorem State.reply_parts (s : State) (c : Caller) (n : Nat) : (s.reply c n).parts = s.parts := rfl
@[simp] theorem State.reply_fns (s : State) (c : Caller) (n : Nat) : (s.reply c n).fns = s.fns := rfl
@[simp] theorem State.reply_fabric (s : State) (c : Caller) (n : Nat) : (s.reply c n).fabric = s.fabric := rfl

@[simp] theorem State.useFree_pending (s : State) (n : Nat) : (s.useFree n).pending = s.pending := rfl
@[simp] theorem State.useFree_out (s : State) (n : Nat) : (s.useFree n).out = s.out := rfl
@[simp] theorem State.useFree_clkTime (s : State) (n : Nat) : (s.useFree n).clkTime = s.clkTime := rfl
@[simp] theorem State.useFree_od (s : State) (n : Nat) : (s.useFree n).od = s.od := rfl
@[simp] theorem State.useFree_odBlob (s : State) (n : Nat) : (s.useFree n).odBlob = s.odBlob := rfl
@[simp] theorem State.useFree_hub (s : State) (n : Nat) : (s.useFree n).hub = s.hub := rfl
@[simp] theorem State.useFree_mesh (s : State) (n : Nat) : (s.useFree n).mesh = s.mesh := rfl
@[simp] theorem State.useFree_stk (s : State) (n : Nat) : (s.useFree n).stk = s.stk := rfl
@[simp] theorem State.useFree_power (s : State) (n : Nat) : (s.useFree n).power = s.power := rfl
@[simp] theorem State.useFree_fields (s : State) (n : Nat) : (s.useFree n).fields = s.fields := rfl
@[simp] theorem State.useFree_tiles (s : State) (n : Nat) : (s.useFree n).tiles = s.tiles := rfl
@[simp] theorem State.useFree_routers (s : State) (n : Nat) : (s.useFree n).routers = s.routers := rfl
@[simp] theorem State.useFree_parts (s : State) (n : Nat) : (s.useFree n).parts = s.parts := rfl
@[simp] theorem State.useFree_fns (s : State) (n : Nat) : (s.useFree n).fns = s.fns := rfl
@[simp] theorem State.useFree_fabric (s : State) (n : Nat) : (s.useFree n).fabric = s.fabric := rfl

@[simp] theorem State.emit_out (s : State) (e : Emission) : (s.emit e).out = s.out ++ [e] := rfl

@[simp] theorem State.reply_out (s : State) (c : Caller) (n : Nat) : (s.reply c n).out = s.out ++ [.status c n] := rfl

@[simp] theorem State.useFree_free (s : State) (n : Nat) : (s.useFree n).free = s.free + n := rfl

/-- Tiles within the module have keys of their own. -/
theorem tkey_inj {a b : TileId} (ha : a.u < 168) (hb : b.u < 168) (h : tkey a = tkey b) : a = b := by
  cases a; cases b; simp only [tkey, TileId.mk.injEq] at *; omega

theorem State.tile_setTile (s : State) (t u : TileId) (x : Tile) :
    (s.setTile t x).tile u = if tkey u = tkey t then x else s.tile u := mget_mset _ _ _ _ _

@[simp] theorem State.tile_setTile_same (s : State) (t : TileId) (x : Tile) : (s.setTile t x).tile t = x :=
  mget_mset_same _ _ _ _

@[simp] theorem State.tile_modTile_same (s : State) (t : TileId) (f : Tile → Tile) : (s.modTile t f).tile t = f (s.tile t) :=
  mget_mset_same _ _ _ _

theorem State.tile_modTile (s : State) (t u : TileId) (f : Tile → Tile) :
    (s.modTile t f).tile u = if tkey u = tkey t then f (s.tile t) else s.tile u := mget_mset _ _ _ _ _

theorem State.router_modRouter (s : State) (t u : TileId) (f : Router → Router) :
    (s.modRouter t f).router u = if tkey u = tkey t then f (s.router t) else s.router u := mget_mset _ _ _ _ _

theorem State.field_modField (s : State) (a b : Nat) (f : Field → Field) :
    (s.modField a f).field b = if b = a then f (s.field a) else s.field b := mget_mset _ _ _ _ _

theorem State.part_modPart (s : State) (a b : Nat) (f : Partition → Partition) :
    (s.modPart a f).part b = if b = a then f (s.part a) else s.part b := mget_mset _ _ _ _ _

@[simp] theorem State.part_modPart_same (s : State) (a : Nat) (f : Partition → Partition) :
    (s.modPart a f).part a = f (s.part a) := mget_mset_same _ _ _ _

theorem State.fn_modFn (s : State) (p q : Port) (n m : Nat) (f : Function → Function) :
    (s.modFn p n f).fn q m = if fkey q m = fkey p n then f (s.fn p n) else s.fn q m := mget_mset _ _ _ _ _

@[simp] theorem State.fn_modFn_same (s : State) (p : Port) (n : Nat) (f : Function → Function) :
    (s.modFn p n f).fn p n = f (s.fn p n) := mget_mset_same _ _ _ _

/-- Functions of the device have keys of their own. -/
theorem fkey_inj {p q : Port} {n m : Nat} (hn : n < 64) (hm : m < 64) (h : fkey p n = fkey q m) : p = q ∧ n = m := by
  cases p <;> cases q <;> simp [fkey, portNum] at h ⊢ <;> omega

/-- Entries with subindices and partitions of one byte have keys of their own. -/
theorem odKey_inj {i b p i' b' p' : Nat} (hb : b < 256) (hp : p < 256) (hb' : b' < 256) (hp' : p' < 256)
    (h : odKey i b p = odKey i' b' p') : i = i' ∧ b = b' ∧ p = p' := by
  unfold odKey at h; omega

theorem State.odP_odSetP (s : State) (i b p v i' b' p' : Nat) (hd : odKey i' b' p' = odKey i b p → odDefault i' b' = odDefault i b) :
    (s.odSetP i b p v).odP i' b' p' = if odKey i' b' p' = odKey i b p then v else s.odP i' b' p' := by
  unfold State.odSetP State.odP
  simp only
  split
  · rename_i hv
    rw [mfind_mdel]
    split
    · rename_i hk; rw [hd hk, hv]; rfl
    · rfl
  · rw [mfind_mput]
    split <;> rfl

@[simp] theorem State.odP_odSetP_same (s : State) (i b p v : Nat) : (s.odSetP i b p v).odP i b p = v := by
  rw [State.odP_odSetP _ _ _ _ _ _ _ _ (fun _ => rfl), if_pos rfl]

@[simp] theorem State.odG_odSet_same (s : State) (i b v : Nat) : (s.odSet i b v).odG i b = v := State.odP_odSetP_same _ _ _ _ _

/-- Another entry, or another partition's value, reads as before. -/
theorem State.odP_odSetP_other (s : State) (i b p v i' b' p' : Nat) (h : odKey i' b' p' ≠ odKey i b p) :
    (s.odSetP i b p v).odP i' b' p' = s.odP i' b' p' := by
  rw [State.odP_odSetP _ _ _ _ _ _ _ _ (fun e => absurd e h), if_neg h]

end Sys2Proof.Machine
end

