-- ==== Sys2Proof/Tests/Slice0.lean ====
section
/-!
SUPPORT. Tests of the model: an ill-formed term that each check of WellFormed refuses, worked examples of the spec, and
for every statement with hypotheses a state and operands that meet them (witness_<statement>).
-/

namespace Sys2Proof.Tests
open Sys2Proof.Machine
set_option Elab.async false

/-! ### States -/

/-- The tile in the south-west corner, of field 0. -/
def t0 : TileId := ⟨0, 0⟩

/-- A module that has started: every rail and clock there, the dictionary served, the lock held by the PF of Port A. -/
def up : State :=
  ({ State.reset with hub := { State.reset.hub with vstby := true, powered := true, refclk := true, served := true,
                                                    netOn := true, lockHolder := 1 } } : State)
    |>.odSet 0x7102 1 1 |>.odSet 0x2200 1 1 |>.odSet 0x2200 2 1

/-- Partition 0 formed of field 0, which is on. -/
def formed : State := up |>.odSet 0x4003 1 1 |>.odSet 0x4002 1 1 |>.odSet 0x2101 1 0

/-- The PF of Port A. -/
def pf : Caller := .pf .a

/-- A core that runs a loaded program, with registers. -/
def core (regs : SMap Word) : Core := { state := .running, loaded := true, regs := regs }

/-- The first tile with a core that runs. -/
def runs (regs : SMap Word) : State := formed.setTile t0 { cc := core regs }

/-- The first tile with a changed part. -/
def tiled (f : Tile → Tile) : State := formed.modTile t0 f

/-- Partition 0 changed. -/
def parted (f : Partition → Partition) : State := formed.modPart 0 f

/-- VF 1 of Port A changed. -/
def vfd (f : Function → Function) : State := formed.modFn .a 1 f

/-- A flit of partition 0 to an offset of a window of the first tile. -/
def flit (kind window offset : Nat) (payload : List Byte) : Flit :=
  { be := BitVec.allOnes 32, way := 0, id := 1, srcY := 0, srcX := 0, kind := kind, part := 0, phase1 := false,
    incomplete := false, last := true, vn := 0,
    dest := { rop := 0, route := 0, tileY := 0, tileX := 0, window := window, offset := offset }, payload := payload }

/-- Bytes, then zeros up to a length. -/
def bytes (n : Nat) (l : List Byte) : List Byte := l ++ List.replicate (n - l.length) 0

/-- A dictionary message of the PF. -/
def msg (pver index sub type part : Nat) (value : List Byte) : DictMsg :=
  { pver := pver, resp := false, overlay := false, shadowed := false, reserved := 0, seq := 7, part := part, ovl := 0,
    index := index, sub := sub, type := type, len := value.length, status := 0, offset := 0, total := 0, value := value }

/-! ### Witnesses: steps and the control core -/

theorem witness_IdleStepCountsTime :
    up.pending = [] ∧ up.odG 0x2200 2 = 1 ∧ State.reset.pending = [] ∧ State.reset.odG 0x2200 2 ≠ 1 := by decide +kernel

theorem witness_IllFormedCommandsFault :
    (Instr.nop t0).wf = true ∧ (Instr.nop ⟨168, 0⟩).wf = false := by decide +kernel

theorem witness_issues : Issues (runs [(1, 5)]) t0 := by unfold Issues; decide +kernel

theorem witness_shift_kinds :
    (0 : BitVec 16).extractLsb' 5 2 = 0 ∧ (0x20 : BitVec 16).extractLsb' 5 2 = 1 ∧ (0x5F : BitVec 16).extractLsb' 5 2 = 2 ∧
      (0x60 : BitVec 16).extractLsb' 5 2 = 3 := by decide

theorem witness_LoadInstructions : Issues (runs [(1, 0x10000)]) t0 ∧
    ([0x10000, 0x17FFF, 0x10000000, 0x101FFFFF].all (fun x =>
      coreByte (runs []) t0 x == some 0 && (runs []).watchHit t0 x 1 false == none)) = true ∧
    ([0x17FFE, 0x101FFFFE].all (fun x => x % 2 == 0 && coreByte (runs []) t0 x == some 0 &&
      coreByte (runs []) t0 (x + 1) == some 0 && (runs []).watchHit t0 x 2 false == none)) = true ∧
    ([0x17FFC, 0x10000000].all (fun x => x % 4 == 0 && coreByte (runs []) t0 x == some 0 &&
      coreByte (runs []) t0 (x + 1) == some 0 && coreByte (runs []) t0 (x + 2) == some 0 &&
      coreByte (runs []) t0 (x + 3) == some 0 && (runs []).watchHit t0 x 4 false == none)) = true ∧
    0x10001 % 2 ≠ 0 ∧ 0x10002 % 4 ≠ 0 ∧ coreRegion 0x18000 4 = .none ∧ coreRegion 0xFFFF 1 = .none ∧
    coreRegion 0x20000000 1 = .none := by unfold Issues; decide +kernel

theorem witness_StoreInstructions : Issues (runs [(1, 0x10000)]) t0 ∧ Storable (runs []) t0 0x17FFC 4 ∧
    Storable (runs []) t0 0x101FFFFE 2 ∧ Storable (runs []) t0 0x10000000 1 ∧
    (runs []).watchHit t0 0x17FFC 4 true = none ∧ 0x17FFC % 4 = 0 ∧ 0x101FFFFE % 2 = 0 := by
  unfold Issues Storable; decide +kernel

theorem no_guard (ch : Nat) : guardedCount ((runs []).mover t0 ch) = 0 := by
  have h : ((runs []).tile t0).mv.isEmpty = true := by decide +kernel
  unfold State.mover; rw [List.isEmpty_iff.1 h]; show guardedCount {} = 0; decide +kernel

/-- A null word is no descriptor; a HELD_LOAD of 32 bytes is one. -/
theorem witness_EngineSubmissions :
    (runs [(1, 0x10000)]).engineRead t0 0x10000 32 = some (runs [(1, 0x10000)], List.replicate 32 0) ∧ tvCode (List.replicate 32 0) ≠ 0 ∧
    tvCode (bytes 32 [0x11, 0, 0, 0, 0, 0, 0, 0, 32]) = 0 ∧ ((runs []).tile t0).tv.queue.length < 4 ∧
    vecOffset 0x1FFF00 + 256 ≤ 0x200000 ∧ badIn ((runs []).tile t0).sp (vecOffset 0x1FFF00) 256 = [] ∧ 0x200000 < vecOffset 0x1FFF20 + 256 ∧ oddPair 4 = false ∧ oddPair 5 = true := by
  decide +kernel

theorem witness_MessageInstructions :
    Issues (runs [(1, 0x10000)]) t0 ∧ oddPair 2 = false ∧ (destOf 0).window ∈ [0, 3, 4, 5] ∧
    dsramAt 0x10000 32 = some 0 ∧ (freeId ((runs []).tile t0)).isSome = true ∧
    (freeId ((runs []).tile t0)).isSome = true ∧ (destOf (1 <<< 20)).window = 0 ∧
    ((runs []).tile t0).cc.msgq = [] ∧ Instr.wf (.messageReceipt t0 (List.replicate 32 0) 0 0) = true ∧
    rxTurn ((runs []).tile t0) (isMessage (List.replicate 32 0) 0 0) = true := by
  unfold Issues; decide +kernel
theorem witness_MessageInstructions_sent :
    let w := 0
    let m : Message := { kind := 0, vn := 0, id := 0, dest := destOf w, be := BitVec.allOnes 32,
                         flits := [mread 0 ((runs []).tile t0).cc.dsram 0 32] }
    ((runs [(1, 0x10000)]).sendOut t0 0 w m).2 = none := by decide +kernel

theorem witness_MessageInstructions_received :
    let s := tiled (fun T => { T with cc := { core [(1, 0x10000)] with msgq := [(3, 4, List.replicate 32 0)] } })
    Issues s t0 ∧ (s.tile t0).cc.msgq = (3, 4, List.replicate 32 0) :: [] ∧ 0x10000 % 32 = 0 := by
  unfold Issues; decide +kernel

theorem witness_MessageInstructions_full :
    let f := { flit 0 5 0 (List.replicate 32 0) with vn := 0 }
    let s := tiled (fun T => { T with rx := [f], cc := { core [] with msgq := List.replicate 16 (0, 0, []) } })
    (s.tile t0).rx.find? (fun f : Flit => f.dest.window == 5 && f.vn != 1) = some f ∧ 16 ≤ (s.tile t0).cc.msgq.length := by
  decide +kernel

/-- A core that waits for the response of a transaction it sent. -/
def waiting (w : CoreWait) (read : Bool) : State :=
  tiled (fun T => { T with cc := { core [] with wait := w }, tx := [{ id := 1, agent := .core, dest := 0, sentAt := 0, isRead := read }] })

theorem witness_RemoteInstructions :
    Issues (runs []) t0 ∧ oddPair 2 = false ∧ (destOf 0).window = 0 ∧ freeId ((runs []).tile t0) = some 1 ∧
    ((runs []).inject t0 { rldMessage (destOf 0) with id := 1 }).2 = none ∧
    ((runs []).inject t0 { rstMessage (destOf 0) 0 with id := 1 }).2 = none ∧
    ((runs []).inject t0 { ramoMessage (destOf 0) 0 0 0 with id := 1 }).2 = none ∧
    ((runs []).inject t0 { ramoMessage (destOf 0) 1 0 0 with id := 1 }).2 = none ∧
    ((runs []).inject t0 { ramoMessage (destOf 0) 2 0 0 with id := 1 }).2 = none := by
  unfold Issues; decide +kernel

theorem witness_RemoteInstructions_answered :
    let f := flit 3 0 0 (List.replicate 32 0)
    let g := flit 4 0 0 (List.replicate 32 0)
    let h := flit 5 0 0 (List.replicate 32 0)
    let s := waiting (.rld 3 1) true
    let u := waiting (.rst 1) false
    Instr.wf (.readDataReceipt t0 f) = true ∧ (txOf (s.tile t0) 1).any (fun x => x.isRead && x.agent == .core) = true ∧
    rxTurn (s.tile t0) (· == f) = true ∧ rxTurn (u.tile t0) (· == g) = true ∧ rxTurn (u.tile t0) (· == h) = true ∧
    zeroRange f.payload 4 28 = true ∧ zeroRange f.payload 8 24 = true ∧ zeroRange g.payload 0 32 = true ∧
    refusalReserved h.payload = false ∧ fieldN h.payload 17 1 % 8 ≠ 3 ∧ h.id ≠ 0 ∧ (s.tile t0).cc.haltDue = 0 ∧
    (s.tile t0).cc.wait = .rld 3 1 ∧ Instr.wf (.acknowledgementReceipt t0 g) = true ∧
    (txOf (u.tile t0) 1).any (fun x => !x.isRead) = true ∧ (u.tile t0).cc.wait = .rst 1 ∧
    Instr.wf (.refusalReceipt t0 h) = true ∧ (destOf (fieldN h.payload 8 8)).route = 0 ∧
    waitsFor (u.tile t0).cc 1 = true ∧ u.timeoutsHeld t0 = false ∧ (u.tile t0).cc.haltDue = 0 := by decide +kernel

theorem witness_SystemInstructions :
    let busy := tiled (fun T => { T with cc := core [], tx := [{ id := 1, agent := .core, dest := 0, sentAt := 0 }] })
    let bugged := (runs []).odSetP 0x7000 1 0 1
    Issues (runs []) t0 ∧ ((runs []).tile t0).tx = [] ∧ Issues busy t0 ∧
    ((busy.tile t0).tx.any (fun x => x.agent == .core)) = true ∧
    BitVec.ofNat 32 (eventsNow { core [(1, 0x100)] with events := 0x100 }) &&& 0x100 ≠ 0 ∧
    BitVec.ofNat 32 (eventsNow (core [])) &&& 0x100 = 0 ∧
    Issues bugged t0 ∧ bugged.debugOn t0 = true ∧ (runs []).debugOn t0 = false := by unfold Issues; decide +kernel

theorem witness_WatchdogAndTimer :
    let s := tiled (fun T => { T with cc := { core [] with wdog := 1 } })
    let h := tiled (fun T => { T with cc := { core [] with state := .halted } })
    (s.tile t0).cc.wdog ≠ 0 ∧ (s.tile t0).cc.state = .running ∧ (h.tile t0).cc.wdog = 0 ∧ (h.tile t0).cc.state = .halted ∧
    ((tiled (fun T => { T with cc := { core [] with timer := 5 } })).tile t0).cc.timer ≠ 0 := by
  decide +kernel

/-- Operands in v0 to v2 and v31, counted by g1. -/
def vops : VOperands := { d := 31, a := 0, b := 1, c := 2, gb := 1, src := .regs }

theorem witness_VectorLaneInstructions :
    Issues (runs [(1, 64)]) t0 ∧ ((runs [(1, 64)]).gr t0 vops.gb).toNat = 64 ∧ InRegs vops 64 := by
  unfold Issues InRegs; decide +kernel

theorem witness_VectorReductionsAndSelection :
    let a : DrawArgs := { seed := 1, temp := 0, topK := 1, topP := 0x3F800000, position := 0, vocab := 16,
                          cands := [(5, 0x3F800000), (3, 0x40000000)] }
    (convSizes .fp32ToInt32).1 = 4 ∧ Instr.wf (.vopConversion t0 .fp32ToInt32 0 0 vops) = true ∧
    Instr.wf (.draw t0 1 a) = true ∧ (drawToken a).isSome = true := by decide +kernel

theorem witness_CoreDebugCommands :
    let w := leBytes 4 (3 * 2 ^ 21 + 1 * 2 ^ 16 + 2 * 2 ^ 11)
    let h := tiled (fun T => { T with cc := { core [(1, 5), (2, 6)] with state := .halted, isram := mwrite 0 [] 0 w } })
    let bugged := (runs []).odSetP 0x7000 1 0 1
    (runs []).sealedAt t0 = false ∧ ((runs []).tile t0).cc.state = .running ∧ ((runs []).tile t0).cc.wait = .none ∧
    h.sealedAt t0 = false ∧ (h.tile t0).cc.state = .halted ∧ bits (fetchWord (h.tile t0).cc) 31 26 = 0 ∧
    bits (fetchWord (h.tile t0).cc) 10 0 = 0 ∧ regField (fetchWord (h.tile t0).cc) 25 = 3 ∧
    regField (fetchWord (h.tile t0).cc) 20 = 1 ∧ regField (fetchWord (h.tile t0).cc) 15 = 2 ∧
    bugged.odP 0x7000 1 0 ≠ 0 ∧ bugged.isSealed 0 = false ∧ Admitted bugged pf 0x7000 5 0 ∧ Admitted bugged pf 0x7000 6 0 ∧
    (((runs []).odSetP 0x7000 7 0 1).odP 0x7000 7 0 = 1) ∧
    (tiled (fun T => { T with cc := core [], tx := [{ id := 1, agent := .core, dest := 0, sentAt := 0 }] })).partDrained 0 = false := by
  unfold Admitted; decide +kernel

/-! ### Witnesses: tile memory -/

theorem witness_ScratchpadAndRemoteAccesses :
    let r : SpAccess := { agent := .vector, offset := 0x1FFFFC, len := 4, write := none, waited := 0, ecc := [] }
    let w : SpAccess := { r with write := some [some 1, none, none, some 2] }
    let f := flit 0 0 0x1FFFE0 (List.replicate 32 0)
    let g := flit 1 0 0x1FFFE0 (bytes 32 [0, 0, 0, 0, 1])
    let h := flit 1 0 0x1FFFFC (bytes 32 [1])
    Instr.wf (.scratchpadAccess t0 r) = true ∧ coreAligned r = true ∧ Instr.wf (.scratchpadAccess t0 w) = true ∧
    coreAligned w = true ∧ guardOf (formed.tile t0) 0x1FFFFC 4 = none ∧
    Instr.wf (.scratchpadAccess t0 { r with offset := 0x1FFFFD }) = true ∧ coreAligned { r with offset := 0x1FFFFD } = true ∧
    Instr.wf (.remoteWrite t0 f) = true ∧ formed.partOfTile t0 = some f.part ∧ alignedRun f.be.toNat = true ∧
    guardOf (formed.tile t0) 0x1FFFE0 32 = none ∧ flitOk f = true ∧ up.partOfTile t0 ≠ some f.part ∧
    Instr.wf (.remoteRead t0 g) = true ∧ readCheck g = 0 ∧ fieldN g.payload 0 1 = 0 ∧ fieldN g.payload 4 4 = 1 ∧
    Instr.wf (.remoteRead t0 h) = true ∧ readCheck h = 0 ∧ fieldN h.payload 0 1 = 1 := by decide +kernel

theorem witness_ScratchpadAndRemoteAccesses_sound :
    let f := flit 0 0 0x1FFFE0 (List.replicate 32 0)
    let g := flit 1 0 0x1FFFE0 (bytes 32 [0, 0, 0, 0, 1])
    let bad := tiled (fun T => { T with sp := { T.sp with bad := [0x1FFFFC / 8] } })
    let shut := formed.odSet 0x4102 1 1
    let far := { g with srcX := 159 }
    Sound formed t0 ∧ Turn formed t0 f ∧ Turn formed t0 g ∧ formed.sealedFromTile t0 g.srcX g.srcY = false ∧
    shut.sealedFromTile t0 far.srcX far.srcY = true ∧ Turn shut t0 far ∧ Instr.wf (.remoteRead t0 far) = true ∧ far.kind = 1 ∧
    badIn (bad.tile t0).sp 0x1FFFFC 4 ≠ [] ∧ Turn bad t0 g ∧ bad.partOfTile t0 = some g.part := by
  unfold Sound Turn; decide +kernel

theorem witness_RemoteAtomics :
    let f := fun fn : Byte => flit 2 0 0x1FFFF8 (bytes 32 [fn])
    let v := tiled (fun T => { T with vu := { T.vu with queue := List.replicate 256 (0, []) } })
    formed.partOfTile t0 = some 0 ∧ atomicCheck (f 0) = 0 ∧ atomicCheck (f 1) = 0 ∧ atomicCheck (f 2) = 0 ∧
    fieldN (f 0).payload 0 1 = 0 ∧ fieldN (f 1).payload 0 1 = 1 ∧ fieldN (f 2).payload 0 1 = 2 ∧ flitOk (f 2) = true ∧
    guardOf (formed.tile t0) 0x1FFFF8 8 = none ∧ (formed.tile t0).vu.queue.length < 256 ∧
    256 ≤ (v.tile t0).vu.queue.length ∧ (formed.tile t0).sp.bad = [] ∧ rxTurn (formed.tile t0) (· == f 2) = true ∧
    rxTurn (formed.tile t0) (fun g : Flit => g.dest.window == 4 && g.dest.offset == 0 && g.payload == bytes 32 []) = true := by
  decide +kernel

/-- Channel 0 of the first tile's mover. -/
def mov (m : Mover) : State := formed.modMv t0 0 (fun _ => m)

theorem witness_MoverChannelRegisters :
    let m := (mov {}).mover t0 0
    let r : Mover := { en := true, tail := 1 }
    (4 + 65536 - m.done) % 65536 ≤ ringSlots m ∧ ringSlots m < (5 + 65536 - m.done) % 65536 ∧ m.en = false ∧ 1 ≤ m.hi ∧
    ((mov r).mover t0 0).en = true ∧ occupancy ((mov r).mover t0 0) = 1 ∧
    bits 0x00010400 7 0 < bits 0x00010400 15 8 ∧ bits 0x00010400 15 8 ≤ ringSlots m ∧ 1 ≤ bits 0x00010400 31 16 ∧
    ¬(bits 0x400 7 0 < bits 0x400 15 8 ∧ 1 ≤ bits 0x400 31 16) := by decide +kernel

/-- A COPY of 32 bytes from 0x100 to 0x200, a TRANSPOSED_COPY of one byte, a FILL, a MARKER, and no operation. -/
def copyD : List Byte := bytes 32 [0x20, 1, 0, 0, 32, 0, 0, 0, 0, 1, 0, 0, 0, 0, 0, 0, 0, 2, 0, 0]
def markD : List Byte := bytes 32 [0x2F, 1]
def noneD : List Byte := bytes 32 [0x7F, 1]

theorem witness_MoverDescriptors :
    let d : Desc := { count := 0, bytes := copyD, phase := .fetched }
    let m : Mover := { en := true, fetching := true, tail := 1, fetched := 0 }
    let h : Mover := { en := true, tail := 1, fetched := 1, inHand := [d] }
    let own := (mov m).modSp t0 (fun p => { p with mem := mwrite 0 p.mem 0 markD })
    formed.partOfTile t0 = some 0 ∧ inHandCount m < 4 ∧ 1 ≤ occupancy m ∧
    (mvDescOf (spRead (own.tile t0).sp 0 32)).own = true ∧ own.traceMode t0 = 0 ∧
    (mvDescOf (spRead ((mov m).tile t0).sp 0 32)).own = false ∧
    ((mov m).tile t0).cc.state ≠ .halted ∧ ((mov h).tile t0).sp.bad = [] ∧ m.failure = none ∧
    mayStart ((mov h).tile t0) h d = true ∧ (mov h).descCode 0 copyD = 0 ∧ (mvDescOf copyD).opc = 0x20 ∧
    (mov h).descCode 0 markD = 0 ∧ (mvDescOf markD).opc = 0x2F ∧ (mov h).descCode 0 noneD = 0x0001 ∧
    guardOf ((mov h).tile t0) 0x200 32 = none := by decide +kernel

theorem witness_StackAccesses :
    let s := ({ formed with stk := { formed.stk with online := [0], extents := [(0, 0)], regions := [(0, 1)] } } : State)
      |>.odSetP 0x3320 5 0 1
    let b := { s with stk := { s.stk with bad := [0] } }
    s.devAddr 0 0 = some 0 ∧ 64 ≤ s.stackLimit 0 ∧ s.stackState (s.stackOf 0) = 0 ∧ 0 / 64 ∉ s.stk.bad ∧ 0 / 64 ∈ b.stk.bad ∧
    (s.odSet 0x3311 1 2).stackState ((s.odSet 0x3311 1 2).stackOf 0) ≠ 0 ∧ s.stackLimit 0 < s.stackLimit 0 - 63 + 64 ∧
    s.hub.away = false ∧ s.stk.selfRefresh = false := by decide +kernel
/-! ### Witnesses: charge bank, tensor block -/

/-- The first tile with a charge bank. -/
def bank (cb : ChargeBank) : State := tiled (fun T => { T with cb := cb, quiet := true })

/-- Segment 0 of one block on array 0 of one row, enabled. -/
def oneSeg : Segment := { en := true, arrCount := 1, blocks := 1 }

/-- Array 0 of one row, its words latched. -/
def oneArray : ChargeArray := { wvalid := true, rows := 1, latched := [0] }

theorem witness_SegmentRegisters :
    let off : ChargeBank := { arrays := [(0, oneArray)] }
    let on : ChargeBank := { off with segs := [(0, oneSeg)], boundary := false }
    let nan : List Byte := [0, 0, 0xC0, 0x7F] ++ List.replicate 12 0
    let z : Channel := chanOf (List.replicate 16 0)
    bit 0x80000081 31 = true ∧ (((bank off).tile t0).cb.seg 0).en = false ∧
    enableOk ((bank off).tile t0).cb 0 (setCfg0 {} 0x80000081) = true ∧
    enableOk ((bank off).tile t0).cb 0 (setCfg0 {} 0x80000000) = false ∧
    (((bank on).tile t0).cb.seg 0).en = true ∧ ((bank on).tile t0).cb.boundary = false ∧
    bits 0x00000081 30 0 = bits (segCfg0 (((bank on).tile t0).cb.seg 0)) 30 0 ∧
    fpFinite (fpOf z.m) = true ∧ fpFinite (fpOf z.b) = true ∧ chanFormat ((bank on).tile t0).cb 8191 = none ∧
    chanFormat ((bank on).tile t0).cb 511 = some 0 ∧ zOk 0 z.z = true ∧ fpFinite (fpOf (chanOf nan).m) = false ∧
    nan.length = 16 ∧ (bank on).boundaryWaits t0 = false ∧ (∀ e ∈ ((bank on).tile t0).cb.arrays, e.2.cal ≠ .measuring) ∧
    ((bank on).part 0).walkDue = [] := by decide +kernel

theorem witness_ChargePasses :
    let on (x : ChargeArray) : State := bank { arrays := [(0, x)], segs := [(0, oneSeg)], ready := [0] }
    let w : List Byte := List.replicate 32 0
    Instr.wf (.segmentInputWord t0 0 0 w 0 0) = true ∧ Instr.wf (.segmentInputWord t0 0 0x1FFFF w 0 0) = true ∧
    ((formed.tile t0).cb.seg 0).en = false ∧ (((on oneArray).tile t0).cb.seg 0).en = true ∧ 0 * 64 / 512 < oneSeg.blocks ∧
    0 % 8 * 64 < (((on oneArray).tile t0).cb.arr (0 + 0 * groupsOf oneSeg)).rows ∧
    wordHeld ((on oneArray).tile t0).cb oneSeg 0 = true ∧
    wordHeld ((on { oneArray with latched := [] }).tile t0).cb oneSeg 0 = false ∧ ((on oneArray).tile t0).quiet = true ∧
    ((on oneArray).tile t0).cb.ready = 0 :: [] ∧ segOfArray ((on oneArray).tile t0).cb 0 = some (0, oneSeg) ∧
    grantFree ((on oneArray).tile t0).cb = true ∧ arrayIdle (((on oneArray).tile t0).cb.arr 0) = true ∧
    burstAhead ((on oneArray).tile t0).cb 0 = false ∧ (((on oneArray).tile t0).cb.arr 0).refresh ≠ .forced ∧
    rxTurn ((on oneArray).tile t0) (isSegWord 0 0 w 0 0) = true ∧ (formed.tile t0).cc.role ∉ [1, 2, 4] ∧
    ((tiled (fun T => { T with cc := { T.cc with role := 2 } })).tile t0).cc.role ∈ [1, 2, 4] := by decide +kernel

/-- A pass of array 0, read once or being read again. -/
def onePass (again : Bool) : Pass :=
  { codes := [0], seg := 0, block := 0, group := 0, token := 0, e := 7, base := 0, a8 := false, reread := again }

/-- The bank in which that pass converts, with Lookout's registers. -/
def converts (again : Bool) (lk : Lookout) : State :=
  tiled (fun T => { T with cb := { arrays := [(0, { oneArray with conv := some (onePass again) })], segs := [(0, oneSeg)] }, lk := lk })

/-- An envelope that no codes meet. -/
theorem envFails_never (codes : List Nat) : envFails { meanLo := 1, meanHi := 0 } codes = true := by
  simp [envFails]; omega

/-- An envelope that just takes some codes. -/
theorem envFails_just (codes : List Nat) :
    envFails { meanHi := codes.sum / 1024, satMax := countCode 255 codes, zeroMax := countCode 0 codes } codes = false := by
  simp [envFails]

theorem witness_ChargePasses_post :
    let never : Lookout := { rr := 1, groups := [(0, { meanLo := 1, meanHi := 0 })] }
    let s := converts false never
    ((s.tile t0).cb.arr 0).conv = some (onePass false) ∧ (onePass false).reread = false ∧
    ((converts false { en := false }).tile t0).lk.en = false ∧ (s.tile t0).lk.en = true ∧ (s.tile t0).lk.rr ≠ 0 ∧
    (convert (s.tile t0).cb 0 0 (onePass false) s.free).any (envFails (mget {} (s.tile t0).lk.groups (0 / 24))) = true := by
  refine ⟨by decide +kernel, rfl, by decide +kernel, by decide +kernel, by decide +kernel, ?_⟩
  have : mget ({} : LookoutGroup) ((converts false { rr := 1, groups := [(0, { meanLo := 1, meanHi := 0 })] }).tile t0).lk.groups
      (0 / 24) = { meanLo := 1, meanHi := 0 } := by decide +kernel
  simp only [this, convert, onePass, List.any, Bool.false_eq_true, if_false, envFails_never, Bool.true_or]

theorem witness_ChargePasses_again (codes : List Nat) :
    let s := converts true { rr := 0, groups := [(0, { meanLo := 1, meanHi := 0 })] }
    let u := converts true { rr := 0, groups := [(0, { meanHi := codes.sum / 1024, satMax := countCode 255 codes,
                                                       zeroMax := countCode 0 codes })] }
    ((s.tile t0).cb.arr 0).conv = some (onePass true) ∧ (onePass true).reread = true ∧
    [codes].any (envFails (mget {} (s.tile t0).lk.groups (0 / 24))) = true ∧
    [codes].any (envFails (mget {} (u.tile t0).lk.groups (0 / 24))) = false := by
  refine ⟨by decide +kernel, rfl, ?_, ?_⟩
  · have : mget ({} : LookoutGroup) ((converts true { rr := 0, groups := [(0, { meanLo := 1, meanHi := 0 })] }).tile t0).lk.groups
        (0 / 24) = { meanLo := 1, meanHi := 0 } := by decide +kernel
    simp only [this, List.any, envFails_never, Bool.true_or]
  · show (envFails { meanHi := codes.sum / 1024, satMax := countCode 255 codes, zeroMax := countCode 0 codes } codes || false) = false
    rw [envFails_just]; rfl

/-- The header of a write burst that opens array 0 with one row, and of a read request for one row. -/
def burstH : List Byte := bytes 32 [1, 0, 0, 0, 1, 0, 0, 3, 1, 0]
def readH : List Byte := bytes 32 [2, 0, 0, 0, 1, 0]
def oneRow : List Byte := List.replicate 256 0
def someBurst (held : Bool) : Burst :=
  { firstRow := 0, fmt := 0, opn := true, cls := true, rows := 1, data := [oneRow], next := 0, held := held }

theorem witness_WriteBursts :
    let on (x : ChargeArray) : State := bank { arrays := [(0, x)] }
    Instr.wf (.writeBurst t0 burstH [oneRow] 0 0) = true ∧ Instr.wf (.readRequest t0 readH 0 0) = true ∧
    burstCode (formed.tile t0).cb burstH 1 = 0 ∧ burstCode (formed.tile t0).cb burstH 2 ≠ 0 ∧ (burstHdrOf burstH).opc = 1 ∧
    ((formed.tile t0).cb.arr 0).burst = none ∧ ((formed.tile t0).cb.arr 0).closing = none ∧
    (((on { burst := some (someBurst true) }).tile t0).cb.arr 0).burst = some (someBurst true) ∧
    ((on {}).tile t0).cb.boundary = true ∧ (someBurst false).data = oneRow :: [] ∧
    writeFree ((on { burst := some (someBurst false) }).tile t0).cb = true ∧
    rxTurn (formed.tile t0) (isPortFlit 0 0) = true ∧
    activeArrays ((on { closing := some none }).tile t0).cb ≤ ((on { closing := some none }).tile t0).cb.grant ∧
    readingArrays ((on { closing := some none }).tile t0).cb ≤ 20 ∧ readFree (formed.tile t0).cb = true ∧
    arrayIdle ((formed.tile t0).cb.arr 0) = true ∧
    arrayIdle (((on { burst := some (someBurst false) }).tile t0).cb.arr 0) = true ∧
    (((on { closing := some none }).tile t0).cb.arr 0).closing = some none ∧
    formed.readReqCode t0 readH 0 0 = 0 ∧ (burstHdrOf readH).opc = 2 ∧ portLast (formed.tile t0) 0 0 = none := by
  decide +kernel

theorem witness_CalibrationAndRefresh :
    let on (x : ChargeArray) : State := tiled (fun T => { T with cb := { arrays := [(191, x)] } })
    (((on {}).tile t0).cb.arr 191).cal = .idle ∧ (on { cal := .due }).calStartOk t0 [191] = true ∧
    (on {}).calStartOk t0 [191] = false ∧ (((on { cal := .measuring }).tile t0).cb.arr 191).cal = .measuring ∧
    (((on { cal := .due }).tile t0).cb.arr 191).calLate = false ∧ Admitted (on {}) pf 0x3002 2 0xFF ∧
    (((on {}).tile t0).cb.arr 191).refresh = .idle ∧ (((on {}).tile t0).cb.arr 191).failed = false ∧
    refreshMay ((on { refresh := .due }).tile t0) 191 = true ∧
    (((on { refresh := .due }).tile t0).cb.arr 191).refresh = .due := by unfold Admitted; decide +kernel

/-- A tensor operation over a held file of one vector, a held load, and a drain to the scratchpad or the vector unit. -/
def opD : List Byte := bytes 64 [0x10, 0, 0, 0, 1, 0, 1, 0, 1, 0]
def loadD : List Byte := bytes 64 [0x11, 0, 0, 0, 1, 0, 1, 0, 1, 0]
def drainD (vu : Bool) : Drain :=
  { set := 0, base := 0, held := 1, pairs := 1, maxtap := false, fp := false, dfmt := 0, tovu := vu, dest := 0 }

/-- Array 0 of one row of ternary cells, its words latched, with column sums. -/
def ternary (sums : SMap Nat) : ChargeArray := { oneArray with fmt := 2, sums := sums }

/-- The bank with that array and an Exact-mode segment. -/
def exactBank (x : ChargeArray) : ChargeBank := { arrays := [(0, x)], segs := [(0, { oneSeg with exactMode := true })] }

theorem mapIdx_zero (n : Nat) (f : Nat → Nat → Nat) (h : ∀ c, f c 0 = 0) :
    (List.replicate n 0).mapIdx f = List.replicate n 0 := by
  rw [List.eq_replicate_iff]
  constructor
  · rw [List.length_mapIdx, List.length_replicate]
  · intro b hb
    obtain ⟨i, hi, rfl⟩ := List.mem_mapIdx.mp hb
    rw [List.getElem_replicate]; exact h i

theorem readArray_clean (sums : SMap Nat) : readArray (exactBank (ternary sums)) 0 [] = [List.replicate 1024 0] := by
  have h : readRow (exactBank (ternary sums)) 0 0 = List.replicate 1024 0 := mapIdx_zero _ _ (fun c => rfl)
  have k : readWith (exactBank (ternary sums)) 0 0 [] = List.replicate 1024 0 := by
    rw [readWith, h]; exact mapIdx_zero _ _ (fun c => rfl)
  have e : (exactBank (ternary sums)).arr 0 = ternary sums := rfl
  have r : (ternary sums).rows = 1 := rfl
  have f : (ternary sums).fmt = 2 := rfl
  have two : ∀ l, rowCodes 2 l = l := fun _ => rfl
  rw [readArray, e, r, f, show List.range 1 = [0] from rfl, List.map_cons, List.map_nil, k, two]

theorem all_zero (n : Nat) (f : Nat → Nat) :
    ((List.replicate n 0).mapIdx (fun m v => f m == v)).all id = (List.range n).all (fun m => f m == 0) := by
  rw [Bool.eq_iff_iff, List.all_eq_true, List.all_eq_true]
  constructor
  · intro k m hm
    exact k _ (List.mem_mapIdx.mpr ⟨m, by rw [List.length_replicate]; exact List.mem_range.mp hm,
      by rw [List.getElem_replicate]⟩)
  · intro k b hb
    obtain ⟨m, hm, rfl⟩ := List.mem_mapIdx.mp hb
    rw [List.getElem_replicate]; exact k m (List.mem_range.mpr (by rw [List.length_replicate] at hm; exact hm))

theorem sumsMatch_clean (sums : SMap Nat) : sumsMatch (ternary sums) (readArray (exactBank (ternary sums)) 0 []) =
    (List.range 1024).all (fun m => mget 0 sums m == 0) := by
  have h : ∀ n, List.zipWith (· + ·) (List.replicate n 0) (List.replicate n 0) = List.replicate n 0 := by
    intro n; rw [List.zipWith_replicate, Nat.min_self]
  have k : ∀ (l : List (List Nat)) (o : Nat), sumsMatch (ternary sums) l = ((sumRows 1024 l).mapIdx (fun m v => mget 0 sums m == v)).all id ∧
      sumRows o [List.replicate o 0] = List.zipWith (· + ·) (List.replicate o 0) (List.replicate o 0) :=
    fun _ _ => ⟨rfl, rfl⟩
  rw [readArray_clean, (k _ 0).1, (k [] 1024).2, h, all_zero]

theorem witness_ExactModeAndTensor :
    let g : Segment := { oneSeg with exactMode := true }
    let s := tiled (fun T => { T with cb := exactBank (ternary []) })
    let bad := tiled (fun T => { T with cb := exactBank (ternary [(0, 5)]) })
    let read := tiled (fun T => { T with cb := exactBank { ternary [] with exact := some [] } })
    let q (l : List (List Byte)) (d : List Drain) : State := tiled (fun T => { T with tv := { T.tv with queue := l, drains := d } })
    segOfArray (s.tile t0).cb 0 = some (0, g) ∧ fullLatch ((s.tile t0).cb.arr 0) g = true ∧
    arrayIdle ((s.tile t0).cb.arr 0) = true ∧ ((s.tile t0).cb.arr 0).exact = none ∧ readFree (s.tile t0).cb = true ∧
    burstAhead (s.tile t0).cb 0 = false ∧ (s.tile t0).sp.bad = [] ∧ ((s.tile t0).cb.seg 0).exactMode = true ∧
    (s.tile t0).cb = exactBank (ternary []) ∧ (s.tile t0).cb.arr 0 = ternary [] ∧
    (List.range 1024).all (fun m => mget 0 (ternary []).sums m == 0) = true ∧
    (bad.tile t0).cb = exactBank (ternary [(0, 5)]) ∧ (bad.tile t0).cb.arr 0 = ternary [(0, 5)] ∧
    (List.range 1024).all (fun m => mget 0 (ternary [(0, 5)]).sums m == 0) = false ∧
    ((read.tile t0).cb.seg 0).en = true ∧ (∀ a ∈ arraysOf ((read.tile t0).cb.seg 0), ((read.tile t0).cb.arr a).exact ≠ none) ∧
    takeDesc 0x11 [] ((q [loadD, opD] []).tile t0).tv.queue = some (loadD, [opD]) ∧
    takeDesc 0x10 [] ((q [opD] []).tile t0).tv.queue = some (opD, []) ∧
    ((q [opD] []).tile t0).tv.exact = false ∧ (∀ x ∈ ((q [opD] []).tile t0).tv.drains, x.set ≠ (tvDescOf opD).aset) ∧ (tvDescOf opD).fmt ≠ 2 ∧
    ((q [] [drainD false]).tile t0).tv.drains = drainD false :: [] ∧
    guardOf (formed.tile t0) 0 (drainData (formed.tile t0).tv (drainD false)).length = none ∧
    (wordsOf (drainData (formed.tile t0).tv (drainD true))).length ≤ 0 + (256 - (formed.tile t0).vu.queue.length) := by
  decide +kernel

theorem witness_ExactModeAndTensor_sums :
    sumsMatch (ternary []) (readArray (exactBank (ternary [])) 0 []) = true ∧
    sumsMatch (ternary [(0, 5)]) (readArray (exactBank (ternary [(0, 5)])) 0 []) = false := by
  constructor <;> rw [sumsMatch_clean] <;> decide +kernel
/-! ### Witnesses: mesh, key-value cache, serving -/

/-- The first tile's router with flits in its buffers. -/
def routed (R : Router) : State := formed.modRouter t0 (fun _ => R)

/-- A write of one flit to a tile. -/
def write (x y : Nat) : Message :=
  { kind := 0, vn := 0, id := 0, dest := { rop := 0, route := 0, tileY := y, tileX := x, window := 0, offset := 0 },
    be := BitVec.allOnes 32, flits := [List.replicate 32 0] }

/-- A flit on its way to a tile. -/
def towards (x y : Nat) : Flit :=
  { flit 0 0 0 (List.replicate 32 0) with
    dest := { rop := 0, route := 0, tileY := y, tileX := x, window := 0, offset := 0 } }

theorem witness_MeshUnicast :
    let one (f : Flit) := routed { inq := [{ port := .l, flit := f }] }
    let full : State := (one (towards 1 0)).modRouter ⟨1, 0⟩ (fun _ =>
      { inq := List.replicate 8 { port := .w, flit := flit 0 0 0 [] } })
    let fed : State := formed.modRouter t0 (fun _ => { inq := List.replicate 8 { port := .l, flit := flit 0 0 0 [] } })
    let e (f : Flit) : InFlit := { port := .l, flit := f }
    let m := write 1 0
    messageOk m = true ∧ formed.logical t0 = some (0, 0) ∧ formed.partOfTile t0 = some 0 ∧ formed.isRetired t0 = false ∧
    injectFormat m.kind m.vn m.dest = 0 ∧ formed.mesh.detour = .idle ∧
    (match formed.injectRoute t0 m.vn m.dest with | .ok r => decide (r = (none, 0, false)) | .error _ => false) = true ∧
    ({ formed with mesh := { formed.mesh with detour := .draining 1 true } } : State).mesh.detour ≠ .idle ∧
    injectFormat 7 0 m.dest ≠ 0 ∧
    (formed.router t0).feed = [] ∧ formed.hasRoom t0 .l (towards 1 0) = true ∧ (fed.router t0).feed = [] ∧
    fed.hasRoom t0 .l (flit 0 0 0 []) = false ∧
    (one (towards 1 0)).headsAt t0 .l 0 = [e (towards 1 0)] ∧ (towards 1 0).dest.route = 0 ∧
    ((one (towards 1 0)).router t0).dropping = [] ∧ (one (towards 1 0)).rivals t0 .e (e (towards 1 0)) = [] ∧
    (one (towards 0 0)).rivals t0 .l (e (towards 0 0)) = [] ∧ (towards 0 0).incomplete = false ∧
    rimPort t0 .w = true ∧ (one (towards 1 0)).crossbarMay t0 .w (towards 1 0) = true ∧
    ((one (towards 1 0)).unicastDir t0 (towards 1 0)).1 = .e ∧ neighbour t0 .e = some ⟨1, 0⟩ ∧
    (one (towards 1 0)).hasRoom ⟨1, 0⟩ (arrival .e) (towards 1 0) = true ∧ LinkId.mk t0 .e ∉ formed.mesh.failed ∧
    bit formed.dark (fieldOfTile ⟨1, 0⟩) = false ∧ bit formed.mesh.down (fieldOfTile ⟨1, 0⟩) = false ∧
    full.hasRoom ⟨1, 0⟩ .w (towards 1 0) = false ∧ ((one (towards 0 0)).unicastDir t0 (towards 0 0)).1 = .l ∧
    (towards 0 0).part = 0 ∧ up.partOfTile t0 ≠ some (towards 0 0).part ∧
    Instr.wf (.rimIngress .w (towards 0 0)) = true ∧
    rimRouter formed.dark .w (formed.physical 0 0) = some ⟨0, 0⟩ ∧ waypoint formed.dark 0 0 0 0 = some 0 := by
  decide +kernel

theorem witness_MeshUnicast_dark :
    (match (formed.odSet 0x3401 1 2).injectRoute t0 0 (write 20 0).dest with | .ok _ => 0 | .error c => c) = 0x000B := by
  decide +kernel

theorem witness_ReductionsAndDetours :
    let k (c : List (Dir × Flit)) : RedKey := { route := 1, id := 2, window := 0, offset := 0, rop := 1, contribs := c }
    let s := routed { keys := [k [(.w, towards 0 0)]], routes := [(1, 0x40)] }
    let u := routed { keys := [k []], routes := [(1, 0x40)] }
    let d : State := { formed with mesh := { formed.mesh with detour := .draining 1 true } }
    let b := d.modRouter t0 (fun _ => { inq := [{ port := .l, flit := towards 0 0 }] })
    let o := { k [(.w, towards 0 0)] with out := some (towards 0 0) }
    let w := routed { keys := [o], routes := [(1, 0x40)] }
    w.findKey t0 1 2 0 0 = some o ∧ o.out.isSome = true ∧ (k []).out = none ∧
    s.findKey t0 1 2 0 0 = some (k [(.w, towards 0 0)]) ∧ u.findKey t0 1 2 0 0 = some (k []) ∧
    dirsOf (bits (s.routeEntry t0 1) 9 5) = [.w] ∧ dirsOf (bits (u.routeEntry t0 1) 9 5) = [.w] ∧
    s.timeoutsHeld t0 = false ∧ (s.odSetP 0x7000 7 0 1).timeoutsHeld t0 = true ∧ d.mesh.detour = .draining 1 true ∧
    d.hub.away = false ∧ d.meshEmpty = true ∧ b.meshEmpty = false ∧ formed.mesh.detour = .idle := by decide +kernel

/-- A program whose lead core runs on the first tile. -/
def prog : Program := { ox := 0, oy := 0, fw := 1, fh := 1, bulk := false, tc := 2, tiles := [(t0, 3, 0), (⟨1, 0⟩, 2, 0)],
                        digest := [], released := true }

/-- The tile east of the first, which runs attention in the program. -/
def t1 : TileId := ⟨1, 0⟩

/-- A request in a state. -/
def reqIn (st : ReqState) : Request :=
  { st := st, tag := 5, noPrefix := false, topk := 1, stops := [], promptLen := 256, maxNew := 1, ctxE := 257, maskLo := 0,
    temp := 0, topp := 0, ttft := 0, endDl := 0, seed := 0, fromStack := false, promptAddr := 0, submitAt := 0,
    ids := List.replicate 256 0 }

/-- The partition serving requests. -/
def serves (l : SMap Request) : State :=
  (parted (fun P => { P with program := some prog, reqs := l, manifest := { P.manifest with vocab := 10, layers := 1, hd := 64, kvh := 1 } }))
    |>.setTile t0 { cc := { core [] with stage := 0 } } |>.odSetP 0x5000 4 0 1 |>.odSetP 0x5000 0x14 0 4 |>.odSetP 0x5000 5 0 4096

/-- The attention tile of the program, holding the context of the first token of request 0, with room for its group. -/
def attends (held : Bool) : State :=
  (serves [(0, reqIn .decode)]).setTile t1 { ctx := contextWord 0 false false 0 1 0 0, cc := { core [] with role := 2, stage := 0 } }
    |>.modPart 0 (fun P => { P with slots := if held then [{ tile := tkey t1, slot := 0, req := 0, layer := 0, group := 0 }] else [] })

theorem witness_KvCacheAndAttention_walk :
    let s := serves [(0, reqIn .decode)]
    let e := serves [(0, reqIn .ending)]
    let w (s : State) := (s.modReq 0 0 (fun x => { x with stageAt := some 0 })).settleLayer 0 0 0
    stageCount (s.part 0) = 1 ∧ s.coreRuns (coreOf (s.part 0) 0) = true ∧
    ((s.setTile t0 { cc := { core [] with state := .halted } }).coreRuns (coreOf (s.part 0) 0)) = false ∧
    ((w e).req 0 0).any (fun x => x.st == .ending) = true ∧ ((w s).req 0 0).any (fun x => x.st != .ending && x.endDue.isNone) = true ∧
    (w (s.odSetP 0x5100 3 0 0)).odEff 0x5100 3 0 = 0 ∧ attnTiles ((w s).part 0) 0 = [t1] := by decide +kernel

theorem witness_KvCacheAndAttention :
    let s := attends true
    let n := attends false
    let a : AttnToken := ⟨tkey t1, 0, 0, 0, []⟩
    let r := s.modPart 0 (fun P => { P with tokens := [a] })
    let c : Contribution := { tile := tkey t1, req := 0, layer := 0, head := 0, kvHead := 0, m := 0, c := 0, v := [], empty := true }
    let m := s.modPart 0 (fun P => { P with contribs := [c] })
    s.partOfTile t1 = some 0 ∧ (s.tile t1).cc.role = 2 ∧ ctxCarries (s.tile t1).ctx 0 0 0 = true ∧
    s.pagesHere 0 t1 0 (layerOf (s.part 0) (s.tile t1).cc.stage) 0 = true ∧
    n.pagesHere 0 t1 0 (layerOf (n.part 0) (n.tile t1).cc.stage) 0 = false ∧
    (r.part 0).tokens.find? (fun b => b.tile == tkey t1 && b.req == 0) = some a ∧
    ((r.kvScales 0 0 0 0).1.req 0 0).isSome = true ∧
    (let z := (r.kvScales 0 0 0 0).1
     (z.req 0 0).any (fun x =>
       let v := (viewOf (z.part 0) (tkey t1) 0 0).getD { tile := tkey t1, req := 0, layer := 0 }
       (z.streamRangesOf 0 v 0 (admissible x v (((r.part 0).manifest.windows.drop 0).headD 0) 0 0 false)).all (fun e =>
         (badIn (z.tile t1).sp e.1 e.2).isEmpty)) = true) ∧
    holdsGroup (r.part 0) (r.tile t1).cc.stage t1 0 = true ∧
    (let z := r.kvScales 0 0 0 0
     let w := z.1.appendKv 0 0 0 0 a t1 z.2 [0] [0]
     (w.req 0 0).any (fun x =>
       let v := (viewOf (w.part 0) (tkey t1) 0 0).getD { tile := tkey t1, req := 0, layer := 0 }
       (w.streamRangesOf 0 v 0 (admissible x v (((r.part 0).manifest.windows.drop 0).headD 0) 0 0 true)).all (fun e =>
         (badIn (w.tile t1).sp e.1 e.2).isEmpty)) = true) ∧
    attnTiles (m.part 0) (m.tile t1).cc.stage = [t1] ∧ treeTiles (.leaf t1) = [t1] ∧
    (m.part 0).contribs.find? (fun c => c.tile == tkey t1 && c.req == 0 && c.layer == 0 && c.head == 0) = some c ∧
    (s.part 0).contribs.find? (fun c => c.tile == tkey t1 && c.req == 0 && c.layer == 0 && c.head == 0) = none := by decide +kernel

theorem witness_PrefixTreeAndFreeing :
    let s := (serves [(0, reqIn .decode)]).odSetP 0x5100 4 0 1
    let ids := groupIds (reqIn .decode).ids 0
    let n : PrefixNode := { refcnt := 0, parent := 0, children := [], key := groupKey ids, tokens := ids, depth := 0,
                            complete := true, unreachable := false, pages := 0, lastUse := 0, model := 0 }
    let m := s.modPart 0 (fun P => { P with nodes := [(0, n)], roots := [0] })
    let e := serves [(0, reqIn .ending)]
    let w := serves [(0, { reqIn .ending with out := 1 })]
    let z (s : State) := (s.settleRequest 0 0).pumpJobs 0 0
    let j := s.modPart 0 (fun P => { P with jobs := [{ req := 0, group := 0, node := 0, todo := [], flying := [⟨tkey t1, 0, 0, 1⟩] }] })
    ((z s).req 0 0).any (fun x => prefillEnded x && !x.recorded && x.nodes.isEmpty) = true ∧ (z s).odEff 0x5100 4 0 ≠ 0 ∧
    256 * (0 + 1) ≤ (reqIn .decode).promptLen ∧ (z m).matchChild 0 none ids = some 0 ∧ (z s).matchChild 0 none ids = none ∧
    (z s).jobOf 0 0 0 = none ∧ ((z j).jobOf 0 0 0).isSome = true ∧ (z s).freeNode 0 = none ∧ Admitted s pf 0x5100 0x12 0 ∧ s.sealedFrom pf 0 = false ∧
    ((z e).req 0 0).any (fun x => x.st == .ending && !x.recorded && x.out == 0 && !anyInflight ((z e).part 0) 0 x) = true ∧
    ((z w).req 0 0).any (fun x => x.out != 0) = true := by unfold Admitted; decide +kernel

theorem witness_PrefixTreeAndFreeing_room :
    let s := ((serves [(0, reqIn .decode)]).odSetP 0x5100 4 0 1).odSetP 0x5100 0xC 0 0
    let r : State := { s with stk := { s.stk with online := [0], regions := [(0, 1), (1, 1), (2, 1), (3, 1)] } }
    r.matchChild 0 none (groupIds (reqIn .decode).ids 0) = none ∧ r.pickNode 0 = some 0 ∧ r.freeNode 0 = some (r, 0) := by
  have h : ∀ r : State, r.pickNode 0 = some 0 → r.freeNode 0 = some (r, 0) := by
    intro r hr; rw [State.freeNode, hr]
  have k : (({ ((serves [(0, reqIn .decode)]).odSetP 0x5100 4 0 1).odSetP 0x5100 0xC 0 0 with
    stk := { (((serves [(0, reqIn .decode)]).odSetP 0x5100 4 0 1).odSetP 0x5100 0xC 0 0).stk with
      online := [0], regions := [(0, 1), (1, 1), (2, 1), (3, 1)] } } : State)).pickNode 0 = some 0 := by decide +kernel
  exact ⟨by decide +kernel, k, h _ k⟩

/-- A submission of a prompt of one token, and a cancel. -/
def submitD : List Byte := bytes 128 ([0x40, 0, 0, 0, 1, 0, 0, 0, 9, 0, 0, 0, 0, 0, 0, 0, 0, 0, 0, 0, 0, 0, 0, 0, 1])
def cancelD : List Byte := bytes 128 [0x41, 0, 0, 0, 0, 0, 0, 0, 9]

theorem witness_RequestServing :
    let s := serves []
    let a := serves [(0, reqIn .admitting)]
    let w := serves [(0, reqIn .waiting)]
    let x := requestOf submitD s.clkTime
    submitD.length = 128 ∧ (s.takeDesc 0 submitD).submitCode 0 submitD x = 0 ∧ (s.takeDesc 0 submitD).freeReq 0 = some 0 ∧
    (s.takeDesc 0 cancelD).submitCode 0 cancelD x ≠ 0 ∧ (s.takeDesc 0 cancelD).submitCode 0 cancelD x ≠ 0x0101 ∧
    a.req 0 0 = some (reqIn .admitting) ∧ (reqIn .admitting).ids.length = (reqIn .admitting).promptLen ∧
    programReleased (a.part 0) = true ∧ swapping (a.part 0) = false ∧
    findIdx (fun i => decide ((a.part 0).manifest.vocab ≤ i)) (10 :: List.replicate 255 0) 0 = some (0, 10) ∧
    (∀ i ∈ (reqIn .admitting).ids, i < (a.part 0).manifest.vocab) ∧
    fieldN cancelD 0 1 = 0x41 ∧ clearBits (fieldN cancelD 1 1) 4 = 0 ∧ zeroRange cancelD 2 6 = true ∧
    zeroRange cancelD 24 104 = true ∧ fieldN submitD 0 1 ≠ 0x41 ∧ formed.leadRuns 0 = false ∧ w.leadRuns 0 = true ∧
    (w.part 0).reqs = [(0, reqIn .waiting)] ∧ readCodeOk 0x0A06 = true ∧ (w.part 0).endCode = 0 ∧ (w.part 0).cancels = [] ∧ (w.vf 0).descs = [] ∧
    1 ≤ w.odP 0x5000 4 0 := by decide +kernel
/-! ### Witnesses: model commands, host ports -/

/-- Partition 0 formed, its VF on Port A with bus mastering, one online stack, and a byte image at the store's start. -/
def stored (b : List Byte) : State :=
  let s := (vfd (fun f => { f with busMaster := true })).odSetP 0x3320 5 0 4
  { s with stk := { s.stk with online := [0], extents := [(0, 0), (1, 1), (2, 2), (3, 3)],
                               regions := [(0, 4)], mem := mwrite 0 [] 0 b } }

/-- A model command of 64 bytes: code, flags, handle, and a stage's length. -/
def modelCmd (opc flags h len : Byte) : List Byte := bytes 64 [opc, flags, h, 0, 0, 0, 0, 0, 0, 0, 0, 0, 0, 0, 0, 0, len]

/-- An addition without a program part, whose one section is empty. -/
def addition : List Byte :=
  bytes 96 ([0x47, 0x56, 0x58, 0x48, 0, 1, 0, 0, 1, 0, 0, 0, 1, 0, 0, 0, 96] ++ List.replicate 47 0 ++ [3, 1])

/-- That addition staged in handle 0, a base installed from handle 1, and the model key. -/
def staged : State :=
  ((stored addition).modPart 0 (fun P => { P with
    program := some prog, keys := [(0, List.replicate 32 0)],
    handles := [(0, { st := 2, kind := 1, addr := 0, len := 96 }), (1, { st := 4, baseId := List.replicate 16 0 })] })).odSetP
    0x5200 7 0 1

theorem witness_ModelCommands_stage :
    let s := stored []
    ModelCommand s pf 0 (modelCmd 0x50 0 0 64) 0x50 ∧ (s.part 0).cmd = .none ∧ (handleOf (s.part 0) 0).st = 0 ∧
    s.sending 0 0 = false ∧ s.counted.hostReadBar 0 = 0 ∧ s.counted.storeRange 0 0 64 = some 0 ∧
    fieldN (modelCmd 0x50 0 0 64) 16 8 = 64 ∧ Admitted s pf 0x5200 1 0 ∧ modelReserved (modelCmd 0x50 3 0 64) = true ∧
    Admitted up pf 0x5200 1 0 ∧ up.counted.sealedFrom pf 0 = false ∧ up.counted.partState 0 ≠ 1 := by
  unfold ModelCommand Admitted; decide +kernel

/-- A queued or running partition command that holds field 0. -/
def fieldHeld (s : State) : State := { s with hub := { s.hub with acts := [Activity.mk (.partCmd 0x70 0) 1] } }

theorem witness_ModelCommands_install :
    let held := fieldHeld staged
    ModelCommand staged pf 0 (modelCmd 0x51 0 0 0) 0x51 ∧ (staged.counted.installCode 0 0 false).2 = 0 ∧
    (staged.counted.installCode 0 0 false).1.maintCode (staged.counted.installFields 0 0 0 0) = 0 ∧
    ((staged.counted.installCode 0 0 false).1.programCode 0 0 0 0).2 = 0 ∧
    ModelCommand held pf 0 (modelCmd 0x51 0 0 0) 0x51 ∧ (held.counted.installCode 0 0 false).2 = 0 ∧
    (held.counted.installCode 0 0 false).1.maintCode (held.counted.installFields 0 0 0 0) = 0x0801 ∧
    ((stored []).counted.installCode 0 0 false).2 ≠ 0 ∧ ModelCommand (stored []) pf 0 (modelCmd 0x51 0 0 0) 0x51 := by
  unfold ModelCommand Admitted; decide +kernel

theorem witness_ModelCommands_rest :
    let s := stored []
    let st (n : Nat) := s.modPart 0 (fun P => { P with handles := [(0, { st := n })] })
    let run (c : ModelCmd) := s.modPart 0 (fun P => { P with cmd := c })
    ModelCommand s pf 0 (modelCmd 0x52 0 0 0) 0x52 ∧ ModelCommand (st 1) pf 0 (modelCmd 0x52 0 0 0) 0x52 ∧
    (handleOf ((st 1).part 0) 0).st = 1 ∧ ModelCommand (run (.stage 0 0 0 64 0 none false)) pf 0 (modelCmd 0x53 0 0 0) 0x53 ∧
    ModelCommand (run (.install 0 0 0 false false 6 0)) pf 0 (modelCmd 0x53 0 0 0) 0x53 ∧
    ModelCommand s pf 0 (modelCmd 0x53 0 0 0) 0x53 ∧
    ModelCommand (run (.install 0 0 0 false false 6 0)) pf 0 (modelCmd 0x50 0 0 64) 0x50 := by
  unfold ModelCommand Admitted; decide +kernel

/-- A base whose one weights section holds, encrypted by AES-256-XTS under a key of zeros, a record for the tile at the
origin: the header of a burst of row 0 of array 0, and the first eight bytes 0xE4 of the row. -/
def weights : List Byte :=
  bytes 72 ([0x47, 0x56, 0x58, 0x48, 0, 1, 0, 0, 0, 0, 0, 0, 1, 0, 0, 0, 144] ++ List.replicate 47 0 ++ [3, 1]) ++
    bytes 24 [96, 0, 0, 0, 0, 0, 0, 0, 48] ++
    [0x61, 0x8d, 0xdb, 0x3b, 0xb8, 0x69, 0xdf, 0xfb, 0xfd, 0xaf, 0xc7, 0x79, 0x87, 0xb2, 0x6e, 0x90, 0x34, 0x54, 0xdd, 0x49,
     0xeb, 0xd8, 0xd8, 0xee, 0x6f, 0x94, 0xb6, 0x5c, 0xbe, 0x15, 0x8f, 0x73, 0xe9, 0x09, 0x7f, 0x3d, 0x3b, 0x8e, 0x9e, 0xca,
     0x3d, 0x51, 0xbc, 0x5a, 0xcd, 0x0c, 0x99, 0xc1]

/-- That base installed from handle 0. -/
def installed : State :=
  ((stored weights).modPart 0 (fun P => { P with
    program := some prog, keys := [(0, List.replicate 64 0)], baseArrays := [(t0, 0)],
    handles := [(0, { st := 4, addr := 0, len := 144 })] })).odSetP 0x5200 7 0 0

theorem witness_ModelLoading_rejuvenation :
    installed.partOfTile t0 = some 0 ∧ (t0, 0) ∈ (installed.part 0).baseArrays ∧
    (handleOf (installed.part 0) (if (installed.part 0).addArrays.contains (t0, 0) then installed.odP 0x5200 8 0
      else installed.odP 0x5200 7 0)).st = 4 ∧
    (handleOf ((stored []).part 0) 0).st ≠ 3 ∧ (handleOf ((stored []).part 0) 0).st ≠ 4 ∧
    installed.storedRow 0 t0 0 0 = some (136, 0, bytes 256 (List.replicate 8 0xE4)) ∧
    (let s := installed.modCb t0 (fun cb => { cb with boundary := true })
     let T := s.tile t0
     let x := T.cb.arr 0
     (T.quiet || !T.cb.boundary || !arrayIdle x || !writeFree T.cb || x.burst.isSome || x.closing.isSome || x.failed ||
        refreshWaits T.cb || s.calibrationWaits t0 || s.hub.away || s.activating || s.odP 0x7000 7 0 != 0) = false ∧
     (s.meetRange 0 0 136 256).2 = 0 ∧ (({ s with stk := { s.stk with bad := [3] } } : State).meetRange 0 0 136 256).2 ≠ 0 ∧
     (s.rejuvenating (fieldOfTile t0)).isSome = true ∧ ((fieldHeld s).rejuvenating (fieldOfTile t0)).isSome = false) ∧
    ((installed.modTile t0 (fun T => { T with quiet := true })).tile t0).quiet = true := by decide +kernel

theorem witness_ModelLoading :
    let s := stored []
    let run (l : SMap Request) (c : ModelCmd) := s.modPart 0 (fun P => { P with cmd := c, reqs := l })
    let a := run [] (.stage 0 0 0 96 64 none false)
    let i := run [] (.install 0 0 0 false false 9 0)
    (a.part 0).cmd = .stage 0 0 0 96 64 none false ∧ 64 + ([1] : List Byte).length < 96 ∧
    (a.stackWrite 0 ((handleOf (a.part 0) 0).addr + 64) [1] []).2.2 = 0 ∧
    ((run [(0, reqIn .decode)] (.install 0 0 0 false false 6 0)).part 0).reqs ≠ [] ∧
    ((run [] (.install 0 0 0 false false 6 0)).part 0).reqs = [] ∧
    ((i.rewriteFailed 0 0 (i.frameOf 0 0 0 0) []).part 0).rowsBad = [] ∧
    (i.rewriteFailed 0 0 (i.frameOf 0 0 0 0) []).odEff 0x5200 5 0 ≠ 1 := by decide +kernel
/-! ### Witnesses: host ports -/

/-- A VF whose ring can be enabled, and one whose ring runs. -/
def ready : Function := { neg := 0x0100, busMaster := true, sqBase := 0x10000, cqBase := 0x20000, shadow := 0x30000 }
def running : Function := { ready with en := true, fetching := true, sqTail := 8 }

theorem witness_HostRings :
    let off := vfd (fun _ => ready)
    let on := vfd (fun _ => running)
    let full := vfd (fun _ => { running with held := [List.replicate 64 0], cqTail := 16 })
    off.bound .a 1 = true ∧ (off.fn .a 1).en = false ∧ (0x01000100 : Word).toNat % 65536 ≤ min 0x0100 (off.odG 0x1010 1) ∧
    off.odG 0x1011 1 ≤ min 0x0100 (off.odG 0x1010 1) ∧ min 0 (off.odG 0x1010 1) < (0x00000100 : Word).toNat % 65536 ∧
    (on.fn .a 1).en = true ∧ off.enableFails .a 1 = none ∧ (off.fn .a 1).held = [] ∧ (formed.fn .a 1).neg = 0 ∧
    ((16 : Word).toNat % 65536 + 65536 - 0) % 65536 ≤ 2 ^ 4 ∧ 2 ^ 4 < ((17 : Word).toNat % 65536 + 65536 - 0) % 65536 ∧
    (0 + 65536 - (0xFFF0 : Word).toNat % 65536) % 65536 ≤ 2 ^ 4 ∧ 2 ^ 4 < (0 + 65536 - (0xFFEF : Word).toNat % 65536) % 65536 ∧
    (full.fn .a 1).held = [List.replicate 64 0] ∧ full.ringsMove .a 1 = true ∧
    (16 + 65536 - (1 : Word).toNat % 65536) % 65536 < 2 ^ 4 ∧ (full.fn .a 1).coalCnt ≤ (full.fn .a 1).unsignalled + 1 := by
  decide +kernel

theorem witness_HostRings_fetch :
    let on := vfd (fun _ => running)
    let blocked := vfd (fun _ => { running with blocked := true })
    let coal := vfd (fun _ => { running with unsignalled := 1, coalTime := 5 })
    on.ringsMove .a 1 = true ∧ (on.fn .a 1).fetching = true ∧ (on.fn .a 1).blocked = false ∧ (on.fn .a 1).reading = none ∧
    0 < fetchCount (on.fn .a 1) ∧ on.standby = false ∧ (blocked.fn .a 1).blocked = true ∧ 1 ≤ sqWaiting (on.fn .a 1) ∧
    0 < (coal.fn .a 1).unsignalled ∧ (coal.fn .a 1).coalTime ≠ 0 ∧ on.bound .b 1 = false ∧ on.bound .a 32 = true := by
  decide +kernel

theorem witness_HostReads :
    let rd := vfd (fun _ => { running with reading := some 8 })
    let again := vfd (fun _ => { running with reading := some 8, retrying := [.fetch 1] })
    let ask := rd.modPart 0 (fun P => { P with reqs := [(0, reqIn .admitting)], cmd := .stage 0 0 0 96 0 none false })
    let ide := vfd (fun _ => { running with ideSet := some 0 })
    rd.bound .a 1 = true ∧ (rd.fn .a 1).reading = some 8 ∧ HostReadUse.fetch 1 ∉ (rd.fn .a 1).retrying ∧
    HostReadUse.fetch 1 ∈ (again.fn .a 1).retrying ∧ (formed.fn .a 1).reading = none ∧
    ask.req (1 - 1) 0 = some (reqIn .admitting) ∧ (reqIn .admitting).fromStack = false ∧
    (ask.part (1 - 1)).cmd = .stage 0 0 0 96 0 none false ∧ (rd.fn .a 1).ideSet = none ∧ (ide.fn .a 1).ideSet ≠ none := by
  decide +kernel

theorem witness_ControlLock :
    let s (h : Nat) (w : Bool) : State := { formed with hub := { formed.hub with lockHolder := h, leaseWarned := w } }
    (s 0 false).hub.lockHolder = 0 ∧ (s 1 false).hub.lockHolder = 1 + portNum .a ∧ (s 2 false).hub.lockHolder ≠ 0 ∧
    (s 2 false).hub.lockHolder ≠ 1 + portNum .a ∧ (s 3 false).hub.leaseWarned = false ∧ (s 3 false).hub.lockHolder = 3 ∧
    (s 1 true).hub.leaseWarned = true := by decide +kernel

theorem witness_FunctionsAndLinks :
    let on := vfd (fun _ => running)
    let z : State := { formed.modPart 0 (fun P => { P with port := 1 }) with hub := { formed.hub with vstby := true } }
    (formed.fn .a 1).held = [] ∧ (formed.fn .a 1).en = false ∧ (on.fn .a 1).en = true ∧ (on.fn .a 1).busMaster = true ∧
    BarMisuse.badSize ≠ .unboundVf ∧ z.bound .a 1 = false ∧ formed.bound .a 1 = true ∧ formed.hub.away = false ∧
    formed.partState (1 - 1) = 1 ∧ 0 ∈ formed.portParts .a ∧ formed.portParts .b = [] ∧ formed.hub.vstby = true ∧
    (formed.odSet 0x7102 1 0).odG 0x7102 1 = 0 ∧ formed.odG 0x7102 1 = 1 ∧ formed.hub.startDue = none := by decide +kernel
/-! ### Witnesses: the dictionary -/

/-- A start that finds everything in order, and a command's environment with it. -/
def goodStart : StartEnv :=
  { refclk := true, modRstLow := false, romKeyOk := true, imageOk := true, imageDigestNew := false, stacksOffline := [],
    fieldsFailed := [], failedArrays := [], ethNSel := false, ethSSel := false, stackSizes := [], ethNClk := true,
    ethSClk := true, trims := [], failedPhases := [], linksPassed := [] }
def goodEnv : CmdEnv := { start := goodStart, romKeyOk := true, imageOk := true, sig := .valid }

/-- The module with version 0x0100 in force with the PF and a network peer. -/
def talks : State :=
  { formed with hub := { formed.hub with versions := [(pf, 0x0100), (.net 1 2, 0x0100)], peers := [(1, 2)] } }

/-- A network peer. -/
def net : Caller := .net 1 2

theorem witness_DictionaryRequests :
    let neg := msg 0 0 0 0 0xFF [0, 1, 0, 1]
    let low := msg 0 0 0 0 0xFF [0, 1, 0, 2]
    startOk goodEnv.start = true ∧ Asks talks pf neg ∧ Asks talks net neg ∧ formBad neg = false ∧ neg.len = 4 ∧
    fieldN neg.value 2 2 ≤ min (fieldN neg.value 0 2) (talks.odG 0x1010 2) ∧
    talks.odG 0x1011 2 ≤ min (fieldN neg.value 0 2) (talks.odG 0x1010 2) ∧
    min (fieldN low.value 0 2) (talks.odG 0x1010 2) < fieldN low.value 2 2 ∧ formBad { neg with status := 1 } = true ∧
    talks.versionOf pf = some 0x0100 ∧ up.versionOf pf ≠ some 0x0100 ∧ talks.hub.peers.length < 16 := by
  have h : ∀ (s : State) (m : DictMsg), s.mayCall net = true → m.len = m.value.length → m.value.length ≤ 4072 →
      s.hub.kept.find? (fun e => e.1 == net && e.2.1 == m.seq) = none → s.rateOf 1 2 < 1000 → Asks s net m := by
    intro s m a b c d e
    refine ⟨by decide +kernel, a, b, c, d, ?_⟩
    intro x y hxy
    rw [net, Caller.net.injEq] at hxy
    rw [← hxy.1, ← hxy.2]; exact e
  have k : ∀ (s : State) (m : DictMsg), s.mayCall pf = true → m.len = m.value.length → m.value.length ≤ 4072 →
      s.hub.kept.find? (fun e => e.1 == pf && e.2.1 == m.seq) = none → Asks s pf m := by
    intro s m a b c d
    refine ⟨by decide +kernel, a, b, c, d, ?_⟩
    intro x y hxy; simp [pf] at hxy
  refine ⟨by decide +kernel, k _ _ ?_ ?_ ?_ ?_, h _ _ ?_ ?_ ?_ ?_ ?_, ?_⟩ <;> decide +kernel

theorem witness_DictionaryRequests_entries :
    let s1 := talks.taken pf
    let m := msg 0x0100 0x5100 3 0 0 []
    (odFind 0x5100 3).any (fun r => !isText r.ty && typeCode r.ty == 0x01 && !isCommand r 3 && r.idx == 0x5100) = true ∧
    formBad m = false ∧ s1.accessCode pf m false = 0 ∧ s1.accessCode pf m true = 0 ∧ talks.versionOf pf = some m.pver ∧
    targetPart pf m = 0 ∧ foreign pf 0x5100 3 0 = false ∧ callerPart pf = none ∧ (s1.entryNum 0x5100 3 0).isSome = true ∧
    s1.gate pf 0x5100 3 0 false = 0 ∧ s1.gate pf 0x5100 3 0 true = 0 ∧ (odFind 0x1230 1).isSome = true ∧
    s1.gate pf 0x1230 1 0xFF false ≠ 0 ∧ s1.gate pf 0x5100 5 0 true ≠ 0 ∧
    (odFind 0x5100 5).any (fun r => !isFormCode (State.writeEntry pf r 5 0 0 (typeCode r.ty) (List.replicate 8 0) goodEnv s1).2) = true ∧
    (odFind 0x5100 3).any (fun r => inRange r 1 && !inRange r 2) = true ∧
    (odFind 0x1230 1).any (fun r => isCommand r 1 && typeSize r.ty == 2) = true ∧
    (s1.writeCommand pf 0x1230 1 0xFF 0 [0, 0] goodEnv).2 = 0x0003 := by
  decide +kernel

theorem witness_DictionaryCallers :
    let m := msg 0x0100 0x5100 3 0 0 []
    let r := { m with resp := true }
    let kept : State := { talks with hub := { talks.hub with kept := [(pf, 7, 2, r)] } }
    let sealed0 := talks.odSet 0x4102 1 1
    let busy := vfd (fun f => { f with mbBusy := true })
    callerOk pf = true ∧ State.reset.mayCall pf = false ∧ kept.mayCall pf = true ∧ m.len = m.value.length ∧
    kept.hub.kept.find? (fun e => e.1 == pf && e.2.1 == m.seq) = some (pf, m.seq, 2, r) ∧ talks.hub.away = false ∧
    (1, 2) ∈ talks.hub.peers ∧ (1, 3) ∉ talks.hub.peers ∧ formed.bound .a 1 = true ∧ bit (0x80000018 : Word).toNat 31 = true ∧
    bit (0x18 : Word).toNat 31 = false ∧ (busy.fn .a 1).mbBusy = true ∧ (formed.fn .a 1).mbBusy = false ∧
    (0x80000018 : Word).toNat % 8192 = 24 ∧ 4096 < (0x80001001 : Word).toNat % 8192 ∧ formed.serving = true ∧
    State.reset.serving = false ∧ Admitted talks pf 0x1230 1 0xFF ∧ sealed0.isSealed 0 = true ∧
    Admitted sealed0 pf 0x1230 1 0xFF := by unfold Admitted; decide +kernel

theorem witness_DictionaryCallers_factory :
    (∀ p, p < 32 → talks.isSealed p = false) ∧ talks.activating = false := by
  constructor
  · have h : ∀ p : Fin 32, talks.isSealed p.val = false := by decide +kernel
    intro p hp; exact h ⟨p, hp⟩
  · decide +kernel

theorem witness_RegisterWrites :
    let on := vfd (fun _ => running)
    tileOk t0 = true ∧ (0x00C : Nat) ≠ 0x008 ∧ (0xFFC : Nat) < 0x1000 ∧ formed.bound .a 1 = true ∧ (formed.fn .a 1).en = false ∧
    (on.fn .a 1).en = true ∧ (0x1000 : Nat) % 4 = 0 ∧ (0x37FC : Nat) < 0x3800 ∧ (0x1001 : Nat) % 4 ≠ 0 ∧
    formed.bound .b 1 = false := by decide +kernel

/-- A partition command of 8 bytes. -/
def partCmd (opc : Byte) : List Byte := bytes 8 [opc]

/-- Partition 0 planned on field 0 and absent. -/
def planned : State := up |>.odSet 0x4001 1 1 |>.odSet 0x2101 1 0 |>.odSet 0x7103 1 0

theorem witness_PartitionCommands :
    let held := fieldHeld planned
    let scrub := parted (fun P => { P with scrubTo := some 0 })
    let dead := parted (fun P => { P with claim := some [] })
    PartCommand planned pf (partCmd 0x70) 0x70 0 ∧ planned.counted.formCode 0 = 0 ∧
    planned.counted.maintCode (planned.counted.odG 0x4001 1) = 0 ∧ (formed.counted.formCode 0 ≠ 0) ∧
    PartCommand formed pf (partCmd 0x70) 0x70 0 ∧ PartCommand held pf (partCmd 0x70) 0x70 0 ∧ held.counted.formCode 0 = 0 ∧
    held.counted.maintCode (held.counted.odG 0x4001 1) = 0x0801 ∧ PartCommand formed pf (partCmd 0x71) 0x71 0 ∧
    PartCommand formed pf (partCmd 0x72) 0x72 0 ∧ formed.partState 0 = 1 ∧ formed.counted.maintCode (formed.counted.partMask 0) = 0 ∧
    planned.partState 0 ≠ 1 ∧ planned.partState 0 ≠ 2 ∧ (dead.part 0).claim ≠ none ∧ (formed.part 0).scrubTo = none ∧
    (scrub.part 0).scrubTo = some 0 := by unfold PartCommand Admitted; decide +kernel

theorem witness_PartitionCommands_form :
    let many := planned.odSetP 0x5000 2 0 9000
    (planned.counted.formPart 0).2 = 0 ∧ (many.counted.formPart 0).2 = 0x010B := by decide +kernel

theorem witness_SpdmAndSessions :
    let at' (n : Nat) (x : Option Session) := vfd (fun f => { f with spdm := n, session := x })
    let open' : Session := { mutualAsked := true }
    let est : Session := { established := true }
    State.reset.spdmOn = false ∧ formed.spdmOn = true ∧ (formed.fn .a 1).session = none ∧
    ((at' 3 (some open')).fn .a 1).session ≠ none ∧ (formed.fn .a 1).spdm = 0 ∧ 1 ≤ ((at' 1 none).fn .a 1).spdm ∧
    2 ≤ ((at' 2 none).fn .a 1).spdm ∧ 3 ≤ ((at' 3 none).fn .a 1).spdm ∧ 0 < (formed.setBlobP 0x4100 1 0xFF [1]).chain.length ∧
    (formed.measurement .a 1 0x10).isSome = true ∧ formed.measurement .a 1 0x55 = none ∧
    ((at' 3 (some open')).fn .a 1).session = some open' ∧ open'.established = false ∧ open'.mutualAsked = true ∧
    ((at' 3 (some est)).fn .a 1).session = some est ∧ est.established = true := by decide +kernel
/-! ### Witnesses: partition messages, the fabric -/

/-- Partition 0 with a claim and keys, its VF with an established session of a key. -/
def session (key claim : Option (List Byte)) (keys : SMap (List Byte)) (f : Function → Function) : State :=
  (vfd (fun g => f { g with session := some { established := true, key := key } })).modPart 0 (fun P =>
    { P with claim := claim, keys := keys })

/-- A partition message: OP, SLOT, LEN and the key bytes. -/
def partMsg (op slot len : Byte) (n : Nat) : List Byte := bytes 8 [op, slot, len] ++ List.replicate n 0

theorem witness_PartitionMessages :
    let k : List Byte := [1, 2]
    let own := session (some k) (some k) [] id
    let used := (session (some k) (some k) [(0x10, List.replicate 32 0)] (fun f => { f with ideSet := some 0 }))
    formed.bound .a 1 = true ∧ formed.spdmOn = true ∧ (formed.fn .a 1).session = none ∧
    messageBad (partMsg 1 0 0 0) = false ∧ messageBad (partMsg 2 0 64 64) = false ∧ messageBad (partMsg 2 0x10 32 32) = false ∧
    messageBad (partMsg 3 0 0 0) = false ∧ messageBad (partMsg 6 0 0 0) = false ∧
    (own.fn .a 1).session = some { established := true, key := some k } ∧ own.partState 0 = 1 ∧
    (session (some k) none [] id).partState 0 = 1 ∧ ((session (some k) none [] id).part 0).claim = none ∧
    (own.part 0).claim ≠ none ∧ keySlotOk 0 = true ∧ keySlotOk 4 = false ∧ ((partMsg 2 0 64 64).drop 8).length = keyLen 0 ∧
    ((partMsg 2 0x10 32 32).drop 8).length = keyLen 0x10 ∧ used.slotInUse 0 0x10 = true ∧ own.slotInUse 0 0 = false ∧
    own.resetRuns 0 = false ∧
    ({ own with hub := { own.hub with acts := [Activity.mk (.partCmd 0x71 0) 1] } } : State).resetRuns 0 = true := by
  decide +kernel

theorem witness_PartitionMessages_ide :
    let k : List Byte := [1, 2]
    let link : List Byte := List.replicate 32 0
    let s := session (some k) (some k) [(0x10, link)] id
    let six := session (some k) (some k) [(0x10, link)] (fun f =>
      { f with ideKeys := [(0, link), (1, link), (2, link), (4, link), (5, link), (6, link)] })
    s.claimantSession .a 1 = true ∧ formed.claimantSession .a 1 = false ∧ mfind (s.part 0).keys (0x10 + 0) = some link ∧
    (ideKey link .a 1 0 0).length = 32 ∧ link.length = 32 ∧ link ≠ ideKey link .a 1 0 0 ∧
    setProgrammed (six.fn .a 1) 0 = true ∧ setProgrammed (s.fn .a 1) 0 = false ∧ (six.fn .a 1).held = [] := by decide +kernel

/-- The device 5 of the fabric, with peer 9 in version 0x0100, and streams. -/
def onFabric (tx : SMap TxStream) (rx : SMap RxStream) : State :=
  let s := (stored []).odSet 0x6100 6 1
  { s with fabric := { devId := 5, peers := [Peer.mk 9 0x0100 1 0 0], tx := tx, rx := rx } }

/-- A packet of peer 9 to the device. -/
def pkt (payload : List Byte) : FalramPkt :=
  { link := 0, vmaj := 1, vmin := 0, enc := false, mcast := false, kslot := 0, last := false, srcDev := 9, dst := 5, stream := 7,
    psn := 0, offset := 0, len := payload.length, status := 0, res3 := 0, res28 := 0, payload := payload, address := 0,
    icv := [], crc := 0 }

/-- A packet of a type with its CRC. -/
def signed (typ : Nat) (p : FalramPkt) : FalramPkt := { p with crc := crc32c (packetBytes typ p) }

/-- The one packet of data of a stream of 96 bytes. -/
def dataP : FalramPkt := { pkt (List.replicate 96 1) with psn := 1, last := true }

/-- A sending stream to peer 9, or to group 3, and a receiving one. -/
def sends (group : Bool) (phase next : Nat) (l : List Receiver) : TxStream :=
  { handle := 0, group := group, dst := if group then 3 else 9, stream := 7, enc := false, kslot := 0, len := 96,
    chain := false, phase := phase, receivers := l, next := next, sent := [(0, (1, 0))] }
def takes : RxStream := { src := 9, stream := 7, group := none, enc := false, kslot := 0, len := 96, cum := 1 }

/-- A partition that stages from device 9. -/
def staging (s : State) (src got : Nat) : State := s.modPart 0 (fun P => { P with cmd := .stage 0 src 9 96 got none false })

theorem fromPeer (s : State) (typ : Nat) (p : FalramPkt) (e : Peer) (h : Comes s typ p) (k : s.peer p.srcDev = some e)
    (v : e.ver = p.vmaj * 256 + p.vmin) : FromPeer s typ p := ⟨h, e, k, v⟩

theorem witness_FabricPackets_hello :
    let hi := signed 1 { pkt (leBytes 2 0x0100 ++ leBytes 2 0x0100 ++ leBytes 12 1) with vmaj := 0 }
    let low := signed 1 { pkt (leBytes 2 0x0100 ++ leBytes 2 0x0200 ++ leBytes 12 1) with vmaj := 0 }
    let s := onFabric [] []
    formed.fabricOn = false ∧ s.fabricOn = true ∧ s.linkExists 0 = true ∧ s.linkExists 1 = false ∧
    Comes s 1 hi ∧ hi.srcDev ≠ s.fabric.devId ∧ fieldN hi.payload 2 2 ≤ min (fieldN hi.payload 0 2) (s.odG 0x1010 3) ∧
    s.odG 0x1011 3 ≤ min (fieldN hi.payload 0 2) (s.odG 0x1010 3) ∧ (s.peer hi.srcDev).isSome = true ∧ Comes s 1 low ∧
    min (fieldN low.payload 0 2) (s.odG 0x1010 3) < fieldN low.payload 2 2 ∧
    Comes { s with fabric := { s.fabric with peers := [] } } 5 (signed 5 { pkt [1] with psn := 1 }) ∧ packetOk hi = true ∧
    crcOk 1 (pkt []) = false ∧ crcOk 1 (signed 1 { hi with dst := 6 }) = true ∧ hi.mcast = false ∧
    ({ hi with dst := 6 } : FalramPkt).dst ≠ s.fabric.devId := by unfold Comes; decide +kernel

theorem witness_FabricPackets_peer :
    let s := onFabric [] []
    FromPeer s 2 (signed 2 (pkt (leBytes 4 1))) ∧ FromPeer s 5 (signed 5 dataP) ∧
    FromPeer s 6 (signed 6 (pkt (leBytes 4 2 ++ List.replicate 36 0))) ∧
    FromPeer s 7 (signed 7 { pkt (leBytes 4 0) with status := 0x0B02 }) ∧ FromPeer s 8 (signed 8 { pkt [] with status := 0x0B0A }) ∧
    FromPeer s 4 (signed 4 (pkt (leBytes 16 96))) ∧ FromPeer s 3 (signed 3 { pkt [] with mcast := true, dst := 3 }) := by
  refine ⟨?_, ?_, ?_, ?_, ?_, ?_, ?_⟩ <;>
    exact fromPeer _ _ _ (Peer.mk 9 0x0100 1 0 0) (by unfold Comes; decide +kernel) (by decide +kernel) (by decide +kernel)

theorem witness_FabricPackets_streams :
    let join := { pkt [] with mcast := true, dst := 3 }
    let g (phase : Nat) (l : List Receiver) := onFabric [(0, sends true phase 0 l)] []
    let r := onFabric [] [(0, takes)]
    let d := dataP
    let far := { d with psn := 2049, offset := 2048 * 8192 }
    let locked := r.odSetP 0x6111 2 0 1
    let c := { pkt [] with status := 0x0B0A }
    (g 1 []).groupTx join.dst = some (0, sends true 1 0 []) ∧ mfind (g 1 []).fabric.tx 0 = some (sends true 1 0 []) ∧
    (sends true 1 0 [{ dev := 9 }]).receivers.any (fun r => r.dev == join.srcDev) = true ∧
    (g 1 [{ dev := 9 }]).groupTx join.dst = some (0, sends true 1 0 [{ dev := 9 }]) ∧
    (g 2 []).groupTx join.dst = some (0, sends true 2 0 []) ∧ (sends true 2 0 []).phase ≠ 1 ∧ (onFabric [] []).rxFor (pkt []) = none ∧ (onFabric [] []).openFor (pkt []) = none ∧
    (staging (onFabric [] []) 2 0).openFor (pkt []) = some 0 ∧
    Clear ((staging (onFabric [] []) 2 0).heard (pkt [])) 4 0 (pkt (leBytes 16 96)) (leBytes 16 96) ∧
    Clear ((staging (onFabric [] []) 2 0).heard (pkt [])) 4 0 (pkt (leBytes 16 95)) (leBytes 16 95) ∧
    mfind (staging (onFabric [] []) 2 0).fabric.rx 0 = none ∧
    fieldN (leBytes 16 96) 0 8 = stageLen ((staging (onFabric [] []) 2 0).part 0) ∧
    fieldN (leBytes 16 95) 0 8 ≠ stageLen ((staging (onFabric [] []) 2 0).part 0) ∧
    r.rxFor d = some (0, takes) ∧ Clear (r.heard d) 5 0 d d.payload ∧ takes.cum ≤ d.psn ∧ d.psn < takes.cum + 2048 ∧
    takes.sack.contains d.psn = false ∧
    d.psn = packetsOf takes.len ∧ d.offset + d.payload.length = takes.len ∧ d.last = (d.psn == packetsOf takes.len) ∧
    Clear (r.heard far) 5 0 far far.payload ∧ packetBad 5 far = false ∧ takes.cum + 2048 ≤ far.psn ∧
    d.psn < ({ takes with cum := 2 } : RxStream).cum ∧ takes.unacked < 31 ∧
    locked.rxFor d = some (0, takes) ∧ (locked.heard d).clearPayload 5 0 d = none ∧
    r.rxFor c = some (0, takes) ∧ Clear (r.heard c) 8 0 c [] ∧
    rxOpen takes = true ∧ ((staging r 2 0).part 0).cmd ≠ .none := by unfold Clear; decide +kernel

theorem witness_FabricPackets_acks :
    let t := sends false 3 2 [{ dev := 9, cum := 1 }]
    let s := onFabric [(0, t)] []
    let a := pkt (leBytes 4 2 ++ List.replicate 36 0)
    let n := { pkt (leBytes 4 0) with status := 0x0B02 }
    let late := pkt (leBytes 4 3 ++ List.replicate 36 0)
    (onFabric [] []).txFor a = none ∧ s.txFor a = some (0, t) ∧ mfind s.fabric.tx 0 = some t ∧
    Clear (s.heard a) 6 0 a a.payload ∧ Clear (s.heard late) 6 0 late late.payload ∧ t.next < fieldN late.payload 0 4 ∧
    Clear (s.heard n) 7 0 n n.payload ∧ t.phase ≠ 1 ∧ t.chain = false ∧ (onFabric [] []).txFor n = none ∧ t.next = packetsOf t.len + 1 ∧ fieldN a.payload 0 4 = t.next ∧
    sackOf (fieldN a.payload 0 4) (sliceB a.payload 8 32) = [] ∧ s.txFor n = some (0, t) ∧
    (staging (onFabric [] []) 1 0).joiner = some 0 ∧
    Clear (staging (onFabric [] []) 1 0) 7 0 { n with status := 0x0B09 } n.payload := by unfold Clear; decide +kernel

theorem witness_FabricTimersAndSends :
    let t := sends false 3 2 [{ dev := 9, cum := 0 }]
    let s := onFabric [(0, t)] []
    let r := onFabric [] [(0, takes)]
    let join := onFabric [(0, sends true 1 0 [{ dev := 9 }])] []
    (onFabric [] []).streamsWith 9 = false ∧ s.streamsWith 9 = true ∧ mfind r.fabric.rx 0 = some takes ∧ takes.unacked = 0 ∧
    ({ takes with unacked := 1 } : RxStream).unacked ≠ 0 ∧ mfind s.fabric.tx (0 + 32) = none ∧ mfind t.sent 0 = some (1, 0) ∧
    lacks 0 { dev := 9 } = true ∧ 1 ≤ s.odG 0x6100 0xA ∧ (s.odSet 0x6100 0xA 0).odG 0x6100 0xA < 1 ∧
    ((onFabric [] []).part 0).cmd = .none ∧ ((staging r 1 0).part 0).cmd = .stage 0 1 9 96 0 none false ∧
    mfind (staging (onFabric [] []) 1 0).fabric.rx 0 = none ∧ (sends true 1 0 [{ dev := 9 }]).phase = 1 ∧
    (∀ r ∈ (sends true 1 0 [{ dev := 9 }]).receivers, r.cum = 0) ∧ mfind join.fabric.tx 0 = some (sends true 1 0 [{ dev := 9 }]) ∧
    rxOpen takes = true ∧ ((staging r 2 0).part 0).cmd ≠ .none ∧ bit (s.odG 0x6100 6) 0 = true ∧ bit (s.odG 0x6100 6) 1 = false ∧
    s.linkExists 0 = true ∧ s.linkExists 1 = false ∧ s.linkClock 0 = true ∧ s.fabricOn = true ∧ linksOf (s.odG 0x6100 6) ≠ [] ∧
    ({ s with hub := { s.hub with ethNClk := false } } : State).linkClock 0 = false ∧ s.fabric.rx = [] ∧
    s.fabric.tx = [(0, t)] ∧ t.receivers = [{ dev := 9, cum := 0 }] := by decide +kernel

theorem witness_FabricTimersAndSends_rest :
    let s := (onFabric [] []).modPart 0 (fun P => { P with handles := [(0, { st := 2, len := 96 })] })
    let b := onFabric [(0, sends false 2 1 [{ dev := 9 }])] []
    let cmd (opc : Byte) : List Byte := bytes 32 [opc, 0, 0, 0, 9]
    s.netThere (some 0) = true ∧ State.reset.netThere none = false ∧ s.netThere none = true ∧
    (s.ownAddress (some 0) 0 = true ∨ s.ownAddress (some 0) 0 = false) ∧
    Admitted s pf 0x6110 1 0 ∧ sendReserved (cmd 0x60) = false ∧ s.counted.sealedFrom pf 0 = false ∧ s.counted.partState 0 = 1 ∧
    s.counted.standby = false ∧ mfind b.fabric.tx 0 ≠ none ∧ mfind s.fabric.tx 0 = none ∧
    (handleOf (b.part 0) 0).st = 0 ∧ (handleOf (s.part 0) 0).st = 2 ∧ s.counted.txRefusal 0 9 false = 0 ∧
    s.counted.txRefusal 0 8 false = 0x0B01 ∧ fieldN (cmd 0x61) 0 1 = 0x61 ∧
    mfind b.fabric.tx 0 = some (sends false 2 1 [{ dev := 9 }]) := by unfold Admitted; decide +kernel
/-! ### Witnesses: power, heat -/

/-- The module with its input measured. -/
def sampled : State := { formed with power := { formed.power with lastInput := some (480000, 100) } }

theorem witness_InputAndRails :
    let sag : State := { formed with power := { formed.power with sag := some (Sag.mk 0 400 100 false) } }
    let off : State := { formed with hub := { formed.hub with powered := false } }
    let lock : State := { off with hub := { off.hub with lockout := true } }
    formed.hub.vstby = true ∧ State.reset.hub.vstby = false ∧ formed.power.sag = none ∧ 1 < formed.odG 0x2000 7 ∧
    formed.odG 0x2000 7 ≤ 1000000 ∧ sag.power.sag = some (Sag.mk 0 400 100 false) ∧ formed.hub.powered = true ∧
    startOk goodEnv.start = true ∧ off.hub.powered = false ∧ off.hub.lockout = false ∧ lock.hub.lockout = true ∧
    phaseOk .vcore 0 = true ∧ Admitted formed pf 0x2000 6 0xFF := by unfold Admitted; decide +kernel

theorem witness_FieldsOnAndOff :
    let again := formed.modField 0 (fun x => { x with rearmedAt := some 0 })
    let due := (formed.odSet 0x2101 1 1).modField 0 (fun x => { x with })
    let q : State := { due with power := { due.power with switchQueue := [0] } }
    let cut := formed.odSet 0x2103 1 1
    formed.fieldState 0 = 0 ∧ (formed.odSet 0x2101 1 1).fieldState 0 = 1 ∧ (again.field 0).rearmedAt = some 0 ∧
    again.clkTime ≤ 0 + 1300000000 ∧ (formed.field 0).rearmedAt = none ∧ formed.partOfField 0 = some 0 ∧
    formed.partState 0 = 1 ∧ (formed.part 0).cmd = .none ∧ formed.odP 0x7000 7 0 = 0 ∧ phaseOk .vcore 0 = true ∧
    bit (formed.odG 0x2103 1) (railBase .vcore + 0) = false ∧ bit (cut.odG 0x2103 1) (railBase .vcore + 0) = true ∧
    phasesFatal (setBit 0 0 true) = false ∧ phasesFatal (setBit 7 3 true) = true ∧ q.nextOn 0 = true ∧ q.hub.powered = true ∧
    phasesFatal ((q.phaseTest 0 [0]).odG 0x2103 1) = false ∧ phasesFatal ((q.phaseTest 0 [0, 1, 2, 3]).odG 0x2103 1) = true ∧
    Instr.wf (.fieldReady 0 (ArrayReport.mk [] []) []) = true ∧ q.fieldState 0 ≠ 0 ∧ bit q.hub.fieldsDue 0 = false ∧ 0 ∈ planeFields (planeOf 0) ∧ formed.hub.away = false ∧
    (formed.odSet 0x2101 1 2).fieldState 0 = 2 ∧ formed.hub.vstby = true := by decide +kernel

theorem witness_HeatAndCoolant :
    let s := formed
    let thr := (s.odSet 0x2305 1 1).odSet 0x2302 1 36
    let hot := thr.odSet 0x2301 1 1150
    let capd := (s.odSet 0x2305 1 1).odSet 0x2302 1 8 |>.odSet 0x2301 1 1150
    let lost : State := { s with power := { s.power with coolantLost := true } }
    let out : State := { s with power := { s.power with outletHot := true } }
    s.hub.vstby = true ∧ s.fieldOn 0 = true ∧ s.odG 0x2305 1 = 0 ∧ s.throttleAt ≤ 1150 ∧ hot.throttled 0 = true ∧
    hot.heatEases 0 = false ∧ thr.heatEases 0 = true ∧ s.throttled 0 = false ∧ thr.odG 0x2305 1 = 1 ∧
    capd.throttled 0 = true ∧ capd.odG 0x2302 1 ≤ 8 ∧ capd.throttleAt ≤ capd.fieldTemp 0 ∧ capd.fieldTemp 0 ≠ 0 ∧
    s.hub.coolant = none ∧ s.power.coolantLost = false ∧ lost.power.coolantLost = true ∧ out.power.outletHot = true ∧
    s.hub.away = false ∧ s.hub.powered = true ∧ Admitted s pf 0x2306 1 0xFF := by unfold Admitted; decide +kernel

theorem witness_HeatAndCoolant_off :
    let s := formed
    let hot := ((s.odSet 0x2305 1 1).odSet 0x2302 1 36).odSet 0x2301 1 2000
    let free := ((up.odSet 0x2101 1 0).odSet 0x2305 1 1).odSet 0x2301 1 2000
    let out := (s.odSet 0x2305 1 3).modPart 0 (fun P => { P with cmd := .install 0 0 0 true true 6 0 })
    let dark : State := { (up.odSet 0x2305 1 4).odSet 0x2101 1 1 |>.modField 0 (fun x => { x with why := .heat }) with
      clkTime := 60 * 1300000000, hub := { up.hub with coolant := some (200, 300, 100) } }
    10 * (hot.odG 0x2300 3 : Int) ≤ hot.fieldTemp 0 ∧ hot.throttled 0 = true ∧ hot.partOfField 0 = some 0 ∧
    hot.partState 0 = 1 ∧ (hot.odSet 0x2305 1 3).evacuationFits 0 0 = false ∧ free.partOfField 0 = none ∧
    free.throttled 0 = true ∧ 10 * (free.odG 0x2300 3 : Int) ≤ free.fieldTemp 0 ∧ evacuating (out.part 0) = true ∧
    evacuating (s.part 0) = false ∧ (s.odSet 0x2305 1 3).fieldOn 0 = true ∧ 10 * (hot.odG 0x2300 4 : Int) ≤ hot.fieldTemp 0 ∧
    hot.fieldState 0 = 0 ∧ dark.darkForHeat 0 = true ∧ dark.fieldState 0 = 1 ∧ dark.coolEnough 0 = true ∧
    s.darkForHeat 0 = false ∧ s.inEmbers 0 = false := by decide +kernel

/-- The base of partition 0 stands in field 1, outside the hot field 0, and can move. -/
def movable : State :=
  (((staged.modPart 0 (fun P => { P with
    program := some { prog with ox := 20 },
    handles := [(0, { st := 3, kind := 1, addr := 0, len := 96, baseId := List.replicate 16 0 })] })).odSetP 0x5200 7 0 0).odSet
      0x4003 1 3).odSet 0x2101 2 0 |>.odSetP 0x2300 0x13 0 20 |>.odSet 0x2305 1 3

theorem witness_HeatAndCoolant_evacuation :
    movable.evacuationFits 0 0 = true ∧
    (movable.startInstall 0 (movable.odP 0x5200 7 0) (movable.odEff 0x2300 0x13 0 % 256) (movable.odEff 0x2300 0x13 0 / 256)
      true true []).2 = 0 := by decide +kernel

theorem witness_HeatAndCoolant_embers :
    let s := (up.odSet 0x2101 1 0).odSet 0x2300 0x11 1
    s.inEmbers 0 = true ∧ s.odG 0x2305 1 = 0 := by decide +kernel

theorem witness_TileRotation_starts :
    let s := (parted (fun P => { P with program := some { prog with tiles := [(formed.rowTile 0 0 3, 0, 0)] } }))
    let a := formed.rowTile 0 0 3
    s.mayRotate 0 0 3 1000 0 false = true ∧
    swapReady ((formed.modTile a (fun T => { T with cc := { T.cc with state := .waiting } })).tile a) = true ∧
    swapReady (formed.tile a) = false := by decide +kernel

theorem witness_TileRotation :
    let rot (ph : RotPhase) := formed.modField 0 (fun x => { x with rot := [(0, ph)] })
    mget RotPhase.idle ((rot (.copying 3)).field 0).rot 0 = .copying 3 ∧
    mget RotPhase.idle ((rot (.ready 3)).field 0).rot 0 = .ready 3 ∧ mget RotPhase.idle (formed.field 0).rot 0 = .idle ∧
    tileOk ((rot (.ready 3)).rowTile 0 0 3) = true ∧ ((rot (.ready 3)).router ((rot (.ready 3)).rowTile 0 0 3)).feed = [] ∧
    (∃ e ∈ ({ feed := [(.l, flit 0 0 0 [])] } : Router).feed, e.1 = Dir.l) ∧ formed.mayRotate 0 0 3 0 0 false = false := by decide +kernel
/-! ### Witnesses: start-up, resets, the hub -/

/-- The module unpowered, and waiting for its reference. -/
def hub (f : Hub → Hub) : State := { formed with hub := f formed.hub }

theorem witness_ClockAndResets :
    let waits := hub (fun h => { h with refclk := false, waitRef := true })
    let none' := hub (fun h => { h with refclk := false })
    let held := hub (fun h => { h with heldReset := true })
    let busy := hub (fun h => { h with activating := true })
    startOk goodStart = true ∧ formed.hub.vstby = true ∧ State.reset.hub.vstby = false ∧ State.reset.hub.lockout = false ∧
    goodStart.romKeyOk = true ∧ goodStart.modRstLow = false ∧ goodStart.refclk = true ∧
    (State.reset.losePower.bootable goodStart.imageOk).isSome = true ∧ none'.hub.refclk = false ∧ none'.hub.waitRef = false ∧
    waits.hub.waitRef = true ∧ waits.hub.modRst = false ∧ formed.hub.refclk = true ∧ formed.odG 0x2200 2 ≠ 0 ∧
    State.reset.odG 0x2200 2 = 0 ∧ formed.hub.powered = true ∧ formed.starting = false ∧ held.hub.heldReset = true ∧
    (held.odSet 0x7102 2 1).odG 0x7102 2 ≠ 0 ∧ held.odG 0x7102 2 = 0 ∧ Admitted formed pf 0x7100 1 0xFF ∧
    formed.counted.activating = false ∧ busy.counted.activating = true := by unfold Admitted; decide +kernel

theorem witness_HubRestarts :
    let r := hub (fun h => { h with restarting := true })
    let act := formed.odSet 0x1300 4 4
    let busy := hub (fun h => { h with activating := true })
    formed.mayRestart .command = false ∨ formed.mayRestart .command = true ∧
    State.reset.mayRestart .watchdog = false ∧ formed.mayRestart .watchdog = true ∧ formed.odG 0x1300 4 ≠ 3 ∧
    formed.odG 0x1300 4 ≠ 4 ∧ (formed.bootable true).any (fun im => im.digest == formed.hub.running.digest) = true ∧
    formed.hub.activating = false ∧ formed.canRestart = true ∧ State.reset.canRestart = false ∧ formed.hub.vstby = true ∧
    Admitted formed pf 0x1130 5 0xFF ∧ act.odG 0x1300 4 = 4 ∧ Admitted (fieldHeld act) pf 0x1130 5 0xFF ∧
    (fieldHeld act).counted.activating = false ∧ (fieldHeld act).heldFields ≠ 0 ∧ (fieldHeld act).hub.queue.length < 32 ∧ (busy.odSet 0x1300 4 4).counted.activating = true ∧
    Admitted (busy.odSet 0x1300 4 4) pf 0x1130 5 0xFF ∧ formed.hub.restarting = false ∧ r.hub.restarting = true ∧
    r.hub.held = [] ∧ r.hub.heldLost = [] ∧ r.hub.resetsDue = 0 ∧ r.hub.startDue = none ∧ r.mesh.detour = .idle ∧
    r.mesh.detourQueue = [] ∧ r.odG 0x7102 1 = 1 := by unfold Admitted; decide +kernel

theorem witness_HubRestarts_quiet :
    (∀ p, p < 32 → (formed.part p).cmd = .none ∧ mfind formed.fabric.tx p = none) ∧
    (∀ port n, n ≤ 32 → ((hub (fun h => { h with restarting := true })).fn port n).mbBusy = false) := by
  constructor
  · have h : ∀ p : Fin 32, (formed.part p.val).cmd = .none ∧ mfind formed.fabric.tx p.val = none := by decide +kernel
    intro p hp; exact h ⟨p, hp⟩
  · have h : ∀ n : Fin 33, ((hub (fun h => { h with restarting := true })).fn .a n.val).mbBusy = false ∧
        ((hub (fun h => { h with restarting := true })).fn .b n.val).mbBusy = false := by decide +kernel
    intro port n hn
    cases port
    · exact (h ⟨n, Nat.lt_succ_of_le hn⟩).1
    · exact (h ⟨n, Nat.lt_succ_of_le hn⟩).2

/-- A log entry of severity 1. -/
def warn : LogEntry :=
  { time := 0, seq := 1, event := 0, status := 0, severity := 1, source := 0, field := 0xFF, part := 0xFF, data := [] }

theorem witness_FirmwareAndLogs :
    let begin' : List Byte := bytes 8 [1, 0, 0, 0, 0, 16]
    let buf (st : Nat) := (hub (fun h => { h with updLen := 4096 })).odSet 0x1300 4 st
    let log := hub (fun h => { h with ramLog := [warn] })
    let done := hub (fun h => { h with ramLog := [warn], flashLog := [warn] })
    Admitted formed pf 0x1300 3 0xFF ∧ begin'.length = 8 ∧ zeroRange begin' 1 3 = true ∧ fieldN begin' 0 1 = 1 ∧
    fieldN begin' 4 4 = 4096 ∧ fieldN (bytes 8 [1, 0, 0, 0, 255, 15]) 4 4 < 4096 ∧ formed.odG 0x1300 4 = 0 ∧
    (formed.odSet 0x1300 4 3).odG 0x1300 4 = 3 ∧ formed.hub.updLen = 0 ∧ (buf 1).hub.updLen ≠ 0 ∧ (buf 1).odG 0x1300 4 = 1 ∧
    Admitted formed pf 0x1300 2 0xFF ∧ 0 + ([1] : List Byte).length ≤ (buf 1).hub.updLen ∧
    log.hub.ramLog.find? (fun e => e.seq == 1 && decide (1 ≤ e.severity)) = some warn ∧ log.hub.away = false ∧
    (∃ e ∈ done.hub.flashLog, e.seq = 1) ∧ formed.hub.vstby = true ∧ State.reset.hub.vstby = false := by
  unfold Admitted; decide +kernel

theorem witness_Maintenance :
    let busy := formed.odSet 0x7100 2 1
    let off := formed.odSet 0x2101 1 1
    let held := fieldHeld off
    let stand := formed.odSet 0x7102 1 2
    startOk goodStart = true ∧ Admitted formed pf 0x7100 1 0xFF ∧ Admitted busy pf 0x7100 1 0xFF ∧ busy.odG 0x7100 2 ≠ 0 ∧
    formed.odG 0x7100 2 = 0 ∧ formed.odG 0x7102 1 = 1 ∧ stand.odG 0x7102 1 = 2 ∧ Admitted stand pf 0x7100 1 0xFF ∧
    up.counted.fieldUseCode 0x81 1 = 0 ∧ formed.counted.fieldUseCode 0x81 1 ≠ 0 ∧ formed.counted.maintCode 1 = 0 ∧
    held.counted.maintCode 1 = 0x0801 ∧ off.fieldState 0 = 1 ∧ off.counted.fieldUseCode 0x82 (2 ^ 0) = 0 ∧
    off.counted.fieldUseCode 0x80 (2 ^ 0) = 0 ∧ up.fieldState 0 = 1 ∧ Admitted up pf 0x7100 1 0xFF ∧
    formed.counted.maintCode everyField = 0 ∧ stand.counted.maintCode everyField = 0 := by unfold Admitted; decide +kernel

theorem witness_Maintenance_queue :
    let q (since : Nat) : Queued := Queued.mk (.fieldCmd 0x82) 1 since (fieldCmdBytes 0x82 1)
    let s (now since : Nat) : State := { hub (fun h => { h with queue := [q since] }) with clkTime := now }
    (formed.hub.queue[0]?).isNone = true ∧ firstStartable formed.heldFields 0 formed.hub.queue = none ∧
    firstStartable (s 0 0).heldFields 0 (s 0 0).hub.queue = some (q 0) ∧ (s 0 0).hub.queue[0]? = some (q 0) ∧
    (s 0 0).clkTime ≤ (q 0).since + (s 0 0).odG 0x7101 1 * 1300000000 ∧
    (q 0).since + (s (2 ^ 60) 0).odG 0x7101 1 * 1300000000 < (s (2 ^ 60) 0).clkTime := by decide +kernel

/-- An image of 512 bytes in the update buffer: its identifier, version, length and the digest of no bytes. -/
def imageHead : List Byte :=
  [0x47, 0x56, 0x58, 0x46, 0, 0, 0, 1, 0, 2, 0, 0, 0, 0, 0, 0, 0, 0, 0, 0, 0, 0, 0, 0, 0xe3, 0xb0, 0xc4, 0x42, 0x98,
   0xfc, 0x1c, 0x14, 0x9a, 0xfb, 0xf4, 0xc8, 0x99, 0x6f, 0xb9, 0x24, 0x27, 0xae, 0x41, 0xe4, 0x64, 0x9b, 0x93, 0x4c,
   0xa4, 0x95, 0x99, 0x1b, 0x78, 0x52, 0xb8, 0x55]

theorem witness_RotationHubAndUpdateForms :
    let buf := (hub (fun h => { h with updLen := 512, updBuf := mwrite 0 [] 0 imageHead })).odSet 0x1300 4 1
    let log := hub (fun h => { h with ramLog := [warn] })
    let act := formed.odSet 0x1300 4 4
    formed.mayRestart .command = true ∧ act.mayRestart .activation = true ∧ formed.canRestart = true ∧
    Admitted formed pf 0x1130 5 0xFF ∧ formed.odG 0x1300 4 ≠ 4 ∧ (hub (fun h => { h with restarting := true })).hub.restarting = true ∧
    Admitted formed pf 0x1300 3 0xFF ∧ formed.odG 0x1300 4 ≠ 3 ∧ Admitted buf pf 0x1300 2 0xFF ∧ Admitted buf pf 0x1300 3 0xFF ∧
    0 + ([1] : List Byte).length ≤ buf.hub.updLen ∧ buf.odG 0x1300 4 = 1 ∧ buf.imageCode .valid = 0 ∧
    (formed.odSet 0x1300 4 3).odG 0x1300 4 = 3 ∧ warn ∈ log.hub.ramLog ∧
    log.hub.ramLog.find? (fun x => x.seq == warn.seq && decide (1 ≤ x.severity)) = some warn ∧ log.hub.away = false ∧
    log.hub.flashLog = [] ∧ formed.hub.vstby = true := by unfold Admitted; decide +kernel

theorem witness_RotationHubAndUpdateForms_rows :
    let s := (parted (fun P => { P with program := some { prog with tiles := [(formed.rowTile 0 0 3, 0, 0)] } }))
    let rot (ph : RotPhase) := formed.modField 0 (fun x => { x with rot := [(0, ph)] })
    let t := formed.rowTile 0 0 3
    let w := (rot (.ready 3)).modTile t (fun T => { T with cc := { T.cc with state := .waiting } })
    let T := w.tile t
    s.fieldOn 0 = true ∧ s.hub.away = false ∧ 0 + 10 * (s.odG 0x2300 0xC : Int) ≤ 1000 ∧ s.retired 0 0 = none ∧
    mget RotPhase.idle (s.field 0).rot 0 = .idle ∧ s.hub.acts = [] ∧ bit s.queuedFields 0 = false ∧ s.activating = false ∧
    s.partOfField 0 = some 0 ∧ ((s.part 0).program.any (fun g => g.tiles.contains (s.rowTile 0 0 3, 0, 0))) = true ∧
    s.odP 0x7000 7 0 = 0 ∧ (s.tileRoutes 0 (s.rowTile 0 0 3)).all (fun r =>
      s.hasAlternate 0 r ((rowPlace 0 0 3).1 + 256 * (rowPlace 0 0 3).2)) = true ∧
    mget RotPhase.idle ((rot (.copying 3)).field 0).rot 0 = .copying 3 ∧ mget RotPhase.idle (w.field 0).rot 0 = .ready 3 ∧
    w.rowTile 0 0 3 = t ∧ tileOk t = true ∧ T.cc.state = .waiting ∧ T.cb.boundary = true ∧ T.cb.ready = [] ∧ T.tv.queue = [] ∧
    T.tv.drains = [] ∧ T.vu.queue = [] ∧ T.mv = [] ∧ T.tx = [] ∧ T.rx = [] ∧ (w.router t).feed = [] := by decide +kernel

/-! ### Witnesses: whole-model statements -/

theorem witness_LogicalTilePlace :
    formed.logical ⟨22, 21⟩ = some (21, 21) ∧ formed.rowMapGet 21 (21 / 20) (21 % 20) < 21 := by decide +kernel

theorem witness_RefreshRowFailsVerify :
    let s := tiled (fun T => { T with cb := { arrays := [(0, { refresh := .due })] } })
    Instr.wf (.refreshRow t0 0 false) = true ∧ refreshMay (s.tile t0) 0 = true := by decide +kernel

theorem witness_EveryStepKeepsCanonicalForm : Canon formed ∧ step formed = .next (idleTick formed) := by
  refine ⟨?_, rfl⟩
  constructor <;> decide +kernel

/-! ### Ill-formed commands, one for each check of WellFormed -/

/-- A start that finds nothing wrong. -/
def calmStart : StartEnv :=
  { refclk := true, modRstLow := false, romKeyOk := true, imageOk := true, imageDigestNew := false, stacksOffline := [],
    fieldsFailed := [], failedArrays := [], ethNSel := false, ethSSel := false, stackSizes := [], ethNClk := true,
    ethSClk := true, trims := [], failedPhases := [], linksPassed := [] }

theorem test_wf_tile_column : Instr.wf (.tokenBoundary ⟨168, 0⟩) = false := by decide
theorem test_wf_tile_row : Instr.wf (.tokenBoundary ⟨0, 160⟩) = false := by decide
theorem test_wf_field : Instr.wf (.fuseTrip 64) = false := by decide
theorem test_wf_partition : Instr.wf (.submit 32 (List.replicate 128 0)) = false := by decide +kernel
theorem test_wf_descriptor_length : Instr.wf (.submit 0 (List.replicate 127 0)) = false := by decide +kernel
theorem test_wf_function : Instr.wf (.sqTailWrite .a 33 0) = false := by decide
theorem test_wf_caller_zero : Instr.wf (.clearMinimumRecords (.vf .a 0)) = false := by decide
theorem test_wf_caller_high : Instr.wf (.clearMinimumRecords (.vf .b 33)) = false := by decide
theorem test_wf_vcore_phase : Instr.wf (.phaseFailure 0 .vcore 36 .opened) = false := by decide
theorem test_wf_varray_phase : Instr.wf (.phaseFailure 0 .varray 10 .shorted) = false := by decide
theorem test_wf_vana_phase : Instr.wf (.phaseFailure 0 .vana 2 .opened) = false := by decide
theorem test_wf_plane : Instr.wf (.planeOvercurrent 16) = false := by decide
theorem test_wf_stack : Instr.wf (.stackFailure 16) = false := by decide
theorem test_wf_start_stack : Instr.wf (.coldPowerOn { calmStart with stacksOffline := [16] }) = false := by decide
theorem test_wf_start_field : Instr.wf (.coldPowerOn { calmStart with fieldsFailed := [64] }) = false := by decide
theorem test_wf_start_array : Instr.wf (.coldPowerOn { calmStart with failedArrays := [(t0, 192)] }) = false := by decide
theorem test_wf_array : Instr.wf (.passStart t0 192) = false := by decide
theorem test_wf_segment : Instr.wf (.exactStream t0 16) = false := by decide
theorem test_wf_segment_offset_high : Instr.wf (.segmentConfigWrite t0 0 24 0) = false := by decide
theorem test_wf_segment_offset_aligned : Instr.wf (.segmentConfigWrite t0 0 6 0) = false := by decide
theorem test_wf_channel_entry : Instr.wf (.channelTableWrite t0 8192 (List.replicate 16 0)) = false := by decide
theorem test_wf_word_index :
    Instr.wf (.segmentInputWord t0 0 131072 (List.replicate 32 0) 0 0) = false := by decide
theorem test_wf_word_length : Instr.wf (.segmentInputWord t0 0 0 (List.replicate 31 0) 0 0) = false := by decide
theorem test_wf_source_column : Instr.wf (.readRequest t0 (List.replicate 32 0) 160 0) = false := by decide
theorem test_wf_source_row : Instr.wf (.readRequest t0 (List.replicate 32 0) 0 160) = false := by decide
theorem test_wf_row : Instr.wf (.rejuvenation t0 0 512 ⟨0, []⟩) = false := by decide
theorem test_wf_mover_channel : Instr.wf (.tailWrite t0 4 0) = false := by decide
theorem test_wf_virtual_network : Instr.wf (.flitForward t0 .l 3 .clean) = false := by decide
theorem test_wf_rim_side : Instr.wf (.rimIngress .l (flit 0 0 0 (bytes 32 []))) = false := by decide
theorem test_wf_flit_payload : Instr.wf (.remoteWrite t0 (flit 0 0 0 [])) = false := by decide
theorem test_wf_flit_window : Instr.wf (.remoteWrite t0 (flit 0 8 0 (bytes 32 []))) = false := by decide
theorem test_wf_flit_offset : Instr.wf (.remoteWrite t0 (flit 0 0 2097152 (bytes 32 []))) = false := by decide
theorem test_wf_message_empty :
    Instr.wf (.messageInjection t0 ⟨0, 0, 0, (flit 0 0 0 []).dest, 0, []⟩) = false := by decide
theorem test_wf_field_row : Instr.wf (.rotationSwap 0 20) = false := by decide
theorem test_wf_row_place : Instr.wf (.rotationInterval 0 0 20 0 0) = false := by decide
theorem test_wf_urgent_row : Instr.wf (.urgentRotation 0 [(0, 20, 0, 0)]) = false := by decide
theorem test_wf_link : Instr.wf (.lldpTimer 32) = false := by decide
theorem test_wf_sensor_list : Instr.wf (.hubSensorRead (List.replicate 17 0) 0 none) = false := by decide
theorem test_wf_fn_code : Instr.wf (.illegalInstruction t0 2048) = false := by decide
theorem test_wf_target : Instr.wf (.registerWrite (.bar .a 33 0) 0) = false := by decide
theorem test_wf_session_key : Instr.wf (.keyProg .a 1 0 0 0 []) = false := by decide

/-- An ill-formed command faults, and none of its effect is seen. -/
theorem test_ill_formed_faults : exec (.fuseTrip 64) State.reset = .fault .noSuchUnit := rfl

/-! ### Worked values -/

/-- The example of R5 (00_scope.md): with column 9 of row 5 of F(6,2) retired, T(137,45) sits at u = 144. -/
theorem test_repair_map :
    (up.setBlobP 0xF000 23 0xFF (List.replicate 5 255 ++ [9])).physical 137 45 = ⟨144, 45⟩ := by decide +kernel

/-- The example of chapter 02: the charge of one W4 output's columns, converted at E = 0 and BASE = 0. -/
theorem test_column_charge :
    (columnCharge { cells := [(0, [3, 2]), (1, [3, 0]), (2, [0, 2]), (3, [3, 3])] } 0 0 [6, 12, 9, 0] [0, 0]).mapIdx
      (fun c q => adcCode 0 c 0 0 q 0) = [54, 30] := by decide +kernel

/-- The example of chapter 02: P = 174, Q = 37 and U = 27 give T = −82. -/
theorem test_output_value :
    tValues { arrays := [(0, { sums := [(0, 37)] })], chans := [(0, { z := 8 })] } 0 {}
      { codes := [6, 12, 9, 0], seg := 0, block := 0, group := 0, token := 0, e := 0, base := 0, a8 := false } [[54, 30]] =
      [-82] := by decide +kernel

/-- The example of chapter 06: with F(1,1) dark, column 31 from row 10 to row 70 detours by column 20. -/
theorem test_detour_waypoint : waypoint (2 ^ 9) 31 10 70 31 = some 20 := by decide +kernel

/-- FIPS 197, appendix C.3: one block under a 256-bit key. -/
theorem test_aes256_block :
    aesEnc (aesKeys ((List.range 32).map (BitVec.ofNat 8))) ((List.range 16).map (fun i => BitVec.ofNat 8 (17 * i))) =
      [0x8e, 0xa2, 0xb7, 0xca, 0x51, 0x67, 0x45, 0xbf, 0xea, 0xfc, 0x49, 0x90, 0x4b, 0x49, 0x60, 0x89] := by decide +kernel

/-- FIPS 180-4, the digest of "abc". -/
theorem test_sha256_abc :
    sha256 [0x61, 0x62, 0x63] =
      [0xba, 0x78, 0x16, 0xbf, 0x8f, 0x01, 0xcf, 0xea, 0x41, 0x41, 0x40, 0xde, 0x5d, 0xae, 0x22, 0x23, 0xb0, 0x03, 0x61,
       0xa3, 0x96, 0x17, 0x7a, 0x9c, 0xb4, 0x10, 0xff, 0x61, 0xf2, 0x00, 0x15, 0xad] := by decide +kernel

/-- The opcode table gives no row any bits, so no word spells a command. -/
theorem test_no_words (nbits w : Nat) : decodeTableWord nbits w = none := rfl

/-- An empty queue idles: with the core clock's counter stopped nothing changes. -/
theorem test_idle : step State.reset = .next State.reset := rfl

/-- The check value of CRC-32C: the digits "123456789". -/
theorem test_crc32c :
    crc32c [0x31, 0x32, 0x33, 0x34, 0x35, 0x36, 0x37, 0x38, 0x39] = 0xE3069283 := by decide +kernel
end Sys2Proof.Tests
end

section
/-!
SUPPORT. Where a logical tile lies on the wafer (R4, R161), and the obligation O58.
-/

namespace Sys2Proof.Machine

/-- The logical tile at position (x, y) lies in the field of (x, y), in its row, at the column that the row map gives. -/
theorem State.physical_place (s : State) (x y : Nat) (h : s.rowMapGet y (x / 20) (x % 20) < 21) :
    fieldOfTile (s.physical x y) = fieldOfLogical x y ∧ (s.physical x y).y % 20 = y % 20 ∧
      (s.physical x y).u % 21 = s.rowMapGet y (x / 20) (x % 20) := by
  have hdiv : (21 * (x / 20) + s.rowMapGet y (x / 20) (x % 20)) / 21 = x / 20 := by omega
  have hmod : (21 * (x / 20) + s.rowMapGet y (x / 20) (x % 20)) % 21 = s.rowMapGet y (x / 20) (x % 20) := by omega
  exact ⟨congrArg (8 * (y / 20) + ·) hdiv, rfl, hmod⟩

/-- A tile's logical position keeps its row, and its column lies at a position of its field row that the row map gives
the tile's column. -/
theorem State.logical_eq_some {s : State} {t : TileId} {x y : Nat} (h : s.logical t = some (x, y)) :
    ∃ j < 20, s.rowMapGet t.y (t.u / 21) j = t.u % 21 ∧ x = 20 * (t.u / 21) + j ∧ y = t.y := by
  simp only [State.logical, Option.map_eq_some_iff, Prod.mk.injEq] at h
  obtain ⟨j, hj, rfl, rfl⟩ := h
  have hmap := List.find?_some hj
  exact ⟨j, List.mem_range.1 (List.mem_of_find?_eq_some hj), beq_iff_eq.1 hmap, rfl, rfl⟩

/-- Settles O58: the position within the field row is what the division of the column by 20 leaves. -/
theorem logicalTilePlace : Obligations.LogicalTilePlace := by
  unfold Obligations.LogicalTilePlace
  refine fun s => ⟨fun t x y h => ?_, fun x y h => s.physical_place x y h⟩
  obtain ⟨j, hj, hmap, rfl, rfl⟩ := State.logical_eq_some h
  have hdiv : (20 * (t.u / 21) + j) / 20 = t.u / 21 := by omega
  have hmod : (20 * (t.u / 21) + j) % 20 = j := by omega
  rw [hdiv, hmod]
  exact ⟨rfl, rfl, hmap.symm⟩

end Sys2Proof.Machine
end

section
/-!
SUPPORT. What the operations that answer and record for a host leave as it was: the event log, interrupts, host
violations (R284, R292, R376).
-/

namespace Sys2Proof.Machine

/-- Values of entries of different index have keys of their own. -/
theorem odKey_ne_of_index {i b p i' b' p' : Nat} (hb : b < 256) (hp : p < 256) (hb' : b' < 256) (hp' : p' < 256)
    (h : i ≠ i') : odKey i b p ≠ odKey i' b' p' :=
  fun e => h (odKey_inj hb hp hb' hp' e).1

/-- Logging changes the hub's record of events and OD 0x1110.01, its newest number, and nothing else (R376). -/
theorem State.log_frame (s : State) (a : LogArgs) :
    ∃ h od, s.log a = { s with hub := h, od := od } ∧
      ∀ k, k ≠ odKey 0x1110 1 0xFF → mfind od k = mfind s.od k := by
  unfold State.log
  split
  · dsimp only
    split
    · exact ⟨_, s.od, rfl, fun _ _ => rfl⟩
    · exact ⟨_, s.od, rfl, fun _ _ => rfl⟩
  · refine ⟨_, _, rfl, fun k hk => ?_⟩
    dsimp only [State.logAppend, State.odSet, State.odSetP]
    split
    · rw [mfind_mdel, if_neg hk]
    · rw [mfind_mput, if_neg hk]

@[simp] theorem State.log_fns (s : State) (a : LogArgs) : (s.log a).fns = s.fns := by
  obtain ⟨h, od, e, -⟩ := s.log_frame a
  rw [e]

@[simp] theorem State.log_out (s : State) (a : LogArgs) : (s.log a).out = s.out := by
  obtain ⟨h, od, e, -⟩ := s.log_frame a
  rw [e]

@[simp] theorem State.log_fn (s : State) (a : LogArgs) (port : Port) (n : Nat) : (s.log a).fn port n = s.fn port n := by
  simp only [State.fn, State.log_fns]

@[simp] theorem State.odAdd_fn (s : State) (i b v : Nat) (port : Port) (n : Nat) :
    (s.odAdd i b v).fn port n = s.fn port n := rfl

/-- Every entry but the newest log number reads as before. -/
theorem State.log_odG (s : State) (a : LogArgs) {idx sub : Nat} (hi : idx ≠ 0x1110) (hs : sub < 256) :
    (s.log a).odG idx sub = s.odG idx sub := by
  obtain ⟨h, od, e, hod⟩ := s.log_frame a
  have hk : odKey idx sub 0xFF ≠ odKey 0x1110 1 0xFF :=
    odKey_ne_of_index hs (by decide) (by decide) (by decide) hi
  simp only [e, State.odG, State.odP, hod _ hk]

/-- A count raised reads one higher by what was added. -/
@[simp] theorem State.odG_odAdd_same (s : State) (i b v : Nat) : (s.odAdd i b v).odG i b = s.odG i b + v :=
  State.odG_odSet_same _ _ _ _

end Sys2Proof.Machine
end

section
/-!
SUPPORT. Writes of registers by address (R9, R284, R288, R292): what each class of BAR0 offset does, and the obligation
O40.
-/

namespace Sys2Proof.Machine

/-! ### Tables -/

theorem mdel_of_mfind_none {α : Type} (m : SMap α) (k : Nat) (h : mfind m k = none) : mdel m k = m := by
  induction m with
  | nil => rfl
  | cons e r ih =>
    obtain ⟨a, v⟩ := e
    rw [mfind] at h
    split at h
    · cases h
    · rename_i ha
      rw [mdel, if_neg ha, ih h]

theorem mdel_mdel_same {α : Type} (m : SMap α) (k : Nat) : mdel (mdel m k) k = mdel m k :=
  mdel_of_mfind_none _ _ (by rw [mfind_mdel, if_pos rfl])

theorem mdel_minsert_same {α : Type} (m : SMap α) (k : Nat) (v : α) (h : mfind m k = none) :
    mdel (minsert m k v) k = m := by
  induction m with
  | nil => simp [minsert, mdel]
  | cons e r ih =>
    obtain ⟨a, w⟩ := e
    have hk := mdel_of_mfind_none _ _ h
    rw [mfind] at h
    split at h
    · cases h
    · rename_i ha
      unfold minsert
      split
      · rw [mdel, if_pos rfl, hk]
      · rw [mdel, if_neg ha, ih h]

/-- A second write of a key leaves nothing of the first. -/
theorem mset_mset_same {α : Type} [DecidableEq α] (d : α) (m : SMap α) (k : Nat) (v w : α) :
    mset d (mset d m k v) k w = mset d m k w := by
  have hdel : mdel (mset d m k v) k = mdel m k := by
    unfold mset
    split
    · exact mdel_mdel_same m k
    · exact mdel_minsert_same _ _ _ (by rw [mfind_mdel, if_pos rfl])
  calc mset d (mset d m k v) k w
      = if w = d then mdel (mset d m k v) k else minsert (mdel (mset d m k v) k) k w := rfl
    _ = mset d m k w := by rw [hdel]; rfl

theorem State.modFn_modFn_same (s : State) (port : Port) (fn : Nat) (f g : Function → Function) :
    (s.modFn port fn f).modFn port fn g = s.modFn port fn (fun x => g (f x)) := by
  simp only [State.modFn, State.fn, mget_mset_same, mset_mset_same]

/-! ### Bits of a written word -/

theorem bit_toNat (v : Word) (i : Nat) : bit v.toNat i = v.getLsbD i := by
  rw [bit, BitVec.getLsbD, Nat.testBit_eq_decide_div_mod_eq]
  rfl

/-- The five bits 31:27 of a ring register are all that lies above bit 26. -/
theorem bits_31_27_toNat (v : Word) : bits v.toNat 31 27 = v.toNat / 2 ^ 27 := by
  have := v.isLt
  simp only [bits]
  omega

/-! ### A host violation (R292) -/

theorem State.interrupt_fn_same (s : State) (port : Port) (fn vector : Nat) :
    (s.interrupt port fn vector).fn port fn = signalled (s.fn port fn) vector := by
  unfold State.interrupt signalled
  split
  · exact State.fn_modFn_same s port fn _
  · rfl

theorem State.violate_fn_same (s : State) (port : Port) (fn status value addr : Nat) :
    (s.violate port fn status value addr).fn port fn = violated (s.fn port fn) fn status value addr := by
  unfold State.violate violated
  dsimp only
  split
  · simp
  · simp [State.interrupt_fn_same]

@[simp] theorem signalled_viol (f : Function) (vector : Nat) : (signalled f vector).viol = f.viol := by
  unfold signalled; split <;> rfl

@[simp] theorem signalled_violStatus (f : Function) (vector : Nat) :
    (signalled f vector).violStatus = f.violStatus := by
  unfold signalled; split <;> rfl

@[simp] theorem signalled_vaddr (f : Function) (vector : Nat) : (signalled f vector).vaddr = f.vaddr := by
  unfold signalled; split <;> rfl

/-- A violation records its status and address in the function, whatever function it is. -/
theorem violated_record (f : Function) (fn code value addr : Nat) :
    (violated f fn code value addr).viol = true ∧ (violated f fn code value addr).violStatus = code ∧
      (violated f fn code value addr).vaddr = addr := by
  unfold violated
  dsimp only
  split
  · exact ⟨rfl, rfl, rfl⟩
  · simp

/-! ### The targets of a register write -/

theorem exec_registerWrite_core (s : State) (t : TileId) (off : Nat) (v : Word) (ht : tileOk t = true) :
    exec (.registerWrite (.core t off) v) s = .next (s.writeTileReg t off v false) :=
  if_pos ht

theorem exec_registerWrite_mgmt (s : State) (t : TileId) (off : Nat) (v : Word) (ht : tileOk t = true)
    (ho : off ≠ 0x008) : exec (.registerWrite (.mgmt t off) v) s = .next (s.writeTileReg t off v true) :=
  (if_pos ht).trans (congrArg _ (if_neg ho))

theorem exec_registerWrite_bar (s : State) (port : Port) (fn off : Nat) (v : Word) (hf : fn ≤ 32) :
    exec (.registerWrite (.bar port fn off) v) s = .next (s.barWrite port fn off v.toNat) :=
  if_pos (decide_eq_true hf)

theorem exec_registerWrite_bar64 (s : State) (port : Port) (fn off : Nat) (low high : Word) (hf : fn ≤ 32) :
    exec (.registerWrite (.bar64 port fn off high) low) s = .next (s.barWrite64 port fn off low.toNat high.toNat) :=
  if_pos (decide_eq_true hf)

/-- Block 1 of a tile's registers is its charge bank (R9). -/
theorem State.writeTileReg_chargeBank (s : State) (t : TileId) (o : Nat) (v : Word) (w : Bool) (ho : o < 0x1000) :
    s.writeTileReg t (0x1000 + o) v w = s.modCb t (fun cb => writeCb cb o v) := by
  have hdiv : (0x1000 + o) / 4096 = 1 := by omega
  have hmod : (0x1000 + o) % 4096 = o := by omega
  simp only [State.writeTileReg, hdiv, hmod]

/-! ### BAR0 of a function by class of offset -/

theorem State.barWrite_unbound (s : State) (port : Port) (fn off v : Nat) (h0 : fn ≠ 0) (hb : s.bound port fn = false) :
    s.barWrite port fn off v = s.violate port fn 0x0A04 v off :=
  if_pos ⟨h0, hb⟩

section served

variable {s : State} {port : Port} {fn : Nat}

/-- A function is served: the PF, or a VF whose partition is bound to the port (R282). -/
theorem not_unbound_of_served (h : fn = 0 ∨ s.bound port fn = true) : ¬(fn ≠ 0 ∧ s.bound port fn = false) := by
  rintro ⟨h0, hb⟩
  rcases h with h | h
  · exact h0 h
  · rw [hb] at h; cases h

theorem State.barWrite_misaligned (h : fn = 0 ∨ s.bound port fn = true) {off : Nat} (ho : off % 4 ≠ 0) (v : Nat) :
    s.barWrite port fn off v = s.violate port fn 0x0A09 v off := by
  rw [State.barWrite, if_neg (not_unbound_of_served h), if_pos ho]

theorem State.barWrite_request (h : fn = 0 ∨ s.bound port fn = true) {off : Nat} (hlo : 0x1000 ≤ off) (hhi : off < 0x2000)
    (ho : off % 4 = 0) (v : Nat) :
    s.barWrite port fn off v =
      s.modFn port fn (fun f => { f with mbReq := mwrite 0 f.mbReq (off - 0x1000) (leBytes 4 v) }) := by
  rw [State.barWrite, if_neg (not_unbound_of_served h), if_neg (not_not_intro ho), if_pos ⟨hlo, hhi⟩]

theorem State.barWrite64_request (h : fn = 0 ∨ s.bound port fn = true) {off : Nat} (hlo : 0x1000 ≤ off)
    (hhi : off < 0x2000) (ho : off % 8 = 0) (low high : Nat) :
    s.barWrite64 port fn off low high = s.modFn port fn (fun f =>
      { f with mbReq := mwrite 0 f.mbReq (off - 0x1000) (leBytes 4 low ++ leBytes 4 high) }) := by
  rw [State.barWrite64, if_neg (not_unbound_of_served h), if_neg (by omega), if_pos hhi]

theorem State.barWrite_msix (h : fn = 0 ∨ s.bound port fn = true) {off : Nat} (hlo : 0x3000 ≤ off) (hhi : off < 0x3800)
    (ho : off % 4 = 0) (v : Word) : s.barWrite port fn off v.toNat = s.msixWrite port fn (off - 0x3000) v := by
  rw [State.barWrite, if_neg (not_unbound_of_served h), if_neg (not_not_intro ho), if_neg (by omega),
    if_pos ⟨hlo, hhi⟩, BitVec.ofNat_toNat, BitVec.setWidth_eq]

/-- Registers of the rings: the words 0x10 to 0x34 of a bound VF (Table 11.3). -/
theorem State.barWrite_ringReg (h0 : fn ≠ 0) (hb : s.bound port fn = true) {off : Nat} (hlo : 0x10 ≤ off)
    (hhi : off < 0x38) (ho : off % 4 = 0) (v : Nat) : s.barWrite port fn off v = s.ringReg port fn off v := by
  simp (disch := omega) only [State.barWrite, if_neg (not_unbound_of_served (Or.inr hb)), if_neg, if_pos]

theorem State.barWrite_status (h0 : fn ≠ 0) (hb : s.bound port fn = true) (v : Nat) :
    s.barWrite port fn 0x08 v = s.modFn port fn (fun f => hqClear f v) := by
  simp [State.barWrite, h0, hb]

/-- HQ_ID and the words from 0x40 to 0x50 are read-only. -/
theorem State.barWrite_readOnly (h0 : fn ≠ 0) (hb : s.bound port fn = true) {off : Nat}
    (ho : off ∈ [0x00, 0x40, 0x44, 0x48, 0x4C, 0x50]) (v : Nat) : s.barWrite port fn off v = s := by
  simp only [List.mem_cons, List.not_mem_nil, or_false] at ho
  simp (disch := omega) only [State.barWrite, if_neg (not_unbound_of_served (Or.inr hb)), if_neg]

end served

/-! ### Ring registers and the MSI-X table -/

/-- While the rings are off, and for COAL_TIME always, a ring register takes the write (R292). -/
theorem State.ringReg_taken (s : State) (port : Port) (fn off v : Nat) (h : (s.fn port fn).en = false ∨ off = 0x2C) :
    s.ringReg port fn off v = s.modFn port fn (fun _ => ringWrite (s.fn port fn) off v) := by
  have hc : ((s.fn port fn).en && off != 0x2C) = false := by
    rcases h with h | h <;> simp [h]
  simp only [State.ringReg, hc]
  rfl

/-- While the rings are on, a ring register but COAL_TIME sets CFG_ERR alone, and the port counts the write (R292). -/
theorem State.ringReg_ignored (s : State) (port : Port) (fn off v : Nat) (hen : (s.fn port fn).en = true)
    (ho : off ≠ 0x2C) :
    (s.ringReg port fn off v).fn port fn = { s.fn port fn with cfgErr := true } ∧
    (s.ringReg port fn off v).out = s.out ∧
    (s.ringReg port fn off v).odG 0x6000 (6 + portNum port) = s.odG 0x6000 (6 + portNum port) + 1 := by
  have hc : ((s.fn port fn).en && off != 0x2C) = true := by simp [hen, ho]
  have hsub : 6 + portNum port < 256 := by cases port <;> decide
  simp only [State.ringReg, hc, if_true]
  refine ⟨by simp [ringWrite, hen, ho], by simp, ?_⟩
  rw [State.log_odG _ _ (by decide) hsub, State.odG_odAdd_same]
  rfl

/-- A function with a word of its MSI-X table stored. -/
def msixStored (f : Function) (o : Nat) (v : Word) : Function :=
  { f with msix := mset 0 f.msix o (v ^^^ msixReset o) }

theorem msixWord_msixStored (f : Function) (o : Nat) (v : Word) : msixWord (msixStored f o v) o = v := by
  rw [msixWord, msixStored, mget_mset_same, BitVec.xor_assoc, BitVec.xor_self, BitVec.xor_zero]

/-- The vector of a word is pending and stands unmasked. -/
def msixDue (f : Function) (o : Nat) : Bool := bit f.pba (o / 16) && !vectorMasked f (o / 16)

/-- A write of the MSI-X table stores the word; a pending vector that it leaves unmasked is due. -/
theorem State.msixWrite_eq (s : State) (port : Port) (fn o : Nat) (v : Word) :
    s.msixWrite port fn o v =
      if msixDue (msixStored (s.fn port fn) o v) o then
        ((s.modFn port fn (fun f => msixStored f o v)).modFn port fn
          (fun f => { f with pba := setBit f.pba (o / 16) false })).interrupt port fn (o / 16)
      else s.modFn port fn (fun f => msixStored f o v) := by
  have hfn : (s.modFn port fn (fun f => msixStored f o v)).fn port fn = msixStored (s.fn port fn) o v :=
    State.fn_modFn_same s port fn _
  rw [← hfn]
  rfl

theorem State.msixWrite_quiet (s : State) (port : Port) (fn o : Nat) (v : Word)
    (h : msixDue (msixStored (s.fn port fn) o v) o = false) :
    s.msixWrite port fn o v = s.modFn port fn (fun _ => msixStored (s.fn port fn) o v) := by
  rw [State.msixWrite_eq, h]
  rfl

/-- A pending vector that the write unmasks is signalled and no longer pending. -/
theorem State.msixWrite_signals (s : State) (port : Port) (fn o : Nat) (v : Word) (g : Function)
    (hg : g = msixStored (s.fn port fn) o v) (h : msixDue g o = true) :
    s.msixWrite port fn o v =
      (s.modFn port fn (fun _ => { g with pba := setBit g.pba (o / 16) false })).emit (.msix port fn (o / 16)) := by
  have hmask : vectorMasked g (o / 16) = false := by
    simpa using (Bool.and_eq_true_iff.1 h).2
  subst hg
  rw [State.msixWrite_eq, if_pos h, State.modFn_modFn_same, State.interrupt, State.fn_modFn_same, if_neg]
  · rfl
  · exact ne_true_of_eq_false hmask

/-! ### The obligation, by kind of function -/

section bar

variable {s : State} {port : Port} {fn off : Nat}

/-- A BAR0 write that a function takes sets that function alone. -/
theorem setsFn_bar (hf : fn ≤ 32) {v : Word} {g : Function}
    (h : s.barWrite port fn off v.toNat = s.modFn port fn (fun _ => g)) :
    SetsFn (.registerWrite (.bar port fn off) v) s port fn g := by
  rw [SetsFn, exec_registerWrite_bar s port fn off v hf, h]

/-- A BAR0 write answers the state that it leads to. -/
theorem answers_bar (hf : fn ≤ 32) {v : Word} {P : State → Prop} (h : P (s.barWrite port fn off v.toNat)) :
    Answers (.registerWrite (.bar port fn off) v) s P :=
  ⟨_, exec_registerWrite_bar s port fn off v hf, h⟩

/-- A ring register that takes the write (R284, R292). -/
theorem setsFn_ringReg (hf : fn ≤ 32) (h0 : fn ≠ 0) (hb : s.bound port fn = true) {v : Word} {g : Function}
    (hlo : 0x10 ≤ off) (hhi : off < 0x38) (ho : off % 4 = 0) (ht : (s.fn port fn).en = false ∨ off = 0x2C)
    (hg : ringWrite (s.fn port fn) off v.toNat = g) :
    SetsFn (.registerWrite (.bar port fn off) v) s port fn g :=
  setsFn_bar hf (by rw [State.barWrite_ringReg h0 hb hlo hhi ho, State.ringReg_taken _ _ _ _ _ ht, hg])

end bar

/-- Settles O40, by the class of offset that each clause writes. -/
theorem registerWrites : Obligations.RegisterWrites := by
  unfold Obligations.RegisterWrites
  intro s t port fn off v ht hf
  refine ⟨exec_registerWrite_core s t off v ht, exec_registerWrite_mgmt s t off v ht,
    fun o v' w ho => congrArg State.tiles (s.writeTileReg_chargeBank t o v' w ho), ?_, ?_, ?_⟩
  case refine_1 =>
    intro h0 hb
    have taken {off : Nat} {g : Function} := setsFn_ringReg (off := off) (v := v) (g := g) hf h0 hb
    refine ⟨?_, ?_, ?_, ?_, ?_, ?_, ?_, ?_, ?_⟩
    · rintro rfl hen
      exact taken (by decide) (by decide) (by decide) (.inl hen) (by simp [ringWrite, hen, setHalf])
    · rintro rfl hen
      exact taken (by decide) (by decide) (by decide) (.inl hen) (by simp [ringWrite, hen, setHalf])
    · rintro rfl hen
      exact taken (by decide) (by decide) (by decide) (.inl hen)
        (by simp only [ringWrite, hen, bits_31_27_toNat]; simp [bits])
    · rintro rfl hen
      exact taken (by decide) (by decide) (by decide) (.inl hen) (by simp [ringWrite, hen])
    · rintro rfl hen
      exact taken (by decide) (by decide) (by decide) (.inl hen)
        (by simp only [ringWrite, hen, bits_31_27_toNat]; simp [bits])
    · rintro rfl
      exact taken (by decide) (by decide) (by decide) (.inr rfl) (by simp [ringWrite])
    · intro ho hen
      simp only [List.mem_cons, List.not_mem_nil, or_false] at ho
      refine answers_bar hf ?_
      rw [State.barWrite_ringReg h0 hb (by omega) (by omega) (by omega)]
      exact State.ringReg_ignored s port fn off _ hen (by omega)
    · rintro rfl
      refine answers_bar hf ?_
      rw [State.barWrite_status h0 hb, State.fn_modFn_same]
      simp only [hqClear, bit_toNat, and_self]
    · intro ho
      refine answers_bar hf ?_
      rw [State.barWrite_readOnly h0 hb ho]
      exact ⟨rfl, rfl⟩
  case refine_2 =>
    intro hs
    refine ⟨?_, ?_, ?_, ?_⟩
    · intro hlo hhi ho
      exact setsFn_bar hf (State.barWrite_request hs hlo hhi ho _)
    · intro low high hlo hhi ho
      rw [SetsFn, exec_registerWrite_bar64 s port fn off low high hf, State.barWrite64_request hs hlo hhi ho]
      rfl
    · intro o g hlo hhi ho
      refine ⟨msixWord_msixStored _ _ v, fun hq => setsFn_bar hf ?_, fun hq => ?_⟩
      · rw [State.barWrite_msix hs hlo hhi ho, State.msixWrite_quiet _ _ _ _ _ hq]
        rfl
      · rw [exec_registerWrite_bar s port fn off v hf, State.barWrite_msix hs hlo hhi ho,
          State.msixWrite_signals s port fn _ v g rfl hq]
    · intro ho
      refine answers_bar hf ?_
      rw [State.barWrite_misaligned hs ho, State.violate_fn_same]
      exact violated_record _ _ _ _ _
  case refine_3 =>
    intro h0 hb
    refine answers_bar hf ?_
    rw [State.barWrite_unbound _ _ _ _ _ h0 hb, State.violate_fn_same]

end Sys2Proof.Machine
end

section
/-!
SUPPORT. How the dictionary server takes up a request and answers it (R18, R382–R387, R392), what each kind of request
comes to, and the obligation O38.
-/

namespace Sys2Proof.Machine

/-! ### Taking a request up -/

theorem State.taken_frame (s : State) (c : Caller) : ∃ l, s.taken c = { s with hub := { s.hub with rates := l } } := by
  cases c with
  | net a p => exact ⟨_, rfl⟩
  | pf port => exact ⟨_, rfl⟩
  | vf port n => exact ⟨_, rfl⟩

section taken

variable (s : State) (c : Caller)

@[simp] theorem State.taken_od : (s.taken c).od = s.od := by obtain ⟨l, e⟩ := s.taken_frame c; rw [e]
@[simp] theorem State.taken_parts : (s.taken c).parts = s.parts := by obtain ⟨l, e⟩ := s.taken_frame c; rw [e]
@[simp] theorem State.taken_tiles : (s.taken c).tiles = s.tiles := by obtain ⟨l, e⟩ := s.taken_frame c; rw [e]
@[simp] theorem State.taken_clkTime : (s.taken c).clkTime = s.clkTime := by obtain ⟨l, e⟩ := s.taken_frame c; rw [e]
@[simp] theorem State.taken_kept : (s.taken c).hub.kept = s.hub.kept := by obtain ⟨l, e⟩ := s.taken_frame c; rw [e]
@[simp] theorem State.taken_peers : (s.taken c).hub.peers = s.hub.peers := by obtain ⟨l, e⟩ := s.taken_frame c; rw [e]
@[simp] theorem State.taken_versions : (s.taken c).hub.versions = s.hub.versions := by
  obtain ⟨l, e⟩ := s.taken_frame c; rw [e]
@[simp] theorem State.taken_lockHolder : (s.taken c).hub.lockHolder = s.hub.lockHolder := by
  obtain ⟨l, e⟩ := s.taken_frame c; rw [e]
@[simp] theorem State.taken_lockPeer : (s.taken c).hub.lockPeer = s.hub.lockPeer := by
  obtain ⟨l, e⟩ := s.taken_frame c; rw [e]
@[simp] theorem State.taken_leaseEnd : (s.taken c).hub.leaseEnd = s.hub.leaseEnd := by
  obtain ⟨l, e⟩ := s.taken_frame c; rw [e]
@[simp] theorem State.taken_odG (i b : Nat) : (s.taken c).odG i b = s.odG i b := by
  simp only [State.odG, State.odP, State.taken_od]
@[simp] theorem State.taken_versionOf (d : Caller) : (s.taken c).versionOf d = s.versionOf d := by
  simp only [State.versionOf, State.taken_versions]

end taken

/-- A request that reaches the server is carried out in the state in which it is taken up. -/
theorem State.request_of_asks {s : State} {c : Caller} {m : DictMsg} (h : Asks s c m) (op : Nat) (env : CmdEnv) :
    s.request c op m env = (s.taken c).execMsg c op m env := by
  obtain ⟨-, hcall, hlen, hmax, hkept, hrate⟩ := h
  have hbad : ¬(m.len ≠ m.value.length ∨ 4072 < m.value.length) := by omega
  have hserve : (s.taken c).serveMsg c op m env = (s.taken c).execMsg c op m env := by
    unfold State.serveMsg
    rw [if_neg hbad, State.taken_kept, hkept]
  rw [← hserve]
  unfold State.request
  rw [if_neg (by simp [hcall])]
  cases c with
  | net a p => exact if_neg (Nat.not_le.2 (hrate a p rfl))
  | pf port => rfl
  | vf port n => rfl

section exec

variable {s : State} {c : Caller} {m : DictMsg} {env : CmdEnv} (hc : callerOk c = true)
include hc

theorem exec_negotiate : exec (.negotiate c m) s = .next (s.request c 1 m quietEnv) := if_pos hc

theorem exec_read : exec (.read c m) s = .next (s.request c 2 m quietEnv) := if_pos hc

theorem exec_write (he : startOk env.start = true) : exec (.write c m env) s = .next (s.request c 3 m env) :=
  if_pos (Bool.and_eq_true_iff.2 ⟨hc, he⟩)

theorem exec_list : exec (.list c m) s = .next (s.request c 4 m quietEnv) := if_pos hc

theorem exec_networkLockAcquire : exec (.networkLockAcquire c m) s = .next (s.request c 5 m quietEnv) := if_pos hc

theorem exec_networkLockRelease : exec (.networkLockRelease c m) s = .next (s.request c 5 m quietEnv) := if_pos hc

end exec

/-! ### Answering it -/

/-- The state in which a request has been counted, its response kept for its source and sent. -/
def State.answered (s : State) (c : Caller) (op seq : Nat) (r : DictMsg) : State :=
  ((s.odAdd 0x1100 5 1).keep c seq op r).answerMsg c op r

theorem State.interrupt_frame (s : State) (port : Port) (fn vector : Nat) :
    ∃ fns out, s.interrupt port fn vector = { s with fns := fns, out := out } ∧ s.out <+: out := by
  unfold State.interrupt
  split
  · exact ⟨_, _, rfl, List.prefix_rfl⟩
  · exact ⟨_, _, rfl, List.prefix_append _ _⟩

/-- A response goes out to its caller; of the block only the caller's mailbox changes (R289). -/
theorem State.answerMsg_frame (s : State) (c : Caller) (op : Nat) (r : DictMsg) :
    ∃ fns out, s.answerMsg c op r = { s with fns := fns, out := out } ∧ answerTo c op r ∈ out := by
  have mailbox (port : Port) (fn : Nat) : ∃ fns out,
      (s.emit (.mailbox port fn op r)).mailboxAnswer port fn (msgBytes op r) = { s with fns := fns, out := out } ∧
        Emission.mailbox port fn op r ∈ out := by
    unfold State.mailboxAnswer
    obtain ⟨fns, out, e, hout⟩ := State.interrupt_frame _ port fn (if fn = 0 then 0 else 1)
    exact ⟨fns, out, e, hout.subset (List.mem_append_right _ (List.mem_singleton.2 rfl))⟩
  cases c with
  | net a p => exact ⟨s.fns, _, rfl, List.mem_append_right _ (List.mem_singleton.2 rfl)⟩
  | pf port => exact mailbox port 0
  | vf port n => exact mailbox port n

theorem State.keep_frame (s : State) (c : Caller) (seq op : Nat) (r : DictMsg) :
    ∃ l, s.keep c seq op r = { s with hub := { s.hub with kept := l } } := by
  cases c with
  | net a p =>
    by_cases h : s.isPeer (.net a p) = true
    · exact ⟨_, if_pos h⟩
    · exact ⟨s.hub.kept, if_neg h⟩
  | pf port => exact ⟨_, rfl⟩
  | vf port n => exact ⟨_, rfl⟩

/-- Beyond what it came to, a request changes the count of requests, the kept responses, the caller's mailbox and what
goes out, its response among it. -/
theorem State.answered_frame (s : State) (c : Caller) (op seq : Nat) (r : DictMsg) :
    ∃ l fns out, s.answered c op seq r =
        { s with hub := { s.hub with kept := l }, od := (s.odAdd 0x1100 5 1).od, fns := fns, out := out } ∧
      answerTo c op r ∈ out := by
  obtain ⟨l, hkeep⟩ := State.keep_frame (s.odAdd 0x1100 5 1) c seq op r
  obtain ⟨fns, out, hans, hout⟩ := State.answerMsg_frame ((s.odAdd 0x1100 5 1).keep c seq op r) c op r
  exact ⟨l, fns, out, by rw [State.answered, hans, hkeep]; rfl, hout⟩

section answered

variable (s : State) (c : Caller) (op seq : Nat) (r : DictMsg)

theorem State.answered_out : answerTo c op r ∈ (s.answered c op seq r).out := by
  obtain ⟨l, fns, out, e, h⟩ := s.answered_frame c op seq r; rw [e]; exact h

@[simp] theorem State.answered_parts : (s.answered c op seq r).parts = s.parts := by
  obtain ⟨l, fns, out, e, -⟩ := s.answered_frame c op seq r; rw [e]

@[simp] theorem State.answered_tiles : (s.answered c op seq r).tiles = s.tiles := by
  obtain ⟨l, fns, out, e, -⟩ := s.answered_frame c op seq r; rw [e]

@[simp] theorem State.answered_od : (s.answered c op seq r).od = (s.odAdd 0x1100 5 1).od := by
  obtain ⟨l, fns, out, e, -⟩ := s.answered_frame c op seq r; rw [e]

@[simp] theorem State.answered_versions : (s.answered c op seq r).hub.versions = s.hub.versions := by
  obtain ⟨l, fns, out, e, -⟩ := s.answered_frame c op seq r; rw [e]

@[simp] theorem State.answered_peers : (s.answered c op seq r).hub.peers = s.hub.peers := by
  obtain ⟨l, fns, out, e, -⟩ := s.answered_frame c op seq r; rw [e]

@[simp] theorem State.answered_lockHolder : (s.answered c op seq r).hub.lockHolder = s.hub.lockHolder := by
  obtain ⟨l, fns, out, e, -⟩ := s.answered_frame c op seq r; rw [e]

@[simp] theorem State.answered_lockPeer : (s.answered c op seq r).hub.lockPeer = s.hub.lockPeer := by
  obtain ⟨l, fns, out, e, -⟩ := s.answered_frame c op seq r; rw [e]

@[simp] theorem State.answered_leaseEnd : (s.answered c op seq r).hub.leaseEnd = s.hub.leaseEnd := by
  obtain ⟨l, fns, out, e, -⟩ := s.answered_frame c op seq r; rw [e]

@[simp] theorem State.answered_versionOf (d : Caller) : (s.answered c op seq r).versionOf d = s.versionOf d := by
  simp only [State.versionOf, State.answered_versions]

/-- Every entry but the count of requests reads as before the answer. -/
theorem State.answered_odP {i b p : Nat} (hb : b < 256) (hp : p < 256) (h : i ≠ 0x1100 ∨ b ≠ 5) :
    (s.answered c op seq r).odP i b p = s.odP i b p := by
  have hk : odKey i b p ≠ odKey 0x1100 5 0xFF := by
    intro e
    have := odKey_inj hb hp (by decide) (by decide) e
    omega
  simp only [State.odP, State.answered_od]
  exact State.odP_odSetP_other s 0x1100 5 0xFF _ i b p hk

end answered

/-- What a request comes to is what its caller is answered. A WRITE whose entry restarts or resets the device on success
is left out by `hafter`. -/
theorem responds_of_runMsg (op : Nat) {cmd : Instr} {s u : State} {c : Caller} {m : DictMsg} {env : CmdEnv}
    {code total : Nat} {v : List Byte} {shadowed : Bool} {P : State → Prop} (hask : Asks s c m) (hop : opCode cmd = op)
    (hexec : exec cmd s = .next (s.request c op m env))
    (hrun : (s.taken c).runMsg c op m env = (u, ⟨code, v, total, shadowed⟩))
    (hafter : op ≠ 3 ∨ code ≠ 0 ∨ (m.index ≠ 0x1130 ∧ m.index ≠ 0x7100))
    (hP : P (u.answered c op m.seq (respond m code v total shadowed))) :
    Responds cmd s c m code v total shadowed P := by
  subst hop
  refine ⟨_, ?_, State.answered_out _ _ _ _ _, hP⟩
  rw [hexec, State.request_of_asks hask, State.execMsg, hrun]
  dsimp only
  split
  · rename_i h
    obtain ⟨hop, hcode, -⟩ := h
    obtain ⟨hi, hi'⟩ : m.index ≠ 0x1130 ∧ m.index ≠ 0x7100 := by
      rcases hafter with h | h | h
      · exact absurd hop h
      · exact absurd hcode h
      · exact h
    rw [State.afterWrite, if_neg hi, if_neg (fun e => hi' e.1)]
    rfl
  · rfl

/-! ### The order of the checks (R18) -/

section order

variable {s : State} {c : Caller} {m : DictMsg} {env : CmdEnv}

/-- A wrong form is a violation, whatever is asked (R392). -/
theorem State.runMsg_formBad (hf : formBad m = true) {op : Nat} (h1 : 1 ≤ op) (h4 : op ≤ 4) :
    s.runMsg c op m env = (s.dictViolation c 0x0002, { code := 0x0002 }) := by
  unfold State.runMsg
  rw [if_neg (by omega), if_pos hf]

theorem State.runMsg_negotiate (hf : formBad m = false) : s.runMsg c 1 m env = s.doNegotiate c m := by
  simp [State.runMsg, hf]

/-- A lock operation from a mailbox is no operation (R387). -/
theorem State.runMsg_lock_of_mailbox (hc : ∀ a p, c ≠ .net a p) :
    s.runMsg c 5 m env = (s, { code := 0x0001 }) := by
  cases c with
  | net a p => exact absurd rfl (hc a p)
  | pf port => rfl
  | vf port n => rfl

/-- READ, WRITE and LIST whose form, place and carried command pass step 1 find their version checked next. -/
theorem State.runMsg_access (hf : formBad m = false) {op : Nat} (h2 : 2 ≤ op) (h4 : op ≤ 4)
    (ha : s.accessCode c m (op == 4) = 0) (hcarried : op = 3 → s.carriedForm c m env = 0) :
    s.runMsg c op m env =
      if s.versionOf c ≠ some m.pver then (s, { code := 0x0702 })
      else if op = 2 then s.doRead c m
      else if op = 3 then s.doWrite c m env
      else if op = 4 then (s, s.doList c m)
      else s.doLock c m := by
  unfold State.runMsg
  rw [if_neg (by omega), if_neg (ne_true_of_eq_false hf), if_neg (by omega), if_neg (by omega),
    if_neg (fun h => h.2 ha), if_neg (fun h => h.2 (hcarried h.1))]

theorem State.runMsg_read (hf : formBad m = false) (ha : s.accessCode c m false = 0) :
    s.runMsg c 2 m env = if s.versionOf c ≠ some m.pver then (s, { code := 0x0702 }) else s.doRead c m :=
  State.runMsg_access hf (by decide) (by decide) ha (fun h => absurd h (by decide))

theorem State.runMsg_write (hf : formBad m = false) (ha : s.accessCode c m false = 0)
    (hcarried : s.carriedForm c m env = 0) (hv : s.versionOf c = some m.pver) :
    s.runMsg c 3 m env = s.doWrite c m env := by
  rw [State.runMsg_access hf (by decide) (by decide) ha (fun _ => hcarried), if_neg (not_not_intro hv)]
  rfl

/-- The opcode or format code of a carried command goes before the version (R18). -/
theorem State.runMsg_carriedForm (hf : formBad m = false) (ha : s.accessCode c m false = 0)
    (hcarried : s.carriedForm c m env ≠ 0) :
    s.runMsg c 3 m env = (s, { code := s.carriedForm c m env }) := by
  simp [State.runMsg, hf, ha, hcarried]

theorem State.runMsg_list (hf : formBad m = false) (ha : s.accessCode c m true = 0)
    (hv : s.versionOf c = some m.pver) : s.runMsg c 4 m env = (s, s.doList c m) := by
  rw [State.runMsg_access hf (by decide) (by decide) ha (fun h => absurd h (by decide)), if_neg (not_not_intro hv)]
  rfl

end order

/-! ### NEGOTIATE (R384) and LOCK (R387) -/

/-- The form of a NEGOTIATE (R384). -/
def negotiateForm (m : DictMsg) : Prop :=
  m.pver = 0 ∧ m.index = 0 ∧ m.sub = 0 ∧ m.type = 0 ∧ m.ovl = 0 ∧ m.offset = 0 ∧ m.overlay = false ∧ m.len = 4

/-- The version that NEGOTIATE proposes: the lower of the highest of both sides. -/
def State.proposed (s : State) (m : DictMsg) : Nat := min (fieldN m.value 0 2) (s.odG 0x1010 2)

/-- The state in which a version is in force for a caller. -/
def State.withVersion (s : State) (c : Caller) (v : Nat) : State :=
  { s with hub := { s.hub with versions := s.hub.versions.filter (fun e => e.1 != c) ++ [(c, v)] } }

/-- The table of peers with one more, unless it is there. -/
def State.peersWith (s : State) (e : Nat × Nat) : List (Nat × Nat) :=
  if s.hub.peers.contains e then s.hub.peers else s.hub.peers ++ [e]

theorem State.mem_peersWith (s : State) (e : Nat × Nat) : e ∈ s.peersWith e := by
  unfold State.peersWith
  split
  · rename_i h
    exact List.contains_iff_mem.1 h
  · exact List.mem_append_right _ (List.mem_singleton.2 rfl)

/-- The state in which a caller on the network is a peer. -/
def State.withPeer (s : State) (c : Caller) : State :=
  match c with
  | .net a p => { s with hub := { s.hub with peers := s.peersWith (a, p) } }
  | _ => s

theorem State.versionOf_withVersion (s : State) (c : Caller) (v : Nat) : (s.withVersion c v).versionOf c = some v := by
  have hnone : (s.hub.versions.filter (fun e => e.1 != c)).find? (fun e => e.1 == c) = none := by
    rw [List.find?_eq_none]
    intro e he
    simpa using (List.mem_filter.1 he).2
  simp [State.versionOf, State.withVersion, List.find?_append, hnone]

@[simp] theorem State.withPeer_od (s : State) (c : Caller) : (s.withPeer c).od = s.od := by
  cases c <;> rfl

section negotiate

variable {s : State} {c : Caller} {m : DictMsg} (hm : negotiateForm m)
include hm

theorem State.doNegotiate_form :
    ¬(m.pver ≠ 0 ∨ m.index ≠ 0 ∨ m.sub ≠ 0 ∨ m.type ≠ 0 ∨ m.ovl ≠ 0 ∨ m.offset ≠ 0 ∨ m.overlay = true ∨ m.len ≠ 4) := by
  obtain ⟨h1, h2, h3, h4, h5, h6, h7, h8⟩ := hm
  simp [h1, h2, h3, h4, h5, h6, h7, h8]

theorem State.doNegotiate_low (hv : s.proposed m < fieldN m.value 2 2 ∨ s.proposed m < s.odG 0x1011 2) :
    s.doNegotiate c m = (s, { code := 0x0008 }) :=
  (if_neg (State.doNegotiate_form hm)).trans (if_pos hv)

/-- A version that both sides reach is in force for the caller, which the network then has as a peer, where the table
of peers has room (R384, R385). -/
theorem State.doNegotiate_agreed (hlo : fieldN m.value 2 2 ≤ s.proposed m) (hmin : s.odG 0x1011 2 ≤ s.proposed m)
    (hroom : ∀ a p, c = .net a p → s.hub.peers.length < 16) :
    s.doNegotiate c m = ((s.withPeer c).withVersion c (s.proposed m),
      { code := 0, value := leBytes 2 (s.proposed m), total := 2 }) := by
  refine (if_neg (State.doNegotiate_form hm)).trans
    ((if_neg (not_or.2 ⟨Nat.not_lt.2 hlo, Nat.not_lt.2 hmin⟩)).trans ?_)
  cases c with
  | net a p =>
    have hfull : ¬(!s.hub.peers.contains (a, p) && decide (16 ≤ s.hub.peers.length)) = true := by
      have := hroom a p rfl
      simp only [Bool.and_eq_true, decide_eq_true_eq]
      omega
    exact if_neg hfull
  | pf port => rfl
  | vf port n => rfl

end negotiate

/-- The network peer holds the device control lock (R290, HOLDER 3). -/
def State.peerHolds (s : State) (a p : Nat) : Prop := s.hub.lockHolder = 3 ∧ s.hub.lockPeer = (a, p)

section lock

variable {s : State} {a p : Nat} {m : DictMsg} {env : CmdEnv}

theorem State.runMsg_lock (hf : formBad m = false) (hi : m.index = 0) (hs : m.sub = 0) (ho : m.ovl = 0)
    (hoff : m.offset = 0) (hp : m.part = 0xFF) (hov : m.overlay = false) (hv : s.versionOf (.net a p) = some m.pver) :
    s.runMsg (.net a p) 5 m env = s.doLock (.net a p) m := by
  simp [State.runMsg, hf, hi, hs, ho, hoff, hp, hov, hv]

variable (ht : m.type = 0x02) (hl : m.len = 1)
include ht hl

theorem State.doLock_acquire (h1 : leNat m.value = 1) (hfree : s.hub.lockHolder = 0 ∨ s.peerHolds a p) :
    s.doLock (.net a p) m = (s.grantLock 3 (a, p), { code := 0 }) := by
  have : s.hub.lockHolder = 0 ∨ (s.hub.lockHolder == 3 && s.hub.lockPeer == (a, p)) = true := by
    simpa [State.peerHolds] using hfree
  simp only [State.doLock, ht, hl, h1, if_pos this]
  rfl

theorem State.doLock_acquire_held (h1 : leNat m.value = 1) (hheld : s.hub.lockHolder ≠ 0) (hother : ¬s.peerHolds a p) :
    s.doLock (.net a p) m = (s, { code := 0x0A03 }) := by
  have : ¬(s.hub.lockHolder = 0 ∨ (s.hub.lockHolder == 3 && s.hub.lockPeer == (a, p)) = true) := by
    simpa [State.peerHolds, hheld] using hother
  simp only [State.doLock, ht, hl, h1, if_neg this]
  rfl

theorem State.doLock_release (h2 : leNat m.value = 2) (hmine : s.peerHolds a p) :
    s.doLock (.net a p) m = (s.freeLock, { code := 0 }) := by
  have : (s.hub.lockHolder == 3 && s.hub.lockPeer == (a, p)) = true := by
    simpa [State.peerHolds] using hmine
  simp only [State.doLock, ht, hl, h2, if_pos this]
  rfl

theorem State.doLock_release_other (h2 : leNat m.value = 2) (hother : ¬s.peerHolds a p) :
    s.doLock (.net a p) m = (s, { code := 0x0A03 }) := by
  have : ¬(s.hub.lockHolder == 3 && s.hub.lockPeer == (a, p)) = true := by
    simpa [State.peerHolds] using hother
  simp only [State.doLock, ht, hl, h2, if_neg this]
  rfl

end lock

end Sys2Proof.Machine
end

section
/-!
SUPPORT. What READ and WRITE of a dictionary entry come to (R18, R381, R383), and the obligation O38.
-/

namespace Sys2Proof.Machine

/-! ### The checks of an entry -/

theorem odFind_idx {idx sub : Nat} {r : OdRow} (h : odFind idx sub = some r) : r.idx = idx := by
  have := List.find?_some h
  simp only [Bool.and_eq_true, beq_iff_eq] at this
  exact this.1.1

/-- An entry that the gate admits is there for the caller. -/
theorem State.absentFor_of_gate {s : State} {c : Caller} {idx sub part : Nat} {write : Bool} {r : OdRow}
    (hr : odFind idx sub = some r) (hg : s.gate c idx sub part write = 0) : s.absentFor c r part = false := by
  simp only [State.gate, hr, State.gateRow] at hg
  cases h : s.absentFor c r part with
  | false => rfl
  | true => rw [if_pos h] at hg; cases hg

/-- What the gate admits in the caller's own partition, no code of the command itself withholds (R18). -/
theorem State.carriedGate_admitted {s : State} {c : Caller} {idx sub part own : Nat}
    (hg : s.gate c idx sub part true = 0) (hown : foreign c idx sub part = false) :
    s.carriedGate c idx sub part own = 0 := by
  simp only [State.carriedGate, hg, hown]
  simp

/-- A refusal of the gate stands before every code of the command but its opcode and format codes. -/
theorem State.carriedGate_refused {s : State} {c : Caller} {idx sub part own : Nat}
    (hg : s.gate c idx sub part true ≠ 0) (hform : isFormCode own = false) :
    s.carriedGate c idx sub part own = s.gate c idx sub part true := by
  simp [State.carriedGate, hform, hg]

/-! ### READ -/

/-- The trace window, OD 0x7010.02, is a BLOB. -/
theorem isText_traceWindow : (odFind 0x7010 2).all (fun r => isText r.ty) = true := by decide +kernel

/-- A numeric entry but those of the log and the debug selector reads as its value (R381). -/
theorem State.readEntry_number {s : State} {m : DictMsg} {r : OdRow} (hr : odFind m.index m.sub = some r) (ht : isText r.ty = false)
    (hlog : r.idx ≠ 0x1110) (hsel : r.idx ≠ 0x7020)
    (part offset : Nat) {v : Nat} (hv : s.entryNum r.idx m.sub (if r.kind = .perPart then part else 0xFF) = some v) :
    s.readEntry r m.sub part offset = (s, 0, leBytes (typeSize r.ty) v, typeSize r.ty) := by
  have htrace : ¬(r.idx = 0x7010 ∧ m.sub = 2) := by
    rintro ⟨hi, hs⟩
    have := isText_traceWindow
    rw [← hi, odFind_idx hr, ← hs, hr, Option.all_some, ht] at this
    cases this
  simp [State.readEntry, hlog, htrace, hsel, ht, hv, numAnswer]

section read

variable {s : State} {c : Caller} {m : DictMsg} {r : OdRow} (hr : odFind m.index m.sub = some r) (hsub : 0 < m.sub)
include hr hsub

theorem State.doRead_refused (hg : s.gate c m.index m.sub (targetPart c m) false ≠ 0) :
    s.doRead c m = (s, { code := s.gate c m.index m.sub (targetPart c m) false }) := by
  simp [State.doRead, Nat.ne_of_gt hsub, hr, hg]

theorem State.doRead_number (hg : s.gate c m.index m.sub (targetPart c m) false = 0)
    (hown : foreign c m.index m.sub (targetPart c m) = false) (hov : m.overlay = false) (ht : isText r.ty = false)
    (hty : m.type = 0 ∨ m.type = typeCode r.ty) (hlog : r.idx ≠ 0x1110) (hsel : r.idx ≠ 0x7020) {v : Nat}
    (hv : s.entryNum r.idx m.sub (if r.kind = .perPart then targetPart c m else 0xFF) = some v) :
    s.doRead c m = (s, { code := 0, value := leBytes (typeSize r.ty) v, total := typeSize r.ty }) := by
  have hz := State.readEntry_number hr ht hlog hsel (targetPart c m) m.offset hv
  have hty' : ¬(m.type ≠ 0 ∧ m.type ≠ typeCode r.ty) := by tauto
  have hearly : isEarlyCode 0 = false := by decide
  simp [State.doRead, Nat.ne_of_gt hsub, hr, hg, hz, hearly, foreignMsg, hown, hty', hov]

end read

/-! ### WRITE -/

theorem isEarlyCode_ite {p : Prop} [Decidable p] {x y : State × Nat} (hx : isEarlyCode x.2 = false)
    (hy : isEarlyCode y.2 = false) : isEarlyCode (if p then x else y).2 = false := by
  split
  · exact hx
  · exact hy

theorem State.selectOverlay_late (c : Caller) (p v : Nat) (s : State) :
    isEarlyCode (State.selectOverlay c p v s).2 = false := by
  unfold State.selectOverlay
  exact isEarlyCode_ite rfl (isEarlyCode_ite rfl (isEarlyCode_ite rfl rfl))

/-- A number is stored, or refused with a code of step 6 of R18 or later. -/
theorem State.writeNum_late (c : Caller) (r : OdRow) (sub part v : Nat) (s : State) :
    isEarlyCode (State.writeNum c r sub part v s).2 = false := by
  unfold State.writeNum
  refine isEarlyCode_ite (State.selectOverlay_late c _ v s) (isEarlyCode_ite rfl (isEarlyCode_ite rfl
    (isEarlyCode_ite ?_ (isEarlyCode_ite (isEarlyCode_ite rfl rfl) (isEarlyCode_ite rfl (isEarlyCode_ite rfl rfl))))))
  split
  · rfl
  · exact isEarlyCode_ite rfl rfl

section write

variable {s : State} {c : Caller} {m : DictMsg} {env : CmdEnv} {r : OdRow} {sub part offset typ v : Nat} {b : List Byte}

/-- A value of another type is refused where the entry is no command (R18 step 7). -/
theorem State.writeEntry_otherType (hty : typ ≠ typeCode r.ty) (hcmd : isCommand r sub = false) :
    State.writeEntry c r sub part offset typ b env s = (s, 0x0701) := by
  have hlate : isEarlyCode (if !inRange r (leNat b) then (s, 0x0003) else s.writeNum c r sub part (leNat b)).2 = false := by
    split
    · rfl
    · exact State.writeNum_late _ _ _ _ _ _
  unfold State.writeEntry
  split
  · rfl
  · simp only [hcmd, Bool.false_eq_true, if_false, hty, hlate, or_self]

/-- A value of the entry's own type and length goes to the command, or to the range check and the store. -/
theorem State.writeEntry_ownType (hlen : isText r.ty = true ∨ b.length = typeSize r.ty) :
    State.writeEntry c r sub part offset (typeCode r.ty) b env s =
      if isCommand r sub then s.writeCommand c r.idx sub part offset b env
      else if !inRange r (leNat b) then (s, 0x0003)
      else s.writeNum c r sub part (leNat b) := by
  have hsize : ¬(isText r.ty = false ∧ b.length ≠ typeSize r.ty) := by
    rintro ⟨ht, hl⟩
    rcases hlen with h | h
    · rw [h] at ht; cases ht
    · exact hl h
  rw [State.writeEntry, if_neg hsize, if_pos (Or.inl rfl)]

/-- An entry that no rule names beyond its range is stored (R381). -/
theorem State.writeNum_plain (h : r.idx ∉ [0x1210, 0x3101, 0x7000, 0x7010, 0x7020, 0x5000, 0x3000, 0x6100]) :
    State.writeNum c r sub part v s = (s.storeEntry r sub part v, 0) := by
  simp only [List.mem_cons, List.not_mem_nil, or_false, not_or] at h
  simp [State.writeNum, h]

@[simp] theorem State.storeEntry_tiles : (s.storeEntry r sub part v).tiles = s.tiles := by
  unfold State.storeEntry
  dsimp only
  split
  · rfl
  · rfl

/-- A number stored reads back; the count of saved writes, OD 0x1200.02, is another entry. -/
theorem State.odP_storeEntry (hidx : r.idx ≠ 0x1200) (hs : sub < 256) (hp : part < 256) :
    (s.storeEntry r sub part v).odP r.idx sub (if r.kind = .perPart then part else 0xFF) = v := by
  have hp' : (if r.kind = .perPart then part else 0xFF) < 256 := by split <;> omega
  unfold State.storeEntry
  dsimp only
  split
  · rw [State.commit, State.odAdd, State.odSet,
      State.odP_odSetP_other _ _ _ _ _ _ _ _ (odKey_ne_of_index hs hp' (by decide) (by decide) hidx),
      State.odP_odSetP_same]
  · exact State.odP_odSetP_same _ _ _ _ _

/-- A WRITE that carries no opcode or format code of a command. -/
theorem State.carriedForm_of_late (hr : odFind m.index m.sub = some r)
    (h : isCommand r m.sub = false ∨
      isFormCode (State.writeEntry c r m.sub (targetPart c m) m.offset m.type m.value env s).2 = false) :
    s.carriedForm c m env = 0 := by
  rcases h with h | h <;> simp [State.carriedForm, hr, h]

theorem State.carriedForm_of_command (hr : odFind m.index m.sub = some r) (hcmd : isCommand r m.sub = true)
    (hov : m.overlay = false) (hthere : s.absentFor c r (targetPart c m) = false)
    (hform : isFormCode (State.writeEntry c r m.sub (targetPart c m) m.offset m.type m.value env s).2 = true) :
    s.carriedForm c m env = (State.writeEntry c r m.sub (targetPart c m) m.offset m.type m.value env s).2 := by
  simp [State.carriedForm, hr, hcmd, hov, hthere, hform]

theorem State.doWrite_refused (hr : odFind m.index m.sub = some r) (hov : m.overlay = false)
    (hg : s.gate c m.index m.sub (targetPart c m) true ≠ 0)
    (hform : isFormCode (State.writeEntry c r m.sub (targetPart c m) m.offset m.type m.value env s).2 = false) :
    s.doWrite c m env = (s, { code := s.gate c m.index m.sub (targetPart c m) true }) := by
  simp only [State.doWrite, hr, hov, State.carriedGate_refused hg hform]
  simp [hg]

/-- A WRITE that the gate admits comes to what the entry makes of it. -/
theorem State.doWrite_admitted (hr : odFind m.index m.sub = some r) (hov : m.overlay = false)
    (hg : s.gate c m.index m.sub (targetPart c m) true = 0)
    (hown : foreign c m.index m.sub (targetPart c m) = false) {u : State} {code : Nat}
    (hz : State.writeEntry c r m.sub (targetPart c m) m.offset m.type m.value env s = (u, code)) :
    s.doWrite c m env = (u, ⟨code, [], if code = 0 then writeTotal r m else 0,
      code == 0 && s.shadowed r m.sub (targetPart c m)⟩) := by
  simp only [State.doWrite, hr, hov, hz, State.carriedGate_admitted hg hown]
  simp

end write

/-! ### The requests and their answers -/

theorem odAdd_od_congr {s u : State} (h : u.od = s.od) (i b v : Nat) : (u.odAdd i b v).od = (s.odAdd i b v).od :=
  congrArg (fun od => (State.odAdd { s with od := od } i b v).od) h

section requests

variable {s : State} {c : Caller} {m : DictMsg}

theorem responds_negotiate_low (hask : Asks s c m) (hf : formBad m = false) (hm : negotiateForm m)
    (hv : s.proposed m < fieldN m.value 2 2 ∨ s.proposed m < s.odG 0x1011 2) :
    Responds (.negotiate c m) s c m 0x0008 [] 0 false
      (fun u => u.hub.versions = s.hub.versions ∧ u.hub.peers = s.hub.peers) := by
  have hrun : (s.taken c).runMsg c 1 m quietEnv = (s.taken c, { code := 0x0008 }) := by
    rw [State.runMsg_negotiate hf, State.doNegotiate_low hm (by simpa [State.proposed] using hv)]
  exact responds_of_runMsg 1 hask rfl (exec_negotiate hask.1) hrun (.inl (by decide)) (by simp)

theorem responds_negotiate_agreed (hask : Asks s c m) (hf : formBad m = false) (hm : negotiateForm m)
    (hlo : fieldN m.value 2 2 ≤ s.proposed m) (hmin : s.odG 0x1011 2 ≤ s.proposed m)
    (hroom : ∀ a p, c = .net a p → s.hub.peers.length < 16) :
    Responds (.negotiate c m) s c m 0 (leBytes 2 (s.proposed m)) 2 false
      (fun u => u.versionOf c = some (s.proposed m) ∧ (∀ a p, c = .net a p → (a, p) ∈ u.hub.peers) ∧
        u.od = ((s.taken c).odAdd 0x1100 5 1).od) := by
  have hprop : (s.taken c).proposed m = s.proposed m := by simp [State.proposed]
  have hrun : (s.taken c).runMsg c 1 m quietEnv = (((s.taken c).withPeer c).withVersion c (s.proposed m),
      ⟨0, leBytes 2 (s.proposed m), 2, false⟩) := by
    rw [State.runMsg_negotiate hf, State.doNegotiate_agreed hm (by rwa [hprop]) (by simpa [hprop] using hmin)
      (by simpa using hroom), hprop]
  refine responds_of_runMsg 1 hask rfl (exec_negotiate hask.1) hrun (.inl (by decide)) ⟨?_, ?_, ?_⟩
  · rw [State.answered_versionOf, State.versionOf_withVersion]
  · rintro a p rfl
    rw [State.answered_peers]
    exact State.mem_peersWith _ _
  · rw [State.answered_od]
    exact odAdd_od_congr (by rw [← State.withPeer_od (s.taken c) c]; rfl) _ _ _

theorem responds_read_formBad (hask : Asks s c m) (hf : formBad m = true) :
    Responds (.read c m) s c m 0x0002 [] 0 false (fun u => u.odG 0x1100 6 = s.odG 0x1100 6 + 1) := by
  refine responds_of_runMsg 2 hask rfl (exec_read hask.1) (State.runMsg_formBad hf (by decide) (by decide))
    (.inl (by decide)) ?_
  rw [State.odG, State.answered_odP _ _ _ _ _ (by decide) (by decide) (.inr (by decide))]
  calc ((s.taken c).dictViolation c 0x0002).odG 0x1100 6
      = ((s.taken c).odAdd 0x1100 6 1).odG 0x1100 6 := State.log_odG _ _ (by decide) (by decide)
    _ = s.odG 0x1100 6 + 1 := by rw [State.odG_odAdd_same, State.taken_odG]

section read

variable (hask : Asks s c m) (hf : formBad m = false) (ha : (s.taken c).accessCode c m false = 0)
include hf ha

theorem State.runMsg_read_inForce (hv : s.versionOf c = some m.pver) :
    (s.taken c).runMsg c 2 m quietEnv = (s.taken c).doRead c m := by
  rw [State.runMsg_read hf ha, if_neg (by simpa using hv)]

include hask

theorem responds_read_wrongVersion (hv : s.versionOf c ≠ some m.pver) :
    Responds (.read c m) s c m 0x0702 [] 0 false (fun u => u.parts = s.parts) := by
  have hrun : (s.taken c).runMsg c 2 m quietEnv = (s.taken c, { code := 0x0702 }) := by
    rw [State.runMsg_read hf ha, if_pos (by simpa using hv)]
  exact responds_of_runMsg 2 hask rfl (exec_read hask.1) hrun (.inl (by decide)) (by simp)

variable (hv : s.versionOf c = some m.pver) {r : OdRow} (hsub : 0 < m.sub) (hr : odFind m.index m.sub = some r)
include hv hsub hr

theorem responds_read_refused (hg : (s.taken c).gate c m.index m.sub (targetPart c m) false ≠ 0) :
    Responds (.read c m) s c m ((s.taken c).gate c m.index m.sub (targetPart c m) false) [] 0 false
      (fun u => u.parts = s.parts) := by
  have hrun := (State.runMsg_read_inForce hf ha hv).trans (State.doRead_refused hr hsub hg)
  exact responds_of_runMsg 2 hask rfl (exec_read hask.1) hrun (.inl (by decide)) (by simp)

theorem responds_read_number (hg : (s.taken c).gate c m.index m.sub (targetPart c m) false = 0)
    (hown : foreign c m.index m.sub (targetPart c m) = false) (hov : m.overlay = false) (ht : isText r.ty = false)
    (hty : m.type = 0 ∨ m.type = typeCode r.ty) (hlog : r.idx ≠ 0x1110) (hsel : r.idx ≠ 0x7020) {v : Nat}
    (hnum : (s.taken c).entryNum r.idx m.sub (if r.kind = .perPart then targetPart c m else 0xFF) = some v) :
    Responds (.read c m) s c m 0 (leBytes (typeSize r.ty) v) (typeSize r.ty) false (fun u =>
      u.parts = s.parts ∧ u.tiles = s.tiles ∧ u.od = ((s.taken c).odAdd 0x1100 5 1).od) := by
  have hrun := (State.runMsg_read_inForce hf ha hv).trans
    (State.doRead_number hr hsub hg hown hov ht hty hlog hsel hnum)
  exact responds_of_runMsg 2 hask rfl (exec_read hask.1) hrun (.inl (by decide)) (by simp)

end read

section write

variable {env : CmdEnv} {r : OdRow} (henv : startOk env.start = true) (hask : Asks s c m) (hf : formBad m = false)
  (ha : (s.taken c).accessCode c m false = 0) (hv : s.versionOf c = some m.pver) (hov : m.overlay = false)
  (hr : odFind m.index m.sub = some r)
include henv hask hf ha hv hov hr

theorem responds_write_refused (hg : (s.taken c).gate c m.index m.sub (targetPart c m) true ≠ 0)
    (hform : isFormCode
      (State.writeEntry c r m.sub (targetPart c m) m.offset m.type m.value env (s.taken c)).2 = false) :
    Responds (.write c m env) s c m ((s.taken c).gate c m.index m.sub (targetPart c m) true) [] 0 false
      (fun u => u.parts = s.parts) := by
  have hrun := (State.runMsg_write hf ha (State.carriedForm_of_late hr (.inr hform)) (by simpa using hv)).trans
    (State.doWrite_refused hr hov hg hform)
  exact responds_of_runMsg 3 hask rfl (exec_write hask.1 henv) hrun (.inr (.inl hg)) (by simp)

variable (hg : (s.taken c).gate c m.index m.sub (targetPart c m) true = 0)
  (hown : foreign c m.index m.sub (targetPart c m) = false)
include hg hown

/-- A WRITE that the gate admits is answered with what the entry makes of it, unless it carries a command whose opcode
or format is wrong. -/
theorem responds_write_admitted {u : State} {code : Nat} {P : State → Prop}
    (hz : State.writeEntry c r m.sub (targetPart c m) m.offset m.type m.value env (s.taken c) = (u, code))
    (hlate : isCommand r m.sub = false ∨ isFormCode code = false)
    (hafter : code ≠ 0 ∨ (m.index ≠ 0x1130 ∧ m.index ≠ 0x7100)) (hP : ∀ q, P (u.answered c 3 m.seq q)) :
    Responds (.write c m env) s c m code [] (if code = 0 then writeTotal r m else 0)
      (code == 0 && (s.taken c).shadowed r m.sub (targetPart c m)) P := by
  have hcarried : (s.taken c).carriedForm c m env = 0 := State.carriedForm_of_late hr (by rw [hz]; exact hlate)
  have hrun := (State.runMsg_write hf ha hcarried (by simpa using hv)).trans (State.doWrite_admitted hr hov hg hown hz)
  exact responds_of_runMsg 3 hask rfl (exec_write hask.1 henv) hrun (.inr hafter) (hP _)

theorem responds_write_otherType (hty : m.type ≠ typeCode r.ty) (hcmd : isCommand r m.sub = false) :
    Responds (.write c m env) s c m 0x0701 [] 0 false (fun u => u.parts = s.parts) :=
  responds_write_admitted henv hask hf ha hv hov hr hg hown (State.writeEntry_otherType hty hcmd) (.inl hcmd)
    (.inl (by decide)) (by simp)

variable (hty : m.type = typeCode r.ty)
include hty

theorem responds_write_outOfRange (hlen : m.value.length = typeSize r.ty) (hcmd : isCommand r m.sub = false)
    (hrange : inRange r (leNat m.value) = false) :
    Responds (.write c m env) s c m 0x0003 [] 0 false (fun u => u.parts = s.parts) := by
  have hz : State.writeEntry c r m.sub (targetPart c m) m.offset m.type m.value env (s.taken c) =
      (s.taken c, 0x0003) := by
    rw [hty, State.writeEntry_ownType (.inr hlen)]
    simp [hcmd, hrange]
  exact responds_write_admitted henv hask hf ha hv hov hr hg hown hz (.inl hcmd) (.inl (by decide)) (by simp)

/-- A plain entry is stored for its partition, or the device, and its full length answered (R381). -/
theorem responds_write_stored (ht : isText r.ty = false) (hlen : m.value.length = typeSize r.ty)
    (hcmd : isCommand r m.sub = false) (hrange : inRange r (leNat m.value) = true) (hs : m.sub < 256)
    (hp : targetPart c m < 256)
    (hplain : m.index ∉
      [0x1210, 0x3101, 0x7000, 0x7010, 0x7020, 0x5000, 0x3000, 0x6100, 0x1100, 0x1130, 0x1200, 0x7100]) :
    Responds (.write c m env) s c m 0 [] (typeSize r.ty) ((s.taken c).shadowed r m.sub (targetPart c m)) (fun u =>
      u.odP m.index m.sub (if r.kind = .perPart then targetPart c m else 0xFF) = leNat m.value ∧ u.tiles = s.tiles) := by
  have hidx := odFind_idx hr
  simp only [List.mem_cons, List.not_mem_nil, or_false, not_or] at hplain
  have hz : State.writeEntry c r m.sub (targetPart c m) m.offset m.type m.value env (s.taken c) =
      ((s.taken c).storeEntry r m.sub (targetPart c m) (leNat m.value), 0) := by
    rw [hty, State.writeEntry_ownType (.inr hlen), State.writeNum_plain (by simp [hidx, hplain])]
    simp [hcmd, hrange]
  have htotal : writeTotal r m = typeSize r.ty := by simp [writeTotal, ht]
  have hp' : (if r.kind = .perPart then targetPart c m else 0xFF) < 256 := by split <;> omega
  rw [← htotal]
  refine responds_write_admitted henv hask hf ha hv hov hr hg hown hz (.inl hcmd) (.inr (by simp [hplain]))
    (fun q => ⟨?_, by simp⟩)
  rw [State.answered_odP _ _ _ _ _ hs hp' (.inl (by simp [hplain])), ← hidx]
  exact State.odP_storeEntry (by simp [hidx, hplain]) hs hp

/-- A command's entry runs the command; its opcode and format codes come first and change nothing (R18). -/
theorem responds_write_command (hcmd : isCommand r m.sub = true)
    (hlen : isText r.ty = true ∨ m.value.length = typeSize r.ty) {u : State} {code : Nat}
    (hz : (s.taken c).writeCommand c r.idx m.sub (targetPart c m) m.offset m.value env = (u, code)) (hne : code ≠ 0) :
    Responds (.write c m env) s c m code [] 0 false (fun w =>
      if isFormCode code = true then w.parts = s.parts ∧ w.tiles = s.tiles else w.parts = u.parts ∧ w.tiles = u.tiles) := by
  have hentry : State.writeEntry c r m.sub (targetPart c m) m.offset m.type m.value env (s.taken c) = (u, code) := by
    rw [hty, State.writeEntry_ownType hlen, if_pos hcmd, hz]
  cases hform : isFormCode code with
  | true =>
    have hcarried : (s.taken c).carriedForm c m env = code := by
      rw [State.carriedForm_of_command hr hcmd hov (State.absentFor_of_gate hr hg) (by rw [hentry]; exact hform), hentry]
    have hrun := State.runMsg_carriedForm hf ha (hcarried.trans_ne hne)
    rw [hcarried] at hrun
    exact responds_of_runMsg 3 hask rfl (exec_write hask.1 henv) hrun (.inr (.inl hne)) (by simp)
  | false =>
    have := responds_write_admitted (P := fun w => w.parts = u.parts ∧ w.tiles = u.tiles) henv hask hf ha hv hov hr hg
      hown hentry (.inr hform) (.inl hne) (by simp)
    simpa [hne, beq_false_of_ne hne] using this

end write

theorem responds_list (hask : Asks s c m) (hf : formBad m = false) (ha : (s.taken c).accessCode c m true = 0)
    (hv : s.versionOf c = some m.pver) (hown : ∀ p, callerPart c = some p → targetPart c m = p) {b : List Byte}
    (hb : b = (((s.taken c).listRecords c m.index m.sub (targetPart c m)).take 509).flatten) :
    Responds (.list c m) s c m 0 b b.length false (fun u => u.parts = s.parts) := by
  have hpart : ¬((callerPart c).isSome && targetPart c m != (callerPart c).getD 0) = true := by
    cases h : callerPart c with
    | none => simp
    | some p => simp [hown p h]
  have hlist : (s.taken c).doList c m = ⟨0, b, b.length, false⟩ := by
    rw [State.doList, if_neg hpart, ← hb]
  have hrun : (s.taken c).runMsg c 4 m quietEnv = (s.taken c, ⟨0, b, b.length, false⟩) := by
    rw [State.runMsg_list hf ha (by simpa using hv), hlist]
  exact responds_of_runMsg 4 hask rfl (exec_list hask.1) hrun (.inl (by decide)) (by simp)

theorem responds_lock_of_mailbox (hask : Asks s c m) (hc : ∀ a p, c ≠ .net a p) :
    Responds (.networkLockAcquire c m) s c m 0x0001 [] 0 false (fun u => u.hub.lockHolder = s.hub.lockHolder) :=
  responds_of_runMsg 5 hask rfl (exec_networkLockAcquire hask.1) (State.runMsg_lock_of_mailbox hc) (.inl (by decide)) (by simp)

end requests

section lock

variable {s : State} {m : DictMsg} {a p : Nat} (hask : Asks s (.net a p) m)
  (hrun : (s.taken (.net a p)).runMsg (.net a p) 5 m quietEnv = (s.taken (.net a p)).doLock (.net a p) m)
  (ht : m.type = 0x02) (hl : m.len = 1)
include hask hrun ht hl

theorem responds_lock_acquired (h1 : leNat m.value = 1) (hfree : s.hub.lockHolder = 0 ∨ s.peerHolds a p) :
    Responds (.networkLockAcquire (.net a p) m) s (.net a p) m 0 [] 0 false (fun u =>
      u.hub.lockHolder = 3 ∧ u.hub.lockPeer = (a, p) ∧ u.hub.leaseEnd = s.clkTime + 10000 * 1300000) := by
  have hdo := State.doLock_acquire (s := s.taken (.net a p)) ht hl h1 (by simpa [State.peerHolds] using hfree)
  refine responds_of_runMsg 5 hask rfl (exec_networkLockAcquire hask.1) (hrun.trans hdo) (.inl (by decide)) ?_
  simp [State.grantLock, cyclesPerUs]

theorem responds_lock_held (h1 : leNat m.value = 1) (hheld : s.hub.lockHolder ≠ 0) (hother : ¬s.peerHolds a p) :
    Responds (.networkLockAcquire (.net a p) m) s (.net a p) m 0x0A03 [] 0 false (fun u =>
      u.hub.lockHolder = s.hub.lockHolder ∧ u.hub.leaseEnd = s.hub.leaseEnd) := by
  have hdo := State.doLock_acquire_held (s := s.taken (.net a p)) ht hl h1 (by simpa using hheld)
    (by simpa [State.peerHolds] using hother)
  exact responds_of_runMsg 5 hask rfl (exec_networkLockAcquire hask.1) (hrun.trans hdo) (.inl (by decide)) (by simp)

theorem responds_lock_released (h2 : leNat m.value = 2) (hmine : s.peerHolds a p) :
    Responds (.networkLockRelease (.net a p) m) s (.net a p) m 0 [] 0 false (fun u => u.hub.lockHolder = 0) := by
  have hdo := State.doLock_release (s := s.taken (.net a p)) ht hl h2 (by simpa [State.peerHolds] using hmine)
  exact responds_of_runMsg 5 hask rfl (exec_networkLockRelease hask.1) (hrun.trans hdo) (.inl (by decide)) (by simp [State.freeLock])

theorem responds_lock_notReleased (h2 : leNat m.value = 2) (hother : ¬s.peerHolds a p) :
    Responds (.networkLockRelease (.net a p) m) s (.net a p) m 0x0A03 [] 0 false (fun u =>
      u.hub.lockHolder = s.hub.lockHolder) := by
  have hdo := State.doLock_release_other (s := s.taken (.net a p)) ht hl h2 (by simpa [State.peerHolds] using hother)
  exact responds_of_runMsg 5 hask rfl (exec_networkLockRelease hask.1) (hrun.trans hdo) (.inl (by decide)) (by simp)

end lock

/-- Settles O38, by the kind of request and the check of R18 that decides it. -/
theorem dictionaryRequests : Obligations.DictionaryRequests := by
  unfold Obligations.DictionaryRequests
  intro s c m env henv hask s1 inForce part own
  refine ⟨?_, responds_read_formBad hask, ?_, ?_, ?_, responds_lock_of_mailbox hask⟩
  case refine_1 =>
    intro v hf h1 h2 h3 h4 h5 h6 h7 h8
    have hm : negotiateForm m := ⟨h1, h2, h3, h4, h5, h6, h7, h8⟩
    exact ⟨responds_negotiate_agreed hask hf hm, responds_negotiate_low hask hf hm⟩
  case refine_2 =>
    intro hf hov ha
    refine ⟨responds_read_wrongVersion hask hf ha, fun hv hsub r hr => ⟨responds_read_refused hask hf ha hv hsub hr,
      fun v hg hown ht hty hlog hsel hnum =>
        responds_read_number hask hf ha hv hsub hr hg hown hov ht hty hlog hsel hnum,
      responds_write_refused henv hask hf ha hv hov hr, fun hg hown => ⟨?_, ?_, ?_⟩⟩⟩
    · exact responds_write_otherType henv hask hf ha hv hov hr hg hown
    · intro hty ht hlen hcmd
      exact ⟨responds_write_outOfRange henv hask hf ha hv hov hr hg hown hty hlen hcmd,
        fun hrange _ hs hp hplain =>
          responds_write_stored henv hask hf ha hv hov hr hg hown hty ht hlen hcmd hrange hs hp hplain⟩
    · intro hty hcmd hlen z hne
      exact responds_write_command henv hask hf ha hv hov hr hg hown hty hcmd hlen rfl hne
  case refine_3 =>
    intro hf ha hv hown b
    exact responds_list hask hf ha hv hown rfl
  case refine_4 =>
    rintro a p rfl hf hi hs ho hoff hp hov hv ht hl mine
    have hrun : (s.taken (.net a p)).runMsg (.net a p) 5 m quietEnv = (s.taken (.net a p)).doLock (.net a p) m :=
      State.runMsg_lock hf hi hs ho hoff hp hov (by simpa using hv)
    exact ⟨responds_lock_acquired hask hrun ht hl, responds_lock_held hask hrun ht hl,
      responds_lock_released hask hrun ht hl, responds_lock_notReleased hask hrun ht hl⟩

end Sys2Proof.Machine
end

section
/-!
SUPPORT. Segments and channel entries of a charge bank (R31, R53, R54, R57): what each write makes of a bank, what a token
boundary applies, and the obligation O22.
-/

namespace Sys2Proof.Machine

/-! ### Tables and bits -/

theorem mem_mset {α : Type} [DecidableEq α] (d : α) (m : SMap α) (k : Nat) (v : α) :
    ∀ e ∈ mset d m k v, e = (k, v) ∨ e ∈ m := by
  intro e he
  unfold mset at he
  split at he
  · exact .inr (mdel_subset m k e he)
  · exact (mem_minsert _ k v e he).imp_right (mdel_subset m k e)

theorem mem_of_mfind {α : Type} {m : SMap α} {k : Nat} {v : α} (h : mfind m k = some v) : (k, v) ∈ m := by
  induction m with
  | nil => cases h
  | cons e r ih =>
    obtain ⟨a, w⟩ := e
    rw [mfind] at h
    split at h
    · rename_i ha
      cases h; cases ha
      exact List.mem_cons_self
    · exact List.mem_cons_of_mem _ (ih h)

theorem bit_setBit_same (v i : Nat) : bit (setBit v i true) i = true := by
  unfold setBit
  split
  · assumption
  · rename_i h
    have hdiv : (v + 2 ^ i) / 2 ^ i = v / 2 ^ i + 1 := Nat.add_div_right v (Nat.two_pow_pos i)
    simp only [bit, if_true, hdiv, beq_iff_eq] at h ⊢
    omega

@[simp] theorem pmcAdd_events (c : Core) (sel n : Nat) : (pmcAdd c sel n).events = c.events := rfl

/-! ### Segments and arrays of a bank -/

theorem ChargeBank.seg_modSeg (cb : ChargeBank) (n m : Nat) (f : Segment → Segment) :
    (cb.modSeg n f).seg m = if m = n then f (cb.seg n) else cb.seg m := mget_mset _ _ _ _ _

theorem ChargeBank.arr_modArr (cb : ChargeBank) (a b : Nat) (f : ChargeArray → ChargeArray) :
    (cb.modArr a f).arr b = if b = a then f (cb.arr a) else cb.arr b := mget_mset _ _ _ _ _

/-- An array whose latched words are discarded. -/
def wordless (x : ChargeArray) : ChargeArray := { x with latch := [], latched := [], token := 0, exact := none }

/-- A bank in which the words latched in each of some arrays are discarded. -/
def wordsDropped (cb : ChargeBank) (as : List Nat) : ChargeBank := as.foldl (fun cb a => cb.modArr a wordless) cb

theorem wordsDropped_arr (as : List Nat) (cb : ChargeBank) (b : Nat) :
    (wordsDropped cb as).arr b = if b ∈ as then wordless (cb.arr b) else cb.arr b := by
  induction as generalizing cb with
  | nil => simp [wordsDropped]
  | cons a r ih =>
    have hstep : wordsDropped cb (a :: r) = wordsDropped (cb.modArr a wordless) r := rfl
    rw [hstep, ih, ChargeBank.arr_modArr]
    by_cases hb : b = a
    · subst hb
      simp [wordless]
    · simp [hb]

/-- Dropping words changes the arrays of a bank alone. -/
theorem wordsDropped_frame (as : List Nat) (cb : ChargeBank) :
    wordsDropped cb as = { cb with arrays := (wordsDropped cb as).arrays } := by
  induction as generalizing cb with
  | nil => rfl
  | cons a r ih => exact ih (cb.modArr a wordless)

/-- Discarding words changes the arrays and the ready passes of a bank alone. -/
theorem discardWords_frame (cb : ChargeBank) (as : List Nat) :
    ∃ r, discardWords cb as = { cb with arrays := (wordsDropped cb as).arrays, ready := r } :=
  ⟨(discardWords cb as).ready,
    congrArg (fun c => { c with ready := (discardWords cb as).ready }) (wordsDropped_frame as cb)⟩

theorem discardWords_seg (cb : ChargeBank) (as : List Nat) (n : Nat) : (discardWords cb as).seg n = cb.seg n := by
  obtain ⟨r, h⟩ := discardWords_frame cb as
  rw [h]; rfl

theorem discardWords_cells (cb : ChargeBank) (as : List Nat) : (discardWords cb as).cells = cb.cells := by
  obtain ⟨r, h⟩ := discardWords_frame cb as
  rw [h]

theorem discardWords_arr (cb : ChargeBank) (as : List Nat) (b : Nat) :
    (discardWords cb as).arr b = if b ∈ as then wordless (cb.arr b) else cb.arr b :=
  wordsDropped_arr as cb b

/-! ### Writes of a segment's registers -/

section segment

variable {cb : ChargeBank} {n v : Nat}

theorem enableSeg_enabled (hen : (cb.seg n).en = true) : enableSeg cb n v = cfgErr cb := if_pos hen

theorem enableSeg_ok (hen : (cb.seg n).en = false) (hok : enableOk cb n (setCfg0 (cb.seg n) v) = true) :
    enableSeg cb n v = discardWords (cb.modSeg n (fun _ => { clearTokens (setCfg0 (cb.seg n) v) with en := true }))
      (arraysOf (setCfg0 (cb.seg n) v)) := by
  simp [enableSeg, hen, hok]

/-- The fields that a failed enabling stores are log 131. -/
theorem enableSeg_fails (hen : (cb.seg n).en = false) (hok : enableOk cb n (setCfg0 (cb.seg n) v) = false) :
    enableSeg cb n v = cfgErr (cb.modSeg n (fun _ => setCfg0 (cb.seg n) v)) := by
  simp [enableSeg, hen, hok]

theorem settleBoundary_waits (hb : cb.boundary = false) : settleBoundary cb = cb := by
  simp [settleBoundary, hb]

theorem disableSeg_waits (hen : (cb.seg n).en = true) (hb : cb.boundary = false)
    (hv : bits v 30 0 = bits (segCfg0 (cb.seg n)) 30 0) :
    disableSeg cb n v = cb.modSeg n (fun g => { g with disabling := true }) := by
  simp only [disableSeg, if_pos hen, if_pos hv]
  exact settleBoundary_waits hb

theorem disableSeg_disabled (hen : (cb.seg n).en = false) :
    disableSeg cb n v = cb.modSeg n (fun _ => setCfg0 (cb.seg n) v) := by
  simp only [disableSeg, hen]
  rfl

theorem writeSeg_cfg1_enabled (hen : (cb.seg n).en = true) (v : Word) : writeSeg cb n 0x04 v = cfgErr cb := by
  simp [writeSeg, writeSegOther, hen]

theorem writeSeg_cfg1_disabled (hen : (cb.seg n).en = false) (v : Word) :
    writeSeg cb n 0x04 v = cb.modSeg n (fun g => setCfg1 g v.toNat) := by
  simp [writeSeg, writeSegOther, hen]

variable {off : Nat}

theorem writeSeg_waits (h0 : off ≠ 0) (h4 : off ≠ 0x04) (hen : (cb.seg n).en = true) (hb : cb.boundary = false) (v : Word) :
    writeSeg cb n off v = cb.modSeg n (fun g => { g with defer := g.defer ++ [(off, v)] }) := by
  simp only [writeSeg, writeSegOther, if_neg h0, if_neg h4, if_pos hen]
  exact settleBoundary_waits hb

theorem writeSeg_disabled (h0 : off ≠ 0) (h4 : off ≠ 0x04) (hen : (cb.seg n).en = false) (v : Word) :
    writeSeg cb n off v = cb.modSeg n (fun g => setSegReg g off v) := by
  simp [writeSeg, writeSegOther, h0, h4, hen]

end segment

section exec

variable {s : State} {t : TileId} {n : Nat} (ht : tileOk t = true)
include ht

theorem setsBank_segmentEnable (hn : n < 16) {v : Word} {cb : ChargeBank}
    (h : enableSeg (s.tile t).cb n v.toNat = cb) : SetsBank (.segmentEnable t n v) s t cb := by
  subst h
  exact if_pos (by simp [Instr.wf, ht, hn])

theorem setsBank_segmentDisable (hn : n < 16) {v : Word} {cb : ChargeBank}
    (h : disableSeg (s.tile t).cb n v.toNat = cb) : SetsBank (.segmentDisable t n v) s t cb := by
  subst h
  exact if_pos (by simp [Instr.wf, ht, hn])

theorem setsBank_segmentConfigWrite (hn : n < 16) {off : Nat} (hlt : off < 24) (h4 : off % 4 = 0) {v : Word}
    {cb : ChargeBank} (h : writeSeg (s.tile t).cb n off v = cb) : SetsBank (.segmentConfigWrite t n off v) s t cb := by
  subst h
  exact if_pos (by simp [Instr.wf, ht, hn, hlt, h4])

/-- A channel-table write that is taken sets the bank; nothing else of the block changes. -/
theorem setsBank_channelTableWrite (hn : n < 8192) {e : List Byte} (he : e.length = 16) {cb : ChargeBank}
    (h : writeChan (s.tile t).cb n (chanOf e) = (cb, 0)) : SetsBank (.channelTableWrite t n e) s t cb := by
  have hwf : Instr.wf (.channelTableWrite t n e) = true := by simp [Instr.wf, bytesOk, ht, hn, he]
  refine (if_pos hwf).trans ?_
  simp [h]

/-- A refused channel-table write sends its writer the status and changes nothing of the tile. -/
theorem answers_channelTableWrite_refused (hn : n < 8192) {e : List Byte} (he : e.length = 16) {cb : ChargeBank} {code : Nat}
    (h : writeChan (s.tile t).cb n (chanOf e) = (cb, code)) (hc : code ≠ 0) :
    Answers (.channelTableWrite t n e) s (fun u => ∃ w, u = s.emit (.refusal t code w)) := by
  have hwf : Instr.wf (.channelTableWrite t n e) = true := by simp [Instr.wf, bytesOk, ht, hn, he]
  refine ⟨_, if_pos hwf, ?_⟩
  simp only [h, if_pos hc]
  exact ⟨_, rfl⟩

end exec

theorem onlyTile_modTile (s : State) (t : TileId) (f : Tile → Tile) : OnlyTile s (s.modTile t f) t := by
  rw [OnlyTile, State.tile_modTile_same]
  rfl

/-- A bank set by a command is what its tile then holds, and nothing else of the block changes. -/
theorem answers_of_setsBank {c : Instr} {s : State} {t : TileId} {cb : ChargeBank} {P : State → Prop}
    (h : SetsBank c s t cb) (hP : ∀ u, (u.tile t).cb = cb → OnlyTile s u t → P u) : Answers c s P :=
  ⟨_, h, hP _ (congrArg Tile.cb (State.tile_modTile_same s t _)) (onlyTile_modTile s t _)⟩

/-! ### Writes of channel entries (R53, R54) -/

theorem writeChan_notFinite (cb : ChargeBank) (k : Nat) {c : Channel}
    (h : ¬(fpFinite (fpOf c.m) = true ∧ fpFinite (fpOf c.b) = true)) : writeChan cb k c = (cb, 0x0003) := by
  refine if_pos ?_
  rw [not_and_or, Bool.not_eq_true, Bool.not_eq_true] at h
  simpa using h

section channel

variable {cb : ChargeBank} {k : Nat} {c : Channel} (hf : fpFinite (fpOf c.m) = true ∧ fpFinite (fpOf c.b) = true)
include hf

/-- An entry that no enabled segment covers applies at once. -/
theorem writeChan_uncovered (h : chanFormat cb k = none) :
    writeChan cb k c = ({ cb with chans := mset {} cb.chans k c, chanDefer := mdel cb.chanDefer k }, 0) := by
  simp [writeChan, hf, h]

/-- An entry that an enabled segment covers waits for the token boundary. -/
theorem writeChan_covered {fmt : Nat} (h : chanFormat cb k = some fmt) (hz : zOk fmt c.z = true)
    (hb : cb.boundary = false) : writeChan cb k c = ({ cb with chanDefer := mput cb.chanDefer k c }, 0) := by
  simp [writeChan, hf, h, hz, hb]

end channel

/-! ### The token boundary of a bank (R31, R54, R73) -/

@[simp] theorem setSegReg_defer (g : Segment) (off : Nat) (v : Word) : (setSegReg g off v).defer = g.defer := by
  unfold setSegReg
  split <;> rfl

theorem foldl_setSegReg_defer (l : List (Nat × Word)) (g : Segment) :
    (l.foldl (fun g d => setSegReg g d.1 d.2) g).defer = g.defer := by
  induction l generalizing g with
  | nil => rfl
  | cons d r ih => exact (ih _).trans (setSegReg_defer g d.1 d.2)

/-- A segment with the writes applied that waited for the token boundary. -/
def deferApplied (g : Segment) : Segment := g.defer.foldl (fun g d => setSegReg g d.1 d.2) { g with defer := [] }

/-- What a token boundary makes of a segment. -/
def segSettled (g : Segment) : Segment :=
  if g.disabling then { clearTokens (deferApplied g) with en := false, disabling := false } else deferApplied g

@[simp] theorem segSettled_defer (g : Segment) : (segSettled g).defer = [] := by
  have h : (deferApplied g).defer = [] := foldl_setSegReg_defer _ _
  unfold segSettled
  split
  · exact h
  · exact h

theorem segSettled_en (g : Segment) (h : g.disabling = true) : (segSettled g).en = false := by
  simp [segSettled, h]

theorem segBoundary_eq (cb : ChargeBank) (n : Nat) :
    segBoundary cb n = if (cb.seg n).disabling then discardWords (cb.modSeg n segSettled) (arraysOf (cb.seg n))
      else cb.modSeg n segSettled := by
  have hset : cb.modSeg n segSettled = cb.modSeg n (fun _ => segSettled (cb.seg n)) := rfl
  by_cases h : (cb.seg n).disabling = true
  · rw [if_pos h, hset, segSettled, if_pos h]
    exact if_pos h
  · rw [if_neg h, hset, segSettled, if_neg h]
    exact if_neg h

theorem segBoundary_seg (cb : ChargeBank) (n m : Nat) :
    (segBoundary cb n).seg m = if m = n then segSettled (cb.seg n) else cb.seg m := by
  rw [segBoundary_eq]
  split
  · rw [discardWords_seg, ChargeBank.seg_modSeg]
  · rw [ChargeBank.seg_modSeg]

theorem foldl_segBoundary_seg (l : List Nat) (hl : l.Nodup) (cb : ChargeBank) (m : Nat) :
    (l.foldl segBoundary cb).seg m = if m ∈ l then segSettled (cb.seg m) else cb.seg m := by
  induction l generalizing cb with
  | nil => simp
  | cons n r ih =>
    obtain ⟨hn, hr⟩ := List.nodup_cons.1 hl
    rw [List.foldl_cons, ih hr, segBoundary_seg]
    by_cases hm : m = n
    · subst hm
      simp [hn]
    · simp [hm]

/-- No array of the bank is being calibrated. -/
def NoneMeasuring (cb : ChargeBank) : Prop := ∀ e ∈ cb.arrays, e.2.cal ≠ .measuring

theorem NoneMeasuring.arr {cb : ChargeBank} (h : NoneMeasuring cb) (a : Nat) : (cb.arr a).cal ≠ .measuring := by
  unfold ChargeBank.arr mget
  cases hf : mfind cb.arrays a with
  | none => decide
  | some x => exact h _ (mem_of_mfind hf)

theorem NoneMeasuring.wordsDropped {cb : ChargeBank} (h : NoneMeasuring cb) (as : List Nat) :
    NoneMeasuring (wordsDropped cb as) := by
  induction as generalizing cb with
  | nil => exact h
  | cons a r ih =>
    refine ih (cb := cb.modArr a wordless) fun e he => ?_
    rcases mem_mset _ _ _ _ e he with rfl | he
    · exact h.arr a
    · exact h e he

/-- Where no array measures, none does after the boundary of a segment, and the bank stays at the boundary or off it. -/
theorem segBoundary_quiet {cb : ChargeBank} (h : NoneMeasuring cb) (n : Nat) :
    NoneMeasuring (segBoundary cb n) ∧ (segBoundary cb n).boundary = cb.boundary := by
  rw [segBoundary_eq]
  split
  · have hm : NoneMeasuring (wordsDropped (cb.modSeg n segSettled) (arraysOf (cb.seg n))) :=
      NoneMeasuring.wordsDropped (cb := cb.modSeg n segSettled) h _
    obtain ⟨r, hr⟩ := discardWords_frame (cb.modSeg n segSettled) (arraysOf (cb.seg n))
    rw [hr]
    exact ⟨hm, rfl⟩
  · exact ⟨h, rfl⟩

theorem foldl_segBoundary_quiet {cb : ChargeBank} (h : NoneMeasuring cb) (l : List Nat) :
    NoneMeasuring (l.foldl segBoundary cb) ∧ (l.foldl segBoundary cb).boundary = cb.boundary := by
  induction l generalizing cb with
  | nil => exact ⟨h, rfl⟩
  | cons n r ih =>
    obtain ⟨hm, hb⟩ := segBoundary_quiet h n
    exact (ih hm).imp_right hb.subst

/-- Where no array measures, the boundary settles each segment, no channel entry waits any more, and still none
measures. -/
theorem bankBoundary_quiet {cb : ChargeBank} (h : NoneMeasuring cb) :
    NoneMeasuring (bankBoundary cb) ∧ (bankBoundary cb).boundary = cb.boundary ∧ (bankBoundary cb).chanDefer = [] ∧
      ∀ m, m < 16 → (bankBoundary cb).seg m = segSettled (cb.seg m) := by
  obtain ⟨hm, hb⟩ := foldl_segBoundary_quiet h (List.range 16)
  have hseg : ∀ m, m < 16 → ((List.range 16).foldl segBoundary cb).seg m = segSettled (cb.seg m) := fun m hlt => by
    rw [foldl_segBoundary_seg _ List.nodup_range, if_pos (List.mem_range.2 hlt)]
  unfold bankBoundary
  generalize (List.range 16).foldl segBoundary cb = c at hm hb hseg
  exact ⟨hm, hb, rfl, hseg⟩

/-- Where no array measures, the band that waits is loaded (R73, log 90); segments and waiting channel entries stay. -/
theorem loadBand_quiet {cb : ChargeBank} (h : NoneMeasuring cb) :
    (loadBand cb).bandDue = none ∧ (loadBand cb).boundary = cb.boundary ∧
      (loadBand cb).chanDefer = cb.chanDefer ∧ ∀ m, (loadBand cb).seg m = cb.seg m := by
  have hany : ¬cb.arrays.any (fun e => e.2.cal == .measuring) = true := by
    simpa [NoneMeasuring] using h
  unfold loadBand
  split
  · exact ⟨by assumption, rfl, rfl, fun _ => rfl⟩
  · rw [if_neg hany]
    exact ⟨rfl, rfl, rfl, fun _ => rfl⟩

theorem cbReady_frame (cb : ChargeBank) (a : Nat) : ∃ r, cbReady cb a = { cb with ready := r } := by
  unfold cbReady
  dsimp only
  split
  · exact ⟨_, rfl⟩
  · split
    · exact ⟨_, rfl⟩
    · exact ⟨_, rfl⟩

/-- Passes that become ready change the list of ready passes alone. -/
theorem cbReadyAll_frame (cb : ChargeBank) : ∃ r, cbReadyAll cb = { cb with ready := r } := by
  refine List.foldlRecOn (motive := fun c => ∃ r, c = { cb with ready := r }) _ cbReady ⟨cb.ready, rfl⟩ ?_
  rintro c ⟨r, rfl⟩ a -
  obtain ⟨r', h⟩ := cbReady_frame { cb with ready := r } a
  exact ⟨r', h⟩

/-- What a token boundary makes of a bank. -/
def bankSettled (cb : ChargeBank) : ChargeBank :=
  cbReadyAll (burstsFirst (loadBand (bankBoundary { cb with boundary := true })))

/-- A token boundary in a bank of which no array is being calibrated applies all that waits (R31, R54, R73). -/
theorem bankSettled_applied {cb : ChargeBank} (h : NoneMeasuring cb) :
    (bankSettled cb).boundary = true ∧ (bankSettled cb).chanDefer = [] ∧ (bankSettled cb).bandDue = none ∧
      ∀ m, m < 16 → (bankSettled cb).seg m = segSettled (cb.seg m) := by
  obtain ⟨hm, hb, hchan, hseg⟩ := bankBoundary_quiet (cb := { cb with boundary := true }) h
  obtain ⟨hband, hbound, hdefer, hsegs⟩ := loadBand_quiet hm
  unfold bankSettled
  generalize bankBoundary { cb with boundary := true } = c at hb hchan hseg hband hbound hdefer hsegs ⊢
  generalize loadBand c = l at hband hbound hdefer hsegs ⊢
  obtain ⟨r, hr⟩ := cbReadyAll_frame (burstsFirst l)
  rw [hr]
  exact ⟨hbound.trans hb, hdefer.trans hchan, hband, fun m hlt => (hsegs m).trans (hseg m hlt)⟩

/-! ### The token boundary of a tile (R31, R222, log 32) -/

section boundary

variable {s : State} {t : TileId}

theorem State.tokenBoundary_cb : ((s.tokenBoundary t).tile t).cb = bankSettled (s.tile t).cb := by
  simp only [State.tokenBoundary, State.tile_modTile_same, bankSettled]

theorem State.tokenBoundary_signals (hb : (s.tile t).cb.boundary = false) :
    bit ((s.tokenBoundary t).tile t).cc.events 9 = true := by
  simp [State.tokenBoundary, hb, bit_setBit_same]

theorem onlyTile_tokenBoundary : OnlyTile s (s.tokenBoundary t) t := by
  rw [State.tokenBoundary]
  exact onlyTile_modTile s t _

theorem State.retryWalks_none (h : ∀ p, s.partOfTile t = some p → ∀ d ∈ (s.part p).walkDue, d.tile ≠ tkey t) :
    s.retryWalks t = s := by
  unfold State.retryWalks
  split
  · rfl
  · rename_i p hp
    have hnone : (s.part p).walkDue.filter (fun d => d.tile == tkey t) = [] := by
      simpa [List.filter_eq_nil_iff] using h p hp
    rw [hnone]
    rfl

theorem exec_tokenBoundary (ht : tileOk t = true) (hwait : s.boundaryWaits t = false)
    (hwalk : ∀ p, s.partOfTile t = some p → ∀ d ∈ (s.part p).walkDue, d.tile ≠ tkey t) :
    exec (.tokenBoundary t) s = .next (s.tokenBoundary t) := by
  have hparts : (s.tokenBoundary t).parts = s.parts := by
    rw [State.tokenBoundary, State.modTile_parts]
  have hod : (s.tokenBoundary t).od = s.od := by
    rw [State.tokenBoundary, State.modTile_od]
  have hretry : (s.tokenBoundary t).retryWalks t = s.tokenBoundary t := by
    refine State.retryWalks_none ?_
    simpa only [State.partOfTile, State.partOfField, State.partMask, State.odG, State.odP, State.part, hparts, hod]
      using hwalk
  refine (if_pos ht).trans ?_
  rw [if_neg (by simp [hwait]), hretry]

end boundary

/-- Settles O22, by the register written and whether its segment is enabled. -/
theorem segmentRegisters : Obligations.SegmentRegisters := by
  unfold Obligations.SegmentRegisters
  intro s t n v ht hn cb g new
  refine ⟨?enable, ?enableFails, ?enabled, ?disable, ?disabled, ?cfg1Enabled, ?cfg1Disabled, ?deferred, ?channel,
    ?boundary⟩
  case enable =>
    intro _ hen hok
    refine answers_of_setsBank (setsBank_segmentEnable ht hn (enableSeg_ok hen hok)) fun u hu honly => ?_
    rw [hu]
    refine ⟨?_, fun m hm => ?_, discardWords_cells _ _, discardWords_arr _ _, honly⟩
    · rw [discardWords_seg, ChargeBank.seg_modSeg, if_pos rfl]
    · rw [discardWords_seg, ChargeBank.seg_modSeg, if_neg hm]
  case enableFails => exact fun hen hok => setsBank_segmentEnable ht hn (enableSeg_fails hen hok)
  case enabled => exact fun hen => setsBank_segmentEnable ht hn (enableSeg_enabled hen)
  case disable => exact fun hen hb hv => setsBank_segmentDisable ht hn (disableSeg_waits hen hb hv)
  case disabled => exact fun hen => setsBank_segmentDisable ht hn (disableSeg_disabled hen)
  case cfg1Enabled =>
    exact fun hen => setsBank_segmentConfigWrite ht hn (by decide) (by decide) (writeSeg_cfg1_enabled hen v)
  case cfg1Disabled =>
    exact fun hen => setsBank_segmentConfigWrite ht hn (by decide) (by decide) (writeSeg_cfg1_disabled hen v)
  case deferred =>
    intro off hoff
    simp only [List.mem_cons, List.not_mem_nil, or_false] at hoff
    have hlt : off < 24 := by omega
    have hal : off % 4 = 0 := by omega
    have h0 : off ≠ 0 := by omega
    have h4 : off ≠ 0x04 := by omega
    exact ⟨fun hen hb => setsBank_segmentConfigWrite ht hn hlt hal (writeSeg_waits h0 h4 hen hb v),
      fun hen => setsBank_segmentConfigWrite ht hn hlt hal (writeSeg_disabled h0 h4 hen v)⟩
  case channel =>
    intro k e hk he c finite
    exact ⟨fun hf hnone _ => setsBank_channelTableWrite ht hk he (writeChan_uncovered hf hnone),
      fun fmt hf hsome hz hb => setsBank_channelTableWrite ht hk he (writeChan_covered hf hsome hz hb),
      fun hf => answers_channelTableWrite_refused ht hk he (writeChan_notFinite _ k hf) (by decide)⟩
  case boundary =>
    intro hwait hcal hb hwalk
    obtain ⟨hbound, hchan, hband, hseg⟩ := bankSettled_applied hcal
    refine ⟨_, exec_tokenBoundary ht hwait hwalk, ?_⟩
    dsimp only
    rw [State.tokenBoundary_cb]
    refine ⟨hbound, hchan, hband, fun m hm => ?_, fun hd => ?_, State.tokenBoundary_signals hb, onlyTile_tokenBoundary⟩
    · rw [hseg m hm, segSettled_defer]
    · rw [hseg n hn, segSettled_en _ hd]

end Sys2Proof.Machine
end

section
/-!
SUPPORT. What the operations that send and take flits leave as it was at the tiles: a message sent waits at most at its
own tile's port (R152, R164), an acknowledgement goes to the routers alone (R154), and a command in its turn runs.
-/

namespace Sys2Proof.Machine

/-! ### Tiles under a change of the rest -/

theorem State.tile_of_tiles {s u : State} (h : u.tiles = s.tiles) (t : TileId) : u.tile t = s.tile t := by
  simp only [State.tile, h]

theorem State.modTile_modTile_same (s : State) (t : TileId) (f g : Tile → Tile) :
    (s.modTile t f).modTile t g = s.modTile t (fun T => g (f T)) := by
  simp only [State.modTile, State.setTile, State.tile, mget_mset_same, mset_mset_same]

theorem State.modLk_modLk_same (s : State) (t : TileId) (f g : Lookout → Lookout) :
    (s.modLk t f).modLk t g = s.modLk t (fun lk => g (f lk)) := s.modTile_modTile_same t _ _

@[simp] theorem State.tile_modCb_same (s : State) (t : TileId) (f : ChargeBank → ChargeBank) :
    (s.modCb t f).tile t = { s.tile t with cb := f (s.tile t).cb } := s.tile_modTile_same t _

theorem onlyTile_modCb (s : State) (t : TileId) (f : ChargeBank → ChargeBank) : OnlyTile s (s.modCb t f) t :=
  onlyTile_modTile s t _

/-! ### Routers -/

section routers

variable (s : State) (t : TileId)

theorem State.feedFrom_tiles (left l : List (Dir × Flit)) : (s.feedFrom t left l).tiles = s.tiles := by
  induction l generalizing s left with
  | nil => rfl
  | cons e r ih =>
    unfold State.feedFrom
    split
    · exact ih s _
    · exact ih (s.enter t e.1 e.2) _

@[simp] theorem State.feedIn_tiles (l : List (Dir × Flit)) : (s.feedIn t l).tiles = s.tiles :=
  State.feedFrom_tiles _ t _ _

@[simp] theorem State.countRefusal_tiles : (s.countRefusal t).tiles = s.tiles := rfl

@[simp] theorem State.sendVn1_tiles (f : Flit) : (s.sendVn1 t f).tiles = s.tiles := by
  unfold State.sendVn1
  split
  · split
    · rfl
    · exact s.countRefusal_tiles t
  · exact s.feedIn_tiles t _

@[simp] theorem State.ackWrite_tiles (f : Flit) : (s.ackWrite t f).tiles = s.tiles := by
  unfold State.ackWrite
  split
  · exact s.sendVn1_tiles t _
  · rfl

@[simp] theorem State.ackTaken_tile (T : Tile) (p : Flit → Bool) (u : TileId) : (s.ackTaken t T p).tile u = s.tile u := by
  unfold State.ackTaken
  split
  · exact State.tile_of_tiles (s.ackWrite_tiles t _) u
  · rfl

@[simp] theorem State.ackBurst_tile (f : Option Flit) (u : TileId) : (s.ackBurst t f).tile u = s.tile u := by
  cases f with
  | none => rfl
  | some f => exact State.tile_of_tiles (s.ackWrite_tiles t f) u

/-- A message that a tile sends changes of the tile at most the messages held at its port (R164). -/
theorem State.inject_tile (m : Message) : ∃ l, (s.inject t m).1.tile t = { s.tile t with txHeld := l } := by
  unfold State.inject
  split
  · split
    · exact ⟨_, rfl⟩
    · split
      · exact ⟨_, rfl⟩
      · split
        · exact ⟨_, s.tile_modTile_same t _⟩
        · split
          · exact ⟨_, rfl⟩
          · exact ⟨_, State.tile_of_tiles (s.feedIn_tiles t _) t⟩
  · exact ⟨_, rfl⟩

/-- So do all the messages of a list. -/
theorem State.forEach_inject_tile {α : Type} (m : α → State → Message) (l : List α) :
    ∃ h, (s.forEach l (fun a s => (s.inject t (m a s)).1)).tile t = { s.tile t with txHeld := h } := by
  induction l generalizing s with
  | nil => exact ⟨_, rfl⟩
  | cons a r ih =>
    obtain ⟨h, hh⟩ := ih (s.inject t (m a s)).1
    obtain ⟨l, hl⟩ := s.inject_tile t (m a s)
    exact ⟨h, hh.trans (by rw [hl])⟩

end routers

/-! ### A rotation that a burst abandons (R344) -/

@[simp] theorem State.abandonRotation_tiles (s : State) (f row : Nat) : (s.abandonRotation f row).tiles = s.tiles := by
  unfold State.abandonRotation
  split <;> rfl

@[simp] theorem State.burstReaches_tile (s : State) (t u : TileId) : (s.burstReaches t).tile u = s.tile u := by
  have hrot := State.tile_of_tiles (s.abandonRotation_tiles (fieldOfTile t) (t.y % 20)) u
  unfold State.burstReaches
  dsimp only
  split
  · rfl
  · split
    · exact hrot
    · rfl
  · split
    · exact hrot
    · rfl

/-! ### Commands in their turn (R154) -/

/-- A well-formed command whose turn it is at the local port has its effect. -/
theorem guardRes_inTurn {ok : Bool} {s go u : State} {t : TileId} {p : Flit → Bool} (hwf : ok = true)
    (hturn : rxTurn (s.tile t) p = true) (h : go = u) : guardRes ok (s.inTurn t p go) = .next u :=
  (if_pos hwf).trans (congrArg _ ((if_pos hturn).trans h))

/-- A well-formed command has its effect. -/
theorem guardRes_next {ok : Bool} {go u : State} (hwf : ok = true) (h : go = u) : guardRes ok go = .next u :=
  (if_pos hwf).trans (congrArg _ h)

@[simp] theorem State.tile_takeRx (s : State) (t : TileId) (p : Flit → Bool) :
    (s.takeRx t p).tile t = { s.tile t with rx := dropFirst p (s.tile t).rx } := s.tile_modTile_same t _

@[simp] theorem State.tile_takePort (s : State) (t : TileId) (x y : Nat) :
    (s.takePort t x y).tile t = { s.tile t with rx := takeMessage (isPortFlit x y) (s.tile t).rx } :=
  s.tile_modTile_same t _

end Sys2Proof.Machine
end

section
/-!
SUPPORT. Activation words, passes, the post stage and Lookout's second reads (R45, R46, R51, R91, R92), and the obligation
O23.
-/

namespace Sys2Proof.Machine

/-! ### Latching a word (R46) -/

theorem foldl_modArr_arr (f : ChargeArray → ChargeArray) (as : List Nat) (hnd : as.Nodup) (cb : ChargeBank) (b : Nat) :
    (as.foldl (fun cb a => cb.modArr a f) cb).arr b = if b ∈ as then f (cb.arr b) else cb.arr b := by
  induction as generalizing cb with
  | nil => rfl
  | cons a r ih =>
    obtain ⟨ha, hr⟩ := List.nodup_cons.1 hnd
    rw [List.foldl_cons, ih hr, ChargeBank.arr_modArr]
    by_cases hb : b = a
    · subst hb
      simp [ha]
    · simp [hb]

/-- Changing arrays leaves the cells as they are. -/
theorem foldl_modArr_cells (f : ChargeArray → ChargeArray) (as : List Nat) (cb : ChargeBank) :
    (as.foldl (fun cb a => cb.modArr a f) cb).cells = cb.cells := by
  induction as generalizing cb with
  | nil => rfl
  | cons a r ih => exact ih (cb.modArr a f)

/-- Passes that become ready change the list of ready passes alone. -/
theorem foldl_cbReady_frame (as : List Nat) (cb : ChargeBank) : ∃ r, as.foldl cbReady cb = { cb with ready := r } := by
  induction as generalizing cb with
  | nil => exact ⟨_, rfl⟩
  | cons a r ih =>
    obtain ⟨q, hq⟩ := cbReady_frame cb a
    obtain ⟨q', hq'⟩ := ih (cbReady cb a)
    exact ⟨q', hq'.trans (by rw [hq])⟩

theorem blockArrays_nodup (g : Segment) (b : Nat) : (blockArrays g b).Nodup :=
  List.Nodup.map (fun i j (h : g.arrBase + b * groupsOf g + i = g.arrBase + b * groupsOf g + j) => by omega)
    List.nodup_range

/-- An array with a word of its block latched. -/
def wordLatched (g : Segment) (r : Nat) (w : List Byte) (x : ChargeArray) : ChargeArray :=
  let y := latchCodes x (r * elemsPerWord g.a8) (wordCodes g.a8 w)
  { y with latched := if y.latched.contains r then y.latched else y.latched ++ [r] }

theorem wordLatched_latch (g : Segment) (r : Nat) (w : List Byte) (x : ChargeArray) :
    (wordLatched g r w x).latch =
      mwrite 0 x.latch (r * elemsPerWord g.a8) ((wordCodes g.a8 w).take (x.rows - r * elemsPerWord g.a8)) := rfl

theorem mem_wordLatched_latched (g : Segment) (r : Nat) (w : List Byte) (x : ChargeArray) :
    r ∈ (wordLatched g r w x).latched := by
  simp only [wordLatched]
  split
  · exact List.contains_iff_mem.1 ‹_›
  · simp

/-- The latches that a word leaves, before passes become ready. -/
theorem latchWord_frame (cb : ChargeBank) (g : Segment) (b r : Nat) (w : List Byte) :
    ∃ q, latchWord cb g b r w =
      { (blockArrays g b).foldl (fun cb a => cb.modArr a (wordLatched g r w)) cb with ready := q } :=
  foldl_cbReady_frame _ _

theorem latchWord_arr (cb : ChargeBank) (g : Segment) (b r : Nat) (w : List Byte) (a : Nat) :
    (latchWord cb g b r w).arr a = if a ∈ blockArrays g b then wordLatched g r w (cb.arr a) else cb.arr a := by
  obtain ⟨q, hq⟩ := latchWord_frame cb g b r w
  rw [hq]
  exact foldl_modArr_arr _ _ (blockArrays_nodup g b) cb a

theorem latchWord_cells (cb : ChargeBank) (g : Segment) (b r : Nat) (w : List Byte) :
    (latchWord cb g b r w).cells = cb.cells := by
  obtain ⟨q, hq⟩ := latchWord_frame cb g b r w
  rw [hq]
  exact foldl_modArr_cells _ _ cb

/-! ### SEGMENT_INPUT_WORD -/

/-- A token's context word changes of its tile the context and, where it is sent on, the messages held at the port. -/
theorem State.keepContext_tile (s : State) (t : TileId) (w : List Byte) :
    ∃ h, (s.keepContext t w).tile t = { s.tile t with ctx := w, txHeld := h } := by
  unfold State.keepContext
  dsimp only
  have hctx := s.tile_modTile_same t (fun T => { T with ctx := w })
  split
  · exact ⟨_, hctx⟩
  · split
    · exact ⟨_, hctx⟩
    · rename_i p _
      obtain ⟨h, hh⟩ := State.forEach_inject_tile (s.modTile t (fun T => { T with ctx := w })) t _
        (contextTo (s.part p) (s.tile t).cc.stage)
      exact ⟨h, hh.trans (by rw [hctx])⟩

/-- The word is a token's first: no array of the segment has latched a word or converts, and all are at one token. -/
def firstWord (cb : ChargeBank) (g : Segment) : Bool :=
  (arraysOf g).all (fun a =>
    (cb.arr a).latched.isEmpty && (cb.arr a).conv.isNone && (cb.arr a).token == (cb.arr g.arrBase).token)

/-- The first word of a token sets its segment's arithmetic mode (R68). -/
def State.setMode (s : State) (t : TileId) (n : Nat) (first mode : Bool) : State :=
  if first then s.modCb t (fun cb => cb.modSeg n (fun g => { g with exactMode := mode })) else s

/-- Setting the mode changes nothing else of the tile than the segments, and of its own segment the mode alone. -/
theorem State.setMode_tile (s : State) (t : TileId) (n : Nat) (first mode : Bool) :
    ∃ sg e, (s.setMode t n first mode).tile t = { s.tile t with cb := { (s.tile t).cb with segs := sg } } ∧
      mget {} sg n = { (s.tile t).cb.seg n with exactMode := e } := by
  cases first with
  | false => exact ⟨_, _, rfl, rfl⟩
  | true =>
    have hbank := s.tile_modCb_same t (fun cb => cb.modSeg n (fun g => { g with exactMode := mode }))
    exact ⟨_, mode, hbank, mget_mset_same _ _ _ _⟩

theorem State.openWindow_quiet {s : State} {t : TileId} (h : (s.tile t).quiet = true) : s.openWindow t = s := if_pos h

section word

variable {s : State} {t : TileId} {n idx x y : Nat} {w : List Byte}
  (hwf : Instr.wf (.segmentInputWord t n idx w x y) = true) (hturn : rxTurn (s.tile t) (isSegWord n idx w x y) = true)
include hwf hturn

theorem exec_segmentInputWord_keeps (hidx : idx = 0x1FFFF) (hrole : (s.tile t).cc.role ∈ [1, 2, 4]) :
    exec (.segmentInputWord t n idx w x y) s = .next (((s.takeRx t (isSegWord n idx w x y)).keepContext t w).ackTaken t
      (s.tile t) (isSegWord n idx w x y)) :=
  guardRes_inTurn hwf hturn (if_pos ⟨hidx, List.contains_iff_mem.2 hrole⟩)

/-- A token's context reaches a tile that keeps it (R245). -/
theorem answers_segmentInputWord_keeps (hidx : idx = 0x1FFFF) (hrole : (s.tile t).cc.role ∈ [1, 2, 4]) :
    Answers (.segmentInputWord t n idx w x y) s (fun u =>
      (u.tile t).ctx = w ∧ (u.tile t).cb = (s.tile t).cb ∧ (u.tile t).cc = (s.tile t).cc) := by
  refine ⟨_, exec_segmentInputWord_keeps hwf hturn hidx hrole, ?_⟩
  obtain ⟨h, hh⟩ := (s.takeRx t (isSegWord n idx w x y)).keepContext_tile t w
  rw [State.ackTaken_tile, hh, State.tile_takeRx]
  exact ⟨rfl, rfl, rfl⟩

theorem exec_segmentInputWord_disabled (hkeeps : ¬(idx = 0x1FFFF ∧ (s.tile t).cc.role ∈ [1, 2, 4]))
    (hen : ((s.tile t).cb.seg n).en = false) :
    exec (.segmentInputWord t n idx w x y) s = .next ((s.takeRx t (isSegWord n idx w x y)).raiseFault t
      { status := 0x0306, agent := 11, detail := n }) := by
  refine guardRes_inTurn hwf hturn ?_
  rw [← List.contains_iff_mem] at hkeeps
  exact (if_neg hkeeps).trans (if_pos (congrArg not hen))

theorem exec_segmentInputWord_context (hrole : (s.tile t).cc.role ∉ [1, 2, 4]) (hen : ((s.tile t).cb.seg n).en = true)
    (hidx : idx = 0x1FFFF) :
    exec (.segmentInputWord t n idx w x y) s = .next ((s.takeRx t (isSegWord n idx w x y)).ackTaken t (s.tile t)
      (isSegWord n idx w x y)) := by
  refine guardRes_inTurn hwf hturn ?_
  rw [← List.contains_iff_mem] at hrole
  exact (if_neg (fun h => hrole h.2)).trans ((if_neg (by simp [hen])).trans (if_pos hidx))

end word

/-- Block of its segment that an activation word belongs to (R45). -/
def wordBlock (g : Segment) (idx : Nat) : Nat := idx * elemsPerWord g.a8 / 512

/-- Place of an activation word in its block (R45). -/
def wordPlace (g : Segment) (idx : Nat) : Nat := idx % (512 / elemsPerWord g.a8)

/-- A word carries active rows of a block of an enabled segment. -/
structure WordEnters (cb : ChargeBank) (n idx : Nat) : Prop where
  enabled : (cb.seg n).en = true
  element : idx ≠ 0x1FFFF
  block : wordBlock (cb.seg n) idx < (cb.seg n).blocks
  row : wordPlace (cb.seg n) idx * elemsPerWord (cb.seg n).a8 <
    (cb.arr ((cb.seg n).arrBase + wordBlock (cb.seg n) idx * groupsOf (cb.seg n))).rows

section enters

variable {s : State} {t : TileId} {n idx x y : Nat} {w : List Byte}
  (hwf : Instr.wf (.segmentInputWord t n idx w x y) = true) (hturn : rxTurn (s.tile t) (isSegWord n idx w x y) = true)
  (henters : WordEnters (s.tile t).cb n idx)
include hwf hturn henters

/-- A word whose block still holds a pass, or whose segment has both accumulator sets taken, waits (R46, R51). -/
theorem exec_segmentInputWord_held
    (hheld : wordHeld (s.tile t).cb ((s.tile t).cb.seg n) (wordBlock ((s.tile t).cb.seg n) idx) = true) :
    exec (.segmentInputWord t n idx w x y) s = .next s := by
  obtain ⟨hen, hidx, hblock, hrow⟩ := henters
  refine guardRes_inTurn hwf hturn ?_
  have hout := not_or.2 ⟨Nat.not_le.2 hblock, Nat.not_le.2 hrow⟩
  exact (if_neg (fun h => hidx h.1)).trans ((if_neg (by simp [hen])).trans ((if_neg hidx).trans
    ((if_neg hout).trans (if_pos hheld))))

/-- A word that is not held is latched into the arrays of its block, after the segment's mode has been set by a token's
first word. -/
theorem exec_segmentInputWord_latched
    (hheld : wordHeld (s.tile t).cb ((s.tile t).cb.seg n) (wordBlock ((s.tile t).cb.seg n) idx) = false) :
    exec (.segmentInputWord t n idx w x y) s = .next
      (((((s.takeRx t (isSegWord n idx w x y)).setMode t n (firstWord (s.tile t).cb ((s.tile t).cb.seg n))
          (s.exactNow t)).openWindow t).modCb t (fun cb => latchWord cb (cb.seg n) (wordBlock ((s.tile t).cb.seg n) idx)
        (wordPlace ((s.tile t).cb.seg n) idx) w)).ackTaken t (s.tile t) (isSegWord n idx w x y)) := by
  obtain ⟨hen, hidx, hblock, hrow⟩ := henters
  have hout := not_or.2 ⟨Nat.not_le.2 hblock, Nat.not_le.2 hrow⟩
  refine guardRes_inTurn hwf hturn ?_
  exact (if_neg (fun h => hidx h.1)).trans ((if_neg (by simp [hen])).trans ((if_neg hidx).trans
    ((if_neg hout).trans (if_neg (Bool.eq_false_iff.1 hheld)))))

theorem answers_segmentInputWord_latched
    (hheld : wordHeld (s.tile t).cb ((s.tile t).cb.seg n) (wordBlock ((s.tile t).cb.seg n) idx) = false)
    (hquiet : (s.tile t).quiet = true) :
    Answers (.segmentInputWord t n idx w x y) s (fun u =>
      (∀ a, (u.tile t).cb.arr a =
        if a ∈ blockArrays ((s.tile t).cb.seg n) (wordBlock ((s.tile t).cb.seg n) idx)
        then wordLatched ((s.tile t).cb.seg n) (wordPlace ((s.tile t).cb.seg n) idx) w ((s.tile t).cb.arr a)
        else (s.tile t).cb.arr a) ∧
      (u.tile t).cb.cells = (s.tile t).cb.cells) := by
  refine ⟨_, exec_segmentInputWord_latched hwf hturn henters hheld, ?_⟩
  obtain ⟨sg, e, hmode, hsg⟩ := (s.takeRx t (isSegWord n idx w x y)).setMode_tile t n
    (firstWord (s.tile t).cb ((s.tile t).cb.seg n)) (s.exactNow t)
  rw [State.tile_takeRx] at hmode hsg
  rw [State.openWindow_quiet (by rw [hmode]; exact hquiet), State.ackTaken_tile, State.tile_modCb_same, hmode]
  dsimp only [ChargeBank.seg] at hsg ⊢
  rw [hsg]
  exact ⟨fun a => latchWord_arr _ _ _ _ _ a, latchWord_cells _ _ _ _ _⟩

end enters

/-! ### PASS_START (R46) -/

/-- An array whose pass starts: its latches are empty and the next word is of the next token. -/
def passStarted (n : Nat) (g : Segment) (a : Nat) (x : ChargeArray) : ChargeArray :=
  { x with conv := some (passOf x n g a), latch := [], latched := [], token := x.token + 1, rowLast := false }

theorem setsBank_passStart {s : State} {t : TileId} {a n : Nat} {g : Segment} {r : List Nat} (ht : tileOk t = true)
    (ha : a < 192) (hready : (s.tile t).cb.ready = a :: r) (hseg : segOfArray (s.tile t).cb a = some (n, g))
    (hgrant : grantFree (s.tile t).cb = true) (hidle : arrayIdle ((s.tile t).cb.arr a) = true)
    (hburst : burstAhead (s.tile t).cb a = false)
    (hforced : ((s.tile t).cb.arr a).refresh = .forced → ((s.tile t).cb.arr a).rowLast = true) :
    SetsBank (.passStart t a) s t
      { (s.tile t).cb.modArr a (passStarted n g a) with ready := r, boundary := false } := by
  refine guardRes_next (by simp [Instr.wf, ht, ha]) ?_
  dsimp only
  rw [hready, hseg]
  exact if_pos ⟨rfl, hgrant, hidle, hburst, hforced⟩

/-! ### POST_STAGE and LOOKOUT_REREAD_DONE (R51, R91, R92) -/

/-- The codes of every read of a second look: one conversion each, of errors of its own (R70, R92). -/
def rereads (s : State) (t : TileId) (a : Nat) (p : Pass) : List (List (List Nat)) :=
  (List.range (2 ^ (s.tile t).lk.rr)).map (fun i =>
    convert (s.tile t).cb a ((s.tile t).cb.arr a).fmt p (s.free + i * freeOf p))

/-- Their rounded averages (R92). -/
def rereadCodes (s : State) (t : TileId) (a : Nat) (p : Pass) : List (List Nat) :=
  (sumCodes (rereads s t a p)).map (fun l =>
    l.map (fun v => (v + 2 ^ (s.tile t).lk.rr / 2) / 2 ^ (s.tile t).lk.rr))

/-- Lookout's counts after a second look (R90). -/
def rereadCounted (s : State) (t : TileId) (a : Nat) (p : Pass) : Lookout :=
  (rereads s t a p).foldl (fun lk c => countConversions lk a c)
    { (s.tile t).lk with rrPasses := satAdd (s.tile t).lk.rrPasses (2 ^ (s.tile t).lk.rr) 0xFFFFFFFF }

section post

variable {s : State} {t : TileId} {a : Nat} {p : Pass} (ht : tileOk t = true) (ha : a < 192)
  (hconv : ((s.tile t).cb.arr a).conv = some p)
include ht ha hconv

theorem exec_postStage_used (hread : p.reread = false)
    (hok : (s.tile t).lk.en = false ∨ (convert (s.tile t).cb a ((s.tile t).cb.arr a).fmt p s.free).any
      (envFails (mget {} (s.tile t).lk.groups (a / 24))) = false) :
    exec (.postStage t a) s = .next (((s.useFree (freeOf p)).modLk t (fun lk =>
      countConversions lk a (convert (s.tile t).cb a ((s.tile t).cb.arr a).fmt p s.free))).postCodes t a p
        (convert (s.tile t).cb a ((s.tile t).cb.arr a).fmt p s.free)) := by
  refine guardRes_next (by simp [Instr.wf, ht, ha]) ?_
  simp only [hconv, hread, Bool.false_eq_true, if_false]
  exact if_neg (by rcases hok with h | h <;> simp [h])

theorem exec_postStage_fails (hread : p.reread = false) (hen : (s.tile t).lk.en = true)
    (hfails : (convert (s.tile t).cb a ((s.tile t).cb.arr a).fmt p s.free).any
      (envFails (mget {} (s.tile t).lk.groups (a / 24))) = true) (hrr : (s.tile t).lk.rr ≠ 0) :
    exec (.postStage t a) s = .next (((((s.useFree (freeOf p)).modLk t (fun lk =>
      countConversions lk a (convert (s.tile t).cb a ((s.tile t).cb.arr a).fmt p s.free))).modLk t
        (fun lk => recordFail lk (a / 24))).odAdd 0x3000 0xC 1).modCb t
          (fun cb => cb.modArr a (fun x => { x with conv := some { p with reread := true } }))) := by
  refine guardRes_next (by simp [Instr.wf, ht, ha]) ?_
  simp only [hconv, hread, Bool.false_eq_true, if_false]
  exact (if_pos (by simp [hen, hfails])).trans (if_neg hrr)

theorem exec_lookoutRereadDone_used (hread : p.reread = true)
    (hok : (rereadCodes s t a p).any (envFails (mget {} (s.tile t).lk.groups (a / 24))) = false) :
    exec (.lookoutRereadDone t a) s = .next (((s.useFree (2 ^ (s.tile t).lk.rr * freeOf p)).modLk t
      (fun _ => rereadCounted s t a p)).postCodes t a p (rereadCodes s t a p)) := by
  refine guardRes_next (by simp [Instr.wf, ht, ha]) ?_
  simp only [hconv, hread, Bool.not_true, Bool.false_eq_true, if_false]
  exact congrArg (fun u : State => u.postCodes t a p (rereadCodes s t a p)) (if_neg (Bool.eq_false_iff.1 hok))

theorem exec_lookoutRereadDone_fails (hread : p.reread = true)
    (hfails : (rereadCodes s t a p).any (envFails (mget {} (s.tile t).lk.groups (a / 24))) = true) :
    exec (.lookoutRereadDone t a) s = .next (((((s.useFree (2 ^ (s.tile t).lk.rr * freeOf p)).modLk t
      (fun _ => recordPersist (rereadCounted s t a p) (a / 24))).odAdd 0x3000 0x10 1).modCb t
        (fun cb => cb.modArr a calDue)).postCodes t a p (rereadCodes s t a p)) := by
  refine guardRes_next (by simp [Instr.wf, ht, ha]) ?_
  simp only [hconv, hread, Bool.not_true, Bool.false_eq_true, if_false]
  refine congrArg (fun u : State => u.postCodes t a p (rereadCodes s t a p)) ((if_pos hfails).trans ?_)
  rw [State.modLk_modLk_same]
  rfl

end post

/-- Settles O23, by the command: a word at the local port, the start of a pass, the post stage and the second look. -/
theorem chargePasses : Obligations.ChargePasses := by
  unfold Obligations.ChargePasses
  intro s t ht cb
  refine ⟨?word, ?start, ?post⟩
  case word =>
    intro n idx x y w hwf hturn keeps g per b r taken
    refine ⟨?disabled, ?kept, ?dropped, ?held, ?latched⟩
    case disabled => exact fun hen hkeeps => exec_segmentInputWord_disabled hwf hturn hkeeps hen
    case kept => exact fun hkeeps => answers_segmentInputWord_keeps hwf hturn hkeeps.1 hkeeps.2
    case dropped =>
      exact fun hen hidx hkeeps => exec_segmentInputWord_context hwf hturn (fun h => hkeeps ⟨hidx, h⟩) hen hidx
    case held => exact fun hen hidx hblock hrow => exec_segmentInputWord_held hwf hturn ⟨hen, hidx, hblock, hrow⟩
    case latched =>
      intro hen hidx hblock hrow hheld hquiet
      obtain ⟨u, hu, harr, hcells⟩ :=
        answers_segmentInputWord_latched hwf hturn ⟨hen, hidx, hblock, hrow⟩ hheld hquiet
      refine ⟨u, hu, fun a ha => ?_, fun a ha => (harr a).trans (if_neg ha), hcells⟩
      rw [(harr a).trans (if_pos ha)]
      exact ⟨wordLatched_latch _ _ _ _, mem_wordLatched_latched _ _ _ _⟩
  case start =>
    intro a n g r ha hready hseg hgrant hidle hburst hforced
    have harr := fun b => (s.tile t).cb.arr_modArr a b (passStarted n g a)
    refine answers_of_setsBank (setsBank_passStart ht ha hready hseg hgrant hidle hburst hforced) fun u hu honly => ?_
    rw [hu]
    exact ⟨(harr a).trans (if_pos rfl), rfl, rfl, fun b hb => (harr b).trans (if_neg hb), honly⟩
  case post =>
    intro a p ha hconv codes lk fails drawn
    exact ⟨fun hread hok => exec_postStage_used ht ha hconv hread hok,
      fun hread hen hfails hrr => exec_postStage_fails ht ha hconv hread hen hfails hrr,
      fun hread hok => ⟨_, exec_lookoutRereadDone_used ht ha hconv hread hok⟩,
      fun hread hfails => ⟨_, exec_lookoutRereadDone_fails ht ha hconv hread hfails⟩⟩

end Sys2Proof.Machine
end

section
/-!
SUPPORT. Write bursts, the rows they program, the column sums of a CLOSE, and row reads (R58–R61), and the obligation
O24.
-/

namespace Sys2Proof.Machine

/-! ### WRITE_BURST (R58, R59) -/

/-- The burst that a header and its rows spell. -/
def burstOf (h : BurstHdr) (rows : List (List Byte)) (held : Bool) (ack : Option Flit) : Burst :=
  { firstRow := h.first, fmt := h.fmt, opn := h.opn, cls := h.cls, rows := h.rows, data := rows, next := h.first,
    held := held, ack := ack }

/-- An array that has taken a burst: opened as OPEN says, unless the burst is held. -/
def burstTaken (b : Burst) (x : ChargeArray) : ChargeArray :=
  if b.held then { x with burst := some b } else { openArray x b with burst := some b }

section writeBurst

variable {s : State} {t : TileId} {hdr : List Byte} {rows : List (List Byte)} {x y : Nat}
  (hwf : Instr.wf (.writeBurst t hdr rows x y) = true) (hturn : rxTurn (s.tile t) (isPortFlit x y) = true)
include hwf hturn

theorem exec_writeBurst_refused (hcode : burstCode (s.tile t).cb hdr rows.length ≠ 0) :
    exec (.writeBurst t hdr rows x y) s = .next (s.refusePort t x y (burstCode (s.tile t).cb hdr rows.length)) :=
  guardRes_inTurn hwf hturn (if_pos hcode)

/-- A burst that passes its checks is taken by an array that has no other. -/
theorem exec_writeBurst_taken (hcode : burstCode (s.tile t).cb hdr rows.length = 0) (hopc : (burstHdrOf hdr).opc = 1)
    (hburst : ((s.tile t).cb.arr (burstHdrOf hdr).arr).burst = none)
    (hclosing : ((s.tile t).cb.arr (burstHdrOf hdr).arr).closing = none) :
    exec (.writeBurst t hdr rows x y) s = .next (((s.burstReaches t).takePort t x y).modCb t (fun cb =>
      burstsFirst (cb.modArr (burstHdrOf hdr).arr (burstTaken (burstOf (burstHdrOf hdr) rows
        (segOfArray (s.tile t).cb (burstHdrOf hdr).arr).isSome
        ((portLast (s.tile t) x y).filter (fun f => f.id != 0))))))) := by
  refine guardRes_inTurn hwf hturn ((if_neg (not_not.2 hcode)).trans (if_neg ?_))
  simp [hopc, hburst, hclosing]

theorem answers_writeBurst_taken (hcode : burstCode (s.tile t).cb hdr rows.length = 0) (hopc : (burstHdrOf hdr).opc = 1)
    (hburst : ((s.tile t).cb.arr (burstHdrOf hdr).arr).burst = none)
    (hclosing : ((s.tile t).cb.arr (burstHdrOf hdr).arr).closing = none) :
    Answers (.writeBurst t hdr rows x y) s (fun u => ∃ ack, (u.tile t).cb.arr (burstHdrOf hdr).arr =
      burstTaken (burstOf (burstHdrOf hdr) rows (segOfArray (s.tile t).cb (burstHdrOf hdr).arr).isSome ack)
        ((s.tile t).cb.arr (burstHdrOf hdr).arr)) := by
  refine ⟨_, exec_writeBurst_taken hwf hturn hcode hopc hburst hclosing,
    (portLast (s.tile t) x y).filter (fun f => f.id != 0), ?_⟩
  rw [State.tile_modCb_same, State.tile_takePort, State.burstReaches_tile]
  exact (ChargeBank.arr_modArr _ _ _ _).trans (if_pos rfl)

end writeBurst

/-! ### HELD_BURST_RELEASE (R59) -/

/-- An array whose held burst is released. -/
def burstReleased (b : Burst) (x : ChargeArray) : ChargeArray :=
  { openArray x b with burst := some { b with held := false } }

theorem setsBank_heldBurstRelease {s : State} {t : TileId} {a : Nat} {b : Burst} (ht : tileOk t = true) (ha : a < 192)
    (hburst : ((s.tile t).cb.arr a).burst = some b) (hbound : (s.tile t).cb.boundary = true) (hheld : b.held = true) :
    SetsBank (.heldBurstRelease t a) s t
      { (s.tile t).cb.modArr a (burstReleased b) with ready := (s.tile t).cb.ready.filter (· != a) } := by
  refine guardRes_next (by simp [Instr.wf, ht, ha]) ?_
  dsimp only
  rw [hburst]
  exact if_pos (by simp [hbound, hheld])

/-! ### ROW_WRITE_VERIFY (R60) -/

/-- With every cell on its level at the final verify, the levels are those sent. -/
theorem withOff_nil (fmt : Nat) (l : List Nat) : withOff fmt l [] = l :=
  List.ext_getElem (by simp [withOff]) (by simp [withOff])

@[simp] theorem State.odAdd_tile (s : State) (i b v : Nat) (t : TileId) : (s.odAdd i b v).tile t = s.tile t := rfl

/-- Programming a row stores its levels, but for the cells that the final verify reads off level. -/
theorem State.programRow_cells (s : State) (t : TileId) (a r fmt : Nat) (d : List Byte) (o : RowOutcome) :
    ((s.programRow t a r fmt d o).tile t).cb.cells =
      (putRow (s.tile t).cb a r (withOff fmt (sentLevels fmt d).1 o.offLevel)).cells := by
  unfold State.programRow
  dsimp only
  split
  · rw [State.odAdd_tile, State.tile_modCb_same]
  · rw [State.tile_modCb_same]

/-- The block after a row of a burst: more rows are to come, the array goes on to CLOSE, or the burst is complete. -/
def State.rowDone (s : State) (t : TileId) (a : Nat) (b : Burst) (r : List (List Byte)) : State :=
  if !r.isEmpty then
    s.modCb t (fun cb => cb.modArr a (fun x =>
      { x with burst := some { b with data := r, next := b.next + 1, started := true } }))
  else if b.cls then s.modCb t (fun cb => cb.modArr a (fun x => { x with burst := none, closing := some b.ack }))
  else (s.modCb t (fun cb => cbReady (cb.modArr a (fun x => { x with burst := none })) a)).ackBurst t b.ack

/-- The next row of a burst that runs is programmed while its array does not convert (R55, R56, R60). -/
theorem exec_rowWriteVerify {s : State} {t : TileId} {a : Nat} {b : Burst} {d : List Byte} {r : List (List Byte)}
    (o : RowOutcome) (ht : tileOk t = true) (ha : a < 192) (hburst : ((s.tile t).cb.arr a).burst = some b)
    (hheld : b.held = false) (hfree : b.started = true ∨ writeFree (s.tile t).cb = true)
    (hidle : arrayIdle ((s.tile t).cb.arr a) = true) (hdata : b.data = d :: r) :
    exec (.rowWriteVerify t a o) s = .next ((s.programRow t a b.next b.fmt d o).rowDone t a b r) := by
  refine guardRes_next (by simp [Instr.wf, ht, ha]) ?_
  dsimp only
  rw [hburst]
  dsimp only
  rw [hdata]
  exact if_neg (by rcases hfree with h | h <;> simp [hheld, hidle, h])

theorem cbReady_arr (cb : ChargeBank) (a b : Nat) : (cbReady cb a).arr b = cb.arr b := by
  obtain ⟨q, hq⟩ := cbReady_frame cb a
  rw [hq]
  rfl

theorem cbReady_cells (cb : ChargeBank) (a : Nat) : (cbReady cb a).cells = cb.cells := by
  obtain ⟨q, hq⟩ := cbReady_frame cb a
  rw [hq]

section rowDone

variable (s : State) (t : TileId) (a : Nat) (b : Burst)

theorem State.rowDone_cells (r : List (List Byte)) :
    ((s.rowDone t a b r).tile t).cb.cells = (s.tile t).cb.cells := by
  unfold State.rowDone
  split
  · rw [State.tile_modCb_same]; rfl
  · split
    · rw [State.tile_modCb_same]; rfl
    · rw [State.ackBurst_tile, State.tile_modCb_same]
      exact cbReady_cells _ a

theorem State.rowDone_burst_more {r : List (List Byte)} (hr : r ≠ []) :
    (((s.rowDone t a b r).tile t).cb.arr a).burst = some { b with data := r, next := b.next + 1, started := true } := by
  rw [State.rowDone, if_pos (by simp [hr]), State.tile_modCb_same]
  dsimp only
  rw [ChargeBank.arr_modArr, if_pos rfl]

theorem State.rowDone_burst_last : (((s.rowDone t a b []).tile t).cb.arr a).burst = none := by
  rw [State.rowDone, if_neg (by simp)]
  split
  · rw [State.tile_modCb_same]
    dsimp only
    rw [ChargeBank.arr_modArr, if_pos rfl]
  · rw [State.ackBurst_tile, State.tile_modCb_same]
    dsimp only
    rw [cbReady_arr, ChargeBank.arr_modArr, if_pos rfl]

end rowDone

/-! ### COLUMN_SUM_RECOMPUTE (R61) -/

/-- Column sums of an array from the levels read (R61). -/
def columnSums (cb : ChargeBank) (a : Nat) : List Nat :=
  codeSums cb a 0 (cb.arr a).rows (List.replicate (outsOf (cb.arr a).fmt) 0)

/-- An array whose CLOSE is complete, with its column sums. -/
def sumsTaken (q : List Nat) (x : ChargeArray) : ChargeArray :=
  { x with closing := none, wvalid := true, sums := mwrite 0 [] 0 q }

theorem setsBank_columnSumRecompute {s : State} {t : TileId} {a : Nat} (ht : tileOk t = true) (ha : a < 192)
    (hclosing : ((s.tile t).cb.arr a).closing = some none)
    (hgrant : activeArrays (s.tile t).cb ≤ (s.tile t).cb.grant) (hread : readingArrays (s.tile t).cb ≤ 20) :
    SetsBank (.columnSumRecompute t a) s t
      (cbReady ((s.tile t).cb.modArr a (sumsTaken (columnSums (s.tile t).cb a))) a) := by
  refine guardRes_next (by simp [Instr.wf, ht, ha]) ?_
  dsimp only
  rw [hclosing]
  exact if_neg (by omega)

/-! ### READ_REQUEST (R58, R61) -/

section readRequest

variable {s : State} {t : TileId} {hdr : List Byte} {x y : Nat} (hwf : Instr.wf (.readRequest t hdr x y) = true)
  (hturn : rxTurn (s.tile t) (isPortFlit x y) = true)
include hwf hturn

theorem exec_readRequest_refused (hcode : s.readReqCode t hdr x y ≠ 0) :
    exec (.readRequest t hdr x y) s = .next (s.refusePort t x y (s.readReqCode t hdr x y)) :=
  guardRes_inTurn hwf hturn (if_pos hcode)

/-- A read request that no flit at the port stands for is answered without an acknowledgement. -/
theorem exec_readRequest_sends (hcode : s.readReqCode t hdr x y = 0) (hopc : (burstHdrOf hdr).opc = 2)
    (hread : readFree (s.tile t).cb = true) (hidle : arrayIdle ((s.tile t).cb.arr (burstHdrOf hdr).arr) = true)
    (hport : portLast (s.tile t) x y = none) :
    exec (.readRequest t hdr x y) s = .next (((s.takePort t x y).modCb t (fun cb =>
      { cb with readSent := ringPush 32 cb.readSent ((burstHdrOf hdr).dest, (burstHdrOf hdr).arr, false) })).sendRows t
        (burstHdrOf hdr).arr (destOf (burstHdrOf hdr).dest) (burstHdrOf hdr).first (burstHdrOf hdr).count 0) := by
  refine guardRes_inTurn hwf hturn ((if_neg (not_not.2 hcode)).trans ((if_neg ?_).trans ?_))
  · simp [hopc, hread, hidle]
  · rw [hport]
    rfl

end readRequest

/-- Settles O24, by the command: a burst at the local port, its release, its rows, the column sums, and a row read. -/
theorem writeBursts : Obligations.WriteBursts := by
  unfold Obligations.WriteBursts
  intro s t ht cb
  refine ⟨?burst, ?release, ?row, ?sums, ?readRefused, ?read⟩
  case burst =>
    intro hdr rows x y hwf hturn h a
    refine ⟨fun hcode => exec_writeBurst_refused hwf hturn hcode, fun hcode hopc hburst hclosing => ?_⟩
    obtain ⟨u, hu, ack, harr⟩ := answers_writeBurst_taken hwf hturn hcode hopc hburst hclosing
    exact ⟨u, hu, ack, harr⟩
  case release =>
    intro a b ha hburst hbound hheld
    refine answers_of_setsBank (setsBank_heldBurstRelease ht ha hburst hbound hheld) fun u hu honly => ?_
    rw [hu]
    have harr := (s.tile t).cb.arr_modArr a a (burstReleased b)
    exact ⟨congrArg ChargeArray.burst (harr.trans (if_pos rfl)), by simp, rfl, honly⟩
  case row =>
    intro a b d r o ha hburst hheld hfree hidle hdata lv
    refine ⟨_, exec_rowWriteVerify o ht ha hburst hheld hfree hidle hdata, ?_, ?_, ?_, ?_⟩
    · rw [State.rowDone_cells, State.programRow_cells]
    · intro hoff
      rw [hoff, withOff_nil]
    · exact fun hr => State.rowDone_burst_more _ t a b hr
    · rintro rfl
      exact State.rowDone_burst_last _ t a b
  case sums =>
    intro a ha hclosing hgrant hread
    refine answers_of_setsBank (setsBank_columnSumRecompute ht ha hclosing hgrant hread) fun u hu honly => ?_
    rw [hu, cbReady_cells, cbReady_arr, ChargeBank.arr_modArr, if_pos rfl]
    exact ⟨rfl, rfl, rfl, rfl, honly⟩
  case readRefused =>
    intro hdr x y hwf hturn code hcode
    exact exec_readRequest_refused hwf hturn hcode
  case read =>
    intro hdr x y hwf hturn hcode h hopc hread hidle hport
    exact exec_readRequest_sends hwf hturn hcode hopc hread hidle hport

end Sys2Proof.Machine
end

section
/-!
SUPPORT. Cell rows of a bank under a write, what a refresh row makes of its bank (R82, R84), and the obligation O59.
-/

namespace Sys2Proof.Machine

/-! ### Cell rows -/

/-- A row written reads as it was written, but that a row of L0 alone is not listed; every other row reads as before. -/
theorem rowLevels_putRow (cb : ChargeBank) (a r : Nat) (l : List Nat) (b q : Nat) :
    rowLevels (putRow cb a r l) b q =
      if b * 512 + q = a * 512 + r then (if l.all (· == 0) then List.replicate 1024 0 else l) else rowLevels cb b q := by
  unfold rowLevels putRow
  dsimp only
  split
  · rw [mfind_mdel]
    split <;> rfl
  · rw [mfind_mput]
    split <;> rfl

/-- Each cell of a row written has the level written. -/
theorem level_putRow (cb : ChargeBank) (a r : Nat) (l : List Nat) (c : Nat) :
    (rowLevels (putRow cb a r l) a r)[c]?.getD 0 = l[c]?.getD 0 := by
  rw [rowLevels_putRow, if_pos rfl]
  split
  · rename_i hzero
    have hl : l[c]?.getD 0 = 0 := by
      cases hc : l[c]? with
      | none => rfl
      | some v => exact beq_iff_eq.1 (List.all_eq_true.1 hzero v (List.mem_of_getElem? hc))
    rw [hl, List.getElem?_replicate]
    split <;> rfl
  · rfl

/-! ### REFRESH_ROW (R82, R84) -/

/-- The levels that a refresh programs into a row: those read from it. -/
def levelsRead (cb : ChargeBank) (a : Nat) : List Nat :=
  (readRow cb a (cb.arr a).refreshRow).mapIdx (fun c f => levelOfField (cb.arr a).fmt c f)

/-- An array after a refresh row. -/
def rowRefreshed (verified : Bool) (x : ChargeArray) : ChargeArray :=
  { x with early := x.early || !verified, rowLast := x.refresh == .forced,
           refreshRow := if x.refreshRow = 511 then 0 else x.refreshRow + 1,
           refresh := if x.refreshRow = 511 then .idle else x.refresh }

/-- A bank after a refresh row of an array. -/
def bankRefreshed (a : Nat) (verified : Bool) (cb : ChargeBank) : ChargeBank :=
  { (putRow cb a (cb.arr a).refreshRow (levelsRead cb a)).modArr a (rowRefreshed verified) with
    refreshDue := cb.refreshDue.filter (· != a) }

theorem bankRefreshed_arr (a : Nat) (verified : Bool) (cb : ChargeBank) (b : Nat) :
    (bankRefreshed a verified cb).arr b = if b = a then rowRefreshed verified (cb.arr a) else cb.arr b :=
  ChargeBank.arr_modArr (putRow cb a (cb.arr a).refreshRow (levelsRead cb a)) a b (rowRefreshed verified)

theorem bankRefreshed_cells (a : Nat) (verified : Bool) (cb : ChargeBank) :
    (bankRefreshed a verified cb).cells = (putRow cb a (cb.arr a).refreshRow (levelsRead cb a)).cells := rfl

theorem rowLevels_bankRefreshed (a : Nat) (verified : Bool) (cb : ChargeBank) (b r : Nat) :
    rowLevels (bankRefreshed a verified cb) b r = rowLevels (putRow cb a (cb.arr a).refreshRow (levelsRead cb a)) b r := rfl

section refreshRow

variable {s : State} {t : TileId} {a : Nat} (hwf : Instr.wf (.refreshRow t a false) = true)
  (hmay : refreshMay (s.tile t) a = true)
include hwf hmay

/-- A refresh row that may start is programmed; one that fails verify is counted (R84). -/
theorem exec_refreshRow (ok : Bool) :
    exec (.refreshRow t a ok) s = .next
      (if ok then s.modCb t (bankRefreshed a ok) else (s.modCb t (bankRefreshed a ok)).odAdd 0x3000 0xD 1) :=
  guardRes_next hwf (if_neg (by simp [hmay]))

/-- What a refresh row leaves at its tile, verified or not. -/
theorem answers_refreshRow (ok : Bool) :
    Answers (.refreshRow t a ok) s (fun u => (u.tile t).cb = bankRefreshed a ok (s.tile t).cb) := by
  refine ⟨_, exec_refreshRow hwf hmay ok, ?_⟩
  cases ok
  · exact congrArg Tile.cb (s.tile_modCb_same t _)
  · exact congrArg Tile.cb (s.tile_modCb_same t _)

end refreshRow

/-- Every other tile of the module is as before a change of one tile's bank. -/
theorem State.tile_modCb_other (s : State) {t u : TileId} (f : ChargeBank → ChargeBank) (ht : tileOk t = true)
    (hu : tileOk u = true) (h : u ≠ t) : (s.modCb t f).tile u = s.tile u := by
  simp only [tileOk, Bool.and_eq_true, decide_eq_true_eq] at ht hu
  exact (s.tile_modTile t u _).trans (if_neg (fun e => h (tkey_inj hu.1 ht.1 e)))

/-- Settles O59: the levels programmed are those read, so a row that fails verify keeps them. -/
theorem refreshRowFailsVerify : Obligations.RefreshRowFailsVerify := by
  unfold Obligations.RefreshRowFailsVerify
  intro s t a hwf hmay cb x levels
  have ht : tileOk t = true := (Bool.and_eq_true _ _ ▸ hwf : tileOk t = true ∧ decide (a < 192) = true).1
  refine ⟨_, exec_refreshRow hwf hmay false, ?_⟩
  simp only [Bool.false_eq_true, if_false, State.odAdd_tile, State.tile_modCb_same, rowLevels_bankRefreshed,
    bankRefreshed_arr]
  refine ⟨level_putRow cb a x.refreshRow levels, ?counted, ?early, ?rows, fun b hb => if_neg hb, ?tiles⟩
  case counted => exact State.odG_odAdd_same _ _ _ _
  case early => simp [rowRefreshed]
  case rows => exact fun b r hne => (rowLevels_putRow _ _ _ _ b r).trans (if_neg hne)
  case tiles => exact fun t' hne ht' => s.tile_modCb_other _ ht ht' hne

end Sys2Proof.Machine
end

section
/-!
SUPPORT. A command that a caller writes to the dictionary (R18), calibration and refresh of charge arrays (R75–R84), and
the obligation O25.
-/

namespace Sys2Proof.Machine

/-! ### A command that a caller may write (R18) -/

section command

variable {s : State} {c : Caller} {idx sub part : Nat} (h : Admitted s c idx sub part)
include h

/-- An admitted write runs its command and answers with the command's code. -/
theorem Admitted.command_eq (run : State → State × Nat) :
    s.command c idx sub part run = (run s.counted).1.reply c (run s.counted).2 := by
  obtain ⟨-, hcall, hgate, hforeign⟩ := h
  have hown := State.carriedGate_admitted (own := (run s.counted).2) hgate hforeign
  unfold State.counted at hown ⊢
  simp [State.command, hcall, hown]

/-- A command entry that takes the value 1 runs on it. -/
theorem Admitted.command_one {run : State → State × Nat} (hrun : (run s.counted).2 = 0) :
    s.command c idx sub part (oneOnly 1 run) = (run s.counted).1.reply c 0 := by
  have hone : oneOnly 1 run s.counted = run s.counted := if_neg (by simp)
  rw [h.command_eq, hone, hrun]

/-- Every other value is refused (R381). -/
theorem Admitted.command_notOne {run : State → State × Nat} {v : Nat} (hv : v ≠ 1) :
    s.command c idx sub part (oneOnly v run) = s.counted.reply c 0x0003 := by
  have hone : oneOnly v run s.counted = (s.counted, 0x0003) := if_pos hv
  rw [h.command_eq, hone]

end command

/-! ### One change made of several arrays -/

/-- A change that made twice is made once, made of each array of a list, whether or not the list repeats an array. -/
theorem foldl_modArr_arr_of_idem {f : ChargeArray → ChargeArray} (hf : ∀ x, f (f x) = f x) (as : List Nat)
    (cb : ChargeBank) (b : Nat) :
    (as.foldl (fun cb a => cb.modArr a f) cb).arr b = if b ∈ as then f (cb.arr b) else cb.arr b := by
  induction as generalizing cb with
  | nil => rfl
  | cons a r ih =>
    rw [List.foldl_cons, ih, ChargeBank.arr_modArr]
    by_cases hb : b = a
    · subst hb
      simp [hf]
    · simp [hb]

/-- A bank with one change made of every array that it lists. -/
def arraysChanged (f : ChargeArray → ChargeArray) (cb : ChargeBank) : ChargeBank :=
  (cb.arrays.map (·.1)).foldl (fun cb a => cb.modArr a f) cb

/-- An array that is not listed is one that the change keeps. -/
theorem arraysChanged_arr {f : ChargeArray → ChargeArray} (hf : ∀ x, f (f x) = f x) (h0 : f {} = {})
    (cb : ChargeBank) (b : Nat) : (arraysChanged f cb).arr b = f (cb.arr b) := by
  unfold arraysChanged
  rw [foldl_modArr_arr_of_idem hf]
  split
  · rfl
  · rename_i hb
    have habsent : cb.arr b = {} := by
      cases hfind : mfind cb.arrays b with
      | none => simp only [ChargeBank.arr, mget, hfind, Option.getD_none]
      | some x => exact absurd (List.mem_map_of_mem (f := (·.1)) (mem_of_mfind hfind)) hb
    rw [habsent, h0]

theorem tkey_tileAt (k : Nat) : tkey (tileAt k) = k := by
  simp only [tkey, tileAt]
  omega

/-- A change of the bank of the tile at a key reaches that tile's bank alone. -/
theorem State.cb_modCb_tileAt (s : State) (k : Nat) (t : TileId) (g : ChargeBank → ChargeBank) :
    ((s.modCb (tileAt k) g).tile t).cb = if tkey t = k then g (s.tile t).cb else (s.tile t).cb := by
  rw [State.modCb, State.tile_modTile, tkey_tileAt]
  split
  · rename_i hk
    have hsame : s.tile (tileAt k) = s.tile t := by simp only [State.tile, tkey_tileAt, hk]
    rw [hsame]
  · rfl

/-- The change made of the tiles at some keys, whether or not they repeat one. -/
theorem State.forEach_arraysChanged_arr {f : ChargeArray → ChargeArray} (hf : ∀ x, f (f x) = f x) (h0 : f {} = {})
    (l : List Nat) (s : State) (t : TileId) (b : Nat) :
    ((s.forEach l (fun k s => s.modCb (tileAt k) (arraysChanged f))).tile t).cb.arr b =
      if tkey t ∈ l then f ((s.tile t).cb.arr b) else (s.tile t).cb.arr b := by
  induction l generalizing s with
  | nil => rfl
  | cons k r ih =>
    rw [State.forEach, ih, State.cb_modCb_tileAt]
    by_cases hk : tkey t = k
    · simp [hk, arraysChanged_arr hf h0, hf]
    · simp [hk]

/-- A change of every array reaches each array of each tile. -/
theorem State.mapArrays_arr {f : ChargeArray → ChargeArray} (hf : ∀ x, f (f x) = f x) (h0 : f {} = {}) (s : State)
    (t : TileId) (b : Nat) : ((s.mapArrays f).tile t).cb.arr b = f ((s.tile t).cb.arr b) := by
  refine (State.forEach_arraysChanged_arr hf h0 _ s t b).trans ?_
  split
  · rfl
  · rename_i ht
    have habsent : s.tile t = {} := by
      cases hfind : mfind s.tiles (tkey t) with
      | none => simp only [State.tile, mget, hfind, Option.getD_none]
      | some T => exact absurd (List.mem_map_of_mem (f := (·.1)) (mem_of_mfind hfind)) ht
    rw [habsent]
    exact h0.symm

/-! ### Calibration (R75–R80) -/

section calibration

variable {s : State} {t : TileId} (ht : tileOk t = true)
include ht

/-- An array that starts measuring. -/
def measured (x : ChargeArray) : ChargeArray := { x with cal := .measuring }

theorem wf_calibrationStart {l : List Nat} (hl : ∀ b ∈ l, b < 192) : Instr.wf (.calibrationStart t l) = true := by
  simpa [Instr.wf, ht] using hl

theorem setsBank_calibrationStart {l : List Nat} (hl : ∀ b ∈ l, b < 192) (hok : s.calStartOk t l = true) :
    SetsBank (.calibrationStart t l) s t (l.foldl (fun cb a => cb.modArr a measured) (s.tile t).cb) :=
  guardRes_next (wf_calibrationStart ht hl) (if_pos hok)

theorem noEffect_calibrationStart {l : List Nat} (hl : ∀ b ∈ l, b < 192) (hok : s.calStartOk t l = false) :
    NoEffect (.calibrationStart t l) s :=
  guardRes_next (wf_calibrationStart ht hl) (if_neg (by simp [hok]))

variable {a : Nat} (ha : a < 192)
include ha

theorem setsBank_calibrationDue (hidle : ((s.tile t).cb.arr a).cal = .idle) :
    SetsBank (.calibrationDue t a) s t
      ((s.tile t).cb.modArr a (fun _ => { (s.tile t).cb.arr a with cal := .due })) := by
  refine guardRes_next (by simp [Instr.wf, ht, ha]) (congrArg (s.setTile t) ?_)
  simp only [ChargeBank.modArr, mmod, calDue, show mget {} (s.tile t).cb.arrays a = (s.tile t).cb.arr a from rfl, hidle,
    if_true]

/-- The commit of a measurement sets its array, and is counted. -/
theorem exec_calibrationCommit (m : TrimSet) (hcal : ((s.tile t).cb.arr a).cal = .measuring) :
    exec (.calibrationCommit t a m) s = .next ((s.modCb t (fun cb => cbReady (cb.modArr a (fun x =>
      commitCal x cb.band s.clkTime (s.field (fieldOfTile t)).bandTemp (s.odG 0x3000 2) m)) a)).odAdd 0x3000 8 1) :=
  guardRes_next (by simp [Instr.wf, ht, ha]) (if_neg (not_not.2 hcal))

theorem exec_calibrationLate (hcal : ((s.tile t).cb.arr a).cal ≠ .idle) (hlate : ((s.tile t).cb.arr a).calLate = false) :
    exec (.calibrationLate t a) s =
      .next ((s.modCb t (fun cb => cb.modArr a (fun x => { x with calLate := true }))).odAdd 0x3000 0xA 1) :=
  guardRes_next (by simp [Instr.wf, ht, ha]) (if_neg (by simp [hcal, hlate]))

end calibration

/-- The delta of the band moves an eighth of the way to the measurement (R80). -/
theorem commitCal_delta (x : ChargeArray) (band now : Nat) (temp : Int) (trig : Nat) (m : TrimSet) :
    mget {} (commitCal x band now temp trig m).delta band =
      let f := mget {} x.factory band
      let d := mget {} x.delta band
      { offset := stepDelta m.offset f.offset d.offset, gain := stepDelta m.gain f.gain d.gain,
        pulse := stepDelta m.pulse f.pulse d.pulse } :=
  mget_mset_same _ _ _ _

/-- A save of the user calibration leaves every delta and saves it (R80). -/
theorem answers_userCalibrationSave (s : State) :
    Answers .userCalibrationSave s (fun u => u.odG 0x3002 1 = 1 ∧
      ∀ t b, (u.tile t).cb.arr b = { (s.tile t).cb.arr b with saved := ((s.tile t).cb.arr b).delta }) := by
  refine ⟨s.saveUserCal, rfl, State.odG_odSet_same _ _ _ _, fun t b => ?_⟩
  exact s.mapArrays_arr (f := fun x => { x with saved := x.delta }) (fun _ => rfl) rfl t b

theorem exec_saveUserCalibrationNow {s : State} {c : Caller} (h : Admitted s c 0x3002 2 0xFF) :
    exec (.saveUserCalibrationNow c 1) s = .next (s.counted.saveUserCal.reply c 0) :=
  guardRes_next h.1 (h.command_one rfl)

/-! ### Refresh (R82, R83) -/

section refresh

variable {s : State} {t : TileId} {a : Nat} (ht : tileOk t = true) (ha : a < 192)
include ht ha

theorem setsBank_refreshDue (hidle : ((s.tile t).cb.arr a).refresh = .idle) (hsound : ((s.tile t).cb.arr a).failed = false) :
    SetsBank (.refreshDue t a) s t
      { (s.tile t).cb.modArr a (fun _ => { (s.tile t).cb.arr a with refresh := .due, refreshRow := 0, rowLast := false }) with
        refreshDue := (s.tile t).cb.refreshDue ++ [a] } :=
  guardRes_next (by simp [Instr.wf, ht, ha]) (if_pos ⟨hidle, hsound⟩)

theorem exec_refreshForced (hdue : ((s.tile t).cb.arr a).refresh = .due) :
    exec (.refreshForced t a) s =
      .next ((s.modCb t (fun cb => { cb.modArr a (fun x => { x with refresh := .forced }) with
        refreshDue := cb.refreshDue.filter (· != a) })).odAdd 0x3000 0xB 1) :=
  guardRes_next (by simp [Instr.wf, ht, ha]) (if_pos hdue)

end refresh

/-- Settles O25, by the command. -/
theorem calibrationAndRefresh : Obligations.CalibrationAndRefresh := by
  unfold Obligations.CalibrationAndRefresh
  intro s t a ht ha cb x becomes
  refine ⟨?due, ?start, ?notYet, ?commit, ?late, ?save, ?saveNow, ?refreshDue, ?row, ?forced⟩
  case due => exact fun hidle => setsBank_calibrationDue ht ha hidle
  case start =>
    intro l hl hok
    refine answers_of_setsBank (setsBank_calibrationStart ht hl hok) fun u hu honly => ?_
    have harr := foldl_modArr_arr_of_idem (f := measured) (fun _ => rfl) l cb
    rw [hu]
    exact ⟨fun b hb => (harr b).trans (if_pos hb), fun b hb => (harr b).trans (if_neg hb), honly⟩
  case notYet => exact fun l hl hok => noEffect_calibrationStart ht hl hok
  case commit =>
    intro m hcal
    refine ⟨_, exec_calibrationCommit ht ha m hcal, ?_⟩
    dsimp only
    rw [State.odG_odAdd_same, State.odAdd_tile, State.tile_modCb_same]
    dsimp only
    rw [cbReady_arr, ChargeBank.arr_modArr, if_pos rfl]
    exact ⟨rfl, rfl, rfl, rfl, rfl, commitCal_delta _ _ _ _ _ m, rfl⟩
  case late => exact fun hcal hlate => exec_calibrationLate ht ha hcal hlate
  case save =>
    obtain ⟨u, hu, hod, harr⟩ := answers_userCalibrationSave s
    exact ⟨u, hu, hod, fun t' b => by rw [harr t' b]; exact ⟨rfl, rfl⟩⟩
  case saveNow => exact fun c hc => exec_saveUserCalibrationNow hc
  case refreshDue => exact fun hidle hsound => setsBank_refreshDue ht ha hidle hsound
  case row =>
    intro ok hmay
    obtain ⟨u, hu, hcb⟩ := answers_refreshRow (by simp [Instr.wf, ht, ha]) hmay ok
    refine ⟨u, hu, ?_⟩
    dsimp only
    rw [hcb, bankRefreshed_arr, if_pos rfl]
    exact ⟨rfl, rfl, rfl, rfl⟩
  case forced => exact fun hdue => exec_refreshForced ht ha hdue

end Sys2Proof.Machine
end

section
/-!
SUPPORT. What fault records, scratchpad writes and messages of a tile leave at its engines (R120, R133, R183), and writes
to a scratchpad without uncorrectable granules (R119).
-/

namespace Sys2Proof.Machine

/-- What no step of a walk over a list changes, the walk leaves. -/
theorem State.forEach_unchanged {α β : Type} (P : State → β) {f : α → State → State} (hf : ∀ a s, P (f a s) = P s)
    (l : List α) (s : State) : P (s.forEach l f) = P s := by
  induction l generalizing s with
  | nil => rfl
  | cons a r ih => exact (ih (f a s)).trans (hf a s)

/-! ### Charge bank and tensor block of a tile -/

/-- Charge bank and tensor block of a tile. -/
def State.engines (s : State) (t : TileId) : ChargeBank × Tensor := ((s.tile t).cb, (s.tile t).tv)

section engines

variable (s : State) (t u : TileId)

theorem State.engines_of_tiles {s u : State} (h : u.tiles = s.tiles) (t : TileId) : u.engines t = s.engines t := by
  simp only [State.engines, State.tile_of_tiles h]

/-- A change of some tile that leaves its engines leaves those of every tile. -/
theorem State.engines_modTile {f : Tile → Tile} (hf : ∀ T, (f T).cb = T.cb ∧ (f T).tv = T.tv) :
    (s.modTile t f).engines u = s.engines u := by
  unfold State.engines
  rw [State.tile_modTile]
  split
  · rename_i hk
    have hsame : s.tile t = s.tile u := by simp only [State.tile, hk]
    rw [(hf _).1, (hf _).2, hsame]
  · rfl

@[simp] theorem State.engines_modCc (f : Core → Core) : (s.modCc t f).engines u = s.engines u :=
  s.engines_modTile t u fun _ => ⟨rfl, rfl⟩

@[simp] theorem State.engines_modSp (f : Spad → Spad) : (s.modSp t f).engines u = s.engines u :=
  s.engines_modTile t u fun _ => ⟨rfl, rfl⟩

@[simp] theorem State.engines_modMv (ch : Nat) (f : Mover → Mover) : (s.modMv t ch f).engines u = s.engines u :=
  s.engines_modTile t u fun _ => ⟨rfl, rfl⟩

@[simp] theorem State.engines_odAdd (i b v : Nat) : (s.odAdd i b v).engines u = s.engines u := rfl

@[simp] theorem State.engines_setBlobP (i b p : Nat) (v : List Byte) : (s.setBlobP i b p v).engines u = s.engines u := rfl

@[simp] theorem State.log_tiles (a : LogArgs) : (s.log a).tiles = s.tiles := by
  obtain ⟨h, od, e, -⟩ := s.log_frame a
  rw [e]

@[simp] theorem State.engines_log (a : LogArgs) : (s.log a).engines u = s.engines u :=
  State.engines_of_tiles (s.log_tiles a) u

@[simp] theorem State.engines_countRefusal : (s.countRefusal t).engines u = s.engines u := rfl

/-! ### Traces and fault records (R133, R183, R196) -/

@[simp] theorem State.engines_traceStore (x y : Nat) (r : List Byte) :
    (s.traceStore t x y r).engines u = s.engines u := by
  unfold State.traceStore
  dsimp only
  split
  · rfl
  · split
    · exact (State.engines_modCc _ t u _).trans rfl
    · exact s.engines_modCc t u _

@[simp] theorem State.engines_traceWrite (typ : Nat) (data : List Byte) :
    (s.traceWrite t typ data).engines u = s.engines u := by
  unfold State.traceWrite
  dsimp only
  split
  · rfl
  · split
    · split
      · exact s.engines_modCc t u _
      · rw [State.engines_odAdd, State.engines_modCc]
    · exact (State.engines_modCc _ t u _).trans
        (State.forEach_unchanged (State.engines · u) (fun r s => s.engines_traceStore t u _ _ r) _ s)

@[simp] theorem State.engines_trace (typ : Nat) (data : List Byte) : (s.trace t typ data).engines u = s.engines u := by
  unfold State.trace
  dsimp only
  split
  · rfl
  · exact s.engines_traceWrite t u typ data

@[simp] theorem State.engines_latchFault (r : FaultRec) : (s.latchFault t r).engines u = s.engines u := by
  unfold State.latchFault
  dsimp only
  split
  · rw [State.engines_log, State.engines_trace, State.engines_odAdd]
    exact s.engines_modTile t u fun _ => ⟨rfl, rfl⟩
  · rw [State.engines_log, State.engines_setBlobP, State.engines_trace, State.engines_odAdd]
    exact s.engines_modTile t u fun _ => ⟨rfl, rfl⟩

@[simp] theorem State.engines_inject (m : Message) : (s.inject t m).1.engines t = s.engines t := by
  obtain ⟨l, h⟩ := s.inject_tile t m
  simp only [State.engines, h]

theorem State.engines_of_inject {s s' : State} {t : TileId} {m : Message} {c : Option Nat} (h : s.inject t m = (s', c)) :
    s'.engines t = s.engines t := by
  have hsent := s.engines_inject t m
  rwa [h] at hsent

@[simp] theorem State.engines_sendRecord (r : List Byte) : (s.sendRecord t r).engines t = s.engines t := by
  unfold State.sendRecord
  split
  · dsimp only
    split
    · rename_i s1 hs1
      exact State.engines_of_inject hs1
    · rename_i s1 c hs1
      rw [← State.engines_of_inject hs1, State.faultLost, State.engines_odAdd]
      exact s1.engines_modTile t t fun _ => ⟨rfl, rfl⟩
  · rfl

@[simp] theorem State.engines_raiseFault (r : FaultRec) : (s.raiseFault t r).engines t = s.engines t := by
  rw [State.raiseFault, State.engines_sendRecord, State.engines_latchFault]

/-! ### Scratchpad writes (R119, R120, R128) -/

@[simp] theorem State.engines_memFault (status agent addr loc : Nat) :
    (s.memFault t status agent addr loc).engines t = s.engines t := by
  unfold State.memFault
  dsimp only
  rw [State.engines_raiseFault]
  split
  · rw [State.engines_odAdd, State.engines_modSp]
  · split <;> rfl

@[simp] theorem State.engines_granuleFault (agent loc g : Nat) :
    (s.granuleFault t agent loc g).engines t = s.engines t := by
  rw [State.granuleFault, State.engines_memFault, State.engines_odAdd, State.engines_modSp]

@[simp] theorem State.engines_spPut (agent loc off : Nat) (bs : List (Option Byte)) :
    (s.spPut t agent loc off bs).engines t = s.engines t := by
  unfold State.spPut
  split
  · exact s.engines_modSp t t _
  · rw [State.engines_modSp]
    exact State.forEach_unchanged (State.engines · t) (fun g s => s.engines_granuleFault t agent loc g) _ s

@[simp] theorem State.engines_spStore (agent loc off : Nat) (bs : List (Option Byte)) :
    (s.spStore t agent loc off bs).engines t = s.engines t := by
  unfold State.spStore
  split
  · rw [State.engines_memFault, State.engines_modMv]
  · exact s.engines_spPut t agent loc off bs

@[simp] theorem State.engines_spStoreWords (agent loc off : Nat) (bs : List (Option Byte)) :
    (s.spStoreWords t agent loc off bs).engines t = s.engines t :=
  State.forEach_unchanged (State.engines · t) (fun _ s => s.engines_spStore t agent loc _ _) _ s

end engines

/-! ### Writes of table entries in a row -/

theorem mwriteOpt_append {α : Type} [DecidableEq α] (d : α) (a b : List (Option α)) (m : SMap α) (k : Nat) :
    mwriteOpt d m k (a ++ b) = mwriteOpt d (mwriteOpt d m k a) (k + a.length) b := by
  induction a generalizing m k with
  | nil => rfl
  | cons v r ih =>
    have hk : k + (v :: r).length = k + 1 + r.length := by rw [List.length_cons]; omega
    rw [hk]
    cases v with
    | none => exact ih m (k + 1)
    | some v => exact ih (mset d m k v) (k + 1)

/-- Enabled bytes written from an offset lie over what was there. -/
theorem laid_mwriteOpt (bs : List (Option Byte)) (m : SMap Byte) (off : Nat) : Laid m (mwriteOpt 0 m off bs) off bs := by
  induction bs generalizing m off with
  | nil =>
    intro k
    exact (if_neg (by simp only [List.length_nil]; omega)).symm
  | cons v r ih =>
    have hstep : mwriteOpt 0 m off (v :: r) = mwriteOpt 0 (mwriteOpt 0 m off [v]) (off + 1) r := mwriteOpt_append 0 [v] r m off
    have hone : ∀ k, mget 0 (mwriteOpt 0 m off [v]) k = if k = off then v.getD (mget 0 m k) else mget 0 m k := by
      intro k
      cases v with
      | none => exact (ite_self _).symm
      | some b => exact mget_mset _ _ _ _ _
    intro k
    rw [hstep, ih, hone, List.length_cons]
    by_cases hk : k = off
    · subst hk
      simp
    · rw [if_neg hk]
      by_cases hin : off + 1 ≤ k ∧ k < off + 1 + r.length
      · have hdrop : (v :: r).drop (k - off) = r.drop (k - (off + 1)) := by
          rw [show k - off = (k - (off + 1)) + 1 by omega, List.drop_succ_cons]
        rw [if_pos hin, if_pos ⟨by omega, by omega⟩, hdrop]
      · rw [if_neg hin, if_neg (by omega)]

/-! ### A write that meets no guarded slot and no uncorrectable granule (R119) -/

theorem meetsGuard_mono {m : Mover} {off n off' n' : Nat} (h : meetsGuard m off n = false) (hlo : off ≤ off')
    (hhi : off' + n' ≤ off + n) : meetsGuard m off' n' = false := by
  simp only [meetsGuard, List.any_eq_false, Bool.and_eq_true, decide_eq_true_eq, not_and] at h ⊢
  intro i hi hlt hend
  exact h i hi (by omega) (by omega)

/-- Part of a range that meets no guarded slot meets none. -/
theorem guardOf_mono {T : Tile} {off n off' n' : Nat} (h : guardOf T off n = none) (hlo : off ≤ off')
    (hhi : off' + n' ≤ off + n) : guardOf T off' n' = none := by
  simp only [guardOf, List.find?_eq_none, Bool.not_eq_true] at h ⊢
  exact fun ch hch => meetsGuard_mono (h ch hch) hlo hhi

/-- Cuts of the range from `k` to `n`, one after another. -/
def CutsFrom (k n : Nat) : List (Nat × Nat) → Prop
  | [] => k = n
  | c :: r => c.1 = k ∧ k + c.2 ≤ n ∧ CutsFrom (k + c.2) n r

/-- Whole words from a place on, the last one as far as the range goes. -/
theorem cutsFrom_words (n first : Nat) (h : first ≤ n) (c i : Nat)
    (hc : ceilDiv (n - first) 32 = i + c) :
    CutsFrom (min (first + 32 * i) n) n
      ((List.range' i c).map (fun i => (first + 32 * i, min 32 (n - first - 32 * i)))) := by
  induction c generalizing i with
  | zero =>
    simp only [ceilDiv] at hc
    simp only [List.range'_zero, List.map_nil, CutsFrom]
    omega
  | succ c ih =>
    have hnext := ih (i + 1) (by omega)
    simp only [ceilDiv] at hc
    have hin : first + 32 * i < n := by omega
    have hplace : min (first + 32 * i) n = first + 32 * i := by omega
    have hto : first + 32 * i + min 32 (n - first - 32 * i) = min (first + 32 * (i + 1)) n := by omega
    rw [List.range'_succ, List.map_cons, CutsFrom, hplace, hto]
    exact ⟨rfl, by omega, hnext⟩

/-- The words that a range meets cut all of it. -/
theorem cutsFrom_wordCuts (off n : Nat) : CutsFrom 0 n (wordCuts off n) := by
  unfold wordCuts
  dsimp only
  split
  · exact ⟨rfl, by omega, by simp only [CutsFrom]; omega⟩
  · rename_i hn
    have hwords := cutsFrom_words n (32 - off % 32) (by omega) (ceilDiv (n - (32 - off % 32)) 32) 0 (by omega)
    rw [← List.range_eq_range', Nat.mul_zero, Nat.add_zero, Nat.min_eq_left (by omega)] at hwords
    refine ⟨rfl, by omega, ?_⟩
    rw [Nat.zero_add]
    exact hwords

theorem badForWrite_sound {p : Spad} (h : p.bad = []) (off : Nat) (bs : List (Option Byte)) : badForWrite p off bs = [] := by
  simp [badForWrite, badIn, h]

theorem spWrite_sound {p : Spad} (h : p.bad = []) (off : Nat) (bs : List (Option Byte)) :
    spWrite p off bs = { p with mem := mwriteOpt 0 p.mem off bs } := by
  cases p
  cases h
  rfl

/-- A scratchpad with bytes written. -/
def spadWith (off : Nat) (bs : List (Option Byte)) (p : Spad) : Spad := { p with mem := mwriteOpt 0 p.mem off bs }

/-- A tile with bytes of its scratchpad written. -/
def tileWith (off : Nat) (bs : List (Option Byte)) (T : Tile) : Tile := { T with sp := spadWith off bs T.sp }

theorem State.spStore_sound {s : State} {t : TileId} (hsound : (s.tile t).sp.bad = []) (agent loc off : Nat)
    {bs : List (Option Byte)} (hguard : guardOf (s.tile t) off bs.length = none) :
    s.spStore t agent loc off bs = s.setTile t (tileWith off bs (s.tile t)) := by
  have hput : s.spPut t agent loc off bs = s.setTile t (tileWith off bs (s.tile t)) := by
    rw [State.spPut, badForWrite_sound hsound]
    exact congrArg (fun p => s.setTile t { s.tile t with sp := p }) (spWrite_sound hsound off bs)
  unfold State.spStore
  split
  · rename_i ch h
    rw [hguard, ite_self] at h
    cases h
  · exact hput

theorem tileWith_append (off : Nat) (a b : List (Option Byte)) (T : Tile) :
    tileWith (off + a.length) b (tileWith off a T) = tileWith off (a ++ b) T := by
  simp only [tileWith, spadWith, mwriteOpt_append]

/-- The words of a write, one after another, from where the first `k` bytes have been written. -/
theorem State.forEach_spStore_sound {s : State} {t : TileId} {T : Tile} {off : Nat} {bs : List (Option Byte)}
    (hsound : T.sp.bad = []) (agent loc : Nat) (hguard : guardOf T off bs.length = none) (l : List (Nat × Nat)) (k : Nat)
    (hl : CutsFrom k bs.length l) :
    (s.setTile t (tileWith off (bs.take k) T)).forEach l
        (fun c s => s.spStore t agent loc (off + c.1) ((bs.drop c.1).take c.2)) =
      s.setTile t (tileWith off bs T) := by
  induction l generalizing k with
  | nil =>
    cases (hl : k = bs.length)
    rw [List.take_length]
    rfl
  | cons c r ih =>
    obtain ⟨rfl, hle, hr⟩ := hl
    have hlen : ((bs.drop c.1).take c.2).length ≤ c.2 := List.length_take_le _ _
    have hk : (bs.take c.1).length = c.1 := by rw [List.length_take]; omega
    have hstore := State.spStore_sound (s := s.setTile t (tileWith off (bs.take c.1) T)) (t := t)
      (by rw [State.tile_setTile_same]; exact hsound) agent loc (off + c.1) (bs := (bs.drop c.1).take c.2)
      (by rw [State.tile_setTile_same]; exact guardOf_mono (T := T) hguard (by omega) (by omega))
    rw [State.forEach, hstore, State.tile_setTile_same]
    have hnext := tileWith_append off (bs.take c.1) ((bs.drop c.1).take c.2) T
    rw [hk, ← List.take_add] at hnext
    rw [hnext, ← ih _ hr]
    simp only [State.setTile, mset_mset_same]

/-- A write of all its words, where none meets a guarded slot or an uncorrectable granule. -/
theorem State.spStoreWords_sound {s : State} {t : TileId} (hsound : Sound s t) (agent loc off : Nat)
    {bs : List (Option Byte)} (hguard : guardOf (s.tile t) off bs.length = none) :
    s.spStoreWords t agent loc off bs = s.setTile t (tileWith off bs (s.tile t)) := by
  have hcuts := cutsFrom_wordCuts off bs.length
  unfold State.spStoreWords
  cases hw : wordCuts off bs.length with
  | nil =>
    unfold wordCuts at hw
    dsimp only at hw
    split at hw <;> cases hw
  | cons c r =>
    rw [hw] at hcuts
    obtain ⟨h0, hle, hr⟩ := hcuts
    have hlen : ((bs.drop c.1).take c.2).length ≤ c.2 := List.length_take_le _ _
    rw [State.forEach, State.spStore_sound hsound agent loc (off + c.1)
      (guardOf_mono hguard (by omega) (by omega)), h0, Nat.add_zero, List.drop_zero]
    rw [Nat.zero_add] at hr
    exact State.forEach_spStore_sound hsound agent loc hguard r c.2 hr

end Sys2Proof.Machine
end

section
/-!
SUPPORT. Exact reads and streams (R65–R69, R107), held loads, tensor operations and drains (R98–R106), and the obligation
O26.
-/

namespace Sys2Proof.Machine

/-! ### EXACT_ARRAY_READ (R67) -/

/-- EXACT of TV_STATUS and the streams of the bank at a tile. -/
def exactShown (T : Tile) : Tile := { T with tv := { T.tv with exact := exactReady T.cb } }

/-- An array whose codes, as read for the token in its latches, have been kept. -/
def arrayRead (rows : List (List Nat)) (bad : Bool) (x : ChargeArray) : ChargeArray :=
  { x with exact := some rows, early := x.early || bad }

/-- A bank of which an array has been read. -/
def bankRead (a : Nat) (rows : List (List Nat)) (bad : Bool) (cb : ChargeBank) : ChargeBank :=
  { cb.modArr a (arrayRead rows bad) with boundary := false }

theorem bankRead_arr (a : Nat) (rows : List (List Nat)) (bad : Bool) (cb : ChargeBank) :
    (bankRead a rows bad cb).arr a = arrayRead rows bad (cb.arr a) :=
  (ChargeBank.arr_modArr cb a a (arrayRead rows bad)).trans (if_pos rfl)

/-- The state in which an array's read has been kept. -/
def State.kept (s : State) (t : TileId) (a : Nat) (rows : List (List Nat)) (bad : Bool) : State :=
  (s.modCb t (bankRead a rows bad)).showExact t

/-- A read kept changes its tile alone: the bank, and EXACT. -/
theorem State.kept_eq (s : State) (t : TileId) (a : Nat) (rows : List (List Nat)) (bad : Bool) :
    s.kept t a rows bad =
      s.modTile t (fun T => exactShown { T with cb := bankRead a rows bad T.cb }) :=
  s.modTile_modTile_same t (fun T => { T with cb := bankRead a rows bad T.cb }) exactShown

theorem State.tile_kept (s : State) (t : TileId) (a : Nat) (rows : List (List Nat)) (bad : Bool) :
    (s.kept t a rows bad).tile t = exactShown { s.tile t with cb := bankRead a rows bad (s.tile t).cb } := by
  rw [State.kept_eq, State.tile_modTile_same]

/-- An array of an Exact-mode segment may be read for the token in its latches (R67). -/
structure ExactReads (cb : ChargeBank) (a n : Nat) (g : Segment) : Prop where
  segment : segOfArray cb a = some (n, g)
  exactMode : g.exactMode = true
  latched : fullLatch (cb.arr a) g = true
  idle : arrayIdle (cb.arr a) = true
  unread : (cb.arr a).exact = none
  free : readFree cb = true
  noBurst : burstAhead cb a = false

section exactRead

variable {s : State} {t : TileId} {a n : Nat} {g : Segment} {first second : List (Nat × Nat × Nat)}
  (ht : tileOk t = true) (ha : a < 192) (hreads : ExactReads (s.tile t).cb a n g)
include ht ha hreads

/-- Codes that agree with the column sums at one of two reads are kept. -/
theorem exec_exactArrayRead_agrees {rows : List (List Nat)}
    (hrows : (if sumsMatch ((s.tile t).cb.arr a) (readArray (s.tile t).cb a first) then readArray (s.tile t).cb a first
      else readArray (s.tile t).cb a second) = rows)
    (hmatch : sumsMatch ((s.tile t).cb.arr a) rows = true) :
    exec (.exactArrayRead t a first second) s = .next (s.kept t a rows false) := by
  obtain ⟨hseg, hmode, hlatch, hidle, hunread, hfree, hburst⟩ := hreads
  refine guardRes_next (by simp [Instr.wf, ht, ha]) ?_
  subst hrows
  simp only [hseg]
  refine (if_neg (by simp [hmode, hlatch, hidle, hunread, hfree, hburst])).trans ?_
  simp only [hmatch]
  rfl

/-- The log entry of a read that disagreed twice. -/
def exactMismatch (s : State) (t : TileId) (a : Nat) : LogArgs :=
  { rule := 67, status := 0, sev := 1, source := 2, field := fieldOfTile t, part := (s.partOfTile t).getD 0xFF,
    data := [t.u, t.y, a] }

/-- Codes that disagree at both reads are kept, counted and logged, and mark the array. -/
theorem exec_exactArrayRead_differs
    (hfirst : sumsMatch ((s.tile t).cb.arr a) (readArray (s.tile t).cb a first) = false)
    (hsecond : sumsMatch ((s.tile t).cb.arr a) (readArray (s.tile t).cb a second) = false) :
    exec (.exactArrayRead t a first second) s = .next
      (((s.kept t a (readArray (s.tile t).cb a second) true).odAdd 0x3101 2 1).log (exactMismatch s t a)) := by
  obtain ⟨hseg, hmode, hlatch, hidle, hunread, hfree, hburst⟩ := hreads
  refine guardRes_next (by simp [Instr.wf, ht, ha]) ?_
  simp only [hseg]
  refine (if_neg (by simp [hmode, hlatch, hidle, hunread, hfree, hburst])).trans ?_
  simp only [hfirst, Bool.false_eq_true, if_false, hsecond, Bool.not_false, if_true]
  rfl

end exactRead

/-! ### EXACT_STREAM (R107, R69) -/

theorem foldl_modArr_seg (f : ChargeArray → ChargeArray) (as : List Nat) (cb : ChargeBank) (n : Nat) :
    (as.foldl (fun cb a => cb.modArr a f) cb).seg n = cb.seg n := by
  induction as generalizing cb with
  | nil => rfl
  | cons a r ih => exact ih (cb.modArr a f)

theorem arraysOf_nodup (g : Segment) : (arraysOf g).Nodup :=
  List.Nodup.map (fun i j (h : i + g.arrBase = j + g.arrBase) => by omega) List.nodup_range

/-- An array whose Exact-mode token has ended: its latches are empty and the next word is of the next token. -/
def exactEnded (x : ChargeArray) : ChargeArray := { x with exact := none, latch := [], latched := [], token := x.token + 1 }

/-- A bank of which a segment, with the arrays given, has ended its Exact-mode token. -/
def bankStreamed (n : Nat) (as : List Nat) (cb : ChargeBank) : ChargeBank :=
  (as.foldl (fun cb a => cb.modArr a exactEnded) cb).modSeg n
    (fun g => { g with delivered := g.delivered + 1, destFault := false })

theorem bankStreamed_delivered (n : Nat) (as : List Nat) (cb : ChargeBank) :
    ((bankStreamed n as cb).seg n).delivered = (cb.seg n).delivered + 1 := by
  rw [bankStreamed, ChargeBank.seg_modSeg, if_pos rfl, foldl_modArr_seg]

theorem bankStreamed_arr (n : Nat) (as : List Nat) (has : as.Nodup) (cb : ChargeBank) {a : Nat} (ha : a ∈ as) :
    (bankStreamed n as cb).arr a = exactEnded (cb.arr a) :=
  (foldl_modArr_arr exactEnded as has cb a).trans (if_pos ha)

/-- A tile of which a segment has ended its Exact-mode token: counted, and EXACT shown anew. -/
def tileStreamed (n : Nat) (as : List Nat) (T : Tile) : Tile :=
  exactShown { T with cb := bankStreamed n as T.cb, tv := { T.tv with exactCnt := satAdd T.tv.exactCnt 1 0xFFFFFFFF } }

/-- How many tokens each segment has delivered, and the tensor block: what forming and sending outputs leaves. -/
def State.streams (s : State) (t : TileId) (n : Nat) : Nat × Tensor :=
  (((s.tile t).cb.seg n).delivered, (s.tile t).tv)

theorem State.streams_of_engines {s u : State} {t : TileId} (h : u.engines t = s.engines t) (n : Nat) :
    u.streams t n = s.streams t n := by
  obtain ⟨hcb, htv⟩ := Prod.mk.inj h
  simp only [State.streams, hcb, htv]

section finishGroup

variable (s : State) (t : TileId) (n m : Nat)

theorem State.streams_modCb {f : ChargeBank → ChargeBank}
    (hf : ∀ cb : ChargeBank, ((f cb).seg n).delivered = (cb.seg n).delivered) :
    (s.modCb t f).streams t n = s.streams t n := by
  simp only [State.streams, State.tile_modCb_same, hf]

theorem State.streams_odAdd (i b v : Nat) : (s.odAdd i b v).streams t n = s.streams t n := rfl

theorem State.streams_countClamps (acc rq : Nat) : (s.countClamps t acc rq).streams t n = s.streams t n := by
  unfold State.countClamps
  split
  · rfl
  · dsimp only
    rw [State.streams_odAdd, State.streams_odAdd, State.streams_modCb]
    exact fun _ => rfl

theorem State.streams_deliverWords (token w0 : Nat) (bytes : List Byte) :
    (s.deliverWords t m token w0 bytes).streams t n = s.streams t n := by
  unfold State.deliverWords
  dsimp only
  split
  · split
    · rfl
    · rw [State.streams_of_engines (State.engines_raiseFault _ t _)]
      refine s.streams_modCb t n fun cb => ?_
      rw [ChargeBank.seg_modSeg]
      split
      · rename_i h
        rw [h]
      · rfl
  · split
    · exact State.streams_of_engines (s.engines_spStoreWords t _ _ _ _) n
    · split
      · rename_i s1 hs1
        exact State.streams_of_engines (State.engines_of_inject hs1) n
      · rename_i s1 c hs1
        exact State.streams_of_engines (by rw [State.engines_raiseFault, State.engines_countRefusal,
          State.engines_of_inject hs1]) n

theorem State.streams_finishGroup (token grp : Nat) (accs : List Int) :
    (s.finishGroup t m token grp accs).streams t n = s.streams t n := by
  unfold State.finishGroup
  dsimp only
  rw [State.streams_deliverWords, State.streams_countClamps]

end finishGroup

@[simp] theorem State.engines_closeWindow (s : State) (t u : TileId) : (s.closeWindow t).engines u = s.engines u := by
  unfold State.closeWindow
  dsimp only
  split
  · exact State.forEach_unchanged (State.engines · u) (fun k s =>
      s.engines_modTile k u (f := fun T => { T with quiet := false }) fun _ => ⟨rfl, rfl⟩) _ s
  · rfl

/-- The outputs of a segment's column groups formed from its exact accumulators and sent. -/
def State.outputsSent (s : State) (t : TileId) (n : Nat) : State :=
  let cb := (s.tile t).cb
  let g := cb.seg n
  s.forEach ((List.range (groupsOf g)).map (fun i => (i, exactGroup cb g i)))
    (fun e s => s.finishGroup t n (cb.arr g.arrBase).token e.1 e.2)

theorem State.streams_outputsSent (s : State) (t : TileId) (n m : Nat) :
    (s.outputsSent t m).streams t n = s.streams t n := by
  have hgroup : ∀ (token : Nat) (e : Nat × List Int) (s : State),
      (s.finishGroup t m token e.1 e.2).streams t n = s.streams t n :=
    fun token e s => s.streams_finishGroup t n m token e.1 e.2
  exact State.forEach_unchanged (State.streams · t n) (hgroup _) _ s

/-- The exact stream of a segment all of whose arrays have been read ends the token (R107, R69): outputs are formed and
sent, then the tile is as `tileStreamed` says. -/
theorem answers_exactStream {s : State} {t : TileId} {n : Nat} (ht : tileOk t = true) (hn : n < 16)
    (hen : ((s.tile t).cb.seg n).en = true) (hmode : ((s.tile t).cb.seg n).exactMode = true)
    (hread : ∀ a ∈ arraysOf ((s.tile t).cb.seg n), ((s.tile t).cb.arr a).exact ≠ none) :
    Answers (.exactStream t n) s (fun u => ∃ v : State, v.streams t n = s.streams t n ∧
      u.engines t = (v.modTile t (tileStreamed n (arraysOf ((s.tile t).cb.seg n)))).engines t) := by
  have hall : (arraysOf ((s.tile t).cb.seg n)).all (fun a => ((s.tile t).cb.arr a).exact.isSome) = true :=
    List.all_eq_true.2 fun a ha => Option.isSome_iff_ne_none.2 (hread a ha)
  have hexec : exec (.exactStream t n) s = .next (((((s.outputsSent t n).modTile t (fun T => { T with
      cb := bankStreamed n (arraysOf ((s.tile t).cb.seg n)) T.cb,
      tv := { T.tv with exactCnt := satAdd T.tv.exactCnt 1 0xFFFFFFFF } })).showExact t).odAdd 0x3200 8 1).closeWindow t) :=
    guardRes_next (by simp [Instr.wf, ht, hn]) (if_neg (by rw [hen, hmode, hall]; decide))
  refine ⟨_, hexec, s.outputsSent t n, s.streams_outputsSent t n n, ?_⟩
  rw [State.engines_closeWindow, State.engines_odAdd, State.showExact, State.modTile_modTile_same]
  rfl

/-! ### HELD_LOAD (R105) -/

theorem spGet_sound {s : State} {t : TileId} (hsound : Sound s t) (agent loc off n : Nat) :
    s.spGet t agent loc off n = (s, spRead (s.tile t).sp off n, 0) := by
  have hbad : badIn (s.tile t).sp off n = [] := by
    have hgranules : (s.tile t).sp.bad = [] := hsound
    simp [badIn, hgranules]
  unfold State.spGet
  dsimp only
  rw [hbad]

/-- The held file after a load. -/
def heldFile (T : Tile) (d : TvDesc) : SMap Byte :=
  mwrite 0 T.tv.held (d.hbank * 16384 + d.heldOff) (spRead T.sp d.sBase d.k)

theorem exec_heldLoad {s : State} {t : TileId} {b : List Byte} {rest : List (List Byte)} (ht : tileOk t = true)
    (hsound : Sound s t) (htake : takeDesc 0x11 [] (s.tile t).tv.queue = some (b, rest)) (hrest : rest ≠ []) :
    exec (.heldLoad t) s =
      .next (s.modTv t (fun v => { v with queue := rest, held := heldFile (s.tile t) (tvDescOf b) })) := by
  refine guardRes_next ht ?_
  simp only [htake, spGet_sound hsound]
  refine congrArg (fun v => s.setTile t { s.tile t with tv := v }) (if_neg ?_)
  simp [hrest]

/-! ### TENSOR_OPERATION (R98, R106) -/

theorem meetRanges_sound {s : State} {t : TileId} (hsound : Sound s t) (agent : Nat) (l : List (Nat × Nat)) :
    s.meetRanges t agent l = s := by
  have hnone : l.flatMap (fun r => badIn (s.tile t).sp r.1 r.2) = [] := by
    have hgranules : (s.tile t).sp.bad = [] := hsound
    simp [badIn, hgranules]
  unfold State.meetRanges
  rw [hnone]
  rfl

theorem spView_sound {p : Spad} (h : p.bad = []) (free : Nat) : spView free p = p := by
  rw [spView, h]
  rfl

/-- A tensor block after an operation with its results: what is left of the queue, entries, drain, status and counts. -/
def tensorRan (d : TvDesc) (rest : List (List Byte)) (r : List (Word × Bool)) (v : Tensor) : Tensor :=
  let n := (r.filter (·.2)).length
  let st := stallCycles d
  let fp := d.fmt == 2
  { v with queue := rest, mode := d.mode + 1, acc := mwrite 0 v.acc (tvAccKey d 0) (r.map (·.1)),
           drains := if d.drain then v.drains ++ [drainOf d] else v.drains,
           isat := v.isat || (!fp && n != 0), nonfinite := v.nonfinite || (fp && n != 0),
           isatCnt := if fp then v.isatCnt else satAdd v.isatCnt n 0xFFFFFFFF,
           nfCnt := if fp then satAdd v.nfCnt n 0xFFFFFFFF else v.nfCnt,
           streamStall := v.streamStall || st != 0, stallCnt := satAdd v.stallCnt st 0xFFFFFFFF }

theorem tensorRan_acc (d : TvDesc) (rest : List (List Byte)) (r : List (Word × Bool)) (v : Tensor) :
    (tensorRan d rest r v).acc = mwrite 0 v.acc (d.aset * 4096 + d.accBase) (r.map (·.1)) := by
  simp only [tensorRan, tvAccKey, Nat.add_zero]

/-- Settling changes MODE alone. -/
theorem tvSettle_frame (v : Tensor) : ∃ m, tvSettle v = { v with mode := m } := by
  unfold tvSettle
  split
  · exact ⟨0, rfl⟩
  · exact ⟨v.mode, rfl⟩

/-- A tensor operation that neither an exact stream nor a drain of its accumulator set holds back (R98, R106, R107). -/
structure OperationRuns (T : Tile) (b : List Byte) (rest : List (List Byte)) : Prop where
  taken : takeDesc 0x10 [] T.tv.queue = some (b, rest)
  noStream : T.tv.exact = false
  noDrain : ∀ x ∈ T.tv.drains, x.set ≠ (tvDescOf b).aset

section operation

variable {s : State} {t : TileId} {b : List Byte} {rest : List (List Byte)} (ht : tileOk t = true) (hsound : Sound s t)
  (hruns : OperationRuns (s.tile t) b rest)
include ht hsound hruns

theorem exec_tensorOperation :
    exec (.tensorOperation t) s = .next ((((s.useFree 32).modTv t (fun v =>
      tvSettle (tensorRan (tvDescOf b) rest (pairResults (s.tile t) (tvDescOf b)) v))).odAdd 0x3200
        (if (tvDescOf b).fmt == 2 then 6 else 5) ((pairResults (s.tile t) (tvDescOf b)).filter (·.2)).length).odAdd 0x3200 7
          (stallCycles (tvDescOf b))) := by
  obtain ⟨htake, hexact, hdrains⟩ := hruns
  refine guardRes_next ht ?_
  simp only [htake, meetRanges_sound hsound, spView_sound hsound]
  exact if_neg (by simpa [hexact] using hdrains)

/-- Saturated results of the integer formats are counted in OD 0x3200.05 (R101). -/
theorem answers_tensorOperation :
    Answers (.tensorOperation t) s (fun u =>
      (∃ m, (u.tile t).tv = { tensorRan (tvDescOf b) rest (pairResults (s.tile t) (tvDescOf b)) (s.tile t).tv with mode := m }) ∧
      (u.tile t).sp = (s.tile t).sp ∧
      ((tvDescOf b).fmt ≠ 2 →
        u.odG 0x3200 5 = s.odG 0x3200 5 + ((pairResults (s.tile t) (tvDescOf b)).filter (·.2)).length)) := by
  refine ⟨_, exec_tensorOperation ht hsound hruns, ?_⟩
  simp only [State.odAdd_tile, State.modTv, State.tile_modTile_same]
  refine ⟨tvSettle_frame _, rfl, fun hfmt => ?_⟩
  rw [if_neg (by simpa using hfmt)]
  exact (State.odP_odSetP_other _ _ _ _ _ _ _ _ (by decide)).trans (State.odG_odAdd_same _ _ _ _)

end operation

/-! ### TENSOR_DRAIN (R106) -/

section drain

variable {s : State} {t : TileId} {d : Drain} {r : List Drain} (ht : tileOk t = true) (hd : (s.tile t).tv.drains = d :: r)
include ht hd

/-- A drain lays its values in a scratchpad without uncorrectable granules, where they meet no guarded slot. -/
theorem exec_tensorDrain_lays (hsound : Sound s t) (htovu : d.tovu = false)
    (hguard : guardOf (s.tile t) d.dest (drainData (s.tile t).tv d).length = none) :
    exec (.tensorDrain t) s = .next
      ((s.setTile t (tileWith d.dest (enabled (drainData (s.tile t).tv d)) (s.tile t))).drainDone t) := by
  have hlen : (enabled (drainData (s.tile t).tv d)).length = (drainData (s.tile t).tv d).length := List.length_map _
  refine guardRes_next ht ?_
  simp only [hd]
  refine (if_neg (by simp [htovu])).trans ?_
  rw [State.spStoreWords_sound hsound 5 0 d.dest (by rw [hlen]; exact hguard)]

/-- The words of a drain that the vector unit's queue has room for, with their places in the drain. -/
def handedOver (T : Tile) (d : Drain) : List (Nat × List Byte) :=
  (((wordsOf (drainData T.tv d)).mapIdx (fun i w => (i, w))).drop d.sent).take (256 - T.vu.queue.length)

/-- A drain to the vector unit's queue that has room for all its words. -/
theorem exec_tensorDrain_queue (htovu : d.tovu = true)
    (hroom : (wordsOf (drainData (s.tile t).tv d)).length ≤ d.sent + (256 - (s.tile t).vu.queue.length)) :
    exec (.tensorDrain t) s =
      .next ((s.modVu t (fun v => { v with queue := v.queue ++ handedOver (s.tile t) d })).drainDone t) := by
  refine guardRes_next ht ?_
  simp only [hd]
  refine (if_pos htovu).trans (if_pos ?_)
  rwa [List.length_mapIdx]

end drain

/-- What the end of a drain leaves: the other drains, TDONE, and the vector unit as it was. -/
theorem State.tile_drainDone (s : State) (t : TileId) :
    ((s.drainDone t).tile t).tv.drains = (s.tile t).tv.drains.drop 1 ∧
      bit ((s.drainDone t).tile t).cc.events 5 = true ∧ ((s.drainDone t).tile t).vu = (s.tile t).vu := by
  obtain ⟨m, hm⟩ := tvSettle_frame { (s.tile t).tv with drains := (s.tile t).tv.drains.drop 1 }
  rw [State.drainDone, State.tile_modTile_same]
  dsimp only
  rw [hm]
  exact ⟨rfl, bit_setBit_same _ _, rfl⟩

/-- Settles O26, by the command. -/
theorem exactModeAndTensor : Obligations.ExactModeAndTensor := by
  unfold Obligations.ExactModeAndTensor
  intro s t ht T
  refine ⟨?read, ?stream, ?load, ?operation, ?lays, ?queue⟩
  case read =>
    intro a n g first second ha hseg hmode hlatch hidle hunread hfree hburst r1 r2 x
    have hreads : ExactReads T.cb a n g := ⟨hseg, hmode, hlatch, hidle, hunread, hfree, hburst⟩
    refine ⟨fun hagrees => ?agrees, fun hfirst hsecond => ?differs⟩
    case agrees =>
      have hmatch : sumsMatch x (if sumsMatch x r1 then r1 else r2) = true := by
        split
        · assumption
        · rename_i hfirst
          exact hagrees.resolve_left hfirst
      refine ⟨_, exec_exactArrayRead_agrees ht ha hreads rfl hmatch, ?_⟩
      dsimp only
      rw [State.tile_kept]
      refine ⟨(bankRead_arr _ _ _ _).trans ?_, rfl, by rw [State.kept_eq]; exact onlyTile_modTile s t _⟩
      simp only [arrayRead, Bool.or_false]
      rfl
    case differs =>
      refine ⟨_, exec_exactArrayRead_differs ht ha hreads hfirst hsecond, ?_, ?_⟩
      · rw [State.tile_of_tiles (State.log_tiles _ _), State.odAdd_tile, State.tile_kept]
        refine (bankRead_arr _ _ _ _).trans ?_
        simp only [arrayRead, Bool.or_true]
        rfl
      · rw [State.log_odG _ _ (by decide) (by decide), State.odG_odAdd_same]
        rfl
  case stream =>
    intro n hn hen hmode hread
    obtain ⟨u, hu, v, hv, hengines⟩ := answers_exactStream ht hn hen hmode hread
    obtain ⟨hdelivered, htv⟩ := Prod.mk.inj hv
    obtain ⟨hcb, hutv⟩ := Prod.mk.inj hengines
    rw [State.tile_modTile_same] at hcb hutv
    refine ⟨u, hu, ?_, ?_, ?_, ?_⟩
    · rw [hcb]
      exact (bankStreamed_delivered _ _ _).trans (congrArg (· + 1) hdelivered)
    · intro a ha
      rw [hcb]
      have harr := bankStreamed_arr n (arraysOf (T.cb.seg n)) (arraysOf_nodup _) (v.tile t).cb ha
      exact ⟨congrArg ChargeArray.exact harr, congrArg ChargeArray.latched harr⟩
    · rw [hcb, hutv]
      rfl
    · rw [hutv]
      exact congrArg (fun w : Tensor => satAdd w.exactCnt 1 0xFFFFFFFF) htv
  case load => exact fun b rest hsound htake hrest => exec_heldLoad ht hsound htake hrest
  case operation =>
    intro b rest hsound htake hexact hdrains d r
    obtain ⟨u, hu, ⟨m, htv⟩, hsp, hcount⟩ := answers_tensorOperation ht hsound ⟨htake, hexact, hdrains⟩
    refine ⟨u, hu, ?_⟩
    dsimp only
    rw [htv]
    exact ⟨tensorRan_acc d rest r T.tv, rfl, rfl, rfl, hsp, hcount⟩
  case lays =>
    intro d r hsound hd htovu hguard
    exact ⟨_, laid_mwriteOpt _ _ _, exec_tensorDrain_lays ht hd hsound htovu hguard⟩
  case queue =>
    intro d r hd htovu hroom
    refine ⟨_, exec_tensorDrain_queue ht hd htovu hroom, ?_⟩
    obtain ⟨hdrains, hdone, hvu⟩ := State.tile_drainDone
      (s.modVu t (fun v => { v with queue := v.queue ++ handedOver T d })) t
    rw [State.modVu, State.tile_modTile_same] at hdrains hvu
    refine ⟨hdrains.trans ?_, hdone, congrArg Vector.queue hvu⟩
    exact congrArg (List.drop 1) hd

end Sys2Proof.Machine
end

section
/-!
SUPPORT. Rows that no array has (R36, log 7), and the obligation O33.
-/

namespace Sys2Proof.Machine

/-- An array has 512 rows; a rejuvenation of a row beyond them is ill-formed, whatever the state. -/
theorem exec_rejuvenation_noRow (s : State) (t : TileId) (a : Nat) {row : Nat} (o : RowOutcome) (hrow : 512 ≤ row) :
    exec (.rejuvenation t a row o) s = .fault .noSuchUnit :=
  if_neg (by simp [Instr.wf, Nat.not_lt.2 hrow])

/-- The block after reset, with field 0 in partition 0 and array 0 of the field's first tile written for its base model. -/
def arrayWritten : State :=
  (State.reset.odSet 0x4003 1 1).modPart 0 (fun P => { P with baseArrays := [(⟨0, 0⟩, 0)] })

theorem arrayWritten_part : arrayWritten.part 0 = { baseArrays := [(⟨0, 0⟩, 0)] } := State.part_modPart_same _ _ _

theorem arrayWritten_partOfTile : arrayWritten.partOfTile ⟨0, 0⟩ = some 0 := by
  have hmask : arrayWritten.partMask 0 = 1 := State.odG_odSet_same State.reset 0x4003 1 1
  refine List.find?_eq_some_iff_append.2 ⟨by rw [hmask]; rfl, [], List.range' 1 31, rfl, by simp⟩

theorem arrayWritten_handle (h : Nat) : (handleOf (arrayWritten.part 0) h).st = 0 := by
  rw [arrayWritten_part]
  rfl

/-- Refutes O33: its last part speaks of every row number, and a rejuvenation of row 512, which no array has, is
ill-formed and faults (log 7), where the statement has it skip the row of a handle that is not installed. -/
theorem not_modelLoading : ¬ Obligations.ModelLoading := by
  unfold Obligations.ModelLoading
  intro h
  obtain ⟨-, -, -, -, hrejuvenation⟩ := h arrayWritten 0 (by decide)
  have harray : ((⟨0, 0⟩, 0) : TileId × Nat) ∈ (arrayWritten.part 0).baseArrays := by
    rw [arrayWritten_part]
    exact List.mem_singleton.2 rfl
  obtain ⟨hskip, -⟩ := hrejuvenation ⟨0, 0⟩ 0 512 0 0 [] { retries := 0, offLevel := [] } (by decide) (by decide)
    arrayWritten_partOfTile (.inl harray)
  have hnext := hskip (by rw [arrayWritten_handle]; decide) (by rw [arrayWritten_handle]; decide)
  rw [exec_rejuvenation_noRow _ _ _ _ (Nat.le_refl 512)] at hnext
  cases hnext

end Sys2Proof.Machine
end

section
/-!
SUPPORT. What GRANT, temperatures, rotations and coolant readings change of the dictionary, fields and tiles (R321,
R337–R346, R378), and the obligation O48.
-/

namespace Sys2Proof.Machine

/-! ### Values of the dictionary under writes of others -/

/-- An entry of another index reads as before. -/
theorem State.odG_odSet_index (s : State) {i b v idx sub : Nat} (hi : idx ≠ i) (hsub : sub < 256) (hb : b < 256) :
    (s.odSet i b v).odG idx sub = s.odG idx sub :=
  State.odP_odSetP_other _ _ _ _ _ _ _ _ (odKey_ne_of_index hsub (by decide) hb (by decide) hi)

/-- Another entry of the same index reads as before. -/
theorem State.odG_odSet_sub (s : State) {i b v sub : Nat} (h : sub ≠ b) : (s.odSet i b v).odG i sub = s.odG i sub :=
  State.odP_odSetP_other _ _ _ _ _ _ _ _ (fun e => h (by unfold odKey at e; omega))

theorem State.odG_of_od {s u : State} (h : u.od = s.od) (idx sub : Nat) : u.odG idx sub = s.odG idx sub := by
  simp only [State.odG, State.odP, h]

theorem State.field_of_fields {s u : State} (h : u.fields = s.fields) (f : Nat) : u.field f = s.field f := by
  simp only [State.field, h]

@[simp] theorem State.field_modField_same (s : State) (f : Nat) (g : Field → Field) :
    (s.modField f g).field f = g (s.field f) := mget_mset_same _ _ _ _

@[simp] theorem State.log_fields (s : State) (a : LogArgs) : (s.log a).fields = s.fields := by
  obtain ⟨h, od, e, -⟩ := s.log_frame a
  rw [e]

@[simp] theorem State.log_parts (s : State) (a : LogArgs) : (s.log a).parts = s.parts := by
  obtain ⟨h, od, e, -⟩ := s.log_frame a
  rw [e]

@[simp] theorem State.log_power (s : State) (a : LogArgs) : (s.log a).power = s.power := by
  obtain ⟨h, od, e, -⟩ := s.log_frame a
  rw [e]

theorem State.logAppend_hub (s : State) (e : LogEntry) :
    (s.logAppend e).hub = { s.hub with ramLog := ringPush 8192 s.hub.ramLog { e with seq := s.nextSeq } } := rfl

@[simp] theorem State.log_coolant (s : State) (a : LogArgs) : (s.log a).hub.coolant = s.hub.coolant := by
  unfold State.log
  split
  · dsimp only
    split <;> rfl
  · rw [State.logAppend_hub]

/-! ### GRANT of a field's tiles (R321) -/

theorem State.cb_modCb (s : State) (t u : TileId) (g : ChargeBank → ChargeBank) :
    ((s.modCb t g).tile u).cb = if tkey u = tkey t then g (s.tile u).cb else (s.tile u).cb := by
  rw [State.modCb, State.tile_modTile]
  split
  · rename_i hk
    have hsame : s.tile t = s.tile u := by simp only [State.tile, hk]
    rw [hsame]
  · rfl

/-- One tile's GRANT takes a value. -/
def State.grantTile (g : Nat) (t : TileId) (s : State) : State :=
  if (s.tile t).cb.grant = g then s else s.modCb t (fun cb => { cb with grant := g })

theorem State.grantTile_grant (g : Nat) (t u : TileId) (s : State) :
    ((s.grantTile g t).tile u).cb.grant = if tkey u = tkey t then g else (s.tile u).cb.grant := by
  unfold State.grantTile
  split
  · rename_i hsame
    split
    · rename_i hk
      rw [State.tile, hk]
      exact hsame
    · rfl
  · rw [State.cb_modCb]
    split <;> rfl

/-- Tiles whose GRANT is set have it. -/
theorem State.forEach_grantTile_grant (g : Nat) (l : List TileId) (s : State) (t : TileId) :
    ((s.forEach l (State.grantTile g)).tile t).cb.grant =
      if tkey t ∈ l.map tkey then g else (s.tile t).cb.grant := by
  induction l generalizing s with
  | nil => rfl
  | cons u r ih =>
    rw [State.forEach, ih, State.grantTile_grant, List.map_cons]
    by_cases hk : tkey t = tkey u
    · simp [hk]
    · simp [hk]

/-- Setting GRANT changes tiles and OD 0x2107 alone. -/
theorem State.setGrant_eq (s : State) (f b : Nat) :
    ∃ m, s.setGrant f b = ({ s with tiles := m }).odSet 0x2107 (f + 1) (b % 65536 + s.fieldGrant f * 65536) ∧
      ∀ t ∈ tilesOfField f, (mget ({} : Tile) m (tkey t)).cb.grant = s.fieldGrant f := by
  have hframe : ∀ (l : List TileId) (u : State), ∃ m, u.forEach l (State.grantTile (s.fieldGrant f)) = { u with tiles := m } := by
    intro l
    induction l with
    | nil => exact fun u => ⟨u.tiles, rfl⟩
    | cons t r ih =>
      intro u
      obtain ⟨m, hm⟩ := ih (u.grantTile (s.fieldGrant f) t)
      refine ⟨m, hm.trans ?_⟩
      unfold State.grantTile
      split <;> rfl
  obtain ⟨m, hm⟩ := hframe (tilesOfField f) s
  refine ⟨m, congrArg (fun u : State => u.odSet 0x2107 (f + 1) (b % 65536 + s.fieldGrant f * 65536)) hm, fun t ht => ?_⟩
  have hgrant := s.forEach_grantTile_grant (s.fieldGrant f) (tilesOfField f) t
  rw [hm, if_pos (List.mem_map_of_mem ht)] at hgrant
  exact hgrant

section setGrant

variable (s : State) {f : Nat} (hf : f < 64) (b : Nat)

@[simp] theorem State.setGrant_fields : (s.setGrant f b).fields = s.fields := by
  obtain ⟨m, h, -⟩ := s.setGrant_eq f b
  rw [h]
  rfl

/-- The tiles of the field have its GRANT in force. -/
theorem State.setGrant_grant {t : TileId} (ht : t ∈ tilesOfField f) :
    ((s.setGrant f b).tile t).cb.grant = s.fieldGrant f := by
  obtain ⟨m, h, hgrant⟩ := s.setGrant_eq f b
  rw [h]
  exact hgrant t ht

include hf

theorem State.setGrant_odG {idx sub : Nat} (hi : idx ≠ 0x2107) (hsub : sub < 256) :
    (s.setGrant f b).odG idx sub = s.odG idx sub := by
  obtain ⟨m, h, -⟩ := s.setGrant_eq f b
  rw [h, State.odG_odSet_index _ hi hsub (by omega)]
  rfl

theorem State.setGrant_fieldGrant : (s.setGrant f b).fieldGrant f = s.fieldGrant f := by
  rw [State.fieldGrant, State.phaseCap, State.setGrant_odG s hf b (by decide) (by omega),
    State.setGrant_odG s hf b (by decide) (by omega), State.field_of_fields (s.setGrant_fields b)]
  rfl

end setGrant

/-! ### FIELD_TEMPERATURE_SAMPLE (R72, R337, R346) -/

/-- Of the dictionary only entries of some indices have changed, and a field excludes the same sensors as before. -/
structure Touches (l : List Nat) (f : Nat) (s u : State) : Prop where
  odG : ∀ idx sub, idx ∉ l → sub < 256 → u.odG idx sub = s.odG idx sub
  excluded : (u.field f).excluded = (s.field f).excluded

namespace Touches

variable {l l' : List Nat} {f : Nat} {s u v : State}

theorem refl (l : List Nat) (f : Nat) (s : State) : Touches l f s s := ⟨fun _ _ _ _ => rfl, rfl⟩

theorem trans (h : Touches l f s u) (h' : Touches l' f u v) : Touches (l ++ l') f s v where
  odG idx sub hidx hsub := by
    rw [List.mem_append, not_or] at hidx
    rw [h'.odG idx sub hidx.2 hsub, h.odG idx sub hidx.1 hsub]
  excluded := h'.excluded.trans h.excluded

theorem mono (h : Touches l f s u) (hl : l ⊆ l') : Touches l' f s u :=
  ⟨fun idx sub hidx => h.odG idx sub (fun hin => hidx (hl hin)), h.excluded⟩

/-- What one index alone allows, several steps of it allow. -/
theorem step (h : Touches l f s u) (h' : Touches l f u v) : Touches l f s v :=
  (h.trans h').mono (by simp)

theorem of_od {s u : State} (hod : u.od = s.od) (hfields : u.fields = s.fields) : Touches [] f s u :=
  ⟨fun idx sub _ _ => State.odG_of_od hod idx sub, by rw [State.field_of_fields hfields]⟩

theorem odSet (s : State) (f i v : Nat) {b : Nat} (hb : b < 256) : Touches [i] f s (s.odSet i b v) :=
  ⟨fun _ _ hidx hsub => s.odG_odSet_index (by simpa using hidx) hsub hb, rfl⟩

theorem modField (s : State) (f : Nat) {g : Field → Field} (hg : ∀ x, (g x).excluded = x.excluded) :
    Touches [] f s (s.modField f g) :=
  ⟨fun _ _ _ _ => rfl, by rw [State.field_modField_same, hg]⟩

theorem modCb (s : State) (f : Nat) (t : TileId) (g : ChargeBank → ChargeBank) : Touches [] f s (s.modCb t g) :=
  of_od rfl rfl

theorem log (s : State) (f : Nat) (a : LogArgs) : Touches [0x1110] f s (s.log a) :=
  ⟨fun _ _ hidx hsub => s.log_odG a (by simpa using hidx) hsub, by rw [State.field_of_fields (s.log_fields a)]⟩

theorem forEach {α : Type} {g : α → State → State} (hg : ∀ a s, Touches l f s (g a s)) (as : List α) (s : State) :
    Touches l f s (s.forEach as g) := by
  induction as generalizing s with
  | nil => exact refl l f s
  | cons a r ih => exact (hg a s).step (ih (g a s))

theorem setGrant (s : State) {f : Nat} (hf : f < 64) (b : Nat) : Touches [0x2107] f s (s.setGrant f b) :=
  ⟨fun _ _ hidx hsub => s.setGrant_odG hf b (by simpa using hidx) hsub, by
    rw [State.field_of_fields (s.setGrant_fields b)]⟩

end Touches

/-- A temperature reads back from its 16-bit code. -/
theorem signed_unsign {t : Int} (hlo : -32768 ≤ t) (hhi : t < 32768) : signed 16 (unsign 16 t) = t := by
  have hpow : (2 : Nat) ^ 16 = 65536 ∧ (2 : Nat) ^ (16 - 1) = 32768 := by decide
  have hpowI : ((2 : Int) ^ 16) = 65536 := by decide
  simp only [signed, unsign, hpow.1, hpow.2, hpowI]
  have hcast : (((t % 65536).toNat : Nat) : Int) = t % 65536 := Int.toNat_of_nonneg (by omega)
  split <;> omega

section sample

variable (s : State) {f : Nat} (hf : f < 64)
include hf

/-- A band change waits for the token boundaries of a field that is on. -/
def State.bandWaits (s : State) (f new : Nat) : State :=
  if s.fieldOn f then s.forEach (tilesOfField f) (fun t s => s.modCb t (fun cb => { cb with bandDue := some new })) else s

omit hf in
theorem touches_bandWaits (new : Nat) : Touches [] f s (s.bandWaits f new) := by
  unfold State.bandWaits
  split
  · exact Touches.forEach (fun t s => Touches.modCb s f t _) _ s
  · exact Touches.refl [] f s

omit hf in
theorem State.moveBand_eq (t : Int) :
    s.moveBand f t =
      if bandStep (s.odG 0x3001 (f + 1)) t = s.odG 0x3001 (f + 1) then s.modField f (fun x => { x with bandTemp := t })
      else ((s.modField f (fun x => { x with bandTemp := t })).odSet 0x3001 (f + 1)
        (bandStep (s.odG 0x3001 (f + 1)) t)).bandWaits f (bandStep (s.odG 0x3001 (f + 1)) t) := rfl

theorem touches_moveBand (t : Int) : Touches [0x3001] f s (s.moveBand f t) := by
  have hband := Touches.modField s f (g := fun x => { x with bandTemp := t }) fun _ => rfl
  rw [State.moveBand_eq]
  split
  · exact hband.mono (by simp)
  · exact (hband.trans (Touches.odSet _ f 0x3001 _ (by omega))).trans (touches_bandWaits _ _)

/-- The band takes at most one step towards the temperature (Table 3.4). -/
theorem State.moveBand_band (t : Int) :
    (s.moveBand f t).odG 0x3001 (f + 1) = bandStep (s.odG 0x3001 (f + 1)) t := by
  rw [State.moveBand_eq]
  split
  · rename_i hsame
    exact hsame.symm
  · rw [(touches_bandWaits _ _).odG 0x3001 (f + 1) List.not_mem_nil (by omega), State.odG_odSet_same]

omit hf in
theorem touches_tempTrigger (t : Int) : Touches [] f s (s.tempTrigger f t) := by
  unfold State.tempTrigger
  dsimp only
  split
  · exact Touches.refl [] f s
  · have htiles : ∀ as : List (Nat × Tile), Touches [] f s (s.forEach as (fun e s => s.modCb (tileAt e.1)
        (fun cb => (cb.arrays.map (·.1)).foldl (fun cb a => cb.modArr a (tempDue t)) cb))) :=
      fun as => Touches.forEach (fun e s => Touches.modCb s f (tileAt e.1) _) as s
    split
    · exact (htiles _).step (Touches.modField _ f fun _ => by rfl)
    · exact htiles _

theorem touches_trackCycle (t : Int) : Touches [0x2304] f s (s.trackCycle f t) := by
  unfold State.trackCycle
  split
  · exact (Touches.modField s f fun _ => by rfl).mono (by simp)
  · dsimp only
    split
    · exact (Touches.odSet s f 0x2304 _ (by omega)).trans (Touches.modField _ f fun _ => by rfl)
    · exact (Touches.modField s f fun _ => by rfl).mono (by simp)

theorem touches_trackWork (t : Int) : Touches [0x2303] f s (s.trackWork f t) := by
  unfold State.trackWork
  dsimp only
  split
  · exact Touches.refl _ f s
  · exact (Touches.modField s f fun _ => by rfl).trans (Touches.odSet _ f 0x2303 _ (by omega))

/-- The state in which a field has warmed enough: it warms no longer. -/
def State.warmedUp (s : State) (f : Nat) (t : Int) : State :=
  if (s.field f).warming && (!s.inEmbers f || decide (signed 16 (s.odG 0x2303 (f + 1)) - 60 < t)) then
    s.modField f (fun x => { x with warming := false })
  else s

omit hf in
theorem touches_warmedUp (t : Int) : Touches [] f s (s.warmedUp f t) := by
  unfold State.warmedUp
  split
  · exact Touches.modField s f fun _ => by rfl
  · exact Touches.refl [] f s

omit hf in
theorem State.easeWarming_eq (t : Int) :
    s.easeWarming f t = if (s.warmedUp f t).odG 0x2305 (f + 1) = 5 ∧ s.inEmbers f = false then
      (s.warmedUp f t).odSet 0x2305 (f + 1) 0 else s.warmedUp f t := rfl

theorem touches_easeWarming (t : Int) : Touches [0x2305] f s (s.easeWarming f t) := by
  rw [State.easeWarming_eq]
  split
  · exact (touches_warmedUp s t).trans (Touches.odSet _ f 0x2305 0 (by omega))
  · exact (touches_warmedUp s t).mono (by simp)

/-- A field in none of the thermal stages and not warming stays so. -/
theorem State.easeWarming_noStage (t : Int) (h : s.odG 0x2305 (f + 1) = 0) :
    (s.easeWarming f t).odG 0x2305 (f + 1) = 0 := by
  have hstage := ((touches_warmedUp (f := f) s t).odG 0x2305 (f + 1) List.not_mem_nil (by omega)).trans h
  rw [State.easeWarming_eq, if_neg (by rw [hstage]; simp), hstage]

theorem touches_enterThrottle : Touches [0x2305, 0x2302, 0x2107] f s (s.enterThrottle f) := by
  unfold State.enterThrottle
  dsimp only
  split
  · exact Touches.refl _ f s
  · exact (((Touches.odSet s f 0x2305 1 (by omega)).trans (Touches.odSet _ f 0x2302 36 (by omega))).trans
      (Touches.modField _ f fun _ => by rfl)).trans (Touches.setGrant _ hf _)

/-- A field that is on and in no stage enters stage 1 with the cap at 36 (R340, log 89). -/
theorem State.enterThrottle_stage (hon : s.fieldOn f = true) (h : s.odG 0x2305 (f + 1) = 0) :
    (s.enterThrottle f).odG 0x2305 (f + 1) = 1 ∧ (s.enterThrottle f).odG 0x2302 (f + 1) = 36 := by
  unfold State.enterThrottle
  dsimp only
  rw [if_neg (by simp [hon, h]), State.setGrant_odG _ hf _ (by decide) (by omega),
    State.setGrant_odG _ hf _ (by decide) (by omega)]
  exact ⟨(State.odG_odSet_index _ (by decide) (by omega) (by omega)).trans (State.odG_odSet_same _ _ _ _),
    State.odG_odSet_same _ _ _ _⟩

/-- The readings of a sample taken into the field, those newly excluded logged (R337). -/
def State.sampleTaken (s : State) (f : Nat) (smp : TempSample) (t : Int) : State :=
  ((s.odSet 0x2301 (f + 1) (unsign 16 t)).modField f (fun x =>
    { x with excluded := smp.excluded, rowless := smp.rowWithout, overCurrent := smp.vcoreOver,
             underCurrent := smp.vcoreUnder })).forEach
    (smp.excluded.filter (fun i => !(s.field f).excluded.contains i))
    (fun i s => s.log { rule := 337, sev := 1, source := 1, field := f, data := [i] })

/-- Band, calibration triggers, cycles, T_work and warming after a sample. -/
def State.sampleTracked (s : State) (f : Nat) (charge t : Int) : State :=
  ((((s.moveBand f charge).tempTrigger f charge).trackCycle f t).trackWork f t).easeWarming f t

/-- The stage that a sample enters or leaves (R340). -/
def State.sampleStage (s : State) (f : Nat) (t : Int) : State :=
  if !s.fieldOn f then s
  else if s.odG 0x2305 (f + 1) = 2 ∧ t < s.throttleAt then s.odSet 0x2305 (f + 1) 1
  else if s.overLimit f then s.enterThrottle f
  else s

theorem exec_fieldTemperatureSample (smp : TempSample) (hvstby : s.hub.vstby = true) :
    exec (.fieldTemperatureSample f smp) s = .next
      (((s.sampleTaken f smp (max smp.tileMax (highest (s.field f).bandTemp smp.charge))).sampleTracked f
        (highest (s.field f).bandTemp smp.charge) (max smp.tileMax (highest (s.field f).bandTemp smp.charge))).sampleStage f
          (max smp.tileMax (highest (s.field f).bandTemp smp.charge))) :=
  guardRes_next (decide_eq_true hf) (if_neg (by simp [hvstby]))

omit hf in
theorem touches_sampleTaken_logs (smp : TempSample) (t : Int) : Touches [0x1110] f
    ((s.odSet 0x2301 (f + 1) (unsign 16 t)).modField f (fun x =>
      { x with excluded := smp.excluded, rowless := smp.rowWithout, overCurrent := smp.vcoreOver,
               underCurrent := smp.vcoreUnder })) (s.sampleTaken f smp t) :=
  Touches.forEach (fun _ _ => Touches.log _ f _) _ _

theorem touches_sampleTracked (charge t : Int) :
    Touches [0x3001, 0x2304, 0x2303, 0x2305] f s (s.sampleTracked f charge t) :=
  (((((touches_moveBand s hf charge).trans (touches_tempTrigger _ charge)).trans (touches_trackCycle _ hf t)).trans
    (touches_trackWork _ hf t)).trans (touches_easeWarming _ hf t))

theorem touches_sampleStage (t : Int) : Touches [0x2305, 0x2302, 0x2107] f s (s.sampleStage f t) := by
  unfold State.sampleStage
  split
  · exact Touches.refl _ f s
  · split
    · exact (Touches.odSet s f 0x2305 1 (by omega)).mono (by simp)
    · split
      · exact touches_enterThrottle s hf
      · exact Touches.refl _ f s

/-- The stage of a field does not change before the stages are looked at, where it is in none. -/
theorem State.sampleTracked_noStage (charge t : Int) (h : s.odG 0x2305 (f + 1) = 0) :
    (s.sampleTracked f charge t).odG 0x2305 (f + 1) = 0 := by
  refine State.easeWarming_noStage _ hf t ?_
  have htouch := (((touches_moveBand s hf charge).trans (touches_tempTrigger _ charge)).trans
    (touches_trackCycle _ hf t)).trans (touches_trackWork _ hf t)
  exact (htouch.odG 0x2305 (f + 1) (by decide) (by omega)).trans h

/-- T_f and the band after a sample, and the sensors that it excludes. -/
theorem State.sampled_odG {charge t : Int} (smp : TempSample) :
    let u := ((s.sampleTaken f smp t).sampleTracked f charge t).sampleStage f t
    u.odG 0x2301 (f + 1) = unsign 16 t ∧ u.odG 0x3001 (f + 1) = bandStep (s.odG 0x3001 (f + 1)) charge ∧
      (u.field f).excluded = smp.excluded := by
  have htaken := touches_sampleTaken_logs (f := f) s smp t
  have htracked := touches_sampleTracked (s.sampleTaken f smp t) hf charge t
  have hstage := touches_sampleStage ((s.sampleTaken f smp t).sampleTracked f charge t) hf t
  have hrest := (((touches_tempTrigger ((s.sampleTaken f smp t).moveBand f charge) charge).trans
    (touches_trackCycle _ hf t)).trans (touches_trackWork _ hf t)).trans (touches_easeWarming _ hf t)
  have hall := (htaken.trans htracked).trans hstage
  refine ⟨?_, ?_, hall.excluded.trans ?_⟩
  · rw [hall.odG 0x2301 (f + 1) (by decide) (by omega)]
    exact State.odG_odSet_same _ _ _ _
  · rw [(hrest.trans hstage).odG 0x3001 (f + 1) (by decide) (by omega), State.moveBand_band _ hf,
      htaken.odG 0x3001 (f + 1) (by decide) (by omega)]
    exact congrArg (bandStep · charge) (State.odG_odSet_index _ (by decide) (by omega) (by omega))
  · rw [State.field_modField_same]

/-- Every other entry reads, before the stages are looked at, as it did before the sample. -/
theorem State.tracked_odG (smp : TempSample) (charge t : Int) {idx sub : Nat}
    (hidx : idx ∉ [0x2301, 0x1110, 0x3001, 0x2304, 0x2303, 0x2305]) (hsub : sub < 256) :
    ((s.sampleTaken f smp t).sampleTracked f charge t).odG idx sub = s.odG idx sub := by
  rw [List.mem_cons, not_or] at hidx
  have htouch := (touches_sampleTaken_logs (f := f) s smp t).trans
    (touches_sampleTracked (s.sampleTaken f smp t) hf charge t)
  exact (htouch.odG idx sub hidx.2 hsub).trans (State.odG_odSet_index s hidx.1 hsub (by omega))

/-- A field that is on, in no stage, and at the throttle threshold enters stage 1. -/
theorem State.sampled_throttles {charge t : Int} (smp : TempSample) (hon : s.fieldOn f = true)
    (hstage : s.odG 0x2305 (f + 1) = 0) (hat : s.throttleAt ≤ t) (hlt : t < 32768) :
    let u := ((s.sampleTaken f smp t).sampleTracked f charge t).sampleStage f t
    u.odG 0x2305 (f + 1) = 1 ∧ u.odG 0x2302 (f + 1) = 36 := by
  have htaken := touches_sampleTaken_logs (f := f) s smp t
  have hstage0 : (s.sampleTaken f smp t).odG 0x2305 (f + 1) = 0 := by
    rw [htaken.odG 0x2305 (f + 1) (by decide) (by omega)]
    exact (State.odG_odSet_index s (by decide) (by omega) (by omega)).trans hstage
  have hnone := State.sampleTracked_noStage _ hf charge t hstage0
  have hread := fun {idx sub} => State.tracked_odG s hf smp charge t (idx := idx) (sub := sub)
  have htemp := ((htaken.trans (touches_sampleTracked _ hf charge t)).odG 0x2301 (f + 1) (by decide)
    (by omega)).trans (State.odG_odSet_same _ _ _ _)
  generalize (s.sampleTaken f smp t).sampleTracked f charge t = v at hnone hread htemp
  have hvon : v.fieldOn f = true := by
    rw [State.fieldOn, State.fieldState, hread (by decide) (by omega)]
    exact hon
  have hover : v.overLimit f = true := by
    have hlo : 0 ≤ s.throttleAt := by unfold State.throttleAt; omega
    have hvtemp : v.fieldTemp f = t := by rw [State.fieldTemp, htemp, signed_unsign (by omega) hlt]
    have hvat : v.throttleAt = s.throttleAt := by
      rw [State.throttleAt, hread (by decide) (by omega), State.throttleAt]
    simp [State.overLimit, hvat, hvtemp, hat]
  dsimp only
  rw [State.sampleStage, if_neg (by simp [hvon]), if_neg (by rw [hnone]; simp), if_pos hover]
  exact v.enterThrottle_stage hf hvon hnone

end sample

end Sys2Proof.Machine
end

section
/-!
SUPPORT. Thermal stages, coolant readings, Embers and the counts of heat (R338–R341, R345, R346, R378), and the obligation
O48.
-/

namespace Sys2Proof.Machine

/-! ### Steps of the cap (R340) -/

@[simp] theorem State.odG_modField (s : State) (f : Nat) (g : Field → Field) (idx sub : Nat) :
    (s.modField f g).odG idx sub = s.odG idx sub := rfl

@[simp] theorem State.tile_odSet (s : State) (i b v : Nat) (t : TileId) : (s.odSet i b v).tile t = s.tile t := rfl

@[simp] theorem State.tile_modField (s : State) (f : Nat) (g : Field → Field) (t : TileId) :
    (s.modField f g).tile t = s.tile t := rfl

/-- A field's GRANT depends on its own record, its failed phases and its cap. -/
theorem State.fieldGrant_congr {u v : State} {f : Nat} (hg : (u.field f).g = (v.field f).g)
    (hphase : u.odG 0x2103 (f + 1) = v.odG 0x2103 (f + 1)) (hcap : u.odG 0x2302 (f + 1) = v.odG 0x2302 (f + 1)) :
    u.fieldGrant f = v.fieldGrant f := by
  simp only [State.fieldGrant, State.phaseCap, hg, hphase, hcap]

theorem State.fieldGrant_le_cap (s : State) (f : Nat) : s.fieldGrant f ≤ s.odG 0x2302 (f + 1) :=
  (Nat.min_le_right _ _).trans (Nat.min_le_right _ _)

section cap

variable {s : State} {f : Nat} (hf : f < 64)
include hf

/-- A cap that is set shows, and every tile of the field has the GRANT that follows. -/
theorem State.setCap_grants (c : Nat) :
    (s.setCap f c).odG 0x2302 (f + 1) = c ∧
      (∀ t ∈ tilesOfField f, ((s.setCap f c).tile t).cb.grant = (s.setCap f c).fieldGrant f) := by
  unfold State.setCap
  refine ⟨?_, fun t ht => ?_⟩
  · rw [State.setGrant_odG _ hf _ (by decide) (by omega), State.odG_odSet_same]
  · rw [State.setGrant_grant _ _ ht, State.setGrant_fieldGrant _ hf]

theorem State.setCap_odG (c : Nat) {idx sub : Nat} (h1 : idx ≠ 0x2302) (h2 : idx ≠ 0x2107) (hsub : sub < 256) :
    (s.setCap f c).odG idx sub = s.odG idx sub := by
  rw [State.setCap, State.setGrant_odG _ hf _ h2 hsub, State.odG_odSet_index _ h1 hsub (by omega)]

theorem exec_throttleStepDown (hth : s.throttled f = true) (heases : s.heatEases f = false) :
    exec (.throttleStepDown f) s = .next (s.setCap f (capDown (s.odG 0x2302 (f + 1)))) :=
  guardRes_next (decide_eq_true hf) (if_pos (by simp [hth, heases]))

theorem noEffect_throttleStepDown (h : s.throttled f = false ∨ s.heatEases f = true) : NoEffect (.throttleStepDown f) s :=
  guardRes_next (decide_eq_true hf) (if_neg (by rcases h with h | h <;> simp [h]))

/-- The state after a step up: the stage ends where the cap has come to 48. -/
def State.steppedUp (s : State) (f c : Nat) : State :=
  if c = 48 then ((s.setCap f c).odSet 0x2305 (f + 1) 0).modField f (fun x => { x with rimHalved := false })
  else s.setCap f c

theorem exec_throttleStepUp (hon : s.fieldOn f = true) (hstage : s.odG 0x2305 (f + 1) = 1) (heases : s.heatEases f = true) :
    exec (.throttleStepUp f) s = .next (s.steppedUp f (capUp (s.odG 0x2302 (f + 1)))) :=
  guardRes_next (decide_eq_true hf) (if_pos (by simp [hon, hstage, heases]))

theorem noEffect_throttleStepUp (h : s.fieldOn f = false ∨ s.odG 0x2305 (f + 1) ≠ 1 ∨ s.heatEases f = false) :
    NoEffect (.throttleStepUp f) s :=
  guardRes_next (decide_eq_true hf) (if_neg (by rcases h with h | h | h <;> simp [h]))

theorem State.steppedUp_grants (c : Nat) (hstage : s.odG 0x2305 (f + 1) = 1) :
    (s.steppedUp f c).odG 0x2302 (f + 1) = c ∧
      (s.steppedUp f c).odG 0x2305 (f + 1) = (if c = 48 then 0 else 1) ∧
      ∀ t ∈ tilesOfField f, ((s.steppedUp f c).tile t).cb.grant = (s.steppedUp f c).fieldGrant f := by
  obtain ⟨hcap, hgrant⟩ := State.setCap_grants (s := s) hf c
  unfold State.steppedUp
  split
  · have hread : ∀ idx, idx ≠ 0x2305 → ((s.setCap f c).odSet 0x2305 (f + 1) 0).odG idx (f + 1) =
        (s.setCap f c).odG idx (f + 1) := fun idx h => State.odG_odSet_index _ h (by omega) (by omega)
    simp only [State.odG_modField, State.tile_modField, State.tile_odSet]
    rw [hread 0x2302 (by decide), hcap, State.odG_odSet_same]
    refine ⟨rfl, rfl, fun t ht => (hgrant t ht).trans ?_⟩
    refine State.fieldGrant_congr ?_ ?_ ?_
    · rw [State.field_modField_same, State.field_of_fields (State.odSet_fields _ _ _ _)]
    · rw [State.odG_modField, hread 0x2103 (by decide)]
    · rw [State.odG_modField, hread 0x2302 (by decide)]
  · exact ⟨hcap, (State.setCap_odG hf c (by decide) (by decide) (by omega)).trans hstage, hgrant⟩

end cap

/-! ### Stage 2 (R340) -/

section urgentRotation

variable {s : State} {f : Nat} (hf : f < 64) {rows : List (Nat × Nat × Int × Int)}
  (hrows : rows.all (fun r => decide (r.1 < 20) && decide (r.2.1 < 20)) = true)
include hf hrows

theorem wf_urgentRotation : Instr.wf (.urgentRotation f rows) = true := by
  simp only [Instr.wf, fieldOk, decide_eq_true hf, hrows, Bool.and_self]

theorem exec_urgentRotation (hth : s.throttled f = true) (hcap : s.odG 0x2302 (f + 1) ≤ 8)
    (hat : s.throttleAt ≤ s.fieldTemp f) :
    exec (.urgentRotation f rows) s = .next
      ((if s.odG 0x2305 (f + 1) = 1 then s.odSet 0x2305 (f + 1) 2 else s).forEach rows
        (fun r s => s.startRotation f r.1 r.2.1 r.2.2.1 r.2.2.2 true)) :=
  guardRes_next (wf_urgentRotation hf hrows) (if_pos (by simp [hth, hcap, hat]))

theorem noEffect_urgentRotation
    (h : s.throttled f = false ∨ 8 < s.odG 0x2302 (f + 1) ∨ s.fieldTemp f < s.throttleAt) :
    NoEffect (.urgentRotation f rows) s :=
  guardRes_next (wf_urgentRotation hf hrows) (if_neg (by
    rcases h with h | h | h
    · simp [h]
    · simp [Nat.not_le.2 h]
    · simp [Int.not_le.2 h]))

end urgentRotation

/-! ### Stage 3 (R341) -/

theorem State.partOfField_lt {s : State} {f p : Nat} (h : s.partOfField f = some p) : p < 32 :=
  List.mem_range.1 (List.mem_of_find?_eq_some h)

/-- Which partition a field belongs to is said by OD 0x4003 alone. -/
theorem State.partOfField_odSet (s : State) (f : Nat) {i b v : Nat} (hi : i ≠ 0x4003) (hb : b < 256) :
    (s.odSet i b v).partOfField f = s.partOfField f := by
  refine List.find?_congr fun p hp => ?_
  have hp := List.mem_range.1 hp
  rw [State.partMask, State.odG_odSet_index _ (Ne.symm hi) (by omega) hb, State.partMask]

theorem State.partState_odSet (s : State) {p i b v : Nat} (hi : i ≠ 0x4002) (hp : p < 32) (hb : b < 256) :
    (s.odSet i b v).partState p = s.partState p :=
  State.odG_odSet_index s (Ne.symm hi) (by omega) hb

/-- A field's temperature or cap asks for its evacuation (R341). -/
def State.evacuationDue (s : State) (f : Nat) : Bool :=
  decide (10 * (s.odG 0x2300 3 : Int) ≤ s.fieldTemp f) ||
    (s.odG 0x2302 (f + 1) == 2 && decide (s.throttleAt ≤ s.fieldTemp f))

theorem State.evacuationDue_iff {s : State} {f : Nat} :
    s.evacuationDue f = true ↔
      10 * (s.odG 0x2300 3 : Int) ≤ s.fieldTemp f ∨ (s.odG 0x2302 (f + 1) = 2 ∧ s.throttleAt ≤ s.fieldTemp f) := by
  simp only [State.evacuationDue, Bool.or_eq_true, Bool.and_eq_true, decide_eq_true_eq, beq_iff_eq]

/-- A field goes into stage 3. -/
def State.evacuates (s : State) (f : Nat) : Bool :=
  s.evacuationDue f && !s.hub.away && s.throttled f && s.odG 0x2305 (f + 1) != 3

/-- What an evacuation does of a partition whose field is in stage 3: the install of its base at the evacuation origin, or
its fault. -/
def State.evacuatePart (s : State) (p f : Nat) : State :=
  if s.partState p ≠ 1 then s
  else if !s.evacuationFits p f then s.faultPart p 0x0910
  else
    let o := s.odEff 0x2300 0x13 p
    let z := s.startInstall p (s.odP 0x5200 7 p) (o % 256) (o / 256) true true []
    if z.2 = 0 ∨ z.2 = 0x0801 then z.1.odAdd 0x2300 0x10 1 else z.1.faultPart p 0x0910

theorem State.evacuates_iff {s : State} {f : Nat} : s.evacuates f = true ↔
    s.evacuationDue f = true ∧ s.hub.away = false ∧ s.throttled f = true ∧ s.odG 0x2305 (f + 1) ≠ 3 := by
  simp only [State.evacuates, Bool.and_eq_true, Bool.not_eq_true', bne_iff_ne, and_assoc]

theorem State.evacuates_eq_false {s : State} {f : Nat} : s.evacuates f = false ↔
    ¬s.evacuationDue f = true ∨ s.hub.away = true ∨ s.throttled f = false ∨ s.odG 0x2305 (f + 1) = 3 := by
  rw [← Bool.not_eq_true, State.evacuates_iff]
  simp only [not_and_or, Bool.not_eq_false, Bool.not_eq_true, not_not]

section evacuation

variable {s : State} {f : Nat} (hf : f < 64)
include hf

theorem noEffect_evacuation (h : s.evacuates f = false) : NoEffect (.evacuation f) s := by
  refine guardRes_next (decide_eq_true hf) (if_pos ?_)
  change (!s.evacuationDue f || s.hub.away || !(s.throttled f && s.odG 0x2305 (f + 1) != 3)) = true
  simpa only [State.evacuates, ← Bool.not_eq_true', Bool.not_and, Bool.not_not, Bool.or_assoc] using h

/-- A field of no partition goes into stage 3; of one, its partition is evacuated. -/
theorem exec_evacuation (h : s.evacuates f = true) {u : State}
    (hfree : s.partOfField f = none → s.odSet 0x2305 (f + 1) 3 = u)
    (hpart : ∀ p, s.partOfField f = some p → (s.odSet 0x2305 (f + 1) 3).evacuatePart p f = u) :
    exec (.evacuation f) s = .next u := by
  have hskip : ¬(!s.evacuationDue f || s.hub.away || !(s.throttled f && s.odG 0x2305 (f + 1) != 3)) = true := by
    simp only [State.evacuates, Bool.and_eq_true, Bool.not_eq_true'] at h
    obtain ⟨⟨⟨hdue, haway⟩, hth⟩, hstage⟩ := h
    simp [hdue, haway, hth, hstage]
  refine guardRes_next (decide_eq_true hf) ((if_neg hskip).trans ?_)
  have hown := s.partOfField_odSet f (i := 0x2305) (b := f + 1) (v := 3) (by decide) (by omega)
  cases hp : s.partOfField f with
  | none =>
    simp only [hown, hp]
    exact hfree hp
  | some p =>
    simp only [hown, hp]
    exact hpart p hp

end evacuation

theorem State.evacuatePart_unfit {s : State} {p f : Nat} (hstate : s.partState p = 1)
    (hfits : s.evacuationFits p f = false) : s.evacuatePart p f = s.faultPart p 0x0910 := by
  rw [State.evacuatePart, if_neg (not_not.2 hstate), if_pos (by simp [hfits])]

theorem State.evacuatePart_starts {s : State} {p f : Nat} (hstate : s.partState p = 1)
    (hfits : s.evacuationFits p f = true)
    (hcode : (s.startInstall p (s.odP 0x5200 7 p) (s.odEff 0x2300 0x13 p % 256) (s.odEff 0x2300 0x13 p / 256) true true []).2 = 0 ∨
      (s.startInstall p (s.odP 0x5200 7 p) (s.odEff 0x2300 0x13 p % 256) (s.odEff 0x2300 0x13 p / 256) true true []).2 = 0x0801) :
    s.evacuatePart p f =
      (s.startInstall p (s.odP 0x5200 7 p) (s.odEff 0x2300 0x13 p % 256) (s.odEff 0x2300 0x13 p / 256) true true []).1.odAdd
        0x2300 0x10 1 := by
  rw [State.evacuatePart, if_neg (not_not.2 hstate), if_neg (by simp [hfits])]
  exact if_pos hcode

/-! ### Off for heat (R340, R341) -/

section offForHeat

variable {s : State} {f : Nat} (hf : f < 64)
include hf

theorem noEffect_offForHeat (h : s.fieldOn f = false ∨ s.odG 0x2305 (f + 1) ≠ 3 ∨ s.hub.away = true) :
    NoEffect (.offForHeat f) s :=
  guardRes_next (decide_eq_true hf) (if_pos (by rcases h with h | h | h <;> simp [h]))

variable (hon : s.fieldOn f = true) (hstage : s.odG 0x2305 (f + 1) = 3) (haway : s.hub.away = false)
include hon hstage haway

theorem exec_offForHeat_free (hfree : s.partOfField f = none) : exec (.offForHeat f) s = .next (s.heatOff f) := by
  refine guardRes_next (decide_eq_true hf) ((if_neg (by simp [hon, hstage, haway])).trans ?_)
  simp only [hfree]

variable {p : Nat} (hp : s.partOfField f = some p)
include hp

theorem noEffect_offForHeat_evacuating (hevac : evacuating (s.part p) = true) : NoEffect (.offForHeat f) s := by
  refine guardRes_next (decide_eq_true hf) ((if_neg (by simp [hon, hstage, haway])).trans ?_)
  simp only [hp]
  exact if_pos hevac

/-- A partition whose evacuation failed faults first. -/
theorem exec_offForHeat_part (hevac : evacuating (s.part p) = false) :
    exec (.offForHeat f) s =
      .next ((if s.odP 0x5200 3 p ≠ 0 then s.faultPart p 0x0910 else s).heatOff f) := by
  refine guardRes_next (decide_eq_true hf) ((if_neg (by simp [hon, hstage, haway])).trans ?_)
  simp only [hp]
  refine (if_neg (by simp [hevac])).trans ?_
  split <;> rfl

end offForHeat

/-- The state in which a field is counted off for heat and logged, before its planned switch-off (R340, R341). -/
def State.heatCounted (s : State) (f : Nat) : State :=
  (((s.modField f (fun x => { x with
      heatTimes := (x.heatTimes.filter (fun t => decide (s.clkTime < t + oneHour))) ++ [s.clkTime],
      heldHeat := decide (3 ≤ ((x.heatTimes.filter (fun t => decide (s.clkTime < t + oneHour))) ++ [s.clkTime]).length) })).odAdd
    0x2300 0xF 1).odSet 0x2305 (f + 1) 4).log { rule := 340, status := 0x0910, sev := 2, source := 1, field := f }

theorem State.heatOff_eq (s : State) (f : Nat) : s.heatOff f = (s.heatCounted f).planOff f .heat := rfl

section heatCounted

variable (s : State) {f : Nat}

theorem State.heatCounted_odG (hf : f < 64) :
    (s.heatCounted f).odG 0x2305 (f + 1) = 4 ∧ (s.heatCounted f).odG 0x2300 0xF = s.odG 0x2300 0xF + 1 := by
  unfold State.heatCounted
  rw [State.log_odG _ _ (by decide) (by omega), State.log_odG _ _ (by decide) (by decide), State.odG_odSet_same,
    State.odG_odSet_index _ (by decide) (by decide) (by omega), State.odG_odAdd_same]
  exact ⟨rfl, rfl⟩

/-- The third time within an hour holds the field off. -/
theorem State.heatCounted_field :
    s.clkTime ∈ ((s.heatCounted f).field f).heatTimes ∧
      (((s.heatCounted f).field f).heldHeat = true ↔ 3 ≤ ((s.heatCounted f).field f).heatTimes.length) := by
  unfold State.heatCounted
  rw [State.field_of_fields (State.log_fields _ _), State.field_of_fields (State.odSet_fields _ _ _ _),
    State.field_of_fields (State.odAdd_fields _ _ _ _), State.field_modField_same]
  exact ⟨by simp, decide_eq_true_iff⟩

end heatCounted

/-! ### The critical limit, and the return from heat (R340, R341) -/

section returns

variable {s : State} {f : Nat} (hf : f < 64)
include hf

theorem noEffect_criticalLimit (h : ¬((s.fieldState f = 0 ∨ s.fieldState f = 2 ∨ s.fieldState f = 6) ∧
    10 * (s.odG 0x2300 4 : Int) ≤ s.fieldTemp f)) : NoEffect (.criticalLimit f) s :=
  guardRes_next (decide_eq_true hf) (if_neg h)

theorem exec_criticalLimit (h : (s.fieldState f = 0 ∨ s.fieldState f = 2 ∨ s.fieldState f = 6) ∧
    10 * (s.odG 0x2300 4 : Int) ≤ s.fieldTemp f) :
    exec (.criticalLimit f) s = .next ((((s.modField f (fun x => { x with cycling := false, rearming := false })).fieldFalls
      f 1 0x0914 .critical).odSet 0x2305 (f + 1) 6).fieldCmdField f 0x0914) :=
  guardRes_next (decide_eq_true hf) (if_pos h)

omit hf in
/-- A field that asks for switch-on is in the queue of its plane, and nothing else has changed (R322). -/
theorem State.requestOn_queue :
    f ∈ (s.requestOn f).power.switchQueue ∧
      s.requestOn f = { s with power := { s.power with switchQueue := (s.requestOn f).power.switchQueue } } := by
  unfold State.requestOn
  split
  · rename_i h
    exact ⟨List.contains_iff_mem.1 h, rfl⟩
  · exact ⟨List.mem_append_right _ (List.mem_singleton.2 rfl), rfl⟩

theorem exec_heatReturn (hdark : s.darkForHeat f = true) (hstate : s.fieldState f = 1) (hcool : s.coolEnough f = true) :
    exec (.heatReturn f) s = .next (s.requestOn f) :=
  guardRes_next (decide_eq_true hf) (if_pos (by simp [hdark, hstate, hcool]))

theorem noEffect_heatReturn (h : s.darkForHeat f = false ∨ s.coolEnough f = false) : NoEffect (.heatReturn f) s :=
  guardRes_next (decide_eq_true hf) (if_neg (by rcases h with h | h <;> simp [h]))

variable {c : Caller} (hc : Admitted s c 0x2306 (f + 1) 0xFF)
include hc

theorem wf_releaseFieldHeldOff (v : Nat) : Instr.wf (.releaseFieldHeldOff c f v) = true := by
  obtain ⟨hcaller, -⟩ := hc
  simp [Instr.wf, fieldOk, hcaller, hf]

theorem exec_releaseFieldHeldOff :
    exec (.releaseFieldHeldOff c f 1) s =
      .next ((s.counted.modField f (fun _ => { s.field f with heldHeat := false, heatTimes := [] })).reply c 0) :=
  guardRes_next (wf_releaseFieldHeldOff hf hc 1) (hc.command_one rfl)

theorem refuses_releaseFieldHeldOff {v : Nat} (hv : v ≠ 1) : Refuses (.releaseFieldHeldOff c f v) s c 0x0003 :=
  guardRes_next (wf_releaseFieldHeldOff hf hc v) (hc.command_notOne hv)

end returns

/-! ### Coolant readings and stack temperatures (R338, R339, R378) -/

/-- A reading that has been missing for a second sets the fallback budget and is counted. -/
theorem answers_coolantReadingLoss {s : State} (hnone : s.hub.coolant = none) (hlost : s.power.coolantLost = false)
    (hvstby : s.hub.vstby = true) :
    Answers .coolantReadingLoss s (fun u => u.power.coolantLost = true ∧ u.odG 0x2300 0x12 = s.odG 0x2300 0x12 + 1 ∧
      u.odG 0x2300 9 = s.odG 0x2300 0xA) := by
  refine ⟨_, guardRes_next rfl (if_neg (by simp [hnone, hlost, hvstby])), ?_⟩
  dsimp only
  rw [State.log_power, State.log_odG _ _ (by decide) (by decide), State.log_odG _ _ (by decide) (by decide),
    State.odG_odSet_same, State.odG_odSet_sub _ (by decide), State.odG_odAdd_same]
  exact ⟨rfl, rfl, rfl⟩

theorem noEffect_coolantReadingLoss {s : State} (h : s.hub.coolant ≠ none ∨ s.power.coolantLost = true) :
    NoEffect .coolantReadingLoss s :=
  guardRes_next rfl (if_pos (by
    rcases h with h | h
    · simp [Option.isSome_iff_ne_none.2 h]
    · simp [h]))

theorem exec_outletLimitStep {s : State} (hhot : s.power.outletHot = true) (hlost : s.power.coolantLost = false) :
    exec .outletLimitStep s = .next (s.odSet 0x2300 9 (s.odG 0x2300 9 * 95 / 100)) :=
  guardRes_next rfl (if_pos (by simp [hhot, hlost]))

theorem noEffect_outletLimitStep {s : State} (hcool : s.power.outletHot = false) : NoEffect .outletLimitStep s :=
  guardRes_next rfl (if_neg (by simp [hcool]))

section sensors

variable {s : State}

/-- A stack's temperature names it hot or not, and changes no other stack's record (R339). -/
theorem State.stackTemp_hot (s : State) (k : Nat) (t : Int) (i : Nat) :
    i ∈ (s.stackTemp k t).power.stackHot ↔ if i = k then 1050 < t else i ∈ s.power.stackHot := by
  have hcontains : s.power.stackHot.contains k = true ↔ k ∈ s.power.stackHot := List.contains_iff_mem
  unfold State.stackTemp
  dsimp only
  split
  · rename_i hsame
    rw [beq_iff_eq, Bool.eq_iff_iff, decide_eq_true_eq, hcontains] at hsame
    split
    · rename_i hi
      rw [hi, hsame]
    · rfl
  · rename_i hdiffers
    rw [beq_iff_eq, Bool.eq_iff_iff, decide_eq_true_eq, hcontains] at hdiffers
    rw [State.log_power]
    by_cases hhot : k ∈ s.power.stackHot
    · have hcold : ¬1050 < t := fun ht => hdiffers (iff_of_true ht hhot)
      rw [if_pos (hcontains.2 hhot)]
      by_cases hi : i = k
      · simpa [hi] using hcold
      · simp [hi]
    · have hwarm : 1050 < t := not_not.1 fun ht => hdiffers (iff_of_false ht hhot)
      rw [if_neg (fun h => hhot (hcontains.1 h))]
      by_cases hi : i = k
      · simpa [hi] using hwarm
      · simp [hi]

@[simp] theorem State.stackTemp_coolant (s : State) (k : Nat) (t : Int) :
    (s.stackTemp k t).hub.coolant = s.hub.coolant := by
  unfold State.stackTemp
  dsimp only
  split
  · rfl
  · exact State.log_coolant _ _

@[simp] theorem State.stackTemp_parts (s : State) (k : Nat) (t : Int) : (s.stackTemp k t).parts = s.parts := by
  unfold State.stackTemp
  dsimp only
  split
  · rfl
  · exact State.log_parts _ _

/-- The temperatures of some stacks, one after another. -/
def State.stackTemps (s : State) (l : List (Nat × Int)) : State := s.forEach l (fun e s => s.stackTemp e.1 e.2)

/-- The temperatures of other stacks leave a stack's record. -/
theorem State.stackTemps_hot_other (l : List (Nat × Int)) (s : State) {i : Nat} (hi : i ∉ l.map (·.1)) :
    i ∈ (s.stackTemps l).power.stackHot ↔ i ∈ s.power.stackHot := by
  induction l generalizing s with
  | nil => rfl
  | cons e r ih =>
    rw [List.map_cons, List.mem_cons, not_or] at hi
    refine (ih (s.stackTemp e.1 e.2) hi.2).trans ?_
    rw [State.stackTemp_hot, if_neg hi.1]

/-- A stack among stacks that are each read once is hot as its temperature says. -/
theorem State.stackTemps_hot (l : List (Nat × Int)) (hl : (l.map (·.1)).Nodup) (s : State) {i : Nat} {t : Int}
    (hmem : (i, t) ∈ l) : i ∈ (s.stackTemps l).power.stackHot ↔ 1050 < t := by
  induction l generalizing s with
  | nil => exact absurd hmem List.not_mem_nil
  | cons e r ih =>
    obtain ⟨hk, hr⟩ := List.nodup_cons.1 hl
    rcases List.mem_cons.1 hmem with rfl | hmem
    · refine (State.stackTemps_hot_other r (s.stackTemp i t) hk).trans ?_
      rw [State.stackTemp_hot, if_pos rfl]
    · exact ih hr (s.stackTemp e.1 e.2) hmem

theorem map_fst_mapIdx_pair {α : Type} (l : List α) :
    (l.mapIdx (fun k a => (k, a))).map (·.1) = List.range l.length :=
  List.ext_getElem (by simp) (by simp)

theorem State.takeCoolant_frame (s : State) (c : Option (Int × Int × Nat)) :
    (s.takeCoolant c).hub.coolant = c ∧ (s.takeCoolant c).parts = s.parts := ⟨rfl, rfl⟩

variable {c : Option (Int × Int × Nat)} (haway : s.hub.away = false) (hvstby : s.hub.vstby = true)
include haway hvstby

theorem exec_i3cRescan (hnone : s.hub.coolant = none) : exec (.i3cRescan c) s = .next (s.takeCoolant c) :=
  guardRes_next rfl (if_neg (by simp [hnone, haway, hvstby]))

omit haway hvstby in
theorem noEffect_i3cRescan (hsome : s.hub.coolant ≠ none) : NoEffect (.i3cRescan c) s :=
  guardRes_next rfl (if_pos (by simp [Option.isSome_iff_ne_none.2 hsome]))

/-- The hub's sensors name every stack that they read hot or not. -/
theorem answers_hubSensorRead {temps : List Int} (hlen : temps.length ≤ 16) (die : Int) :
    Answers (.hubSensorRead temps die c) s (fun u => u.hub.coolant = c ∧ u.parts = s.parts ∧
      ∀ k t, temps[k]? = some t → (k ∈ u.power.stackHot ↔ 1050 < t)) := by
  refine ⟨_, guardRes_next (decide_eq_true hlen) (if_neg (by simp [haway, hvstby])), ?_, ?_, fun k t hk => ?_⟩
  · exact State.forEach_unchanged (·.hub.coolant) (fun (e : Nat × Int) (s : State) => s.stackTemp_coolant e.1 e.2) _ _
  · exact State.forEach_unchanged (·.parts) (fun (e : Nat × Int) (s : State) => s.stackTemp_parts e.1 e.2) _ _
  · refine State.stackTemps_hot _ ?_ _ (List.mem_mapIdx.2 ?_)
    · rw [map_fst_mapIdx_pair]
      exact List.nodup_range
    · obtain ⟨hlt, hget⟩ := List.getElem?_eq_some_iff.1 hk
      exact ⟨k, hlt, by rw [hget]⟩

end sensors

/-! ### Counts and Embers (R85, R345, R346) -/

/-- A table written key by key reads at each key as it was written. -/
theorem mget_foldl_mset {α : Type} [DecidableEq α] (d : α) (g : Nat → α) (l : List Nat) (m : SMap α) (k : Nat) :
    mget d (l.foldl (fun m k => mset d m k (g k)) m) k = if k ∈ l then g k else mget d m k := by
  induction l generalizing m with
  | nil => rfl
  | cons a r ih =>
    rw [List.foldl_cons, ih, mget_mset]
    by_cases hk : k = a
    · simp [hk]
    · simp [hk]

theorem answers_thermalCycleSave (s : State) {f : Nat} (hf : f < 64) :
    Answers .thermalCycleSave s (fun u => mget 0 u.hub.savedCycles f = s.odG 0x2304 (f + 1) ∧ u.od = s.od) :=
  ⟨_, guardRes_next rfl rfl, (mget_foldl_mset 0 (fun f => s.odG 0x2304 (f + 1)) allFields [] f).trans
    (if_pos (List.mem_range.2 hf)), rfl⟩

section embers

variable {s : State} {f : Nat} (hf : f < 64)
include hf

theorem answers_embersWarming (hember : s.inEmbers f = true)
    (hstage : s.odG 0x2305 (f + 1) = 0 ∨ s.odG 0x2305 (f + 1) = 5) :
    Answers (.embersWarming f) s (fun u => u.odG 0x2305 (f + 1) = 5 ∧
      (s.fieldTemp f < signed 16 (s.odG 0x2303 (f + 1)) - 100 → (u.field f).warming = true)) := by
  refine ⟨_, guardRes_next (decide_eq_true hf) (if_pos (by simpa [hember] using hstage)), ?_⟩
  have htemp : (s.odSet 0x2305 (f + 1) 5).fieldTemp f = s.fieldTemp f := by
    rw [State.fieldTemp, State.odG_odSet_index _ (by decide) (by omega) (by omega), State.fieldTemp]
  dsimp only
  rw [htemp, State.odG_odSet_index _ (by decide) (by omega) (by omega)]
  split
  · rw [State.odG_modField, State.odG_odSet_same, State.field_modField_same]
    exact ⟨rfl, fun _ => rfl⟩
  · rename_i hcold
    exact ⟨State.odG_odSet_same _ _ _ _, fun h => absurd h hcold⟩

theorem noEffect_embersWarming (hember : s.inEmbers f = false) : NoEffect (.embersWarming f) s :=
  guardRes_next (decide_eq_true hf) (if_neg (by simp [hember]))

end embers

/-- Settles O48, by the command. -/
theorem heatAndCoolant : Obligations.HeatAndCoolant := by
  unfold Obligations.HeatAndCoolant
  intro s f hf x heat cap
  refine ⟨?noSample, ?sample, ?down, ?noDown, ?up, ?noUp, ?urgent, ?evacuation, ?noOff, ?off, ?heatOff, ?critical, ?heatReturn,
    ?noReturn, ?release, ?loss, ?noLoss, ?outlet, ?noOutlet, ?sensors, ?cycles, ?embers, ?noEmbers, ?hours, ?noHours⟩
  case noSample => exact fun smp hvstby => guardRes_next (decide_eq_true hf) (if_pos (by simp [hvstby]))
  case sample =>
    intro smp hvstby charge t
    obtain ⟨htemp, hband, hexcluded⟩ := State.sampled_odG s hf (charge := charge) (t := t) smp
    exact ⟨_, exec_fieldTemperatureSample s hf smp hvstby, htemp, hband, hexcluded,
      fun hon hstage hat hlt => State.sampled_throttles s hf smp hon hstage hat hlt⟩
  case down =>
    intro hth heases
    obtain ⟨hcap, hgrant⟩ := State.setCap_grants (s := s) hf (capDown (s.odG 0x2302 (f + 1)))
    exact ⟨_, exec_throttleStepDown hf hth heases, hcap, hgrant, (State.fieldGrant_le_cap _ f).trans hcap.le⟩
  case noDown => exact noEffect_throttleStepDown hf
  case up => exact fun hon hstage heases => ⟨_, exec_throttleStepUp hf hon hstage heases, State.steppedUp_grants hf _ hstage⟩
  case noUp => exact noEffect_throttleStepUp hf
  case urgent =>
    exact fun rows hrows => ⟨exec_urgentRotation hf hrows, noEffect_urgentRotation hf hrows⟩
  case evacuation =>
    intro due v
    refine ⟨fun h => noEffect_evacuation hf ?_, fun hdue haway hth hstage => ?_⟩
    · exact State.evacuates_eq_false.2 (by rwa [State.evacuationDue_iff])
    · have hevac : s.evacuates f = true := State.evacuates_iff.2 ⟨State.evacuationDue_iff.2 hdue, haway, hth, hstage⟩
      refine ⟨fun hfree => exec_evacuation hf hevac (fun _ => rfl) (fun p hp => absurd (hfree.symm.trans hp) nofun),
        fun p hp hstate => ?_⟩
      have hnext : ∀ u, v.evacuatePart p f = u → exec (.evacuation f) s = .next u := fun u hu =>
        exec_evacuation hf hevac (fun hfree => absurd (hfree.symm.trans hp) nofun)
          (fun q hq => by rwa [← Option.some.inj (hp.symm.trans hq)])
      have hformed : v.partState p = 1 := (s.partState_odSet (by decide) (State.partOfField_lt hp) (by omega)).trans hstate
      exact ⟨fun hfits => hnext _ (State.evacuatePart_unfit hformed hfits),
        fun hfits hcode => hnext _ (State.evacuatePart_starts hformed hfits hcode)⟩
  case noOff => exact noEffect_offForHeat hf
  case off =>
    intro hon hstage haway
    exact ⟨exec_offForHeat_free hf hon hstage haway, fun p hp =>
      ⟨noEffect_offForHeat_evacuating hf hon hstage haway hp, exec_offForHeat_part hf hon hstage haway hp⟩⟩
  case heatOff =>
    obtain ⟨hstage, hcount⟩ := s.heatCounted_odG hf
    obtain ⟨hnow, hheld⟩ := s.heatCounted_field (f := f)
    exact ⟨_, hstage, hcount, s.heatOff_eq f, hnow, hheld⟩
  case critical => exact ⟨noEffect_criticalLimit hf, exec_criticalLimit hf⟩
  case heatReturn =>
    exact fun hdark hstate hcool => ⟨_, exec_heatReturn hf hdark hstate hcool, State.requestOn_queue⟩
  case noReturn => exact noEffect_heatReturn hf
  case release =>
    exact fun c hc => ⟨exec_releaseFieldHeldOff hf hc, fun v hv => refuses_releaseFieldHeldOff hf hc hv⟩
  case loss => exact answers_coolantReadingLoss
  case noLoss => exact noEffect_coolantReadingLoss
  case outlet => exact exec_outletLimitStep
  case noOutlet => exact noEffect_outletLimitStep
  case sensors =>
    intro c die temps haway hvstby
    exact ⟨fun hnone => ⟨_, exec_i3cRescan haway hvstby hnone, s.takeCoolant_frame c⟩, noEffect_i3cRescan,
      fun hlen => answers_hubSensorRead haway hvstby hlen die⟩
  case cycles => exact answers_thermalCycleSave s hf
  case embers => exact answers_embersWarming hf
  case noEmbers => exact noEffect_embersWarming hf
  case hours => exact fun hpowered => guardRes_next rfl (if_pos hpowered)
  case noHours => exact fun hpowered => guardRes_next rfl (if_neg (by simp [hpowered]))

end Sys2Proof.Machine
end

section
/-!
SUPPORT. Consecutive writes to a sparse table, the bytes of a number (R8), and vector registers as 32-bit lanes and as
bytes (R109).
-/

namespace Sys2Proof.Machine

/-! ### Tables and bytes -/

theorem mget_mwrite {α : Type} [DecidableEq α] (d : α) (vs : List α) (m : SMap α) (k j : Nat) :
    mget d (mwrite d m k vs) j = if j < k then mget d m j else (vs[j - k]?).getD (mget d m j) := by
  induction vs generalizing m k with
  | nil => simp [mwrite]
  | cons v r ih =>
    rw [mwrite, ih, mget_mset]
    rcases Nat.lt_trichotomy j k with h | rfl | h
    · rw [if_pos (by omega), if_neg (by omega), if_pos h]
    · simp
    · obtain ⟨i, rfl⟩ : ∃ i, j = k + 1 + i := ⟨j - (k + 1), by omega⟩
      rw [if_neg (by omega), if_neg (by omega), if_neg (by omega), show k + 1 + i - k = i + 1 by omega,
        Nat.add_sub_cancel_left, List.getElem?_cons_succ]

@[simp] theorem length_leBytes (n v : Nat) : (leBytes n v).length = n := by
  induction n generalizing v with
  | zero => rfl
  | succ n ih => rw [leBytes, List.length_cons, ih]

theorem leNat_leBytes (n v : Nat) : leNat (leBytes n v) = v % 256 ^ n := by
  induction n generalizing v with
  | zero => rw [Nat.pow_zero, Nat.mod_one]; rfl
  | succ n ih =>
    rw [leBytes, leNat, ih, Nat.pow_succ', Nat.mod_mul, BitVec.toNat_ofNat, Nat.mod_mod]

/-- The four bytes of a word spell it. -/
theorem ofNat_leNat_leBytes_four (w : Word) : BitVec.ofNat 32 (leNat (leBytes 4 w.toNat)) = w := by
  rw [leNat_leBytes, Nat.mod_eq_of_lt (show w.toNat < 256 ^ 4 from w.isLt), BitVec.ofNat_toNat, BitVec.setWidth_eq]

theorem overlayBytes_enabled {old bs : List Byte} (h : old.length ≤ bs.length) :
    overlayBytes old 0 (enabled bs) = bs.take old.length := by
  refine List.ext_getElem (by simp [overlayBytes, h]) fun i hi hi' => ?_
  have hib : i < bs.length := by simp at hi'; omega
  simp [overlayBytes, enabled, List.headD_eq_head?_getD, List.head?_drop, List.getElem?_eq_getElem hib]

theorem sInt_eq_toInt (w : Word) : sInt w = w.toInt := by
  have := w.isLt
  rw [sInt, signed, Nat.mod_eq_of_lt w.isLt, BitVec.toInt]
  split <;> split <;> omega

/-! ### Words as elements of four bytes -/

theorem elemBytesOf_four_cons (w : Word) (l : List Word) :
    elemBytesOf 4 (w :: l) = leBytes 4 w.toNat ++ elemBytesOf 4 l := rfl

@[simp] theorem length_elemBytesOf_four (l : List Word) : (elemBytesOf 4 l).length = 4 * l.length := by
  induction l with
  | nil => rfl
  | cons w r ih => rw [elemBytesOf_four_cons, List.length_append, ih, length_leBytes, List.length_cons]; omega

theorem drop_elemBytesOf_four (l : List Word) (i : Nat) : (elemBytesOf 4 l).drop (4 * i) = elemBytesOf 4 (l.drop i) := by
  induction l generalizing i with
  | nil => rw [List.drop_nil]; exact List.drop_nil
  | cons w r ih =>
    cases i with
    | zero => rfl
    | succ i =>
      rw [List.drop_succ_cons, ← ih, elemBytesOf_four_cons, show 4 * (i + 1) = (leBytes 4 w.toNat).length + 4 * i by
        rw [length_leBytes]; omega, List.drop_length_add_append]

/-- Words laid over vector registers stand in consecutive lanes. -/
theorem putVecBytes_words (v : Vector) {r : Nat} {l : List Word} (h : r * 64 + l.length ≤ 2048) :
    putVecBytes v r (elemBytesOf 4 l) = { v with regs := mwrite 0 v.regs (r * 64) l } := by
  have htake : (elemBytesOf 4 l).take (8192 - r * 256) = elemBytesOf 4 l :=
    List.take_of_length_le (by rw [length_elemBytesOf_four]; omega)
  have hcount : ceilDiv (4 * l.length) 4 = l.length := by unfold ceilDiv; omega
  rw [putVecBytes, htake, length_elemBytesOf_four, hcount]
  congr 2
  refine List.ext_getElem (by simp) fun i hi hl => ?_
  have hdrop : (enabled (elemBytesOf 4 l)).drop (4 * i) = enabled (leBytes 4 l[i].toNat ++ elemBytesOf 4 (l.drop (i + 1))) := by
    rw [enabled, ← List.map_drop, drop_elemBytesOf_four, List.drop_eq_getElem_cons hl, elemBytesOf_four_cons]; rfl
  rw [List.getElem_map, List.getElem_range, hdrop, overlayBytes_enabled (by simp), length_leBytes,
    List.take_left' (length_leBytes _ _), ofNat_leNat_leBytes_four]

/-- The bytes of a lane among those of consecutive vector registers. -/
theorem sliceB_vectorBytes (s : State) (t : TileId) {r n i : Nat} (h : r * 64 + n ≤ 2048) (hi : i < n) :
    sliceB (s.vectorBytes t r (n * 4)) (i * 4) 4 = leBytes 4 (lane s t (r * 64 + i)).toNat := by
  have hlen : (s.vectorBytes t r (n * 4)).length = n * 4 := by simp [State.vectorBytes]
  have hpad : 4 - ((s.vectorBytes t r (n * 4)).drop (i * 4)).length = 0 := by
    rw [List.length_drop, hlen]; omega
  rw [sliceB, hpad, List.replicate_zero, List.append_nil]
  refine List.ext_getElem (by rw [List.length_take, List.length_drop, hlen, length_leBytes]; omega) fun j hj hj' => ?_
  have hj4 : j < 4 := by rwa [length_leBytes] at hj'
  have hin : r * 256 + (i * 4 + j) < 8192 := by omega
  have hlane : (r * 256 + (i * 4 + j)) / 4 = r * 64 + i := by omega
  have hbyte : (r * 256 + (i * 4 + j)) % 4 = j := by omega
  simp only [State.vectorBytes, List.getElem_take, List.getElem_drop, List.getElem_map, List.getElem_range, if_pos hin,
    hlane, hbyte, List.headD_eq_head?_getD, List.head?_drop, lane]
  rw [List.getElem?_eq_getElem (by rwa [length_leBytes]), Option.getD_some]

/-- The lanes of an operand, in order. -/
def State.laneList (s : State) (t : TileId) (r : Fin 32) (n : Nat) : List Word :=
  (List.range n).map (fun i => lane s t (r * 64 + i))

theorem State.regElems_four (s : State) (t : TileId) {r : Fin 32} {n : Nat} (h : r * 64 + n ≤ 2048) :
    s.regElems t r 4 n = s.laneList t r n := by
  have hlen : (s.vectorBytes t r (n * 4)).length / 4 = n := by simp [State.vectorBytes]
  rw [State.regElems, elemsOf, hlen]
  refine List.map_congr_left fun i hi => ?_
  rw [fieldN, sliceB_vectorBytes s t h (List.mem_range.1 hi), elemWord, if_neg (by decide), ofNat_leNat_leBytes_four]

end Sys2Proof.Machine
end

section
/-!
SUPPORT. How an instruction that a core issues runs and retires (R173, R198), and what a vector instruction leaves of its
tile: VDONE is set, and nothing but traces and performance counters changes beside its own effect (R110, R174, R195).
-/

namespace Sys2Proof.Machine

/-! ### Issue, trace and retirement -/

theorem State.coreRun_issues {s : State} {t : TileId} (h : Issues s t) (f : State → State × CoreEnd) :
    s.coreRun t f = (f s).1.coreEnd t (f s).2 := by
  obtain ⟨-, hmay, hpc, hbreak, -⟩ := h
  simp only [State.coreRun, State.coreStep, hmay, Bool.not_true, Bool.false_eq_true, if_false, Nat.not_le.2 hpc, hbreak]

/-- A core without what only observes it: performance counters (R202) and trace (R195, R196). -/
def coreUnobserved (c : Core) : Core :=
  { c with pmc := [], pmcAt := 0, traceFull := false, traceSeq := 0, traceLost := false, traceHold := [], tracePos := 0 }

/-- A tile without what only observes its core. -/
def unobserved (T : Tile) : Tile := { T with cc := coreUnobserved T.cc }

@[simp] theorem unobserved_vu (T : Tile) : (unobserved T).vu = T.vu := rfl
@[simp] theorem unobserved_sp (T : Tile) : (unobserved T).sp = T.sp := rfl
@[simp] theorem unobserved_dsram (T : Tile) : (unobserved T).cc.dsram = T.cc.dsram := rfl
@[simp] theorem unobserved_regs (T : Tile) : (unobserved T).cc.regs = T.cc.regs := rfl
@[simp] theorem unobserved_pc (T : Tile) : (unobserved T).cc.pc = T.cc.pc := rfl
@[simp] theorem unobserved_events (T : Tile) : (unobserved T).cc.events = T.cc.events := rfl
@[simp] theorem unobserved_haltDue (T : Tile) : (unobserved T).cc.haltDue = T.cc.haltDue := rfl

@[simp] theorem coreUnobserved_pmcAdd (c : Core) (sel n : Nat) : coreUnobserved (pmcAdd c sel n) = coreUnobserved c := rfl

@[simp] theorem coreUnobserved_pmcSettle (now : Nat) (c : Core) : coreUnobserved (pmcSettle now c) = coreUnobserved c := by
  change coreUnobserved (if c.wait ≠ .none then pmcAdd _ 4 _ else _) = coreUnobserved c
  simp only [apply_ite coreUnobserved, coreUnobserved_pmcAdd, ite_self]

@[simp] theorem coreUnobserved_leaveWait (now : Nat) (c : Core) : coreUnobserved (leaveWait now c) = coreUnobserved c := by
  unfold leaveWait
  split
  · rfl
  · exact coreUnobserved_pmcSettle now c

section observation

variable (s : State) (t : TileId)

@[simp] theorem State.tile_modCc_same (f : Core → Core) : (s.modCc t f).tile t = { s.tile t with cc := f (s.tile t).cc } :=
  State.tile_modTile_same _ _ _

variable {s t} in
theorem State.unobserved_modCc {f : Core → Core} (hf : ∀ c, coreUnobserved (f c) = coreUnobserved c) :
    unobserved ((s.modCc t f).tile t) = unobserved (s.tile t) := by
  rw [State.tile_modCc_same, unobserved, hf, unobserved]

theorem State.unobserved_traceStore (x y : Nat) (r : List Byte) :
    unobserved ((s.traceStore t x y r).tile t) = unobserved (s.tile t) := by
  unfold State.traceStore
  dsimp only
  split
  · rfl
  · split
    · exact State.unobserved_modCc fun _ => rfl
    · exact State.unobserved_modCc fun _ => rfl

theorem State.unobserved_traceWrite (typ : Nat) (data : List Byte) :
    unobserved ((s.traceWrite t typ data).tile t) = unobserved (s.tile t) := by
  unfold State.traceWrite
  dsimp only
  split
  · rfl
  · split
    · split
      · exact State.unobserved_modCc fun _ => rfl
      · rw [State.odAdd_tile]
        exact State.unobserved_modCc fun _ => rfl
    · rw [State.unobserved_modCc]
      · exact State.forEach_unchanged (fun u => unobserved (u.tile t)) (fun r u => u.unobserved_traceStore t _ _ r) _ s
      · exact fun _ => rfl

/-- A trace record changes nothing of its tile but what observes the core. -/
theorem State.unobserved_trace (typ : Nat) (data : List Byte) :
    unobserved ((s.trace t typ data).tile t) = unobserved (s.tile t) := by
  unfold State.trace
  dsimp only
  split
  · rfl
  · exact s.unobserved_traceWrite t typ data

end observation

theorem State.unobserved_vectorDone (s : State) (t : TileId) (opc : Nat) :
    unobserved ((s.vectorDone t opc).tile t) =
      { unobserved (s.tile t) with cc := { (unobserved (s.tile t)).cc with events := setBit (s.tile t).cc.events 6 true } } := by
  have htraced : unobserved ((s.traceSubmit t opc 1).tile t) = unobserved (s.tile t) := s.unobserved_trace t _ _
  have hevents : ((s.traceSubmit t opc 1).tile t).cc.events = (s.tile t).cc.events := by
    rw [← unobserved_events, htraced, unobserved_events]
  rw [← htraced, ← hevents, State.vectorDone, State.tile_modCc_same]
  rfl

theorem State.unobserved_retire {s : State} {t : TileId} (hdue : (s.tile t).cc.haltDue = 0) (pc : Word) :
    unobserved ((s.retire t pc).tile t) =
      { unobserved (s.tile t) with cc := { (unobserved (s.tile t)).cc with
        pc := pc, passBp := false, state := .running, wait := .none } } := by
  have hcore := coreUnobserved_leaveWait s.clkTime (s.tile t).cc
  rw [State.retire, hdue, if_neg (not_not.2 rfl), State.tile_modCc_same]
  exact congrArg (fun c => { s.tile t with cc :=
    { c with pc := pc, passBp := false, state := CoreState.running, wait := CoreWait.none } }) hcore

/-- A tile `U` after a vector instruction whose own effect left the tile `T`: VDONE is set, the core goes on at `pc`, and
vector unit, memories and general registers are as that effect left them. -/
structure VectorRetired (T U : Tile) (pc : Word) : Prop where
  vu : U.vu = T.vu
  sp : U.sp = T.sp
  dsram : U.cc.dsram = T.cc.dsram
  regs : U.cc.regs = T.cc.regs
  pc : U.cc.pc = pc
  vdone : bit U.cc.events 6 = true

theorem State.vectorRetired {s : State} {t : TileId} (hdue : (s.tile t).cc.haltDue = 0) (opc : Nat) (pc : Word) :
    VectorRetired (s.tile t) (((s.vectorDone t opc).retire t pc).tile t) pc := by
  have hdone := s.unobserved_vectorDone t opc
  have hdue' : ((s.vectorDone t opc).tile t).cc.haltDue = 0 := by rw [← unobserved_haltDue, hdone]; exact hdue
  have hran := (State.unobserved_retire hdue' pc).trans (by rw [hdone])
  constructor
  case vu => rw [← unobserved_vu, hran]; rfl
  case sp => rw [← unobserved_sp, hran]; rfl
  case dsram => rw [← unobserved_dsram, hran]; rfl
  case regs => rw [← unobserved_regs, hran]; rfl
  case pc => rw [← unobserved_pc, hran]
  case vdone => rw [← unobserved_events, hran]; exact bit_setBit_same _ 6

/-! ### General registers -/

theorem State.setGr_zero (s : State) (t : TileId) (v : Word) : s.setGr t 0 v = s := if_pos rfl

theorem State.tile_setGr {d : Fin 32} (hd : d ≠ 0) (s : State) (t : TileId) (v : Word) :
    (s.setGr t d v).tile t = { s.tile t with cc := { (s.tile t).cc with regs := mset 0 (s.tile t).cc.regs d v } } := by
  rw [State.setGr, if_neg hd, State.tile_modCc_same]

/-- What a write of g_d leaves of the tile beside the general registers. -/
theorem State.tile_setGr_frame (s : State) (t : TileId) (d : Fin 32) (v : Word) :
    ((s.setGr t d v).tile t).vu = (s.tile t).vu ∧ ((s.setGr t d v).tile t).cc.haltDue = (s.tile t).cc.haltDue := by
  by_cases hd : d = 0
  · subst hd; rw [State.setGr_zero]; exact ⟨rfl, rfl⟩
  · rw [State.tile_setGr hd]; exact ⟨rfl, rfl⟩

theorem State.gr_of_regs {s u : State} {t : TileId} (h : (u.tile t).cc.regs = (s.tile t).cc.regs) (r : Fin 32) :
    u.gr t r = s.gr t r := by
  rw [State.gr, State.gr, h]

theorem State.wrote_setGr (s : State) (t : TileId) (d : Fin 32) (v : Word) : Wrote s (s.setGr t d v) t d v := by
  by_cases hd : d = 0
  · subst hd; rw [State.setGr_zero]; exact ⟨rfl, fun _ _ => rfl⟩
  · refine ⟨?_, fun r hr => ?_⟩
    · rw [State.gr, if_neg hd, if_neg hd, State.tile_setGr hd, mget_mset_same]
    · rw [State.gr, State.gr, State.tile_setGr hd, mget_mset_other _ _ _ (fun h => hr (Fin.ext h))]

/-! ### Operands in vector registers -/

section operands

variable {s : State} {t : TileId} {ops : VOperands} {n : Nat}
  (hissue : Issues s t) (hcount : (s.gr t ops.gb).toNat = n) (hin : InRegs ops n)

include hcount hin in
theorem State.vecCount_four : s.vecCount t ops 4 = n := by
  obtain ⟨-, -, -, ha, -⟩ := hin
  rw [State.vecCount, hcount]
  omega

include hissue hcount hin

theorem State.vecOp_regs (run : State → List Word → State) :
    s.vecOp t ops 4 run =
      ((run (s.useFree 8192) (s.laneList t ops.a n)).vectorDone t 0x31).retire t (s.nextPc t) := by
  obtain ⟨hsrc, -, -, ha, -⟩ := id hin
  rw [State.vecOp, State.coreRun_issues hissue]
  simp only [hsrc, State.vecArg, State.vecCount_four hcount hin, s.regElems_four t ha, State.coreEnd]

theorem State.vecOp3_regs (run : State → List Word → List Word → List Word → State) :
    s.vecOp3 t ops 4 run =
      ((run (((s.useFree 8192).useFree 8192).useFree 8192) (s.laneList t ops.a n) (s.laneList t ops.b n)
        (s.laneList t ops.c n)).vectorDone t 0x31).retire t (s.nextPc t) := by
  obtain ⟨hsrc, hsrcB, hsrcC, ha, hb, hc, -⟩ := id hin
  rw [State.vecOp3, State.coreRun_issues hissue]
  simp only [hsrc, hsrcB, hsrcC, State.vecArg, State.vecCount_four hcount hin, State.regElems_four _ t ha,
    State.regElems_four _ t hb, State.regElems_four _ t hc, State.coreEnd]
  rfl

end operands

/-! ### Effects on the vector registers -/

section effects

variable {c : Instr} {s w : State} {t : TileId} {g : Vector → Vector} (hissue : Issues s t) (hw : w.tiles = s.tiles)
  (hexec : exec c s = .next (((w.modVu t g).vectorDone t 0x31).retire t (s.nextPc t)))
include hissue hw hexec

theorem goesOn_vector {P : State → Prop}
    (hP : ∀ u, VectorRetired { s.tile t with vu := g (s.tile t).vu } (u.tile t) (s.nextPc t) → P u) : GoesOn c s t P := by
  obtain ⟨-, -, -, -, hdue⟩ := hissue
  have hmod : (w.modVu t g).tile t = { s.tile t with vu := g (s.tile t).vu } := by
    rw [State.modVu, State.tile_modTile_same, State.tile_of_tiles hw]
  have hran : VectorRetired ((w.modVu t g).tile t) _ (s.nextPc t) :=
    State.vectorRetired (by rw [hmod]; exact hdue) 0x31 (s.nextPc t)
  rw [hmod] at hran
  exact ⟨_, hexec, hran.pc, State.gr_of_regs hran.regs, hP _ hran⟩

theorem writesLanes_vector {d n : Nat} {f : Nat → Word}
    (hregs : (g (s.tile t).vu).regs = mwrite 0 (s.tile t).vu.regs (d * 64) ((List.range n).map f)) :
    WritesLanes c s t d n f := by
  refine goesOn_vector hissue hw hexec fun u hran => ?_
  have hlane : ∀ k, lane u t k =
      if k < d * 64 then lane s t k else (((List.range n).map f)[k - d * 64]?).getD (lane s t k) := fun k => by
    rw [lane, hran.vu, hregs, mget_mwrite]; rfl
  refine ⟨fun i hi => ?written, fun k hk => ?others, hran.sp, hran.dsram, hran.vdone⟩
  case written => simp [hlane, hi]
  case others =>
    rcases hk with hk | hk
    · rw [hlane, if_pos hk]
    · rw [hlane, if_neg (by omega), List.getElem?_eq_none (by simp; omega), Option.getD_none]

end effects

end Sys2Proof.Machine
end

section
/-!
SUPPORT. The elementwise classes of VOP (R109, R110), and the obligation O14.
-/

namespace Sys2Proof.Machine

section elementwise

variable {c : Instr} {s : State} {t : TileId} {ops : VOperands} {n : Nat}
  (hissue : Issues s t) (hcount : (s.gr t ops.gb).toNat = n) (hin : InRegs ops n)
include hissue hcount hin

theorem writesLanes_map {f : Word → Word}
    (hexec : exec c s = .next (s.vecOp t ops 4 (fun s l => s.modVu t (fun v => putVecBytes v ops.d (elemBytesOf 4 (l.map f)))))) :
    WritesLanes c s t ops.d n (fun i => f (lane s t (ops.a * 64 + i))) := by
  obtain ⟨-, -, -, -, -, -, hd⟩ := id hin
  rw [State.vecOp_regs hissue hcount hin] at hexec
  refine writesLanes_vector (w := s.useFree 8192) hissue rfl hexec ?_
  rw [putVecBytes_words _ (by simpa [State.laneList] using hd), State.laneList, List.map_map]; rfl

theorem writesLanes_unary {f : Word → Word} (hexec : exec c s = .next (s.unary t .fp32 ops f)) :
    WritesLanes c s t ops.d n (fun i => f (lane s t (ops.a * 64 + i))) := writesLanes_map hissue hcount hin hexec

theorem writesLanes_lanes {f : Word → Word → Word → Word}
    (hexec : exec c s = .next (s.vecOp3 t ops 4 (fun s l b c => s.lanes t ops 4 f l b c))) :
    WritesLanes c s t ops.d n
      (fun i => f (lane s t (ops.a * 64 + i)) (lane s t (ops.b * 64 + i)) (lane s t (ops.c * 64 + i))) := by
  obtain ⟨-, -, -, -, -, -, hd⟩ := id hin
  rw [State.vecOp3_regs hissue hcount hin] at hexec
  refine writesLanes_vector (w := ((s.useFree 8192).useFree 8192).useFree 8192) hissue rfl hexec ?_
  rw [putVecBytes_words _ (by simpa [State.laneList] using hd)]
  simp [State.laneList, List.zipWith_map_left, List.zipWith_map_right, List.zipWith_self]

end elementwise

/-- Settles O14, class by class: each is a function mapped over the lanes of its operands. -/
theorem vectorLaneInstructions : Obligations.VectorLaneInstructions := by
  unfold Obligations.VectorLaneInstructions
  intro s t ops n hissue hcount hin x y z
  have hok : tileOk t = true := hissue.1
  refine ⟨fun op => ?arithmetic, fun op => ?compare, fun sqrt => ?reciprocal, fun base2 => ?exp, ?sigmoid, ?silu, ?convert⟩
  case arithmetic => exact writesLanes_lanes hissue hcount hin (guardRes_next hok rfl)
  case compare => exact writesLanes_lanes hissue hcount hin (guardRes_next hok rfl)
  case reciprocal =>
    have h := writesLanes_unary (c := .vopReciprocal t sqrt .fp32 ops) hissue hcount hin (guardRes_next hok rfl)
    cases sqrt <;> exact h
  case exp =>
    have h := writesLanes_unary (c := .vopExp t base2 .fp32 ops) hissue hcount hin (guardRes_next hok rfl)
    cases base2 <;> exact h
  case sigmoid => exact writesLanes_unary hissue hcount hin (guardRes_next hok rfl)
  case silu => exact writesLanes_unary hissue hcount hin (guardRes_next hok rfl)
  case convert =>
    have h := writesLanes_map (c := .vopConversion t .int32ToFp32 0 0 ops) (f := convW .int32ToFp32 0 0) hissue hcount hin
      (guardRes_next hok rfl)
    simpa only [convW, sInt_eq_toInt] using h

end Sys2Proof.Machine
end

section
/-!
SUPPORT. Conversions, SOFTMAX_STEP, reductions, TOP_64_SELECT and DRAW (R110, R112, R209), and the obligation O15.
-/

namespace Sys2Proof.Machine

/-! ### Vector registers as destinations -/

@[simp] theorem putVecBytes_top (v : Vector) (r : Nat) (bs : List Byte) : (putVecBytes v r bs).top = v.top := rfl

section selection

variable {s : State} {t : TileId} {ops : VOperands} {n : Nat}
  (hissue : Issues s t) (hcount : (s.gr t ops.gb).toNat = n) (hin : InRegs ops n)
include hissue hcount hin

theorem goesOn_vopConversion {op : VConv} (hsize : (convSizes op).1 = 4) (rcp : BitVec 32) (zp : Nat) :
    GoesOn (.vopConversion t op rcp zp ops) s t (fun u => (u.tile t).vu = putVecBytes (s.tile t).vu ops.d
      (if (convSizes op).2 = 0 then packNibbles ((s.laneList t ops.a n).map (convW op rcp zp))
       else elemBytesOf (convSizes op).2 ((s.laneList t ops.a n).map (convW op rcp zp)))) := by
  have hexec : exec (.vopConversion t op rcp zp ops) s = _ := guardRes_next hissue.1 rfl
  rw [hsize, State.vecOp_regs hissue hcount hin] at hexec
  exact goesOn_vector (w := s.useFree 8192) hissue rfl hexec fun u hran => hran.vu

theorem goesOn_softmaxStep :
    GoesOn (.softmaxStep t ops) s t (fun u => lane u t (ops.b * 64 + 1) =
      BitVec.ofNat 32 ((lane s t (ops.b * 64 + 1)).toNat + ((s.laneList t ops.a n).map (fun w =>
        softmaxCode (lane s t (ops.c * 64)) w.toInt (lane s t (ops.b * 64)).toInt)).sum)) := by
  simp only [← sInt_eq_toInt]
  have hexec : exec (.softmaxStep t ops) s = _ := guardRes_next hissue.1 rfl
  rw [State.vecOp_regs hissue hcount hin] at hexec
  refine goesOn_vector (w := s.useFree 8192) hissue rfl hexec fun u hran => ?_
  rw [lane, hran.vu]
  exact mget_mset_same _ _ _ _

/-- A reduction writes what it makes of the lane's old value and the operand's lanes. -/
theorem writesLanes_vectorReduction {op : VRed} {first : Bool} {new : Word → List Word → Word}
    (hexec : exec (.vectorReduction t op first ops) s = .next (s.vecOp t ops 4 (fun s l => s.modVu t (fun v =>
      { v with regs := mset 0 v.regs (ops.d * 64) (new (lane s t (ops.d * 64)) l) })))) :
    WritesLanes (.vectorReduction t op first ops) s t ops.d 1
      (fun _ => new (lane s t (ops.d * 64)) (s.laneList t ops.a n)) := by
  rw [State.vecOp_regs hissue hcount hin] at hexec
  exact writesLanes_vector (w := s.useFree 8192) hissue rfl hexec rfl

theorem goesOn_top64Select (first : Bool) (base : Nat) :
    GoesOn (.top64Select t first base ops) s t (fun u => (u.tile t).vu.top =
      topMerge 64 (if first then [] else (s.tile t).vu.top)
        ((s.laneList t ops.a n).mapIdx (fun i w => (w, base + i)))) := by
  have hexec : exec (.top64Select t first base ops) s = _ := guardRes_next hissue.1 rfl
  rw [State.vecOp_regs hissue hcount hin] at hexec
  refine goesOn_vector (w := s.useFree 8192) hissue rfl hexec fun u hran => ?_
  rw [hran.vu]
  exact (putVecBytes_top _ _ _).trans (putVecBytes_top _ _ _)

end selection

theorem answers_draw {s : State} {t : TileId} (hissue : Issues s t) (d : Fin 32) {args : DrawArgs} {k : Nat}
    (hwf : Instr.wf (.draw t d args) = true) (hk : drawToken args = some k) :
    Answers (.draw t d args) s (fun u => Wrote s u t d (BitVec.ofNat 32 k) ∧
      (u.tile t).cc.pc = (s.tile t).cc.pc + 4 ∧ (u.tile t).vu = (s.tile t).vu ∧ bit (u.tile t).cc.events 6 = true) := by
  obtain ⟨-, -, -, -, hdue⟩ := id hissue
  have hexec : exec (.draw t d args) s =
      .next ((((s.useFree 1).setGr t d (BitVec.ofNat 32 k)).vectorDone t 0x31).retire t (s.nextPc t)) :=
    guardRes_next hwf (by rw [State.coreRun_issues hissue, hk]; rfl)
  obtain ⟨hvu, hdue'⟩ := (s.useFree 1).tile_setGr_frame t d (BitVec.ofNat 32 k)
  have hran := State.vectorRetired (hdue'.trans hdue) 0x31 (s.nextPc t)
  obtain ⟨hwrote, hrest⟩ := (s.useFree 1).wrote_setGr t d (BitVec.ofNat 32 k)
  refine ⟨_, hexec, ⟨(State.gr_of_regs hran.regs d).trans hwrote, fun r hr => ?_⟩, hran.pc, hran.vu.trans hvu, hran.vdone⟩
  exact (State.gr_of_regs hran.regs r).trans (hrest r hr)

/-- Settles O15, instruction by instruction. -/
theorem vectorReductionsAndSelection : Obligations.VectorReductionsAndSelection := by
  unfold Obligations.VectorReductionsAndSelection
  intro s t ops n hissue hcount hin l old
  have hok : tileOk t = true := hissue.1
  refine ⟨fun op rcp zp hsize _ => ?conversion, ?softmax, fun first => ?sum, fun first => ?sumSq, ?max,
    fun first base => ?select, fun d args k hwf hk => ?draw⟩
  case conversion => exact goesOn_vopConversion hissue hcount hin hsize rcp zp
  case softmax => exact goesOn_softmaxStep hissue hcount hin
  case sum =>
    exact writesLanes_vectorReduction (new := fun old l => if first then laneSum l else addW old (laneSum l))
      hissue hcount hin (guardRes_next hok rfl)
  case sumSq =>
    exact writesLanes_vectorReduction (new := fun old l => if first then laneSumSq l else addW old (laneSumSq l))
      hissue hcount hin (guardRes_next hok rfl)
  case max =>
    exact writesLanes_vectorReduction (new := fun old l => l.foldl (extreme true) old)
      hissue hcount hin (guardRes_next hok rfl)
  case select => exact goesOn_top64Select hissue hcount hin first base
  case draw => exact answers_draw hissue d hwf hk

end Sys2Proof.Machine
end

section
/-!
SUPPORT. Scratchpad accesses (R117–R120): bytes as lists, the tile in which a write has been laid, what an uncorrectable
granule leaves of a scratchpad, and local accesses.
-/

namespace Sys2Proof.Machine

/-! ### Bytes -/

@[simp] theorem length_mread {α : Type} (d : α) (m : SMap α) (k n : Nat) : (mread d m k n).length = n := by
  induction n generalizing k with
  | zero => rfl
  | succ n ih => rw [mread, List.length_cons, ih]

@[simp] theorem length_spRead (p : Spad) (off n : Nat) : (spRead p off n).length = n := length_mread _ _ _ _

@[simp] theorem length_sliceB (bs : List Byte) (off n : Nat) : (sliceB bs off n).length = n := by
  simp only [sliceB, List.length_append, List.length_take, List.length_drop, List.length_replicate]
  omega

/-- A list of the length asked for is its own slice. -/
theorem fitB_of_length {bs : List Byte} {n : Nat} (h : bs.length = n) : fitB bs n = bs := by
  subst h
  simp [fitB, sliceB]

@[simp] theorem length_enabled (bs : List Byte) : (enabled bs).length = bs.length := List.length_map _

/-- At most 32 bytes make one word, filled up with zeros. -/
theorem wordsOf_short {bs : List Byte} (h0 : 0 < bs.length) (h32 : bs.length ≤ 32) : wordsOf bs = [fitB bs 32] := by
  have hone : ceilDiv bs.length 32 = 1 := by simp only [ceilDiv]; omega
  rw [wordsOf, hone]
  rfl

/-! ### Writes laid over a scratchpad -/

theorem State.setTile_setTile_same (s : State) (t : TileId) (T U : Tile) : (s.setTile t T).setTile t U = s.setTile t U := by
  simp only [State.setTile, mset_mset_same]

/-- The state in which bytes have been laid over a tile's scratchpad, with `rx` at its local port. -/
def State.laid (s : State) (t : TileId) (rx : List Flit) (off : Nat) (bs : List (Option Byte)) : State :=
  s.setTile t { s.tile t with rx := rx, sp := spadWith off bs (s.tile t).sp }

theorem laysThen_of_exec {c : Instr} {s : State} {t : TileId} {rx : List Flit} {off : Nat} {bs : List (Option Byte)}
    {k : State → State} (h : exec c s = .next (k (s.laid t rx off bs))) : LaysThen c s t rx off bs k :=
  ⟨_, laid_mwriteOpt bs _ off, h⟩

/-- A write that meets no guarded slot and no uncorrectable granule, after a change of its tile that leaves mover
channels and granules. -/
theorem State.spStore_modTile_sound {s : State} {t : TileId} (hsound : Sound s t) {f : Tile → Tile}
    (hf : ∀ T, (f T).mv = T.mv ∧ (f T).sp.bad = T.sp.bad) (agent loc off : Nat) {bs : List (Option Byte)}
    (hguard : guardOf (s.tile t) off bs.length = none) :
    (s.modTile t f).spStore t agent loc off bs = s.modTile t (fun T => tileWith off bs (f T)) := by
  obtain ⟨hmv, hbad⟩ := hf (s.tile t)
  rw [State.spStore_sound, State.tile_modTile_same]
  · exact State.setTile_setTile_same _ _ _ _
  · rw [State.tile_modTile_same, hbad]; exact hsound
  · rw [State.tile_modTile_same]
    simp only [guardOf, hmv]
    exact hguard

/-! ### Uncorrectable granules (R120) -/

section granules

variable (s : State) (t : TileId)

@[simp] theorem State.sp_trace (typ : Nat) (data : List Byte) : ((s.trace t typ data).tile t).sp = (s.tile t).sp := by
  rw [← unobserved_sp, State.unobserved_trace, unobserved_sp]

@[simp] theorem State.tile_log (a : LogArgs) (u : TileId) : (s.log a).tile u = s.tile u :=
  State.tile_of_tiles (s.log_tiles a) u

@[simp] theorem State.tile_setBlobP (i b p : Nat) (v : List Byte) (u : TileId) : (s.setBlobP i b p v).tile u = s.tile u := rfl

/-- A scratchpad without MV_FAULT, which a fault record of memory replaces (R133). -/
def unfaulted (p : Spad) : Spad := { p with fault := [] }

theorem State.unfaulted_modTile {f : Tile → Tile} (hf : ∀ T, unfaulted (f T).sp = unfaulted T.sp) :
    unfaulted ((s.modTile t f).tile t).sp = unfaulted (s.tile t).sp := by
  rw [State.tile_modTile_same, hf]

theorem State.unfaulted_latchFault (r : FaultRec) :
    unfaulted ((s.latchFault t r).tile t).sp = unfaulted (s.tile t).sp := by
  have hmem : ∀ p : Spad, unfaulted (if r.typ = 0 then { p with fault := faultBytes s t r } else p) = unfaulted p := by
    intro p
    split <;> rfl
  unfold State.latchFault
  dsimp only
  split
  · rw [State.tile_log, State.sp_trace, State.odAdd_tile]
    exact s.unfaulted_modTile t fun T => hmem T.sp
  · rw [State.tile_log, State.tile_setBlobP, State.sp_trace, State.odAdd_tile]
    exact s.unfaulted_modTile t fun T => hmem T.sp

variable {s t} in
theorem State.sp_of_inject {s' : State} {m : Message} {c : Option Nat} (h : s.inject t m = (s', c)) :
    (s'.tile t).sp = (s.tile t).sp := by
  obtain ⟨l, hsent⟩ := s.inject_tile t m
  rw [h] at hsent
  have hsp := congrArg Tile.sp hsent
  exact hsp

theorem State.sp_sendRecord (r : List Byte) : ((s.sendRecord t r).tile t).sp = (s.tile t).sp := by
  unfold State.sendRecord
  split
  · dsimp only
    split
    · rename_i s1 hs1
      exact State.sp_of_inject hs1
    · rename_i s1 c hs1
      rw [State.faultLost, State.odAdd_tile, State.tile_modTile_same]
      exact State.sp_of_inject hs1
  · rfl

theorem State.unfaulted_raiseFault (r : FaultRec) :
    unfaulted ((s.raiseFault t r).tile t).sp = unfaulted (s.tile t).sp := by
  rw [State.raiseFault, State.sp_sendRecord, State.unfaulted_latchFault]

/-- A scratchpad that shows the uncorrectable granule at `g` (R120). -/
def granuleShown (g : Nat) (p : Spad) : Spad :=
  { p with uerr := true, uerrCnt := satAdd p.uerrCnt 1 0xFFFFFFFF, uerrAddr := g }

theorem State.granuleFault_eq (agent loc g : Nat) :
    s.granuleFault t agent loc g = ((s.modSp t (granuleShown g)).odAdd 0x3300 5 1).raiseFault t
      { status := 0x0403, agent := agent, typ := 0, address := g, loc := loc } := rfl

/-- An uncorrectable granule met is shown and leaves the bytes. -/
theorem State.sp_granuleFault (agent loc g : Nat) :
    ((s.granuleFault t agent loc g).tile t).sp.uerr = true ∧
      ((s.granuleFault t agent loc g).tile t).sp.mem = (s.tile t).sp.mem := by
  have hmet : unfaulted ((s.granuleFault t agent loc g).tile t).sp = unfaulted (granuleShown g (s.tile t).sp) := by
    rw [State.granuleFault_eq, State.unfaulted_raiseFault, State.odAdd_tile, State.modSp, State.tile_modTile_same]
  have huerr := congrArg Spad.uerr hmet
  have hmem := congrArg Spad.mem hmet
  exact ⟨huerr, hmem⟩

variable {s t} in
/-- UERR, once set, stays set while granules are met. -/
theorem State.uerr_forEach_granuleFault (agent loc : Nat) (l : List Nat) (h : (s.tile t).sp.uerr = true) :
    ((s.forEach l (fun g s => s.granuleFault t agent loc g)).tile t).sp.uerr = true := by
  induction l generalizing s with
  | nil => exact h
  | cons g r ih => exact ih (s.sp_granuleFault t agent loc g).1

/-- A read that meets an uncorrectable granule sets UERR, leaves the bytes, and has the code 0x0403. -/
theorem State.spGet_bad (agent loc off n : Nat) (h : badIn (s.tile t).sp off n ≠ []) :
    ((s.spGet t agent loc off n).1.tile t).sp.uerr = true ∧
      ((s.spGet t agent loc off n).1.tile t).sp.mem = (s.tile t).sp.mem ∧ (s.spGet t agent loc off n).2.2 = 0x0403 := by
  unfold State.spGet
  dsimp only
  split
  · exact absurd ‹_› h
  · rename_i g r _
    exact ⟨State.uerr_forEach_granuleFault agent loc r (s.sp_granuleFault t agent loc g).1,
      State.forEach_unchanged (fun u => (u.tile t).sp.mem) (fun g s => (s.sp_granuleFault t agent loc g).2) (g :: r) s, rfl⟩

end granules

/-! ### SCRATCHPAD_ACCESS (R117, R118) -/

/-- A scratchpad whose wait count has been raised by an access. -/
def spadWaited (acc : SpAccess) (p : Spad) : Spad := { p with waitCnt := satAdd p.waitCnt acc.waited 0xFFFFFFFF }

/-- WHERE of a fault record of a local access: the PC of a control core. -/
def accessWhere (s : State) (t : TileId) (acc : SpAccess) : Nat := if acc.agent = .core then (s.tile t).cc.pc.toNat else 0

section access

variable {s : State} {t : TileId} {acc : SpAccess} (hwf : Instr.wf (.scratchpadAccess t acc) = true)
  (hal : coreAligned acc = true)
include hwf hal

theorem exec_scratchpadAccess_outside (hend : 0x200000 < acc.offset + (acc.write.map List.length).getD acc.len) :
    exec (.scratchpadAccess t acc) s = .next ((s.modSp t (spadWaited acc)).memFault t 0x0402 (agentNum acc.agent)
      acc.offset (accessWhere s t acc)) := by
  refine guardRes_next hwf ((if_neg (by simp [hal])).trans (if_pos (.inl ?_)))
  cases hw : acc.write <;> simpa [hw] using hend

variable (hecc : acc.ecc = []) (hoff : acc.offset < 0x200000)
include hecc hoff

theorem exec_scratchpadAccess_read (hw : acc.write = none) (hend : acc.offset + acc.len ≤ 0x200000) :
    exec (.scratchpadAccess t acc) s = .next ((s.modSp t (spadWaited acc)).spGet t (agentNum acc.agent)
      (accessWhere s t acc) acc.offset acc.len).1 := by
  refine guardRes_next hwf ((if_neg (by simp [hal])).trans ((if_neg ?_).trans ?_))
  · simp only [hw]; omega
  · simp only [hw, hecc]; rfl

theorem exec_scratchpadAccess_write {bs : List (Option Byte)} (hw : acc.write = some bs)
    (hend : acc.offset + bs.length ≤ 0x200000) :
    exec (.scratchpadAccess t acc) s = .next ((s.modSp t (spadWaited acc)).spStore t (agentNum acc.agent)
      (accessWhere s t acc) acc.offset bs) := by
  refine guardRes_next hwf ((if_neg (by simp [hal])).trans ((if_neg ?_).trans ?_))
  · simp only [hw]; omega
  · simp only [hw, hecc]; rfl

theorem exec_scratchpadAccess_read_sound (hsound : Sound s t) (hw : acc.write = none)
    (hend : acc.offset + acc.len ≤ 0x200000) :
    exec (.scratchpadAccess t acc) s = .next (s.modSp t (spadWaited acc)) := by
  have hsound' : Sound (s.modSp t (spadWaited acc)) t := by
    rw [Sound, State.modSp, State.tile_modTile_same]; exact hsound
  rw [exec_scratchpadAccess_read hwf hal hecc hoff hw hend, spGet_sound hsound']

theorem laysThen_scratchpadAccess (hsound : Sound s t) {bs : List (Option Byte)} (hw : acc.write = some bs)
    (hend : acc.offset + bs.length ≤ 0x200000) (hguard : guardOf (s.tile t) acc.offset bs.length = none) :
    LaysThen (.scratchpadAccess t acc) s t (s.tile t).rx acc.offset bs (fun v => v.modSp t (spadWaited acc)) := by
  refine laysThen_of_exec ?_
  rw [exec_scratchpadAccess_write hwf hal hecc hoff hw hend, State.modSp, State.spStore_modTile_sound hsound ?_ _ _ _ hguard]
  · exact congrArg _ (s.modTile_modTile_same t (tileWith acc.offset bs)
      (fun T => { T with sp := spadWaited acc T.sp })).symm
  · exact fun _ => ⟨rfl, rfl⟩

theorem answers_scratchpadAccess_bad (hw : acc.write = none) (hend : acc.offset + acc.len ≤ 0x200000)
    (hbad : badIn (s.tile t).sp acc.offset acc.len ≠ []) :
    Answers (.scratchpadAccess t acc) s (fun u => (u.tile t).sp.uerr = true ∧ (u.tile t).sp.mem = (s.tile t).sp.mem) := by
  have hwaited : ((s.modSp t (spadWaited acc)).tile t).sp = spadWaited acc (s.tile t).sp := by
    rw [State.modSp, State.tile_modTile_same]
  obtain ⟨huerr, hmem, -⟩ := (s.modSp t (spadWaited acc)).spGet_bad t (agentNum acc.agent) (accessWhere s t acc)
    acc.offset acc.len (by rw [hwaited]; exact hbad)
  exact ⟨_, exec_scratchpadAccess_read hwf hal hecc hoff hw hend, huerr, by rw [hmem, hwaited]; rfl⟩

end access

end Sys2Proof.Machine
end

section
/-!
SUPPORT. Flits that the remote access unit serves (R122, R123, R132, R154, R430), words for the vector queue (R109), and
the obligations O17 and O18.
-/

namespace Sys2Proof.Machine

section served

variable {s : State} {t : TileId} {f : Flit}

/-- A flit from the tile's partition passes the first checks, but for a read from outside a sealed partition. -/
theorem State.remoteCheck_own (hpart : s.partOfTile t = some f.part)
    (hread : f.kind ≠ 1 ∨ s.sealedFromTile t f.srcX f.srcY = false) : s.remoteCheck t f = 0 := by
  refine (if_neg (not_not.2 hpart)).trans (if_neg ?_)
  rintro ⟨hkind, hsealed⟩
  rcases hread with h | h
  · exact h hkind
  · rw [hsealed] at h; cases h

theorem State.remoteCheck_foreign (hpart : s.partOfTile t ≠ some f.part) : s.remoteCheck t f = 0x0601 := if_pos hpart

theorem State.remoteCheck_sealed (hpart : s.partOfTile t = some f.part) (hkind : f.kind = 1)
    (hsealed : s.sealedFromTile t f.srcX f.srcY = true) : s.remoteCheck t f = 0x0602 :=
  (if_neg (not_not.2 hpart)).trans (if_pos ⟨hkind, hsealed⟩)

theorem sound_takeRx (hsound : Sound s t) (p : Flit → Bool) : Sound (s.takeRx t p) t := by
  rw [Sound, State.tile_takeRx]; exact hsound

/-- A write for a flit taken, which meets no guarded slot and no uncorrectable granule, is laid and has no code. -/
theorem State.remoteStore_takeRx (hsound : Sound s t) {off : Nat} {bs : List (Option Byte)}
    (hguard : guardOf (s.tile t) off bs.length = none) :
    (s.takeRx t (· == f)).remoteStore t f off bs = (s.laid t (rxWithout s t f) off bs, 0) := by
  have hstore : (s.takeRx t (· == f)).spStore t 7 (whereSrc f) off bs = s.laid t (rxWithout s t f) off bs := by
    rw [State.takeRx, State.spStore_modTile_sound hsound ?_ _ _ _ hguard]
    · rfl
    · exact fun _ => ⟨rfl, rfl⟩
  have hcode : storeCode ((s.takeRx t (· == f)).tile t).sp off bs = 0 := by
    rw [storeCode, badForWrite_sound (sound_takeRx hsound _)]
    rfl
  rw [State.remoteStore, hstore, hcode, ite_self]

/-! ### REMOTE_WRITE (R122, R132) -/

section write

variable (hwf : Instr.wf (.remoteWrite t f) = true) (hturn : Turn s t f)
include hwf hturn

theorem exec_remoteWrite_foreign (hpart : s.partOfTile t ≠ some f.part) :
    exec (.remoteWrite t f) s = .next ((s.takeRx t (· == f)).refuse t f 0x0601) := by
  have hcheck := State.remoteCheck_foreign hpart
  refine guardRes_inTurn hwf hturn ((if_pos ?_).trans ?_)
  · rw [hcheck]; decide
  · rw [hcheck]

theorem laysThen_remoteWrite (hsound : Sound s t) (hpart : s.partOfTile t = some f.part) (hkind : f.kind = 0)
    (hwindow : f.dest.window = 0) (halign : f.vn = 0 → alignedRun f.be.toNat = true)
    (hguard : guardOf (s.tile t) (f.dest.offset / 32 * 32) (beBytes f).length = none) :
    LaysThen (.remoteWrite t f) s t (rxWithout s t f) (f.dest.offset / 32 * 32) (beBytes f) (fun v => v.ackWrite t f) := by
  have hcheck := State.remoteCheck_own hpart (.inl (by rw [hkind]; decide))
  have hmis : ¬(f.vn = 0 ∧ alignedRun f.be.toNat = false) := fun ⟨hvn, h⟩ => by rw [halign hvn] at h; cases h
  refine laysThen_of_exec (guardRes_inTurn hwf hturn ?_)
  refine (if_neg (not_not.2 hcheck)).trans ((if_neg (by simp [hkind, hwindow])).trans ((if_neg (by simp [hwindow])).trans
    ((if_neg hmis).trans ((if_pos hwindow).trans ?_))))
  rw [State.remoteStore_takeRx hsound hguard]
  rfl

end write

/-! ### REMOTE_READ (R430) -/

section read

variable (hwf : Instr.wf (.remoteRead t f) = true) (hturn : Turn s t f)
include hwf hturn

theorem exec_remoteRead_foreign (hpart : s.partOfTile t ≠ some f.part) :
    exec (.remoteRead t f) s = .next ((s.takeRx t (· == f)).refuse t f 0x0601) := by
  have hcheck := State.remoteCheck_foreign hpart
  refine guardRes_inTurn hwf hturn ((if_pos ?_).trans ?_)
  · rw [hcheck]; decide
  · rw [hcheck]

variable (hpart : s.partOfTile t = some f.part) (hkind : f.kind = 1)
include hpart hkind

theorem exec_remoteRead_sealed (hsealed : s.sealedFromTile t f.srcX f.srcY = true) :
    exec (.remoteRead t f) s = .next ((s.takeRx t (· == f)).refuse t f 0x0602) := by
  have hcheck := State.remoteCheck_sealed hpart hkind hsealed
  refine guardRes_inTurn hwf hturn ((if_pos ?_).trans ?_)
  · rw [hcheck]; decide
  · rw [hcheck]

variable (hopen : s.sealedFromTile t f.srcX f.srcY = false) (hform : readCheck f = 0) (hwindow : f.dest.window = 0)
include hopen hform hwindow

/-- Bytes that a read request asks for. -/
def readLength (f : Flit) : Nat := if fieldN f.payload 0 1 = 0 then 32 * fieldN f.payload 4 4 else 4

theorem exec_remoteRead_bad (hbad : badIn (s.tile t).sp f.dest.offset (readLength f) ≠ []) :
    exec (.remoteRead t f) s = .next
      (((s.takeRx t (· == f)).windowGet t f f.dest.offset (readLength f)).1.refuse t f 0x0403) := by
  have hcheck := State.remoteCheck_own hpart (.inr hopen)
  have hcode : ((s.takeRx t (· == f)).windowGet t f f.dest.offset (readLength f)).2.2 = 0x0403 := by
    rw [State.windowGet, if_pos hwindow]
    refine (State.spGet_bad _ t _ _ _ _ ?_).2.2
    rw [State.tile_takeRx]
    exact hbad
  refine guardRes_inTurn hwf hturn ((if_neg (not_not.2 hcheck)).trans ((if_neg (not_not.2 hkind)).trans
    ((if_neg (not_not.2 hform)).trans ((if_pos (hcode.trans_ne (by decide))).trans ?_))))
  exact congrArg _ hcode

theorem exec_remoteRead_sound (hsound : Sound s t) :
    exec (.remoteRead t f) s = .next ((s.takeRx t (· == f)).sendWords t f
      (wordsOf (spRead (s.tile t).sp f.dest.offset (readLength f)))) := by
  have hcheck := State.remoteCheck_own hpart (.inr hopen)
  have hget : (s.takeRx t (· == f)).windowGet t f f.dest.offset (readLength f) =
      (s.takeRx t (· == f), spRead (s.tile t).sp f.dest.offset (readLength f), 0) := by
    rw [State.windowGet, if_pos hwindow, spGet_sound (sound_takeRx hsound _), State.tile_takeRx]
  refine guardRes_inTurn hwf hturn ((if_neg (not_not.2 hcheck)).trans ((if_neg (not_not.2 hkind)).trans
    ((if_neg (not_not.2 hform)).trans ?_)))
  rw [readLength] at hget
  simp only [hget]
  rfl

/-- A read of at most one word sends one flit of read data. -/
theorem exec_remoteRead_word (hsound : Sound s t) (h0 : 0 < readLength f) (h32 : readLength f ≤ 32) :
    exec (.remoteRead t f) s = .next ((s.takeRx t (· == f)).sendVn1 t
      (responseFlit s t f 3 true (fitB (spRead (s.tile t).sp f.dest.offset (readLength f)) 32))) := by
  rw [exec_remoteRead_sound hwf hturn hpart hkind hopen hform hwindow hsound,
    wordsOf_short (by rwa [length_spRead]) (by rwa [length_spRead]), State.sendWords,
    fitB_of_length (bs := fitB _ 32) (length_sliceB _ _ _)]
  rfl

end read

/-! ### Atomics (R123) -/

/-- An atomic that passes its checks: it carries its own operation, comes from the tile's partition in its turn, and
meets no uncorrectable granule. -/
structure AtomicPasses (s : State) (t : TileId) (f : Flit) (op : Nat) : Prop where
  turn : Turn s t f
  sound : Sound s t
  part : s.partOfTile t = some f.part
  checks : atomicCheck f = 0
  operation : fieldN f.payload 0 1 = op

theorem kind_of_atomicCheck (h : atomicCheck f = 0) : f.kind = 2 := by
  by_contra hkind
  rw [atomicCheck, if_pos (.inl hkind)] at h
  cases h

/-- Read and write in one pass, the old value returned. -/
theorem State.atomic_laid {op n : Nat} (h : AtomicPasses s t f op) (hn : (if op = 2 then 8 else 4) = n)
    (hguard : guardOf (s.tile t) f.dest.offset n = none) {old : Nat}
    (hold : leNat (spRead (s.tile t).sp f.dest.offset n) = old) :
    s.atomic t f op = (s.laid t (rxWithout s t f) f.dest.offset (enabled (leBytes n
      (atomicNew op old (fieldN f.payload 8 n) (fieldN f.payload 16 n))))).sendVn1 t
        (responseFlit s t f 3 true (fitB (leBytes n old) 32)) := by
  obtain ⟨-, hsound, hpart, hchecks, hop⟩ := h
  have hcheck := State.remoteCheck_own hpart (.inl (by rw [kind_of_atomicCheck hchecks]; decide))
  unfold State.atomic
  dsimp only
  rw [if_neg (not_not.2 hcheck), if_neg (not_not.2 hchecks), if_neg (not_not.2 hop), hn,
    spGet_sound (sound_takeRx hsound _), State.tile_takeRx]
  dsimp only
  rw [hold, State.remoteStore_takeRx hsound (by rwa [length_enabled, length_leBytes])]
  rfl

theorem laysThen_atomic {c : Instr} {op n old new : Nat} (h : AtomicPasses s t f op)
    (hexec : exec c s = .next (s.inTurn t (· == f) (s.atomic t f op))) (hn : (if op = 2 then 8 else 4) = n)
    (hguard : guardOf (s.tile t) f.dest.offset n = none) (hold : leNat (spRead (s.tile t).sp f.dest.offset n) = old)
    (hnew : atomicNew op old (fieldN f.payload 8 n) (fieldN f.payload 16 n) = new) :
    LaysThen c s t (rxWithout s t f) f.dest.offset (enabled (leBytes n new))
      (fun v => v.sendVn1 t (responseFlit s t f 3 true (fitB (leBytes n old) 32))) := by
  refine laysThen_of_exec ?_
  rw [hexec, State.inTurn, h.turn, State.atomic_laid h hn hguard hold, hnew]
  rfl

end served

/-! ### VECTOR_QUEUE_WORD (R109) -/

/-- The flits that carry a word for an entry of the vector queue. -/
def isQueueWord (idx : Nat) (word : List Byte) (f : Flit) : Bool :=
  f.dest.window == 4 && f.dest.offset == idx && f.payload == word

/-- A vector unit with a word at the end of its queue. -/
def wordQueued (idx : Nat) (word : List Byte) (v : Vector) : Vector := { v with queue := v.queue ++ [(idx, word)] }

/-- Without an ID no acknowledgement leaves the tile. -/
theorem State.ackTaken_noId (s : State) (t : TileId) {T : Tile} {p : Flit → Bool} (h : ∀ g ∈ T.rx, p g = true → g.id = 0) :
    s.ackTaken t T p = s := by
  unfold State.ackTaken
  split
  · rename_i f hf
    exact if_neg fun ⟨hid, _⟩ => hid (h f (List.mem_of_find?_eq_some hf) (List.find?_some hf))
  · rfl

section queue

variable {s : State} {t : TileId} (ht : tileOk t = true) {idx : Nat} {word : List Byte} (hword : word.length = 32)
include ht hword

theorem wf_vectorQueueWord : Instr.wf (.vectorQueueWord t idx word) = true := by simp [Instr.wf, bytesOk, ht, hword]

theorem answers_vectorQueueWord (hroom : (s.tile t).vu.queue.length < 256)
    (hturn : rxTurn (s.tile t) (isQueueWord idx word) = true) :
    Answers (.vectorQueueWord t idx word) s (fun u =>
      (u.tile t).vu = wordQueued idx word (s.tile t).vu ∧ (u.tile t).sp = (s.tile t).sp ∧
      ((∀ g ∈ (s.tile t).rx, isQueueWord idx word g = true → g.id = 0) → OnlyTile s u t)) := by
  have hexec : exec (.vectorQueueWord t idx word) s = .next
      (((s.takeRx t (isQueueWord idx word)).modVu t (wordQueued idx word)).ackTaken t (s.tile t) (isQueueWord idx word)) :=
    guardRes_next (wf_vectorQueueWord ht hword) ((if_pos hroom).trans (if_pos hturn))
  refine ⟨_, hexec, ?_, ?_, fun hid => ?_⟩
  · rw [State.ackTaken_tile, State.modVu, State.tile_modTile_same, State.tile_takeRx]
  · rw [State.ackTaken_tile, State.modVu, State.tile_modTile_same, State.tile_takeRx]
  · rw [State.ackTaken_noId _ t hid, State.takeRx, State.modVu, State.modTile_modTile_same]
    exact onlyTile_modTile s t _

theorem noEffect_vectorQueueWord (hfull : 256 ≤ (s.tile t).vu.queue.length) : NoEffect (.vectorQueueWord t idx word) s :=
  guardRes_next (wf_vectorQueueWord ht hword) (if_neg (Nat.not_lt.2 hfull))

end queue

/-! ### The obligations -/

/-- Settles O17, by the kind of access and the check that decides it. -/
theorem scratchpadAndRemoteAccesses : Obligations.ScratchpadAndRemoteAccesses := by
  unfold Obligations.ScratchpadAndRemoteAccesses
  intro s t
  refine ⟨fun acc hwf hal hecc hw hend hoff hbad => answers_scratchpadAccess_bad hwf hal hecc hoff hw hend hbad,
    fun acc hwf hal hecc hsound => ⟨?localRead, ?localWrite, exec_scratchpadAccess_outside hwf hal⟩,
    fun f hwf hturn hsound hpart hkind hwindow halign hguard => ?write, fun f ht hf hturn hpart => ?foreign,
    fun f hwf hturn hpart hkind hsealed => exec_remoteRead_sealed hwf hturn hpart hkind hsealed,
    fun f hwf hturn hpart hkind hopen hform hwindow hop hbad => ?readBad,
    fun f hwf hturn hsound hpart hkind hopen hform hwindow => ⟨fun hop => ?words, fun hop => ?short, fun hop hone => ?one⟩⟩
  case localRead =>
    intro hend hoff hw
    rw [hw] at hend
    exact exec_scratchpadAccess_read_sound hwf hal hecc hoff hsound hw hend
  case localWrite =>
    intro bs hend hoff hw hguard
    rw [hw] at hend
    exact laysThen_scratchpadAccess hwf hal hecc hoff hsound hw hend hguard
  case write =>
    have hlen : (beBytes f).length = 32 := by
      have hf : flitOk f = true := (Bool.and_eq_true_iff.1 hwf).2
      simp only [flitOk, bytesOk, Bool.and_eq_true, beq_iff_eq] at hf
      rw [beBytes, List.length_mapIdx, hf.1.2]
    exact laysThen_remoteWrite hwf hturn hsound hpart hkind hwindow halign (by rwa [hlen])
  case foreign =>
    have hwf : (tileOk t && flitOk f) = true := Bool.and_eq_true_iff.2 ⟨ht, hf⟩
    exact ⟨exec_remoteWrite_foreign hwf hturn hpart, exec_remoteRead_foreign hwf hturn hpart⟩
  case readBad =>
    have hlen : readLength f = 4 := if_neg (by rw [hop]; decide)
    rw [← hlen] at hbad ⊢
    exact exec_remoteRead_bad hwf hturn hpart hkind hopen hform hwindow hbad
  case words =>
    have hlen : readLength f = 32 * fieldN f.payload 4 4 := if_pos hop
    rw [← hlen]
    exact exec_remoteRead_sound hwf hturn hpart hkind hopen hform hwindow hsound
  case short =>
    have hlen : readLength f = 4 := if_neg (by rw [hop]; decide)
    rw [exec_remoteRead_word hwf hturn hpart hkind hopen hform hwindow hsound (by omega) (by omega), hlen]
  case one =>
    have hlen : readLength f = 32 := by rw [readLength, if_pos hop, hone]
    rw [exec_remoteRead_word hwf hturn hpart hkind hopen hform hwindow hsound (by omega) (by omega), hlen,
      fitB_of_length (length_spRead _ _ _)]

/-- Settles O18: each atomic is `State.atomic` with its own operation. -/
theorem remoteAtomics : Obligations.RemoteAtomics := by
  unfold Obligations.RemoteAtomics
  intro s t f ht hf off passes old old8 answers
  have hwf : (tileOk t && flitOk f) = true := Bool.and_eq_true_iff.2 ⟨ht, hf⟩
  have hpasses : ∀ op, passes → fieldN f.payload 0 1 = op → AtomicPasses s t f op :=
    fun op ⟨hturn, hsound, hpart, hcheck⟩ hop => ⟨hturn, hsound, hpart, hcheck, hop⟩
  refine ⟨fun h hop hguard => ?_, fun h hop hguard => ?_, fun h hop hguard => ?_,
    fun idx word hword => ⟨fun hroom hturn => answers_vectorQueueWord ht hword hroom hturn,
      fun hfull => noEffect_vectorQueueWord ht hword hfull⟩⟩
  · exact laysThen_atomic (hpasses 0 h hop) (guardRes_next hwf rfl) rfl hguard rfl (if_pos rfl)
  · exact laysThen_atomic (hpasses 1 h hop) (guardRes_next hwf rfl) rfl hguard rfl (if_neg (by decide))
  · exact laysThen_atomic (hpasses 2 h hop) (guardRes_next hwf rfl) rfl hguard rfl (if_neg (by decide))

end Sys2Proof.Machine
end

section
/-!
SUPPORT. The registers of a mover channel (R127, R130, R134, R135), and the obligation O19.
-/

namespace Sys2Proof.Machine

/-! ### A channel under a register write -/

/-- A channel that is enabled, not halted, and has no failed descriptor may fetch (R130, R134). -/
def fetchRuns (m : Mover) : Bool := m.en && !m.halted && m.failure.isNone

/-- FETCHING sets where occupancy has reached HI, and is otherwise as it was (R134). -/
theorem fetchCheck_eq (m : Mover) :
    fetchCheck m = { m with fetching := m.fetching || (fetchRuns m && decide (m.hi ≤ occupancy m)) } := by
  unfold fetchCheck
  split
  · rename_i h
    simp only [fetchRuns, h, Bool.or_true]
  · rename_i h
    simp only [fetchRuns, Bool.eq_false_iff.2 h, Bool.or_false]

theorem writeMvCtrl_enable {m : Mover} (hen : m.en = false) (hhi : 1 ≤ m.hi) :
    writeMvCtrl m 1 = { m with en := true, fetched := m.tail, done := m.tail } := by
  have hwrite : writeMvCtrl m 1 = fetchCheck { m with en := true, fetched := m.tail, done := m.tail } := by
    simp [writeMvCtrl, bit, hen]
  have hwaits : ¬m.hi ≤ 0 := by omega
  rw [hwrite, fetchCheck_eq]
  simp [occupancy, hwaits]

theorem writeMvCtrl_disable (m : Mover) : writeMvCtrl m 0 = { m with en := false, fetching := false } := by
  have hwrite : writeMvCtrl m 0 = fetchCheck { m with en := false, fetching := false } := by simp [writeMvCtrl, bit]
  rw [hwrite, fetchCheck_eq]
  rfl

theorem writeMvCtrl_resume {m : Mover} (hen : m.en = true) :
    writeMvCtrl m (2 + b2n m.en) =
      { m with halted := false, fetching := m.fetching || (m.failure.isNone && decide (m.hi ≤ occupancy m)) } := by
  have hwrite : writeMvCtrl m (2 + b2n m.en) = fetchCheck { m with halted := false } := by
    simp [writeMvCtrl, bit, b2n, hen]
  rw [hwrite, fetchCheck_eq]
  simp only [fetchRuns, hen, Bool.not_false, Bool.true_and]
  rfl

theorem writeMvPace_taken {m : Mover} {v : Nat}
    (h : bits v 7 0 < bits v 15 8 ∧ bits v 15 8 ≤ ringSlots m ∧ 1 ≤ bits v 31 16) :
    writeMvPace m v = { m with timeout := bits v 31 16, hi := bits v 15 8, lo := bits v 7 0,
                               fetching := m.fetching || (fetchRuns m && decide (bits v 15 8 ≤ occupancy m)) } :=
  (if_pos h).trans (fetchCheck_eq _)

theorem writeMvPace_refused {m : Mover} {v : Nat}
    (h : ¬(bits v 7 0 < bits v 15 8 ∧ bits v 15 8 ≤ ringSlots m ∧ 1 ≤ bits v 31 16)) :
    writeMvPace m v = { m with cfgErr := true } := if_neg h

/-! ### The commands -/

section channel

variable {s : State} {t : TileId} {ch : Nat} (ht : tileOk t = true) (hch : ch < 4)

/-- A command that changes one channel sets it to what the change makes of it. -/
theorem exec_setsMover {c : Instr} {f : Mover → Mover} {x : Mover} (hexec : exec c s = .next (s.modMv t ch f))
    (hx : f (s.mover t ch) = x) : exec c s = .next (s.modMv t ch (fun _ => x)) := by
  subst hx
  exact hexec

include ht hch

theorem wf_channel : (tileOk t && decide (ch < 4)) = true := by simp [ht, hch]

theorem exec_tailWrite_taken {v : Word}
    (hroom : (v.toNat % 65536 + 65536 - (s.mover t ch).done) % 65536 ≤ ringSlots (s.mover t ch)) :
    exec (.tailWrite t ch v) s = .next (s.modMv t ch (fun m => fetchCheck { m with tail := v.toNat % 65536 })) :=
  guardRes_next (wf_channel ht hch) (if_neg (Nat.not_lt.2 hroom))

theorem exec_tailWrite_refused {v : Word}
    (hover : ringSlots (s.mover t ch) < (v.toNat % 65536 + 65536 - (s.mover t ch).done) % 65536) :
    exec (.tailWrite t ch v) s = .next ((s.modMv t ch (fun m => { m with violation := true })).memFault t 0x0405
      (1 + ch) 0 (v.toNat % 65536)) :=
  guardRes_next (wf_channel ht hch) (if_pos hover)

/-- A pacing timeout lets a channel with a waiting descriptor fetch. -/
theorem exec_pacingTimeout (hruns : fetchRuns (s.mover t ch) = true) (hwaits : 1 ≤ occupancy (s.mover t ch)) :
    exec (.pacingTimeout t ch) s = .next (s.modMv t ch (fun _ => { s.mover t ch with fetching := true })) :=
  exec_setsMover (guardRes_next (wf_channel ht hch) rfl)
    (if_pos (Bool.and_eq_true_iff.2 ⟨hruns, decide_eq_true hwaits⟩))

end channel

/-- Settles O19, register by register. -/
theorem moverChannelRegisters : Obligations.MoverChannelRegisters := by
  unfold Obligations.MoverChannelRegisters
  intro s t ch v ht hch
  have hwf := wf_channel ht hch
  refine ⟨fun hroom => exec_setsMover (exec_tailWrite_taken ht hch hroom) (fetchCheck_eq _),
    fun hover => exec_tailWrite_refused ht hch hover, fun hen hhi => ?enable, ?disable, fun hen => ?resume,
    fun hlo hhi htimeout => ?pace, fun hbad => ?badPace, fun hruns hwaits => exec_pacingTimeout ht hch hruns hwaits⟩
  case enable => exact exec_setsMover (guardRes_next hwf rfl) (writeMvCtrl_enable hen hhi)
  case disable => exact exec_setsMover (guardRes_next hwf rfl) (writeMvCtrl_disable _)
  case resume => exact exec_setsMover (guardRes_next hwf rfl) (writeMvCtrl_resume hen)
  case pace => exact exec_setsMover (guardRes_next hwf rfl) (writeMvPace_taken ⟨hlo, hhi, htimeout⟩)
  case badPace => exact exec_setsMover (guardRes_next hwf rfl) (writeMvPace_refused hbad)

end Sys2Proof.Machine
end

section
/-!
SUPPORT. Mover descriptors in a tile without uncorrectable granules: fetch, start, transfers within the scratchpad, and
write-back (R121, R125, R128, R129, R131, R134), and the obligation O20.
-/

namespace Sys2Proof.Machine

/-! ### Writes by a mover channel (R119, R127) -/

theorem badIn_sound {p : Spad} (h : p.bad = []) (off n : Nat) : badIn p off n = [] := by simp [badIn, h]

theorem State.modSp_spWrite_sound {s : State} {t : TileId} (hsound : Sound s t) (off : Nat) (bs : List (Option Byte)) :
    s.modSp t (fun p => spWrite p off bs) = s.laid t (s.tile t).rx off bs :=
  congrArg (fun p => s.setTile t { s.tile t with sp := p }) (spWrite_sound hsound off bs)

/-- Guarded slots do not hold a mover channel back (R127). -/
theorem State.spStore_mover {s : State} {t : TileId} (hsound : Sound s t) {agent : Nat} (hagent : isMover agent = true)
    (loc off : Nat) (bs : List (Option Byte)) :
    s.spStore t agent loc off bs = s.setTile t (tileWith off bs (s.tile t)) := by
  rw [State.spStore, if_pos hagent]
  dsimp only
  rw [State.spPut, badForWrite_sound hsound]
  exact State.modSp_spWrite_sound hsound off bs

/-- The words of a mover's write, from where the first `k` bytes have been written. -/
theorem State.forEach_spStore_mover {s : State} {t : TileId} (hsound : Sound s t) {agent : Nat}
    (hagent : isMover agent = true) (loc off : Nat) (bs : List (Option Byte)) (l : List (Nat × Nat)) (hne : l ≠ []) (k : Nat)
    (hl : CutsFrom k bs.length l) :
    s.forEach l (fun c s => s.spStore t agent loc (off + c.1) ((bs.drop c.1).take c.2)) =
      s.setTile t (tileWith (off + k) (bs.drop k) (s.tile t)) := by
  induction l generalizing s k with
  | nil => exact absurd rfl hne
  | cons c r ih =>
    obtain ⟨rfl, hle, hr⟩ := hl
    rw [State.forEach, State.spStore_mover hsound hagent]
    by_cases hlast : r = []
    · subst hlast
      have hall : (bs.drop c.1).length ≤ c.2 := by
        have hend : c.1 + c.2 = bs.length := hr
        rw [List.length_drop]; omega
      rw [List.take_of_length_le hall]
      rfl
    · have hk : ((bs.drop c.1).take c.2).length = c.2 := by rw [List.length_take, List.length_drop]; omega
      have hjoin := tileWith_append (off + c.1) ((bs.drop c.1).take c.2) ((bs.drop c.1).drop c.2) (s.tile t)
      rw [hk, List.take_append_drop, List.drop_drop] at hjoin
      rw [ih ?_ hlast _ hr, State.setTile_setTile_same, State.tile_setTile_same, ← Nat.add_assoc, hjoin]
      rw [Sound, State.tile_setTile_same]
      exact hsound

theorem State.spStoreWords_mover {s : State} {t : TileId} (hsound : Sound s t) {agent : Nat}
    (hagent : isMover agent = true) (loc off : Nat) (bs : List (Option Byte)) :
    s.spStoreWords t agent loc off bs = s.laid t (s.tile t).rx off bs := by
  have hne : wordCuts off bs.length ≠ [] := by
    unfold wordCuts
    dsimp only
    split <;> exact List.cons_ne_nil _ _
  exact State.forEach_spStore_mover hsound hagent loc off bs _ hne 0 (cutsFrom_wordCuts off bs.length)

theorem isMover_mvAgent {ch : Nat} (hch : ch < 4) : isMover (mvAgent ch) = true := by
  have hfour : 1 + ch ≤ 4 := by omega
  exact Bool.and_eq_true_iff.2 ⟨decide_eq_true (Nat.le_add_right 1 ch), decide_eq_true hfour⟩

/-! ### Starting a descriptor (R129) -/

/-- A descriptor in hand that may start. -/
structure DescStarts (s : State) (t : TileId) (ch count p : Nat) (d : Desc) : Prop where
  part : s.partOfTile t = some p
  inHand : (s.mover t ch).inHand.find? (fun e => e.count == count) = some d
  may : mayStart (s.tile t) (s.mover t ch) d = true

section starts

variable {s : State} {t : TileId} {ch count p : Nat} {d : Desc} (hstarts : DescStarts s t ch count p d)
include hstarts

theorem State.startMv_runs (hcode : s.descCode p d.bytes = 0) {opc : Nat} (hopc : (mvDescOf d.bytes).opc = opc)
    (run : State → Nat → Desc → MvDesc → State) : s.startMv t ch count opc run = run s p d (mvDescOf d.bytes) := by
  obtain ⟨hpart, hhand, hmay⟩ := hstarts
  simp [State.startMv, hpart, hhand, hmay, hcode, hopc]

/-- A failing check finishes the descriptor with its code. -/
theorem State.startMv_refused (hcode : s.descCode p d.bytes ≠ 0) {opc : Nat}
    (hopc : (mvDescOf d.bytes).opc = opc ∨ s.descCode p d.bytes = 0x0001)
    (run : State → Nat → Desc → MvDesc → State) :
    s.startMv t ch count opc run = s.finishMv t ch count (s.descCode p d.bytes) 0
      (s.descLoc p (slotAddr (s.mover t ch) count) (s.descCode p d.bytes) (mvDescOf d.bytes)) := by
  obtain ⟨hpart, hhand, hmay⟩ := hstarts
  have hmine : ¬((mvDescOf d.bytes).opc ≠ opc ∧ s.descCode p d.bytes ≠ 0x0001) := by
    rintro ⟨h, h'⟩
    exact hopc.elim h h'
  simp only [State.startMv, hpart, hhand, hmay]
  exact (if_neg (by decide)).trans ((if_neg hmine).trans (if_pos hcode))

end starts

/-! ### Transfers within the scratchpad (R121, R125, R131) -/

section transfers

variable {s : State} {t : TileId} {ch : Nat} (hsound : Sound s t) {d : MvDesc}
include hsound

theorem State.deliverMv_local (hch : ch < 4) (p count : Nat) (hdst : spaceOf d.dst = 0) (data : List Byte) :
    s.deliverMv t p ch count d data none =
      (s.laid t (s.tile t).rx (bits d.dst 20 0) (enabled data)).finishMv t ch count 0 data.length 0 := by
  simp only [State.deliverMv, hdst, badForWrite_sound hsound,
    State.spStoreWords_mover hsound (isMover_mvAgent hch)]
  rfl

theorem State.runCopy_local (hch : ch < 4) (p count : Nat) (hsrc : spaceOf d.src = 0) (hdst : spaceOf d.dst = 0) :
    s.runCopy t p ch count d =
      (s.laid t (s.tile t).rx (bits d.dst 20 0) (enabled (spRead (s.tile t).sp (bits d.src 20 0) d.len))).finishMv
        t ch count 0 d.len 0 := by
  have hrun : s.runCopy t p ch count d =
      s.deliverMv t p ch count d (spRead (s.tile t).sp (bits d.src 20 0) d.len) none := by
    simp only [State.runCopy, hsrc, spGet_sound hsound, badIn_sound hsound]
    rfl
  rw [hrun, State.deliverMv_local hsound hch p count hdst, length_spRead]

/-- Row `i` of the source of a transposed copy within the scratchpad. -/
def sourceRow (sp : Spad) (d : MvDesc) (i : Nat) : List Byte :=
  spRead sp (bits d.src 20 0 + i * d.srcStride) (elemBytes d.esz d.cols)

theorem State.readRows_local (p count : Nat) (hsrc : spaceOf d.src = 0) (acc : List (List Byte)) (i n : Nat) :
    s.readRows t p ch count d acc none i n =
      (s, acc ++ (List.range' i n).map (sourceRow (s.tile t).sp d), none) := by
  induction n generalizing acc i with
  | zero => rw [State.readRows, List.range'_zero, List.map_nil, List.append_nil]
  | succ n ih =>
    have hrow : s.readRows t p ch count d acc none i (n + 1) =
        s.readRows t p ch count d (acc ++ [sourceRow (s.tile t).sp d i]) none (i + 1) n := by
      rw [State.readRows, if_pos hsrc]
      dsimp only
      rw [spGet_sound hsound, badIn_sound hsound]
      rfl
    rw [hrow, ih, List.append_assoc]
    rfl

omit hsound in
theorem transFail_sound {p : Spad} (h : p.bad = []) (rows : Nat) : transFail p d rows = none := by
  refine List.foldl_fixed' (fun c => ?_) _
  dsimp only
  rw [badForWrite_sound h]
  rfl

theorem State.runTransposed_local (p count : Nat) (hsrc : spaceOf d.src = 0) (hdst : spaceOf d.dst = 0) :
    s.runTransposed t p ch count d =
      (s.transposedWrite t (1 + ch) count d.esz (bits d.dst 20 0) d.dstStride d.cols
        ((List.range d.rows).map (sourceRow (s.tile t).sp d))).finishMv t ch count 0 d.rows 0 := by
  rw [State.runTransposed, if_neg (by rw [hsrc]; decide), State.readRows_local hsound p count hsrc, List.nil_append,
    ← List.range_eq_range']
  simp only [State.deliverRows, hdst, transFail_sound hsound, List.length_map, List.length_range]
  rfl

end transfers

/-! ### A channel in the state -/

theorem mover_modMv_same (s : State) (t : TileId) (ch : Nat) (f : Mover → Mover) :
    (s.modMv t ch f).mover t ch = f (s.mover t ch) := by
  rw [State.mover, State.modMv, State.tile_modTile_same]
  exact mget_mset_same _ _ _ _

theorem mover_modCc (s : State) (t : TileId) (ch : Nat) (f : Core → Core) :
    (s.modCc t f).mover t ch = s.mover t ch := by
  rw [State.mover, State.tile_modCc_same]
  rfl

theorem mover_laid (s : State) (t : TileId) (ch : Nat) (rx : List Flit) (off : Nat) (bs : List (Option Byte)) :
    (s.laid t rx off bs).mover t ch = s.mover t ch := by
  rw [State.mover, State.laid, State.tile_setTile_same]
  rfl

theorem State.settleMv_unfailed {s : State} {t : TileId} {ch : Nat} (h : (s.mover t ch).failure = none) :
    s.settleMv t ch = s := by
  rw [State.settleMv, h]

/-- While something is in hand a failure only waits. -/
theorem State.settleMv_inHand {s : State} {t : TileId} {ch : Nat} (h : (s.mover t ch).inHand ≠ []) :
    s.settleMv t ch = s := by
  unfold State.settleMv
  dsimp only
  split
  · rfl
  · exact if_neg (by rwa [List.isEmpty_iff])

/-! ### The commands -/

section commands

variable {s : State} {t : TileId} {ch : Nat} (ht : tileOk t = true) (hch : ch < 4) (hsound : Sound s t)
include ht hch hsound

section start

variable {count p : Nat} {d : Desc} (hstarts : DescStarts s t ch count p d) (hcode : s.descCode p d.bytes = 0)
include hstarts hcode

theorem laysThen_copy (hopc : (mvDescOf d.bytes).opc = 0x20) (hsrc : spaceOf (mvDescOf d.bytes).src = 0)
    (hdst : spaceOf (mvDescOf d.bytes).dst = 0) :
    LaysThen (.copy t ch count) s t (s.tile t).rx (bits (mvDescOf d.bytes).dst 20 0)
      (enabled (spRead (s.tile t).sp (bits (mvDescOf d.bytes).src 20 0) (mvDescOf d.bytes).len))
      (fun v => v.finishMv t ch count 0 (mvDescOf d.bytes).len 0) :=
  laysThen_of_exec (guardRes_next (wf_channel ht hch) ((State.startMv_runs hstarts hcode hopc _).trans
    (State.runCopy_local hsound hch p count hsrc hdst)))

theorem laysThen_fill (hopc : (mvDescOf d.bytes).opc = 0x22) (hdst : spaceOf (mvDescOf d.bytes).dst = 0) :
    LaysThen (.fill t ch count) s t (s.tile t).rx (bits (mvDescOf d.bytes).dst 20 0)
      (enabled (fillBytes d.bytes (mvDescOf d.bytes).len))
      (fun v => v.finishMv t ch count 0 (mvDescOf d.bytes).len 0) := by
  have hlen : (fillBytes d.bytes (mvDescOf d.bytes).len).length = (mvDescOf d.bytes).len := by simp [fillBytes]
  refine laysThen_of_exec (guardRes_next (wf_channel ht hch) ((State.startMv_runs hstarts hcode hopc _).trans ?_))
  rw [State.deliverMv_local hsound hch p count hdst, hlen]

theorem exec_transposedCopy (hopc : (mvDescOf d.bytes).opc = 0x21) (hsrc : spaceOf (mvDescOf d.bytes).src = 0)
    (hdst : spaceOf (mvDescOf d.bytes).dst = 0) :
    exec (.transposedCopy t ch count) s = .next ((s.transposedWrite t (1 + ch) count (mvDescOf d.bytes).esz
      (bits (mvDescOf d.bytes).dst 20 0) (mvDescOf d.bytes).dstStride (mvDescOf d.bytes).cols
      ((List.range (mvDescOf d.bytes).rows).map (sourceRow (s.tile t).sp (mvDescOf d.bytes)))).finishMv t ch count 0
        (mvDescOf d.bytes).rows 0) :=
  guardRes_next (wf_channel ht hch) ((State.startMv_runs hstarts hcode hopc _).trans
    (State.runTransposed_local hsound p count hsrc hdst))

omit hsound in
theorem exec_marker (hopc : (mvDescOf d.bytes).opc = 0x2F) :
    exec (.marker t ch count) s = .next (s.modMv t ch (fun m => setPhase m count (.finished 0 0))) :=
  guardRes_next (wf_channel ht hch) (State.startMv_runs hstarts hcode hopc _)

end start

/-! ### DESCRIPTOR_FETCH (R128, R134) -/

/-- A channel that fetches its next descriptor. -/
structure Fetches (s : State) (t : TileId) (ch p : Nat) : Prop where
  part : s.partOfTile t = some p
  core : (s.tile t).cc.state ≠ .halted
  enabled : (s.mover t ch).en = true
  fetching : (s.mover t ch).fetching = true
  running : (s.mover t ch).halted = false
  unfailed : (s.mover t ch).failure = none
  room : inHandCount (s.mover t ch) < 4
  waits : 1 ≤ occupancy (s.mover t ch)

/-- A channel that has taken the bytes of its next slot in hand. -/
def slotTaken (slot : List Byte) (m : Mover) : Mover :=
  let m1 := { m with fetched := (m.fetched + 1) % 65536, inHand := m.inHand ++ [Desc.mk m.fetched slot .fetched] }
  { m1 with fetching := decide (m1.lo < occupancy m1) }

/-- A channel whose next slot, at an address, is not its own (R128). -/
def slotForeign (a : Nat) (m : Mover) : Mover :=
  skipFetched { m with violation := true, fetching := false, failure := some (0x0405, m.fetched, a) }

theorem exec_descriptorFetch {p : Nat} (hfetch : Fetches s t ch p) {slot : List Byte}
    (hslot : spRead (s.tile t).sp (slotAddr (s.mover t ch) (s.mover t ch).fetched) 32 = slot) :
    exec (.descriptorFetch t ch) s = .next
      (if (mvDescOf slot).own then
        (s.modMv t ch (slotTaken slot)).trace t 2 (leBytes 1 (mvDescOf slot).opc ++ leBytes 1 (2 + ch))
      else (s.modMv t ch (slotForeign (slotAddr (s.mover t ch) (s.mover t ch).fetched))).settleMv t ch) := by
  obtain ⟨hpart, hcore, hen, hfetching, hhalted, hfailure, hroom, hwaits⟩ := hfetch
  subst hslot
  refine guardRes_next (wf_channel ht hch) ((if_neg ?_).trans ?_)
  · simp [hpart, hcore, hen, hfetching, hhalted, hfailure, hroom, hwaits]
  · simp only [spGet_sound hsound, bne_self_eq_false, Bool.or_false]
    rfl

theorem exec_descriptorFetch_own {p : Nat} (hfetch : Fetches s t ch p) {slot : List Byte}
    (hslot : spRead (s.tile t).sp (slotAddr (s.mover t ch) (s.mover t ch).fetched) 32 = slot)
    (hown : (mvDescOf slot).own = true) (htrace : s.traceMode t = 0) :
    exec (.descriptorFetch t ch) s = .next (s.modMv t ch (slotTaken slot)) := by
  have huntraced : (s.modMv t ch (slotTaken slot)).traceMode t = 0 := htrace
  rw [exec_descriptorFetch ht hch hsound hfetch hslot, if_pos hown, State.trace, huntraced]
  rfl

theorem answers_descriptorFetch_foreign {p : Nat} (hfetch : Fetches s t ch p) {slot : List Byte}
    (hslot : spRead (s.tile t).sp (slotAddr (s.mover t ch) (s.mover t ch).fetched) 32 = slot)
    (hown : (mvDescOf slot).own = false) (hhand : (s.mover t ch).inHand ≠ []) :
    Answers (.descriptorFetch t ch) s (fun u => (u.mover t ch).violation = true ∧ (u.mover t ch).fetching = false ∧
      (u.mover t ch).failure =
        some (0x0405, (s.mover t ch).fetched, slotAddr (s.mover t ch) (s.mover t ch).fetched) ∧
      (u.mover t ch).fetched = (s.mover t ch).fetched) := by
  refine ⟨_, exec_descriptorFetch ht hch hsound hfetch hslot, ?_⟩
  have hmover := mover_modMv_same s t ch (slotForeign (slotAddr (s.mover t ch) (s.mover t ch).fetched))
  rw [if_neg (by rw [hown]; decide), State.settleMv_inHand]
  · dsimp only
    rw [hmover]
    exact ⟨rfl, rfl, rfl, rfl⟩
  · rw [hmover]
    simpa [slotForeign, skipFetched] using hhand

/-! ### DESCRIPTOR_WRITEBACK (R129) -/

/-- A channel whose oldest descriptor has been written back. -/
def writtenOff (rest : List Desc) (status : Nat) (m : Mover) : Mover :=
  { m with inHand := rest, done := (m.done + 1) % 65536, lastStatus := if status = 0 then m.lastStatus else status }

/-- A core that a descriptor with IRQ signals. -/
def irqSignalled (irq : Bool) (ch : Nat) (c : Core) : Core :=
  if irq then { c with events := setBit c.events (1 + ch) true } else c

omit ht hch hsound in
theorem State.modMv_irqSignalled (v : State) (f : Mover → Mover) (irq : Bool) :
    (if irq then (v.modMv t ch f).modCc t (fun c => { c with events := setBit c.events (1 + ch) true })
      else v.modMv t ch f) = (v.modMv t ch f).modCc t (irqSignalled irq ch) := by
  unfold irqSignalled
  split
  · rfl
  · exact (v.modTile_modTile_same t (fun T => { T with mv := mmod {} T.mv ch f }) (fun T => { T with cc := T.cc })).symm

theorem laysThen_descriptorWriteback {d : Desc} {rest : List Desc} {status done : Nat}
    (hhand : (s.mover t ch).inHand = d :: rest) (hphase : d.phase = .finished status done)
    (hfailure : (s.mover t ch).failure = none) :
    LaysThen (.descriptorWriteback t ch) s t (s.tile t).rx (slotAddr (s.mover t ch) d.count)
      (enabled (writtenBack d status done))
      (fun v => (v.modMv t ch (writtenOff rest status)).modCc t (irqSignalled (mvDescOf d.bytes).irq ch)) := by
  refine laysThen_of_exec (guardRes_next (wf_channel ht hch) ?_)
  simp only [hhand, hphase]
  rw [State.modSp_spWrite_sound hsound]
  refine (congrArg (State.settleMv · t ch) (State.modMv_irqSignalled _ (writtenOff rest status) _)).trans ?_
  refine State.settleMv_unfailed ?_
  rw [mover_modCc, mover_modMv_same, mover_laid]
  exact hfailure

end commands

/-- Settles O20, by the command. -/
theorem moverDescriptors : Obligations.MoverDescriptors := by
  unfold Obligations.MoverDescriptors
  intro s t ch count p d ht hch hpart m x starts slot fetches
  have hwf := wf_channel ht hch
  have hstarts : starts → DescStarts s t ch count p d := fun ⟨_, hhand, hmay⟩ => ⟨hpart, hhand, hmay⟩
  have hfetches : fetches → Fetches s t ch p :=
    fun ⟨_, hcore, hen, hfetching, hhalted, hfailure, hroom, hwaits⟩ =>
      ⟨hpart, hcore, hen, hfetching, hhalted, hfailure, hroom, hwaits⟩
  refine ⟨fun h hown htrace => ?fetch, fun h hown hhand => ?foreign, fun h hcode hopc hsrc hdst => ?copy,
    fun h hcode hopc hsrc hdst => ?transposed, fun h hcode hopc hdst => ?fill, fun h hcode hopc => ?marker,
    fun e he => ?refused, fun rest status done hsound hhand hphase hfailure => ?writeback⟩
  case fetch => exact exec_setsMover (exec_descriptorFetch_own ht hch h.1 (hfetches h) rfl hown htrace) rfl
  case foreign => exact answers_descriptorFetch_foreign ht hch h.1 (hfetches h) rfl hown hhand
  case copy => exact laysThen_copy ht hch h.1 (hstarts h) hcode hopc hsrc hdst
  case transposed => exact exec_transposedCopy ht hch h.1 (hstarts h) hcode hopc hsrc hdst
  case fill => exact laysThen_fill ht hch h.1 (hstarts h) hcode hopc hdst
  case marker => exact exec_marker ht hch (hstarts h) hcode hopc
  case refused =>
    intro code h hcode hopc
    have hrefused := fun opc hopc => State.startMv_refused (opc := opc) (hstarts h) hcode hopc
    simp only [List.mem_cons, List.not_mem_nil, or_false] at he
    rcases he with rfl | rfl | rfl | rfl
    · exact guardRes_next hwf (hrefused 0x20 hopc _)
    · exact guardRes_next hwf (hrefused 0x21 hopc _)
    · exact guardRes_next hwf (hrefused 0x22 hopc _)
    · exact guardRes_next hwf (hrefused 0x2F hopc _)
  case writeback => exact laysThen_descriptorWriteback ht hch hsound hhand hphase hfailure

end Sys2Proof.Machine
end

section
/-!
SUPPORT. Accesses of a partition's stack space within one 64-byte unit, failed stacks and patrol scrubbing (R137, R138,
R140, R262), and the obligation O21.
-/

namespace Sys2Proof.Machine

/-! ### Device addresses and bytes within a unit (R138) -/

/-- Within a 64-byte unit device addresses follow the addresses of the partition's space: no extent ends there. -/
theorem State.devAddr_add {s : State} {p addr da i : Nat} (h : s.devAddr p addr = some da) (hi : addr % 64 + i < 64) :
    s.devAddr p (addr + i) = some (da + i) := by
  have hextent : (addr + i) / 2 ^ 28 = addr / 2 ^ 28 := by omega
  simp only [State.devAddr, hextent, Option.map_eq_some_iff] at h ⊢
  obtain ⟨e, he, rfl⟩ := h
  exact ⟨e, he, by omega⟩

theorem State.stackBytes_unit {s : State} {p addr da n : Nat} (h : ∀ i < n, s.devAddr p (addr + i) = some (da + i)) :
    s.stackBytes p addr n = (List.range n).map (fun i => mget 0 s.stk.mem (da + i)) := by
  refine List.map_congr_left fun i hi => ?_
  rw [h i (List.mem_range.1 hi)]
  rfl

/-- A state with bytes laid over the stacks from a device address. -/
def State.stackLaid (s : State) (da : Nat) (bs : List Byte) : State :=
  { s with stk := { s.stk with mem := mwriteOpt 0 s.stk.mem da (enabled bs) } }

theorem State.putStack_unit {s : State} {p addr da : Nat} {bs : List Byte}
    (h : ∀ i < bs.length, s.devAddr p (addr + i) = some (da + i)) : s.putStack p addr bs = s.stackLaid da bs := by
  induction bs generalizing s addr da with
  | nil => rfl
  | cons b r ih =>
    have hfirst : s.devAddr p addr = some da := h 0 (Nat.zero_lt_succ _)
    rw [State.putStack, hfirst]
    refine (ih (addr := addr + 1) (da := da + 1) fun i hi => ?_).trans rfl
    rw [Nat.add_assoc, Nat.add_assoc, Nat.add_comm 1 i]
    exact h (i + 1) (Nat.succ_lt_succ hi)

/-! ### One unit as the stack controller meets it (R140) -/

section unit

variable {s : State} {da : Nat}

theorem State.meetUnit_offline (h : s.stackState (s.stackOf da) ≠ 0) (f : UnitFind) (whole : Bool) :
    s.meetUnit da f whole = (s, 0x0408) := if_pos h

section online

variable (honline : s.stackState (s.stackOf da) = 0)
include honline

theorem State.meetUnit_uncorrectable :
    s.meetUnit da .uncorrectable false = ((s.setBad (da / 64) true).odAdd 0x3310 8 1, 0x0404) :=
  (if_neg (not_not.2 honline)).trans ((if_neg (by decide)).trans (if_pos (.inl rfl)))

variable (hgood : da / 64 ∉ s.stk.bad)
include hgood

theorem State.meetUnit_clean : s.meetUnit da .clean false = (s, 0) :=
  (if_neg (not_not.2 honline)).trans ((if_neg (by decide)).trans (if_neg (by simp [hgood])))

theorem State.meetUnit_oneSymbol : s.meetUnit da .oneSymbol false = (s.odAdd 0x3310 7 1, 0) :=
  (if_neg (not_not.2 honline)).trans ((if_neg (by decide)).trans (if_neg (by simp [hgood])))

end online

end unit

/-! ### A range within one unit -/

section range

variable {s : State} {p addr len da : Nat} (hlen : 1 ≤ len) (hunit : addr % 64 + len ≤ 64)
  (hda : s.devAddr p addr = some da)
include hlen hunit hda

/-- A read, or a write that does not replace the unit whole, meets one unit: it does all its bytes or none. -/
theorem State.meetUnits_unit {wr : Bool} (hpart : wr = false ∨ len < 64) (f : UnitFind) :
    s.meetUnits p addr len wr [f] (addr / 64) (unitCount addr len) =
      ((s.meetUnit da f false).1, if (s.meetUnit da f false).2 = 0 then len else 0, (s.meetUnit da f false).2) := by
  have hone : unitCount addr len = 1 := by
    rw [unitCount, if_neg (by omega)]
    omega
  have hstart : max (64 * (addr / 64)) addr = addr := by omega
  have hwhole : (wr && decide (addr ≤ 64 * (addr / 64)) && decide (64 * (addr / 64) + 64 ≤ addr + len)) = false := by
    rcases hpart with rfl | h
    · rfl
    · have hends : ¬(addr ≤ 64 * (addr / 64) ∧ 64 * (addr / 64) + 64 ≤ addr + len) := by omega
      rw [Bool.and_assoc, ← Bool.decide_and, decide_eq_false hends, Bool.and_false]
  rw [hone, State.meetUnits]
  dsimp only
  rw [hstart, hda]
  dsimp only
  rw [hwhole, Nat.sub_self, List.headD_cons]
  by_cases hcode : (s.meetUnit da f false).2 = 0
  · rw [if_neg (not_not.2 hcode), if_pos hcode, hcode]
    rfl
  · rw [if_pos hcode, if_neg hcode]

variable (hlimit : addr + len ≤ s.stackLimit p)
include hlimit

theorem State.stackRead_unit (f : UnitFind) :
    s.stackRead p addr len [f] = ((s.meetUnit da f false).1,
      s.stackBytes p addr (if (s.meetUnit da f false).2 = 0 then len else 0), (s.meetUnit da f false).2) := by
  rw [State.stackRead, if_neg (Nat.not_lt.2 hlimit), State.meetUnits_unit hlen hunit hda (.inl rfl)]

theorem State.stackWrite_unit {bs : List Byte} (hbs : bs.length = len) (hpart : len < 64)
    (honline : s.stackState (s.stackOf da) = 0) (hgood : da / 64 ∉ s.stk.bad) :
    s.stackWrite p addr bs [.clean] = (s.stackLaid da bs, len, 0) := by
  have hbytes : ∀ i < bs.length, s.devAddr p (addr + i) = some (da + i) :=
    fun i hi => State.devAddr_add hda (by omega)
  rw [State.stackWrite, hbs, if_neg (Nat.not_lt.2 hlimit), State.meetUnits_unit hlen hunit hda (.inr hpart),
    State.meetUnit_clean honline hgood]
  dsimp only
  rw [if_pos rfl, ← hbs, List.take_length, State.putStack_unit hbytes]

end range

theorem State.stackRead_outside {s : State} {p addr len : Nat} (h : s.stackLimit p < addr + len) (found : List UnitFind) :
    s.stackRead p addr len found = (s, [], 0x0402) := if_pos h

/-! ### STACK_ACCESS (R140, R262) -/

@[simp] theorem State.inlinePlain_nil (s : State) (p a : Nat) : s.inlinePlain p a [] = [] := by
  unfold State.inlinePlain
  dsimp only
  split <;> rfl

/-- Damage to handles leaves all but the partitions. -/
theorem State.forEach_damage_frame (s : State) (p : Nat) (l : List Nat) :
    ∃ parts, s.forEach l (fun h s => s.damage p h) = { s with parts := parts } := by
  induction l generalizing s with
  | nil => exact ⟨_, rfl⟩
  | cons h r ih =>
    obtain ⟨parts, hparts⟩ := ih (s.damage p h)
    exact ⟨parts, hparts⟩

section access

variable {s w : State} {p addr len code : Nat} {found : List UnitFind} (hp : p < 32) (hawake : s.stk.selfRefresh = false)
include hp hawake

theorem exec_stackAccess_read {bs : List Byte} (hread : s.stackRead p addr len found = (w, bs, code))
    (hcode : code ≠ 0x0404) :
    exec (.stackAccess p addr len none found) s = .next (w.emit (.stack p addr code (s.inlinePlain p addr bs))) := by
  refine guardRes_next (decide_eq_true hp) ((if_neg (by simp [hawake])).trans ?_)
  simp only [State.programRead, hread, if_neg hcode]

/-- A read that an uncorrectable unit ends answers the bytes before it, and damages the handles that hold it. -/
theorem answers_stackAccess_read_bad {bs : List Byte} (hread : s.stackRead p addr len found = (w, bs, 0x0404)) :
    Answers (.stackAccess p addr len none found) s (fun u => ∃ parts,
      u = { w.emit (.stack p addr 0x0404 (s.inlinePlain p addr bs)) with parts := parts }) := by
  obtain ⟨parts, hparts⟩ := w.forEach_damage_frame p (handlesAt (s.part p) ((addr + bs.length) / 64 * 64) 64)
  refine ⟨_, guardRes_next (decide_eq_true hp) (if_neg (by simp [hawake])), parts, ?_⟩
  simp only [State.programRead, hread, if_true, hparts]
  rfl

theorem exec_stackAccess_write {bs : List Byte} {n : Nat} (hwrite : s.stackWrite p addr bs found = (w, n, code)) :
    exec (.stackAccess p addr len (some bs) found) s = .next (w.emit (.stack p addr code [])) := by
  refine guardRes_next (decide_eq_true hp) ((if_neg (by simp [hawake])).trans ?_)
  simp only [hwrite]

theorem exec_stackAccess_outside {write : Option (List Byte)} (hover : s.stackLimit p < addr + len)
    (hwrite : ∀ bs, write = some bs → bs.length = len) :
    exec (.stackAccess p addr len write found) s = .next (s.emit (.stack p addr 0x0402 [])) := by
  cases write with
  | none =>
    rw [exec_stackAccess_read hp hawake (State.stackRead_outside hover found) (by decide), State.inlinePlain_nil]
  | some bs =>
    rw [← hwrite bs rfl] at hover
    exact exec_stackAccess_write hp hawake (if_pos hover)

variable {da : Nat} (hlen : 1 ≤ len) (hunit : addr % 64 + len ≤ 64) (hlimit : addr + len ≤ s.stackLimit p)
  (hda : s.devAddr p addr = some da)
include hlen hunit hlimit hda

theorem exec_stackAccess_offline (hoffline : s.stackState (s.stackOf da) ≠ 0) :
    exec (.stackAccess p addr len none [.clean]) s = .next (s.emit (.stack p addr 0x0408 [])) := by
  have hread : s.stackRead p addr len [.clean] = (s, [], 0x0408) := by
    rw [State.stackRead_unit hlen hunit hda hlimit, State.meetUnit_offline hoffline]
    rfl
  rw [exec_stackAccess_read hp hawake hread (by decide), State.inlinePlain_nil]

variable (honline : s.stackState (s.stackOf da) = 0)
include honline

theorem exec_stackAccess_clean (hgood : da / 64 ∉ s.stk.bad) :
    exec (.stackAccess p addr len none [.clean]) s = .next (s.emit (.stack p addr 0 (s.inlinePlain p addr
      ((List.range len).map (fun i => mget 0 s.stk.mem (da + i)))))) := by
  have hbytes : ∀ i < len, s.devAddr p (addr + i) = some (da + i) := fun i hi => State.devAddr_add hda (by omega)
  have hread : s.stackRead p addr len [.clean] = (s, (List.range len).map (fun i => mget 0 s.stk.mem (da + i)), 0) := by
    rw [State.stackRead_unit hlen hunit hda hlimit, State.meetUnit_clean honline hgood, ← State.stackBytes_unit hbytes]
    rfl
  exact exec_stackAccess_read hp hawake hread (by decide)

theorem answers_stackAccess_write (hgood : da / 64 ∉ s.stk.bad) {bs : List Byte} (hbs : bs.length = len)
    (hpart : len < 64) :
    Answers (.stackAccess p addr len (some bs) [.clean]) s (fun u =>
      Laid s.stk.mem u.stk.mem da (enabled bs) ∧
      u = { s with stk := { s.stk with mem := u.stk.mem }, out := s.out ++ [.stack p addr 0 []] }) :=
  ⟨_, exec_stackAccess_write hp hawake (State.stackWrite_unit hlen hunit hda hlimit hbs hpart honline hgood),
    laid_mwriteOpt (enabled bs) s.stk.mem da, rfl⟩

theorem answers_stackAccess_uncorrectable :
    Answers (.stackAccess p addr len none [.uncorrectable]) s (fun u =>
      u.out = s.out ++ [.stack p addr 0x0404 []] ∧ da / 64 ∈ u.stk.bad ∧ u.odG 0x3310 8 = s.odG 0x3310 8 + 1 ∧
      u.stk.mem = s.stk.mem) := by
  have hread : s.stackRead p addr len [.uncorrectable] = ((s.setBad (da / 64) true).odAdd 0x3310 8 1, [], 0x0404) := by
    rw [State.stackRead_unit hlen hunit hda hlimit, State.meetUnit_uncorrectable honline]
    rfl
  obtain ⟨u, hexec, parts, rfl⟩ := answers_stackAccess_read_bad hp hawake hread
  rw [State.inlinePlain_nil] at hexec
  exact ⟨_, hexec, rfl, List.mem_cons_self, State.odG_odAdd_same (s.setBad (da / 64) true) 0x3310 8 1, rfl⟩

end access

/-! ### STACK_FAILURE and PATROL_SCRUB (R137, R140) -/

theorem exec_stackFailure {s : State} {k : Nat} (hk : k < 16) (honline : s.stackState k = 0) :
    exec (.stackFailure k) s = .next ((s.odSet 0x3311 (k + 1) 2).log
      { rule := 137, status := 0x0408, sev := 2, source := 3, data := [k] }) :=
  guardRes_next (decide_eq_true hk) (if_pos honline)

section scrub

variable {s : State} {da : Nat} (haway : s.hub.away = false) (hunit : da % 64 = 0)
  (honline : s.stackState (s.stackOf da) = 0) (hbad : s.stk.bad = [])

include haway hbad in
/-- With no uncorrectable unit known a scrub meets what it finds alone. -/
theorem exec_patrolScrub (f : UnitFind) : exec (.patrolScrub [(da, f)]) s = .next (s.scrubUnit (da, f)) := by
  refine guardRes_next rfl ((if_neg (by simp [haway])).trans ?_)
  simp [State.scrubFinds, hbad, State.forEach]

include haway hunit honline hbad

theorem exec_patrolScrub_oneSymbol : exec (.patrolScrub [(da, .oneSymbol)]) s = .next (s.odAdd 0x3310 7 1) := by
  have hplace : da / 64 * 64 = da := by omega
  rw [exec_patrolScrub haway hbad, State.scrubUnit]
  dsimp only
  rw [hplace, State.meetUnit_oneSymbol honline (by simp [hbad])]
  rfl

theorem exec_patrolScrub_uncorrectable :
    exec (.patrolScrub [(da, .uncorrectable)]) s = .next (((s.setBad (da / 64) true).odAdd 0x3310 8 1).log
      { rule := 140, status := 0x0404, sev := 2, source := 3, data := [s.stackOf da, da / 2 ^ 28, da % 2 ^ 28] }) := by
  have hplace : da / 64 * 64 = da := by omega
  rw [exec_patrolScrub haway hbad, State.scrubUnit]
  dsimp only
  rw [hplace, State.meetUnit_uncorrectable honline]
  rfl

end scrub

/-- Settles O21, by the command and what its unit holds. -/
theorem stackAccesses : Obligations.StackAccesses := by
  unfold Obligations.StackAccesses
  intro s p addr len da hp hawake hlen hunit
  refine ⟨fun ⟨hlimit, hda⟩ honline hgood => ?clean, fun bs ⟨hlimit, hda⟩ honline hgood hbs hpart => ?write,
    fun ⟨hlimit, hda⟩ honline => ?uncorrectable, fun ⟨hlimit, hda⟩ hoffline => ?offline,
    fun w hover hw => exec_stackAccess_outside hp hawake hover hw, fun k hk honline => exec_stackFailure hk honline,
    fun haway hda honline hbad => exec_patrolScrub_oneSymbol haway hda honline hbad,
    fun haway hda honline hbad => exec_patrolScrub_uncorrectable haway hda honline hbad⟩
  case clean => exact exec_stackAccess_clean hp hawake hlen hunit hlimit hda honline hgood
  case write => exact answers_stackAccess_write hp hawake hlen hunit hlimit hda honline hgood hbs hpart
  case uncorrectable => exact answers_stackAccess_uncorrectable hp hawake hlen hunit hlimit hda honline
  case offline => exact exec_stackAccess_offline hp hawake hlen hunit hlimit hda hoffline

end Sys2Proof.Machine
end

section
/-!
SUPPORT. Rings of a bound VF (R282, R284–R288): version, enable, doorbells, records, submission fetch and interrupts, and
the obligation O34.
-/

namespace Sys2Proof.Machine

/-! ### Interrupts and violations (R284, R292) -/

section signals

variable (s : State) (port : Port) (fn : Nat)

theorem State.interrupt_out (vector : Nat) :
    (s.interrupt port fn vector).out = s.out ++ signalOut port fn (s.fn port fn) vector := by
  unfold State.interrupt signalOut
  split
  · exact (List.append_nil _).symm
  · rfl

theorem State.interrupt_odG (vector idx sub : Nat) : (s.interrupt port fn vector).odG idx sub = s.odG idx sub := by
  obtain ⟨fns, out, e, -⟩ := s.interrupt_frame port fn vector
  rw [e]
  rfl

/-- A vector signalled changes of the function at most what is pending. -/
theorem signalled_frame (f : Function) (vector : Nat) : ∃ pba, signalled f vector = { f with pba := pba } := by
  unfold signalled
  split
  · exact ⟨_, rfl⟩
  · exact ⟨f.pba, rfl⟩

/-- A VF's violation signals its vector 2. -/
theorem State.violate_out (h0 : fn ≠ 0) (status value addr : Nat) :
    (s.violate port fn status value addr).out = s.out ++ signalOut port fn (s.fn port fn) 2 := by
  unfold State.violate
  dsimp only
  rw [if_neg h0, State.interrupt_out, State.log_out, State.log_fn, State.odAdd_fn, State.fn_modFn_same]
  rfl

/-- A violation is counted for its port. -/
theorem State.violate_count (h0 : fn ≠ 0) (status value addr : Nat) :
    (s.violate port fn status value addr).odG 0x6000 (6 + portNum port) = s.odG 0x6000 (6 + portNum port) + 1 := by
  have hsub : 6 + portNum port < 256 := by cases port <;> decide
  unfold State.violate
  dsimp only
  rw [if_neg h0, State.interrupt_odG, State.log_odG _ _ (by decide) hsub, State.odG_odAdd_same]
  rfl

/-- An interrupt of a function just changed changes that function and what goes out alone. -/
theorem State.interrupt_modFn_eq (f : Function → Function) (vector : Nat) :
    (s.modFn port fn f).interrupt port fn vector =
      ({ s with out := s.out ++ signalOut port fn (f (s.fn port fn)) vector }).modFn port fn
        (fun _ => signalled (f (s.fn port fn)) vector) := by
  unfold State.interrupt signalled signalOut
  rw [State.fn_modFn_same]
  split
  · rw [State.modFn_modFn_same, List.append_nil]
    rfl
  · rfl

end signals

theorem answers_violate {c : Instr} {s : State} {port : Port} {fn : Nat} (h0 : fn ≠ 0) {code value off : Nat}
    (hexec : exec c s = .next (s.violate port fn code value off)) :
    Answers c s (fun u => u.out = s.out ++ signalOut port fn (s.fn port fn) 2 ∧
      u.fn port fn = violated (s.fn port fn) fn code value off ∧
      u.odG 0x6000 (6 + portNum port) = s.odG 0x6000 (6 + portNum port) + 1) :=
  ⟨_, hexec, s.violate_out port fn h0 _ _ _, s.violate_fn_same port fn _ _ _, s.violate_count port fn h0 _ _ _⟩

/-! ### Records (R288) -/

theorem State.odSetP_frame (s : State) (i b p v : Nat) : ∃ od, s.odSetP i b p v = { s with od := od } := ⟨_, rfl⟩

/-- Counts of held requests are of the dictionary. -/
theorem State.countHeld_frame (s : State) (p : Nat) : ∃ od, s.countHeld p = { s with od := od } := by
  obtain ⟨od, h⟩ := s.odSetP_frame 0x5000 9 p (s.part p).reqs.length
  obtain ⟨od', h'⟩ := (s.odSetP 0x5000 9 p (s.part p).reqs.length).odSetP_frame 0x5000 0x13 0xFF s.heldAll
  exact ⟨od', h'.trans (by rw [h])⟩

/-- Entries freed change the partitions and their counts alone. -/
theorem State.freeEntries_frame (s : State) (p : Nat) : ∃ parts od, s.freeEntries p = { s with parts := parts, od := od } := by
  unfold State.freeEntries
  dsimp only
  split
  · exact ⟨s.parts, s.od, rfl⟩
  · obtain ⟨od, hcount⟩ := State.countHeld_frame (s.modPart p _) p
    exact ⟨_, od, hcount⟩

@[simp] theorem State.freeEntries_out (s : State) (p : Nat) : (s.freeEntries p).out = s.out := by
  obtain ⟨parts, od, e⟩ := s.freeEntries_frame p
  rw [e]

@[simp] theorem State.freeEntries_fn (s : State) (p : Nat) (port : Port) (fn : Nat) :
    (s.freeEntries p).fn port fn = s.fn port fn := by
  obtain ⟨parts, od, e⟩ := s.freeEntries_frame p
  rw [e]
  rfl

/-- A function whose oldest held record has been written. -/
def recordWritten (f : Function) : Function := { f with cqTail := (f.cqTail + 1) % 65536, held := f.held.drop 1 }

/-- A function whose one held record has been written and signalled. -/
def recordOut (f : Function) : Function := { f with cqTail := (f.cqTail + 1) % 65536, held := [], unsignalled := 0 }

/-- Where a function's next completion record goes. -/
def recordSlot (f : Function) : Nat := f.cqBase + f.cqTail % 2 ^ f.cqSize * 64

/-- The state in which a record has been written at its slot, and the entries that it frees are FREE. -/
def State.recordSent (s : State) (port : Port) (fn : Nat) (b : List Byte) : State :=
  ((s.emit (.hostWrite port fn (recordSlot (s.fn port fn)) b)).modFn port fn recordWritten).freeEntries (vfPart fn)

section records

variable {s : State} {port : Port} {fn : Nat}

theorem State.pumpRecords_none (hheld : (s.fn port fn).held = []) : s.pumpRecords port fn = s := by
  unfold State.pumpRecords
  rw [hheld]
  split
  · rfl
  · rfl

theorem State.recordSent_fn (b : List Byte) : (s.recordSent port fn b).fn port fn = recordWritten (s.fn port fn) :=
  (State.freeEntries_fn _ _ _ _).trans (State.fn_modFn_same _ _ _ _)

theorem State.writeRecords_one (hroom : cqUsed (s.fn port fn) < 2 ^ (s.fn port fn).cqSize) (b : List Byte) :
    s.writeRecords port fn [b] =
      ((s.emit (.hostWrite port fn (recordSlot (s.fn port fn)) b)).modFn port fn recordWritten, 1) := by
  rw [State.writeRecords]
  exact (if_neg (Nat.not_le.2 hroom)).trans rfl

/-- One held record: it goes out at its slot, then the shadow block, then the interrupt that COAL_CNT makes due. -/
theorem State.pumpRecords_one {b : List Byte} (hheld : (s.fn port fn).held = [b]) (hmove : s.ringsMove port fn = true)
    (hroom : cqUsed (s.fn port fn) < 2 ^ (s.fn port fn).cqSize)
    (hcoal : (s.fn port fn).coalCnt ≤ (s.fn port fn).unsignalled + 1) :
    s.pumpRecords port fn = (((s.recordSent port fn b).emit (.hostWrite port fn (s.fn port fn).shadow
      (shadowBytes (recordWritten (s.fn port fn))))).modFn port fn (fun f => { f with unsignalled := 0 })).interrupt
        port fn 0 := by
  unfold State.pumpRecords
  rw [hmove, hheld, State.writeRecords_one hroom]
  dsimp only
  rw [State.fn_modFn_same]
  exact (if_neg (by decide)).trans ((if_neg (by decide)).trans (if_pos hcoal))

/-- What `State.pumpRecords_one` makes of the function, and what goes out. -/
theorem State.pumpRecords_one_shown {f : Function} (hf : s.fn port fn = f) {b : List Byte} (hheld : f.held = [b])
    (hmove : s.ringsMove port fn = true) (hroom : cqUsed f < 2 ^ f.cqSize) (hcoal : f.coalCnt ≤ f.unsignalled + 1) :
    (s.pumpRecords port fn).fn port fn = signalled (recordOut f) 0 ∧
    (s.pumpRecords port fn).out = s.out ++ [Emission.hostWrite port fn (recordSlot f) b,
      Emission.hostWrite port fn f.shadow (shadowBytes (recordOut f))] ++ signalOut port fn f 0 := by
  subst hf
  have hout : (s.recordSent port fn b).out = s.out ++ [Emission.hostWrite port fn (recordSlot (s.fn port fn)) b] :=
    State.freeEntries_out _ _
  have hdone : { recordWritten (s.fn port fn) with unsignalled := 0 } = recordOut (s.fn port fn) := by
    simp [recordWritten, recordOut, hheld]
  have hfn : (s.recordSent port fn b).fn port fn = recordWritten (s.fn port fn) := State.recordSent_fn b
  rw [State.pumpRecords_one hheld hmove hroom hcoal, State.interrupt_fn_same, State.interrupt_out, State.fn_modFn_same,
    State.modFn_out, State.emit_out, hout, State.fn, State.emit_fns]
  rw [State.fn] at hfn
  rw [hfn, hdone, List.append_assoc s.out]
  exact ⟨rfl, rfl⟩

end records

/-! ### Registers of a VF (R282) -/

section vf

variable {s : State} {port : Port} {fn : Nat} {v : Word} (h1 : 1 ≤ fn) (h32 : fn ≤ 32)

theorem State.vfWrite_bound (h1 : 1 ≤ fn) (hb : s.bound port fn = true) (off value : Nat) (f : State → State) :
    s.vfWrite port fn off value f = f s :=
  (if_neg (Nat.one_le_iff_ne_zero.1 h1)).trans (if_pos hb)

theorem State.vfWrite_unbound (h1 : 1 ≤ fn) (hb : s.bound port fn = false) (off value : Nat) (f : State → State) :
    s.vfWrite port fn off value f = s.violate port fn 0x0A04 value off :=
  (if_neg (Nat.one_le_iff_ne_zero.1 h1)).trans (if_neg (by simp [hb]))

/-- A command that changes one function sets it to what the change makes of it. -/
theorem setsFn_of_exec {c : Instr} {f : Function → Function} {g : Function} (hexec : exec c s = .next (s.modFn port fn f))
    (hg : f (s.fn port fn) = g) : SetsFn c s port fn g := by
  subst hg
  exact hexec

/-- The first failing check of an enable is that of the version (R286). -/
theorem State.enableFails_version (h : (s.fn port fn).neg = 0) : s.enableFails port fn = some (0x0A08, 0) := if_pos h

/-- A function whose rings have been started from the doorbells (R286). -/
def ringsStarted (f : Function) : Function :=
  { f with en := true, fetched := f.sqTail, taken := f.sqTail, cqTail := f.cqHead, descs := [], reading := none,
           blocked := false, fetching := false }

/-- A function whose completion doorbell has been written. -/
def headMoved (head : Nat) (f : Function) : Function := { f with cqHead := head }

theorem State.ringsMove_headMoved (head : Nat) :
    (s.modFn port fn (headMoved head)).ringsMove port fn = s.ringsMove port fn := by
  unfold State.ringsMove
  rw [State.fn_modFn_same]
  rfl

section bound

variable (hb : s.bound port fn = true)
include h1 h32 hb

/-! ### HQ_VER_WRITE (R285) -/

theorem exec_hqVerWrite_bound : exec (.hqVerWrite port fn v) s = .next (s.negotiateVer port fn v.toNat) :=
  guardRes_next (decide_eq_true h32) (State.vfWrite_bound h1 hb _ _ _)

theorem exec_hqVerWrite_agreed (hen : (s.fn port fn).en = false) {ver : Nat}
    (hver : min (v.toNat / 65536) (s.odG 0x1010 1) = ver) (hhost : v.toNat % 65536 ≤ ver) (hhub : s.odG 0x1011 1 ≤ ver) :
    exec (.hqVerWrite port fn v) s = .next
      ((s.modFn port fn (fun _ => { s.fn port fn with neg := ver, verResult := 0 })).odSet 0x6002 fn ver) := by
  subst hver
  rw [exec_hqVerWrite_bound h1 h32 hb, State.negotiateVer, if_neg (by simp [hen])]
  dsimp only
  rw [decide_eq_true hhost, decide_eq_true hhub, if_pos hb]
  rfl

theorem exec_hqVerWrite_low (hen : (s.fn port fn).en = false) {ver : Nat}
    (hver : min (v.toNat / 65536) (s.odG 0x1010 1) = ver) (hlow : ver < v.toNat % 65536 ∨ ver < s.odG 0x1011 1) :
    exec (.hqVerWrite port fn v) s = .next
      ((s.modFn port fn (fun _ => { s.fn port fn with neg := 0, verResult := 0x0008 })).odSet 0x6002 fn 0) := by
  subst hver
  have hbad : (decide (v.toNat % 65536 ≤ min (v.toNat / 65536) (s.odG 0x1010 1)) &&
      decide (s.odG 0x1011 1 ≤ min (v.toNat / 65536) (s.odG 0x1010 1))) = false := by
    rw [← Bool.decide_and, decide_eq_false_iff_not]
    omega
  rw [exec_hqVerWrite_bound h1 h32 hb, State.negotiateVer, if_neg (by simp [hen])]
  dsimp only
  rw [hbad, if_pos hb]
  rfl

theorem setsFn_hqVerWrite_enabled (hen : (s.fn port fn).en = true) :
    SetsFn (.hqVerWrite port fn v) s port fn { s.fn port fn with cfgErr := true } :=
  (exec_hqVerWrite_bound h1 h32 hb).trans (congrArg _ (if_pos hen))

/-! ### RING_ENABLE (R286) -/

theorem exec_ringEnable_bound : exec (.ringEnable port fn v) s = .next (s.ringCtrl port fn v.toNat) :=
  guardRes_next (decide_eq_true h32) (State.vfWrite_bound h1 hb _ _ _)

theorem setsFn_ringEnable_stops (hv : v.toNat % 2 = 0) :
    SetsFn (.ringEnable port fn v) s port fn { s.fn port fn with en := false, fetching := false } :=
  (exec_ringEnable_bound h1 h32 hb).trans (congrArg _ (if_pos hv))

theorem setsFn_ringEnable_starts (hv : v.toNat % 2 = 1) (hen : (s.fn port fn).en = false)
    (hpass : s.enableFails port fn = none) (hheld : (s.fn port fn).held = []) :
    SetsFn (.ringEnable port fn v) s port fn (ringsStarted (s.fn port fn)) := by
  have hnone : ((s.modFn port fn ringsStarted).fn port fn).held = [] := by rw [State.fn_modFn_same]; exact hheld
  rw [SetsFn, exec_ringEnable_bound h1 h32 hb, State.ringCtrl, if_neg (by omega), if_neg (by simp [hen]), hpass]
  exact congrArg _ (State.pumpRecords_none hnone)

theorem setsFn_ringEnable_noVersion (hv : v.toNat % 2 = 1) (hen : (s.fn port fn).en = false)
    (hneg : (s.fn port fn).neg = 0) :
    SetsFn (.ringEnable port fn v) s port fn
      { s.fn port fn with cfgErr := true, violStatus := 0x0A08, violValue := v.toNat % 65536, vaddr := 0 } := by
  rw [SetsFn, exec_ringEnable_bound h1 h32 hb, State.ringCtrl, if_neg (by omega), if_neg (by simp [hen]),
    State.enableFails_version hneg]
  rfl

/-! ### Doorbells (R288, R292) -/

theorem exec_sqTailWrite_bound : exec (.sqTailWrite port fn v) s = .next (s.sqDoorbell port fn v.toNat) :=
  guardRes_next (decide_eq_true h32) (State.vfWrite_bound h1 hb _ _ _)

theorem setsFn_sqTailWrite (hroom : (v.toNat % 65536 + 65536 - (s.fn port fn).taken) % 65536 ≤ 2 ^ (s.fn port fn).sqSize) :
    SetsFn (.sqTailWrite port fn v) s port fn
      (sqCheck { s.fn port fn with sqTail := v.toNat % 65536, blocked := false }) :=
  setsFn_of_exec ((exec_sqTailWrite_bound h1 h32 hb).trans (congrArg _ (if_neg (Nat.not_lt.2 hroom)))) rfl

theorem exec_sqTailWrite_over
    (hover : 2 ^ (s.fn port fn).sqSize < (v.toNat % 65536 + 65536 - (s.fn port fn).taken) % 65536) :
    exec (.sqTailWrite port fn v) s = .next (s.violate port fn 0x0A05 v.toNat 0x38) :=
  (exec_sqTailWrite_bound h1 h32 hb).trans (congrArg _ (if_pos hover))

theorem exec_cqHeadWrite_bound : exec (.cqHeadWrite port fn v) s = .next (s.cqDoorbell port fn v.toNat) :=
  guardRes_next (decide_eq_true h32) (State.vfWrite_bound h1 hb _ _ _)

theorem exec_cqHeadWrite_over
    (hover : 2 ^ (s.fn port fn).cqSize < ((s.fn port fn).cqTail + 65536 - v.toNat % 65536) % 65536) :
    exec (.cqHeadWrite port fn v) s = .next (s.violate port fn 0x0A05 v.toNat 0x3C) :=
  (exec_cqHeadWrite_bound h1 h32 hb).trans (congrArg _ (if_pos hover))

theorem exec_cqHeadWrite
    (hroom : ((s.fn port fn).cqTail + 65536 - v.toNat % 65536) % 65536 ≤ 2 ^ (s.fn port fn).cqSize) :
    exec (.cqHeadWrite port fn v) s =
      .next ((s.modFn port fn (headMoved (v.toNat % 65536))).pumpRecords port fn) :=
  (exec_cqHeadWrite_bound h1 h32 hb).trans (congrArg _ (if_neg (Nat.not_lt.2 hroom)))

theorem setsFn_cqHeadWrite (hheld : (s.fn port fn).held = [])
    (hroom : ((s.fn port fn).cqTail + 65536 - v.toNat % 65536) % 65536 ≤ 2 ^ (s.fn port fn).cqSize) :
    SetsFn (.cqHeadWrite port fn v) s port fn { s.fn port fn with cqHead := v.toNat % 65536 } := by
  have hnone : ((s.modFn port fn (headMoved (v.toNat % 65536))).fn port fn).held = [] := by
    rw [State.fn_modFn_same]; exact hheld
  rw [SetsFn, exec_cqHeadWrite h1 h32 hb hroom, State.pumpRecords_none hnone]
  rfl

/-- Room in the completion ring lets the held record out (R288). -/
theorem answers_cqHeadWrite_record {b : List Byte} (hheld : (s.fn port fn).held = [b])
    (hmove : s.ringsMove port fn = true)
    (hroom : ((s.fn port fn).cqTail + 65536 - v.toNat % 65536) % 65536 < 2 ^ (s.fn port fn).cqSize)
    (hcoal : (s.fn port fn).coalCnt ≤ (s.fn port fn).unsignalled + 1) :
    Answers (.cqHeadWrite port fn v) s (fun u =>
      u.fn port fn = signalled (recordOut (headMoved (v.toNat % 65536) (s.fn port fn))) 0 ∧
      u.out = s.out ++ [Emission.hostWrite port fn (recordSlot (s.fn port fn)) b,
        Emission.hostWrite port fn (s.fn port fn).shadow (shadowBytes (recordOut (s.fn port fn)))] ++
        signalOut port fn (s.fn port fn) 0) :=
  ⟨_, exec_cqHeadWrite h1 h32 hb (Nat.le_of_lt hroom),
    State.pumpRecords_one_shown (State.fn_modFn_same s port fn _) hheld ((State.ringsMove_headMoved _).trans hmove) hroom hcoal⟩

end bound

/-! ### An unbound VF (R282) -/

section unbound

variable (hb : s.bound port fn = false)
include h1 h32 hb

theorem exec_hqVerWrite_unbound : exec (.hqVerWrite port fn v) s = .next (s.violate port fn 0x0A04 v.toNat 0x04) :=
  guardRes_next (decide_eq_true h32) (State.vfWrite_unbound h1 hb _ _ _)

theorem exec_ringEnable_unbound : exec (.ringEnable port fn v) s = .next (s.violate port fn 0x0A04 v.toNat 0x0C) :=
  guardRes_next (decide_eq_true h32) (State.vfWrite_unbound h1 hb _ _ _)

theorem exec_sqTailWrite_unbound : exec (.sqTailWrite port fn v) s = .next (s.violate port fn 0x0A04 v.toNat 0x38) :=
  guardRes_next (decide_eq_true h32) (State.vfWrite_unbound h1 hb _ _ _)

theorem exec_cqHeadWrite_unbound : exec (.cqHeadWrite port fn v) s = .next (s.violate port fn 0x0A04 v.toNat 0x3C) :=
  guardRes_next (decide_eq_true h32) (State.vfWrite_unbound h1 hb _ _ _)

end unbound

/-! ### SUBMISSION_FETCH and its timeout (R134, R288) -/

/-- A fetch reads at most 8 slots, none beyond the tail, and does not cross the ring's end. -/
theorem fetchCount_bounds (f : Function) :
    fetchCount f ≤ 8 ∧ fetchCount f ≤ sqWaiting f ∧ f.fetched % 2 ^ f.sqSize + fetchCount f ≤ 2 ^ f.sqSize := by
  have hplace : f.fetched % 2 ^ f.sqSize < 2 ^ f.sqSize := Nat.mod_lt _ (Nat.two_pow_pos _)
  simp only [fetchCount, slotsLog]
  omega

section fetch

include h32

theorem exec_submissionFetch (hb : s.bound port fn = true) (hmove : s.ringsMove port fn = true)
    (hfetching : (s.fn port fn).fetching = true) (hblocked : (s.fn port fn).blocked = false)
    (hreading : (s.fn port fn).reading = none) (hcount : 0 < fetchCount (s.fn port fn)) (hstandby : s.standby = false) :
    exec (.submissionFetch port fn) s = .next ((s.askSlots port fn (fetchCount (s.fn port fn))).modFn port fn
      (fun f => { f with reading := some (fetchCount (s.fn port fn)) })) :=
  guardRes_next (decide_eq_true h32)
    (if_pos (by simp [hb, hmove, hfetching, hblocked, hreading, hcount, hstandby]))

theorem noEffect_submissionFetch (h : (s.fn port fn).blocked = true ∨ (s.fn port fn).reading ≠ none ∨ s.standby = true ∨
    (s.fn port fn).fetching = false) : NoEffect (.submissionFetch port fn) s := by
  refine guardRes_next (decide_eq_true h32) (if_neg ?_)
  rcases h with h | h | h | h <;> simp [h]

theorem setsFn_submissionFetchTimeout (hen : (s.fn port fn).en = true) (hwaits : 1 ≤ sqWaiting (s.fn port fn)) :
    SetsFn (.submissionFetchTimeout port fn) s port fn { s.fn port fn with fetching := true } :=
  setsFn_of_exec (guardRes_next (decide_eq_true h32) rfl) (if_pos (by simp [hen, hwaits]))

/-! ### INTERRUPT_COALESCE_EXPIRY (R288) -/

theorem answers_interruptCoalesceExpiry (hdue : 0 < (s.fn port fn).unsignalled) (htime : (s.fn port fn).coalTime ≠ 0) :
    Answers (.interruptCoalesceExpiry port fn) s (fun u =>
      u.fn port fn = signalled { s.fn port fn with unsignalled := 0 } 0 ∧
      u.out = s.out ++ signalOut port fn (s.fn port fn) 0 ∧
      u = ({ s with out := u.out }).modFn port fn (fun _ => u.fn port fn)) := by
  have hexec : exec (.interruptCoalesceExpiry port fn) s = .next
      ((s.modFn port fn (fun f => { f with unsignalled := 0 })).interrupt port fn 0) :=
    guardRes_next (decide_eq_true h32) (if_pos ⟨hdue, htime⟩)
  rw [State.interrupt_modFn_eq] at hexec
  refine ⟨_, hexec, State.fn_modFn_same _ _ _ _, rfl, ?_⟩
  rw [State.fn_modFn_same]
  rfl

end fetch

end vf

/-- Settles O34, by the kind of function and the command. -/
theorem hostRings : Obligations.HostRings := by
  unfold Obligations.HostRings
  intro s port fn v h1 h32 f ver violates
  have h0 : fn ≠ 0 := Nat.one_le_iff_ne_zero.1 h1
  refine ⟨fun hb => ⟨fun hen hhost hhub => ?agreed, fun hen hlow => ?low,
    fun hen => setsFn_hqVerWrite_enabled h1 h32 hb hen, fun hv hen hpass hheld => ?starts,
    fun hv hen hneg => setsFn_ringEnable_noVersion h1 h32 hb hv hen hneg, fun hv => setsFn_ringEnable_stops h1 h32 hb hv,
    fun hroom => ?tail, fun hover => ?tailOver, fun hheld hroom => setsFn_cqHeadWrite h1 h32 hb hheld hroom,
    fun hover => ?headOver, fun b hheld hmove hroom hcoal => ?record, ?fetch,
    fun hen hwaits => setsFn_submissionFetchTimeout h32 hen hwaits,
    fun hdue htime => answers_interruptCoalesceExpiry h32 hdue htime⟩, fun hb => ?unbound, ?pf⟩
  case agreed => exact exec_hqVerWrite_agreed h1 h32 hb hen rfl hhost hhub
  case low => exact exec_hqVerWrite_low h1 h32 hb hen rfl hlow
  case starts => exact setsFn_ringEnable_starts h1 h32 hb hv hen hpass hheld
  case tail =>
    have hset := setsFn_sqTailWrite h1 h32 hb hroom
    simp only [sqCheck, Bool.and_eq_true, decide_eq_true_eq] at hset
    exact hset
  case tailOver => exact answers_violate h0 (exec_sqTailWrite_over h1 h32 hb hover)
  case headOver => exact answers_violate h0 (exec_cqHeadWrite_over h1 h32 hb hover)
  case record =>
    obtain ⟨u, hexec, hfn, hout⟩ := answers_cqHeadWrite_record h1 h32 hb hheld hmove hroom hcoal
    obtain ⟨pba, hsignalled⟩ := signalled_frame (recordOut (headMoved (v.toNat % 65536) f)) 0
    rw [hsignalled] at hfn
    exact ⟨u, hexec, by rw [hfn]; rfl, by rw [hfn]; rfl, by rw [hfn]; rfl, hout⟩
  case fetch =>
    obtain ⟨height, hwaiting, hend⟩ := fetchCount_bounds f
    exact ⟨height, hwaiting, hend, fun hmove hfetching hblocked hreading hcount hstandby =>
      exec_submissionFetch h32 hb hmove hfetching hblocked hreading hcount hstandby,
      fun h => noEffect_submissionFetch h32 h⟩
  case unbound =>
    exact ⟨answers_violate h0 (exec_hqVerWrite_unbound h1 h32 hb), answers_violate h0 (exec_ringEnable_unbound h1 h32 hb),
      answers_violate h0 (exec_sqTailWrite_unbound h1 h32 hb), answers_violate h0 (exec_cqHeadWrite_unbound h1 h32 hb)⟩
  case pf =>
    exact ⟨guardRes_next rfl (if_pos rfl), guardRes_next rfl (if_pos rfl), guardRes_next rfl (if_pos rfl),
      guardRes_next rfl (if_pos rfl)⟩

end Sys2Proof.Machine
end

section
/-!
SUPPORT. Messages and flits at one router (R144, R146, R149, R151, R152, R155, R159, R164): what its local port takes, how
a granted unicast flit leaves by a neighbour, the rim or the tile, and the obligation about the unicast mesh.
-/

namespace Sys2Proof.Machine

/-! ### Routers and their buffers (R146) -/

@[simp] theorem State.router_modRouter_same (s : State) (t : TileId) (f : Router → Router) :
    (s.modRouter t f).router t = f (s.router t) := mget_mset_same _ _ _ _

theorem State.modRouter_modRouter_same (s : State) (t : TileId) (f g : Router → Router) :
    (s.modRouter t f).modRouter t g = s.modRouter t (fun R => g (f R)) := by
  simp only [State.modRouter, State.router, mget_mset_same, mset_mset_same]

/-- The room in a router's buffers depends on what they hold and on its routes alone. -/
theorem State.hasRoom_congr {s u : State} {n : TileId} (hinq : (u.router n).inq = (s.router n).inq)
    (hroutes : (u.router n).routes = (s.router n).routes) (port : Dir) (f : Flit) :
    u.hasRoom n port f = s.hasRoom n port f := by
  have hprio : u.prioAt n = s.prioAt n := funext fun g => by simp only [State.prioAt, State.routeEntry, hroutes]
  unfold State.hasRoom
  rw [hinq, hprio]

section port

variable {s : State} {t : TileId} {port : Dir} {f : Flit} (hfeed : (s.router t).feed = [])
include hfeed

/-- A flit that comes to an empty port enters its buffer, unless the port is held or the buffer is full (R146, R164). -/
theorem State.feedIn_enters (hheld : (port == .l && s.mesh.detour != .idle) = false) (hroom : s.hasRoom t port f = true) :
    s.feedIn t [(port, f)] = s.modRouter t (fun R =>
      { R with inq := R.inq ++ [{ port := port, flit := f, since := s.clkTime }], feed := [] }) := by
  have hroom' := (State.hasRoom_congr (u := s.modRouter t (fun R => { R with feed := R.feed ++ [(port, f)] }))
    (by simp) (by simp) port f).trans hroom
  simp only [State.feedIn, State.pumpFeed, State.router_modRouter_same, hfeed, List.nil_append, State.feedFrom,
    List.any_nil, State.modRouter_mesh, hheld, hroom', Bool.not_true, Bool.or_self, Bool.false_eq_true, if_false,
    State.enter, State.modRouter_clkTime, State.modRouter_modRouter_same]

/-- A flit that finds the buffer full waits at the port (R146). -/
theorem State.feedIn_waits (hroom : s.hasRoom t port f = false) :
    s.feedIn t [(port, f)] = s.modRouter t (fun R => { R with feed := [(port, f)] }) := by
  have hroom' := (State.hasRoom_congr (u := s.modRouter t (fun R => { R with feed := R.feed ++ [(port, f)] }))
    (by simp) (by simp) port f).trans hroom
  simp only [State.feedIn, State.pumpFeed, State.router_modRouter_same, hfeed, List.nil_append, State.feedFrom,
    hroom', Bool.not_false, Bool.or_true, if_true, State.modRouter_modRouter_same]

end port

/-! ### MESSAGE_INJECTION (R144, R152, R164) -/

section inject

variable {s u : State} {t : TileId} {m : Message}

theorem wf_messageInjection (htile : tileOk t = true) (hmsg : messageOk m = true) :
    Instr.wf (.messageInjection t m) = true := by
  simp only [Instr.wf, htile, hmsg, Bool.and_self]

theorem exec_messageInjection_taken (hwf : Instr.wf (.messageInjection t m) = true) (h : s.inject t m = (u, none)) :
    exec (.messageInjection t m) s = .next u :=
  guardRes_next hwf (by rw [h])

theorem exec_messageInjection_refused {c : Nat} (hwf : Instr.wf (.messageInjection t m) = true)
    (h : s.inject t m = (u, some c)) :
    exec (.messageInjection t m) s = .next ((u.countRefusal t).emit (.refusal t c (destNat m.dest))) :=
  guardRes_next hwf (by rw [h])

variable {x y p : Nat} (hlogical : s.logical t = some (x, y)) (hpart : s.partOfTile t = some p)
  (hlive : s.isRetired t = false)
include hlogical hpart hlive

theorem State.inject_badFormat (hformat : injectFormat m.kind m.vn m.dest ≠ 0) :
    s.inject t m = (s, some (injectFormat m.kind m.vn m.dest)) := by
  simp [State.inject, hlogical, hpart, hlive, hformat]

variable (hformat : injectFormat m.kind m.vn m.dest = 0)
include hformat

theorem State.inject_held (hheld : s.mesh.detour ≠ .idle) :
    s.inject t m = (s.modTile t (fun T => { T with txHeld := T.txHeld ++ [m] }), none) := by
  simp [State.inject, hlogical, hpart, hlive, hformat, hheld]

theorem State.inject_noRoute {c : Nat} (hfree : s.mesh.detour = .idle) (hroute : s.injectRoute t m.vn m.dest = .error c) :
    s.inject t m = (s, some c) := by
  simp [State.inject, hlogical, hpart, hlive, hformat, hfree, hroute]

theorem State.inject_routed {r : Option TileId × Nat × Bool} (hfree : s.mesh.detour = .idle)
    (hroute : s.injectRoute t m.vn m.dest = .ok r) :
    s.inject t m = (s.feedIn t ((messageFlits m r x y p 0 m.flits).map (fun f => (Dir.l, f))), none) := by
  simp [State.inject, hlogical, hpart, hlive, hformat, hfree, hroute]

end inject

/-! ### Directions (R149, R159) -/

/-- A rim port leads beyond the edge of the mesh. -/
theorem neighbour_of_rimPort {t : TileId} {d : Dir} (h : rimPort t d = true) : neighbour t d = none := by
  cases d <;> simp_all [rimPort, neighbour]

theorem rimPort_of_neighbour {t n : TileId} {d : Dir} (h : neighbour t d = some n) : rimPort t d = false := by
  cases hrim : rimPort t d with
  | false => rfl
  | true => simp [neighbour_of_rimPort hrim] at h

theorem ne_local_of_rimPort {t : TileId} {d : Dir} (h : rimPort t d = true) : d ≠ .l := by
  rintro rfl
  simp [rimPort] at h

section phase2

variable (s : State) {t : TileId} {f : Flit} (hphase : f.phase1 = false) (hexit : f.exit = none)
include hphase hexit

theorem State.unicastDir_south (hrow : f.dest.tileY < t.y) : s.unicastDir t f = (.s, false) := by
  simp [State.unicastDir, hphase, hexit, hrow]

theorem State.unicastDir_north (hrow : t.y < f.dest.tileY) : s.unicastDir t f = (.n, false) := by
  simp [State.unicastDir, hphase, hexit, hrow, Nat.not_lt.2 hrow.le]

end phase2

/-! ### What the grant of an output leaves as it was -/

section taken

variable (s : State) (t : TileId)

theorem State.feedFrom_routers (left l : List (Dir × Flit)) : ∃ R, s.feedFrom t left l = { s with routers := R } := by
  induction l generalizing s left with
  | nil => exact ⟨_, rfl⟩
  | cons e r ih =>
    unfold State.feedFrom
    split
    · exact ih s _
    · exact ih (s.enter t e.1 e.2) _

theorem State.takeIn_routers (e : InFlit) : ∃ R, s.takeIn t e = { s with routers := R } :=
  State.feedFrom_routers _ t _ _

theorem State.noteGrant_frame (e : InFlit) (d : Dir) :
    ∃ R used, s.noteGrant t e d = { s with routers := R, mesh := { s.mesh with rimUsed := used } } := by
  unfold State.noteGrant
  dsimp only
  split <;> exact ⟨_, _, rfl⟩

/-- A flit granted an output and taken from its buffer changes routers and the rounds of the crossbar ports alone. -/
theorem State.grantTaken_frame (e : InFlit) (d : Dir) :
    ∃ R used, (s.noteGrant t e d).takeIn t e = { s with routers := R, mesh := { s.mesh with rimUsed := used } } := by
  obtain ⟨R, used, hnote⟩ := s.noteGrant_frame t e d
  obtain ⟨R', htake⟩ := (s.noteGrant t e d).takeIn_routers t e
  exact ⟨R', used, by rw [htake, hnote]⟩

@[simp] theorem State.grantTaken_dark (e : InFlit) (d : Dir) : ((s.noteGrant t e d).takeIn t e).dark = s.dark := by
  obtain ⟨R, used, h⟩ := s.grantTaken_frame t e d
  rw [h]; rfl

@[simp] theorem State.grantTaken_failed (e : InFlit) (d : Dir) :
    ((s.noteGrant t e d).takeIn t e).mesh.failed = s.mesh.failed := by
  obtain ⟨R, used, h⟩ := s.grantTaken_frame t e d
  rw [h]

@[simp] theorem State.grantTaken_down (e : InFlit) (d : Dir) :
    ((s.noteGrant t e d).takeIn t e).mesh.down = s.mesh.down := by
  obtain ⟨R, used, h⟩ := s.grantTaken_frame t e d
  rw [h]

@[simp] theorem State.grantTaken_partOfTile (e : InFlit) (d : Dir) (n : TileId) :
    ((s.noteGrant t e d).takeIn t e).partOfTile n = s.partOfTile n := by
  obtain ⟨R, used, h⟩ := s.grantTaken_frame t e d
  rw [h]; rfl

end taken

/-! ### A flit that leaves its router (R149, R152, R159) -/

section leaves

variable {s : State} {t n : TileId} {d : Dir} {f : Flit}

theorem State.canSend_eq_hasRoom (hn : neighbour t d = some n) (hlink : LinkId.mk t d ∉ s.mesh.failed)
    (hdark : bit s.dark (fieldOfTile n) = false) (hdown : bit s.mesh.down (fieldOfTile n) = false) :
    s.canSend t d f = s.hasRoom n (arrival d) f := by
  simp [State.canSend, hn, hlink, hdark, hdown]

theorem State.canSend_beyond (hn : neighbour t d = none) : s.canSend t d f = true := by
  simp [State.canSend, hn]

theorem State.sendFlit_enters (hn : neighbour t d = some n) (hlink : LinkId.mk t d ∉ s.mesh.failed)
    (hdark : bit s.dark (fieldOfTile n) = false) (hdown : bit s.mesh.down (fieldOfTile n) = false) :
    s.sendFlit t d f = s.enter n (arrival d) f := by
  simp [State.sendFlit, hn, hlink, hdark, hdown]

theorem State.sendFlit_rim (hrim : rimPort t d = true) : s.sendFlit t d f = s.emit (.rim d f) := by
  simp [State.sendFlit, neighbour_of_rimPort hrim, hrim]

theorem State.ejectFlit_own (hpart : s.partOfTile t = some f.part) (hwhole : f.incomplete = false) :
    s.ejectFlit t f = s.modTile t (fun T => { T with rx := T.rx ++ [f] }) := by
  simp [State.ejectFlit, hpart, hwhole]

theorem State.ejectFlit_foreign (hpart : s.partOfTile t ≠ some f.part) : s.ejectFlit t f = s.refuse t f 0x0601 :=
  if_pos hpart

end leaves

/-! ### FLIT_FORWARD and FLIT_EJECTION of unicast flits (R149, R152, R155) -/

section unicast

variable {s : State} {t : TileId} {port d : Dir} {vn : Nat} {e : InFlit} {l : List InFlit}

theorem State.granted_iff : s.granted t e d = true ↔ s.canSend t d (s.leaving t e.flit) = true ∧
    (∀ x ∈ s.rivals t d e, s.goesBefore t d e x = true) ∧ (rimPort t d = true → s.crossbarMay t d e.flit = true) := by
  simp only [State.granted, Bool.and_eq_true, List.all_eq_true, Bool.or_eq_true, Bool.not_eq_true', and_assoc,
    ← Bool.not_eq_true, imp_iff_not_or]

section forward

variable (htile : tileOk t = true) (hvn : vn < 3)
include htile hvn

theorem exec_flitForward_head (hheads : s.headsAt t port vn = e :: l) (hmay : s.mayForward t e = true) :
    exec (.flitForward t port vn .clean) s = .next (s.forwardFlit t e) :=
  guardRes_next (by simp [Instr.wf, linkOk, htile, hvn]) (by simp [hheads, State.linkEvent, hmay])

theorem noEffect_flitForward (hheads : s.headsAt t port vn = [e]) (hmay : s.mayForward t e = false) :
    NoEffect (.flitForward t port vn .clean) s :=
  guardRes_next (by simp [Instr.wf, linkOk, htile, hvn]) (by simp [hheads, State.linkEvent, hmay])

theorem exec_flitEjection_head (hheads : s.headsAt t port vn = e :: l) (hnow : s.ejectsNow t e = true) :
    exec (.flitEjection t port vn) s = .next (((s.noteGrant t e .l).takeIn t e).ejectFlit t e.flit) :=
  guardRes_next (by simp [Instr.wf, htile, hvn]) (by simp [hheads, hnow])

theorem noEffect_flitEjection (hheads : s.headsAt t port vn = [e]) (hnow : s.ejectsNow t e = false) :
    NoEffect (.flitEjection t port vn) s :=
  guardRes_next (by simp [Instr.wf, htile, hvn]) (by simp [hheads, hnow])

end forward

variable (hroute : e.flit.dest.route = 0)

theorem State.leaving_unicast {f : Flit} (hroute : f.dest.route = 0) :
    s.leaving t f = { f with phase1 := (s.unicastDir t f).2 } := if_pos hroute

variable (hdrop : (s.router t).dropping = []) (hdir : (s.unicastDir t e.flit).1 = d)
include hroute hdrop hdir

theorem State.mayForward_unicast : s.mayForward t e = (d != .l && s.granted t e d) := by
  simp [State.mayForward, hdrop, hroute, hdir]

theorem State.forwardFlit_unicast (hd : d ≠ .l) (hgrant : s.granted t e d = true) :
    s.forwardFlit t e = ((s.noteGrant t e d).takeIn t e).sendFlit t d (s.leaving t e.flit) := by
  simp [State.forwardFlit, hdrop, hroute, hdir, hd, hgrant]

theorem State.ejectsNow_unicast : s.ejectsNow t e = (d == .l && s.granted t e .l) := by
  simp [State.ejectsNow, hdrop, hroute, hdir]

variable (htile : tileOk t = true) (hvn : vn < 3)
include htile hvn

theorem exec_flitForward_granted (hheads : s.headsAt t port vn = e :: l) (hd : d ≠ .l) (hgrant : s.granted t e d = true) :
    exec (.flitForward t port vn .clean) s =
      .next (((s.noteGrant t e d).takeIn t e).sendFlit t d (s.leaving t e.flit)) := by
  have hmay : s.mayForward t e = true := by simp [State.mayForward_unicast hroute hdrop hdir, hd, hgrant]
  rw [exec_flitForward_head htile hvn hheads hmay, State.forwardFlit_unicast hroute hdrop hdir hd hgrant]

/-- A granted flit moves one hop, into the buffer of the neighbour in its direction. -/
theorem exec_flitForward_hop {n : TileId} (hheads : s.headsAt t port vn = e :: l) (hd : d ≠ .l)
    (hn : neighbour t d = some n) (hlink : LinkId.mk t d ∉ s.mesh.failed)
    (hdark : bit s.dark (fieldOfTile n) = false) (hdown : bit s.mesh.down (fieldOfTile n) = false)
    (hroom : s.hasRoom n (arrival d) (s.leaving t e.flit) = true)
    (hfirst : ∀ x ∈ s.rivals t d e, s.goesBefore t d e x = true) :
    exec (.flitForward t port vn .clean) s =
      .next (((s.noteGrant t e d).takeIn t e).enter n (arrival d) (s.leaving t e.flit)) := by
  have hgrant : s.granted t e d = true := State.granted_iff.2
    ⟨(State.canSend_eq_hasRoom hn hlink hdark hdown).trans hroom, hfirst, by simp [rimPort_of_neighbour hn]⟩
  rw [exec_flitForward_granted hroute hdrop hdir htile hvn hheads hd hgrant,
    State.sendFlit_enters hn (by simpa using hlink) (by simpa using hdark) (by simpa using hdown)]

/-- With no room in the neighbour's buffer a flit that is alone at the heads of its input waits. -/
theorem noEffect_flitForward_full {n : TileId} (hheads : s.headsAt t port vn = [e])
    (hn : neighbour t d = some n) (hlink : LinkId.mk t d ∉ s.mesh.failed)
    (hdark : bit s.dark (fieldOfTile n) = false) (hdown : bit s.mesh.down (fieldOfTile n) = false)
    (hroom : s.hasRoom n (arrival d) (s.leaving t e.flit) = false) :
    NoEffect (.flitForward t port vn .clean) s := by
  refine noEffect_flitForward htile hvn hheads ?_
  have hfull := (State.canSend_eq_hasRoom hn hlink hdark hdown).trans hroom
  simp [State.mayForward_unicast hroute hdrop hdir, State.granted, hfull]

/-- Beyond the rim a granted flit is handed out (R151). -/
theorem exec_flitForward_rim (hheads : s.headsAt t port vn = e :: l) (hrim : rimPort t d = true)
    (hfirst : ∀ x ∈ s.rivals t d e, s.goesBefore t d e x = true) (hcross : s.crossbarMay t d e.flit = true) :
    exec (.flitForward t port vn .clean) s =
      .next (((s.noteGrant t e d).takeIn t e).emit (.rim d (s.leaving t e.flit))) := by
  have hgrant : s.granted t e d = true := State.granted_iff.2
    ⟨State.canSend_beyond (neighbour_of_rimPort hrim), hfirst, fun _ => hcross⟩
  rw [exec_flitForward_granted hroute hdrop hdir htile hvn hheads (ne_local_of_rimPort hrim) hgrant,
    State.sendFlit_rim hrim]

/-- At its destination the flit that goes before all others leaves at L. -/
theorem exec_flitEjection_granted (hheads : s.headsAt t port vn = e :: l) (hd : d = .l)
    (hfirst : ∀ x ∈ s.rivals t d e, s.goesBefore t d e x = true) :
    exec (.flitEjection t port vn) s = .next (((s.noteGrant t e d).takeIn t e).ejectFlit t e.flit) := by
  subst hd
  have hgrant : s.granted t e .l = true := State.granted_iff.2 ⟨State.canSend_beyond rfl, hfirst, by simp [rimPort]⟩
  exact exec_flitEjection_head htile hvn hheads (by simp [State.ejectsNow_unicast hroute hdrop hdir, hgrant])

theorem exec_flitEjection_own (hheads : s.headsAt t port vn = e :: l) (hd : d = .l)
    (hfirst : ∀ x ∈ s.rivals t d e, s.goesBefore t d e x = true) (hpart : s.partOfTile t = some e.flit.part)
    (hwhole : e.flit.incomplete = false) :
    exec (.flitEjection t port vn) s =
      .next (((s.noteGrant t e d).takeIn t e).modTile t (fun T => { T with rx := T.rx ++ [e.flit] })) := by
  rw [exec_flitEjection_granted hroute hdrop hdir htile hvn hheads hd hfirst,
    State.ejectFlit_own (by simpa using hpart) hwhole]

theorem exec_flitEjection_foreign (hheads : s.headsAt t port vn = e :: l) (hd : d = .l)
    (hfirst : ∀ x ∈ s.rivals t d e, s.goesBefore t d e x = true) (hpart : s.partOfTile t ≠ some e.flit.part) :
    exec (.flitEjection t port vn) s = .next (((s.noteGrant t e d).takeIn t e).refuse t e.flit 0x0601) := by
  rw [exec_flitEjection_granted hroute hdrop hdir htile hvn hheads hd hfirst,
    State.ejectFlit_foreign (by simpa using hpart)]

/-- A flit with another destination is not ejected. -/
theorem noEffect_flitEjection_elsewhere (hheads : s.headsAt t port vn = [e]) (hd : d ≠ .l) :
    NoEffect (.flitEjection t port vn) s :=
  noEffect_flitEjection htile hvn hheads (by simp [State.ejectsNow_unicast hroute hdrop hdir, hd])

end unicast

/-! ### RIM_INGRESS (R151) -/

theorem exec_rimIngress_enters {s : State} {side : Dir} {f : Flit} {r : TileId} {w : Nat}
    (hwf : Instr.wf (.rimIngress side f) = true)
    (hrim : rimRouter s.dark side (s.physical (f.dest.tileX % 160) (f.dest.tileY % 160)) = some r)
    (hway : waypoint s.dark r.u r.y f.dest.tileY (21 * (f.dest.tileX / 20) + f.dest.tileX % 20) = some w) :
    exec (.rimIngress side f) s =
      .next (s.feedIn r [(side, { f with way := w, phase1 := w != r.u, exit := none })]) :=
  guardRes_next hwf (by simp only [hrim, hway])

/-- Settles O27, by the command and what the router meets. -/
theorem meshUnicast : Obligations.MeshUnicast := by
  unfold Obligations.MeshUnicast
  intro s t htile
  refine ⟨fun m x y p hmsg hlogical hpart hlive => ?inject, fun port vn e l hvn hheads hroute hdrop => ?flit,
    fun side f r w hwf hrim hway => exec_rimIngress_enters hwf hrim hway⟩
  case inject =>
    have hwf := wf_messageInjection htile hmsg
    refine ⟨fun r hformat hfree hr => ?routed,
      fun hformat hheld => exec_messageInjection_taken hwf (State.inject_held hlogical hpart hlive hformat hheld),
      fun hformat => exec_messageInjection_refused hwf (State.inject_badFormat hlogical hpart hlive hformat),
      fun c hformat hfree hr =>
        exec_messageInjection_refused hwf (State.inject_noRoute hlogical hpart hlive hformat hfree hr)⟩
    have hsent := exec_messageInjection_taken hwf (State.inject_routed hlogical hpart hlive hformat hfree hr)
    refine ⟨hsent, fun f hone hfeed hroom => ?_, fun f hone hfeed hroom => ?_⟩
    · rw [hone] at hsent
      exact hsent.trans (congrArg _ (State.feedIn_enters hfeed (by simp [hfree]) hroom))
    · rw [hone] at hsent
      exact hsent.trans (congrArg _ (State.feedIn_waits hfeed hroom))
  case flit =>
    intro f d g first taken
    have hleaves : s.leaving t e.flit = g := State.leaving_unicast hroute
    refine ⟨fun hphase hexit hrow => congrArg Prod.fst (s.unicastDir_south hphase hexit hrow),
      fun hphase hexit hrow => congrArg Prod.fst (s.unicastDir_north hphase hexit hrow),
      fun n hd hn hlink hdark hdown => ⟨fun hroom hfirst => ?hop, ?full⟩, fun hrim hfirst hcross => ?rim,
      fun hd hfirst hpart hwhole => exec_flitEjection_own hroute hdrop rfl htile hvn hheads hd hfirst hpart hwhole,
      fun hd hfirst hpart => exec_flitEjection_foreign hroute hdrop rfl htile hvn hheads hd hfirst hpart, ?elsewhere⟩
    case hop =>
      rw [← hleaves] at hroom ⊢
      exact exec_flitForward_hop hroute hdrop rfl htile hvn hheads hd hn hlink hdark hdown hroom hfirst
    case full =>
      rintro rfl hroom
      rw [← hleaves] at hroom
      exact noEffect_flitForward_full hroute hdrop rfl htile hvn hheads hn hlink hdark hdown hroom
    case rim =>
      rw [← hleaves]
      exact exec_flitForward_rim hroute hdrop rfl htile hvn hheads hrim hfirst hcross
    case elsewhere =>
      rintro hd rfl
      exact noEffect_flitEjection_elsewhere hroute hdrop rfl htile hvn hheads hd

end Sys2Proof.Machine
end

section
/-!
SUPPORT. What a fault record leaves of its core (R181, R183), what a record's place and time are taken from (Table 7.8), and
instructions that stop their core.
-/

namespace Sys2Proof.Machine

/-! ### Place and time of a record (Table 7.8) -/

/-- What a fault record of a tile takes from the block: wafer time and the tile's logical place. -/
def State.stamp (s : State) (t : TileId) : Nat × (Nat × Nat) := (s.clkTime, s.logXY t)

theorem faultBytes_of_stamp {s u : State} {t : TileId} (h : u.stamp t = s.stamp t) (r : FaultRec) :
    faultBytes u t r = faultBytes s t r := by
  obtain ⟨hclk, hxy⟩ := Prod.mk.inj h
  simp only [faultBytes, hclk, hxy]

/-! ### The core after a fault record (R181, R183) -/

/-- A core in which a record has been latched, its loss at the fault sink as counted. -/
def coreFaulted (record : List Byte) (lost : Bool) (count : Nat) (c : Core) : Core :=
  { c with faultRec := record, fault := true, events := setBit c.events 7 true, flost := lost, flostCnt := count }

theorem State.unobserved_latchFault (s : State) (t : TileId) (r : FaultRec) :
    coreUnobserved ((s.latchFault t r).tile t).cc =
      coreUnobserved (coreFaulted (faultBytes s t r) (s.tile t).cc.flost (s.tile t).cc.flostCnt (s.tile t).cc) := by
  have htrace : ∀ (w : State) typ data, coreUnobserved ((w.trace t typ data).tile t).cc = coreUnobserved (w.tile t).cc :=
    fun w typ data => congrArg Tile.cc (w.unobserved_trace t typ data)
  unfold State.latchFault
  dsimp only
  split
  · rw [State.tile_log, htrace, State.odAdd_tile, State.tile_modTile_same]
    rfl
  · rw [State.tile_log, State.tile_setBlobP, htrace, State.odAdd_tile, State.tile_modTile_same]
    rfl

/-- A message handed to the router leaves core and transactions as they were. -/
theorem State.tile_of_inject {s s1 : State} {t : TileId} {m : Message} {c : Option Nat} (h : s.inject t m = (s1, c)) :
    (s1.tile t).cc = (s.tile t).cc ∧ (s1.tile t).tx = (s.tile t).tx ∧ (s1.tile t).nextId = (s.tile t).nextId := by
  obtain ⟨l, hl⟩ := s.inject_tile t m
  rw [h] at hl
  simp only [hl, and_self]

/-- A record sent changes of the core at most the count of records lost. -/
theorem State.cc_sendRecord (s : State) (t : TileId) (r : List Byte) :
    ∃ lost count, ((s.sendRecord t r).tile t).cc = { (s.tile t).cc with flost := lost, flostCnt := count } := by
  unfold State.sendRecord
  split
  · dsimp only
    split
    · rename_i s1 hs1
      exact ⟨_, _, (State.tile_of_inject hs1).1⟩
    · rename_i s1 c hs1
      refine ⟨true, satAdd (s1.tile t).cc.flostCnt 1 0xFFFFFFFF, ?_⟩
      rw [State.faultLost, State.odAdd_tile, State.tile_modTile_same, ← (State.tile_of_inject hs1).1]
  · exact ⟨_, _, rfl⟩

theorem State.unobserved_raiseFault (s : State) (t : TileId) (r : FaultRec) :
    ∃ lost count, coreUnobserved ((s.raiseFault t r).tile t).cc =
      coreUnobserved (coreFaulted (faultBytes s t r) lost count (s.tile t).cc) := by
  obtain ⟨lost, count, h⟩ := (s.latchFault t r).cc_sendRecord t (faultBytes s t r)
  refine ⟨lost, count, ?_⟩
  have hlatch := congrArg (fun c : Core => { c with flost := lost, flostCnt := count }) (s.unobserved_latchFault t r)
  rw [State.raiseFault, h]
  exact hlatch

/-! ### A core that stops (R181) -/

theorem State.unobserved_stopCore (s : State) (t : TileId) :
    coreUnobserved ((s.stopCore t).tile t).cc =
      { coreUnobserved (s.tile t).cc with state := .stoppedFault, wait := .none } := by
  have hsettled := coreUnobserved_pmcSettle s.clkTime (s.tile t).cc
  rw [State.stopCore, State.tile_modTile_same]
  exact congrArg (fun c : Core => { c with state := CoreState.stoppedFault, wait := CoreWait.none }) hsettled

/-- A core `d` that a fault record has stopped, the core `c` before. -/
structure CoreStopped (c d : Core) (record : List Byte) : Prop where
  state : d.state = .stoppedFault
  fault : d.fault = true
  pc : d.pc = c.pc
  regs : d.regs = c.regs
  record : d.faultRec = record

theorem coreStopped_of_unobserved {c d : Core} {record : List Byte} {lost : Bool} {count : Nat}
    (h : coreUnobserved d =
      { coreUnobserved (coreFaulted record lost count c) with state := .stoppedFault, wait := .none }) :
    CoreStopped c d record := by
  have hstate := congrArg Core.state h
  have hfault := congrArg Core.fault h
  have hpc := congrArg Core.pc h
  have hregs := congrArg Core.regs h
  have hrecord := congrArg Core.faultRec h
  exact ⟨hstate, hfault, hpc, hregs, hrecord⟩

theorem State.coreStopped_raiseFault (s : State) (t : TileId) (r : FaultRec) :
    CoreStopped (s.tile t).cc (((s.raiseFault t r).stopCore t).tile t).cc (faultBytes s t r) := by
  obtain ⟨lost, count, hrec⟩ := s.unobserved_raiseFault t r
  exact coreStopped_of_unobserved (((s.raiseFault t r).unobserved_stopCore t).trans (by rw [hrec]))

/-- An instruction that leaves PC, registers, place and time as they were and then stops its core. -/
theorem stopsCore_after {c : Instr} {s w : State} {t : TileId} {status fn addr cause : Nat}
    (hpc : (w.tile t).cc.pc = (s.tile t).cc.pc) (hregs : (w.tile t).cc.regs = (s.tile t).cc.regs)
    (hstamp : w.stamp t = s.stamp t) (hexec : exec c s = .next (w.coreFault t status fn addr cause)) :
    StopsCore c s t status fn addr cause := by
  obtain ⟨hstate, hfault, hpc', hregs', hrecord⟩ := w.coreStopped_raiseFault t
    { status := status, agent := 0, detail := fn % 256, address := addr, loc := (w.tile t).cc.pc.toNat, cause := cause }
  rw [faultBytes_of_stamp hstamp] at hrecord
  exact ⟨_, hexec, hstate, hfault, hpc'.trans hpc, hregs'.trans hregs, by rw [← hpc]; exact hrecord⟩

theorem stopsCore_of_exec {c : Instr} {s : State} {t : TileId} {status fn addr cause : Nat}
    (hexec : exec c s = .next (s.coreFault t status fn addr cause)) : StopsCore c s t status fn addr cause :=
  stopsCore_after rfl rfl rfl hexec

end Sys2Proof.Machine
end

section
/-!
SUPPORT. How an instruction retires that writes one register, and integer instructions, branches and jumps (R172, R173,
R195, R198): the obligations O4, O5 and O8.
-/

namespace Sys2Proof.Machine

/-! ### Retirement (R173, R198) -/

/-- A core that goes on at a PC, its counters of retired instructions raised. -/
def coreRetired (pc : Word) (c : Core) : Core :=
  pmcAdd { c with pc := pc, passBp := false, state := .running, wait := .none } 2 1

theorem Issues.running {s : State} {t : TileId} (h : Issues s t) :
    (s.tile t).cc.state = .running ∧ (s.tile t).cc.wait = .none := by
  obtain ⟨-, hmay, -⟩ := h
  simp only [mayIssue, Bool.false_and, Bool.or_false, Bool.and_eq_true, beq_iff_eq] at hmay
  exact ⟨hmay.1.2, hmay.2⟩

/-- A running core that waits for nothing and that no halt is due for retires an instruction. -/
theorem State.retire_running {s : State} {t : TileId} (hstate : (s.tile t).cc.state = .running)
    (hwait : (s.tile t).cc.wait = .none) (hdue : (s.tile t).cc.haltDue = 0) (pc : Word) :
    s.retire t pc = s.modCc t (coreRetired pc) := by
  have hleave : leaveWait s.clkTime (s.tile t).cc = (s.tile t).cc := if_pos ⟨hstate, hwait⟩
  rw [State.retire, hdue, if_neg (not_not.2 rfl)]
  simp only [State.modCc, State.modTile, hleave]
  rfl

theorem State.modCc_modCc_same (s : State) (t : TileId) (f g : Core → Core) :
    (s.modCc t f).modCc t g = s.modCc t (fun c => g (f c)) := s.modTile_modTile_same t _ _

/-- A core with one general register written; g0 ignores writes. -/
def coreWrote (d : Fin 32) (v : Word) (c : Core) : Core :=
  if d = 0 then c else { c with regs := mset 0 c.regs d v }

theorem State.setGr_modCc (s : State) (t : TileId) (d : Fin 32) (v : Word) (f : Core → Core) :
    (s.setGr t d v).modCc t f = s.modCc t (fun c => f (coreWrote d v c)) := by
  by_cases hd : d = 0
  · simp [hd, State.setGr_zero, coreWrote]
  · simp only [State.setGr, hd, if_false, State.modCc_modCc_same, coreWrote]

/-- An instruction that writes one register and goes on, after an effect `f` on performance counters. -/
theorem onlyRegs_modCc {s : State} {t : TileId} {d : Fin 32} {v pc : Word} {f : Core → Core}
    (hf : ∀ c, ∃ pmc, f c = { c with pmc := pmc }) :
    OnlyRegs s ((s.setGr t d v).modCc t (fun c => coreRetired pc (f c))) t pc := by
  have hcore : ∃ regs pmc, coreRetired pc (f (coreWrote d v (s.tile t).cc)) = { (s.tile t).cc with
      regs := regs, pc := pc, pmc := pmc, passBp := false, state := .running, wait := .none } := by
    obtain ⟨pmc, h⟩ := hf (coreWrote d v (s.tile t).cc)
    rw [h, coreWrote]
    split <;> exact ⟨_, _, rfl⟩
  obtain ⟨regs, pmc, h⟩ := hcore
  rw [State.setGr_modCc, OnlyRegs, State.tile_modCc_same, h, State.modCc, State.modTile, h]

theorem State.tile_setGr_same (s : State) (t : TileId) (d : Fin 32) (v : Word) :
    (s.setGr t d v).tile t = { s.tile t with cc := coreWrote d v (s.tile t).cc } := by
  by_cases hd : d = 0
  · simp [hd, State.setGr_zero, coreWrote]
  · simp [State.tile_setGr hd, coreWrote, hd]

@[simp] theorem State.cc_setGr (s : State) (t : TileId) (d : Fin 32) (v : Word) :
    ((s.setGr t d v).tile t).cc = coreWrote d v (s.tile t).cc := by
  rw [State.tile_setGr_same]

@[simp] theorem coreWrote_state (d : Fin 32) (v : Word) (c : Core) : (coreWrote d v c).state = c.state := by
  unfold coreWrote; split <;> rfl

@[simp] theorem coreWrote_pc (d : Fin 32) (v : Word) (c : Core) : (coreWrote d v c).pc = c.pc := by
  unfold coreWrote; split <;> rfl

@[simp] theorem coreWrote_wait (d : Fin 32) (v : Word) (c : Core) : (coreWrote d v c).wait = c.wait := by
  unfold coreWrote; split <;> rfl

@[simp] theorem coreWrote_haltDue (d : Fin 32) (v : Word) (c : Core) : (coreWrote d v c).haltDue = c.haltDue := by
  unfold coreWrote; split <;> rfl

section retires

variable {c : Instr} {s : State} {t : TileId} {d : Fin 32} {v pc : Word}

theorem wrote_of_regs {u : State} (h : (u.tile t).cc.regs = ((s.setGr t d v).tile t).cc.regs) : Wrote s u t d v := by
  obtain ⟨hd, hrest⟩ := s.wrote_setGr t d v
  exact ⟨(State.gr_of_regs h d).trans hd, fun r hr => (State.gr_of_regs h r).trans (hrest r hr)⟩

/-- Where nothing but registers has changed the core goes on. -/
theorem OnlyRegs.goesOn {u : State} (h : OnlyRegs s u t pc) :
    (u.tile t).cc.pc = pc ∧ (u.tile t).cc.state = .running ∧ (u.tile t).cc.wait = .none := by
  rw [OnlyRegs] at h
  rw [h, State.tile_setTile_same]
  exact ⟨rfl, rfl, rfl⟩

theorem Retires.jumps (h : Retires c s t d v pc) : Jumps c s t d v pc := by
  obtain ⟨u, hexec, hwrote, honly⟩ := h
  exact ⟨u, hexec, hwrote, honly.goesOn.1, fun _ => honly⟩

/-- Where branches are not traced a jump makes no record (R195). -/
theorem State.trace_branch_untraced (w : State) (h : w.traceMode t < 2) (data : List Byte) : w.trace t 1 data = w :=
  if_pos (.inr ⟨rfl, h⟩)

variable (hissue : Issues s t)
include hissue

theorem retires_setGr (hexec : exec c s = .next ((s.setGr t d v).retire t pc)) : Retires c s t d v pc := by
  obtain ⟨hstate, hwait⟩ := hissue.running
  obtain ⟨-, -, -, -, hdue⟩ := id hissue
  rw [State.retire_running (by simpa) (by simpa) (by simpa)] at hexec
  refine ⟨_, hexec, wrote_of_regs ?_, onlyRegs_modCc (f := id) fun _ => ⟨_, rfl⟩⟩
  rw [State.tile_modCc_same]
  rfl

theorem retires_aluRun {f : State → Word} (hexec : exec c s = .next (s.aluRun t d f)) (hv : f s = v) :
    Retires c s t d v (s.nextPc t) := by
  rw [State.aluRun, State.coreRun_issues hissue, hv] at hexec
  exact retires_setGr hissue hexec

theorem jumps_jumpTo (hexec : exec c s = .next (((s.setGr t d v).jumpTo t pc).1.retire t pc)) : Jumps c s t d v pc := by
  obtain ⟨hstate, hwait⟩ := hissue.running
  obtain ⟨-, -, -, -, hdue⟩ := id hissue
  have htraced := (s.setGr t d v).unobserved_trace t 1 (leBytes 4 pc.toNat)
  have hjumped : unobserved (((s.setGr t d v).jumpTo t pc).1.tile t) = unobserved ((s.setGr t d v).tile t) := by
    rw [State.jumpTo, State.unobserved_modCc (f := fun c => pmcAdd c 5 1) fun _ => rfl, htraced]
  have hdue' : (((s.setGr t d v).jumpTo t pc).1.tile t).cc.haltDue = 0 := by
    rw [← unobserved_haltDue, hjumped]; simpa
  have hran := State.unobserved_retire hdue' pc
  refine ⟨_, hexec, wrote_of_regs ?_, ?_, fun hmode => ?_⟩
  · rw [← unobserved_regs, hran, hjumped]; rfl
  · rw [← unobserved_pc, hran]
  · have hmode' : (s.setGr t d v).traceMode t < 2 := by
      have hsame : (s.setGr t d v).traceMode t = s.traceMode t := by unfold State.setGr; split <;> rfl
      rwa [hsame]
    rw [State.jumpTo, State.trace_branch_untraced _ hmode',
      State.retire_running (by simpa [pmcAdd]) (by simpa [pmcAdd]) (by simpa [pmcAdd]), State.modCc_modCc_same]
    exact onlyRegs_modCc fun _ => ⟨_, rfl⟩

end retires

/-! ### Values -/

theorem wInt_eq_ofInt (v : Int) : wInt v = BitVec.ofInt 32 v := by
  apply BitVec.eq_of_toNat_eq
  rw [wInt, unsign, BitVec.toNat_ofNat, BitVec.toNat_ofInt]
  omega

theorem flagW_slt (x y : Word) : flagW (x.slt y) = if x.toInt < y.toInt then 1 else 0 := by
  simp [flagW, BitVec.slt]

theorem flagW_ult (x y : Word) : flagW (x.ult y) = if x.toNat < y.toNat then 1 else 0 := by
  simp [flagW, BitVec.ult]

theorem mulh_value (x y : Word) :
    wInt (x.toInt * y.toInt / 2 ^ 32) = (x.signExtend 64 * y.signExtend 64).extractLsb' 32 32 := by
  have hprod : x.signExtend 64 * y.signExtend 64 = BitVec.ofInt 64 (x.toInt * y.toInt) := (BitVec.ofInt_mul _ _).symm
  rw [hprod, wInt_eq_ofInt]
  generalize x.toInt * y.toInt = p
  apply BitVec.eq_of_toNat_eq
  rw [BitVec.toNat_ofInt, BitVec.extractLsb'_toNat, BitVec.toNat_ofInt, Nat.shiftRight_eq_div_pow]
  omega

theorem mulhu_value (x y : Word) :
    BitVec.ofNat 32 (x.toNat * y.toNat / 2 ^ 32) = (x.setWidth 64 * y.setWidth 64).extractLsb' 32 32 := by
  have hx : (x.setWidth 64).toNat = x.toNat := BitVec.toNat_setWidth_of_le (by decide)
  have hy : (y.setWidth 64).toNat = y.toNat := BitVec.toNat_setWidth_of_le (by decide)
  apply BitVec.eq_of_toNat_eq
  rw [BitVec.extractLsb'_toNat, BitVec.toNat_mul, hx, hy, BitVec.toNat_ofNat, Nat.shiftRight_eq_div_pow]
  generalize x.toNat * y.toNat = p
  omega

theorem shiftKind_value (imm : BitVec 16) : bits imm.toNat 6 5 = (imm.extractLsb' 5 2).toNat := by
  rw [BitVec.extractLsb'_toNat, Nat.shiftRight_eq_div_pow, bits]

theorem lui_value (imm : BitVec 16) : zext16 imm <<< 16 = imm ++ (0 : BitVec 16) := by
  have happend : (imm ++ (0 : BitVec 16)).toNat = imm.toNat * 2 ^ 16 := by
    rw [BitVec.toNat_append, Nat.shiftLeft_eq]; simp
  have hlt := imm.isLt
  apply BitVec.eq_of_toNat_eq
  rw [BitVec.toNat_shiftLeft, zext16, BitVec.toNat_setWidth, Nat.shiftLeft_eq]
  refine Eq.trans ?_ happend.symm
  omega

theorem State.branchTarget_eq (s : State) (t : TileId) {w : Nat} (off : BitVec w) :
    s.branchTarget t off.toInt = s.nextPc t + off.signExtend 32 * 4 := by
  rw [State.branchTarget, Int.mul_comm, BitVec.ofInt_mul]
  rfl

/-! ### The obligations -/

/-- Settles O4: each of them writes g_d with its result and goes on. -/
theorem integerRegisterInstructions : Obligations.IntegerRegisterInstructions := by
  unfold Obligations.IntegerRegisterInstructions
  intro s t d a b hissue x y pc
  have hok : tileOk t = true := hissue.1
  refine ⟨?add, ?sub, ?and, ?or, ?xor, ?sll, ?srl, ?sra, ?slt, ?sltu, ?mul, ?mulh, ?mulhu⟩
  case add => exact retires_aluRun hissue (guardRes_next hok rfl) rfl
  case sub => exact retires_aluRun hissue (guardRes_next hok rfl) rfl
  case and => exact retires_aluRun hissue (guardRes_next hok rfl) rfl
  case or => exact retires_aluRun hissue (guardRes_next hok rfl) rfl
  case xor => exact retires_aluRun hissue (guardRes_next hok rfl) rfl
  case sll => exact retires_aluRun hissue (guardRes_next hok rfl) rfl
  case srl => exact retires_aluRun hissue (guardRes_next hok rfl) rfl
  case sra => exact retires_aluRun hissue (guardRes_next hok rfl) rfl
  case slt => exact retires_aluRun hissue (guardRes_next hok rfl) (flagW_slt x y)
  case sltu => exact retires_aluRun hissue (guardRes_next hok rfl) (flagW_ult x y)
  case mul => exact retires_aluRun hissue (guardRes_next hok rfl) rfl
  case mulh => exact retires_aluRun hissue (guardRes_next hok rfl) (mulh_value x y)
  case mulhu => exact retires_aluRun hissue (guardRes_next hok rfl) (mulhu_value x y)

section shift

variable {s : State} {t : TileId} (hissue : Issues s t) (d a : Fin 32) {imm : BitVec 16}
include hissue

theorem retires_shiftImmediate {kind : BitVec 2} (hkind : imm.extractLsb' 5 2 = kind) (hdefined : kind ≠ 3) :
    Retires (.shiftImmediate t d a imm) s t d (shiftW kind.toNat (s.gr t a) (imm.toNat % 32)) (s.nextPc t) := by
  have hbits : bits imm.toNat 6 5 = kind.toNat := by rw [shiftKind_value, hkind]
  have hthree : kind.toNat ≠ 3 := fun h => hdefined (BitVec.eq_of_toNat_eq h)
  refine retires_setGr hissue (guardRes_next hissue.1 ?_)
  rw [State.coreRun_issues hissue, hbits]
  simp only [hthree, if_false]
  rfl

theorem stopsCore_shiftImmediate (hkind : imm.extractLsb' 5 2 = 3) :
    StopsCore (.shiftImmediate t d a imm) s t 0x0301 0 0 0 := by
  have hbits : bits imm.toNat 6 5 = 3 := by rw [shiftKind_value, hkind]; rfl
  refine stopsCore_of_exec (guardRes_next hissue.1 ?_)
  rw [State.coreRun_issues hissue, hbits]
  rfl

end shift

/-- Settles O5, by the instruction and, for shifts, by the kind. -/
theorem integerImmediateInstructions : Obligations.IntegerImmediateInstructions := by
  unfold Obligations.IntegerImmediateInstructions
  intro s t d a imm hissue x pc
  have hok : tileOk t = true := hissue.1
  refine ⟨?addi, ?andi, ?ori, ?xori, ?slti, ?lui, fun h => ?sll, fun h => ?srl, fun h => ?sra,
    stopsCore_shiftImmediate hissue d a⟩
  case addi => exact retires_aluRun hissue (guardRes_next hok rfl) rfl
  case andi => exact retires_aluRun hissue (guardRes_next hok rfl) rfl
  case ori => exact retires_aluRun hissue (guardRes_next hok rfl) rfl
  case xori => exact retires_aluRun hissue (guardRes_next hok rfl) rfl
  case slti =>
    have hvalue := flagW_slt x (sext16 imm)
    rw [sext16, BitVec.toInt_signExtend_of_le (by decide)] at hvalue
    exact retires_aluRun hissue (guardRes_next hok rfl) hvalue
  case lui => exact retires_aluRun hissue (guardRes_next hok rfl) (lui_value imm)
  case sll => exact retires_shiftImmediate hissue d a h (by decide)
  case srl => exact retires_shiftImmediate hissue d a h (by decide)
  case sra => exact retires_shiftImmediate hissue d a h (by decide)

/-- A conditional branch (R173). -/
theorem jumps_branchRun {c : Instr} {s : State} {t : TileId} (hissue : Issues s t) {off : BitVec 16} {taken : State → Bool}
    {goes : Bool} (hexec : exec c s = .next (s.branchRun t off taken)) (htaken : taken s = goes) :
    Jumps c s t 0 0 (if goes then s.nextPc t + off.signExtend 32 * 4 else s.nextPc t) := by
  rw [State.branchRun, State.coreRun_issues hissue, htaken, State.branchTarget_eq] at hexec
  cases goes with
  | true => exact jumps_jumpTo hissue (by rw [State.setGr_zero]; exact hexec)
  | false => exact (retires_setGr hissue (by rw [State.setGr_zero]; exact hexec)).jumps

/-- A jump, with or without a link. -/
theorem jumps_coreRun {c : Instr} {s : State} {t : TileId} (hissue : Issues s t) {d : Fin 32} {v pc : Word}
    {f : State → State × CoreEnd} (hexec : exec c s = .next (s.coreRun t f)) (hf : f s = (s.setGr t d v).jumpTo t pc) :
    Jumps c s t d v pc := by
  rw [State.coreRun_issues hissue, hf] at hexec
  exact jumps_jumpTo hissue hexec

/-- Settles O8, branch by branch by what it compares and jump by jump by its target. -/
theorem branchAndJumpInstructions : Obligations.BranchAndJumpInstructions := by
  unfold Obligations.BranchAndJumpInstructions
  intro s t d a b off far hissue x y pc goes
  have hok : tileOk t = true := hissue.1
  refine ⟨?beq, ?bne, ?blt, ?bge, ?bltu, ?bgeu, ?j, ?jal, ?jr, ?jalr⟩
  case beq => exact jumps_branchRun hissue (guardRes_next hok rfl) rfl
  case bne => exact jumps_branchRun hissue (guardRes_next hok rfl) rfl
  case blt => exact jumps_branchRun hissue (guardRes_next hok rfl) rfl
  case bge =>
    have hge : (!x.slt y) = decide (y.toInt ≤ x.toInt) := Bool.eq_iff_iff.2 (by simp [BitVec.slt])
    exact jumps_branchRun hissue (guardRes_next hok rfl) hge
  case bltu => exact jumps_branchRun hissue (guardRes_next hok rfl) rfl
  case bgeu =>
    have hge : (!x.ult y) = decide (y.toNat ≤ x.toNat) := Bool.eq_iff_iff.2 (by simp [BitVec.ult])
    exact jumps_branchRun hissue (guardRes_next hok rfl) hge
  case j =>
    exact jumps_coreRun hissue (guardRes_next hok rfl) (by rw [State.setGr_zero, State.branchTarget_eq]; rfl)
  case jal => exact jumps_coreRun hissue (guardRes_next hok rfl) (by rw [State.branchTarget_eq]; rfl)
  case jr => exact jumps_coreRun hissue (guardRes_next hok rfl) (by rw [State.setGr_zero]; rfl)
  case jalr => exact jumps_coreRun hissue (guardRes_next hok rfl) rfl

end Sys2Proof.Machine
end

section
/-!
SUPPORT. The bytes of the core's address map (R171, Table 7.1), loads and stores (R172, R197), and the obligations O6 and O7.
-/

namespace Sys2Proof.Machine

/-! ### Bytes of words (R8) -/

theorem toNat_append_bytes {n : Nat} (hi : BitVec n) (lo : Byte) : (hi ++ lo).toNat = lo.toNat + 256 * hi.toNat := by
  rw [BitVec.toNat_append, Nat.shiftLeft_eq, Nat.mul_comm, ← Nat.two_pow_add_eq_or_of_lt lo.isLt]
  omega

/-- The number that bytes spell is that of the bytes joined, the first one lowest. -/
theorem leNat_one (b0 : Byte) : leNat [b0] = b0.toNat := by simp [leNat]

theorem leNat_two (b0 b1 : Byte) : leNat [b0, b1] = (b1 ++ b0).toNat := by
  rw [toNat_append_bytes]; simp [leNat]

theorem leNat_four (b0 b1 b2 b3 : Byte) : leNat [b0, b1, b2, b3] = (b3 ++ b2 ++ b1 ++ b0).toNat := by
  rw [toNat_append_bytes, toNat_append_bytes, toNat_append_bytes]; simp [leNat]

theorem signed_toNat {n : Nat} (hn : 0 < n) (v : BitVec n) : signed n v.toNat = v.toInt := by
  have hpow : 2 ^ n = 2 * 2 ^ (n - 1) := by rw [← Nat.pow_succ', Nat.succ_eq_add_one, Nat.sub_add_cancel hn]
  have hlt := v.isLt
  have hint : (2 : Int) ^ n = ((2 ^ n : Nat) : Int) := by push_cast; rfl
  rw [signed, Nat.mod_eq_of_lt hlt, BitVec.toInt_eq_toNat_cond, hint, ← Int.natCast_mod, Nat.mod_eq_of_lt hlt]
  split <;> split <;> omega

/-- A sign-extended load (R171). -/
theorem wInt_signed {n : Nat} (hn : 0 < n) (v : BitVec n) : wInt (signed n v.toNat) = v.signExtend 32 := by
  rw [wInt_eq_ofInt, signed_toNat hn]; rfl

/-- Byte `i` of a number's bytes. -/
theorem getElem_leBytes (n v i : Nat) (h : i < (leBytes n v).length) : (leBytes n v)[i] = BitVec.ofNat 8 (v / 256 ^ i) := by
  induction n generalizing v i with
  | zero => simp [leBytes] at h
  | succ n ih =>
    cases i with
    | zero =>
      apply BitVec.eq_of_toNat_eq
      simp [leBytes]
    | succ i =>
      have hn : i < (leBytes n (v / 256)).length := by simpa [leBytes] using h
      simp only [leBytes, List.getElem_cons_succ]
      rw [ih _ _ hn, Nat.div_div_eq_div_mul, ← Nat.pow_succ']

theorem getElem_leBytes_word (n : Nat) (v : Word) (i : Nat) (h : i < (leBytes n v.toNat).length) :
    (leBytes n v.toNat)[i] = v.extractLsb' (8 * i) 8 := by
  apply BitVec.eq_of_toNat_eq
  rw [getElem_leBytes, BitVec.extractLsb'_toNat, BitVec.toNat_ofNat, Nat.shiftRight_eq_div_pow, Nat.pow_mul]

theorem mwriteOpt_enabled (bs : List Byte) (m : SMap Byte) (k : Nat) : mwriteOpt 0 m k (enabled bs) = mwrite 0 m k bs := by
  induction bs generalizing m k with
  | nil => rfl
  | cons b r ih => exact ih _ _

@[simp] theorem getElem_mread {α : Type} (d : α) (m : SMap α) (k n i : Nat) (h : i < (mread d m k n).length) :
    (mread d m k n)[i] = mget d m (k + i) := by
  induction n generalizing k i with
  | zero => simp [mread] at h
  | succ n ih =>
    cases i with
    | zero => rfl
    | succ i =>
      have hn : i < (mread d m (k + 1) n).length := by simpa [mread] using h
      simp only [mread, List.getElem_cons_succ]
      rw [ih _ _ hn, Nat.add_assoc, Nat.add_comm 1]

/-! ### Granules with an uncorrectable error (R120) -/

theorem badIn_eq_nil {p : Spad} {off n : Nat} : badIn p off n = [] ↔
    ∀ g ∈ p.bad, 8 * g + 8 ≤ off ∨ off + n ≤ 8 * g := by
  simp only [badIn, List.map_eq_nil_iff, List.filter_eq_nil_iff, Bool.and_eq_true, decide_eq_true_eq, not_and, Nat.not_lt]
  exact forall₂_congr fun g _ => by omega

/-- A range of bytes each without an uncorrectable error. -/
theorem badIn_of_bytes {p : Spad} {off n : Nat} (hpos : 0 < n) (h : ∀ i, i < n → badIn p (off + i) 1 = []) :
    badIn p off n = [] := by
  rw [badIn_eq_nil]
  intro g hg
  by_contra hmeets
  have hbyte := badIn_eq_nil.1 (h (max (8 * g) off - off) (by omega)) g hg
  omega

theorem spGet_good {s : State} {t : TileId} {off n : Nat} (h : badIn (s.tile t).sp off n = []) (agent loc : Nat) :
    s.spGet t agent loc off n = (s, spRead (s.tile t).sp off n, 0) := by
  unfold State.spGet
  dsimp only
  rw [h]

/-! ### The address map (R171, Table 7.1) -/

theorem coreRegion_dsram {a n : Nat} (hlo : 0x10000 ≤ a) (hhi : a + n ≤ 0x18000) : coreRegion a n = .dsram (a - 0x10000) :=
  if_pos ⟨hlo, hhi⟩

theorem coreRegion_spad {a n : Nat} (hlo : 0x10000000 ≤ a) (hhi : a + n ≤ 0x10200000) :
    coreRegion a n = .spad (a - 0x10000000) :=
  (if_neg (by omega)).trans (if_pos ⟨hlo, hhi⟩)

section access

variable {s : State} {t : TileId}

theorem coreByte_dsram {a : Nat} (hlo : 0x10000 ≤ a) (hhi : a < 0x18000) :
    coreByte s t a = some (mget 0 (s.tile t).cc.dsram (a - 0x10000)) :=
  if_pos ⟨hlo, hhi⟩

theorem coreByte_spad {a : Nat} (hlo : 0x10000000 ≤ a) (hhi : a < 0x10200000)
    (hgood : badIn (s.tile t).sp (a - 0x10000000) 1 = []) :
    coreByte s t a = some (mget 0 (s.tile t).sp.mem (a - 0x10000000)) :=
  (if_neg (by omega)).trans (if_pos ⟨hlo, hhi, hgood⟩)

/-- Where a byte of the core's memory lies. -/
theorem coreByte_cases {a : Nat} {b : Byte} (h : coreByte s t a = some b) :
    (0x10000 ≤ a ∧ a < 0x18000 ∧ mget 0 (s.tile t).cc.dsram (a - 0x10000) = b) ∨
      (0x10000000 ≤ a ∧ a < 0x10200000 ∧ badIn (s.tile t).sp (a - 0x10000000) 1 = [] ∧
        mget 0 (s.tile t).sp.mem (a - 0x10000000) = b) := by
  unfold coreByte at h
  split at h
  · rename_i hin
    exact .inl ⟨hin.1, hin.2, Option.some.inj h⟩
  · split at h
    · rename_i hin
      exact .inr ⟨hin.1, hin.2.1, hin.2.2, Option.some.inj h⟩
    · cases h

/-- The byte at an address depends on data SRAM and scratchpad alone. -/
theorem coreByte_congr {u : State} (hdsram : (u.tile t).cc.dsram = (s.tile t).cc.dsram)
    (hsp : (u.tile t).sp = (s.tile t).sp) (a : Nat) : coreByte u t a = coreByte s t a := by
  simp only [coreByte, hdsram, hsp]

/-! ### Reads and writes of the core -/

/-- An aligned read of at most four bytes that the address map gives. -/
theorem State.coreRead_bytes {x n : Nat} {bs : List Byte} (hlen : bs.length = n) (hpos : 0 < n) (hmax : n ≤ 4)
    (halign : x % n = 0) (hbytes : ∀ i (h : i < bs.length), coreByte s t (x + i) = some bs[i]) :
    s.coreRead t x n = (s, leNat bs, 0) := by
  have hfirst := coreByte_cases (a := x) (hbytes 0 (by omega))
  have hlast := coreByte_cases (hbytes (n - 1) (by omega))
  rw [State.coreRead, if_neg (not_not.2 halign)]
  rcases hfirst with ⟨hlo, hhi, -⟩ | ⟨hlo, -⟩
  · have hend : x + n ≤ 0x18000 := by rcases hlast with ⟨-, h, -⟩ | ⟨h, -⟩ <;> omega
    have hread : mread 0 (s.tile t).cc.dsram (x - 0x10000) n = bs :=
      List.ext_getElem (by simp [hlen]) fun i _ hi => by
        rcases coreByte_cases (hbytes i hi) with ⟨-, -, h⟩ | ⟨h, -⟩
        · rw [getElem_mread, show x - 0x10000 + i = x + i - 0x10000 by omega, h]
        · omega
    simp only [coreRegion_dsram hlo hend, hread]
  · have hend : x + n ≤ 0x10200000 := by rcases hlast with ⟨-, h, -⟩ | ⟨-, h, -⟩ <;> omega
    have hspad : ∀ i (hi : i < bs.length), badIn (s.tile t).sp (x - 0x10000000 + i) 1 = [] ∧
        mget 0 (s.tile t).sp.mem (x - 0x10000000 + i) = bs[i] := fun i hi => by
      rcases coreByte_cases (hbytes i hi) with ⟨-, h, -⟩ | ⟨-, -, hgood, h⟩
      · omega
      · rw [show x - 0x10000000 + i = x + i - 0x10000000 by omega]
        exact ⟨hgood, h⟩
    have hgood : badIn (s.tile t).sp (x - 0x10000000) n = [] :=
      badIn_of_bytes hpos fun i hi => (hspad i (by omega)).1
    have hread : spRead (s.tile t).sp (x - 0x10000000) n = bs :=
      List.ext_getElem (by simp [hlen]) fun i _ hi => (getElem_mread _ _ _ _ _ _).trans (hspad i hi).2
    simp only [coreRegion_spad hlo hend, spGet_good hgood, hread]

theorem State.coreRead_misaligned {x n : Nat} (h : x % n ≠ 0) : s.coreRead t x n = (s.misaligned t, 0, 0x0401) := if_pos h

theorem State.coreRead_unmapped {x n : Nat} (halign : x % n = 0) (hregion : coreRegion x n = .none) :
    s.coreRead t x n = (s, 0, 0x0303) := by
  rw [State.coreRead, if_neg (not_not.2 halign), hregion]

theorem State.coreWrite_misaligned {x : Nat} {bs : List Byte} (h : x % bs.length ≠ 0) :
    s.coreWrite t x bs = (s.misaligned t, 0x0401) := if_pos h

theorem State.coreWrite_unmapped {x : Nat} {bs : List Byte} (halign : x % bs.length = 0)
    (hregion : coreRegion x bs.length = .none) : s.coreWrite t x bs = (s, 0x0303) := by
  rw [State.coreWrite, if_neg (not_not.2 halign), hregion]

/-- A tile with other contents of data SRAM and scratchpad. -/
def tileHolding (dsram mem : SMap Byte) (T : Tile) : Tile :=
  { T with sp := { T.sp with mem := mem }, cc := { T.cc with dsram := dsram } }

/-- Fewer than eight bytes replace no granule whole. -/
theorem coversGranule_short {off g : Nat} {bs : List (Option Byte)} (h : bs.length < 8) : coversGranule off bs g = false := by
  simp only [coversGranule, Bool.and_eq_false_iff, decide_eq_false_iff_not]
  omega

/-- A write within one good word of the scratchpad meets no granule that refuses it. -/
theorem badForWrite_good {p : Spad} {off : Nat} {bs : List (Option Byte)} (hword : off % 32 + bs.length ≤ 32)
    (hgood : badIn p (off / 32 * 32) 32 = []) : badForWrite p off bs = [] := by
  rw [badForWrite, List.filter_eq_nil_iff]
  intro a ha
  obtain ⟨g, hg, rfl⟩ := List.mem_map.1 ha
  have hout := badIn_eq_nil.1 hgood g (List.mem_of_mem_filter hg)
  simp only [Bool.and_eq_true, touchesWord, List.any_eq_true, List.mem_range, beq_iff_eq, not_and, not_exists]
  intro _ i hi hsame
  omega

theorem State.spStore_short {agent off : Nat} (hagent : isMover agent = false) (loc : Nat) {bs : List Byte}
    (hshort : bs.length < 8) (hword : off % 32 + bs.length ≤ 32) (hguard : guardOf (s.tile t) off bs.length = none)
    (hgood : badIn (s.tile t).sp (off / 32 * 32) 32 = []) :
    s.spStore t agent loc off (enabled bs) =
      s.setTile t (tileHolding (s.tile t).cc.dsram (mwrite 0 (s.tile t).sp.mem off bs) (s.tile t)) := by
  have hlen : (enabled bs).length = bs.length := length_enabled bs
  have hbad : (s.tile t).sp.bad.filter (fun g => !coversGranule off (enabled bs) (8 * g)) = (s.tile t).sp.bad :=
    List.filter_eq_self.2 fun g _ => by rw [coversGranule_short (by omega)]; rfl
  simp only [State.spStore, hagent, hlen, hguard, State.spPut, Bool.false_eq_true, if_false,
    badForWrite_good (bs := enabled bs) (by omega) hgood]
  simp only [State.modSp, State.modTile, spWrite, mwriteOpt_enabled, hbad]
  rfl

end access

/-! ### Accesses that a core issues (R172, R197) -/

/-- An access that a core issues: its effect, and then a watchpoint that it touched. -/
def State.accessRun (s : State) (t : TileId) (hit : Option Bool) (f : State → State × CoreEnd) : State :=
  if mayIssue (s.tile t).cc false && decide ((s.tile t).cc.pc.toNat < 0x10000) && (s.breakAt t).isNone then
    (s.coreRun t f).afterAccess t hit
  else s.coreRun t f

section issued

variable {c : Instr} {s w : State} {t : TileId} {hit : Option Bool} {f : State → State × CoreEnd} (hissue : Issues s t)
  (hexec : exec c s = .next (s.accessRun t hit f))

include hissue in
theorem State.accessRun_issues : s.accessRun t hit f = ((f s).1.coreEnd t (f s).2).afterAccess t hit := by
  obtain ⟨-, hmay, hpc, hbreak, -⟩ := id hissue
  rw [State.accessRun, hmay, decide_eq_true hpc, hbreak, State.coreRun_issues hissue]
  rfl

/-- A watchpoint finds a core stopped by its access no longer running. -/
theorem State.afterAccess_coreFault (status fn addr cause : Nat) :
    (w.coreFault t status fn addr cause).afterAccess t hit = w.coreFault t status fn addr cause := by
  have hstate : ((w.coreFault t status fn addr cause).tile t).cc.state = .stoppedFault :=
    (w.coreStopped_raiseFault t _).state
  cases hit with
  | none => rfl
  | some scope => exact if_neg (by rw [hstate]; decide)

include hissue hexec

theorem stopsCore_access {status fn addr cause : Nat} (hf : f s = (w, .stop status fn addr cause))
    (hw : w = s ∨ w = s.misaligned t) : StopsCore c s t status fn addr cause := by
  have hran : exec c s = .next (w.coreFault t status fn addr cause) := by
    rw [hexec, State.accessRun_issues hissue, hf]
    exact congrArg _ (State.afterAccess_coreFault _ _ _ _)
  rcases hw with rfl | rfl
  · exact stopsCore_of_exec hran
  · have htile : ((s.misaligned t).tile t).cc = (s.tile t).cc := by
      rw [State.misaligned, State.odAdd_tile, State.modSp, State.tile_modTile_same]
    exact stopsCore_after (w := s.misaligned t) (by rw [htile]) (by rw [htile]) rfl hran

theorem exec_access_unwatched {pc : Word} (hf : f s = (w, .retire pc)) (hhit : hit = none) :
    exec c s = .next (w.retire t pc) := by
  rw [hexec, State.accessRun_issues hissue, hf, hhit]
  rfl

end issued

/-! ### Loads (R171, R172) -/

section load

variable {c : Instr} {s : State} {t : TileId} {d a : Fin 32} {imm : BitVec 16} {n : Nat} {ext : Nat → Word}
  {bs : List Byte} {v : Word} (hissue : Issues s t) (hexec : exec c s = .next (s.loadRun t d a imm n ext))
include hissue hexec

theorem retires_load (hv : ext (leNat bs) = v) (hlen : bs.length = n) (hpos : 0 < n) (hmax : n ≤ 4)
    (halign : s.coreAddr t a imm % n = 0)
    (hbytes : ∀ i (h : i < bs.length), coreByte s t (s.coreAddr t a imm + i) = some bs[i])
    (hwatch : s.watchHit t (s.coreAddr t a imm) n false = none) :
    Retires c s t d v (s.nextPc t) := by
  subst hv
  refine retires_setGr hissue (exec_access_unwatched hissue hexec ?_ hwatch)
  simp only [State.coreRead_bytes hlen hpos hmax halign hbytes]
  rfl

theorem stopsCore_load_misaligned (halign : s.coreAddr t a imm % n ≠ 0) :
    StopsCore c s t 0x0401 0 (s.coreAddr t a imm) 0 := by
  refine stopsCore_access hissue hexec (w := s.misaligned t) ?_ (.inr rfl)
  simp only [State.coreRead_misaligned halign]
  rfl

theorem stopsCore_load_unmapped (halign : s.coreAddr t a imm % n = 0)
    (hregion : coreRegion (s.coreAddr t a imm) n = .none) : StopsCore c s t 0x0303 0 (s.coreAddr t a imm) 0 := by
  refine stopsCore_access hissue hexec (w := s) ?_ (.inl rfl)
  simp only [State.coreRead_unmapped halign hregion]
  rfl

end load

/-- Settles O6, by the width of the load and where its bytes lie. -/
theorem loadInstructions : Obligations.LoadInstructions := by
  unfold Obligations.LoadInstructions
  intro s t d a imm hissue x pc
  have hok : tileOk t = true := hissue.1
  refine ⟨fun b0 h0 hwatch => ?byte, fun b0 b1 halign h0 h1 hwatch => ?half,
    fun b0 b1 b2 b3 halign h0 h1 h2 h3 hwatch => ?word, fun halign => ⟨?_, ?_⟩, fun halign => ?_,
    fun hregion halign => ?_, fun hregion => ⟨?_, ?_⟩⟩
  case byte =>
    have hbytes : ∀ i (h : i < [b0].length), coreByte s t (x + i) = some [b0][i] := by
      intro i hi
      obtain rfl : i = 0 := by simpa using hi
      exact h0
    have hsigned := wInt_signed (by decide) b0
    have hzero := BitVec.ofNat_toNat 32 b0
    rw [← leNat_one] at hsigned hzero
    have halign : x % 1 = 0 := Nat.mod_one x
    exact ⟨retires_load (n := 1) hissue (guardRes_next hok rfl) hsigned rfl (by decide) (by decide) halign hbytes hwatch,
      retires_load (n := 1) hissue (guardRes_next hok rfl) hzero rfl (by decide) (by decide) halign hbytes hwatch⟩
  case half =>
    have hbytes : ∀ i (h : i < [b0, b1].length), coreByte s t (x + i) = some [b0, b1][i]
      | 0, _ => h0
      | 1, _ => h1
    have hsigned := wInt_signed (by decide) (b1 ++ b0)
    have hzero := BitVec.ofNat_toNat 32 (b1 ++ b0)
    rw [← leNat_two] at hsigned hzero
    exact ⟨retires_load (n := 2) hissue (guardRes_next hok rfl) hsigned rfl (by decide) (by decide) halign hbytes hwatch,
      retires_load (n := 2) hissue (guardRes_next hok rfl) hzero rfl (by decide) (by decide) halign hbytes hwatch⟩
  case word =>
    have hbytes : ∀ i (h : i < [b0, b1, b2, b3].length), coreByte s t (x + i) = some [b0, b1, b2, b3][i]
      | 0, _ => h0
      | 1, _ => h1
      | 2, _ => h2
      | 3, _ => h3
    have hvalue := (BitVec.ofNat_toNat 32 (b3 ++ b2 ++ b1 ++ b0)).trans (BitVec.setWidth_eq _)
    rw [← leNat_four] at hvalue
    exact retires_load (n := 4) hissue (guardRes_next hok rfl) hvalue rfl (by decide) (by decide) halign hbytes hwatch
  · exact stopsCore_load_misaligned hissue (guardRes_next hok rfl) halign
  · exact stopsCore_load_misaligned hissue (guardRes_next hok rfl) halign
  · exact stopsCore_load_misaligned hissue (guardRes_next hok rfl) halign
  · exact stopsCore_load_unmapped hissue (guardRes_next hok rfl) halign hregion
  · exact stopsCore_load_unmapped hissue (guardRes_next hok rfl) (Nat.mod_one _) hregion
  · exact stopsCore_load_unmapped hissue (guardRes_next hok rfl) (Nat.mod_one _) hregion

/-! ### Stores (R127, R171, R172) -/

section stored

variable {s : State} {t : TileId} {x n : Nat} {v pc : Word}

/-- What a store leaves once its instruction has retired. -/
theorem stored_retire (hissue : Issues s t) {dsram mem : SMap Byte}
    (hin : ∀ i < n, coreByte (s.setTile t (tileHolding dsram mem (s.tile t))) t (x + i) = some (v.extractLsb' (8 * i) 8))
    (hout : ∀ y, y < x ∨ x + n ≤ y →
      coreByte (s.setTile t (tileHolding dsram mem (s.tile t))) t y = coreByte s t y) :
    Stored s ((s.setTile t (tileHolding dsram mem (s.tile t))).retire t pc) t x n v pc := by
  obtain ⟨hstate, hwait⟩ := hissue.running
  obtain ⟨-, -, -, -, hdue⟩ := hissue
  have htile : (s.setTile t (tileHolding dsram mem (s.tile t))).tile t = tileHolding dsram mem (s.tile t) :=
    State.tile_setTile_same _ _ _
  rw [State.retire_running (by rw [htile]; exact hstate) (by rw [htile]; exact hwait) (by rw [htile]; exact hdue)]
  have hbyte : ∀ y, coreByte ((s.setTile t (tileHolding dsram mem (s.tile t))).modCc t (coreRetired pc)) t y =
      coreByte (s.setTile t (tileHolding dsram mem (s.tile t))) t y :=
    coreByte_congr (by rw [State.tile_modCc_same]; rfl) (by rw [State.tile_modCc_same])
  refine ⟨fun i hi => (hbyte _).trans (hin i hi), fun y hy => (hbyte _).trans (hout y hy), ?_, ?_⟩
  · exact State.gr_of_regs (by rw [State.tile_modCc_same, htile]; rfl)
  · rw [State.tile_modCc_same, htile, State.modCc, State.modTile, htile, State.setTile_setTile_same]
    rfl

/-- The bytes of a word stored, at the addresses of the store. -/
theorem mget_mwrite_word (m : SMap Byte) (k i : Nat) (hi : i < n) :
    mget 0 (mwrite 0 m k (leBytes n v.toNat)) (k + i) = v.extractLsb' (8 * i) 8 := by
  have hlen : i < (leBytes n v.toNat).length := by rwa [length_leBytes]
  rw [mget_mwrite, if_neg (by omega), Nat.add_sub_cancel_left, List.getElem?_eq_getElem hlen, Option.getD_some,
    getElem_leBytes_word]

theorem mget_mwrite_beyond (m : SMap Byte) {k j : Nat} (h : j < k ∨ k + n ≤ j) :
    mget 0 (mwrite 0 m k (leBytes n v.toNat)) j = mget 0 m j := by
  rw [mget_mwrite]
  rcases h with h | h
  · rw [if_pos h]
  · rw [if_neg (by omega), List.getElem?_eq_none (by rw [length_leBytes]; omega), Option.getD_none]

variable (hissue : Issues s t)
include hissue

theorem stored_dsram (hlo : 0x10000 ≤ x) (hhi : x + n ≤ 0x18000) :
    Stored s ((s.setTile t (tileHolding (mwrite 0 (s.tile t).cc.dsram (x - 0x10000) (leBytes n v.toNat))
      (s.tile t).sp.mem (s.tile t))).retire t pc) t x n v pc := by
  refine stored_retire hissue (fun i hi => ?_) (fun y hy => ?_)
  · rw [coreByte_dsram (by omega) (by omega), State.tile_setTile_same, show x + i - 0x10000 = x - 0x10000 + i by omega]
    exact congrArg some (mget_mwrite_word _ _ _ hi)
  · unfold coreByte
    rw [State.tile_setTile_same]
    split
    · exact congrArg some (mget_mwrite_beyond _ (by omega))
    · rfl

theorem stored_spad (hlo : 0x10000000 ≤ x) (hhi : x + n ≤ 0x10200000) (hword : (x - 0x10000000) % 32 + n ≤ 32)
    (hgood : badIn (s.tile t).sp ((x - 0x10000000) / 32 * 32) 32 = []) :
    Stored s ((s.setTile t (tileHolding (s.tile t).cc.dsram
      (mwrite 0 (s.tile t).sp.mem (x - 0x10000000) (leBytes n v.toNat)) (s.tile t))).retire t pc) t x n v pc := by
  refine stored_retire hissue (fun i hi => ?_) (fun y hy => ?_)
  · have hbyte : badIn (s.tile t).sp (x + i - 0x10000000) 1 = [] := badIn_eq_nil.2 fun g hg => by
      have hclear := badIn_eq_nil.1 hgood g hg
      omega
    rw [coreByte_spad (by omega) (by omega) (by rw [State.tile_setTile_same]; exact hbyte), State.tile_setTile_same,
      show x + i - 0x10000000 = x - 0x10000000 + i by omega]
    exact congrArg some (mget_mwrite_word _ _ _ hi)
  · unfold coreByte
    rw [State.tile_setTile_same]
    split
    · rfl
    · split
      · rw [if_pos ‹_›]
        exact congrArg some (mget_mwrite_beyond _ (by omega))
      · exact (if_neg ‹_›).symm

/-- A store of a byte, halfword or word to storable bytes. -/
theorem stored_coreWrite (hwidth : n = 1 ∨ n = 2 ∨ n = 4) (hstorable : Storable s t x n) (halign : x % n = 0) :
    ∃ w, s.coreWrite t x (leBytes n v.toNat) = (w, 0) ∧ Stored s (w.retire t pc) t x n v pc := by
  have hword : x % 32 + n ≤ 32 := by rcases hwidth with rfl | rfl | rfl <;> omega
  have hlen : (leBytes n v.toNat).length = n := length_leBytes _ _
  have hal : ¬x % (leBytes n v.toNat).length ≠ 0 := by rw [hlen, not_not]; exact halign
  rw [State.coreWrite, if_neg hal, hlen]
  rcases hstorable with ⟨hlo, hhi⟩ | ⟨hlo, hhi, hguard, hgood⟩
  · refine ⟨_, ?_, stored_dsram hissue hlo hhi⟩
    simp only [coreRegion_dsram hlo hhi]
    rfl
  · refine ⟨_, ?_, stored_spad hissue hlo hhi (by omega) hgood⟩
    simp only [coreRegion_spad hlo hhi]
    rw [State.spStore_short (by decide) _ (by omega) (by omega) (by rwa [hlen]) hgood]

end stored

section store

variable {c : Instr} {s : State} {t : TileId} {d a : Fin 32} {imm : BitVec 16} {n : Nat} (hissue : Issues s t)
  (hexec : exec c s = .next (s.storeRun t d a imm n))
include hissue hexec

theorem answers_store (hwidth : n = 1 ∨ n = 2 ∨ n = 4) (hstorable : Storable s t (s.coreAddr t a imm) n)
    (halign : s.coreAddr t a imm % n = 0) (hwatch : s.watchHit t (s.coreAddr t a imm) n true = none) :
    Answers c s (fun u => Stored s u t (s.coreAddr t a imm) n (s.gr t d) (s.nextPc t)) := by
  obtain ⟨w, hwrite, hstored⟩ := stored_coreWrite (v := s.gr t d) (pc := s.nextPc t) hissue hwidth hstorable halign
  refine ⟨_, exec_access_unwatched hissue hexec ?_ hwatch, hstored⟩
  simp only [hwrite]
  rfl

theorem stopsCore_store_misaligned (halign : s.coreAddr t a imm % n ≠ 0) :
    StopsCore c s t 0x0401 0 (s.coreAddr t a imm) 0 := by
  refine stopsCore_access hissue hexec (w := s.misaligned t) ?_ (.inr rfl)
  simp only [State.coreWrite_misaligned (bs := leBytes n (s.gr t d).toNat) (by rwa [length_leBytes])]
  rfl

theorem stopsCore_store_unmapped (halign : s.coreAddr t a imm % n = 0)
    (hregion : coreRegion (s.coreAddr t a imm) n = .none) : StopsCore c s t 0x0303 0 (s.coreAddr t a imm) 0 := by
  refine stopsCore_access hissue hexec (w := s) ?_ (.inl rfl)
  simp only [State.coreWrite_unmapped (bs := leBytes n (s.gr t d).toNat) (by rwa [length_leBytes])
    (by rwa [length_leBytes])]
  rfl

end store

/-- Settles O7, by the width of the store and what its address is. -/
theorem storeInstructions : Obligations.StoreInstructions := by
  unfold Obligations.StoreInstructions
  intro s t d a imm hissue x v pc
  have hok : tileOk t = true := hissue.1
  refine ⟨fun hstorable hwatch => ?byte, fun hstorable halign hwatch => ?half, fun hstorable halign hwatch => ?word,
    fun halign => ?half_misaligned, fun halign => ?word_misaligned, fun hregion halign => ?word_unmapped,
    fun hregion => ?byte_unmapped⟩
  case byte => exact answers_store hissue (guardRes_next hok rfl) (by decide) hstorable (Nat.mod_one _) hwatch
  case half => exact answers_store hissue (guardRes_next hok rfl) (by decide) hstorable halign hwatch
  case word => exact answers_store hissue (guardRes_next hok rfl) (by decide) hstorable halign hwatch
  case half_misaligned => exact stopsCore_store_misaligned hissue (guardRes_next hok rfl) halign
  case word_misaligned => exact stopsCore_store_misaligned hissue (guardRes_next hok rfl) halign
  case word_unmapped => exact stopsCore_store_unmapped hissue (guardRes_next hok rfl) halign hregion
  case byte_unmapped => exact stopsCore_store_unmapped hissue (guardRes_next hok rfl) (Nat.mod_one _) hregion

end Sys2Proof.Machine
end

section
/-!
SUPPORT. WAIT, FENCE, HALT, TRAP, BRK (R173, R175, R178, R197), the watchdog and the timer (R175, R181), halting, resuming and
stepping of cores and partitions (R195, R198, R200), and the obligations O12, O13 and O16.
-/

namespace Sys2Proof.Machine

/-! ### System instructions -/

section system

variable {c : Instr} {s : State} {t : TileId} (hissue : Issues s t)
include hissue

/-- An instruction that only goes on. -/
theorem retires_nothing (hexec : exec c s = .next (s.retire t (s.nextPc t))) : Retires c s t 0 0 (s.nextPc t) :=
  retires_setGr hissue (by rw [State.setGr_zero]; exact hexec)

/-- A core that issues may also meet its WAIT again. -/
theorem State.coreStep_issues (f : State → State × CoreEnd) : s.coreStep t true f = (f s).1.coreEnd t (f s).2 := by
  obtain ⟨hstate, -⟩ := hissue.running
  have hagain : s.coreStep t true f = s.coreRun t f := by
    simp [State.coreRun, State.coreStep, mayIssue, hstate]
  rw [hagain, State.coreRun_issues hissue]

/-- What WAIT finds: the standing events of its mask. -/
def waitFinds (s : State) (t : TileId) (a : Fin 32) : Word := BitVec.ofNat 32 (eventsNow (s.tile t).cc) &&& s.gr t a

omit hissue in
theorem exec_wait (hok : tileOk t = true) (d a : Fin 32) : exec (.wait t d a) s = .next (s.coreStep t true fun s =>
    if waitFinds s t a = 0 then (s.modCc t (fun c => { pmcSettle s.clkTime c with state := .waiting }), .hold)
    else (s.setGr t d (waitFinds s t a), .retire (s.nextPc t))) :=
  guardRes_next hok rfl

theorem retires_wait (d : Fin 32) {a : Fin 32} (hfound : waitFinds s t a ≠ 0) :
    Retires (.wait t d a) s t d (waitFinds s t a) (s.nextPc t) := by
  refine retires_setGr hissue ?_
  rw [exec_wait hissue.1, State.coreStep_issues hissue]
  simp only [hfound, if_false]
  rfl

theorem exec_wait_waits (d : Fin 32) {a : Fin 32} (hnone : waitFinds s t a = 0) :
    exec (.wait t d a) s = .next (s.modCc t (fun c => { pmcSettle s.clkTime c with state := .waiting })) := by
  rw [exec_wait hissue.1, State.coreStep_issues hissue]
  simp only [hnone, if_true]
  rfl

theorem retires_fence (hnone : ∀ x ∈ (s.tile t).tx, x.agent ≠ .core) : Retires (.fence t) s t 0 0 (s.nextPc t) := by
  have hidle : (s.tile t).tx.any (fun x => x.agent == .core) = false := by simpa using hnone
  refine retires_nothing hissue (guardRes_next hissue.1 ?_)
  rw [State.coreRun_issues hissue, hidle]
  rfl

theorem noEffect_fence (hsome : ∃ x ∈ (s.tile t).tx, x.agent = .core) : NoEffect (.fence t) s := by
  have hbusy : (s.tile t).tx.any (fun x => x.agent == .core) = true := by simpa using hsome
  refine guardRes_next hissue.1 ?_
  rw [State.coreRun_issues hissue, hbusy]
  rfl

/-- A core that HALT stops (R173). -/
def coreHaltedByHalt (c : Core) : Core := pmcAdd { c with pc := c.pc + 4, passBp := false, state := .stoppedHalt } 2 1

theorem answers_halt : Answers (.halt t) s (fun u => (u.tile t).cc.state = .stoppedHalt ∧
    (u.tile t).cc.pc = s.nextPc t ∧ (∀ r, u.gr t r = s.gr t r) ∧ OnlyTile s u t) := by
  refine ⟨s.modCc t coreHaltedByHalt, guardRes_next hissue.1 (State.coreRun_issues hissue _), ?_, ?_, State.gr_of_regs ?_,
    onlyTile_modTile s t _⟩
  · rw [State.tile_modCc_same]; rfl
  · rw [State.tile_modCc_same]; rfl
  · rw [State.tile_modCc_same]; rfl

theorem stopsCore_coreRun {f : State → State × CoreEnd} {status fn addr cause : Nat}
    (hexec : exec c s = .next (s.coreRun t f)) (hf : f s = (s, .stop status fn addr cause)) :
    StopsCore c s t status fn addr cause := by
  rw [State.coreRun_issues hissue, hf] at hexec
  exact stopsCore_of_exec hexec

end system

/-! ### Halting and resuming a core (R198, R200) -/

section halt

variable {s : State} {t : TileId}

/-- A core `d` halted with a cause where the core was `c`. -/
structure CoreHalted (c d : Core) (cause : Nat) : Prop where
  state : d.state = .halted
  haltCause : d.haltCause = cause
  pc : d.pc = c.pc
  regs : d.regs = c.regs

theorem coreHalted_of_unobserved {c d : Core} {cause timer timerAt : Nat}
    (h : coreUnobserved d = { coreUnobserved c with
      timer := timer, timerAt := timerAt, state := .halted, haltCause := cause, haltDue := 0 }) : CoreHalted c d cause := by
  have hstate := congrArg Core.state h
  have hcause := congrArg Core.haltCause h
  have hpc := congrArg Core.pc h
  have hregs := congrArg Core.regs h
  exact ⟨hstate, hcause, hpc, hregs⟩

/-- A running core between instructions halts at once. -/
theorem State.coreHalted_haltCore (hstate : (s.tile t).cc.state = .running) (hwait : (s.tile t).cc.wait = .none)
    (cause : Nat) : CoreHalted (s.tile t).cc ((s.haltCore t cause).tile t).cc cause := by
  have hsettled := coreUnobserved_pmcSettle s.clkTime (s.tile t).cc
  refine coreHalted_of_unobserved (timer := timerNow (s.tile t).cc s.clkTime) (timerAt := s.clkTime) ?_
  unfold State.haltCore
  dsimp only
  rw [if_neg (by simp [hstate]), if_neg (not_not.2 hwait)]
  refine (congrArg Tile.cc (State.unobserved_trace _ t 6 _)).trans ?_
  rw [State.tile_modCc_same]
  exact congrArg (fun d : Core => { d with
    timer := timerNow (s.tile t).cc s.clkTime, timerAt := s.clkTime, state := CoreState.halted, haltCause := cause,
    haltDue := 0 }) hsettled

/-- A core `d` that runs again where the core `c` was halted. -/
structure CoreResumed (c d : Core) : Prop where
  state : d.state = .running
  haltCause : d.haltCause = 0
  pc : d.pc = c.pc
  regs : d.regs = c.regs

theorem coreResumed_of_unobserved {c d : Core} {timerAt : Nat}
    (h : coreUnobserved d = { coreUnobserved c with
      state := .running, haltCause := 0, passBp := true, timerAt := timerAt }) : CoreResumed c d := by
  have hstate := congrArg Core.state h
  have hcause := congrArg Core.haltCause h
  have hpc := congrArg Core.pc h
  have hregs := congrArg Core.regs h
  exact ⟨hstate, hcause, hpc, hregs⟩

theorem State.coreResumed_resumeCore (hstate : (s.tile t).cc.state = .halted) :
    CoreResumed (s.tile t).cc ((s.resumeCore t).tile t).cc := by
  refine coreResumed_of_unobserved (timerAt := s.clkTime) ?_
  rw [State.resumeCore, if_pos hstate]
  refine (congrArg Tile.cc (State.unobserved_trace _ t 7 _)).trans ?_
  rw [State.tile_modCc_same]
  rfl

end halt

/-- BRK halts at itself where debug works for the tile (R197). -/
theorem answers_brk {s : State} {t : TileId} (hissue : Issues s t) (hdebug : s.debugOn t = true)
    (hpass : (s.tile t).cc.passBp = false) : Answers (.brk t) s (fun u => (u.tile t).cc.state = .halted ∧
      (u.tile t).cc.haltCause = 5 ∧ (u.tile t).cc.pc = (s.tile t).cc.pc ∧ (∀ r, u.gr t r = s.gr t r)) := by
  obtain ⟨hstate, hwait⟩ := hissue.running
  have hhalted := State.coreHalted_haltCore hstate hwait 5
  refine ⟨s.haltCore t 5, guardRes_next hissue.1 ?_, hhalted.state, hhalted.haltCause, hhalted.pc,
    State.gr_of_regs hhalted.regs⟩
  rw [State.coreRun_issues hissue, hdebug, hpass]
  rfl

theorem retires_brk {s : State} {t : TileId} (hissue : Issues s t) (hdebug : s.debugOn t = false) :
    Retires (.brk t) s t 0 0 (s.nextPc t) := by
  refine retires_nothing hissue (guardRes_next hissue.1 ?_)
  rw [State.coreRun_issues hissue, hdebug]
  rfl

/-- Settles O12, instruction by instruction. -/
theorem systemInstructions : Obligations.SystemInstructions := by
  unfold Obligations.SystemInstructions
  intro s t d a hissue pc found
  have hok : tileOk t = true := hissue.1
  refine ⟨?nop, retires_fence hissue, noEffect_fence hissue, retires_wait hissue d, exec_wait_waits hissue d,
    answers_halt hissue, ?trap, fun fn hfn => ?illegal, answers_brk hissue, retires_brk hissue⟩
  case nop => exact retires_nothing hissue (guardRes_next hok (State.coreRun_issues hissue _))
  case trap => exact stopsCore_coreRun hissue (guardRes_next hok rfl) rfl
  case illegal => exact stopsCore_coreRun hissue (guardRes_next (by simp [hok, hfn]) rfl) rfl

/-! ### Watchdog and timer (R175, R181, R202) -/

section timers

variable {s : State} {t : TileId} (hok : tileOk t = true)
include hok

theorem answers_watchdogExpiry (hlimit : (s.tile t).cc.wdog ≠ 0)
    (hstate : (s.tile t).cc.state = .running ∨ (s.tile t).cc.state = .waiting) :
    Answers (.watchdogExpiry t) s (fun u => (u.tile t).cc.state = .stoppedFault ∧
      (u.tile t).cc.faultRec = faultBytes s t { status := 0x0304, agent := 12, loc := (s.tile t).cc.pc.toNat } ∧
      (u.tile t).cc.pc = (s.tile t).cc.pc ∧ (∀ r, u.gr t r = s.gr t r)) := by
  have hstopped := s.coreStopped_raiseFault t { status := 0x0304, agent := 12, loc := (s.tile t).cc.pc.toNat }
  exact ⟨_, guardRes_next hok (if_pos ⟨hlimit, hstate⟩), hstopped.state, hstopped.record, hstopped.pc,
    State.gr_of_regs hstopped.regs⟩

theorem noEffect_watchdogExpiry (hlimit : (s.tile t).cc.wdog = 0) : NoEffect (.watchdogExpiry t) s :=
  guardRes_next hok (if_neg fun h => h.1 hlimit)

theorem answers_timerExpiry (hstate : (s.tile t).cc.state ≠ .halted) (hcount : (s.tile t).cc.timer ≠ 0) :
    Answers (.timerExpiry t) s (fun u => bit (u.tile t).cc.events 8 = true ∧ (u.tile t).cc.timer = 0 ∧
      u = s.setTile t { s.tile t with cc := { (s.tile t).cc with
        timer := 0, timerAt := s.clkTime, events := (u.tile t).cc.events } }) := by
  refine ⟨s.modCc t _, guardRes_next hok (if_neg (not_or.2 ⟨hstate, hcount⟩)), ?_, ?_, ?_⟩
  · rw [State.tile_modCc_same]; exact bit_setBit_same _ 8
  · rw [State.tile_modCc_same]
  · rw [State.tile_modCc_same]; rfl

end timers

/-- Settles O13, by the expiry and what the core and its limits are. -/
theorem watchdogAndTimer : Obligations.WatchdogAndTimer := by
  unfold Obligations.WatchdogAndTimer
  intro s t v hok
  exact ⟨answers_watchdogExpiry hok, noEffect_watchdogExpiry hok, guardRes_next hok rfl, answers_timerExpiry hok,
    fun h => guardRes_next hok (if_pos h)⟩

/-! ### Halt requests, resumption and steps through the management path (R198, R200) -/

/-- An instruction word of class register-register with FN 0 is ADD (Table 7.3). -/
theorem coreWord_add {w : Nat} (hop : bits w 31 26 = 0) (hfn : bits w 10 0 = 0) (t : TileId) (s : State) :
    coreWord t w s = execAdd t (regField w 25) (regField w 20) (regField w 15) s := by
  unfold coreWord
  dsimp only
  rw [hop]
  change intWord t w s = _
  unfold intWord
  dsimp only
  rw [hfn]
  rfl

section management

variable {s : State} {t : TileId} (hok : tileOk t = true) (hopen : s.sealedAt t = false)
include hok hopen

theorem answers_haltRequest (hstate : (s.tile t).cc.state = .running) (hwait : (s.tile t).cc.wait = .none) :
    Answers (.haltRequest t false) s (fun u => (u.tile t).cc.state = .halted ∧ (u.tile t).cc.haltCause = 1 ∧
      (u.tile t).cc.pc = (s.tile t).cc.pc ∧ (∀ r, u.gr t r = s.gr t r)) := by
  have hcc : ((s.modCc t (fun c => { c with scope := false })).tile t).cc = { (s.tile t).cc with scope := false } := by
    rw [State.tile_modCc_same]
  obtain ⟨hhalt, hcause, hpc, hregs⟩ := State.coreHalted_haltCore (s := s.modCc t (fun c => { c with scope := false }))
    (t := t) (by rw [hcc]; exact hstate) (by rw [hcc]; exact hwait) 1
  rw [hcc] at hpc hregs
  refine ⟨_, guardRes_next hok ?_, hhalt, hcause, hpc, State.gr_of_regs hregs⟩
  rw [State.writeCtrl, hopen]
  rfl

theorem answers_resume (hstate : (s.tile t).cc.state = .halted) :
    Answers (.resume t false) s (fun u => (u.tile t).cc.state = .running ∧ (u.tile t).cc.haltCause = 0 ∧
      (u.tile t).cc.pc = (s.tile t).cc.pc ∧ (∀ r, u.gr t r = s.gr t r)) := by
  have hcc : ((s.modCc t (fun c => { c with scope := false })).tile t).cc = { (s.tile t).cc with scope := false } := by
    rw [State.tile_modCc_same]
  obtain ⟨hrun, hcause, hpc, hregs⟩ := State.coreResumed_resumeCore (s := s.modCc t (fun c => { c with scope := false }))
    (t := t) (by rw [hcc]; exact hstate)
  rw [hcc] at hpc hregs
  refine ⟨_, guardRes_next hok ((if_pos hstate).trans ?_), hrun, hcause, hpc, State.gr_of_regs hregs⟩
  rw [State.writeCtrl, hopen]
  rfl

/-- The state in which a halted core is let run for one instruction (R200). -/
def State.letRun (s : State) (t : TileId) : State :=
  s.modCc t (fun c => { c with state := .running, haltCause := 0, passBp := true, timerAt := s.clkTime })

omit hopen in
theorem issues_letRun (hloaded : (s.tile t).cc.loaded = true) (hwait : (s.tile t).cc.wait = .none)
    (hdue : (s.tile t).cc.haltDue = 0) (hpc : (s.tile t).cc.pc.toNat < 0x10000) : Issues (s.letRun t) t := by
  have hcc : ((s.letRun t).tile t).cc = { (s.tile t).cc with
      state := .running, haltCause := 0, passBp := true, timerAt := s.clkTime } := by
    rw [State.letRun, State.tile_modCc_same]
  refine ⟨hok, ?_, by rwa [hcc], ?_, by rwa [hcc]⟩
  · rw [hcc]; simp [mayIssue, hloaded, hwait]
  · simp [State.breakAt, hcc]

/-- A stepped instruction that retires leaves its core halted again with cause 6 (R200). -/
theorem answers_step {d : Fin 32} {v pc : Word} {u : State} (hstate : (s.tile t).cc.state = .halted)
    (hword : coreWord t (fetchWord (s.tile t).cc) (s.letRun t) = .next u) (hwrote : Wrote (s.letRun t) u t d v)
    (honly : OnlyRegs (s.letRun t) u t pc) :
    Answers (.step t) s (fun u => Wrote s u t d v ∧ (u.tile t).cc.state = .halted ∧
      (u.tile t).cc.haltCause = 6 ∧ (u.tile t).cc.pc = pc) := by
  obtain ⟨hupc, hustate, huwait⟩ := honly.goesOn
  obtain ⟨hhalt, hcause, hpc, hregs⟩ := State.coreHalted_haltCore hustate huwait 6
  have hexec : exec (.step t) s = .next (u.haltCore t 6) := by
    refine guardRes_next hok ((if_neg (by simp [hstate, hopen])).trans ?_)
    refine (congrArg (fun r => (nextOf (s.letRun t) r).haltStep t) hword).trans ?_
    exact (if_neg (not_not.2 huwait)).trans (if_pos (.inl hustate))
  have hgr : ∀ r, (s.letRun t).gr t r = s.gr t r :=
    State.gr_of_regs (by rw [State.letRun, State.tile_modCc_same])
  obtain ⟨hd, hrest⟩ := hwrote
  refine ⟨_, hexec, ⟨?_, fun r hr => ?_⟩, hhalt, hcause, hpc.trans hupc⟩
  · rw [State.gr_of_regs hregs, hd]
  · rw [State.gr_of_regs hregs, hrest r hr, hgr]

theorem answers_step_add {d a b : Fin 32} (hstate : (s.tile t).cc.state = .halted)
    (hloaded : (s.tile t).cc.loaded = true) (hwait : (s.tile t).cc.wait = .none) (hdue : (s.tile t).cc.haltDue = 0)
    (hpc : (s.tile t).cc.pc.toNat < 0x10000)
    (hword : coreWord t (fetchWord (s.tile t).cc) (s.letRun t) = execAdd t d a b (s.letRun t)) :
    Answers (.step t) s (fun u => Wrote s u t d (s.gr t a + s.gr t b) ∧ (u.tile t).cc.state = .halted ∧
      (u.tile t).cc.haltCause = 6 ∧ (u.tile t).cc.pc = (s.tile t).cc.pc + 4) := by
  have hcc : ((s.letRun t).tile t).cc = { (s.tile t).cc with
      state := .running, haltCause := 0, passBp := true, timerAt := s.clkTime } := by
    rw [State.letRun, State.tile_modCc_same]
  have hgr : ∀ r, (s.letRun t).gr t r = s.gr t r := State.gr_of_regs (by rw [hcc])
  obtain ⟨u, hadd, hwrote, honly⟩ := retires_aluRun (c := .add t d a b) (issues_letRun hok hloaded hwait hdue hpc)
    (guardRes_next hok rfl) rfl
  rw [hgr, hgr] at hwrote
  rw [State.nextPc, hcc] at honly
  exact answers_step hok hopen hstate (hword.trans hadd) hwrote honly

end management

/-! ### Halting and resuming a partition (R198, R200) -/

theorem State.counted_odP (s : State) {idx sub p : Nat} (hidx : idx ≠ 0x1100) (hsub : sub < 256) (hp : p < 256) :
    s.counted.odP idx sub p = s.odP idx sub p :=
  State.odP_odSetP_other _ _ _ _ _ _ _ _ (odKey_ne_of_index hsub hp (by decide) (by decide) hidx)

/-- Where debug is on and the partition is not sealed its debug commands run. -/
theorem State.debugPart_counted {s : State} {p : Nat} (hp : p < 32) (hdebug : s.odP 0x7000 1 p ≠ 0)
    (hopen : s.isSealed p = false) (run : State → State) : State.debugPart p run s.counted = (run s.counted, 0) := by
  have hon : s.counted.odP 0x7000 1 p ≠ 0 := by rwa [s.counted_odP (by decide) (by decide) (by omega)]
  have hsealed : s.counted.isSealed p = false := by
    rw [State.isSealed, State.odG, s.counted_odP (by decide) (by omega) (by decide)]; exact hopen
  rw [State.debugPart, hsealed, if_neg (by decide), if_neg hon]

theorem exec_partitionCommand {s : State} {c : Caller} {cmd : Instr} {sub p : Nat} {run : State → State} (hp : p < 32)
    (hdebug : s.odP 0x7000 1 p ≠ 0) (hopen : s.isSealed p = false) (hadmitted : Admitted s c 0x7000 sub p)
    (hexec : exec cmd s = .next (s.command c 0x7000 sub p (oneOnly 1 (State.debugPart p run)))) :
    exec cmd s = .next ((run s.counted).reply c 0) := by
  have hrun := State.debugPart_counted hp hdebug hopen run
  rw [hexec, hadmitted.command_one (by rw [hrun]), hrun]

theorem answers_drainLimitExpiry {s : State} {p : Nat} (hp : p < 32) (hdue : s.odP 0x7000 7 p = 1)
    (hbusy : s.partDrained p = false) :
    Answers (.drainLimitExpiry p) s (fun u => u.odP 0x7000 7 p = 3 ∧ u = s.odSetP 0x7000 7 p 3) :=
  have hwf : partOk p = true := by simp [partOk, hp]
  ⟨_, guardRes_next hwf (if_pos ⟨hdue, hbusy⟩), State.odP_odSetP_same _ _ _ _ _, rfl⟩

/-- Settles O16, by the command and what the core or the partition is. -/
theorem coreDebugCommands : Obligations.CoreDebugCommands := by
  unfold Obligations.CoreDebugCommands
  intro s t hok
  refine ⟨answers_haltRequest hok, answers_resume hok,
    fun d a b w hopen hstate hloaded hwait hdue hpc hw hop hfn hd ha hb => ?step,
    fun hstate => guardRes_next hok (if_pos (.inl hstate)), guardRes_next hok rfl,
    fun c p hp hdebug hopen => ⟨fun hadmitted => ?halt, fun hadmitted => ?resume⟩,
    fun p hp hdue hbusy => answers_drainLimitExpiry hp hdue hbusy⟩
  case step =>
    subst hw hd ha hb
    exact answers_step_add hok hopen hstate hloaded hwait hdue hpc (coreWord_add hop hfn t _)
  case halt =>
    have hwf : (callerOk c && partOk p) = true := by simp [hadmitted.1, partOk, hp]
    exact exec_partitionCommand (run := fun s => s.haltPart p none) hp hdebug hopen hadmitted (guardRes_next hwf rfl)
  case resume =>
    have hwf : (callerOk c && partOk p) = true := by simp [hadmitted.1, partOk, hp]
    exact exec_partitionCommand (run := fun s => s.resumePart p) hp hdebug hopen hadmitted (guardRes_next hwf rfl)

end Sys2Proof.Machine
end

section
/-!
SUPPORT. A core that issues VLD beside one written byte of its scratchpad, and the refutation of O9.
-/

namespace Sys2Proof.Machine

/-- A control core whose program runs, between two instructions. -/
def coreIdle : Core := { loaded := true, state := .running }

/-- The block after reset but for the first tile, whose program runs, with 1 in byte 0 of its scratchpad. -/
def byteLoaded : State := State.reset.setTile ⟨0, 0⟩ { cc := coreIdle, sp := { mem := [(0, 1)] } }

theorem byteLoaded_tile : byteLoaded.tile ⟨0, 0⟩ = { cc := coreIdle, sp := { mem := [(0, 1)] } } :=
  State.tile_setTile_same _ _ _

theorem issues_byteLoaded : Issues byteLoaded ⟨0, 0⟩ := by
  have hbreak : byteLoaded.breakAt ⟨0, 0⟩ = none := by
    unfold State.breakAt
    rw [byteLoaded_tile]
    decide
  rw [Issues, byteLoaded_tile]
  exact ⟨by decide, by decide, by decide, hbreak, rfl⟩

theorem byteLoaded_gr (r : Fin 32) : byteLoaded.gr ⟨0, 0⟩ r = 0 := by
  rw [State.gr, byteLoaded_tile]
  simp [coreIdle, mget, mfind]

/-- Refutes O9: its frame of VLD compares lanes `k` below 32 with the bounds of v_d modulo 32, where 64 is 0; the guard
then holds for every `k`, and lanes 0 to 31 are said to stay whatever `d` is. VLD to v_0 writes them: from a scratchpad
whose byte 0 is 1, lane 0 goes from 0 to 1. -/
theorem not_engineSubmissions : ¬ Obligations.EngineSubmissions := by
  unfold Obligations.EngineSubmissions
  intro h
  obtain ⟨-, -, hvld, -⟩ := h byteLoaded ⟨0, 0⟩ 0 0 0 issues_byteLoaded
  rw [byteLoaded_gr, byteLoaded_tile] at hvld
  obtain ⟨u, -, -, -, hload, hkeep, -⟩ := hvld (by decide) rfl
  have hloaded := hload 0 (by decide)
  have hkept := hkeep 0 (by decide)
  rw [show ((0 : Fin 32) : Nat) * 64 + 0 = ((0 : Fin 32) : Nat) from rfl, hkept] at hloaded
  exact absurd hloaded (by decide)

end Sys2Proof.Machine
end

section
/-!
SUPPORT. SEND and RECV, messages that queue with their source, and fault reports (R176, R250): the obligation O10.
-/

namespace Sys2Proof.Machine

/-! ### Instructions that hand work on -/

theorem tx_of_unobserved {T U : Tile} (h : unobserved T = unobserved U) : T.tx = U.tx := by
  have htx := congrArg Tile.tx h
  exact htx

theorem core_of_unobserved {c d : Core} (h : coreUnobserved c = coreUnobserved d) :
    c.regs = d.regs ∧ c.pc = d.pc ∧ c.msgq = d.msgq ∧ c.haltDue = d.haltDue := by
  have hregs := congrArg Core.regs h
  have hpc := congrArg Core.pc h
  have hmsgq := congrArg Core.msgq h
  have hdue := congrArg Core.haltDue h
  exact ⟨hregs, hpc, hmsgq, hdue⟩

/-- What an instruction that retires leaves of its tile and of the routers. -/
theorem State.retire_frame {w : State} {t : TileId} (hdue : (w.tile t).cc.haltDue = 0) (pc : Word) :
    ((w.retire t pc).tile t).cc.regs = (w.tile t).cc.regs ∧ ((w.retire t pc).tile t).cc.pc = pc ∧
      ((w.retire t pc).tile t).cc.wait = .none ∧ ((w.retire t pc).tile t).tx = (w.tile t).tx ∧
      (w.retire t pc).routers = w.routers := by
  have hran := State.unobserved_retire hdue pc
  have hregs := congrArg (fun T : Tile => T.cc.regs) hran
  have hpc := congrArg (fun T : Tile => T.cc.pc) hran
  have hwait := congrArg (fun T : Tile => T.cc.wait) hran
  have htx := congrArg Tile.tx hran
  refine ⟨hregs, hpc, hwait, htx, ?_⟩
  rw [State.retire, hdue]; rfl

@[simp] theorem State.routers_trace (s : State) (t : TileId) (typ : Nat) (data : List Byte) :
    (s.trace t typ data).routers = s.routers := by
  have hstore : ∀ (w : State) x y r, (w.traceStore t x y r).routers = w.routers := fun w x y r => by
    unfold State.traceStore
    dsimp only
    split
    · rfl
    · split <;> rfl
  unfold State.trace State.traceWrite
  dsimp only
  split
  · rfl
  · split
    · rfl
    · split
      · split <;> rfl
      · exact State.forEach_unchanged State.routers (fun r w => hstore w _ _ r) _ s

/-! ### SEND (R176) -/

/-- A message handed to the router leaves the core as it was. -/
theorem State.cc_sendOut (s : State) (t : TileId) (vn w : Nat) (m : Message) :
    ((s.sendOut t vn w m).1.tile t).cc = (s.tile t).cc := by
  unfold State.sendOut State.sendTx
  split
  · split
    · rfl
    · split
      · rename_i hs1
        exact (State.tile_of_inject hs1).1
      · rename_i hs1
        rw [State.tile_modTile_same]
        exact (State.tile_of_inject hs1).1
  · split
    · rename_i hs1
      exact (State.tile_of_inject hs1).1
    · rename_i hs1
      exact (State.tile_of_inject hs1).1

/-- The virtual network of a message of SEND: VN0 to windows 0 and 5, VN2 to 3 and 4. -/
def sendVn (d : Dest) : Nat := if d.window = 0 ∨ d.window = 5 then 0 else 2

/-- The message of SEND with its 32 bytes. -/
def sendMessage (d : Dest) (bytes : List Byte) : Message where
  kind := 0
  vn := sendVn d
  id := 0
  dest := d
  be := BitVec.allOnes 32
  flits := [bytes]

/-- The bytes of SEND handed to the router for their destination. -/
def State.handOver (s : State) (t : TileId) (w : Nat) (bytes : List Byte) : State × Option Nat :=
  s.sendOut t (sendVn (destOf w)) w (sendMessage (destOf w) bytes)

/-- The state in which a message of SEND has been handed over and traced, and counted. -/
def State.sent (s : State) (t : TileId) (w : Nat) (bytes : List Byte) : State :=
  ((s.handOver t w bytes).1.trace t 3 (leBytes 8 w)).modCc t (fun c => pmcAdd c 8 1)

theorem State.unobserved_sent (s : State) (t : TileId) (w : Nat) (bytes : List Byte) :
    unobserved ((s.sent t w bytes).tile t) = unobserved ((s.handOver t w bytes).1.tile t) := by
  rw [State.sent, State.unobserved_modCc fun c => coreUnobserved_pmcAdd c 8 1, State.unobserved_trace]

theorem State.cc_sent (s : State) (t : TileId) (w : Nat) (bytes : List Byte) :
    coreUnobserved ((s.sent t w bytes).tile t).cc = coreUnobserved (s.tile t).cc := by
  have hsent := congrArg Tile.cc (s.unobserved_sent t w bytes)
  exact hsent.trans (congrArg coreUnobserved (s.cc_sendOut t _ _ _))

theorem State.routers_sent (s : State) (t : TileId) (w : Nat) (bytes : List Byte) :
    (s.sent t w bytes).routers = (s.handOver t w bytes).1.routers := State.routers_trace _ t 3 _

section send

variable {s : State} {t : TileId} {a b : Fin 32} (hissue : Issues s t)
include hissue

theorem exec_send {o : Nat} (heven : oddPair b = false) (hwindow : (destOf (s.grPair t b)).window ∈ [0, 3, 4, 5])
    (hfrom : dsramAt (s.gr t a).toNat 32 = some o)
    (hid : sendVn (destOf (s.grPair t b)) = 0 → (freeId (s.tile t)).isSome = true)
    (htaken : (s.handOver t (s.grPair t b) (mread 0 (s.tile t).cc.dsram o 32)).2 = none) :
    exec (.send t a b) s =
      .next ((s.sent t (s.grPair t b) (mread 0 (s.tile t).cc.dsram o 32)).retire t (s.nextPc t)) := by
  have hheld : ¬(sendVn (destOf (s.grPair t b)) = 0 ∧ (freeId (s.tile t)).isNone = true) := fun ⟨hvn, hnone⟩ => by
    have hsome := hid hvn
    rw [Option.isNone_iff_eq_none.1 hnone] at hsome
    cases hsome
  have hwindow' : ((destOf (s.grPair t b)).window == 0 || (destOf (s.grPair t b)).window == 3 ||
      (destOf (s.grPair t b)).window == 4 || (destOf (s.grPair t b)).window == 5) = true := by
    simpa [or_assoc] using hwindow
  have hunrefused : ∀ w pc, (s.sent t (s.grPair t b) (mread 0 (s.tile t).cc.dsram o 32)).sendRefused t w pc
      (s.handOver t (s.grPair t b) (mread 0 (s.tile t).cc.dsram o 32)).2 =
      s.sent t (s.grPair t b) (mread 0 (s.tile t).cc.dsram o 32) := fun w pc => by rw [htaken, State.sendRefused]
  refine guardRes_next hissue.1 ?_
  rw [State.coreRun_issues hissue]
  refine congrArg (fun z : State × CoreEnd => z.1.coreEnd t z.2) (a₂ := (_, .retire (s.nextPc t))) ?_
  refine (if_neg (by simp [heven])).trans ((if_neg (by simp [hwindow'])).trans ?_)
  rw [hfrom]
  exact (if_neg hheld).trans (congrArg (·, CoreEnd.retire (s.nextPc t)) (hunrefused _ _))

/-- SEND of a message that the router takes. -/
theorem goesOn_send {o : Nat} (heven : oddPair b = false) (hwindow : (destOf (s.grPair t b)).window ∈ [0, 3, 4, 5])
    (hfrom : dsramAt (s.gr t a).toNat 32 = some o)
    (hid : sendVn (destOf (s.grPair t b)) = 0 → (freeId (s.tile t)).isSome = true)
    (htaken : (s.handOver t (s.grPair t b) (mread 0 (s.tile t).cc.dsram o 32)).2 = none) :
    GoesOn (.send t a b) s t (fun u =>
      u.routers = (s.handOver t (s.grPair t b) (mread 0 (s.tile t).cc.dsram o 32)).1.routers ∧
      (u.tile t).tx = ((s.handOver t (s.grPair t b) (mread 0 (s.tile t).cc.dsram o 32)).1.tile t).tx) := by
  have hcc := s.cc_sent t (s.grPair t b) (mread 0 (s.tile t).cc.dsram o 32)
  obtain ⟨hregs, -, -, hdue⟩ := core_of_unobserved hcc
  have htx := tx_of_unobserved (s.unobserved_sent t (s.grPair t b) (mread 0 (s.tile t).cc.dsram o 32))
  obtain ⟨-, -, -, -, hnone⟩ := id hissue
  obtain ⟨hregs', hpc, -, htx', hrouters⟩ := State.retire_frame (hdue.trans hnone) (s.nextPc t)
  exact ⟨_, exec_send hissue heven hwindow hfrom hid htaken, hpc, State.gr_of_regs (hregs'.trans hregs),
    hrouters.trans (s.routers_sent t _ _), htx'.trans htx⟩

theorem stopsCore_send_odd (hodd : oddPair b = true) : StopsCore (.send t a b) s t 0x0301 0 0 0 :=
  stopsCore_coreRun hissue (guardRes_next hissue.1 rfl) (if_pos hodd)

theorem stopsCore_send_window (heven : oddPair b = false)
    (hwindow : (destOf (s.grPair t b)).window ∉ [0, 3, 4, 5]) : StopsCore (.send t a b) s t 0x0303 0 (s.grPair t b) 0 :=
  stopsCore_coreRun hissue (guardRes_next hissue.1 rfl)
    ((if_neg (by simp [heven])).trans (if_pos (by simpa [and_assoc] using hwindow)))

end send

/-! ### RECV (R176) -/

section recv

variable {s : State} {t : TileId} {d a : Fin 32} (hissue : Issues s t)
include hissue

theorem retires_recv_empty (hempty : (s.tile t).cc.msgq = []) : Retires (.recv t d a) s t d 0 (s.nextPc t) := by
  refine retires_setGr hissue (guardRes_next hissue.1 ?_)
  rw [State.coreRun_issues hissue]
  simp only [hempty]
  rfl

/-- A core whose oldest message has gone to its data SRAM. -/
def coreReceived (rest : List (Nat × Nat × List Byte)) (o : Nat) (bytes : List Byte) (c : Core) : Core :=
  { c with msgq := rest, dsram := mwrite 0 c.dsram o bytes }

omit hissue in
theorem coreReceived_retired (rest : List (Nat × Nat × List Byte)) (o : Nat) (bytes : List Byte) (v pc : Word)
    (c : Core) : ∃ e, coreRetired pc (coreWrote d v (coreReceived rest o bytes c)) = e ∧
      e.regs = (coreWrote d v c).regs ∧ e.msgq = rest ∧ e.pc = pc ∧ e.dsram = mwrite 0 c.dsram o bytes := by
  refine ⟨_, rfl, ?_⟩
  unfold coreWrote
  split <;> exact ⟨rfl, rfl, rfl, rfl⟩

/-- RECV of the oldest message. -/
theorem answers_recv {sx sy o : Nat} {bytes : List Byte} {rest : List (Nat × Nat × List Byte)}
    (hqueue : (s.tile t).cc.msgq = (sx, sy, bytes) :: rest) (halign : (s.gr t a).toNat % 32 = 0)
    (hto : dsramAt (s.gr t a).toNat 32 = some o) :
    Answers (.recv t d a) s (fun u => Wrote s u t d (BitVec.ofNat 32 (65536 + 256 * sy + sx)) ∧
      (u.tile t).cc.msgq = rest ∧ (u.tile t).cc.pc = s.nextPc t ∧
      (u.tile t).cc.dsram = mwrite 0 (s.tile t).cc.dsram o bytes ∧ (u.tile t).sp = (s.tile t).sp ∧ OnlyTile s u t) := by
  obtain ⟨hstate, hwait⟩ := hissue.running
  obtain ⟨-, -, -, -, hdue⟩ := id hissue
  have hexec : exec (.recv t d a) s = .next (s.modCc t (fun c => coreRetired (s.nextPc t)
      (coreWrote d (BitVec.ofNat 32 (65536 + 256 * sy + sx)) (coreReceived rest o bytes c)))) := by
    refine guardRes_next hissue.1 ?_
    rw [State.coreRun_issues hissue]
    simp only [hqueue, halign, hto, ne_eq, not_true_eq_false, if_false]
    refine (State.retire_running ?_ ?_ ?_ _).trans ?_
    · simpa [State.tile_modCc_same]
    · simpa [State.tile_modCc_same]
    · simpa [State.tile_modCc_same]
    · rw [State.setGr_modCc, State.modCc_modCc_same]; rfl
  obtain ⟨e, he, hregs, hmsgq, hpc, hdsram⟩ := coreReceived_retired rest o bytes (d := d)
    (BitVec.ofNat 32 (65536 + 256 * sy + sx)) (s.nextPc t) (s.tile t).cc
  have htile := State.tile_modCc_same s t (fun c => coreRetired (s.nextPc t)
      (coreWrote d (BitVec.ofNat 32 (65536 + 256 * sy + sx)) (coreReceived rest o bytes c)))
  rw [he] at htile
  refine ⟨_, hexec, wrote_of_regs ?_, ?_, ?_, ?_, ?_, onlyTile_modTile s t _⟩
  · rw [htile, State.cc_setGr]; exact hregs
  · rw [htile]; exact hmsgq
  · rw [htile]; exact hpc
  · rw [htile]; exact hdsram
  · rw [htile]

end recv

/-! ### Messages that queue, and fault reports (R176, R250) -/

section records

variable (s : State)

@[simp] theorem State.tiles_interrupt (port : Port) (fn vector : Nat) :
    (s.interrupt port fn vector).tiles = s.tiles := by
  obtain ⟨fns, out, h, -⟩ := s.interrupt_frame port fn vector
  rw [h]

@[simp] theorem State.tiles_freeEntries (p : Nat) : (s.freeEntries p).tiles = s.tiles := by
  obtain ⟨parts, od, h⟩ := s.freeEntries_frame p
  rw [h]

@[simp] theorem State.tiles_writeRecords (port : Port) (fn : Nat) (l : List (List Byte)) :
    (s.writeRecords port fn l).1.tiles = s.tiles := by
  induction l generalizing s with
  | nil => rfl
  | cons b r ih =>
    rw [State.writeRecords]
    split
    · rfl
    · exact ih _

@[simp] theorem State.tiles_pumpRecords (port : Port) (fn : Nat) : (s.pumpRecords port fn).tiles = s.tiles := by
  unfold State.pumpRecords
  dsimp only
  split
  · rfl
  · split
    · exact s.tiles_writeRecords port fn _
    · split <;> simp

@[simp] theorem State.tiles_postRecord (p : Nat) (b : List Byte) : (s.postRecord p b).tiles = s.tiles := by
  unfold State.postRecord
  dsimp only
  split
  · exact State.tiles_pumpRecords _ _ _
  · exact State.tiles_pumpRecords _ _ _

/-- A fault report goes to the host and leaves the tiles as they were. -/
theorem State.tiles_faultReport (p : Nat) (record : List Byte) : (s.faultReport p record).tiles = s.tiles :=
  s.tiles_postRecord p _

end records

section messages

variable {s : State} {t : TileId} {msg : List Byte} {sx sy : Nat}

/-- A message in its turn is queued with its source, and the core is otherwise as it was. -/
theorem State.cc_queueMessage (hturn : rxTurn (s.tile t) (isMessage msg sx sy) = true) :
    coreUnobserved ((s.queueMessage t msg sx sy).tile t).cc =
      coreUnobserved { (s.tile t).cc with msgq := (s.tile t).cc.msgq ++ [(sx, sy, msg)] } := by
  rw [State.queueMessage, State.inTurn, if_pos hturn, State.ackTaken_tile]
  refine (congrArg Tile.cc (State.unobserved_trace _ t 4 _)).trans ?_
  rw [State.tile_modCc_same, State.tile_takeRx]
  rfl

theorem answers_messageReceipt (hwf : Instr.wf (.messageReceipt t msg sx sy) = true)
    (hroom : (s.tile t).cc.msgq.length < 16) (hturn : rxTurn (s.tile t) (isMessage msg sx sy) = true) :
    Answers (.messageReceipt t msg sx sy) s (fun u => (u.tile t).cc.msgq = (s.tile t).cc.msgq ++ [(sx, sy, msg)] ∧
      (u.tile t).cc.regs = (s.tile t).cc.regs ∧ (u.tile t).cc.pc = (s.tile t).cc.pc) := by
  have hexec : ∃ u, exec (.messageReceipt t msg sx sy) s = .next u ∧
      u.tile t = (s.queueMessage t msg sx sy).tile t := by
    refine ⟨_, guardRes_next hwf (if_neg (Nat.not_le.2 hroom)), ?_⟩
    dsimp only
    split
    · rfl
    · split
      · exact State.tile_of_tiles (State.tiles_faultReport _ _ _) t
      · rfl
  obtain ⟨u, hexec, htile⟩ := hexec
  obtain ⟨hregs, hpc, hmsgq, -⟩ := core_of_unobserved (State.cc_queueMessage hturn)
  rw [← htile] at hregs hpc hmsgq
  exact ⟨u, hexec, hmsgq, hregs, hpc⟩

/-- A message that has waited at a full queue is refused. -/
theorem exec_messageQueueTimeout (hok : tileOk t = true) {f : Flit}
    (hfirst : (s.tile t).rx.find? (fun f : Flit => f.dest.window == 5 && f.vn != 1) = some f)
    (hfull : 16 ≤ (s.tile t).cc.msgq.length) : exec (.messageQueueTimeout t) s =
      .next ((s.takeRx t (fun f : Flit => f.dest.window == 5 && f.vn != 1)).refuse t f 0x0307) := by
  refine guardRes_next hok ?_
  dsimp only
  rw [hfirst]
  exact if_pos hfull

end messages

/-- Settles O10: SEND and RECV by their core steps, receipts by the queue of their port. -/
theorem messageInstructions : Obligations.MessageInstructions := by
  unfold Obligations.MessageInstructions
  intro s t d a b hok x w vn
  exact ⟨fun o hissue heven hwindow hfrom hid => goesOn_send hissue heven hwindow hfrom hid,
    fun hissue => stopsCore_send_odd hissue, fun hissue => stopsCore_send_window hissue,
    fun hissue => retires_recv_empty hissue,
    fun sx sy bytes rest o hissue hqueue halign hto => answers_recv hissue hqueue halign hto,
    fun msg sx sy => answers_messageReceipt, fun f => exec_messageQueueTimeout hok⟩

end Sys2Proof.Machine
end

section
/-!
SUPPORT. RLD, RST and RAMO, their responses, refusals and timeouts (R154, R165, R166, R177, R430): the obligation O11.
-/

namespace Sys2Proof.Machine

/-! ### Sending (R177) -/

theorem State.sendTx_of_inject {s s1 : State} {t : TileId} {m : Message} {mk : Nat → Tx} {id : Nat}
    (hid : freeId (s.tile t) = some id) (h : s.inject t { m with id := id } = (s1, none)) :
    s.sendTx t m mk = (s1.modTile t (fun T => { T with tx := T.tx ++ [mk id], nextId := id % 255 + 1 }), none) := by
  rw [State.sendTx, hid]
  dsimp only
  rw [h]

/-- A core that waits for a response. -/
def coreAwaits (now : Nat) (wait : CoreWait) (c : Core) : Core := { pmcSettle now c with wait := wait }

theorem coreAwaits_frame (now : Nat) (wait : CoreWait) (c : Core) :
    (coreAwaits now wait c).wait = wait ∧ (coreAwaits now wait c).pc = c.pc ∧ (coreAwaits now wait c).regs = c.regs := by
  obtain ⟨hregs, hpc, -⟩ := core_of_unobserved (coreUnobserved_pmcSettle now c)
  exact ⟨rfl, hpc, hregs⟩

section remote

variable {c : Instr} {s : State} {t : TileId} {b : Fin 32} {fn id : Nat} {odd isRead : Bool} {m : State → Dest → Message}
  {wait : Nat → CoreWait}

theorem answers_remoteRun (hexec : exec c s = .next (s.remoteRun t b fn odd m isRead wait)) (hissue : Issues s t)
    (hodd : (oddPair b || odd) = false)
    (hwindow : (destOf (s.grPair t b)).window = 0 ∨ (destOf (s.grPair t b)).window = 2)
    (hid : freeId (s.tile t) = some id)
    (htaken : (s.inject t { m s (destOf (s.grPair t b)) with id := id }).2 = none) :
    Answers c s (fun u => (u.tile t).cc.wait = wait id ∧ (u.tile t).cc.pc = (s.tile t).cc.pc ∧
      (∀ r, u.gr t r = s.gr t r) ∧ (u.tile t).tx = (s.tile t).tx ++
        [{ id := id, agent := .core, dest := s.grPair t b, sentAt := s.clkTime, isRead := isRead }]) := by
  obtain ⟨s1, hs1⟩ : ∃ s1, s.inject t { m s (destOf (s.grPair t b)) with id := id } = (s1, none) :=
    ⟨_, Prod.ext rfl htaken⟩
  obtain ⟨hcc, htx, -⟩ := State.tile_of_inject hs1
  have hrun : s.remoteRun t b fn odd m isRead wait = (s1.modTile t (fun T => { T with
      tx := T.tx ++ [{ id := id, agent := .core, dest := s.grPair t b, sentAt := s.clkTime, isRead := isRead }],
      nextId := id % 255 + 1 })).modCc t (coreAwaits s.clkTime (wait id)) := by
    rw [State.remoteRun, State.coreRun_issues hissue]
    simp only [hodd, Bool.false_eq_true, if_false]
    rw [if_neg (by omega), hid]
    dsimp only
    rw [State.sendTx_of_inject hid hs1]
    rfl
  obtain ⟨hwait, hpc, hregs⟩ := coreAwaits_frame s.clkTime (wait id) (s.tile t).cc
  rw [hrun] at hexec
  refine ⟨_, hexec, ?_, ?_, State.gr_of_regs ?_, ?_⟩
  · rw [State.tile_modCc_same, State.tile_modTile_same, hcc]; exact hwait
  · rw [State.tile_modCc_same, State.tile_modTile_same, hcc]; exact hpc
  · rw [State.tile_modCc_same, State.tile_modTile_same, hcc]; exact hregs
  · rw [State.tile_modCc_same, State.tile_modTile_same, htx]

section forms

variable (s : State) {t : TileId} (hok : tileOk t = true) (d a b : Fin 32)
include hok

theorem exec_rld : exec (.rld t d b) s =
    .next (s.remoteRun t b 0 false (fun _ w => rldMessage w) true (fun id => .rld d id)) := guardRes_next hok rfl

theorem exec_rst : exec (.rst t d b) s =
    .next (s.remoteRun t b 0 false (fun s w => rstMessage w (s.gr t d)) false (fun id => .rst id)) :=
  guardRes_next hok rfl

theorem exec_ramoFetchAndAdd : exec (.ramoFetchAndAdd t d a b) s = .next (s.remoteRun t b 0 false
    (fun s w => ramoMessage w 0 (s.gr t a).toNat 0) true (fun id => .ramo d 0 id)) := guardRes_next hok rfl

theorem exec_ramoCompareAndSwap32 : exec (.ramoCompareAndSwap32 t d a b) s = .next (s.remoteRun t b 1 false
    (fun s w => ramoMessage w 1 (s.gr t a).toNat (s.gr t d).toNat) true (fun id => .ramo d 1 id)) :=
  guardRes_next hok rfl

theorem exec_ramoCompareAndSwap64 : exec (.ramoCompareAndSwap64 t d a b) s = .next (s.remoteRun t b 2
    (oddPair d || oddPair a) (fun s w => ramoMessage w 2 (s.grPair t a) (s.grPair t d)) true
    (fun id => .ramo d 2 id)) := guardRes_next hok rfl

end forms

end remote

/-! ### Bytes of responses (R430, Table 6.9) -/

theorem leNat_lt (bs : List Byte) : leNat bs < 256 ^ bs.length := by
  induction bs with
  | nil => simp [leNat]
  | cons b r ih =>
    have hb := b.isLt
    rw [leNat, List.length_cons, Nat.pow_succ]
    omega

theorem leNat_append (a b : List Byte) : leNat (a ++ b) = leNat a + 256 ^ a.length * leNat b := by
  induction a with
  | nil => simp [leNat]
  | cons x r ih =>
    rw [List.cons_append, leNat, leNat, ih, List.length_cons, Nat.pow_succ]
    ring

theorem fieldN_lt (bs : List Byte) (off n : Nat) : fieldN bs off n < 256 ^ n := by
  have hlt := leNat_lt (sliceB bs off n)
  rwa [length_sliceB] at hlt

theorem sliceB_add (bs : List Byte) (off m n : Nat) :
    sliceB bs off (m + n) = sliceB bs off m ++ sliceB bs (off + m) n := by
  unfold sliceB
  rw [← List.drop_drop]
  generalize bs.drop off = r
  rcases Nat.le_total r.length m with hshort | hlong
  · rw [List.take_of_length_le (by omega), List.take_of_length_le hshort, List.drop_of_length_le hshort]
    simp only [List.append_assoc, List.take_nil, List.length_nil, List.nil_append, ← List.replicate_add]
    congr 2
    omega
  · have hpad : m + n - r.length = n - (r.length - m) := by omega
    rw [Nat.sub_eq_zero_of_le hlong, List.take_add, List.length_drop, List.replicate_zero, List.append_nil,
      List.append_assoc, hpad]

/-- A field of adjacent fields. -/
theorem fieldN_add (bs : List Byte) (off m n : Nat) :
    fieldN bs off (m + n) = fieldN bs off m + 256 ^ m * fieldN bs (off + m) n := by
  rw [fieldN, sliceB_add, leNat_append, length_sliceB]; rfl

/-- The status of a fault record stands first (Table 7.8). -/
theorem fieldN_faultBytes (s : State) (t : TileId) (r : FaultRec) : fieldN (faultBytes s t r) 0 2 = r.status % 65536 := by
  have hfirst : sliceB (faultBytes s t r) 0 2 = leBytes 2 r.status := by
    simp only [faultBytes, List.append_assoc, sliceB, List.drop_zero]
    simp
  rw [fieldN, hfirst]
  exact leNat_leBytes 2 _

/-! ### Responses (R154, R177, R430) -/

theorem ofNat_val (d : Fin 32) : Fin.ofNat 32 d.val = d := Fin.ext (Nat.mod_eq_of_lt d.isLt)

theorem txOf_id {T : Tile} {id : Nat} {x : Tx} (h : txOf T id = some x) : x.id = id := by
  simpa using List.find?_some h

section responses

variable {s : State} {t : TileId} {f : Flit} {x : Tx}

/-- The tile has taken a response, whose transaction ends. -/
def State.responded (s : State) (t : TileId) (f : Flit) : State := (s.takeRx t (· == f)).dropTx t f.id

theorem State.tile_responded (s : State) (t : TileId) (f : Flit) : (s.responded t f).tile t = { s.tile t with
    rx := dropFirst (· == f) (s.tile t).rx, tx := (s.tile t).tx.filter (fun y => y.id != f.id) } := by
  rw [State.responded, State.dropTx, State.tile_modTile_same, State.tile_takeRx]

/-- The core goes on after its response: nothing outstanding, and the transaction ended. -/
structure ResponseRetired (s u : State) (t : TileId) (id : Nat) : Prop where
  pc : (u.tile t).cc.pc = (s.tile t).cc.pc + 4
  wait : (u.tile t).cc.wait = .none
  tx : (u.tile t).tx = (s.tile t).tx.filter (fun y => y.id != id)

/-- Read data for the core's transaction. -/
theorem exec_readData (hwf : Instr.wf (.readDataReceipt t f) = true) (hkind : f.kind = 3)
    (htx : txOf (s.tile t) f.id = some x) (hread : x.isRead = true) (hagent : x.agent = .core)
    (hturn : rxTurn (s.tile t) (· == f) = true) (hwaits : waitsFor (s.tile t).cc f.id = true)
    (hzero : zeroRange f.payload (coreDataBytes (s.tile t).cc) (32 - coreDataBytes (s.tile t).cc) = true) :
    exec (.readDataReceipt t f) s = .next ((s.responded t f).remoteDone t f.payload) := by
  refine guardRes_inTurn hwf hturn ?_
  have hwaits' : waitsFor (s.tile t).cc x.id = true := by rw [txOf_id htx]; exact hwaits
  simp only [htx, hkind, hread, hagent, hzero, hwaits', ne_eq, not_true_eq_false, Bool.true_eq_false, or_self, if_false,
    Bool.not_true, Bool.false_eq_true, if_true]
  rw [txOf_id htx, State.responded]

theorem exec_acknowledgement (hwf : Instr.wf (.acknowledgementReceipt t f) = true) (hkind : f.kind = 4)
    (htx : txOf (s.tile t) f.id = some x) (hread : x.isRead = false) (hagent : x.agent = .core)
    (hturn : rxTurn (s.tile t) (· == f) = true) (hzero : zeroRange f.payload 0 32 = true)
    (hwaits : waitsFor (s.tile t).cc f.id = true) :
    exec (.acknowledgementReceipt t f) s = .next ((s.responded t f).remoteDone t []) := by
  refine guardRes_inTurn hwf hturn ?_
  have hwaits' : waitsFor (s.tile t).cc x.id = true := by rw [txOf_id htx]; exact hwaits
  simp only [htx, hkind, hread, hagent, hzero, hwaits', ne_eq, not_true_eq_false, Bool.true_eq_false, Bool.false_eq_true,
    and_false, or_self, if_false, if_true]
  rw [txOf_id htx, State.responded]

theorem responseRetired_retire {v : State} {id : Nat} (hpc : (v.tile t).cc.pc = (s.tile t).cc.pc)
    (hdue : (v.tile t).cc.haltDue = 0) (htx : (v.tile t).tx = (s.tile t).tx.filter (fun y => y.id != id)) :
    ResponseRetired s (v.retire t (v.nextPc t)) t id ∧
      ((v.retire t (v.nextPc t)).tile t).cc.regs = (v.tile t).cc.regs := by
  obtain ⟨hregs, hnext, hwait, htx', -⟩ := State.retire_frame hdue (v.nextPc t)
  exact ⟨⟨hnext.trans (congrArg (· + 4) hpc), hwait, htx'.trans htx⟩, hregs⟩

/-- RLD and RAMO of 32 bits take a word. -/
def awaitsWord (d id : Nat) (w : CoreWait) : Prop := w = .rld d id ∨ w = .ramo d 0 id ∨ w = .ramo d 1 id

theorem awaitsWord_core {d id : Nat} {c : Core} (h : awaitsWord d id c.wait) :
    waitsFor c id = true ∧ coreDataBytes c = 4 := by
  unfold waitsFor coreDataBytes
  rcases h with h | h | h <;> rw [h] <;> exact ⟨beq_self_eq_true id, rfl⟩

theorem State.remoteDone_word {w : State} {d : Fin 32} {id : Nat} (h : awaitsWord d id (w.tile t).cc.wait)
    (payload : List Byte) : ∃ v, v = w.setGr t d (BitVec.ofNat 32 (fieldN payload 0 4)) ∧
      w.remoteDone t payload = v.retire t (v.nextPc t) := by
  refine ⟨_, rfl, ?_⟩
  unfold State.remoteDone
  rcases h with h | h | h <;> rw [h] <;> simp only [ofNat_val] <;> rfl

/-- RLD, fetch-and-add and compare-and-swap of 32 bits retire with the word returned. -/
theorem answers_readData_word {d : Fin 32} (hawaits : awaitsWord d f.id (s.tile t).cc.wait)
    (hwf : Instr.wf (.readDataReceipt t f) = true) (hkind : f.kind = 3)
    (htx : txOf (s.tile t) f.id = some x) (hread : x.isRead = true) (hagent : x.agent = .core)
    (hturn : rxTurn (s.tile t) (· == f) = true) (hdue : (s.tile t).cc.haltDue = 0)
    (hzero : zeroRange f.payload 4 28 = true) :
    Answers (.readDataReceipt t f) s (fun u =>
      Wrote s u t d (BitVec.ofNat 32 (fieldN f.payload 0 4)) ∧ ResponseRetired s u t f.id) := by
  obtain ⟨hwaits, hbytes⟩ := awaitsWord_core hawaits
  have htile := s.tile_responded t f
  obtain ⟨v, hv, hdone⟩ := State.remoteDone_word (t := t) (w := s.responded t f) (by rw [htile]; exact hawaits) f.payload
  have hvtile := (s.responded t f).tile_setGr_same t d (BitVec.ofNat 32 (fieldN f.payload 0 4))
  rw [← hv, htile] at hvtile
  have hexec := exec_readData hwf hkind htx hread hagent hturn hwaits (by rw [hbytes]; exact hzero)
  rw [hdone] at hexec
  obtain ⟨hretired, hregs⟩ := responseRetired_retire (s := s) (v := v) (t := t) (id := f.id)
    (by rw [hvtile]; exact coreWrote_pc _ _ _) (by rw [hvtile]; exact (coreWrote_haltDue _ _ _).trans hdue) (by rw [hvtile])
  refine ⟨_, hexec, wrote_of_regs ?_, hretired⟩
  rw [hregs, hvtile, State.cc_setGr]

theorem awaitsPair_core {d id : Nat} {c : Core} (h : c.wait = .ramo d 2 id) :
    waitsFor c id = true ∧ coreDataBytes c = 8 := by
  unfold waitsFor coreDataBytes
  rw [h]
  exact ⟨beq_self_eq_true id, rfl⟩

/-- A pair begins at an even register; the other one is neither it nor g0. -/
theorem pairHi_ne {d : Fin 32} (heven : oddPair d = false) : pairHi d ≠ 0 ∧ pairHi d ≠ d := by
  revert d
  decide

theorem State.setGrPair_fields (w : State) (t : TileId) (d : Fin 32) (bs : List Byte) :
    w.setGrPair t d (fieldN bs 0 8) = (w.setGr t d (BitVec.ofNat 32 (fieldN bs 0 4))).setGr t (pairHi d)
      (BitVec.ofNat 32 (fieldN bs 4 4)) := by
  have hlow := fieldN_lt bs 0 4
  have hsplit : fieldN bs 0 8 = fieldN bs 0 4 + 2 ^ 32 * fieldN bs 4 4 := fieldN_add bs 0 4 4
  have hmod : fieldN bs 0 8 % 2 ^ 32 = fieldN bs 0 4 := by omega
  have hdiv : fieldN bs 0 8 / 2 ^ 32 = fieldN bs 4 4 := by omega
  rw [State.setGrPair, hmod, hdiv]

theorem State.remoteDone_pair {w : State} {d : Fin 32} {id : Nat} (h : (w.tile t).cc.wait = .ramo d 2 id)
    (payload : List Byte) : ∃ v, v = w.setGrPair t d (fieldN payload 0 8) ∧
      w.remoteDone t payload = v.retire t (v.nextPc t) := by
  refine ⟨_, rfl, ?_⟩
  unfold State.remoteDone
  rw [h]
  simp only [ofNat_val, if_true]

/-- Compare-and-swap of 64 bits retires with the pair returned. -/
theorem answers_readData_pair {d : Fin 32} (hawaits : (s.tile t).cc.wait = .ramo d 2 f.id)
    (hwf : Instr.wf (.readDataReceipt t f) = true) (hkind : f.kind = 3)
    (htx : txOf (s.tile t) f.id = some x) (hread : x.isRead = true) (hagent : x.agent = .core)
    (hturn : rxTurn (s.tile t) (· == f) = true) (hdue : (s.tile t).cc.haltDue = 0)
    (hzero : zeroRange f.payload 8 24 = true) (heven : oddPair d = false) :
    Answers (.readDataReceipt t f) s (fun u =>
      (d ≠ 0 → u.gr t d = BitVec.ofNat 32 (fieldN f.payload 0 4)) ∧
      u.gr t (pairHi d) = BitVec.ofNat 32 (fieldN f.payload 4 4) ∧
      (∀ r, r ≠ d → r ≠ pairHi d → u.gr t r = s.gr t r) ∧ ResponseRetired s u t f.id) := by
  obtain ⟨hwaits, hbytes⟩ := awaitsPair_core hawaits
  obtain ⟨hhi, hne⟩ := pairHi_ne heven
  have htile := s.tile_responded t f
  obtain ⟨v, hv, hdone⟩ := State.remoteDone_pair (t := t) (w := s.responded t f) (by rw [htile]; exact hawaits) f.payload
  rw [State.setGrPair_fields] at hv
  obtain ⟨hlo, hrest⟩ := (s.responded t f).wrote_setGr t d (BitVec.ofNat 32 (fieldN f.payload 0 4))
  obtain ⟨hhigh, hrest'⟩ := ((s.responded t f).setGr t d (BitVec.ofNat 32 (fieldN f.payload 0 4))).wrote_setGr t
    (pairHi d) (BitVec.ofNat 32 (fieldN f.payload 4 4))
  have hvtile := ((s.responded t f).setGr t d (BitVec.ofNat 32 (fieldN f.payload 0 4))).tile_setGr_same t (pairHi d)
    (BitVec.ofNat 32 (fieldN f.payload 4 4))
  rw [← hv] at hvtile hhigh hrest'
  rw [State.tile_setGr_same, htile] at hvtile
  have hexec := exec_readData hwf hkind htx hread hagent hturn hwaits (by rw [hbytes]; exact hzero)
  rw [hdone] at hexec
  obtain ⟨hretired, hregs⟩ := responseRetired_retire (s := s) (v := v) (t := t) (id := f.id)
    (by rw [hvtile]; simp) (by rw [hvtile]; simpa) (by rw [hvtile])
  have hgr : ∀ r, (s.responded t f).gr t r = s.gr t r := State.gr_of_regs (by rw [htile])
  refine ⟨_, hexec, fun hd => ?_, ?_, fun r hr hr' => ?_, hretired⟩
  · rw [State.gr_of_regs hregs, hrest' d hne.symm, hlo, if_neg hd]
  · rw [State.gr_of_regs hregs, hhigh, if_neg hhi]
  · rw [State.gr_of_regs hregs, hrest' r hr', hrest r hr, hgr]

theorem State.remoteDone_written {w : State} {id : Nat} (h : (w.tile t).cc.wait = .rst id) (payload : List Byte) :
    w.remoteDone t payload = w.retire t (w.nextPc t) := by
  unfold State.remoteDone
  rw [h]

/-- RST retires with its acknowledgement. -/
theorem answers_acknowledgement (hwf : Instr.wf (.acknowledgementReceipt t f) = true) (hkind : f.kind = 4)
    (htx : txOf (s.tile t) f.id = some x) (hread : x.isRead = false) (hagent : x.agent = .core)
    (hturn : rxTurn (s.tile t) (· == f) = true) (hzero : zeroRange f.payload 0 32 = true)
    (hawaits : (s.tile t).cc.wait = .rst f.id) (hdue : (s.tile t).cc.haltDue = 0) :
    Answers (.acknowledgementReceipt t f) s (fun u => (u.tile t).cc.pc = (s.tile t).cc.pc + 4 ∧
      (u.tile t).cc.wait = .none ∧ (∀ r, u.gr t r = s.gr t r) ∧
      (u.tile t).tx = (s.tile t).tx.filter (fun y => y.id != f.id)) := by
  have hwaits : waitsFor (s.tile t).cc f.id = true := by unfold waitsFor; rw [hawaits]; exact beq_self_eq_true _
  have htile := s.tile_responded t f
  have hexec := exec_acknowledgement hwf hkind htx hread hagent hturn hzero hwaits
  rw [State.remoteDone_written (t := t) (w := s.responded t f) (by rw [htile]; exact hawaits)] at hexec
  obtain ⟨⟨hpc, hwait, htx'⟩, hregs⟩ := responseRetired_retire (s := s) (v := s.responded t f) (t := t) (id := f.id)
    (by rw [htile]) (by rw [htile]; exact hdue) (by rw [htile])
  exact ⟨_, hexec, hpc, hwait, State.gr_of_regs (hregs.trans (by rw [htile])), htx'⟩

end responses

/-! ### Transactions that fail (R165, R166) -/

section failures

variable {c : Instr} {s : State} {t : TileId} {x : Tx}

/-- The core's remote instruction stops it with the status that its transaction failed with. -/
theorem answers_txFailed {w : State} {status : Nat} {record : Bool} (hcc : (w.tile t).cc = (s.tile t).cc)
    (hagent : x.agent = .core) (hwaits : waitsFor (s.tile t).cc x.id = true) (hstatus : status < 65536)
    (hexec : exec c s = .next (w.txFailed t x status record)) :
    Answers c s (fun u => (u.tile t).cc.state = .stoppedFault ∧ fieldN (u.tile t).cc.faultRec 0 2 = status ∧
      (u.tile t).cc.pc = (s.tile t).cc.pc) := by
  have hfault : ∃ fn, w.txFailed t x status record = (w.dropTx t x.id).coreFault t status fn x.dest 0 := by
    rw [State.txFailed, hagent]
    exact ⟨_, if_pos (by rw [hcc]; exact hwaits)⟩
  obtain ⟨fn, hfault⟩ := hfault
  have hdropped : ((w.dropTx t x.id).tile t).cc = (s.tile t).cc := by rw [State.dropTx, State.tile_modTile_same, hcc]
  obtain ⟨hstate, -, hpc, -, hrecord⟩ := (w.dropTx t x.id).coreStopped_raiseFault t
    { status := status, agent := 0, detail := fn % 256, address := x.dest,
      loc := ((w.dropTx t x.id).tile t).cc.pc.toNat, cause := 0 }
  rw [hfault] at hexec
  exact ⟨_, hexec, hstate, (congrArg (fieldN · 0 2) hrecord).trans
    ((fieldN_faultBytes _ t _).trans (Nat.mod_eq_of_lt hstatus)), hpc.trans (congrArg Core.pc hdropped)⟩

theorem answers_refusal {f : Flit} (hwf : Instr.wf (.refusalReceipt t f) = true) (hkind : f.kind = 5) (hid : f.id ≠ 0)
    (hturn : rxTurn (s.tile t) (· == f) = true) (hreserved : refusalReserved f.payload = false)
    (hresponse : fieldN f.payload 17 1 % 8 ≠ 3) (hroute : (destOf (fieldN f.payload 8 8)).route = 0)
    (htx : txOf (s.tile t) f.id = some x) (hagent : x.agent = .core) (hwaits : waitsFor (s.tile t).cc x.id = true) :
    Answers (.refusalReceipt t f) s (fun u => (u.tile t).cc.state = .stoppedFault ∧
      fieldN (u.tile t).cc.faultRec 0 2 = fieldN f.payload 0 2 ∧ (u.tile t).cc.pc = (s.tile t).cc.pc) := by
  refine answers_txFailed (w := s.takeRx t (· == f)) (record := true) (by rw [State.tile_takeRx]) hagent hwaits
    (fieldN_lt f.payload 0 2) (guardRes_inTurn hwf hturn ?_)
  simp only [hkind, hreserved, hresponse, hid, hroute, htx, ne_eq, not_true_eq_false, or_self, if_false,
    Bool.false_eq_true]

theorem answers_responseTimeout {id : Nat} (hwf : Instr.wf (.responseTimeout t id) = true)
    (hrun : s.timeoutsHeld t = false) (htx : txOf (s.tile t) id = some x) (hagent : x.agent = .core)
    (hwaits : waitsFor (s.tile t).cc x.id = true) :
    Answers (.responseTimeout t id) s (fun u => (u.tile t).cc.state = .stoppedFault ∧
      fieldN (u.tile t).cc.faultRec 0 2 = 0x000A ∧ (u.tile t).cc.pc = (s.tile t).cc.pc) := by
  refine answers_txFailed (w := s) (record := false) rfl hagent hwaits (by decide) (guardRes_next hwf ?_)
  simp only [hrun, htx, Bool.false_eq_true, if_false]

end failures

/-- Settles O11: the five forms send through one lemma, their responses retire them. -/
theorem remoteInstructions : Obligations.RemoteInstructions := by
  unfold Obligations.RemoteInstructions
  intro s t d a b hok w sent
  have hpair : oddPair b = false → (oddPair b || false) = false := fun hb => by rw [hb]; rfl
  refine ⟨?rld, ?rst, ?add, ?cas32, ?cas64, ?readData, ?acknowledgement, ?refusal, ?timeout⟩
  case rld => exact fun id hissue hb => answers_remoteRun (exec_rld s hok d b) hissue (hpair hb)
  case rst => exact fun id hissue hb => answers_remoteRun (exec_rst s hok d b) hissue (hpair hb)
  case add => exact fun id hissue hb => answers_remoteRun (exec_ramoFetchAndAdd s hok d a b) hissue (hpair hb)
  case cas32 => exact fun id hissue hb => answers_remoteRun (exec_ramoCompareAndSwap32 s hok d a b) hissue (hpair hb)
  case cas64 =>
    intro hd ha id hissue hb
    have hpairs : (oddPair b || (oddPair d || oddPair a)) = false := by rw [hb, hd, ha]; rfl
    exact answers_remoteRun (exec_ramoCompareAndSwap64 s hok d a b) hissue hpairs
  case readData =>
    intro f x hwf hkind htx hread hagent hturn hdue retired
    refine ⟨fun hawaits hzero => ?word, fun hawaits hzero heven => ?pair⟩
    case word =>
      obtain ⟨u, hexec, hwrote, hpc, hwait, htx'⟩ :=
        answers_readData_word hawaits hwf hkind htx hread hagent hturn hdue hzero
      exact ⟨u, hexec, hwrote, hpc, hwait, htx'⟩
    case pair =>
      obtain ⟨u, hexec, hlow, hhigh, hrest, hpc, hwait, htx'⟩ :=
        answers_readData_pair hawaits hwf hkind htx hread hagent hturn hdue hzero heven
      exact ⟨u, hexec, hlow, hhigh, hrest, hpc, hwait, htx'⟩
  case acknowledgement => exact fun f x => answers_acknowledgement
  case refusal => exact fun f x => answers_refusal
  case timeout => exact fun id x => answers_responseTimeout

end Sys2Proof.Machine
end

section
/-!
SUPPORT. The walk of the KV map, and attention at a tile and at the merge root (R206 to R209, R211, R217, R218, R221), and
the obligation O29.
-/

namespace Sys2Proof.Machine

/-- The layer whose attention a tile's stage runs. -/
def State.layerAt (s : State) (p : Nat) (t : TileId) : Nat := layerOf (s.part p) (s.tile t).cc.stage

/-- A change of a partition is told by what it makes of that partition as it stands. -/
theorem State.modPart_congr {s : State} {p : Nat} {f g : Partition → Partition} (h : f (s.part p) = g (s.part p)) :
    s.modPart p f = s.modPart p g := by
  rw [State.modPart, State.modPart, h]

/-! ### The walk (R221) -/

section walk

variable {s : State} {p req stage : Nat} {x : Request}

/-- The groups that a walk of a stage brings in, up to the one of the highest position `top`. -/
def State.bringGroups (s : State) (p r stage top ctxE : Nat) : State :=
  let ts := attnTiles (s.part p) stage
  let layer := layerOf (s.part p) stage
  s.forEach (List.range (min (top / 256) (npMax ctxE / 4) + 1)) (fun g s =>
    match ts.drop (g % max ts.length 1), s.req p r with
    | t :: _, some x => if groupDue x layer g (top / 256) then s.walkGroup p r layer g t else s
    | _, _ => s)

/-- With OD 0x5100.03 at 0 a walk copies nothing out. -/
theorem State.walkStage_noCopies (hreq : s.req p req = some x) (hoff : s.odEff 0x5100 3 p = 0) (top : Nat) :
    s.walkStage p req stage top = s.bringGroups p req stage top x.ctxE := by
  unfold State.walkStage
  rw [hreq]
  dsimp only
  rw [hoff]
  rfl

/-- The state in which the token has entered a stage and the layer that its walk concerns is settled. -/
def State.walkSettled (s : State) (p req stage : Nat) : State :=
  (s.modReq p req (fun x => { x with stageAt := some stage })).settleLayer p req
    ((stage + s.odEff 0x5100 2 p) % stageCount (s.part p))

theorem noEffect_kvWalk (hp : p < 32)
    (h : stageCount (s.part p) ≤ stage ∨ s.coreRuns (coreOf (s.part p) req) = false) : NoEffect (.kvWalk p req stage) s :=
  guardRes_next (decide_eq_true hp) (if_pos h)

variable (hp : p < 32) (hstage : stage < stageCount (s.part p)) (hcore : s.coreRuns (coreOf (s.part p) req) = true)
  (hreq : (s.walkSettled p req stage).req p req = some x)
include hp hstage hcore hreq

theorem exec_kvWalk :
    exec (.kvWalk p req stage) s = .next (if x.st = .ending ∨ x.endDue.isSome = true then s.walkSettled p req stage
      else (s.walkSettled p req stage).walkStage p req ((stage + s.odEff 0x5100 2 p) % stageCount (s.part p))
        (topPosition x + (stage + s.odEff 0x5100 2 p) / stageCount (s.part p))) := by
  have hruns : ¬(stageCount (s.part p) ≤ stage ∨ s.coreRuns (coreOf (s.part p) req) = false) := by
    simp [hcore, hstage]
  refine guardRes_next (decide_eq_true hp) ((if_neg hruns).trans ?_)
  rw [State.walkSettled] at hreq ⊢
  dsimp only
  rw [hreq]

theorem exec_kvWalk_ending (hend : x.st = .ending ∨ x.endDue.isSome = true) :
    exec (.kvWalk p req stage) s = .next (s.walkSettled p req stage) :=
  (exec_kvWalk hp hstage hcore hreq).trans (congrArg _ (if_pos hend))

theorem exec_kvWalk_brings (hst : x.st ≠ .ending) (hdue : x.endDue = none)
    (hoff : (s.walkSettled p req stage).odEff 0x5100 3 p = 0) :
    exec (.kvWalk p req stage) s = .next ((s.walkSettled p req stage).bringGroups p req
      ((stage + s.odEff 0x5100 2 p) % stageCount (s.part p))
      (topPosition x + (stage + s.odEff 0x5100 2 p) / stageCount (s.part p)) x.ctxE) := by
  have hgoes : ¬(x.st = .ending ∨ x.endDue.isSome = true) := by simp [hst, hdue]
  rw [exec_kvWalk hp hstage hcore hreq, if_neg hgoes, State.walkStage_noCopies hreq hoff]

end walk

/-! ### A token at an attention tile (R218, R222) -/

section token

variable {s : State} {t : TileId} {p req position maskLo : Nat}

/-- Every slot group that a request has at a tile for a layer is marked with the time. -/
theorem markUse_lastUse (P : Partition) (tile req layer now : Nat) :
    ∀ w ∈ (markUse P tile req layer now).slots, w.tile = tile → w.req = req → w.layer = layer → w.lastUse = now := by
  intro w hw htile hreq hlayer
  obtain ⟨u, hu, rfl⟩ := List.mem_map.1 hw
  by_cases hmark : u.tile = tile ∧
      ((P.slots.filter (fun u => u.tile == tile && u.req == req && u.layer == layer)).map (·.slot)).contains u.slot = true
  · rw [if_pos hmark]
  · rw [if_neg hmark] at htile hreq hlayer
    have hmine : u ∈ P.slots.filter (fun u => u.tile == tile && u.req == req && u.layer == layer) := by
      simp [hu, htile, hreq, hlayer]
    exact absurd ⟨htile, List.contains_iff_mem.2 (List.mem_map_of_mem hmine)⟩ hmark

/-- The token's context is at an attention tile, and the pages that it needs there are too (R218 steps 1 and 2). -/
def State.tokenReady (s : State) (p : Nat) (t : TileId) (req position maskLo : Nat) : Prop :=
  (s.tile t).cc.role = 2 ∧ ctxCarries (s.tile t).ctx req position maskLo = true ∧
    s.pagesHere p t req (s.layerAt p t) position = true

/-- The wait of a token of a partition is counted, where it waited. -/
def State.waited (s : State) (p cycles : Nat) : State :=
  if cycles = 0 then s else ((s.odAdd 0x5100 5 1).odAdd 0x5100 6 cycles).odAddP 0x5101 3 p 1

/-- A partition with a token at a tile, in place of an earlier one of its request. -/
def joinToken (a : AttnToken) (layer now : Nat) (P : Partition) : Partition :=
  { markUse P a.tile a.req layer now with tokens := P.tokens.filter (fun b => !(b.tile == a.tile && b.req == a.req)) ++ [a] }

theorem mem_joinToken (a : AttnToken) (layer now : Nat) (P : Partition) : a ∈ (joinToken a layer now P).tokens :=
  List.mem_append_right _ (List.mem_singleton.2 rfl)

/-- Of its request the tile holds that token only. -/
theorem eq_of_mem_joinToken {a b : AttnToken} {layer now : Nat} {P : Partition} (h : b ∈ (joinToken a layer now P).tokens)
    (htile : b.tile = a.tile) (hreq : b.req = a.req) : b = a := by
  rcases List.mem_append.1 h with hold | hnew
  · have hother := (List.mem_filter.1 hold).2
    rw [htile, hreq, beq_self_eq_true, beq_self_eq_true] at hother
    cases hother
  · exact List.mem_singleton.1 hnew

variable (ht : tileOk t = true) (hpart : s.partOfTile t = some p)
include ht hpart

theorem exec_attentionToken_ready (waits : Nat) (hready : s.tokenReady p t req position maskLo) :
    exec (.attentionToken t req position maskLo waits) s =
      .next (((s.waited p waits).settleLayer p req (s.tile t).cc.stage).modPart p
        (joinToken ⟨tkey t, req, position, maskLo, []⟩ (s.layerAt p t) s.clkTime)) := by
  obtain ⟨hrole, hctx, hpages⟩ := hready
  rw [State.layerAt] at hpages
  refine guardRes_next ht ?_
  simp only [hpart, hrole, hctx, hpages, beq_self_eq_true, Bool.and_self, Bool.not_true, Bool.false_eq_true, if_false]
  rfl

theorem noEffect_attentionToken (waits : Nat) (hwaits : ¬s.tokenReady p t req position maskLo) :
    NoEffect (.attentionToken t req position maskLo waits) s := by
  have hnot : ((s.tile t).cc.role == 2 && ctxCarries (s.tile t).ctx req position maskLo &&
      s.pagesHere p t req (layerOf (s.part p) (s.tile t).cc.stage) position) = false := by
    rw [State.tokenReady, State.layerAt] at hwaits
    simpa [and_assoc] using hwaits
  refine guardRes_next ht ?_
  simp only [hpart, hnot, Bool.not_false, if_true]

end token

/-! ### The resume of a token (R218 steps 3 to 5) -/

section resume

/-- What a tile sends for query head `i` of those of a KV head, formed over its admissible positions (R209). -/
def State.contributionOf (w : State) (p : Nat) (t : TileId) (req layer head n : Nat) (v : View) (js : List Nat) (hd : Nat)
    (scales : List Word) (i : Nat) (q : List Word) : Contribution :=
  let f := foldQuery hd scales q
  let h := w.headAt p t v head js f.1 f.2
  { tile := tkey t, req := req, layer := layer, head := head * n + i, kvHead := head, m := h.m, c := h.c, v := h.v,
    empty := h.empty }

/-- A partition with new contributions of a tile and a request, in place of earlier ones for the same heads. -/
def withContributions (tile req : Nat) (new : List Contribution) (P : Partition) : Partition :=
  { P with contribs :=
      P.contribs.filter (fun c => !(c.tile == tile && c.req == req && new.any (fun n => n.head == c.head))) ++ new }

/-- Contributions of other tiles and other requests stay. -/
theorem mem_withContributions_other {tile req : Nat} {new : List Contribution} {P : Partition} {c : Contribution}
    (h : c ∈ P.contribs) (hother : c.tile ≠ tile ∨ c.req ≠ req) : c ∈ (withContributions tile req new P).contribs := by
  refine List.mem_append_left _ (List.mem_filter.2 ⟨h, ?_⟩)
  rcases hother with hc | hc <;> simp [hc]

theorem mem_withContributions_new {tile req i : Nat} {f : Nat → List Word → Contribution} {qs : List (List Word)} {q : List Word}
    (P : Partition) (h : qs[i]? = some q) : f i q ∈ (withContributions tile req (qs.mapIdx f) P).contribs := by
  refine List.mem_append_right _ (List.mem_of_getElem? (i := i) ?_)
  rw [List.getElem?_mapIdx, h]
  rfl

/-- Nothing but the contributions of the partition changes. -/
theorem State.modPart_withContributions (s : State) (p tile req : Nat) (new : List Contribution) :
    s.modPart p (withContributions tile req new) =
      s.modPart p (fun P => { P with contribs := (withContributions tile req new (s.part p)).contribs }) :=
  State.modPart_congr rfl

/-- No stream reads a granule with an uncorrectable error. -/
theorem streams_good {w : State} {t : TileId} {l : List (Nat × Nat)} (h : ∀ e ∈ l, badIn (w.tile t).sp e.1 e.2 = []) :
    l.any (fun e => !(badIn (w.tile t).sp e.1 e.2).isEmpty) = false :=
  List.any_eq_false.2 fun e he => by simp [h e he]

/-- The tile holds the tail group of a token that brings a new key and value. -/
def State.ownsTail (s : State) (p : Nat) (t : TileId) (a : AttnToken) (k : List Word) : Bool :=
  holdsGroup (s.part p) (s.tile t).cc.stage t a.position && !k.isEmpty

/-- The state in which the scales are read and the token's rows are appended, where the tile is to append them. -/
def State.rowsAppended (s : State) (p : Nat) (t : TileId) (req head : Nat) (a : AttnToken) (k v0 : List Word) : State :=
  let z := s.kvScales p req (s.layerAt p t) head
  if s.ownsTail p t a k then z.1.appendKv p req (s.layerAt p t) head a t z.2 k v0 else z.1

/-- The view of a request and layer at a tile, one without groups where there is none. -/
def State.viewAt (w : State) (p : Nat) (t : TileId) (req layer : Nat) : View :=
  (viewOf (w.part p) (tkey t) req layer).getD { tile := tkey t, req := req, layer := layer }

/-- The positions that a token attends to at a tile, among those of a view (R208). -/
def State.attended (s : State) (p : Nat) (t : TileId) (head : Nat) (a : AttnToken) (k : List Word) (x : Request)
    (v : View) : List Nat :=
  admissible x v (((s.part p).manifest.windows.drop (s.layerAt p t)).headD 0) a.maskLo a.position
    (s.ownsTail p t a k || a.heads.contains head)

variable {s : State} {t : TileId} {p req head : Nat} {a : AttnToken} {x : Request} {k v0 : List Word}

theorem exec_attentionResume_sends (ht : tileOk t = true) (hpart : s.partOfTile t = some p)
    (htoken : (s.part p).tokens.find? (fun b => b.tile == tkey t && b.req == req) = some a) (qs : List (List Word))
    {w : State} (hw : w = s.rowsAppended p t req head a k v0) (hreq : w.req p req = some x)
    {v : View} (hv : v = w.viewAt p t req (s.layerAt p t)) {js : List Nat} (hjs : js = s.attended p t head a k x v)
    (hgood : ∀ e ∈ w.streamRangesOf p v head js, badIn (w.tile t).sp e.1 e.2 = []) :
    exec (.attentionResume t req head qs k v0) s = .next (w.modPart p (withContributions (tkey t) req
      (qs.mapIdx (w.contributionOf p t req (s.layerAt p t) head qs.length v js (s.part p).manifest.hd
        ((s.kvScales p req (s.layerAt p t) head).2.map (·.1)))))) := by
  unfold State.rowsAppended State.ownsTail State.layerAt at hw
  unfold State.viewAt State.layerAt at hv
  unfold State.attended State.ownsTail State.layerAt at hjs
  refine guardRes_next ht ?_
  simp only [hpart, htoken, ← hw, hreq, ← hv, ← hjs, streams_good hgood, Bool.false_eq_true, if_false]
  rfl

end resume

/-! ### The merge root (R209, R211, R218) -/

section merge

variable {s : State} {t : TileId} {p req head : Nat} {tree : MergeTree} {out : Requant}

/-- The contribution that a tile has sent for a query head of a request in a layer. -/
def sentBy (P : Partition) (req layer head : Nat) (u : TileId) : Option Contribution :=
  P.contribs.find? (fun c => c.tile == tkey u && c.req == req && c.layer == layer && c.head == head)

/-- What the merge root forms of the contributions `at0` of the tiles of its tree. -/
def mergedOf (hd : Nat) (t : TileId) (req head : Nat) (tree : MergeTree) (out : Requant) (at0 : TileId → Contribution)
    (scales : List Word) : Merged :=
  let o := mergeHeads hd tree at0 scales
  { tile := tkey t, req := req, head := head, out := o, codes := requantise o out,
    empty := (treeTiles tree).all (fun u => (at0 u).empty) }

/-- A partition with a head merged, in place of an earlier result, and its contributions gone. -/
def keepMerged (layer : Nat) (x : Merged) (P : Partition) : Partition :=
  { P with merged := P.merged.filter (fun y => !(y.tile == x.tile && y.req == x.req && y.head == x.head)) ++ [x],
           contribs := P.contribs.filter (fun c => !(c.req == x.req && c.layer == layer && c.head == x.head)) }

theorem mem_keepMerged (layer : Nat) (x : Merged) (P : Partition) : x ∈ (keepMerged layer x P).merged :=
  List.mem_append_right _ (List.mem_singleton.2 rfl)

theorem not_mem_keepMerged {layer : Nat} {x : Merged} {P : Partition} {c : Contribution}
    (h : c ∈ (keepMerged layer x P).contribs) : ¬(c.req = x.req ∧ c.layer = layer ∧ c.head = x.head) := by
  rintro ⟨hreq, hlayer, hhead⟩
  have hkept := (List.mem_filter.1 h).2
  rw [hreq, hlayer, hhead] at hkept
  simp at hkept

/-- Nothing but the merged heads and the contributions of the partition changes. -/
theorem State.modPart_keepMerged (s : State) (p layer : Nat) (x : Merged) :
    s.modPart p (keepMerged layer x) = s.modPart p (fun P =>
      { P with merged := (keepMerged layer x (s.part p)).merged, contribs := (keepMerged layer x (s.part p)).contribs }) :=
  State.modPart_congr rfl

variable (ht : tileOk t = true) (hpart : s.partOfTile t = some p)
include ht hpart

/-- While a tile of the stage has not sent its contribution the merge waits. -/
theorem noEffect_attentionMerge {u : TileId} (hu : u ∈ attnTiles (s.part p) (s.tile t).cc.stage)
    (hsent : sentBy (s.part p) req (s.layerAt p t) head u = none) :
    NoEffect (.attentionMerge t req head tree out) s := by
  have hall : (attnTiles (s.part p) (s.tile t).cc.stage).all (fun u =>
      (sentBy (s.part p) req (s.layerAt p t) head u).isSome) = false :=
    List.all_eq_false.2 ⟨u, hu, by rw [hsent]; exact Bool.false_ne_true⟩
  unfold sentBy State.layerAt at hall
  refine guardRes_next ht ?_
  simp only [hpart, hall, Bool.false_and, Bool.not_false, if_true]
  split <;> rfl

theorem exec_attentionMerge_all {c0 : Contribution} {layer : Nat} (hlayer : layer = s.layerAt p t)
    {ts : List TileId} (hts : ts = attnTiles (s.part p) (s.tile t).cc.stage)
    (hfirst : sentBy (s.part p) req layer head (ts.headD t) = some c0)
    (hall : ∀ u ∈ ts, (sentBy (s.part p) req layer head u).isSome = true)
    (hin : ∀ u ∈ treeTiles tree, u ∈ ts) (hcover : ∀ u ∈ ts, u ∈ treeTiles tree)
    (hlength : (treeTiles tree).length = ts.length) :
    exec (.attentionMerge t req head tree out) s = .next ((s.kvScales p req layer c0.kvHead).1.modPart p (keepMerged layer
      (mergedOf (s.part p).manifest.hd t req head tree out (fun u => (sentBy (s.part p) req layer head u).getD c0)
        ((s.kvScales p req layer c0.kvHead).2.map (·.2))))) := by
  have hsent : ts.all (fun u => (sentBy (s.part p) req layer head u).isSome) = true := List.all_eq_true.2 hall
  have htree : (treeTiles tree).all ts.contains = true := List.all_eq_true.2 fun u hu => List.contains_iff_mem.2 (hin u hu)
  have hstage : ts.all (treeTiles tree).contains = true := List.all_eq_true.2 fun u hu => List.contains_iff_mem.2 (hcover u hu)
  subst hlayer hts
  unfold sentBy State.layerAt at hfirst hsent
  refine guardRes_next ht ?_
  simp only [hpart, hfirst, hsent, htree, hstage, hlength, beq_self_eq_true, Bool.and_self, Bool.not_true,
    Bool.false_eq_true, if_false]
  rfl

end merge

/-- Settles O29, by the command. -/
theorem kvCacheAndAttention : Obligations.KvCacheAndAttention := by
  unfold Obligations.KvCacheAndAttention
  intro s t p req ht hp P
  refine ⟨fun stage => noEffect_kvWalk hp, ?walk, fun hpart => ⟨?ready, fun position maskLo waits =>
    noEffect_attentionToken ht hpart waits, ?resume, ?merge⟩⟩
  case walk =>
    intro stage x hstage hcore ahead walked s1 ts layer top hreq
    exact ⟨exec_kvWalk_ending hp hstage hcore hreq, exec_kvWalk_brings hp hstage hcore hreq⟩
  case ready =>
    intro position maskLo waits hready
    refine ⟨_, exec_attentionToken_ready ht hpart waits hready, ?_⟩
    dsimp only
    rw [State.part_modPart_same]
    exact ⟨mem_joinToken _ _ _ _, fun b hb => eq_of_mem_joinToken hb, markUse_lastUse _ _ _ _ _⟩
  case resume =>
    intro head qs k v0 a x htoken z own w hreq v js hgood
    refine ⟨_, exec_attentionResume_sends ht hpart htoken qs rfl hreq rfl rfl hgood, ?_⟩
    dsimp only
    rw [State.part_modPart_same]
    exact ⟨fun i q hq => mem_withContributions_new _ hq, fun c hc hother => mem_withContributions_other hc hother,
      State.modPart_withContributions _ _ _ _ _⟩
  case merge =>
    intro head tree out ts sent
    refine ⟨fun ⟨u, hu, hsent⟩ => noEffect_attentionMerge ht hpart hu hsent, ?all⟩
    case all =>
      intro c0 hfirst hall hin hcover hlength at0 z o
      refine ⟨_, exec_attentionMerge_all ht hpart rfl rfl hfirst hall hin hcover hlength, ?_⟩
      dsimp only
      rw [State.part_modPart_same]
      exact ⟨mem_keepMerged _ _ _, fun c hc => not_mem_keepMerged hc, State.modPart_keepMerged _ _ _ _⟩

end Sys2Proof.Machine
end

section
/-!
SUPPORT. The freeing of a request (R224, R246) where the table of requests lists one of them twice, and the refutation of
O30.
-/

namespace Sys2Proof.Machine

/-- An ENDING request with no token and no descriptor in flight is freed (R224). -/
theorem exec_requestFree_frees {s w : State} {p req : Nat} {x : Request} (hp : p < 32)
    (hw : w = (s.settleRequest p req).pumpJobs p req) (hreq : w.req p req = some x) (hst : x.st = .ending)
    (hrecorded : x.recorded = false) (hout : x.out = 0) (hflight : anyInflight (w.part p) req x = false) :
    exec (.requestFree p req) s = .next (w.freeRequest p req) := by
  refine guardRes_next (decide_eq_true hp) ?_
  simp only [← hw, hreq, hst, hrecorded, hout, hflight, and_self, if_true]

/-- A request in a state, whose completion record may have been formed. -/
def requestHeld (st : ReqState) (recorded : Bool) : Request :=
  { st := st, tag := 0, noPrefix := false, topk := 1, stops := [], promptLen := 1, maxNew := 1, ctxE := 2, maskLo := 0,
    temp := 0, topp := 0, ttft := 0, endDl := 0, seed := 0, fromStack := false, promptAddr := 0, submitAt := 0,
    recorded := recorded }

/-- The block after reset, with the rings of partition 0 enabled, an ENDING request 0, and a table of requests that lists
request 1 twice: first with its record formed and no longer held, then decoding. -/
def listedTwice : State :=
  (State.reset.modFn .a 1 (fun f => { f with en := true, busMaster := true })).modPart 0 (fun P =>
    { P with reqs := [(0, requestHeld .ending false), (1, requestHeld .ending true), (1, requestHeld .decode false)] })

/-- The freeing of request 0 finds nothing to settle, and request 1 at its first place. -/
theorem listedTwice_before :
    let w := (listedTwice.settleRequest 0 0).pumpJobs 0 0
    w.req 0 0 = some (requestHeld .ending false) ∧ anyInflight (w.part 0) 0 (requestHeld .ending false) = false ∧
      w.req 0 1 = some (requestHeld .ending true) := by
  decide +kernel

/-- The record of request 0 goes to the host; the first place of request 1 is FREE with it, and its second shows. -/
theorem listedTwice_after :
    (((listedTwice.settleRequest 0 0).pumpJobs 0 0).freeRequest 0 0).req 0 1 = some (requestHeld .decode false) := by
  decide +kernel

/-- Refutes O30: it speaks of every state, so of one whose table of requests lists request 1 twice, which no table in
canonical form does. The record of request 0 is written when it is freed, and of the places of request 1 the first, whose
record has left, goes and the second stays: what REQ 1 reads as is then neither as before nor gone. -/
theorem not_prefixTreeAndFreeing : ¬ Obligations.PrefixTreeAndFreeing := by
  unfold Obligations.PrefixTreeAndFreeing
  intro h
  obtain ⟨hreq, hflight, hbefore⟩ := listedTwice_before
  obtain ⟨-, -, hfree, -⟩ := h listedTwice 0 0 (by decide)
  obtain ⟨u, hexec, -, hothers⟩ := hfree _ hreq rfl rfl rfl hflight
  rw [exec_requestFree_frees (by decide) rfl hreq rfl rfl rfl hflight] at hexec
  cases hexec
  rcases hothers 1 (by decide) with hsame | ⟨hgone, -⟩
  · rw [listedTwice_after, hbefore] at hsame
    exact absurd hsame (by decide)
  · rw [listedTwice_after] at hgone
    cases hgone

end Sys2Proof.Machine
end

section
/-!
SUPPORT. What the operations of request serving leave of the partitions: records free entries of the table of requests
and nothing else (R246), and of all that a boundary does only its own advance changes the step number (R243, R244).
-/

namespace Sys2Proof.Machine

/-! ### Operations that leave the partitions -/

section parts

variable (s : State)

@[simp] theorem State.modVf_parts (p : Nat) (f : Function → Function) : (s.modVf p f).parts = s.parts := rfl

@[simp] theorem State.interrupt_parts (port : Port) (fn vector : Nat) :
    (s.interrupt port fn vector).parts = s.parts := by
  obtain ⟨fns, out, h, -⟩ := s.interrupt_frame port fn vector
  rw [h]

@[simp] theorem State.countHeld_parts (p : Nat) : (s.countHeld p).parts = s.parts := by
  obtain ⟨od, h⟩ := s.countHeld_frame p
  rw [h]

@[simp] theorem State.countServing_parts (p : Nat) : (s.countServing p).parts = s.parts := by
  simp [State.countServing]

@[simp] theorem State.takeDesc_parts (p : Nat) (d : List Byte) : (s.takeDesc p d).parts = s.parts := by
  unfold State.takeDesc
  split <;> rfl

@[simp] theorem State.writeRecords_parts (port : Port) (fn : Nat) (l : List (List Byte)) :
    (s.writeRecords port fn l).1.parts = s.parts := by
  induction l generalizing s with
  | nil => rfl
  | cons b r ih =>
    rw [State.writeRecords]
    split
    · rfl
    · exact ih _

@[simp] theorem State.meetUnit_parts (da : Nat) (f : UnitFind) (whole : Bool) :
    (s.meetUnit da f whole).1.parts = s.parts := by
  unfold State.meetUnit
  split
  · rfl
  · split
    · rfl
    · split
      · rfl
      · split <;> rfl

@[simp] theorem State.meetUnits_parts (p addr len : Nat) (wr : Bool) (found : List UnitFind) (u n : Nat) :
    (s.meetUnits p addr len wr found u n).1.parts = s.parts := by
  induction n generalizing s found u with
  | zero => rfl
  | succ n ih =>
    rw [State.meetUnits]
    dsimp only
    split
    · rfl
    · split
      · exact s.meetUnit_parts _ _ _
      · exact (ih _ _ _).trans (s.meetUnit_parts _ _ _)

@[simp] theorem State.putStack_parts (p addr : Nat) (bs : List Byte) : (s.putStack p addr bs).parts = s.parts := by
  induction bs generalizing s addr with
  | nil => rfl
  | cons b r ih =>
    rw [State.putStack]
    refine (ih _ _).trans ?_
    split <;> rfl

@[simp] theorem State.stackRead_parts (p addr len : Nat) (found : List UnitFind) :
    (s.stackRead p addr len found).1.parts = s.parts := by
  unfold State.stackRead
  split
  · rfl
  · exact s.meetUnits_parts _ _ _ _ _ _ _

@[simp] theorem State.stackWrite_parts (p addr : Nat) (bs : List Byte) (found : List UnitFind) :
    (s.stackWrite p addr bs found).1.parts = s.parts := by
  unfold State.stackWrite
  split
  · rfl
  · exact (State.putStack_parts _ _ _ _).trans (s.meetUnits_parts _ _ _ _ _ _ _)

@[simp] theorem State.putTree_parts (p off : Nat) (bs : List Byte) : (s.putTree p off bs).parts = s.parts := by
  unfold State.putTree
  dsimp only
  split
  · rfl
  · exact s.stackWrite_parts _ _ _ _

@[simp] theorem State.showNode_parts (p n : Nat) : (s.showNode p n).parts = s.parts := s.putTree_parts _ _ _

@[simp] theorem State.showTree_parts (p : Nat) : (s.showTree p).parts = s.parts :=
  (State.forEach_unchanged State.parts (fun n s => s.showNode_parts p n) _ _).trans (s.putTree_parts _ _ _)

theorem State.part_of_parts {s u : State} (h : u.parts = s.parts) (p : Nat) : u.part p = s.part p := by
  rw [State.part, h, State.part]

end parts

/-! ### Records (R246, R247) -/

/-- A partition in which of the entries of its requests those that `keep` accepts are left. -/
def entriesKept (keep : Nat × Request → Bool) (P : Partition) : Partition := { P with reqs := P.reqs.filter keep }

theorem entriesKept_all (P : Partition) : entriesKept (fun _ => true) P = P := by
  rw [entriesKept, List.filter_eq_self.2 fun _ _ => rfl]

/-- A step has changed the partitions at most by freeing entries of requests of one of them. -/
def OnlyFrees (q : Nat) (s u : State) : Prop :=
  ∃ keep, ∀ p, u.part p = if p = q then entriesKept keep (s.part q) else s.part p

theorem onlyFrees_of_parts {q : Nat} {s u : State} (h : u.parts = s.parts) : OnlyFrees q s u := by
  refine ⟨fun _ => true, fun p => ?_⟩
  rw [entriesKept_all, State.part_of_parts h]
  split
  · rename_i hp
    rw [hp]
  · rfl

theorem OnlyFrees.of_parts {q : Nat} {s t u v : State} (h : OnlyFrees q s t) (hs : s.parts = u.parts)
    (ht : v.parts = t.parts) : OnlyFrees q u v := by
  obtain ⟨keep, hkeep⟩ := h
  refine ⟨keep, fun p => ?_⟩
  rw [State.part_of_parts ht, hkeep, State.part_of_parts hs, State.part_of_parts hs]

theorem State.onlyFrees_freeEntries (s : State) (q : Nat) : OnlyFrees q s (s.freeEntries q) := by
  unfold State.freeEntries
  dsimp only
  split
  · exact onlyFrees_of_parts rfl
  · exact ⟨_, fun p =>
      (State.part_of_parts (State.countHeld_parts _ _) p).trans (s.part_modPart q p (entriesKept _))⟩

theorem State.onlyFrees_pumpRecords (s : State) (port : Port) (fn : Nat) :
    OnlyFrees (vfPart fn) s (s.pumpRecords port fn) := by
  have hfreed := (State.onlyFrees_freeEntries (s.writeRecords port fn (s.fn port fn).held).1 (vfPart fn)).of_parts
    (s.writeRecords_parts port fn _) rfl
  unfold State.pumpRecords
  dsimp only
  split
  · exact onlyFrees_of_parts rfl
  · split
    · exact onlyFrees_of_parts (s.writeRecords_parts _ _ _)
    · split
      · exact hfreed.of_parts rfl (by simp)
      · exact hfreed.of_parts rfl (by simp)

/-- A record of a partition frees entries of its requests and leaves the partitions otherwise. -/
theorem State.onlyFrees_postRecord (s : State) (q : Nat) (b : List Byte) : OnlyFrees q s (s.postRecord q b) := by
  have hpumped := (State.onlyFrees_pumpRecords (s.modVf q fun f => { f with held := f.held ++ [fitB b 64] })
    (s.boundPort q) (q + 1)).of_parts rfl rfl
  unfold State.postRecord
  dsimp only
  split
  · exact hpumped
  · exact hpumped.of_parts rfl rfl

theorem State.onlyFrees_answer (s : State) (q tag status detail submitAt : Nat) :
    OnlyFrees q s (s.answer q tag status detail submitAt) := s.onlyFrees_postRecord q _

theorem mfind_filter_of_none {α : Type} {m : SMap α} {k : Nat} (h : mfind m k = none) (keep : Nat × α → Bool) :
    mfind (m.filter keep) k = none := by
  induction m with
  | nil => rfl
  | cons e r ih =>
    obtain ⟨a, v⟩ := e
    rw [mfind] at h
    split at h
    · cases h
    · rename_i hne
      rw [List.filter_cons]
      split
      · rw [mfind, if_neg hne, ih h]
      · exact ih h

/-- Freeing entries gives no request an entry. -/
theorem OnlyFrees.req_none {q r : Nat} {s u : State} (h : OnlyFrees q s u) (hnone : s.req q r = none) :
    u.req q r = none := by
  obtain ⟨keep, hkeep⟩ := h
  rw [State.req, hkeep, if_pos rfl]
  exact mfind_filter_of_none hnone keep

/-! ### The step number (R243) -/

/-- The step number of a partition. -/
def State.stepNo (s : State) (p : Nat) : Nat := (s.part p).step

theorem State.stepNo_of_parts {s u : State} (h : u.parts = s.parts) (p : Nat) : u.stepNo p = s.stepNo p :=
  congrArg Partition.step (State.part_of_parts h p)

theorem OnlyFrees.stepNo {q : Nat} {s u : State} (h : OnlyFrees q s u) (p : Nat) : u.stepNo p = s.stepNo p := by
  obtain ⟨keep, hkeep⟩ := h
  rw [State.stepNo, hkeep]
  split
  · rename_i hp
    rw [hp]
    rfl
  · rfl

section stepNo

variable (s : State) (p q : Nat)

@[simp] theorem State.stepNo_emit (e : Emission) : (s.emit e).stepNo p = s.stepNo p := rfl
@[simp] theorem State.stepNo_odSetP (i b k v : Nat) : (s.odSetP i b k v).stepNo p = s.stepNo p := rfl
@[simp] theorem State.stepNo_odAdd (i b v : Nat) : (s.odAdd i b v).stepNo p = s.stepNo p := rfl
@[simp] theorem State.stepNo_odAddP (i b k v : Nat) : (s.odAddP i b k v).stepNo p = s.stepNo p := rfl
@[simp] theorem State.stepNo_countServing : (s.countServing q).stepNo p = s.stepNo p :=
  State.stepNo_of_parts (s.countServing_parts q) p

@[simp] theorem State.stepNo_takeDesc (d : List Byte) : (s.takeDesc q d).stepNo p = s.stepNo p :=
  State.stepNo_of_parts (s.takeDesc_parts q d) p

@[simp] theorem State.stepNo_stackRead (a n : Nat) (found : List UnitFind) :
    (s.stackRead q a n found).1.stepNo p = s.stepNo p := State.stepNo_of_parts (s.stackRead_parts _ _ _ _) p

@[simp] theorem State.stepNo_stackWrite (a : Nat) (bs : List Byte) (found : List UnitFind) :
    (s.stackWrite q a bs found).1.stepNo p = s.stepNo p := State.stepNo_of_parts (s.stackWrite_parts _ _ _ _) p

@[simp] theorem State.stepNo_showNode (n : Nat) : (s.showNode q n).stepNo p = s.stepNo p :=
  State.stepNo_of_parts (s.showNode_parts q n) p

@[simp] theorem State.stepNo_showTree : (s.showTree q).stepNo p = s.stepNo p :=
  State.stepNo_of_parts (s.showTree_parts q) p

@[simp] theorem State.stepNo_postRecord (b : List Byte) : (s.postRecord q b).stepNo p = s.stepNo p :=
  (s.onlyFrees_postRecord q b).stepNo p

@[simp] theorem State.stepNo_answer (tag status detail submitAt : Nat) :
    (s.answer q tag status detail submitAt).stepNo p = s.stepNo p := s.stepNo_postRecord p q _

/-- A change of a partition that leaves its step number. -/
@[simp] theorem State.stepNo_modPart {f : Partition → Partition} (hf : ∀ P, (f P).step = P.step) :
    (s.modPart q f).stepNo p = s.stepNo p := by
  rw [State.stepNo, State.part_modPart]
  split
  · rename_i hp
    rw [hf, hp, State.stepNo]
  · rfl

theorem State.stepNo_ite {n : Nat} {c : Prop} [Decidable c] {a b : State} (ha : a.stepNo p = n) (hb : b.stepNo p = n) :
    (if c then a else b).stepNo p = n := by
  split
  · exact ha
  · exact hb

theorem State.stepNo_forEach {α : Type} {f : α → State → State} (hf : ∀ a s, (f a s).stepNo p = s.stepNo p) (l : List α) :
    (s.forEach l f).stepNo p = s.stepNo p := State.forEach_unchanged (State.stepNo · p) hf l s

/-! ### Requests -/

@[simp] theorem State.stepNo_modReq (r : Nat) (f : Request → Request) : (s.modReq q r f).stepNo p = s.stepNo p := by
  unfold State.modReq
  split
  · rfl
  · exact s.stepNo_modPart p q fun _ => rfl

@[simp] theorem State.stepNo_endRequest (r status reason detail : Nat) :
    (s.endRequest q r status reason detail).stepNo p = s.stepNo p := s.stepNo_modReq p q r _

@[simp] theorem State.stepNo_failReq (r status detail : Nat) : (s.failReq q r status detail).stepNo p = s.stepNo p :=
  s.stepNo_modPart p q fun _ => rfl

@[simp] theorem State.stepNo_putRegion (r a : Nat) (bs : List Byte) : (s.putRegion q r a bs).stepNo p = s.stepNo p := by
  unfold State.putRegion
  exact State.stepNo_ite p rfl (State.stepNo_ite p (by simp) (by simp))

@[simp] theorem State.stepNo_showIds (r position : Nat) (ids : List Nat) :
    (s.showIds q r position ids).stepNo p = s.stepNo p := s.stepNo_putRegion p q r _ _

@[simp] theorem State.stepNo_showPage (r layer page : Nat) : (s.showPage q r layer page).stepNo p = s.stepNo p := by
  unfold State.showPage
  split
  · rfl
  · exact s.stepNo_putRegion p q r _ _

@[simp] theorem State.stepNo_showPages (r : Nat) : (s.showPages q r).stepNo p = s.stepNo p := by
  unfold State.showPages
  split
  · rfl
  · exact s.stepNo_forEach p (fun _ s => s.stepNo_forEach p (fun _ s => s.stepNo_showPage p q r _ _) _) _

/-! ### Nodes of the tree (R226, R227, R229) -/

@[simp] theorem State.stepNo_modNode (n : Nat) (f : PrefixNode → PrefixNode) :
    (s.modNode q n f).stepNo p = s.stepNo p := s.stepNo_modPart p q fun _ => rfl

@[simp] theorem State.stepNo_dropNode (n : Nat) : (s.dropNode q n).stepNo p = s.stepNo p := by
  simp [State.dropNode]

@[simp] theorem State.stepNo_reapNode (n : Nat) : (s.reapNode q n).stepNo p = s.stepNo p := by
  unfold State.reapNode
  split
  · split <;> simp
  · rfl

@[simp] theorem State.stepNo_releaseNodes (l : List Nat) : (s.releaseNodes q l).stepNo p = s.stepNo p :=
  s.stepNo_forEach p (fun _ _ => by simp) l

@[simp] theorem State.stepNo_holdNode (n : Nat) : (s.holdNode q n).stepNo p = s.stepNo p := by
  simp [State.holdNode]

@[simp] theorem State.stepNo_takeNodes (r : Nat) (l : List Nat) : (s.takeNodes q r l).stepNo p = s.stepNo p := by
  unfold State.takeNodes
  dsimp only
  rw [State.stepNo_modReq, State.stepNo_odAdd]
  exact s.stepNo_forEach p (fun n s => s.stepNo_holdNode p q n) l

/-! ### Admission (Table 9.2) -/

@[simp] theorem State.stepNo_refuseReq (r code detail : Nat) : (s.refuseReq q r code detail).stepNo p = s.stepNo p := by
  unfold State.refuseReq
  split
  · rfl
  · dsimp only
    rw [State.stepNo_countServing, State.stepNo_answer]
    exact State.stepNo_ite p (by simp) (State.stepNo_ite p (by simp) (by simp))

@[simp] theorem State.stepNo_giveFrames (r : Nat) : (s.giveFrames q r).stepNo p = s.stepNo p := by
  unfold State.giveFrames
  split
  · rfl
  · simp

@[simp] theorem State.stepNo_admitSpace (r : Nat) : (s.admitSpace q r).stepNo p = s.stepNo p := by
  unfold State.admitSpace
  split
  · rfl
  · exact State.stepNo_ite p (by simp) (State.stepNo_ite p (by simp) (by simp))

@[simp] theorem State.stepNo_admitMatch (r : Nat) : (s.admitMatch q r).stepNo p = s.stepNo p := by
  unfold State.admitMatch
  split
  · rfl
  · extract_lets n look l s1
    have hs1 : s1.stepNo p = s.stepNo p := State.stepNo_ite p (by simp) (by simp)
    exact State.stepNo_ite p (by simp [hs1]) (by simp [hs1])

@[simp] theorem State.stepNo_promptIds (r : Nat) (ids : List Nat) : (s.promptIds q r ids).stepNo p = s.stepNo p := by
  unfold State.promptIds
  split
  · rfl
  · split
    · rfl
    · split
      · simp
      · dsimp only
        split <;> simp

@[simp] theorem State.stepNo_promptFails (r code : Nat) : (s.promptFails q r code).stepNo p = s.stepNo p := by
  unfold State.promptFails
  split
  · rfl
  · split <;> simp

@[simp] theorem State.stepNo_readPrompt (r : Nat) (x : Request) : (s.readPrompt q r x).stepNo p = s.stepNo p := by
  unfold State.readPrompt
  dsimp only
  split
  · exact State.stepNo_ite p (by simp) (by simp)
  · exact State.stepNo_ite p (by simp) (by simp)

@[simp] theorem State.stepNo_submitDesc (d : List Byte) : (s.submitDesc q d).stepNo p = s.stepNo p := by
  unfold State.submitDesc
  dsimp only
  split
  · rw [State.stepNo_answer]
    exact State.stepNo_ite p (by simp) rfl
  · simp

@[simp] theorem State.stepNo_cancelDesc (d : List Byte) : (s.cancelDesc q d).stepNo p = s.stepNo p := by
  unfold State.cancelDesc
  exact State.stepNo_ite p (by simp) (State.stepNo_ite p (by simp) (by simp))

/-! ### Tokens and passes of the step that ends (R244 steps 1 and 2) -/

@[simp] theorem State.stepNo_measureStep : (s.measureStep q).stepNo p = s.stepNo p := by
  unfold State.measureStep
  split
  · rfl
  · simp

@[simp] theorem State.stepNo_passDone (r : Nat) (x : Request) (time : Nat) :
    (s.passDone q r x time).stepNo p = s.stepNo p := by
  simp [State.passDone]

@[simp] theorem State.stepNo_takeToken (r : Nat) (x : Request) (k : Sampled) :
    (s.takeToken q r x k).stepNo p = s.stepNo p := by
  unfold State.takeToken
  dsimp only
  split <;> split <;> split <;> simp

@[simp] theorem State.stepNo_takeSampled (k : Sampled) : (s.takeSampled q k).stepNo p = s.stepNo p := by
  unfold State.takeSampled
  split
  · rfl
  · split
    · rfl
    · split
      · simp
      · dsimp only
        split <;> simp
      · simp
      · rfl

@[simp] theorem State.stepNo_endErrors : (s.endErrors q).stepNo p = s.stepNo p := by
  refine s.stepNo_forEach p (fun e s => ?_) _
  split
  · rfl
  · split <;> simp

@[simp] theorem State.stepNo_endDeadlines : (s.endDeadlines q).stepNo p = s.stepNo p := by
  refine s.stepNo_forEach p (fun e s => ?_) _
  split
  · rfl
  · split <;> simp

@[simp] theorem State.stepNo_endAtBoundary : (s.endAtBoundary q).stepNo p = s.stepNo p := by
  unfold State.endAtBoundary
  dsimp only
  split
  · rfl
  · rw [State.stepNo_modPart]
    · exact s.stepNo_forEach p (fun e s => State.stepNo_ite p (by simp) (by simp)) _
    · exact fun _ => rfl

/-! ### Cancels, descriptors and the next step (R244 steps 2 to 5) -/

@[simp] theorem State.stepNo_applyCancel (c : Nat × List Byte) : (s.applyCancel q c).stepNo p = s.stepNo p := by
  unfold State.applyCancel
  dsimp only
  split
  · simp
  · split
    · rfl
    · exact State.stepNo_ite p (by simp) (State.stepNo_ite p (by simp) (by simp))

@[simp] theorem State.stepNo_readRing (limit fuel : Nat) : (s.readRing q limit fuel).stepNo p = s.stepNo p := by
  induction fuel generalizing s limit with
  | zero => rfl
  | succ fuel ih =>
    rw [State.readRing]
    split
    · rfl
    · split
      · simp [ih]
      · split
        · rfl
        · simp [ih]

@[simp] theorem State.stepNo_promote (fuel : Nat) : (s.promote q fuel).stepNo p = s.stepNo p := by
  induction fuel generalizing s with
  | zero => rfl
  | succ fuel ih =>
    rw [State.promote]
    split
    · rfl
    · split
      · rfl
      · rw [ih, State.stepNo_modReq]

@[simp] theorem State.stepNo_releaseOne (r : Nat) : (s.releaseOne q r).stepNo p = s.stepNo p := by
  unfold State.releaseOne
  split
  · rfl
  · simp

end stepNo

end Sys2Proof.Machine
end

section
/-!
SUPPORT. Submissions, prompts and cancels as the lead core reads them (R233, R238, R239), the step boundary (R243–R245,
R253), and the obligation O31.
-/

namespace Sys2Proof.Machine

/-! ### Submissions (R233, R239) -/

@[simp] theorem State.takeDesc_clkTime (s : State) (p : Nat) (d : List Byte) : (s.takeDesc p d).clkTime = s.clkTime := by
  unfold State.takeDesc
  split <;> rfl

section submission

variable {v : State} {p : Nat} {d : List Byte}

theorem State.submitDesc_takes {r : Nat} (hcode : v.submitCode p d (requestOf d v.clkTime) = 0) (hfree : v.freeReq p = some r) :
    v.submitDesc p d =
      ((v.modPart p (fun P => { P with reqs := mput P.reqs r (requestOf d v.clkTime) })).countServing p).readPrompt p r
        (requestOf d v.clkTime) := by
  simp only [State.submitDesc, hcode, if_true, hfree]

theorem State.submitDesc_refuses (hcode : v.submitCode p d (requestOf d v.clkTime) ≠ 0)
    (hother : v.submitCode p d (requestOf d v.clkTime) ≠ 0x0101) :
    v.submitDesc p d = v.answer p (requestOf d v.clkTime).tag (v.submitCode p d (requestOf d v.clkTime)) 0 v.clkTime := by
  simp only [State.submitDesc, if_neg hcode, if_neg hother]

/-- A submission that finds no REQ free is counted as well (R239). -/
theorem State.submitDesc_counts (hcode : v.submitCode p d (requestOf d v.clkTime) = 0x0101) :
    v.submitDesc p d = (v.odAdd 0x5000 0xB 1).answer p (requestOf d v.clkTime).tag 0x0101 0 v.clkTime := by
  have hne : (0x0101 : Nat) ≠ 0 := by decide
  simp only [State.submitDesc, hcode, if_neg hne, if_true]

theorem exec_submit {s : State} (hp : p < 32) (hd : d.length = 128) :
    exec (.submit p d) s = .next ((s.takeDesc p d).submitDesc p d) :=
  guardRes_next (by simp [Instr.wf, partOk, bytesOk, hp, hd]) rfl

end submission

/-! ### Prompts (R239) -/

section prompt

variable {s : State} {p r : Nat} {y : Request}

/-- A refused request is held no more. -/
theorem State.refuseReq_req (hreq : s.req p r = some y) (code detail : Nat) :
    (s.refuseReq p r code detail).req p r = none := by
  have hgone : ((s.releaseNodes p y.nodes).modPart p (fun P => { P with reqs := mdel P.reqs r })).req p r = none := by
    rw [State.req, State.part_modPart_same, mfind_mdel, if_pos rfl]
  unfold State.refuseReq
  rw [hreq]
  dsimp only
  rw [State.req, State.part_of_parts (State.countServing_parts _ _)]
  refine (State.onlyFrees_answer _ _ _ _ _ _).req_none ?_
  split
  · exact hgone
  · split <;> exact hgone

theorem State.promptFails_admitting (hreq : s.req p r = some y) (hst : y.st = .admitting) (code : Nat) :
    s.promptFails p r code = s.refuseReq p r code 0 := by
  simp only [State.promptFails, hreq, hst, if_true]

theorem findIdx_none {α : Type} {test : α → Bool} {l : List α} (h : ∀ a ∈ l, test a = false) (i : Nat) :
    findIdx test l i = none := by
  induction l generalizing i with
  | nil => rfl
  | cons a l ih =>
    rw [findIdx, h a List.mem_cons_self]
    exact ih (fun b hb => h b (List.mem_cons_of_mem a hb)) (i + 1)

section read

variable {ids : List Nat} (hreq : s.req p r = some y) (hst : y.st = .admitting) (hlen : ids.length = y.promptLen)
  (hprogram : programReleased (s.part p) = true) (hswap : swapping (s.part p) = false)
include hreq hst hlen hprogram hswap

theorem State.promptIds_outside {i t : Nat}
    (hout : findIdx (fun i => decide ((s.part p).manifest.vocab ≤ i)) ids 0 = some (i, t)) :
    s.promptIds p r ids = s.refuseReq p r 0x0105 (min i 0xFFFF) := by
  have htake : ids.take y.promptLen = ids := by rw [← hlen, List.take_length]
  simp [State.promptIds, hreq, hst, hlen, hprogram, hswap, htake, hout]

theorem State.promptIds_inside (hin : ∀ i ∈ ids, i < (s.part p).manifest.vocab) :
    s.promptIds p r ids = ((s.modReq p r (fun x => { x with ids := ids })).showIds p r 0 ids).admitMatch p r := by
  have htake : ids.take y.promptLen = ids := by rw [← hlen, List.take_length]
  have hnone : findIdx (fun i => decide ((s.part p).manifest.vocab ≤ i)) ids 0 = none :=
    findIdx_none (fun i hi => decide_eq_false (Nat.not_le.2 (hin i hi))) 0
  simp [State.promptIds, hreq, hst, hlen, hprogram, hswap, htake, hnone]

end read

variable (hp : p < 32)
include hp

theorem exec_promptReadComplete (ids : List Nat) : exec (.promptReadComplete p r ids 0) s = .next (s.promptIds p r ids) :=
  guardRes_next (by simp [Instr.wf, partOk, readCodeOk, hp]) rfl

theorem exec_promptReadComplete_failed {c : Nat} (hc : c ≠ 0) (hok : readCodeOk c = true) (ids : List Nat) :
    exec (.promptReadComplete p r ids c) s = .next (s.promptFails p r c) :=
  guardRes_next (by simp [Instr.wf, partOk, hok, hp]) (if_neg hc)

theorem answers_promptReadComplete_failed {c : Nat} (hc : c ≠ 0) (hok : readCodeOk c = true) (ids : List Nat)
    (hreq : s.req p r = some y) (hst : y.st = .admitting) :
    Answers (.promptReadComplete p r ids c) s (fun u => u.req p r = none) :=
  ⟨_, exec_promptReadComplete_failed hp hc hok ids,
    (congrArg (·.req p r) (State.promptFails_admitting hreq hst c)).trans (State.refuseReq_req hreq c 0)⟩

end prompt

/-! ### Cancels (R238, R253) -/

section cancel

variable {v : State} {p : Nat} {d : List Byte}

theorem State.cancelDesc_waits (hopc : fieldN d 0 1 = 0x41) (hflags : clearBits (fieldN d 1 1) 4 = 0)
    (hlow : zeroRange d 2 6 = true) (hhigh : zeroRange d 24 104 = true) :
    v.cancelDesc p d = v.modPart p (fun P => { P with cancels := P.cancels ++ [(v.clkTime, d)] }) :=
  (if_neg (not_not.2 hopc)).trans (if_neg (by simp [hflags, hlow, hhigh]))

theorem State.cancelDesc_refuses (hopc : fieldN d 0 1 ≠ 0x41) :
    v.cancelDesc p d = v.answer p (fieldN d 8 8) 0x0001 0 v.clkTime := if_pos hopc

theorem exec_cancel {s : State} (hp : p < 32) (hd : d.length = 128) :
    exec (.cancel p d) s = .next ((s.takeDesc p d).cancelDesc p d) :=
  guardRes_next (by simp [Instr.wf, partOk, bytesOk, hp, hd]) rfl

end cancel

/-! ### The five actions of a step boundary (R244) -/

/-- The step that ends is measured, and the margin of the next one taken (R243, R257). -/
def State.stepMeasured (s : State) (p : Nat) : State :=
  (s.measureStep p).modPart p (fun P => { P with margin := some (s.odEff 0x5000 7 p) })

/-- Sampled tokens are taken, and the requests that are due to end are ENDING (R244 steps 1 and 2). -/
def State.tokensTaken (s : State) (p : Nat) (tokens : List Sampled) : State :=
  (((s.forEach tokens (fun k s => s.takeSampled p k)).endErrors p).endDeadlines p).endAtBoundary p

/-- Cancels that waited are applied. -/
def State.cancelsApplied (s : State) (p : Nat) : State :=
  (s.modPart p (fun P => { P with cancels := [] })).forEach (s.part p).cancels (fun d s => s.applyCancel p d)

/-- The descriptors of the ring are read (R244 step 3). -/
def State.ringRead (s : State) (p : Nat) : State := s.readRing p (s.odEff 0x5000 3 p) (s.vf p).descs.length

/-- Requests are promoted (R244 step 4). -/
def State.requestsPromoted (s : State) (p : Nat) : State := s.promote p (s.part p).reqs.length

/-- The next step has begun, with no token context yet. -/
def State.stepBegun (s : State) (p : Nat) : State :=
  s.modPart p (fun P => { P with step := (P.step + 1) % 2 ^ 32, contexts := [] })

/-- The time at which a step that holds tokens or passes begins is noted. -/
def State.stepTimed (s : State) (p now : Nat) : State :=
  if (s.nextStep p).isEmpty then s else s.modPart p (fun P => { P with stepAt := some now })

/-- What the step holds is released (R244 step 5, R245). -/
def State.stepReleased (s : State) (p now : Nat) : State :=
  ((s.stepTimed p now).forEach (s.nextStep p) (fun r s => s.releaseOne p r)).countServing p

/-- The step that has ended, with its tokens taken and its descriptors read. -/
def State.stepEnded (s : State) (p : Nat) (tokens : List Sampled) : State :=
  ((((s.stepMeasured p).tokensTaken p tokens).cancelsApplied p).ringRead p).requestsPromoted p

theorem noEffect_stepBoundary {s : State} {p : Nat} (hp : p < 32) (hstopped : s.leadRuns p = false) (tokens : List Sampled) :
    NoEffect (.stepBoundary p tokens) s :=
  guardRes_next (decide_eq_true hp) (if_pos (by simp [hstopped]))

theorem exec_stepBoundary {s : State} {p : Nat} (hp : p < 32) (hprogram : programReleased (s.part p) = true)
    (hruns : s.leadRuns p = true) (tokens : List Sampled) :
    exec (.stepBoundary p tokens) s = .next (((s.stepEnded p tokens).stepBegun p).stepReleased p s.clkTime) :=
  guardRes_next (decide_eq_true hp) ((if_neg (by simp [hprogram, hruns])).trans rfl)

/-! ### The step number advances by one (R243) -/

section stepNo

variable (s : State) (p : Nat)

@[simp] theorem State.stepNo_stepMeasured : (s.stepMeasured p).stepNo p = s.stepNo p := by
  simp [State.stepMeasured]

@[simp] theorem State.stepNo_tokensTaken (tokens : List Sampled) : (s.tokensTaken p tokens).stepNo p = s.stepNo p := by
  rw [State.tokensTaken, State.stepNo_endAtBoundary, State.stepNo_endDeadlines, State.stepNo_endErrors]
  exact s.stepNo_forEach p (fun k s => s.stepNo_takeSampled p p k) tokens

@[simp] theorem State.stepNo_cancelsApplied : (s.cancelsApplied p).stepNo p = s.stepNo p :=
  (State.stepNo_forEach _ p (fun c s => s.stepNo_applyCancel p p c) _).trans (s.stepNo_modPart p p fun _ => rfl)

@[simp] theorem State.stepNo_stepEnded (tokens : List Sampled) : (s.stepEnded p tokens).stepNo p = s.stepNo p := by
  simp [State.stepEnded, State.requestsPromoted, State.ringRead]

theorem State.stepNo_stepBegun : (s.stepBegun p).stepNo p = (s.stepNo p + 1) % 2 ^ 32 := by
  rw [State.stepBegun, State.stepNo, State.part_modPart_same, State.stepNo]

@[simp] theorem State.stepNo_stepTimed (now : Nat) : (s.stepTimed p now).stepNo p = s.stepNo p :=
  State.stepNo_ite p rfl (s.stepNo_modPart p p fun _ => rfl)

@[simp] theorem State.stepNo_stepReleased (now : Nat) : (s.stepReleased p now).stepNo p = s.stepNo p := by
  rw [State.stepReleased, State.stepNo_countServing]
  exact (State.stepNo_forEach _ p (fun r s => s.stepNo_releaseOne p p r) _).trans (s.stepNo_stepTimed p now)

end stepNo

theorem answers_stepBoundary_step {s : State} {p : Nat} (hp : p < 32) (hprogram : programReleased (s.part p) = true)
    (hruns : s.leadRuns p = true) (tokens : List Sampled) :
    Answers (.stepBoundary p tokens) s (fun u => (u.part p).step = ((s.part p).step + 1) % 2 ^ 32) := by
  refine ⟨_, exec_stepBoundary hp hprogram hruns tokens, ?_⟩
  calc (((s.stepEnded p tokens).stepBegun p).stepReleased p s.clkTime).stepNo p
      = ((s.stepEnded p tokens).stepBegun p).stepNo p := State.stepNo_stepReleased _ p _
    _ = ((s.stepEnded p tokens).stepNo p + 1) % 2 ^ 32 := State.stepNo_stepBegun _ p
    _ = (s.stepNo p + 1) % 2 ^ 32 := by rw [State.stepNo_stepEnded]

/-! ### A lone request at a boundary (R243–R245) -/

section lone

variable {s : State} {p r : Nat} {y : Request}

/-- The one request of a partition under a change of it. -/
theorem State.modReq_lone (hreqs : (s.part p).reqs = [(r, y)]) (f : Request → Request) :
    s.modReq p r f = s.modPart p (fun P => { P with reqs := [(r, f y)] }) := by
  have hfind : mfind (s.part p).reqs r = some y := by rw [hreqs, mfind, if_pos rfl]
  have hput : mput (s.part p).reqs r (f y) = [(r, f y)] := by rw [hreqs, mput, mdel, if_pos rfl]; rfl
  unfold State.modReq
  rw [hfind]
  exact State.modPart_congr (by rw [hput])

theorem State.req_lone (hreqs : (s.part p).reqs = [(r, y)]) : s.req p r = some y := by
  rw [State.req, hreqs, mfind, if_pos rfl]

/-- Nothing is due to end: no error, no deadline, no end of the whole partition. -/
theorem State.tokensTaken_lone (hreqs : (s.part p).reqs = [(r, y)]) (hdue : y.endDue = none) (hdl : y.endDl = 0)
    (hcode : (s.part p).endCode = 0) : s.tokensTaken p [] = s := by
  have hreq := State.req_lone hreqs
  have herrors : s.endErrors p = s := by
    simp [State.endErrors, State.forEach, hreqs, hreq, hdue]
  have hdeadlines : s.endDeadlines p = s := by
    simp [State.endDeadlines, State.forEach, hreqs, hreq, passed, hdl]
  rw [State.tokensTaken, State.forEach, herrors, hdeadlines]
  exact if_pos hcode

theorem State.cancelsApplied_none (h : (s.part p).cancels = []) :
    s.cancelsApplied p = s.modPart p (fun P => { P with cancels := [] }) := by
  rw [State.cancelsApplied, h, State.forEach]

theorem State.ringRead_empty (h : (s.vf p).descs = []) : s.ringRead p = s := by
  rw [State.ringRead, h]
  rfl

/-- The one request, WAITING, is promoted within the limit (R244 step 4). -/
theorem State.requestsPromoted_lone (hreqs : (s.part p).reqs = [(r, y)]) (hst : y.st = .waiting)
    (hlimit : 1 ≤ s.odP 0x5000 4 p) :
    s.requestsPromoted p = s.modPart p (fun P => { P with reqs := [(r, { y with st := .prefill })] }) := by
  have hactive : activeReqs (s.part p) = [] := by simp [activeReqs, hreqs, isActive, hst]
  have hfirst : firstAdmitted (s.part p) (fun x => x.st == .waiting) = some r := by simp [firstAdmitted, hreqs, hst]
  have hroom : ¬s.odP 0x5000 4 p ≤ (activeReqs (s.part p)).length := by rw [hactive]; exact Nat.not_le.2 hlimit
  rw [State.requestsPromoted, hreqs, List.length_singleton, State.promote, if_neg hroom, hfirst]
  exact State.modReq_lone hreqs _

/-- The next step holds the one request in PREFILL (R243). -/
theorem State.nextStep_lone (hreqs : (s.part p).reqs = [(r, y)]) (hst : y.st = .prefill) (hout : y.out = 0) :
    s.nextStep p = [r] := by
  simp [State.nextStep, hreqs, hst, hout, firstAdmitted]

/-- Positions of a prompt that no pass has run over. -/
def passLeft (y : Request) : Nat := y.promptLen - y.preDone

/-- The bucket of the next prefill pass of a request (R241). -/
def passBucketOf (y : Request) : Nat := if passLeft y ≤ 131072 then bucketOf (passLeft y) else 5

/-- The token context of the next prefill pass of a request (Table 9.3). -/
def State.passContext (s : State) (p r : Nat) (y : Request) : List Byte :=
  contextWord r (s.odEff 0x3101 1 p == 1) true y.preDone (min (passLeft y) (bucketSize (passBucketOf y))) y.maskLo
    (s.part p).step

/-- The first pass of the one request enters with its token context (R245). -/
theorem State.releaseOne_lone (hreqs : (s.part p).reqs = [(r, y)]) (hst : y.st = .prefill) :
    s.releaseOne p r =
      (s.modPart p (fun P => { P with contexts := P.contexts ++ [s.passContext p r y] })).modPart p (fun P =>
        { P with reqs := [(r, { y with out := 1, passAt := s.clkTime, passBucket := passBucketOf y })] }) := by
  have hpre : (y.st == .prefill) = true := beq_iff_eq.2 hst
  unfold State.releaseOne
  rw [State.req_lone hreqs]
  simp only [hpre, if_true]
  refine State.modReq_lone ?_ _
  rw [State.part_modPart_same]
  exact hreqs

/-- The lone request in PREFILL takes the whole of the step that has begun. -/
theorem State.stepReleased_lone (hreqs : (s.part p).reqs = [(r, y)]) (hst : y.st = .prefill) (hout : y.out = 0)
    (now : Nat) :
    (s.stepReleased p now).req p r = some { y with out := 1, passAt := s.clkTime, passBucket := passBucketOf y } ∧
      ((s.stepReleased p now).part p).contexts = (s.part p).contexts ++ [s.passContext p r y] := by
  have hnext := State.nextStep_lone hreqs hst hout
  have htimed : s.stepTimed p now = s.modPart p (fun P => { P with stepAt := some now }) := by
    rw [State.stepTimed, hnext]
    exact if_neg Bool.false_ne_true
  have hreqs' : ((s.stepTimed p now).part p).reqs = [(r, y)] := by
    rw [htimed, State.part_modPart_same]
    exact hreqs
  have hpart : (s.stepReleased p now).part p = ((s.stepTimed p now).releaseOne p r).part p := by
    rw [State.stepReleased, hnext]
    exact State.part_of_parts (State.countServing_parts _ _) p
  have hcontext : (s.stepTimed p now).passContext p r y = s.passContext p r y := by
    rw [State.passContext, htimed, State.part_modPart_same]
    rfl
  rw [State.req, hpart, State.releaseOne_lone hreqs' hst, State.part_modPart_same, State.part_modPart_same, hcontext,
    htimed, State.part_modPart_same]
  exact ⟨if_pos rfl, rfl⟩

end lone

/-! ### What measuring the step leaves -/

section measured

variable (s : State) (p : Nat)

theorem State.stepMeasured_part : ∃ at' periods margin,
    (s.stepMeasured p).part p = { s.part p with stepAt := at', periods := periods, margin := margin } := by
  unfold State.stepMeasured State.measureStep
  split
  · exact ⟨_, _, _, s.part_modPart_same p _⟩
  · dsimp only
    rw [State.part_modPart_same, State.part_of_parts (State.odSetP_parts _ _ _ _ _), State.part_modPart_same]
    exact ⟨_, _, _, rfl⟩

@[simp] theorem State.stepMeasured_clkTime : (s.stepMeasured p).clkTime = s.clkTime := by
  rw [State.stepMeasured, State.modPart_clkTime, State.measureStep]
  split <;> rfl

@[simp] theorem State.stepMeasured_hub : (s.stepMeasured p).hub = s.hub := by
  rw [State.stepMeasured, State.modPart_hub, State.measureStep]
  split <;> rfl

@[simp] theorem State.stepMeasured_fns : (s.stepMeasured p).fns = s.fns := by
  rw [State.stepMeasured, State.modPart_fns, State.measureStep]
  split <;> rfl

theorem State.stepMeasured_vf : (s.stepMeasured p).vf p = s.vf p := by
  obtain ⟨_, _, _, hpart⟩ := s.stepMeasured_part p
  rw [State.vf, State.fn, State.stepMeasured_fns, State.boundPort, hpart]
  rfl

/-- Of the dictionary only the mean period, OD 0x5000.08, is written. -/
theorem State.stepMeasured_odP {i b q : Nat} (hne : odKey i b q ≠ odKey 0x5000 8 p) :
    (s.stepMeasured p).odP i b q = s.odP i b q := by
  have hod : (s.stepMeasured p).odP i b q = (s.measureStep p).odP i b q := rfl
  rw [hod, State.measureStep]
  split
  · rfl
  · exact State.odP_odSetP_other _ _ _ _ _ _ _ _ hne

theorem State.stepMeasured_odEff {i b : Nat} (hi : i ≠ 0x5000) (hb : b < 256) (hp : p < 255) :
    (s.stepMeasured p).odEff i b p = s.odEff i b p := by
  have hoverlay : (s.stepMeasured p).overlay p = s.overlay p :=
    s.stepMeasured_odP p (odKey_ne_of_index (by omega) (by decide) (by decide) (by omega) (by decide))
  have hvalue : (s.stepMeasured p).odP i b p = s.odP i b p :=
    s.stepMeasured_odP p (odKey_ne_of_index hb (by omega) (by decide) (by omega) hi)
  rw [State.odEff, hoverlay, hvalue, State.stepMeasured_hub, State.odEff]

end measured

/-- A partition whose one request waits, with nothing due to end and nothing to read. -/
structure WaitsAlone (s : State) (p r : Nat) (y : Request) : Prop where
  reqs : (s.part p).reqs = [(r, y)]
  waiting : y.st = .waiting
  noDeadline : y.endDl = 0
  noToken : y.out = 0
  noError : y.endDue = none
  noEnd : (s.part p).endCode = 0
  noCancels : (s.part p).cancels = []
  noDescs : (s.vf p).descs = []
  room : 1 ≤ s.odP 0x5000 4 p

/-- The request as it is promoted. -/
def promoted (y : Request) : Request := { y with st := .prefill }

/-- At the boundary the request is promoted; of what the release reads nothing else has changed. -/
theorem WaitsAlone.stepEnded {s : State} {p r : Nat} {y : Request} (h : WaitsAlone s p r y) (hp : p < 32) :
    ∃ w : State, s.stepEnded p [] = w.modPart p (fun P => { P with reqs := [(r, promoted y)] }) ∧
      (w.part p).step = (s.part p).step ∧ w.clkTime = s.clkTime ∧ w.odEff 0x3101 1 p = s.odEff 0x3101 1 p := by
  obtain ⟨_, _, _, hpart⟩ := s.stepMeasured_part p
  have htokens : (s.stepMeasured p).tokensTaken p [] = s.stepMeasured p :=
    State.tokensTaken_lone (by rw [hpart]; exact h.reqs) h.noError h.noDeadline (by rw [hpart]; exact h.noEnd)
  have hcancels : (s.stepMeasured p).cancelsApplied p =
      (s.stepMeasured p).modPart p (fun P => { P with cancels := [] }) :=
    State.cancelsApplied_none (by rw [hpart]; exact h.noCancels)
  have hring : ((s.stepMeasured p).cancelsApplied p).ringRead p = (s.stepMeasured p).cancelsApplied p := by
    refine State.ringRead_empty ?_
    rw [hcancels, State.vf, State.boundPort, State.part_modPart_same]
    exact (congrArg Function.descs (s.stepMeasured_vf p)).trans h.noDescs
  have hreqs : (((s.stepMeasured p).cancelsApplied p).part p).reqs = [(r, y)] := by
    rw [hcancels, State.part_modPart_same, hpart]
    exact h.reqs
  have hlimit : ((s.stepMeasured p).cancelsApplied p).odP 0x5000 4 p = s.odP 0x5000 4 p := by
    rw [hcancels]
    exact s.stepMeasured_odP p (by simp [odKey])
  refine ⟨(s.stepMeasured p).cancelsApplied p, ?_, ?_, ?_, ?_⟩
  · rw [State.stepEnded, htokens, hring]
    exact State.requestsPromoted_lone hreqs h.waiting (hlimit ▸ h.room)
  · rw [hcancels, State.part_modPart_same, hpart]
  · rw [hcancels]
    exact s.stepMeasured_clkTime p
  · rw [hcancels]
    exact s.stepMeasured_odEff p (by decide) (by decide) (by omega)

/-- A lone WAITING request becomes PREFILL, and its first pass enters with its token context (R244, R245). -/
theorem WaitsAlone.answers_stepBoundary {s : State} {p r : Nat} {y : Request} (h : WaitsAlone s p r y) (hp : p < 32)
    (hprogram : programReleased (s.part p) = true) (hruns : s.leadRuns p = true) :
    Answers (.stepBoundary p []) s (fun u =>
      u.req p r = some { y with st := .prefill, out := 1, passAt := s.clkTime, passBucket := passBucketOf y } ∧
      (u.part p).contexts = [contextWord r (s.odEff 0x3101 1 p == 1) true y.preDone
        (min (passLeft y) (bucketSize (passBucketOf y))) y.maskLo (((s.part p).step + 1) % 2 ^ 32)]) := by
  obtain ⟨w, hended, hstep, hclk, heff⟩ := h.stepEnded hp
  have hbegun : ((s.stepEnded p []).stepBegun p).part p =
      { w.part p with reqs := [(r, promoted y)], step := ((w.part p).step + 1) % 2 ^ 32, contexts := [] } := by
    rw [State.stepBegun, State.part_modPart_same, hended, State.part_modPart_same]
  have hclk' : ((s.stepEnded p []).stepBegun p).clkTime = s.clkTime := by rw [hended]; exact hclk
  have heff' : ((s.stepEnded p []).stepBegun p).odEff 0x3101 1 p = s.odEff 0x3101 1 p := by rw [hended]; exact heff
  obtain ⟨hreq, hcontexts⟩ := State.stepReleased_lone (s := (s.stepEnded p []).stepBegun p) (r := r) (y := promoted y)
    (by rw [hbegun]) rfl h.noToken s.clkTime
  refine ⟨_, exec_stepBoundary hp hprogram hruns [], ?_, ?_⟩
  · rw [hreq, hclk']
    rfl
  · rw [hcontexts, State.passContext, heff', hbegun, hstep]
    rfl

/-- Settles O31, by the command. That a submission takes the lowest free REQ is log 69, and that a boundary of a stopped lead
core has no effect is log 73. -/
theorem requestServing : Obligations.RequestServing := by
  unfold Obligations.RequestServing
  intro s p d hp hd v x
  have hx : requestOf d v.clkTime = x := congrArg (requestOf d) (s.takeDesc_clkTime p d)
  have hclk : v.clkTime = s.clkTime := s.takeDesc_clkTime p d
  refine ⟨?takes, ?refuses, ?counts, ?fails, ?outside, ?inside, ?cancelWaits, ?cancelRefuses,
    fun tokens hstopped => noEffect_stepBoundary hp hstopped tokens,
    fun tokens hprogram hruns => answers_stepBoundary_step hp hprogram hruns tokens, ?lone⟩
  case takes =>
    intro r hcode hfree
    rw [exec_submit hp hd, State.submitDesc_takes (by rw [hx]; exact hcode) hfree, hx]
  case refuses =>
    intro hcode hother
    rw [exec_submit hp hd, State.submitDesc_refuses (by rw [hx]; exact hcode) (by rw [hx]; exact hother), hx, hclk]
  case counts =>
    intro hcode
    rw [exec_submit hp hd, State.submitDesc_counts (by rw [hx]; exact hcode), hx, hclk]
  case fails =>
    intro r c ids y hc hok hreq hst
    exact answers_promptReadComplete_failed hp hc hok ids hreq hst
  case outside =>
    intro r y ids i t hreq hst hlen hprogram hswap hout
    rw [exec_promptReadComplete hp, State.promptIds_outside hreq hst hlen hprogram hswap hout]
  case inside =>
    intro r y ids hreq hst hlen hprogram hswap hin
    rw [exec_promptReadComplete hp, State.promptIds_inside hreq hst hlen hprogram hswap hin]
  case cancelWaits =>
    intro hopc hflags hlow hhigh
    rw [exec_cancel hp hd, State.cancelDesc_waits hopc hflags hlow hhigh, hclk]
  case cancelRefuses =>
    intro hopc
    rw [exec_cancel hp hd, State.cancelDesc_refuses hopc, hclk]
  case lone =>
    intro r y hprogram hruns hreqs hst hdl hout hdue hcode hcancels hdescs hroom left b
    exact WaitsAlone.answers_stepBoundary ⟨hreqs, hst, hdl, hout, hdue, hcode, hcancels, hdescs, hroom⟩ hp hprogram hruns

end Sys2Proof.Machine
end

section
/-!
SUPPORT. Model commands of a partition (R265–R267, R269, R273): the checks that each of them meets, what a stage, an
install, a discard and an abort come to, and the obligation O32.
-/

namespace Sys2Proof.Machine

/-! ### The checks of a model command (R266) -/

section checks

variable {s : State} {c : Caller} {p opc : Nat} {cmd : List Byte}

theorem State.modelCommand_length (hlen : cmd.length ≠ 64) : State.modelCommand c p cmd s = (s, 0x0701) := if_pos hlen

theorem State.modelCommand_reserved (hlen : cmd.length = 64) (hopc : fieldN cmd 0 1 = 0x50)
    (hreserved : modelReserved cmd = true) : State.modelCommand c p cmd s = (s, 0x0002) := by
  simp [State.modelCommand, hlen, hopc, hreserved]

theorem State.modelCommand_notFormed (hlen : cmd.length = 64) (hopc : fieldN cmd 0 1 = 0x50)
    (hreserved : modelReserved cmd = false) (hstate : s.partState p ≠ 1) :
    State.modelCommand c p cmd s = (s, 0x000B) := by
  simp [State.modelCommand, hlen, hopc, hreserved, hstate]

theorem cmdRuns_eq_false {P : Partition} : cmdRuns P = false ↔ P.cmd = .none := by simp [cmdRuns]

theorem State.abortStage_idle (hidle : (s.part p).cmd = .none) : s.abortStage p = (s, 0x0009) := by
  rw [State.abortStage, hidle]

theorem State.abortStage_stage {g src source len got : Nat} {next : Option Nat} {bad : Bool}
    (hstage : (s.part p).cmd = .stage g src source len got next bad) : s.abortStage p = (s.endStage p 0x020D, 0) := by
  rw [State.abortStage, hstage]

theorem State.abortStage_install {g ox oy step since : Nat} {endHeld evac : Bool}
    (hinstall : (s.part p).cmd = .install g ox oy endHeld evac step since) : s.abortStage p = (s, 0x0005) := by
  rw [State.abortStage, hinstall]

/-- A command of R266's form in a formed partition is an abort, meets another that runs, or is its own. -/
theorem ModelCommand.run_eq (h : ModelCommand s c p cmd opc) (hlow : 0x50 ≤ opc) (hhigh : opc ≤ 0x53) :
    State.modelCommand c p cmd s.counted =
      if opc = 0x53 then s.counted.abortStage p
      else if cmdRuns (s.part p) then (s.counted, 0x0005)
      else if opc = 0x50 then s.counted.startStage p cmd
      else if opc = 0x51 then
        s.counted.startInstall p (fieldN cmd 2 1 % 16) (fieldN cmd 4 2) (fieldN cmd 6 2) (bit (fieldN cmd 1 1) 3) false cmd
      else s.counted.discardHandle p (fieldN cmd 2 1 % 16) := by
  obtain ⟨-, hlen, rfl, hreserved, hopen, hstate, hstandby⟩ := h
  have hpart : s.counted.part p = s.part p := rfl
  have hrange : ¬(fieldN cmd 0 1 < 0x50 ∨ 0x53 < fieldN cmd 0 1) := by omega
  by_cases habort : fieldN cmd 0 1 = 0x53 ∧ cmdRuns (s.part p) = false
  · rw [if_pos habort.1, State.abortStage_idle (s := s.counted) (cmdRuns_eq_false.1 habort.2)]
    simp [State.modelCommand, hlen, hreserved, hpart, habort]
  · simp only [State.modelCommand, hpart, if_neg hrange, if_neg habort, hlen, hreserved, hopen, hstate, hstandby]
    simp

theorem ModelCommand.run_abort (h : ModelCommand s c p cmd 0x53) :
    State.modelCommand c p cmd s.counted = s.counted.abortStage p :=
  (h.run_eq (by decide) (by decide)).trans (if_pos rfl)

theorem ModelCommand.run_busy (h : ModelCommand s c p cmd opc) (hlow : 0x50 ≤ opc) (hhigh : opc < 0x53)
    (hruns : (s.part p).cmd ≠ .none) : State.modelCommand c p cmd s.counted = (s.counted, 0x0005) := by
  have hbusy : cmdRuns (s.part p) = true := by simpa [cmdRuns] using hruns
  rw [h.run_eq hlow hhigh.le, if_neg hhigh.ne, if_pos hbusy]

theorem ModelCommand.run_stage (h : ModelCommand s c p cmd 0x50) (hidle : (s.part p).cmd = .none) :
    State.modelCommand c p cmd s.counted = s.counted.startStage p cmd := by
  rw [h.run_eq (by decide) (by decide), cmdRuns_eq_false.2 hidle]
  simp

theorem ModelCommand.run_install (h : ModelCommand s c p cmd 0x51) (hidle : (s.part p).cmd = .none) :
    State.modelCommand c p cmd s.counted =
      s.counted.startInstall p (fieldN cmd 2 1 % 16) (fieldN cmd 4 2) (fieldN cmd 6 2) (bit (fieldN cmd 1 1) 3) false
        cmd := by
  rw [h.run_eq (by decide) (by decide), cmdRuns_eq_false.2 hidle]
  simp

theorem ModelCommand.run_discard (h : ModelCommand s c p cmd 0x52) (hidle : (s.part p).cmd = .none) :
    State.modelCommand c p cmd s.counted = s.counted.discardHandle p (fieldN cmd 2 1 % 16) := by
  rw [h.run_eq (by decide) (by decide), cmdRuns_eq_false.2 hidle]
  simp

/-- Each of the four forms writes its bytes to OD 0x5200.01 and is answered with the code they come to. -/
theorem exec_modelCommand {i : Instr} {u : State} {code : Nat} (hp : p < 32) (hadmitted : Admitted s c 0x5200 1 p)
    (hexec : exec i s = guardRes (callerOk c && partOk p) (s.command c 0x5200 1 p (State.modelCommand c p cmd)))
    (hrun : State.modelCommand c p cmd s.counted = (u, code)) : exec i s = .next (u.reply c code) := by
  have hwf : (callerOk c && partOk p) = true := by simp [hadmitted.1, partOk, hp]
  rw [hexec, hadmitted.command_eq, hrun]
  exact guardRes_next hwf rfl

end checks

/-! ### Values and handles of a partition -/

section values

variable (s : State) {p : Nat}

@[simp] theorem State.odSetP_part (i b k v q : Nat) : (s.odSetP i b k v).part q = s.part q := rfl

@[simp] theorem State.dropRx_part (k q : Nat) : (s.dropRx k).part q = s.part q := rfl

@[simp] theorem State.dropRx_out (k : Nat) : (s.dropRx k).out = s.out := rfl

@[simp] theorem State.dropRx_tiles (k : Nat) : (s.dropRx k).tiles = s.tiles := rfl

@[simp] theorem State.dropRx_stk (k : Nat) : (s.dropRx k).stk = s.stk := rfl

@[simp] theorem State.emit_part (e : Emission) (q : Nat) : (s.emit e).part q = s.part q := rfl

@[simp] theorem State.reply_part (c : Caller) (code q : Nat) : (s.reply c code).part q = s.part q := rfl

@[simp] theorem State.emit_odP (e : Emission) (i b k : Nat) : (s.emit e).odP i b k = s.odP i b k := rfl

@[simp] theorem State.reply_odP (c : Caller) (code i b k : Nat) : (s.reply c code).odP i b k = s.odP i b k := rfl

theorem State.reply_getLast (c : Caller) (code : Nat) : (s.reply c code).out.getLast? = some (.status c code) :=
  List.getLast?_concat

/-- Another entry of the same index reads as before. -/
theorem State.odP_odSetP_sub (i v : Nat) {b sub : Nat} (h : sub ≠ b) :
    (s.odSetP i b p v).odP i sub p = s.odP i sub p :=
  State.odP_odSetP_other _ _ _ _ _ _ _ _ (fun e => h (by unfold odKey at e; omega))

theorem handleOf_part_modHandle_same (h : Nat) (f : Handle → Handle) :
    handleOf ((s.modHandle p h f).part p) h = f (handleOf (s.part p) h) := by
  rw [State.modHandle, State.part_modPart_same]
  exact mget_mset_same _ _ _ _

/-- Showing locks and queue changes only the entries of OD 0x7101. -/
theorem State.showActs_odP {idx sub : Nat} (hidx : idx ≠ 0x7101) (hsub : sub < 256) (hp : p < 256) :
    s.showActs.odP idx sub p = s.odP idx sub p :=
  (State.odP_odSetP_other _ _ _ _ _ _ _ _ (odKey_ne_of_index hsub hp (by decide) (by decide) hidx)).trans
    (State.odP_odSetP_other _ _ _ _ _ _ _ _ (odKey_ne_of_index hsub hp (by decide) (by decide) hidx))

end values

/-! ### A stage begins (R265, R267) -/

/-- A stage of host memory has taken a handle and a range and runs at phase 1 with no byte counted. -/
def State.stageBegun (s : State) (p h a source len : Nat) : State :=
  (((((s.modHandle p h (fun _ => { st := 1, addr := a, len := len })).modPart p (fun P =>
    { P with cmd := .stage h 0 source len 0 none false })).dropRx p).odSetP 0x5200 2 p 1).odSetP 0x5200 4 p 0)

theorem State.stageBegun_part (s : State) (p h a source len : Nat) :
    (s.stageBegun p h a source len).part p =
      { (s.modHandle p h (fun _ => { st := 1, addr := a, len := len })).part p with
        cmd := .stage h 0 source len 0 none false } := by
  rw [State.stageBegun, State.odSetP_part, State.odSetP_part, State.dropRx_part, State.part_modPart_same]

theorem State.stageBegun_other (s : State) (h a source len : Nat) {p q : Nat} (hq : q ≠ p) :
    (s.stageBegun p h a source len).part q = s.part q := by
  rw [State.stageBegun, State.odSetP_part, State.odSetP_part, State.dropRx_part, State.modHandle, State.part_modPart,
    if_neg hq, State.part_modPart, if_neg hq]

theorem State.stageBegun_phase (s : State) (p h a source len : Nat) : (s.stageBegun p h a source len).odP 0x5200 2 p = 1 :=
  (State.odP_odSetP_sub _ _ _ (by decide)).trans (State.odP_odSetP_same _ _ _ _ _)

theorem State.stageBegun_count (s : State) (p h a source len : Nat) : (s.stageBegun p h a source len).odP 0x5200 4 p = 0 :=
  State.odP_odSetP_same _ _ _ _ _

/-- Beginning a stage drives nothing outward and leaves tiles and stacks. -/
theorem State.stageBegun_kept (s : State) (p h a source len : Nat) :
    (s.stageBegun p h a source len).out = s.out ∧ (s.stageBegun p h a source len).tiles = s.tiles ∧
      (s.stageBegun p h a source len).stk = s.stk := by
  simp [State.stageBegun, State.modHandle]

theorem State.stageBegun_boundPort (s : State) (p h a source len : Nat) :
    (s.stageBegun p h a source len).boundPort p = s.boundPort p := by
  have hport : ((s.stageBegun p h a source len).part p).port = (s.part p).port := by
    rw [State.stageBegun_part, State.modHandle, State.part_modPart_same]
  rw [State.boundPort, hport, State.boundPort]

/-- A stage of host memory in order begins and asks the host for the units of its bytes. -/
theorem State.startStage_host {s : State} {p h a source len : Nat} {cmd : List Byte} (hh : fieldN cmd 2 1 % 16 = h)
    (hsource : fieldN cmd 8 8 = source) (hlen : fieldN cmd 16 8 = len) (hheader : 64 ≤ len) (hsrc : fieldN cmd 1 1 % 4 = 0)
    (hbase : (handleOf (s.part p) h).st ≠ 3) (hadd : (handleOf (s.part p) h).st ≠ 4)
    (hdamaged : (handleOf (s.part p) h).st = 5 → s.odP 0x5200 7 p ≠ h) (hsend : s.sending p h = false)
    (hbar : s.hostReadBar p = 0) (hrange : s.storeRange p h len = some a) :
    s.startStage p cmd = ((s.stageBegun p h a source len).emit
      (.hostRead (s.boundPort p) (p + 1) (coverUnits source len).1 (coverUnits source len).2 (.stage p)), 0) := by
  have hfree : ¬((handleOf (s.part p) h).st = 3 ∨ (handleOf (s.part p) h).st = 4 ∨
      ((handleOf (s.part p) h).st = 5 ∧ s.odP 0x5200 7 p = h) ∨ s.sending p h = true) := by
    simpa [hbase, hadd, hsend] using hdamaged
  rw [← s.stageBegun_boundPort p h a source len]
  simp only [State.startStage, hh, hsource, hlen, hsrc, if_neg hfree, if_neg (Nat.not_lt.2 hheader), hbar, hrange]
  rfl

/-! ### A discard (R273) -/

section discard

variable {s : State} {p h : Nat}

theorem State.discardHandle_free (h1 : (handleOf (s.part p) h).st ≠ 1) (h3 : (handleOf (s.part p) h).st ≠ 3)
    (h4 : (handleOf (s.part p) h).st ≠ 4) (hsend : s.sending p h = false) :
    s.discardHandle p h = ((s.modHandle p h (fun _ => {})).odSetP 0x5200 3 p 0, 0) :=
  if_neg (by simp [h1, h3, h4, hsend])

theorem State.discardHandle_used
    (hused : (handleOf (s.part p) h).st = 1 ∨ (handleOf (s.part p) h).st = 3 ∨ (handleOf (s.part p) h).st = 4) :
    s.discardHandle p h = (s, 0x0209) :=
  if_pos (by rcases hused with h1 | h3 | h4 <;> simp [*])

end discard

/-! ### What an install leaves of the wafer's time -/

section clock

variable (s : State)

@[simp] theorem State.meetUnit_clkTime (da : Nat) (f : UnitFind) (whole : Bool) :
    (s.meetUnit da f whole).1.clkTime = s.clkTime := by
  unfold State.meetUnit
  split
  · rfl
  · split
    · rfl
    · split
      · rfl
      · split <;> rfl

@[simp] theorem State.meetUnits_clkTime (p addr len : Nat) (wr : Bool) (found : List UnitFind) (u n : Nat) :
    (s.meetUnits p addr len wr found u n).1.clkTime = s.clkTime := by
  induction n generalizing s found u with
  | zero => rfl
  | succ n ih =>
    rw [State.meetUnits]
    dsimp only
    split
    · rfl
    · split
      · exact s.meetUnit_clkTime _ _ _
      · exact (ih _ _ _).trans (s.meetUnit_clkTime _ _ _)

@[simp] theorem State.stackRead_clkTime (p addr len : Nat) (found : List UnitFind) :
    (s.stackRead p addr len found).1.clkTime = s.clkTime := by
  unfold State.stackRead
  split
  · rfl
  · exact s.meetUnits_clkTime _ _ _ _ _ _ _

@[simp] theorem State.damage_clkTime (p h : Nat) : (s.damage p h).clkTime = s.clkTime := rfl

theorem clkTime_pair {α : Type} {u : State} {a : α} {n : Nat} (hu : u.clkTime = n) : (u, a).1.clkTime = n := hu

/-- Whichever of two answers is given, its state is one of the same time. -/
theorem clkTime_ite {α : Type} {q : Prop} [Decidable q] {x y : State × α} {n : Nat} (hx : x.1.clkTime = n)
    (hy : y.1.clkTime = n) : (if q then x else y).1.clkTime = n := by
  split
  · exact hx
  · exact hy

@[simp] theorem State.meetRange_clkTime (p h off len : Nat) : (s.meetRange p h off len).1.clkTime = s.clkTime := by
  have hread := s.stackRead_clkTime p ((handleOf (s.part p) h).addr + off) len []
  rw [State.meetRange]
  exact clkTime_ite (clkTime_pair ((State.damage_clkTime _ _ _).trans hread)) (clkTime_pair hread)

@[simp] theorem State.meetSections_clkTime (p h : Nat) (l : List Section') :
    (s.meetSections p h l).1.clkTime = s.clkTime := by
  induction l generalizing s with
  | nil => rfl
  | cons x r ih =>
    have hfirst := s.meetRange_clkTime p h x.off x.len
    rw [State.meetSections]
    exact clkTime_ite (clkTime_pair hfirst) ((ih _).trans hfirst)

/-- Every outcome of steps 1 to 3 is a state that reads of the store have left. -/
@[simp] theorem State.installCode_clkTime (p h : Nat) (evac : Bool) : (s.installCode p h evac).1.clkTime = s.clkTime := by
  have hhead := s.meetRange_clkTime p h 0 64
  have hsections := fun l => ((s.meetRange p h 0 64).1.meetSections_clkTime p h l).trans hhead
  rw [State.installCode]
  dsimp only
  refine clkTime_ite (clkTime_pair rfl) (clkTime_ite (clkTime_pair hhead) (clkTime_ite (clkTime_pair hhead)
    (clkTime_ite (clkTime_pair hhead) (clkTime_ite (clkTime_pair (hsections _)) ?_))))
  exact clkTime_ite (clkTime_pair (hsections _)) (clkTime_ite (clkTime_pair (hsections _))
    (clkTime_ite (clkTime_pair (hsections _)) (clkTime_pair (hsections _))))

@[simp] theorem State.programCode_clkTime (p h ox oy : Nat) : (s.programCode p h ox oy).1.clkTime = s.clkTime := by
  have hsections := fun l => s.meetSections_clkTime p h l
  rw [State.programCode]
  refine clkTime_ite (clkTime_pair (hsections _)) (clkTime_pair <| (apply_ite State.clkTime _ _ _).trans ?_)
  rw [State.odAdd_clkTime, ite_self]
  exact hsections _

theorem State.abandonRotation_clkTime (f row : Nat) : (s.abandonRotation f row).clkTime = s.clkTime := by
  unfold State.abandonRotation
  split <;> rfl

theorem State.yieldField_clkTime (f : Nat) : (s.yieldField f).clkTime = s.clkTime :=
  State.forEach_unchanged State.clkTime (fun _ s => s.abandonRotation_clkTime f _) _ _

@[simp] theorem State.startAct_clkTime (k : ActKind) (fields : Nat) : (s.startAct k fields).clkTime = s.clkTime := by
  have hyield := State.forEach_unchanged State.clkTime (fun f s => s.yieldField_clkTime f) (fieldsOf fields) s
  simp only [State.startAct]
  split
  · rfl
  · exact hyield

end clock

/-! ### An install begins, or is queued (R269, R408) -/

theorem State.mem_startAct_acts (s : State) (k : ActKind) (fields : Nat) :
    Activity.mk k fields ∈ (s.startAct k fields).hub.acts :=
  List.mem_append_right _ (List.mem_singleton.2 rfl)

theorem State.countMaint_hub (s : State) (code : Nat) : (s.countMaint code).hub = s.hub := by
  unfold State.countMaint
  split
  · rfl
  · split <;> rfl

section await

variable (s : State) (p h ox oy : Nat) (endHeld evac : Bool)

theorem State.awaitHeld_cmd : ((s.awaitHeld p h ox oy endHeld evac).part p).cmd =
    .install h ox oy endHeld evac 6 s.clkTime := by
  rw [State.awaitHeld, State.odSetP_part, State.odSetP_part, State.part_modPart_same]

theorem State.awaitHeld_phase : (s.awaitHeld p h ox oy endHeld evac).odP 0x5200 2 p = 2 :=
  (State.odP_odSetP_sub _ _ _ (by decide)).trans (State.odP_odSetP_same _ _ _ _ _)

theorem State.awaitHeld_count : (s.awaitHeld p h ox oy endHeld evac).odP 0x5200 4 p = 0 :=
  State.odP_odSetP_same _ _ _ _ _

@[simp] theorem State.awaitHeld_hub : (s.awaitHeld p h ox oy endHeld evac).hub = s.hub := rfl

end await

section install

variable {s : State} {p h ox oy : Nat} {endHeld : Bool} {cmd : List Byte}

theorem State.startInstall_fails (hcode : (s.installCode p h false).2 ≠ 0) :
    s.startInstall p h ox oy endHeld false cmd = ((s.installCode p h false).1, (s.installCode p h false).2) := if_pos hcode

variable {o : Nat × Nat} {fields : Nat} (hcode : (s.installCode p h false).2 = 0)
  (ho : s.installOrigin p h ox oy = o) (hfields : s.installFields p h o.1 o.2 = fields)
include hcode ho hfields

/-- Steps 4 to 6: no other activity holds its fields and its program passes. -/
theorem State.startInstall_begins (hmaint : (s.installCode p h false).1.maintCode fields = 0)
    (hprogram : ((s.installCode p h false).1.programCode p h o.1 o.2).2 = 0) :
    s.startInstall p h ox oy endHeld false cmd =
      ((((s.installCode p h false).1.programCode p h o.1 o.2).1.startAct (.install p) fields).awaitHeld p h o.1 o.2 endHeld
        false, 0) := by
  subst ho hfields
  simp [State.startInstall, hcode, hmaint, hprogram]

/-- Step 4: an install that meets another activity waits in the queue. -/
theorem State.startInstall_queued (hmaint : (s.installCode p h false).1.maintCode fields = 0x0801) :
    s.startInstall p h ox oy endHeld false cmd =
      (((((s.installCode p h false).1.queueAct (.install p) fields cmd).countMaint 0x0801).modPart p (fun P =>
        { P with cmd := .install h o.1 o.2 endHeld false 4 s.clkTime })).odSetP 0x5200 2 p 4, 0x0801) := by
  subst ho hfields
  simp [State.startInstall, hcode, hmaint]

end install

/-! ### A stage that is aborted (R266, R267) -/

section abort

variable (s : State)

@[simp] theorem State.sendPkt_parts (typ : Nat) (q : FalramPkt) : (s.sendPkt typ q).parts = s.parts := by
  unfold State.sendPkt
  dsimp only
  split <;> rfl

@[simp] theorem State.sendSealed_parts (part kslot : Nat) (enc : Bool) (typ : Nat) (q : FalramPkt) :
    (s.sendSealed part kslot enc typ q).parts = s.parts := by
  unfold State.sendSealed
  split <;> exact s.sendPkt_parts _ _

@[simp] theorem State.reportGroup_parts (p : Nat) (joined : Bool) : (s.reportGroup p joined).parts = s.parts := by
  unfold State.reportGroup
  split
  · split <;> rfl
  · rfl

variable {s} {p k g src source len got code : Nat} {next : Option Nat} {bad : Bool}

/-- The end of a sending stream leaves a running stage of its partition, but for whether its forwarding failed (R268). -/
theorem State.endTx_stage (hk : k % 32 = p) (hcmd : (s.part p).cmd = .stage g src source len got next bad) :
    ∃ bad', ((s.endTx k code).part p).cmd = .stage g src source len got next bad' := by
  unfold State.endTx
  split
  · exact ⟨bad, hcmd⟩
  · dsimp only
    rw [hk]
    split
    · rw [hcmd]
      dsimp only
      rw [State.part_modPart_same]
      exact ⟨_, rfl⟩
    · exact ⟨bad, hcmd⟩

theorem State.closeTx_stage (status : Nat) (hk : k % 32 = p)
    (hcmd : (s.part p).cmd = .stage g src source len got next bad) :
    ∃ bad', ((s.closeTx k status code).part p).cmd = .stage g src source len got next bad' := by
  unfold State.closeTx
  split
  · exact ⟨bad, hcmd⟩
  · refine State.endTx_stage (bad := bad) hk ?_
    split
    · exact hcmd
    · rw [State.part_of_parts (State.sendSealed_parts _ _ _ _ _ _)]
      exact hcmd

/-- A stage has failed: its handle is empty, no command runs, and the status stands in OD 0x5200.03. -/
def State.stageFailed (s : State) (p h code : Nat) : State :=
  ((((s.modHandle p h (fun _ => {})).modPart p (fun P => { P with cmd := .none, endCode := 0 })).odSetP 0x5200 2 p 0).odSetP
    0x5200 3 p code)

theorem State.endModelCmd_stage (hcmd : (s.part p).cmd = .stage g src source len got next bad) (hcode : code ≠ 0)
    (hchain : code ≠ 0x0208) : s.endModelCmd p code =
      (((s.stageFailed p g code).unqueue (.install p)).endAct (.install p)).endAct (.evacuation p) := by
  simp only [State.endModelCmd, hcmd, hcode, hchain]
  rfl

@[simp] theorem State.unqueue_part (kind : ActKind) (q : Nat) : (s.unqueue kind).part q = s.part q := rfl

@[simp] theorem State.endAct_part (kind : ActKind) (q : Nat) : (s.endAct kind).part q = s.part q := rfl

/-- Leaving the queue and freeing locks touches no entry of OD 0x5200. -/
theorem State.freed_odP (hp : p < 32) {sub : Nat} (hsub : sub < 256) :
    (((s.unqueue (.install p)).endAct (.install p)).endAct (.evacuation p)).odP 0x5200 sub p = s.odP 0x5200 sub p := by
  have hp' : p < 256 := by omega
  unfold State.endAct State.unqueue
  rw [State.showActs_odP _ (by decide) hsub hp']
  refine (State.showActs_odP _ (by decide) hsub hp').trans ?_
  exact State.showActs_odP _ (by decide) hsub hp'

/-- What an aborted stage leaves (R266): no command, an empty handle, phase 0 and the status. -/
theorem State.endStage_stage (hp : p < 32) (hcmd : (s.part p).cmd = .stage g src source len got next bad)
    (hcode : code ≠ 0) (hchain : code ≠ 0x0208) :
    ((s.endStage p code).part p).cmd = .none ∧ handleOf ((s.endStage p code).part p) g = {} ∧
      (s.endStage p code).odP 0x5200 2 p = 0 ∧ (s.endStage p code).odP 0x5200 3 p = code := by
  obtain ⟨bad', hclosed⟩ := State.closeTx_stage (code := code) 0x0B0A (by omega : (p + 32) % 32 = p) hcmd
  have hstage : ((((s.closeTx (p + 32) 0x0B0A code).dropRx p).reportGroup p false).part p).cmd =
      .stage g src source len got next bad' := by
    rw [State.part_of_parts (State.reportGroup_parts _ _ _)]
    exact hclosed
  rw [State.endStage, State.endModelCmd_stage hstage hcode hchain, State.freed_odP hp (by decide),
    State.freed_odP hp (by decide), State.endAct_part, State.endAct_part, State.unqueue_part]
  generalize ((s.closeTx (p + 32) 0x0B0A code).dropRx p).reportGroup p false = w
  have hpart : (w.stageFailed p g code).part p =
      { (w.modHandle p g (fun _ => {})).part p with cmd := .none, endCode := 0 } := by
    rw [State.stageFailed, State.odSetP_part, State.odSetP_part, State.part_modPart_same]
  rw [hpart]
  refine ⟨rfl, handleOf_part_modHandle_same w g _, ?_, State.odP_odSetP_same _ _ _ _ _⟩
  exact (State.odP_odSetP_sub _ _ _ (by decide)).trans (State.odP_odSetP_same _ _ _ _ _)

end abort

/-! ### The obligation -/

section commands

variable {s : State} {c : Caller} {p : Nat} {cmd : List Byte} (hp : p < 32)
include hp

theorem answers_stage_host {h a source len : Nat} {r : Nat × Nat} (hcmd : ModelCommand s c p cmd 0x50)
    (hidle : (s.part p).cmd = .none) (hstart : s.counted.startStage p cmd =
      ((s.counted.stageBegun p h a source len).emit (.hostRead (s.boundPort p) (p + 1) r.1 r.2 (.stage p)), 0)) :
    Answers (.stage c p cmd) s (fun u =>
      handleOf (u.part p) h = { st := 1, addr := a, len := len } ∧
      (u.part p).cmd = .stage h 0 source len 0 none false ∧ u.odP 0x5200 2 p = 1 ∧ u.odP 0x5200 4 p = 0 ∧
      u.out = s.out ++ [Emission.hostRead (s.boundPort p) (p + 1) r.1 r.2 (.stage p), Emission.status c 0] ∧
      (∀ q, q ≠ p → u.part q = s.part q) ∧ u.tiles = s.tiles ∧ u.stk = s.stk) := by
  refine ⟨_, exec_modelCommand hp hcmd.1 rfl ((hcmd.run_stage hidle).trans hstart), ?_⟩
  obtain ⟨hout, htiles, hstk⟩ := s.counted.stageBegun_kept p h a source len
  simp only [State.reply_part, State.emit_part, State.reply_odP, State.emit_odP, State.reply_out, State.emit_out,
    State.reply_tiles, State.emit_tiles, State.reply_stk, State.emit_stk, hout, htiles, hstk, State.stageBegun_phase,
    State.stageBegun_count, true_and]
  refine ⟨?handle, ?command, ?out, fun q hq => State.stageBegun_other _ _ _ _ _ hq, rfl, rfl⟩
  case handle =>
    rw [State.stageBegun_part]
    exact handleOf_part_modHandle_same _ _ _
  case command => rw [State.stageBegun_part]
  case out => exact List.append_assoc _ _ _

theorem answers_install_begins {h ox oy fields : Nat} {endHeld : Bool} {w : State}
    (hadmitted : Admitted s c 0x5200 1 p) (hclock : w.clkTime = s.clkTime)
    (hrun : State.modelCommand c p cmd s.counted =
      ((w.startAct (.install p) fields).awaitHeld p h ox oy endHeld false, 0)) :
    Answers (.install c p cmd) s (fun u =>
      (u.part p).cmd = .install h ox oy endHeld false 6 s.clkTime ∧ u.odP 0x5200 2 p = 2 ∧ u.odP 0x5200 4 p = 0 ∧
      Activity.mk (.install p) fields ∈ u.hub.acts ∧ u.out.getLast? = some (Emission.status c 0)) := by
  refine ⟨_, exec_modelCommand hp hadmitted rfl hrun, ?_⟩
  simp only [State.reply_part, State.reply_odP, State.reply_hub, State.reply_getLast, State.awaitHeld_phase,
    State.awaitHeld_count, State.awaitHeld_cmd, State.awaitHeld_hub, State.startAct_clkTime, hclock, true_and, and_true]
  exact State.mem_startAct_acts _ _ _

theorem answers_install_queued {h ox oy fields : Nat} {endHeld : Bool} {w : State}
    (hadmitted : Admitted s c 0x5200 1 p)
    (hrun : State.modelCommand c p cmd s.counted =
      ((((w.queueAct (.install p) fields cmd).countMaint 0x0801).modPart p (fun P =>
        { P with cmd := .install h ox oy endHeld false 4 s.clkTime })).odSetP 0x5200 2 p 4, 0x0801)) :
    Answers (.install c p cmd) s (fun u =>
      (u.part p).cmd = .install h ox oy endHeld false 4 s.clkTime ∧
      u.hub.queue = w.hub.queue ++ [Queued.mk (.install p) fields w.clkTime cmd] ∧
      u.out.getLast? = some (Emission.status c 0x0801)) := by
  refine ⟨_, exec_modelCommand hp hadmitted rfl hrun, ?_⟩
  simp only [State.reply_part, State.reply_hub, State.reply_getLast, State.odSetP_part, State.odSetP_hub,
    State.part_modPart_same, State.modPart_hub, State.countMaint_hub, true_and, and_true]
  rfl

theorem answers_abort_stage {g src source len got : Nat} {next : Option Nat} {bad : Bool}
    (hcmd : ModelCommand s c p cmd 0x53) (hstage : (s.part p).cmd = .stage g src source len got next bad) :
    Answers (.abort c p cmd) s (fun u => (u.part p).cmd = .none ∧ handleOf (u.part p) g = {} ∧
      u.odP 0x5200 2 p = 0 ∧ u.odP 0x5200 3 p = 0x020D ∧ u.out.getLast? = some (Emission.status c 0)) := by
  refine ⟨_, exec_modelCommand hp hcmd.1 rfl (hcmd.run_abort.trans (State.abortStage_stage (s := s.counted) hstage)), ?_⟩
  obtain ⟨hidle, hhandle, hphase, hstatus⟩ :=
    State.endStage_stage (s := s.counted) (code := 0x020D) hp hstage (by decide) (by decide)
  rw [State.reply_getLast, State.reply_part, State.reply_odP, State.reply_odP]
  exact ⟨hidle, hhandle, hphase, hstatus, rfl⟩

end commands

/-- Settles O32, by the command. -/
theorem modelCommands : Obligations.ModelCommands := by
  unfold Obligations.ModelCommands
  intro s c p cmd hp v h
  refine ⟨?stage, ?install, ?discard, ?abort, ?busy, ?form⟩
  case stage =>
    intro a hcmd hidle hlen hsrc hbase hadd hdamaged hsend hbar hrange
    refine answers_stage_host hp hcmd hidle (State.startStage_host rfl rfl rfl hlen hsrc hbase hadd ?_ hsend hbar hrange)
    rwa [State.counted_odP s (by decide) (by decide) (by omega)]
  case install =>
    intro z o fs eh hcmd hidle
    have hrun := hcmd.run_install hidle
    refine ⟨fun hcode hmaint hprogram => ?begins, fun hcode hmaint => ?queued, fun hcode => ?fails⟩
    case begins =>
      refine answers_install_begins hp hcmd.1 ?clock (hrun.trans (State.startInstall_begins hcode rfl rfl hmaint hprogram))
      rw [State.programCode_clkTime, State.installCode_clkTime, State.counted, State.odAdd_clkTime]
    case queued => exact answers_install_queued hp hcmd.1 (hrun.trans (State.startInstall_queued hcode rfl rfl hmaint))
    case fails =>
      exact exec_modelCommand hp hcmd.1 rfl (hrun.trans (State.startInstall_fails hcode))
  case discard =>
    intro hcmd hidle st
    have hrun := hcmd.run_discard hidle
    exact ⟨fun h1 h3 h4 hsend =>
        exec_modelCommand hp hcmd.1 rfl (hrun.trans (State.discardHandle_free h1 h3 h4 hsend)),
      fun hused => exec_modelCommand hp hcmd.1 rfl (hrun.trans (State.discardHandle_used hused))⟩
  case abort =>
    intro hcmd
    exact ⟨fun g src source len got next bad hstage => answers_abort_stage hp hcmd hstage,
      fun hidle => exec_modelCommand hp hcmd.1 rfl (hcmd.run_abort.trans (State.abortStage_idle hidle)),
      fun g ox oy eh ev n since hinstall =>
        exec_modelCommand hp hcmd.1 rfl (hcmd.run_abort.trans (State.abortStage_install hinstall))⟩
  case busy =>
    intro hruns
    exact ⟨fun hcmd => exec_modelCommand hp hcmd.1 rfl (hcmd.run_busy (by decide) (by decide) hruns),
      fun hcmd => exec_modelCommand hp hcmd.1 rfl (hcmd.run_busy (by decide) (by decide) hruns),
      fun hcmd => exec_modelCommand hp hcmd.1 rfl (hcmd.run_busy (by decide) (by decide) hruns)⟩
  case form =>
    intro hadmitted
    exact ⟨fun hlen => exec_modelCommand hp hadmitted rfl (State.modelCommand_length hlen),
      fun hlen hopc hreserved => exec_modelCommand hp hadmitted rfl (State.modelCommand_reserved hlen hopc hreserved),
      fun hlen hopc hreserved _ hstate =>
        exec_modelCommand hp hadmitted rfl (State.modelCommand_notFormed hlen hopc hreserved hstate)⟩

end Sys2Proof.Machine
end

section
/-!
SUPPORT. What every step does, whatever the command, and what the state holds after reset: the obligations O1, O2, O3,
O55, O56, O57 and O60.
-/

namespace Sys2Proof.Machine

/-! ### Every step -/

/-- Settles O1: it is how a step is defined. -/
theorem stepRunsFront : Obligations.StepRunsFront := fun _ _ _ => rfl

/-- Settles O2, by whether the root PLL is locked (model choice, log 2). -/
theorem idleStepCountsTime : Obligations.IdleStepCountsTime := by
  unfold Obligations.IdleStepCountsTime
  intro s hempty
  have hstep : step s = .next (idleTick s) := by rw [step, hempty]
  exact ⟨fun hlock => by rw [hstep, idleTick, if_pos hlock], fun hlock => by rw [hstep, idleTick, if_neg hlock]⟩

/-- Every meaning is guarded by the well-formedness of its command alone, whatever the state. -/
theorem exec_eq_guardRes (c : Instr) (s : State) : ∃ u, exec c s = guardRes c.wf u := by
  cases c <;> exact ⟨_, rfl⟩

/-- Settles O3: the guard of a meaning decides between its next state and the fault, and no meaning refuses. That the
fault is `noSuchUnit` is log 7. -/
theorem illFormedCommandsFault : Obligations.IllFormedCommandsFault := by
  unfold Obligations.IllFormedCommandsFault
  intro c s
  obtain ⟨u, hexec⟩ := exec_eq_guardRes c s
  rw [hexec, guardRes]
  exact ⟨fun hwf => ⟨u, if_pos hwf⟩, fun hwf => if_neg (by rw [hwf]; decide)⟩

/-- A step takes the front command of the queue, or idles; either way it keeps what every operation keeps of the state
without that command. -/
theorem step_keeps {s u : State} (hstep : step s = .next u) : Keeps { s with pending := s.pending.drop 1 } u := by
  obtain ⟨pending, _, _, _, _, _, _, _, _, _, _, _, _, _, _, _⟩ := s
  cases pending with
  | nil =>
    cases hstep
    exact idleTick_keeps (Keeps.refl _)
  | cons c r => exact exec_keeps c hstep

/-- Settles O55: the queue is no part of the canonical form, and every command keeps the rest. -/
theorem everyStepKeepsCanonicalForm : Obligations.EveryStepKeepsCanonicalForm := by
  unfold Obligations.EveryStepKeepsCanonicalForm
  intro s u hcanon hstep
  exact (step_keeps hstep).canon { hcanon with }

/-- Settles O57: a step keeps the rest of the queue, what was driven outward and the counter of free values (the model's
own queue, output and counter: log 1, 14 and 13). -/
theorem everyStepServesInOrderAndRecallsNothing : Obligations.EveryStepServesInOrderAndRecallsNothing := by
  unfold Obligations.EveryStepServesInOrderAndRecallsNothing
  intro s u hstep
  have hkeeps := step_keeps hstep
  exact ⟨hkeeps.pending, hkeeps.out, hkeeps.free⟩

/-! ### The state after reset -/

/-- Settles O56: every table and every log is empty. -/
theorem resetIsCanonical : Obligations.ResetIsCanonical where
  tiles := nil_wf _
  routers := nil_wf _
  fields := nil_wf _
  parts := nil_wf _
  fns := nil_wf _
  mem := nil_wf _
  od := List.Pairwise.nil
  blob := List.Pairwise.nil
  ram := Nat.zero_le _
  flash := Nat.zero_le _
  time := Nat.two_pow_pos 64

theorem tile_reset (t : TileId) : State.reset.tile t = {} := rfl

/-- No fuse is blown after reset, so every row map is the identity (log 9). -/
theorem rowMapGet_reset (y c j : Nat) : State.reset.rowMapGet y c j = j := rfl

theorem rimShare_reset (t : TileId) : State.reset.rimShare t = 4 := by
  have hshare : State.reset.odG 0x3400 3 = 4 := by decide +kernel
  have hwhole : (State.reset.field (fieldOfTile t)).rimHalved = false := rfl
  rw [State.rimShare, hwhole, if_neg Bool.false_ne_true, hshare]

theorem readReg_routerConfig_reset (t : TileId) : readReg State.reset t 0x5008 = 0x00110004 := by
  have htimeout : State.reset.odG 0x3400 4 = 0x11 := by decide +kernel
  change State.reset.odG 0x3400 4 * 65536 + State.reset.rimShare t = _
  rw [htimeout, rimShare_reset]

/-- After reset the charge-bank, Lookout and memory blocks of a tile read as those of a tile at its reset values. -/
theorem readReg_block_reset (t : TileId) {o : Nat} (ho : o < 0x1000) :
    readReg State.reset t (0x1000 + o) = readCb {} o ∧ readReg State.reset t (0x2000 + o) = readLk {} o ∧
      readReg State.reset t (0x4000 + o) = readSp {} o := by
  unfold readReg
  rw [show (0x1000 + o) / 4096 = 1 by omega, show (0x2000 + o) / 4096 = 2 by omega, show (0x4000 + o) / 4096 = 4 by omega,
    show (0x1000 + o) % 4096 = o by omega, show (0x2000 + o) % 4096 = o by omega, show (0x4000 + o) % 4096 = o by omega,
    tile_reset]
  exact ⟨rfl, rfl, rfl⟩

theorem readCb_reset : readCb {} 0x004 = 48 ∧ readCb {} 0x008 = 0x80 := by decide

theorem readLk_reset : readLk {} 0x000 = 5 ∧
    ∀ g < 8, readLk {} (0x100 + 16 * g) = 0xFF000000 ∧ readLk {} (0x104 + 16 * g) = 0x04000400 := by decide

theorem readSp_channel_reset :
    ∀ ch < 4, readSp {} (0x104 + 32 * ch) = 0x20000000 ∧ readSp {} (0x108 + 32 * ch) = 0x00400400 := by decide

/-- Settles O60, by the block that a register belongs to. The row maps are those of a module without repair (log 9). -/
theorem registersAfterReset : Obligations.RegistersAfterReset := by
  unfold Obligations.RegistersAfterReset
  refine ⟨rfl, rfl, rfl, fun t => ?_⟩
  have hread := fun {o : Nat} (ho : o < 0x1000) => readReg_block_reset t ho
  refine ⟨?grant, ?status, ?lookout, fun g hg => ?group, rfl, rfl, fun ch hch => ?channel, rfl,
    readReg_routerConfig_reset t, rfl, rfl, fun k _ => rowMapGet_reset _ _ k, fun _ => rfl, fun _ => rfl⟩
  case grant => exact (hread (o := 4) (by decide)).1.trans readCb_reset.1
  case status => exact (hread (o := 8) (by decide)).1.trans readCb_reset.2
  case lookout => exact (hread (o := 0) (by decide)).2.1.trans readLk_reset.1
  case group =>
    have hmean := (hread (show 0x100 + 16 * g < 0x1000 by omega)).2.1
    have hlimit := (hread (show 0x104 + 16 * g < 0x1000 by omega)).2.1
    rw [← Nat.add_assoc] at hmean hlimit
    exact ⟨hmean.trans (readLk_reset.2 g hg).1, hlimit.trans (readLk_reset.2 g hg).2⟩
  case channel =>
    have hring := (hread (show 0x104 + 32 * ch < 0x1000 by omega)).2.2
    have hpace := (hread (show 0x108 + 32 * ch < 0x1000 by omega)).2.2
    rw [← Nat.add_assoc] at hring hpace
    exact ⟨hring.trans (readSp_channel_reset ch hch).1, hpace.trans (readSp_channel_reset ch hch).2⟩

end Sys2Proof.Machine
end

section
/-!
SUPPORT. How entries of the dictionary read after writes of other entries, and what signals and log entries leave as it
was (R284, R376).
-/

namespace Sys2Proof.Machine

theorem answers_next {c : Instr} {s u : State} {P : State → Prop} (hexec : exec c s = .next u) (hP : P u) :
    Answers c s P := ⟨u, hexec, hP⟩

/-! ### Entries under writes of others -/

section entries

variable (s : State)

theorem odKey_ne {i b p i' b' p' : Nat} (hb : b < 256) (hp : p < 256) (hb' : b' < 256) (hp' : p' < 256)
    (h : i ≠ i' ∨ b ≠ b' ∨ p ≠ p') : odKey i b p ≠ odKey i' b' p' := fun e => by
  obtain ⟨hi, hsub, hpart⟩ := odKey_inj hb hp hb' hp' e
  omega

/-- An entry of another index, subindex or partition reads as before. -/
theorem State.odP_odSetP_ne {i b p v i' b' p' : Nat} (h : i' ≠ i ∨ b' ≠ b ∨ p' ≠ p) (hb' : b' < 256) (hp' : p' < 256)
    (hb : b < 256) (hp : p < 256) : (s.odSetP i b p v).odP i' b' p' = s.odP i' b' p' :=
  State.odP_odSetP_other _ _ _ _ _ _ _ _ (odKey_ne hb' hp' hb hp h)

theorem State.odG_odSetP_ne {i b p v idx sub : Nat} (h : idx ≠ i ∨ sub ≠ b ∨ p ≠ 0xFF) (hsub : sub < 256) (hb : b < 256)
    (hp : p < 256) : (s.odSetP i b p v).odG idx sub = s.odG idx sub :=
  s.odP_odSetP_ne (by omega) hsub (by decide) hb hp

theorem State.odP_odSet_ne {i b v idx sub p : Nat} (h : idx ≠ i ∨ sub ≠ b ∨ p ≠ 0xFF) (hsub : sub < 256) (hp : p < 256)
    (hb : b < 256) : (s.odSet i b v).odP idx sub p = s.odP idx sub p :=
  s.odP_odSetP_ne h hsub hp hb (by decide)

theorem State.odG_odSet_ne {i b v idx sub : Nat} (h : idx ≠ i ∨ sub ≠ b) (hsub : sub < 256) (hb : b < 256) :
    (s.odSet i b v).odG idx sub = s.odG idx sub :=
  s.odP_odSetP_ne (by omega) hsub (by decide) hb (by decide)

theorem State.odG_odAdd_ne {i b v idx sub : Nat} (h : idx ≠ i ∨ sub ≠ b) (hsub : sub < 256) (hb : b < 256) :
    (s.odAdd i b v).odG idx sub = s.odG idx sub := s.odG_odSet_ne h hsub hb

theorem State.odP_odAdd_ne {i b v idx sub p : Nat} (h : idx ≠ i ∨ sub ≠ b ∨ p ≠ 0xFF) (hsub : sub < 256) (hp : p < 256)
    (hb : b < 256) : (s.odAdd i b v).odP idx sub p = s.odP idx sub p := s.odP_odSet_ne h hsub hp hb

/-- Every entry but the newest log number reads as before. -/
theorem State.log_odP (a : LogArgs) {idx sub p : Nat} (hidx : idx ≠ 0x1110) (hsub : sub < 256) (hp : p < 256) :
    (s.log a).odP idx sub p = s.odP idx sub p := by
  obtain ⟨h, od, e, hod⟩ := s.log_frame a
  simp only [e, State.odP, hod _ (odKey_ne hsub hp (by decide) (by decide) (.inl hidx))]

@[simp] theorem State.emit_odG (e : Emission) (idx sub : Nat) : (s.emit e).odG idx sub = s.odG idx sub := rfl
@[simp] theorem State.reply_odG (c : Caller) (code idx sub : Nat) : (s.reply c code).odG idx sub = s.odG idx sub := rfl
@[simp] theorem State.odG_modFn (port : Port) (fn : Nat) (f : Function → Function) (idx sub : Nat) :
    (s.modFn port fn f).odG idx sub = s.odG idx sub := rfl
@[simp] theorem State.odG_modPart (p : Nat) (f : Partition → Partition) (idx sub : Nat) :
    (s.modPart p f).odG idx sub = s.odG idx sub := rfl

end entries

/-! ### What a log entry and a signal leave as they were -/

section frames

variable (s : State) (a : LogArgs) (port : Port) (fn vector : Nat)

@[simp] theorem State.log_stk : (s.log a).stk = s.stk := by
  obtain ⟨h, od, e, -⟩ := s.log_frame a
  rw [e]

@[simp] theorem State.log_clkTime : (s.log a).clkTime = s.clkTime := by
  obtain ⟨h, od, e, -⟩ := s.log_frame a
  rw [e]

/-- Logging changes of the hub its RAM log and what is held at the sources of events, and nothing else (R376). -/
theorem State.log_hub : ∃ ram held lost,
    (s.log a).hub = { s.hub with ramLog := ram, held := held, heldLost := lost } := by
  unfold State.log
  split
  · dsimp only
    split <;> exact ⟨_, _, _, rfl⟩
  · exact ⟨_, _, _, rfl⟩

@[simp] theorem State.log_flashLog : (s.log a).hub.flashLog = s.hub.flashLog := by
  obtain ⟨_, _, _, e⟩ := s.log_hub a
  rw [e]

@[simp] theorem State.log_restarting : (s.log a).hub.restarting = s.hub.restarting := by
  obtain ⟨_, _, _, e⟩ := s.log_hub a
  rw [e]

@[simp] theorem State.log_activating : (s.log a).hub.activating = s.hub.activating := by
  obtain ⟨_, _, _, e⟩ := s.log_hub a
  rw [e]

@[simp] theorem State.log_recovery : (s.log a).hub.recovery = s.hub.recovery := by
  obtain ⟨_, _, _, e⟩ := s.log_hub a
  rw [e]

@[simp] theorem State.log_romHalt : (s.log a).hub.romHalt = s.hub.romHalt := by
  obtain ⟨_, _, _, e⟩ := s.log_hub a
  rw [e]

@[simp] theorem State.log_slot : (s.log a).hub.slot = s.hub.slot := by
  obtain ⟨_, _, _, e⟩ := s.log_hub a
  rw [e]

@[simp] theorem State.log_running : (s.log a).hub.running = s.hub.running := by
  obtain ⟨_, _, _, e⟩ := s.log_hub a
  rw [e]

@[simp] theorem State.log_updLen : (s.log a).hub.updLen = s.hub.updLen := by
  obtain ⟨_, _, _, e⟩ := s.log_hub a
  rw [e]

@[simp] theorem State.log_updBuf : (s.log a).hub.updBuf = s.hub.updBuf := by
  obtain ⟨_, _, _, e⟩ := s.log_hub a
  rw [e]

@[simp] theorem State.log_versions : (s.log a).hub.versions = s.hub.versions := by
  obtain ⟨_, _, _, e⟩ := s.log_hub a
  rw [e]

@[simp] theorem State.log_peers : (s.log a).hub.peers = s.hub.peers := by
  obtain ⟨_, _, _, e⟩ := s.log_hub a
  rw [e]

@[simp] theorem State.log_kept : (s.log a).hub.kept = s.hub.kept := by
  obtain ⟨_, _, _, e⟩ := s.log_hub a
  rw [e]

@[simp] theorem State.log_lockHolder : (s.log a).hub.lockHolder = s.hub.lockHolder := by
  obtain ⟨_, _, _, e⟩ := s.log_hub a
  rw [e]

@[simp] theorem State.log_lockPeer : (s.log a).hub.lockPeer = s.hub.lockPeer := by
  obtain ⟨_, _, _, e⟩ := s.log_hub a
  rw [e]

@[simp] theorem State.log_leaseEnd : (s.log a).hub.leaseEnd = s.hub.leaseEnd := by
  obtain ⟨_, _, _, e⟩ := s.log_hub a
  rw [e]

@[simp] theorem State.log_deltas : (s.log a).hub.deltas = s.hub.deltas := by
  obtain ⟨_, _, _, e⟩ := s.log_hub a
  rw [e]

@[simp] theorem State.log_acts : (s.log a).hub.acts = s.hub.acts := by
  obtain ⟨_, _, _, e⟩ := s.log_hub a
  rw [e]

@[simp] theorem State.log_queue : (s.log a).hub.queue = s.hub.queue := by
  obtain ⟨_, _, _, e⟩ := s.log_hub a
  rw [e]

@[simp] theorem State.log_activationDue : (s.log a).hub.activationDue = s.hub.activationDue := by
  obtain ⟨_, _, _, e⟩ := s.log_hub a
  rw [e]

@[simp] theorem State.log_fieldsDue : (s.log a).hub.fieldsDue = s.hub.fieldsDue := by
  obtain ⟨_, _, _, e⟩ := s.log_hub a
  rw [e]

@[simp] theorem State.log_powered : (s.log a).hub.powered = s.hub.powered := by
  obtain ⟨_, _, _, e⟩ := s.log_hub a
  rw [e]

@[simp] theorem State.log_vstby : (s.log a).hub.vstby = s.hub.vstby := by
  obtain ⟨_, _, _, e⟩ := s.log_hub a
  rw [e]

@[simp] theorem State.log_refclk : (s.log a).hub.refclk = s.hub.refclk := by
  obtain ⟨_, _, _, e⟩ := s.log_hub a
  rw [e]

@[simp] theorem State.log_modRst : (s.log a).hub.modRst = s.hub.modRst := by
  obtain ⟨_, _, _, e⟩ := s.log_hub a
  rw [e]

@[simp] theorem State.log_waitRef : (s.log a).hub.waitRef = s.hub.waitRef := by
  obtain ⟨_, _, _, e⟩ := s.log_hub a
  rw [e]

@[simp] theorem State.log_heldReset : (s.log a).hub.heldReset = s.hub.heldReset := by
  obtain ⟨_, _, _, e⟩ := s.log_hub a
  rw [e]

@[simp] theorem State.log_startDue : (s.log a).hub.startDue = s.hub.startDue := by
  obtain ⟨_, _, _, e⟩ := s.log_hub a
  rw [e]

@[simp] theorem State.log_resetsDue : (s.log a).hub.resetsDue = s.hub.resetsDue := by
  obtain ⟨_, _, _, e⟩ := s.log_hub a
  rw [e]

@[simp] theorem State.log_netOn : (s.log a).hub.netOn = s.hub.netOn := by
  obtain ⟨_, _, _, e⟩ := s.log_hub a
  rw [e]

@[simp] theorem State.log_lockout : (s.log a).hub.lockout = s.hub.lockout := by
  obtain ⟨_, _, _, e⟩ := s.log_hub a
  rw [e]

@[simp] theorem State.log_served : (s.log a).hub.served = s.hub.served := by
  obtain ⟨_, _, _, e⟩ := s.log_hub a
  rw [e]

@[simp] theorem State.interrupt_hub : (s.interrupt port fn vector).hub = s.hub := by
  obtain ⟨fns, out, e, -⟩ := s.interrupt_frame port fn vector
  rw [e]

@[simp] theorem State.interrupt_od : (s.interrupt port fn vector).od = s.od := by
  obtain ⟨fns, out, e, -⟩ := s.interrupt_frame port fn vector
  rw [e]

end frames

end Sys2Proof.Machine
end

section
/-!
SUPPORT. The device control lock of the two PFs (R290), and the obligation O36.
-/

namespace Sys2Proof.Machine

section grant

variable (s : State) (holder : Nat) (peer : Nat × Nat)

/-- A lock granted is counted where it was free (R290). -/
theorem State.grantLock_count :
    (s.grantLock holder peer).odG 0x6000 0xA = s.odG 0x6000 0xA + if s.hub.lockHolder = 0 then 1 else 0 := by
  unfold State.grantLock
  dsimp only
  rw [State.odG_odSet_ne _ (.inr (by decide)) (by decide) (by decide)]
  split
  · exact State.odG_odAdd_same s 0x6000 0xA 1
  · rfl

theorem State.grantLock_holder : (s.grantLock holder peer).odG 0x6000 0xC = holder := State.odG_odSet_same _ _ _ _

theorem State.grantLock_hub : (s.grantLock holder peer).hub =
    { s.hub with lockHolder := holder, lockPeer := peer, leaseWarned := false,
                 leaseEnd := s.clkTime + 10000 * 1000 * cyclesPerUs } := by
  unfold State.grantLock
  split <;> rfl

theorem State.grantLock_parts : (s.grantLock holder peer).parts = s.parts := by
  unfold State.grantLock
  split <;> rfl

theorem State.freeLock_holder : s.freeLock.hub.lockHolder = 0 ∧ s.freeLock.odG 0x6000 0xC = 0 :=
  ⟨rfl, State.odG_odSet_same _ _ _ _⟩

end grant

section commands

variable {s : State} {port : Port}

theorem answers_lockAcquire (hmine : s.hub.lockHolder = 0 ∨ s.hub.lockHolder = pfHolder port) :
    Answers (.lockAcquire port) s (fun u => u.hub.lockHolder = pfHolder port ∧
      u.hub.leaseEnd = s.clkTime + 10000 * 1300000 ∧ u.hub.leaseWarned = false ∧ (u.fn port 0).dclResult = 0 ∧
      u.odG 0x6000 0xA = s.odG 0x6000 0xA + (if s.hub.lockHolder = 0 then 1 else 0) ∧
      u.odG 0x6000 0xC = pfHolder port ∧ u.parts = s.parts) := by
  refine answers_next (guardRes_next rfl (if_pos hmine)) ?_
  rw [State.modFn_hub, State.grantLock_hub, State.fn_modFn_same, State.odG_modFn, State.odG_modFn, State.grantLock_count,
    State.grantLock_holder, State.modFn_parts, State.grantLock_parts]
  exact ⟨rfl, rfl, rfl, rfl, rfl, rfl, rfl⟩

theorem setsFn_lockAcquire_held (hfree : s.hub.lockHolder ≠ 0) (hother : s.hub.lockHolder ≠ pfHolder port) :
    SetsFn (.lockAcquire port) s port 0 { s.fn port 0 with dclResult := 0x0A03 } :=
  guardRes_next rfl (if_neg (not_or.2 ⟨hfree, hother⟩))

theorem answers_lockRelease (hmine : s.hub.lockHolder = pfHolder port) : Answers (.lockRelease port) s (fun u =>
    u.hub.lockHolder = 0 ∧ u.odG 0x6000 0xC = 0 ∧ (u.fn port 0).dclResult = 0) := by
  refine ⟨_, guardRes_next rfl (if_pos hmine), s.freeLock_holder.1, s.freeLock_holder.2, ?_⟩
  rw [State.fn_modFn_same]

theorem setsFn_lockRelease_other (hother : s.hub.lockHolder ≠ pfHolder port) :
    SetsFn (.lockRelease port) s port 0 { s.fn port 0 with dclResult := 0x0A03 } :=
  guardRes_next rfl (if_neg hother)

/-- The state in which the warning of the present lease has been given. -/
def State.leaseWarned (s : State) : State := { s with hub := { s.hub with leaseWarned := true } }

theorem noEffect_leaseWarning (h : s.hub.lockHolder = 0 ∨ s.hub.leaseWarned = true) : NoEffect .leaseWarning s :=
  guardRes_next rfl (if_pos h)

theorem exec_leaseWarning_pf (hmine : s.hub.lockHolder = pfHolder port) (hfirst : s.hub.leaseWarned = false) :
    exec .leaseWarning s = .next (s.leaseWarned.interrupt port 0 1) := by
  refine guardRes_next rfl ?_
  cases port <;> simp [hmine, hfirst, pfHolder, portNum, State.leaseWarned]

theorem exec_leaseWarning_net (hnet : s.hub.lockHolder = 3) (hfirst : s.hub.leaseWarned = false) :
    exec .leaseWarning s = .next s.leaseWarned := by
  refine guardRes_next rfl ?_
  simp [hnet, hfirst, State.leaseWarned]

theorem answers_leaseWarning_pf (hmine : s.hub.lockHolder = pfHolder port) (hfirst : s.hub.leaseWarned = false) :
    Answers .leaseWarning s (fun u => u.hub = { s.hub with leaseWarned := true } ∧
      u.out = s.out ++ signalOut port 0 (s.fn port 0) 1 ∧ u.fn port 0 = signalled (s.fn port 0) 1 ∧ u.parts = s.parts ∧
      u.od = s.od) := by
  refine answers_next (exec_leaseWarning_pf hmine hfirst) ?_
  rw [State.interrupt_hub, State.interrupt_out, State.interrupt_fn_same, State.interrupt_parts, State.interrupt_od]
  exact ⟨rfl, rfl, rfl, rfl, rfl⟩

theorem answers_leaseExpiry (hheld : s.hub.lockHolder ≠ 0) : Answers .leaseExpiry s (fun u =>
    u.hub.lockHolder = 0 ∧ u.odG 0x6000 0xC = 0 ∧ u.odG 0x6000 0xB = s.odG 0x6000 0xB + 1) := by
  refine answers_next (guardRes_next rfl (if_neg hheld)) ?_
  rw [State.log_odG _ _ (by decide) (by decide), State.log_odG _ _ (by decide) (by decide), State.odG_odAdd_same,
    State.odG_odAdd_ne _ (.inr (by decide)) (by decide) (by decide), State.log_lockHolder]
  refine ⟨s.freeLock_holder.1, s.freeLock_holder.2, congrArg (· + 1) ?_⟩
  exact State.odG_odSet_ne _ (.inr (by decide)) (by decide) (by decide)

end commands

/-- Settles O36, by who holds the lock. That the lock is served while the hub restarts is log 80. -/
theorem controlLock : Obligations.ControlLock := by
  unfold Obligations.ControlLock
  intro s port me holder
  refine ⟨answers_lockAcquire, setsFn_lockAcquire_held, answers_lockRelease, setsFn_lockRelease_other,
    fun hfirst => ⟨fun hmine => answers_leaseWarning_pf hmine hfirst, fun hnet => exec_leaseWarning_net hnet hfirst⟩,
    noEffect_leaseWarning, answers_leaseExpiry, fun hfree => ?_⟩
  exact guardRes_next rfl (if_pos hfree)

end Sys2Proof.Machine
end

section
/-!
SUPPORT. The frame of an operation, said once for each: the parts of the state that it may change, and the indices of the
dictionary that it may write. What lies outside is as it was.
-/

-- One proof after another: side conditions of frames are default arguments, and proofs elaborated at once would each wait
-- for the kernel in a thread of their own, past the memory limit.
set_option Elab.async false

namespace Sys2Proof.Machine

/-- A part of the state that an operation may change. Logging is no part of its own: every operation may log (R376).
`rings` are the completion rings of functions and what is pending of their interrupts, `fns` whole functions; `acts` are
the activities in progress and queued, `hub` the whole hub; `stk` is stack memory without its self refresh, which is
`asleep`. -/
inductive Comp where
  | out | free | clk | blob | hub | acts | mesh | stk | asleep | power | fields | tiles | routers | parts | fns | rings | fabric
deriving DecidableEq

/-- A function whose completion ring has moved on, and whose interrupts may be pending. -/
def RingMoved (f g : Function) : Prop := ∃ cqTail held unsignalled pba,
  g = { f with cqTail := cqTail, held := held, unsignalled := unsignalled, pba := pba }

@[simp] theorem RingMoved.refl (f : Function) : RingMoved f f := ⟨f.cqTail, f.held, f.unsignalled, f.pba, rfl⟩

theorem RingMoved.trans {f g h : Function} (hfg : RingMoved f g) (hgh : RingMoved g h) : RingMoved f h := by
  obtain ⟨_, _, _, _, rfl⟩ := hfg
  obtain ⟨c, d, e, p, rfl⟩ := hgh
  exact ⟨c, d, e, p, rfl⟩

/-- A hub that has logged. -/
def HubLogged (h k : Hub) : Prop := ∃ ram held lost, k = { h with ramLog := ram, held := held, heldLost := lost }

@[simp] theorem HubLogged.refl (h : Hub) : HubLogged h h := ⟨h.ramLog, h.held, h.heldLost, rfl⟩

theorem HubLogged.trans {h k l : Hub} (hhk : HubLogged h k) (hkl : HubLogged k l) : HubLogged h l := by
  obtain ⟨_, _, _, rfl⟩ := hhk
  obtain ⟨r, e, n, rfl⟩ := hkl
  exact ⟨r, e, n, rfl⟩

/-- A hub that has logged, and whose activities, and the fields they wait for, have changed. -/
def HubActed (h k : Hub) : Prop :=
  ∃ acts queue due, HubLogged { h with acts := acts, queue := queue, fieldsDue := due } k

theorem HubActed.of_logged {h k : Hub} (hlogged : HubLogged h k) : HubActed h k := ⟨h.acts, h.queue, h.fieldsDue, hlogged⟩

@[simp] theorem HubActed.refl (h : Hub) : HubActed h h := .of_logged (.refl h)

theorem HubActed.trans {h k l : Hub} (hhk : HubActed h k) (hkl : HubActed k l) : HubActed h l := by
  obtain ⟨_, _, _, _, _, _, rfl⟩ := hhk
  obtain ⟨a, q, d, r, e, n, rfl⟩ := hkl
  exact ⟨a, q, d, r, e, n, rfl⟩

/-- From `s` to `u` nothing has changed but the parts of the state in `cs`, the log, and dictionary entries whose index is
in `ods`, or the newest log number. -/
structure Within (cs : List Comp) (ods : List Nat) (s u : State) : Prop where
  pending : u.pending = s.pending
  out : .out ∉ cs → u.out = s.out
  free : .free ∉ cs → u.free = s.free
  clk : .clk ∉ cs → u.clkTime = s.clkTime
  blob : .blob ∉ cs → u.odBlob = s.odBlob
  hub : .hub ∉ cs → .acts ∉ cs → HubLogged s.hub u.hub
  acts : .hub ∉ cs → HubActed s.hub u.hub
  mesh : .mesh ∉ cs → u.mesh = s.mesh
  stk : .stk ∉ cs → u.stk = s.stk
  asleep : .asleep ∉ cs → u.stk.selfRefresh = s.stk.selfRefresh
  power : .power ∉ cs → u.power = s.power
  fields : .fields ∉ cs → u.fields = s.fields
  tiles : .tiles ∉ cs → u.tiles = s.tiles
  routers : .routers ∉ cs → u.routers = s.routers
  parts : .parts ∉ cs → u.parts = s.parts
  fns : .fns ∉ cs → .rings ∉ cs → u.fns = s.fns
  rings : .fns ∉ cs → ∀ port n, RingMoved (s.fn port n) (u.fn port n)
  fabric : .fabric ∉ cs → u.fabric = s.fabric
  od : ∀ {idx sub p : Nat}, idx ∉ ods → idx ≠ 0x1110 → sub < 256 → p < 256 → u.odP idx sub p = s.odP idx sub p

namespace Within

variable {cs cs' : List Comp} {ods ods' : List Nat} {s t u : State}

theorem refl (s : State) : Within cs ods s s :=
  ⟨rfl, fun _ => rfl, fun _ => rfl, fun _ => rfl, fun _ => rfl, fun _ _ => .refl _, fun _ => .of_logged (.refl _),
    fun _ => rfl, fun _ => rfl, fun _ => rfl, fun _ => rfl, fun _ => rfl, fun _ => rfl, fun _ => rfl, fun _ => rfl,
    fun _ _ => rfl, fun _ _ _ => .refl _, fun _ => rfl, fun _ _ _ _ => rfl⟩

/-- An operation after others. -/
theorem andThen (h : Within cs ods s t) (k : Within cs' ods' t u) (hc : ∀ c ∈ cs', c ∈ cs := by decide)
    (ho : ∀ i ∈ ods', i ∈ ods := by decide) : Within cs ods s u where
  pending := k.pending.trans h.pending
  out n := (k.out fun m => n (hc _ m)).trans (h.out n)
  free n := (k.free fun m => n (hc _ m)).trans (h.free n)
  clk n := (k.clk fun m => n (hc _ m)).trans (h.clk n)
  blob n := (k.blob fun m => n (hc _ m)).trans (h.blob n)
  hub n n' := (h.hub n n').trans (k.hub (fun m => n (hc _ m)) fun m => n' (hc _ m))
  acts n := (h.acts n).trans (k.acts fun m => n (hc _ m))
  mesh n := (k.mesh fun m => n (hc _ m)).trans (h.mesh n)
  stk n := (k.stk fun m => n (hc _ m)).trans (h.stk n)
  asleep n := (k.asleep fun m => n (hc _ m)).trans (h.asleep n)
  power n := (k.power fun m => n (hc _ m)).trans (h.power n)
  fields n := (k.fields fun m => n (hc _ m)).trans (h.fields n)
  tiles n := (k.tiles fun m => n (hc _ m)).trans (h.tiles n)
  routers n := (k.routers fun m => n (hc _ m)).trans (h.routers n)
  parts n := (k.parts fun m => n (hc _ m)).trans (h.parts n)
  fns n n' := (k.fns (fun m => n (hc _ m)) fun m => n' (hc _ m)).trans (h.fns n n')
  rings n port i := (h.rings n port i).trans (k.rings (fun m => n (hc _ m)) port i)
  fabric n := (k.fabric fun m => n (hc _ m)).trans (h.fabric n)
  od n l hs hp := (k.od (fun m => n (ho _ m)) l hs hp).trans (h.od n l hs hp)

theorem mono (h : Within cs' ods' s u) (hc : ∀ c ∈ cs', c ∈ cs := by decide) (ho : ∀ i ∈ ods', i ∈ ods := by decide) :
    Within cs ods s u := (refl s).andThen h hc ho

/-! What lies outside the frame. -/

theorem odG (h : Within cs ods s u) {idx sub : Nat} (hidx : idx ∉ ods := by decide) (hlog : idx ≠ 0x1110 := by decide)
    (hsub : sub < 256 := by decide) : u.odG idx sub = s.odG idx sub := h.od hidx hlog hsub (by decide)

theorem fn (h : Within cs ods s u) (port : Port) (n : Nat) (hf : .fns ∉ cs := by decide) (hr : .rings ∉ cs := by decide) :
    u.fn port n = s.fn port n := by simp only [State.fn, h.fns hf hr]

theorem part (h : Within cs ods s u) (p : Nat) (hp : .parts ∉ cs := by decide) : u.part p = s.part p :=
  State.part_of_parts (h.parts hp) p

theorem tile (h : Within cs ods s u) (t : TileId) (ht : .tiles ∉ cs := by decide) : u.tile t = s.tile t :=
  State.tile_of_tiles (h.tiles ht) t

theorem field (h : Within cs ods s u) (f : Nat) (hf : .fields ∉ cs := by decide) : u.field f = s.field f :=
  State.field_of_fields (h.fields hf) f

end Within

/-! ### The frames of the updates of a state -/

section updates

variable (s : State)

theorem within_out (x : List Emission) : Within [.out] [] s { s with out := x } := by
  constructor <;> simp [State.fn, State.odP]

theorem within_free (x : Nat) : Within [.free] [] s { s with free := x } := by
  constructor <;> simp [State.fn, State.odP]

theorem within_clk (x : Nat) : Within [.clk] [] s { s with clkTime := x } := by
  constructor <;> simp [State.fn, State.odP]

theorem within_blob (x : SMap (List Byte)) : Within [.blob] [] s { s with odBlob := x } := by
  constructor <;> simp [State.fn, State.odP]

theorem within_hub (x : Hub) : Within [.hub] [] s { s with hub := x } := by
  constructor <;> simp [State.fn, State.odP]

theorem within_mesh (x : Mesh) : Within [.mesh] [] s { s with mesh := x } := by
  constructor <;> simp [State.fn, State.odP]

theorem within_stk (x : Stacks) (hawake : x.selfRefresh = s.stk.selfRefresh := by rfl) : Within [.stk] [] s { s with stk := x } := by
  constructor <;> simp [State.fn, State.odP, hawake]

theorem within_asleep (x : Stacks) : Within [.stk, .asleep] [] s { s with stk := x } := by
  constructor <;> simp [State.fn, State.odP]

theorem within_power (x : Power) : Within [.power] [] s { s with power := x } := by
  constructor <;> simp [State.fn, State.odP]

theorem within_fields (x : SMap Field) : Within [.fields] [] s { s with fields := x } := by
  constructor <;> simp [State.fn, State.odP]

theorem within_tiles (x : SMap Tile) : Within [.tiles] [] s { s with tiles := x } := by
  constructor <;> simp [State.fn, State.odP]

theorem within_routers (x : SMap Router) : Within [.routers] [] s { s with routers := x } := by
  constructor <;> simp [State.fn, State.odP]

theorem within_parts (x : SMap Partition) : Within [.parts] [] s { s with parts := x } := by
  constructor <;> simp [State.fn, State.odP]

theorem within_fns (x : SMap Function) : Within [.fns] [] s { s with fns := x } := by
  constructor <;> simp [State.fn, State.odP]

theorem within_fabric (x : Fabric) : Within [.fabric] [] s { s with fabric := x } := by
  constructor <;> simp [State.fn, State.odP]

variable {i b p : Nat} (v : Nat)

theorem State.odSetP_within (hb : b < 256 := by decide) (hp : p < 256 := by decide) :
    Within [] [i] s (s.odSetP i b p v) where
  pending := rfl
  out _ := rfl
  free _ := rfl
  clk _ := rfl
  blob _ := rfl
  hub _ _ := .refl _
  acts _ := .refl _
  mesh _ := rfl
  stk _ := rfl
  asleep _ := rfl
  power _ := rfl
  fields _ := rfl
  tiles _ := rfl
  routers _ := rfl
  parts _ := rfl
  fns _ _ := rfl
  rings _ _ _ := .refl _
  fabric _ := rfl
  od hi _ hsub hq := s.odP_odSetP_ne (.inl (by simpa using hi)) hsub hq hb hp

theorem State.odSet_within (hb : b < 256 := by decide) : Within [] [i] s (s.odSet i b v) := s.odSetP_within v hb

theorem State.odAdd_within (hb : b < 256 := by decide) : Within [] [i] s (s.odAdd i b v) := s.odSetP_within _ hb

theorem State.odAddP_within (hb : b < 256 := by decide) (hp : p < 256 := by decide) :
    Within [] [i] s (s.odAddP i b p v) := s.odSetP_within _ hb hp

theorem State.log_within (a : LogArgs) : Within [] [] s (s.log a) := by
  have hod : ∀ {idx sub p : Nat}, idx ∉ ([] : List Nat) → idx ≠ 0x1110 → sub < 256 → p < 256 →
      (s.log a).odP idx sub p = s.odP idx sub p := fun _ hl hs hp => s.log_odP a hl hs hp
  have hlogged : HubLogged s.hub (s.log a).hub := s.log_hub a
  obtain ⟨h, od, e, -⟩ := s.log_frame a
  rw [e] at hod hlogged ⊢
  exact ⟨rfl, fun _ => rfl, fun _ => rfl, fun _ => rfl, fun _ => rfl, fun _ _ => hlogged, fun _ => .of_logged hlogged,
    fun _ => rfl, fun _ => rfl, fun _ => rfl, fun _ => rfl, fun _ => rfl, fun _ => rfl, fun _ => rfl, fun _ => rfl,
    fun _ _ => rfl, fun _ _ _ => .refl _, fun _ => rfl, hod⟩

theorem State.emit_within (e : Emission) : Within [.out] [] s (s.emit e) := within_out s _

theorem State.reply_within (c : Caller) (code : Nat) : Within [.out] [] s (s.reply c code) := within_out s _

theorem State.useFree_within (n : Nat) : Within [.free] [] s (s.useFree n) := within_free s _

theorem State.setBlobP_within (i b p : Nat) (l : List Byte) : Within [.blob] [] s (s.setBlobP i b p l) := within_blob s _

theorem State.modTile_within (t : TileId) (f : Tile → Tile) : Within [.tiles] [] s (s.modTile t f) := within_tiles s _

theorem State.modRouter_within (t : TileId) (f : Router → Router) : Within [.routers] [] s (s.modRouter t f) :=
  within_routers s _

theorem State.modField_within (f : Nat) (g : Field → Field) : Within [.fields] [] s (s.modField f g) := within_fields s _

theorem State.modPart_within (p : Nat) (f : Partition → Partition) : Within [.parts] [] s (s.modPart p f) :=
  within_parts s _

theorem State.modFn_within (port : Port) (n : Nat) (f : Function → Function) : Within [.fns] [] s (s.modFn port n f) :=
  within_fns s _

/-- A change of a function's completion ring. -/
theorem State.modFn_ring_within (port : Port) (n : Nat) {f : Function → Function} (hf : ∀ x, RingMoved x (f x)) :
    Within [.rings] [] s (s.modFn port n f) := by
  constructor <;> simp [State.odP]
  intro port' m
  rw [State.fn_modFn]
  split
  · rename_i hkey
    have hsame : s.fn port' m = s.fn port n := by simp only [State.fn, hkey]
    rw [hsame]
    exact hf _
  · exact .refl _

theorem State.interrupt_within (port : Port) (n vector : Nat) :
    Within [.out, .rings] [] s (s.interrupt port n vector) := by
  unfold State.interrupt
  split
  · exact (s.modFn_ring_within port n fun x => ⟨x.cqTail, x.held, x.unsignalled, _, rfl⟩).mono
  · exact (s.emit_within _).mono

end updates

namespace Within

variable {cs : List Comp} {ods : List Nat} {s : State}

/-- A change that stays within a frame, made for each element of a list. -/
theorem forEach_mem {α : Type} {f : α → State → State} (l : List α) (hf : ∀ a ∈ l, ∀ t, Within cs ods t (f a t)) (s : State) :
    Within cs ods s (s.forEach l f) := by
  induction l generalizing s with
  | nil => exact .refl s
  | cons a r ih =>
    exact (hf a List.mem_cons_self s).andThen (ih (fun b hb => hf b (List.mem_cons_of_mem a hb)) (f a s)) (fun _ m => m)
      fun _ m => m

theorem forEach {α : Type} {f : α → State → State} (l : List α) (hf : ∀ a t, Within cs ods t (f a t)) (s : State) :
    Within cs ods s (s.forEach l f) := forEach_mem l (fun a _ => hf a) s

theorem ite {c : Prop} [Decidable c] {a b : State} (ha : c → Within cs ods s a) (hb : ¬c → Within cs ods s b) :
    Within cs ods s (if c then a else b) := by
  split
  · exact ha ‹_›
  · exact hb ‹_›

end Within

end Sys2Proof.Machine
end

section
/-!
SUPPORT. The frames of the operations on stacks, records, requests, streams, programs and maintenance locks that many
commands share.
-/

-- One proof after another: side conditions of frames are default arguments, and proofs elaborated at once would each wait
-- for the kernel in a thread of their own, past the memory limit.
set_option Elab.async false

namespace Sys2Proof.Machine

variable (s : State)

/-! ### Stacks and the tree of prefixes (R140, R224) -/

theorem State.meetUnit_within (da : Nat) (f : UnitFind) (whole : Bool) :
    Within [.stk] [0x3310] s (s.meetUnit da f whole).1 := by
  have hbad (b : Bool) : Within [.stk] [0x3310] s (s.setBad (da / 64) b) := (within_stk s _).mono
  unfold State.meetUnit
  split
  · exact .refl s
  · split
    · exact hbad false
    · split
      · exact (hbad true).andThen (State.odAdd_within _ 1)
      · split
        · exact (s.odAdd_within 1).mono
        · exact (s.odAdd_within 1).mono
        · exact .refl s

theorem State.meetUnits_within (p addr len : Nat) (wr : Bool) (found : List UnitFind) (u n : Nat) :
    Within [.stk] [0x3310] s (s.meetUnits p addr len wr found u n).1 := by
  induction n generalizing s found u with
  | zero => exact .refl s
  | succ n ih =>
    unfold State.meetUnits
    dsimp only
    split
    · exact .refl s
    · split
      · exact s.meetUnit_within _ _ _
      · exact (s.meetUnit_within _ _ _).andThen (ih _ _ _)

theorem State.putStack_within (p addr : Nat) (bs : List Byte) : Within [.stk] [] s (s.putStack p addr bs) := by
  induction bs generalizing s addr with
  | nil => exact .refl s
  | cons b r ih =>
    unfold State.putStack
    dsimp only
    split
    · exact ih s _
    · exact (within_stk s _).andThen (ih _ _)

theorem State.stackRead_within (p addr len : Nat) (found : List UnitFind) :
    Within [.stk] [0x3310] s (s.stackRead p addr len found).1 := by
  unfold State.stackRead
  split
  · exact .refl s
  · exact s.meetUnits_within _ _ _ _ _ _ _

theorem State.stackWrite_within (p addr : Nat) (bs : List Byte) (found : List UnitFind) :
    Within [.stk] [0x3310] s (s.stackWrite p addr bs found).1 := by
  unfold State.stackWrite
  split
  · exact .refl s
  · exact (s.meetUnits_within _ _ _ _ _ _ _).andThen (State.putStack_within _ _ _ _)

theorem State.putTree_within (p off : Nat) (bs : List Byte) : Within [.stk] [0x3310] s (s.putTree p off bs) :=
  .ite (fun _ => .refl s) fun _ => s.stackWrite_within _ _ _ _

theorem State.showNode_within (p n : Nat) : Within [.stk] [0x3310] s (s.showNode p n) := s.putTree_within _ _ _

theorem State.showTree_within (p : Nat) : Within [.stk] [0x3310] s (s.showTree p) :=
  (s.putTree_within _ _ _).andThen (.forEach _ (fun n s => s.showNode_within p n) _)

theorem State.dropNode_within (p n : Nat) : Within [.parts, .stk] [0x5100, 0x3310] s (s.dropNode p n) :=
  (((s.modPart_within p _).mono.andThen (State.odAdd_within _ 1)).andThen (State.showNode_within _ p n)).andThen
    (State.showTree_within _ p)

theorem State.reapNode_within (p n : Nat) : Within [.parts, .stk] [0x5100, 0x3310] s (s.reapNode p n) := by
  unfold State.reapNode
  split
  · exact .ite (fun _ => s.dropNode_within p n) fun _ => .refl s
  · exact .refl s

theorem State.releaseNodes_within (p : Nat) (l : List Nat) :
    Within [.parts, .stk] [0x5100, 0x3310] s (s.releaseNodes p l) :=
  .forEach l (fun n s => (((s.modPart_within p _).mono.andThen (State.showNode_within _ p n))).andThen
    (State.reapNode_within _ p n)) s

/-! ### Records and requests (R246–R250) -/

section requests

variable {p : Nat} (hp : p < 32)
include hp

theorem State.countHeld_within : Within [] [0x5000] s (s.countHeld p) :=
  (s.odSetP_within _ (by decide) (by omega)).mono.andThen (State.odSet_within _ _)

theorem State.countServing_within : Within [] [0x5000, 0x5101, 0x5100] s (s.countServing p) :=
  ((s.countHeld_within hp).mono.andThen (State.odSetP_within _ _ (by decide) (by omega))).andThen
    (State.odSetP_within _ _ (by decide) (by omega))

theorem State.freeEntries_within : Within [.parts] [0x5000] s (s.freeEntries p) :=
  .ite (fun _ => .refl s) fun _ => (s.modPart_within p _).mono.andThen (State.countHeld_within _ hp)

omit hp in
theorem State.writeRecords_within (port : Port) (fn : Nat) (l : List (List Byte)) :
    Within [.out, .rings] [] s (s.writeRecords port fn l).1 := by
  induction l generalizing s with
  | nil => exact .refl s
  | cons b r ih =>
    unfold State.writeRecords
    dsimp only
    split
    · exact .refl s
    · exact ((s.emit_within _).mono.andThen
        (State.modFn_ring_within _ port fn fun x => ⟨_, _, x.unsignalled, x.pba, rfl⟩)).andThen (ih _)

omit hp in
theorem State.pumpRecords_within (port : Port) {fn : Nat} (hfn : vfPart fn < 32) :
    Within [.out, .rings, .parts] [0x5000] s (s.pumpRecords port fn) := by
  have hcoal (t : State) (n : Nat) : Within [.rings] [] t (t.modFn port fn (fun f => { f with unsignalled := n })) :=
    t.modFn_ring_within port fn fun x => ⟨x.cqTail, x.held, n, x.pba, rfl⟩
  have hwritten := s.writeRecords_within port fn (s.fn port fn).held
  have hshown (t : State) (e : Emission) : Within [.out, .rings, .parts] [0x5000] t ((t.freeEntries (vfPart fn)).emit e) :=
    (t.freeEntries_within hfn).mono.andThen (State.emit_within _ _)
  unfold State.pumpRecords
  split
  · exact .refl s
  · dsimp only
    split
    · exact hwritten.mono
    · split
      · exact ((hwritten.mono.andThen (hshown _ _)).andThen (hcoal _ _)).andThen (State.interrupt_within _ _ _ _)
      · exact (hwritten.mono.andThen (hshown _ _)).andThen (hcoal _ _)

theorem State.postRecord_within (b : List Byte) : Within [.out, .rings, .parts] [0x5000] s (s.postRecord p b) := by
  have hheld : Within [.rings] [] s (s.modVf p (fun f => { f with held := f.held ++ [fitB b 64] })) :=
    s.modFn_ring_within _ _ fun x => ⟨x.cqTail, _, x.unsignalled, x.pba, rfl⟩
  have hpumped := (hheld.mono (cs := [.out, .rings, .parts]) (ods := [0x5000])).andThen
    (State.pumpRecords_within _ (s.boundPort p) (fn := p + 1) hp)
  unfold State.postRecord
  dsimp only
  split
  · exact hpumped
  · exact hpumped.andThen (State.odAdd_within _ 1)

theorem State.answer_within (tag status detail submitAt : Nat) :
    Within [.out, .rings, .parts] [0x5000] s (s.answer p tag status detail submitAt) := s.postRecord_within hp _

theorem State.refuseReq_within (r code detail : Nat) :
    Within [.out, .rings, .parts, .stk] [0x5000, 0x5100, 0x5101, 0x3310] s (s.refuseReq p r code detail) := by
  unfold State.refuseReq
  split
  · exact .refl s
  · rename_i x _
    have hgone : Within [.out, .rings, .parts, .stk] [0x5000, 0x5100, 0x5101, 0x3310] s
        ((s.releaseNodes p x.nodes).modPart p (fun P => { P with reqs := mdel P.reqs r })) :=
      (s.releaseNodes_within p x.nodes).mono.andThen (State.modPart_within _ _ _)
    refine .andThen (.andThen ?_ (State.answer_within _ hp _ _ _ _)) (State.countServing_within _ hp)
    exact .ite (fun _ => hgone.andThen (State.odAdd_within _ 1))
      fun _ => .ite (fun _ => hgone.andThen (State.odAdd_within _ 1)) fun _ => hgone

theorem State.promptFails_within (r code : Nat) :
    Within [.out, .rings, .parts, .stk] [0x5000, 0x5100, 0x5101, 0x3310] s (s.promptFails p r code) := by
  unfold State.promptFails
  split
  · exact .refl s
  · exact .ite (fun _ => s.refuseReq_within hp r code 0) fun _ => .refl s

end requests

/-! ### Streams of the fabric (R303, R305) -/

theorem State.sendPkt_within (typ : Nat) (q : FalramPkt) : Within [.out] [0x6100] s (s.sendPkt typ q) :=
  .ite (fun _ => .refl s) fun _ => (s.emit_within _).mono.andThen (State.odAdd_within _ 1)

theorem State.sendSealed_within (part kslot : Nat) (enc : Bool) (typ : Nat) (q : FalramPkt) :
    Within [.out] [0x6100] s (s.sendSealed part kslot enc typ q) := by
  unfold State.sendSealed
  split <;> exact s.sendPkt_within _ _

theorem State.endTx_within (k code : Nat) : Within [.fabric, .parts] [0x6110] s (s.endTx k code) := by
  have hk : k % 32 < 256 := by omega
  unfold State.endTx
  split
  · exact .refl s
  · dsimp only
    split
    · split
      · exact (within_fabric s _).mono.andThen (State.modPart_within _ _ _)
      · exact (within_fabric s _).mono
    · exact (((within_fabric s _).mono.andThen (State.odSetP_within _ _ (by decide) hk)).andThen
        (State.odSetP_within _ _ (by decide) hk)).andThen (State.odSetP_within _ _ (by decide) hk)

theorem State.closeTx_within (k status code : Nat) :
    Within [.out, .fabric, .parts] [0x6100, 0x6110] s (s.closeTx k status code) := by
  unfold State.closeTx
  split
  · exact .refl s
  · exact .andThen (.ite (fun _ => .refl s) fun _ => (s.sendSealed_within _ _ _ _ _).mono) (State.endTx_within _ _ _)

theorem State.dropRx_within (p : Nat) : Within [.fabric] [] s (s.dropRx p) := within_fabric s _

theorem State.reportGroup_within (p : Nat) (joined : Bool) : Within [.out] [] s (s.reportGroup p joined) := by
  unfold State.reportGroup
  split
  · exact .ite (fun _ => s.emit_within _) fun _ => .refl s
  · exact .refl s

/-! ### Maintenance locks (R344, R407) -/

theorem State.showActs_within : Within [] [0x7101] s s.showActs :=
  (s.odSet_within _).andThen (State.odSet_within _ _)

/-- Activities in progress or queued change, and the entries that show them. -/
theorem within_activities (acts : List Activity) (queue : List Queued) :
    Within [.acts] [0x7101] s ({ s with hub := { s.hub with acts := acts, queue := queue } }).showActs := by
  refine .andThen (cs := [.acts]) (ods := [0x7101]) (t := { s with hub := { s.hub with acts := acts, queue := queue } }) ?_
    (State.showActs_within _)
  constructor <;> simp [State.fn, State.odP]
  exact ⟨acts, queue, s.hub.fieldsDue, .refl _⟩

theorem State.endAct_within (k : ActKind) : Within [.acts] [0x7101] s (s.endAct k) := within_activities s _ s.hub.queue

theorem State.unqueue_within (k : ActKind) : Within [.acts] [0x7101] s (s.unqueue k) := within_activities s s.hub.acts _

theorem State.queueAct_within (k : ActKind) (fields : Nat) (cmd : List Byte) :
    Within [.acts] [0x7101] s (s.queueAct k fields cmd) := within_activities s s.hub.acts _

theorem State.abandonRotation_within (f row : Nat) :
    Within [.fields, .acts] [0x2300, 0x7101] s (s.abandonRotation f row) :=
  .ite (fun _ => .refl s) fun _ =>
    ((s.modField_within f _).mono.andThen (State.odAdd_within _ 1)).andThen (within_activities _ _ (State.hub _).queue)

theorem State.abandonRotations_within (f : Nat) : Within [.fields, .acts] [0x2300, 0x7101] s (s.abandonRotations f) :=
  .forEach (s.field f).rot (fun (e : Nat × RotPhase) s => s.abandonRotation_within f e.1) s

theorem State.yieldField_within (f : Nat) : Within [.fields, .acts] [0x2300, 0x7101] s (s.yieldField f) :=
  (s.abandonRotations_within f).andThen (within_activities _ _ (State.hub _).queue)

theorem State.startAct_within (k : ActKind) (fields : Nat) :
    Within [.fields, .acts] [0x2300, 0x7101] s (s.startAct k fields) :=
  .andThen (.ite (fun _ => .refl s) fun _ => .forEach _ (fun f s => s.yieldField_within f) s)
    (within_activities _ _ (State.hub _).queue)

end Sys2Proof.Machine
end

section
/-!
SUPPORT. The frames of the end of requests, programs and model commands, of trace, faults and dark fields.
-/

-- One proof after another: side conditions of frames are default arguments, and proofs elaborated at once would each wait
-- for the kernel in a thread of their own, past the memory limit.
set_option Elab.async false

namespace Sys2Proof.Machine

variable (s : State)

/-! ### Requests and programs -/

theorem State.modReq_within (p r : Nat) (f : Request → Request) : Within [.parts] [] s (s.modReq p r f) := by
  unfold State.modReq
  split
  · exact .refl s
  · exact s.modPart_within p _

theorem State.endRequest_within (p r status reason detail : Nat) :
    Within [.parts] [] s (s.endRequest p r status reason detail) := s.modReq_within p r _

theorem State.modHandle_within (p h : Nat) (f : Handle → Handle) : Within [.parts] [] s (s.modHandle p h f) :=
  s.modPart_within p _

theorem State.endJob_within (p r group : Nat) : Within [.parts] [] s (s.endJob p r group) := s.modPart_within p _

theorem State.stopTile_within (t : TileId) : Within [.tiles, .routers] [] s (s.stopTile t) :=
  (s.modTile_within t _).mono.andThen (State.modRouter_within _ t _)

theorem State.dropRoutes_within (p : Nat) : Within [.routers, .mesh] [] s (s.dropRoutes p) :=
  (Within.forEach s.routers (fun (e : Nat × Router) s => s.modRouter_within (tileAt e.1) _) s).mono.andThen
    (within_mesh _ _)

theorem State.countPadded_within : Within [] [0x3500] s s.countPadded := s.odSet_within _

/-- The entries that serving shows, at 0. -/
theorem State.zeroed_within {p : Nat} (hp : p < 32) : Within [] [0x5000, 0x5200, 0x7000, 0x3501] s
    (s.forEach [(0x5000, 4), (0x5000, 5), (0x5000, 6), (0x5200, 7), (0x5200, 8), (0x7000, 7), (0x3501, 1), (0x3501, 4)]
      (fun e s => s.odSetP e.1 e.2 p (odDefault e.1 e.2))) := by
  refine .forEach_mem _ (fun e he s => ?_) s
  have hentry : e.1 ∈ [0x5000, 0x5200, 0x7000, 0x3501] ∧ e.2 < 256 := by
    revert e
    decide
  exact (s.odSetP_within _ hentry.2 (by omega)).mono (by decide) (fun i hi => List.mem_singleton.mp hi ▸ hentry.1)

theorem State.unload_within {p : Nat} (hp : p < 32) :
    Within [.tiles, .routers, .mesh, .parts] [0x5000, 0x5200, 0x7000, 0x3501, 0x3500] s (s.unload p) := by
  unfold State.unload
  split
  · exact .refl s
  · rename_i g _
    have hstopped : Within [.tiles, .routers, .mesh, .parts] [0x5000, 0x5200, 0x7000, 0x3501, 0x3500] s
        (s.forEach g.tiles (fun e s => s.stopTile e.1)) :=
      (Within.forEach g.tiles (fun e s => s.stopTile_within e.1) s).mono
    exact (((hstopped.andThen (State.dropRoutes_within _ p)).andThen (State.modPart_within _ p _)).andThen
      (State.zeroed_within _ hp)).andThen (State.countPadded_within _)

theorem State.stopServing_within (p : Nat) : Within [.parts] [] s (s.stopServing p) := s.modPart_within p _

section requests

variable {p : Nat} (hp : p < 32)
include hp

theorem State.freeRequest_within (r : Nat) :
    Within [.out, .rings, .parts, .stk] [0x5000, 0x5100, 0x5101, 0x3310] s (s.freeRequest p r) := by
  unfold State.freeRequest
  split
  · exact .refl s
  · rename_i x _
    have hreleased : Within [.out, .rings, .parts, .stk] [0x5000, 0x5100, 0x5101, 0x3310] s (s.releaseNodes p x.nodes) :=
      (s.releaseNodes_within p x.nodes).mono
    have hended (j : PrefixJob) (t : State) : Within [.parts, .stk] [0x5100, 0x3310] t ((t.endJob p r j.group).dropNode p j.node) :=
      (t.endJob_within p r j.group).mono.andThen (State.dropNode_within _ p j.node)
    have hjobs := hreleased.andThen
      (Within.forEach (((s.releaseNodes p x.nodes).part p).jobs.filter (fun j => j.req == r)) hended _)
    exact ((((hjobs.andThen (State.modPart_within _ p _)).andThen (State.modReq_within _ p r _)).andThen
      (State.postRecord_within _ hp _)).andThen
      (.forEach x.cancels (fun (c : Nat × Nat) s => s.answer_within hp c.1 0 0 c.2) _)).andThen (State.countServing_within _ hp)

theorem State.endHeld_within (code cancelCode : Nat) :
    Within [.out, .rings, .parts, .stk] [0x5000, 0x5100, 0x5101, 0x3310] s (s.endHeld p code cancelCode) := by
  have hended (e : Nat × Request) (t : State) : Within [.out, .rings, .parts, .stk] [0x5000, 0x5100, 0x5101, 0x3310] t
      (if e.2.recorded then t
       else if e.2.st = .admitting then t.refuseReq p e.1 code 0
       else ((t.endRequest p e.1 code 3 0).modReq p e.1
        (fun x => { x with out := 0, kv := x.kv.map (fun k => (k.1, { k.2 with inflight := false })) })).freeRequest p e.1) :=
    .ite (fun _ => .refl t) fun _ => .ite (fun _ => t.refuseReq_within hp _ _ _) fun _ =>
      ((t.endRequest_within p e.1 code 3 0).mono.andThen (State.modReq_within _ p e.1 _)).andThen
        (State.freeRequest_within _ hp _)
  exact ((Within.forEach (s.part p).reqs hended s).andThen (State.modPart_within _ p _)).andThen
    (.forEach _ (fun (d : Nat × List Byte) s => s.answer_within hp (fieldN d.2 8 8) cancelCode 0 d.1) _)

theorem State.endModelCmd_within (code : Nat) :
    Within [.out, .rings, .parts, .stk, .tiles, .routers, .mesh, .acts]
      [0x5000, 0x5100, 0x5101, 0x3310, 0x5200, 0x7000, 0x3501, 0x3500, 0x7101] s (s.endModelCmd p code) := by
  have hended (t : State) : Within [.out, .rings, .parts, .stk, .tiles, .routers, .mesh, .acts]
      [0x5000, 0x5100, 0x5101, 0x3310, 0x5200, 0x7000, 0x3501, 0x3500, 0x7101] t
      (((((((t.modPart p (fun P => { P with cmd := .none, endCode := 0 })).odSetP 0x5200 2 p 0).odSetP 0x5200 3 p code)).unqueue
        (.install p)).endAct (.install p)).endAct (.evacuation p)) :=
    ((((((t.modPart_within p _).mono.andThen (State.odSetP_within _ _ (by decide) (by omega))).andThen
      (State.odSetP_within _ _ (by decide) (by omega))).andThen (State.unqueue_within _ _)).andThen
      (State.endAct_within _ _)).andThen (State.endAct_within _ _))
  unfold State.endModelCmd
  split
  · exact .refl s
  · dsimp only
    refine .andThen ?_ (hended _)
    split
    · exact .ite (fun _ => .refl s) fun _ => (s.modHandle_within p _ _).mono
    · exact .ite (fun _ => ((s.endHeld_within hp 0x020C 0x0109).mono.andThen (State.unload_within _ hp)).andThen
        (State.modPart_within _ p _)) fun _ => .refl s
    · exact .refl s

theorem State.endStage_within (code : Nat) :
    Within [.out, .rings, .parts, .stk, .tiles, .routers, .mesh, .acts, .fabric]
      [0x5000, 0x5100, 0x5101, 0x3310, 0x5200, 0x7000, 0x3501, 0x3500, 0x7101, 0x6100, 0x6110] s (s.endStage p code) :=
  ((((s.closeTx_within _ _ _).mono.andThen (State.dropRx_within _ p)).andThen (State.reportGroup_within _ p _)).andThen
    (State.endModelCmd_within _ hp code))

theorem State.endModel_within (code : Nat) :
    Within [.out, .rings, .parts, .stk, .tiles, .routers, .mesh, .acts, .fabric]
      [0x5000, 0x5100, 0x5101, 0x3310, 0x5200, 0x7000, 0x3501, 0x3500, 0x7101, 0x6100, 0x6110] s (s.endModel p code) := by
  unfold State.endModel
  split
  · exact .refl s
  · exact s.endStage_within hp code
  · exact (s.endModelCmd_within hp code).mono

end requests

/-! ### Trace and halts (R196, R200) -/

theorem State.modCc_within (t : TileId) (f : Core → Core) : Within [.tiles] [] s (s.modCc t f) := s.modTile_within t _

theorem State.traceStore_within (t : TileId) (x y : Nat) (r : List Byte) :
    Within [.stk, .tiles] [] s (s.traceStore t x y r) := by
  unfold State.traceStore
  exact .ite (fun _ => .refl s) fun _ => .ite (fun _ => (within_stk s _).mono.andThen (State.modCc_within _ t _))
    fun _ => (s.modCc_within t _).mono

theorem State.traceWrite_within (t : TileId) (typ : Nat) (data : List Byte) :
    Within [.stk, .tiles] [0x7000] s (s.traceWrite t typ data) := by
  unfold State.traceWrite
  dsimp only
  split
  · exact .refl s
  · refine .ite (fun _ => .ite (fun _ => (s.modCc_within t _).mono)
      fun _ => (s.modCc_within t _).mono.andThen (State.odAdd_within _ 1)) fun _ => ?_
    exact (Within.forEach _ (fun r s => s.traceStore_within t _ _ r) s).mono.andThen (State.modCc_within _ t _)

theorem State.trace_within (t : TileId) (typ : Nat) (data : List Byte) :
    Within [.stk, .tiles] [0x7000] s (s.trace t typ data) := .ite (fun _ => .refl s) fun _ => s.traceWrite_within t typ data

theorem State.resumeCore_within (t : TileId) : Within [.stk, .tiles] [0x7000] s (s.resumeCore t) :=
  .ite (fun _ => (s.modCc_within t _).mono.andThen (State.trace_within _ t _ _)) fun _ => (s.modCc_within t _).mono

theorem State.resumePart_within {p : Nat} (hp : p < 32) : Within [.stk, .tiles] [0x7000] s (s.resumePart p) :=
  (Within.forEach _ (fun t s => s.resumeCore_within t) s).andThen (State.odSetP_within _ _ (by decide) (by omega))

/-! ### Faults of a partition (R318, R319) -/

theorem State.faultPart_within {p : Nat} (hp : p < 32) (code : Nat) :
    Within [.out, .rings, .parts, .stk, .tiles, .routers, .mesh, .acts]
      [0x5000, 0x5100, 0x5101, 0x3310, 0x5200, 0x7000, 0x3501, 0x3500, 0x7101, 0x4002] s (s.faultPart p code) := by
  unfold State.faultPart
  refine .ite (fun _ => .refl s) fun _ => ?_
  dsimp only
  refine .andThen (.ite (fun _ => ?_) fun _ => .andThen ?_ (State.resumePart_within _ hp)) (State.log_within _ _)
  all_goals
    refine .andThen (.andThen (.andThen ?_ (State.odSet_within _ _ (by omega))) (State.endHeld_within _ hp _ _))
      (State.stopServing_within _ p)
    refine .ite (fun _ => (s.endModelCmd_within hp _).mono) fun _ => .refl s

theorem State.faultOwner_within (f code : Nat) :
    Within [.out, .rings, .parts, .stk, .tiles, .routers, .mesh, .acts]
      [0x5000, 0x5100, 0x5101, 0x3310, 0x5200, 0x7000, 0x3501, 0x3500, 0x7101, 0x4002] s (s.faultOwner f code) := by
  unfold State.faultOwner
  split
  · exact .refl s
  · rename_i p howner
    exact s.faultPart_within (State.partOfField_lt howner) code

/-! ### Dark fields -/

theorem State.loseField_within (f : Nat) : Within [.tiles, .routers, .mesh] [] s (s.loseField f) := by
  constructor <;> simp [State.loseField, State.fn, State.odP]

theorem State.goDark_within {f : Nat} (hf : f < 64) (st : Nat) (why : OffCause) :
    Within [.fields, .acts, .tiles, .routers, .mesh, .power] [0x2300, 0x7101, 0x2101, 0x7103, 0x2107, 0x3500] s
      (s.goDark f st why) :=
  (((((((s.abandonRotations_within f).mono.andThen (State.loseField_within _ f)).andThen
    (State.modField_within _ f _)).andThen (within_power _ _)).andThen (State.odSet_within _ _ (by omega))).andThen
    (State.odSet_within _ _ (by omega))).andThen (State.odSet_within _ _ (by omega))).andThen (State.countPadded_within _)

theorem State.requestOn_within (f : Nat) : Within [.power] [] s (s.requestOn f) :=
  .ite (fun _ => .refl s) fun _ => within_power s _

end Sys2Proof.Machine
end

section
/-!
SUPPORT. Host reads that complete, fail, time out and are retried, and the loss of a secure stream (R287, R291, R292).
-/

-- One proof after another: side conditions of frames are default arguments, and proofs elaborated at once would each wait
-- for the kernel in a thread of their own, past the memory limit.
set_option Elab.async false

namespace Sys2Proof.Machine

variable {s : State} {port : Port} {fn : Nat}

theorem portNum_add_lt (port : Port) : 6 + portNum port < 256 := by cases port <;> decide

/-- An AER error sets its bit, is counted for the port, and logs. -/
theorem State.aerError_fn (s : State) (port : Port) (fn error : Nat) :
    (s.aerError port fn error).fn port fn = { s.fn port fn with aer := setBit (s.fn port fn).aer error true } := by
  rw [State.aerError, State.log_fn, State.odAdd_fn, State.fn_modFn_same]

theorem State.aerError_count (s : State) (port : Port) (fn error : Nat) :
    (s.aerError port fn error).odG 0x6000 (6 + portNum port) = s.odG 0x6000 (6 + portNum port) + 1 := by
  rw [State.aerError, State.log_odG _ _ (by decide) (portNum_add_lt port), State.odG_odAdd_same]
  rfl

theorem State.aerError_within (s : State) (port : Port) (fn error : Nat) :
    Within [.fns] [0x6000] s (s.aerError port fn error) :=
  ((s.modFn_within port fn _).mono.andThen (State.odAdd_within _ 1 (portNum_add_lt port))).andThen (State.log_within _ _)

theorem State.violate_within (s : State) (port : Port) (fn status value addr : Nat) :
    Within [.out, .fns, .rings] [0x6000] s (s.violate port fn status value addr) := by
  unfold State.violate
  dsimp only
  split
  · exact ((s.modFn_within port fn _).mono.andThen (State.odAdd_within _ 1 (portNum_add_lt port))).andThen
      (State.log_within _ _)
  · exact (((s.modFn_within port fn _).mono.andThen (State.odAdd_within _ 1 (portNum_add_lt port))).andThen
      (State.log_within _ _)).andThen (State.interrupt_within _ port fn 2)

/-- A host read that fails is counted (R292). -/
theorem State.hostError_count (s : State) (port : Port) (fn code addr : Nat) :
    (s.hostError port fn code addr).odG 0x6000 8 = s.odG 0x6000 8 + 1 := by
  have hsub : (8 : Nat) ≠ 6 + portNum port := by cases port <;> decide
  have hlogged (t : State) (a : LogArgs) : ((t.odAdd 0x6000 (6 + portNum port) 1).log a).odG 0x6000 8 = t.odG 0x6000 8 := by
    rw [State.log_odG _ _ (by decide) (by decide), State.odG_odAdd_ne _ (.inr hsub) (by decide) (portNum_add_lt port)]
  unfold State.hostError State.violate
  dsimp only
  split <;> simp only [State.interrupt_odG, hlogged, State.odG_modFn, State.odG_odAdd_same]

theorem State.hostError_within (s : State) (port : Port) (fn code addr : Nat) :
    Within [.out, .fns, .rings] [0x6000] s (s.hostError port fn code addr) :=
  ((s.modFn_within port fn _).mono.andThen (State.odAdd_within _ 1)).andThen (State.violate_within _ _ _ _ _ _)

theorem State.clearRetry_within (s : State) (port : Port) (use : HostReadUse) :
    Within [.fns] [] s (s.clearRetry port use) := s.modFn_within port _ _

/-! ### Submission reads -/

section slots

variable {n : Nat} (h0 : fn ≠ 0) (code : Nat)
include h0

/-- The state of the function in which a submission read has failed, before its host error. -/
def slotsFailed (f : Function) (fn : Nat) : Function :=
  { f with reading := none, blocked := true, hostErr := true,
           retrying := dropFirst (fun u => u == HostReadUse.fetch fn) f.retrying }

omit h0 in
theorem State.slotsFail_eq (s : State) (port : Port) (fn code : Nat) : s.slotsFail port fn code =
    ((s.modFn port fn (fun f => slotsFailed f fn)).odAdd 0x6000 8 1).violate port fn code 0
      ((s.fn port fn).sqBase + (s.fn port fn).fetched % 2 ^ (s.fn port fn).sqSize * 128) := by
  rw [State.slotsFail, State.hostError, State.modFn_modFn_same]
  rfl

omit h0 in
theorem State.slotsFail_fn (s : State) (port : Port) (fn code : Nat) : (s.slotsFail port fn code).fn port fn =
    violated (slotsFailed (s.fn port fn) fn) fn code 0
      ((s.fn port fn).sqBase + (s.fn port fn).fetched % 2 ^ (s.fn port fn).sqSize * 128) := by
  rw [State.slotsFail_eq, State.violate_fn_same, State.odAdd_fn, State.fn_modFn_same]

theorem State.slotsFail_out : (s.slotsFail port fn code).out = s.out ++ signalOut port fn (s.fn port fn) 2 := by
  rw [State.slotsFail_eq, State.violate_out _ _ _ h0, State.odAdd_fn, State.fn_modFn_same]
  rfl

omit h0 in
theorem State.slotsFail_hostErrors : (s.slotsFail port fn code).odG 0x6000 8 = s.odG 0x6000 8 + 1 := by
  rw [State.slotsFail, State.hostError_count, State.odG_modFn]

theorem State.slotsFail_violations :
    (s.slotsFail port fn code).odG 0x6000 (6 + portNum port) = s.odG 0x6000 (6 + portNum port) + 1 := by
  have hsub : 6 + portNum port ≠ 8 := by cases port <;> decide
  rw [State.slotsFail_eq, State.violate_count _ _ _ h0, State.odG_odAdd_ne _ (.inr hsub) (portNum_add_lt port) (by decide),
    State.odG_modFn]

/-- What a failed submission read leaves of its function (R292): FETCHED stays, and the next doorbell fetches again. -/
theorem violated_slotsFailed (f : Function) (addr : Nat) : ∃ pba,
    violated (slotsFailed f fn) fn code 0 addr =
      { slotsFailed f fn with viol := true, violStatus := code, violValue := 0, vaddr := addr, pba := pba } := by
  obtain ⟨pba, h⟩ := signalled_frame ({ slotsFailed f fn with viol := true, violStatus := code, violValue := 0, vaddr := addr }) 2
  exact ⟨pba, (if_neg h0).trans h⟩

end slots

section commands

variable (hbound : s.bound port fn = true)
include hbound

theorem bound_ne_zero : fn ≠ 0 := by
  rintro rfl
  exact absurd hbound (by simp [State.bound])

theorem readPending_fetch : s.readPending port (.fetch fn) = (s.fn port fn).reading.isSome := by
  simp [State.readPending, readFn, hbound]

section reading

variable {n : Nat} (hreading : (s.fn port fn).reading = some n)
include hreading

theorem exec_completion_slots (b : List Byte) :
    exec (.hostReadCompletion port (.fetch fn) (.data b)) s = .next (s.slotsArrive port fn b) :=
  guardRes_next rfl (by simp [readPending_fetch hbound, hreading, State.readArrives])

theorem exec_completion_slotsFail {r : HostReadResult} (hr : r = .unsupported ∨ r = .aborted ∨ r = .poisoned) :
    exec (.hostReadCompletion port (.fetch fn) r) s = .next (s.slotsFail port fn 0x0A02) := by
  refine guardRes_next rfl ?_
  rcases hr with rfl | rfl | rfl <;> simp [readPending_fetch hbound, hreading, State.readFails]

theorem answers_slots (b : List Byte) : Answers (.hostReadCompletion port (.fetch fn) (.data b)) s (fun u =>
    (u.fn port fn).fetched = ((s.fn port fn).fetched + n) % 65536 ∧ (u.fn port fn).reading = none ∧
    (u.fn port fn).descs = (s.fn port fn).descs ++ (List.range n).map (fun i => sliceB b (128 * i) 128) ∧
    (u.fn port fn).taken = (s.fn port fn).taken ∧ (u.fn port fn).cqTail = (s.fn port fn).cqTail ∧ u.out = s.out) := by
  refine ⟨_, exec_completion_slots hbound hreading b, ?_⟩
  simp only [State.slotsArrive, hreading, State.fn_modFn_same]
  exact ⟨trivial, trivial, trivial, trivial, trivial, rfl⟩

theorem answers_slotsFail {r : HostReadResult} (hr : r = .unsupported ∨ r = .aborted ∨ r = .poisoned) :
    Answers (.hostReadCompletion port (.fetch fn) r) s (fun u =>
      (u.fn port fn).hostErr = true ∧ (u.fn port fn).blocked = true ∧ (u.fn port fn).reading = none ∧
      (u.fn port fn).fetched = (s.fn port fn).fetched ∧ (u.fn port fn).descs = (s.fn port fn).descs ∧
      u.odG 0x6000 8 = s.odG 0x6000 8 + 1 ∧
      u.odG 0x6000 (6 + portNum port) = s.odG 0x6000 (6 + portNum port) + 1 ∧ (u.fn port fn).viol = true ∧
      (u.fn port fn).violStatus = 0x0A02 ∧
      (u.fn port fn).vaddr = (s.fn port fn).sqBase + (s.fn port fn).fetched % 2 ^ (s.fn port fn).sqSize * 128 ∧
      u.out = s.out ++ signalOut port fn (s.fn port fn) 2) := by
  have h0 := bound_ne_zero hbound
  refine answers_next (exec_completion_slotsFail hbound hreading hr) ?_
  rw [State.slotsFail_fn, State.slotsFail_out h0, State.slotsFail_hostErrors, State.slotsFail_violations h0]
  obtain ⟨pba, hfn⟩ := violated_slotsFailed h0 0x0A02 (s.fn port fn) ((s.fn port fn).sqBase + (s.fn port fn).fetched % 2 ^ (s.fn port fn).sqSize * 128)
  rw [hfn]
  exact ⟨rfl, rfl, rfl, rfl, rfl, rfl, rfl, rfl, rfl, rfl, rfl⟩

theorem setsFn_firstTimeout (hfirst : HostReadUse.fetch fn ∉ (s.fn port fn).retrying) :
    SetsFn (.hostReadTimeout port (.fetch fn)) s port fn
      { s.fn port fn with retrying := (s.fn port fn).retrying ++ [.fetch fn] } := by
  have hexec : exec (.hostReadTimeout port (.fetch fn)) s = .next (s.modFn port fn (fun f =>
      { f with retrying := f.retrying ++ [.fetch fn] })) := by
    refine guardRes_next rfl ?_
    simp [readPending_fetch hbound, hreading, readFn, hfirst]
  exact setsFn_of_exec hexec rfl

omit hbound hreading in
theorem noEffect_retry_first (hfirst : HostReadUse.fetch fn ∉ (s.fn port fn).retrying) :
    NoEffect (.hostReadRetry port (.fetch fn)) s := by
  refine guardRes_next rfl ?_
  simp [readFn, hfirst]

theorem exec_retry (hretry : HostReadUse.fetch fn ∈ (s.fn port fn).retrying) :
    exec (.hostReadRetry port (.fetch fn)) s = .next (s.emit (.hostRead port fn
      ((s.fn port fn).sqBase + (s.fn port fn).fetched % 2 ^ (s.fn port fn).sqSize * 128) (n * 128) (.fetch fn))) := by
  refine guardRes_next rfl ?_
  simp [readPending_fetch hbound, hreading, readFn, hretry, State.readAgain, State.askSlots, slotsLog]

theorem answers_secondTimeout (hretry : HostReadUse.fetch fn ∈ (s.fn port fn).retrying) :
    Answers (.hostReadTimeout port (.fetch fn)) s (fun u => (u.fn port fn).hostErr = true ∧
      (u.fn port fn).reading = none ∧ (u.fn port fn).blocked = true ∧
      (u.fn port fn).fetched = (s.fn port fn).fetched) := by
  have hexec : exec (.hostReadTimeout port (.fetch fn)) s = .next (s.slotsFail port fn 0x0A01) := by
    refine guardRes_next rfl ?_
    simp [readPending_fetch hbound, hreading, readFn, hretry, State.readFails]
  refine answers_next hexec ?_
  obtain ⟨pba, hfn⟩ := violated_slotsFailed (bound_ne_zero hbound) 0x0A01 (s.fn port fn) ((s.fn port fn).sqBase + (s.fn port fn).fetched % 2 ^ (s.fn port fn).sqSize * 128)
  rw [State.slotsFail_fn, hfn]
  exact ⟨rfl, rfl, rfl, rfl⟩

end reading

section idle

variable (hidle : (s.fn port fn).reading = none)
include hidle

theorem answers_unexpected (r : HostReadResult) : Answers (.hostReadCompletion port (.fetch fn) r) s (fun u =>
    u.fn port fn = { s.fn port fn with aer := setBit (s.fn port fn).aer 16 true } ∧
    u.odG 0x6000 (6 + portNum port) = s.odG 0x6000 (6 + portNum port) + 1 ∧ u.out = s.out ∧ u.parts = s.parts ∧
    u.tiles = s.tiles ∧ u.stk = s.stk) := by
  have hframe := s.aerError_within port fn 16
  refine ⟨s.aerError port fn 16, guardRes_next rfl ?_, s.aerError_fn port fn 16, s.aerError_count port fn 16,
    hframe.out (by decide), hframe.parts (by decide), hframe.tiles (by decide), hframe.stk (by decide)⟩
  simp [readPending_fetch hbound, hidle, readFn]

theorem noEffect_timeout_idle : NoEffect (.hostReadTimeout port (.fetch fn)) s :=
  guardRes_next rfl (by simp [readPending_fetch hbound, hidle])

theorem noEffect_retry_idle : NoEffect (.hostReadRetry port (.fetch fn)) s :=
  guardRes_next rfl (by simp [readPending_fetch hbound, hidle])

end idle

end commands

/-! ### Reads of prompts and stages -/

section prompts

variable {p : Nat} (hbound : s.bound port (p + 1) = true)
include hbound

/-- A prompt read that fails ends its request (R287, R292). -/
theorem answers_promptRead {r : Nat} {x : Request} (hreq : s.req p r = some x) (hst : x.st = .admitting)
    (hhost : x.fromStack = false) :
    Answers (.hostReadCompletion port (.prompt p r) .poisoned) s (fun u => u.req p r = none) := by
  have hpending : s.readPending port (.prompt p r) = true := by
    simp [State.readPending, readFn, hbound, State.promptReads, hreq, hst, hhost]
  refine ⟨_, guardRes_next rfl (by simp only [hpending]; rfl), ?_⟩
  have hframe : Within [.out, .fns, .rings] [0x6000] s
      ((s.hostError port (p + 1) 0x0A02 (s.readAddr (.prompt p r))).clearRetry port (.prompt p r)) :=
    (s.hostError_within port (p + 1) _ _).andThen (State.clearRetry_within _ _ _)
  have hreq' : ((s.hostError port (p + 1) 0x0A02 (s.readAddr (.prompt p r))).clearRetry port (.prompt p r)).req p r = some x := by
    rw [State.req, hframe.part p]
    exact hreq
  rw [State.readFails, State.promptFails_admitting hreq' hst]
  exact State.refuseReq_req hreq' _ _

/-- A stage read that fails ends its stage with 0x0A02 (R268, R292). -/
theorem answers_stageRead (hp : p < 32) {h source len got : Nat} {next : Option Nat} {bad : Bool}
    (hcmd : (s.part p).cmd = .stage h 0 source len got next bad) :
    Answers (.hostReadCompletion port (.stage p) .aborted) s (fun u =>
      (u.part p).cmd = .none ∧ u.odP 0x5200 3 p = 0x0A02) := by
  have hpending : s.readPending port (.stage p) = true := by
    simp [State.readPending, readFn, hbound, State.stageReads, hcmd]
  refine ⟨_, guardRes_next rfl (by simp only [hpending]; rfl), ?_⟩
  have hframe : Within [.out, .fns, .rings] [0x6000] s
      ((s.hostError port (p + 1) 0x0A02 (s.readAddr (.stage p))).clearRetry port (.stage p)) :=
    (s.hostError_within port (p + 1) _ _).andThen (State.clearRetry_within _ _ _)
  have hcmd' := hcmd
  rw [← hframe.part p] at hcmd'
  obtain ⟨hended, -, -, hstatus⟩ := State.endStage_stage hp hcmd' (code := 0x0A02) (by decide) (by decide)
  exact ⟨hended, hstatus⟩

end prompts

/-! ### The loss of a secure stream (R291) -/

/-- A function whose stream has left the secure state: its rings do not move, and nothing is being read for it. -/
def StreamLost (f : Function) : Prop := f.ideSet = none ∧ f.ideErr = true ∧ f.ideBroken = true ∧ f.reading = none

theorem StreamLost.of_ringMoved {f g : Function} (h : StreamLost f) (hfg : RingMoved f g) : StreamLost g := by
  obtain ⟨_, _, _, _, rfl⟩ := hfg
  exact h

theorem StreamLost.ringsMove (h : StreamLost (s.fn port fn)) : s.ringsMove port fn = false := by
  obtain ⟨hset, -, hbroken, -⟩ := h
  simp [State.ringsMove, hset, hbroken]

theorem noEffect_ideStreamFailure (hfn : fn ≤ 32) (hset : (s.fn port fn).ideSet = none) :
    NoEffect (.ideStreamFailure port fn) s :=
  guardRes_next (by simp [Instr.wf, fnOk, hfn]) (by simp [State.streamFails, hset])

/-- The function's own stream is lost, and counted. -/
theorem State.ideFail_lost (hset : (s.fn port fn).ideSet ≠ none) :
    StreamLost (((s.ideFail port fn).dropReads port fn).fn port fn) ∧
      ((s.ideFail port fn).dropReads port fn).odG 0x6000 9 = s.odG 0x6000 9 + 1 := by
  have hsome : (s.fn port fn).ideSet.isNone = false := by simpa [Option.isSome_iff_ne_none] using hset
  have hfn : ((s.ideFail port fn).fn port fn) = signalled { s.fn port fn with ideSet := none, ideErr := true, ideBroken := true } 2 := by
    simp only [State.ideFail, hsome]
    exact (State.interrupt_fn_same _ port fn 2).trans (by rw [State.odAdd_fn, State.fn_modFn_same])
  obtain ⟨pba, hsignal⟩ := signalled_frame ({ s.fn port fn with ideSet := none, ideErr := true, ideBroken := true }) 2
  constructor
  · rw [State.dropReads, State.fn_modFn_same, hfn, hsignal]
    exact ⟨rfl, rfl, rfl, rfl⟩
  · rw [State.dropReads, State.odG_modFn]
    simp only [State.ideFail, hsome]
    exact (State.interrupt_odG _ port fn 2 _ _).trans (by rw [State.odG_odAdd_same, State.odG_modFn])

/-- What ends with a stream leaves the function's registers but for its completion ring (R291). -/
theorem State.streamFails_within (hfn : vfPart fn < 32) (hset : (s.fn port fn).ideSet ≠ none) :
    Within [.out, .rings, .parts, .stk, .tiles, .routers, .mesh, .acts, .fabric]
      [0x5000, 0x5100, 0x5101, 0x3310, 0x5200, 0x7000, 0x3501, 0x3500, 0x7101, 0x6100, 0x6110]
      ((s.ideFail port fn).dropReads port fn) (s.streamFails port fn) := by
  have hsome : (s.fn port fn).ideSet.isNone = false := by simpa [Option.isSome_iff_ne_none] using hset
  have hprompt (e : Nat × Request) (t : State) : Within [.out, .rings, .parts, .stk] [0x5000, 0x5100, 0x5101, 0x3310] t
      (if t.promptReads (vfPart fn) e.1 then t.promptFails (vfPart fn) e.1 0x0A06 else t) :=
    .ite (fun _ => t.promptFails_within hfn _ _) fun _ => .refl t
  unfold State.streamFails
  rw [if_neg (by simp [hsome])]
  dsimp only
  refine .ite (fun _ => .refl _) fun _ => ?_
  have hprompts := Within.forEach ((((s.ideFail port fn).dropReads port fn).part (vfPart fn)).reqs) hprompt
    ((s.ideFail port fn).dropReads port fn)
  exact .ite (fun _ => hprompts.mono.andThen (State.endStage_within _ hfn _)) fun _ => hprompts.mono

theorem answers_ideStreamFailure (hfn : fn ≤ 32) (hset : (s.fn port fn).ideSet ≠ none) :
    Answers (.ideStreamFailure port fn) s (fun u => (u.fn port fn).ideSet = none ∧ (u.fn port fn).ideErr = true ∧
      (u.fn port fn).reading = none ∧ u.ringsMove port fn = false ∧ u.odG 0x6000 9 = s.odG 0x6000 9 + 1) := by
  obtain ⟨hlost, hcount⟩ := State.ideFail_lost hset
  have hframe := State.streamFails_within (by simp only [vfPart]; omega) hset
  have hlost' := hlost.of_ringMoved (hframe.rings (by decide) port fn)
  refine ⟨s.streamFails port fn, guardRes_next (by simp [Instr.wf, fnOk, hfn]) rfl, hlost'.1, hlost'.2.1, hlost'.2.2.2,
    hlost'.ringsMove, ?_⟩
  rw [hframe.odG (idx := 0x6000), hcount]

end Sys2Proof.Machine

open Sys2Proof Sys2Proof.Machine

/-- Settles O35, by the outcome of a read: its data, a failure, a first and a second timeout, and one that nothing waits
for (R292; its AER bit is log 78, the violation of a failure log 130); and, for the loss of a stream, by the frame of what
ends with it (R291). -/
theorem hostReads : Obligations.HostReads := by
  unfold Obligations.HostReads
  intro s port fn n hbound hfn
  have hback (h1 : 1 ≤ fn) : s.bound port (fn - 1 + 1) = true := by rwa [Nat.sub_add_cancel h1]
  refine ⟨fun hreading => ⟨fun b => answers_slots hbound hreading b, fun r hr => answers_slotsFail hbound hreading hr,
      fun hfirst => ⟨setsFn_firstTimeout hbound hreading hfirst, noEffect_retry_first hfirst⟩,
      fun hretry => ⟨exec_retry hbound hreading hretry, answers_secondTimeout hbound hreading hretry⟩⟩,
    fun hidle => ⟨answers_unexpected hbound hidle, noEffect_timeout_idle hbound hidle, noEffect_retry_idle hbound hidle⟩,
    fun h1 r x hreq hst hhost => answers_promptRead (hback h1) hreq hst hhost,
    fun h1 h source len got next bad hcmd => answers_stageRead (hback h1) (by omega) hcmd,
    fun hset => noEffect_ideStreamFailure hfn hset, fun hset => answers_ideStreamFailure hfn hset⟩
end

section
/-!
SUPPORT. What the reset of a function and of a partition leaves: its frame, the entries that it returns to their defaults,
and the partition's record (R293, R351, R353, R405).
-/

-- One proof after another: side conditions of frames are default arguments, and proofs elaborated at once would each wait
-- for the kernel in a thread of their own, past the memory limit.
set_option Elab.async false

namespace Sys2Proof.Machine

variable (s : State)

/-! ### Entries returned to their defaults (R405) -/

/-- Keys that a filter keeps read as before. -/
theorem mfind_filter_of_keep {α : Type} {m : SMap α} {keep : Nat → Bool} {k : Nat} (hkeep : keep k = true) :
    mfind (m.filter (fun e => keep e.1)) k = mfind m k := by
  induction m with
  | nil => rfl
  | cons e m ih =>
    obtain ⟨k', v⟩ := e
    by_cases hk : k' = k
    · subst hk
      simp [List.filter, hkeep, mfind]
    · by_cases hkeep' : keep k' = true <;> simp [List.filter, hkeep', mfind, hk, ih]

/-- Keys that a filter drops are absent. -/
theorem mfind_filter_of_drop {α : Type} {m : SMap α} {keep : Nat → Bool} {k : Nat} (hdrop : keep k = false) :
    mfind (m.filter (fun e => keep e.1)) k = none := by
  induction m with
  | nil => rfl
  | cons e m ih =>
    obtain ⟨k', v⟩ := e
    by_cases hkeep' : keep k' = true
    · have hk : k' ≠ k := by
        rintro rfl
        exact absurd hkeep' (by simp [hdrop])
      simp [List.filter, hkeep', mfind, hk, ih]
    · simp [List.filter, hkeep', ih]

theorem odKey_parts {idx sub p : Nat} (hsub : sub < 256) (hp : p < 256) :
    odKey idx sub p / 65536 = idx ∧ odKey idx sub p / 256 % 256 = sub ∧ odKey idx sub p % 256 = p := by
  unfold odKey
  omega

/-- A key of the dictionary is kept at a reset: its row is not one that the test names. -/
def odKept (drop : OdRow → Nat → Nat → Bool) (k : Nat) : Bool :=
  match odFind (k / 65536) (k / 256 % 256) with
  | none => true
  | some r => !drop r (k / 256 % 256) (k % 256)

theorem State.odReset_od (drop : OdRow → Nat → Nat → Bool) :
    (s.odReset drop).od = s.od.filter (fun e => odKept drop e.1) := rfl

theorem odKept_odKey (drop : OdRow → Nat → Nat → Bool) {idx sub p : Nat} (hsub : sub < 256) (hp : p < 256) :
    odKept drop (odKey idx sub p) = ((odFind idx sub).map (fun r => !drop r sub p)).getD true := by
  obtain ⟨h1, h2, h3⟩ := odKey_parts (idx := idx) hsub hp
  unfold odKept
  rw [h1, h2, h3]
  cases odFind idx sub <;> rfl

/-- Entries of a row that the test does not name are kept. -/
theorem State.odReset_odP_kept {drop : OdRow → Nat → Nat → Bool} {idx sub p : Nat} (hsub : sub < 256) (hp : p < 256)
    (hkept : ∀ r, odFind idx sub = some r → drop r sub p = false) : (s.odReset drop).odP idx sub p = s.odP idx sub p := by
  have hkeep : odKept drop (odKey idx sub p) = true := by
    rw [odKept_odKey drop hsub hp]
    cases hrow : odFind idx sub with
    | none => rfl
    | some r => simp [hkept r hrow]
  rw [State.odP, State.odReset_od, mfind_filter_of_keep hkeep, State.odP]

/-- Entries of a row that the test names return to their defaults. -/
theorem State.odReset_odP_dropped {drop : OdRow → Nat → Nat → Bool} {idx sub p : Nat} {r : OdRow} (hsub : sub < 256)
    (hp : p < 256) (hrow : odFind idx sub = some r) (hdrop : drop r sub p = true) :
    (s.odReset drop).odP idx sub p = odDefault idx sub := by
  have hgone : odKept drop (odKey idx sub p) = false := by
    rw [odKept_odKey drop hsub hp, hrow]
    simp [hdrop]
  rw [State.odP, State.odReset_od, mfind_filter_of_drop hgone]
  rfl

/-- State, mask, overlay and function version of a partition are not its V-class entries (Table 17.4). -/
theorem State.odResetPart_odG {idx sub : Nat} (p : Nat) (hidx : idx ∈ [0x4002, 0x4003, 0x1211, 0x6002] := by decide)
    (hsub : sub < 256) : (s.odResetPart p).odG idx sub = s.odG idx sub := by
  refine s.odReset_odP_kept hsub (by decide) fun r hrow => ?_
  have hr := odFind_idx hrow
  subst hr
  simp only [List.mem_cons, List.not_mem_nil, or_false] at hidx
  rcases hidx with h | h | h | h <;> simp [h]

/-- What the reset of V-class entries leaves beside the dictionary. -/
theorem State.odResetPart_frame (p : Nat) : ∃ od blob, s.odResetPart p = { s with od := od, odBlob := blob } := ⟨_, _, rfl⟩

@[simp] theorem State.odResetPart_part (p q : Nat) : (s.odResetPart p).part q = s.part q := rfl

/-! ### Functions (R293) -/

theorem State.dropCaller_within (c : Caller) : Within [.hub] [] s (s.dropCaller c) := within_hub s _

theorem State.freeLock_within : Within [.hub] [0x6000] s s.freeLock := (within_hub s _).mono.andThen (State.odSet_within _ _)

/-- A function at its defaults; its IDE stream may stay. -/
def fnDefaults (keepIde : Bool) (f : Function) : Function :=
  if keepIde then { ideKeys := f.ideKeys, ideSet := f.ideSet, ideBroken := f.ideBroken } else {}

/-- A function returned to its defaults, and its mailbox's caller forgotten. -/
def State.freshFn (s : State) (port : Port) (fn : Nat) (keepIde : Bool) : State :=
  (s.modFn port fn (fnDefaults keepIde)).dropCaller (fnCaller port fn)

/-- A function's reset up to the lock. -/
def State.unnegotiated (s : State) (port : Port) (fn : Nat) (keepIde : Bool) : State :=
  if fn != 0 && s.bound port fn then (s.freshFn port fn keepIde).odSet 0x6002 fn 0 else s.freshFn port fn keepIde

theorem State.resetFn_eq (port : Port) (fn : Nat) (keepIde : Bool) : s.resetFn port fn keepIde =
    if fn = 0 ∧ (s.unnegotiated port fn keepIde).hub.lockHolder = pfHolder port then
      (s.unnegotiated port fn keepIde).freeLock
    else s.unnegotiated port fn keepIde := rfl

theorem State.unnegotiated_fns (port : Port) (fn : Nat) (keepIde : Bool) :
    (s.unnegotiated port fn keepIde).fns = (s.modFn port fn (fnDefaults keepIde)).fns := by
  unfold State.unnegotiated
  split <;> rfl

theorem State.unnegotiated_lockHolder (port : Port) (fn : Nat) (keepIde : Bool) :
    (s.unnegotiated port fn keepIde).hub.lockHolder = s.hub.lockHolder := by
  unfold State.unnegotiated
  split <;> rfl

theorem State.unnegotiated_within (port : Port) {fn : Nat} (hfn : fn < 256) (keepIde : Bool) :
    Within [.fns, .hub] [0x6002] s (s.unnegotiated port fn keepIde) := by
  have hfresh : Within [.fns, .hub] [0x6002] s (s.freshFn port fn keepIde) :=
    (s.modFn_within port fn _).mono.andThen (State.dropCaller_within _ _)
  exact .ite (fun _ => hfresh.andThen (State.odSet_within _ _ hfn)) fun _ => hfresh

theorem State.resetFn_within (port : Port) {fn : Nat} (hfn : fn < 256) (keepIde : Bool) :
    Within [.fns, .hub] [0x6002, 0x6000] s (s.resetFn port fn keepIde) := by
  rw [State.resetFn_eq]
  exact .ite (fun _ => (s.unnegotiated_within port hfn keepIde).mono.andThen (State.freeLock_within _))
    fun _ => (s.unnegotiated_within port hfn keepIde).mono

/-- The functions after the reset of one are the others as they were. -/
theorem State.resetFn_fns (port : Port) (fn : Nat) (keepIde : Bool) :
    (s.resetFn port fn keepIde).fns = (s.modFn port fn (fnDefaults keepIde)).fns := by
  rw [State.resetFn_eq, ← State.unnegotiated_fns]
  split <;> rfl

@[simp] theorem State.resetFn_fn_same (port : Port) (fn : Nat) (keepIde : Bool) :
    (s.resetFn port fn keepIde).fn port fn = fnDefaults keepIde (s.fn port fn) := by
  rw [State.fn, State.resetFn_fns]
  exact State.fn_modFn_same s port fn _

theorem State.resetFn_fn_other {port q : Port} {fn n : Nat} (hfn : fn < 64) (hn : n < 64) (h : q ≠ port ∨ n ≠ fn)
    (keepIde : Bool) : (s.resetFn port fn keepIde).fn q n = s.fn q n := by
  have hkey : fkey q n ≠ fkey port fn := by
    intro heq
    have := fkey_inj hn hfn heq
    simp_all
  rw [State.fn, State.resetFn_fns]
  exact (State.fn_modFn s port q fn n _).trans (if_neg hkey)

@[simp] theorem State.resetFn_parts (port : Port) (fn : Nat) (keepIde : Bool) :
    (s.resetFn port fn keepIde).parts = s.parts := by
  have h : (s.unnegotiated port fn keepIde).parts = s.parts := by
    unfold State.unnegotiated
    split <;> rfl
  rw [State.resetFn_eq]
  split <;> exact h

@[simp] theorem State.resetFn_away (port : Port) (fn : Nat) (keepIde : Bool) :
    (s.resetFn port fn keepIde).hub.away = s.hub.away := by
  have h : (s.unnegotiated port fn keepIde).hub.away = s.hub.away := by
    unfold State.unnegotiated
    split <;> rfl
  rw [State.resetFn_eq]
  split <;> exact h

/-- A PF that is reset loses the lock that it holds (R290). -/
theorem State.resetFn_lockHolder (port : Port) (fn : Nat) (keepIde : Bool) : (s.resetFn port fn keepIde).hub.lockHolder =
    if fn = 0 ∧ s.hub.lockHolder = 1 + portNum port then 0 else s.hub.lockHolder := by
  rw [State.resetFn_eq, State.unnegotiated_lockHolder, show pfHolder port = 1 + portNum port from rfl]
  split
  · rfl
  · exact s.unnegotiated_lockHolder port fn keepIde

theorem State.rebind_within {p : Nat} (hp : p < 32) :
    Within [.fns, .rings, .hub, .parts, .out] [0x6002, 0x6000] s (s.rebind p) := by
  unfold State.rebind
  refine .ite (fun _ => .refl s) fun _ => ?_
  exact (((s.resetFn_within _ (by omega) true).mono.andThen (State.interrupt_within _ _ 0 3)).andThen
    (State.modPart_within _ p _)).andThen (State.modFn_within _ _ _ _)

/-- A rebound partition has another port and nothing else of its record (R282). -/
theorem State.rebind_part (p : Nat) : ∃ n, (s.rebind p).part p = { s.part p with port := n } := by
  unfold State.rebind
  dsimp only
  split
  · exact ⟨(s.part p).port, rfl⟩
  · refine ⟨s.odG 0x6001 (p + 1), ?_⟩
    have hsame : ∀ t : State, t.parts = s.parts → (t.modPart p (fun P => { P with port := s.odG 0x6001 (p + 1) })).part p =
        { s.part p with port := s.odG 0x6001 (p + 1) } := fun t ht => by
      rw [State.part_modPart_same, State.part_of_parts ht]
    exact hsame _ (by rw [State.interrupt_parts, State.resetFn_parts])

/-! ### Debug, links and stack regions -/

theorem State.eraseStack_within (da n : Nat) : Within [.stk] [] s (s.eraseStack da n) := within_stk s _

theorem State.eraseWindow_within (t : TileId) : Within [.stk] [] s (match s.logical t with
    | none => s
    | some (x, y) => s.eraseStack (s.traceBase + (160 * y + x) * s.traceWindow) s.traceWindow) := by
  split
  · exact .refl s
  · exact s.eraseStack_within _ _

theorem State.clearDebug_within (p : Nat) : Within [.tiles, .stk] [] s (s.clearDebug p) := by
  have hcleared (k : Nat) (t : State) : Within [.tiles, .stk] [] t (t.modCc (tileAt k) (fun c =>
      { c with bps := [], wps := [], traceFull := false, traceHold := [], tracePos := 0, traceLost := false })) :=
    (t.modCc_within _ _).mono
  have hwindow (t : TileId) (u : State) : Within [.tiles, .stk] [] u (match u.logical t with
      | none => u
      | some (x, y) => u.eraseStack (u.traceBase + (160 * y + x) * u.traceWindow) u.traceWindow) :=
    (u.eraseWindow_within t).mono
  unfold State.clearDebug
  exact .ite (fun _ => .forEach _ hcleared s) fun _ => (Within.forEach _ hcleared s).andThen (.forEach _ hwindow _)

theorem State.clearCtrl_within (p : Nat) : Within [.tiles] [] s (s.clearCtrl p) :=
  .forEach _ (fun _ s => s.modCc_within _ _) s

theorem State.pushReread_within (p fields : Nat) : Within [.tiles] [] s (s.pushReread p fields) :=
  .forEach _ (fun t s => .ite (fun _ => .refl s) fun _ => s.modTile_within t _) s

theorem State.allocRegions_within {p : Nat} (hp : p < 32) {t : State} (h : s.allocRegions p = some t) :
    Within [.stk] [0x3320] s t := by
  unfold State.allocRegions at h
  dsimp only at h
  split at h
  · exact absurd h (by simp)
  · rw [← Option.some.inj h]
    exact (within_stk s _).mono.andThen (State.odSetP_within _ _ (by decide) (by omega))

theorem State.resizeBlock_within {p : Nat} (hp : p < 32) : Within [.parts] [0x5000] s (s.resizeBlock p) := by
  have hset (t : State) (v : Nat) : Within [] [0x5000] t (t.odSetP 0x5000 0x14 p v) := t.odSetP_within v (by decide) (by omega)
  unfold State.resizeBlock
  dsimp only
  split
  · exact (hset _ _).mono
  · split
    · exact (s.modPart_within p _).mono.andThen (hset _ _)
    · exact (s.log_within _).mono

theorem State.resizePart_within {p : Nat} (hp : p < 32) : Within [.stk, .parts] [0x3320, 0x5000] s (s.resizePart p) := by
  unfold State.resizePart
  dsimp only
  refine .andThen ?_ (State.resizeBlock_within _ hp)
  split
  · rename_i t ht
    exact (s.allocRegions_within hp ht).mono
  · exact (s.log_within _).mono

theorem State.eraseRegions_within (p : Nat) : Within [.stk] [] s (s.eraseRegions p) :=
  .forEach _ (fun _ s => s.eraseStack_within _ _) s

theorem fieldsOf_lt {mask f : Nat} (hf : f ∈ fieldsOf mask) : f < 64 := by
  simp only [fieldsOf, List.mem_filter] at hf
  exact List.mem_range.mp hf.1

@[simp] theorem State.odSet_part (idx sub v q : Nat) : (s.odSet idx sub v).part q = s.part q := rfl

theorem State.startScrub_within {p : Nat} (hp : p < 32) (next : Nat) :
    Within [.stk, .routers, .mesh, .parts] [0x7103, 0x4102, 0x4002] s (s.startScrub p next) := by
  have hfield : ∀ f ∈ fieldsOf (s.partMask p), ∀ t : State, Within [] [0x7103] t (t.odSet 0x7103 (f + 1) 1) :=
    fun f hf t => t.odSet_within 1 (by have := fieldsOf_lt hf; omega)
  exact (((((s.eraseRegions_within p).mono.andThen (State.dropRoutes_within _ p)).andThen
    (.forEach_mem _ hfield _)).andThen (State.modPart_within _ p _)).andThen (State.odSet_within _ _ (by omega))).andThen
    (State.odSet_within _ _ (by omega))

/-- What a scrub takes from its partition's record (Table 15.3). -/
theorem State.startScrub_part (p next : Nat) : (s.startScrub p next).part p =
    { s.part p with claim := none, keys := [], streams := [], nodes := [], roots := [], scrubTo := some next } := by
  have hfield : ∀ f ∈ fieldsOf (s.partMask p), ∀ t : State, Within [] [0x7103] t (t.odSet 0x7103 (f + 1) 1) :=
    fun f hf t => t.odSet_within 1 (by have := fieldsOf_lt hf; omega)
  have hbefore := (((s.eraseRegions_within p).mono (cs := [.stk, .routers, .mesh]) (ods := [0x7103])).andThen
    (State.dropRoutes_within _ p)).andThen (Within.forEach_mem _ hfield _)
  unfold State.startScrub
  dsimp only
  rw [State.odSet_part, State.odSet_part, State.part_modPart_same, hbefore.part p]

/-- A scrub shows its state 4 (Table 15.2). -/
theorem State.startScrub_partState (p next : Nat) : (s.startScrub p next).partState p = 4 :=
  State.odG_odSet_same _ _ _ _

end Sys2Proof.Machine
end

section
/-!
SUPPORT. The reset of a partition (R351, R405): its work ends, its record is wiped, and its state follows Table 15.2.
-/

-- One proof after another: side conditions of frames are default arguments, and proofs elaborated at once would each wait
-- for the kernel in a thread of their own, past the memory limit.
set_option Elab.async false

namespace Sys2Proof.Machine

variable (s : State) {p : Nat} (hp : p < 32)

include hp

theorem State.endWork_within (code : Nat) :
    Within [.out, .rings, .parts, .stk, .tiles, .routers, .mesh, .acts, .fabric]
      [0x5000, 0x5100, 0x5101, 0x3310, 0x5200, 0x7000, 0x3501, 0x3500, 0x7101, 0x6100, 0x6110] s (s.endWork p code) :=
  (((((s.endHeld_within hp code code).mono.andThen (State.endModel_within _ hp code)).andThen
    (State.closeTx_within _ p code code)).andThen (State.closeTx_within _ (p + 32) code code)).andThen
    (State.dropRx_within _ p)).andThen (State.unload_within _ hp)

/-- What a wiped partition keeps of its record. -/
theorem State.wipePart_part : ∃ n, (s.wipePart p).part p =
    { port := n, reqFirst := (s.part p).reqFirst, scrubTo := (s.part p).scrubTo } := by
  have hdebug : ((s.clearDebug p).clearCtrl p).part p = s.part p :=
    ((State.clearCtrl_within _ p).part p).trans ((s.clearDebug_within p).part p)
  obtain ⟨n, hrebound⟩ := State.rebind_part ((((((s.clearDebug p).clearCtrl p).modPart p
    (fun P => { port := P.port, reqFirst := P.reqFirst, scrubTo := P.scrubTo })).odResetPart p).countHeld p)) p
  refine ⟨n, hrebound.trans ?_⟩
  rw [(State.countHeld_within _ hp).part p, State.odResetPart_part, State.part_modPart_same, hdebug]

/-- State and mask of a partition stand when it is wiped. -/
theorem State.wipePart_odG {idx sub : Nat} (hidx : idx ∈ [0x4002, 0x4003]) (hsub : sub < 256) :
    (s.wipePart p).odG idx sub = s.odG idx sub := by
  have hne : idx ∉ ([0x6002, 0x6000] : List Nat) ∧ idx ≠ 0x1110 ∧ idx ∉ ([0x5000] : List Nat) ∧
      idx ∈ [0x4002, 0x4003, 0x1211, 0x6002] := by
    revert idx
    decide
  obtain ⟨hrebind, hlog, hcount, hkept⟩ := hne
  have hdebug : ((s.clearDebug p).clearCtrl p).odG idx sub = s.odG idx sub :=
    ((State.clearCtrl_within _ p).odG (by simp) hlog hsub).trans ((s.clearDebug_within p).odG (by simp) hlog hsub)
  unfold State.wipePart
  dsimp only
  rw [(State.rebind_within _ hp).odG hrebind hlog hsub, (State.countHeld_within _ hp).odG hcount hlog hsub,
    State.odResetPart_odG _ p hkept hsub, State.odG_modPart, hdebug]

/-- A partition whose work has ended, and whose record is wiped. -/
def State.emptied (s : State) (p : Nat) : State :=
  ((s.forEach (fieldsOf (s.partMask p)) (fun f s => s.yieldField f)).endWork p 0x000D).wipePart p

/-- An emptied partition with its overlay and re-read count in force, its PF told. -/
def State.restarted (s : State) (p : Nat) : State :=
  (((s.emptied p).odSet 0x1211 (p + 1) ((s.emptied p).odG 0x1210 (p + 1))).pushReread p ((s.emptied p).partMask p)).interrupt
    ((s.emptied p).boundPort p) 0 3

/-- The partition's state after its reset, before its regions. -/
def State.restated (s : State) (p : Nat) (dissolve : Bool) : State :=
  if (s.part p).claim.isSome || dissolve then (s.restarted p).startScrub p (if dissolve then 0 else 1)
  else (s.restarted p).odSet 0x4002 (p + 1) 1

omit hp in
theorem State.resetPart_dissolve : s.resetPart p true = s.restated p true := rfl

omit hp in
theorem State.resetPart_keep : s.resetPart p false = (s.restated p false).resizePart p := rfl

/-- A partition's record after a reset: a port and a place in the REQ space, and a scrub where one runs. -/
def Wiped (P : Partition) : Prop := ∃ n a t, P = { port := n, reqFirst := a, scrubTo := t }

theorem State.restarted_wiped : Wiped ((s.restarted p).part p) := by
  have hemptied : Wiped ((s.emptied p).part p) := by
    obtain ⟨n, h⟩ := State.wipePart_part _ hp
    exact ⟨n, _, _, h⟩
  unfold State.restarted
  rw [State.part_of_parts (State.interrupt_parts _ _ _ _), (State.pushReread_within _ p _).part p, State.odSet_part]
  exact hemptied

theorem State.restarted_odG {idx sub : Nat} (hidx : idx ∈ [0x4002, 0x4003]) (hsub : sub < 256) :
    (s.restarted p).odG idx sub = s.odG idx sub := by
  have hne : idx ∉ ([0x1211] : List Nat) ∧ idx ≠ 0x1110 ∧ idx ∉ ([0x2300, 0x7101] : List Nat) ∧
      idx ∉ [0x5000, 0x5100, 0x5101, 0x3310, 0x5200, 0x7000, 0x3501, 0x3500, 0x7101, 0x6100, 0x6110] := by
    revert idx
    decide
  obtain ⟨hoverlay, hlog, hyield, hended⟩ := hne
  unfold State.restarted
  rw [State.interrupt_odG, (State.pushReread_within _ p _).odG (by simp) hlog hsub,
    (State.odSet_within _ _ (by omega)).odG hoverlay hlog hsub, State.emptied, State.wipePart_odG _ hp hidx hsub,
    (State.endWork_within _ hp _).odG hended hlog hsub,
    (Within.forEach _ (fun f s => s.yieldField_within f) s).odG hyield hlog hsub]

/-- Of the record of a partition that has been reset, work, claim, keys and program are gone. -/
theorem State.restated_part (dissolve : Bool) : Wiped ((s.restated p dissolve).part p) ∧
    ((s.part p).claim ≠ none ∨ dissolve = true → ((s.restated p dissolve).part p).scrubTo = some (if dissolve then 0 else 1)) := by
  have hwiped := s.restarted_wiped hp
  obtain ⟨n, a, t, h⟩ := hwiped
  unfold State.restated
  split
  · rw [State.startScrub_part, h]
    exact ⟨⟨n, a, _, rfl⟩, fun _ => rfl⟩
  · rename_i hquiet
    rw [State.odSet_part]
    refine ⟨⟨n, a, t, h⟩, fun hscrubs => absurd hscrubs ?_⟩
    simpa [Option.isSome_iff_ne_none] using hquiet

theorem State.resizePart_record : ∃ a, ((s.resizePart p).part p) = { s.part p with reqFirst := a } := by
  have hblock (t : State) : ∃ a, ((t.resizeBlock p).part p) = { t.part p with reqFirst := a } := by
    unfold State.resizeBlock
    dsimp only
    split
    · exact ⟨(t.part p).reqFirst, rfl⟩
    · split
      · exact ⟨_, (State.odSetP_part _ _ _ _ _ _).trans (State.part_modPart_same _ _ _)⟩
      · exact ⟨(t.part p).reqFirst, (t.log_within _).part p⟩
  unfold State.resizePart
  dsimp only
  split
  · rename_i t ht
    rw [← (s.allocRegions_within hp ht).part p]
    exact hblock t
  · rw [← (s.log_within { rule := 139, sev := 1, part := p }).part p]
    exact hblock _

theorem State.resetPart_wiped (dissolve : Bool) : Wiped ((s.resetPart p dissolve).part p) := by
  obtain ⟨n, a, t, h⟩ := (s.restated_part hp dissolve).1
  cases dissolve with
  | true => exact ⟨n, a, t, h⟩
  | false =>
    obtain ⟨b, hresized⟩ := (s.restated p false).resizePart_record hp
    exact ⟨n, b, t, by rw [State.resetPart_keep, hresized, h]⟩

/-- A claimed partition, and one dissolved, is scrubbed (R353). -/
theorem State.resetPart_scrubTo (dissolve : Bool) (hscrubs : (s.part p).claim ≠ none ∨ dissolve = true) :
    ((s.resetPart p dissolve).part p).scrubTo = some (if dissolve then 0 else 1) := by
  have h := (s.restated_part hp dissolve).2 hscrubs
  cases dissolve with
  | true => exact h
  | false =>
    obtain ⟨b, hresized⟩ := (s.restated p false).resizePart_record hp
    rw [State.resetPart_keep, hresized]
    exact h

theorem State.resetPart_partState (dissolve : Bool) : (s.resetPart p dissolve).partState p =
    if (s.part p).claim.isSome || dissolve then 4 else 1 := by
  have hstate : (s.restated p dissolve).partState p = if (s.part p).claim.isSome || dissolve then 4 else 1 := by
    unfold State.restated
    split
    · exact State.startScrub_partState _ _ _
    · exact State.odG_odSet_same _ _ _ _
  cases dissolve with
  | true => exact hstate
  | false => exact ((State.resizePart_within _ hp).odG (idx := 0x4002) (hsub := by omega)).trans hstate

theorem State.resetPart_partMask (dissolve : Bool) : (s.resetPart p dissolve).partMask p = s.partMask p := by
  have hsub : p + 1 < 256 := by omega
  have hmask : (s.restated p dissolve).odG 0x4003 (p + 1) = s.odG 0x4003 (p + 1) := by
    unfold State.restated
    split
    · exact ((State.startScrub_within _ hp _).odG (idx := 0x4003) (hsub := hsub)).trans
        (s.restarted_odG hp (by decide) hsub)
    · exact ((State.odSet_within _ _ hsub).odG (idx := 0x4003) (hsub := hsub)).trans (s.restarted_odG hp (by decide) hsub)
  cases dissolve with
  | true => exact hmask
  | false => exact ((State.resizePart_within _ hp).odG (idx := 0x4003) (hsub := hsub)).trans hmask

end Sys2Proof.Machine
end

section
/-!
SUPPORT. Power states, bus mastering, BAR misuse, resets, links and configuration of a function (R280–R282, R292, R293,
R397).
-/

-- One proof after another: side conditions of frames are default arguments, and proofs elaborated at once would each wait
-- for the kernel in a thread of their own, past the memory limit.
set_option Elab.async false

namespace Sys2Proof.Machine

variable {s : State} {port : Port} {fn : Nat}

/-- A violation of any function is counted for its port. -/
theorem State.violate_counted (s : State) (port : Port) (fn status value addr : Nat) :
    (s.violate port fn status value addr).odG 0x6000 (6 + portNum port) = s.odG 0x6000 (6 + portNum port) + 1 := by
  have hlogged (t : State) (a : LogArgs) : (((t.modFn port fn (fun f =>
      { f with viol := true, violStatus := status, violValue := value % 65536, vaddr := addr })).odAdd 0x6000
        (6 + portNum port) 1).log a).odG 0x6000 (6 + portNum port) = t.odG 0x6000 (6 + portNum port) + 1 := by
    rw [State.log_odG _ _ (by decide) (portNum_add_lt port), State.odG_odAdd_same, State.odG_modFn]
  unfold State.violate
  dsimp only
  split
  · exact hlogged s _
  · rw [State.interrupt_odG]
    exact hlogged s _

section functions

variable (hfn : fn ≤ 32)
include hfn

theorem fnOk_of_le : fnOk fn = true := by simpa [fnOk] using hfn

theorem exec_functionLevelReset_unbound (hbound : s.bound port fn = false) :
    exec (.functionLevelReset port fn) s = .next ((s.logReset port 0xFF).resetFn port fn true) :=
  guardRes_next (fnOk_of_le hfn) (by simp [hbound])

theorem exec_functionLevelReset_bound (hbound : s.bound port fn = true) : exec (.functionLevelReset port fn) s =
    .next ((((s.logReset port (vfPart fn)).resetFn port fn true).hostReset (vfPart fn)).resetFn port fn true) :=
  guardRes_next (fnOk_of_le hfn) (by simp [hbound])

theorem setsFn_d3hotEntry : SetsFn (.d3hotEntry port fn) s port fn { s.fn port fn with d3hot := true } :=
  guardRes_next (fnOk_of_le hfn) rfl

omit hfn in
/-- A change of a function that holds no record writes none. -/
theorem pumpRecords_modFn (hheld : (s.fn port fn).held = []) {f : Function → Function}
    (hf : (f (s.fn port fn)).held = (s.fn port fn).held) :
    (s.modFn port fn f).pumpRecords port fn = s.modFn port fn (fun _ => f (s.fn port fn)) := by
  refine (State.pumpRecords_none ?_).trans rfl
  rw [State.fn_modFn_same, hf, hheld]

theorem setsFn_d0Entry (hheld : (s.fn port fn).held = []) :
    SetsFn (.d0Entry port fn) s port fn { s.fn port fn with d3hot := false } :=
  guardRes_next (fnOk_of_le hfn) (pumpRecords_modFn hheld rfl)

theorem setsFn_busMaster (hheld : (s.fn port fn).held = []) :
    SetsFn (.busMasterDisable port fn true) s port fn { s.fn port fn with busMaster := true } :=
  guardRes_next (fnOk_of_le hfn) (pumpRecords_modFn hheld rfl)

theorem setsFn_busMaster_quiet (hquiet : (s.fn port fn).en = false ∨ (s.fn port fn).busMaster = false) :
    SetsFn (.busMasterDisable port fn false) s port fn { s.fn port fn with busMaster := false } := by
  have hidle : ((s.fn port fn).en && (s.fn port fn).busMaster) = false := by
    rcases hquiet with h | h <;> simp [h]
  exact guardRes_next (fnOk_of_le hfn) (by rw [hidle]; rfl)

theorem answers_busMaster_enabled (hen : (s.fn port fn).en = true) (hmaster : (s.fn port fn).busMaster = true) :
    Answers (.busMasterDisable port fn false) s (fun u =>
      u.fn port fn = violated { s.fn port fn with busMaster := false } fn 0x0A0A 0 0 ∧
      u.odG 0x6000 (6 + portNum port) = s.odG 0x6000 (6 + portNum port) + 1) := by
  have hexec : exec (.busMasterDisable port fn false) s =
      .next ((s.modFn port fn (fun f => { f with busMaster := false })).violate port fn 0x0A0A 0 0) :=
    guardRes_next (fnOk_of_le hfn) (by simp [hen, hmaster])
  refine answers_next hexec ⟨?_, ?_⟩
  · rw [State.violate_fn_same, State.fn_modFn_same]
  · rw [State.violate_counted, State.odG_modFn]

/-- The code of a BAR access of a wrong form (R282, R292). -/
def barCode (s : State) (port : Port) (fn : Nat) : Nat := if fn ≠ 0 ∧ s.bound port fn = false then 0x0A04 else 0x0A09

omit hfn in
theorem barCode_eq : (if (fn != 0 && !s.bound port fn) = true then (0x0A04 : Nat) else 0x0A09) = barCode s port fn := by
  simp [barCode]

omit hfn in
/-- A BAR access of a wrong form counts as a violation, after what its TLP sets in the function. -/
theorem answers_barViolation {kind : BarMisuse} {off v : Nat} {f : Function → Function}
    (hexec : exec (.barAccessViolation port fn kind off v) s =
      .next ((s.modFn port fn f).violate port fn (barCode s port fn) v off)) :
    Answers (.barAccessViolation port fn kind off v) s (fun u =>
      u.fn port fn = violated (f (s.fn port fn)) fn (barCode s port fn) v off ∧
      u.odG 0x6000 (6 + portNum port) = s.odG 0x6000 (6 + portNum port) + 1 ∧ u.tiles = s.tiles ∧ u.parts = s.parts) := by
  have hframe := (s.modFn port fn f).violate_within port fn (barCode s port fn) v off
  refine answers_next hexec ⟨?_, ?_, hframe.tiles (by decide), hframe.parts (by decide)⟩
  · rw [State.violate_fn_same, State.fn_modFn_same]
  · rw [State.violate_counted, State.odG_modFn]

/-- What a BAR access of a wrong form makes of its function, with the code of the violation. -/
def barMisused (kind : BarMisuse) (f : Function) (fn code v off : Nat) : Function :=
  match kind with
  | .malformedTlp => { f with aer := setBit f.aer 18 true }
  | .poisonedWrite => violated { f with aer := setBit f.aer 12 true } fn code v off
  | _ => violated f fn code v off

theorem answers_barAccess {kind : BarMisuse} (off v : Nat)
    (hkind : kind ≠ .unboundVf ∨ (fn ≠ 0 ∧ s.bound port fn = false)) :
    Answers (.barAccessViolation port fn kind off v) s (fun u =>
      u.fn port fn = barMisused kind (s.fn port fn) fn (barCode s port fn) v off ∧
      u.odG 0x6000 (6 + portNum port) = s.odG 0x6000 (6 + portNum port) + 1 ∧ u.tiles = s.tiles ∧ u.parts = s.parts) := by
  have hok := fnOk_of_le hfn
  have hviolate (hexec : exec (.barAccessViolation port fn kind off v) s =
      .next (s.violate port fn (barCode s port fn) v off)) :
      Answers (.barAccessViolation port fn kind off v) s (fun u =>
        u.fn port fn = violated (s.fn port fn) fn (barCode s port fn) v off ∧
        u.odG 0x6000 (6 + portNum port) = s.odG 0x6000 (6 + portNum port) + 1 ∧ u.tiles = s.tiles ∧ u.parts = s.parts) := by
    have hframe := s.violate_within port fn (barCode s port fn) v off
    exact answers_next hexec ⟨State.violate_fn_same _ _ _ _ _ _, State.violate_counted _ _ _ _ _ _,
      hframe.tiles (by decide), hframe.parts (by decide)⟩
  cases kind with
  | unboundVf =>
    obtain ⟨h0, hunbound⟩ := hkind.resolve_left (by simp)
    exact hviolate (guardRes_next hok (by simp [h0, hunbound, barCode]))
  | badSize => exact hviolate (guardRes_next hok (by simp only [barCode_eq]))
  | poisonedWrite =>
    exact answers_barViolation (f := fun f => { f with aer := setBit f.aer 12 true })
      (guardRes_next hok (by simp only [barCode_eq]))
  | malformedTlp =>
    have hframe := s.aerError_within port fn 18
    exact answers_next (guardRes_next hok rfl) ⟨State.aerError_fn _ _ _ _, State.aerError_count _ _ _ _,
      hframe.tiles (by decide), hframe.parts (by decide)⟩

/-! ### Resets (R293) -/

omit hfn in
theorem State.logReset_within (s : State) (port : Port) (part : Nat) : Within [] [] s (s.logReset port part) :=
  .ite (fun _ => s.log_within _) fun _ => .refl s

theorem answers_functionLevelReset_unbound (hbound : s.bound port fn = false) :
    Answers (.functionLevelReset port fn) s (fun u =>
      u.fn port fn = { ideKeys := (s.fn port fn).ideKeys, ideSet := (s.fn port fn).ideSet,
                       ideBroken := (s.fn port fn).ideBroken } ∧
      (∀ q n, n < 64 → (q ≠ port ∨ n ≠ fn) → u.fn q n = s.fn q n) ∧ u.parts = s.parts ∧
      u.hub.lockHolder = (if fn = 0 ∧ s.hub.lockHolder = 1 + portNum port then 0 else s.hub.lockHolder)) := by
  have hlog := s.logReset_within port 0xFF
  have hholder : (s.logReset port 0xFF).hub.lockHolder = s.hub.lockHolder := by
    obtain ⟨_, _, _, h⟩ := hlog.hub (by decide) (by decide)
    rw [h]
  refine answers_next (exec_functionLevelReset_unbound hfn hbound) ⟨?_, fun q n hn hother => ?_, ?_, ?_⟩
  · rw [State.resetFn_fn_same, hlog.fn port fn]
    rfl
  · rw [State.resetFn_fn_other _ (by omega) hn hother, hlog.fn q n]
  · rw [State.resetFn_parts, hlog.parts (by decide)]
  · rw [State.resetFn_lockHolder, hholder]

/-- The reset of a bound VF resets its partition too (R293, R351). -/
theorem answers_functionLevelReset_bound (h1 : 1 ≤ fn) (hbound : s.bound port fn = true) (hhub : s.hub.away = false)
    (hstate : s.partState (fn - 1) = 1 ∨ s.partState (fn - 1) = 2) :
    Answers (.functionLevelReset port fn) s (fun u => (u.fn port fn).en = false ∧ (u.fn port fn).neg = 0 ∧
      (u.fn port fn).held = [] ∧ (u.part (fn - 1)).program = none ∧ (u.part (fn - 1)).claim = none ∧
      u.partState (fn - 1) = (if (s.part (fn - 1)).claim.isSome then 4 else 1)) := by
  have hp : vfPart fn < 32 := by simp only [vfPart]; omega
  have hbefore : Within [.fns, .hub] [0x6002, 0x6000] s ((s.logReset port (vfPart fn)).resetFn port fn true) :=
    (s.logReset_within port _).mono.andThen (State.resetFn_within _ port (by omega) true)
  have haway : ((s.logReset port (vfPart fn)).resetFn port fn true).hub.away = false := by
    have hlogged : (s.logReset port (vfPart fn)).hub.away = false := by
      obtain ⟨_, _, _, h⟩ := (s.logReset_within port (vfPart fn)).hub (by decide) (by decide)
      rw [h]
      exact hhub
    rw [State.resetFn_away]
    exact hlogged
  have hsub : vfPart fn + 1 < 256 := by omega
  have hstate' : ((s.logReset port (vfPart fn)).resetFn port fn true).partState (vfPart fn) = s.partState (vfPart fn) :=
    hbefore.odG (idx := 0x4002) (hsub := hsub)
  have hhost : ((s.logReset port (vfPart fn)).resetFn port fn true).hostReset (vfPart fn) =
      ((s.logReset port (vfPart fn)).resetFn port fn true).resetPart (vfPart fn) false := by
    rw [State.hostReset, haway, hstate', if_neg (by decide)]
    exact if_pos hstate
  have hlast (t : State) : Within [.fns, .hub] [0x6002, 0x6000] t (t.resetFn port fn true) :=
    t.resetFn_within port (by omega) true
  refine answers_next (exec_functionLevelReset_bound hfn hbound) ?_
  rw [hhost, State.resetFn_fn_same]
  obtain ⟨n, a, t, hwiped⟩ :=
    ((s.logReset port (vfPart fn)).resetFn port fn true).resetPart_wiped hp false
  have hpart := ((hlast (((s.logReset port (vfPart fn)).resetFn port fn true).resetPart (vfPart fn) false)).part
    (vfPart fn)).trans hwiped
  refine ⟨rfl, rfl, rfl, ?_, ?_, ?_⟩
  · exact congrArg Partition.program hpart
  · exact congrArg Partition.claim hpart
  · refine ((hlast _).odG (idx := 0x4002) (hsub := hsub)).trans ((State.resetPart_partState _ hp false).trans ?_)
    rw [hbefore.part (vfPart fn), Bool.or_false]
    rfl

end functions

/-! ### Links and configuration (R280, R281, R397) -/

theorem configValue_identity (s : State) (port : Port) (fn : Nat) :
    s.configValue port fn 0 = (if fn = 0 then 0xA640 else 0xA641) * 65536 + s.odG 0x6000 1 % 65536 ∧
      s.configValue port fn 8 = 0x120000 * 256 + s.stepping ∧ s.configValue port fn 0x10 % 0x4000 = 4 ∧
      ∀ off, 0x18 ≤ off → off ≤ 0x24 → s.configValue port fn off = 0 := by
  refine ⟨rfl, rfl, ?_, fun off hlo hhi => ?_⟩
  · show (Config.configReg (portNum port) fn 0x10 % 2 ^ 32 / 0x4000 * 0x4000 + 4) % 0x4000 = 4
    omega
  · unfold State.configValue
    dsimp only
    rw [if_neg (by omega), if_neg (by omega), if_neg (by omega), if_pos ⟨hlo, hhi⟩]

/-- A link with flit mode shows its width and rate, and tells its PF (R280, R284). -/
theorem answers_pcieLinkUp (s : State) (port : Port) (rate width : Nat) : Answers (.pcieLinkUp port true rate width) s (fun u =>
    u.odG 0x6000 (4 + portNum port) = width % 256 * 256 + rate % 256 ∧ u.fn port 0 = signalled (s.fn port 0) 2 ∧
    u.out = s.out ++ signalOut port 0 (s.fn port 0) 2 ∧ u.parts = s.parts) := by
  have hsub : 4 + portNum port < 256 := by cases port <;> decide
  have hup : ((s.odSet 0x6000 (4 + portNum port) (width % 256 * 256 + rate % 256)).interrupt port 0 2).odG 0x6000
        (4 + portNum port) = width % 256 * 256 + rate % 256 ∧
      ((s.odSet 0x6000 (4 + portNum port) (width % 256 * 256 + rate % 256)).interrupt port 0 2).fn port 0 =
        signalled (s.fn port 0) 2 ∧
      ((s.odSet 0x6000 (4 + portNum port) (width % 256 * 256 + rate % 256)).interrupt port 0 2).out =
        s.out ++ signalOut port 0 (s.fn port 0) 2 ∧
      ((s.odSet 0x6000 (4 + portNum port) (width % 256 * 256 + rate % 256)).interrupt port 0 2).parts = s.parts := by
    refine ⟨?_, State.interrupt_fn_same _ _ _ _, State.interrupt_out _ _ _ _, State.interrupt_parts _ _ _ _⟩
    rw [State.interrupt_odG, State.odG_odSet_same]
  have hexec : exec (.pcieLinkUp port true rate width) s = .next (if rate < 64 ∨ width < 16 then
      ((s.odSet 0x6000 (4 + portNum port) (width % 256 * 256 + rate % 256)).interrupt port 0 2).log
        { rule := 280, sev := 1, source := 4 + portNum port, data := [portNum port, rate, width] }
      else (s.odSet 0x6000 (4 + portNum port) (width % 256 * 256 + rate % 256)).interrupt port 0 2) := guardRes_next rfl rfl
  refine answers_next hexec ?_
  split
  · rw [State.log_odG _ _ (by decide) hsub, State.log_fn, State.log_out, State.log_parts]
    exact hup
  · exact hup

theorem exec_configurationRequest (hfn : fn ≤ 32) (off : Nat) (hstby : s.hub.vstby = true) :
    (s.odG 0x7102 1 = 0 → exec (.configurationRequest port fn off) s = .next (s.emit (.cfg port fn off none))) ∧
      (s.odG 0x7102 1 = 1 → s.hub.startDue = none → exec (.configurationRequest port fn off) s =
        .next (s.emit (.cfg port fn off (some (s.configValue port fn off))))) := by
  refine ⟨fun hoff => guardRes_next (fnOk_of_le hfn) ?_, fun hon hdue => guardRes_next (fnOk_of_le hfn) ?_⟩
  · simp [hstby, State.pastStart, hoff]
  · simp [hstby, State.pastStart, hon, hdue]

/-! ### PERST (R293) -/

/-- Functions of a port, each reset: those are at their defaults, the other functions as they were. -/
theorem State.forEach_resetFn_fn (port : Port) {n : Nat} (hn : n < 64) {l : List Nat} (hl : ∀ m ∈ l, m < 64) (s : State) :
    (s.forEach l (fun m s => s.resetFn port m false)).fn port n = if n ∈ l then {} else s.fn port n := by
  induction l generalizing s with
  | nil => rfl
  | cons m l ih =>
    have hm := hl m List.mem_cons_self
    rw [State.forEach, ih (fun k hk => hl k (List.mem_cons_of_mem m hk))]
    by_cases hmem : n ∈ l
    · simp [hmem]
    · by_cases heq : n = m
      · subst heq
        rw [if_neg hmem, if_pos List.mem_cons_self, State.resetFn_fn_same]
        rfl
      · rw [if_neg hmem, if_neg (by simp [heq, hmem]), State.resetFn_fn_other _ hm hn (.inr heq)]

/-- Every function of a port reset. -/
def State.resetFns (s : State) (port : Port) : State := s.forEach (List.range 33) (fun n s => s.resetFn port n false)

/-- The PF of a port is the first function that is reset. -/
theorem State.resetFns_lockHolder (port : Port) (s : State) : (s.resetFns port).hub.lockHolder =
      if s.hub.lockHolder = 1 + portNum port then 0 else s.hub.lockHolder := by
  have hrest (l : List Nat) (hl : ∀ m ∈ l, m ≠ 0) (t : State) :
      (t.forEach l (fun m s => s.resetFn port m false)).hub.lockHolder = t.hub.lockHolder := by
    induction l generalizing t with
    | nil => rfl
    | cons m l ih =>
      rw [State.forEach, ih fun k hk => hl k (List.mem_cons_of_mem m hk), State.resetFn_lockHolder,
        if_neg fun h => hl m List.mem_cons_self h.1]
  rw [State.resetFns, List.range_succ_eq_map, State.forEach, hrest _ (by simp), State.resetFn_lockHolder]
  simp

/-- The link's entry is not one that the resets of functions write. -/
theorem State.forEach_resetFn_link (port : Port) {l : List Nat} (hl : ∀ m ∈ l, m < 256) (s : State) :
    (s.forEach l (fun m s => s.resetFn port m false)).odG 0x6000 (4 + portNum port) = s.odG 0x6000 (4 + portNum port) := by
  have hsub : 4 + portNum port < 256 ∧ 4 + portNum port ≠ 0xC := by cases port <;> decide
  induction l generalizing s with
  | nil => rfl
  | cons m l ih =>
    rw [State.forEach, ih fun k hk => hl k (List.mem_cons_of_mem m hk), State.resetFn_eq]
    have hversion := (s.unnegotiated_within port (hl m List.mem_cons_self) false).odG (idx := 0x6000) (hsub := hsub.1)
    split
    · rw [State.freeLock, State.odG_odSet_ne _ (.inr hsub.2) hsub.1 (by decide)]
      exact hversion
    · exact hversion

theorem answers_perst (s : State) (port : Port) : Answers (.perst port) s (fun u =>
    (∀ n, n ≤ 32 → u.fn port n = {}) ∧ (s.portParts port = [] → u.odG 0x6000 (4 + portNum port) = 0 ∧
      (s.hub.lockHolder = 1 + portNum port → u.hub.lockHolder = 0))) := by
  have hexec : exec (.perst port) s = .next ((((s.logReset port 0xFF).resetFns port).odSet 0x6000 (4 + portNum port) 0).forEach
      (s.portParts port) (fun p s => s.hostReset p) |>.resetFns port) := guardRes_next rfl rfl
  refine answers_next hexec ⟨fun n hn => ?_, fun hnone => ?_⟩
  · rw [State.resetFns, State.forEach_resetFn_fn port (by omega) (fun m hm => by have := List.mem_range.mp hm; omega),
      if_pos (List.mem_range.mpr (by omega))]
  · rw [hnone, State.forEach]
    refine ⟨?_, fun hholder => ?_⟩
    · rw [State.resetFns, State.forEach_resetFn_link port (fun m hm => by have := List.mem_range.mp hm; omega)]
      exact State.odG_odSet_same _ _ _ _
    · obtain ⟨_, _, _, h⟩ := (s.logReset_within port 0xFF).hub (by decide) (by decide)
      have hfree : ((s.logReset port 0xFF).resetFns port).hub.lockHolder = 0 := by
        rw [State.resetFns_lockHolder, h, hholder, if_pos rfl]
      rw [State.resetFns_lockHolder, State.odSet_hub, hfree]
      split <;> rfl

end Sys2Proof.Machine

open Sys2Proof Sys2Proof.Machine

/-- Settles O37, by what each command does to its function: a change of one register, a violation (R292; VIOL on 0x0A09 is
log 130, the AER bits log 78), its defaults (R293; an FLR keeps the IDE keys by log 77), or the partition's reset; vector 2
at link up is log 79. -/
theorem functionsAndLinks : Obligations.FunctionsAndLinks := by
  unfold Obligations.FunctionsAndLinks
  intro s port fn hfn
  exact ⟨setsFn_d3hotEntry hfn, fun hheld => ⟨setsFn_d0Entry hfn hheld, setsFn_busMaster hfn hheld⟩,
    setsFn_busMaster_quiet hfn, answers_busMaster_enabled hfn, fun kind off v hkind => by
      have h := answers_barAccess hfn off v hkind
      cases kind <;> exact h,
    answers_functionLevelReset_unbound hfn, answers_functionLevelReset_bound hfn, answers_perst s port,
    fun rate width => ⟨guardRes_next rfl rfl, answers_pcieLinkUp s port rate width⟩, configValue_identity s port fn,
    fun off hstby => exec_configurationRequest hfn off hstby⟩
end

section
/-!
SUPPORT. FORM, RESET and DISSOLVE of a partition (R351), and the end of a scrub (R353–R355).
-/

-- One proof after another: side conditions of frames are default arguments, and proofs elaborated at once would each wait
-- for the kernel in a thread of their own, past the memory limit.
set_option Elab.async false

namespace Sys2Proof.Machine

variable {s : State} {p : Nat}

/-! ### The commands up to their locks -/

/-- The first code of a partition command that its own checks give. -/
def State.partEarly (s : State) (opc p : Nat) : Nat :=
  if opc = 0x70 then s.formCode p else if s.partState p = 1 ∨ s.partState p = 2 then 0 else 0x0604

/-- A partition command whose form is good: refused early, queued or refused for locks, or run (R351, R407). -/
def State.partRequest (s : State) (opc p : Nat) (cmd : List Byte) : State × Nat :=
  if s.partEarly opc p ≠ 0 then (s, s.partEarly opc p)
  else if s.maintCode (s.partFields opc p) = 0x0801 then
    (((s.queueAct (.partCmd opc p) (s.partFields opc p) cmd).countMaint (s.maintCode (s.partFields opc p))).setBlobP
      0x4000 1 0xFF cmd, s.maintCode (s.partFields opc p))
  else if s.maintCode (s.partFields opc p) ≠ 0 then
    (s.countMaint (s.maintCode (s.partFields opc p)), s.maintCode (s.partFields opc p))
  else if (s.runPart opc p).2 ≠ 0 then s.runPart opc p
  else ((s.runPart opc p).1.setBlobP 0x4000 1 0xFF cmd, 0)

theorem PartCommand.eq {c : Caller} {cmd : List Byte} {opc : Nat} (h : PartCommand s c cmd opc p)
    (hopc : 0x70 ≤ opc ∧ opc ≤ 0x72) : State.partCommand cmd s.counted = s.counted.partRequest opc p cmd := by
  obtain ⟨-, hlen, hop, hpart, hzero, hp, hstandby⟩ := h
  unfold State.partCommand
  dsimp only
  rw [if_neg (not_not.mpr hlen), hop, if_neg (by omega), if_neg (by simp [hzero]), if_neg (by simp [hstandby]), hpart,
    if_neg (by omega)]
  rfl

section commands

variable {c : Caller} {cmd : List Byte} {opc : Nat} (h : PartCommand s c cmd opc p) (hopc : 0x70 ≤ opc ∧ opc ≤ 0x72) {i : Instr}
  (hi : exec i s = guardRes (callerOk c) (s.command c 0x4000 1 0xFF (State.partCommand cmd)))
include h hopc hi

theorem exec_partCommand :
    exec i s = .next ((s.counted.partRequest opc p cmd).1.reply c (s.counted.partRequest opc p cmd).2) := by
  rw [hi, h.1.command_eq, h.eq hopc, h.1.1]
  rfl

theorem refuses_partCommand {code : Nat} (hcode : s.counted.partRequest opc p cmd = (s.counted, code)) :
    Refuses i s c code := by
  rw [Refuses, exec_partCommand h hopc hi, hcode]

theorem refuses_early (hearly : s.counted.partEarly opc p ≠ 0) : Refuses i s c (s.counted.partEarly opc p) :=
  refuses_partCommand h hopc hi (if_pos hearly)

/-- A partition command that finds its locks free and runs to its end. -/
theorem exec_partCommand_run (hearly : s.counted.partEarly opc p = 0)
    (hfree : s.counted.maintCode (s.counted.partFields opc p) = 0) (hrun : (s.counted.runPart opc p).2 = 0) :
    exec i s = .next (((s.counted.runPart opc p).1.setBlobP 0x4000 1 0xFF cmd).reply c 0) := by
  have heq : s.counted.partRequest opc p cmd = ((s.counted.runPart opc p).1.setBlobP 0x4000 1 0xFF cmd, 0) := by
    simp only [State.partRequest, hearly, hfree, hrun, ne_eq, not_true_eq_false, if_false, (by decide : (0 : Nat) ≠ 0x0801)]
  rw [exec_partCommand h hopc hi, heq]

/-- A partition command whose locks are held is queued (R407). -/
theorem answers_partCommand_queued (hearly : s.counted.partEarly opc p = 0)
    (hheld : s.counted.maintCode (s.counted.partFields opc p) = 0x0801) : Answers i s (fun u =>
      u.hub.queue = s.hub.queue ++ [Queued.mk (.partCmd opc p) (s.counted.partFields opc p) s.clkTime cmd] ∧
      u.parts = s.parts ∧ u.out = s.out ++ [Emission.status c 0x0801]) := by
  have heq : s.counted.partRequest opc p cmd =
      (((s.counted.queueAct (.partCmd opc p) (s.counted.partFields opc p) cmd).countMaint 0x0801).setBlobP 0x4000 1 0xFF cmd,
        0x0801) := by
    rw [State.partRequest, if_neg (by simp [hearly]), if_pos hheld, hheld]
  have hexec := exec_partCommand h hopc hi
  rw [heq] at hexec
  exact answers_next hexec ⟨rfl, rfl, rfl⟩

end commands

/-! ### FORM -/

/-- A partition that has been formed holds a port and a place in the REQ space, and nothing else (R351). -/
theorem State.formPart_ok (hp : p < 32) (h : (s.formPart p).2 = 0) :
    (s.formPart p).1.partState p = 1 ∧ (s.formPart p).1.partMask p = s.odG 0x4001 (p + 1) ∧
      Wiped ((s.formPart p).1.part p) := by
  unfold State.formPart at h ⊢
  split at h
  · exact absurd h (by simp)
  · rename_i s1 halloc
    dsimp only at h ⊢
    split at h
    · exact absurd h (by simp)
    · rename_i a hrun
      have hsub : p + 1 < 256 := by omega
      simp only [State.partState, State.partMask, State.interrupt_odG, (State.pushReread_within _ p _).odG (idx := 0x4002) (hsub := hsub),
        (State.pushReread_within _ p _).odG (idx := 0x4003) (hsub := hsub), State.odG_odSet_same]
      refine ⟨trivial, ?_, ?_⟩
      · rw [State.odG_odSet_ne _ (.inl (by decide)) hsub hsub, State.odG_odSet_same]
      · obtain ⟨n, hrebound⟩ := State.rebind_part ((s1.modPart p (fun P => { port := P.port, reqFirst := a })).odResetPart p) p
        rw [State.odResetPart_part, State.part_modPart_same] at hrebound
        rw [State.part_of_parts (State.interrupt_parts _ _ _ _), (State.pushReread_within _ p _).part p, State.odSet_part,
          State.odSet_part, State.odSetP_part, hrebound]
        exact ⟨n, a, none, rfl⟩

/-- A FORM that cannot have its regions or its block changes nothing. -/
theorem State.formPart_refused (h : (s.formPart p).2 ≠ 0) :
    s.formPart p = (s, (s.formPart p).2) ∧ ((s.formPart p).2 = 0x0407 ∨ (s.formPart p).2 = 0x010B) := by
  unfold State.formPart at h ⊢
  split at h
  · exact ⟨rfl, .inl rfl⟩
  · dsimp only at h ⊢
    split at h
    · exact ⟨rfl, .inr rfl⟩
    · exact absurd rfl h

/-- What a formed partition's record holds. -/
theorem Wiped.empty {P : Partition} (h : Wiped P) : P.program = none ∧ P.claim = none ∧ P.keys = [] ∧ P.reqs = [] ∧
    P.cmd = .none := by
  obtain ⟨n, a, t, rfl⟩ := h
  exact ⟨rfl, rfl, rfl, rfl, rfl⟩

theorem reply_getLast (s : State) (c : Caller) (code : Nat) : (s.reply c code).out.getLast? = some (Emission.status c code) := by
  simp [State.reply, State.emit]

/-- Rotations and rejuvenation of a partition's fields yield. -/
theorem State.yieldFields_within (s : State) (mask : Nat) : Within [.fields, .acts] [0x2300, 0x7101] s
    (s.forEach (fieldsOf mask) (fun f s => s.yieldField f)) := .forEach _ (fun f s => s.yieldField_within f) s

theorem State.runPart_form (hform : s.formCode p = 0) (h : (s.formPart p).2 = 0) : s.runPart 0x70 p =
    (((s.formPart p).1.forEach (fieldsOf ((s.formPart p).1.partMask p)) (fun f s => s.yieldField f)).odSet 0x4000 3 0, 0) := by
  unfold State.runPart
  rw [if_pos rfl]
  dsimp only
  rw [if_neg (by simp [hform]), if_neg (by simp [h])]

theorem State.runPart_form_refused (hform : s.formCode p = 0) (h : (s.formPart p).2 ≠ 0) :
    s.runPart 0x70 p = (s, (s.formPart p).2) := by
  unfold State.runPart
  rw [if_pos rfl]
  dsimp only
  rw [if_neg (by simp [hform]), if_pos h, ← (State.formPart_refused h).1]

section form

variable {c : Caller} {cmd : List Byte} (h : PartCommand s c cmd 0x70 p)
include h

theorem answers_form (hform : s.counted.formCode p = 0) (hfree : s.counted.maintCode (s.counted.odG 0x4001 (p + 1)) = 0)
    (hok : (s.counted.formPart p).2 = 0) : Answers (.form c cmd) s (fun u =>
      u.partState p = 1 ∧ u.partMask p = s.odG 0x4001 (p + 1) ∧ (u.part p).program = none ∧ (u.part p).claim = none ∧
      (u.part p).keys = [] ∧ (u.part p).reqs = [] ∧ (u.part p).cmd = .none ∧ u.odG 0x4000 3 = 0 ∧
      u.out.getLast? = some (Emission.status c 0)) := by
  have hp : p < 32 := h.2.2.2.2.2.1
  have hsub : p + 1 < 256 := by omega
  have hrun := State.runPart_form hform hok
  obtain ⟨hstate, hmask, hwiped⟩ := State.formPart_ok hp hok
  have hcounted : s.counted.odG 0x4001 (p + 1) = s.odG 0x4001 (p + 1) := (s.odAdd_within 1).odG (idx := 0x4001) (hsub := hsub)
  have hyield := (s.counted.formPart p).1.yieldFields_within ((s.counted.formPart p).1.partMask p)
  have hframe := (hyield.mono (cs := [.fields, .acts]) (ods := [0x2300, 0x7101, 0x4000])).andThen (State.odSet_within _ (i := 0x4000) (b := 3) 0)
  refine answers_next (exec_partCommand_run h (by decide) rfl hform hfree (by rw [hrun])) ?_
  rw [hrun]
  obtain ⟨hprogram, hclaim, hkeys, hreqs, hcmd⟩ := hwiped.empty
  have hpart := hframe.part p
  refine ⟨(hframe.odG (idx := 0x4002) (hsub := hsub)).trans hstate,
    (hframe.odG (idx := 0x4003) (hsub := hsub)).trans (hmask.trans hcounted), (congrArg Partition.program hpart).trans hprogram,
    (congrArg Partition.claim hpart).trans hclaim, (congrArg Partition.keys hpart).trans hkeys,
    (congrArg Partition.reqs hpart).trans hreqs, (congrArg Partition.cmd hpart).trans hcmd, ?_,
    reply_getLast _ _ _⟩
  exact State.odG_odSet_same _ 0x4000 3 0

theorem refuses_form (hform : s.counted.formCode p = 0) (hfree : s.counted.maintCode (s.counted.odG 0x4001 (p + 1)) = 0)
    (hbad : (s.counted.formPart p).2 ≠ 0) : Refuses (.form c cmd) s c (s.counted.formPart p).2 := by
  refine refuses_partCommand h (by decide) rfl ?_
  have hrun := State.runPart_form_refused hform hbad
  have hearly : s.counted.partEarly 0x70 p = 0 := hform
  have hfields : s.counted.partFields 0x70 p = s.counted.odG 0x4001 (p + 1) := rfl
  rw [State.partRequest, if_neg (by simp [hearly]), hfields, if_neg (by rw [hfree]; decide), if_neg (by simp [hfree]), hrun,
    if_pos hbad]

end form

/-! ### RESET and DISSOLVE -/

theorem within_acts (s : State) (acts : List Activity) : Within [.acts] [] s { s with hub := { s.hub with acts := acts } } := by
  constructor <;> simp [State.fn, State.odP]
  exact ⟨acts, s.hub.queue, s.hub.fieldsDue, .refl _⟩

theorem State.endPartCmd_within (s : State) (p code : Nat) : Within [.acts] [0x4000, 0x7101] s (s.endPartCmd p code) := by
  unfold State.endPartCmd
  exact .ite (fun _ => ((within_acts s _).mono.andThen (State.odSet_within _ _)).andThen (State.showActs_within _))
    fun _ => .refl s

/-- The state in which a RESET or DISSOLVE has been logged and has its locks. -/
def State.partLocked (s : State) (opc p : Nat) : State :=
  (s.log { rule := 406, status := 0x000D, part := p }).startAct (.partCmd opc p)
    ((s.log { rule := 406, status := 0x000D, part := p }).partMask p)

theorem State.partLocked_within (s : State) (opc p : Nat) :
    Within [.fields, .acts] [0x2300, 0x7101] s (s.partLocked opc p) :=
  (s.log_within _).mono.andThen (State.startAct_within _ _ _)

theorem State.runPart_reset {dissolve : Bool} (hstate : s.partState p = 1 ∨ s.partState p = 2) :
    s.runPart (if dissolve then 0x72 else 0x71) p =
      (if ((s.partLocked (if dissolve then 0x72 else 0x71) p).resetPart p dissolve).partState p = 4 then
        (s.partLocked (if dissolve then 0x72 else 0x71) p).resetPart p dissolve
      else ((s.partLocked (if dissolve then 0x72 else 0x71) p).resetPart p dissolve).endPartCmd p 0, 0) := by
  have hstate' : ¬(s.partState p ≠ 1 ∧ s.partState p ≠ 2) := by omega
  unfold State.runPart
  cases dissolve <;> exact (if_neg (by decide)).trans (if_neg hstate')

section reset

variable {c : Caller} {cmd : List Byte} {dissolve : Bool} (h : PartCommand s c cmd (if dissolve then 0x72 else 0x71) p)
include h

theorem answers_reset (hstate : s.partState p = 1 ∨ s.partState p = 2)
    (hfree : s.counted.maintCode (s.counted.partMask p) = 0) :
    Answers (if dissolve then .dissolve c cmd else .reset c cmd) s (fun u =>
      ((dissolve = true ∨ (s.part p).claim ≠ none) → u.partState p = 4 ∧ (u.part p).scrubTo = some (if dissolve then 0 else 1)) ∧
      (¬(dissolve = true ∨ (s.part p).claim ≠ none) → u.partState p = 1) ∧ u.partMask p = s.partMask p ∧
      (u.part p).program = none ∧ (u.part p).claim = none ∧ (u.part p).reqs = [] ∧ (u.part p).keys = [] ∧
      (u.part p).cmd = .none ∧ u.out.getLast? = some (Emission.status c 0)) := by
  have hp : p < 32 := h.2.2.2.2.2.1
  have hsub : p + 1 < 256 := by omega
  have hcount : Within [] [0x1100] s s.counted := s.odAdd_within 1
  have hstate' : s.counted.partState p = 1 ∨ s.counted.partState p = 2 := by
    rw [State.partState, hcount.odG (idx := 0x4002) (hsub := hsub)]
    exact hstate
  have hlocked := hcount.mono (cs := [.fields, .acts]) (ods := [0x1100, 0x2300, 0x7101]) |>.andThen
    (s.counted.partLocked_within (if dissolve then 0x72 else 0x71) p)
  have hrun := State.runPart_reset (dissolve := dissolve) hstate'
  have hexec : exec (if dissolve then Instr.dissolve c cmd else .reset c cmd) s =
      .next (((s.counted.runPart (if dissolve then 0x72 else 0x71) p).1.setBlobP 0x4000 1 0xFF cmd).reply c 0) := by
    refine exec_partCommand_run h (by cases dissolve <;> decide) (by cases dissolve <;> rfl) ?_ ?_ (by rw [hrun])
    · cases dissolve <;> exact (if_neg (by decide)).trans (if_pos hstate')
    · cases dissolve <;> exact hfree
  refine answers_next hexec ?_
  rw [hrun]
  generalize hv : s.counted.partLocked (if dissolve then 0x72 else 0x71) p = v at hlocked
  have hended : Within [.acts] [0x4000, 0x7101] (v.resetPart p dissolve)
      (if (v.resetPart p dissolve).partState p = 4 then v.resetPart p dissolve else (v.resetPart p dissolve).endPartCmd p 0) :=
    .ite (fun _ => .refl _) fun _ => State.endPartCmd_within _ _ _
  have hpartState := (hended.odG (idx := 0x4002) (hsub := hsub)).trans (v.resetPart_partState hp dissolve)
  have hpartMask := ((hended.odG (idx := 0x4003) (hsub := hsub)).trans (v.resetPart_partMask hp dissolve)).trans
    (hlocked.odG (idx := 0x4003) (hsub := hsub))
  rw [hlocked.part p] at hpartState
  obtain ⟨hprogram, hclaim, hkeys, hreqs, hcmd⟩ := (v.resetPart_wiped hp dissolve).empty
  have hpart := hended.part p
  refine ⟨fun hscrubs => ⟨hpartState.trans (if_pos ?_), (congrArg Partition.scrubTo hpart).trans ?_⟩,
    fun hkeeps => hpartState.trans (if_neg ?_), hpartMask, (congrArg Partition.program hpart).trans hprogram,
    (congrArg Partition.claim hpart).trans hclaim, (congrArg Partition.reqs hpart).trans hreqs,
    (congrArg Partition.keys hpart).trans hkeys, (congrArg Partition.cmd hpart).trans hcmd, reply_getLast _ _ _⟩
  · simpa [Option.isSome_iff_ne_none, or_comm] using hscrubs
  · exact v.resetPart_scrubTo hp dissolve (by rw [hlocked.part p]; exact hscrubs.symm)
  · simpa [Option.isSome_iff_ne_none, and_comm] using hkeeps

theorem refuses_reset (h1 : s.partState p ≠ 1) (h2 : s.partState p ≠ 2) :
    Refuses (if dissolve then .dissolve c cmd else .reset c cmd) s c 0x0604 := by
  have hp : p < 32 := h.2.2.2.2.2.1
  have hsame : s.counted.partState p = s.partState p :=
    (s.odAdd_within (i := 0x1100) (b := 5) 1).odG (idx := 0x4002) (hsub := by omega)
  have hearly : s.counted.partEarly (if dissolve then 0x72 else 0x71) p = 0x0604 := by
    have hno : ¬(s.counted.partState p = 1 ∨ s.counted.partState p = 2) := by
      rw [hsame]
      omega
    cases dissolve <;> exact (if_neg (by decide)).trans (if_neg hno)
  have hrefused := refuses_early h (by cases dissolve <;> decide)
    (i := if dissolve then .dissolve c cmd else .reset c cmd) (by cases dissolve <;> rfl) (by rw [hearly]; decide)
  rwa [hearly] at hrefused

end reset

end Sys2Proof.Machine
end

section
/-!
SUPPORT. The end of a scrub (R353–R355), and FORM, RESET, DISSOLVE and SCRUB_COMPLETE together.
-/

-- One proof after another: side conditions of frames are default arguments, and proofs elaborated at once would each wait
-- for the kernel in a thread of their own, past the memory limit.
set_option Elab.async false

namespace Sys2Proof.Machine

variable {s : State} {p : Nat} (failed : List (TileId × Nat))

/-! ### Tiles that a scrub erases -/

theorem tileAt_tkey {t : TileId} (ht : tileOk t = true) : tileAt (tkey t) = t := by
  obtain ⟨u, y⟩ := t
  simp only [tileOk, Bool.and_eq_true, decide_eq_true_eq] at ht
  simp only [tileAt, tkey, TileId.mk.injEq]
  omega

/-- A tile whose scratchpad and core memories are empty, and its working cells where no array failed. -/
def Erased (T : Tile) : Prop := T.sp.mem = [] ∧ T.cc.isram = [] ∧ T.cc.dsram = [] ∧ (failed = [] → T.cb.cells = [])

theorem erased_empty : Erased failed {} := ⟨rfl, rfl, rfl, fun _ => rfl⟩

theorem erased_scrubTile (T : Tile) (f : Nat) (t : TileId) :
    Erased failed (scrubTile T (failedOf (failed.filter (fun e => fieldOfTile e.1 == f)) t)) := by
  refine ⟨rfl, rfl, rfl, fun hnone => ?_⟩
  subst hnone
  exact List.filter_eq_nil_iff.mpr (by simp [failedOf])

/-- Tiles of a list of keys changed, each with a property afterwards: the tiles of these keys have it, and so has a tile
that had it. -/
theorem State.forEach_modTile_holds {P : Tile → Prop} {g : Nat → Tile → Tile} (hg : ∀ k T, P (g k T)) (t : TileId)
    (l : List Nat) (s : State) (h : P (s.tile t) ∨ tkey t ∈ l) :
    P ((s.forEach l (fun k s => s.modTile (tileAt k) (g k))).tile t) := by
  induction l generalizing s with
  | nil => exact h.resolve_right (by simp)
  | cons k l ih =>
    refine ih _ ?_
    rw [State.tile_modTile, tkey_tileAt]
    split
    · exact .inl (hg _ _)
    · rename_i hk
      exact h.imp_right fun hmem => (List.mem_cons.mp hmem).resolve_left hk

/-- Keys of the tiles that the scrub of a field erases. -/
def State.scrubKeys (s : State) (f : Nat) : List Nat :=
  (((s.tiles.map (fun e => e.1)).filter (fun k => fieldOfTile (tileAt k) == f)) ++
    (failed.filter (fun e => fieldOfTile e.1 == f)).map (fun e => tkey e.1)).eraseDups

/-- The state in which a field's tiles have been erased. -/
def State.tilesScrubbed (s : State) (f : Nat) : State :=
  s.forEach (s.scrubKeys failed f) (fun k s => s.modTile (tileAt k)
    (fun T => scrubTile T (failedOf (failed.filter (fun e => fieldOfTile e.1 == f)) (tileAt k))))

/-- The state in which a field's tiles and trace windows have been erased. -/
def State.fieldErased (s : State) (f : Nat) : State :=
  if (s.tilesScrubbed failed f).stk.mem.isEmpty then s.tilesScrubbed failed f
  else (s.tilesScrubbed failed f).forEach (tilesOfField f) (fun t s =>
    match s.logical t with
    | none => s
    | some (x, y) => s.eraseStack (s.traceBase + (160 * y + x) * s.traceWindow) s.traceWindow)

/-- A field's scrub is counted, and its failed arrays are logged (R354). -/
def State.scrubCounted (s : State) (f : Nat) : State :=
  ((s.odAdd 0x4100 6 1).odSet 0x4104 (f + 1) (failed.filter (fun e => fieldOfTile e.1 == f)).length).forEach
    (failed.filter (fun e => fieldOfTile e.1 == f)) (fun e s => (s.odAdd 0x4100 7 1).log
      { rule := 354, sev := 2, source := 1, field := f, data := [e.1.u, e.1.y, e.2] })

theorem State.scrubField_eq (s : State) (f : Nat) :
    s.scrubField f failed = ((s.fieldErased failed f).odSet 0x7103 (f + 1) 0).scrubCounted failed f := rfl

theorem State.scrubCounted_within (s : State) {f : Nat} (hf : f < 64) :
    Within [] [0x4100, 0x4104] s (s.scrubCounted failed f) := by
  have hlogged (e : TileId × Nat) (t : State) : Within [] [0x4100, 0x4104] t ((t.odAdd 0x4100 7 1).log
      { rule := 354, sev := 2, source := 1, field := f, data := [e.1.u, e.1.y, e.2] }) :=
    (t.odAdd_within 1).mono.andThen (State.log_within _ _)
  exact ((s.odAdd_within 1).mono.andThen (State.odSet_within _ _ (by omega))).andThen (.forEach _ hlogged _)

theorem State.tilesScrubbed_within (s : State) (f : Nat) : Within [.tiles] [] s (s.tilesScrubbed failed f) :=
  .forEach _ (fun _ s => s.modTile_within _ _) s

/-- After the erasure of its tiles, a field's trace windows are erased. -/
theorem State.fieldErased_after (s : State) (f : Nat) : Within [.stk] [] (s.tilesScrubbed failed f) (s.fieldErased failed f) :=
  .ite (fun _ => .refl _) fun _ => .forEach _ (fun t s => s.eraseWindow_within t) _

theorem State.fieldErased_within (s : State) (f : Nat) : Within [.tiles, .stk] [] s (s.fieldErased failed f) :=
  (s.tilesScrubbed_within failed f).mono.andThen (s.fieldErased_after failed f)

theorem State.scrubField_within (s : State) {f : Nat} (hf : f < 64) :
    Within [.tiles, .stk] [0x7103, 0x4100, 0x4104] s (s.scrubField f failed) :=
  ((s.fieldErased_within failed f).mono.andThen (State.odSet_within _ _ (by omega))).andThen
    (State.scrubCounted_within failed _ hf)

/-- What a scrub does to a tile is done by its erasure. -/
theorem State.scrubField_tile (s : State) {f : Nat} (hf : f < 64) (t : TileId) :
    (s.scrubField f failed).tile t = (s.tilesScrubbed failed f).tile t := by
  rw [State.scrubField_eq, (State.scrubCounted_within failed _ hf).tile t,
    (State.odSet_within _ _ (by omega)).tile t, (s.fieldErased_after failed f).tile t]

/-- A scrub leaves erased tiles erased. -/
theorem State.scrubField_keeps_erased {f : Nat} (hf : f < 64) {t : TileId} (h : Erased failed (s.tile t)) :
    Erased failed ((s.scrubField f failed).tile t) := by
  rw [s.scrubField_tile failed hf t]
  exact State.forEach_modTile_holds (fun k T => erased_scrubTile failed T f (tileAt k)) t _ s (.inl h)

/-- A scrub erases every tile of its field. -/
theorem State.scrubField_erases {f : Nat} (hf : f < 64) {t : TileId} (ht : tileOk t = true) (hfield : fieldOfTile t = f) :
    Erased failed ((s.scrubField f failed).tile t) := by
  rw [s.scrubField_tile failed hf t]
  refine State.forEach_modTile_holds (fun k T => erased_scrubTile failed T f (tileAt k)) t _ s ?_
  cases hfound : mfind s.tiles (tkey t) with
  | none =>
    left
    rw [State.tile, mget, hfound]
    exact erased_empty failed
  | some T =>
    right
    have hkey : tkey t ∈ s.tiles.map (fun e => e.1) := List.mem_map.mpr ⟨_, mem_of_mfind hfound, rfl⟩
    have hback : tileAt (tkey t) = t := tileAt_tkey ht
    simp only [State.scrubKeys, List.mem_eraseDups, List.mem_append, List.mem_filter]
    exact .inl ⟨hkey, by simp [hback, hfield]⟩

/-! ### The mark of a scrubbed field (OD 0x7103) -/

theorem State.scrubField_mark_same {f : Nat} (hf : f < 64) : (s.scrubField f failed).odG 0x7103 (f + 1) = 0 := by
  rw [State.scrubField_eq, (State.scrubCounted_within failed _ hf).odG (idx := 0x7103) (hsub := by omega),
    State.odG_odSet_same]

theorem State.scrubField_mark_other {f g : Nat} (hf : f < 64) (hg : g < 64) (hne : g ≠ f) :
    (s.scrubField g failed).odG 0x7103 (f + 1) = s.odG 0x7103 (f + 1) := by
  have hsub : f + 1 < 256 := by omega
  rw [State.scrubField_eq, (State.scrubCounted_within failed _ hg).odG (idx := 0x7103) (hsub := hsub),
    State.odG_odSet_ne _ (.inr (by omega)) hsub (by omega), (s.fieldErased_within failed g).odG (idx := 0x7103) (hsub := hsub)]

/-! ### The fields of a partition, scrubbed one after another -/

/-- A field is marked scrubbed, and its tiles are erased. -/
def State.fieldClean (s : State) (f : Nat) : Prop :=
  s.odG 0x7103 (f + 1) = 0 ∧ ∀ t, tileOk t = true → fieldOfTile t = f → Erased failed (s.tile t)

/-- A field of a list that is on is scrubbed. -/
def State.scrubIfOn (s : State) (f : Nat) : State := if s.fieldOn f then s.scrubField f failed else s

theorem State.scrubIfOn_within (s : State) {f : Nat} (hf : f < 64) :
    Within [.tiles, .stk] [0x7103, 0x4100, 0x4104] s (s.scrubIfOn failed f) :=
  .ite (fun _ => s.scrubField_within failed hf) fun _ => .refl s

theorem State.scrubIfOn_fieldOn {f g : Nat} (hf : f < 64) (hg : g < 64) : (s.scrubIfOn failed g).fieldOn f = s.fieldOn f := by
  simp only [State.fieldOn, State.fieldState, (s.scrubIfOn_within failed hg).odG (idx := 0x2101) (sub := f + 1) (hsub := by omega)]

theorem State.fieldClean.scrubIfOn {f g : Nat} (hf : f < 64) (hg : g < 64) (h : s.fieldClean failed f) :
    (s.scrubIfOn failed g).fieldClean failed f := by
  obtain ⟨hmark, htiles⟩ := h
  unfold State.scrubIfOn
  split
  · refine ⟨?_, fun t ht hfield => State.scrubField_keeps_erased failed hg (htiles t ht hfield)⟩
    by_cases hgf : g = f
    · rw [hgf, State.scrubField_mark_same failed hf]
    · rw [State.scrubField_mark_other failed hf hg hgf, hmark]
  · exact ⟨hmark, htiles⟩

/-- Each field of a list that is on is clean after its scrub; a dark one is marked as before (R355). -/
theorem State.forEach_scrubIfOn {f : Nat} (hf : f < 64) {l : List Nat} (hl : ∀ g ∈ l, g < 64) (s : State) :
    (s.fieldOn f = true → s.fieldClean failed f ∨ f ∈ l →
      (s.forEach l (fun g s => s.scrubIfOn failed g)).fieldClean failed f) ∧
    (s.fieldOn f = false → (s.forEach l (fun g s => s.scrubIfOn failed g)).odG 0x7103 (f + 1) = s.odG 0x7103 (f + 1)) := by
  induction l generalizing s with
  | nil => exact ⟨fun _ h => h.resolve_right (by simp), fun _ => rfl⟩
  | cons g l ih =>
    have hg := hl g List.mem_cons_self
    obtain ⟨ihon, ihoff⟩ := ih (fun k hk => hl k (List.mem_cons_of_mem g hk)) (s.scrubIfOn failed g)
    rw [State.scrubIfOn_fieldOn failed hf hg] at ihon ihoff
    refine ⟨fun hon h => ihon hon ?_, fun hoff => (ihoff hoff).trans ?_⟩
    · rcases h with hclean | hmem
      · exact .inl (hclean.scrubIfOn failed hf hg)
      · rcases List.mem_cons.mp hmem with rfl | hmem
        · left
          rw [State.scrubIfOn, if_pos hon]
          exact ⟨State.scrubField_mark_same failed hf, fun t ht hfield => State.scrubField_erases failed hf ht hfield⟩
        · exact .inr hmem
    · rw [State.scrubIfOn]
      split
      · rename_i hon
        refine State.scrubField_mark_other failed hf hg ?_
        rintro rfl
        exact absurd hon (by simp [hoff])
      · rfl

/-! ### SCRUB_COMPLETE -/

theorem State.freeRegions_within (s : State) (hp : p < 32) : Within [.stk] [0x3320] s (s.freeRegions p) :=
  (within_stk s _).mono.andThen (State.odSetP_within _ _ (by decide) (by omega))

theorem State.freePart_within (s : State) (hp : p < 32) :
    Within [.stk, .parts] [0x3320, 0x5000, 0x4003, 0x4002] s (s.freePart p) :=
  (((((s.freeRegions_within hp).mono.andThen (State.modPart_within _ p _)).andThen
    (State.odSetP_within _ _ (by decide) (by omega)))).andThen (State.odSet_within _ _ (by omega))).andThen
    (State.odSet_within _ _ (by omega))

theorem State.freePart_part (s : State) : ((s.freePart p).part p).scrubTo = none := by
  show ((((s.freeRegions p).modPart p (fun P => { port := P.port })).part p)).scrubTo = none
  rw [State.part_modPart_same]

theorem State.freePart_partMask (s : State) (hp : p < 32) : (s.freePart p).partMask p = 0 := by
  have hsub : p + 1 < 256 := by omega
  unfold State.freePart State.partMask
  dsimp only
  rw [State.odG_odSet_ne _ (.inl (by decide)) hsub hsub, State.odG_odSet_same]

/-- The state in which the fields that are on have been scrubbed, and the partition awaits its own. -/
def State.fieldsScrubbed (s : State) (p : Nat) : State :=
  (s.forEach (fieldsOf (s.partMask p)) (fun f s => s.scrubIfOn failed f)).modPart p (fun P => { P with scrubTo := none })

theorem State.finishScrub_eq {next : Nat} (h : (s.part p).scrubTo = some next) : s.finishScrub p failed =
    (if next = 0 then (s.fieldsScrubbed failed p).freePart p
     else (s.fieldsScrubbed failed p).odSet 0x4002 (p + 1) next).endPartCmd p 0 := by
  rw [State.finishScrub, h]
  rfl

/-- What a partition's scrub leads to, before its command ends. -/
theorem State.scrubEnd (s : State) (hp : p < 32) (next : Nat) :
    let u := if next = 0 then (s.fieldsScrubbed failed p).freePart p
      else (s.fieldsScrubbed failed p).odSet 0x4002 (p + 1) next
    Within [.stk, .parts] [0x3320, 0x5000, 0x4003, 0x4002] (s.fieldsScrubbed failed p) u ∧ u.partState p = next ∧
      (u.part p).scrubTo = none ∧ (next = 0 → u.partMask p = 0) := by
  have hsub : p + 1 < 256 := by omega
  dsimp only
  split
  · rename_i hfree
    exact ⟨State.freePart_within _ hp, (State.odG_odSet_same _ _ _ _).trans hfree.symm, State.freePart_part _,
      fun _ => State.freePart_partMask _ hp⟩
  · rename_i hkept
    refine ⟨(State.odSet_within _ _ hsub).mono, State.odG_odSet_same _ _ _ _, ?_, fun h => absurd h hkept⟩
    rw [State.odSet_part, State.fieldsScrubbed, State.part_modPart_same]

theorem answers_scrubComplete (hp : p < 32) (hok : failed.all (fun e => tileOk e.1 && decide (e.2 < 192)) = true) {next : Nat}
    (h : (s.part p).scrubTo = some next) : Answers (.scrubComplete p failed) s (fun u =>
      u.partState p = next ∧ (u.part p).scrubTo = none ∧ (next = 0 → u.partMask p = 0) ∧
      (∀ f, f < 64 → bit (s.partMask p) f = true →
        (s.fieldOn f = true → u.odG 0x7103 (f + 1) = 0 ∧ ∀ t, tileOk t = true → fieldOfTile t = f →
          Erased failed (u.tile t)) ∧
        (s.fieldOn f = false → u.odG 0x7103 (f + 1) = s.odG 0x7103 (f + 1)))) := by
  have hsub : p + 1 < 256 := by omega
  refine answers_next (guardRes_next (by simp [partOk, hp, hok]) (State.finishScrub_eq failed h)) ?_
  obtain ⟨hframe, hstate, hscrub, hmask⟩ := s.scrubEnd failed hp next
  generalize (if next = 0 then (s.fieldsScrubbed failed p).freePart p
      else (s.fieldsScrubbed failed p).odSet 0x4002 (p + 1) next) = w at hframe hstate hscrub hmask
  have hended := w.endPartCmd_within p 0
  have hafter : Within [.stk, .parts, .acts] [0x3320, 0x5000, 0x4003, 0x4002, 0x4000, 0x7101]
      (s.forEach (fieldsOf (s.partMask p)) (fun f s => s.scrubIfOn failed f)) (w.endPartCmd p 0) :=
    ((State.modPart_within _ p _).mono.andThen hframe).andThen hended
  refine ⟨(hended.odG (idx := 0x4002) (hsub := hsub)).trans hstate, (congrArg Partition.scrubTo (hended.part p)).trans hscrub,
    fun hzero => (hended.odG (idx := 0x4003) (hsub := hsub)).trans (hmask hzero), fun f hf hbit => ?_⟩
  have hmem : f ∈ fieldsOf (s.partMask p) := by simp [fieldsOf, allFields, hf, hbit]
  obtain ⟨hon, hoff⟩ := State.forEach_scrubIfOn failed hf (fun g hg => fieldsOf_lt hg) s
  rw [hafter.odG (idx := 0x7103) (hsub := by omega)]
  refine ⟨fun hfield => ?_, hoff⟩
  obtain ⟨hmark, htiles⟩ := hon hfield (.inr hmem)
  exact ⟨hmark, fun t ht hft => by rw [hafter.tile t]; exact htiles t ht hft⟩

end Sys2Proof.Machine

open Sys2Proof Sys2Proof.Machine

/-- Settles O41, by what a partition command meets (Table 15.2): its own checks, the locks, then its run; and, for the end
of a scrub, field by field (R353–R355). How the work of a partition ends is log 96. -/
theorem partitionCommands : Obligations.PartitionCommands := by
  unfold Obligations.PartitionCommands
  intro s c cmd p
  refine ⟨fun h => ⟨fun hcode => refuses_early h (by decide) rfl hcode, fun hcode hfree =>
      ⟨fun hok => answers_form h hcode hfree hok, fun hbad => ⟨refuses_form h hcode hfree hbad, (State.formPart_refused hbad).2⟩⟩,
      fun hcode hheld => answers_partCommand_queued h (by decide) rfl hcode hheld⟩,
    fun dissolve h => ⟨fun h1 h2 => refuses_reset h h1 h2, fun hstate hfree => answers_reset h hstate hfree⟩,
    fun failed hp hok => ⟨fun hnone => guardRes_next (by simp [partOk, hp, hok]) (by rw [State.finishScrub, hnone]),
      fun next hnext => answers_scrubComplete failed hp hok hnext⟩⟩
end

section
/-!
SUPPORT. Callers of the dictionary that are not served, kept responses, peers that expire, the mailbox (R289, R382, R385,
R386), and factory configuration (R391).
-/

-- One proof after another: side conditions of frames are default arguments, and proofs elaborated at once would each wait
-- for the kernel in a thread of their own, past the memory limit.
set_option Elab.async false

namespace Sys2Proof.Machine

variable {s : State}

/-! ### Requests that do not run -/

theorem State.request_notServed {c : Caller} (h : s.mayCall c = false) (op : Nat) (m : DictMsg) (env : CmdEnv) :
    s.request c op m env = s := if_pos (by simp [h])

theorem noEffect_request {i : Instr} {c : Caller} {op : Nat} {m : DictMsg} {env : CmdEnv}
    (hexec : exec i s = .next (s.request c op m env)) (h : s.mayCall c = false) : NoEffect i s :=
  hexec.trans (congrArg _ (State.request_notServed h op m env))

/-- A mailbox's repeated request is answered with the kept response (R386). -/
theorem State.request_kept {c : Caller} {m : DictMsg} {op : Nat} {r : DictMsg} (hcall : s.mayCall c = true)
    (hmailbox : ∀ a p, c ≠ .net a p) (hlen : m.len = m.value.length) (hfits : m.value.length ≤ 4072)
    (hkept : s.hub.kept.find? (fun e => e.1 == c && e.2.1 == m.seq) = some (c, m.seq, op, r)) (op' : Nat) (env : CmdEnv) :
    s.request c op' m env = s.answerMsg c op r := by
  have hserve : s.serveMsg c op' m env = s.answerMsg c op r := by
    unfold State.serveMsg
    rw [if_neg (by omega), hkept]
  have hcalls : ¬(!s.mayCall c) = true := by simp [hcall]
  cases c with
  | net a p => exact absurd rfl (hmailbox a p)
  | pf port => exact (if_neg hcalls).trans hserve
  | vf port n => exact (if_neg hcalls).trans hserve

theorem answers_kept {i : Instr} {c : Caller} {op : Nat} {r : DictMsg} (hexec : exec i s = .next (s.answerMsg c op r)) :
    Answers i s (fun u => answerTo c op r ∈ u.out ∧ u.parts = s.parts ∧ u.od = s.od ∧ u.hub = s.hub) := by
  obtain ⟨fns, out, hans, hout⟩ := s.answerMsg_frame c op r
  rw [hans] at hexec
  exact answers_next hexec ⟨hout, rfl, rfl, rfl⟩

/-! ### Peers of the network -/

theorem answers_peerExpiry {a p : Nat} (haway : s.hub.away = false) (hpeer : (a, p) ∈ s.hub.peers) :
    Answers (.networkPeerExpiry a p) s (fun u =>
      (a, p) ∉ u.hub.peers ∧ u.versionOf (.net a p) = none ∧ (∀ e ∈ u.hub.kept, e.1 ≠ .net a p) ∧
      (∀ q, q ≠ (a, p) → (q ∈ u.hub.peers ↔ q ∈ s.hub.peers))) := by
  have hexec : exec (.networkPeerExpiry a p) s = .next { s.dropCaller (.net a p) with hub :=
      { (s.dropCaller (.net a p)).hub with peers := s.hub.peers.filter (fun e => e != (a, p)) } } :=
    guardRes_next rfl (by simp [haway, hpeer, State.dropCaller])
  refine answers_next hexec ⟨by simp, ?_, fun e he => ?_, fun q hq => by simp [hq]⟩
  · simp only [State.versionOf, State.dropCaller, List.find?_filter, Option.map_eq_none_iff, List.find?_eq_none]
    simp
  · simpa using (List.mem_filter.mp he).2

theorem noEffect_peerExpiry {a p : Nat} (hpeer : (a, p) ∉ s.hub.peers) : NoEffect (.networkPeerExpiry a p) s :=
  guardRes_next rfl (by simp [hpeer])

/-! ### The mailbox -/

section mailbox

variable {port : Port} {fn : Nat} {v : Word} {env : CmdEnv} (henv : startOk env.start = true) (hfn : fn ≤ 32)
  (hserved : fn = 0 ∨ s.bound port fn = true)
include henv hfn hserved

theorem exec_mailboxGo : exec (.mailboxGo port fn v env) s = .next (s.mailboxGo port fn v.toNat env) := by
  have hbound : ¬(fn ≠ 0 ∧ s.bound port fn = false) := by
    rcases hserved with h | h <;> simp [h]
  exact guardRes_next (by rw [fnOk_of_le hfn, henv]; rfl) (if_neg hbound)

theorem setsFn_mailboxLength (hgo : ¬bit v.toNat 31 = true) :
    SetsFn (.mailboxGo port fn v env) s port fn { s.fn port fn with mbLen := v.toNat % 8192 } := by
  refine setsFn_of_exec (f := fun f => { f with mbLen := v.toNat % 8192 })
    ((exec_mailboxGo henv hfn hserved).trans (congrArg _ ?_)) rfl
  rw [State.mailboxGo]
  simp [hgo]

theorem setsFn_mailboxBusy (hgo : bit v.toNat 31 = true) (hbusy : (s.fn port fn).mbBusy = true) :
    SetsFn (.mailboxGo port fn v env) s port fn { s.fn port fn with mbErr := 0x0A07 } := by
  refine setsFn_of_exec (f := fun f => { f with mbErr := 0x0A07 })
    ((exec_mailboxGo henv hfn hserved).trans (congrArg _ ?_)) rfl
  rw [State.mailboxGo]
  simp [hgo, hbusy, State.mailboxFault]

theorem setsFn_mailboxWrongLength (hgo : bit v.toNat 31 = true) (hidle : (s.fn port fn).mbBusy = false)
    (hlen : v.toNat % 8192 = 0 ∨ 4096 < v.toNat % 8192) : SetsFn (.mailboxGo port fn v env) s port fn
      { s.fn port fn with mbLen := v.toNat % 8192, mbDone := false, mbErr := 0x0002 } := by
  refine setsFn_of_exec (f := fun f => { f with mbLen := v.toNat % 8192, mbDone := false, mbErr := 0x0002 })
    ((exec_mailboxGo henv hfn hserved).trans (congrArg _ ?_)) rfl
  rw [State.mailboxGo]
  simp only [hgo, hidle, Bool.not_true, Bool.false_eq_true, if_false, if_pos hlen, State.mailboxFault, State.modFn_modFn_same]

/-- A request in the mailbox reaches the server, or waits while it is away (R289). -/
theorem exec_mailboxRequest (hgo : bit v.toNat 31 = true) (hidle : (s.fn port fn).mbBusy = false)
    (hpos : 0 < v.toNat % 8192) (hmax : v.toNat % 8192 ≤ 4096) :
    let s1 := s.modFn port fn (fun _ =>
      { s.fn port fn with mbLen := v.toNat % 8192, mbBusy := true, mbDone := false, mbErr := 0 })
    (s.serving = false → exec (.mailboxGo port fn v env) s = .next s1) ∧
    (s.serving = true → 24 ≤ v.toNat % 8192 → exec (.mailboxGo port fn v env) s =
      (let b := mread 0 (s.fn port fn).mbReq 0 (v.toNat % 8192)
       .next (s1.request (if fn = 0 then .pf port else .vf port fn) (fieldN b 2 1) (msgOf b) env))) := by
  intro s1
  have hlen : ¬(v.toNat % 8192 = 0 ∨ 4096 < v.toNat % 8192) := by omega
  have hmodel : s.mailboxGo port fn v.toNat env =
      if !s1.serving then s1
      else if v.toNat % 8192 < 24 then
        (s1.dictViolation (fnCaller port fn) 0x0002).answerMsg (fnCaller port fn)
          (fieldN (mread 0 (s.fn port fn).mbReq 0 (v.toNat % 8192)) 2 1)
          (respond (msgOf (fitB (mread 0 (s.fn port fn).mbReq 0 (v.toNat % 8192)) 24)) 0x0002 [] 0 false)
      else s1.request (fnCaller port fn) (fieldN (mread 0 (s.fn port fn).mbReq 0 (v.toNat % 8192)) 2 1)
        (msgOf (mread 0 (s.fn port fn).mbReq 0 (v.toNat % 8192))) env := by
    rw [State.mailboxGo]
    simp only [hgo, hidle, Bool.not_true, Bool.false_eq_true, if_false, if_neg hlen]
    rfl
  have hsame : s1.serving = s.serving := rfl
  rw [exec_mailboxGo henv hfn hserved, hmodel, hsame]
  refine ⟨fun haway => by rw [haway]; rfl, fun hserving hlong => ?_⟩
  rw [hserving, if_neg (by decide), if_neg (by omega)]
  rfl

end mailbox

/-! ### Factory configuration -/

/-- The row of an entry is saved configuration, of the device or of a user (Table 17.4). -/
def savedRow (idx sub : Nat) : Bool := ((odFind idx sub).map (fun r => r.pers == .s || r.pers == .u)).getD false

/-- An entry that is not saved configuration is written: saved configuration stands. -/
theorem State.odSet_saved {i b idx sub : Nat} (v : Nat) (hb : b < 256) (hother : savedRow i b = false)
    (hsaved : savedRow idx sub = true) (hsub : sub < 256) : (s.odSet i b v).odG idx sub = s.odG idx sub := by
  refine s.odG_odSet_ne ?_ hsub hb
  by_contra hsame
  push Not at hsame
  obtain ⟨rfl, rfl⟩ := hsame
  exact absurd hsaved (by simp [hother])

theorem State.zeroDeltas_within (s : State) : Within [.tiles] [] s s.zeroDeltas := by
  have hmapped : Within [.tiles] [] s (s.mapArrays (fun x => { x with delta := [], saved := [] })) :=
    .forEach _ (fun _ s => s.modTile_within _ _) s
  exact hmapped.andThen (.forEach _ (fun _ s => s.modTile_within _ _) _)

theorem State.arr_modCb (u t : TileId) (b : Nat) {f : ChargeBank → ChargeBank} (hf : ∀ cb, (f cb).arr b = cb.arr b) :
    ((s.modCb u f).tile t).cb.arr b = (s.tile t).cb.arr b := by
  rw [State.modCb, State.tile_modTile]
  split
  · rename_i hkey
    have hsame : s.tile t = s.tile u := by simp only [State.tile, hkey]
    rw [hsame]
    exact hf _
  · rfl

theorem State.arr_modLk (u t : TileId) (b : Nat) (f : Lookout → Lookout) :
    ((s.modLk u f).tile t).cb.arr b = (s.tile t).cb.arr b := by
  rw [State.modLk, State.tile_modTile]
  split
  · rename_i hkey
    have hsame : s.tile t = s.tile u := by simp only [State.tile, hkey]
    rw [hsame]
  · rfl

/-- Every delta of every array is zero, in force and saved (R391). -/
theorem State.zeroDeltas_arr (s : State) (t : TileId) (b : Nat) :
    ((s.zeroDeltas.tile t).cb.arr b).delta = [] ∧ ((s.zeroDeltas.tile t).cb.arr b).saved = [] := by
  have harr : (s.zeroDeltas.tile t).cb.arr b =
      ((s.mapArrays (fun x => { x with delta := [], saved := [] })).tile t).cb.arr b := by
    unfold State.zeroDeltas
    dsimp only
    generalize s.mapArrays (fun x => { x with delta := [], saved := [] }) = s1
    refine State.forEach_unchanged (fun s => (s.tile t).cb.arr b) (fun k s => ?_) _ _
    exact State.arr_modCb (tileAt k) t b (fun _ => rfl)
  rw [harr, State.mapArrays_arr (f := fun x => { x with delta := [], saved := [] }) (fun _ => rfl) rfl]
  exact ⟨rfl, rfl⟩

theorem State.pushReread_arr (p fields : Nat) (t : TileId) (b : Nat) :
    ((s.pushReread p fields).tile t).cb.arr b = (s.tile t).cb.arr b := by
  refine State.forEach_unchanged (fun s => (s.tile t).cb.arr b) (fun u s => ?_) _ _
  refine (apply_ite (fun s : State => (s.tile t).cb.arr b) _ _ _).trans ?_
  rw [State.arr_modLk, ite_self]

/-- The factory's overlays in place of the device's, the change counted. -/
def State.factoryDeltasSet (s : State) : State := ({ s with hub := { s.hub with deltas := factoryDeltas } }).odAdd 0x1200 2 1

/-- The re-read count taken to every formed partition. -/
def State.rereadFormed (s : State) : State :=
  s.forEach (List.range 32) (fun p s => if s.partState p = 0 then s else s.pushReread p (s.partMask p))

theorem State.rereadFormed_within (s : State) : Within [.tiles] [] s s.rereadFormed :=
  .forEach _ (fun p s => .ite (fun _ => .refl s) fun _ => s.pushReread_within p _) s

theorem State.rereadFormed_arr (t : TileId) (b : Nat) : (s.rereadFormed.tile t).cb.arr b = (s.tile t).cb.arr b := by
  refine State.forEach_unchanged (fun s => (s.tile t).cb.arr b) (fun p s => ?_) _ _
  refine (apply_ite (fun s : State => (s.tile t).cb.arr b) _ _ _).trans ?_
  rw [State.pushReread_arr, ite_self]

theorem State.retrain_within (s : State) (changed : Nat) : Within [] [0x6100, 0x6101] s (s.retrain changed) := by
  refine .forEach_mem _ (fun n hn s => ?_) s
  have hport : n < 16 := List.mem_range.mp (List.mem_filter.mp hn).1
  exact (s.odSet_within _).mono.andThen (State.odSet_within _ _ (by omega))

theorem savedRow_ports : ∀ n < 16, savedRow 0x6101 (n + 1) = false := by decide +kernel

theorem State.retrain_saved (s : State) (changed : Nat) {idx sub : Nat} (hsaved : savedRow idx sub = true) (hsub : sub < 256) :
    (s.retrain changed).odG idx sub = s.odG idx sub := by
  have hports : ∀ n ∈ (List.range 16).filter (fun n => bit changed n), n < 16 := fun n hn =>
    List.mem_range.mp (List.mem_filter.mp hn).1
  unfold State.retrain
  dsimp only
  generalize (List.range 16).filter (fun n => bit changed n) = l at hports
  induction l generalizing s with
  | nil => rfl
  | cons n l ih =>
    have hn := hports n List.mem_cons_self
    rw [State.forEach, ih _ fun k hk => hports k (List.mem_cons_of_mem n hk),
      State.odSet_saved _ (by omega) (savedRow_ports n hn) hsaved hsub, State.odSet_saved _ (by decide) (by decide +kernel) hsaved hsub]

/-- The state in which the device has its factory configuration, before the count of it. -/
def State.factoryState (s : State) : State :=
  ((s.odReset (fun r _ _ => r.pers == .u || r.pers == .s)).zeroDeltas.factoryDeltasSet.rereadFormed).retrain (s.odG 0x6100 5)

theorem State.restoreFactory_eq (hopen : ∀ p, p < 32 → s.isSealed p = false) (hidle : s.activating = false) :
    State.restoreFactory 0xFAC7 s = (s.factoryState.odAdd 0x1230 2 1, 0) := by
  have hany : (List.range 32).any (fun p => s.isSealed p) = false := by
    simp only [List.any_eq_false, List.mem_range, Bool.not_eq_true]
    exact hopen
  rw [State.restoreFactory, if_neg (by decide), hany, hidle]
  rfl

theorem State.restoreFactory_sealed {p : Nat} (hp : p < 32) (hsealed : s.isSealed p = true) :
    State.restoreFactory 0xFAC7 s = (s, 0x0602) := by
  have hany : (List.range 32).any (fun p => s.isSealed p) = true :=
    List.any_eq_true.mpr ⟨p, List.mem_range.mpr hp, hsealed⟩
  rw [State.restoreFactory, if_neg (by decide), hany]
  rfl

theorem State.factoryDeltasSet_within (s : State) : Within [.hub] [0x1200] s s.factoryDeltasSet :=
  (within_hub s _).mono.andThen (State.odAdd_within _ 1)

/-- After the saved values have been dropped, what follows changes tiles, overlays and the links' entries. -/
theorem State.factoryState_within (s : State) : Within [.tiles, .hub] [0x1200, 0x6100, 0x6101]
    (s.odReset (fun r _ _ => r.pers == .u || r.pers == .s)) s.factoryState :=
  (((State.zeroDeltas_within _).mono.andThen (State.factoryDeltasSet_within _)).andThen
    (State.rereadFormed_within _)).andThen (State.retrain_within _ _)

theorem State.factoryState_deltas (s : State) : s.factoryState.hub.deltas = factoryDeltas := by
  have hafter : Within [.tiles] [0x6100, 0x6101]
      ((s.odReset (fun r _ _ => r.pers == .u || r.pers == .s)).zeroDeltas.factoryDeltasSet) s.factoryState :=
    (State.rereadFormed_within _).mono.andThen (State.retrain_within _ _)
  obtain ⟨_, _, _, h⟩ := hafter.hub (by decide) (by decide)
  rw [h]
  rfl

theorem State.factoryState_arr (s : State) (t : TileId) (b : Nat) :
    ((s.factoryState.tile t).cb.arr b).delta = [] ∧ ((s.factoryState.tile t).cb.arr b).saved = [] := by
  have harr : (s.factoryState.tile t).cb.arr b =
      ((s.odReset (fun r _ _ => r.pers == .u || r.pers == .s)).zeroDeltas.tile t).cb.arr b := by
    rw [State.factoryState, (State.retrain_within _ _).tile t, State.rereadFormed_arr, (State.factoryDeltasSet_within _).tile t]
  rw [harr]
  exact State.zeroDeltas_arr _ t b

theorem State.factoryState_saved (s : State) {idx sub : Nat} {r : OdRow} (hrow : odFind idx sub = some r)
    (hpers : r.pers = .s ∨ r.pers = .u) (hsub : sub < 256) : s.factoryState.odG idx sub = odDefault idx sub := by
  have hsaved : savedRow idx sub = true := by
    rcases hpers with h | h <;> simp [savedRow, hrow, h]
  have hlog : idx ≠ 0x1110 := by
    rintro rfl
    have hr := odFind_idx hrow
    revert hpers
    have hlogRows : ∀ r ∈ odTable, r.idx = 0x1110 → ¬(r.pers = .s ∨ r.pers = .u) := by decide +kernel
    exact hlogRows r (List.mem_of_find?_eq_some hrow) hr
  rw [State.factoryState, State.retrain_saved _ _ hsaved hsub, (State.rereadFormed_within _).odG (by simp) hlog hsub,
    State.factoryDeltasSet, State.odAdd, State.odSet_saved _ (by decide) (by decide +kernel) hsaved hsub]
  refine ((State.zeroDeltas_within _).odG (by simp) hlog hsub).trans (State.odReset_odP_dropped _ hsub (by decide) hrow ?_)
  rcases hpers with h | h <;> simp [h]

section restore

variable {c : Caller} {v : Nat} (h : Admitted s c 0x1230 1 0xFF)
include h

theorem exec_restoreFactory : exec (.restoreFactory c v) s =
    .next ((State.restoreFactory v s.counted).1.reply c (State.restoreFactory v s.counted).2) := by
  show guardRes (callerOk c) (s.command c 0x1230 1 0xFF (State.restoreFactory v)) = _
  rw [h.command_eq, h.1]
  rfl

theorem refuses_restoreFactory {code : Nat} (hcode : State.restoreFactory v s.counted = (s.counted, code)) :
    Refuses (.restoreFactory c v) s c code := by
  rw [Refuses, exec_restoreFactory h, hcode]

omit h in
theorem State.counted_isSealed {p : Nat} (hp : p < 32) : s.counted.isSealed p = s.isSealed p := by
  rw [State.isSealed, (State.odAdd_within s (i := 0x1100) (b := 5) 1).odG (idx := 0x4102) (u := s.counted) (hsub := by omega)]
  rfl

theorem answers_restoreFactory (hopen : ∀ p, p < 32 → s.isSealed p = false) (hidle : s.activating = false) :
    Answers (.restoreFactory c 0xFAC7) s (fun u => u.odG 0x1230 2 = s.odG 0x1230 2 + 1 ∧ u.hub.deltas = factoryDeltas ∧
      (∀ t a, ((u.tile t).cb.arr a).delta = [] ∧ ((u.tile t).cb.arr a).saved = []) ∧
      (∀ idx sub r, odFind idx sub = some r → r.pers = .s ∨ r.pers = .u → sub < 256 → u.odG idx sub = odDefault idx sub) ∧
      u.out = s.out ++ [Emission.status c 0]) := by
  have hrun := State.restoreFactory_eq (s := s.counted) (fun p hp => (State.counted_isSealed hp).trans (hopen p hp)) hidle
  have hexec := exec_restoreFactory h (v := 0xFAC7)
  rw [hrun] at hexec
  have hkept : ∀ r, odFind 0x1230 2 = some r → (r.pers == .u || r.pers == .s) = false := by decide +kernel
  have hcount : s.counted.factoryState.odG 0x1230 2 = s.odG 0x1230 2 :=
    ((State.factoryState_within _).odG (idx := 0x1230)).trans ((State.odReset_odP_kept _ (by decide) (by decide) hkept).trans
      ((s.odAdd_within (i := 0x1100) (b := 5) 1).odG (idx := 0x1230)))
  refine answers_next hexec ⟨?_, State.factoryState_deltas _, State.factoryState_arr _, fun idx sub r hrow hpers hsub => ?_, ?_⟩
  · show (s.counted.factoryState.odAdd 0x1230 2 1).odG 0x1230 2 = _
    rw [State.odG_odAdd_same, hcount]
  · show (s.counted.factoryState.odAdd 0x1230 2 1).odG idx sub = _
    refine (State.odSet_saved (i := 0x1230) (b := 2) _ (by decide) (by decide +kernel) ?_ hsub).trans
      (State.factoryState_saved _ hrow hpers hsub)
    rcases hpers with h | h <;> simp [savedRow, hrow, h]
  · show s.counted.factoryState.out ++ [Emission.status c 0] = _
    rw [(State.factoryState_within s.counted).out (by decide)]
    rfl

end restore

end Sys2Proof.Machine

open Sys2Proof Sys2Proof.Machine

/-- Settles O39, by what stands between a caller and the server: service, the kept response (R386), the mailbox's registers
(R289); and, for factory configuration, by the fate of each kind of row (R391). -/
theorem dictionaryCallers : Obligations.DictionaryCallers := by
  unfold Obligations.DictionaryCallers
  intro s c m env henv hc
  have hguard {op : Nat} {env' : CmdEnv} : guardRes (callerOk c) (s.request c op m env') = .next (s.request c op m env') := by
    rw [hc]
    rfl
  have hwrite : exec (.write c m env) s = .next (s.request c 3 m env) := guardRes_next (by rw [hc, henv]; rfl) rfl
  refine ⟨fun hcall => ⟨noEffect_request hguard hcall, noEffect_request hguard hcall, noEffect_request hwrite hcall,
      noEffect_request hguard hcall, noEffect_request hguard hcall, noEffect_request hguard hcall⟩,
    fun op r hcall hmailbox hlen hfits hkept =>
      ⟨answers_kept (hguard.trans (congrArg _ (State.request_kept hcall hmailbox hlen hfits hkept 2 quietEnv))),
        answers_kept (hwrite.trans (congrArg _ (State.request_kept hcall hmailbox hlen hfits hkept 3 env)))⟩,
    fun a p haway hpeer => answers_peerExpiry haway hpeer, fun a p hpeer => noEffect_peerExpiry hpeer,
    fun port fn v hfn hserved => ⟨setsFn_mailboxLength henv hfn hserved, setsFn_mailboxBusy henv hfn hserved,
      setsFn_mailboxWrongLength henv hfn hserved, exec_mailboxRequest henv hfn hserved⟩,
    fun v h => ⟨fun hv => refuses_restoreFactory h (if_pos hv), ?_, ?_⟩⟩
  · rintro rfl ⟨p, hp, hsealed⟩
    exact refuses_restoreFactory h (State.restoreFactory_sealed hp ((State.counted_isSealed hp).trans hsealed))
  · rintro rfl hopen hidle
    exact answers_restoreFactory h hopen hidle
end

section
/-!
SUPPORT. SPDM of a function: negotiation, certificates, measurements and the life of its session (R356, R357, R367).
-/

-- One proof after another: side conditions of frames are default arguments, and proofs elaborated at once would each wait
-- for the kernel in a thread of their own, past the memory limit.
set_option Elab.async false

namespace Sys2Proof.Machine

variable {s : State} {port : Port} {fn : Nat}

theorem State.spdmError_count (s : State) (port : Port) (fn code : Nat) :
    (s.spdmError port fn code).odG 0x4100 5 = s.odG 0x4100 5 + 1 := State.odG_odAdd_same s 0x4100 5 1

section requests

variable {i : Instr} {level : Nat} {run : State → State} (hfn : fn ≤ 32)
  (hi : exec i s = guardRes (fnOk fn) (s.spdmAt port fn level run))
include hfn hi

theorem exec_spdm {u : State} (h : s.spdmAt port fn level run = u) : exec i s = .next u := by
  rw [hi, fnOk_of_le hfn, h]
  rfl

/-- While the hub is away no request of SPDM is answered (R371). -/
theorem noEffect_spdm (hoff : s.spdmOn = false) : NoEffect i s := exec_spdm hfn hi (if_pos (by simp [hoff]))

/-- A request before its level is an error (R357). -/
theorem exec_spdm_early (hon : s.spdmOn = true) (hlevel : (s.fn port fn).spdm < level) :
    exec i s = .next (s.spdmError port fn 0x04) :=
  exec_spdm hfn hi ((if_neg (by simp [hon])).trans (if_pos hlevel))

theorem exec_spdm_runs (hon : s.spdmOn = true) (hlevel : level ≤ (s.fn port fn).spdm) : exec i s = .next (run s) :=
  exec_spdm hfn hi ((if_neg (by simp [hon])).trans (if_neg (Nat.not_lt.mpr hlevel)))

end requests

section serving

variable (hfn : fn ≤ 32) (hon : s.spdmOn = true)
include hfn hon

theorem exec_getMeasurements_listed (hready : 3 ≤ (s.fn port fn).spdm) {idx : List Nat} (nonce : List Byte)
    (hlisted : ∀ i ∈ idx, s.measurement port fn i ≠ none) : Answers (.getMeasurements port fn idx nonce) s (fun u =>
      u.odG 0x4100 4 = s.odG 0x4100 4 + 1 ∧ ∃ r sig, u.out = s.out ++ [Emission.spdm port fn 0x60
        (idx.flatMap (fun i => leBytes 1 i ++ leBytes 2 ((s.measurement port fn i).getD []).length ++
          (s.measurement port fn i).getD []) ++ r ++ sig)]) := by
  have hexec := exec_spdm_runs (i := .getMeasurements port fn idx nonce) hfn rfl hon hready
  have hany : idx.any (fun i => (s.measurement port fn i).isNone) = false := by
    simp only [List.any_eq_false, Option.isNone_iff_eq_none]
    exact hlisted
  simp only [hany, Bool.false_eq_true, if_false] at hexec
  exact answers_next hexec ⟨State.odG_odAdd_same s 0x4100 4 1, _, _, rfl⟩

theorem exec_getMeasurements_unlisted (hready : 3 ≤ (s.fn port fn).spdm) {idx : List Nat} (nonce : List Byte)
    (hunlisted : ∃ i ∈ idx, s.measurement port fn i = none) :
    exec (.getMeasurements port fn idx nonce) s = .next (s.spdmError port fn 0x01) := by
  have hany : idx.any (fun i => (s.measurement port fn i).isNone) = true := by
    simpa [List.any_eq_true, Option.isNone_iff_eq_none] using hunlisted
  exact (exec_spdm_runs (i := .getMeasurements port fn idx nonce) hfn rfl hon hready).trans (congrArg _ (if_pos hany))

/-- A portion of the certificate chain of slot 0 (R356). -/
theorem answers_getCertificate (hready : 3 ≤ (s.fn port fn).spdm) {off : Nat} (len : Nat) (hoff : off < s.chain.length) :
    Answers (.getCertificate port fn 0 off len) s (fun u =>
      let n := min len (s.chain.length - off)
      u.out = s.out ++ [Emission.spdm port fn 0x02
        (leBytes 2 n ++ leBytes 2 (s.chain.length - off - n) ++ (s.chain.drop off).take len)] ∧ u.fns = s.fns) := by
  have hexec := exec_spdm_runs (i := .getCertificate port fn 0 off len) hfn rfl hon hready
  have hslot : ¬((0 : Nat) ≠ 0 ∨ s.chain.length ≤ off) := by omega
  have hlength : ((s.chain.drop off).take len).length = min len (s.chain.length - off) := by
    rw [List.length_take, List.length_drop]
  simp only [if_neg hslot, hlength] at hexec
  exact answers_next hexec ⟨rfl, rfl⟩

theorem exec_getCertificate_bad (hready : 3 ≤ (s.fn port fn).spdm) {slot off : Nat} (len : Nat)
    (hbad : slot ≠ 0 ∨ s.chain.length ≤ off) :
    exec (.getCertificate port fn slot off len) s = .next (s.spdmError port fn 0x01) :=
  (exec_spdm_runs (i := .getCertificate port fn slot off len) hfn rfl hon hready).trans (congrArg _ (if_pos hbad))

theorem answers_challenge (hready : 3 ≤ (s.fn port fn).spdm) (nonce : List Byte) :
    Answers (.challenge port fn 0 nonce) s (fun u => ∃ r sig, u.out = s.out ++
      [Emission.spdm port fn 0x03 (sha256 s.chain ++ r ++ sig)] ∧ u.free = s.free + 1 ∧ u.fns = s.fns) :=
  answers_next (exec_spdm_runs (i := .challenge port fn 0 nonce) hfn rfl hon hready) ⟨_, _, rfl, rfl, rfl⟩

theorem exec_challenge_bad (hready : 3 ≤ (s.fn port fn).spdm) {slot : Nat} (nonce : List Byte) (hslot : slot ≠ 0) :
    exec (.challenge port fn slot nonce) s = .next (s.spdmError port fn 0x01) :=
  (exec_spdm_runs (i := .challenge port fn slot nonce) hfn rfl hon hready).trans (congrArg _ (if_pos hslot))

theorem answers_keyExchange (hready : 3 ≤ (s.fn port fn).spdm) (ma : Bool) (hnone : (s.fn port fn).session = none) :
    Answers (.keyExchange port fn ma) s (fun u =>
      (u.fn port fn).session = some { mutualAsked := ma, beatAt := s.clkTime } ∧ u.parts = s.parts) := by
  have hexec := exec_spdm_runs (i := .keyExchange port fn ma) hfn rfl hon hready
  simp only [hnone, Option.isSome_none, Bool.false_eq_true, if_false] at hexec
  refine answers_next hexec ⟨?_, rfl⟩
  exact congrArg Function.session (State.fn_modFn_same s port fn (fun f => { f with session := some { mutualAsked := ma, beatAt := s.clkTime } }))

theorem exec_keyExchange_busy (hready : 3 ≤ (s.fn port fn).spdm) (ma : Bool) (hsome : (s.fn port fn).session ≠ none) :
    exec (.keyExchange port fn ma) s = .next (s.spdmError port fn 0x03) :=
  (exec_spdm_runs (i := .keyExchange port fn ma) hfn rfl hon hready).trans
    (congrArg _ (if_pos (Option.isSome_iff_ne_none.mpr hsome)))

section noSession

variable (hready : 3 ≤ (s.fn port fn).spdm) (hnone : (s.fn port fn).session = none)
include hready hnone

theorem exec_finish_none (spki : List Byte) (sig : SigCheck) :
    exec (.finish port fn spki sig) s = .next (s.spdmError port fn 0x04) := by
  have hexec := exec_spdm_runs (i := .finish port fn spki sig) hfn rfl hon hready
  simpa only [hnone] using hexec

theorem exec_inSession_none {i : Instr} {code : Nat} {next : Session → Option Session}
    (hi : exec i s = guardRes (fnOk fn) (s.inSession port fn code next)) : exec i s = .next (s.spdmError port fn 0x04) := by
  have hexec := exec_spdm_runs hfn hi hon hready
  simpa only [hnone] using hexec

end noSession

section session

variable (hready : 3 ≤ (s.fn port fn).spdm) {x : Session} (hsession : (s.fn port fn).session = some x)
include hready hsession

/-- Inside an established session a request leaves the session as it says, and is answered. -/
theorem spdmSets_inSession {i : Instr} {code : Nat} {next : Session → Option Session}
    (hi : exec i s = guardRes (fnOk fn) (s.inSession port fn code next)) (hestablished : x.established = true) :
    SpdmSets i s port fn { s.fn port fn with session := next x } code [] := by
  have hexec := exec_spdm_runs hfn hi hon hready
  simp only [hsession, hestablished, if_true] at hexec
  exact hexec

theorem exec_inSession_early {i : Instr} {code : Nat} {next : Session → Option Session}
    (hi : exec i s = guardRes (fnOk fn) (s.inSession port fn code next)) (hopen : x.established = false) :
    exec i s = .next (s.spdmError port fn 0x04) := by
  have hexec := exec_spdm_runs hfn hi hon hready
  simpa only [hsession, hopen, Bool.false_eq_true, if_false] using hexec

variable (hopen : x.established = false) (spki : List Byte)
include hopen

/-- A session whose requester's signature is invalid ends (R357). -/
theorem answers_finish_invalid (hmutual : x.mutualAsked = true) : Answers (.finish port fn spki .invalid) s (fun u =>
    (u.fn port fn).session = none ∧ u.odG 0x4100 5 = s.odG 0x4100 5 + 1) := by
  have hexec := exec_spdm_runs (i := .finish port fn spki .invalid) hfn rfl hon hready
  have hbad : (x.mutualAsked && SigCheck.invalid == .invalid) = true := by simp [hmutual]
  simp only [hsession, hopen, hbad, Bool.false_eq_true, if_false, if_true] at hexec
  refine answers_next hexec ⟨?_, ?_⟩
  · exact congrArg Function.session (State.fn_modFn_same s port fn (fun f => { f with session := none }))
  · exact (State.spdmError_count _ _ _ _).trans rfl

theorem spdmSets_finish {sig : SigCheck} (hgood : x.mutualAsked = false ∨ sig ≠ .invalid) :
    SpdmSets (.finish port fn spki sig) s port fn { s.fn port fn with
      session := some { x with established := true, beatAt := s.clkTime,
                               key := if x.mutualAsked then some (sha256 spki) else none } } 0x65 [] := by
  have hexec := exec_spdm_runs (i := .finish port fn spki sig) hfn rfl hon hready
  have hvalid : (x.mutualAsked && sig == .invalid) = false := by
    rcases hgood with h | h <;> simp [h]
  simp only [hsession, hopen, hvalid, Bool.false_eq_true, if_false] at hexec
  exact hexec

end session

end serving

end Sys2Proof.Machine

open Sys2Proof Sys2Proof.Machine

/-- Settles O42, by the level that each request asks for, and by the session it meets (R357). Response codes and flags are
log 97, free values log 98, the count of refusals log 100. -/
theorem spdmAndSessions : Obligations.SpdmAndSessions := by
  unfold Obligations.SpdmAndSessions
  intro s port fn hfn
  refine ⟨fun hoff slot off len nonce idx ok ma spki sig => ⟨noEffect_spdm hfn rfl hoff, noEffect_spdm hfn rfl hoff,
      noEffect_spdm hfn rfl hoff, noEffect_spdm hfn rfl hoff, noEffect_spdm hfn rfl hoff, noEffect_spdm hfn rfl hoff,
      noEffect_spdm hfn rfl hoff, noEffect_spdm hfn rfl hoff, noEffect_spdm hfn rfl hoff⟩,
    fun hnone => guardRes_next (fnOk_of_le hfn) (by simp [hnone]),
    fun hsome => guardRes_next (fnOk_of_le hfn) (if_pos (Option.isSome_iff_ne_none.mpr hsome)),
    fun code => ⟨State.spdmError_count _ _ _ _, rfl⟩, fun hon => ?_⟩
  refine ⟨exec_spdm_runs (i := .getVersion port fn) hfn rfl hon (Nat.zero_le _), fun h0 => exec_spdm_early hfn rfl hon (by omega),
    fun h1 => exec_spdm_runs (i := .getCapabilities port fn) hfn rfl hon h1, fun h2 ok => exec_spdm_early hfn rfl hon h2,
    fun h2 => ⟨exec_spdm_runs (i := .negotiateAlgorithms port fn true) hfn rfl hon h2,
      exec_spdm_runs (i := .negotiateAlgorithms port fn false) hfn rfl hon h2⟩,
    fun h3 slot off len nonce idx ma => ⟨exec_spdm_early hfn rfl hon h3, exec_spdm_early hfn rfl hon h3,
      exec_spdm_early hfn rfl hon h3, exec_spdm_early hfn rfl hon h3, exec_spdm_early hfn rfl hon h3⟩, fun hready => ?_⟩
  refine ⟨exec_spdm_runs (i := .getDigests port fn) hfn rfl hon hready, fun slot off len => ⟨fun hbad => exec_getCertificate_bad hfn hon hready len hbad, ?_⟩,
    fun slot nonce => ⟨fun hslot => exec_challenge_bad hfn hon hready nonce hslot, ?_⟩,
    fun idx nonce hlisted => exec_getMeasurements_listed hfn hon hready nonce hlisted,
    fun idx nonce hunlisted => exec_getMeasurements_unlisted hfn hon hready nonce hunlisted,
    fun ma => ⟨fun hnone => answers_keyExchange hfn hon hready ma hnone, fun hsome => exec_keyExchange_busy hfn hon hready ma hsome⟩,
    fun hnone spki sig => ⟨exec_finish_none hfn hon hready hnone spki sig, exec_inSession_none hfn hon hready hnone rfl,
      exec_inSession_none hfn hon hready hnone rfl, exec_inSession_none hfn hon hready hnone rfl⟩,
    fun x spki sig hsession hopen => ⟨?_, fun hgood => spdmSets_finish hfn hon hready hsession hopen spki hgood,
      exec_inSession_early hfn hon hready hsession rfl hopen⟩,
    fun x hsession hestablished => ⟨
      spdmSets_inSession (next := fun x => some { x with beatAt := s.clkTime }) hfn hon hready hsession rfl hestablished,
      spdmSets_inSession (next := some) hfn hon hready hsession rfl hestablished,
      spdmSets_inSession (next := fun _ => none) hfn hon hready hsession rfl hestablished⟩⟩
  · rintro rfl hoff
    exact answers_getCertificate hfn hon hready len hoff
  · rintro rfl
    exact answers_challenge hfn hon hready nonce
  · rintro hmutual rfl
    exact answers_finish_invalid hfn hon hready hsession hopen spki hmutual
end

section
/-!
SUPPORT. Partition messages of a claimant (R358–R361, R363), and the keys of its stream (R362).
-/

-- One proof after another: side conditions of frames are default arguments, and proofs elaborated at once would each wait
-- for the kernel in a thread of their own, past the memory limit.
set_option Elab.async false

namespace Sys2Proof.Machine

variable {s : State} {port : Port} {fn : Nat}

@[simp] theorem State.fn_emit (s : State) (e : Emission) (port : Port) (fn : Nat) : (s.emit e).fn port fn = s.fn port fn := rfl

/-! ### A message and its answer -/

/-- The payload that answers a partition message (R358). -/
def messagePayload (op code : Nat) : List Byte := leBytes 1 op ++ leBytes 1 0 ++ leBytes 2 code

section message

variable {m : List Byte} {inS : Bool} {i : Instr} {op code : Nat} {P : State → Prop} (hfn : fn ≤ 32) (hon : s.spdmOn = true)
  (hi : exec i s = guardRes (fnOk fn) (s.partMessage port fn inS m)) (hop : fieldN m 0 1 = op)
include hfn hon hi hop

/-- A message that is carried out. -/
theorem messageGives_done {z : State} (hz : s.messageCode port fn inS m = (z, 0))
    (hP : P (z.emit (.spdm port fn 0x7E (messagePayload op 0)))) : MessageGives i s port fn op 0 P := by
  have hrun : s.partMessage port fn inS m = z.emit (.spdm port fn 0x7E (messagePayload op 0)) := by
    rw [State.partMessage, hon, hz, hop]
    rfl
  exact answers_next (hi.trans (by rw [fnOk_of_le hfn, hrun]; rfl)) ⟨List.getLast?_concat, hP⟩

/-- A message that is refused changes nothing but the count of refusals. -/
theorem messageGives_refused (hcode : code ≠ 0) (hz : s.messageCode port fn inS m = (s, code))
    (hP : P ((s.odAdd 0x4100 5 1).emit (.spdm port fn 0x7E (messagePayload op code)))) :
    MessageGives i s port fn op code P := by
  have hrun : s.partMessage port fn inS m = (s.odAdd 0x4100 5 1).emit (.spdm port fn 0x7E (messagePayload op code)) := by
    rw [State.partMessage, hon, hz, hop]
    simp only [Bool.not_true, Bool.false_eq_true, if_false, if_neg hcode]
    rfl
  exact answers_next (hi.trans (by rw [fnOk_of_le hfn, hrun]; rfl)) ⟨List.getLast?_concat, hP⟩

end message

section form

variable {m : List Byte} (h1 : 1 ≤ fn) (hbound : s.bound port fn = true) (hlen : 8 ≤ m.length) (hform : messageBad m = false)
  (hop : 1 ≤ fieldN m 0 1 ∧ fieldN m 0 1 ≤ 6)
include h1 hbound hlen hform hop

theorem messageCode_form (inS : Bool) : s.messageCode port fn inS m = match (s.fn port fn).session with
    | none => (s, 0x0607)
    | some x => if inS && x.established then s.claimantMessage (vfPart fn) x.key m else (s, 0x0607) := by
  unfold State.messageCode
  dsimp only
  rw [if_neg (by omega), if_neg (by omega), hform, if_neg (by decide), if_neg (by omega), hbound, if_neg (by decide)] <;> rfl

/-- Outside an established session a message is refused with 0x0607. -/
theorem messageCode_noSession {inS : Bool} (hnone : (s.fn port fn).session = none ∨ inS = false) :
    s.messageCode port fn inS m = (s, 0x0607) := by
  rw [messageCode_form h1 hbound hlen hform hop]
  rcases hnone with h | rfl
  · rw [h]
  · split
    · rfl
    · rfl

theorem messageCode_session {x : Session} (hsession : (s.fn port fn).session = some x) (hestablished : x.established = true) :
    s.messageCode port fn true m = s.claimantMessage (vfPart fn) x.key m := by
  rw [messageCode_form h1 hbound hlen hform hop, hsession]
  simp only [hestablished, Bool.and_self, if_true]

end form

/-! ### What a claimant's message comes to (Table 15.13) -/

section claimant

variable {p : Nat} {key : Option (List Byte)} {m : List Byte}

theorem claimantMessage_claim (hop : fieldN m 0 1 = 1) : s.claimantMessage p key m =
    if s.partState p ≠ 1 ∨ (s.part p).claim.isSome = true then (s, 0x0605)
    else
      match key with
      | none => (s, 0x0607)
      | some k => (s.modPart p (fun P => { P with claim := some k }), 0) := by
  unfold State.claimantMessage
  dsimp only
  rw [hop, if_neg (by simp), if_pos rfl] <;> rfl

theorem claimantMessage_unclaimed {op : Nat} (hop : fieldN m 0 1 = op) (h1 : op ≠ 1) (h4 : op ≠ 4)
    (hnone : (s.part p).claim = none) : s.claimantMessage p key m = (s, 0x0605) := by
  unfold State.claimantMessage
  dsimp only
  rw [hop, if_neg (by simp [h4]), if_neg h1, hnone]
  rfl

theorem claimantMessage_foreign {op : Nat} (hop : fieldN m 0 1 = op) (h1 : op ≠ 1) (h4 : op ≠ 4)
    (hclaim : (s.part p).claim ≠ none) (hkey : key ≠ (s.part p).claim) : s.claimantMessage p key m = (s, 0x0606) := by
  unfold State.claimantMessage
  dsimp only
  rw [hop, if_neg (by simp [h4]), if_neg h1, if_neg (by simpa using hclaim), if_pos hkey]

variable (hclaim : (s.part p).claim ≠ none)
include hclaim

/-- A message with the claimant's key, by its operation. -/
theorem claimantMessage_own {op : Nat} (hop : fieldN m 0 1 = op) (h1 : op ≠ 1) (h4 : op = 4 → s.resetRuns p = false) :
    s.claimantMessage p (s.part p).claim m =
      if op = 2 then s.setKey p (fieldN m 1 1) (m.drop 8)
      else if op = 3 then s.clearKey p (fieldN m 1 1)
      else if op = 4 then s.seal p
      else if op = 5 then s.unseal p
      else s.release p := by
  have hreset : ¬(op = 4 ∧ s.resetRuns p = true) := by
    rintro ⟨h, hruns⟩
    exact absurd hruns (by simp [h4 h])
  unfold State.claimantMessage
  dsimp only
  rw [hop, if_neg hreset, if_neg h1, if_neg (by simpa using hclaim), if_neg (by simp)]

end claimant

theorem claimantMessage_resetRuns {p : Nat} {m : List Byte} (key : Option (List Byte)) (hop : fieldN m 0 1 = 4)
    (hruns : s.resetRuns p = true) : s.claimantMessage p key m = (s, 0x0604) := by
  unfold State.claimantMessage
  dsimp only
  rw [hop, if_pos ⟨rfl, hruns⟩]

/-! ### Sealing and release -/

theorem State.traceStore_od (s : State) (t : TileId) (x y : Nat) (r : List Byte) : (s.traceStore t x y r).od = s.od := by
  unfold State.traceStore
  dsimp only
  split
  · rfl
  · split <;> rfl

/-- Trace counts what it has dropped (OD 0x7000.08), and writes no other entry. -/
theorem State.trace_odP (s : State) (t : TileId) (typ : Nat) (data : List Byte) {sub q : Nat} (hsub : sub < 256) (hq : q < 256)
    (h8 : sub ≠ 8) : (s.trace t typ data).odP 0x7000 sub q = s.odP 0x7000 sub q := by
  have hwrite : (s.traceWrite t typ data).odP 0x7000 sub q = s.odP 0x7000 sub q := by
    unfold State.traceWrite
    dsimp only
    split
    · rfl
    · split
      · split
        · rfl
        · exact State.odP_odAdd_ne _ (.inr (.inl h8)) hsub hq (by decide)
      · have hstored (l : List (List Byte)) (x y : Nat) : (s.forEach l (fun r s => s.traceStore t x y r)).od = s.od :=
          State.forEach_unchanged (fun s => s.od) (fun r s => s.traceStore_od t x y r) l s
        show (State.forEach _ _ _).odP 0x7000 sub q = _
        simp only [State.odP, hstored]
  unfold State.trace
  dsimp only
  split
  · rfl
  · exact hwrite

theorem State.resumePart_odP (s : State) (p : Nat) {sub q : Nat} (hp : p < 32) (hsub : sub < 256) (hq : q < 256) (h7 : sub ≠ 7)
    (h8 : sub ≠ 8) : (s.resumePart p).odP 0x7000 sub q = s.odP 0x7000 sub q := by
  have hcores : (s.forEach (s.partTiles p) (fun t s => s.resumeCore t)).odP 0x7000 sub q = s.odP 0x7000 sub q := by
    refine State.forEach_unchanged (fun s => s.odP 0x7000 sub q) (fun t s => ?_) _ s
    unfold State.resumeCore
    split
    · exact State.trace_odP _ t 7 [] hsub hq h8
    · rfl
  rw [State.resumePart, State.odP_odSetP_ne _ (.inr (.inl h7)) hsub hq (by decide) (by omega), hcores]

section sealing

variable {p : Nat} (hp : p < 32)
include hp

/-- The state in which a partition's trace, breakpoints and halts are off, before it is sealed (R363). -/
def State.undebugged (s : State) (p : Nat) : State := ((s.odSetP 0x7000 2 p 0).clearDebug p).resumePart p

theorem State.undebugged_within (s : State) : Within [.tiles, .stk] [0x7000] s (s.undebugged p) :=
  ((s.odSetP_within 0 (by decide) (by omega)).mono.andThen (State.clearDebug_within _ p)).andThen
    (State.resumePart_within _ hp)

omit hp in
theorem State.seal_open (hopen : s.isSealed p = false) : s.seal p = ((s.undebugged p).odSet 0x4102 (p + 1) 1, 0) := by
  rw [State.seal, hopen]
  rfl

omit hp in
theorem State.seal_sealed (hsealed : s.isSealed p = true) : s.seal p = (s, 0) := by
  rw [State.seal, hsealed]
  rfl

theorem State.undebugged_trace (s : State) : (s.undebugged p).odP 0x7000 2 p = 0 := by
  have hp' : p < 256 := by omega
  have hdebug : ((s.odSetP 0x7000 2 p 0).clearDebug p).odP 0x7000 2 p = (s.odSetP 0x7000 2 p 0).odP 0x7000 2 p :=
    (State.clearDebug_within _ p).od (by simp) (by decide) (by decide) hp'
  rw [State.undebugged, State.resumePart_odP _ p hp (by decide) hp' (by decide) (by decide), hdebug, State.odP_odSetP_same]

omit hp in
theorem State.isSealed_set (s : State) (v : Nat) : (s.odSet 0x4102 (p + 1) v).isSealed p = (v == 1) := by
  rw [State.isSealed, State.odG_odSet_same]

/-- What a released partition's record and entries hold (R359). -/
theorem State.release_done (s : State) : (((s.release p).1.part p).claim = none ∧ ((s.release p).1.part p).keys = [] ∧
    ((s.release p).1.part p).program = none) ∧ (s.release p).1.partState p = 4 ∧ (s.release p).1.isSealed p = false := by
  have hsub : p + 1 < 256 := by omega
  have hprogram (t : State) : ((t.unload p).part p).program = none := by
    unfold State.unload
    split
    · assumption
    · rename_i g _
      dsimp only
      rw [(State.countPadded_within _).part p, (State.zeroed_within _ hp).part p, State.part_modPart_same]
  have hended : ((s.endWork p 0x000D).part p).program = none := hprogram _
  obtain ⟨n, hn⟩ : ∃ n, (s.release p).1 = ((s.endWork p 0x000D).modPart p uninstalled).startScrub p n := ⟨_, rfl⟩
  rw [hn]
  generalize s.endWork p 0x000D = w at hended
  refine ⟨?_, State.startScrub_partState _ _ _, ?_⟩
  · rw [State.startScrub_part, State.part_modPart_same]
    exact ⟨rfl, rfl, hended⟩
  · show (State.odSet _ 0x4002 (p + 1) 4).isSealed p = false
    rw [State.isSealed, State.odG_odSet_ne _ (.inl (by decide)) hsub hsub, State.odG_odSet_same]
    rfl

end sealing

theorem State.seal_done (hp : p < 32) (s : State) : ∃ z, s.seal p = (z, 0) ∧ z.isSealed p = true ∧ z.part p = s.part p ∧
    (s.isSealed p = false → z.odP 0x7000 2 p = 0) := by
  cases hsealed : s.isSealed p with
  | true => exact ⟨s, State.seal_sealed hsealed, hsealed, rfl, fun h => absurd h (by simp)⟩
  | false =>
    refine ⟨_, State.seal_open hsealed, State.isSealed_set _ 1, ?_, fun _ => ?_⟩
    · rw [State.odSet_part, (State.undebugged_within hp s).part p]
    · rw [State.odP_odSet_ne _ (.inl (by decide)) (by decide) (by omega) (by omega), State.undebugged_trace hp]

/-! ### The key slots of a claimed partition (R361) -/

section keys

variable {p slot : Nat} {key : List Byte}

theorem State.setKey_bad (h : keySlotOk slot = false ∨ key.length ≠ keyLen slot) : s.setKey p slot key = (s, 0x0608) := if_pos h

theorem State.setKey_used (hok : keySlotOk slot = true) (hlen : key.length = keyLen slot) (hused : s.slotInUse p slot = true) :
    s.setKey p slot key = (s, 0x0609) := (if_neg (by simp [hok, hlen])).trans (if_pos hused)

theorem State.setKey_stored (hok : keySlotOk slot = true) (hlen : key.length = keyLen slot) (hfree : s.slotInUse p slot = false) :
    ∃ z, s.setKey p slot key = (z, 0) ∧ mfind (z.part p).keys slot = some key ∧
      (∀ k, k ≠ slot → mfind (z.part p).keys k = mfind (s.part p).keys k) ∧ (z.part p).claim = (s.part p).claim := by
  refine ⟨_, (if_neg (by simp [hok, hlen])).trans (if_neg (by simp [hfree])), ?_⟩
  rw [State.part_modPart_same]
  exact ⟨by rw [mfind_mput, if_pos rfl], fun k hk => by rw [mfind_mput, if_neg hk], rfl⟩

theorem State.clearKey_cleared (hok : keySlotOk slot = true) (hfree : s.slotInUse p slot = false) :
    ∃ z, s.clearKey p slot = (z, 0) ∧ mfind (z.part p).keys slot = none ∧
      ∀ k, k ≠ slot → mfind (z.part p).keys k = mfind (s.part p).keys k := by
  refine ⟨_, (if_neg (by simp [hok])).trans (if_neg (by simp [hfree])), ?_⟩
  rw [State.part_modPart_same]
  exact ⟨by rw [mfind_mdel, if_pos rfl], fun k hk => by rw [mfind_mdel, if_neg hk]⟩

end keys

/-! ### The messages of a claimant -/

section messages

variable {m : List Byte} {i : Instr} (hfn : fn ≤ 32) (h1 : 1 ≤ fn) (hbound : s.bound port fn = true) (hon : s.spdmOn = true)
  (hlen : 8 ≤ m.length) (hform : messageBad m = false) {op : Nat} (hop : fieldN m 0 1 = op) (hrange : 1 ≤ op ∧ op ≤ 6)
include hfn h1 hbound hon hlen hform hop hrange

theorem messageGives_noSession {inS : Bool} {P : State → Prop}
    (hi : exec i s = guardRes (fnOk fn) (s.partMessage port fn inS m)) (hnone : (s.fn port fn).session = none ∨ inS = false)
    (hP : P ((s.odAdd 0x4100 5 1).emit (.spdm port fn 0x7E (messagePayload op 0x0607)))) :
    MessageGives i s port fn op 0x0607 P :=
  messageGives_refused hfn hon hi hop (by decide)
    (messageCode_noSession h1 hbound hlen hform (by rw [hop]; exact hrange) hnone) hP

variable {x : Session} (hsession : (s.fn port fn).session = some x) (hestablished : x.established = true)
  (hi : exec i s = guardRes (fnOk fn) (s.partMessage port fn true m))
include hsession hestablished hi

theorem messageGives_session_refused {code : Nat} {P : State → Prop} (hcode : code ≠ 0)
    (hz : s.claimantMessage (fn - 1) x.key m = (s, code))
    (hP : P ((s.odAdd 0x4100 5 1).emit (.spdm port fn 0x7E (messagePayload op code)))) : MessageGives i s port fn op code P :=
  messageGives_refused hfn hon hi hop hcode
    ((messageCode_session h1 hbound hlen hform (by rw [hop]; exact hrange) hsession hestablished).trans hz) hP

theorem messageGives_session_done {z : State} {P : State → Prop} (hz : s.claimantMessage (fn - 1) x.key m = (z, 0))
    (hP : P (z.emit (.spdm port fn 0x7E (messagePayload op 0)))) : MessageGives i s port fn op 0 P :=
  messageGives_done hfn hon hi hop
    ((messageCode_session h1 hbound hlen hform (by rw [hop]; exact hrange) hsession hestablished).trans hz) hP

end messages

/-! ### The keys of a stream (R362) -/

section ide

variable (hfn : fn ≤ 32)
include hfn

theorem noEffect_ideKm {i : Instr} {run : State → State × Nat} (hi : exec i s = guardRes (fnOk fn) (s.ideKm port fn run))
    (hno : s.claimantSession port fn = false) : NoEffect i s := by
  rw [NoEffect, hi, fnOk_of_le hfn, State.ideKm, if_pos (by simp [hno])]
  rfl

theorem exec_ideKm {i : Instr} {run : State → State × Nat} (hi : exec i s = guardRes (fnOk fn) (s.ideKm port fn run))
    (hyes : s.claimantSession port fn = true) {z : State} {code : Nat} (hz : run s = (z, code)) :
    exec i s = .next (z.emit (.ideKm port fn code)) := by
  rw [hi, fnOk_of_le hfn, State.ideKm, if_neg (by simp [hyes]), hz]
  rfl

end ide

theorem exec_keyProg_eq (port : Port) (fn keySet dir sub : Nat) {key : List Byte} (hkey : key.length = 32) :
    exec (.keyProg port fn keySet dir sub key) s = guardRes (fnOk fn) (s.ideKm port fn (State.keyProg port fn keySet dir sub key)) := by
  show guardRes (fnOk fn && bytesOk 32 key) _ = _
  rw [bytesOk, hkey]
  simp

theorem keyProg_range {keySet dir sub : Nat} (key : List Byte) (hset : 1 < keySet) :
    State.keyProg port fn keySet dir sub key s = (s, 3) := if_pos (.inl hset)

theorem keyProg_link {keySet dir sub : Nat} {key link : List Byte} (hset : keySet ≤ 1) (hdir : dir ≤ 1) (hsub : sub ≤ 2)
    (hlink : mfind (s.part (fn - 1)).keys (0x10 + keySet) = some link) : State.keyProg port fn keySet dir sub key s =
      if key ≠ ideKey link port fn dir sub then (s, 4)
      else (s.modFn port fn (fun f => { f with ideKeys := mput f.ideKeys (idePlace keySet dir sub) key }), 0) := by
  have hlink' : mfind (s.part (vfPart fn)).keys (0x10 + keySet) = some link := hlink
  unfold State.keyProg
  rw [if_neg (by omega), hlink']

theorem keySetGo_programmed {keySet : Nat} (hset : keySet ≤ 1) (hprogrammed : setProgrammed (s.fn port fn) keySet = true)
    (hheld : (s.fn port fn).held = []) : State.keySetGo port fn keySet s =
      (s.modFn port fn (fun _ => { s.fn port fn with ideSet := some keySet, ideBroken := false }), 0) := by
  unfold State.keySetGo
  rw [if_neg (by omega), if_pos hprogrammed, pumpRecords_modFn hheld rfl]

theorem keySetGo_unprogrammed {keySet : Nat} (hset : keySet ≤ 1) (hno : setProgrammed (s.fn port fn) keySet = false) :
    State.keySetGo port fn keySet s = (s.streamFails port fn, 4) := by
  unfold State.keySetGo
  rw [if_neg (by omega), if_neg (by simp [hno])]

/-- After the failure of its stream a function has no set in use (R291). -/
theorem State.streamFails_ideSet (hfn : fn ≤ 32) : ((s.streamFails port fn).fn port fn).ideSet = none := by
  by_cases hset : (s.fn port fn).ideSet = none
  · rw [State.streamFails, if_pos (by simp [hset]), hset]
  · have hframe := State.streamFails_within (by simp only [vfPart]; omega) hset
    exact ((State.ideFail_lost hset).1.of_ringMoved (hframe.rings (by decide) port fn)).1

/-- A key set whose stream has been stopped keeps no key (R362). -/
theorem mfind_dropSet {keys : SMap (List Byte)} {keySet d k : Nat} (hd : d ≤ 1) (hk : k ≤ 3) :
    mfind (keys.filter (fun e => e.1 / 8 != keySet)) (keySet * 8 + d * 4 + k) = none := by
  have hplace : (keySet * 8 + d * 4 + k) / 8 = keySet := by omega
  exact mfind_filter_of_drop (keep := fun i => i / 8 != keySet) (by simp [hplace])

theorem answers_kSetStop (hfn : fn ≤ 32) {keySet : Nat} (hset : keySet ≤ 1) (hyes : s.claimantSession port fn = true) :
    Answers (.kSetStop port fn keySet) s (fun u => (u.fn port fn).ideSet ≠ some keySet ∧
      (∀ d k, d ≤ 1 → k ≤ 3 → mfind (u.fn port fn).ideKeys (keySet * 8 + d * 4 + k) = none)) := by
  obtain ⟨t, ht, hused⟩ : ∃ t : State, State.keySetStop port fn keySet s =
      (t.modFn port fn (fun f => { f with ideKeys := f.ideKeys.filter (fun e => e.1 / 8 != keySet) }), 0) ∧
        (t.fn port fn).ideSet ≠ some keySet := by
    unfold State.keySetStop
    rw [if_neg (by omega)]
    refine ⟨_, rfl, ?_⟩
    split
    · rw [State.streamFails_ideSet hfn]
      simp
    · assumption
  refine answers_next (exec_ideKm hfn rfl hyes ht) ?_
  rw [State.fn_emit, State.fn_modFn_same]
  exact ⟨hused, fun d k hd hk => mfind_dropSet hd hk⟩

end Sys2Proof.Machine

open Sys2Proof Sys2Proof.Machine

/-- Settles O43, by the session that a message comes in, then by the claim and the key (Table 15.13); and, for the stream's
keys, by the claimant's session (R362). IDE_KM statuses are log 97, the place of 0x0607 log 99, the count of refusals
log 100. -/
theorem partitionMessages : Obligations.PartitionMessages := by
  unfold Obligations.PartitionMessages
  intro s port fn m h1 hfn hbound hon
  have hp : fn - 1 < 32 := by omega
  refine ⟨fun hlen hform => ⟨fun inS hnone => ⟨fun hop => ?_, fun hop => ?_⟩, fun x hsession hestablished => ?_⟩,
    fun keySet dir sub key hkey => ⟨fun hno => ?_, fun hyes => ?_⟩⟩
  · exact messageGives_noSession hfn h1 hbound hon hlen hform hop (by decide) rfl hnone
      ⟨rfl, State.odG_odAdd_same s 0x4100 5 1⟩
  · exact messageGives_noSession hfn h1 hbound hon hlen hform hop (by decide) rfl hnone rfl
  · have hrefused {i : Instr} {op code : Nat} {P : State → Prop} (hi : exec i s = guardRes (fnOk fn) (s.partMessage port fn true m))
        (hop : fieldN m 0 1 = op) (hrange : 1 ≤ op ∧ op ≤ 6) (hcode : code ≠ 0)
        (hz : s.claimantMessage (fn - 1) x.key m = (s, code))
        (hP : P ((s.odAdd 0x4100 5 1).emit (.spdm port fn 0x7E (messagePayload op code)))) :
        MessageGives i s port fn op code P :=
      messageGives_session_refused hfn h1 hbound hon hlen hform hop hrange hsession hestablished hi hcode hz hP
    have hdone {i : Instr} {op : Nat} {z : State} {P : State → Prop}
        (hi : exec i s = guardRes (fnOk fn) (s.partMessage port fn true m)) (hop : fieldN m 0 1 = op) (hrange : 1 ≤ op ∧ op ≤ 6)
        (hz : s.claimantMessage (fn - 1) x.key m = (z, 0)) (hP : P (z.emit (.spdm port fn 0x7E (messagePayload op 0)))) :
        MessageGives i s port fn op 0 P :=
      messageGives_session_done hfn h1 hbound hon hlen hform hop hrange hsession hestablished hi hz hP
    refine ⟨fun hop => ⟨fun k hstate hclaim hkey => ?_, fun hno => ?_, fun hstate hclaim hkey => ?_⟩,
      fun hclaim => ⟨fun hop => ?_, fun hop => ?_⟩, fun hclaim hkey hop => ?_, fun hclaim hkey => ?_⟩
    · refine hdone rfl hop (by decide) ((claimantMessage_claim hop).trans ?_) rfl
      rw [if_neg (by simp [hstate, hclaim]), hkey]
    · exact hrefused rfl hop (by decide) (by decide) ((claimantMessage_claim hop).trans
        (if_pos (by simpa [Option.isSome_iff_ne_none] using hno))) rfl
    · refine hrefused rfl hop (by decide) (by decide) ((claimantMessage_claim hop).trans ?_) rfl
      rw [if_neg (by simp [hstate, hclaim]), hkey]
    · exact hrefused rfl hop (by decide) (by decide) (claimantMessage_unclaimed hop (by decide) (by decide) hclaim) rfl
    · refine hrefused rfl hop (by decide) (by decide) (claimantMessage_unclaimed hop (by decide) (by decide) hclaim) ⟨rfl, ?_⟩
      exact congrArg (fun v => v == 1) 
        (s.odG_odAdd_ne (i := 0x4100) (b := 5) (v := 1) (idx := 0x4102) (sub := fn - 1 + 1) (.inl (by decide)) (by omega)
          (by decide))
    · exact hrefused rfl hop (by decide) (by decide) (claimantMessage_foreign hop (by decide) (by decide) hclaim hkey) rfl
    · have hown {op : Nat} (hop : fieldN m 0 1 = op) (hne : op ≠ 1) (h4 : op = 4 → s.resetRuns (fn - 1) = false) :=
        claimantMessage_own hclaim hop hne h4
      rw [← hkey] at hown
      refine ⟨fun hop => ?_, fun hop hok hfree => ?_, fun hop => ⟨fun hruns => ?_, fun hquiet => ?_⟩, fun hop => ?_, fun hop => ?_⟩
      · have hz := (hown hop (by decide) (fun h4 => absurd h4 (by decide))).trans (if_pos rfl)
        refine ⟨fun hbad => ?_, fun hok hlen' hused => ?_, fun hok hlen' hfree => ?_⟩
        · exact hrefused rfl hop (by decide) (by decide) (hz.trans (State.setKey_bad hbad)) rfl
        · exact hrefused rfl hop (by decide) (by decide) (hz.trans (State.setKey_used hok hlen' hused)) rfl
        · obtain ⟨z, hset, hkeys⟩ := State.setKey_stored hok hlen' hfree
          exact hdone rfl hop (by decide) (hz.trans hset) hkeys
      · obtain ⟨z, hset, hkeys⟩ := State.clearKey_cleared hok hfree
        exact hdone rfl hop (by decide) ((hown hop (by decide) (fun h4 => absurd h4 (by decide))).trans hset) hkeys
      · exact hrefused rfl hop (by decide) (by decide) (claimantMessage_resetRuns _ hop hruns) rfl
      · obtain ⟨z, hseal, hsealed, hpart, htrace⟩ := s.seal_done hp
        exact hdone rfl hop (by decide) ((hown hop (by decide) (fun _ => hquiet)).trans hseal)
          ⟨hsealed, congrArg Partition.claim hpart, htrace⟩
      · exact hdone rfl hop (by decide) (hown hop (by decide) (fun h4 => absurd h4 (by decide))) ⟨State.isSealed_set s 0, rfl⟩
      · obtain ⟨⟨hclaim', hkeys, hprogram⟩, hstate, hsealed⟩ := s.release_done hp
        exact hdone rfl hop (by decide) (hown hop (by decide) (fun h4 => absurd h4 (by decide))) ⟨hclaim', hkeys, hprogram, hstate, hsealed⟩
  · exact ⟨noEffect_ideKm hfn rfl hno, noEffect_ideKm hfn (exec_keyProg_eq port fn keySet dir sub hkey) hno,
      noEffect_ideKm hfn rfl hno, noEffect_ideKm hfn rfl hno⟩
  · have hprog := exec_keyProg_eq (s := s) port fn keySet dir sub hkey
    refine ⟨exec_ideKm hfn rfl hyes rfl, fun hset hdir hsub link hlink => ⟨?_, fun hne => ?_⟩,
      fun hset => ⟨exec_ideKm hfn hprog hyes (keyProg_range key hset), exec_ideKm hfn rfl hyes (if_pos hset),
        exec_ideKm hfn rfl hyes (if_pos hset)⟩,
      fun hset hheld hprogrammed => exec_ideKm hfn rfl hyes (keySetGo_programmed hset hprogrammed hheld),
      fun hset hunprogrammed => ?_, fun hset => answers_kSetStop hfn hset hyes⟩
    · intro hkeyed
      exact exec_ideKm hfn hprog hyes ((keyProg_link hset hdir hsub hlink).trans (if_neg (by simp [hkeyed])))
    · exact exec_ideKm hfn hprog hyes ((keyProg_link hset hdir hsub hlink).trans (if_pos hne))
    · exact answers_next (exec_ideKm hfn rfl hyes (keySetGo_unprogrammed hset hunprogrammed))
        ⟨State.streamFails_ideSet hfn, List.getLast?_concat⟩
end

section
/-!
SUPPORT. Firmware update, the flash log and the counting of availability (R372, R375, R376, R413), and the obligation O52.
-/

-- One proof after another: side conditions of frames are default arguments, and proofs elaborated at once would each wait
-- for the kernel in a thread of their own, past the memory limit.
set_option Elab.async false

namespace Sys2Proof.Machine

/-! ### A command with an operation code of its own -/

section admitted

variable {s : State} {c : Caller} {i : Instr} {idx sub part : Nat} {run : State → State × Nat}
variable (h : Admitted s c idx sub part) (hi : exec i s = guardRes (callerOk c) (s.command c idx sub part run))
include h hi

/-- An admitted command runs on the state in which it is counted, and its code is the reply. -/
theorem Admitted.exec_eq {u : State} {code : Nat} (hrun : run s.counted = (u, code)) : exec i s = .next (u.reply c code) :=
  hi.trans (guardRes_next h.1 ((h.command_eq run).trans (by rw [hrun])))

theorem Admitted.refuses {code : Nat} (hrun : run s.counted = (s.counted, code)) : Refuses i s c code :=
  h.exec_eq hi hrun

theorem Admitted.answers {u : State} {code : Nat} {P : State → Prop} (hrun : run s.counted = (u, code))
    (hP : P (u.reply c code)) : Answers i s P := answers_next (h.exec_eq hi hrun) hP

end admitted

/-! ### The update buffer and its commands (R375) -/

section update

variable (s : State) {cmd : List Byte} {sig : SigCheck}

@[simp] theorem State.counted_hub : s.counted.hub = s.hub := rfl

theorem State.counted_update (sub : Nat) (hsub : sub < 256 := by decide) : s.counted.odG 0x1300 sub = s.odG 0x1300 sub :=
  s.odG_odAdd_ne (.inl (by decide)) hsub (by decide)

theorem State.imageCode_counted : s.counted.imageCode sig = s.imageCode sig := by
  simp only [State.imageCode, s.counted_update 7]
  rfl

section forms

variable (hlen : cmd.length = 8) (hzero : zeroRange cmd 1 3 = true)
include hlen hzero

theorem updateCommand_begin (hop : fieldN cmd 0 1 = 1) :
    State.updateCommand cmd sig s = s.beginUpdate (fieldN cmd 4 4) := by
  simp [State.updateCommand, hlen, hzero, hop]

theorem updateCommand_commit (hop : fieldN cmd 0 1 = 2) : State.updateCommand cmd sig s = s.commitUpdate sig := by
  simp [State.updateCommand, hlen, hzero, hop]

theorem updateCommand_abort (hop : fieldN cmd 0 1 = 3) : State.updateCommand cmd sig s = s.abortUpdate := by
  simp [State.updateCommand, hlen, hzero, hop]

end forms

theorem beginUpdate_ok {n : Nat} (hlo : 4096 ≤ n) (hhi : n ≤ 16777216) (hst : s.odG 0x1300 4 ≠ 3) :
    s.beginUpdate n = (({ s with hub := { s.hub with updLen := n, updBuf := [] } }).odSet 0x1300 4 1, 0) := by
  unfold State.beginUpdate
  rw [if_neg (by omega), if_neg hst]

theorem beginUpdate_late {n : Nat} (hlo : 4096 ≤ n) (hhi : n ≤ 16777216) (hst : s.odG 0x1300 4 = 3) :
    s.beginUpdate n = (s, 0x0706) := by
  unfold State.beginUpdate
  rw [if_neg (by omega), if_pos hst]

theorem commitUpdate_ok (hlen : s.hub.updLen ≠ 0) (hst : s.odG 0x1300 4 = 1 ∨ s.odG 0x1300 4 = 5)
    (hcode : s.imageCode sig = 0) :
    s.commitUpdate sig = (({ s with hub := { s.hub with slot := none } }).odSet 0x1300 4 3, 0) := by
  unfold State.commitUpdate
  rw [if_neg (by omega), if_neg (by simp [hcode])]

theorem commitUpdate_bad (hlen : s.hub.updLen ≠ 0) (hst : s.odG 0x1300 4 = 1 ∨ s.odG 0x1300 4 = 5)
    (hcode : s.imageCode sig ≠ 0) :
    s.commitUpdate sig = ((s.odSet 0x1300 4 5).odSet 0x1300 5 (s.imageCode sig), s.imageCode sig) := by
  unfold State.commitUpdate
  rw [if_neg (by omega), if_pos hcode]

theorem abortUpdate_ok (hst : s.odG 0x1300 4 = 0 ∨ s.odG 0x1300 4 = 1 ∨ s.odG 0x1300 4 = 2) :
    s.abortUpdate = (({ s with hub := { s.hub with updLen := 0, updBuf := [] } }).odSet 0x1300 4 0, 0) := by
  unfold State.abortUpdate
  rw [if_neg (by omega)]

end update

/-! ### Commands of the update, as callers write them -/

section commands

variable {s : State} {c : Caller} {cmd : List Byte} {sig : SigCheck}

section beginning

variable (h : Admitted s c 0x1300 3 0xFF) (hlen : cmd.length = 8) (hzero : zeroRange cmd 1 3 = true)
  (hop : fieldN cmd 0 1 = 1)
include h hlen hzero hop

theorem refuses_updateBegin_length (hn : fieldN cmd 4 4 < 4096 ∨ 16777216 < fieldN cmd 4 4) :
    Refuses (.updateBegin c cmd) s c 0x0003 :=
  h.refuses rfl ((updateCommand_begin _ hlen hzero hop).trans (if_pos hn))

variable (hlo : 4096 ≤ fieldN cmd 4 4) (hhi : fieldN cmd 4 4 ≤ 16777216)
include hlo hhi

theorem refuses_updateBegin_writing (hst : s.odG 0x1300 4 = 3) : Refuses (.updateBegin c cmd) s c 0x0706 :=
  h.refuses rfl ((updateCommand_begin _ hlen hzero hop).trans
    (beginUpdate_late _ hlo hhi ((s.counted_update 4).trans hst)))

theorem answers_updateBegin (hst : s.odG 0x1300 4 ≠ 3) : Answers (.updateBegin c cmd) s (fun u =>
    u.hub.updLen = fieldN cmd 4 4 ∧ u.hub.updBuf = [] ∧ u.odG 0x1300 4 = 1 ∧ u.hub.slot = s.hub.slot ∧
      u.out = s.out ++ [Emission.status c 0]) :=
  h.answers rfl ((updateCommand_begin _ hlen hzero hop).trans
    (beginUpdate_ok _ hlo hhi (by rwa [s.counted_update 4])))
    ⟨rfl, rfl, (State.reply_odG _ _ _ _ _).trans (State.odG_odSet_same _ _ _ _), rfl, rfl⟩

end beginning

section committing

variable (h : Admitted s c 0x1300 3 0xFF) (hlen : cmd.length = 8) (hzero : zeroRange cmd 1 3 = true)
  (hop : fieldN cmd 0 1 = 2)
include h hlen hzero hop

theorem refuses_updateCommit (hturn : s.hub.updLen = 0 ∨ (s.odG 0x1300 4 ≠ 1 ∧ s.odG 0x1300 4 ≠ 5)) :
    Refuses (.updateCommit c cmd sig) s c 0x0706 :=
  h.refuses rfl ((updateCommand_commit _ hlen hzero hop).trans (if_pos (by rwa [s.counted_update 4])))

variable (hbuf : s.hub.updLen ≠ 0) (hst : s.odG 0x1300 4 = 1 ∨ s.odG 0x1300 4 = 5)
include hbuf hst

theorem answers_updateCommit_ok (hcode : s.imageCode sig = 0) : Answers (.updateCommit c cmd sig) s (fun u =>
    u.hub.slot = none ∧ u.odG 0x1300 4 = 3 ∧ u.hub.updBuf = s.hub.updBuf ∧ u.hub.running = s.hub.running ∧
      u.out = s.out ++ [Emission.status c 0]) :=
  h.answers rfl ((updateCommand_commit _ hlen hzero hop).trans (commitUpdate_ok _ hbuf (by rwa [s.counted_update 4])
    (s.imageCode_counted.trans hcode)))
    ⟨rfl, (State.reply_odG _ _ _ _ _).trans (State.odG_odSet_same _ _ _ _), rfl, rfl, rfl⟩

theorem answers_updateCommit_bad (hcode : s.imageCode sig ≠ 0) : Answers (.updateCommit c cmd sig) s (fun u =>
    u.hub.slot = s.hub.slot ∧ u.odG 0x1300 4 = 5 ∧ u.odG 0x1300 5 = s.imageCode sig ∧
      u.out = s.out ++ [Emission.status c (s.imageCode sig)]) := by
  rw [← s.imageCode_counted] at hcode ⊢
  exact h.answers rfl ((updateCommand_commit _ hlen hzero hop).trans
    (commitUpdate_bad _ hbuf (by rwa [s.counted_update 4]) hcode))
    ⟨rfl, (State.odG_odSet_sub _ (by decide)).trans (State.odG_odSet_same _ _ _ _), State.odG_odSet_same _ _ _ _, rfl⟩

end committing

section aborting

variable (h : Admitted s c 0x1300 3 0xFF) (hlen : cmd.length = 8) (hzero : zeroRange cmd 1 3 = true)
  (hop : fieldN cmd 0 1 = 3)
include h hlen hzero hop

theorem refuses_updateAbort (hst : s.odG 0x1300 4 = 3 ∨ s.odG 0x1300 4 = 4) : Refuses (.updateAbort c cmd) s c 0x0706 :=
  h.refuses rfl ((updateCommand_abort _ hlen hzero hop).trans (if_pos (by rw [s.counted_update 4]; omega)))

theorem answers_updateAbort (hst : s.odG 0x1300 4 = 0 ∨ s.odG 0x1300 4 = 1 ∨ s.odG 0x1300 4 = 2) :
    Answers (.updateAbort c cmd) s (fun u => u.hub.updLen = 0 ∧ u.hub.updBuf = [] ∧ u.odG 0x1300 4 = 0 ∧
      u.hub.slot = s.hub.slot) :=
  h.answers rfl ((updateCommand_abort _ hlen hzero hop).trans (abortUpdate_ok _ (by rwa [s.counted_update 4])))
    ⟨rfl, rfl, (State.reply_odG _ _ _ _ _).trans (State.odG_odSet_same _ _ _ _), rfl⟩

end aborting

section chunk

variable {off : Nat} {bytes : List Byte} (h : Admitted s c 0x1300 2 0xFF)
include h

theorem refuses_updateImageChunk (hturn : s.hub.updLen < off + bytes.length ∨ s.odG 0x1300 4 = 3) :
    Refuses (.updateImageChunk c off bytes) s c 0x0706 :=
  h.refuses (run := State.updateChunk off bytes) rfl (if_pos (by rwa [s.counted_update 4]))

variable (hfit : off + bytes.length ≤ s.hub.updLen) (hst : s.odG 0x1300 4 ≠ 3)
include hfit hst

theorem exec_updateImageChunk : exec (.updateImageChunk c off bytes) s = .next
    (({ s.counted with hub := { s.hub with updBuf := mwrite 0 s.hub.updBuf off bytes } }).reply c 0) :=
  h.exec_eq (run := State.updateChunk off bytes) rfl
    (if_neg (by rw [s.counted_update 4]; exact not_or.mpr ⟨Nat.not_lt.mpr hfit, hst⟩))

theorem answers_updateImageChunk : Answers (.updateImageChunk c off bytes) s (fun u =>
    (∀ i b, bytes[i]? = some b → mget 0 u.hub.updBuf (off + i) = b) ∧
      (∀ k, k < off ∨ off + bytes.length ≤ k → mget 0 u.hub.updBuf k = mget 0 s.hub.updBuf k) ∧
      u.out = s.out ++ [Emission.status c 0]) := by
  refine answers_next (exec_updateImageChunk h hfit hst) ⟨fun i b hb => ?laid, fun k hk => ?kept, rfl⟩
  case laid =>
    refine (mget_mwrite 0 bytes s.hub.updBuf off (off + i)).trans ?_
    rw [if_neg (by omega), Nat.add_sub_cancel_left, hb]
    rfl
  case kept =>
    refine (mget_mwrite 0 bytes s.hub.updBuf off k).trans ?_
    rcases hk with hk | hk
    · exact if_pos hk
    · rw [if_neg (by omega), List.getElem?_eq_none (by omega)]
      rfl

end chunk

end commands

/-! ### The writing of the slot (R375) -/

section written

variable {s : State}

theorem noEffect_flashImageWritten (ok : Bool) (hst : s.odG 0x1300 4 ≠ 3) : NoEffect (.flashImageWritten ok) s :=
  guardRes_next rfl (if_pos hst)

variable (hst : s.odG 0x1300 4 = 3)
include hst

theorem answers_flashImageWritten_ok : Answers (.flashImageWritten true) s (fun u =>
    u.hub.slot = some (imageOf s.buffered) ∧ u.odG 0x1300 4 = 4 ∧ u.odG 0x1300 5 = 0 ∧
      u.odG 0x1300 6 = (imageOf s.buffered).version ∧ u.hub.running = s.hub.running) :=
  answers_next (guardRes_next rfl (if_neg (not_not.mpr hst)))
    ⟨rfl,
      (State.odG_odSet_sub _ (by decide)).trans ((State.odG_odSet_sub _ (by decide)).trans (State.odG_odSet_same _ _ _ _)),
      (State.odG_odSet_sub _ (by decide)).trans (State.odG_odSet_same _ _ _ _), State.odG_odSet_same _ _ _ _, rfl⟩

theorem answers_flashImageWritten_failed : Answers (.flashImageWritten false) s (fun u =>
    u.odG 0x1300 4 = 5 ∧ u.odG 0x1300 5 = 0x0703 ∧ u.hub.slot = s.hub.slot) :=
  answers_next (guardRes_next rfl (if_neg (not_not.mpr hst)))
    ⟨((State.log_within _ _).odG (idx := 0x1300)).trans
        ((State.odG_odSet_sub _ (by decide)).trans (State.odG_odSet_same _ _ _ _)),
      ((State.log_within _ _).odG (idx := 0x1300)).trans (State.odG_odSet_same _ _ _ _), State.log_slot _ _⟩

end written

/-! ### The flash log (R376) -/

theorem ringPush_getLast? {α : Type} {n : Nat} (hn : 0 < n) (l : List α) (a : α) : (ringPush n l a).getLast? = some a := by
  unfold ringPush
  rw [List.getLast?_drop, if_neg (by simp only [List.length_append, List.length_singleton]; omega), List.getLast?_concat]

theorem ringPush_room {α : Type} {n : Nat} {l : List α} (hl : l.length < n) (a : α) : ringPush n l a = l ++ [a] := by
  unfold ringPush
  simp only [List.length_append, List.length_singleton]
  rw [show l.length + 1 - n = 0 by omega, List.drop_zero]

theorem State.flashAppend_flashLog (s : State) (e : LogEntry) :
    (s.flashAppend e).hub.flashLog = ringPush 131072 s.hub.flashLog e := by
  simp only [State.flashAppend]

/-- Nothing but the flash ring has changed. -/
theorem State.flashAppend_rest (s : State) (e : LogEntry) :
    s.flashAppend e = { s with hub := { s.hub with flashLog := (s.flashAppend e).hub.flashLog } } := by
  simp only [State.flashAppend]

theorem State.flashAppend_last (s : State) (e : LogEntry) : (s.flashAppend e).hub.flashLog.getLast? = some e := by
  rw [s.flashAppend_flashLog, ringPush_getLast? (by omega)]

theorem State.flashAppend_room (s : State) (e : LogEntry) (hroom : s.hub.flashLog.length < 131072) :
    (s.flashAppend e).hub.flashLog = s.hub.flashLog ++ [e] := by
  rw [s.flashAppend_flashLog, ringPush_room hroom]

section flash

variable {s : State} {seq : Nat}

theorem noEffect_logFlashWrite
    (h : (∀ e ∈ s.hub.ramLog, e.seq = seq → e.severity = 0) ∨ s.hub.away = true ∨ ∃ e ∈ s.hub.flashLog, e.seq = seq) :
    NoEffect (.logFlashWrite seq) s := by
  refine guardRes_next rfl ?_
  cases hfind : s.hub.ramLog.find? (fun e => e.seq == seq && decide (1 ≤ e.severity)) with
  | none => rfl
  | some e =>
    have hfound := List.find?_some hfind
    have hmem := List.mem_of_find?_eq_some hfind
    simp only [Bool.and_eq_true, beq_iff_eq, decide_eq_true_eq] at hfound
    obtain ⟨hseq, hsev⟩ := hfound
    refine if_pos ?_
    rcases h with hzero | haway | ⟨x, hx, hxseq⟩
    · exact absurd (hzero e hmem hseq) (by omega)
    · simp [haway]
    · simp only [Bool.or_eq_true, List.any_eq_true, beq_iff_eq]
      exact .inr ⟨x, hx, hxseq⟩

theorem exec_logFlashWrite {e : LogEntry}
    (hfind : s.hub.ramLog.find? (fun e => e.seq == seq && decide (1 ≤ e.severity)) = some e) (haway : s.hub.away = false)
    (hnew : ∀ x ∈ s.hub.flashLog, x.seq ≠ seq) : exec (.logFlashWrite seq) s = .next (s.flashAppend e) := by
  refine guardRes_next rfl ?_
  simp only [hfind]
  exact if_neg (by simpa [haway] using hnew)

end flash

/-! ### Availability (R413) -/

section availability

variable (s : State) (ex : Bool)

/-- A second is counted in one of the four states of Table 17.9. -/
theorem State.availability_range : 1 ≤ s.availability ex ∧ s.availability ex ≤ 4 := by
  unfold State.availability
  dsimp only
  repeat' split
  all_goals decide

theorem noEffect_availabilityCount (h : s.hub.vstby = false) : NoEffect (.availabilityCount ex) s :=
  guardRes_next rfl (by simp [h])

theorem answers_availabilityCount (h : s.hub.vstby = true) : Answers (.availabilityCount ex) s (fun u =>
    1 ≤ s.availability ex ∧ s.availability ex ≤ 4 ∧
      (∀ k, 1 ≤ k → k ≤ 4 → u.odG 0x7110 k = s.odG 0x7110 k + (if k = s.availability ex then 1 else 0)) ∧
      u.odG 0x7110 5 = (u.hub.downDays.map (·.2)).sum) := by
  obtain ⟨hlo, hhi⟩ := s.availability_range ex
  refine answers_next (guardRes_next rfl (if_neg (by simp [h]))) ⟨hlo, hhi, fun k _ hk => ?_, State.odG_odSet_same _ _ _ _⟩
  refine (State.odG_odSet_sub _ (by omega)).trans ?_
  show (s.odAdd 0x7110 (s.availability ex) 1).odG 0x7110 k = _
  split
  · next hsame =>
    subst hsame
    exact State.odG_odAdd_same _ _ _ _
  · next hne => exact State.odG_odSet_sub _ hne

end availability

end Sys2Proof.Machine

open Sys2Proof Sys2Proof.Machine

/-- Settles O52, one lemma for each command in and out of its turn. The code 0x0706 out of turn and 0x0003 for a length out
of range are log 105, the four availability states log 107. -/
theorem firmwareAndLogs : Obligations.FirmwareAndLogs := by
  unfold Obligations.FirmwareAndLogs
  intro s c cmd sig off bytes st len
  refine ⟨fun h hlen hzero => ⟨fun hop => ?begins, fun hop => ?commits, fun hop => ?aborts⟩, fun h => ?chunk,
    fun ok => noEffect_flashImageWritten ok, fun hst => ?written, fun seq => ⟨noEffect_logFlashWrite, ?logged⟩,
    fun ex => noEffect_availabilityCount s ex, fun ex => answers_availabilityCount s ex⟩
  case begins =>
    exact ⟨refuses_updateBegin_length h hlen hzero hop, fun hlo hhi =>
      ⟨refuses_updateBegin_writing h hlen hzero hop hlo hhi, answers_updateBegin h hlen hzero hop hlo hhi⟩⟩
  case commits =>
    exact ⟨refuses_updateCommit h hlen hzero hop, fun hbuf hst =>
      ⟨answers_updateCommit_ok h hlen hzero hop hbuf hst, answers_updateCommit_bad h hlen hzero hop hbuf hst⟩⟩
  case aborts => exact ⟨refuses_updateAbort h hlen hzero hop, answers_updateAbort h hlen hzero hop⟩
  case chunk => exact ⟨refuses_updateImageChunk h, answers_updateImageChunk h⟩
  case written => exact ⟨answers_flashImageWritten_ok hst, answers_flashImageWritten_failed hst⟩
  case logged =>
    intro e hfind haway hnew
    exact answers_next (exec_logFlashWrite hfind haway hnew)
      ⟨s.flashAppend_last e, s.flashAppend_rest e, s.flashAppend_room e⟩

end

section
/-!
SUPPORT. The rotation of a row (R342–R344): the row's tile and its spare, the copy, the swap, and the obligation O49.
-/

-- One proof after another: side conditions of frames are default arguments, and proofs elaborated at once would each wait
-- for the kernel in a thread of their own, past the memory limit.
set_option Elab.async false

namespace Sys2Proof.Machine

/-! ### The tiles of a row (R4, R342) -/

section row

variable (s : State) {f row pos : Nat} (hf : f < 64) (hrow : row < 20) (hpos : pos < 20)

theorem State.rowTile_eq (row : Nat) (hpos : pos < 20) :
    s.rowTile f row pos = ⟨21 * (f % 8) + s.rowMapGet (20 * (f / 8) + row) (f % 8) pos, 20 * (f / 8) + row⟩ := by
  unfold State.rowTile rowPlace State.physical
  dsimp only
  rw [show (20 * (f % 8) + pos) / 20 = f % 8 by omega, show (20 * (f % 8) + pos) % 20 = pos by omega]

/-- The spare of a row is a column that holds no place: of the 21 columns 20 places leave one. -/
theorem State.rowSpare_free (f row : Nat) : ∃ k < 21,
    s.rowSpare f row = ⟨21 * (f % 8) + k, 20 * (f / 8) + row⟩ ∧
      ∀ j < 20, s.rowMapGet (20 * (f / 8) + row) (f % 8) j ≠ k := by
  unfold State.rowSpare
  dsimp only
  generalize hused : (List.range 20).map (fun j => s.rowMapGet (20 * (f / 8) + row) (f % 8) j) = used
  have hlen : used.length = 20 := by rw [← hused, List.length_map, List.length_range]
  cases hfind : (List.range 21).find? (fun k => !used.contains k) with
  | none =>
    have hall : List.range 21 ⊆ used := fun k hk => by simpa using List.find?_eq_none.mp hfind k hk
    have hfew := (List.nodup_range.subperm hall).length_le
    rw [List.length_range, hlen] at hfew
    omega
  | some k =>
    have hk := List.mem_range.mp (List.mem_of_find?_eq_some hfind)
    have hfree : k ∉ used := by simpa using List.find?_some hfind
    exact ⟨k, hk, rfl, fun j hj hjk => hfree (hused ▸ List.mem_map.mpr ⟨j, List.mem_range.mpr hj, hjk⟩)⟩

include hf hrow in
theorem State.rowSpare_ok : tileOk (s.rowSpare f row) = true := by
  obtain ⟨k, hk, e, -⟩ := s.rowSpare_free f row
  simp only [e, tileOk, Bool.and_eq_true, decide_eq_true_eq]
  omega

theorem State.rowSpare_ne_rowTile (hpos : pos < 20) : s.rowSpare f row ≠ s.rowTile f row pos := by
  obtain ⟨k, -, e, hfree⟩ := s.rowSpare_free f row
  have hk := hfree pos hpos
  rw [e, s.rowTile_eq row hpos]
  simp only [ne_eq, TileId.mk.injEq, and_true]
  omega

theorem tkey_ne {t t' : TileId} (ht : tileOk t = true) (ht' : tileOk t' = true) (hne : t ≠ t') : tkey t ≠ tkey t' :=
  fun e => hne (by
    simp only [tileOk, Bool.and_eq_true, decide_eq_true_eq] at ht ht'
    exact tkey_inj ht.1 ht'.1 e)

end row

/-! ### The start of a rotation, and its end without a swap -/

/-- A field whose row is in a phase of its rotation. -/
def phased (row : Nat) (ph : RotPhase) (x : Field) : Field := { x with rot := mset .idle x.rot row ph }

theorem State.rot_phased (s : State) (f row : Nat) (ph : RotPhase) :
    mget RotPhase.idle ((s.modField f (phased row ph)).field f).rot row = ph := by
  rw [State.field_modField_same]
  exact mget_mset_same _ _ _ _

theorem rot_of_fields {u v : State} (h : u.fields = v.fields) (f row : Nat) :
    mget RotPhase.idle (u.field f).rot row = mget RotPhase.idle (v.field f).rot row := by
  rw [State.field_of_fields h f]

section phases

variable {s : State} {f row pos : Nat}

theorem State.startRotation_may {hot spare : Int} (h : s.mayRotate f row pos hot spare false = true) :
    s.startRotation f row pos hot spare false =
      (s.modField f (phased row (.copying pos))).startAct (.rotation f row) (2 ^ f) :=
  if_neg (by simp [h])

theorem State.startAct_rotation_fields (s : State) (fields : Nat) :
    (s.startAct (.rotation f row) fields).fields = s.fields := rfl

section exec

variable (hf : f < 64) (hrow : row < 20)
include hf hrow

theorem wf_row : (fieldOk f && decide (row < 20)) = true := by simp [fieldOk, hf, hrow]

theorem answers_rotationInterval (hpos : pos < 20) {hot spare : Int} (h : s.mayRotate f row pos hot spare false = true) :
    Answers (.rotationInterval f row pos hot spare) s (fun u => mget RotPhase.idle (u.field f).rot row = .copying pos ∧
      Activity.mk (.rotation f row) (2 ^ f) ∈ u.hub.acts ∧ u.tiles = s.tiles ∧ u.mesh = s.mesh) := by
  have hwf : Instr.wf (.rotationInterval f row pos hot spare) = true := by simp [Instr.wf, fieldOk, hf, hrow, hpos]
  refine answers_next (guardRes_next hwf (State.startRotation_may h)) ⟨?phase, ?act, rfl, rfl⟩
  case phase => exact (rot_of_fields (State.startAct_rotation_fields _ _) f row).trans (s.rot_phased f row _)
  case act => exact List.mem_append_right s.hub.acts (List.mem_singleton_self (Activity.mk (.rotation f row) (2 ^ f)))

theorem noEffect_rotationInterval (hpos : pos < 20) {hot spare : Int}
    (h : s.mayRotate f row pos hot spare false = false) : NoEffect (.rotationInterval f row pos hot spare) s :=
  guardRes_next (by simp [Instr.wf, fieldOk, hf, hrow, hpos]) (if_pos (by simp [h]))

end exec

/-- The activities in progress without those of a kind. -/
def State.actsWithout (s : State) (k : ActKind) : State :=
  ({ s with hub := { s.hub with acts := s.hub.acts.filter (fun a => a.kind != k) } }).showActs

theorem State.actsWithout_within (s : State) (k : ActKind) : Within [.acts] [0x7101] s (s.actsWithout k) :=
  within_activities s _ s.hub.queue

/-- A rotation abandoned is idle and counted; tiles and mesh stay (R344). -/
theorem State.abandonRotation_holds (hphase : mget RotPhase.idle (s.field f).rot row ≠ .idle) :
    mget RotPhase.idle ((s.abandonRotation f row).field f).rot row = .idle ∧
      (s.abandonRotation f row).odG 0x2300 0xE = s.odG 0x2300 0xE + 1 ∧ (s.abandonRotation f row).tiles = s.tiles ∧
      (s.abandonRotation f row).mesh = s.mesh := by
  have hwithin := s.abandonRotation_within f row
  have hidle : s.abandonRotation f row = ((s.modField f (phased row .idle)).odAdd 0x2300 0xE 1).actsWithout (.rotation f row) :=
    if_neg hphase
  refine ⟨?_, ?_, hwithin.tiles (by decide), hwithin.mesh (by decide)⟩
  · rw [hidle]
    exact (rot_of_fields rfl f row).trans (s.rot_phased f row _)
  · rw [hidle]
    exact ((State.actsWithout_within _ _).odG (idx := 0x2300)).trans (State.odG_odAdd_same (s.modField f _) _ _ _)

end phases

/-! ### The copy (R344) -/

/-- What the copy makes of an array of the spare whose old one holds weights. -/
def HoldsCopy (old x : ChargeArray) : Prop := x.wvalid = true ∧ x.sums = old.sums ∧ x.fmt = old.fmt

theorem copiedArrays_hold (old : Nat → ChargeArray) (l : List Nat) (m : SMap ChargeArray) {n : Nat}
    (h : n ∈ l ∨ HoldsCopy (old n) (mget {} m n)) :
    HoldsCopy (old n) (mget {} (l.foldl (fun m a => mset {} m a (copiedArray (old a) (mget {} m a))) m) n) := by
  induction l generalizing m with
  | nil => exact h.resolve_left (List.not_mem_nil)
  | cons a r ih =>
    refine ih _ ?_
    rw [mget_mset]
    by_cases hna : n = a
    · subst hna
      exact .inr (by rw [if_pos rfl]; exact ⟨rfl, rfl, rfl⟩)
    · rw [if_neg hna]
      exact h.imp_left fun hm => (List.mem_cons.mp hm).resolve_left hna

/-- The arrays of the spare after the copy. -/
theorem copyTile_arr (old spare : Tile) {n : Nat} (h : (old.cb.arr n).wvalid = true) :
    HoldsCopy (old.cb.arr n) ((copyTile old spare).cb.arr n) := by
  refine copiedArrays_hold old.cb.arr _ spare.cb.arrays (.inl ?_)
  unfold ChargeBank.arr mget at h
  cases hfind : mfind old.cb.arrays n with
  | none =>
    rw [hfind] at h
    exact absurd h (by decide)
  | some x =>
    rw [hfind] at h
    exact List.mem_map.mpr ⟨(n, x), List.mem_filter.mpr ⟨mem_of_mfind hfind, h⟩, rfl⟩

section copy

variable {s : State} {f row pos : Nat} (hf : f < 64) (hrow : row < 20)
  (hphase : mget RotPhase.idle (s.field f).rot row = .copying pos)
include hf hrow hphase

theorem exec_rotationCopyDone_ok : exec (.rotationCopyDone f row true) s = .next
    ((s.modTile (s.rowSpare f row) (copyTile (s.tile (s.rowTile f row pos)))).modField f
      (phased row (.ready pos))) := by
  refine guardRes_next (wf_row hf hrow) ?_
  rw [hphase]
  rfl

theorem answers_rotationCopyDone : Answers (.rotationCopyDone f row true) s (fun u =>
    mget RotPhase.idle (u.field f).rot row = .ready pos ∧
      (∀ n, ((s.tile (s.rowTile f row pos)).cb.arr n).wvalid = true →
        HoldsCopy ((s.tile (s.rowTile f row pos)).cb.arr n) ((u.tile (s.rowSpare f row)).cb.arr n)) ∧
      (u.tile (s.rowSpare f row)).cc.isram = (s.tile (s.rowTile f row pos)).cc.isram ∧
      (u.tile (s.rowSpare f row)).cc.spads = (s.tile (s.rowTile f row pos)).cc.spads ∧
      (u.tile (s.rowSpare f row)).cb.chans = (s.tile (s.rowTile f row pos)).cb.chans ∧
      ∀ t, tileOk t = true → t ≠ s.rowSpare f row → u.tile t = s.tile t) := by
  have htile (T : Tile → Tile) (g : Field → Field) :
      ((s.modTile (s.rowSpare f row) T).modField f g).tile (s.rowSpare f row) = T (s.tile (s.rowSpare f row)) :=
    s.tile_modTile_same _ _
  refine answers_next (exec_rotationCopyDone_ok hf hrow hphase) ⟨?phase, fun n hn => ?arr, ?isram, ?spads, ?chans,
    fun t ht hne => ?others⟩
  case phase => exact State.rot_phased _ f row _
  case arr =>
    rw [htile]
    exact copyTile_arr _ _ hn
  case isram => rw [htile]; rfl
  case spads => rw [htile]; rfl
  case chans => rw [htile]; rfl
  case others => exact (s.tile_modTile _ t _).trans (if_neg (tkey_ne ht (s.rowSpare_ok hf hrow) hne))

/-- A copy that fails, and one out of time, abandon the rotation. -/
theorem exec_rotationCopy_abandoned : exec (.rotationCopyDone f row false) s = .next (s.abandonRotation f row) ∧
    exec (.rotationCopyTimeout f row) s = .next (s.abandonRotation f row) := by
  constructor
  · refine guardRes_next (wf_row hf hrow) ?_
    rw [hphase]
    rfl
  · refine guardRes_next (wf_row hf hrow) ?_
    rw [hphase]

/-- While the copy runs there is nothing to swap. -/
theorem noEffect_rotation_copying : NoEffect (.rotationSwap f row) s ∧ NoEffect (.rotationSwapTimeout f row) s := by
  constructor
  · refine guardRes_next (wf_row hf hrow) ?_
    rw [hphase]
  · refine guardRes_next (wf_row hf hrow) ?_
    rw [hphase]

end copy

/-! ### The swap (Table 14.5) -/

/-- The tiles and routers of a row after its swap. -/
def State.tilesSwapped (s : State) (f row j : Nat) : State :=
  let xy := rowPlace f row j
  ((s.forEach (s.mesh.alternates.filter (fun e => e.cond == 1 && e.arg == xy.1 + 256 * xy.2))
    (fun e s => s.setRoute e.router e.route e.entry)).modTile (s.rowSpare f row)
      (swapTile (s.tile (s.rowTile f row j)))).stopTile (s.rowTile f row j)

/-- The row's map with the spare at the place of the old tile. -/
def State.swappedMesh (s : State) (f row j : Nat) : Mesh :=
  let key := rowKey (rowPlace f row j).2 (f % 8) j
  { s.mesh with rowMap := mput s.mesh.rowMap key ((s.rowSpare f row).u % 21) }

section swap

variable (s : State) (f row j : Nat)

theorem State.tilesSwapped_within : Within [.tiles, .routers] [] s (s.tilesSwapped f row j) :=
  ((Within.forEach (cs := [.routers]) (ods := []) _ (fun (e : Alternate) s => s.modRouter_within e.router _) s).mono.andThen
    (State.modTile_within _ _ _)).andThen (State.stopTile_within _ _)

theorem State.tilesSwapped_tile (t : TileId) : (s.tilesSwapped f row j).tile t =
    if tkey t = tkey (s.rowTile f row j) then
      Machine.stopTile (if tkey (s.rowTile f row j) = tkey (s.rowSpare f row) then
        swapTile (s.tile (s.rowTile f row j)) (s.tile (s.rowSpare f row)) else s.tile (s.rowTile f row j))
    else if tkey t = tkey (s.rowSpare f row) then swapTile (s.tile (s.rowTile f row j)) (s.tile (s.rowSpare f row))
    else s.tile t := by
  have hroutes : Within [.routers] [] s (s.forEach (s.mesh.alternates.filter
      (fun e => e.cond == 1 && e.arg == (rowPlace f row j).1 + 256 * (rowPlace f row j).2))
      (fun e s => s.setRoute e.router e.route e.entry)) :=
    .forEach _ (fun (e : Alternate) s => s.modRouter_within e.router _) s
  have htile := fun t => hroutes.tile t
  unfold State.tilesSwapped
  dsimp only
  generalize s.forEach _ _ = z at htile
  generalize swapTile (s.tile (s.rowTile f row j)) = T
  refine (State.tile_modTile (z.modTile (s.rowSpare f row) T) (s.rowTile f row j) t Machine.stopTile).trans ?_
  rw [State.tile_modTile, State.tile_modTile]
  simp only [htile]

theorem State.tilesSwapped_mesh : (s.tilesSwapped f row j).mesh = s.mesh :=
  (s.tilesSwapped_within f row j).mesh (by decide)

/-- After tiles and map the swap changes the partition's tables, ends the rotation, and counts it. -/
theorem State.swapRow_eq : ∃ z, Within [.parts] [] { s.tilesSwapped f row j with mesh := s.swappedMesh f row j } z ∧
    s.swapRow f row j = ((z.modField f (phased row .idle)).endAct (.rotation f row)).odAdd 0x2300 0xD 1 := by
  have hmesh := s.tilesSwapped_mesh f row j
  unfold State.swappedMesh
  rw [← hmesh]
  refine ⟨_, ?_, rfl⟩
  dsimp only
  split
  · exact .refl _
  · exact State.modPart_within _ _ _

theorem State.swapRow_within :
    Within [.mesh, .parts, .fields, .acts] [0x2300, 0x7101] (s.tilesSwapped f row j) (s.swapRow f row j) := by
  obtain ⟨z, hz, e⟩ := s.swapRow_eq f row j
  rw [e]
  exact ((((within_mesh _ _).mono.andThen hz).andThen (State.modField_within _ f _)).andThen
    (State.endAct_within _ _)).andThen (State.odAdd_within _ 1)

theorem State.swapRow_mesh : (s.swapRow f row j).mesh = s.swappedMesh f row j := by
  obtain ⟨z, hz, e⟩ := s.swapRow_eq f row j
  rw [e]
  exact hz.mesh (by decide)

theorem State.swapRow_phase : mget RotPhase.idle ((s.swapRow f row j).field f).rot row = .idle := by
  obtain ⟨z, -, e⟩ := s.swapRow_eq f row j
  rw [e]
  exact (rot_of_fields rfl f row).trans (z.rot_phased f row .idle)

theorem State.swapRow_count : (s.swapRow f row j).odG 0x2300 0xD = s.odG 0x2300 0xD + 1 := by
  obtain ⟨z, hz, e⟩ := s.swapRow_eq f row j
  have hframe : Within [.tiles, .routers, .mesh, .parts, .fields, .acts] [0x7101] s
      ((z.modField f (phased row .idle)).endAct (.rotation f row)) :=
    ((((s.tilesSwapped_within f row j).mono.andThen (within_mesh _ _)).andThen hz).andThen
      (State.modField_within _ f _)).andThen (State.endAct_within _ _)
  rw [e, State.odG_odAdd_same, hframe.odG]

theorem State.swapRow_tile (t : TileId) : (s.swapRow f row j).tile t = (s.tilesSwapped f row j).tile t :=
  (s.swapRow_within f row j).tile t

/-- The place of the old tile is the spare's. -/
theorem State.swapRow_physical {f row j : Nat} (hj : j < 20) :
    (s.swapRow f row j).physical (rowPlace f row j).1 (rowPlace f row j).2 = s.rowSpare f row := by
  obtain ⟨k, hk, e, -⟩ := s.rowSpare_free f row
  have hmap : (s.swapRow f row j).rowMapGet (20 * (f / 8) + row) (f % 8) j = k := by
    unfold State.rowMapGet
    rw [State.swapRow_mesh]
    unfold State.swappedMesh
    dsimp only [rowPlace]
    rw [mfind_mput, if_pos rfl, e, Option.getD_some]
    dsimp only
    omega
  refine ((s.swapRow f row j).rowTile_eq row hj).trans ?_
  rw [hmap, e]

end swap

section swapping

variable {s : State} {f row pos : Nat} (hf : f < 64) (hrow : row < 20) (hpos : pos < 20)
  (hphase : mget RotPhase.idle (s.field f).rot row = .ready pos)
include hf hrow hphase

theorem exec_rotationSwap_ready (hready : swapReady (s.tile (s.rowTile f row pos)) = true)
    (hfeed : ∀ e ∈ (s.router (s.rowTile f row pos)).feed, e.1 ≠ Dir.l) :
    exec (.rotationSwap f row) s = .next (s.swapRow f row pos) := by
  refine guardRes_next (wf_row hf hrow) ?_
  rw [hphase]
  exact if_pos (by simpa [hready] using hfeed)

theorem noEffect_rotationSwap (h : swapReady (s.tile (s.rowTile f row pos)) = false ∨
    ∃ e ∈ (s.router (s.rowTile f row pos)).feed, e.1 = Dir.l) : NoEffect (.rotationSwap f row) s := by
  refine guardRes_next (wf_row hf hrow) ?_
  rw [hphase]
  refine if_neg ?_
  rcases h with h | ⟨e, he, hl⟩
  · simp [h]
  · simp only [Bool.and_eq_true, List.all_eq_true, not_and, not_forall]
    exact fun _ => ⟨e, he, by simp [hl]⟩

include hpos in
/-- What the swap makes of the row's two tiles, and of every other. -/
theorem answers_rotationSwap (hready : swapReady (s.tile (s.rowTile f row pos)) = true)
    (hfeed : ∀ e ∈ (s.router (s.rowTile f row pos)).feed, e.1 ≠ Dir.l) (hok : tileOk (s.rowTile f row pos) = true) :
    Answers (.rotationSwap f row) s (fun u =>
      u.physical (rowPlace f row pos).1 (rowPlace f row pos).2 = s.rowSpare f row ∧
        (u.tile (s.rowSpare f row)).cc.regs = (s.tile (s.rowTile f row pos)).cc.regs ∧
        (u.tile (s.rowSpare f row)).cc.pc = (s.tile (s.rowTile f row pos)).cc.pc ∧
        (u.tile (s.rowSpare f row)).cb.cells = (s.tile (s.rowSpare f row)).cb.cells ∧
        (u.tile (s.rowTile f row pos)).cc.loaded = false ∧ mget RotPhase.idle (u.field f).rot row = .idle ∧
        u.odG 0x2300 0xD = s.odG 0x2300 0xD + 1 ∧
        ∀ t, tileOk t = true → t ≠ s.rowTile f row pos → t ≠ s.rowSpare f row → u.tile t = s.tile t) := by
  have hspare := s.rowSpare_ok hf hrow
  have hne := tkey_ne hspare hok (s.rowSpare_ne_rowTile hpos)
  have hnew : (s.swapRow f row pos).tile (s.rowSpare f row) =
      swapTile (s.tile (s.rowTile f row pos)) (s.tile (s.rowSpare f row)) := by
    rw [s.swapRow_tile, s.tilesSwapped_tile, if_neg hne, if_pos rfl]
  refine answers_next (exec_rotationSwap_ready hf hrow hphase hready hfeed) ⟨s.swapRow_physical hpos, ?regs, ?pc, ?cells,
    ?old, s.swapRow_phase f row pos, s.swapRow_count f row pos, fun t ht hta htb => ?others⟩
  case regs => rw [hnew]; rfl
  case pc => rw [hnew]; rfl
  case cells => rw [hnew]; rfl
  case old => rw [s.swapRow_tile, s.tilesSwapped_tile, if_pos rfl]; rfl
  case others => rw [s.swapRow_tile, s.tilesSwapped_tile, if_neg (tkey_ne ht hok hta), if_neg (tkey_ne ht hspare htb)]

theorem exec_rotationSwapTimeout : exec (.rotationSwapTimeout f row) s = .next (s.abandonRotation f row) := by
  refine guardRes_next (wf_row hf hrow) ?_
  rw [hphase]

/-- While a swap is armed nothing is copied. -/
theorem noEffect_rotation_ready :
    NoEffect (.rotationCopyTimeout f row) s ∧ ∀ ok, NoEffect (.rotationCopyDone f row ok) s := by
  refine ⟨?_, fun ok => ?_⟩
  · refine guardRes_next (wf_row hf hrow) ?_
    rw [hphase]
  · refine guardRes_next (wf_row hf hrow) ?_
    rw [hphase]

end swapping

/-- A row that does not rotate has nothing to end. -/
theorem noEffect_rotation_idle {s : State} {f row : Nat} (hf : f < 64) (hrow : row < 20)
    (hphase : mget RotPhase.idle (s.field f).rot row = .idle) :
    (∀ ok, NoEffect (.rotationCopyDone f row ok) s) ∧ NoEffect (.rotationSwap f row) s ∧
      NoEffect (.rotationCopyTimeout f row) s ∧ NoEffect (.rotationSwapTimeout f row) s := by
  refine ⟨fun ok => ?_, ?_, ?_, ?_⟩ <;>
  · refine guardRes_next (wf_row hf hrow) ?_
    rw [hphase]

end Sys2Proof.Machine

open Sys2Proof Sys2Proof.Machine

/-- Settles O49, phase by phase of the row's rotation. The condition on the transaction of a swap is log 91. -/
theorem tileRotation : Obligations.TileRotation := by
  unfold Obligations.TileRotation
  intro s f row pos hf hrow hpos ph a b abandoned
  have habandoned {c : Instr} (hexec : exec c s = .next (s.abandonRotation f row)) (hphase : ph ≠ .idle) : abandoned c :=
    answers_next hexec (State.abandonRotation_holds hphase)
  refine ⟨fun hot spare => ⟨fun h => ?starts, noEffect_rotationInterval hf hrow hpos⟩, fun hphase => ?copying,
    fun hphase => ?ready, noEffect_rotation_idle hf hrow⟩
  case starts =>
    obtain ⟨u, hexec, hrot, hact, htiles, -⟩ := answers_rotationInterval hf hrow hpos h
    exact ⟨u, hexec, hrot, hact, htiles⟩
  case copying =>
    obtain ⟨hfailed, hlate⟩ := exec_rotationCopy_abandoned hf hrow hphase
    have hbusy : ph ≠ .idle := by rw [hphase]; exact nofun
    exact ⟨habandoned hfailed hbusy, habandoned hlate hbusy, answers_rotationCopyDone hf hrow hphase,
      noEffect_rotation_copying hf hrow hphase⟩
  case ready =>
    obtain ⟨hcopyTimeout, hcopyDone⟩ := noEffect_rotation_ready hf hrow hphase
    have hbusy : ph ≠ .idle := by rw [hphase]; exact nofun
    exact ⟨habandoned (exec_rotationSwapTimeout hf hrow hphase) hbusy, hcopyTimeout, hcopyDone,
      noEffect_rotationSwap hf hrow hphase, answers_rotationSwap hf hrow hpos hphase⟩

end

section
/-!
SUPPORT. The management restart (R371, R373, R410, Table 16.1), and the obligation O51.
-/

-- One proof after another: side conditions of frames are default arguments, and proofs elaborated at once would each wait
-- for the kernel in a thread of their own, past the memory limit.
set_option Elab.async false

namespace Sys2Proof.Machine

/-- Operations that each leave a state as it is. -/
theorem State.forEach_unmoved {α : Type} {f : α → State → State} {l : List α} {s : State} (h : ∀ a ∈ l, f a s = s) :
    s.forEach l f = s := by
  induction l with
  | nil => rfl
  | cons a r ih =>
    show (f a s).forEach r f = s
    rw [h a List.mem_cons_self]
    exact ih fun b hb => h b (List.mem_cons_of_mem a hb)

/-- A change that stays within a frame, made for each element of a list from the left. -/
theorem Within.foldl_mem {cs : List Comp} {ods : List Nat} {α : Type} {f : State → α → State} (l : List α)
    (hf : ∀ a ∈ l, ∀ t, Within cs ods t (f t a)) (s : State) : Within cs ods s (l.foldl f s) := by
  induction l generalizing s with
  | nil => exact .refl s
  | cons a r ih =>
    exact (hf a List.mem_cons_self s).andThen (ih (fun b hb => hf b (List.mem_cons_of_mem a hb)) (f s a)) (fun _ m => m)
      fun _ m => m

/-! ### What a restart ends and forgets (Table 16.1) -/

section ends

variable (s : State)

/-- The state of a restart counted with its cause and logged. -/
def State.restartCounted (s : State) (c : Nat) : State :=
  let s1 := (s.odAdd 0x1130 1 1).odSet 0x1130 4 c
  (if c = 1 then s1.odAdd 0x1130 2 1 else s1).log { rule := 371, status := 0x000D, sev := 1, data := [c] }

theorem State.restartCounted_within (c : Nat) : Within [] [0x1130] s (s.restartCounted c) :=
  .andThen (cs := []) (ods := [0x1130]) (.ite (fun _ => ((s.odAdd_within 1).andThen (State.odSet_within _ c)).andThen (State.odAdd_within _ 1))
    fun _ => (s.odAdd_within 1).andThen (State.odSet_within _ c)) (State.log_within _ _)

/-- The count of restarts, the count of watchdog expiries, and the cause. -/
theorem State.restartCounted_counts (c : Nat) : (s.restartCounted c).odG 0x1130 1 = s.odG 0x1130 1 + 1 ∧
    (s.restartCounted c).odG 0x1130 2 = s.odG 0x1130 2 + (if c = 1 then 1 else 0) ∧
    (s.restartCounted c).odG 0x1130 4 = c := by
  unfold State.restartCounted
  dsimp only
  simp only [(State.log_within _ _).odG (cs := []) (ods := []) (idx := 0x1130) (sub := 1),
    (State.log_within _ _).odG (cs := []) (ods := []) (idx := 0x1130) (sub := 2),
    (State.log_within _ _).odG (cs := []) (ods := []) (idx := 0x1130) (sub := 4)]
  split
  · simp [State.odG_odAdd_ne, State.odG_odSet_ne]
  · simp [State.odG_odAdd_ne, State.odG_odSet_ne]

/-- What a restart makes of the hub's work in progress, callers and sessions. -/
def State.hubForgot (s : State) : State := ((s.endHubWork 0x000D).forgetCallers).endSessions

theorem State.endHubWork_within (code : Nat) :
    Within [.out, .rings, .parts, .stk, .tiles, .routers, .mesh, .acts, .fabric]
      [0x5000, 0x5100, 0x5101, 0x3310, 0x5200, 0x7000, 0x3501, 0x3500, 0x7101, 0x6100, 0x6110] s (s.endHubWork code) :=
  .forEach_mem _ (fun p hp s => (s.endModel_within (List.mem_range.mp hp) code).andThen (State.closeTx_within _ p code code)) s

theorem State.endHubWork_idle (code : Nat) (h : ∀ p, p < 32 → (s.part p).cmd = .none ∧ mfind s.fabric.tx p = none) :
    s.endHubWork code = s :=
  State.forEach_unmoved fun p hp => by
    obtain ⟨hcmd, htx⟩ := h p (List.mem_range.mp hp)
    simp only [State.endModel, hcmd, State.closeTx, htx]

theorem State.forgetCallers_within : Within [.hub] [0x6000] s s.forgetCallers :=
  ((within_hub s _).mono.andThen (State.odSet_within _ 0)).andThen (within_hub _ _)

theorem State.endSessions_within : Within [.fns] [] s s.endSessions := within_fns s _

/-- No function has a session. -/
theorem State.endSessions_fn (port : Port) (n : Nat) : (s.endSessions.fn port n).session = none := by
  unfold State.endSessions State.fn mget
  dsimp only
  cases hfind : mfind _ _ with
  | none => rfl
  | some g =>
    obtain ⟨e, -, he⟩ := List.mem_filterMap.mp (mem_of_mfind hfind)
    split at he
    · cases he
    · obtain ⟨-, rfl⟩ := Prod.mk.inj (Option.some.inj he)
      rfl

end ends

/-! ### The beginning of a restart (R371) -/

/-- The cause that a restart shows: a committed image is activated by one by command. -/
def State.restartCause (s : State) (cause : RestartCause) : Nat :=
  if cause = .command ∧ s.odG 0x1300 4 = 4 then 4 else causeNum cause

/-- The state in which a restart has begun, before an image is taken. -/
def State.restartBegun (s : State) (cause : RestartCause) : State :=
  let upd := s.odG 0x1300 4
  let s3 := (s.restartCounted (s.restartCause cause)).hubForgot
  let s4 := ({ s3 with hub := { s3.hub with restarting := true, activating := s3.hub.activating || upd == 4, activationDue := false,
                                            slot := if upd = 3 then none else s3.hub.slot } }).unqueue .activation
  (if upd = 3 then s4.odSet 0x1300 4 5 else s4).pin "MOD_READY" false

section begins

variable (s : State) (cause : RestartCause) (k ok : Bool)

theorem State.beginRestart_eq : s.beginRestart cause k ok = (s.restartBegun cause).restartImage k ok := by
  unfold State.beginRestart State.restartBegun State.hubForgot State.restartCounted State.restartCause
  dsimp only

theorem State.hubForgot_within :
    Within [.out, .rings, .parts, .stk, .tiles, .routers, .mesh, .acts, .fabric, .hub, .fns]
      [0x5000, 0x5100, 0x5101, 0x3310, 0x5200, 0x7000, 0x3501, 0x3500, 0x7101, 0x6100, 0x6110, 0x6000] s s.hubForgot :=
  ((s.endHubWork_within _).mono.andThen (State.forgetCallers_within _)).andThen (State.endSessions_within _)

/-- Its counts stand when the restart has begun. -/
theorem State.restartBegun_within :
    Within [.out, .rings, .parts, .stk, .tiles, .routers, .mesh, .acts, .fabric, .hub, .fns]
      [0x5000, 0x5100, 0x5101, 0x3310, 0x5200, 0x7000, 0x3501, 0x3500, 0x7101, 0x6100, 0x6110, 0x6000, 0x1300]
      (s.restartCounted (s.restartCause cause)) (s.restartBegun cause) := by
  unfold State.restartBegun
  dsimp only
  refine .andThen ?_ (State.emit_within _ _)
  have hbegun := fun h => (((s.restartCounted (s.restartCause cause)).hubForgot_within).mono.andThen
    (within_hub _ h)).andThen (State.unqueue_within _ .activation) (cs := [.out, .rings, .parts, .stk, .tiles, .routers, .mesh, .acts, .fabric, .hub, .fns])
      (ods := [0x5000, 0x5100, 0x5101, 0x3310, 0x5200, 0x7000, 0x3501, 0x3500, 0x7101, 0x6100, 0x6110, 0x6000, 0x1300])
  exact .ite (fun _ => (hbegun _).andThen (State.odSet_within _ 5)) fun _ => hbegun _

theorem State.restartBegun_hub : (s.restartBegun cause).hub.lockHolder = 0 ∧ (s.restartBegun cause).hub.restarting = true := by
  unfold State.restartBegun
  dsimp only
  split <;> exact ⟨rfl, rfl⟩

end begins

/-! ### The image that a restart takes (R373) -/

section image

variable (s : State)

theorem State.imageChanged_within {p : Nat} (hp : p < 32) :
    Within [.out, .rings, .parts, .stk, .tiles, .routers, .mesh]
      [0x5000, 0x5100, 0x5101, 0x3310, 0x5200, 0x7000, 0x3501, 0x3500, 0x7103, 0x4102, 0x4002] s (s.imageChanged p) :=
  .ite (fun _ => .refl s) fun _ => ((((s.endHeld_within hp _ _).mono.andThen (State.unload_within _ hp)).andThen
    (State.modPart_within _ p _)).andThen (State.startScrub_within _ hp 1))

/-- The versions of the parts that an image shows, and where (R372). -/
def imageVersionRows (im : Image) : List (Nat × Nat × Nat) :=
  im.versions.zip ((List.range 5).map (fun i => (0x1010, i + 1)) ++ (List.range 5).map (fun i => (0x1011, i + 1)))

theorem imageVersionRows_place {im : Image} {e : Nat × Nat × Nat} (he : e ∈ imageVersionRows im) :
    e.2.1 ∈ [0x1010, 0x1011] ∧ e.2.2 < 256 := by
  have hplaces : ∀ x ∈ (List.range 5).map (fun i => (0x1010, i + 1)) ++ (List.range 5).map (fun i => (0x1011, i + 1)),
      x.1 ∈ [0x1010, 0x1011] ∧ x.2 < 256 := by decide
  exact hplaces e.2 (List.of_mem_zip he).2

/-- The image runs, and the dictionary shows it. -/
theorem State.runImage_shown (im : Image) : Within [.blob] [0x1300, 0x1010, 0x1011]
    { s with hub := { s.hub with running := im, recovery := false } } (s.runImage im) := by
  have hrows (t : State) : Within [] [0x1010, 0x1011] t
      ((imageVersionRows im).foldl (fun s e => s.odSet e.2.1 e.2.2 e.1) t) := by
    refine .foldl_mem _ (fun e he t => ?_) t
    obtain ⟨hidx, hsub⟩ := imageVersionRows_place he
    exact (t.odSet_within e.1 hsub).mono (by decide) fun i hi => List.mem_singleton.mp hi ▸ hidx
  have hshown (t : State) : Within [.blob] [0x1300, 0x1010, 0x1011] t
      (((t.odSet 0x1300 1 im.version).odSet 0x1300 6 im.version).setBlobP 0x1300 8 0xFF im.digest) :=
    (((t.odSet_within _).mono.andThen (State.odSet_within _ _)).andThen (State.setBlobP_within _ _ _ _ _))
  unfold State.runImage
  dsimp only
  refine .andThen ?_ (hrows _)
  exact .ite (fun _ => (hshown _).andThen (State.odSet_within _ _)) fun _ => hshown _

theorem State.runImage_within (im : Image) : Within [.hub, .blob] [0x1300, 0x1010, 0x1011] s (s.runImage im) :=
  (within_hub s _).mono.andThen (s.runImage_shown im)

theorem State.runImage_hub (im : Image) : HubLogged { s.hub with running := im, recovery := false } (s.runImage im).hub :=
  (s.runImage_shown im).hub (by decide) (by decide)

theorem State.endActivation_within (st code : Nat) : Within [.hub] [0x1300] s (s.endActivation st code) :=
  .ite (fun _ => .refl s) fun _ => ((within_hub s _).mono.andThen (State.odSet_within _ st)).andThen (State.odSet_within _ code)

theorem State.imagesChanged_within : Within [.out, .rings, .parts, .stk, .tiles, .routers, .mesh]
    [0x5000, 0x5100, 0x5101, 0x3310, 0x5200, 0x7000, 0x3501, 0x3500, 0x7103, 0x4102, 0x4002] s
    (s.forEach (List.range 32) (fun p s => s.imageChanged p)) :=
  .forEach_mem _ (fun _ hp s => s.imageChanged_within (List.mem_range.mp hp)) s

theorem State.restartImage_within (k ok : Bool) :
    Within [.out, .rings, .parts, .stk, .tiles, .routers, .mesh, .hub, .blob]
      [0x5000, 0x5100, 0x5101, 0x3310, 0x5200, 0x7000, 0x3501, 0x3500, 0x7103, 0x4102, 0x4002, 0x1300, 0x1010, 0x1011,
        0x7102] s (s.restartImage k ok) := by
  have hended (h : Hub) := (within_hub s h).mono (cs := [.out, .rings, .parts, .stk, .tiles, .routers, .mesh, .hub, .blob])
    (ods := [0x5000, 0x5100, 0x5101, 0x3310, 0x5200, 0x7000, 0x3501, 0x3500, 0x7103, 0x4102, 0x4002, 0x1300, 0x1010, 0x1011,
      0x7102])
  unfold State.restartImage
  split
  · exact ((hended _).andThen (within_hub _ _)).andThen (State.emit_within _ _)
  · split
    · exact ((((hended _).andThen (State.endActivation_within _ 5 0x0704)).andThen (within_hub _ _)).andThen
        (State.odSet_within _ 6)).andThen (State.emit_within _ _)
    · rename_i im _
      have hrun : Within [.out, .rings, .parts, .stk, .tiles, .routers, .mesh, .hub, .blob]
          [0x5000, 0x5100, 0x5101, 0x3310, 0x5200, 0x7000, 0x3501, 0x3500, 0x7103, 0x4102, 0x4002, 0x1300, 0x1010, 0x1011,
            0x7102] s ((if im.digest = s.hub.running.digest then s else
              s.forEach (List.range 32) (fun p s => s.imageChanged p)).runImage im) :=
        (Within.ite (fun _ => .refl s) fun _ => s.imagesChanged_within.mono).andThen (State.runImage_within _ im)
      exact .ite (fun _ => hrun.andThen (within_hub _ _)) fun _ => hrun

theorem HubActed.lockHolder {h k : Hub} (hacted : HubActed h k) : k.lockHolder = h.lockHolder := by
  obtain ⟨_, _, _, _, _, _, rfl⟩ := hacted
  rfl

/-- Whoever holds the device control lock holds it when the image runs. -/
theorem State.restartImage_lockHolder (k ok : Bool) : (s.restartImage k ok).hub.lockHolder = s.hub.lockHolder := by
  unfold State.restartImage
  split
  · rfl
  · split
    · unfold State.endActivation
      split <;> rfl
    · rename_i im _
      have hchanged : (if im.digest = s.hub.running.digest then s else
          s.forEach (List.range 32) (fun p s => s.imageChanged p)).hub.lockHolder = s.hub.lockHolder := by
        split
        · rfl
        · exact (s.imagesChanged_within.acts (by decide)).lockHolder
      dsimp only
      generalize (if im.digest = s.hub.running.digest then s else
        s.forEach (List.range 32) (fun p s => s.imageChanged p)) = z at hchanged ⊢
      have hrun : (z.runImage im).hub.lockHolder = s.hub.lockHolder :=
        (HubActed.of_logged (z.runImage_hub im)).lockHolder.trans hchanged
      split <;> exact hrun

/-- With the running image nothing is scrubbed. -/
theorem State.restartImage_same {ok : Bool} {im : Image} (hboot : s.bootable ok = some im)
    (hsame : im.digest = s.hub.running.digest) (hactivating : s.hub.activating = false) :
    s.restartImage true ok = s.runImage im := by
  have hrun : (s.runImage im).hub.activating = false := by
    obtain ⟨_, _, _, e⟩ := s.runImage_hub im
    rw [e, hactivating]
  unfold State.restartImage
  rw [if_neg (by decide), hboot]
  simp only [if_pos hsame]
  exact if_neg (by simp [hrun])

end image

/-! ### What holds of every restart -/

section every

variable (s : State) (cause : RestartCause) (k ok : Bool)

theorem State.beginRestart_counts : (s.beginRestart cause k ok).odG 0x1130 1 = s.odG 0x1130 1 + 1 ∧
    (s.beginRestart cause k ok).odG 0x1130 2 = s.odG 0x1130 2 + (if s.restartCause cause = 1 then 1 else 0) ∧
    (s.beginRestart cause k ok).odG 0x1130 4 = s.restartCause cause ∧ (s.beginRestart cause k ok).hub.lockHolder = 0 := by
  rw [s.beginRestart_eq]
  obtain ⟨hcount, hexpired, hcause⟩ := s.restartCounted_counts (s.restartCause cause)
  have hkept {sub : Nat} (hsub : sub < 256) :
      ((s.restartBegun cause).restartImage k ok).odG 0x1130 sub = (s.restartCounted (s.restartCause cause)).odG 0x1130 sub :=
    (((s.restartBegun cause).restartImage_within k ok).odG (idx := 0x1130) (hsub := hsub)).trans
      ((s.restartBegun_within cause).odG (idx := 0x1130) (hsub := hsub))
  exact ⟨(hkept (by decide)).trans hcount, (hkept (by decide)).trans hexpired, (hkept (by decide)).trans hcause,
    ((s.restartBegun cause).restartImage_lockHolder k ok).trans (s.restartBegun_hub cause).1⟩

/-- A wrong ROM key halts the hub. -/
theorem State.beginRestart_halt : (s.beginRestart cause false ok).hub.romHalt = true ∧
    (s.beginRestart cause false ok).hub.served = false ∧
    (s.beginRestart cause false ok).out.getLast? = some (Emission.pin "MOD_FAULT_N" false) := by
  rw [s.beginRestart_eq]
  exact ⟨rfl, rfl, List.getLast?_concat⟩

/-- What a restart without work in progress leaves of the hub, and what it forgets. -/
structure Forgotten (s b : State) : Prop where
  slot : b.hub.slot = s.hub.slot
  running : b.hub.running = s.hub.running
  activating : b.hub.activating = s.hub.activating
  restarting : b.hub.restarting = true
  peers : b.hub.peers = []
  versions : b.hub.versions = []
  sessions : ∀ port n, (b.fn port n).session = none
  tiles : b.tiles = s.tiles
  parts : b.parts = s.parts
  pin : Emission.pin "MOD_READY" false ∈ b.out
  minimum : b.odG 0x1300 7 = s.odG 0x1300 7

section quiet

variable {cause : RestartCause} (h3 : s.odG 0x1300 4 ≠ 3) (h4 : s.odG 0x1300 4 ≠ 4)
  (hidle : ∀ p, p < 32 → (s.part p).cmd = .none ∧ mfind s.fabric.tx p = none)
include h3 h4 hidle

theorem State.restartBegun_forgotten : Forgotten s (s.restartBegun cause) := by
  have hcounted := s.restartCounted_within (s.restartCause cause)
  have hendless : (s.restartCounted (s.restartCause cause)).endHubWork 0x000D = s.restartCounted (s.restartCause cause) :=
    State.endHubWork_idle _ _ fun p hp => by
      rw [hcounted.part, hcounted.fabric (by decide)]
      exact hidle p hp
  unfold State.restartBegun State.hubForgot
  rw [hendless]
  generalize s.restartCounted (s.restartCause cause) = z at hcounted
  obtain ⟨_, _, _, hhub⟩ := hcounted.hub (by decide) (by decide)
  dsimp only
  rw [if_neg h3, if_neg h3]
  constructor
  case slot => exact (congrArg Hub.slot hhub :)
  case running => exact (congrArg Hub.running hhub :)
  case activating =>
    show (z.hub.activating || s.odG 0x1300 4 == 4) = _
    simp [hhub, h4]
  case restarting => rfl
  case peers => rfl
  case versions => rfl
  case sessions => exact fun port n => z.forgetCallers.endSessions_fn port n
  case tiles => exact hcounted.tiles (by decide)
  case parts => exact hcounted.parts (by decide)
  case pin => exact List.mem_append_right _ (List.mem_singleton_self _)
  case minimum =>
    exact (((((State.forgetCallers_within z).mono (cs := [.hub, .fns, .acts, .out]) (ods := [0x6000, 0x7101])).andThen
      (State.endSessions_within _)).andThen (within_hub _ _)).andThen ((State.unqueue_within _ _).mono.andThen
      (cs := [.acts, .out]) (ods := [0x7101]) (State.emit_within _ _))).odG.trans hcounted.odG

/-- A restart with the running image ends what is in progress and leaves partitions and tiles as they are. -/
theorem State.beginRestart_same {ok : Bool} {im : Image} (hboot : s.bootable ok = some im)
    (hsame : im.digest = s.hub.running.digest) (hactivating : s.hub.activating = false) :
    (s.beginRestart cause true ok).hub.restarting = true ∧ (s.beginRestart cause true ok).hub.peers = [] ∧
      (s.beginRestart cause true ok).hub.versions = [] ∧
      (∀ port n, ((s.beginRestart cause true ok).fn port n).session = none) ∧
      (s.beginRestart cause true ok).tiles = s.tiles ∧ (s.beginRestart cause true ok).parts = s.parts ∧
      Emission.pin "MOD_READY" false ∈ (s.beginRestart cause true ok).out := by
  have hb := s.restartBegun_forgotten (cause := cause) h3 h4 hidle
  rw [s.beginRestart_eq]
  generalize s.restartBegun cause = b at hb
  have hboot' : b.bootable ok = some im := by
    simp only [State.bootable, hb.slot, hb.minimum]
    exact hboot
  rw [b.restartImage_same hboot' (hsame.trans (congrArg Image.digest hb.running.symm)) (hb.activating.trans hactivating)]
  have hrun := b.runImage_within im
  obtain ⟨_, _, _, hhub⟩ := b.runImage_hub im
  rw [hhub, hrun.tiles (by decide), hrun.parts (by decide), hrun.out (by decide)]
  exact ⟨hb.restarting, hb.peers, hb.versions, fun port n => (congrArg Function.session (hrun.fn port n)).trans (hb.sessions port n),
    hb.tiles, hb.parts, hb.pin⟩

end quiet

end every

/-! ### The restart by command (R371, R410) -/

/-- The state with a firmware activation queued. -/
def State.activationQueued (s : State) : State :=
  let s1 := (s.queueAct .activation (2 ^ 64 - 1) []).countMaint 0x0801
  { s1 with hub := { s1.hub with activationDue := true } }

section command

variable {s : State} {c : Caller} (h : Admitted s c 0x1130 5 0xFF)

theorem State.counted_heldFields : s.counted.heldFields = s.heldFields := rfl

/-- No rotation is abandoned while no image is committed. -/
theorem State.noImage_keepsRotations (hst : s.odG 0x1300 4 ≠ 4) :
    s.forEach allFields (fun f s => if s.odG 0x1300 4 = 4 then s.abandonRotations f else s) = s :=
  State.forEach_unmoved fun _ _ => if_neg hst

include h

/-- A command that is admitted and succeeds is followed by what comes after its reply. -/
theorem Admitted.commandThen_ok {run : State → State × Nat} {after : State → State} {u : State}
    (hrun : run s.counted = (u, 0)) : s.commandThen c 0x1130 5 0xFF run after = after (u.reply c 0) := by
  have hdone := h.command_eq run
  rw [hrun] at hdone
  obtain ⟨-, hcall, hgate, hforeign⟩ := h
  unfold State.counted at hgate hrun
  simp [State.commandThen, hcall, hgate, hforeign, hrun, hdone]

/-- Nothing follows one that fails. -/
theorem Admitted.commandThen_failed {run : State → State × Nat} {after : State → State} {u : State} {code : Nat}
    (hrun : run s.counted = (u, code)) (hcode : code ≠ 0) :
    s.commandThen c 0x1130 5 0xFF run after = u.reply c code := by
  have hdone := h.command_eq run
  rw [hrun] at hdone
  unfold State.counted at hrun
  simp [State.commandThen, hrun, hdone, hcode]

variable (k ok : Bool)

theorem refuses_restartTheHub {v : Nat} (hv : v ≠ 1) : Refuses (.restartTheHub c v k ok) s c 0x0003 :=
  guardRes_next h.1 (h.commandThen_failed (run := oneOnly v State.restartCode) (if_pos hv) (by decide))

/-- The command's code where it is 1. -/
theorem exec_restartTheHub_failed {u : State} {code : Nat} (hrun : State.restartCode s.counted = (u, code))
    (hcode : code ≠ 0) : exec (.restartTheHub c 1 k ok) s = .next (u.reply c code) :=
  guardRes_next h.1 (h.commandThen_failed (run := oneOnly 1 State.restartCode) ((if_neg (by decide)).trans hrun) hcode)

theorem exec_restartTheHub (hst : s.odG 0x1300 4 ≠ 4) :
    exec (.restartTheHub c 1 k ok) s = .next ((s.counted.reply c 0).beginRestart .command k ok) := by
  have hst' : s.counted.odG 0x1300 4 ≠ 4 := by rwa [s.counted_update 4]
  have hrun : oneOnly 1 State.restartCode s.counted = (s.counted, 0) :=
    (if_neg (by decide)).trans (if_pos hst')
  refine guardRes_next h.1 ((h.commandThen_ok hrun).trans ?_)
  rw [State.noImage_keepsRotations (s := s.counted.reply c 0) hst']

theorem exec_restartTheHub_activating (hst : s.odG 0x1300 4 = 4) (hact : s.counted.activating = true) :
    exec (.restartTheHub c 1 k ok) s = .next ((s.counted.odAdd 0x7101 5 1).reply c 0x0802) := by
  refine exec_restartTheHub_failed h k ok ?_ (by decide)
  unfold State.restartCode
  rw [if_neg (by simp [s.counted_update 4, hst]), if_pos hact]
  rfl

theorem answers_restartTheHub_queued (hst : s.odG 0x1300 4 = 4) (hact : s.counted.activating = false)
    (hheld : s.heldFields ≠ 0 ∨ s.hub.queue ≠ []) (hroom : s.hub.queue.length < 32) :
    Answers (.restartTheHub c 1 k ok) s (fun u =>
      u.hub.queue = s.hub.queue ++ [Queued.mk .activation (2 ^ 64 - 1) s.clkTime []] ∧ u.hub.activationDue = true ∧
        u.parts = s.parts ∧ u.out = s.out ++ [Emission.status c 0x0801]) := by
  have hrun : State.restartCode s.counted = (s.counted.activationQueued, 0x0801) := by
    unfold State.restartCode
    rw [if_neg (by simp [s.counted_update 4, hst]), if_neg (by simp [hact]), if_neg, if_neg (by simpa using hroom)]
    · rfl
    · rw [s.counted_heldFields]
      exact fun hfree => hheld.elim (fun h => h hfree.1) fun h => h hfree.2
  exact answers_next (exec_restartTheHub_failed h k ok hrun (by decide)) ⟨rfl, rfl, rfl, rfl⟩

end command

/-! ### The end of a restart (R371) -/

section finish

variable {s : State}

theorem noEffect_managementRestartEnd (h : s.hub.restarting = false) : NoEffect .managementRestartEnd s :=
  guardRes_next rfl (if_pos (by simp [h]))

/-- The state at the end of a restart, before what was due runs. -/
def State.restartSettled (s : State) : State := (s.flushHeld.hubSettings).endActivation 0 0

theorem exec_managementRestartEnd (h : s.hub.restarting = true) :
    exec .managementRestartEnd s = .next ((s.restartSettled.dueResets.answerBusy.runDetours
      (2 * s.restartSettled.dueResets.answerBusy.mesh.detourQueue.length + 2)).afterRestart) := by
  show execManagementRestartEnd s = _
  unfold execManagementRestartEnd State.restartSettled
  refine guardRes_next rfl ?_
  rw [h, if_neg (by decide)]

theorem State.dueResets_none (h : s.hub.resetsDue = 0) : s.dueResets = { s with hub := { s.hub with resetsDue := 0 } } := by
  have hnone : (List.range 32).filter (fun p => bit s.hub.resetsDue p) = [] := by
    rw [h]
    decide
  unfold State.dueResets
  rw [hnone]
  rfl

theorem State.answerBusy_none (h : ∀ port n, n ≤ 32 → (s.fn port n).mbBusy = false) : s.answerBusy = s :=
  State.forEach_unmoved fun e he => by
    have hn : e.2 ≤ 32 := by
      simp only [allFns, List.mem_flatMap, List.mem_map, List.mem_range] at he
      obtain ⟨_, _, n, hn, rfl⟩ := he
      omega
    rw [h e.1 e.2 hn]
    rfl

theorem State.runDetours_none (h : s.mesh.detour = .idle) (hq : s.mesh.detourQueue = []) (n : Nat) : s.runDetours n = s := by
  cases n with
  | zero => rfl
  | succ n => simp only [State.runDetours, h, hq]

theorem State.afterRestart_plain (hstart : s.hub.startDue = none) (h6 : s.odG 0x7102 1 ≠ 6) :
    s.afterRestart = s.pin "MOD_READY" true := by
  unfold State.afterRestart
  rw [hstart]
  exact if_neg h6

theorem State.hubSettings_within : Within [.hub, .fabric] [0x6120] s s.hubSettings := by
  have hset (h : Hub) (f : Fabric) : Within [.hub, .fabric] [0x6120] s { s with hub := h, fabric := f } := by
    constructor <;> simp [State.fn, State.odP]
  exact .ite (fun _ => (hset _ _).andThen (State.odSet_within _ 0)) fun _ => hset _ _

theorem State.hubSettings_devId : s.hubSettings.fabric.devId = s.odG 0x6100 1 ∧
    s.hubSettings.hub = { s.hub with netOn := s.odG 0x1100 4 == 1 } := by
  unfold State.hubSettings
  dsimp only
  split <;> exact ⟨rfl, rfl⟩

/-- A restart that held nothing at the sources of events ends with the hub's settings taken anew. -/
theorem State.restartSettled_plain (hheld : s.hub.held = []) (hlost : s.hub.heldLost = [])
    (hactivating : s.hub.activating = false) :
    s.restartSettled = ({ s with hub := { s.hub with restarting := false, held := [], heldLost := [] } }).hubSettings := by
  have hflush : s.flushHeld = { s with hub := { s.hub with restarting := false, held := [], heldLost := [] } } := by
    unfold State.flushHeld
    rw [hheld, hlost]
    rfl
  unfold State.restartSettled
  rw [hflush]
  exact if_pos (by rw [State.hubSettings_devId.2]; simp [hactivating])

theorem answers_managementRestartEnd (h : s.hub.restarting = true) (hheld : s.hub.held = []) (hlost : s.hub.heldLost = [])
    (hresets : s.hub.resetsDue = 0) (hstart : s.hub.startDue = none) (hactivating : s.hub.activating = false)
    (hdetour : s.mesh.detour = .idle) (hqueue : s.mesh.detourQueue = []) (hserving : s.odG 0x7102 1 = 1)
    (hbox : ∀ port n, n ≤ 32 → (s.fn port n).mbBusy = false) :
    Answers .managementRestartEnd s (fun u => u.hub.restarting = false ∧
      u.out = s.out ++ [Emission.pin "MOD_READY" true] ∧ u.parts = s.parts ∧ u.tiles = s.tiles ∧ u.fns = s.fns ∧
      u.fabric.devId = s.odG 0x6100 1) := by
  have hexec := exec_managementRestartEnd h
  rw [State.restartSettled_plain hheld hlost hactivating] at hexec
  obtain ⟨hdev, hhub⟩ := State.hubSettings_devId
    (s := { s with hub := { s.hub with restarting := false, held := [], heldLost := [] } })
  have hsettled : Within [.hub, .fabric] [0x6120] s
      ({ s with hub := { s.hub with restarting := false, held := [], heldLost := [] } }).hubSettings :=
    (within_hub s _).mono.andThen State.hubSettings_within
  generalize ({ s with hub := { s.hub with restarting := false, held := [], heldLost := [] } }).hubSettings = w at *
  have hdone : Within [.hub, .fabric] [0x6120] s { w with hub := { w.hub with resetsDue := 0 } } :=
    hsettled.andThen (within_hub w _)
  rw [State.dueResets_none (by rw [hhub]; exact hresets)] at hexec
  generalize hu : { w with hub := { w.hub with resetsDue := 0 } } = u at hexec hdone
  have huhub : u.hub.restarting = false ∧ u.hub.startDue = none ∧ u.fabric.devId = s.odG 0x6100 1 := by
    rw [← hu]
    exact ⟨congrArg Hub.restarting hhub, (congrArg Hub.startDue hhub).trans hstart, hdev⟩
  obtain ⟨hended, hnone, hdevice⟩ := huhub
  have hmesh := hdone.mesh (by decide)
  rw [State.answerBusy_none fun port n hn => (congrArg Function.mbBusy (hdone.fn port n)).trans (hbox port n hn),
    State.runDetours_none (by rw [hmesh, hdetour]) (by rw [hmesh, hqueue]),
    State.afterRestart_plain hnone (by rw [hdone.odG, hserving]; decide)] at hexec
  exact answers_next hexec ⟨hended, congrArg (· ++ [Emission.pin "MOD_READY" true]) (hdone.out (by decide)),
    hdone.parts (by decide), hdone.tiles (by decide), hdone.fns (by decide) (by decide), hdevice⟩

end finish

end Sys2Proof.Machine

open Sys2Proof Sys2Proof.Machine

/-- Settles O51: what begins a restart, what it ends and forgets, and its end where nothing was due. The reply before the
restart is log 116; its causes, its repetition and the events held in it are log 102. -/
theorem hubRestarts : Obligations.HubRestarts := by
  unfold Obligations.HubRestarts
  intro s k ok
  refine ⟨fun cause h => guardRes_next rfl (if_neg (by simp [h])), fun cause h => guardRes_next rfl (if_pos h),
    fun cause im h hk h3 h4 hboot hsame hactivating hidle => ?same, fun cause h hk => ?halt, fun h => ?begins, fun h => ?idle,
    fun h => ?correctable, fun c hc => ⟨fun v hv => refuses_restartTheHub hc k ok hv, exec_restartTheHub hc k ok,
      exec_restartTheHub_activating hc k ok, answers_restartTheHub_queued hc k ok⟩,
    noEffect_managementRestartEnd, answers_managementRestartEnd⟩
  case same =>
    subst hk
    obtain ⟨hrestarting, hpeers, hversions, hsessions, htiles, hparts, hpin⟩ :=
      s.beginRestart_same (cause := cause) h3 h4 hidle hboot hsame hactivating
    obtain ⟨hcount, -, -, hlock⟩ := s.beginRestart_counts cause true ok
    exact answers_next (guardRes_next rfl (if_pos h))
      ⟨hrestarting, hcount, hlock, hpeers, hversions, hsessions, htiles, hparts, hpin⟩
  case halt =>
    subst hk
    exact answers_next (guardRes_next rfl (if_pos h)) (s.beginRestart_halt cause ok)
  case begins =>
    have hvstby : s.hub.vstby = true := by
      simp only [State.canRestart, Bool.and_eq_true] at h
      exact h.1.1.1
    exact ⟨guardRes_next rfl (if_pos h), guardRes_next rfl (by simp [hvstby, h])⟩
  case idle =>
    exact ⟨guardRes_next rfl (if_neg (by simp [h])), guardRes_next rfl (by simp [h])⟩
  case correctable => exact guardRes_next rfl (by simp [h])

end

section
/-!
SUPPORT. The frames of what a tile's faults, traces, messages and flits may change (R148–R151, R181–R187, R198), and of the
installation of a detour set (R163, R164).
-/

-- One proof after another: side conditions of frames are default arguments, and proofs elaborated at once would each wait
-- for the kernel in a thread of their own, past the memory limit.
set_option Elab.async false

namespace Sys2Proof.Machine

/-- What a tile's faults, traces, messages and flits may change: tiles, routers, trace memory, fault records and counts. -/
abbrev Stirs (s u : State) : Prop := Within [.tiles, .routers, .stk, .blob] [0x3400, 0x3500, 0x7000] s u

variable (s : State) (t : TileId)

/-! ### Traces and fault records (R181, R198) -/

theorem State.modTile_stirs (f : Tile → Tile) : Stirs s (s.modTile t f) := (s.modTile_within t f).mono

theorem State.modRouter_stirs (f : Router → Router) : Stirs s (s.modRouter t f) := (s.modRouter_within t f).mono

theorem State.modMv_stirs (ch : Nat) (f : Mover → Mover) : Stirs s (s.modMv t ch f) := s.modTile_stirs t _

theorem State.stopCore_stirs : Stirs s (s.stopCore t) := s.modTile_stirs t _

theorem State.traceStore_stirs (x y : Nat) (r : List Byte) : Stirs s (s.traceStore t x y r) := by
  unfold State.traceStore
  dsimp only
  refine .ite (fun _ => .refl s) fun _ => .ite (fun _ => ?_) fun _ => s.modTile_stirs t _
  exact (within_stk s _).mono.andThen (State.modTile_within _ t _)

theorem State.traceWrite_stirs (typ : Nat) (data : List Byte) : Stirs s (s.traceWrite t typ data) := by
  unfold State.traceWrite
  dsimp only
  split
  · exact .refl s
  · refine .ite (fun _ => .ite (fun _ => s.modTile_stirs t _) fun _ => ?_) fun _ => ?_
    · exact (s.modTile_stirs t _).andThen (State.odAdd_within _ 1)
    · exact (Within.forEach (cs := [.tiles, .routers, .stk, .blob]) (ods := [0x3400, 0x3500, 0x7000]) _
        (fun r s => s.traceStore_stirs t _ _ r) s).andThen (State.modTile_within _ t _)

theorem State.trace_stirs (typ : Nat) (data : List Byte) : Stirs s (s.trace t typ data) :=
  .ite (fun _ => .refl s) fun _ => s.traceWrite_stirs t typ data

theorem State.faultLost_stirs : Stirs s (s.faultLost t) := (s.modTile_stirs t _).andThen (State.odAdd_within _ 1)

theorem State.latchFault_stirs (r : FaultRec) : Stirs s (s.latchFault t r) := by
  have htraced (f : Tile → Tile) (data : List Byte) : Stirs s (((s.modTile t f).odAdd 0x3500 4 1).trace t 5 data) :=
    ((s.modTile_stirs t f).andThen (State.odAdd_within _ 1)).andThen (State.trace_stirs _ t 5 data)
  unfold State.latchFault
  dsimp only
  split
  · exact (htraced _ _).andThen (State.log_within _ _)
  · exact ((htraced _ _).andThen (State.setBlobP_within _ _ _ _ _)).andThen (State.log_within _ _)

/-! ### Messages and flits (R148–R151, R154) -/

theorem State.feedFrom_stirs (left l : List (Dir × Flit)) : Stirs s (s.feedFrom t left l) := by
  induction l generalizing s left with
  | nil => exact s.modRouter_stirs t _
  | cons e r ih => exact .ite (fun _ => ih s _) fun _ => (s.modRouter_stirs t _).andThen (ih _ _)

theorem State.feedIn_stirs (l : List (Dir × Flit)) : Stirs s (s.feedIn t l) :=
  (s.modRouter_stirs t _).andThen (State.feedFrom_stirs _ t _ _)

theorem State.inject_stirs (m : Message) : Stirs s (s.inject t m).1 := by
  unfold State.inject
  split
  · split
    · exact .refl s
    · split
      · exact .refl s
      · split
        · exact s.modTile_stirs t (fun T => { T with txHeld := T.txHeld ++ [m] })
        · split
          · exact .refl s
          · exact s.feedIn_stirs t _
  · exact .refl s

theorem State.inject_eq_stirs {m : Message} {u : State} {c : Option Nat} (h : s.inject t m = (u, c)) : Stirs s u := by
  have hstirs := s.inject_stirs t m
  rwa [h] at hstirs

theorem State.sendRecord_stirs (r : List Byte) : Stirs s (s.sendRecord t r) := by
  unfold State.sendRecord
  split
  · dsimp only
    split
    · rename_i h
      exact s.inject_eq_stirs t h
    · rename_i h
      exact (s.inject_eq_stirs t h).andThen (State.faultLost_stirs _ t)
  · exact .refl s

theorem State.raiseFault_stirs (r : FaultRec) : Stirs s (s.raiseFault t r) :=
  (s.latchFault_stirs t r).andThen (State.sendRecord_stirs _ t _)

theorem State.coreFault_stirs (status fn addr cause : Nat) : Stirs s (s.coreFault t status fn addr cause) :=
  (s.raiseFault_stirs t _).andThen (State.stopCore_stirs _ t)

theorem State.countRefusal_stirs : Stirs s (s.countRefusal t) :=
  (s.modRouter_stirs t _).andThen (State.odAdd_within _ 1)

theorem State.sendVn1_stirs (f : Flit) : Stirs s (s.sendVn1 t f) := by
  unfold State.sendVn1
  split
  · exact .ite (fun _ => .refl s) fun _ => s.countRefusal_stirs t
  · exact s.feedIn_stirs t _

theorem State.refuse_stirs (f : Flit) (code : Nat) : Stirs s (s.refuse t f code) := by
  have hcounted : Stirs s ((if f.last then s else
      s.modRouter t (fun R => { R with dropping := R.dropping ++ [dropKey f] })).countRefusal t) :=
    (Within.ite (fun _ => .refl s) fun _ => s.modRouter_stirs t _).andThen (State.countRefusal_stirs _ t)
  exact .ite (fun _ => hcounted) fun _ => hcounted.andThen (State.sendVn1_stirs _ t _)

/-! ### Transactions that fail (R176, R197) -/

theorem State.sendTx_stirs (m : Message) (mk : Nat → Tx) : Stirs s (s.sendTx t m mk).1 := by
  unfold State.sendTx
  split
  · exact .refl s
  · split
    · rename_i h
      exact (s.inject_eq_stirs t h).andThen (State.countRefusal_stirs _ t)
    · rename_i h
      dsimp only
      exact (s.inject_eq_stirs t h).andThen (State.modTile_stirs _ t _)

theorem State.failPart_stirs (ch count status pos addr : Nat) : Stirs s (s.failPart t ch count status pos addr) :=
  s.modMv_stirs t ch _

theorem State.sendPart_stirs (ch : Nat) (w : MvPart) : Stirs s (s.sendPart t ch w) := by
  unfold State.sendPart
  have hsent := s.sendTx_stirs t w.msg (fun id =>
    { id := id, agent := .mover ch w.count, dest := destNat w.msg.dest, sentAt := s.clkTime, skip := w.pos, want := w.size })
  split
  · rename_i h
    rw [h] at hsent
    exact (hsent.andThen (State.failPart_stirs _ t ch _ _ _ _)).andThen (State.modMv_stirs _ t ch _)
  · rename_i h
    rw [h] at hsent
    exact hsent

theorem State.pumpMv_stirs (ch n : Nat) : Stirs s (s.pumpMv t ch n) := by
  induction n generalizing s with
  | zero => exact .refl s
  | succ n ih =>
    unfold State.pumpMv
    split
    · exact .refl s
    · exact .ite (fun _ => .refl s) fun _ =>
        ((s.modMv_stirs t ch _).andThen (State.sendPart_stirs _ t ch _)).andThen (ih _)

theorem State.settleDesc_stirs (ch count : Nat) : Stirs s (s.settleDesc t ch count) := by
  unfold State.settleDesc
  split
  · exact .refl s
  · split
    · split
      · exact s.modMv_stirs t ch _
      · exact .refl s
    · exact .refl s

theorem State.mvEnded_stirs (x : Tx) (ch count : Nat) : Stirs s (s.mvEnded t x ch count) :=
  ((s.modTile_stirs t _).andThen (State.pumpMv_stirs _ t ch _)).andThen (State.settleDesc_stirs _ t ch count)

theorem State.mvFailed_stirs (x : Tx) (ch count status : Nat) : Stirs s (s.mvFailed t x ch count status) :=
  ((s.failPart_stirs t ch _ _ _ _).andThen (State.modMv_stirs _ t ch _)).andThen (State.mvEnded_stirs _ t x ch count)

theorem State.txFailed_stirs (x : Tx) (status : Nat) (record : Bool) : Stirs s (s.txFailed t x status record) := by
  unfold State.txFailed
  split
  · exact s.mvFailed_stirs t _ _ _ _
  · have hdropped : Stirs s (s.dropTx t x.id) := s.modTile_stirs t _
    exact .ite (fun _ => hdropped.andThen (State.coreFault_stirs _ t _ _ _ _)) fun _ =>
      .ite (fun _ => hdropped.andThen (State.raiseFault_stirs _ t _)) fun _ => hdropped

theorem State.readRefused_stirs (status dest : Nat) (e : Nat × Nat × Bool) : Stirs s (s.readRefused t status dest e) :=
  .ite (fun _ => s.countRefusal_stirs t) fun _ =>
    (((s.countRefusal_stirs t).andThen (State.modRouter_within _ t _)).andThen (State.modTile_within _ t _)).andThen
      (State.raiseFault_stirs _ t _)

theorem State.refusedPlain_stirs (status dest : Nat) : Stirs s (s.refusedPlain t status dest) := by
  unfold State.refusedPlain
  dsimp only
  split
  · exact s.faultLost_stirs t
  · split
    · exact s.readRefused_stirs t _ _ _
    · split <;> exact s.raiseFault_stirs t _

/-! ### Injection resumes (R164) -/

theorem State.injectLate_stirs (m : Message) : Stirs s (s.injectLate t m) := by
  unfold State.injectLate
  split
  · rename_i h
    exact s.inject_eq_stirs t h
  · rename_i h
    have hsent := s.inject_eq_stirs t h
    refine .ite (fun _ => hsent.andThen (State.refusedPlain_stirs _ t _ _)) fun _ => ?_
    split
    · exact hsent
    · exact hsent.andThen (State.txFailed_stirs _ t _ _ _)

theorem State.reroute_stirs (f : Flit) : Stirs s (s.reroute t f) := by
  unfold State.reroute
  split
  · exact s.sendVn1_stirs t f
  · split
    · exact s.refuse_stirs t f _
    · exact s.feedIn_stirs t _

theorem State.resumeFeed_stirs : Stirs s (s.resumeFeed t) := by
  have hentered (e : Dir × Flit) (s : State) : Stirs s (if e.1 = .l then s.reroute t e.2 else s.feedIn t [e]) :=
    .ite (fun _ => s.reroute_stirs t e.2) fun _ => s.feedIn_stirs t _
  exact .ite (fun _ => .refl s) fun _ => (s.modRouter_stirs t _).andThen (.forEach _ hentered _)

theorem State.resumeInjection_stirs : Stirs s s.resumeInjection := by
  have hfed : Stirs s (s.forEach s.routers (fun e s => s.resumeFeed (tileAt e.1))) :=
    .forEach _ (fun (e : Nat × Router) s => s.resumeFeed_stirs (tileAt e.1)) s
  have hlate (e : Nat × Tile) (s : State) : Stirs s (if e.2.txHeld.isEmpty then s
      else (s.modTile (tileAt e.1) (fun T => { T with txHeld := [] })).forEach e.2.txHeld
        (fun m s => s.injectLate (tileAt e.1) m)) :=
    .ite (fun _ => .refl s) fun _ => (s.modTile_stirs _ _).andThen
      (.forEach _ (fun (m : Message) s => s.injectLate_stirs (tileAt e.1) m) _)
  exact hfed.andThen (.forEach _ hlate _)

/-! ### The installation of a detour set (R163, R164) -/

theorem within_work (acts : List Activity) (due : Nat) :
    Within [.acts] [] s { s with hub := { s.hub with acts := acts, fieldsDue := due } } := by
  constructor <;> simp [State.fn, State.odP]
  exact ⟨acts, s.hub.queue, due, .refl _⟩

theorem State.endFieldCmd_within (code : Nat) : Within [.acts] [0x7100, 0x7101] s (s.endFieldCmd code) :=
  (((within_work s _ 0).mono.andThen (State.odSet_within _ 0)).andThen (State.odSet_within _ code)).andThen
    (State.showActs_within _)

theorem State.fieldCmdField_within (f code : Nat) : Within [.acts] [0x7100, 0x7101] s (s.fieldCmdField f code) := by
  have hleft (due : Nat) : Within [.acts] [0x7100, 0x7101] s (if code = 0 then { s with hub := { s.hub with fieldsDue := due } }
      else ({ s with hub := { s.hub with fieldsDue := due } }).odSet 0x7100 3 code) :=
    .ite (fun _ => (within_work s s.hub.acts due).mono) fun _ =>
      (within_work s s.hub.acts due).mono.andThen (State.odSet_within _ code)
  exact .ite (fun _ => .refl s) fun _ => .ite (fun _ => (hleft _).andThen (State.endFieldCmd_within _ _)) fun _ => hleft _

section fields

variable {f : Nat} (hf : f < 64)
include hf

theorem State.finishOff_within : Within [.fields, .acts, .tiles, .routers, .mesh, .power]
    [0x2101, 0x7103, 0x2107, 0x3500, 0x2300, 0x7101, 0x7100] s (s.finishOff f) := by
  unfold State.finishOff
  split
  · exact .refl s
  · dsimp only
    split
    · exact (s.goDark_within hf _ _).mono.andThen (State.requestOn_within _ f)
    · exact (s.goDark_within hf _ _).mono.andThen (State.fieldCmdField_within _ f 0)

end fields

theorem State.finishDetour_within (fields : Nat) (dark : Bool) :
    Within [.fields, .acts, .tiles, .routers, .mesh, .power, .stk, .blob]
      [0x2101, 0x7103, 0x2107, 0x3500, 0x2300, 0x7101, 0x7100, 0x3400, 0x3401, 0x7000] s (s.finishDetour fields dark) := by
  have halternates (l : List Alternate) (s : State) :
      Within [.routers] [] s (s.forEach l (fun a s => s.setRoute a.router a.route a.entry)) :=
    .forEach _ (fun (a : Alternate) s => s.modRouter_within a.router _) s
  have hoff (s : State) : Within [.fields, .acts, .tiles, .routers, .mesh, .power]
      [0x2101, 0x7103, 0x2107, 0x3500, 0x2300, 0x7101, 0x7100] s (s.forEach (fieldsOf fields) (fun f s => s.finishOff f)) :=
    .forEach_mem _ (fun f hf s => s.finishOff_within (fieldsOf_lt hf)) s
  unfold State.finishDetour
  dsimp only
  refine .andThen ?_ (State.resumeInjection_stirs _)
  refine .ite (fun _ => .andThen ?_ (hoff _)) fun _ => ?_ <;>
  exact (((((s.odSet_within _).mono.andThen (halternates _ _)).andThen (within_mesh _ _)).andThen
    (State.odAdd_within _ 1)).andThen (State.odSet_within _ _))

theorem State.runDetours_within (fuel : Nat) :
    Within [.fields, .acts, .tiles, .routers, .mesh, .power, .stk, .blob]
      [0x2101, 0x7103, 0x2107, 0x3500, 0x2300, 0x7101, 0x7100, 0x3400, 0x3401, 0x7000] s (s.runDetours fuel) := by
  induction fuel generalizing s with
  | zero => exact .refl s
  | succ n ih =>
    unfold State.runDetours
    split
    · exact .ite (fun _ => (s.finishDetour_within _ _).andThen (ih _)) fun _ => .refl s
    · split
      · exact .refl s
      · refine .ite (fun _ => .refl s) fun _ => .andThen ?_ (ih _)
        exact (Within.forEach (cs := [.fields, .acts]) (ods := [0x2300, 0x7101]) allFields
          (fun f s => s.abandonRotations_within f) s).mono.andThen (within_mesh _ _)

theorem State.installDetour_within (fields : Nat) (dark : Bool) :
    Within [.fields, .acts, .tiles, .routers, .mesh, .power, .stk, .blob]
      [0x2101, 0x7103, 0x2107, 0x3500, 0x2300, 0x7101, 0x7100, 0x3400, 0x3401, 0x7000] s (s.installDetour fields dark) :=
  (within_mesh s _).mono.andThen (State.runDetours_within _ _)

end Sys2Proof.Machine
end

section
/-!
SUPPORT. The course of the hub and wafer time under resets and the operations of a start (R293, R351, R396–R401), and what
a start comes to (Table 17.1).
-/

-- One proof after another: side conditions of frames are default arguments, and proofs elaborated at once would each wait
-- for the kernel in a thread of their own, past the memory limit.
set_option Elab.async false

namespace Sys2Proof.Machine

/-- The hub keeps its course: its log, its activities, what it keeps for callers, the lock, and the resets that wait for it
may have changed, and nothing else. -/
def HubKept (h k : Hub) : Prop :=
  ∃ versions kept holder peer acts queue due resets ram held lost,
    k = { h with versions := versions, kept := kept, lockHolder := holder, lockPeer := peer, acts := acts, queue := queue,
                 fieldsDue := due, resetsDue := resets, ramLog := ram, held := held, heldLost := lost }

theorem HubKept.trans {h k l : Hub} (hhk : HubKept h k) (hkl : HubKept k l) : HubKept h l := by
  obtain ⟨_, _, _, _, _, _, _, _, _, _, _, rfl⟩ := hhk
  obtain ⟨a, b, c, d, e, f, g, i, j, m, n, rfl⟩ := hkl
  exact ⟨a, b, c, d, e, f, g, i, j, m, n, rfl⟩

theorem HubKept.of_acted {h k : Hub} (hacted : HubActed h k) : HubKept h k := by
  obtain ⟨e, f, g, j, m, n, rfl⟩ := hacted
  exact ⟨h.versions, h.kept, h.lockHolder, h.lockPeer, e, f, g, h.resetsDue, j, m, n, rfl⟩

/-- The hub keeps its course and wafer time stands. -/
structure Steady (s u : State) : Prop where
  hub : HubKept s.hub u.hub
  clk : u.clkTime = s.clkTime

namespace Steady

variable {s t u : State}

theorem of_same (hhub : u.hub = s.hub) (hclk : u.clkTime = s.clkTime) : Steady s u :=
  ⟨hhub ▸ .of_acted (.refl _), hclk⟩

theorem refl (s : State) : Steady s s := of_same rfl rfl

theorem trans (h : Steady s t) (k : Steady t u) : Steady s u := ⟨h.hub.trans k.hub, k.clk.trans h.clk⟩

theorem within {cs : List Comp} {ods : List Nat} (h : Within cs ods s u) (hhub : .hub ∉ cs := by decide)
    (hclk : .clk ∉ cs := by decide) : Steady s u := ⟨.of_acted (h.acts hhub), h.clk hclk⟩

/-- A change under which hub and wafer time are steady, made for each element of a list. -/
theorem forEach_mem {α : Type} {f : α → State → State} (l : List α) (hf : ∀ a ∈ l, ∀ t, Steady t (f a t)) (s : State) :
    Steady s (s.forEach l f) := by
  induction l generalizing s with
  | nil => exact refl s
  | cons a r ih => exact (hf a List.mem_cons_self s).trans (ih (fun b hb => hf b (List.mem_cons_of_mem a hb)) (f a s))

theorem ite {c : Prop} [Decidable c] {a b : State} (ha : c → Steady s a) (hb : ¬c → Steady s b) :
    Steady s (if c then a else b) := by
  split
  · exact ha ‹_›
  · exact hb ‹_›

theorem restarting (h : Steady s u) : u.hub.restarting = s.hub.restarting := by
  obtain ⟨_, _, _, _, _, _, _, _, _, _, _, e⟩ := h.hub
  rw [e]

theorem modRst (h : Steady s u) : u.hub.modRst = s.hub.modRst := by
  obtain ⟨_, _, _, _, _, _, _, _, _, _, _, e⟩ := h.hub
  rw [e]

theorem refclk (h : Steady s u) : u.hub.refclk = s.hub.refclk := by
  obtain ⟨_, _, _, _, _, _, _, _, _, _, _, e⟩ := h.hub
  rw [e]

end Steady

variable (s : State)

/-! ### Functions and partitions (R282, R293, R405) -/

theorem State.resetFn_steady (port : Port) (fn : Nat) (keepIde : Bool) : Steady s (s.resetFn port fn keepIde) := by
  have hfresh : Steady s (s.unnegotiated port fn keepIde) := by
    unfold State.unnegotiated
    split <;> exact ⟨⟨_, _, s.hub.lockHolder, s.hub.lockPeer, s.hub.acts, s.hub.queue, s.hub.fieldsDue, s.hub.resetsDue,
      s.hub.ramLog, s.hub.held, s.hub.heldLost, rfl⟩, rfl⟩
  rw [State.resetFn_eq]
  generalize s.unnegotiated port fn keepIde = z at hfresh ⊢
  exact .ite (fun _ => hfresh.trans ⟨⟨z.hub.versions, z.hub.kept, 0, (0, 0), z.hub.acts, z.hub.queue, z.hub.fieldsDue,
    z.hub.resetsDue, z.hub.ramLog, z.hub.held, z.hub.heldLost, rfl⟩, rfl⟩) fun _ => hfresh

theorem State.rebind_steady (p : Nat) : Steady s (s.rebind p) := by
  unfold State.rebind
  refine .ite (fun _ => .refl s) fun _ => ?_
  exact (((s.resetFn_steady _ _ true).trans (.within (State.interrupt_within _ _ 0 3))).trans
    (.within (State.modPart_within _ p _))).trans (.within (State.modFn_within _ _ _ _))

theorem State.odResetPart_steady (p : Nat) : Steady s (s.odResetPart p) := .of_same rfl rfl

section partition

variable {p : Nat} (hp : p < 32)
include hp

theorem State.wipePart_steady : Steady s (s.wipePart p) :=
  ((((((Steady.within (s.clearDebug_within p)).trans (.within (State.clearCtrl_within _ p))).trans
    (.within (State.modPart_within _ p _))).trans (State.odResetPart_steady _ p)).trans
    (.within (State.countHeld_within _ hp))).trans (State.rebind_steady _ p))

theorem State.resetPart_steady (dissolve : Bool) : Steady s (s.resetPart p dissolve) := by
  have hemptied : Steady s (s.emptied p) :=
    (Steady.within (s.yieldFields_within _)).trans ((Steady.within (State.endWork_within _ hp 0x000D)).trans
      (State.wipePart_steady _ hp))
  have hrestarted : Steady s (s.restarted p) :=
    ((hemptied.trans (.within (State.odSet_within _ _ (by omega)))).trans (.within (State.pushReread_within _ p _))).trans
      (.within (State.interrupt_within _ _ 0 3))
  have hrestated : Steady s (s.restated p dissolve) :=
    .ite (fun _ => hrestarted.trans (.within (State.startScrub_within _ hp _))) fun _ =>
      hrestarted.trans (.within (State.odSet_within _ _ (by omega)))
  exact .ite (fun _ => hrestated) fun _ => hrestated.trans (.within (State.resizePart_within _ hp))

theorem State.hostReset_steady : Steady s (s.hostReset p) := by
  unfold State.hostReset
  refine .ite (fun _ => ?_) fun _ => .ite (fun _ => s.resetPart_steady hp false) fun _ => .ite (fun _ => ?_) fun _ => .refl s
  · exact ⟨⟨s.hub.versions, s.hub.kept, s.hub.lockHolder, s.hub.lockPeer, s.hub.acts, s.hub.queue, s.hub.fieldsDue, _,
      s.hub.ramLog, s.hub.held, s.hub.heldLost, rfl⟩, rfl⟩
  · refine .trans (.ite (fun _ => ?_) fun _ => .refl s) (State.wipePart_steady _ hp)
    exact (Steady.within (s.modPart_within p _)).trans (.within (State.endPartCmd_within _ p _))

theorem State.formPart_steady : Steady s (s.formPart p).1 := by
  unfold State.formPart
  split
  · exact .refl s
  · rename_i s1 halloc
    dsimp only
    split
    · exact .refl s
    · have halloced : Steady s s1 := (Steady.within (s.odSet_within _ (by omega))).trans
        (.within (State.allocRegions_within _ hp halloc))
      refine .trans ?_ (.within (State.interrupt_within _ _ 0 3))
      refine .trans ?_ (.within (State.pushReread_within _ p _))
      refine .trans ?_ (.within (State.odSet_within _ 1 (by omega)))
      refine .trans ?_ (.within (State.odSet_within _ _ (by omega)))
      refine .trans ?_ (.within (State.odSetP_within _ _ (by decide) (by omega)))
      exact ((halloced.trans (.within (State.modPart_within _ p _))).trans (State.odResetPart_steady _ p)).trans
        (State.rebind_steady _ p)

theorem State.formIfSaved_steady : Steady s (s.formIfSaved p) := by
  unfold State.formIfSaved
  refine .ite (fun _ => .refl s) fun _ => ?_
  dsimp only
  refine .ite (fun _ => .within (s.log_within _)) fun _ => ?_
  split
  · exact .refl s
  · exact s.formPart_steady hp

end partition

end Sys2Proof.Machine
end

section
/-!
SUPPORT. The fields, partitions and service of a start (R317, R332, R352, R396–R398), and the obligation O50.
-/

-- One proof after another: side conditions of frames are default arguments, and proofs elaborated at once would each wait
-- for the kernel in a thread of their own, past the memory limit.
set_option Elab.async false

namespace Sys2Proof.Machine

variable (s : State)

/-! ### Fields in a start (R317, R398, R412) -/

section fields

variable {f : Nat} (hf : f < 64)
include hf

theorem State.phaseTest_within (failed : List Nat) : Within [] [0x2103, 0x2100] s (s.phaseTest f failed) := by
  have hlogged (i : Nat) (t : State) : Within [] [0x2103, 0x2100] t ((t.odAdd 0x2100 7 1).log
      { rule := 317, sev := 1, source := 1, field := f, data := [i] }) :=
    (t.odAdd_within 1).mono.andThen (State.log_within _ _)
  exact (s.odSet_within _ (by omega)).mono.andThen (.forEach _ hlogged _)

theorem State.setGrant_within (b : Nat) : Within [.tiles] [0x2107] s (s.setGrant f b) := by
  obtain ⟨m, h, -⟩ := s.setGrant_eq f b
  rw [h]
  exact (within_tiles s m).mono.andThen (State.odSet_within _ _ (by omega))

omit hf in
theorem State.startTrims_within (trims : List (TileId × Nat × TrimSet)) :
    Within [.tiles, .fields] [0x3000] s (s.startTrims f trims) := by
  have hbanks {α : Type} (l : List α) (g : α → TileId) (h : State → α → ChargeBank → ChargeBank) (s : State) :
      Within [.tiles, .fields] [0x3000] s (s.forEach l (fun a s => s.modCb (g a) (h s a))) :=
    .forEach l (fun a s => (s.modTile_within (g a) (fun T => { T with cb := h s a T.cb })).mono) s
  exact (((hbanks _ (fun t => t) _ s).andThen (hbanks _ (fun e : TileId × Nat × TrimSet => e.1) _ _)).andThen (State.modField_within _ f _)).andThen
    (State.odAdd_within _ _)

omit hf in
theorem State.restoreLinks_within (passed : List LinkId) : Within [.mesh] [0x3400] s (s.restoreLinks f passed) := by
  refine .forEach passed (fun k s => ?_) s
  dsimp only
  split
  · exact .refl s
  · exact .ite (fun _ => (within_mesh s _).mono.andThen (State.odSet_within _ _)) fun _ => .refl s

theorem State.startField_within (env : StartEnv) : Within [.tiles, .stk, .fields, .mesh]
    [0x2103, 0x2100, 0x2101, 0x7103, 0x4100, 0x4104, 0x3000, 0x3400, 0x2107] s (s.startField env f) := by
  have htested := s.phaseTest_within hf ((env.failedPhases.filter (fun e => e.1 == f)).map (fun e => e.2))
  refine .ite (fun _ => .refl s) fun _ => .ite (fun _ => ?_) fun _ => ?_
  · exact (htested.mono.andThen (State.odSet_within _ 1 (by omega))).andThen (State.log_within _ _)
  · exact ((((htested.mono.andThen (State.scrubField_within _ _ hf)).andThen (State.startTrims_within _ _)).andThen
      (State.restoreLinks_within _ _)).andThen (State.odSet_within _ 0 (by omega))).andThen (State.setGrant_within _ hf 0)

end fields

theorem allFields_lt {f : Nat} (h : f ∈ allFields) : f < 64 := List.mem_range.mp h

theorem State.startFields_within (env : StartEnv) : Within [.tiles, .stk, .fields, .mesh]
    [0x2103, 0x2100, 0x2101, 0x7103, 0x4100, 0x4104, 0x3000, 0x3400, 0x2107, 0x3401] s (s.startFields env) :=
  ((Within.forEach_mem (cs := [.tiles, .stk, .fields, .mesh])
    (ods := [0x2103, 0x2100, 0x2101, 0x7103, 0x4100, 0x4104, 0x3000, 0x3400, 0x2107]) allFields
    (fun _ hf s => s.startField_within (allFields_lt hf) env) s).mono.andThen (within_mesh _ _)).andThen
    (State.odSet_within _ _)

theorem State.trainStacks_within (env : StartEnv) : Within [.stk] [0x3311, 0x3310] s (s.trainStacks env) := by
  have hstacks (l : List Nat) (t : State) : Within [] [0x3311] t
      (t.forEach (List.range 16) (fun k s => s.odSet 0x3311 (k + 1) (if l.contains k then 0 else 1))) :=
    .forEach_mem _ (fun k hk s => s.odSet_within _ (by have := List.mem_range.mp hk; omega)) t
  exact ((((within_stk s _).mono.andThen (hstacks _ _)).andThen (State.odSet_within _ _)).andThen
    (State.odSet_within _ _)).andThen (State.odSet_within _ _)

/-! ### The start from its row at 49 ms (Table 17.1) -/

section resume

variable (env : StartEnv)

/-- The start up to the service of the device. -/
def State.startedParts (s : State) (env : StartEnv) : State :=
  let s1 := (s.startClk (s.odG 0x7102 2 == 0)).odSet 0x2200 1 1
  let s2 := s1.odSet 0x2200 2 1
  let s3 := if s.odG 0x7102 2 == 0 then s2.trainStacks env else s2
  let s4 := ({ s3 with stk := { s3.stk with selfRefresh := false } }).forEach allFields (fun f s => s.odSet 0x2201 (f + 1) (stileStart f))
  (s4.startFields env).forEach (List.range 32) (fun p s => s.formIfSaved p)

theorem State.resumeStart_eq : s.resumeStart env = (s.startedParts env).serveStart env := rfl

/-- Fields and partitions start with the hub on its course; wafer time begins anew where the start is a cold one. -/
theorem State.startedParts_steady : Steady (s.startClk (s.odG 0x7102 2 == 0)) (s.startedParts env) := by
  generalize hz : s.startClk (s.odG 0x7102 2 == 0) = z
  have hclock : Within [.stk] [0x2200, 0x3311, 0x3310] z (if s.odG 0x7102 2 == 0 then
      ((z.odSet 0x2200 1 1).odSet 0x2200 2 1).trainStacks env else (z.odSet 0x2200 1 1).odSet 0x2200 2 1) :=
    .ite (fun _ => ((z.odSet_within 1).mono.andThen (State.odSet_within _ 1)).andThen (State.trainStacks_within _ env))
      fun _ => (z.odSet_within 1).mono.andThen (State.odSet_within _ 1)
  have hstiles (t : State) : Within [] [0x2201] t (t.forEach allFields (fun f s => s.odSet 0x2201 (f + 1) (stileStart f))) :=
    .forEach_mem _ (fun f hf s => s.odSet_within _ (by have := allFields_lt hf; omega)) t
  unfold State.startedParts
  rw [hz]
  exact (((Steady.within hclock).trans (.within (within_asleep _ _))).trans (.within (hstiles _))).trans
    ((Steady.within (State.startFields_within _ env)).trans
      (.forEach_mem _ (fun p hp s => s.formIfSaved_steady (List.mem_range.mp hp)) _))

theorem State.startedParts_clk :
    (s.startedParts env).clkTime = if s.odG 0x7102 2 = 0 then 0 else s.clkTime := by
  rw [(s.startedParts_steady env).clk, State.startClk]
  by_cases h : s.odG 0x7102 2 = 0
  · simp [h]
  · simp [h]

/-- The device serves, and shows it. -/
theorem State.serveStart_serves : (s.serveStart env).odG 0x7102 1 = 1 ∧ (s.serveStart env).hub.served = true ∧
    (s.serveStart env).hub.waitRef = false ∧ (s.serveStart env).hub.restarting = s.hub.restarting ∧
    (s.serveStart env).clkTime = s.clkTime ∧
    (s.serveStart env).out.getLast? = some (Emission.pin "MOD_READY" true) := by
  unfold State.serveStart
  dsimp only
  split
  · refine ⟨((State.log_within _ _).odG (idx := 0x7102)).trans (State.odG_odSet_same _ _ _ _), State.log_served _ _,
      State.log_waitRef _ _, State.log_restarting _ _, State.log_clkTime _ _, List.getLast?_concat⟩
  · exact ⟨(State.emit_odG _ _ _ _).trans (State.odG_odSet_same _ _ _ _), rfl, rfl, rfl, rfl, List.getLast?_concat⟩

theorem State.startClk_hub (cold : Bool) : (s.startClk cold).hub = s.hub := by
  unfold State.startClk
  split <;> rfl

theorem State.resumeStart_restarting : (s.resumeStart env).hub.restarting = s.hub.restarting := by
  rw [s.resumeStart_eq]
  obtain ⟨-, -, -, hrestarting, -⟩ := (s.startedParts env).serveStart_serves env
  exact hrestarting.trans ((s.startedParts_steady env).restarting.trans (congrArg Hub.restarting (s.startClk_hub _)))

theorem State.fromLock_restarting : (s.fromLock env).hub.restarting = s.hub.restarting := by
  unfold State.fromLock
  split
  · exact s.resumeStart_restarting env
  · rfl

end resume

/-! ### A cold power-on whose saved thermal cycles are keyed outside the table -/

/-- A module without power whose record of saved thermal cycles has a key of no field: the entry it names is
OD 0x7102.02, by which a start knows itself for a cold one. -/
def miskeyed : State :=
  { State.reset with
    clkTime := 1
    hub := { slot := some { version := 0, svn := 0, digest := [], versions := [] },
             savedCycles := [((0x7102 - 0x2304) * 256 + 1, 1)] } }

/-- Its slot holds an image that may run. -/
theorem miskeyed_bootable : miskeyed.losePower.bootable quietStart.imageOk =
    some { version := 0, svn := 0, digest := [], versions := [] } := by decide +kernel

/-- The record restored at power-on makes the start a warm one. -/
theorem miskeyed_cause : miskeyed.losePower.odG 0x7102 2 = 1 := by decide +kernel

theorem State.trailhead_runs {env : StartEnv} {im : Image} (hkey : env.romKeyOk = true)
    (hboot : s.bootable env.imageOk = some im) (next : State → State) :
    s.trailhead env next = next (s.runImage im).hubSettings := by
  unfold State.trailhead
  rw [if_neg (by simp [hkey]), hboot]

/-- The hub at a cold power-on, before its image is checked. -/
def State.powerOn (s : State) (env : StartEnv) : State :=
  { s with hub := { s.hub with powered := true, vstby := true, refclk := env.refclk, modRst := env.modRstLow } }

/-- A cold power-on that runs an image leads to a start from the row at 49 ms, with the values of that image. -/
theorem State.coldStart_runs {env : StartEnv} {im : Image} (hkey : env.romKeyOk = true)
    (hboot : s.losePower.bootable env.imageOk = some im) (hmod : env.modRstLow = false) (href : env.refclk = true) :
    ∃ z, Within [.hub, .fabric, .blob] [0x1300, 0x1010, 0x1011, 0x6120] s.losePower z ∧
      s.coldStart env = z.resumeStart env := by
  unfold State.coldStart
  generalize s.losePower = y at hboot ⊢
  refine ⟨((y.powerOn env).runImage im).hubSettings,
    ((within_hub _ _).mono.andThen (State.runImage_within _ _)).andThen State.hubSettings_within, ?_⟩
  refine (State.trailhead_runs (y.powerOn env) hkey hboot _).trans ?_
  rw [if_neg (by simp [hmod])]
  exact if_pos href

/-- Wafer time runs on from before the power-on. -/
theorem miskeyed_clkTime : (miskeyed.coldStart quietStart).clkTime = 1 := by
  obtain ⟨z, hstart, hrun⟩ := miskeyed.coldStart_runs rfl miskeyed_bootable rfl rfl
  obtain ⟨-, -, -, -, hserve, -⟩ := (z.startedParts quietStart).serveStart_serves quietStart
  have hbefore : miskeyed.losePower.clkTime = 1 := by decide +kernel
  rw [hrun, z.resumeStart_eq, hserve, z.startedParts_clk, hstart.odG, miskeyed_cause, if_neg (by decide),
    hstart.clk (by decide), hbefore]

end Sys2Proof.Machine

open Sys2Proof Sys2Proof.Machine

/-- Refutes O50: the statement binds the table of saved thermal cycles to no field, and a key of no field restores another
entry at power-on. In `miskeyed` that entry is OD 0x7102.02, so a cold power-on with a good image and the reference clock
is taken for a warm start and wafer time stays at 1. (The reply before a commanded reset, log 116, and a reset absorbed
in a start, log 111, are untouched by this.) -/
theorem not_clockAndResets : ¬ Obligations.ClockAndResets := by
  unfold Obligations.ClockAndResets
  intro h
  obtain ⟨-, hcold, -⟩ := h miskeyed quietStart (by decide)
  obtain ⟨hexec, -, -, -, hserves⟩ := hcold rfl rfl
  obtain ⟨u, hu, -, -, hclk, -⟩ := hserves rfl (by rw [miskeyed_bootable]; exact nofun) rfl rfl
  rw [hexec] at hu
  injection hu with hu
  rw [← hu, miskeyed_clkTime] at hclk
  exact absurd hclk (by decide)

end

section
/-!
SUPPORT. The forms of tile rotation, hub restart and firmware update under conditions on state and operands alone, and the
obligation O54.
-/

-- One proof after another: side conditions of frames are default arguments, and proofs elaborated at once would each wait
-- for the kernel in a thread of their own, past the memory limit.
set_option Elab.async false

namespace Sys2Proof.Machine

/-! ### Tile rotation (R342, R344) -/

section rotation

variable {s : State} {f row pos p : Nat} {hot spare : Int} {g : Program}

/-- The row of a field that is on, whose partition serves with a program on the tile and holds the alternates of its
routes, may rotate when nothing else has the field (R342). -/
theorem State.mayRotate_of (hon : s.fieldOn f = true) (haway : s.hub.away = false)
    (hhot : spare + 10 * s.odG 0x2300 0xC ≤ hot) (hretired : s.retired f row = none)
    (hidle : mget RotPhase.idle (s.field f).rot row = .idle) (hacts : ∀ a ∈ s.hub.acts, bit a.fields f = false)
    (hqueued : bit s.queuedFields f = false) (hactivating : s.activating = false) (hpart : s.partOfField f = some p)
    (hprogram : (s.part p).program = some g) (htile : ∃ n, (s.rowTile f row pos, 0, n) ∈ g.tiles)
    (hdebug : s.odP 0x7000 7 p = 0) (halternates : ∀ r ∈ s.tileRoutes p (s.rowTile f row pos),
      s.hasAlternate p r ((rowPlace f row pos).1 + 256 * (rowPlace f row pos).2) = true) :
    s.mayRotate f row pos hot spare false = true := by
  obtain ⟨n, hn⟩ := htile
  have hfree : s.rotationBarred f false = false := by
    simpa [State.rotationBarred] using hacts
  have hruns : g.tiles.any (fun e => e.1 == s.rowTile f row pos && e.2.1 == 0) = true :=
    List.any_eq_true.mpr ⟨_, hn, by simp⟩
  have hroutes := List.all_eq_true.mpr halternates
  unfold State.mayRotate
  simp [hon, haway, hhot, hretired, hidle, hfree, hqueued, hactivating, hpart, hprogram, hruns, hdebug, hroutes]

/-- What `swapReady` asks, part by part (R344). -/
theorem swapReady_of {T : Tile} (hcore : T.cc.state = .waiting) (hboundary : T.cb.boundary = true) (hready : T.cb.ready = [])
    (htensor : T.tv.queue = []) (hdrains : T.tv.drains = []) (hvector : T.vu.queue = [])
    (hmovers : ∀ e ∈ T.mv, e.2.inHand = []) (htx : T.tx = []) (hrx : T.rx = []) : swapReady T = true := by
  simpa [swapReady, hcore, hboundary, hready, htensor, hdrains, hvector, htx, hrx] using hmovers

end rotation

/-! ### Restarts of the hub (R370, R371) -/

/-- What had been driven outward stands when a restart has begun. -/
theorem State.beginRestart_out (s : State) (cause : RestartCause) (k ok : Bool) :
    s.out <+: (s.beginRestart cause k ok).out :=
  (State.beginRestart_keeps cause k ok (Keeps.refl s)).out

theorem State.logAppend_within (s : State) (e : LogEntry) : Within [] [] s (s.logAppend e) where
  pending := rfl
  out _ := rfl
  free _ := rfl
  clk _ := rfl
  blob _ := rfl
  hub _ _ := ⟨_, s.hub.held, s.hub.heldLost, rfl⟩
  acts _ := .of_logged ⟨_, s.hub.held, s.hub.heldLost, rfl⟩
  mesh _ := rfl
  stk _ := rfl
  asleep _ := rfl
  power _ := rfl
  fields _ := rfl
  tiles _ := rfl
  routers _ := rfl
  parts _ := rfl
  fns _ _ := rfl
  rings _ _ _ := .refl _
  fabric _ := rfl
  od _ hlog hsub hp := by
    unfold State.logAppend
    dsimp only
    rw [State.odP_odSet_ne _ (.inl hlog) hsub hp (by decide)]
    simp only [State.odP]

/-- The end of a restart: what was held is logged, and the hub takes its settings. -/
theorem State.restartSettled_restarting (s : State) : s.restartSettled.hub.restarting = false := by
  have hflushed : s.flushHeld.hub.restarting = false := by
    have hheld (e : Nat × List LogEntry) (t : State) : Within [] [0x1130] t (t.forEach e.2 (fun x s => s.logAppend x)) :=
      .forEach _ (fun (x : LogEntry) s => (s.logAppend_within x).mono) t
    have hlost (e : Nat × Nat) (t : State) : Within [] [0x1130] t ((t.odAdd 0x1130 6 e.2).log
        { rule := 371, sev := 1, data := [e.1, e.2] }) := (t.odAdd_within _).andThen (State.log_within _ _)
    have hlogged (z : State) : Within [] [0x1130] z ((z.forEach s.hub.held (fun e s => s.forEach e.2 (fun x s => s.logAppend x))).forEach
        s.hub.heldLost (fun e s => (s.odAdd 0x1130 6 e.2).log { rule := 371, sev := 1, data := [e.1, e.2] })) :=
      (Within.forEach _ hheld z).andThen (.forEach _ hlost _)
    exact (Steady.within (hlogged _)).restarting
  have hset : s.flushHeld.hubSettings.hub.restarting = false := by
    rw [State.hubSettings_devId.2]
    exact hflushed
  unfold State.restartSettled State.endActivation
  split
  · exact hset
  · exact hset

theorem State.afterRestart_restarting (s : State) : s.afterRestart.hub.restarting = s.hub.restarting := by
  unfold State.afterRestart
  split
  · refine (apply_ite (fun u : State => u.hub.restarting) _ _ _).trans ?_
    rw [State.fromLock_restarting]
    exact ite_self _
  · exact (apply_ite (fun u : State => u.hub.restarting) _ _ _).trans (ite_self _)

/-- The end of a restart ends it, whatever was due in it (R371). -/
theorem answers_managementRestartEnd_ended {s : State} (h : s.hub.restarting = true) :
    Answers .managementRestartEnd s (fun u => u.hub.restarting = false) := by
  refine answers_next (exec_managementRestartEnd h) ?_
  have hdue : s.restartSettled.dueResets.hub.restarting = false :=
    (Steady.forEach_mem _ (fun p hp t => t.hostReset_steady (List.mem_range.mp (List.mem_filter.mp hp).1)) _).restarting.trans
      s.restartSettled_restarting
  generalize s.restartSettled.dueResets = z at hdue
  have hbusy : Steady z z.answerBusy := by
    refine .forEach_mem _ (fun e _ t => .ite (fun _ => ?_) fun _ => .refl t) z
    exact .within ((t.modFn_within e.1 e.2 _).mono.andThen (State.interrupt_within _ _ _ _) (cs := [.fns, .out, .rings]) (ods := []))
  rw [State.afterRestart_restarting, (Steady.within (State.runDetours_within _ _)).restarting, hbusy.restarting, hdue]

/-! ### The bytes of an update command (Table 16.3) -/

/-- An update command: operation code, reserved bytes, LENGTH. -/
def updateBytes (op len : Nat) : List Byte := leBytes 1 op ++ leBytes 3 0 ++ leBytes 4 len

theorem updateBytes_length (op len : Nat) : (updateBytes op len).length = 8 := by simp [updateBytes]

theorem updateBytes_zero (op len : Nat) : zeroRange (updateBytes op len) 1 3 = true := rfl

theorem updateBytes_op {op : Nat} (hop : op < 256) (len : Nat) : fieldN (updateBytes op len) 0 1 = op :=
  (leNat_leBytes 1 op).trans (Nat.mod_eq_of_lt (by omega))

theorem updateBytes_len (op : Nat) {len : Nat} (hlen : len < 256 ^ 4) : fieldN (updateBytes op len) 4 4 = len :=
  (leNat_leBytes 4 len).trans (Nat.mod_eq_of_lt hlen)

/-- A second counted in one of four states is one second of the four. -/
theorem availability_total {a : Nat} {old new : Nat → Nat} (hlo : 1 ≤ a) (hhi : a ≤ 4)
    (hnew : ∀ k, 1 ≤ k → k ≤ 4 → new k = old k + (if k = a then 1 else 0)) :
    new 1 + new 2 + new 3 + new 4 = old 1 + old 2 + old 3 + old 4 + 1 := by
  rw [hnew 1 (by decide) (by decide), hnew 2 (by decide) (by decide), hnew 3 (by decide) (by decide),
    hnew 4 (by decide) (by decide)]
  interval_cases a <;> simp +arith

end Sys2Proof.Machine

open Sys2Proof Sys2Proof.Machine

/-- Settles O54: each form's own lemma, under what its statement asks of state and operands. -/
theorem rotationHubAndUpdateForms : Obligations.RotationHubAndUpdateForms := by
  unfold Obligations.RotationHubAndUpdateForms
  intro s
  refine ⟨?interval, fun f row pos hf hrow hpos hphase => ?copied, fun f row pos hf hrow hpos hphase => ?swapped,
    fun k ok => ⟨fun cause h => ?restart, fun h => ⟨?watchdog, ?sram⟩, fun c hc hst => ?command⟩, fun h => ?ends,
    fun c n off bytes sig => ⟨?begins, fun h hfit hst => ?chunk, ?commit, ?abort⟩, fun hst => ?written,
    fun e _ hfind haway hnew => ?logged, fun h ex => ?counted⟩
  case interval =>
    intro f row pos p hot spare g hf hrow hpos t place hon haway hhot hretired hidle hacts hqueued hactivating hpart hprogram
      htile hdebug halternates
    obtain ⟨u, hexec, hrot, -, htiles, hmesh⟩ := answers_rotationInterval hf hrow hpos
      (State.mayRotate_of hon haway hhot hretired hidle hacts hqueued hactivating hpart hprogram htile hdebug halternates)
    exact ⟨u, hexec, hrot, htiles, hmesh⟩
  case copied =>
    obtain ⟨u, hexec, hrot, -, -, -, hchans, -⟩ := answers_rotationCopyDone hf hrow hphase
    obtain ⟨hidle, hcount, -, -⟩ := State.abandonRotation_holds (s := s) (f := f) (row := row) (by rw [hphase]; exact nofun)
    exact ⟨⟨u, hexec, hrot, hchans⟩, answers_next (exec_rotationCopy_abandoned hf hrow hphase).2 ⟨hidle, hcount⟩⟩
  case swapped =>
    obtain ⟨hidle, hcount, -, -⟩ := State.abandonRotation_holds (s := s) (f := f) (row := row) (by rw [hphase]; exact nofun)
    refine ⟨fun hok hcore hboundary hready htensor hdrains hvector hmovers htx hrx hfeed => ?_,
      answers_next (exec_rotationSwapTimeout hf hrow hphase) ⟨hidle, hcount⟩⟩
    obtain ⟨u, hexec, hplace, -, -, -, -, hrot, hswaps, -⟩ := answers_rotationSwap hf hrow hpos hphase
      (swapReady_of hcore hboundary hready htensor hdrains hvector hmovers htx hrx) hfeed hok
    exact ⟨u, hexec, hplace, hswaps, hrot⟩
  case restart =>
    obtain ⟨hcount, -, -, hlock⟩ := s.beginRestart_counts cause k ok
    exact answers_next (guardRes_next rfl (if_pos h)) ⟨hcount, hlock⟩
  case watchdog =>
    obtain ⟨hcount, hexpired, hcause, -⟩ := s.beginRestart_counts .watchdog k ok
    exact answers_next (guardRes_next rfl (if_pos h)) ⟨hcount, hexpired, hcause⟩
  case sram =>
    have hvstby : s.hub.vstby = true := by
      simp only [State.canRestart, Bool.and_eq_true] at h
      exact h.1.1.1
    obtain ⟨hcount, -, hcause, -⟩ := s.beginRestart_counts .sramError k ok
    exact answers_next (guardRes_next rfl (by simp [hvstby, h])) ⟨hcount, hcause⟩
  case command =>
    have hst' : (s.counted.reply c 0).odG 0x1300 4 ≠ 4 := (s.counted_update 4).symm ▸ hst
    obtain ⟨hcount, -, hcause, -⟩ := (s.counted.reply c 0).beginRestart_counts .command k ok
    refine answers_next (exec_restartTheHub hc k ok hst) ⟨hcount.trans ?_, hcause.trans (if_neg fun h => hst' h.2), ?_⟩
    · exact congrArg (· + 1)
        (s.odG_odAdd_ne (i := 0x1100) (b := 5) (v := 1) (idx := 0x1130) (sub := 1) (.inl (by decide)) (by decide) (by decide))
    · exact ((s.counted.reply c 0).beginRestart_out .command k ok).subset
        (List.mem_append_right _ (List.mem_singleton_self _))
  case ends => exact answers_managementRestartEnd_ended h
  case begins =>
    intro h hlo hhi hst
    have hn := updateBytes_len 1 (len := n) (by omega)
    obtain ⟨u, hexec, hlen, hbuf, hst', -⟩ := answers_updateBegin h (updateBytes_length 1 n) (updateBytes_zero 1 n)
      (updateBytes_op (by decide) n) (hn.symm ▸ hlo) (hn.symm ▸ hhi) hst
    exact ⟨u, hexec, hlen.trans hn, hbuf, hst'⟩
  case chunk => exact answers_next (exec_updateImageChunk h hfit hst) rfl
  case commit =>
    intro h hbuf hst hcode
    obtain ⟨u, hexec, hslot, hst', -⟩ := answers_updateCommit_ok h (updateBytes_length 2 0) (updateBytes_zero 2 0)
      (updateBytes_op (by decide) 0) hbuf (.inl hst) hcode
    exact ⟨u, hexec, hslot, hst'⟩
  case abort =>
    intro h hst
    obtain ⟨u, hexec, hlen, hbuf, hst', -⟩ := answers_updateAbort h (updateBytes_length 3 0) (updateBytes_zero 3 0)
      (updateBytes_op (by decide) 0) (.inr (.inl hst))
    exact ⟨u, hexec, hlen, hbuf, hst'⟩
  case written =>
    obtain ⟨u, hexec, hslot, hst', -⟩ := answers_flashImageWritten_ok hst
    exact ⟨u, hexec, hslot, hst'⟩
  case logged => exact answers_next (exec_logFlashWrite hfind haway hnew) (s.flashAppend_last e)
  case counted =>
    obtain ⟨u, hexec, hlo, hhi, hcounts, -⟩ := answers_availabilityCount s ex h
    exact ⟨u, hexec, availability_total (old := s.odG 0x7110) (new := u.odG 0x7110) hlo hhi hcounts⟩

end

section
/-!
SUPPORT. The input and its records (R311, R324–R327), and the obligation O46.
-/

-- One proof after another: side conditions of frames are default arguments, and proofs elaborated at once would each wait
-- for the kernel in a thread of their own, past the memory limit.
set_option Elab.async false

namespace Sys2Proof.Machine

/-! ### Tables and byte-string entries -/

/-- What holds of every entry of a table, and of the value of an absent key, holds of every value read. -/
theorem mget_of_forall {α : Type} {d : α} {m : SMap α} {P : α → Prop} (hd : P d) (hm : ∀ e ∈ m, P e.2) (k : Nat) :
    P (mget d m k) := by
  unfold mget
  cases hfind : mfind m k with
  | none => exact hd
  | some v => exact hm _ (mem_of_mfind hfind)

section blobs

variable (s : State) (idx sub p : Nat)

@[simp] theorem State.blobP_setBlobP_same (v : List Byte) : (s.setBlobP idx sub p v).blobP idx sub p = some v :=
  (mfind_mput _ _ _ _).trans (if_pos rfl)

theorem State.blobP_of_blob {s u : State} (h : u.odBlob = s.odBlob) : u.blobP idx sub p = s.blobP idx sub p := by
  simp only [State.blobP, h]

end blobs

variable {s : State}

/-! ### Sags (R325) -/

theorem answers_sagEnd (f v : Nat) {g : Sag} (h : s.power.sag = some g) : Answers (.sagEnd f v) s (fun u =>
    u.power.sag = none ∧ u.odG 0x2000 8 = s.odG 0x2000 8 + 1 ∧ u.blobP 0x2000 9 0xFF =
      some ((sagRecord g s.clkTime false f v ++ (s.blobP 0x2000 9 0xFF).getD []).take 1024)) := by
  refine answers_next (u := s.closeSag false f v) (guardRes_next rfl rfl) ?_
  unfold State.closeSag
  rw [h]
  dsimp only
  refine ⟨congrArg Power.sag ((State.log_within _ _).power (by decide)),
    ((State.log_within _ _).odG (idx := 0x2000)).trans 
      (State.odG_odAdd_same (s.setBlobP _ _ _ _) 0x2000 8 1), ?_⟩
  exact (State.blobP_of_blob _ _ _ ((State.log_within _ _).blob (by decide))).trans (s.blobP_setBlobP_same _ _ _ _)

/-! ### Drop-outs and lockouts (R311, R326) -/

/-- A tile of the module without power holds no cells and no bytes. -/
theorem State.losePower_tile (s : State) (t : TileId) :
    (s.losePower.tile t).cb.cells = [] ∧ (s.losePower.tile t).sp.mem = [] := by
  refine mget_of_forall (P := fun T : Tile => T.cb.cells = [] ∧ T.sp.mem = []) ⟨rfl, rfl⟩ (fun e he => ?_) (tkey t)
  obtain ⟨x, -, hx⟩ := List.mem_filterMap.mp he
  split at hx
  · cases hx
  · cases hx
    exact ⟨rfl, rfl⟩

theorem State.releaseFault_flashLog (s : State) : s.releaseFault.hub.flashLog = s.hub.flashLog := by
  unfold State.releaseFault
  split <;> rfl

/-- Every field off and unscrubbed. -/
def State.fieldsFallen (s : State) : State :=
  s.forEach allFields (fun f s => (s.odSet 0x2101 (f + 1) 1).odSet 0x7103 (f + 1) 1)

theorem State.fieldsFallen_within (s : State) : Within [] [0x2101, 0x7103] s s.fieldsFallen :=
  .forEach_mem _ (fun f hf s => (s.odSet_within 1 (by have := allFields_lt hf; omega)).mono.andThen
    (State.odSet_within _ 1 (by have := allFields_lt hf; omega))) s

/-- An entry of each field takes the value that every pass over the fields gives it. -/
theorem State.forEach_fields_odG {h : Nat → State → State} {idx v : Nat}
    (hset : ∀ f < 64, ∀ t : State, (h f t).odG idx (f + 1) = v)
    (hother : ∀ f < 64, ∀ g < 64, g ≠ f → ∀ t : State, (h f t).odG idx (g + 1) = t.odG idx (g + 1)) {g : Nat} (l : List Nat)
    (hl : ∀ f ∈ l, f < 64) (hg : g < 64) (s : State) (hmem : g ∈ l ∨ s.odG idx (g + 1) = v) :
    (s.forEach l h).odG idx (g + 1) = v := by
  induction l generalizing s with
  | nil => exact hmem.resolve_left List.not_mem_nil
  | cons a r ih =>
    refine ih (fun f hf => hl f (List.mem_cons_of_mem a hf)) (h a s) ?_
    have ha := hl a List.mem_cons_self
    by_cases hga : g = a
    · subst hga
      exact .inr (hset g ha s)
    · exact hmem.imp (fun hm => (List.mem_cons.mp hm).resolve_left hga) fun hv => (hother a ha g hg hga s).trans hv

theorem State.fieldsFallen_state (s : State) {g : Nat} (hg : g < 64) : s.fieldsFallen.odG 0x2101 (g + 1) = 1 := by
  refine State.forEach_fields_odG (fun f hf t => ?_) (fun f hf k hk hne t => ?_) allFields (fun _ => allFields_lt) hg s
    (.inl (List.mem_range.mpr hg))
  · exact (State.odG_odSet_ne _ (.inl (by decide)) (by omega) (by omega)).trans (State.odG_odSet_same _ _ _ _)
  · exact (State.odG_odSet_ne _ (.inl (by decide)) (by omega) (by omega)).trans
      (State.odG_odSet_ne _ (.inr (by omega)) (by omega) (by omega))

theorem State.railsFall_eq (s : State) :
    s.railsFall = (s.releaseFault.standbyKept.fieldsFallen.odSet 0x7102 1 0).pin "MOD_READY" false := by
  unfold State.railsFall State.fieldsFallen
  dsimp only

/-- The device in reset: no partition, stage one off, every field off. -/
theorem State.railsFall_holds (s : State) : s.railsFall.parts = [] ∧ s.railsFall.hub.vstby = true ∧
    s.railsFall.hub.powered = false ∧ s.railsFall.odG 0x7102 1 = 0 ∧ (∀ g, g < 64 → s.railsFall.fieldState g = 1) ∧
    s.railsFall.out.getLast? = some (Emission.pin "MOD_READY" false) := by
  have hfallen := s.releaseFault.standbyKept.fieldsFallen_within
  have hparts : s.releaseFault.standbyKept.fieldsFallen.parts = [] := hfallen.parts (by decide)
  have hstate := fun g (hg : g < 64) => s.releaseFault.standbyKept.fieldsFallen_state hg
  obtain ⟨_, _, _, hhub⟩ := hfallen.hub (by decide) (by decide)
  have hvstby := congrArg Hub.vstby hhub
  have hpowered := congrArg Hub.powered hhub
  rw [s.railsFall_eq]
  generalize s.releaseFault.standbyKept.fieldsFallen = z at hparts hstate hvstby hpowered
  refine ⟨hparts, hvstby, hpowered, (State.emit_odG _ _ _ _).trans (State.odG_odSet_same _ _ _ _), fun g hg => ?_,
    List.getLast?_concat⟩
  have hother : (z.odSet 0x7102 1 0).odG 0x2101 (g + 1) = z.odG 0x2101 (g + 1) :=
    State.odG_odSet_ne _ (.inl (by decide)) (by omega) (by decide)
  exact hother.trans (hstate g hg)

theorem answers_dropout (f v : Nat) (hvstby : s.hub.vstby = true) : Answers (.stageOneDropout false f v) s (fun u =>
    u.parts = [] ∧ u.fns = [] ∧ u.routers = [] ∧ u.hub.vstby = false ∧ u.hub.powered = false ∧
      u.hub.flashLog = s.hub.flashLog ∧ u.hub.ramLog = [] ∧ u.stk.mem = [] ∧
      ∀ t, (u.tile t).cb.cells = [] ∧ (u.tile t).sp.mem = []) := by
  refine answers_next (u := s.releaseFault.losePower.pin "MOD_READY" false) (guardRes_next rfl ?_)
    ⟨rfl, rfl, rfl, rfl, rfl, s.releaseFault_flashLog, rfl, rfl, s.releaseFault.losePower_tile⟩
  rw [if_neg (by simp [hvstby]), if_pos (by decide)]

theorem answers_standbyDropout (f v : Nat) (hvstby : s.hub.vstby = true) (hpowered : s.hub.powered = true) :
    Answers (.stageOneDropout true f v) s (fun u =>
      u.parts = [] ∧ u.hub.vstby = true ∧ u.hub.powered = false ∧ u.odG 0x7102 1 = 0 ∧
      (∀ g, g < 64 → u.fieldState g = 1) ∧ u.out.getLast? = some (Emission.pin "MOD_READY" false)) := by
  refine answers_next (u := State.railsFall (if s.power.sag.isSome then s.closeSag true f v
    else s.log { rule := 326, status := 0x0905, sev := 1, data := [f] })) (guardRes_next rfl ?_) (State.railsFall_holds _)
  rw [if_neg (by simp [hvstby]), if_neg (by decide), if_neg (by simp [hpowered])]

theorem answers_lockout (hpowered : s.hub.powered = true) : Answers .overvoltageLockout s (fun u =>
    u.hub.lockout = true ∧ u.hub.powered = false ∧ ∀ g, g < 64 → u.fieldState g = 1) := by
  obtain ⟨-, -, hoff, -, hfields, -⟩ := (s.log { rule := 311, sev := 2 }).railsFall_holds
  have hexec : exec .overvoltageLockout s = .next (
      let s1 := (s.log { rule := 311, sev := 2 }).railsFall
      { s1 with hub := { s1.hub with lockout := true } }) := by
    refine guardRes_next rfl ?_
    rw [if_neg (by simp [hpowered])]
  generalize (s.log { rule := 311, sev := 2 }).railsFall = z at hexec hoff hfields
  exact answers_next hexec ⟨rfl, hoff, hfields⟩

/-! ### The source's resistance (R327) -/

/-- The input's flag set and logged, where it was not. -/
def State.inputFlagged (s : State) : State :=
  if s.odG 0x2000 0xD = 1 then s else (s.odSet 0x2000 0xD 1).log { rule := 327, sev := 1 }

theorem State.flagInput_eq (s : State) : s.flagInput =
    { s.inputFlagged with power := { s.inputFlagged.power with
        sag := s.inputFlagged.power.sag.map (fun g => { g with suspect := true }) } } := rfl

theorem State.inputFlagged_within : Within [] [0x2000] s s.inputFlagged :=
  .ite (fun _ => .refl s) (fun _ => (s.odSet_within 1).andThen (State.log_within _ _))

theorem State.flagInput_srcRun : s.flagInput.power.srcRun = s.power.srcRun := by
  rw [s.flagInput_eq]
  exact (congrArg Power.srcRun (State.inputFlagged_within.power (by decide)) : s.inputFlagged.power.srcRun = s.power.srcRun)

theorem State.flagInput_lastInput : s.flagInput.power.lastInput = s.power.lastInput := by
  rw [s.flagInput_eq]
  exact (congrArg Power.lastInput (State.inputFlagged_within.power (by decide)) : s.inputFlagged.power.lastInput = s.power.lastInput)

theorem State.flagInput_flag : s.flagInput.odG 0x2000 0xD = 1 := by
  rw [s.flagInput_eq]
  change s.inputFlagged.odG 0x2000 0xD = 1
  unfold State.inputFlagged
  split
  case isTrue h => exact h
  case isFalse => exact ((State.log_within _ _).odG (idx := 0x2000)).trans (State.odG_odSet_same _ _ _ _)

/-- Flagging the input touches no other entry of its record. -/
theorem State.flagInput_odG {sub : Nat} (hsub : sub < 256) (h : sub ≠ 0xD) : s.flagInput.odG 0x2000 sub = s.odG 0x2000 sub := by
  rw [s.flagInput_eq]
  change s.inputFlagged.odG 0x2000 sub = _
  unfold State.inputFlagged
  split
  · rfl
  · exact ((State.log_within _ _).odG (idx := 0x2000) (hsub := hsub)).trans
      (State.odG_odSet_ne _ (.inr (by omega)) hsub (by decide))

/-- The length of the run of estimates above the threshold, with this one. -/
def State.sourceRun (s : State) (dMv dA : Nat) : Nat :=
  if s.odG 0x2000 0xC * dA < dMv * 10000 then s.power.srcRun + 1 else 0

/-- The estimate itself, before any flag. -/
def State.estimated (s : State) (dMv dA : Nat) : State :=
  ({ s with power := { s.power with srcRun := s.sourceRun dMv dA } }).odSet 0x2000 0xB (min (dMv * 10000 / dA) 65535)

theorem answers_currentStep (dMv : Nat) {dA : Nat} (hstep : 500 < dA) (hvstby : s.hub.vstby = true) :
    Answers (.currentStepEstimate dMv dA) s (fun u =>
      let run := if s.odG 0x2000 0xC * dA < dMv * 10000 then s.power.srcRun + 1 else 0
      u.odG 0x2000 0xB = min (dMv * 10000 / dA) 65535 ∧ u.power.srcRun = run ∧
      u.odG 0x2000 0xD = (if 16 ≤ run then 1 else s.odG 0x2000 0xD)) := by
  have hexec : exec (.currentStepEstimate dMv dA) s = .next
      (if 16 ≤ s.sourceRun dMv dA then (s.estimated dMv dA).flagInput else s.estimated dMv dA) :=
    guardRes_next rfl (if_neg (by simp [hvstby]; omega))
  have hflag : (s.estimated dMv dA).odG 0x2000 0xD = s.odG 0x2000 0xD :=
    State.odG_odSet_ne _ (.inr (by decide)) (by decide) (by decide)
  refine answers_next hexec ?_
  change _ ∧ _ = s.sourceRun dMv dA ∧ _ = (if 16 ≤ s.sourceRun dMv dA then 1 else _)
  split
  · exact ⟨(State.flagInput_odG (by decide) (by decide)).trans (State.odG_odSet_same _ _ _ _), State.flagInput_srcRun,
      State.flagInput_flag⟩
  · exact ⟨State.odG_odSet_same _ _ _ _, rfl, hflag⟩

/-! ### Samples (R324) -/

/-- The entries of the input record that a sample writes, before its power and log. -/
def State.inputRead (s : State) (mv dA : Nat) : State :=
  let s1 := ((s.odSet 0x2000 1 mv).odSet 0x2000 2 dA).odSet 0x2000 3 (mv * dA / 10000)
  if mv < s1.odG 0x2000 4 then (s1.odSet 0x2000 4 mv).odSet 0x2000 5 s1.clkTime else s1

theorem State.inputRead_odG (mv dA : Nat) : (s.inputRead mv dA).odG 0x2000 1 = mv ∧ (s.inputRead mv dA).odG 0x2000 2 = dA ∧
    (s.inputRead mv dA).odG 0x2000 3 = mv * dA / 10000 ∧ (s.inputRead mv dA).odG 0x2000 4 = min mv (s.odG 0x2000 4) ∧
    (mv < s.odG 0x2000 4 → (s.inputRead mv dA).odG 0x2000 5 = s.clkTime) := by
  have hother : ∀ {t : State} {v sub sub' : Nat}, sub ≠ sub' → sub < 256 → sub' < 256 →
      (t.odSet 0x2000 sub v).odG 0x2000 sub' = t.odG 0x2000 sub' := fun hne h h' => State.odG_odSet_ne _ (.inr (by omega)) h' h
  have hmin : (((s.odSet 0x2000 1 mv).odSet 0x2000 2 dA).odSet 0x2000 3 (mv * dA / 10000)).odG 0x2000 4 = s.odG 0x2000 4 :=
    ((hother (by decide) (by decide) (by decide)).trans (hother (by decide) (by decide) (by decide))).trans
      (hother (by decide) (by decide) (by decide))
  have hclk : (((s.odSet 0x2000 1 mv).odSet 0x2000 2 dA).odSet 0x2000 3 (mv * dA / 10000)).clkTime = s.clkTime := rfl
  unfold State.inputRead
  dsimp only
  rw [hmin, hclk]
  by_cases hlow : mv < s.odG 0x2000 4
  · simp [hlow, hother, State.odG_odSet_same, min_eq_left (le_of_lt hlow)]
  · simp [hlow, hother, State.odG_odSet_same, min_eq_right (not_lt.mp hlow)]

/-- The sample in the input record, the open sag and the last sample. -/
def State.inputNoted (s : State) (mv dA : Nat) : State :=
  { s.inputRead mv dA with power := { (s.inputRead mv dA).power with
      sag := (s.inputRead mv dA).power.sag.map (fun g => { g with vmin := min g.vmin mv, imax := max g.imax dA })
      lastInput := some (mv, dA) } }

theorem answers_inputSample (mv dA : Nat) (hvstby : s.hub.vstby = true) : Answers (.inputSample mv dA) s (fun u =>
    u.odG 0x2000 1 = mv ∧ u.odG 0x2000 2 = dA ∧ u.odG 0x2000 3 = mv * dA / 10000 ∧ u.odG 0x2000 4 = min mv (s.odG 0x2000 4) ∧
      (mv < s.odG 0x2000 4 → u.odG 0x2000 5 = s.clkTime) ∧ u.power.lastInput = some (mv, dA)) := by
  obtain ⟨hv, hi, hp, hmin, hat⟩ := State.inputRead_odG (s := s) mv dA
  have hexec : exec (.inputSample mv dA) s = .next
      (if inputJump s.power.lastInput mv dA then (s.inputNoted mv dA).flagInput else s.inputNoted mv dA) :=
    guardRes_next rfl (if_neg (by simp [hvstby]))
  have hflag : ∀ {sub : Nat}, sub < 256 → sub ≠ 0xD → (s.inputNoted mv dA).flagInput.odG 0x2000 sub =
      (s.inputRead mv dA).odG 0x2000 sub := fun hsub hne => State.flagInput_odG hsub hne
  refine answers_next hexec ?_
  split
  · rw [hflag (by decide) (by decide), hflag (by decide) (by decide), hflag (by decide) (by decide),
      hflag (by decide) (by decide), hflag (by decide) (by decide), State.flagInput_lastInput]
    exact ⟨hv, hi, hp, hmin, hat, rfl⟩
  · exact ⟨hv, hi, hp, hmin, hat, rfl⟩

/-! ### Branch samples of a field -/

/-- The draw of a plane: the sum of what its fields draw. -/
def State.planeSum (s : State) (p : Nat) : Nat := ((planeFields p).map (fun g => s.odG 0x2105 (g + 1))).sum

theorem planeOf_lt {f : Nat} (hf : f < 64) : planeOf f < 16 := by
  unfold planeOf
  omega

theorem State.planeEases_within {p : Nat} (hp : p < 16) : Within [.fields] [0x2106] s (s.planeEases p) := by
  unfold State.planeEases
  refine .ite (fun _ => ?_) (fun _ => ?_)
  · exact ((s.odSet_within _ (by omega)).mono).andThen (.forEach _ (fun f t => .ite (fun _ => t.modField_within _ _)
      (fun _ => .refl t)) _)
  · exact (s.odSet_within _ (by omega)).mono

theorem State.planeEases_sum {p : Nat} (hp : p < 16) : (s.planeEases p).odG 0x2106 (p + 1) = s.planeSum p := by
  unfold State.planeEases
  dsimp only
  split
  · refine Eq.trans (Within.odG (cs := [.fields]) (ods := []) (.forEach _ (fun f t => .ite (fun _ => t.modField_within _ _)
      (fun _ => .refl t)) _) (hsub := by omega)) (State.odG_odSet_same _ _ _ _)
  · exact State.odG_odSet_same _ _ _ _

/-- The sample in the field's records, before its plane is looked at. -/
def State.branchNoted (s : State) (f branch dA vcore plane : Nat) : State :=
  let s1 := (s.odSet 0x2105 (f + 1) dA).setBlobP 0x2102 (f + 1) 0xFF
    (minRecord ((s.blobP 0x2102 (f + 1) 0xFF).getD (List.replicate 16 0xFF)) vcore branch s.clkTime)
  let z := residualStep (s1.field f) ((plane : Int) - branch - dA * Config.branchRes f / 10000) dA (s1.odG 0x2100 9) s1.clkTime
  let s2 := s1.modField f (fun _ => z.1)
  if z.2 && s2.odG 0x2104 (f + 1) == 0 then
    (s2.odSet 0x2104 (f + 1) 1).log { rule := 327, sev := 1, source := 1, field := f }
  else s2

theorem State.branchNoted_within {f : Nat} (hf : f < 64) (branch dA vcore plane : Nat) :
    Within [.fields] [0x2104] ((s.odSet 0x2105 (f + 1) dA).setBlobP 0x2102 (f + 1) 0xFF
      (minRecord ((s.blobP 0x2102 (f + 1) 0xFF).getD (List.replicate 16 0xFF)) vcore branch s.clkTime))
      (s.branchNoted f branch dA vcore plane) := by
  unfold State.branchNoted
  refine .ite (fun _ => ?_) (fun _ => (State.modField_within _ _ _).mono)
  exact (((State.modField_within _ _ _).mono).andThen (State.odSet_within _ 1 (by omega))).andThen (State.log_within _ _)

theorem answers_branchSample {f : Nat} (hf : f < 64) (branch dA vcore plane : Nat) (hvstby : s.hub.vstby = true) :
    Answers (.fieldBranchSample f branch dA vcore plane) s (fun u =>
      u.odG 0x2105 (f + 1) = dA ∧ (∀ g, g < 64 → g ≠ f → u.odG 0x2105 (g + 1) = s.odG 0x2105 (g + 1)) ∧
      u.blobP 0x2102 (f + 1) 0xFF = some (minRecord ((s.blobP 0x2102 (f + 1) 0xFF).getD (List.replicate 16 0xFF)) vcore branch
        s.clkTime) ∧
      u.odG 0x2106 (planeOf f + 1) = ((planeFields (planeOf f)).map (fun g => u.odG 0x2105 (g + 1))).sum) := by
  have hnoted := s.branchNoted_within hf branch dA vcore plane
  generalize hz : s.branchNoted f branch dA vcore plane = z at hnoted
  have heases := State.planeEases_within (s := z) (planeOf_lt hf)
  have hdraw : ∀ {g : Nat}, g < 64 → (z.planeEases (planeOf f)).odG 0x2105 (g + 1) = z.odG 0x2105 (g + 1) :=
    fun hg => heases.odG (hsub := by omega)
  refine answers_next (u := z.planeEases (planeOf f)) (guardRes_next (decide_eq_true hf) ?_) ⟨?_, fun g hg hne => ?_, ?_, ?_⟩
  · rw [if_neg (by simp [hvstby]), ← hz]
    rfl
  · exact (hdraw hf).trans ((hnoted.odG (hsub := by omega)).trans (State.odG_odSet_same _ _ _ _))
  · exact (hdraw hg).trans ((hnoted.odG (hsub := by omega)).trans
      (State.odG_odSet_ne _ (.inr (by omega)) (by omega) (by omega)))
  · exact (State.blobP_of_blob _ _ _ ((heases.blob (by decide)).trans (hnoted.blob (by decide)))).trans
      (State.blobP_setBlobP_same _ _ _ _ _)
  · rw [State.planeEases_sum (planeOf_lt hf)]
    exact congrArg List.sum (List.map_congr_left fun g hg =>
      (hdraw (allFields_lt (List.mem_of_mem_filter hg))).symm)

/-! ### Clearing the minimum records -/

theorem State.clearMinimums_holds : s.clearMinimums.1.odG 0x2000 4 = 65535 ∧ s.clearMinimums.1.odG 0x2000 5 = 0 ∧
    s.clearMinimums.1.odG 0x2000 0xD = 0 ∧
    (∀ f, f < 64 → s.clearMinimums.1.blobP 0x2102 (f + 1) 0xFF = none ∧ s.clearMinimums.1.odG 0x2104 (f + 1) = 0) ∧
    s.clearMinimums.1.out = s.out := by
  unfold State.clearMinimums
  dsimp only
  generalize hz : (((s.odSet 0x2000 4 65535).odSet 0x2000 5 0).odSet 0x2000 0xD 0) = z
  have hflags : Within [] [0x2104]
      { z with odBlob := z.odBlob.filter (fun e => e.1 / 65536 != 0x2102) }
      (State.forEach { z with odBlob := z.odBlob.filter (fun e => e.1 / 65536 != 0x2102) } allFields
        (fun f s => s.odSet 0x2104 (f + 1) 0)) :=
    .forEach_mem _ (fun f hf t => t.odSet_within 0 (by have := allFields_lt hf; omega)) _
  have hother : ∀ {t : State} {v sub sub' : Nat}, sub ≠ sub' → sub < 256 → sub' < 256 →
      (t.odSet 0x2000 sub v).odG 0x2000 sub' = t.odG 0x2000 sub' := fun hne h h' => State.odG_odSet_ne _ (.inr (by omega)) h' h
  refine ⟨hflags.odG.trans ?_, hflags.odG.trans ?_, hflags.odG.trans ?_, fun f hf => ⟨?_, ?_⟩, ?_⟩
  · change z.odG 0x2000 4 = 65535
    rw [← hz, hother (by decide) (by decide) (by decide), hother (by decide) (by decide) (by decide), State.odG_odSet_same]
  · change z.odG 0x2000 5 = 0
    rw [← hz, hother (by decide) (by decide) (by decide), State.odG_odSet_same]
  · change z.odG 0x2000 0xD = 0
    rw [← hz, State.odG_odSet_same]
  · refine (State.blobP_of_blob _ _ _ (hflags.blob (by decide))).trans (mfind_filter_of_drop (keep := fun k => k / 65536 != 0x2102) ?_)
    have hkey : odKey 0x2102 (f + 1) 0xFF / 65536 = 0x2102 := by
      unfold odKey
      omega
    simp [hkey]
  · exact State.forEach_fields_odG (fun g hg t => State.odG_odSet_same _ _ _ _)
      (fun g hg k hk hne t => State.odG_odSet_ne _ (.inr (by omega)) (by omega) (by omega)) allFields (fun _ => allFields_lt) hf _
      (.inl (List.mem_range.mpr hf))
  · exact (hflags.out (by decide)).trans (by rw [← hz]; rfl)

end Sys2Proof.Machine

open Sys2Proof Sys2Proof.Machine

/-- Settles O46, by the effect of each event on the input's records, said once for each, and by what a fall of the rails
leaves (log 81, 86). -/
theorem inputAndRails : Obligations.InputAndRails := by
  unfold Obligations.InputAndRails
  intro s
  refine ⟨fun mv hvstby hsag hlow => ?_, fun mv h => ?_, fun f v hsag => ?_, fun f v g => answers_sagEnd f v, fun b f v h => ?_,
    fun f v => answers_dropout f v, fun f v => answers_standbyDropout f v, fun env henv => ⟨fun hv hp hl => ?_, fun h => ?_,
    fun hl => ?_, fun hl => ?_⟩, answers_lockout, fun h => ?_, fun dMv dA => ⟨fun h => ?_, answers_currentStep dMv⟩,
    answers_inputSample, fun f branch dA vcore plane hf => answers_branchSample hf branch dA vcore plane, fun c hc => ?_⟩
  · exact guardRes_next rfl (if_pos (by simp [hvstby, hsag, hlow]))
  · refine guardRes_next rfl (if_neg ?_)
    rcases h with h | h | h
    · simp [h]
    · simp [h]
    · simp [h]
  · refine guardRes_next rfl ?_
    unfold State.closeSag
    rw [hsag]
  · exact guardRes_next rfl (if_pos (by simp [h]))
  · exact guardRes_next henv (if_pos (by simp [hv, hp, hl]))
  · refine guardRes_next henv (if_neg ?_)
    rcases h with h | h | h <;> simp [h]
  · exact guardRes_next henv (if_pos hl)
  · exact guardRes_next henv (if_neg (by simp [hl]))
  · exact guardRes_next rfl (if_pos (by simp [h]))
  · exact guardRes_next rfl (if_pos (.inl h))
  · obtain ⟨hmin, hat, hflag, hfields, hout⟩ := s.counted.clearMinimums_holds
    have hexec : exec (.clearMinimumRecords c) s = .next (s.counted.clearMinimums.1.reply c 0) :=
      guardRes_next hc.1 (hc.command_eq _)
    generalize s.counted.clearMinimums.1 = z at *
    exact answers_next hexec ⟨hmin, hat, hflag, hfields, congrArg (· ++ [Emission.status c 0]) hout⟩
end

section
/-!
SUPPORT. What a field loses when it goes dark, what a fault of its partition ends, and the pass over fields (R316–R322, R335).
-/

-- One proof after another: side conditions of frames are default arguments, and proofs elaborated at once would each wait
-- for the kernel in a thread of their own, past the memory limit.
set_option Elab.async false

namespace Sys2Proof.Machine

/-! ### Bits of a mask -/

theorem bit_eq_testBit (v i : Nat) : bit v i = v.testBit i := by
  rw [Nat.testBit_eq_decide_div_mod_eq]
  rfl

/-- Adding a power of two whose bit is clear changes no other bit. -/
theorem bit_add_two_pow {v i j : Nat} (hclear : bit v i = false) (hij : i ≠ j) : bit (v + 2 ^ i) j = bit v j := by
  rcases Nat.lt_or_gt_of_ne hij with hlt | hgt
  · obtain ⟨n, rfl⟩ := Nat.exists_eq_add_of_lt hlt
    have hhalf : (v + 2 ^ i) / 2 ^ i / 2 = v / 2 ^ i / 2 := by
      rw [Nat.add_div_right v (Nat.two_pow_pos i)]
      simp only [bit, beq_eq_false_iff_ne] at hclear
      omega
    have hsplit : ∀ w : Nat, w / 2 ^ (i + n + 1) = w / 2 ^ i / 2 / 2 ^ n := fun w => by
      rw [Nat.div_div_eq_div_mul, Nat.div_div_eq_div_mul]
      congr 1
      ring
    rw [bit, bit, hsplit, hsplit, hhalf]
  · rw [bit_eq_testBit, bit_eq_testBit, Nat.add_comm, Nat.testBit_two_pow_add_gt hgt]

/-- Setting a bit changes that bit alone. -/
theorem bit_setBit (v i j : Nat) : bit (setBit v i true) j = (bit v j || decide (i = j)) := by
  by_cases hij : i = j
  · subst hij
    rw [bit_setBit_same, decide_eq_true rfl, Bool.or_true]
  · rw [decide_eq_false hij, Bool.or_false]
    unfold setBit
    split
    · rfl
    · rename_i hclear
      rw [if_pos rfl, bit_add_two_pow (Bool.not_eq_true _ ▸ hclear) hij]

theorem bit_foldl_setBit (l : List Nat) (v j : Nat) :
    bit (l.foldl (fun m i => setBit m i true) v) j = (bit v j || decide (j ∈ l)) := by
  induction l generalizing v with
  | nil => simp
  | cons i l ih =>
    rw [List.foldl_cons, ih, bit_setBit]
    simp only [List.mem_cons, Bool.decide_or, Bool.or_assoc, eq_comm]

/-! ### A pass over fields -/

/-- A view that no element of the pass changes is as it was. -/
theorem State.forEach_view {α β : Type} (v : State → β) {h : α → State → State} {l : List α}
    (hsame : ∀ a ∈ l, ∀ t, v (h a t) = v t) (s : State) : v (s.forEach l h) = v s := by
  induction l generalizing s with
  | nil => rfl
  | cons a l ih => exact (ih (fun b hb => hsame b (List.mem_cons_of_mem a hb)) (h a s)).trans (hsame a List.mem_cons_self s)

/-- In a pass that meets an element once, and in which no other changes a view, the view is as that element leaves it. -/
theorem State.forEach_once {α β : Type} (v : State → β) {h : α → State → State} {l : List α} {a : α} (ha : a ∈ l)
    (hnodup : l.Nodup) (hother : ∀ b ∈ l, b ≠ a → ∀ t, v (h b t) = v t) (s : State) :
    ∃ t, v t = v s ∧ v (s.forEach l h) = v (h a t) := by
  induction l generalizing s with
  | nil => exact absurd ha List.not_mem_nil
  | cons b l ih =>
    obtain ⟨hb, hnodup⟩ := List.nodup_cons.mp hnodup
    by_cases hab : a = b
    · subst hab
      exact ⟨s, rfl, State.forEach_view v (fun c hc t => hother c (List.mem_cons_of_mem a hc) (fun e => hb (e ▸ hc)) t) (h a s)⟩
    · obtain ⟨t, ht, hv⟩ := ih ((List.mem_cons.mp ha).resolve_left hab) hnodup
        (fun c hc => hother c (List.mem_cons_of_mem b hc)) (h b s)
      exact ⟨t, ht.trans (hother b List.mem_cons_self (fun e => hab e.symm) s), hv⟩

/-! ### Dark fields -/

section dark

variable {s : State} {f : Nat} {t : TileId}

/-- A tile of a field that has gone dark holds nothing. -/
theorem State.loseField_lost (ht : tileOk t = true) (hft : fieldOfTile t = f) :
    ((s.loseField f).tile t).sp.mem = [] ∧ ((s.loseField f).tile t).cb.cells = [] ∧
      ((s.loseField f).tile t).cc.isram = [] := by
  unfold State.tile mget
  cases hfind : mfind (s.loseField f).tiles (tkey t) with
  | none => exact ⟨rfl, rfl, rfl⟩
  | some T =>
    obtain ⟨⟨k, T'⟩, -, hT⟩ := List.mem_filterMap.mp (mem_of_mfind hfind)
    dsimp only at hT
    split at hT
    · split at hT
      · cases hT
      · cases hT
        exact ⟨rfl, rfl, rfl⟩
    · rename_i hmine
      cases hT
      exact absurd (by simpa [tileAt_tkey ht] using hft) hmine

/-- A filter that keeps an entry and drops or rewrites only entries of other keys does not change what a key reads. -/
theorem mfind_filterMap_of_kept {α : Type} {keep : Nat × α → Option (Nat × α)} {k : Nat} (m : SMap α)
    (hkept : ∀ v, keep (k, v) = some (k, v)) (hother : ∀ e e' : Nat × α, keep e = some e' → e'.1 = e.1) :
    mfind (m.filterMap keep) k = mfind m k := by
  induction m with
  | nil => rfl
  | cons e m ih =>
    obtain ⟨k', v⟩ := e
    by_cases hk : k' = k
    · subst hk
      rw [List.filterMap_cons_some (hkept v), mfind, mfind, if_pos rfl, if_pos rfl]
    · cases hkeep : keep (k', v) with
      | none => rw [List.filterMap_cons_none hkeep, ih, mfind, if_neg hk]
      | some e' =>
        obtain ⟨k'', v'⟩ := e'
        have hkey : k'' = k' := hother _ _ hkeep
        subst hkey
        rw [List.filterMap_cons_some hkeep, mfind, mfind, if_neg hk, if_neg hk, ih]

/-- A tile of another field is as it was. -/
theorem State.loseField_kept (ht : tileOk t = true) (hft : fieldOfTile t ≠ f) : (s.loseField f).tile t = s.tile t := by
  have hmine : (fieldOfTile (tileAt (tkey t)) == f) = false := by
    rw [tileAt_tkey ht]
    exact beq_false_of_ne hft
  refine congrArg (fun o : Option Tile => o.getD {}) (mfind_filterMap_of_kept _ (fun v => ?_) fun e e' h => ?_)
  · exact if_neg (ne_true_of_eq_false hmine)
  · split at h
    · split at h
      · cases h
      · cases h
        rfl
    · cases h
      rfl

/-- Going dark in its last steps: the entries of the field in the dictionary. -/
theorem State.goDark_eq (c : Nat) (why : OffCause) : ∃ x : State, x.tiles = ((s.abandonRotations f).loseField f).tiles ∧
    x.od = (s.abandonRotations f).od ∧ s.goDark f c why = (((x.odSet 0x2101 (f + 1) c).odSet 0x7103 (f + 1) 1).odSet 0x2107 (f + 1) 0).countPadded := by
  unfold State.goDark
  have hod : ((s.abandonRotations f).loseField f).od = (s.abandonRotations f).od := rfl
  generalize (s.abandonRotations f).loseField f = y at hod
  dsimp only
  refine ⟨_, ?_, ?_, rfl⟩
  · rfl
  · exact hod

theorem State.goDark_holds (hf : f < 64) (c : Nat) (why : OffCause) :
    (s.goDark f c why).fieldState f = c ∧ (s.goDark f c why).odG 0x7103 (f + 1) = 1 ∧
      (s.goDark f c why).odG 0x2107 (f + 1) = 0 ∧
      (∀ t, tileOk t = true → fieldOfTile t = f → ((s.goDark f c why).tile t).sp.mem = [] ∧
        ((s.goDark f c why).tile t).cb.cells = [] ∧ ((s.goDark f c why).tile t).cc.isram = []) ∧
      (∀ t, tileOk t = true → fieldOfTile t ≠ f → (s.goDark f c why).tile t = s.tile t) := by
  obtain ⟨x, htiles, -, heq⟩ := s.goDark_eq (f := f) c why
  have htile : ∀ t, (s.goDark f c why).tile t = ((s.abandonRotations f).loseField f).tile t := fun t => by
    rw [heq]
    exact State.tile_of_tiles htiles t
  have hod : ∀ {idx : Nat}, idx ≠ 0x3500 → idx ≠ 0x1110 → (s.goDark f c why).odG idx (f + 1) =
      (((x.odSet 0x2101 (f + 1) c).odSet 0x7103 (f + 1) 1).odSet 0x2107 (f + 1) 0).odG idx (f + 1) := fun hi hlog => by
    rw [heq]
    exact (State.countPadded_within _).odG (by simpa using hi) hlog (by omega)
  refine ⟨(hod (by decide) (by decide)).trans ?_, (hod (by decide) (by decide)).trans ?_,
    (hod (by decide) (by decide)).trans (State.odG_odSet_same _ _ _ _), fun t ht hft => ?_, fun t ht hft => ?_⟩
  · exact (State.odG_odSet_ne _ (.inl (by decide)) (by omega) (by omega)).trans
      ((State.odG_odSet_ne _ (.inl (by decide)) (by omega) (by omega)).trans (State.odG_odSet_same _ _ _ _))
  · exact (State.odG_odSet_ne _ (.inl (by decide)) (by omega) (by omega)).trans (State.odG_odSet_same _ _ _ _)
  · rw [htile]
    exact State.loseField_lost ht hft
  · exact ((htile t).trans (State.loseField_kept ht hft)).trans ((s.abandonRotations_within f).tile t)

/-- Going dark leaves the states of the other fields. -/
theorem State.goDark_fieldState_ne {g : Nat} (hf : f < 64) (hg : g < 64) (hne : f ≠ g) (c : Nat) (why : OffCause) :
    (s.goDark f c why).fieldState g = s.fieldState g := by
  obtain ⟨x, -, hod, heq⟩ := s.goDark_eq (f := f) c why
  have hset : ∀ (t : State) (i v : Nat), (t.odSet i (f + 1) v).odG 0x2101 (g + 1) = t.odG 0x2101 (g + 1) := fun t i v =>
    State.odG_odSet_ne _ (.inr (by omega)) (by omega) (by omega)
  rw [heq, State.fieldState, (State.countPadded_within _).odG (hsub := by omega), hset, hset, hset, State.odG_of_od hod]
  exact (s.abandonRotations_within f).odG (hsub := by omega)

end dark

end Sys2Proof.Machine
end

section
/-!
SUPPORT. What a fault of a partition ends (R319): none of its requests is left without its record.
-/

-- One proof after another: side conditions of frames are default arguments, and proofs elaborated at once would each wait
-- for the kernel in a thread of their own, past the memory limit.
set_option Elab.async false

namespace Sys2Proof.Machine

/-! ### Steps that add no request -/

/-- A step has added no entry to the requests of a partition and changed none of them. -/
def NoneAdded (p : Nat) (s u : State) : Prop := ∀ e ∈ (u.part p).reqs, e ∈ (s.part p).reqs

namespace NoneAdded

variable {p : Nat} {s t u : State}

theorem refl (p : Nat) (s : State) : NoneAdded p s s := fun _ h => h

theorem trans (h : NoneAdded p s t) (k : NoneAdded p t u) : NoneAdded p s u := fun e he => h e (k e he)

theorem of_parts (h : u.parts = s.parts) : NoneAdded p s u := fun _ he => State.part_of_parts h p ▸ he

theorem modPart {f : Partition → Partition} (hf : ∀ P, (f P).reqs = P.reqs) : NoneAdded p s (s.modPart p f) :=
  fun e he => by rwa [State.part_modPart_same, hf] at he

theorem of_frees (h : OnlyFrees p s u) : NoneAdded p s u := fun e he => by
  obtain ⟨keep, hkeep⟩ := h
  rw [hkeep, if_pos rfl] at he
  exact List.mem_of_mem_filter he

theorem forEach {α : Type} {f : α → State → State} (hf : ∀ a t, NoneAdded p t (f a t)) (l : List α) (s : State) :
    NoneAdded p s (s.forEach l f) := by
  induction l generalizing s with
  | nil => exact refl p s
  | cons a l ih => exact (hf a s).trans (ih (f a s))

end NoneAdded

section requests

variable {s : State} (p : Nat)

/-- The partition without a node of its tree. -/
def nodeDropped (n : Nat) (P : Partition) : Partition :=
  { P with nodes := (mdel P.nodes n).map (fun e => (e.1, { e.2 with children := e.2.children.filter (· != n) }))
           roots := P.roots.filter (· != n) }

theorem State.dropNode_addsNone (n : Nat) : NoneAdded p s (s.dropNode p n) :=
  (NoneAdded.modPart (f := nodeDropped n) fun _ => rfl).trans
    (.of_parts ((State.showTree_parts _ p).trans (State.showNode_parts _ p n)))

theorem State.modNode_addsNone (n : Nat) (f : PrefixNode → PrefixNode) : NoneAdded p s (s.modNode p n f) :=
  .modPart fun _ => rfl

theorem State.reapNode_addsNone (n : Nat) : NoneAdded p s (s.reapNode p n) := by
  unfold State.reapNode
  split
  · split
    · exact s.dropNode_addsNone p n
    · exact .refl p s
  · exact .refl p s

theorem State.releaseNodes_addsNone (l : List Nat) : NoneAdded p s (s.releaseNodes p l) :=
  .forEach (fun n t => ((t.modNode_addsNone p n _).trans (.of_parts (State.showNode_parts _ p n))).trans
    (State.reapNode_addsNone p n)) l s

theorem State.answer_addsNone (tag status detail at0 : Nat) : NoneAdded p s (s.answer p tag status detail at0) :=
  .of_frees (s.onlyFrees_answer p tag status detail at0)

/-! ### A request and its record -/

/-- A step after which every request of a partition is one that it had before under another number, or is recorded. -/
def Records (p r : Nat) (s u : State) : Prop :=
  ∀ e ∈ (u.part p).reqs, e.2.recorded = true ∨ e ∈ (s.part p).reqs ∧ e.1 ≠ r

theorem Records.andThen {p r : Nat} {s t u : State} (h : Records p r s t) (k : NoneAdded p t u) : Records p r s u :=
  fun e he => h e (k e he)

theorem Records.after {p r : Nat} {s t u : State} (h : NoneAdded p s t) (k : Records p r t u) : Records p r s u :=
  fun e he => (k e he).imp id fun ⟨hmem, hne⟩ => ⟨h e hmem, hne⟩

variable {p}

theorem ne_of_mfind_none {α : Type} {m : SMap α} {k : Nat} (h : mfind m k = none) {e : Nat × α} (he : e ∈ m) : e.1 ≠ k := by
  induction m with
  | nil => cases he
  | cons a m ih =>
    obtain ⟨k', v⟩ := a
    rw [mfind] at h
    split at h
    · cases h
    · rename_i hne
      rcases List.mem_cons.mp he with rfl | he
      · exact hne
      · exact ih h he

theorem records_of_absent {r : Nat} (h : s.req p r = none) : Records p r s s := fun _ he => .inr ⟨he, ne_of_mfind_none h he⟩

theorem mem_mdel {α : Type} {m : SMap α} {k : Nat} {e : Nat × α} (h : e ∈ mdel m k) : e ∈ m ∧ e.1 ≠ k := by
  induction m with
  | nil => cases h
  | cons a m ih =>
    obtain ⟨k', v⟩ := a
    rw [mdel] at h
    split at h
    · exact ⟨List.mem_cons_of_mem _ (ih h).1, (ih h).2⟩
    · rename_i hne
      rcases List.mem_cons.mp h with rfl | h
      · exact ⟨List.mem_cons_self, hne⟩
      · exact ⟨List.mem_cons_of_mem _ (ih h).1, (ih h).2⟩

theorem mem_mput {α : Type} {m : SMap α} {k : Nat} {v : α} {e : Nat × α} (h : e ∈ mput m k v) :
    e = (k, v) ∨ e ∈ m ∧ e.1 ≠ k := by
  exact (mem_minsert _ _ _ e h).imp id mem_mdel

/-- A request that is changed is the one of its number; the others are as they were. -/
theorem State.modReq_reqs {r : Nat} {f : Request → Request} {e : Nat × Request} (he : e ∈ ((s.modReq p r f).part p).reqs) :
    (∃ x, e.2 = f x) ∨ e ∈ (s.part p).reqs ∧ e.1 ≠ r := by
  unfold State.modReq at he
  split at he
  · rename_i hnone
    exact .inr ⟨he, ne_of_mfind_none hnone he⟩
  · rw [State.part_modPart_same] at he
    exact (mem_mput he).imp (fun h => ⟨_, congrArg Prod.snd h⟩) id

theorem State.modReq_others {r : Nat} (f : Request → Request) {u : State} (h : Records p r (s.modReq p r f) u) :
    Records p r s u := fun e he => (h e he).imp id fun ⟨hmem, hne⟩ => by
  refine ⟨?_, hne⟩
  unfold State.modReq at hmem
  split at hmem
  · exact hmem
  · rw [State.part_modPart_same] at hmem
    exact ((mem_mput hmem).resolve_left fun heq => hne (congrArg Prod.fst heq)).1

/-- What a request holds of its partition is given up. -/
def requestOut (r : Nat) (P : Partition) : Partition :=
  { P with slots := P.slots.filter (fun u => u.req != r), views := P.views.filter (fun v => v.req != r),
           tokens := P.tokens.filter (fun a => a.req != r), contribs := P.contribs.filter (fun c => c.req != r),
           merged := P.merged.filter (fun c => c.req != r), walkDue := P.walkDue.filter (fun d => d.req != r) }

theorem State.endJob_addsNone (r group : Nat) : NoneAdded p s (s.endJob p r group) := .modPart fun _ => rfl

theorem State.jobEnded_addsNone (r : Nat) (j : PrefixJob) :
    NoneAdded p s ((s.endJob p r j.group).dropNode p j.node) :=
  (s.endJob_addsNone r j.group).trans (State.dropNode_addsNone p j.node)

theorem State.freeRequest_records (r : Nat) : Records p r s (s.freeRequest p r) := by
  unfold State.freeRequest
  split
  · rename_i hnone
    exact records_of_absent hnone
  · rename_i x _
    have hjobs := NoneAdded.forEach (p := p) (f := fun (j : PrefixJob) s => (s.endJob p r j.group).dropNode p j.node)
      (fun j t => t.jobEnded_addsNone r j)
      (((s.releaseNodes p x.nodes).part p).jobs.filter (fun j => j.req == r)) (s.releaseNodes p x.nodes)
    have hout (t : State) : NoneAdded p t (t.modPart p (requestOut r)) := .modPart fun _ => rfl
    have hrecorded (t : State) : Records p r t (t.modReq p r
        (fun x => { x with recorded := true, kv := [], frames := [], nodes := [] })) :=
      fun e he => (State.modReq_reqs he).imp (fun ⟨y, hy⟩ => by rw [hy]) id
    have hcancels (t : State) := NoneAdded.forEach (p := p) (f := fun (c : Nat × Nat) s => s.answer p c.1 0 0 c.2)
      (fun c t => t.answer_addsNone p c.1 0 0 c.2) x.cancels t
    exact ((((hrecorded _).after (((s.releaseNodes_addsNone p x.nodes).trans hjobs).trans (hout _))).andThen
      (.of_frees (State.onlyFrees_postRecord _ p _))).andThen (hcancels _)).andThen (.of_parts (State.countServing_parts _ p))

theorem State.refuseReq_records (r code detail : Nat) : Records p r s (s.refuseReq p r code detail) := by
  unfold State.refuseReq
  split
  · rename_i hnone
    exact records_of_absent hnone
  · rename_i x _
    have hgone (t : State) : Records p r t (t.modPart p (fun P => { P with reqs := mdel P.reqs r })) := fun e he => by
      rw [State.part_modPart_same] at he
      exact .inr (mem_mdel he)
    have hcounted (t : State) : NoneAdded p t (if code = 0x0102 then t.odAdd 0x5000 0xC 1
        else if code = 0x0103 then t.odAdd 0x5000 0xD 1 else t) := by
      split
      · exact .of_parts rfl
      · split
        · exact .of_parts rfl
        · exact .refl p t
    exact ((((hgone _).after (s.releaseNodes_addsNone p x.nodes)).andThen (hcounted _)).andThen
      (State.answer_addsNone p _ _ _ _)).andThen (.of_parts (State.countServing_parts _ p))

/-! ### The requests that a partition held -/

/-- A pass over entries leaves each request recorded, or an unrecorded entry of its number still to come. -/
theorem State.forEach_records {f : Nat × Request → State → State}
    (hf : ∀ e t, (e.2.recorded = true → f e t = t) ∧ (e.2.recorded = false → Records p e.1 t (f e t))) (l : SMap Request)
    (s : State) (hs : ∀ e ∈ (s.part p).reqs, e.2.recorded = true ∨ ∃ a ∈ l, a.1 = e.1 ∧ a.2.recorded = false) :
    ∀ e ∈ ((s.forEach l f).part p).reqs, e.2.recorded = true := by
  induction l generalizing s with
  | nil => exact fun e he => (hs e he).resolve_right fun ⟨_, h, _⟩ => List.not_mem_nil h
  | cons a l ih =>
    refine ih (f a s) fun e he => ?_
    obtain ⟨hsame, hrecords⟩ := hf a s
    cases ha : a.2.recorded with
    | true =>
      rw [hsame ha] at he
      refine (hs e he).imp id fun ⟨b, hb, hkey, hopen⟩ => ⟨b, (List.mem_cons.mp hb).resolve_left fun hba => ?_, hkey, hopen⟩
      rw [hba, ha] at hopen
      cases hopen
    | false =>
      refine (hrecords ha e he).elim .inl fun ⟨hmem, hne⟩ => (hs e hmem).imp id fun ⟨b, hb, hkey, hopen⟩ =>
        ⟨b, (List.mem_cons.mp hb).resolve_left fun hba => ?_, hkey, hopen⟩
      exact hne (hkey.symm.trans (congrArg Prod.fst hba))

/-- No request that a partition holds is left without its record (R319). -/
theorem State.endHeld_records (code cancelCode : Nat) :
    ∀ e ∈ ((s.endHeld p code cancelCode).part p).reqs, e.2.recorded = true := by
  have hpass := State.forEach_records (p := p) (s := s) (l := (s.part p).reqs)
    (f := fun e s => if e.2.recorded then s else if e.2.st = .admitting then s.refuseReq p e.1 code 0
      else ((s.endRequest p e.1 code 3 0).modReq p e.1 (fun x : Request =>
        { x with out := 0, kv := x.kv.map (fun k => (k.1, { k.2 with inflight := false })) })).freeRequest p e.1)
    (fun e t => ⟨fun h => if_pos h, fun h => ?_⟩) (fun e he => ?_)
  · intro e he
    refine hpass e ?_
    have hcancels (t : State) : NoneAdded p t (t.modPart p (fun P => { P with cancels := [], endCode := 0 })) :=
      .modPart fun _ => rfl
    exact ((hcancels _).trans (.forEach (fun d t => t.answer_addsNone p _ _ _ _) _ _)) e he
  · rw [if_neg (by simp [h])]
    split
    · exact t.refuseReq_records _ _ _
    · exact State.modReq_others _ (State.modReq_others _ (State.freeRequest_records _))
  · cases h : e.2.recorded with
    | true => exact .inl rfl
    | false => exact .inr ⟨e, he, rfl, h⟩

/-- A serving partition that faults is in state 2 with its requests ended and no program released. -/
theorem State.faultPart_holds (hp : p < 32) (code : Nat) (hstate : s.partState p = 1) (hcmd : (s.part p).cmd = .none)
    (hhalt : s.odP 0x7000 7 p = 0) :
    (s.faultPart p code).partState p = 2 ∧ (∀ e ∈ ((s.faultPart p code).part p).reqs, e.2.recorded = true) ∧
      programReleased ((s.faultPart p code).part p) = false := by
  have hended := (s.odSet 0x4002 (p + 1) 2).endHeld_within hp code 0x0109
  have hrecords := State.endHeld_records (s := s.odSet 0x4002 (p + 1) 2) (p := p) code 0x0109
  have hfault : s.faultPart p code = (((s.odSet 0x4002 (p + 1) 2).endHeld p code 0x0109).stopServing p).log
      { rule := 351, status := code, sev := 2, part := p } := by
    unfold State.faultPart
    rw [if_neg (by simp [hstate]), hcmd]
    dsimp only
    simp only [Bool.false_eq_true, if_false]
    rw [if_pos]
    exact (hended.od (by decide) (by decide) (by decide) (by omega)).trans
      ((State.odP_odSetP_ne _ (.inl (by decide)) (by decide) (by omega) (by omega) (by decide)).trans hhalt)
  rw [hfault]
  have hlogged := State.log_within (((s.odSet 0x4002 (p + 1) 2).endHeld p code 0x0109).stopServing p)
    { rule := 351, status := code, sev := 2, part := p }
  generalize (s.odSet 0x4002 (p + 1) 2).endHeld p code 0x0109 = z at hended hrecords hlogged
  refine ⟨?_, ?_, ?_⟩
  · exact (hlogged.odG (idx := 0x4002) (hsub := by omega)).trans
      ((hended.odG (hsub := by omega)).trans (State.odG_odSet_same _ _ _ _))
  · rw [hlogged.part, State.stopServing, State.part_modPart_same]
    exact hrecords
  · rw [hlogged.part, State.stopServing, State.part_modPart_same]
    unfold programReleased
    cases (z.part p).program <;> rfl

end requests

end Sys2Proof.Machine
end

section
/-!
SUPPORT. Fuses, phases, the switch-on of a field, plane limits, the grant and Stiles (R316–R322, R335), and the obligation
O47.
-/

-- One proof after another: side conditions of frames are default arguments, and proofs elaborated at once would each wait
-- for the kernel in a thread of their own, past the memory limit.
set_option Elab.async false

namespace Sys2Proof.Machine

section field

variable {s : State} {f : Nat}

/-! ### Fuse trips -/

theorem noEffect_fuseTrip (hf : f < 64) (h0 : s.fieldState f ≠ 0) (h2 : s.fieldState f ≠ 2) (h6 : s.fieldState f ≠ 6) :
    NoEffect (.fuseTrip f) s := guardRes_next (decide_eq_true hf) (if_pos ⟨h0, h2, h6⟩)

/-- The field trips within a second of its re-arming. -/
def Field.tripsAgain (x : Field) (now : Nat) : Bool :=
  match x.rearmedAt with
  | none => false
  | some t => decide (now ≤ t + 1300000000)

/-- The trip is counted, and the field's sequence is over. -/
def State.tripCounted (s : State) (f : Nat) : State :=
  (s.odAdd 0x2100 6 1).modField f (fun x => { x with cycling := false, rearming := false, rearmedAt := none })

theorem exec_fuseTrip (hf : f < 64) (hst : s.fieldState f = 0 ∨ s.fieldState f = 2 ∨ s.fieldState f = 6) {again : Bool}
    (hagain : (s.field f).tripsAgain s.clkTime = again) : exec (.fuseTrip f) s = .next
      (let u := ((s.tripCounted f).fieldFalls f (if again then 5 else 4) 0x0902 .trip).fieldCmdField f
        (if again then 0x0901 else 0x0902)
       if again then u.odSet 0x7100 3 0x0901 else u) := by
  subst hagain
  exact guardRes_next (decide_eq_true hf) (if_neg (by omega))

/-! ### Phase failures -/

/-- The failed phase is in the mask, counted and logged. -/
def State.phaseNoted (s : State) (f : Nat) (rail : Rail) (ph : Nat) (kind : PhaseKind) : State :=
  ((s.odSet 0x2103 (f + 1) (setBit (s.odG 0x2103 (f + 1)) (railBase rail + ph) true)).odAdd 0x2100 7 1).log
    { rule := 317, sev := 1, source := 1, field := f, data := [railBase rail, ph, if kind = .opened then 0 else 1] }

theorem State.phaseNoted_holds (hf : f < 64) (rail : Rail) (ph : Nat) (kind : PhaseKind) :
    (s.phaseNoted f rail ph kind).odG 0x2103 (f + 1) = setBit (s.odG 0x2103 (f + 1)) (railBase rail + ph) true ∧
      (s.phaseNoted f rail ph kind).odG 0x2100 7 = s.odG 0x2100 7 + 1 ∧
      (s.phaseNoted f rail ph kind).fieldState f = s.fieldState f ∧ (s.phaseNoted f rail ph kind).parts = s.parts := by
  have hlog := fun u : State => u.log_within
    { rule := 317, sev := 1, source := 1, field := f, data := [railBase rail, ph, if kind = .opened then 0 else 1] }
  refine ⟨?_, ?_, ?_, (hlog _).parts (by decide)⟩
  · exact ((hlog _).odG (hsub := by omega)).trans
      ((State.odG_odAdd_ne _ (.inl (by decide)) (by omega) (by decide)).trans (State.odG_odSet_same _ _ _ _))
  · refine (hlog _).odG.trans ((State.odG_odAdd_same _ _ _ _).trans (congrArg (· + 1) ?_))
    exact State.odG_odSet_ne _ (.inl (by decide)) (by decide) (by omega)
  · exact ((hlog _).odG (idx := 0x2101) (hsub := by omega)).trans
      ((State.odG_odAdd_ne _ (.inl (by decide)) (by omega) (by decide)).trans
        (State.odG_odSet_ne _ (.inl (by decide)) (by omega) (by omega)))

section phase

variable (hf : f < 64) {rail : Rail} {ph : Nat} (hph : phaseOk rail ph = true) (kind : PhaseKind)
include hf hph

theorem wf_phaseFailure : Instr.wf (.phaseFailure f rail ph kind) = true := by
  simp only [Instr.wf, fieldOk, hf, hph, decide_true, Bool.and_self]

theorem noEffect_phaseFailure
    (h : (s.fieldState f ≠ 0 ∧ s.fieldState f ≠ 6) ∨ bit (s.odG 0x2103 (f + 1)) (railBase rail + ph) = true) :
    NoEffect (.phaseFailure f rail ph kind) s := guardRes_next (wf_phaseFailure hf hph kind) (if_pos h)

variable (hst : s.fieldState f = 0 ∨ s.fieldState f = 6) (hnew : bit (s.odG 0x2103 (f + 1)) (railBase rail + ph) = false)
include hst hnew

theorem exec_phaseFailure : exec (.phaseFailure f rail ph kind) s = .next
    (if phasesFatal (setBit (s.odG 0x2103 (f + 1)) (railBase rail + ph) true) then (s.phaseNoted f rail ph kind).phaseOff f
     else s.phaseNoted f rail ph kind) := by
  refine guardRes_next (wf_phaseFailure hf hph kind) (if_neg ?_)
  rw [hnew]
  rintro (⟨h0, h6⟩ | h)
  · exact hst.elim h0 h6
  · cases h

end phase

/-- A fault of the owner leaves the state of the field. -/
theorem State.faultOwner_fieldState (hf : f < 64) (g code : Nat) : (s.faultOwner g code).fieldState f = s.fieldState f :=
  (s.faultOwner_within g code).odG (hsub := by omega)

theorem State.phaseOff_eq (hf : f < 64) :
    (Host.Outcome.next (s.phaseOff f) : Res) = (let w := (s.faultOwner f 0x0903).log (LogArgs.mk 318 0x0903 2 1 f 0xFF [])
      if w.fieldState f = 6 then
        .next ((w.modField f (fun x => { x with offDue := some .phase, cycling := false })).fieldCmdField f 0x0903)
      else .next (w.planOff f .phase)) := by
  have hsame : ((s.faultOwner f 0x0903).log (LogArgs.mk 318 0x0903 2 1 f 0xFF [])).fieldState f = s.fieldState f :=
    ((State.log_within _ _).odG (idx := 0x2101) (hsub := by omega)).trans (State.faultOwner_fieldState hf f 0x0903)
  dsimp only
  rw [hsame]
  unfold State.phaseOff
  split <;> rfl

/-! ### The switch-on of a field (R322) -/

/-- The mask of the phases that failed the self-test. -/
def testMask (failed : List Nat) : Nat :=
  ((failed.filter (fun i => decide (i < 48))).eraseDups).foldl (fun m i => setBit m i true) 0

theorem State.phaseTest_mask (hf : f < 64) (failed : List Nat) : (s.phaseTest f failed).odG 0x2103 (f + 1) = testMask failed := by
  unfold State.phaseTest
  refine Eq.trans ?_ (s.odG_odSet_same 0x2103 (f + 1) _)
  refine Within.odG (cs := []) (ods := [0x2100]) (.forEach _ (fun i t => ?_) _) (hsub := by omega)
  exact (t.odAdd_within 1).andThen (State.log_within _ _)

/-- The self-test counts no fuse trip. -/
theorem State.phaseTest_fuses (s : State) (hf : f < 64) (failed : List Nat) :
    (s.phaseTest f failed).odG 0x2100 6 = s.odG 0x2100 6 := by
  unfold State.phaseTest
  refine (State.forEach_view (fun u : State => u.odG 0x2100 6) (fun i _ t => ?_) _).trans
    (State.odG_odSet_ne _ (.inl (by decide)) (by decide) (by omega))
  exact (State.log_within _ _).odG.trans (State.odG_odAdd_ne _ (.inr (by decide)) (by decide) (by decide))

theorem bit_testMask {failed : List Nat} {i : Nat} (hi : i < 48) : bit (testMask failed) i = true ↔ i ∈ failed := by
  unfold testMask
  rw [bit_foldl_setBit]
  simp [bit, hi, List.mem_eraseDups]

theorem testMask_nil : testMask [] = 0 := rfl

section switchOn

variable (hf : f < 64) {env : SwitchOnEnv}
include hf

theorem noEffect_switchOn (h : s.hub.powered = false ∨ s.nextOn f = false ∨ s.fieldState f = 0) :
    NoEffect (.fieldSwitchOn f env) s := by
  refine guardRes_next (decide_eq_true hf) (if_pos ?_)
  rcases h with h | h | h
  · simp [h]
  · simp [h]
  · simp [h]

variable (hpowered : s.hub.powered = true) (hnext : s.nextOn f = true) (hst : s.fieldState f ≠ 0)
include hpowered hnext hst

theorem exec_switchOn_waits (hdraw : 3910 ≤ env.planeDraw) : exec (.fieldSwitchOn f env) s = .next (s.odSet 0x2101 (f + 1) 3) :=
  guardRes_next (decide_eq_true hf) ((if_neg (by simp [hpowered, hnext, hst])).trans (if_pos hdraw))

theorem answers_switchOn (hdraw : env.planeDraw < 3910) (hrails : env.railsOk = true) (hfuse : env.fuseTripped = false)
    (hfatal : phasesFatal (testMask env.failedPhases) = false) : Answers (.fieldSwitchOn f env) s (fun u =>
      u.fieldState f = 2 ∧ u.odG 0x2103 (f + 1) = testMask env.failedPhases ∧
      (u.field f).rearming = ((s.field f).why == OffCause.trip) ∧ u.tiles = s.tiles ∧ u.parts = s.parts) := by
  have htest := s.phaseTest_within hf env.failedPhases
  have hmask := State.phaseTest_mask (s := s) hf env.failedPhases
  have hexec : exec (.fieldSwitchOn f env) s = .next (((s.phaseTest f env.failedPhases).odSet 0x2101 (f + 1) 2).modField f
      (fun x => { x with rearming := x.why == OffCause.trip })) := by
    refine guardRes_next (decide_eq_true hf) ((if_neg (by simp [hpowered, hnext, hst])).trans
      ((if_neg (by omega)).trans ?_))
    simp only [hfuse, Bool.false_eq_true, if_false, hmask, hrails, hfatal, Bool.not_true, Bool.or_self]
  generalize s.phaseTest f env.failedPhases = z at hexec htest hmask
  refine answers_next hexec ⟨State.odG_odSet_same _ _ _ _, ?_, ?_, htest.tiles (by decide), htest.parts (by decide)⟩
  · exact (State.odG_odSet_ne z (.inl (by decide)) (by omega) (by omega)).trans hmask
  · rw [State.field_modField_same]
    exact congrArg (fun x : Field => x.why == OffCause.trip) (htest.field f)

/-- The attempt has failed: the field is left off, out of the queue, and the failure is logged. -/
def State.leftOff (s : State) (f : Nat) : State :=
  (((s.odSet 0x2101 (f + 1) 1).leaveQueue f).modField f (fun x => { x with cycling := false, rearming := false })).log
    { rule := 322, status := 0x0904, sev := 2, source := 1, field := f }

omit hpowered hnext hst in
theorem State.leftOff_holds : (s.leftOff f).fieldState f = 1 ∧ f ∉ (s.leftOff f).power.switchQueue ∧
    ((s.leftOff f).field f).cycling = false ∧ (s.leftOff f).odG 0x2103 (f + 1) = s.odG 0x2103 (f + 1) ∧
    (s.leftOff f).odG 0x2100 6 = s.odG 0x2100 6 ∧ (s.leftOff f).hub.fieldsDue = s.hub.fieldsDue := by
  unfold State.leftOff
  generalize hz : ((s.odSet 0x2101 (f + 1) 1).leaveQueue f).modField f (fun x => { x with cycling := false, rearming := false }) = z
  have hlog := z.log_within { rule := 322, status := 0x0904, sev := 2, source := 1, field := f }
  have hod : ∀ idx sub, z.odG idx sub = (s.odSet 0x2101 (f + 1) 1).odG idx sub := fun idx sub => by
    rw [← hz, State.odG_modField]
    rfl
  have hqueue : z.power.switchQueue = s.power.switchQueue.filter (· != f) := by
    rw [← hz]
    rfl
  have hfield : (z.field f).cycling = false := by
    rw [← hz, State.field_modField_same]
  have hdue : z.hub.fieldsDue = s.hub.fieldsDue := by
    rw [← hz]
    rfl
  refine ⟨?_, ?_, ?_, ?_, ?_, (State.log_fieldsDue _ _).trans hdue⟩
  · exact (hlog.odG (idx := 0x2101) (hsub := by omega)).trans ((hod _ _).trans (s.odG_odSet_same _ _ _))
  · rw [hlog.power (by decide), hqueue]
    exact fun h => absurd (List.mem_filter.mp h).2 (by simp)
  · rw [hlog.field, hfield]
  · rw [hlog.odG (hsub := by omega), hod, s.odG_odSet_ne (.inl (by decide)) (by omega) (by omega)]
  · rw [hlog.odG, hod, s.odG_odSet_ne (.inl (by decide)) (by omega) (by omega)]

theorem answers_switchOn_fails (hdraw : env.planeDraw < 3910)
    (hbad : env.railsOk = false ∨ env.fuseTripped = true ∨ phasesFatal (testMask env.failedPhases) = true)
    (hdue : bit s.hub.fieldsDue f = false) : Answers (.fieldSwitchOn f env) s (fun u =>
      u.fieldState f = 1 ∧ f ∉ u.power.switchQueue ∧ (u.field f).cycling = false ∧
      u.odG 0x2103 (f + 1) = testMask env.failedPhases ∧
      u.odG 0x2100 6 = s.odG 0x2100 6 + (if env.fuseTripped then 1 else 0)) := by
  have hfused : Within [] [0x2100] s (if env.fuseTripped then s.odAdd 0x2100 6 1 else s) :=
    .ite (fun _ => s.odAdd_within 1) (fun _ => .refl s)
  have hcount : (if env.fuseTripped then s.odAdd 0x2100 6 1 else s).odG 0x2100 6 =
      s.odG 0x2100 6 + (if env.fuseTripped then 1 else 0) := by
    split
    · exact s.odG_odAdd_same 0x2100 6 1
    · rfl
  have hexec : exec (.fieldSwitchOn f env) s = .next
      ((((if env.fuseTripped then s.odAdd 0x2100 6 1 else s).phaseTest f env.failedPhases).leftOff f).fieldCmdField f 0x0904) := by
    refine guardRes_next (decide_eq_true hf) ((if_neg (by simp [hpowered, hnext, hst])).trans
      ((if_neg (by omega)).trans (if_pos ?_)))
    rw [State.phaseTest_mask hf]
    rcases hbad with h | h | h <;> simp [h]
  generalize (if env.fuseTripped then s.odAdd 0x2100 6 1 else s) = v at hexec hfused hcount
  have htest := v.phaseTest_within hf env.failedPhases
  have hmask := State.phaseTest_mask (s := v) hf env.failedPhases
  have hfuses := v.phaseTest_fuses hf env.failedPhases
  generalize v.phaseTest f env.failedPhases = z at hexec htest hmask hfuses
  obtain ⟨hoff, hqueue, hcycling, hkept, htrips, hfields⟩ := State.leftOff_holds (s := z) hf
  have hz : (z.leftOff f).fieldCmdField f 0x0904 = z.leftOff f := by
    have hclear : bit (z.leftOff f).hub.fieldsDue f = false := by
      have hwithin : Within [] [0x2100, 0x2103] s z := hfused.mono.andThen htest
      obtain ⟨_, _, _, hhub⟩ := hwithin.hub (by decide) (by decide)
      rw [hfields, hhub]
      exact hdue
    unfold State.fieldCmdField
    rw [if_pos (by rw [hclear]; rfl)]
  rw [hz] at hexec
  exact answers_next hexec ⟨hoff, hqueue, hcycling, hkept.trans hmask, htrips.trans (hfuses.trans hcount)⟩

end switchOn

end field

/-! ### Plane limits (R321, R340) -/

/-- A field of which stage 1 begins: its caps and its record, before its tiles hear of it. -/
def State.throttleBegun (f : Nat) (s : State) : State :=
  ((s.odSet 0x2305 (f + 1) 1).odSet 0x2302 (f + 1) 36).modField f (fun x => { x with rimHalved := perimeter f, warming := false })

theorem State.enterThrottle_eq (s : State) (f : Nat) : s.enterThrottle f =
    if !s.fieldOn f || !(s.odG 0x2305 (f + 1) == 0 || s.odG 0x2305 (f + 1) == 5) then s
    else (s.throttleBegun f).setGrant f ((s.throttleBegun f).budget f) := rfl

/-- A field over its plane's limit. -/
def State.planeExceeded (f : Nat) (s : State) : State := s.modField f (fun x => { x with planeOver := true })

/-- A field enters stage 1 for its plane. -/
def State.planeThrottled (f : Nat) (s : State) : State := (s.planeExceeded f).enterThrottle f

section plane

variable {s : State} {f : Nat}

theorem State.throttleBegun_planeOver : ((s.throttleBegun f).field f).planeOver = (s.field f).planeOver := by
  unfold State.throttleBegun
  rw [State.field_modField_same]
  rfl

theorem State.planeExceeded_planeOver : ((s.planeExceeded f).field f).planeOver = true := by
  rw [State.planeExceeded, State.field_modField_same]

theorem State.throttleBegun_field {g : Nat} (hne : g ≠ f) : (s.throttleBegun f).field g = s.field g :=
  (State.field_modField _ _ _ _).trans (if_neg hne)

theorem State.planeExceeded_field {g : Nat} (hne : g ≠ f) : (s.planeExceeded f).field g = s.field g :=
  (State.field_modField _ _ _ _).trans (if_neg hne)

variable (hf : f < 64)
include hf

theorem State.throttleBegun_stage : (s.throttleBegun f).odG 0x2305 (f + 1) = 1 ∧ (s.throttleBegun f).odG 0x2302 (f + 1) = 36 := by
  unfold State.throttleBegun
  rw [State.odG_modField, State.odG_modField, State.odG_odSet_same,
    State.odG_odSet_ne _ (.inl (by decide)) (by omega) (by omega), State.odG_odSet_same]
  exact ⟨rfl, rfl⟩

theorem State.throttleBegun_odG {g idx : Nat} (hg : g < 64) (hne : g ≠ f) :
    (s.throttleBegun f).odG idx (g + 1) = s.odG idx (g + 1) := by
  unfold State.throttleBegun
  rw [State.odG_modField, State.odG_odSet_ne _ (.inr (by omega)) (by omega) (by omega),
    State.odG_odSet_ne _ (.inr (by omega)) (by omega) (by omega)]

/-- Entering stage 1 leaves the entries and the table entry of every other field. -/
theorem State.planeThrottled_other {g : Nat} (hg : g < 64) (hne : g ≠ f) :
    (s.planeThrottled f).field g = s.field g ∧
      ∀ idx, idx ≠ 0x2107 → idx ≠ 0x1110 → (s.planeThrottled f).odG idx (g + 1) = s.odG idx (g + 1) := by
  rw [State.planeThrottled, State.enterThrottle_eq]
  split
  · exact ⟨State.planeExceeded_field hne, fun _ _ _ => rfl⟩
  · have hgrant := ((s.planeExceeded f).throttleBegun f).setGrant_within hf (((s.planeExceeded f).throttleBegun f).budget f)
    exact ⟨(hgrant.field g).trans ((State.throttleBegun_field hne).trans (State.planeExceeded_field hne)), fun idx hidx hlog =>
      (hgrant.odG (by simpa using hidx) hlog (by omega)).trans (State.throttleBegun_odG hf hg hne)⟩

/-- A field that is on is over its plane's limit, and in stage 1 where it was in none. -/
theorem State.planeThrottled_self (hon : s.fieldState f = 0) : ((s.planeThrottled f).field f).planeOver = true ∧
    (s.odG 0x2305 (f + 1) = 0 ∨ s.odG 0x2305 (f + 1) = 5 →
      (s.planeThrottled f).odG 0x2305 (f + 1) = 1 ∧ (s.planeThrottled f).odG 0x2302 (f + 1) = 36) := by
  rw [State.planeThrottled, State.enterThrottle_eq]
  split
  · rename_i hskip
    refine ⟨State.planeExceeded_planeOver, fun hstage => absurd hskip ?_⟩
    have hon' : (s.planeExceeded f).fieldOn f = true := beq_iff_eq.mpr hon
    have hsame : (s.planeExceeded f).odG 0x2305 (f + 1) = s.odG 0x2305 (f + 1) := rfl
    rw [hon', hsame]
    rcases hstage with h | h <;> simp [h]
  · have hgrant := ((s.planeExceeded f).throttleBegun f).setGrant_within hf (((s.planeExceeded f).throttleBegun f).budget f)
    obtain ⟨hstage, hcap⟩ := State.throttleBegun_stage (s := s.planeExceeded f) hf
    refine ⟨?_, fun _ => ⟨(hgrant.odG (hsub := by omega)).trans hstage, (hgrant.odG (hsub := by omega)).trans hcap⟩⟩
    rw [hgrant.field, State.throttleBegun_planeOver, State.planeExceeded_planeOver]

theorem answers_planeOvercurrent {plane : Nat} (hplane : plane < 16) (hmem : f ∈ planeFields plane) (hon : s.fieldState f = 0) :
    Answers (.planeOvercurrent plane) s (fun u => (u.field f).planeOver = true ∧
      (s.odG 0x2305 (f + 1) = 0 ∨ s.odG 0x2305 (f + 1) = 5 → u.odG 0x2305 (f + 1) = 1 ∧ u.odG 0x2302 (f + 1) = 36) ∧
      ∀ g, g < 64 → g ∉ planeFields plane → u.odG 0x2305 (g + 1) = s.odG 0x2305 (g + 1)) := by
  have hlt : ∀ {g : Nat}, g ∈ (planeFields plane).filter (fun g => s.fieldOn g) → g < 64 := fun hg =>
    allFields_lt (List.mem_of_mem_filter (List.mem_of_mem_filter hg))
  have hnodup : ((planeFields plane).filter (fun g => s.fieldOn g)).Nodup := (List.nodup_range.filter _).filter _
  have hin : f ∈ (planeFields plane).filter (fun g => s.fieldOn g) := List.mem_filter.mpr ⟨hmem, beq_iff_eq.mpr hon⟩
  refine answers_next (u := s.forEach ((planeFields plane).filter (fun g => s.fieldOn g)) State.planeThrottled)
    (guardRes_next (decide_eq_true hplane) rfl) ?_
  obtain ⟨t, ht, hu⟩ := State.forEach_once
    (fun u : State => (u.field f, u.odG 0x2305 (f + 1), u.odG 0x2302 (f + 1), u.fieldState f))
    (h := State.planeThrottled) hin hnodup (fun g hg hne u => by
      obtain ⟨hfield, hod⟩ := State.planeThrottled_other (s := u) (hlt hg) hf (Ne.symm hne)
      have hstate := hod 0x2101 (by decide) (by decide)
      simp only [State.fieldState, hfield, hstate, hod 0x2305 (by decide) (by decide), hod 0x2302 (by decide) (by decide)]) s
  simp only [Prod.mk.injEq] at ht hu
  obtain ⟨hfield, hstage, hcap, hstate⟩ := ht
  obtain ⟨hfield', hstage', hcap', -⟩ := hu
  obtain ⟨hover, hthrottle⟩ := State.planeThrottled_self (s := t) hf (hstate.trans hon)
  refine ⟨by rw [hfield']; exact hover, fun h => ?_, fun g hg hnot => ?_⟩
  · rw [hstage', hcap']
    exact hthrottle (by rwa [hstage])
  · exact State.forEach_view (fun u : State => u.odG 0x2305 (g + 1)) (fun k hk u =>
      (State.planeThrottled_other (hlt hk) hg (fun e => hnot (e ▸ List.mem_of_mem_filter hk))).2 0x2305 (by decide) (by decide)) s

end plane

/-! ### The grant (R321, R338) -/

theorem State.thermalLimit_within (s : State) (coolant : Option (Int × Int × Nat)) :
    Within [.hub, .power] [0x2300] s (s.thermalLimit coolant) := by
  unfold State.thermalLimit
  split
  · exact .ite (fun _ => (within_hub s _).mono.andThen (State.odSet_within _ _)) (fun _ => (within_hub s _).mono)
  · rename_i x _
    have hread (k : Hub) (p : Power) : Within [.hub, .power] [0x2300] s { s with hub := k, power := p } :=
      (within_hub s k).mono.andThen (within_power _ p)
    exact .ite (fun _ => .ite (fun _ => hread _ _) (fun _ => (hread _ _).andThen (State.odSet_within _ _)))
      (fun _ => (hread _ _).andThen (State.odSet_within _ _))

theorem State.thermalLimit_coolant (s : State) (coolant : Option (Int × Int × Nat)) :
    (s.thermalLimit coolant).hub.coolant = coolant := by
  unfold State.thermalLimit
  split
  · dsimp only
    split <;> rfl
  · dsimp only
    split
    · split <;> rfl
    · rfl

section grant

variable {s : State} {f : Nat} (hf : f < 64)

/-- The budget that a grant period gives a field. -/
def State.budgetOf (s : State) (env : GrantEnv) (f : Nat) : Nat :=
  (((s.budgets env).find? (fun e => e.1 == f)).map (fun e => e.2)).getD 0

theorem noEffect_grantPeriod (env : GrantEnv) (h : s.hub.away = true ∨ s.hub.powered = false) : NoEffect (.grantPeriod env) s :=
  guardRes_next rfl (if_pos (by rcases h with h | h <;> simp [h]))

include hf

theorem answers_grantPeriod (env : GrantEnv) (haway : s.hub.away = false) (hpowered : s.hub.powered = true) :
    Answers (.grantPeriod env) s (fun u =>
      u.odG 0x2107 (f + 1) = (if s.fieldState f = 0 then
        min ((s.thermalLimit env.coolant).budgetOf env f) 65535 + s.odG 0x2107 (f + 1) / 65536 * 65536
        else s.odG 0x2107 (f + 1)) ∧
      u.tiles = s.tiles ∧ u.hub.coolant = env.coolant) := by
  have hlimit := s.thermalLimit_within env.coolant
  have hcoolant := s.thermalLimit_coolant env.coolant
  generalize hz : s.thermalLimit env.coolant = z at hlimit hcoolant ⊢
  have hlt : ∀ {g : Nat}, g ∈ allFields.filter (fun f => z.fieldOn f) → g < 64 := fun hg =>
    allFields_lt (List.mem_of_mem_filter hg)
  have hset : Within [] [0x2107] z (z.forEach (allFields.filter (fun f => z.fieldOn f))
      (fun g t => t.setBudget g (z.budgetOf env g))) :=
    .forEach_mem _ (fun g hg t => t.odSet_within _ (by have := hlt hg; omega)) _
  have hshown : z.odG 0x2107 (f + 1) = s.odG 0x2107 (f + 1) := hlimit.odG (hsub := by omega)
  have hstate : z.fieldState f = s.fieldState f := hlimit.odG (hsub := by omega)
  have hother : ∀ g ∈ allFields.filter (fun f => z.fieldOn f), g ≠ f → ∀ t : State,
      (t.setBudget g (z.budgetOf env g)).odG 0x2107 (f + 1) = t.odG 0x2107 (f + 1) := fun g hg hne t =>
    State.odG_odSet_ne _ (.inr (by omega)) (by omega) (by have := hlt hg; omega)
  refine answers_next (u := z.forEach (allFields.filter (fun f => z.fieldOn f)) (fun g t => t.setBudget g (z.budgetOf env g)))
    (guardRes_next rfl ?_) ⟨?_, (hset.tiles (by decide)).trans (hlimit.tiles (by decide)), ?_⟩
  · rw [if_neg (by simp [haway, hpowered]), ← hz]
    rfl
  · rw [← hstate, ← hshown]
    split
    · rename_i hon
      have hin : f ∈ allFields.filter (fun f => z.fieldOn f) :=
        List.mem_filter.mpr ⟨List.mem_range.mpr hf, beq_iff_eq.mpr hon⟩
      have hnodup : (allFields.filter (fun f => z.fieldOn f)).Nodup := List.nodup_range.filter _
      obtain ⟨t, ht, hu⟩ := State.forEach_once (fun u : State => u.odG 0x2107 (f + 1)) hin hnodup hother z
      refine hu.trans ((State.odG_odSet_same _ _ _ _).trans ?_)
      rw [ht]
    · rename_i hoff
      refine State.forEach_view (fun u : State => u.odG 0x2107 (f + 1)) (fun g hg => hother g hg fun e => hoff ?_) z
      exact beq_iff_eq.mp (e ▸ (List.mem_filter.mp hg).2)
  · obtain ⟨_, _, _, hhub⟩ := hset.hub (by decide) (by decide)
    rw [hhub]
    exact hcoolant

/-! ### The field controller's tick -/

omit hf in
theorem fieldOfTile_of_mem {t : TileId} (h : t ∈ tilesOfField f) : fieldOfTile t = f := by
  obtain ⟨i, hi, k, hk, rfl⟩ : ∃ i < 20, ∃ k < 21, (⟨21 * (f % 8) + k, 20 * (f / 8) + i⟩ : TileId) = t := by
    simpa [tilesOfField] using h
  simp only [fieldOfTile]
  omega

theorem tileOk_of_mem {t : TileId} (h : t ∈ tilesOfField f) : tileOk t = true := by
  obtain ⟨i, hi, k, hk, rfl⟩ : ∃ i < 20, ∃ k < 21, (⟨21 * (f % 8) + k, 20 * (f / 8) + i⟩ : TileId) = t := by
    simpa [tilesOfField] using h
  simp only [tileOk, Bool.and_eq_true, decide_eq_true_eq]
  omega

/-- Setting the grant of a field leaves the tiles of the others. -/
theorem State.setGrant_tile_other (b : Nat) {t : TileId} (ht : tileOk t = true) (hne : fieldOfTile t ≠ f) :
    (s.setGrant f b).tile t = s.tile t := by
  have hkept : ∀ v ∈ tilesOfField f, ∀ u : State, (u.grantTile (s.fieldGrant f) v).tile t = u.tile t := fun v hv u => by
    have hvt : tkey t ≠ tkey v := fun e => hne ?_
    · unfold State.grantTile
      split
      · rfl
      · exact (u.tile_modTile v t _).trans (if_neg hvt)
    · rw [← fieldOfTile_of_mem hv, ← tileAt_tkey ht, e, tileAt_tkey (tileOk_of_mem hf hv)]
  have heq : s.setGrant f b = (s.forEach (tilesOfField f) (State.grantTile (s.fieldGrant f))).odSet 0x2107 (f + 1)
      (b % 65536 + s.fieldGrant f * 65536) := rfl
  have hforEach := State.forEach_view (fun u : State => u.tile t) hkept s
  rw [heq]
  generalize s.forEach (tilesOfField f) (State.grantTile (s.fieldGrant f)) = z at hforEach
  exact hforEach

theorem noEffect_grantTick (w : Nat) (hoff : s.fieldState f ≠ 0) : NoEffect (.fieldGrantTick f w) s := by
  have hnot : s.fieldOn f = false := beq_false_of_ne hoff
  exact guardRes_next (decide_eq_true hf) (if_pos (by simp [hnot]))

/-- The grant that the field controller comes to (R321). -/
def State.grantNext (s : State) (f w : Nat) : Nat :=
  if s.budget f < w then max ((s.field f).g - 4) 2
  else if w * 10 < 9 * s.budget f ∧ s.fieldQueued f = true then min ((s.field f).g + 4) 48 else (s.field f).g

theorem answers_grantTick (w : Nat) (hon : s.fieldState f = 0) : Answers (.fieldGrantTick f w) s (fun u =>
    (u.field f).g = (if s.odG 0x2107 (f + 1) % 65536 < w then max ((s.field f).g - 4) 2
      else if w * 10 < 9 * (s.odG 0x2107 (f + 1) % 65536) ∧ s.fieldQueued f = true then min ((s.field f).g + 4) 48
      else (s.field f).g) ∧
    (∀ t ∈ tilesOfField f, (u.tile t).cb.grant = u.fieldGrant f) ∧
    (∀ t, tileOk t = true → fieldOfTile t ≠ f → u.tile t = s.tile t)) := by
  have hfield : s.fieldOn f = true := beq_iff_eq.mpr hon
  have hexec : exec (.fieldGrantTick f w) s = .next
      ((s.modField f (fun x => { x with g := s.grantNext f w })).setGrant f (s.budget f)) :=
    guardRes_next (decide_eq_true hf) (if_neg (by simp [hfield]))
  have hg : ∀ n : Nat, ((s.modField f (fun x => { x with g := n })).field f).g = n := fun n => by rw [State.field_modField_same]
  have htile : ∀ (t : TileId) (h : Field → Field), (s.modField f h).tile t = s.tile t := fun t h => s.tile_modField f h t
  refine answers_next hexec ⟨?_, fun t ht => ?_, fun t ht hne => (State.setGrant_tile_other hf _ ht hne).trans (htile _ _)⟩
  · rw [State.field_of_fields (State.setGrant_fields _ _)]
    exact hg _
  · rw [State.setGrant_fieldGrant _ hf, State.setGrant_grant _ _ ht]

end grant

/-! ### Stiles (R332, R335) -/

section stiles

variable {s : State} {f : Nat}

/-- A Stile takes the better of two offers. -/
def betterOffer (b : Option (Nat × Nat)) (c : Nat × Nat) : Option (Nat × Nat) :=
  match b with
  | none => some c
  | some x => if c.2 < x.2 then some c else some x

/-- The offer taken is one of those made. -/
theorem mem_of_betterOffer {l : List (Nat × Nat)} {b : Option (Nat × Nat)} {x : Nat × Nat}
    (h : l.foldl betterOffer b = some x) : b = some x ∨ x ∈ l := by
  induction l generalizing b with
  | nil => exact .inl h
  | cons c l ih =>
    refine (ih h).elim (fun hc => ?_) fun hl => .inr (List.mem_cons_of_mem c hl)
    unfold betterOffer at hc
    split at hc
    · cases hc
      exact .inr List.mem_cons_self
    · split at hc
      · cases hc
        exact .inr List.mem_cons_self
      · exact .inl hc

/-- The offers of the neighbours come from the four directions. -/
theorem State.stileBest_lt {d : List (Option Nat)} {g : Nat} {x : Nat × Nat} (h : s.stileBest f d g = some x) : x.1 < 8 := by
  obtain hnone | hmem := mem_of_betterOffer (h : List.foldl betterOffer none _ = some x)
  · cases hnone
  · obtain ⟨k, hk, hx⟩ := List.mem_filterMap.mp hmem
    have hk8 : k < 8 := by
      simp only [List.mem_cons, List.not_mem_nil, or_false] at hk
      omega
    split at hx
    · cases hx
    · split at hx
      · cases hx
      · obtain ⟨n, -, rfl⟩ := Option.map_eq_some_iff.mp hx
        exact hk8

/-- A source is a direction, the hub or none. -/
theorem State.stileSelect_lt (g : Nat) : s.stileSelect f g < 8 := by
  unfold State.stileSelect
  split
  · cases hbest : s.stileBest f (s.stileAfter f) g with
    | none => decide
    | some x => exact State.stileBest_lt hbest
  · exact Nat.mod_lt _ (by decide)

theorem noEffect_stile (hf : f < 64) (h : s.hub.vstby = false) : NoEffect (.stileSourceFailure f) s :=
  guardRes_next (decide_eq_true hf) (if_pos (by simp [h]))

/-- The entries of the sources that have changed are written. -/
def State.stilesSet (s : State) (f : Nat) : State :=
  s.forEach ((s.stileChanged f).map (fun g => (g, s.stileSelect f g))) (fun e t => t.odSet 0x2201 (e.1 + 1) e.2)

theorem State.stilesSet_src {g : Nat} (hg : g < 64) : (s.stilesSet f).stileSrc g = s.stileSelect f g := by
  have hlt : ∀ {k : Nat}, k ∈ s.stileChanged f → k < 64 := fun hk => allFields_lt (List.mem_of_mem_filter hk)
  have hother : ∀ e ∈ (s.stileChanged f).map (fun g => (g, s.stileSelect f g)), e ≠ (g, s.stileSelect f g) → ∀ t : State,
      (t.odSet 0x2201 (e.1 + 1) e.2).odG 0x2201 (g + 1) = t.odG 0x2201 (g + 1) := fun e he hne t => by
    obtain ⟨k, hk, rfl⟩ := List.mem_map.mp he
    have hk64 := hlt hk
    have hkg : k ≠ g := fun h => hne (by rw [h])
    exact State.odG_odSet_ne _ (.inr (by omega)) (by omega) (by omega)
  by_cases hchanged : s.stileSelect f g = s.stileSrc g
  · have hnot : g ∉ s.stileChanged f := fun h => by simpa [hchanged] using (List.mem_filter.mp h).2
    have hsame : (s.stilesSet f).odG 0x2201 (g + 1) = s.odG 0x2201 (g + 1) :=
      State.forEach_view (fun u : State => u.odG 0x2201 (g + 1)) (fun e he => hother e he fun h => by
        obtain ⟨k, hk, rfl⟩ := List.mem_map.mp he
        have hkg : k = g := congrArg Prod.fst h
        exact hnot (hkg ▸ hk)) s
    rw [hchanged, State.stileSrc, hsame, State.stileSrc]
  · have hin : (g, s.stileSelect f g) ∈ (s.stileChanged f).map (fun g => (g, s.stileSelect f g)) :=
      List.mem_map_of_mem (f := fun g => (g, s.stileSelect f g))
        (List.mem_filter.mpr ⟨List.mem_range.mpr hg, bne_iff_ne.mpr hchanged⟩)
    have hnodup : ((s.stileChanged f).map (fun g => (g, s.stileSelect f g))).Nodup :=
      (List.nodup_range.filter _).map fun a b h => congrArg Prod.fst h
    obtain ⟨t, -, hu⟩ := State.forEach_once (fun u : State => u.odG 0x2201 (g + 1)) hin hnodup hother s
    have hset : (s.stilesSet f).odG 0x2201 (g + 1) = s.stileSelect f g := hu.trans (t.odG_odSet_same _ _ _)
    rw [State.stileSrc, hset, Nat.mod_eq_of_lt (s.stileSelect_lt g)]

/-- Refreshing the distances keeps the sources. -/
theorem State.refreshD_src {g : Nat} (hg : g < 64) : s.refreshD.stileSrc g = s.stileSrc g := by
  have hin : g ∈ allFields := List.mem_range.mpr hg
  have hother : ∀ k ∈ allFields, k ≠ g → ∀ t : State,
      (t.odSet 0x2201 (k + 1) (s.stileSrc k + 256 * ((s.stileDist 65 k).getD 0))).odG 0x2201 (g + 1) = t.odG 0x2201 (g + 1) :=
    fun k hk hne t => State.odG_odSet_ne _ (.inr (by omega)) (by omega) (by have := allFields_lt hk; omega)
  obtain ⟨t, -, hu⟩ := State.forEach_once (fun u : State => u.odG 0x2201 (g + 1)) hin List.nodup_range hother s
  have hset : s.refreshD.odG 0x2201 (g + 1) = s.stileSrc g + 256 * ((s.stileDist 65 g).getD 0) :=
    hu.trans (t.odG_odSet_same _ _ _)
  have hsrc : s.stileSrc g < 8 := Nat.mod_lt _ (by decide)
  rw [State.stileSrc, hset]
  omega

theorem State.stilesSet_within (s : State) (f : Nat) : Within [] [0x2201] s (s.stilesSet f) := by
  refine .forEach_mem _ (fun e he t => ?_) s
  obtain ⟨k, hk, rfl⟩ := List.mem_map.mp he
  have hk64 := allFields_lt (List.mem_of_mem_filter hk)
  exact t.odSet_within _ (Nat.lt_of_le_of_lt (Nat.succ_le_of_lt hk64) (by decide))

theorem State.refreshD_within (s : State) : Within [] [0x2201] s s.refreshD := by
  refine .forEach_mem _ (fun k hk t => ?_) s
  have hk64 := allFields_lt hk
  exact t.odSet_within _ (by omega)

/-- A change of source is logged. -/
def State.stileLogged (s : State) (e : Nat × Nat) (t : State) : State :=
  t.log { rule := 335, sev := 1, source := 1, field := e.1, data := [s.stileSrc e.1, e.2] }

theorem State.stileLogged_within (s : State) (e : Nat × Nat) (t : State) : Within [] [] t (s.stileLogged e t) :=
  t.log_within _

theorem State.stileReselect_eq (s : State) (f : Nat) : s.stileReselect f =
    ((s.stilesSet f).refreshD.odAdd 0x2200 7 (s.stileChanged f).length).forEach
      ((s.stileChanged f).map (fun g => (g, s.stileSelect f g))) s.stileLogged := by
  unfold State.stileReselect State.stilesSet State.stileLogged
  simp only [List.length_map]

/-- The sources after a failure, and how many of them have changed. -/
theorem State.stileReselect_holds : (∀ g, g < 64 → (s.stileReselect f).stileSrc g = s.stileSelect f g) ∧
    (s.stileReselect f).odG 0x2200 7 = s.odG 0x2200 7 + (s.stileChanged f).length ∧
    (s.stileReselect f).parts = s.parts := by
  have hset := s.stilesSet_within f
  have hrefresh := (s.stilesSet f).refreshD_within
  have hlog : Within [] [] ((s.stilesSet f).refreshD.odAdd 0x2200 7 (s.stileChanged f).length) (s.stileReselect f) := by
    rw [s.stileReselect_eq f]
    exact .forEach _ (fun e t => s.stileLogged_within e t) _
  refine ⟨fun g hg => ?_, ?_, ?_⟩
  · have hkept : (s.stileReselect f).odG 0x2201 (g + 1) = (s.stilesSet f).refreshD.odG 0x2201 (g + 1) :=
      (hlog.odG (hsub := by omega)).trans (State.odG_odAdd_ne _ (.inl (by decide)) (by omega) (by decide))
    rw [State.stileSrc, hkept]
    exact (State.refreshD_src hg).trans (State.stilesSet_src hg)
  · rw [hlog.odG, State.odG_odAdd_same, hrefresh.odG, hset.odG]
  · have hadd := (s.stilesSet f).refreshD.odAdd_within (i := 0x2200) (b := 7) (s.stileChanged f).length
    rw [hlog.parts (by decide), hadd.parts (by decide), hrefresh.parts (by decide), hset.parts (by decide)]

end stiles

end Sys2Proof.Machine

open Sys2Proof Sys2Proof.Machine

/-- Settles O47, by the effect of each event on the fields, said once for each; the last lemma for each pass over fields is
that what a pass does to a field is what its own turn does (log 82, 84, 89). -/
theorem fieldsOnAndOff : Obligations.FieldsOnAndOff := by
  unfold Obligations.FieldsOnAndOff
  intro s f hf
  refine ⟨fun h0 h2 h6 => noEffect_fuseTrip hf h0 h2 h6, fun hst => ⟨fun h => ?_, fun h => ?_⟩,
    fun c why => s.goDark_holds hf c why, fun p code hp hstate hcmd hhalt => ?_,
    fun rail ph kind hph => ⟨noEffect_phaseFailure hf hph kind, fun hst hnew hlives => ?_, fun hst hnew hfatal => ?_⟩,
    fun env => ⟨noEffect_switchOn hf, fun hpowered hnext hst => ⟨exec_switchOn_waits hf hpowered hnext hst, ?_, ?_, ?_⟩⟩,
    fun arrays links hwf => ⟨fun h => guardRes_next hwf (if_neg h), fun h => guardRes_next hwf (if_pos h)⟩,
    fun plane hplane hmem hon => answers_planeOvercurrent hf hplane hmem hon,
    fun env => ⟨noEffect_grantPeriod env, answers_grantPeriod hf env⟩,
    fun w => ⟨noEffect_grantTick hf w, answers_grantTick hf w⟩, noEffect_stile hf, fun h => ?_⟩
  · exact exec_fuseTrip hf hst h
  · exact exec_fuseTrip hf hst h
  · rw [State.faultOwner, hp]
    exact State.faultPart_holds (State.partOfField_lt hp) code hstate hcmd hhalt
  · obtain ⟨hmask, hcount, hstate, hparts⟩ := s.phaseNoted_holds hf rail ph kind
    refine answers_next (exec_phaseFailure hf hph kind hst hnew) ?_
    rw [hlives]
    exact ⟨hmask, hcount, hstate, hparts⟩
  · obtain ⟨hmask, hcount, hstate, hparts⟩ := s.phaseNoted_holds hf rail ph kind
    refine ⟨s.phaseNoted f rail ph kind, hmask, hcount, hparts, hstate, (exec_phaseFailure hf hph kind hst hnew).trans ?_⟩
    rw [if_pos hfatal]
    exact State.phaseOff_eq hf
  · intro i hi
    rw [State.phaseTest_mask hf]
    exact bit_testMask hi
  · intro hdraw hrails hfuse hfatal
    rw [State.phaseTest_mask hf] at hfatal ⊢
    obtain ⟨u, hexec, hon, hmask, hrest⟩ := answers_switchOn hf hpowered hnext hst hdraw hrails hfuse hfatal
    exact ⟨u, hexec, hon, hmask, fun h => by rw [h]; rfl, hrest⟩
  · intro hdraw hbad hdue
    rw [State.phaseTest_mask hf] at hbad ⊢
    exact answers_switchOn_fails hf hpowered hnext hst hdraw hbad hdue
  · obtain ⟨hsrc, hcount, hparts⟩ := State.stileReselect_holds (s := s) (f := f)
    exact ⟨s.stileReselect f, hsrc, hcount, hparts, guardRes_next (decide_eq_true hf) (if_neg (by simp [h]))⟩
end

section
/-!
SUPPORT. Maintenance: field commands, standby and the queue of activities (R403, R404, R408, R411), and the obligation O53.
-/

-- One proof after another: side conditions of frames are default arguments, and proofs elaborated at once would each wait
-- for the kernel in a thread of their own, past the memory limit.
set_option Elab.async false

namespace Sys2Proof.Machine

/-! ### The bytes of a maintenance command -/

theorem fieldCmdBytes_length (opc : Nat) (fields : BitVec 64) : (fieldCmdBytes opc fields).length = 16 := by
  simp [fieldCmdBytes]

theorem fieldCmdBytes_opc {opc : Nat} (hopc : opc < 256) (fields : BitVec 64) : fieldN (fieldCmdBytes opc fields) 0 1 = opc :=
  (leNat_leBytes 1 opc).trans (Nat.mod_eq_of_lt (by omega))

theorem fieldCmdBytes_fields (opc : Nat) (fields : BitVec 64) : fieldN (fieldCmdBytes opc fields) 8 8 = fields.toNat :=
  (leNat_leBytes 8 fields.toNat).trans (Nat.mod_eq_of_lt (by have := fields.isLt; norm_num at this ⊢; omega))

theorem fieldCmdBytes_zero (opc : Nat) (fields : BitVec 64) : zeroRange (fieldCmdBytes opc fields) 1 7 = true := rfl

/-- The fields of a mask that names one. -/
theorem fieldsOf_two_pow {f : Nat} (hf : f < 64) : fieldsOf (2 ^ f) = [f] := by
  have hbit : (fun g : Nat => bit (2 ^ f) g) = fun g => g == f := funext fun g => by
    rw [bit_eq_testBit, Nat.testBit_two_pow]
    exact decide_eq_decide.mpr eq_comm
  have hone : List.count f allFields = 1 := List.count_eq_one_of_mem List.nodup_range (List.mem_range.mpr hf)
  rw [fieldsOf, hbit, List.filter_beq, hone]
  rfl

/-! ### The checks (R411) -/

section command

variable {s v : State} {opc : Nat} {fields : BitVec 64} {env : StartEnv}

/-- A maintenance command of a known code, but for the warm reset. -/
def MaintCode (opc : Nat) : Prop := opc = 0x80 ∨ opc = 0x81 ∨ opc = 0x82 ∨ opc = 0x84 ∨ opc = 0x85

variable (hopc : MaintCode opc)
include hopc

/-- The checks of a maintenance command in their order. -/
theorem State.fieldCommand_eq : State.fieldCommand (fieldCmdBytes opc fields) env v =
    if v.odG 0x7100 2 ≠ 0 then (v, 0x0005)
    else if v.deviceCode opc ≠ 0 then (v, v.deviceCode opc)
    else if (opc ≤ 0x82 ∧ fields.toNat = 0) ∨ (0x82 < opc ∧ fields.toNat ≠ 0) then (v, 0x0003)
    else if v.fieldUseCode opc fields.toNat ≠ 0 then (v, v.fieldUseCode opc fields.toNat)
    else if v.maintCode (lockFields opc fields.toNat) = 0x0801 then
      (((((v.queueAct (.fieldCmd opc) (lockFields opc fields.toNat) (fieldCmdBytes opc fields)).countMaint
        (v.maintCode (lockFields opc fields.toNat))).odSet 0x7100 2 1).odSet 0x7100 3
          (v.maintCode (lockFields opc fields.toNat))).setBlobP 0x7100 1 0xFF (fieldCmdBytes opc fields),
        v.maintCode (lockFields opc fields.toNat))
    else if v.maintCode (lockFields opc fields.toNat) ≠ 0 then
      (v.countMaint (v.maintCode (lockFields opc fields.toNat)), v.maintCode (lockFields opc fields.toNat))
    else ((v.runField opc fields.toNat env).setBlobP 0x7100 1 0xFF (fieldCmdBytes opc fields), 0) := by
  have hbound : 0x80 ≤ opc ∧ opc ≤ 0x85 ∧ opc ≠ 0x83 := by
    unfold MaintCode at hopc
    omega
  obtain ⟨hlo, hhi, hwarm⟩ := hbound
  unfold State.fieldCommand
  simp only [fieldCmdBytes_length, fieldCmdBytes_opc (show opc < 256 by omega), fieldCmdBytes_fields, fieldCmdBytes_zero]
  rw [if_neg (by decide), if_neg (by omega), if_neg (by decide), if_neg hwarm]

variable (hbusy : v.odG 0x7100 2 = 0) (hdev : v.deviceCode opc = 0)
  (hnamed : ¬((opc ≤ 0x82 ∧ fields.toNat = 0) ∨ (0x82 < opc ∧ fields.toNat ≠ 0)))

theorem State.fieldCommand_busy (h : v.odG 0x7100 2 ≠ 0) :
    State.fieldCommand (fieldCmdBytes opc fields) env v = (v, 0x0005) := (State.fieldCommand_eq hopc).trans (if_pos h)

include hbusy in
theorem State.fieldCommand_device (h : v.deviceCode opc ≠ 0) :
    State.fieldCommand (fieldCmdBytes opc fields) env v = (v, v.deviceCode opc) :=
  (State.fieldCommand_eq hopc).trans ((if_neg (not_not.mpr hbusy)).trans (if_pos h))

include hbusy hdev in
theorem State.fieldCommand_unnamed (h : (opc ≤ 0x82 ∧ fields.toNat = 0) ∨ (0x82 < opc ∧ fields.toNat ≠ 0)) :
    State.fieldCommand (fieldCmdBytes opc fields) env v = (v, 0x0003) :=
  (State.fieldCommand_eq hopc).trans ((if_neg (not_not.mpr hbusy)).trans ((if_neg (not_not.mpr hdev)).trans (if_pos h)))

include hbusy hdev hnamed in
theorem State.fieldCommand_use (h : v.fieldUseCode opc fields.toNat ≠ 0) :
    State.fieldCommand (fieldCmdBytes opc fields) env v = (v, v.fieldUseCode opc fields.toNat) :=
  (State.fieldCommand_eq hopc).trans ((if_neg (not_not.mpr hbusy)).trans ((if_neg (not_not.mpr hdev)).trans
    ((if_neg hnamed).trans (if_pos h))))

variable (huse : v.fieldUseCode opc fields.toNat = 0)
include hbusy hdev hnamed huse

theorem State.fieldCommand_runs (h : v.maintCode (lockFields opc fields.toNat) = 0) :
    State.fieldCommand (fieldCmdBytes opc fields) env v =
      ((v.runField opc fields.toNat env).setBlobP 0x7100 1 0xFF (fieldCmdBytes opc fields), 0) := by
  rw [State.fieldCommand_eq hopc, if_neg (not_not.mpr hbusy), if_neg (not_not.mpr hdev), if_neg hnamed, if_neg (not_not.mpr huse),
    h, if_neg (by decide), if_neg (by decide)]

theorem State.fieldCommand_queued (h : v.maintCode (lockFields opc fields.toNat) = 0x0801) :
    State.fieldCommand (fieldCmdBytes opc fields) env v =
      (((((v.queueAct (.fieldCmd opc) (lockFields opc fields.toNat) (fieldCmdBytes opc fields)).countMaint 0x0801).odSet
        0x7100 2 1).odSet 0x7100 3 0x0801).setBlobP 0x7100 1 0xFF (fieldCmdBytes opc fields), 0x0801) := by
  rw [State.fieldCommand_eq hopc, if_neg (not_not.mpr hbusy), if_neg (not_not.mpr hdev), if_neg hnamed, if_neg (not_not.mpr huse),
    h, if_pos rfl]

end command

/-! ### A maintenance command starts and ends -/

section work

variable (s : State)

/-- A maintenance command has taken its locks. -/
def State.fieldStarted (s : State) (opc fields : Nat) : State :=
  let s1 := ((s.startAct (.fieldCmd opc) (lockFields opc fields)).odSet 0x7100 2 2).odSet 0x7100 3 0
  { s1 with hub := { s1.hub with fieldsDue := if opc ≤ 0x82 then fields else 0 } }

theorem State.fieldStarted_within (opc fields : Nat) :
    Within [.fields, .acts] [0x2300, 0x7101, 0x7100] s (s.fieldStarted opc fields) :=
  ((((s.startAct_within _ _).mono).andThen (State.odSet_within _ 2)).andThen (State.odSet_within _ 0)).andThen
    (within_work _ _ _)

theorem State.fieldStarted_holds (opc fields : Nat) : (s.fieldStarted opc fields).odG 0x7100 2 = 2 ∧
    (s.fieldStarted opc fields).odG 0x7100 3 = 0 ∧
    (s.fieldStarted opc fields).hub.fieldsDue = (if opc ≤ 0x82 then fields else 0) ∧
    Activity.mk (.fieldCmd opc) (lockFields opc fields) ∈ (s.fieldStarted opc fields).hub.acts := by
  unfold State.fieldStarted
  have hact : Activity.mk (.fieldCmd opc) (lockFields opc fields) ∈
      (s.startAct (.fieldCmd opc) (lockFields opc fields)).hub.acts := List.mem_append_right _ (List.mem_singleton.mpr rfl)
  generalize s.startAct (.fieldCmd opc) (lockFields opc fields) = z at hact
  refine ⟨?_, State.odG_odSet_same (z.odSet 0x7100 2 2) 0x7100 3 0, rfl, hact⟩
  have hkept : ((z.odSet 0x7100 2 2).odSet 0x7100 3 0).odG 0x7100 2 = (z.odSet 0x7100 2 2).odG 0x7100 2 :=
    State.odG_odSet_ne _ (.inr (by decide)) (by decide) (by decide)
  exact hkept.trans (z.odG_odSet_same _ _ _)

/-- The activities that are no maintenance command, with nothing to wait for. -/
def State.workEnded (s : State) : State :=
  { s with hub := { s.hub with acts := s.hub.acts.filter (fun a => !(match a.kind with
                                 | .fieldCmd _ => true
                                 | _ => false)), fieldsDue := 0 } }

theorem State.endFieldCmd_eq (code : Nat) :
    s.endFieldCmd code = ((s.workEnded.odSet 0x7100 2 0).odSet 0x7100 3 code).showActs := rfl

theorem State.endFieldCmd_holds (code : Nat) : (s.endFieldCmd code).odG 0x7100 2 = 0 ∧
    (s.endFieldCmd code).odG 0x7100 3 = code ∧ (s.endFieldCmd code).hub.fieldsDue = 0 := by
  have hdue : s.workEnded.hub.fieldsDue = 0 := rfl
  rw [s.endFieldCmd_eq]
  generalize s.workEnded = z at hdue
  have hshown := State.showActs_within ((z.odSet 0x7100 2 0).odSet 0x7100 3 code)
  refine ⟨?_, hshown.odG.trans (State.odG_odSet_same _ _ _ _), hdue⟩
  exact hshown.odG.trans ((State.odG_odSet_ne _ (.inr (by decide)) (by decide) (by decide)).trans (z.odG_odSet_same _ _ _))

theorem State.requestOn_asked (f : Nat) : f ∈ (s.requestOn f).power.switchQueue := by
  unfold State.requestOn
  split
  · rename_i h
    exact List.contains_iff_mem.mp h
  · exact List.mem_append_right _ (List.mem_singleton.mpr rfl)

theorem State.requestOn_hub (f : Nat) : (s.requestOn f).hub = s.hub := by
  unfold State.requestOn
  split <;> rfl

end work

/-! ### One dark field -/

section single

variable {s : State} {f : Nat} (hf : f < 64) (hoff : s.fieldState f = 1)
include hf hoff

theorem State.runField_dark_on (opc : Nat) (hopc : opc = 0x80 ∨ opc = 0x82) (env : StartEnv) :
    s.runField opc (2 ^ f) env = (s.fieldStarted opc (2 ^ f)).requestOn f := by
  have hstate : (s.fieldStarted opc (2 ^ f)).fieldState f = 1 :=
    ((s.fieldStarted_within opc (2 ^ f)).odG (hsub := by omega)).trans hoff
  have hrun : s.runField opc (2 ^ f) env = (if opc = 0x80 then (s.fieldStarted opc (2 ^ f)).cycleField f
      else (s.fieldStarted opc (2 ^ f)).onField f) := by
    unfold State.runField State.fieldStarted
    rw [fieldsOf_two_pow hf]
    dsimp only
    rcases hopc with rfl | rfl
    · rw [if_pos rfl, if_pos rfl]
      rfl
    · rw [if_neg (by decide : ¬(0x82 = 0x80)), if_neg (by decide : ¬(0x82 = 0x81)), if_pos rfl]
      rfl
  rw [hrun]
  generalize s.fieldStarted opc (2 ^ f) = z at hstate
  split
  · unfold State.cycleField
    rw [hstate]
    rfl
  · exact if_neg (by simp [State.fieldOn, hstate])

theorem State.runField_dark_off (env : StartEnv) :
    ∃ z, Within [.acts] [] (s.fieldStarted 0x81 (2 ^ f)) z ∧ s.runField 0x81 (2 ^ f) env = z.endFieldCmd 0 := by
  have hwithin := s.fieldStarted_within 0x81 (2 ^ f)
  obtain ⟨-, hcode, hdue, -⟩ := s.fieldStarted_holds 0x81 (2 ^ f)
  rw [if_pos (by decide)] at hdue
  have hstate : (s.fieldStarted 0x81 (2 ^ f)).fieldState f = 1 := (hwithin.odG (hsub := by omega)).trans hoff
  have hrun : s.runField 0x81 (2 ^ f) env = (s.fieldStarted 0x81 (2 ^ f)).offField f := by
    unfold State.runField
    rw [fieldsOf_two_pow hf]
    rfl
  rw [hrun]
  generalize s.fieldStarted 0x81 (2 ^ f) = z at hstate hcode hdue
  have hbit : bit z.hub.fieldsDue f = true := by
    rw [hdue, bit_eq_testBit, Nat.testBit_two_pow_self]
  have hleft : setBit z.hub.fieldsDue f false = 0 := by
    rw [setBit, hbit, if_neg (by decide), if_neg (by decide), hdue, Nat.sub_self]
  refine ⟨{ z with hub := { z.hub with fieldsDue := 0 } }, within_work z z.hub.acts 0, ?_⟩
  have hfield : z.offField f = z.fieldCmdField f 0 := by
    unfold State.offField
    rw [hstate]
    rfl
  rw [hfield]
  unfold State.fieldCmdField
  rw [hbit, hleft]
  dsimp only
  rw [if_neg (by decide), if_pos rfl, if_pos rfl, if_pos rfl]
  exact congrArg _ hcode

end single

/-! ### Standby (R404) -/

section standby

variable {s : State}

/-- A field that goes off for standby. -/
def State.standbyField (f : Nat) (s : State) : State :=
  let st := s.fieldState f
  if st = 1 ∨ st = 4 ∨ st = 5 then s else s.goDark f 1 .command

theorem State.standbyField_dark {f : Nat} (hf : f < 64) : (s.standbyField f).fieldState f ≠ 0 := by
  unfold State.standbyField
  dsimp only
  split
  · omega
  · rw [(s.goDark_holds hf 1 .command).1]
    decide

theorem State.standbyField_other {f g : Nat} (hf : f < 64) (hg : g < 64) (hne : f ≠ g) :
    (s.standbyField f).fieldState g = s.fieldState g := by
  unfold State.standbyField
  dsimp only
  split
  · rfl
  · exact State.goDark_fieldState_ne hf hg hne 1 .command

theorem State.allFieldsOff_eq : s.allFieldsOff =
    ({ s.forEach allFields State.standbyField with mesh :=
      { (s.forEach allFields State.standbyField).mesh with down := everyField, detour := .idle, detourQueue := [] } }).odSet
        0x3401 1 everyField := by
  unfold State.allFieldsOff State.standbyField
  dsimp only

theorem State.allFieldsOff_dark {g : Nat} (hg : g < 64) : s.allFieldsOff.fieldOn g = false := by
  have hin : g ∈ allFields := List.mem_range.mpr hg
  have hother : ∀ f ∈ allFields, f ≠ g → ∀ t : State, (State.standbyField f t).fieldState g = t.fieldState g :=
    fun f hf hne t => State.standbyField_other (allFields_lt hf) hg hne
  obtain ⟨t, -, hu⟩ := State.forEach_once (fun u : State => u.fieldState g) hin List.nodup_range hother s
  have hdark : (s.forEach allFields State.standbyField).fieldState g ≠ 0 := by
    rw [hu]
    exact State.standbyField_dark hg
  rw [State.allFieldsOff_eq]
  generalize s.forEach allFields State.standbyField = z at hdark
  have hkept : (State.odSet { z with mesh := { z.mesh with down := everyField, detour := .idle, detourQueue := [] } }
      0x3401 1 everyField).fieldState g = z.fieldState g := State.odG_odSet_ne _ (.inl (by decide)) (by omega) (by decide)
  exact beq_false_of_ne (hkept.trans_ne hdark)

theorem State.ethernetDown_within : Within [] [0x6100, 0x6101] s s.ethernetDown := by
  refine (s.odSet_within 0).mono.andThen (.forEach_mem (List.range 16) (fun i hi t => t.odSet_within 0 ?_) _)
  have := List.mem_range.mp hi
  omega

theorem State.ethernetDown_ports : s.ethernetDown.odG 0x6100 6 = 0 := by
  refine Eq.trans (Within.odG (cs := []) (ods := [0x6101]) (.forEach_mem (List.range 16) (fun i hi t => t.odSet_within 0 ?_) _))
    (s.odG_odSet_same 0x6100 6 0)
  have := List.mem_range.mp hi
  omega

/-- The device in standby. -/
theorem State.enterStandby_holds : s.enterStandby.odG 0x7102 1 = 2 ∧ s.enterStandby.stk.selfRefresh = true ∧
    s.enterStandby.odG 0x6100 6 = 0 ∧ ∀ g, g < 64 → s.enterStandby.fieldOn g = false := by
  unfold State.enterStandby
  dsimp only
  have hdark : ∀ g, g < 64 → (s.forEach (List.range 32) (fun p s => s.partToStandby p)).allFieldsOff.ethernetDown.fieldOn g = false :=
    fun g hg => (congrArg (· == 0) (State.ethernetDown_within.odG (idx := 0x2101) (hsub := by omega))).trans
      (State.allFieldsOff_dark hg)
  have hports := State.ethernetDown_ports (s := (s.forEach (List.range 32) (fun p s => s.partToStandby p)).allFieldsOff)
  generalize (s.forEach (List.range 32) (fun p s => s.partToStandby p)).allFieldsOff.ethernetDown = z at hdark hports
  have hlog := State.log_within (State.odSet { z with stk := { z.stk with selfRefresh := true } } 0x7102 1 2) { rule := 406 }
  have hother : ∀ {idx sub : Nat}, idx ≠ 0x7102 → sub < 256 →
      (State.odSet { z with stk := { z.stk with selfRefresh := true } } 0x7102 1 2).odG idx sub = z.odG idx sub :=
    fun hidx hsub => State.odG_odSet_ne _ (.inl hidx) hsub (by decide)
  refine ⟨hlog.odG.trans (State.odG_odSet_same _ _ _ _), hlog.asleep (by decide), ?_, fun g hg => ?_⟩
  · exact hlog.odG.trans ((hother (by decide) (by decide)).trans hports)
  · exact (congrArg (· == 0) ((hlog.odG (idx := 0x2101) (hsub := by omega)).trans (hother (by decide) (by omega)))).trans (hdark g hg)

/-- The device back from standby. -/
theorem State.leaveStandby_holds (env : StartEnv) : (s.leaveStandby env).odG 0x7102 1 = 1 ∧
    (s.leaveStandby env).stk.selfRefresh = false := by
  have hstart := State.startFields_within (s := { s with stk := { s.stk with selfRefresh := false } }) env
  unfold State.leaveStandby
  dsimp only
  generalize State.startFields { s with stk := { s.stk with selfRefresh := false } } env = z at hstart
  have hwake : z.stk.selfRefresh = false := hstart.asleep (by decide)
  have hfault := Within.forEach (f := fun (f : Nat) (t : State) => t.faultOwner f 0x0904)
    (allFields.filter (fun f => !s.staysDark f && !z.fieldOn f)) (fun f t => t.faultOwner_within f 0x0904) z
  generalize z.forEach (allFields.filter (fun f => !s.staysDark f && !z.fieldOn f)) (fun f t => t.faultOwner f 0x0904) = y at hfault
  have hreread := Within.forEach (cs := [.tiles]) (ods := [])
    (f := fun (p : Nat) (t : State) => if t.partState p = 0 then t else t.pushReread p (t.partMask p)) (List.range 32)
    (fun p t => .ite (fun _ => .refl t) (fun _ => t.pushReread_within p _)) y
  generalize y.forEach (List.range 32) (fun p s => if s.partState p = 0 then s else s.pushReread p (s.partMask p)) = x at hreread
  have hlog := State.log_within (x.odSet 0x7102 1 1) { rule := 406 }
  exact ⟨hlog.odG.trans (State.odG_odSet_same _ _ _ _), (hlog.asleep (by decide)).trans
    ((hreread.asleep (by decide)).trans ((hfault.asleep (by decide)).trans hwake))⟩

end standby

/-! ### The outcomes of a maintenance command -/

theorem State.counted_odG (s : State) {idx sub : Nat} (hidx : idx ≠ 0x1100) (hsub : sub < 256) :
    s.counted.odG idx sub = s.odG idx sub := s.counted_odP hidx hsub (by decide)

/-- A device that serves takes field commands and standby. -/
theorem State.deviceCode_field {s : State} {opc : Nat} (hopc : opc ≤ 0x82) :
    s.deviceCode opc = if s.odG 0x7102 1 = 1 then 0 else 0x000B := if_pos hopc

theorem State.deviceCode_enter (s : State) : s.deviceCode 0x84 = if s.odG 0x7102 1 = 1 then 0 else 0x0807 := rfl

theorem State.deviceCode_exit (s : State) : s.deviceCode 0x85 = if s.odG 0x7102 1 = 2 then 0 else 0x0807 := rfl

section outcomes

variable {s : State} {c : Caller} {i : Instr} {opc : Nat} {fields : BitVec 64} {env : StartEnv}
variable (h : Admitted s c 0x7100 1 0xFF)
  (hi : exec i s = guardRes (callerOk c) (s.command c 0x7100 1 0xFF (State.fieldCommand (fieldCmdBytes opc fields) env)))
  (hopc : MaintCode opc)
include h hi hopc

theorem refuses_busy (hbusy : s.odG 0x7100 2 ≠ 0) : Refuses i s c 0x0005 :=
  h.refuses hi (State.fieldCommand_busy hopc (by rwa [s.counted_odG (by decide) (by decide)]))

variable (hfree : s.odG 0x7100 2 = 0)
include hfree

theorem refuses_device {code : Nat} (hdev : s.counted.deviceCode opc = code) (hcode : code ≠ 0) : Refuses i s c code := by
  subst hdev
  exact h.refuses hi (State.fieldCommand_device hopc ((s.counted_odG (by decide) (by decide)).trans hfree) hcode)

variable (hdev : s.counted.deviceCode opc = 0)
include hdev

theorem refuses_unnamed (hopc' : opc ≤ 0x82) (hnone : fields = 0) : Refuses i s c 0x0003 :=
  h.refuses hi (State.fieldCommand_unnamed hopc ((s.counted_odG (by decide) (by decide)).trans hfree) hdev
    (.inl ⟨hopc', by rw [hnone]; rfl⟩))

variable (hnamed : ¬((opc ≤ 0x82 ∧ fields.toNat = 0) ∨ (0x82 < opc ∧ fields.toNat ≠ 0)))
include hnamed

theorem refuses_use (huse : s.counted.fieldUseCode opc fields.toNat ≠ 0) :
    Refuses i s c (s.counted.fieldUseCode opc fields.toNat) :=
  h.refuses hi (State.fieldCommand_use hopc ((s.counted_odG (by decide) (by decide)).trans hfree) hdev hnamed huse)

variable (huse : s.counted.fieldUseCode opc fields.toNat = 0)
include huse

theorem exec_maintenance (hlocks : s.counted.maintCode (lockFields opc fields.toNat) = 0) :
    exec i s = .next (((s.counted.runField opc fields.toNat env).setBlobP 0x7100 1 0xFF (fieldCmdBytes opc fields)).reply c 0) :=
  h.exec_eq hi (State.fieldCommand_runs hopc ((s.counted_odG (by decide) (by decide)).trans hfree) hdev hnamed huse hlocks)

theorem answers_maintenance_queued (hlocks : s.counted.maintCode (lockFields opc fields.toNat) = 0x0801) :
    Answers i s (fun u => u.odG 0x7100 2 = 1 ∧ u.odG 0x7100 3 = 0x0801 ∧
      u.hub.queue = s.hub.queue ++
        [Queued.mk (.fieldCmd opc) (lockFields opc fields.toNat) s.clkTime (fieldCmdBytes opc fields)] ∧
      u.out = s.out ++ [Emission.status c 0x0801]) := by
  have hqueue : ((s.counted.queueAct (.fieldCmd opc) (lockFields opc fields.toNat) (fieldCmdBytes opc fields)).countMaint
      0x0801).hub.queue = s.hub.queue ++
        [Queued.mk (.fieldCmd opc) (lockFields opc fields.toNat) s.clkTime (fieldCmdBytes opc fields)] := rfl
  have hout : ((s.counted.queueAct (.fieldCmd opc) (lockFields opc fields.toNat) (fieldCmdBytes opc fields)).countMaint
      0x0801).out = s.out := rfl
  refine h.answers hi (State.fieldCommand_queued hopc ((s.counted_odG (by decide) (by decide)).trans hfree) hdev hnamed huse
    hlocks) ?_
  generalize (s.counted.queueAct (.fieldCmd opc) (lockFields opc fields.toNat) (fieldCmdBytes opc fields)).countMaint 0x0801 = z
    at hqueue hout
  have hcode : ((z.odSet 0x7100 2 1).odSet 0x7100 3 0x0801).odG 0x7100 3 = 0x0801 := State.odG_odSet_same _ _ _ _
  have hstate : ((z.odSet 0x7100 2 1).odSet 0x7100 3 0x0801).odG 0x7100 2 = 1 :=
    (State.odG_odSet_ne _ (.inr (by decide)) (by decide) (by decide)).trans (z.odG_odSet_same _ _ _)
  exact ⟨hstate, hcode, hqueue, congrArg (· ++ [Emission.status c 0x0801]) hout⟩

end outcomes

/-! ### The effects of the commands on one dark field, and of standby -/

section effects

variable {s : State} {f : Nat} {env : StartEnv}

theorem State.counted_within (s : State) : Within [] [0x1100] s s.counted := s.odAdd_within 1

theorem State.runField_on_holds (hf : f < 64) (hoff : s.fieldState f = 1) (opc : Nat) (hopc : opc = 0x80 ∨ opc = 0x82) :
    f ∈ (s.counted.runField opc (2 ^ f) env).power.switchQueue ∧ (s.counted.runField opc (2 ^ f) env).odG 0x7100 2 = 2 ∧
      (s.counted.runField opc (2 ^ f) env).odG 0x7100 3 = 0 ∧ (s.counted.runField opc (2 ^ f) env).hub.fieldsDue = 2 ^ f ∧
      Activity.mk (.fieldCmd opc) (2 ^ f) ∈ (s.counted.runField opc (2 ^ f) env).hub.acts ∧
      (s.counted.runField opc (2 ^ f) env).out = s.out := by
  have hlow : opc ≤ 0x82 := by omega
  have hoff' : s.counted.fieldState f = 1 := (s.counted_odG (by decide) (by omega)).trans hoff
  obtain ⟨hstate, hcode, hdue, hact⟩ := s.counted.fieldStarted_holds opc (2 ^ f)
  have hout := (s.counted.fieldStarted_within opc (2 ^ f)).out (by decide)
  rw [lockFields, if_pos hlow] at hact
  rw [if_pos hlow] at hdue
  rw [State.runField_dark_on hf hoff' opc hopc env]
  generalize s.counted.fieldStarted opc (2 ^ f) = z at hstate hcode hdue hact hout
  have hasked := z.requestOn_within f
  refine ⟨z.requestOn_asked f, hasked.odG.trans hstate, hasked.odG.trans hcode, ?_, ?_, (hasked.out (by decide)).trans hout⟩
  · rw [z.requestOn_hub]
    exact hdue
  · rw [z.requestOn_hub]
    exact hact

theorem State.runField_off_holds (hf : f < 64) (hoff : s.fieldState f = 1) :
    (s.counted.runField 0x81 (2 ^ f) env).fieldState f = 1 ∧ (s.counted.runField 0x81 (2 ^ f) env).odG 0x7100 2 = 0 ∧
      (s.counted.runField 0x81 (2 ^ f) env).odG 0x7100 3 = 0 ∧ (s.counted.runField 0x81 (2 ^ f) env).hub.fieldsDue = 0 ∧
      (s.counted.runField 0x81 (2 ^ f) env).out = s.out := by
  have hoff' : s.counted.fieldState f = 1 := (s.counted_odG (by decide) (by omega)).trans hoff
  obtain ⟨z, hz, hrun⟩ := State.runField_dark_off hf hoff' env
  obtain ⟨hstate, hcode, hdue⟩ := z.endFieldCmd_holds 0
  have hwithin : Within [.fields, .acts] [0x2300, 0x7101, 0x7100, 0x1100] s (z.endFieldCmd 0) :=
    ((s.counted_within.mono.andThen (State.fieldStarted_within _ _ _)).andThen hz).andThen (State.endFieldCmd_within _ 0)
  rw [hrun]
  exact ⟨(hwithin.odG (hsub := by omega)).trans hoff, hstate, hcode, hdue, hwithin.out (by decide)⟩

theorem State.runField_enter_holds : (s.runField 0x84 0 env).odG 0x7102 1 = 2 ∧ (s.runField 0x84 0 env).stk.selfRefresh = true ∧
    (s.runField 0x84 0 env).odG 0x6100 6 = 0 ∧ (∀ g, g < 64 → (s.runField 0x84 0 env).fieldOn g = false) ∧
    (s.runField 0x84 0 env).odG 0x7100 2 = 0 ∧ (s.runField 0x84 0 env).odG 0x7100 3 = 0 := by
  have hrun : s.runField 0x84 0 env = (s.fieldStarted 0x84 0).enterStandby.endFieldCmd 0 := by
    unfold State.runField State.fieldStarted
    rw [if_neg (by decide : ¬(0x84 = 0x80)), if_neg (by decide : ¬(0x84 = 0x81)), if_neg (by decide : ¬(0x84 = 0x82)), if_pos rfl]
  obtain ⟨hdev, hsleep, hports, hdark⟩ := (s.fieldStarted 0x84 0).enterStandby_holds
  rw [hrun]
  generalize (s.fieldStarted 0x84 0).enterStandby = z at hdev hsleep hports hdark
  have hended := z.endFieldCmd_within 0
  obtain ⟨hstate, hcode, -⟩ := z.endFieldCmd_holds 0
  exact ⟨hended.odG.trans hdev, (hended.asleep (by decide)).trans hsleep, hended.odG.trans hports, fun g hg =>
    (congrArg (· == 0) (hended.odG (idx := 0x2101) (hsub := by omega))).trans (hdark g hg), hstate, hcode⟩

theorem State.runField_exit_holds : (s.runField 0x85 0 env).odG 0x7102 1 = 1 ∧
    (s.runField 0x85 0 env).stk.selfRefresh = false ∧ (s.runField 0x85 0 env).odG 0x7100 2 = 0 := by
  have hrun : s.runField 0x85 0 env = ((s.fieldStarted 0x85 0).leaveStandby env).endFieldCmd 0 := by
    unfold State.runField State.fieldStarted
    rw [if_neg (by decide : ¬(0x85 = 0x80)), if_neg (by decide : ¬(0x85 = 0x81)), if_neg (by decide : ¬(0x85 = 0x82)),
      if_neg (by decide : ¬(0x85 = 0x84))]
  obtain ⟨hdev, hsleep⟩ := (s.fieldStarted 0x85 0).leaveStandby_holds env
  rw [hrun]
  generalize (s.fieldStarted 0x85 0).leaveStandby env = z at hdev hsleep
  have hended := z.endFieldCmd_within 0
  exact ⟨hended.odG.trans hdev, (hended.asleep (by decide)).trans hsleep, (z.endFieldCmd_holds 0).1⟩

end effects

/-! ### The queue (R408) -/

section queue

variable {s : State}

theorem noEffect_queueWait {i : Nat} (h : s.hub.away = true ∨ s.hub.queue[i]? = none) : NoEffect (.queueWaitExpiry i) s := by
  refine guardRes_next rfl ?_
  rcases h with h | h
  · exact if_pos h
  · rw [h]
    exact ite_self _

theorem exec_queueWait {i : Nat} {q : Queued} (haway : s.hub.away = false) (hq : s.hub.queue[i]? = some q) :
    exec (.queueWaitExpiry i) s = .next (if q.since + s.odG 0x7101 1 * 1300000000 < s.clkTime then s.expireQueued q else s) := by
  have hsecond : oneSecond = 1300000000 := by norm_num [oneSecond, cyclesPerUs]
  refine guardRes_next rfl ?_
  rw [haway, if_neg (by decide), hq, hsecond]

theorem State.expireQueued_field {q : Queued} {opc : Nat} (hkind : q.kind = .fieldCmd opc) :
    (s.expireQueued q).odG 0x7100 2 = 0 ∧ (s.expireQueued q).odG 0x7100 3 = 0x0803 ∧ (s.expireQueued q).parts = s.parts ∧
      (s.expireQueued q).tiles = s.tiles := by
  have hexpire : s.expireQueued q = (s.unqueue q.kind).endFieldCmd 0x0803 := by
    unfold State.expireQueued
    rw [hkind]
  obtain ⟨hstate, hcode, -⟩ := (s.unqueue q.kind).endFieldCmd_holds 0x0803
  have hwithin : Within [.acts] [0x7100, 0x7101] s ((s.unqueue q.kind).endFieldCmd 0x0803) :=
    (s.unqueue_within q.kind).mono.andThen (State.endFieldCmd_within _ _)
  rw [hexpire]
  exact ⟨hstate, hcode, hwithin.parts (by decide), hwithin.tiles (by decide)⟩

end queue

end Sys2Proof.Machine

open Sys2Proof Sys2Proof.Machine

/-- Settles O53, by the checks of a maintenance command in their order and what each form leaves when it has run (log 108). -/
theorem maintenance : Obligations.Maintenance := by
  unfold Obligations.Maintenance
  intro s c fields f env henv hf
  have hexit : exec (.standbyExit c fields env) s =
      guardRes (callerOk c) (s.command c 0x7100 1 0xFF (State.fieldCommand (fieldCmdBytes 0x85 fields) env)) := by
    have hguard : (callerOk c && startOk env) = callerOk c := by rw [henv, Bool.and_true]
    exact congrArg (fun b => guardRes b _) hguard
  have hcycle : MaintCode 0x80 := .inl rfl
  have hoff : MaintCode 0x81 := .inr (.inl rfl)
  have hon : MaintCode 0x82 := .inr (.inr (.inl rfl))
  have henter : MaintCode 0x84 := .inr (.inr (.inr (.inl rfl)))
  have hleave : MaintCode 0x85 := .inr (.inr (.inr (.inr rfl)))
  have hdevice : s.counted.odG 0x7102 1 = s.odG 0x7102 1 := s.counted_odG (by decide) (by decide)
  refine ⟨fun h hbusy => ⟨refuses_busy h rfl hcycle hbusy, refuses_busy h rfl hoff hbusy, refuses_busy h rfl hon hbusy,
    refuses_busy h rfl henter hbusy, refuses_busy h hexit hleave hbusy⟩, fun h hfree => ⟨fun hdev => ?_, fun hdev => ?_,
    fun hdev => ⟨fun hnone => ?_, ?_, ?_, ?_⟩, fun hdev hnone hlocks => ?_⟩, fun e he => ⟨?_, ?_⟩, fun i => ⟨noEffect_queueWait, ?_⟩⟩
  · have hcode : ∀ {opc : Nat}, opc ≤ 0x82 → s.counted.deviceCode opc = 0x000B := fun hopc => by
      rw [State.deviceCode_field hopc, hdevice, if_neg hdev]
    have hstandby : s.counted.deviceCode 0x84 = 0x0807 := by rw [State.deviceCode_enter, hdevice, if_neg hdev]
    exact ⟨refuses_device h rfl hcycle hfree (hcode (by decide)) (by decide),
      refuses_device h rfl hoff hfree (hcode (by decide)) (by decide),
      refuses_device h rfl hon hfree (hcode (by decide)) (by decide),
      refuses_device h rfl henter hfree hstandby (by decide)⟩
  · exact refuses_device h hexit hleave hfree (by rw [State.deviceCode_exit, hdevice, if_neg hdev]) (by decide)
  · have hcode : ∀ {opc : Nat}, opc ≤ 0x82 → s.counted.deviceCode opc = 0 := fun hopc => by
      rw [State.deviceCode_field hopc, hdevice, if_pos hdev]
    exact ⟨refuses_unnamed h rfl hcycle hfree (hcode (by decide)) (by decide) hnone,
      refuses_unnamed h rfl hoff hfree (hcode (by decide)) (by decide) hnone,
      refuses_unnamed h rfl hon hfree (hcode (by decide)) (by decide) hnone⟩
  · intro opc cmd hform hsome
    have hnot0 : fields.toNat ≠ 0 := fun h0 => hsome (BitVec.eq_of_toNat_eq (by rw [h0]; rfl))
    have hcmd : exec cmd s = guardRes (callerOk c)
        (s.command c 0x7100 1 0xFF (State.fieldCommand (fieldCmdBytes opc fields) quietStart)) ∧ MaintCode opc ∧ opc ≤ 0x82 := by
      simp only [List.mem_cons, Prod.mk.injEq, List.not_mem_nil, or_false] at hform
      rcases hform with ⟨rfl, rfl⟩ | ⟨rfl, rfl⟩ | ⟨rfl, rfl⟩
      · exact ⟨rfl, hcycle, by decide⟩
      · exact ⟨rfl, hoff, by decide⟩
      · exact ⟨rfl, hon, by decide⟩
    obtain ⟨hexec, hopc, hlow⟩ := hcmd
    have hcode : s.counted.deviceCode opc = 0 := by rw [State.deviceCode_field hlow, hdevice, if_pos hdev]
    have hnamed : ¬((opc ≤ 0x82 ∧ fields.toNat = 0) ∨ (0x82 < opc ∧ fields.toNat ≠ 0)) := by omega
    have hlock : lockFields opc fields.toNat = fields.toNat := if_pos hlow
    refine ⟨refuses_use h hexec hopc hfree hcode hnamed, fun huse => ⟨fun hlocks => ?_, fun hlocks => ?_⟩⟩
    · exact exec_maintenance h hexec hopc hfree hcode hnamed huse (by rwa [hlock])
    · have hqueued := answers_maintenance_queued h hexec hopc hfree hcode hnamed huse (by rwa [hlock])
      rwa [hlock] at hqueued
  · intro hone hlocks hdark
    have hnot0 : (2 : Nat) ^ f ≠ 0 := (Nat.two_pow_pos f).ne'
    have hcode : ∀ {opc : Nat}, opc ≤ 0x82 → s.counted.deviceCode opc = 0 := fun hopc => by
      rw [State.deviceCode_field hopc, hdevice, if_pos hdev]
    have hnamed : ∀ {opc : Nat}, opc ≤ 0x82 → ¬((opc ≤ 0x82 ∧ fields.toNat = 0) ∨ (0x82 < opc ∧ fields.toNat ≠ 0)) :=
      fun hopc => by rw [hone]; omega
    have hlock : ∀ {opc : Nat}, opc ≤ 0x82 → s.counted.maintCode (lockFields opc fields.toNat) = 0 := fun hopc => by
      rw [lockFields, if_pos hopc, hone]
      exact hlocks
    refine ⟨fun huse => ?_, fun huse => ?_, fun huse => ?_⟩
    · have hexec := exec_maintenance h (i := .fieldOn c fields) rfl hon hfree (hcode (by decide)) (hnamed (by decide))
        (by rwa [hone]) (hlock (by decide))
      rw [hone] at hexec
      obtain ⟨hasked, hstate, hres, hdue, hact, hout⟩ := State.runField_on_holds (env := quietStart) hf hdark 0x82 (.inr rfl)
      generalize s.counted.runField 0x82 (2 ^ f) quietStart = z at *
      exact answers_next hexec ⟨hasked, hstate, hres, hdue, hact, congrArg (· ++ [Emission.status c 0]) hout⟩
    · have hexec := exec_maintenance h (i := .fieldCycle c fields) rfl hcycle hfree (hcode (by decide)) (hnamed (by decide))
        (by rwa [hone]) (hlock (by decide))
      rw [hone] at hexec
      obtain ⟨hasked, hstate, -, hdue, -, hout⟩ := State.runField_on_holds (env := quietStart) hf hdark 0x80 (.inl rfl)
      generalize s.counted.runField 0x80 (2 ^ f) quietStart = z at *
      exact answers_next hexec ⟨hasked, hstate, hdue, congrArg (· ++ [Emission.status c 0]) hout⟩
    · have hexec := exec_maintenance h (i := .fieldOff c fields) rfl hoff hfree (hcode (by decide)) (hnamed (by decide))
        (by rwa [hone]) (hlock (by decide))
      rw [hone] at hexec
      obtain ⟨hstays, hstate, hres, hdue, hout⟩ := State.runField_off_holds (env := quietStart) hf hdark
      generalize s.counted.runField 0x81 (2 ^ f) quietStart = z at *
      exact answers_next hexec ⟨hstays, hstate, hres, hdue, congrArg (· ++ [Emission.status c 0]) hout⟩
  · intro hnone hlocks
    subst hnone
    have hcode : s.counted.deviceCode 0x84 = 0 := by rw [State.deviceCode_enter, hdevice, if_pos hdev]
    have hexec := exec_maintenance h (i := .standbyEnter c 0) (opc := 0x84) (fields := 0) rfl henter hfree hcode (by decide) rfl
      hlocks
    obtain ⟨hstandby, hsleep, hports, hdark, hstate, hres⟩ := State.runField_enter_holds (s := s.counted) (env := quietStart)
    change exec _ s = .next (((s.counted.runField 0x84 0 quietStart).setBlobP _ _ _ _).reply c 0) at hexec
    generalize s.counted.runField 0x84 0 quietStart = z at *
    exact answers_next hexec ⟨hstandby, hsleep, hports, hdark, hstate, hres, List.getLast?_concat⟩
  · subst hnone
    have hcode : s.counted.deviceCode 0x85 = 0 := by rw [State.deviceCode_exit, hdevice, if_pos hdev]
    have hexec := exec_maintenance h (opc := 0x85) (fields := 0) hexit hleave hfree hcode (by decide) rfl hlocks
    obtain ⟨hserves, hawake, hstate⟩ := State.runField_exit_holds (s := s.counted) (env := env)
    change exec _ s = .next (((s.counted.runField 0x85 0 env).setBlobP _ _ _ _).reply c 0) at hexec
    generalize s.counted.runField 0x85 0 env = z at *
    exact answers_next hexec ⟨hserves, hawake, hstate, List.getLast?_concat⟩
  · intro hnone
    refine guardRes_next he ?_
    rcases hnone with haway | hnone
    · exact if_pos haway
    · rw [hnone]
      exact ite_self _
  · intro q haway hq
    refine guardRes_next he ?_
    rw [haway, if_neg (by decide), hq]
  · intro q haway hq
    refine ⟨fun hearly => ?_, fun hlate => ⟨?_, fun opc hkind => ?_⟩⟩
    · exact (exec_queueWait haway hq).trans (congrArg _ (if_neg (Nat.not_lt.mpr hearly)))
    · exact (exec_queueWait haway hq).trans (congrArg _ (if_pos hlate))
    · exact answers_next ((exec_queueWait haway hq).trans (congrArg _ (if_pos hlate))) (State.expireQueued_field hkind)
end

section
/-!
SUPPORT. Streams of the fabric, said once for each operation on them (R303, R305, R307).
-/

-- One proof after another: side conditions of frames are default arguments, and proofs elaborated at once would each wait
-- for the kernel in a thread of their own, past the memory limit.
set_option Elab.async false

namespace Sys2Proof.Machine

/-! ### Tables without a key -/

theorem mfind_mdel_same {α : Type} (m : SMap α) (k : Nat) : mfind (mdel m k) k = none :=
  (mfind_mdel m k k).trans (if_pos rfl)

theorem mfind_mput_same {α : Type} (m : SMap α) (k : Nat) (v : α) : mfind (mput m k v) k = some v :=
  (mfind_mput m k k v).trans (if_pos rfl)

theorem mfind_mput_ne {α : Type} (m : SMap α) {k j : Nat} (v : α) (h : j ≠ k) : mfind (mput m k v) j = mfind m j :=
  (mfind_mput m k j v).trans (if_neg h)

theorem mfind_mdel_ne {α : Type} (m : SMap α) {k j : Nat} (h : j ≠ k) : mfind (mdel m k) j = mfind m j :=
  (mfind_mdel m k j).trans (if_neg h)

section streams

variable {s : State} {k : Nat} {t : TxStream}

/-! ### Sending a packet -/

/-- A packet that leaves touches of OD 0x6100 the count of packets sent alone. -/
theorem State.sendPkt_odG (typ : Nat) (q : FalramPkt) {sub : Nat} (hsub : sub < 256) (hne : sub ≠ 0xC) :
    (s.sendPkt typ q).odG 0x6100 sub = s.odG 0x6100 sub := by
  unfold State.sendPkt
  dsimp only
  split
  · rfl
  · exact (State.odG_odAdd_ne _ (.inr hne) hsub (by decide)).trans (State.emit_odG _ _ _ _)

theorem State.sendSealed_odG (part kslot : Nat) (enc : Bool) (typ : Nat) (q : FalramPkt) {sub : Nat} (hsub : sub < 256)
    (hne : sub ≠ 0xC) : (s.sendSealed part kslot enc typ q).odG 0x6100 sub = s.odG 0x6100 sub := by
  unfold State.sendSealed
  split <;> exact State.sendPkt_odG _ _ hsub hne

/-! ### Changing a stream -/

theorem State.modTx_eq (f : TxStream → TxStream) (ht : mfind s.fabric.tx k = some t) :
    s.modTx k f = { s with fabric := { s.fabric with tx := mput s.fabric.tx k (f t) } } := by
  unfold State.modTx
  rw [ht]

theorem State.modTx_tx (f : TxStream → TxStream) (ht : mfind s.fabric.tx k = some t) :
    mfind (s.modTx k f).fabric.tx k = some (f t) := by
  rw [State.modTx_eq f ht]
  exact mfind_mput_same _ _ _

theorem State.modTx_tx_ne (f : TxStream → TxStream) {j : Nat} (hj : j ≠ k) :
    mfind (s.modTx k f).fabric.tx j = mfind s.fabric.tx j := by
  unfold State.modTx
  split
  · rfl
  · exact mfind_mput_ne _ _ hj

theorem State.modTx_within (s : State) (k : Nat) (f : TxStream → TxStream) : Within [.fabric] [] s (s.modTx k f) := by
  unfold State.modTx
  split
  · exact .refl s
  · exact within_fabric s _

/-! ### Ending a stream -/

/-- A stream that forwards no chain ends (R307): it is gone, and its partition shows state 0 and the code. -/
theorem State.endTx_holds (hk : k < 32) (ht : mfind s.fabric.tx k = some t) (hchain : t.chain = false) (code : Nat) :
    (s.endTx k code).fabric = { s.fabric with tx := mdel s.fabric.tx k } ∧ (s.endTx k code).odP 0x6110 2 k = 0 ∧
      (s.endTx k code).odP 0x6110 3 k = code := by
  have hmod : k % 32 = k := Nat.mod_eq_of_lt hk
  have hend : s.endTx k code = (((State.odSetP { s with fabric := { s.fabric with tx := mdel s.fabric.tx k } } 0x6110 2 k 0).odSetP
      0x6110 3 k code).odSetP 0x6110 4 k 0) := by
    unfold State.endTx
    rw [ht]
    dsimp only
    rw [hchain, if_neg (by decide), hmod]
  rw [hend]
  generalize hz : State.odSetP { s with fabric := { s.fabric with tx := mdel s.fabric.tx k } } 0x6110 2 k 0 = z
  have hzero : z.odP 0x6110 2 k = 0 := by
    rw [← hz]
    exact State.odP_odSetP_same _ _ _ _ _
  have hfabric : z.fabric = { s.fabric with tx := mdel s.fabric.tx k } := by
    rw [← hz]
    rfl
  have hother : ∀ {u : State} {sub sub' v : Nat}, sub' ≠ sub → sub < 256 → sub' < 256 →
      (u.odSetP 0x6110 sub k v).odP 0x6110 sub' k = u.odP 0x6110 sub' k := fun hne h h' =>
    State.odP_odSetP_ne _ (.inr (.inl hne)) h' (by omega) h (by omega)
  refine ⟨hfabric, ?_, ?_⟩
  · rw [hother (by decide) (by decide) (by decide), hother (by decide) (by decide) (by decide), hzero]
  · rw [hother (by decide) (by decide) (by decide), State.odP_odSetP_same]

/-- A stream that is closed early ends so (R307). -/
theorem State.closeTx_holds (hk : k < 32) (ht : mfind s.fabric.tx k = some t) (hchain : t.chain = false) (status code : Nat) :
    mfind (s.closeTx k status code).fabric.tx k = none ∧ (s.closeTx k status code).odP 0x6110 2 k = 0 ∧
      (s.closeTx k status code).odP 0x6110 3 k = code := by
  obtain ⟨z, hz, hclose⟩ : ∃ z, Within [.out] [0x6100] s z ∧ s.closeTx k status code = z.endTx k code := by
    unfold State.closeTx
    rw [ht]
    exact ⟨_, .ite (fun _ => .refl s) (fun _ => s.sendSealed_within _ _ _ _ _), rfl⟩
  obtain ⟨hfabric, hstate, hcode⟩ := State.endTx_holds (s := z) hk (by rw [hz.fabric (by decide), ht]) hchain code
  rw [hclose]
  refine ⟨?_, hstate, hcode⟩
  rw [hfabric]
  exact mfind_mdel_same _ _

/-- The failure of the receiver of a stream to one device ends it (R305). -/
theorem State.failReceiver_one (ht : mfind s.fabric.tx k = some t) (hgroup : t.group = false) {dev : Nat}
    (hdev : t.receivers.any (fun r => r.dev == dev) = true) (code : Nat) : s.failReceiver k dev code = s.endTx k code := by
  unfold State.failReceiver
  rw [ht]
  dsimp only
  rw [hdev, hgroup]
  rfl

/-- The end of a sending stream leaves what is received. -/
theorem State.endTx_rx (k code : Nat) : (s.endTx k code).fabric.rx = s.fabric.rx := by
  unfold State.endTx
  split
  · rfl
  · dsimp only
    split
    · split <;> rfl
    · rfl

theorem State.closeTx_rx (k status code : Nat) : (s.closeTx k status code).fabric.rx = s.fabric.rx := by
  unfold State.closeTx
  split
  · rfl
  · rw [State.endTx_rx]
    split
    · rfl
    · rw [(State.sendSealed_within _ _ _ _ _ _).fabric (by decide)]

/-! ### Opening and completing a stream -/

/-- The lowest PSN that some receiver lacks is none's beyond what one of them lacks. -/
theorem lowPsn_le {r : Receiver} (hr : r ∈ t.receivers) : lowPsn t ≤ r.cum := by
  have hfold : ∀ (l : List Receiver) (m : Nat), l.foldl (fun m r => min m r.cum) m ≤ m ∧
      ∀ x ∈ l, l.foldl (fun m r => min m r.cum) m ≤ x.cum := by
    intro l
    induction l with
    | nil => exact fun m => ⟨Nat.le_refl m, fun x hx => absurd hx List.not_mem_nil⟩
    | cons a l ih =>
      intro m
      obtain ⟨hm, hl⟩ := ih (min m a.cum)
      refine ⟨hm.trans (Nat.min_le_left _ _), fun x hx => ?_⟩
      rcases List.mem_cons.mp hx with rfl | hx
      · exact hm.trans (Nat.min_le_right _ _)
      · exact hl x hx
  exact (hfold t.receivers _).2 r hr

/-- How often a packet of a stream has been sent. -/
def TxStream.sends (t : TxStream) (psn : Nat) : Nat :=
  match mfind t.sent psn with
  | none => 0
  | some e => e.1

/-- A stream with a packet sent once more than in an earlier stand of it. -/
def TxStream.sentAs (u t : TxStream) (psn now : Nat) : TxStream :=
  { u with sent := mput u.sent psn (t.sends psn + 1, now) }

/-- The stream with a packet sent once more in the state, a repetition counted. -/
def State.psnNoted (s : State) (k : Nat) (t : TxStream) (psn : Nat) : State :=
  let s1 := s.modTx k (fun u => u.sentAs t psn s.clkTime)
  if t.sends psn = 0 then s1 else s1.odAdd 0x6100 0xE 1

theorem State.sendPsn_open_eq (ht : mfind s.fabric.tx k = some t) (only : Option Nat) :
    ∃ q, s.sendPsn k 0 only = (s.psnNoted k t 0).sendSealed (k % 32) t.kslot t.enc 4 q := by
  unfold State.sendPsn
  rw [ht]
  exact ⟨_, rfl⟩

theorem State.psnNoted_holds (ht : mfind s.fabric.tx k = some t) (psn : Nat) :
    Within [.fabric] [0x6100] s (s.psnNoted k t psn) ∧
      (s.psnNoted k t psn).fabric = { s.fabric with tx := mput s.fabric.tx k (t.sentAs t psn s.clkTime) } ∧
      (s.psnNoted k t psn).odG 0x6100 0xE = s.odG 0x6100 0xE + (if t.sends psn = 0 then 0 else 1) := by
  have hmod := s.modTx_within k (fun u => u.sentAs t psn s.clkTime)
  have hfabric : (s.modTx k (fun u => u.sentAs t psn s.clkTime)).fabric =
      { s.fabric with tx := mput s.fabric.tx k (t.sentAs t psn s.clkTime) } := by rw [State.modTx_eq _ ht]
  unfold State.psnNoted
  dsimp only
  split
  · exact ⟨hmod.mono, hfabric, hmod.odG⟩
  · refine ⟨hmod.mono.andThen (State.odAdd_within _ 1), hfabric, (State.odG_odAdd_same _ _ _ _).trans ?_⟩
    rw [hmod.odG]

/-- OPEN leaves a stream with its packet sent once more, and a repetition counted. -/
theorem State.sendPsn_open (ht : mfind s.fabric.tx k = some t) (only : Option Nat) :
    Within [.out, .fabric] [0x6100] s (s.sendPsn k 0 only) ∧
      (s.sendPsn k 0 only).fabric = { s.fabric with tx := mput s.fabric.tx k (t.sentAs t 0 s.clkTime) } ∧
      (s.sendPsn k 0 only).odG 0x6100 0xE = s.odG 0x6100 0xE + (if t.sends 0 = 0 then 0 else 1) := by
  obtain ⟨q, hsend⟩ := State.sendPsn_open_eq ht only
  obtain ⟨hwithin, hfabric, hcount⟩ := State.psnNoted_holds ht 0
  rw [hsend]
  generalize s.psnNoted k t 0 = z at hwithin hfabric hcount
  have hsealed := z.sendSealed_within (k % 32) t.kslot t.enc 4 q
  exact ⟨hwithin.mono.andThen hsealed, (hsealed.fabric (by decide)).trans hfabric,
    (State.sendSealed_odG _ _ _ _ _ (by decide) (by decide)).trans hcount⟩

/-- A stream of which a receiver lacks OPEN waits for it. -/
theorem State.pumpTx_waits (ht : mfind s.fabric.tx k = some t) (hphase : t.phase ≠ 1) (hnext : t.next ≠ 0)
    (hlow : lowPsn t = 0) (fuel : Nat) : s.pumpTx k (fuel + 1) = s := by
  rw [State.pumpTx, ht]
  dsimp only
  rw [hlow, if_neg hphase, if_neg hnext, if_neg (by omega), if_pos rfl]

/-- A stream that has not opened and whose receivers all lack OPEN sends OPEN, and waits. -/
theorem State.runTx_opens (ht : mfind s.fabric.tx k = some t) (hphase : t.phase ≠ 1) (hnext : t.next = 0)
    (hsome : t.receivers ≠ []) (hlack : ∀ r ∈ t.receivers, r.cum = 0) :
    Within [.out, .fabric] [0x6100] s (s.runTx k) ∧
      mfind (s.runTx k).fabric.tx k = some ({ t with next := 1 }.sentAs t 0 s.clkTime) := by
  obtain ⟨r, hr⟩ := List.exists_mem_of_ne_nil _ hsome
  have hrun : s.runTx k = s.pumpTx k (2054 + 1 + 1) := rfl
  have hmod := s.modTx_within k (fun t => { t with next := 1 })
  have hopen := State.modTx_tx (fun t => { t with next := 1 }) ht
  have hclk : (s.modTx k (fun t => { t with next := 1 })).clkTime = s.clkTime := hmod.clk (by decide)
  obtain ⟨hwithin, hfabric, -⟩ := State.sendPsn_open hopen none
  have hsent : mfind ((s.modTx k (fun t => { t with next := 1 })).sendPsn k 0 none).fabric.tx k =
      some ({ t with next := 1 }.sentAs t 0 s.clkTime) := by
    rw [hfabric, hclk]
    exact mfind_mput_same _ _ _
  rw [hrun, State.pumpTx, ht]
  dsimp only
  rw [if_neg hphase, if_pos hnext]
  generalize (s.modTx k (fun t => { t with next := 1 })).sendPsn k 0 none = z at hwithin hsent
  have hlow : lowPsn ({ t with next := 1 }.sentAs t 0 s.clkTime) = 0 :=
    Nat.le_zero.mp ((lowPsn_le (t := { t with next := 1 }.sentAs t 0 s.clkTime) hr).trans_eq (hlack r hr))
  rw [State.pumpTx_waits hsent hphase Nat.one_ne_zero hlow]
  exact ⟨hmod.mono.andThen hwithin, hsent⟩

/-- A stream whose receivers have all acknowledged every packet ends (R307). -/
theorem State.runTx_ends (ht : mfind s.fabric.tx k = some t) (hphase : t.phase ≠ 1) (hnext : t.next ≠ 0)
    (hall : packetsOf t.len + 1 ≤ lowPsn t) : s.runTx k = s.endTx k (if t.dropped then 0x0B0D else 0) := by
  have hrun : s.runTx k = s.pumpTx k (2055 + 1) := rfl
  rw [hrun, State.pumpTx, ht]
  dsimp only
  rw [if_neg hphase, if_neg hnext, if_pos hall]

end streams

/-! ### The end of a stage -/

section stages

variable {s : State} {p : Nat}

/-- The end of a sending stream leaves no running command without one. -/
theorem State.endTx_cmd (k code : Nat) (hcmd : (s.part p).cmd ≠ .none) : ((s.endTx k code).part p).cmd ≠ .none := by
  unfold State.endTx
  split
  · exact hcmd
  · dsimp only
    split
    · split
      · rw [State.part_modPart]
        split
        · exact nofun
        · exact hcmd
      · exact hcmd
    · exact hcmd

theorem State.closeTx_cmd (k status code : Nat) (hcmd : (s.part p).cmd ≠ .none) :
    ((s.closeTx k status code).part p).cmd ≠ .none := by
  unfold State.closeTx
  split
  · exact hcmd
  · refine State.endTx_cmd _ _ ?_
    split
    · exact hcmd
    · rw [State.part_of_parts (State.sendSealed_parts _ _ _ _ _ _)]
      exact hcmd

/-- The last steps of the end of a model command: its status shown, its locks free. -/
def State.modelEnded (s : State) (p code : Nat) : State :=
  (((((s.modPart p (fun P => { P with cmd := .none, endCode := 0 })).odSetP 0x5200 2 p 0).odSetP 0x5200 3 p code).unqueue
    (.install p)).endAct (.install p)).endAct (.evacuation p)

theorem State.modelEnded_holds (hp : p < 32) (code : Nat) :
    ((s.modelEnded p code).part p).cmd = .none ∧ (s.modelEnded p code).odP 0x5200 3 p = code := by
  unfold State.modelEnded
  constructor
  · rw [State.endAct_part, State.endAct_part, State.unqueue_part, State.odSetP_part, State.odSetP_part, State.part_modPart_same]
  · rw [State.freed_odP hp (by decide), State.odP_odSetP_same]

/-- A model command ends with its status: no command runs, and the status stands in OD 0x5200.03. -/
theorem State.endModelCmd_holds (hp : p < 32) (hcmd : (s.part p).cmd ≠ .none) (code : Nat) :
    ((s.endModelCmd p code).part p).cmd = .none ∧ (s.endModelCmd p code).odP 0x5200 3 p = code := by
  unfold State.endModelCmd
  split
  · rename_i hnone
    exact absurd hnone hcmd
  · exact State.modelEnded_holds hp code

/-- The stage of a partition ends with its status (R267): no command runs and nothing is received for it. -/
theorem State.endStage_holds (hp : p < 32) (hcmd : (s.part p).cmd ≠ .none) (code : Nat) :
    ((s.endStage p code).part p).cmd = .none ∧ (s.endStage p code).odP 0x5200 3 p = code ∧
      (s.endStage p code).fabric.rx = mdel s.fabric.rx p := by
  have hclosed := State.closeTx_cmd (p + 32) 0x0B0A code hcmd
  have hrx : (s.closeTx (p + 32) 0x0B0A code).fabric.rx = s.fabric.rx := State.closeTx_rx _ _ _
  unfold State.endStage
  generalize s.closeTx (p + 32) 0x0B0A code = z at hclosed hrx
  have hreport := (z.dropRx p).reportGroup_within p false
  have hrunning : (((z.dropRx p).reportGroup p false).part p).cmd ≠ .none := by
    rw [hreport.part, State.dropRx_part]
    exact hclosed
  obtain ⟨hnone, hstatus⟩ := State.endModelCmd_holds hp hrunning code
  refine ⟨hnone, hstatus, ?_⟩
  rw [(State.endModelCmd_within _ hp code).fabric (by decide), hreport.fabric (by decide)]
  exact congrArg (mdel · p) hrx

end stages

end Sys2Proof.Machine
end

section
/-!
SUPPORT. Fabric timers, links, frames that are not Falram and the fabric send command (R296, R297, R301–R307), and the
obligation O45.
-/

-- One proof after another: side conditions of frames are default arguments, and proofs elaborated at once would each wait
-- for the kernel in a thread of their own, past the memory limit.
set_option Elab.async false

namespace Sys2Proof.Machine

/-! ### A bit of a mask set or cleared -/

/-- Clearing a bit changes that bit alone. -/
theorem bit_setBit_clear (v i j : Nat) : bit (setBit v i false) j = (bit v j && !decide (i = j)) := by
  unfold setBit
  cases hbit : bit v i with
  | false =>
    rw [if_pos rfl]
    by_cases hij : i = j
    · subst hij
      rw [hbit, Bool.false_and]
    · rw [decide_eq_false hij, Bool.not_false, Bool.and_true]
  | true =>
    rw [if_neg (by decide), if_neg (by decide)]
    have hodd : v / 2 ^ i % 2 = 1 := by simpa [bit] using hbit
    have hle : 2 ^ i ≤ v := by
      by_contra hlt
      rw [Nat.div_eq_of_lt (Nat.not_le.mp hlt)] at hodd
      omega
    have hadd : v - 2 ^ i + 2 ^ i = v := Nat.sub_add_cancel hle
    have hclear : bit (v - 2 ^ i) i = false := by
      have hdiv : v / 2 ^ i = (v - 2 ^ i) / 2 ^ i + 1 := by
        rw [← Nat.add_div_right _ (Nat.two_pow_pos i), hadd]
      simp only [bit, beq_eq_false_iff_ne]
      omega
    by_cases hij : i = j
    · subst hij
      rw [hclear, decide_eq_true rfl, Bool.not_true, Bool.and_false]
    · rw [decide_eq_false hij, Bool.not_false, Bool.and_true, ← bit_add_two_pow hclear hij, hadd]

theorem bit_setBit_at (v i : Nat) (b : Bool) : bit (setBit v i b) i = b := by
  cases b with
  | false => rw [bit_setBit_clear, decide_eq_true rfl, Bool.not_true, Bool.and_false]
  | true => exact bit_setBit_same v i

theorem bit_setBit_ne (v : Nat) {i j : Nat} (h : i ≠ j) (b : Bool) : bit (setBit v i b) j = bit v j := by
  cases b with
  | false => rw [bit_setBit_clear, decide_eq_false h, Bool.not_false, Bool.and_true]
  | true => rw [bit_setBit, decide_eq_false h, Bool.or_false]

section events

variable {s : State}

/-! ### Peers (R301, R302) -/

theorem State.dropPeer_peer (dev : Nat) : (s.dropPeer dev).peer dev = none := by
  refine List.find?_eq_none.mpr fun e he => ?_
  simpa using (List.mem_filter.mp he).2

theorem State.dropPeer_peer_ne {dev d : Nat} (h : d ≠ dev) : (s.dropPeer dev).peer d = s.peer d := by
  refine List.find?_filter.trans (congrArg (List.find? · s.fabric.peers) (funext fun e => ?_))
  by_cases hd : e.dev = d
  · simp [hd, h]
  · simp [hd]

theorem State.countPeers_within : Within [] [0x6120] s s.countPeers := s.odSet_within _

theorem exec_keepaliveTimer (dev : Nat) : exec (.keepaliveTimer dev) s = .next
    (if s.streamsWith dev then s.sendPkt 2 { s.newPkt dev with payload := leBytes 4 (s.odG 0x6100 6) } else s) :=
  guardRes_next rfl rfl

theorem answers_peerIdle {dev : Nat} (h : s.streamsWith dev = false) : Answers (.peerIdleExpiry dev) s (fun u =>
    u.peer dev = none ∧ (∀ d, d ≠ dev → u.peer d = s.peer d) ∧ u.odG 0x6120 1 = u.fabric.peers.length) :=
  answers_next (u := (s.dropPeer dev).countPeers) (guardRes_next rfl (if_neg (by simp [h])))
    ⟨State.dropPeer_peer dev, fun _ => State.dropPeer_peer_ne, State.odG_odSet_same _ _ _ _⟩

/-- A packet that may leave does so on a link that is up, with its CRC-32C (R300, R302). -/
theorem State.sendPkt_leaves (hon : s.fabricOn = true) (hup : linksOf (s.odG 0x6100 6) ≠ []) (typ : Nat) (p : FalramPkt) :
    ∃ w frame, (s.sendPkt typ p).out = s.out ++ [Emission.falram typ w frame] ∧ crcOk typ w = true ∧ w.srcDev = p.srcDev ∧
      w.dst = p.dst ∧ w.payload = p.payload ∧ w.len = p.payload.length ∧ w.link ∈ linksOf (s.odG 0x6100 6) ∧
      (s.sendPkt typ p).odG 0x6100 0xC = s.odG 0x6100 0xC + 1 := by
  have hmask : s.odG 0x6100 6 ≠ 0 := fun h0 => hup (by rw [h0]; decide)
  have hcond : ¬((!s.fabricOn || decide (s.odG 0x6100 6 = 0)) = true) := by simp [hon, hmask]
  have hlink : pickLink (s.odG 0x6100 6) p.psn ∈ linksOf (s.odG 0x6100 6) := by
    have hpos : 0 < (linksOf (s.odG 0x6100 6)).length := List.length_pos_iff.mpr hup
    have hlt : p.psn % max (linksOf (s.odG 0x6100 6)).length 1 < (linksOf (s.odG 0x6100 6)).length := by
      rw [Nat.max_eq_left hpos]
      exact Nat.mod_lt _ hpos
    rw [pickLink, List.getD_eq_getElem _ _ hlt]
    exact List.getElem_mem hlt
  unfold State.sendPkt
  dsimp only
  rw [if_neg hcond]
  refine ⟨_, _, rfl, ?_, rfl, rfl, rfl, rfl, hlink, (State.odG_odAdd_same _ _ _ _).trans ?_⟩
  · exact beq_self_eq_true _
  · rw [State.emit_odG]

/-! ### Acknowledgements and retransmissions (R303) -/

section timers

variable {part : Nat} (hpart : part < 32)
include hpart

theorem noEffect_ackTimer_none (h : mfind s.fabric.rx part = none) : NoEffect (.ackTimer part) s := by
  refine guardRes_next (decide_eq_true hpart) ?_
  rw [h]

theorem noEffect_ackTimer_idle {r : RxStream} (h : mfind s.fabric.rx part = some r) (h0 : r.unacked = 0) :
    NoEffect (.ackTimer part) s := by
  refine guardRes_next (decide_eq_true hpart) ?_
  rw [h]
  exact if_neg (by omega)

end timers

/-- An acknowledgement leaves nothing to acknowledge. -/
theorem State.sendAck_holds {part : Nat} {r : RxStream} (h : mfind s.fabric.rx part = some r) :
    (s.sendAck part).fabric = { s.fabric with rx := mput s.fabric.rx part { r with unacked := 0 } } ∧
      Within [.out, .fabric] [0x6100] s (s.sendAck part) := by
  obtain ⟨q, hsend⟩ : ∃ q, s.sendAck part = State.sendSealed
      { s with fabric := { s.fabric with rx := mput s.fabric.rx part { r with unacked := 0 } } } part r.kslot r.enc 6 q := by
    unfold State.sendAck
    rw [h]
    exact ⟨_, rfl⟩
  have hsealed := State.sendSealed_within
    { s with fabric := { s.fabric with rx := mput s.fabric.rx part { r with unacked := 0 } } } part r.kslot r.enc 6 q
  rw [hsend]
  exact ⟨hsealed.fabric (by decide), (within_fabric s _).mono.andThen hsealed⟩

theorem answers_ackTimer {part : Nat} (hpart : part < 32) {r : RxStream} (h : mfind s.fabric.rx part = some r)
    (hdue : 0 < r.unacked) : Answers (.ackTimer part) s (fun u =>
      mfind u.fabric.rx part = some { r with unacked := 0 } ∧ u.parts = s.parts) := by
  obtain ⟨hfabric, hwithin⟩ := State.sendAck_holds h
  refine answers_next (u := s.sendAck part) (guardRes_next (decide_eq_true hpart) ?_) ⟨?_, hwithin.parts (by decide)⟩
  · rw [h]
    exact if_pos hdue
  · rw [hfabric]
    exact mfind_mput_same _ _ _

theorem State.txTimeout_none {k : Nat} (h : mfind s.fabric.tx k = none) (psn : Nat) : s.txTimeout k psn = s := by
  unfold State.txTimeout
  rw [h]

/-- The timeout of a packet that the one receiver of a stream lacks: the stream's end, or the packet sent again. -/
theorem State.txTimeout_one {k psn n at0 : Nat} {t : TxStream} {r : Receiver} (ht : mfind s.fabric.tx k = some t)
    (hsent : mfind t.sent psn = some (n, at0)) (hgroup : t.group = false) (hone : t.receivers = [r])
    (hlacks : lacks psn r = true) : s.txTimeout k psn =
      if s.odG 0x6100 0xA < n then s.failReceiver k r.dev 0x0B05 else s.sendPsn k psn none := by
  unfold State.txTimeout
  rw [ht]
  dsimp only
  rw [hsent]
  dsimp only
  rw [hone, List.filter_cons_of_pos hlacks, hgroup]
  rfl

section retransmission

variable {part psn n at0 : Nat} {t : TxStream} {r : Receiver} (hpart : part < 32) (ht : mfind s.fabric.tx part = some t)
  (hchained : mfind s.fabric.tx (part + 32) = none) (hsent : mfind t.sent psn = some (n, at0)) (hgroup : t.group = false)
  (hchain : t.chain = false) (hone : t.receivers = [r]) (hlacks : lacks psn r = true)
include hpart ht hchained hsent hgroup hone hlacks

include hchain in
theorem answers_retransmission_ends (hmany : s.odG 0x6100 0xA < n) : Answers (.retransmissionTimeout part psn) s (fun u =>
    mfind u.fabric.tx part = none ∧ u.odP 0x6110 2 part = 0 ∧ u.odP 0x6110 3 part = 0x0B05) := by
  have hfirst : s.txTimeout part psn = s.endTx part 0x0B05 := by
    rw [State.txTimeout_one ht hsent hgroup hone hlacks, if_pos hmany]
    exact State.failReceiver_one ht hgroup (by simp [hone]) 0x0B05
  obtain ⟨hfabric, hstate, hcode⟩ := State.endTx_holds hpart ht hchain 0x0B05
  have hnone : mfind (s.endTx part 0x0B05).fabric.tx (part + 32) = none := by
    rw [hfabric]
    exact (mfind_mdel_ne _ (by omega)).trans hchained
  refine answers_next (u := s.endTx part 0x0B05) (guardRes_next (decide_eq_true hpart) ?_) ⟨?_, hstate, hcode⟩
  · rw [hfirst, State.txTimeout_none hnone]
  · rw [hfabric]
    exact mfind_mdel_same _ _

theorem answers_retransmission_open (hfew : n ≤ s.odG 0x6100 0xA) (hopen : psn = 0) :
    Answers (.retransmissionTimeout part psn) s (fun u => ∃ t', mfind u.fabric.tx part = some t' ∧
      mfind t'.sent psn = some (n + 1, s.clkTime) ∧ (n ≠ 0 → u.odG 0x6100 0xE = s.odG 0x6100 0xE + 1)) := by
  subst hopen
  have hfirst : s.txTimeout part 0 = s.sendPsn part 0 none := by
    rw [State.txTimeout_one ht hsent hgroup hone hlacks, if_neg (by omega)]
  have hsends : t.sends 0 = n := by rw [TxStream.sends, hsent]
  obtain ⟨-, hfabric, hcount⟩ := State.sendPsn_open ht none
  have hnone : mfind (s.sendPsn part 0 none).fabric.tx (part + 32) = none := by
    rw [hfabric]
    exact (mfind_mput_ne _ _ (by omega)).trans hchained
  refine answers_next (u := s.sendPsn part 0 none) (guardRes_next (decide_eq_true hpart) ?_)
    ⟨t.sentAs t 0 s.clkTime, ?_, ?_, fun hn => ?_⟩
  · rw [hfirst, State.txTimeout_none hnone]
  · rw [hfabric]
    exact mfind_mput_same _ _ _
  · rw [TxStream.sentAs, hsends]
    exact mfind_mput_same _ _ _
  · rw [hcount, hsends, if_neg hn]

end retransmission

/-! ### Joins and waits (R304, R305) -/

theorem answers_joinWait {part : Nat} (hpart : part < 32) {t : TxStream} (ht : mfind s.fabric.tx part = some t)
    (hphase : t.phase = 1) (hnext : t.next = 0) (hsome : t.receivers ≠ []) (hlack : ∀ r ∈ t.receivers, r.cum = 0) :
    Answers (.joinWaitExpiry part) s (fun u => u.odP 0x6110 2 part = 2 ∧
      ∃ t', mfind u.fabric.tx part = some t' ∧ t'.phase = 2 ∧ t'.next = 1 ∧ t'.receivers = t.receivers) := by
  have hopen : mfind ((s.modTx part (fun t => { t with phase := 2 })).odSetP 0x6110 2 part 2).fabric.tx part =
      some { t with phase := 2 } := State.modTx_tx (fun t => { t with phase := 2 }) ht
  have hshown : ((s.modTx part (fun t => { t with phase := 2 })).odSetP 0x6110 2 part 2).odP 0x6110 2 part = 2 :=
    State.odP_odSetP_same _ _ _ _ _
  have hexec : exec (.joinWaitExpiry part) s =
      .next (((s.modTx part (fun t => { t with phase := 2 })).odSetP 0x6110 2 part 2).runTx part) := by
    refine guardRes_next (decide_eq_true hpart) ?_
    rw [ht]
    exact if_pos hphase
  generalize (s.modTx part (fun t => { t with phase := 2 })).odSetP 0x6110 2 part 2 = z at hopen hshown hexec
  obtain ⟨hwithin, hsent⟩ := State.runTx_opens hopen (show (2 : Nat) ≠ 1 by decide) hnext hsome hlack
  exact answers_next hexec ⟨(hwithin.od (by decide) (by decide) (by decide) (by omega)).trans hshown, _, hsent, rfl, rfl, rfl⟩

/-! ### Silence of a peer (R302) -/

/-- The open streams from a device end with its silence. -/
def State.silenced (dev : Nat) (e : Nat × RxStream) (s : State) : State :=
  if e.2.src = dev ∧ rxOpen e.2 = true then s.endStage e.1 0x0B01 else s

theorem exec_peerSilence (dev : Nat) {w : State}
    (hw : s.forEach (s.fabric.tx.map (fun e => e.1)) (fun k s => s.failReceiver k dev 0x0B01) = w) :
    exec (.peerSilence dev) s = .next (w.forEach w.fabric.rx (State.silenced dev)) := by
  subst hw
  exact guardRes_next rfl rfl

theorem noEffect_peerSilence {dev : Nat} (htx : s.fabric.tx = [])
    (hrx : ∀ e ∈ s.fabric.rx, e.2.src ≠ dev ∨ rxOpen e.2 = false) : NoEffect (.peerSilence dev) s := by
  have hnone : s.forEach s.fabric.rx (State.silenced dev) = s := State.forEach_unmoved fun e he => if_neg fun ⟨hsrc, hopen⟩ => by
    rcases hrx e he with h | h
    · exact h hsrc
    · rw [h] at hopen
      cases hopen
  exact (exec_peerSilence (w := s) dev (by rw [htx]; rfl)).trans (congrArg _ hnone)

theorem answers_peerSilence_send {part dev : Nat} {t : TxStream} {r : Receiver} (hpart : part < 32)
    (htx : s.fabric.tx = [(part, t)]) (hrx : s.fabric.rx = []) (hgroup : t.group = false) (hchain : t.chain = false)
    (hone : t.receivers = [r]) (hdev : r.dev = dev) : Answers (.peerSilence dev) s (fun u =>
      u.fabric.tx = [] ∧ u.odP 0x6110 3 part = 0x0B01) := by
  have ht : mfind s.fabric.tx part = some t := by
    rw [htx]
    exact if_pos rfl
  have hfail : s.failReceiver part dev 0x0B01 = s.endTx part 0x0B01 := State.failReceiver_one ht hgroup (by simp [hone, hdev]) _
  have hw : s.forEach (s.fabric.tx.map (fun e => e.1)) (fun k s => s.failReceiver k dev 0x0B01) = s.endTx part 0x0B01 := by
    rw [htx]
    exact hfail
  obtain ⟨hfabric, -, hcode⟩ := State.endTx_holds hpart ht hchain 0x0B01
  have hexec := exec_peerSilence dev hw
  have hnothing : (s.endTx part 0x0B01).fabric.rx = [] := by rw [hfabric, ← hrx]
  have hgone : (s.endTx part 0x0B01).fabric.tx = [] := by
    rw [hfabric]
    change mdel s.fabric.tx part = []
    rw [htx]
    exact if_pos rfl
  rw [hnothing] at hexec
  exact answers_next hexec ⟨hgone, hcode⟩

theorem answers_peerSilence_stage {part dev : Nat} {r : RxStream} (hpart : part < 32) (htx : s.fabric.tx = [])
    (hrx : s.fabric.rx = [(part, r)]) (hsrc : r.src = dev) (hopen : rxOpen r = true) (hcmd : (s.part part).cmd ≠ .none) :
    Answers (.peerSilence dev) s (fun u =>
      u.fabric.rx = [] ∧ (u.part part).cmd = .none ∧ u.odP 0x5200 3 part = 0x0B01) := by
  have hw : s.forEach (s.fabric.tx.map (fun e => e.1)) (fun k s => s.failReceiver k dev 0x0B01) = s := by
    rw [htx]
    rfl
  have hend : s.forEach s.fabric.rx (State.silenced dev) = s.endStage part 0x0B01 := by
    rw [hrx]
    exact if_pos ⟨hsrc, hopen⟩
  obtain ⟨hnone, hcode, hgone⟩ := State.endStage_holds hpart hcmd 0x0B01
  refine answers_next ((exec_peerSilence dev hw).trans (congrArg _ hend)) ⟨?_, hnone, hcode⟩
  rw [hgone, hrx]
  exact if_pos rfl

/-! ### Links (R296, R302, R424) -/

section link

variable {link : Nat} (hlink : link < 32)
include hlink

theorem noEffect_linkChange {up : Bool} (h : (s.linkExists link && (!up || s.linkClock link)) = false) :
    NoEffect (.ethernetLinkChange link up) s := guardRes_next (decide_eq_true hlink) (if_neg (by rw [h]; decide))

theorem answers_linkChange {up : Bool} (hexists : s.linkExists link = true) (hclock : up = false ∨ s.linkClock link = true) :
    Answers (.ethernetLinkChange link up) s (fun u => bit (u.odG 0x6100 6) link = up ∧
      (∀ l, l ≠ link → bit (u.odG 0x6100 6) l = bit (s.odG 0x6100 6) l) ∧ u.fabric = s.fabric) := by
  have hcond : (s.linkExists link && (!up || s.linkClock link)) = true := by
    rcases hclock with h | h <;> simp [hexists, h]
  have hexec : exec (.ethernetLinkChange link up) s = .next ((s.odSet 0x6100 6 (setBit (s.odG 0x6100 6) link up)).odSet 0x6101
      (link / 2 + 1) (s.portState (link / 2) (setBit (s.odG 0x6100 6) link up))) :=
    guardRes_next (decide_eq_true hlink) (if_pos hcond)
  have hmask : ((s.odSet 0x6100 6 (setBit (s.odG 0x6100 6) link up)).odSet 0x6101 (link / 2 + 1)
      (s.portState (link / 2) (setBit (s.odG 0x6100 6) link up))).odG 0x6100 6 = setBit (s.odG 0x6100 6) link up :=
    (State.odG_odSet_ne _ (.inl (by decide)) (by decide) (by omega)).trans (s.odG_odSet_same _ _ _)
  refine answers_next hexec ⟨?_, fun l hl => ?_, rfl⟩
  · rw [hmask, bit_setBit_at]
  · rw [hmask, bit_setBit_ne _ (Ne.symm hl)]

end link

/-! ### Frames that are not Falram (R297, R385) -/

section frames

variable {on : Option Nat} (hwf : on.all (fun l => decide (l < 32)) = true)
include hwf

theorem noEffect_frames (target : Nat) (data : List Byte) (h : s.netThere on = false) :
    NoEffect (.neighborSolicitation on target) s ∧ NoEffect (.echoRequest on target data) s ∧ NoEffect (.foreignFrame on) s :=
  ⟨guardRes_next hwf (if_pos (by simp [h])), guardRes_next hwf (if_pos (by simp [h])), guardRes_next hwf (if_neg (by simp [h]))⟩

variable (hthere : s.netThere on = true)
include hthere

theorem exec_frames (target : Nat) (data : List Byte) :
    exec (.neighborSolicitation on target) s = .next
      (if s.ownAddress on target then s.emit (.advert on target) else s.foreignFrame on) ∧
    exec (.echoRequest on target data) s = .next
      (if s.ownAddress on target then s.emit (.echo on target data) else s.foreignFrame on) :=
  ⟨guardRes_next hwf (if_neg (by simp [hthere])), guardRes_next hwf (if_neg (by simp [hthere]))⟩

theorem exec_foreignFrame : exec (.foreignFrame on) s = .next (s.foreignFrame on) :=
  guardRes_next hwf (if_pos hthere)

end frames

end events

/-! ### The fabric send command (R307) -/

/-- The stream that a partition opens to a device. -/
def State.newStream (s : State) (p handle dst : Nat) : TxStream :=
  { handle := handle, group := false, dst := dst, stream := s.nextStream p (s.odEff 0x6111 1 p),
    enc := (linkKey (s.part p) (s.odEff 0x6111 1 p)).isSome, kslot := s.odEff 0x6111 1 p, len := (handleOf (s.part p) handle).len,
    chain := false, phase := 2, receivers := [{ dev := dst }] }

/-- The stream in its place, and what its partition shows, before it moves on. -/
def State.streamPlaced (s : State) (p handle dst : Nat) : State :=
  let kslot := s.odEff 0x6111 1 p
  let n := s.nextStream p kslot
  let s1 := s.modPart p (fun P => { P with streams := mset 0 P.streams kslot (n + 1) })
  let s2 := { s1 with fabric := { s1.fabric with tx := mput s1.fabric.tx p (s.newStream p handle dst) } }
  (s2.odSetP 0x6110 2 p 2).odSetP 0x6110 4 p 1

theorem State.openTx_eq (s : State) {p : Nat} (hp : p < 32) (handle dst : Nat) :
    s.openTx p handle dst false false = (s.streamPlaced p handle dst).runTx p := by
  have hmod : p % 32 = p := Nat.mod_eq_of_lt hp
  unfold State.openTx
  rw [hmod]
  rfl

theorem State.streamPlaced_holds (s : State) {p : Nat} (hp : p < 32) (handle dst : Nat) :
    mfind (s.streamPlaced p handle dst).fabric.tx p = some (s.newStream p handle dst) ∧
      (s.streamPlaced p handle dst).odP 0x6110 2 p = 2 ∧ (s.streamPlaced p handle dst).odP 0x6110 4 p = 1 := by
  unfold State.streamPlaced
  refine ⟨mfind_mput_same _ _ _, ?_, State.odP_odSetP_same _ _ _ _ _⟩
  exact (State.odP_odSetP_ne _ (.inr (.inl (by decide))) (by decide) (by omega) (by decide) (by omega)).trans
    (State.odP_odSetP_same _ _ _ _ _)

/-- A stream that opens has sent OPEN, and its partition shows it sending to one receiver. -/
theorem State.openTx_holds (s : State) {p : Nat} (hp : p < 32) (handle dst : Nat) :
    (∃ t, mfind (s.openTx p handle dst false false).fabric.tx p = some t ∧ t.handle = handle ∧ t.dst = dst ∧ t.phase = 2 ∧
      t.next = 1 ∧ t.receivers = [{ dev := dst }] ∧ t.len = (handleOf (s.part p) handle).len ∧ t.chain = false) ∧
    (s.openTx p handle dst false false).odP 0x6110 2 p = 2 ∧ (s.openTx p handle dst false false).odP 0x6110 4 p = 1 := by
  obtain ⟨ht, hstate, hcount⟩ := s.streamPlaced_holds hp handle dst
  rw [s.openTx_eq hp]
  generalize s.streamPlaced p handle dst = z at ht hstate hcount
  obtain ⟨hwithin, hsent⟩ := State.runTx_opens ht (show (2 : Nat) ≠ 1 by decide) rfl (List.cons_ne_nil _ _)
    (fun r hr => by rw [List.mem_singleton.mp hr])
  exact ⟨⟨_, hsent, rfl, rfl, rfl, rfl, rfl, rfl, rfl⟩,
    (hwithin.od (by decide) (by decide) (by decide) (by omega)).trans hstate,
    (hwithin.od (by decide) (by decide) (by decide) (by omega)).trans hcount⟩

/-- A send with no other of its partition running. -/
theorem State.startSend_free {s : State} {part : Nat} {cmd : List Byte} (hnone : mfind s.fabric.tx part = none) :
    s.counted.startSend part cmd =
      if (handleOf (s.part part) (fieldN cmd 2 1 % 16)).st ≠ 2 ∧ (handleOf (s.part part) (fieldN cmd 2 1 % 16)).st ≠ 3 ∧
        (handleOf (s.part part) (fieldN cmd 2 1 % 16)).st ≠ 4 then (s.counted, 0x0207)
      else if bit (fieldN cmd 1 1) 0 = true ∧ fieldN cmd 4 2 = 0 then (s.counted, 0x0003)
      else if s.counted.txRefusal part (fieldN cmd 4 2) (bit (fieldN cmd 1 1) 0) = 0x0B01 then
        (s.counted.sendHello (fieldN cmd 4 2), s.counted.txRefusal part (fieldN cmd 4 2) (bit (fieldN cmd 1 1) 0))
      else if s.counted.txRefusal part (fieldN cmd 4 2) (bit (fieldN cmd 1 1) 0) ≠ 0 then
        (s.counted, s.counted.txRefusal part (fieldN cmd 4 2) (bit (fieldN cmd 1 1) 0))
      else (s.counted.openTx part (fieldN cmd 2 1 % 16) (fieldN cmd 4 2) (bit (fieldN cmd 1 1) 0) false, 0) := by
  have hnot : ¬((mfind s.counted.fabric.tx part).isSome = true) := by
    change ¬((mfind s.fabric.tx part).isSome = true)
    rw [hnone]
    decide
  exact if_neg hnot

/-- A send of a staged handle to one device. -/
theorem State.startSend_single {s : State} {part : Nat} {cmd : List Byte} (hnone : mfind s.fabric.tx part = none)
    (hst : (handleOf (s.part part) (fieldN cmd 2 1 % 16)).st = 2 ∨ (handleOf (s.part part) (fieldN cmd 2 1 % 16)).st = 3 ∨
      (handleOf (s.part part) (fieldN cmd 2 1 % 16)).st = 4) (hflags : fieldN cmd 1 1 = 0) :
    s.counted.startSend part cmd =
      if s.counted.txRefusal part (fieldN cmd 4 2) false = 0x0B01 then (s.counted.sendHello (fieldN cmd 4 2), 0x0B01)
      else if s.counted.txRefusal part (fieldN cmd 4 2) false ≠ 0 then
        (s.counted, s.counted.txRefusal part (fieldN cmd 4 2) false)
      else (s.counted.openTx part (fieldN cmd 2 1 % 16) (fieldN cmd 4 2) false false, 0) := by
  have hgroup : bit (fieldN cmd 1 1) 0 = false := by rw [hflags]; rfl
  rw [State.startSend_free hnone, hgroup, if_neg (by omega), if_neg (by simp)]
  split
  · rename_i h
    rw [h]
  · rfl

section sendCommand

variable {s : State} {c : Caller} {part : Nat} {cmd : List Byte} (hpart : part < 32) (h : Admitted s c 0x6110 1 part)
include hpart

theorem exec_fabricSend : exec (.fabricSend c part cmd) s =
    guardRes (callerOk c) (s.command c 0x6110 1 part (State.sendCommand c part cmd)) ∧
    exec (.fabricAbort c part cmd) s = guardRes (callerOk c) (s.command c 0x6110 1 part (State.sendCommand c part cmd)) := by
  have hguard : (callerOk c && partOk part) = callerOk c := by
    rw [partOk, decide_eq_true hpart, Bool.and_true]
  exact ⟨congrArg (fun b => guardRes b _) hguard, congrArg (fun b => guardRes b _) hguard⟩

variable (hlen : cmd.length = 32) (hres : sendReserved cmd = false) (hsealed : s.counted.sealedFrom c part = false)
  (hstate : s.counted.partState part = 1) (hstandby : s.counted.standby = false)
include hlen hres

omit hpart in
theorem State.sendCommand_unsent (hopc : fieldN cmd 0 1 = 0x61) (hnone : mfind s.fabric.tx part = none) :
    State.sendCommand c part cmd s.counted = (s.counted, 0x0009) := by
  have hnone' : mfind s.counted.fabric.tx part = none := hnone
  unfold State.sendCommand
  simp [hlen, hopc, hres, hnone']

include hsealed hstate hstandby

omit hpart in
theorem State.sendCommand_abort (hopc : fieldN cmd 0 1 = 0x61) {t : TxStream} (ht : mfind s.fabric.tx part = some t) :
    State.sendCommand c part cmd s.counted = (s.counted.closeTx part 0x0B0A 0x0B0A, 0) := by
  have ht' : mfind s.counted.fabric.tx part = some t := ht
  unfold State.sendCommand
  simp [hlen, hopc, hres, ht', hsealed, hstate, hstandby]

omit hpart in
theorem State.sendCommand_send (hopc : fieldN cmd 0 1 = 0x60) :
    State.sendCommand c part cmd s.counted = s.counted.startSend part cmd := by
  unfold State.sendCommand
  simp [hlen, hopc, hres, hsealed, hstate, hstandby]

end sendCommand

end Sys2Proof.Machine

open Sys2Proof Sys2Proof.Machine

/-- Settles O45, by the effect of each timer, frame and command on the streams of the fabric, said once for each operation on
a stream (log 113, 138). -/
theorem fabricTimersAndSends : Obligations.FabricTimersAndSends := by
  unfold Obligations.FabricTimersAndSends
  intro s dev part link target data hpart hlink
  refine ⟨fun h => ⟨?_, answers_peerIdle h⟩, fun h => ⟨?_, ?_⟩, fun h hon hup => ?_, noEffect_ackTimer_none hpart,
    fun r hr => ⟨noEffect_ackTimer_idle hpart hr, answers_ackTimer hpart hr⟩, fun psn h h' => ?_,
    fun psn t n at0 r ht hchained hsent hgroup hchain hone hlacks => ⟨?_, ?_⟩, fun h => ?_,
    fun g source len got next bad hcmd => ⟨fun h => ?_, fun h => ?_⟩, fun h => ?_, fun t ht => ⟨fun hphase => ?_, ?_⟩,
    noEffect_peerSilence, fun t r htx hrx hgroup hchain hone hdev => answers_peerSilence_send hpart htx hrx hgroup hchain hone hdev,
    fun r htx hrx hsrc hopen hcmd => answers_peerSilence_stage hpart htx hrx hsrc hopen hcmd, fun h => ?_, fun h => ?_,
    fun up => ⟨fun h => ?_, fun hup h => ?_, answers_linkChange hlink⟩, fun on hon => ?_,
    fun c cmd h hlen hres hsealed hstate hstandby => ?_⟩
  · exact (exec_keepaliveTimer dev).trans (congrArg _ (if_neg (by simp [h])))
  · exact guardRes_next rfl (if_pos h)
  · exact (exec_keepaliveTimer dev).trans (congrArg _ (if_pos h))
  · obtain ⟨w, frame, hout, hcrc, hsrc, hdst, hpay, hlen, hin, hcount⟩ := State.sendPkt_leaves hon hup 2
      { s.newPkt dev with payload := leBytes 4 (s.odG 0x6100 6) }
    refine answers_next ((exec_keepaliveTimer dev).trans (congrArg _ (if_pos h)))
      ⟨w, frame, hout, hcrc, hsrc, hdst, hpay, hlen.trans (length_leBytes 4 _), hin, hcount⟩
  · refine guardRes_next (decide_eq_true hpart) ?_
    rw [State.txTimeout_none h, State.txTimeout_none h']
  · exact answers_retransmission_ends hpart ht hchained hsent hgroup hchain hone hlacks
  · exact answers_retransmission_open hpart ht hchained hsent hgroup hone hlacks
  · refine guardRes_next (decide_eq_true hpart) ?_
    rw [h]
  · refine guardRes_next (decide_eq_true hpart) ?_
    rw [hcmd, h]
    rfl
  · refine guardRes_next (decide_eq_true hpart) ?_
    rw [hcmd]
    exact if_neg (by simpa using h)
  · refine guardRes_next (decide_eq_true hpart) ?_
    rw [h]
  · refine guardRes_next (decide_eq_true hpart) ?_
    rw [ht]
    exact if_neg hphase
  · exact fun hphase _ hnext hsome hlack => answers_joinWait hpart ht hphase hnext hsome hlack
  · exact guardRes_next (decide_eq_true hlink) (if_pos h)
  · exact guardRes_next (decide_eq_true hlink) (if_neg (by simp [h]))
  · exact noEffect_linkChange hlink (by rw [h, Bool.false_and])
  · exact noEffect_linkChange hlink (by rw [hup, h, Bool.not_true, Bool.false_or, Bool.and_false])
  · have hwf : on.all (fun l => decide (l < 32)) = true := by
      rcases hon with rfl | rfl
      · rfl
      · exact decide_eq_true hlink
    refine ⟨noEffect_frames hwf target data, fun hthere => ?_⟩
    obtain ⟨hsolicit, hecho⟩ := exec_frames hwf hthere target data
    refine ⟨fun hown => ⟨hsolicit.trans (congrArg _ (if_pos hown)), hecho.trans (congrArg _ (if_pos hown))⟩,
      fun hown => ⟨hsolicit.trans (congrArg _ (if_neg (by simp [hown]))), hecho.trans (congrArg _ (if_neg (by simp [hown])))⟩,
      fun hsome => ?_, fun hnone => ?_⟩
    · subst hsome
      exact exec_foreignFrame hwf hthere
    · subst hnone
      exact answers_next (exec_foreignFrame hwf hthere) ((State.log_within _ _).odG.trans (State.odG_odAdd_same _ _ _ _))
  · obtain ⟨hsend, habort⟩ := exec_fabricSend (s := s) (c := c) (cmd := cmd) hpart
    refine ⟨fun hopc hrunning => ?_, fun hopc hnone => ⟨fun h2 h3 h4 => ?_, fun hst hflags => ⟨fun hrefused => ?_, fun hfree => ?_⟩⟩,
      fun hopc => ⟨fun hnone => ?_, fun t ht hchain => ?_⟩⟩
    · have hsome : (mfind s.counted.fabric.tx part).isSome = true := Option.isSome_iff_ne_none.mpr hrunning
      exact h.refuses hsend ((State.sendCommand_send hlen hres hsealed hstate hstandby hopc).trans (if_pos hsome))
    · refine h.refuses hsend ((State.sendCommand_send hlen hres hsealed hstate hstandby hopc).trans ?_)
      exact (State.startSend_free hnone).trans (if_pos ⟨h2, h3, h4⟩)
    · refine h.exec_eq hsend ((State.sendCommand_send hlen hres hsealed hstate hstandby hopc).trans ?_)
      exact (State.startSend_single hnone hst hflags).trans (if_pos hrefused)
    · obtain ⟨hstream, hshown, hcount⟩ := s.counted.openTx_holds hpart (fieldN cmd 2 1 % 16) (fieldN cmd 4 2)
      have hrun := (State.sendCommand_send hlen hres hsealed hstate hstandby hopc).trans
        ((State.startSend_single hnone hst hflags).trans ((if_neg (by rw [hfree]; decide)).trans (if_neg (not_not.mpr hfree))))
      have hexec := h.exec_eq hsend hrun
      generalize s.counted.openTx part (fieldN cmd 2 1 % 16) (fieldN cmd 4 2) false false = z at hstream hshown hcount hexec
      exact answers_next hexec ⟨hstream, hshown, hcount, List.getLast?_concat⟩
    · exact h.refuses habort (State.sendCommand_unsent hlen hres hopc hnone)
    · obtain ⟨hgone, hshown, hcode⟩ := State.closeTx_holds (s := s.counted) hpart ht hchain 0x0B0A 0x0B0A
      have hexec := h.exec_eq habort (State.sendCommand_abort hlen hres hsealed hstate hstandby hopc ht)
      generalize s.counted.closeTx part 0x0B0A 0x0B0A = z at hgone hshown hcode hexec
      exact answers_next hexec ⟨hgone, hshown, hcode, List.getLast?_concat⟩
end

section
/-!
SUPPORT. Falram packets received (R298–R308), and the obligation O44.
-/

-- One proof after another: side conditions of frames are default arguments, and proofs elaborated at once would each wait
-- for the kernel in a thread of their own, past the memory limit.
set_option Elab.async false

namespace Sys2Proof.Machine

section packets

variable {s : State} {p : FalramPkt} {typ : Nat} {run : State → State}

/-! ### Receiving (R298, R300, R301) -/

/-- Each packet command takes its packet as its type asks. -/
theorem exec_packet (hp : packetOk p = true) {e : Nat × Instr} (he : e ∈ packetCommands p) :
    ∃ run, exec e.2 s = .next (s.receive e.1 p run) := by
  simp only [packetCommands, List.mem_cons, List.not_mem_nil, or_false] at he
  rcases he with rfl | rfl | rfl | rfl | rfl | rfl | rfl | rfl
  all_goals exact ⟨_, guardRes_next hp rfl⟩

theorem State.receive_absent (h : s.fabricOn = false ∨ s.linkExists p.link = false) : s.receive typ p run = s :=
  if_pos (by rcases h with h | h <;> simp [h])

section there

variable (hon : s.fabricOn = true) (hlink : s.linkExists p.link = true)
include hon hlink

theorem State.receive_damaged (hcrc : crcOk typ p = false) :
    s.receive typ p run = (s.odAdd 0x6100 0xD 1).odAdd 0x6100 0xF 1 :=
  (if_neg (by simp [hon, hlink])).trans (if_pos (by simp [hcrc]))

theorem State.receive_foreign (hcrc : crcOk typ p = true) (hcast : p.mcast = false) (hdst : p.dst ≠ s.fabric.devId) :
    s.receive typ p run = s.odAdd 0x6100 0xD 1 :=
  (if_neg (by simp [hon, hlink])).trans ((if_neg (by simp [hcrc])).trans (if_pos (by simp [hcast, hdst])))

end there

section comes

variable (h : Comes s typ p)
include h

/-- A packet that comes passes the checks of every type. -/
theorem Comes.checked : ¬((!s.fabricOn || !s.linkExists p.link) = true) ∧ ¬((!crcOk typ p) = true) ∧
    ¬((!p.mcast && p.dst != s.fabric.devId) = true) ∧ ¬(packetBad typ p = true) := by
  obtain ⟨-, hon, hlink, hdst, hcrc, hgood⟩ := h
  refine ⟨by simp [hon, hlink], by simp [hcrc], ?_, by simp [hgood]⟩
  rcases hdst with h | h <;> simp [h]

end comes

theorem Comes.receive_hello (h : Comes s 1 p) (hsrc : p.srcDev ≠ s.fabric.devId) :
    s.receive 1 p run = run (s.odAdd 0x6100 0xD 1) := by
  obtain ⟨hthere, hcrc, hmine, hgood⟩ := h.checked
  unfold State.receive
  rw [if_neg hthere]
  dsimp only
  rw [if_neg hcrc, if_neg hmine, if_neg hgood, if_pos rfl]
  exact if_neg hsrc

theorem Comes.receive_stranger (h : Comes s typ p) (htyp : typ ≠ 1) (hnone : s.peer p.srcDev = none) :
    s.receive typ p run = ((s.odAdd 0x6100 0xD 1).sendHello p.srcDev).odAdd 0x6100 0x11 1 := by
  obtain ⟨hthere, hcrc, hmine, hgood⟩ := h.checked
  have hnone' : (s.odAdd 0x6100 0xD 1).peer p.srcDev = none := hnone
  unfold State.receive
  rw [if_neg hthere]
  dsimp only
  rw [if_neg hcrc, if_neg hmine, if_neg hgood, if_neg htyp, hnone']

theorem FromPeer.receive_eq (h : FromPeer s typ p) (htyp : typ ≠ 1) : s.receive typ p run = run (s.heard p) := by
  obtain ⟨hcomes, e, he, hver⟩ := h
  obtain ⟨hthere, hcrc, hmine, hgood⟩ := hcomes.checked
  have he' : (s.odAdd 0x6100 0xD 1).peer p.srcDev = some e := he
  unfold State.receive
  rw [if_neg hthere]
  dsimp only
  rw [if_neg hcrc, if_neg hmine, if_neg hgood, if_neg htyp, he']
  exact if_neg (not_not.mpr hver)

theorem FromPeer.ok (h : FromPeer s typ p) : packetOk p = true := h.1.1

/-- A packet of a peer changes before all the time it was heard at, and a count. -/
theorem State.heard_within : Within [.fabric] [0x6100] s (s.heard p) :=
  (s.odAdd_within 1).mono.andThen (within_fabric _ _)

theorem State.heard_odG {sub : Nat} (hsub : sub < 256) (hne : sub ≠ 0xD) : (s.heard p).odG 0x6100 sub = s.odG 0x6100 sub := by
  have h : (s.odAdd 0x6100 0xD 1).odG 0x6100 sub = s.odG 0x6100 sub := State.odG_odAdd_ne s (.inr hne) hsub (by decide)
  exact h

/-! ### Payloads in clear (R306) -/

theorem Clear.withPayload {n : Nat} {b : List Byte} (h : Clear s typ n p b) (run : List Byte → State → State) :
    s.withPayload typ n p run = run b s := by
  obtain ⟨hclear, hgood⟩ := h
  unfold State.withPayload
  rw [hclear]
  exact if_neg (by rw [hgood]; decide)

/-! ### NAKs (R308) -/

theorem State.sendHello_within (dev : Nat) : Within [.out] [0x6100] s (s.sendHello dev) := s.sendPkt_within _ _

/-- The count of NAKs, and the time at which one leaves noted. -/
def State.nakNoted (s : State) (at0 : SMap Nat) : State :=
  let s1 := s.odAdd 0x6100 0x12 1
  { s1 with fabric := { s1.fabric with nakAt := at0 } }

/-- A NAK is counted, and leaves where none has left for its device lately. -/
theorem State.nak_eq (p : FalramPkt) (status : Nat) (part : Option (Nat × Nat)) :
    s.nak p status part = s.odAdd 0x6100 0x12 1 ∨
      ∃ at0 n kslot enc q, s.nak p status part = (s.nakNoted at0).sendSealed n kslot enc 7 q := by
  unfold State.nak
  dsimp only
  split_ifs
  · exact .inl rfl
  · cases part with
    | none => exact .inr ⟨mput s.fabric.nakAt p.srcDev s.clkTime, 0, 0, false, _, rfl⟩
    | some e => exact .inr ⟨mput s.fabric.nakAt p.srcDev s.clkTime, e.1, e.2, true, _, rfl⟩

/-- A NAK leaves the streams and peers, and of OD 0x6100 touches its own count and that of packets sent. -/
theorem State.nak_holds (p : FalramPkt) (status : Nat) (part : Option (Nat × Nat)) :
    Within [.out, .fabric] [0x6100] s (s.nak p status part) ∧
      (∃ m, (s.nak p status part).fabric = { s.fabric with nakAt := m }) ∧
      ∀ sub, sub < 256 → sub ≠ 0xC → sub ≠ 0x12 → (s.nak p status part).odG 0x6100 sub = s.odG 0x6100 sub := by
  have hcount : ∀ sub, sub < 256 → sub ≠ 0x12 → (s.odAdd 0x6100 0x12 1).odG 0x6100 sub = s.odG 0x6100 sub :=
    fun sub hsub hne => State.odG_odAdd_ne _ (.inr hne) hsub (by decide)
  obtain h | ⟨at0, n, kslot, enc, q, h⟩ := s.nak_eq p status part
  · rw [h]
    exact ⟨(s.odAdd_within 1).mono, ⟨s.fabric.nakAt, rfl⟩, fun sub hsub _ hne => hcount sub hsub hne⟩
  · have hnoted : Within [.fabric] [0x6100] s (s.nakNoted at0) := (s.odAdd_within 1).mono.andThen (within_fabric _ _)
    have hsealed := (s.nakNoted at0).sendSealed_within n kslot enc 7 q
    rw [h]
    refine ⟨hnoted.mono.andThen hsealed, ⟨at0, hsealed.fabric (by decide)⟩, fun sub hsub hC h12 => ?_⟩
    exact (State.sendSealed_odG _ _ _ _ _ hsub hC).trans (hcount sub hsub h12)

/-- A violation of a peer is counted, and leaves the streams and peers (R308). -/
theorem State.peerFault_holds (p : FalramPkt) (status : Nat) (part : Option (Nat × Nat)) :
    Within [.out, .fabric] [0x6100] s (s.peerFault p status part) ∧
      (∃ m, (s.peerFault p status part).fabric = { s.fabric with nakAt := m }) ∧
      (s.peerFault p status part).odG 0x6100 0x11 = s.odG 0x6100 0x11 + 1 := by
  have hlog := State.log_within (s.odAdd 0x6100 0x11 1)
    { rule := 308, status := status, sev := 1, source := 6, data := [p.srcDev, p.stream, p.psn] }
  have hlogged : Within [] [0x6100] s ((s.odAdd 0x6100 0x11 1).log
      { rule := 308, status := status, sev := 1, source := 6, data := [p.srcDev, p.stream, p.psn] }) :=
    (s.odAdd_within 1).andThen hlog
  have hcount := hlog.odG (idx := 0x6100) (sub := 0x11)
  unfold State.peerFault
  dsimp only
  generalize (s.odAdd 0x6100 0x11 1).log { rule := 308, status := status, sev := 1, source := 6, data := [p.srcDev, p.stream, p.psn] } = z
    at hlogged hcount
  obtain ⟨hwithin, ⟨m, hfabric⟩, hother⟩ := z.nak_holds p status part
  refine ⟨hlogged.mono.andThen hwithin, ⟨m, ?_⟩, ?_⟩
  · rw [hfabric, hlogged.fabric (by decide)]
  · rw [hother 0x11 (by decide) (by decide) (by decide), hcount, State.odG_odAdd_same]

end packets

end Sys2Proof.Machine
end

section
/-!
SUPPORT. What each type of Falram packet does to peers and streams (R301–R308), and the obligation O44.
-/

-- One proof after another: side conditions of frames are default arguments, and proofs elaborated at once would each wait
-- for the kernel in a thread of their own, past the memory limit.
set_option Elab.async false

namespace Sys2Proof.Machine

section types

variable {s : State} {p : FalramPkt}

/-! ### HELLO (R301) -/

/-- The peer's entry in its place, its device usable again, and the entries counted. -/
def State.peerTaken (s : State) (e : Peer) : State :=
  let s1 := (s.dropPeer e.dev).dropPeer e.dev
  ({ s1 with fabric := { s1.fabric with peers := s1.fabric.peers ++ [e],
                                        unusable := s1.fabric.unusable.filter (· != e.dev) } }).countPeers

/-- The peer's entry gone, its device unusable, and the entries counted. -/
def State.peerRefused (s : State) (dev : Nat) : State :=
  ({ (s.dropPeer dev) with fabric := { (s.dropPeer dev).fabric with
      unusable := dev :: s.fabric.unusable.filter (· != dev) } }).countPeers

theorem State.peerTaken_holds (s : State) (e : Peer) :
    (s.peerTaken e).peer e.dev = some e ∧ e.dev ∉ (s.peerTaken e).fabric.unusable ∧
      (∀ d, d ≠ e.dev → (s.peerTaken e).peer d = s.peer d) ∧ (s.peerTaken e).fabric.tx = s.fabric.tx := by
  have hpeer : ∀ d, (s.peerTaken e).peer d = (((s.dropPeer e.dev).dropPeer e.dev).peer d).or ([e].find? (fun x => x.dev == d)) :=
    fun d => List.find?_append
  refine ⟨?_, fun hmem => ?_, fun d hd => ?_, rfl⟩
  · rw [hpeer, State.dropPeer_peer]
    simp
  · simpa using (List.mem_filter.mp hmem).2
  · rw [hpeer, State.dropPeer_peer_ne hd, State.dropPeer_peer_ne hd]
    simp [Ne.symm hd]

theorem State.peerRefused_holds (s : State) (dev : Nat) :
    (s.peerRefused dev).peer dev = none ∧ dev ∈ (s.peerRefused dev).fabric.unusable ∧
      ∀ d, d ≠ dev → (s.peerRefused dev).peer d = s.peer d :=
  ⟨s.dropPeer_peer dev, List.mem_cons_self, fun _ hd => State.dropPeer_peer_ne hd⟩

/-- The same table of peers gives the same entries. -/
theorem State.peer_of_peers {u : State} (h : u.fabric.peers = s.fabric.peers) (d : Nat) : u.peer d = s.peer d :=
  congrArg (fun l : List Peer => l.find? (fun e : Peer => e.dev == d)) h

/-- The lower version of a HELLO's and the device's. -/
def State.helloVersion (s : State) (p : FalramPkt) : Nat := min (fieldN p.payload 0 2) (s.odG 0x1010 3)

theorem State.helloFrom_refuses (h : s.helloVersion p < fieldN p.payload 2 2 ∨ s.helloVersion p < s.odG 0x1011 3) :
    s.helloFrom p = (s.peerRefused p.srcDev).nak p 0x0008 none := if_pos h

theorem State.helloFrom_takes (hpeer : fieldN p.payload 2 2 ≤ s.helloVersion p) (hown : s.odG 0x1011 3 ≤ s.helloVersion p)
    (hroom : (s.peer p.srcDev).isSome = true ∨ s.fabric.peers.length < 4096) :
    Within [.out] [0x6100] (s.peerTaken (Peer.mk p.srcDev (s.helloVersion p) (fieldN p.payload 4 4) (s.fabricAddr p.link p.srcDev)
      s.clkTime)) (s.helloFrom p) := by
  have hnotFull : (!(s.peer p.srcDev).isSome && decide (4096 ≤ s.fabric.peers.length)) = false := by
    rcases hroom with h | h
    · simp [h]
    · simp [Nat.not_le.mpr h]
  have hin : ¬(s.helloVersion p < fieldN p.payload 2 2 ∨ s.helloVersion p < s.odG 0x1011 3) := by omega
  have heq : s.helloFrom p = if (s.peer p.srcDev).isSome then s.peerTaken (Peer.mk p.srcDev (s.helloVersion p)
      (fieldN p.payload 4 4) (s.fabricAddr p.link p.srcDev) s.clkTime)
    else (s.peerTaken (Peer.mk p.srcDev (s.helloVersion p) (fieldN p.payload 4 4) (s.fabricAddr p.link p.srcDev)
      s.clkTime)).sendHello p.srcDev := by
    unfold State.helloFrom
    dsimp only
    refine (if_neg hin).trans ?_
    rw [hnotFull, if_neg Bool.false_ne_true]
    rfl
  rw [heq]
  exact .ite (fun _ => .refl _) (fun _ => State.sendHello_within _)

theorem State.odAdd_fabricAddr (s : State) (link dev : Nat) : (s.odAdd 0x6100 0xD 1).fabricAddr link dev = s.fabricAddr link dev := by
  have hprefix : (s.odAdd 0x6100 0xD 1).odG 0x6100 4 = s.odG 0x6100 4 := State.odG_odAdd_ne s (.inr (by decide)) (by decide) (by decide)
  unfold State.fabricAddr
  rw [hprefix]
  rfl

/-- A HELLO changes nothing it reads before it is taken. -/
theorem State.odAdd_helloVersion (s : State) (p : FalramPkt) :
    (s.odAdd 0x6100 0xD 1).helloVersion p = s.helloVersion p ∧ (s.odAdd 0x6100 0xD 1).odG 0x1011 3 = s.odG 0x1011 3 :=
  ⟨congrArg (min (fieldN p.payload 0 2)) (State.odG_odAdd_ne s (.inl (by decide)) (by decide) (by decide)),
    State.odG_odAdd_ne s (.inl (by decide)) (by decide) (by decide)⟩

theorem exec_hello (h : Comes s 1 p) (hsrc : p.srcDev ≠ s.fabric.devId) :
    exec (.hello p) s = .next ((s.odAdd 0x6100 0xD 1).helloFrom p) := guardRes_next h.1 (h.receive_hello hsrc)

/-- A HELLO with a version in reach makes or renews the peer's entry (R301). -/
theorem answers_hello_takes (h : Comes s 1 p) (hsrc : p.srcDev ≠ s.fabric.devId)
    (hpeer : fieldN p.payload 2 2 ≤ s.helloVersion p) (hown : s.odG 0x1011 3 ≤ s.helloVersion p)
    (hroom : (s.peer p.srcDev).isSome = true ∨ s.fabric.peers.length < 4096) :
    Answers (.hello p) s (fun u =>
      u.peer p.srcDev = some (Peer.mk p.srcDev (s.helloVersion p) (fieldN p.payload 4 4) (s.fabricAddr p.link p.srcDev) s.clkTime) ∧
      p.srcDev ∉ u.fabric.unusable ∧ (∀ d, d ≠ p.srcDev → u.peer d = s.peer d) ∧ u.fabric.tx = s.fabric.tx) := by
  obtain ⟨hversion, hleast⟩ := s.odAdd_helloVersion p
  have hwithin := State.helloFrom_takes (s := s.odAdd 0x6100 0xD 1) (p := p) (by rw [hversion]; exact hpeer)
    (by rw [hversion, hleast]; exact hown) hroom
  rw [hversion, s.odAdd_fabricAddr] at hwithin
  obtain ⟨hentry, husable, hothers, htx⟩ := (s.odAdd 0x6100 0xD 1).peerTaken_holds
    (Peer.mk p.srcDev (s.helloVersion p) (fieldN p.payload 4 4) (s.fabricAddr p.link p.srcDev) s.clkTime)
  have hfabric := hwithin.fabric (by decide)
  have hpeers := State.peer_of_peers (congrArg Fabric.peers hfabric)
  refine answers_next (exec_hello h hsrc) ⟨(hpeers _).trans hentry, ?_, fun d hd => (hpeers d).trans (hothers d hd), ?_⟩
  · rw [hfabric]
    exact husable
  · rw [hfabric]
    exact htx

/-- A HELLO with no version in reach takes the peer's entry away (R301). -/
theorem answers_hello_refused (h : Comes s 1 p) (hsrc : p.srcDev ≠ s.fabric.devId)
    (hlow : s.helloVersion p < fieldN p.payload 2 2 ∨ s.helloVersion p < s.odG 0x1011 3) :
    Answers (.hello p) s (fun u => u.peer p.srcDev = none ∧ p.srcDev ∈ u.fabric.unusable ∧
      ∀ d, d ≠ p.srcDev → u.peer d = s.peer d) := by
  obtain ⟨hversion, hleast⟩ := s.odAdd_helloVersion p
  have hrefused : (s.odAdd 0x6100 0xD 1).helloFrom p = ((s.odAdd 0x6100 0xD 1).peerRefused p.srcDev).nak p 0x0008 none :=
    State.helloFrom_refuses (by rw [hversion, hleast]; exact hlow)
  obtain ⟨hgone, hunusable, hothers⟩ := (s.odAdd 0x6100 0xD 1).peerRefused_holds p.srcDev
  obtain ⟨-, ⟨m, hfabric⟩, -⟩ := ((s.odAdd 0x6100 0xD 1).peerRefused p.srcDev).nak_holds p 0x0008 none
  have hpeers := State.peer_of_peers (s := (s.odAdd 0x6100 0xD 1).peerRefused p.srcDev)
    (u := ((s.odAdd 0x6100 0xD 1).peerRefused p.srcDev).nak p 0x0008 none) (by rw [hfabric])
  refine answers_next ((exec_hello h hsrc).trans (congrArg _ hrefused))
    ⟨(hpeers _).trans hgone, ?_, fun d hd => (hpeers d).trans (hothers d hd)⟩
  rw [hfabric]
  exact hunusable

/-! ### Packets of no known peer, and of no stream -/

/-- A DATA packet of no known peer is answered by HELLO, and counted (R301). -/
theorem answers_data_stranger (h : Comes s 5 p) (hnone : s.peer p.srcDev = none) :
    Answers (.data p) s (fun u => u.fabric = s.fabric ∧ u.parts = s.parts ∧ u.odG 0x6100 0x11 = s.odG 0x6100 0x11 + 1) := by
  have hhello := State.sendHello_within (s := s.odAdd 0x6100 0xD 1) p.srcDev
  have hcount : ((s.odAdd 0x6100 0xD 1).sendHello p.srcDev).odG 0x6100 0x11 = s.odG 0x6100 0x11 :=
    (State.sendPkt_odG _ _ (by decide) (by decide)).trans (State.odG_odAdd_ne s (.inr (by decide)) (by decide) (by decide))
  refine answers_next (guardRes_next h.1 (h.receive_stranger (by decide) hnone))
    ⟨hhello.fabric (by decide), hhello.parts (by decide), ?_⟩
  rw [State.odG_odAdd_same, hcount]

/-- A violation of a peer that has been heard is counted, and leaves streams and partitions. -/
theorem State.heard_peerFault (p : FalramPkt) (status : Nat) (part : Option (Nat × Nat)) :
    ((s.heard p).peerFault p status part).fabric.rx = s.fabric.rx ∧ ((s.heard p).peerFault p status part).parts = s.parts ∧
      ((s.heard p).peerFault p status part).odG 0x6100 0x11 = s.odG 0x6100 0x11 + 1 := by
  obtain ⟨hwithin, ⟨m, hfabric⟩, hcount⟩ := (s.heard p).peerFault_holds p status part
  refine ⟨?_, hwithin.parts (by decide), ?_⟩
  · rw [hfabric]
    rfl
  · rw [hcount, State.heard_odG (by decide) (by decide)]

theorem answers_data_streamless (h : FromPeer s 5 p) (hnone : s.rxFor p = none) :
    Answers (.data p) s (fun u => u.fabric.rx = s.fabric.rx ∧ u.parts = s.parts ∧ u.odG 0x6100 0x11 = s.odG 0x6100 0x11 + 1) := by
  refine answers_next (guardRes_next h.ok ((h.receive_eq (by decide)).trans ?_)) (State.heard_peerFault p 0x0B06 none)
  have hnone' : (s.heard p).rxFor p = none := hnone
  rw [hnone']

/-! ### Joins (R305) -/

section join

variable {k : Nat} {t : TxStream} (h : FromPeer s 3 p) (hgroup : s.groupTx p.dst = some (k, t)) (hcast : p.mcast = true)
include h hgroup hcast

theorem exec_join : exec (.join p) s = .next
    (if t.receivers.any (fun r => r.dev == p.srcDev) then s.heard p
     else if t.phase ≠ 1 ∨ 64 ≤ t.receivers.length then (s.heard p).nak p 0x0B09 (if t.enc then some (k % 32, t.kslot) else none)
     else ((s.heard p).modTx k (fun t => { t with receivers := t.receivers ++ [{ dev := p.srcDev }] })).odSetP 0x6110 4 (k % 32)
      (t.receivers.length + 1)) := by
  have hgroup' : (s.heard p).groupTx p.dst = some (k, t) := hgroup
  refine guardRes_next h.ok ((h.receive_eq (by decide)).trans ?_)
  unfold State.joinFrom
  rw [hgroup', hcast]
  rfl

/-- A JOIN in time adds a receiver. -/
theorem answers_join (ht : mfind s.fabric.tx k = some t) (hnew : t.receivers.any (fun r => r.dev == p.srcDev) = false)
    (hphase : t.phase = 1) (hroom : t.receivers.length < 64) :
    Answers (.join p) s (fun u => mfind u.fabric.tx k = some { t with receivers := t.receivers ++ [{ dev := p.srcDev }] } ∧
      u.odP 0x6110 4 (k % 32) = t.receivers.length + 1) := by
  have hin : ¬(t.phase ≠ 1 ∨ 64 ≤ t.receivers.length) := by omega
  refine answers_next ((exec_join h hgroup hcast).trans (congrArg _ ((if_neg (by rw [hnew]; decide)).trans (if_neg hin))))
    ⟨State.modTx_tx (s := s.heard p) _ ht, State.odP_odSetP_same _ _ _ _ _⟩

end join

/-! ### OPEN (R303, R304) -/

/-- The partition that an OPEN matches runs a stage. -/
theorem State.openFor_stage {n : Nat} (hopen : s.openFor p = some n) : n < 32 ∧ (s.part n).cmd ≠ .none := by
  refine ⟨List.mem_range.mp (List.mem_of_find?_eq_some hopen), fun hnone => ?_⟩
  have hfound := List.find?_some hopen
  rw [hnone] at hfound
  exact absurd hfound Bool.false_ne_true

section opening

variable (h : FromPeer s 4 p) (hrx : s.rxFor p = none)
include h hrx

theorem exec_openPkt_stageless (hopen : s.openFor p = none) : exec (.openPkt p) s = .next ((s.heard p).nak p 0x0B02 none) := by
  have hrx' : (s.heard p).rxFor p = none := hrx
  have hopen' : (s.heard p).openFor p = none := hopen
  refine guardRes_next h.ok ((h.receive_eq (by decide)).trans ?_)
  unfold State.openFrom
  rw [hrx', hopen']

variable {n : Nat} {b : List Byte} (hopen : s.openFor p = some n) (hnone : mfind s.fabric.rx n = none) (hclear : Clear (s.heard p) 4 n p b)
include hopen hnone hclear

/-- The stream of a sender that OPEN names. -/
def openedRx (p : FalramPkt) (b : List Byte) : RxStream :=
  RxStream.mk p.srcDev p.stream (if p.mcast then some p.dst else none) p.enc p.kslot (fieldN b 0 8) 1 [] 0

theorem exec_openPkt : exec (.openPkt p) s = .next
    (if fieldN b 0 8 ≠ stageLen (s.part n) then ((s.heard p).nak p 0x0003 (rxSeal n (openedRx p b))).endStage n 0x0003
     else if 64 ≤ s.fabric.rx.length then (s.heard p).nak p 0x0B0B (rxSeal n (openedRx p b))
     else ({ s.heard p with fabric := { (s.heard p).fabric with rx := mput s.fabric.rx n (openedRx p b) } } : State).sendAck n) := by
  have hrx' : (s.heard p).rxFor p = none := hrx
  have hopen' : (s.heard p).openFor p = some n := hopen
  have hnone' : mfind (s.heard p).fabric.rx n = none := hnone
  refine guardRes_next h.ok ((h.receive_eq (by decide)).trans ?_)
  unfold State.openFrom
  rw [hrx', hopen']
  dsimp only
  rw [hnone']
  exact (if_neg (by decide)).trans (hclear.withPayload _)

/-- An OPEN that matches a stage opens its stream at CUM 1. -/
theorem answers_openPkt (hlen : fieldN b 0 8 = stageLen (s.part n)) (hroom : s.fabric.rx.length < 64) :
    Answers (.openPkt p) s (fun u => mfind u.fabric.rx n = some (openedRx p b) ∧ u.parts = s.parts) := by
  let z : State := { s.heard p with fabric := { (s.heard p).fabric with rx := mput s.fabric.rx n (openedRx p b) } }
  have hplaced : mfind z.fabric.rx n = some (openedRx p b) := mfind_mput_same _ _ _
  obtain ⟨hfabric, hwithin⟩ := State.sendAck_holds hplaced
  refine answers_next ((exec_openPkt h hrx hopen hnone hclear).trans
    (congrArg _ ((if_neg (not_not.mpr hlen)).trans (if_neg (Nat.not_le.mpr hroom))))) ⟨?_, hwithin.parts (by decide)⟩
  have hsame : mfind (z.sendAck n).fabric.rx n = some (openedRx p b) := by
    rw [hfabric]
    exact mfind_mput_same _ _ _
  exact hsame

/-- An OPEN of another length ends its stage with 0x0003. -/
theorem answers_openPkt_length (hlen : fieldN b 0 8 ≠ stageLen (s.part n)) :
    Answers (.openPkt p) s (fun u => (u.part n).cmd = .none ∧ mfind u.fabric.rx n = none ∧ (n < 32 → u.odP 0x5200 3 n = 0x0003)) := by
  obtain ⟨hn, hcmd⟩ := State.openFor_stage hopen
  have hexec := (exec_openPkt h hrx hopen hnone hclear).trans (congrArg _ (if_pos hlen))
  have hwithin := (State.nak_holds (s := s.heard p) p 0x0003 (rxSeal n (openedRx p b))).1
  generalize (s.heard p).nak p 0x0003 (rxSeal n (openedRx p b)) = z at hexec hwithin
  have hrunning : (z.part n).cmd ≠ .none := by
    rw [hwithin.part]
    exact hcmd
  obtain ⟨hended, hcode, hgone⟩ := State.endStage_holds hn hrunning 0x0003
  refine answers_next hexec ⟨hended, ?_, fun _ => hcode⟩
  rw [hgone]
  exact mfind_mdel_same _ _

end opening

/-! ### DATA (R303, R306, Table 12.7) -/

/-- A violation of any packet but a NAK is answered (R308). -/
theorem State.violation_eq {typ : Nat} (htyp : typ ≠ 7) (status : Nat) (part : Option (Nat × Nat)) :
    s.violation typ p status part = s.peerFault p status part := if_neg htyp

section data

variable {n : Nat} {r : RxStream} (h : FromPeer s 5 p) (hrx : s.rxFor p = some (n, r))
include h hrx

theorem exec_data : exec (.data p) s = .next ((s.heard p).withPayload 5 n p (fun b s => s.dataFrom p n r b)) := by
  have hrx' : (s.heard p).rxFor p = some (n, r) := hrx
  refine guardRes_next h.ok ((h.receive_eq (by decide)).trans ?_)
  rw [hrx']

/-- DATA that cannot be authenticated is refused with 0x0B03 (R306). -/
theorem exec_data_refused (hnone : (s.heard p).clearPayload 5 n p = none) : exec (.data p) s =
    .next ((if p.enc then (s.heard p).odAdd 0x6100 0x10 1 else s.heard p).peerFault p 0x0B03 ((s.heard p).nakSeal n p)) := by
  refine (exec_data h hrx).trans (congrArg _ ?_)
  unfold State.withPayload
  rw [hnone]
  exact State.violation_eq (by decide) _ _

variable {b : List Byte} (hclear : Clear (s.heard p) 5 n p b)
include hclear

theorem exec_data_clear : exec (.data p) s = .next ((s.heard p).dataFrom p n r b) :=
  (exec_data h hrx).trans (congrArg _ (hclear.withPayload _))

/-- A duplicate only counts for the acknowledgement. -/
theorem exec_data_duplicate (hdup : p.psn < r.cum ∨ r.sack.contains p.psn = true) (hacks : r.unacked < 31) : exec (.data p) s =
    .next { s.heard p with fabric := { (s.heard p).fabric with
      rx := mput (s.heard p).fabric.rx n { r with unacked := r.unacked + 1 } } } := by
  refine (exec_data_clear h hrx hclear).trans (congrArg _ ((if_pos hdup).trans ?_))
  have hplaced : mfind (mput (s.heard p).fabric.rx n { r with unacked := r.unacked + 1 }) n =
    some { r with unacked := r.unacked + 1 } := mfind_mput_same _ _ _
  unfold State.ackDue
  dsimp only
  rw [hplaced]
  exact if_neg (Nat.not_le.mpr (Nat.succ_lt_succ hacks))

theorem exec_data_beyond (hnew : r.sack.contains p.psn = false) (hfar : r.cum + 2048 ≤ p.psn) :
    exec (.data p) s = .next ((s.heard p).peerFault p 0x0B06 (rxSeal n r)) := by
  have hnotOld : ¬(p.psn < r.cum ∨ r.sack.contains p.psn = true) := by
    simp only [hnew, Bool.false_eq_true, or_false]
    omega
  exact (exec_data_clear h hrx hclear).trans (congrArg _ ((if_neg hnotOld).trans (if_pos hfar)))

/-- DATA in its place is stored. -/
theorem exec_data_stored (hnew : r.sack.contains p.psn = false) (hlow : r.cum ≤ p.psn) (hnear : p.psn < r.cum + 2048)
    (hin : p.psn ≤ packetsOf r.len) (hfits : p.offset + b.length ≤ r.len) (hfull : p.psn = packetsOf r.len ∨ 8192 ≤ b.length)
    (hends : p.psn = packetsOf r.len → p.offset + b.length = r.len) (hlast : p.last = (p.psn == packetsOf r.len)) :
    exec (.data p) s = .next
      ((State.stageBytes { s.heard p with fabric := { (s.heard p).fabric with rx := mput (s.heard p).fabric.rx n (takePsn r p.psn) } }
        n p.offset b).ackDue n) := by
  have hnotOld : ¬(p.psn < r.cum ∨ r.sack.contains p.psn = true) := by
    simp only [hnew, Bool.false_eq_true, or_false]
    omega
  have hgood : ¬(packetsOf r.len < p.psn ∨ r.len < p.offset + b.length ∨ (p.psn ≠ packetsOf r.len ∧ b.length < 8192) ∨
      (p.psn = packetsOf r.len ∧ p.offset + b.length ≠ r.len) ∨ p.last ≠ (p.psn == packetsOf r.len)) := by
    rintro (hout | hlong | ⟨hmid, hshort⟩ | ⟨hend, hpart⟩ | hflag)
    · omega
    · omega
    · omega
    · exact hpart (hends hend)
    · exact hflag hlast
  exact (exec_data_clear h hrx hclear).trans
    (congrArg _ ((if_neg hnotOld).trans ((if_neg (Nat.not_le.mpr hnear)).trans (if_neg hgood))))

end data

/-! ### ACK (R303) -/

section ack

variable {k : Nat} {t : TxStream} {b : List Byte}

/-- A stream as an acknowledgement of a device leaves it: the device's place, and the packets that some receiver lacks. -/
def TxStream.acked (t : TxStream) (dev cum : Nat) (sack : List Nat) : TxStream :=
  let rs := t.receivers.map (fun r => if r.dev = dev then { r with cum := max r.cum cum, sack := sack } else r)
  { t with receivers := rs, sent := t.sent.filter (fun e => rs.any (lacks e.1)) }

/-- An acknowledgement of nothing beyond a gap shows no packet missing. -/
theorem missingIn_nil (dev cum : Nat) : missingIn { dev := dev, cum := cum, sack := [] } = [] := by
  unfold missingIn
  simp

/-- An ACK of every packet ends the send (R303, R307). -/
theorem State.ackFrom_all {r : Receiver} (ht : mfind s.fabric.tx k = some t) (hphase : t.phase ≠ 1) (hone : t.receivers = [r])
    (hdev : r.dev = p.srcDev) (hnext : t.next = packetsOf t.len + 1) (hcum : fieldN b 0 4 = t.next)
    (hsack : sackOf (fieldN b 0 4) (sliceB b 8 32) = []) :
    s.ackFrom p k t b = (s.modTx k (fun t => t.acked p.srcDev (fieldN b 0 4) [])).endTx k (if t.dropped then 0x0B0D else 0) := by
  have hin : ¬(t.next < fieldN b 0 4 ∨ ([] : List Nat).any (fun n => decide (t.next ≤ n)) = true) := by simp [hcum]
  have hacked := State.modTx_tx (fun t => t.acked p.srcDev (fieldN b 0 4) []) ht
  have hlow : packetsOf t.len + 1 ≤ lowPsn (t.acked p.srcDev (fieldN b 0 4) []) := by
    unfold lowPsn TxStream.acked
    simp [hone, hdev, hcum, hnext]
  have hrun := State.runTx_ends hacked hphase (by change t.next ≠ 0; omega) hlow
  unfold State.ackFrom
  dsimp only
  rw [hsack, if_neg hin, if_pos rfl, missingIn_nil]
  exact hrun

variable (h : FromPeer s 6 p)
include h

theorem exec_ack_none (hnone : s.txFor p = none) : exec (.ack p) s = .next (s.heard p) := by
  have hnone' : (s.heard p).txFor p = none := hnone
  refine guardRes_next h.ok ((h.receive_eq (by decide)).trans ?_)
  rw [hnone']

variable (htx : s.txFor p = some (k, t))
include htx

theorem exec_ack (hclear : Clear (s.heard p) 6 (k % 32) p b) : exec (.ack p) s = .next ((s.heard p).ackFrom p k t b) := by
  have htx' : (s.heard p).txFor p = some (k, t) := htx
  refine guardRes_next h.ok ((h.receive_eq (by decide)).trans ?_)
  rw [htx']
  exact hclear.withPayload _

theorem answers_ack_all {r : Receiver} (ht : mfind s.fabric.tx k = some t) (hk : k < 32) (hchain : t.chain = false)
    (hphase : t.phase ≠ 1) (hone : t.receivers = [r]) (hdev : r.dev = p.srcDev) (hclear : Clear (s.heard p) 6 k p b)
    (hnext : t.next = packetsOf t.len + 1) (hcum : fieldN b 0 4 = t.next)
    (hsack : sackOf (fieldN b 0 4) (sliceB b 8 32) = []) : Answers (.ack p) s (fun u =>
      mfind u.fabric.tx k = none ∧ u.odP 0x6110 2 k = 0 ∧ u.odP 0x6110 3 k = (if t.dropped then 0x0B0D else 0)) := by
  have ht' : mfind (s.heard p).fabric.tx k = some t := ht
  have hall := State.ackFrom_all (p := p) ht' hphase hone hdev hnext hcum hsack
  have hacked := State.modTx_tx (fun t => t.acked p.srcDev (fieldN b 0 4) []) ht'
  have hexec := (exec_ack h htx (by rw [Nat.mod_eq_of_lt hk]; exact hclear)).trans (congrArg _ hall)
  obtain ⟨hfabric, hshown, hcode⟩ := State.endTx_holds hk hacked hchain (if t.dropped then 0x0B0D else 0)
  refine answers_next hexec ⟨?_, hshown, hcode⟩
  rw [hfabric]
  exact mfind_mdel_same _ _

/-- An ACK of packets not sent is a violation (Table 12.7). -/
theorem answers_ack_beyond (hclear : Clear (s.heard p) 6 (k % 32) p b) (hfar : t.next < fieldN b 0 4) :
    Answers (.ack p) s (fun u => u.fabric = (s.heard p).fabric ∧ u.parts = s.parts ∧
      u.odG 0x6100 0x11 = s.odG 0x6100 0x11 + 1) := by
  have hexec := (exec_ack h htx hclear).trans (congrArg _ (if_pos (Or.inl hfar)))
  have hlog := State.log_within ((s.heard p).odAdd 0x6100 0x11 1)
    { rule := 308, status := 0x0B06, sev := 1, source := 6, data := [p.srcDev, p.stream, fieldN b 0 4] }
  refine answers_next hexec ⟨hlog.fabric (by decide), hlog.parts (by decide), ?_⟩
  rw [hlog.odG, State.odG_odAdd_same, State.heard_odG (by decide) (by decide)]

end ack

/-! ### NAK (R305, R307, R308) -/

/-- The partition whose stage waits for a group runs a stage. -/
theorem State.joiner_stage {n : Nat} (hjoiner : s.joiner = some n) : n < 32 ∧ (s.part n).cmd ≠ .none := by
  refine ⟨List.mem_range.mp (List.mem_of_find?_eq_some hjoiner), fun hnone => ?_⟩
  have hfound := List.find?_some hjoiner
  rw [hnone] at hfound
  exact absurd hfound Bool.false_ne_true

/-- The sender of a packet receives the stream that the packet concerns. -/
theorem State.txFor_receives {k : Nat} {t : TxStream} (htx : s.txFor p = some (k, t)) :
    t.receivers.any (fun r => r.dev == p.srcDev) = true := by
  have hfound := List.find?_some htx
  exact (Bool.and_eq_true_iff.mp hfound).2

section nak

variable {b : List Byte} (h : FromPeer s 7 p)
include h

theorem answers_nak_join {n : Nat} (hstatus : p.status = 0x0B09) (hjoiner : s.joiner = some n)
    (hclear : Clear (s.heard p) 7 n p b) : Answers (.nak p) s (fun u => (u.part n).cmd = .none) := by
  have hjoiner' : (s.heard p).joiner = some n := hjoiner
  obtain ⟨hn, hcmd⟩ := State.joiner_stage hjoiner
  have hend : (s.heard p).nakFrom p = (s.heard p).endStage n 0x0B09 := by
    unfold State.nakFrom
    rw [if_pos hstatus, hjoiner']
    exact hclear.withPayload _
  exact answers_next (guardRes_next h.ok ((h.receive_eq (by decide)).trans hend))
    (State.endStage_holds (s := s.heard p) hn hcmd 0x0B09).1

/-- A NAK of another status than of a join or a version concerns the stream its sender receives. -/
theorem exec_nak (hjoin : p.status ≠ 0x0B09) (hversion : p.status ≠ 0x0008) : exec (.nak p) s = .next ((s.heard p).nakFrom p) ∧
    (s.txFor p = none → (s.heard p).nakFrom p = s.heard p) ∧
    (∀ k t b, s.txFor p = some (k, t) → Clear (s.heard p) 7 (k % 32) p b → (s.heard p).nakFrom p =
      if p.status = 0x0B03 ∨ p.status = 0x0001 ∨ p.status = 0x0002 then s.heard p
      else (s.heard p).failReceiver k p.srcDev p.status) := by
  refine ⟨guardRes_next h.ok (h.receive_eq (by decide)), fun hnone => ?_, fun k t b htx hclear => ?_⟩
  · have hnone' : (s.heard p).txFor p = none := hnone
    unfold State.nakFrom
    rw [if_neg hjoin, if_neg hversion]
    dsimp only
    rw [hnone']
  · have htx' : (s.heard p).txFor p = some (k, t) := htx
    unfold State.nakFrom
    rw [if_neg hjoin, if_neg hversion]
    dsimp only
    rw [htx']
    exact hclear.withPayload _

/-- A NAK fails the one receiver of a stream with its code. -/
theorem answers_nak_fails {k : Nat} {t : TxStream} (hjoin : p.status ≠ 0x0B09) (hversion : p.status ≠ 0x0008)
    (hcode : ¬(p.status = 0x0B03 ∨ p.status = 0x0001 ∨ p.status = 0x0002)) (htx : s.txFor p = some (k, t))
    (ht : mfind s.fabric.tx k = some t) (hclear : Clear (s.heard p) 7 (k % 32) p b) (hgroup : t.group = false) (hk : k < 32)
    (hchain : t.chain = false) :
    Answers (.nak p) s (fun u => mfind u.fabric.tx k = none ∧ u.odP 0x6110 2 k = 0 ∧ u.odP 0x6110 3 k = p.status) := by
  obtain ⟨hexec, -, hstream⟩ := exec_nak h hjoin hversion
  have ht' : mfind (s.heard p).fabric.tx k = some t := ht
  have hfails := (hstream k t b htx hclear).trans ((if_neg hcode).trans (State.failReceiver_one ht' hgroup (State.txFor_receives htx) p.status))
  obtain ⟨hfabric, hshown, hstatus⟩ := State.endTx_holds hk ht' hchain p.status
  refine answers_next (hexec.trans (congrArg _ hfails)) ⟨?_, hshown, hstatus⟩
  rw [hfabric]
  exact mfind_mdel_same _ _

end nak

/-! ### CLOSE (R307) -/

section close

variable (h : FromPeer s 8 p)
include h

theorem exec_close_none (hnone : s.rxFor p = none) : exec (.close p) s = .next (s.heard p) := by
  have hnone' : (s.heard p).rxFor p = none := hnone
  refine guardRes_next h.ok ((h.receive_eq (by decide)).trans ?_)
  rw [hnone']

theorem answers_close {n : Nat} {r : RxStream} {b : List Byte} (hrx : s.rxFor p = some (n, r)) (hclear : Clear (s.heard p) 8 n p b)
    (hopen : rxOpen r = true) (hn : n < 32) (hcmd : (s.part n).cmd ≠ .none) :
    Answers (.close p) s (fun u => (u.part n).cmd = .none ∧ u.odP 0x5200 3 n = 0x0B0A ∧ mfind u.fabric.rx n = none) := by
  have hrx' : (s.heard p).rxFor p = some (n, r) := hrx
  have hexec : exec (.close p) s = .next ((s.heard p).endStage n 0x0B0A) := by
    refine guardRes_next h.ok ((h.receive_eq (by decide)).trans ?_)
    rw [hrx']
    exact (hclear.withPayload _).trans (if_pos hopen)
  obtain ⟨hended, hcode, hgone⟩ := State.endStage_holds (s := s.heard p) hn hcmd 0x0B0A
  refine answers_next hexec ⟨hended, hcode, ?_⟩
  rw [hgone]
  exact mfind_mdel_same _ _

end close

end types

end Sys2Proof.Machine

open Sys2Proof Sys2Proof.Machine

/-- Settles O44, by what each type of packet does to the peers and streams of the fabric, once it is received from a peer; the
CRC is checked and counted before the destination (log 113). -/
theorem fabricPackets : Obligations.FabricPackets := by
  unfold Obligations.FabricPackets
  intro s p hp
  refine ⟨fun e he => ?_, fun h hsrc => ⟨answers_hello_takes h hsrc, answers_hello_refused h hsrc⟩, answers_data_stranger,
    fun h => ?_, fun h k t hgroup ht hcast => ⟨fun hmember => ?_, answers_join h hgroup hcast ht, fun hnew hlate => ?_⟩,
    fun h hrx => ⟨exec_openPkt_stageless h hrx, fun n b hopen hnone hclear =>
      ⟨answers_openPkt h hrx hopen hnone hclear, answers_openPkt_length h hrx hopen hnone hclear⟩⟩,
    answers_data_streamless, fun h n r hrx => exec_data_refused h hrx, fun h n r b hrx hclear =>
      ⟨exec_data_duplicate h hrx hclear, fun hfar hnew => exec_data_beyond h hrx hclear hnew hfar,
        fun hlow hnear hnew hin hfits hfull hends hlast =>
          exec_data_stored h hrx hclear hnew hlow hnear hin hfits hfull hends hlast⟩,
    fun h => ⟨exec_ack_none h, fun k t r b htx ht hk hchain hphase hone hdev hclear hnext hcum hsack =>
        answers_ack_all h htx ht hk hchain hphase hone hdev hclear hnext hcum hsack,
      fun k t b htx hclear hfar => answers_ack_beyond h htx hclear hfar⟩,
    fun h => ⟨fun n b => answers_nak_join h, fun hstatus hnone => ?_, fun k t b htx ht hclear =>
      ⟨fun hstatus => ?_, fun hstatus hgroup hk hchain => ?_⟩⟩,
    fun h => ⟨exec_close_none h, fun n r b hrx hclear hopen hn hcmd => answers_close h hrx hclear hopen hn hcmd⟩⟩
  · obtain ⟨run, hexec⟩ := exec_packet (s := s) hp he
    exact ⟨fun habsent => hexec.trans (congrArg _ (State.receive_absent habsent)), fun hon hlink =>
      ⟨fun hcrc => hexec.trans (congrArg _ (State.receive_damaged hon hlink hcrc)),
        fun hcrc hcast hdst => hexec.trans (congrArg _ (State.receive_foreign hon hlink hcrc hcast hdst))⟩⟩
  · exact guardRes_next h.ok (h.receive_eq (by decide))
  · exact (exec_join h hgroup hcast).trans (congrArg _ (if_pos hmember))
  · exact (exec_join h hgroup hcast).trans (congrArg _ ((if_neg (by rw [hnew]; decide)).trans (if_pos hlate)))
  · have hother : p.status ≠ 0x0B09 ∧ p.status ≠ 0x0008 := by simpa using hstatus
    obtain ⟨hexec, hstreamless, -⟩ := exec_nak h hother.1 hother.2
    exact hexec.trans (congrArg _ (hstreamless hnone))
  · have hagain : p.status = 0x0B03 ∨ p.status = 0x0001 ∨ p.status = 0x0002 := by simpa using hstatus
    obtain ⟨hexec, -, hstream⟩ := exec_nak h (by omega) (by omega)
    exact hexec.trans (congrArg _ ((hstream k t b htx hclear).trans (if_pos hagain)))
  · simp only [List.mem_cons, List.not_mem_nil, or_false, not_or] at hstatus
    obtain ⟨hjoin, hversion, hcode⟩ := hstatus
    exact answers_nak_fails h hjoin hversion (by omega) htx ht hclear hgroup hk hchain
end
